-- ==== Sys2Proof/Word.lean ====
section
/-! DEFINITION. The word types of the register file and of memory (R9, R10). -/

namespace Sys2Proof

/-- A 32-bit register (R51). -/
abbrev Word := BitVec 32

/-- A byte of memory. -/
abbrev Byte := BitVec 8

end Sys2Proof
end

