-- ==== Sys2Proof/Syntax.lean ====
section
/-! DEFINITION. The commands of the block: one constructor of `Instr` per row of spec/opcode_table.json, with
the operands the row's rule needs. -/

namespace Sys2Proof

/-- A register write as it arrives at the register port: its writer ID (R60, Table 2-4) and the value. -/
structure RegWrite where
  writer : Nat
  value : Word
  deriving DecidableEq, Repr

/-- A symbol of one receive pair: the raw ADC sample x (Table 4-4) and the interpolated equalizer input z (R178), whose
interpolation is not the spec's. -/
structure Sample where
  x : Int
  z : Int
  deriving DecidableEq, Repr

/-- A line symbol as a lane may take it: from its own receive pair, or from the pair of lane n XOR 1 (R164). -/
structure RxSym where
  own : Sample
  other : Sample
  deriving DecidableEq, Repr

/-- An error that arises in what a memory stores (R420, R451, R452): the 64-bit word `unit` of the Cellar (slice × 0x30000 + word), or the
physical 64-byte line `unit` of the DRAM, data or ECC (channel × 2^27 + line); `hard` says that it is uncorrectable. -/
structure Upset where
  cellar : Bool
  unit : Nat
  hard : Bool
  deriving DecidableEq, Repr

/-- A write that a function of the host sends into its BAR 2 (R561, R570). -/
structure BarWrite where
  off : Nat
  bytes : List Byte
  deriving DecidableEq, Repr

/-- What the host configures of the PCI Express link and functions (Table 13-1): the maximum payload and read request sizes in bytes, ECRC
generation and checking, and the functions in D3hot, the others being in D0. -/
structure PcieCfg where
  mps : Nat := 128
  mrrs : Nat := 512
  ecrcGen : Bool := false
  ecrcCheck : Bool := false
  asleep : List Nat := []
  deriving DecidableEq, Repr

/-- The LP5X memory a board mounts (R408, Table 10-1): 2^(1 + size mod 3) GiB and 1 + ranks mod 2 ranks on each channel. -/
structure Dram where
  size : Nat
  ranks : Nat
  deriving DecidableEq, Repr

/-- The agent whose access to a global address leaves the node (R535): Rootstock or another management agent, a tile, a stage's unit, a Harvest
request, an ETU job by its stage, or the job of ring context × 2 + ring. -/
inductive Requester where
  | rootstock
  | tile (n : Nat)
  | stage (n : Nat)
  | harvest
  | etuJob (stage : Nat)
  | ringJob (k : Nat)
  deriving DecidableEq, Repr


/-- The commands of spec/opcode_table.json, one constructor per row, in the table's order. Every command
begins with `dt`, the AON cycles of 5 ns (R26) that pass before it. A channel event of a lane carries `rx`, the line symbols that
arrived since the lane's last one, in order, up to the event. -/
inductive Instr where
  /-- REGISTER_WRITE (R65). -/
  | registerWrite (dt : Nat) (addr : Nat) (size : Nat) (writes : List RegWrite) (upper : List RegWrite)
  /-- COUNTER_WRITE (R161). -/
  | counterWrite (dt : Nat) (page : Nat) (off : Nat) (w : Nat) (v : Word)
  /-- PAGE_ENABLE (R71). -/
  | pageEnable (dt : Nat) (page : Nat) (w : Nat) (on : Bool)
  /-- SOFT_RESET (R72). -/
  | softReset (dt : Nat) (page : Nat) (w : Nat)
  /-- SOFT_RESET_DONE (R72). -/
  | softResetDone (dt : Nat) (page : Nat)
  /-- FREEZE (R74). -/
  | freeze (dt : Nat) (page : Nat) (w : Nat) (on : Bool)
  /-- FREEZE_SAFE_POINT (R74). -/
  | freezeSafePoint (dt : Nat) (page : Nat)
  /-- DRAIN_COMPLETE (R71). -/
  | drainComplete (dt : Nat) (page : Nat)
  /-- EVENT_PEND_CLEAR (R80). -/
  | eventPendClear (dt : Nat) (page : Nat) (w : Nat) (v : Word)
  /-- ERR_CODE_CLEAR (R85). -/
  | errCodeClear (dt : Nat) (page : Nat) (w : Nat) (v : Word)
  /-- LOCK_ACQUIRE (R89). -/
  | lockAcquire (dt : Nat) (page : Nat) (w : Nat)
  /-- LOCK_RELEASE (R89). -/
  | lockRelease (dt : Nat) (page : Nat) (w : Nat)
  /-- LOCK_RECOVERED (R89). -/
  | lockRecovered (dt : Nat) (page : Nat) (w : Nat)
  /-- LOCK_BREAK (R89). -/
  | lockBreak (dt : Nat) (page : Nat) (w : Nat)
  /-- LOCK_ABANDON (R92). -/
  | lockAbandon (dt : Nat) (page : Nat)
  /-- RESOURCE_GRANT (R101). -/
  | resourceGrant (dt : Nat)
  /-- FRM_START (R115). -/
  | frmStart (dt : Nat) (w : Nat)
  /-- FRM_STOP (R116). -/
  | frmStop (dt : Nat) (w : Nat)
  /-- PLAN_LOAD (R130). -/
  | planLoad (dt : Nat) (w : Nat) (slot : Nat)
  /-- PLAN_LOAD_DONE (R131). -/
  | planLoadDone (dt : Nat)
  /-- PLAN_SWITCH (R134). -/
  | planSwitch (dt : Nat) (w : Nat)
  /-- PLAN_UNLOAD (R135). -/
  | planUnload (dt : Nat) (w : Nat) (slot : Nat)
  /-- PLAN_RECHECK (R160). -/
  | planRecheck (dt : Nat) (slot : Nat)
  /-- TICK (R119). -/
  | tick (dt : Nat)
  /-- FRAME_SYNC_EDGE (R121). -/
  | frameSyncEdge (dt : Nat)
  /-- FLYWHEEL_TICK (R122). -/
  | flywheelTick (dt : Nat)
  /-- SYNC_OUT_END (R120). -/
  | syncOutEnd (dt : Nat)
  /-- TIME_MARK (R124). -/
  | timeMark (dt : Nat)
  /-- TIME_SAMPLE (R127). -/
  | timeSample (dt : Nat) (ctx : Nat) (markSeq : Nat) (gptp : Nat)
  /-- TIME_HOLDOVER (R159). -/
  | timeHoldover (dt : Nat)
  /-- DRAIN_WINDOW_END (R30). -/
  | drainWindowEnd (dt : Nat)
  /-- BINNING_COMPLETE (R32). -/
  | binningComplete (dt : Nat)
  /-- SEP_CLOSE_LATE (R43). -/
  | sepCloseLate (dt : Nat)
  /-- THINNING_DONE (R280). -/
  | thinningDone (dt : Nat)
  /-- DIRECTORY_COMMIT_DONE (R281). -/
  | directoryCommitDone (dt : Nat)
  /-- BANK_TAKE (R270). -/
  | bankTake (dt : Nat)
  /-- STAGE_DISPATCH (R140). -/
  | stageDispatch (dt : Nat)
  /-- STAGE_COMPLETE (R381). -/
  | stageComplete (dt : Nat) (stage : Nat)
  /-- PUBLICATION (R593). -/
  | publication (dt : Nat)
  /-- BUDGET_EXCEEDED (R157). -/
  | budgetExceeded (dt : Nat)
  /-- CORE_FREQ_CHANGE (R733). -/
  | coreFreqChange (dt : Nat)
  /-- FRAME_JOB_ACCEPT (R117). -/
  | frameJobAccept (dt : Nat) (ctx : Nat) (ring : Nat) (records : List Byte)
  /-- LANE_CFG_WRITE (R163). -/
  | laneCfgWrite (dt : Nat) (lane : Nat) (w : Nat) (v : Word)
  /-- LANE_RELOAD (R174). -/
  | laneReload (dt : Nat) (lane : Nat) (w : Nat) (v : Word)
  /-- VGA_SET (R173). -/
  | vgaSet (dt : Nat) (lane : Nat) (w : Nat) (v : Word)
  /-- CTF_SET (R173). -/
  | ctfSet (dt : Nat) (lane : Nat) (w : Nat) (v : Word)
  /-- ACQ_GAIN_CHECK (R177). -/
  | acqGainCheck (dt : Nat) (lane : Nat) (rx : List RxSym)
  /-- ACQUISITION_END (R177). -/
  | acquisitionEnd (dt : Nat) (lane : Nat) (rx : List RxSym)
  /-- TRACKING_GAIN_STEP (R173). -/
  | trackingGainStep (dt : Nat) (lane : Nat) (rx : List RxSym)
  /-- INVALID_WINDOW_END (R182). -/
  | invalidWindowEnd (dt : Nat) (lane : Nat) (rx : List RxSym)
  /-- DEFECT_REGION_END (R177). -/
  | defectRegionEnd (dt : Nat) (lane : Nat) (rx : List RxSym)
  /-- LOS_ENTER (R203). -/
  | losEnter (dt : Nat) (lane : Nat) (rx : List RxSym)
  /-- LOS_CLEAR (R203). -/
  | losClear (dt : Nat) (lane : Nat) (rx : List RxSym)
  /-- TIMING_RANGE (R204). -/
  | timingRange (dt : Nat) (lane : Nat) (rx : List RxSym)
  /-- SYNC_MARK_FOUND (R170). -/
  | syncMarkFound (dt : Nat) (lane : Nat) (rx : List RxSym)
  /-- FRAGMENT_HEADER (R217). -/
  | fragmentHeader (dt : Nat) (lane : Nat) (rx : List RxSym)
  /-- SYNC_WINDOW_CLOSE (R205). -/
  | syncWindowClose (dt : Nat) (lane : Nat) (rx : List RxSym) (second : Bool) (k : Nat)
  /-- SECTOR_DECODE_DONE (R196). -/
  | sectorDecodeDone (dt : Nat) (lane : Nat) (rx : List RxSym)
  /-- IN_GAP_OPEN (R215). -/
  | inGapOpen (dt : Nat) (lane : Nat) (rx : List RxSym)
  /-- INDEX_FIELD_LOCATED (R212). -/
  | indexFieldLocated (dt : Nat) (lane : Nat) (rx : List RxSym) (instant : Nat)
  /-- INDEX_MISS (R253). -/
  | indexMiss (dt : Nat) (lane : Nat) (rx : List RxSym)
  /-- RETRY_STEP_START (R227). -/
  | retryStepStart (dt : Nat) (engine : Nat)
  /-- RETRY_STEP_DONE (R227). -/
  | retryStepDone (dt : Nat) (engine : Nat) (z : List (List Int))
  /-- RETRY_DEADLINE (R229). -/
  | retryDeadline (dt : Nat) (lane : Nat) (seq : Nat)
  /-- DL_SEND (R242). -/
  | dlSend (dt : Nat) (lane : Nat) (w : Nat) (v : Word)
  /-- DOWNLINK_TX_START (R243). -/
  | downlinkTxStart (dt : Nat) (lane : Nat)
  /-- DOWNLINK_TX_DONE (R241). -/
  | downlinkTxDone (dt : Nat) (lane : Nat)
  /-- INHIBIT_WAIT_EXPIRE (R244). -/
  | inhibitWaitExpire (dt : Nat) (lane : Nat)
  /-- POINT_ACCEPT (R257). -/
  | pointAccept (dt : Nat)
  /-- POSE_PUSH (R260). -/
  | posePush (dt : Nat) (w : Nat)
  /-- POSE_CLEAR (R260). -/
  | poseClear (dt : Nat) (w : Nat)
  /-- HRV_ARGMAX (R302). -/
  | hrvArgmax (dt : Nat)
  /-- HRV_TOPK_STREAM (R306). -/
  | hrvTopkStream (dt : Nat)
  /-- HRV_TOPK_BUCKET (R307). -/
  | hrvTopkBucket (dt : Nat)
  /-- HRV_FPS_STEP (R317). -/
  | hrvFpsStep (dt : Nat)
  /-- HRV_REQUEST_DONE (R301). -/
  | hrvRequestDone (dt : Nat)
  /-- SCV_SUBM (R340). -/
  | scvSubm (dt : Nat) (stage : Nat) (chunks : List Nat)
  /-- SCV_STRIDED (R338). -/
  | scvStrided (dt : Nat) (stage : Nat) (chunks : List Nat)
  /-- SCV_INVERSE (R340). -/
  | scvInverse (dt : Nat) (stage : Nat) (chunks : List Nat)
  /-- BEV_SCATTER (R353). -/
  | bevScatter (dt : Nat) (stage : Nat)
  /-- TILE_ITEM_START (R388). -/
  | tileItemStart (dt : Nat) (tile : Nat)
  /-- TILE_MATMUL (R386). -/
  | tileMatmul (dt : Nat) (tile : Nat)
  /-- TILE_DCONV (R386). -/
  | tileDconv (dt : Nat) (tile : Nat)
  /-- TILE_VEC (R387). -/
  | tileVec (dt : Nat) (tile : Nat)
  /-- TILE_REDUCE (R387). -/
  | tileReduce (dt : Nat) (tile : Nat)
  /-- TILE_DMA (R386). -/
  | tileDma (dt : Nat) (tile : Nat)
  /-- TILE_GATHER (R386). -/
  | tileGather (dt : Nat) (tile : Nat)
  /-- TILE_HRV (R386). -/
  | tileHrv (dt : Nat) (tile : Nat)
  /-- TILE_FENCE (R386). -/
  | tileFence (dt : Nat) (tile : Nat)
  /-- TILE_OP_COMPLETE (R389). -/
  | tileOpComplete (dt : Nat) (tile : Nat) (unit : Nat) (mismatch : Bool)
  /-- TILE_GATE (R393). -/
  | tileGate (dt : Nat) (tile : Nat)
  /-- TILE_WAKE (R394). -/
  | tileWake (dt : Nat) (tile : Nat)
  /-- TILE_WAKE_CMD (R394). -/
  | tileWakeCmd (dt : Nat) (tile : Nat) (w : Nat) (v : Word)
  /-- TEST_WINDOW_OPEN (R396). -/
  | testWindowOpen (dt : Nat)
  /-- TEST_DONE (R395). -/
  | testDone (dt : Nat) (tile : Nat) (pass : Bool)
  /-- TEST_REQ (R400). -/
  | testReq (dt : Nat) (w : Nat) (v : Word)
  /-- TEST_OVERDUE (R398). -/
  | testOverdue (dt : Nat) (tile : Nat)
  /-- CHURN_READ (R425). -/
  | churnRead (dt : Nat) (addr : Nat) (n : Nat)
  /-- CHURN_WRITE (R425). -/
  | churnWrite (dt : Nat) (addr : Nat) (data : List Byte) (poison : Bool)
  /-- CHURN_ADD32 (R426). -/
  | churnAdd32 (dt : Nat) (addr : Nat) (mask : Nat) (addends : List Nat) (poison : Bool)
  /-- SUMMARY_MERGE (R425). -/
  | summaryMerge (dt : Nat) (addr : Nat) (data : List Byte) (poison : Bool)
  /-- CHURN_DEQUANT (R428). -/
  | churnDequant (dt : Nat) (addr : Nat) (fmt : Nat) (elems : Nat)
  /-- CHURN_POOL (R428). -/
  | churnPool (dt : Nat) (addrs : List Nat) (fmt : Nat) (elems : Nat) (mode : Nat)
  /-- SCRUB_LINE (R454). -/
  | scrubLine (dt : Nat) (chan : Nat) (mr4 : Nat) (upsets : List Upset)
  /-- SHARD_CFG_WRITE (R419). -/
  | shardCfgWrite (dt : Nat) (chan : Nat) (w : Nat) (v : Word)
  /-- ETU_DEFINE (R458). -/
  | etuDefine (dt : Nat) (w : Nat) (table : Nat)
  /-- ETU_UNDEFINE (R498). -/
  | etuUndefine (dt : Nat) (w : Nat) (table : Nat)
  /-- ETU_REPLACE (R495). -/
  | etuReplace (dt : Nat) (w : Nat) (table : Nat)
  /-- ETU_FOLD (R492). -/
  | etuFold (dt : Nat) (w : Nat) (table : Nat)
  /-- ETU_UNMIGRATE (R489). -/
  | etuUnmigrate (dt : Nat) (w : Nat) (table : Nat)
  /-- ETU_CACHE_FLUSH (R484). -/
  | etuCacheFlush (dt : Nat) (w : Nat) (table : Nat)
  /-- ETU_CMD_DONE (R498). -/
  | etuCmdDone (dt : Nat) (upto : Nat)
  /-- ETU_GATHER (R472). -/
  | etuGather (dt : Nat) (stage : Nat) (upto : Nat)
  /-- ETU_POOL (R473). -/
  | etuPool (dt : Nat) (stage : Nat) (upto : Nat)
  /-- ETU_UPDATE (R474). -/
  | etuUpdate (dt : Nat) (stage : Nat) (upto : Nat)
  /-- ETU_JOB_DONE (R475). -/
  | etuJobDone (dt : Nat) (stage : Nat)
  /-- LOAD_WINDOW_END (R486). -/
  | loadWindowEnd (dt : Nat)
  /-- MIGRATION_MOVE (R488). -/
  | migrationMove (dt : Nat)
  /-- CACHE_SHARE_WRITE (R485). -/
  | cacheShareWrite (dt : Nat) (w : Nat) (v : Word)
  /-- LINK_TRAIN_DONE (R521). -/
  | linkTrainDone (dt : Nat) (port : Nat)
  /-- LINK_ALIGN_DONE (R521). -/
  | linkAlignDone (dt : Nat) (port : Nat)
  /-- GRF_EXCHANGE (R516). -/
  | grfExchange (dt : Nat) (port : Nat) (node : Nat) (dir : Nat) (cfg : Word) (seq : Nat)
  /-- DATA_FLIT (R523). -/
  | dataFlit (dt : Nat) (port : Nat) (pos : Nat) (levels : List Nat)
  /-- GRF_NAK (R523). -/
  | grfNak (dt : Nat) (port : Nat) (seq : Nat)
  /-- REPLAY_TIMEOUT (R523). -/
  | replayTimeout (dt : Nat) (port : Nat)
  /-- LANE_LOCK_LOST (R524). -/
  | laneLockLost (dt : Nat) (port : Nat) (lanes : Nat)
  /-- RECOVER_TIMEOUT (R524). -/
  | recoverTimeout (dt : Nat) (port : Nat)
  /-- GRF_READ (R539). -/
  | grfRead (dt : Nat) (port : Nat)
  /-- GRF_WRITE (R539). -/
  | grfWrite (dt : Nat) (port : Nat)
  /-- GRF_ADD32 (R539). -/
  | grfAdd32 (dt : Nat) (port : Nat)
  /-- GRF_GATHER (R540). -/
  | grfGather (dt : Nat) (port : Nat)
  /-- GRF_TADD (R540). -/
  | grfTadd (dt : Nat) (port : Nat)
  /-- GRF_MESSAGE (R541). -/
  | grfMessage (dt : Nat) (port : Nat)
  /-- GRF_BARRIER_ARRIVE (R545). -/
  | grfBarrierArrive (dt : Nat) (port : Nat)
  /-- GRF_BARRIER_RELEASE (R545). -/
  | grfBarrierRelease (dt : Nat) (port : Nat)
  /-- GRF_RSP_DATA (R537). -/
  | grfRspData (dt : Nat) (port : Nat)
  /-- GRF_RSP_ACK (R537). -/
  | grfRspAck (dt : Nat) (port : Nat)
  /-- TRANSIT_FORWARD (R530). -/
  | transitForward (dt : Nat) (port : Nat)
  /-- REMOTE_REQUEST (R535). -/
  | remoteRequest (dt : Nat) (who : Requester) (kind : Nat) (addr : Nat) (n : Nat) (mask : Nat) (data : List Byte)
  /-- REMOTE_TIMEOUT (R553). -/
  | remoteTimeout (dt : Nat)
  /-- LOST_SET (R553). -/
  | lostSet (dt : Nat) (w : Nat) (node : Nat)
  /-- LOST_CLEAR (R553). -/
  | lostClear (dt : Nat) (w : Nat) (node : Nat)
  /-- LOST_QUERY (R553). -/
  | lostQuery (dt : Nat) (w : Nat) (node : Nat)
  /-- BAR_ARRIVE (R545). -/
  | barArrive (dt : Nat) (w : Nat) (bar : Nat)
  /-- BAR_CFG_WRITE (R546). -/
  | barCfgWrite (dt : Nat) (w : Nat) (bar : Nat) (v : Word)
  /-- BARRIER_TIMEOUT (R554). -/
  | barrierTimeout (dt : Nat) (bar : Nat)
  /-- NODE_CFG_WRITE (R557). -/
  | nodeCfgWrite (dt : Nat) (w : Nat) (v : Word)
  /-- RING_TAIL_WRITE (R573). -/
  | ringTailWrite (dt : Nat) (fn : Nat) (ctx : Nat) (ring : Nat) (writes : List BarWrite) (tail : Nat)
  /-- RING_ENTRY_CONSUME (R575). -/
  | ringEntryConsume (dt : Nat)
  /-- JOB_NOP (R576). -/
  | jobNop (dt : Nat) (ctx : Nat) (ring : Nat)
  /-- JOB_COPY_IN (R576). -/
  | jobCopyIn (dt : Nat) (ctx : Nat) (ring : Nat) (host : List Byte)
  /-- JOB_COPY_OUT (R583). -/
  | jobCopyOut (dt : Nat) (ctx : Nat) (ring : Nat)
  /-- COPY_COMPLETE (R583). -/
  | copyComplete (dt : Nat) (ctx : Nat) (ring : Nat)
  /-- JOB_FRAME (R579). -/
  | jobFrame (dt : Nat) (ctx : Nat) (ring : Nat)
  /-- JOB_WAIT_FRAME (R580). -/
  | jobWaitFrame (dt : Nat) (ctx : Nat) (ring : Nat)
  /-- JOB_REG_WRITE (R578). -/
  | jobRegWrite (dt : Nat) (ctx : Nat) (ring : Nat)
  /-- JOB_REG_READ (R578). -/
  | jobRegRead (dt : Nat) (ctx : Nat) (ring : Nat)
  /-- JOB_DOWNLINK (R581). -/
  | jobDownlink (dt : Nat) (ctx : Nat) (ring : Nat)
  /-- JOB_BARRIER (R582). -/
  | jobBarrier (dt : Nat) (ctx : Nat) (ring : Nat)
  /-- CTX_RESET (R596). -/
  | ctxReset (dt : Nat) (fn : Nat) (ctx : Nat)
  /-- VF_FLR (R597). -/
  | vfFlr (dt : Nat) (fn : Nat)
  /-- PF_FLR (R598). -/
  | pfFlr (dt : Nat) (down : Bool)
  /-- PERST (R786). -/
  | perst (dt : Nat)
  /-- HOST_ACCESS_FAIL (R602). -/
  | hostAccessFail (dt : Nat) (ctx : Nat) (ring : Nat) (k : Nat)
  /-- POISONED_TLP (R603). -/
  | poisonedTlp (dt : Nat) (ecrc : Bool)
  /-- FUNC_CTX_WRITE (R564). -/
  | funcCtxWrite (dt : Nat) (w : Nat) (fn : Nat) (v : Word)
  /-- MSIX_UNMASK (R595). -/
  | msixUnmask (dt : Nat) (fn : Nat) (vec : Nat)
  /-- L1_ENTRY (R559). -/
  | l1Entry (dt : Nat)
  /-- HOST_CONFIG_READY (R793). -/
  | hostConfigReady (dt : Nat) (speed : Nat) (width : Nat) (cfg : PcieCfg)
  /-- PRIVATE_POST (R610). -/
  | privatePost (dt : Nat) (fn : Nat) (ctx : Nat) (slot : Nat) (off : Nat) (bytes : List Byte)
  /-- PRIVATE_SLOT_FREE (R610). -/
  | privateSlotFree (dt : Nat) (fn : Nat) (ctx : Nat) (slot : Nat)
  /-- PRIVATE_TAKE (R614). -/
  | privateTake (dt : Nat)
  /-- HOST_NOTE (R650). -/
  | hostNote (dt : Nat)
  /-- PRIV_POLICY_WRITE (R617). -/
  | privPolicyWrite (dt : Nat) (w : Nat) (k : Nat) (v : Word)
  /-- MAILBOX_SEND (R623). -/
  | mailboxSend (dt : Nat) (who : Requester) (mailbox : Nat) (off : Nat) (bytes : List Byte)
  /-- SEND_CMD_RST (R622). -/
  | sendCmdRst (dt : Nat) (w : Nat) (mailbox : Nat)
  /-- SEND_CMD_PF (R622). -/
  | sendCmdPf (dt : Nat) (w : Nat) (mailbox : Nat)
  /-- MB_TAKE (R624). -/
  | mbTake (dt : Nat) (w : Nat) (mailbox : Nat) (v : Word)
  /-- DB_RING (R634). -/
  | dbRing (dt : Nat) (w : Nat) (receiver : Nat) (v : Word)
  /-- DB_PEND_CLEAR (R634). -/
  | dbPendClear (dt : Nat) (w : Nat) (receiver : Nat) (v : Word)
  /-- DB_MASK_WRITE (R635). -/
  | dbMaskWrite (dt : Nat) (w : Nat) (receiver : Nat) (v : Word)
  /-- MBX_CFG_WRITE (R632). -/
  | mbxCfgWrite (dt : Nat) (w : Nat) (off : Nat) (v : Word)
  /-- ROOTSTOCK_RESET (R645). -/
  | rootstockReset (dt : Nat) (flash : Bool) (rom : Bool) (digA : List Nat) (digB : List Nat)
  /-- ROOTSTOCK_READY (R646). -/
  | rootstockReady (dt : Nat) (bootWord : Nat)
  /-- RST_RESET_REQ (R649). -/
  | rstResetReq (dt : Nat) (w : Nat) (key : Nat) (req : Nat)
  /-- RST_WATCHDOG (R647). -/
  | rstWatchdog (dt : Nat) (flash : Bool) (rom : Bool) (digA : List Nat) (digB : List Nat)
  /-- LOCKSTEP_MISMATCH (R648). -/
  | lockstepMismatch (dt : Nat)
  /-- SRAM_UE (R687). -/
  | sramUe (dt : Nat)
  /-- THERMAL_SCAN (R651). -/
  | thermalScan (dt : Nat) (temps : List Int) (mv : List Nat)
  /-- CLOCK_MONITOR_FAULT (R653). -/
  | clockMonitorFault (dt : Nat) (domain : Nat)
  /-- VOLTAGE_WINDOW_FAULT (R844). -/
  | voltageWindowFault (dt : Nat) (rail : Nat) (mv : Nat)
  /-- SHOCK_SAMPLE (R655). -/
  | shockSample (dt : Nat) (res : Nat) (x : Int) (y : Int) (z : Int)
  /-- COOLANT_SAMPLE (R657). -/
  | coolantSample (dt : Nat) (reading : Option Int)
  /-- LOG_ENTRY (R660). -/
  | logEntry (dt : Nat)
  /-- BB_WRITE (R662). -/
  | bbWrite (dt : Nat) (ok : Bool)
  /-- LOG_FETCH (R664). -/
  | logFetch (dt : Nat) (w : Nat)
  /-- LOG_FETCH_DONE (R664). -/
  | logFetchDone (dt : Nat) (raw : Option (List Byte))
  /-- UPD_STAGE (R670). -/
  | updStage (dt : Nat) (w : Nat) (key : Nat) (words : List Nat)
  /-- UPD_STAGE_DONE (R670). -/
  | updStageDone (dt : Nat) (flashOk : Bool)
  /-- UPD_ACTIVATE (R669). -/
  | updActivate (dt : Nat) (w : Nat) (key : Nat) (words : List Nat)
  /-- UPD_CONFIRM (R669). -/
  | updConfirm (dt : Nat) (w : Nat) (key : Nat) (words : List Nat)
  /-- UPD_REVERT (R669). -/
  | updRevert (dt : Nat) (w : Nat) (key : Nat) (words : List Nat)
  /-- UPD_ABORT (R669). -/
  | updAbort (dt : Nat) (w : Nat) (key : Nat)
  /-- UPD_REVOKE (R669). -/
  | updRevoke (dt : Nat) (w : Nat) (key : Nat) (words : List Nat)
  /-- OVERRIDE_SET (R677). -/
  | overrideSet (dt : Nat) (w : Nat) (key : Nat)
  /-- OVERRIDE_CLEAR (R679). -/
  | overrideClear (dt : Nat) (w : Nat) (key : Nat)
  /-- DBG_CHALLENGE (R681). -/
  | dbgChallenge (dt : Nat) (nonce : Nat)
  /-- DBG_RESPONSE (R681). -/
  | dbgResponse (dt : Nat) (response : List Byte)
  /-- DBG_REG (R682). -/
  | dbgReg (dt : Nat) (addr : Nat) (write : Bool) (v : Word)
  /-- DBG_CLOSE (R682). -/
  | dbgClose (dt : Nat)
  /-- TAP_RESET (R682). -/
  | tapReset (dt : Nat)
  /-- DEBUG_LEASE_EXPIRE (R682). -/
  | debugLeaseExpire (dt : Nat)
  /-- DEBUG_LOCKOUT_END (R681). -/
  | debugLockoutEnd (dt : Nat)
  /-- DBG_CFG_WRITE (R682). -/
  | dbgCfgWrite (dt : Nat) (w : Nat) (v : Word)
  /-- DMI_HALT (R683). -/
  | dmiHalt (dt : Nat)
  /-- JTAG_EXTEST (R819). -/
  | jtagExtest (dt : Nat)
  /-- JTAG_CLAMP (R819). -/
  | jtagClamp (dt : Nat)
  /-- JTAG_HIGHZ (R819). -/
  | jtagHighz (dt : Nat)
  /-- PERSIST_WRITE (R699). -/
  | persistWrite (dt : Nat) (page : Nat) (word : Nat) (lo : List RegWrite) (hi : List RegWrite)
  /-- PERSIST_COMMIT_DONE (R702). -/
  | persistCommitDone (dt : Nat) (ok : Bool)
  /-- BROWN_OUT (R706). -/
  | brownOut (dt : Nat)
  /-- BROWN_OUT_END (R706). -/
  | brownOutEnd (dt : Nat)
  /-- WEAR_SEL_WRITE (R708). -/
  | wearSelWrite (dt : Nat) (w : Nat) (v : Word)
  /-- LIFETIME_COMMIT (R709). -/
  | lifetimeCommit (dt : Nat)
  /-- PWR_REQ_RUN (R718). -/
  | pwrReqRun (dt : Nat) (w : Nat)
  /-- PWR_REQ_TRIM (R718). -/
  | pwrReqTrim (dt : Nat) (w : Nat)
  /-- PWR_REQ_SENTRY (R719). -/
  | pwrReqSentry (dt : Nat) (w : Nat)
  /-- PWR_REQ_PARKED (R719). -/
  | pwrReqParked (dt : Nat) (w : Nat)
  /-- LOW_POWER_ENTRY_DONE (R720). -/
  | lowPowerEntryDone (dt : Nat)
  /-- WAKE_IN (R721). -/
  | wakeIn (dt : Nat)
  /-- WAKE_TIMER (R721). -/
  | wakeTimer (dt : Nat)
  /-- WAKE_DONE (R721). -/
  | wakeDone (dt : Nat) (failed : List Nat)
  /-- WAKE_CAUSE_CLEAR (R721). -/
  | wakeCauseClear (dt : Nat) (w : Nat) (v : Word)
  /-- SENTRY_WINDOW (R724). -/
  | sentryWindow (dt : Nat)
  /-- SENTRY_LISTEN_END (R724). -/
  | sentryListenEnd (dt : Nat)
  /-- SENTRY_PROGRAM_DONE (R725). -/
  | sentryProgramDone (dt : Nat)
  /-- SENTRY_PROGRAM_OVERRUN (R725). -/
  | sentryProgramOverrun (dt : Nat)
  /-- HW_THERMAL_TRIP (R729). -/
  | hwThermalTrip (dt : Nat) (sensor : Nat) (t : Int)
  /-- AGE_HOUR (R738). -/
  | ageHour (dt : Nat) (slack : Nat) (held : Bool)
  /-- VDD_LOW (R746). -/
  | vddLow (dt : Nat) (mv : Nat)
  /-- SAF_ENTER (R754). -/
  | safEnter (dt : Nat) (w : Nat) (key : Nat)
  /-- SAF_RELEASE (R761). -/
  | safRelease (dt : Nat) (w : Nat) (key : Nat)
  /-- SAFE_STATE_RELEASE (R762). -/
  | safeStateRelease (dt : Nat)
  /-- FRAME_WATCHDOG (R764). -/
  | frameWatchdog (dt : Nat)
  /-- E2E_CHECK_DONE (R766). -/
  | e2eCheckDone (dt : Nat)
  /-- REDUND_DECISION (R768). -/
  | redundDecision (dt : Nat) (pair : Nat) (seq : Nat)
  /-- REG_PARITY_ERROR (R770). -/
  | regParityError (dt : Nat) (page : Nat) (off : Nat)
  /-- PARITY_SCAN (R771). -/
  | parityScan (dt : Nat) (page : Nat)
  /-- INJ_ARM (R773). -/
  | injArm (dt : Nat) (w : Nat) (target : Nat) (inst : Nat)
  /-- INJECTION_APPLY (R774). -/
  | injectionApply (dt : Nat)
  /-- SAF_SELF_FAULT (R777). -/
  | safSelfFault (dt : Nat)
  /-- POWER_ON_RESET (R784). -/
  | powerOnReset (dt : Nat) (cause : Nat) (fuseOk : Bool) (form : Nat) (flash : Bool) (rom : Bool) (digA : List Nat) (digB : List Nat)
    (dram : Dram)
  /-- DEVICE_RESET_REQUEST (R785). -/
  | deviceResetRequest (dt : Nat) (w : Nat) (key : Nat) (device : Nat)
  /-- DEVICE_RESET (R784). -/
  | deviceReset (dt : Nat) (fuseOk : Bool) (flash : Bool) (rom : Bool) (digA : List Nat) (digB : List Nat)
  /-- STARTUP_TILE_TEST_DONE (R787). -/
  | startupTileTestDone (dt : Nat) (failed : List Nat)
  /-- DRAM_TRAINING_DONE (R787). -/
  | dramTrainingDone (dt : Nat) (failed : List Nat) (rates : List Nat)
  /-- STARTUP_CHECKS (R791). -/
  | startupChecks (dt : Nat)
  /-- GPIO_FUNC_WRITE (R816). -/
  | gpioFuncWrite (dt : Nat) (w : Nat) (high : Bool) (v : Word)
  /-- CLOCK_IN_WINDOW (R754). -/
  | clockInWindow (dt : Nat)
  /-- RAILS_IN_WINDOW (R754). -/
  | railsInWindow (dt : Nat)
  /-- ROOTSTOCK_ASLEEP (R616). -/
  | rootstockAsleep (dt : Nat)
  /-- VF_ENABLE_WRITE (R92). -/
  | vfEnableWrite (dt : Nat) (enable : Bool) (n : Nat)
  /-- BAR4_WRITE (R422). -/
  | bar4Write (dt : Nat) (offset : Nat) (bytes : List Byte)
  /-- JTAG_OTHER_INSTRUCTION (R819). -/
  | jtagOtherInstruction (dt : Nat) (ir : Nat)
  deriving DecidableEq, Repr

end Sys2Proof
end

