-- ==== Sys2Proof/Decode.lean ====
section
/-! DEFINITION. Decoding of table words. No row of spec/opcode_table.json gives bits: a command arrives as a command, not
as a word, so no word spells one. -/

namespace Sys2Proof

/-- The command a word of `nbits` bits spells by the table: none, for the table gives no row bits.
[DESIGN CHOICE: notes/assumptions/1.md] -/
def decodeTableWord (_nbits _w : Nat) : Option Instr := none

end Sys2Proof
end

