-- ==== Sys2Proof/Config.lean ====
section
/-! DEFINITION. What an implementation fixes and what the spec leaves open: the free values are opaque
constants, so that no proof can rest on a number chosen for one of them. -/

namespace Sys2Proof

/-- A value the spec leaves undefined: the `n`-th free value the machine draws (State.free counts them).
[DESIGN CHOICE: notes/assumptions/6.md] -/
opaque Config.freeValue : Nat → Nat

/-- The `i`-th part of the `n`-th free value: one for each place where an operation's result is undefined.
[DESIGN CHOICE: notes/assumptions/6.md] -/
opaque Config.freeAt : Nat → Nat → Nat

/-- A byte of a Directory table or of the row cache as a read sees it (R335): by the AON cycle of the read and the byte's place.
[DESIGN CHOICE: notes/assumptions/6.md] -/
opaque Config.tableByte : Nat → Nat → Nat

/-- The carve-out line that backs a line of the result-buffer window (R454, R455): channel × 65,536 + line. [DESIGN CHOICE:
notes/assumptions/49.md] -/
opaque Config.windowPlace : Nat → Nat

/-- SHA-384 of a byte string, as a number (R665 to R671): computed outside the spec's own rules. [DESIGN CHOICE: notes/assumptions/6.md] -/
opaque Config.sha384 : List (BitVec 8) → Nat

/-- ECDSA over P-384 with SHA-384: message, KEY_X, KEY_Y, r, s (Table 15-12). [DESIGN CHOICE: notes/assumptions/6.md] -/
opaque Config.ecdsaP384 : List (BitVec 8) → Nat → Nat → Nat → Nat → Bool

/-- The security words that an update command with OP programs for a slot (R668, R693): where the region keeps its records is not
the spec's. [DESIGN CHOICE: notes/assumptions/6.md] -/
opaque Config.securityWords : Nat → List Nat

/-- The PCI Express Device Serial Number of the part (R681). [DESIGN CHOICE: notes/assumptions/6.md] -/
opaque Config.deviceSerial : Nat

/-- Fraction bits of an adaptive loop's internal value (R178): 0 gain, 1 offset, 2 asymmetry, 3 timing. Table 4-7 gives the width of the
taps alone. [DESIGN CHOICE: notes/assumptions/79.md] -/
opaque Config.loopFrac : Nat → Nat

/-- Whether the channel rounds num / den up or down where it is no integer, for each of its roundings (R172, R178, R187, R190, R194).
[DESIGN CHOICE: notes/assumptions/79.md] -/
opaque Config.roundUp : Nat → Int → Nat → Bool

/-- FREQ_PPB that a value of the timing loop's frequency stands for (R178): the scale of the update law is not the spec's.
[DESIGN CHOICE: notes/assumptions/79.md] -/
opaque Config.freqPpb : Int → Int

/-- The frequency of the timing loop at 500 ppm, to which it is clamped (R178, Table 4-7). [DESIGN CHOICE: notes/assumptions/79.md] -/
opaque Config.freqBound : Nat

/-- What the detector outputs for a difference of path errors while MSE is 0, where W = 1 / (2σ²) has no value (R189).
[DESIGN CHOICE: notes/assumptions/79.md] -/
opaque Config.llrAtZeroMse : Int → Int

/-- What a comparison takes on a tie: the detector's paths (R178, R189) and the decision on an LLR of 0 (R190).
[DESIGN CHOICE: notes/assumptions/79.md] -/
opaque Config.tieBit : Nat → Bool

/-- Fraction bits of the decoder's internal messages below the unit of an LLR (R190, R194). [DESIGN CHOICE: notes/assumptions/79.md] -/
opaque Config.decFrac : Nat

/-- ASYM as re-estimated over stored samples (Table 5-8, step 4): the rule does not say how. [DESIGN CHOICE: notes/assumptions/79.md] -/
opaque Config.asymEstimate : List Int → Int

end Sys2Proof
end

