-- ==== Sys2Proof/Machine/Bits.lean ====
section
/-! DEFINITION. Bit fields, signed readings and byte order (R9, R10). -/

namespace Sys2Proof.Machine

/-- Bits hi:lo of `n`, as a number (R9). -/
def natBits (n hi lo : Nat) : Nat := (n >>> lo) % 2 ^ (hi + 1 - lo)

/-- Bits hi:lo of a register. -/
def getBits (w : Word) (hi lo : Nat) : Nat := natBits w.toNat hi lo

/-- `w` with bits hi:lo replaced by `v`, whose higher bits are dropped. -/
def setBits (w : Word) (hi lo v : Nat) : Word :=
  BitVec.ofNat 32 (w.toNat - ((getBits w hi lo) <<< lo) + ((v % 2 ^ (hi + 1 - lo)) <<< lo))

/-- Bit `b` of a number. -/
def bitOf (n b : Nat) : Bool := (n >>> b) % 2 == 1

/-- A number with bit `b` set. -/
def setBit (n b : Nat) : Nat := if bitOf n b then n else n + 2 ^ b

/-- A number with bit `b` clear. -/
def clrBit (n b : Nat) : Nat := if bitOf n b then n - 2 ^ b else n

/-- A number with bit `b` given. -/
def putBit (n b : Nat) (v : Bool) : Nat := if v then setBit n b else clrBit n b

/-- The two's-complement reading of a `bits`-bit number. -/
def signed (bits n : Nat) : Int :=
  if n % 2 ^ bits < 2 ^ (bits - 1) then (n % 2 ^ bits : Nat) else ((n % 2 ^ bits : Nat) : Int) - (2 ^ bits : Nat)

/-- The `bits`-bit two's-complement code of an integer, modulo 2^bits. -/
def unsigned (bits : Nat) (i : Int) : Nat := (i % ((2 ^ bits : Nat) : Int)).toNat

/-- An integer limited to a `bits`-bit signed range. -/
def satSigned (bits : Nat) (i : Int) : Int :=
  max (-((2 ^ (bits - 1) : Nat) : Int)) (min (((2 ^ (bits - 1) : Nat) : Int) - 1) i)

/-- An integer clamped between two bounds. -/
def clampInt (lo hi i : Int) : Int := max lo (min hi i)

/-- Number of set bits among the lowest `n`. -/
def popCount : Nat → Nat → Nat
  | 0, _ => 0
  | n + 1, v => v % 2 + popCount n (v / 2)

/-- Bytes, lowest address first, as a number (R10). -/
def leNat : List Byte → Nat
  | [] => 0
  | b :: t => b.toNat + 256 * leNat t

/-- The `n` bytes of a number, lowest address first (R10). -/
def leBytes : Nat → Nat → List Byte
  | 0, _ => []
  | n + 1, v => BitVec.ofNat 8 v :: leBytes n (v / 256)

/-- A number in a structure's bytes. -/
def fieldOf (b : List Byte) (off n : Nat) : Nat := leNat ((b.drop off).take n)

/-- A register value from a number, modulo 2^32. -/
def word (n : Nat) : Word := BitVec.ofNat 32 n

/-- Division rounded up. -/
def ceilDiv (a b : Nat) : Nat := (a + b - 1) / b

/-- Bits from a Bool. -/
def b2n (b : Bool) : Nat := if b then 1 else 0

end Sys2Proof.Machine
end

