-- ==== Sys2Proof/Machine/Fields.lean ====
section
/-! DEFINITION. The register and field names of the register tables of spec/ (the Tables of each
chapter's "Registers" section): for every register its key in the register file, and for every field its
register and bits. A BAR 0 register at page p, offset o has the key p × 0x1000 + o (R49); a context page
register of BAR 2 (R48, Table 2-1) has the key (0x1000 + context) × 0x1000 + o. An argument n is the
instance of the page, k the index of the register in an array. -/

namespace Sys2Proof.Machine

/-- A field of a register: the key of the register and the field's highest and lowest bit. -/
structure Field where
  reg : Nat
  hi : Nat
  lo : Nat
  deriving DecidableEq, Repr

/-! Table 0-6 (00_scope.md). -/

def R.GLB_DEVICE_IDENT : Nat := 0x40
def F.GLB_DEVICE_IDENT_PART_CODE : Field := ⟨R.GLB_DEVICE_IDENT, 31, 16⟩
def F.GLB_DEVICE_IDENT_STEPPING : Field := ⟨R.GLB_DEVICE_IDENT, 15, 8⟩
def F.GLB_DEVICE_IDENT_GRADE : Field := ⟨R.GLB_DEVICE_IDENT, 7, 4⟩
def F.GLB_DEVICE_IDENT_TILE_CODE : Field := ⟨R.GLB_DEVICE_IDENT, 3, 0⟩

/-! Table 0-7 (00_scope.md). -/

def R.GLB_TILE_PRESENT_LO : Nat := 0x44
def F.GLB_TILE_PRESENT_LO_PRESENT : Field := ⟨R.GLB_TILE_PRESENT_LO, 31, 0⟩

/-! Table 0-8 (00_scope.md). -/

def R.GLB_TILE_PRESENT_HI : Nat := 0x48
def F.GLB_TILE_PRESENT_HI_PRESENT : Field := ⟨R.GLB_TILE_PRESENT_HI, 31, 0⟩

/-! Table 0-9 (00_scope.md). -/

def R.GLB_TILE_COUNT : Nat := 0x4C
def F.GLB_TILE_COUNT : Field := ⟨R.GLB_TILE_COUNT, 6, 0⟩

/-! Table 0-10 (00_scope.md). -/

def R.GLB_SITE_CAPACITY : Nat := 0x50
def F.GLB_SITE_CAPACITY : Field := ⟨R.GLB_SITE_CAPACITY, 20, 0⟩

/-! Table 1-6 (01_one_frame.md). -/

def R.GLB_CLOCK_STATUS : Nat := 0x54
def F.GLB_CLOCK_STATUS_FABRIC_MHZ : Field := ⟨R.GLB_CLOCK_STATUS, 21, 11⟩
def F.GLB_CLOCK_STATUS_CORE_MHZ : Field := ⟨R.GLB_CLOCK_STATUS, 10, 0⟩

/-! Table 1-7 (01_one_frame.md). -/

def R.GLB_FRAME_PIPE : Nat := 0x58
def F.GLB_FRAME_PIPE_PUBLISH_FRAME : Field := ⟨R.GLB_FRAME_PIPE, 31, 24⟩
def F.GLB_FRAME_PIPE_COMPUTE_FRAME : Field := ⟨R.GLB_FRAME_PIPE, 23, 16⟩
def F.GLB_FRAME_PIPE_INGEST_FRAME : Field := ⟨R.GLB_FRAME_PIPE, 15, 8⟩
def F.GLB_FRAME_PIPE_OCC : Field := ⟨R.GLB_FRAME_PIPE, 2, 0⟩

/-! Table 2-26 (02_register_pages.md). -/

def R.GLB_EVENT_SUMMARY (k : Nat) : Nat := 0x1040 + 0x4 * k
def F.GLB_EVENT_SUMMARY_PAGE (k : Nat) : Field := ⟨R.GLB_EVENT_SUMMARY k, 31, 0⟩

/-! Table 2-27 (02_register_pages.md). -/

def R.GLB_BAD_ACCESS_CNT : Nat := 0x10A0
def F.GLB_BAD_ACCESS_CNT_COUNT : Field := ⟨R.GLB_BAD_ACCESS_CNT, 31, 0⟩

/-! Table 2-28 (02_register_pages.md). -/

def R.GLB_BAD_ACCESS_LAST : Nat := 0x10A4
def F.GLB_BAD_ACCESS_LAST_WRITER : Field := ⟨R.GLB_BAD_ACCESS_LAST, 31, 24⟩
def F.GLB_BAD_ACCESS_LAST_OFFSET : Field := ⟨R.GLB_BAD_ACCESS_LAST, 23, 0⟩

/-! Table 3-10 (03_frame_tick_espalier.md). -/

def R.FRM_MODE : Nat := 0x10040
def F.FRM_MODE_OVERRUN_POLICY : Field := ⟨R.FRM_MODE, 5, 4⟩
def F.FRM_MODE_SYNC_OUT : Field := ⟨R.FRM_MODE, 3, 3⟩
def F.FRM_MODE_TICK_SOURCE : Field := ⟨R.FRM_MODE, 1, 1⟩
def F.FRM_MODE : Field := ⟨R.FRM_MODE, 0, 0⟩

/-! Table 3-11 (03_frame_tick_espalier.md). -/

def R.FRM_TICK_PHASE_NS : Nat := 0x10044
def F.FRM_TICK_PHASE_NS_PHASE : Field := ⟨R.FRM_TICK_PHASE_NS, 31, 0⟩

/-! Table 3-12 (03_frame_tick_espalier.md). -/

def R.FRM_CTL : Nat := 0x10048
def F.FRM_CTL_STOP : Field := ⟨R.FRM_CTL, 1, 1⟩
def F.FRM_CTL_START : Field := ⟨R.FRM_CTL, 0, 0⟩

/-! Table 3-13 (03_frame_tick_espalier.md). -/

def R.FRM_PLAN_ADDR_LO : Nat := 0x1004C
def F.FRM_PLAN_ADDR_LO_ADDR : Field := ⟨R.FRM_PLAN_ADDR_LO, 31, 6⟩

def R.FRM_PLAN_ADDR_HI : Nat := 0x10050
def F.FRM_PLAN_ADDR_HI_ADDR : Field := ⟨R.FRM_PLAN_ADDR_HI, 3, 0⟩

/-! Table 3-14 (03_frame_tick_espalier.md). -/

def R.FRM_PLAN_SIZE : Nat := 0x10054
def F.FRM_PLAN_SIZE : Field := ⟨R.FRM_PLAN_SIZE, 31, 0⟩

/-! Table 3-15 (03_frame_tick_espalier.md). -/

def R.FRM_PLAN_CTL : Nat := 0x10058
def F.FRM_PLAN_CTL_OP : Field := ⟨R.FRM_PLAN_CTL, 2, 1⟩
def F.FRM_PLAN_CTL_SLOT : Field := ⟨R.FRM_PLAN_CTL, 0, 0⟩

/-! Table 3-16 (03_frame_tick_espalier.md). -/

def R.FRM_PLAN_STATUS : Nat := 0x1005C
def F.FRM_PLAN_STATUS_SWITCH_PENDING : Field := ⟨R.FRM_PLAN_STATUS, 9, 9⟩
def F.FRM_PLAN_STATUS_LOAD_BUSY : Field := ⟨R.FRM_PLAN_STATUS, 8, 8⟩
def F.FRM_PLAN_STATUS_SLOT_1 : Field := ⟨R.FRM_PLAN_STATUS, 5, 4⟩
def F.FRM_PLAN_STATUS_SLOT_0 : Field := ⟨R.FRM_PLAN_STATUS, 3, 2⟩
def F.FRM_PLAN_STATUS_ACTIVE_SLOT : Field := ⟨R.FRM_PLAN_STATUS, 0, 0⟩

/-! Table 3-17 (03_frame_tick_espalier.md). -/

def R.FRM_PLAN_RESULT : Nat := 0x10060
def F.FRM_PLAN_RESULT_CODE : Field := ⟨R.FRM_PLAN_RESULT, 15, 0⟩

def R.FRM_PROOF_NS : Nat := 0x10064
def F.FRM_PROOF_NS_COST : Field := ⟨R.FRM_PROOF_NS, 31, 0⟩

/-! Table 3-18 (03_frame_tick_espalier.md). -/

def R.FRM_PERIOD_US : Nat := 0x10068
def F.FRM_PERIOD_US_PERIOD : Field := ⟨R.FRM_PERIOD_US, 31, 0⟩

def R.FRM_BUDGET_US : Nat := 0x1006C
def F.FRM_BUDGET_US_BUDGET : Field := ⟨R.FRM_BUDGET_US, 31, 0⟩

def R.FRM_CORE_FLOOR : Nat := 0x10070
def F.FRM_CORE_FLOOR_MHZ : Field := ⟨R.FRM_CORE_FLOOR, 10, 0⟩

/-! Table 3-19 (03_frame_tick_espalier.md). -/

def R.FRM_FRAME_NUMBER : Nat := 0x10074
def F.FRM_FRAME_NUMBER_FRAME : Field := ⟨R.FRM_FRAME_NUMBER, 31, 0⟩

def R.FRM_TICK_TS_LO : Nat := 0x10078
def F.FRM_TICK_TS_LO_TS : Field := ⟨R.FRM_TICK_TS_LO, 31, 0⟩

def R.FRM_TICK_TS_HI : Nat := 0x1007C
def F.FRM_TICK_TS_HI_TS : Field := ⟨R.FRM_TICK_TS_HI, 31, 0⟩

/-! Table 3-20 (03_frame_tick_espalier.md). -/

def R.FRM_ADMIT : Nat := 0x10080
def F.FRM_ADMIT_COARSENED : Field := ⟨R.FRM_ADMIT, 9, 9⟩
def F.FRM_ADMIT_THINNED : Field := ⟨R.FRM_ADMIT, 8, 8⟩
def F.FRM_ADMIT_STREAK : Field := ⟨R.FRM_ADMIT, 7, 6⟩
def F.FRM_ADMIT_BIN_FINE : Field := ⟨R.FRM_ADMIT, 5, 4⟩
def F.FRM_ADMIT_LEVEL : Field := ⟨R.FRM_ADMIT, 1, 0⟩

/-! Table 3-21 (03_frame_tick_espalier.md). -/

def R.FRM_ADMIT_SITES : Nat := 0x10084
def F.FRM_ADMIT_SITES : Field := ⟨R.FRM_ADMIT_SITES, 20, 0⟩

def R.FRM_ADMIT_COST_NS : Nat := 0x10088
def F.FRM_ADMIT_COST_NS_COST : Field := ⟨R.FRM_ADMIT_COST_NS, 31, 0⟩

def R.FRM_ADMIT_REMAIN_NS : Nat := 0x1008C
def F.FRM_ADMIT_REMAIN_NS_REM : Field := ⟨R.FRM_ADMIT_REMAIN_NS, 31, 0⟩

/-! Table 3-22 (03_frame_tick_espalier.md). -/

def R.FRM_OVERRUN_CNT : Nat := 0x10090
def F.FRM_OVERRUN_CNT : Field := ⟨R.FRM_OVERRUN_CNT, 31, 0⟩

def R.FRM_SKIPPED_CNT : Nat := 0x10094
def F.FRM_SKIPPED_CNT : Field := ⟨R.FRM_SKIPPED_CNT, 31, 0⟩

def R.FRM_SYNC_EARLY_CNT : Nat := 0x10098
def F.FRM_SYNC_EARLY_CNT : Field := ⟨R.FRM_SYNC_EARLY_CNT, 31, 0⟩

def R.FRM_SYNC_MISSED_CNT : Nat := 0x1009C
def F.FRM_SYNC_MISSED_CNT : Field := ⟨R.FRM_SYNC_MISSED_CNT, 31, 0⟩

/-! Table 3-23 (03_frame_tick_espalier.md). -/

def R.FRM_TIMEBASE_LO : Nat := 0x11040
def F.FRM_TIMEBASE_LO : Field := ⟨R.FRM_TIMEBASE_LO, 31, 0⟩

def R.FRM_TIMEBASE_HI : Nat := 0x11044
def F.FRM_TIMEBASE_HI : Field := ⟨R.FRM_TIMEBASE_HI, 31, 0⟩

def R.FRM_MARK_SEQ : Nat := 0x11048
def F.FRM_MARK_SEQ : Field := ⟨R.FRM_MARK_SEQ, 31, 0⟩

def R.FRM_MARK_TS_LO : Nat := 0x1104C
def F.FRM_MARK_TS_LO : Field := ⟨R.FRM_MARK_TS_LO, 31, 0⟩

def R.FRM_MARK_TS_HI : Nat := 0x11050
def F.FRM_MARK_TS_HI : Field := ⟨R.FRM_MARK_TS_HI, 31, 0⟩

/-! Table 3-24 (03_frame_tick_espalier.md). -/

def R.FRM_TIME_STATE : Nat := 0x11054
def F.FRM_TIME_STATE : Field := ⟨R.FRM_TIME_STATE, 1, 0⟩

def R.FRM_TIME_OFFSET_NS : Nat := 0x11058
def F.FRM_TIME_OFFSET_NS : Field := ⟨R.FRM_TIME_OFFSET_NS, 31, 0⟩

def R.FRM_TIME_RATE_PPB : Nat := 0x1105C
def F.FRM_TIME_RATE_PPB : Field := ⟨R.FRM_TIME_RATE_PPB, 31, 0⟩

def R.FRM_TIME_REJECT_CNT : Nat := 0x11060
def F.FRM_TIME_REJECT_CNT : Field := ⟨R.FRM_TIME_REJECT_CNT, 31, 0⟩

/-! Table 4-12 (04_sensor_link_channel.md). -/

def R.SLK_LANE_CFG (n : Nat) : Nat := 0x20040 + 0x4000 * n
def F.SLK_LANE_CFG_POLARITY (n : Nat) : Field := ⟨R.SLK_LANE_CFG n, 9, 9⟩
def F.SLK_LANE_CFG_INPUT_SEL (n : Nat) : Field := ⟨R.SLK_LANE_CFG n, 8, 8⟩
def F.SLK_LANE_CFG_RING (n : Nat) : Field := ⟨R.SLK_LANE_CFG n, 5, 4⟩
def F.SLK_LANE_CFG_MODE (n : Nat) : Field := ⟨R.SLK_LANE_CFG n, 1, 0⟩

def R.SLK_LANE_STATUS (n : Nat) : Nat := 0x20044 + 0x4000 * n
def F.SLK_LANE_STATUS_ZONE (n : Nat) : Field := ⟨R.SLK_LANE_STATUS n, 10, 8⟩
def F.SLK_LANE_STATUS_INVALID (n : Nat) : Field := ⟨R.SLK_LANE_STATUS n, 4, 4⟩
def F.SLK_LANE_STATUS_IN_GAP (n : Nat) : Field := ⟨R.SLK_LANE_STATUS n, 3, 3⟩
def F.SLK_LANE_STATUS_TRACK (n : Nat) : Field := ⟨R.SLK_LANE_STATUS n, 2, 2⟩
def F.SLK_LANE_STATUS_ACQ (n : Nat) : Field := ⟨R.SLK_LANE_STATUS n, 1, 1⟩
def F.SLK_LANE_STATUS_LOS (n : Nat) : Field := ⟨R.SLK_LANE_STATUS n, 0, 0⟩

def R.SLK_LANE_CMD (n : Nat) : Nat := 0x20048 + 0x4000 * n
def F.SLK_LANE_CMD_RELOAD (n : Nat) : Field := ⟨R.SLK_LANE_CMD n, 0, 0⟩

def R.SLK_LOS_CNT (n : Nat) : Nat := 0x2004C + 0x4000 * n
def F.SLK_LOS_CNT_COUNT (n : Nat) : Field := ⟨R.SLK_LOS_CNT n, 31, 0⟩

/-! Table 4-13 (04_sensor_link_channel.md). -/

def R.SLK_AFE_LIVE (n : Nat) : Nat := 0x21040 + 0x4000 * n
def F.SLK_AFE_LIVE_ASYM (n : Nat) : Field := ⟨R.SLK_AFE_LIVE n, 21, 16⟩
def F.SLK_AFE_LIVE_OFFSET (n : Nat) : Field := ⟨R.SLK_AFE_LIVE n, 15, 8⟩
def F.SLK_AFE_LIVE_VGA_CODE (n : Nat) : Field := ⟨R.SLK_AFE_LIVE n, 7, 0⟩

def R.SLK_CTF_LIVE (n : Nat) : Nat := 0x21044 + 0x4000 * n
def F.SLK_CTF_LIVE_BOOST (n : Nat) : Field := ⟨R.SLK_CTF_LIVE n, 12, 8⟩
def F.SLK_CTF_LIVE_FC (n : Nat) : Field := ⟨R.SLK_CTF_LIVE n, 5, 0⟩

def R.SLK_VGA_SET (n : Nat) : Nat := 0x21048 + 0x4000 * n
def F.SLK_VGA_SET_CODE (n : Nat) : Field := ⟨R.SLK_VGA_SET n, 7, 0⟩

def R.SLK_CTF_SET (n : Nat) : Nat := 0x2104C + 0x4000 * n
def F.SLK_CTF_SET_BOOST (n : Nat) : Field := ⟨R.SLK_CTF_SET n, 12, 8⟩
def F.SLK_CTF_SET_FC (n : Nat) : Field := ⟨R.SLK_CTF_SET n, 5, 0⟩

def R.SLK_LOOP_HOLD (n : Nat) : Nat := 0x21050 + 0x4000 * n
def F.SLK_LOOP_HOLD (n : Nat) : Field := ⟨R.SLK_LOOP_HOLD n, 5, 0⟩

/-! Table 4-14 (04_sensor_link_channel.md). -/

def R.SLK_DEFECT_CFG (n : Nat) : Nat := 0x21054 + 0x4000 * n
def F.SLK_DEFECT_CFG_DEF_PAD (n : Nat) : Field := ⟨R.SLK_DEFECT_CFG n, 21, 16⟩
def F.SLK_DEFECT_CFG_SURGE_THR (n : Nat) : Field := ⟨R.SLK_DEFECT_CFG n, 13, 8⟩
def F.SLK_DEFECT_CFG_DROP_THR (n : Nat) : Field := ⟨R.SLK_DEFECT_CFG n, 5, 0⟩

def R.SLK_AGC_CFG (n : Nat) : Nat := 0x21058 + 0x4000 * n
def F.SLK_AGC_CFG_SYNC_TOL (n : Nat) : Field := ⟨R.SLK_AGC_CFG n, 10, 8⟩
def F.SLK_AGC_CFG_AGC_TARGET (n : Nat) : Field := ⟨R.SLK_AGC_CFG n, 4, 0⟩

def R.SLK_FREQ_PPB (n : Nat) : Nat := 0x2105C + 0x4000 * n
def F.SLK_FREQ_PPB_FREQ (n : Nat) : Field := ⟨R.SLK_FREQ_PPB n, 31, 0⟩

def R.SLK_DGAIN (n : Nat) : Nat := 0x21060 + 0x4000 * n
def F.SLK_DGAIN_GAIN (n : Nat) : Field := ⟨R.SLK_DGAIN n, 9, 0⟩

def R.SLK_MSE (n : Nat) : Nat := 0x21070 + 0x4000 * n
def F.SLK_MSE (n : Nat) : Field := ⟨R.SLK_MSE n, 15, 0⟩

def R.SLK_ANALOG_STEP_CNT (n : Nat) : Nat := 0x21074 + 0x4000 * n
def F.SLK_ANALOG_STEP_CNT (n : Nat) : Field := ⟨R.SLK_ANALOG_STEP_CNT n, 31, 0⟩

def R.SLK_DEFECT_CNT (n : Nat) : Nat := 0x21078 + 0x4000 * n
def F.SLK_DEFECT_CNT (n : Nat) : Field := ⟨R.SLK_DEFECT_CNT n, 31, 0⟩

def R.SLK_ERASED_CNT (n : Nat) : Nat := 0x2107C + 0x4000 * n
def F.SLK_ERASED_CNT (n : Nat) : Field := ⟨R.SLK_ERASED_CNT n, 31, 0⟩

def R.SLK_CLIP_CNT (n : Nat) : Nat := 0x21080 + 0x4000 * n
def F.SLK_CLIP_CNT (n : Nat) : Field := ⟨R.SLK_CLIP_CNT n, 31, 0⟩

/-! Table 4-15 (04_sensor_link_channel.md). -/

def R.SLK_DEC_CFG (n : Nat) : Nat := 0x22040 + 0x4000 * n
def F.SLK_DEC_CFG_EARLY_STOP (n : Nat) : Field := ⟨R.SLK_DEC_CFG n, 12, 12⟩
def F.SLK_DEC_CFG_NORM (n : Nat) : Field := ⟨R.SLK_DEC_CFG n, 9, 8⟩
def F.SLK_DEC_CFG_LOCAL_ITER (n : Nat) : Field := ⟨R.SLK_DEC_CFG n, 7, 4⟩
def F.SLK_DEC_CFG_GLOBAL_ITER (n : Nat) : Field := ⟨R.SLK_DEC_CFG n, 3, 0⟩

def R.SLK_DEC_OK_CNT (n : Nat) : Nat := 0x22044 + 0x4000 * n
def F.SLK_DEC_OK_CNT (n : Nat) : Field := ⟨R.SLK_DEC_OK_CNT n, 31, 0⟩

def R.SLK_DEC_FAIL_CNT (n : Nat) : Nat := 0x22048 + 0x4000 * n
def F.SLK_DEC_FAIL_CNT (n : Nat) : Field := ⟨R.SLK_DEC_FAIL_CNT n, 31, 0⟩

def R.SLK_SYNC_MISS_CNT (n : Nat) : Nat := 0x2204C + 0x4000 * n
def F.SLK_SYNC_MISS_CNT (n : Nat) : Field := ⟨R.SLK_SYNC_MISS_CNT n, 31, 0⟩

def R.SLK_ITER_SUM (n : Nat) : Nat := 0x22050 + 0x4000 * n
def F.SLK_ITER_SUM (n : Nat) : Field := ⟨R.SLK_ITER_SUM n, 31, 0⟩

def R.SLK_DEC_LAST (n : Nat) : Nat := 0x22054 + 0x4000 * n
def F.SLK_DEC_LAST_OK (n : Nat) : Field := ⟨R.SLK_DEC_LAST n, 31, 31⟩
def F.SLK_DEC_LAST_UNSAT (n : Nat) : Field := ⟨R.SLK_DEC_LAST n, 18, 8⟩
def F.SLK_DEC_LAST_LOCAL_USED (n : Nat) : Field := ⟨R.SLK_DEC_LAST n, 7, 4⟩
def F.SLK_DEC_LAST_GLOBAL_USED (n : Nat) : Field := ⟨R.SLK_DEC_LAST n, 3, 0⟩

/-! Table 4-16 (04_sensor_link_channel.md). -/

def R.ZAFE_A (n : Nat) (k : Nat) : Nat := 0x200040 + 0x1000 * n + 0x20 * k
def F.ZAFE_A_ASYM (n : Nat) (k : Nat) : Field := ⟨R.ZAFE_A n k, 21, 16⟩
def F.ZAFE_A_OFFSET (n : Nat) (k : Nat) : Field := ⟨R.ZAFE_A n k, 15, 8⟩
def F.ZAFE_A_VGA_CODE (n : Nat) (k : Nat) : Field := ⟨R.ZAFE_A n k, 7, 0⟩

def R.ZAFE_B (n : Nat) (k : Nat) : Nat := 0x200044 + 0x1000 * n + 0x20 * k
def F.ZAFE_B_CTF_BOOST (n : Nat) (k : Nat) : Field := ⟨R.ZAFE_B n k, 12, 8⟩
def F.ZAFE_B_CTF_FC (n : Nat) (k : Nat) : Field := ⟨R.ZAFE_B n k, 5, 0⟩

def R.ZTARGET (n : Nat) (k : Nat) : Nat := 0x200048 + 0x1000 * n + 0x20 * k
def F.ZTARGET_G (n : Nat) (k : Nat) : Field := ⟨R.ZTARGET n k, 29, 0⟩

def R.ZFIR_A (n : Nat) (k : Nat) : Nat := 0x20004C + 0x1000 * n + 0x20 * k
def F.ZFIR_A_F (n : Nat) (k : Nat) : Field := ⟨R.ZFIR_A n k, 31, 0⟩

def R.ZFIR_B (n : Nat) (k : Nat) : Nat := 0x200050 + 0x1000 * n + 0x20 * k
def F.ZFIR_B_F (n : Nat) (k : Nat) : Field := ⟨R.ZFIR_B n k, 31, 0⟩

def R.ZFIR_C (n : Nat) (k : Nat) : Nat := 0x200054 + 0x1000 * n + 0x20 * k
def F.ZFIR_C_CURSOR (n : Nat) (k : Nat) : Field := ⟨R.ZFIR_C n k, 19, 16⟩
def F.ZFIR_C_F (n : Nat) (k : Nat) : Field := ⟨R.ZFIR_C n k, 15, 0⟩

def R.ZLOOP_A (n : Nat) (k : Nat) : Nat := 0x200058 + 0x1000 * n + 0x20 * k
def F.ZLOOP_A_KI (n : Nat) (k : Nat) : Field := ⟨R.ZLOOP_A n k, 15, 12⟩
def F.ZLOOP_A_KP (n : Nat) (k : Nat) : Field := ⟨R.ZLOOP_A n k, 11, 8⟩
def F.ZLOOP_A_OFF (n : Nat) (k : Nat) : Field := ⟨R.ZLOOP_A n k, 7, 4⟩
def F.ZLOOP_A_GAIN (n : Nat) (k : Nat) : Field := ⟨R.ZLOOP_A n k, 3, 0⟩

def R.ZLOOP_B (n : Nat) (k : Nat) : Nat := 0x20005C + 0x1000 * n + 0x20 * k
def F.ZLOOP_B_LMS (n : Nat) (k : Nat) : Field := ⟨R.ZLOOP_B n k, 29, 25⟩
def F.ZLOOP_B_KI (n : Nat) (k : Nat) : Field := ⟨R.ZLOOP_B n k, 24, 20⟩
def F.ZLOOP_B_KP (n : Nat) (k : Nat) : Field := ⟨R.ZLOOP_B n k, 19, 15⟩
def F.ZLOOP_B_ASYM (n : Nat) (k : Nat) : Field := ⟨R.ZLOOP_B n k, 14, 10⟩
def F.ZLOOP_B_OFF (n : Nat) (k : Nat) : Field := ⟨R.ZLOOP_B n k, 9, 5⟩
def F.ZLOOP_B_GAIN (n : Nat) (k : Nat) : Field := ⟨R.ZLOOP_B n k, 4, 0⟩

/-! Table 5-14 (05_sensor_link_sectors.md). -/

def R.SLK_SECTOR_CFG (n : Nat) : Nat := 0x20050 + 0x4000 * n
def F.SLK_SECTOR_CFG_RETRY_GUARD_US (n : Nat) : Field := ⟨R.SLK_SECTOR_CFG n, 15, 8⟩
def F.SLK_SECTOR_CFG_RETRY_STEPS (n : Nat) : Field := ⟨R.SLK_SECTOR_CFG n, 5, 0⟩

def R.SLK_RETRY_BUDGET (n : Nat) : Nat := 0x20054 + 0x4000 * n
def F.SLK_RETRY_BUDGET_BUDGET_US (n : Nat) : Field := ⟨R.SLK_RETRY_BUDGET n, 15, 0⟩

def R.SLK_SECTOR_OK_CNT (n : Nat) : Nat := 0x20058 + 0x4000 * n
def F.SLK_SECTOR_OK_CNT (n : Nat) : Field := ⟨R.SLK_SECTOR_OK_CNT n, 31, 0⟩

def R.SLK_SECTOR_LOST_CNT (n : Nat) : Nat := 0x2005C + 0x4000 * n
def F.SLK_SECTOR_LOST_CNT (n : Nat) : Field := ⟨R.SLK_SECTOR_LOST_CNT n, 31, 0⟩

def R.SLK_RETRY_OK_CNT (n : Nat) : Nat := 0x20060 + 0x4000 * n
def F.SLK_RETRY_OK_CNT (n : Nat) : Field := ⟨R.SLK_RETRY_OK_CNT n, 31, 0⟩

def R.SLK_RETRY_STEP_CNT (n : Nat) : Nat := 0x20064 + 0x4000 * n
def F.SLK_RETRY_STEP_CNT (n : Nat) : Field := ⟨R.SLK_RETRY_STEP_CNT n, 31, 0⟩

def R.SLK_SLOT_TAKEN_CNT (n : Nat) : Nat := 0x20068 + 0x4000 * n
def F.SLK_SLOT_TAKEN_CNT (n : Nat) : Field := ⟨R.SLK_SLOT_TAKEN_CNT n, 31, 0⟩

def R.SLK_SECTOR_FORMAT_CNT (n : Nat) : Nat := 0x2006C + 0x4000 * n
def F.SLK_SECTOR_FORMAT_CNT (n : Nat) : Field := ⟨R.SLK_SECTOR_FORMAT_CNT n, 31, 0⟩

def R.SLK_LOST_LAST (n : Nat) : Nat := 0x20070 + 0x4000 * n
def F.SLK_LOST_LAST_FRAME (n : Nat) : Field := ⟨R.SLK_LOST_LAST n, 31, 24⟩
def F.SLK_LOST_LAST_CAUSE (n : Nat) : Field := ⟨R.SLK_LOST_LAST n, 19, 16⟩
def F.SLK_LOST_LAST_SEQ (n : Nat) : Field := ⟨R.SLK_LOST_LAST n, 15, 0⟩

def R.SLK_LOST_SPAN (n : Nat) : Nat := 0x20074 + 0x4000 * n
def F.SLK_LOST_SPAN_AZ_END (n : Nat) : Field := ⟨R.SLK_LOST_SPAN n, 31, 16⟩
def F.SLK_LOST_SPAN_AZ_START (n : Nat) : Field := ⟨R.SLK_LOST_SPAN n, 15, 0⟩

def R.SLK_POINT_CNT (n : Nat) : Nat := 0x20078 + 0x4000 * n
def F.SLK_POINT_CNT (n : Nat) : Field := ⟨R.SLK_POINT_CNT n, 31, 0⟩

def R.SLK_DROP_CNT (n : Nat) : Nat := 0x2007C + 0x4000 * n
def F.SLK_DROP_CNT (n : Nat) : Field := ⟨R.SLK_DROP_CNT n, 31, 0⟩

def R.SLK_HEAD_ID_SEEN (n : Nat) : Nat := 0x20080 + 0x4000 * n
def F.SLK_HEAD_ID_SEEN_ID (n : Nat) : Field := ⟨R.SLK_HEAD_ID_SEEN n, 31, 0⟩

def R.SLK_INDEX_WORD (n : Nat) : Nat := 0x2008C + 0x4000 * n
def F.SLK_INDEX_WORD (n : Nat) : Field := ⟨R.SLK_INDEX_WORD n, 31, 0⟩

def R.SLK_INDEX_MISS_CNT (n : Nat) : Nat := 0x20090 + 0x4000 * n
def F.SLK_INDEX_MISS_CNT (n : Nat) : Field := ⟨R.SLK_INDEX_MISS_CNT n, 31, 0⟩

def R.SLK_REV_PERIOD_NS (n : Nat) : Nat := 0x20094 + 0x4000 * n
def F.SLK_REV_PERIOD_NS_PERIOD (n : Nat) : Field := ⟨R.SLK_REV_PERIOD_NS n, 31, 0⟩

def R.SLK_TIMING_READY (n : Nat) : Nat := 0x20098 + 0x4000 * n
def F.SLK_TIMING_READY (n : Nat) : Field := ⟨R.SLK_TIMING_READY n, 0, 0⟩

/-! Table 5-15 (05_sensor_link_sectors.md). -/

def R.SLK_SERVO_CFG (n : Nat) : Nat := 0x23040 + 0x4000 * n
def F.SLK_SERVO_CFG_LOCK_AZ (n : Nat) : Field := ⟨R.SLK_SERVO_CFG n, 31, 16⟩
def F.SLK_SERVO_CFG_ENABLE (n : Nat) : Field := ⟨R.SLK_SERVO_CFG n, 0, 0⟩

def R.SLK_SERVO_GAIN (n : Nat) : Nat := 0x23044 + 0x4000 * n
def F.SLK_SERVO_GAIN_KI (n : Nat) : Field := ⟨R.SLK_SERVO_GAIN n, 15, 8⟩
def F.SLK_SERVO_GAIN_KP (n : Nat) : Field := ⟨R.SLK_SERVO_GAIN n, 7, 0⟩

def R.SLK_SERVO_THR (n : Nat) : Nat := 0x23048 + 0x4000 * n
def F.SLK_SERVO_THR_UNLOCK_THR (n : Nat) : Field := ⟨R.SLK_SERVO_THR n, 31, 16⟩
def F.SLK_SERVO_THR_LOCK_THR (n : Nat) : Field := ⟨R.SLK_SERVO_THR n, 15, 0⟩

def R.SLK_INHIBIT_CFG (n : Nat) : Nat := 0x2304C + 0x4000 * n
def F.SLK_INHIBIT_CFG_SHOCK_HOLD_MS (n : Nat) : Field := ⟨R.SLK_INHIBIT_CFG n, 31, 24⟩
def F.SLK_INHIBIT_CFG_SHOCK_LIMIT (n : Nat) : Field := ⟨R.SLK_INHIBIT_CFG n, 23, 16⟩
def F.SLK_INHIBIT_CFG_INHIBIT_THR (n : Nat) : Field := ⟨R.SLK_INHIBIT_CFG n, 15, 0⟩

def R.SLK_SERVO_STATUS (n : Nat) : Nat := 0x23050 + 0x4000 * n
def F.SLK_SERVO_STATUS_PHASE_ERR (n : Nat) : Field := ⟨R.SLK_SERVO_STATUS n, 31, 16⟩
def F.SLK_SERVO_STATUS_INHIBIT (n : Nat) : Field := ⟨R.SLK_SERVO_STATUS n, 4, 4⟩
def F.SLK_SERVO_STATUS_STATE (n : Nat) : Field := ⟨R.SLK_SERVO_STATUS n, 1, 0⟩

def R.SLK_TRIM_PPM (n : Nat) : Nat := 0x23054 + 0x4000 * n
def F.SLK_TRIM_PPM_TRIM (n : Nat) : Field := ⟨R.SLK_TRIM_PPM n, 31, 0⟩

def R.SLK_DL_TX_HDR (n : Nat) : Nat := 0x23058 + 0x4000 * n
def F.SLK_DL_TX_HDR_LEN (n : Nat) : Field := ⟨R.SLK_DL_TX_HDR n, 24, 16⟩
def F.SLK_DL_TX_HDR_TYPE (n : Nat) : Field := ⟨R.SLK_DL_TX_HDR n, 7, 0⟩

def R.SLK_DL_TX_CMD (n : Nat) : Nat := 0x2305C + 0x4000 * n
def F.SLK_DL_TX_CMD_SEND (n : Nat) : Field := ⟨R.SLK_DL_TX_CMD n, 0, 0⟩

def R.SLK_DL_TX_STATUS (n : Nat) : Nat := 0x23060 + 0x4000 * n
def F.SLK_DL_TX_STATUS_LAST_RESULT (n : Nat) : Field := ⟨R.SLK_DL_TX_STATUS n, 19, 16⟩
def F.SLK_DL_TX_STATUS_LAST_SEQ (n : Nat) : Field := ⟨R.SLK_DL_TX_STATUS n, 15, 8⟩
def F.SLK_DL_TX_STATUS_QUEUED (n : Nat) : Field := ⟨R.SLK_DL_TX_STATUS n, 2, 0⟩

def R.SLK_HEAD_ACK (n : Nat) : Nat := 0x23064 + 0x4000 * n
def F.SLK_HEAD_ACK_HEAD_TEMP (n : Nat) : Field := ⟨R.SLK_HEAD_ACK n, 31, 24⟩
def F.SLK_HEAD_ACK_FW_STATE (n : Nat) : Field := ⟨R.SLK_HEAD_ACK n, 23, 16⟩
def F.SLK_HEAD_ACK_ACK_CODE (n : Nat) : Field := ⟨R.SLK_HEAD_ACK n, 15, 8⟩
def F.SLK_HEAD_ACK_ACK_SEQ (n : Nat) : Field := ⟨R.SLK_HEAD_ACK n, 7, 0⟩

def R.SLK_DL_SENT_CNT (n : Nat) : Nat := 0x23068 + 0x4000 * n
def F.SLK_DL_SENT_CNT (n : Nat) : Field := ⟨R.SLK_DL_SENT_CNT n, 31, 0⟩

def R.SLK_DL_INHIBIT_CNT (n : Nat) : Nat := 0x2306C + 0x4000 * n
def F.SLK_DL_INHIBIT_CNT (n : Nat) : Field := ⟨R.SLK_DL_INHIBIT_CNT n, 31, 0⟩

def R.SLK_LOCK_LOSS_CNT (n : Nat) : Nat := 0x23070 + 0x4000 * n
def F.SLK_LOCK_LOSS_CNT (n : Nat) : Field := ⟨R.SLK_LOCK_LOSS_CNT n, 31, 0⟩

def R.SLK_INHIBIT_WAIT (n : Nat) : Nat := 0x23074 + 0x4000 * n
def F.SLK_INHIBIT_WAIT_INHIBIT_WAIT_MS (n : Nat) : Field := ⟨R.SLK_INHIBIT_WAIT n, 15, 0⟩

def R.SLK_SHOCK_NOW (n : Nat) : Nat := 0x23078 + 0x4000 * n
def F.SLK_SHOCK_NOW_LEVEL (n : Nat) : Field := ⟨R.SLK_SHOCK_NOW n, 7, 0⟩

def R.SLK_DL_TX_DATA (n : Nat) (k : Nat) : Nat := 0x23100 + 0x4000 * n + 0x4 * k
def F.SLK_DL_TX_DATA_BYTES (n : Nat) (k : Nat) : Field := ⟨R.SLK_DL_TX_DATA n k, 31, 0⟩

/-! Table 5-16 (05_sensor_link_sectors.md). -/

def R.ROT_A (n : Nat) : Nat := 0x208040 + 0x1000 * n
def F.ROT_A_ROT_XY (n : Nat) : Field := ⟨R.ROT_A n, 31, 16⟩
def F.ROT_A_ROT_XX (n : Nat) : Field := ⟨R.ROT_A n, 15, 0⟩

def R.ROT_B (n : Nat) : Nat := 0x208044 + 0x1000 * n
def F.ROT_B_ROT_YX (n : Nat) : Field := ⟨R.ROT_B n, 31, 16⟩
def F.ROT_B_ROT_XZ (n : Nat) : Field := ⟨R.ROT_B n, 15, 0⟩

def R.ROT_C (n : Nat) : Nat := 0x208048 + 0x1000 * n
def F.ROT_C_ROT_YZ (n : Nat) : Field := ⟨R.ROT_C n, 31, 16⟩
def F.ROT_C_ROT_YY (n : Nat) : Field := ⟨R.ROT_C n, 15, 0⟩

def R.ROT_D (n : Nat) : Nat := 0x20804C + 0x1000 * n
def F.ROT_D_ROT_ZY (n : Nat) : Field := ⟨R.ROT_D n, 31, 16⟩
def F.ROT_D_ROT_ZX (n : Nat) : Field := ⟨R.ROT_D n, 15, 0⟩

def R.ROT_E (n : Nat) : Nat := 0x208050 + 0x1000 * n
def F.ROT_E_ROT_ZZ (n : Nat) : Field := ⟨R.ROT_E n, 15, 0⟩

def R.TRANS_A (n : Nat) : Nat := 0x208054 + 0x1000 * n
def F.TRANS_A_TRANS_Y (n : Nat) : Field := ⟨R.TRANS_A n, 31, 16⟩
def F.TRANS_A_TRANS_X (n : Nat) : Field := ⟨R.TRANS_A n, 15, 0⟩

def R.TRANS_B (n : Nat) : Nat := 0x208058 + 0x1000 * n
def F.TRANS_B_CABLE_NS (n : Nat) : Field := ⟨R.TRANS_B n, 31, 16⟩
def F.TRANS_B_TRANS_Z (n : Nat) : Field := ⟨R.TRANS_B n, 15, 0⟩

def R.LSB_A (n : Nat) : Nat := 0x20805C + 0x1000 * n
def F.LSB_A_LSB_1 (n : Nat) : Field := ⟨R.LSB_A n, 31, 16⟩
def F.LSB_A_LSB_0 (n : Nat) : Field := ⟨R.LSB_A n, 15, 0⟩

def R.LSB_B (n : Nat) : Nat := 0x208060 + 0x1000 * n
def F.LSB_B_LSB_3 (n : Nat) : Field := ⟨R.LSB_B n, 31, 16⟩
def F.LSB_B_LSB_2 (n : Nat) : Field := ⟨R.LSB_B n, 15, 0⟩

def R.BEAMS (n : Nat) : Nat := 0x208064 + 0x1000 * n
def F.BEAMS_BEAM_COUNT (n : Nat) : Field := ⟨R.BEAMS n, 7, 0⟩

def R.HEAD_ID_EXPECT (n : Nat) : Nat := 0x208068 + 0x1000 * n
def F.HEAD_ID_EXPECT_ID (n : Nat) : Field := ⟨R.HEAD_ID_EXPECT n, 31, 0⟩

def R.BEAM_A (n : Nat) (k : Nat) : Nat := 0x208080 + 0x1000 * n + 0x10 * k
def F.BEAM_A_AZ_OFF (n : Nat) (k : Nat) : Field := ⟨R.BEAM_A n k, 31, 16⟩
def F.BEAM_A_ELEV (n : Nat) (k : Nat) : Field := ⟨R.BEAM_A n k, 15, 0⟩

def R.BEAM_B (n : Nat) (k : Nat) : Nat := 0x208084 + 0x1000 * n + 0x10 * k
def F.BEAM_B_ROFF_1 (n : Nat) (k : Nat) : Field := ⟨R.BEAM_B n k, 31, 16⟩
def F.BEAM_B_ROFF_0 (n : Nat) (k : Nat) : Field := ⟨R.BEAM_B n k, 15, 0⟩

def R.BEAM_C (n : Nat) (k : Nat) : Nat := 0x208088 + 0x1000 * n + 0x10 * k
def F.BEAM_C_ROFF_3 (n : Nat) (k : Nat) : Field := ⟨R.BEAM_C n k, 31, 16⟩
def F.BEAM_C_ROFF_2 (n : Nat) (k : Nat) : Field := ⟨R.BEAM_C n k, 15, 0⟩

def R.BEAM_D (n : Nat) (k : Nat) : Nat := 0x20808C + 0x1000 * n + 0x10 * k
def F.BEAM_D_INT_GAIN (n : Nat) (k : Nat) : Field := ⟨R.BEAM_D n k, 23, 16⟩
def F.BEAM_D_SCALE_PPM (n : Nat) (k : Nat) : Field := ⟨R.BEAM_D n k, 15, 0⟩

/-! Table 6-7 (06_separator_thinning.md). -/

def R.SEP_CFG : Nat := 0x40040
def F.SEP_CFG_POSE_FALLBACK : Field := ⟨R.SEP_CFG, 10, 10⟩
def F.SEP_CFG_DESKEW_EN : Field := ⟨R.SEP_CFG, 9, 9⟩
def F.SEP_CFG_EXCLUDE_TRANSITION : Field := ⟨R.SEP_CFG, 8, 8⟩
def F.SEP_CFG_RETAIN_MAX : Field := ⟨R.SEP_CFG, 7, 4⟩
def F.SEP_CFG_BIN_FINE : Field := ⟨R.SEP_CFG, 1, 0⟩

def R.SEP_GRID_OFF_XY : Nat := 0x40044
def F.SEP_GRID_OFF_XY_OFF_Y : Field := ⟨R.SEP_GRID_OFF_XY, 31, 16⟩
def F.SEP_GRID_OFF_XY_OFF_X : Field := ⟨R.SEP_GRID_OFF_XY, 15, 0⟩

def R.SEP_GRID_OFF_Z : Nat := 0x40048
def F.SEP_GRID_OFF_Z : Field := ⟨R.SEP_GRID_OFF_Z, 15, 0⟩

def R.SEP_POSE_EXTRAP_US : Nat := 0x4004C
def F.SEP_POSE_EXTRAP_US_EXTRAP : Field := ⟨R.SEP_POSE_EXTRAP_US, 31, 0⟩

def R.SEP_POSE_GAP_US : Nat := 0x40050
def F.SEP_POSE_GAP_US_GAP : Field := ⟨R.SEP_POSE_GAP_US, 31, 0⟩

def R.SEP_DRAM_LO : Nat := 0x40054
def F.SEP_DRAM_LO_ADDR : Field := ⟨R.SEP_DRAM_LO, 31, 26⟩

def R.SEP_DRAM_HI : Nat := 0x40058
def F.SEP_DRAM_HI_ADDR : Field := ⟨R.SEP_DRAM_HI, 3, 0⟩

/-! Table 6-8 (06_separator_thinning.md). -/

def R.SEP_BIN_STATUS : Nat := 0x4005C
def F.SEP_BIN_STATUS_FRAME : Field := ⟨R.SEP_BIN_STATUS, 31, 24⟩
def F.SEP_BIN_STATUS_BANKS_FREE : Field := ⟨R.SEP_BIN_STATUS, 17, 16⟩
def F.SEP_BIN_STATUS_FINE_OVF : Field := ⟨R.SEP_BIN_STATUS, 1, 1⟩
def F.SEP_BIN_STATUS_STAGING : Field := ⟨R.SEP_BIN_STATUS, 0, 0⟩

def R.SEP_INGEST_POINTS : Nat := 0x40060
def F.SEP_INGEST_POINTS : Field := ⟨R.SEP_INGEST_POINTS, 31, 0⟩

def R.SEP_SITES_FINE : Nat := 0x40064
def F.SEP_SITES_FINE_SITES : Field := ⟨R.SEP_SITES_FINE, 31, 0⟩

def R.SEP_SITES_COARSE : Nat := 0x40068
def F.SEP_SITES_COARSE_SITES : Field := ⟨R.SEP_SITES_COARSE, 31, 0⟩

def R.SEP_EXCLUDED_CNT : Nat := 0x4006C
def F.SEP_EXCLUDED_CNT : Field := ⟨R.SEP_EXCLUDED_CNT, 31, 0⟩

def R.SEP_OUT_OF_GRID_CNT : Nat := 0x40070
def F.SEP_OUT_OF_GRID_CNT : Field := ⟨R.SEP_OUT_OF_GRID_CNT, 31, 0⟩

def R.SEP_POINT_LIMIT_CNT : Nat := 0x40074
def F.SEP_POINT_LIMIT_CNT : Field := ⟨R.SEP_POINT_LIMIT_CNT, 31, 0⟩

def R.SEP_SITE_DROP_CNT : Nat := 0x40078
def F.SEP_SITE_DROP_CNT : Field := ⟨R.SEP_SITE_DROP_CNT, 31, 0⟩

def R.SEP_NO_POSE_CNT : Nat := 0x4007C
def F.SEP_NO_POSE_CNT : Field := ⟨R.SEP_NO_POSE_CNT, 31, 0⟩

def R.SEP_STAGE_DROP_CNT : Nat := 0x40080
def F.SEP_STAGE_DROP_CNT : Field := ⟨R.SEP_STAGE_DROP_CNT, 31, 0⟩

def R.SEP_CARRIED_CNT : Nat := 0x40084
def F.SEP_CARRIED_CNT : Field := ⟨R.SEP_CARRIED_CNT, 31, 0⟩

def R.SEP_STAGE_PEAK : Nat := 0x40088
def F.SEP_STAGE_PEAK : Field := ⟨R.SEP_STAGE_PEAK, 21, 0⟩

/-! Table 6-9 (06_separator_thinning.md). -/

def R.SEP_POSE_STAGE (k : Nat) : Nat := 0x41040 + 0x4 * k
def F.SEP_POSE_STAGE_BYTES (k : Nat) : Field := ⟨R.SEP_POSE_STAGE k, 31, 0⟩

def R.SEP_POSE_CMD : Nat := 0x41060
def F.SEP_POSE_CMD_CLEAR : Field := ⟨R.SEP_POSE_CMD, 1, 1⟩
def F.SEP_POSE_CMD_PUSH : Field := ⟨R.SEP_POSE_CMD, 0, 0⟩

def R.SEP_POSE_STATUS : Nat := 0x41064
def F.SEP_POSE_STATUS_TARGET_OK : Field := ⟨R.SEP_POSE_STATUS, 8, 8⟩
def F.SEP_POSE_STATUS_HELD : Field := ⟨R.SEP_POSE_STATUS, 5, 0⟩

def R.SEP_POSE_NEWEST_LO : Nat := 0x41068
def F.SEP_POSE_NEWEST_LO_TS : Field := ⟨R.SEP_POSE_NEWEST_LO, 31, 0⟩

def R.SEP_POSE_NEWEST_HI : Nat := 0x4106C
def F.SEP_POSE_NEWEST_HI_TS : Field := ⟨R.SEP_POSE_NEWEST_HI, 31, 0⟩

def R.SEP_POSE_REJECT_CNT : Nat := 0x41070
def F.SEP_POSE_REJECT_CNT : Field := ⟨R.SEP_POSE_REJECT_CNT, 31, 0⟩

/-! Table 7-7 (07_harvest_selection.md). -/

def R.HRV_STATUS : Nat := 0x50040
def F.HRV_STATUS_OP : Field := ⟨R.HRV_STATUS, 13, 12⟩
def F.HRV_STATUS_BUSY : Field := ⟨R.HRV_STATUS, 8, 8⟩
def F.HRV_STATUS_QUEUED : Field := ⟨R.HRV_STATUS, 4, 0⟩

def R.HRV_REQ_CNT : Nat := 0x50044
def F.HRV_REQ_CNT : Field := ⟨R.HRV_REQ_CNT, 31, 0⟩

def R.HRV_NAN_CNT : Nat := 0x50048
def F.HRV_NAN_CNT : Field := ⟨R.HRV_NAN_CNT, 31, 0⟩

def R.HRV_INSERT_CNT : Nat := 0x5004C
def F.HRV_INSERT_CNT : Field := ⟨R.HRV_INSERT_CNT, 31, 0⟩

def R.HRV_QUEUE_FULL_CNT : Nat := 0x50050
def F.HRV_QUEUE_FULL_CNT : Field := ⟨R.HRV_QUEUE_FULL_CNT, 31, 0⟩

def R.HRV_REQ_ERR_CNT : Nat := 0x50054
def F.HRV_REQ_ERR_CNT : Field := ⟨R.HRV_REQ_ERR_CNT, 31, 0⟩

def R.HRV_LAST_ERR : Nat := 0x50058
def F.HRV_LAST_ERR_CODE : Field := ⟨R.HRV_LAST_ERR, 31, 16⟩
def F.HRV_LAST_ERR_ROW : Field := ⟨R.HRV_LAST_ERR, 15, 0⟩

def R.HRV_LAST_SRC : Nat := 0x5005C
def F.HRV_LAST_SRC_SOURCE : Field := ⟨R.HRV_LAST_SRC, 16, 16⟩
def F.HRV_LAST_SRC_ID : Field := ⟨R.HRV_LAST_SRC, 15, 0⟩

def R.HRV_QUEUE_PEAK : Nat := 0x50060
def F.HRV_QUEUE_PEAK : Field := ⟨R.HRV_QUEUE_PEAK, 4, 0⟩

/-! Table 8-7 (08_sparse_convolution.md). -/

def R.SCV_STATUS : Nat := 0x60040
def F.SCV_STATUS_STAGE : Field := ⟨R.SCV_STATUS, 31, 16⟩
def F.SCV_STATUS_BUSY : Field := ⟨R.SCV_STATUS, 8, 8⟩
def F.SCV_STATUS_OP : Field := ⟨R.SCV_STATUS, 5, 4⟩

def R.SCV_SET_VALID : Nat := 0x60044
def F.SCV_SET_VALID_SETS : Field := ⟨R.SCV_SET_VALID, 7, 0⟩

def R.SCV_COMMIT : Nat := 0x60048
def F.SCV_COMMIT_FRAME : Field := ⟨R.SCV_COMMIT, 31, 24⟩
def F.SCV_COMMIT_BANK : Field := ⟨R.SCV_COMMIT, 5, 4⟩
def F.SCV_COMMIT_LEVEL : Field := ⟨R.SCV_COMMIT, 1, 0⟩

def R.SCV_FRAME_FLAGS : Nat := 0x6004C
def F.SCV_FRAME_FLAGS_SET_OVF : Field := ⟨R.SCV_FRAME_FLAGS, 0, 0⟩

def R.SCV_SET_SITES (k : Nat) : Nat := 0x60050 + 0x4 * k
def F.SCV_SET_SITES (k : Nat) : Field := ⟨R.SCV_SET_SITES k, 20, 0⟩

def R.SCV_PART_PEAK : Nat := 0x60070
def F.SCV_PART_PEAK : Field := ⟨R.SCV_PART_PEAK, 14, 0⟩

def R.SCV_STAGE_CNT : Nat := 0x60074
def F.SCV_STAGE_CNT : Field := ⟨R.SCV_STAGE_CNT, 31, 0⟩

def R.SCV_PROBE_CNT : Nat := 0x60078
def F.SCV_PROBE_CNT : Field := ⟨R.SCV_PROBE_CNT, 31, 0⟩

def R.SCV_SET_OVF_CNT : Nat := 0x6007C
def F.SCV_SET_OVF_CNT : Field := ⟨R.SCV_SET_OVF_CNT, 31, 0⟩

def R.SCV_BEV_CLIP_CNT : Nat := 0x60080
def F.SCV_BEV_CLIP_CNT : Field := ⟨R.SCV_BEV_CLIP_CNT, 31, 0⟩

def R.SCV_BEV_ZDROP_CNT : Nat := 0x60084
def F.SCV_BEV_ZDROP_CNT : Field := ⟨R.SCV_BEV_ZDROP_CNT, 31, 0⟩

def R.SCV_DATA_ERR_CNT : Nat := 0x60088
def F.SCV_DATA_ERR_CNT : Field := ⟨R.SCV_DATA_ERR_CNT, 31, 0⟩

def R.SCV_STAGE_ERR_CNT : Nat := 0x6008C
def F.SCV_STAGE_ERR_CNT : Field := ⟨R.SCV_STAGE_ERR_CNT, 31, 0⟩

def R.SCV_LAST_ERR : Nat := 0x60090
def F.SCV_LAST_ERR_CODE : Field := ⟨R.SCV_LAST_ERR, 31, 16⟩
def F.SCV_LAST_ERR_STAGE : Field := ⟨R.SCV_LAST_ERR, 15, 0⟩

/-! Table 8-8 (08_sparse_convolution.md). -/

def R.SCV_BANK_STATE : Nat := 0x61040
def F.SCV_BANK_STATE_B2 : Field := ⟨R.SCV_BANK_STATE, 5, 4⟩
def F.SCV_BANK_STATE_B1 : Field := ⟨R.SCV_BANK_STATE, 3, 2⟩
def F.SCV_BANK_STATE_B0 : Field := ⟨R.SCV_BANK_STATE, 1, 0⟩

def R.SCV_POOL_USED : Nat := 0x61044
def F.SCV_POOL_USED_UNITS : Field := ⟨R.SCV_POOL_USED, 5, 0⟩

/-! Table 9-8 (09_scion_tiles.md). -/

def R.TILE_STATUS (n : Nat) : Nat := 0x80040 + 0x1000 * n
def F.TILE_STATUS_STAGE (n : Nat) : Field := ⟨R.TILE_STATUS n, 31, 16⟩
def F.TILE_STATUS_UNDER_TEST (n : Nat) : Field := ⟨R.TILE_STATUS n, 10, 10⟩
def F.TILE_STATUS_GATED (n : Nat) : Field := ⟨R.TILE_STATUS n, 9, 9⟩
def F.TILE_STATUS_BUSY (n : Nat) : Field := ⟨R.TILE_STATUS n, 8, 8⟩
def F.TILE_STATUS_TAGS (n : Nat) : Field := ⟨R.TILE_STATUS n, 6, 0⟩

def R.TILE_SB_BUSY_LO (n : Nat) : Nat := 0x80044 + 0x1000 * n
def F.TILE_SB_BUSY_LO_TAGS (n : Nat) : Field := ⟨R.TILE_SB_BUSY_LO n, 31, 0⟩

def R.TILE_SB_BUSY_HI (n : Nat) : Nat := 0x80048 + 0x1000 * n
def F.TILE_SB_BUSY_HI_TAGS (n : Nat) : Field := ⟨R.TILE_SB_BUSY_HI n, 31, 0⟩

def R.TILE_PWR (n : Nat) : Nat := 0x8004C + 0x1000 * n
def F.TILE_PWR_GATE_IDLE_US (n : Nat) : Field := ⟨R.TILE_PWR n, 31, 16⟩
def F.TILE_PWR_WAKE (n : Nat) : Field := ⟨R.TILE_PWR n, 1, 1⟩
def F.TILE_PWR_GATE_EN (n : Nat) : Field := ⟨R.TILE_PWR n, 0, 0⟩

def R.TILE_TEST_STATUS (n : Nat) : Nat := 0x80050 + 0x1000 * n
def F.TILE_TEST_STATUS_WITHDRAWN (n : Nat) : Field := ⟨R.TILE_TEST_STATUS n, 31, 31⟩
def F.TILE_TEST_STATUS_LAST (n : Nat) : Field := ⟨R.TILE_TEST_STATUS n, 17, 16⟩
def F.TILE_TEST_STATUS_AGE_MS (n : Nat) : Field := ⟨R.TILE_TEST_STATUS n, 15, 0⟩

def R.TILE_ITEM_CNT (n : Nat) : Nat := 0x80054 + 0x1000 * n
def F.TILE_ITEM_CNT (n : Nat) : Field := ⟨R.TILE_ITEM_CNT n, 31, 0⟩

def R.TILE_OP_CNT (n : Nat) : Nat := 0x80058 + 0x1000 * n
def F.TILE_OP_CNT (n : Nat) : Field := ⟨R.TILE_OP_CNT n, 31, 0⟩

def R.TILE_DATA_ERR_CNT (n : Nat) : Nat := 0x8005C + 0x1000 * n
def F.TILE_DATA_ERR_CNT (n : Nat) : Field := ⟨R.TILE_DATA_ERR_CNT n, 31, 0⟩

def R.TILE_MAC_BUSY_CNT (n : Nat) : Nat := 0x80060 + 0x1000 * n
def F.TILE_MAC_BUSY_CNT (n : Nat) : Field := ⟨R.TILE_MAC_BUSY_CNT n, 31, 0⟩

def R.TILE_TEST_PASS_CNT (n : Nat) : Nat := 0x80064 + 0x1000 * n
def F.TILE_TEST_PASS_CNT (n : Nat) : Field := ⟨R.TILE_TEST_PASS_CNT n, 31, 0⟩

def R.TILE_LAST_ERR (n : Nat) : Nat := 0x80068 + 0x1000 * n
def F.TILE_LAST_ERR_CODE (n : Nat) : Field := ⟨R.TILE_LAST_ERR n, 31, 16⟩
def F.TILE_LAST_ERR_OP (n : Nat) : Field := ⟨R.TILE_LAST_ERR n, 9, 0⟩

/-! Table 9-9 (09_scion_tiles.md). -/

def R.FRM_STAGE_ERR : Nat := 0x100A0
def F.FRM_STAGE_ERR_CODE : Field := ⟨R.FRM_STAGE_ERR, 31, 16⟩
def F.FRM_STAGE_ERR_STAGE : Field := ⟨R.FRM_STAGE_ERR, 15, 0⟩

def R.FRM_STAGE_ERR_CNT : Nat := 0x100A4
def F.FRM_STAGE_ERR_CNT : Field := ⟨R.FRM_STAGE_ERR_CNT, 31, 0⟩

def R.FRM_DISPATCH : Nat := 0x100A8
def F.FRM_DISPATCH_DONE : Field := ⟨R.FRM_DISPATCH, 31, 16⟩
def F.FRM_DISPATCH_RUNNING : Field := ⟨R.FRM_DISPATCH, 6, 0⟩

/-! Table 9-10 (09_scion_tiles.md). -/

def R.FRM_TEST_CFG : Nat := 0x11064
def F.FRM_TEST_CFG_INTERVAL_MS : Field := ⟨R.FRM_TEST_CFG, 31, 16⟩
def F.FRM_TEST_CFG_GROUP : Field := ⟨R.FRM_TEST_CFG, 7, 4⟩
def F.FRM_TEST_CFG_TEST_EN : Field := ⟨R.FRM_TEST_CFG, 0, 0⟩

def R.FRM_WITHDRAWN_LO : Nat := 0x11068
def F.FRM_WITHDRAWN_LO_TILES : Field := ⟨R.FRM_WITHDRAWN_LO, 31, 0⟩

def R.FRM_WITHDRAWN_HI : Nat := 0x1106C
def F.FRM_WITHDRAWN_HI_TILES : Field := ⟨R.FRM_WITHDRAWN_HI, 31, 0⟩

def R.FRM_TEST_ROTOR : Nat := 0x11070
def F.FRM_TEST_ROTOR_NEXT : Field := ⟨R.FRM_TEST_ROTOR, 5, 0⟩

def R.FRM_TEST_ABORT_CNT : Nat := 0x11074
def F.FRM_TEST_ABORT_CNT : Field := ⟨R.FRM_TEST_ABORT_CNT, 31, 0⟩

def R.FRM_TEST_SKIP_CNT : Nat := 0x11078
def F.FRM_TEST_SKIP_CNT : Field := ⟨R.FRM_TEST_SKIP_CNT, 31, 0⟩

def R.FRM_TEST_REQ : Nat := 0x1107C
def F.FRM_TEST_REQ : Field := ⟨R.FRM_TEST_REQ, 8, 8⟩
def F.FRM_TEST_REQ_PENDING : Field := ⟨R.FRM_TEST_REQ, 7, 7⟩
def F.FRM_TEST_REQ_TILE : Field := ⟨R.FRM_TEST_REQ, 5, 0⟩

/-! Table 10-9 (10_memory_ordering.md). -/

def R.MEMC_CFG (n : Nat) : Nat := 0xC0040 + 0x2000 * n
def F.MEMC_CFG_RANKS (n : Nat) : Field := ⟨R.MEMC_CFG n, 11, 8⟩
def F.MEMC_CFG_CH_GIB (n : Nat) : Field := ⟨R.MEMC_CFG n, 7, 4⟩
def F.MEMC_CFG_RATE (n : Nat) : Field := ⟨R.MEMC_CFG n, 1, 0⟩

def R.MEMC_STATUS (n : Nat) : Nat := 0xC0044 + 0x2000 * n
def F.MEMC_STATUS_REFRESH_MULT (n : Nat) : Field := ⟨R.MEMC_STATUS n, 7, 4⟩
def F.MEMC_STATUS_SELF_REFRESH (n : Nat) : Field := ⟨R.MEMC_STATUS n, 2, 2⟩
def F.MEMC_STATUS_TRAINED (n : Nat) : Field := ⟨R.MEMC_STATUS n, 1, 1⟩

def R.MEMC_DRAM_TOP_LO (n : Nat) : Nat := 0xC0048 + 0x2000 * n
def F.MEMC_DRAM_TOP_LO_TOP (n : Nat) : Field := ⟨R.MEMC_DRAM_TOP_LO n, 31, 0⟩

def R.MEMC_DRAM_TOP_HI (n : Nat) : Nat := 0xC004C + 0x2000 * n
def F.MEMC_DRAM_TOP_HI_TOP (n : Nat) : Field := ⟨R.MEMC_DRAM_TOP_HI n, 3, 0⟩

def R.MEMC_SHARD_CFG (n : Nat) : Nat := 0xC0050 + 0x2000 * n
def F.MEMC_SHARD_CFG_BASE_4M (n : Nat) : Field := ⟨R.MEMC_SHARD_CFG n, 10, 0⟩

def R.MEMC_SCRUB_CFG (n : Nat) : Nat := 0xC0054 + 0x2000 * n
def F.MEMC_SCRUB_CFG_SCRUB_HOURS (n : Nat) : Field := ⟨R.MEMC_SCRUB_CFG n, 15, 8⟩
def F.MEMC_SCRUB_CFG_SCRUB_EN (n : Nat) : Field := ⟨R.MEMC_SCRUB_CFG n, 0, 0⟩

def R.MEMC_CE_CNT (n : Nat) : Nat := 0xC0058 + 0x2000 * n
def F.MEMC_CE_CNT (n : Nat) : Field := ⟨R.MEMC_CE_CNT n, 31, 0⟩

def R.MEMC_UE_CNT (n : Nat) : Nat := 0xC005C + 0x2000 * n
def F.MEMC_UE_CNT (n : Nat) : Field := ⟨R.MEMC_UE_CNT n, 31, 0⟩

def R.MEMC_SCRUB_PASS_CNT (n : Nat) : Nat := 0xC0060 + 0x2000 * n
def F.MEMC_SCRUB_PASS_CNT (n : Nat) : Field := ⟨R.MEMC_SCRUB_PASS_CNT n, 31, 0⟩

def R.MEMC_UE_ADDR_LO (n : Nat) : Nat := 0xC0064 + 0x2000 * n
def F.MEMC_UE_ADDR_LO_ADDR (n : Nat) : Field := ⟨R.MEMC_UE_ADDR_LO n, 31, 0⟩

def R.MEMC_UE_ADDR_HI (n : Nat) : Nat := 0xC0068 + 0x2000 * n
def F.MEMC_UE_ADDR_HI_ADDR (n : Nat) : Field := ⟨R.MEMC_UE_ADDR_HI n, 15, 0⟩

def R.MEMC_RD_64K_CNT (n : Nat) : Nat := 0xC006C + 0x2000 * n
def F.MEMC_RD_64K_CNT (n : Nat) : Field := ⟨R.MEMC_RD_64K_CNT n, 31, 0⟩

def R.MEMC_WR_64K_CNT (n : Nat) : Nat := 0xC0070 + 0x2000 * n
def F.MEMC_WR_64K_CNT (n : Nat) : Field := ⟨R.MEMC_WR_64K_CNT n, 31, 0⟩

/-! Table 10-10 (10_memory_ordering.md). -/

def R.MEMC_CHURN_STATUS (n : Nat) : Nat := 0xC1040 + 0x2000 * n
def F.MEMC_CHURN_STATUS_COMBINE_USED (n : Nat) : Field := ⟨R.MEMC_CHURN_STATUS n, 24, 16⟩

def R.MEMC_ADD_CNT (n : Nat) : Nat := 0xC1044 + 0x2000 * n
def F.MEMC_ADD_CNT (n : Nat) : Field := ⟨R.MEMC_ADD_CNT n, 31, 0⟩

def R.MEMC_MERGE_CNT (n : Nat) : Nat := 0xC1048 + 0x2000 * n
def F.MEMC_MERGE_CNT (n : Nat) : Field := ⟨R.MEMC_MERGE_CNT n, 31, 0⟩

def R.MEMC_DEQUANT_CNT (n : Nat) : Nat := 0xC104C + 0x2000 * n
def F.MEMC_DEQUANT_CNT (n : Nat) : Field := ⟨R.MEMC_DEQUANT_CNT n, 31, 0⟩

def R.MEMC_POOL_CNT (n : Nat) : Nat := 0xC1050 + 0x2000 * n
def F.MEMC_POOL_CNT (n : Nat) : Field := ⟨R.MEMC_POOL_CNT n, 31, 0⟩

def R.MEMC_POISON_CNT (n : Nat) : Nat := 0xC1054 + 0x2000 * n
def F.MEMC_POISON_CNT (n : Nat) : Field := ⟨R.MEMC_POISON_CNT n, 31, 0⟩

def R.MEMC_SHARE_NOW (n : Nat) : Nat := 0xC1058 + 0x2000 * n
def F.MEMC_SHARE_NOW_SHARES (n : Nat) : Field := ⟨R.MEMC_SHARE_NOW n, 4, 0⟩

def R.MEMC_CLASS_STALL (n : Nat) (k : Nat) : Nat := 0xC1060 + 0x2000 * n + 0x4 * k
def F.MEMC_CLASS_STALL_CYCLES (n : Nat) (k : Nat) : Field := ⟨R.MEMC_CLASS_STALL n k, 31, 0⟩

def R.MEMC_CELLAR_CE_CNT (n : Nat) : Nat := 0xC1070 + 0x2000 * n
def F.MEMC_CELLAR_CE_CNT (n : Nat) : Field := ⟨R.MEMC_CELLAR_CE_CNT n, 31, 0⟩

def R.MEMC_CELLAR_UE_CNT (n : Nat) : Nat := 0xC1074 + 0x2000 * n
def F.MEMC_CELLAR_UE_CNT (n : Nat) : Field := ⟨R.MEMC_CELLAR_UE_CNT n, 31, 0⟩

def R.MEMC_CELLAR_LAST (n : Nat) : Nat := 0xC1078 + 0x2000 * n
def F.MEMC_CELLAR_LAST_TILE (n : Nat) : Field := ⟨R.MEMC_CELLAR_LAST n, 23, 18⟩
def F.MEMC_CELLAR_LAST_WORD (n : Nat) : Field := ⟨R.MEMC_CELLAR_LAST n, 17, 0⟩

/-! Table 11-7 (11_embedding_tables.md). -/

def R.ETU_CFG : Nat := 0xD0040
def F.ETU_CFG_CACHE_ADMIT : Field := ⟨R.ETU_CFG, 11, 8⟩
def F.ETU_CFG_CACHE_SHARE : Field := ⟨R.ETU_CFG, 3, 0⟩

def R.ETU_STATUS : Nat := 0xD0044
def F.ETU_STATUS_OUTSTANDING : Field := ⟨R.ETU_STATUS, 27, 16⟩
def F.ETU_STATUS_JOBS : Field := ⟨R.ETU_STATUS, 2, 0⟩

def R.ETU_LOOKUP_CNT : Nat := 0xD0048
def F.ETU_LOOKUP_CNT : Field := ⟨R.ETU_LOOKUP_CNT, 31, 0⟩

def R.ETU_CACHE_HIT_CNT : Nat := 0xD004C
def F.ETU_CACHE_HIT_CNT : Field := ⟨R.ETU_CACHE_HIT_CNT, 31, 0⟩

def R.ETU_CACHE_MISS_CNT : Nat := 0xD0050
def F.ETU_CACHE_MISS_CNT : Field := ⟨R.ETU_CACHE_MISS_CNT, 31, 0⟩

def R.ETU_INVALID_IDX_CNT : Nat := 0xD0054
def F.ETU_INVALID_IDX_CNT : Field := ⟨R.ETU_INVALID_IDX_CNT, 31, 0⟩

def R.ETU_MISSING_IDX_CNT : Nat := 0xD0058
def F.ETU_MISSING_IDX_CNT : Field := ⟨R.ETU_MISSING_IDX_CNT, 31, 0⟩

def R.ETU_UPDATE_ROW_CNT : Nat := 0xD005C
def F.ETU_UPDATE_ROW_CNT : Field := ⟨R.ETU_UPDATE_ROW_CNT, 31, 0⟩

def R.ETU_UPD_NAN_CNT : Nat := 0xD0060
def F.ETU_UPD_NAN_CNT : Field := ⟨R.ETU_UPD_NAN_CNT, 31, 0⟩

def R.ETU_ROW_ERR_CNT : Nat := 0xD0064
def F.ETU_ROW_ERR_CNT : Field := ⟨R.ETU_ROW_ERR_CNT, 31, 0⟩

def R.ETU_REMOTE_REQ_CNT : Nat := 0xD0068
def F.ETU_REMOTE_REQ_CNT : Field := ⟨R.ETU_REMOTE_REQ_CNT, 31, 0⟩

def R.ETU_NOT_HOME_CNT : Nat := 0xD006C
def F.ETU_NOT_HOME_CNT : Field := ⟨R.ETU_NOT_HOME_CNT, 31, 0⟩

def R.ETU_FOLD_NONFINITE_CNT : Nat := 0xD0070
def F.ETU_FOLD_NONFINITE_CNT : Field := ⟨R.ETU_FOLD_NONFINITE_CNT, 31, 0⟩

def R.ETU_CACHE_ROWS : Nat := 0xD0074
def F.ETU_CACHE_ROWS : Field := ⟨R.ETU_CACHE_ROWS, 19, 0⟩

def R.ETU_LAST_ERR : Nat := 0xD0078
def F.ETU_LAST_ERR_CODE : Field := ⟨R.ETU_LAST_ERR, 31, 16⟩
def F.ETU_LAST_ERR_TABLE : Field := ⟨R.ETU_LAST_ERR, 7, 0⟩

/-! Table 11-8 (11_embedding_tables.md). -/

def R.ETU_CMD : Nat := 0xD1040
def F.ETU_CMD_TABLE : Field := ⟨R.ETU_CMD, 15, 8⟩
def F.ETU_CMD_OP : Field := ⟨R.ETU_CMD, 3, 0⟩

def R.ETU_CMD_ADDR_LO : Nat := 0xD1044
def F.ETU_CMD_ADDR_LO_ADDR : Field := ⟨R.ETU_CMD_ADDR_LO, 31, 0⟩

def R.ETU_CMD_ADDR_HI : Nat := 0xD1048
def F.ETU_CMD_ADDR_HI_ADDR : Field := ⟨R.ETU_CMD_ADDR_HI, 15, 0⟩

def R.ETU_CMD_SIZE : Nat := 0xD104C
def F.ETU_CMD_SIZE : Field := ⟨R.ETU_CMD_SIZE, 31, 0⟩

def R.ETU_CMD_STATUS : Nat := 0xD1050
def F.ETU_CMD_STATUS_BUSY : Field := ⟨R.ETU_CMD_STATUS, 31, 31⟩
def F.ETU_CMD_STATUS_OP : Field := ⟨R.ETU_CMD_STATUS, 19, 16⟩
def F.ETU_CMD_STATUS_TABLE : Field := ⟨R.ETU_CMD_STATUS, 15, 8⟩

def R.ETU_CMD_RESULT : Nat := 0xD1054
def F.ETU_CMD_RESULT_CODE : Field := ⟨R.ETU_CMD_RESULT, 15, 0⟩

def R.ETU_CMD_PROGRESS : Nat := 0xD1058
def F.ETU_CMD_PROGRESS_ROWS : Field := ⟨R.ETU_CMD_PROGRESS, 31, 0⟩

def R.ETU_TABLE_STATE (k : Nat) : Nat := 0xD1100 + 0x4 * k
def F.ETU_TABLE_STATE_FOLD_INCOMPLETE (k : Nat) : Field := ⟨R.ETU_TABLE_STATE k, 15, 15⟩
def F.ETU_TABLE_STATE_REPLACE_INCOMPLETE (k : Nat) : Field := ⟨R.ETU_TABLE_STATE k, 14, 14⟩
def F.ETU_TABLE_STATE_ACTIVE_BANK (k : Nat) : Field := ⟨R.ETU_TABLE_STATE k, 13, 13⟩
def F.ETU_TABLE_STATE_HOME (k : Nat) : Field := ⟨R.ETU_TABLE_STATE k, 12, 12⟩
def F.ETU_TABLE_STATE_FLAGS (k : Nat) : Field := ⟨R.ETU_TABLE_STATE k, 11, 8⟩
def F.ETU_TABLE_STATE (k : Nat) : Field := ⟨R.ETU_TABLE_STATE k, 2, 0⟩

/-! Table 11-9 (11_embedding_tables.md). -/

def R.ETU_LOAD_CFG : Nat := 0xD2040
def F.ETU_LOAD_CFG_LOAD_WINDOW_US : Field := ⟨R.ETU_LOAD_CFG, 31, 16⟩
def F.ETU_LOAD_CFG_MIG_BATCH : Field := ⟨R.ETU_LOAD_CFG, 15, 12⟩
def F.ETU_LOAD_CFG_MIG_THR : Field := ⟨R.ETU_LOAD_CFG, 7, 1⟩
def F.ETU_LOAD_CFG_MIGRATE_EN : Field := ⟨R.ETU_LOAD_CFG, 0, 0⟩

def R.ETU_SHARD_LOAD (k : Nat) : Nat := 0xD2044 + 0x4 * k
def F.ETU_SHARD_LOAD_LINES (k : Nat) : Field := ⟨R.ETU_SHARD_LOAD k, 31, 0⟩

def R.ETU_REDIRECT_USED : Nat := 0xD2064
def F.ETU_REDIRECT_USED_ENTRIES : Field := ⟨R.ETU_REDIRECT_USED, 13, 0⟩

def R.ETU_MIG_CNT : Nat := 0xD2068
def F.ETU_MIG_CNT : Field := ⟨R.ETU_MIG_CNT, 31, 0⟩

def R.ETU_MIG_SKIP_CNT : Nat := 0xD206C
def F.ETU_MIG_SKIP_CNT : Field := ⟨R.ETU_MIG_SKIP_CNT, 31, 0⟩

/-! Table 12-10 (12_graft_link.md). -/

def R.GRF_PORT_CFG (n : Nat) : Nat := 0xF0040 + 0x2000 * n
def F.GRF_PORT_CFG_PROFILE (n : Nat) : Field := ⟨R.GRF_PORT_CFG n, 8, 8⟩
def F.GRF_PORT_CFG_ROLE (n : Nat) : Field := ⟨R.GRF_PORT_CFG n, 2, 0⟩

def R.GRF_PORT_STATUS (n : Nat) : Nat := 0xF0044 + 0x2000 * n
def F.GRF_PORT_STATUS_NEIGH_VALID (n : Nat) : Field := ⟨R.GRF_PORT_STATUS n, 31, 31⟩
def F.GRF_PORT_STATUS_NEIGHBOUR (n : Nat) : Field := ⟨R.GRF_PORT_STATUS n, 30, 16⟩
def F.GRF_PORT_STATUS_NEIGH_DIR (n : Nat) : Field := ⟨R.GRF_PORT_STATUS n, 10, 8⟩
def F.GRF_PORT_STATUS_LANES_OK (n : Nat) : Field := ⟨R.GRF_PORT_STATUS n, 7, 4⟩
def F.GRF_PORT_STATUS_LSTATE (n : Nat) : Field := ⟨R.GRF_PORT_STATUS n, 2, 0⟩

def R.GRF_LINK_TIMING (n : Nat) : Nat := 0xF0048 + 0x2000 * n
def F.GRF_LINK_TIMING_RECOVER_US (n : Nat) : Field := ⟨R.GRF_LINK_TIMING n, 15, 0⟩

def R.GRF_FEC_CORR_CNT (n : Nat) : Nat := 0xF004C + 0x2000 * n
def F.GRF_FEC_CORR_CNT (n : Nat) : Field := ⟨R.GRF_FEC_CORR_CNT n, 31, 0⟩

def R.GRF_FEC_UNCORR_CNT (n : Nat) : Nat := 0xF0050 + 0x2000 * n
def F.GRF_FEC_UNCORR_CNT (n : Nat) : Field := ⟨R.GRF_FEC_UNCORR_CNT n, 31, 0⟩

def R.GRF_CRC_ERR_CNT (n : Nat) : Nat := 0xF0054 + 0x2000 * n
def F.GRF_CRC_ERR_CNT (n : Nat) : Field := ⟨R.GRF_CRC_ERR_CNT n, 31, 0⟩

def R.GRF_REPLAY_CNT (n : Nat) : Nat := 0xF0058 + 0x2000 * n
def F.GRF_REPLAY_CNT (n : Nat) : Field := ⟨R.GRF_REPLAY_CNT n, 31, 0⟩

def R.GRF_RECOVER_CNT (n : Nat) : Nat := 0xF005C + 0x2000 * n
def F.GRF_RECOVER_CNT (n : Nat) : Field := ⟨R.GRF_RECOVER_CNT n, 31, 0⟩

def R.GRF_DOWN_CNT (n : Nat) : Nat := 0xF0060 + 0x2000 * n
def F.GRF_DOWN_CNT (n : Nat) : Field := ⟨R.GRF_DOWN_CNT n, 31, 0⟩

def R.GRF_TX_FLIT_CNT (n : Nat) : Nat := 0xF0064 + 0x2000 * n
def F.GRF_TX_FLIT_CNT (n : Nat) : Field := ⟨R.GRF_TX_FLIT_CNT n, 31, 0⟩

def R.GRF_RX_FLIT_CNT (n : Nat) : Nat := 0xF0068 + 0x2000 * n
def F.GRF_RX_FLIT_CNT (n : Nat) : Field := ⟨R.GRF_RX_FLIT_CNT n, 31, 0⟩

def R.GRF_ROUTE_LOST_CNT (n : Nat) : Nat := 0xF006C + 0x2000 * n
def F.GRF_ROUTE_LOST_CNT (n : Nat) : Field := ⟨R.GRF_ROUTE_LOST_CNT n, 31, 0⟩

def R.GRF_DISCARD_CNT (n : Nat) : Nat := 0xF0070 + 0x2000 * n
def F.GRF_DISCARD_CNT (n : Nat) : Field := ⟨R.GRF_DISCARD_CNT n, 31, 0⟩

/-! Table 12-11 (12_graft_link.md). -/

def R.GRF_NODE_CFG : Nat := 0xF1040
def F.GRF_NODE_CFG_DIMZ_M1 : Field := ⟨R.GRF_NODE_CFG, 29, 25⟩
def F.GRF_NODE_CFG_DIMY_M1 : Field := ⟨R.GRF_NODE_CFG, 24, 20⟩
def F.GRF_NODE_CFG_DIMX_M1 : Field := ⟨R.GRF_NODE_CFG, 19, 15⟩
def F.GRF_NODE_CFG_Z : Field := ⟨R.GRF_NODE_CFG, 14, 10⟩
def F.GRF_NODE_CFG_Y : Field := ⟨R.GRF_NODE_CFG, 9, 5⟩
def F.GRF_NODE_CFG_X : Field := ⟨R.GRF_NODE_CFG, 4, 0⟩

def R.GRF_NODE_ID : Nat := 0xF1044
def F.GRF_NODE_ID : Field := ⟨R.GRF_NODE_ID, 14, 0⟩

def R.GRF_TIMEOUT : Nat := 0xF1054
def F.GRF_TIMEOUT_BAR_TIMEOUT_MS : Field := ⟨R.GRF_TIMEOUT, 31, 16⟩
def F.GRF_TIMEOUT_REMOTE_TIMEOUT_MS : Field := ⟨R.GRF_TIMEOUT, 15, 0⟩

def R.GRF_LOST_CTL : Nat := 0xF1058
def F.GRF_LOST_CTL_OP : Field := ⟨R.GRF_LOST_CTL, 17, 16⟩
def F.GRF_LOST_CTL_NODE : Field := ⟨R.GRF_LOST_CTL, 14, 0⟩

def R.GRF_LOST_QUERY : Nat := 0xF105C
def F.GRF_LOST_QUERY_LOST : Field := ⟨R.GRF_LOST_QUERY, 16, 16⟩
def F.GRF_LOST_QUERY_NODE : Field := ⟨R.GRF_LOST_QUERY, 14, 0⟩

def R.GRF_LOST_COUNT : Nat := 0xF1060
def F.GRF_LOST_COUNT : Field := ⟨R.GRF_LOST_COUNT, 15, 0⟩

def R.GRF_OUTSTANDING : Nat := 0xF1064
def F.GRF_OUTSTANDING_TAGS : Field := ⟨R.GRF_OUTSTANDING, 12, 0⟩

def R.GRF_REQ_OUT_CNT : Nat := 0xF1068
def F.GRF_REQ_OUT_CNT : Field := ⟨R.GRF_REQ_OUT_CNT, 31, 0⟩

def R.GRF_REQ_IN_CNT : Nat := 0xF106C
def F.GRF_REQ_IN_CNT : Field := ⟨R.GRF_REQ_IN_CNT, 31, 0⟩

def R.GRF_NODE_LOST_CNT : Nat := 0xF1070
def F.GRF_NODE_LOST_CNT : Field := ⟨R.GRF_NODE_LOST_CNT, 31, 0⟩

def R.GRF_FENCED_CNT : Nat := 0xF1074
def F.GRF_FENCED_CNT : Field := ⟨R.GRF_FENCED_CNT, 31, 0⟩

def R.GRF_DENIED_CNT : Nat := 0xF1078
def F.GRF_DENIED_CNT : Field := ⟨R.GRF_DENIED_CNT, 31, 0⟩

def R.GRF_MALFORMED_CNT : Nat := 0xF107C
def F.GRF_MALFORMED_CNT : Field := ⟨R.GRF_MALFORMED_CNT, 31, 0⟩

def R.GRF_EXPORT_LO (k : Nat) : Nat := 0xF1100 + 0x8 * k
def F.GRF_EXPORT_LO_BASE (k : Nat) : Field := ⟨R.GRF_EXPORT_LO k, 31, 28⟩
def F.GRF_EXPORT_LO_ADD (k : Nat) : Field := ⟨R.GRF_EXPORT_LO k, 3, 3⟩
def F.GRF_EXPORT_LO_WRITE (k : Nat) : Field := ⟨R.GRF_EXPORT_LO k, 2, 2⟩
def F.GRF_EXPORT_LO_READ (k : Nat) : Field := ⟨R.GRF_EXPORT_LO k, 1, 1⟩
def F.GRF_EXPORT_LO_ENABLE (k : Nat) : Field := ⟨R.GRF_EXPORT_LO k, 0, 0⟩

def R.GRF_EXPORT_HI (k : Nat) : Nat := 0xF1104 + 0x8 * k
def F.GRF_EXPORT_HI_BASE (k : Nat) : Field := ⟨R.GRF_EXPORT_HI k, 14, 0⟩

def R.GRF_BAR_CFG (k : Nat) : Nat := 0xF1180 + 0x4 * k
def F.GRF_BAR_CFG_ENABLE (k : Nat) : Field := ⟨R.GRF_BAR_CFG k, 31, 31⟩
def F.GRF_BAR_CFG_SZ_M1 (k : Nat) : Field := ⟨R.GRF_BAR_CFG k, 29, 25⟩
def F.GRF_BAR_CFG_SY_M1 (k : Nat) : Field := ⟨R.GRF_BAR_CFG k, 24, 20⟩
def F.GRF_BAR_CFG_SX_M1 (k : Nat) : Field := ⟨R.GRF_BAR_CFG k, 19, 15⟩
def F.GRF_BAR_CFG_Z0 (k : Nat) : Field := ⟨R.GRF_BAR_CFG k, 14, 10⟩
def F.GRF_BAR_CFG_Y0 (k : Nat) : Field := ⟨R.GRF_BAR_CFG k, 9, 5⟩
def F.GRF_BAR_CFG_X0 (k : Nat) : Field := ⟨R.GRF_BAR_CFG k, 4, 0⟩

def R.GRF_BAR_CTL : Nat := 0xF11C0
def F.GRF_BAR_CTL_ARRIVE : Field := ⟨R.GRF_BAR_CTL, 8, 8⟩
def F.GRF_BAR_CTL_BAR : Field := ⟨R.GRF_BAR_CTL, 3, 0⟩

def R.GRF_BAR_STATUS (k : Nat) : Nat := 0xF11C4 + 0x4 * k
def F.GRF_BAR_STATUS_GEN (k : Nat) : Field := ⟨R.GRF_BAR_STATUS k, 31, 16⟩
def F.GRF_BAR_STATUS_STATE (k : Nat) : Field := ⟨R.GRF_BAR_STATUS k, 1, 0⟩

/-! Table 13-11 (13_host_contexts_status.md). -/

def R.HIF_STATUS : Nat := 0x100040
def F.HIF_STATUS_VF_ENABLED : Field := ⟨R.HIF_STATUS, 31, 16⟩
def F.HIF_STATUS_WIDTH : Field := ⟨R.HIF_STATUS, 7, 4⟩
def F.HIF_STATUS_SPEED : Field := ⟨R.HIF_STATUS, 3, 0⟩

def R.HIF_CFG : Nat := 0x100044
def F.HIF_CFG_PF_RAW : Field := ⟨R.HIF_CFG, 0, 0⟩

def R.HIF_JOB_CNT : Nat := 0x100048
def F.HIF_JOB_CNT : Field := ⟨R.HIF_JOB_CNT, 31, 0⟩

def R.HIF_JOB_ERR_CNT : Nat := 0x10004C
def F.HIF_JOB_ERR_CNT : Field := ⟨R.HIF_JOB_ERR_CNT, 31, 0⟩

def R.HIF_BAR2_DISCARD_CNT : Nat := 0x100050
def F.HIF_BAR2_DISCARD_CNT : Field := ⟨R.HIF_BAR2_DISCARD_CNT, 31, 0⟩

def R.HIF_RX_POISON_CNT : Nat := 0x100054
def F.HIF_RX_POISON_CNT : Field := ⟨R.HIF_RX_POISON_CNT, 31, 0⟩

def R.HIF_HOST_DMA_ERR_CNT : Nat := 0x100058
def F.HIF_HOST_DMA_ERR_CNT : Field := ⟨R.HIF_HOST_DMA_ERR_CNT, 31, 0⟩

def R.HIF_FUNC_CTX (k : Nat) : Nat := 0x101040 + 0x8 * k
def F.HIF_FUNC_CTX_CTX_COUNT (k : Nat) : Field := ⟨R.HIF_FUNC_CTX k, 19, 12⟩
def F.HIF_FUNC_CTX_CTX_BASE (k : Nat) : Field := ⟨R.HIF_FUNC_CTX k, 11, 0⟩

def R.HIF_FUNC_GRANT (k : Nat) : Nat := 0x101044 + 0x8 * k
def F.HIF_FUNC_GRANT_REG_TYPES (k : Nat) : Field := ⟨R.HIF_FUNC_GRANT k, 31, 16⟩
def F.HIF_FUNC_GRANT_GRANTS (k : Nat) : Field := ⟨R.HIF_FUNC_GRANT k, 5, 0⟩

def R.HIF_CTX_FAULT (k : Nat) : Nat := 0x10A040 + 0x4 * k
def F.HIF_CTX_FAULT_CTX (k : Nat) : Field := ⟨R.HIF_CTX_FAULT k, 31, 0⟩

/-! Table 14-11 (14_mailboxes_doorbells.md). -/

def R.MBX_CFG : Nat := 0x110040
def F.MBX_CFG_AREA_EN : Field := ⟨R.MBX_CFG, 0, 0⟩

def R.MBX_AREA_LO : Nat := 0x110044
def F.MBX_AREA_LO_ADDR : Field := ⟨R.MBX_AREA_LO, 31, 15⟩

def R.MBX_AREA_HI : Nat := 0x110048
def F.MBX_AREA_HI_ADDR : Field := ⟨R.MBX_AREA_HI, 15, 0⟩

def R.MBX_RST_RX : Nat := 0x11004C
def F.MBX_RST_RX_STATE : Field := ⟨R.MBX_RST_RX, 1, 0⟩

def R.MBX_SEND_CMD_RST : Nat := 0x110050
def F.MBX_SEND_CMD_RST_SEND : Field := ⟨R.MBX_SEND_CMD_RST, 8, 8⟩
def F.MBX_SEND_CMD_RST_MAILBOX : Field := ⟨R.MBX_SEND_CMD_RST, 7, 0⟩

def R.MBX_SEND_CMD_PF : Nat := 0x110054
def F.MBX_SEND_CMD_PF_SEND : Field := ⟨R.MBX_SEND_CMD_PF, 8, 8⟩
def F.MBX_SEND_CMD_PF_MAILBOX : Field := ⟨R.MBX_SEND_CMD_PF, 7, 0⟩

def R.MBX_SEND_CNT : Nat := 0x110058
def F.MBX_SEND_CNT : Field := ⟨R.MBX_SEND_CNT, 31, 0⟩

def R.MBX_COLLISION_CNT : Nat := 0x11005C
def F.MBX_COLLISION_CNT : Field := ⟨R.MBX_COLLISION_CNT, 31, 0⟩

def R.MBX_REFUSED_CNT : Nat := 0x110060
def F.MBX_REFUSED_CNT : Field := ⟨R.MBX_REFUSED_CNT, 31, 0⟩

def R.MBX_FWD_CNT : Nat := 0x110064
def F.MBX_FWD_CNT : Field := ⟨R.MBX_FWD_CNT, 31, 0⟩

def R.MBX_FWD_LOST_CNT : Nat := 0x110068
def F.MBX_FWD_LOST_CNT : Field := ⟨R.MBX_FWD_LOST_CNT, 31, 0⟩

def R.MBX_PRIV_POST_CNT : Nat := 0x11006C
def F.MBX_PRIV_POST_CNT : Field := ⟨R.MBX_PRIV_POST_CNT, 31, 0⟩

def R.MBX_PRIV_DROP_CNT : Nat := 0x110070
def F.MBX_PRIV_DROP_CNT : Field := ⟨R.MBX_PRIV_DROP_CNT, 31, 0⟩

def R.MBX_PRIV_DISCARD_CNT : Nat := 0x110074
def F.MBX_PRIV_DISCARD_CNT : Field := ⟨R.MBX_PRIV_DISCARD_CNT, 31, 0⟩

def R.MBX_DB_RING_CNT : Nat := 0x110078
def F.MBX_DB_RING_CNT : Field := ⟨R.MBX_DB_RING_CNT, 31, 0⟩

def R.MBX_PRIV_LAST : Nat := 0x11007C
def F.MBX_PRIV_LAST_CODE : Field := ⟨R.MBX_PRIV_LAST, 31, 16⟩
def F.MBX_PRIV_LAST_SLOT : Field := ⟨R.MBX_PRIV_LAST, 14, 12⟩
def F.MBX_PRIV_LAST_CONTEXT : Field := ⟨R.MBX_PRIV_LAST, 11, 0⟩

def R.MBX_SEND_STAGE_RST (k : Nat) : Nat := 0x110080 + 0x4 * k
def F.MBX_SEND_STAGE_RST_BYTES (k : Nat) : Field := ⟨R.MBX_SEND_STAGE_RST k, 31, 0⟩

def R.MBX_SEND_STAGE_PF (k : Nat) : Nat := 0x1100C0 + 0x4 * k
def F.MBX_SEND_STAGE_PF_BYTES (k : Nat) : Field := ⟨R.MBX_SEND_STAGE_PF k, 31, 0⟩

/-! Table 14-12 (14_mailboxes_doorbells.md). -/

def R.MBX_PRIV_POLICY (k : Nat) : Nat := 0x111040 + 0x4 * k
def F.MBX_PRIV_POLICY (k : Nat) : Field := ⟨R.MBX_PRIV_POLICY k, 31, 0⟩

/-! Table 15-20 (15_rootstock.md). -/

def R.RST_STATUS : Nat := 0x130040
def F.RST_STATUS_MODE : Field := ⟨R.RST_STATUS, 27, 26⟩
def F.RST_STATUS_READY : Field := ⟨R.RST_STATUS, 25, 25⟩
def F.RST_STATUS_DEAD : Field := ⟨R.RST_STATUS, 24, 24⟩
def F.RST_STATUS_BOOT_SLOT : Field := ⟨R.RST_STATUS, 23, 23⟩
def F.RST_STATUS_TRIAL : Field := ⟨R.RST_STATUS, 22, 22⟩
def F.RST_STATUS_VERSION_OK : Field := ⟨R.RST_STATUS, 21, 21⟩
def F.RST_STATUS_OVERRIDE : Field := ⟨R.RST_STATUS, 20, 20⟩
def F.RST_STATUS_DEBUG : Field := ⟨R.RST_STATUS, 19, 18⟩

def R.RST_FW_VERSION : Nat := 0x130044
def F.RST_FW_VERSION : Field := ⟨R.RST_FW_VERSION, 31, 0⟩

def R.RST_TILE_UCODE_VERSION : Nat := 0x130048
def F.RST_TILE_UCODE_VERSION : Field := ⟨R.RST_TILE_UCODE_VERSION, 31, 0⟩

def R.RST_BOOT_COUNT : Nat := 0x13004C
def F.RST_BOOT_COUNT : Field := ⟨R.RST_BOOT_COUNT, 31, 0⟩

def R.RST_RESET_CAUSE : Nat := 0x130050
def F.RST_RESET_CAUSE : Field := ⟨R.RST_RESET_CAUSE, 3, 0⟩

def R.RST_VERSION_OVERRIDE : Nat := 0x130054
def F.RST_VERSION_OVERRIDE_KEY : Field := ⟨R.RST_VERSION_OVERRIDE, 31, 16⟩
def F.RST_VERSION_OVERRIDE_SET : Field := ⟨R.RST_VERSION_OVERRIDE, 0, 0⟩

def R.RST_RESET_REQ : Nat := 0x130058
def F.RST_RESET_REQ_KEY : Field := ⟨R.RST_RESET_REQ, 31, 16⟩
def F.RST_RESET_REQ : Field := ⟨R.RST_RESET_REQ, 0, 0⟩

def R.RST_RESET_CNT : Nat := 0x13005C
def F.RST_RESET_CNT : Field := ⟨R.RST_RESET_CNT, 31, 0⟩

def R.RST_UNKNOWN_CNT : Nat := 0x130060
def F.RST_UNKNOWN_CNT : Field := ⟨R.RST_UNKNOWN_CNT, 31, 0⟩

/-! Table 15-21 (15_rootstock.md). -/

def R.RST_UPD_ADDR_LO : Nat := 0x131040
def F.RST_UPD_ADDR_LO_ADDR : Field := ⟨R.RST_UPD_ADDR_LO, 31, 6⟩

def R.RST_UPD_ADDR_HI : Nat := 0x131044
def F.RST_UPD_ADDR_HI_ADDR : Field := ⟨R.RST_UPD_ADDR_HI, 15, 0⟩

def R.RST_UPD_SIZE : Nat := 0x131048
def F.RST_UPD_SIZE : Field := ⟨R.RST_UPD_SIZE, 31, 0⟩

def R.RST_UPD_CMD : Nat := 0x13104C
def F.RST_UPD_CMD_KEY : Field := ⟨R.RST_UPD_CMD, 9, 8⟩
def F.RST_UPD_CMD_OP : Field := ⟨R.RST_UPD_CMD, 2, 0⟩

def R.RST_UPD_STATUS : Nat := 0x131050
def F.RST_UPD_STATUS_BUSY : Field := ⟨R.RST_UPD_STATUS, 31, 31⟩
def F.RST_UPD_STATUS_OP : Field := ⟨R.RST_UPD_STATUS, 2, 0⟩

def R.RST_UPD_RESULT : Nat := 0x131054
def F.RST_UPD_RESULT_CODE : Field := ⟨R.RST_UPD_RESULT, 15, 0⟩

def R.RST_SLOT_A : Nat := 0x131058
def F.RST_SLOT_A_SVN : Field := ⟨R.RST_SLOT_A, 31, 16⟩
def F.RST_SLOT_A_ACTIVE : Field := ⟨R.RST_SLOT_A, 7, 7⟩
def F.RST_SLOT_A_TRIES : Field := ⟨R.RST_SLOT_A, 5, 4⟩
def F.RST_SLOT_A_STATE : Field := ⟨R.RST_SLOT_A, 2, 0⟩

def R.RST_SLOT_B : Nat := 0x13105C
def F.RST_SLOT_B_SVN : Field := ⟨R.RST_SLOT_B, 31, 16⟩
def F.RST_SLOT_B_ACTIVE : Field := ⟨R.RST_SLOT_B, 7, 7⟩
def F.RST_SLOT_B_TRIES : Field := ⟨R.RST_SLOT_B, 5, 4⟩
def F.RST_SLOT_B_STATE : Field := ⟨R.RST_SLOT_B, 2, 0⟩

def R.RST_MIN_SVN : Nat := 0x131070
def F.RST_MIN_SVN : Field := ⟨R.RST_MIN_SVN, 15, 0⟩

def R.RST_KEY_REVOKED : Nat := 0x131074
def F.RST_KEY_REVOKED_KEYS : Field := ⟨R.RST_KEY_REVOKED, 3, 0⟩

/-! Table 15-22 (15_rootstock.md). -/

def R.RST_TS (k : Nat) : Nat := 0x132040 + 0x4 * k
def F.RST_TS_VALID (k : Nat) : Field := ⟨R.RST_TS k, 16, 16⟩
def F.RST_TS_TEMP (k : Nat) : Field := ⟨R.RST_TS k, 15, 0⟩

def R.RST_TEMP_MAX : Nat := 0x1320C0
def F.RST_TEMP_MAX_VALID_CNT : Field := ⟨R.RST_TEMP_MAX, 29, 24⟩
def F.RST_TEMP_MAX_SENSOR : Field := ⟨R.RST_TEMP_MAX, 20, 16⟩
def F.RST_TEMP_MAX_TEMP : Field := ⟨R.RST_TEMP_MAX, 15, 0⟩

def R.RST_VMON (k : Nat) : Nat := 0x1320C4 + 0x4 * k
def F.RST_VMON_MV (k : Nat) : Field := ⟨R.RST_VMON k, 15, 0⟩

def R.RST_CLK_MON : Nat := 0x1320F4
def F.RST_CLK_MON_FAULT : Field := ⟨R.RST_CLK_MON, 2, 0⟩

def R.RST_SHOCK_RAW : Nat := 0x1320F8
def F.RST_SHOCK_RAW_PEAK : Field := ⟨R.RST_SHOCK_RAW, 15, 8⟩
def F.RST_SHOCK_RAW_LEVEL : Field := ⟨R.RST_SHOCK_RAW, 7, 0⟩

def R.RST_COOLANT : Nat := 0x1320FC
def F.RST_COOLANT_VALID : Field := ⟨R.RST_COOLANT, 16, 16⟩
def F.RST_COOLANT_TEMP : Field := ⟨R.RST_COOLANT, 15, 0⟩

def R.RST_SHOCK_CFG : Nat := 0x132100
def F.RST_SHOCK_CFG_LSB_MG : Field := ⟨R.RST_SHOCK_CFG, 23, 16⟩
def F.RST_SHOCK_CFG_DATA_REG : Field := ⟨R.RST_SHOCK_CFG, 15, 8⟩
def F.RST_SHOCK_CFG_I2C : Field := ⟨R.RST_SHOCK_CFG, 7, 7⟩
def F.RST_SHOCK_CFG_STATIC_ADDR : Field := ⟨R.RST_SHOCK_CFG, 6, 0⟩

def R.RST_COOL_CFG : Nat := 0x132104
def F.RST_COOL_CFG_DATA_REG : Field := ⟨R.RST_COOL_CFG, 15, 8⟩
def F.RST_COOL_CFG_I2C : Field := ⟨R.RST_COOL_CFG, 7, 7⟩
def F.RST_COOL_CFG_STATIC_ADDR : Field := ⟨R.RST_COOL_CFG, 6, 0⟩

/-! Table 15-23 (15_rootstock.md). -/

def R.RST_LOG_CFG : Nat := 0x133040
def F.RST_LOG_CFG_COALESCE_MS : Field := ⟨R.RST_LOG_CFG, 15, 8⟩
def F.RST_LOG_CFG_BB_LEVEL : Field := ⟨R.RST_LOG_CFG, 1, 0⟩

def R.RST_LOG_SEL : Nat := 0x133044
def F.RST_LOG_SEL_SRC : Field := ⟨R.RST_LOG_SEL, 0, 0⟩

def R.RST_LOG_INDEX : Nat := 0x133048
def F.RST_LOG_INDEX : Field := ⟨R.RST_LOG_INDEX, 31, 0⟩

def R.RST_LOG_CMD : Nat := 0x13304C
def F.RST_LOG_CMD_FETCH : Field := ⟨R.RST_LOG_CMD, 0, 0⟩

def R.RST_LOG_STATUS : Nat := 0x133050
def F.RST_LOG_STATUS_BUSY : Field := ⟨R.RST_LOG_STATUS, 31, 31⟩
def F.RST_LOG_STATUS_RESULT : Field := ⟨R.RST_LOG_STATUS, 1, 0⟩

def R.RST_LOG_ENTRY (k : Nat) : Nat := 0x133054 + 0x4 * k
def F.RST_LOG_ENTRY_BYTES (k : Nat) : Field := ⟨R.RST_LOG_ENTRY k, 31, 0⟩

def R.RST_LOG_NEWEST_SEQ : Nat := 0x133074
def F.RST_LOG_NEWEST_SEQ : Field := ⟨R.RST_LOG_NEWEST_SEQ, 31, 0⟩

def R.RST_LOG_OLDEST_SEQ : Nat := 0x133078
def F.RST_LOG_OLDEST_SEQ : Field := ⟨R.RST_LOG_OLDEST_SEQ, 31, 0⟩

def R.RST_BB_NEWEST : Nat := 0x13307C
def F.RST_BB_NEWEST_SLOT : Field := ⟨R.RST_BB_NEWEST, 12, 0⟩

def R.RST_BB_PASS_CNT : Nat := 0x133080
def F.RST_BB_PASS_CNT : Field := ⟨R.RST_BB_PASS_CNT, 31, 0⟩

def R.RST_RING_LOST_CNT : Nat := 0x133084
def F.RST_RING_LOST_CNT : Field := ⟨R.RST_RING_LOST_CNT, 31, 0⟩

def R.RST_BB_SKIP_CNT : Nat := 0x133088
def F.RST_BB_SKIP_CNT : Field := ⟨R.RST_BB_SKIP_CNT, 31, 0⟩

def R.RST_BB_FAIL_CNT : Nat := 0x13308C
def F.RST_BB_FAIL_CNT : Field := ⟨R.RST_BB_FAIL_CNT, 31, 0⟩

/-! Table 15-24 (15_rootstock.md). -/

def R.RST_DBG_STATUS : Nat := 0x134040
def F.RST_DBG_STATUS_LEASE_S : Field := ⟨R.RST_DBG_STATUS, 31, 16⟩
def F.RST_DBG_STATUS_HALT_REFUSED : Field := ⟨R.RST_DBG_STATUS, 9, 9⟩
def F.RST_DBG_STATUS_LOCKOUT : Field := ⟨R.RST_DBG_STATUS, 8, 8⟩
def F.RST_DBG_STATUS_KEY_SLOT : Field := ⟨R.RST_DBG_STATUS, 5, 4⟩
def F.RST_DBG_STATUS_LEVEL : Field := ⟨R.RST_DBG_STATUS, 1, 0⟩

def R.RST_DBG_FAIL_CNT : Nat := 0x134044
def F.RST_DBG_FAIL_CNT : Field := ⟨R.RST_DBG_FAIL_CNT, 31, 0⟩

def R.RST_DBG_OPEN_CNT : Nat := 0x134048
def F.RST_DBG_OPEN_CNT : Field := ⟨R.RST_DBG_OPEN_CNT, 31, 0⟩

def R.RST_DBG_CFG : Nat := 0x13404C
def F.RST_DBG_CFG_MAX_LEVEL : Field := ⟨R.RST_DBG_CFG, 2, 1⟩
def F.RST_DBG_CFG_ALLOW : Field := ⟨R.RST_DBG_CFG, 0, 0⟩

/-! Table 16-8 (16_persistent_registers.md). -/

def R.PSV_POWER_ON_CNT : Nat := 0x211040
def F.PSV_POWER_ON_CNT : Field := ⟨R.PSV_POWER_ON_CNT, 31, 0⟩

def R.PSV_SAFE_CNT : Nat := 0x211044
def F.PSV_SAFE_CNT : Field := ⟨R.PSV_SAFE_CNT, 31, 0⟩

def R.PSV_RUN_S : Nat := 0x211048
def F.PSV_RUN_S : Field := ⟨R.PSV_RUN_S, 31, 0⟩

def R.PSV_TRIM_S : Nat := 0x21104C
def F.PSV_TRIM_S : Field := ⟨R.PSV_TRIM_S, 31, 0⟩

def R.PSV_SENTRY_S : Nat := 0x211050
def F.PSV_SENTRY_S : Field := ⟨R.PSV_SENTRY_S, 31, 0⟩

def R.PSV_PARKED_S : Nat := 0x211054
def F.PSV_PARKED_S : Field := ⟨R.PSV_PARKED_S, 31, 0⟩

def R.PSV_WARN_S : Nat := 0x211058
def F.PSV_WARN_S : Field := ⟨R.PSV_WARN_S, 31, 0⟩

def R.PSV_THROT_S : Nat := 0x21105C
def F.PSV_THROT_S : Field := ⟨R.PSV_THROT_S, 31, 0⟩

def R.PSV_CRIT_S : Nat := 0x211060
def F.PSV_CRIT_S : Field := ⟨R.PSV_CRIT_S, 31, 0⟩

def R.PSV_TRIP_CNT : Nat := 0x211064
def F.PSV_TRIP_CNT : Field := ⟨R.PSV_TRIP_CNT, 31, 0⟩

def R.PSV_TJ_MAX : Nat := 0x211068
def F.PSV_TJ_MAX_TEMP : Field := ⟨R.PSV_TJ_MAX, 15, 0⟩

def R.PSV_COOLANT_MAX : Nat := 0x21106C
def F.PSV_COOLANT_MAX_TEMP : Field := ⟨R.PSV_COOLANT_MAX, 15, 0⟩

/-! Table 16-9 (16_persistent_registers.md). -/

def R.PSV_USER (n : Nat) (k : Nat) : Nat := 0x220040 + 0x1000 * n + 0x4 * k
def F.PSV_USER_DATA (n : Nat) (k : Nat) : Field := ⟨R.PSV_USER n k, 31, 0⟩

/-! Table 16-10 (16_persistent_registers.md). -/

def R.PSV_STATUS : Nat := 0x210040
def F.PSV_STATUS_INTERRUPTED_CNT : Field := ⟨R.PSV_STATUS, 23, 16⟩
def F.PSV_STATUS_CORRUPT_CNT : Field := ⟨R.PSV_STATUS, 15, 8⟩
def F.PSV_STATUS_RESTORED : Field := ⟨R.PSV_STATUS, 7, 7⟩
def F.PSV_STATUS_INHIBIT : Field := ⟨R.PSV_STATUS, 6, 6⟩
def F.PSV_STATUS_QUEUED : Field := ⟨R.PSV_STATUS, 4, 0⟩

def R.PSV_WEAR_WARN : Nat := 0x210044
def F.PSV_WEAR_WARN_LEVEL : Field := ⟨R.PSV_WEAR_WARN, 17, 0⟩

def R.PSV_WEAR_SEL : Nat := 0x210048
def F.PSV_WEAR_SEL_REGION : Field := ⟨R.PSV_WEAR_SEL, 31, 31⟩
def F.PSV_WEAR_SEL_PAGE : Field := ⟨R.PSV_WEAR_SEL, 25, 16⟩
def F.PSV_WEAR_SEL_WORD : Field := ⟨R.PSV_WEAR_SEL, 10, 0⟩

def R.PSV_WEAR_DATA : Nat := 0x21004C
def F.PSV_WEAR_DATA_CLASS : Field := ⟨R.PSV_WEAR_DATA, 31, 28⟩
def F.PSV_WEAR_DATA_SLOT : Field := ⟨R.PSV_WEAR_DATA, 25, 25⟩
def F.PSV_WEAR_DATA_WEAR : Field := ⟨R.PSV_WEAR_DATA, 23, 0⟩

def R.PSV_WARN_CNT : Nat := 0x210050
def F.PSV_WARN_CNT_WORDS : Field := ⟨R.PSV_WARN_CNT, 31, 0⟩

def R.PSV_EXHAUSTED_CNT : Nat := 0x210054
def F.PSV_EXHAUSTED_CNT_WORDS : Field := ⟨R.PSV_EXHAUSTED_CNT, 31, 0⟩

def R.PSV_MAX_WEAR : Nat := 0x210058
def F.PSV_MAX_WEAR : Field := ⟨R.PSV_MAX_WEAR, 23, 0⟩

def R.PSV_MAX_WHERE : Nat := 0x21005C
def F.PSV_MAX_WHERE_REGION : Field := ⟨R.PSV_MAX_WHERE, 31, 31⟩
def F.PSV_MAX_WHERE_PAGE : Field := ⟨R.PSV_MAX_WHERE, 25, 16⟩
def F.PSV_MAX_WHERE_WORD : Field := ⟨R.PSV_MAX_WHERE, 10, 0⟩

def R.PSV_INTERRUPT_LAST : Nat := 0x210060
def F.PSV_INTERRUPT_LAST_INFO : Field := ⟨R.PSV_INTERRUPT_LAST, 31, 0⟩

def R.PSV_COMMIT_CNT : Nat := 0x210064
def F.PSV_COMMIT_CNT : Field := ⟨R.PSV_COMMIT_CNT, 31, 0⟩

def R.PSV_ELIDED_CNT : Nat := 0x210068
def F.PSV_ELIDED_CNT : Field := ⟨R.PSV_ELIDED_CNT, 31, 0⟩

def R.PSV_BUSY_CNT : Nat := 0x21006C
def F.PSV_BUSY_CNT : Field := ⟨R.PSV_BUSY_CNT, 31, 0⟩

def R.PSV_INHIBIT_CNT : Nat := 0x210070
def F.PSV_INHIBIT_CNT : Field := ⟨R.PSV_INHIBIT_CNT, 31, 0⟩

def R.PSV_PROGRAM_FAIL_CNT : Nat := 0x210074
def F.PSV_PROGRAM_FAIL_CNT : Field := ⟨R.PSV_PROGRAM_FAIL_CNT, 31, 0⟩

/-! Table 17-8 (17_power_thermal.md). -/

def R.PWR_STATE : Nat := 0x150040
def F.PWR_STATE_RETURN : Field := ⟨R.PWR_STATE, 9, 8⟩
def F.PWR_STATE : Field := ⟨R.PWR_STATE, 1, 0⟩

def R.PWR_REQ : Nat := 0x150044
def F.PWR_REQ_TARGET : Field := ⟨R.PWR_REQ, 1, 0⟩

def R.PWR_TRIM_CFG : Nat := 0x150048
def F.PWR_TRIM_CFG_TRIM_CORE_MHZ : Field := ⟨R.PWR_TRIM_CFG, 10, 0⟩

def R.PWR_CORE_LIMIT : Nat := 0x15004C
def F.PWR_CORE_LIMIT_REASON : Field := ⟨R.PWR_CORE_LIMIT, 16, 11⟩
def F.PWR_CORE_LIMIT_CEIL_MHZ : Field := ⟨R.PWR_CORE_LIMIT, 10, 0⟩

def R.PWR_THERM_STATUS : Nat := 0x150050
def F.PWR_THERM_STATUS_TEMP : Field := ⟨R.PWR_THERM_STATUS, 31, 16⟩
def F.PWR_THERM_STATUS_DWELL_MS : Field := ⟨R.PWR_THERM_STATUS, 15, 8⟩
def F.PWR_THERM_STATUS_CAP : Field := ⟨R.PWR_THERM_STATUS, 7, 6⟩
def F.PWR_THERM_STATUS_COOL_BAND : Field := ⟨R.PWR_THERM_STATUS, 5, 3⟩
def F.PWR_THERM_STATUS_THERM_STATE : Field := ⟨R.PWR_THERM_STATUS, 1, 0⟩

def R.PWR_WAKE_CFG : Nat := 0x150054
def F.PWR_WAKE_CFG_HOST_WAKE_EN : Field := ⟨R.PWR_WAKE_CFG, 17, 17⟩
def F.PWR_WAKE_CFG_WAKE_IN_EN : Field := ⟨R.PWR_WAKE_CFG, 16, 16⟩
def F.PWR_WAKE_CFG_TIMER_S : Field := ⟨R.PWR_WAKE_CFG, 15, 0⟩

def R.PWR_WAKE_CAUSE : Nat := 0x150058
def F.PWR_WAKE_CAUSE : Field := ⟨R.PWR_WAKE_CAUSE, 2, 0⟩

def R.PWR_WAKE_INFO : Nat := 0x15005C
def F.PWR_WAKE_INFO_VERDICT : Field := ⟨R.PWR_WAKE_INFO, 31, 0⟩

def R.PWR_SENTRY_CFG : Nat := 0x150060
def F.PWR_SENTRY_CFG_PERIOD_MS : Field := ⟨R.PWR_SENTRY_CFG, 31, 16⟩
def F.PWR_SENTRY_CFG_POLARITY : Field := ⟨R.PWR_SENTRY_CFG, 12, 12⟩
def F.PWR_SENTRY_CFG_LANE : Field := ⟨R.PWR_SENTRY_CFG, 10, 8⟩
def F.PWR_SENTRY_CFG_TILE : Field := ⟨R.PWR_SENTRY_CFG, 5, 0⟩

def R.PWR_SENTRY_WIN : Nat := 0x150064
def F.PWR_SENTRY_WIN_MAX_POINTS : Field := ⟨R.PWR_SENTRY_WIN, 31, 16⟩
def F.PWR_SENTRY_WIN_PROG_LIMIT_MS : Field := ⟨R.PWR_SENTRY_WIN, 15, 8⟩
def F.PWR_SENTRY_WIN_LISTEN_MS : Field := ⟨R.PWR_SENTRY_WIN, 7, 0⟩

def R.PWR_SENTRY_BUF : Nat := 0x150068
def F.PWR_SENTRY_BUF_OFFSET : Field := ⟨R.PWR_SENTRY_BUF, 20, 0⟩

def R.PWR_SENTRY_PROG : Nat := 0x15006C
def F.PWR_SENTRY_PROG_OFFSET : Field := ⟨R.PWR_SENTRY_PROG, 20, 0⟩

def R.PWR_TRANSITION_CNT : Nat := 0x150070
def F.PWR_TRANSITION_CNT : Field := ⟨R.PWR_TRANSITION_CNT, 31, 0⟩

def R.PWR_SENTRY_WIN_CNT : Nat := 0x150074
def F.PWR_SENTRY_WIN_CNT : Field := ⟨R.PWR_SENTRY_WIN_CNT, 31, 0⟩

def R.PWR_SENTRY_SKIP_CNT : Nat := 0x150078
def F.PWR_SENTRY_SKIP_CNT : Field := ⟨R.PWR_SENTRY_SKIP_CNT, 31, 0⟩

def R.PWR_SENTRY_OVERRUN_CNT : Nat := 0x15007C
def F.PWR_SENTRY_OVERRUN_CNT : Field := ⟨R.PWR_SENTRY_OVERRUN_CNT, 31, 0⟩

/-! Table 17-9 (17_power_thermal.md). -/

def R.PWR_THERM_CFG_A : Nat := 0x151040
def F.PWR_THERM_CFG_A_WARN_CAP : Field := ⟨R.PWR_THERM_CFG_A, 17, 16⟩
def F.PWR_THERM_CFG_A_WARN_MHZ : Field := ⟨R.PWR_THERM_CFG_A, 10, 0⟩

def R.PWR_THERM_CFG_B : Nat := 0x151044
def F.PWR_THERM_CFG_B_THROT_CAP : Field := ⟨R.PWR_THERM_CFG_B, 17, 16⟩
def F.PWR_THERM_CFG_B_THROT_MHZ : Field := ⟨R.PWR_THERM_CFG_B, 10, 0⟩

def R.PWR_THERM_CFG_C : Nat := 0x151048
def F.PWR_THERM_CFG_C_CRIT_MHZ : Field := ⟨R.PWR_THERM_CFG_C, 10, 0⟩

def R.PWR_THERM_CAP : Nat := 0x15104C
def F.PWR_THERM_CAP : Field := ⟨R.PWR_THERM_CAP, 1, 0⟩

def R.PWR_THERM_CHANGE_CNT : Nat := 0x151050
def F.PWR_THERM_CHANGE_CNT : Field := ⟨R.PWR_THERM_CHANGE_CNT, 31, 0⟩

def R.PWR_THERM_UNLOGGED_CNT : Nat := 0x151054
def F.PWR_THERM_UNLOGGED_CNT : Field := ⟨R.PWR_THERM_UNLOGGED_CNT, 31, 0⟩

def R.PWR_COOL_CHANGE_CNT : Nat := 0x151058
def F.PWR_COOL_CHANGE_CNT : Field := ⟨R.PWR_COOL_CHANGE_CNT, 31, 0⟩

/-! Table 17-10 (17_power_thermal.md). -/

def R.PWR_VREQ : Nat := 0x152040
def F.PWR_VREQ_VREQ_NEXT_MV : Field := ⟨R.PWR_VREQ, 31, 16⟩
def F.PWR_VREQ_VREQ_MV : Field := ⟨R.PWR_VREQ, 15, 0⟩

def R.PWR_CORE_MAX : Nat := 0x152044
def F.PWR_CORE_MAX_CORE_MAX_MHZ : Field := ⟨R.PWR_CORE_MAX, 10, 0⟩

def R.PWR_AGE_STATUS : Nat := 0x152048
def F.PWR_AGE_STATUS_AGE_OFFSET_MV : Field := ⟨R.PWR_AGE_STATUS, 23, 16⟩
def F.PWR_AGE_STATUS_AGE_SLACK_PS : Field := ⟨R.PWR_AGE_STATUS, 15, 0⟩

/-! Table 17-11 (17_power_thermal.md). -/

def R.PSV_VF_A : Nat := 0x212040
def F.PSV_VF_A_VF_1 : Field := ⟨R.PSV_VF_A, 31, 16⟩
def F.PSV_VF_A_VF_0 : Field := ⟨R.PSV_VF_A, 15, 0⟩

def R.PSV_VF_B : Nat := 0x212044
def F.PSV_VF_B_VF_3 : Field := ⟨R.PSV_VF_B, 31, 16⟩
def F.PSV_VF_B_VF_2 : Field := ⟨R.PSV_VF_B, 15, 0⟩

def R.PSV_VF_C : Nat := 0x212048
def F.PSV_VF_C_VF_4 : Field := ⟨R.PSV_VF_C, 15, 0⟩

/-! Table 17-12 (17_power_thermal.md). -/

def R.PSV_AGE_A : Nat := 0x213040
def F.PSV_AGE_A_AGE_OFFSET_MV : Field := ⟨R.PSV_AGE_A, 7, 0⟩

def R.PSV_AGE_B : Nat := 0x213044
def F.PSV_AGE_B_RAISED_RUN_S : Field := ⟨R.PSV_AGE_B, 31, 0⟩

/-! Table 18-8 (18_safety_faults.md). -/

def R.SAF_STATUS : Nat := 0x160040
def F.SAF_STATUS_DEGRADE : Field := ⟨R.SAF_STATUS, 10, 8⟩
def F.SAF_STATUS_ERROR_PIN : Field := ⟨R.SAF_STATUS, 5, 5⟩
def F.SAF_STATUS_SAFE_PIN : Field := ⟨R.SAF_STATUS, 4, 4⟩
def F.SAF_STATUS_INTEGRITY : Field := ⟨R.SAF_STATUS, 1, 0⟩

def R.SAF_ACTIVE : Nat := 0x160044
def F.SAF_ACTIVE_CAUSES : Field := ⟨R.SAF_ACTIVE, 27, 0⟩

def R.SAF_ESC_LIVE : Nat := 0x160048
def F.SAF_ESC_LIVE_ESCALATE : Field := ⟨R.SAF_ESC_LIVE, 27, 0⟩

def R.SAF_FIRST : Nat := 0x16004C
def F.SAF_FIRST_CAUSE : Field := ⟨R.SAF_FIRST, 20, 16⟩
def F.SAF_FIRST_CODE : Field := ⟨R.SAF_FIRST, 15, 0⟩

def R.SAF_REQ : Nat := 0x160058
def F.SAF_REQ_KEY : Field := ⟨R.SAF_REQ, 31, 16⟩
def F.SAF_REQ_ENTER : Field := ⟨R.SAF_REQ, 1, 1⟩
def F.SAF_REQ_RELEASE : Field := ⟨R.SAF_REQ, 0, 0⟩

def R.SAF_REQ_RESULT : Nat := 0x16005C
def F.SAF_REQ_RESULT_PENDING : Field := ⟨R.SAF_REQ_RESULT, 31, 31⟩
def F.SAF_REQ_RESULT_CODE : Field := ⟨R.SAF_REQ_RESULT, 15, 0⟩

def R.SAF_SAFE_ENTRY_CNT : Nat := 0x160060
def F.SAF_SAFE_ENTRY_CNT : Field := ⟨R.SAF_SAFE_ENTRY_CNT, 31, 0⟩

def R.SAF_WD_FIRE_CNT : Nat := 0x160064
def F.SAF_WD_FIRE_CNT : Field := ⟨R.SAF_WD_FIRE_CNT, 31, 0⟩

def R.SAF_E2E_CHECK_CNT : Nat := 0x160068
def F.SAF_E2E_CHECK_CNT : Field := ⟨R.SAF_E2E_CHECK_CNT, 31, 0⟩

def R.SAF_E2E_SKIP_CNT : Nat := 0x16006C
def F.SAF_E2E_SKIP_CNT : Field := ⟨R.SAF_E2E_SKIP_CNT, 31, 0⟩

def R.SAF_REDUND_MISMATCH_CNT : Nat := 0x160070
def F.SAF_REDUND_MISMATCH_CNT : Field := ⟨R.SAF_REDUND_MISMATCH_CNT, 31, 0⟩

def R.SAF_REDUND_SINGLE_CNT : Nat := 0x160074
def F.SAF_REDUND_SINGLE_CNT : Field := ⟨R.SAF_REDUND_SINGLE_CNT, 31, 0⟩

def R.SAF_E2E_FRAME : Nat := 0x160078
def F.SAF_E2E_FRAME : Field := ⟨R.SAF_E2E_FRAME, 31, 0⟩

/-! Table 18-9 (18_safety_faults.md). -/

def R.SAF_WD_STATUS : Nat := 0x161040
def F.SAF_WD_STATUS_ARMED : Field := ⟨R.SAF_WD_STATUS, 8, 8⟩
def F.SAF_WD_STATUS_TICKS : Field := ⟨R.SAF_WD_STATUS, 3, 0⟩

def R.SAF_REDUND_STATUS : Nat := 0x161044
def F.SAF_REDUND_STATUS_PAIRS : Field := ⟨R.SAF_REDUND_STATUS, 7, 0⟩

def R.SAF_INJ_CTL : Nat := 0x162040
def F.SAF_INJ_CTL_ARM : Field := ⟨R.SAF_INJ_CTL, 16, 16⟩
def F.SAF_INJ_CTL_INSTANCE : Field := ⟨R.SAF_INJ_CTL, 13, 8⟩
def F.SAF_INJ_CTL_TARGET : Field := ⟨R.SAF_INJ_CTL, 7, 0⟩

def R.SAF_INJ_DATA : Nat := 0x162044
def F.SAF_INJ_DATA : Field := ⟨R.SAF_INJ_DATA, 15, 0⟩

def R.SAF_INJ_CNT : Nat := 0x162048
def F.SAF_INJ_CNT : Field := ⟨R.SAF_INJ_CNT, 31, 0⟩

/-! Table 18-10 (18_safety_faults.md). -/

def R.PSV_SAF_ESCALATE : Nat := 0x218040
def F.PSV_SAF_ESCALATE_RAISE : Field := ⟨R.PSV_SAF_ESCALATE, 27, 11⟩

def R.PSV_SAF_WD : Nat := 0x218044
def F.PSV_SAF_WD_WD_SLACK_US : Field := ⟨R.PSV_SAF_WD, 31, 16⟩
def F.PSV_SAF_WD_WD_TICKS : Field := ⟨R.PSV_SAF_WD, 11, 8⟩
def F.PSV_SAF_WD_E2E_EN : Field := ⟨R.PSV_SAF_WD, 1, 1⟩
def F.PSV_SAF_WD_INJ_ALLOW : Field := ⟨R.PSV_SAF_WD, 0, 0⟩

def R.PSV_SAF_REDUND : Nat := 0x218048
def F.PSV_SAF_REDUND_PAIRS : Field := ⟨R.PSV_SAF_REDUND, 7, 0⟩

/-! Table 19-5 (19_startup_reset.md). -/

def R.GLB_BOOT_STATUS : Nat := 0x5C
def F.GLB_BOOT_STATUS_FAIL_STEP : Field := ⟨R.GLB_BOOT_STATUS, 19, 16⟩
def F.GLB_BOOT_STATUS_LAST_RESET : Field := ⟨R.GLB_BOOT_STATUS, 11, 10⟩
def F.GLB_BOOT_STATUS_CHECKS_DONE : Field := ⟨R.GLB_BOOT_STATUS, 8, 8⟩
def F.GLB_BOOT_STATUS_MEM_READY : Field := ⟨R.GLB_BOOT_STATUS, 7, 7⟩
def F.GLB_BOOT_STATUS_TILES_TESTED : Field := ⟨R.GLB_BOOT_STATUS, 6, 6⟩
def F.GLB_BOOT_STATUS_FW_READY : Field := ⟨R.GLB_BOOT_STATUS, 5, 5⟩
def F.GLB_BOOT_STATUS_HOST_READY : Field := ⟨R.GLB_BOOT_STATUS, 4, 4⟩
def F.GLB_BOOT_STATUS_SLOT_CHOSEN : Field := ⟨R.GLB_BOOT_STATUS, 3, 3⟩
def F.GLB_BOOT_STATUS_RESTORED : Field := ⟨R.GLB_BOOT_STATUS, 2, 2⟩
def F.GLB_BOOT_STATUS_FUSE_OK : Field := ⟨R.GLB_BOOT_STATUS, 1, 1⟩
def F.GLB_BOOT_STATUS_AON_UP : Field := ⟨R.GLB_BOOT_STATUS, 0, 0⟩

/-! Table 19-6 (19_startup_reset.md). -/

def R.GLB_BOOT_MS : Nat := 0x60
def F.GLB_BOOT_MS : Field := ⟨R.GLB_BOOT_MS, 31, 0⟩

/-! Table 19-7 (19_startup_reset.md). -/

def R.GLB_RESET_CTL : Nat := 0x64
def F.GLB_RESET_CTL_KEY : Field := ⟨R.GLB_RESET_CTL, 31, 16⟩
def F.GLB_RESET_CTL_DEVICE : Field := ⟨R.GLB_RESET_CTL, 0, 0⟩

/-! Table 20-7 (20_mode_combinations.md). -/

def R.GLB_GPIO_FUNC_A : Nat := 0x2040
def F.GLB_GPIO_FUNC_A_FUNC : Field := ⟨R.GLB_GPIO_FUNC_A, 31, 0⟩

def R.GLB_GPIO_FUNC_B : Nat := 0x2044
def F.GLB_GPIO_FUNC_B_FUNC : Field := ⟨R.GLB_GPIO_FUNC_B, 31, 0⟩

def R.GLB_GPIO_OE : Nat := 0x2048
def F.GLB_GPIO_OE : Field := ⟨R.GLB_GPIO_OE, 15, 0⟩

def R.GLB_GPIO_OUT : Nat := 0x204C
def F.GLB_GPIO_OUT : Field := ⟨R.GLB_GPIO_OUT, 15, 0⟩

def R.GLB_GPIO_IN : Nat := 0x2050
def F.GLB_GPIO_IN : Field := ⟨R.GLB_GPIO_IN, 15, 0⟩

def R.GLB_GPIO_SAF : Nat := 0x2054
def F.GLB_GPIO_SAF_HELD : Field := ⟨R.GLB_GPIO_SAF, 15, 0⟩

def R.GLB_MODE_SNAPSHOT_A : Nat := 0x2058
def F.GLB_MODE_SNAPSHOT_A_X : Field := ⟨R.GLB_MODE_SNAPSHOT_A, 20, 19⟩
def F.GLB_MODE_SNAPSHOT_A_G : Field := ⟨R.GLB_MODE_SNAPSHOT_A, 18, 17⟩
def F.GLB_MODE_SNAPSHOT_A_I : Field := ⟨R.GLB_MODE_SNAPSHOT_A, 16, 16⟩
def F.GLB_MODE_SNAPSHOT_A_K : Field := ⟨R.GLB_MODE_SNAPSHOT_A, 15, 14⟩
def F.GLB_MODE_SNAPSHOT_A_V : Field := ⟨R.GLB_MODE_SNAPSHOT_A, 13, 12⟩
def F.GLB_MODE_SNAPSHOT_A_S : Field := ⟨R.GLB_MODE_SNAPSHOT_A, 11, 11⟩
def F.GLB_MODE_SNAPSHOT_A_C : Field := ⟨R.GLB_MODE_SNAPSHOT_A, 10, 8⟩
def F.GLB_MODE_SNAPSHOT_A_H : Field := ⟨R.GLB_MODE_SNAPSHOT_A, 7, 6⟩
def F.GLB_MODE_SNAPSHOT_A_T : Field := ⟨R.GLB_MODE_SNAPSHOT_A, 5, 4⟩
def F.GLB_MODE_SNAPSHOT_A_F : Field := ⟨R.GLB_MODE_SNAPSHOT_A, 3, 2⟩
def F.GLB_MODE_SNAPSHOT_A_P : Field := ⟨R.GLB_MODE_SNAPSHOT_A, 1, 0⟩

def R.GLB_MODE_SNAPSHOT_B : Nat := 0x205C
def F.GLB_MODE_SNAPSHOT_B_PAIRS : Field := ⟨R.GLB_MODE_SNAPSHOT_B, 31, 24⟩
def F.GLB_MODE_SNAPSHOT_B_LANES : Field := ⟨R.GLB_MODE_SNAPSHOT_B, 23, 0⟩

/-! Table 20-8 (20_mode_combinations.md). -/

def R.PSV_GPIO_SAFE : Nat := 0x218050
def F.PSV_GPIO_SAFE_SAFE_VAL : Field := ⟨R.PSV_GPIO_SAFE, 31, 16⟩
def F.PSV_GPIO_SAFE_SAFE_EN : Field := ⟨R.PSV_GPIO_SAFE, 15, 0⟩

/-! Table 4-14 (04_sensor_link_channel.md). -/

def R.SLK_FIR_LIVE (n : Nat) (k : Nat) : Nat := 0x21064 + 0x4000 * n + 0x4 * k
def F.SLK_FIR_LIVE_TAPS (n : Nat) (k : Nat) : Field := ⟨R.SLK_FIR_LIVE n k, 31, 0⟩

/-! Table 5-14 (05_sensor_link_sectors.md). -/

def R.SLK_INDEX_TS_LO (n : Nat) : Nat := 0x20084 + 0x4000 * n
def F.SLK_INDEX_TS_LO_TS (n : Nat) : Field := ⟨R.SLK_INDEX_TS_LO n, 31, 0⟩

def R.SLK_INDEX_TS_HI (n : Nat) : Nat := 0x20088 + 0x4000 * n
def F.SLK_INDEX_TS_HI_TS (n : Nat) : Field := ⟨R.SLK_INDEX_TS_HI n, 31, 0⟩

/-! Table 12-11 (12_graft_link.md). -/

def R.GRF_DIR_X : Nat := 0xF1048
def F.GRF_DIR_X_DIR : Field := ⟨R.GRF_DIR_X, 31, 0⟩

def R.GRF_DIR_Y : Nat := 0xF104C
def F.GRF_DIR_Y_DIR : Field := ⟨R.GRF_DIR_Y, 31, 0⟩

def R.GRF_DIR_Z : Nat := 0xF1050
def F.GRF_DIR_Z_DIR : Field := ⟨R.GRF_DIR_Z, 31, 0⟩

/-! Table 13-11 (13_host_contexts_status.md). -/

def R.HIF_WIN_LO (n : Nat) (k : Nat) : Nat := 0x102100 + 0x1000 * n + 0x10 * k
def F.HIF_WIN_LO_BASE (n : Nat) (k : Nat) : Field := ⟨R.HIF_WIN_LO n k, 31, 12⟩
def F.HIF_WIN_LO_WRITE (n : Nat) (k : Nat) : Field := ⟨R.HIF_WIN_LO n k, 2, 2⟩
def F.HIF_WIN_LO_READ (n : Nat) (k : Nat) : Field := ⟨R.HIF_WIN_LO n k, 1, 1⟩
def F.HIF_WIN_LO_ENABLE (n : Nat) (k : Nat) : Field := ⟨R.HIF_WIN_LO n k, 0, 0⟩

def R.HIF_WIN_HI (n : Nat) (k : Nat) : Nat := 0x102104 + 0x1000 * n + 0x10 * k
def F.HIF_WIN_HI_BASE (n : Nat) (k : Nat) : Field := ⟨R.HIF_WIN_HI n k, 15, 0⟩

def R.HIF_WIN_SIZE (n : Nat) (k : Nat) : Nat := 0x102108 + 0x1000 * n + 0x10 * k
def F.HIF_WIN_SIZE_PAGES (n : Nat) (k : Nat) : Field := ⟨R.HIF_WIN_SIZE n k, 31, 0⟩

def R.HIF_MSIX (k : Nat) : Nat := 0x10B800 + 0x4 * k
def F.HIF_MSIX_ENTRY (k : Nat) : Field := ⟨R.HIF_MSIX k, 31, 0⟩

def R.HIF_MSIX_PBA : Nat := 0x10BA00
def F.HIF_MSIX_PBA_PENDING : Field := ⟨R.HIF_MSIX_PBA, 31, 0⟩

/-! Table 15-21 (15_rootstock.md). -/

def R.RST_SLOT_A_RST_FW : Nat := 0x131060
def F.RST_SLOT_A_RST_FW_VERSION : Field := ⟨R.RST_SLOT_A_RST_FW, 31, 0⟩

def R.RST_SLOT_A_UCODE : Nat := 0x131064
def F.RST_SLOT_A_UCODE_VERSION : Field := ⟨R.RST_SLOT_A_UCODE, 31, 0⟩

def R.RST_SLOT_B_RST_FW : Nat := 0x131068
def F.RST_SLOT_B_RST_FW_VERSION : Field := ⟨R.RST_SLOT_B_RST_FW, 31, 0⟩

def R.RST_SLOT_B_UCODE : Nat := 0x13106C
def F.RST_SLOT_B_UCODE_VERSION : Field := ⟨R.RST_SLOT_B_UCODE, 31, 0⟩

/-! Table 15-22 (15_rootstock.md). -/

def R.RST_I3C_ERR_CNT_0 : Nat := 0x132108
def F.RST_I3C_ERR_CNT_0 : Field := ⟨R.RST_I3C_ERR_CNT_0, 31, 0⟩

def R.RST_I3C_ERR_CNT_1 : Nat := 0x13210C
def F.RST_I3C_ERR_CNT_1 : Field := ⟨R.RST_I3C_ERR_CNT_1, 31, 0⟩

/-! Table 18-8 (18_safety_faults.md). -/

def R.SAF_FIRST_TS_LO : Nat := 0x160050
def F.SAF_FIRST_TS_LO_TS : Field := ⟨R.SAF_FIRST_TS_LO, 31, 0⟩

def R.SAF_FIRST_TS_HI : Nat := 0x160054
def F.SAF_FIRST_TS_HI_TS : Field := ⟨R.SAF_FIRST_TS_HI, 31, 0⟩

/-! Table 13-12 (13_host_contexts_status.md). -/

def R.CTX_INFO (n : Nat) : Nat := 0x1000000 + 0x1000 * n
def F.CTX_INFO_OWNER (n : Nat) : Field := ⟨R.CTX_INFO n, 21, 16⟩
def F.CTX_INFO_CONTEXT (n : Nat) : Field := ⟨R.CTX_INFO n, 11, 0⟩

def R.CTX_STATUS (n : Nat) : Nat := 0x1000004 + 0x1000 * n
def F.CTX_STATUS_STATE (n : Nat) : Field := ⟨R.CTX_STATUS n, 2, 0⟩

def R.CTX_CTL (n : Nat) : Nat := 0x1000008 + 0x1000 * n
def F.CTX_CTL_RESET (n : Nat) : Field := ⟨R.CTX_CTL n, 0, 0⟩

def R.CTX_FAULT_CODE (n : Nat) : Nat := 0x100000C + 0x1000 * n
def F.CTX_FAULT_CODE (n : Nat) : Field := ⟨R.CTX_FAULT_CODE n, 15, 0⟩

def R.CTX_RING_TAIL (n : Nat) (k : Nat) : Nat := 0x1000010 + 0x1000 * n + 0x8 * k
def F.CTX_RING_TAIL (n : Nat) (k : Nat) : Field := ⟨R.CTX_RING_TAIL n k, 15, 0⟩

def R.CTX_RING_HEAD (n : Nat) (k : Nat) : Nat := 0x1000014 + 0x1000 * n + 0x8 * k
def F.CTX_RING_HEAD (n : Nat) (k : Nat) : Field := ⟨R.CTX_RING_HEAD n k, 15, 0⟩

def R.CTX_JOB_CNT (n : Nat) : Nat := 0x1000020 + 0x1000 * n
def F.CTX_JOB_CNT (n : Nat) : Field := ⟨R.CTX_JOB_CNT n, 31, 0⟩

def R.CTX_ERR_CNT (n : Nat) : Nat := 0x1000024 + 0x1000 * n
def F.CTX_ERR_CNT (n : Nat) : Field := ⟨R.CTX_ERR_CNT n, 31, 0⟩

/-! Table 14-8 (14_mailboxes_doorbells.md). -/

def R.MBX_MB_CTL (n : Nat) (k : Nat) : Nat := 0x112040 + 0x1000 * n + 0x10 * k
def F.MBX_MB_CTL_FULL (n : Nat) (k : Nat) : Field := ⟨R.MBX_MB_CTL n k, 31, 31⟩
def F.MBX_MB_CTL_COLLISION (n : Nat) (k : Nat) : Field := ⟨R.MBX_MB_CTL n k, 30, 30⟩
def F.MBX_MB_CTL_FWD_EN (n : Nat) (k : Nat) : Field := ⟨R.MBX_MB_CTL n k, 29, 29⟩
def F.MBX_MB_CTL_DB_EN (n : Nat) (k : Nat) : Field := ⟨R.MBX_MB_CTL n k, 28, 28⟩
def F.MBX_MB_CTL_RECEIVER (n : Nat) (k : Nat) : Field := ⟨R.MBX_MB_CTL n k, 27, 20⟩
def F.MBX_MB_CTL_DB_BIT (n : Nat) (k : Nat) : Field := ⟨R.MBX_MB_CTL n k, 19, 15⟩

def R.MBX_MB_CNT (n : Nat) (k : Nat) : Nat := 0x112044 + 0x1000 * n + 0x10 * k
def F.MBX_MB_CNT_WRITE_CNT (n : Nat) (k : Nat) : Field := ⟨R.MBX_MB_CNT n k, 31, 0⟩

def R.MBX_MB_TAKE (n : Nat) (k : Nat) : Nat := 0x112048 + 0x1000 * n + 0x10 * k
def F.MBX_MB_TAKE (n : Nat) (k : Nat) : Field := ⟨R.MBX_MB_TAKE n k, 31, 0⟩

def R.MBX_MB_FWD (n : Nat) (k : Nat) : Nat := 0x11204C + 0x1000 * n + 0x10 * k
def F.MBX_MB_FWD_FWD_MBX (n : Nat) (k : Nat) : Field := ⟨R.MBX_MB_FWD n k, 23, 16⟩
def F.MBX_MB_FWD_FWD_NODE (n : Nat) (k : Nat) : Field := ⟨R.MBX_MB_FWD n k, 14, 0⟩

def R.MBX_MB_SLOT (n : Nat) (k : Nat) : Nat := 0x112800 + 0x1000 * n + 0x4 * k
def F.MBX_MB_SLOT_BYTES (n : Nat) (k : Nat) : Field := ⟨R.MBX_MB_SLOT n k, 31, 0⟩

/-! Table 14-9 (14_mailboxes_doorbells.md). -/

def R.MBX_DB_PEND (k : Nat) : Nat := 0x11A040 + 0x10 * k
def F.MBX_DB_PEND (k : Nat) : Field := ⟨R.MBX_DB_PEND k, 31, 0⟩

def R.MBX_DB_MASK (k : Nat) : Nat := 0x11A044 + 0x10 * k
def F.MBX_DB_MASK (k : Nat) : Field := ⟨R.MBX_DB_MASK k, 31, 0⟩

def R.MBX_DB_WAKE (k : Nat) : Nat := 0x11A048 + 0x10 * k
def F.MBX_DB_WAKE (k : Nat) : Field := ⟨R.MBX_DB_WAKE k, 31, 0⟩

def R.MBX_DB_RING (k : Nat) : Nat := 0x11A04C + 0x10 * k
def F.MBX_DB_RING (k : Nat) : Field := ⟨R.MBX_DB_RING k, 31, 0⟩

end Sys2Proof.Machine
end

