-- ==== Sys2Proof/Machine/RegMap.lean ====
section
/-! DEFINITION. The register map: for every page of BAR 0 that a chapter of spec/ implements, its
registers at 0x40 and above, with the reset value of each (R22, R113 and the register tables of the
chapters) and the access type of each field (R65, Table 2-6). A field the tables reserve is in no list: it
reads 0 and ignores writes (R55). -/

namespace Sys2Proof.Machine

/-- Access types of Table 2-6 (R65). `clr` is an RW field that any write sets to 0 (R161). -/
inductive Access where
  | ro | rw | rw1c | rw1s | wo | rwp | rwl | rws | clr
  deriving DecidableEq, Repr

/-- A field of a register definition. -/
structure FieldDef where
  hi : Nat
  lo : Nat
  acc : Access
  deriving DecidableEq, Repr

/-- A register, or an array of `count` registers `stride` bytes apart, of a page. -/
structure RegDef where
  off : Nat
  stride : Nat
  count : Nat
  reset : Nat
  fields : List FieldDef
  deriving DecidableEq, Repr

def RegMap.pg000 : List RegDef := [
  -- GLB_DEVICE_IDENT
  ⟨0x40, 0, 1, 0x64A100, [⟨31, 16, .ro⟩, ⟨15, 8, .ro⟩, ⟨7, 4, .ro⟩, ⟨3, 0, .ro⟩]⟩,
  -- GLB_TILE_PRESENT_LO
  ⟨0x44, 0, 1, 0x0, [⟨31, 0, .ro⟩]⟩,
  -- GLB_TILE_PRESENT_HI
  ⟨0x48, 0, 1, 0x0, [⟨31, 0, .ro⟩]⟩,
  -- GLB_TILE_COUNT
  ⟨0x4C, 0, 1, 0x0, [⟨6, 0, .ro⟩]⟩,
  -- GLB_SITE_CAPACITY
  ⟨0x50, 0, 1, 0x0, [⟨20, 0, .ro⟩]⟩,
  -- GLB_CLOCK_STATUS
  ⟨0x54, 0, 1, 0x0, [⟨21, 11, .ro⟩, ⟨10, 0, .ro⟩]⟩,
  -- GLB_FRAME_PIPE
  ⟨0x58, 0, 1, 0x0, [⟨31, 24, .ro⟩, ⟨23, 16, .ro⟩, ⟨15, 8, .ro⟩, ⟨2, 0, .ro⟩]⟩,
  -- GLB_BOOT_STATUS
  ⟨0x5C, 0, 1, 0x0, [⟨19, 16, .ro⟩, ⟨11, 10, .ro⟩, ⟨8, 8, .ro⟩, ⟨7, 7, .ro⟩, ⟨6, 6, .ro⟩, ⟨5, 5, .ro⟩, ⟨4, 4, .ro⟩, ⟨3, 3, .ro⟩, ⟨2, 2, .ro⟩, ⟨1, 1, .ro⟩, ⟨0, 0, .ro⟩]⟩,
  -- GLB_BOOT_MS
  ⟨0x60, 0, 1, 0x0, [⟨31, 0, .ro⟩]⟩,
  -- GLB_RESET_CTL
  ⟨0x64, 0, 1, 0x0, [⟨31, 16, .wo⟩, ⟨0, 0, .wo⟩]⟩
]

def RegMap.pg001 : List RegDef := [
  -- GLB_EVENT_SUMMARY
  ⟨0x40, 4, 24, 0x0, [⟨31, 0, .ro⟩]⟩,
  -- GLB_BAD_ACCESS_CNT
  ⟨0xA0, 0, 1, 0x0, [⟨31, 0, .clr⟩]⟩,
  -- GLB_BAD_ACCESS_LAST
  ⟨0xA4, 0, 1, 0x0, [⟨31, 24, .ro⟩, ⟨23, 0, .ro⟩]⟩
]

def RegMap.pg002 : List RegDef := [
  -- GLB_GPIO_FUNC_A
  ⟨0x40, 0, 1, 0x54321, [⟨31, 0, .rwl⟩]⟩,
  -- GLB_GPIO_FUNC_B
  ⟨0x44, 0, 1, 0x0, [⟨31, 0, .rwl⟩]⟩,
  -- GLB_GPIO_OE
  ⟨0x48, 0, 1, 0x0, [⟨15, 0, .rw⟩]⟩,
  -- GLB_GPIO_OUT
  ⟨0x4C, 0, 1, 0x0, [⟨15, 0, .rw⟩]⟩,
  -- GLB_GPIO_IN
  ⟨0x50, 0, 1, 0x0, [⟨15, 0, .ro⟩]⟩,
  -- GLB_GPIO_SAF
  ⟨0x54, 0, 1, 0x0, [⟨15, 0, .ro⟩]⟩,
  -- GLB_MODE_SNAPSHOT_A
  ⟨0x58, 0, 1, 0x81B00, [⟨20, 19, .ro⟩, ⟨18, 17, .ro⟩, ⟨16, 16, .ro⟩, ⟨15, 14, .ro⟩, ⟨13, 12, .ro⟩, ⟨11, 11, .ro⟩, ⟨10, 8, .ro⟩, ⟨7, 6, .ro⟩, ⟨5, 4, .ro⟩, ⟨3, 2, .ro⟩, ⟨1, 0, .ro⟩]⟩,
  -- GLB_MODE_SNAPSHOT_B
  ⟨0x5C, 0, 1, 0x0, [⟨31, 24, .ro⟩, ⟨23, 0, .ro⟩]⟩
]

def RegMap.pg010_0 : List RegDef := [
  -- FRM_MODE
  ⟨0x40, 0, 1, 0x0, [⟨5, 4, .rwl⟩, ⟨3, 3, .rwl⟩, ⟨1, 1, .rwl⟩, ⟨0, 0, .rwl⟩]⟩,
  -- FRM_TICK_PHASE_NS
  ⟨0x44, 0, 1, 0x0, [⟨31, 0, .rwl⟩]⟩,
  -- FRM_CTL
  ⟨0x48, 0, 1, 0x0, [⟨1, 1, .wo⟩, ⟨0, 0, .wo⟩]⟩,
  -- FRM_PLAN_ADDR_LO
  ⟨0x4C, 0, 1, 0x0, [⟨31, 6, .rwl⟩]⟩,
  -- FRM_PLAN_ADDR_HI
  ⟨0x50, 0, 1, 0x0, [⟨3, 0, .rwl⟩]⟩,
  -- FRM_PLAN_SIZE
  ⟨0x54, 0, 1, 0x0, [⟨31, 0, .rwl⟩]⟩,
  -- FRM_PLAN_CTL
  ⟨0x58, 0, 1, 0x0, [⟨2, 1, .wo⟩, ⟨0, 0, .wo⟩]⟩,
  -- FRM_PLAN_STATUS
  ⟨0x5C, 0, 1, 0x0, [⟨9, 9, .ro⟩, ⟨8, 8, .ro⟩, ⟨5, 4, .ro⟩, ⟨3, 2, .ro⟩, ⟨0, 0, .ro⟩]⟩,
  -- FRM_PLAN_RESULT
  ⟨0x60, 0, 1, 0x0, [⟨15, 0, .ro⟩]⟩,
  -- FRM_PROOF_NS
  ⟨0x64, 0, 1, 0x0, [⟨31, 0, .ro⟩]⟩,
  -- FRM_PERIOD_US
  ⟨0x68, 0, 1, 0x0, [⟨31, 0, .ro⟩]⟩,
  -- FRM_BUDGET_US
  ⟨0x6C, 0, 1, 0x0, [⟨31, 0, .ro⟩]⟩,
  -- FRM_CORE_FLOOR
  ⟨0x70, 0, 1, 0x0, [⟨10, 0, .ro⟩]⟩,
  -- FRM_FRAME_NUMBER
  ⟨0x74, 0, 1, 0x0, [⟨31, 0, .ro⟩]⟩,
  -- FRM_TICK_TS_LO
  ⟨0x78, 0, 1, 0x0, [⟨31, 0, .ro⟩]⟩,
  -- FRM_TICK_TS_HI
  ⟨0x7C, 0, 1, 0x0, [⟨31, 0, .ro⟩]⟩,
  -- FRM_ADMIT
  ⟨0x80, 0, 1, 0x0, [⟨9, 9, .ro⟩, ⟨8, 8, .ro⟩, ⟨7, 6, .ro⟩, ⟨5, 4, .ro⟩, ⟨1, 0, .ro⟩]⟩,
  -- FRM_ADMIT_SITES
  ⟨0x84, 0, 1, 0x0, [⟨20, 0, .ro⟩]⟩,
  -- FRM_ADMIT_COST_NS
  ⟨0x88, 0, 1, 0x0, [⟨31, 0, .ro⟩]⟩,
  -- FRM_ADMIT_REMAIN_NS
  ⟨0x8C, 0, 1, 0x0, [⟨31, 0, .ro⟩]⟩,
  -- FRM_OVERRUN_CNT
  ⟨0x90, 0, 1, 0x0, [⟨31, 0, .clr⟩]⟩,
  -- FRM_SKIPPED_CNT
  ⟨0x94, 0, 1, 0x0, [⟨31, 0, .clr⟩]⟩,
  -- FRM_SYNC_EARLY_CNT
  ⟨0x98, 0, 1, 0x0, [⟨31, 0, .clr⟩]⟩,
  -- FRM_SYNC_MISSED_CNT
  ⟨0x9C, 0, 1, 0x0, [⟨31, 0, .clr⟩]⟩
]

def RegMap.pg010_1 : List RegDef := [
  -- FRM_STAGE_ERR
  ⟨0xA0, 0, 1, 0x0, [⟨31, 16, .ro⟩, ⟨15, 0, .ro⟩]⟩,
  -- FRM_STAGE_ERR_CNT
  ⟨0xA4, 0, 1, 0x0, [⟨31, 0, .clr⟩]⟩,
  -- FRM_DISPATCH
  ⟨0xA8, 0, 1, 0x0, [⟨31, 16, .ro⟩, ⟨6, 0, .ro⟩]⟩
]

def RegMap.pg010 : List RegDef := RegMap.pg010_0 ++ RegMap.pg010_1

def RegMap.pg011 : List RegDef := [
  -- FRM_TIMEBASE_LO
  ⟨0x40, 0, 1, 0x0, [⟨31, 0, .ro⟩]⟩,
  -- FRM_TIMEBASE_HI
  ⟨0x44, 0, 1, 0x0, [⟨31, 0, .ro⟩]⟩,
  -- FRM_MARK_SEQ
  ⟨0x48, 0, 1, 0x0, [⟨31, 0, .ro⟩]⟩,
  -- FRM_MARK_TS_LO
  ⟨0x4C, 0, 1, 0x0, [⟨31, 0, .ro⟩]⟩,
  -- FRM_MARK_TS_HI
  ⟨0x50, 0, 1, 0x0, [⟨31, 0, .ro⟩]⟩,
  -- FRM_TIME_STATE
  ⟨0x54, 0, 1, 0x0, [⟨1, 0, .ro⟩]⟩,
  -- FRM_TIME_OFFSET_NS
  ⟨0x58, 0, 1, 0x0, [⟨31, 0, .ro⟩]⟩,
  -- FRM_TIME_RATE_PPB
  ⟨0x5C, 0, 1, 0x0, [⟨31, 0, .ro⟩]⟩,
  -- FRM_TIME_REJECT_CNT
  ⟨0x60, 0, 1, 0x0, [⟨31, 0, .clr⟩]⟩,
  -- FRM_TEST_CFG
  ⟨0x64, 0, 1, 0x3E80041, [⟨31, 16, .rwl⟩, ⟨7, 4, .rwl⟩, ⟨0, 0, .rwl⟩]⟩,
  -- FRM_WITHDRAWN_LO
  ⟨0x68, 0, 1, 0x0, [⟨31, 0, .ro⟩]⟩,
  -- FRM_WITHDRAWN_HI
  ⟨0x6C, 0, 1, 0x0, [⟨31, 0, .ro⟩]⟩,
  -- FRM_TEST_ROTOR
  ⟨0x70, 0, 1, 0x0, [⟨5, 0, .ro⟩]⟩,
  -- FRM_TEST_ABORT_CNT
  ⟨0x74, 0, 1, 0x0, [⟨31, 0, .clr⟩]⟩,
  -- FRM_TEST_SKIP_CNT
  ⟨0x78, 0, 1, 0x0, [⟨31, 0, .clr⟩]⟩,
  -- FRM_TEST_REQ
  ⟨0x7C, 0, 1, 0x0, [⟨8, 8, .wo⟩, ⟨7, 7, .ro⟩, ⟨5, 0, .rw⟩]⟩
]

def RegMap.pg020 : List RegDef := [
  -- SLK_LANE_CFG
  ⟨0x40, 0, 1, 0x0, [⟨9, 9, .rwl⟩, ⟨8, 8, .rwl⟩, ⟨5, 4, .rwl⟩, ⟨1, 0, .rwl⟩]⟩,
  -- SLK_LANE_STATUS
  ⟨0x44, 0, 1, 0x700, [⟨10, 8, .ro⟩, ⟨4, 4, .ro⟩, ⟨3, 3, .ro⟩, ⟨2, 2, .ro⟩, ⟨1, 1, .ro⟩, ⟨0, 0, .ro⟩]⟩,
  -- SLK_LANE_CMD
  ⟨0x48, 0, 1, 0x0, [⟨0, 0, .wo⟩]⟩,
  -- SLK_LOS_CNT
  ⟨0x4C, 0, 1, 0x0, [⟨31, 0, .clr⟩]⟩,
  -- SLK_SECTOR_CFG
  ⟨0x50, 0, 1, 0x53F, [⟨15, 8, .rwl⟩, ⟨5, 0, .rwl⟩]⟩,
  -- SLK_RETRY_BUDGET
  ⟨0x54, 0, 1, 0x7D0, [⟨15, 0, .rwl⟩]⟩,
  -- SLK_SECTOR_OK_CNT
  ⟨0x58, 0, 1, 0x0, [⟨31, 0, .clr⟩]⟩,
  -- SLK_SECTOR_LOST_CNT
  ⟨0x5C, 0, 1, 0x0, [⟨31, 0, .clr⟩]⟩,
  -- SLK_RETRY_OK_CNT
  ⟨0x60, 0, 1, 0x0, [⟨31, 0, .clr⟩]⟩,
  -- SLK_RETRY_STEP_CNT
  ⟨0x64, 0, 1, 0x0, [⟨31, 0, .clr⟩]⟩,
  -- SLK_SLOT_TAKEN_CNT
  ⟨0x68, 0, 1, 0x0, [⟨31, 0, .clr⟩]⟩,
  -- SLK_SECTOR_FORMAT_CNT
  ⟨0x6C, 0, 1, 0x0, [⟨31, 0, .clr⟩]⟩,
  -- SLK_LOST_LAST
  ⟨0x70, 0, 1, 0x0, [⟨31, 24, .ro⟩, ⟨19, 16, .ro⟩, ⟨15, 0, .ro⟩]⟩,
  -- SLK_LOST_SPAN
  ⟨0x74, 0, 1, 0x0, [⟨31, 16, .ro⟩, ⟨15, 0, .ro⟩]⟩,
  -- SLK_POINT_CNT
  ⟨0x78, 0, 1, 0x0, [⟨31, 0, .clr⟩]⟩,
  -- SLK_DROP_CNT
  ⟨0x7C, 0, 1, 0x0, [⟨31, 0, .clr⟩]⟩,
  -- SLK_HEAD_ID_SEEN
  ⟨0x80, 0, 1, 0x0, [⟨31, 0, .ro⟩]⟩,
  -- SLK_INDEX_WORD
  ⟨0x8C, 0, 1, 0x0, [⟨31, 0, .ro⟩]⟩,
  -- SLK_INDEX_MISS_CNT
  ⟨0x90, 0, 1, 0x0, [⟨31, 0, .clr⟩]⟩,
  -- SLK_REV_PERIOD_NS
  ⟨0x94, 0, 1, 0x0, [⟨31, 0, .ro⟩]⟩,
  -- SLK_TIMING_READY
  ⟨0x98, 0, 1, 0x0, [⟨0, 0, .ro⟩]⟩,
  -- SLK_INDEX_TS_LO
  ⟨0x84, 0, 1, 0x0, [⟨31, 0, .ro⟩]⟩,
  -- SLK_INDEX_TS_HI
  ⟨0x88, 0, 1, 0x0, [⟨31, 0, .ro⟩]⟩
]

def RegMap.pg021 : List RegDef := [
  -- SLK_AFE_LIVE
  ⟨0x40, 0, 1, 0x0, [⟨21, 16, .ro⟩, ⟨15, 8, .ro⟩, ⟨7, 0, .ro⟩]⟩,
  -- SLK_CTF_LIVE
  ⟨0x44, 0, 1, 0x0, [⟨12, 8, .ro⟩, ⟨5, 0, .ro⟩]⟩,
  -- SLK_VGA_SET
  ⟨0x48, 0, 1, 0x0, [⟨7, 0, .wo⟩]⟩,
  -- SLK_CTF_SET
  ⟨0x4C, 0, 1, 0x0, [⟨12, 8, .wo⟩, ⟨5, 0, .wo⟩]⟩,
  -- SLK_LOOP_HOLD
  ⟨0x50, 0, 1, 0x0, [⟨5, 0, .rwl⟩]⟩,
  -- SLK_DEFECT_CFG
  ⟨0x54, 0, 1, 0x102008, [⟨21, 16, .rwl⟩, ⟨13, 8, .rwl⟩, ⟨5, 0, .rwl⟩]⟩,
  -- SLK_AGC_CFG
  ⟨0x58, 0, 1, 0x30C, [⟨10, 8, .rwl⟩, ⟨4, 0, .rwl⟩]⟩,
  -- SLK_FREQ_PPB
  ⟨0x5C, 0, 1, 0x0, [⟨31, 0, .ro⟩]⟩,
  -- SLK_DGAIN
  ⟨0x60, 0, 1, 0x100, [⟨9, 0, .ro⟩]⟩,
  -- SLK_MSE
  ⟨0x70, 0, 1, 0x0, [⟨15, 0, .ro⟩]⟩,
  -- SLK_ANALOG_STEP_CNT
  ⟨0x74, 0, 1, 0x0, [⟨31, 0, .clr⟩]⟩,
  -- SLK_DEFECT_CNT
  ⟨0x78, 0, 1, 0x0, [⟨31, 0, .clr⟩]⟩,
  -- SLK_ERASED_CNT
  ⟨0x7C, 0, 1, 0x0, [⟨31, 0, .clr⟩]⟩,
  -- SLK_CLIP_CNT
  ⟨0x80, 0, 1, 0x0, [⟨31, 0, .clr⟩]⟩,
  -- SLK_FIR_LIVE
  ⟨0x64, 4, 3, 0x0, [⟨31, 0, .ro⟩]⟩
]

def RegMap.pg022 : List RegDef := [
  -- SLK_DEC_CFG
  ⟨0x40, 0, 1, 0x1148, [⟨12, 12, .rwl⟩, ⟨9, 8, .rwl⟩, ⟨7, 4, .rwl⟩, ⟨3, 0, .rwl⟩]⟩,
  -- SLK_DEC_OK_CNT
  ⟨0x44, 0, 1, 0x0, [⟨31, 0, .clr⟩]⟩,
  -- SLK_DEC_FAIL_CNT
  ⟨0x48, 0, 1, 0x0, [⟨31, 0, .clr⟩]⟩,
  -- SLK_SYNC_MISS_CNT
  ⟨0x4C, 0, 1, 0x0, [⟨31, 0, .clr⟩]⟩,
  -- SLK_ITER_SUM
  ⟨0x50, 0, 1, 0x0, [⟨31, 0, .clr⟩]⟩,
  -- SLK_DEC_LAST
  ⟨0x54, 0, 1, 0x0, [⟨31, 31, .ro⟩, ⟨18, 8, .ro⟩, ⟨7, 4, .ro⟩, ⟨3, 0, .ro⟩]⟩
]

def RegMap.pg023 : List RegDef := [
  -- SLK_SERVO_CFG
  ⟨0x40, 0, 1, 0x80000000, [⟨31, 16, .rwl⟩, ⟨0, 0, .rwl⟩]⟩,
  -- SLK_SERVO_GAIN
  ⟨0x44, 0, 1, 0x1020, [⟨15, 8, .rwl⟩, ⟨7, 0, .rwl⟩]⟩,
  -- SLK_SERVO_THR
  ⟨0x48, 0, 1, 0x16C005B, [⟨31, 16, .rwl⟩, ⟨15, 0, .rwl⟩]⟩,
  -- SLK_INHIBIT_CFG
  ⟨0x4C, 0, 1, 0x642000B6, [⟨31, 24, .rwl⟩, ⟨23, 16, .rwl⟩, ⟨15, 0, .rwl⟩]⟩,
  -- SLK_SERVO_STATUS
  ⟨0x50, 0, 1, 0x0, [⟨31, 16, .ro⟩, ⟨4, 4, .ro⟩, ⟨1, 0, .ro⟩]⟩,
  -- SLK_TRIM_PPM
  ⟨0x54, 0, 1, 0x0, [⟨31, 0, .ro⟩]⟩,
  -- SLK_DL_TX_HDR
  ⟨0x58, 0, 1, 0x20, [⟨24, 16, .rwl⟩, ⟨7, 0, .rwl⟩]⟩,
  -- SLK_DL_TX_CMD
  ⟨0x5C, 0, 1, 0x0, [⟨0, 0, .wo⟩]⟩,
  -- SLK_DL_TX_STATUS
  ⟨0x60, 0, 1, 0x0, [⟨19, 16, .ro⟩, ⟨15, 8, .ro⟩, ⟨2, 0, .ro⟩]⟩,
  -- SLK_HEAD_ACK
  ⟨0x64, 0, 1, 0x0, [⟨31, 24, .ro⟩, ⟨23, 16, .ro⟩, ⟨15, 8, .ro⟩, ⟨7, 0, .ro⟩]⟩,
  -- SLK_DL_SENT_CNT
  ⟨0x68, 0, 1, 0x0, [⟨31, 0, .clr⟩]⟩,
  -- SLK_DL_INHIBIT_CNT
  ⟨0x6C, 0, 1, 0x0, [⟨31, 0, .clr⟩]⟩,
  -- SLK_LOCK_LOSS_CNT
  ⟨0x70, 0, 1, 0x0, [⟨31, 0, .clr⟩]⟩,
  -- SLK_INHIBIT_WAIT
  ⟨0x74, 0, 1, 0x3E8, [⟨15, 0, .rwl⟩]⟩,
  -- SLK_SHOCK_NOW
  ⟨0x78, 0, 1, 0xFF, [⟨7, 0, .ro⟩]⟩,
  -- SLK_DL_TX_DATA
  ⟨0x100, 4, 64, 0x0, [⟨31, 0, .rwl⟩]⟩
]

def RegMap.pg040 : List RegDef := [
  -- SEP_CFG
  ⟨0x40, 0, 1, 0x380, [⟨10, 10, .rwl⟩, ⟨9, 9, .rwl⟩, ⟨8, 8, .rwl⟩, ⟨7, 4, .rwl⟩, ⟨1, 0, .rwl⟩]⟩,
  -- SEP_GRID_OFF_XY
  ⟨0x44, 0, 1, 0xF800F800, [⟨31, 16, .rwl⟩, ⟨15, 0, .rwl⟩]⟩,
  -- SEP_GRID_OFF_Z
  ⟨0x48, 0, 1, 0xFFF6, [⟨15, 0, .rwl⟩]⟩,
  -- SEP_POSE_EXTRAP_US
  ⟨0x4C, 0, 1, 0x1ADB0, [⟨31, 0, .rwl⟩]⟩,
  -- SEP_POSE_GAP_US
  ⟨0x50, 0, 1, 0xC350, [⟨31, 0, .rwl⟩]⟩,
  -- SEP_DRAM_LO
  ⟨0x54, 0, 1, 0x0, [⟨31, 26, .rwl⟩]⟩,
  -- SEP_DRAM_HI
  ⟨0x58, 0, 1, 0x0, [⟨3, 0, .rwl⟩]⟩,
  -- SEP_BIN_STATUS
  ⟨0x5C, 0, 1, 0x30000, [⟨31, 24, .ro⟩, ⟨17, 16, .ro⟩, ⟨1, 1, .ro⟩, ⟨0, 0, .ro⟩]⟩,
  -- SEP_INGEST_POINTS
  ⟨0x60, 0, 1, 0x0, [⟨31, 0, .ro⟩]⟩,
  -- SEP_SITES_FINE
  ⟨0x64, 0, 1, 0x0, [⟨31, 0, .ro⟩]⟩,
  -- SEP_SITES_COARSE
  ⟨0x68, 0, 1, 0x0, [⟨31, 0, .ro⟩]⟩,
  -- SEP_EXCLUDED_CNT
  ⟨0x6C, 0, 1, 0x0, [⟨31, 0, .clr⟩]⟩,
  -- SEP_OUT_OF_GRID_CNT
  ⟨0x70, 0, 1, 0x0, [⟨31, 0, .clr⟩]⟩,
  -- SEP_POINT_LIMIT_CNT
  ⟨0x74, 0, 1, 0x0, [⟨31, 0, .clr⟩]⟩,
  -- SEP_SITE_DROP_CNT
  ⟨0x78, 0, 1, 0x0, [⟨31, 0, .clr⟩]⟩,
  -- SEP_NO_POSE_CNT
  ⟨0x7C, 0, 1, 0x0, [⟨31, 0, .clr⟩]⟩,
  -- SEP_STAGE_DROP_CNT
  ⟨0x80, 0, 1, 0x0, [⟨31, 0, .clr⟩]⟩,
  -- SEP_CARRIED_CNT
  ⟨0x84, 0, 1, 0x0, [⟨31, 0, .clr⟩]⟩,
  -- SEP_STAGE_PEAK
  ⟨0x88, 0, 1, 0x0, [⟨21, 0, .clr⟩]⟩
]

def RegMap.pg041 : List RegDef := [
  -- SEP_POSE_STAGE
  ⟨0x40, 4, 8, 0x0, [⟨31, 0, .rw⟩]⟩,
  -- SEP_POSE_CMD
  ⟨0x60, 0, 1, 0x0, [⟨1, 1, .wo⟩, ⟨0, 0, .wo⟩]⟩,
  -- SEP_POSE_STATUS
  ⟨0x64, 0, 1, 0x0, [⟨8, 8, .ro⟩, ⟨5, 0, .ro⟩]⟩,
  -- SEP_POSE_NEWEST_LO
  ⟨0x68, 0, 1, 0x0, [⟨31, 0, .ro⟩]⟩,
  -- SEP_POSE_NEWEST_HI
  ⟨0x6C, 0, 1, 0x0, [⟨31, 0, .ro⟩]⟩,
  -- SEP_POSE_REJECT_CNT
  ⟨0x70, 0, 1, 0x0, [⟨31, 0, .clr⟩]⟩
]

def RegMap.pg050 : List RegDef := [
  -- HRV_STATUS
  ⟨0x40, 0, 1, 0x0, [⟨13, 12, .ro⟩, ⟨8, 8, .ro⟩, ⟨4, 0, .ro⟩]⟩,
  -- HRV_REQ_CNT
  ⟨0x44, 0, 1, 0x0, [⟨31, 0, .clr⟩]⟩,
  -- HRV_NAN_CNT
  ⟨0x48, 0, 1, 0x0, [⟨31, 0, .clr⟩]⟩,
  -- HRV_INSERT_CNT
  ⟨0x4C, 0, 1, 0x0, [⟨31, 0, .clr⟩]⟩,
  -- HRV_QUEUE_FULL_CNT
  ⟨0x50, 0, 1, 0x0, [⟨31, 0, .clr⟩]⟩,
  -- HRV_REQ_ERR_CNT
  ⟨0x54, 0, 1, 0x0, [⟨31, 0, .clr⟩]⟩,
  -- HRV_LAST_ERR
  ⟨0x58, 0, 1, 0x0, [⟨31, 16, .ro⟩, ⟨15, 0, .ro⟩]⟩,
  -- HRV_LAST_SRC
  ⟨0x5C, 0, 1, 0x0, [⟨16, 16, .ro⟩, ⟨15, 0, .ro⟩]⟩,
  -- HRV_QUEUE_PEAK
  ⟨0x60, 0, 1, 0x0, [⟨4, 0, .clr⟩]⟩
]

def RegMap.pg060 : List RegDef := [
  -- SCV_STATUS
  ⟨0x40, 0, 1, 0x0, [⟨31, 16, .ro⟩, ⟨8, 8, .ro⟩, ⟨5, 4, .ro⟩]⟩,
  -- SCV_SET_VALID
  ⟨0x44, 0, 1, 0x0, [⟨7, 0, .ro⟩]⟩,
  -- SCV_COMMIT
  ⟨0x48, 0, 1, 0x0, [⟨31, 24, .ro⟩, ⟨5, 4, .ro⟩, ⟨1, 0, .ro⟩]⟩,
  -- SCV_FRAME_FLAGS
  ⟨0x4C, 0, 1, 0x0, [⟨0, 0, .ro⟩]⟩,
  -- SCV_SET_SITES
  ⟨0x50, 4, 8, 0x0, [⟨20, 0, .ro⟩]⟩,
  -- SCV_PART_PEAK
  ⟨0x70, 0, 1, 0x0, [⟨14, 0, .ro⟩]⟩,
  -- SCV_STAGE_CNT
  ⟨0x74, 0, 1, 0x0, [⟨31, 0, .clr⟩]⟩,
  -- SCV_PROBE_CNT
  ⟨0x78, 0, 1, 0x0, [⟨31, 0, .clr⟩]⟩,
  -- SCV_SET_OVF_CNT
  ⟨0x7C, 0, 1, 0x0, [⟨31, 0, .clr⟩]⟩,
  -- SCV_BEV_CLIP_CNT
  ⟨0x80, 0, 1, 0x0, [⟨31, 0, .clr⟩]⟩,
  -- SCV_BEV_ZDROP_CNT
  ⟨0x84, 0, 1, 0x0, [⟨31, 0, .clr⟩]⟩,
  -- SCV_DATA_ERR_CNT
  ⟨0x88, 0, 1, 0x0, [⟨31, 0, .clr⟩]⟩,
  -- SCV_STAGE_ERR_CNT
  ⟨0x8C, 0, 1, 0x0, [⟨31, 0, .clr⟩]⟩,
  -- SCV_LAST_ERR
  ⟨0x90, 0, 1, 0x0, [⟨31, 16, .ro⟩, ⟨15, 0, .ro⟩]⟩
]

def RegMap.pg061 : List RegDef := [
  -- SCV_BANK_STATE
  ⟨0x40, 0, 1, 0x0, [⟨5, 4, .ro⟩, ⟨3, 2, .ro⟩, ⟨1, 0, .ro⟩]⟩,
  -- SCV_POOL_USED
  ⟨0x44, 0, 1, 0x0, [⟨5, 0, .ro⟩]⟩
]

def RegMap.pg080 : List RegDef := [
  -- TILE_STATUS
  ⟨0x40, 0, 1, 0x0, [⟨31, 16, .ro⟩, ⟨10, 10, .ro⟩, ⟨9, 9, .ro⟩, ⟨8, 8, .ro⟩, ⟨6, 0, .ro⟩]⟩,
  -- TILE_SB_BUSY_LO
  ⟨0x44, 0, 1, 0x0, [⟨31, 0, .ro⟩]⟩,
  -- TILE_SB_BUSY_HI
  ⟨0x48, 0, 1, 0x0, [⟨31, 0, .ro⟩]⟩,
  -- TILE_PWR
  ⟨0x4C, 0, 1, 0x640000, [⟨31, 16, .rwl⟩, ⟨1, 1, .wo⟩, ⟨0, 0, .rwl⟩]⟩,
  -- TILE_TEST_STATUS
  ⟨0x50, 0, 1, 0x0, [⟨31, 31, .ro⟩, ⟨17, 16, .ro⟩, ⟨15, 0, .ro⟩]⟩,
  -- TILE_ITEM_CNT
  ⟨0x54, 0, 1, 0x0, [⟨31, 0, .clr⟩]⟩,
  -- TILE_OP_CNT
  ⟨0x58, 0, 1, 0x0, [⟨31, 0, .clr⟩]⟩,
  -- TILE_DATA_ERR_CNT
  ⟨0x5C, 0, 1, 0x0, [⟨31, 0, .clr⟩]⟩,
  -- TILE_MAC_BUSY_CNT
  ⟨0x60, 0, 1, 0x0, [⟨31, 0, .clr⟩]⟩,
  -- TILE_TEST_PASS_CNT
  ⟨0x64, 0, 1, 0x0, [⟨31, 0, .clr⟩]⟩,
  -- TILE_LAST_ERR
  ⟨0x68, 0, 1, 0x0, [⟨31, 16, .ro⟩, ⟨9, 0, .ro⟩]⟩
]

/-- The MEMC registers of page 0x0C0 + 2n, but for the access type of SHARD_CFG, which is writable only on MEMC_0 (R457). -/
def RegMap.memcRegs : List RegDef := [
  -- MEMC_CFG
  ⟨0x40, 0, 1, 0x0, [⟨11, 8, .ro⟩, ⟨7, 4, .ro⟩, ⟨1, 0, .ro⟩]⟩,
  -- MEMC_STATUS
  ⟨0x44, 0, 1, 0x0, [⟨7, 4, .ro⟩, ⟨2, 2, .ro⟩, ⟨1, 1, .ro⟩]⟩,
  -- MEMC_DRAM_TOP_LO
  ⟨0x48, 0, 1, 0x0, [⟨31, 0, .ro⟩]⟩,
  -- MEMC_DRAM_TOP_HI
  ⟨0x4C, 0, 1, 0x0, [⟨3, 0, .ro⟩]⟩,
  -- MEMC_SCRUB_CFG
  ⟨0x54, 0, 1, 0xC01, [⟨15, 8, .rwl⟩, ⟨0, 0, .rwl⟩]⟩,
  -- MEMC_CE_CNT
  ⟨0x58, 0, 1, 0x0, [⟨31, 0, .clr⟩]⟩,
  -- MEMC_UE_CNT
  ⟨0x5C, 0, 1, 0x0, [⟨31, 0, .clr⟩]⟩,
  -- MEMC_SCRUB_PASS_CNT
  ⟨0x60, 0, 1, 0x0, [⟨31, 0, .clr⟩]⟩,
  -- MEMC_UE_ADDR_LO
  ⟨0x64, 0, 1, 0x0, [⟨31, 0, .ro⟩]⟩,
  -- MEMC_UE_ADDR_HI
  ⟨0x68, 0, 1, 0x0, [⟨15, 0, .ro⟩]⟩,
  -- MEMC_RD_64K_CNT
  ⟨0x6C, 0, 1, 0x0, [⟨31, 0, .clr⟩]⟩,
  -- MEMC_WR_64K_CNT
  ⟨0x70, 0, 1, 0x0, [⟨31, 0, .clr⟩]⟩
]

def RegMap.pg0C0 : List RegDef := ⟨0x50, 0, 1, 0x0, [⟨10, 0, .rwl⟩]⟩ :: RegMap.memcRegs

/-- MEMC_1 to MEMC_7. -/
def RegMap.pg0C2 : List RegDef := ⟨0x50, 0, 1, 0x0, [⟨10, 0, .ro⟩]⟩ :: RegMap.memcRegs

def RegMap.pg0C1 : List RegDef := [
  -- MEMC_CHURN_STATUS
  ⟨0x40, 0, 1, 0x0, [⟨24, 16, .ro⟩]⟩,
  -- MEMC_ADD_CNT
  ⟨0x44, 0, 1, 0x0, [⟨31, 0, .clr⟩]⟩,
  -- MEMC_MERGE_CNT
  ⟨0x48, 0, 1, 0x0, [⟨31, 0, .clr⟩]⟩,
  -- MEMC_DEQUANT_CNT
  ⟨0x4C, 0, 1, 0x0, [⟨31, 0, .clr⟩]⟩,
  -- MEMC_POOL_CNT
  ⟨0x50, 0, 1, 0x0, [⟨31, 0, .clr⟩]⟩,
  -- MEMC_POISON_CNT
  ⟨0x54, 0, 1, 0x0, [⟨31, 0, .clr⟩]⟩,
  -- MEMC_SHARE_NOW
  ⟨0x58, 0, 1, 0x0, [⟨4, 0, .ro⟩]⟩,
  -- MEMC_CLASS_STALL
  ⟨0x60, 4, 4, 0x0, [⟨31, 0, .clr⟩]⟩,
  -- MEMC_CELLAR_CE_CNT
  ⟨0x70, 0, 1, 0x0, [⟨31, 0, .clr⟩]⟩,
  -- MEMC_CELLAR_UE_CNT
  ⟨0x74, 0, 1, 0x0, [⟨31, 0, .clr⟩]⟩,
  -- MEMC_CELLAR_LAST
  ⟨0x78, 0, 1, 0x0, [⟨23, 18, .ro⟩, ⟨17, 0, .ro⟩]⟩
]

def RegMap.pg0D0 : List RegDef := [
  -- ETU_CFG
  ⟨0x40, 0, 1, 0x200, [⟨11, 8, .rwl⟩, ⟨3, 0, .rwl⟩]⟩,
  -- ETU_STATUS
  ⟨0x44, 0, 1, 0x0, [⟨27, 16, .ro⟩, ⟨2, 0, .ro⟩]⟩,
  -- ETU_LOOKUP_CNT
  ⟨0x48, 0, 1, 0x0, [⟨31, 0, .clr⟩]⟩,
  -- ETU_CACHE_HIT_CNT
  ⟨0x4C, 0, 1, 0x0, [⟨31, 0, .clr⟩]⟩,
  -- ETU_CACHE_MISS_CNT
  ⟨0x50, 0, 1, 0x0, [⟨31, 0, .clr⟩]⟩,
  -- ETU_INVALID_IDX_CNT
  ⟨0x54, 0, 1, 0x0, [⟨31, 0, .clr⟩]⟩,
  -- ETU_MISSING_IDX_CNT
  ⟨0x58, 0, 1, 0x0, [⟨31, 0, .clr⟩]⟩,
  -- ETU_UPDATE_ROW_CNT
  ⟨0x5C, 0, 1, 0x0, [⟨31, 0, .clr⟩]⟩,
  -- ETU_UPD_NAN_CNT
  ⟨0x60, 0, 1, 0x0, [⟨31, 0, .clr⟩]⟩,
  -- ETU_ROW_ERR_CNT
  ⟨0x64, 0, 1, 0x0, [⟨31, 0, .clr⟩]⟩,
  -- ETU_REMOTE_REQ_CNT
  ⟨0x68, 0, 1, 0x0, [⟨31, 0, .clr⟩]⟩,
  -- ETU_NOT_HOME_CNT
  ⟨0x6C, 0, 1, 0x0, [⟨31, 0, .clr⟩]⟩,
  -- ETU_FOLD_NONFINITE_CNT
  ⟨0x70, 0, 1, 0x0, [⟨31, 0, .clr⟩]⟩,
  -- ETU_CACHE_ROWS
  ⟨0x74, 0, 1, 0x0, [⟨19, 0, .ro⟩]⟩,
  -- ETU_LAST_ERR
  ⟨0x78, 0, 1, 0x0, [⟨31, 16, .ro⟩, ⟨7, 0, .ro⟩]⟩
]

def RegMap.pg0D1 : List RegDef := [
  -- ETU_CMD
  ⟨0x40, 0, 1, 0x0, [⟨15, 8, .wo⟩, ⟨3, 0, .wo⟩]⟩,
  -- ETU_CMD_ADDR_LO
  ⟨0x44, 0, 1, 0x0, [⟨31, 0, .rwl⟩]⟩,
  -- ETU_CMD_ADDR_HI
  ⟨0x48, 0, 1, 0x0, [⟨15, 0, .rwl⟩]⟩,
  -- ETU_CMD_SIZE
  ⟨0x4C, 0, 1, 0x0, [⟨31, 0, .rwl⟩]⟩,
  -- ETU_CMD_STATUS
  ⟨0x50, 0, 1, 0x0, [⟨31, 31, .ro⟩, ⟨19, 16, .ro⟩, ⟨15, 8, .ro⟩]⟩,
  -- ETU_CMD_RESULT
  ⟨0x54, 0, 1, 0x0, [⟨15, 0, .ro⟩]⟩,
  -- ETU_CMD_PROGRESS
  ⟨0x58, 0, 1, 0x0, [⟨31, 0, .ro⟩]⟩,
  -- ETU_TABLE_STATE
  ⟨0x100, 4, 256, 0x0, [⟨15, 15, .ro⟩, ⟨14, 14, .ro⟩, ⟨13, 13, .ro⟩, ⟨12, 12, .ro⟩, ⟨11, 8, .ro⟩, ⟨2, 0, .ro⟩]⟩
]

def RegMap.pg0D2 : List RegDef := [
  -- ETU_LOAD_CFG
  ⟨0x40, 0, 1, 0x3E84032, [⟨31, 16, .rwl⟩, ⟨15, 12, .rwl⟩, ⟨7, 1, .rwl⟩, ⟨0, 0, .rwl⟩]⟩,
  -- ETU_SHARD_LOAD
  ⟨0x44, 4, 8, 0x0, [⟨31, 0, .ro⟩]⟩,
  -- ETU_REDIRECT_USED
  ⟨0x64, 0, 1, 0x0, [⟨13, 0, .ro⟩]⟩,
  -- ETU_MIG_CNT
  ⟨0x68, 0, 1, 0x0, [⟨31, 0, .clr⟩]⟩,
  -- ETU_MIG_SKIP_CNT
  ⟨0x6C, 0, 1, 0x0, [⟨31, 0, .clr⟩]⟩
]

def RegMap.portRegs : List RegDef := [
  -- GRF_PORT_STATUS
  ⟨0x44, 0, 1, 0x0, [⟨31, 31, .ro⟩, ⟨30, 16, .ro⟩, ⟨10, 8, .ro⟩, ⟨7, 4, .ro⟩, ⟨2, 0, .ro⟩]⟩,
  -- GRF_LINK_TIMING
  ⟨0x48, 0, 1, 0x3E8, [⟨15, 0, .rwl⟩]⟩,
  -- GRF_FEC_CORR_CNT
  ⟨0x4C, 0, 1, 0x0, [⟨31, 0, .clr⟩]⟩,
  -- GRF_FEC_UNCORR_CNT
  ⟨0x50, 0, 1, 0x0, [⟨31, 0, .clr⟩]⟩,
  -- GRF_CRC_ERR_CNT
  ⟨0x54, 0, 1, 0x0, [⟨31, 0, .clr⟩]⟩,
  -- GRF_REPLAY_CNT
  ⟨0x58, 0, 1, 0x0, [⟨31, 0, .clr⟩]⟩,
  -- GRF_RECOVER_CNT
  ⟨0x5C, 0, 1, 0x0, [⟨31, 0, .clr⟩]⟩,
  -- GRF_DOWN_CNT
  ⟨0x60, 0, 1, 0x0, [⟨31, 0, .clr⟩]⟩,
  -- GRF_TX_FLIT_CNT
  ⟨0x64, 0, 1, 0x0, [⟨31, 0, .clr⟩]⟩,
  -- GRF_RX_FLIT_CNT
  ⟨0x68, 0, 1, 0x0, [⟨31, 0, .clr⟩]⟩,
  -- GRF_ROUTE_LOST_CNT
  ⟨0x6C, 0, 1, 0x0, [⟨31, 0, .clr⟩]⟩,
  -- GRF_DISCARD_CNT
  ⟨0x70, 0, 1, 0x0, [⟨31, 0, .clr⟩]⟩
]

/-- GRF_0 to GRF_5: PORT_CFG ROLE is read-only (Table 12-10). -/
def RegMap.pg0F0 : List RegDef := ⟨0x40, 0, 1, 0x0, [⟨8, 8, .rwl⟩, ⟨2, 0, .ro⟩]⟩ :: RegMap.portRegs

/-- The spares GRF_6 and GRF_7. -/
def RegMap.pg0FC : List RegDef := ⟨0x40, 0, 1, 0x0, [⟨8, 8, .rwl⟩, ⟨2, 0, .rwl⟩]⟩ :: RegMap.portRegs

def RegMap.pg0F1 : List RegDef := [
  -- GRF_NODE_CFG
  ⟨0x40, 0, 1, 0x0, [⟨29, 25, .rwl⟩, ⟨24, 20, .rwl⟩, ⟨19, 15, .rwl⟩, ⟨14, 10, .rwl⟩, ⟨9, 5, .rwl⟩, ⟨4, 0, .rwl⟩]⟩,
  -- GRF_NODE_ID
  ⟨0x44, 0, 1, 0x0, [⟨14, 0, .ro⟩]⟩,
  -- GRF_TIMEOUT
  ⟨0x54, 0, 1, 0x640014, [⟨31, 16, .rwl⟩, ⟨15, 0, .rwl⟩]⟩,
  -- GRF_LOST_CTL
  ⟨0x58, 0, 1, 0x0, [⟨17, 16, .wo⟩, ⟨14, 0, .wo⟩]⟩,
  -- GRF_LOST_QUERY
  ⟨0x5C, 0, 1, 0x0, [⟨16, 16, .ro⟩, ⟨14, 0, .ro⟩]⟩,
  -- GRF_LOST_COUNT
  ⟨0x60, 0, 1, 0x0, [⟨15, 0, .ro⟩]⟩,
  -- GRF_OUTSTANDING
  ⟨0x64, 0, 1, 0x0, [⟨12, 0, .ro⟩]⟩,
  -- GRF_REQ_OUT_CNT
  ⟨0x68, 0, 1, 0x0, [⟨31, 0, .clr⟩]⟩,
  -- GRF_REQ_IN_CNT
  ⟨0x6C, 0, 1, 0x0, [⟨31, 0, .clr⟩]⟩,
  -- GRF_NODE_LOST_CNT
  ⟨0x70, 0, 1, 0x0, [⟨31, 0, .clr⟩]⟩,
  -- GRF_FENCED_CNT
  ⟨0x74, 0, 1, 0x0, [⟨31, 0, .clr⟩]⟩,
  -- GRF_DENIED_CNT
  ⟨0x78, 0, 1, 0x0, [⟨31, 0, .clr⟩]⟩,
  -- GRF_MALFORMED_CNT
  ⟨0x7C, 0, 1, 0x0, [⟨31, 0, .clr⟩]⟩,
  -- GRF_EXPORT_LO
  ⟨0x100, 8, 16, 0x0, [⟨31, 28, .rwl⟩, ⟨3, 3, .rwl⟩, ⟨2, 2, .rwl⟩, ⟨1, 1, .rwl⟩, ⟨0, 0, .rwl⟩]⟩,
  -- GRF_EXPORT_HI
  ⟨0x104, 8, 16, 0x0, [⟨14, 0, .rwl⟩]⟩,
  -- GRF_BAR_CFG
  ⟨0x180, 4, 16, 0x0, [⟨31, 31, .rwl⟩, ⟨29, 25, .rwl⟩, ⟨24, 20, .rwl⟩, ⟨19, 15, .rwl⟩, ⟨14, 10, .rwl⟩, ⟨9, 5, .rwl⟩, ⟨4, 0, .rwl⟩]⟩,
  -- GRF_BAR_CTL
  ⟨0x1C0, 0, 1, 0x0, [⟨8, 8, .wo⟩, ⟨3, 0, .wo⟩]⟩,
  -- GRF_BAR_STATUS
  ⟨0x1C4, 4, 16, 0x0, [⟨31, 16, .ro⟩, ⟨1, 0, .ro⟩]⟩,
  -- GRF_DIR_X
  ⟨0x48, 0, 1, 0x0, [⟨31, 0, .rwl⟩]⟩,
  -- GRF_DIR_Y
  ⟨0x4C, 0, 1, 0x0, [⟨31, 0, .rwl⟩]⟩,
  -- GRF_DIR_Z
  ⟨0x50, 0, 1, 0x0, [⟨31, 0, .rwl⟩]⟩
]

def RegMap.pg100 : List RegDef := [
  -- HIF_STATUS
  ⟨0x40, 0, 1, 0x0, [⟨31, 16, .ro⟩, ⟨7, 4, .ro⟩, ⟨3, 0, .ro⟩]⟩,
  -- HIF_CFG
  ⟨0x44, 0, 1, 0x1, [⟨0, 0, .rwl⟩]⟩,
  -- HIF_JOB_CNT
  ⟨0x48, 0, 1, 0x0, [⟨31, 0, .clr⟩]⟩,
  -- HIF_JOB_ERR_CNT
  ⟨0x4C, 0, 1, 0x0, [⟨31, 0, .clr⟩]⟩,
  -- HIF_BAR2_DISCARD_CNT
  ⟨0x50, 0, 1, 0x0, [⟨31, 0, .clr⟩]⟩,
  -- HIF_RX_POISON_CNT
  ⟨0x54, 0, 1, 0x0, [⟨31, 0, .clr⟩]⟩,
  -- HIF_HOST_DMA_ERR_CNT
  ⟨0x58, 0, 1, 0x0, [⟨31, 0, .clr⟩]⟩
]

def RegMap.pg101 : List RegDef := [
  -- HIF_FUNC_CTX
  ⟨0x48, 8, 63, 0x0, [⟨19, 12, .rwl⟩, ⟨11, 0, .rwl⟩]⟩,
  -- HIF_FUNC_GRANT
  ⟨0x4C, 8, 63, 0x0, [⟨31, 16, .rwl⟩, ⟨5, 0, .rwl⟩]⟩
]

def RegMap.pg102 : List RegDef := [
  -- HIF_WIN_LO
  ⟨0x100, 16, 128, 0x0, [⟨31, 12, .rwl⟩, ⟨2, 2, .rwl⟩, ⟨1, 1, .rwl⟩, ⟨0, 0, .rwl⟩]⟩,
  -- HIF_WIN_HI
  ⟨0x104, 16, 128, 0x0, [⟨15, 0, .rwl⟩]⟩,
  -- HIF_WIN_SIZE
  ⟨0x108, 16, 128, 0x0, [⟨31, 0, .rwl⟩]⟩
]

def RegMap.pg10A : List RegDef := [
  -- HIF_CTX_FAULT
  ⟨0x40, 4, 128, 0x0, [⟨31, 0, .ro⟩]⟩
]

def RegMap.pg10B : List RegDef := [
  -- HIF_MSIX
  ⟨0x800, 4, 128, 0x0, [⟨31, 0, .rw⟩]⟩,
  -- HIF_MSIX_PBA
  ⟨0xA00, 0, 1, 0x0, [⟨31, 0, .ro⟩]⟩
]

def RegMap.pg110 : List RegDef := [
  -- MBX_CFG
  ⟨0x40, 0, 1, 0x0, [⟨0, 0, .rwl⟩]⟩,
  -- MBX_AREA_LO
  ⟨0x44, 0, 1, 0x0, [⟨31, 15, .rwl⟩]⟩,
  -- MBX_AREA_HI
  ⟨0x48, 0, 1, 0x0, [⟨15, 0, .rwl⟩]⟩,
  -- MBX_RST_RX
  ⟨0x4C, 0, 1, 0x2, [⟨1, 0, .ro⟩]⟩,
  -- MBX_SEND_CMD_RST
  ⟨0x50, 0, 1, 0x0, [⟨8, 8, .wo⟩, ⟨7, 0, .wo⟩]⟩,
  -- MBX_SEND_CMD_PF
  ⟨0x54, 0, 1, 0x0, [⟨8, 8, .wo⟩, ⟨7, 0, .wo⟩]⟩,
  -- MBX_SEND_CNT
  ⟨0x58, 0, 1, 0x0, [⟨31, 0, .clr⟩]⟩,
  -- MBX_COLLISION_CNT
  ⟨0x5C, 0, 1, 0x0, [⟨31, 0, .clr⟩]⟩,
  -- MBX_REFUSED_CNT
  ⟨0x60, 0, 1, 0x0, [⟨31, 0, .clr⟩]⟩,
  -- MBX_FWD_CNT
  ⟨0x64, 0, 1, 0x0, [⟨31, 0, .clr⟩]⟩,
  -- MBX_FWD_LOST_CNT
  ⟨0x68, 0, 1, 0x0, [⟨31, 0, .clr⟩]⟩,
  -- MBX_PRIV_POST_CNT
  ⟨0x6C, 0, 1, 0x0, [⟨31, 0, .clr⟩]⟩,
  -- MBX_PRIV_DROP_CNT
  ⟨0x70, 0, 1, 0x0, [⟨31, 0, .clr⟩]⟩,
  -- MBX_PRIV_DISCARD_CNT
  ⟨0x74, 0, 1, 0x0, [⟨31, 0, .clr⟩]⟩,
  -- MBX_DB_RING_CNT
  ⟨0x78, 0, 1, 0x0, [⟨31, 0, .clr⟩]⟩,
  -- MBX_PRIV_LAST
  ⟨0x7C, 0, 1, 0x0, [⟨31, 16, .ro⟩, ⟨14, 12, .ro⟩, ⟨11, 0, .ro⟩]⟩,
  -- MBX_SEND_STAGE_RST
  ⟨0x80, 4, 16, 0x0, [⟨31, 0, .rw⟩]⟩,
  -- MBX_SEND_STAGE_PF
  ⟨0xC0, 4, 16, 0x0, [⟨31, 0, .rw⟩]⟩
]

def RegMap.pg111 : List RegDef := [
  -- MBX_PRIV_POLICY
  ⟨0x40, 4, 128, 0x0, [⟨31, 0, .rwl⟩]⟩
]

def RegMap.pg112 : List RegDef := [
  -- MBX_MB_CTL
  ⟨0x40, 16, 32, 0x0, [⟨31, 31, .ro⟩, ⟨30, 30, .rw1c⟩, ⟨29, 29, .rwl⟩, ⟨28, 28, .rwl⟩, ⟨27, 20, .rwl⟩, ⟨19, 15, .rwl⟩]⟩,
  -- MBX_MB_CNT
  ⟨0x44, 16, 32, 0x0, [⟨31, 0, .ro⟩]⟩,
  -- MBX_MB_TAKE
  ⟨0x48, 16, 32, 0x0, [⟨31, 0, .wo⟩]⟩,
  -- MBX_MB_FWD
  ⟨0x4C, 16, 32, 0x0, [⟨23, 16, .rwl⟩, ⟨14, 0, .rwl⟩]⟩,
  -- MBX_MB_SLOT
  ⟨0x800, 4, 512, 0x0, [⟨31, 0, .ro⟩]⟩
]

def RegMap.pg11A : List RegDef := [
  -- MBX_DB_PEND
  ⟨0x40, 16, 129, 0x0, [⟨31, 0, .rw1c⟩]⟩,
  -- MBX_DB_MASK
  ⟨0x44, 16, 129, 0xFFFFFFFF, [⟨31, 0, .rw⟩]⟩,
  -- MBX_DB_WAKE
  ⟨0x48, 16, 129, 0x0, [⟨31, 0, .rw⟩]⟩,
  -- MBX_DB_RING
  ⟨0x4C, 16, 129, 0x0, [⟨31, 0, .wo⟩]⟩
]

def RegMap.pg130 : List RegDef := [
  -- RST_STATUS
  ⟨0x40, 0, 1, 0x0, [⟨27, 26, .ro⟩, ⟨25, 25, .ro⟩, ⟨24, 24, .ro⟩, ⟨23, 23, .ro⟩, ⟨22, 22, .ro⟩, ⟨21, 21, .ro⟩, ⟨20, 20, .ro⟩, ⟨19, 18, .ro⟩]⟩,
  -- RST_FW_VERSION
  ⟨0x44, 0, 1, 0x0, [⟨31, 0, .ro⟩]⟩,
  -- RST_TILE_UCODE_VERSION
  ⟨0x48, 0, 1, 0x0, [⟨31, 0, .ro⟩]⟩,
  -- RST_BOOT_COUNT
  ⟨0x4C, 0, 1, 0x0, [⟨31, 0, .ro⟩]⟩,
  -- RST_RESET_CAUSE
  ⟨0x50, 0, 1, 0x0, [⟨3, 0, .ro⟩]⟩,
  -- RST_VERSION_OVERRIDE
  ⟨0x54, 0, 1, 0x0, [⟨31, 16, .rws⟩, ⟨0, 0, .rws⟩]⟩,
  -- RST_RESET_REQ
  ⟨0x58, 0, 1, 0x0, [⟨31, 16, .rws⟩, ⟨0, 0, .rws⟩]⟩,
  -- RST_RESET_CNT
  ⟨0x5C, 0, 1, 0x0, [⟨31, 0, .ro⟩]⟩,
  -- RST_UNKNOWN_CNT
  ⟨0x60, 0, 1, 0x0, [⟨31, 0, .clr⟩]⟩
]

def RegMap.pg131 : List RegDef := [
  -- RST_UPD_ADDR_LO
  ⟨0x40, 0, 1, 0x0, [⟨31, 6, .rws⟩]⟩,
  -- RST_UPD_ADDR_HI
  ⟨0x44, 0, 1, 0x0, [⟨15, 0, .rws⟩]⟩,
  -- RST_UPD_SIZE
  ⟨0x48, 0, 1, 0x0, [⟨31, 0, .rws⟩]⟩,
  -- RST_UPD_CMD
  ⟨0x4C, 0, 1, 0x0, [⟨9, 8, .rws⟩, ⟨2, 0, .rws⟩]⟩,
  -- RST_UPD_STATUS
  ⟨0x50, 0, 1, 0x0, [⟨31, 31, .ro⟩, ⟨2, 0, .ro⟩]⟩,
  -- RST_UPD_RESULT
  ⟨0x54, 0, 1, 0x0, [⟨15, 0, .ro⟩]⟩,
  -- RST_SLOT_A
  ⟨0x58, 0, 1, 0x0, [⟨31, 16, .ro⟩, ⟨7, 7, .ro⟩, ⟨5, 4, .ro⟩, ⟨2, 0, .ro⟩]⟩,
  -- RST_SLOT_B
  ⟨0x5C, 0, 1, 0x0, [⟨31, 16, .ro⟩, ⟨7, 7, .ro⟩, ⟨5, 4, .ro⟩, ⟨2, 0, .ro⟩]⟩,
  -- RST_MIN_SVN
  ⟨0x70, 0, 1, 0x0, [⟨15, 0, .ro⟩]⟩,
  -- RST_KEY_REVOKED
  ⟨0x74, 0, 1, 0x0, [⟨3, 0, .ro⟩]⟩,
  -- RST_SLOT_A_RST_FW
  ⟨0x60, 0, 1, 0x0, [⟨31, 0, .ro⟩]⟩,
  -- RST_SLOT_A_UCODE
  ⟨0x64, 0, 1, 0x0, [⟨31, 0, .ro⟩]⟩,
  -- RST_SLOT_B_RST_FW
  ⟨0x68, 0, 1, 0x0, [⟨31, 0, .ro⟩]⟩,
  -- RST_SLOT_B_UCODE
  ⟨0x6C, 0, 1, 0x0, [⟨31, 0, .ro⟩]⟩
]

def RegMap.pg132 : List RegDef := [
  -- RST_TS
  ⟨0x40, 4, 32, 0x0, [⟨16, 16, .ro⟩, ⟨15, 0, .ro⟩]⟩,
  -- RST_TEMP_MAX
  ⟨0xC0, 0, 1, 0x0, [⟨29, 24, .ro⟩, ⟨20, 16, .ro⟩, ⟨15, 0, .ro⟩]⟩,
  -- RST_VMON
  ⟨0xC4, 4, 12, 0x0, [⟨15, 0, .ro⟩]⟩,
  -- RST_CLK_MON
  ⟨0xF4, 0, 1, 0x0, [⟨2, 0, .ro⟩]⟩,
  -- RST_SHOCK_RAW
  ⟨0xF8, 0, 1, 0xFF, [⟨15, 8, .clr⟩, ⟨7, 0, .ro⟩]⟩,
  -- RST_COOLANT
  ⟨0xFC, 0, 1, 0x0, [⟨16, 16, .ro⟩, ⟨15, 0, .ro⟩]⟩,
  -- RST_SHOCK_CFG
  ⟨0x100, 0, 1, 0x0, [⟨23, 16, .rwl⟩, ⟨15, 8, .rwl⟩, ⟨7, 7, .rwl⟩, ⟨6, 0, .rwl⟩]⟩,
  -- RST_COOL_CFG
  ⟨0x104, 0, 1, 0x0, [⟨15, 8, .rwl⟩, ⟨7, 7, .rwl⟩, ⟨6, 0, .rwl⟩]⟩,
  -- RST_I3C_ERR_CNT_0
  ⟨0x108, 0, 1, 0x0, [⟨31, 0, .clr⟩]⟩,
  -- RST_I3C_ERR_CNT_1
  ⟨0x10C, 0, 1, 0x0, [⟨31, 0, .clr⟩]⟩
]

def RegMap.pg133 : List RegDef := [
  -- RST_LOG_CFG
  ⟨0x40, 0, 1, 0x6402, [⟨15, 8, .rwl⟩, ⟨1, 0, .rwl⟩]⟩,
  -- RST_LOG_SEL
  ⟨0x44, 0, 1, 0x0, [⟨0, 0, .rwl⟩]⟩,
  -- RST_LOG_INDEX
  ⟨0x48, 0, 1, 0x0, [⟨31, 0, .rwl⟩]⟩,
  -- RST_LOG_CMD
  ⟨0x4C, 0, 1, 0x0, [⟨0, 0, .wo⟩]⟩,
  -- RST_LOG_STATUS
  ⟨0x50, 0, 1, 0x0, [⟨31, 31, .ro⟩, ⟨1, 0, .ro⟩]⟩,
  -- RST_LOG_ENTRY
  ⟨0x54, 4, 8, 0x0, [⟨31, 0, .ro⟩]⟩,
  -- RST_LOG_NEWEST_SEQ
  ⟨0x74, 0, 1, 0x0, [⟨31, 0, .ro⟩]⟩,
  -- RST_LOG_OLDEST_SEQ
  ⟨0x78, 0, 1, 0x0, [⟨31, 0, .ro⟩]⟩,
  -- RST_BB_NEWEST
  ⟨0x7C, 0, 1, 0x0, [⟨12, 0, .ro⟩]⟩,
  -- RST_BB_PASS_CNT
  ⟨0x80, 0, 1, 0x0, [⟨31, 0, .ro⟩]⟩,
  -- RST_RING_LOST_CNT
  ⟨0x84, 0, 1, 0x0, [⟨31, 0, .clr⟩]⟩,
  -- RST_BB_SKIP_CNT
  ⟨0x88, 0, 1, 0x0, [⟨31, 0, .clr⟩]⟩,
  -- RST_BB_FAIL_CNT
  ⟨0x8C, 0, 1, 0x0, [⟨31, 0, .clr⟩]⟩
]

def RegMap.pg134 : List RegDef := [
  -- RST_DBG_STATUS
  ⟨0x40, 0, 1, 0x0, [⟨31, 16, .ro⟩, ⟨9, 9, .ro⟩, ⟨8, 8, .ro⟩, ⟨5, 4, .ro⟩, ⟨1, 0, .ro⟩]⟩,
  -- RST_DBG_FAIL_CNT
  ⟨0x44, 0, 1, 0x0, [⟨31, 0, .clr⟩]⟩,
  -- RST_DBG_OPEN_CNT
  ⟨0x48, 0, 1, 0x0, [⟨31, 0, .clr⟩]⟩,
  -- RST_DBG_CFG
  ⟨0x4C, 0, 1, 0x7, [⟨2, 1, .rws⟩, ⟨0, 0, .rws⟩]⟩
]

def RegMap.pg150 : List RegDef := [
  -- PWR_STATE
  ⟨0x40, 0, 1, 0x0, [⟨9, 8, .ro⟩, ⟨1, 0, .ro⟩]⟩,
  -- PWR_REQ
  ⟨0x44, 0, 1, 0x0, [⟨1, 0, .rws⟩]⟩,
  -- PWR_TRIM_CFG
  ⟨0x48, 0, 1, 0x3E8, [⟨10, 0, .rws⟩]⟩,
  -- PWR_CORE_LIMIT
  ⟨0x4C, 0, 1, 0x0, [⟨16, 11, .ro⟩, ⟨10, 0, .ro⟩]⟩,
  -- PWR_THERM_STATUS
  ⟨0x50, 0, 1, 0x18, [⟨31, 16, .ro⟩, ⟨15, 8, .ro⟩, ⟨7, 6, .ro⟩, ⟨5, 3, .ro⟩, ⟨1, 0, .ro⟩]⟩,
  -- PWR_WAKE_CFG
  ⟨0x54, 0, 1, 0x10000, [⟨17, 17, .rws⟩, ⟨16, 16, .rws⟩, ⟨15, 0, .rws⟩]⟩,
  -- PWR_WAKE_CAUSE
  ⟨0x58, 0, 1, 0x0, [⟨2, 0, .rw1c⟩]⟩,
  -- PWR_WAKE_INFO
  ⟨0x5C, 0, 1, 0x0, [⟨31, 0, .ro⟩]⟩,
  -- PWR_SENTRY_CFG
  ⟨0x60, 0, 1, 0x1F40400, [⟨31, 16, .rws⟩, ⟨12, 12, .rws⟩, ⟨10, 8, .rws⟩, ⟨5, 0, .rws⟩]⟩,
  -- PWR_SENTRY_WIN
  ⟨0x64, 0, 1, 0x40000205, [⟨31, 16, .rws⟩, ⟨15, 8, .rws⟩, ⟨7, 0, .rws⟩]⟩,
  -- PWR_SENTRY_BUF
  ⟨0x68, 0, 1, 0xA0000, [⟨20, 0, .rws⟩]⟩,
  -- PWR_SENTRY_PROG
  ⟨0x6C, 0, 1, 0x140000, [⟨20, 0, .rws⟩]⟩,
  -- PWR_TRANSITION_CNT
  ⟨0x70, 0, 1, 0x0, [⟨31, 0, .clr⟩]⟩,
  -- PWR_SENTRY_WIN_CNT
  ⟨0x74, 0, 1, 0x0, [⟨31, 0, .clr⟩]⟩,
  -- PWR_SENTRY_SKIP_CNT
  ⟨0x78, 0, 1, 0x0, [⟨31, 0, .clr⟩]⟩,
  -- PWR_SENTRY_OVERRUN_CNT
  ⟨0x7C, 0, 1, 0x0, [⟨31, 0, .clr⟩]⟩
]

def RegMap.pg151 : List RegDef := [
  -- PWR_THERM_CFG_A
  ⟨0x40, 0, 1, 0x578, [⟨17, 16, .rws⟩, ⟨10, 0, .rws⟩]⟩,
  -- PWR_THERM_CFG_B
  ⟨0x44, 0, 1, 0x103E8, [⟨17, 16, .rws⟩, ⟨10, 0, .rws⟩]⟩,
  -- PWR_THERM_CFG_C
  ⟨0x48, 0, 1, 0x15E, [⟨10, 0, .rws⟩]⟩,
  -- PWR_THERM_CAP
  ⟨0x4C, 0, 1, 0x0, [⟨1, 0, .ro⟩]⟩,
  -- PWR_THERM_CHANGE_CNT
  ⟨0x50, 0, 1, 0x0, [⟨31, 0, .clr⟩]⟩,
  -- PWR_THERM_UNLOGGED_CNT
  ⟨0x54, 0, 1, 0x0, [⟨31, 0, .clr⟩]⟩,
  -- PWR_COOL_CHANGE_CNT
  ⟨0x58, 0, 1, 0x0, [⟨31, 0, .clr⟩]⟩
]

def RegMap.pg152 : List RegDef := [
  -- PWR_VREQ
  ⟨0x40, 0, 1, 0x0, [⟨31, 16, .ro⟩, ⟨15, 0, .ro⟩]⟩,
  -- PWR_CORE_MAX
  ⟨0x44, 0, 1, 0x0, [⟨10, 0, .ro⟩]⟩,
  -- PWR_AGE_STATUS
  ⟨0x48, 0, 1, 0x0, [⟨23, 16, .ro⟩, ⟨15, 0, .ro⟩]⟩
]

def RegMap.pg160 : List RegDef := [
  -- SAF_STATUS
  ⟨0x40, 0, 1, 0x33, [⟨10, 8, .ro⟩, ⟨5, 5, .ro⟩, ⟨4, 4, .ro⟩, ⟨1, 0, .ro⟩]⟩,
  -- SAF_ACTIVE
  ⟨0x44, 0, 1, 0x1, [⟨27, 0, .ro⟩]⟩,
  -- SAF_ESC_LIVE
  ⟨0x48, 0, 1, 0x0, [⟨27, 0, .ro⟩]⟩,
  -- SAF_FIRST
  ⟨0x4C, 0, 1, 0x0, [⟨20, 16, .ro⟩, ⟨15, 0, .ro⟩]⟩,
  -- SAF_REQ
  ⟨0x58, 0, 1, 0x0, [⟨31, 16, .wo⟩, ⟨1, 1, .wo⟩, ⟨0, 0, .wo⟩]⟩,
  -- SAF_REQ_RESULT
  ⟨0x5C, 0, 1, 0x0, [⟨31, 31, .ro⟩, ⟨15, 0, .ro⟩]⟩,
  -- SAF_SAFE_ENTRY_CNT
  ⟨0x60, 0, 1, 0x0, [⟨31, 0, .clr⟩]⟩,
  -- SAF_WD_FIRE_CNT
  ⟨0x64, 0, 1, 0x0, [⟨31, 0, .clr⟩]⟩,
  -- SAF_E2E_CHECK_CNT
  ⟨0x68, 0, 1, 0x0, [⟨31, 0, .clr⟩]⟩,
  -- SAF_E2E_SKIP_CNT
  ⟨0x6C, 0, 1, 0x0, [⟨31, 0, .clr⟩]⟩,
  -- SAF_REDUND_MISMATCH_CNT
  ⟨0x70, 0, 1, 0x0, [⟨31, 0, .clr⟩]⟩,
  -- SAF_REDUND_SINGLE_CNT
  ⟨0x74, 0, 1, 0x0, [⟨31, 0, .clr⟩]⟩,
  -- SAF_E2E_FRAME
  ⟨0x78, 0, 1, 0x0, [⟨31, 0, .ro⟩]⟩,
  -- SAF_FIRST_TS_LO
  ⟨0x50, 0, 1, 0x0, [⟨31, 0, .ro⟩]⟩,
  -- SAF_FIRST_TS_HI
  ⟨0x54, 0, 1, 0x0, [⟨31, 0, .ro⟩]⟩
]

def RegMap.pg161 : List RegDef := [
  -- SAF_WD_STATUS
  ⟨0x40, 0, 1, 0x0, [⟨8, 8, .ro⟩, ⟨3, 0, .ro⟩]⟩,
  -- SAF_REDUND_STATUS
  ⟨0x44, 0, 1, 0x0, [⟨7, 0, .ro⟩]⟩
]

def RegMap.pg162 : List RegDef := [
  -- SAF_INJ_CTL
  ⟨0x40, 0, 1, 0x0, [⟨16, 16, .rw1s⟩, ⟨13, 8, .rw⟩, ⟨7, 0, .rw⟩]⟩,
  -- SAF_INJ_DATA
  ⟨0x44, 0, 1, 0x0, [⟨15, 0, .rw⟩]⟩,
  -- SAF_INJ_CNT
  ⟨0x48, 0, 1, 0x0, [⟨31, 0, .clr⟩]⟩
]

def RegMap.pg200_0 : List RegDef := [
  -- ZAFE_A, zone 0
  ⟨0x40, 0, 1, 0x60, [⟨21, 16, .rwp⟩, ⟨15, 8, .rwp⟩, ⟨7, 0, .rwp⟩]⟩,
  -- ZAFE_A, zone 1
  ⟨0x60, 0, 1, 0x68, [⟨21, 16, .rwp⟩, ⟨15, 8, .rwp⟩, ⟨7, 0, .rwp⟩]⟩,
  -- ZAFE_A, zone 2
  ⟨0x80, 0, 1, 0x70, [⟨21, 16, .rwp⟩, ⟨15, 8, .rwp⟩, ⟨7, 0, .rwp⟩]⟩,
  -- ZAFE_A, zone 3
  ⟨0xA0, 0, 1, 0x78, [⟨21, 16, .rwp⟩, ⟨15, 8, .rwp⟩, ⟨7, 0, .rwp⟩]⟩,
  -- ZAFE_A, zone 4
  ⟨0xC0, 0, 1, 0x64, [⟨21, 16, .rwp⟩, ⟨15, 8, .rwp⟩, ⟨7, 0, .rwp⟩]⟩,
  -- ZAFE_B, zone 0
  ⟨0x44, 0, 1, 0x410, [⟨12, 8, .rwp⟩, ⟨5, 0, .rwp⟩]⟩,
  -- ZAFE_B, zone 1
  ⟨0x64, 0, 1, 0x828, [⟨12, 8, .rwp⟩, ⟨5, 0, .rwp⟩]⟩,
  -- ZAFE_B, zone 2
  ⟨0x84, 0, 1, 0xC3C, [⟨12, 8, .rwp⟩, ⟨5, 0, .rwp⟩]⟩,
  -- ZAFE_B, zone 3
  ⟨0xA4, 0, 1, 0x123F, [⟨12, 8, .rwp⟩, ⟨5, 0, .rwp⟩]⟩,
  -- ZAFE_B, zone 4
  ⟨0xC4, 0, 1, 0x103F, [⟨12, 8, .rwp⟩, ⟨5, 0, .rwp⟩]⟩,
  -- ZTARGET, zone 0
  ⟨0x48, 0, 1, 0x38008, [⟨29, 0, .rwp⟩]⟩,
  -- ZTARGET, zone 1
  ⟨0x68, 0, 1, 0xE38208, [⟨29, 0, .rwp⟩]⟩,
  -- ZTARGET, zone 2
  ⟨0x88, 0, 1, 0x38C00408, [⟨29, 0, .rwp⟩]⟩,
  -- ZTARGET, zone 3
  ⟨0xA8, 0, 1, 0x38C00408, [⟨29, 0, .rwp⟩]⟩,
  -- ZTARGET, zone 4
  ⟨0xC8, 0, 1, 0xE38208, [⟨29, 0, .rwp⟩]⟩,
  -- ZFIR_A, zone 0
  ⟨0x4C, 0, 1, 0x30000000, [⟨31, 0, .rwp⟩]⟩,
  -- ZFIR_A, zone 1
  ⟨0x6C, 0, 1, 0x30000000, [⟨31, 0, .rwp⟩]⟩,
  -- ZFIR_A, zone 2
  ⟨0x8C, 0, 1, 0x30000000, [⟨31, 0, .rwp⟩]⟩,
  -- ZFIR_A, zone 3
  ⟨0xAC, 0, 1, 0x30000000, [⟨31, 0, .rwp⟩]⟩,
  -- ZFIR_A, zone 4
  ⟨0xCC, 0, 1, 0x30000000, [⟨31, 0, .rwp⟩]⟩,
  -- ZFIR_B, zone 0
  ⟨0x50, 0, 1, 0x0, [⟨31, 0, .rwp⟩]⟩,
  -- ZFIR_B, zone 1
  ⟨0x70, 0, 1, 0x0, [⟨31, 0, .rwp⟩]⟩,
  -- ZFIR_B, zone 2
  ⟨0x90, 0, 1, 0x0, [⟨31, 0, .rwp⟩]⟩,
  -- ZFIR_B, zone 3
  ⟨0xB0, 0, 1, 0x0, [⟨31, 0, .rwp⟩]⟩
]

def RegMap.pg200_1 : List RegDef := [
  -- ZFIR_B, zone 4
  ⟨0xD0, 0, 1, 0x0, [⟨31, 0, .rwp⟩]⟩,
  -- ZFIR_C, zone 0
  ⟨0x54, 0, 1, 0x30000, [⟨19, 16, .rwp⟩, ⟨15, 0, .rwp⟩]⟩,
  -- ZFIR_C, zone 1
  ⟨0x74, 0, 1, 0x30000, [⟨19, 16, .rwp⟩, ⟨15, 0, .rwp⟩]⟩,
  -- ZFIR_C, zone 2
  ⟨0x94, 0, 1, 0x30000, [⟨19, 16, .rwp⟩, ⟨15, 0, .rwp⟩]⟩,
  -- ZFIR_C, zone 3
  ⟨0xB4, 0, 1, 0x30000, [⟨19, 16, .rwp⟩, ⟨15, 0, .rwp⟩]⟩,
  -- ZFIR_C, zone 4
  ⟨0xD4, 0, 1, 0x30000, [⟨19, 16, .rwp⟩, ⟨15, 0, .rwp⟩]⟩,
  -- ZLOOP_A, zone 0
  ⟨0x58, 0, 1, 0x8354, [⟨15, 12, .rwp⟩, ⟨11, 8, .rwp⟩, ⟨7, 4, .rwp⟩, ⟨3, 0, .rwp⟩]⟩,
  -- ZLOOP_A, zone 1
  ⟨0x78, 0, 1, 0x8354, [⟨15, 12, .rwp⟩, ⟨11, 8, .rwp⟩, ⟨7, 4, .rwp⟩, ⟨3, 0, .rwp⟩]⟩,
  -- ZLOOP_A, zone 2
  ⟨0x98, 0, 1, 0x8354, [⟨15, 12, .rwp⟩, ⟨11, 8, .rwp⟩, ⟨7, 4, .rwp⟩, ⟨3, 0, .rwp⟩]⟩,
  -- ZLOOP_A, zone 3
  ⟨0xB8, 0, 1, 0x8354, [⟨15, 12, .rwp⟩, ⟨11, 8, .rwp⟩, ⟨7, 4, .rwp⟩, ⟨3, 0, .rwp⟩]⟩,
  -- ZLOOP_A, zone 4
  ⟨0xD8, 0, 1, 0x8354, [⟨15, 12, .rwp⟩, ⟨11, 8, .rwp⟩, ⟨7, 4, .rwp⟩, ⟨3, 0, .rwp⟩]⟩,
  -- ZLOOP_B, zone 0
  ⟨0x5C, 0, 1, 0x18D33969, [⟨29, 25, .rwp⟩, ⟨24, 20, .rwp⟩, ⟨19, 15, .rwp⟩, ⟨14, 10, .rwp⟩, ⟨9, 5, .rwp⟩, ⟨4, 0, .rwp⟩]⟩,
  -- ZLOOP_B, zone 1
  ⟨0x7C, 0, 1, 0x18D33969, [⟨29, 25, .rwp⟩, ⟨24, 20, .rwp⟩, ⟨19, 15, .rwp⟩, ⟨14, 10, .rwp⟩, ⟨9, 5, .rwp⟩, ⟨4, 0, .rwp⟩]⟩,
  -- ZLOOP_B, zone 2
  ⟨0x9C, 0, 1, 0x18D33969, [⟨29, 25, .rwp⟩, ⟨24, 20, .rwp⟩, ⟨19, 15, .rwp⟩, ⟨14, 10, .rwp⟩, ⟨9, 5, .rwp⟩, ⟨4, 0, .rwp⟩]⟩,
  -- ZLOOP_B, zone 3
  ⟨0xBC, 0, 1, 0x18D33969, [⟨29, 25, .rwp⟩, ⟨24, 20, .rwp⟩, ⟨19, 15, .rwp⟩, ⟨14, 10, .rwp⟩, ⟨9, 5, .rwp⟩, ⟨4, 0, .rwp⟩]⟩,
  -- ZLOOP_B, zone 4
  ⟨0xDC, 0, 1, 0x18D33969, [⟨29, 25, .rwp⟩, ⟨24, 20, .rwp⟩, ⟨19, 15, .rwp⟩, ⟨14, 10, .rwp⟩, ⟨9, 5, .rwp⟩, ⟨4, 0, .rwp⟩]⟩
]

def RegMap.pg200 : List RegDef := RegMap.pg200_0 ++ RegMap.pg200_1

def RegMap.pg208 : List RegDef := [
  -- ROT_A
  ⟨0x40, 0, 1, 0x4000, [⟨31, 16, .rwp⟩, ⟨15, 0, .rwp⟩]⟩,
  -- ROT_B
  ⟨0x44, 0, 1, 0x0, [⟨31, 16, .rwp⟩, ⟨15, 0, .rwp⟩]⟩,
  -- ROT_C
  ⟨0x48, 0, 1, 0x4000, [⟨31, 16, .rwp⟩, ⟨15, 0, .rwp⟩]⟩,
  -- ROT_D
  ⟨0x4C, 0, 1, 0x0, [⟨31, 16, .rwp⟩, ⟨15, 0, .rwp⟩]⟩,
  -- ROT_E
  ⟨0x50, 0, 1, 0x4000, [⟨15, 0, .rwp⟩]⟩,
  -- TRANS_A
  ⟨0x54, 0, 1, 0x0, [⟨31, 16, .rwp⟩, ⟨15, 0, .rwp⟩]⟩,
  -- TRANS_B
  ⟨0x58, 0, 1, 0x0, [⟨31, 16, .rwp⟩, ⟨15, 0, .rwp⟩]⟩,
  -- LSB_A
  ⟨0x5C, 0, 1, 0x0, [⟨31, 16, .rwp⟩, ⟨15, 0, .rwp⟩]⟩,
  -- LSB_B
  ⟨0x60, 0, 1, 0x0, [⟨31, 16, .rwp⟩, ⟨15, 0, .rwp⟩]⟩,
  -- BEAMS
  ⟨0x64, 0, 1, 0x0, [⟨7, 0, .rwp⟩]⟩,
  -- HEAD_ID_EXPECT
  ⟨0x68, 0, 1, 0x0, [⟨31, 0, .rwp⟩]⟩,
  -- BEAM_A
  ⟨0x80, 16, 128, 0x0, [⟨31, 16, .rwp⟩, ⟨15, 0, .rwp⟩]⟩,
  -- BEAM_B
  ⟨0x84, 16, 128, 0x0, [⟨31, 16, .rwp⟩, ⟨15, 0, .rwp⟩]⟩,
  -- BEAM_C
  ⟨0x88, 16, 128, 0x0, [⟨31, 16, .rwp⟩, ⟨15, 0, .rwp⟩]⟩,
  -- BEAM_D
  ⟨0x8C, 16, 128, 0x800000, [⟨23, 16, .rwp⟩, ⟨15, 0, .rwp⟩]⟩
]

def RegMap.pg210 : List RegDef := [
  -- PSV_STATUS
  ⟨0x40, 0, 1, 0x0, [⟨23, 16, .ro⟩, ⟨15, 8, .ro⟩, ⟨7, 7, .ro⟩, ⟨6, 6, .ro⟩, ⟨4, 0, .ro⟩]⟩,
  -- PSV_WEAR_WARN
  ⟨0x44, 0, 1, 0x27100, [⟨17, 0, .rwl⟩]⟩,
  -- PSV_WEAR_SEL
  ⟨0x48, 0, 1, 0x2000000, [⟨31, 31, .rw⟩, ⟨25, 16, .rw⟩, ⟨10, 0, .rw⟩]⟩,
  -- PSV_WEAR_DATA
  ⟨0x4C, 0, 1, 0x0, [⟨31, 28, .ro⟩, ⟨25, 25, .ro⟩, ⟨23, 0, .ro⟩]⟩,
  -- PSV_WARN_CNT
  ⟨0x50, 0, 1, 0x0, [⟨31, 0, .ro⟩]⟩,
  -- PSV_EXHAUSTED_CNT
  ⟨0x54, 0, 1, 0x0, [⟨31, 0, .ro⟩]⟩,
  -- PSV_MAX_WEAR
  ⟨0x58, 0, 1, 0x0, [⟨23, 0, .ro⟩]⟩,
  -- PSV_MAX_WHERE
  ⟨0x5C, 0, 1, 0x0, [⟨31, 31, .ro⟩, ⟨25, 16, .ro⟩, ⟨10, 0, .ro⟩]⟩,
  -- PSV_INTERRUPT_LAST
  ⟨0x60, 0, 1, 0x0, [⟨31, 0, .ro⟩]⟩,
  -- PSV_COMMIT_CNT
  ⟨0x64, 0, 1, 0x0, [⟨31, 0, .clr⟩]⟩,
  -- PSV_ELIDED_CNT
  ⟨0x68, 0, 1, 0x0, [⟨31, 0, .clr⟩]⟩,
  -- PSV_BUSY_CNT
  ⟨0x6C, 0, 1, 0x0, [⟨31, 0, .clr⟩]⟩,
  -- PSV_INHIBIT_CNT
  ⟨0x70, 0, 1, 0x0, [⟨31, 0, .clr⟩]⟩,
  -- PSV_PROGRAM_FAIL_CNT
  ⟨0x74, 0, 1, 0x0, [⟨31, 0, .clr⟩]⟩
]

def RegMap.pg211 : List RegDef := [
  -- PSV_POWER_ON_CNT
  ⟨0x40, 0, 1, 0x0, [⟨31, 0, .ro⟩]⟩,
  -- PSV_SAFE_CNT
  ⟨0x44, 0, 1, 0x0, [⟨31, 0, .ro⟩]⟩,
  -- PSV_RUN_S
  ⟨0x48, 0, 1, 0x0, [⟨31, 0, .ro⟩]⟩,
  -- PSV_TRIM_S
  ⟨0x4C, 0, 1, 0x0, [⟨31, 0, .ro⟩]⟩,
  -- PSV_SENTRY_S
  ⟨0x50, 0, 1, 0x0, [⟨31, 0, .ro⟩]⟩,
  -- PSV_PARKED_S
  ⟨0x54, 0, 1, 0x0, [⟨31, 0, .ro⟩]⟩,
  -- PSV_WARN_S
  ⟨0x58, 0, 1, 0x0, [⟨31, 0, .ro⟩]⟩,
  -- PSV_THROT_S
  ⟨0x5C, 0, 1, 0x0, [⟨31, 0, .ro⟩]⟩,
  -- PSV_CRIT_S
  ⟨0x60, 0, 1, 0x0, [⟨31, 0, .ro⟩]⟩,
  -- PSV_TRIP_CNT
  ⟨0x64, 0, 1, 0x0, [⟨31, 0, .ro⟩]⟩,
  -- PSV_TJ_MAX
  ⟨0x68, 0, 1, 0x8000, [⟨15, 0, .ro⟩]⟩,
  -- PSV_COOLANT_MAX
  ⟨0x6C, 0, 1, 0x8000, [⟨15, 0, .ro⟩]⟩
]

def RegMap.pg212 : List RegDef := [
  -- PSV_VF_A
  ⟨0x40, 0, 1, 0x0, [⟨31, 16, .ro⟩, ⟨15, 0, .ro⟩]⟩,
  -- PSV_VF_B
  ⟨0x44, 0, 1, 0x0, [⟨31, 16, .ro⟩, ⟨15, 0, .ro⟩]⟩,
  -- PSV_VF_C
  ⟨0x48, 0, 1, 0x0, [⟨15, 0, .ro⟩]⟩
]

def RegMap.pg213 : List RegDef := [
  -- PSV_AGE_A
  ⟨0x40, 0, 1, 0x0, [⟨7, 0, .ro⟩]⟩,
  -- PSV_AGE_B
  ⟨0x44, 0, 1, 0x0, [⟨31, 0, .ro⟩]⟩
]

def RegMap.pg218 : List RegDef := [
  -- PSV_SAF_ESCALATE
  ⟨0x40, 0, 1, 0x0, [⟨27, 11, .rwp⟩]⟩,
  -- PSV_SAF_WD
  ⟨0x44, 0, 1, 0x1F40202, [⟨31, 16, .rwp⟩, ⟨11, 8, .rwp⟩, ⟨1, 1, .rwp⟩, ⟨0, 0, .rwp⟩]⟩,
  -- PSV_SAF_REDUND
  ⟨0x48, 0, 1, 0x0, [⟨7, 0, .rwp⟩]⟩,
  -- PSV_GPIO_SAFE
  ⟨0x50, 0, 1, 0x0, [⟨31, 16, .rwp⟩, ⟨15, 0, .rwp⟩]⟩
]

def RegMap.pg220 : List RegDef := [
  -- PSV_USER
  ⟨0x40, 4, 1008, 0x0, [⟨31, 0, .rwp⟩]⟩
]

def RegMap.pg1000 : List RegDef := [
  -- CTX_INFO
  ⟨0x0, 0, 1, 0x0, [⟨21, 16, .ro⟩, ⟨11, 0, .ro⟩]⟩,
  -- CTX_STATUS
  ⟨0x4, 0, 1, 0x0, [⟨2, 0, .ro⟩]⟩,
  -- CTX_CTL
  ⟨0x8, 0, 1, 0x0, [⟨0, 0, .wo⟩]⟩,
  -- CTX_FAULT_CODE
  ⟨0xC, 0, 1, 0x0, [⟨15, 0, .ro⟩]⟩,
  -- CTX_RING_TAIL
  ⟨0x10, 8, 2, 0x0, [⟨15, 0, .rw⟩]⟩,
  -- CTX_RING_HEAD
  ⟨0x14, 8, 2, 0x0, [⟨15, 0, .ro⟩]⟩,
  -- CTX_JOB_CNT
  ⟨0x20, 0, 1, 0x0, [⟨31, 0, .ro⟩]⟩,
  -- CTX_ERR_CNT
  ⟨0x24, 0, 1, 0x0, [⟨31, 0, .ro⟩]⟩
]

/-- The registers of a page at 0x40 and above (R49, Table 2-2); none on a reserved page. -/
def pageRegs (p : Nat) : List RegDef :=
  if p == 0x0 then RegMap.pg000 else
  if p == 0x1 then RegMap.pg001 else
  if p == 0x2 then RegMap.pg002 else
  if p == 0x10 then RegMap.pg010 else
  if p == 0x11 then RegMap.pg011 else
  if Nat.ble 0x20 p && Nat.blt p 0x40 && (p - 0x20) % 4 == 0 then RegMap.pg020 else
  if Nat.ble 0x21 p && Nat.blt p 0x41 && (p - 0x21) % 4 == 0 then RegMap.pg021 else
  if Nat.ble 0x22 p && Nat.blt p 0x42 && (p - 0x22) % 4 == 0 then RegMap.pg022 else
  if Nat.ble 0x23 p && Nat.blt p 0x43 && (p - 0x23) % 4 == 0 then RegMap.pg023 else
  if p == 0x40 then RegMap.pg040 else
  if p == 0x41 then RegMap.pg041 else
  if p == 0x50 then RegMap.pg050 else
  if p == 0x60 then RegMap.pg060 else
  if p == 0x61 then RegMap.pg061 else
  if Nat.ble 0x80 p && Nat.blt p 0xC0 then RegMap.pg080 else
  if p == 0xC0 then RegMap.pg0C0 else
  if Nat.ble 0xC2 p && Nat.blt p 0xD0 && (p - 0xC2) % 2 == 0 then RegMap.pg0C2 else
  if Nat.ble 0xC1 p && Nat.blt p 0xD1 && (p - 0xC1) % 2 == 0 then RegMap.pg0C1 else
  if p == 0xD0 then RegMap.pg0D0 else
  if p == 0xD1 then RegMap.pg0D1 else
  if p == 0xD2 then RegMap.pg0D2 else
  if Nat.ble 0xF0 p && Nat.blt p 0xFC && (p - 0xF0) % 2 == 0 then RegMap.pg0F0 else
  if p == 0xFC || p == 0xFE then RegMap.pg0FC else
  if p == 0xF1 then RegMap.pg0F1 else
  if p == 0x100 then RegMap.pg100 else
  if p == 0x101 then RegMap.pg101 else
  if Nat.ble 0x102 p && Nat.blt p 0x10A then RegMap.pg102 else
  if p == 0x10A then RegMap.pg10A else
  if p == 0x10B then RegMap.pg10B else
  if p == 0x110 then RegMap.pg110 else
  if p == 0x111 then RegMap.pg111 else
  if Nat.ble 0x112 p && Nat.blt p 0x11A then RegMap.pg112 else
  if p == 0x11A then RegMap.pg11A else
  if p == 0x130 then RegMap.pg130 else
  if p == 0x131 then RegMap.pg131 else
  if p == 0x132 then RegMap.pg132 else
  if p == 0x133 then RegMap.pg133 else
  if p == 0x134 then RegMap.pg134 else
  if p == 0x150 then RegMap.pg150 else
  if p == 0x151 then RegMap.pg151 else
  if p == 0x152 then RegMap.pg152 else
  if p == 0x160 then RegMap.pg160 else
  if p == 0x161 then RegMap.pg161 else
  if p == 0x162 then RegMap.pg162 else
  if Nat.ble 0x200 p && Nat.blt p 0x208 then RegMap.pg200 else
  if Nat.ble 0x208 p && Nat.blt p 0x210 then RegMap.pg208 else
  if p == 0x210 then RegMap.pg210 else
  if p == 0x211 then RegMap.pg211 else
  if p == 0x212 then RegMap.pg212 else
  if p == 0x213 then RegMap.pg213 else
  if p == 0x218 then RegMap.pg218 else
  if Nat.ble 0x220 p && Nat.blt p 0x260 then RegMap.pg220 else
  if Nat.ble 0x1000 p && Nat.blt p 0x2000 then RegMap.pg1000 else
  []

end Sys2Proof.Machine
end

