-- ==== Sys2Proof/Machine/Sparse.lean ====
section
/-! DEFINITION. Sparse maps: a list of (key, value) pairs with the keys strictly rising and no pair equal to
what an unlisted key reads as. The register file, the page headers, the instances of a block and every
memory are kept in this one form, so that equal contents are equal data. -/

namespace Sys2Proof.Machine

/-- A sparse map from keys to values; `d` (an argument of its operations) says what an unlisted key reads as. -/
abbrev Sparse (α : Type) := List (Nat × α)

variable {α : Type}

/-- The value at key `a`. -/
def Sparse.get (d : Nat → α) : Sparse α → Nat → α
  | [], a => d a
  | (k, v) :: t, a => if k = a then v else Sparse.get d t a

/-- Insertion at the place the rising order gives. -/
def Sparse.put : Sparse α → Nat → α → Sparse α
  | [], a, v => [(a, v)]
  | (k, w) :: t, a, v =>
    if a < k then (a, v) :: (k, w) :: t
    else if k = a then (a, v) :: t
    else (k, w) :: Sparse.put t a v

/-- Removal of every pair with key `a`. -/
def Sparse.erase (m : Sparse α) (a : Nat) : Sparse α := m.filter (fun p => p.1 ≠ a)

/-- Write of `v` at key `a`; writing what an unlisted key reads as removes the pair. -/
def Sparse.set [DecidableEq α] (d : Nat → α) (m : Sparse α) (a : Nat) (v : α) : Sparse α :=
  if v = d a then Sparse.erase m a else Sparse.put m a v

/-- Removal of every pair whose key satisfies `p`: those keys read as unlisted again. -/
def Sparse.drop (m : Sparse α) (p : Nat → Bool) : Sparse α := m.filter (fun x => !p x.1)

/-- The keys rise strictly. -/
def Sparse.sorted : Sparse α → Bool
  | [] => true
  | [_] => true
  | (k, _) :: (k', w) :: t => decide (k < k') && Sparse.sorted ((k', w) :: t)

/-- The canonical form: strictly rising keys, and no pair equal to what the key reads as unlisted. -/
def Sparse.wf [DecidableEq α] (d : Nat → α) (m : Sparse α) : Bool :=
  Sparse.sorted m && m.all (fun p => decide (p.2 ≠ d p.1))

end Sys2Proof.Machine
end

