-- ==== Sys2Proof/Machine/State.lean ====
section
/-! DEFINITION. The state of the block: every register, queue, buffer, counter, mode and pin that spec/ gives it,
and the queue of waiting commands. Plain data throughout. -/

namespace Sys2Proof.Machine

/-- No command of the spec stops the machine: an error is recorded on a page (R84). The type has no
constructor a meaning uses; it is the closed list of the reasons a step could stop with a fault. -/
inductive Fault where
  /-- Raised by no meaning (safe): the spec names no stop of the part. -/
  | none
  deriving DecidableEq, Repr

/-- Reasons for which a step refuses a command. -/
inductive Refusal where
  /-- Raised by Dispatch for a command that has no meaning yet (safe: no claim about it can be proved). -/
  | notModelled (mnemonic : String)
  deriving DecidableEq, Repr

/-- The conditions behind PAGE_STATUS STATE (R77); none set is IDLE. `frozen` and `ownPause` are PAUSED by
FREEZE and by the block's own function (Table 2-7). -/
structure Cond where
  off : Bool := false
  gated : Bool := false
  safe : Bool := false
  fault : Bool := false
  limited : Bool := false
  frozen : Bool := false
  ownPause : Bool := false
  waiting : Bool := false
  draining : Bool := false
  running : Bool := false
  armed : Bool := false
  deriving DecidableEq, Repr

/-- The header registers of a page (R61, Tables 2-14 to 2-25) and the state behind them. -/
structure PageHdr where
  enable : Bool := false
  softReset : Bool := false
  freeze : Bool := false
  cond : Cond := {}
  prevState : Nat := 0
  eventRaw : Word := 0
  eventMask : Word := 0xFFFFFFFF
  errCode : Nat := 0
  moreCnt : Nat := 0
  errInfo : Word := 0
  lockHeld : Bool := false
  lockAbandoned : Bool := false
  lockSeq : Nat := 0
  lockOwner : Nat := 0
  collided : Bool := false
  loserOffset : Nat := 0
  loser : Nat := 0
  lastWriter : Nat := 0
  deriving DecidableEq, Repr

/-- A wait for a shared resource (R100, R101): the instance's page, the resource, the STATE it had requested
(2 ARMED, 3 RUNNING), whether a Rootstock safety function took it from this instance (R102), and the AON cycle of the request
(R101). -/
structure Waiter where
  page : Nat
  res : Nat
  wants : Nat
  preempted : Bool
  at_ : Nat
  deriving DecidableEq, Repr

/-- A recorded error or note on its way to the Rootstock event log (R87, R660): the TIMEBASE at which it was recorded,
whether it came from MORE_CNT, and its rank among the entries of one AON cycle (R686: 0 error, 1 note, 2 host note). -/
structure LogReq where
  ts : Nat
  code : Nat
  detail : Word
  page : Nat
  more : Bool
  rank : Nat
  deriving DecidableEq, Repr

/-- An error that a page recorded in the present AON cycle (R86): its code and detail, and CODE of the page before it. -/
structure CycErr where
  page : Nat
  code : Nat
  info : Word
  before : Nat
  deriving DecidableEq, Repr

/-- MODEL: what has fallen in AON cycle `at_`, for the rules that order the effects of one cycle: the bits that hardware set, as
(register, mask) (R66), the errors recorded, oldest first (R86), and the pages whose lock was abandoned (R109). In a later cycle
it reads as empty. -/
structure Cyc where
  at_ : Nat := 0
  rose : List (Nat × Word) := []
  errs : List CycErr := []
  abandoned : List Nat := []
  deriving DecidableEq, Repr

/-! ## Memory (spec/10_memory_ordering.md) -/

/-- A memory: bytes by address, in canonical form; an unlisted byte reads 0 (start-up writes zeros, Table 19-3). -/
abbrev Mem := Sparse Byte

/-- Bytes read: whether any is poisoned, and the code the request completes with. -/
structure Rd where
  bytes : List Byte
  poison : Bool
  code : Nat
  deriving DecidableEq, Repr

/-- The memories (R411 to R422): DRAM by channel × 2^33 + channel address (R415, R416), the Cellar by tile × 0x18_0000
+ slice offset, the result-buffer window by offset (Table 2-3), with the POISON marks of each unit (R437: 64-byte
lines of DRAM and of the window, 8-byte words of the Cellar), the board's DRAM, the line addresses in each combining
buffer, least recently used first (R427), the channels that failed training (R455), and the scrubbers' next line.
[DESIGN CHOICE: notes/assumptions/5.md] -/
structure MemState where
  dram : Mem := []
  dramPoison : Sparse Bool := []
  cellar : Mem := []
  cellarPoison : Sparse Bool := []
  result : Mem := []
  resultPoison : Sparse Bool := []
  chGib : Nat := 2
  ranks : Nat := 1
  /-- The data rate code each channel was trained to (R408 to R410); a channel not listed runs at 9,600 MT/s. -/
  rates : List Nat := []
  shardBase4M : Nat := 479
  combine : Sparse (List Nat) := []
  failed : List Nat := []
  /-- Channels whose TRAINED a SOFT_RESET has returned to 0 since they were trained (R72). -/
  statusReset : List Nat := []
  scrubNext : Sparse Nat := []
  /-- Errors that lie in the memories and no read has met (R420, R448 to R453). -/
  upsets : List Upset := []
  /-- The MR4 refresh-rate code in force on channel c (REFRESH_MULT). -/
  refresh : Sparse Nat := []
  /-- The AON cycle in which a counter whose count is a free value was last set to 0, by register (R456). -/
  clearedAt : Sparse Nat := []
  /-- ADD32 lanes (2c) and SUMMARY_MERGE operations (2c + 1) of channel c beyond the last unit of 65,536 (Table 10-10). -/
  counts : Sparse Nat := []
  /-- Losses of the Cellar's contents (R722), newest first: the free value whose parts the bytes read as, and the tile whose feature
  region was kept. -/
  cellarLoss : List (Nat × Option Nat) := []
  /-- MODEL: what the last request of a CHURN command brought back to its agent. -/
  reply : Option Rd := none
  deriving DecidableEq, Repr

/-! ## Frames and plans (spec/01_one_frame.md, spec/03_frame_tick_espalier.md) -/

/-- The Espalier header fields (R136, Table 3-4). -/
structure PlanHdr where
  modes : Nat := 0
  totalSize : Nat := 0
  stageCount : Nat := 0
  levels : Nat := 0
  compiledTiles : Nat := 0
  periodUs : Nat := 0
  budgetUs : Nat := 0
  floorMhz : Nat := 0
  costOff : Nat := 0
  costCount : Nat := 0
  progOff : Nat := 0
  progSize : Nat := 0
  resultBytes : Nat := 0
  proofL3 : Nat := 0
  crc : Nat := 0
  deriving DecidableEq, Repr

/-- A stage record (R137, Table 3-5). -/
structure StageRec where
  kind : Nat := 0
  levels : Nat := 0
  depCount : Nat := 0
  dramShare : Nat := 0
  tileFirst : Nat := 0
  tileSpan : Nat := 0
  deps : List Nat := []
  descs : List Nat := []
  costIndex : Nat := 0
  flags : Nat := 0
  deriving DecidableEq, Repr

/-- The plan memory of a slot: where the Espalier lies, and its header and stage table as copied (R133). -/
structure Plan where
  addr : Nat := 0
  hdr : PlanHdr := {}
  stages : List StageRec := []
  deriving DecidableEq, Repr

/-- A pose sample (R260, Table 6-1): signed values as integers. -/
structure Pose where
  ts : Nat := 0
  px : Int := 0
  py : Int := 0
  pz : Int := 0
  qw : Int := 0
  qx : Int := 0
  qy : Int := 0
  qz : Int := 0
  deriving DecidableEq, Repr

/-- A pose evaluated at an instant (R261): positions and quaternion components over one denominator. -/
structure PoseAt where
  den : Nat := 1
  px : Int := 0
  py : Int := 0
  pz : Int := 0
  qw : Int := 0
  qx : Int := 0
  qy : Int := 0
  qz : Int := 0
  deriving DecidableEq, Repr

/-- A point record as it reaches the Separator (Table 5-10) with the lane's frame it belongs to. -/
structure PointRec where
  x : Int := 0
  y : Int := 0
  z : Int := 0
  time : Nat := 0
  rangeOut : Nat := 0
  intensity : Nat := 0
  pflags : Nat := 0
  beam : Nat := 0
  source : Nat := 0
  deriving DecidableEq, Repr

/-- A delivered point with its firing time on TIMEBASE (R263), its frame number, and for a lane's point the SEQ and the span of
its sector (R31). -/
structure Delivered where
  pt : PointRec
  firing : Nat
  frame : Nat
  seq : Nat := 0
  azStart : Nat := 0
  azEnd : Nat := 0
  /-- AON cycle at which the point reached the Separator (R279), and its record in the staging buffer. -/
  at_ : Nat := 0
  slot : Nat := 0
  deriving DecidableEq, Repr

/-- The frame phases' record of one frame. -/
structure Frame where
  /-- Frame number (R27). -/
  num : Nat := 0
  /-- FREE_RUN frame (R117). -/
  freeRun : Bool := false
  /-- TIMEBASE of the tick that opened the ingest (tick n-1), or FRAME_START_TS. -/
  openTs : Nat := 0
  /-- TIMEBASE of tick n, or of acceptance in FREE_RUN (Table 13-8). -/
  tickTs : Nat := 0
  /-- AON cycle of tick n. -/
  tickAt : Nat := 0
  /-- Result-buffer set (R39). -/
  set : Nat := 0
  /-- The plan that governs the frame, and its slot. -/
  plan : Plan := {}
  slot : Nat := 0
  /-- Binning is complete or frozen (R32, R43, R285). -/
  frozen : Bool := false
  admitted : Bool := false
  level : Nat := 0
  thinned : Bool := false
  coarsened : Bool := false
  thinDone : Bool := false
  committed : Bool := false
  /-- BIN_FINE of the frame (R269). -/
  binFine : Nat := 0
  /-- Banks of the finer and the coarser binned level (R269, R270). -/
  fineBank : Option Nat := none
  coarseBank : Option Nat := none
  /-- Staged points in arrival order (R270). -/
  staged : List Delivered := []
  points : Nat := 0
  fineOvf : Bool := false
  /-- FLAGS of the frame record (Table 6-5). -/
  recFlags : Nat := 0
  lanes : Nat := 0
  excluded : Nat := 0
  outOfGrid : Nat := 0
  dropped : Nat := 0
  noPose : Nat := 0
  carried : Nat := 0
  /-- SEEN and LOST maps: lane × 1,024 + bin, the listed bins set (R284). -/
  seen : List Nat := []
  lost : List Nat := []
  /-- Target pose latched at the opening of ingest (R262); none: unavailable. -/
  target : Option PoseAt := none
  /-- The AON cycle of the latch, the instant the target pose is for, and whether its unavailability is still to be recorded:
  a PUSH of the same cycle counts as written before it (R262, R295). -/
  openAt : Nat := 0
  targetTs : Nat := 0
  staleDue : Bool := false
  /-- The Separator was disabled when the frame opened: it takes no point. -/
  sepOff : Bool := false
  /-- Stages complete with 0, complete with an error, and running or issued. -/
  okStages : List Nat := []
  errStages : List Nat := []
  /-- STAGE_ERR of the frame: code and stage (Table 9-9). -/
  errCode : Nat := 0
  errStage : Nat := 0
  truncated : Bool := false
  budgetExceeded : Bool := false
  overruns : Nat := 0
  /-- The frame will not be published, with the code its jobs end with (R45, R593). -/
  doomed : Option Nat := none
  /-- FREE_RUN: the FRAME job's context and JOB_TAG, level and end time (R579, R287). -/
  jobCtx : Nat := 0
  jobTag : Nat := 0
  jobLevel : Nat := 0xFF
  endTs : Nat := 0
  /-- A host record read failed (R602). -/
  hostFail : Bool := false
  deriving DecidableEq, Repr

/-- A stage that runs (R140): its number, kind, physical tiles and DRAM_SHARE; the device address of its descriptor, the
admitted level, whether it is an OUTPUT stage and of which result-buffer set (R589); the first error code of its parts; the
items dealt and ended (R388) and whether dealing has stopped (R402, R403); the weights it has multicast and the chunks done
(R350); the extents it has written as an OUTPUT stage; whether its unit has finished. -/
structure RunStage where
  stage : Nat
  kind : Nat
  tiles : List Nat
  share : Nat
  desc : Nat := 0
  progBase : Nat := 0
  level : Nat := 0
  output : Bool := false
  set : Nat := 0
  code : Nat := 0
  dealt : Nat := 0
  ended : Nat := 0
  stopped : Bool := false
  weights : Option Rd := none
  chunks : List Nat := []
  outs : List (Nat × Nat) := []
  unitDone : Bool := false
  deriving DecidableEq, Repr

/-- The Frame Scheduler (R114 to R160): values sampled at START, the ticks made, the phases, the plan slots, the
time discipline and the in-field test window. -/
structure Frm where
  planA : Plan := {}
  planB : Plan := {}
  /-- The load in progress: slot, address and size as sampled at LOAD (R130). -/
  loadSlot : Nat := 0
  loadAddr : Nat := 0
  loadSize : Nat := 0
  /-- FRM_MODE and TICK_PHASE_NS as sampled at START (R114). -/
  freeRun : Bool := false
  extTick : Bool := false
  syncOut : Bool := false
  policy : Nat := 0
  phaseNs : Nat := 0
  /-- No tick has been made, and no frame job accepted, since START (R28, R121, R396). -/
  beforeTick0 : Bool := false
  /-- Ticks since START, and the AON cycle and TIMEBASE of the last. -/
  ticks : Nat := 0
  lastTickAt : Nat := 0
  lastTickTs : Nat := 0
  flywheels : Nat := 0
  /-- The last ticks, newest first: the number of the frame each closes, and its TIMEBASE (R29). -/
  tickHist : List (Nat × Nat) := []
  /-- The drain window of the frame before the one in ingest is open (R30). -/
  drainOpen : Bool := false
  syncLost : Bool := false
  /-- FRAME_SYNC is driven high (R120). -/
  syncHigh : Bool := false
  /-- The last frame number consumed since power-on or device reset; none yet when 0 consumed is false (R28). -/
  lastNum : Nat := 0
  consumed : Bool := false
  ingest : Option Frame := none
  compute : Option Frame := none
  /-- The frame closed by a tick that waits for the compute phase, while the one there is cut (R36, R150). -/
  closing : Option Frame := none
  publish : Option Frame := none
  /-- The last frame that entered compute (R580). -/
  lastCompute : Nat := 0
  /-- cur and streak of R146. -/
  cur : Nat := 0
  streak : Nat := 0
  /-- The AON cycle in which the pending SWITCH was written (R134, R153). -/
  switchAt : Nat := 0
  /-- The corrupt plan slot for which the Frame Scheduler enters FAULT after the frame in compute (R160). -/
  faultAfter : Option Nat := none
  /-- LIMITED is entered after the frame in compute (R155). -/
  limitAfter : Bool := false
  running : List RunStage := []
  /-- Time discipline (R127, R129): AON cycle of the last accepted sample, its gPTP time and MARK_TS, samples in
  a row within 1,000 ns, and whether a sample has been accepted. -/
  sampleAt : Nat := 0
  sampleGptp : Nat := 0
  sampleMark : Nat := 0
  sampleOk : Nat := 0
  sampled : Bool := false
  /-- The tiles of the open test window that have not ended and all of them (R396), the tile that the pending request names (R400),
  where the rotation stands after the window, INTERVAL_MS as taken at the last window, and whether one has opened in this frame. -/
  testTiles : List Nat := []
  testWindow : List Nat := []
  testPend : Nat := 0
  testInterval : Nat := 1000
  testRotation : Nat := 0
  testDoneInFrame : Bool := false
  /-- A frame has been published since the last tick (R396). -/
  testAfterPub : Bool := false
  /-- AON cycle since which the compute phase is empty. -/
  emptyAt : Nat := 0
  deriving DecidableEq, Repr

/-! ## The Separator and the Coordinate Directory (spec/06, spec/08) -/

/-- A Directory entry (R274): key, site index, retained count. -/
structure DirEntry where
  key : Nat
  index : Nat
  retained : Nat
  deriving DecidableEq, Repr

/-- A binning bank (R269): its use (Table 8-8: 0 FREE, 1 BINNING, 2 THINNING, 3 COMMITTED), its level, and its
Directory entries in the order of their site index. -/
structure Bank where
  use : Nat := 0
  level : Nat := 0
  frame : Nat := 0
  entries : List DirEntry := []
  deriving DecidableEq, Repr

/-- The Separator (R257 to R296): values sampled at START, the pose ring, oldest first, and the banks. -/
structure Sep where
  cfg : Word := 0
  offXY : Word := 0
  offZ : Word := 0
  extrapUs : Nat := 0
  gapUs : Nat := 0
  dram : Nat := 0
  poses : List Pose := []
  /-- Points delivered by the lanes or read from the host and not yet accepted (R271). -/
  inbox : List Delivered := []
  bank0 : Bank := {}
  bank1 : Bank := {}
  bank2 : Bank := {}
  /-- The place of the next staged record in the staging buffer (Table 6-3). -/
  stageNext : Nat := 0
  deriving DecidableEq, Repr

/-! ## Sensor Link lanes (spec/04_sensor_link_channel.md, spec/05_sensor_link_sectors.md) -/

/-- A line symbol inside the channel (R172, R186, R187): the raw ADC sample x, the sample v after asymmetry correction and digital
gain, whether x is INVALID (R184), and the equalized value y. -/
structure Cap where
  x : Int := 0
  v : Int := 0
  inv : Bool := false
  y : Int := 0
  deriving DecidableEq, Repr

/-- A symbol as it enters the equalizer: x, v, the interpolated value z (R178) and INVALID. -/
structure Raw where
  x : Int := 0
  v : Int := 0
  z : Int := 0
  inv : Bool := false
  bad : Bool := false
  on : Bool := false
  track : Bool := false
  fill : Nat := 0
  deriving DecidableEq, Repr

/-- The adaptive values of a lane at the loops' internal resolution, and what the last zone load took from the zone entry:
target and loop gains (R174, R178, R200). `dgain`, `offset`, `asym`, `freq` and `phase` are in units of 2^-Config.loopFrac of
their register's unit, the taps in 1/256 of theirs (16 bits internally, Table 4-7). -/
structure Loops where
  dgain : Int := 0
  offset : Int := 0
  asym : Int := 0
  freq : Int := 0
  phase : Int := 0
  taps : List Int := []
  cursor : Nat := 3
  target : Nat := 0
  acqGains : Nat := 0
  trackGains : Nat := 0
  deriving DecidableEq, Repr

/-- The body of one fragment (R181, R186, R225): its codeword bits, the lane's digital state at its start with DEC_CFG, and its symbols,
newest first, with those before and after it that decide its defect regions; the sample store holds 32 of them at each end. -/
structure Body where
  len : Nat := 0
  loops : Loops := {}
  decCfg : Nat := 0
  caps : List Cap := []
  deriving DecidableEq, Repr

/-- A sector from the header of its first fragment on (R216, R221): its header, BODY_LEN of the first fragment of a split
sector that waits for its second, the AON cycle of its capture, the frame it is charged to (R233), its sample-store slot, the
calibration latched for it and that of its pair's primary lane (R237, R768), the bodies of its fragments in order, DEC_CFG as sampled
when its decode started (R202), and the ladder step it runs with the cycle at which that step began. -/
structure Sector where
  seq : Nat := 0
  azStart : Nat := 0
  azEnd : Nat := 0
  split : Bool := false
  firstLen : Nat := 0
  capAt : Nat := 0
  frame : Option Nat := none
  slot : Bool := false
  rotary : Bool := false
  cal : Sparse Word := []
  calP : Sparse Word := []
  bodies : List Body := []
  decCfg : Nat := 0
  step : Nat := 0
  stepAt : Nat := 0
  deriving DecidableEq, Repr

/-- The fragment in progress (R216): whether its mark lay in the second-fragment window, the AON cycle of its sync mark, its slot, the
frame its sector is charged to and the calibrations latched then, the number of its first header symbol, what its body has captured so
far, the sector once the header is read, and the SEQ and frame of the sync window that closed while the header was awaited. -/
structure Frag where
  second : Bool := false
  at_ : Nat := 0
  slot : Bool := false
  frame : Option Nat := none
  cal : Sparse Word := []
  calP : Sparse Word := []
  first : Nat := 0
  body : Body := {}
  sector : Option Sector := none
  closed : Option (Nat × Option Nat) := none
  deriving DecidableEq, Repr

/-- What lies behind a lane's channel registers (spec/04_sensor_link_channel.md): symbols received since the lane left OFF, the
invalid symbols still to come (R182), the acquisition schedule (Table 4-6: valid symbols since entry, the sum of |v| over the first 16,
whether the check at 16 has been made), symbols since the last gain step in tracking (R173), the phase of the fill pattern, the loops,
the last symbols before and after the equalizer, newest first, the valid symbols modulo 16 (R178), the tentative detector's state metrics
and survivors and its decisions, newest first (R178), the squares of the last errors for MSE, the defect region in progress (its first and
last defective symbol) and the lengths of regions that have ended (R181), and the runs of symbols below and above the level of R203. -/
structure Chan where
  n : Nat := 0
  winLeft : Nat := 0
  acqValid : Nat := 0
  acqSum : Nat := 0
  acqChecked : Bool := false
  sinceStep : Nat := 1024
  fill : Nat := 0
  loops : Loops := {}
  raws : List Raw := []
  caps : List Cap := []
  valid16 : Nat := 0
  metrics : List Int := []
  paths : List Nat := []
  dec : List Bool := []
  e2 : List Nat := []
  region : Option (Nat × Nat) := none
  regions : List Nat := []
  lowRun : Nat := 0
  highRun : Nat := 0
  deriving DecidableEq, Repr

/-- The last azimuth instant of an IDX (R213), located or predicted after a miss (R253), with the AZ and REV it had. -/
structure IdxRec where
  ts : Nat := 0
  located : Bool := false
  az : Nat := 0
  rev : Nat := 0
  deriving DecidableEq, Repr

/-- A downlink message (Table 5-11) with the job that enqueued it, as context × 2 + ring (R583). -/
structure DlMsg where
  typ : Nat
  seq : Nat
  payload : List Byte := []
  job : Option Nat := none
  deriving DecidableEq, Repr

/-- A lane (R162 to R256): what lies behind its registers. -/
structure Lane where
  /-- The channel. -/
  ch : Chan := {}
  /-- The fragment in progress. -/
  frag : Option Frag := none
  /-- The first header symbol and the end of the fragment whose body ended last (R178). -/
  ended : Nat × Nat := (0, 0)
  /-- The split sectors that wait for their second fragment, and the sectors whose decode runs, oldest first (R197, R221). -/
  open1 : List Sector := []
  decoding : List Sector := []
  /-- Symbols still to be captured after the body captured last, and whether that body is of the split sector that waits (R225). -/
  tail : Nat := 0
  tailOpen : Bool := false
  /-- In the open first-fragment window: a sync mark was found, a valid first fragment was accepted (R205, R217); the sector whose
  window it is (R219). The second-fragment window is open, the TIMEBASE at which it opened, and a sync mark was found in it. -/
  hit1 : Bool := false
  got1 : Bool := false
  secNow : Option Nat := none
  secondOpen : Bool := false
  secondAt : Nat := 0
  hit2 : Bool := false
  /-- SEQ of a split sector treated as missing before sector timing is ready (R219). -/
  splitLost : Option Nat := none
  /-- Azimuth instants by IDX, the last located or missed IDX, consecutive located and missed fields (R213, R253). -/
  idxTs : Sparse IdxRec := []
  idxLast : Option Nat := none
  idxRun : Nat := 0
  idxMiss : Nat := 0
  /-- acc, and the runs of index fields within LOCK_THR and beyond UNLOCK_THR (R246, R248). -/
  acc : Int := 0
  lockRun : Nat := 0
  unlockRun : Nat := 0
  /-- Downlink: queue, next SEQ, pending TICK (frame number) and SPEED_TRIM, the message on the wire and the AON cycle at which it began, the AON cycle from which
  the line is idle, the AON cycle since which a write waits (R241 to R244), and that of the last shock sample above the limit. -/
  dlQueue : List DlMsg := []
  dlSeq : Nat := 0
  tickDue : Option Nat := none
  trimDue : Option Int := none
  wire : Option DlMsg := none
  wireAt : Nat := 0
  idleAt : Nat := 0
  waitAt : Option Nat := none
  /-- AON cycles that write had waited before a pause (R252). -/
  waited : Nat := 0
  shockAt : Option Nat := none
  /-- REF of the four most recent ticks, newest first (R234). -/
  refs : List (Nat × Nat) := []
  /-- SEQ of the lane's last 256 sectors, newest first, and whether each was delivered (R251); AZ_END of the last delivered (R233). -/
  recent : List (Nat × Bool) := []
  lastEnd : Option Nat := none
  /-- FIXED: charged frames of the lost sectors without a header (R233). -/
  fixedLost : List (Option Nat) := []
  /-- A marker that ended a sector: the SEQ that must follow, the mode before it, NEW_MODE and BEAM_SWITCH (R239). -/
  marker : Option (Nat × Nat × Nat × Nat) := none
  /-- Engine time charged, in ns, by frame (R230). -/
  charge : Sparse Nat := []
  /-- The calibration page as latched at the last tick (R237). -/
  cal : Option (Sparse Word) := none
  /-- The (frame, SEQ) last counted as LATE (R31). -/
  late : Option (Nat × Nat) := none
  deriving DecidableEq, Repr

/-- What a lane of a redundant pair made of a sector (R768): decoded user bytes, or lost with a cause of Table 5-9. -/
inductive Verdict where
  | decoded (sec : Sector) (bytes : List Byte) (ladder : Bool)
  | lost (sec : Sector) (cause : Nat)
  deriving DecidableEq, Repr

/-- A sector of a redundant pair (R768): the primary lane, its SEQ, and the verdicts so far. -/
structure Redund where
  lane : Nat
  seq : Nat
  primary : Option Verdict := none
  secondary : Option Verdict := none
  deriving DecidableEq, Repr

/-- The Sensor Link: lanes, the sectors queued for the retry ladder in the order they joined, and the two retry engines
(R227), each as (lane, sector). -/
structure Slk where
  lanes : Sparse Lane := []
  /-- Sectors of redundant pairs that wait for their decision (R768). -/
  redund : List Redund := []
  ladder : List (Nat × Sector) := []
  engine0 : Option (Nat × Sector) := none
  engine1 : Option (Nat × Sector) := none
  deriving DecidableEq, Repr

/-! ## Sparse convolution (spec/08) -/

/-- A site of a set: its key, partition, rank and site index (R333, R338). -/
structure Site where
  key : Nat
  part : Nat
  rank : Nat
  index : Nat
  deriving DecidableEq, Repr

/-- A derived set (R330 to R334): its number, the stage that creates it, its parent and strides, its quota in units of 1,024,
its scale in L0 cells (x, y), its extents (Table 8-1), and its sites in the order of their creation. -/
structure DerivedSet where
  id : Nat
  stage : Nat
  parent : Nat
  sx : Nat
  sy : Nat
  sz : Nat
  quota : Nat
  xs : Nat
  ys : Nat
  ex : Nat
  ey : Nat
  ez : Nat
  sites : List Site := []
  deriving DecidableEq, Repr

/-- SCV: the derived sets of the frame in compute, the probes counted beyond the last unit of 65,536, and whether a SOFT_RESET
has aborted the frame's later stages (R361). -/
structure Scv where
  sets : List DerivedSet := []
  probes : Nat := 0
  aborted : Bool := false
  deriving DecidableEq, Repr

/-! ## Harvest (spec/07) -/

/-- A Harvest request (R298): from a stage or a tile, its number, the tag to release, the device address of its descriptor,
and the result-buffer set of an OUTPUT stage's request (R589). -/
structure HrvReq where
  tile : Bool
  id : Nat
  stage : Nat
  tag : Nat := 0xFF
  desc : Nat
  output : Bool := false
  set : Nat := 0
  /-- AON cycle at which it was accepted or held (R298). -/
  at_ : Nat := 0
  deriving DecidableEq, Repr

/-- A row of a served request: where its header goes, the header's STATUS, and the writes it makes as (address, bytes). -/
structure HrvRow where
  hdr : Nat
  status : Nat
  writes : List (Nat × List Byte)
  deriving DecidableEq, Repr

/-- The request in service: its rows and its code; a rejected one has none. Its writes have left (`issued`) before it completes (R301). -/
structure HrvRun where
  req : HrvReq
  op : Nat
  code : Nat
  row : Nat := 0
  rejected : Bool := false
  issued : Bool := false
  rows : List HrvRow := []
  deriving DecidableEq, Repr

/-- Harvest: the queue, oldest first, the request in service, the requests held while the queue is full, and the stages the full queue
holds back, each counted once (R299). -/
structure Hrv where
  queue : List HrvReq := []
  service : Option HrvRun := none
  held : List HrvReq := []
  heldStages : List Nat := []
  deriving DecidableEq, Repr

/-! ## Scion tiles (spec/09) -/

/-- An op in flight: its DST_TAG, its unit (0 MAC, 1 vector, 2 DMA, 3 Harvest), the writes it makes visible at
completion as (device address, bytes), its error code, and the extents that ops beside it in flight have written meanwhile (R390). -/
structure OpRun where
  tag : Nat
  unit : Nat
  op : Nat
  writes : List (Nat × List Byte) := []
  code : Nat := 0
  raced : List (Nat × Nat) := []
  deriving DecidableEq, Repr

/-- A tile's sequencer and test state (R388, R389, R393 to R399). -/
structure Tile where
  /-- The stage that holds the tile, as stage number + 1; 0 none. -/
  heldBy : Nat := 0
  /-- The item being run, as item + 1; 0 none; the prologue has run. -/
  item : Nat := 0
  prologueDone : Bool := false
  inPrologue : Bool := false
  /-- The next op to issue. -/
  nextOp : Nat := 0
  /-- A FENCE holds further issue (Table 9-6). -/
  fenced : Bool := false
  inflight : List OpRun := []
  underTest : Bool := false
  /-- AON cycle since which the tile is free, and of the last passed test. -/
  idleSince : Nat := 0
  passAt : Nat := 0
  /-- AON cycle at which the tile became free for the next item of its stage (R388). -/
  freedAt : Nat := 0
  /-- Intervals of R398 for which TEST_OVERDUE has been recorded. -/
  overdue : Nat := 0
  withdrawn : Bool := false
  wakeReq : Bool := false
  deriving DecidableEq, Repr

/-! ## Graft (spec/12) -/

/-- An agent that accesses global addresses: a tile, a stage's unit, a Harvest request, an ETU job by its stage, a ring's job
(context × 2 + ring), Rootstock, or the ETU or inbound proxy itself; or one that was reset or stopped with the request outstanding, whose
response is discarded (R445). -/
inductive Agent where
  | none
  | gone
  | tile (n : Nat)
  | stage (n : Nat)
  | hrv
  | etu (stage : Nat)
  | job (k : Nat)
  deriving DecidableEq, Repr

/-- A transaction (Table 12-6): its header slot and data bytes, with the dateline bit it travels with (R529). -/
structure Packet where
  hdr : List Byte
  data : List Byte := []
  line : Nat := 0
  deriving DecidableEq, Repr

/-- A request of this node (R535, R537): its agent, type, target, OPERAND and data, the global address and bytes it covers (0 bytes
for GATHER and TADD), and once sent its tag, generation and the AON cycle of sending. -/
structure GrfReq where
  agent : Agent
  ttype : Nat
  node : Nat
  operand : Nat
  data : List Byte := []
  addr : Nat := 0
  bytes : Nat := 0
  tag : Nat := 0
  gen : Nat := 0
  sentAt : Nat := 0
  deriving DecidableEq, Repr

/-- What a request brought back: for a read its address and bytes, for a GATHER its OPERAND, with the code. -/
structure GrfAns where
  agent : Agent
  ttype : Nat
  operand : Nat
  addr : Nat
  bytes : List Byte
  poison : Bool
  code : Nat
  deriving DecidableEq, Repr

/-- A port (R521 to R526): the DATA SEQ it expects and whether the NAK for it was sent; the SEQ of its next new DATA flit and the
unacknowledged flits, oldest first; replays since the ACK advanced, and the AON cycle of the last advance or replay; per VC the slots
sent, the cumulative count returned by the peer, the slots freed here, the transaction being received, those received and
waiting, and those waiting to be sent; flits beyond the last unit of 65,536; the AON cycle of entry into RECOVER; slot 0 of the CTRL flit
sent last (R522); and whether flits are still to be resumed after a recovery (R524). -/
structure GrfPort where
  rxSeq : Nat := 0
  nakSent : Bool := false
  txSeq : Nat := 0
  replay : List (Nat × List (Nat × Bool × List Byte)) := []
  replays : Nat := 0
  ackAt : Nat := 0
  sent : Sparse Nat := []
  credit : Sparse Nat := []
  freed : Sparse Nat := []
  partials : Sparse (Option (Packet × Nat)) := []
  inq : List (Nat × Packet) := []
  outq : List (Nat × Packet) := []
  txFlits : Nat := 0
  rxFlits : Nat := 0
  recoverAt : Nat := 0
  ctrl : List Byte := []
  resend : Bool := false
  deriving DecidableEq, Repr

/-- A barrier (R544 to R546): the node's own arrival and its AON cycle, the requests that arrival waits for (as tag and
generation), the children whose ARRIVE came, whether ARRIVE was sent, and the jobs that wait. -/
structure Bar where
  own : Bool := false
  at_ : Nat := 0
  waits : List (Nat × Nat) := []
  kids : List Nat := []
  sent : Bool := false
  deriving DecidableEq, Repr

/-- Graft: ports, requests outstanding, requests held before they are sent (R543), the generation of each tag, the nodes
marked lost, the barriers, what came back and is not yet used, the agent that reads now, and whether a read had to wait. -/
structure Grf where
  ports : Sparse GrfPort := []
  reqs : List GrfReq := []
  waiting : List GrfReq := []
  gens : Sparse Nat := []
  lost : List Nat := []
  bars : Sparse Bar := []
  answers : List GrfAns := []
  reader : Agent := .none
  miss : Bool := false
  deriving DecidableEq, Repr

/-! ## Embedding tables (spec/11) -/

/-- A table slot (R458, Table 11-1, TABLE_STATE). -/
structure EtuTable where
  state : Nat := 0
  fmt : Nat := 0
  flags : Nat := 0
  elems : Nat := 0
  frac : Nat := 0
  nodeBase : Nat := 0
  nodeCount : Nat := 0
  spillRows : Nat := 0
  rows : Nat := 0
  rowOff : Nat := 0
  spillOff : Nat := 0
  masterOff : Nat := 0
  sideOff : Nat := 0
  dflt : Nat := 0
  active : Nat := 0
  foldInc : Bool := false
  replInc : Bool := false
  deriving DecidableEq, Repr

/-- A moved row (R489): table, row, and its spill slot's channel and number. -/
structure Redirect where
  table : Nat
  row : Nat
  chan : Nat
  slot : Nat
  deriving DecidableEq, Repr

/-- A job that has started (R471): its stage, the outputs or updates issued so far, its error code, whether every request is issued,
whether a row of it was lost (R507), and whether the bag offsets of a POOL have been checked (R473). -/
structure EtuJob where
  stage : Nat
  done : Nat := 0
  code : Nat := 0
  finished : Bool := false
  rowErr : Bool := false
  checked : Bool := false
  deriving DecidableEq, Repr

/-- The running command (R498): OP, table, rows to do and done, its result so far, whether its fold met a non-finite row, the
folding bank, whether a fold takes both banks (R506), and the image address of a REPLACE. -/
structure EtuCmd where
  op : Nat
  table : Nat
  total : Nat := 0
  done : Nat := 0
  code : Nat := 0
  nonfinite : Bool := false
  bank : Nat := 0
  both : Bool := false
  addr : Nat := 0
  deriving DecidableEq, Repr

/-- The ETU: tables, jobs running, the command, the redirect directory, the rows cached as (table, row), the frequency estimates by
table × 2^32 + row and the lookups since they were halved (R483), the AON cycle in which the load window began, the lines read in it
per channel and per row, by (channel × 256 + table) × 2^32 + row (R486), and the planned moves as (table, row, channel). -/
structure Etu where
  tables : Sparse EtuTable := []
  jobs : List EtuJob := []
  cmd : Option EtuCmd := none
  redirect : List Redirect := []
  cached : List (Nat × Nat) := []
  freq : Sparse Nat := []
  lookups : Nat := 0
  windowAt : Nat := 0
  lines : Sparse Nat := []
  rowLines : Sparse Nat := []
  moves : List (Nat × Nat × Nat) := []
  deriving DecidableEq, Repr

/-! ## The host interface (spec/13) -/

/-- A job on a ring (R576): its descriptor bytes and how far it has come (1 ACCEPTED, 2 RUNNING, 3 its writes are issued). -/
structure Job where
  opc : Nat := 0
  sb : Nat := 0xFF
  tag : Nat := 0
  bytes : List Byte := []
  phase : Nat := 0
  acceptTs : Nat := 0
  /-- The frame a FRAME or WAIT_FRAME job follows; whether it is fixed yet (R580). -/
  frame : Nat := 0
  follows : Bool := false
  /-- WAIT_FRAME waits for the next frame to enter compute (NEXT = 1). -/
  waitNext : Bool := false
  doneBytes : Nat := 0
  aux : Nat := 0
  /-- COPY: the device address; BARRIER: the barrier. -/
  link : Nat := 0
  /-- COPY_IN: the bytes that the host answered. -/
  data : List Byte := []
  deriving DecidableEq, Repr

/-- A status block (R584, Table 13-5). -/
structure StatusBlock where
  seq : Nat := 0
  state : Nat := 0
  opc : Nat := 0
  code : Nat := 0
  tag : Nat := 0
  frame : Nat := 0
  doneBytes : Nat := 0
  stagesDone : Nat := 0
  validBelow : Nat := 0
  level : Nat := 0
  set : Nat := 0
  fflags : Nat := 0
  tsAccept : Nat := 0
  tsEnd : Nat := 0
  crc : Nat := 0
  aux : Nat := 0
  deriving DecidableEq, Repr

/-- A host access of a job (R567): the requester ID as its function, the host address, the bytes, and whether it writes. -/
structure HostAccess where
  fn : Nat
  addr : Nat
  bytes : Nat
  write : Bool
  deriving DecidableEq, Repr

/-- The host interface: ring memory and status blocks by context, the job of each ring (context × 2 + ring), the
round-robin pointer (R575), MSI-X messages sent, and link state. -/
structure Hif where
  ringMem : Mem := []
  jobs : Sparse (Option Job) := []
  status : Sparse StatusBlock := []
  robin : Nat := 0
  /-- MSI-X vectors that have sent a message: function × 32 + vector, oldest first; pending bits are registers. -/
  msixSent : List Nat := []
  /-- The MSI-X tables of the virtual functions: function × 128 + word (R561); and their pending vectors: function × 32 + vector (R595). -/
  vfMsix : Sparse Word := []
  vfPending : List Nat := []
  vfEnable : Bool := false
  numVfs : Nat := 0
  l1 : Bool := false
  linkUp : Bool := false
  /-- The AON cycle of the last TLP (R559), and the last host write of a job: host address and bytes (R583). -/
  tlpAt : Nat := 0
  hostWrote : Option (Nat × List Byte) := none
  /-- The last host access of a job (R567). -/
  hostAccess : Option HostAccess := none
  /-- The host's settings (Table 13-1), and what AER holds: a poisoned TLP, a TLP that failed its ECRC (R603). -/
  pcie : PcieCfg := {}
  aerPoison : Bool := false
  aerEcrc : Bool := false
  /-- The private slots' bytes (R609): context × 512 + slot × 64 + byte; and the posted slots in post order (R614). -/
  priv : Mem := []
  posted : List (Nat × Nat) := []
  deriving DecidableEq, Repr

/-! ## Safety (spec/18) and GPIO (spec/20) -/

/-- The SAF block (R754 to R777): the safe state, SAF_ACTIVE, the watchdog as sampled at START, the pending
end-to-end check, armed injections, and the redundant pairs' undecided sectors. -/
structure Saf where
  inSafe : Bool := true
  /-- No class C cause other than POWER_ON has been latched in this stay (R761). -/
  onlyPowerOn : Bool := true
  /-- AON cycle of the last release (R799). -/
  releasedAt : Option Nat := none
  active : Nat := 1
  selfFault : Bool := false
  wdTicks : Nat := 2
  wdSlackUs : Nat := 500
  wdAt : Option Nat := none
  e2e : Option Nat := none
  e2eCrc : Nat := 0
  /-- Injection that acts on the named target until the AON cycle given (Table 18-6). -/
  injActive : List (Nat × Nat × Nat × Nat) := []
  /-- SAF_REDUND_MISMATCH recorded in this frame (R768). -/
  redundFrame : Option Nat := none
  /-- Pages in FAULT for a register parity error (R770, R771). -/
  parity : List Nat := []
  deriving DecidableEq, Repr

/-- GPIO and boundary scan (R815 to R820): the pins that SAF holds, and the boundary-scan register's control of the pins. -/
structure Gpio where
  held : Nat := 0
  scan : Bool := false
  deriving DecidableEq, Repr

/-- The identification fuses (R22, Tables 0-6 to 0-10): grade, tile code and the mask of enabled tiles; whether their
check failed at the last boot (R21). [DESIGN CHOICE: notes/assumptions/5.md] -/
structure Fuses where
  grade : Nat := 0
  tileCode : Nat := 0
  tiles : Nat := 2 ^ 64 - 1
  failed : Bool := false
  /-- VF_0 to VF_4 of the part in mV (Table 17-11). -/
  vf : List Nat := [620, 690, 760, 810, 860]
  deriving DecidableEq, Repr

/-! ## Rootstock (spec/15_rootstock.md) -/

/-- An event-log entry (R658, Table 15-7); its CRC is computed when the entry is read. -/
structure LogEntry where
  ts : Nat := 0
  code : Nat := 0
  page : Nat := 0
  info : Word := 0
  seq : Nat := 0
  rep : Nat := 0
  sev : Nat := 0
  flags : Nat := 0
  boot : Nat := 0
  deriving DecidableEq, Repr

/-- A manifest entry (Table 15-13). -/
structure ManifestEntry where
  fw : Nat
  ucode : Nat
  stepping : Nat
  format : Nat
  deriving DecidableEq, Repr

/-- What the security region holds of a slot beside the registers of Table 15-21 (R668): the SHA-384 of each component
as stored, the key slot that signed it, its sizes, and the manifest stored in it. -/
structure SlotImage where
  digests : List Nat := []
  keySlot : Nat := 0
  fwBytes : Nat := 0
  ucodeBytes : Nat := 0
  manifest : List ManifestEntry := []
  deriving DecidableEq, Repr

/-- A running STAGE (R670): target slot (0 A, 1 B), UPD_ADDR and UPD_SIZE as taken. -/
structure StageRun where
  slot : Nat
  addr : Nat
  size : Nat
  deriving DecidableEq, Repr

/-- Rootstock (R642 to R689): the event log's ring, oldest first, its next SEQ, the token bucket in AON cycles (a token is a
quarter of a second) with the cycle of its last refill, the black box, the entries that wait for it, the fetch in service; the slots; the debug session. -/
structure Rst where
  ring : List LogEntry := []
  nextSeq : Nat := 0
  tokens : Nat := 3200000000
  tokenAt : Nat := 0
  bb : Sparse (Option LogEntry) := []
  bbUsed : Bool := false
  bbWait : List LogEntry := []
  fetch : Option (Nat × Nat) := none
  imgA : SlotImage := {}
  imgB : SlotImage := {}
  stage : Option StageRun := none
  /-- SHA-384 fuse hashes of the update keys and of the two debug keys. -/
  keyHash : List Nat := [0, 0, 0, 0]
  dbgHash : List Nat := [0, 0]
  /-- AON cycle at which the debug session's lease ends; the current nonce; consecutive refusals; end of a lockout. -/
  leaseEnd : Nat := 0
  nonce : Option Nat := none
  refusals : Nat := 0
  lockoutEnd : Nat := 0
  halted : Bool := false
  /-- Thermal sensors whose invalidity has been recorded (R652); shock and coolant faults (R656, R657). -/
  tsBad : List Nat := []
  shockBad : Bool := false
  shockMiss : Nat := 0
  coolBad : Bool := false
  /-- What the READY that ends the reset has to record: RST_WATCHDOG (R647), BOOT_FLASH_ERROR (R689), slots marked BAD
  (R671), and the causes of path RST that wait for AVAILABLE (R756). -/
  watchdog : Bool := false
  flashFail : Bool := false
  reverted : List Nat := []
  latchWait : List (Nat × Nat) := []
  /-- Rails outside their absolute windows, a bit per rail. -/
  railsOut : Nat := 0
  /-- A Rootstock reset that has been requested or is due, by its cause (R647, R649). -/
  resetDue : Option Nat := none
  /-- What the boot ROM could not do at the last boot: its own parity failed (R800). -/
  romFail : Bool := false
  /-- A plan slot passed check 5 only through the override (R679): bit per slot. -/
  viaOverride : Nat := 0
  /-- Override cleared: slots to be emptied once the frame in compute is published (R679). -/
  emptyAfter : Nat := 0
  /-- BOOT_COUNT of the security region (R668): Rootstock boots over life. -/
  bootCount : Nat := 0
  /-- The JTAG instruction register (R680); Test-Logic-Reset selects IDCODE. [PRESUMED: notes/assumptions/81.md] -/
  ir : Nat := 0x02
  deriving DecidableEq, Repr

/-! ## Persistent registers (spec/16_persistent_registers.md) -/

/-- A slot of a cell (R694): empty, invalid, or valid with DATA, SEQ and WEAR. -/
inductive NvmSlot where
  | empty
  | invalid
  | valid (data seq wear : Nat)
  deriving DecidableEq, Repr

/-- A cell (R693, R694) with the reported wear and the class at restore (Table 16-3: 0 NORMAL, 1 INTERRUPTED, 2 CORRUPT). -/
structure NvmCell where
  slot0 : NvmSlot
  slot1 : NvmSlot := .empty
  wear : Nat := 0
  cls : Nat := 0
  deriving DecidableEq, Repr

/-- A write in the commit queue (R701): page, word, the whole word's data and its writer (R54). -/
structure PsvWrite where
  page : Nat
  word : Nat
  data : Nat
  writer : Nat
  deriving DecidableEq, Repr

/-- Rootstock's lifetime counters in SRAM (R709): events, times in AON cycles, maxima, and the AON cycle of the last
accounting and of the last commit of each word. -/
structure Life where
  powerOn : Nat := 0
  safe : Nat := 0
  trip : Nat := 0
  run : Nat := 0
  trim : Nat := 0
  sentry : Nat := 0
  parked : Nat := 0
  warn : Nat := 0
  throt : Nat := 0
  crit : Nat := 0
  tjMax : Int := -32768
  coolMax : Int := -32768
  markAt : Nat := 0
  committedAt : Sparse Nat := []
  deriving DecidableEq, Repr

/-- The persistent store (R691 to R714): cells by (page - 0x200) × 504 + word, security word w at 0x10000 + w; the
commit queue, oldest first, whether its first write is being programmed and has been reprogrammed once (R713); the
brown-out inhibit; LAST_RESULT by page. -/
structure Psv where
  cells : Sparse NvmCell := []
  queue : List PsvWrite := []
  retried : Bool := false
  lastResult : Sparse Nat := []
  life : Life := {}
  deriving DecidableEq, Repr

/-! ## Power (spec/17_power_thermal.md) -/

/-- Power and thermal control (R716 to R747): AON cycles of the last change and of the last record of the thermal state
and of the coolant band; entry and wake; the sentry window; the CORE frequency. -/
structure Pwr where
  thermAt : Option Nat := none
  coolAt : Option Nat := none
  thermRec : Option Nat := none
  coolRec : Option Nat := none
  /-- The low-power state being entered (2 SENTRY, 3 PARKED); 0 none. -/
  entering : Nat := 0
  /-- A wake is under way. -/
  waking : Bool := false
  /-- Wake causes that occurred during entry (R721). -/
  wakeMask : Nat := 0
  /-- HOST_WAKE is driven low. -/
  hostWake : Bool := false
  /-- TIMEBASE at the completion of entry. -/
  enteredTs : Nat := 0
  window : Nat := 0
  /-- 0 none open, 1 listening, 2 program running. -/
  phase : Nat := 0
  /-- AON cycle and TIMEBASE at which the window's phase began. -/
  phaseAt : Nat := 0
  windowTs : Nat := 0
  windowAt : Nat := 0
  points : Nat := 0
  dropped : Nat := 0
  /-- CORE is stopped by the hardware trip (R729). -/
  tripped : Bool := false
  /-- R737 held VMON_0 below a request: the frequency was limited by the voltage. -/
  volt : Bool := false
  /-- The hour of R738: AON cycle at which it began and whether R737 held throughout. -/
  hourAt : Nat := 0
  /-- AON cycle of the last rise of AGE_OFFSET_MV (R739), and the offset before it. -/
  roseAt : Option Nat := none
  oldOffset : Nat := 0
  ageReported : Bool := false
  deriving DecidableEq, Repr

/-- Start-up (spec/19_startup_reset.md): t0 of Table 19-3 as an AON cycle; a device reset was accepted (R785) and by
which path; DRAM is to be initialised (R787 step 7). -/
structure Boot where
  t0 : Nat := 0
  resetPending : Bool := false
  initDram : Bool := true
  deriving DecidableEq, Repr

structure State where
  /-- MODEL: AON cycles since power-on; every interval the rules decide by is measured on it. -/
  cycles : Nat
  /-- TIMEBASE, unsigned 64-bit nanoseconds (R19, R26). -/
  timebase : Nat
  /-- MODEL: how many free values have been drawn. -/
  free : Nat
  /-- The register file: BAR 0 and context-page registers at 0x40 and above that differ from reset. -/
  regs : Sparse Word
  /-- Page headers that differ from reset. -/
  hdr : Sparse PageHdr
  /-- Shared resources held, as (resource ID, page of the holder) (R99). -/
  held : List (Nat × Nat)
  /-- Waits for shared resources, in the order of the requests (R101). -/
  waiters : List Waiter
  /-- Recorded errors and notes not yet entered in the event log (R87). -/
  logQueue : List LogReq
  /-- MODEL: what has fallen in the present AON cycle (R66, R86, R109). -/
  cyc : Cyc
  fuses : Fuses
  mem : MemState
  frm : Frm
  sep : Sep
  slk : Slk
  scv : Scv
  hrv : Hrv
  etu : Etu
  grf : Grf
  tiles : Sparse Tile
  hif : Hif
  saf : Saf
  gpio : Gpio
  rst : Rst
  psv : Psv
  pwr : Pwr
  boot : Boot
  /-- The commands that wait, first in first out. -/
  pending : List Instr
  deriving DecidableEq, Repr

/-- The page headers right after power-on reset: the pages the safe state holds read SAFE (R759, R778), page 0x160
has POWER_ON latched (R754), and the device is LIMITED while VERSION_OK is 0 (R676). [DEDUCED: notes/assumptions/17.md] -/
def State.resetHdr : Sparse PageHdr :=
  [(0x010, { cond := { off := true, safe := true, limited := true } })]
    ++ ([0x040, 0x050, 0x060] ++ (List.range 64).map (0x080 + ·) ++ [0x0D0]).map
      (fun p => (p, ({ cond := { off := true, safe := true } } : PageHdr)))
    ++ [(0x130, { cond := { limited := true } }), (0x160, { cond := { running := true, safe := true }, eventRaw := 1 }),
        (0x161, { cond := { running := true, safe := true } }), (0x162, { cond := { running := true, safe := true } })]

/-- The NVM-held registers of the update page (Table 15-21) as the part leaves the factory: slot A is GOOD and ACTIVE_SLOT with SVN 1,
and both of its components have version 1.0.0 (DESIGN CHOICE: notes/assumptions/4.md). -/
def State.factoryRegs : Sparse Word := [(0x131058, 0x00010084), (0x131060, 0x01000000), (0x131064, 0x01000000)]

/-- The contents of the factory slot: its manifest names its own pair as tested on this stepping. [DESIGN CHOICE: notes/assumptions/4.md] -/
def SlotImage.factory : SlotImage := { manifest := [⟨0x01000000, 0x01000000, 0xA1, 1⟩] }

/-- The machine right after power-on reset, before start-up (Table 19-3) begins: every register at its reset value, in the
safe state for POWER_ON (R759), memory with nothing listed, no command waiting.
[DESIGN CHOICE: notes/assumptions/4.md; DESIGN CHOICE: notes/assumptions/5.md] -/
def State.reset : State where
  cycles := 0
  timebase := 0
  free := 0
  regs := State.factoryRegs
  hdr := State.resetHdr
  held := []
  waiters := []
  logQueue := []
  cyc := {}
  fuses := {}
  mem := {}
  frm := {}
  sep := {}
  slk := {}
  scv := {}
  hrv := {}
  etu := {}
  grf := {}
  tiles := []
  hif := {}
  saf := {}
  gpio := {}
  rst := { imgA := SlotImage.factory }
  psv := { cells := [(9072, { slot0 := .valid (620 + 690 * 2 ^ 16 + 760 * 2 ^ 32 + 810 * 2 ^ 48) 0 0 }),
                     (9073, { slot0 := .valid 860 0 0 })] }
  pwr := {}
  boot := {}
  pending := []

end Sys2Proof.Machine
end

