-- ==== Sys2Proof/Machine/Ops.lean ====
section
/-! DEFINITION. The shared operations of spec/02_register_pages.md: time, the register file, page headers, STATE,
events, errors, locks, resources and free values. Every meaning is written over these. -/

namespace Sys2Proof.Machine

/-! ## Pages (R49, R62, R63, and the EVENT_BITS of each chapter) -/

/-- What PAGE_ID and PAGE_CAPS say of an implemented page (Tables 2-14, 2-15), and the page whose STATE it
reads (R62). -/
structure PageInfo where
  type : Nat
  inst : Nat
  sub : Nat
  statePage : Nat
  eventBits : Nat
  ctrl : Bool
  deriving DecidableEq, Repr

/-- The pages a chapter implements; none for a reserved page (R49, R58). [DEDUCED: notes/assumptions/17.md] -/
def pageInfo (p : Nat) : Option PageInfo :=
  if Nat.blt p 0x003 then some ⟨1, 0, p, p, if p == 2 then 2 else 0, false⟩
  else if p == 0x010 then some ⟨2, 0, 0, 0x010, 7, true⟩
  else if p == 0x011 then some ⟨2, 0, 1, 0x010, 3, false⟩
  else if Nat.ble 0x020 p && Nat.blt p 0x040 then
    let sub := (p - 0x020) % 4
    some ⟨3, (p - 0x020) / 4, sub, p - sub, [8, 3, 2, 5].getD sub 0, sub == 0⟩
  else if p == 0x040 then some ⟨4, 0, 0, 0x040, 6, true⟩
  else if p == 0x041 then some ⟨4, 0, 1, 0x040, 0, false⟩
  else if p == 0x050 then some ⟨5, 0, 0, 0x050, 3, true⟩
  else if p == 0x060 then some ⟨6, 0, 0, 0x060, 4, true⟩
  else if p == 0x061 then some ⟨6, 0, 1, 0x060, 0, false⟩
  else if Nat.ble 0x080 p && Nat.blt p 0x0C0 then some ⟨7, p - 0x080, 0, p, 4, true⟩
  else if Nat.ble 0x0C0 p && Nat.blt p 0x0D0 then
    let sub := p % 2
    some ⟨8, (p - 0x0C0) / 2, sub, p - sub, if sub == 0 then 4 else 2, sub == 0⟩
  else if Nat.ble 0x0D0 p && Nat.blt p 0x0D3 then
    some ⟨9, 0, p - 0x0D0, 0x0D0, [3, 2, 3].getD (p - 0x0D0) 0, p == 0x0D0⟩
  else if Nat.ble 0x0F0 p && Nat.blt p 0x100 then
    let sub := p % 2
    some ⟨10, (p - 0x0F0) / 2, sub, p - sub, if sub == 0 || p == 0x0F1 then 4 else 0, sub == 0⟩
  else if Nat.ble 0x100 p && Nat.blt p 0x10C then
    some ⟨11, 0, p - 0x100, 0x100, if p == 0x100 then 3 else 0, p == 0x100⟩
  else if Nat.ble 0x110 p && Nat.blt p 0x11B then
    some ⟨12, 0, p - 0x110, 0x110, if p == 0x110 then 4 else 0, p == 0x110⟩
  else if Nat.ble 0x130 p && Nat.blt p 0x135 then
    some ⟨13, 0, p - 0x130, p, [4, 3, 2, 2, 3].getD (p - 0x130) 0, false⟩
  else if Nat.ble 0x150 p && Nat.blt p 0x153 then
    some ⟨14, 0, p - 0x150, p, if p == 0x150 then 6 else 0, false⟩
  else if Nat.ble 0x160 p && Nat.blt p 0x163 then
    some ⟨15, 0, p - 0x160, p, if p == 0x160 then 28 else 0, false⟩
  else if Nat.ble 0x200 p && Nat.blt p 0x260 then
    some ⟨16, p - 0x200, 0, p, if p == 0x210 then 6 else 0, false⟩
  else none

/-- The page whose STATE and PAGE_CTRL a page shows (R62). [DEDUCED: notes/assumptions/17.md] -/
def statePage (p : Nat) : Nat := match pageInfo p with | some i => i.statePage | none => p

/-- The pages of the instance whose first page is `p`. -/
def instancePages (p : Nat) : List Nat :=
  if p == 0x010 then [0x010, 0x011]
  else if Nat.ble 0x020 p && Nat.blt p 0x040 then [p, p + 1, p + 2, p + 3]
  else if p == 0x040 || p == 0x060 then [p, p + 1]
  else if Nat.ble 0x0C0 p && Nat.blt p 0x0D0 then [p, p + 1]
  else if p == 0x0D0 then [p, p + 1, p + 2]
  else if Nat.ble 0x0F0 p && Nat.blt p 0x100 then [p, p + 1]
  else if p == 0x100 then (List.range 12).map (0x100 + ·)
  else if p == 0x110 then (List.range 11).map (0x110 + ·)
  else [p]

/-- PERSISTENT of PAGE_CAPS (R691). -/
def isPersistent (p : Nat) : Bool := Nat.ble 0x200 p && Nat.blt p 0x260 && p != 0x210

/-- SAFETY of PAGE_CAPS: the page holds RWS fields. -/
def hasRws (p : Nat) : Bool := (pageRegs p).any (fun r => r.fields.any (fun f => f.acc == .rws))

/-- LOCKABLE of PAGE_CAPS: the page holds RWL fields, or is a host page (R710). -/
def lockable (p : Nat) : Bool :=
  (Nat.ble 0x220 p && Nat.blt p 0x260) || (pageRegs p).any (fun r => r.fields.any (fun f => f.acc == .rwl))

/-- PAGE_ID (Table 2-14). -/
def pageId (p : Nat) : Word :=
  match pageInfo p with
  | some i => word (i.type * 2 ^ 24 + i.inst * 2 ^ 16 + i.sub * 2 ^ 8 + 1)
  | none => 0

/-- PAGE_CAPS (Table 2-15). -/
def pageCaps (p : Nat) : Word :=
  match pageInfo p with
  | some i => word (i.eventBits * 2 ^ 8 + b2n (i.sub == 0) * 16 + b2n (isPersistent p) * 8 + b2n (hasRws p) * 4
      + b2n (lockable p) * 2 + b2n i.ctrl)
  | none => 0

/-! ## Writer IDs (R60, Table 2-4) -/

def Writer.rootstock : Nat := 0x01
def Writer.debugger : Nat := 0x02
def Writer.pf : Nat := 0x40
def Writer.vf (n : Nat) : Nat := 0x40 + n
/-- A virtual function's writer ID. -/
def Writer.isVf (w : Nat) : Bool := Nat.blt 0x40 w && Nat.ble w 0x7F
/-- The management writers: Rootstock and the debugger. -/
def Writer.isMgmt (w : Nat) : Bool := w == 0x01 || w == 0x02

/-! ## Updates of one block's state -/

/-- The `frm` part of the state is updated. -/
def State.updFrm (s : State) (f : Frm → Frm) : State := { s with frm := f s.frm }

/-- The `sep` part of the state is updated. -/
def State.updSep (s : State) (f : Sep → Sep) : State := { s with sep := f s.sep }

/-- The `slk` part of the state is updated. -/
def State.updSlk (s : State) (f : Slk → Slk) : State := { s with slk := f s.slk }

/-- The `scv` part of the state is updated. -/
def State.updScv (s : State) (f : Scv → Scv) : State := { s with scv := f s.scv }

/-- The `hrv` part of the state is updated. -/
def State.updHrv (s : State) (f : Hrv → Hrv) : State := { s with hrv := f s.hrv }

/-- The `etu` part of the state is updated. -/
def State.updEtu (s : State) (f : Etu → Etu) : State := { s with etu := f s.etu }

/-- The `grf` part of the state is updated. -/
def State.updGrf (s : State) (f : Grf → Grf) : State := { s with grf := f s.grf }

/-- The `hif` part of the state is updated. -/
def State.updHif (s : State) (f : Hif → Hif) : State := { s with hif := f s.hif }

/-- The `saf` part of the state is updated. -/
def State.updSaf (s : State) (f : Saf → Saf) : State := { s with saf := f s.saf }

/-- The `gpio` part of the state is updated. -/
def State.updGpio (s : State) (f : Gpio → Gpio) : State := { s with gpio := f s.gpio }

/-- The `rst` part of the state is updated. -/
def State.updRst (s : State) (f : Rst → Rst) : State := { s with rst := f s.rst }

/-- The `psv` part of the state is updated. -/
def State.updPsv (s : State) (f : Psv → Psv) : State := { s with psv := f s.psv }

/-- The `pwr` part of the state is updated. -/
def State.updPwr (s : State) (f : Pwr → Pwr) : State := { s with pwr := f s.pwr }

/-- The `boot` part of the state is updated. -/
def State.updBoot (s : State) (f : Boot → Boot) : State := { s with boot := f s.boot }

/-- The `mem` part of the state is updated. -/
def State.updMem (s : State) (f : MemState → MemState) : State := { s with mem := f s.mem }

/-! ## Time -/

/-- `dt` AON cycles pass: TIMEBASE advances by 5 ns in each (R26).
[DESIGN CHOICE: notes/assumptions/2.md; DESIGN CHOICE: notes/assumptions/6.md; DEDUCED: notes/assumptions/75.md] -/
def State.elapse (s : State) (dt : Nat) : State :=
  { s with cycles := s.cycles + dt, timebase := (s.timebase + 5 * dt) % 2 ^ 64 }

/-- AON cycles of a number of microseconds. -/
def usCycles (us : Nat) : Nat := 200 * us

/-- AON cycles of a number of milliseconds. -/
def msCycles (ms : Nat) : Nat := 200000 * ms

/-! ## The present AON cycle (R66, R86, R109) -/

/-- What has fallen in the present AON cycle. [DESIGN CHOICE: notes/assumptions/2.md] -/
def State.nowCyc (s : State) : Cyc := if s.cyc.at_ = s.cycles then s.cyc else { at_ := s.cycles }

/-- The record of the present AON cycle is updated. -/
def State.updCyc (s : State) (f : Cyc → Cyc) : State := { s with cyc := f s.nowCyc }

/-- Hardware sets the bits of `m` in the register with key `k` in the present cycle. -/
def State.noteRise (s : State) (k : Nat) (m : Word) : State := s.updCyc (fun c => { c with rose := (k, m) :: c.rose })

/-- The bits of the register with key `k` that hardware has set in the present cycle: a clear of this cycle leaves them (R66). -/
def State.risen (s : State) (k : Nat) : Word :=
  s.nowCyc.rose.foldl (fun (m : Word) x => if x.1 = k then m ||| x.2 else m) 0

/-! ## Free values -/

/-- The next free value: nothing constrains it. [DESIGN CHOICE: notes/assumptions/6.md] -/
def State.freeVal (s : State) : Nat := Config.freeValue s.free

/-- The state with the next free value drawn. [DESIGN CHOICE: notes/assumptions/6.md; DEDUCED: notes/assumptions/77.md] -/
def State.drawFree (s : State) : State := { s with free := s.free + 1 }

/-! ## The register file -/

/-- The register of the map that a page and offset name. -/
def regAt (p off : Nat) : Option RegDef :=
  (pageRegs p).find? (fun r =>
    Nat.ble r.off off &&
      (if r.stride == 0 then r.off == off
       else (off - r.off) % r.stride == 0 && Nat.blt ((off - r.off) / r.stride) r.count))

/-- The reset value of the register with key `k`. PORT_CFG ROLE resets to n on GRF_0 to GRF_5 and to 7 on the
spares (Table 12-10); CTX_INFO CONTEXT is the context's number (Table 13-12); the vector-control words of the
MSI-X table reset to masked (PRESUMED, "Per PCI Express" in Table 13-11: notes/assumptions/3.md). -/
def resetCell (k : Nat) : Word :=
  let p := k / 0x1000
  let off := k % 0x1000
  if Nat.ble 0x0F0 p && Nat.blt p 0x100 && p % 2 == 0 && off == 0x40 then
    word (if Nat.ble (p - 0x0F0) 10 then (p - 0x0F0) / 2 else 7)
  else if Nat.ble 0x1000 p && off == 0 then word (p - 0x1000)
  else if p == 0x10B && Nat.ble 0x800 off && Nat.blt off 0xA00 then word (if off % 16 == 12 then 1 else 0)
  else match regAt p off with
    | some r => word r.reset
    | none => 0

/-- A register of the register file. -/
def State.cell (s : State) (k : Nat) : Word := Sparse.get resetCell s.regs k

/-- A register of the register file takes a value. -/
def State.setCell (s : State) (k : Nat) (v : Word) : State :=
  { s with regs := Sparse.set resetCell s.regs k v }

/-- A field's value. -/
def State.fld (s : State) (f : Field) : Nat := getBits (s.cell f.reg) f.hi f.lo

/-- A field takes a value. -/
def State.setFld (s : State) (f : Field) (v : Nat) : State :=
  s.setCell f.reg (setBits (s.cell f.reg) f.hi f.lo v)

/-- A one-bit field's value. -/
def State.flag (s : State) (f : Field) : Bool := s.fld f == 1

/-- The signed reading of a field. -/
def State.sfld (s : State) (f : Field) : Int := signed (f.hi + 1 - f.lo) (s.fld f)

/-- A field takes the two's-complement code of an integer. -/
def State.setSfld (s : State) (f : Field) (i : Int) : State := s.setFld f (unsigned (f.hi + 1 - f.lo) i)

/-- A saturating counter counts `n` (R161). -/
def State.bumpBy (s : State) (f : Field) (n : Nat) : State :=
  s.setFld f (min (2 ^ (f.hi + 1 - f.lo) - 1) (s.fld f + n))

/-- A saturating counter counts one. -/
def State.bump (s : State) (f : Field) : State := s.bumpBy f 1

/-- Registers at 0x40 and above of a page, but for those `keep` names, return to their reset values (R72). -/
def State.resetPageRegs (s : State) (p : Nat) (keep : Nat → Bool) : State :=
  { s with regs := Sparse.drop s.regs (fun k => k / 0x1000 == p && !keep (k % 0x1000)) }

/-! ## Page headers and STATE -/

/-- The header of a page that nothing has changed: instances with PAGE_CTRL are OFF; the GLB, PWR and SAF pages
read RUNNING (R62, R748, R778), and persistent pages read OFF until they are restored (R698). -/
def hdrDefault (p : Nat) : PageHdr :=
  match pageInfo p with
  | some i =>
    if i.statePage != p then {}
    else if i.type == 16 && p != 0x210 then { cond := { off := true } }
    else if i.ctrl then { cond := { off := true } }
    else if i.type == 1 || i.type == 14 || i.type == 15 then { cond := { running := true } }
    else {}
  | none => {}

/-- The header of a page. -/
def State.page (s : State) (p : Nat) : PageHdr := Sparse.get hdrDefault s.hdr p

/-- The header of a page is replaced. -/
def State.setPage (s : State) (p : Nat) (h : PageHdr) : State :=
  { s with hdr := Sparse.set hdrDefault s.hdr p h }

/-! ## MSI-X (R594, R595, Table 13-9) -/

/-- A word of a virtual function's MSI-X table at reset: vector control masks its vector (PRESUMED, PCI Express: notes/assumptions/3.md). -/
def vfWordDefault (k : Nat) : Word := if k % 4 = 3 then 1 else 0

/-- Word `k` of virtual function `fn`'s MSI-X table (R561). -/
def State.vfWord (s : State) (fn k : Nat) : Word := Sparse.get vfWordDefault s.hif.vfMsix (fn * 128 + k)

/-- Vector `v` of virtual function `fn` is unmasked. -/
def State.vfUnmasked (s : State) (fn v : Nat) : Bool := getBits (s.vfWord fn (4 * v + 3)) 0 0 == 0

/-- Vector `v` of function `fn` (0 the physical function) has an occurrence of its source: it sends its message, a TLP (R559), or
its pending bit is set while the vector is masked (R595). [DEDUCED: notes/assumptions/58.md] -/
def State.signal (s : State) (fn v : Nat) : State :=
  if fn = 0 then
    if getBits (s.cell (R.HIF_MSIX (4 * v + 3))) 0 0 = 0 then
      s.updHif (fun h => { h with msixSent := h.msixSent ++ [v], tlpAt := s.cycles, l1 := false })
    else s.setCell R.HIF_MSIX_PBA (s.cell R.HIF_MSIX_PBA ||| (1#32 <<< v))
  else if s.vfUnmasked fn v then
    s.updHif (fun h => { h with msixSent := h.msixSent ++ [fn * 32 + v], tlpAt := s.cycles, l1 := false })
  else if s.hif.vfPending.contains (fn * 32 + v) then s
  else s.updHif (fun h => { h with vfPending := h.vfPending ++ [fn * 32 + v] })

/-- EVENT_PEND of a header (R79). -/
def PageHdr.pend (h : PageHdr) : Word := h.eventRaw &&& ~~~h.eventMask

/-- The vectors that a rise of EVENT_PEND from `old` to `new` on page `p` signals (Table 13-9). -/
def State.signalRise (s : State) (p : Nat) (old new : Word) : State :=
  let rise := new &&& ~~~old
  let s := if p = 0x160 ∧ rise ≠ 0 then s.signal 0 0 else s
  match pageInfo p with
  | some i => if rise &&& 0x80000000 ≠ 0 then s.signal 0 (2 + i.type) else s
  | none => s

/-- The header of a page is updated; a rise of EVENT_PEND signals its vector. -/
def State.updPage (s : State) (p : Nat) (f : PageHdr → PageHdr) : State :=
  let h := s.page p
  (s.setPage p (f h)).signalRise p h.pend (f h).pend

/-- STATE values (Table 2-7). -/
def St.off : Nat := 0
def St.idle : Nat := 1
def St.armed : Nat := 2
def St.running : Nat := 3
def St.draining : Nat := 4
def St.waiting : Nat := 5
def St.paused : Nat := 6
def St.fault : Nat := 7
def St.safe : Nat := 8
def St.limited : Nat := 9

/-- STATE from the conditions, in the order of R77. [DEDUCED: notes/assumptions/17.md] -/
def stateOf (c : Cond) : Nat :=
  if c.off || c.gated then St.off
  else if c.safe then St.safe
  else if c.fault then St.fault
  else if c.limited then St.limited
  else if c.frozen || c.ownPause then St.paused
  else if c.waiting then St.waiting
  else if c.draining then St.draining
  else if c.running then St.running
  else if c.armed then St.armed
  else St.idle

/-- PAGE_STATUS STATE of a page (R62, R77). -/
def State.pstate (s : State) (p : Nat) : Nat := stateOf (s.page (statePage p)).cond

/-- The key under which a header register of a page stands in the record of a cycle. -/
def hdrKey (p off : Nat) : Nat := p * 0x1000 + off

/-- Event `b` of a page occurs (R79). -/
def State.event (s : State) (p b : Nat) : State :=
  (s.updPage p (fun h => { h with eventRaw := h.eventRaw ||| (1#32 <<< b) })).noteRise (hdrKey p 0x10) (1#32 <<< b)

/-- Event `b` occurs on each page of a list. -/
def State.eventAll (s : State) (ps : List Nat) (b : Nat) : State := ps.foldl (fun s p => s.event p b) s

/-- The conditions of the instance with state page `q` change; a changed STATE is noted in PREV_STATE and raises STATE_CHANGE on
the pages of the instance (R77, Table 2-8). -/
def State.setCond (s : State) (q : Nat) (f : Cond → Cond) : State :=
  let h := s.page q
  let c := f h.cond
  let s' := s.setPage q { h with cond := c, prevState := if stateOf c = stateOf h.cond then h.prevState else stateOf h.cond }
  if stateOf c = stateOf h.cond then s' else s'.eventAll (instancePages q) 28

/-- A page of the instance of page `p` has an abandoned lock, and the instance is not RUNNING: it does not become so (R93). -/
def State.lockStops (s : State) (p : Nat) : Bool :=
  !(s.page (statePage p)).cond.running && (instancePages (statePage p)).any (fun q => (s.page q).lockAbandoned)

/-- The Separator's STATE follows the Frame Scheduler's (R259), but for an abandoned lock that keeps it IDLE (R93).
[DEDUCED: notes/assumptions/22.md] -/
def State.sepFollow (s : State) : State :=
  let st := s.pstate 0x010
  let on := (s.page 0x040).enable && (st == St.armed || st == St.running) && !s.lockStops 0x040
  s.setCond 0x040 (fun c => { c with running := on })

/-- The conditions of the instance of page `p` change; where it is the Frame Scheduler, the Separator follows (R77, R259). -/
def State.updCond (s : State) (p : Nat) (f : Cond → Cond) : State :=
  let q := statePage p
  let s := s.setCond q f
  if q = 0x010 then s.sepFollow else s

/-- FREEZE of an instance holds it, or takes it at the safe point it stands at: it is PAUSED, or its STATE is one that pauses (R74). -/
def PageHdr.pausing (h : PageHdr) : Bool :=
  let st := stateOf h.cond
  h.cond.frozen || h.cond.ownPause || (h.freeze && (st == St.idle || st == St.armed || st == St.running))

/-- The instance of page `p` may begin work between two pieces of it (R74, R93). -/
def State.mayWork (s : State) (p : Nat) : Bool := !(s.page (statePage p)).pausing && !s.lockStops p

/-! ## Errors (R84 to R87) -/

/-- An error or note goes on its way to the event log. While Rootstock is in RESET or DEAD, the queue of AON hardware
holds 64; a further one is lost and counted (R660). -/
def State.logged (s : State) (r : LogReq) : State :=
  if 2 ≤ s.fld F.MBX_RST_RX_STATE ∧ 64 ≤ s.logQueue.length then s.bump F.RST_RING_LOST_CNT
  else { s with logQueue := s.logQueue ++ [r] }

/-- A page's error registers take an error (R84). -/
def PageHdr.take (h : PageHdr) (code : Nat) (info : Word) : PageHdr :=
  if h.errCode = 0 then { h with errCode := code, errInfo := info, moreCnt := 0 } else { h with moreCnt := min 255 (h.moreCnt + 1) }

/-- A page records an error: CODE and ERR_INFO are loaded, or MORE_CNT counts; the ERROR event occurs; the
error goes to the event log. -/
def State.error (s : State) (p code : Nat) (info : Word) : State :=
  let before := (s.page p).errCode
  let s := s.updPage p (fun h => { h.take code info with eventRaw := h.eventRaw ||| (1#32 <<< 31) })
  let s := (s.noteRise (hdrKey p 0x10) (1#32 <<< 31)).updCyc (fun c => { c with errs := c.errs ++ [⟨p, code, info, before⟩] })
  s.logged ⟨s.timebase, code, info, p, before != 0, 0⟩

/-- A Rootstock note for the event log (Table 15-8). -/
def State.note (s : State) (code : Nat) (info : Word) : State :=
  s.logged ⟨s.timebase, code, info, 0x3FF, false, 1⟩

/-- Common error codes (Table 2-9). -/
def Err.fieldRange : Nat := 0x1001
def Err.lengthExceedsBuffer : Nat := 0x1002
def Err.lengthMaxReserved : Nat := 0x1003
def Err.freezeInFrame : Nat := 0x1004
def Err.resourceHeld : Nat := 0xA001
def Err.writeCollided : Nat := 0xA002
def Err.lockAbandoned : Nat := 0xA003
def Err.lockNotHeld : Nat := 0xA004
def Err.domainGated : Nat := 0xA005

/-- ERR_INFO of FIELD_RANGE and the length codes for a register (Table 2-9). -/
def infoReg (off lowBit : Nat) : Word := word (lowBit * 2 ^ 16 + off % 2 ^ 12)

/-- ERR_INFO of FIELD_RANGE and the length codes for a binary structure (Table 2-9). -/
def infoStruct (off : Nat) : Word := word (2 ^ 31 + off % 2 ^ 31)

/-- ERR_INFO of LOCK_NOT_HELD and DOMAIN_GATED (Table 2-9). -/
def infoOffWriter (off writer : Nat) : Word := word (off % 2 ^ 12 * 2 ^ 8 + writer % 256)

/-- The checks of a length field, in order (R105): all ones, below the minimum or above the documented
maximum, beyond the buffer. -/
def lengthCheck (width v minimum maximum buffer : Nat) : Option Nat :=
  if v = 2 ^ width - 1 then some Err.lengthMaxReserved
  else if v < minimum ∨ maximum < v then some Err.fieldRange
  else if buffer < v then some Err.lengthExceedsBuffer
  else none

/-! ## Lifetime events (R709) -/

/-- SAFE_CNT counts a safe-state entry. -/
def State.lifeSafe (s : State) : State :=
  s.updPsv (fun p => { p with life := { p.life with safe := p.life.safe + 1 } })

/-- TRIP_CNT counts a hardware thermal trip. -/
def State.lifeTrip (s : State) : State :=
  s.updPsv (fun p => { p with life := { p.life with trip := p.life.trip + 1 } })

/-! ## Locks (R89 to R95) -/

/-- A page's lock is abandoned (R92). -/
def State.abandonLock (s : State) (p : Nat) : State :=
  let h := s.page p
  let seq := (h.lockSeq + 1) % 2 ^ 16
  let s := s.setPage p { h with lockHeld := false, lockOwner := 0, lockAbandoned := true, lockSeq := seq }
  (s.error p Err.lockAbandoned (word (seq * 2 ^ 8 + h.lockOwner))).event p 30

/-- A held lock is abandoned, once in an AON cycle (R92, R109). -/
def State.abandonOnce (s : State) (p : Nat) : State :=
  if (s.page p).lockHeld && !s.nowCyc.abandoned.contains p then
    (s.abandonLock p).updCyc (fun c => { c with abandoned := p :: c.abandoned })
  else s

/-- Every lock whose owner satisfies `who` is abandoned (R92, Table 2-11). [DEDUCED: notes/assumptions/22.md] -/
def State.abandonLocks (s : State) (who : Nat → Bool) : State :=
  (s.hdr.filter (fun x => x.2.lockHeld && who x.2.lockOwner)).foldl (fun s x => s.abandonOnce x.1) s

/-- A write to RWL fields of a page by `w` is admitted (R90, R91). -/
def lockAdmits (h : PageHdr) (w : Nat) : Bool :=
  if h.lockHeld then h.lockOwner == w else !h.lockAbandoned

/-! ## Shared resources (R99 to R103) -/

/-- The page that holds a resource. -/
def State.holder (s : State) (res : Nat) : Option Nat := (s.held.find? (fun x => x.1 == res)).map (·.2)

/-- The instance that has the better claim to a resource than `p` in the present cycle: its holder, or of a free one a waiter whose
request comes before one of `p` (R101). [DEDUCED: notes/assumptions/21.md] -/
def State.claimant (s : State) (p res : Nat) : Option Nat :=
  match s.holder res with
  | some q => some q
  | none => (s.waiters.find? (fun w => w.res == res && (w.preempted || Nat.blt w.at_ s.cycles || Nat.blt w.page p))).map (·.page)

/-- The resources of a list that an instance waits for, with the instance it waits for. -/
def State.blockedBy (s : State) (p : Nat) (rs : List Nat) : List (Nat × Nat) :=
  rs.filterMap (fun r => match s.claimant p r with
    | some q => if q = p then none else some (r, q)
    | none => none)

/-- A request joins the waits: after those before it, and among those of its cycle by page (R101). -/
def waitInsert (w : Waiter) : List Waiter → List Waiter
  | [] => [w]
  | x :: t => if !x.preempted && x.at_ == w.at_ && Nat.blt w.page x.page then w :: x :: t else x :: waitInsert w t

/-- An instance asks for resources on leaving IDLE for the STATE `wants` (R99, R100). It takes those that are
free; for those held elsewhere it waits, with RESOURCE_HELD recorded for each. [DEDUCED: notes/assumptions/21.md] -/
def State.acquire (s : State) (p : Nat) (rs : List Nat) (wants : Nat) : State :=
  let blocked := s.blockedBy p rs
  let free := rs.filter (fun r => s.claimant p r == none)
  let s := { s with
    held := s.held ++ free.map (fun r => (r, p)),
    waiters := blocked.foldl (fun (l : List Waiter) (x : Nat × Nat) => waitInsert ⟨p, x.1, wants, false, s.cycles⟩ l) s.waiters }
  let s := blocked.foldl (fun s x => s.error p Err.resourceHeld (word (x.2 % 2 ^ 10 * 2 ^ 16 + x.1 % 2 ^ 16))) s
  if blocked = [] then s.updCond p (fun c => if wants = St.armed then { c with armed := true } else { c with running := true })
  else s.updCond p (fun c => { c with waiting := true })

/-- An instance gives up its resources and leaves the queue of waiters (R99, R71). -/
def State.release (s : State) (p : Nat) : State :=
  { s with held := s.held.filter (fun x => x.2 != p), waiters := s.waiters.filter (fun x => x.page != p) }

/-- A Rootstock safety function takes a resource at once (R102): the holder waits with page 0x160 as holder.
[DEDUCED: notes/assumptions/21.md] -/
def State.preempt (s : State) (res : Nat) : State :=
  match s.holder res with
  | none => { s with held := s.held ++ [(res, 0x160)] }
  | some q =>
    if q = 0x160 then s
    else
      let s := { s with
        held := (s.held.filter (fun (x : Nat × Nat) => x.1 != res)) ++ [(res, 0x160)],
        waiters := (⟨q, res, St.running, true, s.cycles⟩ : Waiter) :: s.waiters }
      (s.error q Err.resourceHeld (word (0x160 * 2 ^ 16 + res % 2 ^ 16))).updCond q (fun c => { c with waiting := true })

/-- Every waiter of a free resource is served in the order of R101, the pre-empted holder first (R102); an
instance that waits for nothing more proceeds to the STATE it had requested. [DEDUCED: notes/assumptions/21.md] -/
def State.grantOne (s : State) (w : Waiter) : State :=
  let s := { s with held := s.held ++ [(w.res, w.page)], waiters := s.waiters.filter (fun x => !(x.page == w.page && x.res == w.res)) }
  if s.waiters.any (fun x => x.page == w.page) then s
  else s.updCond w.page (fun c =>
    let c := { c with waiting := false }
    if w.preempted then c
    else if w.wants = St.armed then { c with armed := true } else { c with running := true })

end Sys2Proof.Machine
end

