-- ==== Sys2Proof/Machine/Cycle.lean ====
section
/-! DEFINITION. The commands that share an AON cycle with the present one, and the abandonments that come before the writes of that cycle
(spec/02_register_pages.md, R109). -/

namespace Sys2Proof.Machine

/-- The AON cycles between a command and the one before it. -/
def dtOf : Instr → Nat
  | .registerWrite dt _ _ _ _ => dt
  | .counterWrite dt _ _ _ _ => dt
  | .pageEnable dt _ _ _ => dt
  | .softReset dt _ _ => dt
  | .softResetDone dt _ => dt
  | .freeze dt _ _ _ => dt
  | .freezeSafePoint dt _ => dt
  | .drainComplete dt _ => dt
  | .eventPendClear dt _ _ _ => dt
  | .errCodeClear dt _ _ _ => dt
  | .lockAcquire dt _ _ => dt
  | .lockRelease dt _ _ => dt
  | .lockRecovered dt _ _ => dt
  | .lockBreak dt _ _ => dt
  | .lockAbandon dt _ => dt
  | .resourceGrant dt => dt
  | .frmStart dt _ => dt
  | .frmStop dt _ => dt
  | .planLoad dt _ _ => dt
  | .planLoadDone dt => dt
  | .planSwitch dt _ => dt
  | .planUnload dt _ _ => dt
  | .planRecheck dt _ => dt
  | .tick dt => dt
  | .frameSyncEdge dt => dt
  | .flywheelTick dt => dt
  | .syncOutEnd dt => dt
  | .timeMark dt => dt
  | .timeSample dt _ _ _ => dt
  | .timeHoldover dt => dt
  | .drainWindowEnd dt => dt
  | .binningComplete dt => dt
  | .sepCloseLate dt => dt
  | .thinningDone dt => dt
  | .directoryCommitDone dt => dt
  | .bankTake dt => dt
  | .stageDispatch dt => dt
  | .stageComplete dt _ => dt
  | .publication dt => dt
  | .budgetExceeded dt => dt
  | .coreFreqChange dt => dt
  | .frameJobAccept dt _ _ _ => dt
  | .laneCfgWrite dt _ _ _ => dt
  | .laneReload dt _ _ _ => dt
  | .vgaSet dt _ _ _ => dt
  | .ctfSet dt _ _ _ => dt
  | .acqGainCheck dt _ _ => dt
  | .acquisitionEnd dt _ _ => dt
  | .trackingGainStep dt _ _ => dt
  | .invalidWindowEnd dt _ _ => dt
  | .defectRegionEnd dt _ _ => dt
  | .losEnter dt _ _ => dt
  | .losClear dt _ _ => dt
  | .timingRange dt _ _ => dt
  | .syncMarkFound dt _ _ => dt
  | .fragmentHeader dt _ _ => dt
  | .syncWindowClose dt _ _ _ _ => dt
  | .sectorDecodeDone dt _ _ => dt
  | .inGapOpen dt _ _ => dt
  | .indexFieldLocated dt _ _ _ => dt
  | .indexMiss dt _ _ => dt
  | .retryStepStart dt _ => dt
  | .retryStepDone dt _ _ => dt
  | .retryDeadline dt _ _ => dt
  | .dlSend dt _ _ _ => dt
  | .downlinkTxStart dt _ => dt
  | .downlinkTxDone dt _ => dt
  | .inhibitWaitExpire dt _ => dt
  | .pointAccept dt => dt
  | .posePush dt _ => dt
  | .poseClear dt _ => dt
  | .hrvArgmax dt => dt
  | .hrvTopkStream dt => dt
  | .hrvTopkBucket dt => dt
  | .hrvFpsStep dt => dt
  | .hrvRequestDone dt => dt
  | .scvSubm dt _ _ => dt
  | .scvStrided dt _ _ => dt
  | .scvInverse dt _ _ => dt
  | .bevScatter dt _ => dt
  | .tileItemStart dt _ => dt
  | .tileMatmul dt _ => dt
  | .tileDconv dt _ => dt
  | .tileVec dt _ => dt
  | .tileReduce dt _ => dt
  | .tileDma dt _ => dt
  | .tileGather dt _ => dt
  | .tileHrv dt _ => dt
  | .tileFence dt _ => dt
  | .tileOpComplete dt _ _ _ => dt
  | .tileGate dt _ => dt
  | .tileWake dt _ => dt
  | .tileWakeCmd dt _ _ _ => dt
  | .testWindowOpen dt => dt
  | .testDone dt _ _ => dt
  | .testReq dt _ _ => dt
  | .testOverdue dt _ => dt
  | .churnRead dt _ _ => dt
  | .churnWrite dt _ _ _ => dt
  | .churnAdd32 dt _ _ _ _ => dt
  | .summaryMerge dt _ _ _ => dt
  | .churnDequant dt _ _ _ => dt
  | .churnPool dt _ _ _ _ => dt
  | .scrubLine dt _ _ _ => dt
  | .shardCfgWrite dt _ _ _ => dt
  | .etuDefine dt _ _ => dt
  | .etuUndefine dt _ _ => dt
  | .etuReplace dt _ _ => dt
  | .etuFold dt _ _ => dt
  | .etuUnmigrate dt _ _ => dt
  | .etuCacheFlush dt _ _ => dt
  | .etuCmdDone dt _ => dt
  | .etuGather dt _ _ => dt
  | .etuPool dt _ _ => dt
  | .etuUpdate dt _ _ => dt
  | .etuJobDone dt _ => dt
  | .loadWindowEnd dt => dt
  | .migrationMove dt => dt
  | .cacheShareWrite dt _ _ => dt
  | .linkTrainDone dt _ => dt
  | .linkAlignDone dt _ => dt
  | .grfExchange dt _ _ _ _ _ => dt
  | .dataFlit dt _ _ _ => dt
  | .grfNak dt _ _ => dt
  | .replayTimeout dt _ => dt
  | .laneLockLost dt _ _ => dt
  | .recoverTimeout dt _ => dt
  | .grfRead dt _ => dt
  | .grfWrite dt _ => dt
  | .grfAdd32 dt _ => dt
  | .grfGather dt _ => dt
  | .grfTadd dt _ => dt
  | .grfMessage dt _ => dt
  | .grfBarrierArrive dt _ => dt
  | .grfBarrierRelease dt _ => dt
  | .grfRspData dt _ => dt
  | .grfRspAck dt _ => dt
  | .transitForward dt _ => dt
  | .remoteRequest dt _ _ _ _ _ _ => dt
  | .remoteTimeout dt => dt
  | .lostSet dt _ _ => dt
  | .lostClear dt _ _ => dt
  | .lostQuery dt _ _ => dt
  | .barArrive dt _ _ => dt
  | .barCfgWrite dt _ _ _ => dt
  | .barrierTimeout dt _ => dt
  | .nodeCfgWrite dt _ _ => dt
  | .ringTailWrite dt _ _ _ _ _ => dt
  | .ringEntryConsume dt => dt
  | .jobNop dt _ _ => dt
  | .jobCopyIn dt _ _ _ => dt
  | .jobCopyOut dt _ _ => dt
  | .copyComplete dt _ _ => dt
  | .jobFrame dt _ _ => dt
  | .jobWaitFrame dt _ _ => dt
  | .jobRegWrite dt _ _ => dt
  | .jobRegRead dt _ _ => dt
  | .jobDownlink dt _ _ => dt
  | .jobBarrier dt _ _ => dt
  | .ctxReset dt _ _ => dt
  | .vfFlr dt _ => dt
  | .pfFlr dt _ => dt
  | .perst dt => dt
  | .hostAccessFail dt _ _ _ => dt
  | .poisonedTlp dt _ => dt
  | .funcCtxWrite dt _ _ _ => dt
  | .msixUnmask dt _ _ => dt
  | .l1Entry dt => dt
  | .hostConfigReady dt _ _ _ => dt
  | .privatePost dt _ _ _ _ _ => dt
  | .privateSlotFree dt _ _ _ => dt
  | .privateTake dt => dt
  | .hostNote dt => dt
  | .privPolicyWrite dt _ _ _ => dt
  | .mailboxSend dt _ _ _ _ => dt
  | .sendCmdRst dt _ _ => dt
  | .sendCmdPf dt _ _ => dt
  | .mbTake dt _ _ _ => dt
  | .dbRing dt _ _ _ => dt
  | .dbPendClear dt _ _ _ => dt
  | .dbMaskWrite dt _ _ _ => dt
  | .mbxCfgWrite dt _ _ _ => dt
  | .rootstockReset dt _ _ _ _ => dt
  | .rootstockReady dt _ => dt
  | .rstResetReq dt _ _ _ => dt
  | .rstWatchdog dt _ _ _ _ => dt
  | .lockstepMismatch dt => dt
  | .sramUe dt => dt
  | .thermalScan dt _ _ => dt
  | .clockMonitorFault dt _ => dt
  | .voltageWindowFault dt _ _ => dt
  | .shockSample dt _ _ _ _ => dt
  | .coolantSample dt _ => dt
  | .logEntry dt => dt
  | .bbWrite dt _ => dt
  | .logFetch dt _ => dt
  | .logFetchDone dt _ => dt
  | .updStage dt _ _ _ => dt
  | .updStageDone dt _ => dt
  | .updActivate dt _ _ _ => dt
  | .updConfirm dt _ _ _ => dt
  | .updRevert dt _ _ _ => dt
  | .updAbort dt _ _ => dt
  | .updRevoke dt _ _ _ => dt
  | .overrideSet dt _ _ => dt
  | .overrideClear dt _ _ => dt
  | .dbgChallenge dt _ => dt
  | .dbgResponse dt _ => dt
  | .dbgReg dt _ _ _ => dt
  | .dbgClose dt => dt
  | .tapReset dt => dt
  | .debugLeaseExpire dt => dt
  | .debugLockoutEnd dt => dt
  | .dbgCfgWrite dt _ _ => dt
  | .dmiHalt dt => dt
  | .jtagExtest dt => dt
  | .jtagClamp dt => dt
  | .jtagHighz dt => dt
  | .persistWrite dt _ _ _ _ => dt
  | .persistCommitDone dt _ => dt
  | .brownOut dt => dt
  | .brownOutEnd dt => dt
  | .wearSelWrite dt _ _ => dt
  | .lifetimeCommit dt => dt
  | .pwrReqRun dt _ => dt
  | .pwrReqTrim dt _ => dt
  | .pwrReqSentry dt _ => dt
  | .pwrReqParked dt _ => dt
  | .lowPowerEntryDone dt => dt
  | .wakeIn dt => dt
  | .wakeTimer dt => dt
  | .wakeDone dt _ => dt
  | .wakeCauseClear dt _ _ => dt
  | .sentryWindow dt => dt
  | .sentryListenEnd dt => dt
  | .sentryProgramDone dt => dt
  | .sentryProgramOverrun dt => dt
  | .hwThermalTrip dt _ _ => dt
  | .ageHour dt _ _ => dt
  | .vddLow dt _ => dt
  | .safEnter dt _ _ => dt
  | .safRelease dt _ _ => dt
  | .safeStateRelease dt => dt
  | .frameWatchdog dt => dt
  | .e2eCheckDone dt => dt
  | .redundDecision dt _ _ => dt
  | .regParityError dt _ _ => dt
  | .parityScan dt _ => dt
  | .injArm dt _ _ _ => dt
  | .injectionApply dt => dt
  | .safSelfFault dt => dt
  | .powerOnReset dt _ _ _ _ _ _ _ _ => dt
  | .deviceResetRequest dt _ _ _ => dt
  | .deviceReset dt _ _ _ _ _ => dt
  | .startupTileTestDone dt _ => dt
  | .dramTrainingDone dt _ _ => dt
  | .startupChecks dt => dt
  | .gpioFuncWrite dt _ _ _ => dt
  | .clockInWindow dt => dt
  | .railsInWindow dt => dt
  | .rootstockAsleep dt => dt
  | .vfEnableWrite dt _ _ => dt
  | .bar4Write dt _ _ => dt
  | .jtagOtherInstruction dt _ => dt

/-- Table 2-11: the owners whose locks an event abandons, by the state in which it comes. A LOCK_ABANDON and a BREAK name their
page. [DEDUCED: notes/assumptions/22.md] -/
def State.eventAbandons (s : State) (i : Instr) (p owner : Nat) : Bool :=
  match i with
  | .lockAbandon _ q => p == q
  | .lockBreak _ q w => p == q && w == Writer.rootstock && owner != Writer.rootstock
  | .vfFlr _ n => Nat.ble 1 n && Nat.ble n s.hif.numVfs && owner == Writer.vf n
  | .vfEnableWrite _ on _ => !on && Writer.isVf owner
  | .pfFlr _ _ => Nat.ble 0x40 owner
  | .perst _ => Nat.ble 0x40 owner
  | .rootstockReset _ _ _ _ _ => s.rst.resetDue.isSome && owner == Writer.rootstock
  | .rstWatchdog _ _ _ _ _ => !s.flag F.RST_STATUS_DEAD && owner == Writer.rootstock
  | .lockstepMismatch _ => !s.flag F.RST_STATUS_DEAD && owner == Writer.rootstock
  | .sramUe _ => !s.flag F.RST_STATUS_DEAD && owner == Writer.rootstock
  | .dbgClose _ => owner == Writer.debugger
  | .tapReset _ => owner == Writer.debugger
  | .debugLeaseExpire _ => Nat.ble s.rst.leaseEnd s.cycles && owner == Writer.debugger
  | _ => false

/-- LOCK_ABANDON: the owner of the page's lock has met an event of Table 2-11 (R92). It acts once in a cycle. -/
def State.lockAbandon (s : State) (p : Nat) : State := s.abandonOnce p

/-- The commands that wait in the queue for the present AON cycle. -/
def State.cycleAhead (s : State) : List Instr := s.pending.takeWhile (fun i => dtOf i == 0)

/-- The locks that an event of the present cycle abandons, as it stands. -/
def State.abandonedBy (s : State) (i : Instr) : List Nat :=
  (s.hdr.filter (fun x => x.2.lockHeld && s.eventAbandons i x.1 x.2.lockOwner)).map (·.1)

/-- Abandonment takes effect before any write of the same cycle (R109). [DEDUCED: notes/assumptions/22.md] -/
def State.actAbandons (s : State) : State :=
  s.cycleAhead.foldl (fun (s : State) i => (s.abandonedBy i).foldl (fun (s : State) p => s.abandonOnce p) s) s

end Sys2Proof.Machine
end

