-- ==== Sys2Proof/Machine/MemBase.lean ====
section
/-! DEFINITION. Where device addresses lie, and the bytes behind them (spec/10_memory_ordering.md, R411 to R416). -/

namespace Sys2Proof.Machine

/-! ## The part's tiles and channels -/

/-- Tile `t` is enabled (R3, R21). -/
def State.tilePresent (s : State) (t : Nat) : Bool := !s.fuses.failed && Nat.blt t 64 && bitOf s.fuses.tiles t

/-- The enabled tiles in ascending number. -/
def State.enabledTiles (s : State) : List Nat := (List.range 64).filter s.tilePresent

/-- TILE_COUNT (Table 0-9). -/
def State.tileCount (s : State) : Nat := s.enabledTiles.length

/-- SITE_CAPACITY (R7). -/
def State.siteCapacity (s : State) : Nat := 16384 * s.tileCount

/-- U: the data bytes of a channel, 15/16 of its capacity. -/
def State.chanU (s : State) : Nat := s.mem.chGib * 2 ^ 30 * 15 / 16

/-- The reset value of SHARD_BASE in units of 4 MiB (R414): U - 4 MiB. -/
def State.shardReset (s : State) : Nat := s.chanU / 2 ^ 22 - 1

/-- The data rate code of channel `c` (R408, R410). -/
def State.rateOf (s : State) (c : Nat) : Nat := s.mem.rates.getD c 3 % 4

/-- SHARD_BASE (R414). -/
def State.shardBase (s : State) : Nat := s.mem.shardBase4M * 2 ^ 22

/-- SHARD_SIZE (R414). -/
def State.shardSize (s : State) : Nat := s.chanU - 2 ^ 22 - s.shardBase

/-- DRAM_TOP (R414). -/
def State.dramTop (s : State) : Nat := 8 * s.shardBase

/-- The offset of a device address in the area; none outside it. -/
def State.areaOff (s : State) (d : Nat) : Option Nat :=
  let b := s.fld F.MBX_AREA_LO_ADDR * 2 ^ 15 + s.fld F.MBX_AREA_HI_ADDR * 2 ^ 32
  if s.flag F.MBX_CFG_AREA_EN && Nat.ble b d && Nat.blt d (b + 0x8000) then some (d - b) else none

/-- The counters of a memory controller whose count is a free value: RD_64K_CNT, WR_64K_CNT and CLASS_STALL (Tables 10-9, 10-10). -/
def freeCounter (p off : Nat) : Bool :=
  Nat.ble 0x0C0 p && Nat.blt p 0x0D0 && (if p % 2 = 0 then off == 0x6C || off == 0x70 else Nat.ble 0x60 off && Nat.blt off 0x70)

/-- Such a counter is set to 0 (R456). -/
def State.countFrom (s : State) (p off : Nat) : State :=
  if freeCounter p off then
    s.updMem (fun m => { m with clearedAt := Sparse.set (fun _ => s.boot.t0) m.clearedAt (p * 0x1000 + off) s.cycles })
  else s

/-! ## Address map (R411 to R416) -/

/-- The home of a device address. -/
inductive Home where
  | dram (c a : Nat)
  | cellar (t off : Nat)
  | fusedOff
  | result (off : Nat)
  | mailbox (off : Nat)
  | global
  | reserved
  deriving DecidableEq, Repr

/-- The channel of an interleaved address (R415). -/
def ilvChannel (d : Nat) : Nat :=
  natBits d 10 8 ^^^ natBits d 13 11 ^^^ natBits d 16 14 ^^^ natBits d 19 17

/-- The channel address of an interleaved address (R415). -/
def ilvAddr (d : Nat) : Nat := natBits d 35 11 * 256 + natBits d 7 0

/-- The window of Table 2-3 at a BAR 4 offset. -/
def State.windowHome (s : State) (x : Nat) : Home :=
  if x < 0x6000000 then
    let t := x / 0x180000
    if s.tilePresent t then .cellar t (x % 0x180000) else .fusedOff
  else .result (x - 0x6000000)

/-- Table 10-2, under the mailbox area (R629). -/
def State.home (s : State) (d : Nat) : Home :=
  match s.areaOff d with
  | some x => .mailbox x
  | none =>
  if 2 ^ 48 ≤ d then .reserved
  else if 0x800000000000 ≤ d then .global
  else if d < s.dramTop then .dram (ilvChannel d) (ilvAddr d)
  else if d < 0x001000000000 then .reserved
  else if d < 0x001008000000 then s.windowHome (d - 0x001000000000)
  else if d < 0x002000000000 then .reserved
  else if d < 0x003000000000 then
    let n := (d - 0x002000000000) / 0x200000000
    let o := (d - 0x002000000000) % 0x200000000
    if n < 8 ∧ o < s.shardSize then .dram n (s.shardBase + o) else .reserved
  else .reserved

/-- The key of a channel address in the DRAM memory. -/
def dramKey (c a : Nat) : Nat := c * 2 ^ 33 + a

/-- The key of a slice offset in the Cellar memory. -/
def cellarKey (t off : Nat) : Nat := t * 0x180000 + off

/-- The physical byte of a channel that holds the data byte of channel address `a`: ECC groups of 1,024 bytes, each of 15 data lines
and one ECC line (R417). The memory is kept by channel address; this is where the part puts it. -/
def eccByte (a : Nat) : Nat := a / 64 / 15 * 1024 + a / 64 % 15 * 64 + a % 64

/-- The physical byte at which the four bytes of the check word of the line of channel address `a` begin (R417). -/
def eccWord (a : Nat) : Nat := a / 64 / 15 * 1024 + 960 + 4 * (a / 64 % 15)

/-- What an unlisted byte reads as. [DEDUCED: notes/assumptions/7.md] -/
def byte0 (_ : Nat) : Byte := 0

/-- What an unlisted byte of the Cellar reads as: 0, or after a stay in SENTRY or PARKED a part of a free value, but for the feature
region that was kept (R722). [DESIGN CHOICE: notes/assumptions/8.md] -/
def cellarByte0 : List (Nat × Option Nat) → Nat → Byte
  | [], _ => 0
  | (d, kept) :: t, k =>
    if kept == some (k / 0x180000) && Nat.ble 0xA0000 (k % 0x180000) then cellarByte0 t k else BitVec.ofNat 8 (Config.freeAt d k)

/-- What an unlisted mark reads as. -/
def noMark (_ : Nat) : Bool := false

/-- The device address of a slice offset (Table 10-2). -/
def cellarAddr (t off : Nat) : Nat := 0x001000000000 + t * 0x180000 + off

/-- The device address of a result-buffer set's offset (R588). -/
def resultAddr (set off : Nat) : Nat := 0x001006000000 + set * 0x1000000 + off

/-- A shard-window address (R416). -/
def shardAddr (c o : Nat) : Nat := 0x002000000000 + c * 2 ^ 33 + o

/-- The interleaved device address of a channel address (R415). -/
def ilvDevice (c a : Nat) : Nat :=
  let h := a / 256 * 2048
  h + (c ^^^ natBits h 13 11 ^^^ natBits h 16 14 ^^^ natBits h 19 17) * 256 + a % 256

/-- The place of line `k` of the result-buffer window in the carve-outs (R454, R455): channel and channel address. Which of the 65,536
lines of which channel backs it is not the spec's. [DESIGN CHOICE: notes/assumptions/49.md] -/
def State.windowPlace (s : State) (k : Nat) : Nat × Nat :=
  let p := Config.windowPlace k % 2 ^ 19
  (p / 2 ^ 16, s.chanU - 2 ^ 22 + 64 * (p % 2 ^ 16))

/-! ## Bytes without marks -/

/-- The bytes of a list enter a memory at rising keys; `z` is what an unlisted byte reads as. -/
def Mem.writeAt (z : Nat → Byte) (m : Mem) (k : Nat) : List Byte → Mem
  | [] => m
  | b :: t => Mem.writeAt z (Sparse.set z m k b) (k + 1) t

/-- One byte as it is stored at a device address; 0 where no byte is stored. [DEDUCED: notes/assumptions/7.md] -/
def State.peekByte (s : State) (d : Nat) : Byte :=
  match s.home d with
  | .dram c a => Sparse.get byte0 s.mem.dram (dramKey c a)
  | .cellar t off => Sparse.get (cellarByte0 s.mem.cellarLoss) s.mem.cellar (cellarKey t off)
  | .result off => Sparse.get byte0 s.mem.result off
  | .mailbox _ => 0
  | .fusedOff => 0
  | .global => 0
  | .reserved => 0

/-- Stored bytes, as a descriptor is read in place (R133). -/
def State.peek (s : State) (d n : Nat) : List Byte := (List.range n).map (fun i => s.peekByte (d + i))

/-- One byte is stored; its unit's mark is kept. In the result-buffer window only what an OUTPUT stage or the device itself was writing
changes (R422). [DEDUCED: notes/assumptions/7.md] -/
def State.pokeByte (s : State) (output : Bool) (d : Nat) (b : Byte) : State :=
  match s.home d with
  | .dram c a => s.updMem (fun m => { m with dram := Sparse.set byte0 m.dram (dramKey c a) b })
  | .cellar t off => s.updMem (fun m => { m with cellar := Sparse.set (cellarByte0 m.cellarLoss) m.cellar (cellarKey t off) b })
  | .result off => if output then s.updMem (fun m => { m with result := Sparse.set byte0 m.result off b }) else s
  | .mailbox _ => s
  | .fusedOff => s
  | .global => s
  | .reserved => s

/-- Bytes are stored. -/
def State.poke (s : State) (output : Bool) (d : Nat) : List Byte → State
  | [] => s
  | b :: t => State.poke (s.pokeByte output d b) output (d + 1) t

/-- `n` bytes end with unspecified values (R359, R402, R504, R591): each is a part of one free value.
[DEDUCED: notes/assumptions/7.md; DESIGN CHOICE: notes/assumptions/9.md] -/
def State.scramble (s : State) (output : Bool) (d n : Nat) : State :=
  (s.drawFree).poke output d ((List.range n).map (fun i => BitVec.ofNat 8 (Config.freeAt s.free i)))

end Sys2Proof.Machine
end

