-- ==== Sys2Proof/Machine/Desc.lean ====
section
/-! DEFINITION. The binary descriptors of the stage kinds: sparse convolution (Table 8-4), BEV scatter (Table 8-5), Harvest (Table 7-3) and
ETU jobs (Table 11-4). -/

namespace Sys2Proof.Machine

/-- Width in bytes of a format code (Table 9-3); INT4 is handled by its users. -/
def fmtBytes (c : Nat) : Nat := [1, 1, 1, 2, 1, 2, 2, 4].getD c 1

/-- An OUTPUT stage names result-window addresses of set 0; in a frame of set 1 they move by 16 MiB (R589). -/
def RunStage.place (r : RunStage) (d : Nat) : Nat :=
  if r.output = true ∧ r.set = 1 ∧ 0x001006000000 ≤ d ∧ d < 0x001007000000 then d + 0x1000000 else d

/-! ## The descriptor (Table 8-4) -/

structure ConvDesc where
  op : Nat
  prec : Nat
  wfmt : Nat
  outFmt : Nat
  kx : Nat
  ky : Nat
  kz : Nat
  act : Nat
  sx : Nat
  sy : Nat
  sz : Nat
  inSet : Nat
  outSet : Nat
  quota : Nat
  inPlace : Nat
  outPlace : Nat
  cin : Nat
  cout : Nat
  rbIn : Nat
  rbOut : Nat
  inLoc : Nat
  outLoc : Nat
  wAddr : Nat
  wBytes : Nat
  deriving DecidableEq, Repr

/-- The fields of a convolution descriptor. -/
def convDesc (b : List Byte) : ConvDesc :=
  let g := fieldOf b
  { op := g 0 1, prec := g 1 1, wfmt := g 2 1, outFmt := g 3 1, kx := g 4 1, ky := g 5 1, kz := g 6 1, act := g 7 1,
    sx := g 8 1, sy := g 9 1, sz := g 0xA 1, inSet := g 0xB 1, outSet := g 0xC 1, quota := g 0xD 1, inPlace := g 0xE 1,
    outPlace := g 0xF 1, cin := g 0x10 2, cout := g 0x12 2, rbIn := g 0x14 2, rbOut := g 0x16 2, inLoc := g 0x18 8,
    outLoc := g 0x20 8, wAddr := g 0x28 8, wBytes := g 0x30 4 }

/-- Kernel positions. -/
def ConvDesc.taps (c : ConvDesc) : Nat := c.kx * c.ky * c.kz

/-! ## The scatter descriptor (Table 8-5) -/

structure BevDesc where
  inSet : Nat
  fmt : Nat
  reduce : Nat
  zmode : Nat
  scale : Nat
  slots : Nat
  c : Nat
  u0 : Nat
  v0 : Nat
  w : Nat
  h : Nat
  rbIn : Nat
  inPlace : Nat
  act : Nat
  cell : Nat
  inLoc : Nat
  map : Nat
  scratch : Nat
  mapBytes : Nat
  mult : Nat
  shift : Nat
  scratchBytes : Nat
  deriving DecidableEq, Repr

/-- The fields of a scatter descriptor (Table 8-5). -/
def bevDesc (b : List Byte) : BevDesc :=
  let g := fieldOf b
  { inSet := g 0 1, fmt := g 1 1, reduce := g 2 1, zmode := g 3 1, scale := g 4 1, slots := g 5 1, c := g 6 2, u0 := g 8 2, v0 := g 0xA 2,
    w := g 0xC 2, h := g 0xE 2, rbIn := g 0x10 2, inPlace := g 0x12 1, act := g 0x13 1, cell := g 0x14 4, inLoc := g 0x18 8,
    map := g 0x20 8, scratch := g 0x28 8, mapBytes := g 0x30 4, mult := g 0x34 2, shift := g 0x36 1, scratchBytes := g 0x38 4 }

/-- The format code of a scatter's FMT (Table 8-5): the same numbers as Table 9-3. -/
def BevDesc.width (d : BevDesc) : Nat := fmtBytes d.fmt

/-- Scratch bytes per cell (R355, R357). -/
def BevDesc.scratchCell (d : BevDesc) : Nat :=
  if d.reduce = 0 then 0 else 4 * d.c * d.slots + (if d.reduce = 2 then 4 * d.slots else 0)

/-! ## The Harvest descriptor (Table 7-3) and its result area (Table 7-4) -/

structure HrvDesc where
  op : Nat
  fmt : Nat
  flags : Nat
  payKind : Nat
  k : Nat
  rowCount : Nat
  rowLen : Nat
  rowStride : Nat
  keyAddr : Nat
  outAddr : Nat
  outBytes : Nat
  payBytes : Nat
  table : Nat
  payAddr : Nat
  payStride : Nat
  fpsIter : Nat
  fpsCount : Nat
  deriving DecidableEq, Repr

/-- The fields of a Harvest descriptor. -/
def hrvDesc (b : List Byte) : HrvDesc :=
  let g := fieldOf b
  { op := g 0 1, fmt := g 1 1, flags := g 2 1, payKind := g 3 1, k := g 4 2, rowCount := g 6 2, rowLen := g 8 4, rowStride := g 0xC 4,
    keyAddr := g 0x10 8, outAddr := g 0x18 8, outBytes := g 0x20 4, payBytes := g 0x24 2, table := g 0x26 1, payAddr := g 0x28 8,
    payStride := g 0x30 4, fpsIter := g 0x34 2, fpsCount := g 0x36 2 }

def HrvDesc.ascending (d : HrvDesc) : Bool := bitOf d.flags 0
def HrvDesc.writeKeys (d : HrvDesc) : Bool := bitOf d.flags 1

/-- Width of a key (Table 7-2). -/
def HrvDesc.w (d : HrvDesc) : Nat := if d.fmt = 0 ∨ d.fmt = 4 ∨ d.fmt = 5 then 2 else 1

/-- Slots per row (R316). -/
def HrvDesc.slots (d : HrvDesc) : Nat := if d.op = 3 then d.fpsCount else d.k

/-- Rounding up to a multiple of 64. -/
def round64 (n : Nat) : Nat := ceilDiv n 64 * 64

/-- Offsets of the sections of the result area, and its total (Table 7-4). -/
def HrvDesc.idxOff (d : HrvDesc) : Nat := round64 (32 * d.rowCount)
def HrvDesc.keyOff (d : HrvDesc) : Nat := d.idxOff + round64 (4 * d.slots * d.rowCount)
def HrvDesc.payOff (d : HrvDesc) : Nat := d.keyOff + (if d.writeKeys then round64 (d.w * d.slots * d.rowCount) else 0)
def HrvDesc.total (d : HrvDesc) : Nat := d.payOff + d.payBytes * d.slots * d.rowCount

/-! ## The ETU job descriptor (Table 11-4) -/

structure EtuDesc where
  op : Nat
  table : Nat
  mode : Nat
  src : Nat
  elems : Nat
  idxCount : Nat
  bagCount : Nat
  idxAddr : Nat
  bagAddr : Nat
  dataAddr : Nat
  stride : Nat
  dataBytes : Nat
  deriving DecidableEq, Repr

/-- The fields of an ETU job descriptor. -/
def etuDesc (b : List Byte) : EtuDesc :=
  let g := fieldOf b
  { op := g 0 1, table := g 1 1, mode := g 2 1, src := g 3 1, elems := g 4 2, idxCount := g 8 4, bagCount := g 0xC 4, idxAddr := g 0x10 8,
    bagAddr := g 0x18 8, dataAddr := g 0x20 8, stride := g 0x28 4, dataBytes := g 0x2C 4 }

/-- Rows the job writes or takes: one per bag of a POOL, else one per index. -/
def EtuDesc.rows (d : EtuDesc) : Nat := if d.op = 1 then d.bagCount else d.idxCount

end Sys2Proof.Machine
end

