-- ==== Sys2Proof/Machine/Status.lean ====
section
/-! DEFINITION. Status blocks, job completion and the frames that jobs follow (spec/13_host_contexts_status.md, R584
to R593). -/

namespace Sys2Proof.Machine

/-- No status block has been written (R584). -/
def statusDefault (_ : Nat) : StatusBlock := {}

/-- The job on a ring: key context × 2 + ring. -/
def State.job (s : State) (ctx ring : Nat) : Option Job := Sparse.get (fun _ => none) s.hif.jobs (ctx * 2 + ring)

/-- The job on a ring is replaced. -/
def State.setJob (s : State) (ctx ring : Nat) (j : Option Job) : State :=
  { s with hif := { s.hif with jobs := Sparse.set (fun _ => none) s.hif.jobs (ctx * 2 + ring) j } }

/-- The status block `b` of a context. -/
def State.statusBlock (s : State) (ctx b : Nat) : StatusBlock := Sparse.get statusDefault s.hif.status (ctx * 16 + b)

/-- A status block as the 64 bytes of Table 13-5. -/
def StatusBlock.bytes (b : StatusBlock) : List Byte :=
  leBytes 4 b.seq ++ leBytes 1 b.state ++ leBytes 1 b.opc ++ leBytes 2 b.code ++ leBytes 4 b.tag ++ leBytes 4 b.frame ++ leBytes 8 b.doneBytes
    ++ leBytes 2 b.stagesDone ++ leBytes 2 b.validBelow ++ leBytes 1 b.level ++ leBytes 1 b.set ++ leBytes 2 b.fflags ++ leBytes 8 b.tsAccept
    ++ leBytes 8 b.tsEnd ++ leBytes 4 b.crc ++ leBytes 4 b.aux ++ leBytes 8 0

/-- The stages of a frame's plan, numbered. -/
def Plan.numbered (p : Plan) : List (Nat × StageRec) := (List.range p.stages.length).zip p.stages

/-- A stage of a frame is complete: it ended, or its LEVELS excludes the admitted level (R379, R590). -/
def Frame.stageDone (f : Frame) (i : Nat) : Bool :=
  f.okStages.contains i || f.errStages.contains i ||
    (f.admitted && match f.plan.stages[i]? with | some r => !bitOf r.levels f.level | none => false)

/-- VALID_BELOW (R590): the lowest OUTPUT stage that has not completed, or STAGE_COUNT. -/
def Frame.validBelow (f : Frame) : Nat :=
  match f.plan.numbered.find? (fun x => bitOf x.2.flags 0 && !f.stageDone x.1) with
  | some x => x.1
  | none => f.plan.hdr.stageCount

/-- Stages complete in the frame (Tables 9-9, 13-5). -/
def Frame.stagesDone (f : Frame) : Nat := (f.plan.numbered.filter (fun x => f.stageDone x.1)).length

/-- FLAGS of the frame header (Table 13-8), with DEGRADED while the override is in force (R678). -/
def State.frameFlags (s : State) (f : Frame) : Nat :=
  b2n f.truncated + 2 * b2n (f.errCode != 0 || f.hostFail) + 4 * b2n f.freeRun
    + 8 * b2n (s.flag F.RST_STATUS_OVERRIDE) + 16 * b2n f.budgetExceeded + 32 * b2n f.thinned + 64 * b2n f.coarsened

/-- The frame with number `n` in compute or publish. -/
def State.frameNum (s : State) (n : Nat) : Option Frame :=
  match s.frm.compute with
  | some f => if f.num = n then some f else
    match s.frm.publish with
    | some g => if g.num = n then some g else none
    | none => none
  | none =>
    match s.frm.publish with
    | some g => if g.num = n then some g else none
    | none => none

/-- A job is a frame job (Table 13-5). -/
def Job.ofFrame (j : Job) : Bool := j.opc == 4 || j.opc == 5

/-- One update of a job's status block (R584, R585): SEQ advances by two. -/
def State.writeStatus (s : State) (ctx : Nat) (j : Job) (st code crc : Nat) : State :=
  if j.sb = 0xFF then s
  else
    let b := s.statusBlock ctx j.sb
    let fr := if j.ofFrame && j.follows then s.frameNum j.frame else none
    let ended := st = 3 ∨ st = 4
    let nb : StatusBlock :=
      { seq := (b.seq + 2) % 2 ^ 32
        state := st
        opc := j.opc
        code := code
        tag := j.tag
        frame := if j.ofFrame then j.frame else 0
        doneBytes := if j.opc = 2 ∨ j.opc = 3 then j.doneBytes else 0
        stagesDone := match fr with | some f => f.stagesDone | none => 0
        validBelow := match fr with | some f => f.validBelow | none => 0
        level := if j.ofFrame then (match fr with | some f => if f.admitted then f.level else 0xFF | none => 0xFF) else 0
        set := match fr with | some f => f.set | none => 0
        fflags := match fr with | some f => s.frameFlags f | none => 0
        tsAccept := j.acceptTs
        tsEnd := if ended then s.timebase else 0
        crc := if j.ofFrame && st == 3 then crc else 0
        aux := if j.opc = 6 ∨ j.opc = 7 ∨ j.opc = 8 then j.aux else 0 }
    { s with hif := { s.hif with status := Sparse.set statusDefault s.hif.status (ctx * 16 + j.sb) nb } }

/-- A job ends with DONE (R584): the counters of the context and of the host interface count it, and the ring is
free for its next job. -/
def State.jobDone (s : State) (ctx ring : Nat) (j : Job) (code crc : Nat) : State :=
  let s := (s.writeStatus ctx j 3 code crc).setJob ctx ring none
  let s := s.setFld (F.CTX_JOB_CNT ctx) (s.fld (F.CTX_JOB_CNT ctx) + 1)
  let s := s.bump F.HIF_JOB_CNT
  if code = 0 then s
  else (s.setFld (F.CTX_ERR_CNT ctx) (s.fld (F.CTX_ERR_CNT ctx) + 1)).bump F.HIF_JOB_ERR_CNT

/-- A job ends with ABORTED (Table 13-6). -/
def State.jobAborted (s : State) (ctx ring : Nat) (j : Job) (code : Nat) : State :=
  (s.writeStatus ctx j 4 code 0).setJob ctx ring none

/-- The jobs of all rings, as (context, ring, job). -/
def State.allJobs (s : State) : List (Nat × Nat × Job) :=
  s.hif.jobs.filterMap (fun x => match x.2 with | some j => some (x.1 / 2, x.1 % 2, j) | none => none)

/-- The jobs that follow frame `n` (R579, R580). -/
def State.followers (s : State) (n : Nat) : List (Nat × Nat × Job) :=
  s.allJobs.filter (fun x => x.2.2.ofFrame && x.2.2.follows && x.2.2.frame == n)

/-- Every job that follows frame `n` writes RUNNING (Table 13-6). -/
def State.statusFollowers (s : State) (n : Nat) : State :=
  (s.followers n).foldl (fun s x => s.writeStatus x.1 x.2.2 2 0 0) s

/-- Every job that follows frame `n` ends with ABORTED and a code (R593). -/
def State.abortFollowers (s : State) (n code : Nat) : State :=
  (s.followers n).foldl (fun s x => s.jobAborted x.1 x.2.1 x.2.2 code) s

/-- Every job that follows frame `n` ends with DONE and the frame's CRC (R593). -/
def State.doneFollowers (s : State) (n code crc : Nat) : State :=
  (s.followers n).foldl (fun s x => s.jobDone x.1 x.2.1 x.2.2 code crc) s

end Sys2Proof.Machine
end

