-- ==== Sys2Proof/Machine/FrameStop.lean ====
section
/-! DEFINITION. Stopping the stages of a frame and ending a frame that is not published (R45, R150, R282, R402,
R593, R759). -/

namespace Sys2Proof.Machine

/-- A tile nothing has changed. -/
def tileDefault (_ : Nat) : Tile := {}

/-- Tile `n`. -/
def State.tile (s : State) (n : Nat) : Tile := Sparse.get tileDefault s.tiles n

/-- Tile `n` is replaced. -/
def State.setTile (s : State) (n : Nat) (t : Tile) : State := { s with tiles := Sparse.set tileDefault s.tiles n t }

/-- Tile `n` is updated. -/
def State.updTile (s : State) (n : Nat) (f : Tile → Tile) : State := s.setTile n (f (s.tile n))

/-- A binning bank. -/
def State.bank (s : State) (b : Nat) : Bank := if b = 0 then s.sep.bank0 else if b = 1 then s.sep.bank1 else s.sep.bank2

/-- A binning bank is replaced. -/
def State.setBank (s : State) (b : Nat) (k : Bank) : State :=
  if b = 0 then { s with sep := { s.sep with bank0 := k } }
  else if b = 1 then { s with sep := { s.sep with bank1 := k } }
  else { s with sep := { s.sep with bank2 := k } }

/-- A bank is freed (R281, R282). -/
def State.freeBank (s : State) (b : Option Nat) : State := match b with | some i => s.setBank i {} | none => s

/-- The banks a frame holds are freed. -/
def State.freeFrameBanks (s : State) (f : Frame) : State := (s.freeBank f.fineBank).freeBank f.coarseBank

/-- A tile is released by its stage: its ops in flight are abandoned and its tags are clear (R402). -/
def State.releaseTile (s : State) (n : Nat) : State :=
  let s := s.updTile n (fun t => { t with
    heldBy := 0, item := 0, prologueDone := false, inPrologue := false, nextOp := 0, fenced := false, inflight := [],
    idleSince := s.cycles })
  let s := (s.setFld (F.TILE_SB_BUSY_LO_TAGS n) 0).setFld (F.TILE_SB_BUSY_HI_TAGS n) 0
  s.updCond (0x080 + n) (fun c => { c with running := false })

/-- An op in flight is abandoned: what it was writing is unspecified (R402). [DESIGN CHOICE: notes/assumptions/9.md] -/
def State.abandonOp (s : State) (r : RunStage) (x : OpRun) : State :=
  x.writes.foldl (fun (s : State) w => s.scramble r.output (r.place w.1) w.2.length) s

/-- SCV runs this stage: a KIND 1 or KIND 2 stage that was not refused at its start and that no SOFT_RESET has stopped (R361, R362, R365). -/
def RunStage.scvRuns (r : RunStage) : Bool := (r.kind == 1 || r.kind == 2) && !r.stopped

/-- A tile program stops: its ops in flight are abandoned and its tiles released. [DEDUCED: notes/assumptions/33.md] -/
def State.stopTiles (s : State) (r : RunStage) : State :=
  let s := r.tiles.foldl (fun (s : State) t => (s.tile t).inflight.foldl (fun (s : State) x => s.abandonOp r x) s) s
  r.tiles.foldl (fun (s : State) t => s.releaseTile t) s

/-- A BEV scatter stops: its map and its scratch area are unspecified (R359). [DESIGN CHOICE: notes/assumptions/9.md] -/
def State.stopBev (s : State) (r : RunStage) : State :=
  if r.unitDone then s
  else
    let d := bevDesc (s.peek r.desc 64)
    let s := s.scramble r.output (r.place d.map) (d.w * d.h * d.cell)
    if d.reduce = 0 then s else s.scramble false d.scratch (d.w * d.h * d.scratchCell)

/-- The error completion of a job as page 0x0D0 shows it (R504, R511): LAST_ERR and JOB_ERROR. -/
def State.etuLastErr (s : State) (t code : Nat) : State :=
  ((s.setFld F.ETU_LAST_ERR_CODE code).setFld F.ETU_LAST_ERR_TABLE t).event 0x0D0 0

/-- A job stops and completes with `code`: output rows not written are unspecified (R504); adds not issued are never applied.
[DEDUCED: notes/assumptions/33.md] -/
def State.stopEtuJob (s : State) (r : RunStage) (code : Nat) : State :=
  if r.unitDone then s
  else
  let d := etuDesc (s.peek r.desc 64)
  let s := s.etuLastErr d.table code
  match s.etu.jobs.find? (fun j => j.stage == r.stage) with
  | none => s
  | some j =>
    let s := if d.op = 2 ∨ j.finished = true then s
      else (List.range (d.rows - j.done)).foldl (fun (s : State) i =>
        s.scramble r.output (r.place (d.dataAddr + (j.done + i) * d.stride)) (2 * d.elems)) s
    let s := s.updEtu (fun e => { e with jobs := e.jobs.filter (fun x => x.stage != r.stage) })
    s.updCond 0x0D0 (fun c => { c with running := s.etu.cmd.isSome || !s.etu.jobs.isEmpty })

/-- Rows of a stopped request that are complete: all once its writes are made, else a free number. [DEDUCED: notes/assumptions/33.md] -/
def State.hrvKept (s : State) (q : HrvRun) : Nat :=
  if q.rejected then 0 else if q.issued then q.rows.length else s.freeVal % (q.rows.length + 1)

/-- The header of a row that was not completed: COUNT 0 and STATUS `code` (R322, R324). -/
def stoppedHeader (code : Nat) : List Byte := List.replicate 18 0 ++ leBytes 2 code ++ List.replicate 12 0

/-- What the request in service still writes on another node as it stops (R322, R324): the rows that are complete, unless their writes have
left already, and the headers of the others. -/
def State.hrvAway (s : State) (code : Nat) : List (Nat × List Byte) :=
  match s.hrv.service with
  | none => []
  | some q =>
    let n := s.hrvKept q
    ((if q.issued then [] else (q.rows.take n).flatMap (·.writes)) ++ (q.rows.drop n).map (fun r => (r.hdr, stoppedHeader code))).filter
      (fun w => s.home w.1 == .global)

/-- The Harvest request in service stops (R322, R324): a free number of its rows are complete, and each other row is written with COUNT 0
and STATUS `code`; what else it was writing is unspecified. [DEDUCED: notes/assumptions/33.md] -/
def State.stopHrvRun (s : State) (code : Nat) : State :=
  match s.hrv.service with
  | none => s
  | some q =>
    let n := s.hrvKept q
    let out := q.req.output
    let s := (q.rows.take n).foldl (fun (s : State) r => r.writes.foldl (fun (s : State) w => s.poke out w.1 w.2) s) s.drawFree
    let s := (q.rows.drop n).foldl (fun (s : State) r =>
      (r.writes.foldl (fun (s : State) w => s.scramble out w.1 w.2.length) s).poke out r.hdr (stoppedHeader code)) s
    (s.updHrv (fun h => { h with service := none })).updCond 0x050 (fun c => { c with running := false })

/-- Harvest drops every request and stops the one in service. -/
def State.stopHarvest (s : State) (code : Nat) : State :=
  (s.stopHrvRun code).updHrv (fun h => { h with queue := [], held := [], heldStages := [] })

/-- The agents that `p` names are reset or stopped (R445): what they were brought is dropped, and their reads not sent yet; writes and
adds that were issued still take effect, and a response on its way keeps its slot until it arrives and is discarded. -/
def State.stopAgents (s : State) (p : Agent → Bool) : State :=
  let gone := fun (x : GrfReq) => if p x.agent then { x with agent := .gone } else x
  s.updGrf (fun g => { g with
    answers := g.answers.filter (fun x => !p x.agent)
    waiting := (g.waiting.filter (fun x => !(p x.agent && (x.ttype == 1 || x.ttype == 4)))).map gone
    reqs := g.reqs.map gone })

/-- An agent that works for a stage or for Harvest. -/
def Agent.forFrame (a : Agent) : Bool :=
  match a with
  | .none => false
  | .gone => false
  | .tile _ => true
  | .stage _ => true
  | .hrv => true
  | .etu _ => true
  | .job _ => false

/-- The agents of the frame's stages and Harvest stop (R445). -/
def State.stopRemote (s : State) : State := s.stopAgents Agent.forFrame

/-- Every running stage stops (R322, R359, R402, R504). [DEDUCED: notes/assumptions/33.md] -/
def State.stopStages (s : State) (code : Nat) : State :=
  let s := s.frm.running.foldl (fun (s : State) r =>
    if r.kind = 0 then s.stopTiles r else if r.kind = 2 then s.stopBev r else if r.kind = 4 ∨ r.kind = 5 then s.stopEtuJob r code else s) s
  let s := (s.stopHarvest code).stopRemote
  let s := s.updCond 0x060 (fun c => { c with running := false })
  let s := s.updCond 0x0D0 (fun c => { c with running := s.etu.cmd.isSome })
  s.updFrm (fun f => { f with running := [] })

/-- No site set exists once no frame is in compute (Table 8-7). [DEDUCED: notes/assumptions/29.md] -/
def State.noSets (s : State) : State := s.setFld F.SCV_SET_VALID_SETS 0

/-- The derived sets of the frame are freed (R331, R361). -/
def State.freeSets (s : State) : State :=
  (s.updScv (fun v => { v with sets := [] })).setFld F.SCV_POOL_USED_UNITS 0

/-- The frame in compute ends without publication (R45, R593, R759): its stages stop, its banks are freed and the
jobs that follow it end with ABORTED and `code`. -/
def State.dropCompute (s : State) (code : Nat) : State :=
  match s.frm.compute with
  | none => s
  | some f =>
    let s := s.abortFollowers f.num code
    let s := ((s.stopStages code).freeSets.noSets).freeFrameBanks f
    s.updFrm (fun r => { r with compute := none, emptyAt := s.cycles })

/-! ## Plan slots (R133 to R135) -/

/-- The plan slot named by ACTIVE_SLOT is LOADED. -/
def State.activeLoaded (s : State) : Bool :=
  (if s.fld F.FRM_PLAN_STATUS_ACTIVE_SLOT = 0 then s.fld F.FRM_PLAN_STATUS_SLOT_0 else s.fld F.FRM_PLAN_STATUS_SLOT_1) == 2

/-- The plan of a slot. -/
def State.planOf (s : State) (slot : Nat) : Plan := if slot = 0 then s.frm.planA else s.frm.planB

/-- The plan of the active slot. -/
def State.activePlan (s : State) : Plan := s.planOf (s.fld F.FRM_PLAN_STATUS_ACTIVE_SLOT)

/-- The STATE field of a plan slot. -/
def planSlotState (b : Nat) : Field := if b = 0 then F.FRM_PLAN_STATUS_SLOT_0 else F.FRM_PLAN_STATUS_SLOT_1

/-- PERIOD_US, BUDGET_US and CORE_FLOOR follow the active plan; 0 while no loaded slot is active. The plan of a corrupt slot goes on until
the frame in compute is published (R160). -/
def State.showPlan (s : State) : State :=
  let h := if s.activeLoaded || s.frm.faultAfter == some (s.fld F.FRM_PLAN_STATUS_ACTIVE_SLOT) then s.activePlan.hdr else {}
  ((s.setFld F.FRM_PERIOD_US_PERIOD h.periodUs).setFld F.FRM_BUDGET_US_BUDGET h.budgetUs).setFld F.FRM_CORE_FLOOR_MHZ h.floorMhz

/-- A plan slot takes a plan and a state. -/
def State.setSlot (s : State) (b st : Nat) (p : Plan) : State :=
  let s := s.updFrm (fun f => if b = 0 then { f with planA := p } else { f with planB := p })
  (s.setFld (planSlotState b) st).showPlan

/-- A slot is emptied. A SWITCH that was pending to it is cancelled; of one emptied by the recheck or the end of the override the spec does
not say so (DESIGN CHOICE: notes/assumptions/28.md). -/
def State.emptySlot (s : State) (b : Nat) : State :=
  let s := if b = s.fld F.FRM_PLAN_STATUS_ACTIVE_SLOT then s else s.setFld F.FRM_PLAN_STATUS_SWITCH_PENDING 0
  (s.setSlot b 0 {}).updRst (fun r => { r with viaOverride := clrBit r.viaOverride b })

/-- What waited for the end of the frame in compute takes place: slots are emptied (R679), LIMITED (R155), and FAULT with the corrupt slot
given up (R160). -/
def State.afterFrame (s : State) : State :=
  let s := (List.range 2).foldl (fun (s : State) b => if bitOf s.rst.emptyAfter b then s.emptySlot b else s) s
  let s := s.updRst (fun r => { r with emptyAfter := 0 })
  let s := if s.frm.limitAfter then
      (s.updFrm (fun f => { f with limitAfter := false })).updCond 0x010 (fun c => { c with limited := true }) else s
  match s.frm.faultAfter with
  | some b => ((s.updFrm (fun f => { f with faultAfter := none })).emptySlot b).updCond 0x010 (fun c => { c with fault := true })
  | none => s

/-- The points of a frame that have not been accepted are discarded. -/
def State.dropPoints (s : State) (n : Nat) : State :=
  { s with sep := { s.sep with inbox := s.sep.inbox.filter (fun d => d.frame != n) } }

/-- The frame in ingest is discarded (R116): its banks are freed. -/
def State.dropIngest (s : State) : State :=
  match s.frm.ingest with
  | none => s
  | some f => let s := (s.freeFrameBanks f).dropPoints f.num; { s with frm := { s.frm with ingest := none } }

/-- The frame that waits for the compute phase is discarded. -/
def State.dropClosing (s : State) : State :=
  match s.frm.closing with
  | none => s
  | some f => let s := (s.freeFrameBanks f).dropPoints f.num; { s with frm := { s.frm with closing := none } }

/-- WAIT_FRAME jobs that wait for frame `n` and end, as DONE or as ABORTED, with a code. -/
def State.endWaiters (s : State) (n code : Nat) (aborted : Bool) : State :=
  (s.allJobs.filter (fun x => x.2.2.opc == 5 && !x.2.2.follows && !x.2.2.waitNext && x.2.2.frame == n)).foldl (fun (s : State) x =>
    if aborted then s.jobAborted x.1 x.2.1 x.2.2 code else s.jobDone x.1 x.2.1 x.2.2 code 0) s

/-- The frames that have not entered compute are dropped; the jobs that wait for them end as ABORTED with `code` (R593). -/
def State.dropWaiting (s : State) (code : Nat) : State :=
  let s := match s.frm.closing with | some f => s.endWaiters f.num code true | none => s
  let s := match s.frm.ingest with | some f => s.endWaiters f.num code true | none => s
  s.dropClosing.dropIngest

/-- SEP_POSE_STALE for a frame, once (R295): its mark is the POSE_STALE or DESKEW_OFF bit of the frame record. -/
def State.poseStale (s : State) (n : Nat) : State := (s.error 0x040 0x2013 (word n)).event 0x040 3

/-- A frame in compute or ingest whose target pose was unavailable at the latch records it once its cycle is over (R262, R295). -/
def State.settleLatch (s : State) : State :=
  let due := fun (o : Option Frame) => match o with | some f => f.staleDue | none => false
  let num := fun (o : Option Frame) => match o with | some f => f.num | none => 0
  let clear := fun (o : Option Frame) => o.map (fun f => { f with staleDue := false })
  let s' := if due s.frm.ingest then s.poseStale (num s.frm.ingest) else s
  let s' := if due s.frm.compute then s'.poseStale (num s.frm.compute) else s'
  if due s.frm.ingest || due s.frm.compute then
    s'.updFrm (fun r => { r with ingest := clear r.ingest, compute := clear r.compute })
  else s

/-! ## Loss of CORE and FABRIC (R720, R722) -/

/-- The register is one that R722 keeps of the pages of CORE and FABRIC: TIMEBASE and its discipline on page 0x011, and the
withdrawals (R399). [DEDUCED: notes/assumptions/69.md] -/
def keptReg (k : Nat) : Bool := k / 0x1000 == 0x011 && (Nat.blt (k % 0x1000) 0x64 || k % 0x1000 == 0x68 || k % 0x1000 == 0x6C)

/-- A page of CORE or FABRIC. -/
def offPage (p : Nat) : Bool := Nat.ble 0x010 p && Nat.blt p 0x130

/-- Every register page of a block in CORE or FABRIC holds its reset values, and nothing is left of what the blocks did. A withdrawal
stays, and the conditions of the safe state and of LIMITED are those in force. The spec does not say whether the last published frame
still holds the publish phase: here it does not. [DEDUCED: notes/assumptions/69.md; DESIGN CHOICE: notes/assumptions/69.md] -/
def State.fabricClear (s : State) : State :=
  let rx := s.fld F.MBX_RST_RX_STATE
  let limited := !s.flag F.RST_STATUS_VERSION_OK && !s.flag F.RST_STATUS_OVERRIDE
  let gone := (s.tiles.filter (fun x => x.2.withdrawn)).map (·.1)
  let s := { s with
    regs := Sparse.drop s.regs (fun k => offPage (k / 0x1000) && !keptReg k)
    hdr := Sparse.drop s.hdr offPage
    held := s.held.filter (fun (x : Nat × Nat) => !offPage x.2)
    waiters := s.waiters.filter (fun (x : Waiter) => !offPage x.page)
    tiles := [], sep := {}, slk := {}, scv := {}, hrv := {}, etu := {}, grf := {} }
  let s := s.updFrm (fun f => {
    lastNum := f.lastNum, consumed := f.consumed, sampleAt := f.sampleAt, sampleGptp := f.sampleGptp, sampleMark := f.sampleMark
    sampleOk := f.sampleOk, sampled := f.sampled, emptyAt := s.cycles })
  let s := s.updMem (fun m => { m with shardBase4M := s.shardReset, combine := [], counts := [], reply := none })
  let s := (s.updSaf (fun x => { x with e2e := none, wdAt := none })).updRst (fun r => { r with viaOverride := 0, emptyAfter := 0 })
  let s := s.setFld F.MBX_RST_RX_STATE rx
  let s := s.updPage 0x010 (fun h => { h with cond := { h.cond with limited := limited } })
  let s := if s.saf.inSafe then ([0x010, 0x040, 0x050, 0x060, 0x0D0] ++ (List.range 64).map (0x080 + ·)).foldl (fun (s : State) p =>
      s.updPage p (fun h => { h with cond := { h.cond with safe := true } })) s else s
  gone.foldl (fun (s : State) n =>
    ((s.updTile n (fun t => { t with withdrawn := true })).setFld (F.TILE_TEST_STATUS_WITHDRAWN n) 1).updPage (0x080 + n)
      (fun h => { h with cond := { h.cond with fault := true } })) s

/-- The Cellar loses its contents (R722): every byte is unspecified but for the feature region of the tile that `keep` names.
[DESIGN CHOICE: notes/assumptions/8.md] -/
def State.loseCellar (s : State) (keep : Option Nat) : State :=
  let kept := fun (k : Nat) => keep == some (k / 0x180000) && Nat.ble 0xA0000 (k % 0x180000)
  (s.drawFree).updMem (fun m => { m with
    cellar := Sparse.drop m.cellar (fun k => !kept k), cellarPoison := Sparse.drop m.cellarPoison (fun w => !kept (8 * w))
    cellarLoss := (s.free, keep) :: m.cellarLoss, upsets := m.upsets.filter (fun x => !x.cellar || kept (8 * x.unit)) })

/-- An open sentry window ends without its program (R744, R809): what runs is stopped, and the power of CORE and FABRIC is removed
again. -/
def State.sentryStop (s : State) : State :=
  if s.pwr.phase = 0 then s
  else
    let s := s.frm.running.foldl (fun (s : State) r => s.stopTiles r) s
    let s := (s.updPwr (fun p => { p with phase := 0 })).fabricClear
    s.setCell R.GLB_CLOCK_STATUS 0

end Sys2Proof.Machine
end

