-- ==== Sys2Proof/Machine/Saf.lean ====
section
/-! DEFINITION. Safety causes, the safe state and its pins, and the pins SAF holds (spec/18_safety_faults.md, R754 to
R762; spec/20_mode_combinations.md, R815 to R820). -/

namespace Sys2Proof.Machine

/-! ## Causes (Table 18-1) -/

def Cause.powerOn : Nat := 0
def Cause.lockstep : Nat := 1
def Cause.clock : Nat := 2
def Cause.thermalTrip : Nat := 3
def Cause.voltRange : Nat := 4
def Cause.frameWatchdog : Nat := 5
def Cause.blockFault : Nat := 6
def Cause.selftestFail : Nat := 7
def Cause.fuse : Nat := 8
def Cause.safetyCfg : Nat := 9
def Cause.hostReq : Nat := 10
def Cause.tickOverrun : Nat := 11
def Cause.budgetExceeded : Nat := 12
def Cause.testOverdue : Nat := 13
def Cause.memUe : Nat := 14
def Cause.sensors : Nat := 15
def Cause.thermalCrit : Nat := 16
def Cause.coolant : Nat := 17
def Cause.vddLow : Nat := 18
def Cause.lifetime : Nat := 19
def Cause.sideFault : Nat := 20
def Cause.rstWatchdog : Nat := 21
def Cause.bootFlash : Nat := 22
def Cause.e2eMismatch : Nat := 23
def Cause.redundMismatch : Nat := 24
def Cause.override : Nat := 25
def Cause.debug : Nat := 26
def Cause.injected : Nat := 27

/-- A cause has an "Active until" condition (Table 18-1). -/
def Cause.hasActive (n : Nat) : Bool := !([10, 11, 12, 13, 14, 18, 19, 21, 22, 23, 24, 27].contains n)

/-- The class of Table 18-1: 0 A, 1 B, 2 C. -/
def Cause.baseClass (n : Nat) : Nat := if Nat.ble n 10 then 2 else if Nat.ble n 24 then 1 else 0

/-- The class in force (R755): one higher when the cause's SAF_ESCALATE bit is 1. [DEDUCED: notes/assumptions/71.md] -/
def State.causeClass (s : State) (n : Nat) : Nat :=
  min 2 (Cause.baseClass n + b2n (bitOf (s.cell R.PSV_SAF_ESCALATE).toNat n && Nat.ble 11 n && Nat.ble n 27))

/-- The causes of a class, as a mask of the 28 bits. -/
def State.classMask (s : State) (p : Nat → Bool) : Nat :=
  (List.range 28).foldl (fun m n => if p (s.causeClass n) then m + 2 ^ n else m) 0

/-- The pages whose FAULT is BLOCK_FAULT (Table 18-1). -/
def blockFaultPages : List Nat :=
  [0x010, 0x040, 0x060, 0x0D0] ++ (List.range 64).map (0x080 + ·) ++ (List.range 8).map (fun n => 0x0C0 + 2 * n)

/-- The pages whose FAULT is SIDE_FAULT (Table 18-1). -/
def sideFaultPages : List Nat := [0x100, 0x110, 0x0F0, 0x130]

/-- The pages that read SAFE in the safe state (R759, R778). [DEDUCED: notes/assumptions/71.md] -/
def safePages : List Nat :=
  [0x010, 0x040, 0x050, 0x060, 0x0D0, 0x160, 0x161, 0x162]
    ++ (List.range 64).map (0x080 + ·)

/-- A valid thermal sensor reads at or above 125 °C. -/
def State.sensorTrip (s : State) : Bool :=
  (List.range 32).any (fun k => s.flag (F.RST_TS_VALID k) && decide (500 ≤ s.sfld (F.RST_TS_TEMP k)))

/-- Valid thermal sensors (TEMP_MAX VALID_CNT). -/
def State.invalidSensors (s : State) : Nat := 32 - ((List.range 32).filter (fun k => s.flag (F.RST_TS_VALID k))).length

/-- The "Active until" condition of a cause that state decides (Table 18-1). Causes 0, 2, 4, 7 and 8 end by
commands of their own. The cells of pages 0x218 to 0x21F are 12,096 to 16,127 (R693). -/
def State.causeEnded (s : State) (n : Nat) : Bool :=
  if n = 1 then s.fld F.MBX_RST_RX_STATE != 3
  else if n = 3 then s.fld F.PWR_THERM_STATUS_THERM_STATE != 3 && !s.sensorTrip
  else if n = 5 then !(s.page 0x010).cond.running
  else if n = 9 then !(s.psv.cells.any (fun x => x.2.cls == 2 && (Nat.ble 0x10000 x.1 || (Nat.ble 12096 x.1 && Nat.blt x.1 16128))))
  else if n = 6 then !(blockFaultPages.any (fun p => (s.page p).cond.fault))
  else if n = 15 then Nat.ble s.invalidSensors 4
  else if n = 16 then s.fld F.PWR_THERM_STATUS_THERM_STATE != 3
  else if n = 17 then s.fld F.PWR_THERM_STATUS_COOL_BAND != 4
  else if n = 20 then !(sideFaultPages.any (fun p => (s.page p).cond.fault))
  else if n = 25 then !s.flag F.RST_STATUS_OVERRIDE
  else if n = 26 then s.fld F.RST_STATUS_DEBUG == 0
  else false

/-- SAF_ACTIVE as it stands: a bit stays until its condition is met (R754). -/
def State.activeNow (s : State) : Nat :=
  (List.range 28).foldl (fun m n => if bitOf s.saf.active n && !s.causeEnded n then m + 2 ^ n else m) 0

/-- SAF_ACTIVE loses the bits whose condition is met. -/
def State.refreshActive (s : State) : State := { s with saf := { s.saf with active := s.activeNow } }

/-- The AON cycle after a write cleared bits of EVENT_PEND on page 0x160: those whose SAF_ACTIVE bit is 1 are latched again (R754).
[DEDUCED: notes/assumptions/71.md] -/
def State.relatchCauses (s : State) : State :=
  let m := s.activeNow &&& (2 ^ 32 - 1 - (s.page 0x160).eventRaw.toNat)
  if m = 0 then s
  else (s.updPage 0x160 (fun h => { h with eventRaw := h.eventRaw ||| BitVec.ofNat 32 m })).noteRise (hdrKey 0x160 0x10) (BitVec.ofNat 32 m)

/-- No agent acts yet. -/
def State.noAgent (s : State) : State := s.updGrf (fun g => { g with reader := .none, miss := false })

/-! ## Link states (R521) -/

/-- The primary page of a port. -/
def grfPage (n : Nat) : Nat := 0x0F0 + 2 * n

/-- LSTATE of a port (Table 12-3). -/
def State.lstate (s : State) (n : Nat) : Nat := s.fld (F.GRF_PORT_STATUS_LSTATE n)

/-- STATE of a port page in a link state (R521). -/
def linkCond (l : Nat) (c : Cond) : Cond :=
  { c with
    off := l == 0
    armed := l == 1 || l == 2 || l == 3 || l == 6
    running := l == 4 || l == 5
    waiting := false
    fault := c.fault && l != 0 }

/-- A port's link takes a state of Table 12-3. -/
def State.setLink (s : State) (n l : Nat) : State :=
  (s.setFld (F.GRF_PORT_STATUS_LSTATE n) l).updCond (grfPage n) (linkCond l)

/-- A port in DOWN enters TRAIN (Table 12-3); at which command it has done so is a free choice. [DESIGN CHOICE: notes/assumptions/53.md] -/
def State.retrain (s : State) : State :=
  let down := (List.range 8).filter (fun n => s.lstate n == 6)
  if down.isEmpty then s
  else (down.foldl (fun (t : State) n => if bitOf s.freeVal n then t.setLink n 1 else t) s).drawFree

/-- A command arrives `dt` AON cycles after the last: the cycle of a target-pose latch is over when time passes (R262), and
SAF_ACTIVE follows the conditions; locks abandoned in the cycle are abandoned first (R109). [DESIGN CHOICE: notes/assumptions/2.md; DEDUCED: notes/assumptions/77.md] -/
def State.arrive (s : State) (dt : Nat) : State :=
  (if dt = 0 then s.refreshActive else ((s.settleLatch.elapse 1).relatchCauses.elapse (dt - 1)).refreshActive).actAbandons.noAgent.retrain

/-- A TLP crosses the link: L1 ends (R559). [DEDUCED: notes/assumptions/57.md] -/
def State.hostTlp (s : State) : State := s.updHif (fun h => { h with tlpAt := s.cycles, l1 := false })

/-- The time up to a register write by `w`; one of the host's functions sends it over the link.
[DESIGN CHOICE: notes/assumptions/2.md; DEDUCED: notes/assumptions/77.md] -/
def State.arriveBy (s : State) (dt w : Nat) : State := if 0x40 ≤ w then (s.arrive dt).hostTlp else s.arrive dt

/-- EVENT_RAW bits 27:0 of page 0x160: the causes latched. -/
def State.causes (s : State) : Nat := (s.page 0x160).eventRaw.toNat % 2 ^ 28

/-- ERROR_N is low (R758). -/
def State.errorPin (s : State) : Bool :=
  s.saf.inSafe || (s.causes &&& s.classMask (fun c => Nat.ble 1 c)) != 0

/-- SAF_STATUS DEGRADE (R763): override, debug session of level REGISTER or FULL, INJ_ALLOW. -/
def State.degrade (s : State) : Nat :=
  b2n (s.flag F.RST_STATUS_OVERRIDE) + 2 * b2n (Nat.ble 2 (s.fld F.RST_STATUS_DEBUG))
    + 4 * s.fld F.PSV_SAF_WD_INJ_ALLOW

/-- SAF_STATUS INTEGRITY (R763). -/
def State.integrity (s : State) : Nat :=
  if s.saf.inSafe then 3
  else if (s.causes &&& s.classMask (fun c => Nat.ble 1 c)) != 0 then 2
  else if s.degrade != 0 then 1
  else 0

/-! ## Injections (Table 18-6) -/

/-- An injected reading of `target` and `inst`, while it acts. [DEDUCED: notes/assumptions/72.md] -/
def State.injected (s : State) (target inst : Nat) : Option Nat :=
  match s.saf.injActive.find? (fun x => x.1 == target && x.2.1 == inst && Nat.blt s.cycles x.2.2.2) with
  | some x => some x.2.2.1
  | none => none

/-- An applied injection waits for the next operation of `target` on `inst`; the operation uses it up (R773, Table 18-6).
[DEDUCED: notes/assumptions/72.md] -/
def State.takeInjection (s : State) (target inst : Nat) : Bool × State :=
  if (s.injected target inst).isSome then
    (true, { s with saf := { s.saf with injActive := s.saf.injActive.filter (fun x => !(x.1 == target && x.2.1 == inst)) } })
  else (false, s)

/-! ## GPIO (R815 to R818) -/

/-- The function GPIO_FUNC assigns to a pin (Table 20-6). -/
def State.gpioFunc (s : State) (g : Nat) : Nat :=
  if g < 8 then natBits (s.cell R.GLB_GPIO_FUNC_A).toNat (4 * g + 3) (4 * g)
  else natBits (s.cell R.GLB_GPIO_FUNC_B).toNat (4 * (g - 8) + 3) (4 * (g - 8))

/-- The pins SAF is to hold: GENERAL pins whose SAFE_EN is 1 (R817). [DEDUCED: notes/assumptions/74.md] -/
def State.safePins (s : State) : List Nat :=
  (List.range 16).filter (fun g => s.gpioFunc g == 0 && bitOf (s.fld F.PSV_GPIO_SAFE_SAFE_EN) g)

/-- A pin's resource ID (Table 20-5). -/
def pinRes (g : Nat) : Nat := 0x1000 + g

/-- The pins of a mask. -/
def pinsOf (m : Nat) : List Nat := (List.range 16).filter (fun g => bitOf m g)

/-- SAF takes the pins named, which it then drives to SAFE_VAL (R817): GLB page 0x002 waits; RESOURCE_HELD is recorded
and PREEMPTED raised when it held none before in this stay. Which pin that one record names when several are taken the spec does not
say: the lowest taken. [DEDUCED: notes/assumptions/21.md; DESIGN CHOICE: notes/assumptions/21.md] -/
def State.takePins (s : State) (pins : List Nat) : State :=
  let new := pins.filter (fun g => !bitOf s.gpio.held g)
  match new with
  | [] => s
  | g :: _ =>
    let first := s.gpio.held == 0
    let s := { s with
      held := (s.held.filter (fun (x : Nat × Nat) => !(new.any (fun g => pinRes g == x.1)))) ++ new.map (fun g => (pinRes g, 0x160)),
      gpio := { s.gpio with held := new.foldl setBit s.gpio.held } }
    if first then
      ((s.error 0x002 Err.resourceHeld (word (0x160 * 2 ^ 16 + pinRes g))).event 0x002 0).updCond 0x002
        (fun c => { c with waiting := true })
    else s

/-- SAF gives pins back; GLB page 0x002 takes those whose OE is 1 (R818). The last pin given back ends the wait and
raises RETURNED. [DEDUCED: notes/assumptions/21.md] -/
def State.returnPins (s : State) (pins : List Nat) : State :=
  let back := pins.filter (fun g => bitOf s.gpio.held g)
  if back = [] then s
  else
    let oe := s.fld F.GLB_GPIO_OE
    let s := { s with
      held := (s.held.filter (fun (x : Nat × Nat) => !(back.any (fun g => pinRes g == x.1))))
        ++ (back.filter (fun g => bitOf oe g)).map (fun g => (pinRes g, 0x002)),
      gpio := { s.gpio with held := back.foldl clrBit s.gpio.held } }
    if s.gpio.held = 0 then (s.updCond 0x002 (fun c => { c with waiting := false })).event 0x002 1 else s

/-! ## The safe state (R757 to R762) -/

/-- The virtual functions that exist. -/
def State.vfs (s : State) : List Nat := (List.range s.hif.numVfs).map (· + 1)

/-- Vector `v` of every virtual function. [DEDUCED: notes/assumptions/58.md] -/
def State.signalVfs (s : State) (v : Nat) : State := s.vfs.foldl (fun s n => s.signal n v) s

/-- Cause `n` is latched: EVENT_RAW bit n, and SAF_ACTIVE bit n where the cause has an active condition (R754). -/
def State.raiseCause (s : State) (n : Nat) : State :=
  let s := s.event 0x160 n
  let s := if Cause.hasActive n then s.updSaf (fun x => { x with active := setBit x.active n }) else s
  if s.causeClass n = 2 ∧ n ≠ 0 then s.updSaf (fun x => { x with onlyPowerOn := false }) else s

/-- Entry to the safe state for cause `n` with code `code` (R759, R760): the frame in compute is dropped, frames stop,
the pages read SAFE, SAF takes its pins, and SAF_FIRST names the cause. [DEDUCED: notes/assumptions/71.md] -/
def State.enterSafe (s : State) (n code : Nat) : State :=
  let s := { s with saf := { s.saf with inSafe := true } }
  let s := s.sentryStop
  let c := if code = 0 then 0x6031 else code
  let s := (s.dropCompute c).dropWaiting c
  let s := if s.frm.faultAfter.isSome then s.raiseCause Cause.blockFault else s
  let s := s.afterFrame
  let s := s.updCond 0x010 (fun c => { c with
    running := false, armed := false, draining := false, waiting := false, off := c.off || !(s.page 0x010).enable })
  let s := { s with waiters := s.waiters.filter (fun x => x.page != 0x010) }
  let s := { s with frm := { s.frm with syncHigh := false } }
  let s := s.updCond 0x040 (fun c => { c with running := false })
  let s := safePages.foldl (fun s p => s.updCond p (fun c => { c with safe := true })) s
  let s := (s.setFld F.SAF_FIRST_CAUSE n).setFld F.SAF_FIRST_CODE code
  let s := (s.setFld F.SAF_FIRST_TS_LO_TS (s.timebase % 2 ^ 32)).setFld F.SAF_FIRST_TS_HI_TS (s.timebase / 2 ^ 32)
  let s := s.bump F.SAF_SAFE_ENTRY_CNT
  let s := s.lifeSafe
  (s.takePins s.safePins).signalVfs 0

/-- TIMEBASE as SAF_FIRST_TS holds it. -/
def State.firstTs (s : State) : Nat := s.fld F.SAF_FIRST_TS_LO_TS + 2 ^ 32 * s.fld F.SAF_FIRST_TS_HI_TS

/-- A class C cause latched in the AON cycle of the entry counts as first where its bit is lower (R760). [DEDUCED: notes/assumptions/71.md] -/
def State.firstCause (s : State) (n code : Nat) : State :=
  if s.firstTs = s.timebase ∧ n < s.fld F.SAF_FIRST_CAUSE then (s.setFld F.SAF_FIRST_CAUSE n).setFld F.SAF_FIRST_CODE code else s

/-- A safety cause is latched (R754 to R757), and for class C the safe state is entered unless it is in force. `code` is the code recorded
for it. [DEDUCED: notes/assumptions/71.md] -/
def State.latch (s : State) (n code : Nat) : State :=
  let s := s.raiseCause n
  if s.causeClass n ≠ 2 then s else if s.saf.inSafe = false then s.enterSafe n code else s.firstCause n code

/-- A page of BLOCK_FAULT or SIDE_FAULT enters FAULT with a recorded code, and the cause is latched. -/
def State.pageFault (s : State) (p code : Nat) : State :=
  let s := s.updCond p (fun c => { c with fault := true })
  let q := statePage p
  if blockFaultPages.contains q then s.latch Cause.blockFault code
  else if sideFaultPages.contains q then s.latch Cause.sideFault code
  else s

/-- A cause of path RST is latched at once while Rootstock is AVAILABLE or ASLEEP, and at its next READY otherwise (R756). -/
def State.latchRst (s : State) (n code : Nat) : State :=
  if s.fld F.MBX_RST_RX_STATE ≤ 1 then s.latch n code
  else s.updRst (fun r => { r with latchWait := r.latchWait ++ [(n, code)] })

/-- The safe state may be released: no class C bit latched or active (R761). -/
def State.releaseBlockers (s : State) : Nat :=
  (s.causes ||| s.activeNow) &&& s.classMask (fun c => c == 2)

/-- The Frame Scheduler gives up its resources once it reads IDLE or OFF (R99). -/
def State.frmRelease (s : State) : State := if s.pstate 0x010 ≤ 1 then s.release 0x010 else s

/-- The safe state ends (R762): SAFE_STATE_N rises, the pages leave SAFE, SAF gives its pins back. [DEDUCED: notes/assumptions/71.md] -/
def State.leaveSafe (s : State) : State :=
  let s := { s with saf := { s.saf with inSafe := false } }
  let s := safePages.foldl (fun s p => s.updCond p (fun c => { c with safe := false })) s
  (s.frmRelease.returnPins (pinsOf s.gpio.held)).signalVfs 0

end Sys2Proof.Machine
end

