-- ==== Sys2Proof/Machine/GrfNet.lean ====
section
/-! DEFINITION. The Graft node as a sender: node numbers, routing, packets, the ports' transmit side, tags, and the requests an
access to a global address becomes (spec/12_graft_link.md, R513 to R553). -/

namespace Sys2Proof.Machine

/-! ## The torus (R513, R527 to R529) -/

/-- The size of dimension `i`: 0 x, 1 y, 2 z. -/
def State.dim (s : State) (i : Nat) : Nat :=
  1 + s.fld (if i = 0 then F.GRF_NODE_CFG_DIMX_M1 else if i = 1 then F.GRF_NODE_CFG_DIMY_M1 else F.GRF_NODE_CFG_DIMZ_M1)

/-- The node's coordinate in dimension `i`. -/
def State.coord (s : State) (i : Nat) : Nat :=
  s.fld (if i = 0 then F.GRF_NODE_CFG_X else if i = 1 then F.GRF_NODE_CFG_Y else F.GRF_NODE_CFG_Z)

/-- The node ID (R513). -/
def State.nodeId (s : State) : Nat := s.coord 0 + s.dim 0 * (s.coord 1 + s.dim 1 * s.coord 2)

/-- The coordinate in dimension `i` of a node ID. -/
def State.coordOf (s : State) (node i : Nat) : Nat :=
  if i = 0 then node % s.dim 0 else if i = 1 then node / s.dim 0 % s.dim 1 else node / (s.dim 0 * s.dim 1) % s.dim 2

/-- The node ID of three coordinates. -/
def State.nodeAt (s : State) (x y z : Nat) : Nat := x + s.dim 0 * (y + s.dim 1 * z)

/-- A coordinate stepped by one in direction `d` of a dimension of size `k`. -/
def stepCoord (k c d : Nat) : Nat := if d % 2 = 0 then (c + 1) % k else (c + k - 1) % k

/-- The DIR register of dimension `i`. -/
def dirReg (i : Nat) : Field := if i = 0 then F.GRF_DIR_X_DIR else if i = 1 then F.GRF_DIR_Y_DIR else F.GRF_DIR_Z_DIR

/-- The first dimension, x before y before z, in which a destination differs (R527). -/
def State.nextDim (s : State) (dest : Nat) : Option Nat :=
  (List.range 3).find? (fun i => s.coordOf dest i != s.coord i)

/-- The direction a packet leaves in: the one it travels in while it stays in its dimension, otherwise the DIR bit of the
destination's coordinate (R527, R528). `arr` is the direction of the port it came in by. -/
def State.outDir (s : State) (arr : Option Nat) (dest i : Nat) : Nat :=
  let fresh := 2 * i + b2n (bitOf (s.fld (dirReg i)) (s.coordOf dest i))
  match arr with
  | some a => if a / 2 = i then 2 * i + (1 - a % 2) else fresh
  | none => fresh

/-- The dateline bit on the link a packet leaves by (R529): 0 on entering a dimension, 1 on the link across the dateline and after it. -/
def State.outLine (s : State) (arr : Option Nat) (line d : Nat) : Nat :=
  let i := d / 2
  let stays := match arr with | some a => a / 2 == i | none => false
  let crosses := if d % 2 = 0 then s.coord i + 1 == s.dim i else s.coord i == 0
  if crosses then 1 else if stays then line else 0

/-! ## Packets (Tables 12-6 to 12-8) -/

def Packet.ttype (p : Packet) : Nat := fieldOf p.hdr 0 1
def Packet.dlen (p : Packet) : Nat := natBits (fieldOf p.hdr 1 1) 4 0
def Packet.depth (p : Packet) : Nat := natBits (fieldOf p.hdr 1 1) 6 5
def Packet.poison (p : Packet) : Bool := bitOf (fieldOf p.hdr 1 1) 7
def Packet.dest (p : Packet) : Nat := fieldOf p.hdr 2 2 % 2 ^ 15
def Packet.src (p : Packet) : Nat := fieldOf p.hdr 4 2 % 2 ^ 15
def Packet.tag (p : Packet) : Nat := fieldOf p.hdr 6 2 % 2 ^ 12
def Packet.gen (p : Packet) : Nat := fieldOf p.hdr 6 2 / 2 ^ 12
def Packet.operand (p : Packet) : Nat := fieldOf p.hdr 8 8

/-- The traffic class of a type (Table 12-7): 0 RSP, 1 WR, 2 RD, 3 MSG. -/
def classOf (t : Nat) : Nat :=
  if 0x80 ≤ t then 0 else if t = 2 ∨ t = 3 ∨ t = 5 then 1 else if t = 1 ∨ t = 4 then 2 else 3

/-- A type that is answered by a response. -/
def answered (t : Nat) : Bool := Nat.ble 1 t && Nat.ble t 5

/-- A packet of the fields of Table 12-6. -/
def mkPacket (ttype : Nat) (poison : Bool) (dest src tag operand : Nat) (data : List Byte) : Packet :=
  let slots := ceilDiv data.length 16
  { hdr := leBytes 1 ttype ++ leBytes 1 (slots + 128 * b2n poison) ++ leBytes 2 dest ++ leBytes 2 src ++ leBytes 2 tag ++ leBytes 8 operand,
    data := (data ++ List.replicate 16 0).take (16 * slots) }

/-- The response to a request (R537, Table 12-8): RSP_DATA of `bytes` for a READ or a GATHER, RSP_ACK otherwise. -/
def respondTo (q : Packet) (me status : Nat) (poison : Bool) (bytes : List Byte) : Packet :=
  let t := q.ttype
  if t = 1 ∨ t = 4 then mkPacket 0x80 poison q.src me (q.tag + 2 ^ 12 * q.gen) (status + 2 ^ 16 * bytes.length) bytes
  else mkPacket 0x81 false q.src me (q.tag + 2 ^ 12 * q.gen) status []

/-- Bytes a READ or GATHER asks for. -/
def Packet.asked (p : Packet) : Nat :=
  if p.ttype = 1 then natBits p.operand 40 32 else if p.ttype = 4 then 2 * (natBits p.operand 56 50 + 1) else 0

/-- The slots of a packet in order: whether the slot starts the transaction, and its bytes. -/
def Packet.slots (p : Packet) : List (Bool × List Byte) :=
  (true, p.hdr) :: (List.range (p.data.length / 16)).map (fun i => (false, (p.data.drop (16 * i)).take 16))

/-! ## Ports: the transmit side (R522 to R526) -/

/-- A port nothing has changed. -/
def portDefault (_ : Nat) : GrfPort := {}

/-- Port `n`. -/
def State.port (s : State) (n : Nat) : GrfPort := Sparse.get portDefault s.grf.ports n

/-- Port `n` is updated. -/
def State.updPort (s : State) (n : Nat) (f : GrfPort → GrfPort) : State :=
  s.updGrf (fun g => { g with ports := Sparse.set portDefault g.ports n (f (Sparse.get portDefault g.ports n)) })

/-- The port that stands in direction `d` (R514): the one that holds it, else the fixed port. -/
def State.dirPort (s : State) (d : Nat) : Nat :=
  match s.holder (0x4100 + d) with | some p => (p - 0x0F0) / 2 | none => d

/-- A port takes packets: its link is ACTIVE or RECOVER (R531). -/
def State.portUp (s : State) (n : Nat) : Bool := s.lstate n == 4 || s.lstate n == 5

/-- A count per VC. -/
def vcGet (m : Sparse Nat) (v : Nat) : Nat := Sparse.get (fun _ => 0) m v

/-- Slots that VC `v` may still send (R525). -/
def GrfPort.room (p : GrfPort) (v : Nat) : Nat := 384 - (vcGet p.sent v + 4096 - vcGet p.credit v) % 4096

/-- Slots cut into flits of four, each slot with its VC. -/
def flitsOf (v : Nat) (f : Nat) (l : List (Bool × List Byte)) : List (List (Nat × Bool × List Byte)) :=
  match f with
  | 0 => []
  | f + 1 => if l.isEmpty then [] else ((l.take 4).map (fun x => (v, x.1, x.2))) :: flitsOf v f (l.drop 4)

/-- DATA flits counted in units of 65,536. -/
def State.countTx (s : State) (n k : Nat) : State :=
  let t := (s.port n).txFlits + k
  let s := s.updPort n (fun p => { p with txFlits := t % 65536 })
  if 65536 ≤ t then s.bumpBy (F.GRF_TX_FLIT_CNT n) (t / 65536) else s

/-- The next packet a port may send: the first of each VC, in class order (R443), with credit for all its slots. -/
def GrfPort.nextOut (p : GrfPort) : Option (Nat × Packet) :=
  (List.range 8).findSome? (fun v =>
    match p.outq.find? (fun x => x.1 == v) with
    | some x => if x.2.slots.length ≤ p.room v then some x else none
    | none => none)

/-- A packet leaves the queue of its port: its flits take the next SEQs and wait for their ACK. -/
def State.sendPacket (s : State) (n : Nat) (x : Nat × Packet) : State :=
  let fl := flitsOf x.1 17 x.2.slots
  let s := s.updPort n (fun p => { p with
    outq := p.outq.erase x,
    sent := Sparse.set (fun _ => 0) p.sent x.1 ((vcGet p.sent x.1 + x.2.slots.length) % 4096),
    ackAt := if p.replay.isEmpty then s.cycles else p.ackAt,
    replay := p.replay ++ (List.range fl.length).map (fun i => ((p.txSeq + i) % 4096, fl.getD i [])),
    txSeq := (p.txSeq + fl.length) % 4096 })
  s.countTx n fl.length

/-- A port sends what credit and the 512 unacknowledged flits admit, while it is ACTIVE and not PAUSED (R525, R552). -/
def State.pumpPort (n : Nat) : Nat → State → State
  | 0, s => s
  | f + 1, s =>
    if s.lstate n = 4 ∧ (s.page (grfPage n)).pausing = false then
      match (s.port n).nextOut with
      | some x => if (s.port n).replay.length + ceilDiv x.2.slots.length 4 ≤ 512 then State.pumpPort n f (s.sendPacket n x) else s
      | none => s
    else s

/-- Every packet that may leave a port leaves. -/
def State.pump (s : State) (n : Nat) : State := State.pumpPort n (s.port n).outq.length s

/-! ## Routing (R530, R531) -/

/-- A packet takes the port of direction `d`. -/
def State.emit (s : State) (arr : Option Nat) (d : Nat) (p : Packet) : State :=
  let n := s.dirPort d
  let line := s.outLine arr p.line d
  (s.updPort n (fun q => { q with outq := q.outq ++ [(2 * classOf p.ttype + line, { p with line := line })] })).pump n

/-- A response or a MSG-class packet is routed; it is discarded where its direction is down (R531). -/
def State.routeResp (s : State) (arr : Option Nat) (p : Packet) : State :=
  match s.nextDim p.dest with
  | none => s
  | some i =>
    let d := s.outDir arr p.dest i
    if s.portUp (s.dirPort d) then s.emit arr d p
    else
      let s := s.bump (F.GRF_DISCARD_CNT (s.dirPort d))
      if p.ttype = 6 ∧ p.src = s.nodeId then s.bump F.MBX_FWD_LOST_CNT else s

/-! ## Requests (R535 to R543, R553) -/

/-- Tags in use (OUTSTANDING). -/
def State.tagsUsed (s : State) : Nat := s.grf.reqs.length

/-- NODE_LOST completes a request to `node` (R553): counted, and recorded on the node page with its cause. -/
def State.nodeLost (s : State) (node cause : Nat) : State :=
  ((s.bump F.GRF_NODE_LOST_CNT).error 0x0F1 0x4010 (word (node + cause * 2 ^ 16))).event 0x0F1 0

/-- An answer reaches its agent; one for an agent that was reset is discarded (R445). -/
def State.answer (s : State) (x : GrfAns) : State :=
  if x.agent == .gone then s else s.updGrf (fun g => { g with answers := g.answers ++ [x] })

/-- A request ends: its tag's generation moves on, and its agent has its answer. -/
def State.finishReq (s : State) (q : GrfReq) (code : Nat) (poison : Bool) (bytes : List Byte) : State :=
  (s.updGrf (fun g => { g with
    reqs := g.reqs.filter (fun x => !(x.tag == q.tag && x.gen == q.gen)),
    gens := Sparse.set (fun _ => 0) g.gens q.tag ((q.gen + 1) % 16) })).answer ⟨q.agent, q.ttype, q.operand, q.addr, bytes, poison, code⟩

/-- A request ends with NODE_LOST: poisoned data. -/
def State.loseReq (s : State) (q : GrfReq) (cause : Nat) : State :=
  (s.finishReq q 0x4010 true (List.replicate q.bytes 0)).nodeLost q.node cause

/-- Two requests touch one 64-byte line and are not both adds (R543). -/
def lineClash (a b : GrfReq) : Bool :=
  let add := fun (q : GrfReq) => q.ttype == 3 || q.ttype == 5
  a.bytes != 0 && b.bytes != 0 && !(add a && add b)
    && Nat.ble (a.addr / 64) ((b.addr + b.bytes - 1) / 64) && Nat.ble (b.addr / 64) ((a.addr + a.bytes - 1) / 64)

/-- A free tag; which one is not the spec's. [DEDUCED: notes/assumptions/54.md] -/
def State.freeTag (s : State) : Nat :=
  let l := (List.range 4096).filter (fun t => !(s.grf.reqs.any (fun q => q.tag == t)))
  l.getD (s.freeVal % l.length) 0

/-- A request is sent with a reserved tag; where its direction is down it ends with NODE_LOST, cause ROUTE (R531). -/
def State.sendReq (s : State) (q : GrfReq) : State :=
  let t := s.freeTag
  let s := s.drawFree
  let g := Sparse.get (fun _ => 0) s.grf.gens t
  let q : GrfReq := { q with tag := t, gen := g, sentAt := s.cycles }
  let s := (s.updGrf (fun x => { x with reqs := x.reqs ++ [q] })).bump F.GRF_REQ_OUT_CNT
  match s.nextDim q.node with
  | none => s
  | some i =>
    let d := s.outDir none q.node i
    if s.portUp (s.dirPort d) then s.emit none d (mkPacket q.ttype false q.node s.nodeId (t + 2 ^ 12 * g) q.operand q.data)
    else (s.bump (F.GRF_ROUTE_LOST_CNT (s.dirPort d))).loseReq q 2

/-- A request is made (R535, R543, R550): at once NODE_LOST to a node marked lost; held while an earlier request to its line is
outstanding or no tag is free; otherwise sent. [DEDUCED: notes/assumptions/54.md] -/
def State.request (s : State) (q : GrfReq) : State :=
  if s.grf.lost.contains q.node then
    (s.answer ⟨q.agent, q.ttype, q.operand, q.addr, List.replicate q.bytes 0, true, 0x4010⟩).nodeLost q.node 3
  else if s.grf.reqs.any (lineClash q) || s.grf.waiting.any (lineClash q) || Nat.ble 4096 s.tagsUsed then
    s.updGrf (fun g => { g with waiting := g.waiting ++ [q] })
  else s.sendReq q

/-- Held requests are tried again, oldest first. -/
def State.retryHeld (s : State) : State :=
  let l := s.grf.waiting
  l.foldl (fun (s : State) q => s.request q) (s.updGrf (fun g => { g with waiting := [] }))

/-- An agent has requests outstanding or held. -/
def State.awaits (s : State) (a : Agent) : Bool := s.grf.reqs.any (fun q => q.agent == a) || s.grf.waiting.any (fun q => q.agent == a)

/-- The data an agent's reads brought are used up. -/
def State.dropReads (s : State) (a : Agent) : State :=
  s.updGrf (fun g => { g with answers := g.answers.filter (fun x => !(x.agent == a && x.ttype == 1)) })

/-- The acknowledgements of an agent's writes are used up. -/
def State.dropAcks (s : State) (a : Agent) : State :=
  s.updGrf (fun g => { g with answers := g.answers.filter (fun x => !(x.agent == a && x.ttype != 1)) })

/-- The first error code among the acknowledgements of an agent's writes. -/
def State.answerCode (s : State) (a : Agent) : Nat :=
  match s.grf.answers.find? (fun x => x.agent == a && x.ttype != 1 && x.code != 0) with | some x => x.code | none => 0

/-- A write or an add of the agent that acts was not performed: its acknowledgement carries the code (R412, R455, R534, R547), the first of
the access. [DEDUCED: notes/assumptions/48.md] -/
def State.acked (s : State) (code : Nat) : State :=
  if s.answerCode s.grf.reader = 0 then s.updGrf (fun g => { g with answers := g.answers ++ [⟨g.reader, 2, 0, 0, [], false, code⟩] }) else s

/-! ## Global addresses (R532 to R535, R547) -/

/-- The node a global address names. -/
def globalNode (d : Nat) : Nat := natBits d 46 32

/-- An export window admits an access (R534): 0 READ, 1 WRITE, 2 ADD32; the device address it lands on.
[DEDUCED: notes/assumptions/54.md] -/
def State.exported (s : State) (w off kind : Nat) : Option Nat :=
  if s.flag (F.GRF_EXPORT_LO_ENABLE w) && s.flag (if kind = 0 then F.GRF_EXPORT_LO_READ w else if kind = 1 then F.GRF_EXPORT_LO_WRITE w
      else F.GRF_EXPORT_LO_ADD w) then
    some (s.fld (F.GRF_EXPORT_LO_BASE w) * 2 ^ 28 + s.fld (F.GRF_EXPORT_HI_BASE w) * 2 ^ 32 + off)
  else none

/-- GRF_ACCESS_DENIED (R534). -/
def State.denied (s : State) : State := ((s.bump F.GRF_DENIED_CNT).error 0x0F1 0x8010 0).event 0x0F1 3

/-- A stage's access to a global address is refused: the Frame Scheduler is RUNNING in FRAME_LOCKED (R547). -/
def State.remoteLocked (s : State) : Bool :=
  s.pstate 0x010 == St.running && !s.frm.freeRun && (match s.grf.reader with
    | .tile _ => true
    | .stage _ => true
    | .hrv => true
    | .etu _ => true
    | .job _ => false
    | .none => false
    | .gone => true)

/-- The pieces of an access: at most 256 bytes, each within one aligned 256-byte block (R535). -/
def pieces : Nat → Nat → Nat → List (Nat × Nat)
  | 0, _, _ => []
  | f + 1, d, n =>
    if n = 0 then []
    else
      let c := min n (256 - d % 256)
      (d, c) :: pieces f (d + c) (n - c)

/-- A WRITE to another node (Table 12-8). -/
def State.sendWrite (s : State) (d : Nat) (bs : List Byte) : State :=
  s.request { agent := s.grf.reader, ttype := 2, node := globalNode d, operand := natBits d 31 0 + 2 ^ 32 * bs.length, data := bs,
              addr := d, bytes := bs.length }

/-- A READ from another node. -/
def State.sendRead (s : State) (d n : Nat) : State :=
  s.request { agent := s.grf.reader, ttype := 1, node := globalNode d, operand := natBits d 31 0 + 2 ^ 32 * n, addr := d, bytes := n }

/-- An ADD32 on a line of another node. -/
def State.sendAdd (s : State) (d mask : Nat) (addends : List Nat) : State :=
  s.request { agent := s.grf.reader, ttype := 3, node := globalNode d, operand := natBits d 31 0 + 2 ^ 32 * mask,
              data := addends.flatMap (leBytes 4), addr := d, bytes := 64 }

/-- A byte of another node as an answer brought it: its value and mark, with the code; none while it is awaited. -/
def State.remoteByte (s : State) (d : Nat) : Option (Byte × Bool × Nat) :=
  match s.grf.answers.find? (fun x => x.agent == s.grf.reader && x.ttype == 1 && Nat.ble x.addr d && Nat.blt d (x.addr + x.bytes.length)) with
  | some x => some (x.bytes.getD (d - x.addr) 0, x.poison, x.code)
  | none => none

/-- An agent reads and writes from now on. -/
def State.asAgent (s : State) (a : Agent) : State := s.updGrf (fun g => { g with reader := a, miss := false })

/-- Work of an agent that reads: it waits, changing nothing, while an answer from another node is missing. -/
def State.byAgent (s : State) (a : Agent) (f : State → State) : State :=
  let t := f (s.asAgent a)
  if t.grf.miss then s else t.dropReads a

end Sys2Proof.Machine
end

