-- ==== Sys2Proof/Machine/Mailbox.lean ====
section
/-! DEFINITION. Shared mailboxes, doorbells, the device-address view and the private channels' drops
(spec/14_mailboxes_doorbells.md). -/

namespace Sys2Proof.Machine

def tilePage (n : Nat) : Nat := 0x080 + n

/-- A gated tile is asked to wake (R394). -/
def State.wakeTile (s : State) (n : Nat) : State :=
  if (s.page (tilePage n)).cond.gated then s.updTile n (fun t => { t with wakeReq := true }) else s

/-! ## Doorbells (R633 to R636) -/

/-- Bits of a word. -/
def bitsOf (w : Word) : List Nat := (List.range 32).filter (fun b => bitOf w.toNat b)

/-- Receiver `r` is signalled for the bits that became 1 in PEND AND NOT MASK (R635). -/
def State.signalReceiver (s : State) (r : Nat) (rise : Word) : State :=
  if rise = 0 then s
  else if r = 0 then (if s.fld F.MBX_RST_RX_STATE = 1 then s.setFld F.MBX_RST_RX_STATE 0 else s)
  else if Nat.ble r 64 && rise &&& s.cell (R.MBX_DB_WAKE r) != 0 then s.wakeTile (r - 1)
  else s

/-- The bits of receiver `r` that are pending and not masked. -/
def State.dbOut (s : State) (r : Nat) : Word := s.cell (R.MBX_DB_PEND r) &&& ~~~(s.cell (R.MBX_DB_MASK r))

/-- A ring of the bits of `v` at receiver `r` (R634, R635). [DEDUCED: notes/assumptions/60.md] -/
def State.ring (s : State) (r : Nat) (v : Word) : State :=
  let old := s.dbOut r
  let s := (s.bump F.MBX_DB_RING_CNT).setCell (R.MBX_DB_PEND r) (s.cell (R.MBX_DB_PEND r) ||| v)
  (s.noteRise (R.MBX_DB_PEND r) v).signalReceiver r (s.dbOut r &&& ~~~old)

/-- A write of 1 bits to PEND clears them, but for those rung in the same cycle (R66). [DEDUCED: notes/assumptions/60.md] -/
def State.clearPend (s : State) (r : Nat) (v : Word) : State :=
  s.setCell (R.MBX_DB_PEND r) (s.cell (R.MBX_DB_PEND r) &&& ~~~(v &&& ~~~s.risen (R.MBX_DB_PEND r)))

/-- MASK takes a value; bits unmasked while pending signal the receiver (R635). -/
def State.setMask (s : State) (r : Nat) (v : Word) : State :=
  let old := s.dbOut r
  let s := s.setCell (R.MBX_DB_MASK r) v
  s.signalReceiver r (s.dbOut r &&& ~~~old)

/-- WAKE takes a value at a tile's receiver; at others it reads 0 (R635). -/
def State.setWake (s : State) (r : Nat) (v : Word) : State :=
  if Nat.ble 1 r && Nat.ble r 64 then s.setCell (R.MBX_DB_WAKE r) v else s

/-- The doorbells of a function return to reset (R636). -/
def State.resetDoorbell (s : State) (fn : Nat) : State :=
  (s.setCell (R.MBX_DB_PEND (65 + fn)) 0).setCell (R.MBX_DB_MASK (65 + fn)) 0xFFFFFFFF

/-! ## Shared mailboxes (R621 to R628) -/

/-- The bytes of a mailbox's slot. -/
def State.mbSlot (s : State) (m : Nat) : List Byte :=
  (List.range 16).flatMap (fun i => leBytes 4 (s.cell (R.MBX_MB_SLOT (m / 32) (16 * (m % 32) + i))).toNat)

/-- The bytes of a mailbox's slot are written. -/
def State.setMbSlot (s : State) (m : Nat) (b : List Byte) : State :=
  (List.range 16).foldl (fun (s : State) i => s.setCell (R.MBX_MB_SLOT (m / 32) (16 * (m % 32) + i)) (word (fieldOf b (4 * i) 4))) s

/-- A slot with the fields the device writes (R608), STATE 0. -/
def stampSlot (b : List Byte) (sender node ts : Nat) : List Byte :=
  b.take 3 ++ [0] ++ leBytes 2 sender ++ leBytes 2 node ++ leBytes 8 ts ++ (b.drop 0x10).take 48

/-- MBX takes sends: ENABLE is 1, and it is neither PAUSED nor in FAULT (R626). -/
def State.mbxOpen (s : State) : Bool :=
  (s.page 0x110).enable && !(s.page 0x110).pausing && !(s.page 0x110).cond.fault

/-- A send is refused (R626). -/
def State.mbxRefuse (s : State) : State := ((s.bump F.MBX_REFUSED_CNT).error 0x110 0xA01B 0).event 0x110 2

/-- An accepted send to mailbox `m` is stored (R623). -/
def State.mbStore (s : State) (m : Nat) (b : List Byte) (sender node : Nat) : State :=
  let n := m / 32
  let k := m % 32
  let s := if s.flag (F.MBX_MB_CTL_FULL n k) then
      (((s.setFld (F.MBX_MB_CTL_COLLISION n k) 1).noteRise (R.MBX_MB_CTL n k) (1#32 <<< 30)).bump F.MBX_COLLISION_CNT).event 0x110 0
    else s
  let s := s.setMbSlot m (stampSlot b sender node s.timebase)
  let s := s.setFld (F.MBX_MB_CNT_WRITE_CNT n k) (s.fld (F.MBX_MB_CNT_WRITE_CNT n k) + 1)
  let s := (s.setFld (F.MBX_MB_CTL_FULL n k) 1).bump F.MBX_SEND_CNT
  if s.flag (F.MBX_MB_CTL_DB_EN n k) then s.ring (s.fld (F.MBX_MB_CTL_RECEIVER n k)) (1#32 <<< s.fld (F.MBX_MB_CTL_DB_BIT n k)) else s

/-- A Graft MESSAGE reaches mailbox `m`: always stored here; a refusal is counted only (R625, R626). -/
def State.mbMessage (s : State) (m : Nat) (b : List Byte) : State :=
  if s.mbxOpen then s.mbStore m b (0x5000 + fieldOf b 4 2 % 2 ^ 12) (fieldOf b 6 2 % 2 ^ 15) else s.bump F.MBX_REFUSED_CNT

/-- A send on a forwarding mailbox leaves as a MESSAGE (R625). -/
def State.mbForward (s : State) (m : Nat) (b : List Byte) (sender : Nat) : State :=
  let node := s.fld (F.MBX_MB_FWD_FWD_NODE (m / 32) (m % 32))
  let dst := s.fld (F.MBX_MB_FWD_FWD_MBX (m / 32) (m % 32))
  let out := stampSlot b sender s.nodeId s.timebase
  let s := (s.bump F.MBX_SEND_CNT).bump F.MBX_FWD_CNT
  if s.grf.lost.contains node then s.bump F.MBX_FWD_LOST_CNT
  else if node = s.nodeId then s.mbMessage dst out
  else s.routeResp none (mkPacket 6 false node s.nodeId 0 dst out)

/-- A send to mailbox `m` by a sender of Table 14-2 (R622 to R626): the state, and whether it was refused.
[DEDUCED: notes/assumptions/60.md] -/
def State.mbSend (s : State) (m : Nat) (b : List Byte) (sender : Nat) : State × Bool :=
  if s.mbxOpen then
    if s.flag (F.MBX_MB_CTL_FWD_EN (m / 32) (m % 32)) then (s.mbForward m b sender, false)
    else (s.mbStore m b sender s.nodeId, false)
  else (s.mbxRefuse, true)

/-- MB_TAKE (R624). [DEDUCED: notes/assumptions/60.md] -/
def State.mbTake (s : State) (m c : Nat) : State :=
  if s.fld (F.MBX_MB_CNT_WRITE_CNT (m / 32) (m % 32)) = c % 2 ^ 32 then s.setFld (F.MBX_MB_CTL_FULL (m / 32) (m % 32)) 0 else s

/-! ## The device-address view (R629 to R631) -/

/-- The word at an aligned area offset (Table 14-6). -/
def State.areaWord (s : State) (x : Nat) : Word :=
  if x < 0x4000 then s.cell (R.MBX_MB_SLOT (x / 2048) (x % 2048 / 4))
  else if x < 0x5000 then
    let m := (x - 0x4000) / 16
    let i := x % 16 / 4
    if i = 0 then s.cell (R.MBX_MB_CTL (m / 32) (m % 32))
    else if i = 1 then s.cell (R.MBX_MB_CNT (m / 32) (m % 32))
    else if i = 3 then s.cell (R.MBX_MB_FWD (m / 32) (m % 32))
    else 0
  else if x < 0x5810 then
    let r := (x - 0x5000) / 16
    let i := x % 16 / 4
    if i = 0 then s.cell (R.MBX_DB_PEND r) else if i = 1 then s.cell (R.MBX_DB_MASK r) else if i = 2 then s.cell (R.MBX_DB_WAKE r) else 0
  else 0

/-- One byte of the area. -/
def State.areaByte (s : State) (x : Nat) : Byte := BitVec.ofNat 8 ((s.areaWord (x / 4 * 4)).toNat / 2 ^ (8 * (x % 4)))

/-- A 1 written to COLLISION of a mailbox clears it, but not in the cycle in which it was set (R66). -/
def State.clearCollision (s : State) (n k : Nat) (v : Word) : State :=
  if getBits (v &&& ~~~s.risen (R.MBX_MB_CTL n k)) 30 30 = 1 then s.setFld (F.MBX_MB_CTL_COLLISION n k) 0 else s

/-- One aligned word write to the control or doorbell words of the area (R630). -/
def State.areaWriteWord (s : State) (x : Nat) (v : Word) : State :=
  let i := x % 16 / 4
  if x < 0x5000 then
    let m := (x - 0x4000) / 16
    if i = 0 then s.clearCollision (m / 32) (m % 32) v
    else if i = 2 then s.mbTake m v.toNat
    else s
  else
    let r := (x - 0x5000) / 16
    if i = 0 then s.clearPend r v else if i = 1 then s.setMask r v else if i = 2 then s.setWake r v else s.ring r v

/-- The sender kind and number of an agent (Table 14-2); one that the table does not name has a free code.
[DEDUCED: notes/assumptions/60.md] -/
def State.senderOf (s : State) : Nat :=
  match s.grf.reader with
  | .tile t => 0x4000 + t
  | .job k => 0x3000 + k / 2
  | .none => s.freeVal % 65536
  | .stage _ => s.freeVal % 65536
  | .hrv => s.freeVal % 65536
  | .etu _ => s.freeVal % 65536
  | .gone => s.freeVal % 65536

/-- A refused send by an on-die agent: its acknowledgement carries MBX_REFUSED (R626). [DEDUCED: notes/assumptions/60.md] -/
def State.areaRefuse (s : State) : State :=
  s.mbxRefuse.updGrf (fun g => { g with answers := g.answers ++ [⟨g.reader, 2, 0, 0, [], false, 0xA01B⟩] })

/-- Whole words of a write to the control and doorbell words, in ascending address. The fuel is the number of bytes. -/
def State.areaWords : Nat → State → Nat → List Byte → State
  | 0, s, _, _ => s
  | f + 1, s, x, bs =>
    if bs.isEmpty then s
    else if x % 4 = 0 ∧ 4 ≤ bs.length then State.areaWords f (s.areaWriteWord x (word (fieldOf bs 0 4))) (x + 4) (bs.drop 4)
    else State.areaWords f s (x + 1) (bs.drop 1)

/-- A write within one 64-byte line of the area (R626, R630). [DEDUCED: notes/assumptions/60.md] -/
def State.areaWrite (s : State) (x : Nat) (bs : List Byte) : State :=
  if x < 0x4000 then
    if x % 64 = 0 ∧ bs.length = 64 then
      let q := s.mbSend (x / 64) bs s.senderOf
      let s := q.1.drawFree
      if q.2 then s.updGrf (fun g => { g with answers := g.answers ++ [⟨g.reader, 2, 0, 0, [], false, 0xA01B⟩] }) else s
    else s.areaRefuse
  else if x + bs.length ≤ 0x5810 then State.areaWords bs.length s x bs
  else s.areaRefuse

/-! ## Private channels: states and drops (R610 to R620) -/

/-- The key of a byte of a private slot. -/
def privKey (ctx slot o : Nat) : Nat := ctx * 512 + slot * 64 + o

/-- A byte of a private slot. -/
def State.privByte (s : State) (ctx slot o : Nat) : Nat := (Sparse.get (fun _ => (0 : Byte)) s.hif.priv (privKey ctx slot o)).toNat

/-- STATE of a private slot (Table 14-3). -/
def State.privState (s : State) (ctx slot : Nat) : Nat := s.privByte ctx slot 3

/-- Bytes enter the private slots' memory. -/
def privWrite (m : Mem) (k : Nat) : List Byte → Mem
  | [] => m
  | b :: t => privWrite (Sparse.set (fun _ => (0 : Byte)) m k b) (k + 1) t

/-- Bytes of a private slot are written. -/
def State.setPriv (s : State) (ctx slot o : Nat) (bs : List Byte) : State :=
  s.updHif (fun h => { h with priv := privWrite h.priv (privKey ctx slot o) bs })

/-- STAMP of a private slot (R608). -/
def State.privStamp (s : State) (x : Nat × Nat) : Nat := leNat ((List.range 8).map (fun i => BitVec.ofNat 8 (s.privByte x.1 x.2 (8 + i))))

/-- A post takes its place among the posted slots: last, but among the posts of its own cycle by context, then slot (R614).
[DEDUCED: notes/assumptions/59.md] -/
def State.postAt (s : State) (x : Nat × Nat) : List (Nat × Nat) → List (Nat × Nat)
  | [] => [x]
  | y :: t =>
    if s.privStamp y = s.timebase ∧ x.1 * 8 + x.2 < y.1 * 8 + y.2 then x :: y :: t else y :: State.postAt s x t

/-- PRIV_LAST names a drop or discard. -/
def State.privLast (s : State) (code ctx slot : Nat) : State :=
  ((s.setFld F.MBX_PRIV_LAST_CODE code).setFld F.MBX_PRIV_LAST_SLOT slot).setFld F.MBX_PRIV_LAST_CONTEXT ctx

/-- A POSTED slot is dropped (R617, R620). [DEDUCED: notes/assumptions/59.md] -/
def State.privDrop (s : State) (ctx slot : Nat) : State :=
  let s := (s.setPriv ctx slot 3 [3]).updHif (fun h => { h with posted := h.posted.filter (fun x => !(x.1 == ctx && x.2 == slot)) })
  ((s.bump F.MBX_PRIV_DROP_CNT).error 0x110 0xA01C (word (slot * 2 ^ 12 + ctx))).event 0x110 1 |>.privLast 0xA01C ctx slot

/-- The posted slots of a context are dropped. -/
def State.privDropCtx (s : State) (ctx : Nat) : State :=
  (s.hif.posted.filter (fun x => x.1 == ctx)).foldl (fun (s : State) x => s.privDrop x.1 x.2) s

/-- PRIV_POLICY of a context: ABORT. [DEDUCED: notes/assumptions/59.md] -/
def State.privAbort (s : State) (ctx : Nat) : Bool := bitOf (s.cell (R.MBX_PRIV_POLICY (ctx / 32))).toNat (ctx % 32)

/-- Rootstock is in RESET or DEAD (Table 14-5). -/
def State.rstAway (s : State) : Bool := Nat.ble 2 (s.fld F.MBX_RST_RX_STATE)

/-- Rootstock executes: AVAILABLE or ASLEEP (Table 14-5), and not halted by a debugger (R683). [DEDUCED: notes/assumptions/66.md] -/
def State.rstUp (s : State) : Bool := !s.rstAway && !s.rst.halted

/-- Rootstock's receiver state changes; RESET or DEAD drops the posted slots of the ABORT channels (R617).
[DEDUCED: notes/assumptions/59.md] -/
def State.setRstRx (s : State) (v : Nat) : State :=
  let s := s.setFld F.MBX_RST_RX_STATE v
  if 2 ≤ v then (s.hif.posted.filter (fun x => s.privAbort x.1)).foldl (fun (s : State) x => s.privDrop x.1 x.2) s else s

end Sys2Proof.Machine
end

