-- ==== Sys2Proof/Machine/Memory.lean ====
section
/-! DEFINITION. Device addresses, the memories behind them, POISON, and the operations of the Churn units
(spec/10_memory_ordering.md, R411 to R437). -/

namespace Sys2Proof.Machine

/-! ## Reads -/

/-- The carve-out line behind line `k` of the window is on a channel that failed training (R455). -/
def State.windowFailed (s : State) (k : Nat) : Bool := !s.mem.failed.isEmpty && s.mem.failed.contains (s.windowPlace k).1

/-- Line `k` of the window is marked POISON, by a write or by an error in the carve-out (R437, R452). -/
def State.windowMarked (s : State) (k : Nat) : Bool :=
  Sparse.get noMark s.mem.resultPoison k
    || (!s.mem.dramPoison.isEmpty && Sparse.get noMark s.mem.dramPoison (dramKey (s.windowPlace k).1 (s.windowPlace k).2 / 64))

/-- One byte of this node's memories (the bytes of Directory tables and of the row cache are unspecified, R335): its value, whether its unit
is marked POISON, and the completion code (R412, R455). -/
def State.localByte (s : State) (d : Nat) : Byte × Bool × Nat :=
  match s.home d with
  | .dram c a =>
    if s.mem.failed.contains c then (0, true, 0x5018)
    else (Sparse.get byte0 s.mem.dram (dramKey c a), Sparse.get noMark s.mem.dramPoison (dramKey c a / 64), 0)
  | .cellar t off =>
    (if off < 0xA0000 ∨ 0x180000 ≤ off + 0x10000 * s.fld F.ETU_CFG_CACHE_SHARE then
        BitVec.ofNat 8 (Config.tableByte s.cycles (cellarKey t off))
      else Sparse.get (cellarByte0 s.mem.cellarLoss) s.mem.cellar (cellarKey t off), Sparse.get noMark s.mem.cellarPoison (cellarKey t off / 8), 0)
  | .fusedOff => (0, false, 0)
  | .result off =>
    if s.windowFailed (off / 64) then (0, true, 0x5018)
    else (Sparse.get byte0 s.mem.result off, s.windowMarked (off / 64), 0)
  | .mailbox x => (s.areaByte x, false, 0)
  | .global => (0, true, 0x5011)
  | .reserved => (0, true, 0x5011)

/-- The device address on which an access to a global address of this node lands, with its export check (R533, R534); none when refused.
`kind` is 0 READ, 1 WRITE, 2 ADD32. -/
def State.loopback (s : State) (d kind : Nat) : Option Nat :=
  match s.exported (natBits d 31 28) (natBits d 27 0) kind with
  | none => none
  | some x =>
    match s.home x with
    | .result _ => if kind = 0 then some x else none
    | .dram _ _ => some x
    | .cellar _ _ => some x
    | .fusedOff => some x
    | .mailbox _ => some x
    | .global => some x
    | .reserved => some x

/-- One byte at a device address as the reading agent sees it: of another node, the byte an answer brought (R535); poisoned where the access
is refused (R534, R547). [DEDUCED: notes/assumptions/47.md] -/
def State.readByte (s : State) (d : Nat) : Byte × Bool × Nat :=
  match s.home d with
  | .global =>
    if s.remoteLocked then (0, true, 0x1018)
    else if globalNode d = s.nodeId then
      match s.loopback d 0 with
      | some x => s.localByte x
      | none => (0, true, 0x8010)
    else match s.remoteByte d with
      | some b => b
      | none => (0, true, 0x4010)
  | .dram _ _ => s.localByte d
  | .cellar _ _ => s.localByte d
  | .fusedOff => s.localByte d
  | .result _ => s.localByte d
  | .mailbox _ => s.localByte d
  | .reserved => s.localByte d

/-- `n` bytes from a device address (R413: each byte follows the rules of its own range). [DEDUCED: notes/assumptions/48.md] -/
def State.read (s : State) : Nat → Nat → Rd
  | _, 0 => ⟨[], false, 0⟩
  | d, n + 1 =>
    let b := s.readByte d
    let r := State.read s (d + 1) n
    ⟨b.1 :: r.bytes, b.2.1 || r.poison, if b.2.2 = 0 then r.code else b.2.2⟩

/-- A little-endian number of `n` bytes at a device address. -/
def State.readNat (s : State) (d n : Nat) : Nat := leNat (s.read d n).bytes

/-! ## The combining buffer (R427) -/

/-- The lines in the combining buffer of channel `c`, least recently used first. -/
def State.combined (s : State) (c : Nat) : List Nat := Sparse.get (fun _ => []) s.mem.combine c

/-- The combining buffer of a channel is replaced. -/
def State.setCombined (s : State) (c : Nat) (l : List Nat) : State :=
  { s with mem := { s.mem with combine := Sparse.set (fun _ => []) s.mem.combine c l } }

/-- A line is used in the combining buffer: it becomes the most recently used, and with 256 other lines there the
least recently used is written back (LINE_EVICT). [DEDUCED: notes/assumptions/48.md] -/
def State.combineTouch (s : State) (c line : Nat) : State :=
  let l := (s.combined c).filter (· != line) ++ [line]
  if 256 < l.length then (s.setCombined c (l.drop 1)).event (0x0C1 + 2 * c) 1 else s.setCombined c l

/-- A plain access writes a line back from the combining buffer (R427). -/
def State.combineFlush (s : State) (c line : Nat) : State := s.setCombined c ((s.combined c).filter (· != line))

/-- Every line of channel-homed bytes `d` to `d + n - 1` is written back (R427). -/
def State.flushRange (s : State) (d n : Nat) : State :=
  if s.mem.combine.isEmpty then s
  else (List.range ((d % 64 + n + 63) / 64)).foldl (fun (s : State) i =>
    match s.home (d / 64 * 64 + 64 * i) with
    | .dram c a => s.combineFlush c (a / 64)
    | .cellar _ _ => s
    | .fusedOff => s
    | .result _ => s
    | .mailbox _ => s
    | .global => s
    | .reserved => s) s

/-! ## Uncorrectable data (R296, R363, R418, R420, R449, R451 to R453) -/

/-- An uncorrectable error in a Directory partition or in the Separator's region (R296): the SEP page enters FAULT.
[DEDUCED: notes/assumptions/43.md] -/
def State.sepFault (s : State) : State := s.pageFault 0x040 0

/-- An uncorrectable error in a derived-pool table (R363). -/
def State.scvFault (s : State) : State := (s.error 0x060 0x5014 0).pageFault 0x060 0x5014

/-- Device address `d` lies in the 512 MiB of the Separator's region (R272), while the Separator is not OFF. -/
def State.inSepRegion (s : State) (d : Nat) : Bool :=
  Nat.ble s.sep.dram d && Nat.blt d (s.sep.dram + 2 ^ 29) && s.pstate 0x040 != St.off

/-- The registers and the record of an uncorrectable DRAM error in the line of channel address `a` (R452); `d` is the device
address. -/
def State.dramUeNoted (s : State) (c a d : Nat) : State :=
  let s := s.bump (F.MEMC_UE_CNT c)
  let s := (s.setFld (F.MEMC_UE_ADDR_LO_ADDR c) (d % 2 ^ 32)).setFld (F.MEMC_UE_ADDR_HI_ADDR c) (d / 2 ^ 32)
  let s := (s.error (0x0C0 + 2 * c) 0x5010 (word (c * 2 ^ 29 + a / 64 % 2 ^ 27))).event (0x0C0 + 2 * c) 1
  let s := s.latch Cause.memUe 0x5010
  if s.inSepRegion d then s.sepFault else s

/-- A correctable DRAM error (R451). [DEDUCED: notes/assumptions/49.md] -/
def State.dramCe (s : State) (c : Nat) : State := (s.bump (F.MEMC_CE_CNT c)).event (0x0C0 + 2 * c) 0

/-- The registers and the record of an uncorrectable Cellar word (R453), on page 0x0C1; in a Directory partition it is a SEP fault (R296), in
the tables of a derived pool an SCV fault (R363). [DEDUCED: notes/assumptions/49.md] -/
def State.cellarUe (s : State) (t off : Nat) : State :=
  let s := s.bump (F.MEMC_CELLAR_UE_CNT 0)
  let s := (s.setFld (F.MEMC_CELLAR_LAST_TILE 0) t).setFld (F.MEMC_CELLAR_LAST_WORD 0) (off / 8)
  let s := s.error 0x0C1 0x5017 (word (t * 2 ^ 18 + off / 8))
  let s := s.latch Cause.memUe 0x5017
  if off < 0x60000 then s.sepFault else if off < 0xA0000 ∧ s.scv.sets ≠ [] then s.scvFault else s

/-- The device address of a channel address: interleaved, in the shard window, or in the result-buffer window, whose place in the carve-out
the spec does not give (a free value). [DEDUCED: notes/assumptions/49.md] -/
def State.deviceAddr (s : State) (c a : Nat) : Nat :=
  if a < s.shardBase then ilvDevice c a
  else if a < s.chanU - 2 ^ 22 then shardAddr c (a - s.shardBase)
  else 0x001006000000 + s.freeVal % 2 ^ 19 * 64

/-- The data line of channel address `a` is marked POISON. -/
def State.poisonLine (s : State) (c a : Nat) : State :=
  s.updMem (fun m => { m with dramPoison := Sparse.set noMark m.dramPoison (dramKey c a / 64) true })

/-- Physical line `p` of channel `c` is uncorrectable (R449, R452): a data line, at device address `d`, or an ECC line with its group.
[DEDUCED: notes/assumptions/49.md] -/
def State.lineUe (s : State) (c p d : Nat) : State :=
  let a := p / 16 * 15 * 64
  if p % 16 = 15 then
    let s := (List.range 15).foldl (fun (s : State) i => s.poisonLine c (a + 64 * i)) s
    s.dramUeNoted c a (s.deviceAddr c a)
  else (s.poisonLine c (a + p % 16 * 64)).dramUeNoted c (a + p % 16 * 64) d

/-- The number of a physical line of the DRAM among the errors that may lie there, and the physical lines of channel address `a`: its data
line and the ECC line of its group (R417). -/
def physLine (c p : Nat) : Nat := c * 2 ^ 27 + p
def dataLine (a : Nat) : Nat := a / 64 / 15 * 16 + a / 64 % 15
def eccLine (a : Nat) : Nat := a / 64 / 15 * 16 + 15

/-- The error that lies in a unit: none, or whether it is uncorrectable. -/
def State.upsetIn (s : State) (cellar : Bool) (u : Nat) : Option Bool :=
  (s.mem.upsets.find? (fun x => x.cellar == cellar && x.unit == u)).map (·.hard)

/-- The unit is written whole, or its error has been corrected or marked. -/
def State.mendUnit (s : State) (cellar : Bool) (u : Nat) : State :=
  if s.mem.upsets.isEmpty then s
  else s.updMem (fun m => { m with upsets := m.upsets.filter (fun x => !(x.cellar == cellar && x.unit == u)) })

/-- A physical line is read: a correctable error is written back corrected (R451), an uncorrectable one marked (R449, R452). Whether the
line is uncorrectable. -/
def State.meetPhys (s : State) (c p d : Nat) : Bool × State :=
  match s.upsetIn false (physLine c p) with
  | none => (false, s)
  | some true => (true, (s.mendUnit false (physLine c p)).lineUe c p d)
  | some false => (false, (s.mendUnit false (physLine c p)).dramCe c)

/-- The line of channel address `a` is read from DRAM, with the ECC line of its group; a line in the combining buffer is not (R427).
`d` is its device address. -/
def State.meetLine (s : State) (c a d : Nat) : Bool × State :=
  if s.mem.upsets.isEmpty || (s.combined c).contains (a / 64) then (false, s)
  else
    let q := s.meetPhys c (dataLine a) d
    let r := q.2.meetPhys c (eccLine a) d
    (q.1 || r.1, r.2)

/-- The word of a slice that holds offset `off` is read: a single-bit error is corrected and counted, an uncorrectable word is marked
POISON (R420, R453). That the corrected word is written back is a reading. [DEDUCED: notes/assumptions/49.md] -/
def State.meetWord (s : State) (t off : Nat) : Bool × State :=
  let u := cellarKey t off / 8
  match s.upsetIn true u with
  | none => (false, s)
  | some true =>
    (true, ((s.mendUnit true u).updMem (fun m => { m with cellarPoison := Sparse.set noMark m.cellarPoison u true })).cellarUe t off)
  | some false => (false, (s.mendUnit true u).bump (F.MEMC_CELLAR_CE_CNT 0))

/-! ## Reads of units, with injected errors (Table 18-6, R774) -/

/-- One unit is read: an injection that waits for a read of its slice or channel acts on this read alone, and an error that lies in the unit
is met. The answer says whether the data come back uncorrectable. [DEDUCED: notes/assumptions/49.md] -/
def State.readUnit (s : State) (d : Nat) : Bool × State :=
  match s.home d with
  | .dram c a =>
    let r := s.takeInjection 4 c
    if r.1 then (true, r.2.dramUeNoted c a d)
    else
      let q := r.2.takeInjection 3 c
      (if q.1 then q.2.dramCe c else q.2).meetLine c a d
  | .cellar t off =>
    let r := s.takeInjection 2 t
    if r.1 then (true, r.2.cellarUe t off)
    else
      let q := r.2.takeInjection 1 t
      (if q.1 then q.2.bump (F.MEMC_CELLAR_CE_CNT 0) else q.2).meetWord t off
  | .fusedOff => (false, s)
  | .result off => if s.mem.upsets.isEmpty then (false, s) else s.meetLine (s.windowPlace (off / 64)).1 (s.windowPlace (off / 64)).2 d
  | .mailbox _ => (false, s)
  | .global => (false, s)
  | .reserved => (false, s)

/-- Only an injection that acts or an error that lies in a memory makes a read of a unit change anything. -/
def State.readsClean (s : State) : Bool := s.saf.injActive.isEmpty && s.mem.upsets.isEmpty

/-- The unit size of the memory of this node that holds `d`. -/
def State.localUnitAt (s : State) (d : Nat) : Nat :=
  match s.home d with
  | .cellar _ _ => 8
  | .global => 64
  | .dram _ _ => 64
  | .fusedOff => 64
  | .result _ => 64
  | .mailbox _ => 64
  | .reserved => 64

/-- The units of `n` bytes of this node at `d` are read in order. -/
def State.readUnits (s : State) (d n : Nat) : Bool × State :=
  if s.readsClean then (false, s)
  else
    let u := s.localUnitAt d
    (List.range ((d % u + n + u - 1) / u)).foldl (fun (r : Bool × State) k =>
      let q := r.2.readUnit (d / u * u + k * u)
      (r.1 || q.1, q.2)) (false, s)

/-! ## Places of table rows (R460, R462, R484, R489) -/

/-- A slot that no DEFINE has filled. -/
def tableDefault (_ : Nat) : EtuTable := {}

/-- Table slot `t`. -/
def State.table (s : State) (t : Nat) : EtuTable := Sparse.get tableDefault s.etu.tables t

/-- ROW_BYTES (R460). -/
def EtuTable.rowBytes (x : EtuTable) : Nat := 16 * ceilDiv (4 + (if x.fmt = 0 then x.elems else x.elems / 2)) 16

/-- SH, the number of shards, and R_sh, the slots per shard (R462). -/
def EtuTable.sh (x : EtuTable) : Nat := 8 * x.nodeCount
def EtuTable.rsh (x : EtuTable) : Nat := ceilDiv x.rows x.sh

/-- The home node and channel of a row, and its slot (R462). -/
def EtuTable.node (x : EtuTable) (i : Nat) : Nat := x.nodeBase + i % x.sh / 8
def EtuTable.chan (x : EtuTable) (i : Nat) : Nat := i % x.sh % 8
def EtuTable.slot (x : EtuTable) (i : Nat) : Nat := i / x.sh

/-- The redirect entry of a row. -/
def State.redirectOf (s : State) (t i : Nat) : Option Redirect := s.etu.redirect.find? (fun r => r.table == t && r.row == i)

/-- Channel and shard offset of a row's code row: its spill slot, or its home slot (R489). -/
def State.codePlace (s : State) (t i : Nat) : Nat × Nat :=
  let x := s.table t
  match s.redirectOf t i with
  | some r => (r.chan, x.spillOff + r.slot * x.rowBytes)
  | none => (x.chan i, x.rowOff + x.slot i * x.rowBytes)

/-- Two regions share a byte. -/
def overlap (a b : Nat × Nat) : Bool := Nat.blt a.1 (b.1 + b.2) && Nat.blt b.1 (a.1 + a.2)

/-- A write of `n` bytes at address `a` of channel `c` takes the rows whose code rows it reaches out of the row cache (R484).
[DEDUCED: notes/assumptions/48.md] -/
def State.uncacheAt (s : State) (c a n : Nat) : State :=
  if s.etu.cached.isEmpty then s
  else s.updEtu (fun e => { e with cached := e.cached.filter (fun x =>
    let p := s.codePlace x.1 x.2
    !(p.1 == c && overlap (s.shardBase + p.2, (s.table x.1).rowBytes) (a, n))) })

/-! ## Writes -/

/-- The mark of a unit after a write of `n` of its `size` bytes (R437). -/
def markAfter (marked poisoned : Bool) (n size : Nat) : Bool :=
  if poisoned then true else if n = size then false else marked

/-- BAD_ACCESS_CNT counts an access that is not a BAR 0 access (R112, R422). -/
def State.countBadAccess (s : State) : State := s.bump F.GLB_BAD_ACCESS_CNT_COUNT

/-- POISON_CNT of a channel, with its event, when a write or an add marks a line (Table 10-10, R456). -/
def State.notePoison (s : State) (c : Nat) (before after : Bool) : State :=
  if after && !before then (s.bump (F.MEMC_POISON_CNT c)).event (0x0C1 + 2 * c) 0 else s

/-- A write within line `k` of the result-buffer window (R422): bytes, then the mark of the line. -/
def State.windowUnit (s : State) (k off : Nat) (bs : List Byte) (poisoned : Bool) : State :=
  if s.windowFailed k then s.acked 0x5018
  else
    let s := if s.mem.upsets.isEmpty then s
      else if bs.length = 64 then s.mendUnit false (physLine (s.windowPlace k).1 (dataLine (s.windowPlace k).2))
      else (s.meetLine (s.windowPlace k).1 (s.windowPlace k).2 (0x001006000000 + 64 * k)).2
    let m0 := s.windowMarked k
    let m1 := markAfter m0 poisoned bs.length 64
    let s := s.updMem (fun m => { m with
      result := Mem.writeAt byte0 m.result off bs, resultPoison := Sparse.set noMark m.resultPoison k m1 })
    let s := if s.mem.dramPoison.isEmpty then s
      else s.updMem (fun m => { m with
        dramPoison := Sparse.set noMark m.dramPoison (dramKey (s.windowPlace k).1 (s.windowPlace k).2 / 64) false })
    if m1 && !m0 then s.notePoison (s.windowPlace k).1 m0 m1 else s

/-- A write within one unit of the memory of this node that holds `d`: bytes, then the unit's mark (R437). `output` says that an
OUTPUT stage writes, which alone reaches the result-buffer window (R422). -/
def State.localUnit (s : State) (output : Bool) (d : Nat) (bs : List Byte) (poisoned : Bool) : State :=
  match s.home d with
  | .dram c a =>
    if s.mem.failed.contains c then s.acked 0x5018
    else
      let s := s.uncacheAt c a bs.length
      let s := if bs.length = 64 then s.mendUnit false (physLine c (dataLine a)) else (s.meetLine c a (d / 64 * 64)).2
      let u := dramKey c a / 64
      let m0 := Sparse.get noMark s.mem.dramPoison u
      let m1 := markAfter m0 poisoned bs.length 64
      (s.updMem (fun m => { m with
        dram := Mem.writeAt byte0 m.dram (dramKey c a) bs, dramPoison := Sparse.set noMark m.dramPoison u m1 })).notePoison c m0 m1
  | .cellar t off =>
    let u := cellarKey t off / 8
    let s := if bs.length = 8 then s.mendUnit true u else (s.meetWord t (off / 8 * 8)).2
    let m1 := markAfter (Sparse.get noMark s.mem.cellarPoison u) poisoned bs.length 8
    s.updMem (fun m => { m with
      cellar := Mem.writeAt (cellarByte0 m.cellarLoss) m.cellar (cellarKey t off) bs,
      cellarPoison := Sparse.set noMark m.cellarPoison u m1 })
  | .result off =>
    if output then s.windowUnit (off / 64) off bs poisoned
    else s.countBadAccess
  | .mailbox x => s.areaWrite x bs
  | .fusedOff => s
  | .global => s.acked 0x5011
  | .reserved => s.acked 0x5011

/-- The unit size of what an access at `d` reaches, of kind 0 READ, 1 WRITE: at a global address of this node, that of the bytes it lands on
(R533); an access to another node, or one that is refused, is cut at 256 bytes (R535). -/
def State.unitAt (s : State) (d kind : Nat) : Nat :=
  if s.home d = .global then
    if globalNode d = s.nodeId then (match s.loopback d kind with | some x => s.localUnitAt x | none => 256) else 256
  else s.localUnitAt d

/-- A write within one unit: in this node, by loopback through an export window (R533), or sent to another node (R535). -/
def State.writeUnit (s : State) (output : Bool) (d : Nat) (bs : List Byte) (poisoned : Bool) : State :=
  match s.home d with
  | .global =>
    if s.remoteLocked then s.acked 0x1018
    else if globalNode d = s.nodeId then
      match s.loopback d 1 with
      | some x => (s.flushRange x bs.length).localUnit false x bs poisoned
      | none => s.denied.acked 0x8010
    else s.sendWrite d bs
  | .dram _ _ => s.localUnit output d bs poisoned
  | .cellar _ _ => s.localUnit output d bs poisoned
  | .fusedOff => s.localUnit output d bs poisoned
  | .result _ => s.localUnit output d bs poisoned
  | .mailbox _ => s.localUnit output d bs poisoned
  | .reserved => s.localUnit output d bs poisoned

/-- A write of bytes at a device address, unit by unit; the list is cut at unit boundaries. The fuel is the number of
bytes. -/
def State.writeFuel (output poisoned : Bool) : Nat → State → Nat → List Byte → State
  | 0, s, _, _ => s
  | f + 1, s, d, bs =>
    match bs with
    | [] => s
    | _ =>
      let n := s.unitAt d 1 - d % s.unitAt d 1
      State.writeFuel output poisoned f (s.writeUnit output d (bs.take n) poisoned) (d + n) (bs.drop n)

/-- A write by an agent that is no OUTPUT stage. [DEDUCED: notes/assumptions/48.md] -/
def State.write (s : State) (d : Nat) (bs : List Byte) (poisoned : Bool := false) : State :=
  State.writeFuel false poisoned bs.length (s.flushRange d bs.length) d bs

/-- A write by an OUTPUT stage or by the device itself into the result-buffer window. -/
def State.writeOut (s : State) (d : Nat) (bs : List Byte) (poisoned : Bool := false) : State :=
  State.writeFuel true poisoned bs.length (s.flushRange d bs.length) d bs

/-- A write or an add is performed for a request that is no agent's of this node, or a Churn command's: the code of its acknowledgement
(R412, R455, R534). -/
def State.performed (s : State) (f : State → State) : Nat × State :=
  let t := f ((s.asAgent .none).dropAcks .none)
  (t.answerCode .none, t.dropAcks .none)

/-! ## ADD32 and SUMMARY_MERGE (R425, R426, R437) -/

/-- Lanes of a line after ADD32: lane i of the sixteen adds its addend modulo 2^32 where its mask bit is set. -/
def add32Lanes : Nat → List Byte → Nat → List Nat → List Byte
  | 0, _, _, _ => []
  | n + 1, bs, mask, addends =>
    let v := leNat (bs.take 4)
    let a := addends.headD 0
    leBytes 4 (if mask % 2 = 1 then (v + a) % 2 ^ 32 else v) ++ add32Lanes n (bs.drop 4) (mask / 2) (addends.drop 1)

/-- Churn operations counted in units of 65,536 (Table 10-10). -/
def State.countChurn (s : State) (k n : Nat) (f : Field) : State :=
  let t := Sparse.get (fun _ => 0) s.mem.counts k + n
  let s := s.updMem (fun m => { m with counts := Sparse.set (fun _ => 0) m.counts k (t % 65536) })
  if 65536 ≤ t then s.bumpBy f (t / 65536) else s

/-- A line that is not in the combining buffer is brought in from DRAM: it is read there (R427). -/
def State.bringIn (s : State) (c a d : Nat) : Bool × State :=
  if (s.combined c).contains (a / 64) || s.readsClean then (false, s) else s.readUnit (d / 64 * 64)

/-- ADD32 at a slice: a read-modify-write of each word with a lane of the mask (R429); each word keeps its own mark (R437). -/
def State.addWords (s : State) (line : Nat) (out : List Byte) (mask : Nat) (poisoned : Bool) : State :=
  (List.range 8).foldl (fun (s : State) k =>
    if natBits mask (2 * k + 1) (2 * k) = 0 then s
    else
      let q := if s.readsClean then (false, s) else s.readUnit (line + 8 * k)
      q.2.localUnit false (line + 8 * k) ((out.drop (8 * k)).take 8) (poisoned || q.1 || (s.localByte (line + 8 * k)).2.1)) s

/-- ADD32 on the 64-byte line of this node at device address `d` (R425, R426, R429): the sum is written and a poisoned or marked
line stays marked (R437). A DRAM line is held in the combining buffer (R427). -/
def State.localAdd (s : State) (d mask : Nat) (addends : List Nat) (poisoned : Bool) : State :=
  let line := d / 64 * 64
  let r := s.read line 64
  let out := add32Lanes 16 r.bytes mask addends
  match s.home line with
  | .dram c a =>
    if s.mem.failed.contains c then s.acked 0x5018
    else
      let q := s.bringIn c a line
      ((q.2.combineTouch c (a / 64)).countChurn (2 * c) (popCount 16 mask) (F.MEMC_ADD_CNT c)).localUnit false line out
        (poisoned || r.poison || q.1)
  | .cellar _ _ => s.addWords line out mask poisoned
  | .fusedOff => s
  | .result _ => s.countBadAccess
  | .mailbox _ => s
  | .global => s.acked 0x5011
  | .reserved => s.acked 0x5011

/-- ADD32 at a device address or a global address (R426, R533 to R535). [DEDUCED: notes/assumptions/48.md] -/
def State.add32 (s : State) (d mask : Nat) (addends : List Nat) (poisoned : Bool) : State :=
  match s.home d with
  | .global =>
    if s.remoteLocked then s.acked 0x1018
    else if globalNode d = s.nodeId then
      match s.loopback d 2 with
      | some x => s.localAdd x mask addends poisoned
      | none => s.denied.acked 0x8010
    else s.sendAdd (d / 64 * 64) mask addends
  | .dram _ _ => s.localAdd d mask addends poisoned
  | .cellar _ _ => s.localAdd d mask addends poisoned
  | .fusedOff => s.localAdd d mask addends poisoned
  | .result _ => s.localAdd d mask addends poisoned
  | .mailbox _ => s.localAdd d mask addends poisoned
  | .reserved => s.localAdd d mask addends poisoned

/-- The 32 bytes of a site summary after SUMMARY_MERGE with a contribution (Tables 6-4, 10-3). -/
def mergeSummary (old con : List Byte) : List Byte :=
  let g := fun (b : List Byte) (o n : Nat) => leNat ((b.drop o).take n)
  let add := fun (o n : Nat) => leBytes n ((g old o n + g con o n) % 2 ^ (8 * n))
  let zmin := if signed 16 (g con 0x18 2) < signed 16 (g old 0x18 2) then g con 0x18 2 else g old 0x18 2
  let zmax := if signed 16 (g old 0x1A 2) < signed 16 (g con 0x1A 2) then g con 0x1A 2 else g old 0x1A 2
  old.take 4 ++ add 4 4 ++ add 8 4 ++ add 0xC 4 ++ add 0x10 6 ++ leBytes 1 (max (g old 0x16 1) (g con 0x16 1))
    ++ ((old.drop 0x17).take 1) ++ leBytes 2 zmin ++ leBytes 2 zmax ++ (old.drop 0x1C).take 4

/-- SUMMARY_MERGE at a DRAM device address (R425, R427, R437); it applies nowhere else (R429). [DEDUCED: notes/assumptions/48.md] -/
def State.summaryMerge (s : State) (d : Nat) (con : List Byte) (poisoned : Bool) : State :=
  let r := s.read d 32
  match s.home d with
  | .dram c a =>
    if s.mem.failed.contains c then s.acked 0x5018
    else
      let q := s.bringIn c a d
      ((q.2.combineTouch c (a / 64)).countChurn (2 * c + 1) 1 (F.MEMC_MERGE_CNT c)).localUnit false d (mergeSummary r.bytes con)
        (poisoned || r.poison || q.1)
  | .cellar _ _ => s
  | .fusedOff => s
  | .result _ => s
  | .mailbox _ => s
  | .global => s
  | .reserved => s

/-! ## Reads by an agent (R413, R427, R533 to R535) -/

/-- `n` bytes of this node are read: the errors met, and the lines written back from the combining buffer. -/
def State.localFetch (s : State) (d n : Nat) : Bool × State := let q := s.readUnits d n; (q.1, q.2.flushRange d n)

/-- What the read of one piece at a global address leaves beside its data (R533 to R535): at this node the bytes it lands on are read, or the
refusal is recorded; from another node an awaited answer is noted. Anywhere else the piece is this node's. -/
def State.fetchPiece (r : Bool × State) (x : Nat × Nat) : Bool × State :=
  let s := r.2
  if s.home x.1 != .global then let q := s.localFetch x.1 x.2; (r.1 || q.1, q.2)
  else if s.remoteLocked then r
  else if globalNode x.1 = s.nodeId then
    match s.loopback x.1 0 with
    | some y => let q := s.localFetch y x.2; (r.1 || q.1, q.2)
    | none => (r.1, s.denied)
  else if (List.range x.2).all (fun i => (s.remoteByte (x.1 + i)).isSome) then r
  else (r.1, s.updGrf (fun g => { g with miss := true }))

/-- `n` bytes from a device address: each part by the rules of its own range (R413), with the errors met (R451 to R453, R773) and the lines
of the combining buffer written back (R427). -/
def State.fetch (s : State) (d n : Nat) : Rd × State :=
  let r := s.read d n
  let m := min n (0x800000000000 - d)
  let q := s.localFetch d m
  let g := if m = n then q else (pieces n (d + m) (n - m)).foldl State.fetchPiece q
  ({ r with poison := r.poison || g.1 }, g.2)

/-- Harvest stops (R322, R324): its writes to other nodes leave as requests that no agent waits for. -/
def State.endHarvest (s : State) (code : Nat) : State :=
  (s.hrvAway code).foldl (fun (s : State) w => s.write w.1 w.2) ((s.stopHarvest code).asAgent .gone)

/-- A read whose data are taken by `read` or `peek` elsewhere. -/
def State.touch (s : State) (d n : Nat) : State := (s.fetch d n).2

end Sys2Proof.Machine
end

