-- ==== Sys2Proof/Machine/Context.lean ====
section
/-! DEFINITION. Contexts, their owners, and the windows through which jobs name device memory
(spec/13_host_contexts_status.md, R563 to R569, R602). -/

namespace Sys2Proof.Machine

/-- The function that owns a context: 0 the physical function (R563). -/
def State.ctxOwner (s : State) (ctx : Nat) : Nat := s.fld (F.CTX_INFO_OWNER ctx)

/-- A function's writer ID (Table 2-4). -/
def writerOf (fn : Nat) : Nat := if fn = 0 then Writer.pf else Writer.vf fn

/-- A context names device addresses without windows (R569). -/
def State.rawContext (s : State) (ctx : Nat) : Bool := s.ctxOwner ctx == 0 && s.flag F.HIF_CFG_PF_RAW

/-- Bytes `d` to `d + n - 1` reach the result-buffer window. -/
def reachesResult (d n : Nat) : Bool := Nat.blt d 0x001008000000 && Nat.blt 0x001006000000 (d + max 1 n)

/-- The device address of a window address of `ctx` for an access of `n` bytes (R568, R569); none when the job is refused with
HIF_ADDR_FAULT. [DEDUCED: notes/assumptions/48.md] -/
def State.window (s : State) (ctx addr n : Nat) (wr : Bool) : Option Nat :=
  if s.rawContext ctx then
    if addr < 2 ^ 48 then some addr else none
  else
    let f := s.ctxOwner ctx
    let i := 16 * (f % 8) + natBits addr 47 44
    let off := natBits addr 43 0
    let d := s.fld (F.HIF_WIN_LO_BASE (f / 8) i) * 2 ^ 12 + s.fld (F.HIF_WIN_HI_BASE (f / 8) i) * 2 ^ 32 + off
    if addr < 2 ^ 48 ∧ s.flag (F.HIF_WIN_LO_ENABLE (f / 8) i) = true
        ∧ s.flag (if wr then F.HIF_WIN_LO_WRITE (f / 8) i else F.HIF_WIN_LO_READ (f / 8) i) = true
        ∧ off + n ≤ s.fld (F.HIF_WIN_SIZE_PAGES (f / 8) i) * 4096 ∧ (wr && reachesResult d n) = false then some d
    else none

/-- A job of a context issues a host access: the requester ID is that of the context's owner, the address is unchanged (R567). -/
def State.hostIssue (s : State) (ctx addr n : Nat) (wr : Bool) : State :=
  s.hostTlp.updHif (fun h => { h with hostAccess := some ⟨s.ctxOwner ctx, addr, n, wr⟩ })

/-- The most bytes that one TLP of a host access carries or asks for (Table 13-1). -/
def PcieCfg.limit (c : PcieCfg) (wr : Bool) : Nat := if wr then c.mps else c.mrrs

/-- A host access of a context's job failed (R602). -/
def State.hostDmaFail (s : State) (ctx : Nat) : State :=
  ((s.bump F.HIF_HOST_DMA_ERR_CNT).event 0x100 1).signal (s.ctxOwner ctx) 2

end Sys2Proof.Machine
end

