-- ==== Sys2Proof/Machine/Operands.lean ====
section
/-! DEFINITION. The numeric formats of tiles and of sparse convolution, their rounding and special values, the wide accumulator
and the epilogue (spec/09_scion_tiles.md, R371 to R375, R387; spec/08_sparse_convolution.md, R342 to R344). -/

namespace Sys2Proof.Machine

/-! ## Numbers -/

/-- The value of an operand: m × 2^e, an infinity, or NaN. -/
inductive Fnum where
  | fin (m e : Int)
  | inf (neg : Bool)
  | nan
  deriving DecidableEq, Repr

/-- m × 2^k rounded to an integer, to nearest with ties to even, for a negative exponent given as k = -n. -/
def rneShift (m : Int) (n : Nat) : Int :=
  let q : Int := m / ((2 ^ n : Nat) : Int)
  let r : Int := 2 * (m - q * ((2 ^ n : Nat) : Int))
  let h : Int := ((2 ^ n : Nat) : Int)
  if r < h then q else if h < r then q + 1 else if q % 2 = 0 then q else q + 1

/-- Number of bits of a magnitude. -/
def bitLen (n : Nat) : Nat := if n = 0 then 0 else n.log2 + 1

/-- The lower exponent, and both significands brought to it. -/
def alignTo (m1 e1 m2 e2 : Int) : Int × Int × Int :=
  let e := min e1 e2
  (e, m1 * ((2 ^ (e1 - e).toNat : Nat) : Int), m2 * ((2 ^ (e2 - e).toNat : Nat) : Int))

/-- Exact sum (R375 for the special values). -/
def Fnum.add : Fnum → Fnum → Fnum
  | .fin m1 e1, .fin m2 e2 => let a := alignTo m1 e1 m2 e2; .fin (a.2.1 + a.2.2) a.1
  | .nan, _ => .nan
  | .inf _, .nan => .nan
  | .fin _ _, .nan => .nan
  | .inf a, .inf b => if a = b then .inf a else .nan
  | .inf a, .fin _ _ => .inf a
  | .fin _ _, .inf b => .inf b

/-- The negative. -/
def Fnum.neg : Fnum → Fnum
  | .fin m e => .fin (-m) e
  | .inf a => .inf (!a)
  | .nan => .nan

/-- Exact product (R375 for the special values). -/
def Fnum.mul : Fnum → Fnum → Fnum
  | .fin m1 e1, .fin m2 e2 => .fin (m1 * m2) (e1 + e2)
  | .nan, _ => .nan
  | .inf _, .nan => .nan
  | .fin _ _, .nan => .nan
  | .inf a, .inf b => .inf (a != b)
  | .inf a, .fin m _ => if m = 0 then .nan else .inf (a != decide (m < 0))
  | .fin m _, .inf b => if m = 0 then .nan else .inf (b != decide (m < 0))

/-- One number is below another; NaN compares with nothing. -/
def Fnum.lt : Fnum → Fnum → Bool
  | .fin m1 e1, .fin m2 e2 => let a := alignTo m1 e1 m2 e2; decide (a.2.1 < a.2.2)
  | .nan, _ => false
  | _, .nan => false
  | .inf a, .inf b => a && !b
  | .inf a, .fin _ _ => a
  | .fin _ _, .inf b => !b

/-- The value is zero. -/
def Fnum.isZero : Fnum → Bool
  | .fin m _ => m == 0
  | .inf _ => false
  | .nan => false

/-- A negative value becomes 0 (ReLU). -/
def Fnum.relu : Fnum → Fnum
  | .fin m e => if m < 0 then .fin 0 0 else .fin m e
  | .inf a => if a then .fin 0 0 else .inf a
  | .nan => .nan

/-- The wide accumulator's rounding: a 32-bit significand, to nearest with ties to even (R373). -/
def Fnum.wide : Fnum → Fnum
  | .fin m e =>
    let b := bitLen m.natAbs
    if b ≤ 32 then .fin m e else .fin (rneShift m (b - 32)) (e + (b - 32 : Nat))
  | .inf a => .inf a
  | .nan => .nan

/-! ## Formats (Table 9-3) -/

/-- A float format: mantissa bits, exponent bits, exponent of the last place of a subnormal, and whether it is E4M3 (one NaN
code, no infinity). -/
structure FloatFmt where
  man : Nat
  exp : Nat
  low : Int
  e4m3 : Bool
  deriving DecidableEq, Repr

def fmtE4M3 : FloatFmt := ⟨3, 4, -9, true⟩
def fmtE5M2 : FloatFmt := ⟨2, 5, -16, false⟩
def fmtBf16 : FloatFmt := ⟨7, 8, -133, false⟩

/-- The value of a float code. -/
def FloatFmt.decode (f : FloatFmt) (b : Nat) : Fnum :=
  let man := natBits b (f.man - 1) 0
  let ex := natBits b (f.man + f.exp - 1) f.man
  let neg := bitOf b (f.man + f.exp)
  let sgn : Int := if neg then -1 else 1
  if ex = 2 ^ f.exp - 1 ∧ f.e4m3 = false then (if man = 0 then .inf neg else .nan)
  else if ex = 2 ^ f.exp - 1 ∧ man = 2 ^ f.man - 1 then .nan
  else if ex = 0 then .fin (sgn * man) f.low
  else .fin (sgn * ((2 ^ f.man + man : Nat) : Int)) (f.low + (ex - 1 : Nat))

/-- The code of the largest finite magnitude, without a sign. -/
def FloatFmt.maxCode (f : FloatFmt) : Nat := 2 ^ (f.man + f.exp) - 1 - (if f.e4m3 then 1 else 2 ^ f.man)

/-- The code of an infinity, without a sign; E4M3 has none and takes its largest magnitude (R374). -/
def FloatFmt.infCode (f : FloatFmt) : Nat := if f.e4m3 then f.maxCode else (2 ^ f.exp - 1) * 2 ^ f.man

/-- The canonical NaN (R375). -/
def FloatFmt.nanCode (f : FloatFmt) : Nat :=
  if f.e4m3 then 2 ^ (f.man + f.exp) - 1 else (2 ^ f.exp - 1) * 2 ^ f.man + 2 ^ (f.man - 1)

/-- Conversion (R374): to nearest, ties to even, subnormals kept; `infOk` is the INF_OK flag. The sign of an exact zero is the
free bit `z`, for the spec states none. [DEDUCED: notes/assumptions/45.md] -/
def FloatFmt.encode (f : FloatFmt) (infOk : Bool) (z : Nat) : Fnum → Nat
  | .nan => f.nanCode
  | .inf a => b2n a * 2 ^ (f.man + f.exp) + f.infCode
  | .fin m e =>
    if m = 0 then z % 2 * 2 ^ (f.man + f.exp)
    else
      let q := max (e + (bitLen m.natAbs : Nat) - (f.man + 1 : Nat)) f.low
      let mag := if e < q then (rneShift (m.natAbs : Nat) (q - e).toNat).toNat else m.natAbs * 2 ^ (e - q).toNat
      let c := (q - f.low).toNat * 2 ^ f.man + mag
      let c := if c ≤ f.maxCode then c else if infOk then f.infCode else f.maxCode
      b2n (decide (m < 0)) * 2 ^ (f.man + f.exp) + c

/-- The format code is a float format. -/
def fmtIsFloat (c : Nat) : Bool := c == 1 || c == 2 || c == 3

/-- The float format of a code. -/
def floatFmt (c : Nat) : FloatFmt := if c = 1 then fmtE4M3 else if c = 2 then fmtE5M2 else fmtBf16

/-- The value of a code of format `c`. -/
def numOf (c b : Nat) : Fnum :=
  if fmtIsFloat c then (floatFmt c).decode b
  else if c = 6 then .fin (b % 2 ^ 16 : Nat) 0
  else .fin (signed (8 * fmtBytes c) b) 0

/-- An integer limited to the range of an integer format (R372). -/
def satInt (c : Nat) (i : Int) : Int := if c = 6 then clampInt 0 65535 i else satSigned (8 * fmtBytes c) i

/-- The code of a number in format `c` (R372, R374). -/
def codeOf (c : Nat) (infOk : Bool) (z : Nat) (x : Fnum) : Nat :=
  if fmtIsFloat c then (floatFmt c).encode infOk z x
  else
    let w := 8 * fmtBytes c
    match x with
    | .nan => 0
    | .inf a => unsigned w (satInt c (if a then -(2 ^ 40) else 2 ^ 40))
    | .fin m e =>
      let i := if e < 0 then (if 200 < -e ∧ m.natAbs < 2 ^ 64 then 0 else rneShift m (-e).toNat)
        else if m = 0 then 0 else if 64 < e then m.sign * 2 ^ 64 else m * ((2 ^ e.toNat : Nat) : Int)
      unsigned w (satInt c i)

/-- Two readings of one result: where they agree it is the result, otherwise a free choice of the two by `v`.
[DEDUCED: notes/assumptions/45.md] -/
def settle (v a b : Nat) : Nat := if a = b then a else if v % 2 = 0 then a else b

/-! ## Dot products (R372, R373) -/

/-- Exact sum of the products of one block. -/
def blockSum : List Fnum → List Fnum → Fnum
  | a :: as, w :: ws => (a.mul w).add (blockSum as ws)
  | [], _ => .fin 0 0
  | _ :: _, [] => .fin 0 0

/-- The wide accumulator takes the blocks of one output in order: each block's exact sum is added with one rounding.
[DEDUCED: notes/assumptions/45.md] -/
def accumulate (kb : Nat) : Nat → Fnum → List Fnum → List Fnum → Fnum
  | 0, acc, _, _ => acc
  | n + 1, acc, a, w => accumulate kb n ((acc.add (blockSum (a.take kb) (w.take kb))).wide) (a.drop kb) (w.drop kb)

/-- Exact integer dot product. -/
def intDot : List Int → List Int → Int
  | a :: as, w :: ws => a * w + intDot as ws
  | [], _ => 0
  | _ :: _, [] => 0

/-- Inputs of one MAC block: 32 in 8-bit formats, 16 in BF16 (Table 9-1). -/
def macBlock (prec : Nat) : Nat := if prec = 3 then 16 else 32

/-- An accumulator: exact INT32, or the wide float. -/
inductive Acc where
  | int (i : Int)
  | flt (x : Fnum)
  deriving DecidableEq, Repr

/-- An accumulator of a PREC, at 0. -/
def Acc.zero (prec : Nat) : Acc := if prec = 0 then .int 0 else .flt (.fin 0 0)

/-- The codes `a` and `w` of one run of inputs are added to an accumulator (R372, R373); `wf` is the weight's format code,
4 for INT4. [DEDUCED: notes/assumptions/45.md] -/
def Acc.mac (prec wf : Nat) (acc : Acc) (a w : List Nat) : Acc :=
  match acc with
  | .int i => .int (i + intDot (a.map (signed 8)) (w.map (signed (if wf = 4 then 4 else 8))))
  | .flt x =>
    .flt (accumulate (macBlock prec) (ceilDiv a.length (macBlock prec)) x (a.map (numOf prec)) (w.map (numOf wf)))

/-- The format code of weights (Table 8-2): WFMT 0 is PREC's own format, 1 INT4, 2 E5M2. -/
def weightFmt (prec wfmt : Nat) : Nat := if wfmt = 1 then 4 else if wfmt = 2 then 2 else prec

/-- PREC, WFMT and OUT_FMT are a combination of Table 8-2 (R342). -/
def comboOk (prec wfmt out : Nat) : Bool :=
  if prec = 0 then (wfmt == 0 || wfmt == 1) && out == 0
  else if prec = 1 then (wfmt == 0 || wfmt == 2) && (out == 1 || out == 2 || out == 3)
  else if prec = 2 || prec = 3 then wfmt == 0 && (out == 1 || out == 2 || out == 3)
  else false

/-- The epilogue of an output channel (R344) from its 8-byte record (Table 8-3); `v` is the free value of this output. A SHIFT
beyond 46 has no stated result. [DEDUCED: notes/assumptions/45.md] -/
def epilogue (out : Nat) (act infOk : Bool) (rec : List Byte) (v : Nat) : Acc → Nat
  | .int i =>
    let bias := signed 32 (leNat (rec.take 4))
    let mult := leNat ((rec.drop 4).take 2)
    let shift := leNat ((rec.drop 6).take 1)
    if 46 < shift then v % 256
    else
      let x := rneShift ((i + bias) * (mult : Int)) shift
      let x := if act ∧ x < 0 then 0 else x
      unsigned 8 (clampInt (-128) 127 x)
  | .flt x =>
    let bias := numOf 3 (leNat (rec.take 2))
    let scale := numOf 3 (leNat ((rec.drop 2).take 2))
    let s := x.add bias
    let fin := fun (y : Fnum) =>
      if act then (let r := y.relu; if r = .fin 0 0 then 0 else codeOf out infOk v r) else codeOf out infOk v y
    settle (v / 2) (fin ((s.wide.mul scale).wide)) (fin ((s.mul scale).wide))

/-! ## Vector operations (R387) -/

/-- 2^x for x = m × 2^e with |x| below 2^12, as a number with at least 64 correct bits: powers of 2^(1/2), 2^(1/4) and so on
are replaced by the series of e^(f ln 2) at scale 2^-192. -/
def expSeries : Nat → Int → Nat → Int → Int
  | 0, _, _, acc => acc
  | n + 1, f, k, t =>
    let t' := t * f / ((2 ^ 192 : Nat) : Int) / (k : Int)
    t + expSeries n f (k + 1) t'

/-- ln 2 at scale 2^-192. -/
def ln2 : Int := 4350955369971217654477563090224794165364344896676135745069

/-- 2^x as a number: the integer part goes to the exponent. -/
def pow2Num (m e : Int) : Fnum :=
  let x : Int := if e < 0 then m * ((2 ^ 192 : Nat) : Int) / ((2 ^ (-e).toNat : Nat) : Int) else m * ((2 ^ (e.toNat + 192) : Nat) : Int)
  let ip := x / ((2 ^ 192 : Nat) : Int)
  let fr := x - ip * ((2 ^ 192 : Nat) : Int)
  .fin (expSeries 60 (fr * ln2 / ((2 ^ 192 : Nat) : Int)) 1 ((2 ^ 192 : Nat) : Int)) (ip - 192)

/-- A finite number's magnitude is at least 2^k. -/
def big (k : Int) (m e : Int) : Bool := decide (k < e + (bitLen m.natAbs : Nat))

/-- 1 / x with a sticky last bit, for x not 0. -/
def recipNum (m e : Int) : Fnum :=
  let n := bitLen m.natAbs + 100
  let q := 2 ^ n / m.natAbs
  let q := 2 * q + (if 2 ^ n % m.natAbs = 0 then 0 else 1)
  .fin (m.sign * (q : Int)) (-e - (n : Int) - 1)

/-- 1 / sqrt(x) with a sticky last bit, for x above 0. -/
def rsqrtNum (m e : Int) : Fnum :=
  let odd := e % 2 != 0
  let m := if odd then 2 * m.natAbs else m.natAbs
  let e := if odd then e - 1 else e
  let n := bitLen m + 200
  let n := n + n % 2
  let q := Nat.sqrt (2 ^ n / m)
  .fin ((2 * q + 1 : Nat) : Int) (-(e / 2) - (n / 2 : Nat) - 1)

/-- SIGMOID, EXP, RCP or RSQRT (ops 7 to 10) of a number, close to the exact value; an infinity propagates as the limit (R375), which is
NaN for RSQRT of the negative one; none where the spec states no result.
[DEDUCED: notes/assumptions/45.md] -/
def vecFun (op : Nat) : Fnum → Option Fnum
  | .fin m e =>
    if op = 8 then some (if big 11 m e then (if m < 0 then .fin 1 (-100000) else .fin 1 100000) else pow2Num m e)
    else if op = 9 then (if m = 0 then none else some (recipNum m e))
    else if op = 10 then (if m ≤ 0 then none else some (rsqrtNum m e))
    else
      -- SIGMOID: 1 / (1 + 2^(-x / ln 2))
      some (if big 11 m e then (if m < 0 then .fin 1 (-100000) else .fin 1 0)
        else
          let x : Int := if e < 0 then -m * ((2 ^ 192 : Nat) : Int) / ((2 ^ (-e).toNat : Nat) : Int) else -m * ((2 ^ (e.toNat + 192) : Nat) : Int)
          match (Fnum.fin 1 0).add (pow2Num (x * ((2 ^ 192 : Nat) : Int) / ln2) (-192)) with
          | .fin a b => recipNum a b
          | .inf _ => .fin 0 0
          | .nan => .nan)
  | .inf neg =>
    if op = 8 then some (if neg then .fin 1 (-100000) else .inf false)
    else if op = 9 then some (.fin (if neg then -1 else 1) (-100000))
    else if op = 10 then some (if neg then .nan else .fin 1 (-100000))
    else some (if neg then .fin 1 (-100000) else .fin 1 0)
  | .nan => some .nan

/-- A neighbour of a code in its format: 0 the code, 1 the next magnitude up, 2 the next down; for an integer code the next
integers. [DEDUCED: notes/assumptions/45.md] -/
def neighbour (c v code : Nat) : Nat :=
  let d := v % 3
  if fmtIsFloat c then
    let f := floatFmt c
    let s := code / 2 ^ (f.man + f.exp) * 2 ^ (f.man + f.exp)
    let m := code % 2 ^ (f.man + f.exp)
    if f.maxCode < m then code
    else if d = 1 then (if m < f.maxCode then s + m + 1 else code)
    else if d = 2 then (if 0 < m then s + m - 1 else if s = 0 then 2 ^ (f.man + f.exp) + 1 else 1)
    else code
  else
    let w := 8 * fmtBytes c
    let i := if c = 6 then (code : Int) else signed w code
    unsigned w (satInt c (if d = 1 then i + 1 else if d = 2 then i - 1 else i))

/-- A VEC result of ops 0 to 10 on codes `a` and `b` (R387): exact for integers, one rounding for floats; `v` is the free
value of this element. [DEDUCED: notes/assumptions/45.md] -/
def vecOp (op fa fb fd : Nat) (infOk : Bool) (v a b : Nat) : Nat :=
  let x := numOf fa a
  let y := numOf fb b
  let flt := fmtIsFloat fa || (Nat.ble op 4 && fmtIsFloat fb)
  let out := fun (r : Fnum) => if flt then settle (v / 2) (codeOf fd infOk v r) (codeOf fd infOk v r.wide) else codeOf fd infOk v r
  let isNan := x == .nan || y == .nan
  if op = 0 then out (x.add y)
  else if op = 1 then out (x.add y.neg)
  else if op = 2 then out (x.mul y)
  else if op = 3 then out (if isNan then .nan else if x.lt y then y else x)
  else if op = 4 then out (if isNan then .nan else if y.lt x then y else x)
  else if op = 5 then out x
  else if op = 6 then (let r := x.relu; if r = .fin 0 0 then 0 else out r)
  else match vecFun op x with
    | some r => if r = .nan then codeOf fd infOk v r else neighbour fd (v / 2) (codeOf fd infOk v r)
    | none => v % 2 ^ (8 * fmtBytes fd)

/-- A REDUCE of a row (R387): SUM exact and saturating to INT32 for integers. A float sum is rounded once to FMT_D; how the wide accumulator
takes the elements is not stated: exactly, one by one from either end, or 32 a cycle; where these differ the choice is free. [DEDUCED: notes/assumptions/45.md] -/
def reduceRow (op fa fd : Nat) (infOk : Bool) (v : Nat) (row : List Nat) : Nat :=
  let xs := row.map (numOf fa)
  if op = 0 then
    let s := xs.foldl Fnum.add (.fin 0 0)
    if !fmtIsFloat fa then codeOf fd infOk v (match s with | .fin m e => .fin (satSigned 32 (m * ((2 ^ e.toNat : Nat) : Int))) 0 | .inf a => .inf a | .nan => .nan)
    else
      let one := fun (l : List Fnum) => l.foldl (fun (a x : Fnum) => (a.add x).wide) (.fin 0 0)
      let ones := List.replicate xs.length (Fnum.fin 1 0)
      let reads := [s, one xs, one xs.reverse, accumulate 32 (ceilDiv xs.length 32) (.fin 0 0) xs ones]
      codeOf fd infOk v (reads.getD (v / 2 % 4) s)
  else if xs.any (· == .nan) then codeOf fd infOk v .nan
  else match xs with
    | [] => v % 2 ^ (8 * fmtBytes fd)
    | x :: t => codeOf fd infOk v (t.foldl (fun (m y : Fnum) => if op = 1 then (if m.lt y then y else m) else (if y.lt m then y else m)) x)

/-- REQUANT of an INT32 value by a record of Table 8-3 without its BIAS (R387). [DEDUCED: notes/assumptions/45.md] -/
def requant (act : Bool) (rec : List Byte) (v a : Nat) : Nat :=
  epilogue 0 act false (leBytes 4 0 ++ (rec.drop 4).take 4) v (.int (signed 32 a))

/-- bf16(dx² + dy² + dz²) of two INT16 triples (MINDIST, R387). -/
def distBf16 (a b : List Byte) : Nat :=
  let g := fun (l : List Byte) (k : Nat) => signed 16 (leNat ((l.drop (2 * k)).take 2))
  let d := fun (k : Nat) => (g a k - g b k) * (g a k - g b k)
  codeOf 3 false 0 (.fin (d 0 + d 1 + d 2) 0)

end Sys2Proof.Machine
end

