-- ==== Sys2Proof/Machine/Crc.lean ====
section
/-! DEFINITION. CRC-8, CRC-16 and CRC-32 as R850 gives them. -/

namespace Sys2Proof.Machine

/-- The bits of a byte, most significant first. -/
def bitsMsb (b : Byte) : List Bool := (List.range 8).map (fun i => bitOf b.toNat (7 - i))

/-- The bits of a number over `n` bits, bit n-1 first. -/
def natBitsMsb (n v : Nat) : List Bool := (List.range n).map (fun i => bitOf v (n - 1 - i))

/-- The bits of a number over `n` bits, bit 0 first. -/
def natBitsLsb (n v : Nat) : List Bool := (List.range n).map (fun i => bitOf v i)

/-- One input bit of a non-reflected CRC of `width` bits. -/
def crcStep (width poly reg : Nat) (b : Bool) : Nat :=
  let sh := (reg * 2) % 2 ^ width
  if bitOf reg (width - 1) != b then sh ^^^ poly else sh

/-- A CRC over bits in the order given. -/
def crcBits (width poly init : Nat) (bs : List Bool) : Nat := bs.foldl (crcStep width poly) init

/-- A CRC over bytes in ascending offset. -/
def crcBytes (width poly init : Nat) (bs : List Byte) : Nat := bs.foldl (fun r b => crcBits width poly r (bitsMsb b)) init

/-- CRC-16, polynomial 0x1021, initial value 0xFFFF. -/
def crc16 (bs : List Byte) : Nat := crcBytes 16 0x1021 0xFFFF bs

/-- One byte of the reflected CRC-32 of IEEE 802.3, bit by bit. -/
def crc32Bits : Nat → Nat → Nat
  | 0, r => r
  | n + 1, r => crc32Bits n (if r % 2 = 1 then (r / 2) ^^^ 0xEDB88320 else r / 2)

/-- CRC-32 with the IEEE 802.3 polynomial. -/
def crc32 (bs : List Byte) : Nat := (bs.foldl (fun r b => crc32Bits 8 (r ^^^ b.toNat)) 0xFFFFFFFF) ^^^ 0xFFFFFFFF

end Sys2Proof.Machine
end

