-- ==== Sys2Proof/Machine/Encoding.lean ====
section
/-! DEFINITION. Undefined encodings (R57): for each register with such values, the lowest bit of a field that holds
one, and the write rule that discards the write whole. -/

namespace Sys2Proof.Machine

/-- The field at hi:lo holds a value outside least..most. -/
def outside (v : Word) (hi lo least most : Nat) : Option Nat :=
  if getBits v hi lo < least ∨ most < getBits v hi lo then some lo else none

/-- A signed field outside its bounds. -/
def outsideS (v : Word) (hi lo : Nat) (least most : Int) : Option Nat :=
  let x := signed (hi + 1 - lo) (getBits v hi lo)
  if x < least ∨ most < x then some lo else none

/-- The field that ERR_INFO names: one that holds an undefined value. Where several do the spec does not say which: a free value of the
value written (DESIGN CHOICE, notes/assumptions/10.md). -/
def anyBad (v : Word) (l : List (Option Nat)) : Option Nat :=
  match l.filterMap id with
  | [] => none
  | [x] => some x
  | x :: t => some ((x :: t).getD (Config.freeAt v.toNat 0x7F00 % (x :: t).length) x)

/-- The downlink types that software may send (Table 5-12). -/
def softwareType (t : Nat) : Bool :=
  (Nat.ble 1 t && Nat.ble t 4) || t == 0x12 || t == 0x20 || (Nat.ble 0x40 t && Nat.ble t 0x7F)

/-- A field value outside a set. -/
def notIn (v : Word) (hi lo : Nat) (ok : Nat → Bool) : Option Nat := if ok (getBits v hi lo) then none else some lo

/-- Registers of a Sensor Link lane (Tables 4-12 to 4-15, 5-15); `sub` is the page of the lane. -/
def badSlk (sub off : Nat) (v : Word) : Option Nat :=
  if sub = 0 then (if off = 0x40 then outside v 1 0 0 2 else none)
  else if sub = 1 then
    if off = 0x48 then outside v 7 0 0 160
    else if off = 0x54 then anyBad v [outside v 5 0 1 31, outside v 13 8 17 63]
    else if off = 0x58 then anyBad v [outside v 4 0 4 28, outside v 10 8 0 4]
    else none
  else if sub = 2 then
    if off = 0x40 then
      anyBad v [outside v 3 0 1 8, outside v 7 4 1 8, if 32 < getBits v 3 0 * getBits v 7 4 then some 0 else none,
        if 32 < getBits v 3 0 * getBits v 7 4 then some 4 else none]
    else none
  else
    if off = 0x4C then outside v 23 16 1 254
    else if off = 0x58 then notIn v 7 0 softwareType
    else none

/-- Zone entries (Table 4-16, R209): `o` is the offset in the entry. -/
def badZone (o : Nat) (v : Word) : Option Nat :=
  if o = 0 then outside v 7 0 0 160
  else if o = 0x14 then outside v 19 16 0 9
  else if o = 0x18 then anyBad v [outside v 3 0 3 8, outside v 7 4 3 8, outside v 11 8 2 7, outside v 15 12 6 13]
  else if o = 0x1C then
    anyBad v [outside v 4 0 6 14, outside v 9 5 8 16, outside v 14 10 10 18, outside v 19 15 4 10, outside v 24 20 9 18,
      outside v 29 25 8 16]
  else none

/-- Persistent registers (R209, Tables 5-16, 16-9, 18-8, 18-9). -/
def badPsv (p off : Nat) (v : Word) : Option Nat :=
  if Nat.blt p 0x208 then (if Nat.blt off 0xE0 then badZone ((off - 0x40) % 0x20) v else none)
  else if Nat.blt p 0x210 then (if off = 0x64 then outside v 7 0 0 128 else none)
  else if p = 0x210 then (if off = 0x44 then outside v 17 0 1 199999 else none)
  else if p = 0x218 then
    if off = 0x44 then anyBad v [outside v 11 8 2 8, outside v 31 16 100 10000]
    else if off = 0x48 then anyBad v ((List.range 4).map (fun m => outside v (2 * m + 1) (2 * m) 0 2))
    else none
  else none

/-- Registers of the other pages. -/
def badOther (p off : Nat) (v : Word) : Option Nat :=
  if p = 0x010 then (if off = 0x40 then outside v 5 4 0 1 else none)
  else if p = 0x011 then (if off = 0x64 then anyBad v [outside v 7 4 1 8, outside v 31 16 100 65535] else none)
  else if p = 0x040 then
    if off = 0x40 then anyBad v [outside v 1 0 0 2, outside v 7 4 0 8]
    else if off = 0x44 then anyBad v [outsideS v 15 0 (-4096) 4095, outsideS v 31 16 (-4096) 4095]
    else if off = 0x48 then outsideS v 15 0 (-512) 511
    else none
  else if Nat.ble 0x0C0 p && Nat.blt p 0x0D0 then
    (if p % 2 == 0 && off == 0x54 then outside v 15 8 1 255 else none)
  else if p = 0x0D0 then (if off = 0x40 then anyBad v [outside v 3 0 0 8, outside v 11 8 1 15] else none)
  else if p = 0x0D1 then (if off = 0x40 then outside v 3 0 0 6 else none)
  else if p = 0x0D2 then
    (if off = 0x40 then anyBad v [outside v 7 1 1 127, outside v 15 12 1 15, outside v 31 16 100 65535] else none)
  else if Nat.ble 0x0F0 p && Nat.blt p 0x100 then
    if p % 2 = 0 then
      if off = 0x40 then (if Nat.blt p 0xFC then none else notIn v 2 0 (· != 6))
      else if off = 0x48 then outside v 15 0 10 65535
      else none
    else if off = 0x54 then anyBad v [outside v 15 0 1 65535, outside v 31 16 1 65535]
    else none
  else if p = 0x131 then (if off = 0x4C then outside v 2 0 1 6 else none)
  else if p = 0x134 then (if off = 0x4C then outside v 2 1 1 3 else none)
  else if p = 0x150 then
    if off = 0x48 then outside v 10 0 350 1400
    else if off = 0x64 then anyBad v [outside v 7 0 1 255, outside v 15 8 1 255, outside v 31 16 1 32768]
    else none
  else if p = 0x151 then
    (if off = 0x40 ∨ off = 0x44 ∨ off = 0x48 then outside v 10 0 350 1400 else none)
  else if p = 0x160 then (if off = 0x58 ∧ getBits v 1 0 = 3 then anyBad v [some 0, some 1] else none)
  else if p = 0x162 then
    (if off = 0x40 then outside v 7 0 0 0x0E else none)
  else none

/-- Functions that GPIO_FUNC_A and GPIO_FUNC_B would give the pins if the register at `off` took `v`. -/
def State.funcsAfter (s : State) (off : Nat) (v : Word) : List Nat :=
  let a := if off = 0x40 then v.toNat else (s.cell R.GLB_GPIO_FUNC_A).toNat
  let b := if off = 0x44 then v.toNat else (s.cell R.GLB_GPIO_FUNC_B).toNat
  (List.range 8).map (fun g => natBits a (4 * g + 3) (4 * g)) ++ (List.range 8).map (fun g => natBits b (4 * g + 3) (4 * g))

/-- A function other than GENERAL stands on more than one pin, or a code has no function (R816, Table 20-6): the field of
a pin written that breaks the rule. -/
def State.badGpioFunc (s : State) (off : Nat) (v : Word) : Option Nat :=
  let fs := s.funcsAfter off v
  let base := if off = 0x40 then 0 else 8
  anyBad v ((List.range 8).map (fun g =>
    let f := fs.getD (base + g) 0
    if f ≠ 0 ∧ (5 < f ∨ 1 < (fs.filter (· == f)).length) then some (4 * g) else none))

/-- FUNC_CTX_n would take in context 0 or a context of another function (R563). -/
def State.badFuncCtx (s : State) (n : Nat) (v : Word) : Option Nat :=
  let b := getBits v 11 0
  let k := getBits v 19 12
  let clash := (List.range 64).any (fun m =>
    let b0 := s.fld (F.HIF_FUNC_CTX_CTX_BASE m)
    let k0 := s.fld (F.HIF_FUNC_CTX_CTX_COUNT m)
    m != 0 && m != n && k0 != 0 && k != 0 && Nat.blt b (b0 + k0) && Nat.blt b0 (b + k))
  if k ≠ 0 ∧ (b = 0 ∨ clash = true) then anyBad v [some 0, if b = 0 then none else some 12] else none

/-- Window word `i` at page `p` would make BASE plus WIN_SIZE exceed 2^48 (Table 13-11). -/
def State.badWindow (s : State) (p i : Nat) (v : Word) : Option Nat :=
  let n := p - 0x102
  let k := i / 4
  let word := fun (j : Nat) (x : Word) => if i % 4 = j then v else x
  let lo := word 0 (s.cell (R.HIF_WIN_LO n k))
  let hi := word 1 (s.cell (R.HIF_WIN_HI n k))
  let size := word 2 (s.cell (R.HIF_WIN_SIZE n k))
  if 2 ^ 48 < getBits lo 31 12 * 2 ^ 12 + getBits hi 15 0 * 2 ^ 32 + size.toNat * 4096 then some (if i % 4 = 0 then 12 else 0) else none

/-- A coordinate of NODE_CFG lies outside its dimension (R557). -/
def badNodeCfg (v : Word) : Option Nat :=
  anyBad v (((List.range 3).filter (fun i => Nat.blt (getBits v (5 * i + 19) (5 * i + 15)) (getBits v (5 * i + 4) (5 * i)))).map (fun i => some (5 * i)))

/-- The box of BAR_CFG extends past its torus dimension (Table 12-11). [DESIGN CHOICE: notes/assumptions/10.md] -/
def State.badBarCfg (s : State) (v : Word) : Option Nat :=
  let d := s.cell R.GRF_NODE_CFG
  anyBad v (((List.range 3).filter (fun i =>
    Nat.blt (getBits d (5 * i + 19) (5 * i + 15)) (getBits v (5 * i + 4) (5 * i) + getBits v (5 * i + 19) (5 * i + 15)))).flatMap
    (fun i => [some (5 * i), some (5 * i + 15)]))

/-- Undefined encodings of the Graft node page, the HIF tables and the mailbox control words. -/
def State.badTables (s : State) (p off : Nat) (v : Word) : Option Nat :=
  if p = 0x0F1 ∧ off = 0x40 then badNodeCfg v
  else if p = 0x0F1 ∧ 0x180 ≤ off ∧ off < 0x1C0 then s.badBarCfg v
  else if p = 0x101 ∧ 0x48 ≤ off ∧ off < 0x240 ∧ off % 8 = 0 then s.badFuncCtx ((off - 0x40) / 8) v
  else if 0x102 ≤ p ∧ p < 0x10A ∧ 0x100 ≤ off ∧ off < 0x900 ∧ off % 16 ≠ 12 then s.badWindow p ((off - 0x100) / 4) v
  else if 0x112 ≤ p ∧ p < 0x11A ∧ 0x40 ≤ off ∧ off < 0x240 ∧ off % 16 = 0 then outside v 27 20 0 128
  else none

/-- The lowest bit of the field that makes a write an undefined encoding (R57). [DESIGN CHOICE: notes/assumptions/10.md] -/
def State.encodingBad (s : State) (p off : Nat) (v : Word) : Option Nat :=
  if off < 0x40 then (if off = 0x28 then outside v 2 0 0 4 else none)
  else if Nat.ble 0x020 p && Nat.blt p 0x040 then badSlk ((p - 0x020) % 4) off v
  else if Nat.ble 0x200 p && Nat.blt p 0x260 then badPsv p off v
  else if p = 0x002 then (if off = 0x40 ∨ off = 0x44 then s.badGpioFunc off v else none)
  else if p = 0x0C0 ∧ off = 0x50 then
    outside v 10 0 0 ((s.chanU - 2 ^ 22) / 2 ^ 22)
  else if p = 0x011 ∧ off = 0x7C then
    (if getBits v 8 8 == 1 && (!s.tilePresent (getBits v 5 0) || (s.tile (getBits v 5 0)).withdrawn) then some 0 else none)
  else match s.badTables p off v with
    | some lo => some lo
    | none => badOther p off v

end Sys2Proof.Machine
end

