-- ==== Sys2Proof/Machine/Write.lean ====
section
/-! DEFINITION. The rules that every register write passes before its own effect (spec/02_register_pages.md): discarded
accesses, the RWS rules, page locks and arbitration. -/

namespace Sys2Proof.Machine

/-- A discarded BAR 0 access: BAD_ACCESS_CNT counts it and BAD_ACCESS_LAST holds its offset and writer (R112).
[DEDUCED: notes/assumptions/14.md] -/
def State.badAccess (s : State) (p off w : Nat) : State :=
  let s := s.bump F.GLB_BAD_ACCESS_CNT_COUNT
  (s.setFld F.GLB_BAD_ACCESS_LAST_WRITER w).setFld F.GLB_BAD_ACCESS_LAST_OFFSET (p * 0x1000 + off)

/-- A write by `w` to the page was applied (R98). [DEDUCED: notes/assumptions/12.md] -/
def State.wrote (s : State) (p w : Nat) : State :=
  let h := s.page p
  s.setPage p { h with lastWriter := w }

/-- Rootstock is in ROM_RECOVERY (RST_STATUS MODE 1). -/
def State.romRecovery (s : State) : Bool := s.fld F.RST_STATUS_MODE == 1

/-- The page takes writes before FW_READY (R790, R673). -/
def State.openBeforeReady (s : State) (p : Nat) : Bool :=
  p == 0 || (Nat.ble 0x200 p && Nat.blt p 0x300) ||
    (s.romRecovery && ((Nat.ble 0x100 p && Nat.ble p 0x10B) || p == 0x130 || p == 0x131))

/-- A tile page of a fused-off tile (R6). -/
def State.fusedOffPage (s : State) (p : Nat) : Bool := Nat.ble 0x080 p && Nat.blt p 0x0C0 && !s.tilePresent (p - 0x080)

/-- The device is in SENTRY or PARKED, or enters it: CORE and FABRIC are stopped or about to be (R716, R720). -/
def State.lowPower (s : State) : Bool := Nat.ble 2 (s.fld F.PWR_STATE)

/-- A page of a block in CORE or FABRIC (Table 1-2). [DEDUCED: notes/assumptions/14.md] -/
def poweredPage (p : Nat) : Bool := Nat.ble 0x010 p && Nat.blt p 0x130

/-- The write of `w` at offset `off` of page `p` is discarded by the state of the page (R6, R58, R73, R111, R785, R790, R810):
the state that leaves; none when no such rule discards it. [DEDUCED: notes/assumptions/11.md; DEDUCED: notes/assumptions/14.md] -/
def State.portCheck (s : State) (p off w : Nat) : Option State :=
  if (pageInfo p).isNone then some (s.badAccess p off w)
  else if s.fusedOffPage p then some s
  else if s.boot.resetPending && Nat.ble 0x40 w then some s
  else if s.lowPower && poweredPage p then
    some (if w = Writer.debugger then s.error 0x134 Err.domainGated (infoOffWriter off w) else s)
  else if !s.flag F.GLB_BOOT_STATUS_FW_READY && !s.openBeforeReady p then some (s.badAccess p off w)
  else if 0x40 ≤ off ∧ (s.page (statePage p)).softReset = true then some (s.badAccess p off w)
  else if 0x40 ≤ off ∧ 0x080 ≤ p ∧ p < 0x0C0 ∧ (s.page p).cond.gated = true then
    some (s.error p Err.domainGated (infoOffWriter off w))
  else none

/-- The registers R673 opens in ROM_RECOVERY to RWS writes of the physical function in the safe state. -/
def State.rwsOpen (s : State) (p off : Nat) : Bool :=
  s.romRecovery && ((p == 0x131 && (off == 0x40 || off == 0x44 || off == 0x48 || off == 0x4C)) || (p == 0x130 && off == 0x58))

/-- An RWS write is discarded (R67, R68). -/
def State.rwsRefused (s : State) (p off w : Nat) : Bool :=
  Writer.isVf w || (w == Writer.pf && s.pstate 0x160 == St.safe && !s.rwsOpen p off)

/-- An undefined encoding in the field whose lowest bit is `lo` (R57). [DEDUCED: notes/assumptions/11.md] -/
def State.undefinedEncoding (s : State) (p off lo : Nat) : State := s.error p Err.fieldRange (infoReg off lo)

/-- A write to an RW, RW1C, RW1S or WO register: the page's checks and the encoding (R57), then the effect.
[DEDUCED: notes/assumptions/11.md] -/
def State.onWrite (s : State) (p off w : Nat) (v : Word) (f : State → State) : State :=
  match s.portCheck p off w with
  | some s' => s'
  | none => match s.encodingBad p off v with
    | some lo => s.undefinedEncoding p off lo
    | none => f s

/-- A write to an RWS register: the page's checks, the RWS rules, the encoding, then the effect. [DEDUCED: notes/assumptions/11.md] -/
def State.onRws (s : State) (p off w : Nat) (v : Word) (f : State → State) : State :=
  match s.portCheck p off w with
  | some s' => s'
  | none =>
    if s.rwsRefused p off w then s
    else match s.encodingBad p off v with
      | some lo => s.undefinedEncoding p off lo
      | none => f s

/-- A write whose fields are all RWL: the page's checks, the encoding, the lock rules (R90, R91), then the effect.
[DEDUCED: notes/assumptions/11.md] -/
def State.onRwl (s : State) (p off w : Nat) (v : Word) (f : State → State) : State :=
  match s.portCheck p off w with
  | some s' => s'
  | none => match s.encodingBad p off v with
    | some lo => s.undefinedEncoding p off lo
    | none => if lockAdmits (s.page p) w then f s else s.error p Err.lockNotHeld (infoOffWriter off w)

/-! ## Arbitration (R96, R97) -/

/-- Precedence of a writer: the least ranks first. -/
def writerRank (rws : Bool) (w : Nat) : Nat :=
  if rws then (if w = 0x01 then 0 else if w = 0x02 then 1 else if w = 0x40 then 2 else 3 + w)
  else (if w = 0x40 then 0 else if w = 0x01 then 1 else if w = 0x02 then 2 else 3 + w)

/-- Writes in order of precedence. -/
def rankInsert (rws : Bool) (x : RegWrite) : List RegWrite → List RegWrite
  | [] => [x]
  | y :: t => if writerRank rws x.writer < writerRank rws y.writer then x :: y :: t else y :: rankInsert rws x t

/-- The writes of one cycle by precedence. -/
def rankWrites (rws : Bool) (ws : List RegWrite) : List RegWrite := ws.foldr (rankInsert rws) []

/-- The losers of an arbitration, highest rank first, are recorded (R97). [DEDUCED: notes/assumptions/13.md] -/
def State.recordLosers (s : State) (p off winner : Nat) (losers : List RegWrite) : State :=
  match losers with
  | [] => s
  | l :: _ =>
    let h := s.page p
    let s := s.setPage p { h with collided := true, loser := l.writer, loserOffset := off }
    let s := losers.foldl (fun s x =>
      s.error p Err.writeCollided (word (off * 2 ^ 16 + winner * 2 ^ 8 + x.writer))) s
    (s.event p 29).noteRise (hdrKey p 0x2C) (1#32 <<< 31)

end Sys2Proof.Machine
end

