-- ==== Sys2Proof/Machine/Coverage.lean ====
section
/-! DEFINITION. The frames in flight, the frame a sector is charged to, and the coverage maps (spec/01_one_frame.md, R27 to
R39; spec/05_sensor_link_sectors.md, R229, R233; spec/06_separator_thinning.md, R284, R285). -/

namespace Sys2Proof.Machine

/-- The Frame Scheduler is RUNNING in FRAME_LOCKED: frames are paced (R75, R236). -/
def State.paced (s : State) : Bool := s.pstate 0x010 == St.running && !s.frm.freeRun

/-- FRAME_PERIOD of the active plan in AON cycles. -/
def State.periodCycles (s : State) : Nat := usCycles (s.fld F.FRM_PERIOD_US_PERIOD)

/-- The ingest drain window in AON cycles (R30). -/
def drainCycles : Nat := usCycles 250

/-- The drain window of frame `n` is open (R30). -/
def State.drainingFrame (s : State) (n : Nat) : Bool := s.frm.drainOpen && (n + 1) % 2 ^ 32 == s.frm.lastNum

/-- The frame whose drain window is the first to end after now (R233); none while frames are not paced. -/
def State.chargeFrame (s : State) : Option Nat :=
  if s.paced then
    if s.frm.drainOpen then some ((s.frm.lastNum + 2 ^ 32 - 1) % 2 ^ 32) else some s.frm.lastNum
  else none

/-- The AON cycle at which the drain window of a charged frame ends (R229). -/
def State.drainEnd (s : State) (n : Nat) : Nat :=
  if n = s.frm.lastNum then s.frm.lastTickAt + s.periodCycles + drainCycles
  else if (n + 1) % 2 ^ 32 = s.frm.lastNum then s.frm.lastTickAt + drainCycles
  else 0

/-- A frame number names a frame in flight that is not yet published: ingest, closing or compute. -/
def State.liveFrame (s : State) (n : Nat) : Option Frame :=
  [s.frm.compute, s.frm.closing, s.frm.ingest].findSome? (fun o => match o with
    | some f => if f.num = n then some f else none
    | none => none)

/-- The frame in ingest: in FREE_RUN the frame in compute while it takes its records (spec/01_one_frame.md, "Publication"; R293). -/
def State.inIngest (s : State) : Option Frame :=
  match s.frm.ingest, s.frm.compute with
  | some f, _ => some f
  | none, some f => if f.freeRun && !f.frozen then some f else none
  | none, none => none

/-- An optional frame is updated if it has the number. -/
def updIf (n : Nat) (g : Frame → Frame) : Option Frame → Option Frame
  | some f => some (if f.num = n then g f else f)
  | none => none

/-- A frame in flight is updated. -/
def State.updFrame (s : State) (n : Nat) (g : Frame → Frame) : State :=
  s.updFrm (fun r => { r with compute := updIf n g r.compute, closing := updIf n g r.closing, ingest := updIf n g r.ingest })

/-- The earliest frame whose maps are not frozen (R285). -/
def State.earliestOpen (s : State) : Option Frame :=
  [s.frm.compute, s.frm.closing, s.frm.ingest].findSome? (fun o => match o with
    | some f => if f.frozen then none else some f
    | none => none)

/-- A number enters a rising list without repeats. -/
def insertNat (a : Nat) : List Nat → List Nat
  | [] => [a]
  | b :: t => if a < b then a :: b :: t else if a = b then b :: t else b :: insertNat a t

/-- The coverage bins a span from `a` to `e` exclusive overlaps; it wraps when `e` is smaller (R284). -/
def spanBins (a e : Nat) : List Nat :=
  (List.range 1024).filter (fun b =>
    if e < a then Nat.blt a (64 * b + 64) || Nat.blt (64 * b) e else Nat.blt (64 * b) e && Nat.blt a (64 * b + 64))

/-- Bins of a lane enter a map. -/
def markBins (lane : Nat) (bins : List Nat) (m : List Nat) : List Nat :=
  bins.foldl (fun m b => insertNat (lane * 1024 + b) m) m

/-- A lost span charged to frame `n` reaches the Separator: it enters that frame's LOST map, or the map of the earliest
frame not frozen, with CARRIED (R285, R31). -/
def State.reportSpan (s : State) (n lane a e : Nat) : State :=
  let here := match s.liveFrame n with | some f => !f.frozen | none => false
  if here then s.updFrame n (fun f => { f with lost := markBins lane (spanBins a e) f.lost })
  else
    match s.earliestOpen with
    | none => s
    | some g =>
      let s := s.updFrame g.num (fun f => { f with
        lost := markBins lane (spanBins a e) f.lost, carried := setBit f.carried lane })
      (s.bump F.SEP_CARRIED_CNT).event 0x040 5

/-- A firing of frame `n` with azimuth `az` was delivered by a lane (R284). -/
def State.markSeen (s : State) (n lane az : Nat) : State :=
  match s.liveFrame n with
  | some f => if f.frozen then s else s.updFrame n (fun f => { f with seen := insertNat (lane * 1024 + az / 64) f.seen })
  | none => s

/-- The frame a firing belongs to (R29): the one that the newest tick at or before it opened; a firing before every kept
tick belongs to the frame the oldest of them closed; before tick 0 of a run that is `last`, the last number consumed (R28). -/
def frameOf : Nat → List (Nat × Nat) → Nat → Nat
  | last, [], _ => last
  | _, (m, ts) :: rest, t => if ts ≤ t then (m + 1) % 2 ^ 32 else frameOf m rest t

/-- TIMEBASE of the tick that opened frame `n` (Table 5-10, R263). -/
def State.openTick (s : State) (n : Nat) : Nat :=
  match s.frm.tickHist.find? (fun x => (x.1 + 1) % 2 ^ 32 == n) with
  | some x => x.2
  | none => 0

/-- Points of frame `n` are binned: its ingest or its drain window is open and its maps are not frozen (R29, R30). -/
def State.acceptsPoints (s : State) (n : Nat) : Bool :=
  match s.liveFrame n with
  | some f => !f.frozen && (f.freeRun || (match s.frm.ingest with | some g => g.num == n | none => false) || s.drainingFrame n)
  | none => false

/-- PWR drives lane `l` in an open sentry window, whatever its LANE_CFG (R720, R724). -/
def State.sentryLane (s : State) (l : Nat) : Bool := s.pwr.phase == 1 && s.fld F.PWR_SENTRY_CFG_LANE == l

/-- A lane is not OFF (R284). -/
def State.laneOn (s : State) (l : Nat) : Bool := s.fld (F.SLK_LANE_CFG_MODE l) != 0 || s.sentryLane l

end Sys2Proof.Machine
end

