-- ==== Sys2Proof/Machine/Ldpc.lean ====
section
/-! DEFINITION. The scrambler and the LDPC code of a sector (spec/04_sensor_link_channel.md, R171, R191 to R193, R196): block
vectors of 512 bits as numbers, position r in bit r. -/

namespace Sys2Proof.Machine

/-- The next window of fifteen scrambler bits: bit i of `w` is s_(t+i), and s_(t+15) is s_(t+1) XOR s_t (R171). -/
def scrNext (w : Nat) : Nat := w / 2 + 2 ^ 14 * ((w / 2 % 2) ^^^ (w % 2))

/-- `n` scrambler bits from a window, and the window after them. -/
def scrBits : Nat → Nat → Nat × Nat
  | 0, w => (0, w)
  | n + 1, w =>
    let r := scrBits n (scrNext w)
    (w % 2 + 2 * r.1, r.2)

/-- The scrambler bits of `n` blocks. -/
def scrBlocks : Nat → Nat → List Nat
  | 0, _ => []
  | n + 1, w =>
    let r := scrBits 512 w
    r.1 :: scrBlocks n r.2

/-- Line bits descrambled, block by block (R171, R196). -/
def descramble (line : List Nat) : List Nat := (line.zip (scrBlocks 36 0x7FFF)).map (fun x => (x.1 % 2 ^ 512) ^^^ x.2)

/-- P^s v: position r takes position r + s modulo 512 (R192, R193). -/
def rotBlock (s v : Nat) : Nat := v % 2 ^ 512 / 2 ^ (s % 512) + 2 ^ (512 - s % 512) * (v % 2 ^ (s % 512))

/-- The shift of the base matrix at row i and block column j; none for the zero block (R191). -/
def baseShift (i j : Nat) : Option Nat :=
  if j < 32 then (if i = j % 4 then none else some ((2 * i + 1) * (4 * j + 1) % 512))
  else if j = 32 then (if i = 0 ∨ i = 3 then some 1 else if i = 2 then some 0 else none)
  else if j = 33 then (if i = 0 ∨ i = 1 then some 0 else none)
  else if j = 34 then (if i = 1 ∨ i = 2 then some 0 else none)
  else if i = 2 ∨ i = 3 then some 0
  else none

/-- The checks of row i over the blocks of a codeword, from block column j. -/
def rowCheck (i : Nat) : Nat → List Nat → Nat
  | _, [] => 0
  | j, v :: t =>
    let r := rowCheck i (j + 1) t
    match baseShift i j with
    | some s => rotBlock s v ^^^ r
    | none => r

/-- The unsatisfied checks of a codeword of 36 blocks (R191, R196). -/
def unsatisfied (cw : List Nat) : Nat := ((List.range 4).map (fun i => popCount 512 (rowCheck i 0 cw))).foldl (· + ·) 0

/-- The parity blocks of 32 information blocks (R193). -/
def parityBlocks (u : List Nat) : List Nat :=
  let lam := fun i => rowCheck i 0 u
  let p32 := lam 0 ^^^ lam 1 ^^^ lam 2 ^^^ lam 3
  let p33 := lam 0 ^^^ rotBlock 1 p32
  let p34 := lam 1 ^^^ p33
  [p32, p33, p34, lam 2 ^^^ p32 ^^^ p34]

/-- The 2,048 user bytes of a codeword: bit m of byte k is codeword bit 8k + m (R192). -/
def userBytes (cw : List Nat) : List Byte := (cw.take 32).flatMap (fun v => leBytes 64 v)

end Sys2Proof.Machine
end

