-- ==== Sys2Proof/Machine/Channel.lean ====
section
/-! DEFINITION. The signal path of a Sensor Link lane, symbol by symbol (spec/04_sensor_link_channel.md, R170 to R190): asymmetry
correction, digital gain, defects, the equalizer, the tentative detector, the adaptive loops and their freeze rules, and the capture of
fragment bodies (R186, R225). [DEDUCED: notes/assumptions/79.md] -/

namespace Sys2Proof.Machine

/-- num / den, at one of its two neighbours where it is no integer; `k` names the rounding. [DESIGN CHOICE: notes/assumptions/79.md] -/
def roundAt (k : Nat) (num : Int) (den : Nat) : Int :=
  if num % (den : Int) = 0 then num / (den : Int) else num / (den : Int) + (b2n (Config.roundUp k num den) : Nat)

/-! ## The channel's parameters -/

/-- The registers that the channel works by, as they stand when its symbols arrive (Tables 4-12 to 4-15), and the state of the
sector timing. -/
structure ChanEnv where
  inputSel : Bool := false
  polarity : Bool := false
  acq : Bool := false
  track : Bool := false
  inGap : Bool := false
  hold : Nat := 0
  target : Nat := 12
  drop : Nat := 8
  surge : Nat := 32
  pad : Nat := 16
  decCfg : Nat := 0
  deriving DecidableEq, Repr

/-- The target polynomial G0 to G4, each 6-bit signed in units of 1/8 (R188). -/
def targetOf (w : Nat) : List Int := (List.range 5).map (fun k => signed 6 (natBits w (6 * k + 5) (6 * k)))

/-- A gain exponent of acquisition: 4 bits each, GAIN, OFF, KP, KI from bit 0 (ZLOOP_A). -/
def acqK (w i : Nat) : Nat := natBits w (4 * i + 3) (4 * i)

/-- A gain exponent of tracking: 5 bits each, GAIN, OFF, ASYM, KP, KI, LMS from bit 0 (ZLOOP_B). -/
def trackK (w i : Nat) : Nat := natBits w (5 * i + 4) (5 * i)

/-! ## Front end (R172, Table 4-4) -/

/-- A raw sample at full scale (R186). -/
def atFullScale (x : Int) : Bool := x == 31 || x == -32

/-- v: x after asymmetry correction x - ASYM x² / 2,048 and digital gain DGAIN / 256, 8-bit signed (R172). -/
def Loops.correct (l : Loops) (x : Int) : Int :=
  let fa := Config.loopFrac 2
  let fd := Config.loopFrac 0
  satSigned 8 (roundAt 0 (l.dgain * (x * ((2048 * 2 ^ fa : Nat) : Int) - l.asym * x * x)) (2048 * 2 ^ fa * 256 * 2 ^ fd))

/-! ## Defects (R180, R181) -/

/-- A window of 16 symbols is defective: its mean |v| is below DROP_THR / 32 or above SURGE_THR / 16 of AGC_TARGET, or four of its
samples are at full scale (R180). -/
def windowBad (target drop surge : Nat) (w : List (Int × Int)) : Bool :=
  let sum := (w.map (fun p => p.2.natAbs)).foldl (· + ·) 0
  Nat.blt (2 * sum) (drop * target) || Nat.blt (surge * target) sum || Nat.ble 4 (w.filter (fun p => atFullScale p.1)).length

/-- Which symbols of a sequence of (x, v) are defective, from those after the first `before` symbols' windows: a symbol is when a window
of 16 that holds it is (R180). `run` is how many further symbols the last bad window reaches. -/
def defective (target drop surge : Nat) : Nat → List (Int × Int) → List Bool
  | _, [] => []
  | run, p :: t =>
    let w := (p :: t).take 16
    let run := if w.length = 16 && windowBad target drop surge w then 16 else run
    (run != 0) :: defective target drop surge (run - 1) t

/-- Marks extended by `pad` to the right (R181). -/
def padRight (pad : Nat) : Nat → List Bool → List Bool
  | _, [] => []
  | run, b :: t =>
    let run := if b then pad + 1 else run
    (run != 0) :: padRight pad (run - 1) t

/-- The defect regions of a sequence as marks: defective symbols extended by DEF_PAD at each end (R181). -/
def regionMarks (target drop surge pad : Nat) (l : List (Int × Int)) : List Bool :=
  (padRight pad 0 (padRight pad 0 (defective target drop surge 0 l)).reverse).reverse

/-! ## Equalizer and targets (R187, R188) -/

/-- y: the taps, in 1/16 with 8 further fraction bits, over the ten values `zs` = z(t + CURSOR) to z(t + CURSOR - 9), saturated
(R187). -/
def equalize (taps : List Int) (zs : List Int) : Int :=
  let sum := ((taps.zip zs).map (fun p => p.1 * p.2)).foldl (· + ·) 0
  clampInt (-127) 127 (roundAt 1 sum 4096)

/-- The ideal equalized value for line bits `w`: bit k is a(t - k), 16 × Σ G_k a(t - k) with G in 1/8 (R188). -/
def ideal (g : List Int) (w : Nat) : Int :=
  2 * ((List.range 5).map (fun k => g.getD k 0 * (if bitOf w k then 1 else -1))).foldl (· + ·) 0

/-- The line bits as `ideal` takes them, newest first. -/
def bitsNat : List Bool → Nat
  | [] => 0
  | b :: t => b2n b + 2 * bitsNat t

/-! ## The tentative detector (R178): 16-state Viterbi, decision delay 12 -/

/-- One of two path costs, and whether it is the second. -/
def pick (a b : Int) : Bool := if a < b then false else if b < a then true else Config.tieBit 0

/-- The state of least cost. -/
def bestState : Nat → List Int → Nat × Int
  | i, [] => (i, 0)
  | i, [m] => (i, m)
  | i, m :: t =>
    let r := bestState (i + 1) t
    if pick m r.2 then r else (i, m)

/-- One symbol of the tentative detector: new metrics, survivors (as bits, newest lowest) and the decision 12 symbols back. -/
def viterbi (g : List Int) (y : Int) (metrics : List Int) (paths : List Nat) : List Int × List Nat × Bool :=
  let cost := fun (w : Nat) => (y - ideal g w) * (y - ideal g w)
  let step := (List.range 16).map (fun n =>
    let a := metrics.getD (n / 2) 0 + cost n
    let b := metrics.getD (n / 2 + 8) 0 + cost (n + 16)
    let up := pick a b
    ((if up then b else a), ((paths.getD (n / 2 + 8 * b2n up) 0) * 2 + n % 2) % 2 ^ 16))
  let best := bestState 0 (step.map (·.1))
  (step.map (fun p => p.1 - best.2), step.map (·.2), bitOf ((step.map (·.2)).getD best.1 0) 12)

/-! ## The adaptive loops (R178, Table 4-7) -/

/-- An update of a loop's internal value by num / den of its register's unit, clamped. -/
def loopStep (k : Nat) (v num : Int) (den : Nat) (lo hi : Int) : Int :=
  let u : Int := ((2 ^ Config.loopFrac k : Nat) : Int)
  clampInt (lo * u) (hi * u) (v + roundAt (2 + k) (num * u) den)

/-- The gain law: dgain - 2^-k dgain (|v| - AGC_TARGET) / AGC_TARGET. -/
def Loops.gain (l : Loops) (k target : Nat) (v : Int) : Loops :=
  let u : Int := ((2 ^ Config.loopFrac 0 : Nat) : Int)
  let d := l.dgain - roundAt 2 (l.dgain * ((v.natAbs : Int) - target)) (2 ^ k * target)
  { l with dgain := clampInt (128 * u) (512 * u) d }

/-- The offset law: offset - 2^-k (sum of x over the last 16 symbols) / 16. -/
def Loops.off (l : Loops) (k : Nat) (sum : Int) : Loops := { l with offset := loopStep 1 l.offset (-sum) (2 ^ k * 16) (-128) 127 }

/-- The asymmetry law: asym + 2^-k e x² / 2,048. -/
def Loops.skew (l : Loops) (k : Nat) (e x : Int) : Loops := { l with asym := loopStep 2 l.asym (e * x * x) (2 ^ k * 2048) (-32) 31 }

/-- The timing law for the timing error m, the frequency clamped to ±500 ppm. -/
def Loops.time (l : Loops) (kp ki : Nat) (m : Int) : Loops :=
  let u : Int := ((2 ^ Config.loopFrac 3 : Nat) : Int)
  let b : Int := Config.freqBound
  let f := clampInt (-b) b (l.freq + roundAt 5 (m * u) (2 ^ ki))
  { l with freq := f, phase := l.phase + roundAt 6 (m * u) (2 ^ kp) + f }

/-- The phase advances by the frequency alone (R179). -/
def Loops.coast (l : Loops) : Loops := { l with phase := l.phase + l.freq }

/-- The LMS law: f[k] - 2^-kl e z(t + CURSOR - k). -/
def Loops.lms (l : Loops) (kl : Nat) (e : Int) (zs : List Int) : Loops :=
  { l with taps := (l.taps.zip zs).map (fun p => satSigned 16 (p.1 - roundAt 7 (256 * e * p.2) (2 ^ kl))) }

/-- What the loops see of one symbol: its x and v, its error e and timing error m, its ten equalizer inputs, and the sum of x where the
offset is due. -/
structure LoopIn where
  x : Int
  v : Int
  e : Int
  m : Int
  zs : List Int
  due : Option Int
  deriving DecidableEq, Repr

/-- One symbol of the loops by the freeze rules (Tables 4-6 to 4-8): `held` in an invalid window, an index field or a defect region and
before the loops start, `t` in tracking, `body` in a fragment body. Register bits of LOOP_HOLD hold their loops. -/
def Loops.adapt (l : Loops) (e : ChanEnv) (held t body : Bool) (i : LoopIn) : Loops :=
  if held then l.coast
  else
    let kg := if t then trackK l.trackGains 0 else acqK l.acqGains 0
    let ko := if t then trackK l.trackGains 1 else acqK l.acqGains 1
    let kp := if t then trackK l.trackGains 3 else acqK l.acqGains 2
    let ki := if t then trackK l.trackGains 4 else acqK l.acqGains 3
    let a := if bitOf e.hold 0 then l else l.gain kg e.target i.v
    let a := match i.due with | some sum => if bitOf e.hold 1 then a else a.off ko sum | none => a
    let a := if bitOf e.hold 2 || !t then a else a.skew (trackK l.trackGains 2) i.e i.x
    let a := if bitOf e.hold 3 then a.coast else a.time kp ki i.m
    if bitOf e.hold 4 || !t || !body then a else a.lms (trackK l.trackGains 5) i.e i.zs

/-! ## One symbol (R170 to R187) -/

/-- Fill symbol number `i`: 1, 1, 0, 0 repeated (R169). -/
def fillBit (i : Nat) : Bool := Nat.blt (i % 4) 2

/-- The number of the symbol that the newest equalized value belongs to. -/
def Chan.capNo (c : Chan) : Nat := c.n - 1 - c.loops.cursor

/-- The number of the symbol that the newest tentative decision belongs to. -/
def Chan.decNo (c : Chan) : Nat := c.n - 1 - c.loops.cursor - 12

/-- How many symbols the loops run behind the newest: a window of 16 after DEF_PAD symbols at its longest, so that whether a symbol lies in a
defect region is known when its update is made (R179 to R181). [DESIGN CHOICE: notes/assumptions/79.md] -/
def loopLag : Nat := 78

/-- The symbol `loopLag` behind the newest of `raws` lies in a defect region: within DEF_PAD symbols of a bad window (R180, R181). -/
def inDefect (pad : Nat) (raws : List Raw) : Bool := ((raws.drop (loopLag - 15 - pad)).take (16 + 2 * pad)).any (fun r => r.bad)

/-- What the loops see of the symbol they have come to, from the last symbols, equalized values and decisions: known fill in acquisition and
fill (`aid`), tentative decisions in a fragment (R178, R179). -/
def Chan.loopIn (c : Chan) (raws : List Raw) (caps : List Cap) (dec : List Bool) (g : List Int) (aid : Bool) (due : Bool) : LoopIn :=
  let r := raws.getD loopLag {}
  let k := loopLag - c.loops.cursor
  let known := fun (j : Nat) => bitsNat ((List.range 5).map (fun i => fillBit (c.n + r.fill + 18 - j - i)))
  let d0 := ideal g (if aid then known 0 else bitsNat ((dec.drop (k - 12)).take 5))
  let d1 := ideal g (if aid then known 1 else bitsNat ((dec.drop (k - 11)).take 5))
  let y0 := (caps.getD k {}).y
  let y1 := (caps.getD (k + 1) {}).y
  { x := r.x, v := r.v, e := y0 - d0, m := y0 * d1 - y1 * d0, zs := ((raws.drop k).take 10).map (·.z)
    due := if due then some (((raws.drop loopLag).take 16).map (·.x) |>.foldl (· + ·) 0) else none }

/-- A symbol `x`, `z` passes the channel, and the loops take the symbol `loopLag` before it: `body` says that that one lies in a fragment
body, `fill` that it lies in no fragment. -/
def Chan.step (e : ChanEnv) (body fill : Bool) (c : Chan) (x z : Int) : Chan :=
  let inv := c.winLeft != 0
  let v := c.loops.correct x
  let win := (x, v) :: (c.raws.take 15).map (fun r => (r.x, r.v))
  let full := (c.raws.drop 14).isEmpty == false
  -- defects (R180, R181) and the level of R203
  let bad := full && windowBad e.target e.drop e.surge win
  let sum := (win.map (fun p => p.2.natAbs)).foldl (· + ·) 0
  let low := full && Nat.blt (2 * sum) (e.drop * e.target)
  let high := full && Nat.blt (e.drop * e.target) (2 * sum)
  let raw : Raw :=
    { x := x, v := v, z := z, inv := inv, bad := bad, fill := c.fill, track := e.track
      on := !e.inGap && (e.track || (e.acq && c.acqChecked)) }
  let raws := (raw :: c.raws).take 144
  let past := match c.region with
    | some (a, b) => if b + 2 * e.pad + 16 < c.n then some (b + 1 - a + 2 * e.pad) else none
    | none => none
  let open_ := if past.isSome then none else c.region
  let region := if bad then (match open_ with | some (a, _) => some (a, c.n) | none => some (c.n - 15, c.n)) else open_
  -- equalizer and tentative detector
  let r := raws.getD c.loops.cursor {}
  let g := targetOf c.loops.target
  let y := equalize c.loops.taps (raws.map (·.z))
  let caps := ((⟨r.x, r.v, r.inv, y⟩ : Cap) :: c.caps).take 96
  let vt := viterbi g y c.metrics c.paths
  let dec := (vt.2.2 :: c.dec).take 1024
  -- the loops (R178, R179)
  let u := raws.getD loopLag { inv := true }
  let valid16 := if u.inv then c.valid16 else (c.valid16 + 1) % 16
  let i := c.loopIn raws caps dec g (!u.track || fill) (!u.inv && valid16 == 0)
  let held := u.inv || !u.on || inDefect e.pad raws
  let counts := e.acq && !inv
  { c with
    n := c.n + 1
    winLeft := c.winLeft - 1
    acqValid := if counts then c.acqValid + 1 else c.acqValid
    acqSum := if counts && Nat.blt c.acqValid 16 then c.acqSum + v.natAbs else c.acqSum
    sinceStep := c.sinceStep + 1
    loops := c.loops.adapt e held u.track body i
    raws := raws
    caps := caps
    valid16 := valid16
    metrics := vt.1
    paths := vt.2.1
    dec := dec
    e2 := if u.track && !held then (i.e.natAbs * i.e.natAbs :: c.e2).take 4096 else c.e2
    region := region
    regions := match past with | some k => c.regions ++ [k] | none => c.regions
    lowRun := if low then c.lowRun + 1 else 0
    highRun := if high then c.highRun + 1 else 0 }

/-- The symbols that the loops have not come to yet change nothing any more: those before a zone load or a gain step. -/
def Chan.flush (c : Chan) : Chan := { c with raws := c.raws.map (fun r => { r with on := false }) }

/-! ## Capture (R186, R216, R221, R225) -/

/-- The first codeword symbol of a fragment, by the number of its first header symbol: 192 header symbols precede it (R216). -/
def Frag.bodyFirst (f : Frag) : Nat := f.first + 192

/-- The symbol number `t` lies in a fragment, and in its body: of the one in progress, or of the one whose body ended last. -/
def Lane.inFrag (l : Lane) (t : Nat) : Bool :=
  (match l.frag with | some f => Nat.ble f.first t | none => false) || (Nat.ble l.ended.1 t && Nat.blt t l.ended.2)

def Lane.inBody (l : Lane) (t : Nat) : Bool :=
  (match l.frag with
    | some f => Nat.ble f.bodyFirst t && (f.sector.isNone || Nat.blt t (f.bodyFirst + f.body.len))
    | none => false)
    || (Nat.ble (l.ended.1 + 192) t && Nat.blt t l.ended.2)

/-- Symbols captured before and after a body: the longest DEF_PAD and a window of 16 (R180, R181). -/
def bodyMargin : Nat := 78

/-- The lane's digital state as the snapshot of a body (R225). -/
def Body.start (b : Body) (e : ChanEnv) (c : Chan) : Body := { b with loops := c.loops, decCfg := e.decCfg }

/-- The body of the fragment has been received: its sector goes on to decode, with DEC_CFG as it stands (R202, R221), or waits for its
second fragment. Further symbols are captured (R181, R225). -/
def Lane.bodyDone (l : Lane) (f : Frag) (decCfg : Nat) : Lane :=
  match f.sector with
  | none => l
  | some x =>
    let x := { x with bodies := x.bodies ++ [f.body] }
    let l := { l with ended := (f.first, f.bodyFirst + f.body.len) }
    if x.split && !f.second then { l with frag := none, open1 := l.open1 ++ [x], tail := bodyMargin, tailOpen := true }
    else
      { l with frag := none, decoding := l.decoding ++ [{ x with decCfg := decCfg }], tail := bodyMargin, tailOpen := false }

/-- A captured symbol enters the body captured last. -/
def Sector.addCap (x : Sector) (p : Cap) : Sector :=
  let bs := match x.bodies.reverse with
    | b :: t => (({ b with caps := p :: b.caps } : Body) :: t).reverse
    | [] => []
  { x with bodies := bs }

/-- The same for the newest of some sectors. -/
def addLast (l : List Sector) (p : Cap) : List Sector := match l.reverse with | x :: r => (x.addCap p :: r).reverse | [] => []

/-- The symbol at the equalizer is captured: into the body of the fragment in progress, from `bodyMargin` symbols before it, or after the
body captured last. -/
def Lane.capture (l : Lane) (e : ChanEnv) : Lane :=
  let p := l.ch.caps.getD 0 {}
  let t := l.ch.capNo
  let l := if l.tail = 0 then l
    else if l.tailOpen then { l with tail := l.tail - 1, open1 := addLast l.open1 p }
    else { l with tail := l.tail - 1, decoding := addLast l.decoding p }
  match l.frag with
  | none => l
  | some f =>
    if t + bodyMargin < f.bodyFirst then l
    else
      let b := if t = f.bodyFirst then f.body.start e l.ch else f.body
      let f := { f with body := { b with caps := p :: b.caps } }
      let l := { l with frag := some f }
      if f.sector.isSome && t + 1 == f.bodyFirst + f.body.len then l.bodyDone f e.decCfg else l

/-- The header of the fragment in progress has been read: `f` holds its sector and BODY_LEN. What was captured beyond the body and the
symbols after it is dropped, and a body that is complete goes on at once. -/
def Lane.headerRead (l : Lane) (f : Frag) (decCfg : Nat) : Lane :=
  let extra := f.body.caps.length - (bodyMargin + f.body.len)
  if f.body.caps.length < bodyMargin + f.body.len then { l with frag := some f }
  else
    let keep := min bodyMargin extra
    let l := l.bodyDone { f with body := { f.body with caps := f.body.caps.drop (extra - keep) } } decCfg
    { l with tail := bodyMargin - keep }

/-- The symbol of a pair whose two wires change places: a negative level is 1 (R168). The 6-bit code is mirrored, so that full scale stays full
scale. [DESIGN CHOICE: notes/assumptions/79.md] -/
def turned (s : Sample) : Sample := { s with x := -1 - s.x, z := -s.z }

/-- A symbol arrives at a lane: from its own pair or that of lane n XOR 1 (R164), with the POLARITY that LANE_CFG gives it. -/
def Lane.symbol (e : ChanEnv) (l : Lane) (r : RxSym) : Lane :=
  let s := if e.inputSel then r.other else r.own
  let s := if e.polarity then turned s else s
  let t := l.ch.n - loopLag
  Lane.capture { l with ch := l.ch.step e (l.inBody t) (!l.inFrag t) s.x s.z } e

/-- A sample-store byte: x in bits 5:0, INVALID in bit 6, CLIP in bit 7 (R186). -/
def Cap.byte (p : Cap) : Byte := BitVec.ofNat 8 (unsigned 6 p.x + 64 * b2n p.inv + 128 * b2n (atFullScale p.x))

/-- The symbols of a body that the sample store holds, oldest first: its own, 32 before and 32 after (R225). -/
def Body.kept (b : Body) : List Cap := (b.caps.reverse.drop (bodyMargin - 32)).take (64 + b.len)

/-- The bytes of a body in the sample store, oldest first (R186, R225). -/
def Body.stored (b : Body) : List Byte := b.kept.map Cap.byte

/-! ## Marks in the tentative decisions (R170, R201, R211) -/

/-- The newest decisions, from `back` symbols ago, differ from a 32-symbol mark, sent bit 31 first, in at most `tol` symbols. -/
def markMatches (dec : List Bool) (back mark tol : Nat) : Bool :=
  let w := (dec.drop back).take 32
  w.length == 32 && Nat.ble ((w.zip (List.range 32)).filter (fun p => p.1 != bitOf mark p.2)).length tol

/-- `n` decisions that end `back` symbols ago, as a number whose most significant bit is the oldest. -/
def decBits (dec : List Bool) (back n : Nat) : Nat := bitsNat ((dec.drop back).take n)

end Sys2Proof.Machine
end

