-- ==== Sys2Proof/Machine/Decoder.lean ====
section
/-! DEFINITION. Detection and decoding of a sector (spec/04_sensor_link_channel.md, R171, R184, R188 to R196; spec/05_sensor_link_sectors.md,
R227, Table 5-8): the max-log-MAP detector, layered normalized min-sum, their iteration, and a re-decode from the sample store.
[DEDUCED: notes/assumptions/80.md] -/

namespace Sys2Proof.Machine

/-! ## The detector (R184, R188 to R190) -/

/-- A codeword symbol as the detector takes it: the equalized value, whether it is erased, and the a priori LLR of its line bit. -/
structure DetIn where
  y : Int
  erased : Bool
  la : Int
  deriving DecidableEq, Repr

/-- The cost of a transition `w` (bit k is a(t - k)), in units of 1 / (2 MSE): W (y - ŷ)² with W = 1 / (2σ²) and σ² = MSE / 16, and the a
priori LLR of bit 1; 0 from an erased sample (R184, R189). -/
def DetIn.cost (g : List Int) (mse : Nat) (i : DetIn) (w : Nat) : Int :=
  (if i.erased then 0 else 16 * ((i.y - ideal g w) * (i.y - ideal g w))) + (if bitOf w 0 then mse * i.la else 0)

/-- State costs after a symbol; state bits 0 to 3 are a(t) to a(t - 3). -/
def forward (cost : Nat → Int) (al : List Int) : List Int :=
  (List.range 16).map (fun n => min (al.getD (n / 2) 0 + cost n) (al.getD (n / 2 + 8) 0 + cost (n + 16)))

/-- State costs before a symbol, from those after it. -/
def backward (cost : Nat → Int) (be : List Int) : List Int :=
  (List.range 16).map (fun p =>
    min (be.getD (2 * p % 16) 0 + cost (2 * p % 16 + 16 * (p / 8))) (be.getD (2 * p % 16 + 1) 0 + cost (2 * p % 16 + 1 + 16 * (p / 8))))

/-- The least of the path costs, by state before the symbol, for the line bit `b`. -/
def leastPath (cost : Nat → Int) (al be : List Int) (b : Nat) : Int :=
  let path := fun (p : Nat) => al.getD p 0 + cost (2 * p % 16 + b + 16 * (p / 8)) + be.getD (2 * p % 16 + b) 0
  ((List.range 15).map (fun p => path (p + 1))).foldl min (path 0)

/-- An LLR of the interface: 6-bit signed, -31 to 31 (R190). -/
def llr6 (i : Int) : Int := clampInt (-31) 31 i

/-- The extrinsic LLR in units of 0.5: a posteriori less a priori (R189, R190). -/
def extrinsic (mse : Nat) (diff la : Int) : Int :=
  if mse = 0 then llr6 (Config.llrAtZeroMse diff) else llr6 (roundAt 8 (diff - mse * la) mse)

/-- The detector over one fragment, equal state costs at both ends: the state costs before the first symbol, and the LLRs of its line
bits; 0 at an erased position (R184, R189). -/
def detectFrom (g : List Int) (mse : Nat) (al : List Int) : List DetIn → List Int × List Int
  | [] => (List.replicate 16 0, [])
  | i :: t =>
    let cost := i.cost g mse
    let r := detectFrom g mse (forward cost al) t
    let l := if i.erased then 0 else extrinsic mse (leastPath cost al r.1 1 - leastPath cost al r.1 0) i.la
    (backward cost r.1, l :: r.2)

/-- The detector over one fragment. -/
def detect (g : List Int) (mse : Nat) (l : List DetIn) : List Int := (detectFrom g mse (List.replicate 16 0) l).2

/-! ## Layered normalized min-sum (R194) -/

/-- The scale of a check message in eighths, by NORM (Table 4-15). -/
def normEighths (norm : Nat) : Nat := 5 + norm

/-- The block columns of base row i with their shifts (R191). -/
def rowCols (i : Nat) : List (Nat × Nat) := (List.range 36).filterMap (fun j => (baseShift i j).map (fun s => (j, s)))

/-- Position r takes position r + s modulo 512 (R192), and back. -/
def rotList (s : Nat) (v : List Int) : List Int := v.drop s ++ v.take s
def unrotList (s : Nat) (v : List Int) : List Int := v.drop (512 - s) ++ v.take (512 - s)

/-- What a check knows of its inputs: the parity of their signs, the least magnitude and the next. -/
structure CheckStat where
  odd : Bool := false
  least : Option Nat := none
  next : Option Nat := none
  deriving DecidableEq, Repr

/-- One further input. -/
def CheckStat.add (c : CheckStat) (q : Int) : CheckStat :=
  let a := q.natAbs
  let odd := c.odd != decide (q < 0)
  match c.least with
  | none => { odd := odd, least := some a, next := none }
  | some m =>
    if a < m then { odd := odd, least := some a, next := some m }
    else { odd := odd, least := some m, next := some (match c.next with | some k => min k a | none => a) }

/-- The message of a check to the bit whose input was `q`: the sign of the others, the least of the others' magnitudes, scaled. -/
def CheckStat.message (c : CheckStat) (norm : Nat) (q : Int) : Int :=
  let m := if c.least = some q.natAbs then c.next else c.least
  let v := roundAt 9 (((m.getD 0) * norm : Nat) : Int) 8
  if c.odd != decide (q < 0) then -v else v

/-- One layer: the bits' values `l` by block column and the row's earlier messages `r`, in the order of its columns. -/
def layer (norm i : Nat) (l : List (List Int)) (r : List (List Int)) : List (List Int) × List (List Int) :=
  let cols := rowCols i
  let qs := (cols.zip r).map (fun c => List.zipWith (· - ·) (rotList c.1.2 (l.getD c.1.1 [])) c.2)
  let stats := qs.foldl (fun a q => List.zipWith CheckStat.add a q) (List.replicate 512 ({} : CheckStat))
  let ms := qs.map (fun q => List.zipWith (fun c x => c.message norm x) stats q)
  let out := (cols.zip (qs.zip ms)).foldl
    (fun (a : List (List Int)) c => a.set c.1.1 (unrotList c.1.2 (List.zipWith (· + ·) c.2.1 c.2.2))) l
  (out, ms)

/-- One local iteration: the four layers in the order 0 to 3 (R194). -/
def localPass (norm : Nat) (l : List (List Int)) (r : List (List (List Int))) : List (List Int) × List (List (List Int)) :=
  (r.zip (List.range 4)).foldl (fun a x =>
    let o := layer norm x.2 a.1 x.1
    (o.1, a.2 ++ [o.2])) (l, [])

/-- No message yet. -/
def noMessages : List (List (List Int)) := (List.range 4).map (fun i => (rowCols i).map (fun _ => List.replicate 512 0))

/-- The hard decision on a value: a positive one favours bit 0 (R190). -/
def hardBit (v : Int) : Bool := if v = 0 then Config.tieBit 1 else decide (v < 0)

/-- The hard decisions of 36 blocks as block vectors. -/
def hardBlocks (l : List (List Int)) : List Nat := l.map (fun b => bitsNat (b.map hardBit))

/-! ## Iteration (R195) -/

/-- DEC_CFG as a decode uses it, or a ladder step's own (Tables 4-15, 5-8). -/
structure DecRun where
  globals : Nat := 8
  locals : Nat := 4
  norm : Nat := 1
  early : Bool := true
  deriving DecidableEq, Repr

/-- DEC_CFG as sampled (R202). -/
def decRun (w : Nat) : DecRun := { globals := natBits w 3 0, locals := natBits w 7 4, norm := natBits w 9 8, early := bitOf w 12 }

/-- A decode's end: the hard decisions on the codeword, the unsatisfied checks, the global iterations run, the local ones of the last
global one, and the local ones of all (R196). -/
structure DecOut where
  cw : List Nat := []
  unsat : Nat := 0
  globals : Nat := 0
  locals : Nat := 0
  total : Nat := 0
  deriving DecidableEq, Repr

/-- Local iterations on the detector's LLRs, until the syndrome is zero if EARLY_STOP is 1: the bits' values and how many were run. -/
def localLoop (c : DecRun) : Nat → List (List Int) → List (List (List Int)) → List (List Int) × Nat
  | 0, l, _ => (l, 0)
  | k + 1, l, r =>
    let o := localPass (normEighths c.norm) l r
    if c.early && unsatisfied (hardBlocks o.1) == 0 then (o.1, 1)
    else
      let t := localLoop c k o.1 o.2
      (t.1, t.2 + 1)

/-- Values in blocks of 512, and back. -/
def blocksOf (k : Nat) (l : List Int) : List (List Int) := (List.range k).map (fun i => (l.drop (512 * i)).take 512)

/-- The scrambler's bits of a codeword (R171). -/
def scrambler : List Bool := (scrBlocks 36 0x7FFF).flatMap (natBitsLsb 512)

/-- LLRs with the sign of every bit with s_t = 1 inverted (R171). -/
def flipScrambled (l : List Int) : List Int := List.zipWith (fun b v => if b then -v else v) scrambler l

/-- The detector's run over a sector's fragments, with the a priori LLRs of its line bits: the LLRs of the line bits. -/
def detectAll (g : List Int) (mse : Nat) : List (List (Int × Bool)) → List Int → List Int
  | [], _ => []
  | f :: t, la =>
    detect g mse (List.zipWith (fun p a => { y := p.1, erased := p.2, la := a }) f la) ++ detectAll g mse t (la.drop f.length)

/-- The global iterations that remain (R195), from the a priori LLRs: `frags` holds y and erasure of each fragment's codeword symbols. -/
def globalLoop (c : DecRun) (g : List Int) (mse : Nat) (frags : List (List (Int × Bool))) : Nat → List Int → DecOut → DecOut
  | 0, _, o => o
  | k + 1, la, o =>
    let ext := flipScrambled (detectAll g mse frags la)
    let unit : Int := ((2 ^ Config.decFrac : Nat) : Int)
    let inp := blocksOf 36 (ext.map (· * unit))
    let r := localLoop c c.locals inp noMessages
    let cw := hardBlocks r.1
    let o : DecOut := { cw := cw, unsat := unsatisfied cw, globals := o.globals + 1, locals := r.2, total := o.total + r.2 }
    if c.early && o.unsat == 0 then o
    else
      let back := (List.zipWith (· - ·) r.1.flatten inp.flatten).map (fun v => llr6 (roundAt 10 v (2 ^ Config.decFrac)))
      globalLoop c g mse frags k (flipScrambled back) o

/-- A decode (R195): the a priori LLRs begin at 0. -/
def decodeFrags (c : DecRun) (g : List Int) (mse : Nat) (frags : List (List (Int × Bool))) : DecOut :=
  globalLoop c g mse frags c.globals (List.replicate 18432 0) {}

/-! ## A body's codeword symbols (R180, R181, R184) -/

/-- The codeword symbols among the captured ones, oldest first: `before` symbols precede them. -/
def Body.symbols {α : Type} (b : Body) (before : Nat) (l : List α) : List α := (l.drop before).take b.len

/-- Equalized values and erasures of a body's codeword symbols: INVALID or in a defect region. -/
def Body.frag (b : Body) (target drop surge pad : Nat) : List (Int × Bool) :=
  let caps := b.caps.reverse
  let marks := regionMarks target drop surge pad (caps.map (fun p => (p.x, p.v)))
  b.symbols bodyMargin ((caps.zip marks).map (fun p => (p.1.y, p.1.inv || p.2)))

/-- The erased symbols of fragments (Table 4-14). -/
def erasedCount (frags : List (List (Int × Bool))) : Nat := (frags.flatten.filter (·.2)).length

/-! ## Re-decode from the sample store (R186, R227, Table 5-8) -/

/-- The steps whose changes a step `k` applies: its own and those of the enabled steps before it (R227). -/
def ladderSteps (steps k : Nat) : List Nat := [1, 2, 3, 4, 5, 6].filter (fun j => j == k || (Nat.blt j k && bitOf steps (j - 1)))

/-- GLOBAL × LOCAL and NORM of a step (Table 5-8); EARLY_STOP as in the snapshot. -/
def ladderRun (steps k decCfg : Nat) : DecRun :=
  let c := decRun decCfg
  { c with
    globals := if k < 5 then 16 else 24
    locals := 4
    norm := if (ladderSteps steps k).contains 5 then 0 else c.norm }

/-- A body passes the channel's digital steps again, from its stored bytes and the equalizer inputs `z` of this pass, with the loops as
given: the lane tracks throughout (R186). Invalid symbols after them let the loops come to the last stored one; they make no window
defective. -/
def Body.rerun (b : Body) (e : ChanEnv) (l : Loops) (z : List Int) : Chan × List Cap :=
  let step := fun (e : ChanEnv) (c : Chan) (k : Nat) (inv : Bool) (x z : Int) =>
    let body := Nat.ble (32 + loopLag) k && Nat.blt k (32 + loopLag + b.len)
    ({ c with winLeft := b2n inv } : Chan).step e body false x z
  let xs := b.stored
  let run := (xs.zip (List.range xs.length)).foldl (fun (a : Chan × List Cap) p =>
    let c := step e a.1 p.2 (bitOf p.1.toNat 6) (signed 6 p.1.toNat) (z.getD p.2 0)
    (c, c.caps.getD 0 ({} : Cap) :: a.2)) (({ loops := l } : Chan), [])
  let quiet := { e with drop := 0, surge := 2 ^ 20 }
  ((List.range loopLag).foldl (fun c k => step quiet c (xs.length + k) true 0 0) run.1, run.2)

/-- The captured symbols of a re-decode, oldest first, aligned to the stored ones: a value leaves the equalizer CURSOR symbols late. -/
def alignCaps (cursor : Nat) (caps : List Cap) : List Cap := caps.reverse.drop cursor ++ List.replicate cursor ({} : Cap)

/-- The loops that a step starts a body with (Table 5-8): FIR retrained by two LMS passes with tracking k_LMS - 2, timing with
acquisition gains, ASYM re-estimated. [DEDUCED: notes/assumptions/80.md] -/
def Body.ladderLoops (b : Body) (e : ChanEnv) (steps : List Nat) (z : List Int) : Loops :=
  let l := b.loops
  let l := if steps.contains 4 then
    let u : Int := ((2 ^ Config.loopFrac 2 : Nat) : Int)
    { l with asym := clampInt (-32) 31 (Config.asymEstimate (b.kept.map (·.x))) * u } else l
  let l := if steps.contains 3 then
    let kp := acqK l.acqGains 2
    let ki := acqK l.acqGains 3
    let w := l.trackGains
    { l with trackGains := w - natBits w 24 15 * 2 ^ 15 + (kp + 32 * ki) * 2 ^ 15 } else l
  if steps.contains 2 then
    let w := l.trackGains
    let kl := trackK w 5
    let t := { l with trackGains := w % 2 ^ 25 + (kl - 2) * 2 ^ 25 }
    let t1 := { l with taps := (b.rerun e t z).1.loops.taps, trackGains := t.trackGains }
    { l with taps := (b.rerun e t1 z).1.loops.taps }
  else l

/-- One body of a ladder step: y and erasures of its codeword symbols. Step 5 erases samples with CLIP = 1; step 6 doubles DROP_THR and
DEF_PAD within their ranges. -/
def Body.ladderFrag (b : Body) (e : ChanEnv) (steps : List Nat) (z : List Int) : List (Int × Bool) :=
  let drop := if steps.contains 6 then min 31 (2 * e.drop) else e.drop
  let pad := if steps.contains 6 then min 63 (2 * e.pad) else e.pad
  let caps := alignCaps b.loops.cursor (b.rerun { e with drop := drop, pad := pad } (b.ladderLoops e steps z) z).2
  let bytes := b.stored
  let marks := regionMarks e.target drop e.surge pad (caps.map (fun p => (p.x, p.v)))
  b.symbols 32 ((caps.zip (marks.zip bytes)).map (fun p =>
    (p.1.y, bitOf p.2.2.toNat 6 || p.2.1 || (steps.contains 5 && bitOf p.2.2.toNat 7))))

/-- A ladder step on a sector (R227): the decode of its stored samples with the step's changes; `z` holds the equalizer inputs of each
body in this pass. -/
def Sector.ladderDecode (x : Sector) (e : ChanEnv) (mse enabled : Nat) (z : List (List Int)) : DecOut :=
  let steps := ladderSteps enabled x.step
  let b := x.bodies.headD {}
  let frags := (x.bodies.zip (List.range x.bodies.length)).map (fun p => p.1.ladderFrag e steps (z.getD p.2 []))
  decodeFrags (ladderRun enabled x.step b.decCfg) (targetOf b.loops.target) mse frags

end Sys2Proof.Machine
end

