-- ==== Sys2Proof/Machine/Lane.lean ====
section
/-! DEFINITION. A Sensor Link lane: zone loads, invalid windows, acquisition, loss of signal, and the loss of sectors
(spec/04_sensor_link_channel.md; spec/05_sensor_link_sectors.md, R225, R226, R232, R233). -/

namespace Sys2Proof.Machine

/-- A lane nothing has changed. -/
def laneDefault (_ : Nat) : Lane := {}

/-- Lane `n`. -/
def State.lane (s : State) (n : Nat) : Lane := Sparse.get laneDefault s.slk.lanes n

/-- Lane `n` is updated. -/
def State.updLane (s : State) (n : Nat) (f : Lane → Lane) : State :=
  s.updSlk (fun k => { k with lanes := Sparse.set laneDefault k.lanes n (f (Sparse.get laneDefault k.lanes n)) })

/-- The control, AFE, decoder and downlink pages of lane `n` (R207, R256). -/
def ctlPage (n : Nat) : Nat := 0x020 + 4 * n
def afePage (n : Nat) : Nat := 0x021 + 4 * n
def decPage (n : Nat) : Nat := 0x022 + 4 * n
def dlPage (n : Nat) : Nat := 0x023 + 4 * n

/-- The receive PHY of lane `n` as a shared resource (Table 20-5). -/
def phyRes (n : Nat) : Nat := 0x4000 + n

/-- MODE is ROTARY. -/
def State.rotary (s : State) (n : Nat) : Bool := s.fld (F.SLK_LANE_CFG_MODE n) == 1

/-- The zone that LANE_CFG names (Table 4-1). -/
def State.cfgZone (s : State) (n : Nat) : Nat := if s.rotary n then s.fld (F.SLK_LANE_CFG_RING n) else 4

/-- Symbols per AON cycle of a zone (Table 4-1); the lane takes binary NRZ symbols at that rate (R168). -/
def symbolsPerCycle (z : Nat) : Nat := [4, 8, 12, 16, 16].getD z 16

/-- AON cycles that `k` symbols take, rounded up. -/
def symCycles (z k : Nat) : Nat := ceilDiv k (symbolsPerCycle z)

/-- Sectors per revolution of a ring (Table 4-1). -/
def sectorsPerRev (ring : Nat) : Nat := 24 * (ring + 1)

/-- The lane's channel works: enabled, with a mode and its receive PHY. -/
def State.laneRuns (s : State) (n : Nat) : Bool := (s.page (ctlPage n)).cond.running && s.laneOn n

/-- The lane captures: it reads RUNNING, so it is neither PAUSED (R252) nor DRAINING, and has no loss of signal (R203). -/
def State.captures (s : State) (n : Nat) : Bool :=
  s.pstate (ctlPage n) == St.running && s.laneOn n && !s.flag (F.SLK_LANE_STATUS_LOS n)

/-! ## Invalid windows and acquisition (R177, R182, R183, R199) -/

/-- `k` symbols become invalid from the next on; an open window ends at whichever end is later (R182, R183). -/
def State.openWindow (s : State) (n k : Nat) : State :=
  if s.laneRuns n then
    (s.updLane n (fun l => { l with ch := { l.ch with winLeft := max k l.ch.winLeft } })).setFld (F.SLK_LANE_STATUS_INVALID n) 1
  else s

/-- The acquisition schedule begins at its first row (R177, R199). A schedule that restarts may take its gain step again: whether it is
still the same acquisition (R173) is not stated. The phase at which the fill pattern arrives is a free value.
[DESIGN CHOICE: notes/assumptions/79.md] -/
def State.startAcq (s : State) (n : Nat) : State :=
  let s := (s.updLane n (fun l => { l with
    ch := { l.ch with acqValid := 0, acqSum := 0, acqChecked := false, fill := s.freeVal % 4 } })).drawFree
  (s.setFld (F.SLK_LANE_STATUS_ACQ n) 1).setFld (F.SLK_LANE_STATUS_TRACK n) 0

/-- A change that falls inside acquisition restarts its schedule (R199). -/
def State.restartAcq (s : State) (n : Nat) : State :=
  if s.flag (F.SLK_LANE_STATUS_ACQ n) then s.startAcq n else s

/-- A gain step to `code` (R173, Table 4-9). [DEDUCED: notes/assumptions/36.md] -/
def State.gainStep (s : State) (n code : Nat) : State :=
  let s := (s.setFld (F.SLK_AFE_LIVE_VGA_CODE n) code).bump (F.SLK_ANALOG_STEP_CNT n)
  (s.event (afePage n) 1).openWindow n 32

/-- A CTF change (R173, Table 4-9). -/
def State.ctfChange (s : State) (n fc boost : Nat) : State :=
  ((s.setFld (F.SLK_CTF_LIVE_FC n) fc).setFld (F.SLK_CTF_LIVE_BOOST n) boost).openWindow n 64

/-! ## Zone loads (R174, R175) -/

/-- A register of the zone entry `z` of lane `n` (Table 4-16). -/
def zoneReg (n z off : Nat) : Nat := (0x200 + n) * 0x1000 + 0x40 + 0x20 * z + off

/-- The values that a zone load takes from the words of an entry (Table 4-16), with DGAIN 256 and timing frequency 0 (R174). -/
def entryLoops (afe target fa fb fc la lb : Nat) : Loops :=
  { dgain := 256 * ((2 ^ Config.loopFrac 0 : Nat) : Int)
    offset := signed 8 (natBits afe 15 8) * ((2 ^ Config.loopFrac 1 : Nat) : Int)
    asym := signed 6 (natBits afe 21 16) * ((2 ^ Config.loopFrac 2 : Nat) : Int)
    taps := (List.range 10).map (fun k => 256 * signed 8 (natBits ([fa, fb, fc].getD (k / 4) 0) (k % 4 * 8 + 7) (k % 4 * 8)))
    cursor := natBits fc 19 16
    target := natBits target 29 0
    acqGains := natBits la 15 0
    trackGains := natBits lb 29 0 }

/-- The loops as the entry of zone `z` gives them. -/
def State.zoneLoops (s : State) (n z : Nat) : Loops :=
  let w := fun off => (s.cell (zoneReg n z off)).toNat
  entryLoops (w 0) (w 8) (w 0xC) (w 0x10) (w 0x14) (w 0x18) (w 0x1C)

/-- Sector timing is no longer ready, the servo goes to OFF, and the lane searches again (R213, R248, R253). -/
def State.dropTiming (s : State) (n : Nat) : State :=
  let s := s.updLane n (fun l => { l with
    idxTs := [], idxLast := none, idxRun := 0, idxMiss := 0, acc := 0, lockRun := 0, unlockRun := 0, hit1 := false,
    got1 := false, secNow := none, secondOpen := false, hit2 := false, splitLost := none })
  ((s.setFld (F.SLK_TIMING_READY n) 0).setFld (F.SLK_SERVO_STATUS_STATE n) 0).setFld (F.SLK_LANE_STATUS_IN_GAP n) 0

/-- A zone load from the entry of zone `z` (R174, R175, R200): front end, DGAIN, taps, target, loop gains, timing frequency 0, 256 invalid
symbols, acquisition, and the index search anew. -/
def State.zoneLoadOf (s : State) (n z : Nat) : State :=
  let s := (s.setCell (R.SLK_AFE_LIVE n) (s.cell (zoneReg n z 0))).setCell (R.SLK_CTF_LIVE n) (s.cell (zoneReg n z 4))
  let s := s.setFld (F.SLK_DGAIN_GAIN n) 256
  let s := (s.setCell (R.SLK_FIR_LIVE n 0) (s.cell (zoneReg n z 0xC))).setCell (R.SLK_FIR_LIVE n 1) (s.cell (zoneReg n z 0x10))
  let s := s.setCell (R.SLK_FIR_LIVE n 2) (s.cell (zoneReg n z 0x14))
  let s := s.setFld (F.SLK_FREQ_PPB_FREQ n) 0
  let s := s.updLane n (fun l => { l with ch := { l.ch.flush with loops := s.zoneLoops n z }, ended := (0, 0) })
  let s := (s.setFld (F.SLK_LANE_STATUS_ZONE n) z).dropTiming n
  ((s.openWindow n 256).startAcq n).event (ctlPage n) 3

/-- A zone load of the lane's zone. [DEDUCED: notes/assumptions/36.md] -/
def State.zoneLoad (s : State) (n : Nat) : State := s.zoneLoadOf n (s.cfgZone n)

/-! ## The symbols that arrive (R164, R172 to R187) -/

/-- The registers the channel of lane `n` works by. -/
def State.chanEnv (s : State) (n : Nat) : ChanEnv :=
  { inputSel := s.flag (F.SLK_LANE_CFG_INPUT_SEL n)
    polarity := s.flag (F.SLK_LANE_CFG_POLARITY n)
    acq := s.flag (F.SLK_LANE_STATUS_ACQ n)
    track := s.flag (F.SLK_LANE_STATUS_TRACK n)
    inGap := s.flag (F.SLK_LANE_STATUS_IN_GAP n)
    hold := s.fld (F.SLK_LOOP_HOLD n)
    target := s.fld (F.SLK_AGC_CFG_AGC_TARGET n)
    drop := s.fld (F.SLK_DEFECT_CFG_DROP_THR n)
    surge := s.fld (F.SLK_DEFECT_CFG_SURGE_THR n)
    pad := s.fld (F.SLK_DEFECT_CFG_DEF_PAD n)
    decCfg := (s.cell (R.SLK_DEC_CFG n)).toNat }

/-- A tap as FIR_LIVE shows it (Table 4-14). -/
def tapByte (l : Loops) (k : Nat) : Nat := unsigned 8 (satSigned 8 (roundAt 11 (l.taps.getD k 0) 256))

/-- FREQ_PPB for a frequency of the timing loop: 500 ppm where it has reached its bound (R178). [DESIGN CHOICE: notes/assumptions/79.md] -/
def freqShown (f : Int) : Int :=
  let b : Int := Config.freqBound
  if f = 0 then 0 else if b ≤ f then 500000 else if f ≤ -b then -500000 else clampInt (-499999) 499999 (Config.freqPpb f)

/-- The live registers show the values the loops have reached (R178, Tables 4-13, 4-14). [DEDUCED: notes/assumptions/79.md] -/
def State.showLoops (s : State) (n : Nat) : State :=
  let c := (s.lane n).ch
  let l := c.loops
  let at_ := fun (k : Nat) (v : Int) => roundAt (12 + k) v (2 ^ Config.loopFrac k)
  let s := s.setFld (F.SLK_DGAIN_GAIN n) (clampInt 128 512 (at_ 0 l.dgain)).toNat
  let s := s.setSfld (F.SLK_AFE_LIVE_OFFSET n) (clampInt (-128) 127 (at_ 1 l.offset))
  let s := s.setSfld (F.SLK_AFE_LIVE_ASYM n) (clampInt (-32) 31 (at_ 2 l.asym))
  let s := s.setSfld (F.SLK_FREQ_PPB_FREQ n) (freqShown l.freq)
  let four := fun (k : Nat) => word (tapByte l k + 2 ^ 8 * tapByte l (k + 1) + 2 ^ 16 * tapByte l (k + 2) + 2 ^ 24 * tapByte l (k + 3))
  let s := (s.setCell (R.SLK_FIR_LIVE n 0) (four 0)).setCell (R.SLK_FIR_LIVE n 1) (four 4)
  let s := s.setFld ⟨R.SLK_FIR_LIVE n 2, 15, 0⟩ (tapByte l 8 + 2 ^ 8 * tapByte l 9)
  if c.e2.isEmpty then s
  else s.setFld (F.SLK_MSE n) (min 65535 (roundAt 16 ((16 * c.e2.foldl (· + ·) 0 : Nat) : Int) c.e2.length).toNat)

/-- Line symbols arrive at a lane that runs (R164). A full-scale sample is counted and is the CLIP event (R208, Table 4-14): the event
occurs with the sample. [DESIGN CHOICE: notes/assumptions/79.md] -/
def State.receive (s : State) (n : Nat) : List RxSym → State
  | [] => s
  | r :: t =>
    if s.laneRuns n then
      let e := s.chanEnv n
      let clips := ((r :: t).filter (fun q => atFullScale (if e.inputSel then q.other.x else q.own.x))).length
      let s := s.updLane n (fun l => (r :: t).foldl (Lane.symbol e) l)
      let s := if clips = 0 then s else (s.bumpBy (F.SLK_CLIP_CNT n) clips).event (afePage n) 2
      s.showLoops n
    else s

/-! ## Sample-store slots (R225) -/

/-- Slots a lane holds for the sectors it receives and decodes. -/
def Lane.slots (l : Lane) : Nat :=
  (match l.frag with | some f => (match f.sector with | some x => b2n x.slot | none => b2n f.slot) | none => 0)
    + ((l.open1 ++ l.decoding).filter (fun x => x.slot)).length

/-- The sectors on the ladder, queued or on an engine. -/
def Slk.onLadder (k : Slk) : List (Nat × Sector) :=
  k.ladder ++ (match k.engine0 with | some x => [x] | none => []) ++ (match k.engine1 with | some x => [x] | none => [])

/-- The sector of a verdict that is neither delivered nor lost yet holds its slot (R225, R768). -/
def Verdict.slots : Option Verdict → Nat
  | some (.decoded x _ _) => b2n x.slot
  | some (.lost x _) => b2n x.slot
  | none => 0

/-- Slots in use across all lanes. -/
def State.slotsUsed (s : State) : Nat :=
  (s.slk.lanes.foldl (fun m x => m + x.2.slots) 0) + (s.slk.onLadder.filter (fun x => x.2.slot)).length
    + s.slk.redund.foldl (fun m r => m + Verdict.slots r.primary + Verdict.slots r.secondary) 0

/-! ## Redundant pairs (R768) -/

/-- The mode of the redundant pair `m` in force. -/
def State.pairMode (s : State) (m : Nat) : Nat := natBits (s.fld F.SAF_REDUND_STATUS_PAIRS) (2 * m + 1) (2 * m)

/-- The lane belongs to a redundant pair. -/
def State.inPair (s : State) (n : Nat) : Bool := s.pairMode (n / 2) != 0

/-- A verdict on a sector of a redundant pair is noted. -/
def State.noteVerdict (s : State) (n seq : Nat) (v : Verdict) : State :=
  let p := n / 2 * 2
  let put := fun (r : Redund) => if n = p then { r with primary := some v } else { r with secondary := some v }
  let l := s.slk.redund
  if l.any (fun r => r.lane == p && r.seq == seq) then
    s.updSlk (fun k => { k with redund := l.map (fun r => if r.lane == p && r.seq == seq then put r else r) })
  else s.updSlk (fun k => { k with redund := l ++ [put { lane := p, seq := seq }] })

/-! ## Lost sectors (R232, R233) -/

/-- The registers, the count and the record of a lost sector (R232); the frame of one that no frame is charged with has no
stated value. [DEDUCED: notes/assumptions/37.md] -/
def State.recordLost (s : State) (n cause seq : Nat) (frame : Option Nat) : State :=
  let s := (s.error (ctlPage n) 0x4001 (word (cause * 2 ^ 16 + seq))).event (ctlPage n) 4
  let s := s.bump (F.SLK_SECTOR_LOST_CNT n)
  let s := if cause = 3 then s.bump (F.SLK_SLOT_TAKEN_CNT n) else s
  let s := (s.setFld (F.SLK_LOST_LAST_CAUSE n) cause).setFld (F.SLK_LOST_LAST_SEQ n) seq
  match frame with
  | some f => s.setFld (F.SLK_LOST_LAST_FRAME n) (f % 256)
  | none => (s.setFld (F.SLK_LOST_LAST_FRAME n) (s.freeVal % 256)).drawFree

/-- A lost span is written to LOST_SPAN and reported; the secondary of a redundant pair reports none (R768).
[DEDUCED: notes/assumptions/30.md] -/
def State.lostSpan (s : State) (n a e : Nat) (frame : Option Nat) : State :=
  let s := (s.setFld (F.SLK_LOST_SPAN_AZ_START n) a).setFld (F.SLK_LOST_SPAN_AZ_END n) e
  match frame with
  | some f => if s.inPair n && n % 2 == 1 then s else s.reportSpan f n a e
  | none => s

/-- A sector is the newest of the lane's last 256 (R251). -/
def State.noteSector (s : State) (n seq : Nat) (delivered : Bool) : State :=
  s.updLane n (fun l => { l with recent := ((seq, delivered) :: l.recent).take 256 })

/-- A sector with its header is lost. -/
def State.loseNow (s : State) (n cause : Nat) (x : Sector) : State :=
  ((s.recordLost n cause x.seq x.frame).lostSpan n x.azStart x.azEnd x.frame).noteSector n x.seq false

/-- A sector's SEQ equals that of one delivered within the lane's last 256 (R251). -/
def State.isRepeat (s : State) (n : Nat) (x : Sector) : Bool := (s.lane n).recent.contains (x.seq, true)

/-- A repeated sector is discarded: counted in SECTOR_FORMAT_CNT and not charged as lost (R251). -/
def State.dropRepeat (s : State) (n : Nat) (x : Sector) : State := (s.bump (F.SLK_SECTOR_FORMAT_CNT n)).noteSector n x.seq false

/-- A sector is lost; a sector of a redundant pair's primary waits for the pair's decision (R768).
[DEDUCED: notes/assumptions/37.md] -/
def State.lose (s : State) (n cause : Nat) (x : Sector) : State :=
  if s.inPair n then
    if n % 2 = 0 then s.noteVerdict n x.seq (.lost x cause)
    else (s.noteVerdict n x.seq (.lost { x with slot := false } cause)).loseNow n cause x
  else s.loseNow n cause x

/-- A sector with its header is lost, or discarded where it repeats one that was delivered (R251). -/
def State.loseSector (s : State) (n cause : Nat) (x : Sector) : State :=
  if s.isRepeat n x then s.dropRepeat n x else s.lose n cause x

/-- The span of sector `k` on a ROTARY lane (R218). -/
def spanOf (ring k : Nat) : Nat × Nat :=
  let c := sectorsPerRev ring
  (k * 65536 / c, (k + 1) * 65536 / c % 65536)

/-- A sector without a header is lost: on a ROTARY lane its span follows from its number; on a FIXED lane it is reported at
the next delivery (R233). [DEDUCED: notes/assumptions/37.md] -/
def State.loseBare (s : State) (n cause seq : Nat) (frame : Option Nat) : State :=
  if s.rotary n then
    let ring := s.fld (F.SLK_LANE_CFG_RING n)
    let sp := spanOf ring (seq % 256 % sectorsPerRev ring)
    s.lose n cause { seq := seq, azStart := sp.1, azEnd := sp.2, frame := frame, rotary := true }
  else ((s.recordLost n cause seq frame).noteSector n seq false).updLane n (fun l => { l with fixedLost := l.fixedLost ++ [frame] })

/-- A sector whose SEQ no header told is lost: its SEQ has no stated value. -/
def State.loseUnknown (s : State) (n cause : Nat) (frame : Option Nat) : State :=
  (s.drawFree).loseBare n cause (s.freeVal % 2 ^ 16) frame

/-- The sector of a first fragment that is discarded is lost as ABANDONED. -/
def State.abandonFirst (s : State) (n : Nat) (f : Frag) : State :=
  match f.sector with
  | some x => s.loseSector n 8 x
  | none => s.loseUnknown n 8 f.frame

/-- Split sectors lose their second fragment (R221): lost as MISSING, charged at this instant (R233). -/
def State.loseOpen (s : State) (n : Nat) (xs : List Sector) : State :=
  xs.foldl (fun (s : State) x => s.loseSector n 5 { x with frame := s.chargeFrame }) s

/-- The fragment in progress is discarded: its sector is lost as ABANDONED (R185, R204, R203). A fragment that may be the second one of a
split sector is taken for that of the newest. A split sector between its fragments loses its second-fragment window, so that fragment is
missing (R221). -/
def State.abandon (s : State) (n : Nat) : State :=
  let l := s.lane n
  let s := s.updLane n (fun l => { l with frag := none, open1 := [], tail := 0 })
  match l.frag with
  | none => s.loseOpen n l.open1
  | some f =>
    match f.second, f.sector, l.open1.reverse with
    | true, none, x :: older => (s.loseOpen n older.reverse).loseSector n 8 x
    | _, _, _ => (s.loseOpen n l.open1).abandonFirst n f

/-- On entry to LOS the lane stops decoding: the fragment in progress and every sector whose decode runs are discarded (R203, Table 5-9).
[DEDUCED: notes/assumptions/37.md] -/
def State.abandonAll (s : State) (n : Nat) : State :=
  let cut := (s.lane n).decoding
  let s := s.updLane n (fun l => { l with decoding := [] })
  (cut.foldl (fun s x => s.loseSector n 8 x) s).abandon n

end Sys2Proof.Machine
end

