-- ==== Sys2Proof/Machine/Servo.lean ====
section
/-! DEFINITION. What the azimuth-lock servo of a lane works against, and its states (spec/05_sensor_link_sectors.md, R246, R248, R249;
spec/20_mode_combinations.md, R808). -/

namespace Sys2Proof.Machine

/-- The latest instant at or before `t` of the grid that TICK_PHASE_NS and the active plan's period give (R808). -/
def State.virtualTick (s : State) (t : Nat) : Option Nat :=
  let p := s.activePlan.hdr.periodUs * 1000
  if s.activeLoaded = true ∧ p ≠ 0 then
    let ph := s.fld F.FRM_TICK_PHASE_NS_PHASE
    some (t - (t + (p - ph % p)) % p)
  else none

/-- TICK_TS for an azimuth instant: the last tick at or before it, or the virtual grid while frames are not paced (R246, R808). From START to
its first tick a run has no tick, and the spec names no other: the virtual grid stands, as it does for a lane whose ENABLE is 0.
[DESIGN CHOICE: notes/assumptions/40.md] -/
def State.gridTick (s : State) (t : Nat) : Option Nat :=
  match (if s.paced then s.frm.tickHist.find? (fun x => Nat.ble x.2 t) else none) with
  | some x => some x.2
  | none => s.virtualTick t

/-- A lower lane with SERVO_CFG ENABLE reports the same HEAD_ID (R249). -/
def State.follows (s : State) (n : Nat) : Bool :=
  let id := s.fld (F.SLK_HEAD_ID_SEEN_ID n)
  id != 0 && (List.range n).any (fun m => s.flag (F.SLK_SERVO_CFG_ENABLE m) && s.fld (F.SLK_HEAD_ID_SEEN_ID m) == id)

/-- A pending SPEED_TRIM is not sent (R249). -/
def State.dropTrim (s : State) (n : Nat) : State := s.updLane n (fun l => { l with trimDue := none })

/-- The servo state of a lane as ENABLE, the sector timing, the tick grid and the HEAD_IDs give it (R248, R249, R253, R808): FOLLOW does
not ask for the lane's own ENABLE. On entry to PULL_IN acc is 0 and the runs of index fields begin (R246). [DEDUCED: notes/assumptions/40.md] -/
def State.servoEnter (s : State) (n : Nat) (grid : Bool) : State :=
  let st := s.fld (F.SLK_SERVO_STATUS_STATE n)
  if !(s.flag (F.SLK_TIMING_READY n) && grid) then s.setFld (F.SLK_SERVO_STATUS_STATE n) 0
  else if s.follows n then (s.setFld (F.SLK_SERVO_STATUS_STATE n) 3).dropTrim n
  else if !s.flag (F.SLK_SERVO_CFG_ENABLE n) then s.setFld (F.SLK_SERVO_STATUS_STATE n) 0
  else if st = 0 ∨ st = 3 then
    (s.setFld (F.SLK_SERVO_STATUS_STATE n) 1).updLane n (fun l => { l with acc := 0, lockRun := 0, unlockRun := 0 })
  else s

/-- Every ROTARY lane's servo takes the state that a changed ENABLE or HEAD_ID gives it (R248, R249). -/
def State.servoRefresh (s : State) : State :=
  (List.range 8).foldl (fun s n =>
    if s.rotary n && s.flag (F.SLK_TIMING_READY n) then s.servoEnter n (s.gridTick s.timebase).isSome else s) s

end Sys2Proof.Machine
end

