-- ==== Sys2Proof/Machine/Payload.lean ====
section
/-! DEFINITION. Fragment headers, the sector payload, and the conversion of returns to points
(spec/05_sensor_link_sectors.md, R216 to R218, R222, R223, R235, R238, R239). -/

namespace Sys2Proof.Machine

/-- A number of `n` bytes at an offset of a structure, little-endian (R10). -/
def atBytes (b : List Byte) (off n : Nat) : Nat := leNat ((b.drop off).take n)

/-! ## Fragment headers (R216, R217) -/

/-- The fields of a fragment header (Table 5-3). -/
structure FragHdr where
  azEnd : Nat
  azStart : Nat
  bodyLen : Nat
  bodyStart : Nat
  frag : Bool
  split : Bool
  seq : Nat
  deriving DecidableEq, Repr

/-- The fields of a 96-bit header. -/
def fragHdr (h : Nat) : FragHdr :=
  { azEnd := natBits h 79 64, azStart := natBits h 63 48, bodyLen := natBits h 47 33, bodyStart := natBits h 32 18,
    frag := bitOf h 17, split := bitOf h 16, seq := natBits h 15 0 }

/-- The CRC of a header checks and its fields satisfy Table 5-4, with `first` the BODY_LEN of the open first fragment. -/
def hdrValid (h : Nat) (first : Nat) : Bool :=
  let f := fragHdr h
  natBits h 95 80 == crcBits 16 0x1021 0xFFFF (natBitsMsb 80 h) &&
    (if f.split then
      if f.frag then f.bodyStart == first && f.bodyLen + f.bodyStart == 18432
      else f.bodyStart == 0 && Nat.ble 1024 f.bodyLen && Nat.ble f.bodyLen 17408
    else !f.frag && f.bodyStart == 0 && f.bodyLen == 18432)

/-- A copy whose CRC checks names a second fragment. -/
def hdrSecond (h : Nat) : Bool :=
  natBits h 95 80 == crcBits 16 0x1021 0xFFFF (natBitsMsb 80 h) && (fragHdr h).split && (fragHdr h).frag

/-- The first copy that qualifies (R217). -/
def firstHdr (copies : List Nat) (first : Nat) : Option FragHdr := (copies.find? (fun h => hdrValid h first)).map fragHdr

/-! ## Records (R222, Tables 5-6, 5-7) -/

/-- A record of a payload. -/
inductive Rec where
  | firing (beamFirst : Nat) (az el tickRef timeOff : Nat) (returns : List (Nat × Nat))
  | marker (mode switch : Nat)
  | status (ackSeq ackCode fwState temp : Nat)
  deriving DecidableEq, Repr

/-- The returns of a firing: RANGE and INTENSITY of `n` beams. -/
def returnsOf : Nat → List Byte → List (Nat × Nat)
  | 0, _ => []
  | n + 1, b => (atBytes b 0 2, atBytes b 2 1) :: returnsOf n (b.drop 3)

/-- One record at the head of `b`, at payload offset `off`, with its size; or the offset of the field that fails. -/
def oneRec (off beams : Nat) (b : List Byte) : Except Nat (Rec × Nat) :=
  let t := atBytes b 0 1
  if t = 1 then
    let n := atBytes b 2 1
    if b.length < 16 ∨ b.length < 16 + 3 * n then .error 8
    else if beams < atBytes b 1 1 + n then .error (off + 1)
    else if n < 1 ∨ 128 < n then .error (off + 2)
    else if atBytes b 3 1 ≠ 0 then .error (off + 3)
    else if atBytes b 10 2 ≠ 0 then .error (off + 10)
    else .ok (.firing (atBytes b 1 1) (atBytes b 4 2) (atBytes b 6 2) (atBytes b 8 2) (atBytes b 12 4)
      (returnsOf n (b.drop 16)), 16 + 3 * n)
  else if t = 2 then
    if b.length < 4 then .error 8
    else if 3 < atBytes b 1 1 then .error (off + 1)
    else if atBytes b 3 1 ≠ 0 then .error (off + 3)
    else .ok (.marker (atBytes b 1 1) (atBytes b 2 1), 4)
  else if t = 3 then
    if b.length < 8 then .error 8
    else if atBytes b 5 3 ≠ 0 then .error (off + 5)
    else .ok (.status (atBytes b 1 1) (atBytes b 2 1) (atBytes b 3 1) (atBytes b 4 1), 8)
  else .error off

/-- The records that fill `b`, from payload offset `off`; the fuel is a bound on their number. -/
def records (beams : Nat) : Nat → Nat → List Byte → Except Nat (List Rec)
  | 0, _, b => if b.length = 0 then .ok [] else .error 8
  | f + 1, off, b =>
    if b.length = 0 then .ok []
    else match oneRec off beams b with
      | .error e => .error e
      | .ok (r, n) =>
        match records beams f (off + n) (b.drop n) with
        | .error e => .error e
        | .ok rs => .ok (r :: rs)

/-- The checks of R223 step 2 before the records: the offset of the first field that fails (Table 18-11).
[DEDUCED: notes/assumptions/37.md] -/
def headFault (x : Sector) (b : List Byte) : Option Nat :=
  if atBytes b 0 2 ≠ x.seq then some 0
  else if atBytes b 2 1 ≠ 1 then some 2
  else if 3 < atBytes b 3 1 then some 3
  else if atBytes b 4 2 ≠ x.azStart then some 4
  else if atBytes b 6 2 ≠ x.azEnd then some 6
  else if 2012 < atBytes b 8 2 then some 8
  else none

/-- The first offset in a list of bytes, from `off`, that is not 0. [DEDUCED: notes/assumptions/37.md] -/
def nonZeroAt : Nat → List Byte → Option Nat
  | _, [] => none
  | off, b :: t => if b = 0 then nonZeroAt (off + 1) t else some off

/-- The records of a sector, or the payload offset of the field that fails (R223 step 2). [DEDUCED: notes/assumptions/37.md] -/
def payloadRecords (x : Sector) (beams : Nat) (b : List Byte) : Except Nat (List Rec) :=
  match headFault x b with
  | some e => .error e
  | none =>
    let n := atBytes b 8 2
    match records beams 512 0x20 ((b.drop 0x20).take n) with
    | .error 8 => .error 8
    | .error e => .error (if (nonZeroAt 0 ((b.drop 0x10).take 16)).isSome then 0x10 else e)
    | .ok rs =>
      if rs.length ≠ atBytes b 0xA 2 then .error 0xA
      else if (nonZeroAt 0 ((b.drop 0x10).take 16)).isSome then .error 0x10
      else match nonZeroAt (0x20 + n) ((b.drop (0x20 + n)).take (2012 - n)) with
        | some z => .error z
        | none => .ok rs

/-! ## Trigonometry: sine and cosine of an angle in 1/65,536 turn, in units of 2^-64 -/

/-- Terms of a power series: each is the last times -x²/(k(k+1)); `x2` in units of 2^-64. -/
def seriesTail : Nat → Int → Nat → Int → Int
  | 0, _, _, _ => 0
  | f + 1, x2, k, t =>
    let t' := -(t * x2) / 2 ^ 64 / (k * (k + 1) : Nat)
    t' + seriesTail f x2 (k + 2) t'

/-- An angle of less than a quarter turn, in radians times 2^64. -/
def radians (u : Nat) : Int := ((u * 57952155664616982739 / 32768 : Nat) : Int)

/-- Sine within the first quarter. -/
def sinQuarter (u : Nat) : Int := let x := radians u; x + seriesTail 14 (x * x / 2 ^ 64) 2 x

/-- Cosine within the first quarter. -/
def cosQuarter (u : Nat) : Int := let x := radians u; 2 ^ 64 + seriesTail 14 (x * x / 2 ^ 64) 1 (2 ^ 64)

/-- Sine of `u` / 65,536 turn, to about 2^-56. [DEDUCED: notes/assumptions/38.md] -/
def sinTurn (u : Nat) : Int :=
  let r := u % 16384
  match u % 65536 / 16384 with
  | 0 => sinQuarter r
  | 1 => cosQuarter r
  | 2 => -sinQuarter r
  | _ => -cosQuarter r

/-- Cosine of `u` / 65,536 turn. [DEDUCED: notes/assumptions/38.md] -/
def cosTurn (u : Nat) : Int := sinTurn (u + 16384)

/-! ## Values within one LSB of an exact one (R238, R264) -/

/-- An integer within one of the exact value num/den: which one is a free value. [DEDUCED: notes/assumptions/38.md] -/
def State.within1 (s : State) (num : Int) (den : Nat) : Int × State :=
  let lo := -(-(num - den) / (den : Int))
  let hi := (num + den) / (den : Int)
  (lo + ((s.freeVal % (hi - lo + 1).toNat : Nat) : Int), s.drawFree)

/-- round(num/den); which neighbour a tie takes is a free value. [DEDUCED: notes/assumptions/38.md] -/
def State.roundOf (s : State) (num : Int) (den : Nat) : Int × State :=
  let fl := num / (den : Int)
  let r := 2 * (num - fl * den)
  if r < den then (fl, s) else if (den : Int) < r then (fl + 1, s) else (fl + ((s.freeVal % 2 : Nat) : Int), s.drawFree)

/-! ## Calibration (R237, Table 5-16) -/

/-- The calibration page of lane `n` as it stands. -/
def State.livePage (s : State) (p : Nat) : Sparse Word := s.regs.filter (fun x => x.1 / 0x1000 == p)

/-- A field of a latched calibration page. -/
def calFld (cal : Sparse Word) (n off hi lo : Nat) : Nat :=
  getBits (Sparse.get resetCell cal ((0x208 + n) * 0x1000 + off)) hi lo

/-- A signed field of a latched calibration page. -/
def calSigned (cal : Sparse Word) (n off hi lo : Nat) : Int := signed (hi + 1 - lo) (calFld cal n off hi lo)

/-- A half word of consecutive registers, the low half of each first. -/
def calHalf (cal : Sparse Word) (n off k : Nat) : Int := calSigned cal n (off + k / 2 * 4) (k % 2 * 16 + 15) (k % 2 * 16)

/-- LSB of a range mode in µm. -/
def calLsb (cal : Sparse Word) (n mode : Nat) : Nat := calFld cal n (0x5C + mode / 2 * 4) (mode % 2 * 16 + 15) (mode % 2 * 16)

/-- ROFF of a beam and a mode in 1/1,024 m. -/
def calRoff (cal : Sparse Word) (n b mode : Nat) : Int := calHalf cal n (0x84 + 16 * b) mode

/-! ## Points (R238) -/

/-- The corrected range as a fraction over 1,024 × 10^12, in metres. -/
def rangeNum (cal : Sparse Word) (n b mode range : Nat) : Int :=
  (range * calLsb cal n mode : Nat) * (1000000 + calSigned cal n (0x8C + 16 * b) 15 0) * 1024
    + calRoff cal n b mode * 1000000000000

/-- A coordinate of 128·p as a fraction over 16,384 × 2^128 × 1,024 × 10^12: row `i` of ROT, and TRANS. -/
def coordNum (cal : Sparse Word) (n i : Nat) (hx hy hz rnum : Int) : Int :=
  (calHalf cal n 0x40 (3 * i) * hx + calHalf cal n 0x40 (3 * i + 1) * hy + calHalf cal n 0x40 (3 * i + 2) * hz) * rnum * 128
    + calHalf cal n 0x54 i * (16384 * 2 ^ 128 * (1024 * 1000000000000))

/-- The denominator of `coordNum`. -/
def coordDen : Nat := 16384 * 2 ^ 128 * (1024 * 1000000000000)

/-- One return of a firing as a point: none when R238 drops it. [DEDUCED: notes/assumptions/38.md] -/
def State.convert (s : State) (n : Nat) (cal : Sparse Word) (az el beam mode range inten : Nat) (transition : Bool) :
    Option PointRec × State :=
  if calLsb cal n mode = 0 then (none, s)
  else
    let rnum := rangeNum cal n beam mode range
    let a := unsigned 16 ((az : Int) + calSigned cal n (0x80 + 16 * beam) 31 16)
    let e := unsigned 16 (signed 16 el + calSigned cal n (0x80 + 16 * beam) 15 0)
    let hx := cosTurn e * cosTurn a
    let hy := cosTurn e * sinTurn a
    let hz := sinTurn e * 2 ^ 64
    let x := coordNum cal n 0 hx hy hz rnum
    let y := coordNum cal n 1 hx hy hz rnum
    let z := coordNum cal n 2 hx hy hz rnum
    let lim : Int := 32768 * (coordDen : Int)
    if lim ≤ |x| ∨ lim ≤ |y| ∨ lim ≤ |z| then (none, s)
    else
      let (xi, s) := s.within1 x coordDen
      let (yi, s) := s.within1 y coordDen
      let (zi, s) := s.within1 z coordDen
      let (ro, s) := s.roundOf (128 * rnum) (1024 * 1000000000000)
      let (ro, s) : Nat × State := if ro < 0 then (s.freeVal % 2 ^ 16, s.drawFree) else (min 65535 ro.toNat, s)
      let g := inten * calFld cal n (0x8C + 16 * beam) 23 16
      let (iv, s) : Nat × State :=
        if g % 128 = 0 ∨ 255 * 128 ≤ g then (min 255 (g / 128), s) else (g / 128 + s.freeVal % 2, s.drawFree)
      (some { x := satSigned 16 xi, y := satSigned 16 yi, z := satSigned 16 zi, rangeOut := ro, intensity := iv, pflags := b2n transition + 2 * mode, beam := beam,
              source := n }, s)

/-- The 16 bytes of a point record (Table 5-10). -/
def pointBytes (x y z : Nat) (p : PointRec) : List Byte :=
  leBytes 2 x ++ leBytes 2 y ++ leBytes 2 z ++ leBytes 1 p.intensity ++ leBytes 1 p.pflags ++ leBytes 1 p.beam
    ++ leBytes 1 p.source ++ leBytes 2 p.rangeOut ++ leBytes 4 p.time

end Sys2Proof.Machine
end

