-- ==== Sys2Proof/Machine/Ladder.lean ====
section
/-! DEFINITION. Delivery of sectors, and the retry ladder (spec/05_sensor_link_sectors.md, R223 to R240, R251, R254). -/

namespace Sys2Proof.Machine

/-! ## Delivery -/

/-- What a scan of a sector's records carries: the range mode, a marker that waits for its firing as (NEW_MODE, BEAM_SWITCH). -/
structure Scan where
  mode : Nat
  marker : Option (Nat × Nat) := none
  deriving DecidableEq, Repr

/-- The mode and TRANSITION of beam `b` in the next firing (R239). -/
def Scan.beam (k : Scan) (b : Nat) : Nat × Bool :=
  match k.marker with
  | some (m, sw) => if sw = 0 then (m, false) else (if b < sw then k.mode else m, true)
  | none => (k.mode, false)

/-- The scan after a firing. -/
def Scan.after (k : Scan) : Scan := match k.marker with | some (m, _) => { mode := m } | none => k

/-- A point of a lane joins the points that wait for the Separator: after those of earlier cycles, and among those of its cycle by
ascending lane (R279). -/
def inboxInsert (d : Delivered) : List Delivered → List Delivered
  | [] => [d]
  | x :: t => if x.at_ == d.at_ && Nat.blt (d.pt.source % 8) (x.pt.source % 8) then d :: x :: t else x :: inboxInsert d t

/-- The returns of a firing, from beam `b`, with RANGE other than 0, become points (R238); dropped ones are counted. -/
def State.sendReturns (s : State) (n : Nat) (x : Sector) (k : Scan) (az el t fr : Nat) : Nat → List (Nat × Nat) → State
  | _, [] => s
  | b, (range, inten) :: rest =>
    let s :=
      if range = 0 then s
      else
        let m := k.beam b
        let c := s.convert n x.cal az el b m.1 range inten m.2
        match c.1 with
        | none => c.2.bump (F.SLK_DROP_CNT n)
        | some p =>
          let p := { p with time := unsigned 32 ((t : Int) - (c.2.openTick fr : Nat)) }
          let d : Delivered := { pt := p, firing := t, frame := fr, seq := x.seq, azStart := x.azStart, azEnd := x.azEnd, at_ := c.2.cycles }
          (c.2.updSep (fun q => { q with inbox := inboxInsert d q.inbox })).bump (F.SLK_POINT_CNT n)
    State.sendReturns s n x k az el t fr (b + 1) rest

/-- A point of a sentry window is appended to the sentry buffer, up to MAX_POINTS; further points are counted (R724). -/
def State.sentryPoint (s : State) (p : PointRec) : State :=
  if s.pwr.points < s.fld F.PWR_SENTRY_WIN_MAX_POINTS then
    let d := cellarAddr (s.fld F.PWR_SENTRY_CFG_TILE) (s.fld F.PWR_SENTRY_BUF_OFFSET + 64 + 16 * s.pwr.points)
    (s.poke false d (pointBytes (unsigned 16 p.x) (unsigned 16 p.y) (unsigned 16 p.z) p)).updPwr (fun x => { x with points := x.points + 1 })
  else s.updPwr (fun x => { x with dropped := x.dropped + 1 })

/-- The returns of a firing of the sentry lane: converted as R238 gives, without deskew, with TIME from the window's TICK (R724). -/
def State.sentryReturns (s : State) (n : Nat) (x : Sector) (k : Scan) (az el t : Nat) : Nat → List (Nat × Nat) → State
  | _, [] => s
  | b, (range, inten) :: rest =>
    let s :=
      if range = 0 then s
      else
        let m := k.beam b
        let c := s.convert n x.cal az el b m.1 range inten m.2
        match c.1 with
        | none => c.2.bump (F.SLK_DROP_CNT n)
        | some p => (c.2.sentryPoint { p with time := unsigned 32 ((t : Int) - (c.2.pwr.windowTs : Nat)) }).bump (F.SLK_POINT_CNT n)
    State.sentryReturns s n x k az el t (b + 1) rest

/-- A firing of a sector: its time from the tick reference, SEEN, and its points; delivered only while frames are paced
(R234 to R236, R284). -/
def State.sendFiring (s : State) (n : Nat) (x : Sector) (k : Scan) (first az el ref off : Nat) (rs : List (Nat × Nat)) : State :=
  if s.paced then
    match (s.lane n).refs.find? (fun r => r.1 % 2 ^ 16 == ref) with
    | none => s.bumpBy (F.SLK_DROP_CNT n) (rs.filter (fun r => r.1 != 0)).length
    | some r =>
      let t := r.2 + off
      let fr := frameOf s.frm.lastNum s.frm.tickHist t
      let s := if s.acceptsPoints fr then s.markSeen fr n az else s
      s.sendReturns n x k az el t fr first rs
  else if s.sentryLane n then
    match (s.lane n).refs.find? (fun r => r.1 % 2 ^ 16 == ref) with
    | none => s.bumpBy (F.SLK_DROP_CNT n) (rs.filter (fun r => r.1 != 0)).length
    | some r => s.sentryReturns n x k az el (r.2 + off) first rs
  else s

/-- The records of a sector in order. -/
def State.sendRecords (s : State) (n : Nat) (x : Sector) : Scan → List Rec → Scan × State
  | k, [] => (k, s)
  | k, .firing first az el ref off rs :: t => State.sendRecords (s.sendFiring n x k first az el ref off rs) n x k.after t
  | k, .marker m sw :: t => State.sendRecords s n x { k with marker := some (m, sw) } t
  | k, .status _ _ _ _ :: t => State.sendRecords s n x k t

/-- The SEQ that follows directly (R216). -/
def nextSeq (rotary : Bool) (ring seq : Nat) : Nat :=
  if rotary then
    if seq % 256 + 1 < sectorsPerRev ring then seq + 1 else (seq / 256 + 1) % 256 * 256
  else (seq + 1) % 2 ^ 16

/-- The last HEAD_STATUS of a sector is copied into HEAD_ACK (R224). -/
def State.headStatus (s : State) (n : Nat) : List Rec → State
  | [] => s
  | .status a c f t :: rest =>
    let s := ((s.setFld (F.SLK_HEAD_ACK_ACK_SEQ n) a).setFld (F.SLK_HEAD_ACK_ACK_CODE n) c).setFld (F.SLK_HEAD_ACK_FW_STATE n) f
    State.headStatus ((s.setFld (F.SLK_HEAD_ACK_HEAD_TEMP n) t).event (dlPage n) 4) n rest
  | .firing _ _ _ _ _ _ :: rest => State.headStatus s n rest
  | .marker _ _ :: rest => State.headStatus s n rest

/-- The open lost spans of a FIXED lane are reported at a delivery (R233); without an earlier delivery a span has no start. -/
def State.reportFixed (s : State) (n azStart : Nat) : State :=
  let l := s.lane n
  let s := match l.lastEnd with
    | some e => l.fixedLost.foldl (fun (s : State) f => s.lostSpan n e azStart f) s
    | none => s
  s.updLane n (fun l => { l with fixedLost := [] })

/-- A sector is delivered (R231, R233, R239, R251): its counts, its open spans, and its points. -/
def State.deliver (s : State) (n : Nat) (x : Sector) (b : List Byte) (ladder : Bool) : State :=
  let s := s.bump (F.SLK_SECTOR_OK_CNT n)
  let s := if ladder then s.bump (F.SLK_RETRY_OK_CNT n) else s
  let s := if x.rotary then s else s.reportFixed n x.azStart
  let s := (s.noteSector n x.seq true).updLane n (fun l => { l with lastEnd := some x.azEnd })
  let mode := atBytes b 3 1
  let start : Scan := match (s.lane n).marker with
    | some (q, old, m, sw) => if q = x.seq then { mode := old, marker := some (m, sw) } else { mode := mode }
    | none => { mode := mode }
  let rs := match payloadRecords x 255 b with | .ok rs => rs | .error _ => []
  let r := s.sendRecords n x start rs
  r.2.updLane n (fun l => { l with marker := match r.1.marker with
    | some (m, sw) => some (nextSeq x.rotary (r.2.fld (F.SLK_LANE_CFG_RING n)) x.seq, r.1.mode, m, sw)
    | none => none })

/-- A sector whose PAY_CRC matches: a repeat is discarded, then format, head identity, and delivery or the pair's decision (R223 step 2,
R251, R254, R768). The spec gives no order among a repeat, a format failure and a wrong HEAD_ID.
[DESIGN CHOICE: notes/assumptions/37.md] -/
def State.decoded (s : State) (n : Nat) (x : Sector) (b : List Byte) (ladder : Bool) : State :=
  if s.isRepeat n x then s.dropRepeat n x
  else match payloadRecords x (calFld x.cal n 0x64 7 0) b with
  | .error e =>
    let s := (s.error (ctlPage n) 0x2012 (word (e * 2 ^ 16 + x.seq))).event (ctlPage n) 7
    (s.bump (F.SLK_SECTOR_FORMAT_CNT n)).loseSector n 6 x
  | .ok rs =>
    let id := atBytes b 0xC 4
    let s := ((s.headStatus n rs).setFld (F.SLK_HEAD_ID_SEEN_ID n) id).servoRefresh
    let expect := calFld x.cal n 0x68 31 0
    if expect ≠ 0 ∧ id ≠ expect then
      ((s.error (ctlPage n) 0x4008 (word id)).event (ctlPage n) 6).loseSector n 9 x
    else if s.inPair n then
      let s := s.noteVerdict n x.seq (.decoded x b ladder)
      if n % 2 = 0 then s else s.noteSector n x.seq true
    else s.deliver n x b ladder

/-! ## The ladder (R227 to R230) -/

/-- Time of ladder step k, in ns (Table 5-8). -/
def stepNs (k : Nat) : Nat := [30800, 40016, 35408, 35408, 45200, 45200].getD (k - 1) 0

/-- A sector's deadline as an AON cycle (R229); none while no frame is charged. [DEDUCED: notes/assumptions/39.md] -/
def State.deadline (s : State) (n : Nat) (x : Sector) : Option Nat :=
  x.frame.map (fun f => s.drainEnd f - usCycles (s.fld (F.SLK_SECTOR_CFG_RETRY_GUARD_US n)))

/-- The deadline has passed. -/
def State.overdue (s : State) (n : Nat) (x : Sector) : Bool :=
  match s.deadline n x with | some d => Nat.ble d s.cycles | none => false

/-- Engine time is charged to the sector's frame (R230). -/
def State.chargeNs (s : State) (n : Nat) (x : Sector) (ns : Nat) : State :=
  match x.frame with
  | some f => s.updLane n (fun l => { l with charge := Sparse.set (fun _ => 0) l.charge f (Sparse.get (fun _ => 0) l.charge f + ns) })
  | none => s

/-- The lane's charge for the sector's frame has reached the budget (R230). -/
def State.spent (s : State) (n : Nat) (x : Sector) : Bool :=
  match x.frame with
  | some f => Nat.ble (1000 * s.fld (F.SLK_RETRY_BUDGET_BUDGET_US n)) (Sparse.get (fun _ => 0) (s.lane n).charge f)
  | none => false

/-- A decode or a PAY_CRC has failed: the sector joins the retry queue, or is lost (R226, R227, R229, R230); a repeat is discarded (R251).
[DEDUCED: notes/assumptions/39.md] -/
def State.decodeFailed (s : State) (n : Nat) (x : Sector) : State :=
  if s.isRepeat n x then s.dropRepeat n x
  else if s.fld (F.SLK_SECTOR_CFG_RETRY_STEPS n) = 0 ∨ x.slot = false then s.loseSector n 1 x
  else if s.spent n x then s.loseSector n 4 x
  else if s.overdue n x then s.loseSector n 2 x
  else s.updSlk (fun k => { k with ladder := k.ladder ++ [(n, { x with step := 0 })] })

/-- The next enabled step after step `k` (Table 5-8). -/
def State.nextStep (s : State) (n k : Nat) : Option Nat :=
  [1, 2, 3, 4, 5, 6].find? (fun j => Nat.blt k j && bitOf (s.fld (F.SLK_SECTOR_CFG_RETRY_STEPS n)) (j - 1))

/-- An engine's sector. -/
def Slk.engine (k : Slk) (e : Nat) : Option (Nat × Sector) := if e = 0 then k.engine0 else k.engine1

/-- An engine takes a sector, or is free. -/
def State.setEngine (s : State) (e : Nat) (x : Option (Nat × Sector)) : State :=
  s.updSlk (fun k => if e = 0 then { k with engine0 := x } else { k with engine1 := x })

/-- The engine goes to the next step of a sector, or loses it: exhausted or overdue (R227). A budget that is reached keeps further
sectors out of the queue and stops none that has joined it (R230). -/
def State.runStep (s : State) (e n : Nat) (x : Sector) : State :=
  if s.overdue n x then (s.setEngine e none).loseSector n 2 x
  else match s.nextStep n x.step with
    | none => (s.setEngine e none).loseSector n 1 x
    | some k => (s.setEngine e (some (n, { x with step := k, stepAt := s.cycles }))).bump (F.SLK_RETRY_STEP_CNT n)

/-- One queued sector goes before another: earlier deadline, a tie to the lower lane; without a deadline last.
[DEDUCED: notes/assumptions/39.md] -/
def State.goesBefore (s : State) (a b : Nat × Sector) : Bool :=
  match s.deadline a.1 a.2, s.deadline b.1 b.2 with
  | some x, some y => Nat.blt x y || (x == y && Nat.blt a.1 b.1)
  | some _, none => true
  | none, some _ => false
  | none, none => Nat.blt a.1 b.1

/-- The queued sector that an engine takes, and the rest of the queue. [DEDUCED: notes/assumptions/39.md] -/
def State.pickLadder (s : State) : List (Nat × Sector) → Option ((Nat × Sector) × List (Nat × Sector))
  | [] => none
  | a :: t =>
    match State.pickLadder s t with
    | none => some (a, [])
    | some (b, rest) => if s.goesBefore b a then some (b, a :: rest) else some (a, t)

/-- RETRY_STEP_START: a free engine takes a sector and starts its next enabled step. [DEDUCED: notes/assumptions/39.md] -/
def State.retryStart (s : State) (e : Nat) : State :=
  match s.slk.engine e with
  | some _ => s
  | none =>
    match s.pickLadder s.slk.ladder with
    | none => s
    | some ((n, x), rest) => (s.updSlk (fun k => { k with ladder := rest })).runStep e n x

/-- A codeword passes the zero syndrome and PAY_CRC (R196, R223 step 1). -/
def goodPayload (cw : List Nat) : Bool :=
  let b := userBytes cw
  unsatisfied cw == 0 && crc32 (b.take 0x7FC) == atBytes b 0x7FC 4

/-- The decode of a step on lane `n`'s sector from its stored samples (R227), with the tracking steps that a fragment body passes (R179,
R186) whatever the lane does now; `z` holds the equalizer inputs of each body in this pass. -/
def State.stepOut (s : State) (n : Nat) (x : Sector) (z : List (List Int)) : DecOut :=
  x.ladderDecode { s.chanEnv n with acq := false, track := true, inGap := false } (s.fld (F.SLK_MSE n)) (s.fld (F.SLK_SECTOR_CFG_RETRY_STEPS n)) z

/-- RETRY_STEP_DONE: the step's time is charged; success delivers, failure goes to the next step, and a sector still on the step at its
deadline is lost (R227, R229). [DEDUCED: notes/assumptions/39.md] -/
def State.retryDone (s : State) (e : Nat) (z : List (List Int)) : State :=
  match s.slk.engine e with
  | none => s
  | some (n, x) =>
    let cw := (s.stepOut n x z).cw
    let s := s.chargeNs n x (stepNs x.step)
    if s.overdue n x then (s.setEngine e none).loseSector n 2 x
    else if goodPayload cw then (s.setEngine e none).decoded n x (userBytes cw) true
    else s.runStep e n x

/-- A sector leaves the ladder: the queue, or its engine, whose time so far is charged (R226, R229). -/
def State.leaveLadder (s : State) (n seq : Nat) : State :=
  let is := fun (y : Nat × Sector) => y.1 == n && y.2.seq == seq
  let stop := fun (s : State) (e : Nat) => match s.slk.engine e with
    | some y => if is y then (s.chargeNs n y.2 (5 * (s.cycles - y.2.stepAt))).setEngine e none else s
    | none => s
  (stop (stop s 0) 1).updSlk (fun k => { k with ladder := k.ladder.filter (fun y => !is y) })

/-- RETRY_DEADLINE: a sector on the ladder at its deadline is lost. [DEDUCED: notes/assumptions/39.md] -/
def State.retryDeadline (s : State) (n seq : Nat) : State :=
  match s.slk.onLadder.find? (fun y => y.1 == n && y.2.seq == seq) with
  | some (_, x) => if s.overdue n x then (s.leaveLadder n seq).loseSector n 2 x else s
  | none => s

/-- The sector on the ladder with the oldest capture that holds a slot (R226). -/
def oldestCapture : List (Nat × Sector) → Option (Nat × Sector)
  | [] => none
  | a :: t =>
    match oldestCapture t with
    | none => if a.2.slot then some a else none
    | some b => if a.2.slot && Nat.ble a.2.capAt b.2.capAt then some a else some b

/-- A first fragment asks for a slot: free, or taken from the ladder, or none (R225, R226). -/
def State.takeSlot (s : State) : Bool × State :=
  if s.slotsUsed < 204 then (true, s)
  else match oldestCapture s.slk.onLadder with
    | some (n, x) => (true, (s.leaveLadder n x.seq).loseSector n 3 { x with slot := false })
    | none => (false, s)

/-! ## The decision of a redundant pair (R768) -/

/-- The calibration that a sector captured now uses (R237); before the first tick it is the page as it stands.
[DEDUCED: notes/assumptions/38.md] -/
def State.calNow (s : State) (n : Nat) : Sparse Word :=
  match (s.lane n).cal with | some c => c | none => s.livePage (0x208 + n)

/-- The verdict of a lane that has none counts as not decoded. -/
def Verdict.bytes : Option Verdict → Option (Sector × List Byte × Bool)
  | some (.decoded x b l) => some (x, b, l)
  | some (.lost _ _) => none
  | none => none

/-- The pair of primary lane `p` decides on a sector; a ladder run on it that goes on beyond its deadline ends. -/
def State.pairDecide (s : State) (p : Nat) (r : Redund) : State :=
  let s := (s.leaveLadder p r.seq).leaveLadder (p + 1) r.seq
  match Verdict.bytes r.primary, Verdict.bytes r.secondary with
  | some (x, b, l), some (_, b2, _) =>
    if b = b2 then s.deliver p x b l
    else
      let s := (s.bump F.SAF_REDUND_MISMATCH_CNT).loseNow p 1 x
      let fr := match x.frame with | some f => f | none => 0
      let s := if s.saf.redundFrame = some fr then s
        else (s.error 0x160 0x6034 0).updSaf (fun a => { a with redundFrame := some fr })
      s.latch Cause.redundMismatch 0x6034
  | some (x, b, l), none => (s.bump F.SAF_REDUND_SINGLE_CNT).deliver p x b l
  | none, some (x, b, l) => (s.bump F.SAF_REDUND_SINGLE_CNT).deliver p { x with cal := x.calP } b l
  | none, none =>
    match r.primary with
    | some (.lost x c) => s.loseNow p c x
    | _ => s

/-- REDUND_DECISION: both lanes have settled the sector, or the primary's deadline has passed. [DEDUCED: notes/assumptions/39.md] -/
def State.redundDecision (s : State) (p seq : Nat) : State :=
  match s.slk.redund.find? (fun r => r.lane == p && r.seq == seq) with
  | none => s
  | some r =>
    let late := match r.primary, r.secondary with
      | some (.decoded x _ _), _ => s.overdue p x
      | some (.lost x _), _ => s.overdue p x
      | none, some (.decoded x _ _) => s.overdue p x
      | none, some (.lost x _) => s.overdue p x
      | none, none => false
    if (r.primary.isSome && r.secondary.isSome) || late then
      (s.updSlk (fun k => { k with redund := k.redund.filter (fun q => !(q.lane == p && q.seq == seq)) })).pairDecide p r
    else s

end Sys2Proof.Machine
end

