-- ==== Sys2Proof/Machine/Downlink.lean ====
section
/-! DEFINITION. The downlink of a lane and the azimuth-lock servo (spec/05_sensor_link_sectors.md, R234, R241 to R249, R252,
R255; spec/20_mode_combinations.md, R808). -/

namespace Sys2Proof.Machine

/-! ## The write inhibit (R244) -/

/-- A message type is a write (Table 5-12). -/
def isWriteType (t : Nat) : Bool := (Nat.ble 1 t && Nat.ble t 4) || t == 0x12 || (Nat.ble 0x40 t && Nat.ble t 0x7F)

/-- Writes on lane `n` are inhibited (R244). -/
def State.dlInhibited (s : State) (n : Nat) : Bool :=
  let l := s.lane n
  let pe := (s.sfld (F.SLK_SERVO_STATUS_PHASE_ERR n)).natAbs
  (s.rotary n && (Nat.blt (s.fld (F.SLK_INHIBIT_CFG_INHIBIT_THR n)) pe || l.idxLast.isNone || l.idxMiss != 0))
    || Nat.blt (s.fld (F.SLK_INHIBIT_CFG_SHOCK_LIMIT n)) (s.fld (F.SLK_SHOCK_NOW_LEVEL n))
    || (match l.shockAt with
        | some a => Nat.blt s.cycles (a + msCycles (s.fld (F.SLK_INHIBIT_CFG_SHOCK_HOLD_MS n)))
        | none => false)

/-- The lane is PAUSED (R252). -/
def State.lanePaused (s : State) (n : Nat) : Bool := s.pstate (ctlPage n) == St.paused

/-- A write at the head of the queue begins or ends its wait (R244, R252). [DEDUCED: notes/assumptions/41.md] -/
def State.noteWait (s : State) (n : Nat) : State :=
  let l := s.lane n
  let blocked := match l.dlQueue with | m :: _ => isWriteType m.typ && s.dlInhibited n | [] => false
  if s.lanePaused n then
    match l.waitAt with
    | some a => s.updLane n (fun l => { l with waitAt := none, waited := l.waited + (s.cycles - a) })
    | none => s
  else if blocked then
    match l.waitAt with
    | some _ => s
    | none => s.updLane n (fun l => { l with waitAt := some s.cycles })
  else s.updLane n (fun l => { l with waitAt := none, waited := 0 })

/-- A shock level reaches a lane (R244, R655); 0xFF marks a sensor fault. -/
def State.shockLevel (s : State) (n v : Nat) : State :=
  let s := s.setFld (F.SLK_SHOCK_NOW_LEVEL n) v
  let s := if v ≠ 0xFF ∧ s.fld (F.SLK_INHIBIT_CFG_SHOCK_LIMIT n) < v then
    s.updLane n (fun l => { l with shockAt := some s.cycles }) else s
  s.noteWait n

/-! ## Messages (R234, R241 to R243) -/

/-- QUEUED follows the queue. -/
def State.showQueue (s : State) (n : Nat) : State := s.setFld (F.SLK_DL_TX_STATUS_QUEUED n) (s.lane n).dlQueue.length

/-- The bytes of a message: preamble, start delimiter, TYPE, SEQ, LEN, payload and CRC, low byte first (R241, Table 5-11). -/
def DlMsg.bytes (m : DlMsg) : List Byte :=
  let body := leBytes 1 m.typ ++ leBytes 1 m.seq ++ leBytes 2 m.payload.length ++ m.payload
  leBytes 3 0xD55555 ++ body ++ leBytes 2 (crc16 body)

/-- The levels of the pair, one for each half of a bit, least significant bit of each byte first: 0 is low then high, 1 high then low
(R167, R241). -/
def DlMsg.levels (m : DlMsg) : List Bool :=
  m.bytes.flatMap (fun b => (natBitsLsb 8 b.toNat).flatMap (fun x => [x, !x]))

/-- AON cycles a message takes: 40 ns a bit (Table 4-3). -/
def DlMsg.cycles (m : DlMsg) : Nat := 64 * (m.payload.length + 9)

/-- The level of lane `n`'s downlink pair: the half bit of the message on the wire, and low between messages (R167). -/
def State.dlLevel (s : State) (n : Nat) : Bool :=
  let l := s.lane n
  match l.wire with
  | some m => if s.cycles < l.wireAt then false else m.levels.getD ((s.cycles - l.wireAt) / 4) false
  | none => false

/-- The line begins a message as soon as it is idle (R241). -/
def Lane.send (l : Lane) (now : Nat) (m : DlMsg) : Lane := { l with wire := some m, wireAt := max now l.idleAt }

/-- The line begins a message of the lane's own; SEQ of TICK and SPEED_TRIM is assigned here (Table 5-11). -/
def State.putOnWire (s : State) (n typ : Nat) (payload : List Byte) : State :=
  s.updLane n (fun l =>
    { l.send s.cycles { typ := typ, seq := l.dlSeq, payload := payload } with dlSeq := (l.dlSeq + 1) % 256 })

/-- TICK of frame number `m` begins as soon as the line is idle, and REF(m) is recorded: 24 bits of 40 ns lead to the end of the
start delimiter (R234, Table 4-3). [DEDUCED: notes/assumptions/41.md] -/
def State.startTick (s : State) (n m : Nat) : State :=
  let l := s.lane n
  let ref := (s.timebase + 5 * (l.idleAt - s.cycles) + 960 + calFld (s.calNow n) n 0x58 31 16) % 2 ^ 64
  let s := s.updLane n (fun l => { l with tickDue := none, refs := ((m, ref) :: l.refs).take 4 })
  s.putOnWire n 0x30 (leBytes 2 m ++ leBytes 2 0)

/-- A tick asks a lane for its TICK message: at once when no message is on the wire, otherwise after it; a PAUSED lane sends
none (R234, R252). The calibration page is latched (R237). -/
def State.laneTick (s : State) (n m : Nat) : State :=
  let s := s.updLane n (fun l => { l with cal := some (s.livePage (0x208 + n)) })
  if s.lanePaused n then s
  else match (s.lane n).wire with
    | none => s.startTick n m
    | some _ => s.updLane n (fun l => { l with tickDue := some m })

/-- A message enters the queue with its SEQ, or the queue is full (R242). -/
def State.enqueueDl (s : State) (n typ : Nat) (payload : List Byte) (job : Option Nat) : Option State :=
  let l := s.lane n
  if 4 ≤ l.dlQueue.length then none
  else
    let m : DlMsg := { typ := typ, seq := l.dlSeq, payload := payload, job := job }
    some (((s.updLane n (fun l => { l with dlQueue := l.dlQueue ++ [m], dlSeq := (l.dlSeq + 1) % 256 })).showQueue n).noteWait n)

/-- The staged payload bytes of a lane. -/
def State.dlStaged (s : State) (n len : Nat) : List Byte :=
  ((List.range 64).flatMap (fun k => leBytes 4 (s.cell (R.SLK_DL_TX_DATA n k)).toNat)).take len

/-- A SEND with a full queue, which is discarded (R242); LEN is checked first. -/
def State.sendBarred (s : State) (n : Nat) (v : Word) : Bool :=
  getBits v 0 0 == 1 && Nat.ble 4 (s.lane n).dlQueue.length && (lengthCheck 9 (s.fld (F.SLK_DL_TX_HDR_LEN n)) 0 512 256).isNone

/-- DL_TX_CMD SEND (R242). -/
def State.dlSend (s : State) (n w : Nat) (v : Word) : State :=
  s.onWrite (dlPage n) 0x5C w v (fun s =>
    let s := if s.sendBarred n v then s else s.wrote (dlPage n) w
    if getBits v 0 0 = 0 then s
    else
      let len := s.fld (F.SLK_DL_TX_HDR_LEN n)
      match lengthCheck 9 len 0 512 256 with
      | some code => s.error (dlPage n) code (infoReg 0x58 16)
      | none =>
        match s.enqueueDl n (s.fld (F.SLK_DL_TX_HDR_TYPE n)) (s.dlStaged n len) none with
        | some s' => s'.setFld (F.SLK_DL_TX_STATUS_LAST_SEQ n) (s.lane n).dlSeq
        | none => (s.error (dlPage n) 0xA007 0).setFld (F.SLK_DL_TX_STATUS_LAST_RESULT n) 2)

/-- DOWNLINK_TX_START: TICK first, then SPEED_TRIM, then the queue (R243); a write waits while inhibited (R244).
[DEDUCED: notes/assumptions/41.md] -/
def State.dlStart (s : State) (n : Nat) : State :=
  let l := s.lane n
  if l.wire.isSome || Nat.blt s.cycles l.idleAt || s.lanePaused n then s
  else match l.tickDue with
    | some m => s.startTick n m
    | none => match (if s.fld (F.SLK_SERVO_STATUS_STATE n) = 3 then none else l.trimDue) with
      | some t => (s.updLane n (fun l => { l with trimDue := none })).putOnWire n 0x10 (leBytes 4 (unsigned 32 t))
      | none => match l.dlQueue with
        | [] => s
        | m :: rest =>
          if isWriteType m.typ && s.dlInhibited n then s.noteWait n
          else ((s.updLane n (fun l => { l.send s.cycles m with dlQueue := rest, waitAt := none, waited := 0 })).showQueue n).noteWait n

/-- The job that enqueued a message ends with a code (R583). [DEDUCED: notes/assumptions/41.md] -/
def State.endDlJob (s : State) (job : Option Nat) (code : Nat) : State :=
  match job with
  | some k =>
    match s.job (k / 2) (k % 2) with
    | some j => s.jobDone (k / 2) (k % 2) j code 0
    | none => s
  | none => s

/-- DOWNLINK_TX_DONE: the last bit of the message has left; 16 bit times of idle follow (R241), and a TICK that waits is next.
[DEDUCED: notes/assumptions/41.md] -/
def State.dlDone (s : State) (n : Nat) : State :=
  match (s.lane n).wire with
  | none => s
  | some m =>
    if s.cycles < (s.lane n).wireAt + m.cycles then s else
    let s := s.updLane n (fun l => { l with wire := none, idleAt := s.cycles + 128 })
    let s := (s.bump (F.SLK_DL_SENT_CNT n)).event (dlPage n) 3
    let s := if m.typ = 0x30 ∨ m.typ = 0x10 then s else s.setFld (F.SLK_DL_TX_STATUS_LAST_RESULT n) 0
    let s := s.endDlJob m.job 0
    match (s.lane n).tickDue with
    | some k => if s.lanePaused n then s else s.startTick n k
    | none => s

/-- INHIBIT_WAIT_EXPIRE: a write that is inhibited and has waited INHIBIT_WAIT_MS is discarded (R244); one that is no longer inhibited
waits no more. [DEDUCED: notes/assumptions/41.md] -/
def State.inhibitExpire (s : State) (n : Nat) : State :=
  let l := s.lane n
  match l.dlQueue, l.waitAt with
  | m :: rest, some a =>
    if !(isWriteType m.typ && s.dlInhibited n) then s.noteWait n
    else if msCycles (s.fld (F.SLK_INHIBIT_WAIT_INHIBIT_WAIT_MS n)) ≤ l.waited + (s.cycles - a) then
      let s := s.updLane n (fun l => { l with dlQueue := rest, waitAt := none, waited := 0 })
      let s := ((s.error (dlPage n) 0x4002 0).event (dlPage n) 2).bump (F.SLK_DL_INHIBIT_CNT n)
      ((s.setFld (F.SLK_DL_TX_STATUS_LAST_RESULT n) 1).endDlJob m.job 0x4002 |>.showQueue n).noteWait n
    else s
  | _, _ => s

/-! ## The servo (R246 to R249, R808) -/

/-- PHASE_ERR of an azimuth instant `t` with azimuth `a` against tick `k` and period `p` (R246). [DEDUCED: notes/assumptions/40.md] -/
def State.phaseErr (s : State) (n t a k p : Nat) : Int × State :=
  let m : Int := ((65536 * p : Nat) : Int)
  let d := unsigned 16 ((a : Int) - (s.fld (F.SLK_SERVO_CFG_LOCK_AZ n) : Nat))
  let e := (65536 * ((t : Int) - k) - (d * p : Nat)) % m
  let e := if m < 2 * e then e - m else e
  s.roundOf e p

/-- acc in 1/256 ppm and TRIM_PPM after a PHASE_ERR (R246); a fractional trim is one of its two neighbours.
[DEDUCED: notes/assumptions/38.md; DEDUCED: notes/assumptions/40.md] -/
def State.servoTrim (s : State) (n : Nat) (pe : Int) : Int × State :=
  let acc := clampInt (-12800000) 12800000 ((s.lane n).acc + (s.fld (F.SLK_SERVO_GAIN_KI n) : Nat) * pe)
  let s := s.updLane n (fun l => { l with acc := acc })
  let q := 16 * (s.fld (F.SLK_SERVO_GAIN_KP n) : Nat) * pe + acc
  if q % 256 = 0 then (clampInt (-50000) 50000 (q / 256), s)
  else (clampInt (-50000) 50000 (q / 256 + ((s.freeVal % 2 : Nat) : Int)), s.drawFree)

/-- The servo state after a PHASE_ERR (R248): LOCKED after 16 index fields within LOCK_THR, lost after two beyond
UNLOCK_THR. -/
def State.servoState (s : State) (n : Nat) (pe : Int) : State :=
  let st := s.fld (F.SLK_SERVO_STATUS_STATE n)
  let a := pe.natAbs
  let s := s.updLane n (fun l => { l with
    lockRun := if Nat.ble a (s.fld (F.SLK_SERVO_THR_LOCK_THR n)) then l.lockRun + 1 else 0,
    unlockRun := if Nat.blt (s.fld (F.SLK_SERVO_THR_UNLOCK_THR n)) a then l.unlockRun + 1 else 0 })
  if st = 1 ∧ 16 ≤ (s.lane n).lockRun then (s.setFld (F.SLK_SERVO_STATUS_STATE n) 2).event (dlPage n) 0
  else if st = 2 ∧ 2 ≤ (s.lane n).unlockRun then
    let s := (s.setFld (F.SLK_SERVO_STATUS_STATE n) 1).updLane n (fun l => { l with acc := 0, lockRun := 0 })
    ((s.error (dlPage n) 0x4007 0).event (dlPage n) 1).bump (F.SLK_LOCK_LOSS_CNT n)
  else s

/-- SERVO_UPDATE at a located index field: instant `t`, azimuth `a` (R246 to R249). [DEDUCED: notes/assumptions/40.md] -/
def State.servoUpdate (s : State) (n t a : Nat) : State :=
  let g := s.gridTick t
  let s := s.servoEnter n g.isSome
  match g with
  | none => s
  | some k =>
    let p := if s.paced then s.fld F.FRM_PERIOD_US_PERIOD * 1000 else s.activePlan.hdr.periodUs * 1000
    let (pe, s) := s.phaseErr n t a k p
    let (pe, s) : Int × State := if pe = 32768 then (signed 16 s.freeVal, s.drawFree) else (pe, s)
    let s := s.setSfld (F.SLK_SERVO_STATUS_PHASE_ERR n) pe
    let (trim, s) := s.servoTrim n pe
    let s := (s.setSfld (F.SLK_TRIM_PPM_TRIM n) trim).servoState n pe
    let st := s.fld (F.SLK_SERVO_STATUS_STATE n)
    let s := if (st = 1 ∨ st = 2) ∧ s.fld (F.SLK_HEAD_ID_SEEN_ID n) ≠ 0 ∧ s.lanePaused n = false then
      s.updLane n (fun l => { l with trimDue := some trim }) else s
    s.noteWait n

end Sys2Proof.Machine
end

