-- ==== Sys2Proof/Machine/Separator.lean ====
section
/-! DEFINITION. The Separator: deskew, grid, binning, thinning, commit and the frame record
(spec/06_separator_thinning.md). -/

namespace Sys2Proof.Machine

/-! ## Sampled configuration (R258) -/

def Sep.binFine (q : Sep) : Nat := getBits q.cfg 1 0
def Sep.retainMax (q : Sep) : Nat := getBits q.cfg 7 4
def Sep.exclude (q : Sep) : Bool := getBits q.cfg 8 8 == 1
def Sep.deskewEn (q : Sep) : Bool := getBits q.cfg 9 9 == 1
def Sep.dropNoPose (q : Sep) : Bool := getBits q.cfg 10 10 == 1
def Sep.offX (q : Sep) : Int := signed 16 (getBits q.offXY 15 0)
def Sep.offY (q : Sep) : Int := signed 16 (getBits q.offXY 31 16)
def Sep.offZv (q : Sep) : Int := signed 16 (getBits q.offZ 15 0)

/-- START samples the configuration (R258). -/
def State.sepSample (s : State) : State :=
  s.updSep (fun q => { q with
    cfg := s.cell R.SEP_CFG
    offXY := s.cell R.SEP_GRID_OFF_XY
    offZ := s.cell R.SEP_GRID_OFF_Z
    extrapUs := s.fld F.SEP_POSE_EXTRAP_US_EXTRAP
    gapUs := s.fld F.SEP_POSE_GAP_US_GAP
    dram := s.fld F.SEP_DRAM_HI_ADDR * 2 ^ 32 + s.fld F.SEP_DRAM_LO_ADDR * 2 ^ 26 })

/-! ## Poses (R260, R261) -/

/-- A pose sample as staged (Table 6-1). -/
def poseOf (b : List Byte) : Pose :=
  let g := fun (o n : Nat) => leNat ((b.drop o).take n)
  { ts := g 0 8, px := signed 32 (g 8 4), py := signed 32 (g 0xC 4), pz := signed 32 (g 0x10 4),
    qw := signed 16 (g 0x14 2), qx := signed 16 (g 0x16 2), qy := signed 16 (g 0x18 2), qz := signed 16 (g 0x1A 2) }

/-- The norm of a quaternion in units of 2^-28 lies within 0.98 to 1.02 (R260). -/
def Pose.normOk (p : Pose) : Bool :=
  let m := 100 * (p.qw * p.qw + p.qx * p.qx + p.qy * p.qy + p.qz * p.qz)
  decide (98 * 2 ^ 28 ≤ m) && decide (m ≤ 102 * 2 ^ 28)

/-- The line through samples `a` and `b` at instant `t`, over their time difference (R261). -/
def poseLine (a b : Pose) (t : Nat) : PoseAt :=
  let d : Int := (b.ts : Int) - a.ts
  let u : Int := (t : Int) - a.ts
  let g := fun (x y : Int) => x * d + (y - x) * u
  { den := d.toNat, px := g a.px b.px, py := g a.py b.py, pz := g a.pz b.pz,
    qw := g a.qw b.qw, qx := g a.qx b.qx, qy := g a.qy b.qy, qz := g a.qz b.qz }

/-- pose(t) from samples, oldest first: interpolation between two, or extrapolation past the newest (R261). -/
def poseFrom (gap extrap : Nat) : List Pose → Nat → Option PoseAt
  | a :: b :: rest, t =>
    if a.ts ≤ t ∧ t ≤ b.ts ∧ b.ts - a.ts ≤ gap then some (poseLine a b t)
    else if rest.isEmpty then
      if b.ts < t ∧ t - b.ts ≤ extrap then some (poseLine a b t) else none
    else poseFrom gap extrap (b :: rest) t
  | [_], _ => none
  | [], _ => none

/-- pose(t) with the values sampled at START (R261). [DEDUCED: notes/assumptions/42.md] -/
def State.poseAt (s : State) (t : Nat) : Option PoseAt := poseFrom (1000 * s.sep.gapUs) (1000 * s.sep.extrapUs) s.sep.poses t

/-- TS of the newest sample held. -/
def Sep.newest (q : Sep) : Option Nat := (q.poses.getLast?).map (·.ts)

/-- The status of the pose ring (Table 6-9); with no sample held, POSE_NEWEST has no stated value. [DEDUCED: notes/assumptions/42.md] -/
def State.poseStatus (s : State) : State :=
  let s := s.setFld F.SEP_POSE_STATUS_HELD s.sep.poses.length
  match s.sep.newest with
  | some t => (s.setFld F.SEP_POSE_NEWEST_LO_TS (t % 2 ^ 32)).setFld F.SEP_POSE_NEWEST_HI_TS (t / 2 ^ 32)
  | none => ((s.setFld F.SEP_POSE_NEWEST_LO_TS (s.freeVal % 2 ^ 32)).setFld F.SEP_POSE_NEWEST_HI_TS (s.freeVal / 2 ^ 32 % 2 ^ 32)).drawFree

/-- The target pose of a frame is evaluated and latched at the opening of its ingest (R262, R265). [DEDUCED: notes/assumptions/42.md] -/
def State.latchPose (s : State) (f : Frame) : Frame × State :=
  let t := s.poseAt f.targetTs
  let s := s.setFld F.SEP_POSE_STATUS_TARGET_OK (b2n t.isSome)
  ({ f with target := t, staleDue := t.isNone, recFlags := putBit f.recFlags 4 t.isNone }, s)

/-- A PUSH of the cycle of the latch counts as written before it (R262). [DEDUCED: notes/assumptions/42.md] -/
def State.relatch (s : State) : State :=
  let go := fun (s : State) (o : Option Frame) => match o with
    | some f =>
      if f.openAt = s.cycles then
        let r := s.latchPose f
        r.2.updFrame f.num (fun _ => r.1)
      else s
    | none => s
  go (go s s.frm.ingest) s.frm.compute

/-- A sample is rejected (R260). -/
def State.poseReject (s : State) : State := s.bump F.SEP_POSE_REJECT_CNT

/-- PUSH: the staged sample enters the ring, or is rejected (R260); a reserved byte that is not 0 rejects it under R12.
[DEDUCED: notes/assumptions/42.md] -/
def State.posePush (s : State) : State :=
  let b := (List.range 8).flatMap (fun k => leBytes 4 (s.cell (R.SEP_POSE_STAGE k)).toNat)
  let p := poseOf b
  let old := match s.sep.newest with | some t => decide (p.ts ≤ t) | none => false
  if leNat (b.drop 0x1C) ≠ 0 then (s.error 0x041 Err.fieldRange (infoStruct 0x1C)).poseReject
  else if old || !p.normOk then s.poseReject
  else
    let l := s.sep.poses ++ [p]
    ((s.updSep (fun q => { q with poses := if 32 < l.length then l.drop 1 else l })).poseStatus).relatch

/-- POSE_CMD takes effect: CLEAR, then PUSH. [DEDUCED: notes/assumptions/42.md] -/
def State.poseCmd (s : State) (v : Word) : State :=
  let s := if getBits v 1 1 = 1 then (s.updSep (fun q => { q with poses := [] })).poseStatus else s
  let s := if getBits v 0 0 = 1 then s.posePush else s
  s

/-- A write of POSE_CMD by `w`. -/
def State.writePoseCmd (s : State) (w : Nat) (v : Word) : State :=
  s.onWrite 0x041 0x60 w v (fun s => (s.poseCmd v).wrote 0x041 w)

/-! ## Deskew (R264) -/

/-- The rotation of a quaternion applied to a vector, times the quaternion's squared length. -/
def rotate (w x y z : Int) (v : Int × Int × Int) : Int × Int × Int :=
  ((w * w + x * x - y * y - z * z) * v.1 + 2 * (x * y - w * z) * v.2.1 + 2 * (x * z + w * y) * v.2.2,
   2 * (x * y + w * z) * v.1 + (w * w - x * x + y * y - z * z) * v.2.1 + 2 * (y * z - w * x) * v.2.2,
   2 * (x * z - w * y) * v.1 + 2 * (y * z + w * x) * v.2.1 + (w * w - x * x - y * y + z * z) * v.2.2)

/-- Squared length of a pose's quaternion, over its denominator squared. -/
def PoseAt.norm2 (p : PoseAt) : Int := p.qw * p.qw + p.qx * p.qx + p.qy * p.qy + p.qz * p.qz

/-- Three free coordinates: a quaternion of length 0 has no normalised form. [DEDUCED: notes/assumptions/42.md] -/
def State.freePoint (s : State) : (Int × Int × Int) × State :=
  let a := signed 16 s.freeVal
  let s := s.drawFree
  let b := signed 16 s.freeVal
  let s := s.drawFree
  ((a, b, signed 16 s.freeVal), s.drawFree)

/-- The deskewed point in 1/128 m, each coordinate within one LSB of the exact value (R264); positions are in 1/1,024 m.
[DEDUCED: notes/assumptions/42.md] -/
def State.deskew (s : State) (pt target : PoseAt) (p : PointRec) : (Int × Int × Int) × State :=
  let nt := pt.norm2
  let nT := target.norm2
  if nt = 0 ∨ nT = 0 then s.freePoint
  else
    let dt : Int := pt.den
    let dT : Int := target.den
    let r := rotate pt.qw pt.qx pt.qy pt.qz (p.x, p.y, p.z)
    let v := fun (a b c : Int) => 8 * dt * dT * a + nt * (dT * b - dt * c)
    let u := rotate target.qw (-target.qx) (-target.qy) (-target.qz)
      (v r.1 pt.px target.px, v r.2.1 pt.py target.py, v r.2.2 pt.pz target.pz)
    let den := (8 * dt * dT * nt * nT).toNat
    let (x, s) := s.within1 u.1 den
    let (y, s) := s.within1 u.2.1 den
    let (z, s) := s.within1 u.2.2 den
    ((x, y, z), s)

/-! ## Grid and keys (R266 to R268, R273) -/

/-- A point's L0 cell and offsets (R266). -/
structure Cell0 where
  ix : Nat
  iy : Nat
  iz : Nat
  ux : Nat
  uy : Nat
  uz : Nat
  deriving DecidableEq, Repr

/-- The L0 cell of a point; none outside the grid (R266). -/
def Sep.cell0 (q : Sep) (x y z : Int) : Option Cell0 :=
  let ix := 10 * x / 128 - q.offX
  let iy := 10 * y / 128 - q.offY
  let iz := 5 * z / 128 - q.offZv
  if 0 ≤ ix ∧ ix < 4096 ∧ 0 ≤ iy ∧ iy < 4096 ∧ 0 ≤ iz ∧ iz < 160 then
    some ⟨ix.toNat, iy.toNat, iz.toNat, (10 * x % 128).toNat, (10 * y % 128).toNat, (5 * z % 128).toNat⟩
  else none

/-- A site's indices at a level, with the offsets of a point in it (Table 6-2). -/
structure CellK where
  ix : Nat
  iy : Nat
  iz : Nat
  ox : Nat
  oy : Nat
  oz : Nat
  deriving DecidableEq, Repr

/-- Table 6-2. -/
def Cell0.at (c : Cell0) (k : Nat) : CellK :=
  let m := 2 ^ k
  { ix := c.ix / m, iy := c.iy / m
    iz := if k < 2 then c.iz else if k = 2 then c.iz / 2 else 0
    ox := c.ux + 128 * (c.ix % m), oy := c.uy + 128 * (c.iy % m)
    oz := if k < 2 then c.uz else if k = 2 then c.uz + 128 * (c.iz % 2) else c.uz + 128 * c.iz }

/-- A packed key (R268). -/
def packKey (ix iy iz : Nat) : Nat := ix * 2 ^ 20 + iy * 2 ^ 8 + iz

/-- The indices of a packed key. -/
def keyX (key : Nat) : Nat := natBits key 31 20
def keyY (key : Nat) : Nat := natBits key 19 8
def keyZ (key : Nat) : Nat := natBits key 7 0

/-- The partition of a site (R273). -/
def partitionOf (tiles key : Nat) : Nat := (keyX key % 8 + 8 * (keyY key % 8)) % tiles

/-- The tile whose slice holds partition `j` (R273). -/
def State.partitionTile (s : State) (j : Nat) : Nat := s.enabledTiles.getD j 0

/-- Sites of a bank in a partition. -/
def Bank.inPartition (k : Bank) (tiles j : Nat) : Nat := (k.entries.filter (fun e => partitionOf tiles e.key == j)).length

/-- The Directory entry of a key. -/
def Bank.find (k : Bank) (key : Nat) : Option DirEntry := k.entries.find? (fun e => e.key == key)

/-- A new site of key `key` finds no room in its partition (R288). -/
def Bank.full (k : Bank) (tiles key : Nat) : Bool :=
  (k.find key).isNone && Nat.ble 16384 (k.inPartition tiles (partitionOf tiles key))

/-- `n` bytes of a table at offset `off` of the slice of partition `j` are read for an entry: whether they hold an uncorrectable word.
Where in the table an entry lies is the hardware's own; a poisoned word anywhere in it counts. [DEDUCED: notes/assumptions/43.md] -/
def State.tableRead (s : State) (j off n : Nat) : Bool × State :=
  let t := s.partitionTile j
  let lo := cellarKey t off / 8
  let q := s.readUnits (cellarAddr t off) 8
  (q.1 || s.mem.cellarPoison.any (fun x => x.2 && Nat.ble lo x.1 && Nat.blt x.1 (lo + n / 8)), q.2)

/-- The Directory partition of a key in bank `b` is read (R273, R296): 128 KiB of the slice for each bank. -/
def State.dirRead (s : State) (b key : Nat) : Bool × State := s.tableRead (partitionOf s.tileCount key) (b * 0x20000) 0x20000

/-! ## The Separator's DRAM region (Table 6-3) -/

/-- Device address of the summary of site `i` of bank `b`. -/
def Sep.summaryAddr (q : Sep) (b i : Nat) : Nat := q.dram + b * 0xA000000 + 32 * i

/-- Device address of retained point `slot` of site `i` of bank `b`. -/
def Sep.retainedAddr (q : Sep) (b i slot : Nat) : Nat := q.dram + b * 0xA000000 + 0x2000000 + 128 * i + 16 * slot

/-- The 32 bytes of a summary (Table 6-4). -/
def summaryBytes (key count sx sy sz int ret : Nat) (zmin zmax : Int) : List Byte :=
  leBytes 4 key ++ leBytes 4 count ++ leBytes 4 sx ++ leBytes 4 sy ++ leBytes 6 sz ++ leBytes 1 int ++ leBytes 1 ret
    ++ leBytes 2 (unsigned 16 zmin) ++ leBytes 2 (unsigned 16 zmax) ++ leBytes 4 0

/-- A coordinate of a retained point: one outside the 16 bits of its field has no stated value (R278). -/
def State.coord16 (s : State) (i : Int) : Nat × State :=
  if -32768 ≤ i ∧ i < 32768 then (unsigned 16 i, s) else (s.freeVal % 2 ^ 16, s.drawFree)

/-- A point of a site reaches the bank (R275): the site is created with its summary whole, or the summary merges the
contribution. The answer is the entry as it was, if there was one, and whether the summary's memory was uncorrectable.
[DEDUCED: notes/assumptions/43.md] -/
def State.putSite (s : State) (b key : Nat) (con : List Byte) : (Option DirEntry × Bool) × State :=
  let k := s.bank b
  match k.find key with
  | some e =>
    let r := s.fetch (s.sep.summaryAddr b e.index) 32
    ((some e, r.1.poison), r.2.summaryMerge (s.sep.summaryAddr b e.index) con false)
  | none =>
    let i := k.entries.length
    let s := s.setBank b { k with entries := k.entries ++ [⟨key, i, 0⟩] }
    ((none, false), s.write (s.sep.summaryAddr b i) con)

/-- The RET byte and the retained point of an L0 site that takes one more point (R278). `n` points are held already. -/
def State.retain (s : State) (b : Nat) (e : DirEntry) (x y z : Int) (p : PointRec) : State :=
  let n := e.retained
  if n < s.sep.retainMax then
    let (cx, s) := s.coord16 x
    let (cy, s) := s.coord16 y
    let (cz, s) := s.coord16 z
    let s := s.write (s.sep.retainedAddr b e.index n) (pointBytes cx cy cz p)
    let k := s.bank b
    let s := s.setBank b { k with entries := k.entries.map (fun d => if d.index = e.index then { d with retained := n + 1 } else d) }
    s.write (s.sep.summaryAddr b e.index + 0x17) (leBytes 1 (n + 1))
  else s.write (s.sep.summaryAddr b e.index + 0x17) (leBytes 1 (n + 16))

/-- SEP_SITE_LIMIT is recorded (Table 18-11). -/
def State.siteLimit (s : State) (n level part : Nat) : State :=
  (s.error 0x040 0xA009 (word (n % 256 * 2 ^ 24 + level * 2 ^ 8 + part % 64))).event 0x040 2

/-! ## Per-point order (R257) -/

/-- A point enters the finer level: its site's record, and at L0 the retained points of the site (R274 to R278). Whether the record
could not be read. -/
def State.binFineAt (s : State) (fb kf bf : Nat) (con : List Byte) (x y z : Int) (p : PointRec) : Bool × State :=
  let r := s.putSite fb kf con
  (r.1.2, if bf = 0 then (match (r.2.bank fb).find kf with
    | some e => r.2.retain fb e x y z p
    | none => r.2) else r.2)

/-- A point is binned (R257 step 5, R276, R278, R289, R290). -/
def State.binAt (s : State) (f : Frame) (fb cb : Nat) (c : Cell0) (x y z : Int) (p : PointRec) : State :=
  let bf := f.binFine
  let cf := c.at bf
  let cc := c.at (bf + 1)
  let tc := s.tileCount
  let kf := packKey cf.ix cf.iy cf.iz
  let kc := packKey cc.ix cc.iy cc.iz
  let e := s.dirRead fb kf
  let e' := e.2.dirRead cb kc
  let s := e'.2
  let s := if e.1 || e'.1 then s.sepFault else s
  let ovf := !f.fineOvf && (s.bank fb).full tc kf
  let s := if ovf then
      (s.updFrame f.num (fun f => { f with fineOvf := true, recFlags := setBit f.recFlags 2 })).siteLimit f.num bf (partitionOf tc kf)
    else s
  if (s.bank cb).full tc kc then
    let s := if bitOf f.recFlags 1 then s else s.siteLimit f.num (bf + 1) (partitionOf tc kc)
    (s.updFrame f.num (fun f => { f with dropped := f.dropped + 1, recFlags := setBit f.recFlags 1 })).bump F.SEP_SITE_DROP_CNT
  else
    let con := fun (k : CellK) (key level : Nat) =>
      summaryBytes key 1 k.ox k.oy k.oz p.intensity (level * 32) z z
    let q := if f.fineOvf || ovf then (false, s) else s.binFineAt fb kf bf (con cf kf bf) x y z p
    let r := q.2.putSite cb kc (con cc kc (bf + 1))
    let s := r.2.updFrame f.num (fun f => { f with points := f.points + 1 })
    if q.1 || r.1.2 then s.sepFault else s

/-- NO_POSE for a point (R265, R295). -/
def State.noPose (s : State) (f : Frame) : State :=
  let s := if bitOf f.recFlags 3 || bitOf f.recFlags 4 then s else s.poseStale f.num
  (s.updFrame f.num (fun f => { f with noPose := f.noPose + 1, recFlags := setBit f.recFlags 3 })).bump F.SEP_NO_POSE_CNT

/-- Steps 3 to 5 of R257 for a point whose coordinates are settled. [DEDUCED: notes/assumptions/43.md] -/
def State.binCoords (s : State) (f : Frame) (fb cb : Nat) (x y z : Int) (p : PointRec) : State :=
  match s.sep.cell0 x y z with
  | none => (s.updFrame f.num (fun f => { f with outOfGrid := f.outOfGrid + 1 })).bump F.SEP_OUT_OF_GRID_CNT
  | some c =>
    if 4194304 ≤ f.points then
      let s := if bitOf f.recFlags 0 then s else (s.error 0x040 0xA008 (word f.num)).event 0x040 1
      (s.updFrame f.num (fun f => { f with dropped := f.dropped + 1, recFlags := setBit f.recFlags 0 })).bump F.SEP_POINT_LIMIT_CNT
    else s.binAt f fb cb c x y z p

/-- Steps 2 to 5 of R257 for a point of a frame that holds its banks. A point whose pose is unavailable is counted and goes by POSE_FALLBACK
(R265), but in a frame without a target pose, every point of which is binned, it is not dropped. [DEDUCED: notes/assumptions/42.md; DEDUCED: notes/assumptions/43.md] -/
def State.binPoint (s : State) (f : Frame) (fb cb : Nat) (d : Delivered) : State :=
  if f.freeRun = true ∧ f.endTs < f.openTs + d.pt.time then
    s.updFrame f.num (fun f => { f with dropped := f.dropped + 1 })
  else match s.poseAt d.firing with
    | none =>
      let s := s.noPose f
      if s.sep.dropNoPose && f.target.isSome then s.updFrame f.num (fun f => { f with dropped := f.dropped + 1 })
      else match s.liveFrame f.num with
        | some f => s.binCoords f fb cb d.pt.x d.pt.y d.pt.z d.pt
        | none => s
    | some pt => match f.target with
      | some target =>
        if s.sep.deskewEn then
          let (v, s) := s.deskew pt target d.pt
          s.binCoords f fb cb v.1 v.2.1 v.2.2 d.pt
        else s.binCoords f fb cb d.pt.x d.pt.y d.pt.z d.pt
      | none => s.binCoords f fb cb d.pt.x d.pt.y d.pt.z d.pt

/-- Staging-buffer occupancy, in points. -/
def State.stagedPoints (s : State) : Nat :=
  [s.frm.compute, s.frm.closing, s.frm.ingest].foldl (fun n o => match o with | some f => n + f.staged.length | none => n) 0

/-- Device address of a record of the staging buffer (Table 6-3). -/
def State.stageAddr (s : State) (slot : Nat) : Nat := s.sep.dram + 0x1E000000 + 16 * slot

/-- A point is written to the staging buffer, or dropped when the buffer is full (R270, R294). [DEDUCED: notes/assumptions/43.md] -/
def State.stagePoint (s : State) (f : Frame) (d : Delivered) : State :=
  let n := s.stagedPoints
  if 2097152 ≤ n then
    let s := if bitOf f.recFlags 6 then s else (s.error 0x040 0xA00A (word f.num)).event 0x040 4
    (s.updFrame f.num (fun f => { f with dropped := f.dropped + 1, recFlags := setBit f.recFlags 6 })).bump F.SEP_STAGE_DROP_CNT
  else
    let p := d.pt
    let slot := s.sep.stageNext % 2097152
    let s := s.write (s.stageAddr slot)
      (pointBytes (unsigned 16 p.x) (unsigned 16 p.y) (unsigned 16 p.z) p)
    let s := s.updSep (fun q => { q with stageNext := (q.stageNext + 1) % 2097152 })
    let s := s.updFrame f.num (fun f => { f with staged := f.staged ++ [{ d with slot := slot }] })
    if s.fld F.SEP_STAGE_PEAK < n + 1 then s.setFld F.SEP_STAGE_PEAK (n + 1) else s

/-- A point that reaches the Separator for a frame that takes points: the exclusion of step 1, then binning or staging. -/
def State.takePoint (s : State) (f : Frame) (d : Delivered) : State :=
  if s.sep.exclude && bitOf d.pt.pflags 0 then
    (s.updFrame f.num (fun f => { f with excluded := f.excluded + 1 })).bump F.SEP_EXCLUDED_CNT
  else match f.fineBank, f.coarseBank with
    | some fb, some cb => s.binPoint f fb cb d
    | some _, none => s.stagePoint f d
    | none, _ => s.stagePoint f d

/-- A point after its frame's drain window (R31): its sector is lost as LATE once, and its span is reported.
[DEDUCED: notes/assumptions/30.md] -/
def State.latePoint (s : State) (d : Delivered) : State :=
  let n := d.pt.source % 8
  if (s.lane n).late = some (d.frame, d.seq) then s
  else
    let s := s.updLane n (fun l => { l with late := some (d.frame, d.seq) })
    (s.recordLost n 7 d.seq (some d.frame)).lostSpan n d.azStart d.azEnd (some d.frame)

/-- The oldest frame that holds its banks and has staged points. -/
def State.stagedFrame (s : State) : Option Frame :=
  [s.frm.compute, s.frm.closing, s.frm.ingest].findSome? (fun o => match o with
    | some f => if f.fineBank.isSome && f.coarseBank.isSome && !f.staged.isEmpty && !f.frozen then some f else none
    | none => none)

/-- The window of frame `n` is over: its points are late (R30, R31), also while the Frame Scheduler drains. -/
def State.windowOver (s : State) (n : Nat) : Bool :=
  let c := (s.page 0x010).cond
  !s.frm.freeRun && (c.running || c.draining) && !c.safe && !c.fault && !s.drainingFrame n && n != s.frm.lastNum

/-- POINT_ACCEPT: one point, staged points first (R257, R271); a PAUSED Separator accepts none (R293). -/
def State.pointAccept (s : State) : State :=
  let c := (s.page 0x040).cond
  if c.frozen || c.safe || c.fault then s
  else match s.stagedFrame with
    | some f =>
      match f.staged with
      | [] => s
      | d :: rest =>
        let r := (s.updFrame f.num (fun f => { f with staged := rest })).fetch (s.stageAddr d.slot) 16
        let s := if r.1.poison then r.2.sepFault else r.2
        match f.fineBank, f.coarseBank with
        | some fb, some cb => s.binPoint { f with staged := rest } fb cb d
        | some _, none => s
        | none, _ => s
    | none =>
      match s.sep.inbox with
      | [] => s
      | d :: rest =>
        let s := s.updSep (fun q => { q with inbox := rest })
        if s.acceptsPoints d.frame then
          match s.liveFrame d.frame with
          | some f => if f.sepOff then s else s.takePoint f d
          | none => s
        else if s.windowOver d.frame then s.latePoint d
        else s

/-! ## Banks (R269, R270, R282) -/

/-- A free bank, the lowest. -/
def State.freeBankId (s : State) : Option Nat := [0, 1, 2].find? (fun b => (s.bank b).use == 0)

/-- Free banks (BANKS_FREE). -/
def State.banksFree (s : State) : Nat := ([0, 1, 2].filter (fun b => (s.bank b).use == 0)).length

/-- A frame takes a free bank: first for its finer level, then for the coarser (R269). -/
def State.takeBank (s : State) (n : Nat) : State :=
  match s.liveFrame n, s.freeBankId with
  | some f, some b =>
    if f.fineBank.isNone then
      (s.setBank b { use := 1, level := f.binFine, frame := n }).updFrame n (fun f => { f with fineBank := some b })
    else if f.coarseBank.isNone then
      (s.setBank b { use := 1, level := f.binFine + 1, frame := n }).updFrame n (fun f => { f with coarseBank := some b })
    else s
  | some _, none => s
  | none, _ => s

/-- A frame whose ingest opens takes two free banks if there are two (R270). -/
def State.openBanks (s : State) (n : Nat) : State := if 2 ≤ s.banksFree then (s.takeBank n).takeBank n else s

/-- The oldest frame that lacks a bank and has not been frozen. -/
def State.lacksBank (s : State) : Option Frame :=
  [s.frm.compute, s.frm.closing, s.frm.ingest].findSome? (fun o => match o with
    | some f => if !f.frozen && !f.sepOff && (f.fineBank.isNone || f.coarseBank.isNone) then some f else none
    | none => none)

/-- BANK_TAKE: the oldest frame that waits takes a freed bank (R270). -/
def State.bankTake (s : State) : State := match s.lacksBank with | some f => s.takeBank f.num | none => s

/-- A frame's ingest opens at the Separator (R262, R269, R270). -/
def State.sepOpen (s : State) (f : Frame) : Frame × State :=
  let off := !(s.page 0x040).enable
  s.latchPose { f with binFine := s.sep.binFine, sepOff := off, openAt := s.cycles }

/-- Site count of a bank. -/
def State.bankSites (s : State) (b : Option Nat) : Nat := match b with | some i => (s.bank i).entries.length | none => 0

/-- SOFT_RESET of the SEP page for the frame in ingest (R292). -/
def State.sepSoftReset (s : State) : State :=
  match s.inIngest with
  | none => s
  | some f =>
    let wipe := fun (s : State) (o : Option Nat) => match o with
      | some b => s.setBank b { s.bank b with entries := [] }
      | none => s
    (wipe (wipe s f.fineBank) f.coarseBank).updFrame f.num (fun f => { f with
      staged := [], seen := [], lost := [], dropped := f.dropped + f.points + f.staged.length, points := 0,
      recFlags := setBit f.recFlags 7 })

/-! ## The frame record (R286, Table 6-5) -/

/-- The 128 bytes of a map of lane `l`. -/
def mapBytes (m : List Nat) (l : Nat) : List Byte :=
  leBytes 128 ((m.filter (fun b => b / 1024 == l)).foldl (fun n b => n + 2 ^ (b % 1024)) 0)

/-- The Separator frame record. [DEDUCED: notes/assumptions/30.md] -/
def State.recordBytes (s : State) (f : Frame) : List Byte :=
  leBytes 4 f.num ++ leBytes 2 f.recFlags ++ leBytes 1 f.binFine ++ leBytes 1 f.lanes ++ leBytes 4 f.points
    ++ leBytes 4 (s.bankSites f.fineBank) ++ leBytes 4 (s.bankSites f.coarseBank) ++ leBytes 4 f.excluded
    ++ leBytes 4 f.outOfGrid ++ leBytes 4 f.dropped ++ leBytes 4 f.noPose ++ leBytes 1 f.carried ++ leBytes 27 0
    ++ (List.range 8).flatMap (fun l => mapBytes f.seen l ++ mapBytes f.lost l)

/-- Lanes whose MODE is not OFF (Table 6-5). -/
def State.lanesOn (s : State) : Nat := ((List.range 8).filter s.laneOn).foldl (fun n l => n + 2 ^ l) 0

/-- Binning of the frame in compute is complete, or frozen at 400 µs (R32, R43, R285): points left over are discarded, the maps
and counts freeze, and the frame record is written (R591). [DEDUCED: notes/assumptions/30.md] -/
def State.freezeFrame (s : State) (f : Frame) : State :=
  let s := s.dropPoints f.num
  let f := { f with frozen := true, staged := [], lanes := if f.freeRun then 0 else s.lanesOn }
  let s := s.updFrame f.num (fun _ => f)
  (s.writeOut (resultAddr f.set 0x40) (s.recordBytes f)).event 0x040 0

/-! ## Thinning and commit (R280, R281) -/

/-- The corner of a source site at level `k` within its target site at level `t` (Table 6-2): x, y and z offsets. -/
def cornerIn (k t key : Nat) : Nat × Nat × Nat :=
  let w := 128 * 2 ^ k
  let m := 2 ^ (t - k)
  (keyX key % m * w, keyY key % m * w,
    if t < 2 then 0 else if t = 2 then (if k < 2 then 128 * (keyZ key % 2) else 0)
    else if k < 2 then 128 * keyZ key else if k = 2 then 256 * keyZ key else 0)

/-- The key at level `t` of a site at level `k` (Table 6-2). -/
def keyUp (k t key : Nat) : Nat :=
  let m := 2 ^ (t - k)
  packKey (keyX key / m) (keyY key / m)
    (if t < 2 then keyZ key else if t = 2 then (if k < 2 then keyZ key / 2 else keyZ key) else 0)

/-- One source site is thinned into the target bank. [DEDUCED: notes/assumptions/43.md] -/
def State.thinSite (s : State) (src dst k t : Nat) (e : DirEntry) : State :=
  let r := s.fetch (s.sep.summaryAddr src e.index) 32
  let s := r.2
  let b := r.1.bytes
  let g := fun (o n : Nat) => leNat ((b.drop o).take n)
  let c := g 4 4
  let o := cornerIn k t e.key
  let key := keyUp k t e.key
  let w := s.dirRead dst key
  let s := w.2
  let con := summaryBytes key c ((g 8 4 + c * o.1) % 2 ^ 32) ((g 0xC 4 + c * o.2.1) % 2 ^ 32) ((g 0x10 6 + c * o.2.2) % 2 ^ 48)
    (g 0x16 1) (t * 32) (signed 16 (g 0x18 2)) (signed 16 (g 0x1A 2))
  if (s.bank dst).full s.tileCount key then s.bumpBy F.SEP_SITE_DROP_CNT c
  else
    let q := s.putSite dst key con
    if r.1.poison || q.1.2 || w.1 then q.2.sepFault else q.2

/-- THINNING_DONE: the finer bank holds the target level and the coarser bank is free (R280). [DEDUCED: notes/assumptions/43.md] -/
def State.thin (s : State) (f : Frame) : State :=
  match f.fineBank, f.coarseBank with
  | some fb, some cb =>
    let k := f.binFine + 1
    let s := s.setBank fb { use := 2, level := f.level, frame := f.num }
    let s := (s.bank cb).entries.foldl (fun (s : State) e => s.thinSite cb fb k f.level e) s
    (s.setBank cb {}).updFrame f.num (fun f => { f with thinDone := true, coarseBank := none })
  | some _, none => s.updFrame f.num (fun f => { f with thinDone := true })
  | none, _ => s.updFrame f.num (fun f => { f with thinDone := true })

/-- The bank of the admitted level. -/
def Frame.admittedBank (f : Frame) : Option Nat := if f.thinned || f.level == f.binFine then f.fineBank else f.coarseBank

/-- The other bank. -/
def Frame.otherBank (f : Frame) : Option Nat := if f.thinned || f.level == f.binFine then f.coarseBank else f.fineBank

/-- DIRECTORY_COMMIT_DONE: the admitted bank is in probe form, and the frame's other bank is free (R281). -/
def State.commit (s : State) (f : Frame) : State :=
  let keep := f.admittedBank
  let s := s.freeBank f.otherBank
  let s := match keep with | some b => s.setBank b { s.bank b with use := 3 } | none => s
  s.updFrame f.num (fun f => { f with committed := true, fineBank := keep, coarseBank := none })

/-! ## The commands -/

/-- POINT_ACCEPT (R257). -/
def execPointAccept (dt : Nat) (s : State) : Host.Outcome State Fault Refusal := .next ((s.arrive dt).pointAccept)

/-- POSE_PUSH: POSE_CMD with PUSH = 1 (R260). -/
def execPosePush (dt w : Nat) (s : State) : Host.Outcome State Fault Refusal := .next ((s.arriveBy dt w).writePoseCmd w 1)

/-- POSE_CLEAR: POSE_CMD with CLEAR = 1 (Table 6-9). -/
def execPoseClear (dt w : Nat) (s : State) : Host.Outcome State Fault Refusal := .next ((s.arriveBy dt w).writePoseCmd w 2)

end Sys2Proof.Machine
end

