-- ==== Sys2Proof/Machine/SparseConv.lean ====
section
/-! DEFINITION. Sparse convolution and the bird's-eye map (spec/08_sparse_convolution.md). -/

namespace Sys2Proof.Machine

/-! ## Running stages -/

/-- A running stage by number. -/
def State.runStage (s : State) (n : Nat) : Option RunStage := s.frm.running.find? (fun r => r.stage == n)

/-- Byte offset of a stage's descriptor at level `l`. -/
def Plan.descOff (p : Plan) (r : StageRec) (l : Nat) : Nat := p.hdr.progOff + r.descs.getD l 0

/-- A stage is ready: it runs at the level, is not started, and its dependencies are complete (R140, R379).
[DEDUCED: notes/assumptions/32.md] -/
def State.ready (s : State) (f : Frame) (x : Nat × StageRec) : Bool :=
  bitOf x.2.levels f.level && !f.stageDone x.1 && (s.runStage x.1).isNone && x.2.deps.all f.stageDone

/-- A running stage is updated. -/
def State.updRun (s : State) (n : Nat) (f : RunStage → RunStage) : State :=
  s.updFrm (fun r => { r with running := r.running.map (fun x => if x.stage = n then f x else x) })

/-- The first error code a stage's parts report is kept (R381). -/
def State.stageCode (s : State) (n code : Nat) : State :=
  s.updRun n (fun r => if r.code = 0 then { r with code := code } else r)

/-- A stage writes bytes; the extents an OUTPUT stage writes are kept. -/
def State.stageWrite (s : State) (r : RunStage) (d : Nat) (bs : List Byte) : State :=
  if r.output then
    (s.writeOut (r.place d) bs).updRun r.stage (fun x => { x with outs := x.outs ++ [(r.place d, bs.length)] })
  else s.write d bs

/-! ## Site sets (R330 to R333) -/

/-- Sites with their partitions and ranks, for entries in the order of their site index (R333). [DEDUCED: notes/assumptions/47.md] -/
def rankSites (tiles : Nat) : List (Nat × Nat) → List DirEntry → List Site
  | _, [] => []
  | cnt, e :: t =>
    let j := partitionOf tiles e.key
    let r := match cnt.find? (fun x => x.1 == j) with | some x => x.2 | none => 0
    ⟨e.key, j, r, e.index⟩ :: rankSites tiles ((j, r + 1) :: cnt) t

/-- The bank of set 0: the one committed for the frame in compute. -/
def State.set0Bank (s : State) : Option Nat :=
  match s.frm.compute with | some f => if f.committed then f.fineBank else none | none => none

/-- Set 0: the committed bank (R330). -/
def State.set0 (s : State) : List Site :=
  match s.set0Bank with
  | some b => rankSites s.tileCount [] (s.bank b).entries
  | none => []

/-- A derived set by number. -/
def State.derived (s : State) (k : Nat) : Option DerivedSet := s.scv.sets.find? (fun d => d.id == k)

/-- The sites of a set. -/
def State.sitesOf (s : State) (k : Nat) : List Site :=
  if k = 0 then s.set0 else match s.derived k with | some d => d.sites | none => []

/-- The geometry of a set (Table 8-1): x and y scale in L0 cells, and the extents. -/
structure SetGeo where
  xs : Nat
  ys : Nat
  ex : Nat
  ey : Nat
  ez : Nat
  deriving DecidableEq, Repr

/-- Set 0 at level `l` (Table 8-1). -/
def geo0 (l : Nat) : SetGeo :=
  ⟨2 ^ l, 2 ^ l, 4096 / 2 ^ l, 4096 / 2 ^ l, if l < 2 then 160 else if l = 2 then 80 else 1⟩

/-- A derived set from its parent's geometry (Table 8-1). -/
def SetGeo.derive (g : SetGeo) (sx sy sz : Nat) : SetGeo :=
  ⟨g.xs * sx, g.ys * sy, ceilDiv g.ex sx, ceilDiv g.ey sy, ceilDiv g.ez sz⟩

/-- The geometry of a set at level `l`. -/
def State.geoOf (s : State) (l k : Nat) : SetGeo :=
  if k = 0 then geo0 l else match s.derived k with | some d => ⟨d.xs, d.ys, d.ex, d.ey, d.ez⟩ | none => geo0 l

/-- Rows per slice of a Cellar tensor of a set (R345). -/
def State.capp (s : State) (k : Nat) : Nat :=
  if k = 0 then 16384 else match s.derived k with | some d => d.quota * 1024 | none => 0

/-- Width of a weight in half bytes. -/
def weightHalves (wf : Nat) : Nat := if wf = 4 then 1 else 2 * fmtBytes wf

/-- The code of weight `i` of a weight array: INT4 has the lower index in bits 3:0 (R343). -/
def weightAt (wf : Nat) (b : List Byte) (i : Nat) : Nat :=
  if wf = 4 then natBits (fieldOf b (i / 2) 1) (i % 2 * 4 + 3) (i % 2 * 4) else fieldOf b (i * fmtBytes wf) (fmtBytes wf)

/-- Where a row of a set's tensor lies (R345, R346). -/
def State.rowAddr (s : State) (place loc rb : Nat) (x : Site) : Nat :=
  if place = 0 then cellarAddr (s.partitionTile x.part) (loc + x.rank * rb) else loc + x.index * rb

/-! ## Probes (R336, R337) -/

/-- Probes counted in units of 65,536. [DEDUCED: notes/assumptions/47.md] -/
def State.countProbe (s : State) : State :=
  if s.scv.probes = 65535 then (s.updScv (fun v => { v with probes := 0 })).bump F.SCV_PROBE_CNT
  else s.updScv (fun v => { v with probes := v.probes + 1 })

/-- A probe of set `k` for signed coordinates: none outside the extent, which is not probed (R337). -/
def State.probe (s : State) (g : SetGeo) (sites : List Site) (k : Nat) (x y z : Int) : Option Site × State :=
  if 0 ≤ x ∧ x < (g.ex : Int) ∧ 0 ≤ y ∧ y < (g.ey : Int) ∧ 0 ≤ z ∧ z < (g.ez : Int) then
    let key := packKey x.toNat y.toNat z.toNat
    let r := match (if k = 0 then s.set0Bank else none) with
      | some b => s.dirRead b key
      | none => s.tableRead (partitionOf s.tileCount key) 0x60000 0x40000
    let s := r.2.countProbe
    let s := if r.1 then (if k = 0 then s.sepFault else if (s.page 0x060).cond.fault then s else s.scvFault) else s
    (sites.find? (fun e => e.key == key), s)
  else (none, s)

/-! ## Convolution (R340, R341) -/

/-- lo_a = -floor((k - s) / 2). -/
def kernelLo (k s : Nat) : Int := -(((k : Int) - s) / 2)

/-- The input coordinate on one axis for output coordinate `o` and offset `d`; none where it is no integer (R340). -/
def inputCoord (op k s o d : Nat) : Option Int :=
  let lo := kernelLo k s
  if op = 2 then
    let q : Int := (o : Int) - lo - d
    if q % (s : Int) = 0 then some (q / (s : Int)) else none
  else some ((s : Int) * o + lo + d)

/-- The accumulators of one output site over the kernel positions `ks`: one per output channel, with the poison met. -/
def State.convTaps (s : State) (c : ConvDesc) (r : RunStage) (g : SetGeo) (sites : List Site) (w : List Byte) (o : Site) :
    List Nat → List Acc → Bool → (List Acc × Bool) × State
  | [], acc, bad => ((acc, bad), s)
  | kk :: rest, acc, bad =>
    let dx := kk % c.kx
    let dy := kk / c.kx % c.ky
    let dz := kk / (c.kx * c.ky)
    match inputCoord c.op c.kx c.sx (keyX o.key) dx, inputCoord c.op c.ky c.sy (keyY o.key) dy,
        inputCoord c.op c.kz c.sz (keyZ o.key) dz with
    | some x, some y, some z =>
      let p := s.probe g sites c.inSet x y z
      match p.1 with
      | none => State.convTaps p.2 c r g sites w o rest acc bad
      | some q =>
        let e := fmtBytes c.prec
        let f := p.2.fetch (r.place (p.2.rowAddr c.inPlace c.inLoc c.rbIn q)) (c.cin * e)
        let a := (List.range c.cin).map (fun i => fieldOf f.1.bytes (i * e) e)
        let wf := weightFmt c.prec c.wfmt
        let acc := (List.range c.cout).zip acc |>.map (fun x =>
          x.2.mac c.prec wf a ((List.range c.cin).map (fun ci => weightAt wf w ((kk * c.cout + x.1) * c.cin + ci))))
        State.convTaps f.2 c r g sites w o rest acc (bad || f.1.poison)
    | some _, some _, none => State.convTaps s c r g sites w o rest acc bad
    | some _, none, _ => State.convTaps s c r g sites w o rest acc bad
    | none, _, _ => State.convTaps s c r g sites w o rest acc bad

/-- SCV_DATA_ERROR for a zeroed row (R364); the stage completes with it. -/
def State.scvDataError (s : State) (n : Nat) : State := (s.bump F.SCV_DATA_ERR_CNT).stageCode n 0x5015

/-- The output row of one site is computed and written (R340, R347, R364). -/
def State.convRow (s : State) (c : ConvDesc) (r : RunStage) (g : SetGeo) (sites : List Site) (w : Rd) (o : Site) : State :=
  let q := s.convTaps c r g sites w.bytes o (List.range c.taps) (List.replicate c.cout (Acc.zero c.prec)) false
  let s := q.2
  let wb := (c.taps * c.cout * c.cin * weightHalves (weightFmt c.prec c.wfmt) + 1) / 2
  let e := fmtBytes c.outFmt
  let k := s.free
  let row := (List.range c.cout).zip q.1.1 |>.flatMap (fun x =>
    leBytes e (epilogue c.outFmt (c.act == 1) false ((w.bytes.drop (wb + 8 * x.1)).take 8) (Config.freeAt k x.1) x.2))
  let s := s.drawFree
  let bad := q.1.2 || w.poison
  let bytes := if bad then List.replicate c.rbOut 0 else (row ++ List.replicate c.rbOut 0).take c.rbOut
  let s := s.stageWrite r (s.rowAddr c.outPlace c.outLoc c.rbOut o) bytes
  if bad then s.scvDataError r.stage else s

/-! ## Chunks (R350) -/

/-- The partitions in ascending order. -/
def partitions (sites : List Site) : List Nat := (sites.foldl (fun l x => insertNat x.part l) [])

/-- Sites of a partition in rank order: as listed, for ranks rise with the listing. -/
def inPart (sites : List Site) (j : Nat) : List Site := sites.filter (fun x => x.part == j)

/-- The chunks of an output set in ascending (partition, rank) order: up to 64 consecutive ranks of one partition (R350). -/
def chunksOf (sites : List Site) : List (List Site) :=
  (partitions sites).flatMap (fun j =>
    let l := inPart sites j
    (List.range (ceilDiv l.length 64)).map (fun k => (l.drop (64 * k)).take 64))

/-- The weights and epilogue of a stage, multicast once before its first chunk (R350). -/
def State.loadWeights (s : State) (c : ConvDesc) (r : RunStage) : Rd × State :=
  match r.weights with
  | some w => (w, s)
  | none =>
    let f := s.fetch (r.place c.wAddr) c.wBytes
    (f.1, f.2.updRun r.stage (fun x => { x with weights := some f.1 }))

/-- A chunk may be complete: it is none of those done, and the earlier ones still under way fit on the stage's other tiles, for chunks
are dealt in ascending order to the tiles that become free (R350). [DEDUCED: notes/assumptions/47.md] -/
def chunkOpen (count tiles : Nat) (done : List Nat) (k : Nat) : Bool :=
  Nat.blt k count && !done.contains k && Nat.blt ((List.range k).filter (fun i => !done.contains i)).length (max 1 tiles)

/-- The chunks of a list that complete one after another. -/
def chunkOrder (count tiles : Nat) : List Nat → List Nat → List Nat
  | _, [] => []
  | done, k :: t =>
    if chunkOpen count tiles done k then k :: chunkOrder count tiles (k :: done) t else chunkOrder count tiles done t

/-- The chunks named are computed; the stage's unit has finished when every chunk is done. The MAC-busy cycles of its tiles are free.
[DEDUCED: notes/assumptions/47.md] -/
def State.convChunks (s : State) (c : ConvDesc) (r : RunStage) (outSites : List Site) (names : List Nat) : State :=
  let w := s.loadWeights c r
  let s := w.2
  let g := s.geoOf r.level c.inSet
  let sites := s.sitesOf c.inSet
  let all := chunksOf outSites
  let todo := chunkOrder all.length r.tiles.length r.chunks names
  let s := todo.foldl (fun (s : State) k =>
    ((all.getD k []).foldl (fun (s : State) o => s.convRow c r g sites w.1 o) s).updRun r.stage (fun x => { x with chunks := x.chunks ++ [k] })) s
  let s := if todo = [] then s else r.tiles.foldl (fun (s : State) t => (s.bumpBy (F.TILE_MAC_BUSY_CNT t) (s.freeVal % 4096)).drawFree) s
  s.updRun r.stage (fun x => { x with unitDone := decide (all.length ≤ x.chunks.length) })

/-! ## Derived sets (R338, R339) -/

/-- Sites of a set in ascending (partition, rank) order. -/
def byPartition (sites : List Site) : List Site := (partitions sites).flatMap (inPart sites)

/-- What a creation pass carries: the sites created, and the keys not created. -/
structure Making where
  sites : List Site := []
  dropped : List Nat := []
  deriving DecidableEq, Repr

/-- One source site creates its output site, unless it exists or its partition is full (R338, R339). -/
def Making.add (m : Making) (tiles quota key : Nat) : Making :=
  if m.sites.any (fun x => x.key == key) || m.dropped.contains key then m
  else
    let j := partitionOf tiles key
    let r := (m.sites.filter (fun x => x.part == j)).length
    if quota * 1024 ≤ r then { m with dropped := m.dropped ++ [key] }
    else { m with sites := m.sites ++ [⟨key, j, r, quota * 1024 * j + r⟩] }

/-- A STRIDED stage creates its set (R338, R339), once. -/
def State.makeSet (s : State) (c : ConvDesc) (r : RunStage) : State :=
  match s.derived c.outSet with
  | some _ => s
  | none =>
    let g := (s.geoOf r.level c.inSet).derive c.sx c.sy c.sz
    let m := (byPartition (s.sitesOf c.inSet)).foldl (fun (m : Making) x =>
      m.add s.tileCount c.quota (packKey (keyX x.key / c.sx) (keyY x.key / c.sy) (keyZ x.key / c.sz))) {}
    let d : DerivedSet :=
      { id := c.outSet, stage := r.stage, parent := c.inSet, sx := c.sx, sy := c.sy, sz := c.sz, quota := c.quota,
        xs := g.xs,
        ys := g.ys, ex := g.ex, ey := g.ey, ez := g.ez, sites := m.sites }
    let s := s.updScv (fun v => { v with sets := v.sets ++ [d] })
    let s := (s.setFld F.SCV_SET_VALID_SETS (setBit (s.fld F.SCV_SET_VALID_SETS) c.outSet)).setFld (F.SCV_SET_SITES c.outSet) m.sites.length
    let s := s.setFld F.SCV_POOL_USED_UNITS (s.fld F.SCV_POOL_USED_UNITS + c.quota)
    match m.dropped with
    | [] => s
    | l =>
      let s := s.bumpBy F.SCV_SET_OVF_CNT l.length
      if s.flag F.SCV_FRAME_FLAGS_SET_OVF then s
      else ((s.setFld F.SCV_FRAME_FLAGS_SET_OVF 1).error 0x060 0xA00D 0).event 0x060 1

/-! ## The scatter (R353 to R355) -/

/-- A site's place in the map: column, row and slot, or the counter its drop counts in (R353). -/
inductive BevPlace where
  | cell (u v z : Nat)
  | clip
  | zdrop
  deriving DecidableEq, Repr

/-- R353. -/
def bevPlace (d : BevDesc) (g : SetGeo) (key : Nat) : BevPlace :=
  let u : Int := (keyX key * g.xs / 2 ^ d.scale : Nat) - (d.u0 : Int)
  let v : Int := (keyY key * g.ys / 2 ^ d.scale : Nat) - (d.v0 : Int)
  let z := if d.zmode = 1 then keyZ key else 0
  if 0 ≤ u ∧ u < (d.w : Int) ∧ 0 ≤ v ∧ v < (d.h : Int) then
    if z < d.slots then .cell u.toNat v.toNat z else .zdrop
  else .clip

/-- The greatest of the values of an element, NaN among them giving NaN (R355). -/
def bevMax : List Fnum → Fnum
  | [] => .fin 0 0
  | [x] => x
  | x :: t =>
    let y := bevMax t
    if x == .nan || y == .nan then .nan else if x.lt y then y else x

/-- The code of an element over the codes that reach it (R355); where zeros of both signs are its maximum, the sign is free. [DEDUCED: notes/assumptions/45.md] -/
def bevElement (d : BevDesc) (v : Nat) (codes : List Nat) : Nat :=
  if d.reduce = 0 then
    let m := bevMax (codes.map (numOf d.fmt))
    let m := if d.act = 1 then m.relu else m
    let zeros := codes.filter (fun c => (numOf d.fmt c).isZero)
    if m = .fin 0 0 ∧ d.act = 1 then 0
    else if m.isZero && zeros.all (· == zeros.headD 0) then zeros.headD 0
    else codeOf d.fmt true v m
  else if 46 < d.shift then v % 256
  else
    let sum := (codes.map (signed 8)).foldl (· + ·) (0 : Int)
    let num := sum * (d.mult : Int)
    let den := 2 ^ d.shift * (if d.reduce = 2 then codes.length else 1)
    let fl := num / (den : Int)
    let r := 2 * (num - fl * den)
    let x := if r < (den : Int) then fl else if (den : Int) < r then fl + 1 else if fl % 2 = 0 then fl else fl + 1
    let x := if d.act = 1 ∧ x < 0 then 0 else x
    unsigned 8 (clampInt (-128) 127 x)

/-- The bytes of one slot of a cell over the rows that reach it: zero bytes with no site, or with poisoned data (R354, R364). -/
def bevSlot (d : BevDesc) (k : Nat) (rows : List Rd) : List Byte :=
  if rows.isEmpty || rows.any (·.poison) then List.replicate (d.c * d.width) 0
  else (List.range d.c).flatMap (fun c =>
    leBytes d.width (bevElement d (Config.freeAt k c) (rows.map (fun r => fieldOf r.bytes (c * d.width) d.width))))

/-- The rows of the sites of one slot are read. -/
def State.bevRows (s : State) (d : BevDesc) (r : RunStage) : List Site → List Rd × State
  | [] => ([], s)
  | x :: t =>
    let f := s.fetch (r.place (s.rowAddr d.inPlace d.inLoc d.rbIn x)) (d.c * d.width)
    let q := State.bevRows f.2 d r t
    (f.1 :: q.1, q.2)

/-- One cell of the map is written whole. [DESIGN CHOICE: notes/assumptions/9.md] -/
def State.bevCell (s : State) (d : BevDesc) (r : RunStage) (placed : List (BevPlace × Site)) (u v : Nat) : State :=
  let one := fun (a : List Byte × State) (z : Nat) =>
    let q := a.2.bevRows d r ((placed.filter (fun p => p.1 == .cell u v z)).map (·.2))
    let k := q.2.free
    let s := q.2.drawFree
    let s := if q.1.any (·.poison) then s.scvDataError r.stage else s
    (a.1 ++ bevSlot d k q.1, s)
  let a := (List.range d.slots).foldl one ([], s)
  a.2.stageWrite r (d.map + (v * d.w + u) * d.cell) ((a.1 ++ List.replicate d.cell 0).take d.cell)

/-- BEV_SCATTER: the whole map is written; the scratch area is left unspecified (R353 to R355). -/
def State.bevScatter (s : State) (d : BevDesc) (r : RunStage) : State :=
  let g := s.geoOf r.level d.inSet
  let placed := (s.sitesOf d.inSet).map (fun x => (bevPlace d g x.key, x))
  let clip := (placed.filter (fun p => p.1 == .clip)).length
  let s := s.bumpBy F.SCV_BEV_CLIP_CNT clip
  let s := if clip = 0 then s else s.event 0x060 3
  let s := s.bumpBy F.SCV_BEV_ZDROP_CNT (placed.filter (fun p => p.1 == .zdrop)).length
  let s := (List.range d.h).foldl (fun (s : State) v => (List.range d.w).foldl (fun (s : State) u => s.bevCell d r placed u v) s) s
  let s := if d.reduce = 0 then s else s.scramble false d.scratch (d.w * d.h * d.scratchCell)
  s.updRun r.stage (fun x => { x with unitDone := true })

/-! ## The commands -/

/-- A running KIND 1 stage that has work left, with its descriptor. [DEDUCED: notes/assumptions/47.md] -/
def State.convStage (s : State) (n op : Nat) : Option (RunStage × ConvDesc) :=
  match s.runStage n with
  | some r =>
    let c := convDesc (s.read r.desc 64).bytes
    if r.kind = 1 ∧ r.unitDone = false ∧ r.stopped = false ∧ c.op = op ∧ (s.page 0x060).cond.fault = false ∧ (s.page 0x060).cond.frozen = false then some (r, c) else none
  | none => none

/-- SCV_SUBM: the chunks named of a submanifold stage are computed (R340). -/
def State.scvSubm (s : State) (n : Nat) (chunks : List Nat) : State :=
  match s.convStage n 0 with
  | some (r, c) => s.byAgent (.stage n) (fun s => (s.touch r.desc 64).convChunks c r (s.sitesOf c.inSet) chunks)
  | none => s

/-- SCV_STRIDED: the set is created, and the chunks named are computed (R338, R340). -/
def State.scvStrided (s : State) (n : Nat) (chunks : List Nat) : State :=
  match s.convStage n 1 with
  | some (r, c) => s.byAgent (.stage n) (fun s => let s := (s.touch r.desc 64).makeSet c r; s.convChunks c r (s.sitesOf c.outSet) chunks)
  | none => s

/-- SCV_INVERSE: the chunks named of an inverse stage are computed on the parent set (R340). -/
def State.scvInverse (s : State) (n : Nat) (chunks : List Nat) : State :=
  match s.convStage n 2 with
  | some (r, c) => s.byAgent (.stage n) (fun s => (s.touch r.desc 64).convChunks c r (s.sitesOf c.outSet) chunks)
  | none => s

/-- BEV_SCATTER: a running scatter stage writes its map (R353). [DEDUCED: notes/assumptions/47.md] -/
def State.bevStage (s : State) (n : Nat) : State :=
  match s.runStage n with
  | some r =>
    if r.kind = 2 ∧ r.unitDone = false ∧ r.stopped = false ∧ (s.page 0x060).cond.fault = false ∧ (s.page 0x060).cond.frozen = false then
      s.byAgent (.stage n) (fun s => (s.touch r.desc 64).bevScatter (bevDesc (s.read r.desc 64).bytes) r)
    else s
  | none => s

/-- SCV_SUBM (R340). -/
def execScvSubm (dt stage : Nat) (chunks : List Nat) (s : State) : Host.Outcome State Fault Refusal :=
  .next ((s.arrive dt).scvSubm stage chunks)

/-- SCV_STRIDED (R338). -/
def execScvStrided (dt stage : Nat) (chunks : List Nat) (s : State) : Host.Outcome State Fault Refusal :=
  .next ((s.arrive dt).scvStrided stage chunks)

/-- SCV_INVERSE (R340). -/
def execScvInverse (dt stage : Nat) (chunks : List Nat) (s : State) : Host.Outcome State Fault Refusal :=
  .next ((s.arrive dt).scvInverse stage chunks)

/-- BEV_SCATTER (R353). -/
def execBevScatter (dt stage : Nat) (s : State) : Host.Outcome State Fault Refusal :=
  .next ((s.arrive dt).bevStage stage)

end Sys2Proof.Machine
end

