-- ==== Sys2Proof/Machine/StageEnd.lean ====
section
/-! DEFINITION. The end of a stage: its bits in the result buffer, the counters of its unit and the error it reports (R365, R381, R382,
R590, R591). -/

namespace Sys2Proof.Machine

/-! ## Result-buffer bits (R590, R591) -/

/-- Bit `stage` of OUT_DONE (base 0x880) or OUT_FAIL (base 0x900) of a set is set. -/
def State.outBit (s : State) (set base stage : Nat) : State :=
  let a := resultAddr set (base + stage / 8)
  s.writeOut a [BitVec.ofNat 8 (setBit (s.peekByte a).toNat (stage % 8))]

/-! ## The end of a stage -/

/-- Counters and STATE of SCV at the end of a KIND 1 or KIND 2 stage (R365); a data error is recorded on its page (R364). -/
def State.scvEnd (s : State) (r : RunStage) (code : Nat) : State :=
  if r.kind = 1 ∨ r.kind = 2 then
    let s := (s.bump F.SCV_STAGE_CNT).event 0x060 0
    let s := if code = 0 then s
      else (((s.bump F.SCV_STAGE_ERR_CNT).setFld F.SCV_LAST_ERR_CODE code).setFld F.SCV_LAST_ERR_STAGE r.stage).event 0x060 2
    let s := if code = 0x5015 then s.error 0x060 code (word r.stage) else s
    let busy := s.frm.running.any RunStage.scvRuns
    s.updCond 0x060 (fun c => { c with running := busy })
  else s

/-- A stage of the frame in compute completes with a code (R381, R382, R591). [DEDUCED: notes/assumptions/32.md] -/
def State.endStage (s : State) (r : RunStage) (code : Nat) : State :=
  match s.frm.compute with
  | none => s
  | some f =>
    let n := r.stage
    let s := s.updFrm (fun q => { q with running := q.running.filter (fun x => x.stage != n) })
    let s := r.tiles.foldl (fun (s : State) t => s.releaseTile t) s
    let s := s.scvEnd r code
    let s := if code ≠ 0 ∧ r.output = true then r.outs.foldl (fun (s : State) w => s.scramble true w.1 w.2) s else s
    let s := s.outBit f.set (if code = 0 then 0x880 else 0x900) n
    let before := f.validBelow
    let s :=
      if code = 0 then s.updFrame f.num (fun f => { f with okStages := insertNat n f.okStages })
      else
        let s := s.updFrame f.num (fun f =>
          if f.errCode = 0 then { f with errStages := insertNat n f.errStages, errCode := code, errStage := n }
          else { f with errStages := insertNat n f.errStages })
        (s.error 0x010 code (word n)).bump F.FRM_STAGE_ERR_CNT
    match s.frm.compute with
    | some g => if g.validBelow = before then s else s.statusFollowers f.num
    | none => s

end Sys2Proof.Machine
end

