-- ==== Sys2Proof/Machine/Etu.lean ====
section
/-! DEFINITION. Embedding tables: rows and their places, dequantization, pooling, jobs, commands, the row cache and migration
(spec/11_embedding_tables.md; the Churn operations DEQUANT and POOL of R428). -/

namespace Sys2Proof.Machine

/-! ## Numbers (R428, R461, R474, R493) -/

/-- A float rounded to BF16 once, computed in the wide accumulator: the exact value or its wide rounding first, a free choice where
they differ. -/
def toBf16 (v : Nat) (x : Fnum) : Nat := settle v (codeOf 3 false (v / 2) x) (codeOf 3 false (v / 2) x.wide)

/-- q × SCALE + OFFSET as BF16 (R461). [DEDUCED: notes/assumptions/45.md] -/
def dequant (v : Nat) (scale offset : Nat) (q : Int) : Nat :=
  toBf16 v (((Fnum.fin q 0).mul (numOf 3 scale)).add (numOf 3 offset))

/-- Code `k` of a code row (Table 11-2). -/
def rowCode (fmt : Nat) (b : List Byte) (k : Nat) : Int :=
  if fmt = 0 then signed 8 (fieldOf b (4 + k) 1)
  else signed 4 (natBits (fieldOf b (4 + k / 2) 1) (k % 2 * 4 + 3) (k % 2 * 4))

/-- The BF16 elements of a code row. -/
def rowValues (v fmt elems : Nat) (b : List Byte) : List Nat :=
  (List.range elems).map (fun k => dequant (Config.freeAt v k) (fieldOf b 0 2) (fieldOf b 2 2) (rowCode fmt b k))

/-- a / b rounded to the nearest, ties to even. -/
def roundDiv (a b : Nat) : Nat :=
  let q := a / b
  let r := 2 * (a % b)
  if r < b then q else if b < r then q + 1 else if q % 2 = 0 then q else q + 1

/-- A number over a positive integer, rounded to a 32-bit significand (R373, R428). -/
def Fnum.divNat (x : Fnum) (n : Nat) : Fnum :=
  match x with
  | .fin m e =>
    if m = 0 then .fin 0 0
    else
      let a := m.natAbs
      let k0 : Int := 32 - ((bitLen a : Int) - (bitLen n : Int))
      let q0 := a * 2 ^ k0.toNat / (n * 2 ^ (-k0).toNat)
      let k : Int := if q0 < 2 ^ 32 then k0 else k0 - 1
      .fin (m.sign * (roundDiv (a * 2 ^ k.toNat) (n * 2 ^ (-k).toNat) : Nat)) (e - k)
  | .inf a => .inf a
  | .nan => .nan

/-- The POOL result over rows of BF16 elements (R428): mode 0 SUM, 1 MEAN, 2 MAX. [DEDUCED: notes/assumptions/45.md] -/
def poolElem (v mode : Nat) (xs : List Nat) : Nat :=
  let ys := xs.map (numOf 3)
  if mode = 2 then codeOf 3 false v (bevMax ys)
  else
    let sum := ys.foldl (fun (a x : Fnum) => (a.add x).wide) (.fin 0 0)
    codeOf 3 false v (if mode = 1 then sum.divNat xs.length else sum)

/-- The pooled row. -/
def poolRows (v mode elems : Nat) (rows : List (List Nat)) : List Nat :=
  (List.range elems).map (fun k => poolElem (Config.freeAt v k) mode (rows.map (fun r => r.getD k 0)))

/-- A BF16 element as INT32 lanes take it (R474): clamp(rne(x × 2^FRAC_BITS)); NaN becomes 0. -/
def updLane (frac b : Nat) : Int :=
  match numOf 3 b with
  | .nan => 0
  | .inf a => if a then -(2 ^ 31) else 2 ^ 31 - 1
  | .fin m e =>
    let p := e + (frac : Int)
    let i := if p < 0 then (if 200 < -p then 0 else rneShift m (-p).toNat) else if 40 < p then m * 2 ^ 40 else m * ((2 ^ p.toNat : Nat) : Int)
    clampInt (-(2 ^ 31)) (2 ^ 31 - 1) i

/-- A BF16 code is a NaN; or an infinity or a NaN. -/
def isNan (b : Nat) : Bool := numOf 3 b == .nan
def nonFinite (b : Nat) : Bool := natBits b 14 7 == 255

/-- The least element by value. -/
def leastOf : List Fnum → Fnum
  | [] => .fin 0 0
  | [x] => x
  | x :: t => let y := leastOf t; if y.lt x then y else x

/-- rne(n / d) of two numbers, clamped to ±q; with the wide rounding of the numerator and the quotient as the other reading (R493). -/
def quotCode (v q : Nat) (n d : Fnum) : Int :=
  let one := fun (x : Fnum) => match x, d with
    | .fin a e, .fin b f =>
      let neg := decide (a < 0) != decide (b < 0)
      let num := a.natAbs * 2 ^ (e - f).toNat
      let den := b.natAbs * 2 ^ (f - e).toNat
      let r : Int := roundDiv num den
      clampInt (-(q : Int)) q (if neg then -r else r)
    | .fin _ _, .inf _ => 0
    | .fin _ _, .nan => 0
    | .inf _, _ => 0
    | .nan, _ => 0
  let a := one n
  let b := one n.wide
  if a = b ∨ v % 2 = 0 then a else b

/-- SCALE, OFFSET and the codes of the code row of a finite master row, packed (R493, Table 11-2).
[DEDUCED: notes/assumptions/50.md] -/
def requantRow (v fmt elems : Nat) (m : List Nat) : List Byte :=
  let xs := m.map (numOf 3)
  let lo := leastOf xs
  let hi := bevMax xs
  let q := if fmt = 0 then 127 else 7
  let offset := toBf16 (Config.freeAt v 0) ((hi.add lo).mul (.fin 1 (-1)))
  let scale := codeOf 3 false (Config.freeAt v 1) ((hi.add lo.neg).divNat (2 * q))
  let codes := xs.zip (List.range elems) |>.map (fun x =>
    if numOf 3 scale = .fin 0 (-133) ∨ numOf 3 scale = .fin 0 0 then 0
    else quotCode (Config.freeAt v (2 + x.2)) q (x.1.add (numOf 3 offset).neg) (numOf 3 scale))
  let body := if fmt = 0 then codes.map (fun c => BitVec.ofNat 8 (unsigned 8 c))
    else (List.range (elems / 2)).map (fun i => BitVec.ofNat 8 (unsigned 4 (codes.getD (2 * i) 0) + 16 * unsigned 4 (codes.getD (2 * i + 1) 0)))
  leBytes 2 scale ++ leBytes 2 offset ++ body

/-- The code row of a master row (R493). Of a master row with an infinity or a NaN, which REPLACE may bring, R493 states no result:
the bytes are free values. [DESIGN CHOICE: notes/assumptions/82.md] -/
def requantize (v fmt elems rowBytes : Nat) (m : List Nat) : List Byte :=
  let n := if fmt = 0 then 4 + elems else 4 + elems / 2
  let row := if m.any nonFinite then (List.range n).map (fun k => BitVec.ofNat 8 (Config.freeAt v k)) else requantRow v fmt elems m
  (row ++ List.replicate rowBytes 0).take rowBytes

/-! ## Tables and places (R460 to R463, R489) -/

/-- A table slot is updated. -/
def State.updTable (s : State) (t : Nat) (f : EtuTable → EtuTable) : State :=
  s.updEtu (fun e => { e with tables := Sparse.set tableDefault e.tables t (f (Sparse.get tableDefault e.tables t)) })

def EtuTable.cache (x : EtuTable) : Bool := bitOf x.flags 0
def EtuTable.migrate (x : EtuTable) : Bool := bitOf x.flags 1
def EtuTable.update (x : EtuTable) : Bool := bitOf x.flags 2
def EtuTable.pause (x : EtuTable) : Bool := bitOf x.flags 3

/-- This node holds shards of the table (R463). [DEDUCED: notes/assumptions/51.md] -/
def State.tableHome (s : State) (x : EtuTable) : Bool := Nat.ble x.nodeBase s.nodeId && Nat.blt s.nodeId (x.nodeBase + x.nodeCount)

/-- Device address of a row's code row. -/
def State.codeAddr (s : State) (t i : Nat) : Nat := let p := s.codePlace t i; shardAddr p.1 p.2

/-- Device addresses of a row's master row and of its row in bank `b`. -/
def EtuTable.masterAddr (x : EtuTable) (i : Nat) : Nat := shardAddr (x.chan i) (x.masterOff + x.slot i * 2 * x.elems)
def EtuTable.bankAddr (x : EtuTable) (b i : Nat) : Nat := shardAddr (x.chan i) (x.sideOff + (b * x.rsh + x.slot i) * 4 * x.elems)

/-- The rows homed on this node, and the k-th of them in ascending index. -/
def State.homedRows (s : State) (x : EtuTable) : Nat :=
  if s.tableHome x then 8 * (x.rows / x.sh) + min 8 (x.rows % x.sh - 8 * (s.nodeId - x.nodeBase)) else 0
def State.homedRow (s : State) (x : EtuTable) (k : Nat) : Nat := k / 8 * x.sh + 8 * (s.nodeId - x.nodeBase) + k % 8

/-! ## The row cache (R482 to R485) -/

/-- A row leaves the cache before its code row is written (R484). -/
def State.uncache (s : State) (t i : Nat) : State := s.updEtu (fun e => { e with cached := e.cached.filter (fun x => !(x.1 == t && x.2 == i)) })

/-- Lines a row of a table takes in the cache. -/
def State.cacheLines (s : State) (t : Nat) : Nat := ceilDiv (s.table t).rowBytes 64

/-- Capacity of the cache in lines (R483). -/
def State.cacheCap (s : State) : Nat := s.fld F.ETU_CFG_CACHE_SHARE * 1024 * s.tileCount

/-- Rows are evicted until the rest fit; which row the cache evicts is its own choice (R482), taken here from a free value.
[DESIGN CHOICE: notes/assumptions/52.md] -/
def evictTo (lines : Nat → Nat) (cap v : Nat) : Nat → List (Nat × Nat) → List (Nat × Nat)
  | 0, l => l
  | f + 1, l =>
    if (l.map (fun x => lines x.1)).foldl (· + ·) 0 ≤ cap then l
    else evictTo lines cap v f (l.eraseIdx (Config.freeAt v f % l.length))

/-- The key of a row among the frequency estimates. -/
def freqKey (t i : Nat) : Nat := t * 2 ^ 32 + i

/-- The frequency estimate of a row (R483). -/
def State.freqOf (s : State) (t i : Nat) : Nat := Sparse.get (fun _ => 0) s.etu.freq (freqKey t i)

/-- Every estimate is halved. -/
def halved (m : Sparse Nat) : Sparse Nat := (m.map (fun x => (x.1, x.2 / 2))).filter (fun x => x.2 != 0)

/-- A lookup of a row counts in its estimate; after each 16 × capacity lookups every estimate is halved (R483). The estimate is kept exact.
[DESIGN CHOICE: notes/assumptions/52.md] -/
def State.countLookup (s : State) (t i : Nat) : State :=
  let n := s.etu.lookups + 1
  let full := Nat.ble (16 * s.cacheCap) n
  s.updEtu (fun e =>
    let m := Sparse.set (fun _ => 0) e.freq (freqKey t i) (Sparse.get (fun _ => 0) e.freq (freqKey t i) + 1)
    { e with freq := if full then halved m else m, lookups := if full then 0 else n })

/-- A row that missed is placed in the cache when its estimate is at least CACHE_ADMIT and exceeds that of every row it evicts (R483).
[DESIGN CHOICE: notes/assumptions/52.md] -/
def State.maybeCache (s : State) (t i : Nat) : State :=
  let n := s.cacheLines t
  let k := s.freqOf t i
  if k < s.fld F.ETU_CFG_CACHE_ADMIT ∨ s.cacheCap < n then s
  else
    let l := evictTo s.cacheLines (s.cacheCap - n) s.freeVal s.etu.cached.length s.etu.cached
    let s := s.drawFree
    if s.etu.cached.all (fun x => l.contains x || Nat.blt (s.freqOf x.1 x.2) k) then s.updEtu (fun e => { e with cached := l ++ [(t, i)] })
    else s

/-! ## Lookups (R461, R467, R468, R484) -/

/-- The key of a row of channel `c` in the load window, and the row it names. -/
def loadKey (c t i : Nat) : Nat := (c * 256 + t) * 2 ^ 32 + i

/-- Lines that a row read takes from a channel count in the load window, for the channel and for the row (R486). -/
def State.countLines (s : State) (c t i n : Nat) : State :=
  let add := fun (m : Sparse Nat) (k : Nat) => Sparse.set (fun _ => 0) m k (Sparse.get (fun _ => 0) m k + n)
  s.updEtu (fun e => { e with lines := add e.lines c, rowLines := add e.rowLines (loadKey c t i) })

/-- What a lookup returns: the BF16 elements, whether the row is lost to an error, and the code it brought. -/
structure RowAns where
  vals : List Nat
  bad : Bool
  code : Nat := 0
  deriving DecidableEq, Repr

/-- A row homed here is looked up, from the cache or from its place; a row that came back lost is not cached (R484, R507). -/
def State.lookupRow (s : State) (t i : Nat) : RowAns × State :=
  let x := s.table t
  let s := s.bump F.ETU_LOOKUP_CNT
  let s := if x.cache then s.countLookup t i else s
  let d := s.codeAddr t i
  let v := s.free
  if x.cache && s.etu.cached.contains (t, i) then
    (⟨rowValues v x.fmt x.elems (s.peek d x.rowBytes), false, 0⟩, (s.bump F.ETU_CACHE_HIT_CNT).drawFree)
  else
    let f := s.fetch d x.rowBytes
    let c := (s.codePlace t i).1
    let s := (f.2.countLines c t i ((d % 64 + x.rowBytes + 63) / 64)).drawFree
    let s := s.bump (F.MEMC_DEQUANT_CNT c)
    let s := if x.cache then
        let s := s.bump F.ETU_CACHE_MISS_CNT
        if f.1.poison then s else s.maybeCache t i
      else s
    (⟨rowValues v x.fmt x.elems f.1.bytes, f.1.poison, 0⟩, s)

/-- The default row (R467): read when it is used, zeros when DEFAULT_ADDR is 0. -/
def State.defaultRow (s : State) (t : Nat) : RowAns × State :=
  let x := s.table t
  let s := (s.bump F.ETU_LOOKUP_CNT).event 0x0D0 2
  if x.dflt = 0 then (⟨List.replicate x.elems 0, false, 0⟩, s)
  else
    let f := s.fetch x.dflt (2 * x.elems)
    (⟨codesAt f.1.bytes x.elems, f.1.poison, 0⟩, f.2)
where
  codesAt (b : List Byte) (n : Nat) : List Nat := (List.range n).map (fun k => fieldOf b (2 * k) 2)

/-- The class of an index (R466): 0 a row, 1 INVALID, 2 MISSING. -/
def EtuTable.index (x : EtuTable) (i : Nat) : Nat := if i = 0xFFFFFFFF then 2 else if x.rows ≤ i then 1 else 0

/-- The OPERANDs of the GATHERs that bring a row of another node: one for each 128 elements (R540). -/
def gatherOps (t i elems : Nat) : List Nat :=
  (List.range (ceilDiv elems 128)).map (fun k =>
    t + i * 2 ^ 8 + (128 * k) * 2 ^ 40 + (min 128 (elems - 128 * k) - 1) * 2 ^ 50)

/-- The answer to a GATHER that an agent has. -/
def State.gathered (s : State) (a : Agent) (o : Nat) : Option GrfAns :=
  s.grf.answers.find? (fun x => x.agent == a && x.ttype == 4 && x.operand == o)

/-- Remote lookups outstanding (R476). -/
def State.remoteLookups (s : State) : Nat :=
  ((s.grf.reqs ++ s.grf.waiting).filter (fun q => q.ttype == 4 || q.ttype == 5)).length

/-- A GATHER is sent unless it is under way or here; at 1,024 outstanding it waits (R476). -/
def State.askGather (s : State) (a : Agent) (node o : Nat) : State :=
  if (s.gathered a o).isSome || (s.grf.reqs ++ s.grf.waiting).any (fun q => q.agent == a && q.ttype == 4 && q.operand == o)
      || Nat.ble 1024 s.remoteLookups then s
  else (s.request { agent := a, ttype := 4, node := node, operand := o }).bump F.ETU_REMOTE_REQ_CNT

/-- The rows that an agent's GATHERs brought are used up. -/
def State.dropRows (s : State) (a : Agent) : State :=
  s.updGrf (fun g => { g with answers := g.answers.filter (fun x => !(x.agent == a && x.ttype == 4)) })

/-- A row homed on another node, from the answers of its GATHERs (R500, R509). -/
def State.remoteRow (s : State) (a : Agent) (t i : Nat) : RowAns × State :=
  let x := s.table t
  let l := (gatherOps t i x.elems).map (fun o => s.gathered a o)
  let vals := l.flatMap (fun g => match g with | some g => (List.range (g.bytes.length / 2)).map (fun k => fieldOf g.bytes (2 * k) 2) | none => [])
  let bad := l.any (fun g => match g with | some g => g.poison || g.code != 0 | none => true)
  let code := match l.find? (fun g => match g with | some g => g.code != 0 | none => false) with
    | some (some g) => g.code
    | some none => 0
    | none => 0
  (⟨if bad then List.replicate x.elems 0 else vals, bad, code⟩, s.bump F.ETU_LOOKUP_CNT)

/-- Every GATHER that the rows named need is asked for; whether all their answers are here. -/
def State.gatherAll (s : State) (a : Agent) (t : Nat) (is : List Nat) : Bool × State :=
  let x := s.table t
  let far := is.filter (fun i => x.index i == 0 && x.node i != s.nodeId)
  let need := far.flatMap (fun i => (gatherOps t i x.elems).map (fun o => (x.node i, o)))
  let s := need.foldl (fun (s : State) q => s.askGather a q.1 q.2) s
  (need.all (fun q => (s.gathered a q.2).isSome), s)

/-- One index of a job is looked up (R467). -/
def State.lookup (s : State) (a : Agent) (t i : Nat) : RowAns × State :=
  let x := s.table t
  if x.index i = 0 then (if x.node i = s.nodeId then s.lookupRow t i else s.remoteRow a t i)
  else s.defaultRow t

/-- The counters of an index that names no row. -/
def State.countIndex (s : State) (x : EtuTable) (i : Nat) : State :=
  if x.index i = 2 then s.bump F.ETU_MISSING_IDX_CNT else if x.index i = 1 then s.bump F.ETU_INVALID_IDX_CNT else s

/-- The rows of a list of indices, in order. -/
def State.lookupAll (s : State) (a : Agent) (t : Nat) : List Nat → List RowAns × State
  | [] => ([], s)
  | i :: r =>
    let q := s.lookup a t i
    let z := State.lookupAll q.2 a t r
    (q.1 :: z.1, z.2)

/-! ## Jobs (R469 to R477, R507, R509) -/

/-- STATE reads RUNNING while a job or a command runs (R511). -/
def State.etuState (s : State) : State :=
  s.updCond 0x0D0 (fun c => { c with running := s.etu.cmd.isSome || !s.etu.jobs.isEmpty })

/-- A job's state. -/
def State.etuJob (s : State) (n : Nat) : Option EtuJob := s.etu.jobs.find? (fun j => j.stage == n)

/-- A job is updated. -/
def State.updJob (s : State) (n : Nat) (f : EtuJob → EtuJob) : State :=
  s.updEtu (fun e => { e with jobs := e.jobs.map (fun j => if j.stage = n then f j else j) })

/-- A job notes its error: the first, but NODE_LOST before any other (R509). [DEDUCED: notes/assumptions/51.md] -/
def State.jobCode (s : State) (n code : Nat) : State :=
  s.updJob n (fun j => if j.code = 0 ∨ code = 0x4010 then { j with code := code } else j)

/-- A row of a job was lost: ROW_ERR_CNT, and the job's code (R507, R509). [DEDUCED: notes/assumptions/51.md] -/
def State.rowError (s : State) (n code : Nat) : State :=
  let s := if code = 0 then s.updJob n (fun j => { j with rowErr := true }) else s
  (s.bump F.ETU_ROW_ERR_CNT).jobCode n (if code = 0 then 0x5019 else code)

/-- A job completes with a code (R475, R507): the stage's unit has finished. -/
def State.etuJobEnd (s : State) (n t code : Nat) : State :=
  let rowErr := code == 0x5019 || (match s.etuJob n with | some j => j.rowErr | none => false)
  let s := s.updEtu (fun e => { e with jobs := e.jobs.filter (fun j => j.stage != n) })
  let s := (s.updRun n (fun r => { r with unitDone := true })).stageCode n code
  let s := if rowErr then (s.error 0x0D0 0x5019 0).event 0x0D0 1 else s
  let s := if code = 0 then s else s.etuLastErr t code
  s.etuState

/-- The code with which a job completes at its start (R471, R813). -/
def State.etuStartCode (s : State) (d : EtuDesc) : Nat :=
  let x := s.table d.table
  if s.saf.inSafe then 0x6031
  else if (s.page 0x0D0).enable = false then 0xA014
  else if x.state = 0 then 0x1014
  else if d.elems ≠ x.elems ∨ (d.op = 2 ∧ x.update = false) then 0x1015
  else if s.frm.freeRun = false ∧ (1 < x.nodeCount ∨ s.tableHome x = false) then 0x1016
  else 0

/-- Index `j` of a job: its value and whether its bytes are poisoned. -/
def State.jobIndex (s : State) (d : EtuDesc) (r : RunStage) (j : Nat) : (Nat × Bool) × State :=
  let f := s.fetch (r.place (d.idxAddr + 4 * j)) 4
  ((leNat f.1.bytes, f.1.poison), f.2)

/-- The indices from `a` to `b` exclusive. -/
def State.jobIndices (s : State) (d : EtuDesc) (r : RunStage) : List Nat → List (Nat × Bool) × State
  | [] => ([], s)
  | j :: t =>
    let q := s.jobIndex d r j
    let z := State.jobIndices q.2 d r t
    (q.1 :: z.1, z.2)

/-- An output row is written: its elements, or zeros where it is lost. -/
def State.outRow (s : State) (d : EtuDesc) (r : RunStage) (j : Nat) (vals : List Nat) (bad : Bool) (code : Nat) : State :=
  let bytes := if bad then List.replicate (2 * d.elems) 0 else vals.flatMap (leBytes 2)
  let s := s.stageWrite r (d.dataAddr + j * d.stride) bytes
  if bad then s.rowError r.stage code else s

/-- Row `j` of a GATHER (R472); none while an answer from another node is awaited. [DEDUCED: notes/assumptions/51.md] -/
def State.gatherStep (s : State) (d : EtuDesc) (r : RunStage) (j : Nat) : Bool × State :=
  let q := s.jobIndex d r j
  if q.2.grf.miss then (false, q.2) else
  let g := q.2.gatherAll (.etu r.stage) d.table [q.1.1]
  if g.1 then
    let x := g.2.lookup (.etu r.stage) d.table q.1.1
    (true, (x.2.countIndex (s.table d.table) q.1.1).outRow d r j x.1.vals (x.1.bad || q.1.2) x.1.code)
  else (false, g.2)

/-- Bag offset `b` of a POOL. -/
def State.bagOff (s : State) (d : EtuDesc) (r : RunStage) (b : Nat) : Nat := leNat (s.read (r.place (d.bagAddr + 4 * b)) 4).bytes

/-- The bag offsets satisfy R473. -/
def State.bagsOk (s : State) (d : EtuDesc) (r : RunStage) : Bool :=
  s.bagOff d r 0 == 0 && s.bagOff d r d.bagCount == d.idxCount
    && (List.range d.bagCount).all (fun b => Nat.ble (s.bagOff d r b) (s.bagOff d r (b + 1)))

/-- The bag offsets of a POOL are read and checked once, before it writes anything (R473); while their table is paused (R497) or an answer from
another node is awaited, the job waits. [DEDUCED: notes/assumptions/51.md] -/
def State.bagCheck (s : State) (d : EtuDesc) (r : RunStage) : State :=
  match s.etuJob r.stage with
  | none => s
  | some j =>
    if j.checked ∨ (s.table d.table).state = 3 then s
    else
      let t := s.touch (r.place d.bagAddr) (4 * (d.bagCount + 1))
      if t.grf.miss then s
      else if t.bagsOk d r then t.updJob r.stage (fun x => { x with checked := true, finished := decide (d.rows = 0) })
      else t.etuJobEnd r.stage d.table 0x2015

/-- The channel whose Churn unit pools a bag (R476): all its contributing rows, at most 64 (R428), lie there and none is cached. -/
def State.poolChannel (s : State) (t : Nat) (is : List Nat) : Option Nat :=
  let x := s.table t
  match is with
  | [] => none
  | i :: _ =>
    let c := (s.codePlace t i).1
    if Nat.ble is.length 64 && is.all (fun i => x.index i == 0 && x.node i == s.nodeId && !(x.cache && s.etu.cached.contains (t, i))
        && (s.codePlace t i).1 == c) then some c else none

/-- A bag pooled by a Churn unit counts as its POOL operation. -/
def State.countPool (s : State) (t : Nat) (is : List Nat) : State :=
  match s.poolChannel t is with | some c => s.bump (F.MEMC_POOL_CNT c) | none => s

/-- A bag's offsets are poisoned: its row is lost (R507). -/
def State.bagBad (s : State) (d : EtuDesc) (r : RunStage) (b : Nat) : Bool := (s.read (r.place (d.bagAddr + 4 * b)) 8).poison

/-- Bag `b` of a POOL (R468, R473). [DEDUCED: notes/assumptions/51.md] -/
def State.poolStep (s : State) (d : EtuDesc) (r : RunStage) (b : Nat) : Bool × State :=
  let t := d.table
  let lo := s.bagOff d r b
  let s := s.touch (r.place (d.bagAddr + 4 * b)) 8
  let q := s.jobIndices d r ((List.range (s.bagOff d r (b + 1) - lo)).map (lo + ·))
  if q.2.grf.miss then (false, q.2) else
  let is := (q.1.map (·.1)).filter (fun i => (s.table t).index i != 2)
  let g := q.2.gatherAll (.etu r.stage) t is
  let lost := s.bagBad d r b || q.1.any (·.2)
  if g.1 then
    let s := g.2.countPool t is
    let s := (q.1.map (·.1)).foldl (fun (s : State) i => s.countIndex (s.table t) i) s
    if is.isEmpty then
      let x := s.defaultRow t
      (true, x.2.outRow d r b x.1.vals (x.1.bad || lost) 0)
    else
      let x := s.lookupAll (.etu r.stage) t is
      let bad := x.1.any (·.bad) || lost
      let code := match x.1.find? (fun y => y.code != 0) with | some y => y.code | none => 0
      (true, (x.2.drawFree).outRow d r b (poolRows x.2.free d.mode d.elems (x.1.map (·.vals))) bad code)
  else (false, g.2)

/-- The lanes of a source row (R474). -/
def updLanes (d : EtuDesc) (frac : Nat) (b : List Byte) : List Nat :=
  (List.range d.elems).map (fun k => if d.src = 0 then unsigned 32 (updLane frac (fieldOf b (2 * k) 2)) else fieldOf b (4 * k) 4)

/-- Lanes are added to a row of the active bank, sixteen to a line (R474, R490); the row counts with its first lanes. -/
def State.bankAdd (s : State) (t i first : Nat) (lanes : List Nat) (poisoned : Bool) : State :=
  let x := s.table t
  let d := x.bankAddr x.active i + 4 * first
  let s := (List.range (ceilDiv lanes.length 16)).foldl (fun (s : State) k =>
    let part := (lanes.drop (16 * k)).take 16
    s.add32 (d + 64 * k) (2 ^ part.length - 1) part poisoned) s
  if first = 0 then s.bump F.ETU_UPDATE_ROW_CNT else s

/-- The TADDs of source row `j` for a row of another node: one for each 64 lanes (R500, R540). -/
def State.sendTadds (s : State) (a : Agent) (j t i : Nat) (lanes : List Nat) : State :=
  let node := (s.table t).node i
  (List.range (ceilDiv lanes.length 64)).foldl (fun (s : State) k =>
    let part := (lanes.drop (64 * k)).take 64
    (s.request { agent := a, ttype := 5, node := node, operand := t + i * 2 ^ 8 + (64 * k) * 2 ^ 40 + (part.length - 1) * 2 ^ 50,
                 data := part.flatMap (leBytes 4), addr := j }).bump F.ETU_REMOTE_REQ_CNT) s

/-- Source row `j` of an UPDATE (R474); none while 1,024 remote requests are outstanding. [DEDUCED: notes/assumptions/51.md] -/
def State.updateStep (s : State) (d : EtuDesc) (r : RunStage) (j : Nat) : Bool × State :=
  let t := d.table
  let x := s.table t
  let q := s.jobIndex d r j
  let i := q.1.1
  let far := x.index i == 0 && x.node i != s.nodeId
  if far && Nat.ble 1024 (s.remoteLookups + ceilDiv d.elems 64 - 1) then (false, s)
  else
    let s := q.2.countIndex x i
    if x.index i ≠ 0 then (true, s)
    else if q.1.2 then (true, s.rowError r.stage 0)
    else
      let f := s.fetch (r.place (d.dataAddr + j * d.stride)) (d.elems * (if d.src = 0 then 2 else 4))
      let s := f.2
      let s := if d.src = 0 then
          s.bumpBy F.ETU_UPD_NAN_CNT ((List.range d.elems).filter (fun k => isNan (fieldOf f.1.bytes (2 * k) 2))).length
        else s
      let lanes := updLanes d x.frac f.1.bytes
      if !far then (true, s.bankAdd t i 0 lanes f.1.poison)
      else if f.1.poison then (true, s.rowError r.stage 0)
      else (true, s.sendTadds (.etu r.stage) j t i lanes)

/-- One row, bag or update of a job. -/
def State.etuStep (s : State) (d : EtuDesc) (r : RunStage) (j : Nat) : Bool × State :=
  if d.op = 0 then s.gatherStep d r j else if d.op = 1 then s.poolStep d r j else s.updateStep d r j

/-- A job issues its requests up to row `upto`; it stops at one that must wait, and where its own reads wait for another node it has
done nothing. The fuel is the number of rows left. -/
def State.etuAdvance (d : EtuDesc) (r : RunStage) (upto : Nat) : Nat → State → State
  | 0, s => s
  | f + 1, s =>
    match s.etuJob r.stage with
    | none => s
    | some j =>
      if upto ≤ j.done ∨ d.rows ≤ j.done ∨ j.checked = false ∨ (s.table d.table).state = 3 then s
      else
        let q := s.etuStep d r j.done
        if q.2.grf.miss then s
        else if q.1 then
          let q := (q.1, (q.2.dropReads (.etu r.stage)).dropRows (.etu r.stage))
          State.etuAdvance d r upto f (q.2.updJob r.stage (fun x => { x with done := x.done + 1, finished := decide (d.rows ≤ x.done + 1) }))
        else q.2

/-- A job starts (R469, R471). -/
def State.etuStart (s : State) (d : EtuDesc) (r : RunStage) : State :=
  let code := s.etuStartCode d
  if code ≠ 0 then s.etuJobEnd r.stage d.table code
  else if (s.page 0x0D0).pausing || (s.etu.jobs.isEmpty && s.lockStops 0x0D0) || Nat.ble 4 s.etu.jobs.length || (s.page 0x0D0).cond.fault then s
  else
    (s.updEtu (fun e => { e with jobs := e.jobs ++
      [{ stage := r.stage, finished := decide (d.op ≠ 1 ∧ d.rows = 0), checked := decide (d.op ≠ 1) }] })).etuState

/-- ETU_GATHER, ETU_POOL, ETU_UPDATE: the job of a running stage whose OP is `op` starts, or goes on, and issues its requests up to
row `upto`. [DEDUCED: notes/assumptions/51.md] -/
def State.etuRun (s : State) (n op upto : Nat) : State :=
  match s.runStage n with
  | none => s
  | some r =>
    let d := etuDesc (s.peek r.desc 64)
    if (r.kind = 4 ∨ r.kind = 5) ∧ r.unitDone = false ∧ r.stopped = false ∧ d.op = op then
      let s := (s.asAgent (.etu n)).touch r.desc 64
      let s := match s.etuJob n with | some _ => s | none => s.etuStart d r
      State.etuAdvance d r upto d.rows (s.bagCheck d r)
    else s

/-- ETU_JOB_DONE (R475): every output row is visible and every add is acknowledged; updates whose add was lost count once each (R509). -/
def State.etuDone (s : State) (n : Nat) : State :=
  match s.runStage n, s.etuJob n with
  | some r, some j =>
    let d := etuDesc (s.peek r.desc 64)
    if j.finished && !s.awaits (.etu n) then
      let lost := ((s.grf.answers.filter (fun x => x.agent == .etu n && x.ttype == 5 && x.code == 0x4010)).map (·.addr)).dedup.length
      let code := if lost ≠ 0 then 0x4010 else if j.code = 0 then s.answerCode (.etu n) else j.code
      ((s.bumpBy F.ETU_ROW_ERR_CNT lost).dropAcks (.etu n)).etuJobEnd n d.table code
    else s
  | some _, none => s
  | none, _ => s

/-! ## Regions and DEFINE (R458, R459, R463) -/

/-- The regions of a table in each channel (Table 11-3), as (offset, bytes). -/
def EtuTable.regions (x : EtuTable) : List (Nat × Nat) :=
  [(x.rowOff, x.rsh * x.rowBytes)]
    ++ (if x.migrate then [(x.spillOff, x.spillRows * x.rowBytes)] else [])
    ++ (if x.update then [(x.masterOff, x.rsh * 2 * x.elems), (x.sideOff, 2 * x.rsh * 4 * x.elems)] else [])

/-- Some two of a list of regions share a byte. -/
def selfOverlap : List (Nat × Nat) → Bool
  | [] => false
  | a :: t => t.any (overlap a) || selfOverlap t

/-- The table that a descriptor's bytes describe (Table 11-1). -/
def tableDesc (b : List Byte) : EtuTable :=
  let g := fieldOf b
  { state := 1, fmt := g 0 1, flags := g 1 1 % 16, elems := g 2 2, frac := g 4 1, nodeBase := g 6 2, nodeCount := g 8 2, spillRows := g 0xA 2,
    rows := g 0x10 8, rowOff := g 0x18 8, spillOff := g 0x20 8, masterOff := g 0x28 8, sideOff := g 0x30 8, dflt := g 0x38 8 }

/-- The first field of a table descriptor that fails, with its code, in ascending offset (R12, R105, R458, R459). -/
def tableFault (b : List Byte) : Option (Nat × Nat) :=
  let x := tableDesc b
  let g := fieldOf b
  let bad := fun (off : Nat) (c : Bool) => if c then some (off, Err.fieldRange) else none
  let len := fun (off w v lo hi : Nat) => (lengthCheck w v lo hi (2 ^ 64)).map (fun c => (off, c))
  [bad 0 (Nat.blt 1 x.fmt), bad 1 (Nat.ble 16 (g 1 1) || (x.migrate && x.update) || (x.update && x.pause && Nat.blt 1 x.nodeCount)),
    len 2 16 x.elems 16 1024, bad 2 (x.elems % 16 != 0), bad 4 (if x.update then Nat.blt 24 x.frac else x.frac != 0), bad 5 (g 5 1 != 0),
    bad 6 (Nat.blt 32767 x.nodeBase), bad 8 (x.nodeCount == 0 || Nat.blt 32768 (x.nodeBase + x.nodeCount)),
    (if x.migrate then len 0xA 16 x.spillRows 1 4096 else len 0xA 16 x.spillRows 0 0), bad 0xC (g 0xC 4 != 0),
    len 0x10 64 x.rows 1 (2 ^ 32), bad 0x18 (x.rowOff % 64 != 0), bad 0x20 (if x.migrate then x.spillOff % 64 != 0 else x.spillOff != 0),
    bad 0x28 (if x.update then x.masterOff % 64 != 0 else x.masterOff != 0), bad 0x30 (if x.update then x.sideOff % 64 != 0 else x.sideOff != 0),
    bad 0x38 (x.dflt % 16 != 0 || Nat.ble (2 ^ 48) x.dflt)].findSome? id

/-- The code of the region checks (R463); 0 when they pass. -/
def State.regionFault (s : State) (x : EtuTable) : Nat :=
  if s.tableHome x = false then 0
  else if x.regions.any (fun r => Nat.blt s.shardSize (r.1 + r.2)) then Err.lengthExceedsBuffer
  else if selfOverlap x.regions then 0x1017
  else if s.etu.tables.any (fun y => y.2.state != 0 && s.tableHome y.2 && y.2.regions.any (fun r => x.regions.any (overlap r))) then 0x1017
  else 0

/-! ## Commands (R498, Table 11-5) -/

/-- A command ends: CMD_RESULT, and its event. [DEDUCED: notes/assumptions/50.md] -/
def State.etuCmdEnd (s : State) (code : Nat) : State :=
  let s := (s.updEtu (fun e => { e with cmd := none })).setFld F.ETU_CMD_RESULT_CODE code
  let s := s.event 0x0D1 0
  (if code = 0 then s else s.event 0x0D1 1).etuState

/-- A command begins: CMD_STATUS names it. -/
def State.etuCmdBegin (s : State) (c : EtuCmd) : State :=
  let s := (s.setFld F.ETU_CMD_STATUS_OP c.op).setFld F.ETU_CMD_STATUS_TABLE c.table
  (s.updEtu (fun e => { e with cmd := some c })).etuState

/-- A command that is rejected ends at once: nothing is performed, and the ETU stays in the state it was in (R106).
[DEDUCED: notes/assumptions/50.md] -/
def State.etuCmdReject (s : State) (op t code : Nat) : State :=
  let s := (s.setFld F.ETU_CMD_STATUS_OP op).setFld F.ETU_CMD_STATUS_TABLE t
  ((s.setFld F.ETU_CMD_RESULT_CODE code).event 0x0D1 0).event 0x0D1 1

/-- A Harvest request looks up table `t` by proxy (R313, R481). -/
def State.looksUp (s : State) (t : Nat) (q : HrvReq) : Bool := let d := hrvDesc (s.peek q.desc 64); d.payKind == 2 && d.table == t

/-- A Harvest request in service, queued or held looks up table `t` by proxy. -/
def State.proxyOf (s : State) (t : Nat) : Bool :=
  (match s.hrv.service with | some q => s.looksUp t q.req | none => false) || (s.hrv.queue ++ s.hrv.held).any (s.looksUp t)

/-- The ready KIND 4 and KIND 5 stages of the frame in compute that have not started (R469), with the addresses of their descriptors. -/
def State.etuWaiting (s : State) : List (Nat × StageRec × Nat) :=
  match s.frm.compute with
  | some f =>
    if f.committed && !f.truncated then
      (f.plan.numbered.filter (fun x => (x.2.kind == 4 || x.2.kind == 5) && s.ready f x)).map (fun x =>
        (x.1, x.2, f.plan.addr + f.plan.descOff x.2 f.level))
    else []
  | none => []

/-- A job that runs or waits, or a proxy request, names table `t`. -/
def State.tableInUse (s : State) (t : Nat) : Bool :=
  s.proxyOf t || s.frm.running.any (fun r => (r.kind == 4 || r.kind == 5) && !r.unitDone && (etuDesc (s.peek r.desc 64)).table == t)
    || s.etuWaiting.any (fun x => (etuDesc (s.peek x.2.2 64)).table == t)

/-- The precondition of a command (Table 11-5, R497). [DEDUCED: notes/assumptions/50.md] -/
def State.etuReady (s : State) (op t : Nat) : Bool :=
  let x := s.table t
  if op = 1 then x.state == 0
  else if op = 2 then x.state == 1 && !s.tableInUse t
  else if op = 3 then x.state == 1 && !(x.pause && s.paced)
  else if op = 4 then x.state == 1 && x.update
  else if op = 5 then x.state == 1 && x.migrate
  else x.state != 0

/-- CMD_ADDR. -/
def State.cmdAddr (s : State) : Nat := s.fld F.ETU_CMD_ADDR_LO_ADDR + 2 ^ 32 * s.fld F.ETU_CMD_ADDR_HI_ADDR

/-- DEFINE (R458): the slot takes the descriptor's fields, unless a check fails. [DEDUCED: notes/assumptions/50.md] -/
def State.etuDefine (s : State) (t : Nat) : State :=
  let f := (s.asAgent .none).fetch s.cmdAddr 64
  let s := f.2
  let x := tableDesc f.1.bytes
  if f.1.code ≠ 0 then s.etuCmdReject 1 t f.1.code
  else if f.1.poison then s.etuCmdReject 1 t 0x5019
  else match tableFault f.1.bytes with
  | some (_, code) => s.etuCmdReject 1 t code
  | none =>
    let code := s.regionFault x
    if code ≠ 0 then s.etuCmdReject 1 t code
    else (s.updTable t (fun _ => x)).etuCmdBegin { op := 1, table := t }

/-- Redirect entries, cached rows and planned moves of a table are dropped. -/
def State.forgetTable (s : State) (t : Nat) : State :=
  s.updEtu (fun e => { e with
    redirect := e.redirect.filter (fun r => r.table != t)
    freq := e.freq.filter (fun x => x.1 / 2 ^ 32 != t)
    rowLines := e.rowLines.filter (fun x => x.1 / 2 ^ 32 % 256 != t)
    cached := e.cached.filter (fun x => x.1 != t)
    moves := e.moves.filter (fun x => x.1 != t) })

/-- UNDEFINE (R489, R498). [DEDUCED: notes/assumptions/50.md] -/
def State.etuUndefine (s : State) (t : Nat) : State :=
  ((s.updTable t (fun _ => {})).forgetTable t).etuCmdBegin { op := 2, table := t }

/-- REPLACE starts (R495 to R497). [DEDUCED: notes/assumptions/50.md] -/
def State.etuReplace (s : State) (t : Nat) : State :=
  let x := s.table t
  let n := s.homedRows x
  let c : EtuCmd := { op := 3, table := t, total := n, addr := s.cmdAddr }
  match lengthCheck 32 (s.fld F.ETU_CMD_SIZE) 0 (2 ^ 32) (2 ^ 32) with
  | some code => s.etuCmdReject 3 t code
  | none =>
    if s.fld F.ETU_CMD_SIZE < n * (if x.update then 2 * x.elems else x.rowBytes) then s.etuCmdReject 3 t Err.lengthExceedsBuffer
    else ((s.updTable t (fun y => { y with state := if y.pause then 3 else 2 })).setFld F.ETU_CMD_PROGRESS_ROWS 0).etuCmdBegin c

/-- FOLD starts (R492): the active bank toggles. After a fold that stopped it toggles back to the former folding bank, whose left-over sums are
folded with the later adds in the other (R506). [DEDUCED: notes/assumptions/50.md] -/
def State.etuFold (s : State) (t : Nat) : State :=
  let x := s.table t
  let c : EtuCmd := { op := 4, table := t, total := s.homedRows x, bank := x.active, both := x.foldInc }
  ((s.updTable t (fun y => { y with state := 4, active := 1 - y.active })).setFld F.ETU_CMD_PROGRESS_ROWS 0).etuCmdBegin c

/-- UNMIGRATE starts (R489). -/
def State.etuUnmigrate (s : State) (t : Nat) : State :=
  (s.setFld F.ETU_CMD_PROGRESS_ROWS 0).etuCmdBegin
    { op := 5, table := t, total := (s.etu.redirect.filter (fun r => r.table == t)).length }

/-- CACHE_FLUSH (R484). -/
def State.etuCacheFlush (s : State) (t : Nat) : State :=
  (s.updEtu (fun e => { e with cached := e.cached.filter (fun x => x.1 != t) })).etuCmdBegin { op := 6, table := t }

/-- A write of ETU_CMD with OP `op` and TABLE `t` (R498, R813). [DEDUCED: notes/assumptions/50.md] -/
def State.etuCommand (s : State) (op t : Nat) (start : State → State) : State :=
  if s.saf.inSafe then s.etuCmdReject op t 0x6031
  else if s.etuReady op t then start s
  else s.etuCmdReject op t 0xA016

/-- A write of ETU_CMD as the value names it: OP 0 names none. -/
def State.etuCmdWrite (s : State) (op t : Nat) : State :=
  if op = 1 then s.etuCommand 1 t (fun s => s.etuDefine t)
  else if op = 2 then s.etuCommand 2 t (fun s => s.etuUndefine t)
  else if op = 3 then s.etuCommand 3 t (fun s => s.etuReplace t)
  else if op = 4 then s.etuCommand 4 t (fun s => s.etuFold t)
  else if op = 5 then s.etuCommand 5 t (fun s => s.etuUnmigrate t)
  else if op = 6 then s.etuCommand 6 t (fun s => s.etuCacheFlush t)
  else s

/-- A command by a writer: the register write of ETU_CMD; while a command runs, or the lock of an ETU that is not RUNNING is abandoned
(R93), the write is discarded. -/
def State.writeEtuCmd (s : State) (w op t : Nat) : State :=
  s.onWrite 0x0D1 0x40 w (word (t % 256 * 2 ^ 8 + op)) (fun s =>
    if s.etu.cmd.isSome then s.error 0x0D1 0xA017 0 else if s.lockStops 0x0D0 then s else (s.etuCmdWrite op (t % 256)).wrote 0x0D1 w)

/-! ## Running commands row by row (R492 to R496, R508) -/

/-- The running command notes the first error code of its reads. [DEDUCED: notes/assumptions/50.md] -/
def State.cmdCode (s : State) (code : Nat) : State :=
  s.updEtu (fun e => { e with cmd := e.cmd.map (fun q => if q.code = 0 then { q with code := code } else q) })

/-- The reserved bytes after the codes of a code row are not all 0 (Table 11-2). -/
def EtuTable.tailSet (x : EtuTable) (b : List Byte) : Bool := (b.drop (4 + (if x.fmt = 0 then x.elems else x.elems / 2))).any (· != 0)

/-- Row `k` of a REPLACE (R495): a code row with a reserved byte set is rejected and leaves the row as it was (R12). Otherwise its current place takes the image row; for an UPDATE table the master, and the code row requantized from it. -/
def State.replaceRow (s : State) (c : EtuCmd) (k : Nat) : State :=
  let t := c.table
  let x := s.table t
  let i := s.homedRow x k
  let n := if x.update then 2 * x.elems else x.rowBytes
  let f := s.fetch (c.addr + k * n) n
  let s := (f.2.cmdCode f.1.code).uncache t i
  if !x.update && x.tailSet f.1.bytes then s.cmdCode Err.fieldRange
  else if x.update then
    let v := s.free
    let s := (s.write (x.masterAddr i) f.1.bytes f.1.poison).drawFree
    s.write (s.codeAddr t i) (requantize v x.fmt x.elems x.rowBytes ((List.range x.elems).map (fun e => fieldOf f.1.bytes (2 * e) 2))) f.1.poison
  else s.write (s.codeAddr t i) f.1.bytes f.1.poison

/-- The new master elements of a fold (R492): bf16(m + v × 2^−FRAC_BITS). -/
def foldMaster (v frac elems : Nat) (m a : List Byte) : List Nat :=
  (List.range elems).map (fun k =>
    toBf16 (Config.freeAt v k) ((numOf 3 (fieldOf m (2 * k) 2)).add (.fin (signed 32 (fieldOf a (4 * k) 4)) (-(frac : Int)))))

/-- Lane sums of two bank rows, modulo 2^32. -/
def sumLanes (elems : Nat) (a b : List Byte) : List Byte :=
  (List.range elems).flatMap (fun k => leBytes 4 ((fieldOf a (4 * k) 4 + fieldOf b (4 * k) 4) % 2 ^ 32))

/-- Row `k` of a FOLD (R492 to R494, R508). [DEDUCED: notes/assumptions/50.md] -/
def State.foldRow (s : State) (c : EtuCmd) (k : Nat) : State :=
  let t := c.table
  let x := s.table t
  let i := s.homedRow x k
  let m := s.fetch (x.masterAddr i) (2 * x.elems)
  let a := m.2.fetch (x.bankAddr c.bank i) (4 * x.elems)
  let b : Rd × State := if c.both then a.2.fetch (x.bankAddr (1 - c.bank) i) (4 * x.elems) else (⟨List.replicate (4 * x.elems) 0, false, 0⟩, a.2)
  let s := b.2
  if m.1.poison || a.1.poison || b.1.poison then ((s.bump F.ETU_ROW_ERR_CNT).error 0x0D0 0x5019 0).event 0x0D0 1
  else
    let new := foldMaster s.free x.frac x.elems m.1.bytes (sumLanes x.elems a.1.bytes b.1.bytes)
    let s := s.drawFree
    let s := s.write (x.masterAddr i) (new.flatMap (leBytes 2))
    let s :=
      if new.any nonFinite then
        let s := s.bump F.ETU_FOLD_NONFINITE_CNT
        match s.etu.cmd with
        | some q => if q.nonfinite then s else (s.error 0x0D0 0x2014 0).updEtu (fun e => { e with cmd := some { q with nonfinite := true } })
        | none => s
      else
        let v := s.free
        ((s.uncache t i).drawFree).write (s.codeAddr t i) (requantize v x.fmt x.elems x.rowBytes new)
    let s := s.write (x.bankAddr c.bank i) (List.replicate (4 * x.elems) 0)
    if c.both then s.write (x.bankAddr (1 - c.bank) i) (List.replicate (4 * x.elems) 0) else s

/-- Rows may move (R488): the compute phase is empty and no PAY_KIND 2 request is in service. -/
def State.mayMove (s : State) : Bool :=
  s.frm.compute.isNone && !(match s.hrv.service with | some q => (hrvDesc (s.peek q.req.desc 64)).payKind == 2 | none => false)

/-- A moved row returns to its home slot (R489). -/
def State.moveHome (s : State) (t : Nat) : State :=
  match s.etu.redirect.find? (fun r => r.table == t) with
  | none => s
  | some r =>
    let x := s.table t
    let f := s.fetch (s.codeAddr t r.row) x.rowBytes
    let s := (f.2.uncache t r.row).updEtu (fun e => { e with redirect := e.redirect.filter (fun y => !(y.table == t && y.row == r.row)) })
    s.write (s.codeAddr t r.row) f.1.bytes f.1.poison

/-- One row of the running command. -/
def State.cmdRow (s : State) (c : EtuCmd) : State :=
  if c.op = 3 then s.replaceRow c c.done else if c.op = 4 then s.foldRow c c.done else s.moveHome c.table

/-- The running command does rows up to `upto`. The fuel is the number of rows. [DEDUCED: notes/assumptions/50.md] -/
def State.cmdRows (upto : Nat) : Nat → State → State
  | 0, s => s
  | f + 1, s =>
    match s.etu.cmd with
    | none => s
    | some c =>
      if upto ≤ c.done ∨ c.total ≤ c.done ∨ (c.op = 5 ∧ s.mayMove = false) then s
      else
        let s := s.cmdRow c
        let s := s.updEtu (fun e => { e with cmd := e.cmd.map (fun q => { q with done := q.done + 1 }) })
        State.cmdRows upto f (s.setFld F.ETU_CMD_PROGRESS_ROWS (c.done + 1))

/-- A table is REPLACING, by row or paused (R496, R497). -/
def State.replacing (s : State) (t : Nat) : Bool := (s.table t).state == 2 || (s.table t).state == 3

/-- ETU_CMD_DONE (R498): the running command does its rows up to `upto`; with none left it ends. -/
def State.etuCmdDone (s : State) (upto : Nat) : State :=
  let s := match (s.asAgent .none).etu.cmd with | some c => State.cmdRows upto (c.total - c.done) (s.asAgent .none) | none => s
  match s.etu.cmd with
  | none => s
  | some c =>
    if c.done < c.total then s
    else
      let s :=
        if c.op = 3 ∧ s.replacing c.table = true then s.updTable c.table (fun x => { x with state := 1, replInc := false })
        else if c.op = 4 then s.updTable c.table (fun x => { x with state := 1, foldInc := false })
        else s
      s.etuCmdEnd c.code

/-- A row of a Harvest request whose payload the ETU had not returned: zeros, and STATUS ETU_ABORTED (R506). `pay` is where the payload
section of the result area begins. -/
def HrvRow.abortPayload (pay : Nat) (r : HrvRow) : HrvRow :=
  { r with
    status := 0xA013
    writes := r.writes.map (fun w =>
      if w.1 = r.hdr then (w.1, w.2.take 18 ++ leBytes 2 0xA013 ++ w.2.drop 20)
      else if pay ≤ w.1 then (w.1, List.replicate w.2.length 0) else w) }

/-- OUTPUT stages' addresses in the result window of set 0 move with the frame's set (R589). -/
def HrvReq.place (q : HrvReq) (d : Nat) : Nat :=
  if q.output = true ∧ q.set = 1 ∧ 0x001006000000 ≤ d ∧ d < 0x001007000000 then d + 0x1000000 else d

/-- The PAY_KIND 2 request in service: the lookups of a free number of its rows are still in the ETU and complete with ETU_ABORTED and zero
rows (R506). [DESIGN CHOICE: notes/assumptions/50.md] -/
def State.abortProxy (s : State) : State :=
  match s.hrv.service with
  | none => s
  | some q =>
    let d := hrvDesc (s.peek q.req.desc 64)
    let n := s.freeVal % (q.rows.length + 1)
    if q.issued ∨ q.rejected ∨ d.payKind ≠ 2 ∨ n = q.rows.length then s
    else
      let pay := q.req.place (d.outAddr + d.payOff)
      let run : HrvRun := { q with
        rows := q.rows.take n ++ (q.rows.drop n).map (HrvRow.abortPayload pay)
        code := if q.code = 0 then 0xA013 else q.code, row := if q.code = 0 then n else q.row }
      (s.updHrv (fun h => { h with service := some run })).drawFree

/-- A ready KIND 4 or KIND 5 stage that waits completes with ETU_ABORTED (R506). -/
def State.abortWaiting (s : State) (x : Nat × StageRec × Nat) : State :=
  let s := s.etuLastErr (etuDesc (s.peek x.2.2 64)).table 0xA013
  s.endStage { stage := x.1, kind := x.2.1.kind, tiles := [], share := x.2.1.dramShare, desc := x.2.2 } 0xA013

/-- SOFT_RESET of the ETU beside the page's registers (R506): running and waiting jobs and Harvest's lookups end, the cache and what the load
window holds are emptied, and a running REPLACE or FOLD stops. [DEDUCED: notes/assumptions/50.md] -/
def State.etuSoftReset (s : State) : State :=
  let wait := s.etuWaiting
  let s := s.frm.running.foldl (fun (s : State) r =>
    if (r.kind = 4 ∨ r.kind = 5) ∧ r.unitDone = false then
      (s.etuJobEnd r.stage (etuDesc (s.peek r.desc 64)).table 0xA013).stopAgents (· == .etu r.stage) else s) s
  let s := (wait.foldl (fun (s : State) x => s.abortWaiting x) s).abortProxy
  let s := match s.etu.cmd with
    | none => s
    | some c =>
      if c.op = 3 ∧ s.replacing c.table = true then s.updTable c.table (fun x => { x with state := 1, replInc := true })
      else if c.op = 4 then s.updTable c.table (fun x => { x with state := 1, foldInc := true })
      else s
  (s.updEtu (fun e => { e with
    cmd := none, cached := [], freq := [], lookups := 0, windowAt := s.cycles, lines := [], rowLines := [], moves := [] })).etuState

/-! ## Load windows and migration (R486 to R489, R503) -/

/-- A row among the most read of a channel in a load window (R486), with its line count. -/
structure HotRow where
  chan : Nat
  table : Nat
  row : Nat
  lines : Nat
  deriving DecidableEq, Repr

/-- A row enters a list kept by falling line count. -/
def hotInsert (x : HotRow) : List HotRow → List HotRow
  | [] => [x]
  | y :: t => if y.lines < x.lines then x :: y :: t else y :: hotInsert x t

/-- The 16 rows most read from channel `c` in the window, most read first (R486): the estimate is the exact count. [DESIGN CHOICE:
notes/assumptions/52.md] -/
def State.hotRows (s : State) (c : Nat) : List HotRow :=
  let l := (s.etu.rowLines.filter (fun x => x.1 / 2 ^ 40 == c)).map (fun x => (⟨c, x.1 / 2 ^ 32 % 256, x.1 % 2 ^ 32, x.2⟩ : HotRow))
  (l.foldl (fun (acc : List HotRow) x => hotInsert x acc) []).take 16

/-- What the planner carries: loads per channel, rows still listed, the moves planned, and the moves not planned. -/
structure Planner where
  w : List Nat
  rows : List HotRow
  moves : List (Nat × Nat × Nat) := []
  skips : Nat := 0
  deriving DecidableEq, Repr

/-- The channel with the greatest load, and the one with the least; among equals a free choice. [DESIGN CHOICE: notes/assumptions/52.md] -/
def hottest (v : Nat) (w : List Nat) : Nat :=
  let m := w.foldl max 0
  let l := (List.range w.length).filter (fun c => w.getD c 0 == m)
  l.getD (v % l.length) 0
def coolest (v : Nat) (w : List Nat) : Nat :=
  let m := w.foldl min (w.headD 0)
  let l := (List.range w.length).filter (fun c => w.getD c 0 == m)
  l.getD (v % l.length) 0

/-- A spill slot of a table in a channel that no row holds (R503). -/
def State.spillFree (s : State) (t c : Nat) : Option Nat :=
  let used := (s.etu.redirect.filter (fun r => r.table == t && r.chan == c)).map (·.slot)
  (List.range (s.table t).spillRows).find? (fun k => !used.contains k)

/-- The row of a channel that was read most of those still listed, of a table that may migrate (R487); among equals the first. -/
def State.mostRead (s : State) (hot : Nat) (l : List HotRow) : Option HotRow :=
  let l := l.filter (fun r => r.chan == hot && (s.table r.table).migrate)
  let m := (l.map (·.lines)).foldl max 0
  l.find? (fun r => r.lines == m)

/-- R487, row by row. [DESIGN CHOICE: notes/assumptions/52.md] -/
def State.planMoves (s : State) (v sum : Nat) : Nat → Planner → Planner
  | 0, p => p
  | f + 1, p =>
    let hot := hottest (Config.freeAt v (2 * f)) p.w
    let cool := coolest (Config.freeAt v (2 * f + 1)) p.w
    let wh := p.w.getD hot 0
    let wc := p.w.getD cool 0
    if 800 * wh ≤ 100 * sum + s.fld F.ETU_LOAD_CFG_MIG_THR * sum ∨ s.fld F.ETU_LOAD_CFG_MIG_BATCH ≤ p.moves.length then p
    else match s.mostRead hot p.rows with
    | none => p
    | some r =>
      let p := { p with rows := p.rows.erase r }
      if wh - wc < 2 * r.lines then State.planMoves s v sum f p
      else if (s.spillFree r.table cool).isNone || Nat.ble 8192 s.etu.redirect.length then
        State.planMoves s v sum f { p with skips := p.skips + 1 }
      else
        let w := (p.w.set hot (wh - r.lines)).set cool (wc + r.lines)
        State.planMoves s v sum f { p with w := w, moves := p.moves ++ [(r.table, r.row, cool)] }

/-- MIG_SKIP_CNT counts moves not planned or discarded. [DESIGN CHOICE: notes/assumptions/52.md] -/
def State.skipMoves (s : State) (n : Nat) : State := if n = 0 then s else (s.bumpBy F.ETU_MIG_SKIP_CNT n).event 0x0D2 2

/-- LOAD_WINDOW_END (R486, R487): once LOAD_WINDOW_US have passed, loads are recorded, moves not made are discarded, and with MIGRATE_EN
new ones are planned. [DESIGN CHOICE: notes/assumptions/52.md] -/
def State.loadWindowEnd (s : State) : State :=
  if s.cycles < s.etu.windowAt + usCycles (s.fld F.ETU_LOAD_CFG_LOAD_WINDOW_US) then s
  else
    let w := (List.range 8).map (fun c => Sparse.get (fun _ => 0) s.etu.lines c)
    let listed := (List.range 8).flatMap (fun c => (s.hotRows c).filter (fun r => (s.codePlace r.table r.row).1 == c))
    let s := (List.range 8).foldl (fun (s : State) c => s.setFld (F.ETU_SHARD_LOAD_LINES c) (w.getD c 0)) s
    let s := (s.skipMoves s.etu.moves.length).updEtu (fun e => { e with windowAt := s.cycles, lines := [], rowLines := [], moves := [] })
    let s := s.event 0x0D2 0
    if s.flag F.ETU_LOAD_CFG_MIGRATE_EN then
      let p := s.planMoves s.free (w.foldl (· + ·) 0) 129 { w := w, rows := listed }
      ((s.drawFree).skipMoves p.skips).updEtu (fun e => { e with moves := p.moves })
    else s

/-- MIGRATION_MOVE (R488): the oldest planned move is made, if rows may move. [DESIGN CHOICE: notes/assumptions/52.md] -/
def State.migrationMove (s : State) : State :=
  match s.etu.moves with
  | [] => s
  | (t, i, c) :: rest =>
    if s.mayMove = false then s
    else
      let s := (s.asAgent .none).updEtu (fun e => { e with moves := rest })
      let x := s.table t
      match s.spillFree t c with
      | none => s.skipMoves 1
      | some k =>
        if x.state = 0 ∨ x.migrate = false ∨ (8192 ≤ s.etu.redirect.length ∧ (s.redirectOf t i).isNone) then s.skipMoves 1
        else
          let f := s.fetch (s.codeAddr t i) x.rowBytes
          let s := f.2.uncache t i
          let s := s.write (shardAddr c (x.spillOff + k * x.rowBytes)) f.1.bytes f.1.poison
          let s := s.updEtu (fun e => { e with redirect := e.redirect.filter (fun r => !(r.table == t && r.row == i)) ++ [⟨t, i, c, k⟩] })
          (s.bump F.ETU_MIG_CNT).event 0x0D2 1

/-! ## CACHE_SHARE (R369, R485) -/

/-- A plan slot is LOADED or LOADING. -/
def State.planHeld (s : State) : Bool :=
  let h := fun (st : Nat) => st == 1 || st == 2
  h (s.fld F.FRM_PLAN_STATUS_SLOT_0) || h (s.fld F.FRM_PLAN_STATUS_SLOT_1)

/-- A write of ETU_CFG (R369, R485). -/
def State.writeEtuCfg (s : State) (w : Nat) (v : Word) : State :=
  s.onRwl 0x0D0 0x40 w v (fun s =>
    let s := s.setFld F.ETU_CFG_CACHE_ADMIT (getBits v 11 8)
    let s :=
      if getBits v 3 0 = s.fld F.ETU_CFG_CACHE_SHARE then s
      else if s.planHeld then s.error 0x0D0 0xA006 0
      else (s.updEtu (fun e => { e with cached := [] })).setFld F.ETU_CFG_CACHE_SHARE (getBits v 3 0)
    s.wrote 0x0D0 w)

/-! ## The commands -/

/-- ETU_DEFINE (R458). -/
def execEtuDefine (dt w table : Nat) (s : State) : Host.Outcome State Fault Refusal := .next ((s.arriveBy dt w).writeEtuCmd w 1 table)

/-- ETU_UNDEFINE (R498). -/
def execEtuUndefine (dt w table : Nat) (s : State) : Host.Outcome State Fault Refusal := .next ((s.arriveBy dt w).writeEtuCmd w 2 table)

/-- ETU_REPLACE (R495). -/
def execEtuReplace (dt w table : Nat) (s : State) : Host.Outcome State Fault Refusal := .next ((s.arriveBy dt w).writeEtuCmd w 3 table)

/-- ETU_FOLD (R492). -/
def execEtuFold (dt w table : Nat) (s : State) : Host.Outcome State Fault Refusal := .next ((s.arriveBy dt w).writeEtuCmd w 4 table)

/-- ETU_UNMIGRATE (R489). -/
def execEtuUnmigrate (dt w table : Nat) (s : State) : Host.Outcome State Fault Refusal := .next ((s.arriveBy dt w).writeEtuCmd w 5 table)

/-- ETU_CACHE_FLUSH (R484). -/
def execEtuCacheFlush (dt w table : Nat) (s : State) : Host.Outcome State Fault Refusal := .next ((s.arriveBy dt w).writeEtuCmd w 6 table)

/-- ETU_CMD_DONE (R498). -/
def execEtuCmdDone (dt upto : Nat) (s : State) : Host.Outcome State Fault Refusal := .next ((s.arrive dt).etuCmdDone upto)

/-- ETU_GATHER (R472). -/
def execEtuGather (dt stage upto : Nat) (s : State) : Host.Outcome State Fault Refusal := .next ((s.arrive dt).etuRun stage 0 upto)

/-- ETU_POOL (R473). -/
def execEtuPool (dt stage upto : Nat) (s : State) : Host.Outcome State Fault Refusal := .next ((s.arrive dt).etuRun stage 1 upto)

/-- ETU_UPDATE (R474). -/
def execEtuUpdate (dt stage upto : Nat) (s : State) : Host.Outcome State Fault Refusal := .next ((s.arrive dt).etuRun stage 2 upto)

/-- ETU_JOB_DONE (R475). -/
def execEtuJobDone (dt stage : Nat) (s : State) : Host.Outcome State Fault Refusal := .next ((s.arrive dt).etuDone stage)

/-- LOAD_WINDOW_END (R486). -/
def execLoadWindowEnd (dt : Nat) (s : State) : Host.Outcome State Fault Refusal := .next ((s.arrive dt).loadWindowEnd)

/-- MIGRATION_MOVE (R488). -/
def execMigrationMove (dt : Nat) (s : State) : Host.Outcome State Fault Refusal := .next ((s.arrive dt).migrationMove)

/-- CACHE_SHARE_WRITE: a write of ETU_CFG (R485). -/
def execCacheShareWrite (dt w : Nat) (v : Word) (s : State) : Host.Outcome State Fault Refusal := .next ((s.arriveBy dt w).writeEtuCfg w v)

end Sys2Proof.Machine
end

