-- ==== Sys2Proof/Machine/Memc.lean ====
section
/-! DEFINITION. Requests at a memory controller and its Churn unit, the patrol scrub, and SHARD_CFG (spec/10_memory_ordering.md, R419,
R425 to R429, R448 to R455). -/

namespace Sys2Proof.Machine

/-- An access of 1 to 64 bytes within one line (Table 10-3). -/
def inLine (d n : Nat) : Bool := Nat.ble 1 n && Nat.ble (d % 64 + n) 64

/-- The channel and channel address of a DRAM device address. -/
def State.dramPlace (s : State) (d : Nat) : Option (Nat × Nat) :=
  match s.home d with
  | .dram c a => some (c, a)
  | .cellar _ _ => none
  | .fusedOff => none
  | .result _ => none
  | .mailbox _ => none
  | .global => none
  | .reserved => none

/-- The reply of a request. -/
def State.replied (s : State) (r : Rd) : State := s.updMem (fun m => { m with reply := some r })

/-- READ (Table 10-3). -/
def State.churnRead (s : State) (d n : Nat) : State :=
  if inLine d n then let f := (s.asAgent .none).fetch d n; f.2.replied f.1 else s

/-- WRITE (Table 10-3). -/
def State.churnWrite (s : State) (d : Nat) (bs : List Byte) (poisoned : Bool) : State :=
  if inLine d bs.length then
    let q := s.performed (fun s => s.write d bs poisoned)
    q.2.replied ⟨[], false, q.1⟩
  else s

/-- ADD32 (R426, R429). -/
def State.churnAdd (s : State) (d mask : Nat) (addends : List Nat) (poisoned : Bool) : State :=
  let q := s.performed (fun s => s.add32 (d / 64 * 64) mask addends poisoned)
  q.2.replied ⟨[], false, q.1⟩

/-- SUMMARY_MERGE (Table 10-3, R429). -/
def State.churnMerge (s : State) (d : Nat) (con : List Byte) (poisoned : Bool) : State :=
  if inLine d 32 then
    let q := s.performed (fun s => s.summaryMerge d con poisoned)
    q.2.replied ⟨[], false, if (s.dramPlace d).isSome then q.1 else 0x5011⟩
  else s

/-- A row of codes at a DRAM address as BF16 elements, with its poison. -/
def State.dequantRow (s : State) (d fmt elems : Nat) : RowAns × State :=
  let f := s.fetch d (4 + (if fmt = 0 then elems else elems / 2))
  (⟨rowValues f.2.free fmt elems f.1.bytes, f.1.poison, f.1.code⟩, f.2.drawFree)

/-- DEQUANT (R428, R429). -/
def State.churnDequant (s : State) (d fmt elems : Nat) : State :=
  match s.dramPlace d with
  | none => s.replied ⟨List.replicate (2 * elems) 0, true, 0x5011⟩
  | some (c, _) =>
    let q := (s.asAgent .none).dequantRow d fmt elems
    (q.2.bump (F.MEMC_DEQUANT_CNT c)).replied ⟨if q.1.bad && q.1.code != 0 then List.replicate (2 * elems) 0 else q.1.vals.flatMap (leBytes 2), q.1.bad, q.1.code⟩

/-- The rows of a POOL in the order of their addresses. -/
def State.dequantRows (s : State) (fmt elems : Nat) : List Nat → List RowAns × State
  | [] => ([], s)
  | d :: t =>
    let q := s.dequantRow d fmt elems
    let z := State.dequantRows q.2 fmt elems t
    (q.1 :: z.1, z.2)

/-- POOL over up to 64 rows of one channel (R428, R429): mode 0 SUM, 1 MEAN, 2 MAX. -/
def State.churnPool (s : State) (ds : List Nat) (fmt elems mode : Nat) : State :=
  let places := ds.map (fun d => s.dramPlace d)
  match ds, places.head? with
  | [], _ => s
  | _ :: _, some (some (c, _)) =>
    if 64 < ds.length ∨ places.any (fun p => match p with | some x => x.1 != c | none => true) then
      s.replied ⟨List.replicate (2 * elems) 0, true, 0x5011⟩
    else
      let q := (s.asAgent .none).dequantRows fmt elems ds
      let code := match q.1.find? (fun r => r.code != 0) with | some r => r.code | none => 0
      let out := poolRows q.2.free mode elems (q.1.map (·.vals))
      let s := (q.2.drawFree.bumpBy (F.MEMC_DEQUANT_CNT c) ds.length).bump (F.MEMC_POOL_CNT c)
      s.replied ⟨if code = 0 then out.flatMap (leBytes 2) else List.replicate (2 * elems) 0, q.1.any (·.bad), code⟩
  | _ :: _, some none => s.replied ⟨List.replicate (2 * elems) 0, true, 0x5011⟩
  | _ :: _, none => s

/-! ## The patrol scrub (R448 to R454) -/

/-- An error that can arise (R408, R417): in a word of an enabled tile's slice, or in an installed line of the DRAM that the combining buffer
does not hold. -/
def State.upsetFits (s : State) (x : Upset) : Bool :=
  if x.cellar then s.tilePresent (x.unit / 0x30000)
  else
    let c := x.unit / 2 ^ 27
    let p := x.unit % 2 ^ 27
    Nat.blt c 8 && Nat.blt p (s.mem.chGib * 2 ^ 24) && (p % 16 == 15 || !(s.combined c).contains (p / 16 * 15 + p % 16))

/-- Errors arise in the memories; one in a unit that holds one already takes its place. -/
def State.arise (s : State) (l : List Upset) : State :=
  l.foldl (fun (s : State) x =>
    if s.upsetFits x then (s.mendUnit x.cellar x.unit).updMem (fun m => { m with upsets := m.upsets ++ [x] }) else s) s

/-- The MR4 refresh-rate code that channel `c` reads out: REFRESH_RATE marks a change (R456). [DEDUCED: notes/assumptions/49.md] -/
def State.readMr4 (s : State) (c code : Nat) : State :=
  if s.flag F.GLB_BOOT_STATUS_MEM_READY && !s.mem.failed.contains c && Sparse.get (fun _ => 0) s.mem.refresh c != code % 16 then
    (s.updMem (fun m => { m with refresh := Sparse.set (fun _ => 0) m.refresh c (code % 16) })).event (0x0C0 + 2 * c) 3
  else s

/-- The scrub reads physical line `p` of channel `c` and handles what it finds (R454, Table 18-6). -/
def State.scrubRead (s : State) (c p : Nat) : State :=
  let a := (p / 16 * 15 + min (p % 16) 14) * 64
  let r := s.takeInjection 4 c
  if r.1 then r.2.dramUeNoted c a (s.deviceAddr c a)
  else
    let q := r.2.takeInjection 3 c
    ((if q.1 then q.2.dramCe c else q.2).meetPhys c p (s.deviceAddr c a)).2

/-- The scrub goes on by one line: the next line of channel `c` is read and checked, unless the combining buffer holds it (R448).
[DEDUCED: notes/assumptions/48.md; DEDUCED: notes/assumptions/49.md] -/
def State.scrubNextLine (s : State) (c : Nat) : State :=
  let pg := s.page (0x0C0 + 2 * c)
  if s.fld (F.MEMC_SCRUB_CFG_SCRUB_EN c) = 0 ∨ pg.pausing = true ∨ pg.cond.off = true ∨ s.mem.failed.contains c = true then s
  else
    let p := Sparse.get (fun _ => 0) s.mem.scrubNext c
    let held := p % 16 != 15 && (s.combined c).contains (p / 16 * 15 + p % 16)
    let s := if held then s else s.scrubRead c p
    let wrap := decide (s.mem.chGib * 2 ^ 24 ≤ p + 1)
    let s := s.updMem (fun m => { m with scrubNext := Sparse.set (fun _ => 0) m.scrubNext c (if wrap then 0 else p + 1) })
    if wrap then (s.bump (F.MEMC_SCRUB_PASS_CNT c)).event (0x0C0 + 2 * c) 2 else s

/-- SCRUB_LINE (R454): what has become of the memories since, namely the refresh-rate code of the channel and the errors that have arisen,
and then the next line of the scrub. [DESIGN CHOICE: notes/assumptions/49.md] -/
def State.scrubLine (s : State) (c mr4 : Nat) (upsets : List Upset) : State := ((s.arise upsets).readMr4 c mr4).scrubNextLine c

/-! ## SHARD_CFG (R419, R457, R465) -/

/-- SHARD_CFG may change (R419). -/
def State.mapQuiet (s : State) : Bool :=
  (s.pstate 0x010 == St.off || s.pstate 0x010 == St.idle) && !s.planHeld && s.pstate 0x0D0 == St.off

/-- Every table is undefined; the redirect directory and the row cache are empty (R465). -/
def State.undefineTables (s : State) : State := s.updEtu (fun e => { e with tables := [], redirect := [], cached := [], freq := [], rowLines := [], moves := [] })

/-- A write of SHARD_CFG on MEMC_c by `w` (R419, R457). -/
def State.writeShardCfg (s : State) (c w : Nat) (v : Word) : State :=
  if c ≠ 0 then s.onWrite (0x0C0 + 2 * c) 0x50 w v (fun s => s.wrote (0x0C0 + 2 * c) w)
  else s.onRwl 0x0C0 0x50 w v (fun s =>
    if s.mapQuiet then ((s.updMem (fun m => { m with shardBase4M := getBits v 10 0 })).undefineTables).wrote 0x0C0 w
    else s.error 0x0C0 0xA012 (infoOffWriter 0x50 w))

/-! ## The commands -/

/-- CHURN_READ (R425). -/
def execChurnRead (dt addr n : Nat) (s : State) : Host.Outcome State Fault Refusal := .next ((s.arrive dt).churnRead addr n)

/-- CHURN_WRITE (R425). -/
def execChurnWrite (dt addr : Nat) (data : List Byte) (poison : Bool) (s : State) : Host.Outcome State Fault Refusal :=
  .next ((s.arrive dt).churnWrite addr data poison)

/-- CHURN_ADD32 (R426). -/
def execChurnAdd32 (dt addr mask : Nat) (addends : List Nat) (poison : Bool) (s : State) : Host.Outcome State Fault Refusal :=
  .next ((s.arrive dt).churnAdd addr mask addends poison)

/-- SUMMARY_MERGE (R425). -/
def execSummaryMerge (dt addr : Nat) (data : List Byte) (poison : Bool) (s : State) : Host.Outcome State Fault Refusal :=
  .next ((s.arrive dt).churnMerge addr data poison)

/-- CHURN_DEQUANT (R428). -/
def execChurnDequant (dt addr fmt elems : Nat) (s : State) : Host.Outcome State Fault Refusal :=
  .next ((s.arrive dt).churnDequant addr fmt elems)

/-- CHURN_POOL (R428). -/
def execChurnPool (dt : Nat) (addrs : List Nat) (fmt elems mode : Nat) (s : State) : Host.Outcome State Fault Refusal :=
  .next ((s.arrive dt).churnPool addrs fmt elems mode)

/-- SCRUB_LINE (R454). -/
def execScrubLine (dt chan mr4 : Nat) (upsets : List Upset) (s : State) : Host.Outcome State Fault Refusal :=
  .next ((s.arrive dt).scrubLine chan mr4 upsets)

/-- SHARD_CFG_WRITE (R419). -/
def execShardCfgWrite (dt chan w : Nat) (v : Word) (s : State) : Host.Outcome State Fault Refusal :=
  .next ((s.arriveBy dt w).writeShardCfg chan w v)

end Sys2Proof.Machine
end

