-- ==== Sys2Proof/Machine/TileOps.lean ====
section
/-! DEFINITION. Tile programs: the descriptor, the op record, operand forms, and what each op reads and writes
(spec/09_scion_tiles.md, R383 to R387, R405). -/

namespace Sys2Proof.Machine

/-- A tile program descriptor (Table 9-4). -/
structure TileProg where
  opCount : Nat
  proCount : Nat
  items : Nat
  opsOff : Nat
  deriving DecidableEq, Repr

/-- The fields of a tile program descriptor. -/
def tileProg (b : List Byte) : TileProg := ⟨fieldOf b 0 2, fieldOf b 2 2, fieldOf b 4 4, fieldOf b 8 4⟩

/-- An op record (Table 9-5). -/
structure TileOp where
  opc : Nat
  fa : Nat
  fb : Nat
  fd : Nat
  dst : Nat
  src0 : Nat
  src1 : Nat
  flags : Nat
  a : Nat
  b : Nat
  d : Nat
  m : Nat
  n : Nat
  k : Nat
  lda : Nat
  ldd : Nat
  isa : Nat
  isb : Nat
  isd : Nat
  aux : Nat
  deriving DecidableEq, Repr

/-- The fields of an op record. -/
def tileOp (b : List Byte) : TileOp :=
  let g := fieldOf b
  { opc := g 0 1, fa := g 1 1, fb := g 2 1, fd := g 3 1, dst := g 4 1, src0 := g 5 1, src1 := g 6 1, flags := g 7 1, a := g 8 8,
    b := g 0x10 8, d := g 0x18 8, m := g 0x20 4, n := g 0x24 2, k := g 0x26 2, lda := g 0x28 4, ldd := g 0x2C 4, isa := g 0x30 4,
    isb := g 0x34 4, isd := g 0x38 4, aux := g 0x3C 4 }

def TileOp.act (o : TileOp) : Bool := bitOf o.flags 0
def TileOp.infOk (o : TileOp) : Bool := bitOf o.flags 1
def TileOp.bcastB (o : TileOp) : Bool := bitOf o.flags 2
def TileOp.itemIter (o : TileOp) : Bool := bitOf o.flags 3

/-- The device address an address field names on tile `t` in item `j` (R385): an offset in the tile's own slice, or a device
address. -/
def operandAddr (t field stride j : Nat) : Nat :=
  if natBits field 63 62 = 0 then cellarAddr t (field % 2 ^ 21 + j * stride) else field % 2 ^ 48 + j * stride

/-- What an op answers: its writes, and whether it zeroed data (R405). -/
structure OpOut where
  writes : List (Nat × List Byte) := []
  bad : Bool := false
  deriving DecidableEq, Repr

/-- Bytes read in pieces cut at unit boundaries: poisoned pieces as zeros (R405). The fuel is the number of bytes. -/
def State.fetchMasked : Nat → State → Nat → Nat → (List Byte × Bool) × State
  | 0, s, _, _ => (([], false), s)
  | f + 1, s, d, n =>
    if n = 0 then (([], false), s)
    else
      let u := s.unitAt d 0
      let c := min n (u - d % u)
      let r := s.fetch d c
      let q := State.fetchMasked f r.2 (d + c) (n - c)
      (((if r.1.poison then List.replicate c 0 else r.1.bytes) ++ q.1.1, r.1.poison || q.1.2), q.2)

/-- Rows read one after another at the addresses given. -/
def State.fetchRows (s : State) (n : Nat) : List Nat → List Rd × State
  | [] => ([], s)
  | d :: t =>
    let r := s.fetch d n
    let q := State.fetchRows r.2 n t
    (r.1 :: q.1, q.2)

/-- The codes of a row of `n` elements of width `e`. -/
def codesOf (b : List Byte) (e n : Nat) : List Nat := (List.range n).map (fun i => fieldOf b (i * e) e)

/-! ## MATMUL and DCONV -/

/-- The weight codes of one output channel: `cnt` weights from index `first`, with the poison of their bytes. -/
def State.fetchWeights (s : State) (base wf first cnt : Nat) : (List Nat × Bool) × State :=
  let h := weightHalves wf
  let lo := first * h / 2
  let hi := ((first + cnt) * h + 1) / 2
  let r := s.fetch (base + lo) (hi - lo)
  ((((List.range cnt).map (fun i =>
    if wf = 4 then weightAt 4 r.1.bytes (first + i - 2 * lo) else fieldOf r.1.bytes (i * fmtBytes wf) (fmtBytes wf)), r.1.poison)), r.2)

/-- The weights of all output channels. -/
def State.fetchChannels (s : State) (base wf cnt : Nat) : List Nat → List (List Nat × Bool) × State
  | [] => ([], s)
  | n :: t =>
    let r := s.fetchWeights base wf (n * cnt) cnt
    let q := State.fetchChannels r.2 base wf cnt t
    (r.1 :: q.1, q.2)

/-- An output row over the channels: element n from its accumulator, its epilogue record and its poison (R344, R405). -/
def opRow (o : TileOp) (k : Nat) (accs : List (Acc × Bool)) (epi : List Rd) : List Byte × Bool :=
  let e := fmtBytes o.fd
  let cells := (accs.zip epi).zip (List.range accs.length) |>.map (fun x =>
    if x.1.1.2 || x.1.2.poison then (List.replicate e (0 : Byte), true)
    else (leBytes e (epilogue o.fd o.act o.infOk x.1.2.bytes (Config.freeAt k x.2) x.1.1.1), false))
  (cells.flatMap (·.1), cells.any (·.2))

/-- MATMUL (Table 9-6). -/
def State.opMatmul (s : State) (r : RunStage) (t j : Nat) (o : TileOp) : OpOut × State :=
  let a := r.place (operandAddr t o.a o.isa j)
  let b := operandAddr t o.b o.isb j
  let d := operandAddr t o.d o.isd j
  let wf := weightFmt o.fa o.fb
  let ea := fmtBytes o.fa
  let (ws, s) := s.fetchChannels b wf o.k (List.range o.n)
  let eb := b + (o.n * o.k * weightHalves wf + 1) / 2
  let (epi, s) := s.fetchRows 8 ((List.range o.n).map (fun n => eb + 8 * n))
  let (rows, s) := s.fetchRows (o.k * ea) ((List.range o.m).map (fun m => a + m * o.lda))
  let k := s.free
  let outs := rows.zip (List.range o.m) |>.map (fun x =>
    let row := codesOf x.1.bytes ea o.k
    let accs := ws.map (fun w => ((Acc.zero o.fa).mac o.fa wf row w.1, x.1.poison || w.2))
    (d + x.2 * o.ldd, opRow o (k + x.2) accs epi))
  ({ writes := outs.map (fun x => (x.1, x.2.1)), bad := outs.any (·.2.2) }, (List.range o.m).foldl (fun (s : State) _ => s.drawFree) s)

/-- Geometry of a DCONV in its AUX word. -/
def TileOp.wo (o : TileOp) : Nat := natBits o.aux 31 20
def TileOp.kh (o : TileOp) : Nat := natBits o.aux 19 16
def TileOp.kw (o : TileOp) : Nat := natBits o.aux 15 12
def TileOp.stride (o : TileOp) : Nat := natBits o.aux 11 10 + 1

/-- DCONV (Table 9-6). -/
def State.opDconv (s : State) (r : RunStage) (t j : Nat) (o : TileOp) : OpOut × State :=
  let a := r.place (operandAddr t o.a o.isa j)
  let b := operandAddr t o.b o.isb j
  let d := operandAddr t o.d o.isd j
  let wf := weightFmt o.fa o.fb
  let ea := fmtBytes o.fa
  let ed := fmtBytes o.fd
  let pxa := ceilDiv (o.k * ea) 16 * 16
  let pxd := ceilDiv (o.n * ed) 16 * 16
  let taps := o.kh * o.kw
  let (ws, s) := s.fetchChannels b wf (taps * o.k) (List.range o.n)
  let eb := b + (o.n * taps * o.k * weightHalves wf + 1) / 2
  let (epi, s) := s.fetchRows 8 ((List.range o.n).map (fun n => eb + 8 * n))
  let wi := (o.wo - 1) * o.stride + o.kw
  let hi := (o.m - 1) * o.stride + o.kh
  let (px, s) := s.fetchRows (o.k * ea) ((List.range (hi * wi)).map (fun i => a + i / wi * o.lda + i % wi * pxa))
  let k := s.free
  let outs := (List.range (o.m * o.wo)).map (fun i =>
    let y := i / o.wo
    let x := i % o.wo
    let ins := (List.range taps).map (fun q => px.getD ((y * o.stride + q / o.kw) * wi + x * o.stride + q % o.kw) ⟨[], true, 0⟩)
    let accs := ws.map (fun w =>
      ((ins.zip (List.range taps)).foldl (fun (acc : Acc) z =>
          acc.mac o.fa wf (codesOf z.1.bytes ea o.k) ((w.1.drop (z.2 * o.k)).take o.k)) (Acc.zero o.fa),
        w.2 || ins.any (·.poison)))
    (d + y * o.ldd + x * pxd, opRow o (k + i) accs epi))
  ({ writes := outs.map (fun x => (x.1, x.2.1)), bad := outs.any (·.2.2) },
    (List.range (o.m * o.wo)).foldl (fun (s : State) _ => s.drawFree) s)

/-! ## VEC and REDUCE -/

/-- One element of a VEC row (R387). -/
def State.vecElem (s : State) (o : TileOp) (a b : Nat) (i : Nat) : (List Byte × Bool) × State :=
  let op := o.aux % 256
  let ea := fmtBytes o.fa
  let ed := fmtBytes o.fd
  let (x, s) := s.fetch (a + i * ea) ea
  let (y, s) : Rd × State :=
    if op = 11 then s.fetch (b + 8 * i) 8
    else if op ≤ 4 then s.fetch (b + i * fmtBytes o.fb) (fmtBytes o.fb)
    else (⟨[], false, 0⟩, s)
  let v := s.freeVal
  let s := s.drawFree
  if x.poison || y.poison then ((List.replicate ed 0, true), s)
  else
    let c := leNat x.bytes
    let z := if op = 11 then requant o.act y.bytes v c else vecOp op o.fa o.fb o.fd o.infOk v c (leNat y.bytes)
    ((leBytes ed z, false), s)

/-- One row of a VEC. -/
def State.vecRow (s : State) (o : TileOp) (a b : Nat) : List Nat → (List Byte × Bool) × State
  | [] => (([], false), s)
  | i :: t =>
    let r := s.vecElem o a b i
    let q := State.vecRow r.2 o a b t
    ((r.1.1 ++ q.1.1, r.1.2 || q.1.2), q.2)

/-- One MINDIST result (R387): D[m] = min(D[m], bf16 of the squared distance). -/
def State.minDist (s : State) (a b d : Nat) : (List Byte × Bool) × State :=
  let (x, s) := s.fetch a 6
  let (y, s) := s.fetch b 6
  let (z, s) := s.fetch d 2
  let v := s.freeVal
  let s := s.drawFree
  if x.poison || y.poison || z.poison then (([0, 0], true), s)
  else ((leBytes 2 (vecOp 4 3 3 3 false v (leNat z.bytes) (distBf16 x.bytes y.bytes)), false), s)

/-- The rows of a VEC op. -/
def State.vecRows (s : State) (o : TileOp) (a b d : Nat) : List Nat → OpOut × State
  | [] => ({}, s)
  | m :: t =>
    let bm := if o.bcastB || o.aux % 256 == 11 || o.aux % 256 == 12 then b else b + m * o.lda
    let r := if o.aux % 256 = 12 then s.minDist (a + m * o.lda) bm (d + m * o.ldd)
      else s.vecRow o (a + m * o.lda) bm (List.range o.n)
    let q := State.vecRows r.2 o a b d t
    ({ writes := (d + m * o.ldd, r.1.1) :: q.1.writes, bad := r.1.2 || q.1.bad }, q.2)

/-- VEC (Table 9-6). -/
def State.opVec (s : State) (r : RunStage) (t j : Nat) (o : TileOp) : OpOut × State :=
  s.vecRows o (r.place (operandAddr t o.a o.isa j)) (operandAddr t o.b o.isb j) (operandAddr t o.d o.isd j) (List.range o.m)

/-- The rows of a REDUCE op. -/
def State.reduceRows (s : State) (o : TileOp) (a d : Nat) : List Nat → OpOut × State
  | [] => ({}, s)
  | m :: t =>
    let ea := fmtBytes o.fa
    let ed := fmtBytes o.fd
    let x := s.fetch (a + m * o.lda) (o.n * ea)
    let v := x.2.freeVal
    let out := if x.1.poison then List.replicate ed (0 : Byte)
      else leBytes ed (reduceRow (o.aux % 256) o.fa o.fd o.infOk v (codesOf x.1.bytes ea o.n))
    let q := State.reduceRows x.2.drawFree o a d t
    ({ writes := (d + m * o.ldd, out) :: q.1.writes, bad := x.1.poison || q.1.bad }, q.2)

/-- REDUCE (Table 9-6). -/
def State.opReduce (s : State) (r : RunStage) (t j : Nat) (o : TileOp) : OpOut × State :=
  s.reduceRows o (r.place (operandAddr t o.a o.isa j)) (operandAddr t o.d o.isd j) (List.range o.m)

/-! ## DMA and GATHER -/

/-- The rows of a DMA op. -/
def State.dmaRows (s : State) (o : TileOp) (a d : Nat) : List Nat → OpOut × State
  | [] => ({}, s)
  | m :: t =>
    let x := State.fetchMasked o.aux s (a + m * o.lda) o.aux
    let q := State.dmaRows x.2 o a d t
    ({ writes := (d + m * o.ldd, x.1.1) :: q.1.writes, bad := x.1.2 || q.1.bad }, q.2)

/-- DMA (Table 9-6). -/
def State.opDma (s : State) (r : RunStage) (t j : Nat) (o : TileOp) : OpOut × State :=
  s.dmaRows o (r.place (operandAddr t o.a o.isa j)) (operandAddr t o.d o.isd j) (List.range o.m)

/-- The rows of a GATHER op. -/
def State.gatherRows (s : State) (o : TileOp) (a b d : Nat) : List Nat → OpOut × State
  | [] => ({}, s)
  | m :: t =>
    let i := s.fetch (b + 4 * m) 4
    let idx := leNat i.1.bytes
    let x : (List Byte × Bool) × State :=
      if i.1.poison then ((List.replicate o.aux 0, true), i.2)
      else if idx = 0xFFFFFFFF then ((List.replicate o.aux 0, false), i.2)
      else State.fetchMasked o.aux i.2 (a + idx * o.lda) o.aux
    let q := State.gatherRows x.2 o a b d t
    ({ writes := (d + m * o.ldd, x.1.1) :: q.1.writes, bad := x.1.2 || q.1.bad }, q.2)

/-- GATHER (Table 9-6). -/
def State.opGather (s : State) (r : RunStage) (t j : Nat) (o : TileOp) : OpOut × State :=
  s.gatherRows o (r.place (operandAddr t o.a o.isa j)) (operandAddr t o.b o.isb j) (operandAddr t o.d o.isd j) (List.range o.m)

/-! ## Cycle bounds (Table 9-6, R386) -/

/-- 19.2 × DRAM_SHARE / TILE_SPAN in tenths of a byte per ns, as a fraction, limited to 16 bytes per ns.
[DEDUCED: notes/assumptions/75.md] -/
def dmaCycles (cellar : Bool) (share span bytes : Nat) : Nat :=
  -- ceil(1.4 × bytes / r)
  if cellar || Nat.ble (160 * span) (192 * share) then ceilDiv (14 * bytes) 160
  else ceilDiv (14 * bytes * span) (192 * share)

/-- Both ends of a transfer are Cellar. -/
def TileOp.inCellar (o : TileOp) : Bool :=
  let c := fun (f : Nat) => natBits f 63 62 == 0 ||
    (Nat.ble 0x001000000000 (f % 2 ^ 48) && Nat.blt (f % 2 ^ 48) 0x001006000000)
  c o.a && c o.d

/-- g of R386. -/
def vecG (c es : Nat) : Nat := max c (ceilDiv (32 * es) 128)

/-- The cycle bound of an op; `tmax` is T_max of the stage. [DEDUCED: notes/assumptions/75.md] -/
def opBound (o : TileOp) (share span tmax : Nat) : Nat :=
  let kb := if o.fa = 3 then 16 else 32
  let nb := if o.fa = 3 then 4 else 8
  let op := o.aux % 256
  if o.opc = 1 then 32 + o.m * ceilDiv o.k kb * ceilDiv o.n nb + ceilDiv (o.m * o.n) 32
  else if o.opc = 2 then
    32 + o.m * o.wo * o.kh * o.kw * ceilDiv o.k kb * ceilDiv o.n nb + ceilDiv (o.m * o.wo * o.n) 32
  else if o.opc = 3 then
    let c := if (7 ≤ op ∧ op ≤ 10) ∨ op = 12 then 4 else 1
    let es := if op = 12 then 8 else if op = 11 then fmtBytes o.fa + 8 else if op ≤ 4 then fmtBytes o.fa + fmtBytes o.fb else fmtBytes o.fa
    32 + o.m * ceilDiv o.n 32 * vecG c es
  else if o.opc = 4 then 32 + o.m * (ceilDiv o.n 32 * vecG 1 (fmtBytes o.fa) + 5)
  else if o.opc = 5 then 16 + dmaCycles o.inCellar share span (o.m * o.aux)
  else if o.opc = 6 then 16 + o.m + dmaCycles o.inCellar share span (o.m * o.aux)
  else if o.opc = 7 then 16 + ceilDiv (14 * span * tmax) 10
  else 4

end Sys2Proof.Machine
end

