-- ==== Sys2Proof/Machine/Tile.lean ====
section
/-! DEFINITION. The tile sequencer, Harvest requests, power gating, wake and in-field tests (spec/09_scion_tiles.md, R376,
R388 to R406; spec/07_harvest_selection.md, R298, R299, R325). -/

namespace Sys2Proof.Machine

/-! ## Mapping (R376) -/

/-- The physical tiles of a stage's mapping (R376). -/
def State.mapping (s : State) (ct first span : Nat) : List Nat :=
  let tc := min ct s.tileCount
  let np := ceilDiv (span * tc) ct
  let b := min (first * tc / ct) (tc - np)
  (s.enabledTiles.drop b).take np

/-- The tiles in the mapping of any stage of the active plan. -/
def State.planTiles (s : State) : List Nat :=
  let p := s.activePlan
  if s.activeLoaded then p.stages.flatMap (fun r => s.mapping p.hdr.compiledTiles r.tileFirst r.tileSpan) else []

/-- A tile is free: no stage holds it, and it is not under test (R377). -/
def State.tileFree (s : State) (n : Nat) : Bool := (s.tile n).heldBy == 0 && !(s.tile n).underTest

/-! ## Harvest requests (R298, R299) -/

/-- Harvest accepts requests: its ENABLE is 1. -/
def State.hrvOn (s : State) : Bool := (s.page 0x050).enable

/-- The order of requests accepted in one cycle: the stage's first, then the tiles' in ascending number (R298). -/
def HrvReq.turn (q : HrvReq) : Nat := if q.tile then q.id + 1 else 0

/-- A request joins requests in order: after those of earlier cycles, and among those of its cycle in their order (R298). -/
def hrvInsert (q : HrvReq) : List HrvReq → List HrvReq
  | [] => [q]
  | x :: t => if x.at_ == q.at_ && Nat.blt q.turn x.turn then q :: x :: t else x :: hrvInsert q t

/-- A request enters the queue; QUEUE_PEAK follows. -/
def State.hrvEnqueue (s : State) (q : HrvReq) : State :=
  let s := s.updHrv (fun h => { h with queue := hrvInsert { q with at_ := s.cycles } h.queue })
  let n := s.hrv.queue.length
  if s.fld F.HRV_QUEUE_PEAK < n then s.setFld F.HRV_QUEUE_PEAK n else s

/-- The queue has room. -/
def State.hrvRoom (s : State) : Bool := Nat.blt s.hrv.queue.length 16

/-- A tile's request: queued, or held at the tile while the queue is full, counted once (R299). -/
def State.hrvTileRequest (s : State) (q : HrvReq) : State :=
  if s.hrvRoom then s.hrvEnqueue q
  else ((s.updHrv (fun h => { h with held := hrvInsert { q with at_ := s.cycles } h.held })).bump F.HRV_QUEUE_FULL_CNT).event 0x050 2

/-- A freed entry takes the oldest request held at a tile. -/
def State.hrvAdmit (s : State) : State :=
  match s.hrv.held with
  | [] => s
  | q :: t => if s.hrvRoom then (s.updHrv (fun h => { h with held := t })).hrvEnqueue q else s

/-- A request completes with a code: the counters, and for an error LAST_ERR, LAST_SRC and the event (R301, R325, R328).
[DEDUCED: notes/assumptions/44.md] -/
def State.hrvCount (s : State) (q : HrvReq) (row code : Nat) : State :=
  let s := s.bump F.HRV_REQ_CNT
  if code = 0 then s
  else
    let s := ((s.bump F.HRV_REQ_ERR_CNT).setFld F.HRV_LAST_ERR_CODE code).setFld F.HRV_LAST_ERR_ROW row
    ((s.setFld F.HRV_LAST_SRC_SOURCE (b2n q.tile)).setFld F.HRV_LAST_SRC_ID q.id).event 0x050 0

/-- LAST_ERR of a tile: the code, and the index of the op that reported it (Table 9-8). -/
def State.tileLastErr (s : State) (n code op : Nat) : State :=
  (s.setFld (F.TILE_LAST_ERR_CODE n) code).setFld (F.TILE_LAST_ERR_OP n) op

/-! ## Tags and items (R388, R389) -/

/-- Tag `t` of tile `n` is busy. -/
def State.tagBusy (s : State) (n t : Nat) : Bool :=
  if t < 32 then bitOf (s.fld (F.TILE_SB_BUSY_LO_TAGS n)) t else bitOf (s.fld (F.TILE_SB_BUSY_HI_TAGS n)) (t - 32)

/-- A tag becomes busy or is released; 0xFF names none. -/
def State.setTag (s : State) (n t : Nat) (v : Bool) : State :=
  if t < 32 then s.setFld (F.TILE_SB_BUSY_LO_TAGS n) (putBit (s.fld (F.TILE_SB_BUSY_LO_TAGS n)) t v)
  else if t < 64 then s.setFld (F.TILE_SB_BUSY_HI_TAGS n) (putBit (s.fld (F.TILE_SB_BUSY_HI_TAGS n)) (t - 32) v)
  else s

/-- Every tag of a tile is released. -/
def State.tagsClear (s : State) (n : Nat) : Bool :=
  s.fld (F.TILE_SB_BUSY_LO_TAGS n) == 0 && s.fld (F.TILE_SB_BUSY_HI_TAGS n) == 0

/-- The running stage that holds a tile. -/
def State.tileStage (s : State) (n : Nat) : Option RunStage :=
  if (s.tile n).heldBy = 0 then none else s.runStage ((s.tile n).heldBy - 1)

/-- The program a stage runs, read in place (R133). -/
def State.progOf (s : State) (r : RunStage) : TileProg := tileProg (s.read r.desc 64).bytes

/-- Where op `i` of a stage's program stands. -/
def State.opAddr (s : State) (r : RunStage) (i : Nat) : Nat := r.progBase + (s.progOf r).opsOff + 64 * i

/-- Op `i` of a stage's program, read in place. -/
def State.opAt (s : State) (r : RunStage) (i : Nat) : TileOp := tileOp (s.read (s.opAddr r i) 64).bytes

/-- The program header and the op that tile `n` takes next are read (R427). -/
def State.touchOp (s : State) (n : Nat) (r : RunStage) : State := (s.touch r.desc 64).touch (s.opAddr r (s.tile n).nextOp) 64

/-- The tile goes on: a fence opens, the prologue ends, or the item ends (R388). -/
def State.tileAdvance (s : State) (n : Nat) : State :=
  let s := if (s.tile n).fenced && s.tagsClear n && (s.tile n).inflight.isEmpty then (s.updTile n (fun t => { t with fenced := false })).bump (F.TILE_OP_CNT n) else s
  match s.tileStage n with
  | none => s
  | some r =>
    let t := s.tile n
    let p := s.progOf r
    if t.item = 0 ∨ t.fenced = true ∨ t.inflight ≠ [] then s
    else if t.inPrologue then
      if p.proCount ≤ t.nextOp then s.updTile n (fun t => { t with inPrologue := false, prologueDone := true }) else s
    else if p.opCount ≤ t.nextOp then
      ((s.updTile n (fun t => { t with item := 0, freedAt := s.cycles })).bump (F.TILE_ITEM_CNT n)).updRun r.stage (fun x => { x with ended := x.ended + 1 })
    else s

/-- No other tile of the stage that can take an item became free before tile `n` (R388); among tiles that became free in one cycle the
spec names none. [DEDUCED: notes/assumptions/46.md] -/
def State.freeFirst (s : State) (r : RunStage) (n : Nat) : Bool :=
  r.tiles.all (fun t => (s.tile t).item != 0 || (s.page (tilePage t)).cond.fault || Nat.ble (s.tile n).freedAt (s.tile t).freedAt)

/-- TILE_ITEM_START: the next item goes to the tile of the stage that became free first, which runs its prologue first (R388). -/
def State.itemStart (s : State) (n : Nat) : State :=
  match s.tileStage n with
  | none => s
  | some r =>
    let t := s.tile n
    let p := s.progOf r
    if r.kind = 0 ∧ r.stopped = false ∧ t.item = 0 ∧ r.dealt < p.items ∧ (s.page (tilePage n)).cond.fault = false
        ∧ (s.page (tilePage n)).cond.frozen = false ∧ s.freeFirst r n = true then
      let pro := !t.prologueDone && p.proCount != 0
      (s.updTile n (fun t => { t with
        item := r.dealt + 1, inPrologue := pro, nextOp := if pro then 0 else p.proCount })).updRun r.stage
          (fun x => { x with dealt := x.dealt + 1 })
    else s

/-! ## Ops (R389, R405, R406) -/

/-- A parity or lockstep mismatch in a tile (R406): the stage that holds it stops and completes with 0x6023, the tile's page and the Frame
Scheduler enter FAULT, and the frame in compute is not published. [DEDUCED: notes/assumptions/32.md] -/
def State.tileLogicFault (s : State) (n : Nat) : State :=
  let s := s.tileLastErr n 0x6023 (s.tile n).nextOp
  let s := match s.tileStage n with | some r => (s.stopTiles r).endStage r 0x6023 | none => s
  let s := s.error (tilePage n) 0x6023 0
  let s := s.updCond 0x010 (fun c => { c with fault := true })
  (s.pageFault (tilePage n) 0x6023).dropCompute 0x6023

/-- The item an op runs for: 0 in the prologue (R385). -/
def Tile.itemNo (t : Tile) : Nat := if t.inPrologue then 0 else t.item - 1

/-- The next op of a tile, when it may issue (R389) and its OPC is `opc`: the stage, the item and the op. -/
def State.issueOp (s : State) (n opc : Nat) : Option (RunStage × Nat × TileOp) :=
  match s.tileStage n with
  | none => none
  | some r =>
    let t := s.tile n
    let p := s.progOf r
    let o := s.opAt r t.nextOp
    let lim := if t.inPrologue then p.proCount else p.opCount
    let free := fun (g : Nat) => g == 0xFF || !s.tagBusy n g
    if t.item ≠ 0 ∧ t.fenced = false ∧ t.nextOp < lim ∧ o.opc = opc ∧ free o.src0 = true ∧ free o.src1 = true
        ∧ free o.dst = true ∧ (s.hrv.held.any (fun q => q.tile && q.id == n)) = false ∧ (s.page (tilePage n)).cond.fault = false
        ∧ (s.page (tilePage n)).cond.frozen = false
    then some (r, t.itemNo, o) else none

/-- Bytes of which each is the old or the new one, by a free value (R390). -/
def mixBytes (v : Nat) (old new : List Byte) : List Byte :=
  new.mapIdx (fun i b => if Config.freeAt v i % 2 = 0 then b else old.getD i b)

/-- The device holds the bytes at `d` itself, where a stage with or without OUTPUT may write them. -/
def State.heldHere (s : State) (output : Bool) (d : Nat) : Bool :=
  match s.home d with
  | .dram _ _ => true
  | .cellar _ _ => true
  | .result _ => output
  | .mailbox _ => false
  | .fusedOff => false
  | .global => false
  | .reserved => false

/-- An op that issues while others of its tile are in flight names none of their tags (R389): each byte that they write may already have its
new value (R390). [DEDUCED: notes/assumptions/46.md] -/
def State.opEarly (s : State) (n : Nat) (r : RunStage) : State :=
  (s.tile n).inflight.foldl (fun (s : State) x => x.writes.foldl (fun (s : State) w =>
    if s.heldHere r.output (r.place w.1) then
      (s.drawFree).poke r.output (r.place w.1) (mixBytes s.free (s.peek (r.place w.1) w.2.length) w.2)
    else s) s) s

/-- What an op writes at `d` when it completes: where an op beside it has written meanwhile, each byte ends as either left it (R390).
[DEDUCED: notes/assumptions/46.md] -/
def State.racedBytes (s : State) (r : RunStage) (x : OpRun) (d : Nat) (bs : List Byte) : List Byte :=
  let mix := mixBytes s.free (s.peek d bs.length) bs
  bs.mapIdx (fun i b => if s.heldHere r.output (d + i) && x.raced.any (fun e => overlap (d + i, 1) e) then mix.getD i b else b)

/-- An op is issued: an armed parity injection acts on it (Table 18-6); otherwise its writes wait for its completion. An op that
reads another node issues when the answers to its reads are here (REMOTE_REQUEST). [DEDUCED: notes/assumptions/46.md] -/
def State.issue (s : State) (n opc unit : Nat) (f : State → RunStage → Nat → TileOp → OpOut × State) : State :=
  match s.issueOp n opc with
  | none => s
  | some (r, j, o) =>
    let q := s.takeInjection 5 n
    if q.1 then q.2.tileLogicFault n
    else
      let x := f (((q.2.touchOp n r).asAgent (.tile n)).opEarly n r) r j o
      if x.2.grf.miss then s
      else
        let run : OpRun := { tag := o.dst, unit := unit, op := (s.tile n).nextOp, writes := x.1.writes, code := if x.1.bad then 0x5016 else 0 }
        ((x.2.dropReads (.tile n)).setTag n o.dst true).updTile n (fun t => { t with nextOp := t.nextOp + 1, inflight := t.inflight ++ [run] })

/-- The writes of an op in flight are made; those to other nodes leave as requests (R535). [DEDUCED: notes/assumptions/46.md] -/
def State.opWrites (s : State) (n : Nat) (r : RunStage) (x : OpRun) : State :=
  let s := x.writes.foldl (fun (s : State) w =>
    if x.raced.isEmpty then s.stageWrite r w.1 w.2
    else (s.drawFree).stageWrite r w.1 (s.racedBytes r x (r.place w.1) w.2)) (s.asAgent (.tile n))
  let ext := x.writes.map (fun w => (r.place w.1, w.2.length))
  s.updTile n (fun t => { t with inflight := t.inflight.map (fun y =>
    if y.op = x.op then { y with writes := [] } else { y with raced := y.raced ++ ext }) })

/-- TILE_OP_COMPLETE: the oldest op of a unit completes (R389): its writes become visible and its tag is released, by the response
where it wrote to another node; data errors are recorded (R405). [DEDUCED: notes/assumptions/46.md] -/
def State.opComplete (s : State) (n unit : Nat) : State :=
  match s.tileStage n, (s.tile n).inflight.find? (fun x => x.unit == unit && unit != 3) with
  | some r, some x =>
    let s := s.opWrites n r x
    if s.awaits (.tile n) then s
    else
      let code := if x.code = 0 then s.answerCode (.tile n) else x.code
      let s := s.dropAcks (.tile n)
      let s := (s.setTag n x.tag false).updTile n (fun t => { t with inflight := t.inflight.filter (fun y => y.op != x.op) })
      let s := s.bump (F.TILE_OP_CNT n)
      let s := if unit = 0 then (s.bumpBy (F.TILE_MAC_BUSY_CNT n) (s.freeVal % 4096)).drawFree else s
      let s :=
        if code = 0 then s
        else if x.code = 0 then (s.tileLastErr n code x.op).stageCode r.stage code
        else
          let s := (s.bump (F.TILE_DATA_ERR_CNT n)).tileLastErr n x.code x.op
          ((s.error (tilePage n) x.code 0).event (tilePage n) 0).stageCode r.stage x.code
      s.tileAdvance n
  | some _, none => s
  | none, _ => s

/-- TILE_OP_COMPLETE, or with `mismatch` what the checkers of a powered tile find: parity or lockstep of its sequencer, its scoreboard or its MAC
control disagrees (R406). -/
def State.opEnd (s : State) (n unit : Nat) (mismatch : Bool) : State :=
  if mismatch then (if s.tilePresent n && !(s.page (tilePage n)).cond.gated then s.tileLogicFault n else s) else s.opComplete n unit

/-- TILE_HRV: the template is copied and the request issued; while Harvest is disabled it completes at once (R325, R386). A descriptor
address that is not a multiple of 64 is served as it stands. [DESIGN CHOICE: notes/assumptions/44.md] -/
def State.opHrv (s : State) (n : Nat) : State :=
  match s.issueOp n 7 with
  | none => s
  | some (r, j, o) =>
    let q := s.takeInjection 5 n
    if q.1 then q.2.tileLogicFault n
    else
      let src := operandAddr n o.b o.isb j
      let dst := operandAddr n o.a o.isa j
      let f := State.fetchMasked 64 (((q.2.touchOp n r).asAgent (.tile n)).opEarly n r) src 64
      let b := f.1.1
      let b := if o.itemIter then b.take 0x34 ++ leBytes 2 (j + o.aux % 2 ^ 16) ++ b.drop 0x36 else b
      let s := f.2.write dst b
      let s := if f.1.2 then
          let s := (s.bump (F.TILE_DATA_ERR_CNT n)).tileLastErr n 0x5016 (s.tile n).nextOp
          ((s.error (tilePage n) 0x5016 0).event (tilePage n) 0).stageCode r.stage 0x5016
        else s
      let req : HrvReq := { tile := true, id := n, stage := r.stage, tag := o.dst, desc := dst, output := r.output, set := r.set }
      if !s.hrvOn then
        let s := (s.hrvCount req 0 0xA00B).tileLastErr n 0xA00B (s.tile n).nextOp
        ((s.updTile n (fun t => { t with nextOp := t.nextOp + 1 })).bump (F.TILE_OP_CNT n)).stageCode r.stage 0xA00B |>.tileAdvance n
      else
        let run : OpRun := { tag := o.dst, unit := 3, op := (s.tile n).nextOp }
        let s := (s.setTag n o.dst true).updTile n (fun t => { t with nextOp := t.nextOp + 1, inflight := t.inflight ++ [run] })
        s.hrvTileRequest req

/-- A tile's Harvest request completes with a code: its tag is released (R301). -/
def State.hrvTileDone (s : State) (q : HrvReq) (code : Nat) : State :=
  match (s.tile q.id).inflight.find? (fun x => x.unit == 3 && x.tag == q.tag) with
  | none => s
  | some x =>
    let s := if code = 0 then s else s.tileLastErr q.id code x.op
    ((s.setTag q.id q.tag false).updTile q.id (fun t => { t with inflight := t.inflight.filter (fun y => y.op != x.op) })).bump
      (F.TILE_OP_CNT q.id) |>.tileAdvance q.id

/-- TILE_FENCE: nothing further issues until every earlier op is complete and every tag released (R434). [DEDUCED: notes/assumptions/46.md] -/
def State.opFence (s : State) (n : Nat) : State :=
  match s.issueOp n 8 with
  | none => s
  | some (r, _, _) =>
    let q := s.takeInjection 5 n
    if q.1 then q.2.tileLogicFault n
    else ((q.2.touchOp n r).updTile n (fun t => { t with nextOp := t.nextOp + 1, fenced := true })).tileAdvance n

/-! ## Power gating and wake (R393, R394, R717) -/

/-- A frame of the active plan is between its tick and its publication. -/
def State.frameBusy (s : State) : Bool := s.frm.compute.isSome || s.frm.closing.isSome

/-- TILE_GATE: a free tile is gated when R393 permits it, or in TRIM outside the mapping of the active plan (R717). -/
def State.tileGate (s : State) (n : Nat) : State :=
  let inPlan := s.planTiles.contains n
  let idle := s.tileFree n && s.tilePresent n && !(s.page (tilePage n)).cond.gated
  let byEn := s.flag (F.TILE_PWR_GATE_EN n) && Nat.ble (usCycles (s.fld (F.TILE_PWR_GATE_IDLE_US n))) (s.cycles - (s.tile n).idleSince)
    && !(s.frameBusy && inPlan)
  let byTrim := s.fld F.PWR_STATE == 1 && !inPlan
  if idle && (byEn || byTrim) then (s.updCond (tilePage n) (fun c => { c with gated := true })).event (tilePage n) 1 else s

/-- Every tile in the mapping of the active plan is asked to wake: at a tick, and at acceptance of a frame job. -/
def State.wakePlanTiles (s : State) : State := s.planTiles.foldl (fun (s : State) n => s.wakeTile n) s

/-- The compute domain of a tile is powered. -/
def State.powerTile (s : State) (n : Nat) : State :=
  if (s.page (tilePage n)).cond.gated then
    ((s.updCond (tilePage n) (fun c => { c with gated := false })).event (tilePage n) 2).updTile n (fun t => { t with
      wakeReq := false, idleSince := s.cycles })
  else s

/-- TILE_WAKE: a gated tile that has been asked to wake is powered. [DEDUCED: notes/assumptions/46.md] -/
def State.tileWake (s : State) (n : Nat) : State := if (s.tile n).wakeReq then s.powerTile n else s

/-- A write of TILE_PWR by `w` (R394): its WAKE bit asks for the wake of a gated tile, whose other fields keep R111.
[DEDUCED: notes/assumptions/46.md] -/
def State.writeTilePwr (s : State) (n w : Nat) (v : Word) : State :=
  let p := tilePage n
  let wake := fun (s : State) => if getBits v 1 1 = 1 then s.wakeTile n else s
  match s.portCheck p 0x4C w with
  | some s' => if (s.page p).cond.gated then wake s' else s'
  | none =>
    let s := if lockAdmits (s.page p) w then
        (s.setFld (F.TILE_PWR_GATE_IDLE_US n) (getBits v 31 16)).setFld (F.TILE_PWR_GATE_EN n) (getBits v 0 0)
      else s.error p Err.lockNotHeld (infoOffWriter 0x4C w)
    (wake s).wrote p w

/-! ## In-field test (R395 to R400) -/

/-- AON cycles of a test: 1,048,576 CORE cycles at the CORE frequency in force. [DEDUCED: notes/assumptions/75.md] -/
def State.testCycles (s : State) : Nat := ceilDiv (1048576 * 200) (max 1 (s.fld F.GLB_CLOCK_STATUS_CORE_MHZ))

/-- AON cycles from now to the predicted next tick (R396). -/
def State.toNextTick (s : State) : Nat :=
  let p := if s.frm.extTick then s.periodCycles * 98 / 100 else s.periodCycles
  s.frm.lastTickAt + p - s.cycles

/-- A test window may open: once in a frame, and while the Frame Scheduler is IDLE as often as its 100 µs allow (R396).
[DEDUCED: notes/assumptions/46.md] -/
def State.windowMayOpen (s : State) : Bool :=
  s.flag F.FRM_TEST_CFG_TEST_EN && s.frm.testTiles.isEmpty && (!s.frm.testDoneInFrame || s.pstate 0x010 == St.idle) && !s.frameBusy
    && s.fld F.GLB_CLOCK_STATUS_CORE_MHZ != 0
    && (if s.paced then s.frm.testAfterPub && Nat.blt (s.testCycles + usCycles 60) s.toNextTick
      else (s.frm.freeRun || s.pstate 0x010 == St.idle) && Nat.ble (s.frm.emptyAt + usCycles 100) s.cycles
        && !(s.allJobs.any (fun x => x.2.2.opc == 4)))

/-- The next `k` present tiles from tile `n` of the rotation, and where the rotation then stands. -/
def nextTiles (present : Nat → Bool) : Nat → Nat → Nat → List Nat × Nat
  | 0, n, _ => ([], n)
  | _ + 1, n, 0 => ([], n)
  | f + 1, n, k + 1 =>
    if present n then
      let r := nextTiles present f ((n + 1) % 64) k
      (n :: r.1, r.2)
    else nextTiles present f ((n + 1) % 64) (k + 1)

/-- TEST_WINDOW_OPEN (R396, R400): the requested tile first, then the next of the rotation; gated tiles wake. TEST_CFG takes effect
here (Table 9-10). -/
def State.testWindowOpen (s : State) : State :=
  if s.windowMayOpen then
    let req := if s.flag F.FRM_TEST_REQ_PENDING then some s.frm.testPend else none
    let g := s.fld F.FRM_TEST_CFG_GROUP
    let k := match req with | some _ => g - 1 | none => g
    let r := nextTiles s.tilePresent 64 (s.fld F.FRM_TEST_ROTOR_NEXT) k
    let ts := match req with | some t => t :: r.1.filter (· != t) | none => r.1
    let s := ts.foldl (fun (s : State) n => (s.powerTile n).updTile n (fun t => { t with underTest := true })) s
    s.updFrm (fun f => { f with
      testTiles := ts, testWindow := ts, testInterval := s.fld F.FRM_TEST_CFG_INTERVAL_MS, testRotation := r.2, testDoneInFrame := true })
  else s

/-- A tile is withdrawn (R399). -/
def State.withdrawTile (s : State) (n : Nat) : State :=
  let s := s.updTile n (fun t => { t with withdrawn := true })
  let s := (s.setFld (F.TILE_TEST_STATUS_WITHDRAWN n) 1).setFld (F.TILE_TEST_STATUS_LAST n) 2
  let s := if n < 32 then s.setFld F.FRM_WITHDRAWN_LO_TILES (setBit (s.fld F.FRM_WITHDRAWN_LO_TILES) n)
    else s.setFld F.FRM_WITHDRAWN_HI_TILES (setBit (s.fld F.FRM_WITHDRAWN_HI_TILES) (n - 32))
  let s := ((s.tileLastErr n 0x6021 0).error (tilePage n) 0x6021 (word n)).event 0x011 1
  let s := s.updCond 0x010 (fun c => { c with fault := true })
  (s.pageFault (tilePage n) 0x6021).latch Cause.selftestFail 0x6021

/-- A test ends with its signature: a pass, or the tile is withdrawn (R398, R399). -/
def State.testResult (s : State) (n : Nat) (pass : Bool) : State :=
  let s := (s.event (tilePage n) 3).event 0x011 0
  if pass then
    ((s.setFld (F.TILE_TEST_STATUS_LAST n) 1).bump (F.TILE_TEST_PASS_CNT n)).updTile n (fun t => { t with passAt := s.cycles, overdue := 0 })
  else s.withdrawTile n

/-- TEST_DONE: a tile of the window ends its test; with the last one the rotation advances, and a pending request for a tile of the window
is served (R400). -/
def State.testDone (s : State) (n : Nat) (pass : Bool) : State :=
  if s.frm.testTiles.contains n then
    let q := s.takeInjection 6 n
    let s := q.2.updTile n (fun t => { t with underTest := false, idleSince := q.2.cycles })
    let s := s.updFrm (fun f => { f with testTiles := f.testTiles.filter (· != n) })
    let s := s.testResult n (pass && !q.1)
    if s.frm.testTiles.isEmpty then
      let s := s.setFld F.FRM_TEST_ROTOR_NEXT s.frm.testRotation
      let s := if s.frm.testWindow.contains s.frm.testPend then s.setFld F.FRM_TEST_REQ_PENDING 0 else s
      s.updFrm (fun f => { f with testWindow := [] })
    else s
  else s

/-- A tick or an accepted frame job aborts an open window (R397). -/
def State.testAbort (s : State) : State :=
  match s.frm.testTiles with
  | [] => s
  | l =>
    let s := l.foldl (fun (s : State) n =>
      (s.updTile n (fun t => { t with underTest := false, idleSince := s.cycles })).setFld (F.TILE_TEST_STATUS_LAST n) 3) s
    (s.bump F.FRM_TEST_ABORT_CNT).updFrm (fun f => { f with testTiles := [], testWindow := [] })

/-- A frame ends without a window (R396), and the next may have one. Before tick 0, or the first frame job, no frame ends. -/
def State.testSkip (s : State) : State :=
  let s := if s.flag F.FRM_TEST_CFG_TEST_EN && !s.frm.testDoneInFrame && !s.frm.beforeTick0 then s.bump F.FRM_TEST_SKIP_CNT else s
  s.updFrm (fun f => { f with testDoneInFrame := false, testAfterPub := false, beforeTick0 := false })

/-- TEST_STATUS AGE_MS of a tile: milliseconds since its last pass, saturating. -/
def State.testAge (s : State) (n : Nat) : Nat := min 65535 ((s.cycles - (s.tile n).passAt) / msCycles 1)

/-- TEST_OVERDUE (R398): once per interval while the Frame Scheduler is RUNNING. -/
def State.testOverdue (s : State) (n : Nat) : State :=
  let iv := s.frm.testInterval
  let k := ((s.cycles - (s.tile n).passAt) / msCycles 1) / iv
  if s.tilePresent n ∧ s.pstate 0x010 = St.running ∧ (s.tile n).overdue < k then
    let s := s.updTile n (fun t => { t with overdue := k })
    ((s.error 0x011 0x6022 0).event 0x011 2).latch Cause.testOverdue 0x6022
  else s

/-- A write of TEST_REQ by `w` (R400): only one with REQ = 1 names the tile of a request. -/
def State.writeTestReq (s : State) (w : Nat) (v : Word) : State :=
  s.onWrite 0x011 0x7C w v (fun s =>
    let s := s.setFld F.FRM_TEST_REQ_TILE (getBits v 5 0)
    let s := if getBits v 8 8 = 1 then (s.setFld F.FRM_TEST_REQ_PENDING 1).updFrm (fun f => { f with testPend := getBits v 5 0 }) else s
    s.wrote 0x011 w)

/-! ## The commands -/

/-- TILE_ITEM_START (R388). -/
def execTileItemStart (dt tile : Nat) (s : State) : Host.Outcome State Fault Refusal := .next ((s.arrive dt).itemStart tile)

/-- TILE_MATMUL (R386). -/
def execTileMatmul (dt tile : Nat) (s : State) : Host.Outcome State Fault Refusal :=
  .next ((s.arrive dt).issue tile 1 0 (fun s r j o => s.opMatmul r tile j o))

/-- TILE_DCONV (R386). -/
def execTileDconv (dt tile : Nat) (s : State) : Host.Outcome State Fault Refusal :=
  .next ((s.arrive dt).issue tile 2 0 (fun s r j o => s.opDconv r tile j o))

/-- TILE_VEC (R387). -/
def execTileVec (dt tile : Nat) (s : State) : Host.Outcome State Fault Refusal :=
  .next ((s.arrive dt).issue tile 3 1 (fun s r j o => s.opVec r tile j o))

/-- TILE_REDUCE (R387). -/
def execTileReduce (dt tile : Nat) (s : State) : Host.Outcome State Fault Refusal :=
  .next ((s.arrive dt).issue tile 4 1 (fun s r j o => s.opReduce r tile j o))

/-- TILE_DMA (R386). -/
def execTileDma (dt tile : Nat) (s : State) : Host.Outcome State Fault Refusal :=
  .next ((s.arrive dt).issue tile 5 2 (fun s r j o => s.opDma r tile j o))

/-- TILE_GATHER (R386). -/
def execTileGather (dt tile : Nat) (s : State) : Host.Outcome State Fault Refusal :=
  .next ((s.arrive dt).issue tile 6 2 (fun s r j o => s.opGather r tile j o))

/-- TILE_HRV (R386). -/
def execTileHrv (dt tile : Nat) (s : State) : Host.Outcome State Fault Refusal := .next ((s.arrive dt).opHrv tile)

/-- TILE_FENCE (R386). -/
def execTileFence (dt tile : Nat) (s : State) : Host.Outcome State Fault Refusal := .next ((s.arrive dt).opFence tile)

/-- TILE_OP_COMPLETE (R389). -/
def execTileOpComplete (dt tile unit : Nat) (mismatch : Bool) (s : State) : Host.Outcome State Fault Refusal :=
  .next ((s.arrive dt).opEnd tile unit mismatch)

/-- TILE_GATE (R393). -/
def execTileGate (dt tile : Nat) (s : State) : Host.Outcome State Fault Refusal := .next ((s.arrive dt).tileGate tile)

/-- TILE_WAKE (R394). -/
def execTileWake (dt tile : Nat) (s : State) : Host.Outcome State Fault Refusal := .next ((s.arrive dt).tileWake tile)

/-- TILE_WAKE_CMD: a write of TILE_PWR (R394). -/
def execTileWakeCmd (dt tile w : Nat) (v : Word) (s : State) : Host.Outcome State Fault Refusal :=
  .next ((s.arriveBy dt w).writeTilePwr tile w v)

/-- TEST_WINDOW_OPEN (R396). -/
def execTestWindowOpen (dt : Nat) (s : State) : Host.Outcome State Fault Refusal := .next ((s.arrive dt).testWindowOpen)

/-- TEST_DONE (R395). -/
def execTestDone (dt tile : Nat) (pass : Bool) (s : State) : Host.Outcome State Fault Refusal :=
  .next ((s.arrive dt).testDone tile pass)

/-- TEST_REQ: a write of TEST_REQ (R400). -/
def execTestReq (dt w : Nat) (v : Word) (s : State) : Host.Outcome State Fault Refusal := .next ((s.arriveBy dt w).writeTestReq w v)

/-- TEST_OVERDUE (R398). -/
def execTestOverdue (dt tile : Nat) (s : State) : Host.Outcome State Fault Refusal := .next ((s.arrive dt).testOverdue tile)

end Sys2Proof.Machine
end

