-- ==== Sys2Proof/Machine/Harvest.lean ====
section
/-! DEFINITION. Harvest: key order, the four operations, result areas and the service of requests
(spec/07_harvest_selection.md). -/

namespace Sys2Proof.Machine

/-! ## Keys (R303, R304) -/

/-- m of Table 7-2 in `n` bits. -/
def monotone (n b : Nat) : Nat :=
  if b = 2 ^ (n - 1) then 2 ^ (n - 1) else if b < 2 ^ (n - 1) then b + 2 ^ (n - 1) else 2 ^ n - 1 - b

/-- The code of a key (Table 7-2). -/
def keyCode (fmt b : Nat) : Nat :=
  if fmt = 0 then monotone 16 b
  else if fmt = 1 ∨ fmt = 2 then monotone 8 b * 256
  else if fmt = 3 then (b ^^^ 0x80) * 256
  else if fmt = 4 then b ^^^ 0x8000
  else b

/-- A NaN key (Table 7-2). -/
def keyNan (fmt b : Nat) : Bool :=
  if fmt = 0 then numOf 3 b == .nan else if fmt = 1 then numOf 1 b == .nan else if fmt = 2 then numOf 2 b == .nan else false

/-- A key of a row: its index, its bits and its rank, greater being better (R302, R303). -/
structure Key where
  idx : Nat
  bits : Nat
  rank : Nat
  deriving DecidableEq, Repr

/-- Rank of a code: the code itself, or its complement when the least is best. -/
def keyRank (d : HrvDesc) (b : Nat) : Nat := if d.ascending then 65535 - keyCode d.fmt b else keyCode d.fmt b

/-- The keys of a row that are not NaN. -/
def rowKeys (d : HrvDesc) (b : List Byte) : List Key :=
  (List.range d.rowLen).filterMap (fun i =>
    let v := fieldOf b (i * d.w) d.w
    if keyNan d.fmt v then none else some ⟨i, v, keyRank d v⟩)

/-- One key goes before another: a better rank, and among equals a free order (R305). [DEDUCED: notes/assumptions/44.md] -/
def keyBefore (v : Nat) (a b : Key) : Bool :=
  Nat.blt b.rank a.rank || (a.rank == b.rank && Nat.blt (Config.freeAt v a.idx) (Config.freeAt v b.idx))

/-- Insertion of a key in that order. -/
def keyInsert (v : Nat) (a : Key) : List Key → List Key
  | [] => [a]
  | b :: t => if keyBefore v a b then a :: b :: t else b :: keyInsert v a t

/-- Keys best first. -/
def keySort (v : Nat) (l : List Key) : List Key := l.foldl (fun (acc : List Key) a => keyInsert v a acc) []

/-- A rank enters a list kept best first. -/
def rankIns (r : Nat) : List Nat → List Nat
  | [] => [r]
  | x :: t => if x < r then r :: x :: t else x :: rankIns r t

/-- Insertions of TOPK_STREAM (R306): a key enters while the list is not full or when it is better than the K-th entry. -/
def insertions (k : Nat) : List Nat → List Nat → Nat
  | _, [] => 0
  | l, r :: t =>
    if l.length < k then 1 + insertions k (rankIns r l) t
    else match l.getLast? with
      | some w => if w < r then 1 + insertions k (rankIns r l.dropLast) t else insertions k l t
      | none => insertions k l t

/-! ## Operations on one row (R302 to R309) -/

/-- What a row selects: its keys in order, A, c_t and t. -/
structure Picked where
  keys : List Key
  above : Nat := 0
  atThr : Nat := 0
  thr : Nat := 0
  deriving DecidableEq, Repr

/-- The bucket of a rank (R307). -/
def bucketOf (r : Nat) : Nat := r / 16

/-- TOPK_BUCKET (R307, R308). [DEDUCED: notes/assumptions/44.md] -/
def pickBuckets (v k : Nat) (l : List Key) : Picked :=
  let bs := (l.map (fun x => bucketOf x.rank)).dedup
  let above := fun (t : Nat) => (l.filter (fun x => Nat.blt t (bucketOf x.rank))).length
  let atb := fun (t : Nat) => (l.filter (fun x => bucketOf x.rank == t)).length
  let t := if l.length < k then bs.foldl min (bs.headD (Config.freeAt v 0 % 4096))
    else (bs.find? (fun t => Nat.blt (above t) k && Nat.ble k (above t + atb t))).getD 0
  let taken := (l.filter (fun x => bucketOf x.rank == t)).take (k - above t)
  let better := l.filter (fun x => Nat.blt t (bucketOf x.rank))
  let group := fun (x : Key) => ({ x with rank := bucketOf x.rank } : Key)
  let sorted := keySort v ((better ++ taken).map group)
  ⟨sorted.take k, above t, atb t, t⟩

/-- The selection of a row by the operation. -/
def pickRow (d : HrvDesc) (v : Nat) (l : List Key) : Picked :=
  if d.op = 2 then pickBuckets v d.k l
  else if d.op = 1 then ⟨(keySort v l).take d.k, 0, 0, 0⟩
  else ⟨(keySort v l).take 1, 0, 0, 0⟩

/-! ## Payload (R312 to R314, R327, R481) -/

/-- The payload of one entry: its bytes, the STATUS it gives its row, and whether its row is homed on another node. -/
structure PayAns where
  bytes : List Byte
  status : Nat := 0
  away : Bool := false
  deriving DecidableEq, Repr

/-- Bytes of another node. -/
def State.elsewhere (s : State) (d n : Nat) : Bool :=
  [d, d + (n - 1)].any (fun a => s.home a == .global && globalNode a != s.nodeId)

/-- A read by Harvest as it gathers payload, as a proxy that issues to leaves of this node and to the ETU (R442): bytes of another node are
not gathered, and the read is taken as an error. [DESIGN CHOICE: notes/assumptions/44.md] -/
def State.gatherRead (s : State) (d n : Nat) : Rd × State :=
  if s.elsewhere d n then (⟨List.replicate n 0, true, 0⟩, s) else s.fetch d n

/-- PAY_KIND 2: a lookup in an ETU table (R313, R481). -/
def State.payEtu (s : State) (q : HrvReq) (d : HrvDesc) (idx : Nat) : PayAns × State :=
  let zero := List.replicate d.payBytes (0 : Byte)
  let m : Rd × State := if d.payAddr = 0 then (⟨leBytes 4 idx, false, 0⟩, s) else s.gatherRead (q.place (d.payAddr + 4 * idx)) 4
  let i := leNat m.1.bytes
  let s := m.2
  let x := s.table d.table
  if m.1.poison then (⟨zero, 0x5013, false⟩, s)
  else if x.state = 0 then (⟨zero, 0x1014, false⟩, s)
  else if 2 * x.elems ≠ d.payBytes then (⟨zero, 0x1015, false⟩, s)
  else
    let away := x.index i == 0 && x.node i != s.nodeId
    let r := if x.index i = 0 ∧ away = false then s.lookupRow d.table i else s.defaultRow d.table
    let s := (r.2.countIndex x i)
    let s := if away then s.bump F.ETU_NOT_HOME_CNT else s
    if r.1.bad then (⟨zero, 0x5013, away⟩, s) else (⟨r.1.vals.flatMap (leBytes 2), 0, away⟩, s)

/-- The payload of one entry. -/
def State.payOne (s : State) (q : HrvReq) (d : HrvDesc) (idx : Nat) : PayAns × State :=
  if d.payKind = 1 then
    let f := s.gatherRead (q.place (d.payAddr + idx * d.payStride)) d.payBytes
    (if f.1.poison then ⟨List.replicate d.payBytes 0, 0x5013, false⟩ else ⟨f.1.bytes, 0, false⟩, f.2)
  else s.payEtu q d idx

/-- The payloads of a row's entries in order; none with PAY_KIND 0. -/
def State.payAll (s : State) (q : HrvReq) (d : HrvDesc) : List Key → List PayAns × State
  | [] => ([], s)
  | k :: t =>
    if d.payKind = 0 then ([], s)
    else
      let a := s.payOne q d k.idx
      let r := State.payAll a.2 q d t
      (a.1 :: r.1, r.2)

/-! ## Rows of a request (R310, R311, R316, R317, R326) -/

/-- A row header (Table 7-5). -/
def rowHeader (count nan : Nat) (p : Picked) (status : Nat) : List Byte :=
  leBytes 4 count ++ leBytes 4 nan ++ leBytes 4 p.above ++ leBytes 4 p.atThr ++ leBytes 2 p.thr ++ leBytes 2 status ++ List.replicate 12 0

/-- Slot bytes of the sections of row `r`, first slot `j`: indices, keys and payload as (address, bytes). -/
def rowSlots (q : HrvReq) (d : HrvDesc) (r j : Nat) (idx keys pay : List Byte) : List (Nat × List Byte) :=
  let o := fun (x : Nat) => q.place (d.outAddr + x)
  [(o (d.idxOff + 4 * (r * d.slots + j)), idx), (o (d.keyOff + d.w * (r * d.slots + j)), keys),
    (o (d.payOff + d.payBytes * (r * d.slots + j)), pay)].filter (fun x => !x.2.isEmpty)

/-- Free bytes. [DESIGN CHOICE: notes/assumptions/9.md] -/
def freeBytes (v n : Nat) : List Byte := (List.range n).map (fun i => BitVec.ofNat 8 (Config.freeAt v i))

/-- One row is served: what it writes, with its STATUS, and whether an entry of it is homed elsewhere. [DEDUCED: notes/assumptions/44.md] -/
def State.hrvRow (s : State) (q : HrvReq) (d : HrvDesc) (r : Nat) : (HrvRow × Bool) × State :=
  let hdr := q.place (d.outAddr + 32 * r)
  let f := s.fetch (q.place (d.keyAddr + r * d.rowStride)) (d.rowLen * d.w)
  let v := f.2.free
  let s := f.2.drawFree
  if f.1.poison then
    let n := if d.op = 3 then 1 else d.slots
    let free := rowSlots q d r (if d.op = 3 then d.fpsIter else 0) (freeBytes v (4 * n))
      (if d.writeKeys ∧ d.op ≠ 3 then freeBytes (v + 1) (d.w * n) else []) (freeBytes (v + 2) (d.payBytes * n))
    let s := s.error 0x050 0x5012 0
    ((⟨hdr, 0x5012, free ++ [(hdr, rowHeader 0 (s.freeVal % 2 ^ 32) ⟨[], 0, 0, 0⟩ 0x5012)]⟩, false), s.drawFree.drawFree.drawFree)
  else
    let l := rowKeys d f.1.bytes
    let nan := d.rowLen - l.length
    let s := if nan = 0 then s else (s.bumpBy F.HRV_NAN_CNT nan).event 0x050 1
    let s := if d.op = 1 then s.bumpBy F.HRV_INSERT_CNT (insertions d.k [] (l.map (·.rank))) else s
    let p := pickRow d v l
    let pay := s.payAll q d p.keys
    let status := match pay.1.find? (fun a => a.status != 0) with | some a => a.status | none => 0
    let away := pay.1.any (·.away)
    let s := pay.2
    if d.op = 3 then
      let idx := match p.keys.head? with | some k => leBytes 4 k.idx | none => leBytes 4 0xFFFFFFFF
      ((⟨hdr, status, rowSlots q d r d.fpsIter idx [] (pay.1.flatMap (·.bytes)) ++ [(hdr, rowHeader (d.fpsIter + 1) nan p status)]⟩, away), s)
    else
      let fill := d.slots - p.keys.length
      let idx := p.keys.flatMap (fun k => leBytes 4 k.idx) ++ List.replicate (4 * fill) 0xFF
      let keys := if d.writeKeys then p.keys.flatMap (fun k => leBytes d.w k.bits) ++ List.replicate (d.w * fill) 0 else []
      let payb := if d.payKind = 0 then [] else pay.1.flatMap (·.bytes) ++ List.replicate (d.payBytes * fill) 0
      ((⟨hdr, status, rowSlots q d r 0 idx keys payb ++ [(hdr, rowHeader p.keys.length nan p status)]⟩, away), s)

/-- The rows of a request in order. [DEDUCED: notes/assumptions/44.md] -/
def State.hrvRows (s : State) (q : HrvReq) (d : HrvDesc) : List Nat → (List HrvRow × Bool) × State
  | [] => (([], false), s)
  | r :: t =>
    let a := s.hrvRow q d r
    let z := State.hrvRows a.2 q d t
    ((a.1.1 :: z.1.1, a.1.2 || z.1.2), z.2)

/-! ## The descriptor's checks (R300, R315, R316, R328) -/

/-- The range of K (Table 7-3). [DEDUCED: notes/assumptions/44.md] -/
def kMax (op : Nat) : Nat := if op = 1 then 64 else if op = 2 then 4096 else 1

/-- The first field of a Harvest descriptor that fails, as (offset, code), in ascending offset; the result area's size is checked last
(R12, R105, R316). PAY_ADDR must be 0 with PAY_KIND 0, for which Table 7-3 gives it no meaning. [DESIGN CHOICE: notes/assumptions/44.md] -/
def hrvFault (b : List Byte) : Option (Nat × Nat) :=
  let d := hrvDesc b
  let g := fieldOf b
  let bad := fun (off : Nat) (c : Bool) => if c then some (off, Err.fieldRange) else none
  let len := fun (off w v lo hi : Nat) => (lengthCheck w v lo hi (2 ^ 64)).map (fun c => (off, c))
  [bad 0 (Nat.blt 3 d.op), bad 1 (Nat.blt 5 d.fmt), bad 2 (Nat.blt 3 d.flags), bad 3 (Nat.blt 2 d.payKind),
    len 4 16 d.k 1 (kMax d.op), (if d.op = 3 then len 6 16 d.rowCount 1 1 else len 6 16 d.rowCount 0 4096),
    len 8 32 d.rowLen 0 16777216, bad 0xC (d.rowStride % 64 != 0 || Nat.blt d.rowStride (round64 (d.rowLen * d.w))),
    bad 0x10 (d.keyAddr % 64 != 0), bad 0x18 (d.outAddr % 64 != 0),
    (if d.payKind = 1 then len 0x24 16 d.payBytes 8 4096
      else if d.payKind = 2 then len 0x24 16 d.payBytes 0 65534 else len 0x24 16 d.payBytes 0 0),
    bad 0x24 (d.payKind == 1 && d.payBytes % 8 != 0), bad 0x26 (d.payKind != 2 && d.table != 0), bad 0x27 (g 0x27 1 != 0),
    bad 0x28 (if d.payKind = 1 then d.payAddr % 8 != 0 else if d.payKind = 2 then d.payAddr % 4 != 0 else d.payAddr != 0),
    bad 0x30 (if d.payKind = 1 then Nat.blt d.payStride d.payBytes || d.payStride % 8 != 0 else d.payStride != 0),
    bad 0x34 (if d.op = 3 then Nat.ble d.fpsCount d.fpsIter else d.fpsIter != 0),
    (if d.op = 3 then len 0x36 16 d.fpsCount 1 65534 else len 0x36 16 d.fpsCount 0 0), bad 0x38 (g 0x38 8 != 0),
    (if Nat.blt d.outBytes d.total then some (4, Err.lengthExceedsBuffer) else none)].findSome? id

/-! ## Service (R298 to R301, R322 to R328) -/

/-- The head request enters service, if it is of operation `op` or is rejected: its rows are computed from what it reads now. It completes
with HRV_KEY_ERROR if a row has one (R326), else with the first STATUS that is not 0.
[DEDUCED: notes/assumptions/44.md] -/
def State.hrvServe (s : State) (op : Nat) : State :=
  match s.hrv.service, s.hrv.queue with
  | some _, _ => s
  | none, [] => s
  | none, q :: rest =>
    let pg := s.page 0x050
    if (pg.enable = false ∧ pg.cond.draining = false) ∨ s.mayWork 0x050 = false ∨ pg.cond.fault = true then s
    else
      let f := (s.asAgent .hrv).fetch q.desc 64
      let d := hrvDesc f.1.bytes
      let take := fun (s : State) (r : HrvRun) =>
        ((s.updHrv (fun h => { h with queue := rest, service := some r })).hrvAdmit).updCond 0x050 (fun c => { c with running := true })
      let reject := if f.1.code ≠ 0 then some f.1.code else if f.1.poison then some 0x5012 else (hrvFault f.1.bytes).map (·.2)
      match reject with
      | some code => take f.2 { req := q, op := d.op, code := code, rejected := true }
      | none =>
        if d.op ≠ op ∨ (d.payKind = 2 ∧ (s.table d.table).state = 3) then s
        else
          let x := f.2.hrvRows q d (List.range d.rowCount)
          let t := if x.1.2 then x.2.error 0x0D0 0xA015 0 else x.2
          if t.grf.miss then s
          else
            let first := fun (bad : Nat → Bool) => (List.range x.1.1.length).find? (fun i => bad (x.1.1.getD i ⟨0, 0, []⟩).status)
            let bad := match first (· == 0x5012) with | some i => some i | none => first (· != 0)
            let row := bad.getD 0
            let code := match bad with | some i => (x.1.1.getD i ⟨0, 0, []⟩).status | none => 0
            take (t.dropReads .hrv) { req := q, op := op, code := code, row := row, rows := x.1.1 }

/-- The request that has completed reports to its requester (R301). -/
def State.hrvSignal (s : State) (q : HrvReq) (code : Nat) : State :=
  let s := s.stageCode q.stage code
  if q.tile then s.hrvTileDone q code else s.updRun q.stage (fun r => { r with unitDone := true })

/-- A request completes with a code (R301). -/
def State.hrvComplete (s : State) (q : HrvReq) (row code : Nat) : State := (s.hrvCount q row code).hrvSignal q code

/-- The writes of the request in service are made; those to other nodes leave as requests (R301, R535). -/
def State.hrvIssue (s : State) (r : HrvRun) : State :=
  let put := fun (s : State) (w : Nat × List Byte) => if r.req.output then s.writeOut w.1 w.2 else s.write w.1 w.2
  let s := r.rows.foldl (fun (s : State) x => x.writes.foldl put s) s
  let s := s.updRun r.req.stage (fun x => if r.req.output then
    { x with outs := x.outs ++ r.rows.flatMap (fun y => y.writes.map (fun w => (w.1, w.2.length))) } else x)
  s.updHrv (fun h => { h with service := some { r with issued := true } })

/-- HRV_REQUEST_DONE (R301): the writes of the request in service become visible, those to other nodes by their answers, and it completes
with 0 or its error code. -/
def State.hrvDone (s : State) : State :=
  match s.hrv.service with
  | none => s
  | some r =>
    let s := if r.issued then s.asAgent .hrv else (s.asAgent .hrv).hrvIssue r
    if s.awaits .hrv then s
    else
      let code := if r.code = 0 then s.answerCode .hrv else r.code
      let s := (s.updHrv (fun h => { h with service := none })).updCond 0x050 (fun c => { c with running := false })
      (s.hrvComplete r.req r.row code).dropAcks .hrv

/-- SOFT_RESET of Harvest beside its registers (R324): the request in service stops, and it and every queued request complete with
HRV_ABORTED. The requests held at tiles are not lost (R299): they take the entries that are free now. -/
def State.hrvSoftReset (s : State) : State :=
  let all := (match s.hrv.service with | some r => [r.req] | none => []) ++ s.hrv.queue
  let held := s.hrv.held
  let stages := s.hrv.heldStages
  let s := ((s.endHarvest 0xA00C).stopAgents (· == .hrv)).updHrv (fun h => { h with held := held, heldStages := stages })
  let s := all.foldl (fun (s : State) q => s.hrvSignal q 0xA00C) s
  held.foldl (fun (s : State) _ => s.hrvAdmit) s

/-! ## The commands -/

/-- HRV_ARGMAX (R302). -/
def execHrvArgmax (dt : Nat) (s : State) : Host.Outcome State Fault Refusal := .next ((s.arrive dt).hrvServe 0)

/-- HRV_TOPK_STREAM (R306). -/
def execHrvTopkStream (dt : Nat) (s : State) : Host.Outcome State Fault Refusal := .next ((s.arrive dt).hrvServe 1)

/-- HRV_TOPK_BUCKET (R307). -/
def execHrvTopkBucket (dt : Nat) (s : State) : Host.Outcome State Fault Refusal := .next ((s.arrive dt).hrvServe 2)

/-- HRV_FPS_STEP (R317). -/
def execHrvFpsStep (dt : Nat) (s : State) : Host.Outcome State Fault Refusal := .next ((s.arrive dt).hrvServe 3)

/-- HRV_REQUEST_DONE (R301). -/
def execHrvRequestDone (dt : Nat) (s : State) : Host.Outcome State Fault Refusal := .next ((s.arrive dt).hrvDone)

end Sys2Proof.Machine
end

