-- ==== Sys2Proof/Machine/Nvm.lean ====
section
/-! DEFINITION. The persistent store (spec/16_persistent_registers.md): cells and slots, restore, the disposal of writes,
the commit engine, wear, and the lifetime counters. -/

namespace Sys2Proof.Machine

/-- The persistent pages (R691). -/
def persistentPages : List Nat := ((List.range 96).map (0x200 + ·)).filter (· != 0x210)

/-- The cell of word `k` of page `p` (R693). -/
def cellIndex (p k : Nat) : Nat := (p - 0x200) * 504 + k

/-- The cell of security word `w` (R693). -/
def securityIndex (w : Nat) : Nat := 0x10000 + w

/-- A cell index belongs to the security region. -/
def isSecurity (i : Nat) : Bool := Nat.ble 0x10000 i

/-- The page and the word of a cell of the store. -/
def cellPage (i : Nat) : Nat := 0x200 + i / 504
def cellWord (i : Nat) : Nat := i % 504

/-- The keys of the two registers of word `k` of page `p` (R692). -/
def wordLo (p k : Nat) : Nat := p * 0x1000 + 0x40 + 8 * k
def wordHi (p k : Nat) : Nat := p * 0x1000 + 0x44 + 8 * k

/-- The reset values of a word's registers: the shipped value of the cell, but for the voltage points, which are
per part (R694, Table 17-11). -/
def resetWord (i : Nat) : Nat :=
  if isSecurity i then 0
  else (resetCell (wordLo (cellPage i) (cellWord i))).toNat + 2 ^ 32 * (resetCell (wordHi (cellPage i) (cellWord i))).toNat

/-- A cell as it leaves Emketis (R694). -/
def cellDefault (i : Nat) : NvmCell := { slot0 := .valid (resetWord i) 0 0 }

/-- A cell. -/
def State.nvm (s : State) (i : Nat) : NvmCell := Sparse.get cellDefault s.psv.cells i

/-- A cell is replaced. -/
def State.setNvm (s : State) (i : Nat) (c : NvmCell) : State :=
  s.updPsv (fun p => { p with cells := Sparse.set cellDefault p.cells i c })

/-! ## Slots (R695, R696) -/

/-- Slot 1 is the newer of two valid slots (R695). -/
def newerIsOne (seq0 wear0 seq1 wear1 : Nat) : Bool :=
  let d := (seq1 + 65536 - seq0) % 65536
  if d = 0 ∨ d = 32768 then decide (wear0 < wear1) else decide (1 ≤ d ∧ d ≤ 32767)

/-- The slot that holds the current value: its number, DATA, SEQ and WEAR; none for a CORRUPT cell. -/
def NvmCell.current (c : NvmCell) : Option (Nat × Nat × Nat × Nat) :=
  match c.slot0, c.slot1 with
  | .valid d0 s0 w0, .valid d1 s1 w1 => if newerIsOne s0 w0 s1 w1 then some (1, d1, s1, w1) else some (0, d0, s0, w0)
  | .valid d0 s0 w0, .empty => some (0, d0, s0, w0)
  | .valid d0 s0 w0, .invalid => some (0, d0, s0, w0)
  | .empty, .valid d1 s1 w1 => some (1, d1, s1, w1)
  | .invalid, .valid d1 s1 w1 => some (1, d1, s1, w1)
  | .empty, .empty => none
  | .empty, .invalid => none
  | .invalid, .empty => none
  | .invalid, .invalid => none

/-- The class of a cell at restore (Table 16-3). [DEDUCED: notes/assumptions/68.md] -/
def NvmCell.classOf (c : NvmCell) : Nat :=
  match c.current with
  | none => 2
  | some _ => if c.slot0 = .invalid ∨ c.slot1 = .invalid then 1 else 0

/-- The reported wear of a cell at restore (Table 16-3), held at 200,000 (R707). -/
def NvmCell.wearOf (c : NvmCell) : Nat :=
  match c.current with
  | none => 160000
  | some x => min 200000 (if c.classOf = 1 then x.2.2.2 + 1 else x.2.2.2)

/-- The slot the next write programs (Table 16-3). -/
def NvmCell.target (c : NvmCell) : Nat := match c.current with | none => 0 | some x => 1 - x.1

/-- The SEQ the next write gives (R696). -/
def NvmCell.nextSeq (c : NvmCell) : Nat := match c.current with | none => 1 | some x => (x.2.2.1 + 1) % 65536

/-- A slot of a cell takes a content. -/
def NvmCell.putSlot (c : NvmCell) (b : Nat) (x : NvmSlot) : NvmCell :=
  if b = 0 then { c with slot0 := x } else { c with slot1 := x }

/-- The value of a cell: the newer slot's, or for a CORRUPT cell the reset values, the voltage points from fuses. -/
def State.cellValue (s : State) (i : Nat) : Nat :=
  match (s.nvm i).current with
  | some x => x.2.1
  | none =>
    if i = cellIndex 0x212 0 then
      s.fuses.vf.getD 0 0 + 2 ^ 16 * s.fuses.vf.getD 1 0 + 2 ^ 32 * (s.fuses.vf.getD 2 0 + 2 ^ 16 * s.fuses.vf.getD 3 0)
    else if i = cellIndex 0x212 1 then s.fuses.vf.getD 4 0
    else resetWord i

/-- ERR_INFO of the 0x7xxx family (R697). -/
def nvmInfo (i : Nat) : Word :=
  if isSecurity i then word (2 ^ 31 + (i - 0x10000)) else word (cellPage i * 2 ^ 16 + cellWord i)

/-- The register shadow of a word takes a value. -/
def State.loadWord (s : State) (i v : Nat) : State :=
  if isSecurity i then s
  else (s.setCell (wordLo (cellPage i) (cellWord i)) (word v)).setCell (wordHi (cellPage i) (cellWord i)) (word (v / 2 ^ 32))

/-- The committed value of a word. -/
def State.committed (s : State) (p k : Nat) : Nat := (s.cell (wordLo p k)).toNat + 2 ^ 32 * (s.cell (wordHi p k)).toNat

/-! ## Wear (R707, R708) -/

/-- The highest reported wear and its cell, the lowest page and word on a tie. [DEDUCED: notes/assumptions/67.md] -/
def State.maxWear (s : State) : Nat × Nat :=
  s.psv.cells.foldl (fun m x => if m.1 < x.2.wear then (x.2.wear, x.1) else m) (0, 0)

/-- WEAR_SEL of a cell (Table 16-10). -/
def wearSel (i : Nat) : Nat := if isSecurity i then 2 ^ 31 + (i - 0x10000) else cellPage i * 2 ^ 16 + cellWord i

/-- WARN_CNT, EXHAUSTED_CNT, MAX_WEAR and MAX_WHERE are brought up to date (R708). -/
def State.refreshWear (s : State) : State :=
  let m := s.maxWear
  let s := s.setFld F.PSV_WARN_CNT_WORDS (s.psv.cells.filter (fun x => Nat.ble (s.fld F.PSV_WEAR_WARN_LEVEL) x.2.wear)).length
  let s := s.setFld F.PSV_EXHAUSTED_CNT_WORDS (s.psv.cells.filter (fun x => Nat.ble 200000 x.2.wear)).length
  (s.setFld F.PSV_MAX_WEAR m.1).setCell R.PSV_MAX_WHERE (word (wearSel m.2))

/-- The reported wear of a cell rises: the warnings of R707. -/
def State.wearRose (s : State) (i old new : Nat) : State :=
  let s := if old < s.fld F.PSV_WEAR_WARN_LEVEL ∧ s.fld F.PSV_WEAR_WARN_LEVEL ≤ new then
    (s.error 0x210 0x7007 (nvmInfo i)).event 0x210 0 else s
  let s := if old < 200000 ∧ 200000 ≤ new then (s.error 0x210 0x7001 (nvmInfo i)).event 0x210 1 else s
  s.refreshWear

/-! ## Restore (R695, R697, R698, R714) -/

/-- One cell at restore: its class and wear, the shadow, and what R697 records. [DEDUCED: notes/assumptions/68.md] -/
def State.restoreCell (s : State) (i : Nat) : State :=
  let c := s.nvm i
  let s := (s.setNvm i { c with cls := c.classOf, wear := c.wearOf }).loadWord i (s.cellValue i)
  if c.classOf = 1 then
    let s := (s.error 0x210 0x7002 (nvmInfo i)).event 0x210 3
    (s.setCell R.PSV_INTERRUPT_LAST (nvmInfo i)).bump F.PSV_STATUS_INTERRUPTED_CNT
  else if c.classOf = 2 then
    ((s.error 0x210 0x7005 (nvmInfo i)).event 0x210 4).bump F.PSV_STATUS_CORRUPT_CNT
  else s

/-- CORRUPT cells of the store and the security region, and those that SAFETY_CFG watches (R714). [DEDUCED: notes/assumptions/68.md] -/
def State.corruptCells (s : State) : List Nat := (s.psv.cells.filter (fun x => x.2.cls == 2)).map (·.1)
def safetyCell (i : Nat) : Bool := isSecurity i || (Nat.ble 0x218 (cellPage i) && Nat.ble (cellPage i) 0x21F)

/-- The lifetime counters in SRAM start from the committed values (R709). -/
def State.loadLife (s : State) : State :=
  let sec := fun (f : Field) => 200000000 * s.fld f
  { s with psv := { s.psv with life :=
    { powerOn := s.fld F.PSV_POWER_ON_CNT, safe := s.fld F.PSV_SAFE_CNT, trip := s.fld F.PSV_TRIP_CNT,
      run := sec F.PSV_RUN_S, trim := sec F.PSV_TRIM_S, sentry := sec F.PSV_SENTRY_S, parked := sec F.PSV_PARKED_S,
      warn := sec F.PSV_WARN_S, throt := sec F.PSV_THROT_S, crit := sec F.PSV_CRIT_S,
      tjMax := s.sfld F.PSV_TJ_MAX_TEMP, coolMax := s.sfld F.PSV_COOLANT_MAX_TEMP,
      markAt := s.cycles, committedAt := s.psv.life.committedAt } } }

/-- What the CORRUPT cells of a restore latch (R714), LIFETIME by path RST (R756). [DEDUCED: notes/assumptions/68.md] -/
def State.restoreCauses (s : State) : State :=
  let bad := s.corruptCells
  let t := if bad.any safetyCell = true then s.latch Cause.safetyCfg 0x7005 else s
  if (Nat.blt 16 bad.length && bad.any (fun i => !safetyCell i)) = true then t.latchRst Cause.lifetime 0x7005 else t

/-- Restore of the store and the security region (R698): every cell that is not as shipped is classed and loaded.
[DEDUCED: notes/assumptions/67.md; DEDUCED: notes/assumptions/68.md] -/
def State.restore (s : State) : State :=
  let s := { s with regs := Sparse.drop s.regs (fun k => isPersistent (k / 0x1000) && Nat.ble 0x40 (k % 0x1000)) }
  let s := (s.psv.cells.map (·.1)).foldl (fun s i => s.restoreCell i) s
  let s := (s.setFld F.PSV_STATUS_RESTORED 1).setFld F.GLB_BOOT_STATUS_RESTORED 1
  let s := persistentPages.foldl (fun s p => s.updCond p (fun c => { c with off := false })) s
  s.refreshWear.loadLife.restoreCauses

/-! ## Writes (R699, R700, Table 16-4) -/

/-- The fields of a register that a write of a writable access type reaches, as a mask. -/
def writableMask (k : Nat) (p : Access → Bool) : Nat :=
  match regAt (k / 0x1000) (k % 0x1000) with
  | some r => r.fields.foldl (fun m f => if p f.acc then m ||| ((2 ^ (f.hi + 1 - f.lo) - 1) * 2 ^ f.lo) else m) 0
  | none => 0

/-- The value of word `k` of page `p` that the latest write in the queue gives, or its committed value (R692).
[DEDUCED: notes/assumptions/67.md] -/
def State.wordInQueue (s : State) (p k : Nat) : Nat :=
  match (s.psv.queue.filter (fun x => x.page == p && x.word == k)).getLast? with
  | some x => x.data
  | none => s.committed p k

/-- LAST_RESULT of a page. -/
def State.setLastResult (s : State) (p r : Nat) : State :=
  { s with psv := { s.psv with lastResult := Sparse.set (fun _ => 0) s.psv.lastResult p r } }

/-- A write is discarded under Table 16-4: LAST_RESULT, the code on the written page and on page 0x210. -/
def State.discardPersist (s : State) (p k result code : Nat) : State :=
  let s := ((s.setLastResult p result).error p code (nvmInfo (cellIndex p k))).error 0x210 code (nvmInfo (cellIndex p k))
  if result = 2 then s.bump F.PSV_BUSY_CNT else if result = 3 then s.bump F.PSV_INHIBIT_CNT else s

/-- The brown-out inhibit is in force (R706). -/
def State.inhibited (s : State) : Bool := s.flag F.PSV_STATUS_INHIBIT

/-- QUEUED of PSV_STATUS follows the queue. -/
def State.setQueue (s : State) (q : List PsvWrite) : State :=
  { s with psv := { s.psv with queue := q } }.setFld F.PSV_STATUS_QUEUED q.length

/-- A write to a word of a persistent page, after the ordinary rules (Table 16-4): `data` is the whole word. -/
def State.disposePersist (s : State) (p k w data : Nat) : State :=
  let i := cellIndex p k
  let queued := s.psv.queue.any (fun x => x.page == p && x.word == k)
  if s.flag F.PSV_STATUS_RESTORED = false then s.discardPersist p k 2 0x7003
  else if s.inhibited then s.discardPersist p k 3 0x7004
  else if (s.nvm i).wear = 200000 then s.discardPersist p k 4 0x7001
  else if data = s.committed p k ∧ queued = false then
    ((s.setLastResult p 1).bump F.PSV_ELIDED_CNT).wrote p w
  else if 16 ≤ s.psv.queue.length then s.discardPersist p k 2 0x7003
  else ((s.setQueue (s.psv.queue ++ [(⟨p, k, data, w⟩ : PsvWrite)])).updCond p (fun c => { c with running := true })).wrote p w

/-- The new value of a register whose RWP fields a write of `v` reaches. -/
def mergeMasked (old v mask : Nat) : Nat := (old - (old &&& mask)) + (v &&& mask)

/-- A write that reaches one or both registers of a word in one AON cycle (R700). [DEDUCED: notes/assumptions/67.md] -/
def State.persistWord (s : State) (p k w : Nat) (lo hi : Option Word) : State :=
  let old := s.wordInQueue p k
  let part := fun (o : Nat) (x : Option Word) (key : Nat) =>
    match x with | some v => mergeMasked o v.toNat (writableMask key (fun a => a == .rwp)) | none => o
  s.disposePersist p k w (part (old % 2 ^ 32) lo (wordLo p k) + 2 ^ 32 * part (old / 2 ^ 32) hi (wordHi p k))

/-! ## The commit engine (R701, R702, R713) -/

/-- The register shadow takes a committed value, and what follows it at once: the pins of GPIO_SAFE follow it during the safe state (R820), AGE_OFFSET_MV is mirrored (Table 17-10). -/
def State.shadowTakes (s : State) (w : PsvWrite) : State :=
  let s := s.loadWord (cellIndex w.page w.word) w.data
  let s := if w.page = 0x218 ∧ w.word = 2 ∧ s.saf.inSafe = true then
    (s.takePins s.safePins).returnPins ((pinsOf s.gpio.held).filter (fun g => !(s.safePins.contains g))) else s
  if w.page = 0x213 ∧ w.word = 0 then s.setFld F.PWR_AGE_STATUS_AGE_OFFSET_MV (s.fld F.PSV_AGE_A_AGE_OFFSET_MV) else s

/-- The first write of the queue leaves it; its page is IDLE when no write to it remains (R715). -/
def State.popQueue (s : State) (w : PsvWrite) : State :=
  let q := s.psv.queue.drop 1
  let s := (s.setQueue q).updPsv (fun p => { p with retried := false })
  if q.any (fun x => x.page == w.page) then s else s.updCond w.page (fun c => { c with running := false })

/-- The word program of the first queued write ends (R702, R713): `ok` says whether the slot verifies. [DEDUCED: notes/assumptions/67.md] -/
def State.commitDone (s : State) (ok : Bool) : State :=
  match s.psv.queue with
  | [] => s
  | w :: _ =>
    let i := cellIndex w.page w.word
    let c := s.nvm i
    if ok then
      let wear := min 200000 (c.wear + 1)
      let c' := { c.putSlot c.target (.valid w.data c.nextSeq wear) with wear := wear, cls := 0 }
      let s := ((s.setNvm i c').shadowTakes w).popQueue w
      ((s.setLastResult w.page 0).bump F.PSV_COMMIT_CNT).wearRose i c.wear wear
    else if s.psv.retried = false then { s with psv := { s.psv with retried := true } }
    else
      let wear := min 200000 (c.wear + 2)
      let s := (s.setNvm i { c.putSlot c.target .invalid with wear := wear }).popQueue w
      let s := (s.setLastResult w.page 5).bump F.PSV_PROGRAM_FAIL_CNT
      let s := ((s.error w.page 0x7006 (nvmInfo i)).error 0x210 0x7006 (nvmInfo i)).event 0x210 5
      s.wearRose i c.wear wear

/-- The first queued write is lost with AON power while it was being programmed (R704): the slot is found empty (0),
invalid (1) or valid (2). [DEDUCED: notes/assumptions/67.md] -/
def State.powerLoss (s : State) (form : Nat) : State :=
  let s' := { s with psv := { s.psv with queue := [], retried := false } }
  match s.psv.queue with
  | [] => s'
  | w :: _ =>
    let i := cellIndex w.page w.word
    let c := s.nvm i
    if form = 1 then s'.setNvm i (c.putSlot c.target .invalid)
    else if form = 2 then s'.setNvm i (c.putSlot c.target (.valid w.data c.nextSeq (min 200000 (c.wear + 1))))
    else s'.setNvm i (c.putSlot c.target .empty)

/-! ## Brown-out (R706) -/

/-- The brown-out inhibit comes into force: queued writes not yet started are discarded under row 2 of Table 16-4; the
program in progress runs to its end. [DEDUCED: notes/assumptions/67.md] -/
def State.brownOut (s : State) : State :=
  if s.inhibited then s
  else
    let rest := s.psv.queue.drop 1
    let s := (s.setFld F.PSV_STATUS_INHIBIT 1).event 0x210 2
    let s := s.setQueue (s.psv.queue.take 1)
    let s := rest.foldl (fun s x => s.discardPersist x.page x.word 3 0x7004) s
    rest.foldl (fun s x => if s.psv.queue.any (fun y => y.page == x.page) then s
      else s.updCond x.page (fun c => { c with running := false })) s

/-- Both rails have stayed above their thresholds for 1 ms: the inhibit ends. -/
def State.brownOutEnd (s : State) : State := s.setFld F.PSV_STATUS_INHIBIT 0

/-! ## Rootstock's programs of security words (R701, R707) -/

/-- Every security word that an update command programs has room (R707). [DEDUCED: notes/assumptions/64.md] -/
def State.securityRoom (s : State) (ws : List Nat) : Bool :=
  ws.all (fun w => (s.nvm (securityIndex w)).wear != 200000)

/-- The refusals of exhausted security words are recorded on page 0x210 (R707). -/
def State.securityRefuse (s : State) (ws : List Nat) : State :=
  (ws.filter (fun w => (s.nvm (securityIndex w)).wear == 200000)).foldl
    (fun s w => s.error 0x210 0x7001 (nvmInfo (securityIndex w))) s

/-- Security words are programmed by Rootstock: each gains a valid slot and one unit of wear. The content of the words is
kept in the registers of Table 15-21, so the slot's DATA is 0. -/
def State.securityProgram (s : State) (ws : List Nat) : State :=
  ws.foldl (fun s w =>
    let i := securityIndex w
    let c := s.nvm i
    let wear := min 200000 (c.wear + 1)
    (s.setNvm i { c.putSlot c.target (.valid 0 c.nextSeq wear) with wear := wear, cls := 0 }).wearRose i c.wear wear) s

/-! ## Lifetime counters (R709) -/

/-- The time since the last accounting is added to the counters it belongs to. -/
def State.accountLife (s : State) : State :=
  let l := s.psv.life
  let d := s.cycles - l.markAt
  let st := s.fld F.PWR_STATE
  let t := s.sfld F.RST_TEMP_MAX_TEMP
  let valid := s.fld F.RST_TEMP_MAX_VALID_CNT != 0
  { s with psv := { s.psv with life := { l with
      run := if st = 0 then l.run + d else l.run
      trim := if st = 1 then l.trim + d else l.trim
      sentry := if st = 2 then l.sentry + d else l.sentry
      parked := if st = 3 then l.parked + d else l.parked
      warn := if valid && decide (420 ≤ t) then l.warn + d else l.warn
      throt := if valid && decide (448 ≤ t) then l.throt + d else l.throt
      crit := if valid && decide (480 ≤ t) then l.crit + d else l.crit
      markAt := s.cycles } } }

/-- The live value of word `k` of page 0x211, k = 0 to 5 (Table 16-8). -/
def Life.wordValue (l : Life) (k : Nat) : Nat :=
  let pair := fun (a b : Nat) => min (2 ^ 32 - 1) a + 2 ^ 32 * min (2 ^ 32 - 1) b
  let sec := fun (c : Nat) => c / 200000000
  if k = 0 then pair l.powerOn l.safe
  else if k = 1 then pair (sec l.run) (sec l.trim)
  else if k = 2 then pair (sec l.sentry) (sec l.parked)
  else if k = 3 then pair (sec l.warn) (sec l.throt)
  else if k = 4 then pair (sec l.crit) l.trip
  else unsigned 16 l.tjMax + 2 ^ 32 * unsigned 16 l.coolMax

/-- AON cycles that must pass between commits of word `k`: an hour, a minute for the maxima, none for the event words
(R709). -/
def lifeInterval (k : Nat) : Nat := if k = 0 then 0 else if k = 5 then 12000000000 else 720000000000

/-- Word `k` is due for commit: it has changed, and its interval has passed or an event counter in it has counted. -/
def State.lifeDue (s : State) (k : Nat) : Bool :=
  let changed := s.psv.life.wordValue k != s.committed 0x211 k
  let age := s.cycles - Sparse.get (fun _ => 0) s.psv.life.committedAt k
  let event := k == 4 && s.psv.life.trip != s.fld F.PSV_TRIP_CNT
  changed && (Nat.ble (lifeInterval k) age || event) && (s.nvm (cellIndex 0x211 k)).wear != 200000
    && !(s.psv.queue.any (fun x => x.page == 0x211 && x.word == k))

/-- Rootstock commits the lifetime words that are due (R709). [DEDUCED: notes/assumptions/67.md] -/
def State.lifetimeCommit (s : State) : State :=
  let s := s.accountLife
  if s.flag F.RST_STATUS_READY = false then s
  else (List.range 6).foldl (fun s k =>
    if s.lifeDue k then
      let s := s.disposePersist 0x211 k 0x01 (s.psv.life.wordValue k)
      { s with psv := { s.psv with life := { s.psv.life with
        committedAt := Sparse.set (fun _ => 0) s.psv.life.committedAt k s.cycles } } }
    else s) s

/-- PERSIST of a page (Table 16-7). -/
def State.persistReg (s : State) (p : Nat) : Word :=
  let mine := s.psv.cells.filter (fun x => !isSecurity x.1 && cellPage x.1 == p)
  let q := (s.psv.queue.filter (fun x => x.page == p)).length
  let head := match s.psv.queue.head? with | some x => x.page == p | none => false
  word (b2n s.inhibited * 2 ^ 31 + b2n (mine.any (fun x => Nat.ble 200000 x.2.wear)) * 2 ^ 30
    + b2n (mine.any (fun x => Nat.ble (s.fld F.PSV_WEAR_WARN_LEVEL) x.2.wear)) * 2 ^ 29
    + Sparse.get (fun _ => 0) s.psv.lastResult p * 2 ^ 16 + q * 2 ^ 8 + b2n head)

/-- WEAR_DATA for a cell (Table 16-10). -/
def State.wearData (s : State) (i : Nat) : Word :=
  let c := s.nvm i
  let slot := match c.current with | some x => x.1 | none => 0
  word (c.cls * 2 ^ 28 + slot * 2 ^ 25 + c.wear)

/-- A write of WEAR_SEL selects a word and loads WEAR_DATA (R708), or is discarded for its encoding.
[DESIGN CHOICE: notes/assumptions/10.md; DEDUCED: notes/assumptions/67.md] -/
def State.wearSelWrite (s : State) (w : Nat) (v : Word) : State :=
  let region := getBits v 31 31
  let page := getBits v 25 16
  let k := getBits v 10 0
  match (if region = 0 then anyBad v [if persistentPages.contains page then none else some 16, if 503 < k then some 0 else none] else none) with
  | some lo => s.undefinedEncoding 0x210 0x48 lo
  | none =>
    let i := if region = 0 then cellIndex page k else securityIndex k
    let s := ((s.setFld F.PSV_WEAR_SEL_REGION region).setFld F.PSV_WEAR_SEL_PAGE page).setFld F.PSV_WEAR_SEL_WORD k
    (s.setCell R.PSV_WEAR_DATA (s.wearData i)).wrote 0x210 w

end Sys2Proof.Machine
end

