-- ==== Sys2Proof/Machine/Thermal.lean ====
section
/-! DEFINITION. Thermal states, coolant bands, the CORE ceiling, the voltage request and ageing
(spec/17_power_thermal.md, R726 to R746). -/

namespace Sys2Proof.Machine

/-! ## The CORE ceiling and the level cap (R732, Tables 17-4 and 17-5) -/

/-- The ceiling of the thermal state. -/
def State.thermCeil (s : State) : Nat :=
  let t := s.fld F.PWR_THERM_STATUS_THERM_STATE
  if t = 0 then 1400
  else if t = 1 then s.fld F.PWR_THERM_CFG_A_WARN_MHZ
  else if t = 2 then s.fld F.PWR_THERM_CFG_B_THROT_MHZ
  else s.fld F.PWR_THERM_CFG_C_CRIT_MHZ

/-- The ceiling of a coolant band. -/
def bandCeil (b : Nat) : Nat := if b = 0 then 1400 else if b = 1 then 1250 else if b = 2 then 1100 else if b = 3 then 1000 else 700

/-- The level cap of a coolant band. -/
def bandCap (b : Nat) : Nat := if b ≤ 1 then 0 else if b ≤ 3 then 1 else 3

/-- The cap of the thermal state. -/
def State.thermCap (s : State) : Nat :=
  let t := s.fld F.PWR_THERM_STATUS_THERM_STATE
  if t = 0 then 0
  else if t = 1 then s.fld F.PWR_THERM_CFG_A_WARN_CAP
  else if t = 2 then s.fld F.PWR_THERM_CFG_B_THROT_CAP
  else 3

/-- CAP: the coarser of the two caps. -/
def State.levelCap (s : State) : Nat := max s.thermCap (bandCap (s.fld F.PWR_THERM_STATUS_COOL_BAND))

/-- CORE_MAX_MHZ as it limits: 1,400 until it has been computed. -/
def State.coreMax (s : State) : Nat :=
  if s.fld F.PWR_CORE_MAX_CORE_MAX_MHZ = 0 then 1400 else s.fld F.PWR_CORE_MAX_CORE_MAX_MHZ

/-- The ceiling TRIM gives; 1,400 outside TRIM. -/
def State.trimCeil (s : State) : Nat := if s.fld F.PWR_STATE = 1 then s.fld F.PWR_TRIM_CFG_TRIM_CORE_MHZ else 1400

/-- CEIL (R732). [DEDUCED: notes/assumptions/35.md] -/
def State.ceilMhz (s : State) : Nat :=
  (min 1400 (min s.trimCeil (min s.thermCeil (min (bandCeil (s.fld F.PWR_THERM_STATUS_COOL_BAND)) s.coreMax)))) / 25 * 25

/-- The Frame Scheduler is RUNNING in FRAME_LOCKED. -/
def State.framePaced (s : State) : Bool := s.pstate 0x010 == St.running && !s.frm.freeRun

/-- The floor of the active plan, rounded up to a multiple of 25 MHz. -/
def State.floorMhz (s : State) : Nat :=
  ceilDiv (if s.fld F.FRM_PLAN_STATUS_ACTIVE_SLOT = 0 then s.frm.planA.hdr.floorMhz else s.frm.planB.hdr.floorMhz) 25 * 25

/-- REASON of CORE_LIMIT (Table 17-8): the limits below 1,400 MHz that equal CEIL, VOLT and FLOOR_HELD. -/
def State.ceilReason (s : State) : Nat :=
  let c := s.ceilMhz
  let r := fun (x : Nat) => b2n (Nat.blt x 1400 && x / 25 * 25 == c)
  r s.trimCeil + 2 * r s.thermCeil + 4 * r (bandCeil (s.fld F.PWR_THERM_STATUS_COOL_BAND)) + 8 * r s.coreMax
    + 16 * b2n s.pwr.volt + 32 * b2n (s.framePaced && Nat.blt c s.floorMhz)

/-! ## Voltage request (R735 to R737, R739) -/

/-- VREQ between two points, rounded up to a multiple of 5 mV. [DEDUCED: notes/assumptions/70.md] -/
def vreqBetween (f f0 f1 v0 v1 : Nat) : Nat :=
  let num : Int := (v0 : Int) * ((f1 : Int) - f0) + ((v1 : Int) - v0) * ((f : Int) - f0)
  (-((-num) / (5 * ((f1 : Int) - f0)))).toNat * 5

/-- The request of the points alone for a CORE frequency. -/
def State.vreqBase (s : State) (f : Nat) : Nat :=
  let v0 := s.fld F.PSV_VF_A_VF_0
  let v1 := s.fld F.PSV_VF_A_VF_1
  let v2 := s.fld F.PSV_VF_B_VF_2
  let v3 := s.fld F.PSV_VF_B_VF_3
  let v4 := s.fld F.PSV_VF_C_VF_4
  if f ≤ 700 then vreqBetween f 350 700 v0 v1
  else if f ≤ 1000 then vreqBetween f 700 1000 v1 v2
  else if f ≤ 1200 then vreqBetween f 1000 1200 v2 v3
  else vreqBetween f 1200 1400 v3 v4

/-- VREQ(f) (R735). [DEDUCED: notes/assumptions/70.md] -/
def State.vreq (s : State) (f : Nat) : Nat := s.vreqBase f + s.fld F.PSV_AGE_A_AGE_OFFSET_MV

/-- The highest multiple of 25 MHz from 350 up, at most 350 + 25 n, whose request is at most `mv`; 0 for none. -/
def State.highestMet (s : State) (mv : Nat) : Nat → Nat
  | 0 => if s.vreq 350 ≤ mv then 350 else 0
  | n + 1 => if s.vreq (350 + 25 * (n + 1)) ≤ mv then 350 + 25 * (n + 1) else State.highestMet s mv n

/-- CORE_MAX_MHZ (R739): the highest multiple of 25 MHz at most 1,400 whose request is at most 900 mV; 350 for none. -/
def State.coreMaxNow (s : State) : Nat :=
  let m := s.highestMet 900 42
  if m = 0 then 350 else m

/-- CORE_MAX_MHZ is computed. -/
def State.setCoreMax (s : State) : State := s.setFld F.PWR_CORE_MAX_CORE_MAX_MHZ s.coreMaxNow

/-- The CORE frequency that R733 asks for; at most 1,000 MHz until the start-up checks pass (R788). [DEDUCED: notes/assumptions/35.md] -/
def State.wantedMhz (s : State) : Nat :=
  if !s.flag F.GLB_BOOT_STATUS_CHECKS_DONE then 1000 else if s.framePaced then max s.ceilMhz s.floorMhz else s.ceilMhz

/-- CORE is powered: the firmware has started it (R787 step 5), and the device is in neither SENTRY nor PARKED. -/
def State.corePowered (s : State) : Bool := s.flag F.GLB_BOOT_STATUS_FW_READY && !s.lowPower

/-- The CORE frequency that R737 lets run: `f`, or the highest step below it whose request VMON_0 meets, or 0.
[DEDUCED: notes/assumptions/35.md; DEDUCED: notes/assumptions/70.md] -/
def State.metMhz (s : State) (f : Nat) : Nat :=
  if s.vreq f ≤ s.fld (F.RST_VMON_MV 0) then f else s.highestMet (s.fld (F.RST_VMON_MV 0)) ((f - 350) / 25)

/-- The CORE frequency changes (R24, R733, R737): CORE_MHZ takes the frequency that VMON_0 meets, but none below the floor while frames are
paced (R143), and VOLT and its event say that it was limited. A tripped CORE stays stopped (R729). [DEDUCED: notes/assumptions/35.md] -/
def State.applyCore (s : State) : State :=
  if s.pwr.tripped || !s.corePowered then s
  else
    let f := s.wantedMhz
    let g := if s.framePaced then max (s.metMhz f) (min f s.floorMhz) else s.metMhz f
    let limited := decide (g < f)
    let s' := (s.setFld F.GLB_CLOCK_STATUS_CORE_MHZ g).updPwr (fun p => { p with volt := limited })
    if limited && !s.pwr.volt then s'.event 0x150 4 else s'

/-- A change of the CORE frequency is permitted (R24, R25, R733): no frame that has been admitted is in compute.
[DEDUCED: notes/assumptions/35.md] -/
def State.coreMayChange (s : State) : Bool := match s.frm.compute with | some f => !f.admitted | none => true

/-! ## Sensors and injections (R651, R652, Table 18-6) -/

/-- A thermal reading in 1/4 °C lies in the valid range. -/
def tsValid (t : Int) : Bool := decide (-240 ≤ t ∧ t ≤ 600)

/-- The hottestTs valid sensor among readings numbered from `k`: sensor and reading, the lowest sensor on a tie. -/
def hottestTs : Nat → List Int → Option (Nat × Int)
  | _, [] => none
  | k, t :: ts =>
    match hottestTs (k + 1) ts with
    | none => if tsValid t then some (k, t) else none
    | some x => if tsValid t && decide (x.2 ≤ t) then some (k, t) else some x

/-- One sensor's reading enters its register; a sensor that becomes invalid is recorded once (R652). -/
def State.takeTs (s : State) (k : Nat) (t : Int) : State :=
  if tsValid t then
    let s := (s.setSfld (F.RST_TS_TEMP k) t).setFld (F.RST_TS_VALID k) 1
    s.updRst (fun r => { r with tsBad := r.tsBad.filter (· != k) })
  else
    let s' := s.setFld (F.RST_TS_VALID k) 0
    if s.rst.tsBad.contains k then s'
    else
      let s' := s'.updRst (fun r => { r with tsBad := r.tsBad ++ [k] })
      (s'.error 0x132 0x6029 (word k)).event 0x132 0

/-- All sensor readings of a scan, numbered from `k`. -/
def State.takeAllTs (s : State) : Nat → List Int → State
  | _, [] => s
  | k, t :: ts =>
    let t' := match s.injected 0x09 k with | some v => signed 16 v | none => t
    State.takeAllTs (s.takeTs k t') (k + 1) ts

/-- All rail readings of a scan, numbered from `k` (Table 15-4). -/
def State.takeAllMv (s : State) : Nat → List Nat → State
  | _, [] => s
  | k, v :: vs =>
    let v' := match s.injected 0x0A k with | some x => x | none => v
    State.takeAllMv (s.setFld (F.RST_VMON_MV k) v') (k + 1) vs

/-- The readings that the TS registers hold, invalid ones out of range. [DEDUCED: notes/assumptions/62.md] -/
def State.tsReadings (s : State) : List Int :=
  (List.range 32).map (fun k => if s.flag (F.RST_TS_VALID k) then s.sfld (F.RST_TS_TEMP k) else 1000)

/-- TEMP_MAX follows the sensors. With no valid sensor its SENSOR and TEMP have no stated value: TEMP is a free value.
[DEDUCED: notes/assumptions/62.md] -/
def State.setTempMax (s : State) : State :=
  let r := s.tsReadings
  let s := s.setFld F.RST_TEMP_MAX_VALID_CNT (r.filter tsValid).length
  match hottestTs 0 r with
  | some x => (s.setFld F.RST_TEMP_MAX_SENSOR x.1).setSfld F.RST_TEMP_MAX_TEMP x.2
  | none => (s.setFld F.RST_TEMP_MAX_TEMP s.freeVal).drawFree

/-! ## Thermal states (R726 to R728, R745) -/

/-- The highest state whose threshold, less `hyst`, the temperature reaches; at most `top`. -/
def thermLevel (t hyst : Int) (top : Nat) : Nat :=
  if 3 ≤ top ∧ 480 - hyst ≤ t then 3 else if 2 ≤ top ∧ 448 - hyst ≤ t then 2 else if 1 ≤ top ∧ 420 - hyst ≤ t then 1 else 0

/-- The state the procedure of R726 takes from `cur`, dwell apart. [DEDUCED: notes/assumptions/70.md] -/
def thermNext (t : Int) (cur : Nat) : Nat := if cur < thermLevel t 0 3 then thermLevel t 0 3 else thermLevel t 16 cur

/-- The temperature the procedure evaluates (R745). -/
def State.thermTemp (s : State) : Int :=
  let t := s.sfld F.RST_TEMP_MAX_TEMP
  let n := s.fld F.RST_TEMP_MAX_VALID_CNT
  if n = 0 then 480 else if n < 16 then max t 448 else t

/-- 250 ms have passed since a change. -/
def State.dwellOver (s : State) (last : Option Nat) : Bool :=
  match last with | none => true | some l => Nat.ble (l + 50000000) s.cycles

/-- 10 s have passed since a record. -/
def State.recordFree (s : State) (last : Option Nat) : Bool :=
  match last with | none => true | some l => Nat.ble (l + 2000000000) s.cycles

/-- A change of thermal state is counted, reported and recorded (R728); CRIT is latched (Table 18-1). -/
def State.thermChange (s : State) (new : Nat) : State :=
  let old := s.fld F.PWR_THERM_STATUS_THERM_STATE
  let s := s.setFld F.PWR_THERM_STATUS_THERM_STATE new
  let s := ((s.bump F.PWR_THERM_CHANGE_CNT).event 0x150 1)
  let s := s.updPwr (fun p => { p with thermAt := some s.cycles })
  let s := if new = 3 ∨ s.recordFree s.pwr.thermRec = true then
      (s.updPwr (fun p => { p with thermRec := some s.cycles })).error 0x150 0x602A
        (word (s.fld F.RST_TEMP_MAX_TEMP * 2 ^ 16 + new * 2 ^ 8 + old))
    else s.bump F.PWR_THERM_UNLOGGED_CNT
  if new = 3 then s.latch Cause.thermalCrit 0x602A else s

/-- The evaluation of R726 at a scan. [DEDUCED: notes/assumptions/70.md] -/
def State.thermEval (s : State) : State :=
  let cur := s.fld F.PWR_THERM_STATUS_THERM_STATE
  let new := thermNext s.thermTemp cur
  let s := s.setFld F.PWR_THERM_STATUS_TEMP (s.fld F.RST_TEMP_MAX_TEMP)
  if s.dwellOver s.pwr.thermAt = true ∧ new ≠ cur then s.thermChange new else s

/-! ## Coolant bands (R730, R731) -/

/-- Upper bound of a band in 1/16 °C; band 4 has none. -/
def bandTop (b : Nat) : Int := 1120 + 80 * b

/-- The band in which a reading lies. -/
def bandOf (r : Int) : Nat := if r ≤ 1120 then 0 else if r ≤ 1200 then 1 else if r ≤ 1280 then 2 else if r ≤ 1360 then 3 else 4

/-- The highest band up to `b` that a falling reading keeps: its lower bound less 1 °C is not undercut. -/
def bandKept (r : Int) : Nat → Nat
  | 0 => 0
  | b + 1 => if r < bandTop b - 16 then bandKept r b else b + 1

/-- The band that R730 takes from `cur`, dwell apart. [DEDUCED: notes/assumptions/70.md] -/
def bandNext (valid : Bool) (r : Int) (cur : Nat) : Nat :=
  if valid then (if cur < bandOf r then bandOf r else bandKept r cur) else 3

/-- A change of band is counted, reported and recorded (R731); band 4 is latched (Table 18-1). -/
def State.coolChange (s : State) (new : Nat) : State :=
  let old := s.fld F.PWR_THERM_STATUS_COOL_BAND
  let s := s.setFld F.PWR_THERM_STATUS_COOL_BAND new
  let s := (s.bump F.PWR_COOL_CHANGE_CNT).event 0x150 2
  let s := s.updPwr (fun p => { p with coolAt := some s.cycles })
  let s := if new = 4 ∨ s.recordFree s.pwr.coolRec = true then
      (s.updPwr (fun p => { p with coolRec := some s.cycles })).error 0x150 0x602B
        (word (s.fld F.RST_COOLANT_TEMP * 2 ^ 16 + new * 2 ^ 8 + old))
    else s.bump F.PWR_THERM_UNLOGGED_CNT
  if new = 4 then s.latchRst Cause.coolant 0x602B else s

/-- The band is evaluated with the reading that COOLANT holds. [DEDUCED: notes/assumptions/70.md] -/
def State.coolEval (s : State) : State :=
  let cur := s.fld F.PWR_THERM_STATUS_COOL_BAND
  let new := bandNext (s.flag F.RST_COOLANT_VALID) (s.sfld F.RST_COOLANT_TEMP) cur
  if s.dwellOver s.pwr.coolAt = true ∧ new ≠ cur then s.coolChange new else s

/-! ## The scan (R651, R652) -/

/-- More than four sensors are invalid now and were not before: SENSORS is latched. -/
def State.sensorsCause (s : State) (before : Nat) : State :=
  if before ≤ 4 ∧ 4 < s.rst.tsBad.length then s.latch Cause.sensors 0x6029 else s

/-- The full thermal scan completes, with the 1 ms reading of the rails: TS_k, VMON_k and TEMP_MAX are updated, and the
thermal state and the coolant band are evaluated. [DEDUCED: notes/assumptions/62.md] -/
def State.thermalScan (s : State) (temps : List Int) (mv : List Nat) : State :=
  let s := s.accountLife
  let before := s.rst.tsBad.length
  let s := ((s.takeAllTs 0 (temps.take 32)).takeAllMv 0 (mv.take 12)).setTempMax
  let s := s.sensorsCause before
  let t := s.sfld F.RST_TEMP_MAX_TEMP
  let l := s.psv.life
  let s := if s.fld F.RST_TEMP_MAX_VALID_CNT ≠ 0 ∧ l.tjMax < t then
    s.updPsv (fun p => { p with life := { l with tjMax := t } }) else s
  s.thermEval.coolEval

/-- The hardware trip (R729): the valid sensor `k` reads `t`, at or above 125 °C. [DEDUCED: notes/assumptions/70.md] -/
def State.hardwareTrip (s : State) (k : Nat) (t : Int) : State :=
  if t < 500 ∨ tsValid t = false then s
  else
    let s := (s.setSfld (F.RST_TS_TEMP k) t).setFld (F.RST_TS_VALID k) 1
    let s := s.setFld F.GLB_CLOCK_STATUS_CORE_MHZ 0
    let s := s.lifeTrip
    let s := s.updPwr (fun p => { p with tripped := true })
    let s := s.enabledTiles.foldl (fun s n => s.updCond (0x080 + n) (fun c => { c with gated := true })) s
    let s := s.error 0x160 0x6037 (word (unsigned 16 t * 2 ^ 16 + k))
    s.latch Cause.thermalTrip 0x6037

/-- A coolant sample (R657): none when the read is not acknowledged. [DEDUCED: notes/assumptions/62.md] -/
def State.coolantSample (s : State) (r : Option Int) : State :=
  let bad := fun (s : State) (cause : Nat) =>
    let s := (s.setFld F.RST_COOLANT_VALID 0).bump F.RST_I3C_ERR_CNT_1
    if s.rst.coolBad then s
    else ((s.updRst (fun r => { r with coolBad := true })).error 0x132 0x4021 (word (2 ^ 8 + cause))).event 0x132 1
  let s := match r with
    | none => bad s 1
    | some v =>
      if v < -640 ∨ 2080 < v then bad s 3
      else
        let s := (s.setSfld F.RST_COOLANT_TEMP v).setFld F.RST_COOLANT_VALID 1
        let l := s.psv.life
        (s.updRst (fun r => { r with coolBad := false })).updPsv
          (fun p => { p with life := { l with coolMax := if l.coolMax < v then v else l.coolMax } })
  s.coolEval

/-! ## Ageing and the interlock (R738, R739, R741, R746) -/

/-- PWR_AGE_LIMIT is recorded and reported once per power-on reset or device reset (R741). -/
def State.ageLimit (s : State) : State :=
  if s.fld F.PSV_AGE_A_AGE_OFFSET_MV ≤ 40 ∨ s.pwr.ageReported = true then s
  else ((s.updPwr (fun p => { p with ageReported := true })).error 0x152 0x602D 0).latchRst Cause.lifetime 0x602D

/-- AGE_OFFSET_MV has risen from `old` (R739, R741): VREQ follows at once, the check of PWR_VDD_LOW 10 s later, and a rise past
40 mV is reported. [DEDUCED: notes/assumptions/70.md] -/
def State.ageRose (s : State) (old : Nat) : State :=
  ((s.updPwr (fun p => { p with roseAt := some s.cycles, oldOffset := old })).event 0x150 5).ageLimit

/-- The end of an hour of RUN or TRIM (R738): the least slack, and whether R737 held throughout. A rise is committed to PSV
page 0x213 and takes effect as its word program verifies. [DEDUCED: notes/assumptions/70.md] -/
def State.ageHour (s : State) (slack : Nat) (held : Bool) : State :=
  if s.flag F.RST_STATUS_READY = false ∨ 2 ≤ s.fld F.PWR_STATE then s
  else
    let s := s.setFld F.PWR_AGE_STATUS_AGE_SLACK_PS (min 65535 slack)
    let s := s.updPwr (fun p => { p with hourAt := s.cycles })
    let off := s.fld F.PSV_AGE_A_AGE_OFFSET_MV
    if slack < 40 ∧ held = true ∧ off < 60 then
      let s := s.accountLife
      s.disposePersist 0x213 0 0x01 ((off + 5) + 2 ^ 32 * min (2 ^ 32 - 1) (s.psv.life.run / 200000000))
    else s

/-- The request that the check of PWR_VDD_LOW uses: for 10 s after a rise of AGE_OFFSET_MV, the request before it (R739). -/
def State.vddLowRequest (s : State) : Nat :=
  let f := s.fld F.GLB_CLOCK_STATUS_CORE_MHZ
  match s.pwr.roseAt with
  | some a => if s.cycles < a + 2000000000 then s.vreqBase f + s.pwr.oldOffset else s.vreq f
  | none => s.vreq f

/-- VMON_0 reads `mv`, and has stayed more than 25 mV below the request for 1 ms while CORE runs (R746).
[DEDUCED: notes/assumptions/70.md] -/
def State.vddLow (s : State) (mv : Nat) : State :=
  if s.fld F.GLB_CLOCK_STATUS_CORE_MHZ = 0 ∨ s.vddLowRequest ≤ mv + 25 then s
  else
    let s := s.setFld (F.RST_VMON_MV 0) mv
    let s := s.error 0x150 0x602C (word (mv * 2 ^ 16 + s.vreq (s.fld F.GLB_CLOCK_STATUS_CORE_MHZ)))
    s.latch Cause.vddLow 0x602C

end Sys2Proof.Machine
end

