-- ==== Sys2Proof/Machine/Log.lean ====
section
/-! DEFINITION. The event log and the black box (spec/15_rootstock.md, R658 to R664, R685, R686, R688). -/

namespace Sys2Proof.Machine

/-- SEVERITY (R659, Table 15-8): 0 INFO, 1 WARN, 2 ERROR, 3 SAFETY. The codes listed are those that their chapters report
to the SAF page (Table 18-1) outside the family 0x6. -/
def severity (rank code : Nat) : Nat :=
  if rank = 2 then 0
  else if rank = 1 then
    (if code = 1 ∨ code = 2 then 0 else if code = 3 ∨ code = 4 ∨ code = 9 then 1 else 3)
  else
    let fam := code / 0x1000
    if fam = 6 ∨ [0x3001, 0x3007, 0x5010, 0x5017, 0x501A].contains code = true then 3
    else if fam = 5 ∨ fam = 7 ∨ fam = 8 ∨ fam = 9 then 2
    else 1

/-- One request of the log comes before another (R686): by time, errors by page, then notes, then host notes.
[DEDUCED: notes/assumptions/63.md] -/
def logBefore (a b : LogReq) : Bool :=
  Nat.blt a.ts b.ts || (a.ts == b.ts && (Nat.blt a.rank b.rank || (a.rank == b.rank && a.rank == 0 && Nat.blt a.page b.page)))

/-- The next request that enters the ring, and the others. [DEDUCED: notes/assumptions/63.md] -/
def logFirst : List LogReq → Option (LogReq × List LogReq)
  | [] => none
  | a :: t =>
    match logFirst t with
    | none => some (a, [])
    | some (b, rest) => if logBefore b a then some (b, a :: rest) else some (a, t)

/-- Token credit after the refill of 4 tokens per second, at most 64 (R662), in AON cycles of 50,000,000 to the token.
[DEDUCED: notes/assumptions/63.md] -/
def State.refill (s : State) : Nat := min 3200000000 (s.rst.tokens + (s.cycles - s.rst.tokenAt))

/-- The registers that show the ring. -/
def State.showRing (s : State) : State :=
  let new := match s.rst.ring.getLast? with | some e => e.seq | none => 0
  let old := match s.rst.ring.head? with | some e => e.seq | none => 0
  (s.setFld F.RST_LOG_NEWEST_SEQ new).setFld F.RST_LOG_OLDEST_SEQ old

/-- A new entry qualifies for the black box (R662): SAFETY entries always, others at BB_LEVEL with a token. -/
def State.qualify (s : State) (e : LogEntry) : State :=
  if e.sev < s.fld F.RST_LOG_CFG_BB_LEVEL ∧ e.sev ≠ 3 then s
  else
    let credit := s.refill
    if 50000000 ≤ credit then
      s.updRst (fun r => { r with tokens := credit - 50000000, tokenAt := s.cycles, bbWait := r.bbWait ++ [e] })
    else if e.sev = 3 then
      s.updRst (fun r => { r with tokens := credit, tokenAt := s.cycles, bbWait := r.bbWait ++ [e] })
    else ((s.updRst (fun r => { r with tokens := credit, tokenAt := s.cycles })).bump F.RST_BB_SKIP_CNT).event 0x133 1

/-- The last entry of a list is replaced. -/
def mapLast (f : LogEntry → LogEntry) : List LogEntry → List LogEntry
  | [] => []
  | [e] => [f e]
  | e :: t => e :: mapLast f t

/-- A request enters the ring with time `ts`, or is coalesced (R660, R661). [DEDUCED: notes/assumptions/63.md] -/
def State.enterRing (s : State) (q : LogReq) (ts : Nat) : State :=
  let sev := severity q.rank q.code
  let ms := s.fld F.RST_LOG_CFG_COALESCE_MS
  let same := match s.rst.ring.getLast? with
    | some e => e.code == q.code && e.page == q.page && Nat.blt ts (e.ts + ms * 1000000)
    | none => false
  if sev ≠ 3 ∧ ms ≠ 0 ∧ same = true then
    s.updRst (fun r => { r with ring := mapLast (fun e => { e with rep := min 0xFFFF (e.rep + 1) }) r.ring })
  else
    let e : LogEntry :=
      { ts := ts, code := q.code, page := q.page, info := q.detail, seq := s.rst.nextSeq, rep := 0, sev := sev,
        flags := 2 * b2n q.more, boot := s.fld F.RST_BOOT_COUNT }
    let s := if Nat.ble 4096 s.rst.ring.length then
      (s.updRst (fun r => { r with ring := r.ring.drop 1 })).bump F.RST_RING_LOST_CNT else s
    let s := s.updRst (fun r => { r with ring := r.ring ++ [e], nextSeq := (r.nextSeq + 1) % 2 ^ 32 })
    let s := if sev = 3 then s.event 0x133 0 else s
    s.showRing.qualify e

/-- LOG_ENTRY: the next recorded error or note enters the ring while Rootstock runs; until then AON hardware holds it.
[DEDUCED: notes/assumptions/63.md] -/
def State.logEntry (s : State) : State :=
  if s.rstUp = false then s
  else
    match logFirst s.logQueue with
    | none => s
    | some (q, rest) => ({ s with logQueue := rest }).enterRing q s.timebase

/-- At READY, the errors held by AON hardware enter the ring in recording order with the time of their recording. -/
def State.enterHeld (s : State) : State :=
  s.logQueue.foldl (fun s q => s.enterRing q q.ts) { s with logQueue := [] }

/-- The black-box slot after the newest. -/
def State.bbNext (s : State) : Nat := if s.rst.bbUsed then (s.fld F.RST_BB_NEWEST_SLOT + 1) % 8192 else 0

/-- An entry's flag IN_BB. -/
def LogEntry.inBb (e : LogEntry) : LogEntry := { e with flags := e.flags / 2 * 2 + 1 }

/-- BB_WRITE: the oldest waiting entry is written to the black box, if the ring still holds it and writes are permitted
(R663, R685); when a word fails to program, the slot is skipped and the entry waits for the next (R688).
[DEDUCED: notes/assumptions/63.md] -/
def State.bbWrite (s : State) (ok : Bool) : State :=
  match s.rst.bbWait with
  | [] => s
  | e :: rest =>
    if s.inhibited then s
    else if !(s.rst.ring.any (fun x => x.seq == e.seq)) then s.updRst (fun r => { r with bbWait := rest })
    else
      let slot := s.bbNext
      let wrapped := s.rst.bbUsed && slot == 0
      let s := (s.setFld F.RST_BB_NEWEST_SLOT slot).updRst (fun r => { r with bbUsed := true })
      let s := if wrapped then s.bump F.RST_BB_PASS_CNT else s
      if ok then
        s.updRst (fun r => { r with
          bbWait := rest
          bb := Sparse.set (fun _ => none) r.bb slot (some e.inBb)
          ring := r.ring.map (fun x => if x.seq = e.seq then x.inBb else x) })
      else s.bump F.RST_BB_FAIL_CNT

/-- The 32 bytes of an entry (Table 15-7). -/
def LogEntry.bytes (e : LogEntry) : List Byte :=
  let b := leBytes 8 e.ts ++ leBytes 2 e.code ++ leBytes 2 e.page ++ leBytes 4 e.info.toNat ++ leBytes 4 e.seq
    ++ leBytes 2 e.rep ++ leBytes 1 e.sev ++ leBytes 1 e.flags ++ leBytes 4 e.boot
  b ++ leBytes 4 (crc32 b)

/-- LOG_CMD FETCH (R664): a fetch starts unless one is in service. [DEDUCED: notes/assumptions/63.md] -/
def State.logFetch (s : State) (w : Nat) : State :=
  if s.flag F.RST_LOG_STATUS_BUSY then s
  else
    let s := (s.setFld F.RST_LOG_STATUS_BUSY 1).wrote 0x133 w
    s.updRst (fun r => { r with fetch := some (s.fld F.RST_LOG_SEL_SRC, s.fld F.RST_LOG_INDEX) })

/-- The entry a fetch finds. -/
def State.fetchEntry (s : State) (src idx : Nat) : Option LogEntry :=
  if src = 0 then s.rst.ring.find? (fun e => e.seq == idx)
  else if idx < 8192 then Sparse.get (fun _ => none) s.rst.bb idx
  else none

/-- LOG_ENTRY_0 to LOG_ENTRY_7 take 32 bytes. -/
def State.showEntry (s : State) (bs : List Byte) : State :=
  (List.range 8).foldl (fun s k => s.setFld (F.RST_LOG_ENTRY_BYTES k) (leNat ((bs.drop (4 * k)).take 4))) s

/-- The fetched entry is shown with its RESULT (R664). `raw` gives the 32 bytes read where the store returned other bytes
than were written. [DEDUCED: notes/assumptions/63.md] -/
def State.logFetchDone (s : State) (raw : Option (List Byte)) : State :=
  match s.rst.fetch with
  | none => s
  | some (src, idx) =>
    let s := (s.updRst (fun r => { r with fetch := none })).setFld F.RST_LOG_STATUS_BUSY 0
    match s.fetchEntry src idx with
    | none => (s.showEntry []).setFld F.RST_LOG_STATUS_RESULT 1
    | some e =>
      let bs := match raw with | some b => b | none => e.bytes
      (s.showEntry bs).setFld F.RST_LOG_STATUS_RESULT (if leNat (bs.drop 28) = crc32 (bs.take 28) then 0 else 2)

end Sys2Proof.Machine
end

