-- ==== Sys2Proof/Machine/Update.lean ====
section
/-! DEFINITION. Budwood slots and update commands (spec/15_rootstock.md, R665 to R673). -/

namespace Sys2Proof.Machine

/-! ## Slots (R668, Table 15-14) -/

def Slot.empty : Nat := 0
def Slot.staging : Nat := 1
def Slot.staged : Nat := 2
def Slot.trial : Nat := 3
def Slot.good : Nat := 4
def Slot.bad : Nat := 5

/-- The fields of slot `t` (0 A, 1 B). -/
def slotState (t : Nat) : Field := if t = 0 then F.RST_SLOT_A_STATE else F.RST_SLOT_B_STATE
def slotTries (t : Nat) : Field := if t = 0 then F.RST_SLOT_A_TRIES else F.RST_SLOT_B_TRIES
def slotSvn (t : Nat) : Field := if t = 0 then F.RST_SLOT_A_SVN else F.RST_SLOT_B_SVN
def slotActive (t : Nat) : Field := if t = 0 then F.RST_SLOT_A_ACTIVE else F.RST_SLOT_B_ACTIVE
def slotFw (t : Nat) : Field := if t = 0 then F.RST_SLOT_A_RST_FW_VERSION else F.RST_SLOT_B_RST_FW_VERSION
def slotUcode (t : Nat) : Field := if t = 0 then F.RST_SLOT_A_UCODE_VERSION else F.RST_SLOT_B_UCODE_VERSION

/-- The image of a slot. -/
def State.slotImage (s : State) (t : Nat) : SlotImage := if t = 0 then s.rst.imgA else s.rst.imgB

/-- The image of a slot is replaced. -/
def State.setSlotImage (s : State) (t : Nat) (i : SlotImage) : State :=
  s.updRst (fun r => if t = 0 then { r with imgA := i } else { r with imgB := i })

/-- The booted slot. -/
def State.bootedSlot (s : State) : Nat := s.fld F.RST_STATUS_BOOT_SLOT

/-- The slot a STAGE writes: the slot not booted; in ROM_RECOVERY a slot that is not GOOD (R669, R672). -/
def State.stageTarget (s : State) : Nat :=
  if s.romRecovery then (if s.fld (slotState 0) ≠ Slot.good then 0 else 1) else 1 - s.bootedSlot

/-- The staged slot that ACTIVATE takes. -/
def State.activateTarget (s : State) : Nat :=
  if s.romRecovery then (if s.fld (slotState 0) = Slot.staged then 0 else 1) else 1 - s.bootedSlot

/-! ## Commands (R669, Table 15-15) -/

/-- Rootstock serves update commands: the firmware runs, or the ROM serves STAGE and ACTIVATE (R672). -/
def State.updServed (s : State) (op : Nat) : Bool :=
  s.flag F.RST_STATUS_READY || (s.romRecovery && (op == 1 || op == 2))

/-- An update command ends with a result: UPD_RESULT, BUSY and the events of page 0x131. -/
def State.updEnd (s : State) (code : Nat) : State :=
  let s := ((s.setFld F.RST_UPD_RESULT_CODE code).setFld F.RST_UPD_STATUS_BUSY 0).event 0x131 0
  if code = 0 then s else s.event 0x131 1

/-- The word of UPD_CMD is kept and the command starts (R669). [DEDUCED: notes/assumptions/64.md] -/
def State.updTake (s : State) (w op key : Nat) : State :=
  ((s.setFld F.RST_UPD_CMD_OP op).setFld F.RST_UPD_CMD_KEY key).wrote 0x131 w

/-- RST_BUSY for a write of UPD_CMD (Table 18-11). [DEDUCED: notes/assumptions/64.md] -/
def State.updBusy (s : State) (w : Nat) : State := s.error 0x131 0xA020 (infoOffWriter 0x4C w)

/-- An update command other than ABORT: discarded while one runs; its precondition, else RST_BUSY; the wear of the security
words it programs (R707); then its effect. [DEDUCED: notes/assumptions/64.md] -/
def State.updCommand (s : State) (w op key : Nat) (words : List Nat) (pre : State → Bool) (f : State → State) : State :=
  if s.flag F.RST_UPD_STATUS_BUSY = true ∨ s.updServed op = false then s.updBusy w
  else
    let s := (s.updTake w op key).setFld F.RST_UPD_STATUS_OP op
    if pre s = false then (s.updBusy w).updEnd 0xA020
    else if s.securityRoom words = false then (s.securityRefuse words).updEnd 0x7001
    else f (s.securityProgram words)

/-- STAGE starts (R670): the target slot reads STAGING. -/
def State.updStage (s : State) (w key : Nat) (words : List Nat) : State :=
  s.updCommand w 1 key words (fun s => s.romRecovery || s.fld (slotState s.bootedSlot) != Slot.trial) (fun s =>
    let t := s.stageTarget
    let s := (s.setFld (slotState t) Slot.staging).setFld F.RST_UPD_STATUS_BUSY 1
    s.updRst (fun r => { r with stage := some ⟨t,
      s.fld F.RST_UPD_ADDR_HI_ADDR * 2 ^ 32 + s.fld F.RST_UPD_ADDR_LO_ADDR * 64, s.fld F.RST_UPD_SIZE⟩ }))

/-- ACTIVATE: the staged slot becomes TRIAL with TRIES 0. -/
def State.updActivate (s : State) (w key : Nat) (words : List Nat) : State :=
  s.updCommand w 2 key words (fun s => s.fld (slotState s.activateTarget) == Slot.staged) (fun s =>
    let t := s.activateTarget
    let s := (s.setFld (slotState t) Slot.trial).setFld (slotTries t) 0
    (s.note 0x0003 (word t)).updEnd 0)

/-- CONFIRM: the booted trial slot becomes GOOD and ACTIVE_SLOT, MIN_SVN rises, and the other slot is BAD below it. -/
def State.updConfirm (s : State) (w key : Nat) (words : List Nat) : State :=
  s.updCommand w 3 key words (fun s => s.flag F.RST_STATUS_READY && s.fld (slotState s.bootedSlot) == Slot.trial) (fun s =>
    let t := s.bootedSlot
    let m := max (s.fld F.RST_MIN_SVN) (s.fld (slotSvn t))
    let s := ((s.setFld (slotState t) Slot.good).setFld (slotActive t) 1).setFld (slotActive (1 - t)) 0
    let s := (s.setFld F.RST_MIN_SVN m).setFld F.RST_STATUS_TRIAL 0
    let s := if s.fld (slotSvn (1 - t)) < m then s.setFld (slotState (1 - t)) Slot.bad else s
    (s.note 0x0004 (word (m * 2 ^ 16 + t))).updEnd 0)

/-- REVERT: the booted trial slot becomes BAD. -/
def State.updRevert (s : State) (w key : Nat) (words : List Nat) : State :=
  s.updCommand w 4 key words (fun s => s.fld (slotState s.bootedSlot) == Slot.trial) (fun s =>
    let t := s.bootedSlot
    let s := (s.setFld (slotState t) Slot.bad).setFld F.RST_STATUS_TRIAL 0
    ((s.note 0x0005 (word t)).event 0x131 2).updEnd 0)

/-- REVOKE: the revocation bit of a key slot that is not the booted slot's is set. -/
def State.updRevoke (s : State) (w key : Nat) (words : List Nat) : State :=
  s.updCommand w 6 key words (fun s => key != (s.slotImage s.bootedSlot).keySlot) (fun s =>
    let s := s.setFld F.RST_KEY_REVOKED_KEYS (setBit (s.fld F.RST_KEY_REVOKED_KEYS) key)
    (s.note 0x000A (word key)).updEnd 0)

/-- ABORT: a running STAGE stops and its target slot is EMPTY; with none running its precondition fails. [DEDUCED: notes/assumptions/64.md] -/
def State.updAbort (s : State) (w key : Nat) : State :=
  match s.rst.stage with
  | none => if s.updServed 5 then (((s.updTake w 5 key).setFld F.RST_UPD_STATUS_OP 5).updBusy w).updEnd 0xA020 else s.updBusy w
  | some r =>
    let s := s.updTake w 5 key
    let s := (s.setFld (slotState r.slot) Slot.empty).updRst (fun x => { x with stage := none })
    (s.setFld F.RST_UPD_STATUS_OP 5).updEnd 0xA021

/-! ## Staging checks (R670, Table 15-16) -/

/-- A little-endian number in a byte string. -/
def fieldAt (b : List Byte) (o n : Nat) : Nat := leNat ((b.drop o).take n)

/-- A big-endian number in a byte string. -/
def fieldBe (b : List Byte) (o n : Nat) : Nat := leNat ((b.drop o).take n).reverse

/-- `n` bytes from `o` are zero. -/
def zeroAt (b : List Byte) (o n : Nat) : Bool := ((b.drop o).take n).all (· == 0)

/-- A component of a package (Table 15-11). -/
structure Component where
  type : Nat
  off : Nat
  size : Nat
  deriving DecidableEq, Repr

/-- The components of a header. -/
def components (b : List Byte) : List Component :=
  (List.range (min 12 (fieldAt b 0x18 2))).map (fun i =>
    ⟨fieldAt b (0x40 + 16 * i) 1, fieldAt b (0x44 + 16 * i) 4, fieldAt b (0x48 + 16 * i) 4⟩)

/-- Two extents do not overlap. -/
def apart (a b : Component) : Bool := Nat.ble (a.off + a.size) b.off || Nat.ble (b.off + b.size) a.off

/-- No two extents of a list overlap. -/
def allApart : List Component → Bool
  | [] => true
  | a :: t => t.all (apart a) && allApart t

/-- The first component of a type. -/
def componentOf (cs : List Component) (t : Nat) : Option Component := cs.find? (fun c => c.type == t)

/-- The bytes of a component. -/
def Component.bytes (c : Component) (b : List Byte) : List Byte := (b.drop c.off).take c.size

/-- Check 3: TOTAL_BYTES and the components' extents. -/
def checkExtents (b : List Byte) (size : Nat) : Option Nat :=
  let total := fieldAt b 8 4
  let cs := components b
  if size < total then some 0x1002
  else if total % 64 ≠ 0 ∨ total < 512 then some 0x9002
  else if cs.all (fun c => c.off % 64 == 0 && Nat.ble 256 c.off && Nat.ble (c.off + c.size) (total - 256)) && allApart cs
  then none else some 0x9002

/-- The reserved bytes of a manifest are 0 (Table 15-13, R12). -/
def manifestZero (m : List Byte) : Bool :=
  zeroAt m 2 14 && (List.range ((m.length - 16) / 16)).all (fun i => zeroAt m (16 + 16 * i + 9) 1 && zeroAt m (16 + 16 * i + 12) 4)

/-- Check 4: reserved fields, the components' number and kinds, versions and sizes. -/
def checkFields (b : List Byte) : Option Nat :=
  let total := fieldAt b 8 4
  let n := fieldAt b 0x18 2
  let cs := components b
  let cnt := fun (t : Nat) => (cs.filter (fun c => c.type == t)).length
  let sizeOk := cs.all (fun c => if c.type == 1 then Nat.ble c.size (448 * 1024) else if c.type == 2 then Nat.ble c.size (4 * 2 ^ 20)
    else true)
  let reserved := zeroAt b 0x1A 38
    && (List.range 12).all (fun i => if i < n then zeroAt b (0x41 + 16 * i) 3 && zeroAt b (0x4C + 16 * i) 4 else zeroAt b (0x40 + 16 * i) 16)
    && zeroAt b (total - 255) 3 && zeroAt b (total - 60) 60
    && cs.all (fun c => c.type != 3 || manifestZero (c.bytes b))
  let kinds := (n == 2 || n == 3) && cs.all (fun c => Nat.ble 1 c.type && Nat.ble c.type 3)
    && cnt 3 == 1 && Nat.ble (cnt 1) 1 && Nat.ble (cnt 2) 1 && Nat.ble 1 (cnt 1 + cnt 2)
  let versions := ((fieldAt b 0x10 4 != 0) == (cnt 1 == 1)) && ((fieldAt b 0x14 4 != 0) == (cnt 2 == 1))
  if reserved && kinds && versions && sizeOk then none else some 0x1001

/-- Check 9: the manifest's layout (R667). -/
def checkManifest (m : List Byte) : Option Nat :=
  let n := fieldAt m 0 2
  if Nat.ble 1 n && Nat.ble n 1024 && m.length == 16 + 16 * n then none else some 0x9002

/-- The entries of a manifest (Table 15-13). -/
def manifestEntries (m : List Byte) : List ManifestEntry :=
  (List.range (fieldAt m 0 2)).map (fun i =>
    ⟨fieldAt m (16 + 16 * i) 4, fieldAt m (20 + 16 * i) 4, fieldAt m (24 + 16 * i) 1, fieldAt m (26 + 16 * i) 2⟩)

/-- The checks 1 to 9 of Table 15-16 on the package `b`, in order: the first code that fails. `bad`: a byte of it was read as poison, at
which check 6 fails (R854). [DEDUCED: notes/assumptions/64.md] -/
def State.stageChecks (s : State) (r : StageRun) (b : List Byte) (bad : Bool) : Option Nat :=
  let total := fieldAt b 8 4
  let sig := b.drop (total - 256)
  let ks := fieldAt b 0x0E 1
  let man := match componentOf (components b) 3 with | some c => c.bytes b | none => []
  match lengthCheck 32 r.size 0 (16 * 2 ^ 20) (16 * 2 ^ 20) with
  | some c => some c
  | none =>
    if s.dramTop ≤ r.addr then some 0x1001
    else if fieldAt b 0 4 ≠ 0x57445542 ∨ fieldAt b 4 2 ≠ 1 ∨ fieldAt b 6 2 ≠ 256 then some 0x9002
    else match checkExtents b r.size with
      | some c => some c
      | none => match checkFields b with
        | some c => some c
        | none =>
          if 3 < ks ∨ bitOf (s.fld F.RST_KEY_REVOKED_KEYS) ks = true
            ∨ s.rst.keyHash.getD ks 0 ≠ Config.sha384 ((sig.drop 4).take 96) then some 0x8013
          else if bad = true ∨ fieldAt sig 0 1 ≠ 1 ∨ Config.ecdsaP384 (b.take (total - 256)) (fieldBe sig 4 48) (fieldBe sig 0x34 48)
            (fieldBe sig 0x64 48) (fieldBe sig 0x94 48) = false then some 0x8014
          else if fieldAt b 0x0F 1 ≠ s.fld F.GLB_DEVICE_IDENT_STEPPING then some 0x9003
          else if fieldAt b 0x0C 2 < s.fld F.RST_MIN_SVN then some 0x8015
          else checkManifest man

/-- The staged slot's record on success (R670): components the package lacks are copied from the booted slot. -/
def State.stageStore (s : State) (r : StageRun) (b : List Byte) : State :=
  let cs := components b
  let old := s.slotImage s.bootedSlot
  let fw := componentOf cs 1
  let uc := componentOf cs 2
  let man := match componentOf cs 3 with | some c => c.bytes b | none => []
  let img : SlotImage :=
    { digests := [match fw with | some c => Config.sha384 (c.bytes b) | none => old.digests.getD 0 0,
                  match uc with | some c => Config.sha384 (c.bytes b) | none => old.digests.getD 1 0,
                  Config.sha384 man]
      keySlot := fieldAt b 0x0E 1
      fwBytes := match fw with | some c => c.size | none => old.fwBytes
      ucodeBytes := match uc with | some c => c.size | none => old.ucodeBytes
      manifest := manifestEntries man }
  let s := s.setSlotImage r.slot img
  let s := s.setFld (slotFw r.slot) (if fw.isSome then fieldAt b 0x10 4 else s.fld (slotFw s.bootedSlot))
  let s := s.setFld (slotUcode r.slot) (if uc.isSome then fieldAt b 0x14 4 else s.fld (slotUcode s.bootedSlot))
  let s := (s.setFld (slotSvn r.slot) (fieldAt b 0x0C 2)).setFld (slotTries r.slot) 0
  (s.setFld (slotState r.slot) Slot.staged).note 0x0002 (word (fieldAt b 0x0C 2 * 2 ^ 16 + r.slot))

/-- STAGE ends (R670): `flashOk` says whether the flash write and read-back of check 10 succeed. [DEDUCED: notes/assumptions/64.md] -/
def State.updStageDone (s : State) (flashOk : Bool) : State :=
  match s.rst.stage with
  | none => s
  | some r =>
    let b := (s.read r.addr (min r.size (16 * 2 ^ 20))).bytes
    let f := s.fetch r.addr (min (fieldAt b 8 4) (16 * 2 ^ 20))
    let bad := f.1.poison
    let s := f.2.updRst (fun x => { x with stage := none })
    match s.stageChecks r b bad with
    | some c => (s.setFld (slotState r.slot) Slot.empty).updEnd c
    | none => if flashOk then (s.stageStore r b).updEnd 0 else (s.setFld (slotState r.slot) Slot.empty).updEnd 0x501A

/-! ## Boot slot selection (R671, R689, R800) -/

/-- A slot verifies: the digests the boot ROM computes from the flash equal its record's, and its SVN is at least MIN_SVN. -/
def State.slotVerifies (s : State) (t : Nat) (digests : List Nat) : Bool :=
  digests == (s.slotImage t).digests && Nat.ble (s.fld F.RST_MIN_SVN) (s.fld (slotSvn t))

/-- A slot is marked BAD by the boot ROM; the note follows READY. [DEDUCED: notes/assumptions/61.md] -/
def State.markBad (s : State) (t : Nat) : State :=
  (s.setFld (slotState t) Slot.bad).updRst (fun r => { r with reverted := r.reverted ++ [t] })

/-- The outcome of the boot ROM: the slot booted; none for ROM_RECOVERY. -/
def State.tryTrials (s : State) (digA digB : List Nat) : List Nat → State × Option Nat
  | [] => (s, none)
  | t :: ts =>
    if s.fld (slotState t) ≠ Slot.trial then State.tryTrials s digA digB ts
    else if s.fld (slotTries t) < 3 then
      let s := s.setFld (slotTries t) (s.fld (slotTries t) + 1)
      if s.slotVerifies t (if t = 0 then digA else digB) then (s, some t) else State.tryTrials (s.markBad t) digA digB ts
    else State.tryTrials (s.markBad t) digA digB ts

/-- ACTIVE_SLOT. -/
def State.activeSlot (s : State) : Nat := if s.flag F.RST_SLOT_B_ACTIVE then 1 else 0

/-- One GOOD slot is tried. -/
def State.tryGood (s : State) (t : Nat) (dig : List Nat) : State × Option Nat :=
  if s.fld (slotState t) ≠ Slot.good then (s, none)
  else if s.slotVerifies t dig then (s, some t) else (s.markBad t, none)

/-- The procedure of R671. A slot left STAGING is EMPTY first. [DEDUCED: notes/assumptions/61.md] -/
def State.chooseSlot (s : State) (digA digB : List Nat) : State × Option Nat :=
  let clean := fun (s : State) (t : Nat) => if s.fld (slotState t) = Slot.staging then s.setFld (slotState t) Slot.empty else s
  let r := (clean (clean s 0) 1).tryTrials digA digB [0, 1]
  match r.2 with
  | some t => (r.1, some t)
  | none =>
    let a := r.1.activeSlot
    let g := r.1.tryGood a (if a = 0 then digA else digB)
    match g.2 with
    | some t => (g.1, some t)
    | none =>
      let o := g.1.tryGood (1 - a) (if a = 0 then digB else digA)
      match o.2 with
      | some t => ((o.1.setFld (slotActive t) 1).setFld (slotActive (1 - t)) 0, some t)
      | none => (o.1, none)

/-! ## Compatibility (R674) -/

/-- Some entry of the booted slot's manifest holds the running triple. -/
def State.tripleTested (s : State) : Bool :=
  (s.slotImage s.bootedSlot).manifest.any (fun e =>
    e.fw == s.fld F.RST_FW_VERSION && e.ucode == s.fld F.RST_TILE_UCODE_VERSION
      && e.stepping == s.fld F.GLB_DEVICE_IDENT_STEPPING)

/-- Some entry holds the triple and an Espalier FORMAT (R675). -/
def State.formatTested (s : State) (format : Nat) : Bool :=
  (s.slotImage s.bootedSlot).manifest.any (fun e =>
    e.fw == s.fld F.RST_FW_VERSION && e.ucode == s.fld F.RST_TILE_UCODE_VERSION
      && e.stepping == s.fld F.GLB_DEVICE_IDENT_STEPPING && e.format == format)

end Sys2Proof.Machine
end

