-- ==== Sys2Proof/Machine/Plan.lean ====
section
/-! DEFINITION. Espaliers: the format, the cost expressions, the load checks and the load-time proof
(spec/03_frame_tick_espalier.md, R130 to R143, R851 to R853). -/

namespace Sys2Proof.Machine

/-! ## Format (Tables 3-4 to 3-6) -/

/-- The header at a device address. -/
def State.planHdr (s : State) (a : Nat) : PlanHdr :=
  let g := fun (off n : Nat) => s.readNat (a + off) n
  { modes := g 6 2, totalSize := g 8 4, stageCount := g 0xC 2, levels := g 0xE 1, compiledTiles := g 0xF 1, periodUs := g 0x10 4,
    budgetUs := g 0x14 4, floorMhz := g 0x18 2, costOff := g 0x1C 4, costCount := g 0x20 4, progOff := g 0x24 4, progSize := g 0x28 4,
    resultBytes := g 0x2C 4, proofL3 := g 0x30 4, crc := g 0x34 4 }

/-- The stage record at a device address; `deps` holds the slots in use. -/
def State.stageRec (s : State) (a : Nat) : StageRec :=
  let g := fun (off n : Nat) => s.readNat (a + off) n
  { kind := g 2 1, levels := g 3 1, depCount := g 4 1, dramShare := g 5 1, tileFirst := g 6 1, tileSpan := g 7 1,
    deps := (List.range (min 8 (g 4 1))).map (fun k => g (8 + 2 * k) 2), descs := (List.range 4).map (fun l => g (0x18 + 4 * l) 4),
    costIndex := g 0x28 2, flags := g 0x2A 2 }

/-- Byte offset of stage record `i` in the Espalier. -/
def stageOff (i : Nat) : Nat := 0x40 + 48 * i

/-- The Espalier at a device address. -/
def State.planAt (s : State) (a : Nat) : Plan :=
  let h := s.planHdr a
  { addr := a, hdr := h, stages := (List.range h.stageCount).map (fun i => s.stageRec (a + stageOff i)) }

/-- Byte offset of a stage's cost entry at level `l`. -/
def Plan.costOff (p : Plan) (r : StageRec) (l : Nat) : Nat := p.hdr.costOff + 32 * (r.costIndex + l)

/-- The levels in a LEVELS field. -/
def levelsOf (m : Nat) : List Nat := (List.range 4).filter (fun l => bitOf m l)

/-! ## Cost (R139) -/

/-- A cost entry (Table 3-6). -/
structure CostEntry where
  fix : Nat
  site : Nat
  point : Nat
  fabFix : Nat
  fabSite : Nat
  fabPoint : Nat
  deriving DecidableEq, Repr

/-- The cost entry of a stage at level `l`, as memory holds it (R133). -/
def State.costEntry (s : State) (p : Plan) (r : StageRec) (l : Nat) : CostEntry :=
  let a := p.addr + p.costOff r l
  ⟨s.readNat a 4, s.readNat (a + 4) 4, s.readNat (a + 8) 4, s.readNat (a + 0xC) 4, s.readNat (a + 0x10) 4, s.readNat (a + 0x14) 4⟩

/-- stage(s, L): `f` is the CORE frequency in MHz, `tc` the tiles it runs on. -/
def CostEntry.cost (c : CostEntry) (ct tc f sites points : Nat) : Nat :=
  max (ceilDiv ((256 * c.fix + c.site * sites + c.point * points) * 1000 * ct) (256 * f * tc))
    (c.fabFix + ceilDiv (c.fabSite * sites + c.fabPoint * points) 1000)

/-- cost(L) on `tiles` tiles; `thinFrom` is S_src when the level is thinned (R139). [DEDUCED: notes/assumptions/75.md] -/
def State.costOf (s : State) (p : Plan) (tiles f l sites points : Nat) (thinFrom : Option Nat) : Nat :=
  let ct := p.hdr.compiledTiles
  5000 + ceilDiv p.hdr.resultBytes 64 + (2000 + ceilDiv (350 * sites) 1000)
    + (match thinFrom with | some n => 1000 + n | none => 0)
    + ((p.stages.filter (fun r => bitOf r.levels l)).map
        (fun r => (s.costEntry p r l).cost ct (min ct tiles) f sites points)).foldl (· + ·) 0

/-- The cost of the load-time proof on `tiles` tiles (R141, R142). -/
def State.proofCost (s : State) (p : Plan) (tiles : Nat) : Nat :=
  s.costOf p tiles p.hdr.floorMhz 3 262144 4194304 (some (16384 * tiles))

/-! ## Checks: a failed condition is a byte offset (R853) and a code -/

/-- FIELD_RANGE at an offset. -/
def badIf (off : Nat) (c : Bool) : List (Nat × Nat) := if c then [(off, Err.fieldRange)] else []

/-- A length field's checks before its buffer (R105). -/
def badLen (off width v lo hi : Nat) : List (Nat × Nat) :=
  match lengthCheck width v lo hi (2 ^ 64) with | some c => [(off, c)] | none => []

/-- An extent beyond its buffer (R105). [DEDUCED: notes/assumptions/26.md] -/
def badExt (off : Nat) (c : Bool) : List (Nat × Nat) := if c then [(off, Err.lengthExceedsBuffer)] else []

/-- The condition at the lowest byte offset, the first listed of one offset (R853). [DEDUCED: notes/assumptions/26.md] -/
def lowestBad : List (Nat × Nat) → Option (Nat × Nat)
  | [] => none
  | x :: t => match lowestBad t with
    | none => some x
    | some y => if Nat.ble x.1 y.1 then some x else some y

/-- Check 3: the length fields in the order of R851, and every offset and extent within TOTAL_SIZE. [DEDUCED: notes/assumptions/26.md] -/
def State.lengthFault (s : State) (p : Plan) (size : Nat) : Option (Nat × Nat) :=
  let h := p.hdr
  let t := h.totalSize
  let descs := fun (_ : Unit) => p.numbered.flatMap (fun x => (levelsOf x.2.levels).flatMap (fun l =>
    let d := p.descOff x.2 l
    let far := Nat.blt t (d + 64)
    let q := tileProg (s.read (p.addr + d) 64).bytes
    badExt (stageOff x.1 + 0x18 + 4 * l) far
      ++ badExt (d + 8) (!far && x.2.kind == 0 && Nat.blt t (h.progOff + q.opsOff + 64 * q.opCount))))
  match badLen 8 32 t 0 0x1000000 ++ badExt 8 (Nat.blt size t) ++ badLen 0xC 16 h.stageCount 1 1024
      ++ badExt 0xC (Nat.blt t (stageOff h.stageCount)) ++ badLen 0x20 32 h.costCount 0 (2 ^ 32) ++ badExt 0x1C (Nat.blt t h.costOff)
      ++ badExt 0x20 (Nat.blt t (h.costOff + 32 * h.costCount)) ++ badLen 0x28 32 h.progSize 0 (2 ^ 32)
      ++ badExt 0x24 (Nat.blt t h.progOff) ++ badExt 0x28 (Nat.blt t (h.progOff + h.progSize)) with
  | x :: _ => some x
  | [] => (descs ()).head?

/-- The CRC-32 of an Espalier, its field taken as 0 (R136), equals the field, and no byte is poisoned (R854). -/
def crcHolds (r : Rd) (crc : Nat) : Bool :=
  !r.poison && crc32 (r.bytes.take 0x34 ++ List.replicate 4 0 ++ r.bytes.drop 0x38) == crc

/-! ### Header, stage table and cost table -/

/-- The header's fields. [DEDUCED: notes/assumptions/26.md] -/
def State.hdrFaults (s : State) (p : Plan) : List (Nat × Nat) :=
  let h := p.hdr
  badIf 6 (Nat.blt 3 h.modes || h.modes == 0) ++ badIf 8 (h.totalSize % 64 != 0)
    ++ badIf 0xE (Nat.blt 15 h.levels || h.levels == 0 || (bitOf h.modes 0 && !bitOf h.levels 3))
    ++ badIf 0xF (!([32, 48, 64].contains h.compiledTiles)) ++ badIf 0x10 (Nat.blt h.periodUs 10000 || Nat.blt 100000 h.periodUs)
    ++ badIf 0x14 (Nat.blt h.budgetUs 1000 || Nat.blt h.periodUs (h.budgetUs + 1000))
    ++ badIf 0x18 (Nat.blt h.floorMhz 350 || Nat.blt 1400 h.floorMhz) ++ badIf 0x1A (s.readNat (p.addr + 0x1A) 2 != 0)
    ++ badIf 0x1C (h.costOff % 32 != 0) ++ badIf 0x20 (h.costCount != 4 * h.stageCount) ++ badIf 0x24 (h.progOff % 64 != 0)
    ++ badIf 0x2C (Nat.blt h.resultBytes 4096 || Nat.blt 0x1000000 h.resultBytes || h.resultBytes % 64 != 0)
    ++ badIf 0x38 (s.readNat (p.addr + 0x38) 8 != 0)

/-- A stage record's fields (Table 3-5), the placement of its descriptors (R852), and the DRAM_SHARE its KIND needs (R349, R470).
[DEDUCED: notes/assumptions/26.md] -/
def State.stageFaults (s : State) (p : Plan) (i : Nat) (r : StageRec) : List (Nat × Nat) :=
  let b := stageOff i
  let ct := p.hdr.compiledTiles
  let g := fun (off n : Nat) => s.readNat (p.addr + b + off) n
  badIf b (g 0 2 != i) ++ badIf (b + 2) (Nat.blt 5 r.kind) ++ badIf (b + 3) (Nat.blt 15 r.levels) ++ badIf (b + 4) (Nat.blt 8 r.depCount)
    ++ badIf (b + 5) (Nat.blt 16 r.dramShare || (r.dramShare == 0 && (r.kind == 1 || r.kind == 4 || r.kind == 5)))
    ++ badIf (b + 6) (Nat.ble ct r.tileFirst) ++ badIf (b + 7) (r.tileSpan == 0 || Nat.blt ct (r.tileFirst + r.tileSpan))
    ++ (List.range 8).flatMap (fun k =>
        badIf (b + 8 + 2 * k) (if Nat.blt k r.depCount then Nat.ble i (g (8 + 2 * k) 2) else g (8 + 2 * k) 2 != 0))
    ++ (List.range 4).flatMap (fun l =>
        let d := r.descs.getD l 0
        badIf (b + 0x18 + 4 * l)
          (if bitOf r.levels l then Nat.blt p.hdr.progSize (d + 64) || (Nat.ble r.kind 3 && d % 64 != 0) else d != 0))
    ++ badIf (b + 0x28) (Nat.ble p.hdr.costCount (r.costIndex + 3)) ++ badIf (b + 0x2A) (Nat.blt 1 r.flags)
    ++ badIf (b + 0x2C) (g 0x2C 4 != 0)

/-- Cost entries: reserved bytes, and entries of levels not in LEVELS all zero (R138). [DEDUCED: notes/assumptions/26.md] -/
def State.costFaults (s : State) (p : Plan) : List (Nat × Nat) :=
  (List.range p.hdr.costCount).flatMap (fun i =>
      badIf (p.hdr.costOff + 32 * i + 0x18) (s.readNat (p.addr + p.hdr.costOff + 32 * i + 0x18) 8 != 0))
    ++ p.numbered.flatMap (fun x => ((List.range 4).filter (fun l => !bitOf x.2.levels l)).flatMap (fun l =>
        (List.range 6).flatMap (fun k =>
          badIf (max (p.costOff x.2 l + 4 * k) (stageOff x.1 + 0x28)) (s.readNat (p.addr + p.costOff x.2 l + 4 * k) 4 != 0))))

/-! ### Addresses and the feature region -/

/-- End of the feature region (Table 9-2). -/
def State.featureEnd (s : State) : Nat := 0x180000 - 65536 * s.fld F.ETU_CFG_CACHE_SHARE

/-- `n` bytes from a slice offset lie in the feature region (R368, R369). -/
def State.inFeature (s : State) (off n : Nat) : Bool := n == 0 || (Nat.ble 0xA0000 off && Nat.ble (off + n) s.featureEnd)

/-- The conditions on `n` bytes that a device-address field names: within 48 bits; no global address in an Espalier for FRAME_LOCKED
(R547); of an OUTPUT stage, none of the result window outside set offsets 0x1000 to RESULT_BYTES - 1 of set 0 (R589). -/
def Plan.addrBad (p : Plan) (r : StageRec) (off d n : Nat) : List (Nat × Nat) :=
  let e := d + max 1 n
  badIf off (Nat.blt (2 ^ 48) e || (bitOf p.hdr.modes 0 && Nat.blt 0x800000000000 e)
    || (bitOf r.flags 0 && Nat.blt d 0x001008000000 && Nat.blt 0x001006000000 e
        && !(Nat.ble 0x001006001000 d && Nat.ble e (0x001006000000 + p.hdr.resultBytes))))

/-- A cost-entry field covers base + ceil(num / den); a rate of 0 covers nothing. -/
def covers (field base num den : Nat) : Bool := if num == 0 then Nat.ble base field else den != 0 && Nat.ble (base + ceilDiv num den) field

/-! ### Site sets at load (R332, R345, R349) -/

/-- A stage that runs at a level, with its number and the bytes of its descriptor there. -/
structure LevelStage where
  idx : Nat
  stg : StageRec
  off : Nat
  desc : List Byte
  deriving DecidableEq, Repr

/-- The stages that run at level `l`. -/
def State.levelStages (s : State) (p : Plan) (l : Nat) : List LevelStage :=
  (p.numbered.filter (fun x => bitOf x.2.levels l)).map (fun x =>
    ⟨x.1, x.2, p.descOff x.2 l, (s.read (p.addr + p.descOff x.2 l) 64).bytes⟩)

/-- The STRIDED stages of a level. -/
def creators (ls : List LevelStage) : List LevelStage := ls.filter (fun x => x.stg.kind == 1 && (convDesc x.desc).op == 1)

/-- The stage that creates a derived set. -/
def creatorOf (ls : List LevelStage) (k : Nat) : Option LevelStage := (creators ls).find? (fun x => (convDesc x.desc).outSet == k)

/-- Geometry of a set at level `l`; `fuel` bounds the chain of parents. -/
def loadGeo (ls : List LevelStage) (l : Nat) : Nat → Nat → SetGeo
  | 0, _ => geo0 l
  | f + 1, k =>
    if k = 0 then geo0 l
    else match creatorOf ls k with
      | some x => let c := convDesc x.desc; (loadGeo ls l f c.inSet).derive c.sx c.sy c.sz
      | none => geo0 l

/-- CAPP of a set (R345). -/
def loadCapp (ls : List LevelStage) (k : Nat) : Nat :=
  if k = 0 then 16384 else match creatorOf ls k with | some x => (convDesc x.desc).quota * 1024 | none => 0

/-- The field at `o` of the descriptor that creates a set; none of set 0. -/
def creatorField (ls : List LevelStage) (k o : Nat) : Nat :=
  if k = 0 then 0 else match creatorOf ls k with | some c => c.off + o | none => 0

/-- The highest stride field of axis `axis` (0 x, 1 y) behind the geometry of a set; `fuel` bounds the chain of parents. -/
def strideField (ls : List LevelStage) (axis : Nat) : Nat → Nat → Nat
  | 0, _ => 0
  | f + 1, k =>
    if k = 0 then 0
    else match creatorOf ls k with
      | some c => max (c.off + 8 + axis) (strideField ls axis f (convDesc c.desc).inSet)
      | none => 0

/-- The stages that stage `i` depends on, directly or through others: dependencies name lower stages only. -/
def ancestors (stages : List StageRec) (i : Nat) : List Nat :=
  (List.range i).reverse.foldl (fun acc k =>
    if (i :: acc).any (fun m => (stages.getD m {}).deps.contains k) then k :: acc else acc) []

/-- The conditions on an input set: in range, and when derived, its creator is among the stage's ancestors (R349). -/
def setFaults (p : Plan) (ls : List LevelStage) (x : LevelStage) (off k : Nat) : List (Nat × Nat) :=
  badIf off (Nat.blt 7 k) ++ (if k = 0 then [] else match creatorOf ls k with
    | some c => badIf (max off (c.off + 0xC)) (!(ancestors p.stages x.idx).contains c.idx)
    | none => badIf off true)

/-- A derived set is created once, and the quotas of a level sum to at most 32 (R334, R349). -/
def creationFaults (ls : List LevelStage) : List (Nat × Nat) :=
  let cs := creators ls
  let last := (cs.map (fun x => x.off + 0xD)).foldl max 0
  badIf last (Nat.blt 32 ((cs.map (fun x => (convDesc x.desc).quota)).foldl (· + ·) 0))
    ++ cs.flatMap (fun x => (cs.filter (fun y => y.idx != x.idx && (convDesc y.desc).outSet == (convDesc x.desc).outSet)).flatMap
        (fun y => badIf (max (x.off + 0xC) (y.off + 0xC)) true))

/-- The conditions on a tensor (R345, R346): a multiple of 64; in the Cellar CAPP × RB bytes of the feature region, else a device
address of an extent of CAPP rows per tile. An extent that a creator's OUT_QUOTA makes too long is charged to the higher of the two fields
(R853). [DEDUCED: notes/assumptions/27.md] -/
def State.tensorFaults (s : State) (p : Plan) (r : StageRec) (ls : List LevelStage) (set off place loc rb : Nat) : List (Nat × Nat) :=
  let capp := loadCapp ls set
  let far := max off (creatorField ls set 0xD)
  badIf off (loc % 64 != 0)
    ++ (if place = 0 then badIf off (capp * rb != 0 && !s.inFeature loc 1) ++ badIf far (!s.inFeature loc (capp * rb))
        else p.addrBad r off loc 1 ++ p.addrBad r far loc (capp * s.tileCount * rb))

/-! ### Sparse convolution (R348, R349, R352) -/

/-- Keff (R340). -/
def ConvDesc.keff (c : ConvDesc) : Nat :=
  if c.op = 2 then ceilDiv c.kx c.sx * ceilDiv c.ky c.sy * ceilDiv c.kz c.sz else c.taps

/-- wm of R351. -/
def ConvDesc.wm (c : ConvDesc) : Nat :=
  let cb := ceilDiv c.cin (macBlock c.prec)
  let ob := ceilDiv c.cout (if c.prec = 3 then 4 else 8)
  c.keff * cb * ob + ob + 4 + (if c.op = 1 then 2 else 0)

/-- Table 8-4. [DEDUCED: notes/assumptions/27.md] -/
def State.convFaults (s : State) (p : Plan) (ls : List LevelStage) (x : LevelStage) : List (Nat × Nat) :=
  let c := convDesc x.desc
  let b := x.off
  let r := x.stg
  let e := fmtBytes c.prec
  let eo := fmtBytes c.outFmt
  let stride := fun (o k v : Nat) => badIf (b + o) (!([1, 2, 4].contains v) || Nat.blt k v)
  let kern := fun (o v : Nat) => badIf (b + o) (v == 0 || Nat.blt 5 v)
  let parent := creatorOf ls c.inSet
  badIf b (Nat.blt 2 c.op) ++ badIf (b + 3) (!comboOk c.prec c.wfmt c.outFmt) ++ kern 4 c.kx ++ kern 5 c.ky ++ kern 6 c.kz
    ++ badIf (b + 7) (Nat.blt 1 c.act) ++ stride 8 c.kx c.sx ++ stride 9 c.ky c.sy ++ stride 0xA c.kz c.sz
    ++ badIf (b + 8) (c.op == 0 && c.sx != 1) ++ badIf (b + 9) (c.op == 0 && c.sy != 1) ++ badIf (b + 0xA) (c.op == 0 && c.sz != 1)
    ++ badIf (b + 0xA) (c.op != 0 && c.sx == 1 && c.sy == 1 && c.sz == 1)
    ++ setFaults p ls x (b + 0xB) c.inSet
    ++ (if c.op = 0 then badIf (b + 0xC) (c.outSet != c.inSet)
        else if c.op = 1 then badIf (b + 0xC) (c.outSet == 0 || Nat.blt 7 c.outSet || c.outSet == c.inSet)
        else match parent with
          | some q =>
            let d := convDesc q.desc
            badIf (max (b + 0xC) (q.off + 0xB)) (c.outSet != d.inSet) ++ badIf (max (b + 8) (q.off + 8)) (c.sx != d.sx)
              ++ badIf (max (b + 9) (q.off + 9)) (c.sy != d.sy) ++ badIf (max (b + 0xA) (q.off + 0xA)) (c.sz != d.sz)
          | none => badIf (b + 0xC) true)
    ++ badIf (b + 0xD) (if c.op = 1 then c.quota == 0 || Nat.blt 16 c.quota else c.quota != 0)
    ++ badIf (b + 0xE) (Nat.blt 1 c.inPlace) ++ badIf (b + 0xF) (Nat.blt 1 c.outPlace)
    ++ badLen (b + 0x10) 16 c.cin 1 512 ++ badIf (b + 0x10) (c.wfmt == 1 && c.cin % 2 != 0) ++ badExt (b + 0x10) (Nat.blt c.rbIn (c.cin * e))
    ++ badLen (b + 0x12) 16 c.cout 1 512 ++ badExt (b + 0x12) (Nat.blt c.rbOut (c.cout * eo))
    ++ badIf (b + 0x14) (Nat.blt c.rbIn 16 || Nat.blt 1024 c.rbIn || c.rbIn % 16 != 0)
    ++ badIf (b + 0x16) (Nat.blt c.rbOut 16 || Nat.blt 1024 c.rbOut || c.rbOut % 16 != 0)
    ++ s.tensorFaults p r ls c.inSet (b + 0x18) c.inPlace c.inLoc c.rbIn
    ++ s.tensorFaults p r ls c.outSet (b + 0x20) c.outPlace c.outLoc c.rbOut
    ++ badIf (b + 0x28) (c.wAddr % 64 != 0) ++ p.addrBad r (b + 0x28) c.wAddr c.wBytes
    ++ badIf (b + 0x30) (Nat.blt 524288 c.wBytes
        || c.wBytes != ceilDiv (c.taps * c.cout * c.cin * weightHalves (weightFmt c.prec c.wfmt)) 2 + 8 * c.cout)
    ++ badIf (b + 0x34) (leNat (x.desc.drop 0x34) != 0)

/-- The cost entry of a KIND 1 stage covers R351 (R352). -/
def State.convCost (s : State) (p : Plan) (l : Nat) (ls : List LevelStage) (x : LevelStage) : List (Nat × Nat) :=
  let c := convDesc x.desc
  let r := x.stg
  let k := s.costEntry p r l
  let o := p.costOff r l
  let num := 1000 * (c.keff * c.rbIn + c.rbOut)
  let dram := 192 * r.dramShare
  badIf o (!covers k.fix (2000 + 64 * c.wm) (loadCapp ls c.inSet * c.keff) 16) ++ badIf (o + 4) (!covers k.site 0 (256 * c.wm) r.tileSpan)
    ++ badIf (o + 0xC) (!covers k.fabFix 1000 (10 * c.wBytes) dram)
    ++ badIf (o + 0x10) (!(if (c.inPlace = 0 ∧ c.outPlace = 0) ∨ 160 * r.tileSpan ≤ dram then covers k.fabSite 0 num (16 * r.tileSpan)
        else covers k.fabSite 0 (10 * num) dram))

/-! ### BEV scatter (R356, R357) -/

/-- A device address lies in the Cellar (Table 10-2). -/
def inCellar (d : Nat) : Bool := Nat.ble 0x001000000000 d && Nat.blt d 0x001006000000

/-- Table 8-5. [DEDUCED: notes/assumptions/27.md] -/
def State.bevFaults (s : State) (p : Plan) (l : Nat) (ls : List LevelStage) (x : LevelStage) : List (Nat × Nat) :=
  let d := bevDesc x.desc
  let b := x.off
  let r := x.stg
  let g := loadGeo ls l 8 d.inSet
  let cells := d.w * d.h
  let mx := d.reduce == 0
  badIf (b + 1) (Nat.blt 3 d.fmt) ++ badIf (b + 2) (Nat.blt 2 d.reduce || (!mx && d.fmt != 0)) ++ badIf (b + 3) (Nat.blt 1 d.zmode)
    ++ setFaults p ls x b d.inSet
    ++ badIf (b + 4) (Nat.blt d.scale 2 || Nat.blt 5 d.scale) ++ badIf (max (b + 4) (strideField ls 0 8 d.inSet)) (Nat.blt (2 ^ d.scale) g.xs)
    ++ badIf (max (b + 4) (strideField ls 1 8 d.inSet)) (Nat.blt (2 ^ d.scale) g.ys)
    ++ (if d.zmode = 1 then badLen (b + 5) 8 d.slots 1 64 else badLen (b + 5) 8 d.slots 1 1)
    ++ badLen (b + 6) 16 d.c 1 512 ++ badExt (b + 6) (Nat.blt d.cell (d.c * d.slots * d.width))
    ++ badLen (b + 0xC) 16 d.w 1 1024 ++ badLen (b + 0xE) 16 d.h 1 1024
    ++ badExt (b + 0xE) (Nat.blt d.mapBytes (cells * d.cell) || Nat.blt d.scratchBytes (cells * d.scratchCell))
    ++ badIf (b + 0x10) (Nat.blt d.rbIn 16 || Nat.blt 1024 d.rbIn || d.rbIn % 16 != 0)
    ++ badIf (b + 0x12) (Nat.blt 1 d.inPlace) ++ badIf (b + 0x13) (Nat.blt 1 d.act)
    ++ badIf (b + 0x14) (Nat.blt d.cell 16 || Nat.blt 32768 d.cell || d.cell % 16 != 0)
    ++ s.tensorFaults p r ls d.inSet (b + 0x18) d.inPlace d.inLoc d.rbIn
    ++ badIf (b + 0x20) (d.map % 64 != 0) ++ p.addrBad r (b + 0x20) d.map (cells * d.cell)
    ++ (if mx then badIf (b + 0x28) (d.scratch != 0) ++ badIf (b + 0x34) (d.mult != 0) ++ badIf (b + 0x36) (d.shift != 0)
          ++ badIf (b + 0x38) (d.scratchBytes != 0)
        else badIf (b + 0x28) (d.scratch % 64 != 0) ++ p.addrBad r (b + 0x28) d.scratch (cells * d.scratchCell)
          ++ badIf (b + 0x36) (Nat.blt 46 d.shift))
    ++ badIf (b + 0x37) (fieldOf x.desc 0x37 1 != 0) ++ badIf (b + 0x3C) (fieldOf x.desc 0x3C 4 != 0)

/-- The cost entry of a KIND 2 stage covers R357. -/
def State.bevCost (s : State) (p : Plan) (l : Nat) (x : LevelStage) : List (Nat × Nat) :=
  let d := bevDesc x.desc
  let r := x.stg
  let k := s.costEntry p r l
  let o := p.costOff r l
  let n := r.tileSpan
  let cells := d.w * d.h
  let ws := ceilDiv d.c 32 + 4
  let mx := d.reduce == 0
  let bcell := if mx then d.cell else d.cell + 2 * d.scratchCell
  let bsite := if mx then d.rbIn + 2 * d.c * d.width else d.rbIn + 8 * d.c
  let near := inCellar d.map && (mx || inCellar d.scratch)
  let dram := 192 * r.dramShare
  let fast := near || Nat.ble (640 * n) dram
  badIf o (!covers k.fix (2000 + 64 * ws) (cells * ceilDiv d.cell 64) n) ++ badIf (o + 4) (!covers k.site 0 (256 * ws) n)
    ++ badIf (o + 0xC) (!(if fast then covers k.fabFix 1000 (cells * bcell) (64 * n) else covers k.fabFix 1000 (10 * cells * bcell) dram))
    ++ badIf (o + 0x10) (!(if fast then covers k.fabSite 0 (1000 * bsite) (64 * n) else covers k.fabSite 0 (10000 * bsite) dram))

/-! ### Harvest descriptors (R319, R481, R852) -/

/-- T of R319 at `f` MHz, with the pay term of R481 for a stage of DRAM_SHARE `share`. -/
def hrvBound (d : HrvDesc) (f share : Nat) : Nat :=
  let rd := ceilDiv (d.rowLen * d.w) 64
  let row := if d.op = 0 then rd else if d.op = 3 then rd + 100
    else if d.op = 1 then max rd (ceilDiv (d.rowLen * 1000) f) + ceilDiv (d.k * 1000) f else 2 * rd + ceilDiv 64000 f
  let real := if d.op = 3 then min 1 d.rowLen else d.rowCount * min d.k d.rowLen
  let pay := if d.payKind = 0 then 0
    else if d.payKind = 1 then 400 + ceilDiv (real * d.payBytes) 64
    else 1000 + ceilDiv (real * 64 * ceilDiv (d.payBytes + 48) 64 * 10) (24 * share) + ceilDiv (real * d.payBytes) 16
  200 + 50 * d.rowCount + d.rowCount * row + ceilDiv d.payOff 64 + pay

/-- The address fields of a Harvest descriptor with the bytes each names. -/
def HrvDesc.extents (d : HrvDesc) : List (Nat × Nat × Nat) :=
  [(0x10, d.keyAddr, (d.rowCount - 1) * d.rowStride + d.rowLen * d.w), (0x18, d.outAddr, d.outBytes)]
    ++ (if d.payKind = 0 ∨ d.payAddr = 0 then [] else [(0x28, d.payAddr, d.payBytes)])

/-- A KIND 3 stage: its descriptor's addresses (R547, R589) and the share of a PAY_KIND 2 request (R481).
[DEDUCED: notes/assumptions/27.md] -/
def hrvStageFaults (p : Plan) (x : LevelStage) : List (Nat × Nat) :=
  let d := hrvDesc x.desc
  badIf (max (x.off + 3) (stageOff x.idx + 5)) (d.payKind == 2 && x.stg.dramShare == 0)
    ++ d.extents.flatMap (fun e => p.addrBad x.stg (x.off + e.1) e.2.1 e.2.2)

/-! ### Tile programs (R383 to R392) -/

/-- A format of vector operands and storage (Table 9-3). -/
def vecFormat (c : Nat) : Bool := Nat.ble c 7 && c != 4

/-- An operand of an op: the byte offset its extent's conditions are charged to in the record, the offset of its address field, the
field, its item stride, and the bytes it touches. -/
structure Extent where
  at_ : Nat
  fieldOff : Nat
  field : Nat
  stride : Nat
  bytes : Nat
  deriving DecidableEq, Repr

/-- The bytes of `rows` rows at a stride, the last of `w` bytes. -/
def rowsBytes (rows stride w : Nat) : Nat := if rows = 0 ∨ w = 0 then 0 else (rows - 1) * stride + w

/-- The bytes of weights and epilogue of a MATMUL or DCONV. -/
def TileOp.weightBytes (o : TileOp) : Nat :=
  let wh := weightHalves (weightFmt o.fa o.fb)
  if o.opc = 1 then ceilDiv (o.n * o.k * wh) 2 + 8 * o.n else ceilDiv (o.n * o.kh * o.kw * o.k * wh) 2 + 8 * o.n

/-- The operands of an op (Table 9-6, R391). [DEDUCED: notes/assumptions/27.md] -/
def TileOp.extents (o : TileOp) : List Extent :=
  let ea := fmtBytes o.fa
  let eb := fmtBytes o.fb
  let ed := fmtBytes o.fd
  let a := fun (c n : Nat) => (⟨max c 0x30, 8, o.a, o.isa, n⟩ : Extent)
  let b := fun (c n : Nat) => (⟨max c 0x34, 0x10, o.b, o.isb, n⟩ : Extent)
  let d := fun (c n : Nat) => (⟨max c 0x38, 0x18, o.d, o.isd, n⟩ : Extent)
  let op := o.aux % 256
  if o.opc = 1 then [a 0 (rowsBytes o.m o.lda (o.k * ea)), b 0 o.weightBytes, d 0 (rowsBytes o.m o.ldd (o.n * ed))]
  else if o.opc = 2 then
    let hi := (o.m - 1) * o.stride + o.kh
    let wi := (o.wo - 1) * o.stride + o.kw
    let none' := o.m == 0 || o.wo == 0
    [a 0x3C (if none' then 0 else rowsBytes hi o.lda (rowsBytes wi (ceilDiv (o.k * ea) 16 * 16) (o.k * ea))), b 0x3C o.weightBytes,
     d 0x3C (rowsBytes o.m o.ldd (rowsBytes o.wo (ceilDiv (o.n * ed) 16 * 16) (o.n * ed)))]
  else if o.opc = 3 then
    if op = 12 then [a 0 (rowsBytes o.m o.lda 6), b 0 6, d 0 (rowsBytes o.m o.ldd 2)]
    else [a 0 (rowsBytes o.m o.lda (o.n * ea)), d 0 (rowsBytes o.m o.ldd (o.n * ed))]
      ++ (if op ≤ 4 then [b 0 (if o.bcastB then o.n * eb else rowsBytes o.m o.lda (o.n * eb))]
          else if op = 11 then [b 0 (8 * o.n)] else [])
  else if o.opc = 4 then [a 0 (rowsBytes o.m o.lda (o.n * ea)), d 0 (rowsBytes o.m o.ldd ed)]
  else if o.opc = 5 then [a 0x3C (rowsBytes o.m o.lda o.aux), d 0x3C (rowsBytes o.m o.ldd o.aux)]
  else if o.opc = 6 then
    [a 0x3C (if o.m = 0 then 0 else o.aux), b 0 (4 * o.m), d 0x3C (rowsBytes o.m o.ldd o.aux)]
  else if o.opc = 7 then [a 0 64, b 0 64]
  else []

/-- An operand's extents over the items `0` to `last`: the form its op accepts, the feature region, the device address space, and DRAM
only with a share (R385, R391). [DEDUCED: notes/assumptions/27.md] -/
def State.extentFaults (s : State) (p : Plan) (x : LevelStage) (o : TileOp) (b last : Nat) (e : Extent) : List (Nat × Nat) :=
  let form := natBits e.field 63 62
  let far := (o.opc == 5 && e.fieldOff != 0x10) || (o.opc == 6 && e.fieldOff != 0x10) || (o.opc == 7 && e.fieldOff == 0x10)
  let span := if e.bytes = 0 then 0 else last * e.stride + e.bytes
  if form = 0 then badIf (b + e.at_) (!s.inFeature (e.field % 2 ^ 21) span)
  else if form = 1 ∧ far = true then
    let d := e.field % 2 ^ 48
    p.addrBad x.stg (b + e.at_) d span
      ++ badIf (max (b + e.fieldOff) (stageOff x.idx + 5)) (x.stg.dramShare == 0 && !(inCellar d && Nat.ble (d + span) 0x001006000000))
  else badIf (b + e.fieldOff) true

/-- The Harvest templates an op issues, over the items `0` to `last`, with the FPS_ITER each carries. -/
def State.templates (s : State) (o : TileOp) (last : Nat) : List (List Byte) :=
  (List.range (last + 1)).map (fun j =>
    let b := (s.read (operandAddr 0 o.b o.isb j) 64).bytes
    if o.itemIter then b.take 0x34 ++ leBytes 2 (j + o.aux % 2 ^ 16) ++ b.drop 0x36 else b)

/-- One op record: its fields, formats, extents and templates (R384, R391); a reserved format code or address form is rejected also in a
field that the op does not use. [DEDUCED: notes/assumptions/27.md] -/
def State.opFaults (s : State) (p : Plan) (x : LevelStage) (o : TileOp) (b last : Nat) : List (Nat × Nat) :=
  let op := o.aux % 256
  let mac := o.opc == 1 || o.opc == 2
  let tag := fun (t : Nat) => Nat.blt 63 t && t != 0xFF
  badIf b (o.opc == 0 || Nat.blt 8 o.opc)
    ++ badIf (b + 1) (Nat.blt 7 o.fa) ++ badIf (b + 2) (Nat.blt 7 o.fb) ++ badIf (b + 3) (Nat.blt 7 o.fd)
    ++ [(8, o.a), (0x10, o.b), (0x18, o.d)].flatMap (fun f => badIf (b + f.1) (Nat.ble 2 (natBits f.2 63 62)))
    ++ (if mac then badIf (b + 3) (!comboOk o.fa o.fb o.fd)
        else if o.opc = 3 then
          badIf (b + 1) (!vecFormat o.fa) ++ badIf (b + 2) (Nat.ble op 4 && !vecFormat o.fb) ++ badIf (b + 3) (!vecFormat o.fd)
            ++ badIf (b + 0x3C) (Nat.blt 12 op || (op == 11 && (o.fa != 7 || o.fd != 0)) || (op == 12 && (o.fa != 5 || o.fd != 3)))
        else if o.opc = 4 then
          badIf (b + 1) (!vecFormat o.fa) ++ badIf (b + 3) (!vecFormat o.fd) ++ badIf (b + 0x3C) (Nat.blt 2 op)
        else [])
    ++ badIf (b + 4) (tag o.dst) ++ badIf (b + 5) (tag o.src0) ++ badIf (b + 6) (tag o.src1) ++ badIf (b + 7) (Nat.blt 15 o.flags)
    ++ badIf (max (b + 7) (stageOff x.idx + 7)) (o.itemIter && x.stg.tileSpan != 1)
    ++ badIf (b + 0x20) (if o.opc = 2 then Nat.blt 1024 o.m else (mac || o.opc == 3 || o.opc == 4) && Nat.blt 65536 o.m)
    ++ badIf (b + 0x24) ((o.opc == 1 && Nat.blt 1024 o.n) || (o.opc == 2 && Nat.blt 512 o.n))
    ++ badIf (b + 0x26) ((o.opc == 1 && Nat.blt 4096 o.k) || (o.opc == 2 && Nat.blt 512 o.k))
    ++ badIf (b + (if o.opc = 2 then 0x3C else 0x26)) (mac && Nat.blt 524288 o.weightBytes)
    ++ badIf (b + 0x3C) ((o.opc == 2 && (Nat.blt 1024 o.wo || o.kh == 0 || Nat.blt 7 o.kh || o.kw == 0 || Nat.blt 7 o.kw
          || Nat.blt 1 (natBits o.aux 11 10)))
        || ((o.opc == 5 || o.opc == 6) && Nat.blt 1048576 o.aux))
    ++ o.extents.flatMap (s.extentFaults p x o b last)
    ++ (if o.opc = 7 then (s.templates o last).flatMap (fun t =>
          let d := hrvDesc t
          badIf (b + 0x10) ((hrvFault t).isSome) ++ badIf (max (b + 0x10) (stageOff x.idx + 5)) (d.payKind == 2 && x.stg.dramShare == 0)
            ++ d.extents.flatMap (fun e => p.addrBad x.stg (b + 0x10) e.2.1 e.2.2))
        else [])

/-- The op records of a program. -/
def State.progOps (s : State) (p : Plan) (x : LevelStage) : List (Nat × TileOp) :=
  let q := tileProg x.desc
  (List.range q.opCount).map (fun i =>
    let b := p.hdr.progOff + q.opsOff + 64 * i
    (b, tileOp (s.read (p.addr + b) 64).bytes))

/-- The descriptor of a tile program (Table 9-4). -/
def progShape (p : Plan) (x : LevelStage) : List (Nat × Nat) :=
  let q := tileProg x.desc
  let b := x.off
  badIf b (q.opCount == 0 || Nat.blt 1024 q.opCount) ++ badIf (b + 2) (Nat.ble q.opCount q.proCount)
    ++ badIf (b + 4) (q.items == 0 || Nat.blt 1048576 q.items)
    ++ badIf (b + 8) (q.opsOff % 64 != 0 || Nat.blt p.hdr.progSize (q.opsOff + 64 * q.opCount)) ++ badIf (b + 0xC) (leNat (x.desc.drop 0xC) != 0)

/-- The ops of a tile program (R391). [DEDUCED: notes/assumptions/27.md] -/
def State.progOpFaults (s : State) (p : Plan) (x : LevelStage) : List (Nat × Nat) :=
  let q := tileProg x.desc
  let ops := s.progOps p x
  let last := fun (i : Nat) => if i < q.proCount then 0 else q.items - 1
  ((List.range ops.length).zip ops).flatMap (fun y => s.opFaults p x y.2.2 y.2.1 (last y.1))

/-- A tile program: its descriptor, its ops, and the bound of R392 at level `l`. -/
def State.progFaults (s : State) (p : Plan) (l : Nat) (x : LevelStage) : List (Nat × Nat) :=
  let q := tileProg x.desc
  let ops := s.progOps p x
  let last := fun (i : Nat) => if i < q.proCount then 0 else q.items - 1
  let tmax := (((List.range ops.length).zip ops).flatMap (fun y =>
    if y.2.2.opc = 7 then (s.templates y.2.2 (last y.1)).map (fun t => hrvBound (hrvDesc t) p.hdr.floorMhz x.stg.dramShare) else [])).foldl max 0
  let bound := fun (y : Nat × TileOp) => opBound y.2 x.stg.dramShare x.stg.tileSpan tmax
  let pro := ((ops.take q.proCount).map bound).foldl (· + ·) 0
  let ic := ((ops.drop q.proCount).map bound).foldl (· + ·) 0
  progShape p x ++ s.progOpFaults p x
    ++ badIf (p.costOff x.stg l) (Nat.blt (s.costEntry p x.stg l).fix (2000 + pro + ic * (ceilDiv q.items x.stg.tileSpan + 1)))

/-! ### ETU jobs (R470, R479, R480) -/

/-- milk of R479 for a DRAM_SHARE of `share`. -/
def EtuDesc.milk (d : EtuDesc) (share : Nat) : Nat :=
  let n := d.idxCount
  let b := d.bagCount
  let row := 64 * ceilDiv (2 * d.elems + 48) 64
  let idx := ceilDiv (4 * n) 16
  let slow := fun (x : Nat) => ceilDiv (10 * x) (24 * share)
  if d.op = 0 then 1000 + idx + slow (n * row) + ceilDiv (n * d.stride) 16
  else if d.op = 1 then
    1000 + idx + ceilDiv (4 * (b + 1)) 16 + slow ((n + b) * row) + n * ceilDiv d.elems 32 + ceilDiv (b * d.stride) 16
  else 1000 + idx + ceilDiv (n * d.stride) 16 + slow (n * 128 * ceilDiv d.elems 16)

/-- Table 11-4, and the cost entry of a KIND 4 or KIND 5 stage at level `l` (R480). [DEDUCED: notes/assumptions/27.md] -/
def State.etuFaults (s : State) (p : Plan) (l : Nat) (x : LevelStage) : List (Nat × Nat) :=
  let d := etuDesc x.desc
  let b := x.off
  let r := x.stg
  let pool := d.op == 1
  let upd := d.op == 2
  badIf b (Nat.blt 2 d.op || (r.kind == 5) != upd) ++ badIf (b + 2) (if pool then Nat.blt 2 d.mode else d.mode != 0)
    ++ badIf (b + 3) (if upd then Nat.blt 1 d.src else d.src != 0) ++ badIf (b + 6) (fieldOf x.desc 6 2 != 0)
    ++ badLen (b + 8) 32 d.idxCount 0 65536 ++ badExt (b + 8) (!pool && Nat.blt d.dataBytes (d.idxCount * d.stride))
    ++ badLen (b + 0xC) 32 d.bagCount 0 (if pool then 65536 else 0) ++ badExt (b + 0xC) (pool && Nat.blt d.dataBytes (d.bagCount * d.stride))
    ++ badIf (b + 0x10) (d.idxAddr % 4 != 0) ++ p.addrBad r (b + 0x10) d.idxAddr (4 * d.idxCount)
    ++ (if pool then badIf (b + 0x18) (d.bagAddr % 4 != 0) ++ p.addrBad r (b + 0x18) d.bagAddr (4 * (d.bagCount + 1))
        else badIf (b + 0x18) (d.bagAddr != 0))
    ++ badIf (b + 0x20) (d.dataAddr % 16 != 0) ++ p.addrBad r (b + 0x20) d.dataAddr d.dataBytes
    ++ badIf (b + 0x28) (d.stride % 16 != 0 || Nat.blt d.stride ((if upd && d.src == 1 then 4 else 2) * d.elems))
    ++ badIf (b + 0x30) (leNat (x.desc.drop 0x30) != 0)
    ++ badIf (p.costOff r l + 0xC) (Nat.blt (s.costEntry p r l).fabFix (d.milk r.dramShare))

/-! ### Check 6 -/

/-- The conditions on what the stages of level `l` name. [DEDUCED: notes/assumptions/26.md] -/
def State.levelFaults (s : State) (p : Plan) (l : Nat) : List (Nat × Nat) :=
  let ls := s.levelStages p l
  creationFaults ls ++ ls.flatMap (fun x =>
    let k := x.stg.kind
    if k = 0 then s.progFaults p l x
    else if k = 1 then s.convFaults p ls x ++ s.convCost p l ls x
    else if k = 2 then s.bevFaults p l ls x ++ s.bevCost p l x
    else if k = 3 then hrvStageFaults p x
    else if k = 4 ∨ k = 5 then s.etuFaults p l x
    else [])

/-- Check 6: the failed condition at the lowest byte offset (R853). The descriptors are judged where the tables that place them hold.
[DEDUCED: notes/assumptions/26.md] -/
def State.fieldFault (s : State) (p : Plan) : Option (Nat × Nat) :=
  let tables := s.hdrFaults p ++ p.numbered.flatMap (fun x => s.stageFaults p x.1 x.2) ++ s.costFaults p
  lowestBad (tables ++ (List.range 4).flatMap (s.levelFaults p))

/-! ## Loading (R130 to R135, R142, R156, R160) -/

/-- What a load answers: the code, its ERR_INFO, and the cost of check 8 once check 7 has passed. -/
structure LoadAns where
  code : Nat := 0
  info : Word := 0
  proof : Option Nat := none
  viaOverride : Bool := false
  plan : Plan := {}
  deriving DecidableEq, Repr

/-- Check 8 (R142, R740). [DEDUCED: notes/assumptions/26.md] -/
def State.budgetFault (s : State) (p : Plan) (cost : Nat) : Option Word :=
  if bitOf p.hdr.modes 0 then
    if s.coreMax < p.hdr.floorMhz then some (word (2 ^ 31 + s.coreMax))
    else if p.hdr.budgetUs * 1000 - 410000 < cost then some (word (min 0x7FFFFFFF cost))
    else none
  else none

/-- The checks of Table 3-3 in order. [DEDUCED: notes/assumptions/26.md] -/
def State.loadChecks (s : State) (addr size : Nat) : LoadAns × State :=
  match lengthCheck 32 size 64 0x1000000 (2 ^ 32) with
  | some c => ({ code := c, info := infoReg 0x54 0 }, s)
  | none =>
    let s := s.touch addr 64
    if s.readNat addr 4 ≠ 0x4C505345 ∨ s.readNat (addr + 4) 2 ≠ 1 then ({ code := 0x1010 }, s)
    else
      let h := s.planHdr addr
      let p := if Nat.blt h.totalSize (stageOff h.stageCount) then { addr := addr, hdr := h } else s.planAt addr
      match s.lengthFault p size with
      | some x => ({ code := x.2, info := infoStruct x.1 }, s)
      | none =>
        let f := s.fetch addr h.totalSize
        let s := f.2
        if !crcHolds f.1 h.crc then ({ code := 0x2010 }, s)
        else
          let listed := s.formatTested 1
          if !listed && !s.flag F.RST_STATUS_OVERRIDE then ({ code := 0x9001 }, s)
          else match s.fieldFault p with
            | some x => ({ code := x.2, info := infoStruct x.1 }, s)
            | none =>
              let c7 := s.proofCost p p.hdr.compiledTiles
              if c7 ≠ p.hdr.proofL3 then ({ code := 0x1011, info := word (min 0x7FFFFFFF c7) }, s)
              else
                let c8 := s.proofCost p s.tileCount
                match s.budgetFault p c8 with
                | some i => ({ code := 0x3002, info := i, proof := some c8 }, s)
                | none => ({ proof := some c8, viaOverride := !listed, plan := p }, s)

/-- A register of 32 bits takes a number; one that does not fit has no stated reading. [DEDUCED: notes/assumptions/27.md] -/
def State.setWide (s : State) (f : Field) (n : Nat) : State :=
  if n < 2 ^ 32 then s.setFld f n else (s.setFld f (s.freeVal % 2 ^ 32)).drawFree

/-- PLAN_BUSY. -/
def State.planBusy (s : State) : State := s.error 0x010 0xA006 0

/-- The address in PLAN_ADDR. -/
def State.planAddr (s : State) : Nat := s.fld F.FRM_PLAN_ADDR_HI_ADDR * 2 ^ 32 + s.fld F.FRM_PLAN_ADDR_LO_ADDR * 64

/-- OP = LOAD (R130, R21, R156). [DEDUCED: notes/assumptions/28.md] -/
def State.planLoad (s : State) (b : Nat) : State :=
  if s.fuses.failed then ((s.emptySlot b).setFld F.FRM_PLAN_RESULT_CODE 0x6020).error 0x010 0x6020 0
  else
    let a := s.planAddr
    let n := s.fld F.FRM_PLAN_SIZE
    let s := ((s.emptySlot b).setFld (planSlotState b) 1).setFld F.FRM_PLAN_STATUS_LOAD_BUSY 1
    let s := s.setFld F.FRM_PLAN_STATUS_SWITCH_PENDING 0
    s.updFrm (fun f => { f with loadSlot := b, loadAddr := a, loadSize := n })

/-- PLAN_LOAD_DONE (R131). -/
def State.planLoadDone (s : State) : State :=
  if s.flag F.FRM_PLAN_STATUS_LOAD_BUSY then
    let b := s.frm.loadSlot
    let q := s.loadChecks s.frm.loadAddr s.frm.loadSize
    let x := q.1
    let s := (q.2.setFld F.FRM_PLAN_STATUS_LOAD_BUSY 0).setFld F.FRM_PLAN_RESULT_CODE x.code
    let s := match x.proof with | some n => s.setWide F.FRM_PROOF_NS_COST n | none => s
    let s := if x.code = 0 then
        (s.setSlot b 2 x.plan).updRst (fun r => { r with viaOverride := putBit r.viaOverride b x.viaOverride })
      else (s.emptySlot b).error 0x010 x.code x.info
    s.event 0x010 3
  else s

/-- The other slot becomes active; cur and the streak restart (R153). [DEDUCED: notes/assumptions/28.md] -/
def State.applySwitch (s : State) : State :=
  let s := (s.setFld F.FRM_PLAN_STATUS_ACTIVE_SLOT (1 - s.fld F.FRM_PLAN_STATUS_ACTIVE_SLOT)).setFld F.FRM_PLAN_STATUS_SWITCH_PENDING 0
  (s.updFrm (fun f => { f with cur := 0, streak := 0 })).showPlan

/-- OP = SWITCH (R134): it is pending until a frame takes it, with the cycle of its write. A second SWITCH while one is pending restarts the
wait from its own write, so a frame whose tick lies between keeps the old plan; the spec does not say.
[DEDUCED: notes/assumptions/28.md; DESIGN CHOICE: notes/assumptions/28.md] -/
def State.planSwitch (s : State) : State :=
  let o := 1 - s.fld F.FRM_PLAN_STATUS_ACTIVE_SLOT
  if s.fld (planSlotState o) ≠ 2 ∨ (s.paced = true ∧ (s.planOf o).hdr.periodUs ≠ s.activePlan.hdr.periodUs) then s.error 0x010 0x1012 0
  else (s.setFld F.FRM_PLAN_STATUS_SWITCH_PENDING 1).updFrm (fun f => { f with switchAt := s.cycles })

/-- OP = UNLOAD (R135): any slot but the active one; a load that fills it ends without a result. [DEDUCED: notes/assumptions/28.md] -/
def State.planUnload (s : State) (b : Nat) : State :=
  let s := if s.fld (planSlotState b) = 1 then s.setFld F.FRM_PLAN_STATUS_LOAD_BUSY 0 else s
  (s.emptySlot b).setFld F.FRM_PLAN_STATUS_SWITCH_PENDING 0

/-- A write of PLAN_CTL is discarded with PLAN_BUSY (R130, R135). -/
def State.planBarred (s : State) (v : Word) : Bool :=
  let b := getBits v 0 0
  let active := b == s.fld F.FRM_PLAN_STATUS_ACTIVE_SLOT
  (getBits v 2 1 == 1 && (s.flag F.FRM_PLAN_STATUS_LOAD_BUSY || (active && s.pstate 0x010 != St.idle))) || (getBits v 2 1 == 3 && active)

/-- PLAN_CTL takes effect (Table 3-15). -/
def State.planCtl (s : State) (v : Word) : State :=
  let b := getBits v 0 0
  let op := getBits v 2 1
  if op = 1 then s.planLoad b else if op = 2 then s.planSwitch else if op = 3 then s.planUnload b else s

/-- A write of PLAN_CTL by `w`. -/
def State.writePlanCtl (s : State) (w : Nat) (v : Word) : State :=
  s.onWrite 0x010 0x58 w v (fun s => if s.planBarred v then s.planBusy else (s.planCtl v).wrote 0x010 w)

/-- The CRC of a loaded slot no longer holds over its DRAM extent (R160, R854). [DEDUCED: notes/assumptions/28.md] -/
def State.planCorrupt (s : State) (b : Nat) : Bool × State :=
  let p := s.planOf b
  let f := s.fetch p.addr p.hdr.totalSize
  (!crcHolds f.1 p.hdr.crc, f.2)

end Sys2Proof.Machine
end

