-- ==== Sys2Proof/Machine/Frame.lean ====
section
/-! DEFINITION. The Frame Scheduler: start and stop, ticks, time discipline, the frame phases, admission, stage dispatch and
publication (spec/01_one_frame.md; spec/03_frame_tick_espalier.md; spec/09_scion_tiles.md, R376 to R382; spec/13, R588 to
R593). -/

namespace Sys2Proof.Machine

/-! ## Start (R114, R115, R404) -/

/-- A GPIO carries a function (Table 20-6); the lowest. -/
def State.gpioWith (s : State) (func : Nat) : Option Nat := (List.range 16).find? (fun g => s.gpioFunc g == func)

/-- The boundary-scan register controls the GPIOs: EXTEST, CLAMP or HIGHZ is selected at level FULL while the Frame Scheduler is not
RUNNING (R680, R819). [DEDUCED: notes/assumptions/21.md] -/
def State.scanControls (s : State) : Bool := s.gpio.scan && s.fld F.RST_DBG_STATUS_LEVEL == 3 && s.pstate 0x010 != St.running

/-- A pin carries a function, and the function sees its edges (R819). -/
def State.pinSees (s : State) (func : Nat) : Bool := (s.gpioWith func).isSome && !s.scanControls

/-- SEP_DRAM as written. [DEDUCED: notes/assumptions/23.md] -/
def State.sepRegion (s : State) : Nat := s.fld F.SEP_DRAM_HI_ADDR * 2 ^ 32 + s.fld F.SEP_DRAM_LO_ADDR * 2 ^ 26

/-- A redundant pair that START refuses (R767): pair `m`, with its mode of Table 18-3. [DEDUCED: notes/assumptions/23.md] -/
def State.pairBad (s : State) (m : Nat) : Bool :=
  let mode := natBits (s.fld F.PSV_SAF_REDUND_PAIRS) (2 * m + 1) (2 * m)
  let a := 2 * m
  let b := 2 * m + 1
  let sel := fun (l : Nat) => s.fld (F.SLK_LANE_CFG_INPUT_SEL l)
  mode != 0 && (s.fld (F.SLK_LANE_CFG_MODE a) != s.fld (F.SLK_LANE_CFG_MODE b) || s.fld (F.SLK_LANE_CFG_MODE a) == 0
    || s.fld (F.SLK_LANE_CFG_RING a) != s.fld (F.SLK_LANE_CFG_RING b) || sel a != 0 || sel b != (if mode == 1 then 1 else 0))

/-- What START of a loaded plan is refused for, as (page, code, ERR_INFO): the first of the checks of R119, R259, R272, R410, R455,
R737, R765, R767, R807 and of the plan's MODES. [DEDUCED: notes/assumptions/23.md] -/
def State.startFault (s : State) : Option (Nat × Nat × Word) :=
  let locked := !s.flag F.FRM_MODE
  let src := s.flag F.FRM_MODE_TICK_SOURCE
  let sout := s.flag F.FRM_MODE_SYNC_OUT
  let h := s.activePlan.hdr
  let q := s.floorMhz
  if !bitOf h.modes (b2n (!locked)) then some (0x010, Err.fieldRange, infoReg 0x40 0)
  else if locked && !src && Nat.ble (1000 * h.periodUs) (s.fld F.FRM_TICK_PHASE_NS_PHASE) then some (0x010, Err.fieldRange, infoReg 0x44 0)
  else if locked && ((src && sout) || ((src || sout) && (s.gpioWith 1).isNone)) then some (0x010, Err.fieldRange, infoReg 0x40 1)
  else if !(s.page 0x040).enable then some (0x040, Err.fieldRange, infoReg 0x08 0)
  else if Nat.blt s.dramTop (s.sepRegion + 0x20000000) then some (0x040, Err.fieldRange, infoReg (R.SEP_DRAM_LO % 0x1000) 26)
  else if locked && (List.range 8).any (fun c => s.rateOf c != 3) then some (0x010, 0x1013, 0)
  else if s.mem.failed.any (fun c => (s.page (0x0C0 + 2 * c)).cond.fault) then some (0x010, 0x5018, 0)
  else if locked && Nat.blt (s.fld (F.RST_VMON_MV 0)) (s.vreq q) then
    some (0x010, 0x602C, word (s.fld (F.RST_VMON_MV 0) * 2 ^ 16 + s.vreq q))
  else if s.fld F.FRM_MODE_OVERRUN_POLICY == 1 && Nat.blt (s.fld F.PSV_SAF_WD_WD_TICKS) 3 then
    some (0x010, Err.fieldRange, infoReg 0x40 4)
  else match (List.range 4).find? s.pairBad with
    | some m => some (0x160, Err.fieldRange, infoReg 0x48 (2 * m))
    | none => none

/-- ENABLE := 1 on every present tile (R404). -/
def State.enableTiles (s : State) : State :=
  s.enabledTiles.foldl (fun (s : State) n =>
    (s.updPage (tilePage n) (fun h => { h with enable := true })).updCond (tilePage n) (fun c => { c with off := false })) s

/-- What START samples (R114, R258, R764, R776), with the watchdog and the streak restarted. A START written in the cycle of an exact
multiple of the period makes no tick for that instant; the spec does not say. [DESIGN CHOICE: notes/assumptions/24.md] -/
def State.startSample (s : State) : State :=
  let m := s.cell R.FRM_MODE
  let ph := s.fld F.FRM_TICK_PHASE_NS_PHASE
  let s := s.updFrm (fun f => { f with
    freeRun := getBits m 0 0 == 1, extTick := getBits m 1 1 == 1, syncOut := getBits m 3 3 == 1, policy := getBits m 5 4, phaseNs := ph
    beforeTick0 := true, testDoneInFrame := false, testAfterPub := false, ticks := 0, flywheels := 0, syncLost := false, tickHist := []
    drainOpen := false, cur := 0, streak := 0
    lastTickTs := s.timebase, lastTickAt := s.cycles })
  let s := s.sepSample
  let s := s.updSaf (fun x => { x with wdTicks := s.fld F.PSV_SAF_WD_WD_TICKS, wdSlackUs := s.fld F.PSV_SAF_WD_WD_SLACK_US, wdAt := none })
  (s.setFld F.SAF_WD_STATUS_TICKS 0).setFld F.SAF_REDUND_STATUS_PAIRS (s.fld F.PSV_SAF_REDUND_PAIRS)

/-- The shared resources of a run (Table 20-5). -/
def State.runResources (s : State) : List Nat :=
  [0x3000, 0x3001]
    ++ (if s.frm.freeRun then []
        else (if s.frm.extTick then [] else [0x2000])
          ++ (if s.frm.extTick || s.frm.syncOut then (match s.gpioWith 1 with | some g => [pinRes g] | none => []) else []))

/-- The pair of images is not tested, and no override is in force (R676, R673). -/
def State.untested (s : State) : Bool := s.romRecovery || (!s.flag F.RST_STATUS_VERSION_OK && !s.flag F.RST_STATUS_OVERRIDE)

/-- START is the whole of the write, and it is discarded or refused (R115, R93, R676, R737, R799 and what `startFault` names). -/
def State.startBarred (s : State) (v : Word) : Bool :=
  getBits v 1 0 == 1 && (s.untested || s.pstate 0x010 != St.idle || s.saf.releasedAt == some s.cycles || !s.activeLoaded
    || (s.lockStops 0x010 && !s.flag F.FRM_MODE) || s.setCoreMax.startFault.isSome)

/-- START takes effect (R115); in the AON cycle of a release of the safe state it is discarded (R799). [DEDUCED: notes/assumptions/23.md] -/
def State.frmStart (s : State) : State :=
  if s.untested then s.error 0x010 0x9001 0
  else if s.pstate 0x010 ≠ St.idle ∨ s.saf.releasedAt = some s.cycles then s
  else if s.lockStops 0x010 && !s.flag F.FRM_MODE then s
  else if !s.activeLoaded then s.error 0x010 Err.fieldRange (infoReg 0x48 0)
  else
    let s := s.setCoreMax
    match s.startFault with
    | some x => s.error x.1 x.2.1 x.2.2
    | none =>
      let s := s.startSample.enableTiles
      s.acquire 0x010 s.runResources (if s.frm.freeRun then St.armed else St.running)

/-! ## Stop (R71, R116) -/

/-- The Frame Scheduler has nothing left to do: it reads IDLE, or OFF when ENABLE is 0, and gives up its resources. -/
def State.frmRest (s : State) : State :=
  let off := !(s.page 0x010).enable
  ((s.updCond 0x010 (fun c => { c with draining := false, running := false, armed := false, off := off })).release 0x010)

/-- The Frame Scheduler drains: the frame in ingest is discarded and those in compute are published (R116).
[DEDUCED: notes/assumptions/29.md] -/
def State.frmDrain (s : State) : State :=
  let s := match s.frm.ingest with | some f => s.endWaiters f.num 0x3008 false | none => s
  let s := s.dropIngest
  let s := s.updFrm (fun f => { f with drainOpen := f.drainOpen && f.compute.isSome })
  let s := { s with waiters := s.waiters.filter (fun x => x.page != 0x010) }
  let s := s.updCond 0x010 (fun c => { c with running := false, armed := false, waiting := false, draining := true })
  if s.frm.compute.isSome || s.frm.closing.isSome then s else s.frmRest

/-- The frames of a run that is cut short end: WAIT_FRAME jobs and frame jobs with `code`, those that wait for the frame in ingest as R116
ends them. -/
def State.dropFrames (s : State) (code : Nat) : State :=
  let s := match s.frm.closing with | some f => s.endWaiters f.num code true | none => s
  let s := match s.frm.ingest with | some f => s.endWaiters f.num 0x3008 false | none => s
  ((s.dropCompute code).dropClosing).dropIngest

/-- ENABLE = 0 takes a Frame Scheduler that waits for a resource straight to OFF (R71); the code its jobs end with is not stated.
[DESIGN CHOICE: notes/assumptions/18.md] -/
def State.frmCut (s : State) : State :=
  let s := { s with waiters := s.waiters.filter (fun x => x.page != 0x010) }
  (((s.dropFrames (s.freeVal % 65536)).drawFree).updCond 0x010 (fun c => { c with waiting := false })).frmRest

/-- STOP takes effect (R116). -/
def State.frmStop (s : State) : State :=
  let c := (s.page 0x010).cond
  if (c.running || c.armed) && !c.safe && !c.fault then s.frmDrain else s

/-- FRM_CTL takes effect. With START and STOP both 1 the spec gives no order: STOP is judged first.
[DESIGN CHOICE: notes/assumptions/18.md] -/
def State.frmCtl (s : State) (v : Word) : State :=
  let s := if getBits v 1 1 = 1 then s.frmStop else s
  if getBits v 0 0 = 1 then s.frmStart else s

/-- A write of FRM_CTL by `w`. -/
def State.writeFrmCtl (s : State) (w : Nat) (v : Word) : State :=
  s.onWrite 0x010 0x48 w v (fun s => if s.startBarred v then s.frmCtl v else (s.frmCtl v).wrote 0x010 w)

/-! ## Admission (R139, R144 to R149, R734) -/

/-- S of a level, and the count of the coarser binned level when the level is thinned (R145). -/
def State.sitesAt (s : State) (f : Frame) (l : Nat) : Nat × Option Nat :=
  let sc := s.bankSites f.coarseBank
  if l ≤ f.binFine then (s.bankSites f.fineBank, none)
  else if l = f.binFine + 1 then (sc, none)
  else (if l = 3 then min sc 262144 else sc, some sc)

/-- cost(L) of a frame at the CORE frequency in force (R25, R139). -/
def State.costAt (s : State) (f : Frame) (l : Nat) : Nat :=
  let q := s.sitesAt f l
  s.costOf f.plan s.tileCount (s.fld F.GLB_CLOCK_STATUS_CORE_MHZ) l q.1 f.points q.2

/-- rem of a plan (R144). [DEDUCED: notes/assumptions/31.md] -/
def Plan.rem (p : Plan) : Nat := p.hdr.budgetUs * 1000 - 410000

/-- A level a frame may be admitted at: in LEVELS, no finer than the finer binned level, which it is not when that level's bank
overflowed (R288). [DEDUCED: notes/assumptions/31.md] -/
def Frame.mayTake (f : Frame) (l : Nat) : Bool :=
  bitOf f.plan.hdr.levels l && Nat.ble f.binFine l && !(f.fineOvf && l == f.binFine)

/-- The loop of R146 from level `l`: the first level that fits, or L3. -/
def firstFit (fits : Nat → Bool) : Nat → Nat → Nat
  | 0, _ => 3
  | n + 1, l => if l < 3 ∧ fits l = false then firstFit fits n (l + 1) else l

/-- The level and the streak R146 gives; CORE stopped prices nothing, so that no level fits. [DEDUCED: notes/assumptions/31.md] -/
def State.chooseLevel (s : State) (f : Frame) : Nat × Nat :=
  let cap := s.levelCap
  let cur := s.frm.cur
  let rem := f.plan.rem
  let stopped := s.fld F.GLB_CLOCK_STATUS_CORE_MHZ == 0
  let can := fun (l : Nat) => f.mayTake l && Nat.ble cap l
  let finerOf := fun (p : Nat → Bool) => ((List.range cur).reverse).find? p
  let start := max cur f.binFine
  let streak0 := match finerOf f.mayTake with | some l => if l < cap then 0 else s.frm.streak | none => s.frm.streak
  let q : Nat × Nat := match finerOf can with
    | some l =>
      let k := if !stopped && Nat.ble (s.costAt f l * 10) (rem * 9) then streak0 + 1 else 0
      if k = 3 then (l, 0) else (start, k)
    | none => (start, streak0)
  let l := firstFit (fun l => can l && !stopped && Nat.ble (s.costAt f l) rem) 4 q.1
  (l, if cur < l then 0 else q.2)

/-- The level of a FREE_RUN frame (R148). [DEDUCED: notes/assumptions/31.md] -/
def Frame.freeLevel (f : Frame) : Nat :=
  if f.jobLevel ≤ 3 then
    let l := max f.jobLevel f.binFine
    if f.fineOvf ∧ l = f.binFine then l + 1 else l
  else ((List.range 4).find? f.mayTake).getD (f.binFine + 1)

/-- The registers of R149. [DEDUCED: notes/assumptions/31.md] -/
def State.admitRegs (s : State) (f : Frame) (l streak : Nat) (coarsened : Bool) : State :=
  let s := s.setCell R.FRM_ADMIT 0
  let s := (s.setFld F.FRM_ADMIT_LEVEL l).setFld F.FRM_ADMIT_BIN_FINE f.binFine
  let s := (s.setFld F.FRM_ADMIT_STREAK streak).setFld F.FRM_ADMIT_THINNED (b2n (Nat.blt (f.binFine + 1) l))
  let s := (s.setFld F.FRM_ADMIT_COARSENED (b2n coarsened)).setFld F.FRM_ADMIT_SITES (s.sitesAt f l).1
  let s := if s.fld F.GLB_CLOCK_STATUS_CORE_MHZ = 0 then (s.setFld F.FRM_ADMIT_COST_NS_COST (s.freeVal % 2 ^ 32)).drawFree
    else s.setWide F.FRM_ADMIT_COST_NS_COST (s.costAt f l)
  s.setWide F.FRM_ADMIT_REMAIN_NS_REM f.plan.rem

/-- A pending SWITCH takes effect at the admission of frame `f`: its tick does not come before the write (R134, R153). -/
def State.switchDue (s : State) (f : Frame) : Bool :=
  s.flag F.FRM_PLAN_STATUS_SWITCH_PENDING && !f.freeRun && Nat.ble s.frm.switchAt f.tickAt

/-- Admission of the frame in compute, once, when its binning is complete (R33): a pending SWITCH first (R134), the level, the
registers, the stages that the level excludes (R379). COARSENED compares with cur, which a SWITCH has just restarted at L0; Table 3-20
speaks of the previous frame's level and not of a SWITCH (DESIGN CHOICE: notes/assumptions/31.md). [DEDUCED: notes/assumptions/31.md] -/
def State.admitFrame (s : State) : State :=
  match s.frm.compute with
  | none => s
  | some f0 =>
    let s := if s.switchDue f0 then s.applySwitch else s
    let f := { f0 with plan := s.activePlan, slot := s.fld F.FRM_PLAN_STATUS_ACTIVE_SLOT }
    let q := if f.freeRun then (f.freeLevel, s.frm.streak) else s.chooseLevel f
    let l := q.1
    let coarsened := Nat.blt s.frm.cur l
    let thinned := Nat.blt (f.binFine + 1) l
    let s := s.admitRegs f l q.2 coarsened
    let s := s.updFrm (fun r => { r with cur := l, streak := q.2 })
    let f := { f with admitted := true, level := l, thinned := thinned, coarsened := coarsened }
    let s := s.updFrm (fun r => { r with compute := some f })
    let s := if thinned then (match f.fineBank with | some b => s.setBank b { s.bank b with use := 2 } | none => s) else s
    let s := (f.plan.numbered.filter (fun x => !bitOf x.2.levels l)).foldl (fun (s : State) x => s.outBit f.set 0x880 x.1) s
    (s.event 0x010 1).statusFollowers f.num

/-! ## The compute phase (R36 to R39, R580, R591) -/

/-- WAIT_FRAME jobs meet frame `n` as it enters compute (R580): those it names follow it, those it has passed end. -/
def State.meetWaiters (s : State) (n : Nat) : State :=
  let l := s.allJobs.filter (fun x => x.2.2.opc == 5 && !x.2.2.follows && x.2.2.phase != 0)
  l.foldl (fun (s : State) x =>
    let j := x.2.2
    if j.waitNext || j.frame == n then s.setJob x.1 x.2.1 (some { j with frame := n, follows := true, phase := 2 })
    else if Nat.blt (2 ^ 31) ((j.frame + 2 ^ 32 - n) % 2 ^ 32) then s.jobDone x.1 x.2.1 j 0x3008 0
    else s) s

/-- Frame `f` enters compute with the set that the published frame does not hold (R39); while none is in publish, the spec does not say
which: either. [DESIGN CHOICE: notes/assumptions/29.md] -/
def State.enterCompute (s : State) (f : Frame) : State :=
  let q : Nat × State := match s.frm.publish with
    | some g => (1 - g.set, s)
    | none => (s.freeVal % 2, s.drawFree)
  let s := q.2
  let f := { f with set := q.1, plan := s.activePlan, slot := s.fld F.FRM_PLAN_STATUS_ACTIVE_SLOT }
  let s := s.updFrm (fun r => { r with compute := some f, lastCompute := f.num, running := [] })
  let s := s.setFld F.FRM_FRAME_NUMBER_FRAME f.num
  let s := s.writeOut (resultAddr f.set 0x880) (List.replicate 256 0)
  let s := (s.freeSets.noSets).setFld F.SCV_FRAME_FLAGS_SET_OVF 0
  let s := (s.updScv (fun v => { v with aborted := false })).meetWaiters f.num
  let s := s.statusFollowers f.num
  if f.frozen then (s.writeOut (resultAddr f.set 0x40) (s.recordBytes f)).admitFrame else s

/-! ## Ticks (R119 to R123, R150, R158) -/

/-- The number the next frame consumes (R28). [DEDUCED: notes/assumptions/29.md] -/
def State.nextNum (s : State) : Nat := if s.frm.consumed then (s.frm.lastNum + 1) % 2 ^ 32 else 1

/-- The ingest of the next frame opens; its number is consumed (R28). [DEDUCED: notes/assumptions/29.md] -/
def State.openIngest (s : State) : State :=
  let n := s.nextNum
  let r := s.sepOpen { num := n, openTs := s.timebase, targetTs := s.timebase + 1000 * s.fld F.FRM_PERIOD_US_PERIOD }
  let s := r.2.updFrm (fun q => { q with ingest := some r.1, lastNum := n, consumed := true })
  if r.1.sepOff then s else s.openBanks n

/-- A stage's work stops, its tiles are given back, and what its unit was doing is dropped (R322, R359, R402, R504). -/
def State.stopStage (s : State) (r : RunStage) : State :=
  if r.kind = 0 then (s.stopTiles r).endHarvest 0x3001
  else if r.kind = 2 then s.stopBev r
  else if r.kind = 3 then s.endHarvest 0x3001
  else if r.kind = 4 ∨ r.kind = 5 then s.stopEtuJob r 0x3001
  else s

/-- Every item of a program has ended, or dealing has stopped and no tile runs one (R388, R402, R403). -/
def State.tilesDone (s : State) (r : RunStage) : Bool :=
  let p := s.progOf r
  (r.stopped || Nat.ble p.items r.dealt)
    && r.tiles.all (fun t => (s.tile t).item == 0 && (s.tile t).inflight.isEmpty && !s.awaits (.tile t))

/-- The parts of a stage have all completed and its writes are visible (R381). -/
def State.stageFinished (s : State) (r : RunStage) : Bool :=
  if r.kind = 0 then s.tilesDone r else r.unitDone && !s.awaits (.stage r.stage)

/-- The code a stage completes with (R381): the first that one of its parts reported, else that of a write to another node. -/
def State.stageResult (s : State) (r : RunStage) : Nat :=
  if r.code ≠ 0 then r.code else s.answerCode (.stage r.stage)

/-- The running stages of a frame that is cut end: those that have finished as they are, the others with TICK_OVERRUN (R150).
[DEDUCED: notes/assumptions/33.md] -/
def State.cutStages (s : State) : State :=
  s.frm.running.foldl (fun (s : State) r =>
    if s.stageFinished r then (s.endStage r (s.stageResult r)).dropAcks (.stage r.stage)
    else (s.stopStage r).endStage r 0x3001) s

/-- The frame in compute is cut (Table 3-7, TRUNCATE). [DEDUCED: notes/assumptions/33.md] -/
def State.truncate (s : State) : State :=
  match s.frm.compute with
  | none => s
  | some f =>
    if f.truncated then s
    else
      let s := (s.updFrame f.num (fun f => { f with truncated := true })).cutStages
      s.stopRemote

/-- A frame that a tick closed never enters compute (R150): its points are discarded, and the jobs that wait for it end. The spec gives
their code for SKIP_NEW; of a frame discarded for LIMITED it does not say (DESIGN CHOICE: notes/assumptions/29.md).
[DEDUCED: notes/assumptions/29.md] -/
def State.discardClosed (s : State) (f : Frame) : State :=
  ((s.freeFrameBanks f).dropPoints f.num).endWaiters f.num 0x3001 true

/-- The tick finds a frame in compute (R150): TICK_OVERRUN, then the policy of Table 3-7 for the frame `f` that the tick closes. -/
def State.overrun (s : State) (f : Frame) : State :=
  let n := match s.frm.compute with | some g => g.num | none => 0
  let s := ((s.error 0x010 0x3001 (word n)).bump F.FRM_OVERRUN_CNT).event 0x010 4
  let s := s.latch Cause.tickOverrun 0x3001
  match s.frm.compute with
  | none => s
  | some g =>
    if s.frm.policy = 1 ∧ g.overruns = 0 then
      ((s.updFrame g.num (fun g => { g with overruns := 1 })).bump F.FRM_SKIPPED_CNT).discardClosed f
    else
      let s := match s.frm.closing with | some c => s.discardClosed c | none => s
      (s.updFrm (fun r => { r with closing := some f })).truncate

/-- The frame that a tick closes goes on: into compute, or by the overrun policy; a LIMITED Frame Scheduler discards it (R155).
[DEDUCED: notes/assumptions/29.md] -/
def State.closeFrame (s : State) (f : Frame) : State :=
  let s := s.updFrm (fun r => { r with ingest := none, drainOpen := true })
  if s.pstate 0x010 = St.limited then s.discardClosed f
  else if s.frm.compute.isSome then s.overrun f
  else s.enterCompute f

/-- The frame watchdog counts a tick (R764). [DEDUCED: notes/assumptions/24.md] -/
def State.watchTick (s : State) : State :=
  let n := min 15 (s.fld F.SAF_WD_STATUS_TICKS + 1)
  let s := s.setFld F.SAF_WD_STATUS_TICKS n
  if n = s.saf.wdTicks then s.updSaf (fun x => { x with wdAt := some s.cycles }) else s

/-- TICK_TS and what else every tick does (R120, R123). -/
def State.tickNote (s : State) : State :=
  let s := (s.setFld F.FRM_TICK_TS_LO_TS (s.timebase % 2 ^ 32)).setFld F.FRM_TICK_TS_HI_TS (s.timebase / 2 ^ 32)
  let s := s.updFrm (fun f => { f with
    lastTickTs := s.timebase, lastTickAt := s.cycles, ticks := f.ticks + 1, syncHigh := f.syncOut && !f.extTick })
  (s.event 0x010 0).testAbort.testSkip

/-- The lanes' part of tick number `m` (R241). -/
def State.tickLanes (s : State) (m : Nat) : State := (List.range 8).foldl (fun (s : State) l => s.laneTick l m) s

/-- A tick (R28 to R38, R119 to R123). [DEDUCED: notes/assumptions/24.md] -/
def State.makeTick (s : State) : State :=
  let first := s.frm.beforeTick0
  let s := s.tickNote
  match s.frm.ingest with
  | none =>
    let m := (s.nextNum + 2 ^ 32 - 1) % 2 ^ 32
    let s := s.updFrm (fun f => { f with tickHist := ((m, s.timebase) :: f.tickHist).take 4 })
    ((s.openIngest.tickLanes m).wakePlanTiles)
  | some f =>
    let s := s.updFrm (fun r => { r with tickHist := ((f.num, s.timebase) :: r.tickHist).take 4 })
    let s := if first then s else s.watchTick
    let s := s.closeFrame { f with tickTs := s.timebase, tickAt := s.cycles }
    if s.saf.inSafe then s else (s.openIngest.tickLanes f.num).wakePlanTiles

/-- Ticks are made: FRAME_LOCKED, RUNNING, or LIMITED after it (R155). -/
def State.ticking (s : State) : Bool :=
  !s.frm.freeRun && (s.page 0x010).cond.running && (s.pstate 0x010 == St.running || s.pstate 0x010 == St.limited)

/-- TICK (R119): the first cycle at or beyond a multiple of the period from the phase. [DEDUCED: notes/assumptions/24.md] -/
def State.tick (s : State) : State :=
  let p := 1000 * s.fld F.FRM_PERIOD_US_PERIOD
  let k := fun (t : Nat) => (t + p - s.frm.phaseNs) / p
  if s.ticking ∧ s.frm.extTick = false ∧ p ≠ 0 ∧ k s.frm.lastTickTs < k s.timebase then s.makeTick else s

/-- Hundredths of the period since the last tick, as a comparison. -/
def State.sinceTick (s : State) : Nat := 100 * (s.cycles - s.frm.lastTickAt)

/-- FRAME_SYNC_EDGE (R121, R154, R158). [DEDUCED: notes/assumptions/24.md] -/
def State.syncEdge (s : State) : State :=
  let p := s.periodCycles
  let go := fun (s : State) => (s.updFrm (fun f => { f with flywheels := 0, syncLost := false })).makeTick
  if s.ticking ∧ s.frm.extTick = true ∧ s.pinSees 1 = true then
    if s.frm.beforeTick0 then go s
    else if s.sinceTick < 98 * p then s.bump F.FRM_SYNC_EARLY_CNT
    else if s.sinceTick ≤ 102 * p ∨ s.frm.syncLost = true then go s
    else s
  else s

/-- FLYWHEEL_TICK (R122, R158). [DEDUCED: notes/assumptions/24.md] -/
def State.flywheel (s : State) : State :=
  let p := s.periodCycles
  if s.ticking ∧ s.frm.extTick = true ∧ s.frm.beforeTick0 = false then
    if s.frm.syncLost then (if 100 * p ≤ s.sinceTick then s.makeTick else s)
    else if 102 * p ≤ s.sinceTick then
      let s := ((s.bump F.FRM_SYNC_MISSED_CNT).event 0x010 5).updFrm (fun f => { f with flywheels := f.flywheels + 1 })
      let s := if 8 ≤ s.frm.flywheels then (s.updFrm (fun f => { f with syncLost := true })).error 0x010 0x3006 0 else s
      s.makeTick
    else s
  else s

/-- SYNC_OUT_END (R120). [DEDUCED: notes/assumptions/24.md] -/
def State.syncOutEnd (s : State) : State :=
  if s.frm.lastTickAt + usCycles 10 ≤ s.cycles then s.updFrm (fun f => { f with syncHigh := false }) else s

/-! ## Time from the host (R124 to R129, R159) -/

/-- TIME_MARK (R124). [DEDUCED: notes/assumptions/25.md] -/
def State.timeMark (s : State) : State :=
  if s.pinSees 2 then
    let s := s.setFld F.FRM_MARK_SEQ (s.fld F.FRM_MARK_SEQ + 1)
    (s.setFld F.FRM_MARK_TS_LO (s.timebase % 2 ^ 32)).setFld F.FRM_MARK_TS_HI (s.timebase / 2 ^ 32)
  else s

/-- The time state changes; a change is an event (R161). -/
def State.setTimeState (s : State) (st : Nat) : State :=
  if s.fld F.FRM_TIME_STATE = st then s
  else ((s.setFld F.FRM_TIME_STATE st).updFrm (fun f => { f with sampleOk := 0 })).event 0x010 6

/-- The trim after an accepted sample (R129): `dg` and `dm` are the gPTP and TIMEBASE time between the last two samples, `e` the offset
left; within one LSB. [DEDUCED: notes/assumptions/25.md] -/
def State.setTrim (s : State) (dg dm e : Int) : State :=
  let q := if dm = 0 then s.within1 e 8 else s.within1 (8 * 1000000000 * (dg - dm) + e * dm) (8 * dm).toNat
  q.2.setSfld F.FRM_TIME_RATE_PPB (clampInt (-100000) 100000 q.1)

/-- TIMEBASE is stepped by `e` ns (R127, Table 3-2). [DEDUCED: notes/assumptions/25.md] -/
def State.stepTime (s : State) (e : Int) : State := { s with timebase := unsigned 64 ((s.timebase : Int) + e) }

/-- TIME STATE after a sample with error `e` in state `st` (R127): LOCKED after four samples in a row within 1,000 ns, ACQUIRING
again beyond 10,000 ns. [DEDUCED: notes/assumptions/25.md] -/
def State.judgeSample (s : State) (st : Nat) (e : Int) : State :=
  if st = 0 then s.setTimeState 1
  else if st = 2 then (if 10000 < e.natAbs then s.setTimeState 1 else s)
  else
    let s := s.setTimeState 1
    let k := if e.natAbs ≤ 1000 then s.frm.sampleOk + 1 else 0
    let s := s.updFrm (fun f => { f with sampleOk := k })
    if 4 ≤ k then s.setTimeState 2 else s

/-- An accepted sample takes effect (R127, R129, Table 3-2). The first accepted sample has none before it: its frequency part is 0, which the
spec does not say. [DEDUCED: notes/assumptions/25.md; DESIGN CHOICE: notes/assumptions/25.md] -/
def State.takeSample (s : State) (gptp : Nat) : State :=
  let mark : Nat := s.fld F.FRM_MARK_TS_HI * 2 ^ 32 + s.fld F.FRM_MARK_TS_LO
  let e : Int := (gptp : Int) - mark
  let st := s.fld F.FRM_TIME_STATE
  let s := s.setSfld F.FRM_TIME_OFFSET_NS (clampInt (-2147483647) 2147483647 e)
  let asks := st == 0 || (st != 2 && Nat.blt 1000000 e.natAbs)
  let step := asks && !s.framePaced
  let s := if asks && !step then s.error 0x010 0x3004 0 else s
  let dg : Int := if s.frm.sampled then (gptp : Int) - s.frm.sampleGptp else 0
  let dm : Int := if s.frm.sampled then (mark : Int) - s.frm.sampleMark else 0
  let s := s.setTrim dg (if 0 < dm then dm else 0) e
  let s := if step then s.stepTime e else s
  let s := s.updFrm (fun f => { f with
    sampleAt := s.cycles, sampleGptp := gptp, sampleMark := if step then gptp else mark, sampled := true })
  s.judgeSample st e

/-- A TIME_SAMPLE message from context `ctx` (R125, R126). [DEDUCED: notes/assumptions/25.md] -/
def State.timeSample (s : State) (ctx seq gptp : Nat) : State :=
  if ctx ≠ 0 ∨ seq ≠ s.fld F.FRM_MARK_SEQ ∨ (s.frm.sampled = true ∧ s.cycles < s.frm.sampleAt + msCycles 125) then
    s.bump F.FRM_TIME_REJECT_CNT
  else s.takeSample gptp

/-- TIME_HOLDOVER (R127, R159). [DEDUCED: notes/assumptions/25.md] -/
def State.timeHoldover (s : State) : State :=
  let st := s.fld F.FRM_TIME_STATE
  if (st = 1 ∨ st = 2) ∧ s.frm.sampleAt + msCycles 4000 ≤ s.cycles then (s.setTimeState 3).error 0x010 0x3005 0 else s

/-! ## Binning ends (R30, R32, R43) -/

/-- DRAIN_WINDOW_END (R30). -/
def State.drainWindowEnd (s : State) : State :=
  if s.frm.drainOpen ∧ s.frm.lastTickAt + drainCycles ≤ s.cycles then s.updFrm (fun f => { f with drainOpen := false }) else s

/-- The frame in compute, while its binning is not complete. -/
def State.unfrozen (s : State) : Option Frame :=
  match s.frm.compute with | some f => if f.frozen then none else some f | none => none

/-- Points of a frame that wait to be accepted or are staged. -/
def State.leftover (s : State) (f : Frame) : Nat := (s.sep.inbox.filter (fun d => d.frame == f.num)).length + f.staged.length

/-- BINNING_COMPLETE (R32, R287): the window is over and no point of the frame is left; admission follows (R33). -/
def State.binningComplete (s : State) : State :=
  match s.unfrozen with
  | some f =>
    if (f.freeRun = true ∨ s.frm.drainOpen = false) ∧ s.leftover f = 0 then (s.freezeFrame f).admitFrame else s
  | none => s

/-- SEP_CLOSE_LATE (R43): at tick + 400 µs the points left are discarded and counted; a frame that still waits for compute is frozen, and
its record written as it enters. [DEDUCED: notes/assumptions/30.md] -/
def State.sepCloseLate (s : State) : State :=
  let late := fun (f : Frame) => !f.frozen && !f.freeRun && Nat.ble (f.tickAt + usCycles 400) s.cycles
  let note := fun (s : State) (f : Frame) => s.error 0x040 0x3003 (word f.num)
  let cut := fun (s : State) (f : Frame) => ({ f with dropped := f.dropped + s.leftover f, recFlags := setBit f.recFlags 5 } : Frame)
  match s.frm.compute, s.frm.closing with
  | some f, c =>
    if late f then ((note s f).freezeFrame (cut s f)).admitFrame
    else match c with
      | some g => if late g then
          let h := { cut s g with frozen := true, staged := [], lanes := s.lanesOn }
          (((note s g).dropPoints g.num).updFrame g.num (fun _ => h)).event 0x040 0 else s
      | none => s
  | none, _ => s

/-! ## Thinning and commit (R280, R281) -/

/-- THINNING_DONE. -/
def State.thinningDone (s : State) : State :=
  match s.frm.compute with
  | some f => if f.admitted ∧ f.thinned = true ∧ f.thinDone = false then s.thin f else s
  | none => s

/-- Registers of SCV at the commit (Table 8-7): set 0 is the committed bank `b`. -/
def State.commitRegs (s : State) (f : Frame) : State :=
  let b := f.admittedBank
  let tc := s.tileCount
  let peak := match b with | some i => ((List.range 64).map (fun j => (s.bank i).inPartition tc j)).foldl max 0 | none => 0
  let s := (s.setFld F.SCV_COMMIT_FRAME f.num).setFld F.SCV_COMMIT_LEVEL f.level
  let s := match b with | some i => s.setFld F.SCV_COMMIT_BANK i | none => s
  let s := (s.setFld F.SCV_PART_PEAK peak).setFld F.SCV_SET_VALID_SETS 1
  s.setFld (F.SCV_SET_SITES 0) (s.bankSites b)

/-- DIRECTORY_COMMIT_DONE. -/
def State.directoryDone (s : State) : State :=
  match s.frm.compute with
  | some f =>
    if f.admitted ∧ f.committed = false ∧ (f.thinned = false ∨ f.thinDone = true) then (s.commit f).commitRegs f else s
  | none => s

/-! ## Stages (R140, R376 to R382) -/

/-- A stage issues Harvest requests (R380): of KIND 3, or a program with an HRV op. -/
def State.usesHrv (s : State) (r : RunStage) : Bool :=
  r.kind == 3 || (r.kind == 0 && (List.range (s.progOf r).opCount).any (fun i => (s.opAt r i).opc == 7))

/-- The run of stage `i` of frame `f` on its tiles. -/
def State.runOf (s : State) (f : Frame) (i : Nat) (r : StageRec) : RunStage :=
  { stage := i
    kind := r.kind
    tiles := s.mapping f.plan.hdr.compiledTiles r.tileFirst r.tileSpan
    share := r.dramShare
    desc := f.plan.addr + f.plan.descOff r f.level
    progBase := f.plan.addr + f.plan.hdr.progOff
    level := f.level
    output := bitOf r.flags 0
    set := f.set }

/-- A tile of a stage is gated. -/
def State.anyGated (s : State) (r : RunStage) : Bool := r.tiles.any (fun t => (s.page (tilePage t)).cond.gated)

/-- The conditions of R140, R380 and R469 but for gating, with the pauses and locks of the units a stage takes (R74, R93).
[DEDUCED: notes/assumptions/32.md] -/
def State.canReach (s : State) (r : RunStage) : Bool :=
  r.tiles.all (fun t => s.tileFree t && s.mayWork (tilePage t))
    && ((r.kind != 1 && r.kind != 2) || !(s.page 0x060).enable || s.mayWork 0x060)
    && Nat.ble (s.frm.running.foldl (fun (n : Nat) x => n + x.share) r.share) 16
    && !(s.usesHrv r && s.frm.running.any s.usesHrv)
    && !((r.kind == 4 || r.kind == 5) && Nat.ble 4 (s.frm.running.filter (fun x => x.kind == 4 || x.kind == 5)).length)

/-- A stage can start: also a queue entry is free for its request (R299). -/
def State.canStart (s : State) (r : RunStage) : Bool := s.canReach r && !(r.kind == 3 && s.hrvOn && !s.hrvRoom)

/-- A KIND 3 stage whose request finds the queue full is held, and counts once (R299). -/
def State.holdHarvest (s : State) (r : RunStage) : State :=
  if r.kind = 3 ∧ s.hrvOn = true ∧ s.hrvRoom = false ∧ s.canReach r = true ∧ s.hrv.heldStages.contains r.stage = false then
    ((s.updHrv (fun h => { h with heldStages := r.stage :: h.heldStages })).bump F.HRV_QUEUE_FULL_CNT).event 0x050 2
  else s

/-- The tiles of a stage are taken. -/
def State.holdTiles (s : State) (r : RunStage) : State :=
  r.tiles.foldl (fun (s : State) t =>
    ((s.updTile t (fun x => { x with
      heldBy := r.stage + 1, item := 0, prologueDone := false, inPrologue := false, nextOp := 0, fenced := false, inflight := [],
      freedAt := s.cycles })).setFld
        (F.TILE_STATUS_STAGE t) r.stage).updCond (tilePage t) (fun c => { c with running := true })) s

/-- OP of SCV_STATUS for a stage (Table 8-7). -/
def State.scvOp (s : State) (r : RunStage) : Nat := if r.kind = 2 then 3 else (convDesc (s.peek r.desc 64)).op

/-- A stage starts: its unit takes the work (R325, R361, R362). -/
def State.startStage (s : State) (r : RunStage) : State :=
  let s := s.updFrm (fun f => { f with running := f.running ++ [r] })
  let s := s.holdTiles r
  let fail := fun (s : State) (code : Nat) => (s.stageCode r.stage code).updRun r.stage (fun x => { x with unitDone := true })
  if r.kind = 1 ∨ r.kind = 2 then
    let s := (s.touch r.desc 64).setFld F.SCV_STATUS_STAGE r.stage
    let s := s.setFld F.SCV_STATUS_OP (s.scvOp r)
    let refuse := fun (s : State) (code : Nat) => (fail s code).updRun r.stage (fun x => { x with stopped := true })
    if !(s.page 0x060).enable then refuse s 0xA00F
    else if s.scv.aborted then refuse s 0xA00E
    else s.updCond 0x060 (fun c => { c with running := true })
  else if r.kind = 3 then
    let s := s.updHrv (fun h => { h with heldStages := h.heldStages.filter (· != r.stage) })
    let q : HrvReq := { tile := false, id := r.stage, stage := r.stage, desc := r.desc, output := r.output, set := r.set }
    if s.hrvOn then s.hrvEnqueue q else fail (s.hrvCount q 0 0xA00B) 0xA00B
  else s

/-- STAGE_DISPATCH (R140, R378): the lowest ready stage that can start does; gated tiles are asked to wake first (R394).
[DEDUCED: notes/assumptions/32.md] -/
def State.stageDispatch (s : State) : State :=
  match s.frm.compute with
  | none => s
  | some f =>
    if f.committed = false ∨ f.truncated = true then s
    else
      let l := (f.plan.numbered.filter (s.ready f)).map (fun x => s.runOf f x.1 x.2)
      let s := l.foldl (fun (s : State) r => s.holdHarvest r) s
      match l.find? (fun r => s.canStart r && !s.anyGated r) with
      | some r => s.startStage r
      | none => match l.find? s.canStart with
        | some r => r.tiles.foldl (fun (s : State) t => s.wakeTile t) s
        | none => s

/-- STAGE_COMPLETE of stage `n` (R381). [DEDUCED: notes/assumptions/32.md] -/
def State.stageComplete (s : State) (n : Nat) : State :=
  match s.runStage n with
  | some r => if s.stageFinished r then (s.endStage r (s.stageResult r)).dropAcks (.stage n) else s
  | none => s

/-! ## Publication (R35, R45, R588 to R593) -/

/-- The frame header with its CRC field 0 (Table 13-8). [DEDUCED: notes/assumptions/33.md] -/
def State.headerBytes (s : State) (f : Frame) : List Byte :=
  leBytes 4 f.num ++ leBytes 2 (s.frameFlags f) ++ leBytes 1 (if f.admitted then f.level else 0xFF) ++ leBytes 1 f.set
    ++ leBytes 8 f.tickTs ++ leBytes 8 s.timebase ++ leBytes 4 f.plan.hdr.resultBytes ++ leBytes 2 f.plan.hdr.stageCount
    ++ leBytes 2 f.validBelow ++ leBytes 2 (if f.hostFail then 0x4020 else f.errCode) ++ leBytes 2 (if f.hostFail then 0 else f.errStage)
    ++ leBytes 4 (s.fld F.FRM_ADMIT_SITES) ++ leBytes 4 (s.fld F.FRM_ADMIT_COST_NS_COST) ++ leBytes 4 f.plan.hdr.crc
    ++ leBytes 4 f.jobTag ++ leBytes 2 f.jobCtx ++ leBytes 10 0

/-- The end-to-end check of the last publication is abandoned, and that of this one begins (R766). -/
def State.e2eBegin (s : State) (n crc : Nat) : State :=
  let s := if s.saf.e2e.isSome then s.bump F.SAF_E2E_SKIP_CNT else s
  s.updSaf (fun x => if s.flag F.PSV_SAF_WD_E2E_EN then { x with e2e := some n, e2eCrc := crc } else { x with e2e := none })

/-- A frame that waits for the compute phase enters it, or is discarded while LIMITED (R155). [DEDUCED: notes/assumptions/29.md] -/
def State.settleClosing (s : State) : State :=
  match s.frm.closing with
  | some f =>
    let s := s.updFrm (fun r => { r with closing := none })
    if s.pstate 0x010 = St.limited then s.discardClosed f else s.enterCompute f
  | none => s

/-- With the compute phase empty, a drain ends, and FREE_RUN waits for its next job in ARMED (R75, R115). -/
def State.settleRest (s : State) : State :=
  if s.frm.compute.isSome then s
  else if (s.page 0x010).cond.draining then s.frmRest
  else if s.frm.freeRun then s.updCond 0x010 (fun c => { c with running := false, armed := true })
  else s

/-- What a publication settles: FAULT (R160), LIMITED (R155), slots to be emptied (R679), the frame that waits for compute, draining
(R116) and FREE_RUN (R117). -/
def State.settle (s : State) : State :=
  let due := s.frm.faultAfter.isSome
  let s := s.afterFrame
  if due then s.pageFault 0x010 0x2011 else s.settleClosing.settleRest

/-- The frame is published (R593). -/
def State.publishFrame (s : State) (f : Frame) : State :=
  let base := resultAddr f.set 0
  let s := s.writeOut base (s.headerBytes f)
  let x := s.fetch base f.plan.hdr.resultBytes
  let s := x.2
  if x.1.poison then (s.dropCompute 0x5010).settle
  else
    let crc := crc32 x.1.bytes
    let s := s.writeOut (base + 0x3C) (leBytes 4 crc)
    let s := s.doneFollowers f.num (if f.hostFail then 0x4020 else 0) crc
    let s := ((s.freeSets.noSets).freeFrameBanks f).updFrm (fun r => { r with publish := some f, compute := none, emptyAt := s.cycles, testAfterPub := true })
    let s := (s.event 0x010 2).setFld F.SAF_WD_STATUS_TICKS 0
    ((s.updSaf (fun v => { v with wdAt := none })).e2eBegin f.num crc).settle

/-- The frame's work is over: it was cut, or all its stages are complete. -/
def State.computeOver (s : State) (f : Frame) : Bool :=
  s.frm.running.isEmpty && (f.truncated || (f.committed && (List.range f.plan.stages.length).all f.stageDone))

/-- PUBLICATION (R35, R593): an injected withholding (Table 18-6) keeps a paced frame in compute. -/
def State.publication (s : State) : State :=
  match s.frm.compute with
  | none => s
  | some f =>
    if s.computeOver f = false ∨ f.doomed.isSome = true then s
    else
      let q := if f.freeRun then (false, s) else s.takeInjection 0x0B 0
      if q.1 then q.2.updFrame f.num (fun f => { f with doomed := some 0 })
      else
        let s := if f.frozen then q.2 else q.2.freezeFrame f
        match s.frm.compute with
        | some f => s.publishFrame f
        | none => s

/-- BUDGET_EXCEEDED (R157). -/
def State.budgetExceeded (s : State) : State :=
  match s.frm.compute with
  | none => s
  | some f =>
    if f.freeRun = false ∧ f.budgetExceeded = false ∧ f.tickAt + usCycles f.plan.hdr.budgetUs < s.cycles then
      ((s.updFrame f.num (fun f => { f with budgetExceeded := true })).error 0x010 0x3007 0).latch Cause.budgetExceeded 0x3007
    else s

/-- PLAN_RECHECK of slot `b` (R160): the active slot reads EMPTY at once, and its plan goes on for the frame in compute. [DEDUCED: notes/assumptions/28.md] -/
def State.planRecheck (s : State) (b : Nat) : State :=
  if s.fld (planSlotState b) = 2 then
    let q := s.planCorrupt b
    if q.1 then
      let active := b == s.fld F.FRM_PLAN_STATUS_ACTIVE_SLOT
      let s := q.2.error 0x010 0x2011 0
      if active && s.frm.compute.isSome then
        ((s.setFld (planSlotState b) 0).updRst (fun r => { r with viaOverride := clrBit r.viaOverride b })).updFrm
          (fun f => { f with faultAfter := some b })
      else if active then (s.emptySlot b).pageFault 0x010 0x2011
      else s.emptySlot b
    else q.2
  else s

/-- CORE_FREQ_CHANGE (R24, R733). [DEDUCED: notes/assumptions/35.md] -/
def State.coreFreqChange (s : State) : State := if s.coreMayChange then s.applyCore else s

/-! ## FREE_RUN (R117, R287, R579) -/

/-- A host record (Table 5-10). Its SOURCE byte is taken as given, also with bit 7 clear, which the spec leaves open
[DESIGN CHOICE: notes/assumptions/34.md]. -/
def hostRecord (b : List Byte) : PointRec :=
  let g := fieldOf b
  { x := signed 16 (g 0 2), y := signed 16 (g 2 2), z := signed 16 (g 4 2), intensity := g 6 1, pflags := g 7 1, beam := g 8 1,
    source := g 9 1, rangeOut := g 0xA 2, time := g 0xC 4 }

/-- The offset of a reserved field of a host record that is not zero (Table 5-10, R12). -/
def recordReserved (b : List Byte) : Option Nat :=
  if 8 ≤ fieldOf b 7 1 then some 7 else if natBits (fieldOf b 9 1) 6 3 ≠ 0 then some 9 else none

/-- The 16-byte records among the first `count` that have arrived whole. -/
def recordChunks (b : List Byte) (count : Nat) : List (List Byte) :=
  (List.range (min count (b.length / 16))).map (fun i => (b.drop (16 * i)).take 16)

/-- The records of a frame in their order, without those that R12 rejects. [DEDUCED: notes/assumptions/34.md] -/
def hostRecords (n start : Nat) (b : List Byte) (count : Nat) : List Delivered :=
  ((recordChunks b count).filter (fun r => (recordReserved r).isNone)).map (fun r =>
    let p := hostRecord r
    { pt := p, firing := start + p.time, frame := n })

/-- Each record with a reserved field that is not zero is rejected whole with FIELD_RANGE (R12), on the page of the Separator that takes the
records; the spec names no page. [DESIGN CHOICE: notes/assumptions/34.md] -/
def State.rejectRecords (s : State) (b : List Byte) (count : Nat) : State :=
  ((recordChunks b count).filterMap recordReserved).foldl (fun (s : State) o => s.error 0x040 Err.fieldRange (infoStruct o)) s

/-- The bytes of a FRAME job's records: `host` as the host answered, or device memory with DEV_POINTS (R579).
[DEDUCED: notes/assumptions/34.md] -/
def State.jobRecords (s : State) (ctx : Nat) (j : Job) (host : List Byte) : List Byte × State :=
  let n := 16 * fieldOf j.bytes 0xC 4
  if fieldOf j.bytes 9 1 = 1 then
    match s.window ctx (fieldOf j.bytes 0x10 8) n false with
    | some d => let r := s.fetch d n; (r.1.bytes, r.2)
    | none => ([], s)
  else (host.take n, s.hostIssue ctx (fieldOf j.bytes 0x10 8) n false)

/-- A FRAME job is accepted and its frame starts. [DEDUCED: notes/assumptions/34.md] -/
def State.startFrame (s : State) (ctx ring : Nat) (j : Job) (host : List Byte) : State :=
  let s := if s.flag F.FRM_PLAN_STATUS_SWITCH_PENDING then s.applySwitch else s
  let s := s.testAbort.testSkip.wakePlanTiles
  let r := s.jobRecords ctx j host
  let s := r.2
  let short := r.1.length < 16 * fieldOf j.bytes 0xC 4
  let n := s.nextNum
  let start := fieldOf j.bytes 0x18 8
  let q := s.sepOpen
    { num := n, freeRun := true, openTs := start, tickTs := s.timebase, tickAt := s.cycles, targetTs := fieldOf j.bytes 0x20 8,
      endTs := fieldOf j.bytes 0x20 8, jobCtx := ctx, jobTag := j.tag, jobLevel := fieldOf j.bytes 8 1, hostFail := short }
  let s := q.2.updFrm (fun f => { f with lastNum := n, consumed := true })
  let s := s.updCond 0x010 (fun c => { c with running := true, armed := false })
  let s := s.setJob ctx ring (some { j with frame := n, follows := true, phase := 2 })
  let s := s.enterCompute q.1
  let s := if q.1.sepOff then s else s.openBanks n
  let s := (s.rejectRecords r.1 (fieldOf j.bytes 0xC 4)).updSep (fun x => { x with
    inbox := x.inbox ++ hostRecords n start r.1 (fieldOf j.bytes 0xC 4) })
  if short then s.hostDmaFail ctx else s

/-- The ring whose waiting FRAME job is accepted: the first in the round robin of R575. -/
def State.nextFrameJob (s : State) : Option Nat :=
  (s.allJobs.filter (fun x => x.2.2.opc == 4 && x.2.2.phase == 1)).foldl (fun (a : Option Nat) x =>
    let k := x.1 * 2 + x.2.1
    match a with
    | some b => if (k + 8192 - s.hif.robin) % 8192 < (b + 8192 - s.hif.robin) % 8192 then some k else a
    | none => some k) none

/-- FRAME_JOB_ACCEPT (R117, R575, R579): the job that waits at the head of a ring, when it is the first in the round robin; it goes on waiting
while the Separator is PAUSED (R293). `host` are the records as the host answered.
[DEDUCED: notes/assumptions/20.md; DEDUCED: notes/assumptions/34.md] -/
def State.frameJobAccept (s : State) (ctx ring : Nat) (host : List Byte) : State :=
  match s.job ctx ring with
  | some j =>
    if j.opc = 4 ∧ j.phase = 1 ∧ s.frm.freeRun = true ∧ s.pstate 0x010 = St.armed ∧ s.frm.compute.isNone = true
        ∧ s.mayWork 0x010 = true ∧ (s.page 0x040).pausing = false ∧ s.nextFrameJob = some (ctx * 2 + ring) then s.startFrame ctx ring j host
    else s
  | none => s

/-! ## The commands -/

/-- FRM_START: FRM_CTL with START = 1 (R115). -/
def execFrmStart (dt w : Nat) (s : State) : Host.Outcome State Fault Refusal := .next ((s.arriveBy dt w).writeFrmCtl w 1)

/-- FRM_STOP: FRM_CTL with STOP = 1 (R116). -/
def execFrmStop (dt w : Nat) (s : State) : Host.Outcome State Fault Refusal := .next ((s.arriveBy dt w).writeFrmCtl w 2)

/-- PLAN_LOAD: PLAN_CTL with OP = LOAD (R130). -/
def execPlanLoad (dt w slot : Nat) (s : State) : Host.Outcome State Fault Refusal :=
  .next ((s.arriveBy dt w).writePlanCtl w (word (2 + slot % 2)))

/-- PLAN_LOAD_DONE (R131). -/
def execPlanLoadDone (dt : Nat) (s : State) : Host.Outcome State Fault Refusal := .next ((s.arrive dt).planLoadDone)

/-- PLAN_SWITCH: PLAN_CTL with OP = SWITCH (R134). -/
def execPlanSwitch (dt w : Nat) (s : State) : Host.Outcome State Fault Refusal := .next ((s.arriveBy dt w).writePlanCtl w 4)

/-- PLAN_UNLOAD: PLAN_CTL with OP = UNLOAD (R135). -/
def execPlanUnload (dt w slot : Nat) (s : State) : Host.Outcome State Fault Refusal :=
  .next ((s.arriveBy dt w).writePlanCtl w (word (6 + slot % 2)))

/-- PLAN_RECHECK (R160). -/
def execPlanRecheck (dt slot : Nat) (s : State) : Host.Outcome State Fault Refusal := .next ((s.arrive dt).planRecheck (slot % 2))

/-- TICK (R119). -/
def execTick (dt : Nat) (s : State) : Host.Outcome State Fault Refusal := .next ((s.arrive dt).tick)

/-- FRAME_SYNC_EDGE (R121). -/
def execFrameSyncEdge (dt : Nat) (s : State) : Host.Outcome State Fault Refusal := .next ((s.arrive dt).syncEdge)

/-- FLYWHEEL_TICK (R122). -/
def execFlywheelTick (dt : Nat) (s : State) : Host.Outcome State Fault Refusal := .next ((s.arrive dt).flywheel)

/-- SYNC_OUT_END (R120). -/
def execSyncOutEnd (dt : Nat) (s : State) : Host.Outcome State Fault Refusal := .next ((s.arrive dt).syncOutEnd)

/-- TIME_MARK (R124). -/
def execTimeMark (dt : Nat) (s : State) : Host.Outcome State Fault Refusal := .next ((s.arrive dt).timeMark)

/-- TIME_SAMPLE (R125 to R129). -/
def execTimeSample (dt ctx markSeq gptp : Nat) (s : State) : Host.Outcome State Fault Refusal :=
  .next ((s.arrive dt).timeSample ctx markSeq gptp)

/-- TIME_HOLDOVER (R159). -/
def execTimeHoldover (dt : Nat) (s : State) : Host.Outcome State Fault Refusal := .next ((s.arrive dt).timeHoldover)

/-- DRAIN_WINDOW_END (R30). -/
def execDrainWindowEnd (dt : Nat) (s : State) : Host.Outcome State Fault Refusal := .next ((s.arrive dt).drainWindowEnd)

/-- BINNING_COMPLETE (R32). -/
def execBinningComplete (dt : Nat) (s : State) : Host.Outcome State Fault Refusal := .next ((s.arrive dt).binningComplete)

/-- SEP_CLOSE_LATE (R43). -/
def execSepCloseLate (dt : Nat) (s : State) : Host.Outcome State Fault Refusal := .next ((s.arrive dt).sepCloseLate)

/-- THINNING_DONE (R280). -/
def execThinningDone (dt : Nat) (s : State) : Host.Outcome State Fault Refusal := .next ((s.arrive dt).thinningDone)

/-- DIRECTORY_COMMIT_DONE (R281). -/
def execDirectoryCommitDone (dt : Nat) (s : State) : Host.Outcome State Fault Refusal := .next ((s.arrive dt).directoryDone)

/-- BANK_TAKE (R270). -/
def execBankTake (dt : Nat) (s : State) : Host.Outcome State Fault Refusal := .next ((s.arrive dt).bankTake)

/-- STAGE_DISPATCH (R140). -/
def execStageDispatch (dt : Nat) (s : State) : Host.Outcome State Fault Refusal := .next ((s.arrive dt).stageDispatch)

/-- STAGE_COMPLETE (R381). -/
def execStageComplete (dt stage : Nat) (s : State) : Host.Outcome State Fault Refusal := .next ((s.arrive dt).stageComplete stage)

/-- PUBLICATION (R593). -/
def execPublication (dt : Nat) (s : State) : Host.Outcome State Fault Refusal := .next ((s.arrive dt).publication)

/-- BUDGET_EXCEEDED (R157). -/
def execBudgetExceeded (dt : Nat) (s : State) : Host.Outcome State Fault Refusal := .next ((s.arrive dt).budgetExceeded)

/-- CORE_FREQ_CHANGE (R733). -/
def execCoreFreqChange (dt : Nat) (s : State) : Host.Outcome State Fault Refusal := .next ((s.arrive dt).coreFreqChange)

/-- FRAME_JOB_ACCEPT (R117). -/
def execFrameJobAccept (dt ctx ring : Nat) (records : List Byte) (s : State) : Host.Outcome State Fault Refusal :=
  .next ((s.arrive dt).frameJobAccept ctx ring records)

end Sys2Proof.Machine
end

