-- ==== Sys2Proof/Machine/Fec.lean ====
section
/-! DEFINITION. The Graft physical layer of one flit: its RS(68,64) codeword, the stripes on the four lanes, the scrambler and the levels
on the wire (spec/12_graft_link.md, R517 to R520). -/

namespace Sys2Proof.Machine

/-! ## GF(2^10) with x^10 + x^3 + 1 -/

/-- A field element times α. -/
def gfDouble (a : Nat) : Nat := if a < 512 then 2 * a else (2 * a) ^^^ 0x409

/-- A field element times α^k. -/
def gfShift : Nat → Nat → Nat
  | 0, a => a
  | k + 1, a => gfShift k (gfDouble a)

/-- The product over the bits of the second factor, from bit `n - 1` down. -/
def gfMulBits : Nat → Nat → Nat → Nat
  | 0, _, _ => 0
  | n + 1, a, b => gfDouble (gfMulBits n a (b / 2)) ^^^ (if b % 2 = 1 then a else 0)

/-- The product of two field elements. -/
def gfMul (a b : Nat) : Nat := gfMulBits 10 a b

/-- a^(2^n - 1). -/
def gfOnes : Nat → Nat → Nat
  | 0, _ => 1
  | n + 1, a => gfMul a (let x := gfOnes n a; gfMul x x)

/-- The inverse a^1022 of a field element other than 0. -/
def gfInv (a : Nat) : Nat := let x := gfOnes 9 a; gfMul x x

/-! ## RS(68,64) (R517) -/

/-- A polynomial, lowest coefficient first, times x + c. -/
def polyTimes (c : Nat) (p : List Nat) : List Nat := List.zipWith (· ^^^ ·) (0 :: p) (p.map (gfMul c) ++ [0])

/-- g(x), lowest coefficient first. -/
def rsGen : List Nat := (List.range 4).foldl (fun p k => polyTimes (gfShift k 1) p) [1]

/-- One symbol enters the division of m(x) × x^4 by g(x); the remainder is highest coefficient first. -/
def rsStep (r : List Nat) (m : Nat) : List Nat :=
  let f := m ^^^ r.headD 0
  List.zipWith (fun a g => a ^^^ gfMul f g) (r.drop 1 ++ [0]) ((rsGen.take 4).reverse)

/-- The parity symbols of 64 message symbols. -/
def rsParity (m : List Nat) : List Nat := m.foldl rsStep [0, 0, 0, 0]

/-- The symbols of a flit: symbol k is flit bits 10k + 9 to 10k. -/
def flitSymbols (flit : List Byte) : List Nat :=
  let v := flit.foldr (fun b n => b.toNat + 256 * n) 0
  (List.range 64).map (fun k => v / 2 ^ (10 * k) % 1024)

/-- The flit of 64 symbols. -/
def symbolsFlit (m : List Nat) : List Byte :=
  let v := m.foldr (fun s n => s + 1024 * n) 0
  (List.range 80).map (fun i => BitVec.ofNat 8 (v / 256 ^ i))

/-- The codeword of a flit: 68 symbols in descending power. -/
def codeword (flit : List Byte) : List Nat := let m := flitSymbols flit; m ++ rsParity m

/-- The value of a codeword at α^j. -/
def syndrome (r : List Nat) (j : Nat) : Nat := r.foldl (fun a x => gfShift j a ^^^ x) 0

/-- The symbol of power `p` of a codeword takes an error value. -/
def addError (r : List Nat) (p e : Nat) : List Nat := r.modify (67 - p) (· ^^^ e)

/-- A received codeword with at most two symbol errors corrected, and whether it needed correction; none beyond (R520). -/
def rsDecode (r : List Nat) : Option (Bool × List Nat) :=
  let s0 := syndrome r 0
  let s1 := syndrome r 1
  let s2 := syndrome r 2
  let s3 := syndrome r 3
  if s0 = 0 ∧ s1 = 0 ∧ s2 = 0 ∧ s3 = 0 then some (false, r)
  else
    let one := fun (p : Nat) => s0 != 0 && gfShift p s0 == s1 && gfShift p s1 == s2 && gfShift p s2 == s3
    match (List.range 68).find? one with
    | some p => some (true, addError r p s0)
    | none =>
      -- the locator d X² + a X + b of two errors
      let d := gfMul s1 s1 ^^^ gfMul s0 s2
      let a := gfMul s1 s2 ^^^ gfMul s0 s3
      let b := gfMul s2 s2 ^^^ gfMul s1 s3
      match (List.range 68).filter (fun p => d != 0 && gfShift (2 * p) d ^^^ gfShift p a ^^^ b == 0) with
      | [p, q] =>
        let x := gfShift p 1
        let y := gfShift q 1
        let e := gfMul (s1 ^^^ gfMul s0 y) (gfInv (x ^^^ y))
        some (true, addError (addError r p e) q (s0 ^^^ e))
      | [] => none
      | [_] => none
      | _ :: _ :: _ :: _ => none

/-! ## Lanes, scrambler and levels (R517 to R519) -/

/-- The next bit of the sequence of x^31 + x^28 + 1 from its last 31 bits, the newest in bit 0. -/
def wireNext (r : Nat) : Nat := (r / 2 ^ 27 + r / 2 ^ 30) % 2

/-- `n` further bits of the sequence. -/
def wireSeq : Nat → Nat → List Nat
  | 0, _ => []
  | n + 1, r => let b := wireNext r; b :: wireSeq n ((2 * r + b) % 2 ^ 31)

/-- The state after `n` further bits. -/
def wireSkip : Nat → Nat → Nat
  | 0, r => r
  | n + 1, r => wireSkip n ((2 * r + wireNext r) % 2 ^ 31)

/-- The 170 bits of the sequence for the codeword that comes `at_` codewords after the alignment marker: the state's 31 ones come first,
as in R171. [DEDUCED: notes/assumptions/53.md] -/
def wireKey (at_ : Nat) : List Nat :=
  if at_ = 0 then List.replicate 31 1 ++ wireSeq 139 (2 ^ 31 - 1) else wireSeq 170 (wireSkip (170 * at_ - 31) (2 ^ 31 - 1))

/-- The PAM4 level of two bits: 00, 01, 11, 10 are levels 0 to 3. -/
def pam4 (hi lo : Nat) : Nat := if hi = 0 then lo else 3 - lo

/-- The two bits of a level. -/
def pam4Bits (l : Nat) : List Nat := if l = 0 then [0, 0] else if l = 1 then [0, 1] else if l = 2 then [1, 1] else [1, 0]

/-- The levels of bits in the order sent. -/
def unitLevels : List Nat → List Nat
  | a :: b :: t => pam4 a b :: unitLevels t
  | [_] => []
  | [] => []

/-- A symbol's bits, bits 9:8 first. -/
def symbolBits (s : Nat) : List Nat := (List.range 10).map (fun i => s / 2 ^ (9 - i) % 2)

/-- The symbols of bits in the order sent. -/
def bitsSymbols (n : Nat) (b : List Nat) : List Nat :=
  (List.range n).map (fun i => ((b.drop (10 * i)).take 10).foldl (fun v x => 2 * v + x) 0)

/-- Bits XORed with the scrambler's. -/
def scramble (key b : List Nat) : List Nat := List.zipWith (fun x y => (x + y) % 2) key b

/-- The levels of a flit on the wire, lane 0's 85 unit intervals first: symbol i on lane i mod 4, scrambled. -/
def flitLevels (at_ : Nat) (flit : List Byte) : List Nat :=
  let c := codeword flit
  let key := wireKey at_
  (List.range 4).flatMap (fun l =>
    unitLevels (scramble key ((List.range 17).flatMap (fun i => symbolBits (c.getD (4 * i + l) 0)))))

/-- The codeword of the levels received on the four lanes. -/
def levelsCodeword (at_ : Nat) (levels : List Nat) : List Nat :=
  let key := wireKey at_
  let lanes := (List.range 4).map (fun l => bitsSymbols 17 (scramble key (((levels.drop (85 * l)).take 85).flatMap pam4Bits)))
  (List.range 68).map (fun i => (lanes.getD (i % 4) []).getD (i / 4) 0)

/-- What the receiver makes of the levels of a codeword: whether it corrected it, and its flit; none where it cannot (R520). -/
def receiveLevels (at_ : Nat) (levels : List Nat) : Option (Bool × List Byte) :=
  (rsDecode (levelsCodeword at_ levels)).map (fun x => (x.1, symbolsFlit (x.2.take 64)))

/-- The unscrambled alignment marker of a lane: sixteen symbols of 0x1B3, then 0x2C0 + lane (R519). -/
def laneMarker (lane : Nat) : List Nat := unitLevels ((List.replicate 16 0x1B3 ++ [0x2C0 + lane]).flatMap symbolBits)

end Sys2Proof.Machine
end

