-- ==== Sys2Proof/Machine/Graft.lean ====
section
/-! DEFINITION. The Graft link: link states, flits and replay, inbound transactions, transit, remote requests, lost nodes and barriers
(spec/12_graft_link.md, R514 to R557). -/

namespace Sys2Proof.Machine

/-! ## Link states (R514, R521, R531, R548) -/

/-- The direction of a port (R514): the one it holds, else the one its ROLE names, 0 to 5, or 7 for none.
[DEDUCED: notes/assumptions/53.md] -/
def State.role (s : State) (n : Nat) : Nat :=
  match (List.range 6).find? (fun d => s.holder (0x4100 + d) == some (grfPage n)) with
  | some d => d
  | none => s.fld (F.GRF_PORT_CFG_ROLE n)

/-- A packet that cannot leave by port `n` is disposed of (R531): a request of this node ends with NODE_LOST, one in transit is
answered, and a response or MSG-class packet is discarded. [DEDUCED: notes/assumptions/53.md] -/
def State.dispose (s : State) (n : Nat) (p : Packet) : State :=
  if answered p.ttype then
    let s := s.bump (F.GRF_ROUTE_LOST_CNT n)
    if p.src = s.nodeId then
      match s.grf.reqs.find? (fun q => q.tag == p.tag && q.gen == p.gen) with
      | some q => s.loseReq q 2
      | none => s
    else s.routeResp none (respondTo p p.dest 0x4010 true (List.replicate p.asked 0))
  else
    let s := s.bump (F.GRF_DISCARD_CNT n)
    if p.ttype = 6 ∧ p.src = s.nodeId then s.bump F.MBX_FWD_LOST_CNT else s

/-- The link's SEQ, credit and replay state ends; packets received stay, no longer counted as slots of the link (R524). -/
def State.portClear (s : State) (n : Nat) : State :=
  let out := (s.port n).outq
  let s := s.updPort n (fun p => { ({} : GrfPort) with inq := p.inq.map (fun x => (8, x.2)), txFlits := p.txFlits, rxFlits := p.rxFlits })
  out.foldl (fun (s : State) x => s.dispose n x.2) s

/-- A port goes OFF (Table 12-3, R548): its direction is free again. -/
def State.portOff (s : State) (n : Nat) : State :=
  if s.lstate n = 0 then (s.updCond (grfPage n) (linkCond 0)).release (grfPage n)
  else ((((s.setLink n 0).setFld (F.GRF_PORT_STATUS_LANES_OK n) 0).setFld (F.GRF_PORT_STATUS_NEIGH_VALID n) 0).portClear n).release (grfPage n)

/-- Every port goes OFF (R548). -/
def State.portsOff (s : State) : State := (List.range 8).foldl (fun (s : State) n => s.portOff n) s

/-- A port with its direction held begins to train. -/
def State.portTrain (s : State) (n : Nat) : State := (s.setLink n 1).updCond (grfPage n) (fun c => { c with off := false })

/-- Graft operates only in RUN and TRIM (R548): PWR_STATE STATE 0 and 1. -/
def State.grfMay (s : State) : Bool := Nat.ble (s.fld F.PWR_STATE) 1

/-- A port leaves OFF (R514): it acquires its direction and trains, or waits for the direction. A spare of ROLE 7 acquires none. -/
def State.portStart (s : State) (n : Nat) : State :=
  if s.lstate n ≠ 0 ∨ (s.page (grfPage n)).cond.waiting = true ∨ s.grfMay = false then s
  else
    let d := s.role n
    let s := s.updCond (grfPage n) (fun c => { c with off := false })
    if 5 < d then s.portTrain n
    else
      let s := s.acquire (grfPage n) [0x4100 + d] St.armed
      if (s.page (grfPage n)).cond.waiting then s else s.portTrain n

/-- Ports with ENABLE 1 train again (R548). -/
def State.portsResume (s : State) : State :=
  (List.range 8).foldl (fun (s : State) n => if (s.page (grfPage n)).enable then s.portStart n else s) s

/-- LINK_TRAIN_DONE (Table 12-3). A port still in DOWN whose training is done has passed TRAIN. -/
def State.linkTrained (s : State) (n : Nat) : State :=
  if s.lstate n = 1 ∨ s.lstate n = 6 then ((s.setLink n 1).setLink n 2).setFld (F.GRF_PORT_STATUS_LANES_OK n) 15 else s

/-- Slot 0 of a NAK (R522). -/
def nakSlot (seq : Nat) : List Byte := leBytes 2 1 ++ leBytes 2 seq ++ List.replicate 12 0

/-- Slot 0 of the EXCHANGE of port `n` (R516, R522, R524): the node ID, the direction, NODE_CFG and the SEQ expected. -/
def State.exchangeSlot (s : State) (n : Nat) : List Byte :=
  leBytes 2 2 ++ leBytes 2 s.nodeId ++ leBytes 4 (s.role n) ++ leBytes 4 (s.cell R.GRF_NODE_CFG).toNat ++ leBytes 2 (s.port n).rxSeq ++ leBytes 2 0

/-- The port sends a CTRL flit of this slot 0. -/
def State.sendCtrl (s : State) (n : Nat) (b : List Byte) : State := s.updPort n (fun p => { p with ctrl := b })

/-- LINK_ALIGN_DONE (Table 12-3): the port sends its EXCHANGE (R516). -/
def State.linkAligned (s : State) (n : Nat) : State := if s.lstate n = 2 then (s.setLink n 3).sendCtrl n (s.exchangeSlot n) else s

/-- A neighbour passes R516: its coordinates, its direction and its dimensions. -/
def State.wiringOk (s : State) (n dir : Nat) (cfg : Word) : Bool :=
  let d := s.role n
  let i := d / 2
  Nat.ble d 5 && dir == d ^^^ 1 && getBits cfg 29 15 == getBits (s.cell R.GRF_NODE_CFG) 29 15
    && (List.range 3).all (fun j =>
      getBits cfg (5 * j + 4) (5 * j) == (if j = i then stepCoord (s.dim j) (s.coord j) d else s.coord j))

/-- PORT_STATUS shows the neighbour. -/
def State.noteNeighbour (s : State) (n node dir : Nat) : State :=
  ((s.setFld (F.GRF_PORT_STATUS_NEIGH_VALID n) 1).setFld (F.GRF_PORT_STATUS_NEIGHBOUR n) node).setFld (F.GRF_PORT_STATUS_NEIGH_DIR n) dir

/-! ## Acknowledgement and replay (R523, R524) -/

/-- The peer expects `seq`: flits before it are delivered. -/
def State.ackTo (s : State) (n seq : Nat) : State :=
  match (s.port n).replay with
  | [] => s
  | (q, _) :: _ =>
    let k := (seq + 4096 - q) % 4096
    if k = 0 ∨ (s.port n).replay.length < k then s
    else s.updPort n (fun p => { p with replay := p.replay.drop k, replays := 0, ackAt := s.cycles })

/-- A port enters RECOVER and sends its EXCHANGE, which gives the SEQ it expects (R524). -/
def State.linkRecover (s : State) (n : Nat) : State :=
  let s := ((s.setLink n 5).updPort n (fun p => { p with recoverAt := s.cycles })).sendCtrl n (s.exchangeSlot n)
  (s.bump (F.GRF_RECOVER_CNT n)).event (grfPage n) 1

/-- A replay from the `k`-th unacknowledged flit; after eight without an advance of the ACK the port enters RECOVER.
[DEDUCED: notes/assumptions/53.md] -/
def State.replayFrom (s : State) (n k : Nat) : State :=
  if s.lstate n ≠ 4 ∨ (s.page (grfPage n)).pausing = true ∨ (s.port n).replay.length ≤ k then s
  else if 8 ≤ (s.port n).replays then s.linkRecover n
  else
    let s := s.updPort n (fun p => { p with replays := p.replays + 1, ackAt := s.cycles })
    (s.bump (F.GRF_REPLAY_CNT n)).countTx n ((s.port n).replay.length - k)

/-- A NAK that names `seq` (R523). [DEDUCED: notes/assumptions/53.md] -/
def State.linkNak (s : State) (n seq : Nat) : State :=
  match (s.port n).replay with
  | [] => s
  | (q, _) :: _ => s.replayFrom n ((seq + 4096 - q) % 4096)

/-- REPLAY_TIMEOUT: the ACK has not advanced for 2 µs (R523). [DEDUCED: notes/assumptions/53.md] -/
def State.linkReplayTimeout (s : State) (n : Nat) : State :=
  if (s.port n).ackAt + usCycles 2 ≤ s.cycles then s.replayFrom n 0 else s

/-- The flits the peer has not accepted are sent again after a recovery (R524), unless the port is PAUSED (R552). -/
def State.resume (s : State) (n : Nat) : State :=
  if (s.page (grfPage n)).pausing = true ∨ (s.port n).resend = false then s
  else (s.updPort n (fun p => { p with resend := false, ackAt := s.cycles })).countTx n (s.port n).replay.length

/-- A port sends what it owes: flits to be resumed, then packets. -/
def State.portSend (s : State) (n : Nat) : State := (s.resume n).pump n

/-- An EXCHANGE flit (R516, R524): a port enters ACTIVE only if R516 holds, from RECOVER too; one whose lock is abandoned does not become
ACTIVE (R93). [DEDUCED: notes/assumptions/53.md] -/
def State.linkExchange (s : State) (n node dir : Nat) (cfg : Word) (seq : Nat) : State :=
  if (s.lstate n ≠ 3 ∧ s.lstate n ≠ 5) ∨ (s.page (grfPage n)).cond.fault = true ∨ (s.lstate n = 3 ∧ s.lockStops (grfPage n) = true) then s
  else
    let t := s.noteNeighbour n node dir
    if t.wiringOk n dir cfg = false then ((t.error (grfPage n) 0x4012 0).event (grfPage n) 3).pageFault (grfPage n) 0x4012
    else if s.lstate n = 3 then ((t.setLink n 4).event (grfPage n) 0).pump n
    else
      let t := (t.ackTo n seq).updPort n (fun p => { p with replays := 0, ackAt := s.cycles, resend := true })
      (((t.setFld (F.GRF_PORT_STATUS_LANES_OK n) 15).setLink n 4).event (grfPage n) 0).portSend n

/-- LANE_LOCK_LOST: a lane lost lock, or eight replays made no progress (R524); `lanes` still hold lock.
[DEDUCED: notes/assumptions/53.md] -/
def State.laneLockLost (s : State) (n lanes : Nat) : State :=
  if s.lstate n = 4 ∧ (lanes % 16 ≠ 15 ∨ 8 ≤ (s.port n).replays) then
    (s.setFld (F.GRF_PORT_STATUS_LANES_OK n) (lanes % 16)).linkRecover n
  else s

/-- RECOVER_TIMEOUT (R524). [DEDUCED: notes/assumptions/53.md] -/
def State.recoverTimeout (s : State) (n : Nat) : State :=
  if s.lstate n = 5 ∧ (s.port n).recoverAt + usCycles (s.fld (F.GRF_LINK_TIMING_RECOVER_US n)) ≤ s.cycles then
    let s := (s.setLink n 6).portClear n
    ((s.bump (F.GRF_DOWN_CNT n)).error (grfPage n) 0x4011 0).event (grfPage n) 2
  else s

/-! ## Flits (R520 to R526) -/

/-- A received packet waits at its port. -/
def State.portTake (s : State) (n v : Nat) (p : Packet) : State := s.updPort n (fun q => { q with inq := q.inq ++ [(v, p)] })

/-- Slots of VC `v` are free again (R525). -/
def State.freeSlots (s : State) (n v k : Nat) : State :=
  if 8 ≤ v then s else s.updPort n (fun q => { q with freed := Sparse.set (fun _ => 0) q.freed v ((vcGet q.freed v + k) % 4096) })

/-- A packet with the slots it still lacks joins its VC, or is complete. -/
def State.partNow (s : State) (n v : Nat) (p : Packet) (left : Nat) : State :=
  let s := s.updPort n (fun q => { q with partials := Sparse.set (fun _ => none) q.partials v (if left = 0 then none else some (p, left)) })
  if left = 0 then s.portTake n v p else s

/-- One slot of an accepted flit (R526): a header slot starts a transaction, another slot continues the one of its VC. -/
def State.recvSlot (s : State) (n v : Nat) (start : Bool) (b : List Byte) : State :=
  if start then
    let p : Packet := { hdr := b, line := v % 2 }
    s.partNow n v p p.dlen
  else match Sparse.get (fun _ => none) (s.port n).partials v with
  | some (p, left) => s.partNow n v { p with data := p.data ++ b } (left - 1)
  | none => s

/-- The four slots of a flit. -/
def State.recvSlots (s : State) (n : Nat) (flit : List Byte) : State :=
  (List.range 4).foldl (fun (s : State) k =>
    let i := fieldOf flit (0x48 + k) 1
    if bitOf i 7 then s.recvSlot n (i % 8) (bitOf i 6) ((flit.drop (8 + 16 * k)).take 16) else s) s

/-- DATA flits accepted, in units of 65,536. [DEDUCED: notes/assumptions/53.md] -/
def State.countRx (s : State) (n : Nat) : State :=
  let t := (s.port n).rxFlits + 1
  let s := s.updPort n (fun p => { p with rxFlits := t % 65536 })
  if 65536 ≤ t then s.bump (F.GRF_RX_FLIT_CNT n) else s

/-- A discarded flit: at most one NAK for each expected SEQ (R523). -/
def State.sendNak (s : State) (n : Nat) : State :=
  if (s.port n).nakSent then s else (s.sendCtrl n (nakSlot (s.port n).rxSeq)).updPort n (fun p => { p with nakSent := true })

/-- ACK and CRED of a good flit (Table 12-4). -/
def State.useAck (s : State) (n : Nat) (flit : List Byte) : State :=
  let a := fieldOf flit 2 2
  let c := fieldOf flit 4 2
  let s := if bitOf a 15 then s.ackTo n (a % 4096) else s
  let s := if bitOf c 15 then
      s.updPort n (fun p => { p with credit := Sparse.set (fun _ => 0) p.credit (natBits c 14 12) (c % 4096) })
    else s
  s.pump n

/-- A flit whose CRC is good, by its KIND. -/
def State.recvGood (s : State) (n : Nat) (flit : List Byte) : State :=
  let ctl := fieldOf flit 0 2
  let kind := ctl / 4096
  let s := if s.lstate n = 4 then s.useAck n flit else s
  if kind = 1 then
    if s.lstate n ≠ 4 then s
    else if ctl % 4096 = (s.port n).rxSeq then
      let s := s.updPort n (fun p => { p with rxSeq := (p.rxSeq + 1) % 4096, nakSent := false })
      (s.countRx n).recvSlots n flit
    else s.sendNak n
  else if kind = 2 then
    let t := fieldOf flit 8 1
    if t = 1 then s.linkNak n (fieldOf flit 0xA 2 % 4096)
    else if t = 2 then
      s.linkExchange n (fieldOf flit 0xA 2 % 2 ^ 15) (fieldOf flit 0xC 1) (word (fieldOf flit 0x10 4)) (fieldOf flit 0x14 2 % 4096)
    else s
  else s

/-- A flit whose CRC fails is discarded and counted (R520, R523). -/
def State.recvBad (s : State) (n : Nat) : State :=
  let s := s.bump (F.GRF_CRC_ERR_CNT n)
  if s.lstate n = 4 then s.sendNak n else s

/-- DATA_FLIT: a codeword is received, `at_` codewords after the last alignment marker, as the levels of its four lanes, and its flit is
checked (R517 to R520, R523). [DEDUCED: notes/assumptions/53.md] -/
def State.recvFlit (s : State) (n at_ : Nat) (levels : List Nat) : State :=
  if s.lstate n < 3 ∨ 5 < s.lstate n then s
  else
    match receiveLevels (at_ % 1024) levels with
    | none => (s.bump (F.GRF_FEC_UNCORR_CNT n)).recvBad n
    | some (corrected, flit) =>
      let s := if corrected then s.bump (F.GRF_FEC_CORR_CNT n) else s
      if fieldOf flit 0x4C 4 = crc32 (flit.take 0x4C) then s.recvGood n flit else s.recvBad n

/-- SLOT_INFO and BODY of up to four slots (Table 12-4). -/
def flitBody (slots : List (Nat × Bool × List Byte)) : List Byte :=
  let at_ := fun (k : Nat) => slots.getD k (0, false, [])
  (List.range 4).flatMap (fun k => ((at_ k).2.2 ++ List.replicate 16 0).take 16)
    ++ (List.range 4).map (fun k =>
      if k < slots.length then BitVec.ofNat 8 (128 + 64 * b2n (at_ k).2.1 + (at_ k).1) else 0)

/-- The 80 bytes of a flit (Table 12-4): its KIND and SEQ, the next SEQ expected, the slots freed on VC `v`, its slots and its CRC. Which
VC a flit's CRED is for is not stated. -/
def GrfPort.flitOut (p : GrfPort) (kind seq v : Nat) (slots : List (Nat × Bool × List Byte)) : List Byte :=
  let b := leBytes 2 (kind * 2 ^ 12 + seq) ++ leBytes 2 (2 ^ 15 + p.rxSeq) ++ leBytes 2 (2 ^ 15 + v * 2 ^ 12 + vcGet p.freed v)
    ++ leBytes 2 0 ++ flitBody slots
  b ++ leBytes 4 (crc32 b)

/-- The CTRL flit of the message sent last, and the IDLE flit, which a port sends whenever it has nothing else to send, a PAUSED one too
(R522, R523, R552). SEQ is 0 in both, and slot 0 of a CTRL flit is VALID with VC 0. [DEDUCED: notes/assumptions/53.md] -/
def State.ctrlFlit (s : State) (n v : Nat) : List Byte := (s.port n).flitOut 2 0 v [(0, false, (s.port n).ctrl)]
def State.idleFlit (s : State) (n v : Nat) : List Byte := (s.port n).flitOut 0 0 v []

/-- The levels a lane sends for flits, the first `at_` codewords after a marker: its unscrambled marker follows every 1,024th codeword
(R519). -/
def laneStream (lane at_ : Nat) : List (List Byte) → List Nat
  | [] => []
  | b :: t => ((flitLevels at_ b).drop (85 * lane)).take 85 ++ (if at_ = 1023 then laneMarker lane else []) ++ laneStream lane ((at_ + 1) % 1024) t

/-- The levels on the wire of the `k`-th unacknowledged DATA flit of port `n`, sent `at_` codewords after the alignment marker with the
CRED of VC `v` (R517, R518, R522). -/
def State.flitOnWire (s : State) (n k at_ v : Nat) : Option (List Nat) :=
  ((s.port n).replay[k]?).map (fun x => flitLevels at_ ((s.port n).flitOut 1 x.1 v x.2))

/-! ## Inbound transactions (R536 to R541) -/

/-- Data slots that Table 12-7 requires; none for a reserved type. -/
def Packet.slotsDue (p : Packet) : Option Nat :=
  let o := p.operand
  if p.ttype = 1 ∨ p.ttype = 4 ∨ p.ttype = 7 ∨ p.ttype = 0x81 then some 0
  else if p.ttype = 2 then some (ceilDiv (natBits o 40 32) 16)
  else if p.ttype = 3 ∨ p.ttype = 6 then some 4
  else if p.ttype = 5 then some (ceilDiv (natBits o 55 50 + 1) 4)
  else if p.ttype = 0x80 then some (ceilDiv (natBits o 24 16) 16)
  else none

/-- The reserved bits of OPERAND are 0 and its fields lie in the ranges of Table 12-8. -/
def Packet.operandOk (p : Packet) : Bool :=
  let o := p.operand
  if p.ttype = 1 ∨ p.ttype = 2 then natBits o 63 41 == 0 && Nat.ble 1 (natBits o 40 32) && Nat.ble (natBits o 40 32) 256
  else if p.ttype = 3 then natBits o 63 48 == 0 && o % 64 == 0
  else if p.ttype = 4 then natBits o 63 57 == 0 && natBits o 43 40 == 0
  else if p.ttype = 5 then natBits o 63 56 == 0 && natBits o 43 40 == 0
  else if p.ttype = 6 then natBits o 63 8 == 0
  else if p.ttype = 7 then natBits o 15 5 == 0 && natBits o 63 32 == 0
  else natBits o 63 25 == 0 && (p.ttype != 0x81 || natBits o 24 16 == 0)

/-- The inbound proxy discards a transaction (R538). [DEDUCED: notes/assumptions/54.md] -/
def Packet.malformed (p : Packet) : Bool :=
  p.depth != 0 || p.slotsDue != some p.dlen || !p.operandOk || bitOf (fieldOf p.hdr 2 2) 15 || bitOf (fieldOf p.hdr 4 2) 15
    || (p.poison && Nat.blt p.ttype 0x80)

/-- The oldest packet of a port that satisfies `who`. -/
def State.inbound (s : State) (n : Nat) (who : Packet → Bool) : Option (Nat × Packet) := (s.port n).inq.find? (fun x => who x.2)

/-- A packet leaves its port's receive buffer and its slots are free. -/
def State.consume (s : State) (n : Nat) (x : Nat × Packet) : State :=
  (s.updPort n (fun q => { q with inq := q.inq.erase x })).freeSlots n x.1 (1 + x.2.dlen)

/-- A response is sent (R537). -/
def State.respond (s : State) (q : Packet) (code : Nat) (poison : Bool) (bytes : List Byte) : State :=
  s.routeResp none (respondTo q s.nodeId code poison bytes)

/-- A refused request's response: poisoned zeros (R534, R540). -/
def State.respondBad (s : State) (q : Packet) (code : Nat) : State := s.respond q code true (List.replicate q.asked 0)

/-- A discarded malformed transaction (R538); its answer carries no data where it asked for more than the 256 bytes of Table 12-9.
[DEDUCED: notes/assumptions/54.md] -/
def State.dropMalformed (s : State) (p : Packet) : State :=
  let s := s.bump F.GRF_MALFORMED_CNT
  if answered p.ttype = false then s
  else if 256 < p.asked then s.respond p 0x2016 true []
  else s.respondBad p 0x2016

/-- The oldest packet for this node that `who` admits is taken: fenced (R553), malformed (R538), or handed to `f`. -/
def State.takeInbound (s : State) (n : Nat) (who : Packet → Bool) (f : State → Packet → State) : State :=
  match s.inbound n (fun p => p.dest == s.nodeId && who p) with
  | none => s
  | some x =>
    let s := s.consume n x
    if s.grf.lost.contains x.2.src then s.bump F.GRF_FENCED_CNT
    else if x.2.malformed then s.dropMalformed x.2
    else f s x.2

/-- A transaction of a type the table reserves has no row of its own: it is dealt with as it arrives (R538). -/
def State.dropReserved (s : State) (n : Nat) : State :=
  s.takeInbound n (fun p => p.slotsDue.isNone) (fun s _ => s)

/-- DATA_FLIT: the flit, then at most four reserved transactions that it completed. -/
def State.dataFlit (s : State) (n at_ : Nat) (levels : List Nat) : State :=
  (List.range 4).foldl (fun (s : State) _ => s.dropReserved n) (s.recvFlit n at_ levels)

/-- A request performed for another node is counted. -/
def State.reqIn (s : State) : State := s.bump F.GRF_REQ_IN_CNT

/-- READ (R534, R539). [DEDUCED: notes/assumptions/54.md] -/
def State.inRead (s : State) (p : Packet) : State :=
  match s.loopback p.operand 0 with
  | none => s.denied.respondBad p 0x8010
  | some x =>
    let f := (s.asAgent .none).fetch x p.asked
    f.2.reqIn.respond p f.1.code f.1.poison f.1.bytes

/-- WRITE (R534, R539). [DEDUCED: notes/assumptions/54.md] -/
def State.inWrite (s : State) (p : Packet) : State :=
  match s.loopback p.operand 1 with
  | none => s.denied.respondBad p 0x8010
  | some x =>
    let bs := p.data.take (natBits p.operand 40 32)
    let q := s.performed (fun s => s.write x bs)
    q.2.reqIn.respond p q.1 false []

/-- The sixteen addends of an ADD32, or the lanes of a TADD. -/
def Packet.lanes (p : Packet) : List Nat := (List.range (p.data.length / 4)).map (fun i => fieldOf p.data (4 * i) 4)

/-- ADD32 (R534, R539). [DEDUCED: notes/assumptions/54.md] -/
def State.inAdd (s : State) (p : Packet) : State :=
  match s.loopback p.operand 2 with
  | none => s.denied.respondBad p 0x8010
  | some x =>
    let q := s.performed (fun s => s.localAdd x (natBits p.operand 47 32) p.lanes false)
    q.2.reqIn.respond p q.1 false []

/-- The table, row and first element that a GATHER or a TADD names (Table 12-8). -/
def Packet.table (p : Packet) : Nat := natBits p.operand 7 0
def Packet.row (p : Packet) : Nat := natBits p.operand 39 8
def Packet.first (p : Packet) : Nat := natBits p.operand 49 40
def Packet.count (p : Packet) : Nat := if p.ttype = 4 then natBits p.operand 56 50 + 1 else natBits p.operand 55 50 + 1

/-- The code with which a GATHER or TADD completes without effect (R540, R813). -/
def State.tableCode (s : State) (p : Packet) : Nat :=
  let x := s.table p.table
  if s.saf.inSafe then 0x6031
  else if x.state = 0 then 0x1014
  else if x.elems < p.first + p.count ∨ x.update = false then 0x1015
  else if x.index p.row = 0 ∧ x.node p.row ≠ s.nodeId then 0xA015
  else 0

/-- GATHER (R540). [DEDUCED: notes/assumptions/54.md] -/
def State.inGather (s : State) (p : Packet) : State :=
  let code := s.tableCode p
  if code ≠ 0 then (if code = 0xA015 then s.bump F.ETU_NOT_HOME_CNT else s).respondBad p code
  else
    let l := s.fld F.ETU_LOOKUP_CNT
    let x := (s.asAgent .none).lookup .none p.table p.row
    let x := (x.1, if p.first = 0 then x.2 else x.2.setFld F.ETU_LOOKUP_CNT l)
    let s := (x.2.countIndex (s.table p.table) p.row).reqIn
    if x.1.bad then s.respondBad p x.1.code
    else s.respond p 0 false (((x.1.vals.drop p.first).take p.count).flatMap (leBytes 2))

/-- TADD (R540). [DEDUCED: notes/assumptions/54.md] -/
def State.inTadd (s : State) (p : Packet) : State :=
  let code := s.tableCode p
  if code ≠ 0 then s.respond p code false []
  else
    let x := s.table p.table
    let s := (s.asAgent .none).countIndex x p.row
    let s := if x.index p.row = 0 then s.bankAdd p.table p.row p.first (p.lanes.take p.count) false else s
    s.reqIn.respond p 0 false []

/-- A GATHER or TADD waits at its port while REPLACE pauses its table (R497). -/
def State.tablePaused (s : State) (p : Packet) : Bool := (s.table p.table).state == 3 && !s.saf.inSafe

/-! ## Barriers (R544 to R546, R554, R582) -/

/-- The box of barrier `b` in dimension `i`: its origin and size. -/
def State.barLo (s : State) (b i : Nat) : Nat := s.fld (if i = 0 then F.GRF_BAR_CFG_X0 b else if i = 1 then F.GRF_BAR_CFG_Y0 b else F.GRF_BAR_CFG_Z0 b)
def State.barSize (s : State) (b i : Nat) : Nat :=
  1 + s.fld (if i = 0 then F.GRF_BAR_CFG_SX_M1 b else if i = 1 then F.GRF_BAR_CFG_SY_M1 b else F.GRF_BAR_CFG_SZ_M1 b)

/-- A node of the torus is a member of a defined barrier's box. -/
def State.barMember (s : State) (b node : Nat) : Bool :=
  s.flag (F.GRF_BAR_CFG_ENABLE b) && Nat.blt node (s.dim 0 * s.dim 1 * s.dim 2)
    && (List.range 3).all (fun i => Nat.ble (s.barLo b i) (s.coordOf node i) && Nat.blt (s.coordOf node i) (s.barLo b i + s.barSize b i))

/-- The parent of this node (R544); none at the root. -/
def State.barParent (s : State) (b : Nat) : Option Nat :=
  let x := s.coord 0
  let y := s.coord 1
  let z := s.coord 2
  if s.barLo b 2 < z then some (s.nodeAt x y (z - 1))
  else if s.barLo b 1 < y then some (s.nodeAt x (y - 1) (s.barLo b 2))
  else if s.barLo b 0 < x then some (s.nodeAt (x - 1) (s.barLo b 1) (s.barLo b 2))
  else none

/-- The children of this node: the nodes of the box whose parent it is. -/
def State.barKids (s : State) (b : Nat) : List Nat :=
  let x := s.coord 0
  let y := s.coord 1
  let z := s.coord 2
  let atZ := z == s.barLo b 2
  let atY := atZ && y == s.barLo b 1
  (if z + 1 < s.barLo b 2 + s.barSize b 2 then [s.nodeAt x y (z + 1)] else [])
    ++ (if atZ && Nat.blt (y + 1) (s.barLo b 1 + s.barSize b 1) then [s.nodeAt x (y + 1) z] else [])
    ++ (if atY && Nat.blt (x + 1) (s.barLo b 0 + s.barSize b 0) then [s.nodeAt (x + 1) y z] else [])

/-- A barrier that nothing has touched. -/
def barDefault (_ : Nat) : Bar := {}
def State.bar (s : State) (b : Nat) : Bar := Sparse.get barDefault s.grf.bars b
def State.setBar (s : State) (b : Nat) (x : Bar) : State := s.updGrf (fun g => { g with bars := Sparse.set barDefault g.bars b x })

/-- A BARRIER packet to a node: `op` 0 ARRIVE, 1 RELEASE. -/
def State.sendBar (s : State) (b op node : Nat) : State :=
  s.routeResp none (mkPacket 7 false node s.nodeId 0 (b + 16 * op + 2 ^ 16 * s.fld (F.GRF_BAR_STATUS_GEN b)) [])

/-- The BARRIER jobs that wait at barrier `b` complete (R582). -/
def State.barJobs (s : State) (b code : Nat) : State :=
  (s.allJobs.filter (fun x => x.2.2.opc == 9 && x.2.2.phase == 2 && x.2.2.link == b)).foldl
    (fun (s : State) x => s.jobDone x.1 x.2.1 x.2.2 code 0) s

/-- RELEASE at this node (R545): forwarded, GEN increments, IDLE, BAR_DONE. -/
def State.barRelease (s : State) (b : Nat) : State :=
  let s := (s.barKids b).foldl (fun (s : State) k => s.sendBar b 1 k) s
  let s := (s.setFld (F.GRF_BAR_STATUS_GEN b) (s.fld (F.GRF_BAR_STATUS_GEN b) + 1)).setFld (F.GRF_BAR_STATUS_STATE b) 0
  ((s.setBar b {}).event 0x0F1 1).barJobs b 0

/-- The conditions of R545 hold at this node. -/
def State.barReady (s : State) (b : Nat) : Bool :=
  let x := s.bar b
  x.own && !x.sent && s.fld (F.GRF_BAR_STATUS_STATE b) == 1 && (s.barKids b).all (fun k => x.kids.contains k)
    && !(s.grf.reqs.any (fun q => x.waits.contains (q.tag, q.gen)))

/-- A barrier goes on (R545): the root releases, another node sends ARRIVE to its parent. [DEDUCED: notes/assumptions/55.md] -/
def State.barStep (s : State) (b : Nat) : State :=
  if s.barReady b then
    match s.barParent b with
    | none => s.barRelease b
    | some p => (s.sendBar b 0 p).setBar b { s.bar b with sent := true }
  else s

/-- Every barrier goes on. -/
def State.barSteps (s : State) : State := (List.range 16).foldl (fun (s : State) b => s.barStep b) s

/-- The node's own arrival at barrier `b` is written (R545). [DEDUCED: notes/assumptions/55.md] -/
def State.barArrive (s : State) (b : Nat) : State :=
  if s.barMember b s.nodeId = true ∧ s.fld (F.GRF_BAR_STATUS_STATE b) = 0 then
    let waits := (s.grf.reqs.filter (fun q => q.ttype == 2 || q.ttype == 3 || q.ttype == 5)).map (fun q => (q.tag, q.gen))
    ((s.setFld (F.GRF_BAR_STATUS_STATE b) 1).setBar b { s.bar b with own := true, at_ := s.cycles, waits := waits }).barStep b
  else s

/-- A barrier breaks (R554). [DEDUCED: notes/assumptions/55.md] -/
def State.barBreak (s : State) (b : Nat) : State :=
  let s := (s.setFld (F.GRF_BAR_STATUS_STATE b) 2).setBar b {}
  ((s.error 0x0F1 0x4013 0).event 0x0F1 2).barJobs b 0x4013

/-- An ARRIVE from a child (R545, R546). [DEDUCED: notes/assumptions/55.md] -/
def State.inArrive (s : State) (p : Packet) : State :=
  let b := p.operand % 16
  if natBits p.operand 31 16 ≠ s.fld (F.GRF_BAR_STATUS_GEN b) then s.bump F.GRF_MALFORMED_CNT
  else if (s.barKids b).contains p.src ∧ s.barMember b s.nodeId = true ∧ s.fld (F.GRF_BAR_STATUS_STATE b) ≠ 2 then
    (s.setBar b { s.bar b with kids := p.src :: (s.bar b).kids.filter (· != p.src) }).barStep b
  else s

/-- A RELEASE (R545); a BROKEN barrier ignores it (R554). [DEDUCED: notes/assumptions/55.md] -/
def State.inRelease (s : State) (p : Packet) : State :=
  let b := p.operand % 16
  if (s.bar b).sent = true ∧ s.fld (F.GRF_BAR_STATUS_STATE b) = 1 ∧ natBits p.operand 31 16 = s.fld (F.GRF_BAR_STATUS_GEN b) then s.barRelease b
  else s

/-- A BARRIER packet of operation `op`. -/
def Packet.isBar (p : Packet) (op : Nat) : Bool := p.ttype == 7 && natBits p.operand 4 4 == op

/-! ## Responses, transit and lost nodes (R530, R531, R537, R553) -/

/-- What the end of a request lets go on: held requests (R543) and barriers (R545). -/
def State.reqEnded (s : State) : State := s.retryHeld.barSteps

/-- A response (R537): the request of its tag and generation ends; with none it is discarded. -/
def State.inRsp (s : State) (p : Packet) : State :=
  match s.grf.reqs.find? (fun q => q.tag == p.tag && q.gen == p.gen && q.node == p.src) with
  | none => s
  | some q =>
    let code := p.operand % 2 ^ 16
    let s := s.finishReq q code (p.poison || (code != 0)) (p.data.take (natBits p.operand 24 16))
    (if code = 0x4010 then s.nodeLost q.node 2 else s).reqEnded

/-- A packet in transit leaves by its next port, or is disposed of (R530, R531). -/
def State.forward (s : State) (n : Nat) (p : Packet) : State :=
  match s.nextDim p.dest with
  | none => s
  | some i =>
    let d := s.outDir (some (s.role n)) p.dest i
    if s.portUp (s.dirPort d) then s.emit (some (s.role n)) d p else s.dispose (s.dirPort d) p

/-- TRANSIT_FORWARD: the oldest packet of port `n` for another node. -/
def State.transit (s : State) (n : Nat) : State :=
  match s.inbound n (fun p => p.dest != s.nodeId) with
  | none => s
  | some x => ((s.consume n x).forward n x.2).reqEnded

/-- Node `node` is marked lost (R553): every request to it ends, held ones too, and barriers it is a member of break (R554).
[DEDUCED: notes/assumptions/55.md] -/
def State.markLost (s : State) (node : Nat) : State :=
  let s := if s.grf.lost.contains node then s else s.updGrf (fun g => { g with lost := g.lost ++ [node] })
  let s := (s.grf.reqs.filter (fun q => q.node == node)).foldl (fun (s : State) q => s.loseReq q 3) s
  let s := (List.range 16).foldl (fun (s : State) b =>
    if s.barMember b node && s.fld (F.GRF_BAR_STATUS_STATE b) != 2 then s.barBreak b else s) s
  s.reqEnded

/-- REMOTE_TIMEOUT (R553): the request that waited REMOTE_TIMEOUT_MS ends with cause TIMEOUT, and its node is lost. -/
def State.remoteTimeout (s : State) : State :=
  match s.grf.reqs.find? (fun q => Nat.ble (q.sentAt + msCycles (s.fld F.GRF_TIMEOUT_REMOTE_TIMEOUT_MS)) s.cycles) with
  | none => s
  | some q => (s.loseReq q 1).markLost q.node

/-- LOST_CTL: OP 1 SET, 2 CLEAR, 3 QUERY (Table 12-11). [DEDUCED: notes/assumptions/55.md] -/
def State.lostCtl (s : State) (op node : Nat) : State :=
  if op = 1 then s.markLost node
  else if op = 2 then s.updGrf (fun g => { g with lost := g.lost.filter (· != node) })
  else if op = 3 then (s.setFld F.GRF_LOST_QUERY_NODE node).setFld F.GRF_LOST_QUERY_LOST (b2n (s.grf.lost.contains node))
  else s

/-- A write of LOST_CTL. -/
def State.writeLostCtl (s : State) (w : Nat) (v : Word) : State :=
  s.onWrite 0x0F1 0x58 w v (fun s => (s.lostCtl (getBits v 17 16) (getBits v 14 0)).wrote 0x0F1 w)

/-- A write of BAR_CTL (R545, R546). -/
def State.writeBarCtl (s : State) (w : Nat) (v : Word) : State :=
  s.onWrite 0x0F1 0x1C0 w v (fun s =>
    let b := getBits v 3 0
    if getBits v 8 8 = 0 then s.wrote 0x0F1 w
    else if s.fld (F.GRF_BAR_STATUS_STATE b) = 1 then s.error 0x0F1 0xA018 0
    else (s.barArrive b).wrote 0x0F1 w)

/-- A write of BAR_CFG_b (R546). [DEDUCED: notes/assumptions/55.md] -/
def State.writeBarCfg (s : State) (w b : Nat) (v : Word) : State :=
  s.onRwl 0x0F1 (0x180 + 4 * b) w v (fun s =>
    let s := s.setCell (R.GRF_BAR_CFG b) (v &&& 0xBFFFFFFF)
    let s := (s.setFld (F.GRF_BAR_STATUS_GEN b) 0).setFld (F.GRF_BAR_STATUS_STATE b) 0
    (s.setBar b {}).wrote 0x0F1 w)

/-- BARRIER_TIMEOUT (R554). [DEDUCED: notes/assumptions/55.md] -/
def State.barTimeout (s : State) (b : Nat) : State :=
  if s.fld (F.GRF_BAR_STATUS_STATE b) = 1 ∧ (s.bar b).own = true ∧ (s.bar b).at_ + msCycles (s.fld F.GRF_TIMEOUT_BAR_TIMEOUT_MS) ≤ s.cycles then
    s.barBreak b
  else s

/-! ## NODE_CFG (R528, R557) -/

/-- The shorter direction to each coordinate of a dimension of size `k` from coordinate `c`: bit 0 positive, on a tie too. -/
def shorterDirs (k c : Nat) : Nat :=
  (List.range k).foldl (fun a x => if (c + k - x) % k < (x + k - c) % k then a + 2 ^ x else a) 0

/-- Every DIR register takes the shorter directions (R528). -/
def State.loadDirs (s : State) : State :=
  (List.range 3).foldl (fun (s : State) i => s.setFld (dirReg i) (shorterDirs (s.dim i) (s.coord i))) s

/-- A write of NODE_CFG (R528, R557). -/
def State.writeNodeCfg (s : State) (w : Nat) (v : Word) : State :=
  s.onRwl 0x0F1 0x40 w v (fun s =>
    if (List.range 8).all (fun n => s.pstate (grfPage n) == St.off) && s.grf.reqs.isEmpty then
      ((s.setCell R.GRF_NODE_CFG (v &&& 0x3FFFFFFF)).loadDirs).wrote 0x0F1 w
    else s.error 0x0F1 0xA018 0)

/-! ## Remote requests (R533 to R535, R547) -/

/-- The agent that a command names. -/
def agentOf : Requester → Agent
  | .rootstock => .none
  | .tile n => .tile n
  | .stage n => .stage n
  | .harvest => .hrv
  | .etuJob n => .etu n
  | .ringJob k => .job k

/-- A read served at once: its bytes wait for the agent. [DEDUCED: notes/assumptions/54.md] -/
def State.readHere (s : State) (d n : Nat) : State :=
  let f := s.fetch d n
  f.2.updGrf (fun g => { g with answers := g.answers ++ [⟨g.reader, 1, 0, d, f.1.bytes, f.1.poison, f.1.code⟩] })

/-- REMOTE_REQUEST: an access of `n` bytes to a global address (R533, R535); `kind` is 0 READ, 1 WRITE, 2 ADD32.
[DEDUCED: notes/assumptions/54.md] -/
def State.remoteAccess (s : State) (a : Agent) (kind d n mask : Nat) (data : List Byte) : State :=
  if natBits d 47 47 = 0 ∨ 2 ^ 48 ≤ d then s
  else
    let s := s.asAgent a
    if kind = 0 then
      if s.remoteLocked || globalNode d == s.nodeId then (pieces n d n).foldl (fun (s : State) x => s.readHere x.1 x.2) s
      else (pieces n d n).foldl (fun (s : State) x => s.sendRead x.1 x.2) s
    else if kind = 1 then s.write d data
    else s.add32 d mask ((List.range 16).map (fun i => fieldOf data (4 * i) 4)) false

/-! ## The commands -/

/-- LINK_TRAIN_DONE (R521). -/
def execLinkTrainDone (dt port : Nat) (s : State) : Host.Outcome State Fault Refusal := .next ((s.arrive dt).linkTrained port)

/-- LINK_ALIGN_DONE (R521). -/
def execLinkAlignDone (dt port : Nat) (s : State) : Host.Outcome State Fault Refusal := .next ((s.arrive dt).linkAligned port)

/-- GRF_EXCHANGE (R516, R524). -/
def execGrfExchange (dt port node dir : Nat) (cfg : Word) (seq : Nat) (s : State) : Host.Outcome State Fault Refusal :=
  .next ((s.arrive dt).linkExchange port node dir cfg seq)

/-- DATA_FLIT (R523). -/
def execDataFlit (dt port pos : Nat) (levels : List Nat) (s : State) : Host.Outcome State Fault Refusal :=
  .next ((s.arrive dt).dataFlit port pos levels)

/-- GRF_NAK (R523). -/
def execGrfNak (dt port seq : Nat) (s : State) : Host.Outcome State Fault Refusal := .next ((s.arrive dt).linkNak port seq)

/-- REPLAY_TIMEOUT (R523). -/
def execReplayTimeout (dt port : Nat) (s : State) : Host.Outcome State Fault Refusal := .next ((s.arrive dt).linkReplayTimeout port)

/-- LANE_LOCK_LOST (R524). -/
def execLaneLockLost (dt port lanes : Nat) (s : State) : Host.Outcome State Fault Refusal := .next ((s.arrive dt).laneLockLost port lanes)

/-- RECOVER_TIMEOUT (R524). -/
def execRecoverTimeout (dt port : Nat) (s : State) : Host.Outcome State Fault Refusal := .next ((s.arrive dt).recoverTimeout port)

/-- GRF_READ (R539). -/
def execGrfRead (dt port : Nat) (s : State) : Host.Outcome State Fault Refusal :=
  .next ((s.arrive dt).takeInbound port (fun p => p.ttype == 1) State.inRead)

/-- GRF_WRITE (R539). -/
def execGrfWrite (dt port : Nat) (s : State) : Host.Outcome State Fault Refusal :=
  .next ((s.arrive dt).takeInbound port (fun p => p.ttype == 2) State.inWrite)

/-- GRF_ADD32 (R539). -/
def execGrfAdd32 (dt port : Nat) (s : State) : Host.Outcome State Fault Refusal :=
  .next ((s.arrive dt).takeInbound port (fun p => p.ttype == 3) State.inAdd)

/-- GRF_GATHER (R540). -/
def execGrfGather (dt port : Nat) (s : State) : Host.Outcome State Fault Refusal :=
  .next ((s.arrive dt).takeInbound port (fun p => p.ttype == 4 && !s.tablePaused p) State.inGather)

/-- GRF_TADD (R540). -/
def execGrfTadd (dt port : Nat) (s : State) : Host.Outcome State Fault Refusal :=
  .next ((s.arrive dt).takeInbound port (fun p => p.ttype == 5 && !s.tablePaused p) State.inTadd)

/-- GRF_MESSAGE (R541). -/
def execGrfMessage (dt port : Nat) (s : State) : Host.Outcome State Fault Refusal :=
  .next ((s.arrive dt).takeInbound port (fun p => p.ttype == 6) (fun s p => s.mbMessage (p.operand % 256) p.data))

/-- GRF_BARRIER_ARRIVE (R545). -/
def execGrfBarrierArrive (dt port : Nat) (s : State) : Host.Outcome State Fault Refusal :=
  .next ((s.arrive dt).takeInbound port (fun p => p.isBar 0) State.inArrive)

/-- GRF_BARRIER_RELEASE (R545). -/
def execGrfBarrierRelease (dt port : Nat) (s : State) : Host.Outcome State Fault Refusal :=
  .next ((s.arrive dt).takeInbound port (fun p => p.isBar 1) State.inRelease)

/-- GRF_RSP_DATA (R537). -/
def execGrfRspData (dt port : Nat) (s : State) : Host.Outcome State Fault Refusal :=
  .next ((s.arrive dt).takeInbound port (fun p => p.ttype == 0x80) State.inRsp)

/-- GRF_RSP_ACK (R537). -/
def execGrfRspAck (dt port : Nat) (s : State) : Host.Outcome State Fault Refusal :=
  .next ((s.arrive dt).takeInbound port (fun p => p.ttype == 0x81) State.inRsp)

/-- TRANSIT_FORWARD (R530). -/
def execTransitForward (dt port : Nat) (s : State) : Host.Outcome State Fault Refusal := .next ((s.arrive dt).transit port)

/-- REMOTE_REQUEST (R535). -/
def execRemoteRequest (dt : Nat) (who : Requester) (kind addr n mask : Nat) (data : List Byte) (s : State) :
    Host.Outcome State Fault Refusal := .next ((s.arrive dt).remoteAccess (agentOf who) kind addr n mask data)

/-- REMOTE_TIMEOUT (R553). -/
def execRemoteTimeout (dt : Nat) (s : State) : Host.Outcome State Fault Refusal := .next ((s.arrive dt).remoteTimeout)

/-- LOST_SET (R553). -/
def execLostSet (dt w node : Nat) (s : State) : Host.Outcome State Fault Refusal :=
  .next ((s.arriveBy dt w).writeLostCtl w (word (1 * 2 ^ 16 + node % 2 ^ 15)))

/-- LOST_CLEAR (R553). -/
def execLostClear (dt w node : Nat) (s : State) : Host.Outcome State Fault Refusal :=
  .next ((s.arriveBy dt w).writeLostCtl w (word (2 * 2 ^ 16 + node % 2 ^ 15)))

/-- LOST_QUERY (R553). -/
def execLostQuery (dt w node : Nat) (s : State) : Host.Outcome State Fault Refusal :=
  .next ((s.arriveBy dt w).writeLostCtl w (word (3 * 2 ^ 16 + node % 2 ^ 15)))

/-- BAR_ARRIVE (R545). -/
def execBarArrive (dt w bar : Nat) (s : State) : Host.Outcome State Fault Refusal :=
  .next ((s.arriveBy dt w).writeBarCtl w (word (2 ^ 8 + bar % 16)))

/-- BAR_CFG_WRITE (R546). -/
def execBarCfgWrite (dt w bar : Nat) (v : Word) (s : State) : Host.Outcome State Fault Refusal :=
  .next ((s.arriveBy dt w).writeBarCfg w (bar % 16) v)

/-- BARRIER_TIMEOUT (R554). -/
def execBarrierTimeout (dt bar : Nat) (s : State) : Host.Outcome State Fault Refusal := .next ((s.arrive dt).barTimeout bar)

/-- NODE_CFG_WRITE (R557). -/
def execNodeCfgWrite (dt w : Nat) (v : Word) (s : State) : Host.Outcome State Fault Refusal := .next ((s.arriveBy dt w).writeNodeCfg w v)

end Sys2Proof.Machine
end

