-- ==== Sys2Proof/Machine/Hif.lean ====
section
/-! DEFINITION. The host interface: contexts and rings, jobs, resets of the interface, FUNC_CTX and MSI-X (spec/13_host_contexts_status.md,
R558 to R606; spec/19_startup_reset.md, R786, R793). -/

namespace Sys2Proof.Machine

/-! ## The link (R559, R603) -/

/-- L1_ENTRY (R559): after 64 µs with no TLP. [DEDUCED: notes/assumptions/57.md] -/
def State.enterL1 (s : State) : State :=
  if s.hif.linkUp = true ∧ s.hif.tlpAt + usCycles 64 ≤ s.cycles then s.updHif (fun h => { h with l1 := true }) else s

/-- POISONED_TLP (R603): a TLP that is poisoned, or with `ecrc` one that fails its ECRC where the host enabled the check, is discarded,
counted and reported through AER. [PRESUMED: notes/assumptions/57.md] -/
def State.poisonedTlp (s : State) (ecrc : Bool) : State :=
  if ecrc = true ∧ s.hif.pcie.ecrcCheck = false then s.hostTlp
  else (((s.hostTlp).updHif (fun h => { h with aerPoison := h.aerPoison || !ecrc, aerEcrc := h.aerEcrc || ecrc })).bump F.HIF_RX_POISON_CNT).event 0x100 2

/-- HOST_CONFIG_READY: the link is up with a speed and width, and a configuration request completes normally (R793); `cfg` is what the
host has configured (Table 13-1). [PRESUMED: notes/assumptions/57.md] -/
def State.hostReady (s : State) (speed width : Nat) (cfg : PcieCfg) : State :=
  let s := (s.hostTlp).updHif (fun h => { h with linkUp := true, pcie := cfg })
  ((s.setFld F.HIF_STATUS_SPEED speed).setFld F.HIF_STATUS_WIDTH width).setFld F.GLB_BOOT_STATUS_HOST_READY 1

/-! ## Contexts (R563 to R566, R572 to R574, R604) -/

/-- HEAD and TAIL of a ring. -/
def State.head (s : State) (ctx ring : Nat) : Nat := s.fld (F.CTX_RING_HEAD ctx ring)
def State.tail (s : State) (ctx ring : Nat) : Nat := s.fld (F.CTX_RING_TAIL ctx ring)

/-- Entries a ring holds (R572). -/
def State.entries (s : State) (ctx ring : Nat) : Nat := (s.tail ctx ring + 65536 - s.head ctx ring) % 65536

/-- A context is in FAULT; its other states follow from its rings. -/
def State.ctxFaulted (s : State) (ctx : Nat) : Bool := s.fld (F.CTX_STATUS_STATE ctx) == 2

/-- CTX_STATUS STATE (Table 13-12): 0 IDLE, 1 ACTIVE, 2 FAULT. -/
def State.ctxState (s : State) (ctx : Nat) : Nat :=
  if s.ctxFaulted ctx then 2
  else if (List.range 2).any (fun r => s.entries ctx r != 0 || (s.job ctx r).isSome) then 1 else 0

/-- A write through function `fn`'s view of a context page reaches it; the physical function's view of a virtual function's context is
read-only (R561, R565). A function in D3hot takes no memory access. [PRESUMED: notes/assumptions/57.md] -/
def State.throughView (s : State) (fn ctx : Nat) (f : State → State) : State :=
  let s := s.hostTlp
  if 4096 ≤ ctx ∨ (fn ≠ 0 ∧ s.hif.numVfs < fn) ∨ s.hif.pcie.asleep.contains fn = true then s
  else if s.ctxOwner ctx = fn then f s
  else if fn = 0 then s.bump F.HIF_BAR2_DISCARD_CNT
  else s

/-- A context faults (R604). -/
def State.ctxFault (s : State) (ctx code : Nat) : State :=
  if s.ctxFaulted ctx then s
  else
    let s := (s.setFld (F.CTX_STATUS_STATE ctx) 2).setFld (F.CTX_FAULT_CODE ctx) code
    let s := s.setCell (R.HIF_CTX_FAULT (ctx / 32)) (s.cell (R.HIF_CTX_FAULT (ctx / 32)) ||| (1#32 <<< (ctx % 32)))
    (s.event 0x100 0).signal (s.ctxOwner ctx) 1

/-- Key of a byte of ring memory. -/
def ringKey (ctx ring i : Nat) : Nat := ctx * 2048 + ring * 1024 + 64 * (i % 16)

/-- Bytes enter ring memory. -/
def ringWrite (m : Mem) (k : Nat) : List Byte → Mem
  | [] => m
  | b :: t => ringWrite (Sparse.set (fun _ => (0 : Byte)) m k b) (k + 1) t

/-- The 64 bytes of a ring entry. -/
def State.entry (s : State) (ctx ring i : Nat) : List Byte :=
  (List.range 64).map (fun o => Sparse.get (fun _ => (0 : Byte)) s.hif.ringMem (ringKey ctx ring i + o))

/-- A write of RING_TAIL (R573). -/
def State.setTail (s : State) (ctx ring v : Nat) : State :=
  if 16 < (v % 65536 + 65536 - s.head ctx ring) % 65536 then s.ctxFault ctx 0x1021 else s.setFld (F.CTX_RING_TAIL ctx ring) (v % 65536)

/-! ## Consumption and its checks (R575 to R580, R673) -/

/-- Rings that hold an entry, as context × 2 + ring: the registers of a ring at reset hold none. -/
def State.fullRings (s : State) : List Nat :=
  (s.regs.filterMap (fun (x : Nat × Word) =>
    let o := x.1 % 0x1000
    if 0x1000000 ≤ x.1 ∧ (o = 0x10 ∨ o = 0x14 ∨ o = 0x18 ∨ o = 0x1C) then some ((x.1 / 0x1000 - 0x1000) * 2 + (o - 0x10) / 8) else none)).filter
      (fun k => s.entries (k / 2) (k % 2) != 0)

/-- A ring may give its next entry. -/
def State.ringReady (s : State) (k : Nat) : Bool := (s.job (k / 2) (k % 2)).isNone && !s.ctxFaulted (k / 2)

/-- The ring that round robin serves next (R575). [DEDUCED: notes/assumptions/56.md] -/
def State.nextRing (s : State) : Option Nat :=
  (s.fullRings.filter s.ringReady).foldl (fun (a : Option Nat) k =>
    match a with
    | some b => if (k + 8192 - s.hif.robin) % 8192 < (b + 8192 - s.hif.robin) % 8192 then some k else a
    | none => some k) none

/-- Operand bytes that Table 13-4 lists for an opcode, as (first, count). -/
def operandBytes (opc : Nat) : List (Nat × Nat) :=
  if opc = 2 ∨ opc = 3 then [(8, 8), (0x10, 8), (0x18, 4)]
  else if opc = 4 then [(8, 2), (0xC, 4), (0x10, 8), (0x18, 8), (0x20, 8), (0x28, 4)]
  else if opc = 5 then [(8, 4), (0xC, 1)]
  else if opc = 6 ∨ opc = 7 then [(8, 2), (0xA, 2), (0xC, 4)]
  else if opc = 8 then [(8, 1), (9, 1), (0xA, 2), (0x10, 8)]
  else if opc = 9 then [(8, 1)]
  else []

/-- A field of a descriptor holds a value that Table 13-4 or R579 does not give. -/
def badOperand (b : List Byte) : Bool :=
  let g := fieldOf b
  let opc := g 0 1
  if opc = 4 then !(Nat.ble (g 8 1) 3 || g 8 1 == 0xFF) || Nat.blt 1 (g 9 1) || Nat.blt (g 0x20 8) (g 0x18 8)
  else if opc = 5 then Nat.blt 1 (g 0xC 1)
  else if opc = 6 ∨ opc = 7 then Nat.ble 0x1000 (g 8 2) || g 0xA 2 % 4 != 0 || Nat.ble 0x1000 (g 0xA 2) || (opc == 7 && g 0xC 4 != 0)
  else if opc = 8 then Nat.blt 7 (g 8 1) || !softwareType (g 9 1)
  else if opc = 9 then Nat.blt 15 (g 8 1)
  else false

/-- Check 1 of R577: the opcode, or a reserved field. [DEDUCED: notes/assumptions/56.md] -/
def jobMalformed (b : List Byte) : Bool :=
  let opc := fieldOf b 0 1
  let sb := fieldOf b 1 1
  opc == 0 || Nat.blt 9 opc || !(Nat.ble sb 15 || sb == 0xFF) || fieldOf b 2 2 != 0
    || (List.range 56).any (fun i => !((operandBytes opc).any (fun x => Nat.ble x.1 (8 + i) && Nat.blt (8 + i) (x.1 + x.2))) && fieldOf b (8 + i) 1 != 0)
    || badOperand b

/-- The bit of GRANTS that an opcode needs (Table 13-4); none for NOP. -/
def grantBit (opc : Nat) : Option Nat :=
  if opc = 2 ∨ opc = 3 then some 0
  else if opc = 4 then some 1
  else if opc = 5 then some 2
  else if opc = 6 ∨ opc = 7 then some 3
  else if opc = 8 then some 4
  else if opc = 9 then some 5
  else none

/-- TYPE of a page (Table 2-14); 0 on a reserved page. -/
def pageType (p : Nat) : Nat := match pageInfo p with | some i => i.type | none => 0

/-- Check 2 of R577: the grants of the owner, with REG_TYPES (R566, R578). -/
def State.notPermitted (s : State) (fn : Nat) (b : List Byte) : Bool :=
  if fn = 0 then false
  else
    let opc := fieldOf b 0 1
    let t := pageType (fieldOf b 8 2)
    (match grantBit opc with | some k => !bitOf (s.fld (F.HIF_FUNC_GRANT_GRANTS fn)) k | none => false)
      || ((opc == 6 || opc == 7) && (t == 0 || !bitOf (s.fld (F.HIF_FUNC_GRANT_REG_TYPES fn)) (t - 1)))

/-- Bytes from a window address to the end of its window (R568, R569). -/
def State.windowLeft (s : State) (ctx addr : Nat) : Nat :=
  if s.rawContext ctx then 2 ^ 64
  else
    let f := s.ctxOwner ctx
    s.fld (F.HIF_WIN_SIZE_PAGES (f / 8) (16 * (f % 8) + natBits addr 47 44)) * 4096 - natBits addr 43 0

/-- Check 3 of R577: the length fields. -/
def State.jobLength (s : State) (ctx : Nat) (b : List Byte) : Option Nat :=
  let g := fieldOf b
  let opc := g 0 1
  if opc = 2 ∨ opc = 3 then lengthCheck 32 (g 0x18 4) 0 (2 ^ 32) (s.windowLeft ctx (g 0x10 8))
  else if opc = 4 then lengthCheck 32 (g 0xC 4) 0 4194304 (g 0x28 4 / 16)
  else if opc = 8 then lengthCheck 16 (g 0xA 2) 0 65535 256
  else none

/-- The device address a job names, with the bytes and direction of its access: none for a job without one. -/
def jobAccess (b : List Byte) : Option (Nat × Nat × Bool) :=
  let g := fieldOf b
  let opc := g 0 1
  if opc = 2 then some (g 0x10 8, g 0x18 4, true)
  else if opc = 3 then some (g 0x10 8, g 0x18 4, false)
  else if opc = 4 ∧ g 9 1 = 1 then some (g 0x10 8, 16 * g 0xC 4, false)
  else if opc = 8 then some (g 0x10 8, g 0xA 2, false)
  else none

/-- The device address of a job; none when check 4 of R577 refuses it. -/
def State.jobPlace (s : State) (ctx : Nat) (b : List Byte) : Option Nat :=
  match jobAccess b with
  | some x => s.window ctx x.1 x.2.1 x.2.2
  | none => some 0

/-- Check 5 of R577: the device's mode (R579, R580, R673); 0 when the job fits. -/
def State.jobMode (s : State) (ctx opc : Nat) : Nat :=
  let st := s.pstate 0x010
  if s.romRecovery && (s.ctxOwner ctx != 0 || !([1, 2, 3, 6, 7].contains opc)) then 0x1020
  else if opc = 4 then
    if (s.page 0x010).cond.limited then 0x9001
    else if s.frm.freeRun && (st == St.armed || st == St.running) then 0 else 0x1020
  else if opc = 5 then (if !s.frm.freeRun && (st == St.armed || st == St.running || st == St.draining) then 0 else 0x1020)
  else 0

/-- The code with which a job is refused (R577, R605); 0 when it is accepted. [DEDUCED: notes/assumptions/56.md] -/
def State.jobRefusal (s : State) (ctx : Nat) (b : List Byte) : Nat :=
  if (s.page 0x100).cond.fault then 0x6025
  else if jobMalformed b then Err.fieldRange
  else if s.notPermitted (s.ctxOwner ctx) b then 0x8012
  else match s.jobLength ctx b with
    | some code => code
    | none => if (s.jobPlace ctx b).isNone then 0x8011 else s.jobMode ctx (fieldOf b 0 1)

/-- A job as its descriptor gives it. -/
def State.jobOf (s : State) (ctx : Nat) (b : List Byte) : Job :=
  let opc := fieldOf b 0 1
  let sb := fieldOf b 1 1
  { opc := opc, sb := if sb ≤ 15 then sb else 0xFF, tag := fieldOf b 4 4, bytes := b, acceptTs := s.timebase
    frame := if opc = 5 then fieldOf b 8 4 else 0
    waitNext := opc == 5 && fieldOf b 0xC 1 == 1
    link := if opc = 9 then fieldOf b 8 1 else (s.jobPlace ctx b).getD 0 }

/-- RING_ENTRY_CONSUME: the next eligible entry is copied, HEAD advances, and the checks run (R573, R575, R577).
[DEDUCED: notes/assumptions/56.md] -/
def State.consumeEntry (s : State) : State :=
  if (s.page 0x100).pausing then s
  else match s.nextRing with
  | none => s
  | some k =>
    let ctx := k / 2
    let ring := k % 2
    let b := s.entry ctx ring (s.head ctx ring)
    let s := (s.setFld (F.CTX_RING_HEAD ctx ring) ((s.head ctx ring + 1) % 65536)).updHif (fun h => { h with robin := (k + 1) % 8192 })
    let j := s.jobOf ctx b
    let code := s.jobRefusal ctx b
    if code ≠ 0 then s.jobDone ctx ring j code 0
    else (s.setJob ctx ring (some { j with phase := 1 })).writeStatus ctx j 1 0 0

/-! ## Jobs (R576 to R583, R602) -/

/-- The job of a ring, when it is accepted and has opcode `opc`. -/
def State.onJob (s : State) (ctx ring opc : Nat) (f : State → Job → State) : State :=
  match s.job ctx ring with
  | some j => if j.opc = opc ∧ j.phase = 1 then f s j else s
  | none => s

/-- A job begins its work: RUNNING (Table 13-6). -/
def State.jobBegin (s : State) (ctx ring : Nat) (j : Job) : State :=
  (s.setJob ctx ring (some { j with phase := 2 })).writeStatus ctx { j with phase := 2 } 2 0 0

/-- JOB_NOP. -/
def State.jobNop (s : State) (ctx ring : Nat) : State := s.onJob ctx ring 1 (fun s j => s.jobDone ctx ring j 0 0)

/-- JOB_COPY_IN: the transfer begins; `host` are the bytes as the host answered. -/
def State.jobCopyIn (s : State) (ctx ring : Nat) (host : List Byte) : State :=
  s.onJob ctx ring 2 (fun s j =>
    (s.hostIssue ctx (fieldOf j.bytes 8 8) (fieldOf j.bytes 0x18 4) false).jobBegin ctx ring { j with data := host.take (fieldOf j.bytes 0x18 4) })

/-- JOB_COPY_OUT: the transfer begins. -/
def State.jobCopyOut (s : State) (ctx ring : Nat) : State := s.onJob ctx ring 3 (fun s j => s.jobBegin ctx ring j)

/-- Bytes a COPY job moves. -/
def Job.copyBytes (j : Job) : Nat := fieldOf j.bytes 0x18 4

/-- The first `k` bytes of a COPY_IN are written at the device. -/
def State.copyWrite (s : State) (key k : Nat) (j : Job) : State := ((s.asAgent (.job key)).dropAcks (.job key)).write j.link (j.data.take k)

/-- A COPY_IN whose bytes are all here is written; once no write to another node is outstanding it completes (R543). -/
def State.copyInDone (s : State) (ctx ring : Nat) (j : Job) : State :=
  let key := ctx * 2 + ring
  let n := j.copyBytes
  let q : Job × State :=
    if j.phase = 3 then (j, s)
    else
      let j := { j with phase := 3, doneBytes := n }
      (j, (s.copyWrite key n j).setJob ctx ring (some j))
  if q.2.awaits (.job key) then q.2
  else (q.2.dropAcks (.job key)).jobDone ctx ring q.1 (q.2.answerCode (.job key)) 0

/-- A COPY_OUT reads its bytes and issues its host writes (R583). -/
def State.copyOutDone (s : State) (ctx ring : Nat) (j : Job) : State :=
  s.byAgent (.job (ctx * 2 + ring)) (fun s =>
    let n := j.copyBytes
    let r := s.fetch j.link n
    let s := (r.2.hostIssue ctx (fieldOf j.bytes 8 8) n true).updHif (fun h => { h with hostWrote := some (fieldOf j.bytes 8 8, r.1.bytes) })
    s.jobDone ctx ring { j with doneBytes := n } r.1.code 0)

/-- COPY_COMPLETE (R583). [DEDUCED: notes/assumptions/56.md] -/
def State.copyComplete (s : State) (ctx ring : Nat) : State :=
  match s.job ctx ring with
  | none => s
  | some j =>
    if j.phase < 2 then s
    else if j.opc = 2 then (if j.data.length < j.copyBytes then s else s.copyInDone ctx ring j)
    else if j.opc = 3 then s.copyOutDone ctx ring j
    else s

/-- A COPY stops after `k` bytes: what it has moved stands. [DESIGN CHOICE: notes/assumptions/9.md] -/
def State.copyCut (s : State) (ctx ring k : Nat) (j : Job) : State :=
  let key := ctx * 2 + ring
  if j.opc = 2 then (if j.phase = 3 then s else (s.copyWrite key k j).dropAcks (.job key))
  else
    let r := (s.asAgent (.job key)).fetch j.link k
    ((r.2.dropReads (.job key)).hostIssue ctx (fieldOf j.bytes 8 8) k true).updHif (fun h => { h with hostWrote := some (fieldOf j.bytes 8 8, r.1.bytes) })

/-- HOST_ACCESS_FAIL: a host access of a COPY fails after `k` bytes; the destination bytes beyond them are unspecified (R602).
[DEDUCED: notes/assumptions/56.md] -/
def State.hostAccessFail (s : State) (ctx ring k : Nat) : State :=
  match s.job ctx ring with
  | none => s
  | some j =>
    if j.phase = 2 ∧ (j.opc = 2 ∨ j.opc = 3) then
      let n := min k (if j.opc = 2 then min j.data.length j.copyBytes else j.copyBytes)
      let s := s.hostTlp.copyCut ctx ring n j
      let s := if j.opc = 2 then s.scramble false (j.link + n) (j.copyBytes - n) else s
      (s.hostDmaFail ctx).jobDone ctx ring { j with doneBytes := n } 0x4020 0
    else s

/-- JOB_FRAME: the job waits at the head of its ring, unless the Frame Scheduler has left the mode that R579 asks for. -/
def State.jobFrame (s : State) (ctx ring : Nat) : State :=
  s.onJob ctx ring 4 (fun s j =>
    let code := s.jobMode ctx 4
    if code = 0 then s else s.jobDone ctx ring j code 0)

/-- Frame `n` is ahead of the frame last entered compute: it lies within 2^31 of it and is in ingest or closing, or its number has
not been consumed (R580). [DEDUCED: notes/assumptions/56.md] -/
def State.frameAhead (s : State) (n : Nat) : Bool :=
  let d := (n + 2 ^ 32 - s.frm.lastCompute) % 2 ^ 32
  let c := (n + 2 ^ 32 - s.frm.lastNum) % 2 ^ 32
  let holds := fun (f : Option Frame) => match f with | some f => f.num == n | none => false
  Nat.blt 0 d && Nat.ble d (2 ^ 31) && (holds s.frm.ingest || holds s.frm.closing || !s.frm.consumed || (Nat.blt 0 c && Nat.ble c (2 ^ 31)))

/-- The CRC in the header of a published frame. -/
def State.publishedCrc (s : State) (f : Frame) : Nat := leNat (s.read (resultAddr f.set 0x3C) 4).bytes

/-- JOB_WAIT_FRAME (R580). [DEDUCED: notes/assumptions/56.md] -/
def State.jobWaitFrame (s : State) (ctx ring : Nat) : State :=
  s.onJob ctx ring 5 (fun s j =>
    if j.waitNext || j.follows then s
    else
      let k := { j with follows := true, phase := 2 }
      let inCompute := match s.frm.compute with | some f => f.num == j.frame | none => false
      if inCompute then (s.setJob ctx ring (some k)).writeStatus ctx k 2 0 0
      else match s.frm.publish with
        | some f =>
          if f.num = j.frame then s.jobDone ctx ring k (if f.hostFail then 0x4020 else 0) (s.publishedCrc f)
          else if s.frameAhead j.frame then s
          else s.jobDone ctx ring j 0x3008 0
        | none => if s.frameAhead j.frame then s else s.jobDone ctx ring j 0x3008 0)

/-- JOB_DOWNLINK (R581): the message enters the lane's queue. -/
def State.jobDownlink (s : State) (ctx ring : Nat) : State :=
  s.onJob ctx ring 8 (fun s j =>
    let key := ctx * 2 + ring
    let lane := fieldOf j.bytes 8 1
    s.byAgent (.job key) (fun s =>
      let r := s.fetch j.link (fieldOf j.bytes 0xA 2)
      if r.1.code ≠ 0 then r.2.jobDone ctx ring j r.1.code 0
      else
        let k := { j with aux := (s.lane lane).dlSeq }
        match r.2.enqueueDl lane (fieldOf j.bytes 9 1) r.1.bytes (some key) with
        | some t => t.jobBegin ctx ring k
        | none => r.2.jobDone ctx ring j 0xA007 0))

/-- JOB_BARRIER (R582). -/
def State.jobBarrier (s : State) (ctx ring : Nat) : State :=
  s.onJob ctx ring 9 (fun s j =>
    let st := s.fld (F.GRF_BAR_STATUS_STATE j.link)
    if st = 1 then s.jobDone ctx ring j 0xA018 0
    else if st = 2 then s.jobDone ctx ring j 0x4013 0
    else (s.jobBegin ctx ring j).barArrive j.link)

/-! ## Resets (R596 to R598, R620, R636, R786) -/

/-- A queued downlink message is no longer a job's. [DEDUCED: notes/assumptions/41.md] -/
def detach (key : Nat) (m : DlMsg) : DlMsg := if m.job = some key then { m with job := none } else m

/-- The messages that a ring's job queued are still sent, for no job (R596). -/
def State.detachDl (s : State) (key : Nat) : State :=
  (List.range 8).foldl (fun (s : State) n =>
    s.updLane n (fun l => { l with dlQueue := l.dlQueue.map (detach key), wire := l.wire.map (detach key) })) s

/-- The job of a ring ends with a context reset (R596): one that has not started leaves no status, a running one is ABORTED. How far a
COPY came is free. -/
def State.resetJob (s : State) (ctx ring : Nat) : State :=
  match s.job ctx ring with
  | none => s
  | some j =>
    let key := ctx * 2 + ring
    if j.phase = 1 ∧ j.opc ≠ 5 then s.setJob ctx ring none
    else if j.opc = 2 ∨ j.opc = 3 then
      let n := if j.phase = 3 then j.copyBytes else s.freeVal % (1 + (if j.opc = 2 then min j.data.length j.copyBytes else j.copyBytes))
      (s.drawFree.copyCut ctx ring n j).jobAborted ctx ring { j with doneBytes := n } 0xA019
    else (s.detachDl key).jobAborted ctx ring j 0xA019

/-- A context reset (R596, R620). -/
def State.ctxReset (s : State) (ctx : Nat) : State :=
  let s := (s.resetJob ctx 0).resetJob ctx 1
  let s := (List.range 2).foldl (fun (s : State) r => (s.setFld (F.CTX_RING_HEAD ctx r) 0).setFld (F.CTX_RING_TAIL ctx r) 0) s
  let s := (s.setFld (F.CTX_STATUS_STATE ctx) 0).setFld (F.CTX_FAULT_CODE ctx) 0
  let s := s.setCell (R.HIF_CTX_FAULT (ctx / 32)) (s.cell (R.HIF_CTX_FAULT (ctx / 32)) &&& ~~~(1#32 <<< (ctx % 32)))
  s.privDropCtx ctx

/-- The contexts that hold anything but reset values. -/
def State.usedContexts (s : State) : List Nat :=
  ((s.regs.filterMap (fun (x : Nat × Word) => if 0x1000000 ≤ x.1 then some (x.1 / 0x1000 - 0x1000) else none))
    ++ (s.hif.jobs.map (fun (x : Nat × Option Job) => x.1 / 2)) ++ s.hif.posted.map (fun (x : Nat × Nat) => x.1)).eraseDups

/-- CTX_CTL RESET through the view of function `fn` (R565, R596). -/
def State.ctxCtl (s : State) (fn ctx : Nat) : State := s.throughView fn ctx (fun s => s.ctxReset ctx)

/-- The contexts of function `fn` that hold anything are reset. -/
def State.resetOwned (s : State) (fn : Nat) : State :=
  (s.usedContexts.filter (fun c => s.ctxOwner c == fn)).foldl (fun (s : State) c => s.ctxReset c) s

/-- The MSI-X table of a virtual function returns to reset. [DEDUCED: notes/assumptions/58.md] -/
def State.resetVfMsix (s : State) (fn : Nat) : State :=
  s.updHif (fun h => { h with vfMsix := Sparse.drop h.vfMsix (fun k => k / 128 == fn), vfPending := h.vfPending.filter (fun k => k / 32 != fn) })

/-- What a reset of virtual function `fn` does (R597, R636, Table 2-11). [DEDUCED: notes/assumptions/57.md] -/
def State.vfReset (s : State) (fn : Nat) : State :=
  (((s.resetOwned fn).abandonLocks (· == Writer.vf fn)).resetVfMsix fn).resetDoorbell fn

/-- VF_FLR (R597). [DEDUCED: notes/assumptions/57.md] -/
def State.vfFlr (s : State) (fn : Nat) : State :=
  if 1 ≤ fn ∧ fn ≤ s.hif.numVfs then
    (s.hostTlp.updHif (fun h => { h with pcie := { h.pcie with asleep := h.pcie.asleep.filter (· != fn) } })).vfReset fn
  else s

/-- Every context belongs to the physical function again; those that change owner are reset (R564). -/
def State.ownAll (s : State) : State :=
  (s.usedContexts.filter (fun c => s.ctxOwner c != 0)).foldl (fun (s : State) c => (s.setFld (F.CTX_INFO_OWNER c) 0).ctxReset c) s

/-- HIF pages 0x100 to 0x10B return to their reset values (R598). [DEDUCED: notes/assumptions/57.md] -/
def State.resetHifPages (s : State) : State :=
  let inHif := fun (p : Nat) => Nat.ble 0x100 p && Nat.ble p 0x10B
  let s := { s with regs := Sparse.drop s.regs (fun k => inHif (k / 0x1000)), hdr := Sparse.drop s.hdr inHif }
  s.ownAll

/-- A function-level reset of the physical function, a hot reset or link down (R598): every context, every virtual function, the HIF
pages and VF Enable. With `down` the link goes down. [DEDUCED: notes/assumptions/57.md] -/
def State.pfReset (s : State) (down : Bool) : State :=
  let speed := s.fld F.HIF_STATUS_SPEED
  let width := s.fld F.HIF_STATUS_WIDTH
  let s := s.usedContexts.foldl (fun (s : State) c => s.ctxReset c) s
  let s := s.vfs.foldl (fun (s : State) fn => s.vfReset fn) s
  let s := ((s.abandonLocks (· == Writer.pf)).resetDoorbell 0).resetHifPages
  let s := s.updHif (fun h => { h with vfEnable := false, numVfs := 0, vfMsix := [], vfPending := [], robin := 0, l1 := false, pcie := {}, linkUp := h.linkUp && !down })
  if down then s else (s.setFld F.HIF_STATUS_SPEED speed).setFld F.HIF_STATUS_WIDTH width

/-! ## FUNC_CTX and MSI-X (R563, R564, R595) -/

/-- A context lies in a range of CTX_BASE and CTX_COUNT. -/
def inRange (base count ctx : Nat) : Bool := Nat.ble base ctx && Nat.blt ctx (base + count)

/-- The contexts that leave and that enter the range of a function as FUNC_CTX_n takes `v`. -/
def State.ctxMoves (s : State) (n : Nat) (v : Word) : List Nat × List Nat :=
  let b0 := s.fld (F.HIF_FUNC_CTX_CTX_BASE n)
  let n0 := s.fld (F.HIF_FUNC_CTX_CTX_COUNT n)
  let b1 := getBits v 11 0
  let n1 := getBits v 19 12
  (((List.range n0).map (b0 + ·)).filter (fun c => Nat.blt c 4096 && !inRange b1 n1 c),
   ((List.range n1).map (b1 + ·)).filter (fun c => Nat.blt c 4096 && !inRange b0 n0 c))

/-- A write of FUNC_CTX_n moves a context that is not IDLE with empty rings: it is discarded (R564). -/
def State.funcCtxBusy (s : State) (n : Nat) (v : Word) : Bool :=
  let m := s.ctxMoves n v
  (m.1 ++ m.2).any (fun c => s.ctxState c != 0)

/-- A write of FUNC_CTX_n takes effect (R564): contexts that enter or leave the range move, and are reset.
[DEDUCED: notes/assumptions/57.md] -/
def State.funcCtx (s : State) (n : Nat) (v : Word) : State :=
  let m := s.ctxMoves n v
  let s := s.setCell (R.HIF_FUNC_CTX n) (v &&& 0x000FFFFF)
  let s := m.1.foldl (fun (s : State) c => (s.setFld (F.CTX_INFO_OWNER c) 0).ctxReset c) s
  m.2.foldl (fun (s : State) c => (s.setFld (F.CTX_INFO_OWNER c) n).ctxReset c) s

/-- FUNC_CTX_WRITE by `w`. -/
def State.writeFuncCtx (s : State) (w n : Nat) (v : Word) : State :=
  if 1 ≤ n ∧ n ≤ 63 then s.onRwl 0x101 (0x40 + 8 * n) w v (fun s =>
    if s.funcCtxBusy n v then s.error 0x101 0xA01A 0 else (s.funcCtx n v).wrote 0x101 w) else s

/-- The bits of word `k` of an MSI-X table that hold a value: the address is of a 32-bit word, and vector control has its mask bit only
(PRESUMED, "Per PCI Express" in Table 13-11: notes/assumptions/3.md). -/
def msixHeld (k : Nat) (v : Word) : Word := if k % 4 = 0 then v &&& 0xFFFFFFFC#32 else if k % 4 = 3 then v &&& 1#32 else v

/-- Word `k` of the physical function's MSI-X table takes a value; a pending vector that becomes unmasked sends its message. -/
def State.msixWord (s : State) (k : Nat) (v : Word) : State :=
  let vec := k / 4
  let s := s.setCell (R.HIF_MSIX k) (msixHeld k v)
  if k % 4 = 3 ∧ getBits v 0 0 = 0 ∧ bitOf (s.cell R.HIF_MSIX_PBA).toNat vec = true then
    (s.setCell R.HIF_MSIX_PBA (s.cell R.HIF_MSIX_PBA &&& ~~~(1#32 <<< vec))).updHif (fun h => { h with msixSent := h.msixSent ++ [vec] })
  else s

/-- Word `k` of a virtual function's MSI-X table takes a value (R561); a pending vector that becomes unmasked sends its message. -/
def State.vfMsixWord (s : State) (fn k : Nat) (v : Word) : State :=
  let vec := fn * 32 + k / 4
  let s := s.updHif (fun h => { h with vfMsix := Sparse.set vfWordDefault h.vfMsix (fn * 128 + k) (msixHeld k v) })
  if k % 4 = 3 ∧ getBits v 0 0 = 0 ∧ s.hif.vfPending.contains vec = true then
    s.updHif (fun h => { h with vfPending := h.vfPending.filter (· != vec), msixSent := h.msixSent ++ [vec] })
  else s

/-- MSIX_UNMASK (R595): vector `v` of function `fn` is unmasked by its owner.
[PRESUMED: notes/assumptions/3.md; DEDUCED: notes/assumptions/58.md] -/
def State.msixUnmask (s : State) (fn v : Nat) : State :=
  if fn = 0 then
    s.hostTlp.onWrite 0x10B (0x80C + 16 * (v % 32)) Writer.pf 0 (fun s => (s.msixWord (4 * (v % 32) + 3) 0).wrote 0x10B Writer.pf)
  else if s.hif.numVfs < fn ∨ 32 ≤ v then s
  else s.hostTlp.vfMsixWord fn (4 * v + 3) 0

/-! ## The commands -/

/-- RING_ENTRY_CONSUME (R575). -/
def execRingEntryConsume (dt : Nat) (s : State) : Host.Outcome State Fault Refusal := .next ((s.arrive dt).consumeEntry)

/-- JOB_NOP (R576). -/
def execJobNop (dt ctx ring : Nat) (s : State) : Host.Outcome State Fault Refusal := .next ((s.arrive dt).jobNop ctx ring)

/-- JOB_COPY_IN (R576). -/
def execJobCopyIn (dt ctx ring : Nat) (host : List Byte) (s : State) : Host.Outcome State Fault Refusal :=
  .next ((s.arrive dt).jobCopyIn ctx ring host)

/-- JOB_COPY_OUT (R583). -/
def execJobCopyOut (dt ctx ring : Nat) (s : State) : Host.Outcome State Fault Refusal := .next ((s.arrive dt).jobCopyOut ctx ring)

/-- COPY_COMPLETE (R583). -/
def execCopyComplete (dt ctx ring : Nat) (s : State) : Host.Outcome State Fault Refusal := .next ((s.arrive dt).copyComplete ctx ring)

/-- JOB_FRAME (R579). -/
def execJobFrame (dt ctx ring : Nat) (s : State) : Host.Outcome State Fault Refusal := .next ((s.arrive dt).jobFrame ctx ring)

/-- JOB_WAIT_FRAME (R580). -/
def execJobWaitFrame (dt ctx ring : Nat) (s : State) : Host.Outcome State Fault Refusal := .next ((s.arrive dt).jobWaitFrame ctx ring)

/-- JOB_DOWNLINK (R581). -/
def execJobDownlink (dt ctx ring : Nat) (s : State) : Host.Outcome State Fault Refusal := .next ((s.arrive dt).jobDownlink ctx ring)

/-- JOB_BARRIER (R582). -/
def execJobBarrier (dt ctx ring : Nat) (s : State) : Host.Outcome State Fault Refusal := .next ((s.arrive dt).jobBarrier ctx ring)

/-- CTX_RESET (R596). -/
def execCtxReset (dt fn ctx : Nat) (s : State) : Host.Outcome State Fault Refusal := .next ((s.arrive dt).ctxCtl fn ctx)

/-- VF_FLR (R597). -/
def execVfFlr (dt fn : Nat) (s : State) : Host.Outcome State Fault Refusal := .next ((s.arrive dt).vfFlr fn)

/-- PF_FLR (R598): `down` says that the link goes down with it. -/
def execPfFlr (dt : Nat) (down : Bool) (s : State) : Host.Outcome State Fault Refusal := .next ((s.arrive dt).pfReset down)

/-- PERST (R786). -/
def execPerst (dt : Nat) (s : State) : Host.Outcome State Fault Refusal := .next ((s.arrive dt).pfReset true)

/-- HOST_ACCESS_FAIL (R602). -/
def execHostAccessFail (dt ctx ring k : Nat) (s : State) : Host.Outcome State Fault Refusal :=
  .next ((s.arrive dt).hostAccessFail ctx ring k)

/-- POISONED_TLP (R603). -/
def execPoisonedTlp (dt : Nat) (ecrc : Bool) (s : State) : Host.Outcome State Fault Refusal := .next ((s.arrive dt).poisonedTlp ecrc)

/-- FUNC_CTX_WRITE (R564). -/
def execFuncCtxWrite (dt w fn : Nat) (v : Word) (s : State) : Host.Outcome State Fault Refusal := .next ((s.arriveBy dt w).writeFuncCtx w fn v)

/-- MSIX_UNMASK (R595). -/
def execMsixUnmask (dt fn vec : Nat) (s : State) : Host.Outcome State Fault Refusal := .next ((s.arrive dt).msixUnmask fn vec)

/-- L1_ENTRY (R559). -/
def execL1Entry (dt : Nat) (s : State) : Host.Outcome State Fault Refusal := .next ((s.arrive dt).enterL1)

/-- HOST_CONFIG_READY (R793). -/
def execHostConfigReady (dt speed width : Nat) (cfg : PcieCfg) (s : State) : Host.Outcome State Fault Refusal :=
  .next ((s.arrive dt).hostReady speed width cfg)

end Sys2Proof.Machine
end

