-- ==== Sys2Proof/Machine/MbxRows.lean ====
section
/-! DEFINITION. The commands of the private channels, shared mailboxes and doorbells (spec/14_mailboxes_doorbells.md, R607 to R641;
spec/15_rootstock.md, R650). -/

namespace Sys2Proof.Machine

/-! ## Private channels (R609 to R619) -/

/-- MBX_SLOT_BUSY (R611). -/
def State.slotBusy (s : State) (ctx slot : Nat) : State :=
  (((s.bump F.MBX_PRIV_DISCARD_CNT).error 0x110 0xA01D (word (slot * 2 ^ 12 + ctx))).event 0x110 3).privLast 0xA01D ctx slot

/-- A slot whose STATE the host wrote as 1 is posted (R608, R612, R617). [DEDUCED: notes/assumptions/59.md] -/
def State.privPost (s : State) (ctx slot : Nat) : State :=
  let s := s.bump F.MBX_PRIV_POST_CNT
  match lengthCheck 8 (s.privByte ctx slot 1) 0 255 48 with
  | some code => ((s.setPriv ctx slot 3 [3]).error 0x110 code (infoStruct 1)).privLast code ctx slot
  | none =>
    let queue := s.postAt (ctx, slot) s.hif.posted
    let s := s.setPriv ctx slot 3 ([(1 : Byte)] ++ leBytes 2 (0x3000 + ctx) ++ leBytes 2 s.nodeId ++ leBytes 8 s.timebase)
    let s := s.updHif (fun h => { h with posted := queue })
    if s.rstAway && s.privAbort ctx then s.privDrop ctx slot
    else if s.fld F.MBX_RST_RX_STATE = 1 then s.setRstRx 0
    else s

/-- Sizes and alignment that a private slot accepts (R571). -/
def slotPiece (off n : Nat) : Bool := [1, 2, 4, 8, 16, 32, 64].contains n && off % n == 0 && Nat.ble (off + n) 64

/-- The bytes of a host write with byte 3 of the slot left as it is. -/
def State.privKeep (s : State) (ctx slot off : Nat) (bs : List Byte) : List Byte :=
  (List.range bs.length).map (fun i => if off + i = 3 then BitVec.ofNat 8 (s.privState ctx slot) else bs.getD i 0)

/-- Bytes written by the context's owner reach a private slot (R609 to R611). [DEDUCED: notes/assumptions/59.md] -/
def State.privWrite (s : State) (ctx slot off : Nat) (bs : List Byte) : State :=
  if 8 ≤ slot ∨ slotPiece off bs.length = false then s
  else if s.privState ctx slot = 1 then s.slotBusy ctx slot
  else if off ≤ 3 ∧ 3 < off + bs.length then
    let v := (bs.getD (3 - off) 0).toNat
    if 1 < v then s.bump F.MBX_PRIV_DISCARD_CNT
    else
      let s := s.setPriv ctx slot off (s.privKeep ctx slot off bs)
      if v = 1 then s.privPost ctx slot else s.setPriv ctx slot 3 [0]
  else s.setPriv ctx slot off bs

/-- A host write of bytes to a private slot through a function's view (R565, R609 to R611). -/
def State.privHost (s : State) (fn ctx slot off : Nat) (bs : List Byte) : State := s.throughView fn ctx (fun s => s.privWrite ctx slot off bs)

/-! ## Rootstock's requests (R614, R615, R650) -/

/-- The payload of a private slot. -/
def State.privPayload (s : State) (ctx slot o n : Nat) : Nat :=
  leNat ((List.range n).map (fun i => BitVec.ofNat 8 (s.privByte ctx slot (0x10 + o + i))))

/-- An unknown request (R650). [DEDUCED: notes/assumptions/59.md] -/
def State.unknownRequest (s : State) (ctx type : Nat) : State :=
  (s.bump F.RST_UNKNOWN_CNT).error 0x130 0x1030 (word (ctx * 2 ^ 8 + type))

/-- HOST_NOTE (R650): an entry of severity INFO, or an unknown request where its CODE is out of range. [DEDUCED: notes/assumptions/59.md] -/
def State.hostNote (s : State) (ctx slot : Nat) : State :=
  let code := s.privPayload ctx slot 0 2
  if s.privPayload ctx slot 2 2 ≠ 0 then s.error 0x130 Err.fieldRange (infoStruct 0x12)
  else if code < 0x100 ∨ 0x1FF < code then s.unknownRequest ctx 2
  else s.logged ⟨s.timebase, code, word (s.privPayload ctx slot 4 4), 0x3FF, false, 2⟩

/-- Rootstock acts on a taken slot (Table 15-3). -/
def State.rstRequest (s : State) (ctx slot : Nat) : State :=
  let type := s.privByte ctx slot 0
  let len := s.privByte ctx slot 1
  if type = 1 ∧ len = 16 then
    if s.privPayload ctx slot 4 4 ≠ 0 then s.error 0x130 Err.fieldRange (infoStruct 0x14)
    else s.timeSample ctx (s.privPayload ctx slot 0 4) (s.privPayload ctx slot 8 8)
  else if type = 2 ∧ len = 8 then s.hostNote ctx slot
  else s.unknownRequest ctx type

/-- Rootstock takes the oldest posted slot, if its TYPE satisfies `who`, and acts on it. [DEDUCED: notes/assumptions/59.md] -/
def State.privTake (s : State) (who : Nat → Bool) : State :=
  if s.rstUp = false then s
  else match s.hif.posted with
  | [] => s
  | (ctx, slot) :: rest =>
    if who (s.privByte ctx slot 0) then
      (((s.updHif (fun h => { h with posted := rest })).setRstRx 0).setPriv ctx slot 3 [2]).rstRequest ctx slot
    else s

/-- A write of PRIV_POLICY_k (R617). -/
def State.privPolicy (s : State) (k : Nat) (v : Word) : State :=
  let s := s.setCell (R.MBX_PRIV_POLICY k) v
  if s.rstAway then (s.hif.posted.filter (fun x => x.1 / 32 == k && s.privAbort x.1)).foldl (fun (s : State) x => s.privDrop x.1 x.2) s else s

/-- PRIV_POLICY_WRITE by `w`. -/
def State.writePrivPolicy (s : State) (w k : Nat) (v : Word) : State :=
  s.onRwl 0x111 (0x40 + 4 * k) w v (fun s => (s.privPolicy k v).wrote 0x111 w)

/-! ## Shared mailboxes and doorbells (R622 to R635, R641) -/

/-- SEND_CMD: SEND_STAGE_RST for Rootstock and the debugger, SEND_STAGE_PF for the physical function (R622, R641). -/
def stageReg (rst : Bool) (k : Nat) : Nat := if rst then R.MBX_SEND_STAGE_RST k else R.MBX_SEND_STAGE_PF k
def State.staged (s : State) (rst : Bool) : List Byte := (List.range 16).flatMap (fun k => leBytes 4 (s.cell (stageReg rst k)).toNat)

/-- The staging registers of this view are `w`'s (R641). -/
def stageWriter (rst : Bool) (w : Nat) : Bool := if rst then Writer.isMgmt w else w == Writer.pf

/-- SENDER of a register send (Table 14-2). [DEDUCED: notes/assumptions/60.md] -/
def senderCode (w : Nat) : Nat := if w = 0x01 then 0 else if w = 0x02 then 0x1000 else 0x2000 + (w - 0x40)

/-- A write of SEND_CMD_RST or SEND_CMD_PF by `w`. [DEDUCED: notes/assumptions/60.md] -/
def State.writeSendCmd (s : State) (rst : Bool) (w : Nat) (v : Word) : State :=
  s.onWrite 0x110 (if rst then 0x50 else 0x54) w v (fun s =>
    if stageWriter rst w then
      let s := s.wrote 0x110 w
      if getBits v 8 8 = 1 then (s.mbSend (getBits v 7 0) (s.staged rst) (senderCode w)).1 else s
    else s.bump F.MBX_REFUSED_CNT)

/-- A write of a staging register (R641). -/
def State.writeStage (s : State) (rst : Bool) (w k : Nat) (v : Word) : State :=
  s.onWrite 0x110 ((if rst then 0x80 else 0xC0) + 4 * k) w v (fun s =>
    if stageWriter rst w then (s.setCell (stageReg rst k) v).wrote 0x110 w else s.bump F.MBX_REFUSED_CNT)

/-- MAILBOX_SEND: an on-die agent writes `bytes` at offset `off` of a slot line through the device-address view (R622, R626). -/
def State.areaSend (s : State) (a : Agent) (mailbox off : Nat) (bytes : List Byte) : State :=
  if s.flag F.MBX_CFG_AREA_EN = true ∧ mailbox < 256 ∧ off + bytes.length ≤ 64 then
    ((s.asAgent a).dropAcks a).areaWrite (64 * mailbox + off) bytes
  else s

/-- Offsets of mailbox and doorbell words on their pages (R641). -/
def mbPage (m : Nat) : Nat := 0x112 + m / 32
def mbOff (m i : Nat) : Nat := 0x40 + 16 * (m % 32) + 4 * i
def dbOff (r i : Nat) : Nat := 0x40 + 16 * r + 4 * i

/-- MB_TAKE by a writer (R624). -/
def State.writeMbTake (s : State) (w m : Nat) (v : Word) : State :=
  s.onWrite (mbPage m) (mbOff m 2) w v (fun s => (s.mbTake m v.toNat).wrote (mbPage m) w)

/-- A write to doorbell word `i` of receiver `r`: 0 PEND, 1 MASK, 2 WAKE, 3 RING (R634, R635). -/
def State.writeDb (s : State) (w r i : Nat) (v : Word) : State :=
  if 128 < r ∨ 3 < i then s
  else s.onWrite 0x11A (dbOff r i) w v (fun s =>
    (if i = 0 then s.clearPend r v else if i = 1 then s.setMask r v else if i = 2 then s.setWake r v else s.ring r v).wrote 0x11A w)

/-- A write of MBX_CFG, MBX_AREA_LO or MBX_AREA_HI at its offset (R632). -/
def State.writeMbxCfg (s : State) (w off : Nat) (v : Word) : State :=
  if off ≠ 0x40 ∧ off ≠ 0x44 ∧ off ≠ 0x48 then s
  else s.onRwl 0x110 off w v (fun s =>
    if (s.page 0x110).enable then s.error 0x110 0xA01E 0
    else
      let s := if off = 0x40 then s.setFld F.MBX_CFG_AREA_EN (getBits v 0 0)
        else if off = 0x44 then s.setFld F.MBX_AREA_LO_ADDR (getBits v 31 15)
        else s.setFld F.MBX_AREA_HI_ADDR (getBits v 15 0)
      s.wrote 0x110 w)

/-! ## The commands -/

/-- PRIVATE_POST (R610): a host write of `bytes` at offset `off` of a private slot. -/
def execPrivatePost (dt fn ctx slot off : Nat) (bytes : List Byte) (s : State) : Host.Outcome State Fault Refusal :=
  .next ((s.arrive dt).privHost fn ctx slot off bytes)

/-- PRIVATE_SLOT_FREE (R610): a host write of 0 into STATE. -/
def execPrivateSlotFree (dt fn ctx slot : Nat) (s : State) : Host.Outcome State Fault Refusal :=
  .next ((s.arrive dt).privHost fn ctx slot 3 [0])

/-- PRIVATE_TAKE (R614). -/
def execPrivateTake (dt : Nat) (s : State) : Host.Outcome State Fault Refusal := .next ((s.arrive dt).privTake (fun _ => true))

/-- HOST_NOTE (R650): Rootstock takes the oldest posted slot when it holds a HOST_NOTE. -/
def execHostNote (dt : Nat) (s : State) : Host.Outcome State Fault Refusal := .next ((s.arrive dt).privTake (· == 2))

/-- PRIV_POLICY_WRITE (R617). -/
def execPrivPolicyWrite (dt w k : Nat) (v : Word) (s : State) : Host.Outcome State Fault Refusal :=
  .next ((s.arriveBy dt w).writePrivPolicy w (k % 128) v)

/-- MAILBOX_SEND (R623). -/
def execMailboxSend (dt : Nat) (who : Requester) (mailbox off : Nat) (bytes : List Byte) (s : State) :
    Host.Outcome State Fault Refusal := .next ((s.arrive dt).areaSend (agentOf who) mailbox off bytes)

/-- SEND_CMD_RST (R622). -/
def execSendCmdRst (dt w mailbox : Nat) (s : State) : Host.Outcome State Fault Refusal :=
  .next ((s.arriveBy dt w).writeSendCmd true w (word (2 ^ 8 + mailbox % 256)))

/-- SEND_CMD_PF (R622). -/
def execSendCmdPf (dt w mailbox : Nat) (s : State) : Host.Outcome State Fault Refusal :=
  .next ((s.arriveBy dt w).writeSendCmd false w (word (2 ^ 8 + mailbox % 256)))

/-- MB_TAKE (R624). -/
def execMbTake (dt w mailbox : Nat) (v : Word) (s : State) : Host.Outcome State Fault Refusal :=
  .next ((s.arriveBy dt w).writeMbTake w (mailbox % 256) v)

/-- DB_RING (R634). -/
def execDbRing (dt w receiver : Nat) (v : Word) (s : State) : Host.Outcome State Fault Refusal :=
  .next ((s.arriveBy dt w).writeDb w receiver 3 v)

/-- DB_PEND_CLEAR (R634). -/
def execDbPendClear (dt w receiver : Nat) (v : Word) (s : State) : Host.Outcome State Fault Refusal :=
  .next ((s.arriveBy dt w).writeDb w receiver 0 v)

/-- DB_MASK_WRITE (R635). -/
def execDbMaskWrite (dt w receiver : Nat) (v : Word) (s : State) : Host.Outcome State Fault Refusal :=
  .next ((s.arriveBy dt w).writeDb w receiver 1 v)

/-- MBX_CFG_WRITE (R632): `off` is 0x40 for MBX_CFG, 0x44 for MBX_AREA_LO, 0x48 for MBX_AREA_HI. -/
def execMbxCfgWrite (dt w off : Nat) (v : Word) (s : State) : Host.Outcome State Fault Refusal :=
  .next ((s.arriveBy dt w).writeMbxCfg w off v)

end Sys2Proof.Machine
end

