-- ==== Sys2Proof/Machine/Bar2.lean ====
section
/-! DEFINITION. BAR 2: what a function reads and writes in it, its context pages and a virtual function's MSI-X table
(spec/13_host_contexts_status.md, R561, R565, R570 to R573). -/

namespace Sys2Proof.Machine

/-- The context whose page is page `k` of a function's BAR 2 (R561, R570). -/
def State.viewCtx (s : State) (fn k : Nat) : Option Nat :=
  if fn = 0 then (if k < 4096 then some k else none)
  else if k < 255 ∧ k < s.fld (F.HIF_FUNC_CTX_CTX_COUNT fn) then some (s.fld (F.HIF_FUNC_CTX_CTX_BASE fn) + k)
  else none

/-! ## Reads (R53, R570, Table 13-2) -/

/-- A context register (Table 13-12) as it reads. -/
def State.ctxReg (s : State) (ctx o : Nat) : Word :=
  if o = 0x00 then word (ctx + 2 ^ 16 * s.ctxOwner ctx)
  else if o = 0x04 then word (s.ctxState ctx)
  else if o = 0x0C then word (s.fld (F.CTX_FAULT_CODE ctx))
  else if o = 0x10 ∨ o = 0x18 then word (s.tail ctx ((o - 0x10) / 8))
  else if o = 0x14 ∨ o = 0x1C then word (s.head ctx ((o - 0x14) / 8))
  else if o = 0x20 then word (s.fld (F.CTX_JOB_CNT ctx))
  else if o = 0x24 then word (s.fld (F.CTX_ERR_CNT ctx))
  else 0

/-- Byte `o` of a context page (Table 13-2). -/
def State.ctxByte (s : State) (ctx o : Nat) : Byte :=
  if o < 0x100 then (leBytes 4 (s.ctxReg ctx (o / 4 * 4)).toNat).getD (o % 4) 0
  else if o < 0x300 then BitVec.ofNat 8 (s.privByte ctx ((o - 0x100) / 64) (o % 64))
  else if o < 0x400 then 0
  else if o < 0x800 then (s.statusBlock ctx ((o - 0x400) / 64)).bytes.getD (o % 64) 0
  else (s.entry ctx ((o - 0x800) / 0x400) (o / 64)).getD (o % 64) 0

/-- Byte `o` of page 255 of a virtual function's BAR 2: its MSI-X table and pending bits (R561). -/
def State.vfMsixByte (s : State) (fn o : Nat) : Byte :=
  if o < 0x200 then (leBytes 4 (s.vfWord fn (o / 4)).toNat).getD (o % 4) 0
  else if o < 0x204 then
    BitVec.ofNat 8 (((List.range 8).map (fun i => if s.hif.vfPending.contains (fn * 32 + 8 * (o - 0x200) + i) then 2 ^ i else 0)).foldl (· + ·) 0)
  else 0

/-- Byte `off` of function `fn`'s BAR 2 (R561, R570); a page that is no context's reads 0. -/
def State.bar2Byte (s : State) (fn off : Nat) : Byte :=
  if fn ≠ 0 ∧ off / 0x1000 = 255 then s.vfMsixByte fn (off % 0x1000)
  else match s.viewCtx fn (off / 0x1000) with
    | some ctx => s.ctxByte ctx (off % 0x1000)
    | none => 0

/-- What function `fn` reads in its BAR 2. -/
def State.bar2Read (s : State) (fn off n : Nat) : List Byte := (List.range n).map (fun i => s.bar2Byte fn (off + i))

/-! ## Writes (R51, R52, R565, R571, R573) -/

/-- A context register is written: CTX_CTL RESET, or a TAIL. -/
def State.ctxWord (s : State) (ctx o v : Nat) : State :=
  if o = 0x08 then (if v % 2 = 1 then s.ctxReset ctx else s)
  else if o = 0x10 ∨ o = 0x18 then s.setTail ctx ((o - 0x10) / 8) v
  else s

/-- Bytes written to context registers: an aligned 32-bit access, or a 64-bit one as two, lower first; any other is discarded and counted
(R51, R52). -/
def State.ctxRegs (s : State) (ctx o : Nat) (bs : List Byte) : State :=
  if bs.length = 4 ∧ o % 4 = 0 then s.ctxWord ctx o (leNat bs)
  else if bs.length = 8 ∧ o % 8 = 0 then (s.ctxWord ctx o (leNat (bs.take 4))).ctxWord ctx (o + 4) (leNat (bs.drop 4))
  else s.countBadAccess

/-- Bytes written to a ring entry, aligned pieces of 1 to 64 bytes (R571). -/
def State.ringBytes (s : State) (ctx ring : Nat) (o : Nat) (bs : List Byte) : State :=
  if slotPiece (o % 64) bs.length then s.updHif (fun h => { h with ringMem := ringWrite h.ringMem (ringKey ctx ring (o / 64) + o % 64) bs }) else s

/-- Bytes written to a context page by its owner (Table 13-2); status blocks are read-only. [DEDUCED: notes/assumptions/56.md] -/
def State.ctxPageWrite (s : State) (ctx o : Nat) (bs : List Byte) : State :=
  if o < 0x100 then s.ctxRegs ctx o bs
  else if o < 0x300 then s.privWrite ctx ((o - 0x100) / 64) (o % 64) bs
  else if o < 0x800 then s
  else s.ringBytes ctx ((o - 0x800) / 0x400) (o % 0x400) bs

/-- Bytes written to page 255 of a virtual function: whole words of its MSI-X table. [PRESUMED: notes/assumptions/57.md] -/
def State.vfMsixWrite (s : State) (fn o : Nat) (bs : List Byte) : State :=
  if o % 4 ≠ 0 ∨ bs.length % 4 ≠ 0 ∨ 0x200 < o + bs.length then s
  else (List.range (bs.length / 4)).foldl (fun (s : State) i => s.vfMsixWord fn (o / 4 + i) (word (fieldOf bs (4 * i) 4))) s

/-- A write by function `fn` in its BAR 2. -/
def State.bar2Write (s : State) (fn : Nat) (x : BarWrite) : State :=
  let o := x.off % 0x1000
  if fn ≠ 0 ∧ x.off / 0x1000 = 255 then
    if s.hif.numVfs < fn ∨ s.hif.pcie.asleep.contains fn = true then s.hostTlp else s.hostTlp.vfMsixWrite fn o x.bytes
  else match s.viewCtx fn (x.off / 0x1000) with
    | some ctx => s.throughView fn ctx (fun s => s.ctxPageWrite ctx o x.bytes)
    | none => s.hostTlp

/-- RING_TAIL_WRITE: what function `fn` writes in its BAR 2 before, in arrival order, then RING_TAIL (R565, R571, R573).
[DEDUCED: notes/assumptions/56.md] -/
def State.ringTail (s : State) (fn ctx ring : Nat) (writes : List BarWrite) (v : Nat) : State :=
  (writes.foldl (fun (s : State) x => s.bar2Write fn x) s).throughView fn ctx (fun s => if ring ≤ 1 then s.setTail ctx ring v else s)

/-- RING_TAIL_WRITE (R573). -/
def execRingTailWrite (dt fn ctx ring : Nat) (writes : List BarWrite) (tail : Nat) (s : State) : Host.Outcome State Fault Refusal :=
  .next ((s.arrive dt).ringTail fn ctx ring writes tail)

end Sys2Proof.Machine
end

