-- ==== Sys2Proof/Machine/Debug.lean ====
section
/-! DEFINITION. Authenticated debug (spec/15_rootstock.md, R680 to R683), the JTAG instruction and IDCODE (R680, R840), boundary scan
(R819) and the console's serial frames (spec/21_pins_package.md, R830). -/

namespace Sys2Proof.Machine

/-- Level of the open session; 0 none. -/
def State.dbgLevel (s : State) : Nat := s.fld F.RST_DBG_STATUS_LEVEL

/-! ## The JTAG instruction register (R680, Table 15-17) -/

/-- The instruction codes of Table 15-17. -/
def jtagCodes : List Nat := [0x00, 0x01, 0x02, 0x03, 0x04, 0x10, 0x11, 0x20, 0x21, 0x22, 0x23, 0x24, 0x3F]

/-- The instruction that a code selects: an unlisted one selects BYPASS. -/
def jtagSelect (ir : Nat) : Nat := if jtagCodes.contains ir then ir else 0x3F

/-- IDCODE (R680, R840): stepping A1, PART_CODE 0x0064, continuation count 0xD and identity code 0x2B, bit 0 one. -/
def idcode : Word := word (0x1 * 2 ^ 28 + 0x0064 * 2 ^ 12 + 0xD * 2 ^ 8 + 0x2B * 2 + 1)

/-- The selected instruction as it behaves: one whose requirement is not met behaves as BYPASS (Table 15-17). -/
def State.jtagActs (s : State) : Nat :=
  let ir := s.rst.ir
  if ir = 0x00 ∨ ir = 0x03 ∨ ir = 0x04 then (if s.gpio.scan then ir else 0x3F)
  else if (ir = 0x10 ∨ ir = 0x11) ∧ s.dbgLevel ≠ 3 then 0x3F
  else if ir = 0x23 ∧ s.dbgLevel = 0 then 0x3F
  else ir

/-- What the data register captures where the instruction reads a constant: IDCODE's 32 bits, or the single 0 of a bypass. -/
def State.jtagCapture (s : State) : Option (Nat × Nat) :=
  let ir := s.jtagActs
  if ir = 0x02 then some (32, idcode.toNat) else if ir = 0x03 ∨ ir = 0x04 ∨ ir = 0x24 ∨ ir = 0x3F then some (1, 0) else none

/-! ## The console (R830) -/

/-- UART_TX while nothing is sent. -/
def uartIdle : Bool := true

/-- The frame of a byte at 115,200 baud: a start bit, eight data bits, one stop bit; the order of the data bits is the UART's usual one.
[PRESUMED: notes/assumptions/81.md] -/
def uartFrame (b : Byte) : List Bool := (!uartIdle) :: natBitsLsb 8 b.toNat ++ [uartIdle]

/-- UART_RX is listened to: a debug session is open. -/
def State.uartHears (s : State) : Bool := s.dbgLevel != 0

/-- A frame on UART_RX: during a session a well-formed one is a byte of console input to Rootstock, and otherwise it is ignored. -/
def State.uartInput (s : State) (bits : List Bool) : Option Byte :=
  if s.uartHears then (List.range 256).findSome? (fun v => if uartFrame (BitVec.ofNat 8 v) = bits then some (BitVec.ofNat 8 v) else none)
  else none

/-! ## Sessions (R681 to R683) -/

/-- A capture of DBG_CHALLENGE draws a fresh 256-bit nonce from the entropy source (R681). [DEDUCED: notes/assumptions/66.md] -/
def State.dbgChallenge (s : State) (nonce : Nat) : State := s.updRst (fun r => { r with nonce := some (nonce % 2 ^ 256) })

/-- The signed message: NONCE, SERIAL, LEVEL and KEY_SLOT in that order (R681). -/
def dbgMessage (nonce level key : Nat) : List Byte :=
  leBytes 32 nonce ++ leBytes 8 Config.deviceSerial ++ leBytes 1 level ++ leBytes 1 key

/-- The response is accepted (R681, Table 15-18). [DEDUCED: notes/assumptions/66.md] -/
def State.dbgAccepted (s : State) (b : List Byte) : Bool :=
  let level := fieldAt b 0 1
  let key := fieldAt b 1 1
  let lease := fieldAt b 2 2
  match s.rst.nonce with
  | none => false
  | some n =>
    Nat.ble key 1 && s.rst.dbgHash.getD key 0 == Config.sha384 ((b.drop 8).take 96)
      && Config.ecdsaP384 (dbgMessage n level key) (fieldBe b 8 48) (fieldBe b 0x38 48) (fieldBe b 0x68 48) (fieldBe b 0x98 48)
      && Nat.ble 1 level && Nat.ble level (s.fld F.RST_DBG_CFG_MAX_LEVEL)
      && Nat.ble 10 lease && Nat.ble lease 3600
      && s.flag F.RST_DBG_CFG_ALLOW && !s.flag F.RST_DBG_STATUS_LOCKOUT

/-- A session opens or renews: the note DEBUG_OPENED, and the report to the SAF page. [DEDUCED: notes/assumptions/66.md] -/
def State.dbgOpen (s : State) (level key lease : Nat) : State :=
  let s := (s.setFld F.RST_DBG_STATUS_LEVEL level).setFld F.RST_DBG_STATUS_KEY_SLOT key
  let s := (s.setFld F.RST_STATUS_DEBUG level).bump F.RST_DBG_OPEN_CNT
  let s := s.updRst (fun r => { r with leaseEnd := s.cycles + 200000000 * lease, refusals := 0 })
  ((s.event 0x134 0).note 0x0008 (word (key * 16 + level))).latch Cause.debug 0

/-- A response is refused: DEBUG_AUTH_FAIL, and a lockout of 60 s at the fourth refusal in a row. [DEDUCED: notes/assumptions/66.md] -/
def State.dbgRefuse (s : State) : State :=
  let s := ((s.error 0x134 0x8016 0).bump F.RST_DBG_FAIL_CNT).event 0x134 2
  let n := s.rst.refusals + 1
  if 4 ≤ n ∧ s.flag F.RST_DBG_STATUS_LOCKOUT = false then
    (s.setFld F.RST_DBG_STATUS_LOCKOUT 1).updRst (fun r => { r with refusals := 0, lockoutEnd := s.cycles + 12000000000 })
  else s.updRst (fun r => { r with refusals := n })

/-- DBG_RESPONSE with the 200 bytes of Table 15-18: it consumes the nonce. One whose reserved bytes are not 0 is rejected whole (R12).
[DEDUCED: notes/assumptions/66.md] -/
def State.dbgResponse (s : State) (b : List Byte) : State :=
  if !zeroAt b 4 4 then s.error 0x134 Err.fieldRange (infoStruct 4)
  else
    let ok := s.dbgAccepted b
    let s := s.updRst (fun r => { r with nonce := none })
    if ok then s.dbgOpen (fieldAt b 0 1) (fieldAt b 1 1) (fieldAt b 2 2) else s.dbgRefuse

/-- An instruction other than EXTEST, CLAMP and HIGHZ is selected: every GPIO returns to its function (R819). -/
def State.leaveScan (s : State) (ir : Nat) : State :=
  (s.updRst (fun r => { r with ir := jtagSelect ir })).updGpio (fun g => { g with scan := false })

/-- The session ends for a cause of Table 15-8: the note DEBUG_CLOSED, and the debugger's locks are abandoned (R682).
[DEDUCED: notes/assumptions/66.md] -/
def State.dbgEnd (s : State) (cause : Nat) : State :=
  if s.dbgLevel = 0 then s
  else
    let s := (s.setFld F.RST_DBG_STATUS_LEVEL 0).setFld F.RST_DBG_STATUS_KEY_SLOT 0
    let s := (s.setFld F.RST_STATUS_DEBUG 0).updRst (fun r => { r with leaseEnd := 0, halted := false })
    ((s.event 0x134 1).note 0x0009 (word cause)).abandonLocks (· == Writer.debugger)

/-- The lease expires. [DEDUCED: notes/assumptions/66.md] -/
def State.leaseExpire (s : State) : State := if s.dbgLevel ≠ 0 ∧ s.rst.leaseEnd ≤ s.cycles then s.dbgEnd 3 else s

/-- The lockout ends. [DEDUCED: notes/assumptions/66.md] -/
def State.lockoutOver (s : State) : State :=
  if s.flag F.RST_DBG_STATUS_LOCKOUT = true ∧ s.rst.lockoutEnd ≤ s.cycles then s.setFld F.RST_DBG_STATUS_LOCKOUT 0 else s

/-- LEASE_S: seconds left (Table 15-24). -/
def State.leaseLeft (s : State) : Nat := if s.dbgLevel = 0 then 0 else ceilDiv (s.rst.leaseEnd - s.cycles) 200000000

/-- A write of DBG_CFG: MAX_LEVEL 0 is undefined; ALLOW = 0 ends any session (R682). -/
def State.dbgCfgWrite (s : State) (w : Nat) (v : Word) : State :=
  if getBits v 2 1 = 0 then s.undefinedEncoding 0x134 0x4C 1
  else
    let s := ((s.setFld F.RST_DBG_CFG_MAX_LEVEL (getBits v 2 1)).setFld F.RST_DBG_CFG_ALLOW (getBits v 0 0)).wrote 0x134 w
    if getBits v 0 0 = 0 then s.dbgEnd 5 else s

/-- A halt request through DMI: refused while frames are paced (R683); DMI needs level FULL (Table 15-17).
[DEDUCED: notes/assumptions/66.md] -/
def State.dmiHalt (s : State) (paced : Bool) : State :=
  if s.dbgLevel ≠ 3 then s
  else if paced then s.setFld F.RST_DBG_STATUS_HALT_REFUSED 1
  else s.updRst (fun r => { r with halted := true })

/-- EXTEST (0x00), CLAMP (0x03) or HIGHZ (0x04) is selected: at level FULL with the Frame Scheduler not RUNNING, the boundary-scan register
takes the GPIOs; otherwise the instruction behaves as BYPASS, which leaves them to their functions (R680, R819).
[DEDUCED: notes/assumptions/66.md] -/
def State.selectScan (s : State) (ir : Nat) : State :=
  let s := s.leaveScan ir
  if s.dbgLevel = 3 ∧ s.pstate 0x010 ≠ St.running then s.updGpio (fun g => { g with scan := true }) else s

end Sys2Proof.Machine
end

