-- ==== Sys2Proof/Machine/Rootstock.lean ====
section
/-! DEFINITION. Rootstock: reset, READY, LIMITED operation and the version override, sensors, the event log, update and debug
commands (spec/15_rootstock.md). -/

namespace Sys2Proof.Machine

/-- What Rootstock's firmware or the sensors it reads do happens only while it executes (R651, R656). -/
def State.ifUp (s : State) (f : State → State) : State := if s.rstUp then f s else s

/-! ## LIMITED and the override (R676 to R679, R155) -/

/-- VERSION_OK is 0 and the override is not in force (R676). -/
def State.isLimited (s : State) : Bool := !s.flag F.RST_STATUS_VERSION_OK && !s.flag F.RST_STATUS_OVERRIDE

/-- Pages 0x010 and 0x130 read LIMITED; a Frame Scheduler with a frame in compute publishes it first (R155).
[DEDUCED: notes/assumptions/65.md] -/
def State.limit (s : State) : State :=
  let s := if (s.page 0x130).cond.limited then s else (s.event 0x130 1).updCond 0x130 (fun c => { c with limited := true })
  if (s.page 0x010).cond.limited then s
  else if s.frm.compute.isSome then s.updFrm (fun f => { f with limitAfter := true })
  else s.updCond 0x010 (fun c => { c with limited := true })

/-- LIMITED is lifted. [DEDUCED: notes/assumptions/65.md] -/
def State.unlimit (s : State) : State :=
  ((s.updCond 0x130 (fun c => { c with limited := false })).updCond 0x010 (fun c => { c with limited := false })).updFrm
    (fun f => { f with limitAfter := false })

/-- LIMITED follows VERSION_OK and the override. [DEDUCED: notes/assumptions/65.md] -/
def State.evalLimited (s : State) : State := if s.isLimited then s.limit else s.unlimit

/-- The override leaves force (R679): slots that only it admitted are emptied once the frame in compute is published; when the active
one is among them the Frame Scheduler drains first. [DEDUCED: notes/assumptions/65.md] -/
def State.dropOverride (s : State) : State :=
  let s := (s.setFld F.RST_STATUS_OVERRIDE 0).setFld F.RST_VERSION_OVERRIDE_SET 0
  let v := s.rst.viaOverride
  let s := s.updRst (fun r => { r with emptyAfter := v })
  let s := if bitOf v (s.fld F.FRM_PLAN_STATUS_ACTIVE_SLOT) then s.frmStop else s
  let s := if s.frm.compute.isSome then s
    else
      let s := (List.range 2).foldl (fun (s : State) b => if bitOf v b then s.emptySlot b else s) s
      s.updRst (fun r => { r with emptyAfter := 0 })
  s.evalLimited

/-- A keyed write sets the override (R677): a change of state is noted and reported to the SAF page. Setting it again before a slot
is emptied keeps the slot. [DEDUCED: notes/assumptions/65.md] -/
def State.overrideSet (s : State) (w : Nat) : State :=
  if s.flag F.RST_STATUS_OVERRIDE then s
  else
    let s := (s.setFld F.RST_STATUS_OVERRIDE 1).setFld F.RST_VERSION_OVERRIDE_SET 1
    let s := s.updRst (fun r => { r with emptyAfter := 0 })
    (((s.note 0x0006 (word w)).event 0x130 2).latch Cause.override 0).evalLimited

/-- A keyed write clears the override (R677, R679). [DEDUCED: notes/assumptions/65.md] -/
def State.overrideClear (s : State) (w : Nat) : State :=
  if s.flag F.RST_STATUS_OVERRIDE then ((s.note 0x0007 (word w)).event 0x130 2).dropOverride.refreshActive else s

/-- A write of VERSION_OVERRIDE: by the physical function or the debugger with KEY 0x4F56; any other is discarded (R677).
[DEDUCED: notes/assumptions/65.md] -/
def State.writeOverride (s : State) (w : Nat) (v : Word) : State :=
  s.onRws 0x130 0x54 w v (fun s =>
    if (w = Writer.pf ∨ w = Writer.debugger) ∧ getBits v 31 16 = 0x4F56 then
      (if getBits v 0 0 = 1 then s.overrideSet w else s.overrideClear w).wrote 0x130 w
    else s)

/-! ## Rootstock reset (R645, R671, R689, R800) -/

/-- Both cores halt and RST_RX goes to DEAD (R648, R687): `code` is RST_LOCKSTEP or RST_SRAM_UE. [DEDUCED: notes/assumptions/61.md] -/
def State.rstDead (s : State) (code : Nat) : State :=
  if s.flag F.RST_STATUS_DEAD then s
  else
    let s := ((s.setFld F.RST_STATUS_DEAD 1).setFld F.RST_STATUS_READY 0).setRstRx 3
    let s := s.updCond 0x130 (fun c => { c with fault := true, running := false })
    ((s.error 0x130 code 0).latch Cause.lockstep code).abandonLocks (· == Writer.rootstock)

/-- No slot was booted: ROM_RECOVERY (R672, R673). FABRIC runs, CORE is left as it is. -/
def State.enterRecovery (s : State) : State :=
  (s.setFld F.RST_STATUS_MODE 1).setFld F.GLB_CLOCK_STATUS_FABRIC_MHZ 1000

/-- The boot ROM (R671, R689, R800): `flash` says whether the flash can be read, `rom` whether the ROM's parity holds, and the lists
are the digests the ROM computes from the slots' components. [DEDUCED: notes/assumptions/61.md] -/
def State.bootRom (s : State) (flash rom : Bool) (digA digB : List Nat) : State :=
  if rom = false then ((s.updRst (fun r => { r with romFail := true })).rstDead 0x6027).setFld F.GLB_BOOT_STATUS_FAIL_STEP 4
  else
    let s := s.updRst (fun r => { r with romFail := false, flashFail := r.flashFail || !flash })
    let x := if flash then s.chooseSlot digA digB
      else s.chooseSlot (0 :: s.rst.imgA.digests) (0 :: s.rst.imgB.digests)
    match x.2 with
    | some t =>
      let s := (x.1.setFld F.RST_STATUS_BOOT_SLOT t).setFld F.RST_STATUS_TRIAL (b2n (x.1.fld (slotState t) == Slot.trial))
      s.setFld F.GLB_BOOT_STATUS_SLOT_CHOSEN 1
    | none => x.1.enterRecovery

/-- What a Rootstock reset clears before the boot ROM runs (R645). [DEDUCED: notes/assumptions/61.md] -/
def State.rstClear (s : State) (cause : Nat) : State :=
  let s := (s.dbgEnd 4).updRst (fun r => { r with
    ring := [], nextSeq := 0, bbWait := [], fetch := none, stage := none, nonce := none, halted := false
    shockBad := false, shockMiss := 0, coolBad := false, resetDue := none })
  let s := (((s.setFld F.RST_LOG_STATUS_BUSY 0).setFld F.RST_UPD_STATUS_BUSY 0).showRing).setFld F.RST_RESET_CAUSE cause
  let s := (((s.setFld F.RST_STATUS_READY 0).setFld F.RST_STATUS_DEAD 0).setFld F.RST_STATUS_MODE 0).setRstRx 2
  let s := (s.updCond 0x130 (fun c => { c with running := false, fault := s.saf.parity.contains 0x130 })).abandonLocks (· == Writer.rootstock)
  let s := (List.range 8).foldl (fun (s : State) n => s.shockLevel n 0xFF) s
  (s.setFld F.RST_COOLANT_VALID 0).coolEval.refreshActive

/-- A Rootstock reset with a cause of RST_RESET_CAUSE (R645). [DEDUCED: notes/assumptions/61.md] -/
def State.rstReset (s : State) (cause : Nat) (flash rom : Bool) (digA digB : List Nat) : State :=
  let s := (s.bump F.RST_RESET_CNT).rstClear cause
  let s := if s.flag F.RST_STATUS_OVERRIDE then (s.note 0x0007 0).dropOverride else s
  s.accountLife.loadLife.bootRom flash rom digA digB

/-- A write of RST_RESET_REQ (R649): by the physical function or the debugger with KEY 0x5253; REQ 1 asks for the reset.
[DEDUCED: notes/assumptions/61.md] -/
def State.writeResetReq (s : State) (w : Nat) (v : Word) : State :=
  s.onRws 0x130 0x58 w v (fun s =>
    if !((w == Writer.pf || w == Writer.debugger) && getBits v 31 16 == 0x5253) then s
    else if getBits v 0 0 = 0 then s.wrote 0x130 w
    else if s.framePaced ∧ s.fld F.MBX_RST_RX_STATE ≠ 3 then s.error 0x130 0xA020 (infoOffWriter 0x58 w)
    else (s.updRst (fun r => { r with resetDue := some 2 })).wrote 0x130 w)

/-- ROOTSTOCK_RESET: a requested reset is made, or one that the debugger requests at level FULL. [DEDUCED: notes/assumptions/61.md] -/
def State.rootstockReset (s : State) (flash rom : Bool) (digA digB : List Nat) : State :=
  match s.rst.resetDue with
  | some c => s.rstReset c flash rom digA digB
  | none => if s.dbgLevel = 3 then s.rstReset 4 flash rom digA digB else s

/-- RST_WATCHDOG (R647): never while DEAD (R648). [DEDUCED: notes/assumptions/61.md] -/
def State.rstWatchdog (s : State) (flash rom : Bool) (digA digB : List Nat) : State :=
  if s.flag F.RST_STATUS_DEAD then s
  else
    let s := (s.latch Cause.rstWatchdog 0x6028).updRst (fun r => { r with watchdog := true })
    s.rstReset 3 flash rom digA digB

/-! ## READY (R646, R674) -/

/-- BOOT_COUNT counts the boot, unless its word is exhausted (R707). -/
def State.countBoot (s : State) (bootWord : Nat) : State :=
  if s.securityRoom [bootWord] then
    (s.securityProgram [bootWord]).updRst (fun r => { r with bootCount := min (2 ^ 32 - 1) (r.bootCount + 1) })
  else s.securityRefuse [bootWord]

/-- What READY records: the watchdog (R647), the boot flash (R689) and the slots marked BAD (R671). [DEDUCED: notes/assumptions/61.md] -/
def State.readyRecords (s : State) : State :=
  let r := s.rst
  let s := if r.watchdog then s.error 0x130 0x6028 0 else s
  let s := if r.flashFail then (s.error 0x130 0x501A 0).latch Cause.bootFlash 0x501A else s
  let s := r.reverted.foldl (fun (s : State) t => (s.note 0x0005 (word t)).event 0x131 2) s
  let s := s.updRst (fun x => { x with watchdog := false, flashFail := false, reverted := [], latchWait := [] })
  r.latchWait.foldl (fun (s : State) x => s.latch x.1 x.2) s

/-- The running versions and VERSION_OK (R674). [DEDUCED: notes/assumptions/61.md] -/
def State.versionCheck (s : State) : State :=
  let t := s.bootedSlot
  let s := (s.setFld F.RST_FW_VERSION (s.fld (slotFw t))).setFld F.RST_TILE_UCODE_VERSION (s.fld (slotUcode t))
  (s.setFld F.RST_STATUS_VERSION_OK (b2n s.tripleTested)).evalLimited

/-- The first READY of a start-up starts CORE and FABRIC (R787 step 5, R788). -/
def State.firstReady (s : State) : State :=
  if s.flag F.GLB_BOOT_STATUS_FW_READY then s
  else ((s.setFld F.GLB_BOOT_STATUS_FW_READY 1).setFld F.GLB_CLOCK_STATUS_FABRIC_MHZ 1000).setCoreMax.applyCore

/-- Slot of the newest valid black-box entry (R663): the firmware continues after it. -/
def State.bbFind (s : State) : State := s.updRst (fun r => { r with bbUsed := r.bbUsed || !r.bb.isEmpty })

/-- ROOTSTOCK_READY (R646). [DEDUCED: notes/assumptions/61.md] -/
def State.rootstockReady (s : State) (bootWord : Nat) : State :=
  if s.fld F.MBX_RST_RX_STATE = 2 ∧ s.fld F.RST_STATUS_MODE = 0 ∧ s.flag F.GLB_BOOT_STATUS_SLOT_CHOSEN ∧ s.rst.romFail = false then
    let s := s.countBoot bootWord
    let s := s.setFld F.RST_BOOT_COUNT s.rst.bootCount
    let s := ((s.setFld F.RST_STATUS_READY 1).setFld F.RST_STATUS_MODE 2).setRstRx 0
    let s := ((s.updCond 0x130 (fun c => { c with running := true })).event 0x130 0).event 0x130 3
    let s := (s.updRst (fun r => { r with tokens := 3200000000, tokenAt := s.cycles })).bbFind.enterHeld
    let s := s.note 0x0001 (word (s.bootedSlot + 2 ^ 8 * s.fld F.RST_RESET_CAUSE))
    let s := s.readyRecords.versionCheck.ageLimit
    (s.updPwr (fun p => { p with hourAt := s.cycles })).firstReady
  else s

/-! ## Sensors (R653, R655, R656, R844) -/

/-- The shock level of three axes in units of 1/8 g (R655). -/
def shockOf (lsb : Nat) (x y z : Int) : Nat := min 254 (ceilDiv (max x.natAbs (max y.natAbs z.natAbs) * lsb) 125)

/-- Every lane takes a shock level. -/
def State.shockAll (s : State) (v : Nat) : State :=
  (List.range 8).foldl (fun (s : State) n => s.shockLevel n v) (s.setFld F.RST_SHOCK_RAW_LEVEL v)

/-- The shock fault begins (R656): recorded once, with its cause and bus 0. -/
def State.shockFault (s : State) (cause : Nat) : State :=
  let s := s.shockAll 0xFF
  if s.rst.shockBad then s
  else ((s.updRst (fun r => { r with shockBad := true })).error 0x132 0x4021 (word cause)).event 0x132 1

/-- SHOCK_SAMPLE: `res` 0 a valid read of three axes, 1 a read not acknowledged, 2 a period without a valid read.
[DEDUCED: notes/assumptions/62.md] -/
def State.shockSample (s : State) (res : Nat) (x y z : Int) : State :=
  if s.fld F.RST_SHOCK_CFG_LSB_MG = 0 then s.shockAll 0xFF
  else if res = 0 then
    let v := shockOf (s.fld F.RST_SHOCK_CFG_LSB_MG) x y z
    let s := s.updRst (fun r => { r with shockBad := false, shockMiss := 0 })
    (s.setFld F.RST_SHOCK_RAW_PEAK (max (s.fld F.RST_SHOCK_RAW_PEAK) v)).shockAll v
  else if res = 1 then ((s.bump F.RST_I3C_ERR_CNT_0).updRst (fun r => { r with shockMiss := r.shockMiss + 1 })).shockFault 1
  else
    let s := s.updRst (fun r => { r with shockMiss := r.shockMiss + 1 })
    if 3 ≤ s.rst.shockMiss then s.shockFault 2 else s

/-- CLOCK_MONITOR_FAULT of domain `k` (R653): 0 CORE, 1 FABRIC, 2 AON. [DEDUCED: notes/assumptions/62.md] -/
def State.clockFault (s : State) (k : Nat) : State :=
  let m := setBit (s.fld F.RST_CLK_MON_FAULT) k
  ((s.setFld F.RST_CLK_MON_FAULT m).error 0x160 0x6035 (word m)).latch Cause.clock 0x6035

/-- The absolute windows of Table 21-14, in mV. -/
def railWindow : List (Nat × Nat) :=
  [(550, 980), (690, 810), (680, 820), (736, 864), (450, 600), (980, 1120), (736, 864), (782, 918), (736, 864), (1650, 1950),
    (1650, 1950), (736, 864)]

/-- A reading of rail `k` lies outside its absolute window. -/
def railOut (k mv : Nat) : Bool :=
  match railWindow[k]? with
  | some w => Nat.blt mv w.1 || Nat.blt w.2 mv
  | none => false

/-- VOLTAGE_WINDOW_FAULT (R844): rail `k` reads `mv` outside its window. [DEDUCED: notes/assumptions/62.md] -/
def State.voltageFault (s : State) (k mv : Nat) : State :=
  if railOut k mv then
    let s := (s.updRst (fun r => { r with railsOut := setBit r.railsOut k })).setFld (F.RST_VMON_MV k) mv
    (s.error 0x160 0x6036 (word (mv % 2 ^ 16 * 2 ^ 16 + k))).latch Cause.voltRange 0x6036
  else s

/-! ## Update and log commands -/

/-- A write of UPD_CMD (Table 15-15): `words` are the security words that the command programs. -/
def State.updCmd (s : State) (w : Nat) (v : Word) (words : List Nat) : State :=
  s.onRws 0x131 0x4C w v (fun s =>
    let op := getBits v 2 0
    let key := getBits v 9 8
    if op = 1 then s.updStage w key words
    else if op = 2 then s.updActivate w key words
    else if op = 3 then s.updConfirm w key words
    else if op = 4 then s.updRevert w key words
    else if op = 5 then s.updAbort w key
    else if op = 6 then s.updRevoke w key words
    else s)

/-- The word that a command OP with KEY writes to UPD_CMD. -/
def updWord (op key : Nat) : Word := word (op + 2 ^ 8 * (key % 4))

/-- A write of LOG_CMD (R664). -/
def State.writeLogCmd (s : State) (w : Nat) (v : Word) : State :=
  s.onWrite 0x133 0x4C w v (fun s => if getBits v 0 0 = 1 then s.logFetch w else s.wrote 0x133 w)

/-- UPD_STAGE_DONE: the firmware or the ROM in recovery ends the STAGE. -/
def State.stageDone (s : State) (flashOk : Bool) : State := if s.rstUp || s.romRecovery then s.updStageDone flashOk else s

/-- RST_RX moves from AVAILABLE to ASLEEP (R616). -/
def State.rstAsleep (s : State) : State := if s.fld F.MBX_RST_RX_STATE = 0 then s.setRstRx 1 else s

/-! ## The commands -/

/-- ROOTSTOCK_RESET (R645). -/
def execRootstockReset (dt : Nat) (flash rom : Bool) (digA digB : List Nat) (s : State) : Host.Outcome State Fault Refusal :=
  .next ((s.arrive dt).rootstockReset flash rom digA digB)

/-- ROOTSTOCK_READY (R646). -/
def execRootstockReady (dt bootWord : Nat) (s : State) : Host.Outcome State Fault Refusal := .next ((s.arrive dt).rootstockReady bootWord)

/-- RST_RESET_REQ (R649). -/
def execRstResetReq (dt w key req : Nat) (s : State) : Host.Outcome State Fault Refusal :=
  .next ((s.arriveBy dt w).writeResetReq w (word (key % 2 ^ 16 * 2 ^ 16 + req % 2)))

/-- RST_WATCHDOG (R647). -/
def execRstWatchdog (dt : Nat) (flash rom : Bool) (digA digB : List Nat) (s : State) : Host.Outcome State Fault Refusal :=
  .next ((s.arrive dt).rstWatchdog flash rom digA digB)

/-- LOCKSTEP_MISMATCH (R648). -/
def execLockstepMismatch (dt : Nat) (s : State) : Host.Outcome State Fault Refusal := .next ((s.arrive dt).rstDead 0x6027)

/-- SRAM_UE (R687). -/
def execSramUe (dt : Nat) (s : State) : Host.Outcome State Fault Refusal := .next ((s.arrive dt).rstDead 0x601A)

/-- THERMAL_SCAN (R651). -/
def execThermalScan (dt : Nat) (temps : List Int) (mv : List Nat) (s : State) : Host.Outcome State Fault Refusal :=
  .next ((s.arrive dt).thermalScan temps mv)

/-- CLOCK_MONITOR_FAULT (R653). -/
def execClockMonitorFault (dt domain : Nat) (s : State) : Host.Outcome State Fault Refusal := .next ((s.arrive dt).clockFault domain)

/-- VOLTAGE_WINDOW_FAULT (R844). -/
def execVoltageWindowFault (dt rail mv : Nat) (s : State) : Host.Outcome State Fault Refusal := .next ((s.arrive dt).voltageFault rail mv)

/-- SHOCK_SAMPLE (R655). -/
def execShockSample (dt res : Nat) (x y z : Int) (s : State) : Host.Outcome State Fault Refusal :=
  .next ((s.arrive dt).ifUp (fun s => s.shockSample res x y z))

/-- COOLANT_SAMPLE (R657). -/
def execCoolantSample (dt : Nat) (reading : Option Int) (s : State) : Host.Outcome State Fault Refusal :=
  .next ((s.arrive dt).ifUp (fun s => s.coolantSample reading))

/-- LOG_ENTRY (R660). -/
def execLogEntry (dt : Nat) (s : State) : Host.Outcome State Fault Refusal := .next ((s.arrive dt).logEntry)

/-- BB_WRITE (R662). -/
def execBbWrite (dt : Nat) (ok : Bool) (s : State) : Host.Outcome State Fault Refusal := .next ((s.arrive dt).ifUp (fun s => s.bbWrite ok))

/-- LOG_FETCH (R664). -/
def execLogFetch (dt w : Nat) (s : State) : Host.Outcome State Fault Refusal := .next ((s.arriveBy dt w).writeLogCmd w 1)

/-- LOG_FETCH_DONE (R664). -/
def execLogFetchDone (dt : Nat) (raw : Option (List Byte)) (s : State) : Host.Outcome State Fault Refusal :=
  .next ((s.arrive dt).ifUp (fun s => s.logFetchDone raw))

/-- UPD_STAGE (R670). -/
def execUpdStage (dt w key : Nat) (words : List Nat) (s : State) : Host.Outcome State Fault Refusal :=
  .next ((s.arriveBy dt w).updCmd w (updWord 1 key) words)

/-- UPD_STAGE_DONE (R670). -/
def execUpdStageDone (dt : Nat) (flashOk : Bool) (s : State) : Host.Outcome State Fault Refusal := .next ((s.arrive dt).stageDone flashOk)

/-- UPD_ACTIVATE (R669). -/
def execUpdActivate (dt w key : Nat) (words : List Nat) (s : State) : Host.Outcome State Fault Refusal :=
  .next ((s.arriveBy dt w).updCmd w (updWord 2 key) words)

/-- UPD_CONFIRM (R669). -/
def execUpdConfirm (dt w key : Nat) (words : List Nat) (s : State) : Host.Outcome State Fault Refusal :=
  .next ((s.arriveBy dt w).updCmd w (updWord 3 key) words)

/-- UPD_REVERT (R669). -/
def execUpdRevert (dt w key : Nat) (words : List Nat) (s : State) : Host.Outcome State Fault Refusal :=
  .next ((s.arriveBy dt w).updCmd w (updWord 4 key) words)

/-- UPD_ABORT (R669). -/
def execUpdAbort (dt w key : Nat) (s : State) : Host.Outcome State Fault Refusal := .next ((s.arriveBy dt w).updCmd w (updWord 5 key) [])

/-- UPD_REVOKE (R669). -/
def execUpdRevoke (dt w key : Nat) (words : List Nat) (s : State) : Host.Outcome State Fault Refusal :=
  .next ((s.arriveBy dt w).updCmd w (updWord 6 key) words)

/-- OVERRIDE_SET (R677). -/
def execOverrideSet (dt w key : Nat) (s : State) : Host.Outcome State Fault Refusal :=
  .next ((s.arriveBy dt w).writeOverride w (word (key % 2 ^ 16 * 2 ^ 16 + 1)))

/-- OVERRIDE_CLEAR (R679). -/
def execOverrideClear (dt w key : Nat) (s : State) : Host.Outcome State Fault Refusal :=
  .next ((s.arriveBy dt w).writeOverride w (word (key % 2 ^ 16 * 2 ^ 16)))

/-- DBG_CHALLENGE (R681). -/
def execDbgChallenge (dt nonce : Nat) (s : State) : Host.Outcome State Fault Refusal :=
  .next (((s.arrive dt).leaveScan 0x20).ifUp (fun s => s.dbgChallenge nonce))

/-- DBG_RESPONSE (R681). -/
def execDbgResponse (dt : Nat) (response : List Byte) (s : State) : Host.Outcome State Fault Refusal :=
  .next (((s.arrive dt).leaveScan 0x21).ifUp (fun s => s.dbgResponse response))

/-- DBG_CLOSE (R682). -/
def execDbgClose (dt : Nat) (s : State) : Host.Outcome State Fault Refusal := .next (((s.arrive dt).leaveScan 0x24).dbgEnd 1)

/-- TAP_RESET (R682). -/
def execTapReset (dt : Nat) (s : State) : Host.Outcome State Fault Refusal := .next (((s.arrive dt).leaveScan 0x02).dbgEnd 2)

/-- DEBUG_LEASE_EXPIRE (R682). -/
def execDebugLeaseExpire (dt : Nat) (s : State) : Host.Outcome State Fault Refusal := .next ((s.arrive dt).leaseExpire)

/-- DEBUG_LOCKOUT_END (R681). -/
def execDebugLockoutEnd (dt : Nat) (s : State) : Host.Outcome State Fault Refusal := .next ((s.arrive dt).lockoutOver)

/-- DBG_CFG_WRITE (R682). -/
def execDbgCfgWrite (dt w : Nat) (v : Word) (s : State) : Host.Outcome State Fault Refusal :=
  .next ((s.arriveBy dt w).onRws 0x134 0x4C w v (fun s => s.dbgCfgWrite w v))

/-- DMI_HALT (R683). -/
def execDmiHalt (dt : Nat) (s : State) : Host.Outcome State Fault Refusal :=
  let s := (s.arrive dt).leaveScan 0x11
  .next (s.dmiHalt s.framePaced)

/-- JTAG_EXTEST (R819). -/
def execJtagExtest (dt : Nat) (s : State) : Host.Outcome State Fault Refusal := .next ((s.arrive dt).selectScan 0x00)

/-- JTAG_CLAMP (R819). -/
def execJtagClamp (dt : Nat) (s : State) : Host.Outcome State Fault Refusal := .next ((s.arrive dt).selectScan 0x03)

/-- JTAG_HIGHZ (R819). -/
def execJtagHighz (dt : Nat) (s : State) : Host.Outcome State Fault Refusal := .next ((s.arrive dt).selectScan 0x04)

/-- JTAG_OTHER_INSTRUCTION (R819). -/
def execJtagOtherInstruction (dt ir : Nat) (s : State) : Host.Outcome State Fault Refusal := .next ((s.arrive dt).leaveScan ir)

/-- ROOTSTOCK_ASLEEP (R616). -/
def execRootstockAsleep (dt : Nat) (s : State) : Host.Outcome State Fault Refusal := .next ((s.arrive dt).rstAsleep)

end Sys2Proof.Machine
end

