-- ==== Sys2Proof/Machine/SensorLink.lean ====
section
/-! DEFINITION. The commands of the Sensor Link (spec/04_sensor_link_channel.md, spec/05_sensor_link_sectors.md). -/

namespace Sys2Proof.Machine

/-! ## Lane configuration -/

/-- The lane leaves IDLE for RUNNING: it acquires its receive PHY (R99, R162) and makes a zone load when it has it (R174).
A page whose lock is abandoned does not leave IDLE (R93). -/
def State.laneStart (s : State) (n : Nat) : State :=
  let h := s.page (ctlPage n)
  if s.lockStops (ctlPage n) || h.cond.running || h.cond.waiting then s
  else
    let s := s.acquire (ctlPage n) [phyRes n] St.running
    if (s.page (ctlPage n)).cond.running then s.zoneLoad n else s

/-- The receive PHY powers down (R163): the lane reads IDLE, its status shows no zone, and its fragment in progress is gone.
[DEDUCED: notes/assumptions/36.md] -/
def State.lanePowerDown (s : State) (n : Nat) : State :=
  let s := ((s.abandon n).release (ctlPage n)).updCond (ctlPage n) (fun c => { c with running := false, waiting := false })
  let s := s.updLane n (fun l => { l with ch := {}, ended := (0, 0) })
  ((s.dropTiming n).setFld (F.SLK_LANE_STATUS_ZONE n) 7).setCell (R.SLK_LANE_STATUS n) 0x700

/-- A LANE_CFG value takes effect (R163, R185), also on a lane that drains: it still receives until it reaches OFF (R71). -/
def State.laneCfg (s : State) (n : Nat) (v : Word) : State :=
  let old := s.cell (R.SLK_LANE_CFG n)
  let on := getBits v 1 0 != 0
  let wasOn := getBits old 1 0 != 0
  let zone := getBits old 1 0 != getBits v 1 0 || (getBits v 1 0 == 1 && getBits old 5 4 != getBits v 5 4)
  let change := zone || getBits old 9 8 != getBits v 9 8
  let cut := s.laneRuns n && wasOn && (change || !on)
  let s := if cut then s.abandon n else s
  let s := (s.setFld (F.SLK_LANE_CFG_MODE n) (getBits v 1 0)).setFld (F.SLK_LANE_CFG_RING n) (getBits v 5 4)
  let s := (s.setFld (F.SLK_LANE_CFG_INPUT_SEL n) (getBits v 8 8)).setFld (F.SLK_LANE_CFG_POLARITY n) (getBits v 9 9)
  let h := s.page (ctlPage n)
  if !on then (if wasOn && (h.enable || h.cond.running || h.cond.waiting) then s.lanePowerDown n else s)
  else if !wasOn then (if h.enable then s.laneStart n else s)
  else if cut then s.zoneLoad n
  else s

/-- A write of LANE_CFG (R163). -/
def State.writeLaneCfg (s : State) (n w : Nat) (v : Word) : State :=
  s.onRwl (ctlPage n) 0x40 w v (fun s => (s.wrote (ctlPage n) w).laneCfg n v)

/-- A write of LANE_CMD: RELOAD makes a zone load of a lane that runs (R174). -/
def State.writeLaneCmd (s : State) (n w : Nat) (v : Word) : State :=
  s.onWrite (ctlPage n) 0x48 w v (fun s =>
    let s := s.wrote (ctlPage n) w
    if getBits v 0 0 = 1 ∧ s.laneRuns n = true then s.zoneLoad n else s)

/-- A write of VGA_SET: a gain step to CODE (R173), which restarts an acquisition under way (R199). [DEDUCED: notes/assumptions/36.md] -/
def State.writeVgaSet (s : State) (n w : Nat) (v : Word) : State :=
  s.onWrite (afePage n) 0x48 w v (fun s => ((s.wrote (afePage n) w).gainStep n (getBits v 7 0)).restartAcq n)

/-- A write of CTF_SET: a CTF change (R173), which restarts an acquisition under way (R199). [DEDUCED: notes/assumptions/36.md] -/
def State.writeCtfSet (s : State) (n w : Nat) (v : Word) : State :=
  s.onWrite (afePage n) 0x4C w v (fun s => ((s.wrote (afePage n) w).ctfChange n (getBits v 5 0) (getBits v 12 8)).restartAcq n)

/-- LANE_CFG_WRITE (R163). -/
def execLaneCfgWrite (dt lane w : Nat) (v : Word) (s : State) : Host.Outcome State Fault Refusal := .next ((s.arriveBy dt w).writeLaneCfg lane w v)

/-- LANE_RELOAD (R174). -/
def execLaneReload (dt lane w : Nat) (v : Word) (s : State) : Host.Outcome State Fault Refusal := .next ((s.arriveBy dt w).writeLaneCmd lane w v)

/-- VGA_SET (R173). -/
def execVgaSet (dt lane w : Nat) (v : Word) (s : State) : Host.Outcome State Fault Refusal := .next ((s.arriveBy dt w).writeVgaSet lane w v)

/-- CTF_SET (R173). -/
def execCtfSet (dt lane w : Nat) (v : Word) (s : State) : Host.Outcome State Fault Refusal := .next ((s.arriveBy dt w).writeCtfSet lane w v)

/-! ## Acquisition and tracking -/

/-- A channel event of lane `n` arrives after the line symbols before it. -/
def State.arriveRx (s : State) (dt n : Nat) (rx : List RxSym) : State := (s.arrive dt).receive n rx

/-- A mean of |v|, given as the total over 16 symbols, differs from AGC_TARGET by more than 1.5 dB (Table 4-6): the 40th power
of the ratio lies beyond 1,000. -/
def beyondDb (total target : Nat) : Bool :=
  Nat.blt (1000 * (16 * target) ^ 40) (total ^ 40) || Nat.blt (1000 * total ^ 40) ((16 * target) ^ 40)

/-- The lane is in acquisition outside an invalid window. -/
def State.acquiring (s : State) (n : Nat) : Bool :=
  s.flag (F.SLK_LANE_STATUS_ACQ n) && !s.flag (F.SLK_LANE_STATUS_INVALID n)

/-- ACQ_GAIN_CHECK: after 16 valid symbols, a gain step if their mean is more than 1.5 dB off (R177); the code it goes to is not
stated. [DEDUCED: notes/assumptions/36.md] -/
def State.acqCheck (s : State) (n : Nat) : State :=
  let c := (s.lane n).ch
  if s.acquiring n && !c.acqChecked && Nat.ble 16 c.acqValid then
    let s := s.updLane n (fun l => { l with ch := { l.ch with acqChecked := true } })
    if beyondDb c.acqSum (s.fld (F.SLK_AGC_CFG_AGC_TARGET n)) then (s.drawFree).gainStep n (s.freeVal % 161) else s
  else s

/-- ACQUISITION_END: after 64 further valid symbols (R177). -/
def State.acqEnd (s : State) (n : Nat) : State :=
  if s.acquiring n && (s.lane n).ch.acqChecked && Nat.ble 80 (s.lane n).ch.acqValid then
    (s.setFld (F.SLK_LANE_STATUS_ACQ n) 0).setFld (F.SLK_LANE_STATUS_TRACK n) 1
  else s

/-- A gain step in tracking is due: DGAIN is at 128 or 512, 1,024 symbols have passed since the last, and LOOP_HOLD ANALOG is 0 (R173). -/
def State.stepDue (s : State) (n : Nat) : Bool :=
  let g := s.fld (F.SLK_DGAIN_GAIN n)
  s.flag (F.SLK_LANE_STATUS_TRACK n) && (g == 128 || g == 512) && Nat.ble 1024 (s.lane n).ch.sinceStep
    && !bitOf (s.fld (F.SLK_LOOP_HOLD n)) 5

/-- TRACKING_GAIN_STEP: DGAIN has reached 512 or 128; 24 codes of 0.25 dB return it to 256 (R173). [DEDUCED: notes/assumptions/36.md] -/
def State.trackStep (s : State) (n : Nat) : State :=
  if s.stepDue n then
    let c := s.fld (F.SLK_AFE_LIVE_VGA_CODE n)
    let up := s.fld (F.SLK_DGAIN_GAIN n) == 512
    let d : Int := 256 * ((2 ^ Config.loopFrac 0 : Nat) : Int)
    let s := s.updLane n (fun l => { l with ch := { l.ch.flush with sinceStep := 0, loops := { l.ch.loops with dgain := d } } })
    (s.setFld (F.SLK_DGAIN_GAIN n) 256).gainStep n (if up then min 160 (c + 24) else c - 24)
  else s

/-- ACQ_GAIN_CHECK. -/
def execAcqGainCheck (dt lane : Nat) (rx : List RxSym) (s : State) : Host.Outcome State Fault Refusal :=
  .next ((s.arriveRx dt lane rx).acqCheck lane)

/-- ACQUISITION_END. -/
def execAcquisitionEnd (dt lane : Nat) (rx : List RxSym) (s : State) : Host.Outcome State Fault Refusal :=
  .next ((s.arriveRx dt lane rx).acqEnd lane)

/-- TRACKING_GAIN_STEP. -/
def execTrackingGainStep (dt lane : Nat) (rx : List RxSym) (s : State) : Host.Outcome State Fault Refusal :=
  .next ((s.arriveRx dt lane rx).trackStep lane)

/-- INVALID_WINDOW_END: the count of invalid symbols has run out (R182). -/
def State.windowEnd (s : State) (n : Nat) : State :=
  if s.flag (F.SLK_LANE_STATUS_INVALID n) && (s.lane n).ch.winLeft == 0 then s.setFld (F.SLK_LANE_STATUS_INVALID n) 0
  else s

/-- INVALID_WINDOW_END. -/
def execInvalidWindowEnd (dt lane : Nat) (rx : List RxSym) (s : State) : Host.Outcome State Fault Refusal :=
  .next ((s.arriveRx dt lane rx).windowEnd lane)

/-- DEFECT_REGION_END: a region that has ended is counted, and one longer than 256 symbols leads to acquisition (R177, R181, R208). -/
def State.defectEnd (s : State) (n : Nat) : State :=
  match (s.lane n).ch.regions with
  | [] => s
  | k :: t =>
    if s.laneRuns n then
      let s := s.updLane n (fun l => { l with ch := { l.ch with regions := t } })
      let s := (s.bump (F.SLK_DEFECT_CNT n)).event (afePage n) 0
      if 256 < k then s.startAcq n else s
    else s

/-- DEFECT_REGION_END. -/
def execDefectRegionEnd (dt lane : Nat) (rx : List RxSym) (s : State) : Host.Outcome State Fault Refusal :=
  .next ((s.arriveRx dt lane rx).defectEnd lane)

/-- LOS_ENTER (R203): the mean has stayed below the level for 4,096 symbols. -/
def State.losEnter (s : State) (n : Nat) : State :=
  if s.laneRuns n && !s.flag (F.SLK_LANE_STATUS_LOS n) && Nat.ble 4096 (s.lane n).ch.lowRun then
    let s := (s.setFld (F.SLK_LANE_STATUS_LOS n) 1).bump (F.SLK_LOS_CNT_COUNT n)
    ((s.error (ctlPage n) 0x4003 0).event (ctlPage n) 0).abandonAll n
  else s

/-- LOS_CLEAR (R203): the mean has exceeded the level for 1,024 symbols; LOS clears and a zone load follows. -/
def State.losClear (s : State) (n : Nat) : State :=
  if s.laneRuns n && s.flag (F.SLK_LANE_STATUS_LOS n) && Nat.ble 1024 (s.lane n).ch.highRun then
    ((s.setFld (F.SLK_LANE_STATUS_LOS n) 0).event (ctlPage n) 1).zoneLoad n
  else s

/-- TIMING_RANGE (R204): the timing frequency has reached 500 ppm. -/
def State.timingRange (s : State) (n : Nat) : State :=
  if s.laneRuns n && (s.sfld (F.SLK_FREQ_PPB_FREQ n)).natAbs == 500000 then
    (((s.error (ctlPage n) 0x4004 0).event (ctlPage n) 2).abandon n).zoneLoad n
  else s

/-- LOS_ENTER. -/
def execLosEnter (dt lane : Nat) (rx : List RxSym) (s : State) : Host.Outcome State Fault Refusal :=
  .next ((s.arriveRx dt lane rx).losEnter lane)

/-- LOS_CLEAR. -/
def execLosClear (dt lane : Nat) (rx : List RxSym) (s : State) : Host.Outcome State Fault Refusal :=
  .next ((s.arriveRx dt lane rx).losClear lane)

/-- TIMING_RANGE. -/
def execTimingRange (dt lane : Nat) (rx : List RxSym) (s : State) : Host.Outcome State Fault Refusal :=
  .next ((s.arriveRx dt lane rx).timingRange lane)

/-! ## Fragments and sectors -/

/-- The split sectors that wait for their second fragment lose it (R221, R233). -/
def State.loseSplit (s : State) (n : Nat) : State := (s.updLane n (fun l => { l with open1 := [] })).loseOpen n (s.lane n).open1

/-- The sync mark stands in the tentative decisions, within SYNC_TOL (R170). -/
def State.markFound (s : State) (n : Nat) : Bool :=
  markMatches (s.lane n).ch.dec 0 0xE3B14D69 (s.fld (F.SLK_AGC_CFG_SYNC_TOL n))

/-- A fragment begins at the symbol after the mark: its calibration is the one latched now (R237). -/
def State.newFrag (s : State) (n : Nat) (slot second : Bool) : Frag :=
  { second := second, at_ := s.cycles, slot := slot, frame := s.chargeFrame, cal := s.calNow n, calP := s.calNow (n / 2 * 2),
    first := (s.lane n).ch.decNo + 1 }

/-- Codeword buffers in use: two per lane (R197, R221). -/
def Lane.buffers (l : Lane) : Nat := l.open1.length + l.decoding.length

/-- SYNC_MARK_FOUND: in tracking, outside index fields, a fragment opens (R170, R201). A mark in the second-fragment window of a split
sector may be its second fragment; another takes a codeword buffer and a slot (R197, R219, R225). A mark in that window counts for the
first-fragment window that is open too, which R205 leaves open [DESIGN CHOICE: notes/assumptions/37.md]. [DEDUCED: notes/assumptions/37.md] -/
def State.syncMark (s : State) (n : Nat) : State :=
  let l := s.lane n
  if !(s.captures n && s.flag (F.SLK_LANE_STATUS_TRACK n)) || s.flag (F.SLK_LANE_STATUS_IN_GAP n) || l.frag.isSome || !s.markFound n
  then s
  else if l.secondOpen && !l.open1.isEmpty then
    s.updLane n (fun l => { l with frag := some (s.newFrag n false true), hit1 := true, hit2 := true })
  else if 2 ≤ l.buffers then s
  else
    let r := s.takeSlot
    r.2.updLane n (fun l => { l with frag := some (r.2.newFrag n r.1 false), hit1 := true })

/-- SYNC_MARK_FOUND. -/
def execSyncMarkFound (dt lane : Nat) (rx : List RxSym) (s : State) : Host.Outcome State Fault Refusal :=
  .next ((s.arriveRx dt lane rx).syncMark lane)

/-- The two header copies as sliced from the tentative decisions; none while they have not all arrived (R216, R217). -/
def Chan.copies (c : Chan) (first : Nat) : Option (List Nat) :=
  if c.decNo < first + 191 then none
  else
    let o := c.decNo - (first + 191)
    some [decBits c.dec (o + 96) 96, decBits c.dec o 96]

/-- A valid first fragment opens its sector (R216, R221). The header of a fragment whose window has closed belongs to that window. -/
def State.openSector (s : State) (n : Nat) (f : Frag) (h : FragHdr) : State :=
  let x : Sector :=
    { seq := h.seq, azStart := h.azStart, azEnd := h.azEnd, split := h.split, firstLen := h.bodyLen, capAt := f.at_,
      frame := f.frame, slot := f.slot, rotary := s.rotary n, cal := f.cal, calP := f.calP }
  s.updLane n (fun l =>
    { l.headerRead { f with sector := some x, body := { f.body with len := h.bodyLen } } (s.cell (R.SLK_DEC_CFG n)).toNat with
      got1 := l.got1 || f.closed.isNone })

/-- A fragment without a header that makes it a first one is missing: at the close of its window, at once where the window is always
open (R217, R219). A split first fragment before sector timing is ready is missing, and its second fragment with it.
[DEDUCED: notes/assumptions/37.md] -/
def State.noFirst (s : State) (n : Nat) (f : Frag) (copies : List Nat) : State :=
  if s.flag (F.SLK_TIMING_READY n) then
    match f.closed with
    | some (q, fr) => s.loseBare n 5 q fr
    | none => s
  else match copies.find? hdrSecond with
    | some h => if (s.lane n).splitLost = some (fragHdr h).seq then s else s.loseBare n 5 (fragHdr h).seq s.chargeFrame
    | none => s.loseUnknown n 5 s.chargeFrame

/-- The header of a first fragment (R217, R219). -/
def State.firstHeader (s : State) (n : Nat) (f : Frag) (copies : List Nat) : State :=
  match firstHdr copies 0 with
  | some h =>
    if h.frag then s.noFirst n f copies
    else if h.split && !s.flag (F.SLK_TIMING_READY n) then
      let x : Sector := { seq := h.seq, azStart := h.azStart, azEnd := h.azEnd, frame := s.chargeFrame, rotary := s.rotary n }
      (s.updLane n (fun l => { l with splitLost := some h.seq })).loseSector n 5 x
    else s.openSector n f h
  | none => s.noFirst n f copies

/-- The open split sector that a header's second fragment joins, with that header (R217, R221). -/
def joinOf (xs : List Sector) (copies : List Nat) : Option (Sector × FragHdr) :=
  xs.findSome? (fun x => match firstHdr copies x.firstLen with
    | some h => if h.split && h.frag && h.seq == x.seq then some (x, h) else none
    | none => none)

/-- The header of a fragment whose mark fell in the second-fragment window of the open split sectors: a second fragment is joined to its
sector; a first fragment goes its own way, with a codeword buffer and a slot of its own, which it can only take now that it is known to be
one; any other is missing (R197, R217, R219, R221, R225). [DESIGN CHOICE: notes/assumptions/37.md] -/
def State.secondHeader (s : State) (n : Nat) (f : Frag) (copies : List Nat) : State :=
  let xs := (s.lane n).open1
  match joinOf xs copies with
  | some (x, h) =>
    let s := s.updLane n (fun l => { l with open1 := l.open1.filter (fun y => y.seq != x.seq) })
    s.updLane n (fun l =>
      l.headerRead { f with sector := some x, body := { f.body with len := h.bodyLen } } (s.cell (R.SLK_DEC_CFG n)).toNat)
  | none =>
    let s := if (s.lane n).secondOpen then s else s.loseSplit n
    match firstHdr copies 0 with
    | some h =>
      if h.frag || Nat.ble 2 (s.lane n).buffers then s
      else
        let r := s.takeSlot
        r.2.openSector n { f with second := false, slot := r.1 } h
    | none => s

/-- FRAGMENT_HEADER: the copies are sliced and the first that qualifies is taken (R217). [DEDUCED: notes/assumptions/37.md] -/
def State.fragHeader (s : State) (n : Nat) : State :=
  let l := s.lane n
  match l.frag with
  | none => s
  | some f =>
    match (if f.sector.isSome then none else l.ch.copies f.first) with
    | none => s
    | some copies =>
      let s := s.updLane n (fun l => { l with frag := none })
      if f.second && !l.open1.isEmpty then s.secondHeader n f copies else s.firstHeader n { f with second := false } copies

/-- FRAGMENT_HEADER. -/
def execFragmentHeader (dt lane : Nat) (rx : List RxSym) (s : State) : Host.Outcome State Fault Refusal :=
  .next ((s.arriveRx dt lane rx).fragHeader lane)

/-- SLK_SYNC_MISS (R205). -/
def State.syncMiss (s : State) (n : Nat) : State :=
  ((s.error (decPage n) 0x4005 0).event (decPage n) 1).bump (F.SLK_SYNC_MISS_CNT n)

/-! ## Sector timing (R213, R215, R219) -/

/-- What is known of an IDX that has not been located. -/
def idxDefault (_ : Nat) : IdxRec := {}

/-- The last azimuth instant of an IDX. -/
def Lane.idxRec (l : Lane) (i : Nat) : IdxRec := Sparse.get idxDefault l.idxTs i

/-- The predicted instant of the index field after the last one: its IDX's last instant plus P_rev (R213). -/
def State.predicted (s : State) (n : Nat) : Nat :=
  let l := s.lane n
  match l.idxLast with
  | some i => (l.idxRec ((i + 1) % 8)).ts + s.fld (F.SLK_REV_PERIOD_NS_PERIOD n)
  | none => 0

/-- TIMEBASE has reached 1.0 µs before the predicted start of the next index field, 312 symbols before its instant (R215). -/
def State.gapDue (s : State) (n : Nat) : Bool :=
  let r := symbolsPerCycle (s.fld (F.SLK_LANE_STATUS_ZONE n))
  Nat.ble (r * s.predicted n) (r * (s.timebase + 1000) + 5 * 312)

/-- TIMEBASE has reached 1.0 µs after the predicted end of the next index field, 200 symbols after its instant (R215). -/
def State.gapOver (s : State) (n : Nat) : Bool :=
  let r := symbolsPerCycle (s.fld (F.SLK_LANE_STATUS_ZONE n))
  Nat.ble (r * (s.predicted n + 1000) + 5 * 200) (r * s.timebase)

/-- The time of azimuth `a`, linear between azimuth instants (R219), from the instant of IDX `i` on; `ahead` says that instants after it are
still predicted. The fuel is the number of index intervals looked at. -/
def Lane.azTime (l : Lane) (p a : Nat) : Nat → Nat → Nat → Bool → Option Nat
  | 0, _, _, _ => none
  | k + 1, i, t, ahead =>
    let here := l.idxRec i
    let next := l.idxRec ((i + 1) % 8)
    let t' := if ahead then next.ts + p else next.ts
    let d := (a + 65536 - here.az % 65536) % 65536
    let w := (next.az + 65536 - here.az % 65536) % 65536
    if d < w then some (t + ceilDiv (d * (t' - t)) w) else Lane.azTime l p a k ((i + 1) % 8) t' true

/-- The predicted close of the sync window of sector `k`: AZ_END of sector k + 1 (R219). -/
def State.windowEndAt (s : State) (n k : Nat) : Option Nat :=
  let l := s.lane n
  let c := sectorsPerRev (s.fld (F.SLK_LANE_CFG_RING n))
  match l.idxLast with
  | some i =>
    let j := (i + 7) % 8
    l.azTime (s.fld (F.SLK_REV_PERIOD_NS_PERIOD n)) (((k + 1) % c + 1) * 65536 / c % 65536) 8 j (l.idxRec j).ts false
  | none => none

/-- The sector whose sync window is open at azimuth `a`: the one whose AZ_END was passed last (R219). -/
def sectorAt (c a : Nat) : Nat :=
  (((List.range c).filter (fun j => Nat.ble (j * 65536 / c) a)).length + c - 2) % c

/-- The SEQ of sector `k` whose window closes now: REV of the last index field, carried by the turns between its azimuth and
AZ_END of sector k + 1 (R216, R219). -/
def State.closedSeq (s : State) (n k : Nat) : Nat :=
  let wd := (s.cell (R.SLK_INDEX_WORD n)).toNat
  let c := (k + 2) * 65536 / sectorsPerRev (s.fld (F.SLK_LANE_CFG_RING n))
  let turns : Int := ((c : Int) - (natBits wd 15 0 : Nat)) / 65536
  unsigned 8 ((natBits wd 23 16 : Nat) - turns) * 256 + k

/-- A first-fragment window counts: the lane runs and is not PAUSED (R205, R252). -/
def State.windowCounts (s : State) (n : Nat) : Bool := s.laneRuns n && !s.lanePaused n

/-- The close of the first-fragment window of sector `k`; that of the next sector opens (R205, R219). A fragment whose header is still
awaited decides by it. [DEDUCED: notes/assumptions/37.md] -/
def State.closeFirst (s : State) (n k : Nat) : State :=
  let l := s.lane n
  let c := sectorsPerRev (s.fld (F.SLK_LANE_CFG_RING n))
  let q := s.closedSeq n k
  let s := s.updLane n (fun l => { l with hit1 := false, got1 := false, secNow := some ((k + 1) % c) })
  if l.got1 || !s.windowCounts n then s
  else match (if l.hit1 then l.frag else none) with
    | some f =>
      if f.sector.isNone then s.updLane n (fun l => { l with frag := some { f with closed := some (q, s.chargeFrame) } })
      else s.loseBare n 5 q s.chargeFrame
    | none => (if l.hit1 then s else s.syncMiss n).loseBare n 5 q s.chargeFrame

/-- The close of the second-fragment window (R205, R221). With no split sector open no second fragment is due, and no miss is recorded.
[DESIGN CHOICE: notes/assumptions/37.md] -/
def State.closeSecond (s : State) (n : Nat) : State :=
  let l := s.lane n
  let s := s.updLane n (fun l => { l with secondOpen := false })
  let s := if l.hit2 || !s.windowCounts n || l.open1.isEmpty then s else s.syncMiss n
  match l.frag with
  | some f => if f.second && f.sector.isNone then s else s.loseSplit n
  | none => s.loseSplit n

/-- SYNC_WINDOW_CLOSE (R205, R219, R221): the second-fragment window 2.0 µs after IN_GAP closed, or the first-fragment window of
sector k at its predicted end. -/
def State.windowClose (s : State) (n : Nat) (second : Bool) (k : Nat) : State :=
  let l := s.lane n
  if !s.flag (F.SLK_TIMING_READY n) then s
  else if second then (if l.secondOpen && Nat.ble (l.secondAt + 2000) s.timebase then s.closeSecond n else s)
  else if l.secNow = some k then
    match s.windowEndAt n k with
    | some t => if t ≤ s.timebase then s.closeFirst n k else s
    | none => s
  else s

/-- SYNC_WINDOW_CLOSE. -/
def execSyncWindowClose (dt lane : Nat) (rx : List RxSym) (second : Bool) (k : Nat) (s : State) : Host.Outcome State Fault Refusal :=
  .next ((s.arriveRx dt lane rx).windowClose lane second k)

/-- The counters of a decode (R196, R206, Tables 4-14, 4-15). UNSAT of all 2,048 checks does not fit its field. -/
def State.countDecode (s : State) (n : Nat) (ok : Bool) (unsat globals locals total : Nat) : State :=
  let s := if ok then (s.bump (F.SLK_DEC_OK_CNT n)).bumpBy (F.SLK_ITER_SUM n) total
    else (s.bump (F.SLK_DEC_FAIL_CNT n)).event (decPage n) 0
  let s := (s.setFld (F.SLK_DEC_LAST_OK n) (b2n ok)).setFld (F.SLK_DEC_LAST_LOCAL_USED n) locals
  let s := s.setFld (F.SLK_DEC_LAST_GLOBAL_USED n) globals
  if unsat < 2048 then s.setFld (F.SLK_DEC_LAST_UNSAT n) unsat
  else (s.setFld (F.SLK_DEC_LAST_UNSAT n) (s.freeVal % 2048)).drawFree

/-- The codeword symbols of a sector in the lane's codeword buffer: equalized values and erasures (R179, R184). -/
def State.sectorFrags (s : State) (n : Nat) (x : Sector) : List (List (Int × Bool)) :=
  let e := s.chanEnv n
  x.bodies.map (fun b => b.frag e.target e.drop e.surge e.pad)

/-- The decode of a sector (R195, R202). -/
def State.sectorOut (s : State) (n : Nat) (x : Sector) : DecOut :=
  decodeFrags (decRun x.decCfg) (targetOf (x.bodies.headD {}).loops.target) (s.fld (F.SLK_MSE n)) (s.sectorFrags n x)

/-- SECTOR_DECODE_DONE: the decode of the oldest sector ends (R195, R196). ERASED_CNT takes its erased symbols here; when they count is not
said [DESIGN CHOICE: notes/assumptions/79.md]. -/
def State.decodeDone (s : State) (n : Nat) : State :=
  match (s.lane n).decoding with
  | [] => s
  | x :: rest =>
    let o := s.sectorOut n x
    let s := s.updLane n (fun l => { l with decoding := rest, tail := if rest.isEmpty && !l.tailOpen then 0 else l.tail })
    let s := s.bumpBy (F.SLK_ERASED_CNT n) (erasedCount (s.sectorFrags n x))
    let inj := s.takeInjection 0x0D n
    let s := inj.2
    let ok := !inj.1 && o.unsat == 0
    let s := s.countDecode n ok o.unsat o.globals o.locals o.total
    if ok && goodPayload o.cw then s.decoded n x (userBytes o.cw) false else s.decodeFailed n x

/-- SECTOR_DECODE_DONE. -/
def execSectorDecodeDone (dt lane : Nat) (rx : List RxSym) (s : State) : Host.Outcome State Fault Refusal :=
  .next ((s.arriveRx dt lane rx).decodeDone lane)

/-! ## Index fields -/

/-- IN_GAP_OPEN (R215). -/
def State.gapOpen (s : State) (n : Nat) : State :=
  if s.laneRuns n && s.flag (F.SLK_TIMING_READY n) && s.gapDue n then s.setFld (F.SLK_LANE_STATUS_IN_GAP n) 1 else s

/-- IN_GAP_OPEN. -/
def execInGapOpen (dt lane : Nat) (rx : List RxSym) (s : State) : Host.Outcome State Fault Refusal :=
  .next ((s.arriveRx dt lane rx).gapOpen lane)

/-- A copy of the azimuth burst checks: its CRC, and its reserved bits (R212). -/
def burstValid (wd : Nat) : Bool :=
  natBits wd 39 32 == crcBits 8 0x07 0 (natBitsMsb 32 wd) && natBits wd 31 29 == 0

/-- The index mark stands in the tentative decisions, within SYNC_TOL, of a field that ends with the newest (R211, R215). -/
def State.indexMark (s : State) (n : Nat) : Bool :=
  markMatches (s.lane n).ch.dec 352 0x1F35A7C2 (s.fld (F.SLK_AGC_CFG_SYNC_TOL n))

/-- The three copies of the azimuth burst of that field (Table 5-1). -/
def Chan.burst (c : Chan) : List Nat := [decBits c.dec 312 40, decBits c.dec 272 40, decBits c.dec 232 40]

/-- The index field ends: IN_GAP closes, acquisition begins, and the second-fragment window opens (R177, R215, R219). -/
def State.fieldEnd (s : State) (n : Nat) : State :=
  let s := (s.setFld (F.SLK_LANE_STATUS_IN_GAP n) 0).startAcq n
  s.updLane n (fun l => { l with secondOpen := s.flag (F.SLK_TIMING_READY n), secondAt := s.timebase, hit2 := false })

/-- A field whose instant was not accepted goes on with the predicted one (R253). -/
def State.skipField (s : State) (n : Nat) : State :=
  let p := s.predicted n
  s.updLane n (fun l => match l.idxLast with
    | some i =>
      let j := (i + 1) % 8
      { l with idxTs := Sparse.set idxDefault l.idxTs j { l.idxRec j with ts := p, located := false }, idxLast := some j }
    | none => l)

/-- An azimuth burst is accepted at instant `t` (R212, R213): timestamp, word, P_rev where the IDX was located one revolution before, and
readiness after nine fields in a row. [DEDUCED: notes/assumptions/40.md] -/
def State.acceptBurst (s : State) (n wd t : Nat) : State :=
  let idx := natBits wd 26 24
  let l := s.lane n
  let ready := s.flag (F.SLK_TIMING_READY n)
  let s := (s.setFld (F.SLK_INDEX_TS_LO_TS n) (t % 2 ^ 32)).setFld (F.SLK_INDEX_TS_HI_TS n) (t / 2 ^ 32)
  let s := s.setFld (F.SLK_INDEX_WORD n) (wd % 2 ^ 32)
  let before := l.idxRec idx
  let run := if l.idxLast = some ((idx + 7) % 8) then l.idxRun + 1 else 1
  let s := if before.located && (ready || Nat.ble 9 run) then s.setFld (F.SLK_REV_PERIOD_NS_PERIOD n) ((t - before.ts) % 2 ^ 32) else s
  let now : IdxRec := { ts := t, located := true, az := natBits wd 15 0, rev := natBits wd 23 16 }
  let c := sectorsPerRev (s.fld (F.SLK_LANE_CFG_RING n))
  let s := s.updLane n (fun l => { l with
    idxTs := Sparse.set idxDefault l.idxTs idx now, idxLast := some idx, idxRun := min 9 run, idxMiss := 0 })
  if ready || run < 9 then s
  else (s.setFld (F.SLK_TIMING_READY n) 1).updLane n (fun l => { l with secNow := some (sectorAt c (natBits wd 15 0)) })

/-- INDEX_FIELD_LOCATED: the field's mark and burst as sliced, and the azimuth instant as measured. Once sector timing is ready the field
is looked for within IN_GAP (R215). A field whose three copies all fail is located without an instant, and leaves the servo's runs as they
are [DESIGN CHOICE: notes/assumptions/40.md]. [DEDUCED: notes/assumptions/40.md] -/
def State.indexLocated (s : State) (n : Nat) (t : Nat) : State :=
  let ready := s.flag (F.SLK_TIMING_READY n)
  if s.laneRuns n && s.rotary n && s.indexMark n && (!ready || s.flag (F.SLK_LANE_STATUS_IN_GAP n)) then
    match (s.lane n).ch.burst.find? burstValid with
    | none => ((if ready then s.skipField n else s).updLane n (fun l => { l with idxRun := 0, idxMiss := 0 })).fieldEnd n
    | some wd =>
      let s := (s.acceptBurst n wd t).fieldEnd n
      if s.flag (F.SLK_TIMING_READY n) then s.servoUpdate n t (natBits wd 15 0) else s
  else s

/-- INDEX_FIELD_LOCATED. -/
def execIndexFieldLocated (dt lane : Nat) (rx : List RxSym) (instant : Nat) (s : State) : Host.Outcome State Fault Refusal :=
  .next ((s.arriveRx dt lane rx).indexLocated lane instant)

/-- INDEX_MISS (R215, R253): no field within IN_GAP; prediction goes on from the previous revolution, and the eighth miss in a row drops
sector timing. A missed field breaks the servo's runs of consecutive index fields (R248). [DEDUCED: notes/assumptions/40.md] -/
def State.indexMiss (s : State) (n : Nat) : State :=
  if s.laneRuns n && s.flag (F.SLK_TIMING_READY n) && s.flag (F.SLK_LANE_STATUS_IN_GAP n) && s.gapOver n then
    let s := ((s.error (ctlPage n) 0x4006 0).event (ctlPage n) 5).bump (F.SLK_INDEX_MISS_CNT n)
    let s := (s.skipField n).updLane n (fun l => { l with idxMiss := l.idxMiss + 1, lockRun := 0, unlockRun := 0 })
    let s := s.fieldEnd n
    if 8 ≤ (s.lane n).idxMiss then (s.loseSplit n).dropTiming n else s.noteWait n
  else s

/-- INDEX_MISS. -/
def execIndexMiss (dt lane : Nat) (rx : List RxSym) (s : State) : Host.Outcome State Fault Refusal :=
  .next ((s.arriveRx dt lane rx).indexMiss lane)

/-! ## Retries and the downlink -/

/-- RETRY_STEP_START (R227). -/
def execRetryStepStart (dt engine : Nat) (s : State) : Host.Outcome State Fault Refusal :=
  .next ((s.arrive dt).retryStart engine)

/-- RETRY_STEP_DONE (R227). -/
def execRetryStepDone (dt engine : Nat) (z : List (List Int)) (s : State) : Host.Outcome State Fault Refusal :=
  .next ((s.arrive dt).retryDone engine z)

/-- RETRY_DEADLINE (R229). -/
def execRetryDeadline (dt lane seq : Nat) (s : State) : Host.Outcome State Fault Refusal :=
  .next ((s.arrive dt).retryDeadline lane seq)

/-- DL_SEND (R242). -/
def execDlSend (dt lane w : Nat) (v : Word) (s : State) : Host.Outcome State Fault Refusal :=
  .next ((s.arriveBy dt w).dlSend lane w v)

/-- DOWNLINK_TX_START (R243). -/
def execDownlinkTxStart (dt lane : Nat) (s : State) : Host.Outcome State Fault Refusal := .next ((s.arrive dt).dlStart lane)

/-- DOWNLINK_TX_DONE (R241). -/
def execDownlinkTxDone (dt lane : Nat) (s : State) : Host.Outcome State Fault Refusal := .next ((s.arrive dt).dlDone lane)

/-- INHIBIT_WAIT_EXPIRE (R244). -/
def execInhibitWaitExpire (dt lane : Nat) (s : State) : Host.Outcome State Fault Refusal :=
  .next ((s.arrive dt).inhibitExpire lane)

/-- REDUND_DECISION (R768) of pair m, whose primary is lane 2m. -/
def execRedundDecision (dt pair seq : Nat) (s : State) : Host.Outcome State Fault Refusal :=
  .next ((s.arrive dt).redundDecision (2 * pair) seq)

end Sys2Proof.Machine
end

