-- ==== Sys2Proof/Machine/PowerState.lean ====
section
/-! DEFINITION. Power states, wake and sentry windows (spec/17_power_thermal.md, R716 to R725, R743, R744; R809, R810). -/

namespace Sys2Proof.Machine

/-! ## Requests (R718, R719, R723) -/

/-- Everything R719 asks to be quiet is. -/
def State.quietForSleep (s : State) : Bool :=
  Nat.ble (s.pstate 0x010) 1 && !s.flag F.FRM_PLAN_STATUS_LOAD_BUSY && s.etu.cmd.isNone && s.grf.reqs.isEmpty

/-- The sentry tile. -/
def State.sentryTile (s : State) : Nat := s.fld F.PWR_SENTRY_CFG_TILE

/-- The sentry program as a plan of one KIND 0 stage of TILE_SPAN 1 whose program area begins at SENTRY_PROG (R723, R725). -/
def State.sentryPlan (s : State) : Plan :=
  let o := s.fld F.PWR_SENTRY_PROG_OFFSET
  { addr := cellarAddr s.sentryTile o, hdr := { progOff := 0, progSize := 0x180000 - o } }

/-- The stage of the sentry program. -/
def State.sentryStage (s : State) : LevelStage :=
  { idx := 0, stg := { kind := 0, levels := 1, tileSpan := 1 }, off := 0, desc := (s.read s.sentryPlan.addr 64).bytes }

/-- An op names an address that is not of own-slice form. A Harvest request's template holds device addresses. -/
def TileOp.notOwn (o : TileOp) : Bool := o.opc == 7 || o.extents.any (fun e => natBits e.field 63 62 != 0)

/-- The sentry program fails the checks of R391, or names an address that is not of own-slice form (R723).
[DEDUCED: notes/assumptions/69.md] -/
def State.sentryProgBad (s : State) : Bool :=
  let p := s.sentryPlan
  let x := s.sentryStage
  if Nat.blt 0x180000 (s.fld F.PWR_SENTRY_PROG_OFFSET + 64) || !(progShape p x).isEmpty then true
  else !(s.progOpFaults p x).isEmpty || (s.progOps p x).any (fun y => y.2.notOwn)

/-- The first field that fails the checks of R723, as the offset of its register and its lowest bit. [DEDUCED: notes/assumptions/69.md] -/
def State.sentryFault (s : State) : Option (Nat × Nat) :=
  let t := s.sentryTile
  let b := s.fld F.PWR_SENTRY_BUF_OFFSET
  let per := s.fld F.PWR_SENTRY_CFG_PERIOD_MS
  if !s.tilePresent t || (s.tile t).withdrawn then some (0x60, 0)
  else if per < 100 ∨ 10000 < per then some (0x60, 16)
  else if b < 0xA0000 ∨ 0x180000 < b + 64 + 16 * s.fld F.PWR_SENTRY_WIN_MAX_POINTS then some (0x68, 0)
  else if s.fld F.PWR_SENTRY_PROG_OFFSET < 0xA0000 ∨ s.sentryProgBad = true then some (0x6C, 0)
  else none

/-- A change between RUN and TRIM (R718). -/
def State.powerSwitch (s : State) (st : Nat) : State :=
  if s.fld F.PWR_STATE = st then s
  else (((s.accountLife).setFld F.PWR_STATE st).event 0x150 0).coreFreqChange

/-- A request for SENTRY or PARKED (R719). [DEDUCED: notes/assumptions/69.md] -/
def State.powerEnter (s : State) (st : Nat) : State :=
  if !s.quietForSleep then s.error 0x150 0xA022 0
  else match (if st = 2 then s.sentryFault else none) with
    | some x => (s.error 0x150 Err.fieldRange (infoReg x.1 x.2)).error 0x150 0xA022 0
    | none => s.updPwr (fun p => { p with entering := st })

/-- A request for state `st` that R719 discards. -/
def State.sleepBarred (s : State) (st : Nat) : Bool :=
  !s.lowPower && s.pwr.entering == 0 && Nat.ble 2 st && (!s.quietForSleep || (st == 2 && s.sentryFault.isSome))

/-- A write of PWR_REQ: while the device is in SENTRY or PARKED, or enters it, only TARGET is stored; a request that R719 discards is not.
[DEDUCED: notes/assumptions/69.md] -/
def State.writePwrReq (s : State) (w : Nat) (v : Word) : State :=
  s.onRws 0x150 0x44 w v (fun s =>
    let st := getBits v 1 0
    if s.sleepBarred st then s.powerEnter st
    else
      let s := (s.setFld F.PWR_REQ_TARGET st).wrote 0x150 w
      if s.lowPower || s.pwr.entering != 0 then s
      else if st ≤ 1 then s.powerSwitch st
      else s.powerEnter st)

/-! ## Wake (R721, R722) -/

/-- A wake event of WAKE_CAUSE bit `b` (Table 17-2): acted on when entry completes; only the first in a stay is.
[DEDUCED: notes/assumptions/69.md] -/
def State.wake (s : State) (b : Nat) : State :=
  if s.pwr.entering ≠ 0 then s.updPwr (fun p => { p with wakeMask := setBit p.wakeMask b })
  else if !s.lowPower || s.pwr.waking then s
  else
    let s := ((s.sentryStop).setFld F.PWR_WAKE_CAUSE (setBit (s.fld F.PWR_WAKE_CAUSE) b)).event 0x150 3
    let s := s.noteRise R.PWR_WAKE_CAUSE (1#32 <<< b)
    s.updPwr (fun p => { p with waking := true, hostWake := p.hostWake || (b != 0 && s.flag F.PWR_WAKE_CFG_HOST_WAKE_EN) })

/-- WAKE_IN (Table 17-2). -/
def State.wakeIn (s : State) : State :=
  if s.flag F.PWR_WAKE_CFG_WAKE_IN_EN && s.pinSees 3 then s.wake 0 else s

/-- WAKE_TIMER: TIMER_S seconds of TIMEBASE after entry. -/
def State.wakeTimer (s : State) : State :=
  let t := s.fld F.PWR_WAKE_CFG_TIMER_S
  if s.lowPower && s.pwr.entering == 0 && t != 0 && Nat.ble (t * 1000000000) ((s.timebase + 2 ^ 64 - s.pwr.enteredTs) % 2 ^ 64) then s.wake 1
  else s

/-- Entry to SENTRY or PARKED completes (R720): the link, the ports and the lanes go down, CORE and FABRIC lose their power, and a
wake event that occurred during entry is acted on. [DEDUCED: notes/assumptions/69.md] -/
def State.entryDone (s : State) : State :=
  let st := s.pwr.entering
  if st = 0 then s
  else
    let s := (s.pfReset true).portsOff
    let s := (List.range 8).foldl (fun (s : State) n => if s.laneRuns n then s.lanePowerDown n else s) s
    let s := (s.fabricClear).loseCellar (if st = 2 then some s.sentryTile else none)
    let s := s.setCell R.GLB_CLOCK_STATUS 0
    let lane := 0x4000 + s.fld F.PWR_SENTRY_CFG_LANE
    let s := { s with held := s.held
      ++ (if st = 2 then [(lane, 0x150), (0x2000, 0x150), (0x3010, 0x150)] else [])
      ++ (if s.fld F.PWR_WAKE_CFG_TIMER_S = 0 then [] else [(0x2001, 0x150)]) }
    let s := (s.accountLife).setFld F.PWR_STATE_RETURN (s.fld F.PWR_STATE)
    let s := ((s.setFld F.PWR_STATE st).event 0x150 0).bump F.PWR_TRANSITION_CNT
    let m := s.pwr.wakeMask
    let s := s.updPwr (fun p => { p with
      entering := 0, wakeMask := 0, waking := false, enteredTs := s.timebase, windowAt := s.cycles, window := 0, phase := 0 })
    if bitOf m 0 then s.wake 0 else if bitOf m 1 then s.wake 1 else s

/-- A channel fails training (R455). -/
def State.trainFail (s : State) (c : Nat) : State :=
  (s.error (0x0C0 + 2 * c) 0x5018 0).pageFault (0x0C0 + 2 * c) 0x5018

/-- The channels have been trained; those of `failed` failed (R455, R747). -/
def State.trained (s : State) (failed : List Nat) : State :=
  let bad := (List.range 8).filter (fun c => failed.contains c)
  bad.foldl (fun (s : State) c => s.trainFail c) (s.updMem (fun m => { m with failed := bad, statusReset := [] }))

/-- The return completes (R721, R722): the device enters the state held in RETURN. [DEDUCED: notes/assumptions/69.md] -/
def State.wakeDone (s : State) (failed : List Nat) : State :=
  if !s.pwr.waking then s
  else
    let s := ((s.accountLife).setFld F.PWR_STATE (s.fld F.PWR_STATE_RETURN)).release 0x150
    let s := (s.event 0x150 0).updPwr (fun p => { p with waking := false, phase := 0 })
    let s := s.setFld F.GLB_CLOCK_STATUS_FABRIC_MHZ 1000
    (s.trained failed).setCoreMax.applyCore.portsResume

/-- A write of WAKE_CAUSE: its ones clear bits, but for one set in the same cycle (R66), and HOST_WAKE is released once all are clear (R721). -/
def State.writeWakeCause (s : State) (w : Nat) (v : Word) : State :=
  s.onWrite 0x150 0x58 w v (fun s =>
    let m := s.fld F.PWR_WAKE_CAUSE &&& (7 - getBits (v &&& ~~~s.risen R.PWR_WAKE_CAUSE) 2 0)
    let s := (s.setFld F.PWR_WAKE_CAUSE m).wrote 0x150 w
    if m = 0 then s.updPwr (fun p => { p with hostWake := false }) else s)

/-! ## Sentry windows (R724, R725, R744) -/

/-- CRIT, coolant band 4 and the safe state make the device skip a window (R744, R809). -/
def State.skipWindow (s : State) : Bool :=
  s.fld F.PWR_THERM_STATUS_THERM_STATE == 3 || s.fld F.PWR_THERM_STATUS_COOL_BAND == 4 || s.saf.inSafe

/-- A window opens: FABRIC, the sentry tile and the sentry lane have power, and the lane makes a zone load and sends a TICK (R724). -/
def State.openSentry (s : State) : State :=
  let l := s.fld F.PWR_SENTRY_CFG_LANE
  let n := s.pwr.window
  let s := (s.bump F.PWR_SENTRY_WIN_CNT).updPwr (fun p => { p with phase := 1, phaseAt := s.cycles, windowTs := s.timebase, points := 0, dropped := 0 })
  let s := (s.setFld F.GLB_CLOCK_STATUS_FABRIC_MHZ 1000).setFld F.GLB_CLOCK_STATUS_CORE_MHZ 350
  let s := s.updCond (ctlPage l) (fun c => { c with off := false, running := true })
  (s.zoneLoadOf l 4).laneTick l (n % 2 ^ 16)

/-- SENTRY_WINDOW: a period has passed. [DEDUCED: notes/assumptions/69.md] -/
def State.sentryWindow (s : State) : State :=
  let p := msCycles (s.fld F.PWR_SENTRY_CFG_PERIOD_MS)
  if s.fld F.PWR_STATE = 2 ∧ s.pwr.entering = 0 ∧ s.pwr.waking = false ∧ s.pwr.phase = 0 ∧ s.pwr.windowAt + p ≤ s.cycles then
    let s' := if s.skipWindow then s.bump F.PWR_SENTRY_SKIP_CNT else s.openSentry
    s'.updPwr (fun x => { x with windowAt := x.windowAt + p, window := (x.window + 1) % 2 ^ 32 })
  else s

/-- The run of the sentry program. -/
def State.sentryRun (s : State) : RunStage :=
  let p := s.sentryPlan
  { stage := 0, kind := 0, tiles := [s.sentryTile], share := 0, desc := p.addr, progBase := p.addr }

/-- The sentry buffer header (Table 17-3) as the device writes it before the program runs. -/
def State.sentryHeader (s : State) : List Byte :=
  leBytes 4 s.pwr.points ++ leBytes 4 ((s.pwr.window + 2 ^ 32 - 1) % 2 ^ 32) ++ leBytes 4 s.pwr.dropped ++ leBytes 4 0 ++ List.replicate 48 0

/-- SENTRY_LISTEN_END: after LISTEN_MS the header is written and the program starts. [DEDUCED: notes/assumptions/69.md] -/
def State.sentryListenEnd (s : State) : State :=
  if s.pwr.phase = 1 ∧ s.pwr.phaseAt + msCycles (s.fld F.PWR_SENTRY_WIN_LISTEN_MS) ≤ s.cycles then
    let s := s.poke false (cellarAddr s.sentryTile (s.fld F.PWR_SENTRY_BUF_OFFSET)) s.sentryHeader
    let s := s.updPwr (fun p => { p with phase := 2, phaseAt := s.cycles })
    let s := s.updCond (0x080 + s.sentryTile) (fun c => { c with off := false })
    s.startStage s.sentryRun
  else s

/-- VERDICT of the sentry buffer. -/
def State.sentryVerdict (s : State) : Nat := s.readNat (cellarAddr s.sentryTile (s.fld F.PWR_SENTRY_BUF_OFFSET + 12)) 4

/-- The program's stage as it stands. -/
def State.sentryDone (s : State) : Bool := match s.frm.running with | r :: _ => s.tilesDone r | [] => false

/-- SENTRY_PROGRAM_DONE: a VERDICT other than 0 wakes the device (R725). [DEDUCED: notes/assumptions/69.md] -/
def State.sentryProgramDone (s : State) : State :=
  if s.pwr.phase = 2 ∧ s.sentryDone = true then
    let v := s.sentryVerdict
    let s := s.sentryStop
    if v = 0 then s else (s.setFld F.PWR_WAKE_INFO_VERDICT v).wake 2
  else s

/-- SENTRY_PROGRAM_OVERRUN: a program still running PROG_LIMIT_MS after its start is stopped (R725). -/
def State.sentryOverrun (s : State) : State :=
  if s.pwr.phase = 2 ∧ s.sentryDone = false ∧ s.pwr.phaseAt + msCycles (s.fld F.PWR_SENTRY_WIN_PROG_LIMIT_MS) ≤ s.cycles then
    ((s.sentryStop).error 0x150 0x3009 0).bump F.PWR_SENTRY_OVERRUN_CNT
  else s

/-! ## The commands -/

/-- PWR_REQ_RUN (R718). -/
def execPwrReqRun (dt w : Nat) (s : State) : Host.Outcome State Fault Refusal := .next ((s.arriveBy dt w).writePwrReq w 0)

/-- PWR_REQ_TRIM (R718). -/
def execPwrReqTrim (dt w : Nat) (s : State) : Host.Outcome State Fault Refusal := .next ((s.arriveBy dt w).writePwrReq w 1)

/-- PWR_REQ_SENTRY (R719). -/
def execPwrReqSentry (dt w : Nat) (s : State) : Host.Outcome State Fault Refusal := .next ((s.arriveBy dt w).writePwrReq w 2)

/-- PWR_REQ_PARKED (R719). -/
def execPwrReqParked (dt w : Nat) (s : State) : Host.Outcome State Fault Refusal := .next ((s.arriveBy dt w).writePwrReq w 3)

/-- LOW_POWER_ENTRY_DONE (R720). -/
def execLowPowerEntryDone (dt : Nat) (s : State) : Host.Outcome State Fault Refusal := .next ((s.arrive dt).entryDone)

/-- WAKE_IN (R721). -/
def execWakeIn (dt : Nat) (s : State) : Host.Outcome State Fault Refusal := .next ((s.arrive dt).wakeIn)

/-- WAKE_TIMER (R721). -/
def execWakeTimer (dt : Nat) (s : State) : Host.Outcome State Fault Refusal := .next ((s.arrive dt).wakeTimer)

/-- WAKE_DONE (R721). -/
def execWakeDone (dt : Nat) (failed : List Nat) (s : State) : Host.Outcome State Fault Refusal := .next ((s.arrive dt).wakeDone failed)

/-- WAKE_CAUSE_CLEAR (R721). -/
def execWakeCauseClear (dt w : Nat) (v : Word) (s : State) : Host.Outcome State Fault Refusal := .next ((s.arriveBy dt w).writeWakeCause w v)

/-- SENTRY_WINDOW (R724). -/
def execSentryWindow (dt : Nat) (s : State) : Host.Outcome State Fault Refusal := .next ((s.arrive dt).sentryWindow)

/-- SENTRY_LISTEN_END (R724). -/
def execSentryListenEnd (dt : Nat) (s : State) : Host.Outcome State Fault Refusal := .next ((s.arrive dt).sentryListenEnd)

/-- SENTRY_PROGRAM_DONE (R725). -/
def execSentryProgramDone (dt : Nat) (s : State) : Host.Outcome State Fault Refusal := .next ((s.arrive dt).sentryProgramDone)

/-- SENTRY_PROGRAM_OVERRUN (R725). -/
def execSentryProgramOverrun (dt : Nat) (s : State) : Host.Outcome State Fault Refusal := .next ((s.arrive dt).sentryOverrun)

/-- HW_THERMAL_TRIP (R729). -/
def execHwThermalTrip (dt sensor : Nat) (t : Int) (s : State) : Host.Outcome State Fault Refusal := .next ((s.arrive dt).hardwareTrip sensor t)

/-- AGE_HOUR (R738): an hour of RUN or TRIM has passed while Rootstock runs. -/
def execAgeHour (dt slack : Nat) (held : Bool) (s : State) : Host.Outcome State Fault Refusal :=
  let s := s.arrive dt
  .next (if s.pwr.hourAt + 720000000000 ≤ s.cycles then s.ifUp (fun s => s.ageHour slack held) else s)

/-- VDD_LOW (R746). -/
def execVddLow (dt mv : Nat) (s : State) : Host.Outcome State Fault Refusal := .next ((s.arrive dt).vddLow mv)

end Sys2Proof.Machine
end

