-- ==== Sys2Proof/Machine/Pages.lean ====
section
/-! DEFINITION. Page control (spec/02_register_pages.md, R71 to R74, R110): ENABLE, SOFT_RESET and FREEZE with what each block's
chapter makes of them, and the lock, event and error registers of the header (R80, R85, R89). -/

namespace Sys2Proof.Machine

/-- The instance of a page (Table 2-14). -/
def pageInst (p : Nat) : Nat := match pageInfo p with | some i => i.inst | none => 0

/-- The page implements PAGE_CTRL (R62, R63). -/
def hasCtrl (p : Nat) : Bool := match pageInfo p with | some i => i.ctrl | none => false

/-! ## Accepted work (R71, and the "accepted work" of each chapter) -/

/-- A lane holds sectors: being received, decoded, on the ladder, or waiting for a pair's decision. [DEDUCED: notes/assumptions/18.md] -/
def State.laneWork (s : State) (n : Nat) : Bool :=
  let l := s.lane n
  l.frag.isSome || !l.open1.isEmpty || !l.decoding.isEmpty || s.slk.onLadder.any (fun x => x.1 == n)
    || s.slk.redund.any (fun r => r.lane / 2 == n / 2)

/-- The instance whose first page is `p` holds work that it had accepted. [DEDUCED: notes/assumptions/18.md] -/
def State.pageWork (s : State) (p : Nat) : Bool :=
  let t := pageType p
  if t == 2 then s.frm.compute.isSome || s.frm.closing.isSome
  else if t == 3 then s.laneWork (pageInst p)
  else if t == 4 then s.frm.ingest.isSome
  else if t == 5 then s.hrv.service.isSome || !s.hrv.queue.isEmpty || !s.hrv.held.isEmpty
  else if t == 6 then s.frm.running.any RunStage.scvRuns
  else if t == 7 then (s.tile (pageInst p)).heldBy != 0
  else if t == 9 then !s.etu.jobs.isEmpty || s.etu.cmd.isSome
  else false

/-! ## ENABLE (R71) -/

/-- An instance leaves OFF for IDLE, and starts what its configuration starts. -/
def State.turnOn (s : State) (p : Nat) : State :=
  let t := pageType p
  let n := pageInst p
  let s := s.updCond p (fun c => { c with off := false })
  if t == 2 || t == 4 then s.sepFollow
  else if t == 3 then (if s.laneOn n then s.laneStart n else s)
  else if t == 10 then s.portStart n
  else s

/-- An instance reads OFF: it holds nothing and does nothing. [DEDUCED: notes/assumptions/18.md] -/
def State.turnOff (s : State) (p : Nat) : State :=
  let t := pageType p
  let n := pageInst p
  let s := if t == 3 && (s.page p).cond.running then s.lanePowerDown n else s
  (s.release p).updCond p (fun c => { c with off := true, waiting := false, draining := false, running := false, armed := false })

/-- ENABLE = 0: straight to OFF, or through DRAINING, also beneath a pause (R71). A port's link goes OFF (Table 12-3).
[DEDUCED: notes/assumptions/18.md] -/
def State.turnDown (s : State) (p : Nat) : State :=
  let t := pageType p
  let c := (s.page p).cond
  if t == 10 then s.portOff (pageInst p)
  else if t == 2 then
    (if c.draining then s else if stateOf c == St.waiting then s.frmCut else if c.running || c.armed || c.waiting then s.frmDrain
      else s.turnOff p)
  else if c.draining then s
  else if c.frozen || c.ownPause then
    (if s.pageWork p then s.updCond p (fun c => { c with draining := true }) else s.turnOff p)
  else if (c.running || c.armed) && !c.waiting then s.updCond p (fun c => { c with draining := true })
  else s.turnOff p

/-- ENABLE takes a value. During a soft reset only the bit changes: the reset's end reads it (R72). [DEDUCED: notes/assumptions/18.md] -/
def State.setEnable (s : State) (p : Nat) (b : Bool) : State :=
  let s := s.updPage p (fun h => { h with enable := b })
  let h := s.page p
  if h.softReset then s
  else if b then (if h.cond.off then s.turnOn p else s)
  else if h.cond.off then s else s.turnDown p

/-- DRAIN_COMPLETE: a DRAINING instance without accepted work reaches OFF; with ENABLE written 1 meanwhile, what it did before; a lane
that reads RUNNING again makes a zone load (R174), and one whose MODE was written meanwhile starts (R162).
[DEDUCED: notes/assumptions/18.md] -/
def State.drainDone (s : State) (p : Nat) : State :=
  let h := s.page p
  if !hasCtrl p || !h.cond.draining || h.cond.frozen || h.cond.ownPause || s.pageWork p then s
  else if pageType p == 2 then s.frmRest
  else if h.enable then
    let s := s.updCond p (fun c => { c with draining := false })
    let n := pageInst p
    if pageType p == 3 then (if s.laneRuns n then s.zoneLoad n else if s.laneOn n then s.laneStart n else s)
    else if pageType p == 4 then s.sepFollow else s
  else s.turnOff p

/-! ## FREEZE (R74) -/

/-- A pause begins or ends: a lane's waiting write stops or resumes counting (R252), and a port sends again (R552). -/
def State.pauseHook (s : State) (p : Nat) : State :=
  if pageType p == 3 then s.noteWait (pageInst p)
  else if pageType p == 10 then s.portSend (pageInst p)
  else s

/-- FREEZE takes a value: 1 asks for a pause at the next safe point, 0 returns the instance to the state it left.
[DEDUCED: notes/assumptions/20.md] -/
def State.setFreeze (s : State) (p : Nat) (b : Bool) : State :=
  let s := s.updPage p (fun h => { h with freeze := b })
  if b then s
  else (if (s.page p).cond.frozen then s.updCond p (fun c => { c with frozen := false }) else s).pauseHook p

/-- The instance is at its block's safe point: between frames, sectors, requests, stages, items or jobs; a memory controller, a port,
the host interface and the mailboxes are at one between any two operations. [DEDUCED: notes/assumptions/20.md] -/
def State.atSafePoint (s : State) (p : Nat) : Bool :=
  let t := pageType p
  if t == 4 then (let st := s.pstate 0x010; !(st == St.running || st == St.draining || (st == St.armed && !s.frm.freeRun)))
  else if t == 5 then s.hrv.service.isNone
  else if t == 9 then s.etu.jobs.isEmpty
  else !s.pageWork p

/-- FREEZE_SAFE_POINT: an IDLE, ARMED or RUNNING instance whose FREEZE is 1 enters PAUSED at its safe point.
[DEDUCED: notes/assumptions/20.md] -/
def State.freezePoint (s : State) (p : Nat) : State :=
  let h := s.page p
  let st := stateOf h.cond
  if hasCtrl p && h.freeze && !h.softReset && (st == St.idle || st == St.armed || st == St.running) && s.atSafePoint p then
    (s.updCond p (fun c => { c with frozen := true })).pauseHook p
  else s

/-! ## SOFT_RESET (R72, R110) -/

/-- Registers at 0x40 and above that SOFT_RESET keeps (R506, R551, R639; withdrawals, R399; HIF_STATUS shows the link).
[DEDUCED: notes/assumptions/19.md] -/
def keptAtReset (p off : Nat) : Bool :=
  if p == 0x011 then off == 0x68 || off == 0x6C
  else if p == 0x0D0 || p == 0x0D2 then off == 0x40
  else if p == 0x0D1 then off == 0x44 || off == 0x48
  else if p == 0x0F1 then
    off == 0x40 || (Nat.ble 0x48 off && Nat.ble off 0x54) || off == 0x60 || (Nat.ble 0x100 off && Nat.blt off 0x1C0) || Nat.ble 0x1C4 off
  else if p == 0x100 then off == 0x40
  else if p == 0x110 then Nat.ble 0x40 off && Nat.ble off 0x4C
  else if p == 0x111 then true
  else if Nat.ble 0x112 p && Nat.blt p 0x11A then Nat.blt off 0x240 && (off % 16 == 0 || off % 16 == 12)
  else if p == 0x11A then off % 16 == 4 || off % 16 == 8
  else false

/-- The Frame Scheduler: frames and plans are dropped; jobs that follow a frame end with the code on the page.
[DEDUCED: notes/assumptions/19.md] -/
def State.frmSoftReset (s : State) : State :=
  let code := (s.page 0x010).errCode
  let s := s.testAbort
  let s := s.dropFrames code
  let s := if s.frm.limitAfter then s.updCond 0x010 (fun c => { c with limited := true }) else s
  let s := (s.updRst (fun r => { r with viaOverride := 0, emptyAfter := 0 })).updSaf (fun x => { x with wdAt := none })
  s.updFrm (fun f => {
    lastNum := f.lastNum, consumed := f.consumed, publish := f.publish, lastCompute := f.lastCompute, emptyAt := s.cycles })

/-- A downlink message of a reset lane is gone; the code its job ends with is not stated. [DEDUCED: notes/assumptions/41.md] -/
def State.dropDlMsg (s : State) (m : DlMsg) : State :=
  match m.job with
  | some k => (s.endDlJob (some k) (s.freeVal % 65536)).drawFree
  | none => s

/-- A lane: its sectors are released and its downlink queue is emptied. [DEDUCED: notes/assumptions/19.md] -/
def State.laneSoftReset (s : State) (n : Nat) : State :=
  let l := s.lane n
  let msgs := l.dlQueue ++ (match l.wire with | some m => [m] | none => [])
  let s := msgs.foldl (fun (s : State) m => s.dropDlMsg m) s
  let drop := fun (x : Option (Nat × Sector)) => match x with | some y => if y.1 = n then none else some y | none => none
  s.updSlk (fun k => { k with
    lanes := Sparse.erase k.lanes n
    redund := k.redund.filter (fun r => r.lane / 2 != n / 2)
    ladder := k.ladder.filter (fun x => x.1 != n)
    engine0 := drop k.engine0, engine1 := drop k.engine1 })

/-- SCV (R361): the running stage stops with SCV_ABORTED, later ones complete with it, and the derived sets are freed.
[DEDUCED: notes/assumptions/19.md] -/
def State.scvSoftReset (s : State) : State :=
  let valid := s.fld F.SCV_SET_VALID_SETS % 2
  let run := s.frm.running.filter RunStage.scvRuns
  let s := run.foldl (fun (s : State) r =>
    ((if r.kind = 2 then s.stopBev r else s).updRun r.stage (fun x => { x with unitDone := true, stopped := true, code := 0xA00E })).stopAgents
      (· == .stage r.stage)) s
  let busy := s.frm.compute.isSome
  let s := (s.updScv (fun v => { v with aborted := v.aborted || busy })).freeSets
  s.setFld F.SCV_SET_VALID_SETS valid

/-- A tile (R403): its ops stop, its scoreboard clears, and its stage deals no further items. [DEDUCED: notes/assumptions/19.md] -/
def State.tileSoftReset (s : State) (n : Nat) : State :=
  let s := match s.tileStage n with
    | some r =>
      let s := (s.tile n).inflight.foldl (fun (s : State) x => s.abandonOp r x) s
      (s.stageCode r.stage 0xA010).updRun r.stage (fun x => { x with stopped := true })
    | none => s
  let s := s.updHrv (fun h => { h with held := h.held.filter (fun q => !(q.tile && q.id == n)) })
  (s.stopAgents (· == .tile n)).updTile n (fun t => { t with
    item := 0, prologueDone := false, inPrologue := false, nextOp := 0, fenced := false, inflight := [], idleSince := s.cycles })

/-- TRAINED returns to 0 (R72); the channel goes on as it was trained. MEMC_0: SHARD_CFG returns to its reset value, which undefines the tables if it changes the map (R465).
[DEDUCED: notes/assumptions/19.md] -/
def State.memcSoftReset (s : State) (n : Nat) : State :=
  let s := s.updMem (fun m => { m with statusReset := n :: m.statusReset.filter (· != n) })
  let s := ([0x6C, 0x70].foldl (fun (s : State) o => s.countFrom (0x0C0 + 2 * n) o) s)
  let s := ([0x60, 0x64, 0x68, 0x6C].foldl (fun (s : State) o => s.countFrom (0x0C1 + 2 * n) o) s)
  if n = 0 ∧ s.mem.shardBase4M ≠ s.shardReset then (s.updMem (fun m => { m with shardBase4M := s.shardReset })).undefineTables else s

/-- MBX (R639): FULL and COLLISION of every mailbox are 0; slots, counts and PEND go with the registers.
[DEDUCED: notes/assumptions/19.md] -/
def State.mbxSoftReset (s : State) : State :=
  let ctl := fun (k : Nat) => Nat.ble 0x112000 k && Nat.blt k 0x11A000 && Nat.blt (k % 0x1000) 0x240 && k % 16 == 0
  (s.regs.filter (fun (x : Nat × Word) => ctl x.1)).foldl (fun (s : State) x => s.setCell x.1 (x.2 &&& 0x3FFFFFFF)) s

/-- Port `n`'s GATHER and TADD requests that wait for a paused table (R497) complete with ETU_ABORTED and zero rows (R506). -/
def State.abortInbound (s : State) (n : Nat) : State :=
  ((s.port n).inq.filter (fun x => x.2.dest == s.nodeId && (x.2.ttype == 4 || x.2.ttype == 5) && s.tablePaused x.2 && !x.2.malformed
      && !s.grf.lost.contains x.2.src)).foldl
    (fun (s : State) x => (s.consume n x).respond x.2 0xA013 false (List.replicate x.2.asked 0)) s

/-- What SOFT_RESET does to the instance of page `p` beside its registers. [DEDUCED: notes/assumptions/19.md] -/
def State.blockReset (s : State) (p : Nat) : State :=
  let t := pageType p
  let n := pageInst p
  if t == 2 then s.frmSoftReset
  else if t == 3 then s.laneSoftReset n
  else if t == 4 then s.sepSoftReset
  else if t == 5 then s.hrvSoftReset
  else if t == 6 then s.scvSoftReset
  else if t == 7 then s.tileSoftReset n
  else if t == 8 then s.memcSoftReset n
  else if t == 9 then ((List.range 8).foldl (fun (s : State) k => s.abortInbound k) s).etuSoftReset
  else if t == 10 then s.portOff n
  else if t == 12 then s.mbxSoftReset
  else s

/-- A condition with the instance's own activity ended; what others hold it in stays. -/
def Cond.quiet (c : Cond) : Cond := { off := c.off, gated := c.gated, safe := c.safe, fault := c.fault, limited := c.limited }

/-- SOFT_RESET = 1 (R72): the block's own reset, its registers, its events and errors, and its resources. FREEZE is cleared (R110).
[DEDUCED: notes/assumptions/19.md] -/
def State.softReset (s : State) (p : Nat) : State :=
  if (s.page p).softReset then s
  else
    let setValid := s.fld F.SCV_SET_VALID_SETS
    let s := (s.updPage p (fun h => { h with softReset := true, freeze := false })).blockReset p
    let setValid := if pageType p = 6 then s.fld F.SCV_SET_VALID_SETS else setValid
    let s := (instancePages p).foldl (fun (s : State) q => s.resetPageRegs q (keptAtReset q)) s
    let s := if pageType p = 6 then s.setFld F.SCV_SET_VALID_SETS setValid
      else if pageType p = 7 ∧ (s.tile (pageInst p)).withdrawn = true then s.setFld (F.TILE_TEST_STATUS_WITHDRAWN (pageInst p)) 1
      else if p = 0x100 then s.ownAll
      else s
    let s := (instancePages p).foldl (fun (s : State) q =>
      s.updPage q (fun h => { h with eventRaw := 0, errCode := 0, moreCnt := 0, errInfo := 0 })) s
    let s := (s.release p).updCond p Cond.quiet
    if p = 0x010 then s.sepFollow else if p = 0x040 ∧ s.sep.poses ≠ [] then s.poseStatus else s

/-- SOFT_RESET_DONE: the instance reads IDLE or OFF as ENABLE says, and FAULT is left (Table 2-7). [DEDUCED: notes/assumptions/19.md] -/
def State.softResetDone (s : State) (p : Nat) : State :=
  let h := s.page p
  if !h.softReset then s
  else
    let s := (s.updPage p (fun h => { h with softReset := false })).updSaf (fun x => { x with parity := x.parity.filter (· != p) })
    let s := s.updCond p (fun c => { c with off := !h.enable, fault := false })
    if !h.enable then s
    else if pageType p == 3 then (if s.laneOn (pageInst p) then s.laneStart (pageInst p) else s)
    else if pageType p == 10 then s.portStart (pageInst p)
    else if p == 0x010 || p == 0x040 then s.sepFollow
    else s

/-! ## PAGE_CTRL as a register -/

/-- PAGE_CTRL of a page. -/
def PageHdr.ctrl (h : PageHdr) : Word := word (b2n h.enable + 2 * b2n h.softReset + 4 * b2n h.freeze)

/-- PAGE_CTRL takes a value: ENABLE, then SOFT_RESET or FREEZE (R71 to R74, R110). A page that does not implement it ignores the
write (R62). [DEDUCED: notes/assumptions/20.md] -/
def State.writeCtrl (s : State) (p : Nat) (v : Word) : State :=
  if !hasCtrl p then s
  else
    let e := getBits v 0 0 == 1
    let z := getBits v 2 2 == 1
    let h := s.page p
    let s := if e == h.enable then s else s.setEnable p e
    if getBits v 1 1 = 1 then s.softReset p
    else if z == h.freeze then s else s.setFreeze p z

/-! ## Event, error and lock registers -/

/-- EVENT_MASK takes a value; events that become pending are signalled. -/
def State.writeMask (s : State) (p : Nat) (v : Word) : State := s.updPage p (fun h => { h with eventMask := v })

/-- 1 bits written to EVENT_PEND clear EVENT_RAW (R80), but for events of the same cycle (R66). -/
def State.clearEvents (s : State) (p : Nat) (v : Word) : State :=
  let m := v &&& ~~~s.risen (hdrKey p 0x10)
  s.updPage p (fun h => { h with eventRaw := h.eventRaw &&& ~~~m })

/-- The errors that the page has recorded in the present cycle, oldest first. -/
def State.cycErrs (s : State) (p : Nat) : List CycErr := s.nowCyc.errs.filter (fun e => e.page == p)

/-- CODE of the page as it stood before the errors of the present cycle (R86). -/
def State.codeBefore (s : State) (p : Nat) : Nat := match s.cycErrs p with | e :: _ => e.before | [] => (s.page p).errCode

/-- In the event log, the first error of this cycle from page `p` is one that CODE holds. -/
def State.loadedInLog (s : State) (p : Nat) : List LogReq → List LogReq
  | [] => []
  | q :: t => if q.ts == s.timebase && q.page == p && q.rank == 0 then { q with more := false } :: t else q :: s.loadedInLog p t

/-- A write to ERR_CODE whose CODE equals the current one clears the error (R85); errors recorded in the same cycle are loaded after
the clear (R86). -/
def State.clearError (s : State) (p : Nat) (v : Word) : State :=
  let es := s.cycErrs p
  if getBits v 15 0 ≠ s.codeBefore p then s
  else if es.isEmpty then s.updPage p (fun h => { h with errCode := 0, moreCnt := 0, errInfo := 0 })
  else
    let s := s.updPage p (fun h => es.foldl (fun (h : PageHdr) e => h.take e.code e.info) { h with errCode := 0, moreCnt := 0, errInfo := 0 })
    let s := s.updCyc (fun c => { c with errs := c.errs.map (fun e => if e.page = p then { e with before := 0 } else e) })
    { s with logQueue := s.loadedInLog p s.logQueue }

/-- LOCK_CTL ACQUIRE by `w` (Table 2-10). [DEDUCED: notes/assumptions/22.md] -/
def State.lockAcquire (s : State) (p w : Nat) : State :=
  let h := s.page p
  if h.lockHeld then s else s.setPage p { h with lockHeld := true, lockOwner := w, lockSeq := (h.lockSeq + 1) % 2 ^ 16 }

/-- LOCK_CTL RELEASE by `w`. [DEDUCED: notes/assumptions/22.md] -/
def State.lockRelease (s : State) (p w : Nat) : State :=
  let h := s.page p
  if h.lockHeld && h.lockOwner == w then s.setPage p { h with lockHeld := false, lockOwner := 0 }
  else s.error p Err.lockNotHeld (infoOffWriter 0x28 w)

/-- LOCK_CTL RECOVERED by `w`. A lane or port that the abandoned lock held in IDLE may start now (R93).
[DEDUCED: notes/assumptions/22.md] -/
def State.lockRecovered (s : State) (p w : Nat) : State :=
  let h := s.page p
  if h.lockHeld && h.lockOwner == w && h.lockAbandoned then
    let s := s.setPage p { h with lockAbandoned := false }
    if pageType p == 3 && (s.page (statePage p)).enable && s.laneOn (pageInst p) then s.laneStart (pageInst p)
    else if pageType p == 4 then s.sepFollow
    else s
  else s

/-- LOCK_CTL BREAK by Rootstock: as if the owner had reset. Rootstock's own lock cannot be broken (Table 2-11).
[DEDUCED: notes/assumptions/22.md] -/
def State.lockBreak (s : State) (p : Nat) : State :=
  let h := s.page p
  if h.lockHeld && h.lockOwner != Writer.rootstock then s.abandonOnce p else s

/-- LOCK_CTL takes an OP. [DEDUCED: notes/assumptions/12.md; DEDUCED: notes/assumptions/22.md] -/
def State.lockOp (s : State) (p w op : Nat) : State :=
  if op = 1 then s.lockAcquire p w
  else if op = 2 then s.lockRelease p w
  else if op = 3 then s.lockRecovered p w
  else if op = 4 then s.lockBreak p
  else s

/-- COLLIDED of WRITE_ORIGIN is write-1-to-clear, but not in the cycle in which it was set (R66). -/
def State.clearCollided (s : State) (p : Nat) (v : Word) : State :=
  if getBits (v &&& ~~~s.risen (hdrKey p 0x2C)) 31 31 = 1 then (let h := s.page p; s.setPage p { h with collided := false }) else s

end Sys2Proof.Machine
end

