-- ==== Sys2Proof/Machine/Flags.lean ====
section
/-! DEFINITION. What a read of a BAR 0 register returns: the header registers (Tables 2-14 to 2-25), the status fields that follow
from the state, and every other register from the register file (R6, R51, R53, R55, R58, R64, R73, R698, R720, R790). -/

namespace Sys2Proof.Machine

/-! ## The header -/

/-- PAGE_STATUS of a page (Table 2-17, R62). -/
def State.pageStatus (s : State) (p : Nat) : Word :=
  word ((s.page (statePage p)).prevState * 16 + s.pstate p)

/-- LOCK (Table 2-23). -/
def PageHdr.lockWord (h : PageHdr) : Word :=
  word (b2n h.lockHeld * 2 ^ 31 + b2n h.lockAbandoned * 2 ^ 30 + h.lockSeq * 2 ^ 8 + h.lockOwner)

/-- WRITE_ORIGIN (Table 2-25). -/
def PageHdr.originWord (h : PageHdr) : Word :=
  word (b2n h.collided * 2 ^ 31 + h.loserOffset * 2 ^ 16 + h.loser * 2 ^ 8 + h.lastWriter)

/-- A header register of an implemented page. -/
def State.readHeader (s : State) (p off : Nat) : Word :=
  let h := s.page p
  if off = 0x00 then pageId p
  else if off = 0x04 then pageCaps p
  else if off = 0x08 then (if hasCtrl p then h.ctrl else 0)
  else if off = 0x0C then s.pageStatus p
  else if off = 0x10 then h.eventRaw
  else if off = 0x14 then h.eventMask
  else if off = 0x18 then h.pend
  else if off = 0x1C then word (h.moreCnt * 2 ^ 16 + h.errCode)
  else if off = 0x20 then h.errInfo
  else if off = 0x24 then h.lockWord
  else if off = 0x2C then h.originWord
  else if off = 0x30 then (if isPersistent p then s.persistReg p else 0)
  else 0

/-! ## GLB (Tables 0-6 to 0-10, 1-7, 2-26, 20-7) -/

/-- FRAME_PIPE (R47). -/
def State.framePipe (s : State) : Nat :=
  let num := fun (o : Option Frame) => match o with | some f => f.num % 256 | none => 0
  num s.frm.publish * 2 ^ 24 + num s.frm.compute * 2 ^ 16 + num s.frm.ingest * 2 ^ 8
    + b2n s.frm.publish.isSome * 4 + b2n s.frm.compute.isSome * 2 + b2n s.frm.ingest.isSome

/-- EVENT_SUMMARY_k (R83). -/
def State.eventSummary (s : State) (k : Nat) : Nat :=
  (List.range 32).foldl (fun m b => if (s.page (32 * k + b)).pend = 0 then m else m + 2 ^ b) 0

/-- The level the device drives on a pin (Table 20-6, R794, R815 to R819); none while it drives nothing.
[DEDUCED: notes/assumptions/74.md] -/
def State.pinDrive (s : State) (g : Nat) : Option Bool :=
  let f := s.gpioFunc g
  if !s.flag F.GLB_BOOT_STATUS_RESTORED || s.scanControls then none
  else if bitOf s.gpio.held g then some (bitOf (s.fld F.PSV_GPIO_SAFE_SAFE_VAL) g)
  else if f = 0 then (if bitOf (s.fld F.GLB_GPIO_OE) g then some (bitOf (s.fld F.GLB_GPIO_OUT) g) else none)
  else if f = 1 then (if s.frm.syncOut && !s.frm.freeRun && Nat.ble 2 (s.pstate 0x010) && Nat.ble (s.pstate 0x010) 4 then some s.frm.syncHigh else none)
  else if f = 4 then (if s.pwr.hostWake then some false else none)
  else if f = 5 then some (s.flag F.GLB_BOOT_STATUS_CHECKS_DONE && !s.saf.inSafe)
  else none

/-- GPIO_IN: the level of each pin; one that the device does not drive has a level from outside, free here.
[DESIGN CHOICE: notes/assumptions/16.md; DEDUCED: notes/assumptions/74.md] -/
def State.gpioIn (s : State) : Nat :=
  (List.range 16).foldl (fun m g =>
    let level := match s.pinDrive g with | some b => b | none => Config.freeAt s.cycles (0x1000 + g) % 2 == 1
    if level then m + 2 ^ g else m) 0

/-- The code of the frames axis (Table 20-1). -/
def State.modeF (s : State) : Nat :=
  let st := s.pstate 0x010
  if Nat.blt st 2 || Nat.blt 4 st then 0 else if s.frm.freeRun then 3 else if s.frm.policy = 1 then 2 else 1

/-- The code of the Rootstock axis (Table 20-1). -/
def State.modeX (s : State) : Nat :=
  if s.flag F.RST_STATUS_DEAD then 3 else if s.romRecovery then 2 else if s.flag F.RST_STATUS_READY then 0 else 1

/-- The code of the version axis (Table 20-1). -/
def State.modeV (s : State) : Nat := if s.flag F.RST_STATUS_OVERRIDE then 2 else if s.flag F.RST_STATUS_VERSION_OK then 0 else 1

/-- MODE_SNAPSHOT_A (Table 20-7, R823). -/
def State.modeSnapshotA (s : State) : Nat :=
  s.modeX * 2 ^ 19 + s.fld F.RST_DBG_STATUS_LEVEL * 2 ^ 17 + s.fld F.PSV_SAF_WD_INJ_ALLOW * 2 ^ 16
    + s.fld F.FRM_TIME_STATE * 2 ^ 14 + s.modeV * 2 ^ 12 + b2n s.saf.inSafe * 2 ^ 11
    + s.fld F.PWR_THERM_STATUS_COOL_BAND * 2 ^ 8 + s.fld F.PWR_THERM_STATUS_THERM_STATE * 2 ^ 6
    + (if s.frm.extTick then 2 else b2n s.frm.syncOut) * 2 ^ 4 + s.modeF * 4 + s.fld F.PWR_STATE

/-- MODE_SNAPSHOT_B. -/
def State.modeSnapshotB (s : State) : Nat :=
  let lane := fun (n : Nat) =>
    let m := s.fld (F.SLK_LANE_CFG_MODE n)
    if m = 1 then 1 + s.fld (F.SLK_LANE_CFG_RING n) else if m = 2 then 5 else 0
  s.fld F.SAF_REDUND_STATUS_PAIRS * 2 ^ 24 + (List.range 8).foldl (fun m n => m + lane n * 8 ^ n) 0

/-- Bits of a 64-bit mask of the enabled tiles. -/
def State.presentMask (s : State) : Nat := s.enabledTiles.foldl (fun m n => m + 2 ^ n) 0

/-- Derived registers of pages 0x000 to 0x002. -/
def State.readGlb (s : State) (p off : Nat) : Option Nat :=
  if p = 0 then
    if off = 0x40 then some (0x00640000 + 0xA100 + s.fuses.grade % 16 * 16 + s.fuses.tileCode % 16)
    else if off = 0x44 then some (s.presentMask % 2 ^ 32)
    else if off = 0x48 then some (s.presentMask / 2 ^ 32)
    else if off = 0x4C then some s.tileCount
    else if off = 0x50 then some s.siteCapacity
    else if off = 0x58 then some s.framePipe
    else none
  else if p = 1 then (if Nat.ble 0x40 off && Nat.blt off 0xA0 then some (s.eventSummary ((off - 0x40) / 4)) else none)
  else
    if off = 0x50 then some s.gpioIn
    else if off = 0x54 then some s.gpio.held
    else if off = 0x58 then some s.modeSnapshotA
    else if off = 0x5C then some s.modeSnapshotB
    else none

/-! ## FRM, SLK, SEP, HRV, SCV and the tiles -/

/-- The bits of a register value that a field takes. -/
def withField (v : Word) (f : Field) (x : Nat) : Nat := (setBits v f.hi f.lo x).toNat

/-- Derived registers of pages 0x010 and 0x011. -/
def State.readFrm (s : State) (p off : Nat) : Option Nat :=
  if p = 0x010 then
    if off = 0xA0 then some (match s.frm.compute with | some f => f.errCode * 2 ^ 16 + f.errStage % 2 ^ 16 | none => 0)
    else if off = 0xA8 then
      some ((match s.frm.compute with | some f => f.stagesDone % 2 ^ 16 | none => 0) * 2 ^ 16 + s.frm.running.length % 128)
    else none
  else if off = 0x40 then some (s.timebase % 2 ^ 32)
  else if off = 0x44 then some (s.timebase / 2 ^ 32)
  else none

/-- Derived registers of page 0x040 (the frame in ingest). -/
def State.readSep (s : State) (off : Nat) : Option Nat :=
  let free := ((List.range 3).filter (fun b => (s.bank b).use == 0)).length
  match s.inIngest with
  | some f =>
    if off = 0x5C then some (f.num % 256 * 2 ^ 24 + free * 2 ^ 16 + b2n f.fineOvf * 2 + b2n (!f.staged.isEmpty))
    else if off = 0x60 then some f.points
    else if off = 0x64 then some (s.bankSites f.fineBank)
    else if off = 0x68 then some (s.bankSites f.coarseBank)
    else none
  | none =>
    if off = 0x5C then some (free * 2 ^ 16)
    else if off = 0x60 ∨ off = 0x64 ∨ off = 0x68 then some 0
    else none

/-- Derived registers of a tile's page. -/
def State.readTile (s : State) (n off : Nat) : Option Nat :=
  let p := tilePage n
  let ones := fun (w : Word) => ((List.range 32).filter (fun b => bitOf w.toNat b)).length
  if off = 0x40 then
    some (s.fld (F.TILE_STATUS_STAGE n) * 2 ^ 16 + b2n (s.tile n).underTest * 2 ^ 10 + b2n (s.page p).cond.gated * 2 ^ 9
      + b2n ((s.tile n).heldBy != 0) * 2 ^ 8 + ones (s.cell (R.TILE_SB_BUSY_LO n)) + ones (s.cell (R.TILE_SB_BUSY_HI n)))
  else if off = 0x50 then some (withField (s.cell (R.TILE_TEST_STATUS n)) (F.TILE_TEST_STATUS_AGE_MS n) (s.testAge n))
  else none

/-- SCV pages: BUSY, and the states of the binning banks. -/
def State.readScv (s : State) (p off : Nat) : Option Nat :=
  if p = 0x060 ∧ off = 0x40 then
    some (withField (s.cell R.SCV_STATUS) F.SCV_STATUS_BUSY (b2n (s.frm.running.any RunStage.scvRuns)))
  else if p = 0x061 ∧ off = 0x40 then some ((s.bank 2).use * 16 + (s.bank 1).use * 4 + (s.bank 0).use)
  else none

/-- HRV_STATUS. -/
def State.readHrv (s : State) (off : Nat) : Option Nat :=
  if off = 0x40 then
    some ((match s.hrv.service with | some r => r.op % 4 * 2 ^ 12 + 2 ^ 8 | none => 0) + s.hrv.queue.length % 32)
  else none

/-! ## Memory controllers, ETU, Graft and HIF -/

/-- A counter whose count the rules do not fix: a free value, and 0 in the cycle in which it was set to 0 (R456). -/
def State.freeCount (s : State) (p off : Nat) : Nat :=
  if Sparse.get (fun _ => s.boot.t0) s.mem.clearedAt (p * 0x1000 + off) = s.cycles then 0
  else Config.freeAt s.cycles (p * 0x1000 + off) % 2 ^ 32

/-- Derived registers of MEMC_c: capacity and DRAM_TOP once the channels are trained. The traffic counters and the stall counters are not
fixed by the rules: free values. [DESIGN CHOICE: notes/assumptions/16.md; DEDUCED: notes/assumptions/17.md] -/
def State.readMemc (s : State) (p off : Nat) : Option Nat :=
  let c := (p - 0x0C0) / 2
  let up := s.flag F.GLB_BOOT_STATUS_MEM_READY
  if p % 2 = 0 then
    if off = 0x40 then some (if up then s.mem.ranks * 2 ^ 8 + s.mem.chGib * 16 + s.rateOf c else 0)
    else if off = 0x44 then
      some (Sparse.get (fun _ => 0) s.mem.refresh c % 16 * 16 + b2n s.boot.resetPending * 4 + b2n (up && !s.mem.failed.contains c && !s.mem.statusReset.contains c) * 2)
    else if off = 0x48 then some (if up then s.dramTop % 2 ^ 32 else 0)
    else if off = 0x4C then some (if up then s.dramTop / 2 ^ 32 else 0)
    else if off = 0x50 then some s.mem.shardBase4M
    else if off = 0x6C ∨ off = 0x70 then some (s.freeCount p off)
    else none
  else if off = 0x40 then some ((s.combined c).length % 512 * 2 ^ 16)
  else if off = 0x58 then some ((s.frm.running.foldl (fun m r => m + r.share) 0) % 32)
  else if Nat.ble 0x60 off && Nat.blt off 0x70 then some (s.freeCount p off)
  else if Nat.ble 0x70 off && p != 0x0C1 then some 0
  else none

/-- TABLE_STATE_t. -/
def State.tableState (s : State) (t : Nat) : Nat :=
  let x := s.table t
  let home := x.state != 0 && Nat.ble x.nodeBase s.nodeId && Nat.blt s.nodeId (x.nodeBase + x.nodeCount)
  b2n x.foldInc * 2 ^ 15 + b2n x.replInc * 2 ^ 14 + x.active % 2 * 2 ^ 13 + b2n home * 2 ^ 12 + x.flags % 16 * 2 ^ 8 + x.state % 8

/-- Derived registers of the ETU pages. The number of row reads in flight while a job or a command runs is not
fixed by the rules: a free value.
[DESIGN CHOICE: notes/assumptions/16.md] -/
def State.readEtu (s : State) (p off : Nat) : Option Nat :=
  if p = 0x0D0 then
    if off = 0x44 then some ((if s.etu.jobs.isEmpty && s.etu.cmd.isNone then 0 else Config.freeAt s.cycles 0x5000 % 2049 * 2 ^ 16) + s.etu.jobs.length % 8)
    else if off = 0x74 then some (s.etu.cached.length % 2 ^ 20)
    else none
  else if p = 0x0D1 then
    if off = 0x50 then some (withField (s.cell R.ETU_CMD_STATUS) F.ETU_CMD_STATUS_BUSY (b2n s.etu.cmd.isSome))
    else if Nat.ble 0x100 off && Nat.blt off 0x500 then some (s.tableState ((off - 0x100) / 4))
    else none
  else if off = 0x64 then some (s.etu.redirect.length % 2 ^ 14)
  else none

/-- Derived registers of Graft's node page. -/
def State.readGrf (s : State) (off : Nat) : Option Nat :=
  if off = 0x44 then some (s.nodeId % 2 ^ 15)
  else if off = 0x60 then some (s.grf.lost.length % 2 ^ 16)
  else if off = 0x64 then some (s.grf.reqs.length % 2 ^ 13)
  else none

/-! ## RST, PWR, SAF and PSV -/

/-- VREQ for a CORE frequency; at 0 MHz no rule gives one: a free value. [DESIGN CHOICE: notes/assumptions/16.md] -/
def State.vreqShown (s : State) (f : Nat) : Nat := if f = 0 then Config.freeAt s.cycles 0x6000 % 2 ^ 16 else s.vreq f % 2 ^ 16

/-- Milliseconds until a change of thermal state is permitted (Table 17-9). -/
def State.dwellMs (s : State) : Nat :=
  match s.pwr.thermAt with
  | some a => ceilDiv (a + 50000000 - s.cycles) 200000
  | none => 0

/-- Derived registers of pages 0x134 and 0x150 to 0x162. -/
def State.readAon (s : State) (p off : Nat) : Option Nat :=
  if p = 0x134 ∧ off = 0x40 then some (withField (s.cell R.RST_DBG_STATUS) F.RST_DBG_STATUS_LEASE_S s.leaseLeft)
  else if p = 0x150 ∧ off = 0x4C then some (s.ceilReason * 2 ^ 11 + s.ceilMhz)
  else if p = 0x150 ∧ off = 0x50 then
    some ((setBits (setBits (s.cell R.PWR_THERM_STATUS) 15 8 s.dwellMs) 7 6 s.levelCap).toNat)
  else if p = 0x151 ∧ off = 0x4C then some s.levelCap
  else if p = 0x152 ∧ off = 0x40 then some (s.vreqShown s.ceilMhz * 2 ^ 16 + s.vreqShown (s.fld F.GLB_CLOCK_STATUS_CORE_MHZ))
  else if p = 0x152 ∧ off = 0x48 then
    some (withField (s.cell R.PWR_AGE_STATUS) F.PWR_AGE_STATUS_AGE_OFFSET_MV (s.fld F.PSV_AGE_A_AGE_OFFSET_MV))
  else if p = 0x160 ∧ off = 0x40 then
    some (s.degrade * 2 ^ 8 + b2n s.errorPin * 32 + b2n s.saf.inSafe * 16 + s.integrity)
  else if p = 0x160 ∧ off = 0x44 then some s.activeNow
  else if p = 0x160 ∧ off = 0x48 then some (s.cell R.PSV_SAF_ESCALATE).toNat
  else if p = 0x161 ∧ off = 0x40 then some (withField (s.cell R.SAF_WD_STATUS) F.SAF_WD_STATUS_ARMED (b2n s.framePaced))
  else none

/-- The registers whose value follows from the rest of the state. INHIBIT of SERVO_STATUS follows R244 from reset on, where SHOCK_NOW stands at
0xFF and Table 5-15 gives INHIBIT the reset value 0. [DESIGN CHOICE: notes/assumptions/16.md] -/
def State.readDerived (s : State) (p off : Nat) : Option Nat :=
  if Nat.blt p 3 then s.readGlb p off
  else if p = 0x010 ∨ p = 0x011 then s.readFrm p off
  else if Nat.ble 0x020 p && Nat.blt p 0x040 then
    (if p % 4 = 3 ∧ off = 0x50 then
      let n := (p - 0x020) / 4
      some (withField (s.cell (R.SLK_SERVO_STATUS n)) (F.SLK_SERVO_STATUS_INHIBIT n) (b2n (s.dlInhibited n)))
    else none)
  else if p = 0x040 then s.readSep off
  else if p = 0x050 then s.readHrv off
  else if p = 0x060 ∨ p = 0x061 then s.readScv p off
  else if Nat.ble 0x080 p && Nat.blt p 0x0C0 then s.readTile (p - 0x080) off
  else if Nat.ble 0x0C0 p && Nat.blt p 0x0D0 then s.readMemc p off
  else if Nat.ble 0x0D0 p && Nat.blt p 0x0D3 then s.readEtu p off
  else if p = 0x0F1 then s.readGrf off
  else if p = 0x100 ∧ off = 0x40 then some (withField (s.cell R.HIF_STATUS) F.HIF_STATUS_VF_ENABLED s.hif.numVfs)
  else s.readAon p off

/-- What a register reads during SOFT_RESET (R73): its reset value, which for SHARD_CFG follows the installed capacity (Table 10-9); on
MEMC_1 to MEMC_7 that register is MEMC_0's (R457). -/
def State.resetValue (s : State) (p off : Nat) : Word :=
  if p = 0x0C0 ∧ off = 0x50 then word s.shardReset
  else if 0x0C0 < p ∧ p < 0x0D0 ∧ p % 2 = 0 ∧ off = 0x50 then word s.mem.shardBase4M
  else resetCell (p * 0x1000 + off)

/-- A BAR 0 read of the register at `off` of page `p`: 0 on a reserved page (R58), on a page whose
power is removed (R810) and at 0x40 and above of a persistent page that is not restored (R698); reset values during SOFT_RESET (R73).
[DEDUCED: notes/assumptions/15.md] -/
def State.readReg (s : State) (p off : Nat) : Word :=
  if (pageInfo p).isNone || (Nat.ble 2 (s.fld F.PWR_STATE) && poweredPage p) then 0
  else if off < 0x40 then s.readHeader p off
  else if (regAt p off).isNone then 0
  else if isPersistent p && !s.flag F.PSV_STATUS_RESTORED then 0
  else if (s.page (statePage p)).softReset then s.resetValue p off
  else match s.readDerived p off with
    | some v => word v
    | none => s.cell (p * 0x1000 + off)

end Sys2Proof.Machine
end

