-- ==== Sys2Proof/Machine/SafetyRows.lean ====
section
/-! DEFINITION. The commands of the safety block (spec/18_safety_faults.md, R754 to R778): requests, release, the frame watchdog, the
end-to-end check, register parity and fault injection. -/

namespace Sys2Proof.Machine

/-! ## Requests and release (R754, R761, R762) -/

/-- A release request is refused. [DEDUCED: notes/assumptions/71.md] -/
def State.releaseRefused (s : State) : State :=
  let s := s.error 0x160 0x603A (word s.releaseBlockers)
  (s.setFld F.SAF_REQ_RESULT_PENDING 0).setFld F.SAF_REQ_RESULT_CODE 0x603A

/-- A keyed write of SAF_REQ by `w`: ENTER latches HOST_REQ, RELEASE is judged (R754, R761). The stay of a self fault has no release
(R777). [DEDUCED: notes/assumptions/71.md] -/
def State.safReq (s : State) (w : Nat) (v : Word) : State :=
  let s := if getBits v 1 1 = 1 then (s.error 0x160 0x6038 (word w)).latch Cause.hostReq 0x6038 else s
  let s := if getBits v 0 0 = 0 then s
    else if s.releaseBlockers ≠ 0 ∨ s.saf.selfFault = true then s.releaseRefused
    else s.setFld F.SAF_REQ_RESULT_PENDING 1
  s.wrote 0x160 w

/-- The safe state is released, or the request of a device that is not in it completes (R761, R762). -/
def State.released (s : State) : State :=
  let s := (s.setFld F.SAF_REQ_RESULT_PENDING 0).setFld F.SAF_REQ_RESULT_CODE 0
  if s.saf.inSafe then
    ((s.leaveSafe).updSaf (fun x => { x with releasedAt := some s.cycles })).updPwr (fun p => { p with tripped := false }) |>.applyCore
  else s

/-- The stay whose only cause is POWER_ON, once the start-up checks have passed. [DEDUCED: notes/assumptions/71.md] -/
def State.autoRelease (s : State) : Bool := s.saf.inSafe && s.saf.onlyPowerOn && s.flag F.GLB_BOOT_STATUS_CHECKS_DONE

/-- SAFE_STATE_RELEASE: Rootstock serves a pending request, judged again, or releases the power-on stay (R761). Only running firmware
does (Table 20-3, note 37). -/
def State.serveRelease (s : State) : State :=
  let pend := s.flag F.SAF_REQ_RESULT_PENDING
  if s.rstUp = false ∨ (pend || s.autoRelease) = false then s
  else if s.releaseBlockers ≠ 0 ∨ s.saf.selfFault = true then (if pend then s.releaseRefused else s)
  else s.released

/-! ## Watchdog and end-to-end check (R764, R766) -/

/-- FRAME_WATCHDOG: WD_SLACK_US have passed since the tick at which the count reached WD_TICKS. -/
def State.frameWatchdog (s : State) : State :=
  match s.saf.wdAt with
  | some a =>
    if s.framePaced && Nat.ble (a + usCycles s.saf.wdSlackUs) s.cycles then
      let n := match s.frm.compute with | some f => f.num | none => 0
      let s := (s.error 0x160 0x6030 (word n)).bump F.SAF_WD_FIRE_CNT
      (s.updSaf (fun x => { x with wdAt := none })).latch Cause.frameWatchdog 0x6030
    else s
  | none => s

/-- E2E_CHECK_DONE: the checker has read the published set, with an injected error in the CRC of Table 18-6. -/
def State.e2eDone (s : State) : State :=
  match s.saf.e2e, s.frm.publish with
  | some n, some f =>
    let x := s.fetch (resultAddr f.set 0) f.plan.hdr.resultBytes
    let q := x.2.takeInjection 0x0C 0
    let bs := x.1.bytes.take 0x3C ++ List.replicate 4 0 ++ x.1.bytes.drop 0x40
    let crc := if q.1 then crc32 bs ^^^ 1 else crc32 bs
    let s := (q.2.bump F.SAF_E2E_CHECK_CNT).updSaf (fun y => { y with e2e := none })
    if x.1.poison = false ∧ crc = s.saf.e2eCrc ∧ leNat (x.1.bytes.take 4) = n then s
    else ((s.error 0x160 0x6033 (word n)).setCell R.SAF_E2E_FRAME (word n)).latch Cause.e2eMismatch 0x6033
  | _, _ => s

/-! ## Register parity (R770, R771) -/

/-- The fields of a register that take their reset value at a repair: those that only software writes. -/
def softMask (k : Nat) : Nat := writableMask k (fun a => a == .rw || a == .rws || a == .rwl || a == .rw1s || a == .clr)

/-- A register of a page without PAGE_CTRL is repaired (R771): whether a field took its reset value, and the state.
[DEDUCED: notes/assumptions/68.md] -/
def State.repair (s : State) (p off : Nat) : Bool × State :=
  let k := p * 0x1000 + off
  if off = 0x14 then (true, s.updPage p (fun h => { h with eventMask := 0xFFFFFFFF }))
  else if off < 0x40 ∨ softMask k = 0 then (false, s)
  else
    let m : Word := BitVec.ofNat 32 (softMask k)
    (true, s.setCell k ((s.cell k &&& ~~~m) ||| (resetCell k &&& m)))

/-- The tables and stores whose parity error has a code of its own, by the registers that show them: the page that enters FAULT and
the code recorded there. The context ownership, grant and window tables (R605), the table slots and the redirect directory (R510), the
policy, mailbox and doorbell storage (R640). [DEDUCED: notes/assumptions/78.md] -/
def storeFault (p off : Nat) : Option (Nat × Nat) :=
  if (p == 0x101 && Nat.ble 0x40 off) || (Nat.ble 0x102 p && Nat.ble p 0x109 && Nat.ble 0x100 off) then some (0x100, 0x6025)
  else if (p == 0x0D1 && Nat.ble 0x100 off) || (p == 0x0D2 && off == 0x64) then some (0x0D0, 0x6024)
  else if Nat.ble 0x111 p && Nat.ble p 0x11A && Nat.ble 0x40 off then some (0x110, 0x6026)
  else none

/-- A parity error in such storage: its page records the code and enters FAULT; for the ETU the frame in compute is not published
(R510). [DEDUCED: notes/assumptions/78.md] -/
def State.storeParity (s : State) (q code : Nat) : State :=
  let s := s.error q code 0
  (if q = 0x0D0 then s.dropCompute code else s).pageFault q code

/-- SB_BUSY of a tile: the bits of its scoreboard, whose parity R406 speaks of. -/
def scoreboardReg (p off : Nat) : Bool := Nat.ble 0x080 p && Nat.blt p 0x0C0 && (off == 0x44 || off == 0x48)

/-- REG_PARITY_ERROR in the register at `off` of page `p`. [DEDUCED: notes/assumptions/72.md] -/
def State.regParity (s : State) (p off : Nat) : State :=
  if (pageInfo p).isNone || s.fusedOffPage p then s
  else match storeFault p (off % 4096) with
  | some x => s.storeParity x.1 x.2
  | none =>
    if scoreboardReg p (off % 4096) then s.tileLogicFault (p - 0x080) else
    let r := if hasCtrl (statePage p) then (false, s) else s.repair p (off % 4096)
    let s := r.2.error p 0x6039 (word (b2n r.1 * 2 ^ 31 + off % 4096))
    let q := statePage p
    (s.updSaf (fun x => { x with parity := x.parity.filter (· != q) ++ [q] })).pageFault p 0x6039

/-- A page without PAGE_CTRL has another reason to read FAULT (R21, R648, R777). -/
def State.otherFault (s : State) (p : Nat) : Bool :=
  (p == 0x000 && s.fuses.failed) || (p == 0x130 && s.flag F.RST_STATUS_DEAD) || (p == 0x160 && s.saf.selfFault)

/-- PARITY_SCAN of page `p` finds no error (R771). [DEDUCED: notes/assumptions/72.md] -/
def State.parityScan (s : State) (p : Nat) : State :=
  if hasCtrl (statePage p) || !s.saf.parity.contains p then s
  else
    let s := s.updSaf (fun x => { x with parity := x.parity.filter (· != p) })
    if s.otherFault p then s else s.updCond p (fun c => { c with fault := false })

/-! ## Fault injection (R773, R774, R811) -/

/-- The target of an armed injection can take it: it exists, its domain is powered, and its condition has arisen.
[DEDUCED: notes/assumptions/72.md] -/
def State.canInject (s : State) (t i : Nat) : Bool :=
  let on := !s.lowPower
  if t == 1 || t == 2 || t == 5 || t == 6 then on && s.tilePresent i
  else if t == 3 || t == 4 then on && Nat.blt i 8
  else if t == 7 then !s.flag F.RST_STATUS_DEAD
  else if t == 8 then Nat.blt i 3 && (on || i == 2)
  else if t == 9 then Nat.blt i 32
  else if t == 0x0A then Nat.blt i 12
  else if t == 0x0B then on && s.framePaced
  else if t == 0x0C then s.saf.e2e.isSome
  else if t == 0x0D then on && Nat.blt i 8 && s.laneRuns i
  else if t == 0x0E then on && Nat.blt i 8 && s.lstate i == 4
  else false

/-- What an applied injection does: at once, for a time, or at the target's next operation. [DEDUCED: notes/assumptions/72.md] -/
def State.applyFault (s : State) (t i d : Nat) : State :=
  let hold := fun (s : State) (c : Nat) =>
    s.updSaf (fun x => { x with injActive := x.injActive.filter (fun y => !(y.1 == t && y.2.1 == i)) ++ [(t, i, d, s.cycles + c)] })
  if t = 7 then s.rstDead 0x6027
  else if t = 8 then s.clockFault i
  else if t = 9 then hold s (msCycles 1000)
  else if t = 0x0A then (hold s (msCycles 1)).voltageFault i d
  else hold s (2 ^ 64)

/-- INJECTION_APPLY: INJECTED is latched and recorded before the fault acts; ARM reads 0 from then on. [DEDUCED: notes/assumptions/72.md] -/
def State.injectionApply (s : State) : State :=
  let t := s.fld F.SAF_INJ_CTL_TARGET
  let i := s.fld F.SAF_INJ_CTL_INSTANCE
  if s.flag F.SAF_INJ_CTL_ARM && s.canInject t i then
    let s := (s.latch Cause.injected 0x6032).error 0x162 0x6032 (word (i * 2 ^ 8 + t))
    let s := (s.setFld F.SAF_INJ_CTL_ARM 0).bump F.SAF_INJ_CNT
    s.applyFault t i (s.fld F.SAF_INJ_DATA)
  else s

/-! ## Self fault (R777) -/

/-- A discrepancy of the duplicated latches or drivers: page 0x160 is in FAULT and the safe state is entered. The cause that SAF_FIRST
then names is not stated: a free value. [DEDUCED: notes/assumptions/71.md] -/
def State.safSelfFault (s : State) : State :=
  let s := s.updSaf (fun x => { x with selfFault := true, onlyPowerOn := false })
  let s := (s.error 0x160 0x603B 0).updCond 0x160 (fun c => { c with fault := true })
  if s.saf.inSafe then s else (s.drawFree).enterSafe (s.freeVal % 32) 0x603B

/-! ## The commands -/

/-- SAFE_STATE_RELEASE (R762). -/
def execSafeStateRelease (dt : Nat) (s : State) : Host.Outcome State Fault Refusal := .next ((s.arrive dt).serveRelease)

/-- FRAME_WATCHDOG (R764). -/
def execFrameWatchdog (dt : Nat) (s : State) : Host.Outcome State Fault Refusal := .next ((s.arrive dt).frameWatchdog)

/-- E2E_CHECK_DONE (R766). -/
def execE2eCheckDone (dt : Nat) (s : State) : Host.Outcome State Fault Refusal := .next ((s.arrive dt).e2eDone)

/-- REG_PARITY_ERROR (R770). -/
def execRegParityError (dt page off : Nat) (s : State) : Host.Outcome State Fault Refusal := .next ((s.arrive dt).regParity page off)

/-- PARITY_SCAN (R771). -/
def execParityScan (dt page : Nat) (s : State) : Host.Outcome State Fault Refusal := .next ((s.arrive dt).parityScan page)

/-- INJECTION_APPLY (R774). -/
def execInjectionApply (dt : Nat) (s : State) : Host.Outcome State Fault Refusal := .next ((s.arrive dt).injectionApply)

/-- SAF_SELF_FAULT (R777). -/
def execSafSelfFault (dt : Nat) (s : State) : Host.Outcome State Fault Refusal := .next ((s.arrive dt).safSelfFault)

end Sys2Proof.Machine
end

