-- ==== Sys2Proof/Machine/Startup.lean ====
section
/-! DEFINITION. Resets and start-up (spec/19_startup_reset.md, R784 to R803), the pins of GPIO_FUNC and GPIO_OE (spec/20_mode_combinations.md,
R815 to R818), VF Enable (R92) and BAR 4 writes (R50, R422). -/

namespace Sys2Proof.Machine

/-! ## What a reset keeps (Table 19-2) -/

/-- Registers held in NVM outside the persistent pages: the slots, MIN_SVN and KEY_REVOKED (Table 15-21), and the black box's newest slot
and passes (Table 15-23). -/
def nvmReg (k : Nat) : Bool :=
  (Nat.ble 0x131058 k && Nat.ble k 0x131074) || k == 0x13307C || k == 0x133080

/-- Registers that a device reset keeps beside them: TIMEBASE's discipline, the AON sensor scanners, and the store's shadow with what its
restore reported. [DEDUCED: notes/assumptions/73.md] -/
def deviceKeeps (k : Nat) : Bool :=
  nvmReg k || (Nat.ble 0x011040 k && Nat.blt k 0x011064) || (Nat.ble 0x132040 k && Nat.ble k 0x1320F4)
    || (isPersistent (k / 0x1000) && Nat.ble 0x40 (k % 0x1000)) || k == R.PSV_STATUS || k == R.PSV_INTERRUPT_LAST

/-- What Rootstock holds in NVM and fuses. [DEDUCED: notes/assumptions/73.md] -/
def Rst.kept (r : Rst) : Rst :=
  { bb := r.bb, bbUsed := r.bbUsed, imgA := r.imgA, imgB := r.imgB, keyHash := r.keyHash, dbgHash := r.dbgHash, bootCount := r.bootCount }

/-- The time discipline of the Frame Scheduler. -/
def Frm.discipline (f : Frm) : Frm :=
  { sampleAt := f.sampleAt, sampleGptp := f.sampleGptp, sampleMark := f.sampleMark, sampleOk := f.sampleOk, sampled := f.sampled }

/-- All logic at its reset values: NVM, boot flash, fuses and what is mounted on the board stay. -/
def State.blank (s : State) : State :=
  { State.reset with
    cycles := s.cycles, free := s.free, pending := s.pending, fuses := s.fuses
    mem := { chGib := s.mem.chGib, ranks := s.mem.ranks, shardBase4M := s.shardReset, upsets := [] }
    psv := { cells := s.psv.cells }
    rst := s.rst.kept
    regs := Sparse.drop s.regs (fun k => !nvmReg k)
    boot := { t0 := s.cycles } }

/-- All logic but what Table 19-2 keeps at a device reset: DRAM with its marks, TIMEBASE, the scanners and the restored store; the Cellar
stands until step 6 writes it. -/
def State.blankDevice (s : State) : State :=
  let m := s.mem
  { State.blank s with
    timebase := s.timebase
    mem := { m with shardBase4M := s.shardReset, combine := [], counts := [], failed := [], statusReset := [], rates := [], scrubNext := [], refresh := [],
                     clearedAt := [], reply := none }
    frm := s.frm.discipline
    rst := { s.rst.kept with tsBad := s.rst.tsBad, railsOut := s.rst.railsOut }
    regs := Sparse.drop s.regs (fun k => !deviceKeeps k)
    boot := { t0 := s.cycles, initDram := false } }

/-! ## Steps 1 to 4 (R787) -/

/-- Steps 1 and 2: the clock, and the check of the identification fuses (R21). -/
def State.readFuses (s : State) (ok : Bool) : State :=
  let s := s.setFld F.GLB_BOOT_STATUS_AON_UP 1
  let s := { s with fuses := { s.fuses with failed := !ok } }
  if ok then s.setFld F.GLB_BOOT_STATUS_FUSE_OK 1
  else
    let s := (s.updCond 0x000 (fun c => { c with fault := true })).error 0x000 0x6020 0
    s.latchRst Cause.fuse 0x6020

/-- Step 4: the boot ROM; where it boots no slot, FAIL_STEP reads 4 (R800, R801). -/
def State.bootStep (s : State) (flash rom : Bool) (digA digB : List Nat) : State :=
  let s := s.bootRom flash rom digA digB
  if s.flag F.GLB_BOOT_STATUS_SLOT_CHOSEN then s else s.setFld F.GLB_BOOT_STATUS_FAIL_STEP 4

/-- The memory the board mounts (R408), which a reset finds: its capacity gives SHARD_BASE its reset value (R414). -/
def State.mount (s : State) (d : Dram) : State :=
  let s := s.updMem (fun m => { m with chGib := 2 ^ (1 + d.size % 3), ranks := 1 + d.ranks % 2 })
  s.updMem (fun m => { m with shardBase4M := s.shardReset })

/-- POWER_ON_RESET: `cause` is 0 for power-on, 1 for PORST_N, 2 for a brown-out of VDD_AON (Table 19-5); `form` is what the restore finds
of a word that was being programmed (R704). [DESIGN CHOICE: notes/assumptions/5.md; DEDUCED: notes/assumptions/73.md] -/
def State.powerOnReset (s : State) (cause : Nat) (fuseOk : Bool) (form : Nat) (flash rom : Bool) (digA digB : List Nat) (dram : Dram) : State :=
  let s := (s.powerLoss form).blank.mount dram
  let s := (s.setFld F.GLB_BOOT_STATUS_LAST_RESET cause).readFuses fuseOk
  let s := s.restore
  let s := s.updPsv (fun p => { p with life := { p.life with powerOn := p.life.powerOn + 1 } })
  (s.takePins s.safePins).bootStep flash rom digA digB

/-- The persistent pages hold their shadow: they are RESTORED as before the reset. [DEDUCED: notes/assumptions/73.md] -/
def State.keepStore (s : State) : State :=
  let s := (s.setFld F.GLB_BOOT_STATUS_RESTORED 1).setFld F.PSV_STATUS_QUEUED 0
  let s := persistentPages.foldl (fun (s : State) p => s.updPage p (fun h => { h with cond := {} })) s
  s.refreshWear.loadLife.restoreCauses

/-- A self fault of SAF ends only at an AON power-on (R777): it stands over a device reset. [DEDUCED: notes/assumptions/73.md] -/
def State.keepSelfFault (s old : State) : State :=
  if old.saf.selfFault then (s.updSaf (fun x => { x with selfFault := true, onlyPowerOn := false })).updCond 0x160 (fun c => { c with fault := true })
  else s

/-- DEVICE_RESET: an accepted request is applied once no word program is in progress (R785, R789). [DEDUCED: notes/assumptions/73.md] -/
def State.deviceReset (s : State) (fuseOk flash rom : Bool) (digA digB : List Nat) : State :=
  if s.boot.resetPending && s.psv.queue.isEmpty then
    let s := s.blankDevice.keepSelfFault s
    let s := ((s.setFld F.GLB_BOOT_STATUS_LAST_RESET 3).setFld F.RST_RESET_CAUSE 1).readFuses fuseOk
    let s := s.keepStore
    (s.takePins s.safePins).bootStep flash rom digA digB
  else s

/-! ## RESET_CTL (R785, R798) -/

/-- An accepted request: host transactions stop, and programs not yet started are discarded. [DEDUCED: notes/assumptions/73.md] -/
def State.resetAccept (s : State) : State :=
  let s := ((s.updBoot (fun b => { b with resetPending := true })).updRst (fun r => { r with bbWait := [] }))
  s.setQueue (s.psv.queue.take 1)

/-- A write of RESET_CTL by `w`. [DEDUCED: notes/assumptions/14.md; DEDUCED: notes/assumptions/73.md] -/
def State.writeResetCtl (s : State) (w : Nat) (v : Word) : State :=
  match s.portCheck 0x000 0x64 w with
  | some s' => s'
  | none =>
    if Writer.isVf w || getBits v 31 16 != 0x4456 then s.badAccess 0x000 0x64 w
    else if getBits v 0 0 = 0 then s.wrote 0x000 w
    else if s.framePaced && !s.saf.inSafe then s.error 0x000 0xA020 (infoOffWriter 0x64 w)
    else (s.wrote 0x000 w).resetAccept

/-! ## Steps 6 and 7 (R787 to R789, R802) -/

/-- One tile's start-up test: a pass clears its WITHDRAWN bit, a failure withdraws it (R788, R802). [DEDUCED: notes/assumptions/73.md] -/
def State.startupTest (s : State) (failed : List Nat) (n : Nat) : State :=
  if failed.contains n then s.testResult n false
  else ((s.testResult n true).updTile n (fun t => { t with withdrawn := false })).setFld (F.TILE_TEST_STATUS_WITHDRAWN n) 0

/-- STARTUP_TILE_TEST_DONE: step 6 ends; every Cellar word holds zero. -/
def State.tilesTested (s : State) (failed : List Nat) : State :=
  if s.flag F.GLB_BOOT_STATUS_FW_READY && !s.flag F.GLB_BOOT_STATUS_TILES_TESTED then
    let s := s.updMem (fun m => { m with cellar := [], cellarPoison := [], cellarLoss := [],
                                         upsets := m.upsets.filter (fun x => !x.cellar) })
    let s := s.enabledTiles.foldl (fun (s : State) n => s.startupTest failed n) s
    s.setFld F.GLB_BOOT_STATUS_TILES_TESTED 1
  else s

/-- What step 7 writes: every line with zero after a power-on reset, and after a device reset the two frame headers only.
[DEDUCED: notes/assumptions/7.md] -/
def State.initMemory (s : State) : State :=
  if s.boot.initDram then
    s.updMem (fun m => { m with dram := [], dramPoison := [], result := [], resultPoison := [], upsets := m.upsets.filter (·.cellar) })
  else (s.poke true (resultAddr 0 0) (List.replicate 64 0)).poke true (resultAddr 1 0) (List.replicate 64 0)

/-- DRAM_TRAINING_DONE: step 7 ends, after READY or in ROM_RECOVERY (R673). [DEDUCED: notes/assumptions/73.md] -/
def State.memReady (s : State) (failed rates : List Nat) : State :=
  if (s.flag F.GLB_BOOT_STATUS_FW_READY || s.romRecovery) && !s.flag F.GLB_BOOT_STATUS_MEM_READY then
    ((s.initMemory.updMem (fun m => { m with rates := rates })).trained failed).setFld F.GLB_BOOT_STATUS_MEM_READY 1
  else s

/-! ## Step 8 (R791, R792) -/

/-- The step of Table 19-3 whose condition fails, the lowest of them; 0 for none. -/
def State.failStep (s : State) : Nat :=
  if !s.flag F.GLB_BOOT_STATUS_FUSE_OK then 2
  else if !s.flag F.GLB_BOOT_STATUS_RESTORED then 3
  else if !s.flag F.GLB_BOOT_STATUS_SLOT_CHOSEN || s.rst.romFail then 4
  else if !s.flag F.GLB_BOOT_STATUS_FW_READY then 5
  else if !s.flag F.GLB_BOOT_STATUS_TILES_TESTED || s.enabledTiles.any (fun n => (s.tile n).withdrawn) then 6
  else if !s.flag F.GLB_BOOT_STATUS_MEM_READY || !s.mem.failed.isEmpty then 7
  else if s.fld F.RST_CLK_MON_FAULT != 0 || s.rst.railsOut != 0 || s.saf.selfFault || Nat.ble 2 s.releaseBlockers then 8
  else 0

/-- The power-on cause is over: bit 0 of SAF_ACTIVE and of EVENT_RAW is cleared, CHECKS_DONE is set and BOOT_MS written. -/
def State.checksPass (s : State) : State :=
  let s := ((s.setFld F.GLB_BOOT_STATUS_FAIL_STEP 0).setFld F.GLB_BOOT_STATUS_CHECKS_DONE 1).setFld F.GLB_BOOT_MS ((s.cycles - s.boot.t0) / msCycles 1)
  let s := (s.updSaf (fun x => { x with active := clrBit x.active 0 })).updPage 0x160 (fun h => { h with eventRaw := h.eventRaw &&& ~~~1 })
  s.coreFreqChange.serveRelease

/-- STARTUP_CHECKS: the checks are evaluated once steps 6 and 7 have ended, or no slot was booted, and again until they pass.
[DEDUCED: notes/assumptions/73.md] -/
def State.startupChecks (s : State) : State :=
  let ended := s.flag F.GLB_BOOT_STATUS_TILES_TESTED && s.flag F.GLB_BOOT_STATUS_MEM_READY
  if !s.flag F.GLB_BOOT_STATUS_CHECKS_DONE && (ended || !s.flag F.GLB_BOOT_STATUS_SLOT_CHOSEN) then
    (if s.failStep = 0 then s.checksPass else s.setFld F.GLB_BOOT_STATUS_FAIL_STEP s.failStep)
  else s

/-! ## Causes that end by time (Table 18-1) -/

/-- CLOCK_IN_WINDOW: every CLK_MON bit has been clear for 10 ms. [DEDUCED: notes/assumptions/62.md] -/
def State.clockInWindow (s : State) : State :=
  (s.setFld F.RST_CLK_MON_FAULT 0).updSaf (fun x => { x with active := clrBit x.active Cause.clock })

/-- RAILS_IN_WINDOW: every rail has been in its window for 10 ms. [DEDUCED: notes/assumptions/62.md] -/
def State.railsInWindow (s : State) : State :=
  (s.updRst (fun r => { r with railsOut := 0 })).updSaf (fun x => { x with active := clrBit x.active Cause.voltRange })

/-! ## GPIO (R815, R816, R818) -/

/-- GLB page 0x002 holds every GENERAL pin whose OE is 1 and that SAF does not hold (R815, R818). [DEDUCED: notes/assumptions/74.md] -/
def State.holdPins (s : State) : State :=
  let oe := s.fld F.GLB_GPIO_OE
  let mine := (List.range 16).filter (fun g => s.gpioFunc g == 0 && bitOf oe g && !bitOf s.gpio.held g)
  { s with held := s.held.filter (fun (x : Nat × Nat) => x.2 != 0x002) ++ mine.map (fun g => (pinRes g, 0x002)) }

/-- The lowest pin whose function a value of GPIO_FUNC would change while FRM or SAF holds it, with the holder (R816).
[DEDUCED: notes/assumptions/74.md] -/
def State.movesHeld (s : State) (off : Nat) (v : Word) : Option (Nat × Nat) :=
  let fs := s.funcsAfter off v
  (List.range 16).findSome? (fun g =>
    if fs.getD g 0 == s.gpioFunc g then none
    else match s.holder (pinRes g) with
      | some p => if p == 0x002 then none else some (g, p)
      | none => none)

/-- GPIO_FUNC_A (off 0x40) or GPIO_FUNC_B (0x44) takes a value. In the safe state a pin that becomes GENERAL is SAF's where SAFE_EN says so.
[DEDUCED: notes/assumptions/74.md] -/
def State.takeGpioFunc (s : State) (off : Nat) (v : Word) : State :=
  match s.movesHeld off v with
  | some x => s.error 0x002 Err.resourceHeld (word (x.2 % 2 ^ 10 * 2 ^ 16 + pinRes x.1))
  | none =>
    let s := (s.setCell (0x002000 + off) v).holdPins
    if s.saf.inSafe && s.flag F.GLB_BOOT_STATUS_RESTORED then s.takePins s.safePins else s

/-- A write of GPIO_FUNC by `w`. [DEDUCED: notes/assumptions/74.md] -/
def State.writeGpioFunc (s : State) (w off : Nat) (v : Word) : State :=
  s.onRwl 0x002 off w v (fun s => if (s.movesHeld off v).isSome then s.takeGpioFunc off v else (s.takeGpioFunc off v).wrote 0x002 w)

/-! ## The host's other writes -/

/-- VF_ENABLE_WRITE: the physical function's configuration space enables `n` virtual functions, or clears VF Enable, which abandons their
locks (R92). [DEDUCED: notes/assumptions/22.md; DEDUCED: notes/assumptions/57.md] -/
def State.vfEnableWrite (s : State) (enable : Bool) (n : Nat) : State :=
  let s := s.hostTlp
  if enable then (if s.hif.vfEnable then s else s.updHif (fun h => { h with vfEnable := true, numVfs := min 63 n }))
  else (s.abandonLocks Writer.isVf).updHif (fun h => { h with vfEnable := false, numVfs := 0 })

/-- BAR4_WRITE: bytes at an offset of Table 2-3 (R50, R422). [DEDUCED: notes/assumptions/14.md] -/
def State.bar4Write (s : State) (off : Nat) (bytes : List Byte) : State :=
  if s.boot.resetPending then s
  else match s.windowHome off with
    | .cellar t o => s.hostTlp.write (cellarAddr t o) bytes
    | .dram _ _ => s.hostTlp
    | .fusedOff => s.hostTlp
    | .result _ => (s.hostTlp).bump F.GLB_BAD_ACCESS_CNT_COUNT
    | .mailbox _ => s.hostTlp
    | .global => s.hostTlp
    | .reserved => s.hostTlp

/-! ## The commands -/

/-- POWER_ON_RESET (R784, R787). -/
def execPowerOnReset (dt cause : Nat) (fuseOk : Bool) (form : Nat) (flash rom : Bool) (digA digB : List Nat) (dram : Dram) (s : State) :
    Host.Outcome State Fault Refusal := .next ((s.arrive dt).powerOnReset cause fuseOk form flash rom digA digB dram)

/-- DEVICE_RESET (R784, R785). -/
def execDeviceReset (dt : Nat) (fuseOk flash rom : Bool) (digA digB : List Nat) (s : State) : Host.Outcome State Fault Refusal :=
  .next ((s.arrive dt).deviceReset fuseOk flash rom digA digB)

/-- STARTUP_TILE_TEST_DONE (R787). -/
def execStartupTileTestDone (dt : Nat) (failed : List Nat) (s : State) : Host.Outcome State Fault Refusal := .next ((s.arrive dt).tilesTested failed)

/-- DRAM_TRAINING_DONE (R787). -/
def execDramTrainingDone (dt : Nat) (failed rates : List Nat) (s : State) : Host.Outcome State Fault Refusal :=
  .next ((s.arrive dt).memReady failed rates)

/-- STARTUP_CHECKS (R791, R792). -/
def execStartupChecks (dt : Nat) (s : State) : Host.Outcome State Fault Refusal := .next ((s.arrive dt).startupChecks)

/-- DEVICE_RESET_REQUEST: a write of RESET_CTL (R785). -/
def execDeviceResetRequest (dt w key device : Nat) (s : State) : Host.Outcome State Fault Refusal :=
  .next ((s.arriveBy dt w).writeResetCtl w (word (key % 2 ^ 16 * 2 ^ 16 + device % 2)))

/-- GPIO_FUNC_WRITE: GPIO_FUNC_B where `high` (R816). -/
def execGpioFuncWrite (dt w : Nat) (high : Bool) (v : Word) (s : State) : Host.Outcome State Fault Refusal :=
  .next ((s.arriveBy dt w).writeGpioFunc w (if high then 0x44 else 0x40) v)

/-- CLOCK_IN_WINDOW (R754). -/
def execClockInWindow (dt : Nat) (s : State) : Host.Outcome State Fault Refusal := .next ((s.arrive dt).clockInWindow)

/-- RAILS_IN_WINDOW (R754). -/
def execRailsInWindow (dt : Nat) (s : State) : Host.Outcome State Fault Refusal := .next ((s.arrive dt).railsInWindow)

/-- VF_ENABLE_WRITE (R92). -/
def execVfEnableWrite (dt : Nat) (enable : Bool) (n : Nat) (s : State) : Host.Outcome State Fault Refusal := .next ((s.arrive dt).vfEnableWrite enable n)

/-- BAR4_WRITE (R422). -/
def execBar4Write (dt offset : Nat) (bytes : List Byte) (s : State) : Host.Outcome State Fault Refusal := .next ((s.arrive dt).bar4Write offset bytes)

end Sys2Proof.Machine
end

