-- ==== Sys2Proof/Machine/Port.lean ====
section
/-! DEFINITION. The register port (spec/02_register_pages.md, R51 to R112): one write to any register of BAR 0 with every rule that
discards it, and the writes that reach one register in one cycle (R96 to R98). -/

namespace Sys2Proof.Machine

/-! ## Fields of a register -/

/-- The fields of the register at an offset; none where the page has no register. -/
def regFields (p off : Nat) : List FieldDef := match regAt p off with | some r => r.fields | none => []

/-- The register has a field of an access type. -/
def hasAcc (p off : Nat) (a : Access) : Bool := (regFields p off).any (fun f => f.acc == a)

/-- A field that the page lock protects (R70, R90). -/
def lockGuards (p : Nat) (a : Access) : Bool := a == .rwl || (a == .rwp && Nat.ble 0x220 p && Nat.blt p 0x260)

/-- The lock keeps `w` from fields of the register (R90, R91). -/
def State.lockedOut (s : State) (p off w : Nat) : Bool :=
  (regFields p off).any (fun f => lockGuards p f.acc) && !lockAdmits (s.page p) w

/-- The register has writable fields that no lock protects. -/
def openFields (p off : Nat) : Bool := (regFields p off).any (fun f => f.acc != .ro && !lockGuards p f.acc)

/-- A field of the old value after a write of `v` (Table 2-6). -/
def FieldDef.take (f : FieldDef) (old v : Word) : Word :=
  let x := getBits v f.hi f.lo
  match f.acc with
  | .rw => setBits old f.hi f.lo x
  | .rwl => setBits old f.hi f.lo x
  | .rws => setBits old f.hi f.lo x
  | .rw1c => setBits old f.hi f.lo ((getBits old f.hi f.lo) &&& (2 ^ (f.hi + 1 - f.lo) - 1 - x))
  | .rw1s => setBits old f.hi f.lo ((getBits old f.hi f.lo) ||| x)
  | .clr => setBits old f.hi f.lo 0
  | .ro => old
  | .wo => old
  | .rwp => old

/-- A register takes a write of `v`; with `locked`, its RWL fields keep their values; RW1C bits set in the same cycle stay (R66). -/
def State.takeValue (s : State) (p off : Nat) (v : Word) (locked : Bool) : State :=
  let fs := (regFields p off).filter (fun f => !(locked && lockGuards p f.acc))
  let kept := ~~~s.risen (p * 0x1000 + off)
  if fs.isEmpty then s
  else (s.countFrom p off).setCell (p * 0x1000 + off)
    (fs.foldl (fun (x : Word) f => f.take x (if f.acc = .rw1c then v &&& kept else v)) (s.cell (p * 0x1000 + off)))

/-! ## Writes that a rule of their own discards (R96) -/

/-- A write of PAGE_CTRL is discarded: FREEZE while frames are paced (R75), ENABLE = 0 of a tile in use (R404). -/
def State.ctrlRule (s : State) (p w : Nat) (v : Word) : Option State :=
  let t := pageType p
  let st := s.pstate 0x010
  if !hasCtrl p then none
  else if getBits v 2 2 == 1 && Nat.ble 2 t && Nat.ble t 9 && s.framePaced then some (s.error p Err.freezeInFrame (word w))
  else if t == 7 && getBits v 0 0 == 0 && Nat.ble 2 st && Nat.ble st 4 then some (s.error p 0xA011 (infoOffWriter 0x08 w))
  else none

/-- Page 0x218 is closed to `w` (R776). -/
def State.safCfgBusy (s : State) (w : Nat) : Bool :=
  Writer.isVf w || (Nat.ble 2 (s.pstate 0x010) && Nat.ble (s.pstate 0x010) 4)

/-- A write of `v` to a persistent register meets a row of Table 16-4 that discards it. -/
def State.persistBarred (s : State) (p off : Nat) (v : Word) : Bool :=
  let k := (off - 0x40) / 8
  let old := s.wordInQueue p k
  let m := writableMask (p * 0x1000 + off) (fun a => a == .rwp)
  let new := if off % 8 = 0 then old / 2 ^ 32 * 2 ^ 32 + mergeMasked (old % 2 ^ 32) v.toNat m
    else old % 2 ^ 32 + 2 ^ 32 * mergeMasked (old / 2 ^ 32) v.toNat m
  let queued := s.psv.queue.any (fun x => x.page == p && x.word == k)
  !s.flag F.PSV_STATUS_RESTORED || s.inhibited || (s.nvm (cellIndex p k)).wear == 200000
    || (Nat.ble 16 s.psv.queue.length && !(new == s.committed p k && !queued))

/-- SAF_REQ, RESET_CTL, VERSION_OVERRIDE and RST_RESET_REQ are discarded for their writer, their key or the paced frames. -/
def State.keyBarred (s : State) (p off w : Nat) (v : Word) : Bool :=
  let key := getBits v 31 16
  let human := w == Writer.pf || w == Writer.debugger
  if p = 0x000 then Writer.isVf w || key != 0x4456 || (getBits v 0 0 == 1 && s.framePaced && !s.saf.inSafe)
  else if p = 0x160 then Writer.isVf w || key != 0x5346
  else if off = 0x54 then !human || key != 0x4F56
  else !human || key != 0x5253 || (getBits v 0 0 == 1 && s.framePaced && s.fld F.MBX_RST_RX_STATE != 3)

/-- A rule of the register's own discards the write whole. [DEDUCED: notes/assumptions/11.md] -/
def State.barred (s : State) (p off w : Nat) (v : Word) : Bool :=
  if off = 0x08 then (s.ctrlRule p w v).isSome
  else if off = 0x28 then getBits v 2 0 == 4 && w != Writer.rootstock
  else if off < 0x40 then false
  else if p = 0x000 ∧ off = 0x64 then s.keyBarred p off w v
  else if p = 0x002 ∧ (off = 0x40 ∨ off = 0x44) then (s.movesHeld off v).isSome
  else if p = 0x010 ∧ off = 0x48 then s.startBarred v
  else if p = 0x010 ∧ off = 0x58 then s.planBarred v
  else if 0x020 ≤ p ∧ p < 0x040 ∧ (p - 0x020) % 4 = 3 ∧ off = 0x5C then s.sendBarred ((p - 0x020) / 4) v
  else if p = 0x101 ∧ 0x48 ≤ off ∧ off < 0x240 ∧ off % 8 = 0 then s.funcCtxBusy ((off - 0x40) / 8) v
  else if p = 0x150 ∧ off = 0x44 then s.sleepBarred (getBits v 1 0)
  else if p = 0x0C0 ∧ off = 0x50 then !s.mapQuiet
  else if p = 0x0D1 ∧ off = 0x40 then s.etu.cmd.isSome || s.lockStops 0x0D0
  else if p = 0x0F1 ∧ off = 0x40 then !((List.range 8).all (fun n => s.pstate (grfPage n) == St.off) && s.grf.reqs.isEmpty)
  else if p = 0x0F1 ∧ off = 0x1C0 then getBits v 8 8 == 1 && s.fld (F.GRF_BAR_STATUS_STATE (getBits v 3 0)) == 1
  else if p = 0x110 ∧ (off = 0x40 ∨ off = 0x44 ∨ off = 0x48) then (s.page 0x110).enable
  else if p = 0x110 ∧ (off = 0x50 ∨ (0x80 ≤ off ∧ off < 0xC0)) then !stageWriter true w
  else if p = 0x110 ∧ (off = 0x54 ∨ (0xC0 ≤ off ∧ off < 0x100)) then !stageWriter false w
  else if p = 0x130 ∧ (off = 0x54 ∨ off = 0x58) then s.keyBarred p off w v
  else if p = 0x131 ∧ off = 0x4C then s.flag F.RST_UPD_STATUS_BUSY && getBits v 2 0 != 5
  else if p = 0x133 ∧ off = 0x4C then getBits v 0 0 == 1 && s.flag F.RST_LOG_STATUS_BUSY
  else if p = 0x160 ∧ off = 0x58 then s.keyBarred p off w v
  else if p = 0x162 ∧ off = 0x40 then s.fld F.PSV_SAF_WD_INJ_ALLOW == 0
  else if p = 0x210 ∧ off = 0x48 then
    getBits v 31 31 == 0 && (!(persistentPages.contains (getBits v 25 16)) || Nat.blt 503 (getBits v 10 0))
  else if p = 0x218 then s.safCfgBusy w || (hasAcc p off .rwp && s.persistBarred p off v)
  else if isPersistent p then hasAcc p off .rwp && s.persistBarred p off v
  else false

/-- The write takes part in arbitration: no rule discards it whole (R96). A gated tile's TILE_PWR takes WAKE (R394).
[DEDUCED: notes/assumptions/13.md] -/
def State.takesPart (s : State) (p off w : Nat) (v : Word) : Bool :=
  let wakes := Nat.ble 0x080 p && Nat.blt p 0x0C0 && off == 0x4C && getBits v 1 1 == 1 && (s.page p).cond.gated && s.tilePresent (p - 0x080)
  ((s.portCheck p off w).isNone || wakes) && !(hasAcc p off .rws && s.rwsRefused p off w) && !s.barred p off w v
    && (s.encodingBad p off v).isNone && !(s.lockedOut p off w && !openFields p off)

/-! ## One write -/

/-- A write to a header register (Tables 2-14 to 2-25); read-only ones ignore it. [DEDUCED: notes/assumptions/12.md] -/
def State.headerWrite (s : State) (p off w : Nat) (v : Word) : State :=
  s.onWrite p off w v (fun s =>
    if off = 0x08 then (match s.ctrlRule p w v with | some s' => s' | none => (s.writeCtrl p v).wrote p w)
    else if off = 0x14 then (s.writeMask p v).wrote p w
    else if off = 0x18 then (s.clearEvents p v).wrote p w
    else if off = 0x1C then (s.clearError p v).wrote p w
    else if off = 0x28 then
      (if getBits v 2 0 = 4 ∧ w ≠ Writer.rootstock then s.undefinedEncoding p 0x28 0 else (s.lockOp p w (getBits v 2 0)).wrote p w)
    else if off = 0x2C then s.clearCollided p v
    else if off < 0x08 then s
    else s.wrote p w)

/-- A write to a register with no meaning beyond its fields' access types. -/
def State.plainWrite (s : State) (p off w : Nat) (v : Word) : State :=
  match s.portCheck p off w with
  | some s' => s'
  | none =>
    if hasAcc p off .rws && s.rwsRefused p off w then s
    else match s.encodingBad p off v with
    | some lo => s.undefinedEncoding p off lo
    | none =>
      let locked := s.lockedOut p off w
      let s := if locked then s.error p Err.lockNotHeld (infoOffWriter off w) else s
      if locked && !openFields p off then s else (s.takeValue p off v locked).wrote p w

/-- The ordinary rules before Table 16-4 (R699, R776): whether the write goes on, and the state. -/
def State.persistAdmit (s : State) (p off w : Nat) (v : Word) : Bool × State :=
  match s.portCheck p off w with
  | some s' => (false, s')
  | none =>
    if p = 0x218 ∧ s.safCfgBusy w = true then (false, s.error p 0xA023 (infoOffWriter off w))
    else match s.encodingBad p off v with
    | some lo => (false, s.undefinedEncoding p off lo)
    | none => if s.lockedOut p off w then (false, s.error p Err.lockNotHeld (infoOffWriter off w)) else (true, s)

/-- A write to one register of a persistent page (R699). [DEDUCED: notes/assumptions/12.md] -/
def State.persistWrite (s : State) (p off w : Nat) (v : Word) : State :=
  let r := s.persistAdmit p off w v
  let k := (off - 0x40) / 8
  if r.1 then (if off % 8 = 0 then r.2.persistWord p k w (some v) none else r.2.persistWord p k w none (some v)) else r.2

/-- A write of GPIO_OE (R815). -/
def State.writeGpioOe (s : State) (w : Nat) (v : Word) : State :=
  s.onWrite 0x002 0x48 w v (fun s => ((s.setFld F.GLB_GPIO_OE (getBits v 15 0)).holdPins).wrote 0x002 w)

/-- A write of SERVO_CFG: a changed ENABLE moves the servo states of the lanes at once (R248, R249). -/
def State.writeServoCfg (s : State) (n w : Nat) (v : Word) : State :=
  let t := s.plainWrite (dlPage n) 0x40 w v
  if t.flag (F.SLK_SERVO_CFG_ENABLE n) = s.flag (F.SLK_SERVO_CFG_ENABLE n) then t else t.servoRefresh

/-- A write of SAF_REQ (R754, R761). -/
def State.writeSafReq (s : State) (w : Nat) (v : Word) : State :=
  s.onWrite 0x160 0x58 w v (fun s => if s.keyBarred 0x160 0x58 w v then s else s.safReq w v)

/-- A write of INJ_CTL (R773). [DEDUCED: notes/assumptions/72.md] -/
def State.writeInjCtl (s : State) (w : Nat) (v : Word) : State :=
  s.onWrite 0x162 0x40 w v (fun s =>
    if s.fld F.PSV_SAF_WD_INJ_ALLOW = 0 then s.error 0x162 0x8017 (word w) else (s.takeValue 0x162 0x40 v false).wrote 0x162 w)

/-- A write of WEAR_SEL (R708). -/
def State.writeWearSel (s : State) (w : Nat) (v : Word) : State := s.onWrite 0x210 0x48 w v (fun s => s.wearSelWrite w v)

/-- A write of DBG_CFG (R682). -/
def State.writeDbgCfg (s : State) (w : Nat) (v : Word) : State := s.onRws 0x134 0x4C w v (fun s => s.dbgCfgWrite w v)

/-- A write to a register of FRM, SLK, SEP, the tiles or MEMC that acts. -/
def State.frameSideWrite (s : State) (p off w : Nat) (v : Word) : State :=
  if p = 0x010 ∧ off = 0x48 then s.writeFrmCtl w v
  else if p = 0x010 ∧ off = 0x58 then s.writePlanCtl w v
  else if p = 0x011 ∧ off = 0x7C then s.writeTestReq w v
  else if p = 0x041 ∧ off = 0x60 then s.writePoseCmd w v
  else if 0x020 ≤ p ∧ p < 0x040 then
    let n := (p - 0x020) / 4
    let sub := (p - 0x020) % 4
    if sub = 0 ∧ off = 0x40 then s.writeLaneCfg n w v
    else if sub = 0 ∧ off = 0x48 then s.writeLaneCmd n w v
    else if sub = 1 ∧ off = 0x48 then s.writeVgaSet n w v
    else if sub = 1 ∧ off = 0x4C then s.writeCtfSet n w v
    else if sub = 3 ∧ off = 0x40 then s.writeServoCfg n w v
    else if sub = 3 ∧ off = 0x4C then (s.plainWrite p off w v).noteWait n
    else if sub = 3 ∧ off = 0x5C then s.dlSend n w v
    else s.plainWrite p off w v
  else if 0x080 ≤ p ∧ p < 0x0C0 ∧ off = 0x4C then s.writeTilePwr (p - 0x080) w v
  else if p = 0x0C0 ∧ off = 0x50 then s.writeShardCfg 0 w v
  else s.plainWrite p off w v

/-- A write to a register of ETU, Graft, HIF or MBX that acts. -/
def State.fabricSideWrite (s : State) (p off w : Nat) (v : Word) : State :=
  if p = 0x0D0 ∧ off = 0x40 then s.writeEtuCfg w v
  else if p = 0x0D1 ∧ off = 0x40 then s.writeEtuCmd w (getBits v 3 0) (getBits v 15 8)
  else if p = 0x0F1 ∧ off = 0x40 then s.writeNodeCfg w v
  else if p = 0x0F1 ∧ off = 0x58 then s.writeLostCtl w v
  else if p = 0x0F1 ∧ off = 0x1C0 then s.writeBarCtl w v
  else if p = 0x0F1 ∧ 0x180 ≤ off ∧ off < 0x1C0 then s.writeBarCfg w ((off - 0x180) / 4) v
  else if p = 0x101 ∧ 0x48 ≤ off ∧ off < 0x240 ∧ off % 8 = 0 then s.writeFuncCtx w ((off - 0x40) / 8) v
  else if p = 0x10B ∧ 0x800 ≤ off ∧ off < 0xA00 then s.onWrite p off w v (fun s => (s.msixWord ((off - 0x800) / 4) v).wrote p w)
  else if p = 0x110 ∧ (off = 0x40 ∨ off = 0x44 ∨ off = 0x48) then s.writeMbxCfg w off v
  else if p = 0x110 ∧ (off = 0x50 ∨ off = 0x54) then s.writeSendCmd (off == 0x50) w v
  else if p = 0x110 ∧ 0x80 ≤ off ∧ off < 0xC0 then s.writeStage true w ((off - 0x80) / 4) v
  else if p = 0x110 ∧ 0xC0 ≤ off ∧ off < 0x100 then s.writeStage false w ((off - 0xC0) / 4) v
  else if p = 0x111 ∧ 0x40 ≤ off ∧ off < 0x240 then s.writePrivPolicy w ((off - 0x40) / 4) v
  else if 0x112 ≤ p ∧ p < 0x11A ∧ 0x40 ≤ off ∧ off < 0x240 ∧ off % 16 = 8 then s.writeMbTake w ((p - 0x112) * 32 + (off - 0x40) / 16) v
  else if p = 0x11A ∧ 0x40 ≤ off ∧ off < 0x850 then s.writeDb w ((off - 0x40) / 16) (off % 16 / 4) v
  else s.plainWrite p off w v

/-- A write to a register of GLB, RST, PWR, SAF or PSV that acts. -/
def State.aonSideWrite (s : State) (p off w : Nat) (v : Word) : State :=
  if p = 0x000 ∧ off = 0x64 then s.writeResetCtl w v
  else if p = 0x002 ∧ (off = 0x40 ∨ off = 0x44) then s.writeGpioFunc w off v
  else if p = 0x002 ∧ off = 0x48 then s.writeGpioOe w v
  else if p = 0x130 ∧ off = 0x54 then s.writeOverride w v
  else if p = 0x130 ∧ off = 0x58 then s.writeResetReq w v
  else if p = 0x131 ∧ off = 0x4C then s.updCmd w v (Config.securityWords (getBits v 2 0))
  else if p = 0x133 ∧ off = 0x4C then s.writeLogCmd w v
  else if p = 0x134 ∧ off = 0x4C then s.writeDbgCfg w v
  else if p = 0x150 ∧ off = 0x44 then s.writePwrReq w v
  else if p = 0x150 ∧ off = 0x58 then s.writeWakeCause w v
  else if (p = 0x150 ∧ off = 0x48) ∨ (p = 0x151 ∧ off < 0x4C) then (s.plainWrite p off w v).coreFreqChange
  else if p = 0x160 ∧ off = 0x58 then s.writeSafReq w v
  else if p = 0x162 ∧ off = 0x40 then s.writeInjCtl w v
  else if p = 0x210 ∧ off = 0x44 then (s.plainWrite p off w v).refreshWear
  else if p = 0x210 ∧ off = 0x48 then s.writeWearSel w v
  else if isPersistent p ∧ hasAcc p off .rwp = true then s.persistWrite p off w v
  else s.plainWrite p off w v

/-- One write of `w` to the register at `off` of page `p`. -/
def State.regWrite (s : State) (p off w : Nat) (v : Word) : State :=
  if off < 0x40 then s.headerWrite p off w v
  else if p < 0x010 ∨ 0x130 ≤ p then s.aonSideWrite p off w v
  else if p < 0x0D0 then s.frameSideWrite p off w v
  else s.fabricSideWrite p off w v

/-! ## One cycle of the port (R96, R97) -/

/-- The writes that reach the register in one cycle, the first of each writer; those that wait for the next.
[DEDUCED: notes/assumptions/13.md] -/
def splitCycle : List Nat → List RegWrite → List RegWrite × List RegWrite
  | _, [] => ([], [])
  | seen, x :: t =>
    if seen.contains x.writer then (let r := splitCycle seen t; (r.1, x :: r.2))
    else (let r := splitCycle (x.writer :: seen) t; (x :: r.1, r.2))

/-- The writes that a rule discards meet it; the others by precedence. [DEDUCED: notes/assumptions/13.md] -/
def State.arbitrate (s : State) (p off : Nat) (ws : List RegWrite) : State × List RegWrite :=
  let out := ws.filter (fun x => !s.takesPart p off x.writer x.value)
  let ins := rankWrites (hasAcc p off .rws) (ws.filter (fun x => s.takesPart p off x.writer x.value))
  (out.foldl (fun (s : State) x => s.regWrite p off x.writer x.value) s, ins)

/-- Writes that the lock strips of their RWL fields record it, though they lose the rest in arbitration (R90, R91). -/
def State.noteStripped (s : State) (p off : Nat) (ws : List RegWrite) : State :=
  (ws.filter (fun x => s.lockedOut p off x.writer && (s.portCheck p off x.writer).isNone)).foldl
    (fun (s : State) x => s.error p Err.lockNotHeld (infoOffWriter off x.writer)) s

/-- One cycle: the winner's write is applied, and the losers are recorded. [DEDUCED: notes/assumptions/13.md] -/
def State.oneCycle (s : State) (p off : Nat) (ws : List RegWrite) : State :=
  let r := s.arbitrate p off ws
  match r.2 with
  | [] => r.1
  | x :: losers => ((r.1.noteStripped p off losers).regWrite p off x.writer x.value).recordLosers p off x.writer losers

/-- Writes to one register: those of one cycle, then those that waited. The fuel is their number. -/
def State.writeBatches (p off : Nat) : Nat → List RegWrite → State → State
  | 0, _, s => s
  | n + 1, ws, s =>
    let c := splitCycle [] ws
    State.writeBatches p off n c.2 (s.oneCycle p off c.1)

/-- Writes that reach the register at `off` of page `p` together. -/
def State.writeRegs (s : State) (p off : Nat) (ws : List RegWrite) : State := State.writeBatches p off ws.length ws s

/-- The host's writes cross the link (R559). [DEDUCED: notes/assumptions/57.md] -/
def State.noteTlp (s : State) (ws : List RegWrite) : State := if ws.any (fun x => Nat.ble 0x40 x.writer) then s.hostTlp else s

/-- `arbitrate` for one register of a persistent word: where Table 16-4 discards every write that reaches it, the highest in rank
still goes on, so that the word's writes are disposed of as one (R699, R700). [DEDUCED: notes/assumptions/67.md] -/
def State.persistRace (s : State) (p off : Nat) (ws : List RegWrite) : State × List RegWrite :=
  let ins := ws.filter (fun x => s.takesPart p off x.writer x.value)
  let all := ws.filter (fun x => (s.persistAdmit p off x.writer x.value).1)
  let on := if ins.isEmpty then (rankWrites false all).take 1 else rankWrites false ins
  let out := ws.filter (fun x => !(on.any (fun y => y.writer == x.writer)))
  (out.foldl (fun (s : State) x => s.regWrite p off x.writer x.value) s, on)

/-- Writes of one word of a persistent page in one AON cycle (R700): each register is arbitrated, and the winners enter as one write. -/
def State.persistPair (s : State) (p k : Nat) (lo hi : List RegWrite) : State :=
  let offLo := 0x40 + 8 * k
  let a := s.persistRace p offLo (splitCycle [] lo).1
  let b := a.1.persistRace p (offLo + 4) (splitCycle [] hi).1
  let value := fun (l : List RegWrite) => l.head?.map (fun x => x.value)
  let s := match b.2.head?, a.2.head? with
    | some y, _ => b.1.persistWord p k y.writer (value a.2) (value b.2)
    | none, some x => b.1.persistWord p k x.writer (value a.2) none
    | none, none => b.1
  let s := match a.2 with | x :: l => s.recordLosers p offLo x.writer l | [] => s
  match b.2 with | y :: l => s.recordLosers p (offLo + 4) y.writer l | [] => s

end Sys2Proof.Machine
end

