-- ==== Sys2Proof/Machine/RegisterWrite.lean ====
section
/-! DEFINITION. The commands of the register port and of the persistent store (spec/02_register_pages.md, R65 to R103; spec/13_host_contexts_status.md,
R578; spec/15_rootstock.md, R682; spec/16_persistent_registers.md, R699 to R709). -/

namespace Sys2Proof.Machine

/-! ## Register writes (R51, R52, R65) -/

/-- Writes discarded for their size or alignment (R52). [DEDUCED: notes/assumptions/14.md] -/
def State.badWrites (s : State) (addr : Nat) (ws : List RegWrite) : State :=
  ws.foldl (fun (s : State) x => s.badAccess (addr / 0x1000) (addr % 0x1000) x.writer) s

/-- REGISTER_WRITE: `size` bytes at BAR 0 offset `addr` by each writer of `ws`; a 64-bit access is two, the lower address first, with
`hs` the upper halves (R51). -/
def State.registerWrite (s : State) (addr size : Nat) (ws hs : List RegWrite) : State :=
  let s := s.noteTlp ws
  if size = 4 ∧ addr % 4 = 0 then s.writeRegs (addr / 0x1000) (addr % 0x1000) ws
  else if size = 8 ∧ addr % 8 = 0 then
    (s.writeRegs (addr / 0x1000) (addr % 0x1000) ws).writeRegs (addr / 0x1000) (addr % 0x1000 + 4) hs
  else s.badWrites addr ws

/-- One write of `w`. -/
def State.singleWrite (s : State) (p off w : Nat) (v : Word) : State := (s.noteTlp [⟨w, v⟩]).regWrite p off w v

/-- COUNTER_WRITE: any write to a saturating counter sets it to 0 (R161). -/
def State.counterWrite (s : State) (p off w : Nat) (v : Word) : State := if hasAcc p off .clr then s.singleWrite p off w v else s

/-- A value of PAGE_CTRL with ENABLE and FREEZE as given. -/
def ctrlValue (enable soft freeze : Bool) : Word := word (b2n enable + 2 * b2n soft + 4 * b2n freeze)

/-- PAGE_ENABLE: ENABLE is written, FREEZE as it stands. -/
def State.pageEnable (s : State) (p w : Nat) (on : Bool) : State := s.singleWrite p 0x08 w (ctrlValue on false (s.page p).freeze)

/-- SOFT_RESET: SOFT_RESET is written 1, ENABLE and FREEZE as they stand. -/
def State.pageReset (s : State) (p w : Nat) : State :=
  s.singleWrite p 0x08 w (ctrlValue (s.page p).enable true (s.page p).freeze)

/-- FREEZE: FREEZE is written, ENABLE as it stands. -/
def State.pageFreeze (s : State) (p w : Nat) (on : Bool) : State := s.singleWrite p 0x08 w (ctrlValue (s.page p).enable false on)

/-! ## Resources (R101, R102) -/

/-- What a page does once it has the resource it waited for: a port trains (R514), a lane makes a zone load (R174). -/
def State.afterGrant (s : State) (p : Nat) : State :=
  let t := pageType p
  let n := pageInst p
  if (s.page p).cond.waiting then s
  else if t == 10 && s.lstate n == 0 then s.portTrain n
  else if t == 3 && s.laneRuns n then s.zoneLoad n
  else s

/-- The waiter that is served next: the first whose resource is free (R101). -/
def State.nextGrant (s : State) : Option Waiter := s.waiters.find? (fun w => (s.holder w.res).isNone)

/-- RESOURCE_GRANT. [DEDUCED: notes/assumptions/21.md] -/
def State.resourceGrant (s : State) : State :=
  match s.nextGrant with
  | some w => (s.grantOne w).afterGrant w.page
  | none => s

/-! ## Jobs (R578) -/

/-- The writer ID of a context's owner (Table 2-4). -/
def State.ctxWriter (s : State) (ctx : Nat) : Nat := Writer.vf (s.ctxOwner ctx)

/-- What the page recorded first of a list of entries. -/
def firstCode (p : Nat) (l : List LogReq) : Nat :=
  match l.find? (fun x => x.page == p && x.rank == 0) with | some x => x.code | none => 0

/-- A job's register write: the code the page records where it discards the write, and the state. -/
def State.jobWrite (s : State) (p off w : Nat) (v : Word) : Nat × State :=
  let ok := s.takesPart p off w v
  let old := s.logQueue
  let s := { s with logQueue := [] }.regWrite p off w v
  let new := s.logQueue
  (if ok then 0 else firstCode p new, new.foldl (fun (s : State) x => s.logged x) { s with logQueue := old })

/-- JOB_REG_WRITE: a write that is queued for commit keeps the job until it takes effect (Table 13-4). [DEDUCED: notes/assumptions/56.md] -/
def State.jobRegWrite (s : State) (ctx ring : Nat) : State :=
  s.onJob ctx ring 6 (fun s j =>
    let p := fieldOf j.bytes 0x08 2
    let off := fieldOf j.bytes 0x0A 2
    let q := s.psv.queue.length
    let r := s.jobWrite p off (s.ctxWriter ctx) (word (fieldOf j.bytes 0x0C 4))
    let s := r.2
    if q < s.psv.queue.length then s.setJob ctx ring (some { j with phase := 2, link := s.psv.queue.length })
    else s.jobDone ctx ring { j with aux := (s.readReg p off).toNat } r.1 0)

/-- A read of `size` bytes at BAR 0 offset `addr`: the addressed bytes, which have no side effect (R51 to R53); an unaligned read is
discarded and counted with WRITER 0x00 (R112). [DEDUCED: notes/assumptions/15.md] -/
def State.portRead (s : State) (addr size : Nat) : List Byte × State :=
  let reg := fun (a : Nat) => leBytes 4 (s.readReg (a / 0x1000) (a % 0x1000)).toNat
  if size = 0 ∨ addr % size ≠ 0 then ([], s.badAccess (addr / 0x1000) (addr % 0x1000) 0)
  else if size = 8 then (reg addr ++ reg (addr + 4), s)
  else (((reg (addr / 4 * 4)).drop (addr % 4)).take size, s)

/-- A function's writes of persistent fields that have not been committed: its reads wait for them (R54). -/
def State.uncommitted (s : State) (w : Nat) : Bool := s.psv.queue.any (fun x => x.writer == w)

/-- JOB_REG_READ: the read returns once every earlier write of the function has taken effect (R54, R578).
[DEDUCED: notes/assumptions/15.md] -/
def State.jobRegRead (s : State) (ctx ring : Nat) : State :=
  if s.uncommitted (s.ctxWriter ctx) then s
  else s.onJob ctx ring 7 (fun s j =>
    s.jobDone ctx ring { j with aux := (s.readReg (fieldOf j.bytes 0x08 2) (fieldOf j.bytes 0x0A 2)).toNat } 0 0)

/-- Register-write jobs that wait for a commit, as (context, ring, job). -/
def State.commitJobs (s : State) : List (Nat × Nat × Job) := s.allJobs.filter (fun x => x.2.2.opc == 6 && x.2.2.phase == 2)

/-- The job of a queued write ends with a code. -/
def State.endCommitJob (s : State) (x : Nat × Nat × Job) (code : Nat) : State :=
  let r := s.readReg (fieldOf x.2.2.bytes 0x08 2) (fieldOf x.2.2.bytes 0x0A 2)
  s.jobDone x.1 x.2.1 { x.2.2 with aux := r.toNat } code 0

/-- The first queued write has left the queue with a code: its job ends, and the others move up. -/
def State.commitMoved (s : State) (code : Nat) : State :=
  s.commitJobs.foldl (fun (s : State) (x : Nat × Nat × Job) =>
    if x.2.2.link ≤ 1 then s.endCommitJob x code else s.setJob x.1 x.2.1 (some { x.2.2 with link := x.2.2.link - 1 })) s

/-! ## The persistent store (R699 to R709) -/

/-- PERSIST_WRITE: writes to the two registers of word `k` of page `p` that arrive in one AON cycle. [DEDUCED: notes/assumptions/67.md] -/
def State.persistWrites (s : State) (p k : Nat) (lo hi : List RegWrite) : State :=
  let off := 0x40 + 8 * k
  let s := s.noteTlp (lo ++ hi)
  if isPersistent p && (hasAcc p off .rwp || hasAcc p (off + 4) .rwp) then
    let s := s.persistPair p k lo hi
    (s.writeRegs p off (splitCycle [] lo).2).writeRegs p (off + 4) (splitCycle [] hi).2
  else (s.writeRegs p off lo).writeRegs p (off + 4) hi

/-- PERSIST_COMMIT_DONE: the program of the first queued write ends; `ok` says whether its slot verifies (R702, R713); a rise of
AGE_OFFSET_MV takes effect (R739, R741). -/
def State.persistCommit (s : State) (ok : Bool) : State :=
  let n := s.psv.queue.length
  let old := s.fld F.PSV_AGE_A_AGE_OFFSET_MV
  let s := s.commitDone ok
  let s := if old < s.fld F.PSV_AGE_A_AGE_OFFSET_MV then s.ageRose old else s
  if s.psv.queue.length < n then s.commitMoved (if ok then 0 else 0x7006) else s

/-- BROWN_OUT: the inhibit begins; jobs whose queued write is discarded end with PERSIST_INHIBITED (R706). -/
def State.brownOutBegin (s : State) : State :=
  if s.inhibited then s
  else
    let s := s.brownOut
    (s.commitJobs.filter (fun (x : Nat × Nat × Job) => Nat.ble 2 x.2.2.link)).foldl (fun (s : State) x => s.endCommitJob x 0x7004) s

/-! ## The debugger (R682, R810) -/

/-- DBG_REG: at level REGISTER or FULL a write, at any level of a session a read, of one aligned register (R51, R52); selecting DBG_REG
ends boundary scan (R819). [DEDUCED: notes/assumptions/15.md; DEDUCED: notes/assumptions/66.md] -/
def State.dbgReg (s : State) (addr : Nat) (write : Bool) (v : Word) : State :=
  let s := s.leaveScan 0x23
  if write then
    (if s.dbgLevel < 2 then s
     else if addr % 4 = 0 then s.regWrite (addr / 0x1000) (addr % 0x1000) Writer.debugger v
     else s.badAccess (addr / 0x1000) (addr % 0x1000) Writer.debugger)
  else if s.dbgLevel = 0 then s
  else (s.portRead addr 4).2

/-! ## The commands -/

/-- REGISTER_WRITE (R65). -/
def execRegisterWrite (dt addr size : Nat) (writes upper : List RegWrite) (s : State) : Host.Outcome State Fault Refusal :=
  .next ((s.arrive dt).registerWrite addr size writes upper)

/-- COUNTER_WRITE (R161). -/
def execCounterWrite (dt page off w : Nat) (v : Word) (s : State) : Host.Outcome State Fault Refusal :=
  .next ((s.arrive dt).counterWrite page off w v)

/-- PAGE_ENABLE (R71). -/
def execPageEnable (dt page w : Nat) (on : Bool) (s : State) : Host.Outcome State Fault Refusal := .next ((s.arrive dt).pageEnable page w on)

/-- SOFT_RESET (R72). -/
def execSoftReset (dt page w : Nat) (s : State) : Host.Outcome State Fault Refusal := .next ((s.arrive dt).pageReset page w)

/-- SOFT_RESET_DONE (R72). -/
def execSoftResetDone (dt page : Nat) (s : State) : Host.Outcome State Fault Refusal := .next ((s.arrive dt).softResetDone page)

/-- FREEZE (R74). -/
def execFreeze (dt page w : Nat) (on : Bool) (s : State) : Host.Outcome State Fault Refusal := .next ((s.arrive dt).pageFreeze page w on)

/-- FREEZE_SAFE_POINT (R74). -/
def execFreezeSafePoint (dt page : Nat) (s : State) : Host.Outcome State Fault Refusal := .next ((s.arrive dt).freezePoint page)

/-- DRAIN_COMPLETE (R71). -/
def execDrainComplete (dt page : Nat) (s : State) : Host.Outcome State Fault Refusal := .next ((s.arrive dt).drainDone page)

/-- EVENT_PEND_CLEAR (R80). -/
def execEventPendClear (dt page w : Nat) (v : Word) (s : State) : Host.Outcome State Fault Refusal :=
  .next ((s.arrive dt).singleWrite page 0x18 w v)

/-- ERR_CODE_CLEAR (R85). -/
def execErrCodeClear (dt page w : Nat) (v : Word) (s : State) : Host.Outcome State Fault Refusal :=
  .next ((s.arrive dt).singleWrite page 0x1C w v)

/-- LOCK_ACQUIRE (R89). -/
def execLockAcquire (dt page w : Nat) (s : State) : Host.Outcome State Fault Refusal := .next ((s.arrive dt).singleWrite page 0x28 w 1)

/-- LOCK_RELEASE (R89). -/
def execLockRelease (dt page w : Nat) (s : State) : Host.Outcome State Fault Refusal := .next ((s.arrive dt).singleWrite page 0x28 w 2)

/-- LOCK_RECOVERED (R89). -/
def execLockRecovered (dt page w : Nat) (s : State) : Host.Outcome State Fault Refusal := .next ((s.arrive dt).singleWrite page 0x28 w 3)

/-- LOCK_BREAK (R89). -/
def execLockBreak (dt page w : Nat) (s : State) : Host.Outcome State Fault Refusal := .next ((s.arrive dt).singleWrite page 0x28 w 4)

/-- LOCK_ABANDON (R92). -/
def execLockAbandon (dt page : Nat) (s : State) : Host.Outcome State Fault Refusal := .next ((s.arrive dt).lockAbandon page)

/-- RESOURCE_GRANT (R101). -/
def execResourceGrant (dt : Nat) (s : State) : Host.Outcome State Fault Refusal := .next ((s.arrive dt).resourceGrant)

/-- JOB_REG_WRITE (R578). -/
def execJobRegWrite (dt ctx ring : Nat) (s : State) : Host.Outcome State Fault Refusal := .next ((s.arrive dt).jobRegWrite ctx ring)

/-- JOB_REG_READ (R578). -/
def execJobRegRead (dt ctx ring : Nat) (s : State) : Host.Outcome State Fault Refusal := .next ((s.arrive dt).jobRegRead ctx ring)

/-- DBG_REG (R682). -/
def execDbgReg (dt addr : Nat) (write : Bool) (v : Word) (s : State) : Host.Outcome State Fault Refusal :=
  .next ((s.arrive dt).dbgReg addr write v)

/-- PERSIST_WRITE (R699). -/
def execPersistWrite (dt page word : Nat) (lo hi : List RegWrite) (s : State) : Host.Outcome State Fault Refusal :=
  .next ((s.arrive dt).persistWrites page word lo hi)

/-- PERSIST_COMMIT_DONE (R702). -/
def execPersistCommitDone (dt : Nat) (ok : Bool) (s : State) : Host.Outcome State Fault Refusal := .next ((s.arrive dt).persistCommit ok)

/-- BROWN_OUT (R706). -/
def execBrownOut (dt : Nat) (s : State) : Host.Outcome State Fault Refusal := .next ((s.arrive dt).brownOutBegin)

/-- BROWN_OUT_END (R706). -/
def execBrownOutEnd (dt : Nat) (s : State) : Host.Outcome State Fault Refusal := .next ((s.arrive dt).brownOutEnd)

/-- WEAR_SEL_WRITE (R708). -/
def execWearSelWrite (dt w : Nat) (v : Word) (s : State) : Host.Outcome State Fault Refusal := .next ((s.arrive dt).singleWrite 0x210 0x48 w v)

/-- LIFETIME_COMMIT (R709). -/
def execLifetimeCommit (dt : Nat) (s : State) : Host.Outcome State Fault Refusal := .next ((s.arrive dt).lifetimeCommit)

/-- SAF_ENTER: KEY and ENTER (R754). -/
def execSafEnter (dt w key : Nat) (s : State) : Host.Outcome State Fault Refusal :=
  .next ((s.arrive dt).singleWrite 0x160 0x58 w (word (key % 2 ^ 16 * 2 ^ 16 + 2)))

/-- SAF_RELEASE: KEY and RELEASE (R761). -/
def execSafRelease (dt w key : Nat) (s : State) : Host.Outcome State Fault Refusal :=
  .next ((s.arrive dt).singleWrite 0x160 0x58 w (word (key % 2 ^ 16 * 2 ^ 16 + 1)))

/-- INJ_ARM: TARGET and INSTANCE with ARM (R773). -/
def execInjArm (dt w target inst : Nat) (s : State) : Host.Outcome State Fault Refusal :=
  .next ((s.arrive dt).singleWrite 0x162 0x40 w (word (2 ^ 16 + inst % 64 * 2 ^ 8 + target % 256)))

end Sys2Proof.Machine
end

