-- ==== Sys2Proof/Machine/Dispatch.lean ====
section
/-! DEFINITION. The dispatch: one arm per command of spec/opcode_table.json, each a call of its meaning. -/

namespace Sys2Proof.Machine

def exec (i : Instr) (s : State) : Host.Outcome State Fault Refusal :=
  match i with
  | .registerWrite dt addr size writes upper => Sys2Proof.Machine.execRegisterWrite dt addr size writes upper s
  | .counterWrite dt page off w v => Sys2Proof.Machine.execCounterWrite dt page off w v s
  | .pageEnable dt page w on => Sys2Proof.Machine.execPageEnable dt page w on s
  | .softReset dt page w => Sys2Proof.Machine.execSoftReset dt page w s
  | .softResetDone dt page => Sys2Proof.Machine.execSoftResetDone dt page s
  | .freeze dt page w on => Sys2Proof.Machine.execFreeze dt page w on s
  | .freezeSafePoint dt page => Sys2Proof.Machine.execFreezeSafePoint dt page s
  | .drainComplete dt page => Sys2Proof.Machine.execDrainComplete dt page s
  | .eventPendClear dt page w v => Sys2Proof.Machine.execEventPendClear dt page w v s
  | .errCodeClear dt page w v => Sys2Proof.Machine.execErrCodeClear dt page w v s
  | .lockAcquire dt page w => Sys2Proof.Machine.execLockAcquire dt page w s
  | .lockRelease dt page w => Sys2Proof.Machine.execLockRelease dt page w s
  | .lockRecovered dt page w => Sys2Proof.Machine.execLockRecovered dt page w s
  | .lockBreak dt page w => Sys2Proof.Machine.execLockBreak dt page w s
  | .lockAbandon dt page => Sys2Proof.Machine.execLockAbandon dt page s
  | .resourceGrant dt => Sys2Proof.Machine.execResourceGrant dt s
  | .frmStart dt w => Sys2Proof.Machine.execFrmStart dt w s
  | .frmStop dt w => Sys2Proof.Machine.execFrmStop dt w s
  | .planLoad dt w slot => Sys2Proof.Machine.execPlanLoad dt w slot s
  | .planLoadDone dt => Sys2Proof.Machine.execPlanLoadDone dt s
  | .planSwitch dt w => Sys2Proof.Machine.execPlanSwitch dt w s
  | .planUnload dt w slot => Sys2Proof.Machine.execPlanUnload dt w slot s
  | .planRecheck dt slot => Sys2Proof.Machine.execPlanRecheck dt slot s
  | .tick dt => Sys2Proof.Machine.execTick dt s
  | .frameSyncEdge dt => Sys2Proof.Machine.execFrameSyncEdge dt s
  | .flywheelTick dt => Sys2Proof.Machine.execFlywheelTick dt s
  | .syncOutEnd dt => Sys2Proof.Machine.execSyncOutEnd dt s
  | .timeMark dt => Sys2Proof.Machine.execTimeMark dt s
  | .timeSample dt ctx markSeq gptp => Sys2Proof.Machine.execTimeSample dt ctx markSeq gptp s
  | .timeHoldover dt => Sys2Proof.Machine.execTimeHoldover dt s
  | .drainWindowEnd dt => Sys2Proof.Machine.execDrainWindowEnd dt s
  | .binningComplete dt => Sys2Proof.Machine.execBinningComplete dt s
  | .sepCloseLate dt => Sys2Proof.Machine.execSepCloseLate dt s
  | .thinningDone dt => Sys2Proof.Machine.execThinningDone dt s
  | .directoryCommitDone dt => Sys2Proof.Machine.execDirectoryCommitDone dt s
  | .bankTake dt => Sys2Proof.Machine.execBankTake dt s
  | .stageDispatch dt => Sys2Proof.Machine.execStageDispatch dt s
  | .stageComplete dt stage => Sys2Proof.Machine.execStageComplete dt stage s
  | .publication dt => Sys2Proof.Machine.execPublication dt s
  | .budgetExceeded dt => Sys2Proof.Machine.execBudgetExceeded dt s
  | .coreFreqChange dt => Sys2Proof.Machine.execCoreFreqChange dt s
  | .frameJobAccept dt ctx ring records => Sys2Proof.Machine.execFrameJobAccept dt ctx ring records s
  | .laneCfgWrite dt lane w v => Sys2Proof.Machine.execLaneCfgWrite dt lane w v s
  | .laneReload dt lane w v => Sys2Proof.Machine.execLaneReload dt lane w v s
  | .vgaSet dt lane w v => Sys2Proof.Machine.execVgaSet dt lane w v s
  | .ctfSet dt lane w v => Sys2Proof.Machine.execCtfSet dt lane w v s
  | .acqGainCheck dt lane rx => Sys2Proof.Machine.execAcqGainCheck dt lane rx s
  | .acquisitionEnd dt lane rx => Sys2Proof.Machine.execAcquisitionEnd dt lane rx s
  | .trackingGainStep dt lane rx => Sys2Proof.Machine.execTrackingGainStep dt lane rx s
  | .invalidWindowEnd dt lane rx => Sys2Proof.Machine.execInvalidWindowEnd dt lane rx s
  | .defectRegionEnd dt lane rx => Sys2Proof.Machine.execDefectRegionEnd dt lane rx s
  | .losEnter dt lane rx => Sys2Proof.Machine.execLosEnter dt lane rx s
  | .losClear dt lane rx => Sys2Proof.Machine.execLosClear dt lane rx s
  | .timingRange dt lane rx => Sys2Proof.Machine.execTimingRange dt lane rx s
  | .syncMarkFound dt lane rx => Sys2Proof.Machine.execSyncMarkFound dt lane rx s
  | .fragmentHeader dt lane rx => Sys2Proof.Machine.execFragmentHeader dt lane rx s
  | .syncWindowClose dt lane rx second k => Sys2Proof.Machine.execSyncWindowClose dt lane rx second k s
  | .sectorDecodeDone dt lane rx => Sys2Proof.Machine.execSectorDecodeDone dt lane rx s
  | .inGapOpen dt lane rx => Sys2Proof.Machine.execInGapOpen dt lane rx s
  | .indexFieldLocated dt lane rx instant => Sys2Proof.Machine.execIndexFieldLocated dt lane rx instant s
  | .indexMiss dt lane rx => Sys2Proof.Machine.execIndexMiss dt lane rx s
  | .retryStepStart dt engine => Sys2Proof.Machine.execRetryStepStart dt engine s
  | .retryStepDone dt engine z => Sys2Proof.Machine.execRetryStepDone dt engine z s
  | .retryDeadline dt lane seq => Sys2Proof.Machine.execRetryDeadline dt lane seq s
  | .dlSend dt lane w v => Sys2Proof.Machine.execDlSend dt lane w v s
  | .downlinkTxStart dt lane => Sys2Proof.Machine.execDownlinkTxStart dt lane s
  | .downlinkTxDone dt lane => Sys2Proof.Machine.execDownlinkTxDone dt lane s
  | .inhibitWaitExpire dt lane => Sys2Proof.Machine.execInhibitWaitExpire dt lane s
  | .pointAccept dt => Sys2Proof.Machine.execPointAccept dt s
  | .posePush dt w => Sys2Proof.Machine.execPosePush dt w s
  | .poseClear dt w => Sys2Proof.Machine.execPoseClear dt w s
  | .hrvArgmax dt => Sys2Proof.Machine.execHrvArgmax dt s
  | .hrvTopkStream dt => Sys2Proof.Machine.execHrvTopkStream dt s
  | .hrvTopkBucket dt => Sys2Proof.Machine.execHrvTopkBucket dt s
  | .hrvFpsStep dt => Sys2Proof.Machine.execHrvFpsStep dt s
  | .hrvRequestDone dt => Sys2Proof.Machine.execHrvRequestDone dt s
  | .scvSubm dt stage chunks => Sys2Proof.Machine.execScvSubm dt stage chunks s
  | .scvStrided dt stage chunks => Sys2Proof.Machine.execScvStrided dt stage chunks s
  | .scvInverse dt stage chunks => Sys2Proof.Machine.execScvInverse dt stage chunks s
  | .bevScatter dt stage => Sys2Proof.Machine.execBevScatter dt stage s
  | .tileItemStart dt tile => Sys2Proof.Machine.execTileItemStart dt tile s
  | .tileMatmul dt tile => Sys2Proof.Machine.execTileMatmul dt tile s
  | .tileDconv dt tile => Sys2Proof.Machine.execTileDconv dt tile s
  | .tileVec dt tile => Sys2Proof.Machine.execTileVec dt tile s
  | .tileReduce dt tile => Sys2Proof.Machine.execTileReduce dt tile s
  | .tileDma dt tile => Sys2Proof.Machine.execTileDma dt tile s
  | .tileGather dt tile => Sys2Proof.Machine.execTileGather dt tile s
  | .tileHrv dt tile => Sys2Proof.Machine.execTileHrv dt tile s
  | .tileFence dt tile => Sys2Proof.Machine.execTileFence dt tile s
  | .tileOpComplete dt tile unit mismatch => Sys2Proof.Machine.execTileOpComplete dt tile unit mismatch s
  | .tileGate dt tile => Sys2Proof.Machine.execTileGate dt tile s
  | .tileWake dt tile => Sys2Proof.Machine.execTileWake dt tile s
  | .tileWakeCmd dt tile w v => Sys2Proof.Machine.execTileWakeCmd dt tile w v s
  | .testWindowOpen dt => Sys2Proof.Machine.execTestWindowOpen dt s
  | .testDone dt tile pass => Sys2Proof.Machine.execTestDone dt tile pass s
  | .testReq dt w v => Sys2Proof.Machine.execTestReq dt w v s
  | .testOverdue dt tile => Sys2Proof.Machine.execTestOverdue dt tile s
  | .churnRead dt addr n => Sys2Proof.Machine.execChurnRead dt addr n s
  | .churnWrite dt addr data poison => Sys2Proof.Machine.execChurnWrite dt addr data poison s
  | .churnAdd32 dt addr mask addends poison => Sys2Proof.Machine.execChurnAdd32 dt addr mask addends poison s
  | .summaryMerge dt addr data poison => Sys2Proof.Machine.execSummaryMerge dt addr data poison s
  | .churnDequant dt addr fmt elems => Sys2Proof.Machine.execChurnDequant dt addr fmt elems s
  | .churnPool dt addrs fmt elems mode => Sys2Proof.Machine.execChurnPool dt addrs fmt elems mode s
  | .scrubLine dt chan mr4 upsets => Sys2Proof.Machine.execScrubLine dt chan mr4 upsets s
  | .shardCfgWrite dt chan w v => Sys2Proof.Machine.execShardCfgWrite dt chan w v s
  | .etuDefine dt w table => Sys2Proof.Machine.execEtuDefine dt w table s
  | .etuUndefine dt w table => Sys2Proof.Machine.execEtuUndefine dt w table s
  | .etuReplace dt w table => Sys2Proof.Machine.execEtuReplace dt w table s
  | .etuFold dt w table => Sys2Proof.Machine.execEtuFold dt w table s
  | .etuUnmigrate dt w table => Sys2Proof.Machine.execEtuUnmigrate dt w table s
  | .etuCacheFlush dt w table => Sys2Proof.Machine.execEtuCacheFlush dt w table s
  | .etuCmdDone dt upto => Sys2Proof.Machine.execEtuCmdDone dt upto s
  | .etuGather dt stage upto => Sys2Proof.Machine.execEtuGather dt stage upto s
  | .etuPool dt stage upto => Sys2Proof.Machine.execEtuPool dt stage upto s
  | .etuUpdate dt stage upto => Sys2Proof.Machine.execEtuUpdate dt stage upto s
  | .etuJobDone dt stage => Sys2Proof.Machine.execEtuJobDone dt stage s
  | .loadWindowEnd dt => Sys2Proof.Machine.execLoadWindowEnd dt s
  | .migrationMove dt => Sys2Proof.Machine.execMigrationMove dt s
  | .cacheShareWrite dt w v => Sys2Proof.Machine.execCacheShareWrite dt w v s
  | .linkTrainDone dt port => Sys2Proof.Machine.execLinkTrainDone dt port s
  | .linkAlignDone dt port => Sys2Proof.Machine.execLinkAlignDone dt port s
  | .grfExchange dt port node dir cfg seq => Sys2Proof.Machine.execGrfExchange dt port node dir cfg seq s
  | .dataFlit dt port pos levels => Sys2Proof.Machine.execDataFlit dt port pos levels s
  | .grfNak dt port seq => Sys2Proof.Machine.execGrfNak dt port seq s
  | .replayTimeout dt port => Sys2Proof.Machine.execReplayTimeout dt port s
  | .laneLockLost dt port lanes => Sys2Proof.Machine.execLaneLockLost dt port lanes s
  | .recoverTimeout dt port => Sys2Proof.Machine.execRecoverTimeout dt port s
  | .grfRead dt port => Sys2Proof.Machine.execGrfRead dt port s
  | .grfWrite dt port => Sys2Proof.Machine.execGrfWrite dt port s
  | .grfAdd32 dt port => Sys2Proof.Machine.execGrfAdd32 dt port s
  | .grfGather dt port => Sys2Proof.Machine.execGrfGather dt port s
  | .grfTadd dt port => Sys2Proof.Machine.execGrfTadd dt port s
  | .grfMessage dt port => Sys2Proof.Machine.execGrfMessage dt port s
  | .grfBarrierArrive dt port => Sys2Proof.Machine.execGrfBarrierArrive dt port s
  | .grfBarrierRelease dt port => Sys2Proof.Machine.execGrfBarrierRelease dt port s
  | .grfRspData dt port => Sys2Proof.Machine.execGrfRspData dt port s
  | .grfRspAck dt port => Sys2Proof.Machine.execGrfRspAck dt port s
  | .transitForward dt port => Sys2Proof.Machine.execTransitForward dt port s
  | .remoteRequest dt who kind addr n mask data => Sys2Proof.Machine.execRemoteRequest dt who kind addr n mask data s
  | .remoteTimeout dt => Sys2Proof.Machine.execRemoteTimeout dt s
  | .lostSet dt w node => Sys2Proof.Machine.execLostSet dt w node s
  | .lostClear dt w node => Sys2Proof.Machine.execLostClear dt w node s
  | .lostQuery dt w node => Sys2Proof.Machine.execLostQuery dt w node s
  | .barArrive dt w bar => Sys2Proof.Machine.execBarArrive dt w bar s
  | .barCfgWrite dt w bar v => Sys2Proof.Machine.execBarCfgWrite dt w bar v s
  | .barrierTimeout dt bar => Sys2Proof.Machine.execBarrierTimeout dt bar s
  | .nodeCfgWrite dt w v => Sys2Proof.Machine.execNodeCfgWrite dt w v s
  | .ringTailWrite dt fn ctx ring writes tail => Sys2Proof.Machine.execRingTailWrite dt fn ctx ring writes tail s
  | .ringEntryConsume dt => Sys2Proof.Machine.execRingEntryConsume dt s
  | .jobNop dt ctx ring => Sys2Proof.Machine.execJobNop dt ctx ring s
  | .jobCopyIn dt ctx ring host => Sys2Proof.Machine.execJobCopyIn dt ctx ring host s
  | .jobCopyOut dt ctx ring => Sys2Proof.Machine.execJobCopyOut dt ctx ring s
  | .copyComplete dt ctx ring => Sys2Proof.Machine.execCopyComplete dt ctx ring s
  | .jobFrame dt ctx ring => Sys2Proof.Machine.execJobFrame dt ctx ring s
  | .jobWaitFrame dt ctx ring => Sys2Proof.Machine.execJobWaitFrame dt ctx ring s
  | .jobRegWrite dt ctx ring => Sys2Proof.Machine.execJobRegWrite dt ctx ring s
  | .jobRegRead dt ctx ring => Sys2Proof.Machine.execJobRegRead dt ctx ring s
  | .jobDownlink dt ctx ring => Sys2Proof.Machine.execJobDownlink dt ctx ring s
  | .jobBarrier dt ctx ring => Sys2Proof.Machine.execJobBarrier dt ctx ring s
  | .ctxReset dt fn ctx => Sys2Proof.Machine.execCtxReset dt fn ctx s
  | .vfFlr dt fn => Sys2Proof.Machine.execVfFlr dt fn s
  | .pfFlr dt down => Sys2Proof.Machine.execPfFlr dt down s
  | .perst dt => Sys2Proof.Machine.execPerst dt s
  | .hostAccessFail dt ctx ring k => Sys2Proof.Machine.execHostAccessFail dt ctx ring k s
  | .poisonedTlp dt ecrc => Sys2Proof.Machine.execPoisonedTlp dt ecrc s
  | .funcCtxWrite dt w fn v => Sys2Proof.Machine.execFuncCtxWrite dt w fn v s
  | .msixUnmask dt fn vec => Sys2Proof.Machine.execMsixUnmask dt fn vec s
  | .l1Entry dt => Sys2Proof.Machine.execL1Entry dt s
  | .hostConfigReady dt speed width cfg => Sys2Proof.Machine.execHostConfigReady dt speed width cfg s
  | .privatePost dt fn ctx slot off bytes => Sys2Proof.Machine.execPrivatePost dt fn ctx slot off bytes s
  | .privateSlotFree dt fn ctx slot => Sys2Proof.Machine.execPrivateSlotFree dt fn ctx slot s
  | .privateTake dt => Sys2Proof.Machine.execPrivateTake dt s
  | .hostNote dt => Sys2Proof.Machine.execHostNote dt s
  | .privPolicyWrite dt w k v => Sys2Proof.Machine.execPrivPolicyWrite dt w k v s
  | .mailboxSend dt who mailbox off bytes => Sys2Proof.Machine.execMailboxSend dt who mailbox off bytes s
  | .sendCmdRst dt w mailbox => Sys2Proof.Machine.execSendCmdRst dt w mailbox s
  | .sendCmdPf dt w mailbox => Sys2Proof.Machine.execSendCmdPf dt w mailbox s
  | .mbTake dt w mailbox v => Sys2Proof.Machine.execMbTake dt w mailbox v s
  | .dbRing dt w receiver v => Sys2Proof.Machine.execDbRing dt w receiver v s
  | .dbPendClear dt w receiver v => Sys2Proof.Machine.execDbPendClear dt w receiver v s
  | .dbMaskWrite dt w receiver v => Sys2Proof.Machine.execDbMaskWrite dt w receiver v s
  | .mbxCfgWrite dt w off v => Sys2Proof.Machine.execMbxCfgWrite dt w off v s
  | .rootstockReset dt flash rom digA digB => Sys2Proof.Machine.execRootstockReset dt flash rom digA digB s
  | .rootstockReady dt bootWord => Sys2Proof.Machine.execRootstockReady dt bootWord s
  | .rstResetReq dt w key req => Sys2Proof.Machine.execRstResetReq dt w key req s
  | .rstWatchdog dt flash rom digA digB => Sys2Proof.Machine.execRstWatchdog dt flash rom digA digB s
  | .lockstepMismatch dt => Sys2Proof.Machine.execLockstepMismatch dt s
  | .sramUe dt => Sys2Proof.Machine.execSramUe dt s
  | .thermalScan dt temps mv => Sys2Proof.Machine.execThermalScan dt temps mv s
  | .clockMonitorFault dt domain => Sys2Proof.Machine.execClockMonitorFault dt domain s
  | .voltageWindowFault dt rail mv => Sys2Proof.Machine.execVoltageWindowFault dt rail mv s
  | .shockSample dt res x y z => Sys2Proof.Machine.execShockSample dt res x y z s
  | .coolantSample dt reading => Sys2Proof.Machine.execCoolantSample dt reading s
  | .logEntry dt => Sys2Proof.Machine.execLogEntry dt s
  | .bbWrite dt ok => Sys2Proof.Machine.execBbWrite dt ok s
  | .logFetch dt w => Sys2Proof.Machine.execLogFetch dt w s
  | .logFetchDone dt raw => Sys2Proof.Machine.execLogFetchDone dt raw s
  | .updStage dt w key words => Sys2Proof.Machine.execUpdStage dt w key words s
  | .updStageDone dt flashOk => Sys2Proof.Machine.execUpdStageDone dt flashOk s
  | .updActivate dt w key words => Sys2Proof.Machine.execUpdActivate dt w key words s
  | .updConfirm dt w key words => Sys2Proof.Machine.execUpdConfirm dt w key words s
  | .updRevert dt w key words => Sys2Proof.Machine.execUpdRevert dt w key words s
  | .updAbort dt w key => Sys2Proof.Machine.execUpdAbort dt w key s
  | .updRevoke dt w key words => Sys2Proof.Machine.execUpdRevoke dt w key words s
  | .overrideSet dt w key => Sys2Proof.Machine.execOverrideSet dt w key s
  | .overrideClear dt w key => Sys2Proof.Machine.execOverrideClear dt w key s
  | .dbgChallenge dt nonce => Sys2Proof.Machine.execDbgChallenge dt nonce s
  | .dbgResponse dt response => Sys2Proof.Machine.execDbgResponse dt response s
  | .dbgReg dt addr write v => Sys2Proof.Machine.execDbgReg dt addr write v s
  | .dbgClose dt => Sys2Proof.Machine.execDbgClose dt s
  | .tapReset dt => Sys2Proof.Machine.execTapReset dt s
  | .debugLeaseExpire dt => Sys2Proof.Machine.execDebugLeaseExpire dt s
  | .debugLockoutEnd dt => Sys2Proof.Machine.execDebugLockoutEnd dt s
  | .dbgCfgWrite dt w v => Sys2Proof.Machine.execDbgCfgWrite dt w v s
  | .dmiHalt dt => Sys2Proof.Machine.execDmiHalt dt s
  | .jtagExtest dt => Sys2Proof.Machine.execJtagExtest dt s
  | .jtagClamp dt => Sys2Proof.Machine.execJtagClamp dt s
  | .jtagHighz dt => Sys2Proof.Machine.execJtagHighz dt s
  | .persistWrite dt page word lo hi => Sys2Proof.Machine.execPersistWrite dt page word lo hi s
  | .persistCommitDone dt ok => Sys2Proof.Machine.execPersistCommitDone dt ok s
  | .brownOut dt => Sys2Proof.Machine.execBrownOut dt s
  | .brownOutEnd dt => Sys2Proof.Machine.execBrownOutEnd dt s
  | .wearSelWrite dt w v => Sys2Proof.Machine.execWearSelWrite dt w v s
  | .lifetimeCommit dt => Sys2Proof.Machine.execLifetimeCommit dt s
  | .pwrReqRun dt w => Sys2Proof.Machine.execPwrReqRun dt w s
  | .pwrReqTrim dt w => Sys2Proof.Machine.execPwrReqTrim dt w s
  | .pwrReqSentry dt w => Sys2Proof.Machine.execPwrReqSentry dt w s
  | .pwrReqParked dt w => Sys2Proof.Machine.execPwrReqParked dt w s
  | .lowPowerEntryDone dt => Sys2Proof.Machine.execLowPowerEntryDone dt s
  | .wakeIn dt => Sys2Proof.Machine.execWakeIn dt s
  | .wakeTimer dt => Sys2Proof.Machine.execWakeTimer dt s
  | .wakeDone dt failed => Sys2Proof.Machine.execWakeDone dt failed s
  | .wakeCauseClear dt w v => Sys2Proof.Machine.execWakeCauseClear dt w v s
  | .sentryWindow dt => Sys2Proof.Machine.execSentryWindow dt s
  | .sentryListenEnd dt => Sys2Proof.Machine.execSentryListenEnd dt s
  | .sentryProgramDone dt => Sys2Proof.Machine.execSentryProgramDone dt s
  | .sentryProgramOverrun dt => Sys2Proof.Machine.execSentryProgramOverrun dt s
  | .hwThermalTrip dt sensor t => Sys2Proof.Machine.execHwThermalTrip dt sensor t s
  | .ageHour dt slack held => Sys2Proof.Machine.execAgeHour dt slack held s
  | .vddLow dt mv => Sys2Proof.Machine.execVddLow dt mv s
  | .safEnter dt w key => Sys2Proof.Machine.execSafEnter dt w key s
  | .safRelease dt w key => Sys2Proof.Machine.execSafRelease dt w key s
  | .safeStateRelease dt => Sys2Proof.Machine.execSafeStateRelease dt s
  | .frameWatchdog dt => Sys2Proof.Machine.execFrameWatchdog dt s
  | .e2eCheckDone dt => Sys2Proof.Machine.execE2eCheckDone dt s
  | .redundDecision dt pair seq => Sys2Proof.Machine.execRedundDecision dt pair seq s
  | .regParityError dt page off => Sys2Proof.Machine.execRegParityError dt page off s
  | .parityScan dt page => Sys2Proof.Machine.execParityScan dt page s
  | .injArm dt w target inst => Sys2Proof.Machine.execInjArm dt w target inst s
  | .injectionApply dt => Sys2Proof.Machine.execInjectionApply dt s
  | .safSelfFault dt => Sys2Proof.Machine.execSafSelfFault dt s
  | .powerOnReset dt cause fuseOk form flash rom digA digB dram => Sys2Proof.Machine.execPowerOnReset dt cause fuseOk form flash rom digA digB dram s
  | .deviceResetRequest dt w key device => Sys2Proof.Machine.execDeviceResetRequest dt w key device s
  | .deviceReset dt fuseOk flash rom digA digB => Sys2Proof.Machine.execDeviceReset dt fuseOk flash rom digA digB s
  | .startupTileTestDone dt failed => Sys2Proof.Machine.execStartupTileTestDone dt failed s
  | .dramTrainingDone dt failed rates => Sys2Proof.Machine.execDramTrainingDone dt failed rates s
  | .startupChecks dt => Sys2Proof.Machine.execStartupChecks dt s
  | .gpioFuncWrite dt w high v => Sys2Proof.Machine.execGpioFuncWrite dt w high v s
  | .clockInWindow dt => Sys2Proof.Machine.execClockInWindow dt s
  | .railsInWindow dt => Sys2Proof.Machine.execRailsInWindow dt s
  | .rootstockAsleep dt => Sys2Proof.Machine.execRootstockAsleep dt s
  | .vfEnableWrite dt enable n => Sys2Proof.Machine.execVfEnableWrite dt enable n s
  | .bar4Write dt offset bytes => Sys2Proof.Machine.execBar4Write dt offset bytes s
  | .jtagOtherInstruction dt ir => Sys2Proof.Machine.execJtagOtherInstruction dt ir s

end Sys2Proof.Machine
end

