-- ==== Sys2Proof/WellFormed.lean ====
section
/-! DEFINITION. The operand bounds of each command: the widths and ranges that the rules give the values it names. A command outside
them is one that no part of the device can send. -/

namespace Sys2Proof

/-- The writer IDs of Table 2-4 that write. -/
def writerOk (w : Nat) : Bool := w == 0x01 || w == 0x02 || (Nat.ble 0x40 w && Nat.ble w 0x7F)

/-- A BAR 0 access is of 1, 2, 4 or 8 bytes inside BAR 0 (R51, R52). -/
def sizeOk (size addr : Nat) : Bool := [1, 2, 4, 8].contains size && Nat.ble (addr + size) 0x1000000

/-- An equalizer input is an 8-bit signed value. -/
def zOk (z : Int) : Bool := decide (-128 ≤ z) && decide (z ≤ 127)

/-- A sample is 6-bit two's complement (Table 4-4). -/
def sampleOk (p : Sample) : Bool := decide (-32 ≤ p.x) && decide (p.x ≤ 31) && zOk p.z

/-- A line symbol of two pairs. -/
def rxOk (r : RxSym) : Bool := sampleOk r.own && sampleOk r.other

/-- A BAR 2 write of one TLP of at most 64 bytes inside the function's BAR 2 (R561, R570, R571). -/
def barOk (fn : Nat) (x : BarWrite) : Bool :=
  Nat.ble 1 x.bytes.length && Nat.ble x.bytes.length 64 && Nat.ble (x.off + x.bytes.length) (if fn = 0 then 0x1000000 else 0x100000)

/-- Settings that Table 13-1 supports. -/
def pcieOk (c : PcieCfg) : Bool :=
  [128, 256, 512].contains c.mps && [128, 256, 512, 1024, 2048, 4096].contains c.mrrs && c.asleep.all (fun f => Nat.blt f 64)

/-- The operands of a command lie in the bounds of its rule. [DESIGN CHOICE: notes/assumptions/1.md] -/
def Instr.wf : Instr → Bool
  | .registerWrite _ addr size writes upper => (addr < 0x1000000) && sizeOk size addr && writes.all (fun x => writerOk x.writer) && upper.all (fun x => writerOk x.writer) && (size == 8 || upper.isEmpty)
  | .counterWrite _ page off w _ => (page < 0x400) && writerOk w && (off % 4 = 0 && off < 0x1000)
  | .pageEnable _ page w _ => (page < 0x400) && writerOk w
  | .softReset _ page w => (page < 0x400) && writerOk w
  | .softResetDone _ page => (page < 0x400)
  | .freeze _ page w _ => (page < 0x400) && writerOk w
  | .freezeSafePoint _ page => (page < 0x400)
  | .drainComplete _ page => (page < 0x400)
  | .eventPendClear _ page w _ => (page < 0x400) && writerOk w
  | .errCodeClear _ page w _ => (page < 0x400) && writerOk w
  | .lockAcquire _ page w => (page < 0x400) && writerOk w
  | .lockRelease _ page w => (page < 0x400) && writerOk w
  | .lockRecovered _ page w => (page < 0x400) && writerOk w
  | .lockBreak _ page w => (page < 0x400) && writerOk w
  | .lockAbandon _ page => (page < 0x400)
  | .resourceGrant _ => true
  | .frmStart _ w => writerOk w
  | .frmStop _ w => writerOk w
  | .planLoad _ w slot => writerOk w && (slot < 2)
  | .planLoadDone _ => true
  | .planSwitch _ w => writerOk w
  | .planUnload _ w slot => writerOk w && (slot < 2)
  | .planRecheck _ slot => (slot < 2)
  | .tick _ => true
  | .frameSyncEdge _ => true
  | .flywheelTick _ => true
  | .syncOutEnd _ => true
  | .timeMark _ => true
  | .timeSample _ ctx markSeq gptp => (ctx < 4096) && (markSeq < 2 ^ 32) && (gptp < 2 ^ 64)
  | .timeHoldover _ => true
  | .drainWindowEnd _ => true
  | .binningComplete _ => true
  | .sepCloseLate _ => true
  | .thinningDone _ => true
  | .directoryCommitDone _ => true
  | .bankTake _ => true
  | .stageDispatch _ => true
  | .stageComplete _ stage => (stage < 1024)
  | .publication _ => true
  | .budgetExceeded _ => true
  | .coreFreqChange _ => true
  | .frameJobAccept _ ctx ring _ => (ctx < 4096) && (ring < 2)
  | .laneCfgWrite _ lane w _ => (lane < 8) && writerOk w
  | .laneReload _ lane w _ => (lane < 8) && writerOk w
  | .vgaSet _ lane w _ => (lane < 8) && writerOk w
  | .ctfSet _ lane w _ => (lane < 8) && writerOk w
  | .acqGainCheck _ lane rx => (lane < 8) && rx.all rxOk
  | .acquisitionEnd _ lane rx => (lane < 8) && rx.all rxOk
  | .trackingGainStep _ lane rx => (lane < 8) && rx.all rxOk
  | .invalidWindowEnd _ lane rx => (lane < 8) && rx.all rxOk
  | .defectRegionEnd _ lane rx => (lane < 8) && rx.all rxOk
  | .losEnter _ lane rx => (lane < 8) && rx.all rxOk
  | .losClear _ lane rx => (lane < 8) && rx.all rxOk
  | .timingRange _ lane rx => (lane < 8) && rx.all rxOk
  | .syncMarkFound _ lane rx => (lane < 8) && rx.all rxOk
  | .fragmentHeader _ lane rx => (lane < 8) && rx.all rxOk
  | .syncWindowClose _ lane rx _ k => (lane < 8) && rx.all rxOk && (k < 96)
  | .sectorDecodeDone _ lane rx => (lane < 8) && rx.all rxOk
  | .inGapOpen _ lane rx => (lane < 8) && rx.all rxOk
  | .indexFieldLocated _ lane rx instant => (lane < 8) && rx.all rxOk && (instant < 2 ^ 64)
  | .indexMiss _ lane rx => (lane < 8) && rx.all rxOk
  | .retryStepStart _ engine => (engine < 2)
  | .retryStepDone _ engine z => (engine < 2) && z.all (fun l => l.all zOk)
  | .retryDeadline _ lane _ => (lane < 8)
  | .dlSend _ lane w _ => (lane < 8) && writerOk w
  | .downlinkTxStart _ lane => (lane < 8)
  | .downlinkTxDone _ lane => (lane < 8)
  | .inhibitWaitExpire _ lane => (lane < 8)
  | .pointAccept _ => true
  | .posePush _ w => writerOk w
  | .poseClear _ w => writerOk w
  | .hrvArgmax _ => true
  | .hrvTopkStream _ => true
  | .hrvTopkBucket _ => true
  | .hrvFpsStep _ => true
  | .hrvRequestDone _ => true
  | .scvSubm _ stage _ => (stage < 1024)
  | .scvStrided _ stage _ => (stage < 1024)
  | .scvInverse _ stage _ => (stage < 1024)
  | .bevScatter _ stage => (stage < 1024)
  | .tileItemStart _ tile => (tile < 64)
  | .tileMatmul _ tile => (tile < 64)
  | .tileDconv _ tile => (tile < 64)
  | .tileVec _ tile => (tile < 64)
  | .tileReduce _ tile => (tile < 64)
  | .tileDma _ tile => (tile < 64)
  | .tileGather _ tile => (tile < 64)
  | .tileHrv _ tile => (tile < 64)
  | .tileFence _ tile => (tile < 64)
  | .tileOpComplete _ tile unit _ => (tile < 64) && (unit < 16)
  | .tileGate _ tile => (tile < 64)
  | .tileWake _ tile => (tile < 64)
  | .tileWakeCmd _ tile w _ => (tile < 64) && writerOk w
  | .testWindowOpen _ => true
  | .testDone _ tile _ => (tile < 64)
  | .testReq _ w _ => writerOk w
  | .testOverdue _ tile => (tile < 64)
  | .churnRead _ addr n => (addr < 2 ^ 48) && (0 < n && addr % 64 + n ≤ 64)
  | .churnWrite _ addr data _ => (addr < 2 ^ 48) && (0 < data.length && addr % 64 + data.length ≤ 64)
  | .churnAdd32 _ addr mask addends _ => (addr < 2 ^ 48 && addr % 64 = 0) && (mask < 65536) && (addends.length ≤ 16)
  | .summaryMerge _ addr data _ => (addr < 2 ^ 48 && addr % 32 = 0) && (data.length = 32)
  | .churnDequant _ addr _ _ => (addr < 2 ^ 48)
  | .churnPool _ addrs _ _ mode => (addrs.all (· < 2 ^ 48)) && (mode < 4)
  | .scrubLine _ chan mr4 upsets => (chan < 8) && (mr4 < 16) && upsets.all (fun x => x.unit < 2 ^ 30)
  | .shardCfgWrite _ chan w _ => (chan < 8) && writerOk w
  | .etuDefine _ w table => writerOk w && (table < 256)
  | .etuUndefine _ w table => writerOk w && (table < 256)
  | .etuReplace _ w table => writerOk w && (table < 256)
  | .etuFold _ w table => writerOk w && (table < 256)
  | .etuUnmigrate _ w table => writerOk w && (table < 256)
  | .etuCacheFlush _ w table => writerOk w && (table < 256)
  | .etuCmdDone _ _ => true
  | .etuGather _ stage _ => (stage < 1024)
  | .etuPool _ stage _ => (stage < 1024)
  | .etuUpdate _ stage _ => (stage < 1024)
  | .etuJobDone _ stage => (stage < 1024)
  | .loadWindowEnd _ => true
  | .migrationMove _ => true
  | .cacheShareWrite _ w _ => writerOk w
  | .linkTrainDone _ port => (port < 8)
  | .linkAlignDone _ port => (port < 8)
  | .grfExchange _ port node dir _ seq => (port < 8) && (node < 32768) && (dir < 6) && (seq < 4096)
  | .dataFlit _ port pos levels => (port < 8) && (pos < 1024) && (levels.length = 340) && levels.all (fun l => decide (l < 4))
  | .grfNak _ port _ => (port < 8)
  | .replayTimeout _ port => (port < 8)
  | .laneLockLost _ port lanes => (port < 8) && (lanes < 16)
  | .recoverTimeout _ port => (port < 8)
  | .grfRead _ port => (port < 8)
  | .grfWrite _ port => (port < 8)
  | .grfAdd32 _ port => (port < 8)
  | .grfGather _ port => (port < 8)
  | .grfTadd _ port => (port < 8)
  | .grfMessage _ port => (port < 8)
  | .grfBarrierArrive _ port => (port < 8)
  | .grfBarrierRelease _ port => (port < 8)
  | .grfRspData _ port => (port < 8)
  | .grfRspAck _ port => (port < 8)
  | .transitForward _ port => (port < 8)
  | .remoteRequest _ _ _ _ _ _ _ => true
  | .remoteTimeout _ => true
  | .lostSet _ w node => writerOk w && (node < 32768)
  | .lostClear _ w node => writerOk w && (node < 32768)
  | .lostQuery _ w node => writerOk w && (node < 32768)
  | .barArrive _ w bar => writerOk w && (bar < 16)
  | .barCfgWrite _ w bar _ => writerOk w && (bar < 16)
  | .barrierTimeout _ bar => (bar < 16)
  | .nodeCfgWrite _ w _ => writerOk w
  | .ringTailWrite _ fn ctx ring writes tail => (fn < 64) && (ctx < 4096) && (ring < 2) && (tail < 65536) && writes.all (barOk fn)
  | .ringEntryConsume _ => true
  | .jobNop _ ctx ring => (ctx < 4096) && (ring < 2)
  | .jobCopyIn _ ctx ring _ => (ctx < 4096) && (ring < 2)
  | .jobCopyOut _ ctx ring => (ctx < 4096) && (ring < 2)
  | .copyComplete _ ctx ring => (ctx < 4096) && (ring < 2)
  | .jobFrame _ ctx ring => (ctx < 4096) && (ring < 2)
  | .jobWaitFrame _ ctx ring => (ctx < 4096) && (ring < 2)
  | .jobRegWrite _ ctx ring => (ctx < 4096) && (ring < 2)
  | .jobRegRead _ ctx ring => (ctx < 4096) && (ring < 2)
  | .jobDownlink _ ctx ring => (ctx < 4096) && (ring < 2)
  | .jobBarrier _ ctx ring => (ctx < 4096) && (ring < 2)
  | .ctxReset _ fn ctx => (fn < 64) && (ctx < 4096)
  | .vfFlr _ fn => (fn < 64)
  | .pfFlr _ _ => true
  | .perst _ => true
  | .hostAccessFail _ ctx ring _ => (ctx < 4096) && (ring < 2)
  | .poisonedTlp _ _ => true
  | .funcCtxWrite _ w fn _ => writerOk w && (fn < 64)
  | .msixUnmask _ fn vec => (fn < 64) && (vec < 32)
  | .l1Entry _ => true
  | .hostConfigReady _ speed width cfg => ([1, 2, 3, 4].contains speed) && ([1, 2, 4, 8].contains width) && pcieOk cfg
  | .privatePost _ fn ctx slot off bytes => (fn < 64) && (ctx < 4096) && (slot < 8) && (off + bytes.length ≤ 64)
  | .privateSlotFree _ fn ctx slot => (fn < 64) && (ctx < 4096) && (slot < 8)
  | .privateTake _ => true
  | .hostNote _ => true
  | .privPolicyWrite _ w k _ => writerOk w && (k < 128)
  | .mailboxSend _ _ mailbox off bytes => (mailbox < 256) && (off + bytes.length ≤ 64)
  | .sendCmdRst _ w mailbox => writerOk w && (mailbox < 256)
  | .sendCmdPf _ w mailbox => writerOk w && (mailbox < 256)
  | .mbTake _ w mailbox _ => writerOk w && (mailbox < 256)
  | .dbRing _ w receiver _ => writerOk w && (receiver ≤ 128)
  | .dbPendClear _ w receiver _ => writerOk w && (receiver ≤ 128)
  | .dbMaskWrite _ w receiver _ => writerOk w && (receiver ≤ 128)
  | .mbxCfgWrite _ w off _ => writerOk w && (off = 0x40 || off = 0x44 || off = 0x48)
  | .rootstockReset _ _ _ _ _ => true
  | .rootstockReady _ _ => true
  | .rstResetReq _ w key req => writerOk w && (key < 0x10000) && (req < 2)
  | .rstWatchdog _ _ _ _ _ => true
  | .lockstepMismatch _ => true
  | .sramUe _ => true
  | .thermalScan _ temps mv => (temps.length = 32) && (mv.length = 12)
  | .clockMonitorFault _ domain => (domain < 3)
  | .voltageWindowFault _ rail _ => (rail < 12)
  | .shockSample _ res _ _ _ => (res < 3)
  | .coolantSample _ _ => true
  | .logEntry _ => true
  | .bbWrite _ _ => true
  | .logFetch _ w => writerOk w
  | .logFetchDone _ _ => true
  | .updStage _ w key _ => writerOk w && (key < 4)
  | .updStageDone _ _ => true
  | .updActivate _ w key _ => writerOk w && (key < 4)
  | .updConfirm _ w key _ => writerOk w && (key < 4)
  | .updRevert _ w key _ => writerOk w && (key < 4)
  | .updAbort _ w key => writerOk w && (key < 4)
  | .updRevoke _ w key _ => writerOk w && (key < 4)
  | .overrideSet _ w key => writerOk w && (key < 0x10000)
  | .overrideClear _ w key => writerOk w && (key < 0x10000)
  | .dbgChallenge _ nonce => (nonce < 2 ^ 256)
  | .dbgResponse _ response => (response.length = 200)
  | .dbgReg _ addr _ _ => (addr < 0x1000000)
  | .dbgClose _ => true
  | .tapReset _ => true
  | .debugLeaseExpire _ => true
  | .debugLockoutEnd _ => true
  | .dbgCfgWrite _ w _ => writerOk w
  | .dmiHalt _ => true
  | .jtagExtest _ => true
  | .jtagClamp _ => true
  | .jtagHighz _ => true
  | .persistWrite _ page word lo hi => (page < 0x400) && (word < 504) && lo.all (fun x => writerOk x.writer) && hi.all (fun x => writerOk x.writer)
  | .persistCommitDone _ _ => true
  | .brownOut _ => true
  | .brownOutEnd _ => true
  | .wearSelWrite _ w _ => writerOk w
  | .lifetimeCommit _ => true
  | .pwrReqRun _ w => writerOk w
  | .pwrReqTrim _ w => writerOk w
  | .pwrReqSentry _ w => writerOk w
  | .pwrReqParked _ w => writerOk w
  | .lowPowerEntryDone _ => true
  | .wakeIn _ => true
  | .wakeTimer _ => true
  | .wakeDone _ failed => (failed.all (· < 8))
  | .wakeCauseClear _ w _ => writerOk w
  | .sentryWindow _ => true
  | .sentryListenEnd _ => true
  | .sentryProgramDone _ => true
  | .sentryProgramOverrun _ => true
  | .hwThermalTrip _ sensor _ => (sensor < 32)
  | .ageHour _ _ _ => true
  | .vddLow _ _ => true
  | .safEnter _ w key => writerOk w && (key < 0x10000)
  | .safRelease _ w key => writerOk w && (key < 0x10000)
  | .safeStateRelease _ => true
  | .frameWatchdog _ => true
  | .e2eCheckDone _ => true
  | .redundDecision _ pair _ => (pair < 4)
  | .regParityError _ page off => (page < 0x400) && (off % 4 = 0 && off < 0x1000)
  | .parityScan _ page => (page < 0x400)
  | .injArm _ w target inst => writerOk w && (target < 256) && (inst < 64)
  | .injectionApply _ => true
  | .safSelfFault _ => true
  | .powerOnReset _ cause _ form _ _ _ _ dram => (cause < 3) && (form < 3) && (dram.size < 3) && (dram.ranks < 2)
  | .deviceResetRequest _ w key device => writerOk w && (key < 0x10000) && (device < 2)
  | .deviceReset _ _ _ _ _ _ => true
  | .startupTileTestDone _ failed => (failed.all (· < 64))
  | .dramTrainingDone _ failed rates => (failed.all (· < 8)) && (rates.length ≤ 8) && (rates.all (· < 4))
  | .startupChecks _ => true
  | .gpioFuncWrite _ w _ _ => writerOk w
  | .clockInWindow _ => true
  | .railsInWindow _ => true
  | .rootstockAsleep _ => true
  | .vfEnableWrite _ _ n => (n < 64)
  | .bar4Write _ offset bytes => (offset + bytes.length ≤ 0x8000000)
  | .jtagOtherInstruction _ ir => (ir < 64) && (ir != 0) && (ir != 3) && (ir != 4)

end Sys2Proof
end

