-- ==== Sys2Proof/Safety.lean ====
section
/-! DEFINITION. What holds of every state that a run can reach, in the terms that statements use: the stored contents keep
their one canonical form, and every command that waits is well formed. -/

namespace Sys2Proof.Machine

/-- The register file and the page headers list only what differs from reset, at rising keys. -/
def State.regsCanon (s : State) : Bool := Sparse.wf resetCell s.regs && Sparse.wf hdrDefault s.hdr

/-- Every memory lists its bytes and its POISON marks at rising keys, and none that an unlisted place reads as. -/
def MemState.canon (m : MemState) : Bool :=
  Sparse.wf byte0 m.dram && Sparse.wf noMark m.dramPoison
    && Sparse.wf (cellarByte0 m.cellarLoss) m.cellar && Sparse.wf noMark m.cellarPoison
    && Sparse.wf byte0 m.result && Sparse.wf noMark m.resultPoison

/-- The persistent store lists only the cells that differ from what the part leaves the factory with, at rising keys. -/
def Psv.canon (p : Psv) : Bool := Sparse.wf cellDefault p.cells

/-- The canonical form of all that is stored: equal contents are equal data. -/
def State.canon (s : State) : Bool := s.regsCanon && s.mem.canon && s.psv.canon

/-- Every command that waits is well formed. -/
def State.queueWf (s : State) : Bool := s.pending.all Instr.wf

/-! ## Register writes that no rule discards -/

/-- No state of the page and no undefined encoding discards a write of `v` by `w` (R57, R58, R73, R111, R790, R810). -/
def State.admits (s : State) (p off w : Nat) (v : Word) : Bool := (s.portCheck p off w).isNone && (s.encodingBad p off v).isNone

/-- The same for RWS fields (R67, R68). -/
def State.admitsRws (s : State) (p off w : Nat) (v : Word) : Bool := s.admits p off w v && !s.rwsRefused p off w

/-- The same for RWL fields (R90, R91). -/
def State.admitsRwl (s : State) (p off w : Nat) (v : Word) : Bool := s.admits p off w v && lockAdmits (s.page p) w

/-! ## What a command leaves alone -/

/-- Every register but those with the keys `ks` reads as before. -/
def State.SameRegs (s t : State) (ks : List Nat) : Prop := ∀ k, k ∉ ks → t.cell k = s.cell k

/-- Every page header but those of the pages `ps` is as before. -/
def State.SamePages (s t : State) (ps : List Nat) : Prop := ∀ p, p ∉ ps → t.page p = s.page p

/-- Every byte of memory reads as before. -/
def State.SameBytes (s t : State) : Prop := ∀ d, t.peekByte d = s.peekByte d

end Sys2Proof.Machine
end

