-- ==== Sys2Proof/Certificates/Slice0/Obligations.lean ====
section
/-! DEFINITION. The statements about the model. In a statement about a command, `s` is any state, `dt` the time since the command
before it, and `s.arrive dt` (`s.arriveBy dt w` for a register write by `w`) the state at its arrival. -/

open Sys2Proof Sys2Proof.Machine

/-- A step runs the command at the front of the queue on the state with the rest of the queue. Rests on 95_what_each_step_holds, 00_scope. -/
def Obligations.StepRunsFrontCommand : Prop :=
  (∀ (s : State) (c : Instr) (rest : List Instr), s.pending = c :: rest → step s = exec c { s with pending := rest }) ∧
  (∀ s : State, s.pending = [] → step s = .next s)

/-- REGISTER_WRITE, COUNTER_WRITE: a lone aligned write reaches its register, whose fields take it by their access types. Rests on R51, R65, R98, R161. -/
def Obligations.SingleWriteReachesRegister : Prop :=
  ∀ (s : State) (dt p off w : Nat) (v u : Word), off < 0x1000 →
    let b := s.arriveBy dt w
    (off % 4 = 0 → exec (.registerWrite dt (p * 0x1000 + off) 4 [⟨w, v⟩] []) s = .next (b.regWrite p off w v)) ∧
    (off % 8 = 0 → exec (.registerWrite dt (p * 0x1000 + off) 8 [⟨w, v⟩] [⟨w, u⟩]) s
      = .next ((b.regWrite p off w v).regWrite p (off + 4) w u)) ∧
    (hasAcc p off .clr = true → exec (.counterWrite dt p off w v) s = .next (b.regWrite p off w v)) ∧
    (p ∈ [0x040, 0x050, 0x060, 0x061] → 0x40 ≤ off → b.admits p off w v = true → hasAcc p off .rws = false →
      b.lockedOut p off w = false → regFields p off ≠ [] →
        b.regWrite p off w v = (b.setCell (p * 0x1000 + off)
          ((regFields p off).foldl (fun x f => f.take x v) (b.cell (p * 0x1000 + off)))).wrote p w ∧
        (∀ f, regFields p off = [f] → f.acc = .clr → f.lo ≤ f.hi → f.hi < 32 →
          getBits ((b.regWrite p off w v).cell (p * 0x1000 + off)) f.hi f.lo = 0))

/-- A field takes a write by its access type, and no field reaches the bits of another. Rests on R65, R161. -/
def Obligations.FieldAccessTypes : Prop :=
  ∀ (f : FieldDef) (old v : Word), f.lo ≤ f.hi → f.hi < 32 →
    (∀ i, i < f.lo ∨ f.hi < i → (f.take old v).getLsbD i = old.getLsbD i) ∧
    (∀ i, f.lo ≤ i → i ≤ f.hi →
      (f.acc = .rw ∨ f.acc = .rwl ∨ f.acc = .rws → (f.take old v).getLsbD i = v.getLsbD i) ∧
      (f.acc = .rw1c → (f.take old v).getLsbD i = (old.getLsbD i && !v.getLsbD i)) ∧
      (f.acc = .rw1s → (f.take old v).getLsbD i = (old.getLsbD i || v.getLsbD i)) ∧
      (f.acc = .clr → (f.take old v).getLsbD i = false) ∧
      (f.acc = .ro → (f.take old v).getLsbD i = old.getLsbD i))

/-- Register writes that a rule discards leave the registers as they are, counted or recorded as the rule says. Rests on R52, R57, R58, R67, R68, R73, R112. -/
def Obligations.WritesDiscarded : Prop :=
  ∀ (s : State) (dt p off w : Nat) (v : Word),
    let b := s.arriveBy dt w
    (∀ size, size ≠ 4 ∨ off % 4 ≠ 0 → size ≠ 8 ∨ off % 8 ≠ 0 → off < 0x1000 →
      exec (.registerWrite dt (p * 0x1000 + off) size [⟨w, v⟩] []) s = .next (b.badAccess p off w)) ∧
    (pageInfo p = none → b.regWrite p off w v = b.badAccess p off w) ∧
    (p ∈ [0x040, 0x050, 0x060, 0x061] → 0x40 ≤ off → (b.page (statePage p)).softReset = true → b.boot.resetPending = false →
      b.lowPower = false → b.flag F.GLB_BOOT_STATUS_FW_READY = true → b.regWrite p off w v = b.badAccess p off w) ∧
    (∀ lo, p ∈ [0x040, 0x050, 0x060, 0x061] → 0x40 ≤ off → b.portCheck p off w = none →
      b.encodingBad p off v = some lo → b.regWrite p off w v = b.error p 0x1001 (word (lo * 2 ^ 16 + off % 2 ^ 12))) ∧
    (b.portCheck 0x134 0x4C w = none → Writer.isVf w = true ∨ (w = 0x40 ∧ b.pstate 0x160 = St.safe) → b.regWrite 0x134 0x4C w v = b) ∧
    (b.badAccess p off w).fld F.GLB_BAD_ACCESS_CNT_COUNT = min (2 ^ 32 - 1) (b.fld F.GLB_BAD_ACCESS_CNT_COUNT + 1) ∧
    (∀ k, k ≠ R.GLB_BAD_ACCESS_CNT → k ≠ R.GLB_BAD_ACCESS_LAST → (b.badAccess p off w).cell k = b.cell k) ∧
    { b.badAccess p off w with regs := b.regs } = b

/-- REGISTER_WRITE by two writers in one cycle: the higher rank's write is applied, the other is recorded as the loser. Rests on R96, R97. -/
def Obligations.WritesOfOneCycleArbitrated : Prop :=
  (∀ (s : State) (dt p off : Nat) (x y : RegWrite), off < 0x1000 → off % 4 = 0 → x.writer ≠ y.writer →
    let b := if 0x40 ≤ x.writer ∨ 0x40 ≤ y.writer then (s.arrive dt).hostTlp else s.arrive dt
    b.takesPart p off x.writer x.value = true → b.takesPart p off y.writer y.value = true →
      writerRank (hasAcc p off .rws) x.writer < writerRank (hasAcc p off .rws) y.writer →
        let t := ((b.noteStripped p off [y]).regWrite p off x.writer x.value).recordLosers p off x.writer [y]
        (b.lockedOut p off y.writer = false → b.noteStripped p off [y] = b) ∧
        exec (.registerWrite dt (p * 0x1000 + off) 4 [x, y] []) s = .next t ∧
        exec (.registerWrite dt (p * 0x1000 + off) 4 [y, x] []) s = .next t) ∧
  (∀ (s : State) (p off win : Nat) (y : RegWrite),
    let t := s.recordLosers p off win [y]
    (t.page p).collided = true ∧ (t.page p).loser = y.writer ∧ (t.page p).loserOffset = off ∧
      ((s.page p).errCode = 0 → (t.page p).errCode = 0xA002 ∧ (t.page p).errInfo = word (off * 2 ^ 16 + win * 2 ^ 8 + y.writer)) ∧
      (t.page p).eventRaw.getLsbD 29 = true ∧ (∀ q, q ≠ p → t.page q = s.page q)) ∧
  [0x40, 0x01, 0x02, 0x41, 0x42].Pairwise (fun a b => writerRank false a < writerRank false b) ∧
  [0x01, 0x02, 0x40].Pairwise (fun a b => writerRank true a < writerRank true b)

/-- PAGE_ENABLE, DRAIN_COMPLETE: ENABLE = 1 takes OFF to IDLE; ENABLE = 0 goes to OFF or through DRAINING. Rests on R71, R95, R98. -/
def Obligations.EnableMovesState : Prop :=
  ∀ (s : State) (dt p w : Nat),
    let b := s.arriveBy dt w
    (∀ on, hasCtrl p = true → b.admits p 0x08 w (ctrlValue on false (b.page p).freeze) = true →
      b.ctrlRule p w (ctrlValue on false (b.page p).freeze) = none →
        exec (.pageEnable dt p w on) s = .next ((if on = (b.page p).enable then b else b.setEnable p on).wrote p w)) ∧
    (p ∈ [0x050, 0x060, 0x0D0, 0x100, 0x110] → (b.page p).softReset = false → (b.page p).enable = false →
      b.admits p 0x08 w (ctrlValue true false (b.page p).freeze) = true →
      b.ctrlRule p w (ctrlValue true false (b.page p).freeze) = none → (b.page p).cond = { off := true } →
        ∃ t, exec (.pageEnable dt p w true) s = .next t ∧ t.pstate p = St.idle ∧ (t.page p).prevState = St.off ∧
          (t.page p).enable = true ∧ (t.page p).lastWriter = w ∧ (t.page p).lockHeld = (b.page p).lockHeld ∧ t.mem = b.mem) ∧
    (∀ c, p ∈ [0x050, 0x060, 0x0D0, 0x100, 0x110] → (b.page p).softReset = false → (b.page p).enable = true →
      b.admits p 0x08 w (ctrlValue false false (b.page p).freeze) = true →
      b.ctrlRule p w (ctrlValue false false (b.page p).freeze) = none → (b.page p).cond = c →
        ∃ t, exec (.pageEnable dt p w false) s = .next t ∧ (t.page p).enable = false ∧ (t.page p).lastWriter = w ∧
          (t.page p).lockHeld = (b.page p).lockHeld ∧ t.mem = b.mem ∧
          (c = {} ∨ c = { waiting := true } → t.pstate p = St.off) ∧
          (c = { armed := true } ∨ c = { running := true } → t.pstate p = St.draining ∧ (t.page p).prevState = stateOf c) ∧
          (c = { frozen := true } → b.pageWork p = false → t.pstate p = St.off ∧ (t.page p).freeze = (b.page p).freeze) ∧
          (c = { frozen := true } → b.pageWork p = true → t.pstate p = St.paused ∧ (t.page p).cond.draining = true)) ∧
    (let a := s.arrive dt
     p ∈ [0x050, 0x060, 0x0D0, 0x100, 0x110] → (a.page p).cond = { draining := true } → a.pageWork p = false →
      ∃ t, exec (.drainComplete dt p) s = .next t ∧ (t.page p).prevState = St.draining ∧ t.mem = a.mem ∧
        t.pstate p = if (a.page p).enable then St.idle else St.off)

/-- SOFT_RESET, SOFT_RESET_DONE: the instance resets, its registers return to reset values, and it ends IDLE or OFF. Rests on R72, R95, R98, R110. -/
def Obligations.SoftResetOfAnInstance : Prop :=
  ∀ (s : State) (dt p w : Nat),
    let b := s.arriveBy dt w
    let v := ctrlValue (b.page p).enable true (b.page p).freeze
    (hasCtrl p = true → b.admits p 0x08 w v = true → b.ctrlRule p w v = none →
      exec (.softReset dt p w) s = .next ((b.softReset p).wrote p w)) ∧
    (p = 0x050 → b.admits p 0x08 w v = true → b.ctrlRule p w v = none → (b.page p).softReset = false →
      ∃ t, exec (.softReset dt p w) s = .next t ∧ (t.page p).softReset = true ∧ (t.page p).freeze = false ∧
        (t.page p).errCode = 0 ∧ (t.page p).moreCnt = 0 ∧ (t.page p).errInfo = 0 ∧ (t.page p).lockHeld = (b.page p).lockHeld ∧
        (t.page p).lockOwner = (b.page p).lockOwner ∧ (t.page p).lastWriter = w ∧
        (∀ off, 0x40 ≤ off → off < 0x1000 → t.cell (p * 0x1000 + off) = resetCell (p * 0x1000 + off)) ∧
        (∀ x ∈ t.held, x.2 ≠ p)) ∧
    (let a := s.arrive dt
     (p ∈ [0x050, 0x060, 0x0D0, 0x100, 0x110] → (a.page p).softReset = true →
       (a.page p).cond = {} ∨ (a.page p).cond = { fault := true } →
        ∃ t, exec (.softResetDone dt p) s = .next t ∧ (t.page p).softReset = false ∧ t.mem = a.mem ∧
          t.pstate p = if (a.page p).enable then St.idle else St.off) ∧
     ((a.page p).softReset = false → exec (.softResetDone dt p) s = .next a))

/-- FREEZE, FREEZE_SAFE_POINT: FREEZE = 1 pauses at the safe point, FREEZE = 0 returns the instance to the state it left. Rests on R74, R98. -/
def Obligations.FreezeAndThaw : Prop :=
  ∀ (s : State) (dt p w : Nat),
    let b := s.arriveBy dt w
    (∀ on, hasCtrl p = true → b.admits p 0x08 w (ctrlValue (b.page p).enable false on) = true →
      b.ctrlRule p w (ctrlValue (b.page p).enable false on) = none →
        exec (.freeze dt p w on) s = .next ((if on = (b.page p).freeze then b else b.setFreeze p on).wrote p w)) ∧
    (∀ on c, p ∈ [0x050, 0x060, 0x0D0, 0x100, 0x110] → b.admits p 0x08 w (ctrlValue (b.page p).enable false on) = true →
      b.ctrlRule p w (ctrlValue (b.page p).enable false on) = none → (b.page p).freeze = !on →
      (b.page p).cond = { c with frozen := !on } → c ∈ [({} : Cond), { armed := true }, { running := true }] →
        ∃ t, exec (.freeze dt p w on) s = .next t ∧ (t.page p).freeze = on ∧ t.pstate p = stateOf c ∧ t.mem = b.mem) ∧
    (let a := s.arrive dt
     p ∈ [0x050, 0x060, 0x0D0, 0x100, 0x110] → (a.page p).freeze = true → (a.page p).softReset = false → a.atSafePoint p = true →
      (a.page p).cond ∈ [({} : Cond), { armed := true }, { running := true }] →
        ∃ t, exec (.freezeSafePoint dt p) s = .next t ∧ t.pstate p = St.paused ∧ (t.page p).prevState = stateOf (a.page p).cond ∧
          t.mem = a.mem)

/-- A write that sets FREEZE while frames are paced is discarded, and FREEZE_IN_FRAME is recorded on that page. Rests on R75. -/
def Obligations.FreezeInFrameDiscarded : Prop :=
  ∀ (s : State) (dt p w : Nat) (v : Word), hasCtrl p = true → 2 ≤ pageType p → pageType p ≤ 9 →
    let b := s.arriveBy dt w
    b.pstate 0x010 = St.running → b.frm.freeRun = false → b.portCheck p 0x08 w = none →
      exec (.freeze dt p w true) s = .next (b.error p 0x1004 (word w)) ∧
      (v.getLsbD 2 = true → b.regWrite p 0x08 w v = b.error p 0x1004 (word w)) ∧
      ((b.error p 0x1004 (word w)).page p).freeze = (b.page p).freeze ∧
      ((b.error p 0x1004 (word w)).page p).enable = (b.page p).enable ∧
      ((b.error p 0x1004 (word w)).page p).cond = (b.page p).cond

/-- STATE reports the first applicable state in the order of R77, PREV_STATE the state before; SEP follows FRM. Rests on R77, R259. -/
def Obligations.StateReported : Prop :=
  (∀ c : Cond,
    stateOf c = (([(c.off || c.gated, St.off), (c.safe, St.safe), (c.fault, St.fault), (c.limited, St.limited),
      (c.frozen || c.ownPause, St.paused), (c.waiting, St.waiting), (c.draining, St.draining), (c.running, St.running),
      (c.armed, St.armed), (true, St.idle)].find? (fun x => x.1)).map (fun x => x.2)).getD 99 ∧ stateOf c ≤ 9) ∧
  (∀ (s : State) (p : Nat) (f : Cond → Cond),
    let old := s.page (statePage p)
    let new := (s.updCond p f).page (statePage p)
    new.cond = f old.cond ∧ (s.updCond p f).pstate p = stateOf (f old.cond) ∧
      new.prevState = (if stateOf (f old.cond) = stateOf old.cond then old.prevState else stateOf old.cond) ∧
      (stateOf (f old.cond) ≠ stateOf old.cond → ∀ q ∈ instancePages (statePage p), ((s.updCond p f).page q).eventRaw.getLsbD 28 = true) ∧
      (∀ q, q ≠ statePage p → q ∉ instancePages (statePage p) → statePage p ≠ 0x010 ∨ q ∉ instancePages 0x040 →
        (s.updCond p f).page q = s.page q) ∧
      (statePage p = 0x010 → let c := ((s.updCond p f).page 0x040).cond
        c = { (s.page 0x040).cond with
          running := (s.page 0x040).enable && ((s.updCond p f).pstate 0x010 == St.armed || (s.updCond p f).pstate 0x010 == St.running)
            && !s.lockStops 0x040 }))

/-- The first error of a page is loaded into CODE and ERR_INFO; a further one only counts in MORE_CNT, up to 255. Rests on R84. -/
def Obligations.ErrorsRecorded : Prop :=
  ∀ (s : State) (p code : Nat) (info : Word),
    let h := s.page p
    let t := s.error p code info
    (h.errCode = 0 → t.page p = { h with errCode := code, errInfo := info, moreCnt := 0, eventRaw := h.eventRaw ||| 0x80000000 }) ∧
    (h.errCode ≠ 0 → t.page p = { h with moreCnt := min 255 (h.moreCnt + 1), eventRaw := h.eventRaw ||| 0x80000000 }) ∧
    (∀ q, q ≠ p → t.page q = s.page q) ∧ t.mem = s.mem ∧ t.frm = s.frm

/-- Every recorded error joins the entries on their way to the event log, with its code, detail and page. Rests on R87, R660. -/
def Obligations.ErrorsReachTheLog : Prop :=
  ∀ (s : State) (p code : Nat) (info : Word),
    let t := s.error p code info
    let r : LogReq := ⟨s.timebase, code, info, p, (s.page p).errCode != 0, 0⟩
    (s.fld F.MBX_RST_RX_STATE < 2 ∨ s.logQueue.length < 64 → t.logQueue = s.logQueue ++ [r]) ∧
    (2 ≤ s.fld F.MBX_RST_RX_STATE → 64 ≤ s.logQueue.length →
      t.logQueue = s.logQueue ∧ t.fld F.RST_RING_LOST_CNT = min (2 ^ 32 - 1) (s.fld F.RST_RING_LOST_CNT + 1))

/-- EVENT_PEND_CLEAR: a 1 written to a bit clears it in EVENT_RAW, but not an event of the same cycle. Rests on R66, R80. -/
def Obligations.EventPendClears : Prop :=
  ∀ (s : State) (dt p w : Nat) (v : Word),
    let b := s.arriveBy dt w
    b.admits p 0x18 w v = true →
      ∃ t, exec (.eventPendClear dt p w v) s = .next t ∧
        (∀ n, n < 32 → v.getLsbD n = true → (b.risen (p * 0x1000 + 0x10)).getLsbD n = false →
          (t.page p).eventRaw.getLsbD n = false ∧ (t.page p).pend.getLsbD n = false) ∧
        (∀ n, n < 32 → v.getLsbD n = false ∨ (b.risen (p * 0x1000 + 0x10)).getLsbD n = true →
          (t.page p).eventRaw.getLsbD n = (b.page p).eventRaw.getLsbD n) ∧
        (t.page p).lastWriter = w ∧ (∀ q, q ≠ p → t.page q = b.page q) ∧ t.regs = b.regs ∧ t.mem = b.mem

/-- ERR_CODE_CLEAR: writing the current CODE clears it, MORE_CNT and ERR_INFO, before the errors of the same cycle are recorded; any other
value is ignored. Rests on R85, R86. -/
def Obligations.ErrorCleared : Prop :=
  ∀ (s : State) (dt p w : Nat) (v : Word),
    let b := s.arriveBy dt w
    b.admits p 0x1C w v = true →
      (b.cycErrs p = [] → getBits v 15 0 = (b.page p).errCode → exec (.errCodeClear dt p w v) s
        = .next ((b.setPage p { b.page p with errCode := 0, moreCnt := 0, errInfo := 0 }).wrote p w)) ∧
      (b.cycErrs p = [] → getBits v 15 0 ≠ (b.page p).errCode → exec (.errCodeClear dt p w v) s = .next (b.wrote p w)) ∧
      (∀ e l, b.cycErrs p = e :: l → getBits v 15 0 = e.before → e.code ≠ 0 → ∃ t, exec (.errCodeClear dt p w v) s = .next t ∧
        (t.page p).errCode = e.code ∧ (t.page p).errInfo = e.info ∧ (t.page p).moreCnt = min 255 l.length ∧ t.regs = b.regs ∧ t.mem = b.mem) ∧
      (∀ e l, b.cycErrs p = e :: l → getBits v 15 0 ≠ e.before → exec (.errCodeClear dt p w v) s = .next (b.wrote p w))

/-- LOCK_ACQUIRE, LOCK_RELEASE, LOCK_RECOVERED, LOCK_BREAK, LOCK_ABANDON act as Tables 2-10 and 2-11 give. Rests on R89, R92, R98. -/
def Obligations.LockOperations : Prop :=
  ∀ (s : State) (dt p w : Nat),
    let b := s.arriveBy dt w
    let h := b.page p
    (b.portCheck p 0x28 w = none →
      (h.lockHeld = false → exec (.lockAcquire dt p w) s
        = .next ((b.setPage p { h with lockHeld := true, lockOwner := w, lockSeq := (h.lockSeq + 1) % 65536 }).wrote p w)) ∧
      (h.lockHeld = true → exec (.lockAcquire dt p w) s = .next (b.wrote p w)) ∧
      (h.lockHeld = true → h.lockOwner = w → exec (.lockRelease dt p w) s
        = .next ((b.setPage p { h with lockHeld := false, lockOwner := 0 }).wrote p w)) ∧
      (h.lockHeld = false ∨ h.lockOwner ≠ w → exec (.lockRelease dt p w) s
        = .next ((b.error p 0xA004 (word (0x28 * 2 ^ 8 + w % 256))).wrote p w)) ∧
      (h.lockHeld = true → h.lockOwner = w → h.lockAbandoned = true → pageType p ≠ 3 → pageType p ≠ 4 → exec (.lockRecovered dt p w) s
        = .next ((b.setPage p { h with lockAbandoned := false }).wrote p w)) ∧
      (w = 0x01 → h.lockHeld = true → h.lockOwner ≠ 0x01 → exec (.lockBreak dt p w) s = .next ((b.abandonOnce p).wrote p w)) ∧
      (w = 0x01 → h.lockHeld = false ∨ h.lockOwner = 0x01 → exec (.lockBreak dt p w) s = .next (b.wrote p w)) ∧
      (h.lockHeld = true → b.nowCyc.abandoned.contains p = false →
        b.abandonOnce p = (b.abandonLock p).updCyc (fun c => { c with abandoned := p :: c.abandoned })) ∧
      (w ≠ 0x01 → exec (.lockBreak dt p w) s = .next (b.error p 0x1001 (word 0x28)))) ∧
    (let a := s.arrive dt
     (a.page p).lockHeld = true → a.nowCyc.abandoned.contains p = false → ∃ t, exec (.lockAbandon dt p) s = .next t ∧
       t.page p = (a.abandonLock p).page p ∧ t.regs = (a.abandonLock p).regs ∧ t.logQueue = (a.abandonLock p).logQueue ∧ t.mem = a.mem ∧
       ∀ q, q ≠ p → t.page q = a.page q) ∧
    (let t := b.abandonLock p
     (t.page p).lockHeld = false ∧ (t.page p).lockOwner = 0 ∧ (t.page p).lockAbandoned = true ∧
      (t.page p).lockSeq = (h.lockSeq + 1) % 65536 ∧ (t.page p).eventRaw.getLsbD 30 = true ∧
      (h.errCode = 0 → (t.page p).errCode = 0xA003 ∧ (t.page p).errInfo = word ((h.lockSeq + 1) % 65536 * 2 ^ 8 + h.lockOwner)))

/-- RWL fields take a write by the owner of the lock, or by anyone while it is neither held nor abandoned. Rests on R90, R91, R98. -/
def Obligations.LockProtectsFields : Prop :=
  ∀ (s : State) (dt w : Nat) (v : Word),
    let b := s.arriveBy dt w
    let h := b.page 0x040
    b.admits 0x040 0x50 w v = true →
      ((h.lockHeld = true ∧ h.lockOwner ≠ w) ∨ (h.lockHeld = false ∧ h.lockAbandoned = true) →
        exec (.registerWrite dt 0x40050 4 [⟨w, v⟩] []) s = .next (b.error 0x040 0xA004 (word (0x50 * 2 ^ 8 + w % 256)))) ∧
      ((h.lockHeld = true ∧ h.lockOwner = w) ∨ (h.lockHeld = false ∧ h.lockAbandoned = false) →
        ∃ t, exec (.registerWrite dt 0x40050 4 [⟨w, v⟩] []) s = .next t ∧ t.cell 0x40050 = v ∧ (t.page 0x040).lastWriter = w ∧
          b.SameRegs t [0x40050] ∧ b.SamePages t [0x040] ∧ b.SameBytes t)

/-- RESOURCE_GRANT: the first waiter of a free resource takes it, and goes on when it waits for nothing more. Rests on R99, R101, R102. -/
def Obligations.ResourceGranted : Prop :=
  ∀ (s : State) (dt : Nat) (w : Waiter),
    let a := s.arrive dt
    a.nextGrant = some w →
      exec (.resourceGrant dt) s = .next ((a.grantOne w).afterGrant w.page) ∧
      (a.waiters.find? (fun x => (a.holder x.res).isNone) = some w) ∧
      (let t := a.grantOne w
       t.held = a.held ++ [(w.res, w.page)] ∧ t.waiters = a.waiters.filter (fun x => !(x.page == w.page && x.res == w.res)) ∧
        (t.waiters.any (fun x => x.page == w.page) = true → t.hdr = a.hdr) ∧
        (t.waiters.any (fun x => x.page == w.page) = false → w.preempted = false →
          (t.page (statePage w.page)).cond = { (a.page (statePage w.page)).cond with
            waiting := false,
            armed := (a.page (statePage w.page)).cond.armed || w.wants == St.armed,
            running := (a.page (statePage w.page)).cond.running || w.wants != St.armed })) ∧
      (pageType w.page ≠ 3 → pageType w.page ≠ 10 → exec (.resourceGrant dt) s = .next (a.grantOne w))

/-- FRM_START, FRM_STOP: START samples its fields and goes to RUNNING or ARMED, or is discarded; STOP drains to IDLE. Rests on R93, R114, R115, R116, R120, R404. -/
def Obligations.RunStartsAndStops : Prop :=
  ∀ (s : State) (dt w : Nat),
    let b := s.arriveBy dt w
    (b.admits 0x010 0x48 w 1 = true → b.untested = false → b.pstate 0x010 = St.idle → b.saf.releasedAt ≠ some b.cycles →
      b.lockStops 0x010 = false ∨ b.flag F.FRM_MODE = true →
      (b.activeLoaded = false → exec (.frmStart dt w) s = .next (b.error 0x010 0x1001 (word 0x48))) ∧
      (b.activeLoaded = true → b.setCoreMax.startFault = none →
        let c := b.setCoreMax.startSample.enableTiles
        exec (.frmStart dt w) s
          = .next ((c.acquire 0x010 c.runResources (if c.frm.freeRun then St.armed else St.running)).wrote 0x010 w) ∧
        c.frm.freeRun = b.flag F.FRM_MODE ∧ c.frm.phaseNs = b.fld F.FRM_TICK_PHASE_NS_PHASE ∧ c.frm.beforeTick0 = true ∧
        (∀ n ∈ b.enabledTiles, (c.page (0x080 + n)).enable = true ∧ (c.page (0x080 + n)).cond.off = false) ∧
        (c.blockedBy 0x010 c.runResources = [] →
          ∃ t, exec (.frmStart dt w) s = .next t ∧ t.pstate 0x010 = (if b.flag F.FRM_MODE then St.armed else St.running) ∧
            (t.page 0x010).lastWriter = w))) ∧
    (b.admits 0x010 0x48 w 1 = true → b.untested = false →
      b.pstate 0x010 ≠ St.idle ∨ (b.lockStops 0x010 = true ∧ b.flag F.FRM_MODE = false) → exec (.frmStart dt w) s = .next b) ∧
    (b.admits 0x010 0x48 w 2 = true →
      ((b.page 0x010).cond = { running := true } ∨ (b.page 0x010).cond = { armed := true } → (b.page 0x010).enable = true →
        b.frm.closing = none →
          ∃ t, exec (.frmStop dt w) s = .next t ∧ t.frm.ingest = none ∧ t.frm.compute = b.frm.compute ∧ t.frm.publish = b.frm.publish ∧
            t.frm.syncHigh = b.frm.syncHigh ∧ (t.page 0x010).lastWriter = w ∧
            (t.page 0x010).prevState = (if b.frm.compute.isSome then stateOf (b.page 0x010).cond else St.draining) ∧
            t.pstate 0x010 = if b.frm.compute.isSome then St.draining else St.idle) ∧
      ((b.page 0x010).cond = {} → exec (.frmStop dt w) s = .next (b.wrote 0x010 w)))

/-- PLAN_LOAD, PLAN_LOAD_DONE, PLAN_SWITCH, PLAN_UNLOAD, PLAN_RECHECK move the plan slots as their rules give. Rests on R98, R130, R131, R134, R135, R160. -/
def Obligations.PlanSlots : Prop :=
  (∀ (s : State) (dt w slot : Nat), slot < 2 →
    let b := s.arriveBy dt w
    (b.admits 0x010 0x58 w (word (2 + slot)) = true →
      (b.flag F.FRM_PLAN_STATUS_LOAD_BUSY = false → slot ≠ b.fld F.FRM_PLAN_STATUS_ACTIVE_SLOT ∨ b.pstate 0x010 = St.idle → b.fuses.failed = false →
        ∃ t, exec (.planLoad dt w slot) s = .next t ∧ t.fld (planSlotState slot) = 1 ∧ t.flag F.FRM_PLAN_STATUS_LOAD_BUSY = true ∧
          t.frm.loadSlot = slot ∧ t.frm.loadAddr = b.planAddr ∧ t.frm.loadSize = b.fld F.FRM_PLAN_SIZE ∧
          t.fld (planSlotState (1 - slot)) = b.fld (planSlotState (1 - slot)) ∧ t.mem = b.mem ∧ (t.page 0x010).lastWriter = w) ∧
      (b.flag F.FRM_PLAN_STATUS_LOAD_BUSY = true ∨ (slot = b.fld F.FRM_PLAN_STATUS_ACTIVE_SLOT ∧ b.pstate 0x010 ≠ St.idle) →
        exec (.planLoad dt w slot) s = .next (b.error 0x010 0xA006 0))) ∧
    (b.admits 0x010 0x58 w (word (6 + slot)) = true →
      (slot ≠ b.fld F.FRM_PLAN_STATUS_ACTIVE_SLOT →
        ∃ t, exec (.planUnload dt w slot) s = .next t ∧ t.fld (planSlotState slot) = 0 ∧ t.planOf slot = {} ∧
          t.fld F.FRM_PLAN_STATUS_ACTIVE_SLOT = b.fld F.FRM_PLAN_STATUS_ACTIVE_SLOT ∧ t.mem = b.mem ∧ t.hdr = (b.wrote 0x010 w).hdr ∧
          t.flag F.FRM_PLAN_STATUS_LOAD_BUSY = (b.flag F.FRM_PLAN_STATUS_LOAD_BUSY && b.fld (planSlotState slot) != 1)) ∧
      (slot = b.fld F.FRM_PLAN_STATUS_ACTIVE_SLOT → exec (.planUnload dt w slot) s = .next (b.error 0x010 0xA006 0))) ∧
    (b.admits 0x010 0x58 w 4 = true →
      let o := 1 - b.fld F.FRM_PLAN_STATUS_ACTIVE_SLOT
      (b.fld (planSlotState o) = 2 → b.paced = false ∨ (b.planOf o).hdr.periodUs = b.activePlan.hdr.periodUs →
        ∃ t, exec (.planSwitch dt w) s = .next t ∧ t.flag F.FRM_PLAN_STATUS_SWITCH_PENDING = true ∧ t.frm.switchAt = b.cycles ∧
          t.fld F.FRM_PLAN_STATUS_ACTIVE_SLOT = b.fld F.FRM_PLAN_STATUS_ACTIVE_SLOT ∧ (t.page 0x010).lastWriter = w ∧ t.mem = b.mem) ∧
      (b.fld (planSlotState o) ≠ 2 ∨ (b.paced = true ∧ (b.planOf o).hdr.periodUs ≠ b.activePlan.hdr.periodUs) →
        exec (.planSwitch dt w) s = .next ((b.error 0x010 0x1012 0).wrote 0x010 w)))) ∧
  (∀ (s : State) (f : Frame), s.fld F.FRM_PLAN_STATUS_ACTIVE_SLOT < 2 → s.switchDue f = true →
    let t := s.applySwitch
    t.fld F.FRM_PLAN_STATUS_ACTIVE_SLOT = 1 - s.fld F.FRM_PLAN_STATUS_ACTIVE_SLOT ∧ t.frm.cur = 0 ∧ t.frm.streak = 0 ∧
      t.flag F.FRM_PLAN_STATUS_SWITCH_PENDING = false ∧ t.switchDue f = false ∧ t.mem = s.mem ∧ s.frm.switchAt ≤ f.tickAt) ∧
  (∀ (s : State) (dt slot : Nat), slot < 2 →
    let a := s.arrive dt
    (a.flag F.FRM_PLAN_STATUS_LOAD_BUSY = true → a.frm.loadSlot = slot →
      let x := (a.loadChecks a.frm.loadAddr a.frm.loadSize).1
      ∃ t, exec (.planLoadDone dt) s = .next t ∧ t.flag F.FRM_PLAN_STATUS_LOAD_BUSY = false ∧ t.fld F.FRM_PLAN_RESULT_CODE = x.code % 2 ^ 16 ∧
        t.fld (planSlotState slot) = (if x.code = 0 then 2 else 0) ∧ t.planOf slot = (if x.code = 0 then x.plan else {}) ∧
        (t.page 0x010).eventRaw.getLsbD 3 = true) ∧
    (a.flag F.FRM_PLAN_STATUS_LOAD_BUSY = false → exec (.planLoadDone dt) s = .next a) ∧
    (a.fld (planSlotState slot) = 2 →
      let q := a.planCorrupt slot
      let c := q.2.error 0x010 0x2011 0
      (q.1 = false → exec (.planRecheck dt slot) s = .next q.2) ∧
      (q.1 = true → slot ≠ a.fld F.FRM_PLAN_STATUS_ACTIVE_SLOT →
        exec (.planRecheck dt slot) s = .next (c.emptySlot slot) ∧ (c.emptySlot slot).fld (planSlotState slot) = 0) ∧
      (q.1 = true → slot = a.fld F.FRM_PLAN_STATUS_ACTIVE_SLOT → a.frm.compute.isNone = true →
        exec (.planRecheck dt slot) s = .next ((c.emptySlot slot).pageFault 0x010 0x2011)) ∧
      (q.1 = true → slot = a.fld F.FRM_PLAN_STATUS_ACTIVE_SLOT → a.frm.compute.isSome = true →
        ∃ t, exec (.planRecheck dt slot) s = .next t ∧ t.fld (planSlotState slot) = 0 ∧ t.frm.faultAfter = some slot ∧
          t.planOf slot = a.planOf slot ∧ t.frm.compute = a.frm.compute)))

/-- TICK, FRAME_SYNC_EDGE, FLYWHEEL_TICK, SYNC_OUT_END: when a tick is made, and what a tick latches. Rests on R119, R120, R121, R122, R123, R158. -/
def Obligations.TicksMade : Prop :=
  ∀ (s : State) (dt : Nat),
    let a := s.arrive dt
    let p := 1000 * a.fld F.FRM_PERIOD_US_PERIOD
    let edges : State := a.updFrm (fun f => { f with flywheels := 0, syncLost := false })
    let missed : State := ((a.bump F.FRM_SYNC_MISSED_CNT).event 0x010 5).updFrm (fun f => { f with flywheels := f.flywheels + 1 })
    (a.ticking = true → a.frm.extTick = false → 0 < p →
      ((a.frm.lastTickTs + p - a.frm.phaseNs) / p < (a.timebase + p - a.frm.phaseNs) / p → exec (.tick dt) s = .next a.makeTick) ∧
      ((a.timebase + p - a.frm.phaseNs) / p ≤ (a.frm.lastTickTs + p - a.frm.phaseNs) / p → exec (.tick dt) s = .next a)) ∧
    (a.ticking = true → a.frm.extTick = true → a.pinSees 1 = true →
      (a.frm.beforeTick0 = true → exec (.frameSyncEdge dt) s = .next edges.makeTick) ∧
      (a.frm.beforeTick0 = false → 98 * a.periodCycles ≤ 100 * (a.cycles - a.frm.lastTickAt) →
        100 * (a.cycles - a.frm.lastTickAt) ≤ 102 * a.periodCycles → exec (.frameSyncEdge dt) s = .next edges.makeTick) ∧
      (a.frm.beforeTick0 = false → 100 * (a.cycles - a.frm.lastTickAt) < 98 * a.periodCycles →
        exec (.frameSyncEdge dt) s = .next (a.bump F.FRM_SYNC_EARLY_CNT))) ∧
    (a.ticking = true → a.frm.extTick = true → a.frm.beforeTick0 = false → a.frm.syncLost = false →
      (102 * a.periodCycles ≤ 100 * (a.cycles - a.frm.lastTickAt) → a.frm.flywheels < 7 → exec (.flywheelTick dt) s = .next missed.makeTick) ∧
      (102 * a.periodCycles ≤ 100 * (a.cycles - a.frm.lastTickAt) → 7 ≤ a.frm.flywheels → exec (.flywheelTick dt) s
        = .next ((missed.updFrm (fun f => { f with syncLost := true })).error 0x010 0x3006 0).makeTick) ∧
      (100 * (a.cycles - a.frm.lastTickAt) < 102 * a.periodCycles → exec (.flywheelTick dt) s = .next a)) ∧
    (a.frm.lastTickAt + 2000 ≤ a.cycles → exec (.syncOutEnd dt) s = .next (a.updFrm (fun f => { f with syncHigh := false }))) ∧
    (a.cycles < a.frm.lastTickAt + 2000 → exec (.syncOutEnd dt) s = .next a) ∧
    (let t := a.tickNote
     t.fld F.FRM_TICK_TS_LO_TS = a.timebase % 2 ^ 32 ∧ t.fld F.FRM_TICK_TS_HI_TS = a.timebase / 2 ^ 32 % 2 ^ 32 ∧
      (t.page 0x010).eventRaw.getLsbD 0 = true ∧ t.frm.lastTickTs = a.timebase ∧ t.frm.lastTickAt = a.cycles ∧ t.frm.ticks = a.frm.ticks + 1 ∧
      t.frm.syncHigh = (a.frm.syncOut && !a.frm.extTick) ∧ t.frm.ingest = a.frm.ingest ∧ t.frm.compute = a.frm.compute ∧ t.mem = a.mem)

/-- A tick opens the ingest of the frame numbered one above the last, and 1 when none has been consumed. Rests on R28, R36, R38. -/
def Obligations.IngestOpensWithTheNextNumber : Prop :=
  (∀ s : State,
    let n := if s.frm.consumed then (s.frm.lastNum + 1) % 2 ^ 32 else 1
    let t := s.openIngest
    t.frm.lastNum = n ∧ t.frm.consumed = true ∧ t.frm.ingest.map (fun f => f.num) = some n ∧
      t.frm.ingest.map (fun f => f.targetTs) = some (s.timebase + 1000 * s.fld F.FRM_PERIOD_US_PERIOD) ∧
      ((∀ g, s.frm.compute = some g → g.num ≠ n) → t.frm.compute = s.frm.compute) ∧ t.frm.publish = s.frm.publish) ∧
  (∀ (s : State) (dt : Nat),
    let a := s.arrive dt
    let p := 1000 * a.fld F.FRM_PERIOD_US_PERIOD
    a.ticking = true → a.frm.extTick = false → 0 < p → a.frm.ingest = none →
      (a.frm.lastTickTs + p - a.frm.phaseNs) / p < (a.timebase + p - a.frm.phaseNs) / p →
        let m := (a.nextNum + 2 ^ 32 - 1) % 2 ^ 32
        exec (.tick dt) s = .next (((a.tickNote.updFrm (fun f => { f with
          tickHist := ((m, a.timebase) :: f.tickHist).take 4 })).openIngest.tickLanes m).wakePlanTiles))

/-- TIME_MARK, TIME_SAMPLE, TIME_HOLDOVER: marks latch TIMEBASE, accepted samples set it, silence ends in HOLDOVER. Rests on R124, R125, R126, R127, R128, R159. -/
def Obligations.TimeFromTheHost : Prop :=
  ∀ (s : State) (dt ctx seq gptp : Nat),
    let a := s.arrive dt
    let mark : Nat := a.fld F.FRM_MARK_TS_HI * 2 ^ 32 + a.fld F.FRM_MARK_TS_LO
    let e : Int := (gptp : Int) - (mark : Int)
    (a.pinSees 2 = true →
      exec (.timeMark dt) s = .next (((a.setFld F.FRM_MARK_SEQ (a.fld F.FRM_MARK_SEQ + 1)).setFld F.FRM_MARK_TS_LO (a.timebase % 2 ^ 32)).setFld
        F.FRM_MARK_TS_HI (a.timebase / 2 ^ 32))) ∧
    (ctx ≠ 0 ∨ seq ≠ a.fld F.FRM_MARK_SEQ ∨ (a.frm.sampled = true ∧ a.cycles < a.frm.sampleAt + 25000000) →
      exec (.timeSample dt ctx seq gptp) s = .next (a.bump F.FRM_TIME_REJECT_CNT)) ∧
    (ctx = 0 → seq = a.fld F.FRM_MARK_SEQ → (a.frm.sampled = false ∨ a.frm.sampleAt + 25000000 ≤ a.cycles) → a.fld F.FRM_TIME_STATE = 0 →
      ∃ t, exec (.timeSample dt ctx seq gptp) s = .next t ∧ t.fld F.FRM_TIME_STATE = 1 ∧ t.frm.sampled = true ∧ t.frm.sampleGptp = gptp ∧
        t.frm.sampleAt = a.cycles ∧ t.sfld F.FRM_TIME_OFFSET_NS = max (-2147483647) (min 2147483647 e) ∧ t.mem = a.mem ∧
        (a.framePaced = false → t.timebase = unsigned 64 ((a.timebase : Int) + e)) ∧
        (a.framePaced = true → t.timebase = a.timebase ∧ ((a.page 0x010).errCode = 0 → (t.page 0x010).errCode = 0x3004))) ∧
    (a.fld F.FRM_TIME_STATE = 1 ∨ a.fld F.FRM_TIME_STATE = 2 →
      (a.frm.sampleAt + 800000000 ≤ a.cycles →
        ∃ t, exec (.timeHoldover dt) s = .next t ∧ t.fld F.FRM_TIME_STATE = 3 ∧ t.timebase = a.timebase ∧ t.mem = a.mem ∧
          ((a.page 0x010).errCode = 0 → (t.page 0x010).errCode = 0x3005)) ∧
      (a.cycles < a.frm.sampleAt + 800000000 → exec (.timeHoldover dt) s = .next a))

/-- DRAIN_WINDOW_END, BINNING_COMPLETE, SEP_CLOSE_LATE, BANK_TAKE, THINNING_DONE, DIRECTORY_COMMIT_DONE, BUDGET_EXCEEDED. Rests on R30, R32, R33, R43, R157, R270, R280, R281. -/
def Obligations.FramePhasesEnd : Prop :=
  ∀ (s : State) (dt : Nat),
    let a := s.arrive dt
    (a.frm.drainOpen = true →
      (a.frm.lastTickAt + 50000 ≤ a.cycles → exec (.drainWindowEnd dt) s = .next (a.updFrm (fun f => { f with drainOpen := false }))) ∧
      (a.cycles < a.frm.lastTickAt + 50000 → exec (.drainWindowEnd dt) s = .next a)) ∧
    (∀ f, a.frm.compute = some f → f.frozen = false →
      (f.freeRun = true ∨ a.frm.drainOpen = false → a.leftover f = 0 → exec (.binningComplete dt) s = .next (a.freezeFrame f).admitFrame) ∧
      (f.freeRun = false → f.tickAt + 80000 ≤ a.cycles →
        exec (.sepCloseLate dt) s = .next ((a.error 0x040 0x3003 (word f.num)).freezeFrame
          { f with dropped := f.dropped + a.leftover f, recFlags := setBit f.recFlags 5 }).admitFrame) ∧
      (f.freeRun = false → a.cycles < f.tickAt + 80000 → a.frm.closing = none → exec (.sepCloseLate dt) s = .next a)) ∧
    (∀ f, a.lacksBank = some f → exec (.bankTake dt) s = .next (a.takeBank f.num)) ∧
    (a.lacksBank = none → exec (.bankTake dt) s = .next a) ∧
    (∀ f, a.frm.compute = some f → f.admitted = true →
      (f.thinned = true → f.thinDone = false → exec (.thinningDone dt) s = .next (a.thin f)) ∧
      (f.committed = false → (f.thinned = false ∨ f.thinDone = true) →
        (∀ x, f.admittedBank = some x ∨ f.otherBank = some x → x < 3) →
        ∃ t, exec (.directoryCommitDone dt) s = .next t ∧ t.frm.compute.map (fun g => g.committed) = some true ∧
          t.fld F.SCV_COMMIT_FRAME = f.num % 256 ∧ t.fld F.SCV_COMMIT_LEVEL = f.level % 4 ∧ t.fld F.SCV_SET_VALID_SETS = 1 ∧
          (∀ b, f.admittedBank = some b → f.otherBank ≠ some b → (t.bank b).use = 3 ∧ (t.bank b).entries = (a.bank b).entries) ∧
          (∀ b, f.otherBank = some b → f.admittedBank ≠ some b → t.bank b = {}))) ∧
    (∀ f, a.frm.compute = some f → f.freeRun = false →
      (f.budgetExceeded = false → f.tickAt + 200 * f.plan.hdr.budgetUs < a.cycles →
        exec (.budgetExceeded dt) s = .next (((a.updFrame f.num (fun f => { f with budgetExceeded := true })).error 0x010 0x3007 0).latch 12 0x3007)) ∧
      (f.budgetExceeded = true ∨ a.cycles ≤ f.tickAt + 200 * f.plan.hdr.budgetUs → exec (.budgetExceeded dt) s = .next a))

/-- A level finer than L3 is admitted only if it may be taken and its cost fits, and never finer by more than one step. Rests on R144, R145, R146. -/
def Obligations.AdmissionFitsTheBudget : Prop :=
  ∀ (s : State) (f : Frame), s.fld F.GLB_CLOCK_STATUS_CORE_MHZ ≠ 0 →
    let l := (s.chooseLevel f).1
    (l < 3 → s.costAt f l ≤ f.plan.hdr.budgetUs * 1000 - 410000 ∧ f.mayTake l = true ∧ s.levelCap ≤ l) ∧
    (l < s.frm.cur → ∀ m, l < m → m < s.frm.cur → f.mayTake m = true → m < s.levelCap)

/-- STAGE_DISPATCH, STAGE_COMPLETE: the lowest ready stage that can start does; a finished stage completes with its code. Rests on R74, R140, R378, R379, R380, R381, R394, R469. -/
def Obligations.StagesRun : Prop :=
  ∀ (s : State) (dt : Nat) (f : Frame),
    let a := s.arrive dt
    a.frm.compute = some f →
      (f.committed = true → f.truncated = false →
        let l := (f.plan.numbered.filter (a.ready f)).map (fun x => a.runOf f x.1 x.2)
        let h := l.foldl (fun (s : State) r => s.holdHarvest r) a
        (∀ r, l.find? (fun r => h.canStart r && !h.anyGated r) = some r →
          exec (.stageDispatch dt) s = .next (h.startStage r) ∧
          (∃ x ∈ f.plan.numbered, r = a.runOf f x.1 x.2 ∧ bitOf x.2.levels f.level = true ∧ f.stageDone x.1 = false ∧
            a.runStage x.1 = none ∧ (∀ d ∈ x.2.deps, f.stageDone d = true)) ∧
          (∀ t ∈ r.tiles, h.tileFree t = true ∧ h.mayWork (tilePage t) = true) ∧ h.frm.running.foldl (fun n x => n + x.share) r.share ≤ 16 ∧
          (h.usesHrv r = true → ∀ x ∈ h.frm.running, h.usesHrv x = false) ∧
          (r.kind = 0 → (h.startStage r).frm.running = a.frm.running ++ [r] ∧
            (∀ t ∈ r.tiles, ((h.startStage r).tile t).heldBy = r.stage + 1) ∧ (h.startStage r).mem = a.mem)) ∧
        (∀ r, l.find? (fun r => h.canStart r && !h.anyGated r) = none → l.find? h.canStart = some r →
          exec (.stageDispatch dt) s = .next (r.tiles.foldl (fun (s : State) t => s.wakeTile t) h))) ∧
      (∀ n r, a.runStage n = some r →
        (a.stageFinished r = true → exec (.stageComplete dt n) s
          = .next ((a.endStage r (if r.code ≠ 0 then r.code else a.answerCode (.stage r.stage))).dropAcks (.stage n))) ∧
        (a.stageFinished r = false → exec (.stageComplete dt n) s = .next a))

/-- PUBLICATION, FRAME_JOB_ACCEPT, CORE_FREQ_CHANGE: a frame whose work is over is published; a waiting FRAME job starts a frame. Rests on R35, R36, R45, R74, R93, R117, R143, R293, R579, R593, R733, R737. -/
def Obligations.FramesPublished : Prop :=
  (∀ (s : State) (dt : Nat) (f : Frame),
    let a := s.arrive dt
    a.frm.compute = some f →
      (a.computeOver f = false → exec (.publication dt) s = .next a) ∧
      (a.computeOver f = true → f.doomed = none → f.frozen = true → f.freeRun = true ∨ a.injected 0x0B 0 = none →
        let b := a.writeOut (resultAddr f.set 0) (a.headerBytes f)
        let x := b.fetch (resultAddr f.set 0) f.plan.hdr.resultBytes
        (x.1.poison = true → exec (.publication dt) s = .next (x.2.dropCompute 0x5010).settle) ∧
        (x.1.poison = false → ∃ u : State, exec (.publication dt) s = .next u.settle ∧ u.frm.publish = some f ∧ u.frm.compute = none ∧
          u.frm.emptyAt = a.cycles ∧ (u.page 0x010).eventRaw.getLsbD 2 = true ∧ u.fld F.SAF_WD_STATUS_TICKS = 0 ∧ u.saf.wdAt = none))) ∧
  (∀ (s : State) (dt ctx ring : Nat) (j : Job) (host : List Byte),
    let a := s.arrive dt
    a.job ctx ring = some j → j.opc = 4 → j.phase = 1 → a.frm.freeRun = true → a.pstate 0x010 = St.armed → a.frm.compute = none →
      a.mayWork 0x010 = true → (a.page 0x040).pausing = false → a.nextFrameJob = some (ctx * 2 + ring) →
        exec (.frameJobAccept dt ctx ring host) s = .next (a.startFrame ctx ring j host)) ∧
  (∀ (s : State) (dt : Nat),
    let a := s.arrive dt
    (a.coreMayChange = true → a.pwr.tripped = false → a.corePowered = true →
      let g := if a.framePaced then max (a.metMhz a.wantedMhz) (min a.wantedMhz a.floorMhz) else a.metMhz a.wantedMhz
      ∃ t, exec (.coreFreqChange dt) s = .next t ∧ t.fld F.GLB_CLOCK_STATUS_CORE_MHZ = g % 2 ^ 11 ∧
        t.mem = a.mem ∧ t.frm = a.frm ∧ ∀ k, k ≠ R.GLB_CLOCK_STATUS → k ≠ R.HIF_MSIX_PBA → t.cell k = a.cell k) ∧
    (∀ f, a.frm.compute = some f → f.admitted = true → exec (.coreFreqChange dt) s = .next a))

/-- POINT_ACCEPT, POSE_PUSH, POSE_CLEAR: points are taken one by one, staged points first; poses enter a ring of 32. Rests on R31, R257, R260, R266, R270, R271, R294. -/
def Obligations.PointsAreBinned : Prop :=
  (∀ (s : State) (dt : Nat),
    let a := s.arrive dt
    (a.page 0x040).cond.frozen = false → (a.page 0x040).cond.safe = false → (a.page 0x040).cond.fault = false →
      (∀ f d rest fb cb, a.stagedFrame = some f → f.staged = d :: rest → f.fineBank = some fb → f.coarseBank = some cb →
        let r := (a.updFrame f.num (fun f => { f with staged := rest })).fetch (a.stageAddr d.slot) 16
        exec (.pointAccept dt) s
          = .next ((if r.1.poison then r.2.sepFault else r.2).binPoint { f with staged := rest } fb cb d)) ∧
      (∀ d rest, a.stagedFrame = none → a.sep.inbox = d :: rest →
        let b := a.updSep (fun q => { q with inbox := rest })
        (∀ f, b.acceptsPoints d.frame = true → b.liveFrame d.frame = some f → f.sepOff = false →
          (b.sep.exclude = true → bitOf d.pt.pflags 0 = true → exec (.pointAccept dt) s
            = .next ((b.updFrame f.num (fun f => { f with excluded := f.excluded + 1 })).bump F.SEP_EXCLUDED_CNT)) ∧
          (b.sep.exclude = false ∨ bitOf d.pt.pflags 0 = false →
            (∀ fb cb, f.fineBank = some fb → f.coarseBank = some cb → exec (.pointAccept dt) s = .next (b.binPoint f fb cb d)) ∧
            (f.fineBank = none ∨ f.coarseBank = none → exec (.pointAccept dt) s = .next (b.stagePoint f d)))) ∧
        (b.acceptsPoints d.frame = false → b.windowOver d.frame = true → exec (.pointAccept dt) s = .next (b.latePoint d)))) ∧
  (∀ (s : State) (f : Frame) (fb cb : Nat) (x y z : Int) (p : PointRec), s.sep.cell0 x y z = none →
    s.binCoords f fb cb x y z p = (s.updFrame f.num (fun f => { f with outOfGrid := f.outOfGrid + 1 })).bump F.SEP_OUT_OF_GRID_CNT) ∧
  (∀ (s : State) (dt w : Nat),
    let b := s.arriveBy dt w
    let bytes := (List.range 8).flatMap (fun k => leBytes 4 (b.cell (R.SEP_POSE_STAGE k)).toNat)
    let p := poseOf bytes
    (b.admits 0x041 0x60 w 1 = true → leNat (bytes.drop 0x1C) = 0 →
      (p.normOk = true → (∀ q ∈ b.sep.poses.getLast?, q.ts < p.ts) →
        ∃ t, exec (.posePush dt w) s = .next t ∧ t.sep.poses = (b.sep.poses ++ [p]).drop (if 32 < b.sep.poses.length + 1 then 1 else 0) ∧
          t.mem = b.mem ∧ (t.page 0x041).lastWriter = w) ∧
      (p.normOk = false ∨ (∃ q, b.sep.poses.getLast? = some q ∧ p.ts ≤ q.ts) →
        exec (.posePush dt w) s = .next ((b.bump F.SEP_POSE_REJECT_CNT).wrote 0x041 w))) ∧
    (b.admits 0x041 0x60 w 2 = true →
      ∃ t, exec (.poseClear dt w) s = .next t ∧ t.sep.poses = [] ∧ t.mem = b.mem ∧ t.frm = b.frm ∧ (t.page 0x041).lastWriter = w))

/-- The key of a site at every level gives back its indices, so two cells of one level never share a key. Rests on R266, R267, R268. -/
def Obligations.SiteKeysNameCells : Prop :=
  ∀ (q : Sep) (x y z : Int) (c : Cell0) (k : Nat), q.cell0 x y z = some c → k ≤ 3 →
    let d := c.at k
    let key := packKey d.ix d.iy d.iz
    key < 2 ^ 32 ∧ keyX key = d.ix ∧ keyY key = d.iy ∧ keyZ key = d.iz ∧
    (∀ x' y' z' c', q.cell0 x' y' z' = some c' →
      packKey (c'.at k).ix (c'.at k).iy (c'.at k).iz = key → (c'.at k).ix = d.ix ∧ (c'.at k).iy = d.iy ∧ (c'.at k).iz = d.iz)

/-- LANE_CFG_WRITE, LANE_RELOAD, VGA_SET, CTF_SET: lane configuration, zone loads, gain steps and filter changes. Rests on R163, R173, R174, R175, R177, R182, R199. -/
def Obligations.LaneLoadsItsZone : Prop :=
  (∀ (s : State) (dt n w : Nat) (v : Word), n < 8 →
    let b := s.arriveBy dt w
    let c := b.wrote (ctlPage n) w
    (b.admitsRwl (ctlPage n) 0x40 w v = true → exec (.laneCfgWrite dt n w v) s = .next (c.laneCfg n v) ∧
      (b.laneRuns n = false → (b.page (ctlPage n)).enable = false → (b.page (ctlPage n)).cond.waiting = false →
        (c.laneCfg n v).fld (F.SLK_LANE_CFG_MODE n) = getBits v 1 0 ∧ (c.laneCfg n v).fld (F.SLK_LANE_CFG_RING n) = getBits v 5 4 ∧
          (c.laneCfg n v).hdr = c.hdr ∧ (c.laneCfg n v).mem = b.mem) ∧
      ((b.page (ctlPage n)).enable = true → (b.page (ctlPage n)).cond = {} → b.lockStops (ctlPage n) = false →
        b.fld (F.SLK_LANE_CFG_MODE n) = 0 → getBits v 1 0 ≠ 0 → b.blockedBy (ctlPage n) [phyRes n] = [] →
          (c.laneCfg n v).pstate (ctlPage n) = St.running ∧ (c.laneCfg n v).flag (F.SLK_LANE_STATUS_ACQ n) = true ∧
          (c.laneCfg n v).flag (F.SLK_LANE_STATUS_INVALID n) = true ∧
          (c.laneCfg n v).fld (F.SLK_LANE_STATUS_ZONE n) = if getBits v 1 0 = 1 then getBits v 5 4 else 4)) ∧
    (b.admits (ctlPage n) 0x48 w v = true → getBits v 0 0 = 1 → b.laneRuns n = true → exec (.laneReload dt n w v) s = .next (c.zoneLoad n)) ∧
    (b.admits (ctlPage n) 0x48 w v = true → getBits v 0 0 = 0 ∨ b.laneRuns n = false → exec (.laneReload dt n w v) s = .next c) ∧
    (b.admits (afePage n) 0x48 w v = true →
      ∃ t, exec (.vgaSet dt n w v) s = .next t ∧ t.fld (F.SLK_AFE_LIVE_VGA_CODE n) = getBits v 7 0 ∧ t.mem = b.mem ∧
        t.fld (F.SLK_ANALOG_STEP_CNT n) = min (2 ^ 32 - 1) (b.fld (F.SLK_ANALOG_STEP_CNT n) + 1) ∧
        (t.page (afePage n)).lastWriter = w ∧ (t.page (afePage n)).eventRaw.getLsbD 1 = true ∧
        (b.laneRuns n = true → t.flag (F.SLK_LANE_STATUS_INVALID n) = true ∧
          (t.lane n).ch.winLeft = max 32 (b.lane n).ch.winLeft)) ∧
    (b.admits (afePage n) 0x4C w v = true →
      ∃ t, exec (.ctfSet dt n w v) s = .next t ∧ t.fld (F.SLK_CTF_LIVE_FC n) = getBits v 5 0 ∧ t.fld (F.SLK_CTF_LIVE_BOOST n) = getBits v 12 8 ∧
        t.mem = b.mem ∧ (t.page (afePage n)).lastWriter = w ∧
        (b.laneRuns n = true → t.flag (F.SLK_LANE_STATUS_INVALID n) = true ∧
          (t.lane n).ch.winLeft = max 64 (b.lane n).ch.winLeft))) ∧
  (∀ (s : State) (n z : Nat), n < 8 → z < 5 →
    let t := s.zoneLoadOf n z
    t.cell (R.SLK_AFE_LIVE n) = s.cell (zoneReg n z 0) ∧ t.cell (R.SLK_CTF_LIVE n) = s.cell (zoneReg n z 4) ∧
      t.cell (R.SLK_FIR_LIVE n 0) = s.cell (zoneReg n z 0xC) ∧ t.cell (R.SLK_FIR_LIVE n 1) = s.cell (zoneReg n z 0x10) ∧
      t.fld (F.SLK_DGAIN_GAIN n) = 256 ∧ t.fld (F.SLK_FREQ_PPB_FREQ n) = 0 ∧ t.fld (F.SLK_LANE_STATUS_ZONE n) = z ∧
      (t.lane n).ch.loops = s.zoneLoops n z ∧ (t.lane n).ch.acqValid = 0 ∧
      (s.laneRuns n = true → (t.lane n).ch.winLeft = max 256 (s.lane n).ch.winLeft ∧ t.flag (F.SLK_LANE_STATUS_INVALID n) = true) ∧
      t.flag (F.SLK_TIMING_READY n) = false ∧ t.flag (F.SLK_LANE_STATUS_ACQ n) = true ∧ t.flag (F.SLK_LANE_STATUS_TRACK n) = false ∧
      t.fld (F.SLK_SERVO_STATUS_STATE n) = 0 ∧ t.mem = s.mem)

/-- ACQ_GAIN_CHECK, ACQUISITION_END, TRACKING_GAIN_STEP, INVALID_WINDOW_END, DEFECT_REGION_END, LOS and timing events. Rests on R173, R177, R181, R182, R199, R203, R204, R208. -/
def Obligations.LaneAcquiresAndTracks : Prop :=
  ∀ (s : State) (dt n : Nat) (rx : List RxSym), n < 8 →
    let a := s.arriveRx dt n rx
    let l := (a.lane n).ch
    (a.acquiring n = true → l.acqChecked = false → 16 ≤ l.acqValid →
      (beyondDb l.acqSum (a.fld (F.SLK_AGC_CFG_AGC_TARGET n)) = false → ∃ t, exec (.acqGainCheck dt n rx) s = .next t ∧
        (t.lane n).ch.acqChecked = true ∧ t.regs = a.regs ∧ t.hdr = a.hdr ∧ t.mem = a.mem) ∧
      (beyondDb l.acqSum (a.fld (F.SLK_AGC_CFG_AGC_TARGET n)) = true → ∃ t, exec (.acqGainCheck dt n rx) s = .next t ∧
        (t.lane n).ch.acqChecked = true ∧ t.fld (F.SLK_AFE_LIVE_VGA_CODE n) ≤ 160 ∧ t.mem = a.mem ∧
        t.fld (F.SLK_ANALOG_STEP_CNT n) = min (2 ^ 32 - 1) (a.fld (F.SLK_ANALOG_STEP_CNT n) + 1) ∧
        (t.page (afePage n)).eventRaw.getLsbD 1 = true ∧ (a.laneRuns n = true → (t.lane n).ch.winLeft = max 32 l.winLeft))) ∧
    (a.acquiring n = true → l.acqChecked = true → 80 ≤ l.acqValid →
      ∃ t, exec (.acquisitionEnd dt n rx) s = .next t ∧ t.flag (F.SLK_LANE_STATUS_ACQ n) = false ∧ t.flag (F.SLK_LANE_STATUS_TRACK n) = true ∧
        t.slk = a.slk ∧ a.SameRegs t [R.SLK_LANE_STATUS n] ∧ t.hdr = a.hdr ∧ t.mem = a.mem) ∧
    (l.acqValid < 16 → exec (.acqGainCheck dt n rx) s = .next a) ∧
    (l.acqValid < 80 → exec (.acquisitionEnd dt n rx) s = .next a) ∧
    (let c := a.fld (F.SLK_AFE_LIVE_VGA_CODE n)
     (a.stepDue n = true →
      ∃ t, exec (.trackingGainStep dt n rx) s = .next t ∧ t.fld (F.SLK_DGAIN_GAIN n) = 256 ∧ (t.lane n).ch.sinceStep = 0 ∧
        t.fld (F.SLK_ANALOG_STEP_CNT n) = min (2 ^ 32 - 1) (a.fld (F.SLK_ANALOG_STEP_CNT n) + 1) ∧
        (a.fld (F.SLK_DGAIN_GAIN n) = 512 → t.fld (F.SLK_AFE_LIVE_VGA_CODE n) = min 160 (c + 24)) ∧
        (a.fld (F.SLK_DGAIN_GAIN n) = 128 → t.fld (F.SLK_AFE_LIVE_VGA_CODE n) = c - 24) ∧ t.mem = a.mem) ∧
     (a.stepDue n = true → a.fld (F.SLK_DGAIN_GAIN n) = 512 ∨ a.fld (F.SLK_DGAIN_GAIN n) = 128)) ∧
    (a.stepDue n = false → exec (.trackingGainStep dt n rx) s = .next a) ∧
    (a.flag (F.SLK_LANE_STATUS_INVALID n) = true →
      (l.winLeft = 0 → exec (.invalidWindowEnd dt n rx) s = .next (a.setFld (F.SLK_LANE_STATUS_INVALID n) 0)) ∧
      (l.winLeft ≠ 0 → exec (.invalidWindowEnd dt n rx) s = .next a)) ∧
    (a.laneRuns n = true →
      (∀ k rest, l.regions = k :: rest → ∃ t, exec (.defectRegionEnd dt n rx) s = .next t ∧ (t.lane n).ch.regions = rest ∧
        t.fld (F.SLK_DEFECT_CNT n) = min (2 ^ 32 - 1) (a.fld (F.SLK_DEFECT_CNT n) + 1) ∧ (t.page (afePage n)).eventRaw.getLsbD 0 = true ∧
        (256 < k → t.flag (F.SLK_LANE_STATUS_ACQ n) = true ∧ t.flag (F.SLK_LANE_STATUS_TRACK n) = false ∧ (t.lane n).ch.acqValid = 0) ∧
        (k ≤ 256 → t.cell (R.SLK_LANE_STATUS n) = a.cell (R.SLK_LANE_STATUS n)) ∧ t.mem = a.mem) ∧
      (l.regions = [] → exec (.defectRegionEnd dt n rx) s = .next a) ∧
      (a.flag (F.SLK_LANE_STATUS_LOS n) = false → 4096 ≤ l.lowRun → ∃ t, exec (.losEnter dt n rx) s = .next t ∧
        t.flag (F.SLK_LANE_STATUS_LOS n) = true ∧ t.fld (F.SLK_LOS_CNT_COUNT n) = min (2 ^ 16 - 1) (a.fld (F.SLK_LOS_CNT_COUNT n) + 1) ∧
        (t.page (ctlPage n)).eventRaw.getLsbD 0 = true ∧ (t.lane n).frag = none ∧ (t.lane n).decoding = [] ∧
        ((a.page (ctlPage n)).errCode = 0 → (t.page (ctlPage n)).errCode = 0x4003)) ∧
      (a.flag (F.SLK_LANE_STATUS_LOS n) = true ∨ l.lowRun < 4096 → exec (.losEnter dt n rx) s = .next a) ∧
      (a.flag (F.SLK_LANE_STATUS_LOS n) = true → 1024 ≤ l.highRun → exec (.losClear dt n rx) s
        = .next (((a.setFld (F.SLK_LANE_STATUS_LOS n) 0).event (ctlPage n) 1).zoneLoad n)) ∧
      (a.flag (F.SLK_LANE_STATUS_LOS n) = false ∨ l.highRun < 1024 → exec (.losClear dt n rx) s = .next a) ∧
      (a.sfld (F.SLK_FREQ_PPB_FREQ n) = 500000 ∨ a.sfld (F.SLK_FREQ_PPB_FREQ n) = -500000 → exec (.timingRange dt n rx) s
        = .next ((((a.error (ctlPage n) 0x4004 0).event (ctlPage n) 2).abandon n).zoneLoad n)))

/-- SYNC_MARK_FOUND, FRAGMENT_HEADER, SYNC_WINDOW_CLOSE, SECTOR_DECODE_DONE: a sector from its sync mark to its decode. Rests on R170, R195, R196, R197, R205, R216, R217, R219, R221, R223, R225. -/
def Obligations.SectorsReceived : Prop :=
  ∀ (s : State) (dt n : Nat) (rx : List RxSym), n < 8 →
    let a := s.arriveRx dt n rx
    let l := a.lane n
    (a.captures n = true → a.flag (F.SLK_LANE_STATUS_TRACK n) = true → a.flag (F.SLK_LANE_STATUS_IN_GAP n) = false → l.frag = none →
      (a.markFound n = true → l.secondOpen = false ∨ l.open1 = [] → l.buffers < 2 → a.slotsUsed < 204 →
        exec (.syncMarkFound dt n rx) s = .next (a.updLane n (fun l => { l with frag := some (a.newFrag n true false), hit1 := true }))) ∧
      (a.markFound n = true → l.secondOpen = true → l.open1 ≠ [] → exec (.syncMarkFound dt n rx) s
        = .next (a.updLane n (fun l => { l with frag := some (a.newFrag n false true), hit1 := true, hit2 := true }))) ∧
      (a.markFound n = false → exec (.syncMarkFound dt n rx) s = .next a)) ∧
    (a.newFrag n true false).at_ = a.cycles ∧ (a.newFrag n true false).first = l.ch.decNo + 1 ∧
    (∀ f copies, l.frag = some f → f.sector = none → l.ch.copies f.first = some copies →
      let c := a.updLane n (fun l => { l with frag := none })
      (f.second = false →
        (∀ h, firstHdr copies 0 = some h → h.frag = false → h.split = false ∨ a.flag (F.SLK_TIMING_READY n) = true →
          exec (.fragmentHeader dt n rx) s = .next (c.openSector n f h)) ∧
        (firstHdr copies 0 = none → a.flag (F.SLK_TIMING_READY n) = true → f.closed = none → exec (.fragmentHeader dt n rx) s = .next c) ∧
        (∀ q fr, firstHdr copies 0 = none → a.flag (F.SLK_TIMING_READY n) = true → f.closed = some (q, fr) →
          exec (.fragmentHeader dt n rx) s = .next (c.loseBare n 5 q fr))) ∧
      (∀ x h, f.second = true → joinOf l.open1 copies = some (x, h) →
        x ∈ l.open1 ∧ firstHdr copies x.firstLen = some h ∧ h.split = true ∧ h.frag = true ∧ h.seq = x.seq ∧
        ∃ t, exec (.fragmentHeader dt n rx) s = .next t ∧ t.regs = a.regs ∧ t.hdr = a.hdr ∧ t.mem = a.mem ∧
          t = (c.updLane n (fun l => { l with open1 := l.open1.filter (fun y => y.seq != x.seq) })).updLane n (fun l =>
            l.headerRead { f with sector := some x, body := { f.body with len := h.bodyLen } } (a.cell (R.SLK_DEC_CFG n)).toNat))) ∧
    (∀ f, l.frag = some f → l.ch.copies f.first = none → exec (.fragmentHeader dt n rx) s = .next a) ∧
    (∀ k, a.flag (F.SLK_TIMING_READY n) = true →
      (∀ z, l.secNow = some k → a.windowEndAt n k = some z → z ≤ a.timebase →
        let q := a.closedSeq n k
        let c := sectorsPerRev (a.fld (F.SLK_LANE_CFG_RING n))
        let b := a.updLane n (fun l => { l with hit1 := false, got1 := false, secNow := some ((k + 1) % c) })
        (l.got1 = true → exec (.syncWindowClose dt n rx false k) s = .next b) ∧
        (l.got1 = false → l.hit1 = false → a.laneRuns n = true → a.lanePaused n = false → exec (.syncWindowClose dt n rx false k) s
          = .next ((((b.error (decPage n) 0x4005 0).event (decPage n) 1).bump (F.SLK_SYNC_MISS_CNT n)).loseBare n 5 q
              (((b.error (decPage n) 0x4005 0).event (decPage n) 1).bump (F.SLK_SYNC_MISS_CNT n)).chargeFrame))) ∧
      (l.secNow ≠ some k → exec (.syncWindowClose dt n rx false k) s = .next a) ∧
      (l.secondOpen = true → l.secondAt + 2000 ≤ a.timebase → l.hit2 = true → l.frag = none →
        exec (.syncWindowClose dt n rx true k) s = .next ((a.updLane n (fun l => { l with secondOpen := false })).loseSplit n)) ∧
      (l.secondOpen = false ∨ a.timebase < l.secondAt + 2000 → exec (.syncWindowClose dt n rx true k) s = .next a)) ∧
    (l.decoding = [] → exec (.sectorDecodeDone dt n rx) s = .next a) ∧
    (∀ x rest, l.decoding = x :: rest → a.injected 0x0D n = none →
      let o := a.sectorOut n x
      let b := (a.updLane n (fun l => { l with decoding := rest, tail := if rest.isEmpty && !l.tailOpen then 0 else l.tail })).bumpBy
        (F.SLK_ERASED_CNT n) (erasedCount (a.sectorFrags n x))
      let c := b.countDecode n (o.unsat == 0) o.unsat o.globals o.locals o.total
      exec (.sectorDecodeDone dt n rx) s
        = .next (if o.unsat = 0 ∧ goodPayload o.cw = true then c.decoded n x (userBytes o.cw) false else c.decodeFailed n x) ∧
      c.fld (F.SLK_ERASED_CNT n) = min (2 ^ 32 - 1) (a.fld (F.SLK_ERASED_CNT n) + erasedCount (a.sectorFrags n x)) ∧
      c.flag (F.SLK_DEC_LAST_OK n) = decide (o.unsat = 0) ∧
      c.fld (F.SLK_DEC_OK_CNT n) = min (2 ^ 32 - 1) (a.fld (F.SLK_DEC_OK_CNT n) + if o.unsat = 0 then 1 else 0) ∧
      c.fld (F.SLK_DEC_FAIL_CNT n) = min (2 ^ 32 - 1) (a.fld (F.SLK_DEC_FAIL_CNT n) + if o.unsat = 0 then 0 else 1))

/-- IN_GAP_OPEN, INDEX_FIELD_LOCATED, INDEX_MISS, RETRY_STEP_START, RETRY_STEP_DONE, RETRY_DEADLINE. Rests on R212, R213, R215, R226, R227, R229, R230, R253. -/
def Obligations.IndexAndLadder : Prop :=
  (∀ (s : State) (dt n : Nat) (rx : List RxSym), n < 8 →
    let a := s.arriveRx dt n rx
    a.laneRuns n = true →
    (a.flag (F.SLK_TIMING_READY n) = true →
      (a.gapDue n = true → exec (.inGapOpen dt n rx) s = .next (a.setFld (F.SLK_LANE_STATUS_IN_GAP n) 1)) ∧
      (a.gapDue n = false → exec (.inGapOpen dt n rx) s = .next a) ∧
      (a.flag (F.SLK_LANE_STATUS_IN_GAP n) = true → a.gapOver n = true → ∃ t, exec (.indexMiss dt n rx) s = .next t ∧
        t.flag (F.SLK_LANE_STATUS_IN_GAP n) = false ∧ (t.page (ctlPage n)).eventRaw.getLsbD 5 = true ∧
        t.fld (F.SLK_INDEX_MISS_CNT n) = min (2 ^ 32 - 1) (a.fld (F.SLK_INDEX_MISS_CNT n) + 1) ∧
        ((a.page (ctlPage n)).errCode = 0 → (t.page (ctlPage n)).errCode = 0x4006) ∧
        ((a.lane n).idxMiss < 7 → t.flag (F.SLK_TIMING_READY n) = true ∧ (t.lane n).idxMiss = (a.lane n).idxMiss + 1 ∧
          t.fld (F.SLK_REV_PERIOD_NS_PERIOD n) = a.fld (F.SLK_REV_PERIOD_NS_PERIOD n) ∧
          (∀ i, (a.lane n).idxLast = some i → (t.lane n).idxLast = some ((i + 1) % 8) ∧
            ((t.lane n).idxRec ((i + 1) % 8)).ts = a.predicted n)) ∧
        (7 ≤ (a.lane n).idxMiss → t.flag (F.SLK_TIMING_READY n) = false ∧ t.fld (F.SLK_SERVO_STATUS_STATE n) = 0 ∧
          (t.lane n).idxLast = none)) ∧
      (a.flag (F.SLK_LANE_STATUS_IN_GAP n) = false ∨ a.gapOver n = false → exec (.indexMiss dt n rx) s = .next a)) ∧
    (∀ z, a.rotary n = true → a.indexMark n = true →
      a.flag (F.SLK_TIMING_READY n) = false ∨ a.flag (F.SLK_LANE_STATUS_IN_GAP n) = true →
      ((a.lane n).ch.burst.find? burstValid = none → ∃ t, exec (.indexFieldLocated dt n rx z) s = .next t ∧ (t.lane n).idxRun = 0 ∧
        t.flag (F.SLK_LANE_STATUS_IN_GAP n) = false ∧ t.flag (F.SLK_LANE_STATUS_ACQ n) = true ∧
        t.cell (R.SLK_INDEX_WORD n) = a.cell (R.SLK_INDEX_WORD n) ∧ t.mem = a.mem) ∧
      (∀ wd, (a.lane n).ch.burst.find? burstValid = some wd →
        let b := (a.acceptBurst n wd z).fieldEnd n
        (b.flag (F.SLK_TIMING_READY n) = true → exec (.indexFieldLocated dt n rx z) s = .next (b.servoUpdate n z (natBits wd 15 0))) ∧
        (b.flag (F.SLK_TIMING_READY n) = false → exec (.indexFieldLocated dt n rx z) s = .next b) ∧
        b.cell (R.SLK_INDEX_WORD n) = word (wd % 2 ^ 32) ∧ b.fld (F.SLK_INDEX_TS_LO_TS n) = z % 2 ^ 32 ∧
        b.fld (F.SLK_INDEX_TS_HI_TS n) = z / 2 ^ 32 % 2 ^ 32 ∧ b.flag (F.SLK_LANE_STATUS_IN_GAP n) = false ∧
        ((b.lane n).idxRec (natBits wd 26 24)).ts = z ∧ ((b.lane n).idxRec (natBits wd 26 24)).located = true ∧
        (a.flag (F.SLK_TIMING_READY n) = true → ((a.lane n).idxRec (natBits wd 26 24)).located = true →
          b.fld (F.SLK_REV_PERIOD_NS_PERIOD n) = (z - ((a.lane n).idxRec (natBits wd 26 24)).ts) % 2 ^ 32))) ∧
    (∀ z, a.indexMark n = false → exec (.indexFieldLocated dt n rx z) s = .next a)) ∧
  (∀ (s : State) (dt n seq : Nat) (x : Sector), n < 8 →
    let a := s.arrive dt
    a.slk.onLadder.find? (fun y => y.1 == n && y.2.seq == seq) = some (n, x) →
      (a.overdue n x = true → exec (.retryDeadline dt n seq) s = .next ((a.leaveLadder n seq).loseSector n 2 x)) ∧
      (a.overdue n x = false → exec (.retryDeadline dt n seq) s = .next a)) ∧
  (∀ (s : State) (dt e n : Nat) (x : Sector) (rest : List (Nat × Sector)), e < 2 →
    let a := s.arrive dt
    (a.slk.engine e = none → a.pickLadder a.slk.ladder = some ((n, x), rest) →
      let b := a.updSlk (fun k => { k with ladder := rest })
      (b.overdue n x = true → exec (.retryStepStart dt e) s = .next ((b.setEngine e none).loseSector n 2 x)) ∧
      (b.overdue n x = false → b.nextStep n x.step = none → exec (.retryStepStart dt e) s = .next ((b.setEngine e none).loseSector n 1 x)) ∧
      (∀ k, b.overdue n x = false → b.nextStep n x.step = some k → exec (.retryStepStart dt e) s
        = .next ((b.setEngine e (some (n, { x with step := k, stepAt := b.cycles }))).bump (F.SLK_RETRY_STEP_CNT n)))) ∧
    (a.slk.engine e = none → a.slk.ladder = [] → exec (.retryStepStart dt e) s = .next a) ∧
    (∀ z, a.slk.engine e = some (n, x) →
      let cw := (a.stepOut n x z).cw
      let b := a.chargeNs n x (stepNs x.step)
      (b.overdue n x = true → exec (.retryStepDone dt e z) s = .next ((b.setEngine e none).loseSector n 2 x)) ∧
      (b.overdue n x = false → b.nextStep n x.step = none → exec (.retryStepDone dt e z) s
        = .next (if goodPayload cw then (b.setEngine e none).decoded n x (userBytes cw) true else (b.setEngine e none).loseSector n 1 x)) ∧
      (∀ k, b.overdue n x = false → b.nextStep n x.step = some k → exec (.retryStepDone dt e z) s
        = .next (if goodPayload cw then (b.setEngine e none).decoded n x (userBytes cw) true
            else (b.setEngine e (some (n, { x with step := k, stepAt := b.cycles }))).bump (F.SLK_RETRY_STEP_CNT n)))))

/-- DL_SEND, DOWNLINK_TX_START, DOWNLINK_TX_DONE, INHIBIT_WAIT_EXPIRE: messages queue, wait while inhibited, and are sent. Rests on R234, R241, R242, R243, R244, R252. -/
def Obligations.DownlinkMessages : Prop :=
  ∀ (s : State) (dt n : Nat), n < 8 →
    (∀ w v, let b := s.arriveBy dt w
      b.admits (dlPage n) 0x5C w v = true → getBits v 0 0 = 1 → b.fld (F.SLK_DL_TX_HDR_LEN n) ≤ 256 →
        ((b.lane n).dlQueue.length < 4 →
          ∃ t, exec (.dlSend dt n w v) s = .next t ∧ (t.lane n).dlQueue = (b.lane n).dlQueue ++
              [{ typ := b.fld (F.SLK_DL_TX_HDR_TYPE n), seq := (b.lane n).dlSeq, payload := b.dlStaged n (b.fld (F.SLK_DL_TX_HDR_LEN n)), job := none }] ∧
            (t.lane n).dlSeq = ((b.lane n).dlSeq + 1) % 256 ∧ t.fld (F.SLK_DL_TX_STATUS_LAST_SEQ n) = (b.lane n).dlSeq % 256 ∧
            t.fld (F.SLK_DL_TX_STATUS_QUEUED n) = (b.lane n).dlQueue.length + 1 ∧ t.mem = b.mem ∧ (t.page (dlPage n)).lastWriter = w) ∧
        (4 ≤ (b.lane n).dlQueue.length → exec (.dlSend dt n w v) s
          = .next ((b.error (dlPage n) 0xA007 0).setFld (F.SLK_DL_TX_STATUS_LAST_RESULT n) 2))) ∧
    (let a := s.arrive dt
     (a.lane n).wire = none → (a.lane n).idleAt ≤ a.cycles → a.lanePaused n = false →
      (∀ m, (a.lane n).tickDue = some m → exec (.downlinkTxStart dt n) s = .next (a.startTick n m)) ∧
      (∀ x, (a.lane n).tickDue = none → (a.lane n).trimDue = some x → a.fld (F.SLK_SERVO_STATUS_STATE n) ≠ 3 →
        ∃ t, exec (.downlinkTxStart dt n) s = .next t ∧ (t.lane n).trimDue = none ∧ (t.lane n).dlSeq = ((a.lane n).dlSeq + 1) % 256 ∧
          (t.lane n).wire = some { typ := 0x10, seq := (a.lane n).dlSeq, payload := leBytes 4 (unsigned 32 x) } ∧
          t.regs = a.regs ∧ t.hdr = a.hdr ∧ t.mem = a.mem) ∧
      (∀ m rest, (a.lane n).tickDue = none → (a.lane n).trimDue = none → (a.lane n).dlQueue = m :: rest →
        (isWriteType m.typ = true → a.dlInhibited n = true → exec (.downlinkTxStart dt n) s = .next (a.noteWait n)) ∧
        (isWriteType m.typ = false ∨ a.dlInhibited n = false →
          ∃ t, exec (.downlinkTxStart dt n) s = .next t ∧ (t.lane n).wire = some m ∧ (t.lane n).dlQueue = rest ∧
            t.fld (F.SLK_DL_TX_STATUS_QUEUED n) = rest.length % 8 ∧ t.mem = a.mem ∧ t.hdr = a.hdr))) ∧
    (let a := s.arrive dt
     ∀ m, (a.lane n).wire = some m → (a.lane n).wireAt + m.cycles ≤ a.cycles → m.job = none → (a.lane n).tickDue = none →
      ∃ t, exec (.downlinkTxDone dt n) s = .next t ∧ (t.lane n).wire = none ∧ (t.lane n).idleAt = a.cycles + 128 ∧
        t.fld (F.SLK_DL_SENT_CNT n) = min (2 ^ 32 - 1) (a.fld (F.SLK_DL_SENT_CNT n) + 1) ∧ (t.page (dlPage n)).eventRaw.getLsbD 3 = true ∧
        (t.lane n).dlQueue = (a.lane n).dlQueue ∧ t.mem = a.mem) ∧
    (let a := s.arrive dt
     ∀ m rest z, (a.lane n).dlQueue = m :: rest → (a.lane n).waitAt = some z → m.job = none → isWriteType m.typ = true → a.dlInhibited n = true →
      (200000 * a.fld (F.SLK_INHIBIT_WAIT_INHIBIT_WAIT_MS n) ≤ (a.lane n).waited + (a.cycles - z) →
        ∃ t, exec (.inhibitWaitExpire dt n) s = .next t ∧ (t.lane n).dlQueue = rest ∧ t.fld (F.SLK_DL_TX_STATUS_LAST_RESULT n) = 1 ∧
          t.fld (F.SLK_DL_INHIBIT_CNT n) = min (2 ^ 32 - 1) (a.fld (F.SLK_DL_INHIBIT_CNT n) + 1) ∧
          (t.page (dlPage n)).eventRaw.getLsbD 2 = true ∧ t.mem = a.mem) ∧
      ((a.lane n).waited + (a.cycles - z) < 200000 * a.fld (F.SLK_INHIBIT_WAIT_INHIBIT_WAIT_MS n) → exec (.inhibitWaitExpire dt n) s = .next a))

/-- HRV_ARGMAX, HRV_TOPK_STREAM, HRV_TOPK_BUCKET, HRV_FPS_STEP, HRV_REQUEST_DONE: a Harvest request is served and completes. Rests on R298, R299, R300, R301, R305, R306, R307, R328. -/
def Obligations.HarvestServes : Prop :=
  (∀ (s : State) (dt op : Nat) (c : Instr),
    (op, c) ∈ [(0, .hrvArgmax dt), (1, .hrvTopkStream dt), (2, .hrvTopkBucket dt), (3, .hrvFpsStep dt)] →
    let a := s.arrive dt
    (∀ r, a.hrv.service = some r → exec c s = .next a) ∧
    (a.hrv.queue = [] → exec c s = .next a) ∧
    (∀ q rest, a.hrv.service = none → a.hrv.queue = q :: rest → (a.page 0x050).enable = true → a.mayWork 0x050 = true →
      (a.page 0x050).cond.fault = false →
      let f := (a.asAgent .hrv).fetch q.desc 64
      let d := hrvDesc f.1.bytes
      (∀ code, (if f.1.code ≠ 0 then some f.1.code else if f.1.poison then some 0x5012 else (hrvFault f.1.bytes).map (·.2)) = some code →
        ∃ t, exec c s = .next t ∧ t.hrv.service = some { req := q, op := d.op, code := code, rejected := true } ∧
          (t.page 0x050).cond.running = true ∧ (a.hrv.held = [] → t.hrv.queue = rest) ∧ (a.readsClean = true → a.SameBytes t)) ∧
      (f.1.code = 0 → f.1.poison = false → hrvFault f.1.bytes = none → d.op = op → d.payKind ≠ 2 →
        let x := f.2.hrvRows q d (List.range d.rowCount)
        x.1.2 = false → x.2.grf.miss = false →
          ∃ t r, exec c s = .next t ∧ t.hrv.service = some r ∧ r.req = q ∧ r.op = op ∧ r.rejected = false ∧ r.rows = x.1.1 ∧
            r.rows.length = d.rowCount ∧ r.issued = false ∧ ((∀ y ∈ x.1.1, y.status = 0) → r.code = 0) ∧
            (r.code ≠ 0 → ∃ y ∈ x.1.1, y.status = r.code) ∧ ((∃ y ∈ x.1.1, y.status = 0x5012) → r.code = 0x5012)))) ∧
  (∀ (s : State) (dt : Nat),
    let a := s.arrive dt
    (a.hrv.service = none → exec (.hrvRequestDone dt) s = .next a) ∧
    (∀ r, a.hrv.service = some r → (if r.issued then a.asAgent .hrv else (a.asAgent .hrv).hrvIssue r).awaits .hrv = true →
      exec (.hrvRequestDone dt) s = .next (if r.issued then a.asAgent .hrv else (a.asAgent .hrv).hrvIssue r)) ∧
    (∀ r, a.hrv.service = some r → r.rows = [] → r.req.tile = false → a.awaits .hrv = false → a.answerCode .hrv = 0 →
      ∃ t, exec (.hrvRequestDone dt) s = .next t ∧ t.hrv.service = none ∧ t.hrv.queue = a.hrv.queue ∧ t.mem = a.mem ∧
        t.fld F.HRV_REQ_CNT = min (2 ^ 32 - 1) (a.fld F.HRV_REQ_CNT + 1) ∧
        (r.code ≠ 0 → t.fld F.HRV_REQ_ERR_CNT = min (2 ^ 32 - 1) (a.fld F.HRV_REQ_ERR_CNT + 1) ∧
          t.fld F.HRV_LAST_ERR_CODE = r.code % 2 ^ 16 ∧ (t.page 0x050).eventRaw.getLsbD 0 = true) ∧
        (r.code = 0 → t.fld F.HRV_REQ_ERR_CNT = a.fld F.HRV_REQ_ERR_CNT))) ∧
  (∀ (d : HrvDesc) (v : Nat) (l : List Key),
    (d.op = 1 →
      let p := pickRow d v l
      p.keys.length = min d.k l.length ∧ (∀ x ∈ p.keys, x ∈ l) ∧ p.keys.Pairwise (fun x y => y.rank ≤ x.rank) ∧
        (∀ x ∈ l, x ∉ p.keys → ∀ y ∈ p.keys, x.rank ≤ y.rank)) ∧
    (d.op = 2 → 1 ≤ d.k → d.k ≤ l.length →
      let p := pickRow d v l
      p.above = (l.filter (fun x => Nat.blt p.thr (bucketOf x.rank))).length ∧ p.above < d.k ∧ d.k ≤ p.above + p.atThr))

/-- SCV_SUBM, SCV_STRIDED, SCV_INVERSE, BEV_SCATTER: a running stage computes chunks, makes its set, or scatters. Rests on R330, R338, R339, R340, R350, R353, R354, R361. -/
def Obligations.ConvolutionsRun : Prop :=
  (∀ (s : State) (dt n : Nat) (chunks : List Nat),
    let a := s.arrive dt
    (∀ r c, a.convStage n 0 = some (r, c) →
      exec (.scvSubm dt n chunks) s = .next (a.byAgent (.stage n) (fun u => (u.touch r.desc 64).convChunks c r (u.sitesOf c.inSet) chunks))) ∧
    (∀ r c, a.convStage n 1 = some (r, c) → exec (.scvStrided dt n chunks) s
      = .next (a.byAgent (.stage n) (fun u =>
        ((u.touch r.desc 64).makeSet c r).convChunks c r (((u.touch r.desc 64).makeSet c r).sitesOf c.outSet) chunks))) ∧
    (∀ r c, a.convStage n 2 = some (r, c) →
      exec (.scvInverse dt n chunks) s = .next (a.byAgent (.stage n) (fun u => (u.touch r.desc 64).convChunks c r (u.sitesOf c.outSet) chunks))) ∧
    (∀ r, a.runStage n = some r → r.kind = 2 → r.unitDone = false → r.stopped = false → (a.page 0x060).cond.fault = false →
      (a.page 0x060).cond.frozen = false →
      let t := ((a.asAgent (.stage n)).touch r.desc 64).bevScatter (bevDesc ((a.asAgent (.stage n)).read r.desc 64).bytes) r
      (t.grf.miss = false → exec (.bevScatter dt n) s = .next (t.dropReads (.stage n)) ∧
        ∀ x, (t.dropReads (.stage n)).runStage n = some x → x.unitDone = true) ∧
      (t.grf.miss = true → exec (.bevScatter dt n) s = .next a)) ∧
    (a.runStage n = none ∨ (a.page 0x060).cond.frozen = true → exec (.scvSubm dt n chunks) s = .next a ∧ exec (.scvStrided dt n chunks) s = .next a ∧
      exec (.scvInverse dt n chunks) s = .next a ∧ exec (.bevScatter dt n) s = .next a)) ∧
  (∀ (s : State) (c : ConvDesc) (r : RunStage),
    (∀ d, s.derived c.outSet = some d → s.makeSet c r = s) ∧
    (s.derived c.outSet = none →
      ∃ d, (s.makeSet c r).scv.sets = s.scv.sets ++ [d] ∧ d.id = c.outSet ∧ d.parent = c.inSet ∧ d.stage = r.stage ∧ d.quota = c.quota ∧
        d.ex = ceilDiv (s.geoOf r.level c.inSet).ex c.sx ∧ d.ey = ceilDiv (s.geoOf r.level c.inSet).ey c.sy ∧
        d.ez = ceilDiv (s.geoOf r.level c.inSet).ez c.sz ∧ (d.sites.map (·.key)).Nodup ∧
        (∀ x ∈ d.sites, x.part = partitionOf s.tileCount x.key ∧ x.rank < c.quota * 1024 ∧ x.index = c.quota * 1024 * x.part + x.rank ∧
          ∃ y ∈ s.sitesOf c.inSet, x.key = packKey (keyX y.key / c.sx) (keyY y.key / c.sy) (keyZ y.key / c.sz)) ∧
        (s.makeSet c r).mem = s.mem ∧ (s.makeSet c r).frm = s.frm))

/-- TILE_MATMUL, TILE_DCONV, TILE_VEC, TILE_REDUCE, TILE_DMA, TILE_GATHER: an op issues, computes and goes into flight. Rests on R385, R386, R387, R388, R389, R390, R405. -/
def Obligations.TileOpsIssue : Prop :=
  ∀ (s : State) (dt n opc unit : Nat) (c : Instr) (f : State → RunStage → Nat → TileOp → OpOut × State),
    (c, opc, unit, f) ∈ [(Instr.tileMatmul dt n, 1, 0, fun s r j o => s.opMatmul r n j o), (.tileDconv dt n, 2, 0, fun s r j o => s.opDconv r n j o),
      (.tileVec dt n, 3, 1, fun s r j o => s.opVec r n j o), (.tileReduce dt n, 4, 1, fun s r j o => s.opReduce r n j o),
      (.tileDma dt n, 5, 2, fun s r j o => s.opDma r n j o), (.tileGather dt n, 6, 2, fun s r j o => s.opGather r n j o)] →
    let a := s.arrive dt
    (a.issueOp n opc = none → exec c s = .next a) ∧
    (∀ r j o, a.issueOp n opc = some (r, j, o) → a.readsClean = true →
      let b := ((a.touchOp n r).asAgent (.tile n)).opEarly n r
      let x := f b r j o
      (x.2.grf.miss = true → exec c s = .next a) ∧
      (x.2.grf.miss = false → ∃ t, exec c s = .next t ∧
        (t.tile n).inflight = (a.tile n).inflight ++
          [{ tag := o.dst, unit := unit, op := (a.tile n).nextOp, writes := x.1.writes, code := if x.1.bad then 0x5016 else 0 }] ∧
        (t.tile n).nextOp = (a.tile n).nextOp + 1 ∧ (o.dst < 64 → t.tagBusy n o.dst = true) ∧ b.SameBytes t ∧
        ((∀ y ∈ (a.tile n).inflight, y.writes = []) → a.SameBytes t)))

/-- TILE_ITEM_START, TILE_HRV, TILE_FENCE, TILE_OP_COMPLETE, TILE_GATE, TILE_WAKE, TILE_WAKE_CMD: sequencing and power of a tile. Rests on R298, R325, R386, R388, R389, R393, R394, R405, R717. -/
def Obligations.TilesSequence : Prop :=
  ∀ (s : State) (dt n : Nat), n < 64 →
    let a := s.arrive dt
    (∀ r, a.tileStage n = some r →
      (r.kind = 0 → r.stopped = false → (a.tile n).item = 0 → r.dealt < (a.progOf r).items → (a.page (tilePage n)).cond.fault = false →
        (a.page (tilePage n)).cond.frozen = false → a.freeFirst r n = true →
        ∃ t, exec (.tileItemStart dt n) s = .next t ∧ (t.tile n).item = r.dealt + 1 ∧ t.mem = a.mem ∧
          ((t.tile n).inPrologue = true ↔ (a.tile n).prologueDone = false ∧ (a.progOf r).proCount ≠ 0) ∧
          (t.tile n).nextOp = (if (a.tile n).prologueDone = false ∧ (a.progOf r).proCount ≠ 0 then 0 else (a.progOf r).proCount)) ∧
      ((a.tile n).item ≠ 0 → exec (.tileItemStart dt n) s = .next a)) ∧
    (∀ r j o, a.issueOp n 8 = some (r, j, o) → a.injected 5 n = none →
      exec (.tileFence dt n) s = .next (((a.touchOp n r).updTile n (fun t => { t with nextOp := t.nextOp + 1, fenced := true })).tileAdvance n)) ∧
    (∀ r j o, a.issueOp n 7 = some (r, j, o) → a.readsClean = true → a.hrvOn = true → a.hrvRoom = true → o.itemIter = false →
      let q : HrvReq := { tile := true, id := n, stage := r.stage, tag := o.dst, desc := operandAddr n o.a o.isa j, output := r.output, set := r.set }
      ∃ t, exec (.tileHrv dt n) s = .next t ∧ t.hrv.queue = hrvInsert { q with at_ := a.cycles } a.hrv.queue ∧
        (t.tile n).nextOp = (a.tile n).nextOp + 1) ∧
    (∀ r x unit, a.tileStage n = some r → (a.tile n).inflight.find? (fun y => y.unit == unit && unit != 3) = some x →
      let b := a.opWrites n r x
      (b.awaits (.tile n) = true → exec (.tileOpComplete dt n unit false) s = .next b) ∧
      let c := (((b.dropAcks (.tile n)).setTag n x.tag false).updTile n (fun t => { t with
        inflight := t.inflight.filter (fun y => y.op != x.op) })).bump (F.TILE_OP_CNT n)
      let u := if unit = 0 then (c.bumpBy (F.TILE_MAC_BUSY_CNT n) (c.freeVal % 4096)).drawFree else c
      (b.awaits (.tile n) = false → x.code = 0 → b.answerCode (.tile n) = 0 → exec (.tileOpComplete dt n unit false) s = .next (u.tileAdvance n)) ∧
      (b.awaits (.tile n) = false → x.code ≠ 0 → exec (.tileOpComplete dt n unit false) s
        = .next (((((((u.bump (F.TILE_DATA_ERR_CNT n)).tileLastErr n x.code x.op).error (tilePage n) x.code 0).event (tilePage n) 0).stageCode
            r.stage x.code)).tileAdvance n))) ∧
    (∀ unit, exec (.tileOpComplete dt n unit true) s
      = .next (if a.tilePresent n && !(a.page (tilePage n)).cond.gated then a.tileLogicFault n else a)) ∧
    (a.tileFree n = false → exec (.tileGate dt n) s = .next a) ∧
    (a.tileFree n = true → a.tilePresent n = true → (a.page (tilePage n)).cond.gated = false → a.fld F.PWR_STATE = 1 → a.planTiles.contains n = false →
      ∃ t, exec (.tileGate dt n) s = .next t ∧ (t.page (tilePage n)).cond.gated = true ∧ (t.page (tilePage n)).eventRaw.getLsbD 1 = true ∧
        t.mem = a.mem ∧ ∀ p, p ≠ tilePage n → t.page p = a.page p) ∧
    ((a.tile n).wakeReq = true → (a.page (tilePage n)).cond.gated = true →
      ∃ t, exec (.tileWake dt n) s = .next t ∧ (t.page (tilePage n)).cond.gated = false ∧ (t.page (tilePage n)).eventRaw.getLsbD 2 = true ∧
        (t.tile n).wakeReq = false ∧ (t.tile n).idleSince = a.cycles) ∧
    (∀ w v, let b := s.arriveBy dt w
      (b.portCheck (tilePage n) 0x4C w = none → lockAdmits (b.page (tilePage n)) w = true →
        ∃ t, exec (.tileWakeCmd dt n w v) s = .next t ∧ t.fld (F.TILE_PWR_GATE_EN n) = getBits v 0 0 ∧
          t.fld (F.TILE_PWR_GATE_IDLE_US n) = getBits v 31 16 ∧ (t.page (tilePage n)).lastWriter = w ∧ t.mem = b.mem) ∧
      (∀ c, getBits v 1 1 = 1 → b.portCheck (tilePage n) 0x4C w = some c → (c.page (tilePage n)).cond.gated = true →
        exec (.tileWakeCmd dt n w v) s = .next (c.wakeTile n)))

/-- TEST_WINDOW_OPEN, TEST_DONE, TEST_REQ, TEST_OVERDUE: in-field tests of the tiles. Rests on R395, R396, R398, R399, R400. -/
def Obligations.TilesTested : Prop :=
  ∀ (s : State) (dt : Nat),
    let a := s.arrive dt
    (a.windowMayOpen = false → exec (.testWindowOpen dt) s = .next a) ∧
    (a.windowMayOpen = true → ∃ t, exec (.testWindowOpen dt) s = .next t ∧ t.frm.testDoneInFrame = true ∧
      (∀ n ∈ t.frm.testTiles, (t.tile n).underTest = true) ∧
      (a.flag F.FRM_TEST_REQ_PENDING = true → t.frm.testTiles.head? = some a.frm.testPend) ∧ t.frm.testWindow = t.frm.testTiles ∧
      t.frm.testInterval = a.fld F.FRM_TEST_CFG_INTERVAL_MS ∧
      t.frm.testTiles.length ≤ max 1 (a.fld F.FRM_TEST_CFG_GROUP) ∧ a.SameBytes t) ∧
    (∀ n, n < 64 → a.frm.testTiles.contains n = true → a.injected 6 n = none →
      (∃ t, exec (.testDone dt n true) s = .next t ∧ (t.tile n).underTest = false ∧ (t.tile n).passAt = a.cycles ∧
        t.fld (F.TILE_TEST_STATUS_LAST n) = 1 ∧ t.fld (F.TILE_TEST_PASS_CNT n) = min (2 ^ 32 - 1) (a.fld (F.TILE_TEST_PASS_CNT n) + 1) ∧
        t.frm.testTiles = a.frm.testTiles.filter (· != n) ∧
        (t.frm.testTiles = [] → a.frm.testWindow.contains a.frm.testPend = true → t.flag F.FRM_TEST_REQ_PENDING = false)) ∧
      (a.pwr.phase = 0 → ∃ t, exec (.testDone dt n false) s = .next t ∧ (t.tile n).withdrawn = true ∧ t.fld (F.TILE_TEST_STATUS_LAST n) = 2 ∧
        t.flag (F.TILE_TEST_STATUS_WITHDRAWN n) = true ∧ (t.page (tilePage n)).cond.fault = true ∧ (t.page 0x010).cond.fault = true)) ∧
    (∀ n pass, a.frm.testTiles.contains n = false → exec (.testDone dt n pass) s = .next a) ∧
    (∀ w v, let b := s.arriveBy dt w
      b.admits 0x011 0x7C w v = true →
        ∃ t, exec (.testReq dt w v) s = .next t ∧ t.fld F.FRM_TEST_REQ_TILE = getBits v 5 0 ∧ (t.page 0x011).lastWriter = w ∧ t.mem = b.mem ∧
          t.flag F.FRM_TEST_REQ_PENDING = (b.flag F.FRM_TEST_REQ_PENDING || getBits v 8 8 == 1) ∧
          t.frm.testPend = if getBits v 8 8 = 1 then getBits v 5 0 else b.frm.testPend) ∧
    (∀ n, n < 64 → let k := ((a.cycles - (a.tile n).passAt) / msCycles 1) / a.frm.testInterval
      (a.tilePresent n = true → a.pstate 0x010 = St.running → a.pwr.phase = 0 → (a.tile n).overdue < k →
        ∃ t, exec (.testOverdue dt n) s = .next t ∧ (t.tile n).overdue = k ∧ (t.page 0x011).eventRaw.getLsbD 2 = true) ∧
      (k ≤ (a.tile n).overdue → exec (.testOverdue dt n) s = .next a))

/-- Device addresses name distinct places; SHARD_CFG_WRITE changes the map alone, and on MEMC_1 to MEMC_7 nothing; SCRUB_LINE checks the next line, and an error there is counted and a line that cannot be corrected marked. Rests on R411, R414, R415, R416, R417, R419, R449, R451, R452, R454, R457. -/
def Obligations.AddressesNameOnePlace : Prop :=
  (∀ (s : State) (d e : Nat), s.mem.shardBase4M < 2048 →
    (∀ c x, s.home d = .dram c x → s.home e = .dram c x → d = e) ∧ (∀ t o, s.home d = .cellar t o → s.home e = .cellar t o → d = e) ∧
      (∀ c x, s.home d = .dram c x → c < 8)) ∧
  (∀ (s : State) (dt w : Nat) (v : Word),
    let b := s.arriveBy dt w
    (b.admitsRwl 0x0C0 0x50 w v = true →
      (b.mapQuiet = true → ∃ t, exec (.shardCfgWrite dt 0 w v) s = .next t ∧ t.shardBase = getBits v 10 0 * 2 ^ 22 ∧ t.etu.tables = [] ∧
        t.mem.dram = b.mem.dram ∧ t.mem.cellar = b.mem.cellar ∧ t.mem.result = b.mem.result ∧ (t.page 0x0C0).lastWriter = w ∧ t.regs = b.regs) ∧
      (b.mapQuiet = false → exec (.shardCfgWrite dt 0 w v) s = .next (b.error 0x0C0 0xA012 (infoOffWriter 0x50 w)))) ∧
    (∀ c, c ≠ 0 → b.admits (0x0C0 + 2 * c) 0x50 w v = true → exec (.shardCfgWrite dt c w v) s = .next (b.wrote (0x0C0 + 2 * c) w))) ∧
  (∀ (s : State) (dt c mr4 : Nat) (ups : List Upset), c < 8 →
    let b := ((s.arrive dt).arise ups).readMr4 c mr4
    let p := Sparse.get (fun _ => 0) b.mem.scrubNext c
    let pg := b.page (0x0C0 + 2 * c)
    (b.fld (F.MEMC_SCRUB_CFG_SCRUB_EN c) = 0 ∨ pg.pausing = true ∨ pg.cond.off = true ∨ b.mem.failed.contains c = true →
      exec (.scrubLine dt c mr4 ups) s = .next b) ∧
    (b.fld (F.MEMC_SCRUB_CFG_SCRUB_EN c) ≠ 0 → pg.pausing = false → pg.cond.off = false → b.mem.failed.contains c = false →
      p + 1 < b.mem.chGib * 2 ^ 24 →
      ∃ t, exec (.scrubLine dt c mr4 ups) s = .next t ∧ Sparse.get (fun _ => 0) t.mem.scrubNext c = p + 1 ∧
        (b.readsClean = true → b.SameBytes t ∧ t.regs = b.regs ∧ t.hdr = b.hdr) ∧
        (b.saf.injActive = [] → b.pwr.phase = 0 → (p % 16 = 15 ∨ (b.combined c).contains (p / 16 * 15 + p % 16) = false) →
          (b.upsetIn false (physLine c p) = some false → t.fld (F.MEMC_CE_CNT c) = min (2 ^ 32 - 1) (b.fld (F.MEMC_CE_CNT c) + 1) ∧ b.SameBytes t) ∧
          (b.upsetIn false (physLine c p) = some true → t.fld (F.MEMC_UE_CNT c) = min (2 ^ 32 - 1) (b.fld (F.MEMC_UE_CNT c) + 1) ∧
            (p % 16 ≠ 15 → Sparse.get noMark t.mem.dramPoison (dramKey c ((p / 16 * 15 + p % 16) * 64) / 64) = true)))))

/-- CHURN_READ, CHURN_WRITE, CHURN_ADD32, SUMMARY_MERGE, CHURN_DEQUANT, CHURN_POOL: the operations on DRAM lines, the reply of each, and the POISON mark of a written line. Rests on R412, R425, R426, R427, R428, R429, R437. -/
def Obligations.ChurnOperations : Prop :=
  (∀ (s : State) (dt d n : Nat),
    let a := s.arrive dt
    let f := (a.asAgent .none).fetch d n
    (inLine d n = true → exec (.churnRead dt d n) s = .next (f.2.replied f.1)) ∧ (inLine d n = false → exec (.churnRead dt d n) s = .next a)) ∧
  (∀ (s : State) (dt d c x : Nat),
    let a := s.arrive dt
    let line := d / 64 * 64
    let mark := fun (t : State) => Sparse.get noMark t.mem.dramPoison (dramKey c x / 64)
    a.mem.shardBase4M < 2048 → a.mem.chGib ≤ 8 → a.home d = .dram c x → a.mem.failed.contains c = false →
    (∀ n, inLine d n = true → a.readsClean = true →
      ∃ t, exec (.churnRead dt d n) s = .next t ∧ t.mem.reply = some ⟨a.peek d n, mark a, 0⟩ ∧ a.SameBytes t ∧ t.regs = a.regs ∧ t.hdr = a.hdr) ∧
    (∀ bs poison, inLine d bs.length = true → a.mem.upsets = [] →
      ∃ t, exec (.churnWrite dt d bs poison) s = .next t ∧ t.peek d bs.length = bs ∧
        (∀ e, e < d ∨ d + bs.length ≤ e → t.peekByte e = a.peekByte e) ∧ t.mem.reply = some ⟨[], false, 0⟩ ∧
        mark t = markAfter (mark a) poison bs.length 64 ∧ (poison = false → t.regs = a.regs ∧ t.hdr = a.hdr)) ∧
    (∀ mask addends poison, a.readsClean = true →
      ∃ t, exec (.churnAdd32 dt d mask addends poison) s = .next t ∧ t.mem.reply = some ⟨[], false, 0⟩ ∧
        (∀ i, i < 16 → leNat (t.peek (line + 4 * i) 4) = if bitOf mask i then (leNat (a.peek (line + 4 * i) 4) + addends.getD i 0) % 2 ^ 32
          else leNat (a.peek (line + 4 * i) 4)) ∧
        (∀ e, e < line ∨ line + 64 ≤ e → t.peekByte e = a.peekByte e)) ∧
    (∀ con poison, inLine d 32 = true → con.length = 32 → a.readsClean = true →
      ∃ t, exec (.summaryMerge dt d con poison) s = .next t ∧ t.mem.reply = some ⟨[], false, 0⟩ ∧ t.peek d 32 = mergeSummary (a.peek d 32) con ∧
        leNat (t.peek (d + 4) 4) = (leNat (a.peek (d + 4) 4) + leNat ((con.drop 4).take 4)) % 2 ^ 32 ∧
        signed 16 (leNat (t.peek (d + 0x18) 2)) = min (signed 16 (leNat (a.peek (d + 0x18) 2))) (signed 16 (leNat ((con.drop 0x18).take 2))) ∧
        signed 16 (leNat (t.peek (d + 0x1A) 2)) = max (signed 16 (leNat (a.peek (d + 0x1A) 2))) (signed 16 (leNat ((con.drop 0x1A).take 2))) ∧
        (∀ e, e < d ∨ d + 32 ≤ e → t.peekByte e = a.peekByte e)) ∧
    (∀ fmt elems, elems ≤ 1024 → a.readsClean = true →
      let f := (a.asAgent .none).fetch d (4 + (if fmt = 0 then elems else elems / 2))
      ∃ t, exec (.churnDequant dt d fmt elems) s = .next t ∧ a.SameBytes t ∧
        t.fld (F.MEMC_DEQUANT_CNT c) = min (2 ^ 32 - 1) (a.fld (F.MEMC_DEQUANT_CNT c) + 1) ∧
        (f.1.code = 0 → t.mem.reply = some ⟨(rowValues f.2.free fmt elems f.1.bytes).flatMap (leBytes 2), f.1.poison, 0⟩)) ∧
    (∀ ds fmt elems mode, elems ≤ 1024 → a.readsClean = true → ds ≠ [] → ds.length ≤ 64 → (∀ e ∈ ds, ∃ y, a.dramPlace e = some (c, y)) →
      let q := (a.asAgent .none).dequantRows fmt elems ds
      ∃ t, exec (.churnPool dt ds fmt elems mode) s = .next t ∧ a.SameBytes t ∧
        t.fld (F.MEMC_POOL_CNT c) = min (2 ^ 32 - 1) (a.fld (F.MEMC_POOL_CNT c) + 1) ∧
        t.fld (F.MEMC_DEQUANT_CNT c) = min (2 ^ 32 - 1) (a.fld (F.MEMC_DEQUANT_CNT c) + ds.length) ∧
        ((∀ r ∈ q.1, r.code = 0) →
          t.mem.reply = some ⟨(poolRows q.2.free mode elems (q.1.map (·.vals))).flatMap (leBytes 2), q.1.any (·.bad), 0⟩))) ∧
  (∀ (s : State) (dt d : Nat),
    let a := s.arrive dt
    (∀ bs poison, inLine d bs.length = false → exec (.churnWrite dt d bs poison) s = .next a) ∧
    (a.dramPlace d = none →
      (∀ fmt elems, exec (.churnDequant dt d fmt elems) s = .next (a.replied ⟨List.replicate (2 * elems) 0, true, 0x5011⟩)) ∧
      (∀ fmt elems mode ds, exec (.churnPool dt (d :: ds) fmt elems mode) s = .next (a.replied ⟨List.replicate (2 * elems) 0, true, 0x5011⟩)) ∧
      (∀ con poison, inLine d 32 = true → con.length = 32 →
        ∃ t, exec (.summaryMerge dt d con poison) s = .next t ∧ t.mem.reply = some ⟨[], false, 0x5011⟩ ∧ a.SameBytes t))) ∧
  (∀ (s : State) (dt d e c c' x x' : Nat) (fmt elems mode : Nat),
    let a := s.arrive dt
    a.dramPlace d = some (c, x) → a.dramPlace e = some (c', x') → c ≠ c' →
      exec (.churnPool dt [d, e] fmt elems mode) s = .next (a.replied ⟨List.replicate (2 * elems) 0, true, 0x5011⟩))

/-- ETU_DEFINE, UNDEFINE, REPLACE, FOLD, UNMIGRATE, CACHE_FLUSH, ETU_CMD_DONE: table commands of the embedding unit; one that is rejected changes no table. Rests on R106, R458, R484, R489, R492, R495, R496, R497, R498, R506. -/
def Obligations.TableCommands : Prop :=
  (∀ (s : State) (dt w t op : Nat) (c : Instr),
    (op, c) ∈ [(1, .etuDefine dt w t), (2, .etuUndefine dt w t), (3, .etuReplace dt w t), (4, .etuFold dt w t), (5, .etuUnmigrate dt w t),
      (6, .etuCacheFlush dt w t)] → t < 256 →
    let b := s.arriveBy dt w
    let x := b.table t
    let f := (b.asAgent .none).fetch b.cmdAddr 64
    let fault := if f.1.code ≠ 0 then f.1.code else if f.1.poison then 0x5019
      else match tableFault f.1.bytes with
        | some e => e.2
        | none => f.2.regionFault (tableDesc f.1.bytes)
    let need := b.homedRows x * (if x.update then 2 * x.elems else x.rowBytes)
    let rejected := fun (code : Nat) => ∃ u, exec c s = .next u ∧ u.fld F.ETU_CMD_RESULT_CODE = code % 2 ^ 16 ∧ u.etu.cmd = none ∧
      u.etu.tables = b.etu.tables ∧ b.SameBytes u ∧ u.fld F.ETU_CMD_STATUS_OP = op ∧ u.fld F.ETU_CMD_STATUS_TABLE = t ∧
      (u.page 0x0D1).eventRaw.getLsbD 0 = true ∧ (u.page 0x0D1).eventRaw.getLsbD 1 = true ∧ (u.page 0x0D1).lastWriter = w
    b.admits 0x0D1 0x40 w (word (t * 2 ^ 8 + op)) = true →
    (b.etu.cmd.isSome = true → exec c s = .next (b.error 0x0D1 0xA017 0)) ∧
    (b.etu.cmd = none → b.lockStops 0x0D0 = true → exec c s = .next b) ∧
    (b.etu.cmd = none → b.lockStops 0x0D0 = false → b.saf.inSafe = true → rejected 0x6031) ∧
    (b.etu.cmd = none → b.lockStops 0x0D0 = false → b.saf.inSafe = false → b.etuReady op t = false → rejected 0xA016) ∧
    (b.etu.cmd = none → b.lockStops 0x0D0 = false → b.saf.inSafe = false → b.etuReady op t = true →
      (op = 1 → b.readsClean = true → fault ≠ 0 → rejected fault) ∧
      (op = 3 → b.fld F.ETU_CMD_SIZE = 2 ^ 32 - 1 → rejected 0x1003) ∧
      (op = 3 → b.fld F.ETU_CMD_SIZE < 2 ^ 32 - 1 → b.fld F.ETU_CMD_SIZE < need → rejected 0x1002) ∧
      ((op = 1 → b.readsClean = true ∧ fault = 0) → (op = 3 → b.fld F.ETU_CMD_SIZE < 2 ^ 32 - 1 ∧ need ≤ b.fld F.ETU_CMD_SIZE) →
        ∃ u, exec c s = .next u ∧ (u.page 0x0D1).lastWriter = w ∧ u.etu.cmd.map (fun q => (q.op, q.table, q.done)) = some (op, t, 0) ∧ b.SameBytes u ∧
          u.fld F.ETU_CMD_STATUS_TABLE = t ∧ u.fld F.ETU_CMD_STATUS_OP = op ∧
          (op = 1 → u.table t = tableDesc f.1.bytes ∧ u.etu.cmd.map (·.total) = some 0) ∧
          (op = 2 → u.table t = {} ∧ (∀ r ∈ u.etu.redirect, r.table ≠ t) ∧ (∀ y ∈ u.etu.cached, y.1 ≠ t)) ∧
          (op = 3 → (u.table t).state = (if x.pause then 3 else 2) ∧
            u.etu.cmd.map (fun q => (q.total, q.addr)) = some (b.homedRows x, b.cmdAddr)) ∧
          (op = 4 → (u.table t).state = 4 ∧ (u.table t).active = 1 - x.active ∧
            u.etu.cmd.map (fun q => (q.total, q.bank, q.both)) = some (b.homedRows x, x.active, x.foldInc)) ∧
          (op = 5 → u.etu.cmd.map (·.total) = some ((b.etu.redirect.filter (fun r => r.table == t)).length) ∧ u.etu.tables = b.etu.tables) ∧
          (op = 6 → (∀ y ∈ u.etu.cached, y.1 ≠ t) ∧ u.etu.tables = b.etu.tables)))) ∧
  (∀ (s : State) (dt upto : Nat),
    let a := s.arrive dt
    (a.etu.cmd = none → exec (.etuCmdDone dt upto) s = .next a) ∧
    (∀ q, a.etu.cmd = some q → q.done < q.total → upto ≤ q.done → exec (.etuCmdDone dt upto) s = .next (a.asAgent .none)) ∧
    (∀ q, a.etu.cmd = some q → q.total ≤ q.done →
      ∃ u, exec (.etuCmdDone dt upto) s = .next u ∧ u.etu.cmd = none ∧ u.fld F.ETU_CMD_RESULT_CODE = q.code % 2 ^ 16 ∧ u.mem = a.mem ∧
        (u.page 0x0D1).eventRaw.getLsbD 0 = true ∧ (q.op = 4 → (u.table q.table).state = 1) ∧
        (q.op = 3 → a.replacing q.table = true → (u.table q.table).state = 1)))

/-- ETU_GATHER, ETU_POOL, ETU_UPDATE, ETU_JOB_DONE, LOAD_WINDOW_END, MIGRATION_MOVE, CACHE_SHARE_WRITE: jobs and placement of rows. Rests on R466, R471, R473, R474, R475, R485, R486, R487, R488, R489, R509. -/
def Obligations.TableJobs : Prop :=
  (∀ (s : State) (dt n upto op : Nat) (c : Instr) (r : RunStage),
    (op, c) ∈ [(0, .etuGather dt n upto), (1, .etuPool dt n upto), (2, .etuUpdate dt n upto)] →
    let a := s.arrive dt
    let d := etuDesc (a.peek r.desc 64)
    let b := (a.asAgent (.etu n)).touch r.desc 64
    (a.runStage n = none → exec c s = .next a) ∧
    (a.runStage n = some r → r.kind = 4 ∨ r.kind = 5 → r.unitDone = false → r.stopped = false → d.op = op →
      (b.etuJob n = none → b.etuStartCode d ≠ 0 → exec c s = .next (b.etuJobEnd n d.table (b.etuStartCode d))) ∧
      (b.etuJob n = none → b.etuStartCode d = 0 → (b.page 0x0D0).pausing = false → (b.etu.jobs = [] → b.lockStops 0x0D0 = false) →
        b.etu.jobs.length < 4 → (b.page 0x0D0).cond.fault = false → upto = 0 → op ≠ 1 →
          ∃ t, exec c s = .next t ∧ t.etuJob n = some { stage := n, finished := decide (d.rows = 0), checked := true } ∧ t.mem = b.mem) ∧
      (∀ j, b.etuJob n = some j → j.checked = true → j.done < d.rows → (b.table d.table).state ≠ 3 → upto = j.done + 1 →
        let q := b.etuStep d r j.done
        (q.2.grf.miss = true → exec c s = .next b) ∧
        (q.2.grf.miss = false → q.1 = false → exec c s = .next q.2) ∧
        (q.2.grf.miss = false → q.1 = true → (q.2.etuJob n).map (·.done) = some j.done →
          exec c s = .next (((q.2.dropReads (.etu n)).dropRows (.etu n)).updJob n
            (fun x => { x with done := x.done + 1, finished := decide (d.rows ≤ x.done + 1) })))))) ∧
  (∀ (s : State) (dt n : Nat) (r : RunStage) (j : EtuJob),
    let a := s.arrive dt
    let d := etuDesc (a.peek r.desc 64)
    let lost := ((a.grf.answers.filter (fun x => x.agent == .etu n && x.ttype == 5 && x.code == 0x4010)).map (·.addr)).dedup.length
    a.runStage n = some r → a.etuJob n = some j →
      (j.finished = false ∨ a.awaits (.etu n) = true → exec (.etuJobDone dt n) s = .next a) ∧
      (j.finished = true → a.awaits (.etu n) = false →
        exec (.etuJobDone dt n) s = .next (((a.bumpBy F.ETU_ROW_ERR_CNT lost).dropAcks (.etu n)).etuJobEnd n d.table
          (if lost ≠ 0 then 0x4010 else if j.code = 0 then a.answerCode (.etu n) else j.code)) ∧
        ∃ t, exec (.etuJobDone dt n) s = .next t ∧ t.etuJob n = none ∧ t.mem = a.mem ∧ ∀ x, t.runStage n = some x → x.unitDone = true)) ∧
  (∀ (s : State) (dt : Nat),
    let a := s.arrive dt
    let ends := a.etu.windowAt + usCycles (a.fld F.ETU_LOAD_CFG_LOAD_WINDOW_US)
    (a.cycles < ends → exec (.loadWindowEnd dt) s = .next a) ∧
    (ends ≤ a.cycles → ∃ t, exec (.loadWindowEnd dt) s = .next t ∧ t.etu.lines = [] ∧ t.etu.rowLines = [] ∧ t.etu.windowAt = a.cycles ∧
      (t.page 0x0D2).eventRaw.getLsbD 0 = true ∧ t.mem = a.mem ∧
      (∀ c, c < 8 → t.fld (F.ETU_SHARD_LOAD_LINES c) = Sparse.get (fun _ => 0) a.etu.lines c % 2 ^ 32) ∧
      (a.flag F.ETU_LOAD_CFG_MIGRATE_EN = false → t.etu.moves = []))) ∧
  (∀ (s : State) (dt : Nat),
    let a := s.arrive dt
    (a.etu.moves = [] ∨ a.mayMove = false → exec (.migrationMove dt) s = .next a) ∧
    (∀ t i c rest k, a.etu.moves = (t, i, c) :: rest → a.mayMove = true → a.spillFree t c = some k → (a.table t).state ≠ 0 →
      (a.table t).migrate = true → (a.etu.redirect.length < 8192 ∨ (a.redirectOf t i).isSome = true) → a.readsClean = true →
        ∃ u, exec (.migrationMove dt) s = .next u ∧ u.redirectOf t i = some ⟨t, i, c, k⟩ ∧ u.etu.moves = rest ∧
          (u.page 0x0D2).eventRaw.getLsbD 1 = true ∧ (t, i) ∉ u.etu.cached)) ∧
  (∀ (s : State) (dt w : Nat) (v : Word),
    let b := s.arriveBy dt w
    b.admitsRwl 0x0D0 0x40 w v = true →
      (getBits v 3 0 = b.fld F.ETU_CFG_CACHE_SHARE → ∃ t, exec (.cacheShareWrite dt w v) s = .next t ∧ t.etu = b.etu ∧
        t.fld F.ETU_CFG_CACHE_ADMIT = getBits v 11 8 ∧ t.fld F.ETU_CFG_CACHE_SHARE = getBits v 3 0 ∧ (t.page 0x0D0).lastWriter = w) ∧
      (getBits v 3 0 ≠ b.fld F.ETU_CFG_CACHE_SHARE → b.planHeld = false → ∃ t, exec (.cacheShareWrite dt w v) s = .next t ∧ t.etu.cached = [] ∧
        t.fld F.ETU_CFG_CACHE_SHARE = getBits v 3 0 ∧ t.etu.tables = b.etu.tables ∧ t.mem = b.mem) ∧
      (getBits v 3 0 ≠ b.fld F.ETU_CFG_CACHE_SHARE → b.planHeld = true → ∃ t, exec (.cacheShareWrite dt w v) s = .next t ∧
        t.fld F.ETU_CFG_CACHE_SHARE = b.fld F.ETU_CFG_CACHE_SHARE ∧ t.etu = b.etu))

/-- LINK_TRAIN_DONE, LINK_ALIGN_DONE, GRF_EXCHANGE, DATA_FLIT, GRF_NAK, REPLAY_TIMEOUT, LANE_LOCK_LOST, RECOVER_TIMEOUT: the link of a port. Rests on R93, R516, R517, R518, R520, R521, R522, R523, R524. -/
def Obligations.LinksComeUpAndRecover : Prop :=
  ∀ (s : State) (dt n : Nat), n < 8 →
    let a := s.arrive dt
    (a.lstate n = 1 ∨ a.lstate n = 6 → ∃ t, exec (.linkTrainDone dt n) s = .next t ∧ t.lstate n = 2 ∧ t.fld (F.GRF_PORT_STATUS_LANES_OK n) = 15 ∧
      t.grf = a.grf ∧ t.mem = a.mem) ∧
    (a.lstate n ≠ 1 → a.lstate n ≠ 6 → exec (.linkTrainDone dt n) s = .next a) ∧
    (a.lstate n = 2 → ∃ t, exec (.linkAlignDone dt n) s = .next t ∧ t.lstate n = 3 ∧ t.port n = { a.port n with ctrl := a.exchangeSlot n } ∧
      t.mem = a.mem) ∧
    (a.lstate n ≠ 2 → exec (.linkAlignDone dt n) s = .next a) ∧
    (∀ node dir cfg seq, let b := a.noteNeighbour n node dir
      (a.lstate n ≠ 3 ∧ a.lstate n ≠ 5 ∨ (a.page (grfPage n)).cond.fault = true ∨ a.lstate n = 3 ∧ a.lockStops (grfPage n) = true →
        exec (.grfExchange dt n node dir cfg seq) s = .next a) ∧
      (a.lstate n = 3 ∧ a.lockStops (grfPage n) = false ∨ a.lstate n = 5 → (a.page (grfPage n)).cond.fault = false → b.wiringOk n dir cfg = false →
        exec (.grfExchange dt n node dir cfg seq) s = .next (((b.error (grfPage n) 0x4012 0).event (grfPage n) 3).pageFault (grfPage n) 0x4012)) ∧
      (a.lstate n = 3 → a.lockStops (grfPage n) = false → (a.page (grfPage n)).cond.fault = false → b.wiringOk n dir cfg = true →
        ∃ t, exec (.grfExchange dt n node dir cfg seq) s = .next t ∧ t.lstate n = 4 ∧
          (t.page (grfPage n)).eventRaw.getLsbD 0 = true ∧ t.fld (F.GRF_PORT_STATUS_NEIGHBOUR n) = node % 2 ^ 15) ∧
      (a.lstate n = 5 → (a.page (grfPage n)).cond.fault = false → b.wiringOk n dir cfg = true →
        ∃ t, exec (.grfExchange dt n node dir cfg seq) s = .next t ∧ t.lstate n = 4 ∧ (t.port n).replays = 0 ∧
          t.fld (F.GRF_PORT_STATUS_LANES_OK n) = 15 ∧ (t.page (grfPage n)).eventRaw.getLsbD 0 = true)) ∧
    (∀ pos levels, a.lstate n = 4 →
      (∀ fixed flit, receiveLevels (pos % 1024) levels = some (fixed, flit) →
        (fieldOf flit 0x4C 4 = crc32 (flit.take 0x4C) → fieldOf flit 0 2 / 4096 = 1 → fieldOf flit 0 2 % 4096 = (a.port n).rxSeq →
          ∃ t, exec (.dataFlit dt n pos levels) s = .next t ∧ (t.port n).rxSeq = ((a.port n).rxSeq + 1) % 4096 ∧ (t.port n).nakSent = false ∧
            t.fld (F.GRF_FEC_CORR_CNT n) = (if fixed then min (2 ^ 32 - 1) (a.fld (F.GRF_FEC_CORR_CNT n) + 1) else a.fld (F.GRF_FEC_CORR_CNT n))) ∧
        (fieldOf flit 0x4C 4 ≠ crc32 (flit.take 0x4C) →
          ∃ t, exec (.dataFlit dt n pos levels) s = .next t ∧ (t.port n).rxSeq = (a.port n).rxSeq ∧ (t.port n).nakSent = true ∧
            ((a.port n).nakSent = false → (t.port n).ctrl = nakSlot (a.port n).rxSeq) ∧
            t.fld (F.GRF_CRC_ERR_CNT n) = min (2 ^ 32 - 1) (a.fld (F.GRF_CRC_ERR_CNT n) + 1))) ∧
      (receiveLevels (pos % 1024) levels = none → ∃ t, exec (.dataFlit dt n pos levels) s = .next t ∧ (t.port n).rxSeq = (a.port n).rxSeq ∧
        (t.port n).nakSent = true ∧ ((a.port n).nakSent = false → (t.port n).ctrl = nakSlot (a.port n).rxSeq) ∧
        t.fld (F.GRF_FEC_UNCORR_CNT n) = min (2 ^ 32 - 1) (a.fld (F.GRF_FEC_UNCORR_CNT n) + 1))) ∧
    (∀ seq q fl rest, a.lstate n = 4 → (a.page (grfPage n)).pausing = false → (a.port n).replay = (q, fl) :: rest →
      (seq + 4096 - q) % 4096 < (a.port n).replay.length →
        ((a.port n).replays < 8 → ∃ t, exec (.grfNak dt n seq) s = .next t ∧ (t.port n).replays = (a.port n).replays + 1 ∧
          t.fld (F.GRF_REPLAY_CNT n) = min (2 ^ 32 - 1) (a.fld (F.GRF_REPLAY_CNT n) + 1) ∧ (t.port n).replay = (a.port n).replay) ∧
        (8 ≤ (a.port n).replays → exec (.grfNak dt n seq) s = .next (a.linkRecover n))) ∧
    ((a.port n).ackAt + usCycles 2 ≤ a.cycles → exec (.replayTimeout dt n) s = .next (a.replayFrom n 0)) ∧
    (a.cycles < (a.port n).ackAt + usCycles 2 → exec (.replayTimeout dt n) s = .next a) ∧
    (∀ lanes, a.lstate n = 4 → (lanes % 16 ≠ 15 ∨ 8 ≤ (a.port n).replays) → ∃ t, exec (.laneLockLost dt n lanes) s = .next t ∧ t.lstate n = 5 ∧
      t.fld (F.GRF_PORT_STATUS_LANES_OK n) = lanes % 16 ∧ (t.page (grfPage n)).eventRaw.getLsbD 1 = true ∧
      t.fld (F.GRF_RECOVER_CNT n) = min (2 ^ 32 - 1) (a.fld (F.GRF_RECOVER_CNT n) + 1) ∧ (t.port n).recoverAt = a.cycles) ∧
    (a.lstate n = 5 →
      ((a.port n).recoverAt + usCycles (a.fld (F.GRF_LINK_TIMING_RECOVER_US n)) ≤ a.cycles → ∃ t, exec (.recoverTimeout dt n) s = .next t ∧
        t.lstate n = 6 ∧ t.fld (F.GRF_DOWN_CNT n) = min (2 ^ 32 - 1) (a.fld (F.GRF_DOWN_CNT n) + 1) ∧ (t.page (grfPage n)).eventRaw.getLsbD 2 = true) ∧
      (a.cycles < (a.port n).recoverAt + usCycles (a.fld (F.GRF_LINK_TIMING_RECOVER_US n)) → exec (.recoverTimeout dt n) s = .next a))

/-- GRF_READ, WRITE, ADD32, GATHER, TADD, MESSAGE, BARRIER_ARRIVE, BARRIER_RELEASE, RSP_DATA, RSP_ACK, TRANSIT_FORWARD: packets that arrived. Rests on R527, R530, R534, R537, R538, R539, R540, R541, R545, R553. -/
def Obligations.PacketsAreServed : Prop :=
  (∀ (s : State) (dt n : Nat) (c : Instr) (who : State → Packet → Bool) (f : State → Packet → State),
    (c, who, f) ∈ [(Instr.grfRead dt n, fun _ p => p.ttype == 1, State.inRead), (.grfWrite dt n, fun _ p => p.ttype == 2, State.inWrite),
      (.grfAdd32 dt n, fun _ p => p.ttype == 3, State.inAdd), (.grfGather dt n, fun u p => p.ttype == 4 && !u.tablePaused p, State.inGather),
      (.grfTadd dt n, fun u p => p.ttype == 5 && !u.tablePaused p, State.inTadd),
      (.grfMessage dt n, fun _ p => p.ttype == 6, fun u p => u.mbMessage (p.operand % 256) p.data),
      (.grfBarrierArrive dt n, fun _ p => p.isBar 0, State.inArrive), (.grfBarrierRelease dt n, fun _ p => p.isBar 1, State.inRelease),
      (.grfRspData dt n, fun _ p => p.ttype == 0x80, State.inRsp), (.grfRspAck dt n, fun _ p => p.ttype == 0x81, State.inRsp)] →
    let a := s.arrive dt
    (a.inbound n (fun p => p.dest == a.nodeId && who a p) = none → exec c s = .next a) ∧
    (∀ x, a.inbound n (fun p => p.dest == a.nodeId && who a p) = some x →
      let u := a.consume n x
      (a.grf.lost.contains x.2.src = true → exec c s = .next (u.bump F.GRF_FENCED_CNT)) ∧
      (a.grf.lost.contains x.2.src = false → x.2.malformed = true → answered x.2.ttype = false → exec c s = .next (u.bump F.GRF_MALFORMED_CNT)) ∧
      (a.grf.lost.contains x.2.src = false → x.2.malformed = true → answered x.2.ttype = true → exec c s =
        .next (if 256 < x.2.asked then (u.bump F.GRF_MALFORMED_CNT).respond x.2 0x2016 true [] else (u.bump F.GRF_MALFORMED_CNT).respondBad x.2 0x2016)) ∧
      (a.grf.lost.contains x.2.src = false → x.2.malformed = false → exec c s = .next (f u x.2)))) ∧
  (∀ (u : State) (p : Packet),
    (u.readsClean = true → u.SameBytes (u.inRead p) ∧ u.SameBytes (u.inGather p)) ∧ (u.loopback p.operand 1 = none → u.SameBytes (u.inWrite p)) ∧
      (u.loopback p.operand 2 = none → u.SameBytes (u.inAdd p))) ∧
  (∀ (s : State) (dt n : Nat),
    let a := s.arrive dt
    (a.inbound n (fun p => p.dest != a.nodeId) = none → exec (.transitForward dt n) s = .next a) ∧
    (∀ x, a.inbound n (fun p => p.dest != a.nodeId) = some x →
      exec (.transitForward dt n) s = .next (((a.consume n x).forward n x.2).reqEnded))) ∧
  (∀ (s : State) (dest : Nat),
    (∀ i, s.nextDim dest = some i → i < 3 ∧ s.coordOf dest i ≠ s.coord i ∧ ∀ j, j < i → s.coordOf dest j = s.coord j) ∧
      (s.nextDim dest = none → ∀ j, j < 3 → s.coordOf dest j = s.coord j))

/-- REMOTE_REQUEST, REMOTE_TIMEOUT, LOST_SET, LOST_CLEAR, LOST_QUERY, BAR_ARRIVE, BAR_CFG_WRITE, BARRIER_TIMEOUT, NODE_CFG_WRITE. Rests on R528, R534, R535, R543, R545, R546, R550, R553, R554, R557. -/
def Obligations.NodesAndBarriers : Prop :=
  (∀ (s : State) (dt : Nat) (who : Requester) (d n mask : Nat) (data : List Byte),
    let a := (s.arrive dt).asAgent (agentOf who)
    natBits d 47 47 = 1 → d < 2 ^ 48 → 1 ≤ n → n ≤ 256 - d % 256 → a.remoteLocked = false → globalNode d ≠ a.nodeId →
      let q : GrfReq := { agent := agentOf who, ttype := 1, node := globalNode d, operand := natBits d 31 0 + 2 ^ 32 * n, addr := d, bytes := n }
      exec (.remoteRequest dt who 0 d n mask data) s = .next (a.request q) ∧
      (a.grf.lost.contains (globalNode d) = true →
        (a.request q).grf.answers = a.grf.answers ++ [⟨agentOf who, 1, q.operand, d, List.replicate n 0, true, 0x4010⟩] ∧
        (a.request q).fld F.GRF_NODE_LOST_CNT = min (2 ^ 32 - 1) (a.fld F.GRF_NODE_LOST_CNT + 1) ∧ (a.request q).mem = a.mem)) ∧
  (∀ (s : State) (dt : Nat),
    let a := s.arrive dt
    let late := a.grf.reqs.find? (fun q => Nat.ble (q.sentAt + msCycles (a.fld F.GRF_TIMEOUT_REMOTE_TIMEOUT_MS)) a.cycles)
    (late = none → exec (.remoteTimeout dt) s = .next a) ∧
    (∀ q, late = some q → ∃ t, exec (.remoteTimeout dt) s = .next t ∧ t.grf.lost.contains q.node = true)) ∧
  (∀ (s : State) (dt w node : Nat), node < 32768 →
    let b := s.arriveBy dt w
    (b.admits 0x0F1 0x58 w (word (2 ^ 16 + node)) = true →
      ∃ t, exec (.lostSet dt w node) s = .next t ∧ t.grf.lost.contains node = true ∧ (t.page 0x0F1).lastWriter = w) ∧
    (b.admits 0x0F1 0x58 w (word (2 * 2 ^ 16 + node)) = true →
      ∃ t, exec (.lostClear dt w node) s = .next t ∧ t.grf.lost.contains node = false ∧ t.grf.reqs = b.grf.reqs ∧ t.regs = b.regs ∧
        (t.page 0x0F1).lastWriter = w) ∧
    (b.admits 0x0F1 0x58 w (word (3 * 2 ^ 16 + node)) = true →
      ∃ t, exec (.lostQuery dt w node) s = .next t ∧ t.fld F.GRF_LOST_QUERY_NODE = node ∧ t.flag F.GRF_LOST_QUERY_LOST = b.grf.lost.contains node ∧
        t.grf = b.grf ∧ t.mem = b.mem)) ∧
  (∀ (s : State) (dt w k : Nat) (v : Word), k < 16 →
    let b := s.arriveBy dt w
    (b.admits 0x0F1 0x1C0 w (word (2 ^ 8 + k)) = true →
      (b.fld (F.GRF_BAR_STATUS_STATE k) = 1 → exec (.barArrive dt w k) s = .next (b.error 0x0F1 0xA018 0)) ∧
      (b.fld (F.GRF_BAR_STATUS_STATE k) = 0 → b.barMember k b.nodeId = true → b.barKids k = [] → b.barParent k = none → b.grf.reqs = [] →
        (b.bar k).sent = false →
        ∃ t, exec (.barArrive dt w k) s = .next t ∧ t.fld (F.GRF_BAR_STATUS_GEN k) = (b.fld (F.GRF_BAR_STATUS_GEN k) + 1) % 2 ^ 16 ∧
          t.fld (F.GRF_BAR_STATUS_STATE k) = 0 ∧ (t.page 0x0F1).eventRaw.getLsbD 1 = true)) ∧
    (b.admitsRwl 0x0F1 (0x180 + 4 * k) w v = true →
      ∃ t, exec (.barCfgWrite dt w k v) s = .next t ∧ t.cell (R.GRF_BAR_CFG k) = v &&& 0xBFFFFFFF ∧ t.fld (F.GRF_BAR_STATUS_GEN k) = 0 ∧
        t.fld (F.GRF_BAR_STATUS_STATE k) = 0 ∧ (t.page 0x0F1).lastWriter = w ∧ t.mem = b.mem) ∧
    (let a := s.arrive dt
     a.fld (F.GRF_BAR_STATUS_STATE k) = 1 → (a.bar k).own = true →
      ((a.bar k).at_ + msCycles (a.fld F.GRF_TIMEOUT_BAR_TIMEOUT_MS) ≤ a.cycles → ∃ t, exec (.barrierTimeout dt k) s = .next t ∧
        t.fld (F.GRF_BAR_STATUS_STATE k) = 2 ∧ (t.page 0x0F1).eventRaw.getLsbD 2 = true) ∧
      (a.cycles < (a.bar k).at_ + msCycles (a.fld F.GRF_TIMEOUT_BAR_TIMEOUT_MS) → exec (.barrierTimeout dt k) s = .next a))) ∧
  (∀ (s : State) (dt w : Nat) (v : Word),
    let b := s.arriveBy dt w
    let quiet := (List.range 8).all (fun n => b.pstate (grfPage n) == St.off) && b.grf.reqs.isEmpty
    b.admitsRwl 0x0F1 0x40 w v = true →
      (quiet = true → ∃ t, exec (.nodeCfgWrite dt w v) s = .next t ∧ t.cell R.GRF_NODE_CFG = v &&& 0x3FFFFFFF ∧
        (∀ i, i < 3 → t.fld (dirReg i) = shorterDirs (t.dim i) (t.coord i) % 2 ^ 32) ∧ (t.page 0x0F1).lastWriter = w ∧ t.mem = b.mem) ∧
      (quiet = false → exec (.nodeCfgWrite dt w v) s = .next (b.error 0x0F1 0xA018 0)))

/-- RING_TAIL_WRITE, RING_ENTRY_CONSUME, the JOB_ commands and COPY_COMPLETE: jobs of a ring. Rests on R573, R575, R576, R577, R578, R579, R580, R581, R582, R583, R604. -/
def Obligations.JobsRun : Prop :=
  ∀ (s : State) (dt ctx ring : Nat), ctx < 4096 → ring ≤ 1 →
    let a := s.arrive dt
    let key := ctx * 2 + ring
    (∀ fn v, fn = 0 ∨ fn ≤ a.hif.numVfs → a.hif.pcie.asleep.contains fn = false → a.ctxOwner ctx = fn →
      (∀ page entry, a.viewCtx fn page = some ctx → (v % 65536 + 65536 - a.head ctx ring) % 65536 ≤ 16 → entry.length = 64 →
        let x : BarWrite := ⟨page * 0x1000 + 0x800 + 0x400 * ring + 64 * (a.tail ctx ring % 16), entry⟩
        ∃ t, exec (.ringTailWrite dt fn ctx ring [x] v) s = .next t ∧ t.tail ctx ring = v % 65536 ∧ t.head ctx ring = a.head ctx ring ∧
          t.entry ctx ring (a.tail ctx ring) = entry ∧ t.mem = a.mem ∧ t.hdr = a.hdr) ∧
      (16 < (v % 65536 + 65536 - a.head ctx ring) % 65536 → a.ctxFaulted ctx = false →
        ∃ t, exec (.ringTailWrite dt fn ctx ring [] v) s = .next t ∧ t.ctxFaulted ctx = true ∧ t.fld (F.CTX_FAULT_CODE ctx) = 0x1021 ∧
          t.tail ctx ring = a.tail ctx ring)) ∧
    (∀ v, a.hif.pcie.asleep.contains 0 = false → a.ctxOwner ctx ≠ 0 →
      exec (.ringTailWrite dt 0 ctx ring [] v) s = .next (a.hostTlp.bump F.HIF_BAR2_DISCARD_CNT)) ∧
    (a.nextRing = none ∨ (a.page 0x100).pausing = true → exec (.ringEntryConsume dt) s = .next a) ∧
    (a.nextRing = some key → (a.page 0x100).pausing = false →
      let b := a.entry ctx ring (a.head ctx ring)
      let u := (a.setFld (F.CTX_RING_HEAD ctx ring) ((a.head ctx ring + 1) % 65536)).updHif (fun h => { h with robin := (key + 1) % 8192 })
      (u.jobRefusal ctx b = 0 → ∃ t, exec (.ringEntryConsume dt) s = .next t ∧ t.job ctx ring = some { u.jobOf ctx b with phase := 1 } ∧
        t.head ctx ring = (a.head ctx ring + 1) % 65536 ∧ t.mem = a.mem) ∧
      (u.jobRefusal ctx b ≠ 0 → ∃ t, exec (.ringEntryConsume dt) s = .next t ∧ t.job ctx ring = none ∧
        t.head ctx ring = (a.head ctx ring + 1) % 65536 ∧ t.fld F.HIF_JOB_ERR_CNT = min (2 ^ 32 - 1) (a.fld F.HIF_JOB_ERR_CNT + 1))) ∧
    (∀ j, a.job ctx ring = some j →
      (j.phase = 1 →
        (j.opc = 1 → ∃ t, exec (.jobNop dt ctx ring) s = .next t ∧ t.job ctx ring = none ∧ t.mem = a.mem ∧
          t.fld F.HIF_JOB_CNT = min (2 ^ 32 - 1) (a.fld F.HIF_JOB_CNT + 1) ∧ t.fld F.HIF_JOB_ERR_CNT = a.fld F.HIF_JOB_ERR_CNT ∧
          (j.sb ≠ 0xFF → (t.statusBlock ctx j.sb).state = 3 ∧ (t.statusBlock ctx j.sb).tag = j.tag ∧ (t.statusBlock ctx j.sb).code = 0 ∧
            (t.statusBlock ctx j.sb).seq = ((a.statusBlock ctx j.sb).seq + 2) % 2 ^ 32)) ∧
        (j.opc = 2 → ∀ host, ∃ t, exec (.jobCopyIn dt ctx ring host) s = .next t ∧
          t.job ctx ring = some { j with data := host.take (fieldOf j.bytes 0x18 4), phase := 2 } ∧ t.mem = a.mem ∧
          t.hif.hostAccess = some ⟨a.ctxOwner ctx, fieldOf j.bytes 8 8, fieldOf j.bytes 0x18 4, false⟩) ∧
        (j.opc = 3 → ∃ t, exec (.jobCopyOut dt ctx ring) s = .next t ∧ t.job ctx ring = some { j with phase := 2 } ∧ t.mem = a.mem) ∧
        (j.opc = 4 → (a.jobMode ctx 4 = 0 → exec (.jobFrame dt ctx ring) s = .next a) ∧
          (a.jobMode ctx 4 ≠ 0 → exec (.jobFrame dt ctx ring) s = .next (a.jobDone ctx ring j (a.jobMode ctx 4) 0))) ∧
        (j.opc = 5 → j.waitNext = false → j.follows = false → (∀ f, a.frm.compute = some f → f.num ≠ j.frame) →
          ∀ f, a.frm.publish = some f →
            (f.num = j.frame → f.hostFail = false → exec (.jobWaitFrame dt ctx ring) s
              = .next (a.jobDone ctx ring { j with follows := true, phase := 2 } 0 (a.publishedCrc f))) ∧
            (f.num ≠ j.frame → a.frameAhead j.frame = true → exec (.jobWaitFrame dt ctx ring) s = .next a) ∧
            (f.num ≠ j.frame → a.frameAhead j.frame = false → exec (.jobWaitFrame dt ctx ring) s = .next (a.jobDone ctx ring j 0x3008 0))) ∧
        (j.opc = 6 → let r := a.jobWrite (fieldOf j.bytes 8 2) (fieldOf j.bytes 0xA 2) (a.ctxWriter ctx) (word (fieldOf j.bytes 0xC 4))
          (r.2.psv.queue.length ≤ a.psv.queue.length → exec (.jobRegWrite dt ctx ring) s
            = .next (r.2.jobDone ctx ring { j with aux := (r.2.readReg (fieldOf j.bytes 8 2) (fieldOf j.bytes 0xA 2)).toNat } r.1 0)) ∧
          (a.psv.queue.length < r.2.psv.queue.length → exec (.jobRegWrite dt ctx ring) s
            = .next (r.2.setJob ctx ring (some { j with phase := 2, link := r.2.psv.queue.length })))) ∧
        (j.opc = 7 → a.uncommitted (a.ctxWriter ctx) = true → exec (.jobRegRead dt ctx ring) s = .next a) ∧
        (j.opc = 7 → a.uncommitted (a.ctxWriter ctx) = false → exec (.jobRegRead dt ctx ring) s
          = .next (a.jobDone ctx ring { j with aux := (a.readReg (fieldOf j.bytes 8 2) (fieldOf j.bytes 0xA 2)).toNat } 0 0)) ∧
        (j.opc = 8 → let f := (a.asAgent (.job key)).fetch j.link (fieldOf j.bytes 0xA 2)
          let n := fieldOf j.bytes 8 1
          a.readsClean = true → f.2.grf.miss = false → f.1.code = 0 →
            (4 ≤ (f.2.lane n).dlQueue.length →
              ∃ t, exec (.jobDownlink dt ctx ring) s = .next t ∧ t.job ctx ring = none ∧ a.SameBytes t ∧
                (j.sb ≠ 0xFF → (t.statusBlock ctx j.sb).code = 0xA007)) ∧
            (n < 8 → (f.2.lane n).dlQueue.length < 4 →
              ∃ t, exec (.jobDownlink dt ctx ring) s = .next t ∧ t.job ctx ring = some { j with aux := (a.lane n).dlSeq, phase := 2 } ∧
                (t.lane n).dlQueue = (f.2.lane n).dlQueue ++
                  [{ typ := fieldOf j.bytes 9 1, seq := (f.2.lane n).dlSeq, payload := f.1.bytes, job := some key }] ∧
                (t.lane n).dlSeq = ((f.2.lane n).dlSeq + 1) % 256 ∧ a.SameBytes t)) ∧
        (j.opc = 9 →
          (a.fld (F.GRF_BAR_STATUS_STATE j.link) = 1 → exec (.jobBarrier dt ctx ring) s = .next (a.jobDone ctx ring j 0xA018 0)) ∧
          (a.fld (F.GRF_BAR_STATUS_STATE j.link) = 2 → exec (.jobBarrier dt ctx ring) s = .next (a.jobDone ctx ring j 0x4013 0)) ∧
          (a.fld (F.GRF_BAR_STATUS_STATE j.link) = 0 → exec (.jobBarrier dt ctx ring) s = .next ((a.jobBegin ctx ring j).barArrive j.link)))) ∧
      (j.phase = 2 → j.opc = 3 → let f := (a.asAgent (.job key)).fetch j.link j.copyBytes
        a.readsClean = true → f.2.grf.miss = false → ∃ t, exec (.copyComplete dt ctx ring) s = .next t ∧ t.job ctx ring = none ∧ a.SameBytes t ∧
          t.hif.hostWrote = some (fieldOf j.bytes 8 8, f.1.bytes) ∧
          t.hif.hostAccess = some ⟨a.ctxOwner ctx, fieldOf j.bytes 8 8, j.copyBytes, true⟩) ∧
      (j.phase = 2 → j.opc = 2 → a.mem.upsets = [] → j.data.length = j.copyBytes → inLine j.link j.copyBytes = true → a.awaits (.job key) = false →
        a.mem.shardBase4M < 2048 → a.mem.chGib ≤ 8 → ∀ c x, a.home j.link = .dram c x → a.mem.failed.contains c = false →
          ∃ t, exec (.copyComplete dt ctx ring) s = .next t ∧ t.job ctx ring = none ∧ t.peek j.link j.copyBytes = j.data ∧
            ∀ e, e < j.link ∨ j.link + j.copyBytes ≤ e → t.peekByte e = a.peekByte e))

/-- CTX_RESET, VF_FLR, PF_FLR, PERST, HOST_ACCESS_FAIL, POISONED_TLP, FUNC_CTX_WRITE, MSIX_UNMASK, L1_ENTRY, HOST_CONFIG_READY. Rests on R559, R564, R565, R595, R596, R597, R598, R602, R603, R786, R793. -/
def Obligations.HostSideEvents : Prop :=
  (∀ (s : State) (dt fn ctx : Nat), ctx < 4096 →
    let a := s.arrive dt
    (fn = 0 ∨ fn ≤ a.hif.numVfs → a.hif.pcie.asleep.contains fn = false → a.ctxOwner ctx = fn → ∃ t, exec (.ctxReset dt fn ctx) s = .next t ∧
      (∀ r, r ≤ 1 → t.head ctx r = 0 ∧ t.tail ctx r = 0 ∧ t.job ctx r = none) ∧ t.ctxFaulted ctx = false ∧ t.fld (F.CTX_FAULT_CODE ctx) = 0) ∧
    (fn ≠ 0 → a.ctxOwner ctx ≠ fn → exec (.ctxReset dt fn ctx) s = .next a.hostTlp) ∧
    (1 ≤ fn → fn ≤ a.hif.numVfs → exec (.vfFlr dt fn) s =
      .next ((a.hostTlp.updHif (fun h => { h with pcie := { h.pcie with asleep := h.pcie.asleep.filter (· != fn) } })).vfReset fn)) ∧
    (fn = 0 ∨ a.hif.numVfs < fn → exec (.vfFlr dt fn) s = .next a)) ∧
  (∀ (s : State) (dt : Nat) (down : Bool),
    let a := s.arrive dt
    (∃ t, exec (.pfFlr dt down) s = .next t ∧ t.hif.vfEnable = false ∧ t.hif.numVfs = 0 ∧ t.hif.linkUp = (a.hif.linkUp && !down) ∧ t.hif.pcie = {} ∧
      (down = false → t.fld F.HIF_STATUS_SPEED = a.fld F.HIF_STATUS_SPEED ∧ t.fld F.HIF_STATUS_WIDTH = a.fld F.HIF_STATUS_WIDTH)) ∧
    (∃ t, exec (.perst dt) s = .next t ∧ t.hif.vfEnable = false ∧ t.hif.numVfs = 0 ∧ t.hif.linkUp = false)) ∧
  (∀ (s : State) (dt ctx ring k : Nat) (j : Job), ctx < 4096 → ring ≤ 1 →
    let a := s.arrive dt
    (a.job ctx ring = some j → j.phase = 2 → j.opc = 3 → a.readsClean = true → ∃ t, exec (.hostAccessFail dt ctx ring k) s = .next t ∧ t.job ctx ring = none ∧ a.SameBytes t ∧
      t.fld F.HIF_HOST_DMA_ERR_CNT = min (2 ^ 32 - 1) (a.fld F.HIF_HOST_DMA_ERR_CNT + 1) ∧ (t.page 0x100).eventRaw.getLsbD 1 = true ∧
      (j.sb ≠ 0xFF → (t.statusBlock ctx j.sb).code = 0x4020 ∧ (t.statusBlock ctx j.sb).doneBytes = min k j.copyBytes)) ∧
    (a.job ctx ring = none → exec (.hostAccessFail dt ctx ring k) s = .next a)) ∧
  (∀ (s : State) (dt : Nat),
    let a := s.arrive dt
    (∀ ecrc, ecrc = false ∨ a.hif.pcie.ecrcCheck = true →
      ∃ t, exec (.poisonedTlp dt ecrc) s = .next t ∧ t.fld F.HIF_RX_POISON_CNT = min (2 ^ 32 - 1) (a.fld F.HIF_RX_POISON_CNT + 1) ∧
        t.hif.aerPoison = (a.hif.aerPoison || !ecrc) ∧ t.hif.aerEcrc = (a.hif.aerEcrc || ecrc) ∧ (t.page 0x100).eventRaw.getLsbD 2 = true ∧
        t.mem = a.mem) ∧
    (a.hif.pcie.ecrcCheck = false → exec (.poisonedTlp dt true) s = .next a.hostTlp) ∧
    (a.hif.linkUp = true → a.hif.tlpAt + usCycles 64 ≤ a.cycles → ∃ t, exec (.l1Entry dt) s = .next t ∧ t.hif.l1 = true ∧ t.regs = a.regs ∧ t.mem = a.mem) ∧
    (a.hif.linkUp = false ∨ a.cycles < a.hif.tlpAt + usCycles 64 → exec (.l1Entry dt) s = .next a) ∧
    (∀ speed width cfg, ∃ t, exec (.hostConfigReady dt speed width cfg) s = .next t ∧ t.hif.linkUp = true ∧ t.hif.pcie = cfg ∧ t.fld F.HIF_STATUS_SPEED = speed % 16 ∧
      t.fld F.HIF_STATUS_WIDTH = width % 16 ∧ t.flag F.GLB_BOOT_STATUS_HOST_READY = true ∧ t.mem = a.mem)) ∧
  (∀ (s : State) (dt w n : Nat) (v : Word), 1 ≤ n → n ≤ 63 →
    let b := s.arriveBy dt w
    b.admitsRwl 0x101 (0x40 + 8 * n) w v = true →
      (((List.range 4096).filter (fun c => inRange (getBits v 11 0) (getBits v 19 12) c !=
          inRange (b.fld (F.HIF_FUNC_CTX_CTX_BASE n)) (b.fld (F.HIF_FUNC_CTX_CTX_COUNT n)) c)).all (fun c => b.ctxState c == 0) = true →
        ∃ t, exec (.funcCtxWrite dt w n v) s = .next t ∧ t.cell (R.HIF_FUNC_CTX n) = v &&& 0x000FFFFF ∧
        (t.page 0x101).lastWriter = w) ∧
      (∀ c, c < 4096 → b.ctxState c ≠ 0 → inRange (getBits v 11 0) (getBits v 19 12) c = true →
        inRange (b.fld (F.HIF_FUNC_CTX_CTX_BASE n)) (b.fld (F.HIF_FUNC_CTX_CTX_COUNT n)) c = false →
          exec (.funcCtxWrite dt w n v) s = .next (b.error 0x101 0xA01A 0))) ∧
  (∀ (s : State) (dt fn v : Nat), v < 32 →
    let a := s.arrive dt
    (1 ≤ fn → fn ≤ a.hif.numVfs → ∃ t, exec (.msixUnmask dt fn v) s = .next t ∧ t.vfUnmasked fn v = true ∧
      t.hif.vfPending.contains (fn * 32 + v) = false ∧
      t.hif.msixSent = (if a.hif.vfPending.contains (fn * 32 + v) then a.hif.msixSent ++ [fn * 32 + v] else a.hif.msixSent)) ∧
    (a.hostTlp.admits 0x10B (0x80C + 16 * v) 0x40 0 = true → bitOf (a.cell R.HIF_MSIX_PBA).toNat v = true →
      ∃ t, exec (.msixUnmask dt 0 v) s = .next t ∧ t.cell (R.HIF_MSIX (4 * v + 3)) = 0 ∧ (t.cell R.HIF_MSIX_PBA).getLsbD v = false ∧
        t.hif.msixSent = a.hif.msixSent ++ [v]))

/-- PRIVATE_POST, SLOT_FREE, TAKE, HOST_NOTE, PRIV_POLICY, MAILBOX_SEND, SEND_CMD, MB_TAKE, doorbells, MBX_CFG_WRITE. Rests on R609, R610, R611, R612, R614, R617, R622, R623, R624, R632, R634, R641. -/
def Obligations.MailboxesAndDoorbells : Prop :=
  (∀ (s : State) (dt fn ctx slot : Nat), ctx < 4096 → slot < 8 →
    let a := s.arrive dt
    fn = 0 ∨ fn ≤ a.hif.numVfs → a.hif.pcie.asleep.contains fn = false → a.ctxOwner ctx = fn →
      (∀ bs, bs.length = 4 → a.privState ctx slot ≠ 1 → bs.getD 3 0 = 1 → a.rstAway = false →
        ((bs.getD 1 0).toNat ≤ 48 → ∃ t, exec (.privatePost dt fn ctx slot 0 bs) s = .next t ∧ t.privState ctx slot = 1 ∧
          t.hif.posted = a.postAt (ctx, slot) a.hif.posted ∧
          ((∀ y ∈ a.hif.posted, a.privStamp y ≠ a.timebase) → t.hif.posted = a.hif.posted ++ [(ctx, slot)]) ∧ t.fld F.MBX_PRIV_POST_CNT = min (2 ^ 32 - 1) (a.fld F.MBX_PRIV_POST_CNT + 1) ∧ t.mem = a.mem) ∧
        (48 < (bs.getD 1 0).toNat → ∃ t, exec (.privatePost dt fn ctx slot 0 bs) s = .next t ∧ t.privState ctx slot = 3 ∧ t.hif.posted = a.hif.posted)) ∧
      (∀ off bs, slotPiece off bs.length = true → a.privState ctx slot = 1 →
        exec (.privatePost dt fn ctx slot off bs) s = .next (a.hostTlp.slotBusy ctx slot)) ∧
      (a.privState ctx slot ≠ 1 → ∃ t, exec (.privateSlotFree dt fn ctx slot) s = .next t ∧ t.privState ctx slot = 0 ∧
        t.hif.posted = a.hif.posted ∧ t.regs = a.regs ∧ t.mem = a.mem)) ∧
  (∀ (s : State) (dt : Nat),
    let a := s.arrive dt
    (a.rstUp = false ∨ a.hif.posted = [] → exec (.privateTake dt) s = .next a ∧ exec (.hostNote dt) s = .next a) ∧
    (∀ ctx slot rest, a.rstUp = true → a.hif.posted = (ctx, slot) :: rest →
      let u := ((a.updHif (fun h => { h with posted := rest })).setRstRx 0).setPriv ctx slot 3 [2]
      exec (.privateTake dt) s = .next (u.rstRequest ctx slot) ∧ u.privState ctx slot = 2 ∧
      (a.privByte ctx slot 0 = 2 → exec (.hostNote dt) s = .next (u.rstRequest ctx slot)) ∧
      (a.privByte ctx slot 0 ≠ 2 → exec (.hostNote dt) s = .next a))) ∧
  (∀ (s : State) (dt w k : Nat) (v : Word), k < 128 →
    let b := s.arriveBy dt w
    b.admitsRwl 0x111 (0x40 + 4 * k) w v = true →
      ∃ t, exec (.privPolicyWrite dt w k v) s = .next t ∧ t.cell (R.MBX_PRIV_POLICY k) = v ∧ (t.page 0x111).lastWriter = w ∧ t.mem = b.mem) ∧
  (∀ (s : State) (dt m : Nat) (who : Requester) (bytes : List Byte), m < 256 → bytes.length = 64 →
    let a := (s.arrive dt).asAgent (agentOf who)
    a.flag F.MBX_CFG_AREA_EN = true →
      (a.mbxOpen = true → a.flag (F.MBX_MB_CTL_FWD_EN (m / 32) (m % 32)) = false →
        ∃ t, exec (.mailboxSend dt who m 0 bytes) s = .next t ∧ t.flag (F.MBX_MB_CTL_FULL (m / 32) (m % 32)) = true ∧
          t.fld (F.MBX_MB_CNT_WRITE_CNT (m / 32) (m % 32)) = (a.fld (F.MBX_MB_CNT_WRITE_CNT (m / 32) (m % 32)) + 1) % 2 ^ 32 ∧
          t.mbSlot m = stampSlot bytes a.senderOf a.nodeId a.timebase ∧ t.mem = a.mem) ∧
      (a.mbxOpen = false → ∃ t, exec (.mailboxSend dt who m 0 bytes) s = .next t ∧
        t.fld F.MBX_REFUSED_CNT = min (2 ^ 32 - 1) (a.fld F.MBX_REFUSED_CNT + 1) ∧ t.mbSlot m = a.mbSlot m)) ∧
  (∀ (s : State) (dt w m : Nat) (v : Word), m < 256 →
    let b := s.arriveBy dt w
    (∀ (rst : Bool) (c : Instr), (rst, c) ∈ [(true, .sendCmdRst dt w m), (false, .sendCmdPf dt w m)] →
      b.admits 0x110 (if rst then 0x50 else 0x54) w (word (2 ^ 8 + m)) = true →
        (stageWriter rst w = false → exec c s = .next (b.bump F.MBX_REFUSED_CNT)) ∧
        (stageWriter rst w = true → b.mbxOpen = true → b.flag (F.MBX_MB_CTL_FWD_EN (m / 32) (m % 32)) = false →
          ∃ t, exec c s = .next t ∧ t.flag (F.MBX_MB_CTL_FULL (m / 32) (m % 32)) = true ∧
            t.mbSlot m = stampSlot (b.staged rst) (senderCode w) b.nodeId b.timebase ∧ (t.page 0x110).lastWriter = w)) ∧
    (b.admits (mbPage m) (mbOff m 2) w v = true →
      (b.fld (F.MBX_MB_CNT_WRITE_CNT (m / 32) (m % 32)) = v.toNat → ∃ t, exec (.mbTake dt w m v) s = .next t ∧
        t.flag (F.MBX_MB_CTL_FULL (m / 32) (m % 32)) = false ∧ t.mbSlot m = b.mbSlot m ∧ (t.page (mbPage m)).lastWriter = w) ∧
      (b.fld (F.MBX_MB_CNT_WRITE_CNT (m / 32) (m % 32)) ≠ v.toNat → exec (.mbTake dt w m v) s = .next (b.wrote (mbPage m) w)))) ∧
  (∀ (s : State) (dt w r : Nat) (v : Word), r ≤ 128 →
    let b := s.arriveBy dt w
    (b.admits 0x11A (dbOff r 3) w v = true → ∃ t, exec (.dbRing dt w r v) s = .next t ∧ t.cell (R.MBX_DB_PEND r) = b.cell (R.MBX_DB_PEND r) ||| v ∧
      t.fld F.MBX_DB_RING_CNT = min (2 ^ 32 - 1) (b.fld F.MBX_DB_RING_CNT + 1) ∧ t.cell (R.MBX_DB_MASK r) = b.cell (R.MBX_DB_MASK r)) ∧
    (b.admits 0x11A (dbOff r 0) w v = true → ∃ t, exec (.dbPendClear dt w r v) s = .next t ∧
      t.cell (R.MBX_DB_PEND r) = b.cell (R.MBX_DB_PEND r) &&& ~~~(v &&& ~~~b.risen (R.MBX_DB_PEND r)) ∧ b.SameRegs t [R.MBX_DB_PEND r] ∧ t.mem = b.mem) ∧
    (b.admits 0x11A (dbOff r 1) w v = true → ∃ t, exec (.dbMaskWrite dt w r v) s = .next t ∧ t.cell (R.MBX_DB_MASK r) = v ∧
      t.cell (R.MBX_DB_PEND r) = b.cell (R.MBX_DB_PEND r) ∧ t.mem = b.mem)) ∧
  (∀ (s : State) (dt w off : Nat) (v : Word), off = 0x40 ∨ off = 0x44 ∨ off = 0x48 →
    let b := s.arriveBy dt w
    b.admitsRwl 0x110 off w v = true →
      ((b.page 0x110).enable = true → exec (.mbxCfgWrite dt w off v) s = .next (b.error 0x110 0xA01E 0)) ∧
      ((b.page 0x110).enable = false → ∃ t, exec (.mbxCfgWrite dt w off v) s = .next t ∧ (t.page 0x110).lastWriter = w ∧ t.mem = b.mem ∧
        (off = 0x40 → t.fld F.MBX_CFG_AREA_EN = getBits v 0 0) ∧ (off = 0x44 → t.fld F.MBX_AREA_LO_ADDR = getBits v 31 15) ∧
        (off = 0x48 → t.fld F.MBX_AREA_HI_ADDR = getBits v 15 0)))

/-- ROOTSTOCK_RESET, ROOTSTOCK_READY, RST_RESET_REQ, RST_WATCHDOG, LOCKSTEP_MISMATCH, SRAM_UE, ROOTSTOCK_ASLEEP: how Rootstock stops and starts. Rests on R616, R645, R646, R647, R648, R649, R671, R687, R689, R800. -/
def Obligations.RootstockResetsAndReadies : Prop :=
  ∀ (s : State) (dt : Nat) (flash rom : Bool) (digA digB : List Nat),
    let a := s.arrive dt
    (a.rst.resetDue = none → a.dbgLevel ≠ 3 → exec (.rootstockReset dt flash rom digA digB) s = .next a) ∧
    (∀ c, a.rst.resetDue = some c → c < 16 → ∃ t, exec (.rootstockReset dt flash rom digA digB) s = .next t ∧
      t.fld F.RST_RESET_CAUSE = c ∧ t.fld F.RST_RESET_CNT = min (2 ^ 32 - 1) (a.fld F.RST_RESET_CNT + 1) ∧ t.rst.ring = [] ∧
      t.rst.resetDue = none ∧ t.rst.nonce = none ∧ t.flag F.RST_STATUS_READY = false ∧ t.fld F.MBX_RST_RX_STATE = (if rom then 2 else 3) ∧
      t.flag F.RST_STATUS_DEAD = !rom) ∧
    (∀ w key, let b := s.arriveBy dt w
      b.admitsRws 0x130 0x58 w (word (key % 2 ^ 16 * 2 ^ 16 + 1)) = true →
        (w = Writer.pf → key % 2 ^ 16 = 0x5253 →
          (b.framePaced = true → b.fld F.MBX_RST_RX_STATE ≠ 3 → exec (.rstResetReq dt w key 1) s = .next (b.error 0x130 0xA020 (infoOffWriter 0x58 w))) ∧
          (b.framePaced = false → ∃ t, exec (.rstResetReq dt w key 1) s = .next t ∧ t.rst.resetDue = some 2 ∧ t.regs = b.regs ∧ t.mem = b.mem ∧
            (t.page 0x130).lastWriter = w)) ∧
        (key % 2 ^ 16 ≠ 0x5253 → exec (.rstResetReq dt w key 1) s = .next b)) ∧
    (a.flag F.RST_STATUS_DEAD = true → exec (.rstWatchdog dt flash rom digA digB) s = .next a ∧ exec (.lockstepMismatch dt) s = .next a ∧
      exec (.sramUe dt) s = .next a) ∧
    (a.flag F.RST_STATUS_DEAD = false → a.causeClass Cause.rstWatchdog = 1 → ∃ t, exec (.rstWatchdog dt flash rom digA digB) s = .next t ∧
      t.fld F.RST_RESET_CAUSE = 3 ∧ t.fld F.MBX_RST_RX_STATE = (if rom then 2 else 3) ∧ t.rst.watchdog = true ∧
      (t.page 0x160).eventRaw.getLsbD Cause.rstWatchdog = true) ∧
    (∀ c k, (c, k) ∈ [(Instr.lockstepMismatch dt, 0x6027), (.sramUe dt, 0x601A)] → a.flag F.RST_STATUS_DEAD = false → a.saf.inSafe = true →
      (a.page 0x130).errCode = 0 → ∃ t, exec c s = .next t ∧ t.flag F.RST_STATUS_DEAD = true ∧ t.flag F.RST_STATUS_READY = false ∧
        t.fld F.MBX_RST_RX_STATE = 3 ∧ (t.page 0x130).errCode = k ∧ (t.page 0x130).cond.fault = true ∧
        (t.page 0x160).eventRaw.getLsbD Cause.lockstep = true) ∧
    (∀ boot, (a.fld F.MBX_RST_RX_STATE ≠ 2 ∨ a.fld F.RST_STATUS_MODE ≠ 0 ∨ a.flag F.GLB_BOOT_STATUS_SLOT_CHOSEN = false ∨ a.rst.romFail = true →
        exec (.rootstockReady dt boot) s = .next a) ∧
      (a.fld F.MBX_RST_RX_STATE = 2 → a.fld F.RST_STATUS_MODE = 0 → a.flag F.GLB_BOOT_STATUS_SLOT_CHOSEN = true → a.rst.romFail = false →
        a.rst.bootCount < 2 ^ 32 → a.rst.watchdog = false → a.rst.flashFail = false → a.rst.latchWait = [] → a.fld F.PSV_AGE_A_AGE_OFFSET_MV ≤ 40 →
        ∃ t, exec (.rootstockReady dt boot) s = .next t ∧ t.flag F.RST_STATUS_READY = true ∧ t.fld F.MBX_RST_RX_STATE = 0 ∧ t.fld F.RST_STATUS_MODE = 2 ∧
          t.flag F.GLB_BOOT_STATUS_FW_READY = true ∧ (t.page 0x130).eventRaw.getLsbD 0 = true ∧ a.rst.bootCount ≤ t.rst.bootCount)) ∧
    (a.fld F.MBX_RST_RX_STATE = 0 → ∃ t, exec (.rootstockAsleep dt) s = .next t ∧ t.fld F.MBX_RST_RX_STATE = 1 ∧ a.SameRegs t [R.MBX_RST_RX] ∧
      t.hdr = a.hdr ∧ t.mem = a.mem) ∧
    (a.fld F.MBX_RST_RX_STATE ≠ 0 → exec (.rootstockAsleep dt) s = .next a)

/-- THERMAL_SCAN, CLOCK_MONITOR_FAULT, VOLTAGE_WINDOW_FAULT, SHOCK_SAMPLE, COOLANT_SAMPLE, LOG_ENTRY, BB_WRITE, LOG_FETCH, LOG_FETCH_DONE. Rests on R651, R652, R653, R655, R656, R657, R658, R662, R664, R726, R844. -/
def Obligations.SensorsAndLog : Prop :=
  (∀ (s : State) (dt : Nat) (temps : List Int) (mv : List Nat),
    let a := s.arrive dt
    temps.length = 32 → mv.length = 12 → (∀ x ∈ temps, -240 ≤ x ∧ x < 404) → (∀ x ∈ mv, x < 65536) → a.saf.injActive = [] →
    a.fld F.PWR_THERM_STATUS_THERM_STATE = 0 → a.fld F.PWR_THERM_STATUS_COOL_BAND = 3 → a.flag F.RST_COOLANT_VALID = false →
      ∃ t, exec (.thermalScan dt temps mv) s = .next t ∧ (∀ k, k < 32 → t.sfld (F.RST_TS_TEMP k) = temps.getD k 0 ∧ t.flag (F.RST_TS_VALID k) = true) ∧
        (∀ k, k < 12 → t.fld (F.RST_VMON_MV k) = mv.getD k 0) ∧ t.fld F.RST_TEMP_MAX_VALID_CNT = 32 ∧ t.sfld F.RST_TEMP_MAX_TEMP ∈ temps ∧
        (∀ x ∈ temps, x ≤ t.sfld F.RST_TEMP_MAX_TEMP) ∧ t.fld F.PWR_THERM_STATUS_THERM_STATE = 0 ∧ t.rst.tsBad = a.rst.tsBad.filter (fun k => Nat.ble 32 k) ∧
        t.hdr = a.hdr ∧ t.mem = a.mem ∧ t.logQueue = a.logQueue) ∧
  (∀ (x : Int) (cur : Nat), cur ≤ 3 →
    (480 ≤ x → thermNext x cur = 3) ∧ (448 ≤ x → 2 ≤ thermNext x cur) ∧ (420 ≤ x → 1 ≤ thermNext x cur) ∧ (x < 404 → thermNext x cur = 0) ∧
      (464 ≤ x → cur = 3 → thermNext x cur = 3) ∧ (x < 464 → thermNext x cur < 3) ∧ (404 ≤ x → x < 420 → thermNext x cur = min cur 1)) ∧
  (∀ (s : State) (dt : Nat),
    let a := s.arrive dt
    (∀ k, k < 3 → a.saf.inSafe = true → ∃ t, exec (.clockMonitorFault dt k) s = .next t ∧ bitOf (t.fld F.RST_CLK_MON_FAULT) k = true ∧
      (t.page 0x160).eventRaw.getLsbD Cause.clock = true ∧ (t.page 0x160).errCode ≠ 0 ∧ t.mem = a.mem) ∧
    (∀ k mv, railOut k mv = false → exec (.voltageWindowFault dt k mv) s = .next a) ∧
    (∀ k mv, k < 12 → mv < 65536 → railOut k mv = true → a.saf.inSafe = true → ∃ t, exec (.voltageWindowFault dt k mv) s = .next t ∧
      t.fld (F.RST_VMON_MV k) = mv ∧ bitOf t.rst.railsOut k = true ∧ (t.page 0x160).eventRaw.getLsbD Cause.voltRange = true ∧ t.mem = a.mem) ∧
    (∀ res x y z, a.rstUp = false → exec (.shockSample dt res x y z) s = .next a) ∧
    (∀ x y z, a.rstUp = true → a.fld F.RST_SHOCK_CFG_LSB_MG ≠ 0 →
      (let v := shockOf (a.fld F.RST_SHOCK_CFG_LSB_MG) x y z
       ∃ t, exec (.shockSample dt 0 x y z) s = .next t ∧ t.fld F.RST_SHOCK_RAW_LEVEL = v ∧ t.fld F.RST_SHOCK_RAW_PEAK = max (a.fld F.RST_SHOCK_RAW_PEAK) v ∧
        (∀ n, n < 8 → t.fld (F.SLK_SHOCK_NOW_LEVEL n) = v) ∧ t.mem = a.mem ∧ t.logQueue = a.logQueue) ∧
      (∃ t, exec (.shockSample dt 1 x y z) s = .next t ∧ t.fld F.RST_I3C_ERR_CNT_0 = min (2 ^ 32 - 1) (a.fld F.RST_I3C_ERR_CNT_0 + 1) ∧
        t.fld F.RST_SHOCK_RAW_LEVEL = 0xFF ∧ t.rst.shockBad = true ∧ t.mem = a.mem)) ∧
    (∀ v : Int, a.rstUp = true → -640 ≤ v → v ≤ 1120 → a.fld F.PWR_THERM_STATUS_COOL_BAND = 0 → ∃ t, exec (.coolantSample dt (some v)) s = .next t ∧
      t.sfld F.RST_COOLANT_TEMP = v ∧ t.flag F.RST_COOLANT_VALID = true ∧ t.fld F.PWR_THERM_STATUS_COOL_BAND = 0 ∧ t.hdr = a.hdr ∧ t.logQueue = a.logQueue) ∧
    (a.rstUp = false ∨ a.logQueue = [] → exec (.logEntry dt) s = .next a) ∧
    (∀ q rest, a.rstUp = true → logFirst a.logQueue = some (q, rest) → a.rst.ring.length ≤ 4096 → ∃ t, exec (.logEntry dt) s = .next t ∧
      t.logQueue = rest ∧ t.rst.ring.length ≤ 4096 ∧ t.mem = a.mem ∧
      (severity q.rank q.code = 3 → t.rst.nextSeq = (a.rst.nextSeq + 1) % 2 ^ 32 ∧
        ∃ e, t.rst.ring.getLast? = some e ∧ e.code = q.code ∧ e.page = q.page ∧ e.info = q.detail ∧ e.seq = a.rst.nextSeq ∧ e.ts = a.timebase ∧ e.sev = 3)) ∧
    (∀ ok, a.rstUp = true → (a.rst.bbWait = [] ∨ a.inhibited = true → exec (.bbWrite dt ok) s = .next a)) ∧
    (∀ e rest, a.rstUp = true → a.rst.bbWait = e :: rest → a.inhibited = false → e ∈ a.rst.ring →
      (∃ t, exec (.bbWrite dt true) s = .next t ∧ t.rst.bbWait = rest ∧ Sparse.get (fun _ => none) t.rst.bb a.bbNext = some e.inBb ∧
        t.fld F.RST_BB_NEWEST_SLOT = a.bbNext ∧ t.rst.ring.length = a.rst.ring.length ∧
        ∀ k, k ≠ a.bbNext → Sparse.get (fun _ => none) t.rst.bb k = Sparse.get (fun _ => none) a.rst.bb k) ∧
      (∃ t, exec (.bbWrite dt false) s = .next t ∧ t.rst.bbWait = a.rst.bbWait ∧ t.rst.bb = a.rst.bb ∧
        t.fld F.RST_BB_FAIL_CNT = min (2 ^ 32 - 1) (a.fld F.RST_BB_FAIL_CNT + 1))) ∧
    (∀ w, let b := s.arriveBy dt w
      b.admits 0x133 0x4C w 1 = true →
        (b.flag F.RST_LOG_STATUS_BUSY = true → exec (.logFetch dt w) s = .next b) ∧
        (b.flag F.RST_LOG_STATUS_BUSY = false → ∃ t, exec (.logFetch dt w) s = .next t ∧ t.flag F.RST_LOG_STATUS_BUSY = true ∧
          t.rst.fetch = some (b.fld F.RST_LOG_SEL_SRC, b.fld F.RST_LOG_INDEX) ∧ (t.page 0x133).lastWriter = w ∧ t.mem = b.mem)) ∧
    (∀ src idx, a.rstUp = true → a.rst.fetch = some (src, idx) →
      (a.fetchEntry src idx = none → ∃ t, exec (.logFetchDone dt none) s = .next t ∧ t.fld F.RST_LOG_STATUS_RESULT = 1 ∧ t.rst.fetch = none ∧
        ∀ k, k < 8 → t.fld (F.RST_LOG_ENTRY_BYTES k) = 0) ∧
      (∀ e, a.fetchEntry src idx = some e → ∃ t, exec (.logFetchDone dt none) s = .next t ∧ t.fld F.RST_LOG_STATUS_RESULT = 0 ∧
        t.flag F.RST_LOG_STATUS_BUSY = false ∧ ∀ k, k < 8 → t.fld (F.RST_LOG_ENTRY_BYTES k) = leNat ((e.bytes.drop (4 * k)).take 4))))

/-- UPD_STAGE, ACTIVATE, CONFIRM, REVERT, REVOKE, ABORT and UPD_STAGE_DONE: the update commands. Rests on R668, R669, R670, R672, R707, R854. -/
def Obligations.UpdateCommands : Prop :=
  ∀ (s : State) (dt w key : Nat) (words : List Nat), key < 4 →
    let a := s.arrive dt
    let b := s.arriveBy dt w
    let n := b.bootedSlot
    let quiet := b.flag F.RST_UPD_STATUS_BUSY = false
    (∀ c op pre, (c, op, pre) ∈ [(Instr.updStage dt w key words, 1, b.romRecovery || b.fld (slotState n) != Slot.trial),
        (.updActivate dt w key words, 2, b.fld (slotState b.activateTarget) == Slot.staged),
        (.updConfirm dt w key words, 3, b.flag F.RST_STATUS_READY && b.fld (slotState n) == Slot.trial),
        (.updRevert dt w key words, 4, b.fld (slotState n) == Slot.trial), (.updRevoke dt w key words, 6, key != (b.slotImage n).keySlot)] →
      b.admitsRws 0x131 0x4C w (updWord op key) = true →
        (b.flag F.RST_UPD_STATUS_BUSY = true ∨ b.updServed op = false → exec c s = .next (b.error 0x131 0xA020 (infoOffWriter 0x4C w))) ∧
        (quiet → b.updServed op = true → (pre = false ∨ b.securityRoom words = false) →
          ∃ t, exec c s = .next t ∧ t.fld F.RST_UPD_RESULT_CODE = (if pre then 0x7001 else 0xA020) ∧ t.flag F.RST_UPD_STATUS_BUSY = false ∧
            t.cell R.RST_SLOT_A = b.cell R.RST_SLOT_A ∧ t.cell R.RST_SLOT_B = b.cell R.RST_SLOT_B ∧ t.rst = b.rst ∧
            (t.page 0x131).eventRaw.getLsbD 1 = true ∧ t.mem = b.mem)) ∧
    (quiet → b.flag F.RST_STATUS_READY = true → b.romRecovery = false → b.securityRoom words = true →
      (b.admitsRws 0x131 0x4C w (updWord 1 key) = true → b.fld (slotState n) ≠ Slot.trial →
        ∃ t, exec (.updStage dt w key words) s = .next t ∧ t.fld (slotState (1 - n)) = Slot.staging ∧ t.flag F.RST_UPD_STATUS_BUSY = true ∧
          (t.rst.stage.map (fun r => (r.slot, r.size))) = some (1 - n, b.fld F.RST_UPD_SIZE) ∧ t.fld (slotState n) = b.fld (slotState n)) ∧
      (b.admitsRws 0x131 0x4C w (updWord 2 key) = true → b.fld (slotState (1 - n)) = Slot.staged →
        ∃ t, exec (.updActivate dt w key words) s = .next t ∧ t.fld (slotState (1 - n)) = Slot.trial ∧ t.fld (slotTries (1 - n)) = 0 ∧
          t.fld F.RST_UPD_RESULT_CODE = 0 ∧ t.fld (slotState n) = b.fld (slotState n)) ∧
      (b.admitsRws 0x131 0x4C w (updWord 3 key) = true → b.fld (slotState n) = Slot.trial →
        ∃ t, exec (.updConfirm dt w key words) s = .next t ∧ t.fld (slotState n) = Slot.good ∧ t.flag (slotActive n) = true ∧
          t.flag (slotActive (1 - n)) = false ∧ t.fld F.RST_MIN_SVN = max (b.fld F.RST_MIN_SVN) (b.fld (slotSvn n)) ∧ t.fld F.RST_UPD_RESULT_CODE = 0) ∧
      (b.admitsRws 0x131 0x4C w (updWord 4 key) = true → b.fld (slotState n) = Slot.trial →
        ∃ t, exec (.updRevert dt w key words) s = .next t ∧ t.fld (slotState n) = Slot.bad ∧ t.fld (slotState (1 - n)) = b.fld (slotState (1 - n)) ∧
          t.fld F.RST_UPD_RESULT_CODE = 0 ∧ (t.page 0x131).eventRaw.getLsbD 2 = true) ∧
      (b.admitsRws 0x131 0x4C w (updWord 6 key) = true → key ≠ (b.slotImage n).keySlot →
        ∃ t, exec (.updRevoke dt w key words) s = .next t ∧ bitOf (t.fld F.RST_KEY_REVOKED_KEYS) key = true ∧
          (∀ k, bitOf (b.fld F.RST_KEY_REVOKED_KEYS) k = true → bitOf (t.fld F.RST_KEY_REVOKED_KEYS) k = true) ∧ t.fld F.RST_UPD_RESULT_CODE = 0)) ∧
    (b.admitsRws 0x131 0x4C w (updWord 5 key) = true →
      (b.rst.stage = none → b.updServed 5 = false → exec (.updAbort dt w key) s = .next (b.error 0x131 0xA020 (infoOffWriter 0x4C w))) ∧
      (b.rst.stage = none → b.updServed 5 = true → ∃ t, exec (.updAbort dt w key) s = .next t ∧ t.fld F.RST_UPD_RESULT_CODE = 0xA020 ∧
        t.flag F.RST_UPD_STATUS_BUSY = false ∧ (t.page 0x131).lastWriter = w ∧ t.rst = b.rst ∧ t.mem = b.mem) ∧
      (∀ r, b.rst.stage = some r → ∃ t, exec (.updAbort dt w key) s = .next t ∧ t.rst.stage = none ∧ t.fld (slotState r.slot) = Slot.empty ∧
        t.fld F.RST_UPD_RESULT_CODE = 0xA021 ∧ t.flag F.RST_UPD_STATUS_BUSY = false ∧ t.mem = b.mem)) ∧
    (∀ flash, a.rst.stage = none → exec (.updStageDone dt flash) s = .next a) ∧
    (∀ flash r, a.rst.stage = some r → a.rstUp = true → a.readsClean = true →
      let b := (a.read r.addr (min r.size (16 * 2 ^ 20))).bytes
      let code := a.stageChecks r b (a.read r.addr (min (fieldAt b 8 4) (16 * 2 ^ 20))).poison
      ∃ t, exec (.updStageDone dt flash) s = .next t ∧ t.rst.stage = none ∧ t.flag F.RST_UPD_STATUS_BUSY = false ∧ a.SameBytes t ∧
        t.fld (slotState r.slot) = (if code.isNone && flash then Slot.staged else Slot.empty) ∧
        t.fld F.RST_UPD_RESULT_CODE = (match code with | some c => c | none => if flash then 0 else 0x501A))

/-- OVERRIDE_SET, OVERRIDE_CLEAR, the DBG_ rows, TAP_RESET, lease and lockout, DMI_HALT and the JTAG_ rows: override and debug. Rests on R155, R676, R677, R679, R680, R681, R682, R683, R819, R840. -/
def Obligations.OverrideAndDebug : Prop :=
  ∀ (s : State) (dt w : Nat),
    let a := s.arrive dt
    let b := s.arriveBy dt w
    let d := a.leaveScan 0x23
    (∀ key x c, (x, c) ∈ [(1, Instr.overrideSet dt w key), (0, .overrideClear dt w key)] →
      b.admitsRws 0x130 0x54 w (word (key % 2 ^ 16 * 2 ^ 16 + x)) = true → w = Writer.pf →
        (key % 2 ^ 16 ≠ 0x4F56 → exec c s = .next b) ∧
        (key % 2 ^ 16 = 0x4F56 → ∃ t, exec c s = .next t ∧ t.flag F.RST_STATUS_OVERRIDE = (x == 1) ∧ (t.page 0x130).lastWriter = w ∧
          (x = 1 → b.flag F.RST_STATUS_OVERRIDE = false → (t.page 0x130).cond.limited = false ∧ (t.page 0x010).cond.limited = false ∧
            t.degrade % 2 = 1 ∧ (t.page 0x130).eventRaw.getLsbD 2 = true) ∧
          (b.flag F.RST_STATUS_OVERRIDE = (x == 1) → t.regs = b.regs ∧ t.rst = b.rst ∧ t.frm = b.frm))) ∧
    (∀ nonce, let d := a.leaveScan 0x20
      (a.rstUp = false → exec (.dbgChallenge dt nonce) s = .next d) ∧
      (a.rstUp = true → exec (.dbgChallenge dt nonce) s = .next { d with rst := { d.rst with nonce := some (nonce % 2 ^ 256) } })) ∧
    (∀ r, let d := a.leaveScan 0x21
      (a.rstUp = false → exec (.dbgResponse dt r) s = .next d) ∧
      (a.rstUp = true → fieldAt r 4 4 ≠ 0 → exec (.dbgResponse dt r) s = .next (d.error 0x134 0x1001 (infoStruct 4))) ∧
      (a.rstUp = true → fieldAt r 4 4 = 0 → r.length = 200 → ∃ t, exec (.dbgResponse dt r) s = .next t ∧ t.rst.nonce = none ∧
        (a.dbgAccepted r = true → t.dbgLevel = fieldAt r 0 1 ∧ t.rst.leaseEnd = a.cycles + 200000000 * fieldAt r 2 2 ∧ t.rst.refusals = 0 ∧
          (t.page 0x134).eventRaw.getLsbD 0 = true) ∧
        (a.dbgAccepted r = false → t.dbgLevel = a.dbgLevel ∧ t.rst.leaseEnd = a.rst.leaseEnd ∧
          t.fld F.RST_DBG_FAIL_CNT = min (2 ^ 32 - 1) (a.fld F.RST_DBG_FAIL_CNT + 1) ∧ (t.page 0x134).eventRaw.getLsbD 2 = true))) ∧
    (∀ addr v, (addr % 4 = 0 ∨ a.dbgLevel = 0 → exec (.dbgReg dt addr false v) s = .next d) ∧
      (addr % 4 ≠ 0 → a.dbgLevel ≠ 0 → exec (.dbgReg dt addr false v) s = .next (d.badAccess (addr / 4096) (addr % 4096) 0)) ∧
      (a.dbgLevel < 2 → exec (.dbgReg dt addr true v) s = .next d) ∧
      (2 ≤ a.dbgLevel → addr % 4 ≠ 0 → exec (.dbgReg dt addr true v) s = .next (d.badAccess (addr / 4096) (addr % 4096) Writer.debugger)) ∧
      (2 ≤ a.dbgLevel → addr % 4 = 0 → exec (.dbgReg dt addr true v) s = .next (d.regWrite (addr / 4096) (addr % 4096) Writer.debugger v))) ∧
    (∀ c ir, (c, ir) ∈ [(Instr.dbgClose dt, 0x24), (.tapReset dt, 0x02)] →
      (a.dbgLevel = 0 → exec c s = .next (a.leaveScan ir)) ∧
      (a.dbgLevel ≠ 0 → ∃ t, exec c s = .next t ∧ t.dbgLevel = 0 ∧ t.fld F.RST_STATUS_DEBUG = 0 ∧ t.rst.halted = false ∧ t.gpio.scan = false ∧
        (t.page 0x134).eventRaw.getLsbD 1 = true ∧ t.mem = a.mem)) ∧
    (a.dbgLevel = 0 ∨ a.cycles < a.rst.leaseEnd → exec (.debugLeaseExpire dt) s = .next a) ∧
    (a.dbgLevel ≠ 0 → a.rst.leaseEnd ≤ a.cycles → ∃ t, exec (.debugLeaseExpire dt) s = .next t ∧ t.dbgLevel = 0 ∧ t.rst.halted = false) ∧
    (a.cycles < a.rst.lockoutEnd → exec (.debugLockoutEnd dt) s = .next a) ∧
    (a.rst.lockoutEnd ≤ a.cycles → a.flag F.RST_DBG_STATUS_LOCKOUT = true → ∃ t, exec (.debugLockoutEnd dt) s = .next t ∧
      t.flag F.RST_DBG_STATUS_LOCKOUT = false ∧ t.dbgLevel = a.dbgLevel ∧ a.SameRegs t [R.RST_DBG_STATUS] ∧ t.hdr = a.hdr) ∧
    (∀ v, b.admitsRws 0x134 0x4C w v = true → ∃ t, exec (.dbgCfgWrite dt w v) s = .next t ∧ t.fld F.RST_DBG_CFG_MAX_LEVEL = getBits v 2 1 ∧
      t.fld F.RST_DBG_CFG_ALLOW = getBits v 0 0 ∧ (t.page 0x134).lastWriter = w ∧ (getBits v 0 0 = 0 → t.dbgLevel = 0) ∧
      (getBits v 0 0 = 1 → t.dbgLevel = b.dbgLevel)) ∧
    (let d := a.leaveScan 0x11
     (a.dbgLevel ≠ 3 → exec (.dmiHalt dt) s = .next d) ∧
     (a.dbgLevel = 3 → (a.framePaced = true → exec (.dmiHalt dt) s = .next (d.setFld F.RST_DBG_STATUS_HALT_REFUSED 1)) ∧
      (a.framePaced = false → exec (.dmiHalt dt) s = .next { d with rst := { d.rst with halted := true } }))) ∧
    (∀ c ir, (c, ir) ∈ [(Instr.jtagExtest dt, 0x00), (.jtagClamp dt, 0x03), (.jtagHighz dt, 0x04)] →
      let scan := fun (on : Bool) => { a with rst := { a.rst with ir := ir }, gpio := { a.gpio with scan := on } }
      (a.dbgLevel = 3 → a.pstate 0x010 ≠ St.running → exec c s = .next (scan true)) ∧
      (a.dbgLevel ≠ 3 ∨ a.pstate 0x010 = St.running → exec c s = .next (scan false) ∧ (scan false).jtagActs = 0x3F)) ∧
    (∀ ir, let t := { a with rst := { a.rst with ir := jtagSelect ir }, gpio := { a.gpio with scan := false } }
      exec (.jtagOtherInstruction dt ir) s = .next t ∧ (ir ∉ jtagCodes → t.jtagActs = 0x3F) ∧ (ir = 0x02 → t.jtagCapture = some (32, 0x10064D57)))

/-- PERSIST_WRITE, PERSIST_COMMIT_DONE, BROWN_OUT, BROWN_OUT_END, WEAR_SEL_WRITE, LIFETIME_COMMIT: the persistent store. Rests on R692, R695, R696, R699, R700, R701, R702, R706, R708, R709, R713, R741. -/
def Obligations.PersistentStore : Prop :=
  (∀ (s : State) (dt w p k : Nat) (lo hi : Word), 0x220 ≤ p → p < 0x260 → k < 504 →
    let b := s.arriveBy dt w
    let v := lo.toNat + 2 ^ 32 * hi.toNat
    let queued := b.psv.queue.any (fun x => x.page == p && x.word == k)
    (b.persistAdmit p (0x40 + 8 * k) w lo).1 = true → (b.persistAdmit p (0x44 + 8 * k) w hi).1 = true → b.flag F.PSV_STATUS_RESTORED = true →
      ∃ t, exec (.persistWrite dt p k [⟨w, lo⟩] [⟨w, hi⟩]) s = .next t ∧ t.committed p k = b.committed p k ∧ t.psv.cells = b.psv.cells ∧ t.mem = b.mem ∧
        (b.inhibited = true → t.psv.queue = b.psv.queue ∧ Sparse.get (fun _ => 0) t.psv.lastResult p = 3) ∧
        (b.inhibited = false → (b.nvm (cellIndex p k)).wear = 200000 → t.psv.queue = b.psv.queue ∧ Sparse.get (fun _ => 0) t.psv.lastResult p = 4) ∧
        (b.inhibited = false → (b.nvm (cellIndex p k)).wear ≠ 200000 →
          (v = b.committed p k → queued = false → t.psv.queue = b.psv.queue ∧ Sparse.get (fun _ => 0) t.psv.lastResult p = 1 ∧
            t.fld F.PSV_ELIDED_CNT = min (2 ^ 32 - 1) (b.fld F.PSV_ELIDED_CNT + 1)) ∧
          (v ≠ b.committed p k ∨ queued = true →
            (16 ≤ b.psv.queue.length → t.psv.queue = b.psv.queue ∧ Sparse.get (fun _ => 0) t.psv.lastResult p = 2) ∧
            (b.psv.queue.length < 16 → t.psv.queue = b.psv.queue ++ [⟨p, k, v, w⟩] ∧ (t.page p).cond.running = true ∧
              t.fld F.PSV_STATUS_QUEUED = b.psv.queue.length + 1 ∧ (t.page p).lastWriter = w)))) ∧
  (∀ (s : State) (dt : Nat),
    let a := s.arrive dt
    (∀ ok, a.psv.queue = [] → exec (.persistCommitDone dt ok) s = .next a) ∧
    (∀ q rest, a.psv.queue = q :: rest → isPersistent q.page = true → q.page < 0x260 → q.word < 504 → q.data < 2 ^ 64 →
      (∀ x, (a.nvm (cellIndex q.page q.word)).current = some x → x.2.2.1 < 65536) →
        let i := cellIndex q.page q.word
        let rise := q.page = 0x213 ∧ q.word = 0 ∧ a.fld F.PSV_AGE_A_AGE_OFFSET_MV < q.data % 256
        (∃ t, exec (.persistCommitDone dt true) s = .next t) ∧
        (¬ rise ∨ a.saf.inSafe = true ∨ a.causeClass Cause.lifetime = 1 → ∃ t, exec (.persistCommitDone dt true) s = .next t ∧ t.psv.queue = rest ∧ t.committed q.page q.word = q.data ∧
          (t.nvm i).current.map (fun x => x.2.1) = some q.data ∧ (t.nvm i).wear = min 200000 ((a.nvm i).wear + 1) ∧ (t.nvm i).cls = 0 ∧
          (∀ j, j ≠ i → t.nvm j = a.nvm j) ∧ Sparse.get (fun _ => 0) t.psv.lastResult q.page = 0 ∧
          t.fld F.PSV_COMMIT_CNT = min (2 ^ 32 - 1) (a.fld F.PSV_COMMIT_CNT + 1) ∧
          (rise → t.pwr.oldOffset = a.fld F.PSV_AGE_A_AGE_OFFSET_MV ∧ t.pwr.roseAt = some a.cycles ∧ (t.page 0x150).eventRaw.getLsbD 5 = true ∧
            (40 < q.data % 256 → t.pwr.ageReported = true ∧
              (a.pwr.ageReported = false → a.fld F.MBX_RST_RX_STATE ≤ 1 → (t.page 0x160).eventRaw.getLsbD Cause.lifetime = true)))) ∧
        (a.psv.retried = false → exec (.persistCommitDone dt false) s = .next { a with psv := { a.psv with retried := true } }) ∧
        (a.psv.retried = true → ∃ t, exec (.persistCommitDone dt false) s = .next t ∧ t.psv.queue = rest ∧
          t.committed q.page q.word = a.committed q.page q.word ∧ (t.nvm i).wear = min 200000 ((a.nvm i).wear + 2) ∧
          (∀ j, j ≠ i → t.nvm j = a.nvm j) ∧ Sparse.get (fun _ => 0) t.psv.lastResult q.page = 5 ∧
          t.fld F.PSV_PROGRAM_FAIL_CNT = min (2 ^ 32 - 1) (a.fld F.PSV_PROGRAM_FAIL_CNT + 1))) ∧
    (a.inhibited = true → exec (.brownOut dt) s = .next a) ∧
    (a.inhibited = false → ∃ t, exec (.brownOut dt) s = .next t ∧ t.inhibited = true ∧ t.psv.queue = a.psv.queue.take 1 ∧ t.psv.cells = a.psv.cells ∧
      (t.page 0x210).eventRaw.getLsbD 2 = true) ∧
    (∃ t, exec (.brownOutEnd dt) s = .next t ∧ t.inhibited = false ∧ a.SameRegs t [R.PSV_STATUS] ∧ t.psv = a.psv ∧ t.hdr = a.hdr ∧ t.mem = a.mem) ∧
    (∀ w v, let b := s.arriveBy dt w
      b.admits 0x210 0x48 w v = true → getBits v 31 31 = 0 → persistentPages.contains (getBits v 25 16) = true → getBits v 10 0 ≤ 503 →
        ∃ t, exec (.wearSelWrite dt w v) s = .next t ∧ t.cell R.PSV_WEAR_DATA = b.wearData (cellIndex (getBits v 25 16) (getBits v 10 0)) ∧
          t.fld F.PSV_WEAR_SEL_WORD = getBits v 10 0 ∧ t.psv = b.psv ∧ b.SameRegs t [R.PSV_WEAR_SEL, R.PSV_WEAR_DATA] ∧ (t.page 0x210).lastWriter = w) ∧
    (a.flag F.RST_STATUS_READY = false → exec (.lifetimeCommit dt) s = .next a.accountLife) ∧
    (a.flag F.RST_STATUS_READY = true → a.flag F.PSV_STATUS_RESTORED = true → a.inhibited = false → a.psv.queue.length ≤ 10 →
      ∃ t l, exec (.lifetimeCommit dt) s = .next t ∧ t.psv.queue = a.psv.queue ++ l ∧ (∀ x ∈ l, x.page = 0x211 ∧ x.word < 6) ∧
        t.psv.life.run = a.accountLife.psv.life.run ∧ t.psv.cells = a.psv.cells ∧
        ∀ k, k < 6 → (a.accountLife.lifeDue k = true → ⟨0x211, k, a.accountLife.psv.life.wordValue k, Writer.rootstock⟩ ∈ l) ∧
          (a.accountLife.lifeDue k = false → ∀ x ∈ l, x.word ≠ k)))

/-- PWR_REQ_RUN, TRIM, SENTRY, PARKED, LOW_POWER_ENTRY_DONE, WAKE_IN, WAKE_TIMER, WAKE_DONE, WAKE_CAUSE_CLEAR, AGE_HOUR, VDD_LOW, HW_THERMAL_TRIP. Rests on R718, R719, R720, R721, R722, R729, R738, R739, R746. -/
def Obligations.PowerStatesChange : Prop :=
  (∀ (s : State) (dt w x : Nat) (c : Instr),
    (c, x) ∈ [(Instr.pwrReqRun dt w, 0), (.pwrReqTrim dt w, 1), (.pwrReqSentry dt w, 2), (.pwrReqParked dt w, 3)] →
    let b := s.arriveBy dt w
    b.admitsRws 0x150 0x44 w (word x) = true →
      (b.lowPower = true ∨ b.pwr.entering ≠ 0 → ∃ t, exec c s = .next t ∧ t.fld F.PWR_REQ_TARGET = x ∧ b.SameRegs t [R.PWR_REQ] ∧ t.pwr = b.pwr ∧
        t.mem = b.mem ∧ (t.page 0x150).lastWriter = w) ∧
      (b.lowPower = false → b.pwr.entering = 0 →
        (x ≤ 1 → ∃ t, exec c s = .next t ∧ t.fld F.PWR_STATE = x ∧ t.fld F.PWR_REQ_TARGET = x ∧ t.mem = b.mem ∧ t.pwr.entering = 0 ∧
          (b.fld F.PWR_STATE ≠ x → (t.page 0x150).eventRaw.getLsbD 0 = true)) ∧
        (2 ≤ x → b.quietForSleep = false → exec c s = .next (b.error 0x150 0xA022 0)) ∧
        (2 ≤ x → b.quietForSleep = true → (x = 2 → b.sentryFault = none) → ∃ t, exec c s = .next t ∧ t.pwr.entering = x ∧
          t.fld F.PWR_STATE = b.fld F.PWR_STATE ∧ t.fld F.PWR_REQ_TARGET = x ∧ b.SameRegs t [R.PWR_REQ] ∧ t.mem = b.mem ∧
          (t.page 0x150).lastWriter = w) ∧
        (x = 2 → b.quietForSleep = true → b.sentryFault ≠ none → ∃ t, exec c s = .next t ∧ t.pwr = b.pwr ∧ (t.page 0x150).errCode ≠ 0 ∧
          t.cell R.PWR_REQ = b.cell R.PWR_REQ ∧ (t.page 0x150).lastWriter = (b.page 0x150).lastWriter))) ∧
  (∀ (s : State) (dt : Nat),
    let a := s.arrive dt
    (a.pwr.entering = 0 → exec (.lowPowerEntryDone dt) s = .next a) ∧
    ((a.pwr.entering = 2 ∨ a.pwr.entering = 3) → a.pwr.wakeMask = 0 → ∃ t, exec (.lowPowerEntryDone dt) s = .next t ∧
      t.fld F.PWR_STATE = a.pwr.entering ∧ t.fld F.PWR_STATE_RETURN = a.fld F.PWR_STATE ∧ t.pwr.entering = 0 ∧ t.pwr.waking = false ∧
      t.pwr.enteredTs = a.timebase ∧ t.fld F.PWR_TRANSITION_CNT = min (2 ^ 32 - 1) (a.fld F.PWR_TRANSITION_CNT + 1) ∧
      t.cell R.GLB_CLOCK_STATUS = 0) ∧
    (∀ c bit (due : Bool), (c, bit, due) ∈ [(Instr.wakeIn dt, 0, a.flag F.PWR_WAKE_CFG_WAKE_IN_EN && a.pinSees 3),
        (.wakeTimer dt, 1, a.fld F.PWR_WAKE_CFG_TIMER_S != 0
          && Nat.ble (a.fld F.PWR_WAKE_CFG_TIMER_S * 1000000000) ((a.timebase + 2 ^ 64 - a.pwr.enteredTs) % 2 ^ 64))] →
      a.pwr.entering = 0 →
        (due = false ∨ a.lowPower = false ∨ a.pwr.waking = true → exec c s = .next a) ∧
        (due = true → a.lowPower = true → a.pwr.waking = false → ∃ t, exec c s = .next t ∧ t.pwr.waking = true ∧ t.pwr.phase = 0 ∧
          bitOf (t.fld F.PWR_WAKE_CAUSE) bit = true ∧ t.fld F.PWR_STATE = a.fld F.PWR_STATE ∧ (t.page 0x150).eventRaw.getLsbD 3 = true)) ∧
    (∀ failed, (a.pwr.waking = false → exec (.wakeDone dt failed) s = .next a) ∧
      (a.pwr.waking = true → failed = [] ∨ a.saf.inSafe = true → ∃ t, exec (.wakeDone dt failed) s = .next t ∧ t.fld F.PWR_STATE = a.fld F.PWR_STATE_RETURN ∧ t.pwr.waking = false ∧
        (t.page 0x150).eventRaw.getLsbD 0 = true)) ∧
    (∀ w v, let b := s.arriveBy dt w
      b.admits 0x150 0x58 w v = true → ∃ t, exec (.wakeCauseClear dt w v) s = .next t ∧
        t.fld F.PWR_WAKE_CAUSE = (b.fld F.PWR_WAKE_CAUSE &&& (7 - getBits (v &&& ~~~b.risen R.PWR_WAKE_CAUSE) 2 0)) ∧
        b.SameRegs t [R.PWR_WAKE_CAUSE] ∧ t.mem = b.mem ∧ (t.fld F.PWR_WAKE_CAUSE = 0 → t.pwr.hostWake = false) ∧ (t.page 0x150).lastWriter = w) ∧
    (∀ slack held, (a.cycles < a.pwr.hourAt + 720000000000 → exec (.ageHour dt slack held) s = .next a) ∧
      (a.pwr.hourAt + 720000000000 ≤ a.cycles → a.rstUp = true → a.flag F.RST_STATUS_READY = true → a.fld F.PWR_STATE < 2 →
        ∃ t, exec (.ageHour dt slack held) s = .next t ∧ t.fld F.PWR_AGE_STATUS_AGE_SLACK_PS = min 65535 slack ∧ t.pwr.hourAt = a.cycles ∧
          t.mem = a.mem ∧ (40 ≤ slack ∨ held = false → t.psv = a.psv) ∧
          (slack < 40 → held = true → a.fld F.PSV_AGE_A_AGE_OFFSET_MV < 60 → a.flag F.PSV_STATUS_RESTORED = true → a.inhibited = false →
            (a.nvm (cellIndex 0x213 0)).wear ≠ 200000 → a.psv.queue.length < 16 →
              ∃ d, t.psv.queue = a.psv.queue ++ [⟨0x213, 0, d, 0x01⟩] ∧ d % 256 = a.fld F.PSV_AGE_A_AGE_OFFSET_MV + 5))) ∧
    (∀ mv, (a.fld F.GLB_CLOCK_STATUS_CORE_MHZ = 0 ∨ a.vddLowRequest ≤ mv + 25 → exec (.vddLow dt mv) s = .next a) ∧
      (a.fld F.GLB_CLOCK_STATUS_CORE_MHZ ≠ 0 → mv + 25 < a.vddLowRequest → mv < 65536 → a.causeClass Cause.vddLow = 1 → ∃ t, exec (.vddLow dt mv) s = .next t ∧
        t.fld (F.RST_VMON_MV 0) = mv ∧ (t.page 0x160).eventRaw.getLsbD Cause.vddLow = true)) ∧
    (∀ k x, (x < 500 ∨ 600 < x → exec (.hwThermalTrip dt k x) s = .next a) ∧
      (500 ≤ x → x ≤ 600 → k < 32 → a.saf.inSafe = true → ∃ t, exec (.hwThermalTrip dt k x) s = .next t ∧ t.fld F.GLB_CLOCK_STATUS_CORE_MHZ = 0 ∧
        t.pwr.tripped = true ∧ t.sfld (F.RST_TS_TEMP k) = x ∧ (t.page 0x160).eventRaw.getLsbD Cause.thermalTrip = true ∧
        t.psv.life.trip = a.psv.life.trip + 1 ∧ t.mem = a.mem)))

/-- SENTRY_WINDOW, SENTRY_LISTEN_END, SENTRY_PROGRAM_DONE, SENTRY_PROGRAM_OVERRUN: sentry windows. Rests on R724, R725, R744, R809. -/
def Obligations.SentryWindowsRun : Prop :=
  ∀ (s : State) (dt : Nat),
    let a := s.arrive dt
    let period := msCycles (a.fld F.PWR_SENTRY_CFG_PERIOD_MS)
    let due := a.fld F.PWR_STATE = 2 ∧ a.pwr.entering = 0 ∧ a.pwr.waking = false ∧ a.pwr.phase = 0 ∧ a.pwr.windowAt + period ≤ a.cycles
    (¬ due → exec (.sentryWindow dt) s = .next a) ∧
    (due → ∃ t, exec (.sentryWindow dt) s = .next t ∧ t.pwr.windowAt = a.pwr.windowAt + period ∧ t.pwr.window = (a.pwr.window + 1) % 2 ^ 32 ∧
      t.fld F.PWR_STATE = 2 ∧ t.mem = a.mem ∧
      (a.skipWindow = true → t.pwr.phase = 0 ∧ t.fld F.PWR_SENTRY_SKIP_CNT = min (2 ^ 32 - 1) (a.fld F.PWR_SENTRY_SKIP_CNT + 1) ∧
        t.cell R.GLB_CLOCK_STATUS = a.cell R.GLB_CLOCK_STATUS) ∧
      (a.skipWindow = false → t.pwr.phase = 1 ∧ t.pwr.phaseAt = a.cycles ∧ t.pwr.points = 0 ∧ t.fld F.GLB_CLOCK_STATUS_FABRIC_MHZ = 1000 ∧
        t.fld F.PWR_SENTRY_WIN_CNT = min (2 ^ 32 - 1) (a.fld F.PWR_SENTRY_WIN_CNT + 1))) ∧
    (¬ (a.pwr.phase = 1 ∧ a.pwr.phaseAt + msCycles (a.fld F.PWR_SENTRY_WIN_LISTEN_MS) ≤ a.cycles) → exec (.sentryListenEnd dt) s = .next a) ∧
    (a.pwr.phase = 1 → a.pwr.phaseAt + msCycles (a.fld F.PWR_SENTRY_WIN_LISTEN_MS) ≤ a.cycles → ∃ t, exec (.sentryListenEnd dt) s = .next t ∧
      t.pwr.phase = 2 ∧ t.pwr.phaseAt = a.cycles ∧ t.mem = (a.poke false (cellarAddr a.sentryTile (a.fld F.PWR_SENTRY_BUF_OFFSET)) a.sentryHeader).mem ∧
      t.fld F.PWR_STATE = a.fld F.PWR_STATE) ∧
    (¬ (a.pwr.phase = 2 ∧ a.sentryDone = true) → exec (.sentryProgramDone dt) s = .next a) ∧
    (a.pwr.phase = 2 → a.sentryDone = true → ∃ t, exec (.sentryProgramDone dt) s = .next t ∧ t.pwr.phase = 0 ∧ t.fld F.PWR_STATE = a.fld F.PWR_STATE ∧
      (a.sentryVerdict = 0 → t.pwr.waking = a.pwr.waking ∧ t.cell R.PWR_WAKE_CAUSE = a.cell R.PWR_WAKE_CAUSE) ∧
      (a.sentryVerdict ≠ 0 → a.lowPower = true → a.pwr.waking = false → a.pwr.entering = 0 → t.pwr.waking = true ∧
        bitOf (t.fld F.PWR_WAKE_CAUSE) 2 = true ∧ t.fld F.PWR_WAKE_INFO_VERDICT = a.sentryVerdict % 2 ^ 32)) ∧
    (let late := a.pwr.phase = 2 ∧ a.sentryDone = false ∧ a.pwr.phaseAt + msCycles (a.fld F.PWR_SENTRY_WIN_PROG_LIMIT_MS) ≤ a.cycles
     (¬ late → exec (.sentryProgramOverrun dt) s = .next a) ∧
     (late → ∃ t, exec (.sentryProgramOverrun dt) s = .next t ∧ t.pwr.phase = 0 ∧ (t.page 0x150).errCode ≠ 0 ∧ t.pwr.waking = a.pwr.waking ∧
       t.fld F.PWR_SENTRY_OVERRUN_CNT = min (2 ^ 32 - 1) (a.fld F.PWR_SENTRY_OVERRUN_CNT + 1)))

/-- SAF_ENTER, SAF_RELEASE, SAFE_STATE_RELEASE, FRAME_WATCHDOG, E2E_CHECK_DONE, REDUND_DECISION, parity and injection rows, SAF_SELF_FAULT. Rests on R754, R757, R759, R760, R761, R762, R764, R766, R768, R770, R771, R773. -/
def Obligations.SafeStateAndChecks : Prop :=
  (∀ (s : State) (dt w key : Nat),
    let b := s.arriveBy dt w
    let keyed := Writer.isVf w = false ∧ key % 2 ^ 16 = 0x5346
    (b.admits 0x160 0x58 w (word (key % 2 ^ 16 * 2 ^ 16 + 2)) = true →
      (¬ keyed → exec (.safEnter dt w key) s = .next b) ∧
      (keyed → ∃ t, exec (.safEnter dt w key) s = .next t ∧ t.saf.inSafe = true ∧ (t.page 0x160).lastWriter = w ∧
        (b.saf.inSafe = false → t.fld F.SAF_FIRST_CAUSE = Cause.hostReq ∧ t.fld F.SAF_FIRST_CODE = 0x6038 ∧ ∀ p ∈ safePages, (t.page p).cond.safe = true) ∧
        (b.saf.inSafe = true → (t.page 0x160).eventRaw.getLsbD Cause.hostReq = true ∧ t.mem = b.mem ∧
          (b.firstTs ≠ b.timebase ∨ b.fld F.SAF_FIRST_CAUSE ≤ Cause.hostReq → t.cell R.SAF_FIRST = b.cell R.SAF_FIRST) ∧
          (b.firstTs = b.timebase → Cause.hostReq < b.fld F.SAF_FIRST_CAUSE → t.fld F.SAF_FIRST_CAUSE = Cause.hostReq)))) ∧
    (b.admits 0x160 0x58 w (word (key % 2 ^ 16 * 2 ^ 16 + 1)) = true →
      (¬ keyed → exec (.safRelease dt w key) s = .next b) ∧
      (keyed → ∃ t, exec (.safRelease dt w key) s = .next t ∧ t.saf = b.saf ∧ t.mem = b.mem ∧ (t.page 0x160).lastWriter = w ∧
        (b.releaseBlockers ≠ 0 ∨ b.saf.selfFault = true → t.fld F.SAF_REQ_RESULT_CODE = 0x603A ∧ t.flag F.SAF_REQ_RESULT_PENDING = false) ∧
        (b.releaseBlockers = 0 → b.saf.selfFault = false → t.flag F.SAF_REQ_RESULT_PENDING = true)))) ∧
  (∀ (s : State) (dt : Nat),
    let a := s.arrive dt
    let asked := a.flag F.SAF_REQ_RESULT_PENDING = true ∨ a.autoRelease = true
    let free := a.releaseBlockers = 0 ∧ a.saf.selfFault = false
    (a.rstUp = false ∨ ¬ asked → exec (.safeStateRelease dt) s = .next a) ∧
    (a.rstUp = true → asked → a.saf.inSafe = true →
      (free → ∃ t, exec (.safeStateRelease dt) s = .next t ∧ t.saf.inSafe = false ∧ t.flag F.SAF_REQ_RESULT_PENDING = false ∧
        t.fld F.SAF_REQ_RESULT_CODE = 0 ∧ t.saf.releasedAt = some a.cycles ∧ t.pwr.tripped = false ∧ ∀ p ∈ safePages, (t.page p).cond.safe = false) ∧
      (¬ free → ∃ t, exec (.safeStateRelease dt) s = .next t ∧ t.saf = a.saf ∧ t.flag F.SAF_REQ_RESULT_PENDING = false)) ∧
    (let due := ∃ x, a.saf.wdAt = some x ∧ a.framePaced = true ∧ x + usCycles a.saf.wdSlackUs ≤ a.cycles
     (¬ due → exec (.frameWatchdog dt) s = .next a) ∧
     (due → ∃ t, exec (.frameWatchdog dt) s = .next t ∧ t.saf.inSafe = true ∧ t.saf.wdAt = none ∧
       (a.saf.inSafe = false → t.fld F.SAF_FIRST_CAUSE = Cause.frameWatchdog ∧ t.fld F.SAF_FIRST_CODE = 0x6030))) ∧
    (a.saf.e2e = none ∨ a.frm.publish = none → exec (.e2eCheckDone dt) s = .next a) ∧
    (∀ n f, a.saf.e2e = some n → a.frm.publish = some f → a.saf.injActive = [] → a.causeClass Cause.e2eMismatch = 1 →
      let x := a.fetch (resultAddr f.set 0) f.plan.hdr.resultBytes
      let same := x.1.poison = false ∧ crc32 (x.1.bytes.take 0x3C ++ List.replicate 4 0 ++ x.1.bytes.drop 0x40) = a.saf.e2eCrc ∧ leNat (x.1.bytes.take 4) = n
      x.2.saf = a.saf → ∃ t, exec (.e2eCheckDone dt) s = .next t ∧ t.saf.e2e = none ∧
        (same → t.hdr = x.2.hdr ∧ t.logQueue = x.2.logQueue ∧ t.fld F.SAF_E2E_CHECK_CNT = min (2 ^ 32 - 1) (x.2.fld F.SAF_E2E_CHECK_CNT + 1)) ∧
        (¬ same → (t.page 0x160).eventRaw.getLsbD Cause.e2eMismatch = true ∧ t.cell R.SAF_E2E_FRAME = word n)) ∧
    (∀ m seq, let o := a.slk.redund.find? (fun r => r.lane == 2 * m && r.seq == seq)
      (o = none → exec (.redundDecision dt m seq) s = .next a) ∧
      (∀ r, o = some r → r.primary.isSome = true → r.secondary.isSome = true → exec (.redundDecision dt m seq) s
        = .next ((a.updSlk (fun k => { k with redund := k.redund.filter (fun q => !(q.lane == 2 * m && q.seq == seq)) })).pairDecide (2 * m) r)) ∧
      (∀ r, o = some r → r.primary = none → r.secondary = none → exec (.redundDecision dt m seq) s = .next a)) ∧
    (∀ p off, (pageInfo p = none ∨ a.fusedOffPage p = true → exec (.regParityError dt p off) s = .next a) ∧
      (∀ x, storeFault p off = some x → pageInfo p ≠ none → a.fusedOffPage p = false → a.saf.inSafe = true → off < 4096 →
        ∃ t, exec (.regParityError dt p off) s = .next t ∧ (t.page x.1).cond.fault = true ∧
          (x.1 = 0x0D0 → t.frm.compute = none) ∧
          (x.1 ≠ 0x0D0 ∨ a.frm.compute = none → t.frm = a.frm ∧ t.mem = a.mem ∧ (t.page x.1).errCode ≠ 0 ∧
            ((a.page x.1).errCode = 0 → (t.page x.1).errCode = x.2) ∧ a.SameRegs t [R.RST_RING_LOST_CNT, R.HIF_MSIX_PBA, R.SAF_FIRST])) ∧
      (scoreboardReg p off = true → pageInfo p ≠ none → a.fusedOffPage p = false → a.saf.inSafe = true →
        ∃ t, exec (.regParityError dt p off) s = .next t ∧ t.frm.compute = none ∧ (t.page p).cond.fault = true ∧
          (t.page 0x010).cond.fault = true ∧ (t.page p).errCode ≠ 0) ∧
      (storeFault p off = none → scoreboardReg p off = false → pageInfo p ≠ none → a.fusedOffPage p = false → a.saf.inSafe = true → off < 4096 →
        ∃ t, exec (.regParityError dt p off) s = .next t ∧
        (t.page (statePage p)).cond.fault = true ∧ statePage p ∈ t.saf.parity ∧ t.mem = a.mem ∧ (t.page p).errCode ≠ 0 ∧
        a.SameRegs t ([R.RST_RING_LOST_CNT, R.HIF_MSIX_PBA, R.SAF_FIRST] ++ if hasCtrl (statePage p) then [] else [p * 4096 + off]))) ∧
    (∀ p, (hasCtrl (statePage p) = true ∨ a.saf.parity.contains p = false → exec (.parityScan dt p) s = .next a) ∧
      (hasCtrl (statePage p) = false → a.saf.parity.contains p = true → a.otherFault p = false → ∃ t, exec (.parityScan dt p) s = .next t ∧
        t.saf.parity.contains p = false ∧ (t.page (statePage p)).cond.fault = false ∧ a.SameRegs t [R.HIF_MSIX_PBA] ∧ t.mem = a.mem)) ∧
    (∀ w target inst, target < 256 → inst < 64 → let b := s.arriveBy dt w
      b.admits 0x162 0x40 w (word (2 ^ 16 + inst % 64 * 2 ^ 8 + target % 256)) = true →
        (b.fld F.PSV_SAF_WD_INJ_ALLOW = 0 → exec (.injArm dt w target inst) s = .next (b.error 0x162 0x8017 (word w))) ∧
        (b.fld F.PSV_SAF_WD_INJ_ALLOW ≠ 0 → ∃ t, exec (.injArm dt w target inst) s = .next t ∧ t.flag F.SAF_INJ_CTL_ARM = true ∧
          t.fld F.SAF_INJ_CTL_TARGET = target ∧ t.fld F.SAF_INJ_CTL_INSTANCE = inst ∧ b.SameRegs t [R.SAF_INJ_CTL] ∧ t.mem = b.mem)) ∧
    (let g := a.fld F.SAF_INJ_CTL_TARGET
     let i := a.fld F.SAF_INJ_CTL_INSTANCE
     let acts := a.flag F.SAF_INJ_CTL_ARM = true ∧ a.canInject g i = true
     (¬ acts → exec (.injectionApply dt) s = .next a) ∧
     (acts → a.saf.inSafe = true ∨ g ∉ [7, 8, 0x0A] → ∃ t, exec (.injectionApply dt) s = .next t ∧ t.flag F.SAF_INJ_CTL_ARM = false ∧
       t.fld F.SAF_INJ_CNT = min (2 ^ 32 - 1) (a.fld F.SAF_INJ_CNT + 1) ∧ (t.page 0x160).eventRaw.getLsbD Cause.injected = true ∧
       (t.page 0x162).errCode ≠ 0 ∧ (g ∉ [7, 8, 0x0A] → t.injected g i = some (a.fld F.SAF_INJ_DATA)))) ∧
    (∃ t, exec (.safSelfFault dt) s = .next t ∧ t.saf.selfFault = true ∧ t.saf.inSafe = true))

/-- POWER_ON_RESET, DEVICE_RESET(_REQUEST), the start-up rows, GPIO_FUNC_WRITE, CLOCK/RAILS_IN_WINDOW, VF_ENABLE_WRITE, BAR4_WRITE: resets and pins. Rests on R50, R92, R422, R754, R784, R785, R787, R788, R791, R792, R802, R816. -/
def Obligations.StartUpAndPins : Prop :=
  (∀ (s : State) (dt cause form : Nat) (fuse flash rom : Bool) (digA digB : List Nat) (dram : Dram), cause < 4 →
    let a := s.arrive dt
    (∃ t, exec (.powerOnReset dt cause fuse form flash rom digA digB dram) s = .next t ∧ t.mem.chGib = 2 ^ (1 + dram.size % 3) ∧
      t.mem.ranks = 1 + dram.ranks % 2 ∧ t.mem.shardBase4M = t.shardReset ∧ t.saf.inSafe = true ∧ t.timebase = 0 ∧ t.cycles = a.cycles ∧
      t.psv.queue = [] ∧ t.fld F.GLB_BOOT_STATUS_LAST_RESET = cause ∧ t.flag F.GLB_BOOT_STATUS_AON_UP = true ∧ t.flag F.GLB_BOOT_STATUS_FUSE_OK = fuse ∧
      t.flag F.GLB_BOOT_STATUS_RESTORED = true ∧ t.flag F.GLB_BOOT_STATUS_FW_READY = false ∧ t.mem.dram = [] ∧ t.frm.compute = none ∧ t.fuses.tiles = a.fuses.tiles) ∧
    (a.boot.resetPending = false ∨ a.psv.queue ≠ [] → exec (.deviceReset dt fuse flash rom digA digB) s = .next a) ∧
    (a.boot.resetPending = true → a.psv.queue = [] → ∃ t, exec (.deviceReset dt fuse flash rom digA digB) s = .next t ∧ t.saf.inSafe = true ∧
      t.timebase = a.timebase ∧ t.mem.dram = a.mem.dram ∧ t.boot.resetPending = false ∧ t.fld F.GLB_BOOT_STATUS_LAST_RESET = 3 ∧
      t.flag F.GLB_BOOT_STATUS_FUSE_OK = fuse ∧ t.frm.compute = none)) ∧
  (∀ (s : State) (dt w key device : Nat), device ≤ 1 →
    let b := s.arriveBy dt w
    let keyed := Writer.isVf w = false ∧ key % 2 ^ 16 = 0x4456
    b.portCheck 0x000 0x64 w = none →
      (¬ keyed → exec (.deviceResetRequest dt w key device) s = .next (b.badAccess 0x000 0x64 w)) ∧
      (keyed → device = 0 → exec (.deviceResetRequest dt w key device) s = .next (b.wrote 0x000 w)) ∧
      (keyed → device = 1 → b.framePaced = true → b.saf.inSafe = false →
        exec (.deviceResetRequest dt w key device) s = .next (b.error 0x000 0xA020 (infoOffWriter 0x64 w))) ∧
      (keyed → device = 1 → b.framePaced = false ∨ b.saf.inSafe = true → ∃ t, exec (.deviceResetRequest dt w key device) s = .next t ∧
        t.boot.resetPending = true ∧ t.psv.queue = b.psv.queue.take 1 ∧ t.rst.bbWait = [] ∧ t.mem = b.mem ∧ (t.page 0x000).lastWriter = w)) ∧
  (∀ (s : State) (dt : Nat) (failed rates : List Nat),
    let a := s.arrive dt
    let step6 := a.flag F.GLB_BOOT_STATUS_FW_READY = true ∧ a.flag F.GLB_BOOT_STATUS_TILES_TESTED = false
    let step7 := (a.flag F.GLB_BOOT_STATUS_FW_READY = true ∨ a.romRecovery = true) ∧ a.flag F.GLB_BOOT_STATUS_MEM_READY = false
    let step8 := a.flag F.GLB_BOOT_STATUS_CHECKS_DONE = false ∧ ((a.flag F.GLB_BOOT_STATUS_TILES_TESTED = true ∧ a.flag F.GLB_BOOT_STATUS_MEM_READY = true)
      ∨ a.flag F.GLB_BOOT_STATUS_SLOT_CHOSEN = false)
    (¬ step6 → exec (.startupTileTestDone dt failed) s = .next a) ∧
    (step6 → a.saf.inSafe = true → ∃ t, exec (.startupTileTestDone dt failed) s = .next t ∧ t.flag F.GLB_BOOT_STATUS_TILES_TESTED = true ∧ t.mem.cellar = [] ∧
      t.mem.dram = a.mem.dram ∧ ∀ n ∈ a.enabledTiles, (t.tile n).withdrawn = failed.contains n) ∧
    (¬ step7 → exec (.dramTrainingDone dt failed rates) s = .next a) ∧
    (step7 → failed = [] ∨ a.saf.inSafe = true → a.mem.shardBase4M < 2048 → a.mem.chGib ≤ 8 → ∃ t, exec (.dramTrainingDone dt failed rates) s = .next t ∧
      t.flag F.GLB_BOOT_STATUS_MEM_READY = true ∧ t.mem.rates = rates ∧
      t.mem.failed = (List.range 8).filter (fun c => failed.contains c) ∧ t.mem.dram = (if a.boot.initDram then [] else a.mem.dram)) ∧
    (¬ step8 → exec (.startupChecks dt) s = .next a) ∧
    (step8 → (a.failStep ≠ 0 → exec (.startupChecks dt) s = .next (a.setFld F.GLB_BOOT_STATUS_FAIL_STEP a.failStep)) ∧
      (a.failStep = 0 → ∃ t, exec (.startupChecks dt) s = .next t ∧ t.flag F.GLB_BOOT_STATUS_CHECKS_DONE = true ∧ t.fld F.GLB_BOOT_STATUS_FAIL_STEP = 0 ∧
        bitOf t.saf.active 0 = false ∧ t.mem = a.mem)) ∧
    (∃ t, exec (.clockInWindow dt) s = .next t ∧ t.fld F.RST_CLK_MON_FAULT = 0 ∧ bitOf t.saf.active Cause.clock = false ∧ a.SameRegs t [R.RST_CLK_MON] ∧
      (∀ n, n ≠ Cause.clock → bitOf t.saf.active n = bitOf a.saf.active n) ∧ t.hdr = a.hdr ∧ t.mem = a.mem) ∧
    (∃ t, exec (.railsInWindow dt) s = .next t ∧ t.rst.railsOut = 0 ∧ bitOf t.saf.active Cause.voltRange = false ∧ t.regs = a.regs ∧
      (∀ n, n ≠ Cause.voltRange → bitOf t.saf.active n = bitOf a.saf.active n) ∧ t.hdr = a.hdr ∧ t.mem = a.mem) ∧
    (∀ n, (a.hif.vfEnable = true → exec (.vfEnableWrite dt true n) s = .next a.hostTlp) ∧
      (a.hif.vfEnable = false → ∃ t, exec (.vfEnableWrite dt true n) s = .next t ∧ t.hif.vfEnable = true ∧ t.hif.numVfs = min 63 n ∧ t.regs = a.regs ∧
        t.hdr = a.hdr ∧ t.mem = a.mem) ∧
      (∃ t, exec (.vfEnableWrite dt false n) s = .next t ∧ t.hif.vfEnable = false ∧ t.hif.numVfs = 0 ∧ t.mem = a.mem ∧
        ∀ p, a.nowCyc.abandoned.contains p = false → Writer.isVf (t.page p).lockOwner = true → (t.page p).lockHeld = false)) ∧
    (∀ off bytes, (a.boot.resetPending = true → exec (.bar4Write dt off bytes) s = .next a) ∧
      (a.boot.resetPending = false → a.windowHome off = .fusedOff → exec (.bar4Write dt off bytes) s = .next a.hostTlp) ∧
      (∀ x, a.boot.resetPending = false → a.windowHome off = .result x →
        exec (.bar4Write dt off bytes) s = .next (a.hostTlp.bump F.GLB_BAD_ACCESS_CNT_COUNT)) ∧
      (∀ n o, a.boot.resetPending = false → a.windowHome off = .cellar n o → a.home (cellarAddr n o) = .cellar n o →
        inLine (cellarAddr n o) bytes.length = true → a.mem.upsets = [] →
          ∃ t, exec (.bar4Write dt off bytes) s = .next t ∧ t.peek (cellarAddr n o) bytes.length = bytes ∧ t.regs = a.regs ∧ t.hdr = a.hdr ∧
            ∀ e, e < cellarAddr n o ∨ cellarAddr n o + bytes.length ≤ e → t.peekByte e = a.peekByte e))) ∧
  (∀ (s : State) (dt w : Nat) (high : Bool) (v : Word),
    let b := s.arriveBy dt w
    let off := if high then 0x44 else 0x40
    b.admitsRwl 0x002 off w v = true →
      (∀ x, b.movesHeld off v = some x →
        exec (.gpioFuncWrite dt w high v) s = .next (b.error 0x002 Err.resourceHeld (word (x.2 % 2 ^ 10 * 2 ^ 16 + pinRes x.1)))) ∧
      (b.movesHeld off v = none → b.saf.inSafe = false → ∃ t, exec (.gpioFuncWrite dt w high v) s = .next t ∧ t.cell (0x002000 + off) = v ∧
        b.SameRegs t [0x002000 + off] ∧ (t.page 0x002).lastWriter = w ∧ t.mem = b.mem))

/-- State.reset: the safe state in force, empty memories and queues, every register at its reset value, canonical. Rests on R26, R62, R698, R748, R759, R778, R784. -/
def Obligations.ResetIsStartOfStartUp : Prop :=
  State.reset.pending = [] ∧ State.reset.timebase = 0 ∧ State.reset.saf.inSafe = true ∧ State.reset.saf.active = 1 ∧ State.reset.causes = 1 ∧
    (∀ p ∈ safePages, (State.reset.page p).cond.safe = true) ∧
    (∀ p, (State.reset.page p).lockHeld = false ∧ (State.reset.page p).errCode = 0 ∧ (State.reset.page p).softReset = false) ∧
    (∀ k, k / 4096 ≠ 0x131 → State.reset.cell k = resetCell k) ∧
    (∀ d, State.reset.peekByte d = 0) ∧ State.reset.frm.compute = none ∧ State.reset.frm.ingest = none ∧ State.reset.psv.queue = [] ∧
    State.reset.canon = true

/-- Every command answers a next state and leaves the queue of waiting commands alone. Rests on 00_scope, 95_what_each_step_holds. -/
def Obligations.ExecLeavesTheQueue : Prop :=
  (∀ (c : Instr) (s : State), ∃ t, exec c s = .next t ∧ t.pending = s.pending) ∧
  (∀ (s : State) (c : Instr) (rest : List Instr), s.pending = c :: rest → ∃ t, step s = .next t ∧ t.pending = rest) ∧
  (∀ s t : State, s.queueWf = true → step s = .next t → t.queueWf = true)

/-- Every step keeps the one canonical form of registers, page headers, memories and persistent cells. Rests on 00_scope, 95_what_each_step_holds. -/
def Obligations.EveryStepKeepsTheCanonicalForm : Prop :=
  ∀ s t : State, s.canon = true → step s = .next t → t.canon = true
end

