-- ==== Sys2Proof/Laws/Bits.lean ====
section
/-! SUPPORT. Fields of a register value: what a field reads after a write to it and after a write to another field. -/

namespace Sys2Proof.Machine

/-- A number is its bits above `hi`, its bits hi:lo and its bits below `lo`. -/
theorem natBits_split (n hi lo : Nat) (h : lo ≤ hi) :
    n = n / 2 ^ (hi + 1) * 2 ^ (hi + 1) + natBits n hi lo * 2 ^ lo + n % 2 ^ lo := by
  have e : 2 ^ (hi + 1) = 2 ^ lo * 2 ^ (hi + 1 - lo) := by rw [← Nat.pow_add]; congr 1; omega
  have a := Nat.div_add_mod n (2 ^ lo)
  have b := Nat.div_add_mod (n / 2 ^ lo) (2 ^ (hi + 1 - lo))
  unfold natBits
  rw [Nat.shiftRight_eq_div_pow, e, ← Nat.div_div_eq_div_mul]
  generalize n / 2 ^ lo / 2 ^ (hi + 1 - lo) = q at *
  generalize n / 2 ^ lo % 2 ^ (hi + 1 - lo) = m at *
  generalize n % 2 ^ lo = r at *
  rw [← b] at a
  rw [← a]
  ring

theorem natBits_lt (n hi lo : Nat) : natBits n hi lo < 2 ^ (hi + 1 - lo) := Nat.mod_lt _ (by positivity)

/-- The value of a register after one of its fields is replaced. -/
theorem setBits_toNat (w : Word) {hi lo : Nat} (v : Nat) (h : lo ≤ hi) (hh : hi < 32) :
    (setBits w hi lo v).toNat = w.toNat / 2 ^ (hi + 1) * 2 ^ (hi + 1) + v % 2 ^ (hi + 1 - lo) * 2 ^ lo + w.toNat % 2 ^ lo := by
  have e : 2 ^ (hi + 1) = 2 ^ lo * 2 ^ (hi + 1 - lo) := by rw [← Nat.pow_add]; congr 1; omega
  have s := natBits_split w.toNat hi lo h
  have p : 0 < 2 ^ lo := by positivity
  have vl : v % 2 ^ (hi + 1 - lo) < 2 ^ (hi + 1 - lo) := Nat.mod_lt _ (by positivity)
  have rl : w.toNat % 2 ^ lo < 2 ^ lo := Nat.mod_lt _ p
  have w32 : w.toNat < 2 ^ 32 := w.isLt
  have t : (2 : Nat) ^ 32 = 2 ^ (hi + 1) * 2 ^ (31 - hi) := by rw [← Nat.pow_add]; congr 1; omega
  unfold setBits getBits
  rw [BitVec.toNat_ofNat, Nat.shiftLeft_eq, Nat.shiftLeft_eq]
  have q : w.toNat / 2 ^ (hi + 1) < 2 ^ (31 - hi) := by
    apply Nat.div_lt_of_lt_mul; rw [← t]; exact w32
  generalize v % 2 ^ (hi + 1 - lo) = x at *
  generalize hb : natBits w.toNat hi lo = b at *
  generalize w.toNat / 2 ^ (hi + 1) = y at *
  generalize w.toNat % 2 ^ lo = r at *
  have m : w.toNat - b * 2 ^ lo + x * 2 ^ lo = y * 2 ^ (hi + 1) + x * 2 ^ lo + r := by omega
  rw [m]
  apply Nat.mod_eq_of_lt
  have z : (x + 1) * 2 ^ lo ≤ 2 ^ (hi + 1) := by
    rw [e, Nat.mul_comm]; exact Nat.mul_le_mul_left _ vl
  have u : (y + 1) * 2 ^ (hi + 1) ≤ 2 ^ 32 := by
    rw [t, Nat.mul_comm]; exact Nat.mul_le_mul_left _ q
  rw [Nat.add_mul, Nat.one_mul] at z u
  omega

/-- A field reads what was written to it. -/
theorem getBits_setBits_same (w : Word) {hi lo : Nat} (v : Nat) (h : lo ≤ hi) (hh : hi < 32) :
    getBits (setBits w hi lo v) hi lo = v % 2 ^ (hi + 1 - lo) := by
  have e : 2 ^ (hi + 1) = 2 ^ lo * 2 ^ (hi + 1 - lo) := by rw [← Nat.pow_add]; congr 1; omega
  have p : 0 < 2 ^ lo := by positivity
  have rl : w.toNat % 2 ^ lo < 2 ^ lo := Nat.mod_lt _ p
  unfold getBits natBits
  rw [setBits_toNat w v h hh, Nat.shiftRight_eq_div_pow]
  generalize w.toNat % 2 ^ lo = r at *
  generalize w.toNat / 2 ^ (hi + 1) = y
  have : y * 2 ^ (hi + 1) + v % 2 ^ (hi + 1 - lo) * 2 ^ lo + r
      = r + 2 ^ lo * (v % 2 ^ (hi + 1 - lo) + 2 ^ (hi + 1 - lo) * y) := by rw [e]; ring
  rw [this, Nat.add_mul_div_left _ _ p, Nat.div_eq_of_lt rl, Nat.zero_add, Nat.add_mul_mod_self_left, Nat.mod_mod]

/-- A bit outside a field keeps its value. -/
theorem testBit_setBits_other (w : Word) {hi lo : Nat} (v i : Nat) (h : lo ≤ hi) (hh : hi < 32) (hi' : i < lo ∨ hi < i) :
    (setBits w hi lo v).toNat.testBit i = w.toNat.testBit i := by
  have p : 0 < 2 ^ lo := by positivity
  have vl : v % 2 ^ (hi + 1 - lo) < 2 ^ (hi + 1 - lo) := Nat.mod_lt _ (by positivity)
  have e : 2 ^ (hi + 1) = 2 ^ lo * 2 ^ (hi + 1 - lo) := by rw [← Nat.pow_add]; congr 1; omega
  rw [setBits_toNat w v h hh]
  rcases hi' with g | g
  · have m1 := Nat.testBit_mod_two_pow (w.toNat / 2 ^ (hi + 1) * 2 ^ (hi + 1) + v % 2 ^ (hi + 1 - lo) * 2 ^ lo + w.toNat % 2 ^ lo) lo i
    have m2 := Nat.testBit_mod_two_pow w.toNat lo i
    have q : (w.toNat / 2 ^ (hi + 1) * 2 ^ (hi + 1) + v % 2 ^ (hi + 1 - lo) * 2 ^ lo + w.toNat % 2 ^ lo) % 2 ^ lo = w.toNat % 2 ^ lo := by
      have : w.toNat / 2 ^ (hi + 1) * 2 ^ (hi + 1) + v % 2 ^ (hi + 1 - lo) * 2 ^ lo + w.toNat % 2 ^ lo
          = w.toNat % 2 ^ lo + 2 ^ lo * (v % 2 ^ (hi + 1 - lo) + 2 ^ (hi + 1 - lo) * (w.toNat / 2 ^ (hi + 1))) := by rw [e]; ring
      rw [this, Nat.add_mul_mod_self_left, Nat.mod_mod]
    simp only [g, decide_true, Bool.true_and] at m1 m2
    rw [← m1, q, m2]
  · have s : ∀ n : Nat, n.testBit i = (n / 2 ^ (hi + 1)).testBit (i - (hi + 1)) := by
      intro n; rw [Nat.testBit_div_two_pow]; congr 1; omega
    rw [s, s w.toNat]
    congr 1
    have rl : w.toNat % 2 ^ lo < 2 ^ lo := Nat.mod_lt _ p
    have z : (v % 2 ^ (hi + 1 - lo) + 1) * 2 ^ lo ≤ 2 ^ (hi + 1) := by
      rw [e, Nat.mul_comm]; exact Nat.mul_le_mul_left _ vl
    rw [Nat.add_mul, Nat.one_mul] at z
    have lt : v % 2 ^ (hi + 1 - lo) * 2 ^ lo + w.toNat % 2 ^ lo < 2 ^ (hi + 1) := by omega
    rw [Nat.add_assoc, Nat.mul_comm (w.toNat / 2 ^ (hi + 1)), Nat.mul_add_div (by positivity), Nat.div_eq_of_lt lt, Nat.add_zero]

/-- Another field of the register keeps its value. -/
theorem getBits_setBits_other (w : Word) {hi lo hi' lo' : Nat} (v : Nat) (h : lo ≤ hi) (hh : hi < 32) (hd : hi' < lo ∨ hi < lo') :
    getBits (setBits w hi lo v) hi' lo' = getBits w hi' lo' := by
  unfold getBits natBits
  apply Nat.eq_of_testBit_eq
  intro j
  simp only [Nat.testBit_mod_two_pow, Nat.testBit_shiftRight]
  by_cases hj : j < hi' + 1 - lo'
  · simp only [hj, decide_true, Bool.true_and]
    apply testBit_setBits_other w v _ h hh
    omega
  · simp [hj]

end Sys2Proof.Machine
end

