-- ==== Sys2Proof/Laws/Sparse.lean ====
section
/-! SUPPORT. What the operations of sparse maps do: reading after a write, and that every operation keeps
the canonical form. -/

namespace Sys2Proof.Machine

variable {α : Type} [DecidableEq α] (d : Nat → α)

omit [DecidableEq α] in
theorem Sparse.get_put_same (m : Sparse α) (a : Nat) (v : α) : Sparse.get d (Sparse.put m a v) a = v := by
  induction m with
  | nil => simp [Sparse.put, Sparse.get]
  | cons p t ih =>
    obtain ⟨k, w⟩ := p
    by_cases h : a < k
    · simp [Sparse.put, Sparse.get, h]
    · by_cases h2 : k = a
      · simp [Sparse.put, Sparse.get, h2]
      · simp [Sparse.put, Sparse.get, h, h2, ih]

omit [DecidableEq α] in
theorem Sparse.get_put_other (m : Sparse α) {a b : Nat} (v : α) (hab : b ≠ a) :
    Sparse.get d (Sparse.put m a v) b = Sparse.get d m b := by
  induction m with
  | nil => simp [Sparse.put, Sparse.get, Ne.symm hab]
  | cons p t ih =>
    obtain ⟨k, w⟩ := p
    by_cases h : a < k
    · simp [Sparse.put, Sparse.get, h, Ne.symm hab]
    · by_cases h2 : k = a
      · subst h2
        simp [Sparse.put, Sparse.get, Ne.symm hab]
      · simp [Sparse.put, Sparse.get, h, h2, ih]

omit [DecidableEq α] in
theorem Sparse.get_erase_same (m : Sparse α) (a : Nat) : Sparse.get d (Sparse.erase m a) a = d a := by
  induction m with
  | nil => rfl
  | cons p t ih =>
    obtain ⟨k, w⟩ := p
    unfold Sparse.erase at ih ⊢
    by_cases h : k = a
    · simpa [List.filter, h] using ih
    · simpa [List.filter, Sparse.get, h] using ih

omit [DecidableEq α] in
theorem Sparse.get_erase_other (m : Sparse α) {a b : Nat} (hab : b ≠ a) :
    Sparse.get d (Sparse.erase m a) b = Sparse.get d m b := by
  induction m with
  | nil => rfl
  | cons p t ih =>
    obtain ⟨k, w⟩ := p
    unfold Sparse.erase at ih ⊢
    by_cases h : k = a
    · subst h
      simpa [List.filter, Sparse.get, Ne.symm hab] using ih
    · simp only [List.filter, h, ne_eq, not_false_eq_true, decide_true, Sparse.get]
      rw [ih]

/-- A read after a write to the same key gives the value written. -/
@[simp] theorem Sparse.get_set_same (m : Sparse α) (a : Nat) (v : α) :
    Sparse.get d (Sparse.set d m a v) a = v := by
  unfold Sparse.set
  split
  · next h => rw [Sparse.get_erase_same, h]
  · exact Sparse.get_put_same d m a v

/-- A write leaves every other key alone. -/
theorem Sparse.get_set_other (m : Sparse α) {a b : Nat} (v : α) (hab : b ≠ a) :
    Sparse.get d (Sparse.set d m a v) b = Sparse.get d m b := by
  unfold Sparse.set
  split
  · exact Sparse.get_erase_other d m hab
  · exact Sparse.get_put_other d m v hab

/-- A read after a write, for any two keys. -/
theorem Sparse.get_set (m : Sparse α) (a b : Nat) (v : α) :
    Sparse.get d (Sparse.set d m a v) b = if b = a then v else Sparse.get d m b := by
  split
  · next h => subst h; simp
  · next h => exact Sparse.get_set_other d m v h

omit [DecidableEq α] in
theorem Sparse.sorted_iff (m : Sparse α) : Sparse.sorted m = true ↔ m.Pairwise (fun p q => p.1 < q.1) := by
  induction m with
  | nil => simp [Sparse.sorted]
  | cons p t ih =>
    cases t with
    | nil => simp [Sparse.sorted]
    | cons q r =>
      obtain ⟨k, v⟩ := p
      obtain ⟨k', w⟩ := q
      simp only [Sparse.sorted, Bool.and_eq_true, decide_eq_true_eq, ih, List.pairwise_cons, List.mem_cons]
      constructor
      · rintro ⟨hk, hq, hr⟩
        refine ⟨?_, hq, hr⟩
        rintro x (rfl | hx)
        · exact hk
        · exact lt_trans hk (hq x hx)
      · rintro ⟨hall, hq, hr⟩
        exact ⟨hall _ (Or.inl rfl), hq, hr⟩

omit [DecidableEq α] in
theorem Sparse.mem_put {m : Sparse α} {a : Nat} {v : α} {p : Nat × α} (h : p ∈ Sparse.put m a v) :
    p = (a, v) ∨ p ∈ m := by
  induction m with
  | nil => simpa [Sparse.put] using h
  | cons q t ih =>
    obtain ⟨k, w⟩ := q
    unfold Sparse.put at h
    split at h
    · simpa using h
    · split at h
      · rcases List.mem_cons.1 h with h | h
        · exact Or.inl h
        · exact Or.inr (List.mem_cons_of_mem _ h)
      · rcases List.mem_cons.1 h with h | h
        · exact Or.inr (by simp [h])
        · rcases ih h with h | h
          · exact Or.inl h
          · exact Or.inr (List.mem_cons_of_mem _ h)

omit [DecidableEq α] in
theorem Sparse.sorted_put {m : Sparse α} (a : Nat) (v : α) (h : Sparse.sorted m = true) :
    Sparse.sorted (Sparse.put m a v) = true := by
  rw [Sparse.sorted_iff] at h ⊢
  induction m with
  | nil => simp [Sparse.put]
  | cons q t ih =>
    obtain ⟨k, w⟩ := q
    rw [List.pairwise_cons] at h
    unfold Sparse.put
    split
    · next hlt =>
      rw [List.pairwise_cons, List.pairwise_cons]
      refine ⟨?_, h⟩
      intro p hp
      rcases List.mem_cons.1 hp with rfl | hp
      · exact hlt
      · exact lt_trans hlt (h.1 p hp)
    · split
      · next _ heq =>
        subst heq
        exact List.pairwise_cons.2 ⟨h.1, h.2⟩
      · next hnl hne =>
        rw [List.pairwise_cons]
        refine ⟨?_, ih h.2⟩
        intro p hp
        rcases Sparse.mem_put hp with rfl | hp
        · exact lt_of_le_of_ne (Nat.le_of_not_lt hnl) hne
        · exact h.1 p hp

/-- A write keeps the canonical form. -/
theorem Sparse.wf_set {m : Sparse α} (a : Nat) (v : α) (h : Sparse.wf d m = true) :
    Sparse.wf d (Sparse.set d m a v) = true := by
  unfold Sparse.wf at h ⊢
  rw [Bool.and_eq_true] at h ⊢
  unfold Sparse.set
  split
  · refine ⟨?_, ?_⟩
    · rw [Sparse.sorted_iff] at *
      exact h.1.filter _
    · rw [List.all_eq_true] at *
      exact fun p hp => h.2 p (List.mem_of_mem_filter hp)
  · next hne =>
    refine ⟨Sparse.sorted_put a v h.1, ?_⟩
    rw [List.all_eq_true] at *
    intro p hp
    rcases Sparse.mem_put hp with rfl | hp
    · simpa using hne
    · exact h.2 p hp

/-- Removing the pairs of a set of keys keeps the canonical form. -/
theorem Sparse.wf_drop {m : Sparse α} (p : Nat → Bool) (h : Sparse.wf d m = true) :
    Sparse.wf d (Sparse.drop m p) = true := by
  unfold Sparse.wf Sparse.drop at *
  rw [Bool.and_eq_true] at h ⊢
  refine ⟨?_, ?_⟩
  · rw [Sparse.sorted_iff] at *
    exact h.1.filter _
  · rw [List.all_eq_true] at *
    exact fun q hq => h.2 q (List.mem_of_mem_filter hq)

/-- The same where what an unlisted key reads as changes for the removed keys only. -/
theorem Sparse.wf_drop_of (d' : Nat → α) (m : Sparse α) (p : Nat → Bool) (hd : ∀ k, p k = false → d' k = d k)
    (h : Sparse.wf d m = true) : Sparse.wf d' (Sparse.drop m p) = true := by
  have h' := Sparse.wf_drop d p h
  unfold Sparse.wf at h' ⊢
  rw [Bool.and_eq_true, List.all_eq_true] at h' ⊢
  refine ⟨h'.1, fun q hq => ?_⟩
  have hp : p q.1 = false := by simpa using (List.mem_filter.1 hq).2
  rw [hd q.1 hp]
  exact h'.2 q hq

theorem Sparse.wf_nil : Sparse.wf d ([] : Sparse α) = true := rfl

omit [DecidableEq α] in
/-- A dropped key reads as unlisted; every other key reads as before. -/
theorem Sparse.get_drop (m : Sparse α) (p : Nat → Bool) (a : Nat) :
    Sparse.get d (Sparse.drop m p) a = if p a then d a else Sparse.get d m a := by
  induction m with
  | nil => simp [Sparse.drop, Sparse.get]
  | cons q t ih =>
    obtain ⟨k, w⟩ := q
    unfold Sparse.drop at ih ⊢
    by_cases hk : p k = true
    · rw [List.filter_cons_of_neg (by simp [hk]), ih]
      by_cases ha : k = a
      · subst ha; simp [hk]
      · simp [Sparse.get, ha]
    · rw [List.filter_cons_of_pos (by simp [hk])]
      by_cases ha : k = a
      · subst ha; simp [Sparse.get, hk]
      · simp only [Sparse.get, ha, if_false, ih]

end Sys2Proof.Machine
end

