-- ==== Sys2Proof/Laws/Keeps.lean ====
section
/-! SUPPORT. What every operation on the state keeps: the queue of waiting commands, and the canonical form of all that is
stored. `Keeps s₀ s` says that of a state `s` reached from `s₀`; the lemmas of this file carry it over each primitive update, and
the files Laws/Keeps<File>.lean carry it over every operation and every meaning. -/

namespace Sys2Proof.Machine

/-- The state `s` has the waiting commands of `s₀`, and is canonical if `s₀` is. -/
structure Keeps (s₀ s : State) : Prop where
  pending : s.pending = s₀.pending
  canon : s₀.canon = true → s.canon = true

theorem Keeps.refl (s : State) : Keeps s s := ⟨rfl, id⟩

theorem Keeps.trans {a b c : State} (h : Keeps a b) (g : Keeps b c) : Keeps a c :=
  ⟨g.pending.trans h.pending, fun x => g.canon (h.canon x)⟩

theorem State.canon_iff (s : State) : s.canon = true ↔
    Sparse.wf resetCell s.regs = true ∧ Sparse.wf hdrDefault s.hdr = true ∧ s.mem.canon = true ∧ s.psv.canon = true := by
  simp only [State.canon, State.regsCanon, Bool.and_eq_true, and_assoc]

variable {s₀ s : State}

/-- The stored contents of the memories are canonical, memory by memory. -/
theorem MemState.canon_iff (m : MemState) : m.canon = true ↔
    Sparse.wf byte0 m.dram = true ∧ Sparse.wf noMark m.dramPoison = true ∧ Sparse.wf (cellarByte0 m.cellarLoss) m.cellar = true
      ∧ Sparse.wf noMark m.cellarPoison = true ∧ Sparse.wf byte0 m.result = true ∧ Sparse.wf noMark m.resultPoison = true := by
  simp only [MemState.canon, Bool.and_eq_true, and_assoc]

/-- Memories with the same stored contents are canonical together. -/
theorem MemState.canon_congr {m m' : MemState} (h1 : m'.dram = m.dram) (h2 : m'.dramPoison = m.dramPoison) (h3 : m'.cellar = m.cellar)
    (h4 : m'.cellarPoison = m.cellarPoison) (h5 : m'.result = m.result) (h6 : m'.resultPoison = m.resultPoison) (h7 : m'.cellarLoss = m.cellarLoss)
    (h : m.canon = true) : m'.canon = true := by
  rw [MemState.canon_iff] at h ⊢
  rw [h1, h2, h3, h4, h5, h6, h7]
  exact h

theorem Psv.canon_congr {p p' : Psv} (hc : p'.cells = p.cells) (h : p.canon = true) : p'.canon = true := by
  unfold Psv.canon at *
  rw [hc]
  exact h

/-- Bytes written at rising keys keep a memory canonical. -/
theorem Mem.wf_writeAt (z : Nat → Byte) (m : Mem) (k : Nat) (bs : List Byte) (h : Sparse.wf z m = true) :
    Sparse.wf z (Mem.writeAt z m k bs) = true := by
  induction bs generalizing m k with
  | nil => exact h
  | cons b t ih => exact ih _ _ (Sparse.wf_set _ _ _ h)

/-- An update of parts that hold no stored contents. -/
theorem Keeps.parts (h : Keeps s₀ s) {t : State} (hp : t.pending = s.pending) (hr : t.regs = s.regs) (hh : t.hdr = s.hdr)
    (hm : s.mem.canon = true → t.mem.canon = true) (hv : s.psv.canon = true → t.psv.canon = true) :
    Keeps s₀ t := by
  refine ⟨hp.trans h.pending, fun c => ?_⟩
  have := h.canon c
  rw [State.canon_iff] at this ⊢
  rw [hr, hh]
  exact ⟨this.1, this.2.1, hm this.2.2.1, hv this.2.2.2⟩

/-- The same for an update written as a record. -/
theorem Keeps.record {cycles timebase free : Nat} {held : List (Nat × Nat)} {waiters : List Waiter} {logQueue : List LogReq} {cyc : Cyc} {fuses : Fuses} {mem : MemState} {frm : Frm} {sep : Sep} {slk : Slk} {scv : Scv} {hrv : Hrv} {etu : Etu} {grf : Grf} {tiles : Sparse Tile} {hif : Hif} {saf : Saf} {gpio : Gpio} {rst : Rst} {psv : Psv} {pwr : Pwr} {boot : Boot}
    (h1 : mem.dram = s.mem.dram) (h2 : mem.dramPoison = s.mem.dramPoison) (h3 : mem.cellar = s.mem.cellar) (h4 : mem.cellarPoison = s.mem.cellarPoison)
    (h5 : mem.result = s.mem.result) (h6 : mem.resultPoison = s.mem.resultPoison) (h7 : mem.cellarLoss = s.mem.cellarLoss)
    (hv : psv.cells = s.psv.cells) (h : Keeps s₀ s) :
    Keeps s₀ ⟨cycles, timebase, free, s.regs, s.hdr, held, waiters, logQueue, cyc, fuses, mem, frm, sep, slk, scv, hrv, etu, grf, tiles, hif, saf, gpio, rst, psv, pwr, boot, s.pending⟩ :=
  h.parts rfl rfl rfl (MemState.canon_congr h1 h2 h3 h4 h5 h6 h7 ·) (Psv.canon_congr hv ·)

/-- An update that also returns registers to reset. -/
theorem Keeps.record_drop {p : Nat → Bool} {cycles timebase free : Nat} {held : List (Nat × Nat)} {waiters : List Waiter} {logQueue : List LogReq} {cyc : Cyc} {fuses : Fuses} {mem : MemState} {frm : Frm} {sep : Sep} {slk : Slk} {scv : Scv} {hrv : Hrv} {etu : Etu} {grf : Grf} {tiles : Sparse Tile} {hif : Hif} {saf : Saf} {gpio : Gpio} {rst : Rst} {psv : Psv} {pwr : Pwr} {boot : Boot}
    (h1 : mem.dram = s.mem.dram) (h2 : mem.dramPoison = s.mem.dramPoison) (h3 : mem.cellar = s.mem.cellar) (h4 : mem.cellarPoison = s.mem.cellarPoison)
    (h5 : mem.result = s.mem.result) (h6 : mem.resultPoison = s.mem.resultPoison) (h7 : mem.cellarLoss = s.mem.cellarLoss)
    (hv : psv.cells = s.psv.cells) (h : Keeps s₀ s) :
    Keeps s₀ ⟨cycles, timebase, free, Sparse.drop s.regs p, s.hdr, held, waiters, logQueue, cyc, fuses, mem, frm, sep, slk, scv, hrv, etu, grf, tiles, hif, saf, gpio, rst, psv, pwr, boot, s.pending⟩ := by
  refine ⟨h.pending, fun c => ?_⟩
  have := h.canon c
  rw [State.canon_iff] at this ⊢
  exact ⟨Sparse.wf_drop resetCell p this.1, this.2.1, MemState.canon_congr h1 h2 h3 h4 h5 h6 h7 this.2.2.1,
    Psv.canon_congr hv this.2.2.2⟩

/-- An update that also returns registers and page headers to reset. -/
theorem Keeps.record_drop2 {p q : Nat → Bool} {cycles timebase free : Nat} {held : List (Nat × Nat)} {waiters : List Waiter} {logQueue : List LogReq} {cyc : Cyc} {fuses : Fuses} {mem : MemState} {frm : Frm} {sep : Sep} {slk : Slk} {scv : Scv} {hrv : Hrv} {etu : Etu} {grf : Grf} {tiles : Sparse Tile} {hif : Hif} {saf : Saf} {gpio : Gpio} {rst : Rst} {psv : Psv} {pwr : Pwr} {boot : Boot}
    (h1 : mem.dram = s.mem.dram) (h2 : mem.dramPoison = s.mem.dramPoison) (h3 : mem.cellar = s.mem.cellar) (h4 : mem.cellarPoison = s.mem.cellarPoison)
    (h5 : mem.result = s.mem.result) (h6 : mem.resultPoison = s.mem.resultPoison) (h7 : mem.cellarLoss = s.mem.cellarLoss)
    (hv : psv.cells = s.psv.cells) (h : Keeps s₀ s) :
    Keeps s₀ ⟨cycles, timebase, free, Sparse.drop s.regs p, Sparse.drop s.hdr q, held, waiters, logQueue, cyc, fuses, mem, frm, sep, slk, scv, hrv, etu, grf, tiles, hif, saf, gpio, rst, psv, pwr, boot, s.pending⟩ := by
  refine ⟨h.pending, fun c => ?_⟩
  have := h.canon c
  rw [State.canon_iff] at this ⊢
  exact ⟨Sparse.wf_drop resetCell p this.1, Sparse.wf_drop hdrDefault q this.2.1, 
    MemState.canon_congr h1 h2 h3 h4 h5 h6 h7 this.2.2.1, Psv.canon_congr hv this.2.2.2⟩

theorem Keeps.ite {c : Prop} [Decidable c] {a b : State} (ha : Keeps s₀ a) (hb : Keeps s₀ b) :
    Keeps s₀ (if c then a else b) := by split <;> assumption

theorem Keeps.ite_snd {α : Type} {c : Prop} [Decidable c] {a b : α × State} (ha : Keeps s₀ a.2) (hb : Keeps s₀ b.2) :
    Keeps s₀ (if c then a else b).2 := by split <;> assumption

theorem Keeps.foldl {α : Type} {f : State → α → State} (hf : ∀ x a, Keeps s₀ x → Keeps s₀ (f x a)) (l : List α)
    (h : Keeps s₀ s) : Keeps s₀ (l.foldl f s) := by
  induction l generalizing s with
  | nil => exact h
  | cons a t ih => exact ih (hf s a h)

theorem Keeps.foldl_snd {α β : Type} {f : β × State → α → β × State} {x : β × State}
    (hf : ∀ x a, Keeps s₀ x.2 → Keeps s₀ (f x a).2) (l : List α) (h : Keeps s₀ x.2) : Keeps s₀ (l.foldl f x).2 := by
  induction l generalizing x with
  | nil => exact h
  | cons a t ih => exact ih (hf x a h)

theorem State.updFrm_keeps (f : Frm → Frm) (h : Keeps s₀ s) : Keeps s₀ (s.updFrm f) := h.parts rfl rfl rfl id id
theorem State.updSep_keeps (f : Sep → Sep) (h : Keeps s₀ s) : Keeps s₀ (s.updSep f) := h.parts rfl rfl rfl id id
theorem State.updSlk_keeps (f : Slk → Slk) (h : Keeps s₀ s) : Keeps s₀ (s.updSlk f) := h.parts rfl rfl rfl id id
theorem State.updScv_keeps (f : Scv → Scv) (h : Keeps s₀ s) : Keeps s₀ (s.updScv f) := h.parts rfl rfl rfl id id
theorem State.updHrv_keeps (f : Hrv → Hrv) (h : Keeps s₀ s) : Keeps s₀ (s.updHrv f) := h.parts rfl rfl rfl id id
theorem State.updEtu_keeps (f : Etu → Etu) (h : Keeps s₀ s) : Keeps s₀ (s.updEtu f) := h.parts rfl rfl rfl id id
theorem State.updGrf_keeps (f : Grf → Grf) (h : Keeps s₀ s) : Keeps s₀ (s.updGrf f) := h.parts rfl rfl rfl id id
theorem State.updHif_keeps (f : Hif → Hif) (h : Keeps s₀ s) : Keeps s₀ (s.updHif f) := h.parts rfl rfl rfl id id
theorem State.updSaf_keeps (f : Saf → Saf) (h : Keeps s₀ s) : Keeps s₀ (s.updSaf f) := h.parts rfl rfl rfl id id
theorem State.updGpio_keeps (f : Gpio → Gpio) (h : Keeps s₀ s) : Keeps s₀ (s.updGpio f) := h.parts rfl rfl rfl id id
theorem State.updRst_keeps (f : Rst → Rst) (h : Keeps s₀ s) : Keeps s₀ (s.updRst f) := h.parts rfl rfl rfl id id
theorem State.updPwr_keeps (f : Pwr → Pwr) (h : Keeps s₀ s) : Keeps s₀ (s.updPwr f) := h.parts rfl rfl rfl id id
theorem State.updBoot_keeps (f : Boot → Boot) (h : Keeps s₀ s) : Keeps s₀ (s.updBoot f) := h.parts rfl rfl rfl id id

/-- An update of the persistent store that leaves its cells. -/
theorem State.updPsv_keeps (f : Psv → Psv) (hf : ∀ p : Psv, (f p).cells = p.cells) (h : Keeps s₀ s) :
    Keeps s₀ (s.updPsv f) :=
  h.parts rfl rfl rfl id (Psv.canon_congr (hf s.psv) ·)

/-- An update of the memories that keeps them canonical. -/
theorem State.updMem_canon (f : MemState → MemState) (hf : ∀ m : MemState, m.canon = true → (f m).canon = true)
    (h : Keeps s₀ s) : Keeps s₀ (s.updMem f) :=
  h.parts rfl rfl rfl (hf s.mem) id

/-- An update of the memories that leaves what they store. -/
theorem State.updMem_keeps (f : MemState → MemState) (h1 : ∀ m : MemState, (f m).dram = m.dram)
    (h2 : ∀ m : MemState, (f m).dramPoison = m.dramPoison) (h3 : ∀ m : MemState, (f m).cellar = m.cellar)
    (h4 : ∀ m : MemState, (f m).cellarPoison = m.cellarPoison) (h5 : ∀ m : MemState, (f m).result = m.result)
    (h6 : ∀ m : MemState, (f m).resultPoison = m.resultPoison) (h7 : ∀ m : MemState, (f m).cellarLoss = m.cellarLoss)
    (h : Keeps s₀ s) : Keeps s₀ (s.updMem f) :=
  State.updMem_canon f (fun m => MemState.canon_congr (h1 m) (h2 m) (h3 m) (h4 m) (h5 m) (h6 m) (h7 m)) h

theorem State.elapse_keeps (n : Nat) (h : Keeps s₀ s) : Keeps s₀ (s.elapse n) := h.parts rfl rfl rfl id id
theorem State.drawFree_keeps (h : Keeps s₀ s) : Keeps s₀ s.drawFree := h.parts rfl rfl rfl id id

theorem State.setCell_keeps (k : Nat) (v : Word) (h : Keeps s₀ s) : Keeps s₀ (s.setCell k v) := by
  refine ⟨h.pending, fun c => ?_⟩
  have := h.canon c
  rw [State.canon_iff] at this ⊢
  exact ⟨Sparse.wf_set _ _ _ this.1, this.2⟩

theorem State.setFld_keeps (x : Field) (v : Nat) (h : Keeps s₀ s) : Keeps s₀ (s.setFld x v) :=
  State.setCell_keeps _ _ h

theorem State.setPage_keeps (p : Nat) (v : PageHdr) (h : Keeps s₀ s) : Keeps s₀ (s.setPage p v) := by
  refine ⟨h.pending, fun c => ?_⟩
  have := h.canon c
  rw [State.canon_iff] at this ⊢
  exact ⟨this.1, Sparse.wf_set _ _ _ this.2.1, this.2.2⟩

theorem State.resetPageRegs_keeps (p : Nat) (keep : Nat → Bool) (h : Keeps s₀ s) : Keeps s₀ (s.resetPageRegs p keep) := by
  refine ⟨h.pending, fun c => ?_⟩
  have := h.canon c
  rw [State.canon_iff] at this ⊢
  exact ⟨Sparse.wf_drop resetCell (fun k => k / 0x1000 == p && !keep (k % 0x1000)) this.1, this.2⟩

end Sys2Proof.Machine
end

