-- ==== Sys2Proof/Laws/KeepsOps.lean ====
section
/-! SUPPORT. What the operations of Machine/Ops.lean keep: the waiting commands and the canonical form (Laws/Keeps.lean). -/

namespace Sys2Proof.Machine

set_option linter.unusedSimpArgs false
set_option linter.unusedTactic false

variable {s₀ s : State}

theorem State.updCyc_keeps (f : Cyc → Cyc) (hs : Keeps s₀ s) :
    Keeps s₀ (s.updCyc f) := by
  unfold State.updCyc
  simp (maxDischargeDepth := 64) +contextual only [*, Keeps.ite, Keeps.ite_snd, Keeps.foldl, Keeps.foldl_snd, Keeps.record, Keeps.record_drop,
    Keeps.record_drop2, implies_true]

theorem State.noteRise_keeps (k : Nat) (m : Word) (hs : Keeps s₀ s) :
    Keeps s₀ (s.noteRise k m) := by
  unfold State.noteRise
  simp (maxDischargeDepth := 64) +contextual only [*, Keeps.ite, Keeps.ite_snd, Keeps.foldl, Keeps.foldl_snd, State.updCyc_keeps, implies_true]

theorem State.setSfld_keeps (f : Field) (i : Int) (hs : Keeps s₀ s) :
    Keeps s₀ (s.setSfld f i) := by
  unfold State.setSfld
  simp (maxDischargeDepth := 64) +contextual only [*, State.setFld_keeps, implies_true]

theorem State.bumpBy_keeps (f : Field) (n : Nat) (hs : Keeps s₀ s) :
    Keeps s₀ (s.bumpBy f n) := by
  unfold State.bumpBy
  simp (maxDischargeDepth := 64) +contextual only [*, State.setFld_keeps, implies_true]

theorem State.bump_keeps (f : Field) (hs : Keeps s₀ s) :
    Keeps s₀ (s.bump f) := by
  unfold State.bump
  simp (maxDischargeDepth := 64) +contextual only [*, State.bumpBy_keeps, implies_true]

theorem State.signal_keeps (fn : Nat) (v : Nat) (hs : Keeps s₀ s) :
    Keeps s₀ (s.signal fn v) := by
  unfold State.signal
  simp (maxDischargeDepth := 64) +contextual only [*, Keeps.ite, Keeps.ite_snd, Keeps.foldl, Keeps.foldl_snd, State.setCell_keeps, State.updHif_keeps,
    implies_true]

theorem State.signalRise_keeps (p : Nat) (old : Word) (new : Word) (hs : Keeps s₀ s) :
    Keeps s₀ (s.signalRise p old new) := by
  unfold State.signalRise
  repeat' first
    | (simp (maxDischargeDepth := 64) +contextual only [*, Keeps.ite, State.signal_keeps, implies_true]; done)
    | split

theorem State.updPage_keeps (p : Nat) (f : PageHdr → PageHdr) (hs : Keeps s₀ s) :
    Keeps s₀ (s.updPage p f) := by
  unfold State.updPage
  simp (maxDischargeDepth := 64) +contextual only [*, State.setPage_keeps, State.signalRise_keeps, implies_true]

theorem State.event_keeps (p : Nat) (b : Nat) (hs : Keeps s₀ s) :
    Keeps s₀ (s.event p b) := by
  unfold State.event
  simp (maxDischargeDepth := 64) +contextual only [*, Keeps.ite, Keeps.ite_snd, Keeps.foldl, Keeps.foldl_snd, State.noteRise_keeps, State.updPage_keeps,
    implies_true]

theorem State.eventAll_keeps (ps : List Nat) (b : Nat) (hs : Keeps s₀ s) :
    Keeps s₀ (s.eventAll ps b) := by
  unfold State.eventAll
  simp (maxDischargeDepth := 64) +contextual only [*, Keeps.foldl, State.event_keeps, implies_true]

theorem State.setCond_keeps (q : Nat) (f : Cond → Cond) (hs : Keeps s₀ s) :
    Keeps s₀ (s.setCond q f) := by
  unfold State.setCond
  simp (maxDischargeDepth := 64) +contextual only [*, Keeps.ite, Keeps.ite_snd, Keeps.foldl, Keeps.foldl_snd, State.setPage_keeps, State.eventAll_keeps,
    implies_true]

theorem State.sepFollow_keeps (hs : Keeps s₀ s) :
    Keeps s₀ (s.sepFollow) := by
  unfold State.sepFollow
  simp (maxDischargeDepth := 64) +contextual only [*, Keeps.ite, Keeps.ite_snd, Keeps.foldl, Keeps.foldl_snd, State.setCond_keeps, implies_true]

theorem State.updCond_keeps (p : Nat) (f : Cond → Cond) (hs : Keeps s₀ s) :
    Keeps s₀ (s.updCond p f) := by
  unfold State.updCond
  simp (maxDischargeDepth := 64) +contextual only [*, Keeps.ite, Keeps.ite_snd, Keeps.foldl, Keeps.foldl_snd, State.setCond_keeps, State.sepFollow_keeps,
    implies_true]

theorem State.logged_keeps (r : LogReq) (hs : Keeps s₀ s) :
    Keeps s₀ (s.logged r) := by
  unfold State.logged
  simp (maxDischargeDepth := 64) +contextual only [*, Keeps.ite, Keeps.record, State.bump_keeps, implies_true]

theorem State.error_keeps (p : Nat) (code : Nat) (info : Word) (hs : Keeps s₀ s) :
    Keeps s₀ (s.error p code info) := by
  unfold State.error
  simp (maxDischargeDepth := 64) +contextual only [*, Keeps.ite, Keeps.ite_snd, Keeps.foldl, Keeps.foldl_snd, State.updCyc_keeps, State.noteRise_keeps,
    State.updPage_keeps, State.logged_keeps, implies_true]

theorem State.note_keeps (code : Nat) (info : Word) (hs : Keeps s₀ s) :
    Keeps s₀ (s.note code info) := by
  unfold State.note
  simp (maxDischargeDepth := 64) +contextual only [*, State.logged_keeps, implies_true]

theorem State.lifeSafe_keeps (hs : Keeps s₀ s) :
    Keeps s₀ (s.lifeSafe) := by
  unfold State.lifeSafe
  simp (maxDischargeDepth := 64) +contextual only [*, State.updPsv_keeps, implies_true]

theorem State.lifeTrip_keeps (hs : Keeps s₀ s) :
    Keeps s₀ (s.lifeTrip) := by
  unfold State.lifeTrip
  simp (maxDischargeDepth := 64) +contextual only [*, State.updPsv_keeps, implies_true]

theorem State.abandonLock_keeps (p : Nat) (hs : Keeps s₀ s) :
    Keeps s₀ (s.abandonLock p) := by
  unfold State.abandonLock
  simp (maxDischargeDepth := 64) +contextual only [*, State.setPage_keeps, State.event_keeps, State.error_keeps,
    implies_true]

theorem State.abandonOnce_keeps (p : Nat) (hs : Keeps s₀ s) : Keeps s₀ (s.abandonOnce p) := by
  unfold State.abandonOnce
  exact Keeps.ite (Keeps.parts (State.abandonLock_keeps p hs) rfl rfl rfl id id) hs

theorem State.abandonLocks_keeps (who : Nat → Bool) (hs : Keeps s₀ s) :
    Keeps s₀ (s.abandonLocks who) := by
  unfold State.abandonLocks
  simp (maxDischargeDepth := 64) +contextual only [*, Keeps.ite, Keeps.ite_snd, Keeps.foldl, Keeps.foldl_snd, State.abandonOnce_keeps, implies_true]

theorem State.acquire_keeps (p : Nat) (rs : List Nat) (wants : Nat) (hs : Keeps s₀ s) :
    Keeps s₀ (s.acquire p rs wants) := by
  unfold State.acquire
  simp (maxDischargeDepth := 64) +contextual only [*, Keeps.ite, Keeps.ite_snd, Keeps.foldl, Keeps.foldl_snd, Keeps.record, Keeps.record_drop,
    Keeps.record_drop2, State.updCond_keeps, State.error_keeps, implies_true]

theorem State.release_keeps (p : Nat) (hs : Keeps s₀ s) :
    Keeps s₀ (s.release p) := by
  unfold State.release
  simp (maxDischargeDepth := 64) +contextual only [*, Keeps.ite_snd, Keeps.record, implies_true]

theorem State.preempt_keeps (res : Nat) (hs : Keeps s₀ s) :
    Keeps s₀ (s.preempt res) := by
  unfold State.preempt
  repeat' first
    | (simp (maxDischargeDepth := 64) +contextual only [*, Keeps.ite, Keeps.ite_snd, Keeps.foldl, Keeps.foldl_snd, Keeps.record, Keeps.record_drop,
        Keeps.record_drop2, State.updCond_keeps, State.error_keeps, implies_true]; done)
    | split

theorem State.grantOne_keeps (w : Waiter) (hs : Keeps s₀ s) :
    Keeps s₀ (s.grantOne w) := by
  unfold State.grantOne
  simp (maxDischargeDepth := 64) +contextual only [*, Keeps.ite, Keeps.record, State.updCond_keeps, implies_true]

end Sys2Proof.Machine
end

