-- ==== Sys2Proof/Laws/KeepsCycle.lean ====
section
/-! SUPPORT. What the operations of Machine/Cycle.lean keep: the waiting commands and the canonical form (Laws/Keeps.lean). -/

namespace Sys2Proof.Machine

set_option linter.unusedSimpArgs false
set_option linter.unusedTactic false

variable {s₀ s : State}

theorem State.lockAbandon_keeps (p : Nat) (hs : Keeps s₀ s) :
    Keeps s₀ (s.lockAbandon p) := by
  unfold State.lockAbandon
  simp (maxDischargeDepth := 64) +contextual only [*, Keeps.ite, Keeps.ite_snd, Keeps.foldl, Keeps.foldl_snd, State.abandonOnce_keeps, implies_true]

theorem State.actAbandons_keeps (hs : Keeps s₀ s) :
    Keeps s₀ (s.actAbandons) := by
  unfold State.actAbandons
  simp (maxDischargeDepth := 64) +contextual only [*, Keeps.ite, Keeps.ite_snd, Keeps.foldl, Keeps.foldl_snd, State.abandonOnce_keeps, implies_true]

end Sys2Proof.Machine
end

