-- ==== Sys2Proof/Laws/KeepsMemBase.lean ====
section
/-! SUPPORT. What the operations of Machine/MemBase.lean keep: the waiting commands and the canonical form (Laws/Keeps.lean). -/

namespace Sys2Proof.Machine

set_option linter.unusedSimpArgs false
set_option linter.unusedTactic false

variable {s₀ s : State}

theorem State.countFrom_keeps (p : Nat) (off : Nat) (hs : Keeps s₀ s) :
    Keeps s₀ (s.countFrom p off) := by
  unfold State.countFrom
  simp (maxDischargeDepth := 64) +contextual only [*, Keeps.ite, Keeps.ite_snd, Keeps.foldl, Keeps.foldl_snd, State.updMem_keeps, implies_true]

theorem State.pokeByte_keeps (output : Bool) (d : Nat) (b : Byte) (h : Keeps s₀ s) : Keeps s₀ (s.pokeByte output d b) := by
  unfold State.pokeByte
  split
  · refine State.updMem_canon _ (fun m c => ?_) h
    rw [MemState.canon_iff] at c ⊢
    exact ⟨Sparse.wf_set _ _ _ c.1, c.2⟩
  · refine State.updMem_canon _ (fun m c => ?_) h
    rw [MemState.canon_iff] at c ⊢
    exact ⟨c.1, c.2.1, Sparse.wf_set _ _ _ c.2.2.1, c.2.2.2⟩
  · refine Keeps.ite (State.updMem_canon _ (fun m c => ?_) h) h
    rw [MemState.canon_iff] at c ⊢
    exact ⟨c.1, c.2.1, c.2.2.1, c.2.2.2.1, Sparse.wf_set _ _ _ c.2.2.2.2.1, c.2.2.2.2.2⟩
  all_goals exact h

theorem State.poke_keeps (output : Bool) (d : Nat) (bs : List Byte) (h : Keeps s₀ s) : Keeps s₀ (s.poke output d bs) := by
  induction bs generalizing s d with
  | nil => exact h
  | cons b t ih => exact ih _ (State.pokeByte_keeps output d b h)

theorem State.scramble_keeps (output : Bool) (d : Nat) (n : Nat) (hs : Keeps s₀ s) :
    Keeps s₀ (s.scramble output d n) := by
  unfold State.scramble
  simp (maxDischargeDepth := 64) +contextual only [*, Keeps.ite, Keeps.ite_snd, Keeps.foldl, Keeps.foldl_snd, State.drawFree_keeps, State.poke_keeps,
    implies_true]

end Sys2Proof.Machine
end

