-- ==== Sys2Proof/Laws/KeepsStatus.lean ====
section
/-! SUPPORT. What the operations of Machine/Status.lean keep: the waiting commands and the canonical form (Laws/Keeps.lean). -/

namespace Sys2Proof.Machine

set_option linter.unusedSimpArgs false
set_option linter.unusedTactic false

variable {s₀ s : State}

theorem State.setJob_keeps (ctx : Nat) (ring : Nat) (j : Option Job) (hs : Keeps s₀ s) :
    Keeps s₀ (s.setJob ctx ring j) := by
  unfold State.setJob
  simp (maxDischargeDepth := 64) +contextual only [*, Keeps.record, implies_true]

theorem State.writeStatus_keeps (ctx : Nat) (j : Job) (st : Nat) (code : Nat) (crc : Nat) (hs : Keeps s₀ s) :
    Keeps s₀ (s.writeStatus ctx j st code crc) := by
  unfold State.writeStatus
  simp (maxDischargeDepth := 64) +contextual only [*, Keeps.ite, Keeps.record, implies_true]

theorem State.jobDone_keeps (ctx : Nat) (ring : Nat) (j : Job) (code : Nat) (crc : Nat) (hs : Keeps s₀ s) :
    Keeps s₀ (s.jobDone ctx ring j code crc) := by
  unfold State.jobDone
  simp (maxDischargeDepth := 64) +contextual only [*, Keeps.ite, State.setFld_keeps, State.bump_keeps,
    State.setJob_keeps, State.writeStatus_keeps, implies_true]

theorem State.jobAborted_keeps (ctx : Nat) (ring : Nat) (j : Job) (code : Nat) (hs : Keeps s₀ s) :
    Keeps s₀ (s.jobAborted ctx ring j code) := by
  unfold State.jobAborted
  simp (maxDischargeDepth := 64) +contextual only [*, State.setJob_keeps, State.writeStatus_keeps, implies_true]

theorem State.statusFollowers_keeps (n : Nat) (hs : Keeps s₀ s) :
    Keeps s₀ (s.statusFollowers n) := by
  unfold State.statusFollowers
  simp (maxDischargeDepth := 64) +contextual only [*, Keeps.ite_snd, Keeps.foldl, Keeps.foldl_snd,
    State.writeStatus_keeps, implies_true]

theorem State.abortFollowers_keeps (n : Nat) (code : Nat) (hs : Keeps s₀ s) :
    Keeps s₀ (s.abortFollowers n code) := by
  unfold State.abortFollowers
  simp (maxDischargeDepth := 64) +contextual only [*, Keeps.ite_snd, Keeps.foldl, Keeps.foldl_snd,
    State.jobAborted_keeps, implies_true]

theorem State.doneFollowers_keeps (n : Nat) (code : Nat) (crc : Nat) (hs : Keeps s₀ s) :
    Keeps s₀ (s.doneFollowers n code crc) := by
  unfold State.doneFollowers
  simp (maxDischargeDepth := 64) +contextual only [*, Keeps.ite_snd, Keeps.foldl, Keeps.foldl_snd, State.jobDone_keeps,
    implies_true]

end Sys2Proof.Machine
end

