-- ==== Sys2Proof/Laws/KeepsFrameStop.lean ====
section
/-! SUPPORT. What the operations of Machine/FrameStop.lean keep: the waiting commands and the canonical form (Laws/Keeps.lean). -/

namespace Sys2Proof.Machine

set_option linter.unusedSimpArgs false
set_option linter.unusedTactic false

variable {s₀ s : State}

theorem State.setTile_keeps (n : Nat) (t : Tile) (hs : Keeps s₀ s) :
    Keeps s₀ (s.setTile n t) := by
  unfold State.setTile
  simp (maxDischargeDepth := 64) +contextual only [*, Keeps.record, implies_true]

theorem State.updTile_keeps (n : Nat) (f : Tile → Tile) (hs : Keeps s₀ s) :
    Keeps s₀ (s.updTile n f) := by
  unfold State.updTile
  simp (maxDischargeDepth := 64) +contextual only [*, State.setTile_keeps, implies_true]

theorem State.setBank_keeps (b : Nat) (k : Bank) (hs : Keeps s₀ s) :
    Keeps s₀ (s.setBank b k) := by
  unfold State.setBank
  simp (maxDischargeDepth := 64) +contextual only [*, Keeps.ite, Keeps.record, implies_true]

theorem State.freeBank_keeps (b : Option Nat) (hs : Keeps s₀ s) :
    Keeps s₀ (s.freeBank b) := by
  unfold State.freeBank
  repeat' first
    | (simp (maxDischargeDepth := 64) +contextual only [*, State.setBank_keeps, implies_true]; done)
    | split

theorem State.freeFrameBanks_keeps (f : Frame) (hs : Keeps s₀ s) :
    Keeps s₀ (s.freeFrameBanks f) := by
  unfold State.freeFrameBanks
  simp (maxDischargeDepth := 64) +contextual only [*, State.freeBank_keeps, implies_true]

theorem State.releaseTile_keeps (n : Nat) (hs : Keeps s₀ s) :
    Keeps s₀ (s.releaseTile n) := by
  unfold State.releaseTile
  simp (maxDischargeDepth := 64) +contextual only [*, State.setFld_keeps, State.updCond_keeps, State.updTile_keeps,
    implies_true]

theorem State.abandonOp_keeps (r : RunStage) (x : OpRun) (hs : Keeps s₀ s) :
    Keeps s₀ (s.abandonOp r x) := by
  unfold State.abandonOp
  simp (maxDischargeDepth := 64) +contextual only [*, Keeps.ite, Keeps.ite_snd, Keeps.foldl, Keeps.foldl_snd, State.scramble_keeps, implies_true]

theorem State.stopTiles_keeps (r : RunStage) (hs : Keeps s₀ s) :
    Keeps s₀ (s.stopTiles r) := by
  unfold State.stopTiles
  simp (maxDischargeDepth := 64) +contextual only [*, Keeps.foldl, State.releaseTile_keeps, State.abandonOp_keeps,
    implies_true]

theorem State.stopBev_keeps (r : RunStage) (hs : Keeps s₀ s) :
    Keeps s₀ (s.stopBev r) := by
  unfold State.stopBev
  simp (maxDischargeDepth := 64) +contextual only [*, Keeps.ite, Keeps.ite_snd, Keeps.foldl, Keeps.foldl_snd, State.scramble_keeps, implies_true]

theorem State.etuLastErr_keeps (t : Nat) (code : Nat) (hs : Keeps s₀ s) :
    Keeps s₀ (s.etuLastErr t code) := by
  unfold State.etuLastErr
  simp (maxDischargeDepth := 64) +contextual only [*, Keeps.ite, Keeps.ite_snd, Keeps.foldl, Keeps.foldl_snd, State.setFld_keeps, State.event_keeps,
    implies_true]

theorem State.stopEtuJob_keeps (r : RunStage) (code : Nat) (hs : Keeps s₀ s) :
    Keeps s₀ (s.stopEtuJob r code) := by
  unfold State.stopEtuJob
  repeat' first
    | (simp (maxDischargeDepth := 64) +contextual only [*, Keeps.ite, Keeps.ite_snd, Keeps.foldl, Keeps.foldl_snd, State.updEtu_keeps, State.updCond_keeps,
        State.scramble_keeps, State.etuLastErr_keeps, implies_true]; done)
    | split
    | (dsimp only; split)

theorem State.stopHrvRun_keeps (code : Nat) (hs : Keeps s₀ s) :
    Keeps s₀ (s.stopHrvRun code) := by
  unfold State.stopHrvRun
  repeat' first
    | (simp (maxDischargeDepth := 64) +contextual only [*, Keeps.ite, Keeps.ite_snd, Keeps.foldl, Keeps.foldl_snd, State.drawFree_keeps, State.updHrv_keeps,
        State.updCond_keeps, State.poke_keeps, State.scramble_keeps, implies_true]; done)
    | split

theorem State.stopHarvest_keeps (code : Nat) (hs : Keeps s₀ s) :
    Keeps s₀ (s.stopHarvest code) := by
  unfold State.stopHarvest
  simp (maxDischargeDepth := 64) +contextual only [*, Keeps.ite, Keeps.ite_snd, Keeps.foldl, Keeps.foldl_snd, State.updHrv_keeps, State.stopHrvRun_keeps,
    implies_true]

theorem State.stopAgents_keeps (p : Agent → Bool) (hs : Keeps s₀ s) :
    Keeps s₀ (s.stopAgents p) := by
  unfold State.stopAgents
  simp (maxDischargeDepth := 64) +contextual only [*, Keeps.ite, Keeps.ite_snd, Keeps.foldl, Keeps.foldl_snd, State.updGrf_keeps, implies_true]

theorem State.stopRemote_keeps (hs : Keeps s₀ s) :
    Keeps s₀ (s.stopRemote) := by
  unfold State.stopRemote
  simp (maxDischargeDepth := 64) +contextual only [*, Keeps.ite, Keeps.ite_snd, Keeps.foldl, Keeps.foldl_snd, State.stopAgents_keeps, implies_true]

theorem State.stopStages_keeps (code : Nat) (hs : Keeps s₀ s) :
    Keeps s₀ (s.stopStages code) := by
  unfold State.stopStages
  simp (maxDischargeDepth := 64) +contextual only [*, Keeps.ite, Keeps.ite_snd, Keeps.foldl, Keeps.foldl_snd, State.updFrm_keeps, State.updCond_keeps,
    State.stopTiles_keeps, State.stopBev_keeps, State.stopEtuJob_keeps, State.stopHarvest_keeps,
    State.stopRemote_keeps, implies_true]

theorem State.noSets_keeps (hs : Keeps s₀ s) :
    Keeps s₀ (s.noSets) := by
  unfold State.noSets
  simp (maxDischargeDepth := 64) +contextual only [*, State.setFld_keeps, implies_true]

theorem State.freeSets_keeps (hs : Keeps s₀ s) :
    Keeps s₀ (s.freeSets) := by
  unfold State.freeSets
  simp (maxDischargeDepth := 64) +contextual only [*, State.updScv_keeps, State.setFld_keeps, implies_true]

theorem State.dropCompute_keeps (code : Nat) (hs : Keeps s₀ s) :
    Keeps s₀ (s.dropCompute code) := by
  unfold State.dropCompute
  repeat' first
    | (simp (maxDischargeDepth := 64) +contextual only [*, State.updFrm_keeps, State.abortFollowers_keeps,
        State.freeFrameBanks_keeps, State.stopStages_keeps, State.noSets_keeps, State.freeSets_keeps, implies_true]; done)
    | split

theorem State.showPlan_keeps (hs : Keeps s₀ s) :
    Keeps s₀ (s.showPlan) := by
  unfold State.showPlan
  simp (maxDischargeDepth := 64) +contextual only [*, Keeps.ite, Keeps.ite_snd, Keeps.foldl, Keeps.foldl_snd, State.setFld_keeps, implies_true]

theorem State.setSlot_keeps (b : Nat) (st : Nat) (p : Plan) (hs : Keeps s₀ s) :
    Keeps s₀ (s.setSlot b st p) := by
  unfold State.setSlot
  simp (maxDischargeDepth := 64) +contextual only [*, Keeps.ite, State.updFrm_keeps, State.setFld_keeps,
    State.showPlan_keeps, implies_true]

theorem State.emptySlot_keeps (b : Nat) (hs : Keeps s₀ s) :
    Keeps s₀ (s.emptySlot b) := by
  unfold State.emptySlot
  simp (maxDischargeDepth := 64) +contextual only [*, Keeps.ite, Keeps.ite_snd, Keeps.foldl, Keeps.foldl_snd, State.setFld_keeps, State.updRst_keeps,
    State.setSlot_keeps, implies_true]

theorem State.afterFrame_keeps (hs : Keeps s₀ s) :
    Keeps s₀ (s.afterFrame) := by
  unfold State.afterFrame
  repeat' first
    | (simp (maxDischargeDepth := 64) +contextual only [*, Keeps.ite, Keeps.ite_snd, Keeps.foldl, Keeps.foldl_snd, State.updFrm_keeps, State.updRst_keeps,
        State.updCond_keeps, State.emptySlot_keeps, implies_true]; done)
    | split
    | (dsimp only; split)

theorem State.dropPoints_keeps (n : Nat) (hs : Keeps s₀ s) :
    Keeps s₀ (s.dropPoints n) := by
  unfold State.dropPoints
  simp (maxDischargeDepth := 64) +contextual only [*, Keeps.record, implies_true]

theorem State.dropIngest_keeps (hs : Keeps s₀ s) :
    Keeps s₀ (s.dropIngest) := by
  unfold State.dropIngest
  repeat' first
    | (simp (maxDischargeDepth := 64) +contextual only [*, Keeps.record, State.freeFrameBanks_keeps, State.dropPoints_keeps,
        implies_true]; done)
    | split

theorem State.dropClosing_keeps (hs : Keeps s₀ s) :
    Keeps s₀ (s.dropClosing) := by
  unfold State.dropClosing
  repeat' first
    | (simp (maxDischargeDepth := 64) +contextual only [*, Keeps.record, State.freeFrameBanks_keeps, State.dropPoints_keeps,
        implies_true]; done)
    | split

theorem State.endWaiters_keeps (n : Nat) (code : Nat) (aborted : Bool) (hs : Keeps s₀ s) :
    Keeps s₀ (s.endWaiters n code aborted) := by
  unfold State.endWaiters
  simp (maxDischargeDepth := 64) +contextual only [*, Keeps.ite, Keeps.ite_snd, Keeps.foldl, Keeps.foldl_snd,
    State.jobDone_keeps, State.jobAborted_keeps, implies_true]

theorem State.dropWaiting_keeps (code : Nat) (hs : Keeps s₀ s) :
    Keeps s₀ (s.dropWaiting code) := by
  unfold State.dropWaiting
  repeat' first
    | (simp (maxDischargeDepth := 64) +contextual only [*, Keeps.ite, Keeps.ite_snd, Keeps.foldl, Keeps.foldl_snd, State.dropIngest_keeps,
        State.dropClosing_keeps, State.endWaiters_keeps, implies_true]; done)
    | split
    | (dsimp only; split)

theorem State.poseStale_keeps (n : Nat) (hs : Keeps s₀ s) :
    Keeps s₀ (s.poseStale n) := by
  unfold State.poseStale
  simp (maxDischargeDepth := 64) +contextual only [*, State.event_keeps, State.error_keeps, implies_true]

theorem State.settleLatch_keeps (hs : Keeps s₀ s) :
    Keeps s₀ (s.settleLatch) := by
  unfold State.settleLatch
  simp (maxDischargeDepth := 64) +contextual only [*, Keeps.ite, State.updFrm_keeps, State.poseStale_keeps, implies_true]

theorem State.fabricClear_keeps (hs : Keeps s₀ s) :
    Keeps s₀ (s.fabricClear) := by
  unfold State.fabricClear
  simp (maxDischargeDepth := 64) +contextual only [*, Keeps.ite, Keeps.ite_snd, Keeps.foldl, Keeps.foldl_snd, Keeps.record, Keeps.record_drop,
    Keeps.record_drop2, State.setFld_keeps, State.updFrm_keeps, State.updMem_keeps, State.updRst_keeps,
    State.updSaf_keeps, State.updPage_keeps, State.updTile_keeps, implies_true]

theorem State.loseCellar_keeps (keep : Option Nat) (h : Keeps s₀ s) : Keeps s₀ (s.loseCellar keep) := by
  unfold State.loseCellar
  refine State.updMem_canon _ (fun m c => ?_) (State.drawFree_keeps h)
  rw [MemState.canon_iff] at c ⊢
  refine ⟨c.1, c.2.1, ?_, ?_, c.2.2.2.2⟩
  · refine Sparse.wf_drop_of (cellarByte0 m.cellarLoss) (cellarByte0 ((s.free, keep) :: m.cellarLoss)) m.cellar
      (fun k => !(keep == some (k / 0x180000) && Nat.ble 0xA0000 (k % 0x180000))) (fun k hk => ?_) c.2.2.1
    simp only [Bool.not_eq_false'] at hk
    simp only [cellarByte0, hk, if_true]
  · exact Sparse.wf_drop noMark (fun w => !(keep == some (8 * w / 0x180000) && Nat.ble 0xA0000 (8 * w % 0x180000))) c.2.2.2.1

theorem State.sentryStop_keeps (hs : Keeps s₀ s) :
    Keeps s₀ (s.sentryStop) := by
  unfold State.sentryStop
  simp (maxDischargeDepth := 64) +contextual only [*, Keeps.ite, Keeps.foldl, State.updPwr_keeps, State.setCell_keeps,
    State.stopTiles_keeps, State.fabricClear_keeps, implies_true]

end Sys2Proof.Machine
end

