-- ==== Sys2Proof/Laws/KeepsSaf.lean ====
section
/-! SUPPORT. What the operations of Machine/Saf.lean keep: the waiting commands and the canonical form (Laws/Keeps.lean). -/

namespace Sys2Proof.Machine

set_option linter.unusedSimpArgs false
set_option linter.unusedTactic false

variable {s₀ s : State}

theorem State.refreshActive_keeps (hs : Keeps s₀ s) :
    Keeps s₀ (s.refreshActive) := by
  unfold State.refreshActive
  simp (maxDischargeDepth := 64) +contextual only [*, Keeps.record, implies_true]

theorem State.relatchCauses_keeps (hs : Keeps s₀ s) :
    Keeps s₀ (s.relatchCauses) := by
  unfold State.relatchCauses
  simp (maxDischargeDepth := 64) +contextual only [*, Keeps.ite, Keeps.ite_snd, Keeps.foldl, Keeps.foldl_snd, State.noteRise_keeps, State.updPage_keeps,
    implies_true]

theorem State.noAgent_keeps (hs : Keeps s₀ s) :
    Keeps s₀ (s.noAgent) := by
  unfold State.noAgent
  simp (maxDischargeDepth := 64) +contextual only [*, Keeps.ite, Keeps.ite_snd, Keeps.foldl, Keeps.foldl_snd, State.updGrf_keeps, implies_true]

theorem State.setLink_keeps (n : Nat) (l : Nat) (hs : Keeps s₀ s) :
    Keeps s₀ (s.setLink n l) := by
  unfold State.setLink
  simp (maxDischargeDepth := 64) +contextual only [*, State.setFld_keeps, State.updCond_keeps, implies_true]

theorem State.retrain_keeps (hs : Keeps s₀ s) :
    Keeps s₀ (s.retrain) := by
  unfold State.retrain
  simp (maxDischargeDepth := 64) +contextual only [*, Keeps.ite, Keeps.ite_snd, Keeps.foldl, Keeps.foldl_snd, State.drawFree_keeps, State.setLink_keeps,
    implies_true]

theorem State.arrive_keeps (dt : Nat) (hs : Keeps s₀ s) :
    Keeps s₀ (s.arrive dt) := by
  unfold State.arrive
  simp (maxDischargeDepth := 64) +contextual only [*, Keeps.ite, Keeps.ite_snd, Keeps.foldl, Keeps.foldl_snd, State.elapse_keeps, State.settleLatch_keeps,
    State.actAbandons_keeps, State.refreshActive_keeps, State.relatchCauses_keeps, State.noAgent_keeps,
    State.retrain_keeps, implies_true]

theorem State.hostTlp_keeps (hs : Keeps s₀ s) :
    Keeps s₀ (s.hostTlp) := by
  unfold State.hostTlp
  simp (maxDischargeDepth := 64) +contextual only [*, State.updHif_keeps, implies_true]

theorem State.arriveBy_keeps (dt : Nat) (w : Nat) (hs : Keeps s₀ s) :
    Keeps s₀ (s.arriveBy dt w) := by
  unfold State.arriveBy
  simp (maxDischargeDepth := 64) +contextual only [*, Keeps.ite, State.arrive_keeps, State.hostTlp_keeps, implies_true]

theorem State.takeInjection_keeps (target : Nat) (inst : Nat) (hs : Keeps s₀ s) :
    Keeps s₀ (s.takeInjection target inst).2 := by
  unfold State.takeInjection
  simp (maxDischargeDepth := 64) +contextual only [*, Keeps.ite, Keeps.ite_snd, Keeps.record, implies_true]

theorem State.takePins_keeps (pins : List Nat) (hs : Keeps s₀ s) :
    Keeps s₀ (s.takePins pins) := by
  unfold State.takePins
  repeat' first
    | (simp (maxDischargeDepth := 64) +contextual only [*, Keeps.ite, Keeps.ite_snd, Keeps.foldl, Keeps.record,
        State.event_keeps, State.updCond_keeps, State.error_keeps, implies_true]; done)
    | split
    | (dsimp only; split)

theorem State.returnPins_keeps (pins : List Nat) (hs : Keeps s₀ s) :
    Keeps s₀ (s.returnPins pins) := by
  unfold State.returnPins
  simp (maxDischargeDepth := 64) +contextual only [*, Keeps.ite, Keeps.ite_snd, Keeps.foldl, Keeps.record,
    State.event_keeps, State.updCond_keeps, implies_true]

theorem State.signalVfs_keeps (v : Nat) (hs : Keeps s₀ s) :
    Keeps s₀ (s.signalVfs v) := by
  unfold State.signalVfs
  simp (maxDischargeDepth := 64) +contextual only [*, Keeps.foldl, State.signal_keeps, implies_true]

theorem State.raiseCause_keeps (n : Nat) (hs : Keeps s₀ s) :
    Keeps s₀ (s.raiseCause n) := by
  unfold State.raiseCause
  simp (maxDischargeDepth := 64) +contextual only [*, Keeps.ite, Keeps.ite_snd, Keeps.foldl, Keeps.foldl_snd, State.updSaf_keeps, State.event_keeps,
    implies_true]

theorem State.enterSafe_keeps (n : Nat) (code : Nat) (hs : Keeps s₀ s) :
    Keeps s₀ (s.enterSafe n code) := by
  unfold State.enterSafe
  simp (maxDischargeDepth := 64) +contextual only [*, Keeps.ite, Keeps.ite_snd, Keeps.foldl, Keeps.foldl_snd, Keeps.record, Keeps.record_drop,
    Keeps.record_drop2, State.setFld_keeps, State.bump_keeps, State.updCond_keeps, State.lifeSafe_keeps,
    State.dropCompute_keeps, State.afterFrame_keeps, State.dropWaiting_keeps, State.sentryStop_keeps,
    State.takePins_keeps, State.signalVfs_keeps, State.raiseCause_keeps, implies_true]

theorem State.firstCause_keeps (n : Nat) (code : Nat) (hs : Keeps s₀ s) :
    Keeps s₀ (s.firstCause n code) := by
  unfold State.firstCause
  simp (maxDischargeDepth := 64) +contextual only [*, Keeps.ite, State.setFld_keeps, implies_true]

theorem State.latch_keeps (n : Nat) (code : Nat) (hs : Keeps s₀ s) :
    Keeps s₀ (s.latch n code) := by
  unfold State.latch
  simp (maxDischargeDepth := 64) +contextual only [*, Keeps.ite, Keeps.ite_snd, Keeps.foldl, Keeps.foldl_snd, State.raiseCause_keeps,
    State.enterSafe_keeps, State.firstCause_keeps, implies_true]

theorem State.pageFault_keeps (p : Nat) (code : Nat) (hs : Keeps s₀ s) :
    Keeps s₀ (s.pageFault p code) := by
  unfold State.pageFault
  simp (maxDischargeDepth := 64) +contextual only [*, Keeps.ite, State.updCond_keeps, State.latch_keeps, implies_true]

theorem State.latchRst_keeps (n : Nat) (code : Nat) (hs : Keeps s₀ s) :
    Keeps s₀ (s.latchRst n code) := by
  unfold State.latchRst
  simp (maxDischargeDepth := 64) +contextual only [*, Keeps.ite, State.updRst_keeps, State.latch_keeps, implies_true]

theorem State.frmRelease_keeps (hs : Keeps s₀ s) :
    Keeps s₀ (s.frmRelease) := by
  unfold State.frmRelease
  simp (maxDischargeDepth := 64) +contextual only [*, Keeps.ite, State.release_keeps, implies_true]

theorem State.leaveSafe_keeps (hs : Keeps s₀ s) :
    Keeps s₀ (s.leaveSafe) := by
  unfold State.leaveSafe
  simp (maxDischargeDepth := 64) +contextual only [*, Keeps.foldl, Keeps.record, State.updCond_keeps,
    State.returnPins_keeps, State.signalVfs_keeps, State.frmRelease_keeps, implies_true]

end Sys2Proof.Machine
end

