-- ==== Sys2Proof/Laws/KeepsGrfNet.lean ====
section
/-! SUPPORT. What the operations of Machine/GrfNet.lean keep: the waiting commands and the canonical form (Laws/Keeps.lean). -/

namespace Sys2Proof.Machine

set_option linter.unusedSimpArgs false
set_option linter.unusedTactic false

variable {s₀ s : State}

theorem State.updPort_keeps (n : Nat) (f : GrfPort → GrfPort) (hs : Keeps s₀ s) :
    Keeps s₀ (s.updPort n f) := by
  unfold State.updPort
  simp (maxDischargeDepth := 64) +contextual only [*, State.updGrf_keeps, implies_true]

theorem State.countTx_keeps (n : Nat) (k : Nat) (hs : Keeps s₀ s) :
    Keeps s₀ (s.countTx n k) := by
  unfold State.countTx
  simp (maxDischargeDepth := 64) +contextual only [*, Keeps.ite, State.bumpBy_keeps, State.updPort_keeps, implies_true]

theorem State.sendPacket_keeps (n : Nat) (x : Nat × Packet) (hs : Keeps s₀ s) :
    Keeps s₀ (s.sendPacket n x) := by
  unfold State.sendPacket
  simp (maxDischargeDepth := 64) +contextual only [*, Keeps.ite, Keeps.ite_snd, State.updPort_keeps, State.countTx_keeps,
    implies_true]

theorem State.pumpPort_keeps (n f : Nat) (h : Keeps s₀ s) : Keeps s₀ (State.pumpPort n f s) := by
  induction f generalizing s with
  | zero => exact h
  | succ f ih =>
    unfold State.pumpPort
    repeat' first
      | exact ih (State.sendPacket_keeps _ _ h)
      | exact h
      | split

theorem State.pump_keeps (n : Nat) (hs : Keeps s₀ s) :
    Keeps s₀ (s.pump n) := by
  unfold State.pump
  simp (maxDischargeDepth := 64) +contextual only [*, State.pumpPort_keeps, implies_true]

theorem State.emit_keeps (arr : Option Nat) (d : Nat) (p : Packet) (hs : Keeps s₀ s) :
    Keeps s₀ (s.emit arr d p) := by
  unfold State.emit
  simp (maxDischargeDepth := 64) +contextual only [*, State.updPort_keeps, State.pump_keeps, implies_true]

theorem State.routeResp_keeps (arr : Option Nat) (p : Packet) (hs : Keeps s₀ s) :
    Keeps s₀ (s.routeResp arr p) := by
  unfold State.routeResp
  repeat' first
    | (simp (maxDischargeDepth := 64) +contextual only [*, Keeps.ite, State.bump_keeps, State.emit_keeps, implies_true]; done)
    | split

theorem State.nodeLost_keeps (node : Nat) (cause : Nat) (hs : Keeps s₀ s) :
    Keeps s₀ (s.nodeLost node cause) := by
  unfold State.nodeLost
  simp (maxDischargeDepth := 64) +contextual only [*, State.bump_keeps, State.event_keeps, State.error_keeps,
    implies_true]

theorem State.answer_keeps (x : GrfAns) (hs : Keeps s₀ s) :
    Keeps s₀ (s.answer x) := by
  unfold State.answer
  simp (maxDischargeDepth := 64) +contextual only [*, Keeps.ite, Keeps.ite_snd, Keeps.foldl, Keeps.foldl_snd, State.updGrf_keeps, implies_true]

theorem State.finishReq_keeps (q : GrfReq) (code : Nat) (poison : Bool) (bytes : List Byte) (hs : Keeps s₀ s) :
    Keeps s₀ (s.finishReq q code poison bytes) := by
  unfold State.finishReq
  simp (maxDischargeDepth := 64) +contextual only [*, Keeps.ite, Keeps.ite_snd, Keeps.foldl, Keeps.foldl_snd, State.updGrf_keeps, State.answer_keeps,
    implies_true]

theorem State.loseReq_keeps (q : GrfReq) (cause : Nat) (hs : Keeps s₀ s) :
    Keeps s₀ (s.loseReq q cause) := by
  unfold State.loseReq
  simp (maxDischargeDepth := 64) +contextual only [*, State.nodeLost_keeps, State.finishReq_keeps, implies_true]

theorem State.sendReq_keeps (q : GrfReq) (hs : Keeps s₀ s) :
    Keeps s₀ (s.sendReq q) := by
  unfold State.sendReq
  repeat' first
    | (simp (maxDischargeDepth := 64) +contextual only [*, Keeps.ite, State.updGrf_keeps, State.drawFree_keeps,
        State.bump_keeps, State.emit_keeps, State.loseReq_keeps, implies_true]; done)
    | split
    | (dsimp only; split)

theorem State.request_keeps (q : GrfReq) (hs : Keeps s₀ s) :
    Keeps s₀ (s.request q) := by
  unfold State.request
  simp (maxDischargeDepth := 64) +contextual only [*, Keeps.ite, Keeps.ite_snd, Keeps.foldl, Keeps.foldl_snd, State.updGrf_keeps, State.nodeLost_keeps,
    State.answer_keeps, State.sendReq_keeps, implies_true]

theorem State.retryHeld_keeps (hs : Keeps s₀ s) :
    Keeps s₀ (s.retryHeld) := by
  unfold State.retryHeld
  simp (maxDischargeDepth := 64) +contextual only [*, Keeps.foldl, State.updGrf_keeps, State.request_keeps, implies_true]

theorem State.dropReads_keeps (a : Agent) (hs : Keeps s₀ s) :
    Keeps s₀ (s.dropReads a) := by
  unfold State.dropReads
  simp (maxDischargeDepth := 64) +contextual only [*, State.updGrf_keeps, implies_true]

theorem State.dropAcks_keeps (a : Agent) (hs : Keeps s₀ s) :
    Keeps s₀ (s.dropAcks a) := by
  unfold State.dropAcks
  simp (maxDischargeDepth := 64) +contextual only [*, State.updGrf_keeps, implies_true]

theorem State.acked_keeps (code : Nat) (hs : Keeps s₀ s) :
    Keeps s₀ (s.acked code) := by
  unfold State.acked
  simp (maxDischargeDepth := 64) +contextual only [*, Keeps.ite, Keeps.ite_snd, Keeps.foldl, Keeps.foldl_snd, State.updGrf_keeps, implies_true]

theorem State.denied_keeps (hs : Keeps s₀ s) :
    Keeps s₀ (s.denied) := by
  unfold State.denied
  simp (maxDischargeDepth := 64) +contextual only [*, State.bump_keeps, State.event_keeps, State.error_keeps,
    implies_true]

theorem State.sendWrite_keeps (d : Nat) (bs : List Byte) (hs : Keeps s₀ s) :
    Keeps s₀ (s.sendWrite d bs) := by
  unfold State.sendWrite
  simp (maxDischargeDepth := 64) +contextual only [*, State.request_keeps, implies_true]

theorem State.sendRead_keeps (d : Nat) (n : Nat) (hs : Keeps s₀ s) :
    Keeps s₀ (s.sendRead d n) := by
  unfold State.sendRead
  simp (maxDischargeDepth := 64) +contextual only [*, State.request_keeps, implies_true]

theorem State.sendAdd_keeps (d : Nat) (mask : Nat) (addends : List Nat) (hs : Keeps s₀ s) :
    Keeps s₀ (s.sendAdd d mask addends) := by
  unfold State.sendAdd
  simp (maxDischargeDepth := 64) +contextual only [*, State.request_keeps, implies_true]

theorem State.asAgent_keeps (a : Agent) (hs : Keeps s₀ s) :
    Keeps s₀ (s.asAgent a) := by
  unfold State.asAgent
  simp (maxDischargeDepth := 64) +contextual only [*, State.updGrf_keeps, implies_true]

theorem State.byAgent_keeps (a : Agent) (f : State → State) (hf : ∀ x, Keeps s₀ x → Keeps s₀ (f x)) (h : Keeps s₀ s) :
    Keeps s₀ (s.byAgent a f) := by
  unfold State.byAgent
  exact Keeps.ite h (State.dropReads_keeps _ (hf _ (State.asAgent_keeps _ h)))

end Sys2Proof.Machine
end

