-- ==== Sys2Proof/Laws/KeepsMailbox.lean ====
section
/-! SUPPORT. What the operations of Machine/Mailbox.lean keep: the waiting commands and the canonical form (Laws/Keeps.lean). -/

namespace Sys2Proof.Machine

set_option linter.unusedSimpArgs false
set_option linter.unusedTactic false

variable {s₀ s : State}

theorem State.wakeTile_keeps (n : Nat) (hs : Keeps s₀ s) :
    Keeps s₀ (s.wakeTile n) := by
  unfold State.wakeTile
  simp (maxDischargeDepth := 64) +contextual only [*, Keeps.ite, State.updTile_keeps, implies_true]

theorem State.signalReceiver_keeps (r : Nat) (rise : Word) (hs : Keeps s₀ s) :
    Keeps s₀ (s.signalReceiver r rise) := by
  unfold State.signalReceiver
  simp (maxDischargeDepth := 64) +contextual only [*, Keeps.ite, State.setFld_keeps, State.wakeTile_keeps, implies_true]

theorem State.ring_keeps (r : Nat) (v : Word) (hs : Keeps s₀ s) :
    Keeps s₀ (s.ring r v) := by
  unfold State.ring
  simp (maxDischargeDepth := 64) +contextual only [*, Keeps.ite, Keeps.ite_snd, Keeps.foldl, Keeps.foldl_snd, State.setCell_keeps, State.noteRise_keeps,
    State.bump_keeps, State.signalReceiver_keeps, implies_true]

theorem State.clearPend_keeps (r : Nat) (v : Word) (hs : Keeps s₀ s) :
    Keeps s₀ (s.clearPend r v) := by
  unfold State.clearPend
  simp (maxDischargeDepth := 64) +contextual only [*, Keeps.ite, Keeps.ite_snd, Keeps.foldl, Keeps.foldl_snd, State.setCell_keeps, implies_true]

theorem State.setMask_keeps (r : Nat) (v : Word) (hs : Keeps s₀ s) :
    Keeps s₀ (s.setMask r v) := by
  unfold State.setMask
  simp (maxDischargeDepth := 64) +contextual only [*, State.setCell_keeps, State.signalReceiver_keeps, implies_true]

theorem State.setWake_keeps (r : Nat) (v : Word) (hs : Keeps s₀ s) :
    Keeps s₀ (s.setWake r v) := by
  unfold State.setWake
  simp (maxDischargeDepth := 64) +contextual only [*, Keeps.ite, State.setCell_keeps, implies_true]

theorem State.resetDoorbell_keeps (fn : Nat) (hs : Keeps s₀ s) :
    Keeps s₀ (s.resetDoorbell fn) := by
  unfold State.resetDoorbell
  simp (maxDischargeDepth := 64) +contextual only [*, State.setCell_keeps, implies_true]

theorem State.setMbSlot_keeps (m : Nat) (b : List Byte) (hs : Keeps s₀ s) :
    Keeps s₀ (s.setMbSlot m b) := by
  unfold State.setMbSlot
  simp (maxDischargeDepth := 64) +contextual only [*, Keeps.foldl, State.setCell_keeps, implies_true]

theorem State.mbxRefuse_keeps (hs : Keeps s₀ s) :
    Keeps s₀ (s.mbxRefuse) := by
  unfold State.mbxRefuse
  simp (maxDischargeDepth := 64) +contextual only [*, State.bump_keeps, State.event_keeps, State.error_keeps,
    implies_true]

theorem State.mbStore_keeps (m : Nat) (b : List Byte) (sender : Nat) (node : Nat) (hs : Keeps s₀ s) :
    Keeps s₀ (s.mbStore m b sender node) := by
  unfold State.mbStore
  simp (maxDischargeDepth := 64) +contextual only [*, Keeps.ite, Keeps.ite_snd, Keeps.foldl, Keeps.foldl_snd, State.setFld_keeps, State.noteRise_keeps,
    State.bump_keeps, State.event_keeps, State.ring_keeps, State.setMbSlot_keeps, implies_true]

theorem State.mbMessage_keeps (m : Nat) (b : List Byte) (hs : Keeps s₀ s) :
    Keeps s₀ (s.mbMessage m b) := by
  unfold State.mbMessage
  simp (maxDischargeDepth := 64) +contextual only [*, Keeps.ite, State.bump_keeps, State.mbStore_keeps, implies_true]

theorem State.mbForward_keeps (m : Nat) (b : List Byte) (sender : Nat) (hs : Keeps s₀ s) :
    Keeps s₀ (s.mbForward m b sender) := by
  unfold State.mbForward
  simp (maxDischargeDepth := 64) +contextual only [*, Keeps.ite, State.bump_keeps, State.routeResp_keeps,
    State.mbMessage_keeps, implies_true]

theorem State.mbSend_keeps (m : Nat) (b : List Byte) (sender : Nat) (h : Keeps s₀ s) : Keeps s₀ (s.mbSend m b sender).1 := by
  unfold State.mbSend
  split
  · split
    · exact State.mbForward_keeps _ _ _ h
    · exact State.mbStore_keeps _ _ _ _ h
  · exact State.mbxRefuse_keeps h

theorem State.mbTake_keeps (m : Nat) (c : Nat) (hs : Keeps s₀ s) :
    Keeps s₀ (s.mbTake m c) := by
  unfold State.mbTake
  simp (maxDischargeDepth := 64) +contextual only [*, Keeps.ite, State.setFld_keeps, implies_true]

theorem State.clearCollision_keeps (n : Nat) (k : Nat) (v : Word) (hs : Keeps s₀ s) :
    Keeps s₀ (s.clearCollision n k v) := by
  unfold State.clearCollision
  simp (maxDischargeDepth := 64) +contextual only [*, Keeps.ite, Keeps.ite_snd, Keeps.foldl, Keeps.foldl_snd, State.setFld_keeps, implies_true]

theorem State.areaWriteWord_keeps (x : Nat) (v : Word) (hs : Keeps s₀ s) :
    Keeps s₀ (s.areaWriteWord x v) := by
  unfold State.areaWriteWord
  simp (maxDischargeDepth := 64) +contextual only [*, Keeps.ite, Keeps.ite_snd, Keeps.foldl, Keeps.foldl_snd, State.ring_keeps, State.clearPend_keeps,
    State.setMask_keeps, State.setWake_keeps, State.mbTake_keeps, State.clearCollision_keeps, implies_true]

theorem State.areaRefuse_keeps (hs : Keeps s₀ s) :
    Keeps s₀ (s.areaRefuse) := by
  unfold State.areaRefuse
  simp (maxDischargeDepth := 64) +contextual only [*, State.updGrf_keeps, State.mbxRefuse_keeps, implies_true]

theorem State.areaWords_keeps (f x : Nat) (bs : List Byte) (h : Keeps s₀ s) : Keeps s₀ (State.areaWords f s x bs) := by
  induction f generalizing s x bs with
  | zero => exact h
  | succ f ih =>
    unfold State.areaWords
    split
    · exact h
    · split
      · exact ih _ _ (State.areaWriteWord_keeps _ _ h)
      · exact ih _ _ h

theorem State.areaWrite_keeps (x : Nat) (bs : List Byte) (hs : Keeps s₀ s) :
    Keeps s₀ (s.areaWrite x bs) := by
  unfold State.areaWrite
  simp (maxDischargeDepth := 64) +contextual only [*, Keeps.ite, Keeps.ite_snd, State.updGrf_keeps, State.drawFree_keeps,
    State.mbSend_keeps, State.areaRefuse_keeps, State.areaWords_keeps, implies_true]

theorem State.setPriv_keeps (ctx : Nat) (slot : Nat) (o : Nat) (bs : List Byte) (hs : Keeps s₀ s) :
    Keeps s₀ (s.setPriv ctx slot o bs) := by
  unfold State.setPriv
  simp (maxDischargeDepth := 64) +contextual only [*, State.updHif_keeps, implies_true]

theorem State.privLast_keeps (code : Nat) (ctx : Nat) (slot : Nat) (hs : Keeps s₀ s) :
    Keeps s₀ (s.privLast code ctx slot) := by
  unfold State.privLast
  simp (maxDischargeDepth := 64) +contextual only [*, State.setFld_keeps, implies_true]

theorem State.privDrop_keeps (ctx : Nat) (slot : Nat) (hs : Keeps s₀ s) :
    Keeps s₀ (s.privDrop ctx slot) := by
  unfold State.privDrop
  simp (maxDischargeDepth := 64) +contextual only [*, Keeps.ite_snd, State.updHif_keeps, State.bump_keeps,
    State.event_keeps, State.error_keeps, State.setPriv_keeps, State.privLast_keeps, implies_true]

theorem State.privDropCtx_keeps (ctx : Nat) (hs : Keeps s₀ s) :
    Keeps s₀ (s.privDropCtx ctx) := by
  unfold State.privDropCtx
  simp (maxDischargeDepth := 64) +contextual only [*, Keeps.ite_snd, Keeps.foldl, Keeps.foldl_snd, State.privDrop_keeps,
    implies_true]

theorem State.setRstRx_keeps (v : Nat) (hs : Keeps s₀ s) :
    Keeps s₀ (s.setRstRx v) := by
  unfold State.setRstRx
  simp (maxDischargeDepth := 64) +contextual only [*, Keeps.ite, Keeps.ite_snd, Keeps.foldl, Keeps.foldl_snd,
    State.setFld_keeps, State.privDrop_keeps, implies_true]

end Sys2Proof.Machine
end

