-- ==== Sys2Proof/Laws/KeepsMemory.lean ====
section
/-! SUPPORT. What the operations of Machine/Memory.lean keep: the waiting commands and the canonical form (Laws/Keeps.lean). -/

namespace Sys2Proof.Machine

set_option linter.unusedSimpArgs false
set_option linter.unusedTactic false

variable {s₀ s : State}

theorem State.setCombined_keeps (c : Nat) (l : List Nat) (hs : Keeps s₀ s) :
    Keeps s₀ (s.setCombined c l) := by
  unfold State.setCombined
  simp (maxDischargeDepth := 64) +contextual only [*, Keeps.record, implies_true]

theorem State.combineTouch_keeps (c : Nat) (line : Nat) (hs : Keeps s₀ s) :
    Keeps s₀ (s.combineTouch c line) := by
  unfold State.combineTouch
  simp (maxDischargeDepth := 64) +contextual only [*, Keeps.ite, State.event_keeps, State.setCombined_keeps, implies_true]

theorem State.combineFlush_keeps (c : Nat) (line : Nat) (hs : Keeps s₀ s) :
    Keeps s₀ (s.combineFlush c line) := by
  unfold State.combineFlush
  simp (maxDischargeDepth := 64) +contextual only [*, State.setCombined_keeps, implies_true]

theorem State.flushRange_keeps (d n : Nat) (h : Keeps s₀ s) : Keeps s₀ (s.flushRange d n) := by
  unfold State.flushRange
  split
  · exact h
  · refine Keeps.foldl (fun x a hx => ?_) _ h
    split
    · exact State.combineFlush_keeps _ _ hx
    all_goals exact hx

theorem State.sepFault_keeps (hs : Keeps s₀ s) :
    Keeps s₀ (s.sepFault) := by
  unfold State.sepFault
  simp (maxDischargeDepth := 64) +contextual only [*, State.pageFault_keeps, implies_true]

theorem State.scvFault_keeps (hs : Keeps s₀ s) :
    Keeps s₀ (s.scvFault) := by
  unfold State.scvFault
  simp (maxDischargeDepth := 64) +contextual only [*, State.error_keeps, State.pageFault_keeps, implies_true]

theorem State.dramUeNoted_keeps (c : Nat) (a : Nat) (d : Nat) (hs : Keeps s₀ s) :
    Keeps s₀ (s.dramUeNoted c a d) := by
  unfold State.dramUeNoted
  simp (maxDischargeDepth := 64) +contextual only [*, Keeps.ite, Keeps.ite_snd, Keeps.foldl, Keeps.foldl_snd, State.setFld_keeps, State.bump_keeps,
    State.event_keeps, State.error_keeps, State.latch_keeps, State.sepFault_keeps, implies_true]

theorem State.dramCe_keeps (c : Nat) (hs : Keeps s₀ s) :
    Keeps s₀ (s.dramCe c) := by
  unfold State.dramCe
  simp (maxDischargeDepth := 64) +contextual only [*, State.bump_keeps, State.event_keeps, implies_true]

theorem State.cellarUe_keeps (t : Nat) (off : Nat) (hs : Keeps s₀ s) :
    Keeps s₀ (s.cellarUe t off) := by
  unfold State.cellarUe
  simp (maxDischargeDepth := 64) +contextual only [*, Keeps.ite, Keeps.ite_snd, Keeps.foldl, Keeps.foldl_snd, State.setFld_keeps, State.bump_keeps,
    State.error_keeps, State.latch_keeps, State.sepFault_keeps, State.scvFault_keeps, implies_true]

theorem State.poisonLine_keeps (c : Nat) (a : Nat) (hs : Keeps s₀ s) :
    Keeps s₀ (s.poisonLine c a) := by
  unfold State.poisonLine
  refine State.updMem_canon _ (fun m hc => ?_) hs
  rw [MemState.canon_iff] at hc ⊢
  refine ⟨hc.1, ?_, hc.2.2⟩
  dsimp only
  exact Sparse.wf_set _ _ _ hc.2.1

theorem State.lineUe_keeps (c : Nat) (p : Nat) (d : Nat) (hs : Keeps s₀ s) :
    Keeps s₀ (s.lineUe c p d) := by
  unfold State.lineUe
  simp (maxDischargeDepth := 64) +contextual only [*, Keeps.ite, Keeps.ite_snd, Keeps.foldl, Keeps.foldl_snd, State.dramUeNoted_keeps,
    State.poisonLine_keeps, implies_true]

theorem State.mendUnit_keeps (cellar : Bool) (u : Nat) (hs : Keeps s₀ s) :
    Keeps s₀ (s.mendUnit cellar u) := by
  unfold State.mendUnit
  simp (maxDischargeDepth := 64) +contextual only [*, Keeps.ite, Keeps.ite_snd, Keeps.foldl, Keeps.foldl_snd, State.updMem_keeps, implies_true]

theorem State.meetPhys_keeps (c : Nat) (p : Nat) (d : Nat) (hs : Keeps s₀ s) :
    Keeps s₀ (s.meetPhys c p d).2 := by
  unfold State.meetPhys
  repeat' first
    | (simp (maxDischargeDepth := 64) +contextual only [*, Keeps.ite, Keeps.ite_snd, Keeps.foldl, Keeps.foldl_snd, State.dramCe_keeps, State.lineUe_keeps,
        State.mendUnit_keeps, implies_true]; done)
    | split

theorem State.meetLine_keeps (c : Nat) (a : Nat) (d : Nat) (hs : Keeps s₀ s) :
    Keeps s₀ (s.meetLine c a d).2 := by
  unfold State.meetLine
  simp (maxDischargeDepth := 64) +contextual only [*, Keeps.ite, Keeps.ite_snd, Keeps.foldl, Keeps.foldl_snd, State.meetPhys_keeps, implies_true]

theorem State.meetWord_keeps (t off : Nat) (hs : Keeps s₀ s) : Keeps s₀ (s.meetWord t off).2 := by
  unfold State.meetWord
  dsimp only
  split
  · exact hs
  · refine State.cellarUe_keeps _ _ (State.updMem_canon _ (fun m c => ?_) (State.mendUnit_keeps _ _ hs))
    rw [MemState.canon_iff] at c ⊢
    refine ⟨c.1, c.2.1, c.2.2.1, ?_, c.2.2.2.2⟩
    dsimp only
    exact Sparse.wf_set _ _ _ c.2.2.2.1
  · exact State.bump_keeps _ (State.mendUnit_keeps _ _ hs)

theorem State.readUnit_keeps (d : Nat) (hs : Keeps s₀ s) :
    Keeps s₀ (s.readUnit d).2 := by
  unfold State.readUnit
  repeat' first
    | (simp (maxDischargeDepth := 64) +contextual only [*, Keeps.ite, Keeps.ite_snd, Keeps.foldl, Keeps.foldl_snd, State.bump_keeps, State.takeInjection_keeps,
        State.dramUeNoted_keeps, State.dramCe_keeps, State.cellarUe_keeps, State.meetLine_keeps,
        State.meetWord_keeps, implies_true]; done)
    | split

theorem State.readUnits_keeps (d : Nat) (n : Nat) (hs : Keeps s₀ s) :
    Keeps s₀ (s.readUnits d n).2 := by
  unfold State.readUnits
  simp (maxDischargeDepth := 64) +contextual only [*, Keeps.ite, Keeps.ite_snd, Keeps.foldl, Keeps.foldl_snd, State.readUnit_keeps, implies_true]

theorem State.uncacheAt_keeps (c : Nat) (a : Nat) (n : Nat) (hs : Keeps s₀ s) :
    Keeps s₀ (s.uncacheAt c a n) := by
  unfold State.uncacheAt
  simp (maxDischargeDepth := 64) +contextual only [*, Keeps.ite, Keeps.ite_snd, State.updEtu_keeps, implies_true]

theorem State.countBadAccess_keeps (hs : Keeps s₀ s) :
    Keeps s₀ (s.countBadAccess) := by
  unfold State.countBadAccess
  simp (maxDischargeDepth := 64) +contextual only [*, State.bump_keeps, implies_true]

theorem State.notePoison_keeps (c : Nat) (before : Bool) (after : Bool) (hs : Keeps s₀ s) :
    Keeps s₀ (s.notePoison c before after) := by
  unfold State.notePoison
  simp (maxDischargeDepth := 64) +contextual only [*, Keeps.ite, State.bump_keeps, State.event_keeps, implies_true]

theorem State.windowUnit_keeps (k off : Nat) (bs : List Byte) (poisoned : Bool) (hs : Keeps s₀ s) :
    Keeps s₀ (s.windowUnit k off bs poisoned) := by
  unfold State.windowUnit
  have h1 : Keeps s₀ (if s.mem.upsets.isEmpty then s
      else if bs.length = 64 then s.mendUnit false (physLine (s.windowPlace k).1 (dataLine (s.windowPlace k).2))
      else (s.meetLine (s.windowPlace k).1 (s.windowPlace k).2 (0x001006000000 + 64 * k)).2) :=
    Keeps.ite hs (Keeps.ite (State.mendUnit_keeps _ _ hs) (State.meetLine_keeps _ _ _ hs))
  refine Keeps.ite (State.acked_keeps _ hs) ?_
  dsimp only
  generalize (if s.mem.upsets.isEmpty then s
      else if bs.length = 64 then s.mendUnit false (physLine (s.windowPlace k).1 (dataLine (s.windowPlace k).2))
      else (s.meetLine (s.windowPlace k).1 (s.windowPlace k).2 (0x001006000000 + 64 * k)).2) = t at h1 ⊢
  have h2 : Keeps s₀ (t.updMem (fun m => { m with
      result := Mem.writeAt byte0 m.result off bs, resultPoison := Sparse.set noMark m.resultPoison k (markAfter (t.windowMarked k) poisoned bs.length 64) })) := by
    refine State.updMem_canon _ (fun m c => ?_) h1
    rw [MemState.canon_iff] at c ⊢
    exact ⟨c.1, c.2.1, c.2.2.1, c.2.2.2.1, Mem.wf_writeAt _ _ _ _ c.2.2.2.2.1, Sparse.wf_set _ _ _ c.2.2.2.2.2⟩
  generalize t.updMem (fun m => { m with
      result := Mem.writeAt byte0 m.result off bs, resultPoison := Sparse.set noMark m.resultPoison k (markAfter (t.windowMarked k) poisoned bs.length 64) }) = u at h2 ⊢
  have h3 : Keeps s₀ (if u.mem.dramPoison.isEmpty then u
      else u.updMem (fun m => { m with
        dramPoison := Sparse.set noMark m.dramPoison (dramKey (u.windowPlace k).1 (u.windowPlace k).2 / 64) false })) := by
    refine Keeps.ite h2 (State.updMem_canon _ (fun m c => ?_) h2)
    rw [MemState.canon_iff] at c ⊢
    refine ⟨c.1, ?_, c.2.2⟩
    dsimp only
    exact Sparse.wf_set _ _ _ c.2.1
  exact Keeps.ite (State.notePoison_keeps _ _ _ h3) h3

theorem State.localUnit_keeps (output : Bool) (d : Nat) (bs : List Byte) (poisoned : Bool) (h : Keeps s₀ s) :
    Keeps s₀ (s.localUnit output d bs poisoned) := by
  unfold State.localUnit
  split
  · split
    · exact State.acked_keeps _ h
    · refine State.notePoison_keeps _ _ _ (State.updMem_canon _ (fun m c => ?_)
        (Keeps.ite (State.mendUnit_keeps _ _ (State.uncacheAt_keeps _ _ _ h)) (State.meetLine_keeps _ _ _ (State.uncacheAt_keeps _ _ _ h))))
      rw [MemState.canon_iff] at c ⊢
      exact ⟨Mem.wf_writeAt _ _ _ _ c.1, Sparse.wf_set _ _ _ c.2.1, c.2.2⟩
  · refine State.updMem_canon _ (fun m c => ?_) (Keeps.ite (State.mendUnit_keeps _ _ h) (State.meetWord_keeps _ _ h))
    rw [MemState.canon_iff] at c ⊢
    exact ⟨c.1, c.2.1, Mem.wf_writeAt _ _ _ _ c.2.2.1, Sparse.wf_set _ _ _ c.2.2.2.1, c.2.2.2.2⟩
  · exact Keeps.ite (State.windowUnit_keeps _ _ _ _ h) (State.countBadAccess_keeps h)
  · exact State.areaWrite_keeps _ _ h
  · exact h
  · exact State.acked_keeps _ h
  · exact State.acked_keeps _ h

theorem State.writeUnit_keeps (output : Bool) (d : Nat) (bs : List Byte) (poisoned : Bool) (hs : Keeps s₀ s) :
    Keeps s₀ (s.writeUnit output d bs poisoned) := by
  unfold State.writeUnit
  repeat' first
    | (simp (maxDischargeDepth := 64) +contextual only [*, Keeps.ite, Keeps.ite_snd, Keeps.foldl, Keeps.foldl_snd, State.acked_keeps, State.denied_keeps,
        State.sendWrite_keeps, State.flushRange_keeps, State.localUnit_keeps, implies_true]; done)
    | split

theorem State.writeFuel_keeps (output poisoned : Bool) (f d : Nat) (bs : List Byte) (h : Keeps s₀ s) :
    Keeps s₀ (State.writeFuel output poisoned f s d bs) := by
  induction f generalizing s d bs with
  | zero => exact h
  | succ f ih =>
    unfold State.writeFuel
    split
    · exact h
    · exact ih _ _ (State.writeUnit_keeps _ _ _ _ h)

theorem State.write_keeps (d : Nat) (bs : List Byte) (poisoned : Bool := false) (hs : Keeps s₀ s) :
    Keeps s₀ (s.write d bs poisoned) := by
  unfold State.write
  simp (maxDischargeDepth := 64) +contextual only [*, State.flushRange_keeps, State.writeFuel_keeps, implies_true]

theorem State.writeOut_keeps (d : Nat) (bs : List Byte) (poisoned : Bool := false) (hs : Keeps s₀ s) :
    Keeps s₀ (s.writeOut d bs poisoned) := by
  unfold State.writeOut
  simp (maxDischargeDepth := 64) +contextual only [*, Keeps.ite, Keeps.ite_snd, Keeps.foldl, Keeps.foldl_snd, State.flushRange_keeps,
    State.writeFuel_keeps, implies_true]

theorem State.performed_keeps (f : State → State) (hf : ∀ x, Keeps s₀ x → Keeps s₀ (f x)) (hs : Keeps s₀ s) :
    Keeps s₀ (s.performed f).2 := by
  unfold State.performed
  dsimp only
  exact State.dropAcks_keeps _ (hf _ (State.dropAcks_keeps _ (State.asAgent_keeps _ hs)))

theorem State.countChurn_keeps (k : Nat) (n : Nat) (f : Field) (hs : Keeps s₀ s) :
    Keeps s₀ (s.countChurn k n f) := by
  unfold State.countChurn
  simp (maxDischargeDepth := 64) +contextual only [*, Keeps.ite, State.updMem_keeps, State.bumpBy_keeps, implies_true]

theorem State.bringIn_keeps (c : Nat) (a : Nat) (d : Nat) (hs : Keeps s₀ s) :
    Keeps s₀ (s.bringIn c a d).2 := by
  unfold State.bringIn
  simp (maxDischargeDepth := 64) +contextual only [*, Keeps.ite, Keeps.ite_snd, Keeps.foldl, Keeps.foldl_snd, State.readUnit_keeps, implies_true]

theorem State.addWords_keeps (line : Nat) (out : List Byte) (mask : Nat) (poisoned : Bool) (hs : Keeps s₀ s) :
    Keeps s₀ (s.addWords line out mask poisoned) := by
  unfold State.addWords
  simp (maxDischargeDepth := 64) +contextual only [*, Keeps.ite, Keeps.ite_snd, Keeps.foldl, Keeps.foldl_snd, State.readUnit_keeps, State.localUnit_keeps,
    implies_true]

theorem State.localAdd_keeps (d : Nat) (mask : Nat) (addends : List Nat) (poisoned : Bool) (hs : Keeps s₀ s) :
    Keeps s₀ (s.localAdd d mask addends poisoned) := by
  unfold State.localAdd
  repeat' first
    | (simp (maxDischargeDepth := 64) +contextual only [*, Keeps.ite, Keeps.ite_snd, Keeps.foldl, Keeps.foldl_snd, State.acked_keeps, State.combineTouch_keeps,
        State.countBadAccess_keeps, State.localUnit_keeps, State.countChurn_keeps, State.bringIn_keeps,
        State.addWords_keeps, implies_true]; done)
    | split
    | (dsimp only; split)

theorem State.add32_keeps (d : Nat) (mask : Nat) (addends : List Nat) (poisoned : Bool) (hs : Keeps s₀ s) :
    Keeps s₀ (s.add32 d mask addends poisoned) := by
  unfold State.add32
  repeat' first
    | (simp (maxDischargeDepth := 64) +contextual only [*, Keeps.ite, Keeps.ite_snd, Keeps.foldl, Keeps.foldl_snd, State.acked_keeps, State.denied_keeps,
        State.sendAdd_keeps, State.localAdd_keeps, implies_true]; done)
    | split

theorem State.summaryMerge_keeps (d : Nat) (con : List Byte) (poisoned : Bool) (hs : Keeps s₀ s) :
    Keeps s₀ (s.summaryMerge d con poisoned) := by
  unfold State.summaryMerge
  repeat' first
    | (simp (maxDischargeDepth := 64) +contextual only [*, Keeps.ite, Keeps.ite_snd, Keeps.foldl, Keeps.foldl_snd, State.acked_keeps, State.combineTouch_keeps,
        State.localUnit_keeps, State.countChurn_keeps, State.bringIn_keeps, implies_true]; done)
    | split

theorem State.localFetch_keeps (d : Nat) (n : Nat) (hs : Keeps s₀ s) :
    Keeps s₀ (s.localFetch d n).2 := by
  unfold State.localFetch
  simp (maxDischargeDepth := 64) +contextual only [*, Keeps.ite, Keeps.ite_snd, Keeps.foldl, Keeps.foldl_snd, State.flushRange_keeps,
    State.readUnits_keeps, implies_true]

theorem State.fetchPiece_keeps (r : Bool × State) (x : Nat × Nat) (hs : Keeps s₀ r.2) : Keeps s₀ (State.fetchPiece r x).2 := by
  unfold State.fetchPiece
  dsimp only
  split
  · exact State.localFetch_keeps _ _ hs
  · split
    · exact hs
    · split
      · split
        · exact State.localFetch_keeps _ _ hs
        · exact State.denied_keeps hs
      · split
        · exact hs
        · dsimp only
          exact State.updGrf_keeps _ hs

theorem State.fetch_keeps (d : Nat) (n : Nat) (hs : Keeps s₀ s) : Keeps s₀ (s.fetch d n).2 := by
  unfold State.fetch
  dsimp only
  split
  · exact State.localFetch_keeps _ _ hs
  · exact Keeps.foldl_snd (fun x a hx => State.fetchPiece_keeps x a hx) _ (State.localFetch_keeps _ _ hs)

theorem State.endHarvest_keeps (code : Nat) (hs : Keeps s₀ s) :
    Keeps s₀ (s.endHarvest code) := by
  unfold State.endHarvest
  simp (maxDischargeDepth := 64) +contextual only [*, Keeps.ite, Keeps.ite_snd, Keeps.foldl, Keeps.foldl_snd, State.stopHarvest_keeps, State.asAgent_keeps,
    State.write_keeps, implies_true]

theorem State.touch_keeps (d : Nat) (n : Nat) (hs : Keeps s₀ s) :
    Keeps s₀ (s.touch d n) := by
  unfold State.touch
  simp (maxDischargeDepth := 64) +contextual only [*, Keeps.ite, Keeps.ite_snd, Keeps.foldl, Keeps.foldl_snd, State.fetch_keeps, implies_true]

end Sys2Proof.Machine
end

