-- ==== Sys2Proof/Laws/KeepsContext.lean ====
section
/-! SUPPORT. What the operations of Machine/Context.lean keep: the waiting commands and the canonical form (Laws/Keeps.lean). -/

namespace Sys2Proof.Machine

set_option linter.unusedSimpArgs false
set_option linter.unusedTactic false

variable {s₀ s : State}

theorem State.hostIssue_keeps (ctx : Nat) (addr : Nat) (n : Nat) (wr : Bool) (hs : Keeps s₀ s) :
    Keeps s₀ (s.hostIssue ctx addr n wr) := by
  unfold State.hostIssue
  simp (maxDischargeDepth := 64) +contextual only [*, Keeps.ite, Keeps.ite_snd, Keeps.foldl, Keeps.foldl_snd, State.updHif_keeps, State.hostTlp_keeps,
    implies_true]

theorem State.hostDmaFail_keeps (ctx : Nat) (hs : Keeps s₀ s) :
    Keeps s₀ (s.hostDmaFail ctx) := by
  unfold State.hostDmaFail
  simp (maxDischargeDepth := 64) +contextual only [*, State.bump_keeps, State.signal_keeps, State.event_keeps,
    implies_true]

end Sys2Proof.Machine
end

