-- ==== Sys2Proof/Laws/KeepsWrite.lean ====
section
/-! SUPPORT. What the operations of Machine/Write.lean keep: the waiting commands and the canonical form (Laws/Keeps.lean). -/

namespace Sys2Proof.Machine

set_option linter.unusedSimpArgs false
set_option linter.unusedTactic false

variable {s₀ s : State}

theorem State.badAccess_keeps (p : Nat) (off : Nat) (w : Nat) (hs : Keeps s₀ s) :
    Keeps s₀ (s.badAccess p off w) := by
  unfold State.badAccess
  simp (maxDischargeDepth := 64) +contextual only [*, State.setFld_keeps, State.bump_keeps, implies_true]

theorem State.wrote_keeps (p : Nat) (w : Nat) (hs : Keeps s₀ s) :
    Keeps s₀ (s.wrote p w) := by
  unfold State.wrote
  simp (maxDischargeDepth := 64) +contextual only [*, State.setPage_keeps, implies_true]

theorem State.portCheck_keeps (p off w : Nat) {t : State} (h : Keeps s₀ s) (e : s.portCheck p off w = some t) : Keeps s₀ t := by
  unfold State.portCheck at e
  split at e
  · obtain rfl := Option.some.inj e; exact State.badAccess_keeps _ _ _ h
  split at e
  · obtain rfl := Option.some.inj e; exact h
  split at e
  · obtain rfl := Option.some.inj e; exact h
  split at e
  · obtain rfl := Option.some.inj e; exact Keeps.ite (State.error_keeps _ _ _ h) h
  split at e
  · obtain rfl := Option.some.inj e; exact State.badAccess_keeps _ _ _ h
  split at e
  · obtain rfl := Option.some.inj e; exact State.badAccess_keeps _ _ _ h
  split at e
  · obtain rfl := Option.some.inj e; exact State.error_keeps _ _ _ h
  · cases e

theorem State.undefinedEncoding_keeps (p : Nat) (off : Nat) (lo : Nat) (hs : Keeps s₀ s) :
    Keeps s₀ (s.undefinedEncoding p off lo) := by
  unfold State.undefinedEncoding
  simp (maxDischargeDepth := 64) +contextual only [*, State.error_keeps, implies_true]

theorem State.onWrite_keeps (p off w : Nat) (v : Word) (f : State → State) (hf : ∀ x, Keeps s₀ x → Keeps s₀ (f x))
    (h : Keeps s₀ s) : Keeps s₀ (s.onWrite p off w v f) := by
  unfold State.onWrite
  split
  · next t e => exact State.portCheck_keeps p off w h e
  · split
    · exact State.undefinedEncoding_keeps _ _ _ h
    · exact hf _ h

theorem State.onRws_keeps (p off w : Nat) (v : Word) (f : State → State) (hf : ∀ x, Keeps s₀ x → Keeps s₀ (f x))
    (h : Keeps s₀ s) : Keeps s₀ (s.onRws p off w v f) := by
  unfold State.onRws
  split
  · next t e => exact State.portCheck_keeps p off w h e
  · refine Keeps.ite h ?_
    split
    · exact State.undefinedEncoding_keeps _ _ _ h
    · exact hf _ h

theorem State.onRwl_keeps (p off w : Nat) (v : Word) (f : State → State) (hf : ∀ x, Keeps s₀ x → Keeps s₀ (f x))
    (h : Keeps s₀ s) : Keeps s₀ (s.onRwl p off w v f) := by
  unfold State.onRwl
  split
  · next t e => exact State.portCheck_keeps p off w h e
  · split
    · exact State.undefinedEncoding_keeps _ _ _ h
    · exact Keeps.ite (hf _ h) (State.error_keeps _ _ _ h)

theorem State.recordLosers_keeps (p : Nat) (off : Nat) (winner : Nat) (losers : List RegWrite) (hs : Keeps s₀ s) :
    Keeps s₀ (s.recordLosers p off winner losers) := by
  unfold State.recordLosers
  repeat' first
    | (simp (maxDischargeDepth := 64) +contextual only [*, Keeps.ite, Keeps.ite_snd, Keeps.foldl, Keeps.foldl_snd, Keeps.record, Keeps.record_drop,
        Keeps.record_drop2, State.setPage_keeps, State.noteRise_keeps, State.event_keeps, State.error_keeps,
        implies_true]; done)
    | split

end Sys2Proof.Machine
end

