-- ==== Sys2Proof/Laws/KeepsCoverage.lean ====
section
/-! SUPPORT. What the operations of Machine/Coverage.lean keep: the waiting commands and the canonical form (Laws/Keeps.lean). -/

namespace Sys2Proof.Machine

set_option linter.unusedSimpArgs false
set_option linter.unusedTactic false

variable {s₀ s : State}

theorem State.updFrame_keeps (n : Nat) (g : Frame → Frame) (hs : Keeps s₀ s) :
    Keeps s₀ (s.updFrame n g) := by
  unfold State.updFrame
  simp (maxDischargeDepth := 64) +contextual only [*, State.updFrm_keeps, implies_true]

theorem State.reportSpan_keeps (n : Nat) (lane : Nat) (a : Nat) (e : Nat) (hs : Keeps s₀ s) :
    Keeps s₀ (s.reportSpan n lane a e) := by
  unfold State.reportSpan
  repeat' first
    | (simp (maxDischargeDepth := 64) +contextual only [*, Keeps.ite, State.bump_keeps, State.event_keeps,
        State.updFrame_keeps, implies_true]; done)
    | split

theorem State.markSeen_keeps (n : Nat) (lane : Nat) (az : Nat) (hs : Keeps s₀ s) :
    Keeps s₀ (s.markSeen n lane az) := by
  unfold State.markSeen
  repeat' first
    | (simp (maxDischargeDepth := 64) +contextual only [*, Keeps.ite, State.updFrame_keeps, implies_true]; done)
    | split

end Sys2Proof.Machine
end

