-- ==== Sys2Proof/Laws/KeepsLane.lean ====
section
/-! SUPPORT. What the operations of Machine/Lane.lean keep: the waiting commands and the canonical form (Laws/Keeps.lean). -/

namespace Sys2Proof.Machine

set_option linter.unusedSimpArgs false
set_option linter.unusedTactic false

variable {s₀ s : State}

theorem State.updLane_keeps (n : Nat) (f : Lane → Lane) (hs : Keeps s₀ s) :
    Keeps s₀ (s.updLane n f) := by
  unfold State.updLane
  simp (maxDischargeDepth := 64) +contextual only [*, State.updSlk_keeps, implies_true]

theorem State.openWindow_keeps (n : Nat) (k : Nat) (hs : Keeps s₀ s) :
    Keeps s₀ (s.openWindow n k) := by
  unfold State.openWindow
  simp (maxDischargeDepth := 64) +contextual only [*, Keeps.ite, Keeps.ite_snd, Keeps.foldl, Keeps.foldl_snd, State.setFld_keeps, State.updLane_keeps,
    implies_true]

theorem State.startAcq_keeps (n : Nat) (hs : Keeps s₀ s) :
    Keeps s₀ (s.startAcq n) := by
  unfold State.startAcq
  simp (maxDischargeDepth := 64) +contextual only [*, Keeps.ite, Keeps.ite_snd, Keeps.foldl, Keeps.foldl_snd, State.drawFree_keeps, State.setFld_keeps,
    State.updLane_keeps, implies_true]

theorem State.restartAcq_keeps (n : Nat) (hs : Keeps s₀ s) :
    Keeps s₀ (s.restartAcq n) := by
  unfold State.restartAcq
  simp (maxDischargeDepth := 64) +contextual only [*, Keeps.ite, State.startAcq_keeps, implies_true]

theorem State.gainStep_keeps (n : Nat) (code : Nat) (hs : Keeps s₀ s) :
    Keeps s₀ (s.gainStep n code) := by
  unfold State.gainStep
  simp (maxDischargeDepth := 64) +contextual only [*, State.setFld_keeps, State.bump_keeps, State.event_keeps,
    State.openWindow_keeps, implies_true]

theorem State.ctfChange_keeps (n : Nat) (fc : Nat) (boost : Nat) (hs : Keeps s₀ s) :
    Keeps s₀ (s.ctfChange n fc boost) := by
  unfold State.ctfChange
  simp (maxDischargeDepth := 64) +contextual only [*, State.setFld_keeps, State.openWindow_keeps, implies_true]

theorem State.dropTiming_keeps (n : Nat) (hs : Keeps s₀ s) :
    Keeps s₀ (s.dropTiming n) := by
  unfold State.dropTiming
  simp (maxDischargeDepth := 64) +contextual only [*, Keeps.ite, Keeps.ite_snd, Keeps.foldl, Keeps.foldl_snd, State.setFld_keeps, State.updLane_keeps,
    implies_true]

theorem State.zoneLoadOf_keeps (n : Nat) (z : Nat) (hs : Keeps s₀ s) :
    Keeps s₀ (s.zoneLoadOf n z) := by
  unfold State.zoneLoadOf
  simp (maxDischargeDepth := 64) +contextual only [*, Keeps.ite, Keeps.ite_snd, Keeps.foldl, Keeps.foldl_snd, State.setCell_keeps, State.setFld_keeps,
    State.event_keeps, State.updLane_keeps, State.openWindow_keeps, State.startAcq_keeps,
    State.dropTiming_keeps, implies_true]

theorem State.zoneLoad_keeps (n : Nat) (hs : Keeps s₀ s) :
    Keeps s₀ (s.zoneLoad n) := by
  unfold State.zoneLoad
  simp (maxDischargeDepth := 64) +contextual only [*, State.zoneLoadOf_keeps, implies_true]

theorem State.showLoops_keeps (n : Nat) (hs : Keeps s₀ s) :
    Keeps s₀ (s.showLoops n) := by
  unfold State.showLoops
  simp (maxDischargeDepth := 64) +contextual only [*, Keeps.ite, Keeps.ite_snd, Keeps.foldl, Keeps.foldl_snd, State.setCell_keeps, State.setFld_keeps,
    State.setSfld_keeps, implies_true]

theorem State.receive_keeps (n : Nat) (rx : List RxSym) (h : Keeps s₀ s) : Keeps s₀ (s.receive n rx) := by
  cases rx with
  | nil => exact h
  | cons r t =>
    unfold State.receive
    simp (maxDischargeDepth := 64) +contextual only [*, Keeps.ite, State.updLane_keeps, State.bumpBy_keeps, State.event_keeps,
      State.showLoops_keeps, implies_true]

theorem State.noteVerdict_keeps (n seq : Nat) (v : Verdict) (h : Keeps s₀ s) : Keeps s₀ (s.noteVerdict n seq v) := by
  unfold State.noteVerdict
  exact Keeps.ite (State.updSlk_keeps _ h) (State.updSlk_keeps _ h)

theorem State.recordLost_keeps (n : Nat) (cause : Nat) (seq : Nat) (frame : Option Nat) (hs : Keeps s₀ s) :
    Keeps s₀ (s.recordLost n cause seq frame) := by
  unfold State.recordLost
  repeat' first
    | (simp (maxDischargeDepth := 64) +contextual only [*, Keeps.ite, State.drawFree_keeps, State.setFld_keeps,
        State.bump_keeps, State.event_keeps, State.error_keeps, implies_true]; done)
    | split

theorem State.lostSpan_keeps (n : Nat) (a : Nat) (e : Nat) (frame : Option Nat) (hs : Keeps s₀ s) :
    Keeps s₀ (s.lostSpan n a e frame) := by
  unfold State.lostSpan
  repeat' first
    | (simp (maxDischargeDepth := 64) +contextual only [*, Keeps.ite, State.setFld_keeps, State.reportSpan_keeps, implies_true]; done)
    | split

theorem State.noteSector_keeps (n : Nat) (seq : Nat) (delivered : Bool) (hs : Keeps s₀ s) :
    Keeps s₀ (s.noteSector n seq delivered) := by
  unfold State.noteSector
  simp (maxDischargeDepth := 64) +contextual only [*, Keeps.ite, Keeps.ite_snd, Keeps.foldl, Keeps.foldl_snd, State.updLane_keeps, implies_true]

theorem State.loseNow_keeps (n : Nat) (cause : Nat) (x : Sector) (hs : Keeps s₀ s) :
    Keeps s₀ (s.loseNow n cause x) := by
  unfold State.loseNow
  simp (maxDischargeDepth := 64) +contextual only [*, Keeps.ite, Keeps.ite_snd, Keeps.foldl, Keeps.foldl_snd, State.recordLost_keeps, State.lostSpan_keeps,
    State.noteSector_keeps, implies_true]

theorem State.dropRepeat_keeps (n : Nat) (x : Sector) (hs : Keeps s₀ s) :
    Keeps s₀ (s.dropRepeat n x) := by
  unfold State.dropRepeat
  simp (maxDischargeDepth := 64) +contextual only [*, Keeps.ite, Keeps.ite_snd, Keeps.foldl, Keeps.foldl_snd, State.bump_keeps, State.noteSector_keeps,
    implies_true]

theorem State.lose_keeps (n : Nat) (cause : Nat) (x : Sector) (hs : Keeps s₀ s) :
    Keeps s₀ (s.lose n cause x) := by
  unfold State.lose
  simp (maxDischargeDepth := 64) +contextual only [*, Keeps.ite, Keeps.ite_snd, Keeps.foldl, Keeps.foldl_snd, State.noteVerdict_keeps, State.loseNow_keeps,
    implies_true]

theorem State.loseSector_keeps (n : Nat) (cause : Nat) (x : Sector) (hs : Keeps s₀ s) :
    Keeps s₀ (s.loseSector n cause x) := by
  unfold State.loseSector
  simp (maxDischargeDepth := 64) +contextual only [*, Keeps.ite, Keeps.ite_snd, Keeps.foldl, Keeps.foldl_snd, State.dropRepeat_keeps, State.lose_keeps,
    implies_true]

theorem State.loseBare_keeps (n : Nat) (cause : Nat) (seq : Nat) (frame : Option Nat) (hs : Keeps s₀ s) :
    Keeps s₀ (s.loseBare n cause seq frame) := by
  unfold State.loseBare
  simp (maxDischargeDepth := 64) +contextual only [*, Keeps.ite, Keeps.ite_snd, Keeps.foldl, Keeps.foldl_snd, State.ring_keeps, State.updLane_keeps,
    State.recordLost_keeps, State.noteSector_keeps, State.lose_keeps, implies_true]

theorem State.loseUnknown_keeps (n : Nat) (cause : Nat) (frame : Option Nat) (hs : Keeps s₀ s) :
    Keeps s₀ (s.loseUnknown n cause frame) := by
  unfold State.loseUnknown
  simp (maxDischargeDepth := 64) +contextual only [*, State.drawFree_keeps, State.loseBare_keeps, implies_true]

theorem State.abandonFirst_keeps (n : Nat) (f : Frag) (hs : Keeps s₀ s) :
    Keeps s₀ (s.abandonFirst n f) := by
  unfold State.abandonFirst
  repeat' first
    | (simp (maxDischargeDepth := 64) +contextual only [*, Keeps.ite, Keeps.ite_snd, Keeps.foldl, Keeps.foldl_snd, State.loseSector_keeps,
        State.loseUnknown_keeps, implies_true]; done)
    | split

theorem State.loseOpen_keeps (n : Nat) (xs : List Sector) (hs : Keeps s₀ s) :
    Keeps s₀ (s.loseOpen n xs) := by
  unfold State.loseOpen
  simp (maxDischargeDepth := 64) +contextual only [*, Keeps.ite, Keeps.ite_snd, Keeps.foldl, Keeps.foldl_snd, State.loseSector_keeps, implies_true]

theorem State.abandon_keeps (n : Nat) (hs : Keeps s₀ s) :
    Keeps s₀ (s.abandon n) := by
  unfold State.abandon
  repeat' first
    | (simp (maxDischargeDepth := 64) +contextual only [*, Keeps.ite, Keeps.ite_snd, Keeps.foldl, Keeps.foldl_snd, State.updLane_keeps, State.loseSector_keeps,
        State.abandonFirst_keeps, State.loseOpen_keeps, implies_true]; done)
    | split
    | (dsimp only; split)

theorem State.abandonAll_keeps (n : Nat) (hs : Keeps s₀ s) :
    Keeps s₀ (s.abandonAll n) := by
  unfold State.abandonAll
  simp (maxDischargeDepth := 64) +contextual only [*, Keeps.ite, Keeps.ite_snd, Keeps.foldl, Keeps.foldl_snd, State.updLane_keeps, State.loseSector_keeps,
    State.abandon_keeps, implies_true]

end Sys2Proof.Machine
end

