-- ==== Sys2Proof/Laws/KeepsServo.lean ====
section
/-! SUPPORT. What the operations of Machine/Servo.lean keep: the waiting commands and the canonical form (Laws/Keeps.lean). -/

namespace Sys2Proof.Machine

set_option linter.unusedSimpArgs false
set_option linter.unusedTactic false

variable {s₀ s : State}

theorem State.dropTrim_keeps (n : Nat) (hs : Keeps s₀ s) :
    Keeps s₀ (s.dropTrim n) := by
  unfold State.dropTrim
  simp (maxDischargeDepth := 64) +contextual only [*, Keeps.ite, Keeps.ite_snd, Keeps.foldl, Keeps.foldl_snd, State.updLane_keeps, implies_true]

theorem State.servoEnter_keeps (n : Nat) (grid : Bool) (hs : Keeps s₀ s) :
    Keeps s₀ (s.servoEnter n grid) := by
  unfold State.servoEnter
  simp (maxDischargeDepth := 64) +contextual only [*, Keeps.ite, Keeps.ite_snd, Keeps.foldl, Keeps.foldl_snd, State.setFld_keeps, State.updLane_keeps,
    State.dropTrim_keeps, implies_true]

theorem State.servoRefresh_keeps (hs : Keeps s₀ s) :
    Keeps s₀ (s.servoRefresh) := by
  unfold State.servoRefresh
  simp (maxDischargeDepth := 64) +contextual only [*, Keeps.ite, Keeps.ite_snd, Keeps.foldl, Keeps.foldl_snd, State.servoEnter_keeps, implies_true]

end Sys2Proof.Machine
end

