-- ==== Sys2Proof/Laws/KeepsPayload.lean ====
section
/-! SUPPORT. What the operations of Machine/Payload.lean keep: the waiting commands and the canonical form (Laws/Keeps.lean). -/

namespace Sys2Proof.Machine

set_option linter.unusedSimpArgs false
set_option linter.unusedTactic false

variable {s₀ s : State}

theorem State.within1_keeps (num : Int) (den : Nat) (hs : Keeps s₀ s) :
    Keeps s₀ (s.within1 num den).2 := by
  unfold State.within1
  simp (maxDischargeDepth := 64) +contextual only [*, Keeps.ite_snd, State.drawFree_keeps, implies_true]

theorem State.roundOf_keeps (num : Int) (den : Nat) (hs : Keeps s₀ s) :
    Keeps s₀ (s.roundOf num den).2 := by
  unfold State.roundOf
  simp (maxDischargeDepth := 64) +contextual only [*, Keeps.ite_snd, Keeps.ite, State.drawFree_keeps, implies_true]

theorem State.convert_keeps (n : Nat) (cal : Sparse Word) (az : Nat) (el : Nat) (beam : Nat) (mode : Nat) (range : Nat) (inten : Nat) (transition : Bool) (hs : Keeps s₀ s) :
    Keeps s₀ (s.convert n cal az el beam mode range inten transition).2 := by
  unfold State.convert
  simp (maxDischargeDepth := 64) +contextual only [*, Keeps.ite, Keeps.ite_snd, State.drawFree_keeps,
    State.within1_keeps, State.roundOf_keeps, implies_true]

end Sys2Proof.Machine
end

