-- ==== Sys2Proof/Laws/KeepsLadder.lean ====
section
/-! SUPPORT. What the operations of Machine/Ladder.lean keep: the waiting commands and the canonical form (Laws/Keeps.lean). -/

namespace Sys2Proof.Machine

set_option linter.unusedSimpArgs false
set_option linter.unusedTactic false

variable {s₀ s : State}

theorem State.sendReturns_keeps (n : Nat) (x : Sector) (k : Scan) (az el t fr b : Nat) (rs : List (Nat × Nat)) (h : Keeps s₀ s) :
    Keeps s₀ (s.sendReturns n x k az el t fr b rs) := by
  induction rs generalizing s b with
  | nil => exact h
  | cons r rs ih =>
    unfold State.sendReturns
    refine ih _ ?_
    split
    · exact h
    · dsimp only
      split
      · exact State.bump_keeps _ (State.convert_keeps _ _ _ _ _ _ _ _ _ h)
      · exact State.bump_keeps _ (State.updSep_keeps _ (State.convert_keeps _ _ _ _ _ _ _ _ _ h))

theorem State.sentryPoint_keeps (p : PointRec) (hs : Keeps s₀ s) :
    Keeps s₀ (s.sentryPoint p) := by
  unfold State.sentryPoint
  simp (maxDischargeDepth := 64) +contextual only [*, Keeps.ite, Keeps.ite_snd, Keeps.foldl, Keeps.foldl_snd, State.updPwr_keeps, State.poke_keeps,
    implies_true]

theorem State.sentryReturns_keeps (n : Nat) (x : Sector) (k : Scan) (az el t b : Nat) (rs : List (Nat × Nat)) (h : Keeps s₀ s) :
    Keeps s₀ (s.sentryReturns n x k az el t b rs) := by
  induction rs generalizing s b with
  | nil => exact h
  | cons r rs ih =>
    unfold State.sentryReturns
    refine ih _ ?_
    split
    · exact h
    · dsimp only
      split
      · exact State.bump_keeps _ (State.convert_keeps _ _ _ _ _ _ _ _ _ h)
      · exact State.bump_keeps _ (State.sentryPoint_keeps _ (State.convert_keeps _ _ _ _ _ _ _ _ _ h))

theorem State.sendFiring_keeps (n : Nat) (x : Sector) (k : Scan) (first : Nat) (az : Nat) (el : Nat) (ref : Nat) (off : Nat) (rs : List (Nat × Nat)) (hs : Keeps s₀ s) :
    Keeps s₀ (s.sendFiring n x k first az el ref off rs) := by
  unfold State.sendFiring
  repeat' first
    | (simp (maxDischargeDepth := 64) +contextual only [*, Keeps.ite, Keeps.ite_snd, Keeps.foldl, Keeps.foldl_snd, State.bumpBy_keeps, State.markSeen_keeps,
        State.sendReturns_keeps, State.sentryReturns_keeps, implies_true]; done)
    | split

theorem State.sendRecords_keeps (n : Nat) (x : Sector) (k : Scan) (rs : List Rec) (h : Keeps s₀ s) :
    Keeps s₀ (s.sendRecords n x k rs).2 := by
  induction rs generalizing s k with
  | nil => exact h
  | cons r rs ih =>
    cases r <;> unfold State.sendRecords
    · exact ih _ (State.sendFiring_keeps _ _ _ _ _ _ _ _ _ h)
    · exact ih _ h
    · exact ih _ h

theorem State.headStatus_keeps (n : Nat) (rs : List Rec) (h : Keeps s₀ s) : Keeps s₀ (s.headStatus n rs) := by
  induction rs generalizing s with
  | nil => exact h
  | cons r rs ih =>
    cases r <;> unfold State.headStatus
    · exact ih h
    · exact ih h
    · exact ih (State.event_keeps _ _ (State.setFld_keeps _ _
        (State.setFld_keeps _ _ (State.setFld_keeps _ _ (State.setFld_keeps _ _ h)))))

theorem State.reportFixed_keeps (n : Nat) (azStart : Nat) (hs : Keeps s₀ s) :
    Keeps s₀ (s.reportFixed n azStart) := by
  unfold State.reportFixed
  repeat' first
    | (simp (maxDischargeDepth := 64) +contextual only [*, Keeps.foldl, State.updLane_keeps, State.lostSpan_keeps,
        implies_true]; done)
    | split
    | (dsimp only; split)

theorem State.deliver_keeps (n : Nat) (x : Sector) (b : List Byte) (ladder : Bool) (h : Keeps s₀ s) :
    Keeps s₀ (s.deliver n x b ladder) := by
  unfold State.deliver
  refine State.updLane_keeps _ _ (State.sendRecords_keeps _ _ _ _ (State.updLane_keeps _ _ (State.noteSector_keeps _ _ _ ?_)))
  simp (maxDischargeDepth := 64) only [h, Keeps.ite, State.bump_keeps, State.reportFixed_keeps]

theorem State.decoded_keeps (n : Nat) (x : Sector) (b : List Byte) (ladder : Bool) (hs : Keeps s₀ s) :
    Keeps s₀ (s.decoded n x b ladder) := by
  unfold State.decoded
  repeat' first
    | (simp (maxDischargeDepth := 64) +contextual only [*, Keeps.ite, Keeps.ite_snd, Keeps.foldl, Keeps.foldl_snd, State.setFld_keeps, State.bump_keeps,
        State.event_keeps, State.error_keeps, State.noteVerdict_keeps, State.noteSector_keeps,
        State.dropRepeat_keeps, State.loseSector_keeps, State.servoRefresh_keeps, State.headStatus_keeps,
        State.deliver_keeps, implies_true]; done)
    | split

theorem State.chargeNs_keeps (n : Nat) (x : Sector) (ns : Nat) (hs : Keeps s₀ s) :
    Keeps s₀ (s.chargeNs n x ns) := by
  unfold State.chargeNs
  repeat' first
    | (simp (maxDischargeDepth := 64) +contextual only [*, State.updLane_keeps, implies_true]; done)
    | split

theorem State.decodeFailed_keeps (n : Nat) (x : Sector) (hs : Keeps s₀ s) :
    Keeps s₀ (s.decodeFailed n x) := by
  unfold State.decodeFailed
  simp (maxDischargeDepth := 64) +contextual only [*, Keeps.ite, Keeps.ite_snd, Keeps.foldl, Keeps.foldl_snd, State.updSlk_keeps, State.dropRepeat_keeps,
    State.loseSector_keeps, implies_true]

theorem State.setEngine_keeps (e : Nat) (x : Option (Nat × Sector)) (hs : Keeps s₀ s) :
    Keeps s₀ (s.setEngine e x) := by
  unfold State.setEngine
  simp (maxDischargeDepth := 64) +contextual only [*, Keeps.ite, State.updSlk_keeps, implies_true]

theorem State.runStep_keeps (e : Nat) (n : Nat) (x : Sector) (hs : Keeps s₀ s) :
    Keeps s₀ (s.runStep e n x) := by
  unfold State.runStep
  repeat' first
    | (simp (maxDischargeDepth := 64) +contextual only [*, Keeps.ite, Keeps.ite_snd, Keeps.foldl, Keeps.foldl_snd, State.bump_keeps, State.loseSector_keeps,
        State.setEngine_keeps, implies_true]; done)
    | split

theorem State.retryStart_keeps (e : Nat) (hs : Keeps s₀ s) :
    Keeps s₀ (s.retryStart e) := by
  unfold State.retryStart
  repeat' first
    | (simp (maxDischargeDepth := 64) +contextual only [*, State.updSlk_keeps, State.runStep_keeps, implies_true]; done)
    | split

theorem State.retryDone_keeps (e : Nat) (z : List (List Int)) (hs : Keeps s₀ s) :
    Keeps s₀ (s.retryDone e z) := by
  unfold State.retryDone
  repeat' first
    | (simp (maxDischargeDepth := 64) +contextual only [*, Keeps.ite, Keeps.ite_snd, Keeps.foldl, Keeps.foldl_snd, State.loseSector_keeps, State.decoded_keeps,
        State.chargeNs_keeps, State.setEngine_keeps, State.runStep_keeps, implies_true]; done)
    | split

theorem State.leaveLadder_keeps (n : Nat) (seq : Nat) (hs : Keeps s₀ s) :
    Keeps s₀ (s.leaveLadder n seq) := by
  unfold State.leaveLadder
  repeat' first
    | (simp (maxDischargeDepth := 64) +contextual only [*, Keeps.ite, Keeps.ite_snd, State.updSlk_keeps, State.chargeNs_keeps,
        State.setEngine_keeps, implies_true]; done)
    | split
    | (dsimp only; split)

theorem State.retryDeadline_keeps (n : Nat) (seq : Nat) (hs : Keeps s₀ s) :
    Keeps s₀ (s.retryDeadline n seq) := by
  unfold State.retryDeadline
  repeat' first
    | (simp (maxDischargeDepth := 64) +contextual only [*, Keeps.ite, Keeps.ite_snd, State.loseSector_keeps,
        State.leaveLadder_keeps, implies_true]; done)
    | split

theorem State.takeSlot_keeps (hs : Keeps s₀ s) :
    Keeps s₀ (s.takeSlot).2 := by
  unfold State.takeSlot
  repeat' first
    | (simp (maxDischargeDepth := 64) +contextual only [*, Keeps.ite, Keeps.ite_snd, Keeps.foldl, Keeps.foldl_snd, State.loseSector_keeps,
        State.leaveLadder_keeps, implies_true]; done)
    | split

theorem State.pairDecide_keeps (p : Nat) (r : Redund) (hs : Keeps s₀ s) :
    Keeps s₀ (s.pairDecide p r) := by
  unfold State.pairDecide
  repeat' first
    | (simp (maxDischargeDepth := 64) +contextual only [*, Keeps.ite, Keeps.ite_snd, Keeps.foldl, Keeps.foldl_snd, State.updSaf_keeps, State.bump_keeps,
        State.error_keeps, State.latch_keeps, State.loseNow_keeps, State.deliver_keeps, State.leaveLadder_keeps,
        implies_true]; done)
    | split

theorem State.redundDecision_keeps (p : Nat) (seq : Nat) (hs : Keeps s₀ s) :
    Keeps s₀ (s.redundDecision p seq) := by
  unfold State.redundDecision
  repeat' first
    | (simp (maxDischargeDepth := 64) +contextual only [*, Keeps.ite, State.updSlk_keeps, State.decoded_keeps,
        State.pairDecide_keeps, implies_true]; done)
    | split

end Sys2Proof.Machine
end

