-- ==== Sys2Proof/Laws/KeepsDownlink.lean ====
section
/-! SUPPORT. What the operations of Machine/Downlink.lean keep: the waiting commands and the canonical form (Laws/Keeps.lean). -/

namespace Sys2Proof.Machine

set_option linter.unusedSimpArgs false
set_option linter.unusedTactic false

variable {s₀ s : State}

theorem State.noteWait_keeps (n : Nat) (hs : Keeps s₀ s) :
    Keeps s₀ (s.noteWait n) := by
  unfold State.noteWait
  repeat' first
    | (simp (maxDischargeDepth := 64) +contextual only [*, Keeps.ite, State.updLane_keeps, implies_true]; done)
    | split
    | (dsimp only; split)

theorem State.shockLevel_keeps (n : Nat) (v : Nat) (hs : Keeps s₀ s) :
    Keeps s₀ (s.shockLevel n v) := by
  unfold State.shockLevel
  simp (maxDischargeDepth := 64) +contextual only [*, Keeps.ite, State.setFld_keeps, State.updLane_keeps,
    State.noteWait_keeps, implies_true]

theorem State.showQueue_keeps (n : Nat) (hs : Keeps s₀ s) :
    Keeps s₀ (s.showQueue n) := by
  unfold State.showQueue
  simp (maxDischargeDepth := 64) +contextual only [*, State.setFld_keeps, implies_true]

theorem State.putOnWire_keeps (n : Nat) (typ : Nat) (payload : List Byte) (hs : Keeps s₀ s) :
    Keeps s₀ (s.putOnWire n typ payload) := by
  unfold State.putOnWire
  simp (maxDischargeDepth := 64) +contextual only [*, Keeps.ite, Keeps.ite_snd, Keeps.foldl, Keeps.foldl_snd, State.updLane_keeps, implies_true]

theorem State.startTick_keeps (n : Nat) (m : Nat) (hs : Keeps s₀ s) :
    Keeps s₀ (s.startTick n m) := by
  unfold State.startTick
  simp (maxDischargeDepth := 64) +contextual only [*, State.updLane_keeps, State.putOnWire_keeps, implies_true]

theorem State.laneTick_keeps (n : Nat) (m : Nat) (hs : Keeps s₀ s) :
    Keeps s₀ (s.laneTick n m) := by
  unfold State.laneTick
  repeat' first
    | (simp (maxDischargeDepth := 64) +contextual only [*, Keeps.ite, State.updLane_keeps, State.startTick_keeps, implies_true]; done)
    | split
    | (dsimp only; split)

theorem State.enqueueDl_keeps (n typ : Nat) (payload : List Byte) (job : Option Nat) {t : State} (h : Keeps s₀ s)
    (e : s.enqueueDl n typ payload job = some t) : Keeps s₀ t := by
  unfold State.enqueueDl at e
  dsimp only at e
  split at e
  · exact absurd e (by simp)
  · obtain rfl := Option.some.inj e
    exact State.noteWait_keeps _ (State.showQueue_keeps _ (State.updLane_keeps _ _ h))

theorem State.dlSend_keeps (n : Nat) (w : Nat) (v : Word) (hs : Keeps s₀ s) :
    Keeps s₀ (s.dlSend n w v) := by
  unfold State.dlSend
  refine State.onWrite_keeps _ _ _ _ _ (fun x h => ?_) hs
  have g : Keeps s₀ (if x.sendBarred n v then x else x.wrote (dlPage n) w) := Keeps.ite h (State.wrote_keeps _ _ h)
  dsimp only
  split
  · exact g
  · split
    · exact State.error_keeps _ _ _ g
    · split
      · next e => exact State.setFld_keeps _ _ (State.enqueueDl_keeps _ _ _ _ g e)
      · exact State.setFld_keeps _ _ (State.error_keeps _ _ _ g)

theorem State.dlStart_keeps (n : Nat) (hs : Keeps s₀ s) :
    Keeps s₀ (s.dlStart n) := by
  unfold State.dlStart
  repeat' first
    | (simp (maxDischargeDepth := 64) +contextual only [*, Keeps.ite, Keeps.ite_snd, Keeps.foldl, Keeps.foldl_snd, State.updLane_keeps, State.noteWait_keeps,
        State.showQueue_keeps, State.putOnWire_keeps, State.startTick_keeps, implies_true]; done)
    | split
    | (dsimp only; split)

theorem State.endDlJob_keeps (job : Option Nat) (code : Nat) (hs : Keeps s₀ s) :
    Keeps s₀ (s.endDlJob job code) := by
  unfold State.endDlJob
  repeat' first
    | (simp (maxDischargeDepth := 64) +contextual only [*, State.jobDone_keeps, implies_true]; done)
    | split

theorem State.dlDone_keeps (n : Nat) (hs : Keeps s₀ s) :
    Keeps s₀ (s.dlDone n) := by
  unfold State.dlDone
  repeat' first
    | (simp (maxDischargeDepth := 64) +contextual only [*, Keeps.ite, Keeps.ite_snd, Keeps.foldl, Keeps.foldl_snd, State.setFld_keeps, State.bump_keeps,
        State.event_keeps, State.updLane_keeps, State.startTick_keeps, State.endDlJob_keeps, implies_true]; done)
    | split
    | (dsimp only; split)

theorem State.inhibitExpire_keeps (n : Nat) (hs : Keeps s₀ s) :
    Keeps s₀ (s.inhibitExpire n) := by
  unfold State.inhibitExpire
  repeat' first
    | (simp (maxDischargeDepth := 64) +contextual only [*, Keeps.ite, Keeps.ite_snd, Keeps.foldl, Keeps.foldl_snd, State.setFld_keeps, State.bump_keeps,
        State.event_keeps, State.error_keeps, State.updLane_keeps, State.noteWait_keeps, State.showQueue_keeps,
        State.endDlJob_keeps, implies_true]; done)
    | split
    | (dsimp only; split)

theorem State.phaseErr_keeps (n : Nat) (t : Nat) (a : Nat) (k : Nat) (p : Nat) (hs : Keeps s₀ s) :
    Keeps s₀ (s.phaseErr n t a k p).2 := by
  unfold State.phaseErr
  simp (maxDischargeDepth := 64) +contextual only [*, Keeps.ite_snd, Keeps.ite, State.roundOf_keeps, implies_true]

theorem State.servoTrim_keeps (n : Nat) (pe : Int) (hs : Keeps s₀ s) :
    Keeps s₀ (s.servoTrim n pe).2 := by
  unfold State.servoTrim
  simp (maxDischargeDepth := 64) +contextual only [*, Keeps.ite_snd, Keeps.ite, State.drawFree_keeps,
    State.updLane_keeps, implies_true]

theorem State.servoState_keeps (n : Nat) (pe : Int) (hs : Keeps s₀ s) :
    Keeps s₀ (s.servoState n pe) := by
  unfold State.servoState
  simp (maxDischargeDepth := 64) +contextual only [*, Keeps.ite, State.setFld_keeps, State.bump_keeps, State.event_keeps,
    State.error_keeps, State.updLane_keeps, implies_true]

theorem State.servoUpdate_keeps (n : Nat) (t : Nat) (a : Nat) (hs : Keeps s₀ s) :
    Keeps s₀ (s.servoUpdate n t a) := by
  unfold State.servoUpdate
  repeat' first
    | (simp (maxDischargeDepth := 64) +contextual only [*, Keeps.ite, Keeps.ite_snd, Keeps.foldl, Keeps.foldl_snd, State.drawFree_keeps, State.setSfld_keeps,
        State.updLane_keeps, State.servoEnter_keeps, State.noteWait_keeps, State.phaseErr_keeps,
        State.servoTrim_keeps, State.servoState_keeps, implies_true]; done)
    | split
    | (dsimp only; split)

end Sys2Proof.Machine
end

