-- ==== Sys2Proof/Laws/KeepsSeparator.lean ====
section
/-! SUPPORT. What the operations of Machine/Separator.lean keep: the waiting commands and the canonical form (Laws/Keeps.lean). -/

namespace Sys2Proof.Machine

set_option linter.unusedSimpArgs false
set_option linter.unusedTactic false

variable {s₀ s : State}

theorem State.sepSample_keeps (hs : Keeps s₀ s) :
    Keeps s₀ (s.sepSample) := by
  unfold State.sepSample
  simp (maxDischargeDepth := 64) +contextual only [*, State.updSep_keeps, implies_true]

theorem State.poseStatus_keeps (hs : Keeps s₀ s) :
    Keeps s₀ (s.poseStatus) := by
  unfold State.poseStatus
  repeat' first
    | (simp (maxDischargeDepth := 64) +contextual only [*, Keeps.ite, Keeps.ite_snd, Keeps.foldl, Keeps.foldl_snd, State.drawFree_keeps, State.setFld_keeps,
        implies_true]; done)
    | split
    | (dsimp only; split)

theorem State.latchPose_keeps (f : Frame) (hs : Keeps s₀ s) :
    Keeps s₀ (s.latchPose f).2 := by
  unfold State.latchPose
  simp (maxDischargeDepth := 64) +contextual only [*, Keeps.ite, Keeps.ite_snd, Keeps.foldl, Keeps.foldl_snd, State.setFld_keeps, implies_true]

theorem State.relatch_keeps (hs : Keeps s₀ s) :
    Keeps s₀ (s.relatch) := by
  unfold State.relatch
  repeat' first
    | (simp (maxDischargeDepth := 64) +contextual only [*, Keeps.ite, Keeps.ite_snd, State.updFrame_keeps,
        State.latchPose_keeps, implies_true]; done)
    | split
    | (dsimp only; split)

theorem State.poseReject_keeps (hs : Keeps s₀ s) :
    Keeps s₀ (s.poseReject) := by
  unfold State.poseReject
  simp (maxDischargeDepth := 64) +contextual only [*, State.bump_keeps, implies_true]

theorem State.posePush_keeps (hs : Keeps s₀ s) :
    Keeps s₀ (s.posePush) := by
  unfold State.posePush
  simp (maxDischargeDepth := 64) +contextual only [*, Keeps.ite, State.updSep_keeps, State.error_keeps,
    State.poseStatus_keeps, State.relatch_keeps, State.poseReject_keeps, implies_true]

theorem State.poseCmd_keeps (v : Word) (hs : Keeps s₀ s) :
    Keeps s₀ (s.poseCmd v) := by
  unfold State.poseCmd
  simp (maxDischargeDepth := 64) +contextual only [*, Keeps.ite, State.updSep_keeps, State.poseStatus_keeps,
    State.posePush_keeps, implies_true]

theorem State.writePoseCmd_keeps (w : Nat) (v : Word) (hs : Keeps s₀ s) :
    Keeps s₀ (s.writePoseCmd w v) := by
  unfold State.writePoseCmd
  simp (maxDischargeDepth := 64) +contextual only [*, State.wrote_keeps, State.onWrite_keeps, State.poseCmd_keeps,
    implies_true]

theorem State.freePoint_keeps (hs : Keeps s₀ s) :
    Keeps s₀ (s.freePoint).2 := by
  unfold State.freePoint
  simp (maxDischargeDepth := 64) +contextual only [*, Keeps.ite_snd, State.drawFree_keeps, implies_true]

theorem State.deskew_keeps (pt : PoseAt) (target : PoseAt) (p : PointRec) (hs : Keeps s₀ s) :
    Keeps s₀ (s.deskew pt target p).2 := by
  unfold State.deskew
  simp (maxDischargeDepth := 64) +contextual only [*, Keeps.ite, Keeps.ite_snd, State.within1_keeps,
    State.freePoint_keeps, implies_true]

theorem State.tableRead_keeps (j : Nat) (off : Nat) (n : Nat) (hs : Keeps s₀ s) :
    Keeps s₀ (s.tableRead j off n).2 := by
  unfold State.tableRead
  simp (maxDischargeDepth := 64) +contextual only [*, Keeps.ite, Keeps.ite_snd, Keeps.foldl, Keeps.foldl_snd, State.readUnits_keeps, implies_true]

theorem State.dirRead_keeps (b : Nat) (key : Nat) (hs : Keeps s₀ s) :
    Keeps s₀ (s.dirRead b key).2 := by
  unfold State.dirRead
  simp (maxDischargeDepth := 64) +contextual only [*, Keeps.ite, Keeps.ite_snd, Keeps.foldl, Keeps.foldl_snd, State.tableRead_keeps, implies_true]

theorem State.coord16_keeps (i : Int) (hs : Keeps s₀ s) :
    Keeps s₀ (s.coord16 i).2 := by
  unfold State.coord16
  simp (maxDischargeDepth := 64) +contextual only [*, Keeps.ite_snd, Keeps.ite, State.drawFree_keeps, implies_true]

theorem State.putSite_keeps (b : Nat) (key : Nat) (con : List Byte) (hs : Keeps s₀ s) :
    Keeps s₀ (s.putSite b key con).2 := by
  unfold State.putSite
  repeat' first
    | (simp (maxDischargeDepth := 64) +contextual only [*, Keeps.ite_snd, State.setBank_keeps, State.write_keeps,
        State.summaryMerge_keeps, State.fetch_keeps, implies_true]; done)
    | split
    | (dsimp only; split)

theorem State.retain_keeps (b : Nat) (e : DirEntry) (x : Int) (y : Int) (z : Int) (p : PointRec) (hs : Keeps s₀ s) :
    Keeps s₀ (s.retain b e x y z p) := by
  unfold State.retain
  simp (maxDischargeDepth := 64) +contextual only [*, Keeps.ite, State.setBank_keeps, State.write_keeps,
    State.coord16_keeps, implies_true]

theorem State.siteLimit_keeps (n : Nat) (level : Nat) (part : Nat) (hs : Keeps s₀ s) :
    Keeps s₀ (s.siteLimit n level part) := by
  unfold State.siteLimit
  simp (maxDischargeDepth := 64) +contextual only [*, State.event_keeps, State.error_keeps, implies_true]

theorem State.binFineAt_keeps (fb : Nat) (kf : Nat) (bf : Nat) (con : List Byte) (x : Int) (y : Int) (z : Int) (p : PointRec) (hs : Keeps s₀ s) :
    Keeps s₀ (s.binFineAt fb kf bf con x y z p).2 := by
  unfold State.binFineAt
  repeat' first
    | (simp (maxDischargeDepth := 64) +contextual only [*, Keeps.ite, Keeps.ite_snd, State.putSite_keeps, State.retain_keeps,
        implies_true]; done)
    | split
    | (dsimp only; split)

theorem State.binAt_keeps (f : Frame) (fb : Nat) (cb : Nat) (c : Cell0) (x : Int) (y : Int) (z : Int) (p : PointRec) (hs : Keeps s₀ s) :
    Keeps s₀ (s.binAt f fb cb c x y z p) := by
  unfold State.binAt
  simp (maxDischargeDepth := 64) +contextual only [*, Keeps.ite, Keeps.ite_snd, Keeps.foldl, Keeps.foldl_snd, State.bump_keeps, State.updFrame_keeps,
    State.dirRead_keeps, State.putSite_keeps, State.sepFault_keeps, State.siteLimit_keeps,
    State.binFineAt_keeps, implies_true]

theorem State.noPose_keeps (f : Frame) (hs : Keeps s₀ s) :
    Keeps s₀ (s.noPose f) := by
  unfold State.noPose
  simp (maxDischargeDepth := 64) +contextual only [*, Keeps.ite, State.bump_keeps, State.poseStale_keeps,
    State.updFrame_keeps, implies_true]

theorem State.binCoords_keeps (f : Frame) (fb : Nat) (cb : Nat) (x : Int) (y : Int) (z : Int) (p : PointRec) (hs : Keeps s₀ s) :
    Keeps s₀ (s.binCoords f fb cb x y z p) := by
  unfold State.binCoords
  repeat' first
    | (simp (maxDischargeDepth := 64) +contextual only [*, Keeps.ite, State.bump_keeps, State.event_keeps, State.error_keeps,
        State.updFrame_keeps, State.binAt_keeps, implies_true]; done)
    | split

theorem State.binPoint_keeps (f : Frame) (fb : Nat) (cb : Nat) (d : Delivered) (hs : Keeps s₀ s) :
    Keeps s₀ (s.binPoint f fb cb d) := by
  unfold State.binPoint
  repeat' first
    | (simp (maxDischargeDepth := 64) +contextual only [*, Keeps.ite, Keeps.ite_snd, Keeps.foldl, Keeps.foldl_snd, State.updFrame_keeps, State.deskew_keeps,
        State.noPose_keeps, State.binCoords_keeps, implies_true]; done)
    | split
    | (dsimp only; split)

theorem State.stagePoint_keeps (f : Frame) (d : Delivered) (hs : Keeps s₀ s) :
    Keeps s₀ (s.stagePoint f d) := by
  unfold State.stagePoint
  simp (maxDischargeDepth := 64) +contextual only [*, Keeps.ite, Keeps.ite_snd, Keeps.foldl, Keeps.foldl_snd, State.setFld_keeps, State.updSep_keeps,
    State.bump_keeps, State.event_keeps, State.error_keeps, State.write_keeps, State.updFrame_keeps,
    implies_true]

theorem State.takePoint_keeps (f : Frame) (d : Delivered) (hs : Keeps s₀ s) :
    Keeps s₀ (s.takePoint f d) := by
  unfold State.takePoint
  repeat' first
    | (simp (maxDischargeDepth := 64) +contextual only [*, Keeps.ite, State.bump_keeps, State.updFrame_keeps,
        State.binPoint_keeps, State.stagePoint_keeps, implies_true]; done)
    | split

theorem State.latePoint_keeps (d : Delivered) (hs : Keeps s₀ s) :
    Keeps s₀ (s.latePoint d) := by
  unfold State.latePoint
  simp (maxDischargeDepth := 64) +contextual only [*, Keeps.ite, State.updLane_keeps, State.recordLost_keeps,
    State.lostSpan_keeps, implies_true]

theorem State.pointAccept_keeps (hs : Keeps s₀ s) :
    Keeps s₀ (s.pointAccept) := by
  unfold State.pointAccept
  repeat' first
    | (simp (maxDischargeDepth := 64) +contextual only [*, Keeps.ite, Keeps.ite_snd, Keeps.foldl, Keeps.foldl_snd, State.updSep_keeps, State.fetch_keeps,
        State.updFrame_keeps, State.sepFault_keeps, State.binPoint_keeps, State.takePoint_keeps,
        State.latePoint_keeps, implies_true]; done)
    | split
    | (dsimp only; split)

theorem State.takeBank_keeps (n : Nat) (hs : Keeps s₀ s) :
    Keeps s₀ (s.takeBank n) := by
  unfold State.takeBank
  repeat' first
    | (simp (maxDischargeDepth := 64) +contextual only [*, Keeps.ite, State.setBank_keeps, State.updFrame_keeps, implies_true]; done)
    | split

theorem State.openBanks_keeps (n : Nat) (hs : Keeps s₀ s) :
    Keeps s₀ (s.openBanks n) := by
  unfold State.openBanks
  simp (maxDischargeDepth := 64) +contextual only [*, Keeps.ite, State.takeBank_keeps, implies_true]

theorem State.bankTake_keeps (hs : Keeps s₀ s) :
    Keeps s₀ (s.bankTake) := by
  unfold State.bankTake
  repeat' first
    | (simp (maxDischargeDepth := 64) +contextual only [*, State.takeBank_keeps, implies_true]; done)
    | split

theorem State.sepOpen_keeps (f : Frame) (hs : Keeps s₀ s) :
    Keeps s₀ (s.sepOpen f).2 := by
  unfold State.sepOpen
  simp (maxDischargeDepth := 64) +contextual only [*, Keeps.ite_snd, State.latchPose_keeps, implies_true]

theorem State.sepSoftReset_keeps (hs : Keeps s₀ s) :
    Keeps s₀ (s.sepSoftReset) := by
  unfold State.sepSoftReset
  repeat' first
    | (simp (maxDischargeDepth := 64) +contextual only [*, Keeps.ite, Keeps.ite_snd, Keeps.foldl, Keeps.foldl_snd, State.setBank_keeps, State.updFrame_keeps,
        implies_true]; done)
    | split
    | (dsimp only; split)

theorem State.freezeFrame_keeps (f : Frame) (hs : Keeps s₀ s) :
    Keeps s₀ (s.freezeFrame f) := by
  unfold State.freezeFrame
  simp (maxDischargeDepth := 64) +contextual only [*, Keeps.ite, State.event_keeps, State.dropPoints_keeps,
    State.writeOut_keeps, State.updFrame_keeps, implies_true]

theorem State.thinSite_keeps (src : Nat) (dst : Nat) (k : Nat) (t : Nat) (e : DirEntry) (hs : Keeps s₀ s) :
    Keeps s₀ (s.thinSite src dst k t e) := by
  unfold State.thinSite
  simp (maxDischargeDepth := 64) +contextual only [*, Keeps.ite, Keeps.ite_snd, Keeps.foldl, Keeps.foldl_snd, State.bumpBy_keeps, State.fetch_keeps,
    State.dirRead_keeps, State.putSite_keeps, State.sepFault_keeps, implies_true]

theorem State.thin_keeps (f : Frame) (hs : Keeps s₀ s) :
    Keeps s₀ (s.thin f) := by
  unfold State.thin
  repeat' first
    | (simp (maxDischargeDepth := 64) +contextual only [*, Keeps.foldl, State.setBank_keeps, State.updFrame_keeps,
        State.thinSite_keeps, implies_true]; done)
    | split

theorem State.commit_keeps (f : Frame) (hs : Keeps s₀ s) :
    Keeps s₀ (s.commit f) := by
  unfold State.commit
  repeat' first
    | (simp (maxDischargeDepth := 64) +contextual only [*, State.setBank_keeps, State.freeBank_keeps, State.updFrame_keeps,
        implies_true]; done)
    | split
    | (dsimp only; split)

theorem execPointAccept_keeps (dt : Nat) {s₁ : State}
    (e : execPointAccept dt s = .next s₁) : Keeps s s₁ := by
  unfold execPointAccept at e
  obtain rfl := Host.Outcome.next.inj e
  simp (maxDischargeDepth := 64) +contextual only [*, Keeps.refl, State.arrive_keeps, State.pointAccept_keeps,
    implies_true]

theorem execPosePush_keeps (dt : Nat) (w : Nat) {s₁ : State}
    (e : execPosePush dt w s = .next s₁) : Keeps s s₁ := by
  unfold execPosePush at e
  obtain rfl := Host.Outcome.next.inj e
  simp (maxDischargeDepth := 64) +contextual only [*, Keeps.refl, State.arriveBy_keeps, State.writePoseCmd_keeps,
    State.arrive_keeps, implies_true]

theorem execPoseClear_keeps (dt : Nat) (w : Nat) {s₁ : State}
    (e : execPoseClear dt w s = .next s₁) : Keeps s s₁ := by
  unfold execPoseClear at e
  obtain rfl := Host.Outcome.next.inj e
  simp (maxDischargeDepth := 64) +contextual only [*, Keeps.refl, State.arriveBy_keeps, State.writePoseCmd_keeps,
    State.arrive_keeps, implies_true]

end Sys2Proof.Machine
end

