-- ==== Sys2Proof/Laws/KeepsSparseConv.lean ====
section
/-! SUPPORT. What the operations of Machine/SparseConv.lean keep: the waiting commands and the canonical form (Laws/Keeps.lean). -/

namespace Sys2Proof.Machine

set_option linter.unusedSimpArgs false
set_option linter.unusedTactic false

variable {s₀ s : State}

theorem State.updRun_keeps (n : Nat) (f : RunStage → RunStage) (hs : Keeps s₀ s) :
    Keeps s₀ (s.updRun n f) := by
  unfold State.updRun
  simp (maxDischargeDepth := 64) +contextual only [*, Keeps.ite, State.updFrm_keeps, implies_true]

theorem State.stageCode_keeps (n : Nat) (code : Nat) (hs : Keeps s₀ s) :
    Keeps s₀ (s.stageCode n code) := by
  unfold State.stageCode
  simp (maxDischargeDepth := 64) +contextual only [*, Keeps.ite, State.updRun_keeps, implies_true]

theorem State.stageWrite_keeps (r : RunStage) (d : Nat) (bs : List Byte) (hs : Keeps s₀ s) :
    Keeps s₀ (s.stageWrite r d bs) := by
  unfold State.stageWrite
  simp (maxDischargeDepth := 64) +contextual only [*, Keeps.ite, State.write_keeps, State.writeOut_keeps,
    State.updRun_keeps, implies_true]

theorem State.countProbe_keeps (hs : Keeps s₀ s) :
    Keeps s₀ (s.countProbe) := by
  unfold State.countProbe
  simp (maxDischargeDepth := 64) +contextual only [*, Keeps.ite, State.updScv_keeps, State.bump_keeps, implies_true]

theorem State.probe_keeps (g : SetGeo) (sites : List Site) (k : Nat) (x : Int) (y : Int) (z : Int) (hs : Keeps s₀ s) :
    Keeps s₀ (s.probe g sites k x y z).2 := by
  unfold State.probe
  repeat' first
    | (simp (maxDischargeDepth := 64) +contextual only [*, Keeps.ite, Keeps.ite_snd, Keeps.foldl, Keeps.foldl_snd, State.sepFault_keeps, State.scvFault_keeps,
        State.tableRead_keeps, State.dirRead_keeps, State.countProbe_keeps, implies_true]; done)
    | split

theorem State.convTaps_keeps (c : ConvDesc) (r : RunStage) (g : SetGeo) (sites : List Site) (w : List Byte) (o : Site) (l : List Nat) (y1 : List Acc) (y2 : Bool) (hs : Keeps s₀ s) :
    Keeps s₀ (s.convTaps c r g sites w o l y1 y2).2 := by
  induction l generalizing s y1 y2 with
  | nil => exact hs
  | cons a t ih =>
    unfold State.convTaps
    repeat' first
      | (simp (maxDischargeDepth := 64) +contextual only [*, Keeps.ite, Keeps.ite_snd, State.fetch_keeps, State.probe_keeps,
          implies_true]; done)
      | split
      | (dsimp only; split)

theorem State.scvDataError_keeps (n : Nat) (hs : Keeps s₀ s) :
    Keeps s₀ (s.scvDataError n) := by
  unfold State.scvDataError
  simp (maxDischargeDepth := 64) +contextual only [*, State.bump_keeps, State.stageCode_keeps, implies_true]

theorem State.convRow_keeps (c : ConvDesc) (r : RunStage) (g : SetGeo) (sites : List Site) (w : Rd) (o : Site) (hs : Keeps s₀ s) :
    Keeps s₀ (s.convRow c r g sites w o) := by
  unfold State.convRow
  simp (maxDischargeDepth := 64) +contextual only [*, Keeps.ite, Keeps.ite_snd, State.drawFree_keeps,
    State.stageWrite_keeps, State.convTaps_keeps, State.scvDataError_keeps, implies_true]

theorem State.loadWeights_keeps (c : ConvDesc) (r : RunStage) (hs : Keeps s₀ s) :
    Keeps s₀ (s.loadWeights c r).2 := by
  unfold State.loadWeights
  repeat' first
    | (simp (maxDischargeDepth := 64) +contextual only [*, Keeps.ite_snd, State.fetch_keeps, State.updRun_keeps, implies_true]; done)
    | split

theorem State.convChunks_keeps (c : ConvDesc) (r : RunStage) (outSites : List Site) (names : List Nat) (hs : Keeps s₀ s) :
    Keeps s₀ (s.convChunks c r outSites names) := by
  unfold State.convChunks
  simp (maxDischargeDepth := 64) +contextual only [*, Keeps.ite, Keeps.ite_snd, Keeps.foldl, Keeps.foldl_snd, State.drawFree_keeps, State.bumpBy_keeps,
    State.updRun_keeps, State.convRow_keeps, State.loadWeights_keeps, implies_true]

theorem State.makeSet_keeps (c : ConvDesc) (r : RunStage) (hs : Keeps s₀ s) :
    Keeps s₀ (s.makeSet c r) := by
  unfold State.makeSet
  repeat' first
    | (simp (maxDischargeDepth := 64) +contextual only [*, Keeps.ite, Keeps.foldl, State.updScv_keeps, State.setFld_keeps,
        State.bumpBy_keeps, State.event_keeps, State.error_keeps, implies_true]; done)
    | split
    | (dsimp only; split)

theorem State.bevRows_keeps (d : BevDesc) (r : RunStage) (l : List Site) (hs : Keeps s₀ s) :
    Keeps s₀ (s.bevRows d r l).2 := by
  induction l generalizing s with
  | nil => exact hs
  | cons a t ih =>
    unfold State.bevRows
    simp (maxDischargeDepth := 64) +contextual only [*, Keeps.ite, Keeps.ite_snd, State.fetch_keeps, implies_true]

theorem State.bevCell_keeps (d : BevDesc) (r : RunStage) (placed : List (BevPlace × Site)) (u : Nat) (v : Nat) (hs : Keeps s₀ s) :
    Keeps s₀ (s.bevCell d r placed u v) := by
  unfold State.bevCell
  simp (maxDischargeDepth := 64) +contextual only [*, Keeps.ite, Keeps.ite_snd, Keeps.foldl, Keeps.foldl_snd,
    State.drawFree_keeps, State.stageWrite_keeps, State.scvDataError_keeps, State.bevRows_keeps, implies_true]

theorem State.bevScatter_keeps (d : BevDesc) (r : RunStage) (hs : Keeps s₀ s) :
    Keeps s₀ (s.bevScatter d r) := by
  unfold State.bevScatter
  simp (maxDischargeDepth := 64) +contextual only [*, Keeps.ite, Keeps.ite_snd, Keeps.foldl, Keeps.foldl_snd, State.bumpBy_keeps, State.event_keeps,
    State.scramble_keeps, State.updRun_keeps, State.bevCell_keeps, implies_true]

theorem State.scvSubm_keeps (n : Nat) (chunks : List Nat) (hs : Keeps s₀ s) :
    Keeps s₀ (s.scvSubm n chunks) := by
  unfold State.scvSubm
  repeat' first
    | (simp (maxDischargeDepth := 64) +contextual only [*, Keeps.ite, Keeps.ite_snd, Keeps.foldl, Keeps.foldl_snd, State.byAgent_keeps, State.touch_keeps,
        State.convChunks_keeps, implies_true]; done)
    | split

theorem State.scvStrided_keeps (n : Nat) (chunks : List Nat) (hs : Keeps s₀ s) :
    Keeps s₀ (s.scvStrided n chunks) := by
  unfold State.scvStrided
  repeat' first
    | (simp (maxDischargeDepth := 64) +contextual only [*, Keeps.ite, Keeps.ite_snd, Keeps.foldl, Keeps.foldl_snd, State.byAgent_keeps, State.touch_keeps,
        State.convChunks_keeps, State.makeSet_keeps, implies_true]; done)
    | split

theorem State.scvInverse_keeps (n : Nat) (chunks : List Nat) (hs : Keeps s₀ s) :
    Keeps s₀ (s.scvInverse n chunks) := by
  unfold State.scvInverse
  repeat' first
    | (simp (maxDischargeDepth := 64) +contextual only [*, Keeps.ite, Keeps.ite_snd, Keeps.foldl, Keeps.foldl_snd, State.byAgent_keeps, State.touch_keeps,
        State.convChunks_keeps, implies_true]; done)
    | split

theorem State.bevStage_keeps (n : Nat) (hs : Keeps s₀ s) :
    Keeps s₀ (s.bevStage n) := by
  unfold State.bevStage
  repeat' first
    | (simp (maxDischargeDepth := 64) +contextual only [*, Keeps.ite, Keeps.ite_snd, Keeps.foldl, Keeps.foldl_snd, State.byAgent_keeps, State.touch_keeps,
        State.bevScatter_keeps, implies_true]; done)
    | split

theorem execScvSubm_keeps (dt : Nat) (stage : Nat) (chunks : List Nat) {s₁ : State}
    (e : execScvSubm dt stage chunks s = .next s₁) : Keeps s s₁ := by
  unfold execScvSubm at e
  obtain rfl := Host.Outcome.next.inj e
  simp (maxDischargeDepth := 64) +contextual only [*, Keeps.refl, State.arrive_keeps, State.scvSubm_keeps, implies_true]

theorem execScvStrided_keeps (dt : Nat) (stage : Nat) (chunks : List Nat) {s₁ : State}
    (e : execScvStrided dt stage chunks s = .next s₁) : Keeps s s₁ := by
  unfold execScvStrided at e
  obtain rfl := Host.Outcome.next.inj e
  simp (maxDischargeDepth := 64) +contextual only [*, Keeps.refl, State.arrive_keeps, State.scvStrided_keeps,
    implies_true]

theorem execScvInverse_keeps (dt : Nat) (stage : Nat) (chunks : List Nat) {s₁ : State}
    (e : execScvInverse dt stage chunks s = .next s₁) : Keeps s s₁ := by
  unfold execScvInverse at e
  obtain rfl := Host.Outcome.next.inj e
  simp (maxDischargeDepth := 64) +contextual only [*, Keeps.refl, State.arrive_keeps, State.scvInverse_keeps,
    implies_true]

theorem execBevScatter_keeps (dt : Nat) (stage : Nat) {s₁ : State}
    (e : execBevScatter dt stage s = .next s₁) : Keeps s s₁ := by
  unfold execBevScatter at e
  obtain rfl := Host.Outcome.next.inj e
  simp (maxDischargeDepth := 64) +contextual only [*, Keeps.refl, State.arrive_keeps, State.bevStage_keeps, implies_true]

end Sys2Proof.Machine
end

