-- ==== Sys2Proof/Laws/KeepsStageEnd.lean ====
section
/-! SUPPORT. What the operations of Machine/StageEnd.lean keep: the waiting commands and the canonical form (Laws/Keeps.lean). -/

namespace Sys2Proof.Machine

set_option linter.unusedSimpArgs false
set_option linter.unusedTactic false

variable {s₀ s : State}

theorem State.outBit_keeps (set : Nat) (base : Nat) (stage : Nat) (hs : Keeps s₀ s) :
    Keeps s₀ (s.outBit set base stage) := by
  unfold State.outBit
  simp (maxDischargeDepth := 64) +contextual only [*, State.writeOut_keeps, implies_true]

theorem State.scvEnd_keeps (r : RunStage) (code : Nat) (hs : Keeps s₀ s) :
    Keeps s₀ (s.scvEnd r code) := by
  unfold State.scvEnd
  simp (maxDischargeDepth := 64) +contextual only [*, Keeps.ite, Keeps.ite_snd, Keeps.foldl, Keeps.foldl_snd, State.setFld_keeps, State.bump_keeps,
    State.event_keeps, State.updCond_keeps, State.error_keeps, implies_true]

theorem State.endStage_keeps (r : RunStage) (code : Nat) (hs : Keeps s₀ s) :
    Keeps s₀ (s.endStage r code) := by
  unfold State.endStage
  repeat' first
    | (simp (maxDischargeDepth := 64) +contextual only [*, Keeps.ite, Keeps.ite_snd, Keeps.foldl, Keeps.foldl_snd, State.updFrm_keeps, State.bump_keeps,
        State.error_keeps, State.statusFollowers_keeps, State.scramble_keeps, State.releaseTile_keeps,
        State.updFrame_keeps, State.outBit_keeps, State.scvEnd_keeps, implies_true]; done)
    | split
    | (dsimp only; split)

end Sys2Proof.Machine
end

