-- ==== Sys2Proof/Laws/KeepsEtu.lean ====
section
/-! SUPPORT. What the operations of Machine/Etu.lean keep: the waiting commands and the canonical form (Laws/Keeps.lean). -/

namespace Sys2Proof.Machine

set_option linter.unusedSimpArgs false
set_option linter.unusedTactic false

variable {s₀ s : State}

theorem State.updTable_keeps (t : Nat) (f : EtuTable → EtuTable) (hs : Keeps s₀ s) :
    Keeps s₀ (s.updTable t f) := by
  unfold State.updTable
  simp (maxDischargeDepth := 64) +contextual only [*, State.updEtu_keeps, implies_true]

theorem State.uncache_keeps (t : Nat) (i : Nat) (hs : Keeps s₀ s) :
    Keeps s₀ (s.uncache t i) := by
  unfold State.uncache
  simp (maxDischargeDepth := 64) +contextual only [*, Keeps.ite_snd, State.updEtu_keeps, implies_true]

theorem State.countLookup_keeps (t : Nat) (i : Nat) (hs : Keeps s₀ s) :
    Keeps s₀ (s.countLookup t i) := by
  unfold State.countLookup
  simp (maxDischargeDepth := 64) +contextual only [*, Keeps.ite, Keeps.ite_snd, Keeps.foldl, Keeps.foldl_snd, State.updEtu_keeps, implies_true]

theorem State.maybeCache_keeps (t : Nat) (i : Nat) (hs : Keeps s₀ s) :
    Keeps s₀ (s.maybeCache t i) := by
  unfold State.maybeCache
  simp (maxDischargeDepth := 64) +contextual only [*, Keeps.ite, Keeps.ite_snd, Keeps.foldl, Keeps.foldl_snd, State.drawFree_keeps, State.updEtu_keeps,
    implies_true]

theorem State.countLines_keeps (c : Nat) (t : Nat) (i : Nat) (n : Nat) (hs : Keeps s₀ s) :
    Keeps s₀ (s.countLines c t i n) := by
  unfold State.countLines
  simp (maxDischargeDepth := 64) +contextual only [*, Keeps.ite, Keeps.ite_snd, Keeps.foldl, Keeps.foldl_snd, State.updEtu_keeps, implies_true]

theorem State.lookupRow_keeps (t : Nat) (i : Nat) (hs : Keeps s₀ s) :
    Keeps s₀ (s.lookupRow t i).2 := by
  unfold State.lookupRow
  simp (maxDischargeDepth := 64) +contextual only [*, Keeps.ite, Keeps.ite_snd, Keeps.foldl, Keeps.foldl_snd, State.drawFree_keeps, State.bump_keeps,
    State.fetch_keeps, State.countLookup_keeps, State.maybeCache_keeps, State.countLines_keeps, implies_true]

theorem State.defaultRow_keeps (t : Nat) (hs : Keeps s₀ s) :
    Keeps s₀ (s.defaultRow t).2 := by
  unfold State.defaultRow
  simp (maxDischargeDepth := 64) +contextual only [*, Keeps.ite, Keeps.ite_snd, State.bump_keeps, State.event_keeps,
    State.fetch_keeps, implies_true]

theorem State.askGather_keeps (a : Agent) (node : Nat) (o : Nat) (hs : Keeps s₀ s) :
    Keeps s₀ (s.askGather a node o) := by
  unfold State.askGather
  simp (maxDischargeDepth := 64) +contextual only [*, Keeps.ite, State.bump_keeps, State.request_keeps, implies_true]

theorem State.dropRows_keeps (a : Agent) (hs : Keeps s₀ s) :
    Keeps s₀ (s.dropRows a) := by
  unfold State.dropRows
  simp (maxDischargeDepth := 64) +contextual only [*, Keeps.ite, Keeps.ite_snd, Keeps.foldl, Keeps.foldl_snd, State.updGrf_keeps, implies_true]

theorem State.remoteRow_keeps (a : Agent) (t : Nat) (i : Nat) (hs : Keeps s₀ s) :
    Keeps s₀ (s.remoteRow a t i).2 := by
  unfold State.remoteRow
  simp (maxDischargeDepth := 64) +contextual only [*, Keeps.ite, Keeps.ite_snd, Keeps.foldl, Keeps.foldl_snd, State.bump_keeps, implies_true]

theorem State.gatherAll_keeps (a : Agent) (t : Nat) (is : List Nat) (hs : Keeps s₀ s) :
    Keeps s₀ (s.gatherAll a t is).2 := by
  unfold State.gatherAll
  simp (maxDischargeDepth := 64) +contextual only [*, Keeps.ite_snd, Keeps.foldl, Keeps.foldl_snd, State.askGather_keeps,
    implies_true]

theorem State.lookup_keeps (a : Agent) (t : Nat) (i : Nat) (hs : Keeps s₀ s) :
    Keeps s₀ (s.lookup a t i).2 := by
  unfold State.lookup
  simp (maxDischargeDepth := 64) +contextual only [*, Keeps.ite_snd, Keeps.ite, State.lookupRow_keeps,
    State.defaultRow_keeps, State.remoteRow_keeps, implies_true]

theorem State.countIndex_keeps (x : EtuTable) (i : Nat) (hs : Keeps s₀ s) :
    Keeps s₀ (s.countIndex x i) := by
  unfold State.countIndex
  simp (maxDischargeDepth := 64) +contextual only [*, Keeps.ite, State.bump_keeps, implies_true]

theorem State.lookupAll_keeps (a : Agent) (t : Nat) (l : List Nat) (hs : Keeps s₀ s) :
    Keeps s₀ (s.lookupAll a t l).2 := by
  induction l generalizing s with
  | nil => exact hs
  | cons a t ih =>
    unfold State.lookupAll
    simp (maxDischargeDepth := 64) +contextual only [*, Keeps.ite, Keeps.ite_snd, State.lookup_keeps, implies_true]

theorem State.etuState_keeps (hs : Keeps s₀ s) :
    Keeps s₀ (s.etuState) := by
  unfold State.etuState
  simp (maxDischargeDepth := 64) +contextual only [*, State.updCond_keeps, implies_true]

theorem State.updJob_keeps (n : Nat) (f : EtuJob → EtuJob) (hs : Keeps s₀ s) :
    Keeps s₀ (s.updJob n f) := by
  unfold State.updJob
  simp (maxDischargeDepth := 64) +contextual only [*, Keeps.ite, State.updEtu_keeps, implies_true]

theorem State.jobCode_keeps (n : Nat) (code : Nat) (hs : Keeps s₀ s) :
    Keeps s₀ (s.jobCode n code) := by
  unfold State.jobCode
  simp (maxDischargeDepth := 64) +contextual only [*, Keeps.ite, Keeps.ite_snd, Keeps.foldl, Keeps.foldl_snd, State.updJob_keeps, implies_true]

theorem State.rowError_keeps (n : Nat) (code : Nat) (hs : Keeps s₀ s) :
    Keeps s₀ (s.rowError n code) := by
  unfold State.rowError
  simp (maxDischargeDepth := 64) +contextual only [*, Keeps.ite, Keeps.ite_snd, Keeps.foldl, Keeps.foldl_snd, State.bump_keeps, State.updJob_keeps,
    State.jobCode_keeps, implies_true]

theorem State.etuJobEnd_keeps (n : Nat) (t : Nat) (code : Nat) (hs : Keeps s₀ s) :
    Keeps s₀ (s.etuJobEnd n t code) := by
  unfold State.etuJobEnd
  simp (maxDischargeDepth := 64) +contextual only [*, Keeps.ite, Keeps.ite_snd, Keeps.foldl, Keeps.foldl_snd, State.updEtu_keeps, State.event_keeps,
    State.error_keeps, State.etuLastErr_keeps, State.updRun_keeps, State.stageCode_keeps,
    State.etuState_keeps, implies_true]

theorem State.jobIndex_keeps (d : EtuDesc) (r : RunStage) (j : Nat) (hs : Keeps s₀ s) :
    Keeps s₀ (s.jobIndex d r j).2 := by
  unfold State.jobIndex
  simp (maxDischargeDepth := 64) +contextual only [*, Keeps.ite_snd, State.fetch_keeps, implies_true]

theorem State.jobIndices_keeps (d : EtuDesc) (r : RunStage) (l : List Nat) (hs : Keeps s₀ s) :
    Keeps s₀ (s.jobIndices d r l).2 := by
  induction l generalizing s with
  | nil => exact hs
  | cons a t ih =>
    unfold State.jobIndices
    simp (maxDischargeDepth := 64) +contextual only [*, Keeps.ite, Keeps.ite_snd, State.jobIndex_keeps, implies_true]

theorem State.outRow_keeps (d : EtuDesc) (r : RunStage) (j : Nat) (vals : List Nat) (bad : Bool) (code : Nat) (hs : Keeps s₀ s) :
    Keeps s₀ (s.outRow d r j vals bad code) := by
  unfold State.outRow
  simp (maxDischargeDepth := 64) +contextual only [*, Keeps.ite, State.stageWrite_keeps, State.rowError_keeps,
    implies_true]

theorem State.gatherStep_keeps (d : EtuDesc) (r : RunStage) (j : Nat) (hs : Keeps s₀ s) :
    Keeps s₀ (s.gatherStep d r j).2 := by
  unfold State.gatherStep
  simp (maxDischargeDepth := 64) +contextual only [*, Keeps.ite, Keeps.ite_snd, Keeps.foldl, Keeps.foldl_snd, State.gatherAll_keeps, State.lookup_keeps,
    State.countIndex_keeps, State.jobIndex_keeps, State.outRow_keeps, implies_true]

theorem State.bagCheck_keeps (d : EtuDesc) (r : RunStage) (hs : Keeps s₀ s) :
    Keeps s₀ (s.bagCheck d r) := by
  unfold State.bagCheck
  repeat' first
    | (simp (maxDischargeDepth := 64) +contextual only [*, Keeps.ite, Keeps.ite_snd, Keeps.foldl, Keeps.foldl_snd, State.touch_keeps, State.updJob_keeps,
        State.etuJobEnd_keeps, implies_true]; done)
    | split

theorem State.countPool_keeps (t : Nat) (is : List Nat) (hs : Keeps s₀ s) : Keeps s₀ (s.countPool t is) := by
  unfold State.countPool
  split
  · exact State.bump_keeps _ hs
  · exact hs

theorem State.poolStep_keeps (d : EtuDesc) (r : RunStage) (b : Nat) (hs : Keeps s₀ s) :
    Keeps s₀ (s.poolStep d r b).2 := by
  unfold State.poolStep
  simp (maxDischargeDepth := 64) +contextual only [*, Keeps.ite, Keeps.ite_snd, Keeps.foldl, Keeps.foldl_snd, State.drawFree_keeps, State.touch_keeps,
    State.defaultRow_keeps, State.gatherAll_keeps, State.countIndex_keeps, State.lookupAll_keeps,
    State.jobIndices_keeps, State.outRow_keeps, State.countPool_keeps, implies_true]

theorem State.bankAdd_keeps (t : Nat) (i : Nat) (first : Nat) (lanes : List Nat) (poisoned : Bool) (hs : Keeps s₀ s) :
    Keeps s₀ (s.bankAdd t i first lanes poisoned) := by
  unfold State.bankAdd
  simp (maxDischargeDepth := 64) +contextual only [*, Keeps.ite, Keeps.ite_snd, Keeps.foldl, Keeps.foldl_snd, State.bump_keeps, State.add32_keeps,
    implies_true]

theorem State.sendTadds_keeps (a : Agent) (j : Nat) (t : Nat) (i : Nat) (lanes : List Nat) (hs : Keeps s₀ s) :
    Keeps s₀ (s.sendTadds a j t i lanes) := by
  unfold State.sendTadds
  simp (maxDischargeDepth := 64) +contextual only [*, Keeps.ite, Keeps.ite_snd, Keeps.foldl, Keeps.foldl_snd, State.bump_keeps, State.request_keeps,
    implies_true]

theorem State.updateStep_keeps (d : EtuDesc) (r : RunStage) (j : Nat) (hs : Keeps s₀ s) :
    Keeps s₀ (s.updateStep d r j).2 := by
  unfold State.updateStep
  simp (maxDischargeDepth := 64) +contextual only [*, Keeps.ite, Keeps.ite_snd, Keeps.foldl, Keeps.foldl_snd, State.bumpBy_keeps, State.fetch_keeps,
    State.countIndex_keeps, State.rowError_keeps, State.jobIndex_keeps, State.bankAdd_keeps,
    State.sendTadds_keeps, implies_true]

theorem State.etuStep_keeps (d : EtuDesc) (r : RunStage) (j : Nat) (hs : Keeps s₀ s) :
    Keeps s₀ (s.etuStep d r j).2 := by
  unfold State.etuStep
  simp (maxDischargeDepth := 64) +contextual only [*, Keeps.ite_snd, Keeps.ite, State.gatherStep_keeps,
    State.poolStep_keeps, State.updateStep_keeps, implies_true]

theorem State.etuAdvance_keeps (d : EtuDesc) (r : RunStage) (upto f : Nat) (hs : Keeps s₀ s) :
    Keeps s₀ (State.etuAdvance d r upto f s) := by
  induction f generalizing s with
  | zero => exact hs
  | succ f ih =>
    unfold State.etuAdvance
    split
    · exact hs
    · dsimp only
      split
      · exact hs
      · split
        · exact hs
        · split
          · exact ih (State.updJob_keeps _ _ (State.dropRows_keeps _ (State.dropReads_keeps _ (State.etuStep_keeps _ _ _ hs))))
          · exact State.etuStep_keeps _ _ _ hs

theorem State.etuStart_keeps (d : EtuDesc) (r : RunStage) (hs : Keeps s₀ s) :
    Keeps s₀ (s.etuStart d r) := by
  unfold State.etuStart
  simp (maxDischargeDepth := 64) +contextual only [*, Keeps.ite, Keeps.ite_snd, Keeps.foldl, Keeps.foldl_snd, State.updEtu_keeps, State.etuState_keeps,
    State.etuJobEnd_keeps, implies_true]

theorem State.etuRun_keeps (n : Nat) (op : Nat) (upto : Nat) (hs : Keeps s₀ s) :
    Keeps s₀ (s.etuRun n op upto) := by
  unfold State.etuRun
  repeat' first
    | (simp (maxDischargeDepth := 64) +contextual only [*, Keeps.ite, Keeps.ite_snd, Keeps.foldl, Keeps.foldl_snd, State.asAgent_keeps, State.touch_keeps,
        State.bagCheck_keeps, State.etuAdvance_keeps, State.etuStart_keeps, implies_true]; done)
    | split
    | (dsimp only; split)

theorem State.etuDone_keeps (n : Nat) (hs : Keeps s₀ s) :
    Keeps s₀ (s.etuDone n) := by
  unfold State.etuDone
  repeat' first
    | (simp (maxDischargeDepth := 64) +contextual only [*, Keeps.ite, Keeps.ite_snd, Keeps.foldl, Keeps.foldl_snd, State.bumpBy_keeps, State.dropAcks_keeps,
        State.etuJobEnd_keeps, implies_true]; done)
    | split

theorem State.etuCmdEnd_keeps (code : Nat) (hs : Keeps s₀ s) :
    Keeps s₀ (s.etuCmdEnd code) := by
  unfold State.etuCmdEnd
  simp (maxDischargeDepth := 64) +contextual only [*, Keeps.ite, State.updEtu_keeps, State.setFld_keeps,
    State.event_keeps, State.etuState_keeps, implies_true]

theorem State.etuCmdBegin_keeps (c : EtuCmd) (hs : Keeps s₀ s) :
    Keeps s₀ (s.etuCmdBegin c) := by
  unfold State.etuCmdBegin
  simp (maxDischargeDepth := 64) +contextual only [*, State.updEtu_keeps, State.setFld_keeps, State.etuState_keeps,
    implies_true]

theorem State.etuCmdReject_keeps (op : Nat) (t : Nat) (code : Nat) (hs : Keeps s₀ s) :
    Keeps s₀ (s.etuCmdReject op t code) := by
  unfold State.etuCmdReject
  simp (maxDischargeDepth := 64) +contextual only [*, Keeps.ite, Keeps.ite_snd, Keeps.foldl, Keeps.foldl_snd, State.setFld_keeps, State.event_keeps,
    implies_true]

theorem State.etuDefine_keeps (t : Nat) (hs : Keeps s₀ s) :
    Keeps s₀ (s.etuDefine t) := by
  unfold State.etuDefine
  repeat' first
    | (simp (maxDischargeDepth := 64) +contextual only [*, Keeps.ite, Keeps.ite_snd, Keeps.foldl, Keeps.foldl_snd, Keeps.record, Keeps.record_drop,
        Keeps.record_drop2, State.asAgent_keeps, State.fetch_keeps, State.updTable_keeps,
        State.etuCmdBegin_keeps, State.etuCmdReject_keeps, implies_true]; done)
    | split
    | (dsimp only; split)

theorem State.forgetTable_keeps (t : Nat) (hs : Keeps s₀ s) :
    Keeps s₀ (s.forgetTable t) := by
  unfold State.forgetTable
  simp (maxDischargeDepth := 64) +contextual only [*, Keeps.ite, Keeps.ite_snd, Keeps.foldl, Keeps.foldl_snd, State.updEtu_keeps, implies_true]

theorem State.etuUndefine_keeps (t : Nat) (hs : Keeps s₀ s) :
    Keeps s₀ (s.etuUndefine t) := by
  unfold State.etuUndefine
  simp (maxDischargeDepth := 64) +contextual only [*, State.updTable_keeps, State.etuCmdBegin_keeps,
    State.forgetTable_keeps, implies_true]

theorem State.etuReplace_keeps (t : Nat) (hs : Keeps s₀ s) :
    Keeps s₀ (s.etuReplace t) := by
  unfold State.etuReplace
  repeat' first
    | (simp (maxDischargeDepth := 64) +contextual only [*, Keeps.ite, Keeps.ite_snd, Keeps.foldl, Keeps.foldl_snd, State.setFld_keeps, State.updTable_keeps,
        State.etuCmdBegin_keeps, State.etuCmdReject_keeps, implies_true]; done)
    | split

theorem State.etuFold_keeps (t : Nat) (hs : Keeps s₀ s) :
    Keeps s₀ (s.etuFold t) := by
  unfold State.etuFold
  simp (maxDischargeDepth := 64) +contextual only [*, Keeps.ite, Keeps.ite_snd, Keeps.foldl, Keeps.foldl_snd, State.setFld_keeps, State.updTable_keeps,
    State.etuCmdBegin_keeps, implies_true]

theorem State.etuUnmigrate_keeps (t : Nat) (hs : Keeps s₀ s) :
    Keeps s₀ (s.etuUnmigrate t) := by
  unfold State.etuUnmigrate
  simp (maxDischargeDepth := 64) +contextual only [*, State.setFld_keeps, State.etuCmdBegin_keeps, implies_true]

theorem State.etuCacheFlush_keeps (t : Nat) (hs : Keeps s₀ s) :
    Keeps s₀ (s.etuCacheFlush t) := by
  unfold State.etuCacheFlush
  simp (maxDischargeDepth := 64) +contextual only [*, State.updEtu_keeps, State.etuCmdBegin_keeps, implies_true]

theorem State.etuCommand_keeps (op : Nat) (t : Nat) (start : State → State) (hstart : ∀ x, Keeps s₀ x → Keeps s₀ (start x)) (hs : Keeps s₀ s) :
    Keeps s₀ (s.etuCommand op t start) := by
  unfold State.etuCommand
  simp (maxDischargeDepth := 64) +contextual only [*, Keeps.ite, Keeps.ite_snd, Keeps.foldl, Keeps.foldl_snd, State.etuCmdReject_keeps, implies_true]

theorem State.etuCmdWrite_keeps (op : Nat) (t : Nat) (hs : Keeps s₀ s) :
    Keeps s₀ (s.etuCmdWrite op t) := by
  unfold State.etuCmdWrite
  simp (maxDischargeDepth := 64) +contextual only [*, Keeps.ite, State.etuDefine_keeps, State.etuUndefine_keeps,
    State.etuReplace_keeps, State.etuFold_keeps, State.etuUnmigrate_keeps, State.etuCacheFlush_keeps,
    State.etuCommand_keeps, implies_true]

theorem State.writeEtuCmd_keeps (w : Nat) (op : Nat) (t : Nat) (hs : Keeps s₀ s) :
    Keeps s₀ (s.writeEtuCmd w op t) := by
  unfold State.writeEtuCmd
  simp (maxDischargeDepth := 64) +contextual only [*, Keeps.ite, Keeps.ite_snd, Keeps.foldl, Keeps.foldl_snd, State.error_keeps, State.wrote_keeps,
    State.onWrite_keeps, State.etuCmdWrite_keeps, implies_true]

theorem State.cmdCode_keeps (code : Nat) (hs : Keeps s₀ s) : Keeps s₀ (s.cmdCode code) := State.updEtu_keeps _ hs

theorem State.replaceRow_keeps (c : EtuCmd) (k : Nat) (hs : Keeps s₀ s) :
    Keeps s₀ (s.replaceRow c k) := by
  unfold State.replaceRow
  simp (maxDischargeDepth := 64) +contextual only [*, Keeps.ite, Keeps.ite_snd, Keeps.foldl, Keeps.foldl_snd, State.drawFree_keeps, State.write_keeps,
    State.fetch_keeps, State.uncache_keeps, State.cmdCode_keeps, implies_true]

theorem State.foldRow_keeps (c : EtuCmd) (k : Nat) (hs : Keeps s₀ s) :
    Keeps s₀ (s.foldRow c k) := by
  unfold State.foldRow
  repeat' first
    | (simp (maxDischargeDepth := 64) +contextual only [*, Keeps.ite, Keeps.ite_snd, State.updEtu_keeps, State.drawFree_keeps,
        State.bump_keeps, State.error_keeps, State.event_keeps, State.write_keeps, State.fetch_keeps, State.uncache_keeps, implies_true]; done)
    | split
    | (dsimp only; split)

theorem State.moveHome_keeps (t : Nat) (hs : Keeps s₀ s) :
    Keeps s₀ (s.moveHome t) := by
  unfold State.moveHome
  repeat' first
    | (simp (maxDischargeDepth := 64) +contextual only [*, Keeps.ite_snd, State.updEtu_keeps, State.write_keeps,
        State.fetch_keeps, State.uncache_keeps, implies_true]; done)
    | split

theorem State.cmdRow_keeps (c : EtuCmd) (hs : Keeps s₀ s) :
    Keeps s₀ (s.cmdRow c) := by
  unfold State.cmdRow
  simp (maxDischargeDepth := 64) +contextual only [*, Keeps.ite, State.replaceRow_keeps, State.foldRow_keeps,
    State.moveHome_keeps, implies_true]

theorem State.cmdRows_keeps (upto f : Nat) (hs : Keeps s₀ s) : Keeps s₀ (State.cmdRows upto f s) := by
  induction f generalizing s with
  | zero => exact hs
  | succ f ih =>
    unfold State.cmdRows
    split
    · exact hs
    · split
      · exact hs
      · exact ih (State.setFld_keeps _ _ (State.updEtu_keeps _ (State.cmdRow_keeps _ hs)))

theorem State.etuCmdDone_keeps (upto : Nat) (hs : Keeps s₀ s) :
    Keeps s₀ (s.etuCmdDone upto) := by
  unfold State.etuCmdDone
  repeat' first
    | (simp (maxDischargeDepth := 64) +contextual only [*, Keeps.ite, State.asAgent_keeps, State.updTable_keeps,
        State.etuCmdEnd_keeps, State.cmdRows_keeps, implies_true]; done)
    | split
    | (dsimp only; split)

theorem State.abortProxy_keeps (hs : Keeps s₀ s) :
    Keeps s₀ (s.abortProxy) := by
  unfold State.abortProxy
  repeat' first
    | (simp (maxDischargeDepth := 64) +contextual only [*, Keeps.ite, Keeps.ite_snd, Keeps.foldl, Keeps.foldl_snd, State.drawFree_keeps, State.updHrv_keeps,
        implies_true]; done)
    | split

theorem State.abortWaiting_keeps (x : Nat × StageRec × Nat) (hs : Keeps s₀ s) :
    Keeps s₀ (s.abortWaiting x) := by
  unfold State.abortWaiting
  simp (maxDischargeDepth := 64) +contextual only [*, Keeps.ite, Keeps.ite_snd, Keeps.foldl, Keeps.foldl_snd, State.etuLastErr_keeps, State.endStage_keeps,
    implies_true]

theorem State.etuSoftReset_keeps (hs : Keeps s₀ s) :
    Keeps s₀ (s.etuSoftReset) := by
  unfold State.etuSoftReset
  repeat' first
    | (simp (maxDischargeDepth := 64) +contextual only [*, Keeps.ite, Keeps.ite_snd, Keeps.foldl, Keeps.foldl_snd, State.updEtu_keeps, State.stopAgents_keeps,
        State.updTable_keeps, State.etuState_keeps, State.etuJobEnd_keeps, State.abortProxy_keeps,
        State.abortWaiting_keeps, implies_true]; done)
    | split
    | (dsimp only; split)

theorem State.skipMoves_keeps (n : Nat) (hs : Keeps s₀ s) :
    Keeps s₀ (s.skipMoves n) := by
  unfold State.skipMoves
  simp (maxDischargeDepth := 64) +contextual only [*, Keeps.ite, State.bumpBy_keeps, State.event_keeps, implies_true]

theorem State.loadWindowEnd_keeps (hs : Keeps s₀ s) :
    Keeps s₀ (s.loadWindowEnd) := by
  unfold State.loadWindowEnd
  simp (maxDischargeDepth := 64) +contextual only [*, Keeps.ite, Keeps.ite_snd, Keeps.foldl, Keeps.foldl_snd, State.drawFree_keeps, State.setFld_keeps,
    State.updEtu_keeps, State.event_keeps, State.skipMoves_keeps, implies_true]

theorem State.migrationMove_keeps (hs : Keeps s₀ s) :
    Keeps s₀ (s.migrationMove) := by
  unfold State.migrationMove
  repeat' first
    | (simp (maxDischargeDepth := 64) +contextual only [*, Keeps.ite, Keeps.ite_snd, State.updEtu_keeps, State.bump_keeps,
        State.event_keeps, State.asAgent_keeps, State.write_keeps, State.fetch_keeps, State.uncache_keeps,
        State.skipMoves_keeps, implies_true]; done)
    | split
    | (dsimp only; split)

theorem State.writeEtuCfg_keeps (w : Nat) (v : Word) (hs : Keeps s₀ s) :
    Keeps s₀ (s.writeEtuCfg w v) := by
  unfold State.writeEtuCfg
  simp (maxDischargeDepth := 64) +contextual only [*, Keeps.ite, State.updEtu_keeps, State.setFld_keeps,
    State.error_keeps, State.wrote_keeps, State.onRwl_keeps, implies_true]

theorem execEtuDefine_keeps (dt : Nat) (w : Nat) (table : Nat) {s₁ : State}
    (e : execEtuDefine dt w table s = .next s₁) : Keeps s s₁ := by
  unfold execEtuDefine at e
  obtain rfl := Host.Outcome.next.inj e
  simp (maxDischargeDepth := 64) +contextual only [*, Keeps.refl, State.arriveBy_keeps, State.writeEtuCmd_keeps,
    State.arrive_keeps, implies_true]

theorem execEtuUndefine_keeps (dt : Nat) (w : Nat) (table : Nat) {s₁ : State}
    (e : execEtuUndefine dt w table s = .next s₁) : Keeps s s₁ := by
  unfold execEtuUndefine at e
  obtain rfl := Host.Outcome.next.inj e
  simp (maxDischargeDepth := 64) +contextual only [*, Keeps.refl, State.arriveBy_keeps, State.writeEtuCmd_keeps,
    State.arrive_keeps, implies_true]

theorem execEtuReplace_keeps (dt : Nat) (w : Nat) (table : Nat) {s₁ : State}
    (e : execEtuReplace dt w table s = .next s₁) : Keeps s s₁ := by
  unfold execEtuReplace at e
  obtain rfl := Host.Outcome.next.inj e
  simp (maxDischargeDepth := 64) +contextual only [*, Keeps.refl, State.arriveBy_keeps, State.writeEtuCmd_keeps,
    State.arrive_keeps, implies_true]

theorem execEtuFold_keeps (dt : Nat) (w : Nat) (table : Nat) {s₁ : State}
    (e : execEtuFold dt w table s = .next s₁) : Keeps s s₁ := by
  unfold execEtuFold at e
  obtain rfl := Host.Outcome.next.inj e
  simp (maxDischargeDepth := 64) +contextual only [*, Keeps.refl, State.arriveBy_keeps, State.writeEtuCmd_keeps,
    State.arrive_keeps, implies_true]

theorem execEtuUnmigrate_keeps (dt : Nat) (w : Nat) (table : Nat) {s₁ : State}
    (e : execEtuUnmigrate dt w table s = .next s₁) : Keeps s s₁ := by
  unfold execEtuUnmigrate at e
  obtain rfl := Host.Outcome.next.inj e
  simp (maxDischargeDepth := 64) +contextual only [*, Keeps.refl, State.arriveBy_keeps, State.writeEtuCmd_keeps,
    State.arrive_keeps, implies_true]

theorem execEtuCacheFlush_keeps (dt : Nat) (w : Nat) (table : Nat) {s₁ : State}
    (e : execEtuCacheFlush dt w table s = .next s₁) : Keeps s s₁ := by
  unfold execEtuCacheFlush at e
  obtain rfl := Host.Outcome.next.inj e
  simp (maxDischargeDepth := 64) +contextual only [*, Keeps.refl, State.arriveBy_keeps, State.writeEtuCmd_keeps,
    State.arrive_keeps, implies_true]

theorem execEtuCmdDone_keeps (dt : Nat) (upto : Nat) {s₁ : State}
    (e : execEtuCmdDone dt upto s = .next s₁) : Keeps s s₁ := by
  unfold execEtuCmdDone at e
  obtain rfl := Host.Outcome.next.inj e
  simp (maxDischargeDepth := 64) +contextual only [*, Keeps.refl, State.arrive_keeps, State.etuCmdDone_keeps,
    implies_true]

theorem execEtuGather_keeps (dt : Nat) (stage : Nat) (upto : Nat) {s₁ : State}
    (e : execEtuGather dt stage upto s = .next s₁) : Keeps s s₁ := by
  unfold execEtuGather at e
  obtain rfl := Host.Outcome.next.inj e
  simp (maxDischargeDepth := 64) +contextual only [*, Keeps.refl, State.arrive_keeps, State.etuRun_keeps, implies_true]

theorem execEtuPool_keeps (dt : Nat) (stage : Nat) (upto : Nat) {s₁ : State}
    (e : execEtuPool dt stage upto s = .next s₁) : Keeps s s₁ := by
  unfold execEtuPool at e
  obtain rfl := Host.Outcome.next.inj e
  simp (maxDischargeDepth := 64) +contextual only [*, Keeps.refl, State.arrive_keeps, State.etuRun_keeps, implies_true]

theorem execEtuUpdate_keeps (dt : Nat) (stage : Nat) (upto : Nat) {s₁ : State}
    (e : execEtuUpdate dt stage upto s = .next s₁) : Keeps s s₁ := by
  unfold execEtuUpdate at e
  obtain rfl := Host.Outcome.next.inj e
  simp (maxDischargeDepth := 64) +contextual only [*, Keeps.refl, State.arrive_keeps, State.etuRun_keeps, implies_true]

theorem execEtuJobDone_keeps (dt : Nat) (stage : Nat) {s₁ : State}
    (e : execEtuJobDone dt stage s = .next s₁) : Keeps s s₁ := by
  unfold execEtuJobDone at e
  obtain rfl := Host.Outcome.next.inj e
  simp (maxDischargeDepth := 64) +contextual only [*, Keeps.refl, State.arrive_keeps, State.etuDone_keeps, implies_true]

theorem execLoadWindowEnd_keeps (dt : Nat) {s₁ : State}
    (e : execLoadWindowEnd dt s = .next s₁) : Keeps s s₁ := by
  unfold execLoadWindowEnd at e
  obtain rfl := Host.Outcome.next.inj e
  simp (maxDischargeDepth := 64) +contextual only [*, Keeps.refl, Keeps.ite, Keeps.ite_snd, Keeps.foldl, Keeps.foldl_snd, State.arrive_keeps,
    State.loadWindowEnd_keeps, implies_true]

theorem execMigrationMove_keeps (dt : Nat) {s₁ : State}
    (e : execMigrationMove dt s = .next s₁) : Keeps s s₁ := by
  unfold execMigrationMove at e
  obtain rfl := Host.Outcome.next.inj e
  simp (maxDischargeDepth := 64) +contextual only [*, Keeps.refl, State.arrive_keeps, State.migrationMove_keeps,
    implies_true]

theorem execCacheShareWrite_keeps (dt : Nat) (w : Nat) (v : Word) {s₁ : State}
    (e : execCacheShareWrite dt w v s = .next s₁) : Keeps s s₁ := by
  unfold execCacheShareWrite at e
  obtain rfl := Host.Outcome.next.inj e
  simp (maxDischargeDepth := 64) +contextual only [*, Keeps.refl, State.arriveBy_keeps, State.writeEtuCfg_keeps,
    State.arrive_keeps, implies_true]

end Sys2Proof.Machine
end

