-- ==== Sys2Proof/Laws/KeepsMemc.lean ====
section
/-! SUPPORT. What the operations of Machine/Memc.lean keep: the waiting commands and the canonical form (Laws/Keeps.lean). -/

namespace Sys2Proof.Machine

set_option linter.unusedSimpArgs false
set_option linter.unusedTactic false

variable {s₀ s : State}

theorem State.replied_keeps (r : Rd) (hs : Keeps s₀ s) :
    Keeps s₀ (s.replied r) := by
  unfold State.replied
  simp (maxDischargeDepth := 64) +contextual only [*, State.updMem_keeps, implies_true]

theorem State.churnRead_keeps (d : Nat) (n : Nat) (hs : Keeps s₀ s) :
    Keeps s₀ (s.churnRead d n) := by
  unfold State.churnRead
  simp (maxDischargeDepth := 64) +contextual only [*, Keeps.ite, Keeps.ite_snd, State.asAgent_keeps, State.fetch_keeps,
    State.replied_keeps, implies_true]

theorem State.churnWrite_keeps (d : Nat) (bs : List Byte) (poisoned : Bool) (hs : Keeps s₀ s) :
    Keeps s₀ (s.churnWrite d bs poisoned) := by
  unfold State.churnWrite
  simp (maxDischargeDepth := 64) +contextual only [*, Keeps.ite, Keeps.ite_snd, Keeps.foldl, Keeps.foldl_snd, State.write_keeps, State.performed_keeps,
    State.replied_keeps, implies_true]

theorem State.churnAdd_keeps (d : Nat) (mask : Nat) (addends : List Nat) (poisoned : Bool) (hs : Keeps s₀ s) :
    Keeps s₀ (s.churnAdd d mask addends poisoned) := by
  unfold State.churnAdd
  simp (maxDischargeDepth := 64) +contextual only [*, Keeps.ite, Keeps.ite_snd, Keeps.foldl, Keeps.foldl_snd, State.performed_keeps, State.add32_keeps,
    State.replied_keeps, implies_true]

theorem State.churnMerge_keeps (d : Nat) (con : List Byte) (poisoned : Bool) (hs : Keeps s₀ s) :
    Keeps s₀ (s.churnMerge d con poisoned) := by
  unfold State.churnMerge
  simp (maxDischargeDepth := 64) +contextual only [*, Keeps.ite, Keeps.ite_snd, Keeps.foldl, Keeps.foldl_snd, State.performed_keeps,
    State.summaryMerge_keeps, State.replied_keeps, implies_true]

theorem State.dequantRow_keeps (d : Nat) (fmt : Nat) (elems : Nat) (hs : Keeps s₀ s) :
    Keeps s₀ (s.dequantRow d fmt elems).2 := by
  unfold State.dequantRow
  simp (maxDischargeDepth := 64) +contextual only [*, Keeps.ite, Keeps.ite_snd, State.drawFree_keeps, State.fetch_keeps,
    implies_true]

theorem State.churnDequant_keeps (d : Nat) (fmt : Nat) (elems : Nat) (hs : Keeps s₀ s) :
    Keeps s₀ (s.churnDequant d fmt elems) := by
  unfold State.churnDequant
  repeat' first
    | (simp (maxDischargeDepth := 64) +contextual only [*, Keeps.ite, Keeps.ite_snd, State.bump_keeps, State.asAgent_keeps,
        State.replied_keeps, State.dequantRow_keeps, implies_true]; done)
    | split

theorem State.dequantRows_keeps (fmt : Nat) (elems : Nat) (l : List Nat) (hs : Keeps s₀ s) :
    Keeps s₀ (s.dequantRows fmt elems l).2 := by
  induction l generalizing s with
  | nil => exact hs
  | cons a t ih =>
    unfold State.dequantRows
    simp (maxDischargeDepth := 64) +contextual only [*, Keeps.ite, Keeps.ite_snd, State.dequantRow_keeps, implies_true]

theorem State.churnPool_keeps (ds : List Nat) (fmt : Nat) (elems : Nat) (mode : Nat) (hs : Keeps s₀ s) :
    Keeps s₀ (s.churnPool ds fmt elems mode) := by
  unfold State.churnPool
  repeat' first
    | (simp (maxDischargeDepth := 64) +contextual only [*, Keeps.ite, Keeps.ite_snd, State.drawFree_keeps, State.bumpBy_keeps,
        State.bump_keeps, State.asAgent_keeps, State.replied_keeps, State.dequantRows_keeps, implies_true]; done)
    | split
    | (dsimp only; split)

theorem State.arise_keeps (l : List Upset) (hs : Keeps s₀ s) :
    Keeps s₀ (s.arise l) := by
  unfold State.arise
  simp (maxDischargeDepth := 64) +contextual only [*, Keeps.ite, Keeps.ite_snd, Keeps.foldl, Keeps.foldl_snd, State.updMem_keeps, State.mendUnit_keeps,
    implies_true]

theorem State.readMr4_keeps (c : Nat) (code : Nat) (hs : Keeps s₀ s) :
    Keeps s₀ (s.readMr4 c code) := by
  unfold State.readMr4
  simp (maxDischargeDepth := 64) +contextual only [*, Keeps.ite, Keeps.ite_snd, Keeps.foldl, Keeps.foldl_snd, State.updMem_keeps, State.event_keeps,
    implies_true]

theorem State.scrubRead_keeps (c : Nat) (p : Nat) (hs : Keeps s₀ s) :
    Keeps s₀ (s.scrubRead c p) := by
  unfold State.scrubRead
  simp (maxDischargeDepth := 64) +contextual only [*, Keeps.ite, Keeps.ite_snd, Keeps.foldl, Keeps.foldl_snd, State.takeInjection_keeps,
    State.dramUeNoted_keeps, State.dramCe_keeps, State.meetPhys_keeps, implies_true]

theorem State.scrubNextLine_keeps (c : Nat) (hs : Keeps s₀ s) :
    Keeps s₀ (s.scrubNextLine c) := by
  unfold State.scrubNextLine
  simp (maxDischargeDepth := 64) +contextual only [*, Keeps.ite, Keeps.ite_snd, Keeps.foldl, Keeps.foldl_snd, State.updMem_keeps, State.bump_keeps,
    State.event_keeps, State.scrubRead_keeps, implies_true]

theorem State.scrubLine_keeps (c : Nat) (mr4 : Nat) (upsets : List Upset) (hs : Keeps s₀ s) :
    Keeps s₀ (s.scrubLine c mr4 upsets) := by
  unfold State.scrubLine
  simp (maxDischargeDepth := 64) +contextual only [*, Keeps.ite, Keeps.ite_snd, Keeps.foldl, Keeps.foldl_snd, State.arise_keeps, State.readMr4_keeps,
    State.scrubNextLine_keeps, implies_true]

theorem State.undefineTables_keeps (hs : Keeps s₀ s) :
    Keeps s₀ (s.undefineTables) := by
  unfold State.undefineTables
  simp (maxDischargeDepth := 64) +contextual only [*, Keeps.ite, Keeps.ite_snd, Keeps.foldl, Keeps.foldl_snd, State.updEtu_keeps, implies_true]

theorem State.writeShardCfg_keeps (c : Nat) (w : Nat) (v : Word) (hs : Keeps s₀ s) :
    Keeps s₀ (s.writeShardCfg c w v) := by
  unfold State.writeShardCfg
  simp (maxDischargeDepth := 64) +contextual only [*, Keeps.ite, Keeps.ite_snd, Keeps.foldl, Keeps.foldl_snd, State.updMem_keeps, State.error_keeps,
    State.wrote_keeps, State.onWrite_keeps, State.onRwl_keeps, State.undefineTables_keeps, implies_true]

theorem execChurnRead_keeps (dt : Nat) (addr : Nat) (n : Nat) {s₁ : State}
    (e : execChurnRead dt addr n s = .next s₁) : Keeps s s₁ := by
  unfold execChurnRead at e
  obtain rfl := Host.Outcome.next.inj e
  simp (maxDischargeDepth := 64) +contextual only [*, Keeps.refl, State.arrive_keeps, State.churnRead_keeps, implies_true]

theorem execChurnWrite_keeps (dt : Nat) (addr : Nat) (data : List Byte) (poison : Bool) {s₁ : State}
    (e : execChurnWrite dt addr data poison s = .next s₁) : Keeps s s₁ := by
  unfold execChurnWrite at e
  obtain rfl := Host.Outcome.next.inj e
  simp (maxDischargeDepth := 64) +contextual only [*, Keeps.refl, State.arrive_keeps, State.churnWrite_keeps,
    implies_true]

theorem execChurnAdd32_keeps (dt : Nat) (addr : Nat) (mask : Nat) (addends : List Nat) (poison : Bool) {s₁ : State}
    (e : execChurnAdd32 dt addr mask addends poison s = .next s₁) : Keeps s s₁ := by
  unfold execChurnAdd32 at e
  obtain rfl := Host.Outcome.next.inj e
  simp (maxDischargeDepth := 64) +contextual only [*, Keeps.refl, State.arrive_keeps, State.churnAdd_keeps, implies_true]

theorem execSummaryMerge_keeps (dt : Nat) (addr : Nat) (data : List Byte) (poison : Bool) {s₁ : State}
    (e : execSummaryMerge dt addr data poison s = .next s₁) : Keeps s s₁ := by
  unfold execSummaryMerge at e
  obtain rfl := Host.Outcome.next.inj e
  simp (maxDischargeDepth := 64) +contextual only [*, Keeps.refl, State.arrive_keeps, State.churnMerge_keeps,
    implies_true]

theorem execChurnDequant_keeps (dt : Nat) (addr : Nat) (fmt : Nat) (elems : Nat) {s₁ : State}
    (e : execChurnDequant dt addr fmt elems s = .next s₁) : Keeps s s₁ := by
  unfold execChurnDequant at e
  obtain rfl := Host.Outcome.next.inj e
  simp (maxDischargeDepth := 64) +contextual only [*, Keeps.refl, State.arrive_keeps, State.churnDequant_keeps,
    implies_true]

theorem execChurnPool_keeps (dt : Nat) (addrs : List Nat) (fmt : Nat) (elems : Nat) (mode : Nat) {s₁ : State}
    (e : execChurnPool dt addrs fmt elems mode s = .next s₁) : Keeps s s₁ := by
  unfold execChurnPool at e
  obtain rfl := Host.Outcome.next.inj e
  simp (maxDischargeDepth := 64) +contextual only [*, Keeps.refl, State.arrive_keeps, State.churnPool_keeps, implies_true]

theorem execScrubLine_keeps (dt : Nat) (chan : Nat) (mr4 : Nat) (upsets : List Upset) {s₁ : State}
    (e : execScrubLine dt chan mr4 upsets s = .next s₁) : Keeps s s₁ := by
  unfold execScrubLine at e
  obtain rfl := Host.Outcome.next.inj e
  simp (maxDischargeDepth := 64) +contextual only [*, Keeps.refl, Keeps.ite, Keeps.ite_snd, Keeps.foldl, Keeps.foldl_snd, State.arrive_keeps,
    State.scrubLine_keeps, implies_true]

theorem execShardCfgWrite_keeps (dt : Nat) (chan : Nat) (w : Nat) (v : Word) {s₁ : State}
    (e : execShardCfgWrite dt chan w v s = .next s₁) : Keeps s s₁ := by
  unfold execShardCfgWrite at e
  obtain rfl := Host.Outcome.next.inj e
  simp (maxDischargeDepth := 64) +contextual only [*, Keeps.refl, State.arriveBy_keeps, State.writeShardCfg_keeps,
    State.arrive_keeps, implies_true]

end Sys2Proof.Machine
end

