-- ==== Sys2Proof/Laws/KeepsTileOps.lean ====
section
/-! SUPPORT. What the operations of Machine/TileOps.lean keep: the waiting commands and the canonical form (Laws/Keeps.lean). -/

namespace Sys2Proof.Machine

set_option linter.unusedSimpArgs false
set_option linter.unusedTactic false

variable {s₀ s : State}

theorem State.fetchMasked_keeps (f d n : Nat) (h : Keeps s₀ s) : Keeps s₀ (State.fetchMasked f s d n).2 := by
  induction f generalizing s d n with
  | zero => exact h
  | succ f ih =>
    unfold State.fetchMasked
    split
    · exact h
    · exact ih _ _ (State.fetch_keeps _ _ h)

theorem State.fetchRows_keeps (n : Nat) (l : List Nat) (hs : Keeps s₀ s) :
    Keeps s₀ (s.fetchRows n l).2 := by
  induction l generalizing s with
  | nil => exact hs
  | cons a t ih =>
    unfold State.fetchRows
    simp (maxDischargeDepth := 64) +contextual only [*, Keeps.ite, Keeps.ite_snd, State.fetch_keeps, implies_true]

theorem State.fetchWeights_keeps (base : Nat) (wf : Nat) (first : Nat) (cnt : Nat) (hs : Keeps s₀ s) :
    Keeps s₀ (s.fetchWeights base wf first cnt).2 := by
  unfold State.fetchWeights
  simp (maxDischargeDepth := 64) +contextual only [*, Keeps.ite, Keeps.ite_snd, State.fetch_keeps, implies_true]

theorem State.fetchChannels_keeps (base : Nat) (wf : Nat) (cnt : Nat) (l : List Nat) (hs : Keeps s₀ s) :
    Keeps s₀ (s.fetchChannels base wf cnt l).2 := by
  induction l generalizing s with
  | nil => exact hs
  | cons a t ih =>
    unfold State.fetchChannels
    simp (maxDischargeDepth := 64) +contextual only [*, Keeps.ite, Keeps.ite_snd, State.fetchWeights_keeps, implies_true]

theorem State.opMatmul_keeps (r : RunStage) (t : Nat) (j : Nat) (o : TileOp) (hs : Keeps s₀ s) :
    Keeps s₀ (s.opMatmul r t j o).2 := by
  unfold State.opMatmul
  simp (maxDischargeDepth := 64) +contextual only [*, Keeps.ite_snd, Keeps.foldl, Keeps.foldl_snd, State.drawFree_keeps,
    State.fetchRows_keeps, State.fetchChannels_keeps, implies_true]

theorem State.opDconv_keeps (r : RunStage) (t : Nat) (j : Nat) (o : TileOp) (hs : Keeps s₀ s) :
    Keeps s₀ (s.opDconv r t j o).2 := by
  unfold State.opDconv
  simp (maxDischargeDepth := 64) +contextual only [*, Keeps.ite_snd, Keeps.foldl, Keeps.foldl_snd, State.drawFree_keeps,
    State.fetchRows_keeps, State.fetchChannels_keeps, implies_true]

theorem State.vecElem_keeps (o : TileOp) (a : Nat) (b : Nat) (i : Nat) (hs : Keeps s₀ s) :
    Keeps s₀ (s.vecElem o a b i).2 := by
  unfold State.vecElem
  simp (maxDischargeDepth := 64) +contextual only [*, Keeps.ite, Keeps.ite_snd, State.drawFree_keeps, State.fetch_keeps,
    implies_true]

theorem State.vecRow_keeps (o : TileOp) (a : Nat) (b : Nat) (l : List Nat) (hs : Keeps s₀ s) :
    Keeps s₀ (s.vecRow o a b l).2 := by
  induction l generalizing s with
  | nil => exact hs
  | cons a t ih =>
    unfold State.vecRow
    simp (maxDischargeDepth := 64) +contextual only [*, Keeps.ite, Keeps.ite_snd, State.vecElem_keeps, implies_true]

theorem State.minDist_keeps (a : Nat) (b : Nat) (d : Nat) (hs : Keeps s₀ s) :
    Keeps s₀ (s.minDist a b d).2 := by
  unfold State.minDist
  simp (maxDischargeDepth := 64) +contextual only [*, Keeps.ite_snd, Keeps.ite, State.drawFree_keeps, State.fetch_keeps,
    implies_true]

theorem State.vecRows_keeps (o : TileOp) (a : Nat) (b : Nat) (d : Nat) (l : List Nat) (hs : Keeps s₀ s) :
    Keeps s₀ (s.vecRows o a b d l).2 := by
  induction l generalizing s with
  | nil => exact hs
  | cons a t ih =>
    unfold State.vecRows
    simp (maxDischargeDepth := 64) +contextual only [*, Keeps.ite, Keeps.ite_snd, State.vecRow_keeps, State.minDist_keeps,
          implies_true]

theorem State.opVec_keeps (r : RunStage) (t : Nat) (j : Nat) (o : TileOp) (hs : Keeps s₀ s) :
    Keeps s₀ (s.opVec r t j o).2 := by
  unfold State.opVec
  simp (maxDischargeDepth := 64) +contextual only [*, Keeps.ite_snd, State.vecRows_keeps, implies_true]

theorem State.reduceRows_keeps (o : TileOp) (a : Nat) (d : Nat) (l : List Nat) (hs : Keeps s₀ s) :
    Keeps s₀ (s.reduceRows o a d l).2 := by
  induction l generalizing s with
  | nil => exact hs
  | cons a t ih =>
    unfold State.reduceRows
    simp (maxDischargeDepth := 64) +contextual only [*, Keeps.ite, Keeps.ite_snd, State.drawFree_keeps, State.fetch_keeps,
          implies_true]

theorem State.opReduce_keeps (r : RunStage) (t : Nat) (j : Nat) (o : TileOp) (hs : Keeps s₀ s) :
    Keeps s₀ (s.opReduce r t j o).2 := by
  unfold State.opReduce
  simp (maxDischargeDepth := 64) +contextual only [*, Keeps.ite_snd, State.reduceRows_keeps, implies_true]

theorem State.dmaRows_keeps (o : TileOp) (a : Nat) (d : Nat) (l : List Nat) (hs : Keeps s₀ s) :
    Keeps s₀ (s.dmaRows o a d l).2 := by
  induction l generalizing s with
  | nil => exact hs
  | cons a t ih =>
    unfold State.dmaRows
    simp (maxDischargeDepth := 64) +contextual only [*, Keeps.ite, Keeps.ite_snd, State.fetchMasked_keeps, implies_true]

theorem State.opDma_keeps (r : RunStage) (t : Nat) (j : Nat) (o : TileOp) (hs : Keeps s₀ s) :
    Keeps s₀ (s.opDma r t j o).2 := by
  unfold State.opDma
  simp (maxDischargeDepth := 64) +contextual only [*, Keeps.ite_snd, State.dmaRows_keeps, implies_true]

theorem State.gatherRows_keeps (o : TileOp) (a : Nat) (b : Nat) (d : Nat) (l : List Nat) (hs : Keeps s₀ s) :
    Keeps s₀ (s.gatherRows o a b d l).2 := by
  induction l generalizing s with
  | nil => exact hs
  | cons a t ih =>
    unfold State.gatherRows
    simp (maxDischargeDepth := 64) +contextual only [*, Keeps.ite, Keeps.ite_snd, State.fetch_keeps,
          State.fetchMasked_keeps, implies_true]

theorem State.opGather_keeps (r : RunStage) (t : Nat) (j : Nat) (o : TileOp) (hs : Keeps s₀ s) :
    Keeps s₀ (s.opGather r t j o).2 := by
  unfold State.opGather
  simp (maxDischargeDepth := 64) +contextual only [*, Keeps.ite_snd, State.gatherRows_keeps, implies_true]

end Sys2Proof.Machine
end

