-- ==== Sys2Proof/Laws/KeepsTile.lean ====
section
/-! SUPPORT. What the operations of Machine/Tile.lean keep: the waiting commands and the canonical form (Laws/Keeps.lean). -/

namespace Sys2Proof.Machine

set_option linter.unusedSimpArgs false
set_option linter.unusedTactic false

variable {s₀ s : State}

theorem State.hrvEnqueue_keeps (q : HrvReq) (hs : Keeps s₀ s) :
    Keeps s₀ (s.hrvEnqueue q) := by
  unfold State.hrvEnqueue
  simp (maxDischargeDepth := 64) +contextual only [*, Keeps.ite, Keeps.ite_snd, Keeps.foldl, Keeps.foldl_snd, State.setFld_keeps, State.updHrv_keeps,
    implies_true]

theorem State.hrvTileRequest_keeps (q : HrvReq) (hs : Keeps s₀ s) :
    Keeps s₀ (s.hrvTileRequest q) := by
  unfold State.hrvTileRequest
  simp (maxDischargeDepth := 64) +contextual only [*, Keeps.ite, Keeps.ite_snd, Keeps.foldl, Keeps.foldl_snd, State.updHrv_keeps, State.bump_keeps,
    State.event_keeps, State.hrvEnqueue_keeps, implies_true]

theorem State.hrvAdmit_keeps (hs : Keeps s₀ s) :
    Keeps s₀ (s.hrvAdmit) := by
  unfold State.hrvAdmit
  repeat' first
    | (simp (maxDischargeDepth := 64) +contextual only [*, Keeps.ite, State.updHrv_keeps, State.hrvEnqueue_keeps, implies_true]; done)
    | split

theorem State.hrvCount_keeps (q : HrvReq) (row : Nat) (code : Nat) (hs : Keeps s₀ s) :
    Keeps s₀ (s.hrvCount q row code) := by
  unfold State.hrvCount
  simp (maxDischargeDepth := 64) +contextual only [*, Keeps.ite, Keeps.ite_snd, Keeps.foldl, Keeps.foldl_snd, State.setFld_keeps, State.bump_keeps,
    State.event_keeps, implies_true]

theorem State.tileLastErr_keeps (n : Nat) (code : Nat) (op : Nat) (hs : Keeps s₀ s) :
    Keeps s₀ (s.tileLastErr n code op) := by
  unfold State.tileLastErr
  simp (maxDischargeDepth := 64) +contextual only [*, Keeps.ite, Keeps.ite_snd, Keeps.foldl, Keeps.foldl_snd, State.setFld_keeps, implies_true]

theorem State.setTag_keeps (n : Nat) (t : Nat) (v : Bool) (hs : Keeps s₀ s) :
    Keeps s₀ (s.setTag n t v) := by
  unfold State.setTag
  simp (maxDischargeDepth := 64) +contextual only [*, Keeps.ite, State.setFld_keeps, implies_true]

theorem State.touchOp_keeps (n : Nat) (r : RunStage) (hs : Keeps s₀ s) :
    Keeps s₀ (s.touchOp n r) := by
  unfold State.touchOp
  simp (maxDischargeDepth := 64) +contextual only [*, Keeps.ite, Keeps.ite_snd, Keeps.foldl, Keeps.foldl_snd, State.touch_keeps, implies_true]

theorem State.tileAdvance_keeps (n : Nat) (hs : Keeps s₀ s) :
    Keeps s₀ (s.tileAdvance n) := by
  unfold State.tileAdvance
  repeat' first
    | (simp (maxDischargeDepth := 64) +contextual only [*, Keeps.ite, Keeps.ite_snd, Keeps.foldl, Keeps.foldl_snd, State.bump_keeps, State.updTile_keeps,
        State.updRun_keeps, implies_true]; done)
    | split
    | (dsimp only; split)

theorem State.itemStart_keeps (n : Nat) (hs : Keeps s₀ s) :
    Keeps s₀ (s.itemStart n) := by
  unfold State.itemStart
  repeat' first
    | (simp (maxDischargeDepth := 64) +contextual only [*, Keeps.ite, Keeps.ite_snd, Keeps.foldl, Keeps.foldl_snd, State.updTile_keeps, State.updRun_keeps,
        implies_true]; done)
    | split

theorem State.tileLogicFault_keeps (n : Nat) (hs : Keeps s₀ s) :
    Keeps s₀ (s.tileLogicFault n) := by
  unfold State.tileLogicFault
  repeat' first
    | (simp (maxDischargeDepth := 64) +contextual only [*, Keeps.ite, Keeps.ite_snd, Keeps.foldl, Keeps.foldl_snd, State.updCond_keeps, State.error_keeps,
        State.stopTiles_keeps, State.dropCompute_keeps, State.pageFault_keeps, State.endStage_keeps,
        State.tileLastErr_keeps, implies_true]; done)
    | split
    | (dsimp only; split)

/-- A byte of a race is the old or the new one (R390). -/
theorem mixBytes_old_or_new (v : Nat) (old new : List Byte) (i : Nat) (h : i < new.length) :
    (mixBytes v old new)[i]? = some new[i] ∨ (mixBytes v old new)[i]? = some (old.getD i new[i]) := by
  simp only [mixBytes, List.getElem?_mapIdx, List.getElem?_eq_getElem h, Option.map_some]
  split
  · exact .inl rfl
  · exact .inr rfl

theorem State.opEarly_keeps (n : Nat) (r : RunStage) (hs : Keeps s₀ s) :
    Keeps s₀ (s.opEarly n r) := by
  unfold State.opEarly
  simp (maxDischargeDepth := 64) +contextual only [*, Keeps.ite, Keeps.ite_snd, Keeps.foldl, Keeps.foldl_snd, State.drawFree_keeps, State.poke_keeps,
    implies_true]

theorem State.issue_keeps (n : Nat) (opc : Nat) (unit : Nat) (f : State → RunStage → Nat → TileOp → OpOut × State) (hf : ∀ x y0 y1 y2, Keeps s₀ x → Keeps s₀ (f x y0 y1 y2).2) (hs : Keeps s₀ s) :
    Keeps s₀ (s.issue n opc unit f) := by
  unfold State.issue
  repeat' first
    | (simp (maxDischargeDepth := 64) +contextual only [*, Keeps.ite, Keeps.ite_snd, Keeps.foldl, Keeps.foldl_snd, State.updTile_keeps,
        State.takeInjection_keeps, State.dropReads_keeps, State.asAgent_keeps, State.setTag_keeps,
        State.touchOp_keeps, State.tileLogicFault_keeps, State.opEarly_keeps, implies_true]; done)
    | split

theorem State.opWrites_keeps (n : Nat) (r : RunStage) (x : OpRun) (hs : Keeps s₀ s) :
    Keeps s₀ (s.opWrites n r x) := by
  unfold State.opWrites
  simp (maxDischargeDepth := 64) +contextual only [*, Keeps.ite, Keeps.ite_snd, Keeps.foldl, Keeps.foldl_snd,
    State.updTile_keeps, State.asAgent_keeps, State.stageWrite_keeps, State.drawFree_keeps, implies_true]

theorem State.opComplete_keeps (n : Nat) (unit : Nat) (hs : Keeps s₀ s) :
    Keeps s₀ (s.opComplete n unit) := by
  unfold State.opComplete
  repeat' first
    | (simp (maxDischargeDepth := 64) +contextual only [*, Keeps.ite, Keeps.ite_snd, Keeps.foldl, Keeps.foldl_snd, State.drawFree_keeps, State.bumpBy_keeps,
        State.bump_keeps, State.event_keeps, State.error_keeps, State.updTile_keeps, State.dropAcks_keeps,
        State.stageCode_keeps, State.tileLastErr_keeps, State.setTag_keeps, State.tileAdvance_keeps,
        State.opWrites_keeps, implies_true]; done)
    | split

theorem State.opEnd_keeps (n : Nat) (unit : Nat) (mismatch : Bool) (hs : Keeps s₀ s) :
    Keeps s₀ (s.opEnd n unit mismatch) := by
  unfold State.opEnd
  simp (maxDischargeDepth := 64) +contextual only [*, Keeps.ite, Keeps.ite_snd, Keeps.foldl, Keeps.foldl_snd, State.tileLogicFault_keeps,
    State.opComplete_keeps, implies_true]

theorem State.opHrv_keeps (n : Nat) (hs : Keeps s₀ s) :
    Keeps s₀ (s.opHrv n) := by
  unfold State.opHrv
  repeat' first
    | (simp (maxDischargeDepth := 64) +contextual only [*, Keeps.ite, Keeps.ite_snd, Keeps.foldl, Keeps.foldl_snd, State.bump_keeps, State.event_keeps,
        State.error_keeps, State.updTile_keeps, State.takeInjection_keeps, State.asAgent_keeps,
        State.write_keeps, State.stageCode_keeps, State.fetchMasked_keeps, State.hrvTileRequest_keeps,
        State.hrvCount_keeps, State.tileLastErr_keeps, State.setTag_keeps, State.touchOp_keeps,
        State.tileAdvance_keeps, State.tileLogicFault_keeps, State.opEarly_keeps, implies_true]; done)
    | split

theorem State.hrvTileDone_keeps (q : HrvReq) (code : Nat) (hs : Keeps s₀ s) :
    Keeps s₀ (s.hrvTileDone q code) := by
  unfold State.hrvTileDone
  repeat' first
    | (simp (maxDischargeDepth := 64) +contextual only [*, Keeps.ite, Keeps.ite_snd, Keeps.foldl, Keeps.foldl_snd, State.bump_keeps, State.updTile_keeps,
        State.tileLastErr_keeps, State.setTag_keeps, State.tileAdvance_keeps, implies_true]; done)
    | split

theorem State.opFence_keeps (n : Nat) (hs : Keeps s₀ s) :
    Keeps s₀ (s.opFence n) := by
  unfold State.opFence
  repeat' first
    | (simp (maxDischargeDepth := 64) +contextual only [*, Keeps.ite, Keeps.ite_snd, Keeps.foldl, Keeps.foldl_snd, State.updTile_keeps,
        State.takeInjection_keeps, State.touchOp_keeps, State.tileAdvance_keeps, State.tileLogicFault_keeps,
        implies_true]; done)
    | split

theorem State.tileGate_keeps (n : Nat) (hs : Keeps s₀ s) :
    Keeps s₀ (s.tileGate n) := by
  unfold State.tileGate
  simp (maxDischargeDepth := 64) +contextual only [*, Keeps.ite, State.event_keeps, State.updCond_keeps, implies_true]

theorem State.wakePlanTiles_keeps (hs : Keeps s₀ s) :
    Keeps s₀ (s.wakePlanTiles) := by
  unfold State.wakePlanTiles
  simp (maxDischargeDepth := 64) +contextual only [*, Keeps.foldl, State.wakeTile_keeps, implies_true]

theorem State.powerTile_keeps (n : Nat) (hs : Keeps s₀ s) :
    Keeps s₀ (s.powerTile n) := by
  unfold State.powerTile
  simp (maxDischargeDepth := 64) +contextual only [*, Keeps.ite, State.event_keeps, State.updCond_keeps,
    State.updTile_keeps, implies_true]

theorem State.tileWake_keeps (n : Nat) (hs : Keeps s₀ s) :
    Keeps s₀ (s.tileWake n) := by
  unfold State.tileWake
  simp (maxDischargeDepth := 64) +contextual only [*, Keeps.ite, State.powerTile_keeps, implies_true]

theorem State.writeTilePwr_keeps (n : Nat) (w : Nat) (v : Word) (hs : Keeps s₀ s) :
    Keeps s₀ (s.writeTilePwr n w v) := by
  unfold State.writeTilePwr
  dsimp only
  have wake : ∀ x, Keeps s₀ x → Keeps s₀ (if getBits v 1 1 = 1 then x.wakeTile n else x) :=
    fun x hx => Keeps.ite (State.wakeTile_keeps _ hx) hx
  split
  · next t e => exact Keeps.ite (wake _ (State.portCheck_keeps _ _ _ hs e)) (State.portCheck_keeps _ _ _ hs e)
  · exact State.wrote_keeps _ _ (wake _ (Keeps.ite (State.setFld_keeps _ _ (State.setFld_keeps _ _ hs)) (State.error_keeps _ _ _ hs)))

theorem State.testWindowOpen_keeps (hs : Keeps s₀ s) :
    Keeps s₀ (s.testWindowOpen) := by
  unfold State.testWindowOpen
  simp (maxDischargeDepth := 64) +contextual only [*, Keeps.ite, Keeps.ite_snd, Keeps.foldl, Keeps.foldl_snd, State.updFrm_keeps, State.updTile_keeps,
    State.powerTile_keeps, implies_true]

theorem State.withdrawTile_keeps (n : Nat) (hs : Keeps s₀ s) :
    Keeps s₀ (s.withdrawTile n) := by
  unfold State.withdrawTile
  simp (maxDischargeDepth := 64) +contextual only [*, Keeps.ite, Keeps.ite_snd, Keeps.foldl, Keeps.foldl_snd, State.setFld_keeps, State.event_keeps,
    State.updCond_keeps, State.error_keeps, State.updTile_keeps, State.latch_keeps, State.pageFault_keeps,
    State.tileLastErr_keeps, implies_true]

theorem State.testResult_keeps (n : Nat) (pass : Bool) (hs : Keeps s₀ s) :
    Keeps s₀ (s.testResult n pass) := by
  unfold State.testResult
  simp (maxDischargeDepth := 64) +contextual only [*, Keeps.ite, State.setFld_keeps, State.bump_keeps, State.event_keeps,
    State.updTile_keeps, State.withdrawTile_keeps, implies_true]

theorem State.testDone_keeps (n : Nat) (pass : Bool) (hs : Keeps s₀ s) :
    Keeps s₀ (s.testDone n pass) := by
  unfold State.testDone
  simp (maxDischargeDepth := 64) +contextual only [*, Keeps.ite, Keeps.ite_snd, Keeps.foldl, Keeps.foldl_snd, State.setFld_keeps, State.updFrm_keeps,
    State.updTile_keeps, State.takeInjection_keeps, State.testResult_keeps, implies_true]

theorem State.testAbort_keeps (hs : Keeps s₀ s) :
    Keeps s₀ (s.testAbort) := by
  unfold State.testAbort
  repeat' first
    | (simp (maxDischargeDepth := 64) +contextual only [*, Keeps.ite, Keeps.ite_snd, Keeps.foldl, Keeps.foldl_snd, Keeps.record, Keeps.record_drop,
        Keeps.record_drop2, State.setFld_keeps, State.updFrm_keeps, State.bump_keeps, State.updTile_keeps,
        implies_true]; done)
    | split

theorem State.testSkip_keeps (hs : Keeps s₀ s) :
    Keeps s₀ (s.testSkip) := by
  unfold State.testSkip
  simp (maxDischargeDepth := 64) +contextual only [*, Keeps.ite, Keeps.ite_snd, Keeps.foldl, Keeps.foldl_snd, State.updFrm_keeps, State.bump_keeps,
    implies_true]

theorem State.testOverdue_keeps (n : Nat) (hs : Keeps s₀ s) :
    Keeps s₀ (s.testOverdue n) := by
  unfold State.testOverdue
  simp (maxDischargeDepth := 64) +contextual only [*, Keeps.ite, Keeps.ite_snd, Keeps.foldl, Keeps.foldl_snd, State.event_keeps, State.error_keeps,
    State.updTile_keeps, State.latch_keeps, implies_true]

theorem State.writeTestReq_keeps (w : Nat) (v : Word) (hs : Keeps s₀ s) :
    Keeps s₀ (s.writeTestReq w v) := by
  unfold State.writeTestReq
  simp (maxDischargeDepth := 64) +contextual only [*, Keeps.ite, Keeps.ite_snd, Keeps.foldl, Keeps.foldl_snd, State.setFld_keeps, State.updFrm_keeps,
    State.wrote_keeps, State.onWrite_keeps, implies_true]

theorem execTileItemStart_keeps (dt : Nat) (tile : Nat) {s₁ : State}
    (e : execTileItemStart dt tile s = .next s₁) : Keeps s s₁ := by
  unfold execTileItemStart at e
  obtain rfl := Host.Outcome.next.inj e
  simp (maxDischargeDepth := 64) +contextual only [*, Keeps.refl, State.arrive_keeps, State.itemStart_keeps, implies_true]

theorem execTileMatmul_keeps (dt : Nat) (tile : Nat) {s₁ : State}
    (e : execTileMatmul dt tile s = .next s₁) : Keeps s s₁ := by
  unfold execTileMatmul at e
  obtain rfl := Host.Outcome.next.inj e
  simp (maxDischargeDepth := 64) +contextual only [*, Keeps.refl, State.arrive_keeps, State.opMatmul_keeps,
    State.issue_keeps, implies_true]

theorem execTileDconv_keeps (dt : Nat) (tile : Nat) {s₁ : State}
    (e : execTileDconv dt tile s = .next s₁) : Keeps s s₁ := by
  unfold execTileDconv at e
  obtain rfl := Host.Outcome.next.inj e
  simp (maxDischargeDepth := 64) +contextual only [*, Keeps.refl, State.arrive_keeps, State.opDconv_keeps,
    State.issue_keeps, implies_true]

theorem execTileVec_keeps (dt : Nat) (tile : Nat) {s₁ : State}
    (e : execTileVec dt tile s = .next s₁) : Keeps s s₁ := by
  unfold execTileVec at e
  obtain rfl := Host.Outcome.next.inj e
  simp (maxDischargeDepth := 64) +contextual only [*, Keeps.refl, State.arrive_keeps, State.opVec_keeps,
    State.issue_keeps, implies_true]

theorem execTileReduce_keeps (dt : Nat) (tile : Nat) {s₁ : State}
    (e : execTileReduce dt tile s = .next s₁) : Keeps s s₁ := by
  unfold execTileReduce at e
  obtain rfl := Host.Outcome.next.inj e
  simp (maxDischargeDepth := 64) +contextual only [*, Keeps.refl, State.arrive_keeps, State.opReduce_keeps,
    State.issue_keeps, implies_true]

theorem execTileDma_keeps (dt : Nat) (tile : Nat) {s₁ : State}
    (e : execTileDma dt tile s = .next s₁) : Keeps s s₁ := by
  unfold execTileDma at e
  obtain rfl := Host.Outcome.next.inj e
  simp (maxDischargeDepth := 64) +contextual only [*, Keeps.refl, State.arrive_keeps, State.opDma_keeps,
    State.issue_keeps, implies_true]

theorem execTileGather_keeps (dt : Nat) (tile : Nat) {s₁ : State}
    (e : execTileGather dt tile s = .next s₁) : Keeps s s₁ := by
  unfold execTileGather at e
  obtain rfl := Host.Outcome.next.inj e
  simp (maxDischargeDepth := 64) +contextual only [*, Keeps.refl, State.arrive_keeps, State.opGather_keeps,
    State.issue_keeps, implies_true]

theorem execTileHrv_keeps (dt : Nat) (tile : Nat) {s₁ : State}
    (e : execTileHrv dt tile s = .next s₁) : Keeps s s₁ := by
  unfold execTileHrv at e
  obtain rfl := Host.Outcome.next.inj e
  simp (maxDischargeDepth := 64) +contextual only [*, Keeps.refl, State.arrive_keeps, State.opHrv_keeps, implies_true]

theorem execTileFence_keeps (dt : Nat) (tile : Nat) {s₁ : State}
    (e : execTileFence dt tile s = .next s₁) : Keeps s s₁ := by
  unfold execTileFence at e
  obtain rfl := Host.Outcome.next.inj e
  simp (maxDischargeDepth := 64) +contextual only [*, Keeps.refl, State.arrive_keeps, State.opFence_keeps, implies_true]

theorem execTileOpComplete_keeps (dt : Nat) (tile : Nat) (unit : Nat) (mismatch : Bool) {s₁ : State}
    (e : execTileOpComplete dt tile unit mismatch s = .next s₁) : Keeps s s₁ := by
  unfold execTileOpComplete at e
  obtain rfl := Host.Outcome.next.inj e
  simp (maxDischargeDepth := 64) +contextual only [*, Keeps.refl, Keeps.ite, Keeps.ite_snd, Keeps.foldl, Keeps.foldl_snd, State.arrive_keeps,
    State.opEnd_keeps, implies_true]

theorem execTileGate_keeps (dt : Nat) (tile : Nat) {s₁ : State}
    (e : execTileGate dt tile s = .next s₁) : Keeps s s₁ := by
  unfold execTileGate at e
  obtain rfl := Host.Outcome.next.inj e
  simp (maxDischargeDepth := 64) +contextual only [*, Keeps.refl, State.arrive_keeps, State.tileGate_keeps, implies_true]

theorem execTileWake_keeps (dt : Nat) (tile : Nat) {s₁ : State}
    (e : execTileWake dt tile s = .next s₁) : Keeps s s₁ := by
  unfold execTileWake at e
  obtain rfl := Host.Outcome.next.inj e
  simp (maxDischargeDepth := 64) +contextual only [*, Keeps.refl, State.arrive_keeps, State.tileWake_keeps, implies_true]

theorem execTileWakeCmd_keeps (dt : Nat) (tile : Nat) (w : Nat) (v : Word) {s₁ : State}
    (e : execTileWakeCmd dt tile w v s = .next s₁) : Keeps s s₁ := by
  unfold execTileWakeCmd at e
  obtain rfl := Host.Outcome.next.inj e
  simp (maxDischargeDepth := 64) +contextual only [*, Keeps.refl, State.arriveBy_keeps, State.writeTilePwr_keeps,
    State.arrive_keeps, implies_true]

theorem execTestWindowOpen_keeps (dt : Nat) {s₁ : State}
    (e : execTestWindowOpen dt s = .next s₁) : Keeps s s₁ := by
  unfold execTestWindowOpen at e
  obtain rfl := Host.Outcome.next.inj e
  simp (maxDischargeDepth := 64) +contextual only [*, Keeps.refl, State.arrive_keeps, State.testWindowOpen_keeps,
    implies_true]

theorem execTestDone_keeps (dt : Nat) (tile : Nat) (pass : Bool) {s₁ : State}
    (e : execTestDone dt tile pass s = .next s₁) : Keeps s s₁ := by
  unfold execTestDone at e
  obtain rfl := Host.Outcome.next.inj e
  simp (maxDischargeDepth := 64) +contextual only [*, Keeps.refl, State.arrive_keeps, State.testDone_keeps, implies_true]

theorem execTestReq_keeps (dt : Nat) (w : Nat) (v : Word) {s₁ : State}
    (e : execTestReq dt w v s = .next s₁) : Keeps s s₁ := by
  unfold execTestReq at e
  obtain rfl := Host.Outcome.next.inj e
  simp (maxDischargeDepth := 64) +contextual only [*, Keeps.refl, State.arriveBy_keeps, State.writeTestReq_keeps,
    State.arrive_keeps, implies_true]

theorem execTestOverdue_keeps (dt : Nat) (tile : Nat) {s₁ : State}
    (e : execTestOverdue dt tile s = .next s₁) : Keeps s s₁ := by
  unfold execTestOverdue at e
  obtain rfl := Host.Outcome.next.inj e
  simp (maxDischargeDepth := 64) +contextual only [*, Keeps.refl, State.arrive_keeps, State.testOverdue_keeps,
    implies_true]

end Sys2Proof.Machine
end

