-- ==== Sys2Proof/Laws/KeepsHarvest.lean ====
section
/-! SUPPORT. What the operations of Machine/Harvest.lean keep: the waiting commands and the canonical form (Laws/Keeps.lean). -/

namespace Sys2Proof.Machine

set_option linter.unusedSimpArgs false
set_option linter.unusedTactic false

variable {s₀ s : State}

theorem State.gatherRead_keeps (d : Nat) (n : Nat) (hs : Keeps s₀ s) :
    Keeps s₀ (s.gatherRead d n).2 := by
  unfold State.gatherRead
  simp (maxDischargeDepth := 64) +contextual only [*, Keeps.ite, Keeps.ite_snd, Keeps.foldl, Keeps.foldl_snd, State.fetch_keeps, implies_true]

theorem State.payEtu_keeps (q : HrvReq) (d : HrvDesc) (idx : Nat) (hs : Keeps s₀ s) :
    Keeps s₀ (s.payEtu q d idx).2 := by
  unfold State.payEtu
  simp (maxDischargeDepth := 64) +contextual only [*, Keeps.ite, Keeps.ite_snd, Keeps.foldl, Keeps.foldl_snd, State.bump_keeps, State.lookupRow_keeps,
    State.defaultRow_keeps, State.countIndex_keeps, State.gatherRead_keeps, implies_true]

theorem State.payOne_keeps (q : HrvReq) (d : HrvDesc) (idx : Nat) (hs : Keeps s₀ s) :
    Keeps s₀ (s.payOne q d idx).2 := by
  unfold State.payOne
  simp (maxDischargeDepth := 64) +contextual only [*, Keeps.ite, Keeps.ite_snd, Keeps.foldl, Keeps.foldl_snd, State.gatherRead_keeps, State.payEtu_keeps,
    implies_true]

theorem State.payAll_keeps (q : HrvReq) (d : HrvDesc) (l : List Key) (hs : Keeps s₀ s) :
    Keeps s₀ (s.payAll q d l).2 := by
  induction l generalizing s with
  | nil => exact hs
  | cons a t ih =>
    unfold State.payAll
    simp (maxDischargeDepth := 64) +contextual only [*, Keeps.ite, Keeps.ite_snd, State.payOne_keeps, implies_true]

theorem State.hrvRow_keeps (q : HrvReq) (d : HrvDesc) (r : Nat) (hs : Keeps s₀ s) :
    Keeps s₀ (s.hrvRow q d r).2 := by
  unfold State.hrvRow
  simp (maxDischargeDepth := 64) +contextual only [*, Keeps.ite, Keeps.ite_snd, State.drawFree_keeps, State.bumpBy_keeps,
    State.event_keeps, State.error_keeps, State.fetch_keeps, State.payAll_keeps, implies_true]

theorem State.hrvRows_keeps (q : HrvReq) (d : HrvDesc) (l : List Nat) (hs : Keeps s₀ s) :
    Keeps s₀ (s.hrvRows q d l).2 := by
  induction l generalizing s with
  | nil => exact hs
  | cons a t ih =>
    unfold State.hrvRows
    simp (maxDischargeDepth := 64) +contextual only [*, Keeps.ite, Keeps.ite_snd, State.hrvRow_keeps, implies_true]

theorem State.hrvServe_keeps (op : Nat) (hs : Keeps s₀ s) :
    Keeps s₀ (s.hrvServe op) := by
  unfold State.hrvServe
  repeat' first
    | (simp (maxDischargeDepth := 64) +contextual only [*, Keeps.ite, Keeps.ite_snd, Keeps.foldl, Keeps.foldl_snd, State.updHrv_keeps, State.updCond_keeps,
        State.error_keeps, State.dropReads_keeps, State.asAgent_keeps, State.fetch_keeps, State.hrvAdmit_keeps,
        State.hrvRows_keeps, implies_true]; done)
    | split
    | (dsimp only; split)

theorem State.hrvSignal_keeps (q : HrvReq) (code : Nat) (hs : Keeps s₀ s) :
    Keeps s₀ (s.hrvSignal q code) := by
  unfold State.hrvSignal
  simp (maxDischargeDepth := 64) +contextual only [*, Keeps.ite, Keeps.ite_snd, Keeps.foldl, Keeps.foldl_snd, State.updRun_keeps, State.stageCode_keeps,
    State.hrvTileDone_keeps, implies_true]

theorem State.hrvComplete_keeps (q : HrvReq) (row : Nat) (code : Nat) (hs : Keeps s₀ s) :
    Keeps s₀ (s.hrvComplete q row code) := by
  unfold State.hrvComplete
  simp (maxDischargeDepth := 64) +contextual only [*, Keeps.ite, Keeps.ite_snd, Keeps.foldl, Keeps.foldl_snd, State.hrvCount_keeps, State.hrvSignal_keeps,
    implies_true]

theorem State.hrvIssue_keeps (r : HrvRun) (hs : Keeps s₀ s) :
    Keeps s₀ (s.hrvIssue r) := by
  unfold State.hrvIssue
  simp (maxDischargeDepth := 64) +contextual only [*, Keeps.ite, Keeps.ite_snd, Keeps.foldl, Keeps.foldl_snd, State.updHrv_keeps, State.write_keeps,
    State.writeOut_keeps, State.updRun_keeps, implies_true]

theorem State.hrvDone_keeps (hs : Keeps s₀ s) :
    Keeps s₀ (s.hrvDone) := by
  unfold State.hrvDone
  repeat' first
    | (simp (maxDischargeDepth := 64) +contextual only [*, Keeps.ite, Keeps.ite_snd, Keeps.foldl, Keeps.foldl_snd, State.updHrv_keeps, State.updCond_keeps,
        State.dropAcks_keeps, State.asAgent_keeps, State.hrvComplete_keeps, State.hrvIssue_keeps, implies_true]; done)
    | split

theorem State.hrvSoftReset_keeps (hs : Keeps s₀ s) :
    Keeps s₀ (s.hrvSoftReset) := by
  unfold State.hrvSoftReset
  simp (maxDischargeDepth := 64) +contextual only [*, Keeps.ite, Keeps.ite_snd, Keeps.foldl, Keeps.foldl_snd, State.updHrv_keeps, State.stopAgents_keeps,
    State.endHarvest_keeps, State.hrvAdmit_keeps, State.hrvSignal_keeps, implies_true]

theorem execHrvArgmax_keeps (dt : Nat) {s₁ : State}
    (e : execHrvArgmax dt s = .next s₁) : Keeps s s₁ := by
  unfold execHrvArgmax at e
  obtain rfl := Host.Outcome.next.inj e
  simp (maxDischargeDepth := 64) +contextual only [*, Keeps.refl, State.arrive_keeps, State.hrvServe_keeps, implies_true]

theorem execHrvTopkStream_keeps (dt : Nat) {s₁ : State}
    (e : execHrvTopkStream dt s = .next s₁) : Keeps s s₁ := by
  unfold execHrvTopkStream at e
  obtain rfl := Host.Outcome.next.inj e
  simp (maxDischargeDepth := 64) +contextual only [*, Keeps.refl, State.arrive_keeps, State.hrvServe_keeps, implies_true]

theorem execHrvTopkBucket_keeps (dt : Nat) {s₁ : State}
    (e : execHrvTopkBucket dt s = .next s₁) : Keeps s s₁ := by
  unfold execHrvTopkBucket at e
  obtain rfl := Host.Outcome.next.inj e
  simp (maxDischargeDepth := 64) +contextual only [*, Keeps.refl, State.arrive_keeps, State.hrvServe_keeps, implies_true]

theorem execHrvFpsStep_keeps (dt : Nat) {s₁ : State}
    (e : execHrvFpsStep dt s = .next s₁) : Keeps s s₁ := by
  unfold execHrvFpsStep at e
  obtain rfl := Host.Outcome.next.inj e
  simp (maxDischargeDepth := 64) +contextual only [*, Keeps.refl, State.arrive_keeps, State.hrvServe_keeps, implies_true]

theorem execHrvRequestDone_keeps (dt : Nat) {s₁ : State}
    (e : execHrvRequestDone dt s = .next s₁) : Keeps s s₁ := by
  unfold execHrvRequestDone at e
  obtain rfl := Host.Outcome.next.inj e
  simp (maxDischargeDepth := 64) +contextual only [*, Keeps.refl, State.arrive_keeps, State.hrvDone_keeps, implies_true]

end Sys2Proof.Machine
end

