-- ==== Sys2Proof/Laws/KeepsNvm.lean ====
section
/-! SUPPORT. What the operations of Machine/Nvm.lean keep: the waiting commands and the canonical form (Laws/Keeps.lean). -/

namespace Sys2Proof.Machine

set_option linter.unusedSimpArgs false
set_option linter.unusedTactic false

variable {s₀ s : State}

theorem State.setNvm_keeps (i : Nat) (c : NvmCell) (hs : Keeps s₀ s) :
    Keeps s₀ (s.setNvm i c) := by
  unfold State.setNvm
  exact hs.parts rfl rfl rfl id (fun hc => Sparse.wf_set cellDefault i c hc)

theorem State.loadWord_keeps (i : Nat) (v : Nat) (hs : Keeps s₀ s) :
    Keeps s₀ (s.loadWord i v) := by
  unfold State.loadWord
  simp (maxDischargeDepth := 64) +contextual only [*, Keeps.ite, State.setCell_keeps, implies_true]

theorem State.refreshWear_keeps (hs : Keeps s₀ s) :
    Keeps s₀ (s.refreshWear) := by
  unfold State.refreshWear
  simp (maxDischargeDepth := 64) +contextual only [*, Keeps.ite_snd, State.setCell_keeps, State.setFld_keeps,
    implies_true]

theorem State.wearRose_keeps (i : Nat) (old : Nat) (new : Nat) (hs : Keeps s₀ s) :
    Keeps s₀ (s.wearRose i old new) := by
  unfold State.wearRose
  simp (maxDischargeDepth := 64) +contextual only [*, Keeps.ite, State.event_keeps, State.error_keeps,
    State.refreshWear_keeps, implies_true]

theorem State.restoreCell_keeps (i : Nat) (hs : Keeps s₀ s) :
    Keeps s₀ (s.restoreCell i) := by
  unfold State.restoreCell
  simp (maxDischargeDepth := 64) +contextual only [*, Keeps.ite, State.setCell_keeps, State.bump_keeps,
    State.event_keeps, State.error_keeps, State.setNvm_keeps, State.loadWord_keeps, implies_true]

theorem State.loadLife_keeps (hs : Keeps s₀ s) :
    Keeps s₀ (s.loadLife) := by
  unfold State.loadLife
  simp (maxDischargeDepth := 64) +contextual only [*, Keeps.record, implies_true]

theorem State.restoreCauses_keeps (hs : Keeps s₀ s) :
    Keeps s₀ (s.restoreCauses) := by
  unfold State.restoreCauses
  simp (maxDischargeDepth := 64) +contextual only [*, Keeps.ite, State.latch_keeps, State.latchRst_keeps, implies_true]

theorem State.restore_keeps (hs : Keeps s₀ s) :
    Keeps s₀ (s.restore) := by
  unfold State.restore
  simp (maxDischargeDepth := 64) +contextual only [*, Keeps.foldl, Keeps.record, Keeps.record_drop, Keeps.record_drop2,
    State.setFld_keeps, State.updCond_keeps, State.refreshWear_keeps, State.restoreCell_keeps, State.loadLife_keeps,
    State.restoreCauses_keeps, implies_true]

theorem State.setLastResult_keeps (p : Nat) (r : Nat) (hs : Keeps s₀ s) :
    Keeps s₀ (s.setLastResult p r) := by
  unfold State.setLastResult
  simp (maxDischargeDepth := 64) +contextual only [*, Keeps.record, implies_true]

theorem State.discardPersist_keeps (p : Nat) (k : Nat) (result : Nat) (code : Nat) (hs : Keeps s₀ s) :
    Keeps s₀ (s.discardPersist p k result code) := by
  unfold State.discardPersist
  simp (maxDischargeDepth := 64) +contextual only [*, Keeps.ite, State.bump_keeps, State.error_keeps,
    State.setLastResult_keeps, implies_true]

theorem State.setQueue_keeps (q : List PsvWrite) (hs : Keeps s₀ s) :
    Keeps s₀ (s.setQueue q) := by
  unfold State.setQueue
  simp (maxDischargeDepth := 64) +contextual only [*, Keeps.record, State.setFld_keeps, implies_true]

theorem State.disposePersist_keeps (p : Nat) (k : Nat) (w : Nat) (data : Nat) (hs : Keeps s₀ s) :
    Keeps s₀ (s.disposePersist p k w data) := by
  unfold State.disposePersist
  simp (maxDischargeDepth := 64) +contextual only [*, Keeps.ite, Keeps.ite_snd, Keeps.foldl, Keeps.foldl_snd, State.bump_keeps, State.updCond_keeps,
    State.wrote_keeps, State.setLastResult_keeps, State.discardPersist_keeps, State.setQueue_keeps,
    implies_true]

theorem State.persistWord_keeps (p : Nat) (k : Nat) (w : Nat) (lo : Option Word) (hi : Option Word) (hs : Keeps s₀ s) :
    Keeps s₀ (s.persistWord p k w lo hi) := by
  unfold State.persistWord
  simp (maxDischargeDepth := 64) +contextual only [*, State.disposePersist_keeps, implies_true]

theorem State.shadowTakes_keeps (w : PsvWrite) (hs : Keeps s₀ s) :
    Keeps s₀ (s.shadowTakes w) := by
  unfold State.shadowTakes
  simp (maxDischargeDepth := 64) +contextual only [*, Keeps.ite, State.setFld_keeps, State.takePins_keeps,
    State.returnPins_keeps, State.loadWord_keeps, implies_true]

theorem State.popQueue_keeps (w : PsvWrite) (hs : Keeps s₀ s) :
    Keeps s₀ (s.popQueue w) := by
  unfold State.popQueue
  simp (maxDischargeDepth := 64) +contextual only [*, Keeps.ite, State.updPsv_keeps, State.updCond_keeps,
    State.setQueue_keeps, implies_true]

theorem State.commitDone_keeps (ok : Bool) (hs : Keeps s₀ s) :
    Keeps s₀ (s.commitDone ok) := by
  unfold State.commitDone
  repeat' first
    | (simp (maxDischargeDepth := 64) +contextual only [*, Keeps.ite, Keeps.record, State.bump_keeps, State.event_keeps,
        State.error_keeps, State.setNvm_keeps, State.wearRose_keeps, State.setLastResult_keeps,
        State.shadowTakes_keeps, State.popQueue_keeps, implies_true]; done)
    | split

theorem State.powerLoss_keeps (form : Nat) (hs : Keeps s₀ s) :
    Keeps s₀ (s.powerLoss form) := by
  unfold State.powerLoss
  repeat' first
    | (simp (maxDischargeDepth := 64) +contextual only [*, Keeps.ite, Keeps.record, State.setNvm_keeps, implies_true]; done)
    | split

theorem State.brownOut_keeps (hs : Keeps s₀ s) :
    Keeps s₀ (s.brownOut) := by
  unfold State.brownOut
  simp (maxDischargeDepth := 64) +contextual only [*, Keeps.ite, Keeps.foldl, State.setFld_keeps, State.event_keeps,
    State.updCond_keeps, State.discardPersist_keeps, State.setQueue_keeps, implies_true]

theorem State.brownOutEnd_keeps (hs : Keeps s₀ s) :
    Keeps s₀ (s.brownOutEnd) := by
  unfold State.brownOutEnd
  simp (maxDischargeDepth := 64) +contextual only [*, State.setFld_keeps, implies_true]

theorem State.securityRefuse_keeps (ws : List Nat) (hs : Keeps s₀ s) :
    Keeps s₀ (s.securityRefuse ws) := by
  unfold State.securityRefuse
  simp (maxDischargeDepth := 64) +contextual only [*, Keeps.foldl, State.error_keeps, implies_true]

theorem State.securityProgram_keeps (ws : List Nat) (hs : Keeps s₀ s) :
    Keeps s₀ (s.securityProgram ws) := by
  unfold State.securityProgram
  simp (maxDischargeDepth := 64) +contextual only [*, Keeps.foldl, State.setNvm_keeps, State.wearRose_keeps, implies_true]

theorem State.accountLife_keeps (hs : Keeps s₀ s) :
    Keeps s₀ (s.accountLife) := by
  unfold State.accountLife
  simp (maxDischargeDepth := 64) +contextual only [*, Keeps.ite, Keeps.record, implies_true]

theorem State.lifetimeCommit_keeps (hs : Keeps s₀ s) :
    Keeps s₀ (s.lifetimeCommit) := by
  unfold State.lifetimeCommit
  simp (maxDischargeDepth := 64) +contextual only [*, Keeps.ite, Keeps.foldl, Keeps.record, State.disposePersist_keeps,
    State.accountLife_keeps, implies_true]

theorem State.wearSelWrite_keeps (w : Nat) (v : Word) (hs : Keeps s₀ s) :
    Keeps s₀ (s.wearSelWrite w v) := by
  unfold State.wearSelWrite
  repeat' first
    | (simp (maxDischargeDepth := 64) +contextual only [*, Keeps.ite, State.setCell_keeps, State.setFld_keeps,
        State.wrote_keeps, State.undefinedEncoding_keeps, implies_true]; done)
    | split
    | (dsimp only; split)

end Sys2Proof.Machine
end

