-- ==== Sys2Proof/Laws/KeepsThermal.lean ====
section
/-! SUPPORT. What the operations of Machine/Thermal.lean keep: the waiting commands and the canonical form (Laws/Keeps.lean). -/

namespace Sys2Proof.Machine

set_option linter.unusedSimpArgs false
set_option linter.unusedTactic false

variable {s₀ s : State}

theorem State.setCoreMax_keeps (hs : Keeps s₀ s) :
    Keeps s₀ (s.setCoreMax) := by
  unfold State.setCoreMax
  simp (maxDischargeDepth := 64) +contextual only [*, State.setFld_keeps, implies_true]

theorem State.applyCore_keeps (hs : Keeps s₀ s) :
    Keeps s₀ (s.applyCore) := by
  unfold State.applyCore
  simp (maxDischargeDepth := 64) +contextual only [*, Keeps.ite, Keeps.ite_snd, Keeps.foldl, Keeps.foldl_snd, State.setFld_keeps, State.updPwr_keeps,
    State.event_keeps, implies_true]

theorem State.takeTs_keeps (k : Nat) (t : Int) (hs : Keeps s₀ s) :
    Keeps s₀ (s.takeTs k t) := by
  unfold State.takeTs
  simp (maxDischargeDepth := 64) +contextual only [*, Keeps.ite, State.updRst_keeps, State.setFld_keeps,
    State.setSfld_keeps, State.event_keeps, State.error_keeps, implies_true]

theorem State.takeAllTs_keeps (k : Nat) (l : List Int) (hs : Keeps s₀ s) : Keeps s₀ (s.takeAllTs k l) := by
  induction l generalizing s k with
  | nil => exact hs
  | cons a t ih =>
    unfold State.takeAllTs
    exact ih _ (State.takeTs_keeps _ _ hs)

theorem State.takeAllMv_keeps (k : Nat) (l : List Nat) (hs : Keeps s₀ s) : Keeps s₀ (s.takeAllMv k l) := by
  induction l generalizing s k with
  | nil => exact hs
  | cons a t ih =>
    unfold State.takeAllMv
    exact ih _ (State.setFld_keeps _ _ hs)

theorem State.setTempMax_keeps (hs : Keeps s₀ s) :
    Keeps s₀ (s.setTempMax) := by
  unfold State.setTempMax
  repeat' first
    | (simp (maxDischargeDepth := 64) +contextual only [*, Keeps.ite_snd, State.drawFree_keeps, State.setFld_keeps,
        State.setSfld_keeps, implies_true]; done)
    | split
    | (dsimp only; split)

theorem State.thermChange_keeps (new : Nat) (hs : Keeps s₀ s) :
    Keeps s₀ (s.thermChange new) := by
  unfold State.thermChange
  simp (maxDischargeDepth := 64) +contextual only [*, Keeps.ite, State.updPwr_keeps, State.setFld_keeps,
    State.bump_keeps, State.event_keeps, State.error_keeps, State.latch_keeps, implies_true]

theorem State.thermEval_keeps (hs : Keeps s₀ s) :
    Keeps s₀ (s.thermEval) := by
  unfold State.thermEval
  simp (maxDischargeDepth := 64) +contextual only [*, Keeps.ite, State.setFld_keeps, State.thermChange_keeps,
    implies_true]

theorem State.coolChange_keeps (new : Nat) (hs : Keeps s₀ s) :
    Keeps s₀ (s.coolChange new) := by
  unfold State.coolChange
  simp (maxDischargeDepth := 64) +contextual only [*, Keeps.ite, State.updPwr_keeps, State.setFld_keeps,
    State.bump_keeps, State.event_keeps, State.error_keeps, State.latchRst_keeps, implies_true]

theorem State.coolEval_keeps (hs : Keeps s₀ s) :
    Keeps s₀ (s.coolEval) := by
  unfold State.coolEval
  simp (maxDischargeDepth := 64) +contextual only [*, Keeps.ite, State.coolChange_keeps, implies_true]

theorem State.sensorsCause_keeps (before : Nat) (hs : Keeps s₀ s) :
    Keeps s₀ (s.sensorsCause before) := by
  unfold State.sensorsCause
  simp (maxDischargeDepth := 64) +contextual only [*, Keeps.ite, State.latch_keeps, implies_true]

theorem State.thermalScan_keeps (temps : List Int) (mv : List Nat) (hs : Keeps s₀ s) :
    Keeps s₀ (s.thermalScan temps mv) := by
  unfold State.thermalScan
  simp (maxDischargeDepth := 64) +contextual only [*, Keeps.ite, State.updPsv_keeps, State.accountLife_keeps,
    State.takeAllTs_keeps, State.takeAllMv_keeps, State.setTempMax_keeps, State.thermEval_keeps, State.coolEval_keeps,
    State.sensorsCause_keeps, implies_true]

theorem State.hardwareTrip_keeps (k : Nat) (t : Int) (hs : Keeps s₀ s) :
    Keeps s₀ (s.hardwareTrip k t) := by
  unfold State.hardwareTrip
  simp (maxDischargeDepth := 64) +contextual only [*, Keeps.ite, Keeps.foldl, State.updPwr_keeps, State.setFld_keeps,
    State.setSfld_keeps, State.updCond_keeps, State.error_keeps, State.lifeTrip_keeps, State.latch_keeps, implies_true]

theorem State.coolantSample_keeps (r : Option Int) (hs : Keeps s₀ s) :
    Keeps s₀ (s.coolantSample r) := by
  unfold State.coolantSample
  repeat' first
    | (simp (maxDischargeDepth := 64) +contextual only [*, Keeps.ite, State.updRst_keeps, State.updPsv_keeps,
        State.setFld_keeps, State.setSfld_keeps, State.bump_keeps, State.event_keeps, State.error_keeps,
        State.coolEval_keeps, implies_true]; done)
    | split

theorem State.ageLimit_keeps (hs : Keeps s₀ s) :
    Keeps s₀ (s.ageLimit) := by
  unfold State.ageLimit
  simp (maxDischargeDepth := 64) +contextual only [*, Keeps.ite, State.updPwr_keeps, State.error_keeps,
    State.latchRst_keeps, implies_true]

theorem State.ageRose_keeps (old : Nat) (hs : Keeps s₀ s) : Keeps s₀ (s.ageRose old) :=
  State.ageLimit_keeps (State.event_keeps _ _ (State.updPwr_keeps _ hs))

theorem State.ageHour_keeps (slack : Nat) (held : Bool) (hs : Keeps s₀ s) :
    Keeps s₀ (s.ageHour slack held) := by
  unfold State.ageHour
  simp (maxDischargeDepth := 64) +contextual only [*, Keeps.ite, State.updPwr_keeps, State.setFld_keeps,
    State.disposePersist_keeps, State.accountLife_keeps, implies_true]

theorem State.vddLow_keeps (mv : Nat) (hs : Keeps s₀ s) :
    Keeps s₀ (s.vddLow mv) := by
  unfold State.vddLow
  simp (maxDischargeDepth := 64) +contextual only [*, Keeps.ite, State.setFld_keeps, State.error_keeps,
    State.latch_keeps, implies_true]

end Sys2Proof.Machine
end

