-- ==== Sys2Proof/Laws/KeepsLog.lean ====
section
/-! SUPPORT. What the operations of Machine/Log.lean keep: the waiting commands and the canonical form (Laws/Keeps.lean). -/

namespace Sys2Proof.Machine

set_option linter.unusedSimpArgs false
set_option linter.unusedTactic false

variable {s₀ s : State}

theorem State.showRing_keeps (hs : Keeps s₀ s) :
    Keeps s₀ (s.showRing) := by
  unfold State.showRing
  simp (maxDischargeDepth := 64) +contextual only [*, State.setFld_keeps, State.ring_keeps, implies_true]

theorem State.qualify_keeps (e : LogEntry) (hs : Keeps s₀ s) :
    Keeps s₀ (s.qualify e) := by
  unfold State.qualify
  simp (maxDischargeDepth := 64) +contextual only [*, Keeps.ite, State.updRst_keeps, State.bump_keeps, State.event_keeps,
    implies_true]

theorem State.enterRing_keeps (q : LogReq) (ts : Nat) (hs : Keeps s₀ s) :
    Keeps s₀ (s.enterRing q ts) := by
  unfold State.enterRing
  simp (maxDischargeDepth := 64) +contextual only [*, Keeps.ite, State.updRst_keeps, State.bump_keeps, State.event_keeps,
    State.ring_keeps, State.showRing_keeps, State.qualify_keeps, implies_true]

theorem State.logEntry_keeps (hs : Keeps s₀ s) :
    Keeps s₀ (s.logEntry) := by
  unfold State.logEntry
  repeat' first
    | (simp (maxDischargeDepth := 64) +contextual only [*, Keeps.ite, Keeps.record, State.enterRing_keeps, implies_true]; done)
    | split

theorem State.enterHeld_keeps (hs : Keeps s₀ s) :
    Keeps s₀ (s.enterHeld) := by
  unfold State.enterHeld
  simp (maxDischargeDepth := 64) +contextual only [*, Keeps.foldl, Keeps.record, State.enterRing_keeps, implies_true]

theorem State.bbWrite_keeps (ok : Bool) (hs : Keeps s₀ s) :
    Keeps s₀ (s.bbWrite ok) := by
  unfold State.bbWrite
  repeat' first
    | (simp (maxDischargeDepth := 64) +contextual only [*, Keeps.ite, State.updRst_keeps, State.setFld_keeps,
        State.bump_keeps, State.ring_keeps, implies_true]; done)
    | split

theorem State.logFetch_keeps (w : Nat) (hs : Keeps s₀ s) :
    Keeps s₀ (s.logFetch w) := by
  unfold State.logFetch
  simp (maxDischargeDepth := 64) +contextual only [*, Keeps.ite, State.updRst_keeps, State.setFld_keeps,
    State.fetch_keeps, State.wrote_keeps, implies_true]

theorem State.showEntry_keeps (bs : List Byte) (hs : Keeps s₀ s) :
    Keeps s₀ (s.showEntry bs) := by
  unfold State.showEntry
  simp (maxDischargeDepth := 64) +contextual only [*, Keeps.foldl, State.setFld_keeps, implies_true]

theorem State.logFetchDone_keeps (raw : Option (List Byte)) (hs : Keeps s₀ s) :
    Keeps s₀ (s.logFetchDone raw) := by
  unfold State.logFetchDone
  repeat' first
    | (simp (maxDischargeDepth := 64) +contextual only [*, Keeps.ite, State.updRst_keeps, State.setFld_keeps,
        State.fetch_keeps, State.showEntry_keeps, implies_true]; done)
    | split
    | (dsimp only; split)

end Sys2Proof.Machine
end

