-- ==== Sys2Proof/Laws/KeepsUpdate.lean ====
section
/-! SUPPORT. What the operations of Machine/Update.lean keep: the waiting commands and the canonical form (Laws/Keeps.lean). -/

namespace Sys2Proof.Machine

set_option linter.unusedSimpArgs false
set_option linter.unusedTactic false

variable {s₀ s : State}

theorem State.setSlotImage_keeps (t : Nat) (i : SlotImage) (hs : Keeps s₀ s) :
    Keeps s₀ (s.setSlotImage t i) := by
  unfold State.setSlotImage
  simp (maxDischargeDepth := 64) +contextual only [*, Keeps.ite, State.updRst_keeps, implies_true]

theorem State.updEnd_keeps (code : Nat) (hs : Keeps s₀ s) :
    Keeps s₀ (s.updEnd code) := by
  unfold State.updEnd
  simp (maxDischargeDepth := 64) +contextual only [*, Keeps.ite, State.setFld_keeps, State.event_keeps, implies_true]

theorem State.updTake_keeps (w : Nat) (op : Nat) (key : Nat) (hs : Keeps s₀ s) :
    Keeps s₀ (s.updTake w op key) := by
  unfold State.updTake
  simp (maxDischargeDepth := 64) +contextual only [*, State.setFld_keeps, State.wrote_keeps, implies_true]

theorem State.updBusy_keeps (w : Nat) (hs : Keeps s₀ s) :
    Keeps s₀ (s.updBusy w) := by
  unfold State.updBusy
  simp (maxDischargeDepth := 64) +contextual only [*, State.error_keeps, implies_true]

theorem State.updCommand_keeps (w : Nat) (op : Nat) (key : Nat) (words : List Nat) (pre : State → Bool) (f : State → State) (hf : ∀ x, Keeps s₀ x → Keeps s₀ (f x)) (hs : Keeps s₀ s) :
    Keeps s₀ (s.updCommand w op key words pre f) := by
  unfold State.updCommand
  simp (maxDischargeDepth := 64) +contextual only [*, Keeps.ite, State.setFld_keeps, State.securityRefuse_keeps,
    State.securityProgram_keeps, State.updEnd_keeps, State.updTake_keeps, State.updBusy_keeps, implies_true]

theorem State.updStage_keeps (w : Nat) (key : Nat) (words : List Nat) (hs : Keeps s₀ s) :
    Keeps s₀ (s.updStage w key words) := by
  unfold State.updStage
  simp (maxDischargeDepth := 64) +contextual only [*, State.updRst_keeps, State.setFld_keeps, State.updCommand_keeps,
    implies_true]

theorem State.updActivate_keeps (w : Nat) (key : Nat) (words : List Nat) (hs : Keeps s₀ s) :
    Keeps s₀ (s.updActivate w key words) := by
  unfold State.updActivate
  simp (maxDischargeDepth := 64) +contextual only [*, State.setFld_keeps, State.note_keeps, State.updEnd_keeps,
    State.updCommand_keeps, implies_true]

theorem State.updConfirm_keeps (w : Nat) (key : Nat) (words : List Nat) (hs : Keeps s₀ s) :
    Keeps s₀ (s.updConfirm w key words) := by
  unfold State.updConfirm
  simp (maxDischargeDepth := 64) +contextual only [*, Keeps.ite, State.setFld_keeps, State.note_keeps,
    State.updEnd_keeps, State.updCommand_keeps, implies_true]

theorem State.updRevert_keeps (w : Nat) (key : Nat) (words : List Nat) (hs : Keeps s₀ s) :
    Keeps s₀ (s.updRevert w key words) := by
  unfold State.updRevert
  simp (maxDischargeDepth := 64) +contextual only [*, State.setFld_keeps, State.event_keeps, State.note_keeps,
    State.updEnd_keeps, State.updCommand_keeps, implies_true]

theorem State.updRevoke_keeps (w : Nat) (key : Nat) (words : List Nat) (hs : Keeps s₀ s) :
    Keeps s₀ (s.updRevoke w key words) := by
  unfold State.updRevoke
  simp (maxDischargeDepth := 64) +contextual only [*, State.setFld_keeps, State.note_keeps, State.updEnd_keeps,
    State.updCommand_keeps, implies_true]

theorem State.updAbort_keeps (w : Nat) (key : Nat) (hs : Keeps s₀ s) :
    Keeps s₀ (s.updAbort w key) := by
  unfold State.updAbort
  repeat' first
    | (simp (maxDischargeDepth := 64) +contextual only [*, Keeps.ite, Keeps.ite_snd, Keeps.foldl, Keeps.foldl_snd, State.setFld_keeps, State.updRst_keeps,
        State.updEnd_keeps, State.updTake_keeps, State.updBusy_keeps, implies_true]; done)
    | split

theorem State.stageStore_keeps (r : StageRun) (b : List Byte) (hs : Keeps s₀ s) :
    Keeps s₀ (s.stageStore r b) := by
  unfold State.stageStore
  simp (maxDischargeDepth := 64) +contextual only [*, Keeps.ite, State.setFld_keeps, State.note_keeps,
    State.setSlotImage_keeps, implies_true]

theorem State.updStageDone_keeps (flashOk : Bool) (hs : Keeps s₀ s) :
    Keeps s₀ (s.updStageDone flashOk) := by
  unfold State.updStageDone
  repeat' first
    | (simp (maxDischargeDepth := 64) +contextual only [*, Keeps.ite, Keeps.ite_snd, Keeps.foldl, Keeps.foldl_snd, State.setFld_keeps, State.updRst_keeps,
        State.fetch_keeps, State.updEnd_keeps, State.stageStore_keeps, implies_true]; done)
    | split
    | (dsimp only; split)

theorem State.markBad_keeps (t : Nat) (hs : Keeps s₀ s) :
    Keeps s₀ (s.markBad t) := by
  unfold State.markBad
  simp (maxDischargeDepth := 64) +contextual only [*, State.updRst_keeps, State.setFld_keeps, implies_true]

theorem State.tryTrials_keeps (digA digB ts : List Nat) (hs : Keeps s₀ s) : Keeps s₀ (s.tryTrials digA digB ts).1 := by
  induction ts generalizing s with
  | nil => exact hs
  | cons t ts ih =>
    unfold State.tryTrials
    split
    · exact ih hs
    · split
      · dsimp only
        generalize hd : (if t = 0 then digA else digB) = dg
        split
        · exact State.setFld_keeps _ _ hs
        · exact ih (State.markBad_keeps _ (State.setFld_keeps _ _ hs))
      · exact ih (State.markBad_keeps _ hs)

theorem State.tryGood_keeps (t : Nat) (dig : List Nat) (hs : Keeps s₀ s) : Keeps s₀ (s.tryGood t dig).1 := by
  unfold State.tryGood
  repeat' first
    | exact hs
    | exact State.markBad_keeps _ hs
    | split

theorem State.chooseSlot_keeps (digA digB : List Nat) (hs : Keeps s₀ s) : Keeps s₀ (s.chooseSlot digA digB).1 := by
  unfold State.chooseSlot
  dsimp only
  have hc : ∀ x t, Keeps s₀ x → Keeps s₀ (if x.fld (slotState t) = Slot.staging then x.setFld (slotState t) Slot.empty else x) :=
    fun x t hx => Keeps.ite (State.setFld_keeps _ _ hx) hx
  have hr := State.tryTrials_keeps digA digB [0, 1] (hc _ 1 (hc _ 0 hs))
  split
  · exact hr
  · split
    · exact State.tryGood_keeps _ _ hr
    · split
      · exact State.setFld_keeps _ _ (State.setFld_keeps _ _ (State.tryGood_keeps _ _ (State.tryGood_keeps _ _ hr)))
      · exact State.tryGood_keeps _ _ (State.tryGood_keeps _ _ hr)

end Sys2Proof.Machine
end

