-- ==== Sys2Proof/Laws/KeepsPlan.lean ====
section
/-! SUPPORT. What the operations of Machine/Plan.lean keep: the waiting commands and the canonical form (Laws/Keeps.lean). -/

namespace Sys2Proof.Machine

set_option linter.unusedSimpArgs false
set_option linter.unusedTactic false

variable {s₀ s : State}

theorem State.loadChecks_keeps (addr : Nat) (size : Nat) (hs : Keeps s₀ s) :
    Keeps s₀ (s.loadChecks addr size).2 := by
  unfold State.loadChecks
  repeat' first
    | (simp (maxDischargeDepth := 64) +contextual only [*, Keeps.ite, Keeps.ite_snd, Keeps.foldl, Keeps.foldl_snd, State.fetch_keeps, State.touch_keeps,
        implies_true]; done)
    | split
    | (dsimp only; split)

theorem State.setWide_keeps (f : Field) (n : Nat) (hs : Keeps s₀ s) :
    Keeps s₀ (s.setWide f n) := by
  unfold State.setWide
  simp (maxDischargeDepth := 64) +contextual only [*, Keeps.ite, State.drawFree_keeps, State.setFld_keeps, implies_true]

theorem State.planBusy_keeps (hs : Keeps s₀ s) :
    Keeps s₀ (s.planBusy) := by
  unfold State.planBusy
  simp (maxDischargeDepth := 64) +contextual only [*, State.error_keeps, implies_true]

theorem State.planLoad_keeps (b : Nat) (hs : Keeps s₀ s) :
    Keeps s₀ (s.planLoad b) := by
  unfold State.planLoad
  simp (maxDischargeDepth := 64) +contextual only [*, Keeps.ite, Keeps.ite_snd, Keeps.foldl, Keeps.foldl_snd, State.setFld_keeps, State.updFrm_keeps,
    State.error_keeps, State.emptySlot_keeps, implies_true]

theorem State.planLoadDone_keeps (hs : Keeps s₀ s) :
    Keeps s₀ (s.planLoadDone) := by
  unfold State.planLoadDone
  repeat' first
    | (simp (maxDischargeDepth := 64) +contextual only [*, Keeps.ite, Keeps.ite_snd, State.updRst_keeps, State.setFld_keeps,
        State.event_keeps, State.error_keeps, State.loadChecks_keeps, State.setWide_keeps, State.setSlot_keeps,
        State.emptySlot_keeps, implies_true]; done)
    | split
    | (dsimp only; split)

theorem State.applySwitch_keeps (hs : Keeps s₀ s) :
    Keeps s₀ (s.applySwitch) := by
  unfold State.applySwitch
  simp (maxDischargeDepth := 64) +contextual only [*, Keeps.ite, Keeps.ite_snd, Keeps.foldl, Keeps.foldl_snd, State.setFld_keeps, State.updFrm_keeps,
    State.showPlan_keeps, implies_true]

theorem State.planSwitch_keeps (hs : Keeps s₀ s) :
    Keeps s₀ (s.planSwitch) := by
  unfold State.planSwitch
  simp (maxDischargeDepth := 64) +contextual only [*, Keeps.ite, Keeps.ite_snd, Keeps.foldl, Keeps.foldl_snd, State.setFld_keeps, State.updFrm_keeps,
    State.error_keeps, implies_true]

theorem State.planUnload_keeps (b : Nat) (hs : Keeps s₀ s) :
    Keeps s₀ (s.planUnload b) := by
  unfold State.planUnload
  simp (maxDischargeDepth := 64) +contextual only [*, Keeps.ite, Keeps.ite_snd, Keeps.foldl, Keeps.foldl_snd, State.setFld_keeps, State.emptySlot_keeps,
    implies_true]

theorem State.planCtl_keeps (v : Word) (hs : Keeps s₀ s) :
    Keeps s₀ (s.planCtl v) := by
  unfold State.planCtl
  simp (maxDischargeDepth := 64) +contextual only [*, Keeps.ite, State.planLoad_keeps, State.planSwitch_keeps,
    State.planUnload_keeps, implies_true]

theorem State.writePlanCtl_keeps (w : Nat) (v : Word) (hs : Keeps s₀ s) :
    Keeps s₀ (s.writePlanCtl w v) := by
  unfold State.writePlanCtl
  simp (maxDischargeDepth := 64) +contextual only [*, Keeps.ite, Keeps.ite_snd, Keeps.foldl, Keeps.foldl_snd, State.wrote_keeps, State.onWrite_keeps,
    State.planBusy_keeps, State.planCtl_keeps, implies_true]

theorem State.planCorrupt_keeps (b : Nat) (hs : Keeps s₀ s) :
    Keeps s₀ (s.planCorrupt b).2 := by
  unfold State.planCorrupt
  simp (maxDischargeDepth := 64) +contextual only [*, Keeps.ite_snd, State.fetch_keeps, implies_true]

end Sys2Proof.Machine
end

