-- ==== Sys2Proof/Laws/KeepsFrame.lean ====
section
/-! SUPPORT. What the operations of Machine/Frame.lean keep: the waiting commands and the canonical form (Laws/Keeps.lean). -/

namespace Sys2Proof.Machine

set_option linter.unusedSimpArgs false
set_option linter.unusedTactic false

variable {s₀ s : State}

theorem State.enableTiles_keeps (hs : Keeps s₀ s) :
    Keeps s₀ (s.enableTiles) := by
  unfold State.enableTiles
  simp (maxDischargeDepth := 64) +contextual only [*, Keeps.foldl, State.updPage_keeps, State.updCond_keeps, implies_true]

theorem State.startSample_keeps (hs : Keeps s₀ s) :
    Keeps s₀ (s.startSample) := by
  unfold State.startSample
  simp (maxDischargeDepth := 64) +contextual only [*, Keeps.ite, Keeps.ite_snd, Keeps.foldl, Keeps.foldl_snd, State.setFld_keeps, State.updFrm_keeps,
    State.updSaf_keeps, State.sepSample_keeps, implies_true]

theorem State.frmStart_keeps (hs : Keeps s₀ s) :
    Keeps s₀ (s.frmStart) := by
  unfold State.frmStart
  repeat' first
    | (simp (maxDischargeDepth := 64) +contextual only [*, Keeps.ite, Keeps.ite_snd, Keeps.foldl, Keeps.foldl_snd, State.error_keeps, State.acquire_keeps,
        State.setCoreMax_keeps, State.enableTiles_keeps, State.startSample_keeps, implies_true]; done)
    | split
    | (dsimp only; split)

theorem State.frmRest_keeps (hs : Keeps s₀ s) :
    Keeps s₀ (s.frmRest) := by
  unfold State.frmRest
  simp (maxDischargeDepth := 64) +contextual only [*, Keeps.ite, Keeps.ite_snd, Keeps.foldl, Keeps.foldl_snd, State.updCond_keeps, State.release_keeps,
    implies_true]

theorem State.frmDrain_keeps (hs : Keeps s₀ s) :
    Keeps s₀ (s.frmDrain) := by
  unfold State.frmDrain
  repeat' first
    | (simp (maxDischargeDepth := 64) +contextual only [*, Keeps.ite, Keeps.ite_snd, Keeps.foldl, Keeps.foldl_snd, Keeps.record, Keeps.record_drop,
        Keeps.record_drop2, State.updFrm_keeps, State.updCond_keeps, State.dropIngest_keeps,
        State.endWaiters_keeps, State.frmRest_keeps, implies_true]; done)
    | split

theorem State.dropFrames_keeps (code : Nat) (hs : Keeps s₀ s) :
    Keeps s₀ (s.dropFrames code) := by
  unfold State.dropFrames
  repeat' first
    | (simp (maxDischargeDepth := 64) +contextual only [*, Keeps.ite, Keeps.ite_snd, Keeps.foldl, Keeps.foldl_snd, State.dropCompute_keeps,
        State.dropIngest_keeps, State.dropClosing_keeps, State.endWaiters_keeps, implies_true]; done)
    | split
    | (dsimp only; split)

theorem State.frmCut_keeps (hs : Keeps s₀ s) :
    Keeps s₀ (s.frmCut) := by
  unfold State.frmCut
  simp (maxDischargeDepth := 64) +contextual only [*, Keeps.ite, Keeps.ite_snd, Keeps.foldl, Keeps.foldl_snd, Keeps.record, Keeps.record_drop,
    Keeps.record_drop2, State.drawFree_keeps, State.updCond_keeps, State.frmRest_keeps,
    State.dropFrames_keeps, implies_true]

theorem State.frmStop_keeps (hs : Keeps s₀ s) :
    Keeps s₀ (s.frmStop) := by
  unfold State.frmStop
  simp (maxDischargeDepth := 64) +contextual only [*, Keeps.ite, State.frmDrain_keeps, implies_true]

theorem State.frmCtl_keeps (v : Word) (hs : Keeps s₀ s) :
    Keeps s₀ (s.frmCtl v) := by
  unfold State.frmCtl
  simp (maxDischargeDepth := 64) +contextual only [*, Keeps.ite, State.frmStart_keeps, State.frmStop_keeps, implies_true]

theorem State.writeFrmCtl_keeps (w : Nat) (v : Word) (hs : Keeps s₀ s) :
    Keeps s₀ (s.writeFrmCtl w v) := by
  unfold State.writeFrmCtl
  simp (maxDischargeDepth := 64) +contextual only [*, Keeps.ite, Keeps.ite_snd, Keeps.foldl, Keeps.foldl_snd, State.wrote_keeps, State.onWrite_keeps,
    State.frmCtl_keeps, implies_true]

theorem State.admitRegs_keeps (f : Frame) (l : Nat) (streak : Nat) (coarsened : Bool) (hs : Keeps s₀ s) :
    Keeps s₀ (s.admitRegs f l streak coarsened) := by
  unfold State.admitRegs
  simp (maxDischargeDepth := 64) +contextual only [*, Keeps.ite, State.drawFree_keeps, State.setCell_keeps,
    State.setFld_keeps, State.setWide_keeps, implies_true]

theorem State.admitFrame_keeps (hs : Keeps s₀ s) :
    Keeps s₀ (s.admitFrame) := by
  unfold State.admitFrame
  repeat' first
    | (simp (maxDischargeDepth := 64) +contextual only [*, Keeps.ite, Keeps.ite_snd, Keeps.foldl, Keeps.foldl_snd, State.updFrm_keeps, State.event_keeps,
        State.statusFollowers_keeps, State.setBank_keeps, State.outBit_keeps, State.applySwitch_keeps,
        State.admitRegs_keeps, implies_true]; done)
    | split
    | (dsimp only; split)

theorem State.meetWaiters_keeps (n : Nat) (hs : Keeps s₀ s) :
    Keeps s₀ (s.meetWaiters n) := by
  unfold State.meetWaiters
  simp (maxDischargeDepth := 64) +contextual only [*, Keeps.ite, Keeps.ite_snd, Keeps.foldl, Keeps.foldl_snd,
    State.setJob_keeps, State.jobDone_keeps, implies_true]

theorem State.enterCompute_keeps (f : Frame) (hs : Keeps s₀ s) :
    Keeps s₀ (s.enterCompute f) := by
  unfold State.enterCompute
  repeat' first
    | (simp (maxDischargeDepth := 64) +contextual only [*, Keeps.ite, Keeps.ite_snd, State.updFrm_keeps, State.updScv_keeps,
        State.drawFree_keeps, State.setFld_keeps, State.statusFollowers_keeps, State.noSets_keeps,
        State.freeSets_keeps, State.writeOut_keeps, State.admitFrame_keeps, State.meetWaiters_keeps, implies_true]; done)
    | split

theorem State.openIngest_keeps (hs : Keeps s₀ s) :
    Keeps s₀ (s.openIngest) := by
  unfold State.openIngest
  simp (maxDischargeDepth := 64) +contextual only [*, Keeps.ite, Keeps.ite_snd, State.updFrm_keeps,
    State.openBanks_keeps, State.sepOpen_keeps, implies_true]

theorem State.stopStage_keeps (r : RunStage) (hs : Keeps s₀ s) :
    Keeps s₀ (s.stopStage r) := by
  unfold State.stopStage
  simp (maxDischargeDepth := 64) +contextual only [*, Keeps.ite, Keeps.ite_snd, Keeps.foldl, Keeps.foldl_snd, State.stopTiles_keeps, State.stopBev_keeps,
    State.stopEtuJob_keeps, State.endHarvest_keeps, implies_true]

theorem State.cutStages_keeps (hs : Keeps s₀ s) :
    Keeps s₀ (s.cutStages) := by
  unfold State.cutStages
  simp (maxDischargeDepth := 64) +contextual only [*, Keeps.ite, Keeps.foldl, State.dropAcks_keeps,
    State.stopStage_keeps, State.endStage_keeps, implies_true]

theorem State.truncate_keeps (hs : Keeps s₀ s) :
    Keeps s₀ (s.truncate) := by
  unfold State.truncate
  repeat' first
    | (simp (maxDischargeDepth := 64) +contextual only [*, Keeps.ite, State.stopRemote_keeps, State.updFrame_keeps,
        State.cutStages_keeps, implies_true]; done)
    | split

theorem State.discardClosed_keeps (f : Frame) (hs : Keeps s₀ s) :
    Keeps s₀ (s.discardClosed f) := by
  unfold State.discardClosed
  simp (maxDischargeDepth := 64) +contextual only [*, State.freeFrameBanks_keeps, State.dropPoints_keeps,
    State.endWaiters_keeps, implies_true]

theorem State.overrun_keeps (f : Frame) (hs : Keeps s₀ s) :
    Keeps s₀ (s.overrun f) := by
  unfold State.overrun
  repeat' first
    | (simp (maxDischargeDepth := 64) +contextual only [*, Keeps.ite, State.updFrm_keeps, State.bump_keeps, State.event_keeps,
        State.error_keeps, State.latch_keeps, State.updFrame_keeps, State.truncate_keeps, State.discardClosed_keeps,
        implies_true]; done)
    | split
    | (dsimp only; split)

theorem State.closeFrame_keeps (f : Frame) (hs : Keeps s₀ s) :
    Keeps s₀ (s.closeFrame f) := by
  unfold State.closeFrame
  simp (maxDischargeDepth := 64) +contextual only [*, Keeps.ite, Keeps.ite_snd, Keeps.foldl, Keeps.foldl_snd, State.updFrm_keeps, State.enterCompute_keeps,
    State.discardClosed_keeps, State.overrun_keeps, implies_true]

theorem State.watchTick_keeps (hs : Keeps s₀ s) :
    Keeps s₀ (s.watchTick) := by
  unfold State.watchTick
  exact Keeps.ite (State.updSaf_keeps _ (State.setFld_keeps _ _ hs)) (State.setFld_keeps _ _ hs)

theorem State.tickNote_keeps (hs : Keeps s₀ s) :
    Keeps s₀ (s.tickNote) := by
  unfold State.tickNote
  simp (maxDischargeDepth := 64) +contextual only [*, Keeps.ite, Keeps.ite_snd, Keeps.foldl, Keeps.foldl_snd, State.setFld_keeps, State.updFrm_keeps,
    State.event_keeps, State.testAbort_keeps, State.testSkip_keeps, implies_true]

theorem State.tickLanes_keeps (m : Nat) (hs : Keeps s₀ s) :
    Keeps s₀ (s.tickLanes m) := by
  unfold State.tickLanes
  simp (maxDischargeDepth := 64) +contextual only [*, Keeps.foldl, State.laneTick_keeps, implies_true]

theorem State.makeTick_keeps (hs : Keeps s₀ s) :
    Keeps s₀ (s.makeTick) := by
  unfold State.makeTick
  repeat' first
    | (simp (maxDischargeDepth := 64) +contextual only [*, Keeps.ite, State.updFrm_keeps, State.wakePlanTiles_keeps,
        State.openIngest_keeps, State.closeFrame_keeps, State.watchTick_keeps, State.tickNote_keeps,
        State.tickLanes_keeps, implies_true]; done)
    | split
    | (dsimp only; split)

theorem State.tick_keeps (hs : Keeps s₀ s) :
    Keeps s₀ (s.tick) := by
  unfold State.tick
  simp (maxDischargeDepth := 64) +contextual only [*, Keeps.ite, State.makeTick_keeps, implies_true]

theorem State.syncEdge_keeps (hs : Keeps s₀ s) :
    Keeps s₀ (s.syncEdge) := by
  unfold State.syncEdge
  simp (maxDischargeDepth := 64) +contextual only [*, Keeps.ite, State.updFrm_keeps, State.bump_keeps,
    State.makeTick_keeps, implies_true]

theorem State.flywheel_keeps (hs : Keeps s₀ s) :
    Keeps s₀ (s.flywheel) := by
  unfold State.flywheel
  simp (maxDischargeDepth := 64) +contextual only [*, Keeps.ite, State.updFrm_keeps, State.bump_keeps, State.event_keeps,
    State.error_keeps, State.makeTick_keeps, implies_true]

theorem State.syncOutEnd_keeps (hs : Keeps s₀ s) :
    Keeps s₀ (s.syncOutEnd) := by
  unfold State.syncOutEnd
  simp (maxDischargeDepth := 64) +contextual only [*, Keeps.ite, State.updFrm_keeps, implies_true]

theorem State.timeMark_keeps (hs : Keeps s₀ s) :
    Keeps s₀ (s.timeMark) := by
  unfold State.timeMark
  simp (maxDischargeDepth := 64) +contextual only [*, Keeps.ite, State.setFld_keeps, implies_true]

theorem State.setTimeState_keeps (st : Nat) (hs : Keeps s₀ s) :
    Keeps s₀ (s.setTimeState st) := by
  unfold State.setTimeState
  simp (maxDischargeDepth := 64) +contextual only [*, Keeps.ite, State.updFrm_keeps, State.setFld_keeps,
    State.event_keeps, implies_true]

theorem State.setTrim_keeps (dg : Int) (dm : Int) (e : Int) (hs : Keeps s₀ s) :
    Keeps s₀ (s.setTrim dg dm e) := by
  unfold State.setTrim
  simp (maxDischargeDepth := 64) +contextual only [*, Keeps.ite, Keeps.ite_snd, State.setSfld_keeps, State.within1_keeps,
    implies_true]

theorem State.stepTime_keeps (e : Int) (hs : Keeps s₀ s) :
    Keeps s₀ (s.stepTime e) := by
  unfold State.stepTime
  simp (maxDischargeDepth := 64) +contextual only [*, Keeps.record, implies_true]

theorem State.judgeSample_keeps (st : Nat) (e : Int) (hs : Keeps s₀ s) :
    Keeps s₀ (s.judgeSample st e) := by
  unfold State.judgeSample
  simp (maxDischargeDepth := 64) +contextual only [*, Keeps.ite, State.updFrm_keeps, State.setTimeState_keeps,
    implies_true]

theorem State.takeSample_keeps (gptp : Nat) (hs : Keeps s₀ s) :
    Keeps s₀ (s.takeSample gptp) := by
  unfold State.takeSample
  simp (maxDischargeDepth := 64) +contextual only [*, Keeps.ite, Keeps.ite_snd, Keeps.foldl, Keeps.foldl_snd, State.updFrm_keeps, State.setSfld_keeps,
    State.error_keeps, State.setTrim_keeps, State.stepTime_keeps, State.judgeSample_keeps, implies_true]

theorem State.timeSample_keeps (ctx : Nat) (seq : Nat) (gptp : Nat) (hs : Keeps s₀ s) :
    Keeps s₀ (s.timeSample ctx seq gptp) := by
  unfold State.timeSample
  simp (maxDischargeDepth := 64) +contextual only [*, Keeps.ite, State.bump_keeps, State.takeSample_keeps, implies_true]

theorem State.timeHoldover_keeps (hs : Keeps s₀ s) :
    Keeps s₀ (s.timeHoldover) := by
  unfold State.timeHoldover
  simp (maxDischargeDepth := 64) +contextual only [*, Keeps.ite, State.error_keeps, State.setTimeState_keeps,
    implies_true]

theorem State.drainWindowEnd_keeps (hs : Keeps s₀ s) :
    Keeps s₀ (s.drainWindowEnd) := by
  unfold State.drainWindowEnd
  simp (maxDischargeDepth := 64) +contextual only [*, Keeps.ite, State.updFrm_keeps, implies_true]

theorem State.binningComplete_keeps (hs : Keeps s₀ s) :
    Keeps s₀ (s.binningComplete) := by
  unfold State.binningComplete
  repeat' first
    | (simp (maxDischargeDepth := 64) +contextual only [*, Keeps.ite, State.freezeFrame_keeps, State.admitFrame_keeps,
        implies_true]; done)
    | split

theorem State.sepCloseLate_keeps (hs : Keeps s₀ s) :
    Keeps s₀ (s.sepCloseLate) := by
  unfold State.sepCloseLate
  repeat' first
    | (simp (maxDischargeDepth := 64) +contextual only [*, Keeps.ite, State.event_keeps, State.error_keeps, State.note_keeps,
        State.dropPoints_keeps, State.updFrame_keeps, State.freezeFrame_keeps, State.admitFrame_keeps, implies_true]; done)
    | split

theorem State.thinningDone_keeps (hs : Keeps s₀ s) :
    Keeps s₀ (s.thinningDone) := by
  unfold State.thinningDone
  repeat' first
    | (simp (maxDischargeDepth := 64) +contextual only [*, Keeps.ite, State.thin_keeps, implies_true]; done)
    | split

theorem State.commitRegs_keeps (f : Frame) (hs : Keeps s₀ s) :
    Keeps s₀ (s.commitRegs f) := by
  unfold State.commitRegs
  repeat' first
    | (simp (maxDischargeDepth := 64) +contextual only [*, Keeps.foldl, State.setFld_keeps, implies_true]; done)
    | split
    | (dsimp only; split)

theorem State.directoryDone_keeps (hs : Keeps s₀ s) :
    Keeps s₀ (s.directoryDone) := by
  unfold State.directoryDone
  repeat' first
    | (simp (maxDischargeDepth := 64) +contextual only [*, Keeps.ite, State.commit_keeps, State.commitRegs_keeps, implies_true]; done)
    | split

theorem State.holdHarvest_keeps (r : RunStage) (hs : Keeps s₀ s) :
    Keeps s₀ (s.holdHarvest r) := by
  unfold State.holdHarvest
  simp (maxDischargeDepth := 64) +contextual only [*, Keeps.ite, Keeps.ite_snd, Keeps.foldl, Keeps.foldl_snd, State.updHrv_keeps, State.bump_keeps,
    State.event_keeps, implies_true]

theorem State.holdTiles_keeps (r : RunStage) (hs : Keeps s₀ s) :
    Keeps s₀ (s.holdTiles r) := by
  unfold State.holdTiles
  simp (maxDischargeDepth := 64) +contextual only [*, Keeps.ite, Keeps.ite_snd, Keeps.foldl, Keeps.foldl_snd, State.setFld_keeps, State.updCond_keeps,
    State.updTile_keeps, implies_true]

theorem State.startStage_keeps (r : RunStage) (hs : Keeps s₀ s) :
    Keeps s₀ (s.startStage r) := by
  unfold State.startStage
  simp (maxDischargeDepth := 64) +contextual only [*, Keeps.ite, Keeps.ite_snd, Keeps.foldl, Keeps.foldl_snd, State.setFld_keeps, State.updFrm_keeps,
    State.updHrv_keeps, State.updCond_keeps, State.touch_keeps, State.updRun_keeps, State.stageCode_keeps,
    State.hrvEnqueue_keeps, State.hrvCount_keeps, State.holdTiles_keeps, implies_true]

theorem State.stageDispatch_keeps (hs : Keeps s₀ s) :
    Keeps s₀ (s.stageDispatch) := by
  unfold State.stageDispatch
  repeat' first
    | (simp (maxDischargeDepth := 64) +contextual only [*, Keeps.ite, Keeps.ite_snd, Keeps.foldl, Keeps.foldl_snd,
        State.wakeTile_keeps, State.holdHarvest_keeps, State.startStage_keeps, implies_true]; done)
    | split
    | (dsimp only; split)

theorem State.stageComplete_keeps (n : Nat) (hs : Keeps s₀ s) :
    Keeps s₀ (s.stageComplete n) := by
  unfold State.stageComplete
  repeat' first
    | (simp (maxDischargeDepth := 64) +contextual only [*, Keeps.ite, State.dropAcks_keeps, State.endStage_keeps, implies_true]; done)
    | split

theorem State.e2eBegin_keeps (n : Nat) (crc : Nat) (hs : Keeps s₀ s) :
    Keeps s₀ (s.e2eBegin n crc) := by
  unfold State.e2eBegin
  simp (maxDischargeDepth := 64) +contextual only [*, Keeps.ite, State.updSaf_keeps, State.bump_keeps, implies_true]

theorem State.settleClosing_keeps (hs : Keeps s₀ s) :
    Keeps s₀ (s.settleClosing) := by
  unfold State.settleClosing
  repeat' first
    | (simp (maxDischargeDepth := 64) +contextual only [*, Keeps.ite, State.updFrm_keeps, State.enterCompute_keeps,
        State.discardClosed_keeps, implies_true]; done)
    | split

theorem State.settleRest_keeps (hs : Keeps s₀ s) :
    Keeps s₀ (s.settleRest) := by
  unfold State.settleRest
  simp (maxDischargeDepth := 64) +contextual only [*, Keeps.ite, Keeps.ite_snd, Keeps.foldl, Keeps.foldl_snd, State.updCond_keeps, State.frmRest_keeps,
    implies_true]

theorem State.settle_keeps (hs : Keeps s₀ s) :
    Keeps s₀ (s.settle) := by
  unfold State.settle
  simp (maxDischargeDepth := 64) +contextual only [*, Keeps.ite, Keeps.ite_snd, Keeps.foldl, Keeps.foldl_snd, State.afterFrame_keeps,
    State.pageFault_keeps, State.settleClosing_keeps, State.settleRest_keeps, implies_true]

theorem State.publishFrame_keeps (f : Frame) (hs : Keeps s₀ s) :
    Keeps s₀ (s.publishFrame f) := by
  unfold State.publishFrame
  simp (maxDischargeDepth := 64) +contextual only [*, Keeps.ite, Keeps.ite_snd, Keeps.foldl, Keeps.foldl_snd, State.setFld_keeps, State.updFrm_keeps,
    State.updSaf_keeps, State.event_keeps, State.doneFollowers_keeps, State.freeFrameBanks_keeps,
    State.noSets_keeps, State.freeSets_keeps, State.dropCompute_keeps, State.writeOut_keeps,
    State.fetch_keeps, State.e2eBegin_keeps, State.settle_keeps, implies_true]

theorem State.publication_keeps (hs : Keeps s₀ s) :
    Keeps s₀ (s.publication) := by
  unfold State.publication
  split
  · exact hs
  · next f _ =>
    refine Keeps.ite hs ?_
    have hq : Keeps s₀ (if f.freeRun = true then (false, s) else s.takeInjection 0x0B 0).2 :=
      Keeps.ite_snd hs (State.takeInjection_keeps _ _ hs)
    revert hq
    generalize (if f.freeRun = true then (false, s) else s.takeInjection 0x0B 0) = q
    intro hq
    dsimp only
    have hz := Keeps.ite (c := f.frozen = true) hq (State.freezeFrame_keeps f hq)
    split
    · exact State.updFrame_keeps _ _ hq
    · split
      · exact State.publishFrame_keeps _ hz
      · exact hz

theorem State.budgetExceeded_keeps (hs : Keeps s₀ s) :
    Keeps s₀ (s.budgetExceeded) := by
  unfold State.budgetExceeded
  repeat' first
    | (simp (maxDischargeDepth := 64) +contextual only [*, Keeps.ite, State.error_keeps, State.latch_keeps,
        State.updFrame_keeps, implies_true]; done)
    | split

theorem State.planRecheck_keeps (b : Nat) (hs : Keeps s₀ s) :
    Keeps s₀ (s.planRecheck b) := by
  unfold State.planRecheck
  simp (maxDischargeDepth := 64) +contextual only [*, Keeps.ite, Keeps.ite_snd, Keeps.foldl, Keeps.foldl_snd, State.setFld_keeps, State.updFrm_keeps,
    State.updRst_keeps, State.error_keeps, State.emptySlot_keeps, State.pageFault_keeps,
    State.planCorrupt_keeps, implies_true]

theorem State.coreFreqChange_keeps (hs : Keeps s₀ s) :
    Keeps s₀ (s.coreFreqChange) := by
  unfold State.coreFreqChange
  simp (maxDischargeDepth := 64) +contextual only [*, Keeps.ite, State.applyCore_keeps, implies_true]

theorem State.rejectRecords_keeps (b : List Byte) (count : Nat) (hs : Keeps s₀ s) :
    Keeps s₀ (s.rejectRecords b count) := by
  unfold State.rejectRecords
  simp (maxDischargeDepth := 64) +contextual only [*, Keeps.ite, Keeps.ite_snd, Keeps.foldl, Keeps.foldl_snd, State.error_keeps, implies_true]

theorem State.jobRecords_keeps (ctx : Nat) (j : Job) (host : List Byte) (hs : Keeps s₀ s) :
    Keeps s₀ (s.jobRecords ctx j host).2 := by
  unfold State.jobRecords
  repeat' first
    | (simp (maxDischargeDepth := 64) +contextual only [*, Keeps.ite, Keeps.ite_snd, Keeps.foldl, Keeps.foldl_snd, State.fetch_keeps, State.hostIssue_keeps,
        implies_true]; done)
    | split
    | (dsimp only; split)

theorem State.startFrame_keeps (ctx : Nat) (ring : Nat) (j : Job) (host : List Byte) (hs : Keeps s₀ s) :
    Keeps s₀ (s.startFrame ctx ring j host) := by
  unfold State.startFrame
  simp (maxDischargeDepth := 64) +contextual only [*, Keeps.ite, Keeps.ite_snd, Keeps.foldl, Keeps.foldl_snd, State.updFrm_keeps, State.updSep_keeps,
    State.updCond_keeps, State.setJob_keeps, State.ring_keeps, State.hostDmaFail_keeps,
    State.openBanks_keeps, State.sepOpen_keeps, State.wakePlanTiles_keeps, State.testAbort_keeps,
    State.testSkip_keeps, State.applySwitch_keeps, State.enterCompute_keeps, State.rejectRecords_keeps,
    State.jobRecords_keeps, implies_true]

theorem State.frameJobAccept_keeps (ctx : Nat) (ring : Nat) (host : List Byte) (hs : Keeps s₀ s) :
    Keeps s₀ (s.frameJobAccept ctx ring host) := by
  unfold State.frameJobAccept
  repeat' first
    | (simp (maxDischargeDepth := 64) +contextual only [*, Keeps.ite, Keeps.ite_snd, Keeps.foldl, Keeps.foldl_snd, State.ring_keeps, State.startFrame_keeps,
        implies_true]; done)
    | split

theorem execFrmStart_keeps (dt : Nat) (w : Nat) {s₁ : State}
    (e : execFrmStart dt w s = .next s₁) : Keeps s s₁ := by
  unfold execFrmStart at e
  obtain rfl := Host.Outcome.next.inj e
  simp (maxDischargeDepth := 64) +contextual only [*, Keeps.refl, State.arriveBy_keeps, State.writeFrmCtl_keeps,
    State.arrive_keeps, implies_true]

theorem execFrmStop_keeps (dt : Nat) (w : Nat) {s₁ : State}
    (e : execFrmStop dt w s = .next s₁) : Keeps s s₁ := by
  unfold execFrmStop at e
  obtain rfl := Host.Outcome.next.inj e
  simp (maxDischargeDepth := 64) +contextual only [*, Keeps.refl, State.arriveBy_keeps, State.writeFrmCtl_keeps,
    State.arrive_keeps, implies_true]

theorem execPlanLoad_keeps (dt : Nat) (w : Nat) (slot : Nat) {s₁ : State}
    (e : execPlanLoad dt w slot s = .next s₁) : Keeps s s₁ := by
  unfold execPlanLoad at e
  obtain rfl := Host.Outcome.next.inj e
  simp (maxDischargeDepth := 64) +contextual only [*, Keeps.refl, State.arriveBy_keeps, State.writePlanCtl_keeps,
    State.arrive_keeps, implies_true]

theorem execPlanLoadDone_keeps (dt : Nat) {s₁ : State}
    (e : execPlanLoadDone dt s = .next s₁) : Keeps s s₁ := by
  unfold execPlanLoadDone at e
  obtain rfl := Host.Outcome.next.inj e
  simp (maxDischargeDepth := 64) +contextual only [*, Keeps.refl, State.arrive_keeps, State.planLoadDone_keeps,
    implies_true]

theorem execPlanSwitch_keeps (dt : Nat) (w : Nat) {s₁ : State}
    (e : execPlanSwitch dt w s = .next s₁) : Keeps s s₁ := by
  unfold execPlanSwitch at e
  obtain rfl := Host.Outcome.next.inj e
  simp (maxDischargeDepth := 64) +contextual only [*, Keeps.refl, State.arriveBy_keeps, State.writePlanCtl_keeps,
    State.arrive_keeps, implies_true]

theorem execPlanUnload_keeps (dt : Nat) (w : Nat) (slot : Nat) {s₁ : State}
    (e : execPlanUnload dt w slot s = .next s₁) : Keeps s s₁ := by
  unfold execPlanUnload at e
  obtain rfl := Host.Outcome.next.inj e
  simp (maxDischargeDepth := 64) +contextual only [*, Keeps.refl, State.arriveBy_keeps, State.writePlanCtl_keeps,
    State.arrive_keeps, implies_true]

theorem execPlanRecheck_keeps (dt : Nat) (slot : Nat) {s₁ : State}
    (e : execPlanRecheck dt slot s = .next s₁) : Keeps s s₁ := by
  unfold execPlanRecheck at e
  obtain rfl := Host.Outcome.next.inj e
  simp (maxDischargeDepth := 64) +contextual only [*, Keeps.refl, Keeps.ite, Keeps.ite_snd, Keeps.foldl, Keeps.foldl_snd, State.arrive_keeps,
    State.planRecheck_keeps, implies_true]

theorem execTick_keeps (dt : Nat) {s₁ : State}
    (e : execTick dt s = .next s₁) : Keeps s s₁ := by
  unfold execTick at e
  obtain rfl := Host.Outcome.next.inj e
  simp (maxDischargeDepth := 64) +contextual only [*, Keeps.refl, State.arrive_keeps, State.tick_keeps, implies_true]

theorem execFrameSyncEdge_keeps (dt : Nat) {s₁ : State}
    (e : execFrameSyncEdge dt s = .next s₁) : Keeps s s₁ := by
  unfold execFrameSyncEdge at e
  obtain rfl := Host.Outcome.next.inj e
  simp (maxDischargeDepth := 64) +contextual only [*, Keeps.refl, State.arrive_keeps, State.syncEdge_keeps, implies_true]

theorem execFlywheelTick_keeps (dt : Nat) {s₁ : State}
    (e : execFlywheelTick dt s = .next s₁) : Keeps s s₁ := by
  unfold execFlywheelTick at e
  obtain rfl := Host.Outcome.next.inj e
  simp (maxDischargeDepth := 64) +contextual only [*, Keeps.refl, State.arrive_keeps, State.flywheel_keeps, implies_true]

theorem execSyncOutEnd_keeps (dt : Nat) {s₁ : State}
    (e : execSyncOutEnd dt s = .next s₁) : Keeps s s₁ := by
  unfold execSyncOutEnd at e
  obtain rfl := Host.Outcome.next.inj e
  simp (maxDischargeDepth := 64) +contextual only [*, Keeps.refl, State.arrive_keeps, State.syncOutEnd_keeps,
    implies_true]

theorem execTimeMark_keeps (dt : Nat) {s₁ : State}
    (e : execTimeMark dt s = .next s₁) : Keeps s s₁ := by
  unfold execTimeMark at e
  obtain rfl := Host.Outcome.next.inj e
  simp (maxDischargeDepth := 64) +contextual only [*, Keeps.refl, State.arrive_keeps, State.timeMark_keeps, implies_true]

theorem execTimeSample_keeps (dt : Nat) (ctx : Nat) (markSeq : Nat) (gptp : Nat) {s₁ : State}
    (e : execTimeSample dt ctx markSeq gptp s = .next s₁) : Keeps s s₁ := by
  unfold execTimeSample at e
  obtain rfl := Host.Outcome.next.inj e
  simp (maxDischargeDepth := 64) +contextual only [*, Keeps.refl, State.arrive_keeps, State.timeSample_keeps,
    implies_true]

theorem execTimeHoldover_keeps (dt : Nat) {s₁ : State}
    (e : execTimeHoldover dt s = .next s₁) : Keeps s s₁ := by
  unfold execTimeHoldover at e
  obtain rfl := Host.Outcome.next.inj e
  simp (maxDischargeDepth := 64) +contextual only [*, Keeps.refl, State.arrive_keeps, State.timeHoldover_keeps,
    implies_true]

theorem execDrainWindowEnd_keeps (dt : Nat) {s₁ : State}
    (e : execDrainWindowEnd dt s = .next s₁) : Keeps s s₁ := by
  unfold execDrainWindowEnd at e
  obtain rfl := Host.Outcome.next.inj e
  simp (maxDischargeDepth := 64) +contextual only [*, Keeps.refl, State.arrive_keeps, State.drainWindowEnd_keeps,
    implies_true]

theorem execBinningComplete_keeps (dt : Nat) {s₁ : State}
    (e : execBinningComplete dt s = .next s₁) : Keeps s s₁ := by
  unfold execBinningComplete at e
  obtain rfl := Host.Outcome.next.inj e
  simp (maxDischargeDepth := 64) +contextual only [*, Keeps.refl, State.arrive_keeps, State.binningComplete_keeps,
    implies_true]

theorem execSepCloseLate_keeps (dt : Nat) {s₁ : State}
    (e : execSepCloseLate dt s = .next s₁) : Keeps s s₁ := by
  unfold execSepCloseLate at e
  obtain rfl := Host.Outcome.next.inj e
  simp (maxDischargeDepth := 64) +contextual only [*, Keeps.refl, State.arrive_keeps, State.sepCloseLate_keeps,
    implies_true]

theorem execThinningDone_keeps (dt : Nat) {s₁ : State}
    (e : execThinningDone dt s = .next s₁) : Keeps s s₁ := by
  unfold execThinningDone at e
  obtain rfl := Host.Outcome.next.inj e
  simp (maxDischargeDepth := 64) +contextual only [*, Keeps.refl, State.arrive_keeps, State.thinningDone_keeps,
    implies_true]

theorem execDirectoryCommitDone_keeps (dt : Nat) {s₁ : State}
    (e : execDirectoryCommitDone dt s = .next s₁) : Keeps s s₁ := by
  unfold execDirectoryCommitDone at e
  obtain rfl := Host.Outcome.next.inj e
  simp (maxDischargeDepth := 64) +contextual only [*, Keeps.refl, State.arrive_keeps, State.directoryDone_keeps,
    implies_true]

theorem execBankTake_keeps (dt : Nat) {s₁ : State}
    (e : execBankTake dt s = .next s₁) : Keeps s s₁ := by
  unfold execBankTake at e
  obtain rfl := Host.Outcome.next.inj e
  simp (maxDischargeDepth := 64) +contextual only [*, Keeps.refl, State.arrive_keeps, State.bankTake_keeps, implies_true]

theorem execStageDispatch_keeps (dt : Nat) {s₁ : State}
    (e : execStageDispatch dt s = .next s₁) : Keeps s s₁ := by
  unfold execStageDispatch at e
  obtain rfl := Host.Outcome.next.inj e
  simp (maxDischargeDepth := 64) +contextual only [*, Keeps.refl, State.arrive_keeps, State.stageDispatch_keeps,
    implies_true]

theorem execStageComplete_keeps (dt : Nat) (stage : Nat) {s₁ : State}
    (e : execStageComplete dt stage s = .next s₁) : Keeps s s₁ := by
  unfold execStageComplete at e
  obtain rfl := Host.Outcome.next.inj e
  simp (maxDischargeDepth := 64) +contextual only [*, Keeps.refl, State.arrive_keeps, State.stageComplete_keeps,
    implies_true]

theorem execPublication_keeps (dt : Nat) {s₁ : State}
    (e : execPublication dt s = .next s₁) : Keeps s s₁ := by
  unfold execPublication at e
  obtain rfl := Host.Outcome.next.inj e
  simp (maxDischargeDepth := 64) +contextual only [*, Keeps.refl, State.arrive_keeps, State.publication_keeps,
    implies_true]

theorem execBudgetExceeded_keeps (dt : Nat) {s₁ : State}
    (e : execBudgetExceeded dt s = .next s₁) : Keeps s s₁ := by
  unfold execBudgetExceeded at e
  obtain rfl := Host.Outcome.next.inj e
  simp (maxDischargeDepth := 64) +contextual only [*, Keeps.refl, State.arrive_keeps, State.budgetExceeded_keeps,
    implies_true]

theorem execCoreFreqChange_keeps (dt : Nat) {s₁ : State}
    (e : execCoreFreqChange dt s = .next s₁) : Keeps s s₁ := by
  unfold execCoreFreqChange at e
  obtain rfl := Host.Outcome.next.inj e
  simp (maxDischargeDepth := 64) +contextual only [*, Keeps.refl, State.arrive_keeps, State.coreFreqChange_keeps,
    implies_true]

theorem execFrameJobAccept_keeps (dt : Nat) (ctx : Nat) (ring : Nat) (records : List Byte) {s₁ : State}
    (e : execFrameJobAccept dt ctx ring records s = .next s₁) : Keeps s s₁ := by
  unfold execFrameJobAccept at e
  obtain rfl := Host.Outcome.next.inj e
  simp (maxDischargeDepth := 64) +contextual only [*, Keeps.refl, State.arrive_keeps, State.ring_keeps,
    State.frameJobAccept_keeps, implies_true]

end Sys2Proof.Machine
end

