-- ==== Sys2Proof/Laws/KeepsGraft.lean ====
section
/-! SUPPORT. What the operations of Machine/Graft.lean keep: the waiting commands and the canonical form (Laws/Keeps.lean). -/

namespace Sys2Proof.Machine

set_option linter.unusedSimpArgs false
set_option linter.unusedTactic false

variable {s₀ s : State}

theorem State.dispose_keeps (n : Nat) (p : Packet) (hs : Keeps s₀ s) :
    Keeps s₀ (s.dispose n p) := by
  unfold State.dispose
  repeat' first
    | (simp (maxDischargeDepth := 64) +contextual only [*, Keeps.ite, State.bump_keeps, State.routeResp_keeps,
        State.loseReq_keeps, implies_true]; done)
    | split
    | (dsimp only; split)

theorem State.portClear_keeps (n : Nat) (hs : Keeps s₀ s) :
    Keeps s₀ (s.portClear n) := by
  unfold State.portClear
  simp (maxDischargeDepth := 64) +contextual only [*, Keeps.ite_snd, Keeps.foldl, Keeps.foldl_snd, State.updPort_keeps,
    State.dispose_keeps, implies_true]

theorem State.portOff_keeps (n : Nat) (hs : Keeps s₀ s) :
    Keeps s₀ (s.portOff n) := by
  unfold State.portOff
  simp (maxDischargeDepth := 64) +contextual only [*, Keeps.ite, State.setFld_keeps, State.updCond_keeps,
    State.release_keeps, State.setLink_keeps, State.portClear_keeps, implies_true]

theorem State.portsOff_keeps (hs : Keeps s₀ s) :
    Keeps s₀ (s.portsOff) := by
  unfold State.portsOff
  simp (maxDischargeDepth := 64) +contextual only [*, Keeps.foldl, State.portOff_keeps, implies_true]

theorem State.portTrain_keeps (n : Nat) (hs : Keeps s₀ s) :
    Keeps s₀ (s.portTrain n) := by
  unfold State.portTrain
  simp (maxDischargeDepth := 64) +contextual only [*, State.updCond_keeps, State.setLink_keeps, implies_true]

theorem State.portStart_keeps (n : Nat) (hs : Keeps s₀ s) :
    Keeps s₀ (s.portStart n) := by
  unfold State.portStart
  simp (maxDischargeDepth := 64) +contextual only [*, Keeps.ite, State.updCond_keeps, State.acquire_keeps,
    State.portTrain_keeps, implies_true]

theorem State.portsResume_keeps (hs : Keeps s₀ s) :
    Keeps s₀ (s.portsResume) := by
  unfold State.portsResume
  simp (maxDischargeDepth := 64) +contextual only [*, Keeps.ite, Keeps.foldl, State.portStart_keeps, implies_true]

theorem State.linkTrained_keeps (n : Nat) (hs : Keeps s₀ s) :
    Keeps s₀ (s.linkTrained n) := by
  unfold State.linkTrained
  simp (maxDischargeDepth := 64) +contextual only [*, Keeps.ite, Keeps.ite_snd, Keeps.foldl, Keeps.foldl_snd, State.setFld_keeps, State.setLink_keeps,
    implies_true]

theorem State.sendCtrl_keeps (n : Nat) (b : List Byte) (hs : Keeps s₀ s) :
    Keeps s₀ (s.sendCtrl n b) := by
  unfold State.sendCtrl
  simp (maxDischargeDepth := 64) +contextual only [*, Keeps.ite, Keeps.ite_snd, Keeps.foldl, Keeps.foldl_snd, State.updPort_keeps, implies_true]

theorem State.linkAligned_keeps (n : Nat) (hs : Keeps s₀ s) :
    Keeps s₀ (s.linkAligned n) := by
  unfold State.linkAligned
  simp (maxDischargeDepth := 64) +contextual only [*, Keeps.ite, Keeps.ite_snd, Keeps.foldl, Keeps.foldl_snd, State.setLink_keeps, State.sendCtrl_keeps,
    implies_true]

theorem State.noteNeighbour_keeps (n : Nat) (node : Nat) (dir : Nat) (hs : Keeps s₀ s) :
    Keeps s₀ (s.noteNeighbour n node dir) := by
  unfold State.noteNeighbour
  simp (maxDischargeDepth := 64) +contextual only [*, State.setFld_keeps, implies_true]

theorem State.ackTo_keeps (n : Nat) (seq : Nat) (hs : Keeps s₀ s) :
    Keeps s₀ (s.ackTo n seq) := by
  unfold State.ackTo
  repeat' first
    | (simp (maxDischargeDepth := 64) +contextual only [*, Keeps.ite, State.updPort_keeps, implies_true]; done)
    | split

theorem State.linkRecover_keeps (n : Nat) (hs : Keeps s₀ s) :
    Keeps s₀ (s.linkRecover n) := by
  unfold State.linkRecover
  simp (maxDischargeDepth := 64) +contextual only [*, Keeps.ite, Keeps.ite_snd, Keeps.foldl, Keeps.foldl_snd, State.bump_keeps, State.event_keeps,
    State.setLink_keeps, State.updPort_keeps, State.sendCtrl_keeps, implies_true]

theorem State.replayFrom_keeps (n : Nat) (k : Nat) (hs : Keeps s₀ s) :
    Keeps s₀ (s.replayFrom n k) := by
  unfold State.replayFrom
  simp (maxDischargeDepth := 64) +contextual only [*, Keeps.ite, State.bump_keeps, State.updPort_keeps,
    State.countTx_keeps, State.linkRecover_keeps, implies_true]

theorem State.linkNak_keeps (n : Nat) (seq : Nat) (hs : Keeps s₀ s) :
    Keeps s₀ (s.linkNak n seq) := by
  unfold State.linkNak
  repeat' first
    | (simp (maxDischargeDepth := 64) +contextual only [*, State.replayFrom_keeps, implies_true]; done)
    | split

theorem State.linkReplayTimeout_keeps (n : Nat) (hs : Keeps s₀ s) :
    Keeps s₀ (s.linkReplayTimeout n) := by
  unfold State.linkReplayTimeout
  simp (maxDischargeDepth := 64) +contextual only [*, Keeps.ite, State.replayFrom_keeps, implies_true]

theorem State.resume_keeps (n : Nat) (hs : Keeps s₀ s) :
    Keeps s₀ (s.resume n) := by
  unfold State.resume
  simp (maxDischargeDepth := 64) +contextual only [*, Keeps.ite, Keeps.ite_snd, Keeps.foldl, Keeps.foldl_snd, State.updPort_keeps, State.countTx_keeps,
    implies_true]

theorem State.portSend_keeps (n : Nat) (hs : Keeps s₀ s) :
    Keeps s₀ (s.portSend n) := by
  unfold State.portSend
  simp (maxDischargeDepth := 64) +contextual only [*, Keeps.ite, Keeps.ite_snd, Keeps.foldl, Keeps.foldl_snd, State.pump_keeps, State.resume_keeps,
    implies_true]

theorem State.linkExchange_keeps (n : Nat) (node : Nat) (dir : Nat) (cfg : Word) (seq : Nat) (hs : Keeps s₀ s) :
    Keeps s₀ (s.linkExchange n node dir cfg seq) := by
  unfold State.linkExchange
  simp (maxDischargeDepth := 64) +contextual only [*, Keeps.ite, Keeps.ite_snd, Keeps.foldl, Keeps.foldl_snd, State.setFld_keeps, State.event_keeps,
    State.error_keeps, State.setLink_keeps, State.pageFault_keeps, State.updPort_keeps, State.pump_keeps,
    State.noteNeighbour_keeps, State.ackTo_keeps, State.portSend_keeps, implies_true]

theorem State.laneLockLost_keeps (n : Nat) (lanes : Nat) (hs : Keeps s₀ s) :
    Keeps s₀ (s.laneLockLost n lanes) := by
  unfold State.laneLockLost
  simp (maxDischargeDepth := 64) +contextual only [*, Keeps.ite, State.setFld_keeps, State.linkRecover_keeps,
    implies_true]

theorem State.recoverTimeout_keeps (n : Nat) (hs : Keeps s₀ s) :
    Keeps s₀ (s.recoverTimeout n) := by
  unfold State.recoverTimeout
  simp (maxDischargeDepth := 64) +contextual only [*, Keeps.ite, State.bump_keeps, State.event_keeps, State.error_keeps,
    State.setLink_keeps, State.portClear_keeps, implies_true]

theorem State.portTake_keeps (n : Nat) (v : Nat) (p : Packet) (hs : Keeps s₀ s) :
    Keeps s₀ (s.portTake n v p) := by
  unfold State.portTake
  simp (maxDischargeDepth := 64) +contextual only [*, State.updPort_keeps, implies_true]

theorem State.freeSlots_keeps (n : Nat) (v : Nat) (k : Nat) (hs : Keeps s₀ s) :
    Keeps s₀ (s.freeSlots n v k) := by
  unfold State.freeSlots
  simp (maxDischargeDepth := 64) +contextual only [*, Keeps.ite, State.updPort_keeps, implies_true]

theorem State.partNow_keeps (n : Nat) (v : Nat) (p : Packet) (left : Nat) (hs : Keeps s₀ s) :
    Keeps s₀ (s.partNow n v p left) := by
  unfold State.partNow
  simp (maxDischargeDepth := 64) +contextual only [*, Keeps.ite, State.updPort_keeps, State.portTake_keeps, implies_true]

theorem State.recvSlot_keeps (n : Nat) (v : Nat) (start : Bool) (b : List Byte) (hs : Keeps s₀ s) :
    Keeps s₀ (s.recvSlot n v start b) := by
  unfold State.recvSlot
  repeat' first
    | (simp (maxDischargeDepth := 64) +contextual only [*, Keeps.ite, State.partNow_keeps, implies_true]; done)
    | split

theorem State.recvSlots_keeps (n : Nat) (flit : List Byte) (hs : Keeps s₀ s) :
    Keeps s₀ (s.recvSlots n flit) := by
  unfold State.recvSlots
  simp (maxDischargeDepth := 64) +contextual only [*, Keeps.ite, Keeps.foldl, State.recvSlot_keeps, implies_true]

theorem State.countRx_keeps (n : Nat) (hs : Keeps s₀ s) :
    Keeps s₀ (s.countRx n) := by
  unfold State.countRx
  simp (maxDischargeDepth := 64) +contextual only [*, Keeps.ite, State.bump_keeps, State.updPort_keeps, implies_true]

theorem State.sendNak_keeps (n : Nat) (hs : Keeps s₀ s) :
    Keeps s₀ (s.sendNak n) := by
  unfold State.sendNak
  simp (maxDischargeDepth := 64) +contextual only [*, Keeps.ite, Keeps.ite_snd, Keeps.foldl, Keeps.foldl_snd, State.updPort_keeps, State.sendCtrl_keeps,
    implies_true]

theorem State.useAck_keeps (n : Nat) (flit : List Byte) (hs : Keeps s₀ s) :
    Keeps s₀ (s.useAck n flit) := by
  unfold State.useAck
  simp (maxDischargeDepth := 64) +contextual only [*, Keeps.ite, State.updPort_keeps, State.pump_keeps,
    State.ackTo_keeps, implies_true]

theorem State.recvGood_keeps (n : Nat) (flit : List Byte) (hs : Keeps s₀ s) :
    Keeps s₀ (s.recvGood n flit) := by
  unfold State.recvGood
  simp (maxDischargeDepth := 64) +contextual only [*, Keeps.ite, State.updPort_keeps, State.linkNak_keeps,
    State.linkExchange_keeps, State.recvSlots_keeps, State.countRx_keeps, State.sendNak_keeps, State.useAck_keeps,
    implies_true]

theorem State.recvBad_keeps (n : Nat) (hs : Keeps s₀ s) :
    Keeps s₀ (s.recvBad n) := by
  unfold State.recvBad
  simp (maxDischargeDepth := 64) +contextual only [*, Keeps.ite, Keeps.ite_snd, Keeps.foldl, Keeps.foldl_snd, State.bump_keeps, State.sendNak_keeps,
    implies_true]

theorem State.recvFlit_keeps (n : Nat) (at_ : Nat) (levels : List Nat) (hs : Keeps s₀ s) :
    Keeps s₀ (s.recvFlit n at_ levels) := by
  unfold State.recvFlit
  repeat' first
    | (simp (maxDischargeDepth := 64) +contextual only [*, Keeps.ite, Keeps.ite_snd, Keeps.foldl, Keeps.foldl_snd, Keeps.record, Keeps.record_drop,
        Keeps.record_drop2, State.bump_keeps, State.recvGood_keeps, State.recvBad_keeps, implies_true]; done)
    | split

theorem State.consume_keeps (n : Nat) (x : Nat × Packet) (hs : Keeps s₀ s) :
    Keeps s₀ (s.consume n x) := by
  unfold State.consume
  simp (maxDischargeDepth := 64) +contextual only [*, Keeps.ite_snd, State.updPort_keeps, State.freeSlots_keeps,
    implies_true]

theorem State.respond_keeps (q : Packet) (code : Nat) (poison : Bool) (bytes : List Byte) (hs : Keeps s₀ s) :
    Keeps s₀ (s.respond q code poison bytes) := by
  unfold State.respond
  simp (maxDischargeDepth := 64) +contextual only [*, State.routeResp_keeps, implies_true]

theorem State.respondBad_keeps (q : Packet) (code : Nat) (hs : Keeps s₀ s) :
    Keeps s₀ (s.respondBad q code) := by
  unfold State.respondBad
  simp (maxDischargeDepth := 64) +contextual only [*, State.respond_keeps, implies_true]

theorem State.dropMalformed_keeps (p : Packet) (hs : Keeps s₀ s) :
    Keeps s₀ (s.dropMalformed p) := by
  unfold State.dropMalformed
  simp (maxDischargeDepth := 64) +contextual only [*, Keeps.ite, Keeps.ite_snd, Keeps.foldl, Keeps.foldl_snd, State.bump_keeps, State.respond_keeps,
    State.respondBad_keeps, implies_true]

theorem State.takeInbound_keeps (n : Nat) (who : Packet → Bool) (f : State → Packet → State) (hf : ∀ x y0, Keeps s₀ x → Keeps s₀ (f x y0)) (hs : Keeps s₀ s) :
    Keeps s₀ (s.takeInbound n who f) := by
  unfold State.takeInbound
  repeat' first
    | (simp (maxDischargeDepth := 64) +contextual only [*, Keeps.ite, Keeps.ite_snd, State.bump_keeps, State.consume_keeps,
        State.dropMalformed_keeps, implies_true]; done)
    | split

theorem State.dropReserved_keeps (n : Nat) (hs : Keeps s₀ s) :
    Keeps s₀ (s.dropReserved n) := by
  unfold State.dropReserved
  simp (maxDischargeDepth := 64) +contextual only [*, State.takeInbound_keeps, implies_true]

theorem State.dataFlit_keeps (n : Nat) (at_ : Nat) (levels : List Nat) (hs : Keeps s₀ s) :
    Keeps s₀ (s.dataFlit n at_ levels) := by
  unfold State.dataFlit
  simp (maxDischargeDepth := 64) +contextual only [*, Keeps.ite, Keeps.ite_snd, Keeps.foldl, Keeps.foldl_snd, State.recvFlit_keeps,
    State.dropReserved_keeps, implies_true]

theorem State.reqIn_keeps (hs : Keeps s₀ s) :
    Keeps s₀ (s.reqIn) := by
  unfold State.reqIn
  simp (maxDischargeDepth := 64) +contextual only [*, State.bump_keeps, implies_true]

theorem State.inRead_keeps (p : Packet) (hs : Keeps s₀ s) :
    Keeps s₀ (s.inRead p) := by
  unfold State.inRead
  repeat' first
    | (simp (maxDischargeDepth := 64) +contextual only [*, Keeps.ite_snd, State.denied_keeps, State.asAgent_keeps,
        State.fetch_keeps, State.respond_keeps, State.respondBad_keeps, State.reqIn_keeps, implies_true]; done)
    | split

theorem State.inWrite_keeps (p : Packet) (hs : Keeps s₀ s) :
    Keeps s₀ (s.inWrite p) := by
  unfold State.inWrite
  repeat' first
    | (simp (maxDischargeDepth := 64) +contextual only [*, Keeps.ite, Keeps.ite_snd, Keeps.foldl, Keeps.foldl_snd, State.denied_keeps, State.write_keeps,
        State.performed_keeps, State.respond_keeps, State.respondBad_keeps, State.reqIn_keeps, implies_true]; done)
    | split

theorem State.inAdd_keeps (p : Packet) (hs : Keeps s₀ s) :
    Keeps s₀ (s.inAdd p) := by
  unfold State.inAdd
  repeat' first
    | (simp (maxDischargeDepth := 64) +contextual only [*, Keeps.ite, Keeps.ite_snd, Keeps.foldl, Keeps.foldl_snd, State.denied_keeps, State.performed_keeps,
        State.localAdd_keeps, State.respond_keeps, State.respondBad_keeps, State.reqIn_keeps, implies_true]; done)
    | split

theorem State.inGather_keeps (p : Packet) (hs : Keeps s₀ s) :
    Keeps s₀ (s.inGather p) := by
  unfold State.inGather
  simp (maxDischargeDepth := 64) +contextual only [*, Keeps.ite, Keeps.ite_snd, Keeps.foldl, Keeps.foldl_snd, State.setFld_keeps, State.bump_keeps,
    State.asAgent_keeps, State.lookup_keeps, State.countIndex_keeps, State.respond_keeps,
    State.respondBad_keeps, State.reqIn_keeps, implies_true]

theorem State.inTadd_keeps (p : Packet) (hs : Keeps s₀ s) :
    Keeps s₀ (s.inTadd p) := by
  unfold State.inTadd
  simp (maxDischargeDepth := 64) +contextual only [*, Keeps.ite, State.asAgent_keeps, State.countIndex_keeps,
    State.bankAdd_keeps, State.respond_keeps, State.reqIn_keeps, implies_true]

theorem State.setBar_keeps (b : Nat) (x : Bar) (hs : Keeps s₀ s) :
    Keeps s₀ (s.setBar b x) := by
  unfold State.setBar
  simp (maxDischargeDepth := 64) +contextual only [*, State.updGrf_keeps, implies_true]

theorem State.sendBar_keeps (b : Nat) (op : Nat) (node : Nat) (hs : Keeps s₀ s) :
    Keeps s₀ (s.sendBar b op node) := by
  unfold State.sendBar
  simp (maxDischargeDepth := 64) +contextual only [*, State.routeResp_keeps, implies_true]

theorem State.barJobs_keeps (b : Nat) (code : Nat) (hs : Keeps s₀ s) :
    Keeps s₀ (s.barJobs b code) := by
  unfold State.barJobs
  simp (maxDischargeDepth := 64) +contextual only [*, Keeps.ite_snd, Keeps.foldl, Keeps.foldl_snd, State.jobDone_keeps,
    implies_true]

theorem State.barRelease_keeps (b : Nat) (hs : Keeps s₀ s) :
    Keeps s₀ (s.barRelease b) := by
  unfold State.barRelease
  simp (maxDischargeDepth := 64) +contextual only [*, Keeps.foldl, State.setFld_keeps, State.event_keeps,
    State.setBar_keeps, State.sendBar_keeps, State.barJobs_keeps, implies_true]

theorem State.barStep_keeps (b : Nat) (hs : Keeps s₀ s) :
    Keeps s₀ (s.barStep b) := by
  unfold State.barStep
  repeat' first
    | (simp (maxDischargeDepth := 64) +contextual only [*, Keeps.ite, State.setBar_keeps, State.sendBar_keeps,
        State.barRelease_keeps, implies_true]; done)
    | split

theorem State.barSteps_keeps (hs : Keeps s₀ s) :
    Keeps s₀ (s.barSteps) := by
  unfold State.barSteps
  simp (maxDischargeDepth := 64) +contextual only [*, Keeps.foldl, State.barStep_keeps, implies_true]

theorem State.barArrive_keeps (b : Nat) (hs : Keeps s₀ s) :
    Keeps s₀ (s.barArrive b) := by
  unfold State.barArrive
  simp (maxDischargeDepth := 64) +contextual only [*, Keeps.ite, State.setFld_keeps, State.setBar_keeps,
    State.barStep_keeps, implies_true]

theorem State.barBreak_keeps (b : Nat) (hs : Keeps s₀ s) :
    Keeps s₀ (s.barBreak b) := by
  unfold State.barBreak
  simp (maxDischargeDepth := 64) +contextual only [*, State.setFld_keeps, State.event_keeps, State.error_keeps,
    State.setBar_keeps, State.barJobs_keeps, implies_true]

theorem State.inArrive_keeps (p : Packet) (hs : Keeps s₀ s) :
    Keeps s₀ (s.inArrive p) := by
  unfold State.inArrive
  simp (maxDischargeDepth := 64) +contextual only [*, Keeps.ite, State.bump_keeps, State.setBar_keeps,
    State.barStep_keeps, implies_true]

theorem State.inRelease_keeps (p : Packet) (hs : Keeps s₀ s) :
    Keeps s₀ (s.inRelease p) := by
  unfold State.inRelease
  simp (maxDischargeDepth := 64) +contextual only [*, Keeps.ite, State.barRelease_keeps, implies_true]

theorem State.reqEnded_keeps (hs : Keeps s₀ s) :
    Keeps s₀ (s.reqEnded) := by
  unfold State.reqEnded
  simp (maxDischargeDepth := 64) +contextual only [*, State.retryHeld_keeps, State.barSteps_keeps, implies_true]

theorem State.inRsp_keeps (p : Packet) (hs : Keeps s₀ s) :
    Keeps s₀ (s.inRsp p) := by
  unfold State.inRsp
  repeat' first
    | (simp (maxDischargeDepth := 64) +contextual only [*, Keeps.ite, State.nodeLost_keeps, State.finishReq_keeps,
        State.reqEnded_keeps, implies_true]; done)
    | split

theorem State.forward_keeps (n : Nat) (p : Packet) (hs : Keeps s₀ s) :
    Keeps s₀ (s.forward n p) := by
  unfold State.forward
  repeat' first
    | (simp (maxDischargeDepth := 64) +contextual only [*, Keeps.ite, State.emit_keeps, State.dispose_keeps, implies_true]; done)
    | split

theorem State.transit_keeps (n : Nat) (hs : Keeps s₀ s) :
    Keeps s₀ (s.transit n) := by
  unfold State.transit
  repeat' first
    | (simp (maxDischargeDepth := 64) +contextual only [*, Keeps.ite_snd, State.consume_keeps, State.reqEnded_keeps,
        State.forward_keeps, implies_true]; done)
    | split

theorem State.markLost_keeps (node : Nat) (hs : Keeps s₀ s) :
    Keeps s₀ (s.markLost node) := by
  unfold State.markLost
  simp (maxDischargeDepth := 64) +contextual only [*, Keeps.ite, Keeps.foldl, State.updGrf_keeps, State.loseReq_keeps,
    State.barBreak_keeps, State.reqEnded_keeps, implies_true]

theorem State.remoteTimeout_keeps (hs : Keeps s₀ s) :
    Keeps s₀ (s.remoteTimeout) := by
  unfold State.remoteTimeout
  repeat' first
    | (simp (maxDischargeDepth := 64) +contextual only [*, State.loseReq_keeps, State.markLost_keeps, implies_true]; done)
    | split

theorem State.lostCtl_keeps (op : Nat) (node : Nat) (hs : Keeps s₀ s) :
    Keeps s₀ (s.lostCtl op node) := by
  unfold State.lostCtl
  simp (maxDischargeDepth := 64) +contextual only [*, Keeps.ite, State.updGrf_keeps, State.setFld_keeps,
    State.markLost_keeps, implies_true]

theorem State.writeLostCtl_keeps (w : Nat) (v : Word) (hs : Keeps s₀ s) :
    Keeps s₀ (s.writeLostCtl w v) := by
  unfold State.writeLostCtl
  simp (maxDischargeDepth := 64) +contextual only [*, State.wrote_keeps, State.onWrite_keeps, State.lostCtl_keeps,
    implies_true]

theorem State.writeBarCtl_keeps (w : Nat) (v : Word) (hs : Keeps s₀ s) :
    Keeps s₀ (s.writeBarCtl w v) := by
  unfold State.writeBarCtl
  simp (maxDischargeDepth := 64) +contextual only [*, Keeps.ite, State.error_keeps, State.wrote_keeps,
    State.onWrite_keeps, State.barArrive_keeps, implies_true]

theorem State.writeBarCfg_keeps (w : Nat) (b : Nat) (v : Word) (hs : Keeps s₀ s) :
    Keeps s₀ (s.writeBarCfg w b v) := by
  unfold State.writeBarCfg
  simp (maxDischargeDepth := 64) +contextual only [*, State.setCell_keeps, State.setFld_keeps, State.wrote_keeps,
    State.onRwl_keeps, State.setBar_keeps, implies_true]

theorem State.barTimeout_keeps (b : Nat) (hs : Keeps s₀ s) :
    Keeps s₀ (s.barTimeout b) := by
  unfold State.barTimeout
  simp (maxDischargeDepth := 64) +contextual only [*, Keeps.ite, State.barBreak_keeps, implies_true]

theorem State.loadDirs_keeps (hs : Keeps s₀ s) :
    Keeps s₀ (s.loadDirs) := by
  unfold State.loadDirs
  simp (maxDischargeDepth := 64) +contextual only [*, Keeps.foldl, State.setFld_keeps, implies_true]

theorem State.writeNodeCfg_keeps (w : Nat) (v : Word) (hs : Keeps s₀ s) :
    Keeps s₀ (s.writeNodeCfg w v) := by
  unfold State.writeNodeCfg
  simp (maxDischargeDepth := 64) +contextual only [*, Keeps.ite, State.setCell_keeps, State.error_keeps,
    State.wrote_keeps, State.onRwl_keeps, State.loadDirs_keeps, implies_true]

theorem State.readHere_keeps (d : Nat) (n : Nat) (hs : Keeps s₀ s) :
    Keeps s₀ (s.readHere d n) := by
  unfold State.readHere
  simp (maxDischargeDepth := 64) +contextual only [*, Keeps.ite_snd, State.updGrf_keeps, State.fetch_keeps, implies_true]

theorem State.remoteAccess_keeps (a : Agent) (kind : Nat) (d : Nat) (n : Nat) (mask : Nat) (data : List Byte) (hs : Keeps s₀ s) :
    Keeps s₀ (s.remoteAccess a kind d n mask data) := by
  unfold State.remoteAccess
  simp (maxDischargeDepth := 64) +contextual only [*, Keeps.ite, Keeps.ite_snd, Keeps.foldl, Keeps.foldl_snd,
    State.sendRead_keeps, State.asAgent_keeps, State.write_keeps, State.add32_keeps, State.readHere_keeps, implies_true]

theorem execLinkTrainDone_keeps (dt : Nat) (port : Nat) {s₁ : State}
    (e : execLinkTrainDone dt port s = .next s₁) : Keeps s s₁ := by
  unfold execLinkTrainDone at e
  obtain rfl := Host.Outcome.next.inj e
  simp (maxDischargeDepth := 64) +contextual only [*, Keeps.refl, State.arrive_keeps, State.linkTrained_keeps,
    implies_true]

theorem execLinkAlignDone_keeps (dt : Nat) (port : Nat) {s₁ : State}
    (e : execLinkAlignDone dt port s = .next s₁) : Keeps s s₁ := by
  unfold execLinkAlignDone at e
  obtain rfl := Host.Outcome.next.inj e
  simp (maxDischargeDepth := 64) +contextual only [*, Keeps.refl, State.arrive_keeps, State.linkAligned_keeps,
    implies_true]

theorem execGrfExchange_keeps (dt : Nat) (port : Nat) (node : Nat) (dir : Nat) (cfg : Word) (seq : Nat) {s₁ : State}
    (e : execGrfExchange dt port node dir cfg seq s = .next s₁) : Keeps s s₁ := by
  unfold execGrfExchange at e
  obtain rfl := Host.Outcome.next.inj e
  simp (maxDischargeDepth := 64) +contextual only [*, Keeps.refl, State.arrive_keeps, State.linkExchange_keeps,
    implies_true]

theorem execDataFlit_keeps (dt : Nat) (port : Nat) (pos : Nat) (levels : List Nat) {s₁ : State}
    (e : execDataFlit dt port pos levels s = .next s₁) : Keeps s s₁ := by
  unfold execDataFlit at e
  obtain rfl := Host.Outcome.next.inj e
  simp (maxDischargeDepth := 64) +contextual only [*, Keeps.refl, Keeps.ite, Keeps.ite_snd, Keeps.foldl, Keeps.foldl_snd, State.arrive_keeps,
    State.dataFlit_keeps, implies_true]

theorem execGrfNak_keeps (dt : Nat) (port : Nat) (seq : Nat) {s₁ : State}
    (e : execGrfNak dt port seq s = .next s₁) : Keeps s s₁ := by
  unfold execGrfNak at e
  obtain rfl := Host.Outcome.next.inj e
  simp (maxDischargeDepth := 64) +contextual only [*, Keeps.refl, State.arrive_keeps, State.linkNak_keeps, implies_true]

theorem execReplayTimeout_keeps (dt : Nat) (port : Nat) {s₁ : State}
    (e : execReplayTimeout dt port s = .next s₁) : Keeps s s₁ := by
  unfold execReplayTimeout at e
  obtain rfl := Host.Outcome.next.inj e
  simp (maxDischargeDepth := 64) +contextual only [*, Keeps.refl, State.arrive_keeps, State.linkReplayTimeout_keeps,
    implies_true]

theorem execLaneLockLost_keeps (dt : Nat) (port : Nat) (lanes : Nat) {s₁ : State}
    (e : execLaneLockLost dt port lanes s = .next s₁) : Keeps s s₁ := by
  unfold execLaneLockLost at e
  obtain rfl := Host.Outcome.next.inj e
  simp (maxDischargeDepth := 64) +contextual only [*, Keeps.refl, State.arrive_keeps, State.laneLockLost_keeps,
    implies_true]

theorem execRecoverTimeout_keeps (dt : Nat) (port : Nat) {s₁ : State}
    (e : execRecoverTimeout dt port s = .next s₁) : Keeps s s₁ := by
  unfold execRecoverTimeout at e
  obtain rfl := Host.Outcome.next.inj e
  simp (maxDischargeDepth := 64) +contextual only [*, Keeps.refl, State.arrive_keeps, State.recoverTimeout_keeps,
    implies_true]

theorem execGrfRead_keeps (dt : Nat) (port : Nat) {s₁ : State}
    (e : execGrfRead dt port s = .next s₁) : Keeps s s₁ := by
  unfold execGrfRead at e
  obtain rfl := Host.Outcome.next.inj e
  simp (maxDischargeDepth := 64) +contextual only [*, Keeps.refl, State.arrive_keeps, State.takeInbound_keeps,
    State.inRead_keeps, implies_true]

theorem execGrfWrite_keeps (dt : Nat) (port : Nat) {s₁ : State}
    (e : execGrfWrite dt port s = .next s₁) : Keeps s s₁ := by
  unfold execGrfWrite at e
  obtain rfl := Host.Outcome.next.inj e
  simp (maxDischargeDepth := 64) +contextual only [*, Keeps.refl, State.arrive_keeps, State.takeInbound_keeps,
    State.inWrite_keeps, implies_true]

theorem execGrfAdd32_keeps (dt : Nat) (port : Nat) {s₁ : State}
    (e : execGrfAdd32 dt port s = .next s₁) : Keeps s s₁ := by
  unfold execGrfAdd32 at e
  obtain rfl := Host.Outcome.next.inj e
  simp (maxDischargeDepth := 64) +contextual only [*, Keeps.refl, State.arrive_keeps, State.takeInbound_keeps,
    State.inAdd_keeps, implies_true]

theorem execGrfGather_keeps (dt : Nat) (port : Nat) {s₁ : State}
    (e : execGrfGather dt port s = .next s₁) : Keeps s s₁ := by
  unfold execGrfGather at e
  obtain rfl := Host.Outcome.next.inj e
  simp (maxDischargeDepth := 64) +contextual only [*, Keeps.refl, State.arrive_keeps, State.takeInbound_keeps,
    State.inGather_keeps, implies_true]

theorem execGrfTadd_keeps (dt : Nat) (port : Nat) {s₁ : State}
    (e : execGrfTadd dt port s = .next s₁) : Keeps s s₁ := by
  unfold execGrfTadd at e
  obtain rfl := Host.Outcome.next.inj e
  simp (maxDischargeDepth := 64) +contextual only [*, Keeps.refl, State.arrive_keeps, State.takeInbound_keeps,
    State.inTadd_keeps, implies_true]

theorem execGrfMessage_keeps (dt : Nat) (port : Nat) {s₁ : State}
    (e : execGrfMessage dt port s = .next s₁) : Keeps s s₁ := by
  unfold execGrfMessage at e
  obtain rfl := Host.Outcome.next.inj e
  simp (maxDischargeDepth := 64) +contextual only [*, Keeps.refl, State.arrive_keeps, State.mbMessage_keeps,
    State.takeInbound_keeps, implies_true]

theorem execGrfBarrierArrive_keeps (dt : Nat) (port : Nat) {s₁ : State}
    (e : execGrfBarrierArrive dt port s = .next s₁) : Keeps s s₁ := by
  unfold execGrfBarrierArrive at e
  obtain rfl := Host.Outcome.next.inj e
  simp (maxDischargeDepth := 64) +contextual only [*, Keeps.refl, State.arrive_keeps, State.takeInbound_keeps,
    State.inArrive_keeps, implies_true]

theorem execGrfBarrierRelease_keeps (dt : Nat) (port : Nat) {s₁ : State}
    (e : execGrfBarrierRelease dt port s = .next s₁) : Keeps s s₁ := by
  unfold execGrfBarrierRelease at e
  obtain rfl := Host.Outcome.next.inj e
  simp (maxDischargeDepth := 64) +contextual only [*, Keeps.refl, State.arrive_keeps, State.takeInbound_keeps,
    State.inRelease_keeps, implies_true]

theorem execGrfRspData_keeps (dt : Nat) (port : Nat) {s₁ : State}
    (e : execGrfRspData dt port s = .next s₁) : Keeps s s₁ := by
  unfold execGrfRspData at e
  obtain rfl := Host.Outcome.next.inj e
  simp (maxDischargeDepth := 64) +contextual only [*, Keeps.refl, State.arrive_keeps, State.takeInbound_keeps,
    State.inRsp_keeps, implies_true]

theorem execGrfRspAck_keeps (dt : Nat) (port : Nat) {s₁ : State}
    (e : execGrfRspAck dt port s = .next s₁) : Keeps s s₁ := by
  unfold execGrfRspAck at e
  obtain rfl := Host.Outcome.next.inj e
  simp (maxDischargeDepth := 64) +contextual only [*, Keeps.refl, State.arrive_keeps, State.takeInbound_keeps,
    State.inRsp_keeps, implies_true]

theorem execTransitForward_keeps (dt : Nat) (port : Nat) {s₁ : State}
    (e : execTransitForward dt port s = .next s₁) : Keeps s s₁ := by
  unfold execTransitForward at e
  obtain rfl := Host.Outcome.next.inj e
  simp (maxDischargeDepth := 64) +contextual only [*, Keeps.refl, State.arrive_keeps, State.transit_keeps, implies_true]

theorem execRemoteRequest_keeps (dt : Nat) (who : Requester) (kind : Nat) (addr : Nat) (n : Nat) (mask : Nat) (data : List Byte) {s₁ : State}
    (e : execRemoteRequest dt who kind addr n mask data s = .next s₁) : Keeps s s₁ := by
  unfold execRemoteRequest at e
  obtain rfl := Host.Outcome.next.inj e
  simp (maxDischargeDepth := 64) +contextual only [*, Keeps.refl, State.arrive_keeps, State.remoteAccess_keeps,
    implies_true]

theorem execRemoteTimeout_keeps (dt : Nat) {s₁ : State}
    (e : execRemoteTimeout dt s = .next s₁) : Keeps s s₁ := by
  unfold execRemoteTimeout at e
  obtain rfl := Host.Outcome.next.inj e
  simp (maxDischargeDepth := 64) +contextual only [*, Keeps.refl, State.arrive_keeps, State.remoteTimeout_keeps,
    implies_true]

theorem execLostSet_keeps (dt : Nat) (w : Nat) (node : Nat) {s₁ : State}
    (e : execLostSet dt w node s = .next s₁) : Keeps s s₁ := by
  unfold execLostSet at e
  obtain rfl := Host.Outcome.next.inj e
  simp (maxDischargeDepth := 64) +contextual only [*, Keeps.refl, State.arriveBy_keeps, State.writeLostCtl_keeps,
    State.arrive_keeps, implies_true]

theorem execLostClear_keeps (dt : Nat) (w : Nat) (node : Nat) {s₁ : State}
    (e : execLostClear dt w node s = .next s₁) : Keeps s s₁ := by
  unfold execLostClear at e
  obtain rfl := Host.Outcome.next.inj e
  simp (maxDischargeDepth := 64) +contextual only [*, Keeps.refl, State.arriveBy_keeps, State.writeLostCtl_keeps,
    State.arrive_keeps, implies_true]

theorem execLostQuery_keeps (dt : Nat) (w : Nat) (node : Nat) {s₁ : State}
    (e : execLostQuery dt w node s = .next s₁) : Keeps s s₁ := by
  unfold execLostQuery at e
  obtain rfl := Host.Outcome.next.inj e
  simp (maxDischargeDepth := 64) +contextual only [*, Keeps.refl, State.arriveBy_keeps, State.writeLostCtl_keeps,
    State.arrive_keeps, implies_true]

theorem execBarArrive_keeps (dt : Nat) (w : Nat) (bar : Nat) {s₁ : State}
    (e : execBarArrive dt w bar s = .next s₁) : Keeps s s₁ := by
  unfold execBarArrive at e
  obtain rfl := Host.Outcome.next.inj e
  simp (maxDischargeDepth := 64) +contextual only [*, Keeps.refl, State.arriveBy_keeps, State.writeBarCtl_keeps,
    State.arrive_keeps, implies_true]

theorem execBarCfgWrite_keeps (dt : Nat) (w : Nat) (bar : Nat) (v : Word) {s₁ : State}
    (e : execBarCfgWrite dt w bar v s = .next s₁) : Keeps s s₁ := by
  unfold execBarCfgWrite at e
  obtain rfl := Host.Outcome.next.inj e
  simp (maxDischargeDepth := 64) +contextual only [*, Keeps.refl, State.arriveBy_keeps, State.writeBarCfg_keeps,
    State.arrive_keeps, implies_true]

theorem execBarrierTimeout_keeps (dt : Nat) (bar : Nat) {s₁ : State}
    (e : execBarrierTimeout dt bar s = .next s₁) : Keeps s s₁ := by
  unfold execBarrierTimeout at e
  obtain rfl := Host.Outcome.next.inj e
  simp (maxDischargeDepth := 64) +contextual only [*, Keeps.refl, State.arrive_keeps, State.barTimeout_keeps,
    implies_true]

theorem execNodeCfgWrite_keeps (dt : Nat) (w : Nat) (v : Word) {s₁ : State}
    (e : execNodeCfgWrite dt w v s = .next s₁) : Keeps s s₁ := by
  unfold execNodeCfgWrite at e
  obtain rfl := Host.Outcome.next.inj e
  simp (maxDischargeDepth := 64) +contextual only [*, Keeps.refl, State.arriveBy_keeps, State.writeNodeCfg_keeps,
    State.arrive_keeps, implies_true]

end Sys2Proof.Machine
end

