-- ==== Sys2Proof/Laws/KeepsHif.lean ====
section
/-! SUPPORT. What the operations of Machine/Hif.lean keep: the waiting commands and the canonical form (Laws/Keeps.lean). -/

namespace Sys2Proof.Machine

set_option linter.unusedSimpArgs false
set_option linter.unusedTactic false

variable {s₀ s : State}

theorem State.enterL1_keeps (hs : Keeps s₀ s) :
    Keeps s₀ (s.enterL1) := by
  unfold State.enterL1
  simp (maxDischargeDepth := 64) +contextual only [*, Keeps.ite, State.updHif_keeps, implies_true]

theorem State.poisonedTlp_keeps (ecrc : Bool) (hs : Keeps s₀ s) :
    Keeps s₀ (s.poisonedTlp ecrc) := by
  unfold State.poisonedTlp
  simp (maxDischargeDepth := 64) +contextual only [*, Keeps.ite, Keeps.ite_snd, Keeps.foldl, Keeps.foldl_snd, State.updHif_keeps, State.bump_keeps,
    State.event_keeps, State.hostTlp_keeps, implies_true]

theorem State.hostReady_keeps (speed : Nat) (width : Nat) (cfg : PcieCfg) (hs : Keeps s₀ s) :
    Keeps s₀ (s.hostReady speed width cfg) := by
  unfold State.hostReady
  simp (maxDischargeDepth := 64) +contextual only [*, Keeps.ite, Keeps.ite_snd, Keeps.foldl, Keeps.foldl_snd, State.setFld_keeps, State.updHif_keeps,
    State.hostTlp_keeps, implies_true]

theorem State.throughView_keeps (fn : Nat) (ctx : Nat) (f : State → State) (hf : ∀ x, Keeps s₀ x → Keeps s₀ (f x)) (hs : Keeps s₀ s) :
    Keeps s₀ (s.throughView fn ctx f) := by
  unfold State.throughView
  simp (maxDischargeDepth := 64) +contextual only [*, Keeps.ite, Keeps.ite_snd, Keeps.foldl, Keeps.foldl_snd, State.bump_keeps, State.hostTlp_keeps,
    implies_true]

theorem State.ctxFault_keeps (ctx : Nat) (code : Nat) (hs : Keeps s₀ s) :
    Keeps s₀ (s.ctxFault ctx code) := by
  unfold State.ctxFault
  simp (maxDischargeDepth := 64) +contextual only [*, Keeps.ite, State.setCell_keeps, State.setFld_keeps,
    State.signal_keeps, State.event_keeps, implies_true]

theorem State.setTail_keeps (ctx : Nat) (ring : Nat) (v : Nat) (hs : Keeps s₀ s) :
    Keeps s₀ (s.setTail ctx ring v) := by
  unfold State.setTail
  simp (maxDischargeDepth := 64) +contextual only [*, Keeps.ite, State.setFld_keeps, State.ring_keeps,
    State.ctxFault_keeps, implies_true]

theorem State.consumeEntry_keeps (hs : Keeps s₀ s) :
    Keeps s₀ (s.consumeEntry) := by
  unfold State.consumeEntry
  repeat' first
    | (simp (maxDischargeDepth := 64) +contextual only [*, Keeps.ite, State.updHif_keeps, State.setFld_keeps,
        State.setJob_keeps, State.writeStatus_keeps, State.jobDone_keeps, State.ring_keeps, implies_true]; done)
    | split

theorem State.onJob_keeps (ctx : Nat) (ring : Nat) (opc : Nat) (f : State → Job → State) (hf : ∀ x y0, Keeps s₀ x → Keeps s₀ (f x y0)) (hs : Keeps s₀ s) :
    Keeps s₀ (s.onJob ctx ring opc f) := by
  unfold State.onJob
  repeat' first
    | (simp (maxDischargeDepth := 64) +contextual only [*, Keeps.ite, State.ring_keeps, implies_true]; done)
    | split

theorem State.jobBegin_keeps (ctx : Nat) (ring : Nat) (j : Job) (hs : Keeps s₀ s) :
    Keeps s₀ (s.jobBegin ctx ring j) := by
  unfold State.jobBegin
  simp (maxDischargeDepth := 64) +contextual only [*, State.setJob_keeps, State.writeStatus_keeps, State.ring_keeps,
    implies_true]

theorem State.jobNop_keeps (ctx : Nat) (ring : Nat) (hs : Keeps s₀ s) :
    Keeps s₀ (s.jobNop ctx ring) := by
  unfold State.jobNop
  simp (maxDischargeDepth := 64) +contextual only [*, State.jobDone_keeps, State.ring_keeps, State.onJob_keeps,
    implies_true]

theorem State.jobCopyIn_keeps (ctx : Nat) (ring : Nat) (host : List Byte) (hs : Keeps s₀ s) :
    Keeps s₀ (s.jobCopyIn ctx ring host) := by
  unfold State.jobCopyIn
  simp (maxDischargeDepth := 64) +contextual only [*, Keeps.ite, Keeps.ite_snd, Keeps.foldl, Keeps.foldl_snd, State.ring_keeps, State.hostIssue_keeps,
    State.onJob_keeps, State.jobBegin_keeps, implies_true]

theorem State.jobCopyOut_keeps (ctx : Nat) (ring : Nat) (hs : Keeps s₀ s) :
    Keeps s₀ (s.jobCopyOut ctx ring) := by
  unfold State.jobCopyOut
  simp (maxDischargeDepth := 64) +contextual only [*, State.ring_keeps, State.onJob_keeps, State.jobBegin_keeps,
    implies_true]

theorem State.copyWrite_keeps (key : Nat) (k : Nat) (j : Job) (hs : Keeps s₀ s) :
    Keeps s₀ (s.copyWrite key k j) := by
  unfold State.copyWrite
  simp (maxDischargeDepth := 64) +contextual only [*, State.dropAcks_keeps, State.asAgent_keeps, State.write_keeps,
    implies_true]

theorem State.copyInDone_keeps (ctx : Nat) (ring : Nat) (j : Job) (hs : Keeps s₀ s) :
    Keeps s₀ (s.copyInDone ctx ring j) := by
  unfold State.copyInDone
  simp (maxDischargeDepth := 64) +contextual only [*, Keeps.ite, Keeps.ite_snd, Keeps.foldl, Keeps.foldl_snd, State.setJob_keeps, State.jobDone_keeps,
    State.dropAcks_keeps, State.ring_keeps, State.copyWrite_keeps, implies_true]

theorem State.copyOutDone_keeps (ctx : Nat) (ring : Nat) (j : Job) (hs : Keeps s₀ s) :
    Keeps s₀ (s.copyOutDone ctx ring j) := by
  unfold State.copyOutDone
  simp (maxDischargeDepth := 64) +contextual only [*, Keeps.ite, Keeps.ite_snd, Keeps.foldl, Keeps.foldl_snd, State.updHif_keeps, State.jobDone_keeps,
    State.byAgent_keeps, State.ring_keeps, State.fetch_keeps, State.hostIssue_keeps, implies_true]

theorem State.copyComplete_keeps (ctx : Nat) (ring : Nat) (hs : Keeps s₀ s) :
    Keeps s₀ (s.copyComplete ctx ring) := by
  unfold State.copyComplete
  repeat' first
    | (simp (maxDischargeDepth := 64) +contextual only [*, Keeps.ite, State.ring_keeps, State.copyInDone_keeps,
        State.copyOutDone_keeps, implies_true]; done)
    | split

theorem State.copyCut_keeps (ctx : Nat) (ring : Nat) (k : Nat) (j : Job) (hs : Keeps s₀ s) :
    Keeps s₀ (s.copyCut ctx ring k j) := by
  unfold State.copyCut
  simp (maxDischargeDepth := 64) +contextual only [*, Keeps.ite, Keeps.ite_snd, Keeps.foldl, Keeps.foldl_snd, State.updHif_keeps, State.dropReads_keeps,
    State.dropAcks_keeps, State.asAgent_keeps, State.ring_keeps, State.fetch_keeps, State.hostIssue_keeps,
    State.copyWrite_keeps, implies_true]

theorem State.hostAccessFail_keeps (ctx : Nat) (ring : Nat) (k : Nat) (hs : Keeps s₀ s) :
    Keeps s₀ (s.hostAccessFail ctx ring k) := by
  unfold State.hostAccessFail
  repeat' first
    | (simp (maxDischargeDepth := 64) +contextual only [*, Keeps.ite, Keeps.ite_snd, Keeps.foldl, Keeps.foldl_snd, State.jobDone_keeps, State.scramble_keeps,
        State.hostTlp_keeps, State.ring_keeps, State.hostDmaFail_keeps, State.copyCut_keeps, implies_true]; done)
    | split

theorem State.jobFrame_keeps (ctx : Nat) (ring : Nat) (hs : Keeps s₀ s) :
    Keeps s₀ (s.jobFrame ctx ring) := by
  unfold State.jobFrame
  simp (maxDischargeDepth := 64) +contextual only [*, Keeps.ite, State.jobDone_keeps, State.ring_keeps,
    State.onJob_keeps, implies_true]

theorem State.jobWaitFrame_keeps (ctx : Nat) (ring : Nat) (hs : Keeps s₀ s) :
    Keeps s₀ (s.jobWaitFrame ctx ring) := by
  unfold State.jobWaitFrame
  refine State.onJob_keeps _ _ _ _ (fun x j hx => ?_) hs
  refine Keeps.ite hx ?_
  refine Keeps.ite (State.writeStatus_keeps _ _ _ _ _ (State.setJob_keeps _ _ _ hx)) ?_
  split
  · exact Keeps.ite (State.jobDone_keeps _ _ _ _ _ hx) (Keeps.ite hx (State.jobDone_keeps _ _ _ _ _ hx))
  · exact Keeps.ite hx (State.jobDone_keeps _ _ _ _ _ hx)

theorem State.jobDownlink_keeps (ctx : Nat) (ring : Nat) (hs : Keeps s₀ s) :
    Keeps s₀ (s.jobDownlink ctx ring) := by
  unfold State.jobDownlink
  refine State.onJob_keeps _ _ _ _ (fun x j hx => ?_) hs
  refine State.byAgent_keeps _ _ (fun y hy => ?_) hx
  dsimp only
  split
  · exact State.jobDone_keeps _ _ _ _ _ (State.fetch_keeps _ _ hy)
  · split
    · next e => exact State.jobBegin_keeps _ _ _ (State.enqueueDl_keeps _ _ _ _ (State.fetch_keeps _ _ hy) e)
    · exact State.jobDone_keeps _ _ _ _ _ (State.fetch_keeps _ _ hy)

theorem State.jobBarrier_keeps (ctx : Nat) (ring : Nat) (hs : Keeps s₀ s) :
    Keeps s₀ (s.jobBarrier ctx ring) := by
  unfold State.jobBarrier
  simp (maxDischargeDepth := 64) +contextual only [*, Keeps.ite, State.jobDone_keeps, State.ring_keeps,
    State.barArrive_keeps, State.onJob_keeps, State.jobBegin_keeps, implies_true]

theorem State.detachDl_keeps (key : Nat) (hs : Keeps s₀ s) :
    Keeps s₀ (s.detachDl key) := by
  unfold State.detachDl
  simp (maxDischargeDepth := 64) +contextual only [*, Keeps.foldl, State.updLane_keeps, implies_true]

theorem State.resetJob_keeps (ctx : Nat) (ring : Nat) (hs : Keeps s₀ s) :
    Keeps s₀ (s.resetJob ctx ring) := by
  unfold State.resetJob
  repeat' first
    | (simp (maxDischargeDepth := 64) +contextual only [*, Keeps.ite, State.drawFree_keeps, State.setJob_keeps,
        State.jobAborted_keeps, State.ring_keeps, State.copyCut_keeps, State.detachDl_keeps, implies_true]; done)
    | split

theorem State.ctxReset_keeps (ctx : Nat) (hs : Keeps s₀ s) :
    Keeps s₀ (s.ctxReset ctx) := by
  unfold State.ctxReset
  simp (maxDischargeDepth := 64) +contextual only [*, Keeps.foldl, State.setCell_keeps, State.setFld_keeps,
    State.privDropCtx_keeps, State.resetJob_keeps, implies_true]

theorem State.ctxCtl_keeps (fn : Nat) (ctx : Nat) (hs : Keeps s₀ s) :
    Keeps s₀ (s.ctxCtl fn ctx) := by
  unfold State.ctxCtl
  simp (maxDischargeDepth := 64) +contextual only [*, State.throughView_keeps, State.ctxReset_keeps, implies_true]

theorem State.resetOwned_keeps (fn : Nat) (hs : Keeps s₀ s) :
    Keeps s₀ (s.resetOwned fn) := by
  unfold State.resetOwned
  simp (maxDischargeDepth := 64) +contextual only [*, Keeps.foldl, State.ctxReset_keeps, implies_true]

theorem State.resetVfMsix_keeps (fn : Nat) (hs : Keeps s₀ s) :
    Keeps s₀ (s.resetVfMsix fn) := by
  unfold State.resetVfMsix
  simp (maxDischargeDepth := 64) +contextual only [*, Keeps.ite, Keeps.ite_snd, Keeps.foldl, Keeps.foldl_snd, State.updHif_keeps, implies_true]

theorem State.vfReset_keeps (fn : Nat) (hs : Keeps s₀ s) :
    Keeps s₀ (s.vfReset fn) := by
  unfold State.vfReset
  simp (maxDischargeDepth := 64) +contextual only [*, State.abandonLocks_keeps, State.resetDoorbell_keeps,
    State.resetOwned_keeps, State.resetVfMsix_keeps, implies_true]

theorem State.vfFlr_keeps (fn : Nat) (hs : Keeps s₀ s) :
    Keeps s₀ (s.vfFlr fn) := by
  unfold State.vfFlr
  simp (maxDischargeDepth := 64) +contextual only [*, Keeps.ite, Keeps.ite_snd, Keeps.foldl, Keeps.foldl_snd, State.updHif_keeps, State.hostTlp_keeps,
    State.vfReset_keeps, implies_true]

theorem State.ownAll_keeps (hs : Keeps s₀ s) :
    Keeps s₀ (s.ownAll) := by
  unfold State.ownAll
  simp (maxDischargeDepth := 64) +contextual only [*, Keeps.ite, Keeps.ite_snd, Keeps.foldl, Keeps.foldl_snd, State.setFld_keeps, State.ctxReset_keeps,
    implies_true]

theorem State.resetHifPages_keeps (hs : Keeps s₀ s) :
    Keeps s₀ (s.resetHifPages) := by
  unfold State.resetHifPages
  simp (maxDischargeDepth := 64) +contextual only [*, Keeps.record, Keeps.record_drop, Keeps.record_drop2,
    State.ownAll_keeps, implies_true]

theorem State.pfReset_keeps (down : Bool) (hs : Keeps s₀ s) :
    Keeps s₀ (s.pfReset down) := by
  unfold State.pfReset
  simp (maxDischargeDepth := 64) +contextual only [*, Keeps.ite, Keeps.ite_snd, Keeps.foldl, Keeps.foldl_snd, State.setFld_keeps, State.updHif_keeps,
    State.abandonLocks_keeps, State.resetDoorbell_keeps, State.ctxReset_keeps, State.vfReset_keeps,
    State.resetHifPages_keeps, implies_true]

theorem State.funcCtx_keeps (n : Nat) (v : Word) (hs : Keeps s₀ s) :
    Keeps s₀ (s.funcCtx n v) := by
  unfold State.funcCtx
  simp (maxDischargeDepth := 64) +contextual only [*, Keeps.ite, Keeps.ite_snd, Keeps.foldl, Keeps.foldl_snd, State.setCell_keeps, State.setFld_keeps,
    State.ctxReset_keeps, implies_true]

theorem State.writeFuncCtx_keeps (w : Nat) (n : Nat) (v : Word) (hs : Keeps s₀ s) :
    Keeps s₀ (s.writeFuncCtx w n v) := by
  unfold State.writeFuncCtx
  simp (maxDischargeDepth := 64) +contextual only [*, Keeps.ite, Keeps.ite_snd, Keeps.foldl, Keeps.foldl_snd, State.error_keeps, State.wrote_keeps,
    State.onRwl_keeps, State.funcCtx_keeps, implies_true]

theorem State.msixWord_keeps (k : Nat) (v : Word) (hs : Keeps s₀ s) :
    Keeps s₀ (s.msixWord k v) := by
  unfold State.msixWord
  simp (maxDischargeDepth := 64) +contextual only [*, Keeps.ite, State.updHif_keeps, State.setCell_keeps, implies_true]

theorem State.vfMsixWord_keeps (fn : Nat) (k : Nat) (v : Word) (hs : Keeps s₀ s) :
    Keeps s₀ (s.vfMsixWord fn k v) := by
  unfold State.vfMsixWord
  simp (maxDischargeDepth := 64) +contextual only [*, Keeps.ite, Keeps.ite_snd, Keeps.foldl, Keeps.foldl_snd, State.updHif_keeps, implies_true]

theorem State.msixUnmask_keeps (fn : Nat) (v : Nat) (hs : Keeps s₀ s) :
    Keeps s₀ (s.msixUnmask fn v) := by
  unfold State.msixUnmask
  simp (maxDischargeDepth := 64) +contextual only [*, Keeps.ite, Keeps.ite_snd, Keeps.foldl, Keeps.foldl_snd, State.hostTlp_keeps, State.wrote_keeps,
    State.onWrite_keeps, State.msixWord_keeps, State.vfMsixWord_keeps, implies_true]

theorem execRingEntryConsume_keeps (dt : Nat) {s₁ : State}
    (e : execRingEntryConsume dt s = .next s₁) : Keeps s s₁ := by
  unfold execRingEntryConsume at e
  obtain rfl := Host.Outcome.next.inj e
  simp (maxDischargeDepth := 64) +contextual only [*, Keeps.refl, State.arrive_keeps, State.consumeEntry_keeps,
    implies_true]

theorem execJobNop_keeps (dt : Nat) (ctx : Nat) (ring : Nat) {s₁ : State}
    (e : execJobNop dt ctx ring s = .next s₁) : Keeps s s₁ := by
  unfold execJobNop at e
  obtain rfl := Host.Outcome.next.inj e
  simp (maxDischargeDepth := 64) +contextual only [*, Keeps.refl, State.arrive_keeps, State.ring_keeps,
    State.jobNop_keeps, implies_true]

theorem execJobCopyIn_keeps (dt : Nat) (ctx : Nat) (ring : Nat) (host : List Byte) {s₁ : State}
    (e : execJobCopyIn dt ctx ring host s = .next s₁) : Keeps s s₁ := by
  unfold execJobCopyIn at e
  obtain rfl := Host.Outcome.next.inj e
  simp (maxDischargeDepth := 64) +contextual only [*, Keeps.refl, State.arrive_keeps, State.ring_keeps,
    State.jobCopyIn_keeps, implies_true]

theorem execJobCopyOut_keeps (dt : Nat) (ctx : Nat) (ring : Nat) {s₁ : State}
    (e : execJobCopyOut dt ctx ring s = .next s₁) : Keeps s s₁ := by
  unfold execJobCopyOut at e
  obtain rfl := Host.Outcome.next.inj e
  simp (maxDischargeDepth := 64) +contextual only [*, Keeps.refl, State.arrive_keeps, State.ring_keeps,
    State.jobCopyOut_keeps, implies_true]

theorem execCopyComplete_keeps (dt : Nat) (ctx : Nat) (ring : Nat) {s₁ : State}
    (e : execCopyComplete dt ctx ring s = .next s₁) : Keeps s s₁ := by
  unfold execCopyComplete at e
  obtain rfl := Host.Outcome.next.inj e
  simp (maxDischargeDepth := 64) +contextual only [*, Keeps.refl, State.arrive_keeps, State.ring_keeps,
    State.copyComplete_keeps, implies_true]

theorem execJobFrame_keeps (dt : Nat) (ctx : Nat) (ring : Nat) {s₁ : State}
    (e : execJobFrame dt ctx ring s = .next s₁) : Keeps s s₁ := by
  unfold execJobFrame at e
  obtain rfl := Host.Outcome.next.inj e
  simp (maxDischargeDepth := 64) +contextual only [*, Keeps.refl, State.arrive_keeps, State.ring_keeps,
    State.jobFrame_keeps, implies_true]

theorem execJobWaitFrame_keeps (dt : Nat) (ctx : Nat) (ring : Nat) {s₁ : State}
    (e : execJobWaitFrame dt ctx ring s = .next s₁) : Keeps s s₁ := by
  unfold execJobWaitFrame at e
  obtain rfl := Host.Outcome.next.inj e
  simp (maxDischargeDepth := 64) +contextual only [*, Keeps.refl, State.arrive_keeps, State.ring_keeps,
    State.jobWaitFrame_keeps, implies_true]

theorem execJobDownlink_keeps (dt : Nat) (ctx : Nat) (ring : Nat) {s₁ : State}
    (e : execJobDownlink dt ctx ring s = .next s₁) : Keeps s s₁ := by
  unfold execJobDownlink at e
  obtain rfl := Host.Outcome.next.inj e
  simp (maxDischargeDepth := 64) +contextual only [*, Keeps.refl, State.arrive_keeps, State.ring_keeps,
    State.jobDownlink_keeps, implies_true]

theorem execJobBarrier_keeps (dt : Nat) (ctx : Nat) (ring : Nat) {s₁ : State}
    (e : execJobBarrier dt ctx ring s = .next s₁) : Keeps s s₁ := by
  unfold execJobBarrier at e
  obtain rfl := Host.Outcome.next.inj e
  simp (maxDischargeDepth := 64) +contextual only [*, Keeps.refl, State.arrive_keeps, State.ring_keeps,
    State.jobBarrier_keeps, implies_true]

theorem execCtxReset_keeps (dt : Nat) (fn : Nat) (ctx : Nat) {s₁ : State}
    (e : execCtxReset dt fn ctx s = .next s₁) : Keeps s s₁ := by
  unfold execCtxReset at e
  obtain rfl := Host.Outcome.next.inj e
  simp (maxDischargeDepth := 64) +contextual only [*, Keeps.refl, State.arrive_keeps, State.ctxCtl_keeps, implies_true]

theorem execVfFlr_keeps (dt : Nat) (fn : Nat) {s₁ : State}
    (e : execVfFlr dt fn s = .next s₁) : Keeps s s₁ := by
  unfold execVfFlr at e
  obtain rfl := Host.Outcome.next.inj e
  simp (maxDischargeDepth := 64) +contextual only [*, Keeps.refl, State.arrive_keeps, State.vfFlr_keeps, implies_true]

theorem execPfFlr_keeps (dt : Nat) (down : Bool) {s₁ : State}
    (e : execPfFlr dt down s = .next s₁) : Keeps s s₁ := by
  unfold execPfFlr at e
  obtain rfl := Host.Outcome.next.inj e
  simp (maxDischargeDepth := 64) +contextual only [*, Keeps.refl, State.arrive_keeps, State.pfReset_keeps, implies_true]

theorem execPerst_keeps (dt : Nat) {s₁ : State}
    (e : execPerst dt s = .next s₁) : Keeps s s₁ := by
  unfold execPerst at e
  obtain rfl := Host.Outcome.next.inj e
  simp (maxDischargeDepth := 64) +contextual only [*, Keeps.refl, State.arrive_keeps, State.pfReset_keeps, implies_true]

theorem execHostAccessFail_keeps (dt : Nat) (ctx : Nat) (ring : Nat) (k : Nat) {s₁ : State}
    (e : execHostAccessFail dt ctx ring k s = .next s₁) : Keeps s s₁ := by
  unfold execHostAccessFail at e
  obtain rfl := Host.Outcome.next.inj e
  simp (maxDischargeDepth := 64) +contextual only [*, Keeps.refl, State.arrive_keeps, State.ring_keeps,
    State.hostAccessFail_keeps, implies_true]

theorem execPoisonedTlp_keeps (dt : Nat) (ecrc : Bool) {s₁ : State}
    (e : execPoisonedTlp dt ecrc s = .next s₁) : Keeps s s₁ := by
  unfold execPoisonedTlp at e
  obtain rfl := Host.Outcome.next.inj e
  simp (maxDischargeDepth := 64) +contextual only [*, Keeps.refl, Keeps.ite, Keeps.ite_snd, Keeps.foldl, Keeps.foldl_snd, State.arrive_keeps,
    State.poisonedTlp_keeps, implies_true]

theorem execFuncCtxWrite_keeps (dt : Nat) (w : Nat) (fn : Nat) (v : Word) {s₁ : State}
    (e : execFuncCtxWrite dt w fn v s = .next s₁) : Keeps s s₁ := by
  unfold execFuncCtxWrite at e
  obtain rfl := Host.Outcome.next.inj e
  simp (maxDischargeDepth := 64) +contextual only [*, Keeps.refl, State.arriveBy_keeps, State.writeFuncCtx_keeps,
    State.arrive_keeps, implies_true]

theorem execMsixUnmask_keeps (dt : Nat) (fn : Nat) (vec : Nat) {s₁ : State}
    (e : execMsixUnmask dt fn vec s = .next s₁) : Keeps s s₁ := by
  unfold execMsixUnmask at e
  obtain rfl := Host.Outcome.next.inj e
  simp (maxDischargeDepth := 64) +contextual only [*, Keeps.refl, State.arrive_keeps, State.msixUnmask_keeps,
    implies_true]

theorem execL1Entry_keeps (dt : Nat) {s₁ : State}
    (e : execL1Entry dt s = .next s₁) : Keeps s s₁ := by
  unfold execL1Entry at e
  obtain rfl := Host.Outcome.next.inj e
  simp (maxDischargeDepth := 64) +contextual only [*, Keeps.refl, State.arrive_keeps, State.enterL1_keeps, implies_true]

theorem execHostConfigReady_keeps (dt : Nat) (speed : Nat) (width : Nat) (cfg : PcieCfg) {s₁ : State}
    (e : execHostConfigReady dt speed width cfg s = .next s₁) : Keeps s s₁ := by
  unfold execHostConfigReady at e
  obtain rfl := Host.Outcome.next.inj e
  simp (maxDischargeDepth := 64) +contextual only [*, Keeps.refl, Keeps.ite, Keeps.ite_snd, Keeps.foldl, Keeps.foldl_snd, State.arrive_keeps,
    State.hostReady_keeps, implies_true]

end Sys2Proof.Machine
end

