-- ==== Sys2Proof/Laws/KeepsMbxRows.lean ====
section
/-! SUPPORT. What the operations of Machine/MbxRows.lean keep: the waiting commands and the canonical form (Laws/Keeps.lean). -/

namespace Sys2Proof.Machine

set_option linter.unusedSimpArgs false
set_option linter.unusedTactic false

variable {s₀ s : State}

theorem State.slotBusy_keeps (ctx : Nat) (slot : Nat) (hs : Keeps s₀ s) :
    Keeps s₀ (s.slotBusy ctx slot) := by
  unfold State.slotBusy
  simp (maxDischargeDepth := 64) +contextual only [*, State.bump_keeps, State.event_keeps, State.error_keeps,
    State.privLast_keeps, implies_true]

theorem State.privPost_keeps (ctx : Nat) (slot : Nat) (hs : Keeps s₀ s) :
    Keeps s₀ (s.privPost ctx slot) := by
  unfold State.privPost
  repeat' first
    | (simp (maxDischargeDepth := 64) +contextual only [*, Keeps.ite, State.updHif_keeps, State.bump_keeps, State.error_keeps,
        State.setPriv_keeps, State.privLast_keeps, State.privDrop_keeps, State.setRstRx_keeps, implies_true]; done)
    | split
    | (dsimp only; split)

theorem State.privWrite_keeps (ctx : Nat) (slot : Nat) (off : Nat) (bs : List Byte) (hs : Keeps s₀ s) :
    Keeps s₀ (s.privWrite ctx slot off bs) := by
  unfold State.privWrite
  simp (maxDischargeDepth := 64) +contextual only [*, Keeps.ite, Keeps.ite_snd, Keeps.foldl, Keeps.foldl_snd, State.bump_keeps, State.setPriv_keeps,
    State.slotBusy_keeps, State.privPost_keeps, implies_true]

theorem State.privHost_keeps (fn : Nat) (ctx : Nat) (slot : Nat) (off : Nat) (bs : List Byte) (hs : Keeps s₀ s) :
    Keeps s₀ (s.privHost fn ctx slot off bs) := by
  unfold State.privHost
  simp (maxDischargeDepth := 64) +contextual only [*, Keeps.ite, Keeps.ite_snd, Keeps.foldl, Keeps.foldl_snd, State.throughView_keeps,
    State.privWrite_keeps, implies_true]

theorem State.unknownRequest_keeps (ctx : Nat) (type : Nat) (hs : Keeps s₀ s) :
    Keeps s₀ (s.unknownRequest ctx type) := by
  unfold State.unknownRequest
  simp (maxDischargeDepth := 64) +contextual only [*, State.bump_keeps, State.error_keeps, implies_true]

theorem State.hostNote_keeps (ctx : Nat) (slot : Nat) (hs : Keeps s₀ s) :
    Keeps s₀ (s.hostNote ctx slot) := by
  unfold State.hostNote
  simp (maxDischargeDepth := 64) +contextual only [*, Keeps.ite, State.logged_keeps, State.error_keeps,
    State.unknownRequest_keeps, implies_true]

theorem State.rstRequest_keeps (ctx : Nat) (slot : Nat) (hs : Keeps s₀ s) :
    Keeps s₀ (s.rstRequest ctx slot) := by
  unfold State.rstRequest
  simp (maxDischargeDepth := 64) +contextual only [*, Keeps.ite, State.error_keeps, State.timeSample_keeps,
    State.unknownRequest_keeps, State.hostNote_keeps, implies_true]

theorem State.privTake_keeps (who : Nat → Bool) (hs : Keeps s₀ s) :
    Keeps s₀ (s.privTake who) := by
  unfold State.privTake
  repeat' first
    | (simp (maxDischargeDepth := 64) +contextual only [*, Keeps.ite, State.updHif_keeps, State.setPriv_keeps,
        State.setRstRx_keeps, State.rstRequest_keeps, implies_true]; done)
    | split

theorem State.privPolicy_keeps (k : Nat) (v : Word) (hs : Keeps s₀ s) :
    Keeps s₀ (s.privPolicy k v) := by
  unfold State.privPolicy
  simp (maxDischargeDepth := 64) +contextual only [*, Keeps.ite, Keeps.ite_snd, Keeps.foldl, Keeps.foldl_snd,
    State.setCell_keeps, State.privDrop_keeps, implies_true]

theorem State.writePrivPolicy_keeps (w : Nat) (k : Nat) (v : Word) (hs : Keeps s₀ s) :
    Keeps s₀ (s.writePrivPolicy w k v) := by
  unfold State.writePrivPolicy
  simp (maxDischargeDepth := 64) +contextual only [*, State.wrote_keeps, State.onRwl_keeps, State.privPolicy_keeps,
    implies_true]

theorem State.writeSendCmd_keeps (rst : Bool) (w : Nat) (v : Word) (hs : Keeps s₀ s) :
    Keeps s₀ (s.writeSendCmd rst w v) := by
  unfold State.writeSendCmd
  simp (maxDischargeDepth := 64) +contextual only [*, Keeps.ite, State.bump_keeps, State.mbSend_keeps, State.wrote_keeps,
    State.onWrite_keeps, implies_true]

theorem State.writeStage_keeps (rst : Bool) (w : Nat) (k : Nat) (v : Word) (hs : Keeps s₀ s) :
    Keeps s₀ (s.writeStage rst w k v) := by
  unfold State.writeStage
  simp (maxDischargeDepth := 64) +contextual only [*, Keeps.ite, State.setCell_keeps, State.bump_keeps,
    State.wrote_keeps, State.onWrite_keeps, implies_true]

theorem State.areaSend_keeps (a : Agent) (mailbox : Nat) (off : Nat) (bytes : List Byte) (hs : Keeps s₀ s) :
    Keeps s₀ (s.areaSend a mailbox off bytes) := by
  unfold State.areaSend
  simp (maxDischargeDepth := 64) +contextual only [*, Keeps.ite, State.dropAcks_keeps, State.asAgent_keeps,
    State.areaWrite_keeps, implies_true]

theorem State.writeMbTake_keeps (w : Nat) (m : Nat) (v : Word) (hs : Keeps s₀ s) :
    Keeps s₀ (s.writeMbTake w m v) := by
  unfold State.writeMbTake
  simp (maxDischargeDepth := 64) +contextual only [*, State.mbTake_keeps, State.wrote_keeps, State.onWrite_keeps,
    implies_true]

theorem State.writeDb_keeps (w : Nat) (r : Nat) (i : Nat) (v : Word) (hs : Keeps s₀ s) :
    Keeps s₀ (s.writeDb w r i v) := by
  unfold State.writeDb
  simp (maxDischargeDepth := 64) +contextual only [*, Keeps.ite, State.ring_keeps, State.clearPend_keeps,
    State.setMask_keeps, State.setWake_keeps, State.wrote_keeps, State.onWrite_keeps, implies_true]

theorem State.writeMbxCfg_keeps (w : Nat) (off : Nat) (v : Word) (hs : Keeps s₀ s) :
    Keeps s₀ (s.writeMbxCfg w off v) := by
  unfold State.writeMbxCfg
  simp (maxDischargeDepth := 64) +contextual only [*, Keeps.ite, State.setFld_keeps, State.error_keeps,
    State.wrote_keeps, State.onRwl_keeps, implies_true]

theorem execPrivatePost_keeps (dt : Nat) (fn : Nat) (ctx : Nat) (slot : Nat) (off : Nat) (bytes : List Byte) {s₁ : State}
    (e : execPrivatePost dt fn ctx slot off bytes s = .next s₁) : Keeps s s₁ := by
  unfold execPrivatePost at e
  obtain rfl := Host.Outcome.next.inj e
  simp (maxDischargeDepth := 64) +contextual only [*, Keeps.refl, State.arrive_keeps, State.privHost_keeps, implies_true]

theorem execPrivateSlotFree_keeps (dt : Nat) (fn : Nat) (ctx : Nat) (slot : Nat) {s₁ : State}
    (e : execPrivateSlotFree dt fn ctx slot s = .next s₁) : Keeps s s₁ := by
  unfold execPrivateSlotFree at e
  obtain rfl := Host.Outcome.next.inj e
  simp (maxDischargeDepth := 64) +contextual only [*, Keeps.refl, State.arrive_keeps, State.privHost_keeps, implies_true]

theorem execPrivateTake_keeps (dt : Nat) {s₁ : State}
    (e : execPrivateTake dt s = .next s₁) : Keeps s s₁ := by
  unfold execPrivateTake at e
  obtain rfl := Host.Outcome.next.inj e
  simp (maxDischargeDepth := 64) +contextual only [*, Keeps.refl, State.arrive_keeps, State.privTake_keeps, implies_true]

theorem execHostNote_keeps (dt : Nat) {s₁ : State}
    (e : execHostNote dt s = .next s₁) : Keeps s s₁ := by
  unfold execHostNote at e
  obtain rfl := Host.Outcome.next.inj e
  simp (maxDischargeDepth := 64) +contextual only [*, Keeps.refl, State.arrive_keeps, State.privTake_keeps, implies_true]

theorem execPrivPolicyWrite_keeps (dt : Nat) (w : Nat) (k : Nat) (v : Word) {s₁ : State}
    (e : execPrivPolicyWrite dt w k v s = .next s₁) : Keeps s s₁ := by
  unfold execPrivPolicyWrite at e
  obtain rfl := Host.Outcome.next.inj e
  simp (maxDischargeDepth := 64) +contextual only [*, Keeps.refl, State.arriveBy_keeps, State.writePrivPolicy_keeps,
    State.arrive_keeps, implies_true]

theorem execMailboxSend_keeps (dt : Nat) (who : Requester) (mailbox : Nat) (off : Nat) (bytes : List Byte) {s₁ : State}
    (e : execMailboxSend dt who mailbox off bytes s = .next s₁) : Keeps s s₁ := by
  unfold execMailboxSend at e
  obtain rfl := Host.Outcome.next.inj e
  simp (maxDischargeDepth := 64) +contextual only [*, Keeps.refl, State.arrive_keeps, State.areaSend_keeps, implies_true]

theorem execSendCmdRst_keeps (dt : Nat) (w : Nat) (mailbox : Nat) {s₁ : State}
    (e : execSendCmdRst dt w mailbox s = .next s₁) : Keeps s s₁ := by
  unfold execSendCmdRst at e
  obtain rfl := Host.Outcome.next.inj e
  simp (maxDischargeDepth := 64) +contextual only [*, Keeps.refl, State.arriveBy_keeps, State.writeSendCmd_keeps,
    State.arrive_keeps, implies_true]

theorem execSendCmdPf_keeps (dt : Nat) (w : Nat) (mailbox : Nat) {s₁ : State}
    (e : execSendCmdPf dt w mailbox s = .next s₁) : Keeps s s₁ := by
  unfold execSendCmdPf at e
  obtain rfl := Host.Outcome.next.inj e
  simp (maxDischargeDepth := 64) +contextual only [*, Keeps.refl, State.arriveBy_keeps, State.writeSendCmd_keeps,
    State.arrive_keeps, implies_true]

theorem execMbTake_keeps (dt : Nat) (w : Nat) (mailbox : Nat) (v : Word) {s₁ : State}
    (e : execMbTake dt w mailbox v s = .next s₁) : Keeps s s₁ := by
  unfold execMbTake at e
  obtain rfl := Host.Outcome.next.inj e
  simp (maxDischargeDepth := 64) +contextual only [*, Keeps.refl, State.arriveBy_keeps, State.writeMbTake_keeps,
    State.arrive_keeps, implies_true]

theorem execDbRing_keeps (dt : Nat) (w : Nat) (receiver : Nat) (v : Word) {s₁ : State}
    (e : execDbRing dt w receiver v s = .next s₁) : Keeps s s₁ := by
  unfold execDbRing at e
  obtain rfl := Host.Outcome.next.inj e
  simp (maxDischargeDepth := 64) +contextual only [*, Keeps.refl, State.arriveBy_keeps, State.writeDb_keeps,
    State.arrive_keeps, implies_true]

theorem execDbPendClear_keeps (dt : Nat) (w : Nat) (receiver : Nat) (v : Word) {s₁ : State}
    (e : execDbPendClear dt w receiver v s = .next s₁) : Keeps s s₁ := by
  unfold execDbPendClear at e
  obtain rfl := Host.Outcome.next.inj e
  simp (maxDischargeDepth := 64) +contextual only [*, Keeps.refl, State.arriveBy_keeps, State.writeDb_keeps,
    State.arrive_keeps, implies_true]

theorem execDbMaskWrite_keeps (dt : Nat) (w : Nat) (receiver : Nat) (v : Word) {s₁ : State}
    (e : execDbMaskWrite dt w receiver v s = .next s₁) : Keeps s s₁ := by
  unfold execDbMaskWrite at e
  obtain rfl := Host.Outcome.next.inj e
  simp (maxDischargeDepth := 64) +contextual only [*, Keeps.refl, State.arriveBy_keeps, State.writeDb_keeps,
    State.arrive_keeps, implies_true]

theorem execMbxCfgWrite_keeps (dt : Nat) (w : Nat) (off : Nat) (v : Word) {s₁ : State}
    (e : execMbxCfgWrite dt w off v s = .next s₁) : Keeps s s₁ := by
  unfold execMbxCfgWrite at e
  obtain rfl := Host.Outcome.next.inj e
  simp (maxDischargeDepth := 64) +contextual only [*, Keeps.refl, State.arriveBy_keeps, State.writeMbxCfg_keeps,
    State.arrive_keeps, implies_true]

end Sys2Proof.Machine
end

