-- ==== Sys2Proof/Laws/KeepsBar2.lean ====
section
/-! SUPPORT. What the operations of Machine/Bar2.lean keep: the waiting commands and the canonical form (Laws/Keeps.lean). -/

namespace Sys2Proof.Machine

set_option linter.unusedSimpArgs false
set_option linter.unusedTactic false

variable {s₀ s : State}

theorem State.ctxWord_keeps (ctx : Nat) (o : Nat) (v : Nat) (hs : Keeps s₀ s) :
    Keeps s₀ (s.ctxWord ctx o v) := by
  unfold State.ctxWord
  simp (maxDischargeDepth := 64) +contextual only [*, Keeps.ite, Keeps.ite_snd, Keeps.foldl, Keeps.foldl_snd, State.setTail_keeps, State.ctxReset_keeps,
    implies_true]

theorem State.ctxRegs_keeps (ctx : Nat) (o : Nat) (bs : List Byte) (hs : Keeps s₀ s) :
    Keeps s₀ (s.ctxRegs ctx o bs) := by
  unfold State.ctxRegs
  simp (maxDischargeDepth := 64) +contextual only [*, Keeps.ite, Keeps.ite_snd, Keeps.foldl, Keeps.foldl_snd, State.countBadAccess_keeps,
    State.ctxWord_keeps, implies_true]

theorem State.ringBytes_keeps (ctx : Nat) (ring : Nat) (o : Nat) (bs : List Byte) (hs : Keeps s₀ s) :
    Keeps s₀ (s.ringBytes ctx ring o bs) := by
  unfold State.ringBytes
  simp (maxDischargeDepth := 64) +contextual only [*, Keeps.ite, Keeps.ite_snd, Keeps.foldl, Keeps.foldl_snd, State.updHif_keeps, State.ring_keeps,
    implies_true]

theorem State.ctxPageWrite_keeps (ctx : Nat) (o : Nat) (bs : List Byte) (hs : Keeps s₀ s) :
    Keeps s₀ (s.ctxPageWrite ctx o bs) := by
  unfold State.ctxPageWrite
  simp (maxDischargeDepth := 64) +contextual only [*, Keeps.ite, Keeps.ite_snd, Keeps.foldl, Keeps.foldl_snd, State.privWrite_keeps, State.ctxRegs_keeps,
    State.ringBytes_keeps, implies_true]

theorem State.vfMsixWrite_keeps (fn : Nat) (o : Nat) (bs : List Byte) (hs : Keeps s₀ s) :
    Keeps s₀ (s.vfMsixWrite fn o bs) := by
  unfold State.vfMsixWrite
  simp (maxDischargeDepth := 64) +contextual only [*, Keeps.ite, Keeps.ite_snd, Keeps.foldl, Keeps.foldl_snd, State.vfMsixWord_keeps, implies_true]

theorem State.bar2Write_keeps (fn : Nat) (x : BarWrite) (hs : Keeps s₀ s) :
    Keeps s₀ (s.bar2Write fn x) := by
  unfold State.bar2Write
  repeat' first
    | (simp (maxDischargeDepth := 64) +contextual only [*, Keeps.ite, Keeps.ite_snd, Keeps.foldl, Keeps.foldl_snd, State.hostTlp_keeps, State.throughView_keeps,
        State.ctxPageWrite_keeps, State.vfMsixWrite_keeps, implies_true]; done)
    | split

theorem State.ringTail_keeps (fn : Nat) (ctx : Nat) (ring : Nat) (writes : List BarWrite) (v : Nat) (hs : Keeps s₀ s) :
    Keeps s₀ (s.ringTail fn ctx ring writes v) := by
  unfold State.ringTail
  simp (maxDischargeDepth := 64) +contextual only [*, Keeps.ite, Keeps.ite_snd, Keeps.foldl, Keeps.foldl_snd, State.ring_keeps, State.throughView_keeps,
    State.setTail_keeps, State.bar2Write_keeps, implies_true]

theorem execRingTailWrite_keeps (dt : Nat) (fn : Nat) (ctx : Nat) (ring : Nat) (writes : List BarWrite) (tail : Nat) {s₁ : State}
    (e : execRingTailWrite dt fn ctx ring writes tail s = .next s₁) : Keeps s s₁ := by
  unfold execRingTailWrite at e
  obtain rfl := Host.Outcome.next.inj e
  simp (maxDischargeDepth := 64) +contextual only [*, Keeps.refl, Keeps.ite, Keeps.ite_snd, Keeps.foldl, Keeps.foldl_snd, State.arrive_keeps,
    State.ring_keeps, State.ringTail_keeps, implies_true]

end Sys2Proof.Machine
end

