-- ==== Sys2Proof/Laws/KeepsDebug.lean ====
section
/-! SUPPORT. What the operations of Machine/Debug.lean keep: the waiting commands and the canonical form (Laws/Keeps.lean). -/

namespace Sys2Proof.Machine

set_option linter.unusedSimpArgs false
set_option linter.unusedTactic false

variable {s₀ s : State}

theorem State.dbgChallenge_keeps (nonce : Nat) (hs : Keeps s₀ s) :
    Keeps s₀ (s.dbgChallenge nonce) := by
  unfold State.dbgChallenge
  simp (maxDischargeDepth := 64) +contextual only [*, State.updRst_keeps, implies_true]

theorem State.dbgOpen_keeps (level : Nat) (key : Nat) (lease : Nat) (hs : Keeps s₀ s) :
    Keeps s₀ (s.dbgOpen level key lease) := by
  unfold State.dbgOpen
  simp (maxDischargeDepth := 64) +contextual only [*, State.updRst_keeps, State.setFld_keeps, State.bump_keeps,
    State.event_keeps, State.note_keeps, State.latch_keeps, implies_true]

theorem State.dbgRefuse_keeps (hs : Keeps s₀ s) :
    Keeps s₀ (s.dbgRefuse) := by
  unfold State.dbgRefuse
  simp (maxDischargeDepth := 64) +contextual only [*, Keeps.ite, State.updRst_keeps, State.setFld_keeps,
    State.bump_keeps, State.event_keeps, State.error_keeps, implies_true]

theorem State.dbgResponse_keeps (b : List Byte) (hs : Keeps s₀ s) :
    Keeps s₀ (s.dbgResponse b) := by
  unfold State.dbgResponse
  simp (maxDischargeDepth := 64) +contextual only [*, Keeps.ite, Keeps.ite_snd, Keeps.foldl, Keeps.foldl_snd, State.updRst_keeps, State.error_keeps,
    State.dbgOpen_keeps, State.dbgRefuse_keeps, implies_true]

theorem State.leaveScan_keeps (ir : Nat) (hs : Keeps s₀ s) :
    Keeps s₀ (s.leaveScan ir) := by
  unfold State.leaveScan
  simp (maxDischargeDepth := 64) +contextual only [*, Keeps.ite, Keeps.ite_snd, Keeps.foldl, Keeps.foldl_snd, State.updGpio_keeps, State.updRst_keeps,
    implies_true]

theorem State.dbgEnd_keeps (cause : Nat) (hs : Keeps s₀ s) :
    Keeps s₀ (s.dbgEnd cause) := by
  unfold State.dbgEnd
  simp (maxDischargeDepth := 64) +contextual only [*, Keeps.ite, State.updRst_keeps, State.setFld_keeps,
    State.event_keeps, State.note_keeps, State.abandonLocks_keeps, implies_true]

theorem State.leaseExpire_keeps (hs : Keeps s₀ s) :
    Keeps s₀ (s.leaseExpire) := by
  unfold State.leaseExpire
  simp (maxDischargeDepth := 64) +contextual only [*, Keeps.ite, State.dbgEnd_keeps, implies_true]

theorem State.lockoutOver_keeps (hs : Keeps s₀ s) :
    Keeps s₀ (s.lockoutOver) := by
  unfold State.lockoutOver
  simp (maxDischargeDepth := 64) +contextual only [*, Keeps.ite, State.setFld_keeps, implies_true]

theorem State.dbgCfgWrite_keeps (w : Nat) (v : Word) (hs : Keeps s₀ s) :
    Keeps s₀ (s.dbgCfgWrite w v) := by
  unfold State.dbgCfgWrite
  simp (maxDischargeDepth := 64) +contextual only [*, Keeps.ite, State.setFld_keeps, State.wrote_keeps,
    State.undefinedEncoding_keeps, State.dbgEnd_keeps, implies_true]

theorem State.dmiHalt_keeps (paced : Bool) (hs : Keeps s₀ s) :
    Keeps s₀ (s.dmiHalt paced) := by
  unfold State.dmiHalt
  simp (maxDischargeDepth := 64) +contextual only [*, Keeps.ite, State.updRst_keeps, State.setFld_keeps, implies_true]

theorem State.selectScan_keeps (ir : Nat) (hs : Keeps s₀ s) :
    Keeps s₀ (s.selectScan ir) := by
  unfold State.selectScan
  simp (maxDischargeDepth := 64) +contextual only [*, Keeps.ite, Keeps.ite_snd, Keeps.foldl, Keeps.foldl_snd, State.updGpio_keeps, State.leaveScan_keeps,
    implies_true]

end Sys2Proof.Machine
end

