-- ==== Sys2Proof/Laws/KeepsRootstock.lean ====
section
/-! SUPPORT. What the operations of Machine/Rootstock.lean keep: the waiting commands and the canonical form (Laws/Keeps.lean). -/

namespace Sys2Proof.Machine

set_option linter.unusedSimpArgs false
set_option linter.unusedTactic false

variable {s₀ s : State}

theorem State.ifUp_keeps (f : State → State) (hf : ∀ x, Keeps s₀ x → Keeps s₀ (f x)) (hs : Keeps s₀ s) :
    Keeps s₀ (s.ifUp f) := by
  unfold State.ifUp
  simp (maxDischargeDepth := 64) +contextual only [*, Keeps.ite, implies_true]

theorem State.limit_keeps (hs : Keeps s₀ s) :
    Keeps s₀ (s.limit) := by
  unfold State.limit
  simp (maxDischargeDepth := 64) +contextual only [*, Keeps.ite, State.updFrm_keeps, State.event_keeps,
    State.updCond_keeps, implies_true]

theorem State.unlimit_keeps (hs : Keeps s₀ s) :
    Keeps s₀ (s.unlimit) := by
  unfold State.unlimit
  simp (maxDischargeDepth := 64) +contextual only [*, State.updFrm_keeps, State.updCond_keeps, implies_true]

theorem State.evalLimited_keeps (hs : Keeps s₀ s) :
    Keeps s₀ (s.evalLimited) := by
  unfold State.evalLimited
  simp (maxDischargeDepth := 64) +contextual only [*, Keeps.ite, State.limit_keeps, State.unlimit_keeps, implies_true]

theorem State.dropOverride_keeps (hs : Keeps s₀ s) :
    Keeps s₀ (s.dropOverride) := by
  unfold State.dropOverride
  simp (maxDischargeDepth := 64) +contextual only [*, Keeps.ite, Keeps.foldl, State.updRst_keeps, State.setFld_keeps,
    State.emptySlot_keeps, State.frmStop_keeps, State.evalLimited_keeps, implies_true]

theorem State.overrideSet_keeps (w : Nat) (hs : Keeps s₀ s) :
    Keeps s₀ (s.overrideSet w) := by
  unfold State.overrideSet
  simp (maxDischargeDepth := 64) +contextual only [*, Keeps.ite, State.updRst_keeps, State.setFld_keeps,
    State.event_keeps, State.note_keeps, State.latch_keeps, State.evalLimited_keeps, implies_true]

theorem State.overrideClear_keeps (w : Nat) (hs : Keeps s₀ s) :
    Keeps s₀ (s.overrideClear w) := by
  unfold State.overrideClear
  simp (maxDischargeDepth := 64) +contextual only [*, Keeps.ite, State.event_keeps, State.note_keeps,
    State.refreshActive_keeps, State.dropOverride_keeps, implies_true]

theorem State.writeOverride_keeps (w : Nat) (v : Word) (hs : Keeps s₀ s) :
    Keeps s₀ (s.writeOverride w v) := by
  unfold State.writeOverride
  simp (maxDischargeDepth := 64) +contextual only [*, Keeps.ite, State.wrote_keeps, State.onRws_keeps,
    State.overrideSet_keeps, State.overrideClear_keeps, implies_true]

theorem State.rstDead_keeps (code : Nat) (hs : Keeps s₀ s) :
    Keeps s₀ (s.rstDead code) := by
  unfold State.rstDead
  simp (maxDischargeDepth := 64) +contextual only [*, Keeps.ite, State.setFld_keeps, State.updCond_keeps,
    State.error_keeps, State.abandonLocks_keeps, State.latch_keeps, State.setRstRx_keeps, implies_true]

theorem State.enterRecovery_keeps (hs : Keeps s₀ s) :
    Keeps s₀ (s.enterRecovery) := by
  unfold State.enterRecovery
  simp (maxDischargeDepth := 64) +contextual only [*, State.setFld_keeps, implies_true]

theorem State.bootRom_keeps (flash : Bool) (rom : Bool) (digA : List Nat) (digB : List Nat) (hs : Keeps s₀ s) :
    Keeps s₀ (s.bootRom flash rom digA digB) := by
  unfold State.bootRom
  refine Keeps.ite (State.setFld_keeps _ _ (State.rstDead_keeps _ (State.updRst_keeps _ hs))) ?_
  dsimp only
  generalize hx : (if flash = true then _ else _ : State × Option Nat) = x
  have h1 : Keeps s₀ x.1 := by
    rw [← hx]
    split <;> exact State.chooseSlot_keeps _ _ (State.updRst_keeps _ hs)
  split
  · exact State.setFld_keeps _ _ (State.setFld_keeps _ _ (State.setFld_keeps _ _ h1))
  · exact State.enterRecovery_keeps h1

theorem State.rstClear_keeps (cause : Nat) (hs : Keeps s₀ s) :
    Keeps s₀ (s.rstClear cause) := by
  unfold State.rstClear
  simp (maxDischargeDepth := 64) +contextual only [*, Keeps.foldl, State.updRst_keeps, State.setFld_keeps,
    State.updCond_keeps, State.abandonLocks_keeps, State.refreshActive_keeps, State.ring_keeps, State.setRstRx_keeps,
    State.fetch_keeps, State.shockLevel_keeps, State.showRing_keeps, State.coolEval_keeps, State.dbgEnd_keeps,
    implies_true]

theorem State.rstReset_keeps (cause : Nat) (flash : Bool) (rom : Bool) (digA : List Nat) (digB : List Nat) (hs : Keeps s₀ s) :
    Keeps s₀ (s.rstReset cause flash rom digA digB) := by
  unfold State.rstReset
  simp (maxDischargeDepth := 64) +contextual only [*, Keeps.ite, State.bump_keeps, State.note_keeps,
    State.loadLife_keeps, State.accountLife_keeps, State.dropOverride_keeps, State.bootRom_keeps, State.rstClear_keeps,
    implies_true]

theorem State.writeResetReq_keeps (w : Nat) (v : Word) (hs : Keeps s₀ s) :
    Keeps s₀ (s.writeResetReq w v) := by
  unfold State.writeResetReq
  simp (maxDischargeDepth := 64) +contextual only [*, Keeps.ite, Keeps.ite_snd, Keeps.foldl, Keeps.foldl_snd, State.updRst_keeps, State.error_keeps,
    State.wrote_keeps, State.onRws_keeps, implies_true]

theorem State.rootstockReset_keeps (flash : Bool) (rom : Bool) (digA : List Nat) (digB : List Nat) (hs : Keeps s₀ s) :
    Keeps s₀ (s.rootstockReset flash rom digA digB) := by
  unfold State.rootstockReset
  repeat' first
    | (simp (maxDischargeDepth := 64) +contextual only [*, Keeps.ite, State.rstReset_keeps, implies_true]; done)
    | split

theorem State.rstWatchdog_keeps (flash : Bool) (rom : Bool) (digA : List Nat) (digB : List Nat) (hs : Keeps s₀ s) :
    Keeps s₀ (s.rstWatchdog flash rom digA digB) := by
  unfold State.rstWatchdog
  simp (maxDischargeDepth := 64) +contextual only [*, Keeps.ite, State.updRst_keeps, State.latch_keeps,
    State.rstReset_keeps, implies_true]

theorem State.countBoot_keeps (bootWord : Nat) (hs : Keeps s₀ s) :
    Keeps s₀ (s.countBoot bootWord) := by
  unfold State.countBoot
  simp (maxDischargeDepth := 64) +contextual only [*, Keeps.ite, State.updRst_keeps, State.securityRefuse_keeps,
    State.securityProgram_keeps, implies_true]

theorem State.readyRecords_keeps (hs : Keeps s₀ s) :
    Keeps s₀ (s.readyRecords) := by
  unfold State.readyRecords
  simp (maxDischargeDepth := 64) +contextual only [*, Keeps.ite, Keeps.ite_snd, Keeps.foldl, Keeps.foldl_snd,
    State.updRst_keeps, State.event_keeps, State.error_keeps, State.note_keeps, State.latch_keeps, implies_true]

theorem State.versionCheck_keeps (hs : Keeps s₀ s) :
    Keeps s₀ (s.versionCheck) := by
  unfold State.versionCheck
  simp (maxDischargeDepth := 64) +contextual only [*, State.setFld_keeps, State.evalLimited_keeps, implies_true]

theorem State.firstReady_keeps (hs : Keeps s₀ s) :
    Keeps s₀ (s.firstReady) := by
  unfold State.firstReady
  simp (maxDischargeDepth := 64) +contextual only [*, Keeps.ite, State.setFld_keeps, State.setCoreMax_keeps,
    State.applyCore_keeps, implies_true]

theorem State.bbFind_keeps (hs : Keeps s₀ s) :
    Keeps s₀ (s.bbFind) := by
  unfold State.bbFind
  simp (maxDischargeDepth := 64) +contextual only [*, State.updRst_keeps, implies_true]

theorem State.rootstockReady_keeps (bootWord : Nat) (hs : Keeps s₀ s) :
    Keeps s₀ (s.rootstockReady bootWord) := by
  unfold State.rootstockReady
  simp (maxDischargeDepth := 64) +contextual only [*, Keeps.ite, State.updRst_keeps, State.updPwr_keeps,
    State.setFld_keeps, State.event_keeps, State.updCond_keeps, State.note_keeps, State.setRstRx_keeps,
    State.enterHeld_keeps, State.ageLimit_keeps, State.countBoot_keeps, State.readyRecords_keeps,
    State.versionCheck_keeps, State.firstReady_keeps, State.bbFind_keeps, implies_true]

theorem State.shockAll_keeps (v : Nat) (hs : Keeps s₀ s) :
    Keeps s₀ (s.shockAll v) := by
  unfold State.shockAll
  simp (maxDischargeDepth := 64) +contextual only [*, Keeps.foldl, State.setFld_keeps, State.shockLevel_keeps,
    implies_true]

theorem State.shockFault_keeps (cause : Nat) (hs : Keeps s₀ s) :
    Keeps s₀ (s.shockFault cause) := by
  unfold State.shockFault
  simp (maxDischargeDepth := 64) +contextual only [*, Keeps.ite, State.updRst_keeps, State.event_keeps,
    State.error_keeps, State.shockAll_keeps, implies_true]

theorem State.shockSample_keeps (res : Nat) (x : Int) (y : Int) (z : Int) (hs : Keeps s₀ s) :
    Keeps s₀ (s.shockSample res x y z) := by
  unfold State.shockSample
  simp (maxDischargeDepth := 64) +contextual only [*, Keeps.ite, State.updRst_keeps, State.setFld_keeps,
    State.bump_keeps, State.shockAll_keeps, State.shockFault_keeps, implies_true]

theorem State.clockFault_keeps (k : Nat) (hs : Keeps s₀ s) :
    Keeps s₀ (s.clockFault k) := by
  unfold State.clockFault
  simp (maxDischargeDepth := 64) +contextual only [*, State.setFld_keeps, State.error_keeps, State.latch_keeps,
    implies_true]

theorem State.voltageFault_keeps (k : Nat) (mv : Nat) (hs : Keeps s₀ s) :
    Keeps s₀ (s.voltageFault k mv) := by
  unfold State.voltageFault
  simp (maxDischargeDepth := 64) +contextual only [*, Keeps.ite, State.updRst_keeps, State.setFld_keeps,
    State.error_keeps, State.latch_keeps, implies_true]

theorem State.updCmd_keeps (w : Nat) (v : Word) (words : List Nat) (hs : Keeps s₀ s) :
    Keeps s₀ (s.updCmd w v words) := by
  unfold State.updCmd
  simp (maxDischargeDepth := 64) +contextual only [*, Keeps.ite, State.onRws_keeps, State.updStage_keeps,
    State.updActivate_keeps, State.updConfirm_keeps, State.updRevert_keeps, State.updRevoke_keeps,
    State.updAbort_keeps, implies_true]

theorem State.writeLogCmd_keeps (w : Nat) (v : Word) (hs : Keeps s₀ s) :
    Keeps s₀ (s.writeLogCmd w v) := by
  unfold State.writeLogCmd
  simp (maxDischargeDepth := 64) +contextual only [*, Keeps.ite, Keeps.ite_snd, Keeps.foldl, Keeps.foldl_snd, State.wrote_keeps, State.onWrite_keeps,
    State.logFetch_keeps, implies_true]

theorem State.stageDone_keeps (flashOk : Bool) (hs : Keeps s₀ s) :
    Keeps s₀ (s.stageDone flashOk) := by
  unfold State.stageDone
  simp (maxDischargeDepth := 64) +contextual only [*, Keeps.ite, State.updStageDone_keeps, implies_true]

theorem State.rstAsleep_keeps (hs : Keeps s₀ s) :
    Keeps s₀ (s.rstAsleep) := by
  unfold State.rstAsleep
  simp (maxDischargeDepth := 64) +contextual only [*, Keeps.ite, State.setRstRx_keeps, implies_true]

theorem execRootstockReset_keeps (dt : Nat) (flash : Bool) (rom : Bool) (digA : List Nat) (digB : List Nat) {s₁ : State}
    (e : execRootstockReset dt flash rom digA digB s = .next s₁) : Keeps s s₁ := by
  unfold execRootstockReset at e
  obtain rfl := Host.Outcome.next.inj e
  simp (maxDischargeDepth := 64) +contextual only [*, Keeps.refl, State.arrive_keeps, State.rootstockReset_keeps,
    implies_true]

theorem execRootstockReady_keeps (dt : Nat) (bootWord : Nat) {s₁ : State}
    (e : execRootstockReady dt bootWord s = .next s₁) : Keeps s s₁ := by
  unfold execRootstockReady at e
  obtain rfl := Host.Outcome.next.inj e
  simp (maxDischargeDepth := 64) +contextual only [*, Keeps.refl, State.arrive_keeps, State.rootstockReady_keeps,
    implies_true]

theorem execRstResetReq_keeps (dt : Nat) (w : Nat) (key : Nat) (req : Nat) {s₁ : State}
    (e : execRstResetReq dt w key req s = .next s₁) : Keeps s s₁ := by
  unfold execRstResetReq at e
  obtain rfl := Host.Outcome.next.inj e
  simp (maxDischargeDepth := 64) +contextual only [*, Keeps.refl, State.arriveBy_keeps, State.writeResetReq_keeps,
    State.arrive_keeps, implies_true]

theorem execRstWatchdog_keeps (dt : Nat) (flash : Bool) (rom : Bool) (digA : List Nat) (digB : List Nat) {s₁ : State}
    (e : execRstWatchdog dt flash rom digA digB s = .next s₁) : Keeps s s₁ := by
  unfold execRstWatchdog at e
  obtain rfl := Host.Outcome.next.inj e
  simp (maxDischargeDepth := 64) +contextual only [*, Keeps.refl, State.arrive_keeps, State.rstWatchdog_keeps,
    implies_true]

theorem execLockstepMismatch_keeps (dt : Nat) {s₁ : State}
    (e : execLockstepMismatch dt s = .next s₁) : Keeps s s₁ := by
  unfold execLockstepMismatch at e
  obtain rfl := Host.Outcome.next.inj e
  simp (maxDischargeDepth := 64) +contextual only [*, Keeps.refl, State.arrive_keeps, State.rstDead_keeps, implies_true]

theorem execSramUe_keeps (dt : Nat) {s₁ : State}
    (e : execSramUe dt s = .next s₁) : Keeps s s₁ := by
  unfold execSramUe at e
  obtain rfl := Host.Outcome.next.inj e
  simp (maxDischargeDepth := 64) +contextual only [*, Keeps.refl, State.arrive_keeps, State.rstDead_keeps, implies_true]

theorem execThermalScan_keeps (dt : Nat) (temps : List Int) (mv : List Nat) {s₁ : State}
    (e : execThermalScan dt temps mv s = .next s₁) : Keeps s s₁ := by
  unfold execThermalScan at e
  obtain rfl := Host.Outcome.next.inj e
  simp (maxDischargeDepth := 64) +contextual only [*, Keeps.refl, State.arrive_keeps, State.thermalScan_keeps,
    implies_true]

theorem execClockMonitorFault_keeps (dt : Nat) (domain : Nat) {s₁ : State}
    (e : execClockMonitorFault dt domain s = .next s₁) : Keeps s s₁ := by
  unfold execClockMonitorFault at e
  obtain rfl := Host.Outcome.next.inj e
  simp (maxDischargeDepth := 64) +contextual only [*, Keeps.refl, State.arrive_keeps, State.clockFault_keeps,
    implies_true]

theorem execVoltageWindowFault_keeps (dt : Nat) (rail : Nat) (mv : Nat) {s₁ : State}
    (e : execVoltageWindowFault dt rail mv s = .next s₁) : Keeps s s₁ := by
  unfold execVoltageWindowFault at e
  obtain rfl := Host.Outcome.next.inj e
  simp (maxDischargeDepth := 64) +contextual only [*, Keeps.refl, State.arrive_keeps, State.voltageFault_keeps,
    implies_true]

theorem execShockSample_keeps (dt : Nat) (res : Nat) (x : Int) (y : Int) (z : Int) {s₁ : State}
    (e : execShockSample dt res x y z s = .next s₁) : Keeps s s₁ := by
  unfold execShockSample at e
  obtain rfl := Host.Outcome.next.inj e
  simp (maxDischargeDepth := 64) +contextual only [*, Keeps.refl, State.arrive_keeps, State.ifUp_keeps,
    State.shockSample_keeps, implies_true]

theorem execCoolantSample_keeps (dt : Nat) (reading : Option Int) {s₁ : State}
    (e : execCoolantSample dt reading s = .next s₁) : Keeps s s₁ := by
  unfold execCoolantSample at e
  obtain rfl := Host.Outcome.next.inj e
  simp (maxDischargeDepth := 64) +contextual only [*, Keeps.refl, State.arrive_keeps, State.coolantSample_keeps,
    State.ifUp_keeps, implies_true]

theorem execLogEntry_keeps (dt : Nat) {s₁ : State}
    (e : execLogEntry dt s = .next s₁) : Keeps s s₁ := by
  unfold execLogEntry at e
  obtain rfl := Host.Outcome.next.inj e
  simp (maxDischargeDepth := 64) +contextual only [*, Keeps.refl, State.arrive_keeps, State.logEntry_keeps, implies_true]

theorem execBbWrite_keeps (dt : Nat) (ok : Bool) {s₁ : State}
    (e : execBbWrite dt ok s = .next s₁) : Keeps s s₁ := by
  unfold execBbWrite at e
  obtain rfl := Host.Outcome.next.inj e
  simp (maxDischargeDepth := 64) +contextual only [*, Keeps.refl, State.arrive_keeps, State.bbWrite_keeps,
    State.ifUp_keeps, implies_true]

theorem execLogFetch_keeps (dt : Nat) (w : Nat) {s₁ : State}
    (e : execLogFetch dt w s = .next s₁) : Keeps s s₁ := by
  unfold execLogFetch at e
  obtain rfl := Host.Outcome.next.inj e
  simp (maxDischargeDepth := 64) +contextual only [*, Keeps.refl, State.arriveBy_keeps, State.writeLogCmd_keeps,
    State.arrive_keeps, implies_true]

theorem execLogFetchDone_keeps (dt : Nat) (raw : Option (List Byte)) {s₁ : State}
    (e : execLogFetchDone dt raw s = .next s₁) : Keeps s s₁ := by
  unfold execLogFetchDone at e
  obtain rfl := Host.Outcome.next.inj e
  simp (maxDischargeDepth := 64) +contextual only [*, Keeps.refl, State.arrive_keeps, State.logFetchDone_keeps,
    State.ifUp_keeps, implies_true]

theorem execUpdStage_keeps (dt : Nat) (w : Nat) (key : Nat) (words : List Nat) {s₁ : State}
    (e : execUpdStage dt w key words s = .next s₁) : Keeps s s₁ := by
  unfold execUpdStage at e
  obtain rfl := Host.Outcome.next.inj e
  simp (maxDischargeDepth := 64) +contextual only [*, Keeps.refl, State.arriveBy_keeps, State.updCmd_keeps,
    State.arrive_keeps, implies_true]

theorem execUpdStageDone_keeps (dt : Nat) (flashOk : Bool) {s₁ : State}
    (e : execUpdStageDone dt flashOk s = .next s₁) : Keeps s s₁ := by
  unfold execUpdStageDone at e
  obtain rfl := Host.Outcome.next.inj e
  simp (maxDischargeDepth := 64) +contextual only [*, Keeps.refl, State.arrive_keeps, State.stageDone_keeps, implies_true]

theorem execUpdActivate_keeps (dt : Nat) (w : Nat) (key : Nat) (words : List Nat) {s₁ : State}
    (e : execUpdActivate dt w key words s = .next s₁) : Keeps s s₁ := by
  unfold execUpdActivate at e
  obtain rfl := Host.Outcome.next.inj e
  simp (maxDischargeDepth := 64) +contextual only [*, Keeps.refl, State.arriveBy_keeps, State.updCmd_keeps,
    State.arrive_keeps, implies_true]

theorem execUpdConfirm_keeps (dt : Nat) (w : Nat) (key : Nat) (words : List Nat) {s₁ : State}
    (e : execUpdConfirm dt w key words s = .next s₁) : Keeps s s₁ := by
  unfold execUpdConfirm at e
  obtain rfl := Host.Outcome.next.inj e
  simp (maxDischargeDepth := 64) +contextual only [*, Keeps.refl, State.arriveBy_keeps, State.updCmd_keeps,
    State.arrive_keeps, implies_true]

theorem execUpdRevert_keeps (dt : Nat) (w : Nat) (key : Nat) (words : List Nat) {s₁ : State}
    (e : execUpdRevert dt w key words s = .next s₁) : Keeps s s₁ := by
  unfold execUpdRevert at e
  obtain rfl := Host.Outcome.next.inj e
  simp (maxDischargeDepth := 64) +contextual only [*, Keeps.refl, State.arriveBy_keeps, State.updCmd_keeps,
    State.arrive_keeps, implies_true]

theorem execUpdAbort_keeps (dt : Nat) (w : Nat) (key : Nat) {s₁ : State}
    (e : execUpdAbort dt w key s = .next s₁) : Keeps s s₁ := by
  unfold execUpdAbort at e
  obtain rfl := Host.Outcome.next.inj e
  simp (maxDischargeDepth := 64) +contextual only [*, Keeps.refl, State.arriveBy_keeps, State.updCmd_keeps,
    State.arrive_keeps, implies_true]

theorem execUpdRevoke_keeps (dt : Nat) (w : Nat) (key : Nat) (words : List Nat) {s₁ : State}
    (e : execUpdRevoke dt w key words s = .next s₁) : Keeps s s₁ := by
  unfold execUpdRevoke at e
  obtain rfl := Host.Outcome.next.inj e
  simp (maxDischargeDepth := 64) +contextual only [*, Keeps.refl, State.arriveBy_keeps, State.updCmd_keeps,
    State.arrive_keeps, implies_true]

theorem execOverrideSet_keeps (dt : Nat) (w : Nat) (key : Nat) {s₁ : State}
    (e : execOverrideSet dt w key s = .next s₁) : Keeps s s₁ := by
  unfold execOverrideSet at e
  obtain rfl := Host.Outcome.next.inj e
  simp (maxDischargeDepth := 64) +contextual only [*, Keeps.refl, State.arriveBy_keeps, State.writeOverride_keeps,
    State.arrive_keeps, implies_true]

theorem execOverrideClear_keeps (dt : Nat) (w : Nat) (key : Nat) {s₁ : State}
    (e : execOverrideClear dt w key s = .next s₁) : Keeps s s₁ := by
  unfold execOverrideClear at e
  obtain rfl := Host.Outcome.next.inj e
  simp (maxDischargeDepth := 64) +contextual only [*, Keeps.refl, State.arriveBy_keeps, State.writeOverride_keeps,
    State.arrive_keeps, implies_true]

theorem execDbgChallenge_keeps (dt : Nat) (nonce : Nat) {s₁ : State}
    (e : execDbgChallenge dt nonce s = .next s₁) : Keeps s s₁ := by
  unfold execDbgChallenge at e
  obtain rfl := Host.Outcome.next.inj e
  simp (maxDischargeDepth := 64) +contextual only [*, Keeps.refl, Keeps.ite, Keeps.ite_snd, Keeps.foldl, Keeps.foldl_snd, State.arrive_keeps,
    State.dbgChallenge_keeps, State.leaveScan_keeps, State.ifUp_keeps, implies_true]

theorem execDbgResponse_keeps (dt : Nat) (response : List Byte) {s₁ : State}
    (e : execDbgResponse dt response s = .next s₁) : Keeps s s₁ := by
  unfold execDbgResponse at e
  obtain rfl := Host.Outcome.next.inj e
  simp (maxDischargeDepth := 64) +contextual only [*, Keeps.refl, Keeps.ite, Keeps.ite_snd, Keeps.foldl, Keeps.foldl_snd, State.arrive_keeps,
    State.dbgResponse_keeps, State.leaveScan_keeps, State.ifUp_keeps, implies_true]

theorem execDbgClose_keeps (dt : Nat) {s₁ : State}
    (e : execDbgClose dt s = .next s₁) : Keeps s s₁ := by
  unfold execDbgClose at e
  obtain rfl := Host.Outcome.next.inj e
  simp (maxDischargeDepth := 64) +contextual only [*, Keeps.refl, Keeps.ite, Keeps.ite_snd, Keeps.foldl, Keeps.foldl_snd, State.arrive_keeps,
    State.leaveScan_keeps, State.dbgEnd_keeps, implies_true]

theorem execTapReset_keeps (dt : Nat) {s₁ : State}
    (e : execTapReset dt s = .next s₁) : Keeps s s₁ := by
  unfold execTapReset at e
  obtain rfl := Host.Outcome.next.inj e
  simp (maxDischargeDepth := 64) +contextual only [*, Keeps.refl, Keeps.ite, Keeps.ite_snd, Keeps.foldl, Keeps.foldl_snd, State.arrive_keeps,
    State.leaveScan_keeps, State.dbgEnd_keeps, implies_true]

theorem execDebugLeaseExpire_keeps (dt : Nat) {s₁ : State}
    (e : execDebugLeaseExpire dt s = .next s₁) : Keeps s s₁ := by
  unfold execDebugLeaseExpire at e
  obtain rfl := Host.Outcome.next.inj e
  simp (maxDischargeDepth := 64) +contextual only [*, Keeps.refl, State.arrive_keeps, State.leaseExpire_keeps,
    implies_true]

theorem execDebugLockoutEnd_keeps (dt : Nat) {s₁ : State}
    (e : execDebugLockoutEnd dt s = .next s₁) : Keeps s s₁ := by
  unfold execDebugLockoutEnd at e
  obtain rfl := Host.Outcome.next.inj e
  simp (maxDischargeDepth := 64) +contextual only [*, Keeps.refl, State.arrive_keeps, State.lockoutOver_keeps,
    implies_true]

theorem execDbgCfgWrite_keeps (dt : Nat) (w : Nat) (v : Word) {s₁ : State}
    (e : execDbgCfgWrite dt w v s = .next s₁) : Keeps s s₁ := by
  unfold execDbgCfgWrite at e
  obtain rfl := Host.Outcome.next.inj e
  simp (maxDischargeDepth := 64) +contextual only [*, Keeps.refl, State.arriveBy_keeps, State.onRws_keeps,
    State.dbgCfgWrite_keeps, State.arrive_keeps, implies_true]

theorem execDmiHalt_keeps (dt : Nat) {s₁ : State}
    (e : execDmiHalt dt s = .next s₁) : Keeps s s₁ := by
  unfold execDmiHalt at e
  obtain rfl := Host.Outcome.next.inj e
  simp (maxDischargeDepth := 64) +contextual only [*, Keeps.refl, Keeps.ite, Keeps.ite_snd, Keeps.foldl, Keeps.foldl_snd, State.arrive_keeps,
    State.leaveScan_keeps, State.dmiHalt_keeps, implies_true]

theorem execJtagExtest_keeps (dt : Nat) {s₁ : State}
    (e : execJtagExtest dt s = .next s₁) : Keeps s s₁ := by
  unfold execJtagExtest at e
  obtain rfl := Host.Outcome.next.inj e
  simp (maxDischargeDepth := 64) +contextual only [*, Keeps.refl, Keeps.ite, Keeps.ite_snd, Keeps.foldl, Keeps.foldl_snd, State.arrive_keeps,
    State.selectScan_keeps, implies_true]

theorem execJtagClamp_keeps (dt : Nat) {s₁ : State}
    (e : execJtagClamp dt s = .next s₁) : Keeps s s₁ := by
  unfold execJtagClamp at e
  obtain rfl := Host.Outcome.next.inj e
  simp (maxDischargeDepth := 64) +contextual only [*, Keeps.refl, Keeps.ite, Keeps.ite_snd, Keeps.foldl, Keeps.foldl_snd, State.arrive_keeps,
    State.selectScan_keeps, implies_true]

theorem execJtagHighz_keeps (dt : Nat) {s₁ : State}
    (e : execJtagHighz dt s = .next s₁) : Keeps s s₁ := by
  unfold execJtagHighz at e
  obtain rfl := Host.Outcome.next.inj e
  simp (maxDischargeDepth := 64) +contextual only [*, Keeps.refl, Keeps.ite, Keeps.ite_snd, Keeps.foldl, Keeps.foldl_snd, State.arrive_keeps,
    State.selectScan_keeps, implies_true]

theorem execJtagOtherInstruction_keeps (dt : Nat) (ir : Nat) {s₁ : State}
    (e : execJtagOtherInstruction dt ir s = .next s₁) : Keeps s s₁ := by
  unfold execJtagOtherInstruction at e
  obtain rfl := Host.Outcome.next.inj e
  simp (maxDischargeDepth := 64) +contextual only [*, Keeps.refl, Keeps.ite, Keeps.ite_snd, Keeps.foldl, Keeps.foldl_snd, State.arrive_keeps,
    State.leaveScan_keeps, implies_true]

theorem execRootstockAsleep_keeps (dt : Nat) {s₁ : State}
    (e : execRootstockAsleep dt s = .next s₁) : Keeps s s₁ := by
  unfold execRootstockAsleep at e
  obtain rfl := Host.Outcome.next.inj e
  simp (maxDischargeDepth := 64) +contextual only [*, Keeps.refl, State.arrive_keeps, State.rstAsleep_keeps, implies_true]

end Sys2Proof.Machine
end

