-- ==== Sys2Proof/Laws/KeepsSensorLink.lean ====
section
/-! SUPPORT. What the operations of Machine/SensorLink.lean keep: the waiting commands and the canonical form (Laws/Keeps.lean). -/

namespace Sys2Proof.Machine

set_option linter.unusedSimpArgs false
set_option linter.unusedTactic false

variable {s₀ s : State}

theorem State.laneStart_keeps (n : Nat) (hs : Keeps s₀ s) :
    Keeps s₀ (s.laneStart n) := by
  unfold State.laneStart
  simp (maxDischargeDepth := 64) +contextual only [*, Keeps.ite, Keeps.ite_snd, Keeps.foldl, Keeps.foldl_snd, State.acquire_keeps, State.zoneLoad_keeps,
    implies_true]

theorem State.lanePowerDown_keeps (n : Nat) (hs : Keeps s₀ s) :
    Keeps s₀ (s.lanePowerDown n) := by
  unfold State.lanePowerDown
  simp (maxDischargeDepth := 64) +contextual only [*, Keeps.ite, Keeps.ite_snd, Keeps.foldl, Keeps.foldl_snd, State.setCell_keeps, State.setFld_keeps,
    State.updCond_keeps, State.release_keeps, State.updLane_keeps, State.dropTiming_keeps,
    State.abandon_keeps, implies_true]

theorem State.laneCfg_keeps (n : Nat) (v : Word) (hs : Keeps s₀ s) :
    Keeps s₀ (s.laneCfg n v) := by
  unfold State.laneCfg
  simp (maxDischargeDepth := 64) +contextual only [*, Keeps.ite, Keeps.ite_snd, Keeps.foldl, Keeps.foldl_snd, State.setFld_keeps, State.zoneLoad_keeps,
    State.abandon_keeps, State.laneStart_keeps, State.lanePowerDown_keeps, implies_true]

theorem State.writeLaneCfg_keeps (n : Nat) (w : Nat) (v : Word) (hs : Keeps s₀ s) :
    Keeps s₀ (s.writeLaneCfg n w v) := by
  unfold State.writeLaneCfg
  simp (maxDischargeDepth := 64) +contextual only [*, State.wrote_keeps, State.onRwl_keeps, State.laneCfg_keeps,
    implies_true]

theorem State.writeLaneCmd_keeps (n : Nat) (w : Nat) (v : Word) (hs : Keeps s₀ s) :
    Keeps s₀ (s.writeLaneCmd n w v) := by
  unfold State.writeLaneCmd
  simp (maxDischargeDepth := 64) +contextual only [*, Keeps.ite, State.wrote_keeps, State.onWrite_keeps,
    State.zoneLoad_keeps, implies_true]

theorem State.writeVgaSet_keeps (n : Nat) (w : Nat) (v : Word) (hs : Keeps s₀ s) :
    Keeps s₀ (s.writeVgaSet n w v) := by
  unfold State.writeVgaSet
  simp (maxDischargeDepth := 64) +contextual only [*, State.wrote_keeps, State.onWrite_keeps, State.restartAcq_keeps,
    State.gainStep_keeps, implies_true]

theorem State.writeCtfSet_keeps (n : Nat) (w : Nat) (v : Word) (hs : Keeps s₀ s) :
    Keeps s₀ (s.writeCtfSet n w v) := by
  unfold State.writeCtfSet
  simp (maxDischargeDepth := 64) +contextual only [*, State.wrote_keeps, State.onWrite_keeps, State.restartAcq_keeps,
    State.ctfChange_keeps, implies_true]

theorem execLaneCfgWrite_keeps (dt : Nat) (lane : Nat) (w : Nat) (v : Word) {s₁ : State}
    (e : execLaneCfgWrite dt lane w v s = .next s₁) : Keeps s s₁ := by
  unfold execLaneCfgWrite at e
  obtain rfl := Host.Outcome.next.inj e
  simp (maxDischargeDepth := 64) +contextual only [*, Keeps.refl, State.arriveBy_keeps, State.writeLaneCfg_keeps,
    State.arrive_keeps, implies_true]

theorem execLaneReload_keeps (dt : Nat) (lane : Nat) (w : Nat) (v : Word) {s₁ : State}
    (e : execLaneReload dt lane w v s = .next s₁) : Keeps s s₁ := by
  unfold execLaneReload at e
  obtain rfl := Host.Outcome.next.inj e
  simp (maxDischargeDepth := 64) +contextual only [*, Keeps.refl, State.arriveBy_keeps, State.writeLaneCmd_keeps,
    State.arrive_keeps, implies_true]

theorem execVgaSet_keeps (dt : Nat) (lane : Nat) (w : Nat) (v : Word) {s₁ : State}
    (e : execVgaSet dt lane w v s = .next s₁) : Keeps s s₁ := by
  unfold execVgaSet at e
  obtain rfl := Host.Outcome.next.inj e
  simp (maxDischargeDepth := 64) +contextual only [*, Keeps.refl, State.arriveBy_keeps, State.writeVgaSet_keeps,
    State.arrive_keeps, implies_true]

theorem execCtfSet_keeps (dt : Nat) (lane : Nat) (w : Nat) (v : Word) {s₁ : State}
    (e : execCtfSet dt lane w v s = .next s₁) : Keeps s s₁ := by
  unfold execCtfSet at e
  obtain rfl := Host.Outcome.next.inj e
  simp (maxDischargeDepth := 64) +contextual only [*, Keeps.refl, State.arriveBy_keeps, State.writeCtfSet_keeps,
    State.arrive_keeps, implies_true]

theorem State.arriveRx_keeps (dt : Nat) (n : Nat) (rx : List RxSym) (hs : Keeps s₀ s) :
    Keeps s₀ (s.arriveRx dt n rx) := by
  unfold State.arriveRx
  simp (maxDischargeDepth := 64) +contextual only [*, Keeps.ite, Keeps.ite_snd, Keeps.foldl, Keeps.foldl_snd, State.arrive_keeps, State.receive_keeps,
    implies_true]

theorem State.acqCheck_keeps (n : Nat) (hs : Keeps s₀ s) :
    Keeps s₀ (s.acqCheck n) := by
  unfold State.acqCheck
  simp (maxDischargeDepth := 64) +contextual only [*, Keeps.ite, Keeps.ite_snd, Keeps.foldl, Keeps.foldl_snd, State.drawFree_keeps, State.updLane_keeps,
    State.gainStep_keeps, implies_true]

theorem State.acqEnd_keeps (n : Nat) (hs : Keeps s₀ s) :
    Keeps s₀ (s.acqEnd n) := by
  unfold State.acqEnd
  simp (maxDischargeDepth := 64) +contextual only [*, Keeps.ite, Keeps.ite_snd, Keeps.foldl, Keeps.foldl_snd, State.setFld_keeps, implies_true]

theorem State.trackStep_keeps (n : Nat) (hs : Keeps s₀ s) :
    Keeps s₀ (s.trackStep n) := by
  unfold State.trackStep
  simp (maxDischargeDepth := 64) +contextual only [*, Keeps.ite, Keeps.ite_snd, Keeps.foldl, Keeps.foldl_snd, Keeps.record, Keeps.record_drop,
    Keeps.record_drop2, State.setFld_keeps, State.updLane_keeps, State.gainStep_keeps, implies_true]

theorem execAcqGainCheck_keeps (dt : Nat) (lane : Nat) (rx : List RxSym) {s₁ : State}
    (e : execAcqGainCheck dt lane rx s = .next s₁) : Keeps s s₁ := by
  unfold execAcqGainCheck at e
  obtain rfl := Host.Outcome.next.inj e
  simp (maxDischargeDepth := 64) +contextual only [*, Keeps.refl, Keeps.ite, Keeps.ite_snd, Keeps.foldl, Keeps.foldl_snd, State.arriveRx_keeps,
    State.acqCheck_keeps, implies_true]

theorem execAcquisitionEnd_keeps (dt : Nat) (lane : Nat) (rx : List RxSym) {s₁ : State}
    (e : execAcquisitionEnd dt lane rx s = .next s₁) : Keeps s s₁ := by
  unfold execAcquisitionEnd at e
  obtain rfl := Host.Outcome.next.inj e
  simp (maxDischargeDepth := 64) +contextual only [*, Keeps.refl, Keeps.ite, Keeps.ite_snd, Keeps.foldl, Keeps.foldl_snd, State.arriveRx_keeps,
    State.acqEnd_keeps, implies_true]

theorem execTrackingGainStep_keeps (dt : Nat) (lane : Nat) (rx : List RxSym) {s₁ : State}
    (e : execTrackingGainStep dt lane rx s = .next s₁) : Keeps s s₁ := by
  unfold execTrackingGainStep at e
  obtain rfl := Host.Outcome.next.inj e
  simp (maxDischargeDepth := 64) +contextual only [*, Keeps.refl, Keeps.ite, Keeps.ite_snd, Keeps.foldl, Keeps.foldl_snd, State.arriveRx_keeps,
    State.trackStep_keeps, implies_true]

theorem State.windowEnd_keeps (n : Nat) (hs : Keeps s₀ s) :
    Keeps s₀ (s.windowEnd n) := by
  unfold State.windowEnd
  simp (maxDischargeDepth := 64) +contextual only [*, Keeps.ite, Keeps.ite_snd, Keeps.foldl, Keeps.foldl_snd, State.setFld_keeps, implies_true]

theorem execInvalidWindowEnd_keeps (dt : Nat) (lane : Nat) (rx : List RxSym) {s₁ : State}
    (e : execInvalidWindowEnd dt lane rx s = .next s₁) : Keeps s s₁ := by
  unfold execInvalidWindowEnd at e
  obtain rfl := Host.Outcome.next.inj e
  simp (maxDischargeDepth := 64) +contextual only [*, Keeps.refl, Keeps.ite, Keeps.ite_snd, Keeps.foldl, Keeps.foldl_snd, State.arriveRx_keeps,
    State.windowEnd_keeps, implies_true]

theorem State.defectEnd_keeps (n : Nat) (hs : Keeps s₀ s) :
    Keeps s₀ (s.defectEnd n) := by
  unfold State.defectEnd
  repeat' first
    | (simp (maxDischargeDepth := 64) +contextual only [*, Keeps.ite, Keeps.ite_snd, Keeps.foldl, Keeps.foldl_snd, Keeps.record, Keeps.record_drop,
        Keeps.record_drop2, State.bump_keeps, State.event_keeps, State.updLane_keeps, State.startAcq_keeps,
        implies_true]; done)
    | split

theorem execDefectRegionEnd_keeps (dt : Nat) (lane : Nat) (rx : List RxSym) {s₁ : State}
    (e : execDefectRegionEnd dt lane rx s = .next s₁) : Keeps s s₁ := by
  unfold execDefectRegionEnd at e
  obtain rfl := Host.Outcome.next.inj e
  simp (maxDischargeDepth := 64) +contextual only [*, Keeps.refl, Keeps.ite, Keeps.ite_snd, Keeps.foldl, Keeps.foldl_snd, State.arriveRx_keeps,
    State.defectEnd_keeps, implies_true]

theorem State.losEnter_keeps (n : Nat) (hs : Keeps s₀ s) :
    Keeps s₀ (s.losEnter n) := by
  unfold State.losEnter
  simp (maxDischargeDepth := 64) +contextual only [*, Keeps.ite, Keeps.ite_snd, Keeps.foldl, Keeps.foldl_snd, State.setFld_keeps, State.bump_keeps,
    State.event_keeps, State.error_keeps, State.abandonAll_keeps, implies_true]

theorem State.losClear_keeps (n : Nat) (hs : Keeps s₀ s) :
    Keeps s₀ (s.losClear n) := by
  unfold State.losClear
  simp (maxDischargeDepth := 64) +contextual only [*, Keeps.ite, Keeps.ite_snd, Keeps.foldl, Keeps.foldl_snd, State.setFld_keeps, State.event_keeps,
    State.zoneLoad_keeps, implies_true]

theorem State.timingRange_keeps (n : Nat) (hs : Keeps s₀ s) :
    Keeps s₀ (s.timingRange n) := by
  unfold State.timingRange
  simp (maxDischargeDepth := 64) +contextual only [*, Keeps.ite, Keeps.ite_snd, Keeps.foldl, Keeps.foldl_snd, State.event_keeps, State.error_keeps,
    State.zoneLoad_keeps, State.abandon_keeps, implies_true]

theorem execLosEnter_keeps (dt : Nat) (lane : Nat) (rx : List RxSym) {s₁ : State}
    (e : execLosEnter dt lane rx s = .next s₁) : Keeps s s₁ := by
  unfold execLosEnter at e
  obtain rfl := Host.Outcome.next.inj e
  simp (maxDischargeDepth := 64) +contextual only [*, Keeps.refl, Keeps.ite, Keeps.ite_snd, Keeps.foldl, Keeps.foldl_snd, State.arriveRx_keeps,
    State.losEnter_keeps, implies_true]

theorem execLosClear_keeps (dt : Nat) (lane : Nat) (rx : List RxSym) {s₁ : State}
    (e : execLosClear dt lane rx s = .next s₁) : Keeps s s₁ := by
  unfold execLosClear at e
  obtain rfl := Host.Outcome.next.inj e
  simp (maxDischargeDepth := 64) +contextual only [*, Keeps.refl, Keeps.ite, Keeps.ite_snd, Keeps.foldl, Keeps.foldl_snd, State.arriveRx_keeps,
    State.losClear_keeps, implies_true]

theorem execTimingRange_keeps (dt : Nat) (lane : Nat) (rx : List RxSym) {s₁ : State}
    (e : execTimingRange dt lane rx s = .next s₁) : Keeps s s₁ := by
  unfold execTimingRange at e
  obtain rfl := Host.Outcome.next.inj e
  simp (maxDischargeDepth := 64) +contextual only [*, Keeps.refl, Keeps.ite, Keeps.ite_snd, Keeps.foldl, Keeps.foldl_snd, State.arriveRx_keeps,
    State.timingRange_keeps, implies_true]

theorem State.loseSplit_keeps (n : Nat) (hs : Keeps s₀ s) :
    Keeps s₀ (s.loseSplit n) := by
  unfold State.loseSplit
  simp (maxDischargeDepth := 64) +contextual only [*, Keeps.ite, Keeps.ite_snd, Keeps.foldl, Keeps.foldl_snd, State.updLane_keeps, State.loseOpen_keeps,
    implies_true]

theorem State.syncMark_keeps (n : Nat) (hs : Keeps s₀ s) :
    Keeps s₀ (s.syncMark n) := by
  unfold State.syncMark
  simp (maxDischargeDepth := 64) +contextual only [*, Keeps.ite, Keeps.ite_snd, Keeps.foldl, Keeps.foldl_snd, State.updLane_keeps, State.takeSlot_keeps,
    implies_true]

theorem execSyncMarkFound_keeps (dt : Nat) (lane : Nat) (rx : List RxSym) {s₁ : State}
    (e : execSyncMarkFound dt lane rx s = .next s₁) : Keeps s s₁ := by
  unfold execSyncMarkFound at e
  obtain rfl := Host.Outcome.next.inj e
  simp (maxDischargeDepth := 64) +contextual only [*, Keeps.refl, Keeps.ite, Keeps.ite_snd, Keeps.foldl, Keeps.foldl_snd, State.arriveRx_keeps,
    State.syncMark_keeps, implies_true]

theorem State.openSector_keeps (n : Nat) (f : Frag) (h : FragHdr) (hs : Keeps s₀ s) :
    Keeps s₀ (s.openSector n f h) := by
  unfold State.openSector
  simp (maxDischargeDepth := 64) +contextual only [*, Keeps.ite, Keeps.ite_snd, Keeps.foldl, Keeps.foldl_snd, State.updLane_keeps, implies_true]

theorem State.noFirst_keeps (n : Nat) (f : Frag) (copies : List Nat) (hs : Keeps s₀ s) :
    Keeps s₀ (s.noFirst n f copies) := by
  unfold State.noFirst
  repeat' first
    | (simp (maxDischargeDepth := 64) +contextual only [*, Keeps.ite, Keeps.ite_snd, Keeps.foldl, Keeps.foldl_snd, State.loseBare_keeps,
        State.loseUnknown_keeps, implies_true]; done)
    | split

theorem State.firstHeader_keeps (n : Nat) (f : Frag) (copies : List Nat) (hs : Keeps s₀ s) :
    Keeps s₀ (s.firstHeader n f copies) := by
  unfold State.firstHeader
  repeat' first
    | (simp (maxDischargeDepth := 64) +contextual only [*, Keeps.ite, Keeps.ite_snd, Keeps.foldl, Keeps.foldl_snd, State.updLane_keeps, State.loseSector_keeps,
        State.openSector_keeps, State.noFirst_keeps, implies_true]; done)
    | split

theorem State.secondHeader_keeps (n : Nat) (f : Frag) (copies : List Nat) (hs : Keeps s₀ s) :
    Keeps s₀ (s.secondHeader n f copies) := by
  unfold State.secondHeader
  repeat' first
    | (simp (maxDischargeDepth := 64) +contextual only [*, Keeps.ite, Keeps.ite_snd, Keeps.foldl, Keeps.foldl_snd, Keeps.record, Keeps.record_drop,
        Keeps.record_drop2, State.updLane_keeps, State.takeSlot_keeps, State.loseSplit_keeps,
        State.openSector_keeps, implies_true]; done)
    | split
    | (dsimp only; split)

theorem State.fragHeader_keeps (n : Nat) (hs : Keeps s₀ s) :
    Keeps s₀ (s.fragHeader n) := by
  unfold State.fragHeader
  repeat' first
    | (simp (maxDischargeDepth := 64) +contextual only [*, Keeps.ite, Keeps.ite_snd, Keeps.foldl, Keeps.foldl_snd, State.updLane_keeps, State.firstHeader_keeps,
        State.secondHeader_keeps, implies_true]; done)
    | split
    | (dsimp only; split)

theorem execFragmentHeader_keeps (dt : Nat) (lane : Nat) (rx : List RxSym) {s₁ : State}
    (e : execFragmentHeader dt lane rx s = .next s₁) : Keeps s s₁ := by
  unfold execFragmentHeader at e
  obtain rfl := Host.Outcome.next.inj e
  simp (maxDischargeDepth := 64) +contextual only [*, Keeps.refl, Keeps.ite, Keeps.ite_snd, Keeps.foldl, Keeps.foldl_snd, State.arriveRx_keeps,
    State.fragHeader_keeps, implies_true]

theorem State.syncMiss_keeps (n : Nat) (hs : Keeps s₀ s) :
    Keeps s₀ (s.syncMiss n) := by
  unfold State.syncMiss
  simp (maxDischargeDepth := 64) +contextual only [*, State.bump_keeps, State.event_keeps, State.error_keeps,
    implies_true]

theorem State.closeFirst_keeps (n : Nat) (k : Nat) (hs : Keeps s₀ s) :
    Keeps s₀ (s.closeFirst n k) := by
  unfold State.closeFirst
  repeat' first
    | (simp (maxDischargeDepth := 64) +contextual only [*, Keeps.ite, Keeps.ite_snd, Keeps.foldl, Keeps.foldl_snd, State.updLane_keeps, State.loseBare_keeps,
        State.syncMiss_keeps, implies_true]; done)
    | split
    | (dsimp only; split)

theorem State.closeSecond_keeps (n : Nat) (hs : Keeps s₀ s) :
    Keeps s₀ (s.closeSecond n) := by
  unfold State.closeSecond
  repeat' first
    | (simp (maxDischargeDepth := 64) +contextual only [*, Keeps.ite, Keeps.ite_snd, Keeps.foldl, Keeps.foldl_snd, State.updLane_keeps, State.loseSplit_keeps,
        State.syncMiss_keeps, implies_true]; done)
    | split
    | (dsimp only; split)

theorem State.windowClose_keeps (n : Nat) (second : Bool) (k : Nat) (hs : Keeps s₀ s) :
    Keeps s₀ (s.windowClose n second k) := by
  unfold State.windowClose
  repeat' first
    | (simp (maxDischargeDepth := 64) +contextual only [*, Keeps.ite, Keeps.ite_snd, Keeps.foldl, Keeps.foldl_snd, State.closeFirst_keeps,
        State.closeSecond_keeps, implies_true]; done)
    | split

theorem execSyncWindowClose_keeps (dt : Nat) (lane : Nat) (rx : List RxSym) (second : Bool) (k : Nat) {s₁ : State}
    (e : execSyncWindowClose dt lane rx second k s = .next s₁) : Keeps s s₁ := by
  unfold execSyncWindowClose at e
  obtain rfl := Host.Outcome.next.inj e
  simp (maxDischargeDepth := 64) +contextual only [*, Keeps.refl, Keeps.ite, Keeps.ite_snd, Keeps.foldl, Keeps.foldl_snd, State.arriveRx_keeps,
    State.windowClose_keeps, implies_true]

theorem State.countDecode_keeps (n : Nat) (ok : Bool) (unsat : Nat) (globals : Nat) (locals : Nat) (total : Nat) (hs : Keeps s₀ s) :
    Keeps s₀ (s.countDecode n ok unsat globals locals total) := by
  unfold State.countDecode
  simp (maxDischargeDepth := 64) +contextual only [*, Keeps.ite, State.drawFree_keeps, State.setFld_keeps,
    State.bumpBy_keeps, State.bump_keeps, State.event_keeps, implies_true]

theorem State.decodeDone_keeps (n : Nat) (hs : Keeps s₀ s) :
    Keeps s₀ (s.decodeDone n) := by
  unfold State.decodeDone
  repeat' first
    | (simp (maxDischargeDepth := 64) +contextual only [*, Keeps.ite, Keeps.ite_snd, Keeps.foldl, Keeps.foldl_snd, State.bumpBy_keeps,
        State.takeInjection_keeps, State.updLane_keeps, State.decoded_keeps, State.decodeFailed_keeps,
        State.countDecode_keeps, implies_true]; done)
    | split

theorem execSectorDecodeDone_keeps (dt : Nat) (lane : Nat) (rx : List RxSym) {s₁ : State}
    (e : execSectorDecodeDone dt lane rx s = .next s₁) : Keeps s s₁ := by
  unfold execSectorDecodeDone at e
  obtain rfl := Host.Outcome.next.inj e
  simp (maxDischargeDepth := 64) +contextual only [*, Keeps.refl, Keeps.ite, Keeps.ite_snd, Keeps.foldl, Keeps.foldl_snd, State.arriveRx_keeps,
    State.decodeDone_keeps, implies_true]

theorem State.gapOpen_keeps (n : Nat) (hs : Keeps s₀ s) :
    Keeps s₀ (s.gapOpen n) := by
  unfold State.gapOpen
  simp (maxDischargeDepth := 64) +contextual only [*, Keeps.ite, Keeps.ite_snd, Keeps.foldl, Keeps.foldl_snd, State.setFld_keeps, implies_true]

theorem execInGapOpen_keeps (dt : Nat) (lane : Nat) (rx : List RxSym) {s₁ : State}
    (e : execInGapOpen dt lane rx s = .next s₁) : Keeps s s₁ := by
  unfold execInGapOpen at e
  obtain rfl := Host.Outcome.next.inj e
  simp (maxDischargeDepth := 64) +contextual only [*, Keeps.refl, Keeps.ite, Keeps.ite_snd, Keeps.foldl, Keeps.foldl_snd, State.arriveRx_keeps,
    State.gapOpen_keeps, implies_true]

theorem State.fieldEnd_keeps (n : Nat) (hs : Keeps s₀ s) :
    Keeps s₀ (s.fieldEnd n) := by
  unfold State.fieldEnd
  simp (maxDischargeDepth := 64) +contextual only [*, Keeps.ite, Keeps.ite_snd, Keeps.foldl, Keeps.foldl_snd, State.setFld_keeps, State.updLane_keeps,
    State.startAcq_keeps, implies_true]

theorem State.skipField_keeps (n : Nat) (hs : Keeps s₀ s) :
    Keeps s₀ (s.skipField n) := by
  unfold State.skipField
  simp (maxDischargeDepth := 64) +contextual only [*, Keeps.ite, Keeps.ite_snd, Keeps.foldl, Keeps.foldl_snd, State.updLane_keeps, implies_true]

theorem State.acceptBurst_keeps (n : Nat) (wd : Nat) (t : Nat) (hs : Keeps s₀ s) :
    Keeps s₀ (s.acceptBurst n wd t) := by
  unfold State.acceptBurst
  simp (maxDischargeDepth := 64) +contextual only [*, Keeps.ite, Keeps.ite_snd, Keeps.foldl, Keeps.foldl_snd, State.setFld_keeps, State.updLane_keeps,
    implies_true]

theorem State.indexLocated_keeps (n : Nat) (t : Nat) (hs : Keeps s₀ s) :
    Keeps s₀ (s.indexLocated n t) := by
  unfold State.indexLocated
  repeat' first
    | (simp (maxDischargeDepth := 64) +contextual only [*, Keeps.ite, Keeps.ite_snd, Keeps.foldl, Keeps.foldl_snd, State.updLane_keeps, State.servoUpdate_keeps,
        State.fieldEnd_keeps, State.skipField_keeps, State.acceptBurst_keeps, implies_true]; done)
    | split

theorem execIndexFieldLocated_keeps (dt : Nat) (lane : Nat) (rx : List RxSym) (instant : Nat) {s₁ : State}
    (e : execIndexFieldLocated dt lane rx instant s = .next s₁) : Keeps s s₁ := by
  unfold execIndexFieldLocated at e
  obtain rfl := Host.Outcome.next.inj e
  simp (maxDischargeDepth := 64) +contextual only [*, Keeps.refl, Keeps.ite, Keeps.ite_snd, Keeps.foldl, Keeps.foldl_snd, State.arriveRx_keeps,
    State.indexLocated_keeps, implies_true]

theorem State.indexMiss_keeps (n : Nat) (hs : Keeps s₀ s) :
    Keeps s₀ (s.indexMiss n) := by
  unfold State.indexMiss
  simp (maxDischargeDepth := 64) +contextual only [*, Keeps.ite, Keeps.ite_snd, Keeps.foldl, Keeps.foldl_snd, State.bump_keeps, State.event_keeps,
    State.error_keeps, State.updLane_keeps, State.dropTiming_keeps, State.noteWait_keeps,
    State.loseSplit_keeps, State.fieldEnd_keeps, State.skipField_keeps, implies_true]

theorem execIndexMiss_keeps (dt : Nat) (lane : Nat) (rx : List RxSym) {s₁ : State}
    (e : execIndexMiss dt lane rx s = .next s₁) : Keeps s s₁ := by
  unfold execIndexMiss at e
  obtain rfl := Host.Outcome.next.inj e
  simp (maxDischargeDepth := 64) +contextual only [*, Keeps.refl, Keeps.ite, Keeps.ite_snd, Keeps.foldl, Keeps.foldl_snd, State.arriveRx_keeps,
    State.indexMiss_keeps, implies_true]

theorem execRetryStepStart_keeps (dt : Nat) (engine : Nat) {s₁ : State}
    (e : execRetryStepStart dt engine s = .next s₁) : Keeps s s₁ := by
  unfold execRetryStepStart at e
  obtain rfl := Host.Outcome.next.inj e
  simp (maxDischargeDepth := 64) +contextual only [*, Keeps.refl, State.arrive_keeps, State.retryStart_keeps,
    implies_true]

theorem execRetryStepDone_keeps (dt : Nat) (engine : Nat) (z : List (List Int)) {s₁ : State}
    (e : execRetryStepDone dt engine z s = .next s₁) : Keeps s s₁ := by
  unfold execRetryStepDone at e
  obtain rfl := Host.Outcome.next.inj e
  simp (maxDischargeDepth := 64) +contextual only [*, Keeps.refl, Keeps.ite, Keeps.ite_snd, Keeps.foldl, Keeps.foldl_snd, State.arrive_keeps,
    State.retryDone_keeps, implies_true]

theorem execRetryDeadline_keeps (dt : Nat) (lane : Nat) (seq : Nat) {s₁ : State}
    (e : execRetryDeadline dt lane seq s = .next s₁) : Keeps s s₁ := by
  unfold execRetryDeadline at e
  obtain rfl := Host.Outcome.next.inj e
  simp (maxDischargeDepth := 64) +contextual only [*, Keeps.refl, State.arrive_keeps, State.retryDeadline_keeps,
    implies_true]

theorem execDlSend_keeps (dt : Nat) (lane : Nat) (w : Nat) (v : Word) {s₁ : State}
    (e : execDlSend dt lane w v s = .next s₁) : Keeps s s₁ := by
  unfold execDlSend at e
  obtain rfl := Host.Outcome.next.inj e
  simp (maxDischargeDepth := 64) +contextual only [*, Keeps.refl, State.arriveBy_keeps, State.dlSend_keeps,
    State.arrive_keeps, implies_true]

theorem execDownlinkTxStart_keeps (dt : Nat) (lane : Nat) {s₁ : State}
    (e : execDownlinkTxStart dt lane s = .next s₁) : Keeps s s₁ := by
  unfold execDownlinkTxStart at e
  obtain rfl := Host.Outcome.next.inj e
  simp (maxDischargeDepth := 64) +contextual only [*, Keeps.refl, State.arrive_keeps, State.dlStart_keeps, implies_true]

theorem execDownlinkTxDone_keeps (dt : Nat) (lane : Nat) {s₁ : State}
    (e : execDownlinkTxDone dt lane s = .next s₁) : Keeps s s₁ := by
  unfold execDownlinkTxDone at e
  obtain rfl := Host.Outcome.next.inj e
  simp (maxDischargeDepth := 64) +contextual only [*, Keeps.refl, State.arrive_keeps, State.dlDone_keeps, implies_true]

theorem execInhibitWaitExpire_keeps (dt : Nat) (lane : Nat) {s₁ : State}
    (e : execInhibitWaitExpire dt lane s = .next s₁) : Keeps s s₁ := by
  unfold execInhibitWaitExpire at e
  obtain rfl := Host.Outcome.next.inj e
  simp (maxDischargeDepth := 64) +contextual only [*, Keeps.refl, State.arrive_keeps, State.inhibitExpire_keeps,
    implies_true]

theorem execRedundDecision_keeps (dt : Nat) (pair : Nat) (seq : Nat) {s₁ : State}
    (e : execRedundDecision dt pair seq s = .next s₁) : Keeps s s₁ := by
  unfold execRedundDecision at e
  obtain rfl := Host.Outcome.next.inj e
  simp (maxDischargeDepth := 64) +contextual only [*, Keeps.refl, State.arrive_keeps, State.redundDecision_keeps,
    implies_true]

end Sys2Proof.Machine
end

