-- ==== Sys2Proof/Laws/KeepsPowerState.lean ====
section
/-! SUPPORT. What the operations of Machine/PowerState.lean keep: the waiting commands and the canonical form (Laws/Keeps.lean). -/

namespace Sys2Proof.Machine

set_option linter.unusedSimpArgs false
set_option linter.unusedTactic false

variable {s₀ s : State}

theorem State.powerSwitch_keeps (st : Nat) (hs : Keeps s₀ s) :
    Keeps s₀ (s.powerSwitch st) := by
  unfold State.powerSwitch
  simp (maxDischargeDepth := 64) +contextual only [*, Keeps.ite, State.setFld_keeps, State.event_keeps,
    State.accountLife_keeps, State.coreFreqChange_keeps, implies_true]

theorem State.powerEnter_keeps (st : Nat) (hs : Keeps s₀ s) :
    Keeps s₀ (s.powerEnter st) := by
  unfold State.powerEnter
  repeat' first
    | (simp (maxDischargeDepth := 64) +contextual only [*, Keeps.ite, Keeps.ite_snd, State.updPwr_keeps, State.error_keeps,
        implies_true]; done)
    | split

theorem State.writePwrReq_keeps (w : Nat) (v : Word) (hs : Keeps s₀ s) :
    Keeps s₀ (s.writePwrReq w v) := by
  unfold State.writePwrReq
  simp (maxDischargeDepth := 64) +contextual only [*, Keeps.ite, Keeps.ite_snd, Keeps.foldl, Keeps.foldl_snd, State.setFld_keeps, State.wrote_keeps,
    State.onRws_keeps, State.powerSwitch_keeps, State.powerEnter_keeps, implies_true]

theorem State.wake_keeps (b : Nat) (hs : Keeps s₀ s) :
    Keeps s₀ (s.wake b) := by
  unfold State.wake
  simp (maxDischargeDepth := 64) +contextual only [*, Keeps.ite, Keeps.ite_snd, Keeps.foldl, Keeps.foldl_snd, State.setFld_keeps, State.updPwr_keeps,
    State.noteRise_keeps, State.event_keeps, State.sentryStop_keeps, implies_true]

theorem State.wakeIn_keeps (hs : Keeps s₀ s) :
    Keeps s₀ (s.wakeIn) := by
  unfold State.wakeIn
  simp (maxDischargeDepth := 64) +contextual only [*, Keeps.ite, State.wake_keeps, implies_true]

theorem State.wakeTimer_keeps (hs : Keeps s₀ s) :
    Keeps s₀ (s.wakeTimer) := by
  unfold State.wakeTimer
  simp (maxDischargeDepth := 64) +contextual only [*, Keeps.ite, State.wake_keeps, implies_true]

theorem State.entryDone_keeps (hs : Keeps s₀ s) :
    Keeps s₀ (s.entryDone) := by
  unfold State.entryDone
  simp (maxDischargeDepth := 64) +contextual only [*, Keeps.ite, Keeps.foldl, Keeps.record, State.updPwr_keeps,
    State.setCell_keeps, State.setFld_keeps, State.bump_keeps, State.event_keeps, State.fabricClear_keeps,
    State.loseCellar_keeps, State.lanePowerDown_keeps, State.accountLife_keeps, State.portsOff_keeps,
    State.pfReset_keeps, State.wake_keeps, implies_true]

theorem State.trainFail_keeps (c : Nat) (hs : Keeps s₀ s) :
    Keeps s₀ (s.trainFail c) := by
  unfold State.trainFail
  simp (maxDischargeDepth := 64) +contextual only [*, State.error_keeps, State.pageFault_keeps, implies_true]

theorem State.trained_keeps (failed : List Nat) (hs : Keeps s₀ s) :
    Keeps s₀ (s.trained failed) := by
  unfold State.trained
  simp (maxDischargeDepth := 64) +contextual only [*, Keeps.ite, Keeps.ite_snd, Keeps.foldl, Keeps.foldl_snd, State.updMem_keeps, State.trainFail_keeps,
    implies_true]

theorem State.wakeDone_keeps (failed : List Nat) (hs : Keeps s₀ s) :
    Keeps s₀ (s.wakeDone failed) := by
  unfold State.wakeDone
  simp (maxDischargeDepth := 64) +contextual only [*, Keeps.ite, State.updPwr_keeps, State.setFld_keeps,
    State.event_keeps, State.release_keeps, State.accountLife_keeps, State.setCoreMax_keeps, State.applyCore_keeps,
    State.portsResume_keeps, State.trained_keeps, implies_true]

theorem State.writeWakeCause_keeps (w : Nat) (v : Word) (hs : Keeps s₀ s) :
    Keeps s₀ (s.writeWakeCause w v) := by
  unfold State.writeWakeCause
  simp (maxDischargeDepth := 64) +contextual only [*, Keeps.ite, Keeps.ite_snd, Keeps.foldl, Keeps.foldl_snd, State.setFld_keeps, State.updPwr_keeps,
    State.wrote_keeps, State.onWrite_keeps, implies_true]

theorem State.openSentry_keeps (hs : Keeps s₀ s) :
    Keeps s₀ (s.openSentry) := by
  unfold State.openSentry
  simp (maxDischargeDepth := 64) +contextual only [*, State.updPwr_keeps, State.setFld_keeps, State.bump_keeps,
    State.updCond_keeps, State.zoneLoadOf_keeps, State.laneTick_keeps, implies_true]

theorem State.sentryWindow_keeps (hs : Keeps s₀ s) :
    Keeps s₀ (s.sentryWindow) := by
  unfold State.sentryWindow
  simp (maxDischargeDepth := 64) +contextual only [*, Keeps.ite, State.updPwr_keeps, State.bump_keeps,
    State.openSentry_keeps, implies_true]

theorem State.sentryListenEnd_keeps (hs : Keeps s₀ s) :
    Keeps s₀ (s.sentryListenEnd) := by
  unfold State.sentryListenEnd
  simp (maxDischargeDepth := 64) +contextual only [*, Keeps.ite, Keeps.ite_snd, Keeps.foldl, Keeps.foldl_snd, State.updPwr_keeps, State.updCond_keeps,
    State.poke_keeps, State.startStage_keeps, implies_true]

theorem State.sentryProgramDone_keeps (hs : Keeps s₀ s) :
    Keeps s₀ (s.sentryProgramDone) := by
  unfold State.sentryProgramDone
  simp (maxDischargeDepth := 64) +contextual only [*, Keeps.ite, State.setFld_keeps, State.sentryStop_keeps,
    State.wake_keeps, implies_true]

theorem State.sentryOverrun_keeps (hs : Keeps s₀ s) :
    Keeps s₀ (s.sentryOverrun) := by
  unfold State.sentryOverrun
  simp (maxDischargeDepth := 64) +contextual only [*, Keeps.ite, State.bump_keeps, State.error_keeps,
    State.sentryStop_keeps, implies_true]

theorem execPwrReqRun_keeps (dt : Nat) (w : Nat) {s₁ : State}
    (e : execPwrReqRun dt w s = .next s₁) : Keeps s s₁ := by
  unfold execPwrReqRun at e
  obtain rfl := Host.Outcome.next.inj e
  simp (maxDischargeDepth := 64) +contextual only [*, Keeps.refl, State.arriveBy_keeps, State.writePwrReq_keeps,
    State.arrive_keeps, implies_true]

theorem execPwrReqTrim_keeps (dt : Nat) (w : Nat) {s₁ : State}
    (e : execPwrReqTrim dt w s = .next s₁) : Keeps s s₁ := by
  unfold execPwrReqTrim at e
  obtain rfl := Host.Outcome.next.inj e
  simp (maxDischargeDepth := 64) +contextual only [*, Keeps.refl, State.arriveBy_keeps, State.writePwrReq_keeps,
    State.arrive_keeps, implies_true]

theorem execPwrReqSentry_keeps (dt : Nat) (w : Nat) {s₁ : State}
    (e : execPwrReqSentry dt w s = .next s₁) : Keeps s s₁ := by
  unfold execPwrReqSentry at e
  obtain rfl := Host.Outcome.next.inj e
  simp (maxDischargeDepth := 64) +contextual only [*, Keeps.refl, State.arriveBy_keeps, State.writePwrReq_keeps,
    State.arrive_keeps, implies_true]

theorem execPwrReqParked_keeps (dt : Nat) (w : Nat) {s₁ : State}
    (e : execPwrReqParked dt w s = .next s₁) : Keeps s s₁ := by
  unfold execPwrReqParked at e
  obtain rfl := Host.Outcome.next.inj e
  simp (maxDischargeDepth := 64) +contextual only [*, Keeps.refl, State.arriveBy_keeps, State.writePwrReq_keeps,
    State.arrive_keeps, implies_true]

theorem execLowPowerEntryDone_keeps (dt : Nat) {s₁ : State}
    (e : execLowPowerEntryDone dt s = .next s₁) : Keeps s s₁ := by
  unfold execLowPowerEntryDone at e
  obtain rfl := Host.Outcome.next.inj e
  simp (maxDischargeDepth := 64) +contextual only [*, Keeps.refl, State.arrive_keeps, State.entryDone_keeps, implies_true]

theorem execWakeIn_keeps (dt : Nat) {s₁ : State}
    (e : execWakeIn dt s = .next s₁) : Keeps s s₁ := by
  unfold execWakeIn at e
  obtain rfl := Host.Outcome.next.inj e
  simp (maxDischargeDepth := 64) +contextual only [*, Keeps.refl, State.arrive_keeps, State.wakeIn_keeps, implies_true]

theorem execWakeTimer_keeps (dt : Nat) {s₁ : State}
    (e : execWakeTimer dt s = .next s₁) : Keeps s s₁ := by
  unfold execWakeTimer at e
  obtain rfl := Host.Outcome.next.inj e
  simp (maxDischargeDepth := 64) +contextual only [*, Keeps.refl, State.arrive_keeps, State.wakeTimer_keeps, implies_true]

theorem execWakeDone_keeps (dt : Nat) (failed : List Nat) {s₁ : State}
    (e : execWakeDone dt failed s = .next s₁) : Keeps s s₁ := by
  unfold execWakeDone at e
  obtain rfl := Host.Outcome.next.inj e
  simp (maxDischargeDepth := 64) +contextual only [*, Keeps.refl, State.arrive_keeps, State.wakeDone_keeps, implies_true]

theorem execWakeCauseClear_keeps (dt : Nat) (w : Nat) (v : Word) {s₁ : State}
    (e : execWakeCauseClear dt w v s = .next s₁) : Keeps s s₁ := by
  unfold execWakeCauseClear at e
  obtain rfl := Host.Outcome.next.inj e
  simp (maxDischargeDepth := 64) +contextual only [*, Keeps.refl, State.arriveBy_keeps, State.writeWakeCause_keeps,
    State.arrive_keeps, implies_true]

theorem execSentryWindow_keeps (dt : Nat) {s₁ : State}
    (e : execSentryWindow dt s = .next s₁) : Keeps s s₁ := by
  unfold execSentryWindow at e
  obtain rfl := Host.Outcome.next.inj e
  simp (maxDischargeDepth := 64) +contextual only [*, Keeps.refl, State.arrive_keeps, State.sentryWindow_keeps,
    implies_true]

theorem execSentryListenEnd_keeps (dt : Nat) {s₁ : State}
    (e : execSentryListenEnd dt s = .next s₁) : Keeps s s₁ := by
  unfold execSentryListenEnd at e
  obtain rfl := Host.Outcome.next.inj e
  simp (maxDischargeDepth := 64) +contextual only [*, Keeps.refl, State.arrive_keeps, State.sentryListenEnd_keeps,
    implies_true]

theorem execSentryProgramDone_keeps (dt : Nat) {s₁ : State}
    (e : execSentryProgramDone dt s = .next s₁) : Keeps s s₁ := by
  unfold execSentryProgramDone at e
  obtain rfl := Host.Outcome.next.inj e
  simp (maxDischargeDepth := 64) +contextual only [*, Keeps.refl, State.arrive_keeps, State.sentryProgramDone_keeps,
    implies_true]

theorem execSentryProgramOverrun_keeps (dt : Nat) {s₁ : State}
    (e : execSentryProgramOverrun dt s = .next s₁) : Keeps s s₁ := by
  unfold execSentryProgramOverrun at e
  obtain rfl := Host.Outcome.next.inj e
  simp (maxDischargeDepth := 64) +contextual only [*, Keeps.refl, State.arrive_keeps, State.sentryOverrun_keeps,
    implies_true]

theorem execHwThermalTrip_keeps (dt : Nat) (sensor : Nat) (t : Int) {s₁ : State}
    (e : execHwThermalTrip dt sensor t s = .next s₁) : Keeps s s₁ := by
  unfold execHwThermalTrip at e
  obtain rfl := Host.Outcome.next.inj e
  simp (maxDischargeDepth := 64) +contextual only [*, Keeps.refl, State.arrive_keeps, State.hardwareTrip_keeps,
    implies_true]

theorem execAgeHour_keeps (dt : Nat) (slack : Nat) (held : Bool) {s₁ : State}
    (e : execAgeHour dt slack held s = .next s₁) : Keeps s s₁ := by
  unfold execAgeHour at e
  obtain rfl := Host.Outcome.next.inj e
  simp (maxDischargeDepth := 64) +contextual only [*, Keeps.refl, Keeps.ite, State.arrive_keeps, State.ageHour_keeps,
    State.ifUp_keeps, implies_true]

theorem execVddLow_keeps (dt : Nat) (mv : Nat) {s₁ : State}
    (e : execVddLow dt mv s = .next s₁) : Keeps s s₁ := by
  unfold execVddLow at e
  obtain rfl := Host.Outcome.next.inj e
  simp (maxDischargeDepth := 64) +contextual only [*, Keeps.refl, State.arrive_keeps, State.vddLow_keeps, implies_true]

end Sys2Proof.Machine
end

