-- ==== Sys2Proof/Laws/KeepsPages.lean ====
section
/-! SUPPORT. What the operations of Machine/Pages.lean keep: the waiting commands and the canonical form (Laws/Keeps.lean). -/

namespace Sys2Proof.Machine

set_option linter.unusedSimpArgs false
set_option linter.unusedTactic false

variable {s₀ s : State}

theorem State.turnOn_keeps (p : Nat) (hs : Keeps s₀ s) :
    Keeps s₀ (s.turnOn p) := by
  unfold State.turnOn
  simp (maxDischargeDepth := 64) +contextual only [*, Keeps.ite, State.updCond_keeps, State.laneStart_keeps,
    State.sepFollow_keeps, State.portStart_keeps, implies_true]

theorem State.turnOff_keeps (p : Nat) (hs : Keeps s₀ s) :
    Keeps s₀ (s.turnOff p) := by
  unfold State.turnOff
  simp (maxDischargeDepth := 64) +contextual only [*, Keeps.ite, State.updCond_keeps, State.release_keeps,
    State.lanePowerDown_keeps, implies_true]

theorem State.turnDown_keeps (p : Nat) (hs : Keeps s₀ s) :
    Keeps s₀ (s.turnDown p) := by
  unfold State.turnDown
  simp (maxDischargeDepth := 64) +contextual only [*, Keeps.ite, Keeps.ite_snd, Keeps.foldl, Keeps.foldl_snd, State.updCond_keeps, State.frmDrain_keeps,
    State.frmCut_keeps, State.portOff_keeps, State.turnOff_keeps, implies_true]

theorem State.setEnable_keeps (p : Nat) (b : Bool) (hs : Keeps s₀ s) :
    Keeps s₀ (s.setEnable p b) := by
  unfold State.setEnable
  simp (maxDischargeDepth := 64) +contextual only [*, Keeps.ite, State.updPage_keeps, State.turnOn_keeps,
    State.turnDown_keeps, implies_true]

theorem State.drainDone_keeps (p : Nat) (hs : Keeps s₀ s) :
    Keeps s₀ (s.drainDone p) := by
  unfold State.drainDone
  simp (maxDischargeDepth := 64) +contextual only [*, Keeps.ite, Keeps.ite_snd, Keeps.foldl, Keeps.foldl_snd, State.sepFollow_keeps, State.updCond_keeps,
    State.zoneLoad_keeps, State.frmRest_keeps, State.laneStart_keeps, State.turnOff_keeps, implies_true]

theorem State.pauseHook_keeps (p : Nat) (hs : Keeps s₀ s) :
    Keeps s₀ (s.pauseHook p) := by
  unfold State.pauseHook
  simp (maxDischargeDepth := 64) +contextual only [*, Keeps.ite, Keeps.ite_snd, Keeps.foldl, Keeps.foldl_snd, State.noteWait_keeps, State.portSend_keeps,
    implies_true]

theorem State.setFreeze_keeps (p : Nat) (b : Bool) (hs : Keeps s₀ s) :
    Keeps s₀ (s.setFreeze p b) := by
  unfold State.setFreeze
  simp (maxDischargeDepth := 64) +contextual only [*, Keeps.ite, State.updPage_keeps, State.updCond_keeps,
    State.pauseHook_keeps, implies_true]

theorem State.freezePoint_keeps (p : Nat) (hs : Keeps s₀ s) :
    Keeps s₀ (s.freezePoint p) := by
  unfold State.freezePoint
  simp (maxDischargeDepth := 64) +contextual only [*, Keeps.ite, State.updCond_keeps, State.pauseHook_keeps, implies_true]

theorem State.frmSoftReset_keeps (hs : Keeps s₀ s) :
    Keeps s₀ (s.frmSoftReset) := by
  unfold State.frmSoftReset
  simp (maxDischargeDepth := 64) +contextual only [*, Keeps.ite, Keeps.ite_snd, Keeps.foldl, Keeps.foldl_snd, State.updFrm_keeps, State.updRst_keeps,
    State.updSaf_keeps, State.updCond_keeps, State.testAbort_keeps, State.dropFrames_keeps, implies_true]

theorem State.dropDlMsg_keeps (m : DlMsg) (hs : Keeps s₀ s) :
    Keeps s₀ (s.dropDlMsg m) := by
  unfold State.dropDlMsg
  repeat' first
    | (simp (maxDischargeDepth := 64) +contextual only [*, State.drawFree_keeps, State.endDlJob_keeps, implies_true]; done)
    | split

theorem State.laneSoftReset_keeps (n : Nat) (hs : Keeps s₀ s) :
    Keeps s₀ (s.laneSoftReset n) := by
  unfold State.laneSoftReset
  simp (maxDischargeDepth := 64) +contextual only [*, Keeps.ite, Keeps.ite_snd, Keeps.foldl, State.updSlk_keeps,
    State.dropDlMsg_keeps, implies_true]

theorem State.scvSoftReset_keeps (hs : Keeps s₀ s) :
    Keeps s₀ (s.scvSoftReset) := by
  unfold State.scvSoftReset
  simp (maxDischargeDepth := 64) +contextual only [*, Keeps.ite, Keeps.ite_snd, Keeps.foldl, Keeps.foldl_snd, State.setFld_keeps, State.updScv_keeps,
    State.stopBev_keeps, State.stopAgents_keeps, State.freeSets_keeps, State.updRun_keeps, implies_true]

theorem State.tileSoftReset_keeps (n : Nat) (hs : Keeps s₀ s) :
    Keeps s₀ (s.tileSoftReset n) := by
  unfold State.tileSoftReset
  repeat' first
    | (simp (maxDischargeDepth := 64) +contextual only [*, Keeps.ite, Keeps.ite_snd, Keeps.foldl, Keeps.foldl_snd, State.updHrv_keeps, State.updTile_keeps,
        State.abandonOp_keeps, State.stopAgents_keeps, State.updRun_keeps, State.stageCode_keeps, implies_true]; done)
    | split

theorem State.memcSoftReset_keeps (n : Nat) (hs : Keeps s₀ s) :
    Keeps s₀ (s.memcSoftReset n) := by
  unfold State.memcSoftReset
  simp (maxDischargeDepth := 64) +contextual only [*, Keeps.ite, Keeps.ite_snd, Keeps.foldl, Keeps.foldl_snd, State.updMem_keeps, State.countFrom_keeps,
    State.undefineTables_keeps, implies_true]

theorem State.mbxSoftReset_keeps (hs : Keeps s₀ s) :
    Keeps s₀ (s.mbxSoftReset) := by
  unfold State.mbxSoftReset
  simp (maxDischargeDepth := 64) +contextual only [*, Keeps.ite_snd, Keeps.foldl, Keeps.foldl_snd, State.setCell_keeps,
    implies_true]

theorem State.abortInbound_keeps (n : Nat) (hs : Keeps s₀ s) :
    Keeps s₀ (s.abortInbound n) := by
  unfold State.abortInbound
  simp (maxDischargeDepth := 64) +contextual only [*, Keeps.ite, Keeps.ite_snd, Keeps.foldl, Keeps.foldl_snd, State.consume_keeps, State.respond_keeps,
    implies_true]

theorem State.blockReset_keeps (p : Nat) (hs : Keeps s₀ s) :
    Keeps s₀ (s.blockReset p) := by
  unfold State.blockReset
  simp (maxDischargeDepth := 64) +contextual only [*, Keeps.ite, Keeps.ite_snd, Keeps.foldl, Keeps.foldl_snd, State.sepSoftReset_keeps,
    State.etuSoftReset_keeps, State.hrvSoftReset_keeps, State.portOff_keeps, State.frmSoftReset_keeps,
    State.laneSoftReset_keeps, State.scvSoftReset_keeps, State.tileSoftReset_keeps,
    State.memcSoftReset_keeps, State.mbxSoftReset_keeps, State.abortInbound_keeps, implies_true]

theorem State.softReset_keeps (p : Nat) (hs : Keeps s₀ s) :
    Keeps s₀ (s.softReset p) := by
  unfold State.softReset
  simp (maxDischargeDepth := 64) +contextual only [*, Keeps.ite, Keeps.ite_snd, Keeps.foldl, Keeps.foldl_snd, State.resetPageRegs_keeps,
    State.setFld_keeps, State.updPage_keeps, State.sepFollow_keeps, State.updCond_keeps,
    State.release_keeps, State.poseStatus_keeps, State.ownAll_keeps, State.blockReset_keeps, implies_true]

theorem State.softResetDone_keeps (p : Nat) (hs : Keeps s₀ s) :
    Keeps s₀ (s.softResetDone p) := by
  unfold State.softResetDone
  simp (maxDischargeDepth := 64) +contextual only [*, Keeps.ite, State.updSaf_keeps, State.updPage_keeps,
    State.updCond_keeps, State.laneStart_keeps, State.sepFollow_keeps, State.portStart_keeps, State.softReset_keeps,
    implies_true]

theorem State.writeCtrl_keeps (p : Nat) (v : Word) (hs : Keeps s₀ s) :
    Keeps s₀ (s.writeCtrl p v) := by
  unfold State.writeCtrl
  simp (maxDischargeDepth := 64) +contextual only [*, Keeps.ite, State.setEnable_keeps, State.setFreeze_keeps,
    State.softReset_keeps, implies_true]

theorem State.writeMask_keeps (p : Nat) (v : Word) (hs : Keeps s₀ s) :
    Keeps s₀ (s.writeMask p v) := by
  unfold State.writeMask
  simp (maxDischargeDepth := 64) +contextual only [*, State.updPage_keeps, implies_true]

theorem State.clearEvents_keeps (p : Nat) (v : Word) (hs : Keeps s₀ s) :
    Keeps s₀ (s.clearEvents p v) := by
  unfold State.clearEvents
  simp (maxDischargeDepth := 64) +contextual only [*, Keeps.ite, Keeps.ite_snd, Keeps.foldl, Keeps.foldl_snd, State.updPage_keeps, implies_true]

theorem State.clearError_keeps (p : Nat) (v : Word) (hs : Keeps s₀ s) :
    Keeps s₀ (s.clearError p v) := by
  unfold State.clearError
  simp (maxDischargeDepth := 64) +contextual only [*, Keeps.ite, Keeps.ite_snd, Keeps.foldl, Keeps.foldl_snd, Keeps.record, Keeps.record_drop,
    Keeps.record_drop2, State.updCyc_keeps, State.updPage_keeps, implies_true]

theorem State.lockAcquire_keeps (p : Nat) (w : Nat) (hs : Keeps s₀ s) :
    Keeps s₀ (s.lockAcquire p w) := by
  unfold State.lockAcquire
  simp (maxDischargeDepth := 64) +contextual only [*, Keeps.ite, State.setPage_keeps, implies_true]

theorem State.lockRelease_keeps (p : Nat) (w : Nat) (hs : Keeps s₀ s) :
    Keeps s₀ (s.lockRelease p w) := by
  unfold State.lockRelease
  simp (maxDischargeDepth := 64) +contextual only [*, Keeps.ite, State.setPage_keeps, State.error_keeps, implies_true]

theorem State.lockRecovered_keeps (p : Nat) (w : Nat) (hs : Keeps s₀ s) :
    Keeps s₀ (s.lockRecovered p w) := by
  unfold State.lockRecovered
  simp (maxDischargeDepth := 64) +contextual only [*, Keeps.ite, Keeps.ite_snd, Keeps.foldl, Keeps.foldl_snd, State.setPage_keeps, State.sepFollow_keeps,
    State.laneStart_keeps, implies_true]

theorem State.lockBreak_keeps (p : Nat) (hs : Keeps s₀ s) :
    Keeps s₀ (s.lockBreak p) := by
  unfold State.lockBreak
  simp (maxDischargeDepth := 64) +contextual only [*, Keeps.ite, Keeps.ite_snd, Keeps.foldl, Keeps.foldl_snd, State.abandonOnce_keeps, implies_true]

theorem State.lockOp_keeps (p : Nat) (w : Nat) (op : Nat) (hs : Keeps s₀ s) :
    Keeps s₀ (s.lockOp p w op) := by
  unfold State.lockOp
  simp (maxDischargeDepth := 64) +contextual only [*, Keeps.ite, State.lockAcquire_keeps, State.lockRelease_keeps,
    State.lockRecovered_keeps, State.lockBreak_keeps, implies_true]

theorem State.clearCollided_keeps (p : Nat) (v : Word) (hs : Keeps s₀ s) :
    Keeps s₀ (s.clearCollided p v) := by
  unfold State.clearCollided
  simp (maxDischargeDepth := 64) +contextual only [*, Keeps.ite, Keeps.ite_snd, Keeps.foldl, Keeps.foldl_snd, State.setPage_keeps, implies_true]

end Sys2Proof.Machine
end

