-- ==== Sys2Proof/Laws/KeepsSafetyRows.lean ====
section
/-! SUPPORT. What the operations of Machine/SafetyRows.lean keep: the waiting commands and the canonical form (Laws/Keeps.lean). -/

namespace Sys2Proof.Machine

set_option linter.unusedSimpArgs false
set_option linter.unusedTactic false

variable {s₀ s : State}

theorem State.releaseRefused_keeps (hs : Keeps s₀ s) :
    Keeps s₀ (s.releaseRefused) := by
  unfold State.releaseRefused
  simp (maxDischargeDepth := 64) +contextual only [*, State.setFld_keeps, State.error_keeps, implies_true]

theorem State.safReq_keeps (w : Nat) (v : Word) (hs : Keeps s₀ s) :
    Keeps s₀ (s.safReq w v) := by
  unfold State.safReq
  simp (maxDischargeDepth := 64) +contextual only [*, Keeps.ite, State.setFld_keeps, State.error_keeps,
    State.latch_keeps, State.wrote_keeps, State.releaseRefused_keeps, implies_true]

theorem State.released_keeps (hs : Keeps s₀ s) :
    Keeps s₀ (s.released) := by
  unfold State.released
  simp (maxDischargeDepth := 64) +contextual only [*, Keeps.ite, State.updSaf_keeps, State.updPwr_keeps,
    State.setFld_keeps, State.leaveSafe_keeps, State.applyCore_keeps, implies_true]

theorem State.serveRelease_keeps (hs : Keeps s₀ s) :
    Keeps s₀ (s.serveRelease) := by
  unfold State.serveRelease
  simp (maxDischargeDepth := 64) +contextual only [*, Keeps.ite, State.releaseRefused_keeps, State.released_keeps,
    implies_true]

theorem State.frameWatchdog_keeps (hs : Keeps s₀ s) :
    Keeps s₀ (s.frameWatchdog) := by
  unfold State.frameWatchdog
  repeat' first
    | (simp (maxDischargeDepth := 64) +contextual only [*, Keeps.ite, State.updSaf_keeps, State.bump_keeps, State.error_keeps,
        State.latch_keeps, implies_true]; done)
    | split

theorem State.e2eDone_keeps (hs : Keeps s₀ s) :
    Keeps s₀ (s.e2eDone) := by
  unfold State.e2eDone
  repeat' first
    | (simp (maxDischargeDepth := 64) +contextual only [*, Keeps.ite, Keeps.ite_snd, State.updSaf_keeps, State.setCell_keeps,
        State.bump_keeps, State.error_keeps, State.takeInjection_keeps, State.latch_keeps, State.fetch_keeps,
        implies_true]; done)
    | split

theorem State.repair_keeps (p : Nat) (off : Nat) (hs : Keeps s₀ s) :
    Keeps s₀ (s.repair p off).2 := by
  unfold State.repair
  simp (maxDischargeDepth := 64) +contextual only [*, Keeps.ite, Keeps.ite_snd, State.setCell_keeps, State.updPage_keeps,
    implies_true]

theorem State.storeParity_keeps (q : Nat) (code : Nat) (hs : Keeps s₀ s) :
    Keeps s₀ (s.storeParity q code) := by
  unfold State.storeParity
  simp (maxDischargeDepth := 64) +contextual only [*, Keeps.ite, State.error_keeps, State.dropCompute_keeps, State.pageFault_keeps,
    implies_true]

theorem State.regParity_keeps (p : Nat) (off : Nat) (hs : Keeps s₀ s) :
    Keeps s₀ (s.regParity p off) := by
  unfold State.regParity
  repeat' first
    | (simp (maxDischargeDepth := 64) +contextual only [*, Keeps.ite, Keeps.ite_snd, Keeps.foldl, Keeps.foldl_snd, State.updSaf_keeps, State.error_keeps,
        State.pageFault_keeps, State.tileLogicFault_keeps, State.repair_keeps, State.storeParity_keeps,
        implies_true]; done)
    | split

theorem State.parityScan_keeps (p : Nat) (hs : Keeps s₀ s) :
    Keeps s₀ (s.parityScan p) := by
  unfold State.parityScan
  simp (maxDischargeDepth := 64) +contextual only [*, Keeps.ite, State.updSaf_keeps, State.updCond_keeps, implies_true]

theorem State.applyFault_keeps (t : Nat) (i : Nat) (d : Nat) (hs : Keeps s₀ s) :
    Keeps s₀ (s.applyFault t i d) := by
  unfold State.applyFault
  simp (maxDischargeDepth := 64) +contextual only [*, Keeps.ite, Keeps.ite_snd, State.updSaf_keeps, State.rstDead_keeps,
    State.clockFault_keeps, State.voltageFault_keeps, implies_true]

theorem State.injectionApply_keeps (hs : Keeps s₀ s) :
    Keeps s₀ (s.injectionApply) := by
  unfold State.injectionApply
  simp (maxDischargeDepth := 64) +contextual only [*, Keeps.ite, State.setFld_keeps, State.bump_keeps, State.error_keeps,
    State.latch_keeps, State.applyFault_keeps, implies_true]

theorem State.safSelfFault_keeps (hs : Keeps s₀ s) :
    Keeps s₀ (s.safSelfFault) := by
  unfold State.safSelfFault
  simp (maxDischargeDepth := 64) +contextual only [*, Keeps.ite, State.updSaf_keeps, State.drawFree_keeps,
    State.updCond_keeps, State.error_keeps, State.enterSafe_keeps, implies_true]

theorem execSafeStateRelease_keeps (dt : Nat) {s₁ : State}
    (e : execSafeStateRelease dt s = .next s₁) : Keeps s s₁ := by
  unfold execSafeStateRelease at e
  obtain rfl := Host.Outcome.next.inj e
  simp (maxDischargeDepth := 64) +contextual only [*, Keeps.refl, State.arrive_keeps, State.serveRelease_keeps,
    implies_true]

theorem execFrameWatchdog_keeps (dt : Nat) {s₁ : State}
    (e : execFrameWatchdog dt s = .next s₁) : Keeps s s₁ := by
  unfold execFrameWatchdog at e
  obtain rfl := Host.Outcome.next.inj e
  simp (maxDischargeDepth := 64) +contextual only [*, Keeps.refl, State.arrive_keeps, State.frameWatchdog_keeps,
    implies_true]

theorem execE2eCheckDone_keeps (dt : Nat) {s₁ : State}
    (e : execE2eCheckDone dt s = .next s₁) : Keeps s s₁ := by
  unfold execE2eCheckDone at e
  obtain rfl := Host.Outcome.next.inj e
  simp (maxDischargeDepth := 64) +contextual only [*, Keeps.refl, State.arrive_keeps, State.e2eDone_keeps, implies_true]

theorem execRegParityError_keeps (dt : Nat) (page : Nat) (off : Nat) {s₁ : State}
    (e : execRegParityError dt page off s = .next s₁) : Keeps s s₁ := by
  unfold execRegParityError at e
  obtain rfl := Host.Outcome.next.inj e
  simp (maxDischargeDepth := 64) +contextual only [*, Keeps.refl, State.arrive_keeps, State.regParity_keeps, implies_true]

theorem execParityScan_keeps (dt : Nat) (page : Nat) {s₁ : State}
    (e : execParityScan dt page s = .next s₁) : Keeps s s₁ := by
  unfold execParityScan at e
  obtain rfl := Host.Outcome.next.inj e
  simp (maxDischargeDepth := 64) +contextual only [*, Keeps.refl, State.arrive_keeps, State.parityScan_keeps,
    implies_true]

theorem execInjectionApply_keeps (dt : Nat) {s₁ : State}
    (e : execInjectionApply dt s = .next s₁) : Keeps s s₁ := by
  unfold execInjectionApply at e
  obtain rfl := Host.Outcome.next.inj e
  simp (maxDischargeDepth := 64) +contextual only [*, Keeps.refl, State.arrive_keeps, State.injectionApply_keeps,
    implies_true]

theorem execSafSelfFault_keeps (dt : Nat) {s₁ : State}
    (e : execSafSelfFault dt s = .next s₁) : Keeps s s₁ := by
  unfold execSafSelfFault at e
  obtain rfl := Host.Outcome.next.inj e
  simp (maxDischargeDepth := 64) +contextual only [*, Keeps.refl, State.arrive_keeps, State.safSelfFault_keeps,
    implies_true]

end Sys2Proof.Machine
end

