-- ==== Sys2Proof/Laws/KeepsStartup.lean ====
section
/-! SUPPORT. What the operations of Machine/Startup.lean keep: the waiting commands and the canonical form (Laws/Keeps.lean). -/

namespace Sys2Proof.Machine

set_option linter.unusedSimpArgs false
set_option linter.unusedTactic false

variable {s₀ s : State}

theorem State.blank_keeps (hs : Keeps s₀ s) :
    Keeps s₀ (s.blank) := by
  unfold State.blank
  refine ⟨hs.pending, fun hc => ?_⟩
  have := hs.canon hc
  rw [State.canon_iff] at this ⊢
  refine ⟨Sparse.wf_drop resetCell (fun k => !nvmReg k) this.1, ?_, rfl, Psv.canon_congr rfl this.2.2.2⟩
  show Sparse.wf hdrDefault State.resetHdr = true
  decide +kernel

theorem State.blankDevice_keeps (hs : Keeps s₀ s) :
    Keeps s₀ (s.blankDevice) := by
  unfold State.blankDevice
  have hb := State.blank_keeps hs
  refine ⟨hs.pending, fun hc => ?_⟩
  have := hs.canon hc
  have hd := hb.canon hc
  rw [State.canon_iff] at this hd ⊢
  exact ⟨Sparse.wf_drop resetCell (fun k => !deviceKeeps k) this.1, hd.2.1,
    MemState.canon_congr rfl rfl rfl rfl rfl rfl rfl this.2.2.1, hd.2.2.2⟩

theorem State.readFuses_keeps (ok : Bool) (hs : Keeps s₀ s) :
    Keeps s₀ (s.readFuses ok) := by
  unfold State.readFuses
  simp (maxDischargeDepth := 64) +contextual only [*, Keeps.ite, Keeps.record, State.setFld_keeps, State.updCond_keeps,
    State.error_keeps, State.latchRst_keeps, implies_true]

theorem State.bootStep_keeps (flash : Bool) (rom : Bool) (digA : List Nat) (digB : List Nat) (hs : Keeps s₀ s) :
    Keeps s₀ (s.bootStep flash rom digA digB) := by
  unfold State.bootStep
  simp (maxDischargeDepth := 64) +contextual only [*, Keeps.ite, State.setFld_keeps, State.bootRom_keeps, implies_true]

theorem State.mount_keeps (d : Dram) (hs : Keeps s₀ s) :
    Keeps s₀ (s.mount d) := by
  unfold State.mount
  simp (maxDischargeDepth := 64) +contextual only [*, Keeps.ite, Keeps.ite_snd, Keeps.foldl, Keeps.foldl_snd, State.updMem_keeps, implies_true]

theorem State.powerOnReset_keeps (cause : Nat) (fuseOk : Bool) (form : Nat) (flash : Bool) (rom : Bool) (digA : List Nat) (digB : List Nat) (dram : Dram) (hs : Keeps s₀ s) :
    Keeps s₀ (s.powerOnReset cause fuseOk form flash rom digA digB dram) := by
  unfold State.powerOnReset
  simp (maxDischargeDepth := 64) +contextual only [*, Keeps.ite, Keeps.ite_snd, Keeps.foldl, Keeps.foldl_snd, State.setFld_keeps, State.updPsv_keeps,
    State.takePins_keeps, State.restore_keeps, State.powerLoss_keeps, State.blank_keeps,
    State.readFuses_keeps, State.bootStep_keeps, State.mount_keeps, implies_true]

theorem State.keepStore_keeps (hs : Keeps s₀ s) :
    Keeps s₀ (s.keepStore) := by
  unfold State.keepStore
  simp (maxDischargeDepth := 64) +contextual only [*, Keeps.foldl, State.setFld_keeps, State.updPage_keeps,
    State.refreshWear_keeps, State.loadLife_keeps, State.restoreCauses_keeps, implies_true]

theorem State.keepSelfFault_keeps (old : State) (hs : Keeps s₀ s) :
    Keeps s₀ (s.keepSelfFault old) := by
  unfold State.keepSelfFault
  exact Keeps.ite (State.updCond_keeps _ _ (State.updSaf_keeps _ hs)) hs

theorem State.deviceReset_keeps (fuseOk : Bool) (flash : Bool) (rom : Bool) (digA : List Nat) (digB : List Nat) (hs : Keeps s₀ s) :
    Keeps s₀ (s.deviceReset fuseOk flash rom digA digB) := by
  unfold State.deviceReset
  simp (maxDischargeDepth := 64) +contextual only [*, Keeps.ite, State.setFld_keeps, State.takePins_keeps,
    State.blankDevice_keeps, State.keepSelfFault_keeps, State.readFuses_keeps, State.bootStep_keeps, State.keepStore_keeps, implies_true]

theorem State.resetAccept_keeps (hs : Keeps s₀ s) :
    Keeps s₀ (s.resetAccept) := by
  unfold State.resetAccept
  simp (maxDischargeDepth := 64) +contextual only [*, State.updRst_keeps, State.updBoot_keeps, State.setQueue_keeps,
    implies_true]

theorem State.writeResetCtl_keeps (w : Nat) (v : Word) (hs : Keeps s₀ s) :
    Keeps s₀ (s.writeResetCtl w v) := by
  unfold State.writeResetCtl
  split
  · next e => exact State.portCheck_keeps _ _ _ hs e
  · exact Keeps.ite (State.badAccess_keeps _ _ _ hs) (Keeps.ite (State.wrote_keeps _ _ hs)
      (Keeps.ite (State.error_keeps _ _ _ hs) (State.resetAccept_keeps (State.wrote_keeps _ _ hs))))

theorem State.startupTest_keeps (failed : List Nat) (n : Nat) (hs : Keeps s₀ s) :
    Keeps s₀ (s.startupTest failed n) := by
  unfold State.startupTest
  simp (maxDischargeDepth := 64) +contextual only [*, Keeps.ite, State.setFld_keeps, State.updTile_keeps,
    State.testResult_keeps, implies_true]

theorem State.tilesTested_keeps (failed : List Nat) (hs : Keeps s₀ s) :
    Keeps s₀ (s.tilesTested failed) := by
  unfold State.tilesTested
  refine Keeps.ite (State.setFld_keeps _ _ (Keeps.foldl (fun x a hx => State.startupTest_keeps _ _ hx) _ ?_)) hs
  refine State.updMem_canon _ (fun m hc => ?_) hs
  rw [MemState.canon_iff] at hc ⊢
  exact ⟨hc.1, hc.2.1, rfl, rfl, hc.2.2.2.2⟩

theorem State.initMemory_keeps (hs : Keeps s₀ s) :
    Keeps s₀ (s.initMemory) := by
  unfold State.initMemory
  refine Keeps.ite (State.updMem_canon _ (fun m hc => ?_) hs) (State.poke_keeps _ _ _ (State.poke_keeps _ _ _ hs))
  rw [MemState.canon_iff] at hc ⊢
  exact ⟨rfl, rfl, hc.2.2.1, hc.2.2.2.1, rfl, rfl⟩

theorem State.memReady_keeps (failed : List Nat) (rates : List Nat) (hs : Keeps s₀ s) :
    Keeps s₀ (s.memReady failed rates) := by
  unfold State.memReady
  simp (maxDischargeDepth := 64) +contextual only [*, Keeps.ite, Keeps.ite_snd, Keeps.foldl, Keeps.foldl_snd, State.setFld_keeps, State.updMem_keeps,
    State.trained_keeps, State.initMemory_keeps, implies_true]

theorem State.checksPass_keeps (hs : Keeps s₀ s) :
    Keeps s₀ (s.checksPass) := by
  unfold State.checksPass
  simp (maxDischargeDepth := 64) +contextual only [*, Keeps.ite, Keeps.ite_snd, Keeps.foldl, Keeps.foldl_snd, State.setFld_keeps, State.updSaf_keeps,
    State.updPage_keeps, State.coreFreqChange_keeps, State.serveRelease_keeps, implies_true]

theorem State.startupChecks_keeps (hs : Keeps s₀ s) :
    Keeps s₀ (s.startupChecks) := by
  unfold State.startupChecks
  simp (maxDischargeDepth := 64) +contextual only [*, Keeps.ite, State.setFld_keeps, State.checksPass_keeps, implies_true]

theorem State.clockInWindow_keeps (hs : Keeps s₀ s) :
    Keeps s₀ (s.clockInWindow) := by
  unfold State.clockInWindow
  simp (maxDischargeDepth := 64) +contextual only [*, State.updSaf_keeps, State.setFld_keeps, implies_true]

theorem State.railsInWindow_keeps (hs : Keeps s₀ s) :
    Keeps s₀ (s.railsInWindow) := by
  unfold State.railsInWindow
  simp (maxDischargeDepth := 64) +contextual only [*, State.updSaf_keeps, State.updRst_keeps, implies_true]

theorem State.holdPins_keeps (hs : Keeps s₀ s) :
    Keeps s₀ (s.holdPins) := by
  unfold State.holdPins
  simp (maxDischargeDepth := 64) +contextual only [*, Keeps.ite_snd, Keeps.record, implies_true]

theorem State.takeGpioFunc_keeps (off : Nat) (v : Word) (hs : Keeps s₀ s) :
    Keeps s₀ (s.takeGpioFunc off v) := by
  unfold State.takeGpioFunc
  repeat' first
    | (simp (maxDischargeDepth := 64) +contextual only [*, Keeps.ite, Keeps.ite_snd, State.setCell_keeps, State.error_keeps,
        State.takePins_keeps, State.holdPins_keeps, implies_true]; done)
    | split

theorem State.writeGpioFunc_keeps (w : Nat) (off : Nat) (v : Word) (hs : Keeps s₀ s) :
    Keeps s₀ (s.writeGpioFunc w off v) := by
  unfold State.writeGpioFunc
  simp (maxDischargeDepth := 64) +contextual only [*, Keeps.ite, State.wrote_keeps, State.onRwl_keeps,
    State.takeGpioFunc_keeps, implies_true]

theorem State.vfEnableWrite_keeps (enable : Bool) (n : Nat) (hs : Keeps s₀ s) :
    Keeps s₀ (s.vfEnableWrite enable n) := by
  unfold State.vfEnableWrite
  simp (maxDischargeDepth := 64) +contextual only [*, Keeps.ite, State.updHif_keeps, State.abandonLocks_keeps,
    State.hostTlp_keeps, implies_true]

theorem State.bar4Write_keeps (off : Nat) (bytes : List Byte) (hs : Keeps s₀ s) :
    Keeps s₀ (s.bar4Write off bytes) := by
  unfold State.bar4Write
  repeat' first
    | (simp (maxDischargeDepth := 64) +contextual only [*, Keeps.ite, Keeps.ite_snd, Keeps.foldl, Keeps.foldl_snd, State.bump_keeps, State.hostTlp_keeps,
        State.write_keeps, implies_true]; done)
    | split

theorem execPowerOnReset_keeps (dt : Nat) (cause : Nat) (fuseOk : Bool) (form : Nat) (flash : Bool) (rom : Bool) (digA : List Nat) (digB : List Nat) (dram : Dram) {s₁ : State}
    (e : execPowerOnReset dt cause fuseOk form flash rom digA digB dram s = .next s₁) : Keeps s s₁ := by
  unfold execPowerOnReset at e
  obtain rfl := Host.Outcome.next.inj e
  simp (maxDischargeDepth := 64) +contextual only [*, Keeps.refl, Keeps.ite, Keeps.ite_snd, Keeps.foldl, Keeps.foldl_snd, State.arrive_keeps,
    State.powerOnReset_keeps, implies_true]

theorem execDeviceReset_keeps (dt : Nat) (fuseOk : Bool) (flash : Bool) (rom : Bool) (digA : List Nat) (digB : List Nat) {s₁ : State}
    (e : execDeviceReset dt fuseOk flash rom digA digB s = .next s₁) : Keeps s s₁ := by
  unfold execDeviceReset at e
  obtain rfl := Host.Outcome.next.inj e
  simp (maxDischargeDepth := 64) +contextual only [*, Keeps.refl, State.arrive_keeps, State.deviceReset_keeps,
    implies_true]

theorem execStartupTileTestDone_keeps (dt : Nat) (failed : List Nat) {s₁ : State}
    (e : execStartupTileTestDone dt failed s = .next s₁) : Keeps s s₁ := by
  unfold execStartupTileTestDone at e
  obtain rfl := Host.Outcome.next.inj e
  simp (maxDischargeDepth := 64) +contextual only [*, Keeps.refl, State.arrive_keeps, State.tilesTested_keeps,
    implies_true]

theorem execDramTrainingDone_keeps (dt : Nat) (failed : List Nat) (rates : List Nat) {s₁ : State}
    (e : execDramTrainingDone dt failed rates s = .next s₁) : Keeps s s₁ := by
  unfold execDramTrainingDone at e
  obtain rfl := Host.Outcome.next.inj e
  simp (maxDischargeDepth := 64) +contextual only [*, Keeps.refl, Keeps.ite, Keeps.ite_snd, Keeps.foldl, Keeps.foldl_snd, State.arrive_keeps,
    State.memReady_keeps, implies_true]

theorem execStartupChecks_keeps (dt : Nat) {s₁ : State}
    (e : execStartupChecks dt s = .next s₁) : Keeps s s₁ := by
  unfold execStartupChecks at e
  obtain rfl := Host.Outcome.next.inj e
  simp (maxDischargeDepth := 64) +contextual only [*, Keeps.refl, State.arrive_keeps, State.startupChecks_keeps,
    implies_true]

theorem execDeviceResetRequest_keeps (dt : Nat) (w : Nat) (key : Nat) (device : Nat) {s₁ : State}
    (e : execDeviceResetRequest dt w key device s = .next s₁) : Keeps s s₁ := by
  unfold execDeviceResetRequest at e
  obtain rfl := Host.Outcome.next.inj e
  simp (maxDischargeDepth := 64) +contextual only [*, Keeps.refl, State.arriveBy_keeps, State.writeResetCtl_keeps,
    State.arrive_keeps, implies_true]

theorem execGpioFuncWrite_keeps (dt : Nat) (w : Nat) (high : Bool) (v : Word) {s₁ : State}
    (e : execGpioFuncWrite dt w high v s = .next s₁) : Keeps s s₁ := by
  unfold execGpioFuncWrite at e
  obtain rfl := Host.Outcome.next.inj e
  simp (maxDischargeDepth := 64) +contextual only [*, Keeps.refl, Keeps.ite, State.arriveBy_keeps,
    State.writeGpioFunc_keeps, State.arrive_keeps, implies_true]

theorem execClockInWindow_keeps (dt : Nat) {s₁ : State}
    (e : execClockInWindow dt s = .next s₁) : Keeps s s₁ := by
  unfold execClockInWindow at e
  obtain rfl := Host.Outcome.next.inj e
  simp (maxDischargeDepth := 64) +contextual only [*, Keeps.refl, State.arrive_keeps, State.clockInWindow_keeps,
    implies_true]

theorem execRailsInWindow_keeps (dt : Nat) {s₁ : State}
    (e : execRailsInWindow dt s = .next s₁) : Keeps s s₁ := by
  unfold execRailsInWindow at e
  obtain rfl := Host.Outcome.next.inj e
  simp (maxDischargeDepth := 64) +contextual only [*, Keeps.refl, State.arrive_keeps, State.railsInWindow_keeps,
    implies_true]

theorem execVfEnableWrite_keeps (dt : Nat) (enable : Bool) (n : Nat) {s₁ : State}
    (e : execVfEnableWrite dt enable n s = .next s₁) : Keeps s s₁ := by
  unfold execVfEnableWrite at e
  obtain rfl := Host.Outcome.next.inj e
  simp (maxDischargeDepth := 64) +contextual only [*, Keeps.refl, State.arrive_keeps, State.vfEnableWrite_keeps,
    implies_true]

theorem execBar4Write_keeps (dt : Nat) (offset : Nat) (bytes : List Byte) {s₁ : State}
    (e : execBar4Write dt offset bytes s = .next s₁) : Keeps s s₁ := by
  unfold execBar4Write at e
  obtain rfl := Host.Outcome.next.inj e
  simp (maxDischargeDepth := 64) +contextual only [*, Keeps.refl, State.arrive_keeps, State.bar4Write_keeps, implies_true]

end Sys2Proof.Machine
end

