-- ==== Sys2Proof/Laws/KeepsPort.lean ====
section
/-! SUPPORT. What the operations of Machine/Port.lean keep: the waiting commands and the canonical form (Laws/Keeps.lean). -/

namespace Sys2Proof.Machine

set_option linter.unusedSimpArgs false
set_option linter.unusedTactic false

variable {s₀ s : State}

theorem State.takeValue_keeps (p : Nat) (off : Nat) (v : Word) (locked : Bool) (hs : Keeps s₀ s) :
    Keeps s₀ (s.takeValue p off v locked) := by
  unfold State.takeValue
  simp (maxDischargeDepth := 64) +contextual only [*, Keeps.ite, Keeps.ite_snd, Keeps.foldl, Keeps.foldl_snd, State.setCell_keeps, State.countFrom_keeps,
    implies_true]

theorem State.ctrlRule_keeps (p w : Nat) (v : Word) {t : State} (hs : Keeps s₀ s) (e : s.ctrlRule p w v = some t) : Keeps s₀ t := by
  unfold State.ctrlRule at e
  dsimp only at e
  split at e
  · cases e
  split at e
  · obtain rfl := Option.some.inj e; exact State.error_keeps _ _ _ hs
  split at e
  · obtain rfl := Option.some.inj e; exact State.error_keeps _ _ _ hs
  · cases e

theorem State.headerWrite_keeps (p : Nat) (off : Nat) (w : Nat) (v : Word) (hs : Keeps s₀ s) :
    Keeps s₀ (s.headerWrite p off w v) := by
  unfold State.headerWrite
  refine State.onWrite_keeps _ _ _ _ _ (fun x hx => ?_) hs
  refine Keeps.ite ?_ (Keeps.ite ?_ (Keeps.ite ?_ (Keeps.ite ?_ (Keeps.ite (Keeps.ite ?_ ?_) (Keeps.ite ?_ (Keeps.ite hx ?_))))))
  · split
    · next e => exact State.ctrlRule_keeps _ _ _ hx e
    · exact State.wrote_keeps _ _ (State.writeCtrl_keeps _ _ hx)
  · exact State.wrote_keeps _ _ (State.writeMask_keeps _ _ hx)
  · exact State.wrote_keeps _ _ (State.clearEvents_keeps _ _ hx)
  · exact State.wrote_keeps _ _ (State.clearError_keeps _ _ hx)
  · exact State.undefinedEncoding_keeps _ _ _ hx
  · exact State.wrote_keeps _ _ (State.lockOp_keeps _ _ _ hx)
  · exact State.clearCollided_keeps _ _ hx
  · exact State.wrote_keeps _ _ hx

theorem State.plainWrite_keeps (p : Nat) (off : Nat) (w : Nat) (v : Word) (hs : Keeps s₀ s) :
    Keeps s₀ (s.plainWrite p off w v) := by
  unfold State.plainWrite
  split
  · next e => exact State.portCheck_keeps _ _ _ hs e
  · refine Keeps.ite hs ?_
    split
    · exact State.undefinedEncoding_keeps _ _ _ hs
    · dsimp only
      have hl : Keeps s₀ (if s.lockedOut p off w then s.error p Err.lockNotHeld (infoOffWriter off w) else s) :=
        Keeps.ite (State.error_keeps _ _ _ hs) hs
      exact Keeps.ite hl (State.wrote_keeps _ _ (State.takeValue_keeps _ _ _ _ hl))

theorem State.persistAdmit_keeps (p : Nat) (off : Nat) (w : Nat) (v : Word) (hs : Keeps s₀ s) :
    Keeps s₀ (s.persistAdmit p off w v).2 := by
  unfold State.persistAdmit
  split
  · next e => exact State.portCheck_keeps _ _ _ hs e
  · refine Keeps.ite_snd (State.error_keeps _ _ _ hs) ?_
    split
    · exact State.undefinedEncoding_keeps _ _ _ hs
    · exact Keeps.ite_snd (State.error_keeps _ _ _ hs) hs

theorem State.persistWrite_keeps (p : Nat) (off : Nat) (w : Nat) (v : Word) (hs : Keeps s₀ s) :
    Keeps s₀ (s.persistWrite p off w v) := by
  unfold State.persistWrite
  have h := State.persistAdmit_keeps p off w v hs
  exact Keeps.ite (Keeps.ite (State.persistWord_keeps _ _ _ _ _ h) (State.persistWord_keeps _ _ _ _ _ h)) h

theorem State.writeGpioOe_keeps (w : Nat) (v : Word) (hs : Keeps s₀ s) :
    Keeps s₀ (s.writeGpioOe w v) := by
  unfold State.writeGpioOe
  simp (maxDischargeDepth := 64) +contextual only [*, State.setFld_keeps, State.wrote_keeps, State.onWrite_keeps,
    State.holdPins_keeps, implies_true]

theorem State.writeServoCfg_keeps (n : Nat) (w : Nat) (v : Word) (hs : Keeps s₀ s) :
    Keeps s₀ (s.writeServoCfg n w v) := by
  unfold State.writeServoCfg
  have h := State.plainWrite_keeps (dlPage n) 0x40 w v hs
  exact Keeps.ite h (State.servoRefresh_keeps h)

theorem State.writeSafReq_keeps (w : Nat) (v : Word) (hs : Keeps s₀ s) :
    Keeps s₀ (s.writeSafReq w v) := by
  unfold State.writeSafReq
  simp (maxDischargeDepth := 64) +contextual only [*, Keeps.ite, State.onWrite_keeps, State.safReq_keeps, implies_true]

theorem State.writeInjCtl_keeps (w : Nat) (v : Word) (hs : Keeps s₀ s) :
    Keeps s₀ (s.writeInjCtl w v) := by
  unfold State.writeInjCtl
  simp (maxDischargeDepth := 64) +contextual only [*, Keeps.ite, State.error_keeps, State.wrote_keeps,
    State.onWrite_keeps, State.takeValue_keeps, implies_true]

theorem State.writeWearSel_keeps (w : Nat) (v : Word) (hs : Keeps s₀ s) :
    Keeps s₀ (s.writeWearSel w v) := by
  unfold State.writeWearSel
  simp (maxDischargeDepth := 64) +contextual only [*, State.onWrite_keeps, State.wearSelWrite_keeps, implies_true]

theorem State.writeDbgCfg_keeps (w : Nat) (v : Word) (hs : Keeps s₀ s) :
    Keeps s₀ (s.writeDbgCfg w v) := by
  unfold State.writeDbgCfg
  simp (maxDischargeDepth := 64) +contextual only [*, State.onRws_keeps, State.dbgCfgWrite_keeps, implies_true]

theorem State.frameSideWrite_keeps (p : Nat) (off : Nat) (w : Nat) (v : Word) (hs : Keeps s₀ s) :
    Keeps s₀ (s.frameSideWrite p off w v) := by
  unfold State.frameSideWrite
  refine Keeps.ite (State.writeFrmCtl_keeps _ _ hs) ?_
  refine Keeps.ite (State.writePlanCtl_keeps _ _ hs) ?_
  refine Keeps.ite (State.writeTestReq_keeps _ _ hs) ?_
  refine Keeps.ite (State.writePoseCmd_keeps _ _ hs) ?_
  refine Keeps.ite ?_ ?_
  · refine Keeps.ite (State.writeLaneCfg_keeps _ _ _ hs) ?_
    refine Keeps.ite (State.writeLaneCmd_keeps _ _ _ hs) ?_
    refine Keeps.ite (State.writeVgaSet_keeps _ _ _ hs) ?_
    refine Keeps.ite (State.writeCtfSet_keeps _ _ _ hs) ?_
    refine Keeps.ite (State.writeServoCfg_keeps _ _ _ hs) ?_
    refine Keeps.ite (State.noteWait_keeps _ (State.plainWrite_keeps _ _ _ _ hs)) ?_
    refine Keeps.ite (State.dlSend_keeps _ _ _ hs) ?_
    exact State.plainWrite_keeps _ _ _ _ hs
  · refine Keeps.ite (State.writeTilePwr_keeps _ _ _ hs) ?_
    refine Keeps.ite (State.writeShardCfg_keeps _ _ _ hs) ?_
    exact State.plainWrite_keeps _ _ _ _ hs

theorem State.fabricSideWrite_keeps (p : Nat) (off : Nat) (w : Nat) (v : Word) (hs : Keeps s₀ s) :
    Keeps s₀ (s.fabricSideWrite p off w v) := by
  unfold State.fabricSideWrite
  refine Keeps.ite (State.writeEtuCfg_keeps _ _ hs) ?_
  refine Keeps.ite (State.writeEtuCmd_keeps _ _ _ hs) ?_
  refine Keeps.ite (State.writeNodeCfg_keeps _ _ hs) ?_
  refine Keeps.ite (State.writeLostCtl_keeps _ _ hs) ?_
  refine Keeps.ite (State.writeBarCtl_keeps _ _ hs) ?_
  refine Keeps.ite (State.writeBarCfg_keeps _ _ _ hs) ?_
  refine Keeps.ite (State.writeFuncCtx_keeps _ _ _ hs) ?_
  refine Keeps.ite (State.onWrite_keeps _ _ _ _ _ (fun x hx => State.wrote_keeps _ _ (State.msixWord_keeps _ _ hx)) hs) ?_
  refine Keeps.ite (State.writeMbxCfg_keeps _ _ _ hs) ?_
  refine Keeps.ite (State.writeSendCmd_keeps _ _ _ hs) ?_
  refine Keeps.ite (State.writeStage_keeps _ _ _ _ hs) ?_
  refine Keeps.ite (State.writeStage_keeps _ _ _ _ hs) ?_
  refine Keeps.ite (State.writePrivPolicy_keeps _ _ _ hs) ?_
  refine Keeps.ite (State.writeMbTake_keeps _ _ _ hs) ?_
  refine Keeps.ite (State.writeDb_keeps _ _ _ _ hs) ?_
  exact State.plainWrite_keeps _ _ _ _ hs

theorem State.aonSideWrite_keeps (p : Nat) (off : Nat) (w : Nat) (v : Word) (hs : Keeps s₀ s) :
    Keeps s₀ (s.aonSideWrite p off w v) := by
  unfold State.aonSideWrite
  refine Keeps.ite (State.writeResetCtl_keeps _ _ hs) ?_
  refine Keeps.ite (State.writeGpioFunc_keeps _ _ _ hs) ?_
  refine Keeps.ite (State.writeGpioOe_keeps _ _ hs) ?_
  refine Keeps.ite (State.writeOverride_keeps _ _ hs) ?_
  refine Keeps.ite (State.writeResetReq_keeps _ _ hs) ?_
  refine Keeps.ite (State.updCmd_keeps _ _ _ hs) ?_
  refine Keeps.ite (State.writeLogCmd_keeps _ _ hs) ?_
  refine Keeps.ite (State.writeDbgCfg_keeps _ _ hs) ?_
  refine Keeps.ite (State.writePwrReq_keeps _ _ hs) ?_
  refine Keeps.ite (State.writeWakeCause_keeps _ _ hs) ?_
  refine Keeps.ite (State.coreFreqChange_keeps (State.plainWrite_keeps _ _ _ _ hs)) ?_
  refine Keeps.ite (State.writeSafReq_keeps _ _ hs) ?_
  refine Keeps.ite (State.writeInjCtl_keeps _ _ hs) ?_
  refine Keeps.ite (State.refreshWear_keeps (State.plainWrite_keeps _ _ _ _ hs)) ?_
  refine Keeps.ite (State.writeWearSel_keeps _ _ hs) ?_
  refine Keeps.ite (State.persistWrite_keeps _ _ _ _ hs) ?_
  exact State.plainWrite_keeps _ _ _ _ hs

theorem State.regWrite_keeps (p : Nat) (off : Nat) (w : Nat) (v : Word) (hs : Keeps s₀ s) :
    Keeps s₀ (s.regWrite p off w v) := by
  unfold State.regWrite
  simp (maxDischargeDepth := 64) +contextual only [*, Keeps.ite, State.headerWrite_keeps, State.frameSideWrite_keeps,
    State.fabricSideWrite_keeps, State.aonSideWrite_keeps, implies_true]

theorem State.arbitrate_keeps (p off : Nat) (ws : List RegWrite) (hs : Keeps s₀ s) : Keeps s₀ (s.arbitrate p off ws).1 := by
  unfold State.arbitrate
  exact Keeps.foldl (fun x a hx => State.regWrite_keeps _ _ _ _ hx) _ hs

theorem State.noteStripped_keeps (p : Nat) (off : Nat) (ws : List RegWrite) (hs : Keeps s₀ s) :
    Keeps s₀ (s.noteStripped p off ws) := by
  unfold State.noteStripped
  exact Keeps.foldl (fun x a hx => State.error_keeps _ _ _ hx) _ hs

theorem State.oneCycle_keeps (p : Nat) (off : Nat) (ws : List RegWrite) (hs : Keeps s₀ s) :
    Keeps s₀ (s.oneCycle p off ws) := by
  unfold State.oneCycle
  have h := State.arbitrate_keeps p off ws hs
  dsimp only
  split
  · exact h
  · exact State.recordLosers_keeps _ _ _ _ (State.regWrite_keeps _ _ _ _ (State.noteStripped_keeps _ _ _ h))

theorem State.writeBatches_keeps (p off n : Nat) (ws : List RegWrite) (hs : Keeps s₀ s) :
    Keeps s₀ (State.writeBatches p off n ws s) := by
  induction n generalizing s ws with
  | zero => exact hs
  | succ n ih => exact ih _ (State.oneCycle_keeps _ _ _ hs)

theorem State.writeRegs_keeps (p : Nat) (off : Nat) (ws : List RegWrite) (hs : Keeps s₀ s) :
    Keeps s₀ (s.writeRegs p off ws) := by
  unfold State.writeRegs
  simp (maxDischargeDepth := 64) +contextual only [*, State.writeBatches_keeps, implies_true]

theorem State.noteTlp_keeps (ws : List RegWrite) (hs : Keeps s₀ s) :
    Keeps s₀ (s.noteTlp ws) := by
  unfold State.noteTlp
  simp (maxDischargeDepth := 64) +contextual only [*, Keeps.ite, State.hostTlp_keeps, implies_true]

theorem State.persistRace_keeps (p off : Nat) (ws : List RegWrite) (hs : Keeps s₀ s) : Keeps s₀ (s.persistRace p off ws).1 := by
  unfold State.persistRace
  exact Keeps.foldl (fun x a hx => State.regWrite_keeps _ _ _ _ hx) _ hs

theorem State.persistPair_keeps (p : Nat) (k : Nat) (lo : List RegWrite) (hi : List RegWrite) (hs : Keeps s₀ s) :
    Keeps s₀ (s.persistPair p k lo hi) := by
  unfold State.persistPair
  have ha := State.persistRace_keeps p (0x40 + 8 * k) (splitCycle [] lo).1 hs
  have hb := State.persistRace_keeps p (0x40 + 8 * k + 4) (splitCycle [] hi).1 ha
  dsimp only
  repeat' first
    | exact hb
    | exact State.persistWord_keeps _ _ _ _ _ hb
    | refine State.recordLosers_keeps _ _ _ _ ?_
    | split

end Sys2Proof.Machine
end

