-- ==== Sys2Proof/Laws/KeepsRegisterWrite.lean ====
section
/-! SUPPORT. What the operations of Machine/RegisterWrite.lean keep: the waiting commands and the canonical form (Laws/Keeps.lean). -/

namespace Sys2Proof.Machine

set_option linter.unusedSimpArgs false
set_option linter.unusedTactic false

variable {s₀ s : State}

theorem State.badWrites_keeps (addr : Nat) (ws : List RegWrite) (hs : Keeps s₀ s) :
    Keeps s₀ (s.badWrites addr ws) := by
  unfold State.badWrites
  simp (maxDischargeDepth := 64) +contextual only [*, Keeps.foldl, State.badAccess_keeps, implies_true]

theorem State.registerWrite_keeps (addr : Nat) (size : Nat) (ws : List RegWrite) (hs₁ : List RegWrite) (hs : Keeps s₀ s) :
    Keeps s₀ (s.registerWrite addr size ws hs₁) := by
  unfold State.registerWrite
  simp (maxDischargeDepth := 64) +contextual only [*, Keeps.ite, State.writeRegs_keeps, State.noteTlp_keeps,
    State.badWrites_keeps, implies_true]

theorem State.singleWrite_keeps (p : Nat) (off : Nat) (w : Nat) (v : Word) (hs : Keeps s₀ s) :
    Keeps s₀ (s.singleWrite p off w v) := by
  unfold State.singleWrite
  simp (maxDischargeDepth := 64) +contextual only [*, State.regWrite_keeps, State.noteTlp_keeps, implies_true]

theorem State.counterWrite_keeps (p : Nat) (off : Nat) (w : Nat) (v : Word) (hs : Keeps s₀ s) :
    Keeps s₀ (s.counterWrite p off w v) := by
  unfold State.counterWrite
  simp (maxDischargeDepth := 64) +contextual only [*, Keeps.ite, State.singleWrite_keeps, implies_true]

theorem State.pageEnable_keeps (p : Nat) (w : Nat) (on : Bool) (hs : Keeps s₀ s) :
    Keeps s₀ (s.pageEnable p w on) := by
  unfold State.pageEnable
  simp (maxDischargeDepth := 64) +contextual only [*, State.singleWrite_keeps, implies_true]

theorem State.pageReset_keeps (p : Nat) (w : Nat) (hs : Keeps s₀ s) :
    Keeps s₀ (s.pageReset p w) := by
  unfold State.pageReset
  simp (maxDischargeDepth := 64) +contextual only [*, State.singleWrite_keeps, implies_true]

theorem State.pageFreeze_keeps (p : Nat) (w : Nat) (on : Bool) (hs : Keeps s₀ s) :
    Keeps s₀ (s.pageFreeze p w on) := by
  unfold State.pageFreeze
  simp (maxDischargeDepth := 64) +contextual only [*, State.singleWrite_keeps, implies_true]

theorem State.afterGrant_keeps (p : Nat) (hs : Keeps s₀ s) :
    Keeps s₀ (s.afterGrant p) := by
  unfold State.afterGrant
  simp (maxDischargeDepth := 64) +contextual only [*, Keeps.ite, State.zoneLoad_keeps, State.portTrain_keeps,
    implies_true]

theorem State.resourceGrant_keeps (hs : Keeps s₀ s) :
    Keeps s₀ (s.resourceGrant) := by
  unfold State.resourceGrant
  repeat' first
    | (simp (maxDischargeDepth := 64) +contextual only [*, State.grantOne_keeps, State.afterGrant_keeps, implies_true]; done)
    | split

theorem State.jobWrite_keeps (p : Nat) (off : Nat) (w : Nat) (v : Word) (hs : Keeps s₀ s) :
    Keeps s₀ (s.jobWrite p off w v).2 := by
  unfold State.jobWrite
  have h0 : Keeps s₀ { s with logQueue := [] } := hs.parts rfl rfl rfl id id
  have h1 := State.regWrite_keeps p off w v h0
  exact Keeps.foldl (fun x a hx => State.logged_keeps _ hx) _ (h1.parts rfl rfl rfl id id)

theorem State.jobRegWrite_keeps (ctx : Nat) (ring : Nat) (hs : Keeps s₀ s) :
    Keeps s₀ (s.jobRegWrite ctx ring) := by
  unfold State.jobRegWrite
  simp (maxDischargeDepth := 64) +contextual only [*, Keeps.ite, Keeps.ite_snd, State.setJob_keeps, State.jobDone_keeps,
    State.ring_keeps, State.onJob_keeps, State.jobWrite_keeps, implies_true]

theorem State.portRead_keeps (addr : Nat) (size : Nat) (hs : Keeps s₀ s) :
    Keeps s₀ (s.portRead addr size).2 := by
  unfold State.portRead
  simp (maxDischargeDepth := 64) +contextual only [*, Keeps.ite, Keeps.ite_snd, Keeps.foldl, Keeps.foldl_snd, State.badAccess_keeps, implies_true]

theorem State.jobRegRead_keeps (ctx : Nat) (ring : Nat) (hs : Keeps s₀ s) :
    Keeps s₀ (s.jobRegRead ctx ring) := by
  unfold State.jobRegRead
  simp (maxDischargeDepth := 64) +contextual only [*, Keeps.ite, Keeps.ite_snd, Keeps.foldl, Keeps.foldl_snd, State.jobDone_keeps, State.ring_keeps,
    State.onJob_keeps, implies_true]

theorem State.endCommitJob_keeps (x : Nat × Nat × Job) (code : Nat) (hs : Keeps s₀ s) :
    Keeps s₀ (s.endCommitJob x code) := by
  unfold State.endCommitJob
  simp (maxDischargeDepth := 64) +contextual only [*, Keeps.ite_snd, State.jobDone_keeps, implies_true]

theorem State.commitMoved_keeps (code : Nat) (hs : Keeps s₀ s) :
    Keeps s₀ (s.commitMoved code) := by
  unfold State.commitMoved
  simp (maxDischargeDepth := 64) +contextual only [*, Keeps.ite, Keeps.ite_snd, Keeps.foldl, Keeps.foldl_snd,
    State.setJob_keeps, State.endCommitJob_keeps, implies_true]

theorem State.persistWrites_keeps (p : Nat) (k : Nat) (lo : List RegWrite) (hi : List RegWrite) (hs : Keeps s₀ s) :
    Keeps s₀ (s.persistWrites p k lo hi) := by
  unfold State.persistWrites
  simp (maxDischargeDepth := 64) +contextual only [*, Keeps.ite, Keeps.ite_snd, State.writeRegs_keeps,
    State.noteTlp_keeps, State.persistPair_keeps, implies_true]

theorem State.persistCommit_keeps (ok : Bool) (hs : Keeps s₀ s) :
    Keeps s₀ (s.persistCommit ok) := by
  unfold State.persistCommit
  simp (maxDischargeDepth := 64) +contextual only [*, Keeps.ite, State.commitDone_keeps, State.ageRose_keeps, State.commitMoved_keeps,
    implies_true]

theorem State.brownOutBegin_keeps (hs : Keeps s₀ s) :
    Keeps s₀ (s.brownOutBegin) := by
  unfold State.brownOutBegin
  simp (maxDischargeDepth := 64) +contextual only [*, Keeps.ite, Keeps.ite_snd, Keeps.foldl, Keeps.foldl_snd,
    State.brownOut_keeps, State.endCommitJob_keeps, implies_true]

theorem State.dbgReg_keeps (addr : Nat) (write : Bool) (v : Word) (hs : Keeps s₀ s) :
    Keeps s₀ (s.dbgReg addr write v) := by
  unfold State.dbgReg
  simp (maxDischargeDepth := 64) +contextual only [*, Keeps.ite, Keeps.ite_snd, Keeps.foldl, Keeps.foldl_snd, State.write_keeps, State.badAccess_keeps,
    State.leaveScan_keeps, State.regWrite_keeps, State.portRead_keeps, implies_true]

theorem execRegisterWrite_keeps (dt : Nat) (addr : Nat) (size : Nat) (writes : List RegWrite) (upper : List RegWrite) {s₁ : State}
    (e : execRegisterWrite dt addr size writes upper s = .next s₁) : Keeps s s₁ := by
  unfold execRegisterWrite at e
  obtain rfl := Host.Outcome.next.inj e
  simp (maxDischargeDepth := 64) +contextual only [*, Keeps.refl, State.arrive_keeps, State.registerWrite_keeps,
    implies_true]

theorem execCounterWrite_keeps (dt : Nat) (page : Nat) (off : Nat) (w : Nat) (v : Word) {s₁ : State}
    (e : execCounterWrite dt page off w v s = .next s₁) : Keeps s s₁ := by
  unfold execCounterWrite at e
  obtain rfl := Host.Outcome.next.inj e
  simp (maxDischargeDepth := 64) +contextual only [*, Keeps.refl, State.arrive_keeps, State.counterWrite_keeps,
    implies_true]

theorem execPageEnable_keeps (dt : Nat) (page : Nat) (w : Nat) (on : Bool) {s₁ : State}
    (e : execPageEnable dt page w on s = .next s₁) : Keeps s s₁ := by
  unfold execPageEnable at e
  obtain rfl := Host.Outcome.next.inj e
  simp (maxDischargeDepth := 64) +contextual only [*, Keeps.refl, State.arrive_keeps, State.pageEnable_keeps,
    implies_true]

theorem execSoftReset_keeps (dt : Nat) (page : Nat) (w : Nat) {s₁ : State}
    (e : execSoftReset dt page w s = .next s₁) : Keeps s s₁ := by
  unfold execSoftReset at e
  obtain rfl := Host.Outcome.next.inj e
  simp (maxDischargeDepth := 64) +contextual only [*, Keeps.refl, State.arrive_keeps, State.pageReset_keeps, implies_true]

theorem execSoftResetDone_keeps (dt : Nat) (page : Nat) {s₁ : State}
    (e : execSoftResetDone dt page s = .next s₁) : Keeps s s₁ := by
  unfold execSoftResetDone at e
  obtain rfl := Host.Outcome.next.inj e
  simp (maxDischargeDepth := 64) +contextual only [*, Keeps.refl, State.arrive_keeps, State.softResetDone_keeps,
    implies_true]

theorem execFreeze_keeps (dt : Nat) (page : Nat) (w : Nat) (on : Bool) {s₁ : State}
    (e : execFreeze dt page w on s = .next s₁) : Keeps s s₁ := by
  unfold execFreeze at e
  obtain rfl := Host.Outcome.next.inj e
  simp (maxDischargeDepth := 64) +contextual only [*, Keeps.refl, State.arrive_keeps, State.pageFreeze_keeps,
    implies_true]

theorem execFreezeSafePoint_keeps (dt : Nat) (page : Nat) {s₁ : State}
    (e : execFreezeSafePoint dt page s = .next s₁) : Keeps s s₁ := by
  unfold execFreezeSafePoint at e
  obtain rfl := Host.Outcome.next.inj e
  simp (maxDischargeDepth := 64) +contextual only [*, Keeps.refl, State.arrive_keeps, State.freezePoint_keeps,
    implies_true]

theorem execDrainComplete_keeps (dt : Nat) (page : Nat) {s₁ : State}
    (e : execDrainComplete dt page s = .next s₁) : Keeps s s₁ := by
  unfold execDrainComplete at e
  obtain rfl := Host.Outcome.next.inj e
  simp (maxDischargeDepth := 64) +contextual only [*, Keeps.refl, State.arrive_keeps, State.drainDone_keeps, implies_true]

theorem execEventPendClear_keeps (dt : Nat) (page : Nat) (w : Nat) (v : Word) {s₁ : State}
    (e : execEventPendClear dt page w v s = .next s₁) : Keeps s s₁ := by
  unfold execEventPendClear at e
  obtain rfl := Host.Outcome.next.inj e
  simp (maxDischargeDepth := 64) +contextual only [*, Keeps.refl, State.arrive_keeps, State.singleWrite_keeps,
    implies_true]

theorem execErrCodeClear_keeps (dt : Nat) (page : Nat) (w : Nat) (v : Word) {s₁ : State}
    (e : execErrCodeClear dt page w v s = .next s₁) : Keeps s s₁ := by
  unfold execErrCodeClear at e
  obtain rfl := Host.Outcome.next.inj e
  simp (maxDischargeDepth := 64) +contextual only [*, Keeps.refl, State.arrive_keeps, State.singleWrite_keeps,
    implies_true]

theorem execLockAcquire_keeps (dt : Nat) (page : Nat) (w : Nat) {s₁ : State}
    (e : execLockAcquire dt page w s = .next s₁) : Keeps s s₁ := by
  unfold execLockAcquire at e
  obtain rfl := Host.Outcome.next.inj e
  simp (maxDischargeDepth := 64) +contextual only [*, Keeps.refl, State.arrive_keeps, State.singleWrite_keeps,
    implies_true]

theorem execLockRelease_keeps (dt : Nat) (page : Nat) (w : Nat) {s₁ : State}
    (e : execLockRelease dt page w s = .next s₁) : Keeps s s₁ := by
  unfold execLockRelease at e
  obtain rfl := Host.Outcome.next.inj e
  simp (maxDischargeDepth := 64) +contextual only [*, Keeps.refl, State.arrive_keeps, State.singleWrite_keeps,
    implies_true]

theorem execLockRecovered_keeps (dt : Nat) (page : Nat) (w : Nat) {s₁ : State}
    (e : execLockRecovered dt page w s = .next s₁) : Keeps s s₁ := by
  unfold execLockRecovered at e
  obtain rfl := Host.Outcome.next.inj e
  simp (maxDischargeDepth := 64) +contextual only [*, Keeps.refl, State.arrive_keeps, State.singleWrite_keeps,
    implies_true]

theorem execLockBreak_keeps (dt : Nat) (page : Nat) (w : Nat) {s₁ : State}
    (e : execLockBreak dt page w s = .next s₁) : Keeps s s₁ := by
  unfold execLockBreak at e
  obtain rfl := Host.Outcome.next.inj e
  simp (maxDischargeDepth := 64) +contextual only [*, Keeps.refl, State.arrive_keeps, State.singleWrite_keeps,
    implies_true]

theorem execLockAbandon_keeps (dt : Nat) (page : Nat) {s₁ : State}
    (e : execLockAbandon dt page s = .next s₁) : Keeps s s₁ := by
  unfold execLockAbandon at e
  obtain rfl := Host.Outcome.next.inj e
  simp (maxDischargeDepth := 64) +contextual only [*, Keeps.refl, State.arrive_keeps, State.lockAbandon_keeps,
    implies_true]

theorem execResourceGrant_keeps (dt : Nat) {s₁ : State}
    (e : execResourceGrant dt s = .next s₁) : Keeps s s₁ := by
  unfold execResourceGrant at e
  obtain rfl := Host.Outcome.next.inj e
  simp (maxDischargeDepth := 64) +contextual only [*, Keeps.refl, State.arrive_keeps, State.resourceGrant_keeps,
    implies_true]

theorem execJobRegWrite_keeps (dt : Nat) (ctx : Nat) (ring : Nat) {s₁ : State}
    (e : execJobRegWrite dt ctx ring s = .next s₁) : Keeps s s₁ := by
  unfold execJobRegWrite at e
  obtain rfl := Host.Outcome.next.inj e
  simp (maxDischargeDepth := 64) +contextual only [*, Keeps.refl, State.arrive_keeps, State.ring_keeps,
    State.jobRegWrite_keeps, implies_true]

theorem execJobRegRead_keeps (dt : Nat) (ctx : Nat) (ring : Nat) {s₁ : State}
    (e : execJobRegRead dt ctx ring s = .next s₁) : Keeps s s₁ := by
  unfold execJobRegRead at e
  obtain rfl := Host.Outcome.next.inj e
  simp (maxDischargeDepth := 64) +contextual only [*, Keeps.refl, State.arrive_keeps, State.ring_keeps,
    State.jobRegRead_keeps, implies_true]

theorem execDbgReg_keeps (dt : Nat) (addr : Nat) (write : Bool) (v : Word) {s₁ : State}
    (e : execDbgReg dt addr write v s = .next s₁) : Keeps s s₁ := by
  unfold execDbgReg at e
  obtain rfl := Host.Outcome.next.inj e
  simp (maxDischargeDepth := 64) +contextual only [*, Keeps.refl, State.arrive_keeps, State.write_keeps,
    State.dbgReg_keeps, implies_true]

theorem execPersistWrite_keeps (dt : Nat) (page : Nat) (word : Nat) (lo : List RegWrite) (hi : List RegWrite) {s₁ : State}
    (e : execPersistWrite dt page word lo hi s = .next s₁) : Keeps s s₁ := by
  unfold execPersistWrite at e
  obtain rfl := Host.Outcome.next.inj e
  simp (maxDischargeDepth := 64) +contextual only [*, Keeps.refl, State.arrive_keeps, State.persistWrites_keeps,
    implies_true]

theorem execPersistCommitDone_keeps (dt : Nat) (ok : Bool) {s₁ : State}
    (e : execPersistCommitDone dt ok s = .next s₁) : Keeps s s₁ := by
  unfold execPersistCommitDone at e
  obtain rfl := Host.Outcome.next.inj e
  simp (maxDischargeDepth := 64) +contextual only [*, Keeps.refl, State.arrive_keeps, State.persistCommit_keeps,
    implies_true]

theorem execBrownOut_keeps (dt : Nat) {s₁ : State}
    (e : execBrownOut dt s = .next s₁) : Keeps s s₁ := by
  unfold execBrownOut at e
  obtain rfl := Host.Outcome.next.inj e
  simp (maxDischargeDepth := 64) +contextual only [*, Keeps.refl, State.arrive_keeps, State.brownOutBegin_keeps,
    implies_true]

theorem execBrownOutEnd_keeps (dt : Nat) {s₁ : State}
    (e : execBrownOutEnd dt s = .next s₁) : Keeps s s₁ := by
  unfold execBrownOutEnd at e
  obtain rfl := Host.Outcome.next.inj e
  simp (maxDischargeDepth := 64) +contextual only [*, Keeps.refl, State.arrive_keeps, State.brownOutEnd_keeps,
    implies_true]

theorem execWearSelWrite_keeps (dt : Nat) (w : Nat) (v : Word) {s₁ : State}
    (e : execWearSelWrite dt w v s = .next s₁) : Keeps s s₁ := by
  unfold execWearSelWrite at e
  obtain rfl := Host.Outcome.next.inj e
  simp (maxDischargeDepth := 64) +contextual only [*, Keeps.refl, State.arrive_keeps, State.singleWrite_keeps,
    implies_true]

theorem execLifetimeCommit_keeps (dt : Nat) {s₁ : State}
    (e : execLifetimeCommit dt s = .next s₁) : Keeps s s₁ := by
  unfold execLifetimeCommit at e
  obtain rfl := Host.Outcome.next.inj e
  simp (maxDischargeDepth := 64) +contextual only [*, Keeps.refl, State.arrive_keeps, State.lifetimeCommit_keeps,
    implies_true]

theorem execSafEnter_keeps (dt : Nat) (w : Nat) (key : Nat) {s₁ : State}
    (e : execSafEnter dt w key s = .next s₁) : Keeps s s₁ := by
  unfold execSafEnter at e
  obtain rfl := Host.Outcome.next.inj e
  simp (maxDischargeDepth := 64) +contextual only [*, Keeps.refl, State.arrive_keeps, State.singleWrite_keeps,
    implies_true]

theorem execSafRelease_keeps (dt : Nat) (w : Nat) (key : Nat) {s₁ : State}
    (e : execSafRelease dt w key s = .next s₁) : Keeps s s₁ := by
  unfold execSafRelease at e
  obtain rfl := Host.Outcome.next.inj e
  simp (maxDischargeDepth := 64) +contextual only [*, Keeps.refl, State.arrive_keeps, State.singleWrite_keeps,
    implies_true]

theorem execInjArm_keeps (dt : Nat) (w : Nat) (target : Nat) (inst : Nat) {s₁ : State}
    (e : execInjArm dt w target inst s = .next s₁) : Keeps s s₁ := by
  unfold execInjArm at e
  obtain rfl := Host.Outcome.next.inj e
  simp (maxDischargeDepth := 64) +contextual only [*, Keeps.refl, State.arrive_keeps, State.singleWrite_keeps,
    implies_true]

end Sys2Proof.Machine
end

