-- ==== Sys2Proof/Laws/State.lean ====
section
/-! SUPPORT. What each update of the state leaves in each field: one lemma per field per update, true by rfl, so that no
proof unfolds an update. -/

namespace Sys2Proof.Machine

variable (s : State)

/-! ### updFrm -/

@[simp] theorem State.updFrm_cycles (f : Frm → Frm) : (s.updFrm f).cycles = s.cycles := rfl
@[simp] theorem State.updFrm_timebase (f : Frm → Frm) : (s.updFrm f).timebase = s.timebase := rfl
@[simp] theorem State.updFrm_free (f : Frm → Frm) : (s.updFrm f).free = s.free := rfl
@[simp] theorem State.updFrm_regs (f : Frm → Frm) : (s.updFrm f).regs = s.regs := rfl
@[simp] theorem State.updFrm_hdr (f : Frm → Frm) : (s.updFrm f).hdr = s.hdr := rfl
@[simp] theorem State.updFrm_held (f : Frm → Frm) : (s.updFrm f).held = s.held := rfl
@[simp] theorem State.updFrm_waiters (f : Frm → Frm) : (s.updFrm f).waiters = s.waiters := rfl
@[simp] theorem State.updFrm_logQueue (f : Frm → Frm) : (s.updFrm f).logQueue = s.logQueue := rfl
@[simp] theorem State.updFrm_cyc (f : Frm → Frm) : (s.updFrm f).cyc = s.cyc := rfl
@[simp] theorem State.updFrm_fuses (f : Frm → Frm) : (s.updFrm f).fuses = s.fuses := rfl
@[simp] theorem State.updFrm_mem (f : Frm → Frm) : (s.updFrm f).mem = s.mem := rfl
@[simp] theorem State.updFrm_frm (f : Frm → Frm) : (s.updFrm f).frm = f s.frm := rfl
@[simp] theorem State.updFrm_sep (f : Frm → Frm) : (s.updFrm f).sep = s.sep := rfl
@[simp] theorem State.updFrm_slk (f : Frm → Frm) : (s.updFrm f).slk = s.slk := rfl
@[simp] theorem State.updFrm_scv (f : Frm → Frm) : (s.updFrm f).scv = s.scv := rfl
@[simp] theorem State.updFrm_hrv (f : Frm → Frm) : (s.updFrm f).hrv = s.hrv := rfl
@[simp] theorem State.updFrm_etu (f : Frm → Frm) : (s.updFrm f).etu = s.etu := rfl
@[simp] theorem State.updFrm_grf (f : Frm → Frm) : (s.updFrm f).grf = s.grf := rfl
@[simp] theorem State.updFrm_tiles (f : Frm → Frm) : (s.updFrm f).tiles = s.tiles := rfl
@[simp] theorem State.updFrm_hif (f : Frm → Frm) : (s.updFrm f).hif = s.hif := rfl
@[simp] theorem State.updFrm_saf (f : Frm → Frm) : (s.updFrm f).saf = s.saf := rfl
@[simp] theorem State.updFrm_gpio (f : Frm → Frm) : (s.updFrm f).gpio = s.gpio := rfl
@[simp] theorem State.updFrm_rst (f : Frm → Frm) : (s.updFrm f).rst = s.rst := rfl
@[simp] theorem State.updFrm_psv (f : Frm → Frm) : (s.updFrm f).psv = s.psv := rfl
@[simp] theorem State.updFrm_pwr (f : Frm → Frm) : (s.updFrm f).pwr = s.pwr := rfl
@[simp] theorem State.updFrm_boot (f : Frm → Frm) : (s.updFrm f).boot = s.boot := rfl
@[simp] theorem State.updFrm_pending (f : Frm → Frm) : (s.updFrm f).pending = s.pending := rfl

/-! ### updSep -/

@[simp] theorem State.updSep_cycles (f : Sep → Sep) : (s.updSep f).cycles = s.cycles := rfl
@[simp] theorem State.updSep_timebase (f : Sep → Sep) : (s.updSep f).timebase = s.timebase := rfl
@[simp] theorem State.updSep_free (f : Sep → Sep) : (s.updSep f).free = s.free := rfl
@[simp] theorem State.updSep_regs (f : Sep → Sep) : (s.updSep f).regs = s.regs := rfl
@[simp] theorem State.updSep_hdr (f : Sep → Sep) : (s.updSep f).hdr = s.hdr := rfl
@[simp] theorem State.updSep_held (f : Sep → Sep) : (s.updSep f).held = s.held := rfl
@[simp] theorem State.updSep_waiters (f : Sep → Sep) : (s.updSep f).waiters = s.waiters := rfl
@[simp] theorem State.updSep_logQueue (f : Sep → Sep) : (s.updSep f).logQueue = s.logQueue := rfl
@[simp] theorem State.updSep_cyc (f : Sep → Sep) : (s.updSep f).cyc = s.cyc := rfl
@[simp] theorem State.updSep_fuses (f : Sep → Sep) : (s.updSep f).fuses = s.fuses := rfl
@[simp] theorem State.updSep_mem (f : Sep → Sep) : (s.updSep f).mem = s.mem := rfl
@[simp] theorem State.updSep_frm (f : Sep → Sep) : (s.updSep f).frm = s.frm := rfl
@[simp] theorem State.updSep_sep (f : Sep → Sep) : (s.updSep f).sep = f s.sep := rfl
@[simp] theorem State.updSep_slk (f : Sep → Sep) : (s.updSep f).slk = s.slk := rfl
@[simp] theorem State.updSep_scv (f : Sep → Sep) : (s.updSep f).scv = s.scv := rfl
@[simp] theorem State.updSep_hrv (f : Sep → Sep) : (s.updSep f).hrv = s.hrv := rfl
@[simp] theorem State.updSep_etu (f : Sep → Sep) : (s.updSep f).etu = s.etu := rfl
@[simp] theorem State.updSep_grf (f : Sep → Sep) : (s.updSep f).grf = s.grf := rfl
@[simp] theorem State.updSep_tiles (f : Sep → Sep) : (s.updSep f).tiles = s.tiles := rfl
@[simp] theorem State.updSep_hif (f : Sep → Sep) : (s.updSep f).hif = s.hif := rfl
@[simp] theorem State.updSep_saf (f : Sep → Sep) : (s.updSep f).saf = s.saf := rfl
@[simp] theorem State.updSep_gpio (f : Sep → Sep) : (s.updSep f).gpio = s.gpio := rfl
@[simp] theorem State.updSep_rst (f : Sep → Sep) : (s.updSep f).rst = s.rst := rfl
@[simp] theorem State.updSep_psv (f : Sep → Sep) : (s.updSep f).psv = s.psv := rfl
@[simp] theorem State.updSep_pwr (f : Sep → Sep) : (s.updSep f).pwr = s.pwr := rfl
@[simp] theorem State.updSep_boot (f : Sep → Sep) : (s.updSep f).boot = s.boot := rfl
@[simp] theorem State.updSep_pending (f : Sep → Sep) : (s.updSep f).pending = s.pending := rfl

/-! ### updSlk -/

@[simp] theorem State.updSlk_cycles (f : Slk → Slk) : (s.updSlk f).cycles = s.cycles := rfl
@[simp] theorem State.updSlk_timebase (f : Slk → Slk) : (s.updSlk f).timebase = s.timebase := rfl
@[simp] theorem State.updSlk_free (f : Slk → Slk) : (s.updSlk f).free = s.free := rfl
@[simp] theorem State.updSlk_regs (f : Slk → Slk) : (s.updSlk f).regs = s.regs := rfl
@[simp] theorem State.updSlk_hdr (f : Slk → Slk) : (s.updSlk f).hdr = s.hdr := rfl
@[simp] theorem State.updSlk_held (f : Slk → Slk) : (s.updSlk f).held = s.held := rfl
@[simp] theorem State.updSlk_waiters (f : Slk → Slk) : (s.updSlk f).waiters = s.waiters := rfl
@[simp] theorem State.updSlk_logQueue (f : Slk → Slk) : (s.updSlk f).logQueue = s.logQueue := rfl
@[simp] theorem State.updSlk_cyc (f : Slk → Slk) : (s.updSlk f).cyc = s.cyc := rfl
@[simp] theorem State.updSlk_fuses (f : Slk → Slk) : (s.updSlk f).fuses = s.fuses := rfl
@[simp] theorem State.updSlk_mem (f : Slk → Slk) : (s.updSlk f).mem = s.mem := rfl
@[simp] theorem State.updSlk_frm (f : Slk → Slk) : (s.updSlk f).frm = s.frm := rfl
@[simp] theorem State.updSlk_sep (f : Slk → Slk) : (s.updSlk f).sep = s.sep := rfl
@[simp] theorem State.updSlk_slk (f : Slk → Slk) : (s.updSlk f).slk = f s.slk := rfl
@[simp] theorem State.updSlk_scv (f : Slk → Slk) : (s.updSlk f).scv = s.scv := rfl
@[simp] theorem State.updSlk_hrv (f : Slk → Slk) : (s.updSlk f).hrv = s.hrv := rfl
@[simp] theorem State.updSlk_etu (f : Slk → Slk) : (s.updSlk f).etu = s.etu := rfl
@[simp] theorem State.updSlk_grf (f : Slk → Slk) : (s.updSlk f).grf = s.grf := rfl
@[simp] theorem State.updSlk_tiles (f : Slk → Slk) : (s.updSlk f).tiles = s.tiles := rfl
@[simp] theorem State.updSlk_hif (f : Slk → Slk) : (s.updSlk f).hif = s.hif := rfl
@[simp] theorem State.updSlk_saf (f : Slk → Slk) : (s.updSlk f).saf = s.saf := rfl
@[simp] theorem State.updSlk_gpio (f : Slk → Slk) : (s.updSlk f).gpio = s.gpio := rfl
@[simp] theorem State.updSlk_rst (f : Slk → Slk) : (s.updSlk f).rst = s.rst := rfl
@[simp] theorem State.updSlk_psv (f : Slk → Slk) : (s.updSlk f).psv = s.psv := rfl
@[simp] theorem State.updSlk_pwr (f : Slk → Slk) : (s.updSlk f).pwr = s.pwr := rfl
@[simp] theorem State.updSlk_boot (f : Slk → Slk) : (s.updSlk f).boot = s.boot := rfl
@[simp] theorem State.updSlk_pending (f : Slk → Slk) : (s.updSlk f).pending = s.pending := rfl

/-! ### updScv -/

@[simp] theorem State.updScv_cycles (f : Scv → Scv) : (s.updScv f).cycles = s.cycles := rfl
@[simp] theorem State.updScv_timebase (f : Scv → Scv) : (s.updScv f).timebase = s.timebase := rfl
@[simp] theorem State.updScv_free (f : Scv → Scv) : (s.updScv f).free = s.free := rfl
@[simp] theorem State.updScv_regs (f : Scv → Scv) : (s.updScv f).regs = s.regs := rfl
@[simp] theorem State.updScv_hdr (f : Scv → Scv) : (s.updScv f).hdr = s.hdr := rfl
@[simp] theorem State.updScv_held (f : Scv → Scv) : (s.updScv f).held = s.held := rfl
@[simp] theorem State.updScv_waiters (f : Scv → Scv) : (s.updScv f).waiters = s.waiters := rfl
@[simp] theorem State.updScv_logQueue (f : Scv → Scv) : (s.updScv f).logQueue = s.logQueue := rfl
@[simp] theorem State.updScv_cyc (f : Scv → Scv) : (s.updScv f).cyc = s.cyc := rfl
@[simp] theorem State.updScv_fuses (f : Scv → Scv) : (s.updScv f).fuses = s.fuses := rfl
@[simp] theorem State.updScv_mem (f : Scv → Scv) : (s.updScv f).mem = s.mem := rfl
@[simp] theorem State.updScv_frm (f : Scv → Scv) : (s.updScv f).frm = s.frm := rfl
@[simp] theorem State.updScv_sep (f : Scv → Scv) : (s.updScv f).sep = s.sep := rfl
@[simp] theorem State.updScv_slk (f : Scv → Scv) : (s.updScv f).slk = s.slk := rfl
@[simp] theorem State.updScv_scv (f : Scv → Scv) : (s.updScv f).scv = f s.scv := rfl
@[simp] theorem State.updScv_hrv (f : Scv → Scv) : (s.updScv f).hrv = s.hrv := rfl
@[simp] theorem State.updScv_etu (f : Scv → Scv) : (s.updScv f).etu = s.etu := rfl
@[simp] theorem State.updScv_grf (f : Scv → Scv) : (s.updScv f).grf = s.grf := rfl
@[simp] theorem State.updScv_tiles (f : Scv → Scv) : (s.updScv f).tiles = s.tiles := rfl
@[simp] theorem State.updScv_hif (f : Scv → Scv) : (s.updScv f).hif = s.hif := rfl
@[simp] theorem State.updScv_saf (f : Scv → Scv) : (s.updScv f).saf = s.saf := rfl
@[simp] theorem State.updScv_gpio (f : Scv → Scv) : (s.updScv f).gpio = s.gpio := rfl
@[simp] theorem State.updScv_rst (f : Scv → Scv) : (s.updScv f).rst = s.rst := rfl
@[simp] theorem State.updScv_psv (f : Scv → Scv) : (s.updScv f).psv = s.psv := rfl
@[simp] theorem State.updScv_pwr (f : Scv → Scv) : (s.updScv f).pwr = s.pwr := rfl
@[simp] theorem State.updScv_boot (f : Scv → Scv) : (s.updScv f).boot = s.boot := rfl
@[simp] theorem State.updScv_pending (f : Scv → Scv) : (s.updScv f).pending = s.pending := rfl

/-! ### updHrv -/

@[simp] theorem State.updHrv_cycles (f : Hrv → Hrv) : (s.updHrv f).cycles = s.cycles := rfl
@[simp] theorem State.updHrv_timebase (f : Hrv → Hrv) : (s.updHrv f).timebase = s.timebase := rfl
@[simp] theorem State.updHrv_free (f : Hrv → Hrv) : (s.updHrv f).free = s.free := rfl
@[simp] theorem State.updHrv_regs (f : Hrv → Hrv) : (s.updHrv f).regs = s.regs := rfl
@[simp] theorem State.updHrv_hdr (f : Hrv → Hrv) : (s.updHrv f).hdr = s.hdr := rfl
@[simp] theorem State.updHrv_held (f : Hrv → Hrv) : (s.updHrv f).held = s.held := rfl
@[simp] theorem State.updHrv_waiters (f : Hrv → Hrv) : (s.updHrv f).waiters = s.waiters := rfl
@[simp] theorem State.updHrv_logQueue (f : Hrv → Hrv) : (s.updHrv f).logQueue = s.logQueue := rfl
@[simp] theorem State.updHrv_cyc (f : Hrv → Hrv) : (s.updHrv f).cyc = s.cyc := rfl
@[simp] theorem State.updHrv_fuses (f : Hrv → Hrv) : (s.updHrv f).fuses = s.fuses := rfl
@[simp] theorem State.updHrv_mem (f : Hrv → Hrv) : (s.updHrv f).mem = s.mem := rfl
@[simp] theorem State.updHrv_frm (f : Hrv → Hrv) : (s.updHrv f).frm = s.frm := rfl
@[simp] theorem State.updHrv_sep (f : Hrv → Hrv) : (s.updHrv f).sep = s.sep := rfl
@[simp] theorem State.updHrv_slk (f : Hrv → Hrv) : (s.updHrv f).slk = s.slk := rfl
@[simp] theorem State.updHrv_scv (f : Hrv → Hrv) : (s.updHrv f).scv = s.scv := rfl
@[simp] theorem State.updHrv_hrv (f : Hrv → Hrv) : (s.updHrv f).hrv = f s.hrv := rfl
@[simp] theorem State.updHrv_etu (f : Hrv → Hrv) : (s.updHrv f).etu = s.etu := rfl
@[simp] theorem State.updHrv_grf (f : Hrv → Hrv) : (s.updHrv f).grf = s.grf := rfl
@[simp] theorem State.updHrv_tiles (f : Hrv → Hrv) : (s.updHrv f).tiles = s.tiles := rfl
@[simp] theorem State.updHrv_hif (f : Hrv → Hrv) : (s.updHrv f).hif = s.hif := rfl
@[simp] theorem State.updHrv_saf (f : Hrv → Hrv) : (s.updHrv f).saf = s.saf := rfl
@[simp] theorem State.updHrv_gpio (f : Hrv → Hrv) : (s.updHrv f).gpio = s.gpio := rfl
@[simp] theorem State.updHrv_rst (f : Hrv → Hrv) : (s.updHrv f).rst = s.rst := rfl
@[simp] theorem State.updHrv_psv (f : Hrv → Hrv) : (s.updHrv f).psv = s.psv := rfl
@[simp] theorem State.updHrv_pwr (f : Hrv → Hrv) : (s.updHrv f).pwr = s.pwr := rfl
@[simp] theorem State.updHrv_boot (f : Hrv → Hrv) : (s.updHrv f).boot = s.boot := rfl
@[simp] theorem State.updHrv_pending (f : Hrv → Hrv) : (s.updHrv f).pending = s.pending := rfl

/-! ### updEtu -/

@[simp] theorem State.updEtu_cycles (f : Etu → Etu) : (s.updEtu f).cycles = s.cycles := rfl
@[simp] theorem State.updEtu_timebase (f : Etu → Etu) : (s.updEtu f).timebase = s.timebase := rfl
@[simp] theorem State.updEtu_free (f : Etu → Etu) : (s.updEtu f).free = s.free := rfl
@[simp] theorem State.updEtu_regs (f : Etu → Etu) : (s.updEtu f).regs = s.regs := rfl
@[simp] theorem State.updEtu_hdr (f : Etu → Etu) : (s.updEtu f).hdr = s.hdr := rfl
@[simp] theorem State.updEtu_held (f : Etu → Etu) : (s.updEtu f).held = s.held := rfl
@[simp] theorem State.updEtu_waiters (f : Etu → Etu) : (s.updEtu f).waiters = s.waiters := rfl
@[simp] theorem State.updEtu_logQueue (f : Etu → Etu) : (s.updEtu f).logQueue = s.logQueue := rfl
@[simp] theorem State.updEtu_cyc (f : Etu → Etu) : (s.updEtu f).cyc = s.cyc := rfl
@[simp] theorem State.updEtu_fuses (f : Etu → Etu) : (s.updEtu f).fuses = s.fuses := rfl
@[simp] theorem State.updEtu_mem (f : Etu → Etu) : (s.updEtu f).mem = s.mem := rfl
@[simp] theorem State.updEtu_frm (f : Etu → Etu) : (s.updEtu f).frm = s.frm := rfl
@[simp] theorem State.updEtu_sep (f : Etu → Etu) : (s.updEtu f).sep = s.sep := rfl
@[simp] theorem State.updEtu_slk (f : Etu → Etu) : (s.updEtu f).slk = s.slk := rfl
@[simp] theorem State.updEtu_scv (f : Etu → Etu) : (s.updEtu f).scv = s.scv := rfl
@[simp] theorem State.updEtu_hrv (f : Etu → Etu) : (s.updEtu f).hrv = s.hrv := rfl
@[simp] theorem State.updEtu_etu (f : Etu → Etu) : (s.updEtu f).etu = f s.etu := rfl
@[simp] theorem State.updEtu_grf (f : Etu → Etu) : (s.updEtu f).grf = s.grf := rfl
@[simp] theorem State.updEtu_tiles (f : Etu → Etu) : (s.updEtu f).tiles = s.tiles := rfl
@[simp] theorem State.updEtu_hif (f : Etu → Etu) : (s.updEtu f).hif = s.hif := rfl
@[simp] theorem State.updEtu_saf (f : Etu → Etu) : (s.updEtu f).saf = s.saf := rfl
@[simp] theorem State.updEtu_gpio (f : Etu → Etu) : (s.updEtu f).gpio = s.gpio := rfl
@[simp] theorem State.updEtu_rst (f : Etu → Etu) : (s.updEtu f).rst = s.rst := rfl
@[simp] theorem State.updEtu_psv (f : Etu → Etu) : (s.updEtu f).psv = s.psv := rfl
@[simp] theorem State.updEtu_pwr (f : Etu → Etu) : (s.updEtu f).pwr = s.pwr := rfl
@[simp] theorem State.updEtu_boot (f : Etu → Etu) : (s.updEtu f).boot = s.boot := rfl
@[simp] theorem State.updEtu_pending (f : Etu → Etu) : (s.updEtu f).pending = s.pending := rfl

/-! ### updGrf -/

@[simp] theorem State.updGrf_cycles (f : Grf → Grf) : (s.updGrf f).cycles = s.cycles := rfl
@[simp] theorem State.updGrf_timebase (f : Grf → Grf) : (s.updGrf f).timebase = s.timebase := rfl
@[simp] theorem State.updGrf_free (f : Grf → Grf) : (s.updGrf f).free = s.free := rfl
@[simp] theorem State.updGrf_regs (f : Grf → Grf) : (s.updGrf f).regs = s.regs := rfl
@[simp] theorem State.updGrf_hdr (f : Grf → Grf) : (s.updGrf f).hdr = s.hdr := rfl
@[simp] theorem State.updGrf_held (f : Grf → Grf) : (s.updGrf f).held = s.held := rfl
@[simp] theorem State.updGrf_waiters (f : Grf → Grf) : (s.updGrf f).waiters = s.waiters := rfl
@[simp] theorem State.updGrf_logQueue (f : Grf → Grf) : (s.updGrf f).logQueue = s.logQueue := rfl
@[simp] theorem State.updGrf_cyc (f : Grf → Grf) : (s.updGrf f).cyc = s.cyc := rfl
@[simp] theorem State.updGrf_fuses (f : Grf → Grf) : (s.updGrf f).fuses = s.fuses := rfl
@[simp] theorem State.updGrf_mem (f : Grf → Grf) : (s.updGrf f).mem = s.mem := rfl
@[simp] theorem State.updGrf_frm (f : Grf → Grf) : (s.updGrf f).frm = s.frm := rfl
@[simp] theorem State.updGrf_sep (f : Grf → Grf) : (s.updGrf f).sep = s.sep := rfl
@[simp] theorem State.updGrf_slk (f : Grf → Grf) : (s.updGrf f).slk = s.slk := rfl
@[simp] theorem State.updGrf_scv (f : Grf → Grf) : (s.updGrf f).scv = s.scv := rfl
@[simp] theorem State.updGrf_hrv (f : Grf → Grf) : (s.updGrf f).hrv = s.hrv := rfl
@[simp] theorem State.updGrf_etu (f : Grf → Grf) : (s.updGrf f).etu = s.etu := rfl
@[simp] theorem State.updGrf_grf (f : Grf → Grf) : (s.updGrf f).grf = f s.grf := rfl
@[simp] theorem State.updGrf_tiles (f : Grf → Grf) : (s.updGrf f).tiles = s.tiles := rfl
@[simp] theorem State.updGrf_hif (f : Grf → Grf) : (s.updGrf f).hif = s.hif := rfl
@[simp] theorem State.updGrf_saf (f : Grf → Grf) : (s.updGrf f).saf = s.saf := rfl
@[simp] theorem State.updGrf_gpio (f : Grf → Grf) : (s.updGrf f).gpio = s.gpio := rfl
@[simp] theorem State.updGrf_rst (f : Grf → Grf) : (s.updGrf f).rst = s.rst := rfl
@[simp] theorem State.updGrf_psv (f : Grf → Grf) : (s.updGrf f).psv = s.psv := rfl
@[simp] theorem State.updGrf_pwr (f : Grf → Grf) : (s.updGrf f).pwr = s.pwr := rfl
@[simp] theorem State.updGrf_boot (f : Grf → Grf) : (s.updGrf f).boot = s.boot := rfl
@[simp] theorem State.updGrf_pending (f : Grf → Grf) : (s.updGrf f).pending = s.pending := rfl

/-! ### updHif -/

@[simp] theorem State.updHif_cycles (f : Hif → Hif) : (s.updHif f).cycles = s.cycles := rfl
@[simp] theorem State.updHif_timebase (f : Hif → Hif) : (s.updHif f).timebase = s.timebase := rfl
@[simp] theorem State.updHif_free (f : Hif → Hif) : (s.updHif f).free = s.free := rfl
@[simp] theorem State.updHif_regs (f : Hif → Hif) : (s.updHif f).regs = s.regs := rfl
@[simp] theorem State.updHif_hdr (f : Hif → Hif) : (s.updHif f).hdr = s.hdr := rfl
@[simp] theorem State.updHif_held (f : Hif → Hif) : (s.updHif f).held = s.held := rfl
@[simp] theorem State.updHif_waiters (f : Hif → Hif) : (s.updHif f).waiters = s.waiters := rfl
@[simp] theorem State.updHif_logQueue (f : Hif → Hif) : (s.updHif f).logQueue = s.logQueue := rfl
@[simp] theorem State.updHif_cyc (f : Hif → Hif) : (s.updHif f).cyc = s.cyc := rfl
@[simp] theorem State.updHif_fuses (f : Hif → Hif) : (s.updHif f).fuses = s.fuses := rfl
@[simp] theorem State.updHif_mem (f : Hif → Hif) : (s.updHif f).mem = s.mem := rfl
@[simp] theorem State.updHif_frm (f : Hif → Hif) : (s.updHif f).frm = s.frm := rfl
@[simp] theorem State.updHif_sep (f : Hif → Hif) : (s.updHif f).sep = s.sep := rfl
@[simp] theorem State.updHif_slk (f : Hif → Hif) : (s.updHif f).slk = s.slk := rfl
@[simp] theorem State.updHif_scv (f : Hif → Hif) : (s.updHif f).scv = s.scv := rfl
@[simp] theorem State.updHif_hrv (f : Hif → Hif) : (s.updHif f).hrv = s.hrv := rfl
@[simp] theorem State.updHif_etu (f : Hif → Hif) : (s.updHif f).etu = s.etu := rfl
@[simp] theorem State.updHif_grf (f : Hif → Hif) : (s.updHif f).grf = s.grf := rfl
@[simp] theorem State.updHif_tiles (f : Hif → Hif) : (s.updHif f).tiles = s.tiles := rfl
@[simp] theorem State.updHif_hif (f : Hif → Hif) : (s.updHif f).hif = f s.hif := rfl
@[simp] theorem State.updHif_saf (f : Hif → Hif) : (s.updHif f).saf = s.saf := rfl
@[simp] theorem State.updHif_gpio (f : Hif → Hif) : (s.updHif f).gpio = s.gpio := rfl
@[simp] theorem State.updHif_rst (f : Hif → Hif) : (s.updHif f).rst = s.rst := rfl
@[simp] theorem State.updHif_psv (f : Hif → Hif) : (s.updHif f).psv = s.psv := rfl
@[simp] theorem State.updHif_pwr (f : Hif → Hif) : (s.updHif f).pwr = s.pwr := rfl
@[simp] theorem State.updHif_boot (f : Hif → Hif) : (s.updHif f).boot = s.boot := rfl
@[simp] theorem State.updHif_pending (f : Hif → Hif) : (s.updHif f).pending = s.pending := rfl

/-! ### updSaf -/

@[simp] theorem State.updSaf_cycles (f : Saf → Saf) : (s.updSaf f).cycles = s.cycles := rfl
@[simp] theorem State.updSaf_timebase (f : Saf → Saf) : (s.updSaf f).timebase = s.timebase := rfl
@[simp] theorem State.updSaf_free (f : Saf → Saf) : (s.updSaf f).free = s.free := rfl
@[simp] theorem State.updSaf_regs (f : Saf → Saf) : (s.updSaf f).regs = s.regs := rfl
@[simp] theorem State.updSaf_hdr (f : Saf → Saf) : (s.updSaf f).hdr = s.hdr := rfl
@[simp] theorem State.updSaf_held (f : Saf → Saf) : (s.updSaf f).held = s.held := rfl
@[simp] theorem State.updSaf_waiters (f : Saf → Saf) : (s.updSaf f).waiters = s.waiters := rfl
@[simp] theorem State.updSaf_logQueue (f : Saf → Saf) : (s.updSaf f).logQueue = s.logQueue := rfl
@[simp] theorem State.updSaf_cyc (f : Saf → Saf) : (s.updSaf f).cyc = s.cyc := rfl
@[simp] theorem State.updSaf_fuses (f : Saf → Saf) : (s.updSaf f).fuses = s.fuses := rfl
@[simp] theorem State.updSaf_mem (f : Saf → Saf) : (s.updSaf f).mem = s.mem := rfl
@[simp] theorem State.updSaf_frm (f : Saf → Saf) : (s.updSaf f).frm = s.frm := rfl
@[simp] theorem State.updSaf_sep (f : Saf → Saf) : (s.updSaf f).sep = s.sep := rfl
@[simp] theorem State.updSaf_slk (f : Saf → Saf) : (s.updSaf f).slk = s.slk := rfl
@[simp] theorem State.updSaf_scv (f : Saf → Saf) : (s.updSaf f).scv = s.scv := rfl
@[simp] theorem State.updSaf_hrv (f : Saf → Saf) : (s.updSaf f).hrv = s.hrv := rfl
@[simp] theorem State.updSaf_etu (f : Saf → Saf) : (s.updSaf f).etu = s.etu := rfl
@[simp] theorem State.updSaf_grf (f : Saf → Saf) : (s.updSaf f).grf = s.grf := rfl
@[simp] theorem State.updSaf_tiles (f : Saf → Saf) : (s.updSaf f).tiles = s.tiles := rfl
@[simp] theorem State.updSaf_hif (f : Saf → Saf) : (s.updSaf f).hif = s.hif := rfl
@[simp] theorem State.updSaf_saf (f : Saf → Saf) : (s.updSaf f).saf = f s.saf := rfl
@[simp] theorem State.updSaf_gpio (f : Saf → Saf) : (s.updSaf f).gpio = s.gpio := rfl
@[simp] theorem State.updSaf_rst (f : Saf → Saf) : (s.updSaf f).rst = s.rst := rfl
@[simp] theorem State.updSaf_psv (f : Saf → Saf) : (s.updSaf f).psv = s.psv := rfl
@[simp] theorem State.updSaf_pwr (f : Saf → Saf) : (s.updSaf f).pwr = s.pwr := rfl
@[simp] theorem State.updSaf_boot (f : Saf → Saf) : (s.updSaf f).boot = s.boot := rfl
@[simp] theorem State.updSaf_pending (f : Saf → Saf) : (s.updSaf f).pending = s.pending := rfl

/-! ### updGpio -/

@[simp] theorem State.updGpio_cycles (f : Gpio → Gpio) : (s.updGpio f).cycles = s.cycles := rfl
@[simp] theorem State.updGpio_timebase (f : Gpio → Gpio) : (s.updGpio f).timebase = s.timebase := rfl
@[simp] theorem State.updGpio_free (f : Gpio → Gpio) : (s.updGpio f).free = s.free := rfl
@[simp] theorem State.updGpio_regs (f : Gpio → Gpio) : (s.updGpio f).regs = s.regs := rfl
@[simp] theorem State.updGpio_hdr (f : Gpio → Gpio) : (s.updGpio f).hdr = s.hdr := rfl
@[simp] theorem State.updGpio_held (f : Gpio → Gpio) : (s.updGpio f).held = s.held := rfl
@[simp] theorem State.updGpio_waiters (f : Gpio → Gpio) : (s.updGpio f).waiters = s.waiters := rfl
@[simp] theorem State.updGpio_logQueue (f : Gpio → Gpio) : (s.updGpio f).logQueue = s.logQueue := rfl
@[simp] theorem State.updGpio_cyc (f : Gpio → Gpio) : (s.updGpio f).cyc = s.cyc := rfl
@[simp] theorem State.updGpio_fuses (f : Gpio → Gpio) : (s.updGpio f).fuses = s.fuses := rfl
@[simp] theorem State.updGpio_mem (f : Gpio → Gpio) : (s.updGpio f).mem = s.mem := rfl
@[simp] theorem State.updGpio_frm (f : Gpio → Gpio) : (s.updGpio f).frm = s.frm := rfl
@[simp] theorem State.updGpio_sep (f : Gpio → Gpio) : (s.updGpio f).sep = s.sep := rfl
@[simp] theorem State.updGpio_slk (f : Gpio → Gpio) : (s.updGpio f).slk = s.slk := rfl
@[simp] theorem State.updGpio_scv (f : Gpio → Gpio) : (s.updGpio f).scv = s.scv := rfl
@[simp] theorem State.updGpio_hrv (f : Gpio → Gpio) : (s.updGpio f).hrv = s.hrv := rfl
@[simp] theorem State.updGpio_etu (f : Gpio → Gpio) : (s.updGpio f).etu = s.etu := rfl
@[simp] theorem State.updGpio_grf (f : Gpio → Gpio) : (s.updGpio f).grf = s.grf := rfl
@[simp] theorem State.updGpio_tiles (f : Gpio → Gpio) : (s.updGpio f).tiles = s.tiles := rfl
@[simp] theorem State.updGpio_hif (f : Gpio → Gpio) : (s.updGpio f).hif = s.hif := rfl
@[simp] theorem State.updGpio_saf (f : Gpio → Gpio) : (s.updGpio f).saf = s.saf := rfl
@[simp] theorem State.updGpio_gpio (f : Gpio → Gpio) : (s.updGpio f).gpio = f s.gpio := rfl
@[simp] theorem State.updGpio_rst (f : Gpio → Gpio) : (s.updGpio f).rst = s.rst := rfl
@[simp] theorem State.updGpio_psv (f : Gpio → Gpio) : (s.updGpio f).psv = s.psv := rfl
@[simp] theorem State.updGpio_pwr (f : Gpio → Gpio) : (s.updGpio f).pwr = s.pwr := rfl
@[simp] theorem State.updGpio_boot (f : Gpio → Gpio) : (s.updGpio f).boot = s.boot := rfl
@[simp] theorem State.updGpio_pending (f : Gpio → Gpio) : (s.updGpio f).pending = s.pending := rfl

/-! ### updRst -/

@[simp] theorem State.updRst_cycles (f : Rst → Rst) : (s.updRst f).cycles = s.cycles := rfl
@[simp] theorem State.updRst_timebase (f : Rst → Rst) : (s.updRst f).timebase = s.timebase := rfl
@[simp] theorem State.updRst_free (f : Rst → Rst) : (s.updRst f).free = s.free := rfl
@[simp] theorem State.updRst_regs (f : Rst → Rst) : (s.updRst f).regs = s.regs := rfl
@[simp] theorem State.updRst_hdr (f : Rst → Rst) : (s.updRst f).hdr = s.hdr := rfl
@[simp] theorem State.updRst_held (f : Rst → Rst) : (s.updRst f).held = s.held := rfl
@[simp] theorem State.updRst_waiters (f : Rst → Rst) : (s.updRst f).waiters = s.waiters := rfl
@[simp] theorem State.updRst_logQueue (f : Rst → Rst) : (s.updRst f).logQueue = s.logQueue := rfl
@[simp] theorem State.updRst_cyc (f : Rst → Rst) : (s.updRst f).cyc = s.cyc := rfl
@[simp] theorem State.updRst_fuses (f : Rst → Rst) : (s.updRst f).fuses = s.fuses := rfl
@[simp] theorem State.updRst_mem (f : Rst → Rst) : (s.updRst f).mem = s.mem := rfl
@[simp] theorem State.updRst_frm (f : Rst → Rst) : (s.updRst f).frm = s.frm := rfl
@[simp] theorem State.updRst_sep (f : Rst → Rst) : (s.updRst f).sep = s.sep := rfl
@[simp] theorem State.updRst_slk (f : Rst → Rst) : (s.updRst f).slk = s.slk := rfl
@[simp] theorem State.updRst_scv (f : Rst → Rst) : (s.updRst f).scv = s.scv := rfl
@[simp] theorem State.updRst_hrv (f : Rst → Rst) : (s.updRst f).hrv = s.hrv := rfl
@[simp] theorem State.updRst_etu (f : Rst → Rst) : (s.updRst f).etu = s.etu := rfl
@[simp] theorem State.updRst_grf (f : Rst → Rst) : (s.updRst f).grf = s.grf := rfl
@[simp] theorem State.updRst_tiles (f : Rst → Rst) : (s.updRst f).tiles = s.tiles := rfl
@[simp] theorem State.updRst_hif (f : Rst → Rst) : (s.updRst f).hif = s.hif := rfl
@[simp] theorem State.updRst_saf (f : Rst → Rst) : (s.updRst f).saf = s.saf := rfl
@[simp] theorem State.updRst_gpio (f : Rst → Rst) : (s.updRst f).gpio = s.gpio := rfl
@[simp] theorem State.updRst_rst (f : Rst → Rst) : (s.updRst f).rst = f s.rst := rfl
@[simp] theorem State.updRst_psv (f : Rst → Rst) : (s.updRst f).psv = s.psv := rfl
@[simp] theorem State.updRst_pwr (f : Rst → Rst) : (s.updRst f).pwr = s.pwr := rfl
@[simp] theorem State.updRst_boot (f : Rst → Rst) : (s.updRst f).boot = s.boot := rfl
@[simp] theorem State.updRst_pending (f : Rst → Rst) : (s.updRst f).pending = s.pending := rfl

/-! ### updPsv -/

@[simp] theorem State.updPsv_cycles (f : Psv → Psv) : (s.updPsv f).cycles = s.cycles := rfl
@[simp] theorem State.updPsv_timebase (f : Psv → Psv) : (s.updPsv f).timebase = s.timebase := rfl
@[simp] theorem State.updPsv_free (f : Psv → Psv) : (s.updPsv f).free = s.free := rfl
@[simp] theorem State.updPsv_regs (f : Psv → Psv) : (s.updPsv f).regs = s.regs := rfl
@[simp] theorem State.updPsv_hdr (f : Psv → Psv) : (s.updPsv f).hdr = s.hdr := rfl
@[simp] theorem State.updPsv_held (f : Psv → Psv) : (s.updPsv f).held = s.held := rfl
@[simp] theorem State.updPsv_waiters (f : Psv → Psv) : (s.updPsv f).waiters = s.waiters := rfl
@[simp] theorem State.updPsv_logQueue (f : Psv → Psv) : (s.updPsv f).logQueue = s.logQueue := rfl
@[simp] theorem State.updPsv_cyc (f : Psv → Psv) : (s.updPsv f).cyc = s.cyc := rfl
@[simp] theorem State.updPsv_fuses (f : Psv → Psv) : (s.updPsv f).fuses = s.fuses := rfl
@[simp] theorem State.updPsv_mem (f : Psv → Psv) : (s.updPsv f).mem = s.mem := rfl
@[simp] theorem State.updPsv_frm (f : Psv → Psv) : (s.updPsv f).frm = s.frm := rfl
@[simp] theorem State.updPsv_sep (f : Psv → Psv) : (s.updPsv f).sep = s.sep := rfl
@[simp] theorem State.updPsv_slk (f : Psv → Psv) : (s.updPsv f).slk = s.slk := rfl
@[simp] theorem State.updPsv_scv (f : Psv → Psv) : (s.updPsv f).scv = s.scv := rfl
@[simp] theorem State.updPsv_hrv (f : Psv → Psv) : (s.updPsv f).hrv = s.hrv := rfl
@[simp] theorem State.updPsv_etu (f : Psv → Psv) : (s.updPsv f).etu = s.etu := rfl
@[simp] theorem State.updPsv_grf (f : Psv → Psv) : (s.updPsv f).grf = s.grf := rfl
@[simp] theorem State.updPsv_tiles (f : Psv → Psv) : (s.updPsv f).tiles = s.tiles := rfl
@[simp] theorem State.updPsv_hif (f : Psv → Psv) : (s.updPsv f).hif = s.hif := rfl
@[simp] theorem State.updPsv_saf (f : Psv → Psv) : (s.updPsv f).saf = s.saf := rfl
@[simp] theorem State.updPsv_gpio (f : Psv → Psv) : (s.updPsv f).gpio = s.gpio := rfl
@[simp] theorem State.updPsv_rst (f : Psv → Psv) : (s.updPsv f).rst = s.rst := rfl
@[simp] theorem State.updPsv_psv (f : Psv → Psv) : (s.updPsv f).psv = f s.psv := rfl
@[simp] theorem State.updPsv_pwr (f : Psv → Psv) : (s.updPsv f).pwr = s.pwr := rfl
@[simp] theorem State.updPsv_boot (f : Psv → Psv) : (s.updPsv f).boot = s.boot := rfl
@[simp] theorem State.updPsv_pending (f : Psv → Psv) : (s.updPsv f).pending = s.pending := rfl

/-! ### updPwr -/

@[simp] theorem State.updPwr_cycles (f : Pwr → Pwr) : (s.updPwr f).cycles = s.cycles := rfl
@[simp] theorem State.updPwr_timebase (f : Pwr → Pwr) : (s.updPwr f).timebase = s.timebase := rfl
@[simp] theorem State.updPwr_free (f : Pwr → Pwr) : (s.updPwr f).free = s.free := rfl
@[simp] theorem State.updPwr_regs (f : Pwr → Pwr) : (s.updPwr f).regs = s.regs := rfl
@[simp] theorem State.updPwr_hdr (f : Pwr → Pwr) : (s.updPwr f).hdr = s.hdr := rfl
@[simp] theorem State.updPwr_held (f : Pwr → Pwr) : (s.updPwr f).held = s.held := rfl
@[simp] theorem State.updPwr_waiters (f : Pwr → Pwr) : (s.updPwr f).waiters = s.waiters := rfl
@[simp] theorem State.updPwr_logQueue (f : Pwr → Pwr) : (s.updPwr f).logQueue = s.logQueue := rfl
@[simp] theorem State.updPwr_cyc (f : Pwr → Pwr) : (s.updPwr f).cyc = s.cyc := rfl
@[simp] theorem State.updPwr_fuses (f : Pwr → Pwr) : (s.updPwr f).fuses = s.fuses := rfl
@[simp] theorem State.updPwr_mem (f : Pwr → Pwr) : (s.updPwr f).mem = s.mem := rfl
@[simp] theorem State.updPwr_frm (f : Pwr → Pwr) : (s.updPwr f).frm = s.frm := rfl
@[simp] theorem State.updPwr_sep (f : Pwr → Pwr) : (s.updPwr f).sep = s.sep := rfl
@[simp] theorem State.updPwr_slk (f : Pwr → Pwr) : (s.updPwr f).slk = s.slk := rfl
@[simp] theorem State.updPwr_scv (f : Pwr → Pwr) : (s.updPwr f).scv = s.scv := rfl
@[simp] theorem State.updPwr_hrv (f : Pwr → Pwr) : (s.updPwr f).hrv = s.hrv := rfl
@[simp] theorem State.updPwr_etu (f : Pwr → Pwr) : (s.updPwr f).etu = s.etu := rfl
@[simp] theorem State.updPwr_grf (f : Pwr → Pwr) : (s.updPwr f).grf = s.grf := rfl
@[simp] theorem State.updPwr_tiles (f : Pwr → Pwr) : (s.updPwr f).tiles = s.tiles := rfl
@[simp] theorem State.updPwr_hif (f : Pwr → Pwr) : (s.updPwr f).hif = s.hif := rfl
@[simp] theorem State.updPwr_saf (f : Pwr → Pwr) : (s.updPwr f).saf = s.saf := rfl
@[simp] theorem State.updPwr_gpio (f : Pwr → Pwr) : (s.updPwr f).gpio = s.gpio := rfl
@[simp] theorem State.updPwr_rst (f : Pwr → Pwr) : (s.updPwr f).rst = s.rst := rfl
@[simp] theorem State.updPwr_psv (f : Pwr → Pwr) : (s.updPwr f).psv = s.psv := rfl
@[simp] theorem State.updPwr_pwr (f : Pwr → Pwr) : (s.updPwr f).pwr = f s.pwr := rfl
@[simp] theorem State.updPwr_boot (f : Pwr → Pwr) : (s.updPwr f).boot = s.boot := rfl
@[simp] theorem State.updPwr_pending (f : Pwr → Pwr) : (s.updPwr f).pending = s.pending := rfl

/-! ### updBoot -/

@[simp] theorem State.updBoot_cycles (f : Boot → Boot) : (s.updBoot f).cycles = s.cycles := rfl
@[simp] theorem State.updBoot_timebase (f : Boot → Boot) : (s.updBoot f).timebase = s.timebase := rfl
@[simp] theorem State.updBoot_free (f : Boot → Boot) : (s.updBoot f).free = s.free := rfl
@[simp] theorem State.updBoot_regs (f : Boot → Boot) : (s.updBoot f).regs = s.regs := rfl
@[simp] theorem State.updBoot_hdr (f : Boot → Boot) : (s.updBoot f).hdr = s.hdr := rfl
@[simp] theorem State.updBoot_held (f : Boot → Boot) : (s.updBoot f).held = s.held := rfl
@[simp] theorem State.updBoot_waiters (f : Boot → Boot) : (s.updBoot f).waiters = s.waiters := rfl
@[simp] theorem State.updBoot_logQueue (f : Boot → Boot) : (s.updBoot f).logQueue = s.logQueue := rfl
@[simp] theorem State.updBoot_cyc (f : Boot → Boot) : (s.updBoot f).cyc = s.cyc := rfl
@[simp] theorem State.updBoot_fuses (f : Boot → Boot) : (s.updBoot f).fuses = s.fuses := rfl
@[simp] theorem State.updBoot_mem (f : Boot → Boot) : (s.updBoot f).mem = s.mem := rfl
@[simp] theorem State.updBoot_frm (f : Boot → Boot) : (s.updBoot f).frm = s.frm := rfl
@[simp] theorem State.updBoot_sep (f : Boot → Boot) : (s.updBoot f).sep = s.sep := rfl
@[simp] theorem State.updBoot_slk (f : Boot → Boot) : (s.updBoot f).slk = s.slk := rfl
@[simp] theorem State.updBoot_scv (f : Boot → Boot) : (s.updBoot f).scv = s.scv := rfl
@[simp] theorem State.updBoot_hrv (f : Boot → Boot) : (s.updBoot f).hrv = s.hrv := rfl
@[simp] theorem State.updBoot_etu (f : Boot → Boot) : (s.updBoot f).etu = s.etu := rfl
@[simp] theorem State.updBoot_grf (f : Boot → Boot) : (s.updBoot f).grf = s.grf := rfl
@[simp] theorem State.updBoot_tiles (f : Boot → Boot) : (s.updBoot f).tiles = s.tiles := rfl
@[simp] theorem State.updBoot_hif (f : Boot → Boot) : (s.updBoot f).hif = s.hif := rfl
@[simp] theorem State.updBoot_saf (f : Boot → Boot) : (s.updBoot f).saf = s.saf := rfl
@[simp] theorem State.updBoot_gpio (f : Boot → Boot) : (s.updBoot f).gpio = s.gpio := rfl
@[simp] theorem State.updBoot_rst (f : Boot → Boot) : (s.updBoot f).rst = s.rst := rfl
@[simp] theorem State.updBoot_psv (f : Boot → Boot) : (s.updBoot f).psv = s.psv := rfl
@[simp] theorem State.updBoot_pwr (f : Boot → Boot) : (s.updBoot f).pwr = s.pwr := rfl
@[simp] theorem State.updBoot_boot (f : Boot → Boot) : (s.updBoot f).boot = f s.boot := rfl
@[simp] theorem State.updBoot_pending (f : Boot → Boot) : (s.updBoot f).pending = s.pending := rfl

/-! ### updCyc -/

@[simp] theorem State.updCyc_cycles (f : Cyc → Cyc) : (s.updCyc f).cycles = s.cycles := rfl
@[simp] theorem State.updCyc_timebase (f : Cyc → Cyc) : (s.updCyc f).timebase = s.timebase := rfl
@[simp] theorem State.updCyc_free (f : Cyc → Cyc) : (s.updCyc f).free = s.free := rfl
@[simp] theorem State.updCyc_regs (f : Cyc → Cyc) : (s.updCyc f).regs = s.regs := rfl
@[simp] theorem State.updCyc_hdr (f : Cyc → Cyc) : (s.updCyc f).hdr = s.hdr := rfl
@[simp] theorem State.updCyc_held (f : Cyc → Cyc) : (s.updCyc f).held = s.held := rfl
@[simp] theorem State.updCyc_waiters (f : Cyc → Cyc) : (s.updCyc f).waiters = s.waiters := rfl
@[simp] theorem State.updCyc_logQueue (f : Cyc → Cyc) : (s.updCyc f).logQueue = s.logQueue := rfl
@[simp] theorem State.updCyc_cyc (f : Cyc → Cyc) : (s.updCyc f).cyc = f s.nowCyc := rfl
@[simp] theorem State.updCyc_fuses (f : Cyc → Cyc) : (s.updCyc f).fuses = s.fuses := rfl
@[simp] theorem State.updCyc_mem (f : Cyc → Cyc) : (s.updCyc f).mem = s.mem := rfl
@[simp] theorem State.updCyc_frm (f : Cyc → Cyc) : (s.updCyc f).frm = s.frm := rfl
@[simp] theorem State.updCyc_sep (f : Cyc → Cyc) : (s.updCyc f).sep = s.sep := rfl
@[simp] theorem State.updCyc_slk (f : Cyc → Cyc) : (s.updCyc f).slk = s.slk := rfl
@[simp] theorem State.updCyc_scv (f : Cyc → Cyc) : (s.updCyc f).scv = s.scv := rfl
@[simp] theorem State.updCyc_hrv (f : Cyc → Cyc) : (s.updCyc f).hrv = s.hrv := rfl
@[simp] theorem State.updCyc_etu (f : Cyc → Cyc) : (s.updCyc f).etu = s.etu := rfl
@[simp] theorem State.updCyc_grf (f : Cyc → Cyc) : (s.updCyc f).grf = s.grf := rfl
@[simp] theorem State.updCyc_tiles (f : Cyc → Cyc) : (s.updCyc f).tiles = s.tiles := rfl
@[simp] theorem State.updCyc_hif (f : Cyc → Cyc) : (s.updCyc f).hif = s.hif := rfl
@[simp] theorem State.updCyc_saf (f : Cyc → Cyc) : (s.updCyc f).saf = s.saf := rfl
@[simp] theorem State.updCyc_gpio (f : Cyc → Cyc) : (s.updCyc f).gpio = s.gpio := rfl
@[simp] theorem State.updCyc_rst (f : Cyc → Cyc) : (s.updCyc f).rst = s.rst := rfl
@[simp] theorem State.updCyc_psv (f : Cyc → Cyc) : (s.updCyc f).psv = s.psv := rfl
@[simp] theorem State.updCyc_pwr (f : Cyc → Cyc) : (s.updCyc f).pwr = s.pwr := rfl
@[simp] theorem State.updCyc_boot (f : Cyc → Cyc) : (s.updCyc f).boot = s.boot := rfl
@[simp] theorem State.updCyc_pending (f : Cyc → Cyc) : (s.updCyc f).pending = s.pending := rfl

/-! ### updMem -/

@[simp] theorem State.updMem_cycles (f : MemState → MemState) : (s.updMem f).cycles = s.cycles := rfl
@[simp] theorem State.updMem_timebase (f : MemState → MemState) : (s.updMem f).timebase = s.timebase := rfl
@[simp] theorem State.updMem_free (f : MemState → MemState) : (s.updMem f).free = s.free := rfl
@[simp] theorem State.updMem_regs (f : MemState → MemState) : (s.updMem f).regs = s.regs := rfl
@[simp] theorem State.updMem_hdr (f : MemState → MemState) : (s.updMem f).hdr = s.hdr := rfl
@[simp] theorem State.updMem_held (f : MemState → MemState) : (s.updMem f).held = s.held := rfl
@[simp] theorem State.updMem_waiters (f : MemState → MemState) : (s.updMem f).waiters = s.waiters := rfl
@[simp] theorem State.updMem_logQueue (f : MemState → MemState) : (s.updMem f).logQueue = s.logQueue := rfl
@[simp] theorem State.updMem_cyc (f : MemState → MemState) : (s.updMem f).cyc = s.cyc := rfl
@[simp] theorem State.updMem_fuses (f : MemState → MemState) : (s.updMem f).fuses = s.fuses := rfl
@[simp] theorem State.updMem_mem (f : MemState → MemState) : (s.updMem f).mem = f s.mem := rfl
@[simp] theorem State.updMem_frm (f : MemState → MemState) : (s.updMem f).frm = s.frm := rfl
@[simp] theorem State.updMem_sep (f : MemState → MemState) : (s.updMem f).sep = s.sep := rfl
@[simp] theorem State.updMem_slk (f : MemState → MemState) : (s.updMem f).slk = s.slk := rfl
@[simp] theorem State.updMem_scv (f : MemState → MemState) : (s.updMem f).scv = s.scv := rfl
@[simp] theorem State.updMem_hrv (f : MemState → MemState) : (s.updMem f).hrv = s.hrv := rfl
@[simp] theorem State.updMem_etu (f : MemState → MemState) : (s.updMem f).etu = s.etu := rfl
@[simp] theorem State.updMem_grf (f : MemState → MemState) : (s.updMem f).grf = s.grf := rfl
@[simp] theorem State.updMem_tiles (f : MemState → MemState) : (s.updMem f).tiles = s.tiles := rfl
@[simp] theorem State.updMem_hif (f : MemState → MemState) : (s.updMem f).hif = s.hif := rfl
@[simp] theorem State.updMem_saf (f : MemState → MemState) : (s.updMem f).saf = s.saf := rfl
@[simp] theorem State.updMem_gpio (f : MemState → MemState) : (s.updMem f).gpio = s.gpio := rfl
@[simp] theorem State.updMem_rst (f : MemState → MemState) : (s.updMem f).rst = s.rst := rfl
@[simp] theorem State.updMem_psv (f : MemState → MemState) : (s.updMem f).psv = s.psv := rfl
@[simp] theorem State.updMem_pwr (f : MemState → MemState) : (s.updMem f).pwr = s.pwr := rfl
@[simp] theorem State.updMem_boot (f : MemState → MemState) : (s.updMem f).boot = s.boot := rfl
@[simp] theorem State.updMem_pending (f : MemState → MemState) : (s.updMem f).pending = s.pending := rfl

/-! ### elapse -/

@[simp] theorem State.elapse_cycles (n : Nat) : (s.elapse n).cycles = s.cycles + n := rfl
@[simp] theorem State.elapse_timebase (n : Nat) : (s.elapse n).timebase = (s.timebase + 5 * n) % 2 ^ 64 := rfl
@[simp] theorem State.elapse_free (n : Nat) : (s.elapse n).free = s.free := rfl
@[simp] theorem State.elapse_regs (n : Nat) : (s.elapse n).regs = s.regs := rfl
@[simp] theorem State.elapse_hdr (n : Nat) : (s.elapse n).hdr = s.hdr := rfl
@[simp] theorem State.elapse_held (n : Nat) : (s.elapse n).held = s.held := rfl
@[simp] theorem State.elapse_waiters (n : Nat) : (s.elapse n).waiters = s.waiters := rfl
@[simp] theorem State.elapse_logQueue (n : Nat) : (s.elapse n).logQueue = s.logQueue := rfl
@[simp] theorem State.elapse_cyc (n : Nat) : (s.elapse n).cyc = s.cyc := rfl
@[simp] theorem State.elapse_fuses (n : Nat) : (s.elapse n).fuses = s.fuses := rfl
@[simp] theorem State.elapse_mem (n : Nat) : (s.elapse n).mem = s.mem := rfl
@[simp] theorem State.elapse_frm (n : Nat) : (s.elapse n).frm = s.frm := rfl
@[simp] theorem State.elapse_sep (n : Nat) : (s.elapse n).sep = s.sep := rfl
@[simp] theorem State.elapse_slk (n : Nat) : (s.elapse n).slk = s.slk := rfl
@[simp] theorem State.elapse_scv (n : Nat) : (s.elapse n).scv = s.scv := rfl
@[simp] theorem State.elapse_hrv (n : Nat) : (s.elapse n).hrv = s.hrv := rfl
@[simp] theorem State.elapse_etu (n : Nat) : (s.elapse n).etu = s.etu := rfl
@[simp] theorem State.elapse_grf (n : Nat) : (s.elapse n).grf = s.grf := rfl
@[simp] theorem State.elapse_tiles (n : Nat) : (s.elapse n).tiles = s.tiles := rfl
@[simp] theorem State.elapse_hif (n : Nat) : (s.elapse n).hif = s.hif := rfl
@[simp] theorem State.elapse_saf (n : Nat) : (s.elapse n).saf = s.saf := rfl
@[simp] theorem State.elapse_gpio (n : Nat) : (s.elapse n).gpio = s.gpio := rfl
@[simp] theorem State.elapse_rst (n : Nat) : (s.elapse n).rst = s.rst := rfl
@[simp] theorem State.elapse_psv (n : Nat) : (s.elapse n).psv = s.psv := rfl
@[simp] theorem State.elapse_pwr (n : Nat) : (s.elapse n).pwr = s.pwr := rfl
@[simp] theorem State.elapse_boot (n : Nat) : (s.elapse n).boot = s.boot := rfl
@[simp] theorem State.elapse_pending (n : Nat) : (s.elapse n).pending = s.pending := rfl

/-! ### drawFree -/

@[simp] theorem State.drawFree_cycles : (s.drawFree).cycles = s.cycles := rfl
@[simp] theorem State.drawFree_timebase : (s.drawFree).timebase = s.timebase := rfl
@[simp] theorem State.drawFree_free : (s.drawFree).free = s.free + 1 := rfl
@[simp] theorem State.drawFree_regs : (s.drawFree).regs = s.regs := rfl
@[simp] theorem State.drawFree_hdr : (s.drawFree).hdr = s.hdr := rfl
@[simp] theorem State.drawFree_held : (s.drawFree).held = s.held := rfl
@[simp] theorem State.drawFree_waiters : (s.drawFree).waiters = s.waiters := rfl
@[simp] theorem State.drawFree_logQueue : (s.drawFree).logQueue = s.logQueue := rfl
@[simp] theorem State.drawFree_cyc : (s.drawFree).cyc = s.cyc := rfl
@[simp] theorem State.drawFree_fuses : (s.drawFree).fuses = s.fuses := rfl
@[simp] theorem State.drawFree_mem : (s.drawFree).mem = s.mem := rfl
@[simp] theorem State.drawFree_frm : (s.drawFree).frm = s.frm := rfl
@[simp] theorem State.drawFree_sep : (s.drawFree).sep = s.sep := rfl
@[simp] theorem State.drawFree_slk : (s.drawFree).slk = s.slk := rfl
@[simp] theorem State.drawFree_scv : (s.drawFree).scv = s.scv := rfl
@[simp] theorem State.drawFree_hrv : (s.drawFree).hrv = s.hrv := rfl
@[simp] theorem State.drawFree_etu : (s.drawFree).etu = s.etu := rfl
@[simp] theorem State.drawFree_grf : (s.drawFree).grf = s.grf := rfl
@[simp] theorem State.drawFree_tiles : (s.drawFree).tiles = s.tiles := rfl
@[simp] theorem State.drawFree_hif : (s.drawFree).hif = s.hif := rfl
@[simp] theorem State.drawFree_saf : (s.drawFree).saf = s.saf := rfl
@[simp] theorem State.drawFree_gpio : (s.drawFree).gpio = s.gpio := rfl
@[simp] theorem State.drawFree_rst : (s.drawFree).rst = s.rst := rfl
@[simp] theorem State.drawFree_psv : (s.drawFree).psv = s.psv := rfl
@[simp] theorem State.drawFree_pwr : (s.drawFree).pwr = s.pwr := rfl
@[simp] theorem State.drawFree_boot : (s.drawFree).boot = s.boot := rfl
@[simp] theorem State.drawFree_pending : (s.drawFree).pending = s.pending := rfl

/-! ### setCell -/

@[simp] theorem State.setCell_cycles (k : Nat) (v : Word) : (s.setCell k v).cycles = s.cycles := rfl
@[simp] theorem State.setCell_timebase (k : Nat) (v : Word) : (s.setCell k v).timebase = s.timebase := rfl
@[simp] theorem State.setCell_free (k : Nat) (v : Word) : (s.setCell k v).free = s.free := rfl
@[simp] theorem State.setCell_regs (k : Nat) (v : Word) : (s.setCell k v).regs = Sparse.set resetCell s.regs k v := rfl
@[simp] theorem State.setCell_hdr (k : Nat) (v : Word) : (s.setCell k v).hdr = s.hdr := rfl
@[simp] theorem State.setCell_held (k : Nat) (v : Word) : (s.setCell k v).held = s.held := rfl
@[simp] theorem State.setCell_waiters (k : Nat) (v : Word) : (s.setCell k v).waiters = s.waiters := rfl
@[simp] theorem State.setCell_logQueue (k : Nat) (v : Word) : (s.setCell k v).logQueue = s.logQueue := rfl
@[simp] theorem State.setCell_cyc (k : Nat) (v : Word) : (s.setCell k v).cyc = s.cyc := rfl
@[simp] theorem State.setCell_fuses (k : Nat) (v : Word) : (s.setCell k v).fuses = s.fuses := rfl
@[simp] theorem State.setCell_mem (k : Nat) (v : Word) : (s.setCell k v).mem = s.mem := rfl
@[simp] theorem State.setCell_frm (k : Nat) (v : Word) : (s.setCell k v).frm = s.frm := rfl
@[simp] theorem State.setCell_sep (k : Nat) (v : Word) : (s.setCell k v).sep = s.sep := rfl
@[simp] theorem State.setCell_slk (k : Nat) (v : Word) : (s.setCell k v).slk = s.slk := rfl
@[simp] theorem State.setCell_scv (k : Nat) (v : Word) : (s.setCell k v).scv = s.scv := rfl
@[simp] theorem State.setCell_hrv (k : Nat) (v : Word) : (s.setCell k v).hrv = s.hrv := rfl
@[simp] theorem State.setCell_etu (k : Nat) (v : Word) : (s.setCell k v).etu = s.etu := rfl
@[simp] theorem State.setCell_grf (k : Nat) (v : Word) : (s.setCell k v).grf = s.grf := rfl
@[simp] theorem State.setCell_tiles (k : Nat) (v : Word) : (s.setCell k v).tiles = s.tiles := rfl
@[simp] theorem State.setCell_hif (k : Nat) (v : Word) : (s.setCell k v).hif = s.hif := rfl
@[simp] theorem State.setCell_saf (k : Nat) (v : Word) : (s.setCell k v).saf = s.saf := rfl
@[simp] theorem State.setCell_gpio (k : Nat) (v : Word) : (s.setCell k v).gpio = s.gpio := rfl
@[simp] theorem State.setCell_rst (k : Nat) (v : Word) : (s.setCell k v).rst = s.rst := rfl
@[simp] theorem State.setCell_psv (k : Nat) (v : Word) : (s.setCell k v).psv = s.psv := rfl
@[simp] theorem State.setCell_pwr (k : Nat) (v : Word) : (s.setCell k v).pwr = s.pwr := rfl
@[simp] theorem State.setCell_boot (k : Nat) (v : Word) : (s.setCell k v).boot = s.boot := rfl
@[simp] theorem State.setCell_pending (k : Nat) (v : Word) : (s.setCell k v).pending = s.pending := rfl

/-! ### setFld -/

@[simp] theorem State.setFld_cycles (x : Field) (v : Nat) : (s.setFld x v).cycles = s.cycles := rfl
@[simp] theorem State.setFld_timebase (x : Field) (v : Nat) : (s.setFld x v).timebase = s.timebase := rfl
@[simp] theorem State.setFld_free (x : Field) (v : Nat) : (s.setFld x v).free = s.free := rfl
@[simp] theorem State.setFld_regs (x : Field) (v : Nat) : (s.setFld x v).regs = Sparse.set resetCell s.regs x.reg (setBits (s.cell x.reg) x.hi x.lo v) := rfl
@[simp] theorem State.setFld_hdr (x : Field) (v : Nat) : (s.setFld x v).hdr = s.hdr := rfl
@[simp] theorem State.setFld_held (x : Field) (v : Nat) : (s.setFld x v).held = s.held := rfl
@[simp] theorem State.setFld_waiters (x : Field) (v : Nat) : (s.setFld x v).waiters = s.waiters := rfl
@[simp] theorem State.setFld_logQueue (x : Field) (v : Nat) : (s.setFld x v).logQueue = s.logQueue := rfl
@[simp] theorem State.setFld_cyc (x : Field) (v : Nat) : (s.setFld x v).cyc = s.cyc := rfl
@[simp] theorem State.setFld_fuses (x : Field) (v : Nat) : (s.setFld x v).fuses = s.fuses := rfl
@[simp] theorem State.setFld_mem (x : Field) (v : Nat) : (s.setFld x v).mem = s.mem := rfl
@[simp] theorem State.setFld_frm (x : Field) (v : Nat) : (s.setFld x v).frm = s.frm := rfl
@[simp] theorem State.setFld_sep (x : Field) (v : Nat) : (s.setFld x v).sep = s.sep := rfl
@[simp] theorem State.setFld_slk (x : Field) (v : Nat) : (s.setFld x v).slk = s.slk := rfl
@[simp] theorem State.setFld_scv (x : Field) (v : Nat) : (s.setFld x v).scv = s.scv := rfl
@[simp] theorem State.setFld_hrv (x : Field) (v : Nat) : (s.setFld x v).hrv = s.hrv := rfl
@[simp] theorem State.setFld_etu (x : Field) (v : Nat) : (s.setFld x v).etu = s.etu := rfl
@[simp] theorem State.setFld_grf (x : Field) (v : Nat) : (s.setFld x v).grf = s.grf := rfl
@[simp] theorem State.setFld_tiles (x : Field) (v : Nat) : (s.setFld x v).tiles = s.tiles := rfl
@[simp] theorem State.setFld_hif (x : Field) (v : Nat) : (s.setFld x v).hif = s.hif := rfl
@[simp] theorem State.setFld_saf (x : Field) (v : Nat) : (s.setFld x v).saf = s.saf := rfl
@[simp] theorem State.setFld_gpio (x : Field) (v : Nat) : (s.setFld x v).gpio = s.gpio := rfl
@[simp] theorem State.setFld_rst (x : Field) (v : Nat) : (s.setFld x v).rst = s.rst := rfl
@[simp] theorem State.setFld_psv (x : Field) (v : Nat) : (s.setFld x v).psv = s.psv := rfl
@[simp] theorem State.setFld_pwr (x : Field) (v : Nat) : (s.setFld x v).pwr = s.pwr := rfl
@[simp] theorem State.setFld_boot (x : Field) (v : Nat) : (s.setFld x v).boot = s.boot := rfl
@[simp] theorem State.setFld_pending (x : Field) (v : Nat) : (s.setFld x v).pending = s.pending := rfl

/-! ### resetPageRegs -/

@[simp] theorem State.resetPageRegs_cycles (p : Nat) (keep : Nat → Bool) : (s.resetPageRegs p keep).cycles = s.cycles := rfl
@[simp] theorem State.resetPageRegs_timebase (p : Nat) (keep : Nat → Bool) : (s.resetPageRegs p keep).timebase = s.timebase := rfl
@[simp] theorem State.resetPageRegs_free (p : Nat) (keep : Nat → Bool) : (s.resetPageRegs p keep).free = s.free := rfl
@[simp] theorem State.resetPageRegs_regs (p : Nat) (keep : Nat → Bool) : (s.resetPageRegs p keep).regs = Sparse.drop s.regs (fun k => k / 0x1000 == p && !keep (k % 0x1000)) := rfl
@[simp] theorem State.resetPageRegs_hdr (p : Nat) (keep : Nat → Bool) : (s.resetPageRegs p keep).hdr = s.hdr := rfl
@[simp] theorem State.resetPageRegs_held (p : Nat) (keep : Nat → Bool) : (s.resetPageRegs p keep).held = s.held := rfl
@[simp] theorem State.resetPageRegs_waiters (p : Nat) (keep : Nat → Bool) : (s.resetPageRegs p keep).waiters = s.waiters := rfl
@[simp] theorem State.resetPageRegs_logQueue (p : Nat) (keep : Nat → Bool) : (s.resetPageRegs p keep).logQueue = s.logQueue := rfl
@[simp] theorem State.resetPageRegs_cyc (p : Nat) (keep : Nat → Bool) : (s.resetPageRegs p keep).cyc = s.cyc := rfl
@[simp] theorem State.resetPageRegs_fuses (p : Nat) (keep : Nat → Bool) : (s.resetPageRegs p keep).fuses = s.fuses := rfl
@[simp] theorem State.resetPageRegs_mem (p : Nat) (keep : Nat → Bool) : (s.resetPageRegs p keep).mem = s.mem := rfl
@[simp] theorem State.resetPageRegs_frm (p : Nat) (keep : Nat → Bool) : (s.resetPageRegs p keep).frm = s.frm := rfl
@[simp] theorem State.resetPageRegs_sep (p : Nat) (keep : Nat → Bool) : (s.resetPageRegs p keep).sep = s.sep := rfl
@[simp] theorem State.resetPageRegs_slk (p : Nat) (keep : Nat → Bool) : (s.resetPageRegs p keep).slk = s.slk := rfl
@[simp] theorem State.resetPageRegs_scv (p : Nat) (keep : Nat → Bool) : (s.resetPageRegs p keep).scv = s.scv := rfl
@[simp] theorem State.resetPageRegs_hrv (p : Nat) (keep : Nat → Bool) : (s.resetPageRegs p keep).hrv = s.hrv := rfl
@[simp] theorem State.resetPageRegs_etu (p : Nat) (keep : Nat → Bool) : (s.resetPageRegs p keep).etu = s.etu := rfl
@[simp] theorem State.resetPageRegs_grf (p : Nat) (keep : Nat → Bool) : (s.resetPageRegs p keep).grf = s.grf := rfl
@[simp] theorem State.resetPageRegs_tiles (p : Nat) (keep : Nat → Bool) : (s.resetPageRegs p keep).tiles = s.tiles := rfl
@[simp] theorem State.resetPageRegs_hif (p : Nat) (keep : Nat → Bool) : (s.resetPageRegs p keep).hif = s.hif := rfl
@[simp] theorem State.resetPageRegs_saf (p : Nat) (keep : Nat → Bool) : (s.resetPageRegs p keep).saf = s.saf := rfl
@[simp] theorem State.resetPageRegs_gpio (p : Nat) (keep : Nat → Bool) : (s.resetPageRegs p keep).gpio = s.gpio := rfl
@[simp] theorem State.resetPageRegs_rst (p : Nat) (keep : Nat → Bool) : (s.resetPageRegs p keep).rst = s.rst := rfl
@[simp] theorem State.resetPageRegs_psv (p : Nat) (keep : Nat → Bool) : (s.resetPageRegs p keep).psv = s.psv := rfl
@[simp] theorem State.resetPageRegs_pwr (p : Nat) (keep : Nat → Bool) : (s.resetPageRegs p keep).pwr = s.pwr := rfl
@[simp] theorem State.resetPageRegs_boot (p : Nat) (keep : Nat → Bool) : (s.resetPageRegs p keep).boot = s.boot := rfl
@[simp] theorem State.resetPageRegs_pending (p : Nat) (keep : Nat → Bool) : (s.resetPageRegs p keep).pending = s.pending := rfl

/-! ### setPage -/

@[simp] theorem State.setPage_cycles (p : Nat) (h : PageHdr) : (s.setPage p h).cycles = s.cycles := rfl
@[simp] theorem State.setPage_timebase (p : Nat) (h : PageHdr) : (s.setPage p h).timebase = s.timebase := rfl
@[simp] theorem State.setPage_free (p : Nat) (h : PageHdr) : (s.setPage p h).free = s.free := rfl
@[simp] theorem State.setPage_regs (p : Nat) (h : PageHdr) : (s.setPage p h).regs = s.regs := rfl
@[simp] theorem State.setPage_hdr (p : Nat) (h : PageHdr) : (s.setPage p h).hdr = Sparse.set hdrDefault s.hdr p h := rfl
@[simp] theorem State.setPage_held (p : Nat) (h : PageHdr) : (s.setPage p h).held = s.held := rfl
@[simp] theorem State.setPage_waiters (p : Nat) (h : PageHdr) : (s.setPage p h).waiters = s.waiters := rfl
@[simp] theorem State.setPage_logQueue (p : Nat) (h : PageHdr) : (s.setPage p h).logQueue = s.logQueue := rfl
@[simp] theorem State.setPage_cyc (p : Nat) (h : PageHdr) : (s.setPage p h).cyc = s.cyc := rfl
@[simp] theorem State.setPage_fuses (p : Nat) (h : PageHdr) : (s.setPage p h).fuses = s.fuses := rfl
@[simp] theorem State.setPage_mem (p : Nat) (h : PageHdr) : (s.setPage p h).mem = s.mem := rfl
@[simp] theorem State.setPage_frm (p : Nat) (h : PageHdr) : (s.setPage p h).frm = s.frm := rfl
@[simp] theorem State.setPage_sep (p : Nat) (h : PageHdr) : (s.setPage p h).sep = s.sep := rfl
@[simp] theorem State.setPage_slk (p : Nat) (h : PageHdr) : (s.setPage p h).slk = s.slk := rfl
@[simp] theorem State.setPage_scv (p : Nat) (h : PageHdr) : (s.setPage p h).scv = s.scv := rfl
@[simp] theorem State.setPage_hrv (p : Nat) (h : PageHdr) : (s.setPage p h).hrv = s.hrv := rfl
@[simp] theorem State.setPage_etu (p : Nat) (h : PageHdr) : (s.setPage p h).etu = s.etu := rfl
@[simp] theorem State.setPage_grf (p : Nat) (h : PageHdr) : (s.setPage p h).grf = s.grf := rfl
@[simp] theorem State.setPage_tiles (p : Nat) (h : PageHdr) : (s.setPage p h).tiles = s.tiles := rfl
@[simp] theorem State.setPage_hif (p : Nat) (h : PageHdr) : (s.setPage p h).hif = s.hif := rfl
@[simp] theorem State.setPage_saf (p : Nat) (h : PageHdr) : (s.setPage p h).saf = s.saf := rfl
@[simp] theorem State.setPage_gpio (p : Nat) (h : PageHdr) : (s.setPage p h).gpio = s.gpio := rfl
@[simp] theorem State.setPage_rst (p : Nat) (h : PageHdr) : (s.setPage p h).rst = s.rst := rfl
@[simp] theorem State.setPage_psv (p : Nat) (h : PageHdr) : (s.setPage p h).psv = s.psv := rfl
@[simp] theorem State.setPage_pwr (p : Nat) (h : PageHdr) : (s.setPage p h).pwr = s.pwr := rfl
@[simp] theorem State.setPage_boot (p : Nat) (h : PageHdr) : (s.setPage p h).boot = s.boot := rfl
@[simp] theorem State.setPage_pending (p : Nat) (h : PageHdr) : (s.setPage p h).pending = s.pending := rfl

/-! ### release -/

@[simp] theorem State.release_cycles (p : Nat) : (s.release p).cycles = s.cycles := rfl
@[simp] theorem State.release_timebase (p : Nat) : (s.release p).timebase = s.timebase := rfl
@[simp] theorem State.release_free (p : Nat) : (s.release p).free = s.free := rfl
@[simp] theorem State.release_regs (p : Nat) : (s.release p).regs = s.regs := rfl
@[simp] theorem State.release_hdr (p : Nat) : (s.release p).hdr = s.hdr := rfl
@[simp] theorem State.release_held (p : Nat) : (s.release p).held = s.held.filter (fun x => x.2 != p) := rfl
@[simp] theorem State.release_waiters (p : Nat) : (s.release p).waiters = s.waiters.filter (fun x => x.page != p) := rfl
@[simp] theorem State.release_logQueue (p : Nat) : (s.release p).logQueue = s.logQueue := rfl
@[simp] theorem State.release_cyc (p : Nat) : (s.release p).cyc = s.cyc := rfl
@[simp] theorem State.release_fuses (p : Nat) : (s.release p).fuses = s.fuses := rfl
@[simp] theorem State.release_mem (p : Nat) : (s.release p).mem = s.mem := rfl
@[simp] theorem State.release_frm (p : Nat) : (s.release p).frm = s.frm := rfl
@[simp] theorem State.release_sep (p : Nat) : (s.release p).sep = s.sep := rfl
@[simp] theorem State.release_slk (p : Nat) : (s.release p).slk = s.slk := rfl
@[simp] theorem State.release_scv (p : Nat) : (s.release p).scv = s.scv := rfl
@[simp] theorem State.release_hrv (p : Nat) : (s.release p).hrv = s.hrv := rfl
@[simp] theorem State.release_etu (p : Nat) : (s.release p).etu = s.etu := rfl
@[simp] theorem State.release_grf (p : Nat) : (s.release p).grf = s.grf := rfl
@[simp] theorem State.release_tiles (p : Nat) : (s.release p).tiles = s.tiles := rfl
@[simp] theorem State.release_hif (p : Nat) : (s.release p).hif = s.hif := rfl
@[simp] theorem State.release_saf (p : Nat) : (s.release p).saf = s.saf := rfl
@[simp] theorem State.release_gpio (p : Nat) : (s.release p).gpio = s.gpio := rfl
@[simp] theorem State.release_rst (p : Nat) : (s.release p).rst = s.rst := rfl
@[simp] theorem State.release_psv (p : Nat) : (s.release p).psv = s.psv := rfl
@[simp] theorem State.release_pwr (p : Nat) : (s.release p).pwr = s.pwr := rfl
@[simp] theorem State.release_boot (p : Nat) : (s.release p).boot = s.boot := rfl
@[simp] theorem State.release_pending (p : Nat) : (s.release p).pending = s.pending := rfl

end Sys2Proof.Machine
end

