-- ==== Sys2Proof/Laws/Ops.lean ====
section
/-! SUPPORT. What the operations on registers and page headers do, said once: the value read after each of them, and what it leaves
alone. -/

namespace Sys2Proof.Machine

/-! ## Registers -/

theorem State.cell_setCell (s : State) (k j : Nat) (v : Word) : (s.setCell k v).cell j = if j = k then v else s.cell j := by
  simp only [State.cell, State.setCell, Sparse.get_set]

@[simp] theorem State.cell_setCell_same (s : State) (k : Nat) (v : Word) : (s.setCell k v).cell k = v := by simp [State.cell_setCell]

theorem State.cell_setCell_other (s : State) {k j : Nat} (v : Word) (h : j ≠ k) : (s.setCell k v).cell j = s.cell j := by
  simp [State.cell_setCell, h]

theorem State.cell_setFld (s : State) (f : Field) (v j : Nat) :
    (s.setFld f v).cell j = if j = f.reg then setBits (s.cell f.reg) f.hi f.lo v else s.cell j := by
  simp only [State.setFld, State.cell_setCell]

theorem State.cell_setFld_other (s : State) {f : Field} (v : Nat) {j : Nat} (h : j ≠ f.reg) : (s.setFld f v).cell j = s.cell j := by
  simp [State.cell_setFld, h]

theorem State.fld_setFld_other (s : State) {f g : Field} (v : Nat) (h : g.reg ≠ f.reg) : (s.setFld f v).fld g = s.fld g := by
  simp [State.fld, State.cell_setFld_other s v h]

/-- A field reads what it was given, within its width. -/
theorem State.fld_setFld_same (s : State) (f : Field) (v : Nat) (h : f.lo ≤ f.hi) (hh : f.hi < 32) :
    (s.setFld f v).fld f = v % 2 ^ (f.hi + 1 - f.lo) := by
  simp [State.fld, State.cell_setFld, getBits_setBits_same _ v h hh]

/-- Another field keeps its value, also one of the same register. -/
theorem State.fld_setFld_apart (s : State) {f g : Field} (v : Nat) (h : f.lo ≤ f.hi) (hh : f.hi < 32)
    (hd : g.reg ≠ f.reg ∨ g.hi < f.lo ∨ f.hi < g.lo) : (s.setFld f v).fld g = s.fld g := by
  by_cases e : g.reg = f.reg
  · have hd' : g.hi < f.lo ∨ f.hi < g.lo := by rcases hd with h | h; exact absurd e h; exact h
    simp [State.fld, State.cell_setFld, e, getBits_setBits_other _ v h hh hd']
  · exact State.fld_setFld_other s v e

@[simp] theorem State.page_setCell (s : State) (k p : Nat) (v : Word) : (s.setCell k v).page p = s.page p := rfl
@[simp] theorem State.page_setFld (s : State) (f : Field) (v p : Nat) : (s.setFld f v).page p = s.page p := rfl

/-! ## Page headers -/

theorem State.page_setPage (s : State) (p q : Nat) (h : PageHdr) : (s.setPage p h).page q = if q = p then h else s.page q := by
  simp only [State.page, State.setPage, Sparse.get_set]

@[simp] theorem State.page_setPage_same (s : State) (p : Nat) (h : PageHdr) : (s.setPage p h).page p = h := by simp [State.page_setPage]

theorem State.page_setPage_other (s : State) {p q : Nat} (h : PageHdr) (hq : q ≠ p) : (s.setPage p h).page q = s.page q := by
  simp [State.page_setPage, hq]

@[simp] theorem State.cell_setPage (s : State) (p k : Nat) (h : PageHdr) : (s.setPage p h).cell k = s.cell k := rfl

/-- A message of a vector changes no page header. -/
@[simp] theorem State.page_signal (s : State) (fn v p : Nat) : (s.signal fn v).page p = s.page p := by
  unfold State.signal; split <;> [split; (split <;> [skip; split])] <;> rfl

@[simp] theorem State.page_signalRise (s : State) (p q : Nat) (old new : Word) : (s.signalRise p old new).page q = s.page q := by
  unfold State.signalRise
  simp only
  split <;> [(split <;> [rw [State.page_signal]; skip]); skip] <;> split <;> simp

/-- An update of a page's header reaches that header alone. -/
theorem State.page_updPage (s : State) (p q : Nat) (f : PageHdr → PageHdr) :
    (s.updPage p f).page q = if q = p then f (s.page p) else s.page q := by
  simp only [State.updPage, State.page_signalRise, State.page_setPage]

@[simp] theorem State.page_updPage_same (s : State) (p : Nat) (f : PageHdr → PageHdr) : (s.updPage p f).page p = f (s.page p) := by
  simp [State.page_updPage]

theorem State.page_wrote (s : State) (p w q : Nat) :
    (s.wrote p w).page q = if q = p then { s.page p with lastWriter := w } else s.page q := by
  simp only [State.wrote, State.page_setPage]

/-- An update that makes no event pending signals nothing: only the header changes. -/
theorem State.updPage_quiet (s : State) (p : Nat) (f : PageHdr → PageHdr) (h : (f (s.page p)).pend &&& ~~~(s.page p).pend = 0) :
    s.updPage p f = s.setPage p (f (s.page p)) := by
  unfold State.updPage State.signalRise
  simp only [h]
  split <;> simp

end Sys2Proof.Machine
end

