-- ==== Sys2Proof/Tests/Slice0.lean ====
section
/-! SUPPORT. Tests of the model, and for every statement with hypotheses a state and operands that meet them. -/

namespace Sys2Proof.Tests
open Sys2Proof Sys2Proof.Machine

set_option Elab.async false

/-! ## Small states -/

/-- A part whose start-up is complete, out of the safe state, every block OFF. -/
def live : State :=
  { State.reset.setCell R.GLB_BOOT_STATUS 0x1EF with hdr := [], saf := { inSafe := false, onlyPowerOn := false, active := 0 } }

/-- The page is enabled and IDLE. -/
def idleAt (s : State) (p : Nat) : State := s.setPage p { enable := true }

/-- The page is enabled and RUNNING. -/
def runsAt (s : State) (p : Nat) : State := s.setPage p { enable := true, cond := { running := true } }

theorem test_reset_canon : State.reset.canon = true := by decide +kernel

/-! ## Ill-formed commands, one for each kind of bound -/

theorem test_wf_address : Instr.wf (.registerWrite 0 0x1000000 4 [⟨0x40, 0⟩] []) = false := by decide
theorem test_wf_size : Instr.wf (.registerWrite 0 0x40 3 [⟨0x40, 0⟩] []) = false := by decide
theorem test_wf_writer : Instr.wf (.registerWrite 0 0x40 4 [⟨0x20, 0⟩] []) = false := by decide
theorem test_wf_upper_of_word : Instr.wf (.registerWrite 0 0x40 4 [⟨0x40, 0⟩] [⟨0x40, 0⟩]) = false := by decide
theorem test_wf_upper_writer : Instr.wf (.registerWrite 0 0x40 8 [⟨0x40, 0⟩] [⟨0x80, 0⟩]) = false := by decide
theorem test_wf_counter_offset : Instr.wf (.counterWrite 0 0x40 0x42 0x40 0) = false := by decide
theorem test_wf_page : Instr.wf (.pageEnable 0 0x400 0x40 true) = false := by decide
theorem test_wf_slot : Instr.wf (.planLoad 0 0x40 2) = false := by decide
theorem test_wf_mark_seq : Instr.wf (.timeSample 0 0 0x100000000 0) = false := by decide
theorem test_wf_gptp : Instr.wf (.timeSample 0 0 0 0x10000000000000000) = false := by decide
theorem test_wf_stage : Instr.wf (.stageComplete 0 1024) = false := by decide
theorem test_wf_lane : Instr.wf (.losEnter 0 8 []) = false := by decide
theorem test_wf_sample : Instr.wf (.fragmentHeader 0 0 [⟨⟨32, 0⟩, ⟨0, 0⟩⟩]) = false := by decide
theorem test_wf_instant : Instr.wf (.indexFieldLocated 0 0 [] (2 ^ 64)) = false := by decide
theorem test_wf_engine : Instr.wf (.retryStepStart 0 2) = false := by decide
theorem test_wf_tile : Instr.wf (.tileFence 0 64) = false := by decide
theorem test_wf_unit : Instr.wf (.tileOpComplete 0 0 16 false) = false := by decide
theorem test_wf_read_line : Instr.wf (.churnRead 0 60 8) = false := by decide
theorem test_wf_write_line : Instr.wf (.churnWrite 0 60 [0, 0, 0, 0, 0] false) = false := by decide
theorem test_wf_add_line : Instr.wf (.churnAdd32 0 32 1 [0] false) = false := by decide
theorem test_wf_add_mask : Instr.wf (.churnAdd32 0 0 65536 [0] false) = false := by decide
theorem test_wf_addends : Instr.wf (.churnAdd32 0 0 1 (List.replicate 17 0) false) = false := by decide
theorem test_wf_merge_place : Instr.wf (.summaryMerge 0 16 (List.replicate 32 0) false) = false := by decide
theorem test_wf_merge_length : Instr.wf (.summaryMerge 0 32 (List.replicate 64 0) false) = false := by decide
theorem test_wf_dequant_address : Instr.wf (.churnDequant 0 (2 ^ 48) 0 1) = false := by decide
theorem test_wf_pool_mode : Instr.wf (.churnPool 0 [0] 0 1 4) = false := by decide
theorem test_wf_channel : Instr.wf (.scrubLine 0 8 0 []) = false := by decide
theorem test_wf_mr4 : Instr.wf (.scrubLine 0 0 16 []) = false := by decide
theorem test_wf_upset : Instr.wf (.scrubLine 0 0 0 [⟨false, 2 ^ 30, true⟩]) = false := by decide
theorem test_wf_table : Instr.wf (.etuDefine 0 0x40 256) = false := by decide
theorem test_wf_port : Instr.wf (.grfRead 0 8) = false := by decide
theorem test_wf_node : Instr.wf (.lostSet 0 0x40 32768) = false := by decide
theorem test_wf_direction : Instr.wf (.grfExchange 0 0 0 6 0 0) = false := by decide
theorem test_wf_flit : Instr.wf (.dataFlit 0 0 0 [0]) = false := by decide
theorem test_wf_level : Instr.wf (.dataFlit 0 0 0 (List.replicate 340 4)) = false := by decide +kernel
theorem test_wf_link_lanes : Instr.wf (.laneLockLost 0 0 16) = false := by decide
theorem test_wf_barrier : Instr.wf (.barArrive 0 0x40 16) = false := by decide
theorem test_wf_function : Instr.wf (.vfFlr 0 64) = false := by decide
theorem test_wf_tail : Instr.wf (.ringTailWrite 0 0 0 0 [] 65536) = false := by decide
theorem test_wf_bar_write : Instr.wf (.ringTailWrite 0 0 0 0 [⟨2 ^ 40, [0]⟩] 1) = false := by decide
theorem test_wf_context : Instr.wf (.jobNop 0 4096 0) = false := by decide
theorem test_wf_ring : Instr.wf (.jobNop 0 0 2) = false := by decide
theorem test_wf_vector : Instr.wf (.msixUnmask 0 0 32) = false := by decide
theorem test_wf_private_slot : Instr.wf (.privateSlotFree 0 0 0 8) = false := by decide
theorem test_wf_private_bytes : Instr.wf (.privatePost 0 0 0 0 60 [0, 0, 0, 0, 0]) = false := by decide
theorem test_wf_policy : Instr.wf (.privPolicyWrite 0 0x40 128 0) = false := by decide
theorem test_wf_mailbox : Instr.wf (.mbTake 0 0x40 256 0) = false := by decide
theorem test_wf_mailbox_bytes : Instr.wf (.mailboxSend 0 .harvest 0 61 [0, 0, 0, 0]) = false := by decide
theorem test_wf_receiver : Instr.wf (.dbRing 0 0x40 129 0) = false := by decide
theorem test_wf_mailbox_register : Instr.wf (.mbxCfgWrite 0 0x40 0x4C 0) = false := by decide
theorem test_wf_reset_key : Instr.wf (.rstResetReq 0 0x40 0x10000 1) = false := by decide
theorem test_wf_reset_bit : Instr.wf (.rstResetReq 0 0x40 0 2) = false := by decide
theorem test_wf_temperatures : Instr.wf (.thermalScan 0 [] (List.replicate 12 0)) = false := by decide
theorem test_wf_rails : Instr.wf (.thermalScan 0 (List.replicate 32 0) []) = false := by decide
theorem test_wf_domain : Instr.wf (.clockMonitorFault 0 3) = false := by decide
theorem test_wf_rail : Instr.wf (.voltageWindowFault 0 12 0) = false := by decide
theorem test_wf_shock_result : Instr.wf (.shockSample 0 3 0 0 0) = false := by decide
theorem test_wf_update_key : Instr.wf (.updStage 0 0x40 4 []) = false := by decide
theorem test_wf_nonce : Instr.wf (.dbgChallenge 0 (2 ^ 256)) = false := by decide
theorem test_wf_response : Instr.wf (.dbgResponse 0 [0]) = false := by decide
theorem test_wf_debug_address : Instr.wf (.dbgReg 0 0x1000000 true 0) = false := by decide
theorem test_wf_persistent_word : Instr.wf (.persistWrite 0 0x220 504 [] []) = false := by decide
theorem test_wf_persistent_writer : Instr.wf (.persistWrite 0 0x220 0 [⟨0, 0⟩] []) = false := by decide
theorem test_wf_channels : Instr.wf (.wakeDone 0 [8]) = false := by decide
theorem test_wf_sensor : Instr.wf (.hwThermalTrip 0 32 0) = false := by decide
theorem test_wf_pair : Instr.wf (.redundDecision 0 4 0) = false := by decide
theorem test_wf_target : Instr.wf (.injArm 0 0x40 256 0) = false := by decide
theorem test_wf_instance : Instr.wf (.injArm 0 0x40 0 64) = false := by decide
theorem test_wf_cause : Instr.wf (.powerOnReset 0 3 true 0 true true [] [] ⟨0, 0⟩) = false := by decide
theorem test_wf_store_form : Instr.wf (.powerOnReset 0 0 true 3 true true [] [] ⟨0, 0⟩) = false := by decide
theorem test_wf_capacity : Instr.wf (.powerOnReset 0 0 true 0 true true [] [] ⟨3, 0⟩) = false := by decide
theorem test_wf_rate : Instr.wf (.dramTrainingDone 0 [] [4]) = false := by decide
theorem test_wf_link_width : Instr.wf (.hostConfigReady 0 1 3 {}) = false := by decide
theorem test_wf_device_bit : Instr.wf (.deviceResetRequest 0 0x40 0 2) = false := by decide
theorem test_wf_tiles : Instr.wf (.startupTileTestDone 0 [64]) = false := by decide
theorem test_wf_functions : Instr.wf (.vfEnableWrite 0 true 64) = false := by decide
theorem test_wf_window : Instr.wf (.bar4Write 0 0x8000000 [0]) = false := by decide
theorem test_wf_good : Instr.wf (.registerWrite 0 0x48 8 [⟨0x40, 7⟩] [⟨0x40, 7⟩]) = true := by decide
theorem test_wf_good_merge : Instr.wf (.summaryMerge 0 32 (List.replicate 32 0) false) = true := by decide

/-- A state whose queue holds one command. -/
def queued : State := { State.reset with pending := [.tick 1] }

theorem witness_StepRunsFrontCommand : queued.pending = .tick 1 :: [] ∧ State.reset.pending = [] := by decide

/-- An arrival of a write by the physical function at an enabled Separator. -/
def sepLive : State := (idleAt live 0x040).arriveBy 0 0x40

theorem witness_SingleWriteReachesRegister :
    0x70 < 0x1000 ∧ 0x70 % 4 = 0 ∧ 0x70 % 8 = 0 ∧ hasAcc 0x040 0x70 .clr = true ∧ 0x040 ∈ [0x040, 0x050, 0x060, 0x061]
      ∧ (0x40 : Nat) ≤ 0x70 ∧ sepLive.admits 0x040 0x70 0x40 1 = true ∧ hasAcc 0x040 0x70 .rws = false
      ∧ sepLive.lockedOut 0x040 0x70 0x40 = false ∧ regFields 0x040 0x70 = [⟨31, 0, .clr⟩] := by decide +kernel

theorem witness_FieldAccessTypes : (⟨7, 4, .rw1c⟩ : FieldDef).lo ≤ 7 ∧ (⟨7, 4, .rw1c⟩ : FieldDef).hi < 32
    ∧ ((⟨7, 4, .rw1c⟩ : FieldDef).take 0xFF 0x50) = 0xAF := by decide

/-- The Separator in SOFT_RESET. -/
def sepResetting : State := (live.setPage 0x040 { enable := true, softReset := true }).arriveBy 0 0x40

theorem witness_WritesDiscarded :
    (2 ≠ 4 ∨ 0x70 % 4 ≠ 0) ∧ (2 ≠ 8 ∨ 0x70 % 8 ≠ 0) ∧ pageInfo 0x0E0 = none
      ∧ ((sepResetting.page (statePage 0x040)).softReset = true ∧ sepResetting.boot.resetPending = false ∧ sepResetting.lowPower = false
        ∧ sepResetting.flag F.GLB_BOOT_STATUS_FW_READY = true)
      ∧ (sepLive.portCheck 0x040 0x40 0x40 = none ∧ sepLive.encodingBad 0x040 0x40 3 = some 0)
      ∧ (live.portCheck 0x134 0x4C 0x41 = none ∧ Writer.isVf 0x41 = true)
      ∧ ((live.setPage 0x160 { cond := { safe := true } }).portCheck 0x134 0x4C 0x40 = none
        ∧ (live.setPage 0x160 { cond := { safe := true } }).pstate 0x160 = St.safe) := by decide +kernel

theorem witness_WritesOfOneCycleArbitrated :
    (0x50 : Nat) < 0x1000 ∧ 0x50 % 4 = 0 ∧ (⟨0x40, 1⟩ : RegWrite).writer ≠ (⟨0x01, 2⟩ : RegWrite).writer
      ∧ sepLive.takesPart 0x040 0x50 0x40 1 = true ∧ sepLive.takesPart 0x040 0x50 0x01 2 = true
      ∧ writerRank (hasAcc 0x040 0x50 .rws) 0x40 < writerRank (hasAcc 0x040 0x50 .rws) 0x01 ∧ sepLive.lockedOut 0x040 0x50 0x01 = false := by decide +kernel

/-- The Separable-convolution unit's page with the given conditions. -/
def scvAt (enable : Bool) (c : Cond) : State := (live.setPage 0x060 { enable := enable, cond := c }).arriveBy 0 0x40

theorem witness_EnableMovesState :
    (scvAt false { off := true }).admits 0x060 0x08 0x40 (ctrlValue true false false) = true
      ∧ (scvAt false { off := true }).ctrlRule 0x060 0x40 (ctrlValue true false false) = none
      ∧ (∀ c ∈ [({} : Cond), { waiting := true }, { armed := true }, { running := true }, { frozen := true }],
          (scvAt true c).admits 0x060 0x08 0x40 (ctrlValue false false false) = true
            ∧ (scvAt true c).ctrlRule 0x060 0x40 (ctrlValue false false false) = none ∧ (scvAt true c).pageWork 0x060 = false)
      ∧ ({ scvAt true { frozen := true } with frm := { running := [⟨1, 1, [], 0, 0, 0, 0, false, 0, 0, 0, 0, false, none, [], [], false⟩] } }).pageWork
          0x060 = true := by decide +kernel

/-- The Harvester's page IDLE. -/
def hrvIdle : State := (idleAt live 0x050).arriveBy 0 0x40

theorem witness_SoftResetOfAnInstance :
    hasCtrl 0x050 = true ∧ hrvIdle.admits 0x050 0x08 0x40 (ctrlValue true true false) = true
      ∧ hrvIdle.ctrlRule 0x050 0x40 (ctrlValue true true false) = none ∧ (hrvIdle.page 0x050).softReset = false
      ∧ ((live.setPage 0x050 { enable := true, softReset := true, cond := { fault := true } }).page 0x050).cond = { fault := true } := by
  decide +kernel

theorem witness_FreezeAndThaw :
    hasCtrl 0x060 = true ∧ (scvAt true {}).admits 0x060 0x08 0x40 (ctrlValue true false true) = true
      ∧ (scvAt true {}).ctrlRule 0x060 0x40 (ctrlValue true false true) = none
      ∧ ((live.setPage 0x060 { enable := true, freeze := true, cond := { frozen := true } }).arriveBy 0 0x40).admits 0x060 0x08 0x40
          (ctrlValue true false false) = true
      ∧ ((live.setPage 0x060 { enable := true, freeze := true, cond := { running := true } }).arrive 0).atSafePoint 0x060 = true := by
  decide +kernel

/-- Frames are paced. -/
def paced : State := (idleAt (runsAt live 0x010) 0x060).arriveBy 0 0x40

theorem witness_FreezeInFrameDiscarded :
    hasCtrl 0x060 = true ∧ 2 ≤ pageType 0x060 ∧ pageType 0x060 ≤ 9 ∧ paced.pstate 0x010 = St.running ∧ paced.frm.freeRun = false
      ∧ paced.portCheck 0x060 0x08 0x40 = none ∧ (4 : Word).getLsbD 2 = true := by decide +kernel

theorem witness_ErrorsRecorded : (live.page 0x040).errCode = 0 ∧ ((live.error 0x040 0x1001 0).page 0x040).errCode ≠ 0 := by decide +kernel

theorem witness_ErrorsReachTheLog : live.fld F.MBX_RST_RX_STATE < 2 ∨ live.logQueue.length < 64 := by decide +kernel

theorem witness_ErrorsReachTheLog_full :
    let s := { live.setFld F.MBX_RST_RX_STATE 2 with logQueue := List.replicate 64 ⟨0, 0, 0, 0, false, 0⟩ }
    2 ≤ s.fld F.MBX_RST_RX_STATE ∧ 64 ≤ s.logQueue.length := by decide +kernel

theorem witness_EventPendClears :
    sepLive.admits 0x040 0x18 0x40 1 = true ∧ (sepLive.risen (0x040 * 0x1000 + 0x10)).getLsbD 0 = false
      ∧ ((((idleAt live 0x040).event 0x040 0).arriveBy 0 0x40).risen (0x040 * 0x1000 + 0x10)).getLsbD 0 = true := by decide +kernel

theorem witness_ErrorCleared :
    let b := ((idleAt live 0x040).error 0x040 0x1001 0).arriveBy 1 0x40
    let e := (((idleAt live 0x040).error 0x040 0x1001 0).arriveBy 1 0x40).error 0x040 0x2013 5
    let x : CycErr := { page := 0x040, code := 0x2013, info := 5, before := 0x1001 }
    b.admits 0x040 0x1C 0x40 0x1001 = true ∧ b.cycErrs 0x040 = [] ∧ getBits (0x1001 : Word) 15 0 = (b.page 0x040).errCode
      ∧ getBits (0x1002 : Word) 15 0 ≠ (b.page 0x040).errCode
      ∧ (e.arriveBy 0 0x40).admits 0x040 0x1C 0x40 0x1001 = true ∧ (e.arriveBy 0 0x40).cycErrs 0x040 = x :: []
      ∧ getBits (0x1001 : Word) 15 0 = x.before ∧ x.code ≠ 0 ∧ (e.arriveBy 0 0x40).admits 0x040 0x1C 0x40 0x2013 = true
      ∧ getBits (0x2013 : Word) 15 0 ≠ x.before := by decide +kernel

/-- The Separator's page locked by virtual function 1. -/
def sepLocked : State := (live.setPage 0x040 { enable := true, lockHeld := true, lockOwner := 0x41, lockSeq := 65535 }).arriveBy 0 0x41

theorem witness_LockOperations :
    sepLocked.portCheck 0x040 0x28 0x41 = none ∧ sepLocked.portCheck 0x040 0x28 0x01 = none ∧ (sepLocked.page 0x040).lockHeld = true
      ∧ (sepLocked.page 0x040).lockOwner = 0x41 ∧ (sepLive.page 0x040).lockHeld = false ∧ pageType 0x040 ≠ 3
      ∧ sepLive.portCheck 0x040 0x28 0x40 = none ∧ (sepLocked.arrive 0).nowCyc.abandoned.contains 0x040 = false
      ∧ ((live.setPage 0x040 { lockHeld := true, lockOwner := 0x41, lockAbandoned := true }).page 0x040).lockAbandoned = true := by
  decide +kernel

theorem test_lock_seq_wraps : ((sepLocked.abandonLock 0x040).page 0x040).lockSeq = 0 := by decide +kernel

theorem witness_LockProtectsFields :
    sepLocked.admits 0x040 0x50 0x41 0x1000 = true ∧ (sepLocked.page 0x040).lockOwner = 0x41
      ∧ (sepLocked.admits 0x040 0x50 0x40 0x1000 = true ∧ (sepLocked.page 0x040).lockOwner ≠ 0x40)
      ∧ (sepLive.admits 0x040 0x50 0x40 0x1000 = true ∧ (sepLive.page 0x040).lockHeld = false ∧ (sepLive.page 0x040).lockAbandoned = false)
      ∧ ((live.setPage 0x040 { lockAbandoned := true }).admits 0x040 0x50 0x40 0x1000 = true) := by decide +kernel

/-- Page 0x0D0 waits for a resource that nothing holds. -/
def waiting : State := { live.setPage 0x0D0 { enable := true, cond := { waiting := true } } with waiters := [⟨0x0D0, 0x1000, St.running, false, 0⟩] }

theorem witness_ResourceGranted : (waiting.arrive 0).nextGrant = some ⟨0x0D0, 0x1000, St.running, false, 0⟩ ∧ pageType 0x0D0 ≠ 3 ∧ pageType 0x0D0 ≠ 10
    ∧ (((waiting.arrive 0).grantOne ⟨0x0D0, 0x1000, St.running, false, 0⟩).waiters.any (fun x => x.page == 0x0D0)) = false := by decide +kernel

/-- A small plan of 100 ms. -/
def smallPlan : Plan := { addr := 0x1000, hdr := { modes := 3, levels := 8, compiledTiles := 64, periodUs := 100000, budgetUs := 90000, floorMhz := 1000 } }

/-- A part that is ready to START in FRAME_LOCKED: a plan is loaded, the voltage and the DRAM suffice. -/
def ready : State :=
  ((((((idleAt (idleAt live 0x010) 0x040).setCell R.RST_STATUS 0).setFld F.RST_STATUS_VERSION_OK 1).setCell R.FRM_PLAN_STATUS 0x8).setFld
    (F.RST_VMON_MV 0) 1200).setFld F.FRM_PERIOD_US_PERIOD 100000).updFrm (fun f => { f with planA := smallPlan })

theorem witness_RunStartsAndStops :
    let b := ready.arriveBy 0 0x40
    let n := ((live.setPage 0x010 { enable := true }).setFld F.RST_STATUS_VERSION_OK 1).arriveBy 0 0x40
    b.admits 0x010 0x48 0x40 1 = true ∧ b.untested = false ∧ b.pstate 0x010 = St.idle ∧ b.saf.releasedAt ≠ some b.cycles ∧ b.lockStops 0x010 = false
      ∧ b.activeLoaded = true ∧ b.setCoreMax.startFault = none
      ∧ n.admits 0x010 0x48 0x40 1 = true ∧ n.untested = false ∧ n.pstate 0x010 = St.idle ∧ n.saf.releasedAt ≠ some n.cycles
      ∧ n.lockStops 0x010 = false ∧ n.activeLoaded = false
      ∧ ((runsAt ready 0x010).arriveBy 0 0x40).admits 0x010 0x48 0x40 1 = true ∧ ((runsAt ready 0x010).arriveBy 0 0x40).untested = false
      ∧ ((runsAt ready 0x010).arriveBy 0 0x40).pstate 0x010 ≠ St.idle
      ∧ ((ready.setPage 0x010 { enable := true, lockAbandoned := true }).arriveBy 0 0x40).lockStops 0x010 = true
      ∧ ((ready.setFld F.FRM_MODE 1).arriveBy 0 0x40).flag F.FRM_MODE = true := by decide +kernel

theorem witness_RunStartsAndStops_free :
    let c := (ready.arriveBy 0 0x40).setCoreMax.startSample.enableTiles
    c.blockedBy 0x010 c.runResources = [] := by decide +kernel

theorem witness_RunStartsAndStops_stop :
    let b := (runsAt live 0x010).arriveBy 0 0x40
    b.admits 0x010 0x48 0x40 2 = true ∧ (b.page 0x010).cond = { running := true } ∧ (b.page 0x010).enable = true ∧ b.frm.closing = none
      ∧ (((idleAt live 0x010).arriveBy 0 0x40).page 0x010).cond = {} ∧ ((idleAt live 0x010).arriveBy 0 0x40).admits 0x010 0x48 0x40 2 = true := by
  decide +kernel

/-- Slot 0 is active and loaded, slot 1 loaded too. -/
def twoPlans : State := ((ready.setCell R.FRM_PLAN_STATUS 0x28).updFrm (fun f => { f with planB := smallPlan }))

theorem witness_PlanSlots :
    let b := twoPlans.arriveBy 0 0x40
    let r := (runsAt twoPlans 0x010).arriveBy 0 0x40
    let e := (runsAt ready 0x010).arriveBy 0 0x40
    (b.admits 0x010 0x58 0x40 (word 3) = true ∧ b.flag F.FRM_PLAN_STATUS_LOAD_BUSY = false ∧ 1 ≠ b.fld F.FRM_PLAN_STATUS_ACTIVE_SLOT
        ∧ b.fuses.failed = false)
      ∧ (r.admits 0x010 0x58 0x40 (word 2) = true ∧ 0 = r.fld F.FRM_PLAN_STATUS_ACTIVE_SLOT ∧ r.pstate 0x010 ≠ St.idle)
      ∧ ((twoPlans.setFld F.FRM_PLAN_STATUS_LOAD_BUSY 1).arriveBy 0 0x40).flag F.FRM_PLAN_STATUS_LOAD_BUSY = true
      ∧ b.admits 0x010 0x58 0x40 (word 7) = true ∧ (b.admits 0x010 0x58 0x40 (word 6) = true ∧ 0 = b.fld F.FRM_PLAN_STATUS_ACTIVE_SLOT)
      ∧ (b.admits 0x010 0x58 0x40 4 = true ∧ b.fld (planSlotState 1) = 2 ∧ b.paced = false)
      ∧ (r.paced = true ∧ (r.planOf 1).hdr.periodUs = r.activePlan.hdr.periodUs)
      ∧ (e.admits 0x010 0x58 0x40 4 = true ∧ e.fld (planSlotState 1) ≠ 2)
      ∧ ((r.updFrm (fun f => { f with planB := {} })).paced = true ∧ (({} : Plan).hdr.periodUs ≠ r.activePlan.hdr.periodUs)) := by decide +kernel

/-- A SWITCH waits for the first frame whose tick comes after the write. -/
def switchWaits : State := (twoPlans.setFld F.FRM_PLAN_STATUS_SWITCH_PENDING 1).updFrm (fun f => { f with switchAt := 900 })

/-- The plan of slot 1 no longer has its CRC. -/
def spoiled : State := twoPlans.updFrm (fun f => { f with planB := { smallPlan with hdr := { smallPlan.hdr with totalSize := 64, crc := 1 } } })

/-- The plan of slot 1 has its CRC. -/
def sound : State :=
  twoPlans.updFrm (fun f => { f with planB := { smallPlan with hdr := { smallPlan.hdr with totalSize := 64, crc := crc32 (List.replicate 64 0) } } })

/-- The plan of slot 0, which is active, no longer has its CRC; `busy` says that a frame is in compute. -/
def spoiledActive (busy : Bool) : State :=
  ready.updFrm (fun f => { f with
    planA := { smallPlan with hdr := { smallPlan.hdr with totalSize := 64, crc := 1 } }, compute := if busy then some {} else none })

theorem witness_PlanSlots_done :
    let l := (twoPlans.setFld F.FRM_PLAN_STATUS_LOAD_BUSY 1).arrive 0
    switchWaits.fld F.FRM_PLAN_STATUS_ACTIVE_SLOT < 2 ∧ switchWaits.switchDue { tickAt := 1000 } = true
      ∧ l.flag F.FRM_PLAN_STATUS_LOAD_BUSY = true ∧ l.frm.loadSlot = 0 ∧ (twoPlans.arrive 0).flag F.FRM_PLAN_STATUS_LOAD_BUSY = false
      ∧ (spoiled.arrive 0).fld (planSlotState 1) = 2 ∧ ((spoiled.arrive 0).planCorrupt 1).1 = true ∧ 1 ≠ (spoiled.arrive 0).fld F.FRM_PLAN_STATUS_ACTIVE_SLOT
      ∧ (∀ busy ∈ [false, true], ((spoiledActive busy).arrive 0).fld (planSlotState 0) = 2 ∧ (((spoiledActive busy).arrive 0).planCorrupt 0).1 = true
        ∧ 0 = ((spoiledActive busy).arrive 0).fld F.FRM_PLAN_STATUS_ACTIVE_SLOT ∧ ((spoiledActive busy).arrive 0).frm.compute.isSome = busy)
      ∧ (sound.arrive 0).fld (planSlotState 1) = 2 ∧ ((sound.arrive 0).planCorrupt 1).1 = false := by decide +kernel

/-- Frames are paced at 100 ms, 50 ms after the last tick. -/
def pacedAt (ext : Bool) (after : Nat) : State :=
  { (runsAt ready 0x010).updFrm (fun f => { f with extTick := ext, lastTickAt := 1000, lastTickTs := 5000 }) with
    cycles := 1000 + after, timebase := 5000 + 5 * after }

theorem witness_TicksMade :
    let due := (pacedAt false 20000000).arrive 0
    due.ticking = true ∧ due.frm.extTick = false ∧ 0 < 1000 * due.fld F.FRM_PERIOD_US_PERIOD
      ∧ (due.frm.lastTickTs + 100000000 - due.frm.phaseNs) / 100000000 < (due.timebase + 100000000 - due.frm.phaseNs) / 100000000
      ∧ ((pacedAt false 10000000).arrive 0).timebase / 100000000 = 0 := by decide +kernel

theorem witness_TicksMade_edges :
    let ext := fun n => ((pacedAt true n).setCell R.GLB_GPIO_FUNC_A 1).arrive 0
    (ext 20000000).ticking = true ∧ (ext 20000000).pinSees 1 = true ∧ (ext 20000000).frm.beforeTick0 = false
      ∧ (ext 20000000).frm.syncLost = false ∧ (ext 20000000).periodCycles = 20000000
      ∧ 98 * 20000000 ≤ 100 * ((ext 20000000).cycles - (ext 20000000).frm.lastTickAt)
      ∧ 102 * 20000000 ≤ 100 * ((ext 20400000).cycles - (ext 20400000).frm.lastTickAt)
      ∧ 100 * ((ext 19000000).cycles - (ext 19000000).frm.lastTickAt) < 98 * 20000000 := by decide +kernel

theorem witness_IngestOpensWithTheNextNumber :
    ((pacedAt false 20000000).arrive 0).ticking = true ∧ ((pacedAt false 20000000).arrive 0).frm.ingest = none
      ∧ ((pacedAt false 20000000).arrive 0).nextNum = 1 := by decide +kernel

theorem witness_TimeFromTheHost :
    ((ready.setCell R.GLB_GPIO_FUNC_A 2).arrive 0).pinSees 2 = true ∧ (ready.arrive 0).fld F.FRM_MARK_SEQ = 0
      ∧ (ready.arrive 0).frm.sampled = false ∧ (ready.arrive 0).fld F.FRM_TIME_STATE = 0 ∧ (ready.arrive 0).framePaced = false
      ∧ ((runsAt ready 0x010).arrive 0).framePaced = true
      ∧ ((ready.setFld F.FRM_TIME_STATE 2).arrive 800000000).fld F.FRM_TIME_STATE = 2
      ∧ (ready.arrive 800000000).frm.sampleAt + 800000000 ≤ (ready.arrive 800000000).cycles := by decide +kernel

/-- A paced frame in compute whose tick was at cycle 1,000. -/
def inCompute (g : Frame) (after : Nat) : State :=
  (pacedAt false after).updFrm (fun f => { f with compute := some { g with num := 7, tickAt := 1000, plan := smallPlan } })

theorem witness_FramePhasesEnd :
    let a := (((inCompute {} 50000).updFrm (fun f => { f with drainOpen := true })).arrive 0)
    a.frm.drainOpen = true ∧ a.frm.lastTickAt + 50000 ≤ a.cycles ∧ ((inCompute {} 100).arrive 0).frm.compute.isSome = true
      ∧ ((inCompute {} 100).arrive 0).frm.drainOpen = false ∧ ((inCompute {} 100).arrive 0).leftover { num := 7 } = 0
      ∧ 1000 + 80000 ≤ ((inCompute {} 80000).arrive 0).cycles
      ∧ (((inCompute {} 100).arrive 0).lacksBank).isSome = true ∧ (ready.arrive 0).lacksBank = none
      ∧ 1000 + 200 * smallPlan.hdr.budgetUs < ((inCompute {} 18000001).arrive 0).cycles
      ∧ (({ thinned := true, fineBank := some 1, coarseBank := some 2 } : Frame).admittedBank = some 1) := by decide +kernel

/-- A frame of a plan with every level and no stages. -/
def cheapFrame : Frame := { plan := { smallPlan with hdr := { smallPlan.hdr with levels := 15 } } }

/-- CORE runs, the last frame was admitted at L2, and two frames in a row had time to spare. -/
def runningCore : State := (ready.setFld F.GLB_CLOCK_STATUS_CORE_MHZ 1000).updFrm (fun f => { f with cur := 2, streak := 2 })

theorem witness_AdmissionFitsTheBudget : runningCore.fld F.GLB_CLOCK_STATUS_CORE_MHZ ≠ 0 ∧ (runningCore.chooseLevel cheapFrame).1 < 3
    ∧ (runningCore.chooseLevel cheapFrame).1 < runningCore.frm.cur := by decide +kernel

/-- A stage of KIND 0 on tile 0, and a committed frame whose plan has it. -/
def oneStage (cond : Cond) : State :=
  ((pacedAt false 100).setPage 0x080 { enable := true, cond := cond }).updFrm (fun f => { f with compute := some {
    num := 7, plan := { smallPlan with stages := [{ levels := 15, tileFirst := 0, tileSpan := 1, descs := [0, 0, 0, 0] }] },
    admitted := true, committed := true, level := 3 } })

theorem witness_StagesRun :
    (((oneStage {}).arrive 0).frm.compute.map (fun f =>
      let a := (oneStage {}).arrive 0
      let l := (f.plan.numbered.filter (a.ready f)).map (fun x => a.runOf f x.1 x.2)
      ((l.find? (fun r => a.canStart r && !a.anyGated r)).map (fun r => (r.stage, r.kind)), f.committed, f.truncated))) = some (some (0, 0), true, false)
    ∧ (((oneStage { gated := true }).arrive 0).frm.compute.map (fun f =>
      let a := (oneStage { gated := true }).arrive 0
      let l := (f.plan.numbered.filter (a.ready f)).map (fun x => a.runOf f x.1 x.2)
      ((l.find? (fun r => a.canStart r && !a.anyGated r)).isNone, (l.find? a.canStart).isSome))) = some (true, true) := by decide +kernel

theorem witness_StagesRun_complete :
    let a := (((oneStage {}).updFrm (fun f => { f with running := [⟨0, 1, [], 0, 0, 0, 3, false, 0, 0, 0, 0, false, none, [], [], true⟩] })).arrive 0)
    (a.runStage 0).map (fun r => a.stageFinished r) = some true := by decide +kernel

theorem witness_FramesPublished :
    let f : Frame := { num := 7, plan := smallPlan, truncated := true, frozen := true }
    let a := ((pacedAt false 100).updFrm (fun r => { r with compute := some f })).arrive 0
    a.frm.compute = some f ∧ a.computeOver f = true ∧ f.doomed = none ∧ a.injected 0x0B 0 = none
      ∧ ((a.writeOut (resultAddr f.set 0) (a.headerBytes f)).fetch (resultAddr f.set 0) f.plan.hdr.resultBytes).1.poison = false
      ∧ (a.computeOver { f with truncated := false, committed := false } = false) := by decide +kernel

/-- A FRAME job waits in context 0 while the Frame Scheduler is ARMED in FREE_RUN. -/
def frameJobWaits : State :=
  { (ready.setPage 0x010 { enable := true, cond := { armed := true } }).updFrm (fun f => { f with freeRun := true }) with
    hif := { jobs := [(0, some { opc := 4, phase := 1, bytes := List.replicate 64 0 })] } }

theorem witness_FramesPublished_job :
    let a := frameJobWaits.arrive 0
    (a.job 0 0).map (fun j => (j.opc, j.phase)) = some (4, 1) ∧ a.frm.freeRun = true ∧ a.pstate 0x010 = St.armed ∧ a.frm.compute = none
      ∧ a.mayWork 0x010 = true ∧ (a.page 0x040).pausing = false ∧ a.nextFrameJob = some (0 * 2 + 0) ∧ a.coreMayChange = true ∧ a.pwr.tripped = false ∧ a.corePowered = true := by decide +kernel

/-- A point of frame 7, which is in ingest with both its banks, waits. -/
def pointWaits : State :=
  ({ sepLive with sep := { sepLive.sep with inbox := [{ pt := {}, firing := 0, frame := 7 }] } }).updFrm (fun f => { f with
    ingest := some { num := 7, fineBank := some 0, coarseBank := some 1 } })

theorem witness_PointsAreBinned :
    let a := pointWaits.arrive 0
    let b := a.updSep (fun q => { q with inbox := [] })
    let d : Delivered := { pt := {}, firing := 0, frame := 7 }
    (a.page 0x040).cond.frozen = false ∧ (a.page 0x040).cond.safe = false ∧ (a.page 0x040).cond.fault = false
      ∧ a.stagedFrame = none ∧ a.sep.inbox = d :: [] ∧ b.acceptsPoints 7 = true
      ∧ (b.liveFrame 7).map (fun f => (f.sepOff, f.fineBank, f.coarseBank)) = some (false, some 0, some 1)
      ∧ b.sep.exclude = false ∧ b.sep.cell0 (-1) 0 0 = none
      ∧ ((a.updFrame 7 (fun f => { f with staged := [d] })).stagedFrame).map (fun f => (f.staged, f.fineBank, f.coarseBank)) = some ([d], some 0, some 1)
      ∧ ((b.updFrame 7 (fun f => { f with fineBank := none })).liveFrame 7).any (fun f => f.fineBank.isNone) = true
      ∧ (b.updSep (fun q => { q with cfg := 256 })).sep.exclude = true ∧ bitOf ({ pflags := 1 } : PointRec).pflags 0 = true := by decide +kernel

theorem witness_PointsAreBinned_late :
    let b := ((pacedAt false 100).updFrm (fun f => { f with lastNum := 9 })).arrive 0
    b.acceptsPoints 7 = false ∧ b.windowOver 7 = true := by decide +kernel

/-- A unit quaternion is staged, with TS 1. -/
def poseStaged : State := ((sepLive.setCell (R.SEP_POSE_STAGE 0) 1).setCell (R.SEP_POSE_STAGE 5) 0x4000)

theorem witness_PointsAreBinned_pose :
    let b := poseStaged.arriveBy 0 0x40
    let bytes := (List.range 8).flatMap (fun k => leBytes 4 (b.cell (R.SEP_POSE_STAGE k)).toNat)
    b.admits 0x041 0x60 0x40 1 = true ∧ b.admits 0x041 0x60 0x40 2 = true ∧ leNat (bytes.drop 0x1C) = 0 ∧ (poseOf bytes).normOk = true
      ∧ (poseOf bytes).ts = 1 ∧ (poseOf []).normOk = false := by decide +kernel

theorem witness_SiteKeysNameCells : (({} : Sep).cell0 128 256 384).map (fun c => packKey c.ix c.iy c.iz) = some (10 * 2 ^ 20 + 20 * 2 ^ 8 + 15) := by decide

/-- Lane 2 enabled and IDLE. -/
def laneIdle : State := (idleAt live 0x028).arriveBy 0 0x40

/-- Lane 2 RUNNING on ring 1. -/
def laneRunning : State := ((runsAt live 0x028).setFld (F.SLK_LANE_CFG_MODE 2) 1).setFld (F.SLK_LANE_CFG_RING 2) 1

theorem witness_LaneLoadsItsZone :
    laneIdle.admitsRwl (ctlPage 2) 0x40 0x40 0x11 = true ∧ (laneIdle.page (ctlPage 2)).enable = true ∧ (laneIdle.page (ctlPage 2)).cond = {}
      ∧ laneIdle.fld (F.SLK_LANE_CFG_MODE 2) = 0 ∧ getBits (0x11 : Word) 1 0 ≠ 0 ∧ laneIdle.lockStops (ctlPage 2) = false
      ∧ laneIdle.blockedBy (ctlPage 2) [phyRes 2] = []
      ∧ (live.arriveBy 0 0x40).laneRuns 2 = false ∧ ((live.arriveBy 0 0x40).page (ctlPage 2)).enable = false
      ∧ (live.arriveBy 0 0x40).admitsRwl (ctlPage 2) 0x40 0x40 0x11 = true
      ∧ (laneRunning.arriveBy 0 0x40).admits (ctlPage 2) 0x48 0x40 1 = true ∧ (laneRunning.arriveBy 0 0x40).laneRuns 2 = true
      ∧ (laneRunning.arriveBy 0 0x40).admits (afePage 2) 0x48 0x40 100 = true
      ∧ (laneRunning.arriveBy 0 0x40).admits (afePage 2) 0x4C 0x40 0x101 = true := by decide +kernel

/-- Lane 2 in acquisition, in tracking, or in an invalid window. -/
def laneIn (f : Field) : State := laneRunning.setFld f 1

/-- The channel of lane 2 is as given. -/
def chanIs (s : State) (c : Chan) : State := s.updLane 2 (fun l => { l with ch := c })

theorem witness_LaneAcquiresAndTracks :
    let a := fun v k => (chanIs (laneIn (F.SLK_LANE_STATUS_ACQ 2)) { acqValid := v, acqChecked := k, acqSum := 0 }).arriveRx 0 2 []
    let z := (chanIs (laneIn (F.SLK_LANE_STATUS_ACQ 2)) { acqValid := 16, acqSum := 16 * (a 0 false).fld (F.SLK_AGC_CFG_AGC_TARGET 2) }).arriveRx 0 2 []
    (a 16 false).acquiring 2 = true ∧ ((a 16 false).lane 2).ch.acqChecked = false ∧ 16 ≤ ((a 16 false).lane 2).ch.acqValid
      ∧ beyondDb ((a 16 false).lane 2).ch.acqSum ((a 16 false).fld (F.SLK_AGC_CFG_AGC_TARGET 2)) = true
      ∧ z.acquiring 2 = true ∧ beyondDb (z.lane 2).ch.acqSum (z.fld (F.SLK_AGC_CFG_AGC_TARGET 2)) = false
      ∧ (a 80 true).acquiring 2 = true ∧ ((a 80 true).lane 2).ch.acqChecked = true ∧ 80 ≤ ((a 80 true).lane 2).ch.acqValid
      ∧ ((a 15 false).lane 2).ch.acqValid < 16 := by decide +kernel

theorem witness_LaneAcquiresAndTracks_running :
    let g := fun v => ((laneIn (F.SLK_LANE_STATUS_TRACK 2)).setFld (F.SLK_DGAIN_GAIN 2) v).arriveRx 0 2 []
    let i := fun k => (chanIs (laneIn (F.SLK_LANE_STATUS_INVALID 2)) { winLeft := k }).arriveRx 0 2 []
    let r := fun c => (chanIs laneRunning c).arriveRx 0 2 []
    let m := (laneIn (F.SLK_LANE_STATUS_LOS 2)).updLane 2 (fun l => { l with ch := { highRun := 1024 } })
    (g 512).stepDue 2 = true ∧ (g 512).fld (F.SLK_DGAIN_GAIN 2) = 512 ∧ (g 128).stepDue 2 = true ∧ (g 128).fld (F.SLK_DGAIN_GAIN 2) = 128
      ∧ (g 256).stepDue 2 = false
      ∧ (i 0).flag (F.SLK_LANE_STATUS_INVALID 2) = true ∧ ((i 0).lane 2).ch.winLeft = 0 ∧ ((i 1).lane 2).ch.winLeft ≠ 0
      ∧ (r {}).laneRuns 2 = true ∧ ((r { regions := [257, 3] }).lane 2).ch.regions = 257 :: [3] ∧ ((r {}).lane 2).ch.regions = []
      ∧ (r {}).flag (F.SLK_LANE_STATUS_LOS 2) = false ∧ ((r { lowRun := 4096 }).lane 2).ch.lowRun = 4096 ∧ ((r {}).lane 2).ch.lowRun < 4096
      ∧ (m.arriveRx 0 2 []).laneRuns 2 = true ∧ (m.arriveRx 0 2 []).flag (F.SLK_LANE_STATUS_LOS 2) = true
      ∧ ((m.arriveRx 0 2 []).lane 2).ch.highRun = 1024
      ∧ ((laneRunning.setFld (F.SLK_FREQ_PPB_FREQ 2) 500000).arriveRx 0 2 []).sfld (F.SLK_FREQ_PPB_FREQ 2) = 500000 := by decide +kernel

/-- Lane 2 tracks and receives. -/
def laneTracks : State := laneIn (F.SLK_LANE_STATUS_TRACK 2)

/-- The last `n` decisions spell `v`, its most significant bit first. -/
def spell (n v : Nat) : List Bool := (List.range n).map (bitOf v)

/-- A header of SEQ 5: its fields with their CRC. -/
def header (fields : Nat) : Nat := fields + 5 + crcBits 16 0x1021 0xFFFF (natBitsMsb 80 (fields + 5)) * 2 ^ 80

/-- Lane 2 with sector timing ready in the window of sector 3, of which IDX 0 and 1 are located. -/
def windowStands (f : Lane → Lane) : State :=
  (laneTracks.setFld (F.SLK_TIMING_READY 2) 1).updLane 2 (fun l => f { l with secNow := some 3, idxLast := some 1, idxTs := [(1, { ts := 100000, az := 8192 })] })

theorem witness_SectorsReceived_mark :
    let a := fun (f : Lane → Lane) => (laneTracks.updLane 2 f).arriveRx 0 2 []
    let m : Lane → Lane := fun l => { l with ch := { dec := (List.range 32).map (bitOf 0xE3B14D69) } }
    (a m).captures 2 = true ∧ (a m).flag (F.SLK_LANE_STATUS_TRACK 2) = true ∧ (a m).flag (F.SLK_LANE_STATUS_IN_GAP 2) = false
      ∧ ((a m).lane 2).frag = none ∧ (a m).markFound 2 = true ∧ ((a m).lane 2).secondOpen = false ∧ ((a m).lane 2).buffers < 2 ∧ (a m).slotsUsed < 204
      ∧ (a (fun l => { m l with secondOpen := true, open1 := [{}] })).markFound 2 = true
      ∧ (a (fun l => { m l with secondOpen := true, open1 := [{}] })).captures 2 = true ∧ (a id).markFound 2 = false := by decide +kernel

theorem witness_SectorsReceived_header :
    let c := fun h => { n := 400, dec := spell 96 h ++ spell 96 h : Chan }
    let f : Frag := { first := ({ n := 400 } : Chan).decNo - 191 }
    let w : Sector := { seq := 5, firstLen := 1024 }
    let a := fun (h : Nat) (f : Frag) =>
      ((laneTracks.setFld (F.SLK_TIMING_READY 2) 1).updLane 2 (fun l => { l with ch := c h, frag := some f, open1 := [w] })).arriveRx 0 2 []
    let whole := header (18432 * 2 ^ 33)
    let second := header (17408 * 2 ^ 33 + 1024 * 2 ^ 18 + 2 ^ 17 + 2 ^ 16)
    ((a whole f).lane 2).frag = some f ∧ f.sector = none ∧ ((a whole f).lane 2).ch.copies f.first = some [whole, whole]
      ∧ ((firstHdr [whole, whole] 0).map (fun h => (h.frag, h.split))) = some (false, false)
      ∧ ((a second { f with second := true }).lane 2).ch.copies f.first = some [second, second]
      ∧ ((joinOf [w] [second, second]).map (fun q => (q.1.seq, q.2.split, q.2.frag, q.2.seq))) = some (5, true, true, 5)
      ∧ firstHdr [0, 0] 0 = none ∧ ((a 0 f).lane 2).ch.copies f.first = some [0, 0]
      ∧ (a 0 f).flag (F.SLK_TIMING_READY 2) = true ∧ f.closed = none ∧ ({ f with closed := some (1, none) } : Frag).closed = some (1, none)
      ∧ ((a 0 {  }).lane 2).ch.copies 1000 = none := by decide +kernel

theorem witness_SectorsReceived_window :
    let a := fun f dt => (windowStands f).arriveRx dt 2 []
    (a id 0).flag (F.SLK_TIMING_READY 2) = true ∧ ((a id 0).lane 2).secNow = some 3
      ∧ ((a id 1000000).windowEndAt 2 3).any (fun z => Nat.ble z (a id 1000000).timebase) = true
      ∧ ((a (fun l => { l with got1 := true }) 0).lane 2).got1 = true ∧ ((a id 0).lane 2).hit1 = false
      ∧ (a id 0).laneRuns 2 = true ∧ (a id 0).lanePaused 2 = false ∧ ((a id 0).lane 2).secNow ≠ some 5
      ∧ ((a (fun l => { l with secondOpen := true, hit2 := true }) 400).lane 2).secondOpen = true
      ∧ ((a (fun l => { l with secondOpen := true, hit2 := true }) 400).lane 2).secondAt + 2000 ≤ (a (fun l => { l with secondOpen := true, hit2 := true }) 400).timebase
      ∧ ((a (fun l => { l with secondOpen := true, hit2 := true }) 400).lane 2).frag = none
      ∧ ((a id 0).lane 2).secondOpen = false
      ∧ ((a id 0).lane 2).decoding = [] ∧ ((a (fun l => { l with decoding := [{}] }) 0).lane 2).decoding = {} :: []
      ∧ (a (fun l => { l with decoding := [{}] }) 0).injected 0x0D 2 = none
 := by decide +kernel

/-- Lane 2 runs with sector timing ready, and one of its sectors waits on the ladder. -/
def ladderWaits : State := (laneIn (F.SLK_TIMING_READY 2)).updSlk (fun k => { k with ladder := [(2, { seq := 9, slot := true })] })

/-- An azimuth burst of IDX 1 with its CRC. -/
def burst : Nat := 2 ^ 24 + crcBits 8 0x07 0 (natBitsMsb 32 (2 ^ 24)) * 2 ^ 32

theorem witness_IndexAndLadder_index :
    let w := ladderWaits.updLane 2 (fun l => { l with idxLast := some 1 })
    let gap := w.setFld (F.SLK_LANE_STATUS_IN_GAP 2) 1
    let field := fun v => (gap.updLane 2 (fun l => { l with ch := { dec := List.replicate 232 false ++ spell 40 v ++ spell 40 v ++ spell 40 v ++ spell 32 0x1F35A7C2 } })).arriveRx 0 2 []
    (w.arriveRx 0 2 []).laneRuns 2 = true ∧ (w.arriveRx 0 2 []).flag (F.SLK_TIMING_READY 2) = true ∧ (w.arriveRx 0 2 []).gapDue 2 = true
      ∧ ((ladderWaits.updLane 2 (fun l => { l with idxLast := some 1, idxTs := [(2, { ts := 100000 })] })).arriveRx 0 2 []).gapDue 2 = false
      ∧ (gap.arriveRx 400 2 []).flag (F.SLK_LANE_STATUS_IN_GAP 2) = true ∧ (gap.arriveRx 400 2 []).gapOver 2 = true
      ∧ (gap.arriveRx 0 2 []).gapOver 2 = false ∧ ((gap.arriveRx 400 2 []).lane 2).idxMiss < 7
      ∧ (field burst).rotary 2 = true ∧ (field burst).indexMark 2 = true ∧ (field burst).laneRuns 2 = true ∧ (field burst).flag (F.SLK_LANE_STATUS_IN_GAP 2) = true
      ∧ ((field burst).lane 2).ch.burst.find? burstValid = some burst ∧ ((field 1).lane 2).ch.burst.find? burstValid = none ∧ (field 1).indexMark 2 = true
      ∧ (gap.arriveRx 0 2 []).indexMark 2 = false := by decide +kernel

theorem witness_IndexAndLadder_ladder :
    let a := ladderWaits.arrive 0
    a.slk.engine 0 = none ∧ (a.pickLadder a.slk.ladder).map (fun x => (x.1.1, x.1.2.seq)) = some (2, 9)
      ∧ (a.slk.onLadder.find? (fun y => y.1 == 2 && y.2.seq == 9)).isSome = true ∧ a.overdue 2 { seq := 9, slot := true } = false
      ∧ (ladderWaits.arrive 100000000).overdue 2 { frame := some 0 } = true
      ∧ a.nextStep 2 6 = none ∧ ((ladderWaits.setFld (F.SLK_SECTOR_CFG_RETRY_STEPS 2) 1).arrive 0).nextStep 2 0 = some 1 ∧ (live.arrive 0).slk.ladder = []
      ∧ ((a.setEngine 1 (some (2, {}))).slk.engine 1) = some (2, {}) := by decide +kernel

/-- A message of type `t` waits on lane 2. -/
def messageWaits (t : Nat) : State := laneRunning.updLane 2 (fun l => { l with dlQueue := [{ typ := t, seq := 3, payload := [] }], waitAt := some 0 })

theorem witness_DownlinkMessages_lines :
    let full := (laneRunning.updLane 2 (fun l => { l with dlQueue := List.replicate 4 { typ := 1, seq := 0 } })).arriveBy 0 0x40
    let tick := (laneRunning.updLane 2 (fun l => { l with tickDue := some 7 })).arrive 0
    let trim := (laneRunning.updLane 2 (fun l => { l with trimDue := some (-3) })).arrive 0
    let m : DlMsg := { typ := 1, seq := 3 }
    let sent := (laneRunning.updLane 2 (fun l => { l with wire := some m })).arrive 10000000
    full.admits (dlPage 2) 0x5C 0x40 1 = true ∧ 4 ≤ (full.lane 2).dlQueue.length
      ∧ (tick.lane 2).wire = none ∧ (tick.lane 2).idleAt ≤ tick.cycles ∧ tick.lanePaused 2 = false ∧ (tick.lane 2).tickDue = some 7
      ∧ (trim.lane 2).trimDue = some (-3) ∧ (trim.lane 2).tickDue = none ∧ trim.fld (F.SLK_SERVO_STATUS_STATE 2) ≠ 3
      ∧ (sent.lane 2).wire = some m ∧ (sent.lane 2).wireAt + m.cycles ≤ sent.cycles ∧ (sent.lane 2).tickDue = none
      ∧ (let a := (messageWaits 1).arrive 60000000000
         (a.lane 2).waitAt = some 0 ∧ a.dlInhibited 2 = true
          ∧ 200000 * a.fld (F.SLK_INHIBIT_WAIT_INHIBIT_WAIT_MS 2) ≤ (a.lane 2).waited + (a.cycles - 0))
      ∧ (((messageWaits 1).setFld (F.SLK_INHIBIT_WAIT_INHIBIT_WAIT_MS 2) 5).arrive 0).dlInhibited 2 = true
      ∧ ((((messageWaits 1).setFld (F.SLK_INHIBIT_WAIT_INHIBIT_WAIT_MS 2) 5).arrive 0).lane 2).waited
          < 200000 * (((messageWaits 1).setFld (F.SLK_INHIBIT_WAIT_INHIBIT_WAIT_MS 2) 5).arrive 0).fld (F.SLK_INHIBIT_WAIT_INHIBIT_WAIT_MS 2) := by decide +kernel

theorem witness_DownlinkMessages :
    (laneRunning.arriveBy 0 0x40).admits (dlPage 2) 0x5C 0x40 1 = true ∧ (laneRunning.arriveBy 0 0x40).fld (F.SLK_DL_TX_HDR_LEN 2) ≤ 256
      ∧ ((laneRunning.arriveBy 0 0x40).lane 2).dlQueue.length < 4
      ∧ (let a := (messageWaits 0x20).arrive 0
         (a.lane 2).wire = none ∧ (a.lane 2).idleAt ≤ a.cycles ∧ a.lanePaused 2 = false ∧ (a.lane 2).tickDue = none ∧ (a.lane 2).trimDue = none
          ∧ isWriteType 0x20 = false)
      ∧ isWriteType 1 = true ∧ ((messageWaits 1).arrive 0).dlInhibited 2 = true
      ∧ 200000 * ((messageWaits 1).arrive 60000000000).fld (F.SLK_INHIBIT_WAIT_INHIBIT_WAIT_MS 2) ≤ ((messageWaits 1).arrive 60000000000).cycles := by
  decide +kernel

/-- Harvest runs with one request of stage 0 in its queue. -/
def hrvAsked : State := (idleAt live 0x050).updHrv (fun h => { h with queue := [{ tile := false, id := 0, stage := 0, desc := 0 }] })

/-- A stored number of bytes at a device address of the DRAM. -/
def stored (s : State) (d n v : Nat) : State := s.poke false d (leBytes n v)

/-- The descriptor of an ARGMAX of one row of four different 16-bit keys at address 0x1000, its result at 0x2000. -/
def argmaxDesc (s : State) : State :=
  stored (stored (stored (stored (stored (stored (stored (stored s 0x1000 8 0x0004000300020001) 4 2 1) 6 2 1) 8 4 4) 0xC 4 64) 0x10 8 0x1000) 0x18 8 0x2000) 0x20 4 4096

theorem witness_HarvestServes_rejected :
    let a := hrvAsked.arrive 0
    let f := (a.asAgent .hrv).fetch 0 64
    a.hrv.service = none ∧ a.hrv.queue = { tile := false, id := 0, stage := 0, desc := 0 } :: [] ∧ (a.page 0x050).enable = true
      ∧ a.mayWork 0x050 = true ∧ (a.page 0x050).cond.fault = false ∧ a.readsClean = true ∧ (live.arrive 0).hrv.queue = [] ∧ a.hrv.held = []
      ∧ (if f.1.code ≠ 0 then some f.1.code else if f.1.poison then some 0x5012 else (hrvFault f.1.bytes).map (·.2)) = some 0x1001 := by
  decide +kernel

theorem witness_HarvestServes_served :
    let a := (argmaxDesc hrvAsked).arrive 0
    let f := (a.asAgent .hrv).fetch 0 64
    let d := hrvDesc f.1.bytes
    let x := f.2.hrvRows { tile := false, id := 0, stage := 0, desc := 0 } d (List.range d.rowCount)
    f.1.code = 0 ∧ f.1.poison = false ∧ hrvFault f.1.bytes = none ∧ d.op = 0 ∧ d.payKind ≠ 2 ∧ x.1.2 = false ∧ x.2.grf.miss = false := by
  decide +kernel

theorem witness_HarvestServes_done :
    let r : HrvRun := { req := { tile := false, id := 0, stage := 0, desc := 0 }, op := 0, code := 0x1001 }
    let serves := fun r => live.updHrv (fun h => { h with service := some r })
    let q : GrfReq := { agent := .hrv, ttype := 2, node := 5, operand := 0 }
    ((serves r).arrive 0).hrv.service = some r ∧ r.rows = [] ∧ r.req.tile = false ∧ r.code ≠ 0 ∧ ((serves r).arrive 0).awaits .hrv = false
      ∧ ((serves r).arrive 0).answerCode .hrv = 0 ∧ (({ r with code := 0 } : HrvRun).code = 0)
      ∧ ((((serves { r with issued := true }).updGrf (fun g => { g with reqs := [q] })).arrive 0).asAgent .hrv).awaits .hrv = true
      ∧ (live.arrive 0).hrv.service = none := by decide +kernel

/-- Stage 0 of kind `k` runs; its descriptor stands at address 0, with its OP as given. -/
def convRuns (k op : Nat) : State :=
  (stored (runsAt live 0x060) 0 1 op).updFrm (fun f => { f with running := [⟨0, k, [], 0, 0, 0, 0, false, 0, 0, 0, 0, false, none, [], [], false⟩] })

theorem witness_ConvolutionsRun :
    (((convRuns 1 0).arrive 0).convStage 0 0).isSome = true ∧ (((convRuns 1 1).arrive 0).convStage 0 1).isSome = true
      ∧ (((convRuns 1 2).arrive 0).convStage 0 2).isSome = true ∧ (((convRuns 2 0).arrive 0).runStage 0).isSome = true
      ∧ (((convRuns 2 0).arrive 0).page 0x060).cond.fault = false ∧ (((convRuns 2 0).arrive 0).page 0x060).cond.frozen = false
      ∧ (live.arrive 0).runStage 0 = none
      ∧ ((((convRuns 1 0).setPage 0x060 { enable := true, cond := { frozen := true } }).arrive 0).page 0x060).cond.frozen = true
      ∧ (((convRuns 2 0).arrive 0).runStage 0).map (fun r => (r.kind, r.unitDone, r.stopped)) = some (2, false, false)
      ∧ (((convRuns 2 0).arrive 0).runStage 0).map (fun r =>
          (((convRuns 2 0).arrive 0).asAgent (.stage 0)).bevScatter (bevDesc (((convRuns 2 0).arrive 0).read r.desc 64).bytes) r |>.grf.miss)
        = some false := by decide +kernel

/-- Tile 0 runs item 0 of stage 0, whose program stands at address 0 with one op of code `opc` at 64. -/
def tileRuns (opc : Nat) : State :=
  ((stored (stored (stored (stored (runsAt live 0x080) 0 2 1) 4 4 1) 8 4 64) 64 8 (0xFFFFFF * 2 ^ 32 + opc)).updFrm (fun f => { f with
    running := [⟨0, 0, [0], 0, 0, 0, 0, false, 0, 0, 1, 0, false, none, [], [], false⟩] })).updTile 0 (fun t => { t with heldBy := 1, item := 1 })

theorem witness_TileOpsIssue :
    (((tileRuns 1).arrive 0).issueOp 0 1).isSome = true ∧ (((tileRuns 2).arrive 0).issueOp 0 2).isSome = true
      ∧ (((tileRuns 3).arrive 0).issueOp 0 3).isSome = true ∧ (((tileRuns 4).arrive 0).issueOp 0 4).isSome = true
      ∧ (((tileRuns 5).arrive 0).issueOp 0 5).isSome = true ∧ (((tileRuns 6).arrive 0).issueOp 0 6).isSome = true
      ∧ ((tileRuns 1).arrive 0).injected 5 0 = none ∧ ((tileRuns 1).arrive 0).issueOp 0 2 = none
      ∧ ((((tileRuns 1).arrive 0).issueOp 0 1).map (fun q =>
          (((((tileRuns 1).arrive 0).asAgent (.tile 0)).opEarly 0 q.1).opMatmul q.1 0 q.2.1 q.2.2).2.grf.miss)) = some false
      ∧ ((tileRuns 1).arrive 0).readsClean = true ∧ (((tileRuns 1).arrive 0).tile 0).inflight = [] := by decide +kernel

/-- Tile 0 has an op in flight on unit `u`, with its error code as given. -/
def tileFlies (u code : Nat) : State := (tileRuns 3).updTile 0 (fun t => { t with inflight := [{ tag := 0xFF, unit := u, op := 0, code := code }] })

/-- A gated tile 0 in TRIM. -/
def tileGated : State := (idleAt live 0x080).updCond 0x080 (fun c => { c with gated := true })

theorem witness_TilesSequence :
    (((tileRuns 3).updTile 0 (fun t => { t with item := 0 })).updFrm (fun f => { f with
        running := [⟨0, 0, [0], 0, 0, 0, 0, false, 0, 0, 0, 0, false, none, [], [], false⟩] }) |>.arrive 0).tileStage 0
      = some ⟨0, 0, [0], 0, 0, 0, 0, false, 0, 0, 0, 0, false, none, [], [], false⟩
      ∧ (live.arrive 0).freeFirst ⟨0, 0, [0], 0, 0, 0, 0, false, 0, 0, 0, 0, false, none, [], [], false⟩ 0 = true
      ∧ (((tileRuns 3).arrive 0).page 0x080).cond.frozen = false ∧ (((tileRuns 3).arrive 0).tile 0).item ≠ 0
      ∧ (((tileRuns 8).arrive 0).issueOp 0 8).isSome = true
      ∧ (((tileRuns 7).setPage 0x050 { enable := true }).arrive 0 |>.issueOp 0 7).isSome = true
      ∧ (((tileRuns 7).setPage 0x050 { enable := true }).arrive 0).hrvOn = true ∧ (live.arrive 0).hrvRoom = true
      ∧ (((tileFlies 1 0).arrive 0).tile 0).inflight.find? (fun y => y.unit == 1 && 1 != 3) = some { tag := 0xFF, unit := 1, op := 0 }
      ∧ (((tileFlies 0 0x5016).arrive 0).tile 0).inflight.find? (fun y => y.unit == 0 && 0 != 3) = some { tag := 0xFF, unit := 0, op := 0, code := 0x5016 }
      ∧ (((tileFlies 1 0).arrive 0).tileStage 0).map (fun r =>
          let b := ((tileFlies 1 0).arrive 0).opWrites 0 r { tag := 0xFF, unit := 1, op := 0 }
          (b.awaits (.tile 0), b.answerCode (.tile 0))) = some (false, 0)
      ∧ ((tileFlies 1 0).arrive 0).tileFree 0 = false ∧ (live.arrive 0).tileFree 1 = true ∧ (live.arrive 0).tilePresent 1 = true
      ∧ ((live.setFld F.PWR_STATE 1).arrive 0).fld F.PWR_STATE = 1 ∧ ((live.setFld F.PWR_STATE 1).arrive 0).planTiles.contains 1 = false
      ∧ (((tileGated.updTile 0 (fun t => { t with wakeReq := true })).arrive 0).tile 0).wakeReq = true
      ∧ ((tileGated.arriveBy 0 0x40).page 0x080).cond.gated = true ∧ getBits (2 : Word) 1 1 = 1
      ∧ ((tileGated.arriveBy 0 0x40).portCheck (tilePage 0) 0x4C 0x40).map (fun c => (c.page (tilePage 0)).cond.gated) = some true
      ∧ (live.arriveBy 0 0x40).portCheck (tilePage 1) 0x4C 0x40 = none ∧ lockAdmits ((live.arriveBy 0 0x40).page (tilePage 1)) 0x40 = true := by decide +kernel

/-- A window may open in FREE_RUN without a frame. -/
def windowOpens : State :=
  ((((idleAt live 0x010).setFld F.FRM_TEST_CFG_TEST_EN 1).setFld F.FRM_TEST_CFG_GROUP 1).setFld F.GLB_CLOCK_STATUS_CORE_MHZ 1000)

theorem witness_TilesTested :
    let done := (live.updFrm (fun f => { f with testTiles := [3], testWindow := [3], testPend := 3 })).arrive 0
    let late := ((runsAt live 0x010).updFrm (fun f => { f with testInterval := 1000 })).arrive 200000000000
    (windowOpens.arrive 1000000).windowMayOpen = true ∧ ((windowOpens.setFld F.FRM_TEST_REQ_PENDING 1).arrive 1000000).windowMayOpen = true
      ∧ ((windowOpens.setFld F.FRM_TEST_REQ_PENDING 1).arrive 1000000).flag F.FRM_TEST_REQ_PENDING = true ∧ (live.arrive 0).windowMayOpen = false
      ∧ done.frm.testTiles.contains 3 = true ∧ done.frm.testTiles.filter (· != 3) = [] ∧ done.frm.testWindow.contains done.frm.testPend = true
      ∧ done.injected 6 3 = none ∧ (live.arrive 0).frm.testTiles.contains 3 = false
      ∧ (live.arriveBy 0 0x40).admits 0x011 0x7C 0x40 0x103 = true ∧ getBits (0x103 : Word) 8 8 = 1 ∧ getBits (0x003 : Word) 8 8 ≠ 1
      ∧ late.tilePresent 3 = true ∧ late.pstate 0x010 = St.running
      ∧ (late.tile 3).overdue < ((late.cycles - (late.tile 3).passAt) / msCycles 1) / late.frm.testInterval
      ∧ (((live.arrive 0).cycles - ((live.arrive 0).tile 3).passAt) / msCycles 1) / (live.arrive 0).frm.testInterval ≤ ((live.arrive 0).tile 3).overdue := by
  decide +kernel

theorem witness_AddressesNameOnePlace :
    State.reset.mem.shardBase4M < 2048 ∧ State.reset.home 0x12345 = .dram 3 0x2445
      ∧ State.reset.home 0x1000180007 = .cellar 1 7
      ∧ (((live.setPage 0x0D0 { cond := { off := true } }).setPage 0x010 { cond := { off := true } }).arriveBy 0 0x40).admitsRwl 0x0C0 0x50 0x40 0x100 = true
      ∧ (((live.setPage 0x0D0 { cond := { off := true } }).setPage 0x010 { cond := { off := true } }).arriveBy 0 0x40).mapQuiet = true
      ∧ ((runsAt live 0x010).arriveBy 0 0x40).admitsRwl 0x0C0 0x50 0x40 0x100 = true ∧ ((runsAt live 0x010).arriveBy 0 0x40).mapQuiet = false
      ∧ (live.arriveBy 0 0x40).admits (0x0C0 + 2 * 1) 0x50 0x40 0x100 = true := by decide +kernel

/-- The scrub of channel 3 runs, at physical line `p`. -/
def scrubAt (p : Nat) : State :=
  ((idleAt live 0x0C6).setFld (F.MEMC_SCRUB_CFG_SCRUB_EN 3) 1).updMem (fun m => { m with scrubNext := Sparse.set (fun _ => 0) m.scrubNext 3 p })

theorem witness_AddressesNameOnePlace_scrub :
    let b := fun p ups => (((scrubAt p).arrive 0).arise ups).readMr4 3 2
    let q := (b 7 []).page (0x0C0 + 2 * 3)
    (b 7 []).fld (F.MEMC_SCRUB_CFG_SCRUB_EN 3) ≠ 0 ∧ q.pausing = false ∧ q.cond.off = false ∧ (b 7 []).mem.failed.contains 3 = false
      ∧ Sparse.get (fun _ => 0) (b 7 []).mem.scrubNext 3 = 7 ∧ 7 + 1 < (b 7 []).mem.chGib * 2 ^ 24 ∧ (b 7 []).readsClean = true
      ∧ (b 7 [⟨false, physLine 3 7, true⟩]).saf.injActive = [] ∧ (b 7 [⟨false, physLine 3 7, true⟩]).pwr.phase = 0
      ∧ ((b 7 [⟨false, physLine 3 7, true⟩]).combined 3).contains (7 / 16 * 15 + 7 % 16) = false
      ∧ (b 7 [⟨false, physLine 3 7, true⟩]).upsetIn false (physLine 3 7) = some true
      ∧ (b 7 [⟨false, physLine 3 7, false⟩]).upsetIn false (physLine 3 7) = some false
      ∧ (b 15 [⟨false, physLine 3 15, true⟩]).upsetIn false (physLine 3 15) = some true ∧ 15 % 16 = 15
      ∧ (((live.setFld (F.MEMC_SCRUB_CFG_SCRUB_EN 3) 0).arrive 0).readMr4 3 0).fld (F.MEMC_SCRUB_CFG_SCRUB_EN 3) = 0
      ∧ (((scrubAt 7).setPage 0x0C6 { cond := { frozen := true } }).arrive 0 |>.page 0x0C6).pausing = true := by decide +kernel

theorem witness_ChurnOperations :
    (live.arrive 0).mem.shardBase4M < 2048 ∧ (live.arrive 0).mem.chGib ≤ 8 ∧ (live.arrive 0).home 0x10040 = .dram 4 0x2040
      ∧ (live.arrive 0).mem.failed.contains 4 = false ∧ inLine 0x10040 64 = true ∧ (live.arrive 0).saf.injActive = []
      ∧ inLine 0x10040 32 = true ∧ 0x10040 % 64 = 0 ∧ (live.arrive 0).dramPlace 0x1000000000 = none
      ∧ inLine 0x1000000000 32 = true ∧ (live.arrive 0).dramPlace 0x10040 = some (4, 0x2040) ∧ (live.arrive 0).dramPlace 0 = some (0, 0)
      ∧ (live.arrive 0).readsClean = true ∧ (live.arrive 0).mem.upsets = [] ∧ inLine 0x10040 65 = false
      ∧ (((live.arrive 0).asAgent .none).fetch 0x10040 20).1.code = 0
      ∧ (∀ r ∈ (((live.arrive 0).asAgent .none).dequantRows 0 8 [0x10040, 0x10080]).1, r.code = 0)
      ∧ (∀ e ∈ [0x10040, 0x10080], (live.arrive 0).dramPlace e = some (4, if e = 0x10040 then 0x2040 else 0x2080)) := by decide +kernel

/-- Table 5 is READY with 100 rows of 16 elements on this node. -/
def tableReady (fl : Nat) : State :=
  (idleAt live 0x0D0).updEtu (fun e => { e with tables := [(5, { state := 1, flags := fl, elems := 16, nodeCount := 1, rows := 100 })] })

/-- The descriptor of such a table at address 0. -/
def tableText : State := stored (stored (stored (idleAt live 0x0D0) 2 2 16) 8 2 1) 0x10 8 100

theorem witness_TableCommands :
    let b := fun fl => (tableReady fl).arriveBy 0 0x40
    let x : EtuTable := { state := 1, flags := 4, elems := 16, nodeCount := 1, rows := 100 }
    let r := tableText.arriveBy 0 0x40
    (∀ op ∈ [1, 2, 3, 4, 5, 6], (b 4).admits 0x0D1 0x40 0x40 (word (5 * 2 ^ 8 + op)) = true)
      ∧ (b 4).etu.cmd = none ∧ (b 4).lockStops 0x0D0 = false ∧ (b 4).saf.inSafe = false
      ∧ (b 4).etuReady 4 5 = true ∧ (b 4).etuReady 1 5 = false ∧ (b 4).etuReady 2 5 = true ∧ (b 4).etuReady 3 5 = true
      ∧ (b 2).etuReady 5 5 = true ∧ (b 2).etuReady 6 5 = true
      ∧ (((tableReady 4).setPage 0x0D1 { lockAbandoned := true }).arriveBy 0 0x40).lockStops 0x0D0 = true
      ∧ (b 4).table 5 = x ∧ (b 4).homedRows x = 100 ∧ (b 4).fld F.ETU_CMD_SIZE < 2 ^ 32 - 1 ∧ (b 4).fld F.ETU_CMD_SIZE < 100 * 32
      ∧ (((tableReady 4).setFld F.ETU_CMD_SIZE 3200).arriveBy 0 0x40).fld F.ETU_CMD_SIZE = 3200
      ∧ (((tableReady 4).setFld F.ETU_CMD_SIZE (2 ^ 32 - 1)).arriveBy 0 0x40).fld F.ETU_CMD_SIZE = 2 ^ 32 - 1
      ∧ r.etuReady 1 5 = true
      ∧ (let f := (r.asAgent .none).fetch r.cmdAddr 64
         f.1.code = 0 ∧ f.1.poison = false ∧ tableFault f.1.bytes = none ∧ f.2.regionFault { tableDesc f.1.bytes with nodeBase := 1 } = 0)
      ∧ (let f := (((idleAt live 0x0D0).arriveBy 0 0x40).asAgent .none).fetch 0 64
         f.1.code = 0 ∧ f.1.poison = false ∧ (tableFault f.1.bytes).isSome = true)
      ∧ r.readsClean = true ∧ ((idleAt live 0x0D0).arriveBy 0 0x40).readsClean = true
      ∧ (({ tableReady 4 with saf := { inSafe := true } } : State).arriveBy 0 0x40).saf.inSafe = true
      ∧ (((tableReady 4).updEtu (fun e => { e with cmd := some { op := 4, table := 5 } })).arriveBy 0 0x40).etu.cmd.isSome = true
      ∧ ((((tableReady 4).updEtu (fun e => { e with cmd := some { op := 4, table := 5, total := 100 } })).arrive 0).etu.cmd)
          = some { op := 4, table := 5, total := 100 }
      ∧ ((((tableReady 4).updEtu (fun e => { e with cmd := some { op := 4, table := 5 } })).arrive 0).etu.cmd) = some { op := 4, table := 5 } := by
  decide +kernel

/-- Stage 0 is an ETU stage whose descriptor stands at address 0, a GATHER of two rows of table 5. -/
def etuRuns (on : Bool) (jobs : List EtuJob) : State :=
  (((stored (stored (stored (tableReady 0) 4 2 16) 1 1 5) 8 4 2).setPage 0x0D0 { enable := on }).updFrm (fun f => { f with
    running := [⟨0, 4, [], 0, 0, 0, 0, false, 0, 0, 0, 0, false, none, [], [], false⟩] })).updEtu (fun e => { e with jobs := jobs })

theorem witness_TableJobs :
    let a := (etuRuns false []).arrive 0
    (a.runStage 0).map (fun r => (r.kind, r.unitDone, r.stopped, r.desc)) = some (4, false, false, 0) ∧ (etuDesc (a.peek 0 64)).op = 0
      ∧ a.etuJob 0 = none ∧ (a.asAgent (.etu 0)).etuStartCode (etuDesc (a.peek 0 64)) = 0xA014 ∧ a.runStage 3 = none
      ∧ (let b := (etuRuns true []).arrive 0
         (b.asAgent (.etu 0)).etuStartCode (etuDesc (b.peek 0 64)) = 0 ∧ (b.page 0x0D0).pausing = false ∧ b.lockStops 0x0D0 = false
           ∧ b.etu.jobs.length < 4 ∧ (b.page 0x0D0).cond.fault = false ∧ b.etuJob 0 = none)
      ∧ ((etuRuns true [{ stage := 0 }]).arrive 0).etuJob 0 = some { stage := 0 } ∧ 0 < (etuDesc (a.peek 0 64)).rows
      ∧ (a.table (etuDesc (a.peek 0 64)).table).state ≠ 3
      ∧ ((etuRuns true [{ stage := 0, finished := true }]).arrive 0).etuJob 0 = some { stage := 0, finished := true }
      ∧ ((etuRuns true [{ stage := 0, finished := true }]).arrive 0).awaits (.etu 0) = false
      ∧ (a.flag F.ETU_LOAD_CFG_MIGRATE_EN = false) ∧ a.mayMove = true
      ∧ (((tableReady 2).updTable 5 (fun x => { x with spillRows := 1 })).arrive 0).spillFree 5 3 = some 0
      ∧ ((tableReady 2).table 5).migrate = true
      ∧ ((idleAt live 0x0D0).arriveBy 0 0x40).admitsRwl 0x0D0 0x40 0x40 0x101 = true
      ∧ ((idleAt live 0x0D0).arriveBy 0 0x40).fld F.ETU_CFG_CACHE_SHARE ≠ 1 ∧ ((idleAt live 0x0D0).arriveBy 0 0x40).planHeld = false
      ∧ (((idleAt live 0x0D0).setFld F.FRM_PLAN_STATUS_SLOT_0 2).arriveBy 0 0x40).planHeld = true := by decide +kernel

/-- A GATHER of two rows of table 5, whose indices stand at address 0x1000, with its job running. -/
def gatherRuns (x : EtuTable) : State :=
  stored ((etuRuns true [{ stage := 0, checked := true }]).updEtu (fun e => { e with tables := [(5, x)] })) 0x10 8 0x1000

/-- Row 3 of table 5 is to move to channel 2, and one spill slot of it is free there. -/
def moveWaits : State :=
  ((tableReady 2).updTable 5 (fun x => { x with spillRows := 1 })).updEtu (fun e => { e with moves := [(5, 3, 2), (5, 4, 2)] })

theorem witness_TableJobs_rows :
    let r : RunStage := ⟨0, 4, [], 0, 0, 0, 0, false, 0, 0, 0, 0, false, none, [], [], false⟩
    let near : EtuTable := { state := 1, elems := 16, nodeCount := 1, rows := 100 }
    let b := fun x => (((gatherRuns x).arrive 0).asAgent (.etu 0)).touch 0 64
    let q := fun (s : State) => s.etuStep (etuDesc ((gatherRuns near).peek 0 64)) r 0
    let away := stored (gatherRuns near) 0x10 8 0x800100000000
    let awaited := ((etuRuns true [{ stage := 0, finished := true, code := 0x5019 }]).request { agent := .etu 0, ttype := 5, node := 1, operand := 0 }).arrive 0
    ((gatherRuns near).arrive 0).runStage 0 = some r ∧ (b near).etuJob 0 = some { stage := 0, checked := true }
      ∧ ((b near).table 5).state ≠ 3 ∧ 0 < (etuDesc ((gatherRuns near).peek 0 64)).rows
      ∧ (q (b near)).2.grf.miss = false ∧ (q (b near)).1 = true ∧ ((q (b near)).2.etuJob 0).map (·.done) = some 0
      ∧ (q (b { near with nodeBase := 9 })).2.grf.miss = false ∧ (q (b { near with nodeBase := 9 })).1 = false
      ∧ ((((away.arrive 0).asAgent (.etu 0)).touch 0 64).etuStep (etuDesc (away.peek 0 64)) r 0).2.grf.miss = true
      ∧ awaited.awaits (.etu 0) = true ∧ awaited.runStage 0 = some r ∧ ((etuRuns true [{ stage := 0 }]).arrive 0).etuJob 0 = some { stage := 0 }
      ∧ (live.arrive 0).cycles < (live.arrive 0).etu.windowAt + usCycles ((live.arrive 0).fld F.ETU_LOAD_CFG_LOAD_WINDOW_US)
      ∧ (live.arrive 1000000000).etu.windowAt + usCycles ((live.arrive 1000000000).fld F.ETU_LOAD_CFG_LOAD_WINDOW_US) ≤ (live.arrive 1000000000).cycles
      ∧ ((live.setFld F.ETU_LOAD_CFG_MIGRATE_EN 1).arrive 0).flag F.ETU_LOAD_CFG_MIGRATE_EN = true
      ∧ (moveWaits.arrive 0).etu.moves = (5, 3, 2) :: [(5, 4, 2)] ∧ (moveWaits.arrive 0).mayMove = true ∧ (moveWaits.arrive 0).spillFree 5 2 = some 0
      ∧ ((moveWaits.arrive 0).table 5).state ≠ 0 ∧ ((moveWaits.arrive 0).table 5).migrate = true ∧ (moveWaits.arrive 0).readsClean = true
      ∧ (moveWaits.arrive 0).etu.redirect.length < 8192
      ∧ ((idleAt live 0x0D0).arriveBy 0 0x40).admitsRwl 0x0D0 0x40 0x40 0x100 = true
      ∧ getBits (0x100 : Word) 3 0 = ((idleAt live 0x0D0).arriveBy 0 0x40).fld F.ETU_CFG_CACHE_SHARE := by decide +kernel

/-- Port 2 enabled, with its link in state `l` of Table 12-3. -/
def linkIn (l : Nat) : State := (runsAt live 0x0F4).setFld (F.GRF_PORT_STATUS_LSTATE 2) l

/-- A flit of zeros but for KIND 1 and its CRC. -/
def cleanFlit : List Byte := let b := leBytes 2 0x1000 ++ List.replicate 74 0; b ++ leBytes 4 (crc32 b)

/-- A flit of zeros: its CRC does not check. -/
def badFlit : List Byte := List.replicate 80 0

/-- Levels whose first `k` unit intervals of lane 0 arrive one level off. -/
def spoilt (k : Nat) (l : List Nat) : List Nat := (l.take k).map (fun x => (x + 1) % 4) ++ l.drop k

theorem witness_LinksComeUpAndRecover :
    ((linkIn 1).arrive 0).lstate 2 = 1 ∧ ((linkIn 2).arrive 0).lstate 2 = 2 ∧ ((linkIn 3).arrive 0).lstate 2 = 3
      ∧ (((linkIn 3).arrive 0).page (grfPage 2)).cond.fault = false
      ∧ ((linkIn 3).arrive 0).wiringOk 2 0 0 = false
      ∧ ((((linkIn 3).setFld (F.GRF_PORT_CFG_ROLE 2) 2).arrive 0).wiringOk 2 3 0 = true)
      ∧ ((linkIn 4).arrive 0).lstate 2 = 4 ∧ fieldOf cleanFlit 0x4C 4 = crc32 (cleanFlit.take 0x4C) ∧ fieldOf cleanFlit 0 2 / 4096 = 1
      ∧ fieldOf cleanFlit 0 2 % 4096 = (((linkIn 4).arrive 0).port 2).rxSeq
      ∧ receiveLevels 3 (flitLevels 3 cleanFlit) = some (false, cleanFlit) ∧ receiveLevels 0 (spoilt 8 (flitLevels 0 cleanFlit)) = some (true, cleanFlit)
      ∧ receiveLevels 0 (spoilt 85 (flitLevels 0 cleanFlit)) = none
      ∧ receiveLevels 0 (flitLevels 0 badFlit) = some (false, badFlit) ∧ fieldOf badFlit 0x4C 4 ≠ crc32 (badFlit.take 0x4C)
      ∧ ((((linkIn 4).updPort 2 (fun p => { p with replay := [(7, [])] })).arrive 0).port 2).replay = (7, []) :: []
      ∧ (7 + 4096 - 7) % 4096 < [(7, ([] : List (Nat × Bool × List Byte)))].length
      ∧ ((linkIn 5).arrive 0).lstate 2 = 5
      ∧ (((linkIn 5).arrive 200000000).port 2).recoverAt + usCycles (((linkIn 5).arrive 200000000).fld (F.GRF_LINK_TIMING_RECOVER_US 2))
          ≤ ((linkIn 5).arrive 200000000).cycles := by decide +kernel

/-- Port 2 in state `l`, its role the one that the neighbour of the other direction names. -/
def linkRole (l : Nat) : State := (linkIn l).setFld (F.GRF_PORT_CFG_ROLE 2) 2

/-- Port 2 of an ACTIVE link holds a flit for replay, and has replayed `k` times. -/
def replayHeld (k : Nat) : State := (linkIn 4).updPort 2 (fun p => { p with replay := [(7, [])], replays := k })

theorem witness_LinksComeUpAndRecover_more :
    let e := fun (s : State) => (s.arrive 0).noteNeighbour 2 9 3
    ((linkIn 3).arrive 0).lockStops (grfPage 2) = false
      ∧ (((linkIn 3).setPage 0x0F4 { enable := true, lockAbandoned := true }).arrive 0).lockStops (grfPage 2) = true
      ∧ (((linkIn 3).setPage 0x0F4 { cond := { fault := true } }).arrive 0 |>.page (grfPage 2)).cond.fault = true
      ∧ (e (linkIn 3)).wiringOk 2 0 0 = false ∧ (e (linkRole 3)).wiringOk 2 3 0 = true ∧ ((linkRole 3).arrive 0).lstate 2 = 3
      ∧ (e (linkIn 5)).wiringOk 2 0 0 = false ∧ (e (linkRole 5)).wiringOk 2 3 0 = true ∧ ((linkRole 5).arrive 0).lstate 2 = 5
      ∧ (((linkRole 5).arrive 0).page (grfPage 2)).cond.fault = false
      ∧ (((linkIn 4).arrive 0).port 2).nakSent = false
      ∧ (((replayHeld 7).arrive 0).page (grfPage 2)).pausing = false ∧ (((replayHeld 7).arrive 0).port 2).replays < 8
      ∧ ((replayHeld 7).arrive 0).lstate 2 = 4 ∧ (((replayHeld 7).arrive 0).port 2).replay = (7, []) :: []
      ∧ 8 ≤ (((replayHeld 8).arrive 0).port 2).replays
      ∧ (((linkIn 4).arrive 400).port 2).ackAt + usCycles 2 ≤ ((linkIn 4).arrive 400).cycles
      ∧ ((linkIn 4).arrive 0).cycles < (((linkIn 4).arrive 0).port 2).ackAt + usCycles 2
      ∧ 3 % 16 ≠ 15 ∧ ((linkIn 5).arrive 0).cycles
          < (((linkIn 5).arrive 0).port 2).recoverAt + usCycles (((linkIn 5).arrive 0).fld (F.GRF_LINK_TIMING_RECOVER_US 2)) := by decide +kernel

/-- A packet waits at port 2 of an ACTIVE link. -/
def packetWaits (p : Packet) : State := (linkIn 4).updPort 2 (fun q => { q with inq := [(0, p)] })

/-- A well-formed READ of 16 bytes for node `d`. -/
def readPacket (d : Nat) : Packet := mkPacket 1 false d 0 0 (16 * 2 ^ 32) []

theorem witness_PacketsAreServed :
    let a := (packetWaits (readPacket 0)).arrive 0
    (a.inbound 2 (fun p => p.dest == a.nodeId && p.ttype == 1)).isSome = true ∧ a.inbound 2 (fun p => p.dest == a.nodeId && p.ttype == 2) = none
      ∧ (readPacket 0).malformed = false ∧ (mkPacket 1 false 0 0 0 0 []).malformed = true ∧ answered 1 = true
      ∧ (mkPacket 7 false 0 0 0 4096 []).malformed = true ∧ answered 7 = false
      ∧ a.grf.lost.contains 0 = false ∧ a.loopback 0 1 = none ∧ a.loopback 0 2 = none ∧ a.readsClean = true
      ∧ 256 < (mkPacket 1 false 0 0 0 (300 * 2 ^ 32) []).asked ∧ (mkPacket 1 false 0 0 0 (300 * 2 ^ 32) []).malformed = true
      ∧ (mkPacket 1 false 0 0 0 0 []).asked ≤ 256
      ∧ ((((packetWaits (readPacket 0)).updGrf (fun g => { g with lost := [0] })).arrive 0).grf.lost.contains (readPacket 0).src) = true
      ∧ (((packetWaits (readPacket 5)).arrive 0).inbound 2 (fun p => p.dest != ((packetWaits (readPacket 5)).arrive 0).nodeId)).isSome = true
      ∧ a.nextDim 0 = none ∧ (a.setFld F.GRF_NODE_CFG_DIMX_M1 7).nextDim 3 = some 0 := by decide +kernel

/-- Every Graft port is OFF, and barrier 0 has this node alone. -/
def graftOff : State :=
  ((List.range 8).foldl (fun (s : State) n => s.setPage (grfPage n) { cond := { off := true } }) live).setFld (F.GRF_BAR_CFG_ENABLE 0) 1

theorem witness_NodesAndBarriers :
    let a := (graftOff.arrive 0).asAgent .none
    natBits 0x800500000000 47 47 = 1 ∧ a.remoteLocked = false ∧ globalNode 0x800500000000 ≠ a.nodeId
      ∧ ((graftOff.updGrf (fun g => { g with lost := [5] })).arrive 0).grf.lost.contains (globalNode 0x800500000000) = true
      ∧ (graftOff.arriveBy 0 0x40).admits 0x0F1 0x58 0x40 (word (2 ^ 16 + 5)) = true
      ∧ (graftOff.arriveBy 0 0x40).admits 0x0F1 0x58 0x40 (word (2 * 2 ^ 16 + 5)) = true
      ∧ (graftOff.arriveBy 0 0x40).admits 0x0F1 0x58 0x40 (word (3 * 2 ^ 16 + 5)) = true
      ∧ (graftOff.arriveBy 0 0x40).admits 0x0F1 0x1C0 0x40 (word (2 ^ 8 + 0)) = true
      ∧ (graftOff.arriveBy 0 0x40).fld (F.GRF_BAR_STATUS_STATE 0) = 0 ∧ (graftOff.arriveBy 0 0x40).barMember 0 (graftOff.arriveBy 0 0x40).nodeId = true
      ∧ (graftOff.arriveBy 0 0x40).barKids 0 = [] ∧ (graftOff.arriveBy 0 0x40).barParent 0 = none ∧ (graftOff.arriveBy 0 0x40).grf.reqs = []
      ∧ ((graftOff.arriveBy 0 0x40).bar 0).sent = false
      ∧ (graftOff.arriveBy 0 0x40).admitsRwl 0x0F1 0x184 0x40 0 = true
      ∧ (let b := ((graftOff.setFld (F.GRF_BAR_STATUS_STATE 0) 1).setBar 0 { own := true }).arrive 400000000000
         b.fld (F.GRF_BAR_STATUS_STATE 0) = 1 ∧ (b.bar 0).own = true ∧ (b.bar 0).at_ + msCycles (b.fld F.GRF_TIMEOUT_BAR_TIMEOUT_MS) ≤ b.cycles)
      ∧ (graftOff.arriveBy 0 0x40).admitsRwl 0x0F1 0x40 0x40 0 = true
      ∧ ((List.range 8).all (fun n => (graftOff.arriveBy 0 0x40).pstate (grfPage n) == St.off) && (graftOff.arriveBy 0 0x40).grf.reqs.isEmpty) = true
      ∧ ((List.range 8).all (fun n => ((linkIn 4).arriveBy 0 0x40).pstate (grfPage n) == St.off) && ((linkIn 4).arriveBy 0 0x40).grf.reqs.isEmpty) = false
      := by decide +kernel

/-- A job of opcode `opc` stands on ring 0 of context 3, in phase `ph`. -/
def jobStands (opc ph : Nat) : State :=
  live.setJob 3 0 (some { opc := opc, sb := 2, tag := 77, phase := ph, bytes := List.replicate 24 0 ++ [1] ++ List.replicate 39 0, data := [9] })

/-- Virtual function 1 owns context `c`. -/
def vfOwns (c : Nat) : State :=
  ((((live.setFld (F.HIF_FUNC_CTX_CTX_BASE 1) c).setFld (F.HIF_FUNC_CTX_CTX_COUNT 1) 1).setFld (F.CTX_INFO_OWNER c) 1).updHif (fun h => { h with vfEnable := true, numVfs := 4 }))

/-- Ring 0 of context 3 holds one entry of opcode `opc`. -/
def entryWaits (opc : Nat) : State :=
  (live.bar2Write 0 ⟨0x3800, BitVec.ofNat 8 opc :: 0xFF :: List.replicate 62 0⟩).setFld (F.CTX_RING_TAIL 3 0) 1

theorem witness_JobsRun_ring :
    (live.arrive 0).ctxOwner 3 = 0 ∧ (5 % 65536 + 65536 - (live.arrive 0).head 3 0) % 65536 ≤ 16 ∧ (List.replicate 64 (0 : Byte)).length = 64
      ∧ 16 < (50 % 65536 + 65536 - (live.arrive 0).head 3 0) % 65536 ∧ (live.arrive 0).ctxFaulted 3 = false ∧ (live.arrive 0).nextRing = none
      ∧ (live.arrive 0).hif.pcie.asleep.contains 0 = false ∧ (live.arrive 0).viewCtx 0 3 = some 3
      ∧ ((vfOwns 3).arrive 0).ctxOwner 3 = 1 ∧ 1 ≤ ((vfOwns 3).arrive 0).hif.numVfs ∧ ((vfOwns 3).arrive 0).viewCtx 1 0 = some 3
      ∧ ((vfOwns 3).arrive 0).hif.pcie.asleep.contains 1 = false ∧ ((vfOwns 3).arrive 0).ctxOwner 3 ≠ 0
      ∧ ((entryWaits 1).arrive 0).nextRing = some (3 * 2 + 0) ∧ (((entryWaits 1).arrive 0).page 0x100).pausing = false
      ∧ (((entryWaits 1).setPage 0x100 { cond := { frozen := true } }).arrive 0 |>.page 0x100).pausing = true
      ∧ (let a := (entryWaits 1).arrive 0
         ((a.setFld (F.CTX_RING_HEAD 3 0) 1).updHif (fun h => { h with robin := 7 })).jobRefusal 3 (a.entry 3 0 0) = 0)
      ∧ (let a := (entryWaits 77).arrive 0
         ((a.setFld (F.CTX_RING_HEAD 3 0) 1).updHif (fun h => { h with robin := 7 })).jobRefusal 3 (a.entry 3 0 0) = 0x1001) := by decide +kernel

theorem witness_JobsRun_more :
    let w := fun (k : Nat) => ((jobStands 5 1).updFrm (fun f => { f with publish := some { num := 9 }, lastCompute := k, lastNum := k })).arrive 0
    let bar := fun (k : Nat) => ((jobStands 9 1).setFld (F.GRF_BAR_STATUS_STATE 0) k).arrive 0
    let b := fun (opc ph : Nat) => (jobStands opc ph).arrive 0
    (((jobStands 4 1).setPage 0x010 { enable := true, cond := { running := true } }).updFrm (fun f => { f with freeRun := true }) |>.arrive 0).jobMode 3 4 = 0
      ∧ ((w 0).job 3 0).map (fun j => (j.waitNext, j.follows, j.frame)) = some (false, false, 0) ∧ (w 0).frm.publish.map (·.num) = some 9
      ∧ (w (2 ^ 32 - 1)).frameAhead 0 = true ∧ (w 5).frameAhead 0 = false
      ∧ (bar 1).fld (F.GRF_BAR_STATUS_STATE 0) = 1 ∧ (bar 2).fld (F.GRF_BAR_STATUS_STATE 0) = 2
      ∧ ((b 2 1).job 3 0).map (fun j => (j.phase, j.opc)) = some (1, 2) ∧ ((b 3 1).job 3 0).map (fun j => (j.phase, j.opc)) = some (1, 3)
      ∧ (b 8 1).readsClean = true ∧ (b 3 2).readsClean = true ∧ (b 2 2).mem.upsets = [] ∧ (b 2 2).mem.shardBase4M < 2048 ∧ (b 2 2).mem.chGib ≤ 8 := by
  decide +kernel

theorem witness_JobsRun_jobs :
    (((jobStands 1 1).arrive 0).job 3 0).map (fun j => (j.phase, j.opc, j.sb)) = some (1, 1, 2)
      ∧ ((jobStands 4 1).arrive 0).jobMode 3 4 ≠ 0
      ∧ (((jobStands 5 1).updFrm (fun f => { f with publish := some { num := 0 } })).arrive 0).frm.publish.map (fun f => (f.num, f.hostFail)) = some (0, false)
      ∧ ((jobStands 5 1).arrive 0).frm.compute = none
      ∧ (let a := (jobStands 6 1).arrive 0; (a.jobWrite 0 0 (a.ctxWriter 3) 0).2.psv.queue.length ≤ a.psv.queue.length)
      ∧ (let a := ((jobStands 8 1).updLane 0 (fun l => { l with dlQueue := List.replicate 4 { typ := 0, seq := 0, payload := [] } })).arrive 0
         let f := (a.asAgent (.job 6)).fetch 0 0
         f.2.grf.miss = false ∧ f.1.code = 0 ∧ 4 ≤ (f.2.lane 0).dlQueue.length)
      ∧ ((jobStands 9 1).arrive 0).fld (F.GRF_BAR_STATUS_STATE 0) = 0
      ∧ ((jobStands 7 1).arrive 0).uncommitted (((jobStands 7 1).arrive 0).ctxWriter 3) = false
      ∧ (let a := ((jobStands 7 1).updPsv (fun p => { p with queue := [⟨0x221, 4, 7, 0x40⟩] })).arrive 0; a.uncommitted (a.ctxWriter 3) = true)
      ∧ (let a := (jobStands 8 1).arrive 0
         let f := (a.asAgent (.job 6)).fetch 0 0
         f.2.grf.miss = false ∧ f.1.code = 0 ∧ (f.2.lane 0).dlQueue.length < 4)
      ∧ (let a := (jobStands 3 2).arrive 0; ((a.asAgent (.job 6)).fetch 0 1).2.grf.miss = false)
      ∧ (let a := (jobStands 2 2).arrive 0
         (a.job 3 0).map (fun j => (j.data.length, j.copyBytes, j.link)) = some (1, 1, 0) ∧ inLine 0 1 = true ∧ a.awaits (.job 6) = false
          ∧ a.home 0 = .dram 0 0 ∧ a.mem.failed.contains 0 = false) := by decide +kernel

theorem witness_HostSideEvents :
    (live.arrive 0).ctxOwner 3 = 0 ∧ (live.arrive 0).ctxOwner 3 ≠ 5
      ∧ ((live.updHif (fun h => { h with numVfs := 4 })).arrive 0).hif.numVfs = 4
      ∧ (((jobStands 3 2).arrive 0).job 3 0).map (fun j => (j.phase, j.opc)) = some (2, 3) ∧ (live.arrive 0).job 3 0 = none
      ∧ ((live.updHif (fun h => { h with linkUp := true })).arrive 20000).hif.linkUp = true
      ∧ ((live.updHif (fun h => { h with linkUp := true })).arrive 20000).hif.tlpAt + usCycles 64
          ≤ ((live.updHif (fun h => { h with linkUp := true })).arrive 20000).cycles
      ∧ (live.arrive 0).hif.pcie.asleep.contains 0 = false ∧ (live.arrive 0).hif.pcie.ecrcCheck = false
      ∧ ((live.updHif (fun h => { h with pcie := { ecrcCheck := true } })).arrive 0).hif.pcie.ecrcCheck = true
      ∧ ((jobStands 3 2).arrive 0).readsClean = true ∧ (live.arrive 0).hif.linkUp = false
      ∧ ((vfOwns 3).arrive 0).ctxOwner 3 = 1 ∧ ((vfOwns 3).arrive 0).hif.pcie.asleep.contains 1 = false ∧ 1 ≤ ((vfOwns 3).arrive 0).hif.numVfs
      ∧ ((vfOwns 3).updHif (fun h => { h with vfPending := [1 * 32 + 2] }) |>.arrive 0).hif.vfPending.contains (1 * 32 + 2) = true
      ∧ (live.arriveBy 0 0x40).admitsRwl 0x101 (0x40 + 8 * 1) 0x40 0x1003 = true
      ∧ ((entryWaits 1).arriveBy 0 0x40).admitsRwl 0x101 (0x40 + 8 * 1) 0x40 0x1003 = true ∧ ((entryWaits 1).arriveBy 0 0x40).ctxState 3 ≠ 0
      ∧ inRange (getBits (0x1003 : Word) 11 0) (getBits (0x1003 : Word) 19 12) 3 = true
      ∧ inRange ((entryWaits 1).fld (F.HIF_FUNC_CTX_CTX_BASE 1)) ((entryWaits 1).fld (F.HIF_FUNC_CTX_CTX_COUNT 1)) 3 = false
      ∧ ((List.range 4096).filter (fun c => inRange (getBits (0x1003 : Word) 11 0) (getBits (0x1003 : Word) 19 12) c !=
          inRange ((live.arriveBy 0 0x40).fld (F.HIF_FUNC_CTX_CTX_BASE 1)) ((live.arriveBy 0 0x40).fld (F.HIF_FUNC_CTX_CTX_COUNT 1)) c)).all
            (fun c => (live.arriveBy 0 0x40).ctxState c == 0) = true
      ∧ (live.arrive 0).hostTlp.admits 0x10B (0x80C + 16 * 2) 0x40 0 = true
      ∧ bitOf (((live.setCell R.HIF_MSIX_PBA 4).arrive 0).cell R.HIF_MSIX_PBA).toNat 2 = true := by decide +kernel

/-- Slot 2 of context 3 is POSTED. -/
def slotPosted : State := (live.setPriv 3 2 0 [2, 8, 0, 1]).updHif (fun h => { h with posted := [(3, 2)] })

/-- The mailboxes are open and seen in the device address map. -/
def mailOpen : State := (idleAt live 0x110).setFld F.MBX_CFG_AREA_EN 1

theorem witness_MailboxesAndDoorbells :
    (live.arrive 0).ctxOwner 3 = 0 ∧ (live.arrive 0).privState 3 2 ≠ 1 ∧ ([1, 8, 0, 1] : List Byte).getD 3 0 = 1
      ∧ (live.arrive 0).hif.pcie.asleep.contains 0 = false ∧ ((live.setFld F.MBX_RST_RX_STATE 0).arrive 0).rstAway = false
      ∧ (∀ y ∈ (slotPosted.arrive 1000).hif.posted, (slotPosted.arrive 1000).privStamp y ≠ (slotPosted.arrive 1000).timebase)
      ∧ (([1, 8, 0, 1] : List Byte).getD 1 0).toNat ≤ 48 ∧ 48 < (([1, 49, 0, 1] : List Byte).getD 1 0).toNat
      ∧ ((live.setFld F.MBX_RST_RX_STATE 0).arrive 0).rstUp = true ∧ ((slotPosted.setFld F.MBX_RST_RX_STATE 0).arrive 0).rstUp = true
      ∧ ((live.setFld F.MBX_RST_RX_STATE 2).arrive 0).rstUp = false ∧ slotPiece 0 4 = true ∧ (slotPosted.arrive 0).privState 3 2 = 1
      ∧ (slotPosted.arrive 0).hif.posted = [(3, 2)] ∧ (slotPosted.arrive 0).privByte 3 2 0 = 2 ∧ (live.arrive 0).hif.posted = []
      ∧ (live.arriveBy 0 0x40).admitsRwl 0x111 0x40 0x40 5 = true
      ∧ ((mailOpen.arrive 0).asAgent (.tile 4)).flag F.MBX_CFG_AREA_EN = true ∧ ((mailOpen.arrive 0).asAgent (.tile 4)).mbxOpen = true
      ∧ ((mailOpen.arrive 0).asAgent (.tile 4)).flag (F.MBX_MB_CTL_FWD_EN 0 7) = false
      ∧ (((live.setFld F.MBX_CFG_AREA_EN 1).arrive 0).asAgent (.tile 4)).mbxOpen = false
      ∧ (mailOpen.arriveBy 0 1).admits 0x110 0x50 1 (word (2 ^ 8 + 7)) = true ∧ stageWriter true 1 = true ∧ stageWriter true 0x40 = false
      ∧ (mailOpen.arriveBy 0 0x40).admits 0x110 0x50 0x40 (word (2 ^ 8 + 7)) = true
      ∧ (mailOpen.arriveBy 0 0x40).admits (mbPage 7) (mbOff 7 2) 0x40 0 = true
      ∧ (mailOpen.arriveBy 0 0x40).fld (F.MBX_MB_CNT_WRITE_CNT (7 / 32) (7 % 32)) = (0 : Word).toNat
      ∧ (mailOpen.arriveBy 0 0x40).admits 0x11A (dbOff 5 3) 0x40 6 = true ∧ (mailOpen.arriveBy 0 0x40).admits 0x11A (dbOff 5 0) 0x40 6 = true
      ∧ (mailOpen.arriveBy 0 0x40).admits 0x11A (dbOff 5 1) 0x40 6 = true
      ∧ (mailOpen.arriveBy 0 0x40).admitsRwl 0x110 0x40 0x40 1 = true ∧ ((mailOpen.arriveBy 0 0x40).page 0x110).enable = true
      ∧ (live.arriveBy 0 0x40).admitsRwl 0x110 0x40 0x40 1 = true ∧ ((live.arriveBy 0 0x40).page 0x110).enable = false := by decide +kernel

/-- Rootstock in state `x` of Table 14-5. -/
def rstIn (x : Nat) : State := live.setFld F.MBX_RST_RX_STATE x

theorem witness_RootstockResetsAndReadies :
    ((rstIn 0).arrive 0).rst.resetDue = none ∧ ((rstIn 0).arrive 0).dbgLevel ≠ 3
      ∧ (((rstIn 0).updRst (fun r => { r with resetDue := some 2 })).arrive 0).rst.resetDue = some 2
      ∧ ((rstIn 0).arriveBy 0 0x40).admitsRws 0x130 0x58 0x40 (word (0x5253 % 2 ^ 16 * 2 ^ 16 + 1)) = true
      ∧ ((rstIn 0).arriveBy 0 0x40).framePaced = false
      ∧ ((runsAt (rstIn 0) 0x010).arriveBy 0 0x40).framePaced = true ∧ ((runsAt (rstIn 0) 0x010).arriveBy 0 0x40).fld F.MBX_RST_RX_STATE ≠ 3
      ∧ ((rstIn 0).arriveBy 0 0x40).admitsRws 0x130 0x58 0x40 (word (0x1234 % 2 ^ 16 * 2 ^ 16 + 1)) = true
      ∧ ((live.setFld F.RST_STATUS_DEAD 1).arrive 0).flag F.RST_STATUS_DEAD = true
      ∧ ((rstIn 0).arrive 0).flag F.RST_STATUS_DEAD = false ∧ ((rstIn 0).arrive 0).causeClass Cause.rstWatchdog = 1
      ∧ (State.reset.arrive 0).flag F.RST_STATUS_DEAD = false ∧ (State.reset.arrive 0).saf.inSafe = true ∧ ((State.reset.arrive 0).page 0x130).errCode = 0
      ∧ (let b := (rstIn 2).arrive 0
         b.fld F.MBX_RST_RX_STATE = 2 ∧ b.fld F.RST_STATUS_MODE = 0 ∧ b.flag F.GLB_BOOT_STATUS_SLOT_CHOSEN = true ∧ b.rst.romFail = false
           ∧ b.rst.bootCount < 2 ^ 32 ∧ b.rst.watchdog = false ∧ b.rst.flashFail = false ∧ b.rst.latchWait = [] ∧ b.fld F.PSV_AGE_A_AGE_OFFSET_MV ≤ 40)
      ∧ ((rstIn 0).arrive 0).fld F.MBX_RST_RX_STATE = 0 ∧ ((rstIn 1).arrive 0).fld F.MBX_RST_RX_STATE ≠ 0 := by decide +kernel

/-- An entry of the event ring. -/
def anEntry : LogEntry := ⟨5, 0x6028, 0x130, 7, 9, 0, 3, 0, 1⟩

/-- Rootstock is AVAILABLE, with one entry in the ring that waits for the black box, one request and one fetch under way. -/
def logStands : State :=
  { (rstIn 0).updRst (fun r => { r with ring := [anEntry], bbWait := [anEntry], fetch := some (0, 9) }) with
    logQueue := [⟨3, 0x6030, 0x160, 0, false, 0⟩] }

theorem witness_SensorsAndLog :
    (let a := ((rstIn 0).setFld F.PWR_THERM_STATUS_COOL_BAND 3).arrive 0
     a.saf.injActive = [] ∧ a.fld F.PWR_THERM_STATUS_THERM_STATE = 0 ∧ a.fld F.PWR_THERM_STATUS_COOL_BAND = 3 ∧ a.flag F.RST_COOLANT_VALID = false)
      ∧ (List.replicate 32 (200 : Int)).length = 32 ∧ (List.replicate 12 800).length = 12 ∧ (State.reset.arrive 0).saf.inSafe = true
      ∧ railOut 0 800 = false ∧ railOut 0 990 = true ∧ railOut 11 735 = true ∧ railOut 11 736 = false ∧ ((rstIn 2).arrive 0).rstUp = false
      ∧ ((rstIn 0).arrive 0).rstUp = true ∧ ((((rstIn 0).setFld F.RST_SHOCK_CFG_LSB_MG 3)).arrive 0).fld F.RST_SHOCK_CFG_LSB_MG ≠ 0
      ∧ (((rstIn 0).setFld F.PWR_THERM_STATUS_COOL_BAND 0).arrive 0).fld F.PWR_THERM_STATUS_COOL_BAND = 0
      ∧ ((rstIn 0).arrive 0).logQueue = [] ∧ logFirst (logStands.arrive 0).logQueue = some (⟨3, 0x6030, 0x160, 0, false, 0⟩, [])
      ∧ severity 0 0x6030 = 3 ∧ (logStands.arrive 0).rst.ring.length ≤ 4096 ∧ (logStands.arrive 0).rst.bbWait = anEntry :: []
      ∧ (logStands.arrive 0).inhibited = false ∧ anEntry ∈ (logStands.arrive 0).rst.ring
      ∧ (live.arriveBy 0 0x40).admits 0x133 0x4C 0x40 1 = true
      ∧ ((live.setFld F.RST_LOG_STATUS_BUSY 1).arriveBy 0 0x40).flag F.RST_LOG_STATUS_BUSY = true ∧ (live.arriveBy 0 0x40).flag F.RST_LOG_STATUS_BUSY = false
      ∧ (logStands.arrive 0).rst.fetch = some (0, 9) ∧ (logStands.arrive 0).fetchEntry 0 9 = some anEntry
      ∧ (logStands.arrive 0).fetchEntry 0 8 = none := by decide +kernel

/-- Rootstock READY from slot A in state `x` of Table 15-14, slot B in state `y`. -/
def slotsAre (x y : Nat) : State := (((rstIn 0).setFld F.RST_STATUS_READY 1).setFld F.RST_SLOT_A_STATE x).setFld F.RST_SLOT_B_STATE y

/-- A STAGE into slot B runs. -/
def stageRuns : State := ((slotsAre 4 1).setFld F.RST_UPD_STATUS_BUSY 1).updRst (fun r => { r with stage := some ⟨1, 0, 512⟩ })

theorem witness_UpdateCommands :
    (let b := (slotsAre 4 2).arriveBy 0 0x40
     [1, 2, 3, 4, 5, 6].all (fun op => b.admitsRws 0x131 0x4C 0x40 (updWord op 2)) = true ∧ b.flag F.RST_UPD_STATUS_BUSY = false
       ∧ b.updServed 1 = true ∧ b.fld (slotState b.bootedSlot) ≠ Slot.trial ∧ b.fld (slotState (1 - b.bootedSlot)) = Slot.staged
       ∧ b.flag F.RST_STATUS_READY = true ∧ b.romRecovery = false ∧ b.securityRoom [] = true ∧ 2 ≠ (b.slotImage b.bootedSlot).keySlot
       ∧ b.rst.stage = none)
      ∧ ((slotsAre 3 0).arriveBy 0 0x40).fld (slotState 0) = Slot.trial ∧ ((slotsAre 3 0).arriveBy 0 0x40).fld (slotState 1) ≠ Slot.staged
      ∧ (stageRuns.arriveBy 0 0x40).flag F.RST_UPD_STATUS_BUSY = true ∧ (stageRuns.arriveBy 0 0x40).rst.stage = some ⟨1, 0, 512⟩
      ∧ (stageRuns.arriveBy 0 0x40).admitsRws 0x131 0x4C 0x40 (updWord 5 2) = true
      ∧ (stageRuns.arrive 0).rst.stage = some ⟨1, 0, 512⟩ ∧ (stageRuns.arrive 0).rstUp = true ∧ (stageRuns.arrive 0).readsClean = true
      ∧ ((live.setFld F.RST_STATUS_READY 0).arriveBy 0 0x40).updServed 5 = false ∧ ((slotsAre 4 2).arriveBy 0 0x40).updServed 5 = true
      ∧ ((slotsAre 4 2).setNvm (securityIndex 5) { slot0 := .empty, wear := 200000 } |>.arriveBy 0 0x40).securityRoom [5] = false := by decide +kernel

/-- A debug session of level `l` whose lease ends at AON cycle 100. -/
def sessionAt (l : Nat) : State :=
  ((rstIn 0).setFld F.RST_DBG_STATUS_LEVEL l).updRst (fun r => { r with leaseEnd := 100 })

theorem witness_OverrideAndDebug :
    ((rstIn 0).arriveBy 0 0x40).admitsRws 0x130 0x54 0x40 (word (0x4F56 % 2 ^ 16 * 2 ^ 16 + 1)) = true
      ∧ ((rstIn 0).arriveBy 0 0x40).admitsRws 0x130 0x54 0x40 (word (0x4F56 % 2 ^ 16 * 2 ^ 16 + 0)) = true
      ∧ ((rstIn 0).arriveBy 0 0x40).admitsRws 0x130 0x54 0x40 (word (1 % 2 ^ 16 * 2 ^ 16 + 1)) = true
      ∧ ((rstIn 0).arriveBy 0 0x40).flag F.RST_STATUS_OVERRIDE = false
      ∧ (((rstIn 0).setFld F.RST_STATUS_OVERRIDE 1).arriveBy 0 0x40).flag F.RST_STATUS_OVERRIDE = true
      ∧ ((rstIn 0).arrive 0).rstUp = true ∧ ((rstIn 2).arrive 0).rstUp = false ∧ ((rstIn 0).arrive 0).dbgAccepted [] = false
      ∧ ((sessionAt 2).arrive 0).dbgLevel = 2 ∧ ((sessionAt 3).arrive 0).dbgLevel = 3 ∧ ((sessionAt 0).arrive 0).dbgLevel = 0
      ∧ ((sessionAt 2).arrive 0).cycles < ((sessionAt 2).arrive 0).rst.leaseEnd
      ∧ ((sessionAt 2).arrive 100).rst.leaseEnd ≤ ((sessionAt 2).arrive 100).cycles ∧ ((sessionAt 2).arrive 100).dbgLevel ≠ 0
      ∧ ((((rstIn 0).setFld F.RST_DBG_STATUS_LOCKOUT 1)).arrive 0).flag F.RST_DBG_STATUS_LOCKOUT = true
      ∧ ((rstIn 0).arrive 0).rst.lockoutEnd ≤ ((rstIn 0).arrive 0).cycles
      ∧ (((rstIn 0).updRst (fun r => { r with lockoutEnd := 5 })).arrive 0).cycles < (((rstIn 0).updRst (fun r => { r with lockoutEnd := 5 })).arrive 0).rst.lockoutEnd
      ∧ ((rstIn 0).arriveBy 0 0x40).admitsRws 0x134 0x4C 0x40 2 = true ∧ ((rstIn 0).arriveBy 0 0x40).admitsRws 0x134 0x4C 0x40 7 = true
      ∧ ((runsAt (sessionAt 3) 0x010).arrive 0).framePaced = true ∧ ((sessionAt 3).arrive 0).framePaced = false
      ∧ ((sessionAt 3).arrive 0).pstate 0x010 ≠ St.running ∧ ((runsAt (sessionAt 3) 0x010).arrive 0).pstate 0x010 = St.running := by decide +kernel

/-- The store is restored, with `q` queued. -/
def storeHolds (q : List PsvWrite) : State := ((rstIn 0).setFld F.PSV_STATUS_RESTORED 1).updPsv (fun p => { p with queue := q })

theorem witness_PersistentStore :
    (let b := (storeHolds []).arriveBy 0 0x40
     (b.persistAdmit 0x221 (0x40 + 8 * 3) 0x40 5).1 = true ∧ (b.persistAdmit 0x221 (0x44 + 8 * 3) 0x40 6).1 = true ∧ b.flag F.PSV_STATUS_RESTORED = true
       ∧ b.inhibited = false ∧ (b.nvm (cellIndex 0x221 3)).wear ≠ 200000 ∧ 5 + 2 ^ 32 * 6 ≠ b.committed 0x221 3 ∧ b.committed 0x221 3 = 0
       ∧ b.psv.queue.length < 16)
      ∧ (let b := (storeHolds (List.replicate 16 ⟨0x221, 4, 7, 0x40⟩)).arriveBy 0 0x40
         (b.persistAdmit 0x221 (0x40 + 8 * 3) 0x40 5).1 = true ∧ (b.persistAdmit 0x221 (0x44 + 8 * 3) 0x40 6).1 = true ∧ b.flag F.PSV_STATUS_RESTORED = true ∧ b.inhibited = false ∧ 16 ≤ b.psv.queue.length ∧ (b.nvm (cellIndex 0x221 3)).wear ≠ 200000 ∧ 5 + 2 ^ 32 * 6 ≠ b.committed 0x221 3)
      ∧ (let b := ((storeHolds []).setNvm (cellIndex 0x221 3) { slot0 := .empty, wear := 200000 }).arriveBy 0 0x40
         (b.persistAdmit 0x221 (0x40 + 8 * 3) 0x40 5).1 = true ∧ (b.persistAdmit 0x221 (0x44 + 8 * 3) 0x40 6).1 = true ∧ b.flag F.PSV_STATUS_RESTORED = true ∧ b.inhibited = false ∧ (b.nvm (cellIndex 0x221 3)).wear = 200000)
      ∧ (let b := ((storeHolds []).setFld F.PSV_STATUS_INHIBIT 1).arriveBy 0 0x40
         (b.persistAdmit 0x221 (0x40 + 8 * 3) 0x40 5).1 = true ∧ (b.persistAdmit 0x221 (0x44 + 8 * 3) 0x40 6).1 = true ∧ b.flag F.PSV_STATUS_RESTORED = true ∧ b.inhibited = true)
      ∧ ((storeHolds []).arrive 0).psv.queue = [] ∧ ((storeHolds [⟨0x221, 4, 7, 0x40⟩]).arrive 0).psv.queue = ⟨0x221, 4, 7, 0x40⟩ :: [] ∧ isPersistent 0x221 = true
      ∧ (((storeHolds [⟨0x221, 4, 7, 0x40⟩]).arrive 0).nvm (cellIndex 0x221 4)).current = some (0, 0, 0, 0)
      ∧ ((storeHolds [⟨0x221, 4, 7, 0x40⟩]).arrive 0).psv.retried = false
      ∧ (((storeHolds [⟨0x221, 4, 7, 0x40⟩]).updPsv (fun p => { p with retried := true })).arrive 0).psv.retried = true
      ∧ ((storeHolds []).arriveBy 0 0x40).admits 0x210 0x48 0x40 0x02210004 = true ∧ getBits (0x02210004 : Word) 31 31 = 0
      ∧ persistentPages.contains (getBits (0x02210004 : Word) 25 16) = true ∧ getBits (0x02210004 : Word) 10 0 ≤ 503
      ∧ ((storeHolds []).arrive 0).flag F.RST_STATUS_READY = false
      ∧ (let b := ((storeHolds []).setFld F.RST_STATUS_READY 1).arrive 800000000000
         b.flag F.RST_STATUS_READY = true ∧ b.flag F.PSV_STATUS_RESTORED = true ∧ b.inhibited = false ∧ b.psv.queue.length ≤ 10
           ∧ b.accountLife.lifeDue 1 = true ∧ b.accountLife.lifeDue 2 = false) := by decide +kernel

theorem witness_PersistentStore_rise :
    let b := (storeHolds [⟨0x213, 0, 45, 1⟩]).arrive 0
    b.fld F.PSV_AGE_A_AGE_OFFSET_MV < 45 % 256 ∧ b.causeClass Cause.lifetime = 1 ∧ b.pwr.ageReported = false ∧ b.fld F.MBX_RST_RX_STATE ≤ 1
      ∧ isPersistent 0x213 = true ∧ (b.nvm (cellIndex 0x213 0)).current = some (0, 0, 0, 0) := by decide +kernel

/-- PARKED since AON cycle 0, with WAKE_IN on pin 0 and a timer of one second. -/
def parked : State :=
  (((live.setFld F.PWR_STATE 3).setFld F.PWR_WAKE_CFG_WAKE_IN_EN 1).setFld F.PWR_WAKE_CFG_TIMER_S 1).setCell R.GLB_GPIO_FUNC_A 3

theorem witness_PowerStatesChange :
    (let b := live.arriveBy 0 0x40
     [0, 1, 2, 3].all (fun x => b.admitsRws 0x150 0x44 0x40 (word x)) = true ∧ b.lowPower = false ∧ b.pwr.entering = 0 ∧ b.fld F.PWR_STATE ≠ 1
       ∧ b.quietForSleep = true ∧ b.sentryFault ≠ none)
      ∧ (parked.arriveBy 0 0x40).lowPower = true ∧ ((runsAt live 0x010).arriveBy 0 0x40).quietForSleep = false
      ∧ ((live.updPwr (fun p => { p with entering := 3 })).arrive 0).pwr.entering = 3 ∧ (live.arrive 0).pwr.wakeMask = 0
      ∧ (live.arrive 0).pwr.entering = 0 ∧ ((parked.arrive 200000000).flag F.PWR_WAKE_CFG_WAKE_IN_EN && (parked.arrive 200000000).pinSees 3) = true
      ∧ ((parked.arrive 200000000).fld F.PWR_WAKE_CFG_TIMER_S != 0 && Nat.ble ((parked.arrive 200000000).fld F.PWR_WAKE_CFG_TIMER_S * 1000000000)
          (((parked.arrive 200000000).timebase + 2 ^ 64 - (parked.arrive 200000000).pwr.enteredTs) % 2 ^ 64)) = true
      ∧ (parked.arrive 200000000).lowPower = true ∧ (parked.arrive 200000000).pwr.waking = false ∧ (live.arrive 0).pwr.waking = false
      ∧ ((live.updPwr (fun p => { p with waking := true })).arrive 0).pwr.waking = true
      ∧ (live.arriveBy 0 0x40).admits 0x150 0x58 0x40 3 = true ∧ (live.arrive 0).cycles < (live.arrive 0).pwr.hourAt + 720000000000
      ∧ (let b := ((rstIn 0).setFld F.RST_STATUS_READY 1).arrive 800000000000
         b.pwr.hourAt + 720000000000 ≤ b.cycles ∧ b.rstUp = true ∧ b.flag F.RST_STATUS_READY = true ∧ b.fld F.PWR_STATE < 2
           ∧ b.fld F.PSV_AGE_A_AGE_OFFSET_MV < 60)
      ∧ (let b := (((rstIn 0).setFld F.RST_STATUS_READY 1).setFld F.PSV_STATUS_RESTORED 1).arrive 800000000000
         b.fld F.PSV_AGE_A_AGE_OFFSET_MV < 60 ∧ b.flag F.PSV_STATUS_RESTORED = true ∧ b.inhibited = false
           ∧ (b.nvm (cellIndex 0x213 0)).wear ≠ 200000 ∧ b.psv.queue.length < 16 ∧ b.rstUp = true)
      ∧ (live.arrive 0).causeClass Cause.vddLow = 1 ∧ (live.arrive 0).fld F.GLB_CLOCK_STATUS_CORE_MHZ = 0 ∧ ((live.setFld F.GLB_CLOCK_STATUS_CORE_MHZ 1000).arrive 0).fld F.GLB_CLOCK_STATUS_CORE_MHZ ≠ 0
      ∧ 500 + 25 < (((live.setFld F.GLB_CLOCK_STATUS_CORE_MHZ 1000).setFld F.PSV_VF_A_VF_1 690).setFld F.PSV_VF_B_VF_2 760
          |>.arrive 0).vddLowRequest
      ∧ (State.reset.arrive 0).saf.inSafe = true := by decide +kernel

/-- In SENTRY with tile 4 and lane 2, its window in phase `ph`. -/
def sentryIn (ph : Nat) : State :=
  ((((live.setFld F.PWR_STATE 2).setFld F.PWR_SENTRY_CFG_TILE 4).setFld F.PWR_SENTRY_CFG_LANE 2).setFld F.PWR_SENTRY_CFG_PERIOD_MS 100
    |>.setFld F.PWR_SENTRY_WIN_LISTEN_MS 10 |>.setFld F.PWR_SENTRY_WIN_PROG_LIMIT_MS 10 |>.setFld F.PWR_SENTRY_BUF_OFFSET 0xA0000).updPwr
    (fun p => { p with phase := ph })

/-- The sentry program's run, stopped. -/
def sentryEnds : State := (sentryIn 2).updFrm (fun f => { f with running := [{ (sentryIn 2).sentryRun with stopped := true }] })

/-- The sentry program's run has dealt none of its items. -/
def sentryOver : State :=
  ((sentryIn 2).updFrm (fun f => { f with running := [(sentryIn 2).sentryRun] })).updTile 4 (fun t => { t with item := 1 })

theorem witness_SentryWindowsRun :
    (let b := (sentryIn 0).arrive 30000000
     b.fld F.PWR_STATE = 2 ∧ b.pwr.entering = 0 ∧ b.pwr.waking = false ∧ b.pwr.phase = 0
       ∧ b.pwr.windowAt + msCycles (b.fld F.PWR_SENTRY_CFG_PERIOD_MS) ≤ b.cycles ∧ b.skipWindow = false)
      ∧ (({ sentryIn 0 with saf := { inSafe := true } } : State).arrive 30000000).skipWindow = true
      ∧ ((sentryIn 0).arrive 0).cycles < ((sentryIn 0).arrive 0).pwr.windowAt + msCycles (((sentryIn 0).arrive 0).fld F.PWR_SENTRY_CFG_PERIOD_MS)
      ∧ ((sentryIn 1).arrive 30000000).pwr.phase = 1
      ∧ ((sentryIn 1).arrive 30000000).pwr.phaseAt + msCycles (((sentryIn 1).arrive 30000000).fld F.PWR_SENTRY_WIN_LISTEN_MS) ≤ ((sentryIn 1).arrive 30000000).cycles
      ∧ (sentryEnds.arrive 0).pwr.phase = 2 ∧ (sentryEnds.arrive 0).sentryDone = true ∧ (sentryEnds.arrive 0).sentryVerdict = 0
      ∧ ((sentryEnds.poke false (cellarAddr 4 (0xA0000 + 12)) [5]).arrive 0).sentryVerdict ≠ 0
      ∧ (sentryEnds.arrive 0).lowPower = true ∧ (sentryEnds.arrive 0).pwr.waking = false ∧ (sentryEnds.arrive 0).pwr.entering = 0
      ∧ (sentryOver.arrive 30000000).pwr.phase = 2 ∧ (sentryOver.arrive 30000000).sentryDone = false
      ∧ (sentryOver.arrive 30000000).pwr.phaseAt + msCycles ((sentryOver.arrive 30000000).fld F.PWR_SENTRY_WIN_PROG_LIMIT_MS) ≤ (sentryOver.arrive 30000000).cycles
      := by decide +kernel

/-- In the safe state for the host's request, which is over; a release is pending, and Rootstock runs. -/
def releaseWaits : State :=
  { (rstIn 0).setFld F.SAF_REQ_RESULT_PENDING 1 with saf := { inSafe := true, active := 0, parity := [0x160] } }

/-- A frame of 64 result bytes is published, and its check stands with CRC `c`. -/
def checkStands (c : Nat) : State :=
  { live with
    frm := { live.frm with publish := some { plan := { hdr := { resultBytes := 64 } } } }
    saf := { live.saf with e2e := some 0, e2eCrc := c, wdAt := some 0 } }

/-- An injection of target 9 in sensor 3 is armed. -/
def injReady : State := (live.setFld F.SAF_INJ_CTL_TARGET 9).setFld F.SAF_INJ_CTL_INSTANCE 3 |>.setFld F.SAF_INJ_CTL_ARM 1

theorem witness_SafeStateAndChecks_requests :
    (let b := live.arriveBy 0 0x40
     b.admits 0x160 0x58 0x40 (word (0x5346 % 2 ^ 16 * 2 ^ 16 + 2)) = true ∧ b.admits 0x160 0x58 0x40 (word (0x5346 % 2 ^ 16 * 2 ^ 16 + 1)) = true
       ∧ b.admits 0x160 0x58 0x40 (word (5 % 2 ^ 16 * 2 ^ 16 + 2)) = true ∧ b.admits 0x160 0x58 0x40 (word (5 % 2 ^ 16 * 2 ^ 16 + 1)) = true
       ∧ Writer.isVf 0x40 = false ∧ b.saf.inSafe = false ∧ b.releaseBlockers = 0 ∧ b.saf.selfFault = false)
      ∧ (let b := ({ live.setFld F.SAF_FIRST_CAUSE 11 with saf := { inSafe := true } } : State).arriveBy 0 0x40
         b.saf.inSafe = true ∧ b.firstTs = b.timebase ∧ Cause.hostReq < b.fld F.SAF_FIRST_CAUSE)
      ∧ (releaseWaits.arriveBy 1 0x40).firstTs ≠ (releaseWaits.arriveBy 1 0x40).timebase
      ∧ (releaseWaits.arriveBy 0 0x40).saf.inSafe = true ∧ (State.reset.arriveBy 0 0x40).releaseBlockers ≠ 0
      ∧ ((rstIn 2).arrive 0).rstUp = false ∧ (releaseWaits.arrive 0).rstUp = true ∧ (releaseWaits.arrive 0).flag F.SAF_REQ_RESULT_PENDING = true
      ∧ (releaseWaits.arrive 0).releaseBlockers = 0 ∧ (releaseWaits.arrive 0).saf.selfFault = false
      ∧ (({ releaseWaits with saf := { inSafe := true, selfFault := true } } : State).arrive 0).saf.selfFault = true
      ∧ (runsAt (checkStands 0) 0x010 |>.arrive 1000000).saf.wdAt = some 0 ∧ (runsAt (checkStands 0) 0x010 |>.arrive 1000000).framePaced = true
      ∧ 0 + usCycles (runsAt (checkStands 0) 0x010 |>.arrive 1000000).saf.wdSlackUs ≤ (runsAt (checkStands 0) 0x010 |>.arrive 1000000).cycles
      ∧ (live.arrive 0).saf.wdAt = none := by decide +kernel

theorem witness_SafeStateAndChecks_checks :
    (live.arrive 0).saf.e2e = none ∧ ((checkStands 0).arrive 0).saf.e2e = some 0
      ∧ (let a := (checkStands (crc32 (List.replicate 64 0))).arrive 0
         a.saf.injActive = [] ∧ a.causeClass Cause.e2eMismatch = 1 ∧ (a.fetch (resultAddr 0 0) 64).2.saf = a.saf
           ∧ crc32 ((a.fetch (resultAddr 0 0) 64).1.bytes.take 0x3C ++ List.replicate 4 0 ++ (a.fetch (resultAddr 0 0) 64).1.bytes.drop 0x40) = a.saf.e2eCrc
           ∧ leNat ((a.fetch (resultAddr 0 0) 64).1.bytes.take 4) = 0)
      ∧ ((checkStands 0).arrive 0).saf.e2eCrc ≠ crc32 (List.replicate 64 0)
      ∧ (live.arrive 0).slk.redund.find? (fun r => r.lane == 2 * 1 && r.seq == 3) = none
      ∧ pageInfo 0x003 = none ∧ pageInfo 0x160 ≠ none ∧ (live.arrive 0).fusedOffPage 0x160 = false ∧ (releaseWaits.arrive 0).saf.inSafe = true
      ∧ storeFault 0x101 0x40 = some (0x100, 0x6025) ∧ storeFault 0x0D1 0x100 = some (0x0D0, 0x6024) ∧ storeFault 0x11A 0xFFF = some (0x110, 0x6026)
      ∧ storeFault 0x160 0x40 = none ∧ storeFault 0x0D2 0x63 = none ∧ pageInfo 0x0D1 ≠ none ∧ pageInfo 0x101 ≠ none ∧ pageInfo 0x11A ≠ none
      ∧ (releaseWaits.arrive 0).fusedOffPage 0x0D1 = false ∧ (releaseWaits.arrive 0).fusedOffPage 0x101 = false
      ∧ (releaseWaits.arrive 0).fusedOffPage 0x11A = false ∧ (releaseWaits.arrive 0).frm.compute = none
      ∧ scoreboardReg 0x080 0x44 = true ∧ pageInfo 0x080 ≠ none ∧ (releaseWaits.arrive 0).fusedOffPage 0x080 = false
      ∧ scoreboardReg 0x160 0x40 = false
      ∧ hasCtrl (statePage 0x160) = false ∧ hasCtrl (statePage 0x010) = true ∧ (releaseWaits.arrive 0).saf.parity.contains 0x160 = true
      ∧ (releaseWaits.arrive 0).otherFault 0x160 = false ∧ (live.arrive 0).saf.parity.contains 0x160 = false
      ∧ (live.arriveBy 0 0x40).admits 0x162 0x40 0x40 (word (2 ^ 16 + 3 % 64 * 2 ^ 8 + 9 % 256)) = true
      ∧ (live.arriveBy 0 0x40).fld F.PSV_SAF_WD_INJ_ALLOW = 0 ∧ ((live.setFld F.PSV_SAF_WD_INJ_ALLOW 1).arriveBy 0 0x40).fld F.PSV_SAF_WD_INJ_ALLOW ≠ 0
      ∧ (injReady.arrive 0).flag F.SAF_INJ_CTL_ARM = true ∧ (injReady.arrive 0).canInject 9 3 = true ∧ (live.arrive 0).flag F.SAF_INJ_CTL_ARM = false
      := by decide +kernel

/-- SEQ 3 of the pair of lanes 2 and 3 waits with these results. -/
def pairStands (x : Option Verdict) : State :=
  live.updSlk (fun k => { k with redund := [{ lane := 2, seq := 3, primary := x, secondary := x }] })

theorem witness_SafeStateAndChecks_pairs :
    (((pairStands (some (.lost { seq := 3 } 1))).arrive 0).slk.redund.find? (fun r => r.lane == 2 * 1 && r.seq == 3)).map (fun r => (r.primary.isSome, r.secondary.isSome))
        = some (true, true)
      ∧ (((pairStands none).arrive 0).slk.redund.find? (fun r => r.lane == 2 * 1 && r.seq == 3)).map (fun r => (r.primary.isNone, r.secondary.isNone))
        = some (true, true) := by decide +kernel

/-- Start-up has reached READY; `bits` are the steps of BOOT_STATUS that are done. -/
def bootAt (bits : Word) : State := State.reset.setCell R.GLB_BOOT_STATUS bits

theorem witness_StartUpAndPins_boot :
    ((bootAt 0x2F).arrive 0).boot.resetPending = false ∧ ((bootAt 0x2F).arrive 0).psv.queue = []
      ∧ (((bootAt 0x2F).updBoot (fun b => { b with resetPending := true })).arrive 0).boot.resetPending = true
      ∧ (live.arriveBy 0 0x40).portCheck 0x000 0x64 0x40 = none ∧ Writer.isVf 0x40 = false ∧ Writer.isVf 0x41 = true ∧ 0x4456 % 2 ^ 16 = 0x4456
      ∧ (live.arriveBy 0 0x40).framePaced = false ∧ ((runsAt live 0x010).arriveBy 0 0x40).framePaced = true ∧ (live.arriveBy 0 0x40).saf.inSafe = false
      ∧ ((runsAt live 0x010).arriveBy 0 0x40).portCheck 0x000 0x64 0x40 = none
      ∧ (let b := (bootAt 0x2F).arrive 0
         b.flag F.GLB_BOOT_STATUS_FW_READY = true ∧ b.flag F.GLB_BOOT_STATUS_TILES_TESTED = false ∧ b.flag F.GLB_BOOT_STATUS_MEM_READY = false ∧ b.saf.inSafe = true
           ∧ b.mem.shardBase4M < 2048 ∧ b.mem.chGib ≤ 8)
      ∧ (let b := (bootAt 0xEF).arrive 0
         b.flag F.GLB_BOOT_STATUS_CHECKS_DONE = false ∧ b.flag F.GLB_BOOT_STATUS_TILES_TESTED = true ∧ b.flag F.GLB_BOOT_STATUS_MEM_READY = true ∧ b.failStep = 0)
      ∧ (((bootAt 0xEF).setFld F.RST_CLK_MON_FAULT 1).arrive 0).failStep ≠ 0 ∧ (live.arrive 0).flag F.GLB_BOOT_STATUS_CHECKS_DONE = true := by decide +kernel

theorem witness_StartUpAndPins_pins :
    (live.arrive 0).nowCyc.abandoned.contains 0x010 = false ∧ (live.arrive 0).mem.upsets = [] ∧ (live.arrive 0).hif.vfEnable = false ∧ ((live.updHif (fun h => { h with vfEnable := true })).arrive 0).hif.vfEnable = true
      ∧ (live.arrive 0).windowHome 0x180010 = .cellar 1 0x10 ∧ (live.arrive 0).home (cellarAddr 1 0x10) = .cellar 1 0x10
      ∧ inLine (cellarAddr 1 0x10) 4 = true ∧ (∃ x, (live.arrive 0).windowHome 0x6000000 = .result x) ∧ (live.arrive 0).boot.resetPending = false
      ∧ (({ live with fuses := { live.fuses with tiles := 1 } } : State).arrive 0).windowHome 0x180010 = .fusedOff
      ∧ (live.arriveBy 0 0x40).admitsRwl 0x002 0x40 0x40 3 = true ∧ (live.arriveBy 0 0x40).movesHeld 0x40 3 = none
      ∧ (({ live with held := [(pinRes 0, 0x010)] } : State).arriveBy 0 0x40).movesHeld 0x40 3 = some (0, 0x010)
      ∧ (({ live with held := [(pinRes 0, 0x010)] } : State).arriveBy 0 0x40).admitsRwl 0x002 0x40 0x40 3 = true := by
  refine ⟨?_, ?_, ?_, ?_, ?_, ?_, ?_, ⟨0, ?_⟩, ?_, ?_, ?_, ?_, ?_, ?_⟩ <;> decide +kernel

theorem witness_EveryStepKeepsTheCanonicalForm : State.reset.canon = true ∧ (∃ t, step State.reset = .next t) := ⟨test_reset_canon, State.reset, rfl⟩

theorem witness_ExecLeavesTheQueue : ({ State.reset with pending := [.tick 0] } : State).pending = .tick 0 :: [] := rfl

/-! ## The spec's worked examples -/

/-- The two writes of Worked example 2.1, on the Separator's page OFF. -/
def collided : State := (live.arrive 0).registerWrite 0x40008 4 [⟨0x40, 1⟩, ⟨0x01, 5⟩] []

/-- Worked example 2.1: the row of cycle c + 1. -/
theorem test_example_2_1 :
    (collided.readReg 0x040 0x08).1 = 1 ∧ (collided.readReg 0x040 0x0C).1 = 1 ∧ (collided.readReg 0x040 0x2C).1 = 0x80080140
      ∧ (collided.page 0x040).errCode = 0xA002 ∧ (collided.page 0x040).errInfo = 0x00084001 ∧ (collided.page 0x040).eventRaw = 0xB0000000 := by
  decide +kernel

/-- Worked example 2.1: Rootstock writes again, and the page pauses. -/
theorem test_example_2_1_pause :
    let t := ((collided.arrive 0).registerWrite 0x40008 4 [⟨0x01, 5⟩] []).freezePoint 0x040
    (t.readReg 0x040 0x0C).1 = 0x16 ∧ (t.readReg 0x040 0x2C).1 = 0x80080101 := by decide +kernel

/-- Worked example 6.1, items 1 and 2. -/
theorem test_example_6_1 :
    State.reset.sepSample.sep.cell0 1000 (-300) 50 = some ⟨2126, 2024, 11, 16, 72, 122⟩ ∧ packKey 2126 2024 11 = 0x84E7E80B
      ∧ partitionOf 64 0x84E7E80B = 6 := by decide +kernel

/-- Worked example 6.1, item 3 and the pillar of site A. -/
theorem test_example_6_1_levels :
    (⟨2126, 2024, 11, 16, 72, 122⟩ : Cell0).at 1 = ⟨1063, 1012, 11, 16, 72, 122⟩ ∧ packKey 1063 1012 11 = 0x4273F40B
      ∧ partitionOf 64 0x4273F40B = 39 ∧ keyUp 1 3 0x4273F40B = 0x1090FD00
      ∧ cornerIn 1 3 0x4273F40B = (256 * 3, 0, 128 * 11) := by decide +kernel

/-- Worked example 10.1, items 1 to 4. -/
theorem test_example_10_1 :
    State.reset.dramTop = 0x3BE000000 ∧ State.reset.dramPlace 0x123456789 = some (4, 0x2468AC89)
      ∧ eccByte 0x2468AC89 = 0x26D60D49 ∧ eccWord 0x2468AC89 = 0x26D60FD4 := by decide +kernel

/-- The table of Worked example 11.1. -/
def mapPrior : EtuTable := { fmt := 0, elems := 64, rows := 1048576, nodeCount := 1, rowOff := 0 }

/-- Worked example 11.1, items 1 and 2. -/
theorem test_example_11_1 :
    mapPrior.rowBytes = 80 ∧ mapPrior.rsh = 131072 ∧ mapPrior.chan 300005 = 5 ∧ mapPrior.slot 300005 * mapPrior.rowBytes = 0x2DC6C0
      ∧ shardAddr 5 0x2DC6C0 = 0x002A002DC6C0 := by decide

/-- Worked example 17.1: 105.25, 112.25 and 107.75 degrees Celsius. -/
theorem test_example_17_1 : thermNext 421 0 = 1 ∧ thermNext 449 1 = 2 ∧ thermNext 431 2 = 1 := by decide

/-- The IDCODE of R840. -/
theorem test_idcode : ({ State.reset with rst := { State.reset.rst with ir := 0x02 } }).jtagCapture = some (32, 0x10064D57) := by decide +kernel

/-- Two wrong symbols of a codeword are corrected, three are not taken for a clean flit (R517, R520). -/
theorem test_fec : let l := flitLevels 5 cleanFlit
    receiveLevels 5 l = some (false, cleanFlit) ∧ receiveLevels 5 (spoilt 10 l) = some (true, cleanFlit) ∧ receiveLevels 5 (spoilt 15 l) = none := by
  decide +kernel

end Sys2Proof.Tests
end

section
/-! PROOFS. What the operations on registers, page headers, events and errors leave: all that lies behind the registers. -/

namespace Sys2Proof.Machine

/-- A part `π` that each step of a fold leaves is left by the fold. -/
theorem foldl_leaves {σ α β : Type} (π : σ → β) {f : σ → α → σ} (hf : ∀ s x, π (f s x) = π s) (l : List α) (s : σ) :
    π (l.foldl f s) = π s := by
  induction l generalizing s with
  | nil => rfl
  | cons x t ih => exact (ih (f s x)).trans (hf s x)

variable (s : State)

/-- All of the state but the registers, the page headers, the host interface, the record of the present cycle and the log queue: what
lies behind the registers. The operations of Machine/Ops.lean on registers, headers, events and errors leave it. -/
def State.inner : State := { s with regs := [], hdr := [], hif := {}, cyc := {}, logQueue := [] }

@[simp] theorem State.setCell_inner (k : Nat) (v : Word) : (s.setCell k v).inner = s.inner := rfl
@[simp] theorem State.setFld_inner (f : Field) (v : Nat) : (s.setFld f v).inner = s.inner := rfl
@[simp] theorem State.setPage_inner (p : Nat) (h : PageHdr) : (s.setPage p h).inner = s.inner := rfl
@[simp] theorem State.updCyc_inner (f : Cyc → Cyc) : (s.updCyc f).inner = s.inner := rfl
@[simp] theorem State.noteRise_inner (k : Nat) (m : Word) : (s.noteRise k m).inner = s.inner := rfl
@[simp] theorem State.bumpBy_inner (f : Field) (n : Nat) : (s.bumpBy f n).inner = s.inner := rfl
@[simp] theorem State.bump_inner (f : Field) : (s.bump f).inner = s.inner := rfl

@[simp] theorem State.signal_inner (fn v : Nat) : (s.signal fn v).inner = s.inner := by
  unfold State.signal
  split_ifs <;> rfl

@[simp] theorem State.signalRise_inner (p : Nat) (old new : Word) : (s.signalRise p old new).inner = s.inner := by
  unfold State.signalRise
  dsimp only
  split
  · split_ifs <;> simp only [State.signal_inner]
  · split_ifs <;> simp only [State.signal_inner]

@[simp] theorem State.updPage_inner (p : Nat) (f : PageHdr → PageHdr) : (s.updPage p f).inner = s.inner := by
  simp [State.updPage]

@[simp] theorem State.event_inner (p b : Nat) : (s.event p b).inner = s.inner := by
  simp [State.event]

@[simp] theorem State.eventAll_inner (ps : List Nat) (b : Nat) : (s.eventAll ps b).inner = s.inner :=
  foldl_leaves State.inner (fun s p => s.event_inner p b) ps s

@[simp] theorem State.setCond_inner (q : Nat) (f : Cond → Cond) : (s.setCond q f).inner = s.inner := by
  unfold State.setCond
  dsimp only
  split_ifs <;> simp

@[simp] theorem State.sepFollow_inner : s.sepFollow.inner = s.inner := by
  simp [State.sepFollow]

@[simp] theorem State.updCond_inner (p : Nat) (f : Cond → Cond) : (s.updCond p f).inner = s.inner := by
  unfold State.updCond
  dsimp only
  split_ifs <;> simp

@[simp] theorem State.logged_inner (r : LogReq) : (s.logged r).inner = s.inner := by
  unfold State.logged
  split_ifs <;> rfl

@[simp] theorem State.error_inner (p code : Nat) (info : Word) : (s.error p code info).inner = s.inner := by
  simp [State.error]

/-! ### The parts behind the registers, one by one -/

theorem State.frm_of_inner {s t : State} (h : t.inner = s.inner) : t.frm = s.frm := (congrArg State.frm h :)
theorem State.mem_of_inner {s t : State} (h : t.inner = s.inner) : t.mem = s.mem := (congrArg State.mem h :)
theorem State.cycles_of_inner {s t : State} (h : t.inner = s.inner) : t.cycles = s.cycles := (congrArg State.cycles h :)
theorem State.timebase_of_inner {s t : State} (h : t.inner = s.inner) : t.timebase = s.timebase := (congrArg State.timebase h :)

@[simp] theorem State.event_frm (p b : Nat) : (s.event p b).frm = s.frm := frm_of_inner (s.event_inner p b)
@[simp] theorem State.event_mem (p b : Nat) : (s.event p b).mem = s.mem := mem_of_inner (s.event_inner p b)

/-! ### What a rise of EVENT_PEND leaves of the registers -/

/-- A message of a vector reaches at most the register of the pending bits (R595). -/
theorem State.cell_signal (fn v : Nat) {k : Nat} (hk : k ≠ R.HIF_MSIX_PBA) : (s.signal fn v).cell k = s.cell k := by
  unfold State.signal
  split_ifs
  · rfl
  · exact State.cell_setCell_other s _ hk
  · rfl
  · rfl
  · rfl

theorem State.cell_signalRise (p : Nat) (old new : Word) {k : Nat} (hk : k ≠ R.HIF_MSIX_PBA) :
    (s.signalRise p old new).cell k = s.cell k := by
  unfold State.signalRise
  dsimp only
  split
  · split_ifs <;> simp only [State.cell_signal _ _ _ hk]
  · split_ifs <;> simp only [State.cell_signal _ _ _ hk]

theorem State.cell_event (p b : Nat) {k : Nat} (hk : k ≠ R.HIF_MSIX_PBA) : (s.event p b).cell k = s.cell k :=
  (State.cell_signalRise (s.setPage p _) p _ _ hk :)

@[simp] theorem State.page_updCyc (f : Cyc → Cyc) (p : Nat) : (s.updCyc f).page p = s.page p := rfl

/-- An event sets its bit of EVENT_RAW. -/
theorem State.page_event (p b : Nat) :
    (s.event p b).page p = { s.page p with eventRaw := (s.page p).eventRaw ||| (1#32 <<< b) } := by
  simp [State.event, State.noteRise]

end Sys2Proof.Machine
end

section
/-! PROOFS. The instant at which a state stands: no operation of jobs, stages, frames, causes or the safe state moves it (R26). -/

namespace Sys2Proof.Machine

/-- The instant at which a state stands: AON cycles since power-on, and TIMEBASE (R26). -/
def State.instant (s : State) : Nat × Nat := (s.cycles, s.timebase)

/-- A state written out stands at the instant written in it. -/
@[simp] theorem State.instant_mk {cycles timebase free : Nat} {regs : Sparse Word} {hdr : Sparse PageHdr} {held : List (Nat × Nat)}
    {waiters : List Waiter} {logQueue : List LogReq} {cyc : Cyc} {fuses : Fuses} {mem : MemState} {frm : Frm} {sep : Sep} {slk : Slk}
    {scv : Scv} {hrv : Hrv} {etu : Etu} {grf : Grf} {tiles : Sparse Tile} {hif : Hif} {saf : Saf} {gpio : Gpio} {rst : Rst} {psv : Psv}
    {pwr : Pwr} {boot : Boot} {pending : List Instr} :
    State.instant ⟨cycles, timebase, free, regs, hdr, held, waiters, logQueue, cyc, fuses, mem, frm, sep, slk, scv, hrv, etu, grf, tiles, hif,
      saf, gpio, rst, psv, pwr, boot, pending⟩ = (cycles, timebase) := rfl

variable (s : State)

/-- The two parts of an instant are put together again. -/
@[simp] theorem State.instant_eta : (s.cycles, s.timebase) = s.instant := rfl

theorem State.instant_of_inner {s t : State} (h : t.inner = s.inner) : t.instant = s.instant :=
  Prod.ext (cycles_of_inner h) (timebase_of_inner h)

/-- An operation that takes no time takes none over a list. -/
@[simp] theorem State.foldl_instant {α : Type} {f : State → α → State} (hf : ∀ s x, (f s x).instant = s.instant) (l : List α) :
    (l.foldl f s).instant = s.instant :=
  foldl_leaves State.instant hf l s

/-- The same for an operation that also answers a value. -/
@[simp] theorem State.foldl_snd_instant {α β : Type} {f : β × State → α → β × State} (hf : ∀ r x, (f r x).2.instant = r.2.instant)
    (l : List α) (r : β × State) : (l.foldl f r).2.instant = r.2.instant :=
  foldl_leaves (fun r : β × State => r.2.instant) hf l r

/-! ### Updates of one part

The proofs are written `(rfl)` so that simp takes each as a step of its own: left to compare whole states, the kernel would evaluate the
writes of registers and headers in them. -/

@[simp] theorem State.updFrm_instant (f : Frm → Frm) : (s.updFrm f).instant = s.instant := (rfl)
@[simp] theorem State.updHrv_instant (f : Hrv → Hrv) : (s.updHrv f).instant = s.instant := (rfl)
@[simp] theorem State.updEtu_instant (f : Etu → Etu) : (s.updEtu f).instant = s.instant := (rfl)
@[simp] theorem State.updGrf_instant (f : Grf → Grf) : (s.updGrf f).instant = s.instant := (rfl)
@[simp] theorem State.updSaf_instant (f : Saf → Saf) : (s.updSaf f).instant = s.instant := (rfl)
@[simp] theorem State.updRst_instant (f : Rst → Rst) : (s.updRst f).instant = s.instant := (rfl)
@[simp] theorem State.updPsv_instant (f : Psv → Psv) : (s.updPsv f).instant = s.instant := (rfl)
@[simp] theorem State.updPwr_instant (f : Pwr → Pwr) : (s.updPwr f).instant = s.instant := (rfl)
@[simp] theorem State.updMem_instant (f : MemState → MemState) : (s.updMem f).instant = s.instant := (rfl)
@[simp] theorem State.drawFree_instant : s.drawFree.instant = s.instant := (rfl)
@[simp] theorem State.updTile_instant (n : Nat) (f : Tile → Tile) : (s.updTile n f).instant = s.instant := (rfl)
@[simp] theorem State.setJob_instant (c r : Nat) (j : Option Job) : (s.setJob c r j).instant = s.instant := (rfl)

/-! ### Registers, headers, events, errors -/

@[simp] theorem State.setCell_instant (k : Nat) (v : Word) : (s.setCell k v).instant = s.instant := (rfl)
@[simp] theorem State.setFld_instant (f : Field) (v : Nat) : (s.setFld f v).instant = s.instant := (rfl)
@[simp] theorem State.bumpBy_instant (f : Field) (n : Nat) : (s.bumpBy f n).instant = s.instant := (rfl)
@[simp] theorem State.bump_instant (f : Field) : (s.bump f).instant = s.instant := (rfl)
@[simp] theorem State.noteRise_instant (k : Nat) (m : Word) : (s.noteRise k m).instant = s.instant := (rfl)
@[simp] theorem State.signal_instant (fn v : Nat) : (s.signal fn v).instant = s.instant := instant_of_inner (s.signal_inner fn v)
@[simp] theorem State.updPage_instant (p : Nat) (f : PageHdr → PageHdr) : (s.updPage p f).instant = s.instant :=
  instant_of_inner (s.updPage_inner p f)
@[simp] theorem State.event_instant (p b : Nat) : (s.event p b).instant = s.instant := instant_of_inner (s.event_inner p b)
@[simp] theorem State.updCond_instant (p : Nat) (f : Cond → Cond) : (s.updCond p f).instant = s.instant :=
  instant_of_inner (s.updCond_inner p f)
@[simp] theorem State.error_instant (p code : Nat) (info : Word) : (s.error p code info).instant = s.instant :=
  instant_of_inner (s.error_inner p code info)

/-! ### Jobs and status blocks -/

@[simp] theorem State.writeStatus_instant (c : Nat) (j : Job) (st code crc : Nat) : (s.writeStatus c j st code crc).instant = s.instant := by
  unfold State.writeStatus
  split_ifs <;> rfl

@[simp] theorem State.jobAborted_instant (c r : Nat) (j : Job) (code : Nat) : (s.jobAborted c r j code).instant = s.instant := by
  simp [State.jobAborted]

@[simp] theorem State.jobDone_instant (c r : Nat) (j : Job) (code crc : Nat) : (s.jobDone c r j code crc).instant = s.instant := by
  unfold State.jobDone
  dsimp only
  split_ifs <;> simp

@[simp] theorem State.abortFollowers_instant (n code : Nat) : (s.abortFollowers n code).instant = s.instant := by
  simp [State.abortFollowers]

@[simp] theorem State.doneFollowers_instant (n code crc : Nat) : (s.doneFollowers n code crc).instant = s.instant := by
  simp [State.doneFollowers]

@[simp] theorem State.endWaiters_instant (n code : Nat) (aborted : Bool) : (s.endWaiters n code aborted).instant = s.instant := by
  cases aborted <;> simp [State.endWaiters]

/-! ### Stored bytes without marks -/

@[simp] theorem State.pokeByte_instant (o : Bool) (d : Nat) (b : Byte) : (s.pokeByte o d b).instant = s.instant := by
  unfold State.pokeByte
  split
  case h_3 => split_ifs <;> rfl
  all_goals rfl

@[simp] theorem State.poke_instant (o : Bool) (d : Nat) (bs : List Byte) : (s.poke o d bs).instant = s.instant := by
  induction bs generalizing s d with
  | nil => rfl
  | cons b t ih => simp [State.poke, ih]

@[simp] theorem State.scramble_instant (o : Bool) (d n : Nat) : (s.scramble o d n).instant = s.instant := by
  simp [State.scramble]

/-! ### Frames that stop -/

@[simp] theorem State.setBank_instant (b : Nat) (k : Bank) : (s.setBank b k).instant = s.instant := by
  unfold State.setBank
  split_ifs <;> rfl

@[simp] theorem State.freeBank_instant (b : Option Nat) : (s.freeBank b).instant = s.instant := by
  cases b <;> simp [State.freeBank]

@[simp] theorem State.freeFrameBanks_instant (f : Frame) : (s.freeFrameBanks f).instant = s.instant := by
  simp [State.freeFrameBanks]

@[simp] theorem State.abandonOp_instant (r : RunStage) (x : OpRun) : (s.abandonOp r x).instant = s.instant := by
  simp [State.abandonOp]

@[simp] theorem State.releaseTile_instant (n : Nat) : (s.releaseTile n).instant = s.instant := by
  simp [State.releaseTile]

@[simp] theorem State.stopTiles_instant (r : RunStage) : (s.stopTiles r).instant = s.instant := by
  simp [State.stopTiles]

@[simp] theorem State.stopBev_instant (r : RunStage) : (s.stopBev r).instant = s.instant := by
  unfold State.stopBev
  dsimp only
  split_ifs <;> simp

@[simp] theorem State.stopEtuJob_instant (r : RunStage) (code : Nat) : (s.stopEtuJob r code).instant = s.instant := by
  unfold State.stopEtuJob State.etuLastErr
  dsimp only
  split_ifs
  · rfl
  · split
    · simp
    · split_ifs <;> simp

@[simp] theorem State.stopHrvRun_instant (code : Nat) : (s.stopHrvRun code).instant = s.instant := by
  unfold State.stopHrvRun
  split <;> simp

@[simp] theorem State.stopHarvest_instant (code : Nat) : (s.stopHarvest code).instant = s.instant := by
  simp [State.stopHarvest]

@[simp] theorem State.stopRemote_instant : s.stopRemote.instant = s.instant := (rfl)

@[simp] theorem State.stopStages_instant (code : Nat) : (s.stopStages code).instant = s.instant := by
  simp [State.stopStages, apply_ite State.instant]

@[simp] theorem State.freeSets_instant : s.freeSets.instant = s.instant := (rfl)
@[simp] theorem State.noSets_instant : s.noSets.instant = s.instant := (rfl)

@[simp] theorem State.dropCompute_instant (code : Nat) : (s.dropCompute code).instant = s.instant := by
  unfold State.dropCompute
  split <;> simp

@[simp] theorem State.dropPoints_instant (n : Nat) : (s.dropPoints n).instant = s.instant := (rfl)

@[simp] theorem State.dropClosing_instant : s.dropClosing.instant = s.instant := by
  unfold State.dropClosing
  split <;> simp

@[simp] theorem State.dropIngest_instant : s.dropIngest.instant = s.instant := by
  unfold State.dropIngest
  split <;> simp

@[simp] theorem State.dropWaiting_instant (code : Nat) : (s.dropWaiting code).instant = s.instant := by
  unfold State.dropWaiting
  dsimp only
  split <;> split <;> simp

@[simp] theorem State.emptySlot_instant (b : Nat) : (s.emptySlot b).instant = s.instant := by
  simp [State.emptySlot, State.setSlot, State.showPlan, apply_ite State.instant]

@[simp] theorem State.afterFrame_instant : s.afterFrame.instant = s.instant := by
  have h := State.foldl_instant s (f := fun (s : State) b => if bitOf s.rst.emptyAfter b then s.emptySlot b else s)
    (fun s b => by simp [apply_ite State.instant]) (List.range 2)
  unfold State.afterFrame
  dsimp only
  split <;> split_ifs <;> simpa using h

/-! ### Causes and the safe state -/

@[simp] theorem State.raiseCause_instant (n : Nat) : (s.raiseCause n).instant = s.instant := by
  simp [State.raiseCause, apply_ite State.instant]

@[simp] theorem State.fabricClear_instant : s.fabricClear.instant = s.instant := by
  unfold State.fabricClear
  extract_lets _ _ _ s1 s2 s3 s4 s5 s6 s7
  have h6 : s6.instant = s.instant := by simp [s6, s5, s4, s3, s2, s1]
  have h7 : s7.instant = s6.instant := by
    unfold s7
    split_ifs
    · exact State.foldl_instant s6 (fun s p => s.updPage_instant p _) _
    · rfl
  refine (State.foldl_instant s7 (fun s n => ?_) _).trans (h7.trans h6)
  rw [State.updPage_instant, State.setFld_instant, State.updTile_instant]

@[simp] theorem State.sentryStop_instant : s.sentryStop.instant = s.instant := by
  simp [State.sentryStop, apply_ite State.instant]

@[simp] theorem State.takePins_instant (pins : List Nat) : (s.takePins pins).instant = s.instant := by
  unfold State.takePins
  dsimp only
  split
  · rfl
  · simp [apply_ite State.instant]

@[simp] theorem State.signalVfs_instant (v : Nat) : (s.signalVfs v).instant = s.instant := by
  simp [State.signalVfs]

@[simp] theorem State.enterSafe_instant (n code : Nat) : (s.enterSafe n code).instant = s.instant := by
  simp [State.enterSafe, State.lifeSafe, apply_ite State.instant]

@[simp] theorem State.latch_instant (n code : Nat) : (s.latch n code).instant = s.instant := by
  simp [State.latch, State.firstCause, apply_ite State.instant]

@[simp] theorem State.pageFault_instant (p code : Nat) : (s.pageFault p code).instant = s.instant := by
  simp [State.pageFault, apply_ite State.instant]

end Sys2Proof.Machine
end

section
/-! PROOFS. Neither does an access to memory, in this node or to another: the instant before it is the instant after it. -/

namespace Sys2Proof.Machine
variable (s : State)

/-! ### Requests to other nodes -/

@[simp] theorem State.updPort_instant (n : Nat) (f : GrfPort → GrfPort) : (s.updPort n f).instant = s.instant := (rfl)

@[simp] theorem State.sendPacket_instant (n : Nat) (x : Nat × Packet) : (s.sendPacket n x).instant = s.instant := by
  simp [State.sendPacket, State.countTx, apply_ite State.instant]

@[simp] theorem State.pumpPort_instant (n f : Nat) : (State.pumpPort n f s).instant = s.instant := by
  induction f generalizing s with
  | zero => rfl
  | succ f ih =>
    unfold State.pumpPort
    split
    · split
      · split_ifs <;> simp [ih]
      · rfl
    · rfl

@[simp] theorem State.emit_instant (arr : Option Nat) (d : Nat) (p : Packet) : (s.emit arr d p).instant = s.instant := by
  simp [State.emit, State.pump]

@[simp] theorem State.routeResp_instant (arr : Option Nat) (p : Packet) : (s.routeResp arr p).instant = s.instant := by
  unfold State.routeResp
  split
  · rfl
  · simp [apply_ite State.instant]

@[simp] theorem State.nodeLost_instant (node cause : Nat) : (s.nodeLost node cause).instant = s.instant := by
  simp [State.nodeLost]

@[simp] theorem State.answer_instant (x : GrfAns) : (s.answer x).instant = s.instant := by
  simp [State.answer, apply_ite State.instant]

@[simp] theorem State.loseReq_instant (q : GrfReq) (cause : Nat) : (s.loseReq q cause).instant = s.instant := by
  simp [State.loseReq, State.finishReq]

@[simp] theorem State.sendReq_instant (q : GrfReq) : (s.sendReq q).instant = s.instant := by
  unfold State.sendReq
  dsimp only
  split
  · simp
  · split_ifs <;> simp

@[simp] theorem State.request_instant (q : GrfReq) : (s.request q).instant = s.instant := by
  simp [State.request, apply_ite State.instant]

@[simp] theorem State.sendWrite_instant (d : Nat) (bs : List Byte) : (s.sendWrite d bs).instant = s.instant := by
  simp [State.sendWrite]

@[simp] theorem State.acked_instant (code : Nat) : (s.acked code).instant = s.instant := by
  simp [State.acked, apply_ite State.instant]

@[simp] theorem State.denied_instant : s.denied.instant = s.instant := by
  simp [State.denied]

/-! ### The mailbox area -/

@[simp] theorem State.wakeTile_instant (n : Nat) : (s.wakeTile n).instant = s.instant := by
  simp [State.wakeTile, apply_ite State.instant]

@[simp] theorem State.signalReceiver_instant (r : Nat) (rise : Word) : (s.signalReceiver r rise).instant = s.instant := by
  simp [State.signalReceiver, apply_ite State.instant]

@[simp] theorem State.ring_instant (r : Nat) (v : Word) : (s.ring r v).instant = s.instant := by
  simp [State.ring]

@[simp] theorem State.setMbSlot_instant (m : Nat) (b : List Byte) : (s.setMbSlot m b).instant = s.instant :=
  State.foldl_instant s (fun s _ => s.setCell_instant _ _) _

@[simp] theorem State.mbStore_instant (m : Nat) (b : List Byte) (sender node : Nat) : (s.mbStore m b sender node).instant = s.instant := by
  simp [State.mbStore, apply_ite State.instant]

@[simp] theorem State.mbForward_instant (m : Nat) (b : List Byte) (sender : Nat) : (s.mbForward m b sender).instant = s.instant := by
  simp [State.mbForward, State.mbMessage, apply_ite State.instant]

@[simp] theorem State.mbxRefuse_instant : s.mbxRefuse.instant = s.instant := by
  simp [State.mbxRefuse]

@[simp] theorem State.mbSend_instant (m : Nat) (b : List Byte) (sender : Nat) : (s.mbSend m b sender).1.instant = s.instant := by
  unfold State.mbSend
  split_ifs <;> simp

@[simp] theorem State.areaWriteWord_instant (x : Nat) (v : Word) : (s.areaWriteWord x v).instant = s.instant := by
  simp [State.areaWriteWord, State.clearCollision, State.mbTake, State.clearPend, State.setMask, State.setWake, apply_ite State.instant]

@[simp] theorem State.areaWords_instant (f x : Nat) (bs : List Byte) : (State.areaWords f s x bs).instant = s.instant := by
  induction f generalizing s x bs with
  | zero => rfl
  | succ f ih =>
    unfold State.areaWords
    split_ifs <;> simp [ih]

@[simp] theorem State.areaWrite_instant (x : Nat) (bs : List Byte) : (s.areaWrite x bs).instant = s.instant := by
  simp [State.areaWrite, State.areaRefuse, apply_ite State.instant]

/-! ### Reads of the memories, and the errors they meet -/


@[simp] theorem State.flushRange_instant (d n : Nat) : (s.flushRange d n).instant = s.instant := by
  unfold State.flushRange
  split
  · rfl
  · refine State.foldl_instant s (fun s i => ?_) _
    split <;> rfl

@[simp] theorem State.sepFault_instant : s.sepFault.instant = s.instant := s.pageFault_instant 0x040 0

@[simp] theorem State.dramUeNoted_instant (c a d : Nat) : (s.dramUeNoted c a d).instant = s.instant := by
  simp [State.dramUeNoted, apply_ite State.instant]

@[simp] theorem State.dramCe_instant (c : Nat) : (s.dramCe c).instant = s.instant := by
  simp [State.dramCe]

@[simp] theorem State.cellarUe_instant (t off : Nat) : (s.cellarUe t off).instant = s.instant := by
  simp [State.cellarUe, State.scvFault, apply_ite State.instant]

@[simp] theorem State.poisonLine_instant (c a : Nat) : (s.poisonLine c a).instant = s.instant := (rfl)

@[simp] theorem State.lineUe_instant (c p d : Nat) : (s.lineUe c p d).instant = s.instant := by
  simp [State.lineUe, apply_ite State.instant]

@[simp] theorem State.mendUnit_instant (cellar : Bool) (u : Nat) : (s.mendUnit cellar u).instant = s.instant := by
  simp [State.mendUnit, apply_ite State.instant]

@[simp] theorem State.meetPhys_instant (c p d : Nat) : (s.meetPhys c p d).2.instant = s.instant := by
  unfold State.meetPhys
  split <;> simp

@[simp] theorem State.meetLine_instant (c a d : Nat) : (s.meetLine c a d).2.instant = s.instant := by
  unfold State.meetLine
  split_ifs <;> simp

@[simp] theorem State.meetWord_instant (t off : Nat) : (s.meetWord t off).2.instant = s.instant := by
  unfold State.meetWord
  dsimp only
  split <;> simp

@[simp] theorem State.takeInjection_instant (target inst : Nat) : (s.takeInjection target inst).2.instant = s.instant := by
  unfold State.takeInjection
  split_ifs <;> rfl

@[simp] theorem State.readUnit_instant (d : Nat) : (s.readUnit d).2.instant = s.instant := by
  unfold State.readUnit
  dsimp only
  split
  case h_1 => split_ifs <;> simp
  case h_2 => split_ifs <;> simp
  case h_4 => split_ifs <;> simp
  all_goals rfl

@[simp] theorem State.readUnits_instant (d n : Nat) : (s.readUnits d n).2.instant = s.instant := by
  unfold State.readUnits
  split_ifs <;> simp

@[simp] theorem State.localFetch_instant (d n : Nat) : (s.localFetch d n).2.instant = s.instant := by
  simp [State.localFetch]

@[simp] theorem State.fetchPiece_instant (r : Bool × State) (x : Nat × Nat) : (State.fetchPiece r x).2.instant = r.2.instant := by
  unfold State.fetchPiece
  dsimp only
  split_ifs
  · simp
  · rfl
  · split <;> simp
  · rfl
  · simp

@[simp] theorem State.fetch_instant (d n : Nat) : (s.fetch d n).2.instant = s.instant := by
  simp [State.fetch, apply_ite Prod.snd, apply_ite State.instant]

/-! ### Writes to the memories -/

@[simp] theorem State.notePoison_instant (c : Nat) (b a : Bool) : (s.notePoison c b a).instant = s.instant := by
  simp [State.notePoison, apply_ite State.instant]

@[simp] theorem State.windowUnit_instant (k off : Nat) (bs : List Byte) (p : Bool) : (s.windowUnit k off bs p).instant = s.instant := by
  simp [State.windowUnit, apply_ite State.instant]

@[simp] theorem State.uncacheAt_instant (c a n : Nat) : (s.uncacheAt c a n).instant = s.instant := by
  simp [State.uncacheAt, apply_ite State.instant]

@[simp] theorem State.localUnit_instant (o : Bool) (d : Nat) (bs : List Byte) (p : Bool) : (s.localUnit o d bs p).instant = s.instant := by
  unfold State.localUnit
  split <;> simp [State.countBadAccess, apply_ite State.instant]

@[simp] theorem State.writeUnit_instant (o : Bool) (d : Nat) (bs : List Byte) (p : Bool) : (s.writeUnit o d bs p).instant = s.instant := by
  unfold State.writeUnit
  split
  case h_1 =>
    split_ifs
    · simp
    · split <;> simp
    · simp
  all_goals simp

@[simp] theorem State.writeFuel_instant (o p : Bool) (f d : Nat) (bs : List Byte) : (State.writeFuel o p f s d bs).instant = s.instant := by
  induction f generalizing s d bs with
  | zero => rfl
  | succ f ih =>
    unfold State.writeFuel
    split <;> simp [ih]

@[simp] theorem State.write_instant (d : Nat) (bs : List Byte) (p : Bool) : (s.write d bs p).instant = s.instant := by
  simp [State.write]

@[simp] theorem State.writeOut_instant (d : Nat) (bs : List Byte) (p : Bool) : (s.writeOut d bs p).instant = s.instant := by
  simp [State.writeOut]

end Sys2Proof.Machine
end

section
/-! PROOFS. The state right after reset (R26, R62, R698, R748, R759, R778, R784). -/

namespace Sys2Proof.Machine

/-- What holds of every value listed, and of what an unlisted key reads as, holds of the value read. -/
theorem Sparse.get_of_forall {α : Type} {d : Nat → α} {P : α → Prop} {m : Sparse α} (hm : ∀ x ∈ m, P x.2) (a : Nat) (hd : P (d a)) :
    P (Sparse.get d m a) := by
  induction m with
  | nil => exact hd
  | cons x t ih =>
    simp only [Sparse.get]
    split
    · exact hm x (List.mem_cons_self ..)
    · exact ih (fun y hy => hm y (List.mem_cons_of_mem _ hy))

/-- The header of a page that nothing has changed holds no lock, no error and no SOFT_RESET. -/
theorem hdrDefault_clear (p : Nat) : (hdrDefault p).lockHeld = false ∧ (hdrDefault p).errCode = 0 ∧ (hdrDefault p).softReset = false := by
  unfold hdrDefault
  split
  · split_ifs <;> exact ⟨rfl, rfl, rfl⟩
  · exact ⟨rfl, rfl, rfl⟩

/-- No lock, no error and no SOFT_RESET stand on a page at reset, be its header listed or not. -/
theorem reset_page_clear (p : Nat) :
    (State.reset.page p).lockHeld = false ∧ (State.reset.page p).errCode = 0 ∧ (State.reset.page p).softReset = false :=
  Sparse.get_of_forall (P := fun h : PageHdr => h.lockHeld = false ∧ h.errCode = 0 ∧ h.softReset = false)
    (by decide +kernel) p (hdrDefault_clear p)

/-- The registers that the factory leaves off their reset values are those of the update page. -/
theorem reset_cell (k : Nat) (hk : k / 4096 ≠ 0x131) : State.reset.cell k = resetCell k := by
  have h : k ≠ 0x131058 ∧ k ≠ 0x131060 ∧ k ≠ 0x131064 := by omega
  obtain ⟨h1, h2, h3⟩ := h
  simp [State.cell, State.reset, State.factoryRegs, Sparse.get, h1.symm, h2.symm, h3.symm]

theorem reset_peekByte (d : Nat) : State.reset.peekByte d = 0 := by
  unfold State.peekByte
  split <;> rfl

/-- Settles O58, part by part: the headers and cells that reset lists are the only ones off their defaults. -/
theorem resetIsStartOfStartUp : Obligations.ResetIsStartOfStartUp :=
  ⟨rfl, rfl, rfl, rfl, by decide +kernel, by decide +kernel, reset_page_clear, reset_cell, reset_peekByte, rfl, rfl, rfl, by decide +kernel⟩

end Sys2Proof.Machine
end

section
/-! PROOFS. The ingest of the next frame (R28, R36, R38). -/

namespace Sys2Proof.Machine

/-! ## The ingest of the next frame (R28, R36, R38) -/

section
variable (s : State)

@[simp] theorem State.setBank_frm (b : Nat) (k : Bank) : (s.setBank b k).frm = s.frm := by
  unfold State.setBank
  split_ifs <;> rfl

@[simp] theorem State.bump_frm (f : Field) : (s.bump f).frm = s.frm := (rfl)
@[simp] theorem State.updTile_frm (n : Nat) (f : Tile → Tile) : (s.updTile n f).frm = s.frm := rfl

/-- What the opening of an ingest gives a frame: its number, and the instant of its target pose. -/
def Frame.given (f : Frame) : Nat × Nat := (f.num, f.targetTs)

theorem updIf_given {n : Nat} {g : Frame → Frame} (hg : ∀ f, (g f).given = f.given) (o : Option Frame) :
    (updIf n g o).map Frame.given = o.map Frame.given := by
  cases o with
  | none => rfl
  | some f => by_cases h : f.num = n <;> simp [updIf, h, hg]

theorem updIf_other {n : Nat} {g : Frame → Frame} {o : Option Frame} (h : ∀ f, o = some f → f.num ≠ n) : updIf n g o = o := by
  cases o with
  | none => rfl
  | some f => simp [updIf, h f rfl]

/-- Between two states only frame `n` has changed, and not what the opening of its ingest gave it. -/
structure State.Serves (n : Nat) (s t : State) : Prop where
  lastNum : t.frm.lastNum = s.frm.lastNum
  consumed : t.frm.consumed = s.frm.consumed
  publish : t.frm.publish = s.frm.publish
  ingest : t.frm.ingest.map Frame.given = s.frm.ingest.map Frame.given
  compute : (∀ g, s.frm.compute = some g → g.num ≠ n) → t.frm.compute = s.frm.compute

variable {s} {n : Nat} {t u : State}

theorem State.Serves.of_frm (h : t.frm = s.frm) : s.Serves n t := by
  constructor <;> simp [h]

theorem State.Serves.trans (h : s.Serves n t) (k : t.Serves n u) : s.Serves n u where
  lastNum := k.lastNum.trans h.lastNum
  consumed := k.consumed.trans h.consumed
  publish := k.publish.trans h.publish
  ingest := k.ingest.trans h.ingest
  compute := fun hs => (k.compute (by rw [h.compute hs]; exact hs)).trans (h.compute hs)

theorem State.updFrame_serves {g : Frame → Frame} (hg : ∀ f, (g f).given = f.given) : s.Serves n (s.updFrame n g) where
  lastNum := rfl
  consumed := rfl
  publish := rfl
  ingest := updIf_given hg _
  compute := updIf_other

variable (s n)

theorem State.takeBank_serves : s.Serves n (s.takeBank n) := by
  unfold State.takeBank
  split
  · split_ifs
    · exact (Serves.of_frm (s.setBank_frm _ _)).trans (updFrame_serves fun _ => rfl)
    · exact (Serves.of_frm (s.setBank_frm _ _)).trans (updFrame_serves fun _ => rfl)
    · exact .of_frm rfl
  · exact .of_frm rfl
  · exact .of_frm rfl

theorem State.openBanks_serves : s.Serves n (s.openBanks n) := by
  unfold State.openBanks
  split_ifs
  · exact (s.takeBank_serves n).trans ((s.takeBank n).takeBank_serves n)
  · exact .of_frm rfl

/-- The frame whose ingest opens. -/
theorem State.openIngest_frm :
    s.openIngest.frm.lastNum = s.nextNum ∧ s.openIngest.frm.consumed = true ∧
      s.openIngest.frm.ingest.map Frame.given = some (s.nextNum, s.timebase + 1000 * s.fld F.FRM_PERIOD_US_PERIOD) ∧
      ((∀ g, s.frm.compute = some g → g.num ≠ s.nextNum) → s.openIngest.frm.compute = s.frm.compute) ∧
      s.openIngest.frm.publish = s.frm.publish := by
  unfold State.openIngest
  dsimp only
  split_ifs
  · exact ⟨rfl, rfl, rfl, fun _ => rfl, rfl⟩
  · obtain ⟨h1, h2, h3, h4, h5⟩ := State.openBanks_serves _ s.nextNum
    exact ⟨h1, h2, h4, h5, h3⟩

/-! ### What every tick notes -/

/-- The end of a test window changes of the Frame Scheduler only its lists of tiles under test (R397). -/
theorem State.testAbort_frm : ∃ l w, s.testAbort.frm = { s.frm with testTiles := l, testWindow := w } := by
  unfold State.testAbort
  split
  · exact ⟨s.frm.testTiles, s.frm.testWindow, rfl⟩
  · refine ⟨[], [], ?_⟩
    dsimp only
    rw [State.updFrm_frm, State.bump_frm, 
      foldl_leaves State.frm (fun s n => by rw [State.setFld_frm, State.updTile_frm])]

theorem State.testSkip_frm :
    s.testSkip.frm = { s.frm with testDoneInFrame := false, testAfterPub := false, beforeTick0 := false } := by
  unfold State.testSkip
  split_ifs <;> rfl

@[simp] theorem State.testAbort_instant : s.testAbort.instant = s.instant := by
  unfold State.testAbort
  split <;> simp

@[simp] theorem State.testSkip_instant : s.testSkip.instant = s.instant := by
  simp [State.testSkip, apply_ite State.instant]

@[simp] theorem State.tickNote_instant : s.tickNote.instant = s.instant := by
  simp [State.tickNote]

/-- A tick's notes leave the frame in ingest and the last number consumed. -/
theorem State.tickNote_frm : s.tickNote.frm.ingest = s.frm.ingest ∧ s.tickNote.frm.lastNum = s.frm.lastNum ∧
    s.tickNote.frm.consumed = s.frm.consumed := by
  unfold State.tickNote
  rw [State.testSkip_frm]
  obtain ⟨l, w, h⟩ := State.testAbort_frm (State.event _ 0x010 0)
  rw [h]
  simp

@[simp] theorem State.tickNote_nextNum : s.tickNote.nextNum = s.nextNum := by
  obtain ⟨-, hn, hc⟩ := s.tickNote_frm
  simp [State.nextNum, hn, hc]

/-- The first tick of a run closes no frame. -/
theorem State.makeTick_first (h : s.frm.ingest = none) :
    s.makeTick = ((s.tickNote.updFrm (fun f => { f with
      tickHist := (((s.nextNum + 2 ^ 32 - 1) % 2 ^ 32, s.timebase) :: f.tickHist).take 4 })).openIngest.tickLanes
        ((s.nextNum + 2 ^ 32 - 1) % 2 ^ 32)).wakePlanTiles := by
  have hi : s.tickNote.frm.ingest = none := s.tickNote_frm.1.trans h
  have ht : s.tickNote.timebase = s.timebase := congrArg Prod.snd s.tickNote_instant
  unfold State.makeTick
  simp only [hi, ht, State.tickNote_nextNum]

end

theorem exec_tick (dt : Nat) (s : State) : exec (.tick dt) s = .next (s.arrive dt).tick := rfl

/-- Settles O21: the number and the instant are given before the banks are taken, and taking a bank changes only what frame `n` holds; the
first tick's notes leave the frame in ingest and the numbers consumed. -/
theorem ingestOpensWithTheNextNumber : Obligations.IngestOpensWithTheNextNumber := by
  refine ⟨fun s => ?_, fun s dt => ?_⟩
  · obtain ⟨hn, hc, hi, hcomp, hpub⟩ := s.openIngest_frm
    refine ⟨hn, hc, ?_, ?_, hcomp, hpub⟩
    · simpa [Frame.given, State.nextNum] using congrArg (Option.map Prod.fst) hi
    · simpa [Frame.given] using congrArg (Option.map Prod.snd) hi
  · intro a p hr hx hp hi hk
    have h : a.tick = a.makeTick := if_pos ⟨hr, hx, hp.ne', hk⟩
    rw [exec_tick, h, a.makeTick_first hi]

end Sys2Proof.Machine
end

section
/-! PROOFS. The phases of a frame end (R30, R32, R33, R43, R157, R270, R280, R281). -/

namespace Sys2Proof.Machine

/-! ## The banks -/

section
variable (s : State)

@[simp] theorem State.bank_setFld (f : Field) (v b : Nat) : (s.setFld f v).bank b = s.bank b := (rfl)
@[simp] theorem State.bank_updFrame (n : Nat) (g : Frame → Frame) (b : Nat) : (s.updFrame n g).bank b = s.bank b := rfl

@[simp] theorem State.bank_setBank_same (b : Nat) (k : Bank) : (s.setBank b k).bank b = k := by
  unfold State.setBank State.bank
  split_ifs <;> rfl

theorem State.bank_setBank_other {a b : Nat} (k : Bank) (ha : a < 3) (hb : b < 3) (hab : a ≠ b) : (s.setBank b k).bank a = s.bank a := by
  grind [State.setBank, State.bank]

@[simp] theorem State.freeBank_frm (b : Option Nat) : (s.freeBank b).frm = s.frm := by
  cases b <;> simp [State.freeBank]

/-- A bank that is freed is empty. -/
theorem State.bank_freeBank_same (b : Nat) : (s.freeBank (some b)).bank b = {} := s.bank_setBank_same b {}

/-- A bank that is not freed stays. -/
theorem State.bank_freeBank_other {a : Nat} {o : Option Nat} (ha : a < 3) (ho : ∀ b, o = some b → b < 3) (hao : o ≠ some a) :
    (s.freeBank o).bank a = s.bank a := by
  cases o with
  | none => rfl
  | some b => exact s.bank_setBank_other {} ha (ho b rfl) (fun h => hao (congrArg some h.symm))

variable {s} in
/-- The frame in compute is updated by its number. -/
theorem State.updFrame_compute {f : Frame} (g : Frame → Frame) (h : s.frm.compute = some f) :
    (s.updFrame f.num g).frm.compute = some (g f) := by
  simp [State.updFrame, updIf, h]

/-! ## The commit (R281) -/

variable {f : Frame}

variable {s} in
theorem State.commit_compute (h : s.frm.compute = some f) :
    (s.commit f).frm.compute = some { f with committed := true, fineBank := f.admittedBank, coarseBank := none } := by
  unfold State.commit
  cases f.admittedBank with
  | none => exact State.updFrame_compute _ (by simpa using h)
  | some b => exact State.updFrame_compute _ (by simpa using h)

/-- The admitted bank keeps its entries and is COMMITTED. -/
theorem State.commit_admitted {b : Nat} (hb : f.admittedBank = some b) (hlt : ∀ x, f.admittedBank = some x ∨ f.otherBank = some x → x < 3)
    (ho : f.otherBank ≠ some b) : (s.commit f).bank b = { s.bank b with use := 3 } := by
  have hk : (s.freeBank f.otherBank).bank b = s.bank b :=
    s.bank_freeBank_other (hlt b (.inl hb)) (fun x hx => hlt x (.inr hx)) ho
  unfold State.commit
  simp only [hb, State.bank_updFrame, State.bank_setBank_same, hk]

/-- The other bank is free. -/
theorem State.commit_other {b : Nat} (hb : f.otherBank = some b) (hlt : ∀ x, f.admittedBank = some x ∨ f.otherBank = some x → x < 3)
    (ha : f.admittedBank ≠ some b) : (s.commit f).bank b = {} := by
  unfold State.commit
  cases hk : f.admittedBank with
  | none => simp only [hb, State.bank_updFrame, State.bank_freeBank_same]
  | some x =>
    have hx : b ≠ x := fun h => ha (by rw [hk, h])
    simp only [hb, State.bank_updFrame, State.bank_setBank_other _ _ (hlt b (.inr hb)) (hlt x (.inl hk)) hx, State.bank_freeBank_same]

/-- The registers of the commit are all that `commitRegs` writes. -/
theorem State.commitRegs_frm : (s.commitRegs f).frm = s.frm := by
  unfold State.commitRegs
  cases f.admittedBank <;> simp

theorem State.commitRegs_bank (b : Nat) : (s.commitRegs f).bank b = s.bank b := by
  unfold State.commitRegs
  cases f.admittedBank <;> simp

/-- The fields of the commit registers (Table 8-7). -/
theorem State.commitRegs_fld : (s.commitRegs f).fld F.SCV_COMMIT_FRAME = f.num % 256 ∧
    (s.commitRegs f).fld F.SCV_COMMIT_LEVEL = f.level % 4 ∧ (s.commitRegs f).fld F.SCV_SET_VALID_SETS = 1 := by
  unfold State.commitRegs
  cases f.admittedBank <;> simp (disch := decide) only [State.fld_setFld_apart, State.fld_setFld_same] <;> exact ⟨rfl, rfl, rfl⟩

end

/-! ## The commands -/

section
variable (dt : Nat) (s : State)

theorem exec_drainWindowEnd : exec (.drainWindowEnd dt) s = .next (s.arrive dt).drainWindowEnd := rfl
theorem exec_binningComplete : exec (.binningComplete dt) s = .next (s.arrive dt).binningComplete := rfl
theorem exec_sepCloseLate : exec (.sepCloseLate dt) s = .next (s.arrive dt).sepCloseLate := rfl
theorem exec_bankTake : exec (.bankTake dt) s = .next (s.arrive dt).bankTake := rfl
theorem exec_thinningDone : exec (.thinningDone dt) s = .next (s.arrive dt).thinningDone := rfl
theorem exec_directoryCommitDone : exec (.directoryCommitDone dt) s = .next (s.arrive dt).directoryDone := rfl
theorem exec_budgetExceeded : exec (.budgetExceeded dt) s = .next (s.arrive dt).budgetExceeded := rfl

end

/-! ## What each command does, case by case -/

section
variable {s : State} {f : Frame}

theorem State.drainWindowEnd_due (h : s.frm.drainOpen = true) (ht : s.frm.lastTickAt + 50000 ≤ s.cycles) :
    s.drainWindowEnd = s.updFrm (fun r => { r with drainOpen := false }) := if_pos ⟨h, ht⟩

theorem State.drainWindowEnd_early (ht : s.cycles < s.frm.lastTickAt + 50000) : s.drainWindowEnd = s :=
  if_neg fun h => absurd h.2 (Nat.not_le.mpr ht)

theorem State.unfrozen_compute (h : s.frm.compute = some f) (hf : f.frozen = false) : s.unfrozen = some f := by
  simp [State.unfrozen, h, hf]

theorem State.binningComplete_over (h : s.frm.compute = some f) (hf : f.frozen = false) (ho : f.freeRun = true ∨ s.frm.drainOpen = false)
    (hl : s.leftover f = 0) : s.binningComplete = (s.freezeFrame f).admitFrame := by
  unfold State.binningComplete
  rw [State.unfrozen_compute h hf]
  exact if_pos ⟨ho, hl⟩

theorem State.sepCloseLate_late (h : s.frm.compute = some f) (hf : f.frozen = false) (hr : f.freeRun = false)
    (ht : f.tickAt + 80000 ≤ s.cycles) :
    s.sepCloseLate = ((s.error 0x040 0x3003 (word f.num)).freezeFrame
      { f with dropped := f.dropped + s.leftover f, recFlags := setBit f.recFlags 5 }).admitFrame := by
  simp [State.sepCloseLate, h, hf, hr, usCycles, ht]

theorem State.sepCloseLate_early (h : s.frm.compute = some f) (ht : s.cycles < f.tickAt + 80000) (hc : s.frm.closing = none) :
    s.sepCloseLate = s := by
  unfold State.sepCloseLate
  simp [h, hc, usCycles]
  omega

theorem State.bankTake_lacks (h : s.lacksBank = some f) : s.bankTake = s.takeBank f.num := by
  simp [State.bankTake, h]

theorem State.bankTake_none (h : s.lacksBank = none) : s.bankTake = s := by
  simp [State.bankTake, h]

theorem State.thinningDone_thin (h : s.frm.compute = some f) (ha : f.admitted = true) (ht : f.thinned = true) (hd : f.thinDone = false) :
    s.thinningDone = s.thin f := by
  simp [State.thinningDone, h, ha, ht, hd]

theorem State.directoryDone_commit (h : s.frm.compute = some f) (ha : f.admitted = true) (hc : f.committed = false)
    (ht : f.thinned = false ∨ f.thinDone = true) : s.directoryDone = (s.commit f).commitRegs f := by
  unfold State.directoryDone
  rw [h]
  exact if_pos ⟨ha, hc, ht⟩

theorem State.budgetExceeded_passed (h : s.frm.compute = some f) (hr : f.freeRun = false) (hb : f.budgetExceeded = false)
    (ht : f.tickAt + 200 * f.plan.hdr.budgetUs < s.cycles) :
    s.budgetExceeded = ((s.updFrame f.num (fun f => { f with budgetExceeded := true })).error 0x010 0x3007 0).latch 12 0x3007 := by
  unfold State.budgetExceeded
  rw [h]
  exact if_pos ⟨hr, hb, ht⟩

theorem State.budgetExceeded_not (h : s.frm.compute = some f) (hn : f.budgetExceeded = true ∨ s.cycles ≤ f.tickAt + 200 * f.plan.hdr.budgetUs) :
    s.budgetExceeded = s := by
  unfold State.budgetExceeded
  rw [h]
  refine if_neg ?_
  rintro ⟨-, hb, ht⟩
  rcases hn with hn | hn
  · exact absurd hb (by simp [hn])
  · exact absurd ht (Nat.not_lt.mpr hn)

end

/-- Settles O23, by the case lemmas of the seven commands; the commit by what it leaves in the frame, the banks and the registers. -/
theorem framePhasesEnd : Obligations.FramePhasesEnd := by
  intro s dt a
  refine ⟨fun hd => ⟨fun ht => ?_, fun ht => ?_⟩, fun f hc hf => ⟨fun ho hl => ?_, fun hr ht => ?_, fun _ ht hn => ?_⟩,
    fun f hl => ?_, fun hl => ?_, fun f hc ha => ⟨fun ht hd => ?_, fun hu ht hlt => ?_⟩, fun f hc hr => ⟨fun hb ht => ?_, fun hn => ?_⟩⟩
  · rw [exec_drainWindowEnd, State.drainWindowEnd_due hd ht]
  · rw [exec_drainWindowEnd, State.drainWindowEnd_early ht]
  · rw [exec_binningComplete, State.binningComplete_over hc hf ho hl]
  · rw [exec_sepCloseLate, State.sepCloseLate_late hc hf hr ht]
  · rw [exec_sepCloseLate, State.sepCloseLate_early hc ht hn]
  · rw [exec_bankTake, State.bankTake_lacks hl]
  · rw [exec_bankTake, State.bankTake_none hl]
  · rw [exec_thinningDone, State.thinningDone_thin hc ha ht hd]
  · rw [exec_directoryCommitDone, State.directoryDone_commit hc ha hu ht]
    obtain ⟨hn, hl, hv⟩ := (a.commit f).commitRegs_fld (f := f)
    refine ⟨_, rfl, ?_, hn, hl, hv, fun b hb ho => ?_, fun b hb hk => ?_⟩
    · rw [State.commitRegs_frm, State.commit_compute hc, Option.map_some]
    · rw [State.commitRegs_bank, a.commit_admitted hb hlt ho]
      exact ⟨rfl, rfl⟩
    · rw [State.commitRegs_bank, a.commit_other hb hlt hk]
  · rw [exec_budgetExceeded, State.budgetExceeded_passed hc hr hb ht]
  · rw [exec_budgetExceeded, State.budgetExceeded_not hc hn]

end Sys2Proof.Machine
end

section
/-! PROOFS. Points are binned, poses enter their ring (R31, R257, R260, R266, R270, R271, R294). -/

namespace Sys2Proof.Machine

/-! ## Points (R257, R271) -/

section
variable {s : State} {f : Frame} {d : Delivered} {rest : List Delivered}

/-- A Separator that is neither PAUSED nor in FAULT or SAFE takes its first staged point and bins it. -/
theorem State.pointAccept_staged {fb cb : Nat} (hz : (s.page 0x040).cond.frozen = false) (hs : (s.page 0x040).cond.safe = false)
    (hf : (s.page 0x040).cond.fault = false) (h : s.stagedFrame = some f) (hd : f.staged = d :: rest) (hfb : f.fineBank = some fb)
    (hcb : f.coarseBank = some cb) :
    s.pointAccept =
      (if ((s.updFrame f.num (fun f => { f with staged := rest })).fetch (s.stageAddr d.slot) 16).1.poison
        then ((s.updFrame f.num (fun f => { f with staged := rest })).fetch (s.stageAddr d.slot) 16).2.sepFault
        else ((s.updFrame f.num (fun f => { f with staged := rest })).fetch (s.stageAddr d.slot) 16).2).binPoint
          { f with staged := rest } fb cb d := by
  simp only [State.pointAccept, hz, hs, hf, h, hd, hfb, hcb, Bool.or_self, Bool.false_eq_true, if_false]

/-- With no point staged it takes the oldest point delivered, for a frame that takes points. -/
theorem State.pointAccept_delivered (hz : (s.page 0x040).cond.frozen = false) (hs : (s.page 0x040).cond.safe = false)
    (hf : (s.page 0x040).cond.fault = false) (h : s.stagedFrame = none) (hd : s.sep.inbox = d :: rest)
    (ha : (s.updSep (fun q => { q with inbox := rest })).acceptsPoints d.frame = true)
    (hl : (s.updSep (fun q => { q with inbox := rest })).liveFrame d.frame = some f) (ho : f.sepOff = false) :
    s.pointAccept = (s.updSep (fun q => { q with inbox := rest })).takePoint f d := by
  simp only [State.pointAccept, hz, hs, hf, h, hd, ha, hl, ho, Bool.or_self, Bool.false_eq_true, if_false, if_true]

/-- A point of a frame whose window is over is late. -/
theorem State.pointAccept_late (hz : (s.page 0x040).cond.frozen = false) (hs : (s.page 0x040).cond.safe = false)
    (hf : (s.page 0x040).cond.fault = false) (h : s.stagedFrame = none) (hd : s.sep.inbox = d :: rest)
    (ha : (s.updSep (fun q => { q with inbox := rest })).acceptsPoints d.frame = false)
    (hw : (s.updSep (fun q => { q with inbox := rest })).windowOver d.frame = true) :
    s.pointAccept = (s.updSep (fun q => { q with inbox := rest })).latePoint d := by
  simp only [State.pointAccept, hz, hs, hf, h, hd, ha, hw, Bool.or_self, Bool.false_eq_true, if_false, if_true]

theorem State.takePoint_excluded (he : s.sep.exclude = true) (hp : bitOf d.pt.pflags 0 = true) :
    s.takePoint f d = (s.updFrame f.num (fun f => { f with excluded := f.excluded + 1 })).bump F.SEP_EXCLUDED_CNT := by
  simp [State.takePoint, he, hp]

theorem State.takePoint_binned {fb cb : Nat} (he : s.sep.exclude = false ∨ bitOf d.pt.pflags 0 = false) (hfb : f.fineBank = some fb)
    (hcb : f.coarseBank = some cb) : s.takePoint f d = s.binPoint f fb cb d := by
  have hx : (s.sep.exclude && bitOf d.pt.pflags 0) = false := Bool.and_eq_false_iff.mpr he
  simp only [State.takePoint, hx, hfb, hcb, Bool.false_eq_true, if_false]

theorem State.takePoint_staged (he : s.sep.exclude = false ∨ bitOf d.pt.pflags 0 = false)
    (hb : f.fineBank = none ∨ f.coarseBank = none) : s.takePoint f d = s.stagePoint f d := by
  have hx : (s.sep.exclude && bitOf d.pt.pflags 0) = false := Bool.and_eq_false_iff.mpr he
  cases hfb : f.fineBank with
  | none => simp only [State.takePoint, hx, hfb, Bool.false_eq_true, if_false]
  | some fb =>
    have hcb : f.coarseBank = none := hb.resolve_left (by simp [hfb])
    simp only [State.takePoint, hx, hfb, hcb, Bool.false_eq_true, if_false]

theorem State.binCoords_outside {fb cb : Nat} {x y z : Int} {p : PointRec} (h : s.sep.cell0 x y z = none) :
    s.binCoords f fb cb x y z p = (s.updFrame f.num (fun f => { f with outOfGrid := f.outOfGrid + 1 })).bump F.SEP_OUT_OF_GRID_CNT := by
  simp [State.binCoords, h]

end

/-! ## Poses (R260) -/

section
variable (s : State)

/-- A write that neither the state of the page nor its encoding discards takes effect. -/
theorem State.onWrite_admitted {s : State} {p off w : Nat} {v : Word} (h : s.admits p off w v = true) (f : State → State) :
    s.onWrite p off w v f = f s := by
  simp only [State.admits, Bool.and_eq_true, Option.isNone_iff_eq_none] at h
  simp [State.onWrite, h.1, h.2]

@[simp] theorem State.wrote_sep (p w : Nat) : (s.wrote p w).sep = s.sep := rfl
@[simp] theorem State.wrote_mem (p w : Nat) : (s.wrote p w).mem = s.mem := rfl
@[simp] theorem State.wrote_frm (p w : Nat) : (s.wrote p w).frm = s.frm := rfl

@[simp] theorem State.wrote_lastWriter (p w : Nat) : ((s.wrote p w).page p).lastWriter = w := by
  simp [State.page_wrote]

/-- The status of the pose ring is registers only. -/
theorem State.poseStatus_leaves : s.poseStatus.sep = s.sep ∧ s.poseStatus.mem = s.mem ∧ s.poseStatus.frm = s.frm := by
  unfold State.poseStatus
  dsimp only
  split <;> simp

theorem State.latchPose_leaves (f : Frame) : (s.latchPose f).2.sep = s.sep ∧ (s.latchPose f).2.mem = s.mem := by
  simp [State.latchPose]

/-- A PUSH of the cycle in which the target pose of frame `o` was latched latches it again: one frame's part of `State.relatch`. -/
def State.relatchOne (o : Option Frame) : State :=
  match o with
  | some f => if f.openAt = s.cycles then (s.latchPose f).2.updFrame f.num (fun _ => (s.latchPose f).1) else s
  | none => s

theorem State.relatch_eq : s.relatch = (s.relatchOne s.frm.ingest).relatchOne s.frm.compute := rfl

theorem State.relatchOne_leaves (o : Option Frame) : (s.relatchOne o).sep = s.sep ∧ (s.relatchOne o).mem = s.mem := by
  cases o with
  | none => exact ⟨rfl, rfl⟩
  | some f =>
    dsimp only [State.relatchOne]
    split_ifs
    · exact s.latchPose_leaves f
    · exact ⟨rfl, rfl⟩

/-- The latch again reaches registers and frames only. -/
theorem State.relatch_leaves : s.relatch.sep = s.sep ∧ s.relatch.mem = s.mem := by
  obtain ⟨hs, hm⟩ := s.relatchOne_leaves s.frm.ingest
  obtain ⟨ks, km⟩ := (s.relatchOne s.frm.ingest).relatchOne_leaves s.frm.compute
  rw [State.relatch_eq]
  exact ⟨ks.trans hs, km.trans hm⟩

/-- The bytes of the staged sample. -/
def State.poseStaged (s : State) : List Byte := (List.range 8).flatMap (fun k => leBytes 4 (s.cell (R.SEP_POSE_STAGE k)).toNat)

variable {s}

/-- A sample is taken whose norm is right and which is newer than the newest held. -/
theorem State.posePush_eq_of_newer (h0 : leNat (s.poseStaged.drop 0x1C) = 0) (hn : (poseOf s.poseStaged).normOk = true)
    (ht : ∀ q ∈ s.sep.poses.getLast?, q.ts < (poseOf s.poseStaged).ts) :
    s.posePush = ((s.updSep (fun q => { q with poses :=
      if 32 < (s.sep.poses ++ [poseOf s.poseStaged]).length then (s.sep.poses ++ [poseOf s.poseStaged]).drop 1
      else s.sep.poses ++ [poseOf s.poseStaged] })).poseStatus).relatch := by
  unfold State.poseStaged at *
  cases hl : s.sep.poses.getLast? with
  | none =>
    have hw : s.sep.newest = none := by simp [Sep.newest, hl]
    simp only [State.posePush, h0, hn, hw, ne_eq, not_true_eq_false, if_false, Bool.not_true, Bool.or_self, Bool.false_eq_true]
  | some q =>
    have hw : s.sep.newest = some q.ts := by simp [Sep.newest, hl]
    have hq := decide_eq_false (Nat.not_le.mpr (ht q hl))
    simp only [State.posePush, h0, hn, hw, hq, ne_eq, not_true_eq_false, if_false, Bool.not_true, Bool.or_self, Bool.false_eq_true]

/-- The ring after a PUSH that is taken keeps the newest 32. -/
theorem State.posePush_taken (h0 : leNat (s.poseStaged.drop 0x1C) = 0) (hn : (poseOf s.poseStaged).normOk = true)
    (ht : ∀ q ∈ s.sep.poses.getLast?, q.ts < (poseOf s.poseStaged).ts) :
    s.posePush.sep.poses =
      (s.sep.poses ++ [poseOf s.poseStaged]).drop (if 32 < s.sep.poses.length + 1 then 1 else 0) ∧ s.posePush.mem = s.mem := by
  rw [State.posePush_eq_of_newer h0 hn ht, (State.relatch_leaves _).1, (State.relatch_leaves _).2, (State.poseStatus_leaves _).1,
    (State.poseStatus_leaves _).2.1]
  refine ⟨?_, rfl⟩
  rw [State.updSep_sep, List.length_append, List.length_singleton]
  split_ifs <;> rfl

/-- Any other sample is rejected. -/
theorem State.posePush_rejected (h0 : leNat (s.poseStaged.drop 0x1C) = 0)
    (h : (poseOf s.poseStaged).normOk = false ∨ ∃ q, s.sep.poses.getLast? = some q ∧ (poseOf s.poseStaged).ts ≤ q.ts) :
    s.posePush = s.bump F.SEP_POSE_REJECT_CNT := by
  unfold State.poseStaged at *
  rcases h with h | ⟨q, hl, hq⟩
  · simp only [State.posePush, State.poseReject, h0, h, ne_eq, not_true_eq_false, if_false, Bool.not_false, Bool.or_true, if_true]
  · have hw : s.sep.newest = some q.ts := by simp [Sep.newest, hl]
    simp only [State.posePush, State.poseReject, h0, hw, hq, decide_true, ne_eq, not_true_eq_false, if_false, Bool.true_or, if_true]

end

/-! ## The commands -/

section
variable (dt w : Nat) (s : State)

theorem exec_pointAccept : exec (.pointAccept dt) s = .next (s.arrive dt).pointAccept := rfl
theorem exec_posePush : exec (.posePush dt w) s = .next ((s.arriveBy dt w).writePoseCmd w 1) := rfl
theorem exec_poseClear : exec (.poseClear dt w) s = .next ((s.arriveBy dt w).writePoseCmd w 2) := rfl

variable {w s}

/-- POSE_CMD with PUSH alone. -/
theorem State.writePoseCmd_push (h : s.admits 0x041 0x60 w 1 = true) : s.writePoseCmd w 1 = s.posePush.wrote 0x041 w := by
  have hp : getBits (1 : Word) 0 0 = 1 ∧ getBits (1 : Word) 1 1 ≠ 1 := by decide
  simp only [State.writePoseCmd, State.onWrite_admitted h, State.poseCmd, hp.1, if_neg hp.2, if_true]

/-- POSE_CMD with CLEAR alone. -/
theorem State.writePoseCmd_clear (h : s.admits 0x041 0x60 w 2 = true) :
    s.writePoseCmd w 2 = (s.updSep (fun q => { q with poses := [] })).poseStatus.wrote 0x041 w := by
  have hc : getBits (2 : Word) 0 0 ≠ 1 ∧ getBits (2 : Word) 1 1 = 1 := by decide
  simp only [State.writePoseCmd, State.onWrite_admitted h, State.poseCmd, hc.2, if_neg hc.1, if_true]

end

/-- Settles O27, by the case lemmas of POINT_ACCEPT and of the two operations of POSE_CMD. -/
theorem pointsAreBinned : Obligations.PointsAreBinned := by
  refine ⟨?_, fun s f fb cb x y z p h => State.binCoords_outside h, ?_⟩
  · intro s dt a hz hs hf
    refine ⟨fun f d rest fb cb h hd hfb hcb => ?_, ?_⟩
    · rw [exec_pointAccept, State.pointAccept_staged hz hs hf h hd hfb hcb]
    · intro d rest h hd b
      refine ⟨fun f ha hl ho => ?_, fun ha hw => ?_⟩
      · rw [exec_pointAccept, State.pointAccept_delivered hz hs hf h hd ha hl ho]
        refine ⟨fun he hp => ?_, fun he => ⟨fun fb cb hfb hcb => ?_, fun hb => ?_⟩⟩
        · rw [State.takePoint_excluded he hp]
        · rw [State.takePoint_binned he hfb hcb]
        · rw [State.takePoint_staged he hb]
      · rw [exec_pointAccept, State.pointAccept_late hz hs hf h hd ha hw]
  · intro s dt w b bytes p
    refine ⟨fun ha h0 => ?_, fun ha => ?_⟩
    · rw [exec_posePush, State.writePoseCmd_push ha]
      refine ⟨fun hn ht => ?_, fun hr => ?_⟩
      · obtain ⟨hp, hm⟩ := State.posePush_taken h0 hn ht
        refine ⟨_, rfl, ?_, ?_, State.wrote_lastWriter _ _ _⟩
        · rw [State.wrote_sep]
          exact hp
        · rw [State.wrote_mem, hm]
      · rw [State.posePush_rejected h0 hr]
    · rw [exec_poseClear, State.writePoseCmd_clear ha]
      obtain ⟨hp, hm, hf⟩ := (b.updSep (fun q => { q with poses := [] })).poseStatus_leaves
      refine ⟨_, rfl, ?_, ?_, ?_, State.wrote_lastWriter _ _ _⟩
      · rw [State.wrote_sep, hp, State.updSep_sep]
      · rw [State.wrote_mem, hm, State.updSep_mem]
      · rw [State.wrote_frm, hf, State.updSep_frm]

end Sys2Proof.Machine
end

section
/-! PROOFS. Frames are published, and start (R35, R117, R143, R593, R733, R737). -/

namespace Sys2Proof.Machine

/-! ## Publication (R35, R593) -/

section
variable (s : State) (f : Frame)

/-- What a publication whose result set is sound leaves to be settled: frame `f` is the published one, with the CRC `crc`, and the compute
phase is empty. -/
def State.published (crc : Nat) : State :=
  let s := ((s.freeSets.noSets).freeFrameBanks f).updFrm (fun r => { r with
    publish := some f, compute := none, emptyAt := s.cycles, testAfterPub := true })
  let s := (s.event 0x010 2).setFld F.SAF_WD_STATUS_TICKS 0
  (s.updSaf (fun v => { v with wdAt := none })).e2eBegin f.num crc

@[simp] theorem State.page_updSaf (g : Saf → Saf) (p : Nat) : (s.updSaf g).page p = s.page p := rfl
@[simp] theorem State.fld_updSaf (g : Saf → Saf) (x : Field) : (s.updSaf g).fld x = s.fld x := rfl

/-- The end-to-end check that begins is in SAF alone, beside its count of those abandoned (R766). -/
theorem State.e2eBegin_leaves (n crc : Nat) : (s.e2eBegin n crc).frm = s.frm ∧ (∀ p, (s.e2eBegin n crc).page p = s.page p) ∧
    (s.e2eBegin n crc).fld F.SAF_WD_STATUS_TICKS = s.fld F.SAF_WD_STATUS_TICKS ∧ (s.e2eBegin n crc).saf.wdAt = s.saf.wdAt := by
  have hb : (s.bump F.SAF_E2E_SKIP_CNT).fld F.SAF_WD_STATUS_TICKS = s.fld F.SAF_WD_STATUS_TICKS := s.fld_setFld_other _ (by decide)
  unfold State.e2eBegin
  dsimp only
  split_ifs
  · exact ⟨rfl, fun _ => rfl, hb, rfl⟩
  · exact ⟨rfl, fun _ => rfl, hb, rfl⟩
  · exact ⟨rfl, fun _ => rfl, rfl, rfl⟩
  · exact ⟨rfl, fun _ => rfl, rfl, rfl⟩

@[simp] theorem State.freeSets_frm : s.freeSets.frm = s.frm := (rfl)
@[simp] theorem State.noSets_frm : s.noSets.frm = s.frm := (rfl)
@[simp] theorem State.freeFrameBanks_frm : (s.freeFrameBanks f).frm = s.frm := by
  simp [State.freeFrameBanks]

theorem State.published_frm (crc : Nat) : (s.published f crc).frm = { s.frm with
    publish := some f, compute := none, emptyAt := s.cycles, testAfterPub := true } := by
  simp only [State.published, State.e2eBegin_leaves, State.updSaf_frm, State.setFld_frm, State.event_frm, State.updFrm_frm,
    State.freeFrameBanks_frm, State.noSets_frm, State.freeSets_frm]

/-- PUBLISHED is raised. -/
theorem State.published_event (crc : Nat) : ((s.published f crc).page 0x010).eventRaw.getLsbD 2 = true := by
  unfold State.published
  rw [(State.e2eBegin_leaves _ _ _).2.1, State.page_updSaf, State.page_setFld, State.page_event]
  simp

/-- The watchdog's count restarts. -/
theorem State.published_watchdog (crc : Nat) :
    (s.published f crc).fld F.SAF_WD_STATUS_TICKS = 0 ∧ (s.published f crc).saf.wdAt = none := by
  unfold State.published
  dsimp only
  obtain ⟨-, -, ht, hw⟩ := State.e2eBegin_leaves (State.updSaf _ fun v => { v with wdAt := none }) f.num crc
  rw [ht, hw, State.fld_updSaf, State.fld_setFld_same _ _ _ (by decide) (by decide), Nat.zero_mod, State.updSaf_saf]
  exact ⟨rfl, rfl⟩

/-- The instant at which the frame header and its CRC have been written and the jobs that follow the frame are done is that of the
publication. -/
theorem State.publishFrame_sound
    (h : ((s.writeOut (resultAddr f.set 0) (s.headerBytes f)).fetch (resultAddr f.set 0) f.plan.hdr.resultBytes).1.poison = false) :
    ∃ (t : State) (crc : Nat), t.instant = s.instant ∧ s.publishFrame f = (t.published f crc).settle := by
  unfold State.publishFrame
  simp only [h, Bool.false_eq_true, if_false]
  exact ⟨_, _, by simp only [State.doneFollowers_instant, State.writeOut_instant, State.fetch_instant], rfl⟩

theorem State.publishFrame_poisoned
    (h : ((s.writeOut (resultAddr f.set 0) (s.headerBytes f)).fetch (resultAddr f.set 0) f.plan.hdr.resultBytes).1.poison = true) :
    s.publishFrame f = (((s.writeOut (resultAddr f.set 0) (s.headerBytes f)).fetch (resultAddr f.set 0)
      f.plan.hdr.resultBytes).2.dropCompute 0x5010).settle := by
  simp only [State.publishFrame, h, if_true]

variable {s f}

theorem State.publication_waits (h : s.frm.compute = some f) (ho : s.computeOver f = false) : s.publication = s := by
  simp [State.publication, h, ho]

/-- A frame whose work is over, frozen and not withheld, is published. -/
theorem State.publication_over (h : s.frm.compute = some f) (ho : s.computeOver f = true) (hd : f.doomed = none) (hf : f.frozen = true)
    (hi : f.freeRun = true ∨ s.injected 0x0B 0 = none) : s.publication = s.publishFrame f := by
  have hq : (if f.freeRun then (false, s) else s.takeInjection 0x0B 0) = (false, s) := by
    rcases hi with hi | hi <;> simp [State.takeInjection, hi]
  simp [State.publication, h, ho, hd, hf, hq]

end

/-! ## FRAME jobs (R117, R579) -/

theorem State.frameJobAccept_starts {s : State} {ctx ring : Nat} {host : List Byte} {j : Job} (hj : s.job ctx ring = some j) (ho : j.opc = 4)
    (hp : j.phase = 1) (hr : s.frm.freeRun = true) (ha : s.pstate 0x010 = St.armed) (hc : s.frm.compute = none)
    (hw : s.mayWork 0x010 = true) (hs : (s.page 0x040).pausing = false) (hn : s.nextFrameJob = some (ctx * 2 + ring)) :
    s.frameJobAccept ctx ring host = s.startFrame ctx ring j host := by
  unfold State.frameJobAccept
  rw [hj]
  exact if_pos ⟨ho, hp, hr, ha, by rw [hc]; rfl, hw, hs, hn⟩

/-! ## The CORE frequency (R24, R143, R733, R737) -/

section
variable {s : State}

theorem State.coreFreqChange_waits {f : Frame} (h : s.frm.compute = some f) (ha : f.admitted = true) : s.coreFreqChange = s := by
  have hm : s.coreMayChange = false := by simp [State.coreMayChange, h, ha]
  simp [State.coreFreqChange, hm]

/-- The frequency that a powered CORE takes: what VMON_0 meets of what is wanted, and while frames are paced no less than the floor. -/
def State.coreTakes (s : State) : Nat :=
  if s.framePaced then max (s.metMhz s.wantedMhz) (min s.wantedMhz s.floorMhz) else s.metMhz s.wantedMhz

/-- A change of the frequency sets its field and notes whether the voltage limited it; where it newly did, an event says so. -/
theorem State.applyCore_eq (ht : s.pwr.tripped = false) (hp : s.corePowered = true) :
    ∃ g : Pwr → Pwr, s.applyCore = (s.setFld F.GLB_CLOCK_STATUS_CORE_MHZ s.coreTakes).updPwr g ∨
      s.applyCore = ((s.setFld F.GLB_CLOCK_STATUS_CORE_MHZ s.coreTakes).updPwr g).event 0x150 4 := by
  refine ⟨fun p => { p with volt := decide (s.coreTakes < s.wantedMhz) }, ?_⟩
  simp only [State.applyCore, ht, hp, Bool.not_true, Bool.or_self, Bool.false_eq_true, if_false]
  by_cases h : (decide (s.coreTakes < s.wantedMhz) && !s.pwr.volt) = true
  · exact .inr (if_pos h)
  · exact .inl (if_neg h)

/-- Beside the frequency and the pending bits of the vectors the registers stay, and with them the memories and the frames. -/
theorem State.applyCore_leaves (ht : s.pwr.tripped = false) (hp : s.corePowered = true) :
    s.applyCore.fld F.GLB_CLOCK_STATUS_CORE_MHZ = s.coreTakes % 2 ^ 11 ∧ s.applyCore.mem = s.mem ∧ s.applyCore.frm = s.frm ∧
      ∀ k, k ≠ R.GLB_CLOCK_STATUS → k ≠ R.HIF_MSIX_PBA → s.applyCore.cell k = s.cell k := by
  have hg : (s.setFld F.GLB_CLOCK_STATUS_CORE_MHZ s.coreTakes).fld F.GLB_CLOCK_STATUS_CORE_MHZ = s.coreTakes % 2 ^ 11 :=
    s.fld_setFld_same _ _ (by decide) (by decide)
  have hc : ∀ k, k ≠ R.GLB_CLOCK_STATUS → (s.setFld F.GLB_CLOCK_STATUS_CORE_MHZ s.coreTakes).cell k = s.cell k :=
    fun k hk => s.cell_setFld_other _ hk
  obtain ⟨g, h | h⟩ := State.applyCore_eq ht hp
  · rw [h]
    exact ⟨hg, rfl, rfl, fun k hk _ => hc k hk⟩
  · rw [h]
    refine ⟨?_, ?_, ?_, fun k hk hm => (State.cell_event _ _ _ hm).trans (hc k hk)⟩
    · rw [State.fld, State.cell_event _ _ _ (by decide)]
      exact hg
    · rw [State.event_mem, State.updPwr_mem, State.setFld_mem]
    · rw [State.event_frm, State.updPwr_frm, State.setFld_frm]

end

/-! ## The commands -/

section
variable (dt : Nat) (s : State)

theorem exec_publication : exec (.publication dt) s = .next (s.arrive dt).publication := rfl
theorem exec_frameJobAccept (ctx ring : Nat) (host : List Byte) :
    exec (.frameJobAccept dt ctx ring host) s = .next ((s.arrive dt).frameJobAccept ctx ring host) := rfl
theorem exec_coreFreqChange : exec (.coreFreqChange dt) s = .next (s.arrive dt).coreFreqChange := rfl

end

/-- Settles O26. That the compute phase is empty from the instant of the command rests on `State.publishFrame_sound`: writing the frame
header and ending the jobs take no time. -/
theorem framesPublished : Obligations.FramesPublished := by
  refine ⟨?_, fun s dt ctx ring j host hj ho hp hr ha hc hw hs hn => ?_, ?_⟩
  · intro s dt f a hc
    refine ⟨fun ho => ?_, fun ho hd hf hi => ?_⟩
    · rw [exec_publication, State.publication_waits hc ho]
    · rw [exec_publication, State.publication_over hc ho hd hf hi]
      intro b x
      refine ⟨fun hx => ?_, fun hx => ?_⟩
      · rw [a.publishFrame_poisoned f hx]
      · obtain ⟨t, crc, ht, hu⟩ := a.publishFrame_sound f hx
        have hcy : t.cycles = a.cycles := congrArg Prod.fst ht
        have hfrm := t.published_frm f crc
        refine ⟨t.published f crc, by rw [hu], ?_, ?_, ?_, t.published_event f crc, t.published_watchdog f crc⟩
        · rw [hfrm]
        · rw [hfrm]
        · rw [hfrm, ← hcy]
  · rw [exec_frameJobAccept, State.frameJobAccept_starts hj ho hp hr ha hc hw hs hn]
  · intro s dt a
    refine ⟨fun hm ht hp => ?_, fun f hc ha => ?_⟩
    · have h : a.coreFreqChange = a.applyCore := if_pos hm
      rw [exec_coreFreqChange, h]
      exact ⟨_, rfl, State.applyCore_leaves ht hp⟩
    · rw [exec_coreFreqChange, State.coreFreqChange_waits hc ha]

end Sys2Proof.Machine
end

section
/-! PROOFS. Page headers after events, changes of STATE and errors (R62, R77, R79, R84, R87, R259, R660). -/

namespace Sys2Proof.Machine

/-! ## Events -/

section
variable (s : State) (p b : Nat)

@[simp] theorem State.page_noteRise (k : Nat) (m : Word) (q : Nat) : (s.noteRise k m).page q = s.page q := rfl

@[simp] theorem State.cell_noteRise (k : Nat) (m : Word) (j : Nat) : (s.noteRise k m).cell j = s.cell j := rfl
@[simp] theorem State.cell_updCyc (f : Cyc → Cyc) (j : Nat) : (s.updCyc f).cell j = s.cell j := rfl
@[simp] theorem State.logQueue_noteRise (k : Nat) (m : Word) : (s.noteRise k m).logQueue = s.logQueue := rfl

theorem State.page_event_other {q : Nat} (h : q ≠ p) : (s.event p b).page q = s.page q := by
  simp [State.event, State.page_updPage, h]

/-- An event of several pages sets its bit on each of them. -/
theorem State.page_eventAll (ps : List Nat) (q : Nat) : (s.eventAll ps b).page q
    = if q ∈ ps then { s.page q with eventRaw := (s.page q).eventRaw ||| (1#32 <<< b) } else s.page q := by
  induction ps generalizing s with
  | nil => rfl
  | cons p t ih =>
    have hc : s.eventAll (p :: t) b = (s.event p b).eventAll t b := rfl
    rw [hc, ih]
    by_cases hq : q = p
    · subst hq
      simp [State.page_event, BitVec.or_assoc]
    · simp [hq, State.page_event_other]

theorem State.cell_updPage (f : PageHdr → PageHdr) {k : Nat} (hk : k ≠ R.HIF_MSIX_PBA) : (s.updPage p f).cell k = s.cell k :=
  (State.cell_signalRise (s.setPage p _) p _ _ hk :)

@[simp] theorem State.logQueue_signal (fn v : Nat) : (s.signal fn v).logQueue = s.logQueue := by
  unfold State.signal
  split_ifs <;> rfl

@[simp] theorem State.logQueue_signalRise (old new : Word) : (s.signalRise p old new).logQueue = s.logQueue := by
  unfold State.signalRise
  dsimp only
  split
  · split_ifs <;> simp only [State.logQueue_signal]
  · split_ifs <;> simp only [State.logQueue_signal]

@[simp] theorem State.logQueue_updPage (f : PageHdr → PageHdr) : (s.updPage p f).logQueue = s.logQueue := by
  simp [State.updPage]

end

/-! ## Errors (R84, R87, R660) -/

section
variable (s : State) (p code : Nat) (info : Word)

theorem PageHdr.take_first {h : PageHdr} (hc : h.errCode = 0) (code : Nat) (info : Word) :
    h.take code info = { h with errCode := code, errInfo := info, moreCnt := 0 } := by
  simp [PageHdr.take, hc]

theorem PageHdr.take_further {h : PageHdr} (hc : h.errCode ≠ 0) (code : Nat) (info : Word) :
    h.take code info = { h with moreCnt := min 255 (h.moreCnt + 1) } := by
  simp [PageHdr.take, hc]

@[simp] theorem State.page_logged (r : LogReq) (q : Nat) : (s.logged r).page q = s.page q := by
  unfold State.logged
  split <;> rfl

/-- The header of a page that records an error (R84). -/
theorem State.page_error (q : Nat) : (s.error p code info).page q
    = if q = p then { (s.page p).take code info with eventRaw := (s.page p).eventRaw ||| 0x80000000 } else s.page q := by
  simp only [State.error, State.page_logged, State.page_noteRise, State.page_updCyc, State.page_updPage]
  rfl

/-- What an error is recorded with in the event log, and the state that takes it there. -/
theorem State.error_logged : ∃ t : State, s.error p code info = t.logged ⟨s.timebase, code, info, p, (s.page p).errCode != 0, 0⟩ ∧
    t.logQueue = s.logQueue ∧ ∀ k, k ≠ R.HIF_MSIX_PBA → t.cell k = s.cell k := by
  unfold State.error
  extract_lets before t1 t2
  have ht : t2.timebase = s.timebase := State.timebase_of_inner (by simp [t2, t1])
  rw [ht]
  exact ⟨t2, rfl, by simp [t2, t1], fun k hk => by simp [t2, t1, State.cell_updPage, hk]⟩

/-- Settles O11: the header of `page_error`, by whether CODE was free. -/
theorem errorsRecorded : Obligations.ErrorsRecorded := by
  intro s p code info h t
  have hp : t.page p = _ := (s.page_error p code info p).trans (if_pos rfl)
  refine ⟨fun hc => ?_, fun hc => ?_, fun q hq => ?_, State.mem_of_inner (s.error_inner p code info),
    State.frm_of_inner (s.error_inner p code info)⟩
  · rw [hp, PageHdr.take_first hc]
  · rw [hp, PageHdr.take_further hc]
  · exact (s.page_error p code info q).trans (if_neg hq)

/-- Settles O12, by the two branches of `State.logged`. -/
theorem errorsReachTheLog : Obligations.ErrorsReachTheLog := by
  intro s p code info t r
  obtain ⟨u, he, hq, hc⟩ := s.error_logged p code info
  have ht : t = u.logged r := he
  have hf : ∀ f : Field, f.reg ≠ R.HIF_MSIX_PBA → u.fld f = s.fld f := fun f h => by rw [State.fld, hc _ h, State.fld]
  have hrx := hf F.MBX_RST_RX_STATE (by decide)
  refine ⟨fun h => ?_, fun h2 h64 => ?_⟩
  · have hn : ¬(2 ≤ u.fld F.MBX_RST_RX_STATE ∧ 64 ≤ u.logQueue.length) := by rw [hrx, hq]; omega
    rw [ht, State.logged, if_neg hn, hq]
  · have hy : 2 ≤ u.fld F.MBX_RST_RX_STATE ∧ 64 ≤ u.logQueue.length := by rw [hrx, hq]; exact ⟨h2, h64⟩
    rw [ht, State.logged, if_pos hy]
    refine ⟨hq, ?_⟩
    rw [State.bump, State.bumpBy, State.fld_setFld_same _ _ _ (by decide) (by decide), hf _ (by decide)]
    exact Nat.mod_eq_of_lt (lt_of_le_of_lt (Nat.min_le_left _ _) (by decide))

end

/-! ## STATE (R62, R77, R259) -/

section
variable (s : State) (q : Nat) (f : Cond → Cond)

/-- The header of the page that holds a block's conditions, once they have changed. -/
def PageHdr.moved (h : PageHdr) (c : Cond) : PageHdr :=
  { h with cond := c, prevState := if stateOf c = stateOf h.cond then h.prevState else stateOf h.cond }

/-- The header with STATE_CHANGE. -/
def PageHdr.stateChange (h : PageHdr) : PageHdr := { h with eventRaw := h.eventRaw ||| (1#32 <<< 28) }

/-- A change of conditions moves the header of its page, and a changed STATE is an event of the pages of its block. -/
theorem State.page_setCond (r : Nat) : (s.setCond q f).page r =
    let h := if r = q then (s.page q).moved (f (s.page q).cond) else s.page r
    if stateOf (f (s.page q).cond) ≠ stateOf (s.page q).cond ∧ r ∈ instancePages q then h.stateChange else h := by
  unfold State.setCond
  dsimp only
  by_cases hs : stateOf (f (s.page q).cond) = stateOf (s.page q).cond
  · simp only [hs, if_true, ne_eq, not_true, false_and, if_false, State.page_setPage, PageHdr.moved]
  · simp only [hs, if_false, ne_eq, not_false_eq_true, true_and, State.page_eventAll, State.page_setPage, PageHdr.moved, PageHdr.stateChange]

theorem State.cond_setCond (r : Nat) :
    ((s.setCond q f).page r).cond = if r = q then f (s.page q).cond else (s.page r).cond := by
  rw [State.page_setCond]
  dsimp only
  split_ifs <;> rfl

/-- A header without its conditions, PREV_STATE and events: what a change of conditions leaves. -/
def PageHdr.rest (h : PageHdr) : PageHdr := { h with cond := {}, prevState := 0, eventRaw := 0 }

theorem State.rest_setCond (r : Nat) : ((s.setCond q f).page r).rest = (s.page r).rest := by
  rw [State.page_setCond]
  dsimp only
  split_ifs with h1 h2 h3
  · subst h2; rfl
  · rfl
  · subst h3; rfl
  · rfl

theorem State.page_setCond_other {r : Nat} (hr : r ≠ q) (hi : r ∉ instancePages q) : (s.setCond q f).page r = s.page r := by
  rw [State.page_setCond]
  simp [hr, hi]

/-- The Separator follows: its conditions change in RUNNING alone (R259). -/
theorem State.sepFollow_eq : s.sepFollow = s.setCond 0x040 (fun c => { c with
    running := (s.page 0x040).enable && (s.pstate 0x010 == St.armed || s.pstate 0x010 == St.running) && !s.lockStops 0x040 }) := rfl

theorem State.updCond_frm {p : Nat} (h : statePage p = 0x010) : s.updCond p f = (s.setCond 0x010 f).sepFollow := by
  simp only [State.updCond, h, if_true]

theorem State.updCond_other {p : Nat} (h : statePage p ≠ 0x010) : s.updCond p f = s.setCond (statePage p) f := by
  simp only [State.updCond, h, if_false]

/-- A page that is none of the Separator's is not reached by what follows a change of the Frame Scheduler's conditions. -/
theorem State.page_updCond {p r : Nat} (hr : statePage p ≠ 0x010 ∨ r ∉ instancePages 0x040) :
    (s.updCond p f).page r = (s.setCond (statePage p) f).page r := by
  by_cases h : statePage p = 0x010
  · have hi : r ∉ instancePages 0x040 := hr.resolve_left (not_not.mpr h)
    have h40 : r ≠ 0x040 := fun h => hi (by rw [h]; decide)
    rw [s.updCond_frm f h, State.sepFollow_eq, State.page_setCond_other _ _ _ h40 hi, h]
  · rw [s.updCond_other f h]

theorem State.rest_updCond (p r : Nat) : ((s.updCond p f).page r).rest = (s.page r).rest := by
  by_cases h : statePage p = 0x010
  · rw [s.updCond_frm f h, State.sepFollow_eq, State.rest_setCond, State.rest_setCond]
  · rw [s.updCond_other f h, State.rest_setCond]

theorem State.page_updCond_state (p : Nat) : (s.updCond p f).page (statePage p) = (s.setCond (statePage p) f).page (statePage p) := by
  by_cases h : statePage p = 0x010
  · exact s.page_updCond f (.inr (by rw [h]; decide))
  · exact s.page_updCond f (.inl h)

theorem State.cond_updCond (p : Nat) : ((s.updCond p f).page (statePage p)).cond = f (s.page (statePage p)).cond := by
  rw [State.page_updCond_state, State.cond_setCond, if_pos rfl]

theorem State.pstate_updCond (p : Nat) : (s.updCond p f).pstate p = stateOf (f (s.page (statePage p)).cond) := by
  rw [State.pstate, State.cond_updCond]

theorem State.prevState_updCond (p : Nat) : ((s.updCond p f).page (statePage p)).prevState
    = if stateOf (f (s.page (statePage p)).cond) = stateOf (s.page (statePage p)).cond then (s.page (statePage p)).prevState
      else stateOf (s.page (statePage p)).cond := by
  rw [State.page_updCond_state, State.page_setCond]
  simp only [if_true]
  split <;> rfl

end

/-- STATE is the first of its conditions that applies, in the order of R77. -/
theorem stateOf_eq_find (c : Cond) : stateOf c = (([(c.off || c.gated, St.off), (c.safe, St.safe), (c.fault, St.fault), (c.limited, St.limited),
      (c.frozen || c.ownPause, St.paused), (c.waiting, St.waiting), (c.draining, St.draining), (c.running, St.running),
      (c.armed, St.armed), (true, St.idle)].find? (fun x => x.1)).map (fun x => x.2)).getD 99 := by
  unfold stateOf
  split_ifs <;> simp [*]

theorem stateOf_le (c : Cond) : stateOf c ≤ 9 := by
  unfold stateOf
  split_ifs <;> decide

/-- Settles O10: the change reaches the page that holds the conditions and the events of its block, and from the Frame Scheduler the
Separator's RUNNING. -/
theorem stateReported : Obligations.StateReported := by
  refine ⟨fun c => ⟨stateOf_eq_find c, stateOf_le c⟩, ?_⟩
  intro s p f old new
  refine ⟨s.cond_updCond f p, s.pstate_updCond f p, s.prevState_updCond f p, fun hs q hq => ?_, fun q hq hi hr => ?_, fun hp => ?_⟩
  · have hx : statePage p ≠ 0x010 ∨ q ∉ instancePages 0x040 := by
      by_cases h : statePage p = 0x010
      · rw [h] at hq
        exact .inr (by revert q; decide)
      · exact .inl h
    rw [s.page_updCond f hx, State.page_setCond, if_pos ⟨hs, hq⟩]
    simp [PageHdr.stateChange]
  · rw [s.page_updCond f hr, s.page_setCond_other _ f hq hi]
  · intro c
    have h0 : ((s.setCond 0x010 f).page 0x040) = s.page 0x040 := s.page_setCond_other _ f (by decide) (by decide)
    have h1 : ((s.setCond 0x010 f).page 0x041) = s.page 0x041 := s.page_setCond_other _ f (by decide) (by decide)
    have hst : (s.updCond p f).pstate 0x010 = (s.setCond 0x010 f).pstate 0x010 := by
      rw [s.updCond_frm f hp, State.sepFollow_eq]
      exact congrArg (fun h => stateOf h.cond) (State.page_setCond_other _ 0x040 _ (r := 0x010) (by decide) (by decide))
    have hl : (s.setCond 0x010 f).lockStops 0x040 = s.lockStops 0x040 := by
      have hi : instancePages 0x040 = [0x040, 0x041] := by decide
      have hq : statePage 0x040 = 0x040 := by decide
      simp only [State.lockStops, hi, hq, List.any_cons, List.any_nil, h0, h1]
    have hc : c = ((s.setCond 0x010 f).sepFollow.page 0x040).cond := by rw [← s.updCond_frm f hp]
    rw [hc, State.sepFollow_eq, State.cond_setCond, if_pos rfl, h0, hl, hst]

end Sys2Proof.Machine
end

section
/-! PROOFS. The register port (R51, R52, R57, R58, R65 to R68, R73, R96, R97, R112, R161). -/

namespace Sys2Proof.Machine

/-! ## Fields of a register (Table 2-6) -/

theorem testBit_natBits (n hi lo i : Nat) : (natBits n hi lo).testBit i = (decide (i < hi + 1 - lo) && n.testBit (lo + i)) := by
  simp [natBits, Nat.testBit_mod_two_pow, Nat.testBit_shiftRight]

theorem getBits_lt (w : Word) (hi lo : Nat) : getBits w hi lo < 2 ^ (hi + 1 - lo) := natBits_lt _ _ _

theorem getLsbD_setBits_other (w : Word) {hi lo : Nat} (v i : Nat) (h : lo ≤ hi) (hh : hi < 32) (ho : i < lo ∨ hi < i) :
    (setBits w hi lo v).getLsbD i = w.getLsbD i :=
  testBit_setBits_other w v i h hh ho

/-- A bit inside a field is the bit of the value that the field was given. -/
theorem getLsbD_setBits_same (w : Word) {hi lo : Nat} (v i : Nat) (h : lo ≤ hi) (hh : hi < 32) (hl : lo ≤ i) (hu : i ≤ hi) :
    (setBits w hi lo v).getLsbD i = v.testBit (i - lo) := by
  have hw : i - lo < hi + 1 - lo := by omega
  have hs := congrArg (Nat.testBit · (i - lo)) (getBits_setBits_same w v h hh)
  simpa [getBits, testBit_natBits, Nat.testBit_mod_two_pow, hw, Nat.add_sub_cancel' hl, BitVec.getLsbD] using hs

/-- A bit of a field as it is read. -/
theorem testBit_getBits_same (w : Word) {hi lo i : Nat} (hl : lo ≤ i) (hu : i ≤ hi) : (getBits w hi lo).testBit (i - lo) = w.getLsbD i := by
  have hw : i - lo < hi + 1 - lo := by omega
  simp [getBits, testBit_natBits, hw, Nat.add_sub_cancel' hl, BitVec.getLsbD]

/-- A write leaves the register or gives the field a value. -/
theorem FieldDef.take_eq (f : FieldDef) (old v : Word) : f.take old v = old ∨ ∃ x, f.take old v = setBits old f.hi f.lo x := by
  unfold FieldDef.take
  split
  case h_7 | h_8 | h_9 => exact .inl rfl
  all_goals exact .inr ⟨_, rfl⟩

theorem FieldDef.take_outside (f : FieldDef) (old v : Word) (h : f.lo ≤ f.hi) (hh : f.hi < 32) (i : Nat) (ho : i < f.lo ∨ f.hi < i) :
    (f.take old v).getLsbD i = old.getLsbD i := by
  obtain ht | ⟨x, ht⟩ := f.take_eq old v
  · rw [ht]
  · rw [ht, getLsbD_setBits_other old x i h hh ho]

/-- Settles O3, bit by bit: what a field's access type writes is written through `setBits`, which keeps the bits outside. -/
theorem fieldAccessTypes : Obligations.FieldAccessTypes := by
  intro f old v h hh
  refine ⟨f.take_outside old v h hh, fun i hl hu => ?_⟩
  have hw : i - f.lo < f.hi + 1 - f.lo := by omega
  have hset : ∀ x, (setBits old f.hi f.lo x).getLsbD i = x.testBit (i - f.lo) := fun x => getLsbD_setBits_same old x i h hh hl hu
  have hget : ∀ x : Word, (getBits x f.hi f.lo).testBit (i - f.lo) = x.getLsbD i := fun x => testBit_getBits_same x hl hu
  have hnot : (2 ^ (f.hi + 1 - f.lo) - 1 - getBits v f.hi f.lo).testBit (i - f.lo) = !v.getLsbD i := by
    rw [Nat.sub_right_comm, Nat.sub_sub, Nat.testBit_two_pow_sub_succ (getBits_lt v _ _), hget]
    simp [hw]
  refine ⟨?_, fun ha => ?_, fun ha => ?_, fun ha => ?_, fun ha => ?_⟩
  · rintro (ha | ha | ha) <;> simp only [FieldDef.take, ha, hset, hget]
  · simp only [FieldDef.take, ha, hset, Nat.testBit_and, hget, hnot]
  · simp only [FieldDef.take, ha, hset, Nat.testBit_or, hget]
  · simp only [FieldDef.take, ha, hset, Nat.zero_testBit]
  · simp only [FieldDef.take, ha]

/-! ## One write of one writer (R51, R52, R559) -/

section
variable (s : State) (dt p off w : Nat) (v : Word)

/-- The host's write crosses the link as it arrives. -/
theorem State.noteTlp_arrive : (s.arrive dt).noteTlp [⟨w, v⟩] = s.arriveBy dt w := by
  simp [State.noteTlp, State.arriveBy]

theorem State.singleWrite_arrive : (s.arrive dt).singleWrite p off w v = (s.arriveBy dt w).regWrite p off w v := by
  rw [State.singleWrite, State.noteTlp_arrive]

@[simp] theorem State.page_hostTlp (q : Nat) : s.hostTlp.page q = s.page q := rfl

theorem State.page_arriveBy (q : Nat) : (s.arriveBy dt w).page q = (s.arrive dt).page q := by
  unfold State.arriveBy
  split <;> rfl

/-- A write that meets no other is neither won nor lost. -/
theorem State.oneCycle_single : s.oneCycle p off [⟨w, v⟩] = s.regWrite p off w v := by
  cases h : s.takesPart p off w v <;>
    simp [State.oneCycle, State.arbitrate, rankWrites, rankInsert, State.noteStripped, State.recordLosers, h]

@[simp] theorem State.oneCycle_nil : s.oneCycle p off [] = s := by
  simp [State.oneCycle, State.arbitrate, rankWrites]

theorem State.writeRegs_single : s.writeRegs p off [⟨w, v⟩] = s.regWrite p off w v := by
  simp [State.writeRegs, State.writeBatches, splitCycle, State.oneCycle_single]

variable {off}

/-- A BAR 0 address names its page and the offset there. -/
theorem addr_split (h : off < 0x1000) : (p * 0x1000 + off) / 0x1000 = p ∧ (p * 0x1000 + off) % 0x1000 = off := by
  omega

theorem exec_registerWrite (addr size : Nat) (ws hs : List RegWrite) :
    exec (.registerWrite dt addr size ws hs) s = .next ((s.arrive dt).registerWrite addr size ws hs) := rfl

theorem exec_registerWrite_word (ho : off < 0x1000) (ha : off % 4 = 0) :
    exec (.registerWrite dt (p * 0x1000 + off) 4 [⟨w, v⟩] []) s = .next ((s.arriveBy dt w).regWrite p off w v) := by
  obtain ⟨hp, hm⟩ := addr_split p ho
  have h4 : (p * 0x1000 + off) % 4 = 0 := by omega
  rw [exec_registerWrite, State.registerWrite, State.noteTlp_arrive]
  simp only [h4, hp, hm, and_self, if_true, State.writeRegs_single]

/-- A 64-bit write is that of the lower half, then that of the upper half. -/
theorem exec_registerWrite_pair (u : Word) (ho : off < 0x1000) (ha : off % 8 = 0) :
    exec (.registerWrite dt (p * 0x1000 + off) 8 [⟨w, v⟩] [⟨w, u⟩]) s
      = .next (((s.arriveBy dt w).regWrite p off w v).regWrite p (off + 4) w u) := by
  obtain ⟨hp, hm⟩ := addr_split p ho
  have h8 : (p * 0x1000 + off) % 8 = 0 := by omega
  have h4 : ¬(8 = 4 ∧ (p * 0x1000 + off) % 4 = 0) := by omega
  rw [exec_registerWrite, State.registerWrite, State.noteTlp_arrive]
  simp only [if_neg h4, h8, hp, hm, and_self, if_true, State.writeRegs_single]

theorem exec_registerWrite_bad (size : Nat) (ho : off < 0x1000) (h4 : size ≠ 4 ∨ off % 4 ≠ 0) (h8 : size ≠ 8 ∨ off % 8 ≠ 0) :
    exec (.registerWrite dt (p * 0x1000 + off) size [⟨w, v⟩] []) s = .next ((s.arriveBy dt w).badAccess p off w) := by
  obtain ⟨hp, hm⟩ := addr_split p ho
  have n4 : ¬(size = 4 ∧ (p * 0x1000 + off) % 4 = 0) := by omega
  have n8 : ¬(size = 8 ∧ (p * 0x1000 + off) % 8 = 0) := by omega
  rw [exec_registerWrite, State.registerWrite, State.noteTlp_arrive]
  simp only [if_neg n4, if_neg n8, State.badWrites, List.foldl_cons, List.foldl_nil, hp, hm]

theorem exec_counterWrite (h : hasAcc p off .clr = true) :
    exec (.counterWrite dt p off w v) s = .next ((s.arriveBy dt w).regWrite p off w v) := by
  have hx : exec (.counterWrite dt p off w v) s = .next ((s.arrive dt).counterWrite p off w v) := rfl
  rw [hx, State.counterWrite, if_pos h, State.singleWrite_arrive]

end

/-! ## Pages whose registers have no meaning beyond their fields' access types -/

/-- What holds of every field of a page's registers holds of the fields of the register at an offset. -/
theorem regFields_of_forall {P : FieldDef → Prop} {p : Nat} (h : ∀ r ∈ pageRegs p, ∀ f ∈ r.fields, P f) (off : Nat) :
    ∀ f ∈ regFields p off, P f := by
  intro f hf
  unfold regFields at hf
  split at hf
  · next r hr => exact h r (List.mem_of_find?_eq_some hr) f hf
  · exact absurd hf (List.not_mem_nil)

/-- The pages of the Separator's configuration, of Harvest and of SCV. -/
def plainPages : List Nat := [0x040, 0x050, 0x060, 0x061]

theorem plainPages_fields {p : Nat} (hp : p ∈ plainPages) (off : Nat) : ∀ f ∈ regFields p off, f.acc ≠ .rw1c ∧ f.acc ≠ .rws := by
  refine regFields_of_forall ?_ off
  fin_cases hp <;> decide

theorem plainPages_freeCounter {p : Nat} (hp : p ∈ plainPages) (off : Nat) : freeCounter p off = false := by
  fin_cases hp <;> rfl

theorem plainPages_hasAcc_rws {p : Nat} (hp : p ∈ plainPages) (off : Nat) : hasAcc p off .rws = false := by
  simpa [hasAcc] using fun f hf => (plainPages_fields hp off f hf).2

theorem plainPages_fusedOff (s : State) {p : Nat} (hp : p ∈ plainPages) : s.fusedOffPage p = false := by
  fin_cases hp <;> rfl

section
variable (s : State) {p off : Nat} (w : Nat) (v : Word)

theorem State.regWrite_plain (hp : p ∈ plainPages) (ho : 0x40 ≤ off) : s.regWrite p off w v = s.plainWrite p off w v := by
  unfold State.regWrite
  rw [if_neg (Nat.not_lt.mpr ho)]
  fin_cases hp <;> simp [State.frameSideWrite]

variable {s w v}

theorem State.admits_iff : s.admits p off w v = true ↔ s.portCheck p off w = none ∧ s.encodingBad p off v = none := by
  simp [State.admits]

/-- Each field takes the write by its access type; on these pages no field is cleared by a written 1. -/
theorem State.takeValue_plain (hp : p ∈ plainPages) (hf : regFields p off ≠ []) : s.takeValue p off v false
    = s.setCell (p * 0x1000 + off) ((regFields p off).foldl (fun x f => f.take x v) (s.cell (p * 0x1000 + off))) := by
  have hfold : ∀ m : Word, (regFields p off).foldl (fun (x : Word) f => f.take x (if f.acc = .rw1c then v &&& m else v))
      (s.cell (p * 0x1000 + off)) = (regFields p off).foldl (fun x f => f.take x v) (s.cell (p * 0x1000 + off)) := fun m =>
    List.foldl_ext _ _ _ (fun x f hm => by rw [if_neg (plainPages_fields hp off f hm).1])
  have hc : s.countFrom p off = s := by simp [State.countFrom, plainPages_freeCounter hp]
  simp only [State.takeValue, Bool.false_and, Bool.not_false, List.filter_true, List.isEmpty_iff, if_neg hf, hc, hfold]

theorem State.plainWrite_admitted (hp : p ∈ plainPages) (ha : s.admits p off w v = true) (hl : s.lockedOut p off w = false)
    (hf : regFields p off ≠ []) : s.plainWrite p off w v = (s.setCell (p * 0x1000 + off)
      ((regFields p off).foldl (fun x f => f.take x v) (s.cell (p * 0x1000 + off)))).wrote p w := by
  obtain ⟨hc, he⟩ := State.admits_iff.mp ha
  simp only [State.plainWrite, hc, he, hl, plainPages_hasAcc_rws hp, Bool.false_and, Bool.false_eq_true, if_false, State.takeValue_plain hp hf]

end

/-- Settles O2: a write that meets no other is the write of its register, and on a plain page that is the fold of its fields. -/
theorem singleWriteReachesRegister : Obligations.SingleWriteReachesRegister := by
  intro s dt p off w v u ho b
  refine ⟨exec_registerWrite_word s dt p w v ho, exec_registerWrite_pair s dt p w v u ho, exec_counterWrite s dt p w v,
    fun hp hoff ha _ hl hf => ?_⟩
  have h : b.regWrite p off w v = _ := (b.regWrite_plain w v hp hoff).trans (State.plainWrite_admitted hp ha hl hf)
  refine ⟨h, fun f hone hclr hlo hhi => ?_⟩
  have hc : ∀ t : State, (t.wrote p w).cell (p * 0x1000 + off) = t.cell (p * 0x1000 + off) := fun _ => rfl
  rw [h, hc, State.cell_setCell_same, hone, List.foldl_cons, List.foldl_nil, FieldDef.take, hclr]
  exact (getBits_setBits_same _ 0 hlo hhi).trans (Nat.zero_mod _)

/-! ## Writes that a rule discards (R52, R57, R58, R67, R68, R73, R112) -/

theorem ite_some_eq_none {α : Type} {c : Prop} [Decidable c] {x : α} {o : Option α} : (if c then some x else o) = none ↔ ¬c ∧ o = none := by
  by_cases h : c <;> simp [h]

/-- The ranges that pageInfo implements, as far as the register port names pages in them. -/
theorem pageInfo_reserved {p : Nat} (h : pageInfo p = none) : ¬ p < 0x003 ∧ p ≠ 0x010 ∧ p ≠ 0x011 ∧ ¬(0x020 ≤ p ∧ p < 0x042) ∧ p ≠ 0x050 ∧
    ¬(0x080 ≤ p ∧ p < 0x0D3) ∧ ¬(0x0F0 ≤ p ∧ p < 0x10C) ∧ ¬(0x110 ≤ p ∧ p < 0x11B) ∧ ¬(0x130 ≤ p ∧ p < 0x135) ∧ ¬(0x150 ≤ p ∧ p < 0x153) ∧
    ¬(0x160 ≤ p ∧ p < 0x163) ∧ ¬(0x200 ≤ p ∧ p < 0x260) := by
  simp only [pageInfo, ite_some_eq_none, Bool.and_eq_true, Nat.ble_eq, Nat.blt_eq, beq_iff_eq, and_true] at h
  refine ⟨?_, ?_, ?_, ?_, ?_, ?_, ?_, ?_, ?_, ?_, ?_, ?_⟩ <;> omega

section
variable {s : State} {p off w : Nat} {v : Word}

theorem State.onWrite_stopped {t : State} (h : s.portCheck p off w = some t) (f : State → State) : s.onWrite p off w v f = t := by
  simp [State.onWrite, h]

theorem State.onWrite_undefined {lo : Nat} (h : s.portCheck p off w = none) (he : s.encodingBad p off v = some lo) (f : State → State) :
    s.onWrite p off w v f = s.undefinedEncoding p off lo := by
  simp [State.onWrite, h, he]

theorem State.plainWrite_stopped {t : State} (h : s.portCheck p off w = some t) : s.plainWrite p off w v = t := by
  simp [State.plainWrite, h]

theorem State.portCheck_reserved (h : pageInfo p = none) : s.portCheck p off w = some (s.badAccess p off w) := by
  simp [State.portCheck, h]

/-- No register of a reserved page acts: the port knows no page there. -/
theorem State.regWrite_reserved (h : pageInfo p = none) : s.regWrite p off w v = s.badAccess p off w := by
  have hc := State.portCheck_reserved (s := s) (off := off) (w := w) h
  have hpl : s.plainWrite p off w v = s.badAccess p off w := State.plainWrite_stopped hc
  obtain ⟨h0, h10, h11, h20, h50, h80, hF0, h110, h130, h150, h160, hps⟩ := pageInfo_reserved h
  unfold State.regWrite
  split_ifs with ho ha hf
  · exact State.onWrite_stopped hc _
  · unfold State.aonSideWrite
    iterate 15 rw [if_neg (by omega)]
    rw [if_neg (by simp [isPersistent]; omega), hpl]
  · unfold State.frameSideWrite
    iterate 7 rw [if_neg (by omega)]
    exact hpl
  · unfold State.fabricSideWrite
    iterate 15 rw [if_neg (by omega)]
    exact hpl

/-- A write at 0x40 or above of a block in SOFT_RESET is a bad access (R73). -/
theorem State.portCheck_softReset (hi : pageInfo p ≠ none) (hf : s.fusedOffPage p = false) (hb : s.boot.resetPending = false)
    (hl : s.lowPower = false) (hr : s.flag F.GLB_BOOT_STATUS_FW_READY = true) (ho : 0x40 ≤ off) (hs : (s.page (statePage p)).softReset = true) :
    s.portCheck p off w = some (s.badAccess p off w) := by
  simp [State.portCheck, Option.isNone_iff_eq_none, hi, hf, hb, hl, hr, ho, hs]

/-- An undefined encoding discards the write whole (R57). -/
theorem State.plainWrite_undefined {lo : Nat} (hp : p ∈ plainPages) (h : s.portCheck p off w = none) (he : s.encodingBad p off v = some lo) :
    s.plainWrite p off w v = s.undefinedEncoding p off lo := by
  simp [State.plainWrite, plainPages_hasAcc_rws hp, h, he]

/-- DBG_CFG is closed to virtual functions, and in the safe state to the physical function (R67, R68). -/
theorem State.regWrite_dbgCfg_refused (h : s.portCheck 0x134 0x4C w = none)
    (hw : Writer.isVf w = true ∨ (w = 0x40 ∧ s.pstate 0x160 = St.safe)) : s.regWrite 0x134 0x4C w v = s := by
  have hr : s.rwsRefused 0x134 0x4C w = true := by
    rcases hw with hv | ⟨rfl, hs⟩
    · simp [State.rwsRefused, hv]
    · simp [State.rwsRefused, State.rwsOpen, Writer.pf, hs]
  have hd : s.regWrite 0x134 0x4C w v = s.writeDbgCfg w v := rfl
  simp [hd, State.writeDbgCfg, State.onRws, h, hr]

variable (s p off w)

/-- A bad access is counted, and its register and writer are kept; nothing else changes (R112). -/
theorem State.badAccess_cell {k : Nat} (h : k ≠ R.GLB_BAD_ACCESS_CNT) (hl : k ≠ R.GLB_BAD_ACCESS_LAST) :
    (s.badAccess p off w).cell k = s.cell k := by
  unfold State.badAccess
  rw [State.cell_setFld_other _ _ hl, State.cell_setFld_other _ _ hl]
  exact State.cell_setFld_other _ _ h

theorem State.fld_bump (f : Field) (h : f.lo ≤ f.hi) (hh : f.hi < 32) :
    (s.bump f).fld f = min (2 ^ (f.hi + 1 - f.lo) - 1) (s.fld f + 1) := by
  have hp : 0 < 2 ^ (f.hi + 1 - f.lo) := by positivity
  rw [State.bump, State.bumpBy, State.fld_setFld_same _ _ _ h hh, Nat.mod_eq_of_lt (by omega)]

theorem State.badAccess_count :
    (s.badAccess p off w).fld F.GLB_BAD_ACCESS_CNT_COUNT = min (2 ^ 32 - 1) (s.fld F.GLB_BAD_ACCESS_CNT_COUNT + 1) := by
  unfold State.badAccess
  dsimp only
  rw [State.fld_setFld_other _ _ (by decide), State.fld_setFld_other _ _ (by decide)]
  exact s.fld_bump _ (by decide) (by decide)

/-- A write of a register is in the register file alone. -/
theorem State.setFld_forget (f : Field) (v : Nat) (r : Sparse Word) : { s.setFld f v with regs := r } = { s with regs := r } := rfl

theorem State.badAccess_regs : { s.badAccess p off w with regs := s.regs } = s := by
  unfold State.badAccess State.bump State.bumpBy
  simp only [State.setFld_forget]

end

/-- Settles O4, rule by rule. -/
theorem writesDiscarded : Obligations.WritesDiscarded := by
  intro s dt p off w v b
  refine ⟨fun size h4 h8 ho => exec_registerWrite_bad s dt p w v size ho h4 h8, State.regWrite_reserved, ?_, ?_,
    State.regWrite_dbgCfg_refused, b.badAccess_count p off w, fun k => b.badAccess_cell p off w, b.badAccess_regs p off w⟩
  · intro hp ho hs hb hl hr
    have hi : pageInfo p ≠ none := by fin_cases hp <;> decide
    rw [b.regWrite_plain w v hp ho,
      State.plainWrite_stopped (State.portCheck_softReset hi (plainPages_fusedOff b hp) hb hl hr ho hs)]
  · intro lo hp ho hc he
    rw [b.regWrite_plain w v hp ho, State.plainWrite_undefined hp hc he]
    rfl

/-! ## Writes of one cycle (R96, R97) -/

section
variable (s : State) (p off : Nat) (x y : RegWrite)

theorem splitCycle_pair {x y : RegWrite} (h : x.writer ≠ y.writer) : splitCycle [] [x, y] = ([x, y], []) := by
  simp [splitCycle, h.symm]

theorem rankWrites_pair {r : Bool} {x y : RegWrite} (h : writerRank r x.writer < writerRank r y.writer) :
    rankWrites r [x, y] = [x, y] ∧ rankWrites r [y, x] = [x, y] := by
  simp [rankWrites, rankInsert, h, Nat.lt_asymm h]

variable {s p off x y}

theorem State.writeRegs_distinct (hne : x.writer ≠ y.writer) : s.writeRegs p off [x, y] = s.oneCycle p off [x, y] := by
  have hn : splitCycle [] [] = ([], []) := rfl
  simp only [State.writeRegs, State.writeBatches, List.length_cons, List.length_nil, splitCycle_pair hne, hn, State.oneCycle_nil]

/-- Of two writes that take part the one of the better rank is applied, whichever came first. -/
theorem State.writeRegs_pair (hne : x.writer ≠ y.writer) (hx : s.takesPart p off x.writer x.value = true)
    (hy : s.takesPart p off y.writer y.value = true)
    (hr : writerRank (hasAcc p off .rws) x.writer < writerRank (hasAcc p off .rws) y.writer) :
    let t := ((s.noteStripped p off [y]).regWrite p off x.writer x.value).recordLosers p off x.writer [y]
    s.writeRegs p off [x, y] = t ∧ s.writeRegs p off [y, x] = t := by
  obtain ⟨hxy, hyx⟩ := rankWrites_pair hr
  constructor
  · simp [State.writeRegs_distinct hne, State.oneCycle, State.arbitrate, hx, hy, hxy]
  · simp [State.writeRegs_distinct hne.symm, State.oneCycle, State.arbitrate, hx, hy, hyx]

theorem State.noteStripped_open (h : s.lockedOut p off y.writer = false) : s.noteStripped p off [y] = s := by
  simp [State.noteStripped, h]

/-- An error takes a place in CODE, ERR_INFO and MORE_CNT alone. -/
theorem PageHdr.take_origin (h : PageHdr) (code : Nat) (info : Word) :
    (h.take code info).collided = h.collided ∧ (h.take code info).loser = h.loser ∧ (h.take code info).loserOffset = h.loserOffset := by
  unfold PageHdr.take
  split <;> exact ⟨rfl, rfl, rfl⟩

/-- The header on which one loser is recorded (R97). -/
theorem State.page_recordLosers (s : State) (p off win : Nat) (y : RegWrite) : (s.recordLosers p off win [y]).page p =
    { ({ s.page p with collided := true, loser := y.writer, loserOffset := off } : PageHdr).take 0xA002
        (word (off * 2 ^ 16 + win * 2 ^ 8 + y.writer)) with eventRaw := (s.page p).eventRaw ||| 0x80000000 ||| (1#32 <<< 29) } := by
  unfold State.recordLosers
  dsimp only
  rw [State.page_noteRise, State.page_event, List.foldl_cons, List.foldl_nil, State.page_error, if_pos rfl,
    State.page_setPage_same]
  rfl

theorem State.page_recordLosers_other (s : State) (p off win : Nat) (y : RegWrite) {q : Nat} (h : q ≠ p) :
    (s.recordLosers p off win [y]).page q = s.page q := by
  simp only [State.recordLosers, List.foldl_cons, List.foldl_nil, State.page_noteRise, State.page_event_other _ _ _ h,
    State.page_error, if_neg h, State.page_setPage_other _ _ h]

/-- Settles O5: the two orders of arrival rank to one list, and the loser's record is a header of its page. -/
theorem writesOfOneCycleArbitrated : Obligations.WritesOfOneCycleArbitrated := by
  refine ⟨?_, ?_, by decide, by decide⟩
  · intro s dt p off x y ho ha hne b hx hy hr t
    refine ⟨State.noteStripped_open, ?_⟩
    obtain ⟨hp, hm⟩ := addr_split p ho
    have h4 : (p * 0x1000 + off) % 4 = 0 := by omega
    have hxy : (s.arrive dt).noteTlp [x, y] = b := by simp [State.noteTlp, b]
    have hyx : (s.arrive dt).noteTlp [y, x] = b := by simp [State.noteTlp, b, or_comm]
    obtain ⟨h1, h2⟩ := State.writeRegs_pair hne hx hy hr
    constructor
    · rw [exec_registerWrite, State.registerWrite, hxy]
      simp only [h4, hp, hm, and_self, if_true, h1, t]
    · rw [exec_registerWrite, State.registerWrite, hyx]
      simp only [h4, hp, hm, and_self, if_true, h2, t]
  · intro s p off win y t
    have hpage : t.page p = _ := s.page_recordLosers p off win y
    obtain ⟨hc, hl, ho⟩ := PageHdr.take_origin { s.page p with collided := true, loser := y.writer, loserOffset := off } 0xA002
      (word (off * 2 ^ 16 + win * 2 ^ 8 + y.writer))
    rw [hpage]
    refine ⟨hc, hl, ho, fun h0 => ?_, ?_, fun q hq => s.page_recordLosers_other p off win y hq⟩
    · rw [PageHdr.take_first (by exact h0)]
      exact ⟨rfl, rfl⟩
    · simp

end

end Sys2Proof.Machine
end

section
/-! PROOFS. Page control: ENABLE, FREEZE, events, errors and locks of a page (R71, R74, R75, R80, R85, R89 to R92, R98). -/

namespace Sys2Proof.Machine

/-! ## Writes of a page's header -/

section
variable {s : State} {p w : Nat} {v : Word}

theorem State.regWrite_header (s : State) (p w : Nat) (v : Word) {off : Nat} (ho : off < 0x40) :
    s.regWrite p off w v = s.headerWrite p off w v := if_pos ho

theorem State.regWrite_ctrl (ha : s.admits p 0x08 w v = true) (hr : s.ctrlRule p w v = none) :
    s.regWrite p 0x08 w v = (s.writeCtrl p v).wrote p w := by
  rw [State.regWrite_header _ _ _ _ (by decide), State.headerWrite, State.onWrite_admitted ha, if_pos rfl, hr]

theorem State.regWrite_eventPend (ha : s.admits p 0x18 w v = true) : s.regWrite p 0x18 w v = (s.clearEvents p v).wrote p w := by
  rw [State.regWrite_header _ _ _ _ (by decide), State.headerWrite, State.onWrite_admitted ha]
  rfl

theorem State.regWrite_errCode (ha : s.admits p 0x1C w v = true) : s.regWrite p 0x1C w v = (s.clearError p v).wrote p w := by
  rw [State.regWrite_header _ _ _ _ (by decide), State.headerWrite, State.onWrite_admitted ha]
  rfl

end

/-! ## PAGE_CTRL -/

section
variable (e r z : Bool)

theorem ctrlValue_enable : (getBits (ctrlValue e r z) 0 0 == 1) = e := by revert e r z; decide
theorem ctrlValue_soft : (getBits (ctrlValue e r z) 1 1 = 1) ↔ r = true := by revert e r z; decide
theorem ctrlValue_freeze : (getBits (ctrlValue e r z) 2 2 == 1) = z := by revert e r z; decide

/-- What a write of ENABLE, SOFT_RESET and FREEZE does. -/
theorem State.writeCtrl_ctrlValue (s : State) {p : Nat} (hc : hasCtrl p = true) : s.writeCtrl p (ctrlValue e r z) =
    let t := if e = (s.page p).enable then s else s.setEnable p e
    if r = true then t.softReset p else if z = (s.page p).freeze then t else t.setFreeze p z := by
  simp only [State.writeCtrl, hc, Bool.not_true, Bool.false_eq_true, if_false, ctrlValue_enable, ctrlValue_soft, ctrlValue_freeze, beq_iff_eq]

end

section
variable (s : State) (dt p w : Nat)

theorem exec_pageEnable (on : Bool) : exec (.pageEnable dt p w on) s =
    .next ((s.arriveBy dt w).regWrite p 0x08 w (ctrlValue on false ((s.arriveBy dt w).page p).freeze)) := by
  rw [State.page_arriveBy, ← State.singleWrite_arrive]
  rfl

theorem exec_softReset : exec (.softReset dt p w) s = .next ((s.arriveBy dt w).regWrite p 0x08 w
    (ctrlValue ((s.arriveBy dt w).page p).enable true ((s.arriveBy dt w).page p).freeze)) := by
  rw [State.page_arriveBy, ← State.singleWrite_arrive]
  rfl

theorem exec_freeze (on : Bool) : exec (.freeze dt p w on) s =
    .next ((s.arriveBy dt w).regWrite p 0x08 w (ctrlValue ((s.arriveBy dt w).page p).enable false on)) := by
  rw [State.page_arriveBy, ← State.singleWrite_arrive]
  rfl

theorem exec_eventPendClear (v : Word) : exec (.eventPendClear dt p w v) s = .next ((s.arriveBy dt w).regWrite p 0x18 w v) := by
  rw [← State.singleWrite_arrive]
  rfl

theorem exec_errCodeClear (v : Word) : exec (.errCodeClear dt p w v) s = .next ((s.arriveBy dt w).regWrite p 0x1C w v) := by
  rw [← State.singleWrite_arrive]
  rfl

end

/-! ## Pages of HRV, SCV, ETU, HIF and MBX: blocks whose STATE follows ENABLE and FREEZE alone -/

/-- The first pages of the blocks that no lane, port or Frame Scheduler drives. -/
def blockPages : List Nat := [0x050, 0x060, 0x0D0, 0x100, 0x110]

section
variable {p : Nat}

theorem blockPages_facts (hp : p ∈ blockPages) : hasCtrl p = true ∧ statePage p = p ∧ pageType p ∉ [2, 3, 4, 7, 8, 10] := by
  fin_cases hp <;> decide

theorem blockPages_ctrl (hp : p ∈ blockPages) : hasCtrl p = true := (blockPages_facts hp).1
theorem blockPages_statePage (hp : p ∈ blockPages) : statePage p = p := (blockPages_facts hp).2.1

/-- No branch of a page type that has steps of its own is theirs. -/
theorem blockPages_type (hp : p ∈ blockPages) {t : Nat} (ht : t ∈ [2, 3, 4, 7, 8, 10]) : (pageType p == t) = false := by
  have h := (blockPages_facts hp).2.2
  rw [beq_eq_false_iff_ne]
  rintro rfl
  exact h ht

variable (s : State) (w : Nat)

theorem State.pstate_block (hp : p ∈ blockPages) : s.pstate p = stateOf (s.page p).cond := by
  rw [State.pstate, blockPages_statePage hp]

theorem State.pstate_updCond_block (f : Cond → Cond) (hp : p ∈ blockPages) : (s.updCond p f).pstate p = stateOf (f (s.page p).cond) := by
  rw [State.pstate_updCond, blockPages_statePage hp]

theorem State.cond_updCond_block (f : Cond → Cond) (hp : p ∈ blockPages) : ((s.updCond p f).page p).cond = f (s.page p).cond := by
  have h := s.cond_updCond f p
  rwa [blockPages_statePage hp] at h

theorem State.prevState_updCond_block (f : Cond → Cond) (hp : p ∈ blockPages) (h : stateOf (f (s.page p).cond) ≠ stateOf (s.page p).cond) :
    ((s.updCond p f).page p).prevState = stateOf (s.page p).cond := by
  have hs := s.prevState_updCond f p
  rwa [blockPages_statePage hp, if_neg h] at hs

theorem State.pauseHook_block (hp : p ∈ blockPages) : s.pauseHook p = s := by
  simp [State.pauseHook, blockPages_type hp]

end

section
variable (s : State) (p q w : Nat) (f : Cond → Cond)

@[simp] theorem State.enable_updCond : ((s.updCond p f).page q).enable = (s.page q).enable := by
  have h := congrArg PageHdr.enable (s.rest_updCond f p q)
  exact h
@[simp] theorem State.freeze_updCond : ((s.updCond p f).page q).freeze = (s.page q).freeze := by
  have h := congrArg PageHdr.freeze (s.rest_updCond f p q)
  exact h
@[simp] theorem State.softReset_updCond : ((s.updCond p f).page q).softReset = (s.page q).softReset := by
  have h := congrArg PageHdr.softReset (s.rest_updCond f p q)
  exact h
@[simp] theorem State.lockHeld_updCond : ((s.updCond p f).page q).lockHeld = (s.page q).lockHeld := by
  have h := congrArg PageHdr.lockHeld (s.rest_updCond f p q)
  exact h

@[simp] theorem State.mem_updCond : (s.updCond p f).mem = s.mem := State.mem_of_inner (State.updCond_inner _ _ _)
@[simp] theorem State.mem_updPage (g : PageHdr → PageHdr) : (s.updPage p g).mem = s.mem := State.mem_of_inner (State.updPage_inner _ _ _)
@[simp] theorem State.mem_release : (s.release p).mem = s.mem := rfl
@[simp] theorem State.page_release : (s.release p).page q = s.page q := rfl
@[simp] theorem State.page_wrote_same : (s.wrote p w).page p = { s.page p with lastWriter := w } :=
  (State.page_wrote s p w p).trans (if_pos rfl)
@[simp] theorem State.pstate_wrote : (s.wrote p w).pstate q = s.pstate q := by
  simp only [State.pstate, State.page_wrote]
  split_ifs with h
  · rw [h]
  · rfl

end

/-! ## ENABLE (R71) -/

section
variable {s : State} {p : Nat}

theorem State.setEnable_on (hp : p ∈ blockPages) (hs : (s.page p).softReset = false) (hc : (s.page p).cond.off = true) :
    s.setEnable p true = (s.updPage p (fun h => { h with enable := true })).updCond p (fun c => { c with off := false }) := by
  simp [State.setEnable, hs, hc, State.turnOn, blockPages_type hp]

/-- The conditions of a block that is OFF. -/
def Cond.ended (c : Cond) : Cond := { c with off := true, waiting := false, draining := false, running := false, armed := false }

theorem State.turnOff_block (s : State) (hp : p ∈ blockPages) : s.turnOff p = (s.release p).updCond p Cond.ended := by
  simp only [State.turnOff, blockPages_type hp (t := 3) (by decide), Bool.false_and, Bool.false_eq_true, if_false]
  rfl

theorem State.pageWork_updPage (s : State) (g : PageHdr → PageHdr) (hp : p ∈ blockPages) : (s.updPage p g).pageWork p = s.pageWork p := by
  have h : (s.updPage p g).inner = s.inner := State.updPage_inner _ _ _
  have hh : (s.updPage p g).hrv = s.hrv := (congrArg State.hrv h :)
  have hf : (s.updPage p g).frm = s.frm := State.frm_of_inner h
  have he : (s.updPage p g).etu = s.etu := (congrArg State.etu h :)
  simp [State.pageWork, blockPages_type hp, hh, hf, he]

/-- Whether a block that is turned down drains first. -/
def Cond.drains (c : Cond) (work : Bool) : Bool := if c.frozen || c.ownPause then work else (c.running || c.armed) && !c.waiting

/-- A block that is turned down drains, where it has work, or is OFF. -/
theorem State.setEnable_off (hp : p ∈ blockPages) (hs : (s.page p).softReset = false) : s.setEnable p false =
    let t := s.updPage p (fun h => { h with enable := false })
    if (s.page p).cond.off || (s.page p).cond.draining then t
    else if (s.page p).cond.drains (s.pageWork p) then t.updCond p (fun c => { c with draining := true })
    else (t.release p).updCond p Cond.ended := by
  simp only [State.setEnable, State.page_updPage_same, hs, Bool.false_eq_true, if_false, State.turnDown, blockPages_type hp (t := 10) (by decide),
    blockPages_type hp (t := 2) (by decide), State.turnOff_block _ hp, State.pageWork_updPage _ _ hp, Cond.drains]
  by_cases ho : (s.page p).cond.off <;> by_cases hd : (s.page p).cond.draining <;>
    by_cases hf : (s.page p).cond.frozen || (s.page p).cond.ownPause <;> simp [ho, hd, hf]

/-- What a change of ENABLE, and of the conditions that follow it, leaves. -/
theorem State.setEnable_off_keeps (hp : p ∈ blockPages) (hs : (s.page p).softReset = false) :
    ((s.setEnable p false).page p).enable = false ∧ ((s.setEnable p false).page p).lockHeld = (s.page p).lockHeld ∧
      ((s.setEnable p false).page p).freeze = (s.page p).freeze ∧ (s.setEnable p false).mem = s.mem := by
  rw [State.setEnable_off hp hs]
  dsimp only
  split_ifs <;> simp

theorem State.setEnable_off_drains (hp : p ∈ blockPages) (hs : (s.page p).softReset = false) {c : Cond} (hc : (s.page p).cond = c)
    (ho : c.off = false) (hd : c.draining = false) (hw : c.drains (s.pageWork p) = true) :
    (s.setEnable p false).pstate p = stateOf { c with draining := true } ∧ ((s.setEnable p false).page p).cond = { c with draining := true } ∧
      (stateOf { c with draining := true } ≠ stateOf c → ((s.setEnable p false).page p).prevState = stateOf c) := by
  have h0 : ¬((s.page p).cond.off || (s.page p).cond.draining) = true := by simp [hc, ho, hd]
  rw [State.setEnable_off hp hs]
  dsimp only
  rw [if_neg h0, if_pos (by rw [hc, hw])]
  refine ⟨?_, ?_, fun hm => ?_⟩
  · rw [State.pstate_updCond_block _ _ hp, State.page_updPage_same, hc]
  · rw [State.cond_updCond_block _ _ hp, State.page_updPage_same, hc]
  · rw [State.prevState_updCond_block _ _ hp (by rw [State.page_updPage_same, hc]; exact hm), State.page_updPage_same, hc]

theorem State.setEnable_off_ends (hp : p ∈ blockPages) (hs : (s.page p).softReset = false) {c : Cond} (hc : (s.page p).cond = c)
    (ho : c.off = false) (hd : c.draining = false) (hw : c.drains (s.pageWork p) = false) :
    (s.setEnable p false).pstate p = St.off := by
  have h0 : ¬((s.page p).cond.off || (s.page p).cond.draining) = true := by simp [hc, ho, hd]
  rw [State.setEnable_off hp hs]
  dsimp only
  rw [if_neg h0, if_neg (by rw [hc, hw]; decide)]
  rw [State.pstate_updCond_block _ _ hp]
  rfl

/-- DRAIN_COMPLETE of a block: IDLE again where it was enabled meanwhile, OFF else. -/
theorem State.drainDone_block (hp : p ∈ blockPages) (hc : (s.page p).cond = { draining := true }) (hw : s.pageWork p = false) :
    s.drainDone p = if (s.page p).enable then s.updCond p (fun c => { c with draining := false }) else (s.release p).updCond p Cond.ended := by
  simp [State.drainDone, blockPages_ctrl hp, hc, hw, blockPages_type hp, State.turnOff_block _ hp]

end

/-- Settles O6. -/
theorem enableMovesState : Obligations.EnableMovesState := by
  intro s dt p w b
  have hw : ∀ on, hasCtrl p = true → b.admits p 0x08 w (ctrlValue on false (b.page p).freeze) = true →
      b.ctrlRule p w (ctrlValue on false (b.page p).freeze) = none →
        exec (.pageEnable dt p w on) s = .next ((if on = (b.page p).enable then b else b.setEnable p on).wrote p w) := by
    intro on hc ha hr
    rw [exec_pageEnable, State.regWrite_ctrl ha hr, State.writeCtrl_ctrlValue _ _ _ _ hc, if_neg Bool.false_ne_true, if_pos rfl]
  refine ⟨hw, fun hp hs he ha hr hc => ?_, fun c hp hs he ha hr hc => ?_, fun hp hc hwk => ?_⟩
  · refine ⟨_, hw true (blockPages_ctrl hp) ha hr, ?_⟩
    have hm : stateOf { (b.page p).cond with off := false } ≠ stateOf (b.page p).cond := by rw [hc]; decide
    rw [he, if_neg (by decide), State.setEnable_on hp hs (by rw [hc]), State.pstate_wrote, State.page_wrote_same,
      State.pstate_updCond_block _ _ hp, State.prevState_updCond_block _ _ hp (by rw [State.page_updPage_same]; exact hm)]
    simp [hc]
    decide
  · refine ⟨_, hw false (blockPages_ctrl hp) ha hr, ?_⟩
    obtain ⟨hen, hlk, hfz, hmem⟩ := State.setEnable_off_keeps hp hs
    have drains : c.off = false → c.draining = false → c.drains (b.pageWork p) = true → _ := State.setEnable_off_drains hp hs hc
    have ends : c.off = false → c.draining = false → c.drains (b.pageWork p) = false → _ := State.setEnable_off_ends hp hs hc
    rw [he, if_neg (by decide), State.pstate_wrote, State.page_wrote_same, State.wrote_mem]
    refine ⟨hen, rfl, hlk, hmem, ?_, ?_, ?_, ?_⟩
    · rintro (rfl | rfl) <;> exact ends rfl rfl rfl
    · rintro (rfl | rfl)
      all_goals
        obtain ⟨hst, -, hpv⟩ := drains rfl rfl rfl
        exact ⟨hst, hpv (by decide)⟩
    · rintro rfl hk
      exact ⟨ends rfl rfl hk, hfz⟩
    · rintro rfl hk
      obtain ⟨hst, hcd, -⟩ := drains rfl rfl hk
      exact ⟨hst, congrArg Cond.draining hcd⟩
  · refine ⟨_, rfl, ?_⟩
    rw [State.drainDone_block hp hc hwk]
    split_ifs
    · rw [State.pstate_updCond_block _ _ hp, State.prevState_updCond_block _ _ hp (by rw [hc]; decide), State.mem_updCond, hc]
      exact ⟨rfl, rfl, rfl⟩
    · rw [State.pstate_updCond_block _ _ hp, State.prevState_updCond_block _ _ hp (by rw [State.page_release, hc]; decide),
        State.mem_updCond, State.page_release, hc]
      exact ⟨rfl, rfl, rfl⟩

/-! ## FREEZE (R74, R75) -/

section
variable {s : State} {p : Nat}

/-- FREEZE = 1 alone changes no STATE. -/
theorem State.setFreeze_on (s : State) (p : Nat) : s.setFreeze p true = s.updPage p (fun h => { h with freeze := true }) := rfl

theorem State.setFreeze_off (hp : p ∈ blockPages) (hc : (s.page p).cond.frozen = true) :
    s.setFreeze p false = (s.updPage p (fun h => { h with freeze := false })).updCond p (fun c => { c with frozen := false }) := by
  simp [State.setFreeze, hc, State.pauseHook_block _ hp]

theorem State.freezePoint_block (hp : p ∈ blockPages) (hf : (s.page p).freeze = true) (hs : (s.page p).softReset = false)
    (ha : s.atSafePoint p = true) (hc : stateOf (s.page p).cond ∈ [St.idle, St.armed, St.running]) :
    s.freezePoint p = s.updCond p (fun c => { c with frozen := true }) := by
  have hst : (stateOf (s.page p).cond == St.idle || stateOf (s.page p).cond == St.armed || stateOf (s.page p).cond == St.running) = true := by
    simpa [or_assoc] using hc
  simp only [State.freezePoint, blockPages_ctrl hp, hf, hs, ha, Bool.not_false, Bool.and_true, State.pauseHook_block _ hp, hst, if_true]

/-- A write of PAGE_CTRL that sets FREEZE while frames are paced (R75). -/
theorem State.regWrite_freezeInFrame {w : Nat} {v : Word} (hc : hasCtrl p = true) (h2 : 2 ≤ pageType p) (h9 : pageType p ≤ 9)
    (hst : s.pstate 0x010 = St.running) (hfr : s.frm.freeRun = false) (hpc : s.portCheck p 0x08 w = none) (hv : getBits v 2 2 = 1) :
    s.regWrite p 0x08 w v = s.error p 0x1004 (word w) := by
  have ha : s.admits p 0x08 w v = true := State.admits_iff.mpr ⟨hpc, rfl⟩
  have hr : s.ctrlRule p w v = some (s.error p 0x1004 (word w)) := by
    simp [State.ctrlRule, hc, hv, h2, h9, State.framePaced, hst, hfr, Err.freezeInFrame]
  rw [State.regWrite_header _ _ _ _ (by decide), State.headerWrite, State.onWrite_admitted ha, if_pos rfl, hr]

theorem getBits_two_of_getLsbD {v : Word} (h : v.getLsbD 2 = true) : getBits v 2 2 = 1 := by
  have h0 := (testBit_getBits_same v (le_refl 2) (le_refl 2)).trans h
  have h1 : getBits v 2 2 < 2 := getBits_lt v 2 2
  interval_cases getBits v 2 2
  · exact absurd h0 (by decide)
  · rfl

theorem PageHdr.take_control (h : PageHdr) (code : Nat) (info : Word) :
    (h.take code info).freeze = h.freeze ∧ (h.take code info).enable = h.enable ∧ (h.take code info).cond = h.cond := by
  unfold PageHdr.take
  split <;> exact ⟨rfl, rfl, rfl⟩

end

/-- Settles O8. -/
theorem freezeAndThaw : Obligations.FreezeAndThaw := by
  intro s dt p w b
  have hw : ∀ on, hasCtrl p = true → b.admits p 0x08 w (ctrlValue (b.page p).enable false on) = true →
      b.ctrlRule p w (ctrlValue (b.page p).enable false on) = none →
        exec (.freeze dt p w on) s = .next ((if on = (b.page p).freeze then b else b.setFreeze p on).wrote p w) := by
    intro on hc ha hr
    rw [exec_freeze, State.regWrite_ctrl ha hr, State.writeCtrl_ctrlValue _ _ _ _ hc, if_neg Bool.false_ne_true, if_pos rfl]
  refine ⟨hw, fun on c hp ha hr hf hc hm => ?_, fun hp hf hs ha hc => ?_⟩
  · refine ⟨_, hw on (blockPages_ctrl hp) ha hr, ?_⟩
    rw [hf, if_neg (by cases on <;> decide), State.pstate_wrote, State.page_wrote_same, State.wrote_mem]
    have hz : { c with frozen := false } = c := by fin_cases hm <;> rfl
    cases on with
    | false =>
      rw [State.setFreeze_off hp (by rw [hc]; rfl), State.pstate_updCond_block _ _ hp]
      simp [hc, hz]
    | true =>
      rw [State.setFreeze_on, State.pstate_block _ hp]
      simp [hc, hz]
  · have hd : (s.arrive dt |>.page p).cond.frozen = false ∧ stateOf ((s.arrive dt).page p).cond ∈ [St.idle, St.armed, St.running] ∧
        stateOf { ((s.arrive dt).page p).cond with frozen := true } = St.paused := by
      generalize ((s.arrive dt).page p).cond = c at hc ⊢
      fin_cases hc <;> decide
    obtain ⟨-, hst, hpz⟩ := hd
    refine ⟨_, rfl, ?_⟩
    rw [State.freezePoint_block hp hf hs ha hst, State.pstate_updCond_block _ _ hp, State.mem_updCond, hpz]
    refine ⟨rfl, State.prevState_updCond_block _ _ hp ?_, rfl⟩
    rw [hpz]
    intro h
    rw [← h] at hst
    exact absurd hst (by decide)

/-- Settles O9. -/
theorem freezeInFrameDiscarded : Obligations.FreezeInFrameDiscarded := by
  intro s dt p w v hc h2 h9 b hst hfr hpc
  have hw := fun u (hu : getBits u 2 2 = 1) => State.regWrite_freezeInFrame hc h2 h9 hst hfr hpc hu
  have hpage : (b.error p 0x1004 (word w)).page p = _ := (b.page_error p 0x1004 (word w) p).trans (if_pos rfl)
  obtain ⟨hf, he, hcd⟩ := (b.page p).take_control 0x1004 (word w)
  rw [hpage]
  refine ⟨?_, fun hv => hw v (getBits_two_of_getLsbD hv), hf, he, hcd⟩
  rw [exec_freeze, hw]
  simpa using ctrlValue_freeze (b.page p).enable false true

/-! ## EVENT_PEND and ERR_CODE (R80, R85) -/

section
variable (s : State) (p : Nat)

/-- The bits of EVENT_RAW that a write of EVENT_PEND clears: those written 1 whose event did not occur in the same cycle. -/
theorem State.clearEvents_eq (v : Word) : s.clearEvents p v
    = s.setPage p { s.page p with eventRaw := (s.page p).eventRaw &&& ~~~(v &&& ~~~s.risen (p * 0x1000 + 0x10)) } := by
  unfold State.clearEvents
  refine State.updPage_quiet _ _ _ ?_
  ext n
  simp [PageHdr.pend]
  grind

/-- A page with an error counts every further one, up to 255. -/
theorem PageHdr.take_all {h : PageHdr} (hc : h.errCode ≠ 0) (hm : h.moreCnt ≤ 255) (l : List CycErr) :
    l.foldl (fun (h : PageHdr) e => h.take e.code e.info) h = { h with moreCnt := min 255 (h.moreCnt + l.length) } := by
  induction l generalizing h with
  | nil => simp [hm]
  | cons e l ih =>
    have h1 : min 255 (min 255 (h.moreCnt + 1) + l.length) = min 255 (h.moreCnt + (l.length + 1)) := by omega
    rw [List.foldl_cons, PageHdr.take_further hc, ih (h := { h with moreCnt := min 255 (h.moreCnt + 1) }) hc (Nat.min_le_left _ _), List.length_cons, ← h1]

/-- The header whose error is cleared. -/
def PageHdr.cleared (h : PageHdr) : PageHdr := { h with errCode := 0, moreCnt := 0, errInfo := 0 }

/-- The errors of the cycle of a clear are loaded after it: the first is held, the others count. -/
theorem PageHdr.cleared_take_all (h : PageHdr) {e : CycErr} (hc : e.code ≠ 0) (l : List CycErr) :
    (e :: l).foldl (fun (h : PageHdr) e => h.take e.code e.info) h.cleared
      = { h with errCode := e.code, errInfo := e.info, moreCnt := min 255 l.length } := by
  rw [List.foldl_cons, PageHdr.take_first rfl, PageHdr.take_all hc (Nat.zero_le _)]
  simp [PageHdr.cleared]

variable {s p} {v : Word}

theorem State.clearError_ignored (h : getBits v 15 0 ≠ s.codeBefore p) : s.clearError p v = s := by
  simp [State.clearError, h]

theorem State.codeBefore_first {e : CycErr} {l : List CycErr} (h : s.cycErrs p = e :: l) : s.codeBefore p = e.before := by
  simp [State.codeBefore, h]

theorem State.codeBefore_none (h : s.cycErrs p = []) : s.codeBefore p = (s.page p).errCode := by
  simp [State.codeBefore, h]

theorem State.clearError_quiet (h : s.cycErrs p = []) (hv : getBits v 15 0 = (s.page p).errCode) :
    s.clearError p v = s.setPage p (s.page p).cleared := by
  have hb := State.codeBefore_none h
  simp only [State.clearError, h, hb, hv, ne_eq, not_true, if_false, List.isEmpty_nil, if_true]
  refine State.updPage_quiet _ _ _ ?_
  simp [PageHdr.pend]

/-- The header and the registers after a clear that meets errors of its cycle. -/
theorem State.clearError_loaded {e : CycErr} {l : List CycErr} (h : s.cycErrs p = e :: l) (hv : getBits v 15 0 = e.before) (hc : e.code ≠ 0) :
    (s.clearError p v).page p = { s.page p with errCode := e.code, errInfo := e.info, moreCnt := min 255 l.length } ∧
      (s.clearError p v).regs = s.regs ∧ (s.clearError p v).mem = s.mem := by
  have hb := State.codeBefore_first h
  have hq : s.updPage p (fun h => (e :: l).foldl (fun (h : PageHdr) e => h.take e.code e.info) h.cleared)
      = s.setPage p { s.page p with errCode := e.code, errInfo := e.info, moreCnt := min 255 l.length } := by
    rw [State.updPage_quiet, PageHdr.cleared_take_all _ hc]
    rw [PageHdr.cleared_take_all _ hc]
    simp [PageHdr.pend]
  unfold State.clearError
  dsimp only
  rw [h, hb, if_neg (not_not.mpr hv), if_neg (by simp)]
  change (State.page { (State.updCyc (s.updPage p _) _) with logQueue := _ } p = _) ∧ _
  simp only [PageHdr.cleared] at hq
  rw [hq]
  exact ⟨State.page_setPage_same _ _ _, rfl, rfl⟩

end

/-- Settles O13. -/
theorem eventPendClears : Obligations.EventPendClears := by
  intro s dt p w v b ha
  have hx : exec (.eventPendClear dt p w v) s = .next ((b.clearEvents p v).wrote p w) := by
    rw [exec_eventPendClear, State.regWrite_eventPend ha]
  have hp : ((b.clearEvents p v).wrote p w).page p
      = { b.page p with eventRaw := (b.page p).eventRaw &&& ~~~(v &&& ~~~b.risen (p * 0x1000 + 0x10)), lastWriter := w } := by
    rw [State.clearEvents_eq, State.page_wrote_same, State.page_setPage_same]
  refine ⟨_, hx, fun n hn hv hr => ?_, fun n hn hv => ?_, ?_, fun q hq => ?_, ?_, ?_⟩
  · rw [BitVec.getLsbD_eq_getElem hn] at hv hr
    rw [hp]
    simp [PageHdr.pend, hn, hv, hr]
  · rw [BitVec.getLsbD_eq_getElem hn, BitVec.getLsbD_eq_getElem hn] at hv
    rw [hp]
    obtain hv | hv := hv <;> simp [hn, hv]
  · rw [hp]
  · rw [State.clearEvents_eq, State.page_wrote, if_neg hq, State.page_setPage_other _ _ hq]
  · rw [State.clearEvents_eq]
    rfl
  · rw [State.clearEvents_eq]
    rfl

/-- Settles O14. -/
theorem errorCleared : Obligations.ErrorCleared := by
  intro s dt p w v b ha
  have hx : exec (.errCodeClear dt p w v) s = .next ((b.clearError p v).wrote p w) := by
    rw [exec_errCodeClear, State.regWrite_errCode ha]
  refine ⟨fun h hv => ?_, fun h hv => ?_, fun e l h hv hc => ?_, fun e l h hv => ?_⟩
  · rw [hx, State.clearError_quiet h hv]
    rfl
  · rw [hx, State.clearError_ignored (by rwa [State.codeBefore_none h])]
  · obtain ⟨hp, hr, hm⟩ := State.clearError_loaded h hv hc
    refine ⟨_, hx, ?_, ?_, ?_, hr, hm⟩
    all_goals rw [State.page_wrote_same, hp]
  · rw [hx, State.clearError_ignored (by rwa [State.codeBefore_first h])]

/-! ## LOCK_CTL (R89 to R93) -/

section
variable {s : State} {p w : Nat}

/-- A write of LOCK_CTL that the port lets pass is its operation, BREAK by Rootstock alone. -/
theorem State.regWrite_lockCtl {v : Word} (hc : s.portCheck p 0x28 w = none) (hv : getBits v 2 0 ≤ 4) : s.regWrite p 0x28 w v =
    if getBits v 2 0 = 4 ∧ w ≠ Writer.rootstock then s.undefinedEncoding p 0x28 0 else (s.lockOp p w (getBits v 2 0)).wrote p w := by
  have he : s.encodingBad p 0x28 v = none := by simp [State.encodingBad, outside, hv]
  rw [State.regWrite_header _ _ _ _ (by decide), State.headerWrite, State.onWrite_admitted (State.admits_iff.mpr ⟨hc, he⟩)]
  rfl

theorem State.lockBreak_owned (s : State) (p : Nat) (hh : (s.page p).lockHeld = true) (ho : (s.page p).lockOwner ≠ 0x01) :
    s.lockBreak p = s.abandonOnce p := by
  simp [State.lockBreak, hh, ho, Writer.rootstock]

theorem State.lockBreak_idle (s : State) (p : Nat) (h : (s.page p).lockHeld = false ∨ (s.page p).lockOwner = 0x01) : s.lockBreak p = s := by
  obtain h | h := h <;> simp [State.lockBreak, h, Writer.rootstock]

theorem State.lockRecovered_owner (hh : (s.page p).lockHeld = true) (ho : (s.page p).lockOwner = w) (ha : (s.page p).lockAbandoned = true)
    (h3 : pageType p ≠ 3) (h4 : pageType p ≠ 4) : s.lockRecovered p w = s.setPage p { s.page p with lockAbandoned := false } := by
  simp [State.lockRecovered, hh, ho, ha, h3, h4]

theorem State.abandonOnce_held (hh : (s.page p).lockHeld = true) (hn : s.nowCyc.abandoned.contains p = false) :
    s.abandonOnce p = (s.abandonLock p).updCyc (fun c => { c with abandoned := p :: c.abandoned }) := by
  rw [State.abandonOnce, if_pos (by rw [hh, hn]; rfl)]

variable (s p)

/-- The header of a page whose lock is abandoned (R92). -/
def PageHdr.abandoned (h : PageHdr) : PageHdr :=
  { h with lockHeld := false, lockOwner := 0, lockAbandoned := true, lockSeq := (h.lockSeq + 1) % 65536 }

/-- The error takes its place after the lock's change, and the event is raised. -/
theorem State.page_abandonLock : (s.abandonLock p).page p =
    { (s.page p).abandoned.take 0xA003 (word ((s.page p).abandoned.lockSeq * 2 ^ 8 + (s.page p).lockOwner)) with
      eventRaw := (s.page p).eventRaw ||| 0x80000000 ||| (1#32 <<< 30) } := by
  unfold State.abandonLock
  dsimp only
  rw [State.page_event, State.page_error, if_pos rfl, State.page_setPage_same]
  rfl

theorem State.page_abandonLock_other {q : Nat} (h : q ≠ p) : (s.abandonLock p).page q = s.page q := by
  unfold State.abandonLock
  dsimp only
  rw [State.page_event_other _ _ _ h, State.page_error, if_neg h, State.page_setPage_other _ _ h]

theorem State.mem_abandonLock : (s.abandonLock p).mem = s.mem :=
  State.mem_of_inner (by simp [State.abandonLock])

/-- An error leaves the lock. -/
theorem PageHdr.take_lock (h : PageHdr) (code : Nat) (info : Word) : (h.take code info).lockHeld = h.lockHeld ∧
    (h.take code info).lockOwner = h.lockOwner ∧ (h.take code info).lockAbandoned = h.lockAbandoned ∧ (h.take code info).lockSeq = h.lockSeq := by
  unfold PageHdr.take
  split <;> exact ⟨rfl, rfl, rfl, rfl⟩

end

/-- Settles O15, operation by operation. -/
theorem lockOperations : Obligations.LockOperations := by
  intro s dt p w b h
  refine ⟨fun hc => ?_, fun hh hn => ?_, ?_⟩
  · have hw : ∀ v : Word, getBits v 2 0 ≤ 3 → (s.arriveBy dt w).regWrite p 0x28 w v = (b.lockOp p w (getBits v 2 0)).wrote p w := by
      intro v hv
      rw [State.regWrite_lockCtl hc (by omega), if_neg (by omega)]
    have hbreak : (s.arriveBy dt w).regWrite p 0x28 w 4 = if w ≠ 1 then b.undefinedEncoding p 0x28 0 else (b.lockBreak p).wrote p w := by
      rw [State.regWrite_lockCtl hc (by decide)]
      exact if_congr (and_iff_right (by decide)) rfl rfl
    have hacq : exec (.lockAcquire dt p w) s = .next ((b.lockAcquire p w).wrote p w) :=
      congrArg _ ((State.singleWrite_arrive s dt p 0x28 w 1).trans (hw 1 (by decide)))
    have hrel : exec (.lockRelease dt p w) s = .next ((b.lockRelease p w).wrote p w) :=
      congrArg _ ((State.singleWrite_arrive s dt p 0x28 w 2).trans (hw 2 (by decide)))
    have hrec : exec (.lockRecovered dt p w) s = .next ((b.lockRecovered p w).wrote p w) :=
      congrArg _ ((State.singleWrite_arrive s dt p 0x28 w 3).trans (hw 3 (by decide)))
    have hbrk : exec (.lockBreak dt p w) s = .next (if w ≠ 1 then b.undefinedEncoding p 0x28 0 else (b.lockBreak p).wrote p w) :=
      congrArg _ ((State.singleWrite_arrive s dt p 0x28 w 4).trans hbreak)
    refine ⟨fun hf => ?_, fun hh => ?_, fun hh ho => ?_, fun hn => ?_, fun hh ho ha h3 h4 => ?_, fun h1 hh ho => ?_, fun h1 hn => ?_,
      State.abandonOnce_held, fun h1 => ?_⟩
    · rw [hacq, State.lockAcquire, if_neg (by simp [hf, h])]
      rfl
    · rw [hacq, State.lockAcquire, if_pos hh]
    · rw [hrel, State.lockRelease, if_pos (by simp [hh, ho, h])]
    · rw [hrel, State.lockRelease, if_neg (by simpa using fun hl => hn.resolve_left (by simp [hl, h]))]
      rfl
    · rw [hrec, State.lockRecovered_owner hh ho ha h3 h4]
    · rw [hbrk, if_neg (by simp [h1]), State.lockBreak_owned _ _ hh ho]
    · rw [hbrk, if_neg (by simp [h1]), State.lockBreak_idle _ _ hn]
    · rw [hbrk, if_pos h1]
      rfl
  · have hx : exec (.lockAbandon dt p) s = .next ((s.arrive dt).abandonOnce p) := rfl
    rw [hx, State.abandonOnce_held hh hn]
    exact ⟨_, rfl, rfl, rfl, rfl, State.mem_abandonLock _ _, fun q hq => State.page_abandonLock_other _ _ hq⟩
  · intro t
    have hp : t.page p = _ := b.page_abandonLock p
    obtain ⟨h1, h2, h3, h4⟩ := (b.page p).abandoned.take_lock 0xA003 (word ((b.page p).abandoned.lockSeq * 2 ^ 8 + (b.page p).lockOwner))
    rw [hp]
    refine ⟨h1, h2, h3, h4, by simp, fun h0 => ?_⟩
    dsimp only
    rw [PageHdr.take_first (by exact h0)]
    exact ⟨rfl, rfl⟩

/-! ## Fields under a lock (R90, R91) -/

/-- What the bytes at the device's addresses depend on: the memories but for the combining buffers, the fuses, and the registers that place
the mailboxes' window. -/
def State.byteSource (s : State) : MemState × Fuses × Word × Word × Word :=
  ({ s.mem with combine := [] }, s.fuses, s.cell R.MBX_AREA_LO, s.cell R.MBX_AREA_HI, s.cell R.MBX_CFG)

theorem State.byteSource_of {s t : State} (hi : t.inner = s.inner) (hc : ∀ k ∈ [R.MBX_AREA_LO, R.MBX_AREA_HI, R.MBX_CFG], t.cell k = s.cell k) :
    t.byteSource = s.byteSource := by
  have hf : t.fuses = s.fuses := (congrArg State.fuses hi :)
  rw [State.byteSource, State.mem_of_inner hi, hf, hc R.MBX_AREA_LO (by decide), hc R.MBX_AREA_HI (by decide), hc R.MBX_CFG (by decide)]
  rfl

theorem State.sameBytes_of {s t : State} (h : t.byteSource = s.byteSource) : s.SameBytes t := by
  intro d
  have hd : t.mem.dram = s.mem.dram := (congrArg (·.1.dram) h :)
  have hce : t.mem.cellar = s.mem.cellar := (congrArg (·.1.cellar) h :)
  have hr : t.mem.result = s.mem.result := (congrArg (·.1.result) h :)
  have hl : t.mem.cellarLoss = s.mem.cellarLoss := (congrArg (·.1.cellarLoss) h :)
  have hb : t.mem.shardBase4M = s.mem.shardBase4M := (congrArg (·.1.shardBase4M) h :)
  have hg : t.mem.chGib = s.mem.chGib := (congrArg (·.1.chGib) h :)
  have hf : t.fuses = s.fuses := (congrArg (·.2.1) h :)
  have h1 : t.cell R.MBX_AREA_LO = s.cell R.MBX_AREA_LO := (congrArg (·.2.2.1) h :)
  have h2 : t.cell R.MBX_AREA_HI = s.cell R.MBX_AREA_HI := (congrArg (·.2.2.2.1) h :)
  have h3 : t.cell R.MBX_CFG = s.cell R.MBX_CFG := (congrArg (·.2.2.2.2) h :)
  have hu : t.chanU = s.chanU := by rw [State.chanU, hg, State.chanU]
  have hp : ∀ n, t.tilePresent n = s.tilePresent n := fun n => by rw [State.tilePresent, hf, State.tilePresent]
  have ha : t.areaOff d = s.areaOff d := by
    simp only [State.areaOff, State.fld, State.flag, F.MBX_AREA_LO_ADDR, F.MBX_AREA_HI_ADDR, F.MBX_CFG_AREA_EN, h1, h2, h3]
    rfl
  have hh : t.home d = s.home d := by
    simp only [State.home, ha, State.dramTop, State.shardSize, State.shardBase, State.windowHome, hb, hu, hp]
    rfl
  simp only [State.peekByte, hh, hd, hce, hr, hl]

theorem State.plainWrite_locked {s : State} {p off w : Nat} {v : Word} (hp : p ∈ plainPages) (ha : s.admits p off w v = true)
    (hl : s.lockedOut p off w = true) (ho : openFields p off = false) : s.plainWrite p off w v = s.error p 0xA004 (infoOffWriter off w) := by
  obtain ⟨hc, he⟩ := State.admits_iff.mp ha
  simp only [State.plainWrite, hc, he, hl, ho, plainPages_hasAcc_rws hp, Bool.false_and, Bool.false_eq_true, Bool.not_false, Bool.and_self,
    if_false, if_true]
  rfl

/-- A field of the whole register takes the value written. -/
theorem FieldDef.take_word (old v : Word) : (⟨31, 0, .rwl⟩ : FieldDef).take old v = v := by
  refine BitVec.eq_of_getLsbD_eq fun i hi => ?_
  rw [FieldDef.take, getLsbD_setBits_same _ _ _ (by decide) (by decide) (Nat.zero_le i) (by exact Nat.le_of_lt_succ hi),
    testBit_getBits_same v (Nat.zero_le i) (Nat.le_of_lt_succ hi)]

/-- Settles O16: the lock decides between the error alone and the field's value. -/
theorem lockProtectsFields : Obligations.LockProtectsFields := by
  intro s dt w v b h ha
  have hx : exec (.registerWrite dt 0x40050 4 [⟨w, v⟩] []) s = .next (b.plainWrite 0x040 0x50 w v) := by
    have hw := exec_registerWrite_word s dt 0x040 w v (off := 0x50) (by decide) (by decide)
    rwa [State.regWrite_plain _ _ _ (by decide) (by decide)] at hw
  have hf : regFields 0x040 0x50 = [⟨31, 0, .rwl⟩] := by decide
  have hl : b.lockedOut 0x040 0x50 w = !lockAdmits h w := by simp [State.lockedOut, hf, lockGuards, h]
  refine ⟨fun hb => ?_, fun hb => ?_⟩
  · have hl : b.lockedOut 0x040 0x50 w = true := by
      rw [hl]
      obtain ⟨hh, ho⟩ | ⟨hh, ho⟩ := hb <;> simp [lockAdmits, hh, ho]
    rw [hx, State.plainWrite_locked (by decide) ha hl (by decide)]
    rfl
  · have hl : b.lockedOut 0x040 0x50 w = false := by
      rw [hl]
      obtain ⟨hh, ho⟩ | ⟨hh, ho⟩ := hb <;> simp [lockAdmits, hh, ho]
    refine ⟨_, hx, ?_⟩
    rw [State.plainWrite_admitted (by decide) ha hl (by decide), hf, List.foldl_cons, List.foldl_nil, FieldDef.take_word]
    have hcell : ∀ k, ((b.setCell 0x40050 v).wrote 0x040 w).cell k = (b.setCell 0x40050 v).cell k := fun _ => rfl
    have hother : ∀ k, k ≠ 0x40050 → ((b.setCell 0x40050 v).wrote 0x040 w).cell k = b.cell k := fun k hk => by
      rw [hcell, State.cell_setCell_other _ _ hk]
    refine ⟨?_, ?_, fun k hk => hother k (by simpa using hk), fun p hp => ?_, 
      State.sameBytes_of (State.byteSource_of rfl fun k hk => hother k ?_)⟩
    · exact (hcell _).trans (State.cell_setCell_same _ _ _)
    · exact congrArg PageHdr.lastWriter (State.page_wrote_same _ _ _)
    · exact (State.page_wrote _ _ _ _).trans (if_neg (by simpa using hp))
    · fin_cases hk <;> decide

/-! ## Resources (R99, R101, R102) -/

section
variable (s : State) (w : Waiter)

/-- The state in which a waiter holds its resource and waits for it no more. -/
def State.taken : State :=
  { s with held := s.held ++ [(w.res, w.page)], waiters := s.waiters.filter (fun x => !(x.page == w.page && x.res == w.res)) }

/-- The conditions of a page that waits for nothing more. -/
def Waiter.resume (c : Cond) : Cond :=
  let c := { c with waiting := false }
  if w.preempted then c else if w.wants = St.armed then { c with armed := true } else { c with running := true }

theorem State.grantOne_eq : s.grantOne w
    = if (s.taken w).waiters.any (fun x => x.page == w.page) then s.taken w else (s.taken w).updCond w.page w.resume := rfl

theorem State.grantOne_inner : (s.grantOne w).inner = (s.taken w).inner := by
  rw [State.grantOne_eq]
  split_ifs <;> simp

theorem Waiter.resume_started (c : Cond) (h : w.preempted = false) :
    w.resume c = { c with waiting := false, armed := c.armed || w.wants == St.armed, running := c.running || w.wants != St.armed } := by
  by_cases hw : w.wants = St.armed <;> simp [Waiter.resume, h, hw]

/-- Ports and lanes alone do more once they have what they waited for. -/
theorem State.afterGrant_other {p : Nat} (h3 : pageType p ≠ 3) (h10 : pageType p ≠ 10) : s.afterGrant p = s := by
  simp [State.afterGrant, h3, h10]

end

/-- Settles O17. -/
theorem resourceGranted : Obligations.ResourceGranted := by
  intro s dt w a hn
  have hx : exec (.resourceGrant dt) s = .next ((a.grantOne w).afterGrant w.page) := by
    have hr : a.resourceGrant = (a.grantOne w).afterGrant w.page := by rw [State.resourceGrant, hn]
    rw [← hr]
    rfl
  have hi := a.grantOne_inner w
  have hwt : (a.grantOne w).waiters = (a.taken w).waiters := (congrArg State.waiters hi :)
  refine ⟨hx, hn, ⟨(congrArg State.held hi :), hwt, fun hy => ?_, fun hy hp => ?_⟩, fun h3 h10 => ?_⟩
  · rw [hwt] at hy
    rw [State.grantOne_eq, if_pos hy]
    rfl
  · rw [hwt] at hy
    rw [State.grantOne_eq, if_neg (by rw [hy]; decide), State.cond_updCond, Waiter.resume_started w _ hp]
    rfl
  · rw [hx, State.afterGrant_other _ h3 h10]

end Sys2Proof.Machine
end

section
/-! PROOFS. The Frame Scheduler's runs: START and STOP (R114 to R116, R120, R404). -/

namespace Sys2Proof.Machine

/-! ## FRM_CTL -/

section
variable {s : State} {w : Nat}

theorem State.writeFrmCtl_start (ha : s.admits 0x010 0x48 w 1 = true) :
    s.writeFrmCtl w 1 = if s.startBarred 1 then s.frmStart else s.frmStart.wrote 0x010 w := by
  rw [State.writeFrmCtl, State.onWrite_admitted ha]
  rfl

theorem State.writeFrmCtl_stop (ha : s.admits 0x010 0x48 w 2 = true) : s.writeFrmCtl w 2 = s.frmStop.wrote 0x010 w := by
  rw [State.writeFrmCtl, State.onWrite_admitted ha]
  rfl

theorem State.startBarred_one : s.startBarred 1 = (s.untested || s.pstate 0x010 != St.idle || s.saf.releasedAt == some s.cycles || !s.activeLoaded
    || (s.lockStops 0x010 && !s.flag F.FRM_MODE) || s.setCoreMax.startFault.isSome) := by
  rfl

/-- Where no condition applies STATE reads IDLE, and nowhere else. -/
theorem stateOf_idle {c : Cond} (h : stateOf c = St.idle) : c = {} := by
  obtain ⟨o, g, sf, fa, li, fr, ow, wa, dr, ru, ar⟩ := c
  revert h o g sf fa li fr ow wa dr ru ar
  decide

end

/-! ## The tiles that START enables (R404) -/

section
variable (s : State)

/-- One tile is enabled. -/
def State.tileOn (n : Nat) : State :=
  (s.updPage (tilePage n) (fun h => { h with enable := true })).updCond (tilePage n) (fun c => { c with off := false })

theorem State.enableTiles_eq : s.enableTiles = s.enabledTiles.foldl (fun (s : State) n => s.tileOn n) s := rfl

theorem tilePage_own {n : Nat} (h : n < 64) : statePage (tilePage n) = tilePage n ∧ instancePages (tilePage n) = [tilePage n] := by
  revert n
  decide

theorem State.tileOn_inner (n : Nat) : (s.tileOn n).inner = s.inner := by simp [State.tileOn]

/-- A tile that is enabled changes its own page alone. -/
theorem State.page_tileOn_other {n q : Nat} (h : n < 64) (hq : q ≠ tilePage n) : (s.tileOn n).page q = s.page q := by
  obtain ⟨hst, hin⟩ := tilePage_own h
  have h10 : statePage (tilePage n) ≠ 0x010 := by rw [hst, tilePage]; omega
  rw [State.tileOn, State.page_updCond _ _ (.inl h10), hst, State.page_setCond_other _ _ _ hq (by simp [hin, hq]), State.page_updPage, if_neg hq]

theorem State.page_tileOn {n : Nat} (h : n < 64) :
    ((s.tileOn n).page (tilePage n)).enable = true ∧ ((s.tileOn n).page (tilePage n)).cond.off = false := by
  have hc := (s.updPage (tilePage n) (fun h => { h with enable := true })).cond_updCond (fun c => { c with off := false }) (tilePage n)
  rw [(tilePage_own h).1] at hc
  refine ⟨?_, congrArg Cond.off hc⟩
  rw [State.tileOn, State.enable_updCond, State.page_updPage_same]

theorem State.foldl_tileOn (l : List Nat) (hl : ∀ n ∈ l, n < 64) (s : State) :
    (l.foldl (fun (s : State) n => s.tileOn n) s).inner = s.inner ∧
      (∀ q, (∀ n ∈ l, q ≠ tilePage n) → (l.foldl (fun (s : State) n => s.tileOn n) s).page q = s.page q) ∧
      ∀ n ∈ l, ((l.foldl (fun (s : State) n => s.tileOn n) s).page (tilePage n)).enable = true ∧
        ((l.foldl (fun (s : State) n => s.tileOn n) s).page (tilePage n)).cond.off = false := by
  induction l generalizing s with
  | nil => simp
  | cons m l ih =>
    obtain ⟨hi, ho, hp⟩ := ih (fun n hn => hl n (List.mem_cons_of_mem _ hn)) (s.tileOn m)
    have hm := hl m (List.mem_cons_self ..)
    rw [List.foldl_cons]
    refine ⟨hi.trans (s.tileOn_inner m), fun q hq => ?_, fun n hn => ?_⟩
    · rw [ho q fun n hn => hq n (List.mem_cons_of_mem _ hn), s.page_tileOn_other hm (hq m (List.mem_cons_self ..))]
    · by_cases hx : n ∈ l
      · exact hp n hx
      · have hnm : n = m := (List.mem_cons.mp hn).resolve_right hx
        rw [hnm, ho (tilePage m) fun k hk he => hx (by rw [hnm, Nat.add_left_cancel he]; exact hk)]
        exact s.page_tileOn hm

theorem State.enabledTiles_lt : ∀ n ∈ s.enabledTiles, n < 64 := by
  intro n hn
  exact List.mem_range.mp (List.mem_of_mem_filter hn)

theorem State.enableTiles_inner : s.enableTiles.inner = s.inner := (State.foldl_tileOn _ s.enabledTiles_lt s).1

theorem State.page_enableTiles_frm : s.enableTiles.page 0x010 = s.page 0x010 :=
  (State.foldl_tileOn _ s.enabledTiles_lt s).2.1 _ fun n _ => by rw [tilePage]; omega

theorem State.page_enableTiles {n : Nat} (h : n ∈ s.enabledTiles) :
    (s.enableTiles.page (tilePage n)).enable = true ∧ (s.enableTiles.page (tilePage n)).cond.off = false :=
  (State.foldl_tileOn _ s.enabledTiles_lt s).2.2 n h

end

/-! ## START (R114, R115) -/

section
variable (s : State)

theorem State.startSample_frm : s.startSample.frm.freeRun = s.flag F.FRM_MODE ∧ s.startSample.frm.phaseNs = s.fld F.FRM_TICK_PHASE_NS_PHASE ∧
    s.startSample.frm.beforeTick0 = true := ⟨rfl, rfl, rfl⟩

theorem State.startSample_page (p : Nat) : s.startSample.page p = s.page p := rfl
theorem State.startSample_enabledTiles : s.startSample.enabledTiles = s.enabledTiles := rfl
@[simp] theorem State.setCoreMax_page (p : Nat) : s.setCoreMax.page p = s.page p := rfl
@[simp] theorem State.setCoreMax_enabledTiles : s.setCoreMax.enabledTiles = s.enabledTiles := rfl

/-- A run whose resources nobody else claims has them, and its STATE. -/
theorem State.cond_acquire_free {p : Nat} {rs : List Nat} (wants : Nat) (h : s.blockedBy p rs = []) :
    ((s.acquire p rs wants).page (statePage p)).cond
      = if wants = St.armed then { (s.page (statePage p)).cond with armed := true } else { (s.page (statePage p)).cond with running := true } := by
  simp only [State.acquire, h, List.foldl_nil, if_true]
  rw [State.cond_updCond]
  rfl

end

/-! ## STOP (R116) -/

section
variable (s : State)

@[simp] theorem State.setJob_inner (ctx ring : Nat) (j : Option Job) : (s.setJob ctx ring j).inner = s.inner := rfl
@[simp] theorem State.setJob_hdr (ctx ring : Nat) (j : Option Job) : (s.setJob ctx ring j).hdr = s.hdr := rfl
@[simp] theorem State.bump_hdr (f : Field) : (s.bump f).hdr = s.hdr := rfl

@[simp] theorem State.writeStatus_inner (ctx : Nat) (j : Job) (st code crc : Nat) : (s.writeStatus ctx j st code crc).inner = s.inner := by
  unfold State.writeStatus
  split_ifs <;> rfl

@[simp] theorem State.writeStatus_hdr (ctx : Nat) (j : Job) (st code crc : Nat) : (s.writeStatus ctx j st code crc).hdr = s.hdr := by
  unfold State.writeStatus
  split_ifs <;> rfl

/-- A job's end is in the host interface's state and counters. -/
@[simp] theorem State.jobDone_inner (ctx ring : Nat) (j : Job) (code crc : Nat) : (s.jobDone ctx ring j code crc).inner = s.inner := by
  unfold State.jobDone
  split_ifs <;> simp only [State.setFld_inner, State.bump_inner, State.setJob_inner, State.writeStatus_inner]

@[simp] theorem State.jobDone_hdr (ctx ring : Nat) (j : Job) (code crc : Nat) : (s.jobDone ctx ring j code crc).hdr = s.hdr := by
  unfold State.jobDone
  split_ifs <;> simp only [State.setFld_hdr, State.bump_hdr, State.setJob_hdr, State.writeStatus_hdr]

theorem State.endWaiters_leaves (n code : Nat) :
    (s.endWaiters n code false).inner = s.inner ∧ (s.endWaiters n code false).hdr = s.hdr := by
  unfold State.endWaiters
  generalize s.allJobs.filter _ = l
  induction l generalizing s with
  | nil => exact ⟨rfl, rfl⟩
  | cons x l ih =>
    obtain ⟨hi, hh⟩ := ih (s.jobDone x.1 x.2.1 x.2.2 code 0)
    exact ⟨hi.trans (State.jobDone_inner ..), hh.trans (State.jobDone_hdr ..)⟩

@[simp] theorem State.setBank_hdr (b : Nat) (k : Bank) : (s.setBank b k).hdr = s.hdr := by
  unfold State.setBank
  split_ifs <;> rfl

@[simp] theorem State.freeFrameBanks_hdr (f : Frame) : (s.freeFrameBanks f).hdr = s.hdr := by
  cases hf : f.fineBank <;> cases hc : f.coarseBank <;> simp [State.freeFrameBanks, State.freeBank, hf, hc]

/-- What the end of ingest leaves. -/
theorem State.dropIngest_leaves : s.dropIngest.hdr = s.hdr ∧ s.dropIngest.frm = { s.frm with ingest := none } := by
  unfold State.dropIngest
  split
  · next h => exact ⟨rfl, by rw [← h]⟩
  · next f h =>
    refine ⟨s.freeFrameBanks_hdr f, ?_⟩
    have hf : ((s.freeFrameBanks f).dropPoints f.num).frm = s.frm := s.freeFrameBanks_frm f
    simp only [hf]

/-- The frames of a run once ingest has ended. -/
def Frm.ingestEnded (f : Frm) : Frm := { f with ingest := none, drainOpen := f.drainOpen && f.compute.isSome }

@[simp] theorem State.frm_updCond (p : Nat) (f : Cond → Cond) : (s.updCond p f).frm = s.frm := State.frm_of_inner (State.updCond_inner s p f)

/-- The frame in ingest is discarded, and the waiters of the Frame Scheduler's run with it. -/
def State.ingestDropped (s : State) : State :=
  let s := match s.frm.ingest with | some f => s.endWaiters f.num 0x3008 false | none => s
  let s := s.dropIngest
  let s := s.updFrm (fun f => { f with drainOpen := f.drainOpen && f.compute.isSome })
  { s with waiters := s.waiters.filter (fun x => x.page != 0x010) }

theorem State.ingestDropped_leaves : s.ingestDropped.hdr = s.hdr ∧
    s.ingestDropped.frm = s.frm.ingestEnded := by
  unfold State.ingestDropped
  extract_lets t u v
  have ht : t.inner = s.inner ∧ t.hdr = s.hdr := by
    unfold t
    split
    · exact State.endWaiters_leaves _ _ _
    · exact ⟨rfl, rfl⟩
  obtain ⟨hh, hf⟩ := t.dropIngest_leaves
  rw [State.frm_of_inner ht.1] at hf
  refine ⟨hh.trans ht.2, ?_⟩
  exact congrArg (fun f : Frm => { f with drainOpen := f.drainOpen && f.compute.isSome }) hf

theorem State.frmDrain_eq : s.frmDrain =
    let t := s.ingestDropped.updCond 0x010 (fun c => { c with running := false, armed := false, waiting := false, draining := true })
    if t.frm.compute.isSome || t.frm.closing.isSome then t else t.frmRest := rfl

end

section
variable {s : State}

/-- The conditions of a Frame Scheduler that drains, and of one that has drained and is enabled. -/
def Cond.toDrain (c : Cond) : Cond := { c with running := false, armed := false, waiting := false, draining := true }
def Cond.toRest (c : Cond) : Cond := { c with draining := false, running := false, armed := false, off := false }

theorem State.ingestDropped_page (s : State) (p : Nat) : s.ingestDropped.page p = s.page p := by
  rw [State.page, s.ingestDropped_leaves.1, State.page]

/-- A run without a frame that closes drains while one is in compute, and rests else. -/
theorem State.frmDrain_cases (he : (s.page 0x010).enable = true) (hcl : s.frm.closing = none) :
    s.frmDrain = if s.frm.compute.isSome then s.ingestDropped.updCond 0x010 Cond.toDrain
      else ((s.ingestDropped.updCond 0x010 Cond.toDrain).updCond 0x010 Cond.toRest).release 0x010 := by
  have hf : (s.ingestDropped.updCond 0x010 Cond.toDrain).frm = s.frm.ingestEnded := by
    rw [State.frm_updCond, s.ingestDropped_leaves.2]
  have hen : ((s.ingestDropped.updCond 0x010 Cond.toDrain).page 0x010).enable = true := by
    rw [State.enable_updCond, State.ingestDropped_page, he]
  have hw : ((s.ingestDropped.updCond 0x010 Cond.toDrain).frm.compute.isSome || (s.ingestDropped.updCond 0x010 Cond.toDrain).frm.closing.isSome)
      = s.frm.compute.isSome := by
    rw [hf, Frm.ingestEnded, hcl]
    exact Bool.or_false _
  have hr : (s.ingestDropped.updCond 0x010 Cond.toDrain).frmRest
      = ((s.ingestDropped.updCond 0x010 Cond.toDrain).updCond 0x010 Cond.toRest).release 0x010 := by
    rw [State.frmRest, hen]
    rfl
  rw [State.frmDrain_eq, ← hr, ← hw]
  rfl

theorem State.frmDrain_frm (he : (s.page 0x010).enable = true) (hcl : s.frm.closing = none) :
    s.frmDrain.frm = s.frm.ingestEnded := by
  have hrel : ∀ t : State, (t.release 0x010).frm = t.frm := fun _ => rfl
  rw [State.frmDrain_cases he hcl, ← s.ingestDropped_leaves.2]
  split_ifs
  · rw [State.frm_updCond]
  · rw [hrel, State.frm_updCond, State.frm_updCond]

theorem State.frmDrain_state (he : (s.page 0x010).enable = true) (hcl : s.frm.closing = none)
    (hc : (s.page 0x010).cond = { running := true } ∨ (s.page 0x010).cond = { armed := true }) :
    s.frmDrain.pstate 0x010 = (if s.frm.compute.isSome then St.draining else St.idle) ∧
      (s.frmDrain.page 0x010).prevState = (if s.frm.compute.isSome then stateOf (s.page 0x010).cond else St.draining) := by
  have h0 : (s.ingestDropped.page (statePage 0x010)).cond = (s.page 0x010).cond := congrArg PageHdr.cond (s.ingestDropped_page _)
  have h1 := s.ingestDropped.cond_updCond Cond.toDrain 0x010
  have hd := s.ingestDropped.prevState_updCond Cond.toDrain 0x010
  have hr := (s.ingestDropped.updCond 0x010 Cond.toDrain).prevState_updCond Cond.toRest 0x010
  rw [h1] at hr
  rw [State.frmDrain_cases he hcl]
  split_ifs
  · refine ⟨?_, hd.trans ?_⟩
    · rw [State.pstate_updCond, h0]
      obtain h | h := hc <;> rw [h] <;> rfl
    · rw [h0]
      obtain h | h := hc <;> rw [h] <;> rfl
  · rw [State.page_release]
    refine ⟨?_, hr.trans ?_⟩
    · have hrel : ∀ t : State, (t.release 0x010).pstate 0x010 = t.pstate 0x010 := fun _ => rfl
      rw [hrel, State.pstate_updCond, h1, h0]
      obtain h | h := hc <;> rw [h] <;> rfl
    · rw [h0]
      obtain h | h := hc <;> rw [h] <;> rfl

/-- START of an IDLE Frame Scheduler with a loaded slot that none of its checks refuses (R115). -/
theorem State.frmStart_runs (hu : s.untested = false) (hid : s.pstate 0x010 = St.idle) (hr : s.saf.releasedAt ≠ some s.cycles)
    (hk : (s.lockStops 0x010 && !s.flag F.FRM_MODE) = false) (hl : s.activeLoaded = true) (hf : s.setCoreMax.startFault = none) :
    let c := s.setCoreMax.startSample.enableTiles
    s.startBarred 1 = false ∧ s.frmStart = c.acquire 0x010 c.runResources (if c.frm.freeRun then St.armed else St.running) := by
  constructor
  · rw [State.startBarred_one]
    simp [hu, hid, hr, hk, hl, hf]
  · simp only [State.frmStart, hu, hid, hr, hk, hl, hf, Bool.false_eq_true, ne_eq, not_true, if_false, or_self, Bool.not_true]

/-- What the sampled run starts from: IDLE, with the registers of the write. -/
theorem State.startSample_leaves (s : State) :
    let c := s.setCoreMax.startSample.enableTiles
    c.page 0x010 = s.page 0x010 ∧ c.frm.freeRun = s.flag F.FRM_MODE ∧ c.frm.phaseNs = s.fld F.FRM_TICK_PHASE_NS_PHASE ∧
      c.frm.beforeTick0 = true := by
  intro c
  have hf : c.frm = s.setCoreMax.startSample.frm := State.frm_of_inner (State.enableTiles_inner _)
  have hm : s.setCoreMax.flag F.FRM_MODE = s.flag F.FRM_MODE := by
    rw [State.flag, State.setCoreMax, State.fld_setFld_other _ _ (by decide), State.flag]
  have hp : s.setCoreMax.fld F.FRM_TICK_PHASE_NS_PHASE = s.fld F.FRM_TICK_PHASE_NS_PHASE := State.fld_setFld_other _ _ (by decide)
  have hg : c.page 0x010 = s.page 0x010 := by
    rw [State.page_enableTiles_frm, State.startSample_page, State.setCoreMax_page]
  obtain ⟨h1, h2, h3⟩ := s.setCoreMax.startSample_frm
  exact ⟨hg, (congrArg Frm.freeRun hf).trans (h1.trans hm), (congrArg Frm.phaseNs hf).trans (h2.trans hp),
    (congrArg Frm.beforeTick0 hf).trans h3⟩

end

/-- Settles O18. -/
theorem runStartsAndStops : Obligations.RunStartsAndStops := by
  intro s dt w b
  have hst : exec (.frmStart dt w) s = .next (b.writeFrmCtl w 1) := rfl
  have hsp : exec (.frmStop dt w) s = .next (b.writeFrmCtl w 2) := rfl
  refine ⟨fun ha hu hid hrel hlk => ?_, fun ha hu hn => ?_, fun ha => ⟨fun hc he hcl => ?_, fun hc => ?_⟩⟩
  · have hk : (b.lockStops 0x010 && !b.flag F.FRM_MODE) = false := by obtain h | h := hlk <;> simp [h]
    refine ⟨fun hl => ?_, fun hl hf => ?_⟩
    · have hb : b.startBarred 1 = true := by
        rw [State.startBarred_one]
        simp [hl]
      rw [hst, State.writeFrmCtl_start ha, if_pos hb]
      simp only [State.frmStart, hu, hid, hrel, hk, hl, Bool.false_eq_true, ne_eq, not_true, if_false, or_self, Bool.not_false, if_true]
      rfl
    · intro c
      obtain ⟨hb, hc⟩ := State.frmStart_runs hu hid hrel hk hl hf
      obtain ⟨hp, hfr, hph, hb0⟩ := b.startSample_leaves
      have hx : exec (.frmStart dt w) s
          = .next ((c.acquire 0x010 c.runResources (if c.frm.freeRun then St.armed else St.running)).wrote 0x010 w) := by
        rw [hst, State.writeFrmCtl_start ha, if_neg (by rw [hb]; decide), hc]
      refine ⟨hx, hfr, hph, hb0, fun n hn => ?_, fun hbl => ⟨_, hx, ?_, ?_⟩⟩
      · refine State.page_enableTiles b.setCoreMax.startSample ?_
        rwa [State.startSample_enabledTiles, State.setCoreMax_enabledTiles]
      · have hcond : (c.page (statePage 0x010)).cond = {} := (congrArg PageHdr.cond hp).trans (stateOf_idle hid)
        rw [State.pstate_wrote, State.pstate, State.cond_acquire_free _ _ hbl, hcond, hfr]
        cases b.flag F.FRM_MODE <;> rfl
      · rw [State.page_wrote_same]
  · have hb : b.startBarred 1 = true := by
      rw [State.startBarred_one]
      obtain h | ⟨h1, h2⟩ := hn
      · simp [h]
      · simp [h1, h2]
    have hs : b.frmStart = b := by
      rw [State.frmStart, if_neg (by rw [hu]; decide)]
      obtain h | ⟨h1, h2⟩ := hn
      · rw [if_pos (.inl h)]
      · have hk : (b.lockStops 0x010 && !b.flag F.FRM_MODE) = true := by rw [h1, h2]; rfl
        rw [if_pos hk, ite_self]
    rw [hst, State.writeFrmCtl_start ha, if_pos hb, hs]
  · have hx : exec (.frmStop dt w) s = .next (b.frmDrain.wrote 0x010 w) := by
      rw [hsp, State.writeFrmCtl_stop ha, State.frmStop, if_pos]
      obtain h | h := hc <;> rw [h] <;> rfl
    have hfr := State.frmDrain_frm he hcl
    have hwr : (b.frmDrain.wrote 0x010 w).frm = b.frmDrain.frm := rfl
    obtain ⟨hst, hpv⟩ := State.frmDrain_state he hcl hc
    refine ⟨_, hx, ?_, ?_, ?_, ?_, ?_, ?_, ?_⟩
    · rw [hwr, hfr]; rfl
    · rw [hwr, hfr]; rfl
    · rw [hwr, hfr]; rfl
    · rw [hwr, hfr]; rfl
    · rw [State.page_wrote_same]
    · rw [State.page_wrote_same, hpv]
    · rw [State.pstate_wrote, hst]
  · have hs : b.frmStop = b := by
      rw [State.frmStop, if_neg (by rw [hc]; decide)]
    rw [hsp, State.writeFrmCtl_stop ha, hs]

end Sys2Proof.Machine
end

section
/-! PROOFS. A plan's slots (R130 to R135, R160). -/

namespace Sys2Proof.Machine

/-- A part out of the safe state with a plan in the active slot, a frame in compute, an uncorrectable error that no read has met in the
plan's first line, and the cause that such an error latches escalated to class C. -/
def plannedWithUpset : State :=
  { (State.reset.setFld (planSlotState 0) 2).setFld ⟨R.PSV_SAF_ESCALATE, Cause.memUe, Cause.memUe⟩ 1 with
    saf := { inSafe := false }
    frm := { planA := { addr := 0x1000, hdr := { totalSize := 64 } }, compute := some {} }
    mem := { upsets := [⟨false, physLine (ilvChannel 0x1000) (dataLine (ilvAddr 0x1000)), true⟩] } }

theorem plannedWithUpset_loaded :
    (plannedWithUpset.arrive 0).fld (planSlotState 0) = 2 ∧ ((plannedWithUpset.arrive 0).planCorrupt 0).1 = true ∧
      0 = (plannedWithUpset.arrive 0).fld F.FRM_PLAN_STATUS_ACTIVE_SLOT ∧ (plannedWithUpset.arrive 0).frm.compute.isSome = true := by
  decide +kernel

/-- The read that checks the CRC meets the error: the device enters the safe state, and no frame is left in compute. -/
theorem plannedWithUpset_recheck_drops : ((plannedWithUpset.arrive 0).planRecheck 0).frm.compute = none := by
  decide +kernel

/-- Refutes O19: the last clause, of PLAN_RECHECK while a frame is in compute. Where the read that checks the CRC is itself what finds the plan
unreadable, and its uncorrectable error is of class C, the safe state drops the frame before the mismatch is judged, and no frame is
left to finish: FAULT comes at once. -/
theorem not_planSlots : ¬ Obligations.PlanSlots := by
  rintro ⟨-, -, h⟩
  obtain ⟨hl, hc, ha, hs⟩ := plannedWithUpset_loaded
  obtain ⟨-, -, hre⟩ := h plannedWithUpset 0 0 (by decide)
  obtain ⟨-, -, -, hbusy⟩ := hre hl
  obtain ⟨t, ht, -, -, -, hf⟩ := hbusy hc ha hs
  have hx : exec (.planRecheck 0 0) plannedWithUpset = .next ((plannedWithUpset.arrive 0).planRecheck 0) := rfl
  rw [hx, Host.Outcome.next.injEq] at ht
  rw [← ht, plannedWithUpset_recheck_drops] at hf
  rw [← hf] at hs
  exact absurd hs (by decide)

end Sys2Proof.Machine
end

section
/-! PROOFS. SOFT_RESET (R72, R95, R110). -/

namespace Sys2Proof.Machine

/-- The request in service at Harvest: one row, whose header lies in this node's own part of the global address space. -/
def loopedRun : HrvRun :=
  { req := { tile := false, id := 0, stage := 0, desc := 0 }, op := 0, code := 0, rejected := true, rows := [⟨2 ^ 47, 0, []⟩] }

/-- A part whose start-up is complete and that has a sentry window open (phase 1) while PWR_STATE reads full power. Harvest has a rejected request,
whose header it writes by loopback through export window 0 to DRAM address 0, where an uncorrectable error lies that no read has met;
the cause of such an error is escalated to class C. -/
def loopedReset : State :=
  { ((((State.reset.setCell R.GLB_BOOT_STATUS 0x1EF).setFld (F.GRF_EXPORT_LO_ENABLE 0) 1).setFld (F.GRF_EXPORT_LO_WRITE 0) 1).setFld
      ⟨R.PSV_SAF_ESCALATE, Cause.memUe, Cause.memUe⟩ 1) with
    hdr := []
    saf := { inSafe := false }
    hrv := { service := some loopedRun }
    mem := { upsets := [⟨false, physLine 0 (dataLine 0), true⟩] }
    pwr := { phase := 1 } }

theorem loopedReset_admitted :
    let b := loopedReset.arriveBy 0 0x40
    let v := ctrlValue (b.page 0x050).enable true (b.page 0x050).freeze
    b.admits 0x050 0x08 0x40 v = true ∧ b.ctrlRule 0x050 0x40 v = none ∧ (b.page 0x050).softReset = false := by
  decide +kernel

/-- The error takes the device into the safe state, which ends the window, and what the fabric held is lost: SOFT_RESET among it. -/
theorem loopedReset_lost : (((loopedReset.arriveBy 0 0x40).softReset 0x050).page 0x050).softReset = false := by
  decide +kernel

/-- Refutes O7: the clause on the header of the HRV page. Harvest's own reset writes the headers of the rows that it ends; where such a write
comes back through an export window and meets an uncorrectable error of class C while a sentry window is open, the safe state
that it enters clears the fabric's pages, the page in reset with them. -/
theorem not_softResetOfAnInstance : ¬ Obligations.SoftResetOfAnInstance := by
  intro h
  obtain ⟨hx, hp, -⟩ := h loopedReset 0 0x050 0x40
  have hc : hasCtrl 0x050 = true := by decide
  have hl := loopedReset_lost
  have had := loopedReset_admitted
  generalize loopedReset.arriveBy 0 0x40 = b at hx hp hl had
  obtain ⟨ha, hr, hs⟩ := had
  obtain ⟨t, ht, hsr, -⟩ := hp rfl ha hr hs
  rw [hx hc ha hr, Host.Outcome.next.injEq] at ht
  rw [← ht, State.page_wrote_same, hl] at hsr
  exact absurd hsr (by decide)

end Sys2Proof.Machine
end

section
/-! PROOFS. Stages are dispatched and complete (R74, R140, R378 to R381, R394). -/

namespace Sys2Proof.Machine

/-! ## What a stage finds and takes -/

section
variable (s : State)

theorem State.holdHarvest_leaves (r : RunStage) : (s.holdHarvest r).frm = s.frm ∧ (s.holdHarvest r).mem = s.mem := by
  unfold State.holdHarvest
  split_ifs
  · rw [State.event_frm, State.event_mem]
    exact ⟨rfl, rfl⟩
  · exact ⟨rfl, rfl⟩

theorem State.foldl_holdHarvest_leaves (l : List RunStage) :
    (l.foldl (fun (s : State) r => s.holdHarvest r) s).frm = s.frm ∧ (l.foldl (fun (s : State) r => s.holdHarvest r) s).mem = s.mem :=
  ⟨foldl_leaves State.frm (fun s r => (s.holdHarvest_leaves r).1) l s, foldl_leaves State.mem (fun s r => (s.holdHarvest_leaves r).2) l s⟩

/-- One tile is taken by a stage. -/
def State.holdTile (r : RunStage) (t : Nat) : State :=
  ((s.updTile t (fun x => { x with
    heldBy := r.stage + 1, item := 0, prologueDone := false, inPrologue := false, nextOp := 0, fenced := false, inflight := [],
    freedAt := s.cycles })).setFld (F.TILE_STATUS_STAGE t) r.stage).updCond (tilePage t) (fun c => { c with running := true })

theorem State.holdTiles_eq (r : RunStage) : s.holdTiles r = r.tiles.foldl (fun (s : State) t => s.holdTile r t) s := rfl

@[simp] theorem State.updTile_mem (t : Nat) (f : Tile → Tile) : (s.updTile t f).mem = s.mem := rfl

theorem State.holdTile_leaves (r : RunStage) (t : Nat) : (s.holdTile r t).frm = s.frm ∧ (s.holdTile r t).mem = s.mem := by
  rw [State.holdTile, State.frm_updCond, State.mem_updCond, State.setFld_frm, State.setFld_mem, State.updTile_frm, State.updTile_mem]
  exact ⟨rfl, rfl⟩

theorem State.tile_updTile (t u : Nat) (f : Tile → Tile) : (s.updTile t f).tile u = if u = t then f (s.tile t) else s.tile u := by
  simp only [State.tile, State.updTile, State.setTile, Sparse.get_set]

theorem State.tile_updCond (p u : Nat) (f : Cond → Cond) : (s.updCond p f).tile u = s.tile u := by
  have h : (s.updCond p f).tiles = s.tiles := (congrArg State.tiles (State.updCond_inner s p f) :)
  rw [State.tile, h, State.tile]

theorem State.heldBy_holdTile (r : RunStage) (t u : Nat) :
    ((s.holdTile r t).tile u).heldBy = if u = t then r.stage + 1 else (s.tile u).heldBy := by
  have hf : ∀ (x : State) (f : Field) (v : Nat), (x.setFld f v).tile u = x.tile u := fun _ _ _ => rfl
  rw [State.holdTile, State.tile_updCond, hf, State.tile_updTile]
  split_ifs <;> rfl

/-- A stage's tiles are its own, the frames and the memory as before. -/
theorem State.holdTiles_leaves (r : RunStage) : (s.holdTiles r).frm = s.frm ∧ (s.holdTiles r).mem = s.mem :=
  ⟨foldl_leaves State.frm (fun s t => (s.holdTile_leaves r t).1) r.tiles s, foldl_leaves State.mem (fun s t => (s.holdTile_leaves r t).2) r.tiles s⟩

theorem State.heldBy_foldl_holdTile (r : RunStage) (l : List Nat) (s : State) (u : Nat) :
    ((l.foldl (fun (s : State) t => s.holdTile r t) s).tile u).heldBy = if u ∈ l then r.stage + 1 else (s.tile u).heldBy := by
  induction l generalizing s with
  | nil => rfl
  | cons t l ih =>
    rw [List.foldl_cons, ih, State.heldBy_holdTile]
    by_cases hl : u ∈ l <;> simp [hl]

/-- A tile program joins the running stages and takes its tiles; nothing is read for it yet. -/
theorem State.startStage_program {r : RunStage} (h : r.kind = 0) :
    s.startStage r = (s.updFrm (fun f => { f with running := f.running ++ [r] })).holdTiles r := by
  simp [State.startStage, h]

end

/-! ## STAGE_DISPATCH and STAGE_COMPLETE -/

section
variable {s : State} {f : Frame} {x : Nat × StageRec} {r : RunStage}

/-- What R140 asks of a stage before its units. -/
theorem State.ready_iff : s.ready f x = true ↔ bitOf x.2.levels f.level = true ∧ f.stageDone x.1 = false ∧ s.runStage x.1 = none ∧
    ∀ d ∈ x.2.deps, f.stageDone d = true := by
  simp [State.ready, and_assoc]

/-- What a stage that can start finds: free tiles that may work, DRAM shares to spare and Harvest to itself. -/
theorem State.canStart_sound (h : s.canStart r = true) : (∀ t ∈ r.tiles, s.tileFree t = true ∧ s.mayWork (tilePage t) = true) ∧
    s.frm.running.foldl (fun n x => n + x.share) r.share ≤ 16 ∧ (s.usesHrv r = true → ∀ x ∈ s.frm.running, s.usesHrv x = false) := by
  simp only [State.canStart, State.canReach, Bool.and_eq_true, List.all_eq_true, Nat.ble_eq] at h
  obtain ⟨⟨⟨⟨⟨ht, -⟩, hd⟩, hh⟩, -⟩, -⟩ := h
  refine ⟨ht, hd, fun hu => ?_⟩
  simpa [hu] using hh

end

/-- Settles O25. -/
theorem stagesRun : Obligations.StagesRun := by
  intro s dt f a hf
  refine ⟨fun hc ht => ?_, fun n r hr => ?_⟩
  · intro l h
    obtain ⟨hfrm, hmem⟩ := a.foldl_holdHarvest_leaves l
    have hx : exec (.stageDispatch dt) s = .next (match l.find? (fun r => h.canStart r && !h.anyGated r) with
      | some r => h.startStage r
      | none => match l.find? h.canStart with
        | some r => r.tiles.foldl (fun (s : State) t => s.wakeTile t) h
        | none => h) := by
      have hd : exec (.stageDispatch dt) s = .next a.stageDispatch := rfl
      rw [hd, State.stageDispatch, hf]
      dsimp only
      have hgo : ¬(f.committed = false ∨ f.truncated = true) := by simp [hc, ht]
      exact congrArg Host.Outcome.next (if_neg hgo)
    refine ⟨fun r hr => ?_, fun r hn hr => ?_⟩
    · have hgo : (h.canStart r && !h.anyGated r) = true := List.find?_some (p := fun r => h.canStart r && !h.anyGated r) hr
      have hcan := (Bool.and_eq_true_iff.mp hgo).1
      obtain ⟨x, hm, he⟩ := List.mem_map.mp (List.mem_of_find?_eq_some hr)
      obtain ⟨hxm, hready⟩ := List.mem_filter.mp hm
      obtain ⟨htiles, hshare, hhrv⟩ := State.canStart_sound hcan
      refine ⟨by rw [hx, hr], ⟨x, hxm, he.symm, State.ready_iff.mp hready⟩, htiles, hshare, hhrv, fun hk => ?_⟩
      rw [State.startStage_program h hk]
      obtain ⟨hf', hm'⟩ := (h.updFrm (fun f => { f with running := f.running ++ [r] })).holdTiles_leaves r
      refine ⟨?_, fun t ht => ?_, hm'.trans hmem⟩
      · rw [hf', ← hfrm]
        rfl
      · rw [State.holdTiles_eq, State.heldBy_foldl_holdTile, if_pos ht]
    · rw [hx, hn, hr]
  · have hd : exec (.stageComplete dt n) s
        = .next (if a.stageFinished r then (a.endStage r (a.stageResult r)).dropAcks (.stage n) else a) := by
      have hd : exec (.stageComplete dt n) s = .next (a.stageComplete n) := rfl
      rw [hd, State.stageComplete, hr]
    rw [hd]
    exact ⟨fun h => by rw [if_pos h]; rfl, fun h => by rw [if_neg (by rw [h]; decide)]⟩

end Sys2Proof.Machine
end

section
/-! PROOFS. The registers that events, changes of STATE and errors reach, and what a read that meets no error leaves (R413, R427, R533). -/

namespace Sys2Proof.Machine

/-! ## Registers -/

section
variable (s : State)

theorem State.cell_eventAll (ps : List Nat) (b : Nat) {k : Nat} (hk : k ≠ R.HIF_MSIX_PBA) : (s.eventAll ps b).cell k = s.cell k :=
  foldl_leaves (fun s => s.cell k) (fun s p => s.cell_event p b hk) ps s

theorem State.cell_setCond (q : Nat) (f : Cond → Cond) {k : Nat} (hk : k ≠ R.HIF_MSIX_PBA) : (s.setCond q f).cell k = s.cell k := by
  unfold State.setCond
  dsimp only
  split_ifs
  · rfl
  · exact State.cell_eventAll _ _ _ hk

/-- A change of conditions reaches no register but the pending bits of the vectors. -/
theorem State.cell_updCond (p : Nat) (f : Cond → Cond) {k : Nat} (hk : k ≠ R.HIF_MSIX_PBA) : (s.updCond p f).cell k = s.cell k := by
  by_cases h : statePage p = 0x010
  · rw [s.updCond_frm f h, State.sepFollow_eq, State.cell_setCond _ _ _ hk, State.cell_setCond _ _ _ hk]
  · rw [s.updCond_other f h, State.cell_setCond _ _ _ hk]

theorem State.cell_bump (f : Field) {k : Nat} (hk : k ≠ f.reg) : (s.bump f).cell k = s.cell k := State.cell_setFld_other _ _ hk

/-- An error reaches the pending bits of the vectors and, where the log is full, the count of its losses. -/
theorem State.cell_error (p code : Nat) (info : Word) {k : Nat} (hk : k ≠ R.HIF_MSIX_PBA) (hl : k ≠ F.RST_RING_LOST_CNT.reg) :
    (s.error p code info).cell k = s.cell k := by
  obtain ⟨t, he, -, hc⟩ := s.error_logged p code info
  rw [he, ← hc k hk, State.logged]
  split_ifs
  · exact State.cell_bump _ _ hl
  · rfl

theorem State.fld_event (p b : Nat) {f : Field} (h : f.reg ≠ R.HIF_MSIX_PBA) : (s.event p b).fld f = s.fld f := by
  rw [State.fld, State.cell_event _ _ _ h, State.fld]

theorem State.fld_updCond (p : Nat) (c : Cond → Cond) {f : Field} (h : f.reg ≠ R.HIF_MSIX_PBA) : (s.updCond p c).fld f = s.fld f := by
  rw [State.fld, State.cell_updCond _ _ _ h, State.fld]

theorem State.fld_wrote (p w : Nat) (f : Field) : (s.wrote p w).fld f = s.fld f := rfl

end

/-! ## Events stay once they are set -/

section
variable (s : State) {r b : Nat}

theorem State.eventRaw_setCond (q : Nat) (f : Cond → Cond) (h : (s.page r).eventRaw.getLsbD b = true) :
    ((s.setCond q f).page r).eventRaw.getLsbD b = true := by
  rw [State.page_setCond]
  dsimp only
  by_cases hr : r = q
  · subst hr
    split_ifs <;> simp [PageHdr.stateChange, PageHdr.moved, h]
  · split_ifs <;> simp [PageHdr.stateChange, h]

/-- A change of conditions clears no event. -/
theorem State.eventRaw_updCond (p : Nat) (f : Cond → Cond) (h : (s.page r).eventRaw.getLsbD b = true) :
    ((s.updCond p f).page r).eventRaw.getLsbD b = true := by
  by_cases hp : statePage p = 0x010
  · rw [s.updCond_frm f hp, State.sepFollow_eq]
    exact State.eventRaw_setCond _ _ _ (s.eventRaw_setCond _ _ h)
  · rw [s.updCond_other f hp]
    exact s.eventRaw_setCond _ _ h

end

/-! ## The bytes, and what leaves them -/

section
variable (s : State)

@[simp] theorem State.byteSource_event (p b : Nat) : (s.event p b).byteSource = s.byteSource :=
  State.byteSource_of (State.event_inner s p b) fun k hk => s.cell_event p b (by revert k; decide)

@[simp] theorem State.byteSource_updCond (p : Nat) (f : Cond → Cond) : (s.updCond p f).byteSource = s.byteSource :=
  State.byteSource_of (State.updCond_inner s p f) fun k hk => s.cell_updCond p f (by revert k; decide)

@[simp] theorem State.byteSource_error (p code : Nat) (info : Word) : (s.error p code info).byteSource = s.byteSource :=
  State.byteSource_of (State.error_inner s p code info) fun k hk => s.cell_error p code info (by revert k; decide) (by revert k; decide)

theorem State.byteSource_setFld (f : Field) (v : Nat) (h : f.reg ∉ [R.MBX_AREA_LO, R.MBX_AREA_HI, R.MBX_CFG]) :
    (s.setFld f v).byteSource = s.byteSource :=
  State.byteSource_of rfl fun _ hk => State.cell_setFld_other _ _ fun he => h (he ▸ hk)

@[simp] theorem State.byteSource_wrote (p w : Nat) : (s.wrote p w).byteSource = s.byteSource := rfl
@[simp] theorem State.byteSource_updEtu (f : Etu → Etu) : (s.updEtu f).byteSource = s.byteSource := rfl
@[simp] theorem State.byteSource_updGrf (f : Grf → Grf) : (s.updGrf f).byteSource = s.byteSource := rfl

end

/-! ## Reads that meet no error (R413, R427, R533 to R535) -/

section
variable {s t : State}

/-- What a read that meets no error leaves: the bytes, the ETU and what errors lie in wait. -/
def State.readSource (s : State) : (MemState × Fuses × Word × Word × Word) × Etu × Saf := (s.byteSource, s.etu, s.saf)

theorem State.readsClean_of (h : t.readSource = s.readSource) : t.readsClean = s.readsClean := by
  have hs : t.saf = s.saf := (congrArg (·.2.2) h :)
  have hu : t.mem.upsets = s.mem.upsets := (congrArg (·.1.1.upsets) h :)
  rw [State.readsClean, hs, hu, State.readsClean]

theorem State.flushRange_readSource (s : State) (d n : Nat) : (s.flushRange d n).readSource = s.readSource := by
  unfold State.flushRange
  split_ifs
  · rfl
  · refine foldl_leaves State.readSource (fun s i => ?_) _ s
    split <;> rfl

theorem State.localFetch_clean (h : s.readsClean = true) (d n : Nat) : (s.localFetch d n).2.readSource = s.readSource := by
  rw [State.localFetch, State.readUnits, if_pos h]
  exact s.flushRange_readSource d n

theorem State.denied_readSource (s : State) : s.denied.readSource = s.readSource := by
  have hi : s.denied.inner = s.inner := by simp [State.denied]
  have hb : s.denied.byteSource = s.byteSource := by
    rw [State.denied, State.byteSource_event, State.byteSource_error]
    exact s.byteSource_setFld _ _ (by decide)
  have he : s.denied.etu = s.etu := (congrArg State.etu hi :)
  have hs : s.denied.saf = s.saf := (congrArg State.saf hi :)
  rw [State.readSource, hb, he, hs, State.readSource]

theorem State.fetchPiece_clean {r : Bool × State} (h : r.2.readsClean = true) (x : Nat × Nat) :
    (State.fetchPiece r x).2.readSource = r.2.readSource := by
  unfold State.fetchPiece
  dsimp only
  split_ifs
  · exact State.localFetch_clean h _ _
  · rfl
  · split
    · exact State.localFetch_clean h _ _
    · exact r.2.denied_readSource
  · rfl
  · rfl

theorem State.fetchPieces_clean (l : List (Nat × Nat)) (r : Bool × State) (h : r.2.readsClean = true) :
    (l.foldl State.fetchPiece r).2.readSource = r.2.readSource := by
  induction l generalizing r with
  | nil => rfl
  | cons x l ih =>
    have hx := State.fetchPiece_clean h x
    rw [List.foldl_cons, ih _ (by rw [State.readsClean_of hx, h]), hx]

/-- A read where no error lies in wait leaves the bytes, the ETU and the safe state. -/
theorem State.fetch_clean (h : s.readsClean = true) (d n : Nat) : (s.fetch d n).2.readSource = s.readSource := by
  have hl := State.localFetch_clean h d (min n (0x800000000000 - d))
  unfold State.fetch
  dsimp only
  split_ifs
  · exact hl
  · rw [State.fetchPieces_clean _ _ (by rw [State.readsClean_of hl, h]), hl]

end

end Sys2Proof.Machine
end

section
/-! PROOFS. Table commands of the embedding unit (R106, R458, R484, R489, R492, R495 to R498, R506). -/

namespace Sys2Proof.Machine

/-! ## How a command begins, is rejected and ends -/

section
variable (s : State)

@[simp] theorem State.wrote_etu (p w : Nat) : (s.wrote p w).etu = s.etu := rfl
theorem State.fld_updEtu (g : Etu → Etu) (f : Field) : (s.updEtu g).fld f = s.fld f := rfl
theorem State.etu_event (p b : Nat) : (s.event p b).etu = s.etu := (congrArg State.etu (State.event_inner s p b) :)
theorem State.etu_updCond (p : Nat) (f : Cond → Cond) : (s.updCond p f).etu = s.etu := (congrArg State.etu (State.updCond_inner s p f) :)

/-- What a command that is rejected shows (R106): the command and its code, both events, and nothing else. -/
theorem State.etuCmdReject_spec {op t : Nat} (code w : Nat) (ho : op < 16) (ht : t < 256) :
    let u := (s.etuCmdReject op t code).wrote 0x0D1 w
    u.fld F.ETU_CMD_RESULT_CODE = code % 2 ^ 16 ∧ u.etu = s.etu ∧ u.byteSource = s.byteSource ∧ u.fld F.ETU_CMD_STATUS_OP = op ∧
      u.fld F.ETU_CMD_STATUS_TABLE = t ∧ (u.page 0x0D1).eventRaw.getLsbD 0 = true ∧ (u.page 0x0D1).eventRaw.getLsbD 1 = true ∧
      (u.page 0x0D1).lastWriter = w := by
  intro u
  have hfld : ∀ f : Field, f.reg ≠ R.HIF_MSIX_PBA → u.fld f
      = (((s.setFld F.ETU_CMD_STATUS_OP op).setFld F.ETU_CMD_STATUS_TABLE t).setFld F.ETU_CMD_RESULT_CODE code).fld f := fun f hf => by
    rw [State.fld_wrote, State.etuCmdReject, State.fld_event _ _ _ hf, State.fld_event _ _ _ hf]
  refine ⟨?_, ?_, ?_, ?_, ?_, ?_, ?_, ?_⟩
  · rw [hfld _ (by decide), State.fld_setFld_same _ _ _ (by decide) (by decide)]
    rfl
  · rw [State.wrote_etu, State.etuCmdReject, State.etu_event, State.etu_event]
    simp only [State.setFld_etu]
  · rw [State.byteSource_wrote, State.etuCmdReject, State.byteSource_event, State.byteSource_event, State.byteSource_setFld _ _ _ (by decide),
      State.byteSource_setFld _ _ _ (by decide), State.byteSource_setFld _ _ _ (by decide)]
  · rw [hfld _ (by decide), State.fld_setFld_other _ _ (by decide), State.fld_setFld_apart _ _ (by decide) (by decide) (by decide),
      State.fld_setFld_same _ _ _ (by decide) (by decide)]
    exact Nat.mod_eq_of_lt ho
  · rw [hfld _ (by decide), State.fld_setFld_other _ _ (by decide), State.fld_setFld_same _ _ _ (by decide) (by decide)]
    exact Nat.mod_eq_of_lt ht
  · rw [State.page_wrote_same, State.etuCmdReject, State.page_event, State.page_event]
    simp
  · rw [State.page_wrote_same, State.etuCmdReject, State.page_event]
    simp
  · rw [State.page_wrote_same]

/-- What a command that begins shows: CMD_STATUS, and the command itself. -/
theorem State.etuCmdBegin_spec {c : EtuCmd} (w : Nat) (ho : c.op < 16) (ht : c.table < 256) :
    let u := (s.etuCmdBegin c).wrote 0x0D1 w
    u.etu = { s.etu with cmd := some c } ∧ u.byteSource = s.byteSource ∧ u.fld F.ETU_CMD_STATUS_TABLE = c.table ∧
      u.fld F.ETU_CMD_STATUS_OP = c.op ∧ (u.page 0x0D1).lastWriter = w := by
  intro u
  have hfld : ∀ f : Field, f.reg ≠ R.HIF_MSIX_PBA → u.fld f
      = ((s.setFld F.ETU_CMD_STATUS_OP c.op).setFld F.ETU_CMD_STATUS_TABLE c.table).fld f := fun f hf => by
    rw [State.fld_wrote, State.etuCmdBegin, State.etuState, State.fld_updCond _ _ _ hf, State.fld_updEtu]
  refine ⟨?_, ?_, ?_, ?_, ?_⟩
  · rw [State.wrote_etu, State.etuCmdBegin, State.etuState, State.etu_updCond, State.updEtu_etu, State.setFld_etu, State.setFld_etu]
  · rw [State.byteSource_wrote, State.etuCmdBegin, State.etuState, State.byteSource_updCond, State.byteSource_updEtu,
      State.byteSource_setFld _ _ _ (by decide), State.byteSource_setFld _ _ _ (by decide)]
  · rw [hfld _ (by decide), State.fld_setFld_same _ _ _ (by decide) (by decide)]
    exact Nat.mod_eq_of_lt ht
  · rw [hfld _ (by decide), State.fld_setFld_apart _ _ (by decide) (by decide) (by decide), State.fld_setFld_same _ _ _ (by decide) (by decide)]
    exact Nat.mod_eq_of_lt ho
  · rw [State.page_wrote_same]

/-- What the end of a command shows: its code in CMD_RESULT and its event. -/
theorem State.etuCmdEnd_spec (code : Nat) :
    let u := s.etuCmdEnd code
    u.etu = { s.etu with cmd := none } ∧ u.fld F.ETU_CMD_RESULT_CODE = code % 2 ^ 16 ∧ u.mem = s.mem ∧
      (u.page 0x0D1).eventRaw.getLsbD 0 = true := by
  intro u
  obtain ⟨v, hu, he, hf, hm, hp⟩ : ∃ v : State, u = v.etuState ∧ v.etu = { s.etu with cmd := none } ∧
      v.fld F.ETU_CMD_RESULT_CODE = code % 2 ^ 16 ∧ v.mem = s.mem ∧ (v.page 0x0D1).eventRaw.getLsbD 0 = true := by
    have hr : ((s.updEtu (fun e => { e with cmd := none })).setFld F.ETU_CMD_RESULT_CODE code).fld F.ETU_CMD_RESULT_CODE = code % 2 ^ 16 :=
      State.fld_setFld_same _ _ _ (by decide) (by decide)
    refine ⟨_, rfl, ?_⟩
    split_ifs
    · rw [State.etu_event, State.fld_event _ _ _ (by decide), hr, State.event_mem, State.page_event]
      exact ⟨rfl, rfl, rfl, by simp⟩
    · rw [State.etu_event, State.etu_event, State.fld_event _ _ _ (by decide), State.fld_event _ _ _ (by decide), hr, State.event_mem,
        State.event_mem, State.page_event, State.page_event]
      exact ⟨rfl, rfl, rfl, by simp⟩
  rw [hu, State.etuState, State.etu_updCond, State.fld_updCond _ _ _ (by decide), State.mem_updCond]
  exact ⟨he, hf, hm, State.eventRaw_updCond _ _ _ hp⟩

end

/-! ## Which command runs -/

/-- The start of a command whose precondition holds. -/
def State.etuFirst (s : State) (op t : Nat) : State :=
  if op = 1 then s.etuDefine t else if op = 2 then s.etuUndefine t else if op = 3 then s.etuReplace t else if op = 4 then s.etuFold t
  else if op = 5 then s.etuUnmigrate t else s.etuCacheFlush t

theorem State.etuCmdWrite_eq (s : State) {op : Nat} (t : Nat) (h1 : 1 ≤ op) (h6 : op ≤ 6) : s.etuCmdWrite op t =
    if s.saf.inSafe then s.etuCmdReject op t 0x6031 else if s.etuReady op t then s.etuFirst op t else s.etuCmdReject op t 0xA016 := by
  interval_cases op <;> rfl

theorem State.writeEtuCmd_admitted {s : State} {w op t : Nat} (ht : t < 256) (ha : s.admits 0x0D1 0x40 w (word (t * 2 ^ 8 + op)) = true) :
    s.writeEtuCmd w op t = if s.etu.cmd.isSome then s.error 0x0D1 0xA017 0 else if s.lockStops 0x0D0 then s
      else (s.etuCmdWrite op t).wrote 0x0D1 w := by
  rw [State.writeEtuCmd, Nat.mod_eq_of_lt ht, State.onWrite_admitted ha]

/-- The six commands are writes of ETU_CMD. -/
theorem exec_tableCommand {s : State} {dt w t op : Nat} {c : Instr} (h : (op, c) ∈ [(1, .etuDefine dt w t), (2, .etuUndefine dt w t),
    (3, .etuReplace dt w t), (4, .etuFold dt w t), (5, .etuUnmigrate dt w t), (6, .etuCacheFlush dt w t)]) :
    1 ≤ op ∧ op ≤ 6 ∧ exec c s = .next ((s.arriveBy dt w).writeEtuCmd w op t) := by
  simp only [List.mem_cons, List.not_mem_nil, or_false, Prod.mk.injEq] at h
  rcases h with ⟨rfl, rfl⟩ | ⟨rfl, rfl⟩ | ⟨rfl, rfl⟩ | ⟨rfl, rfl⟩ | ⟨rfl, rfl⟩ | ⟨rfl, rfl⟩ <;> exact ⟨by decide, by decide, rfl⟩

/-! ## DEFINE (R458) -/

theorem lengthCheck_ne_zero {width v lo hi buf c : Nat} (h : lengthCheck width v lo hi buf = some c) : c ≠ 0 := by
  unfold lengthCheck at h
  split_ifs at h <;> cases h <;> decide

/-- A descriptor that fails a check has a code to report. -/
theorem tableFault_ne_zero {b : List Byte} {e : Nat × Nat} (h : tableFault b = some e) : e.2 ≠ 0 := by
  have hbad : ∀ (off : Nat) (c : Bool), (if c then some (off, Err.fieldRange) else none) = some e → e.2 ≠ 0 := by
    intro off c hc
    cases c with
    | false => cases hc
    | true =>
      rw [if_pos rfl, Option.some.injEq] at hc
      rw [← hc]
      exact (by decide : Err.fieldRange ≠ 0)
  have hlen : ∀ off w v lo hi : Nat, (lengthCheck w v lo hi (2 ^ 64)).map (fun c => (off, c)) = some e → e.2 ≠ 0 := by
    intro off w v lo hi hc
    obtain ⟨c, hl, rfl⟩ := Option.map_eq_some_iff.mp hc
    exact lengthCheck_ne_zero hl
  have hspill : ∀ (m : Bool) (off w v lo hi lo' hi' : Nat), (if m then (lengthCheck w v lo hi (2 ^ 64)).map (fun c => (off, c))
      else (lengthCheck w v lo' hi' (2 ^ 64)).map (fun c => (off, c))) = some e → e.2 ≠ 0 := by
    intro m off w v lo hi lo' hi'
    cases m <;> exact hlen _ _ _ _ _
  obtain ⟨o, ho, he⟩ := List.exists_of_findSome?_eq_some h
  revert he
  revert o
  simp only [List.forall_mem_cons, id]
  exact ⟨hbad _ _, hbad _ _, hlen _ _ _ _ _, hbad _ _, hbad _ _, hbad _ _, hbad _ _, hbad _ _, hspill _ _ _ _ _ _ _ _, hbad _ _,
    hlen _ _ _ _ _, hbad _ _, hbad _ _, hbad _ _, hbad _ _, hbad _ _, fun _ h => absurd h List.not_mem_nil⟩

/-- The code that DEFINE ends with at once: of the read, of the fields or of the regions; 0 when the descriptor stands. -/
def State.defineFault (s : State) (f : Rd) : Nat :=
  if f.code ≠ 0 then f.code else if f.poison then 0x5019
  else match tableFault f.bytes with
    | some e => e.2
    | none => s.regionFault (tableDesc f.bytes)

theorem State.etuDefine_eq (s : State) (t : Nat) : s.etuDefine t =
    let f := (s.asAgent .none).fetch s.cmdAddr 64
    let fault := f.2.defineFault f.1
    if fault ≠ 0 then f.2.etuCmdReject 1 t fault else (f.2.updTable t (fun _ => tableDesc f.1.bytes)).etuCmdBegin { op := 1, table := t } := by
  unfold State.etuDefine State.defineFault
  extract_lets f v x code fault
  by_cases hc : f.1.code = 0
  · by_cases hp : f.1.poison = true
    · simp [fault, hc, hp, v]
    · cases hf : tableFault f.1.bytes with
      | some e =>
        have he := tableFault_ne_zero hf
        simp [fault, hc, hp, hf, he, v]
      | none =>
        simp [fault, hc, hp, hf, v, x, code]
  · simp [fault, hc, v]

/-! ## The commands that need rows (R489, R492, R495) -/

theorem lengthCheck_word {v : Nat} (h : v < 2 ^ 32) : lengthCheck 32 v 0 (2 ^ 32) (2 ^ 32) = if v = 2 ^ 32 - 1 then some 0x1003 else none := by
  have h1 : ¬(v < 0 ∨ 2 ^ 32 < v) := by omega
  have h2 : ¬2 ^ 32 < v := by omega
  rw [lengthCheck, if_neg h1, if_neg h2]
  rfl

/-- REPLACE asks of CMD_SIZE that it is no reserved size and holds every row homed here. -/
theorem State.etuReplace_eq (s : State) (t : Nat) : s.etuReplace t =
    let x := s.table t
    if s.fld F.ETU_CMD_SIZE = 2 ^ 32 - 1 then s.etuCmdReject 3 t 0x1003
    else if s.fld F.ETU_CMD_SIZE < s.homedRows x * (if x.update then 2 * x.elems else x.rowBytes) then s.etuCmdReject 3 t 0x1002
    else ((s.updTable t (fun y => { y with state := if y.pause then 3 else 2 })).setFld F.ETU_CMD_PROGRESS_ROWS 0).etuCmdBegin
      { op := 3, table := t, total := s.homedRows x, addr := s.cmdAddr } := by
  have hl := lengthCheck_word (getBits_lt (s.cell F.ETU_CMD_SIZE.reg) F.ETU_CMD_SIZE.hi F.ETU_CMD_SIZE.lo)
  unfold State.etuReplace
  dsimp only
  rw [State.fld, hl]
  split_ifs <;> rfl

theorem State.table_of_tables {s u : State} (t : Nat) (h : u.etu.tables = s.etu.tables) : u.table t = s.table t := by
  rw [State.table, h, State.table]

theorem State.table_setFld (s : State) (f : Field) (v t : Nat) : (s.setFld f v).table t = s.table t := rfl

theorem State.table_updTable_same (s : State) (t : Nat) (f : EtuTable → EtuTable) : (s.updTable t f).table t = f (s.table t) := by
  simp only [State.table, State.updTable, State.updEtu_etu, Sparse.get_set_same]

section
variable (s : State) (t : Nat)

theorem State.etuFirst_undefine : s.etuFirst 2 t = ((s.updTable t (fun _ => {})).forgetTable t).etuCmdBegin { op := 2, table := t } := rfl

theorem State.etuFirst_fold : s.etuFirst 4 t
    = ((s.updTable t (fun y => { y with state := 4, active := 1 - y.active })).setFld F.ETU_CMD_PROGRESS_ROWS 0).etuCmdBegin
      { op := 4, table := t, total := s.homedRows (s.table t), bank := (s.table t).active, both := (s.table t).foldInc } := rfl

theorem State.etuFirst_unmigrate : s.etuFirst 5 t = (s.setFld F.ETU_CMD_PROGRESS_ROWS 0).etuCmdBegin
    { op := 5, table := t, total := (s.etu.redirect.filter (fun r => r.table == t)).length } := rfl

theorem State.etuFirst_cacheFlush : s.etuFirst 6 t
    = (s.updEtu (fun e => { e with cached := e.cached.filter (fun x => x.1 != t) })).etuCmdBegin { op := 6, table := t } := rfl

theorem State.forgetTable_tables : (s.forgetTable t).etu.tables = s.etu.tables := rfl

theorem State.forgetTable_redirect : ∀ r ∈ (s.forgetTable t).etu.redirect, r.table ≠ t := by
  intro r hr
  simpa using (List.mem_filter.mp hr).2

theorem State.forgetTable_cached : ∀ y ∈ (s.forgetTable t).etu.cached, y.1 ≠ t := by
  intro y hy
  simpa using (List.mem_filter.mp hy).2

end

/-! ## ETU_CMD_DONE (R498) -/

section
variable {s : State} {q : EtuCmd} {upto : Nat}

theorem State.etuCmdDone_idle (h : s.etu.cmd = none) : s.etuCmdDone upto = s := by
  have ha : (s.asAgent .none).etu.cmd = none := h
  simp only [State.etuCmdDone, ha, h]

/-- No row is done beyond the one named. -/
theorem State.cmdRows_named (h : s.etu.cmd = some q) (hu : upto ≤ q.done) (n : Nat) : State.cmdRows upto n s = s := by
  cases n with
  | zero => rfl
  | succ n => simp [State.cmdRows, h, hu]

theorem State.etuCmdDone_waits (h : s.etu.cmd = some q) (hd : q.done < q.total) (hu : upto ≤ q.done) :
    s.etuCmdDone upto = s.asAgent .none := by
  have ha : (s.asAgent .none).etu.cmd = some q := h
  simp only [State.etuCmdDone, ha, State.cmdRows_named ha hu, hd, if_true]

/-- The table of a command with no row left, as the command leaves it. -/
def State.etuFinished (s : State) (q : EtuCmd) : State :=
  if q.op = 3 ∧ s.replacing q.table = true then s.updTable q.table (fun x => { x with state := 1, replInc := false })
  else if q.op = 4 then s.updTable q.table (fun x => { x with state := 1, foldInc := false })
  else s

theorem State.etuCmdDone_ends (h : s.etu.cmd = some q) (hd : q.total ≤ q.done) :
    s.etuCmdDone upto = ((s.asAgent .none).etuFinished q).etuCmdEnd q.code := by
  have ha : (s.asAgent .none).etu.cmd = some q := h
  have hn : q.total - q.done = 0 := Nat.sub_eq_zero_of_le hd
  simp only [State.etuCmdDone, ha, hn, State.cmdRows, if_neg (Nat.not_lt.mpr hd)]
  rfl

theorem State.etuFinished_mem (s : State) (q : EtuCmd) : (s.etuFinished q).mem = s.mem := by
  unfold State.etuFinished
  split_ifs <;> rfl

/-- A table that was folded, or replaced, is DEFINED again. -/
theorem State.etuFinished_table (s : State) (h : q.op = 4 ∨ (q.op = 3 ∧ s.replacing q.table = true)) :
    ((s.etuFinished q).table q.table).state = 1 := by
  unfold State.etuFinished
  split_ifs with h3 h4
  · rw [State.table_updTable_same]
  · rw [State.table_updTable_same]
  · exact absurd (h.resolve_left h4) h3

end

/-- Settles O41. -/
theorem tableCommands : Obligations.TableCommands := by
  refine ⟨?_, fun s dt upto => ?_⟩
  · intro s dt w t op c hm ht b x f fault need rejected ha
    obtain ⟨h1, h6, hx⟩ := exec_tableCommand hm
    rw [State.writeEtuCmd_admitted ht ha] at hx
    have hrej : ∀ (v : State) (code : Nat), v.byteSource = b.byteSource → v.etu = b.etu → b.etu.cmd = none →
        exec c s = .next ((v.etuCmdReject op t code).wrote 0x0D1 w) → rejected code := by
      intro v code hb he hn hv
      obtain ⟨hr, hetu, hbytes, hop, htab, he0, he1, hlw⟩ := v.etuCmdReject_spec code w (by omega : op < 16) ht
      rw [he] at hetu
      exact ⟨_, hv, hr, by rw [hetu, hn], by rw [hetu], State.sameBytes_of (hbytes.trans hb), hop, htab, he0, he1, hlw⟩
    have hrun : ∀ (v : State) (q : EtuCmd), exec c s = .next ((v.etuCmdBegin q).wrote 0x0D1 w) → v.byteSource = b.byteSource →
        q.op = op → q.table = t → q.done = 0 → ∃ u, exec c s = .next u ∧ (u.page 0x0D1).lastWriter = w ∧
          u.etu.cmd.map (fun q => (q.op, q.table, q.done)) = some (op, t, 0) ∧ b.SameBytes u ∧ u.fld F.ETU_CMD_STATUS_TABLE = t ∧
          u.fld F.ETU_CMD_STATUS_OP = op ∧ u.etu.cmd = some q ∧ u.etu.tables = v.etu.tables ∧ u.etu.redirect = v.etu.redirect ∧
          u.etu.cached = v.etu.cached := by
      rintro v q hv hb rfl rfl hd
      obtain ⟨hetu, hbytes, htab, hop, hlw⟩ := v.etuCmdBegin_spec w (by omega : q.op < 16) ht
      exact ⟨_, hv, hlw, by rw [hetu, ← hd]; rfl, State.sameBytes_of (hbytes.trans hb), htab, hop, by rw [hetu], by rw [hetu],
        by rw [hetu], by rw [hetu]⟩
    refine ⟨fun hc => ?_, fun hn hl => ?_, fun hn hl hs => ?_, fun hn hl hs hr => ?_, fun hn hl hs hr => ?_⟩
    · rw [hx, if_pos hc]
    · rw [hx, if_neg (by rw [hn]; decide), if_pos hl]
    · rw [if_neg (by rw [hn]; decide), if_neg (by rw [hl]; decide), State.etuCmdWrite_eq _ _ h1 h6, if_pos hs] at hx
      exact hrej b 0x6031 rfl rfl hn hx
    · rw [if_neg (by rw [hn]; decide), if_neg (by rw [hl]; decide), State.etuCmdWrite_eq _ _ h1 h6, if_neg (by rw [hs]; decide),
        if_neg (by rw [hr]; decide)] at hx
      exact hrej b 0xA016 rfl rfl hn hx
    · rw [if_neg (by rw [hn]; decide), if_neg (by rw [hl]; decide), State.etuCmdWrite_eq _ _ h1 h6, if_neg (by rw [hs]; decide),
        if_pos hr] at hx
      have hclean : b.readsClean = true → f.2.byteSource = b.byteSource ∧ f.2.etu = b.etu := fun h =>
        have hread : f.2.readSource = b.readSource := State.fetch_clean (s := b.asAgent .none) h _ _
        ⟨(congrArg (·.1) hread :), (congrArg (·.2.1) hread :)⟩
      have hdef : op = 1 → b.etuFirst op t = if fault ≠ 0 then f.2.etuCmdReject 1 t fault
          else (f.2.updTable t (fun _ => tableDesc f.1.bytes)).etuCmdBegin { op := 1, table := t } := by
        rintro rfl
        exact b.etuDefine_eq t
      have hrep : op = 3 → b.etuFirst op t = if b.fld F.ETU_CMD_SIZE = 2 ^ 32 - 1 then b.etuCmdReject 3 t 0x1003
          else if b.fld F.ETU_CMD_SIZE < need then b.etuCmdReject 3 t 0x1002
          else ((b.updTable t (fun y => { y with state := if y.pause then 3 else 2 })).setFld F.ETU_CMD_PROGRESS_ROWS 0).etuCmdBegin
            { op := 3, table := t, total := b.homedRows x, addr := b.cmdAddr } := by
        rintro rfl
        exact b.etuReplace_eq t
      refine ⟨fun ho hcl hf => ?_, fun ho hz => ?_, fun ho hz hlt => ?_, fun hd hsz => ?_⟩
      · obtain ⟨hb, he⟩ := hclean hcl
        rw [hdef ho, if_pos hf, ← ho] at hx
        exact hrej f.2 fault hb he hn hx
      · rw [hrep ho, if_pos hz, ← ho] at hx
        exact hrej b 0x1003 rfl rfl hn hx
      · rw [hrep ho, if_neg (by omega), if_pos hlt, ← ho] at hx
        exact hrej b 0x1002 rfl rfl hn hx
      · clear_value rejected need fault
        have hcase : op = 1 ∨ op = 2 ∨ op = 3 ∨ op = 4 ∨ op = 5 ∨ op = 6 := by omega
        rcases hcase with rfl | rfl | rfl | rfl | rfl | rfl
        · obtain ⟨hcl, hf⟩ := hd rfl
          obtain ⟨hb, he⟩ := hclean hcl
          rw [hdef rfl, if_neg (not_not.mpr hf)] at hx
          obtain ⟨u, hu, hlw, hcmd, hsb, htab, hop, hq, htb, -, -⟩ := hrun _ _ hx hb rfl rfl rfl
          refine ⟨u, hu, hlw, hcmd, hsb, htab, hop, fun _ => ⟨?_, ?_⟩, fun h => absurd h (by decide), fun h => absurd h (by decide),
            fun h => absurd h (by decide), fun h => absurd h (by decide), fun h => absurd h (by decide)⟩
          · rw [State.table_of_tables t htb, State.table_updTable_same]
          · rw [hq]
            rfl
        · rw [State.etuFirst_undefine] at hx
          obtain ⟨u, hu, hlw, hcmd, hsb, htab, hop, -, htb, hrd, hca⟩ := hrun _ _ hx rfl rfl rfl rfl
          refine ⟨u, hu, hlw, hcmd, hsb, htab, hop, fun h => absurd h (by decide), fun _ => ⟨?_, fun r hr => ?_, fun y hy => ?_⟩,
            fun h => absurd h (by decide), fun h => absurd h (by decide), fun h => absurd h (by decide), fun h => absurd h (by decide)⟩
          · rw [State.table_of_tables t (htb.trans (State.forgetTable_tables _ t)), State.table_updTable_same]
          · rw [hrd] at hr
            exact State.forgetTable_redirect _ t r hr
          · rw [hca] at hy
            exact State.forgetTable_cached _ t y hy
        · obtain ⟨hz, hn⟩ := hsz rfl
          rw [hrep rfl, if_neg (by omega), if_neg (by omega)] at hx
          obtain ⟨u, hu, hlw, hcmd, hsb, htab, hop, hq, htb, -, -⟩ := hrun _ _ hx (State.byteSource_setFld _ _ _ (by decide)) rfl rfl rfl
          refine ⟨u, hu, hlw, hcmd, hsb, htab, hop, fun h => absurd h (by decide), fun h => absurd h (by decide), fun _ => ⟨?_, ?_⟩,
            fun h => absurd h (by decide), fun h => absurd h (by decide), fun h => absurd h (by decide)⟩
          · rw [State.table_of_tables t htb, State.table_setFld, State.table_updTable_same]
          · rw [hq]
            rfl
        · rw [State.etuFirst_fold] at hx
          obtain ⟨u, hu, hlw, hcmd, hsb, htab, hop, hq, htb, -, -⟩ := hrun _ _ hx (State.byteSource_setFld _ _ _ (by decide)) rfl rfl rfl
          have hrow := State.table_of_tables t htb
          refine ⟨u, hu, hlw, hcmd, hsb, htab, hop, fun h => absurd h (by decide), fun h => absurd h (by decide),
            fun h => absurd h (by decide), fun _ => ⟨?_, ?_, ?_⟩, fun h => absurd h (by decide), fun h => absurd h (by decide)⟩
          · rw [hrow, State.table_setFld, State.table_updTable_same]
          · rw [hrow, State.table_setFld, State.table_updTable_same]
          · rw [hq]
            rfl
        · rw [State.etuFirst_unmigrate] at hx
          obtain ⟨u, hu, hlw, hcmd, hsb, htab, hop, hq, htb, -, -⟩ := hrun _ _ hx (State.byteSource_setFld _ _ _ (by decide)) rfl rfl rfl
          refine ⟨u, hu, hlw, hcmd, hsb, htab, hop, fun h => absurd h (by decide), fun h => absurd h (by decide),
            fun h => absurd h (by decide), fun h => absurd h (by decide), fun _ => ⟨?_, ?_⟩, fun h => absurd h (by decide)⟩
          · rw [hq]
            rfl
          · rw [htb, State.setFld_etu]
        · rw [State.etuFirst_cacheFlush] at hx
          obtain ⟨u, hu, hlw, hcmd, hsb, htab, hop, -, htb, -, hca⟩ := hrun _ _ hx rfl rfl rfl rfl
          refine ⟨u, hu, hlw, hcmd, hsb, htab, hop, fun h => absurd h (by decide), fun h => absurd h (by decide),
            fun h => absurd h (by decide), fun h => absurd h (by decide), fun h => absurd h (by decide), fun _ => ⟨fun y hy => ?_, ?_⟩⟩
          · rw [hca] at hy
            simpa using (List.mem_filter.mp hy).2
          · rw [htb, State.updEtu_etu]
  · intro a
    have hx : exec (.etuCmdDone dt upto) s = .next (a.etuCmdDone upto) := rfl
    refine ⟨fun hn => ?_, fun q hq hd hu => ?_, fun q hq hd => ?_⟩
    · rw [hx, State.etuCmdDone_idle hn]
    · rw [hx, State.etuCmdDone_waits hq hd hu]
    · obtain ⟨hetu, hcode, hmem, hev⟩ := ((a.asAgent .none).etuFinished q).etuCmdEnd_spec q.code
      rw [State.etuCmdDone_ends hq hd] at hx
      have htab := State.table_of_tables (u := ((a.asAgent .none).etuFinished q).etuCmdEnd q.code) (s := (a.asAgent .none).etuFinished q) q.table
        (by rw [hetu])
      refine ⟨_, hx, by rw [hetu], hcode, hmem.trans (State.etuFinished_mem _ q), hev, fun ho => ?_, fun ho hr => ?_⟩
      · rw [htab, State.etuFinished_table _ (.inl ho)]
      · rw [htab]
        exact State.etuFinished_table (a.asAgent .none) (.inr ⟨ho, hr⟩)

end Sys2Proof.Machine
end

section
/-! PROOFS. What the steps of a reset and of the start-up leave as it is. -/

namespace Sys2Proof.Machine

variable (s : State)

/-- What the steps of a reset leave as it is: the memory, the instants, the frames, the queue of word programs, the fused tiles, the tiles,
what is known of the reset, and BOOT_STATUS. -/
def State.outline : State × Word :=
  ({ s with
    regs := [], hdr := [], held := [], waiters := [], logQueue := [], cyc := {}, gpio := {}, hif := {}, saf := {}, rst := {}, pwr := {}
    fuses := { tiles := s.fuses.tiles }, psv := { queue := s.psv.queue } }, s.cell R.GLB_BOOT_STATUS)

theorem State.outline_of {s t : State} (hi : t.inner = s.inner) (hc : t.cell R.GLB_BOOT_STATUS = s.cell R.GLB_BOOT_STATUS) :
    t.outline = s.outline :=
  Prod.ext (congrArg (fun u : State => u.outline.1) hi :) hc

theorem State.status_of_outline {s t : State} (h : t.outline = s.outline) {f : Field} (hf : f.reg = R.GLB_BOOT_STATUS) : t.fld f = s.fld f := by
  have hc : t.cell R.GLB_BOOT_STATUS = s.cell R.GLB_BOOT_STATUS := congrArg Prod.snd h
  rw [State.fld, State.fld, hf, hc]

theorem State.mem_of_outline {s t : State} (h : t.outline = s.outline) : t.mem = s.mem := (congrArg (fun x => x.1.mem) h :)
theorem State.tile_of_outline {s t : State} (h : t.outline = s.outline) (n : Nat) : t.tile n = s.tile n := (congrArg (fun x => x.1.tile n) h :)
theorem State.saf_of_inner {s t : State} (h : t.inner = s.inner) : t.saf = s.saf := (congrArg State.saf h :)

/-! ### Registers, headers, events and errors -/

@[simp] theorem State.outline_setCell (k : Nat) (v : Word) (h : k ≠ R.GLB_BOOT_STATUS) : (s.setCell k v).outline = s.outline :=
  Prod.ext rfl (Sparse.get_set_other _ _ _ h.symm)

@[simp] theorem State.outline_setFld (f : Field) (v : Nat) (h : f.reg ≠ R.GLB_BOOT_STATUS) : (s.setFld f v).outline = s.outline :=
  s.outline_setCell _ _ h

@[simp] theorem State.outline_bump (f : Field) (h : f.reg ≠ R.GLB_BOOT_STATUS) : (s.bump f).outline = s.outline := s.outline_setFld f _ h

@[simp] theorem State.outline_setPage (p : Nat) (h : PageHdr) : (s.setPage p h).outline = s.outline := rfl

@[simp] theorem State.outline_updPage (p : Nat) (f : PageHdr → PageHdr) : (s.updPage p f).outline = s.outline :=
  State.outline_of (s.updPage_inner p f) (s.cell_updPage p f (by decide))

@[simp] theorem State.outline_event (p b : Nat) : (s.event p b).outline = s.outline :=
  State.outline_of (s.event_inner p b) (s.cell_event p b (by decide))

@[simp] theorem State.outline_updCond (p : Nat) (f : Cond → Cond) : (s.updCond p f).outline = s.outline :=
  State.outline_of (s.updCond_inner p f) (s.cell_updCond p f (by decide))

@[simp] theorem State.outline_error (p code : Nat) (info : Word) : (s.error p code info).outline = s.outline :=
  State.outline_of (s.error_inner p code info) (s.cell_error p code info (by decide) (by decide))

@[simp] theorem State.saf_event (p b : Nat) : (s.event p b).saf = s.saf := State.saf_of_inner (s.event_inner p b)
@[simp] theorem State.saf_error (p code : Nat) (info : Word) : (s.error p code info).saf = s.saf := State.saf_of_inner (s.error_inner p code info)
@[simp] theorem State.saf_updCond (p : Nat) (f : Cond → Cond) : (s.updCond p f).saf = s.saf := State.saf_of_inner (s.updCond_inner p f)

@[simp] theorem State.outline_updSaf (f : Saf → Saf) : (s.updSaf f).outline = s.outline := rfl
@[simp] theorem State.outline_updRst (f : Rst → Rst) : (s.updRst f).outline = s.outline := rfl
@[simp] theorem State.outline_updPwr (f : Pwr → Pwr) : (s.updPwr f).outline = s.outline := rfl
@[simp] theorem State.outline_updHif (f : Hif → Hif) : (s.updHif f).outline = s.outline := rfl
@[simp] theorem State.outline_updCyc (f : Cyc → Cyc) : (s.updCyc f).outline = s.outline := rfl
@[simp] theorem State.outline_release (p : Nat) : (s.release p).outline = s.outline := rfl

/-! ### Causes of the safe state, while it is in force -/

@[simp] theorem State.outline_raiseCause (n : Nat) : (s.raiseCause n).outline = s.outline := by
  simp [State.raiseCause, apply_ite State.outline]

@[simp] theorem State.inSafe_raiseCause (n : Nat) : (s.raiseCause n).saf.inSafe = s.saf.inSafe := by
  simp [State.raiseCause, apply_ite State.saf, apply_ite Saf.inSafe]

@[simp] theorem State.outline_firstCause (n code : Nat) : (s.firstCause n code).outline = s.outline := by
  unfold State.firstCause
  split_ifs <;> simp +decide

@[simp] theorem State.saf_firstCause (n code : Nat) : (s.firstCause n code).saf = s.saf := by
  simp [State.firstCause, apply_ite State.saf]

variable {s}

theorem State.latch_inForce (h : s.saf.inSafe = true) (n code : Nat) :
    (s.latch n code).outline = s.outline ∧ (s.latch n code).saf.inSafe = true := by
  have hr : (s.raiseCause n).saf.inSafe ≠ false := by simp [h]
  simp only [State.latch, if_neg hr]
  split_ifs <;> simp [h]

theorem State.pageFault_inForce (h : s.saf.inSafe = true) (p code : Nat) :
    (s.pageFault p code).outline = s.outline ∧ (s.pageFault p code).saf.inSafe = true := by
  have hc : (s.updCond p (fun c => { c with fault := true })).saf.inSafe = true := by rw [State.saf_updCond, h]
  have ho := s.outline_updCond p (fun c => { c with fault := true })
  have hl := fun n => State.latch_inForce hc n code
  simp only [State.pageFault]
  split_ifs
  · exact ⟨(hl _).1.trans ho, (hl _).2⟩
  · exact ⟨(hl _).1.trans ho, (hl _).2⟩
  · exact ⟨ho, hc⟩

/-! ### Steps of a reset -/

/-- `t` is as `s` in outline, with the safe state in force. -/
def State.Rests (s t : State) : Prop := t.outline = s.outline ∧ t.saf.inSafe = true

variable {s₀ : State}

theorem State.Rests.refl (h : s.saf.inSafe = true) : s.Rests s := ⟨rfl, h⟩
theorem State.Rests.trans {t : State} (h : s₀.Rests s) (g : s.Rests t) : s₀.Rests t := ⟨g.1.trans h.1, g.2⟩
theorem State.Rests.of_eq {t : State} (h : s₀.Rests s) (ho : t.outline = s.outline) (hs : t.saf = s.saf) : s₀.Rests t :=
  ⟨ho.trans h.1, hs ▸ h.2⟩

theorem State.Rests.foldl {α : Type} {f : State → α → State} (hf : ∀ t x, s₀.Rests t → s₀.Rests (f t x)) (l : List α) (h : s₀.Rests s) :
    s₀.Rests (l.foldl f s) := by
  induction l generalizing s with
  | nil => exact h
  | cons x l ih => exact ih (hf _ x h)

theorem State.Rests.setFld (h : s₀.Rests s) (f : Field) (v : Nat) (hf : f.reg ≠ R.GLB_BOOT_STATUS) : s₀.Rests (s.setFld f v) :=
  h.of_eq (s.outline_setFld f v hf) rfl
theorem State.Rests.setCell (h : s₀.Rests s) (k : Nat) (v : Word) (hk : k ≠ R.GLB_BOOT_STATUS) : s₀.Rests (s.setCell k v) :=
  h.of_eq (s.outline_setCell k v hk) rfl
theorem State.Rests.bump (h : s₀.Rests s) (f : Field) (hf : f.reg ≠ R.GLB_BOOT_STATUS) : s₀.Rests (s.bump f) := h.setFld f _ hf
theorem State.Rests.event (h : s₀.Rests s) (p b : Nat) : s₀.Rests (s.event p b) := h.of_eq (s.outline_event p b) (s.saf_event p b)
theorem State.Rests.error (h : s₀.Rests s) (p code : Nat) (info : Word) : s₀.Rests (s.error p code info) :=
  h.of_eq (s.outline_error p code info) (s.saf_error p code info)
theorem State.Rests.updCond (h : s₀.Rests s) (p : Nat) (f : Cond → Cond) : s₀.Rests (s.updCond p f) :=
  h.of_eq (s.outline_updCond p f) (s.saf_updCond p f)
theorem State.Rests.updPage (h : s₀.Rests s) (p : Nat) (f : PageHdr → PageHdr) : s₀.Rests (s.updPage p f) :=
  h.of_eq (s.outline_updPage p f) (State.saf_of_inner (s.updPage_inner p f))
theorem State.Rests.updRst (h : s₀.Rests s) (f : Rst → Rst) : s₀.Rests (s.updRst f) := h.of_eq rfl rfl
theorem State.Rests.updHif (h : s₀.Rests s) (f : Hif → Hif) : s₀.Rests (s.updHif f) := h.of_eq rfl rfl
theorem State.Rests.updSaf (h : s₀.Rests s) (f : Saf → Saf) (hf : (f s.saf).inSafe = true) : s₀.Rests (s.updSaf f) := ⟨h.1, hf⟩
theorem State.Rests.setNvm (h : s₀.Rests s) (i : Nat) (c : NvmCell) : s₀.Rests (s.setNvm i c) := h.of_eq rfl rfl
theorem State.Rests.latch (h : s₀.Rests s) (n code : Nat) : s₀.Rests (s.latch n code) := h.trans (State.latch_inForce h.2 n code)
theorem State.Rests.pageFault (h : s₀.Rests s) (p code : Nat) : s₀.Rests (s.pageFault p code) := h.trans (State.pageFault_inForce h.2 p code)

theorem State.Rests.ite {c : Prop} [Decidable c] {a b : State} (ha : c → s₀.Rests a) (hb : ¬c → s₀.Rests b) : s₀.Rests (if c then a else b) := by
  split_ifs with h
  · exact ha h
  · exact hb h

theorem State.Rests.latchRst (h : s₀.Rests s) (n code : Nat) : s₀.Rests (s.latchRst n code) :=
  .ite (fun _ => h.latch n code) (fun _ => h.updRst _)

theorem State.Rests.privDrop (h : s₀.Rests s) (ctx slot : Nat) : s₀.Rests (s.privDrop ctx slot) :=
  ((((((((h.updHif _).updHif _).bump _ (by decide)).error ..).event ..).setFld _ _ (by decide)).setFld _ _ (by decide)).setFld _ _ (by decide))

theorem State.Rests.setRstRx (h : s₀.Rests s) (v : Nat) : s₀.Rests (s.setRstRx v) := by
  have hv := h.setFld F.MBX_RST_RX_STATE v (by decide)
  unfold State.setRstRx
  dsimp only
  split
  · exact .foldl (f := fun (t : State) (x : Nat × Nat) => t.privDrop x.1 x.2) (fun _ x ht => ht.privDrop x.1 x.2) _ hv
  · exact hv

theorem State.Rests.abandonLock (h : s₀.Rests s) (p : Nat) : s₀.Rests (s.abandonLock p) :=
  ((h.of_eq (s.outline_setPage p _) rfl).error ..).event ..

theorem State.Rests.abandonOnce (h : s₀.Rests s) (p : Nat) : s₀.Rests (s.abandonOnce p) := by
  unfold State.abandonOnce
  split_ifs
  · exact (h.abandonLock p).of_eq rfl rfl
  · exact h

theorem State.Rests.abandonLocks (h : s₀.Rests s) (who : Nat → Bool) : s₀.Rests (s.abandonLocks who) :=
  .foldl (fun _ x ht => ht.abandonOnce x.1) _ h

theorem State.Rests.rstDead (h : s₀.Rests s) (code : Nat) : s₀.Rests (s.rstDead code) := by
  unfold State.rstDead
  exact .ite (fun _ => h) (fun _ =>
    ((((((h.setFld _ _ (by decide)).setFld _ _ (by decide)).setRstRx 3).updCond ..).error ..).latch ..).abandonLocks _)

/-- SAF holds the pins named, which it did not hold. -/
def State.seizePins (s : State) (new : List Nat) : State :=
  { s with
    held := (s.held.filter (fun (x : Nat × Nat) => !(new.any (fun g => pinRes g == x.1)))) ++ new.map (fun g => (pinRes g, 0x160)),
    gpio := { s.gpio with held := new.foldl setBit s.gpio.held } }

theorem State.takePins_none {pins : List Nat} (h : pins.filter (fun g => !bitOf s.gpio.held g) = []) : s.takePins pins = s := by
  unfold State.takePins
  rw [h]

theorem State.takePins_some {pins : List Nat} {g : Nat} {l : List Nat} (h : pins.filter (fun g => !bitOf s.gpio.held g) = g :: l) :
    s.takePins pins = if (s.gpio.held == 0) = true then
      (((s.seizePins (g :: l)).error 0x002 Err.resourceHeld (word (0x160 * 2 ^ 16 + pinRes g))).event 0x002 0).updCond 0x002
        (fun c => { c with waiting := true })
      else s.seizePins (g :: l) := by
  unfold State.takePins
  rw [h]
  rfl

theorem State.Rests.seizePins (h : s₀.Rests s) (new : List Nat) : s₀.Rests (s.seizePins new) := h.of_eq rfl rfl

theorem State.Rests.takePins (h : s₀.Rests s) (pins : List Nat) : s₀.Rests (s.takePins pins) := by
  cases hn : pins.filter (fun g => !bitOf s.gpio.held g) with
  | nil => rwa [State.takePins_none hn]
  | cons g l =>
    rw [State.takePins_some hn]
    exact .ite (fun _ => (((h.seizePins _).error ..).event ..).updCond ..) (fun _ => h.seizePins _)

/-! ### The boot ROM -/

theorem slotState_reg (t : Nat) : (slotState t).reg ≠ R.GLB_BOOT_STATUS := by unfold slotState; split_ifs <;> decide
theorem slotActive_reg (t : Nat) : (slotActive t).reg ≠ R.GLB_BOOT_STATUS := by unfold slotActive; split_ifs <;> decide
theorem slotTries_reg (t : Nat) : (slotTries t).reg ≠ R.GLB_BOOT_STATUS := by unfold slotTries; split_ifs <;> decide

theorem State.Rests.markBad (h : s₀.Rests s) (t : Nat) : s₀.Rests (s.markBad t) := (h.setFld _ _ (slotState_reg t)).updRst _

theorem State.Rests.tryTrials (digA digB : List Nat) (l : List Nat) (h : s₀.Rests s) : s₀.Rests (s.tryTrials digA digB l).1 := by
  induction l generalizing s with
  | nil => exact h
  | cons t l ih =>
    have ht := h.setFld _ (s.fld (slotTries t) + 1) (slotTries_reg t)
    unfold State.tryTrials
    split
    · exact ih h
    · split
      · dsimp only
        generalize (if t = 0 then digA else digB) = dig
        split
        · exact ht
        · exact ih (ht.markBad t)
      · exact ih (h.markBad t)

theorem State.Rests.tryGood (h : s₀.Rests s) (t : Nat) (dig : List Nat) : s₀.Rests (s.tryGood t dig).1 := by
  unfold State.tryGood
  split_ifs
  · exact h
  · exact h
  · exact h.markBad t

theorem State.Rests.clean (h : s₀.Rests s) (t : Nat) :
    s₀.Rests (if s.fld (slotState t) = Slot.staging then s.setFld (slotState t) Slot.empty else s) :=
  .ite (fun _ => h.setFld _ _ (slotState_reg t)) (fun _ => h)

theorem State.Rests.chooseSlot (h : s₀.Rests s) (digA digB : List Nat) : s₀.Rests (s.chooseSlot digA digB).1 := by
  have hr := ((h.clean 0).clean 1).tryTrials digA digB [0, 1]
  unfold State.chooseSlot
  dsimp only
  split
  · exact hr
  · have hg := hr.tryGood
    split
    · exact hg _ _
    · split
      · exact (((hg _ _).tryGood _ _).setFld _ _ (slotActive_reg _)).setFld _ _ (slotActive_reg _)
      · exact (hg _ _).tryGood _ _

/-! ### Status fields -/

/-- `t` is as `s` but for what lies behind the registers, with the safe state in force and the fields `fs` of BOOT_STATUS kept. -/
def State.Boots (fs : List Field) (s t : State) : Prop := t.outline.1 = s.outline.1 ∧ t.saf.inSafe = true ∧ ∀ f ∈ fs, t.fld f = s.fld f

variable {fs : List Field}

theorem State.Rests.boots {t : State} (h : s.Rests t) (hfs : ∀ f ∈ fs, f.reg = R.GLB_BOOT_STATUS := by decide) : State.Boots fs s t :=
  ⟨congrArg Prod.fst h.1, h.2, fun f hf => State.status_of_outline h.1 (hfs f hf)⟩

theorem State.Boots.trans {t : State} (h : State.Boots fs s₀ s) (g : State.Boots fs s t) : State.Boots fs s₀ t :=
  ⟨g.1.trans h.1, g.2.1, fun f hf => (g.2.2 f hf).trans (h.2.2 f hf)⟩

theorem State.Boots.setFld (h : State.Boots fs s₀ s) (f : Field) (v : Nat)
    (hf : ∀ g ∈ fs, g.reg ≠ f.reg ∨ g.hi < f.lo ∨ f.hi < g.lo := by decide) (hw : f.lo ≤ f.hi ∧ f.hi < 32 := by decide) :
    State.Boots fs s₀ (s.setFld f v) :=
  ⟨h.1, h.2.1, fun g hg => (s.fld_setFld_apart v hw.1 hw.2 (hf g hg)).trans (h.2.2 g hg)⟩

theorem State.Boots.ite {c : Prop} [Decidable c] {a b : State} (ha : c → State.Boots fs s₀ a) (hb : ¬c → State.Boots fs s₀ b) :
    State.Boots fs s₀ (if c then a else b) := by
  split_ifs with h
  · exact ha h
  · exact hb h

/-- What a reset settles of BOOT_STATUS before the boot ROM runs. -/
def resetFields : List Field :=
  [F.GLB_BOOT_STATUS_LAST_RESET, F.GLB_BOOT_STATUS_AON_UP, F.GLB_BOOT_STATUS_FUSE_OK, F.GLB_BOOT_STATUS_RESTORED, F.GLB_BOOT_STATUS_FW_READY]

theorem State.bootRom_boots (h : s.saf.inSafe = true) (flash rom : Bool) (digA digB : List Nat) :
    State.Boots resetFields s (s.bootRom flash rom digA digB) := by
  have hs : s.Rests s := .refl h
  unfold State.bootRom
  split_ifs
  · exact ((hs.updRst _).rstDead _).boots.setFld _ _
  all_goals
    have hc := ((hs.updRst (fun r => { r with romFail := false, flashFail := r.flashFail || !flash })).chooseSlot)
    dsimp only
    split
    · exact (((hc _ _).setFld _ _ (by decide)).setFld _ _ (by decide)).boots.setFld _ _
    · exact (((hc _ _).setFld _ _ (by decide)).setFld _ _ (by decide)).boots

theorem State.bootStep_boots (h : s.saf.inSafe = true) (flash rom : Bool) (digA digB : List Nat) :
    State.Boots resetFields s (s.bootStep flash rom digA digB) := by
  have hb := State.bootRom_boots h flash rom digA digB
  unfold State.bootStep
  exact .ite (fun _ => hb) (fun _ => hb.setFld _ _)

/-! ### Fuses and the restored store -/

/-- The check of the identification fuses, and what it finds. -/
def State.fusesRead (s : State) (ok : Bool) : State := { s with fuses := { s.fuses with failed := !ok } }

theorem State.readFuses_good : s.readFuses true = ((s.setFld F.GLB_BOOT_STATUS_AON_UP 1).fusesRead true).setFld F.GLB_BOOT_STATUS_FUSE_OK 1 := rfl
theorem State.readFuses_bad : s.readFuses false = (((((s.setFld F.GLB_BOOT_STATUS_AON_UP 1).fusesRead false).updCond 0x000
    (fun c => { c with fault := true })).error 0x000 0x6020 0).latchRst Cause.fuse 0x6020) := rfl

theorem State.Rests.fusesRead (h : s₀.Rests s) (ok : Bool) : s₀.Rests (s.fusesRead ok) := h.of_eq rfl rfl

theorem State.readFuses_boots (h : s.saf.inSafe = true) (ok : Bool) :
    State.Boots [F.GLB_BOOT_STATUS_LAST_RESET, F.GLB_BOOT_STATUS_FW_READY] s (s.readFuses ok) ∧ (s.readFuses ok).flag F.GLB_BOOT_STATUS_AON_UP = true ∧
    (s.flag F.GLB_BOOT_STATUS_FUSE_OK = false → (s.readFuses ok).flag F.GLB_BOOT_STATUS_FUSE_OK = ok) := by
  have h0 : State.Boots [F.GLB_BOOT_STATUS_LAST_RESET, F.GLB_BOOT_STATUS_FW_READY] s s := (State.Rests.refl h).boots
  have hup : (s.setFld F.GLB_BOOT_STATUS_AON_UP 1).fld F.GLB_BOOT_STATUS_AON_UP = 1 := State.fld_setFld_same _ _ _ (by decide) (by decide)
  have hr := (State.Rests.refl (s := s.setFld F.GLB_BOOT_STATUS_AON_UP 1) h).fusesRead ok
  cases ok with
  | true =>
    rw [State.readFuses_good]
    refine ⟨((h0.setFld F.GLB_BOOT_STATUS_AON_UP 1).trans hr.boots).setFld _ _, ?_, fun _ => ?_⟩
    · rw [State.flag, State.fld_setFld_apart _ _ (by decide) (by decide) (by decide), State.status_of_outline hr.1 rfl, hup]
      rfl
    · rw [State.flag, State.fld_setFld_same _ _ _ (by decide) (by decide)]
      rfl
  | false =>
    rw [State.readFuses_bad]
    have hl := ((hr.updCond 0x000 (fun c => { c with fault := true })).error 0x000 0x6020 0).latchRst Cause.fuse 0x6020
    refine ⟨(h0.setFld F.GLB_BOOT_STATUS_AON_UP 1).trans hl.boots, ?_, fun hf => ?_⟩
    · rw [State.flag, State.status_of_outline hl.1 rfl, hup]
      rfl
    · rw [State.flag, State.status_of_outline hl.1 rfl, State.fld_setFld_apart _ _ (by decide) (by decide) (by decide)]
      exact hf

/-- The registers of the persistent pages at their reset values. -/
def State.storeDropped (s : State) : State :=
  { s with regs := Sparse.drop s.regs (fun k => isPersistent (k / 0x1000) && Nat.ble 0x40 (k % 0x1000)) }

theorem State.Rests.storeDropped (h : s₀.Rests s) : s₀.Rests s.storeDropped :=
  have hc : s.storeDropped.cell R.GLB_BOOT_STATUS = s.cell R.GLB_BOOT_STATUS := by
    rw [State.cell, State.storeDropped, Sparse.get_drop, if_neg (by decide), State.cell]
  h.of_eq (Prod.ext rfl hc) rfl

theorem State.Rests.loadWord (h : s₀.Rests s) (i v : Nat) : s₀.Rests (s.loadWord i v) := by
  have hk : ∀ p k : Nat, 0x200 ≤ p → wordLo p k ≠ R.GLB_BOOT_STATUS ∧ wordHi p k ≠ R.GLB_BOOT_STATUS := by
    intro p k hp
    simp only [wordLo, wordHi, R.GLB_BOOT_STATUS]
    omega
  obtain ⟨hlo, hhi⟩ := hk (cellPage i) (cellWord i) (Nat.le_add_right _ _)
  exact .ite (fun _ => h) (fun _ => (h.setCell _ _ hlo).setCell _ _ hhi)

theorem State.Rests.restoreCell (h : s₀.Rests s) (i : Nat) : s₀.Rests (s.restoreCell i) := by
  have hl := (h.setNvm i { s.nvm i with cls := (s.nvm i).classOf, wear := (s.nvm i).wearOf }).loadWord i (s.cellValue i)
  unfold State.restoreCell
  dsimp only
  split_ifs
  · exact (((hl.error ..).event ..).setCell _ _ (by decide)).bump _ (by decide)
  · exact ((hl.error ..).event ..).bump _ (by decide)
  · exact hl

theorem State.Rests.refreshWear (h : s₀.Rests s) : s₀.Rests s.refreshWear :=
  (((h.setFld _ _ (by decide)).setFld _ _ (by decide)).setFld _ _ (by decide)).setCell _ _ (by decide)

theorem State.Rests.loadLife (h : s₀.Rests s) : s₀.Rests s.loadLife := h.of_eq rfl rfl

theorem State.Rests.restoreCauses (h : s₀.Rests s) : s₀.Rests s.restoreCauses := by
  unfold State.restoreCauses
  dsimp only
  have ht := State.Rests.ite (c := s.corruptCells.any safetyCell = true) (fun _ => h.latch Cause.safetyCfg 0x7005) (fun _ => h)
  exact .ite (fun _ => ht.latchRst _ _) (fun _ => ht)

theorem State.restore_eq : s.restore = ((persistentPages.foldl (fun (t : State) p => t.updCond p (fun c => { c with off := false }))
    ((((s.psv.cells.map (·.1)).foldl (fun (t : State) i => t.restoreCell i) s.storeDropped).setFld F.PSV_STATUS_RESTORED 1).setFld
      F.GLB_BOOT_STATUS_RESTORED 1)).refreshWear.loadLife).restoreCauses := rfl

/-- What a reset settles of BOOT_STATUS before the store is restored. -/
def earlyFields : List Field :=
  [F.GLB_BOOT_STATUS_LAST_RESET, F.GLB_BOOT_STATUS_AON_UP, F.GLB_BOOT_STATUS_FUSE_OK, F.GLB_BOOT_STATUS_FW_READY]

theorem State.restore_boots (h : s.saf.inSafe = true) :
    State.Boots earlyFields s s.restore ∧ s.restore.flag F.GLB_BOOT_STATUS_RESTORED = true := by
  have hc : s.Rests (((s.psv.cells.map (·.1)).foldl (fun (t : State) i => t.restoreCell i) s.storeDropped).setFld F.PSV_STATUS_RESTORED 1) :=
    (State.Rests.foldl (fun _ i ht => ht.restoreCell i) _ (State.Rests.refl h).storeDropped).setFld _ _ (by decide)
  rw [State.restore_eq]
  generalize (((s.psv.cells.map (·.1)).foldl (fun (t : State) i => t.restoreCell i) s.storeDropped).setFld F.PSV_STATUS_RESTORED 1) = u at hc
  have hb := (hc.boots (fs := earlyFields)).setFld F.GLB_BOOT_STATUS_RESTORED 1
  have hr : (u.setFld F.GLB_BOOT_STATUS_RESTORED 1).Rests (u.setFld F.GLB_BOOT_STATUS_RESTORED 1) := .refl hc.2
  have hf : (u.setFld F.GLB_BOOT_STATUS_RESTORED 1).flag F.GLB_BOOT_STATUS_RESTORED = true := by
    rw [State.flag, State.fld_setFld_same _ _ _ (by decide) (by decide)]
    rfl
  generalize u.setFld F.GLB_BOOT_STATUS_RESTORED 1 = v at hb hr hf
  have hp := State.Rests.foldl (fun (t : State) p ht => ht.updCond p (fun c => { c with off := false })) persistentPages hr
  have hv := hp.refreshWear.loadLife.restoreCauses
  refine ⟨hb.trans hv.boots, ?_⟩
  rw [State.flag, State.status_of_outline hv.1 rfl]
  exact hf

theorem State.keepStore_eq : s.keepStore = ((persistentPages.foldl (fun (t : State) p => t.updPage p (fun h => { h with cond := {} }))
    ((s.setFld F.GLB_BOOT_STATUS_RESTORED 1).setFld F.PSV_STATUS_QUEUED 0)).refreshWear.loadLife).restoreCauses := by
  rw [State.keepStore]

theorem State.keepStore_boots (h : s.saf.inSafe = true) : State.Boots earlyFields s s.keepStore := by
  have h0 : State.Boots earlyFields s s := (State.Rests.refl h).boots
  have hs := h0.setFld F.GLB_BOOT_STATUS_RESTORED 1
  have hr : (s.setFld F.GLB_BOOT_STATUS_RESTORED 1).Rests (s.setFld F.GLB_BOOT_STATUS_RESTORED 1) := .refl h
  rw [State.keepStore_eq]
  generalize s.setFld F.GLB_BOOT_STATUS_RESTORED 1 = u at hs hr
  have hq := hr.setFld F.PSV_STATUS_QUEUED 0 (by decide)
  have hp := State.Rests.foldl (fun (t : State) p ht => ht.updPage p (fun h => { h with cond := {} })) persistentPages hq
  exact hs.trans hp.refreshWear.loadLife.restoreCauses.boots

/-! ### The two resets -/

/-- How a reset ends: of the state that it begins with, the outline and LAST_RESET stay, and BOOT_STATUS reads what the reset found. -/
structure State.ResetEnds (s t : State) (fuseOk : Bool) : Prop where
  outline : t.outline.1 = s.outline.1
  inSafe : t.saf.inSafe = true
  lastReset : t.fld F.GLB_BOOT_STATUS_LAST_RESET = s.fld F.GLB_BOOT_STATUS_LAST_RESET
  fwReady : t.fld F.GLB_BOOT_STATUS_FW_READY = s.fld F.GLB_BOOT_STATUS_FW_READY
  aonUp : t.flag F.GLB_BOOT_STATUS_AON_UP = true
  fuse : t.flag F.GLB_BOOT_STATUS_FUSE_OK = fuseOk

theorem State.Boots.mono {gs : List Field} {t : State} (h : State.Boots fs s t) (hg : ∀ f ∈ gs, f ∈ fs := by decide) : State.Boots gs s t :=
  ⟨h.1, h.2.1, fun f hf => h.2.2 f (hg f hf)⟩

theorem State.Boots.flag {t : State} (h : State.Boots fs s t) (f : Field) (hf : f ∈ fs := by decide) : t.flag f = s.flag f := by
  rw [State.flag, h.2.2 f hf, State.flag]

/-- The fuses are read, and what follows keeps what was found. -/
theorem State.resetEnds_of {t : State} (h : s.saf.inSafe = true) (hf : s.flag F.GLB_BOOT_STATUS_FUSE_OK = false) (ok : Bool)
    (ht : State.Boots earlyFields (s.readFuses ok) t) : s.ResetEnds t ok := by
  obtain ⟨hb, hup, hfuse⟩ := State.readFuses_boots h ok
  have hall := hb.trans (ht.mono (gs := [F.GLB_BOOT_STATUS_LAST_RESET, F.GLB_BOOT_STATUS_FW_READY]))
  exact ⟨hall.1, hall.2.1, hall.2.2 _ (by decide), hall.2.2 _ (by decide), (ht.flag _).trans hup, (ht.flag _).trans (hfuse hf)⟩

theorem State.takePins_bootStep (h : s.saf.inSafe = true) (pins : List Nat) (flash rom : Bool) (digA digB : List Nat) :
    State.Boots resetFields s ((s.takePins pins).bootStep flash rom digA digB) :=
  have hp := (State.Rests.refl h).takePins pins
  hp.boots.trans (State.bootStep_boots hp.2 ..)

/-- The counts that the part keeps over its life take one power-on more. -/
def State.powerOnCounted (s : State) : State := s.updPsv (fun p => { p with life := { p.life with powerOn := p.life.powerOn + 1 } })

/-- What a power-on reset begins with. -/
def State.powerOnState (s : State) (form cause : Nat) (dram : Dram) : State :=
  ((s.powerLoss form).blank.mount dram).setFld F.GLB_BOOT_STATUS_LAST_RESET cause

theorem State.powerOnReset_eq (cause : Nat) (fuse : Bool) (form : Nat) (flash rom : Bool) (digA digB : List Nat) (dram : Dram) :
    s.powerOnReset cause fuse form flash rom digA digB dram =
      (((s.powerOnState form cause dram).readFuses fuse).restore.powerOnCounted.takePins
        ((s.powerOnState form cause dram).readFuses fuse).restore.powerOnCounted.safePins).bootStep flash rom digA digB := rfl

theorem State.powerOnCounted_rests (h : s.saf.inSafe = true) : s.Rests s.powerOnCounted := (State.Rests.refl h).of_eq rfl rfl

theorem State.powerLoss_cycles (form : Nat) : (s.powerLoss form).cycles = s.cycles ∧ (s.powerLoss form).fuses = s.fuses := by
  unfold State.powerLoss
  dsimp only
  split
  · exact ⟨rfl, rfl⟩
  · split_ifs <;> exact ⟨rfl, rfl⟩

theorem State.powerOnState_status (form cause : Nat) (dram : Dram) (f : Field) (hf : f = F.GLB_BOOT_STATUS_FUSE_OK ∨ f = F.GLB_BOOT_STATUS_FW_READY) :
    (s.powerOnState form cause dram).fld f = 0 := by
  have hc : ((s.powerLoss form).blank.mount dram).cell R.GLB_BOOT_STATUS = 0 := by
    have hr : ((s.powerLoss form).blank.mount dram).regs = Sparse.drop (s.powerLoss form).regs (fun k => !nvmReg k) := rfl
    rw [State.cell, hr, Sparse.get_drop, if_pos (by decide)]
    decide
  rcases hf with rfl | rfl <;>
  · rw [State.powerOnState, State.fld_setFld_apart _ _ (by decide) (by decide) (by decide), State.fld]
    change getBits (State.cell _ R.GLB_BOOT_STATUS) _ _ = 0
    rw [hc]
    decide

theorem State.powerOnReset_ends (cause : Nat) (fuse : Bool) (form : Nat) (flash rom : Bool) (digA digB : List Nat) (dram : Dram) :
    (s.powerOnState form cause dram).ResetEnds (s.powerOnReset cause fuse form flash rom digA digB dram) fuse ∧
    (s.powerOnReset cause fuse form flash rom digA digB dram).flag F.GLB_BOOT_STATUS_RESTORED = true := by
  have hs : (s.powerOnState form cause dram).saf.inSafe = true := rfl
  have hf : (s.powerOnState form cause dram).flag F.GLB_BOOT_STATUS_FUSE_OK = false := by
    rw [State.flag, State.powerOnState_status _ _ _ _ (Or.inl rfl)]
    rfl
  rw [State.powerOnReset_eq]
  generalize s.powerOnState form cause dram = u at hs hf
  obtain ⟨hr, hrest⟩ := State.restore_boots (State.readFuses_boots hs fuse).1.2.1
  have hp := State.powerOnCounted_rests hr.2.1
  generalize (u.readFuses fuse).restore.powerOnCounted = v at hp
  have hb := State.takePins_bootStep hp.2 v.safePins flash rom digA digB
  refine ⟨State.resetEnds_of hs hf fuse ((hr.trans hp.boots).trans hb.mono), ?_⟩
  exact (hb.flag _).trans ((hp.boots.flag (fs := resetFields) _).trans hrest)

/-- What a device reset begins with. -/
def State.deviceState (s : State) : State :=
  ((s.blankDevice.keepSelfFault s).setFld F.GLB_BOOT_STATUS_LAST_RESET 3).setFld F.RST_RESET_CAUSE 1

theorem State.deviceReset_eq (hp : s.boot.resetPending = true) (hq : s.psv.queue = []) (fuse flash rom : Bool) (digA digB : List Nat) :
    s.deviceReset fuse flash rom digA digB = ((s.deviceState.readFuses fuse).keepStore.takePins
        (s.deviceState.readFuses fuse).keepStore.safePins).bootStep flash rom digA digB := by
  have hc : (s.boot.resetPending && s.psv.queue.isEmpty) = true := by rw [hp, hq]; rfl
  rw [State.deviceReset, if_pos hc]
  rfl

theorem State.blankDevice_keepSelfFault : s.blankDevice.Rests (s.blankDevice.keepSelfFault s) := by
  have h : s.blankDevice.Rests s.blankDevice := .refl rfl
  unfold State.keepSelfFault
  generalize s.blankDevice = u at h
  split_ifs
  · exact (h.updSaf (fun x => { x with selfFault := true, onlyPowerOn := false }) h.2).updCond _ _
  · exact h

theorem State.deviceState_outline : s.deviceState.outline.1 = s.blankDevice.outline.1 ∧ s.deviceState.saf.inSafe = true ∧
    s.deviceState.fld F.GLB_BOOT_STATUS_LAST_RESET = 3 ∧ s.deviceState.flag F.GLB_BOOT_STATUS_FUSE_OK = false := by
  have hk := s.blankDevice_keepSelfFault
  have hc : s.blankDevice.cell R.GLB_BOOT_STATUS = 0 := by
    have hr : s.blankDevice.regs = Sparse.drop s.regs (fun k => !deviceKeeps k) := rfl
    rw [State.cell, hr, Sparse.get_drop, if_pos (by decide)]
    decide
  have hf : s.blankDevice.fld F.GLB_BOOT_STATUS_FUSE_OK = 0 := by
    change getBits (s.blankDevice.cell R.GLB_BOOT_STATUS) _ _ = 0
    rw [hc]
    decide
  have hb : State.Boots [F.GLB_BOOT_STATUS_FUSE_OK] s.blankDevice s.deviceState :=
    (hk.boots.setFld F.GLB_BOOT_STATUS_LAST_RESET 3).setFld F.RST_RESET_CAUSE 1
  refine ⟨hb.1, hb.2.1, ?_, ?_⟩
  · rw [State.deviceState, State.fld_setFld_apart _ _ (by decide) (by decide) (by decide), State.fld_setFld_same _ _ _ (by decide) (by decide)]
    rfl
  · rw [hb.flag F.GLB_BOOT_STATUS_FUSE_OK, State.flag, hf]
    rfl

theorem State.deviceReset_ends (hp : s.boot.resetPending = true) (hq : s.psv.queue = []) (fuse flash rom : Bool) (digA digB : List Nat) :
    s.deviceState.ResetEnds (s.deviceReset fuse flash rom digA digB) fuse := by
  obtain ⟨-, hs, -, hf⟩ := s.deviceState_outline
  rw [State.deviceReset_eq hp hq]
  generalize s.deviceState = u at hs hf
  have hr := State.keepStore_boots (State.readFuses_boots hs fuse).1.2.1
  exact State.resetEnds_of hs hf fuse (hr.trans (State.takePins_bootStep hr.2.1 ..).mono)

section

variable {t : State} {ok : Bool} (h : s.ResetEnds t ok)
include h

theorem State.ResetEnds.mem : t.mem = s.mem := (congrArg State.mem h.outline :)
theorem State.ResetEnds.cycles : t.cycles = s.cycles := (congrArg State.cycles h.outline :)
theorem State.ResetEnds.timebase : t.timebase = s.timebase := (congrArg State.timebase h.outline :)
theorem State.ResetEnds.frm : t.frm = s.frm := (congrArg State.frm h.outline :)
theorem State.ResetEnds.boot : t.boot = s.boot := (congrArg State.boot h.outline :)
theorem State.ResetEnds.queue : t.psv.queue = s.psv.queue := (congrArg (fun u : State => u.psv.queue) h.outline :)
theorem State.ResetEnds.tiles : t.fuses.tiles = s.fuses.tiles := (congrArg (fun u : State => u.fuses.tiles) h.outline :)

end

end Sys2Proof.Machine
end

section
/-! PROOFS. The start-up rows: the test of the tiles, the training of the memory, and the checks. -/

namespace Sys2Proof.Machine

variable {s s₀ : State}

/-! ### Step 6 -/

theorem tileRegs_not_bootStatus (n : Nat) :
    R.TILE_TEST_STATUS n ≠ R.GLB_BOOT_STATUS ∧ R.TILE_TEST_PASS_CNT n ≠ R.GLB_BOOT_STATUS ∧ R.TILE_LAST_ERR n ≠ R.GLB_BOOT_STATUS := by
  simp only [R.TILE_TEST_STATUS, R.TILE_TEST_PASS_CNT, R.TILE_LAST_ERR, R.GLB_BOOT_STATUS]
  omega

/-- The withdrawal of a tile, after its own mark: what is recorded of it. -/
def State.withdrawalNoted (s : State) (n : Nat) : State :=
  let s := (s.setFld (F.TILE_TEST_STATUS_WITHDRAWN n) 1).setFld (F.TILE_TEST_STATUS_LAST n) 2
  let s := if n < 32 then s.setFld F.FRM_WITHDRAWN_LO_TILES (setBit (s.fld F.FRM_WITHDRAWN_LO_TILES) n)
    else s.setFld F.FRM_WITHDRAWN_HI_TILES (setBit (s.fld F.FRM_WITHDRAWN_HI_TILES) (n - 32))
  ((s.tileLastErr n 0x6021 0).error (tilePage n) 0x6021 (word n)).event 0x011 1

theorem State.withdrawTile_eq (n : Nat) : s.withdrawTile n = ((((s.updTile n (fun t => { t with withdrawn := true })).withdrawalNoted n).updCond 0x010
    (fun c => { c with fault := true })).pageFault (tilePage n) 0x6021).latch Cause.selftestFail 0x6021 := rfl

theorem State.Rests.withdrawalNoted (h : s₀.Rests s) (n : Nat) : s₀.Rests (s.withdrawalNoted n) := by
  obtain ⟨hs, -, hl⟩ := tileRegs_not_bootStatus n
  have hm := (h.setFld (F.TILE_TEST_STATUS_WITHDRAWN n) 1 hs).setFld (F.TILE_TEST_STATUS_LAST n) 2 hs
  unfold State.withdrawalNoted
  dsimp only
  split
  · exact ((((hm.setFld _ _ (by decide)).setFld _ _ hl).setFld _ _ hl).error ..).event ..
  · exact ((((hm.setFld _ _ (by decide)).setFld _ _ hl).setFld _ _ hl).error ..).event ..

theorem State.Rests.withdrawTile (h : s.saf.inSafe = true) (n : Nat) :
    (s.updTile n (fun t => { t with withdrawn := true })).Rests (s.withdrawTile n) := by
  have h0 : (s.updTile n (fun t => { t with withdrawn := true })).Rests (s.updTile n (fun t => { t with withdrawn := true })) := .refl h
  rw [State.withdrawTile_eq]
  exact (((h0.withdrawalNoted n).updCond ..).pageFault ..).latch ..

/-- The events of a tile's test. -/
def State.testNoted (s : State) (n : Nat) : State := (s.event (tilePage n) 3).event 0x011 0

theorem State.startupTest_failed {failed : List Nat} {n : Nat} (h : failed.contains n = true) :
    s.startupTest failed n = (s.testNoted n).withdrawTile n := if_pos h

/-- What the first pass of a tile's test leaves. -/
def State.testPassed (s : State) (n : Nat) : State := (s.setFld (F.TILE_TEST_STATUS_LAST n) 1).bump (F.TILE_TEST_PASS_CNT n)

theorem State.startupTest_passed {failed : List Nat} {n : Nat} (h : ¬ failed.contains n = true) : s.startupTest failed n =
    ((((s.testNoted n).testPassed n).updTile n (fun t => { t with passAt := (s.testNoted n).cycles, overdue := 0 })).updTile n
      (fun t => { t with withdrawn := false })).setFld (F.TILE_TEST_STATUS_WITHDRAWN n) 0 := by
  rw [State.startupTest, if_neg h, State.testResult, if_pos rfl]
  rfl

theorem State.Rests.testNoted (h : s₀.Rests s) (n : Nat) : s₀.Rests (s.testNoted n) := (h.event ..).event ..

theorem State.startupTest_leaves (h : s.saf.inSafe = true) (failed : List Nat) (n : Nat) :
    (s.startupTest failed n).mem = s.mem ∧ (s.startupTest failed n).saf.inSafe = true ∧
    ∀ m, ((s.startupTest failed n).tile m).withdrawn = if m = n then failed.contains n else (s.tile m).withdrawn := by
  have hn := (State.Rests.refl h).testNoted n
  by_cases hf : failed.contains n = true
  · rw [State.startupTest_failed hf]
    have hw := State.Rests.withdrawTile hn.2 n
    refine ⟨(State.mem_of_outline hw.1).trans ((State.updTile_mem ..).trans (State.mem_of_outline hn.1)), hw.2, fun m => ?_⟩
    rw [State.tile_of_outline hw.1, State.tile_updTile, State.tile_of_outline hn.1, State.tile_of_outline hn.1, hf]
    split_ifs <;> rfl
  · rw [State.startupTest_passed hf]
    obtain ⟨hs, hp, -⟩ := tileRegs_not_bootStatus n
    have ht : s.Rests ((s.testNoted n).testPassed n) := (hn.setFld (F.TILE_TEST_STATUS_LAST n) 1 hs).bump (F.TILE_TEST_PASS_CNT n) hp
    generalize (s.testNoted n).testPassed n = u at ht
    refine ⟨?_, ht.2, fun m => ?_⟩
    · rw [State.mem_of_outline (State.outline_setFld _ _ _ hs), State.updTile_mem, State.updTile_mem, State.mem_of_outline ht.1]
    rw [State.tile_of_outline (State.outline_setFld _ _ _ hs), State.tile_updTile, State.tile_updTile, State.tile_updTile,
      State.tile_of_outline ht.1, State.tile_of_outline ht.1, Bool.eq_false_of_not_eq_true hf]
    split_ifs <;> rfl

theorem State.foldl_startupTest (failed l : List Nat) (h : s.saf.inSafe = true) :
    (l.foldl (fun (t : State) n => t.startupTest failed n) s).mem = s.mem ∧
    ∀ m, ((l.foldl (fun (t : State) n => t.startupTest failed n) s).tile m).withdrawn = if m ∈ l then failed.contains m else (s.tile m).withdrawn := by
  induction l generalizing s with
  | nil => exact ⟨rfl, fun _ => rfl⟩
  | cons n l ih =>
    obtain ⟨hm, hs, ht⟩ := State.startupTest_leaves h failed n
    obtain ⟨him, hit⟩ := ih hs
    refine ⟨him.trans hm, fun m => ?_⟩
    rw [List.foldl_cons, hit, ht]
    by_cases hml : m ∈ l
    · simp [hml]
    · by_cases hmn : m = n <;> simp [hml, hmn]

/-- The Cellar as step 6 leaves it: every word holds zero. -/
def MemState.cellarCleared (m : MemState) : MemState :=
  { m with cellar := [], cellarPoison := [], cellarLoss := [], upsets := m.upsets.filter (fun x => !x.cellar) }

theorem State.tilesTested_due (failed : List Nat) (hf : s.flag F.GLB_BOOT_STATUS_FW_READY = true) (ht : s.flag F.GLB_BOOT_STATUS_TILES_TESTED = false) :
    s.tilesTested failed = (s.enabledTiles.foldl (fun (t : State) n => t.startupTest failed n) (s.updMem MemState.cellarCleared)).setFld
      F.GLB_BOOT_STATUS_TILES_TESTED 1 := by
  rw [State.tilesTested, if_pos (by rw [hf, ht]; rfl)]
  rfl

theorem State.tilesTested_not_due (failed : List Nat) (h : ¬(s.flag F.GLB_BOOT_STATUS_FW_READY = true ∧ s.flag F.GLB_BOOT_STATUS_TILES_TESTED = false)) :
    s.tilesTested failed = s := if_neg (by simpa using h)

theorem State.tilesTested_ends (failed : List Nat) (hf : s.flag F.GLB_BOOT_STATUS_FW_READY = true) (ht : s.flag F.GLB_BOOT_STATUS_TILES_TESTED = false)
    (h : s.saf.inSafe = true) : (s.tilesTested failed).flag F.GLB_BOOT_STATUS_TILES_TESTED = true ∧ (s.tilesTested failed).mem = s.mem.cellarCleared ∧
    ∀ n ∈ s.enabledTiles, ((s.tilesTested failed).tile n).withdrawn = failed.contains n := by
  have hl := State.foldl_startupTest (s := s.updMem MemState.cellarCleared) failed s.enabledTiles h
  rw [State.tilesTested_due failed hf ht]
  generalize s.enabledTiles.foldl (fun (t : State) n => t.startupTest failed n) (s.updMem MemState.cellarCleared) = u at hl
  refine ⟨?_, hl.1, fun n hn => (hl.2 n).trans (if_pos hn)⟩
  rw [State.flag, State.fld_setFld_same _ _ _ (by decide) (by decide)]
  rfl

/-! ### Step 7 -/

/-- The result buffers' window of BAR 4 is no place of DRAM, however large the memory is. -/
theorem State.home_window (hs : s.mem.shardBase4M < 2048) {d : Nat} (hl : 0x001006000000 ≤ d) (hh : d < 0x001008000000) :
    (∃ x, s.home d = .mailbox x) ∨ (∃ x, s.home d = .result x) := by
  unfold State.home
  split
  case h_1 x _ => exact Or.inl ⟨x, rfl⟩
  case h_2 =>
    have hw : ¬ d - 0x001000000000 < 0x6000000 := by omega
    have ht : ¬ d < s.dramTop := by
      simp only [State.dramTop, State.shardBase]
      omega
    rw [if_neg (by omega), if_neg (by omega), if_neg ht, if_neg (by omega), if_pos (by omega), State.windowHome, if_neg hw]
    exact Or.inr ⟨_, rfl⟩

theorem State.pokeByte_window (hs : s.mem.shardBase4M < 2048) {d : Nat} (hl : 0x001006000000 ≤ d) (hh : d < 0x001008000000) (b : Byte) :
    (s.pokeByte true d b).mem.dram = s.mem.dram ∧ (s.pokeByte true d b).mem.shardBase4M = s.mem.shardBase4M := by
  unfold State.pokeByte
  rcases State.home_window hs hl hh with ⟨x, hx⟩ | ⟨x, hx⟩ <;>
  · rw [hx]
    exact ⟨rfl, rfl⟩

theorem State.poke_window (bs : List Byte) (hs : s.mem.shardBase4M < 2048) {d : Nat} (hl : 0x001006000000 ≤ d) (hh : d + bs.length ≤ 0x001008000000) :
    (s.poke true d bs).mem.dram = s.mem.dram ∧ (s.poke true d bs).mem.shardBase4M = s.mem.shardBase4M := by
  induction bs generalizing s d with
  | nil => exact ⟨rfl, rfl⟩
  | cons b t ih =>
    rw [List.length_cons] at hh
    obtain ⟨hd, hb⟩ := State.pokeByte_window hs hl (by omega) b
    obtain ⟨hid, hib⟩ := ih (hb.symm ▸ hs) (d := d + 1) (by omega) (by omega)
    exact ⟨hid.trans hd, hib.trans hb⟩

theorem State.initMemory_dram (hs : s.mem.shardBase4M < 2048) : s.initMemory.mem.dram = if s.boot.initDram then [] else s.mem.dram := by
  unfold State.initMemory
  split_ifs
  · rfl
  · obtain ⟨hd, hb⟩ := State.poke_window (d := resultAddr 0 0) (List.replicate 64 0) hs (by decide) (by decide)
    exact (State.poke_window (d := resultAddr 1 0) (List.replicate 64 0) (hb.symm ▸ hs) (by decide) (by decide)).1.trans hd

/-- The memory as the training of its channels leaves it. -/
def MemState.trainedAt (m : MemState) (rates bad : List Nat) : MemState := { m with rates := rates, failed := bad, statusReset := [] }

theorem State.Rests.trainFail (h : s₀.Rests s) (c : Nat) : s₀.Rests (s.trainFail c) := (h.error ..).pageFault ..

theorem State.trained_mem (failed rates : List Nat) (h : failed = [] ∨ s.saf.inSafe = true) :
    ((s.updMem (fun m => { m with rates := rates })).trained failed).mem =
      s.mem.trainedAt rates ((List.range 8).filter (fun c => failed.contains c)) := by
  unfold State.trained
  dsimp only
  generalize hb : (List.range 8).filter (fun c => failed.contains c) = bad
  have hm : ((s.updMem (fun m => { m with rates := rates })).updMem (fun m => { m with failed := bad, statusReset := [] })).mem =
    s.mem.trainedAt rates bad := rfl
  have hsafe : bad = [] ∨ ((s.updMem (fun m => { m with rates := rates })).updMem
      (fun m => { m with failed := bad, statusReset := [] })).saf.inSafe = true :=
    h.imp (fun he => by rw [← hb, he]; decide) id
  rw [← hm]
  generalize (s.updMem (fun m => { m with rates := rates })).updMem (fun m => { m with failed := bad, statusReset := [] }) = u at hsafe
  rcases hsafe with rfl | hu
  · rfl
  · exact State.mem_of_outline (State.Rests.foldl (fun _ c ht => ht.trainFail c) bad (State.Rests.refl hu)).1

theorem State.memReady_due (failed rates : List Nat) (hr : s.flag F.GLB_BOOT_STATUS_FW_READY = true ∨ s.romRecovery = true)
    (hm : s.flag F.GLB_BOOT_STATUS_MEM_READY = false) : s.memReady failed rates =
      ((s.initMemory.updMem (fun m => { m with rates := rates })).trained failed).setFld F.GLB_BOOT_STATUS_MEM_READY 1 :=
  if_pos (by simpa [hm] using hr)

theorem State.memReady_not_due (failed rates : List Nat)
    (h : ¬((s.flag F.GLB_BOOT_STATUS_FW_READY = true ∨ s.romRecovery = true) ∧ s.flag F.GLB_BOOT_STATUS_MEM_READY = false)) :
    s.memReady failed rates = s := if_neg (by simpa using h)

theorem State.initMemory_saf : s.initMemory.saf = s.saf := by
  have hp : ∀ (bs : List Byte) (d : Nat) (t : State), (t.poke true d bs).saf = t.saf := by
    intro bs
    induction bs with
    | nil => exact fun _ _ => rfl
    | cons b l ih => exact fun d t => (ih (d + 1) (t.pokeByte true d b)).trans (by unfold State.pokeByte; split <;> rfl)
  unfold State.initMemory
  split_ifs
  · rfl
  · exact (hp _ _ _).trans (hp _ _ _)

theorem State.memReady_ends (failed rates : List Nat) (hr : s.flag F.GLB_BOOT_STATUS_FW_READY = true ∨ s.romRecovery = true)
    (hm : s.flag F.GLB_BOOT_STATUS_MEM_READY = false) (h : failed = [] ∨ s.saf.inSafe = true) :
    (s.memReady failed rates).flag F.GLB_BOOT_STATUS_MEM_READY = true ∧ (s.memReady failed rates).mem =
      s.initMemory.mem.trainedAt rates ((List.range 8).filter (fun c => failed.contains c)) := by
  rw [State.memReady_due failed rates hr hm]
  have ht := State.trained_mem (s := s.initMemory) failed rates (by rwa [State.initMemory_saf])
  generalize (s.initMemory.updMem (fun m => { m with rates := rates })).trained failed = u at ht
  refine ⟨?_, ht⟩
  rw [State.flag, State.fld_setFld_same _ _ _ (by decide) (by decide)]
  rfl

/-! ### Bits of a set of causes -/

theorem bitOf_testBit (n b : Nat) : bitOf n b = n.testBit b := by
  rw [bitOf, Nat.testBit_eq_decide_div_mod_eq, Nat.shiftRight_eq_div_pow]
  exact (Bool.beq_eq_decide_eq _ _)

theorem testBit_sub_two_pow {n b : Nat} (h : n.testBit b = true) (i : Nat) :
    (n - 2 ^ b).testBit i = if i = b then false else n.testBit i := by
  obtain ⟨k, rfl⟩ := Nat.exists_eq_add_of_le (Nat.ge_two_pow_of_testBit h)
  rw [Nat.testBit_two_pow_add_eq, Bool.not_eq_true'] at h
  rw [Nat.add_sub_cancel_left]
  rcases Nat.lt_trichotomy i b with hi | rfl | hi
  · rw [if_neg (by omega), Nat.testBit_two_pow_add_gt hi]
  · rw [if_pos rfl, h]
  · obtain ⟨d, rfl⟩ := Nat.exists_eq_add_of_lt hi
    have hk : k / 2 ^ b % 2 = 0 := by simpa [Nat.testBit_eq_decide_div_mod_eq] using h
    have hq : (2 ^ b + k) / 2 ^ b = k / 2 ^ b + 1 := by rw [Nat.add_comm, Nat.add_div_right _ (Nat.two_pow_pos b)]
    have hp : ∀ m : Nat, m / 2 ^ (b + d + 1) = m / 2 ^ b / 2 / 2 ^ d := fun m => by
      rw [Nat.div_div_eq_div_mul, Nat.div_div_eq_div_mul]
      congr 1
      ring
    rw [if_neg (by omega), Nat.testBit_eq_decide_div_mod_eq, Nat.testBit_eq_decide_div_mod_eq, hp, hp, hq]
    have he : (k / 2 ^ b + 1) / 2 = k / 2 ^ b / 2 := by omega
    rw [he]

theorem bitOf_clrBit (n b i : Nat) : bitOf (clrBit n b) i = if i = b then false else bitOf n i := by
  rw [clrBit, bitOf_testBit, bitOf_testBit, bitOf_testBit]
  by_cases h : n.testBit b = true
  · rw [if_pos h, testBit_sub_two_pow h]
  · rw [if_neg h]
    split_ifs with hi
    · rw [hi, Bool.eq_false_of_not_eq_true h]
    · rfl

/-! ### Step 8 -/

/-- What a release of the safe state leaves as it is: the outline, and the causes that are active. -/
def State.awake (s : State) : (State × Word) × Nat := (s.outline, s.saf.active)

theorem State.awake_of {t : State} (ho : t.outline = s.outline) (ha : t.saf = s.saf) : t.awake = s.awake :=
  Prod.ext ho (congrArg Saf.active ha)

variable (s)

@[simp] theorem State.awake_setFld (f : Field) (v : Nat) (h : f.reg ≠ R.GLB_BOOT_STATUS) : (s.setFld f v).awake = s.awake :=
  State.awake_of (s.outline_setFld f v h) rfl
@[simp] theorem State.awake_event (p b : Nat) : (s.event p b).awake = s.awake := State.awake_of (s.outline_event p b) (s.saf_event p b)
@[simp] theorem State.awake_error (p code : Nat) (info : Word) : (s.error p code info).awake = s.awake :=
  State.awake_of (s.outline_error p code info) (s.saf_error p code info)
@[simp] theorem State.awake_updCond (p : Nat) (f : Cond → Cond) : (s.updCond p f).awake = s.awake :=
  State.awake_of (s.outline_updCond p f) (s.saf_updCond p f)
@[simp] theorem State.awake_updPwr (f : Pwr → Pwr) : (s.updPwr f).awake = s.awake := rfl
theorem State.awake_setCell {k : Nat} (v : Word) (h : k ≠ R.GLB_BOOT_STATUS) : (s.setCell k v).awake = s.awake :=
  State.awake_of (s.outline_setCell k v h) rfl
theorem State.awake_updHif (f : Hif → Hif) : (s.updHif f).awake = s.awake := rfl

@[simp] theorem State.awake_signal (fn v : Nat) : (s.signal fn v).awake = s.awake := by
  unfold State.signal
  split_ifs
  · exact s.awake_updHif _
  · exact s.awake_setCell _ (by decide)
  · exact s.awake_updHif _
  · rfl
  · exact s.awake_updHif _

@[simp] theorem State.awake_signalVfs (v : Nat) : (s.signalVfs v).awake = s.awake :=
  foldl_leaves State.awake (fun t n => t.awake_signal n v) _ _

@[simp] theorem State.awake_frmRelease : s.frmRelease.awake = s.awake := by
  unfold State.frmRelease
  split_ifs <;> rfl

/-- Pins go back from SAF to the page that has them. -/
def State.freePins (s : State) (back : List Nat) : State :=
  { s with
    held := (s.held.filter (fun (x : Nat × Nat) => !(back.any (fun g => pinRes g == x.1))))
      ++ (back.filter (fun g => bitOf (s.fld F.GLB_GPIO_OE) g)).map (fun g => (pinRes g, 0x002)),
    gpio := { s.gpio with held := back.foldl clrBit s.gpio.held } }

theorem State.returnPins_eq (pins : List Nat) : s.returnPins pins =
    if pins.filter (fun g => bitOf s.gpio.held g) = [] then s
    else if (s.freePins (pins.filter (fun g => bitOf s.gpio.held g))).gpio.held = 0 then
      ((s.freePins (pins.filter (fun g => bitOf s.gpio.held g))).updCond 0x002 (fun c => { c with waiting := false })).event 0x002 1
    else s.freePins (pins.filter (fun g => bitOf s.gpio.held g)) := rfl

@[simp] theorem State.awake_freePins (back : List Nat) : (s.freePins back).awake = s.awake := rfl

@[simp] theorem State.awake_returnPins (pins : List Nat) : (s.returnPins pins).awake = s.awake := by
  rw [State.returnPins_eq]
  split_ifs <;> simp

@[simp] theorem State.awake_leaveSafe : s.leaveSafe.awake = s.awake := by
  unfold State.leaveSafe
  dsimp only
  rw [State.awake_signalVfs, State.awake_returnPins, State.awake_frmRelease, foldl_leaves State.awake (fun t p => t.awake_updCond p _)]
  rfl

@[simp] theorem State.awake_applyCore : s.applyCore.awake = s.awake := by
  unfold State.applyCore
  dsimp only
  split_ifs <;> simp +decide

@[simp] theorem State.awake_releaseRefused : s.releaseRefused.awake = s.awake := by
  unfold State.releaseRefused
  rw [State.awake_setFld _ _ _ (by decide), State.awake_setFld _ _ _ (by decide), State.awake_error]

@[simp] theorem State.awake_noteRelease (c : Option Nat) : (s.updSaf (fun x => { x with releasedAt := c })).awake = s.awake := rfl

@[simp] theorem State.awake_released : s.released.awake = s.awake := by
  unfold State.released
  have h0 : ((s.setFld F.SAF_REQ_RESULT_PENDING 0).setFld F.SAF_REQ_RESULT_CODE 0).awake = s.awake := by
    rw [State.awake_setFld _ _ _ (by decide), State.awake_setFld _ _ _ (by decide)]
  generalize (s.setFld F.SAF_REQ_RESULT_PENDING 0).setFld F.SAF_REQ_RESULT_CODE 0 = u at h0
  dsimp only
  split_ifs
  · rw [State.awake_applyCore, State.awake_updPwr, State.awake_noteRelease, State.awake_leaveSafe, h0]
  · exact h0

@[simp] theorem State.awake_serveRelease : s.serveRelease.awake = s.awake := by
  unfold State.serveRelease
  dsimp only
  split_ifs <;> simp

@[simp] theorem State.awake_coreFreqChange : s.coreFreqChange.awake = s.awake := by
  unfold State.coreFreqChange
  split_ifs <;> simp

/-- The power-on cause is over, before the core's clock and the release follow. -/
def State.powerOnOver (s : State) : State :=
  let s := ((s.setFld F.GLB_BOOT_STATUS_FAIL_STEP 0).setFld F.GLB_BOOT_STATUS_CHECKS_DONE 1).setFld F.GLB_BOOT_MS ((s.cycles - s.boot.t0) / msCycles 1)
  (s.updSaf (fun x => { x with active := clrBit x.active 0 })).updPage 0x160 (fun h => { h with eventRaw := h.eventRaw &&& ~~~1 })

theorem State.checksPass_eq : s.checksPass = s.powerOnOver.coreFreqChange.serveRelease := rfl

theorem State.powerOnOver_reads : s.powerOnOver.flag F.GLB_BOOT_STATUS_CHECKS_DONE = true ∧ s.powerOnOver.fld F.GLB_BOOT_STATUS_FAIL_STEP = 0 ∧
    bitOf s.powerOnOver.saf.active 0 = false ∧ s.powerOnOver.mem = s.mem := by
  unfold State.powerOnOver
  dsimp only
  refine ⟨?_, ?_, ?_, ?_⟩
  · rw [State.flag, State.status_of_outline (State.outline_updPage _ _ _) rfl, State.status_of_outline (State.outline_updSaf _ _) rfl,
      State.fld_setFld_other _ _ (by decide), State.fld_setFld_same _ _ _ (by decide) (by decide)]
    rfl
  · rw [State.status_of_outline (State.outline_updPage _ _ _) rfl, State.status_of_outline (State.outline_updSaf _ _) rfl,
      State.fld_setFld_other _ _ (by decide), State.fld_setFld_apart _ _ (by decide) (by decide) (by decide),
      State.fld_setFld_same _ _ _ (by decide) (by decide)]
    rfl
  · rw [State.saf_of_inner (State.updPage_inner _ _ _), State.updSaf_saf, bitOf_clrBit, if_pos rfl]
  · rw [State.mem_updPage, State.updSaf_mem, State.setFld_mem, State.setFld_mem, State.setFld_mem]

theorem State.checksPass_ends : s.checksPass.flag F.GLB_BOOT_STATUS_CHECKS_DONE = true ∧ s.checksPass.fld F.GLB_BOOT_STATUS_FAIL_STEP = 0 ∧
    bitOf s.checksPass.saf.active 0 = false ∧ s.checksPass.mem = s.mem := by
  have h : s.checksPass.awake = s.powerOnOver.awake := by rw [State.checksPass_eq, State.awake_serveRelease, State.awake_coreFreqChange]
  have ho := congrArg Prod.fst h
  obtain ⟨hd, hf, hb, hm⟩ := s.powerOnOver_reads
  refine ⟨?_, (State.status_of_outline ho rfl).trans hf, ?_, (State.mem_of_outline ho).trans hm⟩
  · rw [State.flag, State.status_of_outline ho rfl]
    exact hd
  · exact (congrArg (fun a => bitOf a 0) (congrArg Prod.snd h)).trans hb

theorem State.startupChecks_due (hd : s.flag F.GLB_BOOT_STATUS_CHECKS_DONE = false)
    (h : (s.flag F.GLB_BOOT_STATUS_TILES_TESTED = true ∧ s.flag F.GLB_BOOT_STATUS_MEM_READY = true) ∨ s.flag F.GLB_BOOT_STATUS_SLOT_CHOSEN = false) :
    s.startupChecks = if s.failStep = 0 then s.checksPass else s.setFld F.GLB_BOOT_STATUS_FAIL_STEP s.failStep :=
  if_pos (by simpa [hd] using h)

theorem State.startupChecks_not_due (h : ¬(s.flag F.GLB_BOOT_STATUS_CHECKS_DONE = false ∧ ((s.flag F.GLB_BOOT_STATUS_TILES_TESTED = true ∧
    s.flag F.GLB_BOOT_STATUS_MEM_READY = true) ∨ s.flag F.GLB_BOOT_STATUS_SLOT_CHOSEN = false))) : s.startupChecks = s :=
  if_neg (by simpa using h)

end Sys2Proof.Machine
end

section
/-! PROOFS. The host's writes that reach the Cellar, and those of the pins, of RESET_CTL and of VF Enable. -/

namespace Sys2Proof.Machine

variable {s : State}

/-! ### Bytes of a store -/

theorem Mem.writeAt_take_drop (z : Nat → Byte) (m : Mem) (k n : Nat) (bs : List Byte) :
    Mem.writeAt z (Mem.writeAt z m k (bs.take n)) (k + n) (bs.drop n) = Mem.writeAt z m k bs := by
  induction bs generalizing m k n with
  | nil => simp [Mem.writeAt]
  | cons b t ih =>
    cases n with
    | zero => rfl
    | succ n =>
      rw [List.take_succ_cons, List.drop_succ_cons, Mem.writeAt, Mem.writeAt, ← ih, Nat.add_assoc, Nat.add_comm 1 n]

theorem Mem.get_writeAt (z : Nat → Byte) (m : Mem) (k : Nat) (bs : List Byte) (j : Nat) :
    Sparse.get z (Mem.writeAt z m k bs) j = (if k ≤ j then bs[j - k]? else none).getD (Sparse.get z m j) := by
  induction bs generalizing m k with
  | nil => simp [Mem.writeAt]
  | cons b t ih =>
    rw [Mem.writeAt, ih, Sparse.get_set]
    rcases Nat.lt_trichotomy k j with h | rfl | h
    · obtain ⟨i, rfl⟩ := Nat.exists_eq_add_of_lt h
      have he : k + i + 1 - k = i + 1 := by omega
      have hi : k + i + 1 - (k + 1) = i := by omega
      have h1 : k + 1 ≤ k + i + 1 := by omega
      have h2 : k + i + 1 ≠ k := by omega
      have h3 : k ≤ k + i + 1 := by omega
      rw [if_pos h1, if_neg h2, if_pos h3, he, hi, List.getElem?_cons_succ]
    · rw [if_neg (by omega), if_pos rfl, if_pos (Nat.le_refl _), Nat.sub_self]
      rfl
    · rw [if_neg (by omega), if_neg (by omega), if_neg (by omega)]

/-! ### The Cellar in the address map -/

/-- What an address of the Cellar's window is: in DRAM's reach no more, in no mailbox area, and of a tile that is present. -/
theorem State.home_cellar {e t off : Nat} : s.home e = .cellar t off ↔ s.areaOff e = none ∧ s.dramTop ≤ e ∧ 0x001000000000 ≤ e ∧ e < 0x001006000000 ∧
    s.tilePresent ((e - 0x001000000000) / 0x180000) = true ∧ t = (e - 0x001000000000) / 0x180000 ∧ off = (e - 0x001000000000) % 0x180000 := by
  unfold State.home State.windowHome
  cases ha : s.areaOff e with
  | some x => simp
  | none =>
    dsimp only
    by_cases hw : s.dramTop ≤ e ∧ 0x001000000000 ≤ e ∧ e < 0x001006000000
    · rw [if_neg (by omega), if_neg (by omega), if_neg (by omega), if_neg (by omega), if_pos (by omega), if_pos (by omega)]
      split_ifs with hp
      · simp [hp, hw, eq_comm]
      · simp [hp]
    · refine ⟨fun h => absurd h ?_, fun h => absurd ⟨h.2.1, h.2.2.1, h.2.2.2.1⟩ hw⟩
      split_ifs <;> simp
      omega

/-- The addresses of one line are alike in this. -/
theorem State.home_cellar_line {d e t off : Nat} (h : s.home d = .cellar t off) (hl : e / 64 = d / 64) :
    s.home e = .cellar ((e - 0x001000000000) / 0x180000) ((e - 0x001000000000) % 0x180000) := by
  obtain ⟨ha, ht, hlo, hhi, hp, -, -⟩ := State.home_cellar.mp h
  have he : (e - 0x001000000000) / 0x180000 = (d - 0x001000000000) / 0x180000 := by omega
  refine State.home_cellar.mpr ⟨?_, ?_, by omega, by omega, by rw [he]; exact hp, rfl, rfl⟩
  · simp only [State.areaOff] at ha ⊢
    generalize s.fld F.MBX_AREA_LO_ADDR = lo at ha ⊢
    generalize s.fld F.MBX_AREA_HI_ADDR = hi at ha ⊢
    cases hf : s.flag F.MBX_CFG_AREA_EN with
    | false => rfl
    | true =>
      rw [hf, Bool.true_and] at ha
      rw [Bool.true_and]
      refine if_neg fun hc => ?_
      have hn : ¬((Nat.ble (lo * 2 ^ 15 + hi * 2 ^ 32) d && Nat.blt d (lo * 2 ^ 15 + hi * 2 ^ 32 + 0x8000)) = true) := fun hd => by
        rw [if_pos hd] at ha
        exact absurd ha (by simp)
      simp only [Bool.and_eq_true, Nat.ble_eq, Nat.blt_eq] at hc hn
      omega
  · simp only [State.dramTop, State.shardBase] at ht ⊢
    omega

/-! ### A write of the Cellar -/

/-- The Cellar's bytes and its marks are as given. -/
def State.cellarPut (s : State) (c : Mem) (p : Sparse Bool) : State := s.updMem (fun m => { m with cellar := c, cellarPoison := p })

theorem State.home_cellarPut (c : Mem) (p : Sparse Bool) (d : Nat) : (s.cellarPut c p).home d = s.home d := rfl

theorem State.writeUnit_cellar {d t off : Nat} (h : s.home d = .cellar t off) (hu : s.mem.upsets = []) (bs : List Byte) :
    ∃ p, s.writeUnit false d bs false = s.cellarPut (Mem.writeAt (cellarByte0 s.mem.cellarLoss) s.mem.cellar (d - 0x001000000000) bs) p := by
  obtain ⟨-, -, -, -, -, ht, ho⟩ := State.home_cellar.mp h
  have hk : cellarKey t off = d - 0x001000000000 := by
    rw [cellarKey, ht, ho]
    omega
  have hmend : ∀ u, s.mendUnit true u = s := fun u => by rw [State.mendUnit, hu]; rfl
  have hmeet : ∀ o, (s.meetWord t o).2 = s := fun o => by
    have hn : s.upsetIn true (cellarKey t o / 8) = none := by rw [State.upsetIn, hu]; rfl
    rw [State.meetWord, hn]
  have hsame : (if bs.length = 8 then s.mendUnit true (cellarKey t off / 8) else (s.meetWord t (off / 8 * 8)).2) = s := by
    split_ifs
    · exact hmend _
    · exact hmeet _
  refine ⟨Sparse.set noMark s.mem.cellarPoison ((d - 0x001000000000) / 8)
    (markAfter (Sparse.get noMark s.mem.cellarPoison ((d - 0x001000000000) / 8)) false bs.length 8), ?_⟩
  rw [State.writeUnit, h]
  dsimp only
  rw [State.localUnit, h]
  dsimp only
  rw [hsame, hk]
  rfl

theorem State.unitAt_cellar {d t off : Nat} (h : s.home d = .cellar t off) : s.unitAt d 1 = 8 := by
  rw [State.unitAt, State.localUnitAt, h]
  exact if_neg Home.noConfusion

theorem State.writeFuel_cellar (fuel : Nat) (s : State) (d : Nat) (bs : List Byte) (hf : bs.length ≤ fuel) (hu : s.mem.upsets = [])
    (hh : ∀ e, d ≤ e → e < d + bs.length → ∃ t off, s.home e = .cellar t off) : ∃ p, State.writeFuel false false fuel s d bs =
      s.cellarPut (Mem.writeAt (cellarByte0 s.mem.cellarLoss) s.mem.cellar (d - 0x001000000000) bs) p := by
  induction fuel generalizing s d bs with
  | zero =>
    have hb : bs = [] := List.eq_nil_of_length_eq_zero (Nat.le_zero.mp hf)
    rw [hb]
    exact ⟨s.mem.cellarPoison, rfl⟩
  | succ f ih =>
    rcases bs with _ | ⟨b, l⟩
    · exact ⟨s.mem.cellarPoison, rfl⟩
    · obtain ⟨t, off, hd⟩ := hh d (Nat.le_refl d) (by simp)
      have hlo := (State.home_cellar.mp hd).2.2.1
      unfold State.writeFuel
      rw [State.unitAt_cellar hd]
      dsimp only
      generalize hn : 8 - d % 8 = n
      generalize hbs : b :: l = bs at hf hh
      have hlen : (bs.drop n).length ≤ f := by
        rw [List.length_drop]
        omega
      obtain ⟨p, hp⟩ := State.writeUnit_cellar hd hu (bs.take n)
      rw [hp]
      generalize hc : Mem.writeAt (cellarByte0 s.mem.cellarLoss) s.mem.cellar (d - 0x001000000000) (bs.take n) = c
      have hrest : ∀ e, d + n ≤ e → e < d + n + (bs.drop n).length → ∃ t off, (s.cellarPut c p).home e = .cellar t off := fun e h1 h2 => by
        rw [List.length_drop] at h2
        exact hh e (by omega) (by omega)
      obtain ⟨q, hq⟩ := ih (s.cellarPut c p) (d + n) (bs.drop n) hlen hu hrest
      have hk : d + n - 0x001000000000 = d - 0x001000000000 + n := by omega
      have hw := Mem.writeAt_take_drop (cellarByte0 s.mem.cellarLoss) s.mem.cellar (d - 0x001000000000) n bs
      rw [hc] at hw
      rw [hq, hk]
      exact ⟨q, by rw [← hw]; rfl⟩

theorem State.flushRange_cellar {d t off n : Nat} (h : s.home d = .cellar t off) (hn : inLine d n = true) : s.flushRange d n = s := by
  have hr : (d % 64 + n + 63) / 64 = 1 := by
    simp only [inLine, Bool.and_eq_true, Nat.ble_eq] at hn
    omega
  have hl := State.home_cellar_line h (e := d / 64 * 64) (by omega)
  unfold State.flushRange
  rw [hr]
  split_ifs
  · rfl
  · simp [hl]

/-- A write within one line of the Cellar: the bytes are stored, and nothing else but their marks changes. -/
theorem State.write_cellar {d t off : Nat} (h : s.home d = .cellar t off) (hu : s.mem.upsets = []) {bs : List Byte} (hn : inLine d bs.length = true) :
    ∃ p, s.write d bs = s.cellarPut (Mem.writeAt (cellarByte0 s.mem.cellarLoss) s.mem.cellar (d - 0x001000000000) bs) p := by
  rw [State.write, State.flushRange_cellar h hn]
  refine State.writeFuel_cellar _ s d bs (Nat.le_refl _) hu fun e h1 h2 => ⟨_, _, State.home_cellar_line h ?_⟩
  simp only [inLine, Bool.and_eq_true, Nat.ble_eq] at hn
  omega

theorem State.peekByte_cellar {d t off : Nat} (h : s.home d = .cellar t off) :
    s.peekByte d = Sparse.get (cellarByte0 s.mem.cellarLoss) s.mem.cellar (d - 0x001000000000) := by
  obtain ⟨-, -, hlo, -, -, ht, ho⟩ := State.home_cellar.mp h
  have hk : cellarKey t off = d - 0x001000000000 := by
    rw [cellarKey, ht, ho]
    omega
  rw [State.peekByte, h]
  dsimp only
  rw [hk]

theorem State.write_cellar_reads {d t off : Nat} (h : s.home d = .cellar t off) (hu : s.mem.upsets = []) {bs : List Byte}
    (hn : inLine d bs.length = true) : (s.write d bs).peek d bs.length = bs ∧ (s.write d bs).regs = s.regs ∧ (s.write d bs).hdr = s.hdr ∧
      ∀ e, e < d ∨ d + bs.length ≤ e → (s.write d bs).peekByte e = s.peekByte e := by
  obtain ⟨p, hp⟩ := State.write_cellar h hu hn
  have hlo := (State.home_cellar.mp h).2.2.1
  have hline : ∀ e, d ≤ e → e < d + bs.length → s.home e = .cellar ((e - 0x001000000000) / 0x180000) ((e - 0x001000000000) % 0x180000) :=
    fun e h1 h2 => State.home_cellar_line h (by
      simp only [inLine, Bool.and_eq_true, Nat.ble_eq] at hn
      omega)
  rw [hp]
  generalize hc : Mem.writeAt (cellarByte0 s.mem.cellarLoss) s.mem.cellar (d - 0x001000000000) bs = c
  have hget := fun j => hc ▸ Mem.get_writeAt (cellarByte0 s.mem.cellarLoss) s.mem.cellar (d - 0x001000000000) bs j
  refine ⟨?_, rfl, rfl, fun e he => ?_⟩
  · refine List.ext_getElem (by simp [State.peek]) fun i _ hi => ?_
    have hk : d + i - 0x001000000000 - (d - 0x001000000000) = i := by omega
    have hb : (s.cellarPut c p).peekByte (d + i) = Sparse.get (cellarByte0 s.mem.cellarLoss) c (d + i - 0x001000000000) :=
      State.peekByte_cellar (hline (d + i) (by omega) (by omega))
    simp only [State.peek, List.getElem_map, List.getElem_range]
    rw [hb, hget, if_pos (by omega), hk, List.getElem?_eq_getElem hi]
    rfl
  · cases hx : s.home e with
    | cellar u o =>
      obtain ⟨-, -, helo, -⟩ := State.home_cellar.mp hx
      have hb : (s.cellarPut c p).peekByte e = Sparse.get (cellarByte0 s.mem.cellarLoss) c (e - 0x001000000000) := State.peekByte_cellar hx
      rw [hb, State.peekByte_cellar hx, hget]
      rcases he with he | he
      · rw [if_neg (by omega)]
        rfl
      · rw [if_pos (by omega), List.getElem?_eq_none (by omega)]
        rfl
    | _ => simp only [State.peekByte, State.home_cellarPut, hx] <;> rfl

/-! ### The locks of one kind of writer, abandoned (R92) -/

variable (s) in
theorem State.abandoned_signal (fn v : Nat) : (s.signal fn v).nowCyc = s.nowCyc := by
  unfold State.signal
  split_ifs <;> rfl

variable (s) in
theorem State.nowCyc_updPage (p : Nat) (f : PageHdr → PageHdr) : (s.updPage p f).nowCyc = s.nowCyc := by
  have hr : ∀ (t : State) (q : Nat) (x y : Word), (t.signalRise q x y).nowCyc = t.nowCyc := fun t q x y => by
    unfold State.signalRise
    dsimp only
    split <;> split_ifs <;> simp only [State.abandoned_signal]
  rw [State.updPage, hr]
  rfl

theorem State.nowCyc_at (s : State) : s.nowCyc.at_ = s.cycles := by
  unfold State.nowCyc
  split_ifs with h
  · exact h
  · rfl

theorem State.nowCyc_updCyc (s : State) (f : Cyc → Cyc) (hf : ∀ c, (f c).at_ = c.at_) : (s.updCyc f).nowCyc = f s.nowCyc :=
  if_pos ((hf s.nowCyc).trans s.nowCyc_at)

theorem State.abandoned_event (s : State) (p b : Nat) : (s.event p b).nowCyc.abandoned = s.nowCyc.abandoned := by
  rw [State.event, State.noteRise, State.nowCyc_updCyc, State.nowCyc_updPage]
  exact fun _ => rfl

theorem State.nowCyc_logged (s : State) (r : LogReq) : (s.logged r).nowCyc = s.nowCyc := by
  unfold State.logged
  split_ifs <;> rfl

theorem State.abandoned_error (s : State) (p code : Nat) (info : Word) : (s.error p code info).nowCyc.abandoned = s.nowCyc.abandoned := by
  unfold State.error
  dsimp only
  rw [State.nowCyc_logged, State.nowCyc_updCyc, State.noteRise, State.nowCyc_updCyc, State.nowCyc_updPage]
  · exact fun _ => rfl
  · exact fun _ => rfl

theorem State.abandoned_abandonLock (s : State) (p : Nat) : (s.abandonLock p).nowCyc.abandoned = s.nowCyc.abandoned := by
  unfold State.abandonLock
  dsimp only
  rw [State.abandoned_event, State.abandoned_error]
  rfl

/-- The lock of page `p` in `t` is as in `s`, unless it is free. -/
def State.LockKept (s t : State) (p : Nat) : Prop :=
  (t.page p).lockHeld = true → (s.page p).lockHeld = true ∧ (t.page p).lockOwner = (s.page p).lockOwner

theorem State.abandonOnce_other (s : State) {p q : Nat} (h : p ≠ q) :
    (s.abandonOnce q).page p = s.page p ∧ ((s.abandonOnce q).nowCyc.abandoned.contains p = s.nowCyc.abandoned.contains p) := by
  unfold State.abandonOnce
  split_ifs
  · refine ⟨(State.page_abandonLock_other s q h :), ?_⟩
    rw [State.nowCyc_updCyc, State.abandoned_abandonLock]
    · simp [h]
    · exact fun _ => rfl
  · exact ⟨rfl, rfl⟩

theorem State.abandonOnce_frees (s : State) {p : Nat} (h : s.nowCyc.abandoned.contains p = false) : ((s.abandonOnce p).page p).lockHeld = false := by
  by_cases hh : (s.page p).lockHeld = true
  · rw [State.abandonOnce_held hh h]
    change ((s.abandonLock p).page p).lockHeld = false
    rw [State.page_abandonLock]
    exact (PageHdr.take_lock ..).1
  · rw [State.abandonOnce, if_neg (by simp [hh])]
    exact Bool.eq_false_of_not_eq_true hh

theorem State.abandonOnce_lockKept (s : State) (p q : Nat) : s.LockKept (s.abandonOnce q) p := by
  intro ht
  by_cases hpq : p = q
  · subst hpq
    by_cases hn : s.nowCyc.abandoned.contains p = true
    · have hs : s.abandonOnce p = s := if_neg (by rw [hn, Bool.not_true, Bool.and_false]; exact Bool.false_ne_true)
      rw [hs] at ht ⊢
      exact ⟨ht, rfl⟩
    · rw [State.abandonOnce_frees s (Bool.eq_false_of_not_eq_true hn)] at ht
      exact absurd ht Bool.false_ne_true
  · rw [(s.abandonOnce_other hpq).1] at ht ⊢
    exact ⟨ht, rfl⟩

theorem State.foldl_abandonOnce {α : Type} (f : α → Nat) (l : List α) (s : State) (p : Nat) :
    s.LockKept (l.foldl (fun (t : State) x => t.abandonOnce (f x)) s) p ∧
    (s.nowCyc.abandoned.contains p = false → p ∈ l.map f → ((l.foldl (fun (t : State) x => t.abandonOnce (f x)) s).page p).lockHeld = false) := by
  induction l generalizing s with
  | nil => exact ⟨fun h => ⟨h, rfl⟩, fun _ h => absurd h (List.not_mem_nil)⟩
  | cons x l ih =>
    obtain ⟨hk, hf⟩ := ih (s.abandonOnce (f x))
    have hx := s.abandonOnce_lockKept p (f x)
    rw [List.foldl_cons]
    refine ⟨fun h => ?_, fun hn hm => ?_⟩
    · obtain ⟨h1, h2⟩ := hk h
      obtain ⟨h3, h4⟩ := hx h1
      exact ⟨h3, h2.trans h4⟩
    · by_cases hp : p = f x
      · refine Bool.eq_false_of_not_eq_true fun h => ?_
        rw [← hp] at hk h
        exact absurd (hk h).1 (by rw [s.abandonOnce_frees hn]; exact Bool.false_ne_true)
      · obtain ⟨-, ha⟩ := s.abandonOnce_other hp
        exact hf (ha.trans hn) ((List.mem_cons.mp hm).resolve_left hp)

/-- A value read that is no default is listed. -/
theorem Sparse.mem_of_get_ne {α : Type} {d : Nat → α} {m : Sparse α} {a : Nat} (h : Sparse.get d m a ≠ d a) : (a, Sparse.get d m a) ∈ m := by
  induction m with
  | nil => exact absurd rfl h
  | cons x m ih =>
    simp only [Sparse.get] at h ⊢
    split_ifs at h ⊢ with hx
    · rw [← hx]
      exact List.mem_cons_self ..
    · exact List.mem_cons_of_mem _ (ih h)

theorem State.mem_hdr_of_held (s : State) {p : Nat} (h : (s.page p).lockHeld = true) : (p, s.page p) ∈ s.hdr := by
  refine Sparse.mem_of_get_ne fun he => ?_
  have hd : (s.page p).lockHeld = (hdrDefault p).lockHeld := congrArg PageHdr.lockHeld he
  rw [h, (hdrDefault_clear p).1] at hd
  exact Bool.false_ne_true hd.symm

/-- Every lock that such a writer holds ends, but one that this cycle has seen abandoned already. -/
theorem State.abandonLocks_frees (s : State) (who : Nat → Bool) {p : Nat} (h : s.nowCyc.abandoned.contains p = false)
    (ho : who ((s.abandonLocks who).page p).lockOwner = true) : ((s.abandonLocks who).page p).lockHeld = false := by
  obtain ⟨hk, hf⟩ := State.foldl_abandonOnce (fun x : Nat × PageHdr => x.1) (s.hdr.filter (fun x => x.2.lockHeld && who x.2.lockOwner)) s p
  refine Bool.eq_false_of_not_eq_true fun ht => ?_
  obtain ⟨hs, hw⟩ := hk ht
  have hmem : p ∈ (s.hdr.filter (fun x => x.2.lockHeld && who x.2.lockOwner)).map (fun x : Nat × PageHdr => x.1) := by
    refine List.mem_map.mpr ⟨(p, s.page p), List.mem_filter.mpr ⟨s.mem_hdr_of_held hs, ?_⟩, rfl⟩
    have hwho : who (s.page p).lockOwner = true := hw ▸ ho
    rw [hs, hwho]
    rfl
  rw [State.abandonLocks, hf h hmem] at ht
  exact Bool.false_ne_true ht

/-! ### Causes that end by time, and VF Enable -/

theorem bitOf_clrBit_other {n b i : Nat} (h : i ≠ b) : bitOf (clrBit n b) i = bitOf n i := by rw [bitOf_clrBit, if_neg h]

theorem bitOf_clrBit_same (n b : Nat) : bitOf (clrBit n b) b = false := by rw [bitOf_clrBit, if_pos rfl]

theorem State.mem_abandonLocks (s : State) (who : Nat → Bool) : (s.abandonLocks who).mem = s.mem :=
  foldl_leaves State.mem (fun t (x : Nat × PageHdr) => by
    unfold State.abandonOnce
    split_ifs
    · exact State.mem_abandonLock t x.1
    · rfl) _ s

/-! ### RESET_CTL -/

/-- The fields of the value written to RESET_CTL. -/
theorem resetCtl_value (key device : Nat) (hd : device ≤ 1) :
    getBits (word (key % 2 ^ 16 * 2 ^ 16 + device % 2)) 31 16 = key % 2 ^ 16 ∧ getBits (word (key % 2 ^ 16 * 2 ^ 16 + device % 2)) 0 0 = device := by
  have hw : (word (key % 2 ^ 16 * 2 ^ 16 + device % 2)).toNat = key % 2 ^ 16 * 2 ^ 16 + device % 2 := by
    rw [word, BitVec.toNat_ofNat]
    omega
  simp only [getBits, natBits, hw, Nat.shiftRight_eq_div_pow]
  omega

theorem State.writeResetCtl_open {w : Nat} {v : Word} (h : s.portCheck 0x000 0x64 w = none) : s.writeResetCtl w v =
    if (Writer.isVf w || getBits v 31 16 != 0x4456) = true then s.badAccess 0x000 0x64 w
    else if getBits v 0 0 = 0 then s.wrote 0x000 w
    else if (s.framePaced && !s.saf.inSafe) = true then s.error 0x000 0xA020 (infoOffWriter 0x64 w)
    else (s.wrote 0x000 w).resetAccept := by
  rw [State.writeResetCtl, h]

/-- An accepted request stands, and the programs not yet begun are discarded. -/
theorem State.resetAccept_leaves (s : State) : s.resetAccept.boot.resetPending = true ∧ s.resetAccept.psv.queue = s.psv.queue.take 1 ∧
    s.resetAccept.rst.bbWait = [] ∧ s.resetAccept.mem = s.mem ∧ ∀ p, s.resetAccept.page p = s.page p := by
  unfold State.resetAccept State.setQueue
  exact ⟨rfl, rfl, rfl, rfl, fun _ => rfl⟩

/-! ### GPIO_FUNC -/

theorem State.onRwl_admitted {p off w : Nat} {v : Word} (h : s.admitsRwl p off w v = true) (f : State → State) : s.onRwl p off w v f = f s := by
  obtain ⟨ha, hl⟩ := Bool.and_eq_true_iff.mp h
  obtain ⟨hc, he⟩ := State.admits_iff.mp ha
  rw [State.onRwl, hc]
  dsimp only
  rw [he]
  exact if_pos hl

theorem State.writeGpioFunc_held {w off : Nat} {v : Word} (h : s.admitsRwl 0x002 off w v = true) {x : Nat × Nat} (hx : s.movesHeld off v = some x) :
    s.writeGpioFunc w off v = s.error 0x002 Err.resourceHeld (word (x.2 % 2 ^ 10 * 2 ^ 16 + pinRes x.1)) := by
  rw [State.writeGpioFunc, State.onRwl_admitted h, if_pos (by rw [hx]; rfl), State.takeGpioFunc, hx]

theorem State.writeGpioFunc_free {w off : Nat} {v : Word} (h : s.admitsRwl 0x002 off w v = true) (hx : s.movesHeld off v = none)
    (hs : s.saf.inSafe = false) : s.writeGpioFunc w off v = ((s.setCell (0x002000 + off) v).holdPins).wrote 0x002 w := by
  have hn : ¬((((s.setCell (0x002000 + off) v).holdPins).saf.inSafe && ((s.setCell (0x002000 + off) v).holdPins).flag F.GLB_BOOT_STATUS_RESTORED) = true) := by
    change ¬((s.saf.inSafe && _) = true)
    rw [hs]
    exact Bool.false_ne_true
  rw [State.writeGpioFunc, State.onRwl_admitted h, if_neg (by rw [hx]; exact Bool.false_ne_true), State.takeGpioFunc, hx]
  dsimp only
  rw [if_neg hn]

/-! ### The obligation, part by part -/

theorem powerOnReset_reads (s : State) (dt cause form : Nat) (fuse flash rom : Bool) (digA digB : List Nat) (dram : Dram) (hc : cause < 4) :
    let a := s.arrive dt
    ∃ t, exec (.powerOnReset dt cause fuse form flash rom digA digB dram) s = .next t ∧ t.mem.chGib = 2 ^ (1 + dram.size % 3) ∧
      t.mem.ranks = 1 + dram.ranks % 2 ∧ t.mem.shardBase4M = t.shardReset ∧ t.saf.inSafe = true ∧ t.timebase = 0 ∧ t.cycles = a.cycles ∧
      t.psv.queue = [] ∧ t.fld F.GLB_BOOT_STATUS_LAST_RESET = cause ∧ t.flag F.GLB_BOOT_STATUS_AON_UP = true ∧ t.flag F.GLB_BOOT_STATUS_FUSE_OK = fuse ∧
      t.flag F.GLB_BOOT_STATUS_RESTORED = true ∧ t.flag F.GLB_BOOT_STATUS_FW_READY = false ∧ t.mem.dram = [] ∧ t.frm.compute = none ∧
      t.fuses.tiles = a.fuses.tiles := by
  intro a
  obtain ⟨he, hr⟩ := State.powerOnReset_ends (s := a) cause fuse form flash rom digA digB dram
  obtain ⟨hcyc, hfus⟩ := State.powerLoss_cycles (s := a) form
  have hlast : (a.powerOnState form cause dram).fld F.GLB_BOOT_STATUS_LAST_RESET = cause := by
    rw [State.powerOnState, State.fld_setFld_same _ _ _ (by decide) (by decide)]
    exact Nat.mod_eq_of_lt hc
  have hfw := State.powerOnState_status (s := a) form cause dram F.GLB_BOOT_STATUS_FW_READY (Or.inr rfl)
  refine ⟨a.powerOnReset cause fuse form flash rom digA digB dram, rfl, ?_, ?_, ?_, he.inSafe, he.timebase, he.cycles.trans hcyc, he.queue,
    he.lastReset.trans hlast, he.aonUp, he.fuse, hr, ?_, ?_, congrArg Frm.compute he.frm, ?_⟩
  · rw [he.mem]; rfl
  · rw [he.mem]; rfl
  · rw [State.shardReset, State.chanU, he.mem]; rfl
  · rw [State.flag, he.fwReady, hfw]; rfl
  · rw [he.mem]; rfl
  · exact he.tiles.trans (congrArg Fuses.tiles hfus)

theorem State.parts_of_outline {s t : State} (h : t.outline.1 = s.outline.1) :
    t.mem = s.mem ∧ t.timebase = s.timebase ∧ t.frm = s.frm ∧ t.boot = s.boot :=
  ⟨(congrArg State.mem h :), (congrArg State.timebase h :), (congrArg State.frm h :), (congrArg State.boot h :)⟩

theorem deviceReset_reads (s : State) (dt : Nat) (fuse flash rom : Bool) (digA digB : List Nat) :
    let a := s.arrive dt
    (a.boot.resetPending = false ∨ a.psv.queue ≠ [] → exec (.deviceReset dt fuse flash rom digA digB) s = .next a) ∧
    (a.boot.resetPending = true → a.psv.queue = [] → ∃ t, exec (.deviceReset dt fuse flash rom digA digB) s = .next t ∧ t.saf.inSafe = true ∧
      t.timebase = a.timebase ∧ t.mem.dram = a.mem.dram ∧ t.boot.resetPending = false ∧ t.fld F.GLB_BOOT_STATUS_LAST_RESET = 3 ∧
      t.flag F.GLB_BOOT_STATUS_FUSE_OK = fuse ∧ t.frm.compute = none) := by
  intro a
  have hx : exec (.deviceReset dt fuse flash rom digA digB) s = .next (a.deviceReset fuse flash rom digA digB) := rfl
  refine ⟨fun h => ?_, fun hp hq => ?_⟩
  · have hn : ¬((a.boot.resetPending && a.psv.queue.isEmpty) = true) := by
      rw [Bool.and_eq_true, List.isEmpty_iff]
      rintro ⟨hp, hq⟩
      exact h.elim (fun hf => Bool.false_ne_true (hf.symm.trans hp)) (fun hf => hf hq)
    rw [hx, State.deviceReset, if_neg hn]
  · have he := State.deviceReset_ends hp hq fuse flash rom digA digB
    obtain ⟨ho, -, hl, -⟩ := a.deviceState_outline
    obtain ⟨hm, ht, hf, hb⟩ := State.parts_of_outline ho
    refine ⟨_, hx, he.inSafe, he.timebase.trans ht, ?_, ?_, he.lastReset.trans hl, he.fuse, ?_⟩
    · exact (congrArg MemState.dram (he.mem.trans hm)).trans (rfl : a.blankDevice.mem.dram = a.mem.dram)
    · exact (congrArg Boot.resetPending (he.boot.trans hb)).trans (rfl : a.blankDevice.boot.resetPending = false)
    · exact (congrArg Frm.compute (he.frm.trans hf)).trans (rfl : a.blankDevice.frm.compute = none)

theorem deviceResetRequest_acts (s : State) (dt w key device : Nat) (hd : device ≤ 1) :
    let b := s.arriveBy dt w
    let keyed := Writer.isVf w = false ∧ key % 2 ^ 16 = 0x4456
    b.portCheck 0x000 0x64 w = none →
      (¬ keyed → exec (.deviceResetRequest dt w key device) s = .next (b.badAccess 0x000 0x64 w)) ∧
      (keyed → device = 0 → exec (.deviceResetRequest dt w key device) s = .next (b.wrote 0x000 w)) ∧
      (keyed → device = 1 → b.framePaced = true → b.saf.inSafe = false →
        exec (.deviceResetRequest dt w key device) s = .next (b.error 0x000 0xA020 (infoOffWriter 0x64 w))) ∧
      (keyed → device = 1 → b.framePaced = false ∨ b.saf.inSafe = true → ∃ t, exec (.deviceResetRequest dt w key device) s = .next t ∧
        t.boot.resetPending = true ∧ t.psv.queue = b.psv.queue.take 1 ∧ t.rst.bbWait = [] ∧ t.mem = b.mem ∧ (t.page 0x000).lastWriter = w) := by
  intro b keyed hc
  obtain ⟨hkey, hdev⟩ := resetCtl_value key device hd
  have hx : exec (.deviceResetRequest dt w key device) s = .next (b.writeResetCtl w (word (key % 2 ^ 16 * 2 ^ 16 + device % 2))) := rfl
  rw [State.writeResetCtl_open hc, hkey, hdev] at hx
  have hk : (Writer.isVf w || key % 2 ^ 16 != 0x4456) = true ↔ ¬ keyed := by
    simp [keyed, imp_iff_not_or]
  refine ⟨fun hn => ?_, fun hy h0 => ?_, fun hy h1 hf hs => ?_, fun hy h1 hf => ?_⟩
  · rw [hx, if_pos (hk.mpr hn)]
  · rw [hx, if_neg (fun h => hk.mp h hy), if_pos h0]
  · rw [hx, if_neg (fun h => hk.mp h hy), if_neg (by omega), if_pos (by rw [hf, hs]; rfl)]
  · have hp : ¬((b.framePaced && !b.saf.inSafe) = true) := by
      rcases hf with hf | hf <;> simp [hf]
    rw [if_neg (fun h => hk.mp h hy), if_neg (by omega), if_neg hp] at hx
    obtain ⟨hr, hq, hw, hm, hg⟩ := (b.wrote 0x000 w).resetAccept_leaves
    exact ⟨_, hx, hr, hq, hw, hm, by rw [hg, State.page_wrote_same]⟩

theorem startupRows_act (s : State) (dt : Nat) (failed rates : List Nat) :
    let a := s.arrive dt
    let step6 := a.flag F.GLB_BOOT_STATUS_FW_READY = true ∧ a.flag F.GLB_BOOT_STATUS_TILES_TESTED = false
    let step7 := (a.flag F.GLB_BOOT_STATUS_FW_READY = true ∨ a.romRecovery = true) ∧ a.flag F.GLB_BOOT_STATUS_MEM_READY = false
    let step8 := a.flag F.GLB_BOOT_STATUS_CHECKS_DONE = false ∧ ((a.flag F.GLB_BOOT_STATUS_TILES_TESTED = true ∧ a.flag F.GLB_BOOT_STATUS_MEM_READY = true)
      ∨ a.flag F.GLB_BOOT_STATUS_SLOT_CHOSEN = false)
    (¬ step6 → exec (.startupTileTestDone dt failed) s = .next a) ∧
    (step6 → a.saf.inSafe = true → ∃ t, exec (.startupTileTestDone dt failed) s = .next t ∧ t.flag F.GLB_BOOT_STATUS_TILES_TESTED = true ∧ t.mem.cellar = [] ∧
      t.mem.dram = a.mem.dram ∧ ∀ n ∈ a.enabledTiles, (t.tile n).withdrawn = failed.contains n) ∧
    (¬ step7 → exec (.dramTrainingDone dt failed rates) s = .next a) ∧
    (step7 → failed = [] ∨ a.saf.inSafe = true → a.mem.shardBase4M < 2048 → a.mem.chGib ≤ 8 → ∃ t, exec (.dramTrainingDone dt failed rates) s = .next t ∧
      t.flag F.GLB_BOOT_STATUS_MEM_READY = true ∧ t.mem.rates = rates ∧
      t.mem.failed = (List.range 8).filter (fun c => failed.contains c) ∧ t.mem.dram = (if a.boot.initDram then [] else a.mem.dram)) ∧
    (¬ step8 → exec (.startupChecks dt) s = .next a) ∧
    (step8 → (a.failStep ≠ 0 → exec (.startupChecks dt) s = .next (a.setFld F.GLB_BOOT_STATUS_FAIL_STEP a.failStep)) ∧
      (a.failStep = 0 → ∃ t, exec (.startupChecks dt) s = .next t ∧ t.flag F.GLB_BOOT_STATUS_CHECKS_DONE = true ∧ t.fld F.GLB_BOOT_STATUS_FAIL_STEP = 0 ∧
        bitOf t.saf.active 0 = false ∧ t.mem = a.mem)) := by
  intro a step6 step7 step8
  have h6 : exec (.startupTileTestDone dt failed) s = .next (a.tilesTested failed) := rfl
  have h7 : exec (.dramTrainingDone dt failed rates) s = .next (a.memReady failed rates) := rfl
  have h8 : exec (.startupChecks dt) s = .next a.startupChecks := rfl
  refine ⟨fun h => by rw [h6, State.tilesTested_not_due failed h], fun ⟨hf, ht⟩ hs => ?_, fun h => by rw [h7, State.memReady_not_due failed rates h],
    fun ⟨hr, hm⟩ hs hb _ => ?_, fun h => by rw [h8, a.startupChecks_not_due h], fun ⟨hd, hr⟩ => ⟨fun hn => ?_, fun h0 => ?_⟩⟩
  · obtain ⟨hflag, hmem, htile⟩ := State.tilesTested_ends failed hf ht hs
    exact ⟨_, h6, hflag, by rw [hmem]; rfl, by rw [hmem]; rfl, htile⟩
  · obtain ⟨hflag, hmem⟩ := State.memReady_ends failed rates hr hm hs
    exact ⟨_, h7, hflag, by rw [hmem]; rfl, by rw [hmem]; rfl, (congrArg MemState.dram hmem).trans (State.initMemory_dram hb)⟩
  · rw [h8, a.startupChecks_due hd hr, if_neg hn]
  · rw [a.startupChecks_due hd hr, if_pos h0] at h8
    exact ⟨_, h8, a.checksPass_ends⟩

theorem causesByTime_act (s : State) (dt : Nat) :
    let a := s.arrive dt
    (∃ t, exec (.clockInWindow dt) s = .next t ∧ t.fld F.RST_CLK_MON_FAULT = 0 ∧ bitOf t.saf.active Cause.clock = false ∧ a.SameRegs t [R.RST_CLK_MON] ∧
      (∀ n, n ≠ Cause.clock → bitOf t.saf.active n = bitOf a.saf.active n) ∧ t.hdr = a.hdr ∧ t.mem = a.mem) ∧
    (∃ t, exec (.railsInWindow dt) s = .next t ∧ t.rst.railsOut = 0 ∧ bitOf t.saf.active Cause.voltRange = false ∧ t.regs = a.regs ∧
      (∀ n, n ≠ Cause.voltRange → bitOf t.saf.active n = bitOf a.saf.active n) ∧ t.hdr = a.hdr ∧ t.mem = a.mem) := by
  intro a
  have hc : exec (.clockInWindow dt) s = .next a.clockInWindow := rfl
  have hr : exec (.railsInWindow dt) s = .next a.railsInWindow := rfl
  clear_value a
  refine ⟨⟨_, hc, ?_, bitOf_clrBit_same _ _, fun k hk => ?_, fun n hn => bitOf_clrBit_other hn, rfl, rfl⟩,
    ⟨_, hr, rfl, bitOf_clrBit_same _ _, rfl, fun n hn => bitOf_clrBit_other hn, rfl, rfl⟩⟩
  · exact State.fld_setFld_same a F.RST_CLK_MON_FAULT 0 (by decide) (by decide)
  · exact a.cell_setFld_other 0 (List.ne_of_not_mem_cons hk)

theorem vfEnableWrite_acts (s : State) (dt n : Nat) :
    let a := s.arrive dt
    (a.hif.vfEnable = true → exec (.vfEnableWrite dt true n) s = .next a.hostTlp) ∧
      (a.hif.vfEnable = false → ∃ t, exec (.vfEnableWrite dt true n) s = .next t ∧ t.hif.vfEnable = true ∧ t.hif.numVfs = min 63 n ∧ t.regs = a.regs ∧
        t.hdr = a.hdr ∧ t.mem = a.mem) ∧
      (∃ t, exec (.vfEnableWrite dt false n) s = .next t ∧ t.hif.vfEnable = false ∧ t.hif.numVfs = 0 ∧ t.mem = a.mem ∧
        ∀ p, a.nowCyc.abandoned.contains p = false → Writer.isVf (t.page p).lockOwner = true → (t.page p).lockHeld = false) := by
  intro a
  have hx : ∀ on, exec (.vfEnableWrite dt on n) s = .next (a.vfEnableWrite on n) := fun _ => rfl
  have hon : a.vfEnableWrite true n = if a.hif.vfEnable = true then a.hostTlp
      else a.hostTlp.updHif (fun h => { h with vfEnable := true, numVfs := min 63 n }) := rfl
  have hoff : a.vfEnableWrite false n = (a.hostTlp.abandonLocks Writer.isVf).updHif (fun h => { h with vfEnable := false, numVfs := 0 }) := rfl
  clear_value a
  refine ⟨fun h => ?_, fun h => ?_, ?_⟩
  · rw [hx, hon, if_pos h]
  · rw [if_neg (by rw [h]; exact Bool.false_ne_true)] at hon
    exact ⟨_, (hx true).trans (congrArg _ hon), rfl, rfl, rfl, rfl, rfl⟩
  · refine ⟨_, (hx false).trans (congrArg _ hoff), rfl, rfl, ?_, fun p hp ho => ?_⟩
    · exact State.mem_abandonLocks a.hostTlp Writer.isVf
    · exact State.abandonLocks_frees a.hostTlp Writer.isVf hp ho

theorem bar4Write_acts (s : State) (dt off : Nat) (bytes : List Byte) :
    let a := s.arrive dt
    (a.boot.resetPending = true → exec (.bar4Write dt off bytes) s = .next a) ∧
      (a.boot.resetPending = false → a.windowHome off = .fusedOff → exec (.bar4Write dt off bytes) s = .next a.hostTlp) ∧
      (∀ x, a.boot.resetPending = false → a.windowHome off = .result x →
        exec (.bar4Write dt off bytes) s = .next (a.hostTlp.bump F.GLB_BAD_ACCESS_CNT_COUNT)) ∧
      (∀ n o, a.boot.resetPending = false → a.windowHome off = .cellar n o → a.home (cellarAddr n o) = .cellar n o →
        inLine (cellarAddr n o) bytes.length = true → a.mem.upsets = [] →
          ∃ t, exec (.bar4Write dt off bytes) s = .next t ∧ t.peek (cellarAddr n o) bytes.length = bytes ∧ t.regs = a.regs ∧ t.hdr = a.hdr ∧
            ∀ e, e < cellarAddr n o ∨ cellarAddr n o + bytes.length ≤ e → t.peekByte e = a.peekByte e) := by
  intro a
  have hx : exec (.bar4Write dt off bytes) s = .next (a.bar4Write off bytes) := rfl
  refine ⟨fun h => ?_, fun h hw => ?_, fun x h hw => ?_, fun n o h hw hh hn hu => ?_⟩
  · rw [hx, State.bar4Write, if_pos h]
  all_goals
    rw [State.bar4Write, if_neg (by rw [h]; exact Bool.false_ne_true), hw] at hx
  · exact hx
  · exact hx
  · exact ⟨_, hx, State.write_cellar_reads (s := a.hostTlp) hh hu hn⟩

theorem gpioFuncWrite_acts (s : State) (dt w : Nat) (high : Bool) (v : Word) :
    let b := s.arriveBy dt w
    let off := if high then 0x44 else 0x40
    b.admitsRwl 0x002 off w v = true →
      (∀ x, b.movesHeld off v = some x →
        exec (.gpioFuncWrite dt w high v) s = .next (b.error 0x002 Err.resourceHeld (word (x.2 % 2 ^ 10 * 2 ^ 16 + pinRes x.1)))) ∧
      (b.movesHeld off v = none → b.saf.inSafe = false → ∃ t, exec (.gpioFuncWrite dt w high v) s = .next t ∧ t.cell (0x002000 + off) = v ∧
        b.SameRegs t [0x002000 + off] ∧ (t.page 0x002).lastWriter = w ∧ t.mem = b.mem) := by
  intro b off ha
  have hx : exec (.gpioFuncWrite dt w high v) s = .next (b.writeGpioFunc w off v) := rfl
  refine ⟨fun x hm => by rw [hx, State.writeGpioFunc_held ha hm], fun hm hs => ?_⟩
  rw [State.writeGpioFunc_free ha hm hs] at hx
  clear_value b
  refine ⟨_, hx, ?_, fun k hk => ?_, ?_, rfl⟩
  · exact Sparse.get_set_same resetCell b.regs (0x002000 + off) v
  · exact Sparse.get_set_other resetCell b.regs v (List.ne_of_not_mem_cons hk)
  · rw [State.page_wrote_same]

/-- Settles O57: each command by its own lemma above. -/
theorem startUpAndPins : Obligations.StartUpAndPins := by
  refine ⟨fun s dt cause form fuse flash rom digA digB dram hc => ?_, fun s dt w key device hd => deviceResetRequest_acts s dt w key device hd,
    fun s dt failed rates => ?_, fun s dt w high v => gpioFuncWrite_acts s dt w high v⟩
  · exact ⟨powerOnReset_reads s dt cause form fuse flash rom digA digB dram hc, deviceReset_reads s dt fuse flash rom digA digB⟩
  · obtain ⟨h6n, h6, h7n, h7, h8n, h8⟩ := startupRows_act s dt failed rates
    obtain ⟨hclock, hrails⟩ := causesByTime_act s dt
    exact ⟨h6n, h6, h7n, h7, h8n, h8, hclock, hrails, vfEnableWrite_acts s dt, bar4Write_acts s dt⟩

end Sys2Proof.Machine
end

section
/-! PROOFS. The link of a Graft port: what traffic leaves as it is, and the link's own events. -/

namespace Sys2Proof.Machine

variable {s : State} {n : Nat}

/-! ### Registers of a link that traffic does not touch -/

/-- The registers that tell of a port's link. -/
def linkRegs (n : Nat) : List Nat :=
  [R.GRF_PORT_STATUS n, R.GRF_FEC_CORR_CNT n, R.GRF_FEC_UNCORR_CNT n, R.GRF_CRC_ERR_CNT n, R.GRF_DOWN_CNT n]

/-- The registers that packets, answers and errors change: of port `m`, and those of the whole device. -/
def trafficRegs (m : Nat) : List Nat :=
  [R.GRF_TX_FLIT_CNT m, R.GRF_RX_FLIT_CNT m, R.GRF_ROUTE_LOST_CNT m, R.GRF_DISCARD_CNT m, R.GRF_NODE_LOST_CNT, R.GRF_FENCED_CNT,
    R.GRF_MALFORMED_CNT, R.MBX_FWD_LOST_CNT, R.HIF_MSIX_PBA, R.RST_RING_LOST_CNT]

theorem linkRegs_apart (hn : n < 8) (m : Nat) : ∀ r ∈ trafficRegs m, r ∉ linkRegs n := by
  have := hn
  intro r hr hl
  simp only [trafficRegs, linkRegs, List.mem_cons, List.not_mem_nil, or_false, R.GRF_PORT_STATUS, R.GRF_FEC_CORR_CNT, R.GRF_FEC_UNCORR_CNT,
    R.GRF_CRC_ERR_CNT, R.GRF_DOWN_CNT, R.GRF_TX_FLIT_CNT, R.GRF_RX_FLIT_CNT, R.GRF_ROUTE_LOST_CNT, R.GRF_DISCARD_CNT, R.GRF_NODE_LOST_CNT,
    R.GRF_FENCED_CNT, R.GRF_MALFORMED_CNT, R.MBX_FWD_LOST_CNT, R.HIF_MSIX_PBA, R.RST_RING_LOST_CNT] at hr hl
  omega

/-- What those registers read. -/
def State.linkCells (n : Nat) (s : State) : List Word := (linkRegs n).map s.cell

theorem State.linkCells_of {t : State} (h : ∀ k ∈ linkRegs n, t.cell k = s.cell k) : t.linkCells n = s.linkCells n := List.map_congr_left h

theorem State.fld_of_linkCells {t : State} (h : t.linkCells n = s.linkCells n) {f : Field} (hf : f.reg ∈ linkRegs n) : t.fld f = s.fld f := by
  rw [State.fld, State.fld, List.map_inj_left.mp h _ hf]

theorem State.linkCells_setFld {f : Field} (hf : f.reg ∉ linkRegs n) (v : Nat) : (s.setFld f v).linkCells n = s.linkCells n :=
  State.linkCells_of fun _ hk => s.cell_setFld_other v fun he => hf (he ▸ hk)

section Traffic

variable (hn : n < 8) (s)
include hn

/-- A counter that traffic counts in leaves the link's registers. -/
theorem State.linkCells_bumpBy {f : Field} {m : Nat} (hf : f.reg ∈ trafficRegs m) (k : Nat) : (s.bumpBy f k).linkCells n = s.linkCells n :=
  State.linkCells_setFld (linkRegs_apart hn m _ hf) _

theorem State.linkCells_bump {f : Field} {m : Nat} (hf : f.reg ∈ trafficRegs m) : (s.bump f).linkCells n = s.linkCells n :=
  State.linkCells_setFld (linkRegs_apart hn m _ hf) _

theorem State.linkCells_event (p b : Nat) : (s.event p b).linkCells n = s.linkCells n :=
  State.linkCells_of fun _ hk => s.cell_event p b fun he => linkRegs_apart hn 0 R.HIF_MSIX_PBA (by simp [trafficRegs]) (he ▸ hk)

theorem State.linkCells_error (p code : Nat) (info : Word) : (s.error p code info).linkCells n = s.linkCells n :=
  State.linkCells_of fun k hk => s.cell_error p code info (fun he => linkRegs_apart hn 0 R.HIF_MSIX_PBA (by simp [trafficRegs]) (he ▸ hk))
    fun (he : k = R.RST_RING_LOST_CNT) => linkRegs_apart hn 0 R.RST_RING_LOST_CNT (by simp [trafficRegs]) (he ▸ hk)

theorem State.linkCells_updCond (p : Nat) (f : Cond → Cond) : (s.updCond p f).linkCells n = s.linkCells n :=
  State.linkCells_of fun _ hk => s.cell_updCond p f fun he => linkRegs_apart hn 0 R.HIF_MSIX_PBA (by simp [trafficRegs]) (he ▸ hk)

omit hn in
theorem State.linkCells_updPort (m : Nat) (f : GrfPort → GrfPort) : (s.updPort m f).linkCells n = s.linkCells n := rfl

omit hn in
theorem State.linkCells_updGrf (f : Grf → Grf) : (s.updGrf f).linkCells n = s.linkCells n := rfl

theorem State.linkCells_countTx (m k : Nat) : (s.countTx m k).linkCells n = s.linkCells n := by
  unfold State.countTx
  dsimp only
  split
  · exact State.linkCells_bumpBy _ hn (m := m) (by simp [trafficRegs, F.GRF_TX_FLIT_CNT]) _
  · rfl

theorem State.linkCells_sendPacket (m : Nat) (x : Nat × Packet) : (s.sendPacket m x).linkCells n = s.linkCells n := by
  unfold State.sendPacket
  exact State.linkCells_countTx _ hn m _

theorem State.linkCells_pumpPort (m f : Nat) : (State.pumpPort m f s).linkCells n = s.linkCells n := by
  induction f generalizing s with
  | zero => rfl
  | succ f ih =>
    unfold State.pumpPort
    split
    · split
      · split
        · exact (ih _).trans (s.linkCells_sendPacket hn m _)
        · rfl
      · rfl
    · rfl

theorem State.linkCells_pump (m : Nat) : (s.pump m).linkCells n = s.linkCells n := s.linkCells_pumpPort hn m _

theorem State.linkCells_routeResp (arr : Option Nat) (p : Packet) : (s.routeResp arr p).linkCells n = s.linkCells n := by
  unfold State.routeResp
  split
  · rfl
  · next i _ =>
    dsimp only
    split
    · exact State.linkCells_pump _ hn _
    · have hd := s.linkCells_bump hn (f := F.GRF_DISCARD_CNT (s.dirPort (s.outDir arr p.dest i))) (m := s.dirPort (s.outDir arr p.dest i))
        (by simp [trafficRegs, F.GRF_DISCARD_CNT])
      split
      · exact (State.linkCells_bump _ hn (m := 0) (by simp [trafficRegs, F.MBX_FWD_LOST_CNT])).trans hd
      · exact hd

theorem State.linkCells_loseReq (q : GrfReq) (cause : Nat) : (s.loseReq q cause).linkCells n = s.linkCells n := by
  have ha : ∀ (t : State) (x : GrfAns), (t.answer x).linkCells n = t.linkCells n := fun t x => by
    unfold State.answer
    split <;> rfl
  unfold State.loseReq State.nodeLost State.finishReq
  rw [State.linkCells_event _ hn, State.linkCells_error _ hn, State.linkCells_bump _ hn (m := 0) (by simp [trafficRegs, F.GRF_NODE_LOST_CNT]), ha,
    State.linkCells_updGrf]

theorem State.linkCells_dispose (m : Nat) (p : Packet) : (s.dispose m p).linkCells n = s.linkCells n := by
  have hl := s.linkCells_bump hn (f := F.GRF_ROUTE_LOST_CNT m) (m := m) (by simp [trafficRegs, F.GRF_ROUTE_LOST_CNT])
  have hd := s.linkCells_bump hn (f := F.GRF_DISCARD_CNT m) (m := m) (by simp [trafficRegs, F.GRF_DISCARD_CNT])
  unfold State.dispose
  split
  · dsimp only
    split
    · split
      · exact (State.linkCells_loseReq _ hn _ _).trans hl
      · exact hl
    · exact (State.linkCells_routeResp _ hn _ _).trans hl
  · dsimp only
    split
    · exact (State.linkCells_bump _ hn (m := 0) (by simp [trafficRegs, F.MBX_FWD_LOST_CNT])).trans hd
    · exact hd

theorem State.linkCells_portClear (m : Nat) : (s.portClear m).linkCells n = s.linkCells n := by
  unfold State.portClear
  exact foldl_leaves (State.linkCells n) (fun t (x : Nat × Packet) => t.linkCells_dispose hn m x.2) _ _

end Traffic

/-! ### The receiver of a port, and its page -/

theorem State.port_updPort (s : State) (n : Nat) (f : GrfPort → GrfPort) : (s.updPort n f).port n = f (s.port n) :=
  Sparse.get_set_same portDefault s.grf.ports n _

theorem State.port_setFld (s : State) (f : Field) (v n : Nat) : (s.setFld f v).port n = s.port n := rfl
theorem State.port_bump (s : State) (f : Field) (n : Nat) : (s.bump f).port n = s.port n := rfl

theorem State.port_of_inner {t : State} (h : t.inner = s.inner) (n : Nat) : t.port n = s.port n := (congrArg (fun u : State => u.port n) h :)

theorem State.port_event (s : State) (p b n : Nat) : (s.event p b).port n = s.port n := State.port_of_inner (s.event_inner p b) n
theorem State.port_updCond (s : State) (p : Nat) (f : Cond → Cond) (n : Nat) : (s.updCond p f).port n = s.port n :=
  State.port_of_inner (s.updCond_inner p f) n

/-- What a port's receiver holds, and the CTRL slot it sends. -/
def GrfPort.receiver (p : GrfPort) : Nat × Bool × List Byte := (p.rxSeq, p.nakSent, p.ctrl)

/-- The page headers, the receiver of port `n`, and the registers of its link. -/
def State.linkView (n : Nat) (s : State) : Sparse PageHdr × (Nat × Bool × List Byte) × List Word := (s.hdr, (s.port n).receiver, s.linkCells n)

/-- The same, with the count of replays. -/
def State.sendView (n : Nat) (s : State) : (Sparse PageHdr × (Nat × Bool × List Byte) × List Word) × Nat := (s.linkView n, (s.port n).replays)

theorem State.linkView_updPort (s : State) (f : GrfPort → GrfPort) (hf : ∀ p, (f p).receiver = p.receiver) :
    (s.updPort n f).linkView n = s.linkView n :=
  Prod.ext rfl (Prod.ext ((congrArg GrfPort.receiver (s.port_updPort n f)).trans (hf _)) (s.linkCells_updPort n f))

theorem State.sendView_updPort (s : State) (f : GrfPort → GrfPort) (hf : ∀ p, (f p).receiver = p.receiver) (hr : ∀ p, (f p).replays = p.replays) :
    (s.updPort n f).sendView n = s.sendView n :=
  Prod.ext (s.linkView_updPort f hf) ((congrArg GrfPort.replays (s.port_updPort n f)).trans (hr _))

theorem State.linkView_of_sendView {t : State} (h : t.sendView n = s.sendView n) : t.linkView n = s.linkView n := congrArg Prod.fst h

section Port

variable (hn : n < 8) (s)
include hn

theorem State.sendView_bumpBy {f : Field} {m : Nat} (hf : f.reg ∈ trafficRegs m) (k : Nat) : (s.bumpBy f k).sendView n = s.sendView n :=
  Prod.ext (Prod.ext rfl (Prod.ext rfl (s.linkCells_bumpBy hn hf k))) rfl

theorem State.linkView_bump {f : Field} {m : Nat} (hf : f.reg ∈ trafficRegs m) : (s.bump f).linkView n = s.linkView n :=
  Prod.ext rfl (Prod.ext rfl (s.linkCells_bump hn hf))

theorem State.sendView_countTx (k : Nat) : (s.countTx n k).sendView n = s.sendView n := by
  have hu := s.sendView_updPort (n := n) (fun p => { p with txFlits := ((s.port n).txFlits + k) % 65536 }) (fun _ => rfl) (fun _ => rfl)
  unfold State.countTx
  dsimp only
  split
  · exact (State.sendView_bumpBy _ hn (m := n) (by simp [trafficRegs, F.GRF_TX_FLIT_CNT]) _).trans hu
  · exact hu

theorem State.sendView_sendPacket (x : Nat × Packet) : (s.sendPacket n x).sendView n = s.sendView n := by
  unfold State.sendPacket
  exact (State.sendView_countTx _ hn _).trans (s.sendView_updPort _ (fun _ => rfl) (fun _ => rfl))

theorem State.sendView_pumpPort (f : Nat) : (State.pumpPort n f s).sendView n = s.sendView n := by
  induction f generalizing s with
  | zero => rfl
  | succ f ih =>
    unfold State.pumpPort
    split
    · split
      · split
        · exact (ih _).trans (s.sendView_sendPacket hn _)
        · rfl
      · rfl
    · rfl

theorem State.sendView_pump : (s.pump n).sendView n = s.sendView n := s.sendView_pumpPort hn _

theorem State.sendView_portSend : (s.portSend n).sendView n = s.sendView n := by
  have hr : (s.resume n).sendView n = s.sendView n := by
    unfold State.resume
    split
    · rfl
    · exact (State.sendView_countTx _ hn _).trans (s.sendView_updPort _ (fun _ => rfl) (fun _ => rfl))
  exact (State.sendView_pump _ hn).trans hr

/-! ### What a good flit brings -/

omit hn in
theorem State.linkView_ackTo (seq : Nat) : (s.ackTo n seq).linkView n = s.linkView n := by
  unfold State.ackTo
  split
  · rfl
  · dsimp only
    split
    · rfl
    · exact s.linkView_updPort _ fun _ => rfl

theorem State.linkView_useAck (flit : List Byte) : (s.useAck n flit).linkView n = s.linkView n := by
  have ha : (if bitOf (fieldOf flit 2 2) 15 = true then s.ackTo n (fieldOf flit 2 2 % 4096) else s).linkView n = s.linkView n := by
    split
    · exact s.linkView_ackTo _
    · rfl
  unfold State.useAck
  dsimp only
  generalize (if bitOf (fieldOf flit 2 2) 15 = true then s.ackTo n (fieldOf flit 2 2 % 4096) else s) = u at ha ⊢
  refine (State.linkView_of_sendView (State.sendView_pump _ hn)).trans (Eq.trans ?_ ha)
  split
  · exact u.linkView_updPort _ fun _ => rfl
  · rfl

theorem State.linkView_countRx : (s.countRx n).linkView n = s.linkView n := by
  have hu := s.linkView_updPort (n := n) (fun p => { p with rxFlits := ((s.port n).rxFlits + 1) % 65536 }) (fun _ => rfl)
  unfold State.countRx
  dsimp only
  split
  · exact (State.linkView_bump _ hn (m := n) (by simp [trafficRegs, F.GRF_RX_FLIT_CNT])).trans hu
  · exact hu

omit hn in
theorem State.linkView_partNow (v : Nat) (p : Packet) (left : Nat) : (s.partNow n v p left).linkView n = s.linkView n := by
  have hu := s.linkView_updPort (n := n)
    (fun q => { q with partials := Sparse.set (fun _ => none) q.partials v (if left = 0 then none else some (p, left)) }) (fun _ => rfl)
  unfold State.partNow
  dsimp only
  generalize (s.updPort n fun q => { q with partials := Sparse.set (fun _ => none) q.partials v (if left = 0 then none else some (p, left)) }) = u at hu ⊢
  split
  · refine (u.linkView_updPort _ ?_).trans hu
    exact fun _ => rfl
  · exact hu

omit hn in
theorem State.linkView_recvSlot (v : Nat) (start : Bool) (b : List Byte) : (s.recvSlot n v start b).linkView n = s.linkView n := by
  unfold State.recvSlot
  split
  · exact s.linkView_partNow ..
  · split
    · exact s.linkView_partNow ..
    · rfl

omit hn in
theorem State.linkView_recvSlots (flit : List Byte) : (s.recvSlots n flit).linkView n = s.linkView n :=
  foldl_leaves (State.linkView n) (fun t k => by
    dsimp only
    split
    · exact t.linkView_recvSlot ..
    · rfl) _ _

omit hn in
theorem State.linkView_consume (x : Nat × Packet) : (s.consume n x).linkView n = s.linkView n := by
  have hu := s.linkView_updPort (n := n) (fun q => { q with inq := q.inq.erase x }) (fun _ => rfl)
  unfold State.consume State.freeSlots
  split
  · exact hu
  · refine (State.linkView_updPort _ _ ?_).trans hu
    exact fun _ => rfl

omit hn in
/-- A type with no row of its own is not answered. -/
theorem Packet.not_answered {p : Packet} (h : p.slotsDue = none) : answered p.ttype = false := by
  simp only [Packet.slotsDue] at h
  refine Bool.eq_false_of_not_eq_true fun ha => ?_
  simp only [answered, Bool.and_eq_true, Nat.ble_eq] at ha
  split_ifs at h
  omega

theorem State.linkView_dropReserved : (s.dropReserved n).linkView n = s.linkView n := by
  unfold State.dropReserved State.takeInbound
  split
  · rfl
  · next x hx =>
    have hc := s.linkView_consume (n := n) x
    dsimp only
    generalize s.consume n x = u at hc ⊢
    split
    · exact (u.linkView_bump hn (m := 0) (by simp [trafficRegs, F.GRF_FENCED_CNT])).trans hc
    · split
      · have hm := u.linkView_bump hn (f := F.GRF_MALFORMED_CNT) (m := 0) (by simp [trafficRegs, F.GRF_MALFORMED_CNT])
        have hr : x.2.slotsDue = none := by
          have hp := List.find?_some hx
          simpa using (Bool.and_eq_true_iff.mp hp).2
        rw [State.dropMalformed, if_pos (Packet.not_answered hr)]
        exact hm.trans hc
      · exact hc

end Port

/-! ### States of the link -/

/-- The page of an event shows it. -/
theorem State.event_raised (s : State) (p : Nat) {b : Nat} (hb : b < 32) : ((s.event p b).page p).eventRaw.getLsbD b = true := by
  rw [State.page_event]
  simp [hb]

theorem State.page_of_hdr {t : State} (h : t.hdr = s.hdr) (p : Nat) : t.page p = s.page p := by rw [State.page, State.page, h]

theorem lstate_mem_linkRegs (n : Nat) : (F.GRF_PORT_STATUS_LSTATE n).reg ∈ linkRegs n := List.mem_cons_self ..

section Link

variable (hn : n < 8) (s)
include hn

omit hn in
theorem State.lstate_of_linkCells {t : State} (h : t.linkCells n = s.linkCells n) : t.lstate n = s.lstate n :=
  State.fld_of_linkCells h (lstate_mem_linkRegs n)

theorem State.lstate_setLink {l : Nat} (hl : l < 8) : (s.setLink n l).lstate n = l := by
  rw [State.setLink, State.lstate_of_linkCells _ (State.linkCells_updCond _ hn _ _), State.lstate,
    State.fld_setFld_same _ _ _ (show 0 ≤ 2 by decide) (show 2 < 32 by decide)]
  exact Nat.mod_eq_of_lt hl

/-- The link's state shares PORT_STATUS with fields above it. -/
theorem State.fld_setLink (l : Nat) {f : Field} (hf : f.reg ∈ linkRegs n) (ha : f.reg ≠ R.GRF_PORT_STATUS n ∨ 2 < f.lo) :
    (s.setLink n l).fld f = s.fld f := by
  rw [State.setLink, State.fld_of_linkCells (State.linkCells_updCond _ hn _ _) hf]
  exact s.fld_setFld_apart l (show 0 ≤ 2 by decide) (show 2 < 32 by decide) (ha.imp id fun h => Or.inr h)

omit hn in
theorem State.port_setLink (l m : Nat) : (s.setLink n l).port m = s.port m := State.port_updCond _ _ _ _

/-! ### R521: training and alignment -/

theorem State.linkTrained_ends (h : s.lstate n = 1 ∨ s.lstate n = 6) : (s.linkTrained n).lstate n = 2 ∧
    (s.linkTrained n).fld (F.GRF_PORT_STATUS_LANES_OK n) = 15 ∧ (s.linkTrained n).grf = s.grf ∧ (s.linkTrained n).mem = s.mem := by
  have hi : (s.linkTrained n).inner = s.inner := by
    rw [State.linkTrained, if_pos h, State.setFld_inner, State.setLink, State.updCond_inner, State.setFld_inner, State.setLink,
      State.updCond_inner, State.setFld_inner]
  refine ⟨?_, ?_, (congrArg State.grf hi :), State.mem_of_inner hi⟩
  · rw [State.linkTrained, if_pos h, State.lstate, State.fld_setFld_apart _ _ (show 4 ≤ 7 by decide) (show 7 < 32 by decide)
      (Or.inr (Or.inl (show 2 < 4 by decide)))]
    exact State.lstate_setLink _ hn (by decide)
  · rw [State.linkTrained, if_pos h, State.fld_setFld_same _ _ _ (show 4 ≤ 7 by decide) (show 7 < 32 by decide)]
    rfl

theorem State.linkAligned_ends (h : s.lstate n = 2) : (s.linkAligned n).lstate n = 3 ∧
    (s.linkAligned n).port n = { s.port n with ctrl := s.exchangeSlot n } ∧ (s.linkAligned n).mem = s.mem := by
  rw [State.linkAligned, if_pos h, State.sendCtrl]
  refine ⟨State.lstate_setLink _ hn (by decide), ?_, ?_⟩
  · rw [State.port_updPort, State.port_setLink]
  · exact State.mem_updCond ..

/-! ### R516, R524: the EXCHANGE -/

/-- A link that becomes ACTIVE: its event is raised, and what its neighbour told stays shown. -/
theorem State.setLink_event (b : Nat) (hb : b < 32) {l : Nat} (hl : l < 8) : ((s.setLink n l).event (grfPage n) b).lstate n = l ∧
    (((s.setLink n l).event (grfPage n) b).page (grfPage n)).eventRaw.getLsbD b = true ∧
    ∀ f : Field, f.reg = R.GRF_PORT_STATUS n → 2 < f.lo → ((s.setLink n l).event (grfPage n) b).fld f = s.fld f := by
  have hc := (s.setLink n l).linkCells_event hn (grfPage n) b
  refine ⟨(State.lstate_of_linkCells _ hc).trans (s.lstate_setLink hn hl), State.event_raised _ _ hb, fun f hf hlo => ?_⟩
  have hm : f.reg ∈ linkRegs n := hf ▸ List.mem_cons_self ..
  exact (State.fld_of_linkCells hc hm).trans (s.fld_setLink hn l hm (Or.inr hlo))

omit hn in
theorem State.noteNeighbour_neighbour (node dir : Nat) : (s.noteNeighbour n node dir).fld (F.GRF_PORT_STATUS_NEIGHBOUR n) = node % 2 ^ 15 := by
  rw [State.noteNeighbour, State.fld_setFld_apart _ _ (show 8 ≤ 10 by decide) (show 10 < 32 by decide) (Or.inr (Or.inr (show 10 < 16 by decide))),
    State.fld_setFld_same _ _ _ (show 16 ≤ 30 by decide) (show 30 < 32 by decide)]
  rfl

omit hn in
theorem State.linkExchange_shut {node dir seq : Nat} {cfg : Word} (h : s.lstate n ≠ 3 ∧ s.lstate n ≠ 5 ∨ (s.page (grfPage n)).cond.fault = true ∨
    s.lstate n = 3 ∧ s.lockStops (grfPage n) = true) : s.linkExchange n node dir cfg seq = s := if_pos h

omit hn in
theorem State.linkExchange_open {node dir seq : Nat} {cfg : Word} (h : s.lstate n = 3 ∧ s.lockStops (grfPage n) = false ∨ s.lstate n = 5)
    (hf : (s.page (grfPage n)).cond.fault = false) : s.linkExchange n node dir cfg seq =
      if (s.noteNeighbour n node dir).wiringOk n dir cfg = false then
        (((s.noteNeighbour n node dir).error (grfPage n) 0x4012 0).event (grfPage n) 3).pageFault (grfPage n) 0x4012
      else if s.lstate n = 3 then (((s.noteNeighbour n node dir).setLink n 4).event (grfPage n) 0).pump n
      else ((((((s.noteNeighbour n node dir).ackTo n seq).updPort n (fun p => { p with replays := 0, ackAt := s.cycles, resend := true })).setFld
        (F.GRF_PORT_STATUS_LANES_OK n) 15).setLink n 4).event (grfPage n) 0).portSend n := by
  refine if_neg ?_
  rw [hf]
  rcases h with ⟨h3, hl⟩ | h5
  · simp [h3, hl]
  · simp [h5]

omit hn in
/-- What the page and the registers of a port show is the same after it has sent. -/
theorem State.shown_of_sendView {t : State} (h : t.sendView n = s.sendView n) : t.lstate n = s.lstate n ∧
    t.page (grfPage n) = s.page (grfPage n) ∧ (∀ f : Field, f.reg = R.GRF_PORT_STATUS n → t.fld f = s.fld f) ∧
    (t.port n).replays = (s.port n).replays := by
  obtain ⟨hv, hr⟩ := Prod.ext_iff.mp h
  obtain ⟨hh, -, hc⟩ := Prod.ext_iff.mp hv |>.imp id Prod.ext_iff.mp
  exact ⟨State.lstate_of_linkCells _ hc, State.page_of_hdr hh _, fun f hf => State.fld_of_linkCells hc (hf ▸ List.mem_cons_self ..), hr⟩

theorem State.linkExchange_active {node dir seq : Nat} {cfg : Word} (h3 : s.lstate n = 3) (hl : s.lockStops (grfPage n) = false)
    (hf : (s.page (grfPage n)).cond.fault = false) (hw : (s.noteNeighbour n node dir).wiringOk n dir cfg = true) :
    (s.linkExchange n node dir cfg seq).lstate n = 4 ∧ ((s.linkExchange n node dir cfg seq).page (grfPage n)).eventRaw.getLsbD 0 = true ∧
    (s.linkExchange n node dir cfg seq).fld (F.GRF_PORT_STATUS_NEIGHBOUR n) = node % 2 ^ 15 := by
  obtain ⟨hls, hev, hfld⟩ := (s.noteNeighbour n node dir).setLink_event hn 0 (by decide) (l := 4) (by decide)
  rw [s.linkExchange_open (Or.inl ⟨h3, hl⟩) hf, if_neg (by rw [hw]; exact Bool.noConfusion), if_pos h3]
  obtain ⟨hp1, hp2, hp3, -⟩ := State.shown_of_sendView _
    (State.sendView_pump (((s.noteNeighbour n node dir).setLink n 4).event (grfPage n) 0) hn)
  exact ⟨hp1.trans hls, by rw [hp2]; exact hev, (hp3 _ rfl).trans ((hfld _ rfl (show 2 < 16 by decide)).trans (s.noteNeighbour_neighbour node dir))⟩

theorem State.linkExchange_recovered {node dir seq : Nat} {cfg : Word} (h5 : s.lstate n = 5)
    (hf : (s.page (grfPage n)).cond.fault = false) (hw : (s.noteNeighbour n node dir).wiringOk n dir cfg = true) :
    (s.linkExchange n node dir cfg seq).lstate n = 4 ∧ ((s.linkExchange n node dir cfg seq).port n).replays = 0 ∧
    (s.linkExchange n node dir cfg seq).fld (F.GRF_PORT_STATUS_LANES_OK n) = 15 ∧
    ((s.linkExchange n node dir cfg seq).page (grfPage n)).eventRaw.getLsbD 0 = true := by
  rw [s.linkExchange_open (Or.inr h5) hf, if_neg (by rw [hw]; exact Bool.noConfusion), if_neg (by omega)]
  generalize hu : ((s.noteNeighbour n node dir).ackTo n seq).updPort n (fun p => { p with replays := 0, ackAt := s.cycles, resend := true }) = u
  have hr : (u.port n).replays = 0 := by rw [← hu, State.port_updPort]
  obtain ⟨hls, hev, hfld⟩ := (u.setFld (F.GRF_PORT_STATUS_LANES_OK n) 15).setLink_event hn 0 (by decide) (l := 4) (by decide)
  obtain ⟨hp1, hp2, hp3, hp4⟩ := State.shown_of_sendView _
    (State.sendView_portSend (((u.setFld (F.GRF_PORT_STATUS_LANES_OK n) 15).setLink n 4).event (grfPage n) 0) hn)
  refine ⟨hp1.trans hls, ?_, (hp3 _ rfl).trans ((hfld _ rfl (show 2 < 4 by decide)).trans ?_), by rw [hp2]; exact hev⟩
  · rw [hp4, State.port_event, State.port_setLink, State.port_setFld, hr]
  · rw [State.fld_setFld_same _ _ _ (show 4 ≤ 7 by decide) (show 7 < 32 by decide)]
    rfl

end Link

/-! ### R520, R523: flits -/

section Flits

variable (hn : n < 8) (s)
include hn

theorem State.linkView_dataFlit (pos : Nat) (levels : List Nat) : (s.dataFlit n pos levels).linkView n = (s.recvFlit n pos levels).linkView n :=
  foldl_leaves (State.linkView n) (fun t _ => t.linkView_dropReserved hn) _ _

omit hn in
/-- A discarded flit: the expected SEQ stays, and a NAK that names it has been sent. -/
theorem State.sendNak_port : ((s.sendNak n).port n).rxSeq = (s.port n).rxSeq ∧ ((s.sendNak n).port n).nakSent = true ∧
    ((s.port n).nakSent = false → ((s.sendNak n).port n).ctrl = nakSlot (s.port n).rxSeq) := by
  unfold State.sendNak
  split
  · next h => exact ⟨rfl, h, fun hf => absurd (hf.symm.trans h) Bool.false_ne_true⟩
  · simp [State.port_updPort, State.sendCtrl]

omit hn in
theorem State.sendNak_linkCells : (s.sendNak n).linkCells n = s.linkCells n := by
  unfold State.sendNak
  split <;> rfl

omit hn in
theorem State.recvFlit_none {pos : Nat} {levels : List Nat} (h4 : s.lstate n = 4) (hr : receiveLevels (pos % 1024) levels = none) :
    s.recvFlit n pos levels = (s.bump (F.GRF_FEC_UNCORR_CNT n)).recvBad n := by
  rw [State.recvFlit, if_neg (by omega), hr]

/-- A corrected codeword is counted. -/
def State.noteFixed (s : State) (n : Nat) (fixed : Bool) : State := if fixed then s.bump (F.GRF_FEC_CORR_CNT n) else s

omit hn in
theorem State.recvFlit_some {pos : Nat} {levels : List Nat} {fixed : Bool} {flit : List Byte} (h4 : s.lstate n = 4)
    (hr : receiveLevels (pos % 1024) levels = some (fixed, flit)) : s.recvFlit n pos levels =
      if fieldOf flit 0x4C 4 = crc32 (flit.take 0x4C) then (s.noteFixed n fixed).recvGood n flit else (s.noteFixed n fixed).recvBad n := by
  rw [State.recvFlit, if_neg (by omega), hr]
  rfl

omit hn in
theorem State.noteFixed_leaves (fixed : Bool) : (s.noteFixed n fixed).lstate n = s.lstate n ∧ (s.noteFixed n fixed).port n = s.port n ∧
    (s.noteFixed n fixed).fld (F.GRF_CRC_ERR_CNT n) = s.fld (F.GRF_CRC_ERR_CNT n) ∧
    (s.noteFixed n fixed).fld (F.GRF_FEC_CORR_CNT n) =
      if fixed then min (2 ^ 32 - 1) (s.fld (F.GRF_FEC_CORR_CNT n) + 1) else s.fld (F.GRF_FEC_CORR_CNT n) := by
  cases fixed with
  | false => exact ⟨rfl, rfl, rfl, rfl⟩
  | true =>
    have hb : s.noteFixed n true = s.bump (F.GRF_FEC_CORR_CNT n) := rfl
    have hl : R.GRF_PORT_STATUS n ≠ R.GRF_FEC_CORR_CNT n := by simp only [R.GRF_PORT_STATUS, R.GRF_FEC_CORR_CNT]; omega
    have hc : R.GRF_CRC_ERR_CNT n ≠ R.GRF_FEC_CORR_CNT n := by simp only [R.GRF_CRC_ERR_CNT, R.GRF_FEC_CORR_CNT]; omega
    rw [hb]
    exact ⟨State.fld_setFld_other _ _ hl, rfl, State.fld_setFld_other _ _ hc, State.fld_bump _ _ (show 0 ≤ 31 by decide) (show 31 < 32 by decide)⟩

/-- What the rest of a flit's handling leaves: the receiver of the port and the registers of its link. -/
theorem State.dataFlit_shows {pos : Nat} {levels : List Nat} {u : State} (h : (s.recvFlit n pos levels).linkView n = u.linkView n) :
    ((s.dataFlit n pos levels).port n).receiver = (u.port n).receiver ∧
    ∀ f : Field, f.reg ∈ linkRegs n → (s.dataFlit n pos levels).fld f = u.fld f := by
  obtain ⟨-, hv⟩ := Prod.ext_iff.mp ((s.linkView_dataFlit hn pos levels).trans h)
  obtain ⟨hr, hc⟩ := Prod.ext_iff.mp hv
  exact ⟨hr, fun f hf => State.fld_of_linkCells hc hf⟩

/-- A flit that is discarded in ACTIVE: counted, and a NAK called for. -/
theorem State.dataFlit_discarded {pos : Nat} {levels : List Nat} {u : State} (h4 : u.lstate n = 4) (hr : s.recvFlit n pos levels = u.recvBad n) :
    ((s.dataFlit n pos levels).port n).rxSeq = (u.port n).rxSeq ∧ ((s.dataFlit n pos levels).port n).nakSent = true ∧
    ((u.port n).nakSent = false → ((s.dataFlit n pos levels).port n).ctrl = nakSlot (u.port n).rxSeq) ∧
    (s.dataFlit n pos levels).fld (F.GRF_CRC_ERR_CNT n) = min (2 ^ 32 - 1) (u.fld (F.GRF_CRC_ERR_CNT n) + 1) ∧
    (s.dataFlit n pos levels).fld (F.GRF_FEC_UNCORR_CNT n) = u.fld (F.GRF_FEC_UNCORR_CNT n) := by
  have hl : R.GRF_PORT_STATUS n ≠ R.GRF_CRC_ERR_CNT n := by simp only [R.GRF_PORT_STATUS, R.GRF_CRC_ERR_CNT]; omega
  have hu : R.GRF_FEC_UNCORR_CNT n ≠ R.GRF_CRC_ERR_CNT n := by simp only [R.GRF_FEC_UNCORR_CNT, R.GRF_CRC_ERR_CNT]; omega
  have hc : (u.bump (F.GRF_CRC_ERR_CNT n)).lstate n = 4 := (State.fld_setFld_other _ _ hl).trans h4
  have he : u.recvBad n = (u.bump (F.GRF_CRC_ERR_CNT n)).sendNak n := if_pos hc
  obtain ⟨hp, hf⟩ := s.dataFlit_shows hn (u := (u.bump (F.GRF_CRC_ERR_CNT n)).sendNak n) (by rw [hr, he])
  obtain ⟨hrx, hns, hct⟩ := State.sendNak_port (n := n) (u.bump (F.GRF_CRC_ERR_CNT n))
  have hcell := State.sendNak_linkCells (n := n) (u.bump (F.GRF_CRC_ERR_CNT n))
  have hmem : R.GRF_CRC_ERR_CNT n ∈ linkRegs n ∧ R.GRF_FEC_UNCORR_CNT n ∈ linkRegs n := by simp [linkRegs]
  simp only [GrfPort.receiver, Prod.mk.injEq] at hp
  obtain ⟨h1, h2, h3⟩ := hp
  refine ⟨h1.trans hrx, h2.trans hns, fun h => h3.trans (hct h), ?_, ?_⟩
  · rw [hf _ hmem.1, State.fld_of_linkCells hcell hmem.1]
    exact State.fld_bump _ _ (show 0 ≤ 31 by decide) (show 31 < 32 by decide)
  · rw [hf _ hmem.2, State.fld_of_linkCells hcell hmem.2]
    exact State.fld_setFld_other _ _ hu

/-- An accepted DATA flit, after its acknowledgement and credit. -/
def State.flitAccepted (s : State) (n : Nat) : State := s.updPort n (fun p => { p with rxSeq := (p.rxSeq + 1) % 4096, nakSent := false })

theorem State.recvGood_data {flit : List Byte} (h4 : s.lstate n = 4) (hk : fieldOf flit 0 2 / 4096 = 1)
    (hq : fieldOf flit 0 2 % 4096 = (s.port n).rxSeq) : s.recvGood n flit = (((s.useAck n flit).flitAccepted n).countRx n).recvSlots n flit := by
  obtain ⟨-, hr, hc⟩ := Prod.ext_iff.mp (s.linkView_useAck hn flit) |>.imp id Prod.ext_iff.mp
  have hl : (s.useAck n flit).lstate n = 4 := (State.lstate_of_linkCells _ hc).trans h4
  have hx : ((s.useAck n flit).port n).rxSeq = (s.port n).rxSeq := congrArg Prod.fst hr
  unfold State.recvGood
  dsimp only
  rw [if_pos h4, if_pos hk, if_neg (by omega), if_pos (hq.trans hx.symm)]
  rfl

theorem State.dataFlit_accepted {pos : Nat} {levels : List Nat} {u : State} {flit : List Byte} (h4 : u.lstate n = 4)
    (hr : s.recvFlit n pos levels = u.recvGood n flit) (hk : fieldOf flit 0 2 / 4096 = 1) (hq : fieldOf flit 0 2 % 4096 = (u.port n).rxSeq) :
    ((s.dataFlit n pos levels).port n).rxSeq = ((u.port n).rxSeq + 1) % 4096 ∧ ((s.dataFlit n pos levels).port n).nakSent = false ∧
    (s.dataFlit n pos levels).fld (F.GRF_FEC_CORR_CNT n) = u.fld (F.GRF_FEC_CORR_CNT n) := by
  obtain ⟨-, hrc, hc⟩ := Prod.ext_iff.mp (u.linkView_useAck hn flit) |>.imp id Prod.ext_iff.mp
  have hview : (s.recvFlit n pos levels).linkView n = ((u.useAck n flit).flitAccepted n).linkView n := by
    rw [hr, u.recvGood_data hn h4 hk hq]
    exact (State.linkView_recvSlots _ flit).trans (State.linkView_countRx _ hn)
  obtain ⟨hp, hf⟩ := s.dataFlit_shows hn hview
  have hport : ((u.useAck n flit).flitAccepted n).port n =
      { (u.useAck n flit).port n with rxSeq := (((u.useAck n flit).port n).rxSeq + 1) % 4096, nakSent := false } := State.port_updPort _ _ _
  rw [hport] at hp
  have hx : ((u.useAck n flit).port n).rxSeq = (u.port n).rxSeq := congrArg Prod.fst hrc
  simp only [GrfPort.receiver, Prod.mk.injEq, hx] at hp
  obtain ⟨h1, h2, -⟩ := hp
  refine ⟨h1, h2, ?_⟩
  have hmem : R.GRF_FEC_CORR_CNT n ∈ linkRegs n := by simp [linkRegs]
  exact (hf _ hmem).trans (State.fld_of_linkCells hc hmem)

end Flits

/-! ### R523, R524: replay, recovery and the end of a link -/

theorem State.countTx_leaves (s : State) (n k : Nat) : ((s.countTx n k).port n).replays = (s.port n).replays ∧
    ((s.countTx n k).port n).replay = (s.port n).replay ∧ ∀ f : Field, f.reg ≠ R.GRF_TX_FLIT_CNT n → (s.countTx n k).fld f = s.fld f := by
  unfold State.countTx
  dsimp only
  generalize hu : s.updPort n (fun p => { p with txFlits := ((s.port n).txFlits + k) % 65536 }) = u
  have hr : (u.port n).replays = (s.port n).replays ∧ (u.port n).replay = (s.port n).replay := by
    rw [← hu, State.port_updPort]
    exact ⟨rfl, rfl⟩
  have hf : ∀ f, u.fld f = s.fld f := fun f => by rw [← hu]; rfl
  split
  · exact ⟨hr.1, hr.2, fun f h => (State.fld_setFld_other _ _ h).trans (hf f)⟩
  · exact ⟨hr.1, hr.2, fun f _ => hf f⟩

theorem State.replayFrom_sends (s : State) {n k : Nat} (h4 : s.lstate n = 4) (hp : (s.page (grfPage n)).pausing = false)
    (hk : k < (s.port n).replay.length) (h8 : (s.port n).replays < 8) : ((s.replayFrom n k).port n).replays = (s.port n).replays + 1 ∧
    (s.replayFrom n k).fld (F.GRF_REPLAY_CNT n) = min (2 ^ 32 - 1) (s.fld (F.GRF_REPLAY_CNT n) + 1) ∧
    ((s.replayFrom n k).port n).replay = (s.port n).replay := by
  have hstop : ¬(s.lstate n ≠ 4 ∨ (s.page (grfPage n)).pausing = true ∨ (s.port n).replay.length ≤ k) := by
    rw [hp]
    simp only [Bool.false_eq_true, false_or, not_or, not_not]
    omega
  have hc : R.GRF_REPLAY_CNT n ≠ R.GRF_TX_FLIT_CNT n := by simp only [R.GRF_REPLAY_CNT, R.GRF_TX_FLIT_CNT]; omega
  rw [State.replayFrom, if_neg hstop, if_neg (by omega)]
  dsimp only
  generalize hu : s.updPort n (fun p => { p with replays := p.replays + 1, ackAt := s.cycles }) = u
  have hport : u.port n = { s.port n with replays := (s.port n).replays + 1, ackAt := s.cycles } := hu ▸ State.port_updPort ..
  have hfld : u.fld (F.GRF_REPLAY_CNT n) = s.fld (F.GRF_REPLAY_CNT n) := by rw [← hu]; rfl
  obtain ⟨h1, h2, h3⟩ := (u.bump (F.GRF_REPLAY_CNT n)).countTx_leaves n ((u.port n).replay.length - k)
  refine ⟨h1.trans ?_, (h3 _ hc).trans ?_, h2.trans ?_⟩
  · rw [State.port_bump, hport]
  · rw [State.fld_bump _ _ (show 0 ≤ 31 by decide) (show 31 < 32 by decide), hfld]
    rfl
  · rw [State.port_bump, hport]

theorem State.replayFrom_recovers (s : State) {n k : Nat} (h4 : s.lstate n = 4) (hp : (s.page (grfPage n)).pausing = false)
    (hk : k < (s.port n).replay.length) (h8 : 8 ≤ (s.port n).replays) : s.replayFrom n k = s.linkRecover n := by
  have hstop : ¬(s.lstate n ≠ 4 ∨ (s.page (grfPage n)).pausing = true ∨ (s.port n).replay.length ≤ k) := by
    rw [hp]
    simp only [Bool.false_eq_true, false_or, not_or, not_not]
    omega
  rw [State.replayFrom, if_neg hstop, if_pos h8]

theorem State.linkNak_replays (s : State) {n seq q : Nat} {fl : List (Nat × Bool × List Byte)} {rest : List (Nat × List (Nat × Bool × List Byte))}
    (h : (s.port n).replay = (q, fl) :: rest) : s.linkNak n seq = s.replayFrom n ((seq + 4096 - q) % 4096) := by
  rw [State.linkNak, h]

section Link

variable (hn : n < 8) (s)
include hn

theorem State.linkRecover_ends : (s.linkRecover n).lstate n = 5 ∧
    (s.linkRecover n).fld (F.GRF_PORT_STATUS_LANES_OK n) = s.fld (F.GRF_PORT_STATUS_LANES_OK n) ∧
    ((s.linkRecover n).page (grfPage n)).eventRaw.getLsbD 1 = true ∧
    (s.linkRecover n).fld (F.GRF_RECOVER_CNT n) = min (2 ^ 32 - 1) (s.fld (F.GRF_RECOVER_CNT n) + 1) ∧
    ((s.linkRecover n).port n).recoverAt = s.cycles := by
  have hmem : (F.GRF_PORT_STATUS_LANES_OK n).reg ∈ linkRegs n := List.mem_cons_self ..
  have hrec : R.GRF_RECOVER_CNT n ≠ R.GRF_PORT_STATUS n := by simp only [R.GRF_RECOVER_CNT, R.GRF_PORT_STATUS]; omega
  have hpba : R.GRF_RECOVER_CNT n ≠ R.HIF_MSIX_PBA := by simp only [R.GRF_RECOVER_CNT, R.HIF_MSIX_PBA]; omega
  have hl := s.lstate_setLink hn (l := 5) (by decide)
  have ho := s.fld_setLink hn 5 hmem (Or.inr (show 2 < 4 by decide))
  have hr : (s.setLink n 5).fld (F.GRF_RECOVER_CNT n) = s.fld (F.GRF_RECOVER_CNT n) :=
    (State.fld_updCond _ _ _ hpba).trans (s.fld_setFld_other _ hrec)
  unfold State.linkRecover State.sendCtrl
  dsimp only
  generalize hv : s.setLink n 5 = v at hl ho hr
  generalize hu : (v.updPort n fun p => { p with recoverAt := s.cycles }).updPort n (fun p => { p with ctrl := s.exchangeSlot n }) = u
  have hport : (u.port n).recoverAt = s.cycles := by rw [← hu, State.port_updPort, State.port_updPort]
  have hfld : ∀ f, u.fld f = v.fld f := fun f => by rw [← hu]; rfl
  have he := State.linkCells_event (u.bump (F.GRF_RECOVER_CNT n)) hn (grfPage n) 1
  refine ⟨(State.lstate_of_linkCells _ he).trans ?_, (State.fld_of_linkCells he hmem).trans ?_, State.event_raised _ _ (by decide), ?_, ?_⟩
  · exact (State.fld_setFld_other _ _ hrec.symm).trans ((hfld _).trans hl)
  · exact (State.fld_setFld_other _ _ hrec.symm).trans ((hfld _).trans ho)
  · rw [State.fld_event _ _ _ hpba, State.fld_bump _ _ (show 0 ≤ 31 by decide) (show 31 < 32 by decide), hfld, hr]
    rfl
  · rw [State.port_event, State.port_bump, hport]

theorem State.recoverTimeout_ends (h5 : s.lstate n = 5)
    (ht : (s.port n).recoverAt + usCycles (s.fld (F.GRF_LINK_TIMING_RECOVER_US n)) ≤ s.cycles) : (s.recoverTimeout n).lstate n = 6 ∧
    (s.recoverTimeout n).fld (F.GRF_DOWN_CNT n) = min (2 ^ 32 - 1) (s.fld (F.GRF_DOWN_CNT n) + 1) ∧
    ((s.recoverTimeout n).page (grfPage n)).eventRaw.getLsbD 2 = true := by
  have hc := State.linkCells_portClear (s.setLink n 6) hn n
  have hmem : R.GRF_DOWN_CNT n ∈ linkRegs n := by simp [linkRegs]
  have hne : R.GRF_DOWN_CNT n ≠ R.GRF_PORT_STATUS n := by simp only [R.GRF_DOWN_CNT, R.GRF_PORT_STATUS]; omega
  have hd : ((s.setLink n 6).portClear n).fld (F.GRF_DOWN_CNT n) = s.fld (F.GRF_DOWN_CNT n) :=
    (State.fld_of_linkCells hc hmem).trans (s.fld_setLink hn 6 hmem (Or.inl hne))
  have hl : ((s.setLink n 6).portClear n).lstate n = 6 := (State.lstate_of_linkCells _ hc).trans (s.lstate_setLink hn (by decide))
  rw [State.recoverTimeout, if_pos ⟨h5, ht⟩]
  dsimp only
  generalize (s.setLink n 6).portClear n = u at hd hl
  have he := (State.linkCells_event ((u.bump (F.GRF_DOWN_CNT n)).error (grfPage n) 0x4011 0) hn (grfPage n) 2).trans
    (State.linkCells_error (u.bump (F.GRF_DOWN_CNT n)) hn (grfPage n) 0x4011 0)
  refine ⟨(State.lstate_of_linkCells _ he).trans ((State.fld_setFld_other _ _ hne.symm).trans hl), ?_, State.event_raised _ _ (by decide)⟩
  rw [State.fld_of_linkCells he hmem, State.fld_bump _ _ (show 0 ≤ 31 by decide) (show 31 < 32 by decide), hd]
  rfl

end Link

/-! ### The obligation, part by part -/

theorem linkTraining_acts (s : State) (dt : Nat) {n : Nat} (hn : n < 8) :
    let a := s.arrive dt
    (a.lstate n = 1 ∨ a.lstate n = 6 → ∃ t, exec (.linkTrainDone dt n) s = .next t ∧ t.lstate n = 2 ∧ t.fld (F.GRF_PORT_STATUS_LANES_OK n) = 15 ∧
      t.grf = a.grf ∧ t.mem = a.mem) ∧
    (a.lstate n ≠ 1 → a.lstate n ≠ 6 → exec (.linkTrainDone dt n) s = .next a) ∧
    (a.lstate n = 2 → ∃ t, exec (.linkAlignDone dt n) s = .next t ∧ t.lstate n = 3 ∧ t.port n = { a.port n with ctrl := a.exchangeSlot n } ∧
      t.mem = a.mem) ∧
    (a.lstate n ≠ 2 → exec (.linkAlignDone dt n) s = .next a) := by
  intro a
  have ht : exec (.linkTrainDone dt n) s = .next (a.linkTrained n) := rfl
  have hl : exec (.linkAlignDone dt n) s = .next (a.linkAligned n) := rfl
  clear_value a
  refine ⟨fun h => ⟨_, ht, a.linkTrained_ends hn h⟩, fun h1 h6 => ?_, fun h => ⟨_, hl, a.linkAligned_ends hn h⟩, fun h => ?_⟩
  · rw [ht, State.linkTrained, if_neg (by simp [h1, h6])]
  · rw [hl, State.linkAligned, if_neg h]

theorem linkExchange_acts (s : State) (dt : Nat) {n : Nat} (hn : n < 8) (node dir : Nat) (cfg : Word) (seq : Nat) :
    let a := s.arrive dt
    let b := a.noteNeighbour n node dir
    (a.lstate n ≠ 3 ∧ a.lstate n ≠ 5 ∨ (a.page (grfPage n)).cond.fault = true ∨ a.lstate n = 3 ∧ a.lockStops (grfPage n) = true →
      exec (.grfExchange dt n node dir cfg seq) s = .next a) ∧
    (a.lstate n = 3 ∧ a.lockStops (grfPage n) = false ∨ a.lstate n = 5 → (a.page (grfPage n)).cond.fault = false → b.wiringOk n dir cfg = false →
      exec (.grfExchange dt n node dir cfg seq) s = .next (((b.error (grfPage n) 0x4012 0).event (grfPage n) 3).pageFault (grfPage n) 0x4012)) ∧
    (a.lstate n = 3 → a.lockStops (grfPage n) = false → (a.page (grfPage n)).cond.fault = false → b.wiringOk n dir cfg = true →
      ∃ t, exec (.grfExchange dt n node dir cfg seq) s = .next t ∧ t.lstate n = 4 ∧
        (t.page (grfPage n)).eventRaw.getLsbD 0 = true ∧ t.fld (F.GRF_PORT_STATUS_NEIGHBOUR n) = node % 2 ^ 15) ∧
    (a.lstate n = 5 → (a.page (grfPage n)).cond.fault = false → b.wiringOk n dir cfg = true →
      ∃ t, exec (.grfExchange dt n node dir cfg seq) s = .next t ∧ t.lstate n = 4 ∧ (t.port n).replays = 0 ∧
        t.fld (F.GRF_PORT_STATUS_LANES_OK n) = 15 ∧ (t.page (grfPage n)).eventRaw.getLsbD 0 = true) := by
  intro a b
  have hx : exec (.grfExchange dt n node dir cfg seq) s = .next (a.linkExchange n node dir cfg seq) := rfl
  refine ⟨fun h => by rw [hx, a.linkExchange_shut h], fun h hf hw => ?_, fun h3 hl hf hw => ⟨_, hx, a.linkExchange_active hn h3 hl hf hw⟩,
    fun h5 hf hw => ⟨_, hx, a.linkExchange_recovered hn h5 hf hw⟩⟩
  rw [hx, a.linkExchange_open h hf, if_pos hw]

theorem dataFlit_acts (s : State) (dt : Nat) {n : Nat} (hn : n < 8) (pos : Nat) (levels : List Nat) :
    let a := s.arrive dt
    a.lstate n = 4 →
      (∀ fixed flit, receiveLevels (pos % 1024) levels = some (fixed, flit) →
        (fieldOf flit 0x4C 4 = crc32 (flit.take 0x4C) → fieldOf flit 0 2 / 4096 = 1 → fieldOf flit 0 2 % 4096 = (a.port n).rxSeq →
          ∃ t, exec (.dataFlit dt n pos levels) s = .next t ∧ (t.port n).rxSeq = ((a.port n).rxSeq + 1) % 4096 ∧ (t.port n).nakSent = false ∧
            t.fld (F.GRF_FEC_CORR_CNT n) = (if fixed then min (2 ^ 32 - 1) (a.fld (F.GRF_FEC_CORR_CNT n) + 1) else a.fld (F.GRF_FEC_CORR_CNT n))) ∧
        (fieldOf flit 0x4C 4 ≠ crc32 (flit.take 0x4C) →
          ∃ t, exec (.dataFlit dt n pos levels) s = .next t ∧ (t.port n).rxSeq = (a.port n).rxSeq ∧ (t.port n).nakSent = true ∧
            ((a.port n).nakSent = false → (t.port n).ctrl = nakSlot (a.port n).rxSeq) ∧
            t.fld (F.GRF_CRC_ERR_CNT n) = min (2 ^ 32 - 1) (a.fld (F.GRF_CRC_ERR_CNT n) + 1))) ∧
      (receiveLevels (pos % 1024) levels = none → ∃ t, exec (.dataFlit dt n pos levels) s = .next t ∧ (t.port n).rxSeq = (a.port n).rxSeq ∧
        (t.port n).nakSent = true ∧ ((a.port n).nakSent = false → (t.port n).ctrl = nakSlot (a.port n).rxSeq) ∧
        t.fld (F.GRF_FEC_UNCORR_CNT n) = min (2 ^ 32 - 1) (a.fld (F.GRF_FEC_UNCORR_CNT n) + 1)) := by
  intro a h4
  have hx : exec (.dataFlit dt n pos levels) s = .next (a.dataFlit n pos levels) := rfl
  clear_value a
  refine ⟨fun fixed flit hr => ?_, fun hr => ?_⟩
  · obtain ⟨hl, hp, hcrc, hcorr⟩ := a.noteFixed_leaves (n := n) fixed
    have hs := a.recvFlit_some h4 hr
    refine ⟨fun hc hk hq => ?_, fun hc => ?_⟩
    · rw [if_pos hc] at hs
      obtain ⟨h1, h2, h3⟩ := a.dataFlit_accepted hn (hl.trans h4) hs hk (by rw [hp, hq])
      exact ⟨_, hx, by rw [h1, hp], h2, h3.trans hcorr⟩
    · rw [if_neg hc] at hs
      obtain ⟨h1, h2, h3, hcnt, -⟩ := a.dataFlit_discarded hn (hl.trans h4) hs
      exact ⟨_, hx, by rw [h1, hp], h2, by rwa [hp] at h3, by rw [hcnt, hcrc]⟩
  · have hne : R.GRF_PORT_STATUS n ≠ R.GRF_FEC_UNCORR_CNT n := by simp only [R.GRF_PORT_STATUS, R.GRF_FEC_UNCORR_CNT]; omega
    obtain ⟨h1, h2, h3, -, hcnt⟩ := a.dataFlit_discarded hn ((State.fld_setFld_other _ _ hne).trans h4) (a.recvFlit_none h4 hr)
    exact ⟨_, hx, h1, h2, h3, hcnt.trans (State.fld_bump _ _ (show 0 ≤ 31 by decide) (show 31 < 32 by decide))⟩

theorem linkReplay_acts (s : State) (dt n : Nat) :
    let a := s.arrive dt
    (∀ seq q fl rest, a.lstate n = 4 → (a.page (grfPage n)).pausing = false → (a.port n).replay = (q, fl) :: rest →
      (seq + 4096 - q) % 4096 < (a.port n).replay.length →
        ((a.port n).replays < 8 → ∃ t, exec (.grfNak dt n seq) s = .next t ∧ (t.port n).replays = (a.port n).replays + 1 ∧
          t.fld (F.GRF_REPLAY_CNT n) = min (2 ^ 32 - 1) (a.fld (F.GRF_REPLAY_CNT n) + 1) ∧ (t.port n).replay = (a.port n).replay) ∧
        (8 ≤ (a.port n).replays → exec (.grfNak dt n seq) s = .next (a.linkRecover n))) ∧
    ((a.port n).ackAt + usCycles 2 ≤ a.cycles → exec (.replayTimeout dt n) s = .next (a.replayFrom n 0)) ∧
    (a.cycles < (a.port n).ackAt + usCycles 2 → exec (.replayTimeout dt n) s = .next a) := by
  intro a
  have hn : ∀ seq, exec (.grfNak dt n seq) s = .next (a.linkNak n seq) := fun _ => rfl
  have ht : exec (.replayTimeout dt n) s = .next (a.linkReplayTimeout n) := rfl
  clear_value a
  refine ⟨fun seq q fl rest h4 hp hr hk => ?_, fun h => ?_, fun h => ?_⟩
  · have hx := hn seq
    rw [a.linkNak_replays hr] at hx
    exact ⟨fun h8 => ⟨_, hx, a.replayFrom_sends h4 hp hk h8⟩, fun h8 => by rw [hx, a.replayFrom_recovers h4 hp hk h8]⟩
  · rw [ht, State.linkReplayTimeout, if_pos h]
  · rw [ht, State.linkReplayTimeout, if_neg (by omega)]

theorem linkLoss_acts (s : State) (dt : Nat) {n : Nat} (hn : n < 8) :
    let a := s.arrive dt
    (∀ lanes, a.lstate n = 4 → (lanes % 16 ≠ 15 ∨ 8 ≤ (a.port n).replays) → ∃ t, exec (.laneLockLost dt n lanes) s = .next t ∧ t.lstate n = 5 ∧
      t.fld (F.GRF_PORT_STATUS_LANES_OK n) = lanes % 16 ∧ (t.page (grfPage n)).eventRaw.getLsbD 1 = true ∧
      t.fld (F.GRF_RECOVER_CNT n) = min (2 ^ 32 - 1) (a.fld (F.GRF_RECOVER_CNT n) + 1) ∧ (t.port n).recoverAt = a.cycles) ∧
    (a.lstate n = 5 →
      ((a.port n).recoverAt + usCycles (a.fld (F.GRF_LINK_TIMING_RECOVER_US n)) ≤ a.cycles → ∃ t, exec (.recoverTimeout dt n) s = .next t ∧
        t.lstate n = 6 ∧ t.fld (F.GRF_DOWN_CNT n) = min (2 ^ 32 - 1) (a.fld (F.GRF_DOWN_CNT n) + 1) ∧ (t.page (grfPage n)).eventRaw.getLsbD 2 = true) ∧
      (a.cycles < (a.port n).recoverAt + usCycles (a.fld (F.GRF_LINK_TIMING_RECOVER_US n)) → exec (.recoverTimeout dt n) s = .next a)) := by
  intro a
  have hx : ∀ lanes, exec (.laneLockLost dt n lanes) s = .next (a.laneLockLost n lanes) := fun _ => rfl
  have hr : exec (.recoverTimeout dt n) s = .next (a.recoverTimeout n) := rfl
  clear_value a
  refine ⟨fun lanes h4 hl => ?_, fun h5 => ⟨fun ht => ⟨_, hr, a.recoverTimeout_ends hn h5 ht⟩, fun ht => ?_⟩⟩
  · have hy := hx lanes
    rw [State.laneLockLost, if_pos ⟨h4, hl⟩] at hy
    have hne : R.GRF_RECOVER_CNT n ≠ R.GRF_PORT_STATUS n := by simp only [R.GRF_RECOVER_CNT, R.GRF_PORT_STATUS]; omega
    obtain ⟨h1, h2, h3, h5, h6⟩ := (a.setFld (F.GRF_PORT_STATUS_LANES_OK n) (lanes % 16)).linkRecover_ends hn
    refine ⟨_, hy, h1, h2.trans ?_, h3, ?_, h6⟩
    · rw [State.fld_setFld_same _ _ _ (show 4 ≤ 7 by decide) (show 7 < 32 by decide)]
      exact Nat.mod_mod _ _
    · rw [h5, State.fld_setFld_other _ _ hne]
  · rw [hr, State.recoverTimeout, if_neg (by omega)]

/-- Settles O43: each event of the link by its own lemma above. -/
theorem linksComeUpAndRecover : Obligations.LinksComeUpAndRecover := by
  intro s dt n hn a
  obtain ⟨htrain, htrainNot, halign, halignNot⟩ := linkTraining_acts s dt hn
  obtain ⟨hnak, htimeout, htimeoutNot⟩ := linkReplay_acts s dt n
  obtain ⟨hlane, hdown⟩ := linkLoss_acts s dt hn
  exact ⟨htrain, htrainNot, halign, halignNot, fun node dir cfg seq => linkExchange_acts s dt hn node dir cfg seq,
    fun pos levels => dataFlit_acts s dt hn pos levels, hnak, htimeout, htimeoutNot, hlane, hdown⟩

end Sys2Proof.Machine
end

section
/-! PROOFS. The level at which a frame is admitted (R144 to R146). -/

namespace Sys2Proof.Machine

/-! ## The search for a level that fits -/

/-- A level finer than L3 that the search gives fits. -/
theorem firstFit_fits (fits : Nat → Bool) (n l : Nat) (h : firstFit fits n l < 3) : fits (firstFit fits n l) = true := by
  induction n generalizing l with
  | zero => exact absurd h (Nat.lt_irrefl 3)
  | succ n ih =>
    rw [firstFit] at h ⊢
    split_ifs at h ⊢ with hl
    · exact ih (l + 1) h
    · exact Bool.eq_true_of_not_eq_false fun hf => hl ⟨h, hf⟩

/-- The search never turns finer than the level it starts from. -/
theorem firstFit_coarsens (fits : Nat → Bool) (n l : Nat) (hl : l ≤ 3) : l ≤ firstFit fits n l := by
  induction n generalizing l with
  | zero => exact hl
  | succ n ih =>
    rw [firstFit]
    split_ifs with h
    · exact (Nat.le_succ l).trans (ih (l + 1) h.1)
    · exact Nat.le_refl l

/-- From L3 or a coarser level the search gives that level. -/
theorem firstFit_ge (fits : Nat → Bool) (n l : Nat) : l ≤ firstFit fits (n + 1) l := by
  by_cases hl : l ≤ 3
  · exact firstFit_coarsens fits (n + 1) l hl
  · rw [firstFit, if_neg fun h => hl h.1.le]

/-- The level that a search downward from `cur` meets first: none between it and `cur` has the property. -/
theorem find?_reverse_range {p : Nat → Bool} {cur l m : Nat} (h : (List.range cur).reverse.find? p = some l) (hl : l < m) (hm : m < cur) :
    p m = false := by
  induction cur with
  | zero => exact absurd hm (Nat.not_lt_zero m)
  | succ k ih =>
    rw [List.range_succ, List.reverse_append, List.reverse_singleton, List.singleton_append, List.find?_cons] at h
    split at h
    · exact absurd (Option.some.inj h) (by omega)
    · next hk =>
      obtain hm | rfl := Nat.lt_succ_iff_lt_or_eq.mp hm
      · exact ih h hm
      · exact hk

/-! ## Admission -/

section
variable (s : State) (f : Frame)

/-- A level that the frame may take and the cap allows. -/
def State.mayAdmit (l : Nat) : Bool := f.mayTake l && Nat.ble s.levelCap l

/-- One whose cost, too, fits what the budget leaves, at a CORE that runs. -/
def State.affords (l : Nat) : Bool := s.mayAdmit f l && !(s.fld F.GLB_CLOCK_STATUS_CORE_MHZ == 0) && Nat.ble (s.costAt f l) f.plan.rem

theorem State.affords_true {l : Nat} (h : s.affords f l = true) :
    s.costAt f l ≤ f.plan.hdr.budgetUs * 1000 - 410000 ∧ f.mayTake l = true ∧ s.levelCap ≤ l := by
  simp only [State.affords, State.mayAdmit, Bool.and_eq_true, Nat.ble_eq] at h
  obtain ⟨⟨⟨hmay, hcap⟩, -⟩, hcost⟩ := h
  exact ⟨hcost, hmay, hcap⟩

/-- The level that a streak of `k` frames gives: the finer one, or the present one. -/
theorem streak_level (k l cur : Nat) : (if k = 3 then (l, 0) else (cur, k)).1 = l ∨ (if k = 3 then (l, 0) else (cur, k)).1 = cur := by
  split
  · exact .inl rfl
  · exact .inr rfl

/-- The search of R146 starts no finer than the last frame's level, or, with the streak complete, at the next finer level that may be admitted. -/
theorem State.chooseLevel_search : ∃ start, (s.chooseLevel f).1 = firstFit (s.affords f) 4 start ∧
    (s.frm.cur ≤ start ∨ (List.range s.frm.cur).reverse.find? (s.mayAdmit f) = some start) := by
  unfold State.chooseLevel
  dsimp only
  refine ⟨_, rfl, ?_⟩
  split
  · next l h =>
    obtain he | he := streak_level _ l (max s.frm.cur f.binFine)
    · exact .inr (h.trans (congrArg some he.symm))
    · exact .inl ((Nat.le_max_left ..).trans_eq he.symm)
  · exact .inl (Nat.le_max_left ..)

end

/-- Settles O24: what the search gives below L3 fits; and it starts at the last frame's level, or at the next finer one that may be taken. -/
theorem admissionFitsTheBudget : Obligations.AdmissionFitsTheBudget := by
  intro s f _
  obtain ⟨start, hl, hs⟩ := s.chooseLevel_search f
  rw [hl]
  refine ⟨fun h3 => s.affords_true f (firstFit_fits _ 4 start h3), fun hc m hm hmc ht => ?_⟩
  have hge : start ≤ firstFit (s.affords f) 4 start := firstFit_ge _ 3 start
  have hno := find?_reverse_range (hs.resolve_left (by omega)) (hge.trans_lt hm) hmc
  exact Nat.not_le.mp fun hcap => by simp [State.mayAdmit, ht, Nat.ble_eq_true_of_le hcap] at hno

end Sys2Proof.Machine
end

section
/-! PROOFS. Ticks (R119 to R123, R154, R158). -/

namespace Sys2Proof.Machine

/-! ## What a tick latches (R120, R123) -/

section
variable (s : State)

@[simp] theorem State.bump_mem (f : Field) : (s.bump f).mem = s.mem := rfl
@[simp] theorem State.updTile_hdr (n : Nat) (f : Tile → Tile) : (s.updTile n f).hdr = s.hdr := rfl
theorem State.cell_updTile (n : Nat) (f : Tile → Tile) (k : Nat) : (s.updTile n f).cell k = s.cell k := rfl
theorem State.cell_updFrm (f : Frm → Frm) (k : Nat) : (s.updFrm f).cell k = s.cell k := rfl
theorem State.fld_updFrm (f : Frm → Frm) (x : Field) : (s.updFrm f).fld x = s.fld x := rfl

/-- A tile's test is cut short (R397). -/
def State.testCut (n : Nat) : State :=
  (s.updTile n (fun t => { t with underTest := false, idleSince := s.cycles })).setFld (F.TILE_TEST_STATUS_LAST n) 3

theorem State.testAbort_eq {n : Nat} {l : List Nat} (h : s.frm.testTiles = n :: l) : s.testAbort =
    (((n :: l).foldl (fun (t : State) n => t.testCut n) s).bump F.FRM_TEST_ABORT_CNT).updFrm
      (fun f => { f with testTiles := [], testWindow := [] }) := by
  unfold State.testAbort
  rw [h]
  rfl

theorem State.testCut_leaves (n : Nat) : (s.testCut n).hdr = s.hdr ∧ (s.testCut n).mem = s.mem ∧
    ∀ k, k < 0x80000 → (s.testCut n).cell k = s.cell k := by
  unfold State.testCut
  refine ⟨by rw [State.setFld_hdr, State.updTile_hdr], by rw [State.setFld_mem, State.updTile_mem], fun k hk => ?_⟩
  rw [State.cell_setFld_other, State.cell_updTile]
  simp only [F.TILE_TEST_STATUS_LAST, R.TILE_TEST_STATUS]
  omega

/-- The end of a test window is in the tiles, their TEST_STATUS and the count of aborted windows (R397). -/
theorem State.testAbort_leaves : s.testAbort.hdr = s.hdr ∧ s.testAbort.mem = s.mem ∧
    ∀ k, k < 0x80000 → k ≠ R.FRM_TEST_ABORT_CNT → s.testAbort.cell k = s.cell k := by
  cases h : s.frm.testTiles with
  | nil =>
    have hs : s.testAbort = s := by
      unfold State.testAbort
      rw [h]
    rw [hs]
    exact ⟨rfl, rfl, fun _ _ _ => rfl⟩
  | cons n l =>
    rw [s.testAbort_eq h]
    refine ⟨?_, ?_, fun k hk ha => ?_⟩
    · rw [State.updFrm_hdr, State.bump_hdr]
      exact foldl_leaves State.hdr (fun t n => (t.testCut_leaves n).1) _ s
    · rw [State.updFrm_mem, State.bump_mem]
      exact foldl_leaves State.mem (fun t n => (t.testCut_leaves n).2.1) _ s
    · rw [State.cell_updFrm, State.cell_bump _ _ ha]
      exact foldl_leaves (fun t : State => t.cell k) (fun t n => (t.testCut_leaves n).2.2 k hk) _ s

/-- A frame that ends without a test window is counted (R396). -/
def State.testMissed : State :=
  if s.flag F.FRM_TEST_CFG_TEST_EN && !s.frm.testDoneInFrame && !s.frm.beforeTick0 then s.bump F.FRM_TEST_SKIP_CNT else s

theorem State.testSkip_eq : s.testSkip =
    s.testMissed.updFrm (fun f => { f with testDoneInFrame := false, testAfterPub := false, beforeTick0 := false }) := rfl

theorem State.testSkip_leaves : s.testSkip.hdr = s.hdr ∧ s.testSkip.mem = s.mem ∧
    ∀ k, k ≠ R.FRM_TEST_SKIP_CNT → s.testSkip.cell k = s.cell k := by
  have h : s.testMissed.hdr = s.hdr ∧ s.testMissed.mem = s.mem ∧ ∀ k, k ≠ R.FRM_TEST_SKIP_CNT → s.testMissed.cell k = s.cell k := by
    unfold State.testMissed
    split_ifs
    · exact ⟨s.bump_hdr _, s.bump_mem _, fun k hk => State.cell_bump _ _ hk⟩
    · exact ⟨rfl, rfl, fun _ _ => rfl⟩
  rw [State.testSkip_eq, State.updFrm_hdr, State.updFrm_mem]
  exact h

/-- The instant of a tick goes into TICK_TS, the Frame Scheduler and the TICK event. -/
def State.tickLatch : State :=
  (((s.setFld F.FRM_TICK_TS_LO_TS (s.timebase % 2 ^ 32)).setFld F.FRM_TICK_TS_HI_TS (s.timebase / 2 ^ 32)).updFrm (fun f => { f with
    lastTickTs := s.timebase, lastTickAt := s.cycles, ticks := f.ticks + 1, syncHigh := f.syncOut && !f.extTick })).event 0x010 0

theorem State.tickNote_eq : s.tickNote = s.tickLatch.testAbort.testSkip := rfl

theorem State.tickNote_hdr : s.tickNote.hdr = s.tickLatch.hdr := (State.testSkip_leaves _).1.trans (State.testAbort_leaves _).1

theorem State.tickNote_mem : s.tickNote.mem = s.mem :=
  ((State.testSkip_leaves _).2.1.trans (State.testAbort_leaves _).2.1).trans (State.event_mem _ 0x010 0)

theorem State.tickNote_cell {k : Nat} (hk : k < 0x80000) (ha : k ≠ R.FRM_TEST_ABORT_CNT) (hs : k ≠ R.FRM_TEST_SKIP_CNT) :
    s.tickNote.cell k = s.tickLatch.cell k :=
  ((State.testSkip_leaves _).2.2 k hs).trans ((State.testAbort_leaves _).2.2 k hk ha)

/-- TICK_TS holds TIMEBASE. -/
theorem State.tickNote_ts : s.tickNote.fld F.FRM_TICK_TS_LO_TS = s.timebase % 2 ^ 32 ∧
    s.tickNote.fld F.FRM_TICK_TS_HI_TS = s.timebase / 2 ^ 32 % 2 ^ 32 := by
  have hlo : s.tickNote.fld F.FRM_TICK_TS_LO_TS = s.tickLatch.fld F.FRM_TICK_TS_LO_TS :=
    congrArg (getBits · 31 0) (s.tickNote_cell (by decide) (by decide) (by decide))
  have hhi : s.tickNote.fld F.FRM_TICK_TS_HI_TS = s.tickLatch.fld F.FRM_TICK_TS_HI_TS :=
    congrArg (getBits · 31 0) (s.tickNote_cell (by decide) (by decide) (by decide))
  rw [hlo, hhi, State.tickLatch, State.fld_event _ _ _ (by decide), State.fld_event _ _ _ (by decide), State.fld_updFrm,
    State.fld_updFrm,
    State.fld_setFld_other _ _ (by decide), State.fld_setFld_same _ _ _ (by decide) (by decide),
    State.fld_setFld_same _ _ _ (by decide) (by decide)]
  exact ⟨Nat.mod_mod _ _, rfl⟩

/-- What a tick notes in the Frame Scheduler. -/
theorem State.tickNote_notes : s.tickNote.frm.lastTickTs = s.timebase ∧ s.tickNote.frm.lastTickAt = s.cycles ∧
    s.tickNote.frm.ticks = s.frm.ticks + 1 ∧ s.tickNote.frm.syncHigh = (s.frm.syncOut && !s.frm.extTick) ∧
    s.tickNote.frm.ingest = s.frm.ingest ∧ s.tickNote.frm.compute = s.frm.compute := by
  obtain ⟨l, w, h⟩ := s.tickLatch.testAbort_frm
  rw [State.tickNote_eq, State.testSkip_frm, h, State.tickLatch, State.event_frm]
  exact ⟨rfl, rfl, rfl, rfl, rfl, rfl⟩

/-- A tick raises TICK. -/
theorem State.tickNote_event : (s.tickNote.page 0x010).eventRaw.getLsbD 0 = true := by
  rw [State.page_of_hdr s.tickNote_hdr]
  exact State.event_raised _ 0x010 (by decide)

end

/-! ## When a tick is made -/

section
variable {s : State}

/-- Multiples of the period from the phase that an instant has reached. -/
def State.periodsBy (s : State) (t : Nat) : Nat :=
  (t + 1000 * s.fld F.FRM_PERIOD_US_PERIOD - s.frm.phaseNs) / (1000 * s.fld F.FRM_PERIOD_US_PERIOD)

/-- The internal source makes a tick where a multiple of the period is reached that the last tick had not (R119). -/
theorem State.tick_due (hr : s.ticking = true) (hx : s.frm.extTick = false) (hp : 0 < 1000 * s.fld F.FRM_PERIOD_US_PERIOD)
    (hk : s.periodsBy s.frm.lastTickTs < s.periodsBy s.timebase) : s.tick = s.makeTick :=
  if_pos ⟨hr, hx, hp.ne', hk⟩

theorem State.tick_not_due (hk : s.periodsBy s.timebase ≤ s.periodsBy s.frm.lastTickTs) : s.tick = s :=
  if_neg fun h => hk.not_gt h.2.2.2

/-- An edge that makes a tick ends a row of flywheel ticks (R121, R158). -/
def State.edgeSeen (s : State) : State := s.updFrm (fun f => { f with flywheels := 0, syncLost := false })

/-- What the external source's edge does while frames are paced (R121, R154). -/
theorem State.syncEdge_eq (hr : s.ticking = true) (hx : s.frm.extTick = true) (hs : s.pinSees 1 = true) : s.syncEdge =
    if s.frm.beforeTick0 = true then s.edgeSeen.makeTick
    else if s.sinceTick < 98 * s.periodCycles then s.bump F.FRM_SYNC_EARLY_CNT
    else if s.sinceTick ≤ 102 * s.periodCycles ∨ s.frm.syncLost = true then s.edgeSeen.makeTick
    else s := if_pos ⟨hr, hx, hs⟩

/-- A period without an edge is counted, with its event (R122). -/
def State.edgeMissed (s : State) : State :=
  ((s.bump F.FRM_SYNC_MISSED_CNT).event 0x010 5).updFrm (fun f => { f with flywheels := f.flywheels + 1 })

@[simp] theorem State.edgeMissed_flywheels : s.edgeMissed.frm.flywheels = s.frm.flywheels + 1 := by simp [State.edgeMissed]

/-- The flywheel of a run whose source is not lost (R122, R158). -/
theorem State.flywheel_eq (hr : s.ticking = true) (hx : s.frm.extTick = true) (hb : s.frm.beforeTick0 = false) (hl : s.frm.syncLost = false) :
    s.flywheel = if 102 * s.periodCycles ≤ s.sinceTick then
      (if 7 ≤ s.frm.flywheels then (s.edgeMissed.updFrm (fun f => { f with syncLost := true })).error 0x010 0x3006 0 else s.edgeMissed).makeTick
    else s := by
  have h8 : 8 ≤ s.edgeMissed.frm.flywheels ↔ 7 ≤ s.frm.flywheels := by rw [State.edgeMissed_flywheels]; omega
  simp only [State.flywheel, if_pos (show s.ticking = true ∧ s.frm.extTick = true ∧ s.frm.beforeTick0 = false from ⟨hr, hx, hb⟩), hl,
    Bool.false_eq_true, if_false, ← h8]
  rfl

end

/-- Settles O20: the internal and the external source case by case, and what a tick latches. -/
theorem ticksMade : Obligations.TicksMade := by
  intro s dt a p edges missed
  have htick : exec (.tick dt) s = .next a.tick := rfl
  have hedge : exec (.frameSyncEdge dt) s = .next a.syncEdge := rfl
  have hfly : exec (.flywheelTick dt) s = .next a.flywheel := rfl
  have hout : exec (.syncOutEnd dt) s = .next a.syncOutEnd := rfl
  rw [htick, hedge, hfly, hout]
  clear_value a
  refine ⟨fun hr hx hp => ⟨fun hk => ?_, fun hk => ?_⟩, fun hr hx hs => ⟨fun hb => ?_, fun hb hlo hhi => ?_, fun hb hlo => ?_⟩,
    fun hr hx hb hl => ⟨fun hd h7 => ?_, fun hd h7 => ?_, fun hd => ?_⟩, fun h => ?_, fun h => ?_, ?_⟩
  · rw [State.tick_due hr hx hp hk]
  · rw [State.tick_not_due hk]
  · rw [State.syncEdge_eq hr hx hs, if_pos hb]
    rfl
  · rw [State.syncEdge_eq hr hx hs, if_neg (by simp [hb]), if_neg (by simpa [State.sinceTick] using hlo), if_pos (.inl hhi)]
    rfl
  · rw [State.syncEdge_eq hr hx hs, if_neg (by simp [hb]), if_pos (by simpa [State.sinceTick] using hlo)]
  · rw [State.flywheel_eq hr hx hb hl, if_pos (by exact hd), if_neg (by omega)]
    rfl
  · rw [State.flywheel_eq hr hx hb hl, if_pos (by exact hd), if_pos h7]
    rfl
  · rw [State.flywheel_eq hr hx hb hl, if_neg (by simpa [State.sinceTick] using hd)]
  · exact congrArg _ (if_pos h)
  · exact congrArg _ (if_neg (Nat.not_le.mpr h))
  · obtain ⟨hlo, hhi⟩ := a.tickNote_ts
    obtain ⟨hts, hat, hn, hs, hi, hc⟩ := a.tickNote_notes
    exact ⟨hlo, hhi, a.tickNote_event, hts, hat, hn, hs, hi, hc, a.tickNote_mem⟩

end Sys2Proof.Machine
end

section
/-! PROOFS. Time from the host (R124 to R129, R159). -/

namespace Sys2Proof.Machine

/-! ## Signed fields -/

/-- The code of an integer within the range of a field reads as that integer. -/
theorem signed_unsigned {n : Nat} {i : Int} (hlo : -(2 ^ n : Int) ≤ i) (hhi : i < 2 ^ n) :
    signed (n + 1) (unsigned (n + 1) i % 2 ^ (n + 1)) = i := by
  have hpow : ((2 ^ (n + 1) : Nat) : Int) = 2 * 2 ^ n := by push_cast; ring
  have hcode : ((unsigned (n + 1) i : Nat) : Int) = if i < 0 then i + 2 * 2 ^ n else i := by
    rw [unsigned, hpow, Int.toNat_of_nonneg (Int.emod_nonneg _ (by omega))]
    split_ifs with h
    · rw [← Int.add_emod_right, Int.emod_eq_of_lt (by omega) (by omega)]
    · rw [Int.emod_eq_of_lt (by omega) (by omega)]
  have hlt : unsigned (n + 1) i < 2 ^ (n + 1) := by
    zify
    split_ifs at hcode <;> push_cast [pow_succ] <;> omega
  have hhalf : ((2 ^ n : Nat) : Int) = 2 ^ n := by push_cast; rfl
  rw [signed, Nat.mod_mod, Nat.mod_eq_of_lt hlt, Nat.add_sub_cancel, hpow]
  split_ifs at hcode ⊢ <;> omega

theorem State.sfld_setSfld (s : State) {f : Field} (h : f.lo ≤ f.hi) (hh : f.hi < 32) {i : Int} (hlo : -(2 ^ (f.hi - f.lo) : Int) ≤ i)
    (hhi : i < 2 ^ (f.hi - f.lo)) : (s.setSfld f i).sfld f = i := by
  have hw : f.hi + 1 - f.lo = f.hi - f.lo + 1 := by omega
  rw [State.sfld, State.setSfld, State.fld_setFld_same _ _ _ h hh, hw]
  exact signed_unsigned hlo hhi

/-! ## The time state (R127, R161) -/

section
variable (s : State)

theorem State.setTimeState_state {st : Nat} (h : st < 4) : (s.setTimeState st).fld F.FRM_TIME_STATE = st := by
  unfold State.setTimeState
  split_ifs with hs
  · exact hs
  · rw [State.fld_event _ _ _ (by decide), State.fld_updFrm, State.fld_setFld_same _ _ _ (by decide) (by decide)]
    exact Nat.mod_eq_of_lt h

/-- A change of the time state is in TIME_STATE, the count of good samples and the event. -/
theorem State.setTimeState_leaves (st : Nat) : (s.setTimeState st).instant = s.instant ∧ (s.setTimeState st).mem = s.mem ∧
    ((s.setTimeState st).page 0x010).errCode = (s.page 0x010).errCode ∧ (∃ k, (s.setTimeState st).frm = { s.frm with sampleOk := k }) ∧
    (s.setTimeState st).fld F.FRM_TIME_OFFSET_NS = s.fld F.FRM_TIME_OFFSET_NS := by
  unfold State.setTimeState
  split_ifs
  · exact ⟨rfl, rfl, rfl, ⟨s.frm.sampleOk, rfl⟩, rfl⟩
  · refine ⟨?_, ?_, ?_, ⟨0, ?_⟩, ?_⟩
    · rw [State.event_instant, State.updFrm_instant, State.setFld_instant]
    · rw [State.event_mem, State.updFrm_mem, State.setFld_mem]
    · rw [State.page_event]
      rfl
    · rw [State.event_frm, State.updFrm_frm, State.setFld_frm]
    · rw [State.fld_event _ _ _ (by decide), State.fld_updFrm, State.fld_setFld_other _ _ (by decide)]

end

/-! ## An accepted sample in state FREE (R127, R129) -/

section
variable (s : State)

/-- The trim draws a free value, and is in TIME_RATE alone. -/
theorem State.setTrim_eq (dg dm e : Int) : ∃ v, s.setTrim dg dm e = s.drawFree.setFld F.FRM_TIME_RATE_PPB v := by
  unfold State.setTrim
  split_ifs
  · exact ⟨_, rfl⟩
  · exact ⟨_, rfl⟩

theorem State.framePaced_setFld (f : Field) (v : Nat) : (s.setFld f v).framePaced = s.framePaced := rfl

/-- The offset of a sample, saturated, goes into TIME_OFFSET. -/
def State.noteOffset (e : Int) : State := s.setSfld F.FRM_TIME_OFFSET_NS (clampInt (-2147483647) 2147483647 e)

theorem State.noteOffset_inner (e : Int) : (s.noteOffset e).inner = s.inner := s.setFld_inner _ _
theorem State.page_noteOffset (e : Int) (p : Nat) : (s.noteOffset e).page p = s.page p := s.page_setFld _ _ _
theorem State.framePaced_noteOffset (e : Int) : (s.noteOffset e).framePaced = s.framePaced := s.framePaced_setFld _ _

/-- The instants of a sample are kept for the next one. -/
def State.noteSample (gptp mark : Nat) : State :=
  s.updFrm (fun f => { f with sampleAt := s.cycles, sampleGptp := gptp, sampleMark := mark, sampled := true })

/-- The offset that a mark's gPTP time shows. -/
def State.markOffset (gptp : Nat) : Int := (gptp : Int) - ((s.fld F.FRM_MARK_TS_HI * 2 ^ 32 + s.fld F.FRM_MARK_TS_LO : Nat) : Int)

/-- The sample's offset is noted; with the trim drawn, TIMEBASE is stepped, or while frames are paced TIME_STEP_REFUSED is recorded. -/
def State.sampleTaken (e : Int) (trim : Nat) : State :=
  if s.framePaced then ((s.noteOffset e).error 0x010 0x3004 0).drawFree.setFld F.FRM_TIME_RATE_PPB trim
  else ((s.noteOffset e).drawFree.setFld F.FRM_TIME_RATE_PPB trim).stepTime e

theorem State.takeSample_free (gptp : Nat) (h : s.fld F.FRM_TIME_STATE = 0) : ∃ trim mark,
    s.takeSample gptp = ((s.sampleTaken (s.markOffset gptp) trim).noteSample gptp mark).setTimeState 1 := by
  unfold State.takeSample
  extract_lets mark e st t asks step u dg dm v w x
  have hasks : asks = true := by simp only [asks, st, h, beq_self_eq_true, Bool.true_or]
  have hpaced : t.framePaced = s.framePaced := s.framePaced_noteOffset e
  obtain ⟨trim, hv⟩ := u.setTrim_eq dg (if 0 < dm then dm else 0) e
  have hw : w = s.sampleTaken e trim := by
    have ht : s.noteOffset e = t := rfl
    simp only [w, v, hv, u, step, hasks, hpaced, State.sampleTaken, ht]
    cases s.framePaced <;> simp
  have hx : x = (s.sampleTaken e trim).noteSample gptp (if step = true then gptp else mark) := hw ▸ rfl
  refine ⟨trim, if step = true then gptp else mark, ?_⟩
  exact (if_pos h).trans (congrArg (fun y : State => y.setTimeState 1) hx)

/-- The offset noted reads saturated. -/
theorem State.sfld_noteOffset (e : Int) : (s.noteOffset e).sfld F.FRM_TIME_OFFSET_NS = max (-2147483647) (min 2147483647 e) := by
  have hlo : -2147483647 ≤ clampInt (-2147483647) 2147483647 e := le_max_left ..
  have hhi : clampInt (-2147483647) 2147483647 e ≤ 2147483647 := max_le (by decide) (min_le_left ..)
  refine State.sfld_setSfld s (f := F.FRM_TIME_OFFSET_NS) (by decide) (by decide) ?_ ?_
  · exact (by decide : -(2 ^ (31 - 0) : Int) ≤ -2147483647).trans hlo
  · exact hhi.trans_lt (by decide : (2147483647 : Int) < 2 ^ (31 - 0))

/-- While frames are not paced, the sample steps TIMEBASE. -/
theorem State.sampleTaken_free (e : Int) (trim : Nat) (h : s.framePaced = false) :
    s.sampleTaken e trim = ((s.noteOffset e).drawFree.setFld F.FRM_TIME_RATE_PPB trim).stepTime e := if_neg (by simp [h])

/-- While frames are paced, it records TIME_STEP_REFUSED. -/
theorem State.sampleTaken_paced (e : Int) (trim : Nat) (h : s.framePaced = true) :
    s.sampleTaken e trim = ((s.noteOffset e).error 0x010 0x3004 0).drawFree.setFld F.FRM_TIME_RATE_PPB trim := if_pos h

/-- A sample moves no instant but TIMEBASE, which it steps while frames are not paced. -/
theorem State.sampleTaken_leaves (e : Int) (trim : Nat) : (s.sampleTaken e trim).cycles = s.cycles ∧ (s.sampleTaken e trim).mem = s.mem ∧
    (s.sampleTaken e trim).fld F.FRM_TIME_OFFSET_NS = (s.noteOffset e).fld F.FRM_TIME_OFFSET_NS ∧
    (s.sampleTaken e trim).timebase = if s.framePaced then s.timebase else unsigned 64 ((s.timebase : Int) + e) := by
  have hn := s.noteOffset_inner e
  have hf : ∀ t : State, (t.drawFree.setFld F.FRM_TIME_RATE_PPB trim).fld F.FRM_TIME_OFFSET_NS = t.fld F.FRM_TIME_OFFSET_NS :=
    fun t => State.fld_setFld_other t.drawFree _ (by decide)
  cases h : s.framePaced with
  | false =>
    rw [s.sampleTaken_free e trim h, ← State.cycles_of_inner hn, ← State.mem_of_inner hn, ← State.timebase_of_inner hn]
    generalize s.noteOffset e = t at hf ⊢
    exact ⟨rfl, rfl, hf t, rfl⟩
  | true =>
    have hi := ((s.noteOffset e).error_inner 0x010 0x3004 0).trans hn
    have hc : ((s.noteOffset e).error 0x010 0x3004 0).fld F.FRM_TIME_OFFSET_NS = (s.noteOffset e).fld F.FRM_TIME_OFFSET_NS :=
      congrArg (getBits · 31 0) (State.cell_error _ _ _ _ (by decide) (by decide))
    rw [s.sampleTaken_paced e trim h, ← State.cycles_of_inner hi, ← State.mem_of_inner hi, ← State.timebase_of_inner hi, ← hc]
    generalize (s.noteOffset e).error 0x010 0x3004 0 = t at hf ⊢
    exact ⟨rfl, rfl, hf t, rfl⟩

/-- A step that is refused is recorded. -/
theorem State.sampleTaken_errCode (e : Int) (trim : Nat) (hp : s.framePaced = true) (h0 : (s.page 0x010).errCode = 0) :
    ((s.sampleTaken e trim).page 0x010).errCode = 0x3004 := by
  have hq : ((s.noteOffset e).page 0x010).errCode = 0 := by rw [s.page_noteOffset, h0]
  have hd : ∀ (t : State) (v : Nat), (t.drawFree.setFld F.FRM_TIME_RATE_PPB v).page 0x010 = t.page 0x010 := fun _ _ => rfl
  rw [s.sampleTaken_paced e trim hp, hd, State.page_error, if_pos rfl, PageHdr.take_first hq]

/-- What an accepted sample in state FREE leads to. -/
theorem State.takeSample_ends (gptp : Nat) (h : s.fld F.FRM_TIME_STATE = 0) :
    let e := s.markOffset gptp
    let t := s.takeSample gptp
    t.fld F.FRM_TIME_STATE = 1 ∧ t.frm.sampled = true ∧ t.frm.sampleGptp = gptp ∧ t.frm.sampleAt = s.cycles ∧
      t.sfld F.FRM_TIME_OFFSET_NS = max (-2147483647) (min 2147483647 e) ∧ t.mem = s.mem ∧
      (s.framePaced = false → t.timebase = unsigned 64 ((s.timebase : Int) + e)) ∧
      (s.framePaced = true → t.timebase = s.timebase ∧ ((s.page 0x010).errCode = 0 → (t.page 0x010).errCode = 0x3004)) := by
  intro e t
  obtain ⟨trim, mark, ht⟩ : ∃ trim mark, t = ((s.sampleTaken e trim).noteSample gptp mark).setTimeState 1 := s.takeSample_free gptp h
  clear_value t e
  subst ht
  obtain ⟨hcyc, hmem, hoff, htime⟩ := s.sampleTaken_leaves e trim
  have herr := s.sampleTaken_errCode e trim
  have hshow := s.sfld_noteOffset e
  rw [State.sfld, ← hoff] at hshow
  generalize s.sampleTaken e trim = u at hcyc hmem htime herr hshow ⊢
  obtain ⟨hinst, hmem', herr', ⟨k, hfrm⟩, hoff'⟩ := (u.noteSample gptp mark).setTimeState_leaves 1
  have htb : ((u.noteSample gptp mark).setTimeState 1).timebase = u.timebase := congrArg Prod.snd hinst
  rw [hfrm, htb, hmem', herr', State.sfld, hoff']
  exact ⟨State.setTimeState_state _ (by decide), rfl, rfl, hcyc, hshow, hmem, fun hp => htime.trans (if_neg (by simp [hp])),
    fun hp => ⟨htime.trans (if_pos hp), herr hp⟩⟩

/-! ## HOLDOVER (R127, R159) -/

theorem State.timeHoldover_due (h : s.fld F.FRM_TIME_STATE = 1 ∨ s.fld F.FRM_TIME_STATE = 2) (hc : s.frm.sampleAt + 800000000 ≤ s.cycles) :
    s.timeHoldover = (s.setTimeState 3).error 0x010 0x3005 0 := if_pos ⟨h, hc⟩

theorem State.timeHoldover_ends : let t := (s.setTimeState 3).error 0x010 0x3005 0
    t.fld F.FRM_TIME_STATE = 3 ∧ t.timebase = s.timebase ∧ t.mem = s.mem ∧
      ((s.page 0x010).errCode = 0 → (t.page 0x010).errCode = 0x3005) := by
  obtain ⟨hinst, hmem, herr, -, -⟩ := s.setTimeState_leaves 3
  have hi := (s.setTimeState 3).error_inner 0x010 0x3005 0
  refine ⟨?_, (State.timebase_of_inner hi).trans (congrArg Prod.snd hinst), (State.mem_of_inner hi).trans hmem, fun h0 => ?_⟩
  · rw [State.fld, State.cell_error _ _ _ _ (by decide) (by decide)]
    exact s.setTimeState_state (by decide)
  · rw [State.page_error, if_pos rfl, PageHdr.take_first (herr.trans h0)]

end

/-- Settles O22: marks, refused and accepted samples, and silence, each by its own lemma above. -/
theorem timeFromTheHost : Obligations.TimeFromTheHost := by
  intro s dt ctx seq gptp a mark e
  have hmark : exec (.timeMark dt) s = .next a.timeMark := rfl
  have hsample : exec (.timeSample dt ctx seq gptp) s = .next (a.timeSample ctx seq gptp) := rfl
  have hhold : exec (.timeHoldover dt) s = .next a.timeHoldover := rfl
  rw [hmark, hsample, hhold]
  clear_value a
  refine ⟨fun hs => ?_, fun hr => ?_, fun hc hq ht h0 => ?_, fun h => ⟨fun ht => ?_, fun ht => ?_⟩⟩
  · exact congrArg _ (if_pos hs)
  · exact congrArg _ (if_pos hr)
  · refine ⟨a.takeSample gptp, congrArg _ (if_neg ?_), a.takeSample_ends gptp h0⟩
    rintro (hx | hx | ⟨hx, hl⟩)
    · exact hx hc
    · exact hx hq
    · exact ht.elim (fun hf => absurd (hx.symm.trans hf) (by decide)) (fun hge => absurd hl (Nat.not_lt.mpr hge))
  · exact ⟨_, congrArg _ (a.timeHoldover_due h ht), a.timeHoldover_ends⟩
  · exact congrArg _ (if_neg fun hx => absurd hx.2 (Nat.not_le.mpr ht))

end Sys2Proof.Machine
end

section
/-! PROOFS. The override and the debug sessions: what notes, errors, events, causes and abandoned locks leave, and the frames and plans that
the override's end reaches (R92, R676 to R683). -/

namespace Sys2Proof.Machine

/-! ## Steps that only note something -/

/-- All that lies behind the registers, but the causes that act. -/
def State.kept (s : State) : State := { s.inner with saf := {} }

/-- Between two states something has been noted: errors, events, causes, conditions and locks may differ, with the pending bits of the vectors
and the count of losses of the log; no event is lost and no page has been written. -/
structure State.Noted (s t : State) : Prop where
  kept : t.kept = s.kept
  cell : ∀ k, k ≠ R.HIF_MSIX_PBA → k ≠ R.RST_RING_LOST_CNT → t.cell k = s.cell k
  writer : ∀ q, (t.page q).lastWriter = (s.page q).lastWriter
  event : ∀ q b, (s.page q).eventRaw.getLsbD b = true → (t.page q).eventRaw.getLsbD b = true

section
variable {s t u : State}

theorem State.Noted.refl (s : State) : s.Noted s := ⟨rfl, fun _ _ _ => rfl, fun _ => rfl, fun _ _ h => h⟩

theorem State.Noted.trans (h : s.Noted t) (g : t.Noted u) : s.Noted u where
  kept := g.kept.trans h.kept
  cell := fun k hp hl => (g.cell k hp hl).trans (h.cell k hp hl)
  writer := fun q => (g.writer q).trans (h.writer q)
  event := fun q b hb => g.event q b (h.event q b hb)

theorem State.kept_of_inner (h : t.inner = s.inner) : t.kept = s.kept := congrArg (fun x : State => { x with saf := {} }) h

theorem State.Noted.rst (h : s.Noted t) : t.rst = s.rst := (congrArg State.rst h.kept :)
theorem State.Noted.mem (h : s.Noted t) : t.mem = s.mem := (congrArg State.mem h.kept :)
theorem State.Noted.gpio (h : s.Noted t) : t.gpio = s.gpio := (congrArg State.gpio h.kept :)

theorem State.Noted.fld (h : s.Noted t) (f : Field) (hp : f.reg ≠ R.HIF_MSIX_PBA := by decide) (hl : f.reg ≠ R.RST_RING_LOST_CNT := by decide) :
    t.fld f = s.fld f := by
  rw [State.fld, h.cell _ hp hl, State.fld]

end

section
variable (s : State)

theorem State.noted_event (p b : Nat) : s.Noted (s.event p b) where
  kept := State.kept_of_inner (s.event_inner p b)
  cell := fun k hp _ => s.cell_event p b hp
  writer := fun q => by
    by_cases h : q = p
    · subst h
      rw [State.page_event]
    · rw [State.page_event_other _ _ _ h]
  event := fun q c hc => by
    by_cases h : q = p
    · subst h
      rw [State.page_event, BitVec.getLsbD_or, hc, Bool.true_or]
    · rwa [State.page_event_other _ _ _ h]

theorem PageHdr.take_keeps (h : PageHdr) (code : Nat) (info : Word) : (h.take code info).lastWriter = h.lastWriter := by
  unfold PageHdr.take
  split_ifs <;> rfl

theorem State.noted_error (p code : Nat) (info : Word) : s.Noted (s.error p code info) where
  kept := State.kept_of_inner (s.error_inner p code info)
  cell := fun k hp hl => s.cell_error p code info hp hl
  writer := fun q => by
    rw [State.page_error]
    split_ifs with h
    · subst h
      exact PageHdr.take_keeps _ _ _
    · rfl
  event := fun q c hc => by
    rw [State.page_error]
    split_ifs with h
    · subst h
      rw [BitVec.getLsbD_or, hc, Bool.true_or]
    · exact hc

theorem State.noted_note (code : Nat) (info : Word) : s.Noted (s.note code info) where
  kept := State.kept_of_inner (s.logged_inner _)
  cell := fun _ _ hl => by
    unfold State.note State.logged
    split_ifs
    · exact State.cell_bump _ _ hl
    · rfl
  writer := fun q => congrArg PageHdr.lastWriter (s.page_logged _ q)
  event := fun q c hc => by rwa [State.note, State.page_logged]

theorem State.noted_updCond (p : Nat) (f : Cond → Cond) : s.Noted (s.updCond p f) where
  kept := State.kept_of_inner (s.updCond_inner p f)
  cell := fun _ hp _ => s.cell_updCond p f hp
  writer := fun q => (congrArg PageHdr.lastWriter (s.rest_updCond f p q) :)
  event := fun _ _ hc => s.eventRaw_updCond p f hc

theorem State.noted_updSaf (f : Saf → Saf) : s.Noted (s.updSaf f) := ⟨rfl, fun _ _ _ => rfl, fun _ => rfl, fun _ _ h => h⟩

theorem State.noted_raiseCause (n : Nat) : s.Noted (s.raiseCause n) := by
  unfold State.raiseCause
  extract_lets t u
  have hu : s.Noted u := by
    unfold u
    split_ifs
    · exact (s.noted_event 0x160 n).trans (t.noted_updSaf _)
    · exact s.noted_event 0x160 n
  split_ifs
  · exact hu.trans (u.noted_updSaf _)
  · exact hu

/-- A cause of class A is of class B at most, where it is escalated: it does not enter the safe state (R755). -/
theorem State.latch_minor {n : Nat} (h : Cause.baseClass n = 0) (code : Nat) : s.latch n code = s.raiseCause n := by
  refine if_pos ?_
  rw [State.causeClass, h]
  unfold b2n
  split_ifs <;> decide

theorem State.noted_latch {n : Nat} (h : Cause.baseClass n = 0) (code : Nat) : s.Noted (s.latch n code) := by
  rw [s.latch_minor h]
  exact s.noted_raiseCause n

/-! ### Locks that are abandoned (R92) -/

/-- A header with its lock abandoned. -/
def PageHdr.unlocked (h : PageHdr) : PageHdr :=
  { h with lockHeld := false, lockOwner := 0, lockAbandoned := true, lockSeq := (h.lockSeq + 1) % 2 ^ 16 }

theorem State.noted_unlocked (p : Nat) : s.Noted (s.setPage p (s.page p).unlocked) where
  kept := rfl
  cell := fun _ _ _ => rfl
  writer := fun q => by
    rw [State.page_setPage]
    split_ifs with h
    · subst h
      rfl
    · rfl
  event := fun q c hc => by
    rw [State.page_setPage]
    split_ifs with h
    · subst h
      exact hc
    · exact hc

theorem State.noted_abandonLock (p : Nat) : s.Noted (s.abandonLock p) :=
  ((s.noted_unlocked p).trans (State.noted_error _ _ _ _)).trans (State.noted_event _ _ _)

theorem State.noted_updCyc (f : Cyc → Cyc) : s.Noted (s.updCyc f) := ⟨rfl, fun _ _ _ => rfl, fun _ => rfl, fun _ _ h => h⟩

theorem State.noted_abandonOnce (p : Nat) : s.Noted (s.abandonOnce p) := by
  unfold State.abandonOnce
  split_ifs
  · exact (s.noted_abandonLock p).trans (State.noted_updCyc _ _)
  · exact .refl s

theorem State.noted_abandonLocks (who : Nat → Bool) : s.Noted (s.abandonLocks who) := by
  unfold State.abandonLocks
  generalize s.hdr.filter _ = l
  induction l generalizing s with
  | nil => exact .refl s
  | cons x l ih => exact (s.noted_abandonOnce x.1).trans (ih _)

end

/-! ## Jobs, frames and plans: RST_STATUS is none of their registers -/

section
variable (s : State)

theorem State.status_jobDone (ctx ring : Nat) (j : Job) (code crc : Nat) :
    (s.jobDone ctx ring j code crc).cell R.RST_STATUS = s.cell R.RST_STATUS := by
  have hw : ((s.writeStatus ctx j 3 code crc).setJob ctx ring none).cell R.RST_STATUS = s.cell R.RST_STATUS := by
    unfold State.writeStatus
    split_ifs <;> rfl
  have hj : R.RST_STATUS ≠ (F.CTX_JOB_CNT ctx).reg := by simp only [F.CTX_JOB_CNT, R.CTX_JOB_CNT, R.RST_STATUS]; omega
  have he : R.RST_STATUS ≠ (F.CTX_ERR_CNT ctx).reg := by simp only [F.CTX_ERR_CNT, R.CTX_ERR_CNT, R.RST_STATUS]; omega
  unfold State.jobDone
  dsimp only
  split_ifs
  · rw [State.cell_bump _ _ (by decide), State.cell_setFld_other _ _ hj, hw]
  · rw [State.cell_bump _ _ (by decide), State.cell_setFld_other _ _ he, State.cell_bump _ _ (by decide), State.cell_setFld_other _ _ hj, hw]

theorem State.status_endWaiters (n code : Nat) : (s.endWaiters n code false).cell R.RST_STATUS = s.cell R.RST_STATUS := by
  unfold State.endWaiters
  generalize s.allJobs.filter _ = l
  induction l generalizing s with
  | nil => rfl
  | cons x l ih => exact (ih (s.jobDone x.1 x.2.1 x.2.2 code 0)).trans (s.status_jobDone x.1 x.2.1 x.2.2 code 0)

theorem State.regs_freeFrameBanks (f : Frame) : (s.freeFrameBanks f).regs = s.regs := by
  have hb : ∀ (t : State) (b : Option Nat), (t.freeBank b).regs = t.regs := fun t b => by
    unfold State.freeBank State.setBank
    split
    · split_ifs <;> rfl
    · rfl
  exact (hb _ _).trans (hb _ _)

theorem State.status_dropIngest : s.dropIngest.cell R.RST_STATUS = s.cell R.RST_STATUS := by
  unfold State.dropIngest
  split
  · rfl
  · exact congrArg (Sparse.get resetCell · R.RST_STATUS) (s.regs_freeFrameBanks _)

theorem State.status_ingestDropped : s.ingestDropped.cell R.RST_STATUS = s.cell R.RST_STATUS := by
  unfold State.ingestDropped
  extract_lets t u v
  have ht : t.cell R.RST_STATUS = s.cell R.RST_STATUS := by
    unfold t
    split
    · exact s.status_endWaiters _ _
    · rfl
  exact (t.status_dropIngest.trans ht :)

theorem State.status_updCond (p : Nat) (f : Cond → Cond) : (s.updCond p f).cell R.RST_STATUS = s.cell R.RST_STATUS :=
  s.cell_updCond p f (by decide)

theorem State.cell_release (p k : Nat) : (s.release p).cell k = s.cell k := rfl
theorem State.cell_updRst (f : Rst → Rst) (k : Nat) : (s.updRst f).cell k = s.cell k := rfl

theorem State.status_frmRest : s.frmRest.cell R.RST_STATUS = s.cell R.RST_STATUS := by
  unfold State.frmRest
  dsimp only
  rw [State.cell_release, State.status_updCond]

theorem State.status_frmDrain : s.frmDrain.cell R.RST_STATUS = s.cell R.RST_STATUS := by
  rw [State.frmDrain_eq]
  dsimp only
  split_ifs
  · rw [State.status_updCond, State.status_ingestDropped]
  · rw [State.status_frmRest, State.status_updCond, State.status_ingestDropped]

theorem State.status_frmStop : s.frmStop.cell R.RST_STATUS = s.cell R.RST_STATUS := by
  unfold State.frmStop
  dsimp only
  split
  · exact s.status_frmDrain
  · rfl

theorem State.status_showPlan : s.showPlan.cell R.RST_STATUS = s.cell R.RST_STATUS := by
  unfold State.showPlan
  dsimp only
  rw [State.cell_setFld_other _ _ (by decide), State.cell_setFld_other _ _ (by decide), State.cell_setFld_other _ _ (by decide)]

theorem State.status_setSlot (b st : Nat) (p : Plan) : (s.setSlot b st p).cell R.RST_STATUS = s.cell R.RST_STATUS := by
  have hb : R.RST_STATUS ≠ (planSlotState b).reg := by
    unfold planSlotState
    split_ifs <;> decide
  unfold State.setSlot
  dsimp only
  rw [State.status_showPlan, State.cell_setFld_other _ _ hb, State.cell_updFrm]

theorem State.status_emptySlot (b : Nat) : (s.emptySlot b).cell R.RST_STATUS = s.cell R.RST_STATUS := by
  unfold State.emptySlot
  extract_lets t
  rw [State.cell_updRst, State.status_setSlot]
  unfold t
  split_ifs
  · rfl
  · exact State.cell_setFld_other _ _ (by decide)

end

end Sys2Proof.Machine
end

section
/-! PROOFS. The override (R155, R676, R677, R679). -/

namespace Sys2Proof.Machine

/-! ## LIMITED -/

section
variable (s : State)

theorem State.fld_updRst (f : Rst → Rst) (x : Field) : (s.updRst f).fld x = s.fld x := rfl

variable {s} in
theorem State.override_of_status {t : State} (h : t.cell R.RST_STATUS = s.cell R.RST_STATUS) :
    t.flag F.RST_STATUS_OVERRIDE = s.flag F.RST_STATUS_OVERRIDE := congrArg (fun x => getBits x 20 20 == 1) h

theorem State.status_limit : s.limit.cell R.RST_STATUS = s.cell R.RST_STATUS := by
  unfold State.limit
  extract_lets t
  have ht : t.cell R.RST_STATUS = s.cell R.RST_STATUS := by
    unfold t
    split_ifs
    · rfl
    · rw [State.status_updCond, State.cell_event _ _ _ (by decide)]
  split_ifs
  · exact ht
  · exact ht
  · exact (t.status_updCond _ _).trans ht

theorem State.status_unlimit : s.unlimit.cell R.RST_STATUS = s.cell R.RST_STATUS := by
  unfold State.unlimit
  rw [State.cell_updFrm, State.status_updCond, State.status_updCond]

theorem State.status_evalLimited : s.evalLimited.cell R.RST_STATUS = s.cell R.RST_STATUS := by
  unfold State.evalLimited
  split
  · exact s.status_limit
  · exact s.status_unlimit

/-- LIMITED ends on the pages of Rootstock and of the Frame Scheduler. -/
theorem State.unlimit_ends : (s.unlimit.page 0x130).cond.limited = false ∧ (s.unlimit.page 0x010).cond.limited = false := by
  have hu : ∀ (t : State) (g : Frm → Frm) (p : Nat), (t.updFrm g).page p = t.page p := fun _ _ _ => rfl
  unfold State.unlimit
  rw [hu, hu]
  constructor
  · have h130 : 0x130 ≠ statePage 0x010 ∧ 0x130 ∉ instancePages (statePage 0x010) ∧ 0x130 ∉ instancePages 0x040 := by decide
    rw [State.page_updCond _ _ (.inr h130.2.2), State.page_setCond_other _ _ _ h130.1 h130.2.1]
    exact congrArg Cond.limited (s.cond_updCond _ 0x130)
  · exact congrArg Cond.limited (State.cond_updCond _ _ 0x010)

/-- What lifts LIMITED only notes, but for LIMITED itself. -/
theorem State.unlimit_noted : ∃ t : State, s.Noted t ∧ s.unlimit = t.updFrm (fun f => { f with limitAfter := false }) :=
  ⟨_, (s.noted_updCond _ _).trans (State.noted_updCond _ _ _), rfl⟩

end

/-! ## The override is set -/

section
variable (s : State) (w : Nat)

/-- The registers that show the override take a value. -/
def State.showOverride (v : Nat) : State := (s.setFld F.RST_STATUS_OVERRIDE v).setFld F.RST_VERSION_OVERRIDE_SET v

theorem State.showOverride_flag {v : Nat} (hv : v < 2) : (s.showOverride v).flag F.RST_STATUS_OVERRIDE = (v == 1) := by
  unfold State.showOverride
  rw [State.flag, State.fld_setFld_other _ _ (by decide), State.fld_setFld_same _ _ _ (by decide) (by decide)]
  exact congrArg (· == 1) (Nat.mod_eq_of_lt hv)

/-- The registers of an override that comes into force: no slot waits to be emptied. -/
def State.overrideRegs : State := (s.showOverride 1).updRst (fun r => { r with emptyAfter := 0 })

/-- The override is noted and reported to the SAF page (R677). -/
def State.overrideNoted : State := ((s.overrideRegs.note 0x0006 (word w)).event 0x130 2).latch Cause.override 0

theorem State.overrideRegs_flag : s.overrideRegs.flag F.RST_STATUS_OVERRIDE = true := by
  rw [State.overrideRegs, State.flag, State.fld_updRst]
  exact s.showOverride_flag (v := 1) (by decide)

theorem State.overrideNoted_shows : s.overrideRegs.Noted (s.overrideNoted w) ∧ ((s.overrideNoted w).page 0x130).eventRaw.getLsbD 2 = true := by
  have hl := State.noted_latch ((s.overrideRegs.note 0x0006 (word w)).event 0x130 2) (n := Cause.override) (by decide) 0
  exact ⟨((State.noted_note _ _ _).trans (State.noted_event _ _ _)).trans hl, hl.event _ _ (State.event_raised _ 0x130 (by decide))⟩

theorem State.overrideNoted_flag : (s.overrideNoted w).flag F.RST_STATUS_OVERRIDE = true := by
  rw [State.flag, (s.overrideNoted_shows w).1.fld F.RST_STATUS_OVERRIDE]
  exact s.overrideRegs_flag

theorem State.overrideSet_new (h : s.flag F.RST_STATUS_OVERRIDE = false) : s.overrideSet w = (s.overrideNoted w).unlimit := by
  have hl : (s.overrideNoted w).isLimited = false := by
    rw [State.isLimited, s.overrideNoted_flag w, Bool.not_true, Bool.and_false]
  have he : s.overrideSet w = (s.overrideNoted w).evalLimited := if_neg (by simp [h])
  rw [he, State.evalLimited, hl]
  rfl

theorem State.overrideSet_again (h : s.flag F.RST_STATUS_OVERRIDE = true) : s.overrideSet w = s := if_pos h

/-- An override that was not in force comes into force, and ends LIMITED. -/
theorem State.overrideSet_ends (h : s.flag F.RST_STATUS_OVERRIDE = false) : (s.overrideSet w).flag F.RST_STATUS_OVERRIDE = true ∧
    ((s.overrideSet w).page 0x130).cond.limited = false ∧ ((s.overrideSet w).page 0x010).cond.limited = false ∧
    ((s.overrideSet w).page 0x130).eventRaw.getLsbD 2 = true := by
  rw [s.overrideSet_new w h]
  obtain ⟨h130, h010⟩ := (s.overrideNoted w).unlimit_ends
  obtain ⟨t, ht, hu⟩ := (s.overrideNoted w).unlimit_noted
  refine ⟨?_, h130, h010, ?_⟩
  · exact (State.override_of_status (State.status_unlimit _)).trans (s.overrideNoted_flag w)
  · rw [hu]
    exact ht.event _ _ (s.overrideNoted_shows w).2

theorem State.degrade_override (h : s.flag F.RST_STATUS_OVERRIDE = true) : s.degrade % 2 = 1 := by
  rw [State.degrade, h]
  simp only [b2n, if_true]
  omega

/-! ## The override is cleared -/

theorem State.status_emptySlots (v : Nat) (l : List Nat) :
    (l.foldl (fun (t : State) b => if bitOf v b then t.emptySlot b else t) s).cell R.RST_STATUS = s.cell R.RST_STATUS := by
  refine foldl_leaves (fun t : State => t.cell R.RST_STATUS) (fun t b => ?_) l s
  split
  · exact t.status_emptySlot b
  · rfl

/-- The override's end may stop the Frame Scheduler, empty slots and bring LIMITED: none of these sets the override again (R679). -/
theorem State.dropOverride_flag : s.dropOverride.flag F.RST_STATUS_OVERRIDE = false := by
  unfold State.dropOverride
  extract_lets t v u x y z
  have ht : t.flag F.RST_STATUS_OVERRIDE = false := s.showOverride_flag (v := 0) (by decide)
  have hu : u.cell R.RST_STATUS = t.cell R.RST_STATUS := t.cell_updRst _ _
  have hx : x.cell R.RST_STATUS = u.cell R.RST_STATUS := by
    unfold x
    split
    · exact u.status_frmStop
    · rfl
  have hy : y.cell R.RST_STATUS = x.cell R.RST_STATUS := x.status_emptySlots v _
  have hz : z.cell R.RST_STATUS = x.cell R.RST_STATUS := by
    unfold z
    split
    · rfl
    · exact (y.cell_updRst _ _).trans hy
  exact (State.override_of_status (z.status_evalLimited.trans (hz.trans (hx.trans hu)))).trans ht

theorem State.overrideClear_clears (h : s.flag F.RST_STATUS_OVERRIDE = true) : (s.overrideClear w).flag F.RST_STATUS_OVERRIDE = false := by
  have hr : ∀ t : State, t.refreshActive.flag F.RST_STATUS_OVERRIDE = t.flag F.RST_STATUS_OVERRIDE := fun _ => rfl
  rw [State.overrideClear, if_pos h, hr]
  exact State.dropOverride_flag _

theorem State.overrideClear_again (h : s.flag F.RST_STATUS_OVERRIDE = false) : s.overrideClear w = s := if_neg (by simp [h])

end

/-! ## Writes of VERSION_OVERRIDE (R677) -/

section
variable {s : State}

theorem State.onRws_admitted {p off w : Nat} {v : Word} (h : s.admitsRws p off w v = true) (f : State → State) : s.onRws p off w v f = f s := by
  obtain ⟨ha, hr⟩ := Bool.and_eq_true_iff.mp h
  obtain ⟨hc, he⟩ := State.admits_iff.mp ha
  rw [State.onRws, hc]
  dsimp only
  rw [if_neg (by simpa using hr), he]

/-- The override once a keyed write has set or cleared it, by the override before. -/
theorem State.overrideSet_flag (s : State) (w : Nat) : (s.overrideSet w).flag F.RST_STATUS_OVERRIDE = true := by
  cases h : s.flag F.RST_STATUS_OVERRIDE
  · exact (s.overrideSet_ends w h).1
  · rwa [s.overrideSet_again w h]

theorem State.overrideClear_flag (s : State) (w : Nat) : (s.overrideClear w).flag F.RST_STATUS_OVERRIDE = false := by
  cases h : s.flag F.RST_STATUS_OVERRIDE
  · rwa [s.overrideClear_again w h]
  · exact s.overrideClear_clears w h

/-- A write of VERSION_OVERRIDE by the physical function: with the key it sets or clears the override, and without it nothing changes. -/
theorem State.writeOverride_pf {key x : Nat} (hx : x ≤ 1) (h : s.admitsRws 0x130 0x54 Writer.pf (word (key % 2 ^ 16 * 2 ^ 16 + x)) = true) :
    s.writeOverride Writer.pf (word (key % 2 ^ 16 * 2 ^ 16 + x)) = if key % 2 ^ 16 = 0x4F56 then
      (if x = 1 then s.overrideSet Writer.pf else s.overrideClear Writer.pf).wrote 0x130 Writer.pf else s := by
  obtain ⟨hkey, hbit⟩ := resetCtl_value key x hx
  rw [Nat.mod_eq_of_lt (Nat.lt_succ_of_le hx)] at hkey hbit
  rw [State.writeOverride, State.onRws_admitted h, hkey, hbit]
  simp only [true_or, true_and]

/-- What a write with the key leaves: the override as asked for, LIMITED ended where it came into force, and all as it was where it was so. -/
theorem State.overrideKeyed_acts (s : State) (w : Nat) {x : Nat} (hx : x ≤ 1) :
    let t := (if x = 1 then s.overrideSet w else s.overrideClear w).wrote 0x130 w
    t.flag F.RST_STATUS_OVERRIDE = (x == 1) ∧ (t.page 0x130).lastWriter = w ∧
      (x = 1 → s.flag F.RST_STATUS_OVERRIDE = false → (t.page 0x130).cond.limited = false ∧ (t.page 0x010).cond.limited = false ∧
        t.degrade % 2 = 1 ∧ (t.page 0x130).eventRaw.getLsbD 2 = true) ∧
      (s.flag F.RST_STATUS_OVERRIDE = (x == 1) → t.regs = s.regs ∧ t.rst = s.rst ∧ t.frm = s.frm) := by
  obtain rfl | rfl : x = 0 ∨ x = 1 := by omega
  · rw [if_neg (by decide)]
    refine ⟨s.overrideClear_flag w, State.wrote_lastWriter _ _ _, fun h => absurd h (by decide), fun h => ?_⟩
    rw [s.overrideClear_again w h]
    exact ⟨rfl, rfl, State.wrote_frm _ _ _⟩
  · rw [if_pos rfl]
    have hf : ((s.overrideSet w).wrote 0x130 w).flag F.RST_STATUS_OVERRIDE = true := s.overrideSet_flag w
    refine ⟨hf, State.wrote_lastWriter _ _ _, fun _ h => ?_, fun h => ?_⟩
    · obtain ⟨-, h130, h010, hev⟩ := s.overrideSet_ends w h
      simp only [State.page_wrote]
      exact ⟨h130, h010, State.degrade_override _ hf, hev⟩
    · rw [s.overrideSet_again w h]
      exact ⟨rfl, rfl, State.wrote_frm _ _ _⟩

end

end Sys2Proof.Machine
end

section
/-! PROOFS. Debug sessions, the halt and the JTAG instructions (R680 to R683, R819, R840), and O52. -/

namespace Sys2Proof.Machine

section
variable {s : State} {f : State → State} {ir : Nat}

theorem State.leaveScan_level : (s.leaveScan ir).dbgLevel = s.dbgLevel := rfl
theorem State.leaveScan_paced : (s.leaveScan ir).framePaced = s.framePaced := rfl
theorem State.leaveScan_rst : (s.leaveScan ir).rst = { s.rst with ir := jtagSelect ir } := rfl
theorem State.leaveScan_gpio : (s.leaveScan ir).gpio = { s.gpio with scan := false } := rfl
theorem State.leaveScan_mem : (s.leaveScan ir).mem = s.mem := rfl

theorem State.ifUp_up (h : s.rstUp = true) : (s.leaveScan ir).ifUp f = f (s.leaveScan ir) := if_pos h
theorem State.ifUp_down (h : s.rstUp = false) : (s.leaveScan ir).ifUp f = s.leaveScan ir := if_neg (Bool.not_eq_true _ ▸ h)

end

/-! ## A session opens and ends -/

section
variable (s : State)

@[simp] theorem State.bump_rst (f : Field) : (s.bump f).rst = s.rst := (congrArg State.rst (s.bump_inner f) :)
@[simp] theorem State.bump_cycles (f : Field) : (s.bump f).cycles = s.cycles := State.cycles_of_inner (s.bump_inner f)

/-- The registers that show a session take its level and its key slot. -/
def State.showSession (level key : Nat) : State :=
  ((s.setFld F.RST_DBG_STATUS_LEVEL level).setFld F.RST_DBG_STATUS_KEY_SLOT key).setFld F.RST_STATUS_DEBUG level

theorem State.showSession_level (level key : Nat) : (s.showSession level key).dbgLevel = level % 4 := by
  rw [State.dbgLevel, State.showSession, State.fld_setFld_other _ _ (by decide),
    State.fld_setFld_apart _ _ (by decide) (by decide) (by decide), State.fld_setFld_same _ _ _ (by decide) (by decide)]
  rfl

theorem State.showSession_debug (level key : Nat) : (s.showSession level key).fld F.RST_STATUS_DEBUG = level % 4 :=
  State.fld_setFld_same _ F.RST_STATUS_DEBUG _ (by decide) (by decide)

/-- An opened session before it is reported: its lease ends at `last`. -/
def State.dbgOpened (level key last : Nat) : State :=
  ((s.showSession level key).bump F.RST_DBG_OPEN_CNT).updRst (fun r => { r with leaseEnd := last, refusals := 0 })

/-- An ended session before it is reported. -/
def State.dbgEnded : State := (s.showSession 0 0).updRst (fun r => { r with leaseEnd := 0, halted := false })

theorem State.dbgOpen_eq (level key lease : Nat) : s.dbgOpen level key lease =
    (((s.dbgOpened level key (s.cycles + 200000000 * lease)).event 0x134 0).note 0x0008 (word (key * 16 + level))).latch Cause.debug 0 := by
  simp only [State.dbgOpen, State.dbgOpened, State.showSession, State.bump_cycles, State.setFld_cycles]

theorem State.dbgOpened_rst (level key last : Nat) :
    (s.dbgOpened level key last).rst = { s.rst with leaseEnd := last, refusals := 0 } := by
  simp only [State.dbgOpened, State.showSession, State.updRst_rst, State.bump_rst, State.setFld_rst]

theorem State.dbgOpened_level (level key last : Nat) : (s.dbgOpened level key last).dbgLevel = level % 4 := by
  rw [State.dbgLevel, State.dbgOpened, State.fld_updRst, State.fld, State.cell_bump _ _ (by decide), ← State.fld, ← State.dbgLevel,
    State.showSession_level]

theorem State.dbgEnded_behind : s.dbgEnded.rst = { s.rst with leaseEnd := 0, halted := false } ∧ s.dbgEnded.gpio = s.gpio ∧
    s.dbgEnded.mem = s.mem := by
  simp [State.dbgEnded, State.showSession]

theorem State.dbgEnded_level : s.dbgEnded.fld F.RST_DBG_STATUS_LEVEL = 0 := by
  rw [State.dbgEnded, State.fld_updRst, ← State.dbgLevel, State.showSession_level]

theorem State.dbgEnded_debug : s.dbgEnded.fld F.RST_STATUS_DEBUG = 0 := by
  rw [State.dbgEnded, State.fld_updRst, State.showSession_debug]

/-- What reports a session only notes, and its event is pending. -/
theorem State.noted_report (b code : Nat) (info : Word) (hb : b < 32) {t : State} (h : ((s.event 0x134 b).note code info).Noted t) :
    s.Noted t ∧ (t.page 0x134).eventRaw.getLsbD b = true :=
  ⟨((s.noted_event _ _).trans (State.noted_note _ _ _)).trans h,
    h.event _ _ ((State.noted_note _ code info).event _ _ (s.event_raised 0x134 hb))⟩

theorem State.dbgOpen_opens {level : Nat} (hl : level < 4) (key lease : Nat) : let t := s.dbgOpen level key lease
    t.dbgLevel = level ∧ t.rst.nonce = s.rst.nonce ∧ t.rst.leaseEnd = s.cycles + 200000000 * lease ∧ t.rst.refusals = 0 ∧
      (t.page 0x134).eventRaw.getLsbD 0 = true := by
  rw [State.dbgOpen_eq]
  generalize s.cycles + 200000000 * lease = last
  obtain ⟨hn, he⟩ := (s.dbgOpened level key last).noted_report 0 0x0008 (word (key * 16 + level)) (by decide)
    (State.noted_latch _ (n := Cause.debug) (by decide) 0)
  have hr := hn.rst.trans (s.dbgOpened_rst level key last)
  refine ⟨?_, (congrArg Rst.nonce hr :), (congrArg Rst.leaseEnd hr :), (congrArg Rst.refusals hr :), he⟩
  rw [State.dbgLevel, hn.fld F.RST_DBG_STATUS_LEVEL, ← State.dbgLevel, State.dbgOpened_level, Nat.mod_eq_of_lt hl]

variable {s}

theorem State.dbgEnd_none (h : s.dbgLevel = 0) (c : Nat) : s.dbgEnd c = s := if_pos h

theorem State.dbgEnd_noted (h : s.dbgLevel ≠ 0) (c : Nat) :
    s.dbgEnded.Noted (s.dbgEnd c) ∧ ((s.dbgEnd c).page 0x134).eventRaw.getLsbD 1 = true := by
  have he : s.dbgEnd c = ((s.dbgEnded.event 0x134 1).note 0x0009 (word c)).abandonLocks (· == Writer.debugger) := if_neg h
  rw [he]
  exact s.dbgEnded.noted_report 1 _ _ (by decide) (State.noted_abandonLocks _ _)

theorem State.dbgEnd_ends (h : s.dbgLevel ≠ 0) (c : Nat) : let t := s.dbgEnd c
    t.dbgLevel = 0 ∧ t.fld F.RST_STATUS_DEBUG = 0 ∧ t.rst.halted = false ∧ t.gpio = s.gpio ∧
      (t.page 0x134).eventRaw.getLsbD 1 = true ∧ t.mem = s.mem := by
  obtain ⟨hn, he⟩ := State.dbgEnd_noted h c
  obtain ⟨hr, hg, hm⟩ := s.dbgEnded_behind
  exact ⟨(hn.fld F.RST_DBG_STATUS_LEVEL).trans s.dbgEnded_level, (hn.fld F.RST_STATUS_DEBUG).trans s.dbgEnded_debug,
    (congrArg Rst.halted (hn.rst.trans hr) :), hn.gpio.trans hg, he, hn.mem.trans hm⟩

/-- No session is left, whether there was one or not. -/
theorem State.dbgEnd_level (c : Nat) : (s.dbgEnd c).dbgLevel = 0 := by
  by_cases h : s.dbgLevel = 0
  · rwa [State.dbgEnd_none h]
  · exact (State.dbgEnd_ends h c).1

/-- The end of a session leaves the registers of DBG_CFG and the last writer of every page. -/
theorem State.dbgEnd_leaves (c : Nat) : (s.dbgEnd c).cell R.RST_DBG_CFG = s.cell R.RST_DBG_CFG ∧
    ∀ q, ((s.dbgEnd c).page q).lastWriter = (s.page q).lastWriter := by
  by_cases h : s.dbgLevel = 0
  · rw [State.dbgEnd_none h]
    exact ⟨rfl, fun _ => rfl⟩
  · obtain ⟨hn, -⟩ := State.dbgEnd_noted h c
    have hp : s.dbgEnded.hdr = s.hdr := by simp [State.dbgEnded, State.showSession]
    refine ⟨?_, fun q => (hn.writer q).trans (congrArg PageHdr.lastWriter (State.page_of_hdr hp q))⟩
    rw [hn.cell R.RST_DBG_CFG (by decide) (by decide), State.dbgEnded, State.cell_updRst, State.showSession, State.cell_setFld_other _ _ (by decide), State.cell_setFld_other _ _ (by decide),
      State.cell_setFld_other _ _ (by decide)]

end

/-! ## Challenge and response (R680, R681) -/

theorem leNat_eq_zero (l : List Byte) : leNat l = 0 ↔ l.all (· == 0) = true := by
  induction l with
  | nil => simp [leNat]
  | cons x l ih =>
    have hx : x.toNat = 0 ↔ x = 0 := by
      rw [← BitVec.toNat_inj]
      rfl
    rw [leNat, List.all_cons, Bool.and_eq_true, ← ih, beq_iff_eq, ← hx]
    omega

theorem zeroAt_iff (l : List Byte) (o n : Nat) : zeroAt l o n = true ↔ fieldAt l o n = 0 := (leNat_eq_zero _).symm

section
variable (s : State)

/-- A refused response before it is weighed for a lockout. -/
def State.dbgCounted : State := ((s.error 0x134 0x8016 0).bump F.RST_DBG_FAIL_CNT).event 0x134 2

theorem State.dbgCounted_counts : s.dbgCounted.rst = s.rst ∧ s.dbgCounted.dbgLevel = s.dbgLevel ∧
    s.dbgCounted.fld F.RST_DBG_FAIL_CNT = min (2 ^ 32 - 1) (s.fld F.RST_DBG_FAIL_CNT + 1) ∧
    (s.dbgCounted.page 0x134).eventRaw.getLsbD 2 = true := by
  have he := s.noted_error 0x134 0x8016 0
  have hv := State.noted_event ((s.error 0x134 0x8016 0).bump F.RST_DBG_FAIL_CNT) 0x134 2
  refine ⟨hv.rst.trans he.rst, ?_, ?_, State.event_raised _ 0x134 (by decide)⟩
  · refine (hv.fld F.RST_DBG_STATUS_LEVEL).trans ?_
    exact (congrArg (getBits · 1 0) (State.cell_bump _ _ (by decide))).trans (he.fld F.RST_DBG_STATUS_LEVEL)
  · refine (hv.fld F.RST_DBG_FAIL_CNT).trans ?_
    rw [State.fld_bump _ _ (by decide) (by decide), he.fld F.RST_DBG_FAIL_CNT]
    rfl

theorem State.dbgRefuse_counts : let t := s.dbgRefuse
    t.dbgLevel = s.dbgLevel ∧ t.rst.nonce = s.rst.nonce ∧ t.rst.leaseEnd = s.rst.leaseEnd ∧
      t.fld F.RST_DBG_FAIL_CNT = min (2 ^ 32 - 1) (s.fld F.RST_DBG_FAIL_CNT + 1) ∧ (t.page 0x134).eventRaw.getLsbD 2 = true := by
  obtain ⟨hr, hl, hf, he⟩ := s.dbgCounted_counts
  have hd : s.dbgRefuse = if 4 ≤ s.dbgCounted.rst.refusals + 1 ∧ s.dbgCounted.flag F.RST_DBG_STATUS_LOCKOUT = false then
      (s.dbgCounted.setFld F.RST_DBG_STATUS_LOCKOUT 1).updRst
        (fun r => { r with refusals := 0, lockoutEnd := s.dbgCounted.cycles + 12000000000 })
      else s.dbgCounted.updRst (fun r => { r with refusals := s.dbgCounted.rst.refusals + 1 }) := rfl
  rw [hd]
  generalize s.dbgCounted = u at hr hl hf he
  split_ifs
  · dsimp only
    rw [State.updRst_rst, State.setFld_rst, hr]
    refine ⟨?_, rfl, rfl, ?_, he⟩
    · rw [State.dbgLevel, State.fld_updRst, State.fld_setFld_apart _ _ (by decide) (by decide) (by decide)]
      exact hl
    · rw [State.fld_updRst, State.fld_setFld_other _ _ (by decide), hf]
  · dsimp only
    rw [State.updRst_rst, hr]
    exact ⟨hl, rfl, rfl, hf, he⟩

variable {s} {r : List Byte}

theorem State.dbgResponse_reserved (h : fieldAt r 4 4 ≠ 0) : s.dbgResponse r = s.error 0x134 0x1001 (infoStruct 4) :=
  if_pos (by rwa [Bool.not_eq_true', ← Bool.not_eq_true, zeroAt_iff])

/-- A response without reserved bytes uses the nonce up, and opens a session or is refused. -/
theorem State.dbgResponse_weighed (h : fieldAt r 4 4 = 0) : s.dbgResponse r =
    let t := s.updRst (fun r => { r with nonce := none })
    if s.dbgAccepted r then t.dbgOpen (fieldAt r 0 1) (fieldAt r 1 1) (fieldAt r 2 2) else t.dbgRefuse :=
  if_neg (by simp [(zeroAt_iff r 4 4).mpr h])

/-- An accepted response asks for a level that DBG_CFG allows. -/
theorem State.dbgAccepted_level (h : s.dbgAccepted r = true) : fieldAt r 0 1 < 4 := by
  have hm : s.fld F.RST_DBG_CFG_MAX_LEVEL < 4 := getBits_lt _ 2 1
  unfold State.dbgAccepted at h
  split at h
  · exact absurd h (by decide)
  · simp only [Bool.and_eq_true, Nat.ble_eq] at h
    omega

theorem State.dbgResponse_acts (h : fieldAt r 4 4 = 0) : let t := s.dbgResponse r
    t.rst.nonce = none ∧
      (s.dbgAccepted r = true → t.dbgLevel = fieldAt r 0 1 ∧ t.rst.leaseEnd = s.cycles + 200000000 * fieldAt r 2 2 ∧ t.rst.refusals = 0 ∧
        (t.page 0x134).eventRaw.getLsbD 0 = true) ∧
      (s.dbgAccepted r = false → t.dbgLevel = s.dbgLevel ∧ t.rst.leaseEnd = s.rst.leaseEnd ∧
        t.fld F.RST_DBG_FAIL_CNT = min (2 ^ 32 - 1) (s.fld F.RST_DBG_FAIL_CNT + 1) ∧ (t.page 0x134).eventRaw.getLsbD 2 = true) := by
  rw [State.dbgResponse_weighed h]
  cases ha : s.dbgAccepted r
  · obtain ⟨hl, hn, he, hf, hv⟩ := State.dbgRefuse_counts (s.updRst (fun r => { r with nonce := none }))
    exact ⟨hn, fun h => absurd h (by decide), fun _ => ⟨hl, he, hf, hv⟩⟩
  · obtain ⟨hl, hn, he, hf, hv⟩ := State.dbgOpen_opens (s.updRst (fun r => { r with nonce := none })) (State.dbgAccepted_level ha)
      (fieldAt r 1 1) (fieldAt r 2 2)
    exact ⟨hn, fun _ => ⟨hl, he, hf, hv⟩, fun h => absurd h (by decide)⟩

end

/-! ## The register port of the debugger (R682) -/

section
variable {s : State} {addr : Nat}

theorem State.portRead_aligned (h : addr % 4 = 0) : (s.portRead addr 4).2 = s := by
  unfold State.portRead
  rw [if_neg (by omega), if_neg (by decide)]

theorem State.portRead_unaligned (h : addr % 4 ≠ 0) : (s.portRead addr 4).2 = s.badAccess (addr / 0x1000) (addr % 0x1000) 0 := by
  unfold State.portRead
  rw [if_pos (.inr h)]

/-- A read through the port in a session; without one the instruction acts as BYPASS. -/
theorem State.dbgReg_read (v : Word) : s.dbgReg addr false v =
    if s.dbgLevel = 0 then s.leaveScan 0x23 else ((s.leaveScan 0x23).portRead addr 4).2 := rfl

/-- A write through the port at level REGISTER or above. -/
theorem State.dbgReg_write (v : Word) : s.dbgReg addr true v =
    if s.dbgLevel < 2 then s.leaveScan 0x23
    else if addr % 4 = 0 then (s.leaveScan 0x23).regWrite (addr / 0x1000) (addr % 0x1000) Writer.debugger v
    else (s.leaveScan 0x23).badAccess (addr / 0x1000) (addr % 0x1000) Writer.debugger := rfl

end

/-! ## Lease, lockout and DBG_CFG -/

section
variable {s : State}

theorem State.leaseExpire_early (h : s.dbgLevel = 0 ∨ s.cycles < s.rst.leaseEnd) : s.leaseExpire = s := if_neg (by omega)

theorem State.leaseExpire_ends (hl : s.dbgLevel ≠ 0) (h : s.rst.leaseEnd ≤ s.cycles) : s.leaseExpire = s.dbgEnd 3 := if_pos ⟨hl, h⟩

theorem State.lockoutOver_early (h : s.cycles < s.rst.lockoutEnd) : s.lockoutOver = s := if_neg (by omega)

theorem State.lockoutOver_ends (h : s.rst.lockoutEnd ≤ s.cycles) (hl : s.flag F.RST_DBG_STATUS_LOCKOUT = true) :
    s.lockoutOver = s.setFld F.RST_DBG_STATUS_LOCKOUT 0 := if_pos ⟨hl, h⟩

/-- Level 0 is no encoding of MAX_LEVEL, and a write of it is not admitted. -/
theorem State.admitsRws_maxLevel {w : Nat} {v : Word} (h : s.admitsRws 0x134 0x4C w v = true) : getBits v 2 1 ≠ 0 := by
  obtain ⟨-, he⟩ := State.admits_iff.mp (Bool.and_eq_true_iff.mp h).1
  intro h0
  have hb : badOther 0x134 0x4C v = outside v 2 1 1 3 := by simp [badOther]
  have ho : outside v 2 1 1 3 = some 1 := if_pos (.inl (by omega))
  simp only [State.encodingBad, Nat.reduceLT, Nat.ble_eq, Nat.blt_eq, Bool.and_eq_true, Nat.reduceLeDiff, Nat.reduceEqDiff, and_false, and_true,
    and_self, reduceIte, hb, ho] at he
  split at he <;> exact Option.some_ne_none _ he

/-- DBG_CFG as a write leaves it. -/
def State.dbgConfigured (s : State) (w : Nat) (v : Word) : State :=
  ((s.setFld F.RST_DBG_CFG_MAX_LEVEL (getBits v 2 1)).setFld F.RST_DBG_CFG_ALLOW (getBits v 0 0)).wrote 0x134 w

theorem State.dbgConfigured_fields (s : State) (w : Nat) (v : Word) : let t := s.dbgConfigured w v
    t.fld F.RST_DBG_CFG_MAX_LEVEL = getBits v 2 1 ∧ t.fld F.RST_DBG_CFG_ALLOW = getBits v 0 0 ∧ t.dbgLevel = s.dbgLevel ∧
      (t.page 0x134).lastWriter = w := by
  refine ⟨?_, ?_, ?_, State.wrote_lastWriter _ _ _⟩
  · rw [State.dbgConfigured, State.fld_wrote, State.fld_setFld_apart _ _ (by decide) (by decide) (by decide),
      State.fld_setFld_same _ _ _ (by decide) (by decide)]
    exact Nat.mod_eq_of_lt (getBits_lt v 2 1)
  · rw [State.dbgConfigured, State.fld_wrote, State.fld_setFld_same _ _ _ (by decide) (by decide)]
    exact Nat.mod_eq_of_lt (getBits_lt v 0 0)
  · rw [State.dbgLevel, State.dbgConfigured, State.fld_wrote, State.fld_setFld_other _ _ (by decide), State.fld_setFld_other _ _ (by decide),
      State.dbgLevel]

theorem State.dbgCfgWrite_acts {w : Nat} {v : Word} (h : getBits v 2 1 ≠ 0) : let t := s.dbgCfgWrite w v
    t.fld F.RST_DBG_CFG_MAX_LEVEL = getBits v 2 1 ∧ t.fld F.RST_DBG_CFG_ALLOW = getBits v 0 0 ∧ (t.page 0x134).lastWriter = w ∧
      (getBits v 0 0 = 0 → t.dbgLevel = 0) ∧ (getBits v 0 0 = 1 → t.dbgLevel = s.dbgLevel) := by
  have he : s.dbgCfgWrite w v = if getBits v 0 0 = 0 then (s.dbgConfigured w v).dbgEnd 5 else s.dbgConfigured w v := if_neg h
  obtain ⟨hm, ha, hl, hw⟩ := s.dbgConfigured_fields w v
  rw [he]
  generalize s.dbgConfigured w v = u at hm ha hl hw
  split_ifs with h0
  · obtain ⟨hc, hp⟩ := u.dbgEnd_leaves 5
    exact ⟨(congrArg (getBits · 2 1) hc).trans hm, (congrArg (getBits · 0 0) hc).trans ha, (hp _).trans hw, fun _ => u.dbgEnd_level 5,
      fun h1 => absurd (h0.symm.trans h1) (by decide)⟩
  · exact ⟨hm, ha, hw, fun h => absurd h h0, fun _ => hl⟩

end

/-! ## The JTAG instructions (R819, R840) -/

section
variable {s : State} {ir : Nat}

/-- The instruction register and the hold on the pins are given. -/
def State.scanAt (s : State) (ir : Nat) (on : Bool) : State :=
  { s with rst := { s.rst with ir := ir }, gpio := { s.gpio with scan := on } }

theorem State.leaveScan_as : s.leaveScan ir = s.scanAt (jtagSelect ir) false := rfl

theorem State.selectScan_taken (hi : jtagSelect ir = ir) (hl : s.dbgLevel = 3) (hr : s.pstate 0x010 ≠ St.running) :
    s.selectScan ir = s.scanAt ir true := by
  have ht : s.selectScan ir = (s.scanAt (jtagSelect ir) false).updGpio (fun g => { g with scan := true }) := if_pos ⟨hl, hr⟩
  rw [ht, hi]
  rfl

theorem State.selectScan_left (hi : jtagSelect ir = ir) (h : s.dbgLevel ≠ 3 ∨ s.pstate 0x010 = St.running) :
    s.selectScan ir = s.scanAt ir false := by
  have hn : ¬(s.dbgLevel = 3 ∧ s.pstate 0x010 ≠ St.running) := by tauto
  have hl : s.selectScan ir = s.scanAt (jtagSelect ir) false := if_neg hn
  rw [hl, hi]

/-- An instruction of boundary scan that does not hold the pins acts as BYPASS. -/
theorem State.jtagActs_scan_off (hi : s.rst.ir = 0x00 ∨ s.rst.ir = 0x03 ∨ s.rst.ir = 0x04) (hs : s.gpio.scan = false) : s.jtagActs = 0x3F := by
  unfold State.jtagActs
  rw [if_pos hi, hs]
  rfl

theorem jtagSelect_of_code (h : ir ∈ jtagCodes) : jtagSelect ir = ir := if_pos (by simpa using h)

theorem jtagSelect_of_none (h : ir ∉ jtagCodes) : jtagSelect ir = 0x3F := if_neg (by simpa using h)

theorem State.jtagActs_bypass (h : s.rst.ir = 0x3F) : s.jtagActs = 0x3F := by
  simp [State.jtagActs, h]

theorem State.jtagCapture_idcode (h : s.rst.ir = 0x02) : s.jtagCapture = some (32, 0x10064D57) := by
  have ha : s.jtagActs = 0x02 := by simp [State.jtagActs, h]
  simp only [State.jtagCapture, ha, if_true]
  rfl

end

/-! ## The obligation -/

/-- Settles O52, by the rules of the override, of the sessions and of the JTAG instructions, one for each clause. -/
theorem overrideAndDebug : Obligations.OverrideAndDebug := by
  unfold Obligations.OverrideAndDebug
  intro s dt w a b d
  have hchallenge : ∀ n, exec (.dbgChallenge dt n) s = .next ((a.leaveScan 0x20).ifUp (fun s => s.dbgChallenge n)) := fun _ => rfl
  have hresponse : ∀ r, exec (.dbgResponse dt r) s = .next ((a.leaveScan 0x21).ifUp (fun s => s.dbgResponse r)) := fun _ => rfl
  have hreg : ∀ x r v, exec (.dbgReg dt x r v) s = .next (a.dbgReg x r v) := fun _ _ _ => rfl
  have hend : ∀ c ir, (c, ir) ∈ [(Instr.dbgClose dt, 0x24), (.tapReset dt, 0x02)] → ∃ k, exec c s = .next ((a.leaveScan ir).dbgEnd k) := by
    simp only [List.mem_cons, Prod.mk.injEq, List.not_mem_nil, or_false]
    rintro c ir (⟨rfl, rfl⟩ | ⟨rfl, rfl⟩)
    · exact ⟨1, rfl⟩
    · exact ⟨2, rfl⟩
  have hlease : exec (.debugLeaseExpire dt) s = .next a.leaseExpire := rfl
  have hlockout : exec (.debugLockoutEnd dt) s = .next a.lockoutOver := rfl
  have hcfg : ∀ v, exec (.dbgCfgWrite dt w v) s = .next (b.onRws 0x134 0x4C w v (fun s => s.dbgCfgWrite w v)) := fun _ => rfl
  have hhalt : exec (.dmiHalt dt) s = .next ((a.leaveScan 0x11).dmiHalt (a.leaveScan 0x11).framePaced) := rfl
  have hscan : ∀ c ir, (c, ir) ∈ [(Instr.jtagExtest dt, 0x00), (.jtagClamp dt, 0x03), (.jtagHighz dt, 0x04)] →
      exec c s = .next (a.selectScan ir) ∧ (ir = 0x00 ∨ ir = 0x03 ∨ ir = 0x04) ∧ jtagSelect ir = ir := by
    simp only [List.mem_cons, Prod.mk.injEq, List.not_mem_nil, or_false]
    rintro c ir (⟨rfl, rfl⟩ | ⟨rfl, rfl⟩ | ⟨rfl, rfl⟩)
    · exact ⟨rfl, by decide⟩
    · exact ⟨rfl, by decide⟩
    · exact ⟨rfl, by decide⟩
  have hother : ∀ ir, exec (.jtagOtherInstruction dt ir) s = .next (a.leaveScan ir) := fun _ => rfl
  have hover : ∀ key x c, (x, c) ∈ [(1, Instr.overrideSet dt w key), (0, .overrideClear dt w key)] →
      x ≤ 1 ∧ exec c s = .next (b.writeOverride w (word (key % 2 ^ 16 * 2 ^ 16 + x))) := by
    simp only [List.mem_cons, Prod.mk.injEq, List.not_mem_nil, or_false]
    rintro key x c (⟨rfl, rfl⟩ | ⟨rfl, rfl⟩)
    · exact ⟨Nat.le_refl 1, rfl⟩
    · rw [Nat.add_zero]
      exact ⟨Nat.zero_le 1, rfl⟩
  clear_value a b
  refine ⟨fun key x c hc ha hw => ?_, fun n => ⟨fun h => ?_, fun h => ?_⟩, fun r => ⟨fun h => ?_, fun h hr => ?_, fun h hr _ => ?_⟩,
    fun addr v => ⟨fun h => ?_, fun h hl => ?_, fun h => ?_, fun hl h => ?_, fun hl h => ?_⟩, fun c ir hc => ⟨fun h => ?_, fun h => ?_⟩,
    fun h => ?_, fun hl h => ?_, fun h => ?_, fun h hl => ?_, fun v hv => ?_, ⟨fun h => ?_, fun h => ⟨fun hp => ?_, fun hp => ?_⟩⟩,
    fun c ir hc => ⟨fun hl hr => ?_, fun h => ?_⟩, fun ir => ⟨hother ir, fun h => ?_, fun h => ?_⟩⟩
  · obtain ⟨hx, he⟩ := hover key x c hc
    subst hw
    rw [State.writeOverride_pf hx ha] at he
    exact ⟨fun hk => he.trans (congrArg _ (if_neg hk)), fun hk => ⟨_, he.trans (congrArg _ (if_pos hk)), b.overrideKeyed_acts _ hx⟩⟩
  · exact (hchallenge n).trans (congrArg _ (State.ifUp_down h))
  · exact (hchallenge n).trans (congrArg _ (State.ifUp_up h))
  · exact (hresponse r).trans (congrArg _ (State.ifUp_down h))
  · exact (hresponse r).trans (congrArg _ ((State.ifUp_up h).trans (State.dbgResponse_reserved hr)))
  · exact ⟨_, (hresponse r).trans (congrArg _ (State.ifUp_up h)), State.dbgResponse_acts (s := a.leaveScan 0x21) hr⟩
  · rw [hreg, State.dbgReg_read]
    split_ifs with hl
    · rfl
    · exact congrArg _ (State.portRead_aligned (h.resolve_right hl))
  · rw [hreg, State.dbgReg_read, if_neg hl, State.portRead_unaligned h]
  · rw [hreg, State.dbgReg_write, if_pos h]
  · rw [hreg, State.dbgReg_write, if_neg (by omega), if_neg h]
  · rw [hreg, State.dbgReg_write, if_neg (by omega), if_pos h]
  · obtain ⟨k, he⟩ := hend c ir hc
    exact he.trans (congrArg _ (State.dbgEnd_none (State.leaveScan_level.trans h) k))
  · obtain ⟨k, he⟩ := hend c ir hc
    obtain ⟨hl, hd, hh, hg, hv, hm⟩ := State.dbgEnd_ends (s := a.leaveScan ir) (State.leaveScan_level.trans_ne h) k
    exact ⟨_, he, hl, hd, hh, (congrArg Gpio.scan (hg.trans State.leaveScan_gpio) :), hv, hm.trans State.leaveScan_mem⟩
  · rw [hlease, State.leaseExpire_early h]
  · obtain ⟨hz, -, hh, -⟩ := State.dbgEnd_ends hl 3
    exact ⟨_, hlease.trans (congrArg _ (State.leaseExpire_ends hl h)), hz, hh⟩
  · rw [hlockout, State.lockoutOver_early h]
  · refine ⟨_, hlockout.trans (congrArg _ (State.lockoutOver_ends h hl)), ?_, ?_, fun k hk => ?_, State.setFld_hdr _ _ _⟩
    · rw [State.flag, State.fld_setFld_same _ _ _ (by decide) (by decide)]
      rfl
    · exact State.fld_setFld_apart _ _ (by decide) (by decide) (by decide)
    · exact State.cell_setFld_other _ _ (List.ne_of_not_mem_cons hk)
  · exact ⟨_, (hcfg v).trans (congrArg _ (State.onRws_admitted hv _)), State.dbgCfgWrite_acts (State.admitsRws_maxLevel hv)⟩
  · exact hhalt.trans (congrArg _ (if_pos h))
  · rw [hhalt]
    exact congrArg _ ((if_neg (not_not.mpr h)).trans (if_pos hp))
  · rw [hhalt]
    exact congrArg _ ((if_neg (not_not.mpr h)).trans (if_neg (by simpa [State.leaveScan_paced] using hp)))
  · obtain ⟨he, -, hi⟩ := hscan c ir hc
    exact he.trans (congrArg _ (State.selectScan_taken hi hl hr))
  · obtain ⟨he, hc, hi⟩ := hscan c ir hc
    exact ⟨he.trans (congrArg _ (State.selectScan_left hi h)), State.jtagActs_scan_off hc rfl⟩
  · exact State.jtagActs_bypass (jtagSelect_of_none h)
  · subst h
    exact State.jtagCapture_idcode (jtagSelect_of_code (ir := 0x02) (by decide))

end Sys2Proof.Machine
end

section
/-! PROOFS. A lane of the Sensor Link: what its windows, its acquisition, its gain steps and its zone loads write, and what they leave
(R163, R173 to R175, R177, R182, R199). -/

namespace Sys2Proof.Machine

variable {s t u : State} {n : Nat} {ks : List Nat}

/-! ## Registers and pages of a lane -/

/-- Two registers of one lane are apart. -/
theorem laneReg_ne {a b n : Nat} (h : a ≠ b) : a + 0x4000 * n ≠ b + 0x4000 * n := by omega

/-- The registers of the lanes end where those of the other blocks go on; the zones' entries are on pages of their own. -/
theorem laneReg_ne_beyond {a k n : Nat} (hn : n < 8) (ha : a < 0x24000) (hk : 0x40000 ≤ k) : a + 0x4000 * n ≠ k := by omega

theorem zoneReg_beyond (n z off : Nat) : 0x10C000 ≤ zoneReg n z off := by
  unfold zoneReg
  omega

theorem statePage_ctlPage (hn : n < 8) : statePage (ctlPage n) = ctlPage n := by
  revert n
  decide

/-! ## One field of a register -/

theorem State.fld_of_cell {f : Field} (h : t.cell f.reg = s.cell f.reg) : t.fld f = s.fld f := by rw [State.fld, h, State.fld]

theorem State.flag_of_fld {f : Field} (h : t.fld f = s.fld f) : t.flag f = s.flag f := by rw [State.flag, h, State.flag]

/-- A field of one bit. -/
theorem State.flag_setFld (s : State) (f : Field) (hb : f.hi = f.lo) (hh : f.hi < 32) (b : Bool) : (s.setFld f (b2n b)).flag f = b := by
  have hw : f.hi + 1 - f.lo = 1 := by omega
  rw [State.flag, State.fld_setFld_same _ _ _ hb.ge hh, hw]
  cases b <;> rfl

theorem State.flag_setFld_apart (s : State) {f g : Field} (v : Nat) (h : f.lo ≤ f.hi) (hh : f.hi < 32)
    (hd : g.reg ≠ f.reg ∨ g.hi < f.lo ∨ f.hi < g.lo) : (s.setFld f v).flag g = s.flag g :=
  State.flag_of_fld (s.fld_setFld_apart v h hh hd)

/-- A counter of 32 bits counts and saturates (R161). -/
theorem State.fld_bumpBy (s : State) (f : Field) (h : f.lo ≤ f.hi) (hh : f.hi < 32) (k : Nat) :
    (s.bumpBy f k).fld f = min (2 ^ (f.hi + 1 - f.lo) - 1) (s.fld f + k) := by
  have hp : 0 < 2 ^ (f.hi + 1 - f.lo) := by positivity
  rw [State.bumpBy, State.fld_setFld_same _ _ _ h hh, Nat.mod_eq_of_lt (by omega)]

/-! ## What a lane holds behind its registers -/

theorem State.lane_updLane (s : State) (n : Nat) (f : Lane → Lane) : (s.updLane n f).lane n = f (s.lane n) :=
  Sparse.get_set_same laneDefault s.slk.lanes n _

theorem State.cell_updLane (s : State) (n : Nat) (f : Lane → Lane) (k : Nat) : (s.updLane n f).cell k = s.cell k := rfl
@[simp] theorem State.updLane_regs (s : State) (n : Nat) (f : Lane → Lane) : (s.updLane n f).regs = s.regs := rfl
@[simp] theorem State.updLane_hdr (s : State) (n : Nat) (f : Lane → Lane) : (s.updLane n f).hdr = s.hdr := rfl
@[simp] theorem State.updLane_mem (s : State) (n : Nat) (f : Lane → Lane) : (s.updLane n f).mem = s.mem := rfl
theorem State.lane_setFld (s : State) (f : Field) (v n : Nat) : (s.setFld f v).lane n = s.lane n := rfl

theorem State.lane_of_inner (h : t.inner = s.inner) (n : Nat) : t.lane n = s.lane n := (congrArg (fun u : State => u.lane n) h :)

theorem State.lane_event (s : State) (p b n : Nat) : (s.event p b).lane n = s.lane n := State.lane_of_inner (s.event_inner p b) n

/-! ## Steps of a lane -/

/-- Between two states a lane has gone on: at most the registers `ks`, events and what lies behind the registers of lanes differ. -/
structure State.LaneStep (ks : List Nat) (s t : State) : Prop where
  regs : s.SameRegs t ks
  cond : ∀ p, (t.page p).cond = (s.page p).cond
  writer : ∀ p, (t.page p).lastWriter = (s.page p).lastWriter
  event : ∀ p b, (s.page p).eventRaw.getLsbD b = true → (t.page p).eventRaw.getLsbD b = true
  mem : t.mem = s.mem
  pwr : t.pwr = s.pwr

theorem State.LaneStep.of_hdr (hr : s.SameRegs t ks) (hh : t.hdr = s.hdr) (hm : t.mem = s.mem) (hp : t.pwr = s.pwr) : State.LaneStep ks s t :=
  have h := State.page_of_hdr hh
  ⟨hr, fun p => by rw [h], fun p => by rw [h], fun p b hb => by rwa [h], hm, hp⟩

theorem State.LaneStep.refl (ks : List Nat) (s : State) : State.LaneStep ks s s := .of_hdr (fun _ _ => rfl) rfl rfl rfl

theorem State.LaneStep.trans (h : State.LaneStep ks s t) (g : State.LaneStep ks t u) : State.LaneStep ks s u where
  regs := fun k hk => (g.regs k hk).trans (h.regs k hk)
  cond := fun p => (g.cond p).trans (h.cond p)
  writer := fun p => (g.writer p).trans (h.writer p)
  event := fun p b hb => g.event p b (h.event p b hb)
  mem := g.mem.trans h.mem
  pwr := g.pwr.trans h.pwr

theorem State.LaneStep.mono {js : List Nat} (h : State.LaneStep js s t) (hj : js ⊆ ks) : State.LaneStep ks s t :=
  { h with regs := fun k hk => h.regs k fun hm => hk (hj hm) }

theorem State.LaneStep.setCell (h : State.LaneStep ks s t) (k : Nat) (v : Word) (hk : k ∈ ks) : State.LaneStep ks s (t.setCell k v) :=
  h.trans (.of_hdr (fun _ hj => t.cell_setCell_other v fun he => hj (he ▸ hk)) rfl rfl rfl)

theorem State.LaneStep.setFld (h : State.LaneStep ks s t) (f : Field) (v : Nat) (hf : f.reg ∈ ks) : State.LaneStep ks s (t.setFld f v) :=
  h.setCell _ _ hf

theorem State.LaneStep.updLane (h : State.LaneStep ks s t) (n : Nat) (f : Lane → Lane) : State.LaneStep ks s (t.updLane n f) :=
  h.trans (.of_hdr (fun _ _ => rfl) rfl rfl rfl)

theorem State.LaneStep.drawFree (h : State.LaneStep ks s t) : State.LaneStep ks s t.drawFree :=
  h.trans (.of_hdr (fun _ _ => rfl) rfl rfl rfl)

theorem State.cond_event (s : State) (p b q : Nat) : ((s.event p b).page q).cond = (s.page q).cond := by
  by_cases hq : q = p
  · rw [hq, State.page_event]
  · rw [State.page_event_other _ _ _ hq]

theorem State.LaneStep.event_step (h : State.LaneStep ks s t) (hk : R.HIF_MSIX_PBA ∈ ks) (p b : Nat) : State.LaneStep ks s (t.event p b) :=
  have e := t.noted_event p b
  h.trans
    { regs := fun _ hj => t.cell_event p b fun he => hj (he ▸ hk)
      cond := t.cond_event p b
      writer := e.writer
      event := e.event
      mem := t.event_mem p b
      pwr := (congrArg State.pwr (t.event_inner p b) :) }

theorem State.LaneStep.fld (h : State.LaneStep ks s t) {f : Field} (hf : f.reg ∉ ks) : t.fld f = s.fld f := State.fld_of_cell (h.regs _ hf)

/-- Whether a lane's channel works is told by its STATE, its MODE, and the sentry function. -/
theorem State.laneRuns_of (hc : (t.page (ctlPage n)).cond = (s.page (ctlPage n)).cond)
    (hm : t.fld (F.SLK_LANE_CFG_MODE n) = s.fld (F.SLK_LANE_CFG_MODE n)) (hp : t.pwr = s.pwr)
    (hw : t.fld F.PWR_SENTRY_CFG_LANE = s.fld F.PWR_SENTRY_CFG_LANE) : t.laneRuns n = s.laneRuns n := by
  simp only [State.laneRuns, State.laneOn, State.sentryLane, hc, hm, hp, hw]

theorem State.LaneStep.laneRuns (h : State.LaneStep ks s t) (hm : R.SLK_LANE_CFG n ∉ ks) (hw : R.PWR_SENTRY_CFG ∉ ks) :
    t.laneRuns n = s.laneRuns n :=
  State.laneRuns_of (h.cond _) (h.fld hm) h.pwr (h.fld hw)

/-! ## Invalid windows and acquisition -/

section Status

variable (s : State) (n k : Nat)

/-- A lane with an open window of at least `k` symbols. -/
def Lane.withWindow (k : Nat) (l : Lane) : Lane := { l with ch := { l.ch with winLeft := max k l.ch.winLeft } }

/-- A lane whose acquisition schedule stands at its first row, with the fill pattern in phase `f`. -/
def Lane.reacquiring (f : Nat) (l : Lane) : Lane :=
  { l with ch := { l.ch with acqValid := 0, acqSum := 0, acqChecked := false, fill := f } }

theorem State.openWindow_eq : s.openWindow n k =
    if s.laneRuns n then (s.updLane n (Lane.withWindow k)).setFld (F.SLK_LANE_STATUS_INVALID n) 1 else s := rfl

theorem State.startAcq_eq : s.startAcq n =
    ((s.updLane n (Lane.reacquiring (s.freeVal % 4))).drawFree.setFld (F.SLK_LANE_STATUS_ACQ n) 1).setFld (F.SLK_LANE_STATUS_TRACK n) 0 := rfl

theorem State.openWindow_step : State.LaneStep [R.SLK_LANE_STATUS n] s (s.openWindow n k) := by
  rw [State.openWindow_eq]
  split_ifs
  · exact ((State.LaneStep.refl _ s).updLane n _).setFld (F.SLK_LANE_STATUS_INVALID n) 1 (.head _)
  · exact .refl _ s

theorem State.startAcq_step : State.LaneStep [R.SLK_LANE_STATUS n] s (s.startAcq n) :=
  (((State.LaneStep.refl _ s).updLane n _).drawFree.setFld (F.SLK_LANE_STATUS_ACQ n) 1 (.head _)).setFld (F.SLK_LANE_STATUS_TRACK n) 0 (.head _)

theorem State.restartAcq_step : State.LaneStep [R.SLK_LANE_STATUS n] s (s.restartAcq n) := by
  unfold State.restartAcq
  split_ifs
  · exact s.startAcq_step n
  · exact .refl _ s

/-- A window on a lane that runs ends at the later end (R182). -/
theorem State.openWindow_runs (h : s.laneRuns n = true) : (s.openWindow n k).flag (F.SLK_LANE_STATUS_INVALID n) = true ∧
    ((s.openWindow n k).lane n).ch.winLeft = max k (s.lane n).ch.winLeft := by
  rw [State.openWindow_eq, if_pos h]
  exact ⟨State.flag_setFld _ _ rfl (show 4 < 32 by decide) true, congrArg (fun l : Lane => l.ch.winLeft) (s.lane_updLane n (Lane.withWindow k))⟩

theorem State.openWindow_loops : ((s.openWindow n k).lane n).ch.loops = (s.lane n).ch.loops := by
  rw [State.openWindow_eq]
  split_ifs
  · exact (congrArg (fun l : Lane => l.ch.loops) (s.lane_updLane n (Lane.withWindow k)) :)
  · rfl

/-- Of LANE_STATUS a window changes INVALID alone. -/
theorem State.openWindow_fld {f : Field} (hf : f.reg ≠ R.SLK_LANE_STATUS n ∨ f.hi < 4 ∨ 4 < f.lo) : (s.openWindow n k).fld f = s.fld f := by
  rw [State.openWindow_eq]
  split_ifs
  · exact State.fld_setFld_apart _ _ (show 4 ≤ 4 by decide) (show 4 < 32 by decide) hf
  · rfl

theorem State.startAcq_flags : (s.startAcq n).flag (F.SLK_LANE_STATUS_ACQ n) = true ∧ (s.startAcq n).flag (F.SLK_LANE_STATUS_TRACK n) = false := by
  rw [State.startAcq_eq]
  refine ⟨?_, State.flag_setFld _ _ rfl (show 2 < 32 by decide) false⟩
  rw [State.flag_setFld_apart _ _ (show 2 ≤ 2 by decide) (show 2 < 32 by decide) (.inr (.inl (show 1 < 2 by decide)))]
  exact State.flag_setFld _ _ rfl (show 1 < 32 by decide) true

theorem State.startAcq_lane : (s.startAcq n).lane n = (s.lane n).reacquiring (s.freeVal % 4) :=
  s.lane_updLane n (Lane.reacquiring (s.freeVal % 4))

/-- Of LANE_STATUS the schedule changes ACQ and TRACK alone. -/
theorem State.startAcq_fld {f : Field} (hf : f.reg ≠ R.SLK_LANE_STATUS n ∨ f.hi < 1 ∨ 2 < f.lo) : (s.startAcq n).fld f = s.fld f := by
  rw [State.startAcq_eq,
    State.fld_setFld_apart _ _ (show 2 ≤ 2 by decide) (show 2 < 32 by decide) (hf.imp id (Or.imp Nat.lt_succ_of_lt id)),
    State.fld_setFld_apart _ _ (show 1 ≤ 1 by decide) (show 1 < 32 by decide) (hf.imp id (Or.imp id Nat.lt_of_succ_lt))]
  rfl

theorem State.restartAcq_window : ((s.restartAcq n).lane n).ch.winLeft = (s.lane n).ch.winLeft ∧
    (s.restartAcq n).flag (F.SLK_LANE_STATUS_INVALID n) = s.flag (F.SLK_LANE_STATUS_INVALID n) := by
  unfold State.restartAcq
  split_ifs
  · exact ⟨(congrArg (fun l : Lane => l.ch.winLeft) (s.startAcq_lane n) :),
      State.flag_of_fld (s.startAcq_fld n (.inr (.inr (show 2 < 4 by decide))))⟩
  · exact ⟨rfl, rfl⟩

end Status

/-! ## Gain steps and filter changes (R173) -/

section Analog

variable (s : State) (n k : Nat)

/-- The registers and the event of a gain step, before its window. -/
def State.gainCounted (s : State) (n code : Nat) : State :=
  ((s.setFld (F.SLK_AFE_LIVE_VGA_CODE n) code).bump (F.SLK_ANALOG_STEP_CNT n)).event (afePage n) 1

theorem State.gainStep_eq (code : Nat) : s.gainStep n code = (s.gainCounted n code).openWindow n 32 := rfl

/-- The registers of a filter change, before its window. -/
def State.filterSet (s : State) (n fc boost : Nat) : State := (s.setFld (F.SLK_CTF_LIVE_FC n) fc).setFld (F.SLK_CTF_LIVE_BOOST n) boost

theorem State.ctfChange_eq (fc boost : Nat) : s.ctfChange n fc boost = (s.filterSet n fc boost).openWindow n 64 := rfl

/-- A window that a change of the front end opens, which an acquisition under way survives by beginning anew (R199). -/
theorem State.windowed_step : State.LaneStep [R.SLK_LANE_STATUS n] s ((s.openWindow n k).restartAcq n) :=
  (s.openWindow_step n k).trans (State.restartAcq_step _ n)

/-- The window on a lane that runs, counted from the state before the change. -/
theorem State.windowed_runs {s t : State} (h : State.LaneStep ks s t) (hc : R.SLK_LANE_CFG n ∉ ks) (hw : R.PWR_SENTRY_CFG ∉ ks)
    (hl : t.lane n = s.lane n) (hr : s.laneRuns n = true) : ((t.openWindow n k).restartAcq n).flag (F.SLK_LANE_STATUS_INVALID n) = true ∧
    (((t.openWindow n k).restartAcq n).lane n).ch.winLeft = max k (s.lane n).ch.winLeft := by
  obtain ⟨hf, hk⟩ := t.openWindow_runs n k ((h.laneRuns hc hw).trans hr)
  obtain ⟨hwin, hi⟩ := (t.openWindow n k).restartAcq_window n
  exact ⟨hi.trans hf, hwin.trans (hl ▸ hk)⟩

theorem State.gainCounted_step (code : Nat) :
    State.LaneStep [R.SLK_AFE_LIVE n, R.SLK_ANALOG_STEP_CNT n, R.HIF_MSIX_PBA] s (s.gainCounted n code) :=
  (((State.LaneStep.refl _ s).setFld (F.SLK_AFE_LIVE_VGA_CODE n) code (.head _)).setFld (F.SLK_ANALOG_STEP_CNT n) _
    (.tail _ (.head _))).event_step (.tail _ (.tail _ (.head _))) _ _

theorem State.filterSet_step (fc boost : Nat) : State.LaneStep [R.SLK_CTF_LIVE n] s (s.filterSet n fc boost) :=
  ((State.LaneStep.refl _ s).setFld (F.SLK_CTF_LIVE_FC n) fc (.head _)).setFld (F.SLK_CTF_LIVE_BOOST n) boost (.head _)

theorem State.gainCounted_reads (hn : n < 8) {code : Nat} (hc : code < 2 ^ 8) :
    (s.gainCounted n code).fld (F.SLK_AFE_LIVE_VGA_CODE n) = code ∧
    (s.gainCounted n code).fld (F.SLK_ANALOG_STEP_CNT n) = min (2 ^ 32 - 1) (s.fld (F.SLK_ANALOG_STEP_CNT n) + 1) := by
  unfold State.gainCounted
  rw [State.fld_event _ _ _ (laneReg_ne_beyond hn (by decide) (by decide)), State.fld_event _ _ _ (laneReg_ne_beyond hn (by decide) (by decide))]
  refine ⟨?_, (State.fld_bump _ _ (show 0 ≤ 31 by decide) (show 31 < 32 by decide)).trans ?_⟩
  · rw [State.fld_of_cell (State.cell_bump _ _ (laneReg_ne (by decide))),
      State.fld_setFld_same _ _ _ (show 0 ≤ 7 by decide) (show 7 < 32 by decide)]
    exact Nat.mod_eq_of_lt hc
  · rw [State.fld_setFld_other _ _ (laneReg_ne (by decide))]
    rfl

theorem State.filterSet_reads {fc boost : Nat} (hf : fc < 2 ^ 6) (hb : boost < 2 ^ 5) :
    (s.filterSet n fc boost).fld (F.SLK_CTF_LIVE_FC n) = fc ∧ (s.filterSet n fc boost).fld (F.SLK_CTF_LIVE_BOOST n) = boost := by
  unfold State.filterSet
  rw [State.fld_setFld_apart _ _ (show 8 ≤ 12 by decide) (show 12 < 32 by decide) (.inr (.inl (show 5 < 8 by decide))),
    State.fld_setFld_same _ _ _ (show 0 ≤ 5 by decide) (show 5 < 32 by decide),
    State.fld_setFld_same _ _ _ (show 8 ≤ 12 by decide) (show 12 < 32 by decide)]
  exact ⟨Nat.mod_eq_of_lt hf, Nat.mod_eq_of_lt hb⟩

theorem State.gainCounted_lane (code : Nat) : (s.gainCounted n code).lane n = s.lane n :=
  State.lane_of_inner (by simp [State.gainCounted]) n

/-- R173: a gain step is counted, raised and windowed. -/
theorem State.gainStep_steps (hn : n < 8) {code : Nat} (hc : code < 2 ^ 8) : let t := (s.gainStep n code).restartAcq n
    t.fld (F.SLK_AFE_LIVE_VGA_CODE n) = code ∧ t.mem = s.mem ∧
      t.fld (F.SLK_ANALOG_STEP_CNT n) = min (2 ^ 32 - 1) (s.fld (F.SLK_ANALOG_STEP_CNT n) + 1) ∧
      (t.page (afePage n)).lastWriter = (s.page (afePage n)).lastWriter ∧ (t.page (afePage n)).eventRaw.getLsbD 1 = true ∧
      (s.laneRuns n = true → t.flag (F.SLK_LANE_STATUS_INVALID n) = true ∧ (t.lane n).ch.winLeft = max 32 (s.lane n).ch.winLeft) := by
  rw [State.gainStep_eq]
  intro t
  obtain ⟨hcode, hcount⟩ := s.gainCounted_reads n hn hc
  have hgain := s.gainCounted_step n code
  have hwin : State.LaneStep [R.SLK_LANE_STATUS n] (s.gainCounted n code) t := State.windowed_step (s.gainCounted n code) n 32
  have hevent : ((s.gainCounted n code).page (afePage n)).eventRaw.getLsbD 1 = true := State.event_raised _ _ (by decide)
  refine ⟨?_, hwin.mem.trans hgain.mem, ?_, (hwin.writer _).trans (hgain.writer _), hwin.event _ _ hevent,
    State.windowed_runs n 32 hgain ?_ ?_ (s.gainCounted_lane n code)⟩
  · exact (hwin.fld (mt List.mem_singleton.mp (laneReg_ne (by decide)))).trans hcode
  · exact (hwin.fld (mt List.mem_singleton.mp (laneReg_ne (by decide)))).trans hcount
  · simp only [List.mem_cons, List.not_mem_nil, or_false, not_or]
    exact ⟨laneReg_ne (by decide), laneReg_ne (by decide), laneReg_ne_beyond hn (by decide) (by decide)⟩
  · simp only [List.mem_cons, List.not_mem_nil, or_false, not_or]
    exact ⟨(laneReg_ne_beyond hn (by decide) (by decide)).symm, (laneReg_ne_beyond hn (by decide) (by decide)).symm, by decide⟩

/-- R173: a filter change is windowed. -/
theorem State.ctfChange_steps (hn : n < 8) {fc boost : Nat} (hf : fc < 2 ^ 6) (hb : boost < 2 ^ 5) :
    let t := (s.ctfChange n fc boost).restartAcq n
    t.fld (F.SLK_CTF_LIVE_FC n) = fc ∧ t.fld (F.SLK_CTF_LIVE_BOOST n) = boost ∧ t.mem = s.mem ∧
      (t.page (afePage n)).lastWriter = (s.page (afePage n)).lastWriter ∧
      (s.laneRuns n = true → t.flag (F.SLK_LANE_STATUS_INVALID n) = true ∧ (t.lane n).ch.winLeft = max 64 (s.lane n).ch.winLeft) := by
  rw [State.ctfChange_eq]
  intro t
  obtain ⟨hfc, hboost⟩ := s.filterSet_reads n hf hb
  have hset := s.filterSet_step n fc boost
  have hwin : State.LaneStep [R.SLK_LANE_STATUS n] (s.filterSet n fc boost) t := State.windowed_step (s.filterSet n fc boost) n 64
  have hreg : R.SLK_CTF_LIVE n ∉ [R.SLK_LANE_STATUS n] := mt List.mem_singleton.mp (laneReg_ne (by decide))
  exact ⟨(hwin.fld hreg).trans hfc, (hwin.fld hreg).trans hboost, hwin.mem.trans hset.mem, (hwin.writer _).trans (hset.writer _),
    State.windowed_runs n 64 hset (mt List.mem_singleton.mp (laneReg_ne (by decide)))
      (mt List.mem_singleton.mp (laneReg_ne_beyond hn (by decide) (by decide)).symm) rfl⟩

end Analog

/-! ## Zone loads (R174, R175) -/

section Zone

variable (s : State) (n z : Nat)

/-- A lane without sector timing: what it knew of index fields, sync windows and the servo is gone. -/
def Lane.untimed (l : Lane) : Lane :=
  { l with idxTs := [], idxLast := none, idxRun := 0, idxMiss := 0, acc := 0, lockRun := 0, unlockRun := 0, hit1 := false, got1 := false,
           secNow := none, secondOpen := false, hit2 := false, splitLost := none }

theorem State.dropTiming_eq : s.dropTiming n =
    (((s.updLane n Lane.untimed).setFld (F.SLK_TIMING_READY n) 0).setFld (F.SLK_SERVO_STATUS_STATE n) 0).setFld (F.SLK_LANE_STATUS_IN_GAP n) 0 := rfl

theorem State.dropTiming_step : State.LaneStep [R.SLK_LANE_STATUS n, R.SLK_TIMING_READY n, R.SLK_SERVO_STATUS n] s (s.dropTiming n) :=
  ((((State.LaneStep.refl _ s).updLane n Lane.untimed).setFld (F.SLK_TIMING_READY n) 0 (.tail _ (.head _))).setFld
    (F.SLK_SERVO_STATUS_STATE n) 0 (.tail _ (.tail _ (.head _)))).setFld (F.SLK_LANE_STATUS_IN_GAP n) 0 (.head _)

theorem State.dropTiming_reads : (s.dropTiming n).flag (F.SLK_TIMING_READY n) = false ∧ (s.dropTiming n).fld (F.SLK_SERVO_STATUS_STATE n) = 0 ∧
    (s.dropTiming n).fld (F.SLK_LANE_STATUS_ZONE n) = s.fld (F.SLK_LANE_STATUS_ZONE n) := by
  rw [State.dropTiming_eq]
  refine ⟨?_, ?_, ?_⟩
  · rw [State.flag_of_fld (State.fld_setFld_other _ _ (laneReg_ne (by decide))),
      State.flag_of_fld (State.fld_setFld_other _ _ (laneReg_ne (by decide)))]
    exact State.flag_setFld _ _ rfl (show 0 < 32 by decide) false
  · rw [State.fld_setFld_other _ _ (laneReg_ne (by decide)), State.fld_setFld_same _ _ _ (show 0 ≤ 1 by decide) (show 1 < 32 by decide)]
    rfl
  · rw [State.fld_setFld_apart _ _ (show 3 ≤ 3 by decide) (show 3 < 32 by decide) (.inr (.inr (show 3 < 8 by decide))),
      State.fld_setFld_other _ _ (laneReg_ne (by decide)), State.fld_setFld_other _ _ (laneReg_ne (by decide))]
    rfl

theorem State.dropTiming_ch : ((s.dropTiming n).lane n).ch = (s.lane n).ch := (congrArg Lane.ch (s.lane_updLane n Lane.untimed) :)

/-- The front end of a zone's entry in force: its own registers, and the full gain of DGAIN (R174). -/
def State.frontEndLoaded (s : State) (n z : Nat) : State :=
  ((s.setCell (R.SLK_AFE_LIVE n) (s.cell (zoneReg n z 0))).setCell (R.SLK_CTF_LIVE n) (s.cell (zoneReg n z 4))).setFld (F.SLK_DGAIN_GAIN n) 256

/-- The taps of a zone's entry in force, with timing frequency 0. -/
def State.tapsLoaded (s : State) (n z : Nat) : State :=
  let t := (s.setCell (R.SLK_FIR_LIVE n 0) (s.cell (zoneReg n z 0xC))).setCell (R.SLK_FIR_LIVE n 1) (s.cell (zoneReg n z 0x10))
  (t.setCell (R.SLK_FIR_LIVE n 2) (t.cell (zoneReg n z 0x14))).setFld (F.SLK_FREQ_PPB_FREQ n) 0

/-- A lane with the loops of a zone's entry in its channel. -/
def Lane.withLoops (p : Loops) (l : Lane) : Lane := { l with ch := { l.ch.flush with loops := p }, ended := (0, 0) }

/-- The registers of a zone's entry in force. -/
def State.entryCells (s : State) (n z : Nat) : State := (s.frontEndLoaded n z).tapsLoaded n z

/-- The entry of zone `z` in force, with the zone shown. -/
def State.entryLoaded (s : State) (n z : Nat) : State :=
  ((s.entryCells n z).updLane n (Lane.withLoops ((s.entryCells n z).zoneLoops n z))).setFld (F.SLK_LANE_STATUS_ZONE n) z

theorem State.zoneLoadOf_eq : s.zoneLoadOf n z = ((((s.entryLoaded n z).dropTiming n).openWindow n 256).startAcq n).event (ctlPage n) 3 := rfl

/-- The registers of a lane's front end, of its taps, and those that a zone load leaves showing that the lane acquires anew. -/
def frontRegs (n : Nat) : List Nat := [R.SLK_AFE_LIVE n, R.SLK_CTF_LIVE n, R.SLK_DGAIN n]
def tapRegs (n : Nat) : List Nat := [R.SLK_FIR_LIVE n 0, R.SLK_FIR_LIVE n 1, R.SLK_FIR_LIVE n 2, R.SLK_FREQ_PPB n]
def searchRegs (n : Nat) : List Nat := [R.SLK_LANE_STATUS n, R.SLK_TIMING_READY n, R.SLK_SERVO_STATUS n, R.HIF_MSIX_PBA]

theorem frontReg_not_tap {k : Nat} (h : k ∈ frontRegs n) : k ∉ tapRegs n := by
  simp only [frontRegs, tapRegs, R.SLK_AFE_LIVE, R.SLK_CTF_LIVE, R.SLK_DGAIN, R.SLK_FIR_LIVE, R.SLK_FREQ_PPB, List.mem_cons,
    List.not_mem_nil, or_false] at h ⊢
  omega

theorem loadedReg_not_search {k : Nat} (h : k ∈ frontRegs n ∨ k ∈ tapRegs n) : k ∉ searchRegs n := by
  simp only [frontRegs, tapRegs, searchRegs, R.SLK_AFE_LIVE, R.SLK_CTF_LIVE, R.SLK_DGAIN, R.SLK_FIR_LIVE, R.SLK_FREQ_PPB, R.SLK_LANE_STATUS,
    R.SLK_TIMING_READY, R.SLK_SERVO_STATUS, R.HIF_MSIX_PBA, List.mem_cons, List.not_mem_nil, or_false] at h ⊢
  omega

/-- Every register that a zone load writes. -/
def zoneLoadRegs (n : Nat) : List Nat := frontRegs n ++ tapRegs n ++ searchRegs n

variable {n} in
/-- A zone load writes registers of its lane's first page and of its channel, and never MODE, a zone's entry or the sentry function's lane. -/
theorem not_zoneLoadReg (hn : n < 8) {k : Nat} (h : k = R.SLK_LANE_CFG n ∨ 0x10C000 ≤ k) : k ∉ zoneLoadRegs n := by
  simp only [zoneLoadRegs, frontRegs, tapRegs, searchRegs, R.SLK_AFE_LIVE, R.SLK_CTF_LIVE, R.SLK_DGAIN, R.SLK_FIR_LIVE, R.SLK_FREQ_PPB,
    R.SLK_LANE_STATUS, R.SLK_TIMING_READY, R.SLK_SERVO_STATUS, R.SLK_LANE_CFG, R.HIF_MSIX_PBA, List.mem_append, List.mem_cons,
    List.not_mem_nil, or_false] at h ⊢
  omega

theorem State.frontEndLoaded_step : State.LaneStep (frontRegs n) s (s.frontEndLoaded n z) :=
  (((State.LaneStep.refl _ s).setCell (R.SLK_AFE_LIVE n) _ (.head _)).setCell (R.SLK_CTF_LIVE n) _ (.tail _ (.head _))).setFld
    (F.SLK_DGAIN_GAIN n) 256 (.tail _ (.tail _ (.head _)))

theorem State.tapsLoaded_step : State.LaneStep (tapRegs n) s (s.tapsLoaded n z) :=
  ((((State.LaneStep.refl _ s).setCell (R.SLK_FIR_LIVE n 0) _ (.head _)).setCell (R.SLK_FIR_LIVE n 1) _ (.tail _ (.head _))).setCell
    (R.SLK_FIR_LIVE n 2) _ (.tail _ (.tail _ (.head _)))).setFld (F.SLK_FREQ_PPB_FREQ n) 0 (.tail _ (.tail _ (.tail _ (.head _))))

theorem State.frontEndLoaded_reads : (s.frontEndLoaded n z).cell (R.SLK_AFE_LIVE n) = s.cell (zoneReg n z 0) ∧
    (s.frontEndLoaded n z).cell (R.SLK_CTF_LIVE n) = s.cell (zoneReg n z 4) ∧ (s.frontEndLoaded n z).fld (F.SLK_DGAIN_GAIN n) = 256 := by
  have hac : R.SLK_AFE_LIVE n ≠ R.SLK_CTF_LIVE n := laneReg_ne (by decide)
  unfold State.frontEndLoaded
  refine ⟨?_, ?_, State.fld_setFld_same _ _ _ (show 0 ≤ 9 by decide) (show 9 < 32 by decide)⟩
  · rw [State.cell_setFld_other _ _ (laneReg_ne (by decide)), State.cell_setCell_other _ _ hac, State.cell_setCell_same]
  · rw [State.cell_setFld_other _ _ (laneReg_ne (by decide)), State.cell_setCell_same]

theorem firLive_ne {j k : Nat} (h : j ≠ k) : R.SLK_FIR_LIVE n j ≠ R.SLK_FIR_LIVE n k := by
  unfold R.SLK_FIR_LIVE
  omega

theorem State.tapsLoaded_reads : (s.tapsLoaded n z).cell (R.SLK_FIR_LIVE n 0) = s.cell (zoneReg n z 0xC) ∧
    (s.tapsLoaded n z).cell (R.SLK_FIR_LIVE n 1) = s.cell (zoneReg n z 0x10) ∧ (s.tapsLoaded n z).fld (F.SLK_FREQ_PPB_FREQ n) = 0 := by
  have hf : ∀ k < 2, R.SLK_FIR_LIVE n k ≠ R.SLK_FREQ_PPB n := fun k hk => by
    unfold R.SLK_FIR_LIVE R.SLK_FREQ_PPB
    omega
  unfold State.tapsLoaded
  dsimp only
  refine ⟨?_, ?_, State.fld_setFld_same _ _ _ (show 0 ≤ 31 by decide) (show 31 < 32 by decide)⟩
  · rw [State.cell_setFld_other _ _ (hf 0 (by decide)), State.cell_setCell_other _ _ (firLive_ne n (by decide)),
      State.cell_setCell_other _ _ (firLive_ne n (by decide)), State.cell_setCell_same]
  · rw [State.cell_setFld_other _ _ (hf 1 (by decide)), State.cell_setCell_other _ _ (firLive_ne n (by decide)), State.cell_setCell_same]

/-- The state in which a zone load finds the lane, once its entry's values are in the registers. -/
theorem State.entryLoaded_step : State.LaneStep (zoneLoadRegs n) s (s.entryLoaded n z) :=
  have hf : frontRegs n ⊆ zoneLoadRegs n := fun _ h => List.mem_append_left _ (List.mem_append_left _ h)
  have ht : tapRegs n ⊆ zoneLoadRegs n := fun _ h => List.mem_append_left _ (List.mem_append_right _ h)
  ((((s.frontEndLoaded_step n z).mono hf).trans ((State.tapsLoaded_step _ n z).mono ht)).updLane n _).setFld
    (F.SLK_LANE_STATUS_ZONE n) z (List.mem_append_right _ (.head _))

theorem State.zoneLoadOf_searches : State.LaneStep (searchRegs n) (s.entryLoaded n z) (s.zoneLoadOf n z) := by
  have hs : [R.SLK_LANE_STATUS n] ⊆ searchRegs n := List.cons_subset_cons _ (List.nil_subset _)
  have hd : [R.SLK_LANE_STATUS n, R.SLK_TIMING_READY n, R.SLK_SERVO_STATUS n] ⊆ searchRegs n := List.subset_append_left _ [R.HIF_MSIX_PBA]
  rw [State.zoneLoadOf_eq]
  refine State.LaneStep.event_step ?_ (by simp [searchRegs]) _ _
  exact (((State.dropTiming_step _ n).mono hd).trans ((State.openWindow_step _ n 256).mono hs)).trans ((State.startAcq_step _ n).mono hs)

theorem State.zoneLoadOf_step : State.LaneStep (zoneLoadRegs n) s (s.zoneLoadOf n z) :=
  (s.entryLoaded_step n z).trans ((s.zoneLoadOf_searches n z).mono (List.subset_append_right _ _))

theorem zoneLoops_of {s t : State} {n z : Nat} (h : ∀ off, t.cell (zoneReg n z off) = s.cell (zoneReg n z off)) :
    t.zoneLoops n z = s.zoneLoops n z := by
  simp only [State.zoneLoops, h]

/-- A register of the front end or of the taps, once the zone load is over. -/
theorem State.cell_zoneLoadOf {k : Nat} (h : k ∈ frontRegs n ∨ k ∈ tapRegs n) :
    (s.zoneLoadOf n z).cell k = (s.entryCells n z).cell k := by
  have hk := loadedReg_not_search n h
  have hs : k ≠ R.SLK_LANE_STATUS n := fun he => hk (he ▸ .head _)
  rw [(s.zoneLoadOf_searches n z).regs k hk, State.entryLoaded, State.cell_setFld_other _ _ hs, State.cell_updLane]

theorem State.cell_zoneLoadOf_front {k : Nat} (h : k ∈ frontRegs n) : (s.zoneLoadOf n z).cell k = (s.frontEndLoaded n z).cell k :=
  (s.cell_zoneLoadOf n z (.inl h)).trans ((State.tapsLoaded_step _ n z).regs k (frontReg_not_tap n h))

theorem State.entryLoaded_lane : (s.entryLoaded n z).lane n = ((s.entryCells n z).lane n).withLoops ((s.entryCells n z).zoneLoops n z) := by
  rw [State.entryLoaded, State.lane_setFld, State.lane_updLane]

theorem State.zoneLoadOf_lane : ((s.zoneLoadOf n z).lane n).ch.loops = (s.entryCells n z).zoneLoops n z ∧
    ((s.zoneLoadOf n z).lane n).ch.acqValid = 0 := by
  rw [State.zoneLoadOf_eq, State.lane_event, State.startAcq_lane]
  refine ⟨(State.openWindow_loops _ n 256).trans ?_, rfl⟩
  rw [State.dropTiming_ch, State.entryLoaded_lane]
  rfl

variable {n} in
theorem State.zoneLoadOf_flags (hn : n < 8) (hz : z < 8) : (s.zoneLoadOf n z).fld (F.SLK_LANE_STATUS_ZONE n) = z ∧
    (s.zoneLoadOf n z).flag (F.SLK_TIMING_READY n) = false ∧ (s.zoneLoadOf n z).flag (F.SLK_LANE_STATUS_ACQ n) = true ∧
    (s.zoneLoadOf n z).flag (F.SLK_LANE_STATUS_TRACK n) = false ∧ (s.zoneLoadOf n z).fld (F.SLK_SERVO_STATUS_STATE n) = 0 := by
  obtain ⟨ha, ht⟩ := State.startAcq_flags (((s.entryLoaded n z).dropTiming n).openWindow n 256) n
  obtain ⟨hr, hv, hs⟩ := (s.entryLoaded n z).dropTiming_reads n
  have he : ∀ f : Field, f.reg ≠ R.HIF_MSIX_PBA → (s.zoneLoadOf n z).fld f
      = (((s.entryLoaded n z).dropTiming n).openWindow n 256 |>.startAcq n).fld f := fun f hf => State.fld_event _ _ _ hf
  have hp : ∀ {a : Nat}, a < 0x24000 → a + 0x4000 * n ≠ R.HIF_MSIX_PBA := fun h => laneReg_ne_beyond hn h (by decide)
  have hd : ∀ f : Field, f.reg ≠ R.HIF_MSIX_PBA → (f.reg ≠ R.SLK_LANE_STATUS n ∨ 4 < f.lo) →
      (s.zoneLoadOf n z).fld f = ((s.entryLoaded n z).dropTiming n).fld f := fun f hf hl => by
    rw [he f hf, State.startAcq_fld _ _ (hl.imp id fun h => .inr (by omega)), State.openWindow_fld _ _ _ (hl.imp id .inr)]
  refine ⟨?_, ?_, ?_, ?_, ?_⟩
  · rw [hd _ (hp (by decide)) (.inr (show 4 < 8 by decide)), hs, State.entryLoaded,
      State.fld_setFld_same _ _ _ (show 8 ≤ 10 by decide) (show 10 < 32 by decide)]
    exact Nat.mod_eq_of_lt hz
  · exact (State.flag_of_fld (hd _ (hp (by decide)) (.inl (laneReg_ne (by decide))))).trans hr
  · exact (State.flag_of_fld (he _ (hp (by decide)))).trans ha
  · exact (State.flag_of_fld (he _ (hp (by decide)))).trans ht
  · exact (hd _ (hp (by decide)) (.inl (laneReg_ne (by decide)))).trans hv

/-- The state in which a zone load opens its window. -/
theorem State.zoneLoadOf_untimed : State.LaneStep (zoneLoadRegs n) s ((s.entryLoaded n z).dropTiming n) :=
  (s.entryLoaded_step n z).trans ((State.dropTiming_step _ n).mono fun _ h =>
    List.mem_append_right _ (List.mem_append_left [R.HIF_MSIX_PBA] h))

theorem State.entryCells_lane : (s.entryCells n z).lane n = s.lane n :=
  State.lane_of_inner (by simp [State.entryCells, State.tapsLoaded, State.frontEndLoaded]) n

variable {n} in
theorem State.zoneLoadOf_window (hn : n < 8) (h : s.laneRuns n = true) :
    ((s.zoneLoadOf n z).lane n).ch.winLeft = max 256 (s.lane n).ch.winLeft ∧ (s.zoneLoadOf n z).flag (F.SLK_LANE_STATUS_INVALID n) = true := by
  have hr := ((s.zoneLoadOf_untimed n z).laneRuns (not_zoneLoadReg hn (.inl rfl)) (not_zoneLoadReg hn (.inr (by decide)))).trans h
  obtain ⟨hf, hw⟩ := State.openWindow_runs _ n 256 hr
  rw [State.dropTiming_ch, State.entryLoaded_lane, State.entryCells_lane] at hw
  rw [State.zoneLoadOf_eq, State.lane_event, State.startAcq_lane,
    State.flag_of_fld (State.fld_event _ _ _ (laneReg_ne_beyond hn (by decide) (by decide))),
    State.flag_of_fld (State.startAcq_fld _ n (.inr (.inr (show 2 < 4 by decide))))]
  exact ⟨hw, hf⟩

end Zone

/-! ## LANE_CFG (R163) -/

section Config

variable (s : State) (n : Nat) (v : Word)

/-- LANE_CFG with the fields of `v`. -/
def State.laneCfgSet (s : State) (n : Nat) (v : Word) : State :=
  (((s.setFld (F.SLK_LANE_CFG_MODE n) (getBits v 1 0)).setFld (F.SLK_LANE_CFG_RING n) (getBits v 5 4)).setFld
    (F.SLK_LANE_CFG_INPUT_SEL n) (getBits v 8 8)).setFld (F.SLK_LANE_CFG_POLARITY n) (getBits v 9 9)

theorem State.laneCfgSet_reads : (s.laneCfgSet n v).fld (F.SLK_LANE_CFG_MODE n) = getBits v 1 0 ∧
    (s.laneCfgSet n v).fld (F.SLK_LANE_CFG_RING n) = getBits v 5 4 := by
  have hpol : ∀ (t : State) (x : Nat) {f : Field}, f.hi < 9 → (t.setFld (F.SLK_LANE_CFG_POLARITY n) x).fld f = t.fld f := fun t x _ h =>
    t.fld_setFld_apart x (show 9 ≤ 9 by decide) (show 9 < 32 by decide) (.inr (.inl h))
  have hsel : ∀ (t : State) (x : Nat) {f : Field}, f.hi < 8 → (t.setFld (F.SLK_LANE_CFG_INPUT_SEL n) x).fld f = t.fld f := fun t x _ h =>
    t.fld_setFld_apart x (show 8 ≤ 8 by decide) (show 8 < 32 by decide) (.inr (.inl h))
  unfold State.laneCfgSet
  rw [hpol _ _ (show 1 < 9 by decide), hsel _ _ (show 1 < 8 by decide), hpol _ _ (show 5 < 9 by decide), hsel _ _ (show 5 < 8 by decide),
    State.fld_setFld_apart _ _ (show 4 ≤ 5 by decide) (show 5 < 32 by decide) (.inr (.inl (show 1 < 4 by decide))),
    State.fld_setFld_same _ _ _ (show 0 ≤ 1 by decide) (show 1 < 32 by decide),
    State.fld_setFld_same _ _ _ (show 4 ≤ 5 by decide) (show 5 < 32 by decide)]
  exact ⟨Nat.mod_eq_of_lt (getBits_lt v 1 0), Nat.mod_eq_of_lt (getBits_lt v 5 4)⟩

theorem State.laneCfgSet_leaves : (s.laneCfgSet n v).hdr = s.hdr ∧ (s.laneCfgSet n v).mem = s.mem := by simp [State.laneCfgSet]

theorem State.page_laneCfgSet (p : Nat) : (s.laneCfgSet n v).page p = s.page p := by simp [State.laneCfgSet]

variable {s n v}

/-- LANE_CFG takes its value on a lane whose channel does not work: what follows is decided by MODE before and after. -/
theorem State.laneCfg_stopped (hr : s.laneRuns n = false) : s.laneCfg n v =
    if getBits v 1 0 = 0 then
      if s.fld (F.SLK_LANE_CFG_MODE n) ≠ 0 ∧
          ((s.page (ctlPage n)).enable = true ∨ (s.page (ctlPage n)).cond.running = true ∨ (s.page (ctlPage n)).cond.waiting = true)
      then (s.laneCfgSet n v).lanePowerDown n else s.laneCfgSet n v
    else if s.fld (F.SLK_LANE_CFG_MODE n) = 0 ∧ (s.page (ctlPage n)).enable = true then (s.laneCfgSet n v).laneStart n
    else s.laneCfgSet n v := by
  have hm : getBits (s.cell (R.SLK_LANE_CFG n)) 1 0 = s.fld (F.SLK_LANE_CFG_MODE n) := rfl
  have hs : (((s.setFld (F.SLK_LANE_CFG_MODE n) (getBits v 1 0)).setFld (F.SLK_LANE_CFG_RING n) (getBits v 5 4)).setFld
    (F.SLK_LANE_CFG_INPUT_SEL n) (getBits v 8 8)).setFld (F.SLK_LANE_CFG_POLARITY n) (getBits v 9 9) = s.laneCfgSet n v := rfl
  simp only [State.laneCfg, hr, hm, hs, State.page_laneCfgSet, Bool.false_and, Bool.false_eq_true, if_false]
  by_cases hv : getBits v 1 0 = 0
  · simp [hv, or_assoc]
  · by_cases h0 : s.fld (F.SLK_LANE_CFG_MODE n) = 0 <;> simp [hv, h0]

/-- On a lane whose channel does not work and whose page is disabled, nothing follows. -/
theorem State.laneCfg_disabled (hr : s.laneRuns n = false) (he : (s.page (ctlPage n)).enable = false)
    (hw : (s.page (ctlPage n)).cond.waiting = false) : s.laneCfg n v = s.laneCfgSet n v := by
  have hrun (h : (s.page (ctlPage n)).cond.running = true) : s.fld (F.SLK_LANE_CFG_MODE n) = 0 := by
    have ho : s.laneOn n = false := by simpa [State.laneRuns, h] using hr
    simpa using (Bool.or_eq_false_iff.mp ho).1
  rw [State.laneCfg_stopped hr]
  split_ifs with hv hd hd
  · obtain ⟨hm, hx⟩ := hd
    exact absurd (hrun (by simpa [he, hw] using hx)) hm
  · rfl
  · rw [he] at hd
    exact absurd hd.2 (by decide)
  · rfl

/-- A lane that is IDLE and gets a MODE starts. -/
theorem State.laneCfg_starts (he : (s.page (ctlPage n)).enable = true) (hc : (s.page (ctlPage n)).cond.running = false)
    (hm : s.fld (F.SLK_LANE_CFG_MODE n) = 0) (hv : getBits v 1 0 ≠ 0) : s.laneCfg n v = (s.laneCfgSet n v).laneStart n := by
  rw [State.laneCfg_stopped (by simp [State.laneRuns, hc]), if_neg hv, if_pos ⟨hm, he⟩]

/-- The start of a lane whose receive PHY nobody else claims. -/
theorem State.laneStart_free (hl : s.lockStops (ctlPage n) = false) (hc : (s.page (ctlPage n)).cond = {})
    (hb : s.blockedBy (ctlPage n) [phyRes n] = []) (hn : n < 8) : s.laneStart n = (s.acquire (ctlPage n) [phyRes n] St.running).zoneLoad n := by
  have hr := State.cond_acquire_free s St.running hb
  rw [statePage_ctlPage hn, hc] at hr
  have hr : ((s.acquire (ctlPage n) [phyRes n] St.running).page (ctlPage n)).cond.running = true := by rw [hr]; rfl
  simp [State.laneStart, hl, hc, hr]

theorem State.cell_acquire_free {p : Nat} {rs : List Nat} (wants : Nat) (h : s.blockedBy p rs = []) {k : Nat} (hk : k ≠ R.HIF_MSIX_PBA) :
    (s.acquire p rs wants).cell k = s.cell k := by
  simp only [State.acquire, h, List.foldl_nil, if_true]
  exact State.cell_updCond _ _ _ hk

end Config

/-! ## The commands -/

section Commands

variable (s : State) (dt w : Nat) (v : Word)

theorem exec_laneCfgWrite : exec (.laneCfgWrite dt n w v) s = .next ((s.arriveBy dt w).writeLaneCfg n w v) := rfl
theorem exec_laneReload : exec (.laneReload dt n w v) s = .next ((s.arriveBy dt w).writeLaneCmd n w v) := rfl
theorem exec_vgaSet : exec (.vgaSet dt n w v) s = .next ((s.arriveBy dt w).writeVgaSet n w v) := rfl
theorem exec_ctfSet : exec (.ctfSet dt n w v) s = .next ((s.arriveBy dt w).writeCtfSet n w v) := rfl

theorem State.cond_wrote (p q : Nat) : ((s.wrote p w).page q).cond = (s.page q).cond := by
  rw [State.page_wrote]
  split_ifs with h
  · rw [h]
  · rfl

theorem State.laneRuns_wrote (p : Nat) : (s.wrote p w).laneRuns n = s.laneRuns n := State.laneRuns_of (s.cond_wrote w p _) rfl rfl rfl

theorem State.lockStops_wrote (p q : Nat) : (s.wrote p w).lockStops q = s.lockStops q := by
  have ha : ∀ r, ((s.wrote p w).page r).lockAbandoned = (s.page r).lockAbandoned := fun r => by
    rw [State.page_wrote]
    split_ifs with h
    · rw [h]
    · rfl
  simp only [State.lockStops, State.cond_wrote, ha]

variable {s}

/-- R174: an entry in force, and the lane searches again. -/
theorem State.zoneLoadOf_loads (s : State) (z : Nat) (hn : n < 8) :
    let t := s.zoneLoadOf n z
    t.cell (R.SLK_AFE_LIVE n) = s.cell (zoneReg n z 0) ∧ t.cell (R.SLK_CTF_LIVE n) = s.cell (zoneReg n z 4) ∧
      t.cell (R.SLK_FIR_LIVE n 0) = s.cell (zoneReg n z 0xC) ∧ t.cell (R.SLK_FIR_LIVE n 1) = s.cell (zoneReg n z 0x10) ∧
      t.fld (F.SLK_DGAIN_GAIN n) = 256 ∧ t.fld (F.SLK_FREQ_PPB_FREQ n) = 0 ∧ (t.lane n).ch.loops = s.zoneLoops n z := by
  obtain ⟨ha, hc, hg⟩ := s.frontEndLoaded_reads n z
  obtain ⟨h0, h1, hf⟩ := (s.frontEndLoaded n z).tapsLoaded_reads n z
  have hfront := fun k hk => s.cell_zoneLoadOf_front n z (k := k) hk
  have htap := fun k hk => s.cell_zoneLoadOf n z (k := k) (.inr hk)
  have hz : ∀ off, zoneReg n z off ∉ zoneLoadRegs n := fun off => not_zoneLoadReg hn (.inr (zoneReg_beyond n z off))
  have hentry : ∀ off, (s.frontEndLoaded n z).cell (zoneReg n z off) = s.cell (zoneReg n z off) := fun off =>
    (s.frontEndLoaded_step n z).regs _ fun h => hz off (List.mem_append_left _ (List.mem_append_left _ h))
  have hcells : ∀ off, (s.entryCells n z).cell (zoneReg n z off) = s.cell (zoneReg n z off) := fun off =>
    ((State.tapsLoaded_step _ n z).regs _ fun h => hz off (List.mem_append_left _ (List.mem_append_right _ h))).trans (hentry off)
  refine ⟨?_, ?_, ?_, ?_, ?_, ?_, ?_⟩
  · rw [hfront _ (.head _), ha]
  · rw [hfront _ (.tail _ (.head _)), hc]
  · rw [htap _ (.head _), State.entryCells, h0, hentry]
  · rw [htap _ (.tail _ (.head _)), State.entryCells, h1, hentry]
  · rw [State.fld_of_cell (hfront _ (.tail _ (.tail _ (.head _)))), hg]
  · rw [State.fld_of_cell (htap _ (.tail _ (.tail _ (.tail _ (.head _))))), State.entryCells, hf]
  · rw [(s.zoneLoadOf_lane n z).1, zoneLoops_of hcells]

theorem State.cfgZone_lt (s : State) (n : Nat) : s.cfgZone n < 8 := by
  have hr : s.fld (F.SLK_LANE_CFG_RING n) < 2 ^ 2 := getBits_lt _ _ _
  unfold State.cfgZone
  split_ifs <;> omega

theorem State.blockedBy_laneCfgSet (p : Nat) (rs : List Nat) : (s.laneCfgSet n v).blockedBy p rs = s.blockedBy p rs := by
  simp only [State.blockedBy, State.claimant, State.holder, State.laneCfgSet, State.setFld_held, State.setFld_waiters, State.setFld_cycles]

/-- R163: a lane that is turned on while its page is enabled and its receive PHY is free runs, and searches its zone. -/
theorem State.laneCfg_runs (hn : n < 8) (he : (s.page (ctlPage n)).enable = true) (hc : (s.page (ctlPage n)).cond = {})
    (hl : s.lockStops (ctlPage n) = false) (hm : s.fld (F.SLK_LANE_CFG_MODE n) = 0) (hv : getBits v 1 0 ≠ 0)
    (hb : s.blockedBy (ctlPage n) [phyRes n] = []) :
    (s.laneCfg n v).pstate (ctlPage n) = St.running ∧ (s.laneCfg n v).flag (F.SLK_LANE_STATUS_ACQ n) = true ∧
      (s.laneCfg n v).flag (F.SLK_LANE_STATUS_INVALID n) = true ∧
      (s.laneCfg n v).fld (F.SLK_LANE_STATUS_ZONE n) = if getBits v 1 0 = 1 then getBits v 5 4 else 4 := by
  have hp := s.page_laneCfgSet n v (ctlPage n)
  have hb' := (State.blockedBy_laneCfgSet (s := s) (n := n) v (ctlPage n) [phyRes n]).trans hb
  have hl' : (s.laneCfgSet n v).lockStops (ctlPage n) = false := by simpa only [State.lockStops, State.page_laneCfgSet] using hl
  have hstart : s.laneCfg n v = ((s.laneCfgSet n v).acquire (ctlPage n) [phyRes n] St.running).zoneLoad n :=
    (State.laneCfg_starts he (by rw [hc]) hm hv).trans (State.laneStart_free hl' ((congrArg PageHdr.cond hp).trans hc) hb' hn)
  rw [hstart, State.zoneLoad]
  generalize hy : (s.laneCfgSet n v).acquire (ctlPage n) [phyRes n] St.running = y
  have hcond : (y.page (ctlPage n)).cond = { running := true } := by
    have h := State.cond_acquire_free (s.laneCfgSet n v) St.running hb'
    rw [statePage_ctlPage hn, hp, hc, hy] at h
    exact h
  have hcell : y.cell (R.SLK_LANE_CFG n) = (s.laneCfgSet n v).cell (R.SLK_LANE_CFG n) :=
    hy ▸ State.cell_acquire_free St.running hb' (laneReg_ne_beyond hn (by decide) (by decide))
  have hmode : y.fld (F.SLK_LANE_CFG_MODE n) = getBits v 1 0 := (State.fld_of_cell hcell).trans (s.laneCfgSet_reads n v).1
  have hring : y.fld (F.SLK_LANE_CFG_RING n) = getBits v 5 4 := (State.fld_of_cell hcell).trans (s.laneCfgSet_reads n v).2
  have hruns : y.laneRuns n = true := by simp [State.laneRuns, State.laneOn, hcond, hmode, hv]
  have hzone : y.cfgZone n = if getBits v 1 0 = 1 then getBits v 5 4 else 4 := by simp [State.cfgZone, State.rotary, hmode, hring]
  obtain ⟨hshown, -, hacq, -⟩ := y.zoneLoadOf_flags (y.cfgZone n) hn (y.cfgZone_lt n)
  refine ⟨?_, hacq, (y.zoneLoadOf_window _ hn hruns).2, hshown.trans hzone⟩
  rw [State.pstate, statePage_ctlPage hn, (y.zoneLoadOf_step n _).cond, hcond]
  rfl

end Commands

/-- Settles O29: the writes by what the port admits, a zone load by what its entry gives and what its search begins with. -/
theorem laneLoadsItsZone : Obligations.LaneLoadsItsZone := by
  refine ⟨fun s dt n w v hn => ?_, fun s n z hn hz => ?_⟩
  · intro b c
    have hruns : c.laneRuns n = b.laneRuns n := b.laneRuns_wrote w _
    have hcond : (c.page (ctlPage n)).cond = (b.page (ctlPage n)).cond := b.cond_wrote w _ _
    have henable : (c.page (ctlPage n)).enable = (b.page (ctlPage n)).enable :=
      (congrArg PageHdr.enable (b.page_wrote_same (p := ctlPage n) (w := w)) :)
    have hreload (ha : b.admits (ctlPage n) 0x48 w v = true) : exec (.laneReload dt n w v) s
        = .next (if getBits v 0 0 = 1 ∧ c.laneRuns n = true then c.zoneLoad n else c) :=
      (exec_laneReload s dt w v).trans (congrArg _ (State.onWrite_admitted ha _))
    refine ⟨fun ha => ⟨?_, fun hr he hw => ?_, fun he hc hl hm hv hb => ?_⟩, fun ha hv hr => ?_, fun ha hx => ?_, fun ha => ?_, fun ha => ?_⟩
    · exact (exec_laneCfgWrite s dt w v).trans (congrArg _ (State.onRwl_admitted ha _))
    · rw [State.laneCfg_disabled (hruns.trans hr) (henable.trans he) (hcond ▸ hw)]
      exact ⟨(c.laneCfgSet_reads n v).1, (c.laneCfgSet_reads n v).2, c.laneCfgSet_leaves n v⟩
    · exact State.laneCfg_runs v hn (henable.trans he) (hcond.trans hc) ((b.lockStops_wrote w _ _).trans hl) hm hv hb
    · rw [hreload ha, if_pos ⟨hv, hruns.trans hr⟩]
    · rw [hreload ha, if_neg (by rw [hruns]; rintro ⟨h1, h2⟩; simp [h1, h2] at hx)]
    · obtain ⟨h1, h2, h3, h4, h5, h6⟩ := (b.wrote (afePage n) w).gainStep_steps n hn (getBits_lt v 7 0)
      exact ⟨_, (exec_vgaSet s dt w v).trans (congrArg _ (State.onWrite_admitted ha _)), h1, h2, h3, h4.trans (b.wrote_lastWriter _ _), h5,
        fun hr => h6 ((b.laneRuns_wrote w _).trans hr)⟩
    · obtain ⟨h1, h2, h3, h4, h5⟩ := (b.wrote (afePage n) w).ctfChange_steps n hn (getBits_lt v 5 0) (getBits_lt v 12 8)
      exact ⟨_, (exec_ctfSet s dt w v).trans (congrArg _ (State.onWrite_admitted ha _)), h1, h2, h3, h4.trans (b.wrote_lastWriter _ _),
        fun hr => h5 ((b.laneRuns_wrote w _).trans hr)⟩
  · intro t
    obtain ⟨h1, h2, h3, h4, h5, h6, h7⟩ := s.zoneLoadOf_loads z hn
    obtain ⟨f1, f2, f3, f4, f5⟩ := s.zoneLoadOf_flags z hn (show z < 8 by omega)
    exact ⟨h1, h2, h3, h4, h5, h6, f1, h7, (s.zoneLoadOf_lane n z).2, s.zoneLoadOf_window z hn, f2, f3, f4, f5, (s.zoneLoadOf_step n z).mem⟩

end Sys2Proof.Machine
end

section
/-! PROOFS. A sector from its sync mark to its decode (R170, R195 to R197, R205, R216, R217, R219, R221, R223, R225). -/

namespace Sys2Proof.Machine

variable {s : State} {n : Nat}

/-! ## Sync marks (R170, R221, R225) -/

theorem State.syncMark_blind (h : s.markFound n = false) : s.syncMark n = s := if_pos (by simp [h])

/-- A mark that a lane takes in tracking, with no fragment open. -/
theorem State.syncMark_taken (hc : s.captures n = true) (ht : s.flag (F.SLK_LANE_STATUS_TRACK n) = true)
    (hg : s.flag (F.SLK_LANE_STATUS_IN_GAP n) = false) (hf : (s.lane n).frag = none) (hm : s.markFound n = true) : s.syncMark n =
    if (s.lane n).secondOpen = true ∧ (s.lane n).open1 ≠ [] then
      s.updLane n (fun l => { l with frag := some (s.newFrag n false true), hit1 := true, hit2 := true })
    else if 2 ≤ (s.lane n).buffers then s
    else s.takeSlot.2.updLane n (fun l => { l with frag := some (s.takeSlot.2.newFrag n s.takeSlot.1 false), hit1 := true }) := by
  simp [State.syncMark, hc, ht, hg, hf, hm]

theorem State.takeSlot_free (h : s.slotsUsed < 204) : s.takeSlot = (true, s) := if_pos h

/-! ## Headers (R216, R217, R219, R221) -/

theorem State.fragHeader_awaits {f : Frag} (hf : (s.lane n).frag = some f) (hc : (s.lane n).ch.copies f.first = none) : s.fragHeader n = s := by
  simp [State.fragHeader, hf, hc]

/-- The copies of a header have been received: the fragment is judged by them. -/
theorem State.fragHeader_received {f : Frag} {copies : List Nat} (hf : (s.lane n).frag = some f) (hs : f.sector = none)
    (hc : (s.lane n).ch.copies f.first = some copies) : s.fragHeader n =
    if f.second = true ∧ (s.lane n).open1 ≠ [] then (s.updLane n (fun l => { l with frag := none })).secondHeader n f copies
    else (s.updLane n (fun l => { l with frag := none })).firstHeader n { f with second := false } copies := by
  simp [State.fragHeader, hf, hs, hc]

theorem State.firstHeader_opens {f : Frag} {copies : List Nat} {h : FragHdr} (hh : firstHdr copies 0 = some h) (hf : h.frag = false)
    (hs : h.split = false ∨ s.flag (F.SLK_TIMING_READY n) = true) : s.firstHeader n f copies = s.openSector n f h := by
  obtain hs | hs := hs <;> simp [State.firstHeader, hh, hf, hs]

/-- With sector timing ready, a first fragment without a valid copy waits for the close of its window. -/
theorem State.firstHeader_unread {f : Frag} {copies : List Nat} (hh : firstHdr copies 0 = none) (hr : s.flag (F.SLK_TIMING_READY n) = true)
    (hc : f.closed = none) : s.firstHeader n f copies = s := by
  simp [State.firstHeader, hh, State.noFirst, hr, hc]

/-- One whose window has closed is missing. -/
theorem State.firstHeader_missing {f : Frag} {copies : List Nat} {q : Nat} {fr : Option Nat} (hh : firstHdr copies 0 = none)
    (hr : s.flag (F.SLK_TIMING_READY n) = true) (hc : f.closed = some (q, fr)) : s.firstHeader n f copies = s.loseBare n 5 q fr := by
  simp [State.firstHeader, hh, State.noFirst, hr, hc]

/-- The open sector that a second fragment joins has a valid header of its own SEQ. -/
theorem joinOf_some {xs : List Sector} {copies : List Nat} {x : Sector} {h : FragHdr} (hj : joinOf xs copies = some (x, h)) :
    x ∈ xs ∧ firstHdr copies x.firstLen = some h ∧ h.split = true ∧ h.frag = true ∧ h.seq = x.seq := by
  obtain ⟨y, hy, hm⟩ := List.exists_of_findSome?_eq_some hj
  split at hm
  · next g hg =>
    split_ifs at hm with hc
    obtain ⟨rfl, rfl⟩ := Prod.mk.inj (Option.some.inj hm)
    simp only [Bool.and_eq_true, beq_iff_eq] at hc
    exact ⟨hy, hg, hc.1.1, hc.1.2, hc.2⟩
  · cases hm

theorem State.secondHeader_joins {f : Frag} {copies : List Nat} {x : Sector} {h : FragHdr} (hj : joinOf (s.lane n).open1 copies = some (x, h)) :
    s.secondHeader n f copies = (s.updLane n (fun l => { l with open1 := l.open1.filter (fun y => y.seq != x.seq) })).updLane n (fun l =>
      l.headerRead { f with sector := some x, body := { f.body with len := h.bodyLen } } (s.cell (R.SLK_DEC_CFG n)).toNat) := by
  simp only [State.secondHeader, hj, State.cell_updLane]

/-! ## Sync windows (R205, R219, R221) -/

section Window

variable {k : Nat}

theorem State.windowClose_ends {z : Nat} (hr : s.flag (F.SLK_TIMING_READY n) = true) (hk : (s.lane n).secNow = some k)
    (hz : s.windowEndAt n k = some z) (hle : z ≤ s.timebase) : s.windowClose n false k = s.closeFirst n k := by
  simp [State.windowClose, hr, hk, hz, hle]

theorem State.windowClose_other (hr : s.flag (F.SLK_TIMING_READY n) = true) (hk : (s.lane n).secNow ≠ some k) :
    s.windowClose n false k = s := by
  simp [State.windowClose, hr, hk]

theorem State.windowClose_second (hr : s.flag (F.SLK_TIMING_READY n) = true) : s.windowClose n true k =
    if (s.lane n).secondOpen = true ∧ (s.lane n).secondAt + 2000 ≤ s.timebase then s.closeSecond n else s := by
  simp [State.windowClose, hr, Nat.ble_eq]

/-- The lane with the window of sector `k` closed and that of the next one open. -/
def State.windowMoved (s : State) (n k : Nat) : State :=
  s.updLane n (fun l => { l with hit1 := false, got1 := false, secNow := some ((k + 1) % sectorsPerRev (s.fld (F.SLK_LANE_CFG_RING n))) })

theorem State.closeFirst_got (h : (s.lane n).got1 = true) : s.closeFirst n k = s.windowMoved n k := by
  simp [State.closeFirst, h, State.windowMoved]

theorem State.windowCounts_updLane (f : Lane → Lane) : (s.updLane n f).windowCounts n = s.windowCounts n := rfl

theorem State.closeFirst_miss (hg : (s.lane n).got1 = false) (hh : (s.lane n).hit1 = false) (hw : s.windowCounts n = true) :
    s.closeFirst n k = ((s.windowMoved n k).syncMiss n).loseBare n 5 (s.closedSeq n k) (s.windowMoved n k).chargeFrame := by
  simp [State.closeFirst, hg, hh, hw, State.windowCounts_updLane, State.windowMoved]

theorem State.closeSecond_hit (hh : (s.lane n).hit2 = true) (hf : (s.lane n).frag = none) :
    s.closeSecond n = (s.updLane n (fun l => { l with secondOpen := false })).loseSplit n := by
  simp [State.closeSecond, hh, hf]

/-- The frame that a loss is charged to is told by the Frame Scheduler, its STATE included. -/
theorem State.chargeFrame_of {s t : State} (hf : t.frm = s.frm) (hc : ∀ p, (t.page p).cond = (s.page p).cond) : t.chargeFrame = s.chargeFrame := by
  have hp : t.paced = s.paced := by simp only [State.paced, State.pstate, hf, hc]
  rw [State.chargeFrame, hp, hf, State.chargeFrame]

theorem PageHdr.take_cond (h : PageHdr) (code : Nat) (info : Word) : (h.take code info).cond = h.cond := by
  unfold PageHdr.take
  split_ifs <;> rfl

theorem State.cond_error (s : State) (p code : Nat) (info : Word) (q : Nat) : ((s.error p code info).page q).cond = (s.page q).cond := by
  rw [State.page_error]
  split_ifs with h
  · rw [h]
    exact PageHdr.take_cond _ _ _
  · rfl

theorem State.chargeFrame_syncMiss : (s.syncMiss n).chargeFrame = s.chargeFrame :=
  State.chargeFrame_of (State.frm_of_inner (by simp [State.syncMiss]))
    fun p => (State.cond_event _ _ _ p).trans (s.cond_error _ _ _ p)

end Window

/-! ## Decodes (R195 to R197, R202) -/

section Decode

/-- The counts of a decode. -/
def State.decodeCounted (s : State) (n : Nat) (ok : Bool) (total : Nat) : State :=
  if ok then (s.bump (F.SLK_DEC_OK_CNT n)).bumpBy (F.SLK_ITER_SUM n) total else (s.bump (F.SLK_DEC_FAIL_CNT n)).event (decPage n) 0

/-- DEC_LAST of a decode: a count of all 2,048 checks does not fit UNSAT. -/
def State.decodeShown (s : State) (n : Nat) (ok : Bool) (unsat globals locals : Nat) : State :=
  let t := ((s.setFld (F.SLK_DEC_LAST_OK n) (b2n ok)).setFld (F.SLK_DEC_LAST_LOCAL_USED n) locals).setFld (F.SLK_DEC_LAST_GLOBAL_USED n) globals
  if unsat < 2048 then t.setFld (F.SLK_DEC_LAST_UNSAT n) unsat else (t.setFld (F.SLK_DEC_LAST_UNSAT n) (t.freeVal % 2048)).drawFree

theorem State.countDecode_eq (s : State) (ok : Bool) (unsat globals locals total : Nat) :
    s.countDecode n ok unsat globals locals total = (s.decodeCounted n ok total).decodeShown n ok unsat globals locals := rfl

variable (s) (ok : Bool) (unsat globals locals total : Nat)

/-- DEC_LAST is one register. -/
theorem State.fld_decodeShown_other {f : Field} (hf : f.reg ≠ R.SLK_DEC_LAST n) : (s.decodeShown n ok unsat globals locals).fld f = s.fld f := by
  have hset (t : State) (g : Field) (v : Nat) (hg : g.reg = R.SLK_DEC_LAST n) : (t.setFld g v).fld f = t.fld f :=
    t.fld_setFld_other v (hg ▸ hf)
  have hdraw (t : State) : t.drawFree.fld f = t.fld f := rfl
  unfold State.decodeShown
  dsimp only
  split_ifs
  · rw [hset _ _ _ rfl, hset _ _ _ rfl, hset _ _ _ rfl, hset _ _ _ rfl]
  · rw [hdraw, hset _ _ _ rfl, hset _ _ _ rfl, hset _ _ _ rfl, hset _ _ _ rfl]

theorem State.decodeShown_ok : (s.decodeShown n ok unsat globals locals).flag (F.SLK_DEC_LAST_OK n) = ok := by
  have hset (t : State) (g : Field) (v : Nat) (hl : g.lo ≤ g.hi) (hh : g.hi < 31) :
      (t.setFld g v).flag (F.SLK_DEC_LAST_OK n) = t.flag (F.SLK_DEC_LAST_OK n) :=
    t.flag_setFld_apart v hl (Nat.lt_succ_of_lt hh) (.inr (.inr hh))
  have hdraw (t : State) : t.drawFree.flag (F.SLK_DEC_LAST_OK n) = t.flag (F.SLK_DEC_LAST_OK n) := rfl
  have hshown := s.flag_setFld (F.SLK_DEC_LAST_OK n) rfl (show 31 < 32 by decide) ok
  unfold State.decodeShown
  dsimp only
  split_ifs
  · rw [hset _ _ _ (show 8 ≤ 18 by decide) (show 18 < 31 by decide), hset _ _ _ (show 0 ≤ 3 by decide) (show 3 < 31 by decide),
      hset _ _ _ (show 4 ≤ 7 by decide) (show 7 < 31 by decide), hshown]
  · rw [hdraw, hset _ _ _ (show 8 ≤ 18 by decide) (show 18 < 31 by decide), hset _ _ _ (show 0 ≤ 3 by decide) (show 3 < 31 by decide),
      hset _ _ _ (show 4 ≤ 7 by decide) (show 7 < 31 by decide), hshown]

/-- A decode counts in DEC_OK_CNT or in DEC_FAIL_CNT; ERASED_CNT is no count of it. -/
theorem State.decodeCounted_reads (hn : n < 8) : let t := s.decodeCounted n ok total
    t.fld (F.SLK_DEC_OK_CNT n) = min (2 ^ 32 - 1) (s.fld (F.SLK_DEC_OK_CNT n) + if ok = true then 1 else 0) ∧
    t.fld (F.SLK_DEC_FAIL_CNT n) = min (2 ^ 32 - 1) (s.fld (F.SLK_DEC_FAIL_CNT n) + if ok = true then 0 else 1) ∧
    t.fld (F.SLK_ERASED_CNT n) = s.fld (F.SLK_ERASED_CNT n) := by
  have hkept {x : Nat} (h : x < 2 ^ 32) : x = min (2 ^ 32 - 1) (x + 0) := by omega
  have hok := hkept (getBits_lt (s.cell (R.SLK_DEC_OK_CNT n)) 31 0)
  have hfail := hkept (getBits_lt (s.cell (R.SLK_DEC_FAIL_CNT n)) 31 0)
  have hother {f g : Field} (t : State) (k : Nat) (h : g.reg ≠ f.reg) : (t.bumpBy f k).fld g = t.fld g := t.fld_setFld_other _ h
  cases ok with
  | true =>
    refine ⟨?_, ?_, ?_⟩
    · exact (hother _ total (laneReg_ne (by decide))).trans (s.fld_bump _ (show 0 ≤ 31 by decide) (show 31 < 32 by decide))
    · exact ((hother _ total (laneReg_ne (by decide))).trans (hother s 1 (laneReg_ne (by decide)))).trans hfail
    · exact (hother _ total (laneReg_ne (by decide))).trans (hother s 1 (laneReg_ne (by decide)))
  | false =>
    have hevent {f : Field} (t : State) (h : f.reg ≠ R.HIF_MSIX_PBA) : (t.event (decPage n) 0).fld f = t.fld f := t.fld_event _ _ h
    refine ⟨?_, ?_, ?_⟩
    · exact ((hevent _ (laneReg_ne_beyond hn (by decide) (by decide))).trans (hother s 1 (laneReg_ne (by decide)))).trans hok
    · exact (hevent _ (laneReg_ne_beyond hn (by decide) (by decide))).trans (s.fld_bump _ (show 0 ≤ 31 by decide) (show 31 < 32 by decide))
    · exact (hevent _ (laneReg_ne_beyond hn (by decide) (by decide))).trans (hother s 1 (laneReg_ne (by decide)))

/-- What a decode leaves in the counters and in DEC_LAST, by whether its syndrome is zero (R196). -/
theorem State.countDecode_reads (hn : n < 8) : let t := s.countDecode n (unsat == 0) unsat globals locals total
    t.fld (F.SLK_ERASED_CNT n) = s.fld (F.SLK_ERASED_CNT n) ∧ t.flag (F.SLK_DEC_LAST_OK n) = decide (unsat = 0) ∧
    t.fld (F.SLK_DEC_OK_CNT n) = min (2 ^ 32 - 1) (s.fld (F.SLK_DEC_OK_CNT n) + if unsat = 0 then 1 else 0) ∧
    t.fld (F.SLK_DEC_FAIL_CNT n) = min (2 ^ 32 - 1) (s.fld (F.SLK_DEC_FAIL_CNT n) + if unsat = 0 then 0 else 1) := by
  rw [State.countDecode_eq]
  obtain ⟨hok, hfail, herased⟩ := s.decodeCounted_reads (unsat == 0) total hn
  simp only [beq_iff_eq] at hok hfail
  have hshown {f : Field} (h : f.reg ≠ R.SLK_DEC_LAST n) := State.fld_decodeShown_other (s.decodeCounted n (unsat == 0) total)
    (unsat == 0) unsat globals locals h
  exact ⟨(hshown (laneReg_ne (by decide))).trans herased, State.decodeShown_ok _ _ _ _ _, (hshown (laneReg_ne (by decide))).trans hok,
    (hshown (laneReg_ne (by decide))).trans hfail⟩

/-- The lane and its count of erased symbols once the decode of its oldest sector has ended. -/
def State.decodeEnded (s : State) (n : Nat) (x : Sector) (rest : List Sector) : State :=
  (s.updLane n (fun l => { l with decoding := rest, tail := if rest.isEmpty && !l.tailOpen then 0 else l.tail })).bumpBy
    (F.SLK_ERASED_CNT n) (erasedCount (s.sectorFrags n x))

theorem State.decodeEnded_reads (x : Sector) (rest : List Sector) :
    (s.decodeEnded n x rest).fld (F.SLK_ERASED_CNT n)
      = min (2 ^ 32 - 1) (s.fld (F.SLK_ERASED_CNT n) + erasedCount (s.sectorFrags n x)) ∧
    (s.decodeEnded n x rest).fld (F.SLK_DEC_OK_CNT n) = s.fld (F.SLK_DEC_OK_CNT n) ∧
    (s.decodeEnded n x rest).fld (F.SLK_DEC_FAIL_CNT n) = s.fld (F.SLK_DEC_FAIL_CNT n) :=
  ⟨State.fld_bumpBy _ _ (show 0 ≤ 31 by decide) (show 31 < 32 by decide) _, State.fld_setFld_other _ _ (laneReg_ne (by decide)),
    State.fld_setFld_other _ _ (laneReg_ne (by decide))⟩

theorem State.injected_decodeEnded (x : Sector) (rest : List Sector) (target inst : Nat) :
    (s.decodeEnded n x rest).injected target inst = s.injected target inst := rfl

theorem State.decodeDone_none {s : State} (h : (s.lane n).decoding = []) : s.decodeDone n = s := by
  simp [State.decodeDone, h]

theorem State.decodeDone_some {s : State} {x : Sector} {rest : List Sector} (h : (s.lane n).decoding = x :: rest) : s.decodeDone n =
    let o := s.sectorOut n x
    let i := (s.decodeEnded n x rest).takeInjection 0x0D n
    let ok := !i.1 && o.unsat == 0
    let c := i.2.countDecode n ok o.unsat o.globals o.locals o.total
    if ok && goodPayload o.cw then c.decoded n x (userBytes o.cw) false else c.decodeFailed n x := by
  rw [State.decodeDone, h]
  rfl

/-- The decode of the oldest sector ends, and nothing has been injected into it. -/
theorem State.decodeDone_ends {s : State} {x : Sector} {rest : List Sector} (h : (s.lane n).decoding = x :: rest)
    (hi : s.injected 0x0D n = none) :
    let o := s.sectorOut n x
    let c := (s.decodeEnded n x rest).countDecode n (o.unsat == 0) o.unsat o.globals o.locals o.total
    s.decodeDone n = if o.unsat = 0 ∧ goodPayload o.cw = true then c.decoded n x (userBytes o.cw) false else c.decodeFailed n x := by
  have hi : (s.decodeEnded n x rest).takeInjection 0x0D n = (false, s.decodeEnded n x rest) := by
    rw [State.takeInjection, State.injected_decodeEnded, hi]
    rfl
  intro o c
  rw [State.decodeDone_some h, hi]
  simp only [Bool.not_false, Bool.true_and, Bool.and_eq_true, beq_iff_eq]
  rfl

end Decode

/-- Settles O31, command by command: a mark by the windows it may stand in, a header by the copies received, a close by what its window has
brought, a decode by its syndrome. -/
theorem sectorsReceived : Obligations.SectorsReceived := by
  intro s dt n rx hn a l
  have hmark : exec (.syncMarkFound dt n rx) s = .next (a.syncMark n) := rfl
  have hheader : exec (.fragmentHeader dt n rx) s = .next (a.fragHeader n) := rfl
  have hclose (second : Bool) (k : Nat) : exec (.syncWindowClose dt n rx second k) s = .next (a.windowClose n second k) := rfl
  have hdecode : exec (.sectorDecodeDone dt n rx) s = .next (a.decodeDone n) := rfl
  refine ⟨fun hc ht hg hf => ⟨fun hm ho hb hu => ?_, fun hm ho hne => ?_, fun hm => ?_⟩, rfl, rfl, fun f copies hf hs hcp => ?_,
    fun f hf hcp => ?_, fun k hr => ?_, fun hd => ?_, fun x rest hd hi => ?_⟩
  · have hnot : ¬((a.lane n).secondOpen = true ∧ (a.lane n).open1 ≠ []) := fun ⟨h1, h2⟩ => ho.elim (fun h => by simp [l, h1] at h) h2
    rw [hmark, State.syncMark_taken hc ht hg hf hm, if_neg hnot, if_neg (Nat.not_le.mpr hb), State.takeSlot_free hu]
  · rw [hmark, State.syncMark_taken hc ht hg hf hm, if_pos ⟨ho, hne⟩]
  · rw [hmark, State.syncMark_blind hm]
  · intro c
    have hread := State.fragHeader_received hf hs hcp
    refine ⟨fun h2 => ?_, fun x h h2 hj => ?_⟩
    · have hf2 : { f with second := false } = f := by rw [← h2]
      rw [if_neg (by simp [h2]), hf2] at hread
      rw [hheader, hread]
      exact ⟨fun h hh hfr hsp => congrArg _ (State.firstHeader_opens hh hfr hsp), fun hh hr hcl => congrArg _ (State.firstHeader_unread hh hr hcl),
        fun q fr hh hr hcl => congrArg _ (State.firstHeader_missing hh hr hcl)⟩
    · obtain ⟨hx, hv⟩ := joinOf_some hj
      have hopen : (c.lane n).open1 = l.open1 := (congrArg Lane.open1 (a.lane_updLane n (fun l => { l with frag := none })) :)
      have hj' : joinOf (c.lane n).open1 copies = some (x, h) := by rw [hopen, hj]
      have hcell : c.cell (R.SLK_DEC_CFG n) = a.cell (R.SLK_DEC_CFG n) := a.cell_updLane n _ _
      rw [if_pos ⟨h2, List.ne_nil_of_mem hx⟩, State.secondHeader_joins hj', hcell] at hread
      obtain ⟨h1, h2, h3, h4⟩ := hv
      exact ⟨hx, h1, h2, h3, h4, _, hheader.trans (congrArg _ hread), by simp [c], by simp [c], by simp [c], rfl⟩
  · rw [hheader, State.fragHeader_awaits hf hcp]
  · refine ⟨fun z hk hz hle => ?_, fun hk => ?_, fun ho hat hh hf => ?_, fun ho => ?_⟩
    · intro q c b
      rw [hclose, State.windowClose_ends hr hk hz hle]
      refine ⟨fun hg => ?_, fun hg hh hl hp => ?_⟩
      · rw [State.closeFirst_got hg]
        rfl
      · rw [State.closeFirst_miss hg hh (by simp [State.windowCounts, hl, hp]), ← State.chargeFrame_syncMiss]
        rfl
    · rw [hclose, State.windowClose_other hr hk]
    · rw [hclose, State.windowClose_second hr, if_pos ⟨ho, hat⟩, State.closeSecond_hit hh hf]
    · rw [hclose, State.windowClose_second hr, if_neg fun ⟨h1, h2⟩ => ho.elim (fun h => Bool.noConfusion (h1.symm.trans h))
        (fun h => absurd h2 (Nat.not_le.mpr h))]
  · rw [hdecode, State.decodeDone_none hd]
  · intro o b c
    obtain ⟨herased, hok, hfail⟩ := a.decodeEnded_reads (n := n) x rest
    obtain ⟨h1, h2, h3, h4⟩ := (a.decodeEnded n x rest).countDecode_reads o.unsat o.globals o.locals o.total hn
    exact ⟨hdecode.trans (congrArg _ (State.decodeDone_ends hd hi)), h1.trans herased, h2, h3.trans (by rw [hok]), h4.trans (by rw [hfail])⟩

end Sys2Proof.Machine
end

section
/-! PROOFS. Index fields, sector timing and the retry ladder (R212, R213, R215, R226, R227, R229, R230, R253), and what a lane keeps while it
reports errors and loses sectors. -/

namespace Sys2Proof.Machine

variable {s t u : State} {n : Nat} {ks : List Nat}

/-! ## What goes on keeps -/

/-- Between two states work has gone on: at most the registers `ks` differ, no event is lost, and a page that holds an error still holds it. -/
structure State.Onward (ks : List Nat) (s t : State) : Prop where
  regs : s.SameRegs t ks
  event : ∀ p b, (s.page p).eventRaw.getLsbD b = true → (t.page p).eventRaw.getLsbD b = true
  code : ∀ p, (s.page p).errCode ≠ 0 → (t.page p).errCode = (s.page p).errCode

theorem State.Onward.of_hdr (hr : s.SameRegs t ks) (hh : t.hdr = s.hdr) : State.Onward ks s t :=
  have h := State.page_of_hdr hh
  ⟨hr, fun p b hb => by rwa [h], fun p _ => by rw [h]⟩

theorem State.Onward.refl (ks : List Nat) (s : State) : State.Onward ks s s := .of_hdr (fun _ _ => rfl) rfl

theorem State.Onward.trans (h : State.Onward ks s t) (g : State.Onward ks t u) : State.Onward ks s u where
  regs := fun k hk => (g.regs k hk).trans (h.regs k hk)
  event := fun p b hb => g.event p b (h.event p b hb)
  code := fun p hp => (g.code p (by rwa [h.code p hp])).trans (h.code p hp)

theorem State.Onward.mono {js : List Nat} (h : State.Onward js s t) (hj : js ⊆ ks) : State.Onward ks s t :=
  { h with regs := fun k hk => h.regs k fun hm => hk (hj hm) }

/-- A step that reaches neither registers nor headers. -/
theorem State.Onward.behind (h : State.Onward ks s t) (hr : u.regs = t.regs) (hh : u.hdr = t.hdr) : State.Onward ks s u :=
  h.trans (.of_hdr (fun k _ => by rw [State.cell, hr, State.cell]) hh)

theorem State.Onward.setFld (h : State.Onward ks s t) (f : Field) (v : Nat) (hf : f.reg ∈ ks) : State.Onward ks s (t.setFld f v) :=
  h.trans (.of_hdr (fun _ hj => t.cell_setFld_other v fun he => hj (he ▸ hf)) rfl)

theorem State.Onward.bump (h : State.Onward ks s t) (f : Field) (hf : f.reg ∈ ks) : State.Onward ks s (t.bump f) := h.setFld f _ hf

theorem State.Onward.updLane (h : State.Onward ks s t) (n : Nat) (f : Lane → Lane) : State.Onward ks s (t.updLane n f) := h.behind rfl rfl
theorem State.Onward.drawFree (h : State.Onward ks s t) : State.Onward ks s t.drawFree := h.behind rfl rfl
theorem State.Onward.noteSector (h : State.Onward ks s t) (n seq : Nat) (d : Bool) : State.Onward ks s (t.noteSector n seq d) :=
  h.updLane n _
theorem State.Onward.updFrame (h : State.Onward ks s t) (m : Nat) (f : Frame → Frame) : State.Onward ks s (t.updFrame m f) := h.behind rfl rfl

theorem State.Onward.event_step (h : State.Onward ks s t) (hk : R.HIF_MSIX_PBA ∈ ks) (p b : Nat) : State.Onward ks s (t.event p b) :=
  h.trans
    { regs := fun _ hj => t.cell_event p b fun he => hj (he ▸ hk)
      event := (t.noted_event p b).event
      code := fun q _ => by
        by_cases hq : q = p
        · rw [hq, State.page_event]
        · rw [State.page_event_other _ _ _ hq] }

theorem State.Onward.error_step (h : State.Onward ks s t) (hk : R.HIF_MSIX_PBA ∈ ks) (hl : R.RST_RING_LOST_CNT ∈ ks) (p code : Nat) (info : Word) :
    State.Onward ks s (t.error p code info) :=
  h.trans
    { regs := fun _ hj => t.cell_error p code info (fun he => hj (he ▸ hk)) (fun he => hj (he ▸ hl))
      event := (t.noted_error p code info).event
      code := fun q hq => by
        rw [State.page_error]
        split_ifs with hp
        · subst hp
          rw [PageHdr.take_further hq]
        · rfl }

theorem State.Onward.foldl {α : Type} {f : State → α → State} (hf : ∀ s x, State.Onward ks s (f s x)) (l : List α) (s : State) :
    State.Onward ks s (l.foldl f s) := by
  induction l generalizing s with
  | nil => exact .refl ks s
  | cons x l ih => exact (hf s x).trans (ih (f s x))

theorem State.Onward.fld (h : State.Onward ks s t) {f : Field} (hf : f.reg ∉ ks) : t.fld f = s.fld f := State.fld_of_cell (h.regs _ hf)

/-! ## An error with its event and its count -/

section Reported

/-- A page takes the error `code`, raises event `b`, and the counter `f` counts. -/
def State.reported (s : State) (p code b : Nat) (f : Field) : State := ((s.error p code 0).event p b).bump f

variable (s : State) (p code b : Nat) (f : Field)

@[simp] theorem State.reported_inner : (s.reported p code b f).inner = s.inner := by simp [State.reported]

theorem State.lane_reported (n : Nat) : (s.reported p code b f).lane n = s.lane n := State.lane_of_inner (s.reported_inner p code b f) n

theorem State.cell_reported {k : Nat} (hk : k ≠ f.reg) (hp : k ≠ R.HIF_MSIX_PBA) (hl : k ≠ R.RST_RING_LOST_CNT) :
    (s.reported p code b f).cell k = s.cell k := by
  rw [State.reported, State.cell_bump _ _ hk, State.cell_event _ _ _ hp, State.cell_error _ _ _ _ hp hl]

variable {f} in
theorem State.reported_counts (hf : f.lo ≤ f.hi) (hh : f.hi < 32) (hp : f.reg ≠ R.HIF_MSIX_PBA) (hl : f.reg ≠ R.RST_RING_LOST_CNT) :
    (s.reported p code b f).fld f = min (2 ^ (f.hi + 1 - f.lo) - 1) (s.fld f + 1) := by
  rw [State.reported, State.fld_bump _ _ hf hh, State.fld_event _ _ _ hp, State.fld_of_cell (s.cell_error p code 0 hp hl)]

variable {b} in
theorem State.reported_raises (hb : b < 32) : ((s.reported p code b f).page p).eventRaw.getLsbD b = true :=
  State.event_raised (s.error p code 0) p hb

theorem State.reported_code (h : (s.page p).errCode = 0) : ((s.reported p code b f).page p).errCode = code := by
  have hp : (s.reported p code b f).page p = ((s.error p code 0).event p b).page p := State.page_setFld _ _ _ _
  rw [hp, State.page_event, State.page_error, if_pos rfl, PageHdr.take_first h]

end Reported

/-! ## Waits of a write (R244, R252) -/

/-- A lane whose oldest message waits since `a`, after `w` cycles before a pause. -/
def Lane.waiting (a : Option Nat) (w : Nat) (l : Lane) : Lane := { l with waitAt := a, waited := w }

theorem Lane.waiting_index (a : Option Nat) (w : Nat) (l : Lane) :
    (l.waiting a w).idxMiss = l.idxMiss ∧ (l.waiting a w).idxLast = l.idxLast ∧ ∀ i, (l.waiting a w).idxRec i = l.idxRec i :=
  ⟨rfl, rfl, fun _ => rfl⟩

/-- A wait begins, ends or goes on: nothing but the wait differs. -/
theorem State.noteWait_waits (s : State) (n : Nat) : s.noteWait n = s ∨ ∃ a w, s.noteWait n = s.updLane n (Lane.waiting a w) := by
  unfold State.noteWait
  extract_lets l blocked
  split_ifs
  · split
    · exact .inr ⟨none, l.waited + (s.cycles - _), rfl⟩
    · exact .inl rfl
  · split
    · exact .inl rfl
    · exact .inr ⟨some s.cycles, l.waited, rfl⟩
  · exact .inr ⟨none, 0, rfl⟩

@[simp] theorem State.noteWait_regs (s : State) (n : Nat) : (s.noteWait n).regs = s.regs := by
  obtain h | ⟨a, w, h⟩ := s.noteWait_waits n <;> rw [h]
  rfl

@[simp] theorem State.noteWait_hdr (s : State) (n : Nat) : (s.noteWait n).hdr = s.hdr := by
  obtain h | ⟨a, w, h⟩ := s.noteWait_waits n <;> rw [h]
  rfl

@[simp] theorem State.noteWait_mem (s : State) (n : Nat) : (s.noteWait n).mem = s.mem := by
  obtain h | ⟨a, w, h⟩ := s.noteWait_waits n <;> rw [h]
  rfl

theorem State.fld_noteWait (s : State) (n : Nat) (f : Field) : (s.noteWait n).fld f = s.fld f :=
  State.fld_of_cell (by rw [State.cell, State.noteWait_regs, State.cell])

theorem State.lane_noteWait (s : State) (n : Nat) : ∃ a w, (s.noteWait n).lane n = (s.lane n).waiting a w := by
  obtain h | ⟨a, w, h⟩ := s.noteWait_waits n <;> rw [h]
  · exact ⟨(s.lane n).waitAt, (s.lane n).waited, rfl⟩
  · exact ⟨a, w, s.lane_updLane n _⟩

/-! ## Lost sectors (R232, R233, R251) -/

/-- The registers that the loss of a sector of lane `n` may write. -/
def lossRegs (n : Nat) : List Nat :=
  [R.SLK_SECTOR_FORMAT_CNT n, R.SLK_SECTOR_LOST_CNT n, R.SLK_SLOT_TAKEN_CNT n, R.SLK_LOST_LAST n, R.SLK_LOST_SPAN n, R.SEP_CARRIED_CNT,
    R.HIF_MSIX_PBA, R.RST_RING_LOST_CNT]

theorem not_lossReg (n : Nat) {k : Nat} (hk : k = 0x20090 ∨ k = 0x20098) : k + 0x4000 * n ∉ lossRegs n := by
  simp only [lossRegs, R.SLK_SECTOR_FORMAT_CNT, R.SLK_SECTOR_LOST_CNT, R.SLK_SLOT_TAKEN_CNT, R.SLK_LOST_LAST, R.SLK_LOST_SPAN, R.SEP_CARRIED_CNT,
    R.HIF_MSIX_PBA, R.RST_RING_LOST_CNT, List.mem_cons, List.not_mem_nil, or_false]
  omega

section Loss

variable (s : State) (n : Nat)

theorem State.reportSpan_onward (m l a e : Nat) : State.Onward (lossRegs n) s (s.reportSpan m l a e) := by
  have hs := State.Onward.refl (lossRegs n) s
  unfold State.reportSpan
  extract_lets here
  split_ifs
  · exact hs.updFrame _ _
  · split
    · exact hs
    · exact ((hs.updFrame _ _).bump F.SEP_CARRIED_CNT (by simp [lossRegs, F.SEP_CARRIED_CNT])).event_step (by simp [lossRegs]) _ _

theorem State.lostSpan_onward (a e : Nat) (frame : Option Nat) : State.Onward (lossRegs n) s (s.lostSpan n a e frame) := by
  have hset : State.Onward (lossRegs n) s ((s.setFld (F.SLK_LOST_SPAN_AZ_START n) a).setFld (F.SLK_LOST_SPAN_AZ_END n) e) :=
    ((State.Onward.refl _ s).setFld (F.SLK_LOST_SPAN_AZ_START n) a (by simp [lossRegs, F.SLK_LOST_SPAN_AZ_START])).setFld
      (F.SLK_LOST_SPAN_AZ_END n) e (by simp [lossRegs, F.SLK_LOST_SPAN_AZ_END])
  unfold State.lostSpan
  extract_lets x
  split
  · split_ifs
    · exact hset
    · exact hset.trans (State.reportSpan_onward x n _ _ _ _)
  · exact hset

theorem State.recordLost_onward (cause seq : Nat) (frame : Option Nat) : State.Onward (lossRegs n) s (s.recordLost n cause seq frame) := by
  unfold State.recordLost
  extract_lets x y z w
  have hy : State.Onward (lossRegs n) s y :=
    (((State.Onward.refl _ s).error_step (by simp [lossRegs]) (by simp [lossRegs]) _ _ _).event_step (by simp [lossRegs]) _ _).bump
      (F.SLK_SECTOR_LOST_CNT n) (by simp [lossRegs, F.SLK_SECTOR_LOST_CNT])
  have hz : State.Onward (lossRegs n) s z := by
    unfold z
    split_ifs
    · exact hy.bump (F.SLK_SLOT_TAKEN_CNT n) (by simp [lossRegs, F.SLK_SLOT_TAKEN_CNT])
    · exact hy
  have hlast {t : State} (h : State.Onward (lossRegs n) s t) {f : Field} (hf : f.reg = R.SLK_LOST_LAST n) (v : Nat) :
      State.Onward (lossRegs n) s (t.setFld f v) := h.setFld f v (by simp [lossRegs, hf])
  have hw : State.Onward (lossRegs n) s w := hlast (hlast hz rfl _) rfl _
  split
  · exact hlast hw rfl _
  · exact (hlast hw rfl _).drawFree

theorem State.loseNow_onward (cause : Nat) (x : Sector) : State.Onward (lossRegs n) s (s.loseNow n cause x) :=
  ((s.recordLost_onward n cause x.seq x.frame).trans (State.lostSpan_onward _ n x.azStart x.azEnd x.frame)).noteSector n x.seq false

theorem State.noteVerdict_onward (seq : Nat) (v : Verdict) : State.Onward (lossRegs n) s (s.noteVerdict n seq v) := by
  unfold State.noteVerdict
  extract_lets p put l
  split_ifs
  · exact (State.Onward.refl _ s).behind rfl rfl
  · exact (State.Onward.refl _ s).behind rfl rfl

theorem State.loseSector_onward (cause : Nat) (x : Sector) : State.Onward (lossRegs n) s (s.loseSector n cause x) := by
  unfold State.loseSector State.dropRepeat State.lose
  split_ifs
  · exact ((State.Onward.refl _ s).bump (F.SLK_SECTOR_FORMAT_CNT n) (by simp [lossRegs, F.SLK_SECTOR_FORMAT_CNT])).noteSector n x.seq false
  · exact s.noteVerdict_onward n _ _
  · exact (s.noteVerdict_onward n _ _).trans (State.loseNow_onward _ n cause x)
  · exact s.loseNow_onward n cause x

theorem State.loseSplit_onward : State.Onward (lossRegs n) s (s.loseSplit n) :=
  ((State.Onward.refl _ s).updLane n (fun l => { l with open1 := [] })).trans
    (.foldl (fun s _ => s.loseSector_onward n 5 _) _ _)

end Loss

/-! ## The end of an index field (R177, R215, R219, R253) -/

section FieldEnd

variable (s : State) (n : Nat)

/-- A lane whose index field is over: it acquires, with fill phase `f`, and its second-fragment window is open from `z` on, or not. -/
def Lane.fieldOver (f : Nat) (ready : Bool) (z : Nat) (l : Lane) : Lane :=
  { l.reacquiring f with secondOpen := ready, secondAt := z, hit2 := false }

/-- The registers at the end of an index field. -/
def State.gapClosed (s : State) (n : Nat) : State := (s.setFld (F.SLK_LANE_STATUS_IN_GAP n) 0).startAcq n

theorem State.fieldEnd_eq : s.fieldEnd n = (s.gapClosed n).updLane n (fun l =>
    { l with secondOpen := (s.gapClosed n).flag (F.SLK_TIMING_READY n), secondAt := (s.gapClosed n).timebase, hit2 := false }) := rfl

theorem State.gapClosed_step : State.LaneStep [R.SLK_LANE_STATUS n] s (s.gapClosed n) :=
  ((State.LaneStep.refl [R.SLK_LANE_STATUS n] s).setFld (F.SLK_LANE_STATUS_IN_GAP n) 0 (.head _)).trans (State.startAcq_step _ n)

theorem State.fieldEnd_mem : (s.fieldEnd n).mem = s.mem := by rw [State.fieldEnd_eq, State.updLane_mem, (s.gapClosed_step n).mem]

theorem State.cell_fieldEnd {k : Nat} (hk : k ≠ R.SLK_LANE_STATUS n) : (s.fieldEnd n).cell k = s.cell k := by
  rw [State.fieldEnd_eq, State.cell_updLane, (s.gapClosed_step n).regs k (mt List.mem_singleton.mp hk)]

theorem State.fieldEnd_onward : State.Onward [R.SLK_LANE_STATUS n] s (s.fieldEnd n) := by
  have hc : State.Onward [R.SLK_LANE_STATUS n] s (s.gapClosed n) := 
    .of_hdr (s.gapClosed_step n).regs (by simp [State.gapClosed, State.startAcq_eq])
  rw [State.fieldEnd_eq]
  exact hc.updLane n _

theorem State.fieldEnd_flags : (s.fieldEnd n).flag (F.SLK_LANE_STATUS_IN_GAP n) = false ∧ (s.fieldEnd n).flag (F.SLK_LANE_STATUS_ACQ n) = true := by
  have hf (f : Field) : (s.fieldEnd n).fld f = (s.gapClosed n).fld f := State.fld_of_cell (by rw [State.fieldEnd_eq, State.cell_updLane])
  rw [State.flag_of_fld (hf _), State.flag_of_fld (hf _), State.gapClosed]
  refine ⟨?_, (State.startAcq_flags _ n).1⟩
  rw [State.flag_of_fld (State.startAcq_fld _ n (.inr (.inr (show 2 < 3 by decide))))]
  exact State.flag_setFld _ _ rfl (show 3 < 32 by decide) false

theorem State.fieldEnd_lane : ∃ f r z, (s.fieldEnd n).lane n = (s.lane n).fieldOver f r z := by
  rw [State.fieldEnd_eq, State.lane_updLane]
  generalize (s.gapClosed n).flag (F.SLK_TIMING_READY n) = r
  generalize (s.gapClosed n).timebase = z
  rw [State.gapClosed, State.startAcq_lane, State.lane_setFld]
  exact ⟨_, r, z, rfl⟩

end FieldEnd

/-! ## IN_GAP_OPEN (R215) -/

theorem State.gapOpen_runs (hr : s.laneRuns n = true) (ht : s.flag (F.SLK_TIMING_READY n) = true) :
    s.gapOpen n = if s.gapDue n = true then s.setFld (F.SLK_LANE_STATUS_IN_GAP n) 1 else s := by
  simp [State.gapOpen, hr, ht]

/-! ## INDEX_MISS (R215, R253) -/

section Miss

variable (s : State) (n : Nat)

/-- A lane that goes on with the predicted instant `p` of the field after its last one. -/
def Lane.skipped (p : Nat) (l : Lane) : Lane :=
  match l.idxLast with
  | some i => { l with
      idxTs := Sparse.set idxDefault l.idxTs ((i + 1) % 8) { l.idxRec ((i + 1) % 8) with ts := p, located := false }
      idxLast := some ((i + 1) % 8) }
  | none => l

/-- A lane with one more missed field. -/
def Lane.missed (l : Lane) : Lane := { l with idxMiss := l.idxMiss + 1, lockRun := 0, unlockRun := 0 }

theorem State.skipField_eq : s.skipField n = s.updLane n (Lane.skipped (s.predicted n)) := rfl

theorem Lane.skipped_idxMiss (p : Nat) (l : Lane) : (l.skipped p).idxMiss = l.idxMiss := by
  unfold Lane.skipped
  split <;> rfl

theorem Lane.skipped_last {p i : Nat} {l : Lane} (h : l.idxLast = some i) :
    (l.skipped p).idxLast = some ((i + 1) % 8) ∧ ((l.skipped p).idxRec ((i + 1) % 8)).ts = p := by
  simp only [Lane.skipped, h, Lane.idxRec, Sparse.get_set_same, and_self]

/-- The miss of a field as it is recorded, raised and counted. -/
def State.missReported (s : State) (n : Nat) : State := s.reported (ctlPage n) 0x4006 5 (F.SLK_INDEX_MISS_CNT n)

/-- The lane once the missed field has ended. -/
def State.fieldMissed (s : State) (n : Nat) : State := (((s.missReported n).skipField n).updLane n Lane.missed).fieldEnd n

variable {s n} in
theorem State.indexMiss_over (hr : s.laneRuns n = true) (ht : s.flag (F.SLK_TIMING_READY n) = true)
    (hg : s.flag (F.SLK_LANE_STATUS_IN_GAP n) = true) (ho : s.gapOver n = true) : s.indexMiss n =
    if 8 ≤ ((s.fieldMissed n).lane n).idxMiss then ((s.fieldMissed n).loseSplit n).dropTiming n else (s.fieldMissed n).noteWait n := by
  simp only [State.indexMiss, hr, ht, hg, ho, Bool.and_self, if_true]
  rfl

variable {s n} in
theorem State.indexMiss_within (h : s.flag (F.SLK_LANE_STATUS_IN_GAP n) = false ∨ s.gapOver n = false) : s.indexMiss n = s := by
  obtain h | h := h <;> simp [State.indexMiss, h]

variable {n} in
theorem State.cell_missReported (hn : n < 8) {a : Nat} (ha : a < 0x24000) (hc : a ≠ 0x20090) :
    (s.missReported n).cell (a + 0x4000 * n) = s.cell (a + 0x4000 * n) :=
  State.cell_reported _ _ _ _ _ (laneReg_ne hc) (laneReg_ne_beyond hn ha (by decide)) (laneReg_ne_beyond hn ha (by decide))

theorem State.predicted_of {s t : State} {n : Nat} (hl : t.lane n = s.lane n)
    (hf : t.fld (F.SLK_REV_PERIOD_NS_PERIOD n) = s.fld (F.SLK_REV_PERIOD_NS_PERIOD n)) : t.predicted n = s.predicted n := by
  simp only [State.predicted, hl, hf]

variable {n} in
/-- What a missed field leaves of the lane: its prediction stands in for it. -/
theorem State.fieldMissed_lane (hn : n < 8) : ∃ f r z, (s.fieldMissed n).lane n = ((s.lane n).skipped (s.predicted n)).missed.fieldOver f r z := by
  have hl : (s.missReported n).lane n = s.lane n := State.lane_reported _ _ _ _ _ n
  have hp : (s.missReported n).predicted n = s.predicted n :=
    State.predicted_of hl (State.fld_of_cell (s.cell_missReported hn (by decide) (by decide)))
  obtain ⟨f, r, z, h⟩ := (((s.missReported n).skipField n).updLane n Lane.missed).fieldEnd_lane n
  exact ⟨f, r, z, by rw [State.fieldMissed, h, State.lane_updLane, State.skipField_eq, State.lane_updLane, hl, hp]⟩

variable {n} in
theorem State.fieldMissed_idxMiss (hn : n < 8) : ((s.fieldMissed n).lane n).idxMiss = (s.lane n).idxMiss + 1 := by
  obtain ⟨f, r, z, h⟩ := s.fieldMissed_lane hn
  rw [h]
  exact congrArg (· + 1) (Lane.skipped_idxMiss _ _)

theorem State.fieldMissed_onward : State.Onward [R.SLK_LANE_STATUS n] (s.missReported n) (s.fieldMissed n) :=
  (((State.Onward.refl _ (s.missReported n)).updLane n (Lane.skipped _)).updLane n Lane.missed).trans (State.fieldEnd_onward _ n)

/-- The registers that the end of sector timing may write. -/
def timingLostRegs (n : Nat) : List Nat := lossRegs n ++ [R.SLK_LANE_STATUS n, R.SLK_TIMING_READY n, R.SLK_SERVO_STATUS n]

/-- What a miss does once it is reported, whether sector timing stays or not. -/
theorem State.indexMiss_onward {s : State} {n : Nat} (hr : s.laneRuns n = true) (ht : s.flag (F.SLK_TIMING_READY n) = true)
    (hg : s.flag (F.SLK_LANE_STATUS_IN_GAP n) = true) (ho : s.gapOver n = true) :
    State.Onward (timingLostRegs n) (s.missReported n) (s.indexMiss n) := by
  have hf : State.Onward (timingLostRegs n) (s.missReported n) (s.fieldMissed n) := (s.fieldMissed_onward n).mono (by simp [timingLostRegs])
  rw [State.indexMiss_over hr ht hg ho]
  split_ifs
  · exact (hf.trans ((State.loseSplit_onward _ n).mono (List.subset_append_left _ _))).trans
      (.of_hdr (fun k hk => (State.dropTiming_step _ n).regs k fun hm => hk (List.mem_append_right _ hm))
        (by simp [State.dropTiming_eq]))
  · exact hf.behind (State.noteWait_regs _ n) (State.noteWait_hdr _ n)

theorem State.dropTiming_ends : (s.dropTiming n).flag (F.SLK_LANE_STATUS_IN_GAP n) = false ∧ ((s.dropTiming n).lane n).idxLast = none :=
  ⟨State.flag_setFld _ _ rfl (show 3 < 32 by decide) false, (congrArg Lane.idxLast (s.lane_updLane n Lane.untimed) :)⟩

theorem State.indexMiss_gap {s : State} {n : Nat} (hr : s.laneRuns n = true) (ht : s.flag (F.SLK_TIMING_READY n) = true)
    (hg : s.flag (F.SLK_LANE_STATUS_IN_GAP n) = true) (ho : s.gapOver n = true) :
    (s.indexMiss n).flag (F.SLK_LANE_STATUS_IN_GAP n) = false := by
  rw [State.indexMiss_over hr ht hg ho]
  split_ifs
  · exact (State.dropTiming_ends _ n).1
  · exact (State.flag_of_fld (State.fld_noteWait _ n _)).trans (State.fieldEnd_flags _ n).1

/-- Before the eighth miss in a row, sector timing goes on with the prediction. -/
theorem State.indexMiss_few {s : State} {n : Nat} (hn : n < 8) (hr : s.laneRuns n = true) (ht : s.flag (F.SLK_TIMING_READY n) = true)
    (hg : s.flag (F.SLK_LANE_STATUS_IN_GAP n) = true) (ho : s.gapOver n = true) (hm : (s.lane n).idxMiss < 7) : let t := s.indexMiss n
    t.flag (F.SLK_TIMING_READY n) = true ∧ (t.lane n).idxMiss = (s.lane n).idxMiss + 1 ∧
      t.fld (F.SLK_REV_PERIOD_NS_PERIOD n) = s.fld (F.SLK_REV_PERIOD_NS_PERIOD n) ∧
      ∀ i, (s.lane n).idxLast = some i → (t.lane n).idxLast = some ((i + 1) % 8) ∧ ((t.lane n).idxRec ((i + 1) % 8)).ts = s.predicted n := by
  have ht8 : ¬8 ≤ ((s.fieldMissed n).lane n).idxMiss := by rw [s.fieldMissed_idxMiss hn]; omega
  rw [State.indexMiss_over hr ht hg ho, if_neg ht8]
  have hcell {a : Nat} (ha : a < 0x24000) (hc : a ≠ 0x20090) (hs : a ≠ 0x20044) :
      ((s.fieldMissed n).noteWait n).cell (a + 0x4000 * n) = s.cell (a + 0x4000 * n) := by
    rw [State.cell, State.noteWait_regs]
    exact ((s.fieldMissed_onward n).regs _ (mt List.mem_singleton.mp (laneReg_ne hs))).trans (s.cell_missReported hn ha hc)
  obtain ⟨a, w, hw⟩ := (s.fieldMissed n).lane_noteWait n
  obtain ⟨f, r, z, hl⟩ := s.fieldMissed_lane hn
  intro t
  obtain ⟨hmiss, hlast, hrec⟩ := Lane.waiting_index a w ((s.fieldMissed n).lane n)
  refine ⟨(State.flag_of_fld (State.fld_of_cell (hcell (by decide) (by decide) (by decide)))).trans ht, ?_,
    State.fld_of_cell (hcell (by decide) (by decide) (by decide)), fun i hi => ?_⟩
  · rw [hw, hmiss, s.fieldMissed_idxMiss hn]
  · rw [hw, hlast, hrec, hl]
    exact Lane.skipped_last hi

/-- The eighth miss in a row drops sector timing. -/
theorem State.indexMiss_eighth {s : State} {n : Nat} (hn : n < 8) (hr : s.laneRuns n = true) (ht : s.flag (F.SLK_TIMING_READY n) = true)
    (hg : s.flag (F.SLK_LANE_STATUS_IN_GAP n) = true) (ho : s.gapOver n = true) (hm : 7 ≤ (s.lane n).idxMiss) : let t := s.indexMiss n
    t.flag (F.SLK_TIMING_READY n) = false ∧ t.fld (F.SLK_SERVO_STATUS_STATE n) = 0 ∧ (t.lane n).idxLast = none := by
  have ht8 : 8 ≤ ((s.fieldMissed n).lane n).idxMiss := by rw [s.fieldMissed_idxMiss hn]; omega
  rw [State.indexMiss_over hr ht hg ho, if_pos ht8]
  obtain ⟨hready, hservo, -⟩ := ((s.fieldMissed n).loseSplit n).dropTiming_reads n
  exact ⟨hready, hservo, (State.dropTiming_ends _ n).2⟩

end Miss

/-! ## INDEX_FIELD_LOCATED (R212, R213) -/

section Located

variable (s : State) (n wd z : Nat)

/-- A field of a whole register. -/
theorem State.cell_setFld_whole (k v : Nat) : (s.setFld ⟨k, 31, 0⟩ v).cell k = word (v % 2 ^ 32) := by
  rw [State.cell_setFld, if_pos rfl]
  apply BitVec.eq_of_toNat_eq
  have h := getBits_setBits_same (s.cell k) (hi := 31) (lo := 0) v (by decide) (by decide)
  have hk := (setBits (s.cell k) 31 0 v).isLt
  simp only [getBits, natBits, Nat.shiftRight_zero] at h
  rw [word, BitVec.toNat_ofNat, ← Nat.mod_eq_of_lt hk]
  omega

/-- The timestamp and the word of an accepted burst. -/
def State.burstShown (s : State) (n wd z : Nat) : State :=
  ((s.setFld (F.SLK_INDEX_TS_LO_TS n) (z % 2 ^ 32)).setFld (F.SLK_INDEX_TS_HI_TS n) (z / 2 ^ 32)).setFld (F.SLK_INDEX_WORD n) (wd % 2 ^ 32)

/-- The fields located in a row, with one of IDX `idx`. -/
def Lane.runWith (l : Lane) (idx : Nat) : Nat := if l.idxLast = some ((idx + 7) % 8) then l.idxRun + 1 else 1

/-- An accepted burst with the period it gives. -/
def State.periodShown (s : State) (n wd z : Nat) : State :=
  let before := (s.lane n).idxRec (natBits wd 26 24)
  if before.located && (s.flag (F.SLK_TIMING_READY n) || Nat.ble 9 ((s.lane n).runWith (natBits wd 26 24))) then
    (s.burstShown n wd z).setFld (F.SLK_REV_PERIOD_NS_PERIOD n) ((z - before.ts) % 2 ^ 32)
  else s.burstShown n wd z

/-- What a burst tells of its IDX. -/
def burstRec (wd z : Nat) : IdxRec := { ts := z, located := true, az := natBits wd 15 0, rev := natBits wd 23 16 }

/-- A lane that has located the field of a burst, the `run`-th in a row. -/
def Lane.withBurst (wd z run : Nat) (l : Lane) : Lane :=
  { l with idxTs := Sparse.set idxDefault l.idxTs (natBits wd 26 24) (burstRec wd z), idxLast := some (natBits wd 26 24),
           idxRun := min 9 run, idxMiss := 0 }

theorem State.acceptBurst_eq : s.acceptBurst n wd z =
    let run := (s.lane n).runWith (natBits wd 26 24)
    let t := (s.periodShown n wd z).updLane n (Lane.withBurst wd z run)
    if s.flag (F.SLK_TIMING_READY n) || run < 9 then t
    else (t.setFld (F.SLK_TIMING_READY n) 1).updLane n (fun l => { l with
      secNow := some (sectorAt (sectorsPerRev ((s.periodShown n wd z).fld (F.SLK_LANE_CFG_RING n))) (natBits wd 15 0)) }) := rfl

theorem State.periodShown_slk : (s.periodShown n wd z).slk = s.slk := by
  unfold State.periodShown
  dsimp only
  split_ifs <;> rfl

theorem State.cell_periodShown {k : Nat} (h : k ≠ R.SLK_REV_PERIOD_NS n) : (s.periodShown n wd z).cell k = (s.burstShown n wd z).cell k := by
  unfold State.periodShown
  dsimp only
  split_ifs
  · exact State.cell_setFld_other _ _ h
  · rfl

theorem State.cell_acceptBurst {k : Nat} (h : k ≠ R.SLK_TIMING_READY n) : (s.acceptBurst n wd z).cell k = (s.periodShown n wd z).cell k := by
  rw [State.acceptBurst_eq]
  dsimp only
  split_ifs
  · rw [State.cell_updLane]
  · rw [State.cell_updLane, State.cell_setFld_other _ _ h, State.cell_updLane]

theorem State.acceptBurst_rec : ((s.acceptBurst n wd z).lane n).idxRec (natBits wd 26 24) = burstRec wd z := by
  have hl : ((s.acceptBurst n wd z).lane n).idxTs = Sparse.set idxDefault (s.lane n).idxTs (natBits wd 26 24) (burstRec wd z) := by
    have hp : (s.periodShown n wd z).lane n = s.lane n := by rw [State.lane, State.periodShown_slk, State.lane]
    rw [State.acceptBurst_eq, ← hp]
    dsimp only
    split_ifs
    · rw [State.lane_updLane]
      rfl
    · rw [State.lane_updLane, State.lane_setFld, State.lane_updLane]
      rfl
  rw [Lane.idxRec, hl, Sparse.get_set_same]

/-- The registers of an accepted burst: its word, its instant, and the time since its IDX was located before (R213). -/
theorem State.acceptBurst_reads : let t := s.acceptBurst n wd z
    t.cell (R.SLK_INDEX_WORD n) = word (wd % 2 ^ 32) ∧ t.fld (F.SLK_INDEX_TS_LO_TS n) = z % 2 ^ 32 ∧
      t.fld (F.SLK_INDEX_TS_HI_TS n) = z / 2 ^ 32 % 2 ^ 32 ∧
      (s.flag (F.SLK_TIMING_READY n) = true → ((s.lane n).idxRec (natBits wd 26 24)).located = true →
        t.fld (F.SLK_REV_PERIOD_NS_PERIOD n) = (z - ((s.lane n).idxRec (natBits wd 26 24)).ts) % 2 ^ 32) := by
  have hshown {a : Nat} (h1 : a ≠ 0x20098) (h2 : a ≠ 0x20094) :
      (s.acceptBurst n wd z).cell (a + 0x4000 * n) = (s.burstShown n wd z).cell (a + 0x4000 * n) :=
    (s.cell_acceptBurst n wd z (laneReg_ne h1)).trans (s.cell_periodShown n wd z (laneReg_ne h2))
  refine ⟨?_, ?_, ?_, fun hr hl => ?_⟩
  · refine (hshown (by decide) (by decide)).trans ((State.cell_setFld_whole _ _ _).trans ?_)
    rw [Nat.mod_mod]
  · rw [State.fld_of_cell (hshown (by decide) (by decide)), State.burstShown, State.fld_setFld_other _ _ (laneReg_ne (by decide)),
      State.fld_setFld_other _ _ (laneReg_ne (by decide)), State.fld_setFld_same _ _ _ (show 0 ≤ 31 by decide) (show 31 < 32 by decide)]
    exact Nat.mod_mod _ _
  · rw [State.fld_of_cell (hshown (by decide) (by decide)), State.burstShown, State.fld_setFld_other _ _ (laneReg_ne (by decide)),
      State.fld_setFld_same _ _ _ (show 0 ≤ 31 by decide) (show 31 < 32 by decide)]
    rfl
  · have hperiod : s.periodShown n wd z = (s.burstShown n wd z).setFld (F.SLK_REV_PERIOD_NS_PERIOD n)
        ((z - ((s.lane n).idxRec (natBits wd 26 24)).ts) % 2 ^ 32) := if_pos (by simp [hr, hl])
    rw [State.fld_of_cell (s.cell_acceptBurst n wd z (laneReg_ne (by decide))), hperiod,
      State.fld_setFld_same _ _ _ (show 0 ≤ 31 by decide) (show 31 < 32 by decide)]
    exact Nat.mod_mod _ _

variable {s n}

theorem State.indexLocated_unmarked (h : s.indexMark n = false) : s.indexLocated n z = s := by simp [State.indexLocated, h]

/-- A lane that has found a field's mark and no instant: neither located nor missed fields are in a row. -/
def Lane.unread (l : Lane) : Lane := { l with idxRun := 0, idxMiss := 0 }

/-- The field of a mark without a burst that checks. -/
def State.fieldUnread (s : State) (n : Nat) : State :=
  ((if s.flag (F.SLK_TIMING_READY n) then s.skipField n else s).updLane n Lane.unread).fieldEnd n

/-- A mark of a field that is looked for. -/
theorem State.indexLocated_marked (hr : s.laneRuns n = true) (ho : s.rotary n = true) (hm : s.indexMark n = true)
    (hg : s.flag (F.SLK_TIMING_READY n) = false ∨ s.flag (F.SLK_LANE_STATUS_IN_GAP n) = true) : s.indexLocated n z =
    match (s.lane n).ch.burst.find? burstValid with
    | none => s.fieldUnread n
    | some wd =>
      let b := (s.acceptBurst n wd z).fieldEnd n
      if b.flag (F.SLK_TIMING_READY n) then b.servoUpdate n z (natBits wd 15 0) else b := by
  have h : (s.laneRuns n && s.rotary n && s.indexMark n
      && (!s.flag (F.SLK_TIMING_READY n) || s.flag (F.SLK_LANE_STATUS_IN_GAP n))) = true := by
    obtain hg | hg := hg <;> simp [hr, ho, hm, hg]
  rw [State.indexLocated]
  dsimp only
  rw [if_pos h]
  rfl

variable (s n)

/-- A field whose bursts all fail ends, and leaves INDEX_WORD. -/
theorem State.fieldUnread_reads : ((s.fieldUnread n).lane n).idxRun = 0 ∧
    (s.fieldUnread n).cell (R.SLK_INDEX_WORD n) = s.cell (R.SLK_INDEX_WORD n) ∧ (s.fieldUnread n).mem = s.mem := by
  unfold State.fieldUnread
  generalize hx : (if s.flag (F.SLK_TIMING_READY n) then s.skipField n else s) = x
  have hrest : x.cell (R.SLK_INDEX_WORD n) = s.cell (R.SLK_INDEX_WORD n) ∧ x.mem = s.mem := by
    subst hx
    split_ifs
    · exact ⟨rfl, rfl⟩
    · exact ⟨rfl, rfl⟩
  have hk : R.SLK_INDEX_WORD n ≠ R.SLK_LANE_STATUS n := laneReg_ne (by decide)
  obtain ⟨f, r, z, hl⟩ := (x.updLane n Lane.unread).fieldEnd_lane n
  refine ⟨?_, ?_, ?_⟩
  · rw [hl, State.lane_updLane]
    rfl
  · rw [State.cell_fieldEnd _ n hk, State.cell_updLane, hrest.1]
  · rw [State.fieldEnd_mem, State.updLane_mem, hrest.2]

end Located

/-! ## The ladder (R227, R229, R230) -/

section Ladder

variable {e : Nat} {x : Sector}

theorem State.runStep_overdue (h : s.overdue n x = true) : s.runStep e n x = (s.setEngine e none).loseSector n 2 x := if_pos h

theorem State.runStep_exhausted (h : s.overdue n x = false) (hk : s.nextStep n x.step = none) :
    s.runStep e n x = (s.setEngine e none).loseSector n 1 x := by simp [State.runStep, h, hk]

theorem State.runStep_next {k : Nat} (h : s.overdue n x = false) (hk : s.nextStep n x.step = some k) : s.runStep e n x =
    (s.setEngine e (some (n, { x with step := k, stepAt := s.cycles }))).bump (F.SLK_RETRY_STEP_CNT n) := by simp [State.runStep, h, hk]

theorem State.retryStart_takes {rest : List (Nat × Sector)} (he : s.slk.engine e = none) (hp : s.pickLadder s.slk.ladder = some ((n, x), rest)) :
    s.retryStart e = (s.updSlk (fun k => { k with ladder := rest })).runStep e n x := by simp [State.retryStart, he, hp]

theorem State.retryStart_empty (he : s.slk.engine e = none) (hl : s.slk.ladder = []) : s.retryStart e = s := by
  simp [State.retryStart, he, hl, State.pickLadder]

/-- A step ends: past the deadline, with a payload, or with neither. -/
theorem State.retryDone_ends {z : List (List Int)} (he : s.slk.engine e = some (n, x)) : s.retryDone e z =
    let cw := (s.stepOut n x z).cw
    let b := s.chargeNs n x (stepNs x.step)
    if b.overdue n x = true then (b.setEngine e none).loseSector n 2 x
    else if goodPayload cw = true then (b.setEngine e none).decoded n x (userBytes cw) true
    else b.runStep e n x := by simp only [State.retryDone, he]

theorem State.retryDeadline_found {seq : Nat} {m : Nat} (h : s.slk.onLadder.find? (fun y => y.1 == n && y.2.seq == seq) = some (m, x)) :
    s.retryDeadline n seq = if s.overdue n x = true then (s.leaveLadder n seq).loseSector n 2 x else s := by
  simp only [State.retryDeadline, h]

end Ladder

/-- Settles O32, command by command: index fields by the gap they fall in and the burst that checks, the ladder by the deadline and the
next step of its sector. -/
theorem indexAndLadder : Obligations.IndexAndLadder := by
  refine ⟨fun s dt n rx hn => ?_, fun s dt n seq x hn => ?_, fun s dt e n x rest he => ?_⟩
  · intro a hr
    have hopen : exec (.inGapOpen dt n rx) s = .next (a.gapOpen n) := rfl
    have hmiss : exec (.indexMiss dt n rx) s = .next (a.indexMiss n) := rfl
    have hlocated (z : Nat) : exec (.indexFieldLocated dt n rx z) s = .next (a.indexLocated n z) := rfl
    refine ⟨fun ht => ⟨fun hd => ?_, fun hd => ?_, fun hg ho => ?_, fun h => ?_⟩, fun z hrot hm hg => ?_, fun z hm => ?_⟩
    · rw [hopen, State.gapOpen_runs hr ht, if_pos hd]
    · rw [hopen, State.gapOpen_runs hr ht, if_neg (by simp [hd])]
    · have hon := State.indexMiss_onward hr ht hg ho
      have hcount : R.SLK_INDEX_MISS_CNT n ∉ timingLostRegs n := by
        simp only [timingLostRegs, List.mem_append, List.mem_cons, List.not_mem_nil, or_false, not_or]
        exact ⟨not_lossReg n (.inl rfl), laneReg_ne (by decide), laneReg_ne (by decide), laneReg_ne (by decide)⟩
      refine ⟨_, hmiss, State.indexMiss_gap hr ht hg ho, hon.event _ _ (State.reported_raises _ _ _ _ (by decide)), ?_, fun hc => ?_,
        State.indexMiss_few hn hr ht hg ho, State.indexMiss_eighth hn hr ht hg ho⟩
      · exact (hon.fld hcount).trans (State.reported_counts _ _ _ _ (show 0 ≤ 31 by decide) (show 31 < 32 by decide)
          (laneReg_ne_beyond hn (by decide) (by decide)) (laneReg_ne_beyond hn (by decide) (by decide)))
      · have hcode : ((a.missReported n).page (ctlPage n)).errCode = 0x4006 := State.reported_code _ _ _ _ _ hc
        exact (hon.code _ (by rw [hcode]; decide)).trans hcode
    · rw [hmiss, State.indexMiss_within h]
    · have hmark := State.indexLocated_marked z hr hrot hm hg
      refine ⟨fun hf => ?_, fun wd hf => ?_⟩
      · simp only [hf] at hmark
        obtain ⟨hrun, hword, hmem⟩ := a.fieldUnread_reads n
        obtain ⟨hgap, hacq⟩ := State.fieldEnd_flags _ n
        exact ⟨_, (hlocated z).trans (congrArg _ hmark), hrun, hgap, hacq, hword, hmem⟩
      · simp only [hf] at hmark
        intro b
        obtain ⟨hword, hlo, hhi, hperiod⟩ := a.acceptBurst_reads n wd z
        have hb {k : Nat} (h : k ≠ R.SLK_LANE_STATUS n) : b.cell k = (a.acceptBurst n wd z).cell k := State.cell_fieldEnd _ n h
        have hrec : (b.lane n).idxRec (natBits wd 26 24) = burstRec wd z := by
          obtain ⟨f, r, y, hl⟩ := (a.acceptBurst n wd z).fieldEnd_lane n
          rw [hl]
          exact a.acceptBurst_rec n wd z
        refine ⟨fun ht => ?_, fun ht => ?_, (hb (laneReg_ne (by decide))).trans hword, ?_, ?_, (State.fieldEnd_flags _ n).1, ?_, ?_,
          fun h1 h2 => ?_⟩
        · rw [hlocated, hmark, if_pos ht]
        · rw [hlocated, hmark, if_neg (by rw [ht]; decide)]
        · exact (State.fld_of_cell (hb (laneReg_ne (by decide)))).trans hlo
        · exact (State.fld_of_cell (hb (laneReg_ne (by decide)))).trans hhi
        · rw [hrec]
          rfl
        · rw [hrec]
          rfl
        · exact (State.fld_of_cell (hb (laneReg_ne (by decide)))).trans (hperiod h1 h2)
    · rw [hlocated, State.indexLocated_unmarked z hm]
  · intro a hf
    have hdeadline : exec (.retryDeadline dt n seq) s = .next (a.retryDeadline n seq) := rfl
    rw [hdeadline, State.retryDeadline_found hf]
    exact ⟨fun h => by rw [if_pos h], fun h => by rw [if_neg (by simp [h])]⟩
  · intro a
    have hstart : exec (.retryStepStart dt e) s = .next (a.retryStart e) := rfl
    have hdone (z : List (List Int)) : exec (.retryStepDone dt e z) s = .next (a.retryDone e z) := rfl
    refine ⟨fun he hp => ?_, fun he hl => ?_, fun z he => ?_⟩
    · intro b
      rw [hstart, State.retryStart_takes he hp]
      exact ⟨fun h => congrArg _ (State.runStep_overdue h), fun h hk => congrArg _ (State.runStep_exhausted h hk),
        fun k h hk => congrArg _ (State.runStep_next h hk)⟩
    · rw [hstart, State.retryStart_empty he hl]
    · intro cw b
      rw [hdone, State.retryDone_ends he]
      refine ⟨fun h => congrArg _ (if_pos h), fun h hk => congrArg _ ?_, fun k h hk => congrArg _ ?_⟩
      · rw [if_neg (by simp [b, h]), State.runStep_exhausted h hk]
      · rw [if_neg (by simp [b, h]), State.runStep_next h hk]

end Sys2Proof.Machine
end

section
/-! PROOFS. Messages of the downlink (R234, R241 to R244, R252). -/

namespace Sys2Proof.Machine

variable {s : State} {n : Nat}

/-! ## DL_TX_STATUS -/

section Status

variable (s) (n : Nat)

theorem Lane.waiting_messages (a : Option Nat) (w : Nat) (l : Lane) : (l.waiting a w).dlQueue = l.dlQueue ∧ (l.waiting a w).dlSeq = l.dlSeq ∧
    (l.waiting a w).wire = l.wire := ⟨rfl, rfl, rfl⟩

theorem State.messages_noteWait : ((s.noteWait n).lane n).dlQueue = (s.lane n).dlQueue ∧ ((s.noteWait n).lane n).dlSeq = (s.lane n).dlSeq ∧
    ((s.noteWait n).lane n).wire = (s.lane n).wire := by
  obtain ⟨a, w, h⟩ := s.lane_noteWait n
  rw [h]
  exact Lane.waiting_messages a w _

/-- QUEUED shows the length of the queue, and the wait of its head is noted; DL_TX_STATUS is the only register that this writes. -/
def State.queueShown (s : State) (n : Nat) : State := (s.showQueue n).noteWait n

theorem State.fld_queueShown {f : Field} (h : f.reg ≠ R.SLK_DL_TX_STATUS n ∨ 2 < f.lo) : (s.queueShown n).fld f = s.fld f :=
  (State.fld_noteWait _ n f).trans (State.fld_setFld_apart _ _ (show 0 ≤ 2 by decide) (show 2 < 32 by decide) (h.imp id .inr))

theorem State.queueShown_queued : (s.queueShown n).fld (F.SLK_DL_TX_STATUS_QUEUED n) = (s.lane n).dlQueue.length % 8 :=
  (State.fld_noteWait _ n _).trans (State.fld_setFld_same _ _ _ (show 0 ≤ 2 by decide) (show 2 < 32 by decide))

@[simp] theorem State.queueShown_hdr : (s.queueShown n).hdr = s.hdr := by simp [State.queueShown, State.showQueue]
@[simp] theorem State.queueShown_mem : (s.queueShown n).mem = s.mem := by simp [State.queueShown, State.showQueue]

theorem State.messages_queueShown : ((s.queueShown n).lane n).dlQueue = (s.lane n).dlQueue ∧
    ((s.queueShown n).lane n).dlSeq = (s.lane n).dlSeq ∧ ((s.queueShown n).lane n).wire = (s.lane n).wire :=
  State.messages_noteWait (s.showQueue n) n

end Status

/-! ## DL_SEND (R242) -/

section Send

variable {w : Nat} {v : Word}

theorem State.lane_wrote (s : State) (p w n : Nat) : (s.wrote p w).lane n = s.lane n := rfl

/-- A lane with one more message in its queue, which takes the next SEQ. -/
def Lane.enqueued (m : DlMsg) (l : Lane) : Lane := { l with dlQueue := l.dlQueue ++ [m], dlSeq := (l.dlSeq + 1) % 256 }

/-- The message that DL_SEND makes of the staged registers. -/
def State.stagedMsg (s : State) (n : Nat) : DlMsg :=
  { typ := s.fld (F.SLK_DL_TX_HDR_TYPE n), seq := (s.lane n).dlSeq, payload := s.dlStaged n (s.fld (F.SLK_DL_TX_HDR_LEN n)), job := none }

theorem lengthCheck_message {len : Nat} (h : len ≤ 256) : lengthCheck 9 len 0 512 256 = none := by
  rw [lengthCheck, if_neg (by omega), if_neg (by omega), if_neg (by omega)]

/-- A SEND that finds room in the queue. -/
theorem State.dlSend_room (ha : s.admits (dlPage n) 0x5C w v = true) (hv : getBits v 0 0 = 1) (hl : s.fld (F.SLK_DL_TX_HDR_LEN n) ≤ 256)
    (hq : (s.lane n).dlQueue.length < 4) : s.dlSend n w v =
    (((s.wrote (dlPage n) w).updLane n (Lane.enqueued (s.stagedMsg n))).queueShown n).setFld (F.SLK_DL_TX_STATUS_LAST_SEQ n) (s.lane n).dlSeq := by
  have hbar : s.sendBarred n v = false := by simp [State.sendBarred, Nat.not_le.mpr hq]
  have hput : (s.wrote (dlPage n) w).enqueueDl n ((s.wrote (dlPage n) w).fld (F.SLK_DL_TX_HDR_TYPE n))
      ((s.wrote (dlPage n) w).dlStaged n ((s.wrote (dlPage n) w).fld (F.SLK_DL_TX_HDR_LEN n))) none
      = some (((s.wrote (dlPage n) w).updLane n (Lane.enqueued (s.stagedMsg n))).queueShown n) := if_neg (Nat.not_le.mpr hq)
  have hlen : lengthCheck 9 ((s.wrote (dlPage n) w).fld (F.SLK_DL_TX_HDR_LEN n)) 0 512 256 = none := lengthCheck_message hl
  rw [State.dlSend, State.onWrite_admitted ha]
  dsimp only
  rw [hbar, if_neg Bool.false_ne_true, if_neg (by omega), hlen]
  dsimp only
  rw [hput]
  rfl

/-- A SEND that finds the queue full. -/
theorem State.dlSend_full (ha : s.admits (dlPage n) 0x5C w v = true) (hv : getBits v 0 0 = 1) (hl : s.fld (F.SLK_DL_TX_HDR_LEN n) ≤ 256)
    (hq : 4 ≤ (s.lane n).dlQueue.length) : s.dlSend n w v = (s.error (dlPage n) 0xA007 0).setFld (F.SLK_DL_TX_STATUS_LAST_RESULT n) 2 := by
  have hbar : s.sendBarred n v = true := by simp [State.sendBarred, hv, hq, lengthCheck_message hl]
  have hfull (typ : Nat) (p : List Byte) (job : Option Nat) : s.enqueueDl n typ p job = none := if_pos hq
  rw [State.dlSend, State.onWrite_admitted ha]
  dsimp only
  rw [if_pos hbar, if_neg (by omega), lengthCheck_message hl]
  dsimp only
  rw [hfull]

end Send

/-! ## DOWNLINK_TX_START (R243, R244) -/

section Start

/-- The line is idle and the lane is not PAUSED: a due TICK, a due SPEED_TRIM outside FOLLOW, or the head of the queue is next. -/
theorem State.dlStart_idle (hw : (s.lane n).wire = none) (hi : (s.lane n).idleAt ≤ s.cycles) (hp : s.lanePaused n = false) : s.dlStart n =
    match (s.lane n).tickDue with
    | some m => s.startTick n m
    | none => match (if s.fld (F.SLK_SERVO_STATUS_STATE n) = 3 then none else (s.lane n).trimDue) with
      | some t => (s.dropTrim n).putOnWire n 0x10 (leBytes 4 (unsigned 32 t))
      | none => match (s.lane n).dlQueue with
        | [] => s
        | m :: rest =>
          if isWriteType m.typ && s.dlInhibited n then s.noteWait n
          else (s.updLane n (fun l => { l.send s.cycles m with dlQueue := rest, waitAt := none, waited := 0 })).queueShown n := by
  have hpast : Nat.blt s.cycles (s.lane n).idleAt = false := by rw [← Bool.not_eq_true, Nat.blt_eq]; omega
  rw [State.dlStart]
  dsimp only
  rw [hw, hpast, hp, if_neg (by decide)]
  rfl

/-- A lane that takes the message `m` from its queue to the wire. -/
def Lane.sendsNext (now : Nat) (m : DlMsg) (rest : List DlMsg) (l : Lane) : Lane := { l.send now m with dlQueue := rest, waitAt := none, waited := 0 }

/-- The head of a queue on its way, where no message of the lane's own is due. -/
theorem State.dlStart_message {m : DlMsg} {rest : List DlMsg} (hw : (s.lane n).wire = none) (hi : (s.lane n).idleAt ≤ s.cycles)
    (hp : s.lanePaused n = false) (hk : (s.lane n).tickDue = none) (ht : (s.lane n).trimDue = none) (hq : (s.lane n).dlQueue = m :: rest) :
    s.dlStart n = if (isWriteType m.typ && s.dlInhibited n) = true then s.noteWait n
      else (s.updLane n (Lane.sendsNext s.cycles m rest)).queueShown n := by
  rw [State.dlStart_idle hw hi hp]
  simp only [hk, ht, hq, ite_self]
  rfl

end Start

/-! ## DOWNLINK_TX_DONE (R241) -/

section Done

/-- A lane whose message has left at `now`: the line is idle after 16 bit times. -/
def Lane.sent (now : Nat) (l : Lane) : Lane := { l with wire := none, idleAt := now + 128 }

/-- A message that has left is counted and raised. -/
def State.messageSent (s : State) (n : Nat) : State :=
  ((s.updLane n (Lane.sent s.cycles)).bump (F.SLK_DL_SENT_CNT n)).event (dlPage n) 3

/-- LAST_RESULT of a message that has left: 0 for one of the queue, as before for a TICK or a SPEED_TRIM. -/
def State.resultShown (s : State) (n : Nat) (m : DlMsg) : State :=
  if m.typ = 0x30 ∨ m.typ = 0x10 then s else s.setFld (F.SLK_DL_TX_STATUS_LAST_RESULT n) 0

theorem State.resultShown_slk (s : State) (n : Nat) (m : DlMsg) : (s.resultShown n m).slk = s.slk := by
  unfold State.resultShown
  split_ifs
  · rfl
  · exact State.setFld_slk s _ _

theorem State.resultShown_leaves (s : State) (n : Nat) (m : DlMsg) : (s.resultShown n m).mem = s.mem ∧ (s.resultShown n m).hdr = s.hdr ∧
    ∀ f : Field, f.reg ≠ R.SLK_DL_TX_STATUS n → (s.resultShown n m).fld f = s.fld f := by
  unfold State.resultShown
  split_ifs
  · exact ⟨rfl, rfl, fun _ _ => rfl⟩
  · exact ⟨State.setFld_mem s _ _, State.setFld_hdr s _ _, fun f hf => State.fld_setFld_other _ _ hf⟩

theorem State.lane_messageSent (s : State) (n : Nat) (m : DlMsg) : ((s.messageSent n).resultShown n m).lane n = (s.lane n).sent s.cycles := by
  rw [State.lane, State.resultShown_slk]
  exact (State.lane_of_inner (by simp [State.messageSent]) n).trans (s.lane_updLane n (Lane.sent s.cycles))

/-- The last bit of a message has left: its job ends, and a TICK that waits is next. -/
theorem State.dlDone_left {m : DlMsg} (hw : (s.lane n).wire = some m) (ht : (s.lane n).wireAt + m.cycles ≤ s.cycles) : s.dlDone n =
    let t := ((s.messageSent n).resultShown n m).endDlJob m.job 0
    match (t.lane n).tickDue with
    | some k => if t.lanePaused n then t else t.startTick n k
    | none => t := by
  rw [State.dlDone, hw]
  dsimp only
  rw [if_neg (Nat.not_lt.mpr ht)]
  rfl

theorem State.dlDone_leaves {m : DlMsg} (hw : (s.lane n).wire = some m) (ht : (s.lane n).wireAt + m.cycles ≤ s.cycles) (hj : m.job = none)
    (hk : (s.lane n).tickDue = none) : s.dlDone n = (s.messageSent n).resultShown n m := by
  have hdue : (((s.messageSent n).resultShown n m).lane n).tickDue = none := by
    rw [s.lane_messageSent n m]
    exact hk
  have hjob (t : State) : t.endDlJob none 0 = t := rfl
  simp only [State.dlDone_left hw ht, hj, hjob, hdue]

theorem State.mem_messageSent (s : State) (n : Nat) : (s.messageSent n).mem = s.mem := by
  rw [State.messageSent, State.event_mem, State.bump_mem, State.updLane_mem]

theorem State.messageSent_counts (s : State) (hn : n < 8) :
    (s.messageSent n).fld (F.SLK_DL_SENT_CNT n) = min (2 ^ 32 - 1) (s.fld (F.SLK_DL_SENT_CNT n) + 1) := by
  rw [State.messageSent, State.fld_event _ _ _ (laneReg_ne_beyond hn (by decide) (by decide))]
  exact State.fld_bump _ _ (show 0 ≤ 31 by decide) (show 31 < 32 by decide)

end Done

/-! ## INHIBIT_WAIT_EXPIRE (R244) -/

section Expire

/-- A lane whose queue is `rest`, none of whose messages has waited. -/
def Lane.queueLeft (rest : List DlMsg) (l : Lane) : Lane := { l with dlQueue := rest, waitAt := none, waited := 0 }

/-- A write that is discarded is recorded, raised and counted, with its result. -/
def State.writeDropped (s : State) (n : Nat) (rest : List DlMsg) : State :=
  ((s.updLane n (Lane.queueLeft rest)).reported (dlPage n) 0x4002 2 (F.SLK_DL_INHIBIT_CNT n)).setFld (F.SLK_DL_TX_STATUS_LAST_RESULT n) 1

theorem State.inhibitExpire_waits {m : DlMsg} {rest : List DlMsg} {z : Nat} (hq : (s.lane n).dlQueue = m :: rest) (ha : (s.lane n).waitAt = some z)
    (hj : m.job = none) (ht : isWriteType m.typ = true) (hi : s.dlInhibited n = true) : s.inhibitExpire n =
    if msCycles (s.fld (F.SLK_INHIBIT_WAIT_INHIBIT_WAIT_MS n)) ≤ (s.lane n).waited + (s.cycles - z) then (s.writeDropped n rest).queueShown n
    else s := by
  simp only [State.inhibitExpire, hq, ha, ht, hi, hj, Bool.and_self, Bool.not_true, Bool.false_eq_true, if_false]
  rfl

theorem State.lane_writeDropped (s : State) (n : Nat) (rest : List DlMsg) : (s.writeDropped n rest).lane n = (s.lane n).queueLeft rest := by
  rw [State.writeDropped, State.lane_setFld, State.lane_reported, State.lane_updLane]

/-- What the discard of a write shows. -/
theorem State.writeDropped_reads (s : State) (rest : List DlMsg) (hn : n < 8) : let t := s.writeDropped n rest
    t.fld (F.SLK_DL_TX_STATUS_LAST_RESULT n) = 1 ∧ t.fld (F.SLK_DL_INHIBIT_CNT n) = min (2 ^ 32 - 1) (s.fld (F.SLK_DL_INHIBIT_CNT n) + 1) ∧
      (t.page (dlPage n)).eventRaw.getLsbD 2 = true ∧ t.mem = s.mem := by
  unfold State.writeDropped
  refine ⟨State.fld_setFld_same _ _ _ (show 16 ≤ 19 by decide) (show 19 < 32 by decide), ?_, ?_, ?_⟩
  · rw [State.fld_setFld_other _ _ (laneReg_ne (by decide))]
    exact State.reported_counts (s.updLane n (Lane.queueLeft rest)) _ _ _ (show 0 ≤ 31 by decide) (show 31 < 32 by decide)
      (laneReg_ne_beyond hn (by decide) (by decide)) (laneReg_ne_beyond hn (by decide) (by decide))
  · rw [State.page_setFld]
    exact State.reported_raises _ _ _ _ (by decide)
  · rw [State.setFld_mem, State.mem_of_inner (State.reported_inner _ _ _ _ _), State.updLane_mem]

end Expire

/-- Settles O33, command by command: a SEND by the room in the queue, the line by what is due first, a message that has left, and a write by
the time it has waited. -/
theorem downlinkMessages : Obligations.DownlinkMessages := by
  intro s dt n hn
  have hsend (w : Nat) (v : Word) : exec (.dlSend dt n w v) s = .next ((s.arriveBy dt w).dlSend n w v) := rfl
  have hstart : exec (.downlinkTxStart dt n) s = .next ((s.arrive dt).dlStart n) := rfl
  have hdone : exec (.downlinkTxDone dt n) s = .next ((s.arrive dt).dlDone n) := rfl
  have hexpire : exec (.inhibitWaitExpire dt n) s = .next ((s.arrive dt).inhibitExpire n) := rfl
  refine ⟨fun w v => ?_, ?_, ?_, ?_⟩
  · intro b ha hv hl
    refine ⟨fun hq => ⟨_, (hsend w v).trans (congrArg _ (State.dlSend_room ha hv hl hq)), ?_⟩,
      fun hq => (hsend w v).trans (congrArg _ (State.dlSend_full ha hv hl hq))⟩
    generalize hx : (b.wrote (dlPage n) w).updLane n (Lane.enqueued (b.stagedMsg n)) = x
    have hlane : x.lane n = (b.lane n).enqueued (b.stagedMsg n) := by rw [← hx, State.lane_updLane, State.lane_wrote]
    have hlength : (x.lane n).dlQueue.length = (b.lane n).dlQueue.length + 1 := by
      rw [hlane]
      exact List.length_append
    obtain ⟨hqueue, hseq, -⟩ := x.messages_queueShown n
    refine ⟨?_, ?_, State.fld_setFld_same _ _ _ (show 8 ≤ 15 by decide) (show 15 < 32 by decide), ?_, ?_, ?_⟩
    · rw [State.lane_setFld, hqueue, hlane]
      rfl
    · rw [State.lane_setFld, hseq, hlane]
      rfl
    · rw [State.fld_setFld_apart _ _ (show 8 ≤ 15 by decide) (show 15 < 32 by decide) (.inr (.inl (show 2 < 8 by decide))),
        State.queueShown_queued, hlength]
      omega
    · rw [State.setFld_mem, State.queueShown_mem, ← hx]
      rfl
    · rw [State.page_setFld, State.page_of_hdr (x.queueShown_hdr n), ← hx]
      exact b.wrote_lastWriter _ _
  · intro a hw hi hp
    refine ⟨fun m hm => ?_, fun x hk ht hf => ?_, fun m rest hk ht hq => ?_⟩
    · rw [hstart, State.dlStart_idle hw hi hp, hm]
    · refine ⟨(a.dropTrim n).putOnWire n 0x10 (leBytes 4 (unsigned 32 x)), ?_, ?_⟩
      · rw [hstart, State.dlStart_idle hw hi hp, hk, if_neg hf, ht]
      · simp only [State.putOnWire, State.dropTrim, State.lane_updLane, State.updLane_regs, State.updLane_hdr, State.updLane_mem, Lane.send, and_self]
    · have hnext := State.dlStart_message hw hi hp hk ht hq
      refine ⟨fun h1 h2 => ?_, fun h => ⟨(a.updLane n (Lane.sendsNext a.cycles m rest)).queueShown n, ?_, ?_⟩⟩
      · rw [hstart, hnext, if_pos (by simp [h1, h2])]
      · rw [hstart, hnext, if_neg (by obtain h | h := h <;> simp [h])]
      · obtain ⟨hqueue, -, hwire⟩ := (a.updLane n (Lane.sendsNext a.cycles m rest)).messages_queueShown n
        have hshown := (a.updLane n (Lane.sendsNext a.cycles m rest)).queueShown_queued n
        rw [State.lane_updLane] at hqueue hwire hshown
        exact ⟨hwire, hqueue, hshown, State.queueShown_mem _ n, State.queueShown_hdr _ n⟩
  · intro a m hw ht hj hk
    obtain ⟨hmem, hhdr, hfld⟩ := (a.messageSent n).resultShown_leaves n m
    have hlane := a.lane_messageSent n m
    refine ⟨_, hdone.trans (congrArg _ (State.dlDone_leaves hw ht hj hk)), ?_, ?_,
      (hfld _ (laneReg_ne (by decide))).trans (a.messageSent_counts hn), ?_, ?_, ?_⟩
    · rw [hlane]
      rfl
    · rw [hlane]
      rfl
    · rw [State.page_of_hdr hhdr]
      exact State.event_raised _ _ (by decide)
    · rw [hlane]
      rfl
    · exact hmem.trans (a.mem_messageSent n)
  · intro a m rest z hq hz hj ht hi
    have hwait := State.inhibitExpire_waits hq hz hj ht hi
    refine ⟨fun h => ⟨_, hexpire.trans (congrArg _ (hwait.trans (if_pos h))), ?_⟩, fun h => ?_⟩
    · obtain ⟨hresult, hcount, hevent, hmem⟩ := a.writeDropped_reads rest hn
      obtain ⟨hqueue, -⟩ := (a.writeDropped n rest).messages_queueShown n
      refine ⟨?_, (State.fld_queueShown _ n (.inr (show 2 < 16 by decide))).trans hresult,
        (State.fld_queueShown _ n (.inl (laneReg_ne (by decide)))).trans hcount, ?_, (State.queueShown_mem _ n).trans hmem⟩
      · rw [hqueue, State.lane_writeDropped]
        rfl
      · rw [State.page_of_hdr (State.queueShown_hdr _ n)]
        exact hevent
    · exact hexpire.trans (congrArg _ (hwait.trans (if_neg (Nat.not_le.mpr h))))

end Sys2Proof.Machine
end

section
/-! PROOFS. Keys of sites (R266 to R268). -/

namespace Sys2Proof.Machine

/-! ## The fields of a packed key (R268) -/

section PackedKey

variable {ix iy iz : Nat}

theorem packKey_lt (hx : ix < 2 ^ 12) (hy : iy < 2 ^ 12) (hz : iz < 2 ^ 8) : packKey ix iy iz < 2 ^ 32 := by
  unfold packKey
  omega

theorem keyX_packKey (hx : ix < 2 ^ 12) (hy : iy < 2 ^ 12) (hz : iz < 2 ^ 8) : keyX (packKey ix iy iz) = ix := by
  unfold keyX natBits packKey
  omega

theorem keyY_packKey (hy : iy < 2 ^ 12) (hz : iz < 2 ^ 8) : keyY (packKey ix iy iz) = iy := by
  unfold keyY natBits packKey
  omega

theorem keyZ_packKey (hz : iz < 2 ^ 8) : keyZ (packKey ix iy iz) = iz := by
  unfold keyZ natBits packKey
  omega

end PackedKey

/-! ## The indices of a site fit its key (R266, R267) -/

/-- The indices fit the fields of a packed key: 12 bits for x and y, 8 for z. -/
structure CellK.FitsKey (d : CellK) : Prop where
  ix_lt : d.ix < 2 ^ 12
  iy_lt : d.iy < 2 ^ 12
  iz_lt : d.iz < 2 ^ 8

/-- A cell of the grid of R266. -/
structure Cell0.InGrid (c : Cell0) : Prop where
  ix_lt : c.ix < 4096
  iy_lt : c.iy < 4096
  iz_lt : c.iz < 160

theorem Sep.inGrid_of_cell0 {q : Sep} {x y z : Int} {c : Cell0} (h : q.cell0 x y z = some c) : c.InGrid := by
  obtain ⟨⟨hx0, hx, hy0, hy, hz0, hz⟩, hc⟩ := Option.ite_none_right_eq_some.mp h
  cases hc
  exact ⟨(Int.toNat_lt hx0).mpr hx, (Int.toNat_lt hy0).mpr hy, (Int.toNat_lt hz0).mpr hz⟩

theorem Cell0.at_iz (c : Cell0) (k : Nat) : (c.at k).iz = if k < 2 then c.iz else if k = 2 then c.iz / 2 else 0 := rfl

/-- A coarser level divides an index and never raises it (Table 6-2). -/
theorem Cell0.at_le (c : Cell0) (k : Nat) : (c.at k).ix ≤ c.ix ∧ (c.at k).iy ≤ c.iy ∧ (c.at k).iz ≤ c.iz := by
  refine ⟨Nat.div_le_self _ _, Nat.div_le_self _ _, ?_⟩
  rw [Cell0.at_iz]
  split_ifs <;> omega

theorem Cell0.InGrid.fitsKey_at {c : Cell0} (hc : c.InGrid) (k : Nat) : (c.at k).FitsKey := by
  obtain ⟨hx, hy, hz⟩ := c.at_le k
  exact ⟨hx.trans_lt hc.ix_lt, hy.trans_lt hc.iy_lt, hz.trans_lt (hc.iz_lt.trans (by decide))⟩

/-- A site's packed key (R268). -/
def CellK.key (d : CellK) : Nat := packKey d.ix d.iy d.iz

namespace CellK.FitsKey

variable {d d' : CellK}

theorem key_lt (h : d.FitsKey) : d.key < 2 ^ 32 := packKey_lt h.ix_lt h.iy_lt h.iz_lt

theorem keyX_key (h : d.FitsKey) : keyX d.key = d.ix := keyX_packKey h.ix_lt h.iy_lt h.iz_lt

theorem keyY_key (h : d.FitsKey) : keyY d.key = d.iy := keyY_packKey h.iy_lt h.iz_lt

theorem keyZ_key (h : d.FitsKey) : keyZ d.key = d.iz := keyZ_packKey h.iz_lt

theorem indices_of_key_eq (h : d.FitsKey) (h' : d'.FitsKey) (e : d'.key = d.key) : d'.ix = d.ix ∧ d'.iy = d.iy ∧ d'.iz = d.iz :=
  ⟨by rw [← h'.keyX_key, e, h.keyX_key], by rw [← h'.keyY_key, e, h.keyY_key], by rw [← h'.keyZ_key, e, h.keyZ_key]⟩

end CellK.FitsKey

/-- Settles O28: at every level the indices of a grid cell fit the key's fields, so the key decodes to them, and equal keys have equal
decodings. -/
theorem siteKeysNameCells : Obligations.SiteKeysNameCells := by
  intro q x y z c k hc _
  have hd : (c.at k).FitsKey := (Sep.inGrid_of_cell0 hc).fitsKey_at k
  refine ⟨hd.key_lt, hd.keyX_key, hd.keyY_key, hd.keyZ_key, fun x' y' z' c' hc' he => ?_⟩
  exact hd.indices_of_key_eq ((Sep.inGrid_of_cell0 hc').fitsKey_at k) he

end Sys2Proof.Machine
end

section
/-! PROOFS. Requests of Harvest: nothing but Harvest's stop reaches them as a frame or a read of memory ends in an error, and none is held
at a tile afterwards that was not before (R299, R322, R452, R453, R759). -/

namespace Sys2Proof.Machine
variable (s : State)

theorem State.hrv_of_inner {s t : State} (h : t.inner = s.inner) : t.hrv = s.hrv := (congrArg State.hrv h :)

/-- An operation that leaves Harvest's requests leaves them over a list. -/
@[simp] theorem State.foldl_hrv {α : Type} {f : State → α → State} (hf : ∀ s x, (f s x).hrv = s.hrv) (l : List α) :
    (l.foldl f s).hrv = s.hrv :=
  foldl_leaves State.hrv hf l s

/-! ### Registers, headers, events, errors -/

@[simp] theorem State.bumpBy_hrv (f : Field) (n : Nat) : (s.bumpBy f n).hrv = s.hrv := (rfl)
@[simp] theorem State.bump_hrv (f : Field) : (s.bump f).hrv = s.hrv := (rfl)
@[simp] theorem State.signal_hrv (fn v : Nat) : (s.signal fn v).hrv = s.hrv := hrv_of_inner (s.signal_inner fn v)
@[simp] theorem State.updPage_hrv (p : Nat) (f : PageHdr → PageHdr) : (s.updPage p f).hrv = s.hrv := hrv_of_inner (s.updPage_inner p f)
@[simp] theorem State.event_hrv (p b : Nat) : (s.event p b).hrv = s.hrv := hrv_of_inner (s.event_inner p b)
@[simp] theorem State.updCond_hrv (p : Nat) (f : Cond → Cond) : (s.updCond p f).hrv = s.hrv := hrv_of_inner (s.updCond_inner p f)
@[simp] theorem State.error_hrv (p code : Nat) (info : Word) : (s.error p code info).hrv = s.hrv := hrv_of_inner (s.error_inner p code info)
@[simp] theorem State.updTile_hrv (n : Nat) (f : Tile → Tile) : (s.updTile n f).hrv = s.hrv := (rfl)

/-! ### Frames, jobs and stages that stop -/

@[simp] theorem State.jobDone_hrv (c r : Nat) (j : Job) (code crc : Nat) : (s.jobDone c r j code crc).hrv = s.hrv :=
  hrv_of_inner (s.jobDone_inner c r j code crc)

@[simp] theorem State.jobAborted_hrv (c r : Nat) (j : Job) (code : Nat) : (s.jobAborted c r j code).hrv = s.hrv :=
  hrv_of_inner (s.writeStatus_inner c j 4 code 0)

@[simp] theorem State.abortFollowers_hrv (n code : Nat) : (s.abortFollowers n code).hrv = s.hrv := by
  simp [State.abortFollowers]

@[simp] theorem State.endWaiters_hrv (n code : Nat) (aborted : Bool) : (s.endWaiters n code aborted).hrv = s.hrv := by
  cases aborted <;> simp [State.endWaiters]

@[simp] theorem State.pokeByte_hrv (o : Bool) (d : Nat) (b : Byte) : (s.pokeByte o d b).hrv = s.hrv := by
  unfold State.pokeByte
  split
  case h_3 => split_ifs <;> rfl
  all_goals rfl

@[simp] theorem State.poke_hrv (o : Bool) (d : Nat) (bs : List Byte) : (s.poke o d bs).hrv = s.hrv := by
  induction bs generalizing s d with
  | nil => rfl
  | cons b t ih => simp [State.poke, ih]

@[simp] theorem State.scramble_hrv (o : Bool) (d n : Nat) : (s.scramble o d n).hrv = s.hrv := by
  simp [State.scramble]

@[simp] theorem State.setBank_hrv (b : Nat) (k : Bank) : (s.setBank b k).hrv = s.hrv := by
  unfold State.setBank
  split_ifs <;> rfl

@[simp] theorem State.freeBank_hrv (b : Option Nat) : (s.freeBank b).hrv = s.hrv := by
  cases b <;> simp [State.freeBank]

@[simp] theorem State.freeFrameBanks_hrv (f : Frame) : (s.freeFrameBanks f).hrv = s.hrv := by
  simp [State.freeFrameBanks]

@[simp] theorem State.abandonOp_hrv (r : RunStage) (x : OpRun) : (s.abandonOp r x).hrv = s.hrv := by
  simp [State.abandonOp]

@[simp] theorem State.releaseTile_hrv (n : Nat) : (s.releaseTile n).hrv = s.hrv := by
  simp [State.releaseTile]

@[simp] theorem State.stopTiles_hrv (r : RunStage) : (s.stopTiles r).hrv = s.hrv := by
  simp [State.stopTiles]

@[simp] theorem State.stopBev_hrv (r : RunStage) : (s.stopBev r).hrv = s.hrv := by
  simp [State.stopBev, apply_ite State.hrv]

@[simp] theorem State.stopEtuJob_hrv (r : RunStage) (code : Nat) : (s.stopEtuJob r code).hrv = s.hrv := by
  unfold State.stopEtuJob State.etuLastErr
  dsimp only
  split_ifs
  · rfl
  · split
    · simp
    · split_ifs <;> simp

/-- Harvest that stops drops what is held at tiles (R322). -/
theorem State.stopHarvest_held (code : Nat) : (s.stopHarvest code).hrv.held = [] := (rfl)

theorem State.stopStages_held (code : Nat) : (s.stopStages code).hrv.held = [] := by
  simp [State.stopStages, State.stopRemote, State.stopAgents, State.stopHarvest_held]

@[simp] theorem State.dropPoints_hrv (n : Nat) : (s.dropPoints n).hrv = s.hrv := (rfl)

@[simp] theorem State.dropClosing_hrv : s.dropClosing.hrv = s.hrv := by
  unfold State.dropClosing
  split <;> simp

@[simp] theorem State.dropIngest_hrv : s.dropIngest.hrv = s.hrv := by
  unfold State.dropIngest
  split <;> simp

@[simp] theorem State.dropWaiting_hrv (code : Nat) : (s.dropWaiting code).hrv = s.hrv := by
  unfold State.dropWaiting
  dsimp only
  split <;> split <;> simp

@[simp] theorem State.emptySlot_hrv (b : Nat) : (s.emptySlot b).hrv = s.hrv := by
  simp [State.emptySlot, State.setSlot, State.showPlan, apply_ite State.hrv]

@[simp] theorem State.afterFrame_hrv : s.afterFrame.hrv = s.hrv := by
  have h := State.foldl_hrv s (f := fun (s : State) b => if bitOf s.rst.emptyAfter b then s.emptySlot b else s)
    (fun s b => by simp [apply_ite State.hrv]) (List.range 2)
  unfold State.afterFrame
  dsimp only
  split <;> split_ifs <;> simpa using h

@[simp] theorem State.raiseCause_hrv (n : Nat) : (s.raiseCause n).hrv = s.hrv := by
  simp [State.raiseCause, apply_ite State.hrv]

@[simp] theorem State.takePins_hrv (pins : List Nat) : (s.takePins pins).hrv = s.hrv := by
  unfold State.takePins
  dsimp only
  split
  · rfl
  · simp [apply_ite State.hrv]

@[simp] theorem State.signalVfs_hrv (v : Nat) : (s.signalVfs v).hrv = s.hrv := by
  simp [State.signalVfs]

@[simp] theorem State.firstCause_hrv (n code : Nat) : (s.firstCause n code).hrv = s.hrv := by
  simp [State.firstCause, apply_ite State.hrv]

/-- The power of CORE removed, no request is left (R722). -/
theorem State.fabricClear_hrv : s.fabricClear.hrv = {} := by
  unfold State.fabricClear
  extract_lets _ _ _ s1 s2 s3 s4 s5 s6 s7
  have h6 : s6.hrv = {} := by simp [s6, s5, s4, s3, s2, s1]
  have h7 : s7.hrv = s6.hrv := by
    unfold s7
    split_ifs
    · exact State.foldl_hrv s6 (fun s p => s.updPage_hrv p _) _
    · rfl
  refine (State.foldl_hrv s7 (fun s n => ?_) _).trans (h7.trans h6)
  rw [State.updPage_hrv, State.setFld_hrv, State.updTile_hrv]

/-! ### Nothing is held at a tile that was not before -/

variable {s}

@[simp] theorem State.dropCompute_held (h : s.hrv.held = []) (code : Nat) : (s.dropCompute code).hrv.held = [] := by
  unfold State.dropCompute
  split
  · exact h
  · simp [State.freeSets, State.noSets, State.stopStages_held]

@[simp] theorem State.sentryStop_held (h : s.hrv.held = []) : s.sentryStop.hrv.held = [] := by
  unfold State.sentryStop
  split_ifs
  · exact h
  · simp [State.setCell, State.fabricClear_hrv]

@[simp] theorem State.enterSafe_held (h : s.hrv.held = []) (n code : Nat) : (s.enterSafe n code).hrv.held = [] := by
  simp [State.enterSafe, State.lifeSafe, apply_ite State.hrv, h]

@[simp] theorem State.latch_held (h : s.hrv.held = []) (n code : Nat) : (s.latch n code).hrv.held = [] := by
  unfold State.latch
  dsimp only
  split_ifs <;> simp [h]

@[simp] theorem State.pageFault_held (h : s.hrv.held = []) (p code : Nat) : (s.pageFault p code).hrv.held = [] := by
  unfold State.pageFault
  dsimp only
  split_ifs <;> simp [h]

/-! ### Reads of the memories, and the errors they meet -/

@[simp] theorem State.dramUeNoted_held (h : s.hrv.held = []) (c a d : Nat) : (s.dramUeNoted c a d).hrv.held = [] := by
  unfold State.dramUeNoted
  dsimp only
  split_ifs <;> simp [State.sepFault, h]

@[simp] theorem State.dramCe_held (h : s.hrv.held = []) (c : Nat) : (s.dramCe c).hrv.held = [] := by
  simp [State.dramCe, h]

@[simp] theorem State.cellarUe_held (h : s.hrv.held = []) (t off : Nat) : (s.cellarUe t off).hrv.held = [] := by
  unfold State.cellarUe
  dsimp only
  split_ifs <;> simp [State.sepFault, State.scvFault, h]

@[simp] theorem State.lineUe_held (h : s.hrv.held = []) (c p d : Nat) : (s.lineUe c p d).hrv.held = [] := by
  have hl : ∀ (t : State) (a : Nat), (t.poisonLine c a).hrv = t.hrv := fun _ _ => rfl
  unfold State.lineUe
  dsimp only
  split_ifs <;> simp [hl, h]

@[simp] theorem State.mendUnit_hrv (s : State) (cellar : Bool) (u : Nat) : (s.mendUnit cellar u).hrv = s.hrv := by
  simp [State.mendUnit, apply_ite State.hrv]

@[simp] theorem State.meetPhys_held (h : s.hrv.held = []) (c p d : Nat) : (s.meetPhys c p d).2.hrv.held = [] := by
  unfold State.meetPhys
  split <;> simp [h]

@[simp] theorem State.meetLine_held (h : s.hrv.held = []) (c a d : Nat) : (s.meetLine c a d).2.hrv.held = [] := by
  unfold State.meetLine
  split_ifs <;> simp [h]

@[simp] theorem State.meetWord_held (h : s.hrv.held = []) (t off : Nat) : (s.meetWord t off).2.hrv.held = [] := by
  unfold State.meetWord
  dsimp only
  split <;> simp [h]

@[simp] theorem State.takeInjection_hrv (s : State) (target inst : Nat) : (s.takeInjection target inst).2.hrv = s.hrv := by
  unfold State.takeInjection
  split_ifs <;> rfl

@[simp] theorem State.readUnit_held (h : s.hrv.held = []) (d : Nat) : (s.readUnit d).2.hrv.held = [] := by
  unfold State.readUnit
  dsimp only
  split
  case h_1 => split_ifs <;> simp [h]
  case h_2 => split_ifs <;> simp [h]
  case h_4 => split_ifs <;> simp [h]
  all_goals exact h

@[simp] theorem State.flushRange_hrv (s : State) (d n : Nat) : (s.flushRange d n).hrv = s.hrv := by
  unfold State.flushRange
  split_ifs
  · rfl
  · refine State.foldl_hrv s (fun s i => ?_) _
    split <;> rfl

/-- What holds of a state and is kept by each step of a fold over answers and states holds of its end. -/
theorem foldl_snd_keeps {α β : Type} {P : State → Prop} {f : β × State → α → β × State} (hf : ∀ r x, P r.2 → P (f r x).2)
    (l : List α) (r : β × State) (h : P r.2) : P (l.foldl f r).2 := by
  induction l generalizing r with
  | nil => exact h
  | cons x t ih => exact ih (f r x) (hf r x h)

@[simp] theorem State.localFetch_held (h : s.hrv.held = []) (d n : Nat) : (s.localFetch d n).2.hrv.held = [] := by
  simp only [State.localFetch, State.flushRange_hrv]
  unfold State.readUnits
  split_ifs
  · exact h
  · refine foldl_snd_keeps (P := fun t => t.hrv.held = []) (fun r x hr => ?_) _ (false, s) h
    exact State.readUnit_held hr _

@[simp] theorem State.fetchPiece_held {r : Bool × State} (h : r.2.hrv.held = []) (x : Nat × Nat) : (State.fetchPiece r x).2.hrv.held = [] := by
  unfold State.fetchPiece
  dsimp only
  split_ifs
  · simp [h]
  · exact h
  · split <;> simp [State.denied, h]
  · exact h
  · simp [h]

/-- A read leaves no request held at a tile where none was, though an error it meets may stop Harvest (R322, R452). -/
@[simp] theorem State.fetch_held (h : s.hrv.held = []) (d n : Nat) : (s.fetch d n).2.hrv.held = [] := by
  have hl := State.localFetch_held h d (min n (0x800000000000 - d))
  unfold State.fetch
  dsimp only
  split_ifs
  · exact hl
  · exact foldl_snd_keeps (P := fun t => t.hrv.held = []) (fun r x hr => State.fetchPiece_held hr x) _ _ hl

end Sys2Proof.Machine
end

section
/-! PROOFS. What a row selects: the order of keys, the K best, and the bucket at the threshold (R305 to R308). -/

namespace Sys2Proof.Machine

/-! ### Keys best first (R305, R306) -/

/-- Keys in an order that no key disturbs by a better rank than one before it. -/
def BestFirst (l : List Key) : Prop := l.Pairwise (fun x y => y.rank ≤ x.rank)

theorem rank_le_of_keyBefore {v : Nat} {a b : Key} (h : keyBefore v a b = true) : b.rank ≤ a.rank := by
  simp only [keyBefore, Bool.or_eq_true, Bool.and_eq_true, Nat.blt_eq, beq_iff_eq] at h
  omega

theorem rank_le_of_not_keyBefore {v : Nat} {a b : Key} (h : ¬ keyBefore v a b = true) : a.rank ≤ b.rank := by
  simp only [keyBefore, Bool.or_eq_true, Nat.blt_eq, not_or] at h
  omega

theorem keyInsert_perm (v : Nat) (a : Key) (l : List Key) : (keyInsert v a l).Perm (a :: l) := by
  induction l with
  | nil => rfl
  | cons b t ih =>
    unfold keyInsert
    split
    · rfl
    · exact (ih.cons b).trans (.swap a b t)

theorem keyInsert_bestFirst (v : Nat) (a : Key) {l : List Key} (h : BestFirst l) : BestFirst (keyInsert v a l) := by
  induction l with
  | nil => exact List.pairwise_singleton _ _
  | cons b t ih =>
    obtain ⟨hb, ht⟩ := List.pairwise_cons.mp h
    unfold keyInsert
    split
    · next hab =>
      have ha := rank_le_of_keyBefore hab
      exact List.pairwise_cons.mpr ⟨List.forall_mem_cons.mpr ⟨ha, fun y hy => (hb y hy).trans ha⟩, h⟩
    · next hab =>
      refine List.pairwise_cons.mpr ⟨fun y hy => ?_, ih ht⟩
      rcases List.mem_cons.mp ((keyInsert_perm v a t).mem_iff.mp hy) with rfl | hy
      · exact rank_le_of_not_keyBefore hab
      · exact hb y hy

theorem foldl_keyInsert (v : Nat) (l acc : List Key) (h : BestFirst acc) :
    (l.foldl (fun (acc : List Key) a => keyInsert v a acc) acc).Perm (acc ++ l) ∧
      BestFirst (l.foldl (fun (acc : List Key) a => keyInsert v a acc) acc) := by
  induction l generalizing acc with
  | nil => exact ⟨by simp, h⟩
  | cons a t ih =>
    obtain ⟨hp, hs⟩ := ih _ (keyInsert_bestFirst v a h)
    refine ⟨hp.trans ?_, hs⟩
    exact ((keyInsert_perm v a acc).append_right t).trans List.perm_middle.symm

theorem keySort_perm (v : Nat) (l : List Key) : (keySort v l).Perm l := (foldl_keyInsert v l [] .nil).1

theorem keySort_bestFirst (v : Nat) (l : List Key) : BestFirst (keySort v l) := (foldl_keyInsert v l [] .nil).2

/-- The first K keys best first: none of those left out is better than one of them, whatever order the free value gives equal keys. -/
theorem keySort_take (v k : Nat) (l : List Key) :
    ((keySort v l).take k).length = min k l.length ∧ (∀ x ∈ (keySort v l).take k, x ∈ l) ∧ BestFirst ((keySort v l).take k) ∧
      ∀ x ∈ l, x ∉ (keySort v l).take k → ∀ y ∈ (keySort v l).take k, x.rank ≤ y.rank := by
  have hm : ∀ x, x ∈ keySort v l ↔ x ∈ l := fun x => (keySort_perm v l).mem_iff
  have hs := keySort_bestFirst v l
  refine ⟨by rw [List.length_take, (keySort_perm v l).length_eq], fun x hx => (hm x).mp (List.mem_of_mem_take hx),
    hs.sublist (List.take_sublist ..), fun x hx hn y hy => ?_⟩
  have hx' := (hm x).mpr hx
  rw [BestFirst, ← List.take_append_drop k (keySort v l)] at hs
  rw [← List.take_append_drop k (keySort v l)] at hx'
  exact (List.pairwise_append.mp hs).2.2 y hy x ((List.mem_append.mp hx').resolve_left hn)

/-! ### The bucket at the threshold (R307) -/

/-- Keys of a better bucket than `t`, and keys of bucket `t`: A and c_t of R307. -/
def keysAbove (l : List Key) (t : Nat) : Nat := (l.filter (fun x => Nat.blt t (bucketOf x.rank))).length
def keysAt (l : List Key) (t : Nat) : Nat := (l.filter (fun x => bucketOf x.rank == t)).length

theorem keysAbove_zero_add_keysAt (l : List Key) : keysAbove l 0 + keysAt l 0 = l.length := by
  simp only [keysAbove, keysAt, ← List.countP_eq_length_filter]
  rw [List.length_eq_countP_add_countP (fun x => Nat.blt 0 (bucketOf x.rank)), Nat.add_left_cancel_iff]
  refine List.countP_congr fun x _ => ?_
  simp

theorem keysAbove_succ_add_keysAt (l : List Key) (t : Nat) : keysAbove l (t + 1) + keysAt l (t + 1) = keysAbove l t := by
  induction l with
  | nil => rfl
  | cons x l ih =>
    simp only [keysAbove, keysAt, ← List.countP_eq_length_filter, List.countP_cons, Nat.blt_eq, beq_iff_eq] at ih ⊢
    split_ifs <;> omega

/-- With K keys to be had, one bucket holds the K-th best: fewer than K keys are better than it, and with its own they are K or more. -/
theorem exists_thresholdBucket {l : List Key} {k : Nat} (h1 : 1 ≤ k) (hk : k ≤ l.length) :
    ∃ t ∈ (l.map (fun x => bucketOf x.rank)).dedup, keysAbove l t < k ∧ k ≤ keysAbove l t + keysAt l t := by
  have hex : ∃ t, keysAbove l t < k := by
    refine ⟨(l.map (fun x => bucketOf x.rank)).sum, ?_⟩
    have hz : keysAbove l (l.map (fun x => bucketOf x.rank)).sum = 0 := by
      simp only [keysAbove, List.length_eq_zero_iff, List.filter_eq_nil_iff, Nat.blt_eq, Nat.not_lt]
      exact fun x hx => List.le_sum_of_mem (List.mem_map_of_mem hx)
    omega
  have hlt := Nat.find_spec hex
  have hge : k ≤ keysAbove l (Nat.find hex) + keysAt l (Nat.find hex) := by
    cases ht : Nat.find hex with
    | zero => rw [keysAbove_zero_add_keysAt]; exact hk
    | succ t =>
      rw [keysAbove_succ_add_keysAt]
      exact Nat.not_lt.mp (Nat.find_min hex (by omega))
  refine ⟨Nat.find hex, ?_, hlt, hge⟩
  have hpos : 0 < keysAt l (Nat.find hex) := by omega
  obtain ⟨x, hx⟩ := List.exists_mem_of_length_pos hpos
  obtain ⟨hxl, hxt⟩ := List.mem_filter.mp hx
  exact List.mem_dedup.mpr (List.mem_map.mpr ⟨x, hxl, beq_iff_eq.mp hxt⟩)

theorem pickBuckets_spec (v : Nat) {k : Nat} {l : List Key} (h1 : 1 ≤ k) (hk : k ≤ l.length) :
    let p := pickBuckets v k l
    p.above = keysAbove l p.thr ∧ p.above < k ∧ k ≤ p.above + p.atThr := by
  have hthr : (pickBuckets v k l).thr = ((l.map (fun x => bucketOf x.rank)).dedup.find? (fun t =>
      Nat.blt (keysAbove l t) k && Nat.ble k (keysAbove l t + keysAt l t))).getD 0 := if_neg (Nat.not_lt.mpr hk)
  have habove : (pickBuckets v k l).above = keysAbove l (pickBuckets v k l).thr := rfl
  have hat : (pickBuckets v k l).atThr = keysAt l (pickBuckets v k l).thr := rfl
  dsimp only
  obtain ⟨t, ht, hp⟩ := exists_thresholdBucket h1 hk
  cases hf : (l.map (fun x => bucketOf x.rank)).dedup.find? (fun t => Nat.blt (keysAbove l t) k && Nat.ble k (keysAbove l t + keysAt l t)) with
  | none =>
    refine absurd hp ?_
    simpa using List.find?_eq_none.mp hf t ht
  | some u =>
    have hu := List.find?_some hf
    rw [hf, Option.getD_some] at hthr
    rw [habove, hat, hthr]
    simpa using hu

end Sys2Proof.Machine
end

section
/-! PROOFS. A Harvest request is served and completes (R298 to R301, R322, R326, R328), and O34. -/

namespace Sys2Proof.Machine

/-! ### The queue and the requests held at tiles (R299) -/

section
variable (s : State)

/-- A request enters the queue; the bytes and what else Harvest holds stay. -/
theorem State.hrvEnqueue_leaves (q : HrvReq) : (s.hrvEnqueue q).hrv = { s.hrv with queue := hrvInsert { q with at_ := s.cycles } s.hrv.queue } ∧
    (s.hrvEnqueue q).tiles = s.tiles ∧ (s.hrvEnqueue q).byteSource = s.byteSource := by
  unfold State.hrvEnqueue
  dsimp only
  split_ifs
  · exact ⟨rfl, rfl, State.byteSource_setFld _ _ _ (by decide)⟩
  · exact ⟨rfl, rfl, rfl⟩

theorem State.hrvAdmit_none (h : s.hrv.held = []) : s.hrvAdmit = s := by
  rw [State.hrvAdmit, h]

theorem State.hrvAdmit_leaves : s.hrvAdmit.hrv.service = s.hrv.service ∧ s.hrvAdmit.byteSource = s.byteSource := by
  unfold State.hrvAdmit
  split
  · exact ⟨rfl, rfl⟩
  · next q t _ =>
    split_ifs
    · obtain ⟨hh, -, hb⟩ := (s.updHrv (fun h => { h with held := t })).hrvEnqueue_leaves q
      exact ⟨(congrArg Hrv.service hh :), hb⟩
    · exact ⟨rfl, rfl⟩

/-- The request at the head enters service as `r`, and the entry it frees takes the oldest request held at a tile. -/
def State.hrvEnter (rest : List HrvReq) (r : HrvRun) : State :=
  ((s.updHrv (fun h => { h with queue := rest, service := some r })).hrvAdmit).updCond 0x050 (fun c => { c with running := true })

theorem State.hrvEnter_spec (rest : List HrvReq) (r : HrvRun) : (s.hrvEnter rest r).hrv.service = some r ∧
    ((s.hrvEnter rest r).page 0x050).cond.running = true ∧ (s.hrv.held = [] → (s.hrvEnter rest r).hrv.queue = rest) ∧
      (s.hrvEnter rest r).byteSource = s.byteSource := by
  obtain ⟨hs, hb⟩ := (s.updHrv (fun h => { h with queue := rest, service := some r })).hrvAdmit_leaves
  unfold State.hrvEnter
  refine ⟨by rw [State.updCond_hrv, hs, State.updHrv_hrv], ?_, fun hn => ?_, by rw [State.byteSource_updCond, hb]; rfl⟩
  · exact congrArg Cond.running (State.cond_updCond _ _ 0x050)
  · have hn' : (s.updHrv (fun h => { h with queue := rest, service := some r })).hrv.held = [] := hn
    rw [State.updCond_hrv, State.hrvAdmit_none _ hn', State.updHrv_hrv]

end

/-! ### The row that a request's code names (R326) -/

/-- The first row with a STATUS that `bad` names. -/
def firstRow (rows : List HrvRow) (bad : Nat → Bool) : Option Nat :=
  (List.range rows.length).find? (fun i => bad (rows.getD i ⟨0, 0, []⟩).status)

/-- The row that a served request's code names: the first with HRV_KEY_ERROR, else the first with a STATUS. -/
def servedRow (rows : List HrvRow) : Option Nat :=
  match firstRow rows (· == 0x5012) with
  | some i => some i
  | none => firstRow rows (· != 0)

/-- The code of a request whose rows are these. -/
def servedCode (rows : List HrvRow) : Nat :=
  match servedRow rows with
  | some i => (rows.getD i ⟨0, 0, []⟩).status
  | none => 0

section
variable {rows : List HrvRow} {bad : Nat → Bool} {i : Nat}

theorem firstRow_some (h : firstRow rows bad = some i) :
    rows.getD i ⟨0, 0, []⟩ ∈ rows ∧ bad (rows.getD i ⟨0, 0, []⟩).status = true := by
  have hi : i < rows.length := List.mem_range.mp (List.mem_of_find?_eq_some h)
  refine ⟨?_, List.find?_some (p := fun i => bad (rows.getD i ⟨0, 0, []⟩).status) h⟩
  rw [List.getD_eq_getElem _ _ hi]
  exact List.getElem_mem hi

theorem firstRow_none (h : firstRow rows bad = none) : ∀ y ∈ rows, bad y.status = false := by
  intro y hy
  obtain ⟨i, hi, rfl⟩ := List.getElem_of_mem hy
  have hn := List.find?_eq_none.mp h i (List.mem_range.mpr hi)
  rwa [List.getD_eq_getElem _ _ hi, Bool.not_eq_true] at hn

theorem servedRow_some (h : servedRow rows = some i) :
    rows.getD i ⟨0, 0, []⟩ ∈ rows ∧ (rows.getD i ⟨0, 0, []⟩).status ≠ 0 := by
  unfold servedRow at h
  split at h
  · next j hj =>
    obtain ⟨hm, hb⟩ := firstRow_some (hj.trans h)
    exact ⟨hm, by rw [beq_iff_eq.mp hb]; decide⟩
  · obtain ⟨hm, hb⟩ := firstRow_some h
    exact ⟨hm, bne_iff_ne.mp hb⟩

/-- A code that is not 0 is the STATUS of a row. -/
theorem servedCode_mem (h : servedCode rows ≠ 0) : ∃ y ∈ rows, y.status = servedCode rows := by
  unfold servedCode at h ⊢
  split
  · next i hi => exact ⟨_, (servedRow_some hi).1, rfl⟩
  · next hn => rw [hn] at h; exact absurd rfl h

theorem servedCode_clean (h : ∀ y ∈ rows, y.status = 0) : servedCode rows = 0 := by
  by_contra hc
  obtain ⟨y, hy, he⟩ := servedCode_mem hc
  exact hc (he ▸ h y hy)

/-- HRV_KEY_ERROR of any row goes before every other STATUS. -/
theorem servedCode_keyError (h : ∃ y ∈ rows, y.status = 0x5012) : servedCode rows = 0x5012 := by
  obtain ⟨y, hy, he⟩ := h
  cases hf : firstRow rows (· == 0x5012) with
  | none => exact absurd (firstRow_none hf y hy) (by simp [he])
  | some i =>
    have hr : servedRow rows = some i := by rw [servedRow, hf]
    rw [servedCode, hr]
    exact beq_iff_eq.mp (firstRow_some hf).2

end

theorem State.hrvRows_length (s : State) (q : HrvReq) (d : HrvDesc) (l : List Nat) : (s.hrvRows q d l).1.1.length = l.length := by
  induction l generalizing s with
  | nil => rfl
  | cons r t ih => exact congrArg (· + 1) (ih _)

/-! ### What the head of the queue meets (R298, R300, R328) -/

/-- Why a request is rejected by what is read of its descriptor: a read that fails, POISON, or the first field that fails. -/
def hrvReject (f : Rd) : Option Nat :=
  if f.code ≠ 0 then some f.code else if f.poison then some 0x5012 else (hrvFault f.bytes).map (·.2)

/-- What Harvest reads at a request's descriptor, and the descriptor it takes from it. -/
def State.hrvRead (s : State) (q : HrvReq) : Rd × State := (s.asAgent .hrv).fetch q.desc 64
def State.hrvReadDesc (s : State) (q : HrvReq) : HrvDesc := hrvDesc (s.hrvRead q).1.bytes

section
variable {s : State} {op : Nat} {q : HrvReq} {rest : List HrvReq}

theorem State.hrvServe_busy {r : HrvRun} (h : s.hrv.service = some r) (op : Nat) : s.hrvServe op = s := by
  rw [State.hrvServe, h]

theorem State.hrvServe_empty (h : s.hrv.queue = []) (op : Nat) : s.hrvServe op = s := by
  rw [State.hrvServe, h]
  cases s.hrv.service <;> rfl

variable (hs : s.hrv.service = none) (hq : s.hrv.queue = q :: rest) (he : (s.page 0x050).enable = true) (hw : s.mayWork 0x050 = true)
  (hf : (s.page 0x050).cond.fault = false)
include hs hq he hw hf

theorem State.hrvServe_rejected (op : Nat) {code : Nat} (hc : hrvReject (s.hrvRead q).1 = some code) : s.hrvServe op
    = (s.hrvRead q).2.hrvEnter rest { req := q, op := (s.hrvReadDesc q).op, code := code, rejected := true } := by
  unfold hrvReject State.hrvRead at hc
  unfold State.hrvServe
  simp only [hs, hq, he, hw, hf, hc, Bool.true_eq_false, Bool.false_eq_true, false_and, or_self, if_false]
  rfl

theorem State.hrvServe_served (hc : hrvReject (s.hrvRead q).1 = none) (ho : (s.hrvReadDesc q).op = op) (hk : (s.hrvReadDesc q).payKind ≠ 2)
    {x : (List HrvRow × Bool) × State} (hx : (s.hrvRead q).2.hrvRows q (s.hrvReadDesc q) (List.range (s.hrvReadDesc q).rowCount) = x)
    (ha : x.1.2 = false) (hm : x.2.grf.miss = false) : s.hrvServe op = (x.2.dropReads .hrv).hrvEnter rest
      { req := q, op := op, code := servedCode x.1.1, row := (servedRow x.1.1).getD 0, rows := x.1.1 } := by
  have hg : ¬((s.hrvReadDesc q).op ≠ op ∨ (s.hrvReadDesc q).payKind = 2 ∧ (s.table (s.hrvReadDesc q).table).state = 3) := by
    rintro (h | ⟨h, -⟩)
    · exact h ho
    · exact hk h
  unfold State.hrvReadDesc State.hrvRead at hg hx
  unfold hrvReject State.hrvRead at hc
  unfold State.hrvServe
  simp only [hs, hq, he, hw, hf, hc, Bool.true_eq_false, Bool.false_eq_true, false_and, or_self, if_false]
  rw [if_neg hg, hx]
  simp only [ha, hm, Bool.false_eq_true, if_false]
  rfl

end

/-! ### Completion (R301, R328) -/

section
variable (s : State)

/-- A completion is told in registers and an event alone. -/
theorem State.hrvCount_inner (q : HrvReq) (row code : Nat) : (s.hrvCount q row code).inner = s.inner := by
  simp [State.hrvCount, apply_ite State.inner]

/-- Every completed request counts. -/
theorem State.hrvCount_count (q : HrvReq) (row code : Nat) :
    (s.hrvCount q row code).fld F.HRV_REQ_CNT = min (2 ^ 32 - 1) (s.fld F.HRV_REQ_CNT + 1) := by
  have hb := s.fld_bump F.HRV_REQ_CNT (by decide) (by decide)
  unfold State.hrvCount
  dsimp only
  split_ifs
  · exact hb
  · rw [State.fld_event _ _ _ (by decide), State.fld_setFld_other _ _ (by decide), State.fld_setFld_other _ _ (by decide),
      State.fld_setFld_other _ _ (by decide), State.fld_setFld_other _ _ (by decide), State.bump, State.bumpBy,
      State.fld_setFld_other _ _ (by decide)]
    exact hb

/-- A request that ends with 0 is no error. -/
theorem State.hrvCount_good (q : HrvReq) (row : Nat) :
    (s.hrvCount q row 0).fld F.HRV_REQ_ERR_CNT = s.fld F.HRV_REQ_ERR_CNT :=
  s.fld_setFld_other _ (by decide)

/-- One that ends with an error is counted, named in LAST_ERR and raised. -/
theorem State.hrvCount_error (q : HrvReq) (row : Nat) {code : Nat} (h : code ≠ 0) :
    (s.hrvCount q row code).fld F.HRV_REQ_ERR_CNT = min (2 ^ 32 - 1) (s.fld F.HRV_REQ_ERR_CNT + 1) ∧
      (s.hrvCount q row code).fld F.HRV_LAST_ERR_CODE = code % 2 ^ 16 ∧
        ((s.hrvCount q row code).page 0x050).eventRaw.getLsbD 0 = true := by
  unfold State.hrvCount
  dsimp only
  rw [if_neg h, State.fld_event _ _ _ (by decide), State.fld_setFld_other _ _ (by decide), State.fld_setFld_other _ _ (by decide),
    State.fld_setFld_other _ _ (by decide), State.fld_setFld_other _ _ (by decide), State.fld_event _ _ _ (by decide),
    State.fld_setFld_other _ _ (by decide), State.fld_setFld_other _ _ (by decide), State.fld_setFld_apart _ _ (by decide) (by decide) (by decide),
    State.page_event]
  refine ⟨?_, State.fld_setFld_same _ _ _ (by decide) (by decide), by simp⟩
  rw [State.fld_bump _ _ (by decide) (by decide), State.bump, State.bumpBy, State.fld_setFld_other _ _ (by decide)]
  rfl

end

section
variable {s : State} {r : HrvRun}

theorem State.hrvDone_idle (h : s.hrv.service = none) : s.hrvDone = s := by
  rw [State.hrvDone, h]

/-- The writes of the request in service have left. -/
def State.hrvLeft (s : State) (r : HrvRun) : State := if r.issued then s.asAgent .hrv else (s.asAgent .hrv).hrvIssue r

theorem State.hrvDone_waits (h : s.hrv.service = some r) (hw : (s.hrvLeft r).awaits .hrv = true) : s.hrvDone = s.hrvLeft r := by
  rw [State.hrvDone, h]
  exact if_pos hw

/-- Without rows a request writes nothing: what leaves with it is its mark alone. -/
theorem State.hrvLeft_noRows (s : State) (h : r.rows = []) : ∃ f g, s.hrvLeft r = ((s.asAgent .hrv).updRun r.req.stage f).updHrv g ∧
    ∀ x, (g x).queue = x.queue := by
  by_cases hi : r.issued = true
  · refine ⟨id, id, ?_, fun _ => rfl⟩
    have hid : ∀ l : List RunStage, l.map (fun x => if x.stage = r.req.stage then id x else x) = l := fun l =>
      (List.map_congr_left fun x _ => ite_self x).trans (List.map_id l)
    rw [State.hrvLeft, if_pos hi, State.updRun, State.updFrm, State.updHrv]
    simp only [hid]
    rfl
  · rw [State.hrvLeft, if_neg hi, State.hrvIssue, h]
    exact ⟨_, _, rfl, fun _ => rfl⟩

/-- The end of a request of a stage that has no answer to await. -/
theorem State.hrvDone_ends (h : s.hrv.service = some r) (hw : (s.hrvLeft r).awaits .hrv = false) (ha : (s.hrvLeft r).answerCode .hrv = 0)
    (ht : r.req.tile = false) : s.hrvDone = ((((((s.hrvLeft r).updHrv (fun h => { h with service := none })).updCond 0x050 (fun c =>
      { c with running := false })).hrvCount r.req r.row r.code).stageCode r.req.stage r.code).updRun r.req.stage (fun x =>
        { x with unitDone := true })).dropAcks .hrv := by
  have hc : (if r.code = 0 then (s.hrvLeft r).answerCode .hrv else r.code) = r.code := by
    split_ifs with h0
    · rw [ha, h0]
    · rfl
  have hl : (if r.issued then s.asAgent .hrv else (s.asAgent .hrv).hrvIssue r) = s.hrvLeft r := rfl
  rw [State.hrvDone, h]
  dsimp only
  rw [hl, hw, hc]
  simp only [Bool.false_eq_true, if_false, State.hrvComplete, State.hrvSignal, ht]

/-- The end of a request without rows: Harvest is free, the count is one more, and an error is counted and named. -/
theorem State.hrvDone_noRows (h : s.hrv.service = some r) (hr : r.rows = []) (ht : r.req.tile = false) (hw : s.awaits .hrv = false)
    (ha : s.answerCode .hrv = 0) : s.hrvDone.hrv.service = none ∧ s.hrvDone.hrv.queue = s.hrv.queue ∧ s.hrvDone.mem = s.mem ∧
      s.hrvDone.fld F.HRV_REQ_CNT = min (2 ^ 32 - 1) (s.fld F.HRV_REQ_CNT + 1) ∧
      (r.code ≠ 0 → s.hrvDone.fld F.HRV_REQ_ERR_CNT = min (2 ^ 32 - 1) (s.fld F.HRV_REQ_ERR_CNT + 1) ∧
        s.hrvDone.fld F.HRV_LAST_ERR_CODE = r.code % 2 ^ 16 ∧ (s.hrvDone.page 0x050).eventRaw.getLsbD 0 = true) ∧
      (r.code = 0 → s.hrvDone.fld F.HRV_REQ_ERR_CNT = s.fld F.HRV_REQ_ERR_CNT) := by
  obtain ⟨f, g, hl, hg⟩ := s.hrvLeft_noRows hr
  have hwl : (s.hrvLeft r).awaits .hrv = false := by rw [hl]; exact hw
  have hal : (s.hrvLeft r).answerCode .hrv = 0 := by rw [hl]; exact ha
  have he := State.hrvDone_ends h hwl hal ht
  generalize hu : ((s.hrvLeft r).updHrv (fun h => { h with service := none })).updCond 0x050 (fun c => { c with running := false }) = u at he
  have hfld : ∀ x : Field, x.reg ≠ R.HIF_MSIX_PBA → u.fld x = s.fld x := fun x hx => by
    rw [← hu, State.fld_updCond _ _ _ hx, hl]
    rfl
  have hcount := u.hrvCount_count r.req r.row r.code
  have hgood : r.code = 0 → (u.hrvCount r.req r.row r.code).fld F.HRV_REQ_ERR_CNT = u.fld F.HRV_REQ_ERR_CNT := fun hc => by
    rw [hc, State.hrvCount_good]
  have herror := u.hrvCount_error r.req r.row (code := r.code)
  have hi := u.hrvCount_inner r.req r.row r.code
  generalize u.hrvCount r.req r.row r.code = w at he hcount hgood herror hi
  have hu' : u.inner = ((s.hrvLeft r).updHrv (fun h => { h with service := none })).inner := by rw [← hu, State.updCond_inner]
  have hhrv : w.hrv = { (s.hrvLeft r).hrv with service := none } := (congrArg State.hrv (hi.trans hu') :)
  have hmem : w.mem = (s.hrvLeft r).mem := (congrArg State.mem (hi.trans hu') :)
  rw [he]
  refine ⟨(congrArg Hrv.service hhrv :), (congrArg Hrv.queue hhrv :).trans ?_, hmem.trans ?_, hcount.trans ?_, fun hc => ?_, fun hc => ?_⟩
  · rw [hl]
    exact hg _
  · rw [hl]
    rfl
  · rw [hfld _ (by decide)]
  · obtain ⟨h1, h2, h3⟩ := herror hc
    exact ⟨h1.trans (by rw [hfld _ (by decide)]), h2, h3⟩
  · exact (hgood hc).trans (hfld _ (by decide))

end

/-- The four commands that serve a request of one operation. -/
theorem exec_harvest {s : State} {dt op : Nat} {c : Instr}
    (h : (op, c) ∈ [(0, .hrvArgmax dt), (1, .hrvTopkStream dt), (2, .hrvTopkBucket dt), (3, .hrvFpsStep dt)]) :
    exec c s = .next ((s.arrive dt).hrvServe op) := by
  simp only [List.mem_cons, Prod.mk.injEq, List.not_mem_nil, or_false] at h
  rcases h with ⟨rfl, rfl⟩ | ⟨rfl, rfl⟩ | ⟨rfl, rfl⟩ | ⟨rfl, rfl⟩ <;> rfl

/-- Settles O34: a service by what the head of the queue meets, a completion by what the request still awaits, and a selection by the
order of its keys. -/
theorem harvestServes : Obligations.HarvestServes := by
  refine ⟨?_, ?_, ?_⟩
  · intro s dt op c hc a
    have hx : exec c s = .next (a.hrvServe op) := exec_harvest hc
    refine ⟨fun r h => by rw [hx, State.hrvServe_busy h], fun h => by rw [hx, State.hrvServe_empty h], ?_⟩
    intro q rest hs hq he hw hf f d
    refine ⟨fun code hcode => ?_, ?_⟩
    · have hr := State.hrvServe_rejected hs hq he hw hf op (code := code) hcode
      obtain ⟨h1, h2, h3, h4⟩ := f.2.hrvEnter_spec rest { req := q, op := d.op, code := code, rejected := true }
      refine ⟨_, hx.trans (congrArg _ hr), h1, h2, fun hn => h3 ?_, fun hclean => State.sameBytes_of (h4.trans ?_)⟩
      · have hn' : (a.asAgent .hrv).hrv.held = [] := hn
        exact State.fetch_held hn' _ _
      · have hclean' : (a.asAgent .hrv).readsClean = true := hclean
        exact (congrArg Prod.fst (State.fetch_clean hclean' _ _) :)
    · intro hcode hpoison hfault hop hkind x
      have hrows : f.2.hrvRows q d (List.range d.rowCount) = x := rfl
      have hlen : x.1.1.length = d.rowCount := (State.hrvRows_length ..).trans List.length_range
      clear_value x
      intro haway hmiss
      have hnone : hrvReject f.1 = none := by simp [hrvReject, hcode, hpoison, hfault]
      have hr := State.hrvServe_served hs hq he hw hf hnone hop hkind hrows haway hmiss
      obtain ⟨h1, -⟩ := (x.2.dropReads .hrv).hrvEnter_spec rest
        { req := q, op := op, code := servedCode x.1.1, row := (servedRow x.1.1).getD 0, rows := x.1.1 }
      exact ⟨_, _, hx.trans (congrArg _ hr), h1, rfl, rfl, rfl, rfl, hlen, rfl, servedCode_clean, servedCode_mem, servedCode_keyError⟩
  · intro s dt a
    exact ⟨fun h => congrArg _ (State.hrvDone_idle h), fun r h hw => congrArg _ (State.hrvDone_waits h hw),
      fun r h hr ht hw ha => ⟨_, rfl, State.hrvDone_noRows h hr ht hw ha⟩⟩
  · intro d v l
    refine ⟨fun hd => ?_, fun hd h1 hk => ?_⟩
    · have hp : pickRow d v l = ⟨(keySort v l).take d.k, 0, 0, 0⟩ := by simp [pickRow, hd]
      rw [hp]
      exact keySort_take v d.k l
    · have hp : pickRow d v l = pickBuckets v d.k l := by simp [pickRow, hd]
      rw [hp]
      exact pickBuckets_spec v h1 hk

end Sys2Proof.Machine
end

section
/-! PROOFS. Where no error lies in wait, an access to memory leaves Harvest's requests and its ENABLE, and the op that each tile takes next
(R389, R413, R427, R535, R630). -/

namespace Sys2Proof.Machine

/-- What an access that meets no error does not reach: Harvest's requests and its ENABLE, the op that each tile takes next, the clock, and
what errors lie in wait. -/
def State.unreached (s : State) : Hrv × Bool × (Nat → Nat) × Nat × Saf × List Upset :=
  (s.hrv, s.hrvOn, fun n => (s.tile n).nextOp, s.cycles, s.saf, s.mem.upsets)

section
variable {s t : State} (h : t.unreached = s.unreached)
include h

theorem State.hrv_of_unreached : t.hrv = s.hrv := (congrArg Prod.fst h :)
theorem State.hrvOn_of_unreached : t.hrvOn = s.hrvOn := (congrArg (·.2.1) h :)
theorem State.nextOp_of_unreached (n : Nat) : (t.tile n).nextOp = (s.tile n).nextOp := (congrArg (·.2.2.1 n) h :)
theorem State.cycles_of_unreached : t.cycles = s.cycles := (congrArg (·.2.2.2.1) h :)
theorem State.upsets_of_unreached : t.mem.upsets = s.mem.upsets := (congrArg (·.2.2.2.2.2) h :)

theorem State.readsClean_of_unreached : t.readsClean = s.readsClean := by
  have hs : t.saf = s.saf := (congrArg (·.2.2.2.2.1) h :)
  rw [State.readsClean, hs, State.upsets_of_unreached h, State.readsClean]

end

variable (s : State)

@[simp] theorem State.foldl_unreached {α : Type} {f : State → α → State} (hf : ∀ s x, (f s x).unreached = s.unreached) (l : List α) :
    (l.foldl f s).unreached = s.unreached :=
  foldl_leaves State.unreached hf l s

/-! ### Updates of one part, registers, events, errors -/

theorem State.unreached_of_inner {s t : State} (h : t.inner = s.inner) (he : t.hrvOn = s.hrvOn) : t.unreached = s.unreached := by
  have hi : ∀ n, t.tile n = s.tile n := fun n => (congrArg (fun u : State => u.tile n) h :)
  simp only [State.unreached, he, hi, State.hrv_of_inner h, State.cycles_of_inner h, State.saf_of_inner h, State.mem_of_inner h]

@[simp] theorem State.updFrm_unreached (f : Frm → Frm) : (s.updFrm f).unreached = s.unreached := (rfl)
@[simp] theorem State.updRun_unreached (n : Nat) (f : RunStage → RunStage) : (s.updRun n f).unreached = s.unreached := (rfl)
@[simp] theorem State.updEtu_unreached (f : Etu → Etu) : (s.updEtu f).unreached = s.unreached := (rfl)
@[simp] theorem State.updGrf_unreached (f : Grf → Grf) : (s.updGrf f).unreached = s.unreached := (rfl)
@[simp] theorem State.updPort_unreached (n : Nat) (f : GrfPort → GrfPort) : (s.updPort n f).unreached = s.unreached := (rfl)
@[simp] theorem State.asAgent_unreached (a : Agent) : (s.asAgent a).unreached = s.unreached := (rfl)
@[simp] theorem State.drawFree_unreached : s.drawFree.unreached = s.unreached := (rfl)
@[simp] theorem State.setCell_unreached (k : Nat) (v : Word) : (s.setCell k v).unreached = s.unreached := (rfl)
@[simp] theorem State.setFld_unreached (f : Field) (v : Nat) : (s.setFld f v).unreached = s.unreached := (rfl)
@[simp] theorem State.bumpBy_unreached (f : Field) (n : Nat) : (s.bumpBy f n).unreached = s.unreached := (rfl)
@[simp] theorem State.bump_unreached (f : Field) : (s.bump f).unreached = s.unreached := (rfl)
@[simp] theorem State.noteRise_unreached (k : Nat) (m : Word) : (s.noteRise k m).unreached = s.unreached := (rfl)

@[simp] theorem State.updMem_unreached (f : MemState → MemState) (h : ∀ m : MemState, (f m).upsets = m.upsets) :
    (s.updMem f).unreached = s.unreached := by
  simp only [State.unreached, State.updMem_mem, h]
  rfl

@[simp] theorem State.event_unreached (p b : Nat) : (s.event p b).unreached = s.unreached := by
  refine State.unreached_of_inner (s.event_inner p b) ?_
  by_cases hp : 0x050 = p
  · rw [State.hrvOn, hp, State.page_event, ← hp, State.hrvOn]
  · rw [State.hrvOn, State.page_event_other _ _ _ hp, State.hrvOn]

@[simp] theorem State.error_unreached (p code : Nat) (info : Word) : (s.error p code info).unreached = s.unreached := by
  refine State.unreached_of_inner (s.error_inner p code info) ?_
  rw [State.hrvOn, State.page_error]
  split_ifs with hp
  · exact ((s.page p).take_control code info).2.1.trans (by rw [← hp, State.hrvOn])
  · rfl

/-! ### Requests to other nodes -/

@[simp] theorem State.sendPacket_unreached (n : Nat) (x : Nat × Packet) : (s.sendPacket n x).unreached = s.unreached := by
  simp [State.sendPacket, State.countTx, apply_ite State.unreached]

@[simp] theorem State.pumpPort_unreached (n f : Nat) : (State.pumpPort n f s).unreached = s.unreached := by
  induction f generalizing s with
  | zero => rfl
  | succ f ih =>
    unfold State.pumpPort
    split
    · split
      · split_ifs <;> simp [ih]
      · rfl
    · rfl

@[simp] theorem State.emit_unreached (arr : Option Nat) (d : Nat) (p : Packet) : (s.emit arr d p).unreached = s.unreached := by
  simp [State.emit, State.pump]

@[simp] theorem State.routeResp_unreached (arr : Option Nat) (p : Packet) : (s.routeResp arr p).unreached = s.unreached := by
  unfold State.routeResp
  split
  · rfl
  · simp [apply_ite State.unreached]

@[simp] theorem State.nodeLost_unreached (node cause : Nat) : (s.nodeLost node cause).unreached = s.unreached := by
  simp [State.nodeLost]

@[simp] theorem State.answer_unreached (x : GrfAns) : (s.answer x).unreached = s.unreached := by
  simp [State.answer, apply_ite State.unreached]

@[simp] theorem State.loseReq_unreached (q : GrfReq) (cause : Nat) : (s.loseReq q cause).unreached = s.unreached := by
  simp [State.loseReq, State.finishReq]

@[simp] theorem State.sendReq_unreached (q : GrfReq) : (s.sendReq q).unreached = s.unreached := by
  unfold State.sendReq
  dsimp only
  split
  · simp
  · split_ifs <;> simp

@[simp] theorem State.sendWrite_unreached (d : Nat) (bs : List Byte) : (s.sendWrite d bs).unreached = s.unreached := by
  simp [State.sendWrite, State.request, apply_ite State.unreached]

@[simp] theorem State.acked_unreached (code : Nat) : (s.acked code).unreached = s.unreached := by
  simp [State.acked, apply_ite State.unreached]

@[simp] theorem State.denied_unreached : s.denied.unreached = s.unreached := by
  simp [State.denied]

/-! ### The mailbox area -/

/-- A tile that is asked to wake has the same op to take. -/
@[simp] theorem State.wakeTile_unreached (n : Nat) : (s.wakeTile n).unreached = s.unreached := by
  unfold State.wakeTile
  split_ifs
  · have ht : ∀ m, ((s.updTile n (fun t => { t with wakeReq := true })).tile m).nextOp = (s.tile m).nextOp := fun m => by
      rw [State.tile_updTile]
      split_ifs with hm
      · rw [hm]
      · rfl
    simp only [State.unreached, ht]
    rfl
  · rfl

@[simp] theorem State.ring_unreached (r : Nat) (v : Word) : (s.ring r v).unreached = s.unreached := by
  simp [State.ring, State.signalReceiver, apply_ite State.unreached]

@[simp] theorem State.setMbSlot_unreached (m : Nat) (b : List Byte) : (s.setMbSlot m b).unreached = s.unreached :=
  State.foldl_unreached s (fun s _ => s.setCell_unreached _ _) _

@[simp] theorem State.mbStore_unreached (m : Nat) (b : List Byte) (sender node : Nat) : (s.mbStore m b sender node).unreached = s.unreached := by
  simp [State.mbStore, apply_ite State.unreached]

@[simp] theorem State.mbForward_unreached (m : Nat) (b : List Byte) (sender : Nat) : (s.mbForward m b sender).unreached = s.unreached := by
  simp [State.mbForward, State.mbMessage, apply_ite State.unreached]

@[simp] theorem State.mbxRefuse_unreached : s.mbxRefuse.unreached = s.unreached := by
  simp [State.mbxRefuse]

@[simp] theorem State.mbSend_unreached (m : Nat) (b : List Byte) (sender : Nat) : (s.mbSend m b sender).1.unreached = s.unreached := by
  unfold State.mbSend
  split_ifs <;> simp

@[simp] theorem State.areaWriteWord_unreached (x : Nat) (v : Word) : (s.areaWriteWord x v).unreached = s.unreached := by
  simp [State.areaWriteWord, State.clearCollision, State.mbTake, State.clearPend, State.setMask, State.setWake, State.signalReceiver,
    apply_ite State.unreached]

@[simp] theorem State.areaWords_unreached (f x : Nat) (bs : List Byte) : (State.areaWords f s x bs).unreached = s.unreached := by
  induction f generalizing s x bs with
  | zero => rfl
  | succ f ih =>
    unfold State.areaWords
    split_ifs <;> simp [ih]

@[simp] theorem State.areaWrite_unreached (x : Nat) (bs : List Byte) : (s.areaWrite x bs).unreached = s.unreached := by
  simp [State.areaWrite, State.areaRefuse, apply_ite State.unreached]

/-! ### Reads -/

@[simp] theorem State.flushRange_unreached (d n : Nat) : (s.flushRange d n).unreached = s.unreached := by
  unfold State.flushRange
  split_ifs
  · rfl
  · refine State.foldl_unreached s (fun s i => ?_) _
    split <;> rfl

section
variable {s}

theorem State.localFetch_unreached (h : s.readsClean = true) (d n : Nat) : (s.localFetch d n).2.unreached = s.unreached := by
  rw [State.localFetch, State.readUnits, if_pos h]
  exact s.flushRange_unreached d n

theorem State.fetchPiece_unreached {r : Bool × State} (h : r.2.readsClean = true) (x : Nat × Nat) :
    (State.fetchPiece r x).2.unreached = r.2.unreached := by
  unfold State.fetchPiece
  dsimp only
  split_ifs
  · exact State.localFetch_unreached h _ _
  · rfl
  · split
    · exact State.localFetch_unreached h _ _
    · exact r.2.denied_unreached
  · rfl
  · rfl

theorem State.fetchPieces_unreached (l : List (Nat × Nat)) (r : Bool × State) (h : r.2.readsClean = true) :
    (l.foldl State.fetchPiece r).2.unreached = r.2.unreached := by
  induction l generalizing r with
  | nil => rfl
  | cons x l ih =>
    have hx := State.fetchPiece_unreached h x
    rw [List.foldl_cons, ih _ (by rw [State.readsClean_of_unreached hx, h]), hx]

theorem State.fetch_unreached (h : s.readsClean = true) (d n : Nat) : (s.fetch d n).2.unreached = s.unreached := by
  have hl := State.localFetch_unreached h d (min n (0x800000000000 - d))
  unfold State.fetch
  dsimp only
  split_ifs
  · exact hl
  · rw [State.fetchPieces_unreached _ _ (by rw [State.readsClean_of_unreached hl, h]), hl]

theorem State.fetchMasked_unreached (f d n : Nat) (h : s.readsClean = true) : (State.fetchMasked f s d n).2.unreached = s.unreached := by
  induction f generalizing s d n with
  | zero => rfl
  | succ f ih =>
    unfold State.fetchMasked
    split_ifs
    · rfl
    · have hf := State.fetch_unreached h d (min n (s.unitAt d 0 - d % s.unitAt d 0))
      exact (ih _ _ ((State.readsClean_of_unreached hf).trans h)).trans hf

end

/-! ### Writes -/

section
variable {s} (h : s.mem.upsets = [])
include h

/-- Where no error lies in a memory a unit that is written has none to mend or to meet. -/
theorem State.mendUnit_clean (cellar : Bool) (u : Nat) : s.mendUnit cellar u = s := by
  rw [State.mendUnit, h]
  rfl

theorem State.meetLine_clean (c a d : Nat) : s.meetLine c a d = (false, s) := by
  rw [State.meetLine, h]
  rfl

theorem State.meetWord_clean (t off : Nat) : s.meetWord t off = (false, s) := by
  have hn : s.upsetIn true (cellarKey t off / 8) = none := by rw [State.upsetIn, h]; rfl
  rw [State.meetWord, hn]

omit h in
@[simp] theorem State.notePoison_unreached (s : State) (c : Nat) (b a : Bool) : (s.notePoison c b a).unreached = s.unreached := by
  simp [State.notePoison, apply_ite State.unreached]

omit h in
@[simp] theorem State.uncacheAt_unreached (s : State) (c a n : Nat) : (s.uncacheAt c a n).unreached = s.unreached := by
  simp [State.uncacheAt, apply_ite State.unreached]

theorem State.windowUnit_unreached (k off : Nat) (bs : List Byte) (p : Bool) : (s.windowUnit k off bs p).unreached = s.unreached := by
  simp [State.windowUnit, h, apply_ite State.unreached]

theorem State.localUnit_unreached (o : Bool) (d : Nat) (bs : List Byte) (p : Bool) : (s.localUnit o d bs p).unreached = s.unreached := by
  have hu : ∀ c a n, (s.uncacheAt c a n).mem.upsets = [] := fun c a n => (State.upsets_of_unreached (s.uncacheAt_unreached c a n)).trans h
  unfold State.localUnit
  split
  · simp [State.mendUnit_clean (hu _ _ _), State.meetLine_clean (hu _ _ _), apply_ite State.unreached]
  · simp [State.mendUnit_clean h, State.meetWord_clean h]
  · simp [State.windowUnit_unreached h, State.countBadAccess, apply_ite State.unreached]
  all_goals simp

theorem State.writeUnit_unreached (o : Bool) (d : Nat) (bs : List Byte) (p : Bool) : (s.writeUnit o d bs p).unreached = s.unreached := by
  unfold State.writeUnit
  split
  case h_1 =>
    split_ifs
    · simp
    · split
      · next x _ =>
        have hf := s.flushRange_unreached x bs.length
        exact (State.localUnit_unreached ((State.upsets_of_unreached hf).trans h) _ _ _ _).trans hf
      · simp
    · simp
  all_goals exact State.localUnit_unreached h _ _ _ _

theorem State.writeFuel_unreached (o p : Bool) (f d : Nat) (bs : List Byte) : (State.writeFuel o p f s d bs).unreached = s.unreached := by
  induction f generalizing s d bs with
  | zero => rfl
  | succ f ih =>
    unfold State.writeFuel
    split
    · rfl
    · have hw := State.writeUnit_unreached h o d (bs.take (s.unitAt d 1 - d % s.unitAt d 1)) p
      exact (ih ((State.upsets_of_unreached hw).trans h) _ _).trans hw

theorem State.write_unreached (d : Nat) (bs : List Byte) : (s.write d bs).unreached = s.unreached := by
  have hf := s.flushRange_unreached d bs.length
  exact (State.writeFuel_unreached ((State.upsets_of_unreached hf).trans h) _ _ _ _ _).trans hf

end

end Sys2Proof.Machine
end

section
/-! PROOFS. The sequencing and the power of a tile (R298, R386 to R389, R393, R394, R405, R717), and O37. -/

namespace Sys2Proof.Machine

/-! ### Items (R388) -/

section
variable {s : State} {n : Nat} {r : RunStage}

theorem State.itemStart_busy (hr : s.tileStage n = some r) (h : (s.tile n).item ≠ 0) : s.itemStart n = s := by
  rw [State.itemStart, hr]
  exact if_neg fun hc => h hc.2.2.1

/-- The prologue comes before the first item that a tile takes, where the program has one. -/
theorem State.itemStart_takes (hr : s.tileStage n = some r) (hk : r.kind = 0) (hst : r.stopped = false) (h0 : (s.tile n).item = 0)
    (hd : r.dealt < (s.progOf r).items) (hf : (s.page (tilePage n)).cond.fault = false) (hz : (s.page (tilePage n)).cond.frozen = false)
    (hff : s.freeFirst r n = true) : ((s.itemStart n).tile n).item = r.dealt + 1 ∧ (s.itemStart n).mem = s.mem ∧
      (((s.itemStart n).tile n).inPrologue = true ↔ (s.tile n).prologueDone = false ∧ (s.progOf r).proCount ≠ 0) ∧
      ((s.itemStart n).tile n).nextOp = (if (s.tile n).prologueDone = false ∧ (s.progOf r).proCount ≠ 0 then 0 else (s.progOf r).proCount) := by
  have hi : s.itemStart n = (s.updTile n (fun t => { t with
      item := r.dealt + 1, inPrologue := !(s.tile n).prologueDone && (s.progOf r).proCount != 0,
      nextOp := if !(s.tile n).prologueDone && (s.progOf r).proCount != 0 then 0 else (s.progOf r).proCount })).updRun r.stage
        (fun x => { x with dealt := x.dealt + 1 }) := by
    rw [State.itemStart, hr]
    exact if_pos ⟨hk, hst, h0, hd, hf, hz, hff⟩
  have ht : ∀ (u : State) (g : RunStage → RunStage), (u.updRun r.stage g).tile n = u.tile n := fun _ _ => rfl
  rw [hi, ht, State.tile_updTile, if_pos rfl]
  refine ⟨rfl, rfl, ?_, ?_⟩ <;> simp

end

/-! ### Ops that issue (R386, R389) -/

section
variable {s : State} {n : Nat} {r : RunStage} {j : Nat} {o : TileOp}

theorem State.takeInjection_none {target inst : Nat} (h : s.injected target inst = none) : s.takeInjection target inst = (false, s) := by
  rw [State.takeInjection, h]
  rfl

theorem State.injected_clean (h : s.readsClean = true) (target inst : Nat) : s.injected target inst = none := by
  have he : s.saf.injActive = [] := List.isEmpty_iff.mp (Bool.and_eq_true_iff.mp h).1
  rw [State.injected, he]
  rfl

theorem State.upsets_clean (h : s.readsClean = true) : s.mem.upsets = [] := List.isEmpty_iff.mp (Bool.and_eq_true_iff.mp h).2

theorem State.opFence_holds (hi : s.issueOp n 8 = some (r, j, o)) (hn : s.injected 5 n = none) :
    s.opFence n = ((s.touchOp n r).updTile n (fun t => { t with nextOp := t.nextOp + 1, fenced := true })).tileAdvance n := by
  rw [State.opFence, hi]
  simp only [State.takeInjection_none hn, Bool.false_eq_true, if_false]

/-- The request that a HRV op makes (R386). -/
def hrvRequest (n : Nat) (r : RunStage) (j : Nat) (o : TileOp) : HrvReq :=
  { tile := true, id := n, stage := r.stage, tag := o.dst, desc := operandAddr n o.a o.isa j, output := r.output, set := r.set }

/-- The template of a HRV op, as it is read: its bytes, and whether some of them were poisoned. -/
def State.hrvTemplate (s : State) (n : Nat) (r : RunStage) (j : Nat) (o : TileOp) : (List Byte × Bool) × State :=
  State.fetchMasked 64 (((s.touchOp n r).asAgent (.tile n)).opEarly n r) (operandAddr n o.b o.isb j) 64

/-- The template of a HRV op is copied as it stands, and a poisoned one reported (R405). -/
def State.hrvCopied (s : State) (n : Nat) (r : RunStage) (j : Nat) (o : TileOp) : State :=
  let f := s.hrvTemplate n r j o
  let s := f.2.write (operandAddr n o.a o.isa j) f.1.1
  if f.1.2 then
    ((((s.bump (F.TILE_DATA_ERR_CNT n)).tileLastErr n 0x5016 (s.tile n).nextOp).error (tilePage n) 0x5016 0).event (tilePage n) 0).stageCode
      r.stage 0x5016
  else s

/-- The op is in flight on the unit of Harvest, and the tile goes on to the next. -/
def State.hrvFlies (s : State) (n tag : Nat) : State :=
  (s.setTag n tag true).updTile n (fun t => { t with
    nextOp := t.nextOp + 1, inflight := t.inflight ++ [{ tag := tag, unit := 3, op := (s.tile n).nextOp }] })

theorem State.opHrv_requests (hi : s.issueOp n 7 = some (r, j, o)) (hn : s.injected 5 n = none) (ht : o.itemIter = false)
    (ho : (s.hrvCopied n r j o).hrvOn = true) :
    s.opHrv n = ((s.hrvCopied n r j o).hrvFlies n o.dst).hrvTileRequest (hrvRequest n r j o) := by
  rw [State.opHrv, hi]
  dsimp only
  rw [State.takeInjection_none hn]
  simp only [ht, Bool.false_eq_true, if_false]
  refine (if_neg ?_).trans rfl
  rw [← State.hrvTemplate]
  simpa [State.hrvCopied] using ho

theorem State.pokeByte_unreached (s : State) (o : Bool) (d : Nat) (b : Byte) : (s.pokeByte o d b).unreached = s.unreached := by
  unfold State.pokeByte
  split
  case h_3 => split_ifs <;> rfl
  all_goals rfl

theorem State.poke_unreached (s : State) (o : Bool) (d : Nat) (bs : List Byte) : (s.poke o d bs).unreached = s.unreached := by
  induction bs generalizing s d with
  | nil => rfl
  | cons b t ih => exact (ih _ _).trans (s.pokeByte_unreached o d b)

theorem State.opEarly_unreached (s : State) (n : Nat) (r : RunStage) : (s.opEarly n r).unreached = s.unreached := by
  refine State.foldl_unreached s (fun s x => State.foldl_unreached s (fun s w => ?_) _) _
  split_ifs
  · exact s.drawFree.poke_unreached _ _ _
  · rfl

theorem State.touchOp_unreached (h : s.readsClean = true) (n : Nat) (r : RunStage) : (s.touchOp n r).unreached = s.unreached := by
  have h1 := State.fetch_unreached h r.desc 64
  exact (State.fetch_unreached ((State.readsClean_of_unreached h1).trans h) _ _).trans h1

/-- A template that is copied where no error lies in wait leaves Harvest, the clock and the ops that tiles take next. -/
theorem State.hrvCopied_unreached (h : s.readsClean = true) (n : Nat) (r : RunStage) (j : Nat) (o : TileOp) :
    (s.hrvCopied n r j o).unreached = s.unreached := by
  have h1 : (((s.touchOp n r).asAgent (.tile n)).opEarly n r).unreached = s.unreached :=
    (State.opEarly_unreached _ n r).trans (State.touchOp_unreached h n r)
  have h2 : (s.hrvTemplate n r j o).2.unreached = s.unreached :=
    (State.fetchMasked_unreached _ _ _ ((State.readsClean_of_unreached h1).trans h)).trans h1
  have hu : (s.hrvTemplate n r j o).2.mem.upsets = [] := (State.upsets_of_unreached h2).trans (State.upsets_clean h)
  have h3 := (State.write_unreached hu (operandAddr n o.a o.isa j) (s.hrvTemplate n r j o).1.1).trans h2
  unfold State.hrvCopied
  dsimp only
  split_ifs
  · simp [State.stageCode, State.tileLastErr, h3]
  · exact h3

theorem State.setTag_leaves (s : State) (n t : Nat) (v : Bool) : (s.setTag n t v).hrv = s.hrv ∧ (s.setTag n t v).cycles = s.cycles ∧
    (s.setTag n t v).tiles = s.tiles := by
  unfold State.setTag
  split_ifs <;> exact ⟨rfl, rfl, rfl⟩

/-- A HRV op joins the queue of Harvest while it has room (R298). -/
theorem State.opHrv_queued (hi : s.issueOp n 7 = some (r, j, o)) (hc : s.readsClean = true) (ho : s.hrvOn = true) (hm : s.hrvRoom = true)
    (ht : o.itemIter = false) : (s.opHrv n).hrv.queue = hrvInsert { hrvRequest n r j o with at_ := s.cycles } s.hrv.queue ∧
      ((s.opHrv n).tile n).nextOp = (s.tile n).nextOp + 1 := by
  have hu := State.hrvCopied_unreached hc n r j o
  have hq := State.opHrv_requests hi (State.injected_clean hc 5 n) ht ((State.hrvOn_of_unreached hu).trans ho)
  obtain ⟨th, tc, tt⟩ := (s.hrvCopied n r j o).setTag_leaves n o.dst true
  have hh : ((s.hrvCopied n r j o).hrvFlies n o.dst).hrv = s.hrv := th.trans (State.hrv_of_unreached hu)
  have hcy : ((s.hrvCopied n r j o).hrvFlies n o.dst).cycles = s.cycles := tc.trans (State.cycles_of_unreached hu)
  have hroom : ((s.hrvCopied n r j o).hrvFlies n o.dst).hrvRoom = true := by rw [State.hrvRoom, hh]; exact hm
  obtain ⟨eh, et, -⟩ := ((s.hrvCopied n r j o).hrvFlies n o.dst).hrvEnqueue_leaves (hrvRequest n r j o)
  rw [hq, State.hrvTileRequest, if_pos hroom, eh, State.tile, et, hh, hcy]
  refine ⟨rfl, ?_⟩
  rw [← State.tile, State.hrvFlies, State.tile_updTile, if_pos rfl, State.tile, tt]
  exact congrArg (· + 1) (State.nextOp_of_unreached hu n)

end

/-! ### Ops that complete (R389, R405) -/

section
variable {s : State} {n unit : Nat} {r : RunStage} {x : OpRun} (hr : s.tileStage n = some r)
  (hx : (s.tile n).inflight.find? (fun y => y.unit == unit && unit != 3) = some x)
include hr hx

theorem State.opComplete_waits (hw : (s.opWrites n r x).awaits (.tile n) = true) : s.opComplete n unit = s.opWrites n r x := by
  rw [State.opComplete, hr, hx]
  exact if_pos hw

/-- An op of `unit` leaves the tile: its acknowledgements are used up, its tag is free, and OP_CNT counts it, with the MAC array's busy time. -/
def State.opLeaves (s : State) (n unit : Nat) (x : OpRun) : State :=
  let s := (((s.dropAcks (.tile n)).setTag n x.tag false).updTile n (fun t => { t with
    inflight := t.inflight.filter (fun y => y.op != x.op) })).bump (F.TILE_OP_CNT n)
  if unit = 0 then (s.bumpBy (F.TILE_MAC_BUSY_CNT n) (s.freeVal % 4096)).drawFree else s

theorem State.opComplete_good (hw : (s.opWrites n r x).awaits (.tile n) = false) (hc : x.code = 0)
    (ha : (s.opWrites n r x).answerCode (.tile n) = 0) : s.opComplete n unit = ((s.opWrites n r x).opLeaves n unit x).tileAdvance n := by
  rw [State.opComplete, hr, hx]
  simp only [hw, hc, ha, Bool.false_eq_true, if_false, if_true]
  rfl

theorem State.opComplete_error (hw : (s.opWrites n r x).awaits (.tile n) = false) (hc : x.code ≠ 0) : s.opComplete n unit =
    (((((((s.opWrites n r x).opLeaves n unit x).bump (F.TILE_DATA_ERR_CNT n)).tileLastErr n x.code x.op).error (tilePage n) x.code 0).event
      (tilePage n) 0).stageCode r.stage x.code).tileAdvance n := by
  rw [State.opComplete, hr, hx]
  simp only [hw, hc, Bool.false_eq_true, if_false]
  rfl

end

/-! ### Gating and wake (R393, R394, R717) -/

section
variable {s : State} {n : Nat}

theorem State.tileGate_held (h : s.tileFree n = false) : s.tileGate n = s := by
  simp [State.tileGate, h]

/-- In TRIM a free tile outside the plan is gated. -/
theorem State.tileGate_trim (hf : s.tileFree n = true) (hp : s.tilePresent n = true) (hg : (s.page (tilePage n)).cond.gated = false)
    (hs : s.fld F.PWR_STATE = 1) (hm : s.planTiles.contains n = false) :
    s.tileGate n = (s.updCond (tilePage n) (fun c => { c with gated := true })).event (tilePage n) 1 := by
  simp only [State.tileGate, hf, hp, hg, hs, hm, Bool.not_false, Bool.and_self, beq_self_eq_true, Bool.or_true, if_true]

/-- A change of a tile's conditions with an event of its page: its page alone has changed. -/
theorem State.tileNoted_spec (hn : n < 64) (s : State) (f : Cond → Cond) (b : Nat) (hb : b < 32) :
    let t := (s.updCond (tilePage n) f).event (tilePage n) b
    (t.page (tilePage n)).cond = f (s.page (tilePage n)).cond ∧ (t.page (tilePage n)).eventRaw.getLsbD b = true ∧
      (∀ p, p ≠ tilePage n → t.page p = s.page p) ∧ t.inner = s.inner := by
  obtain ⟨hst, hin⟩ := tilePage_own hn
  have h10 : statePage (tilePage n) ≠ 0x010 := by rw [hst, tilePage]; omega
  have hc := s.cond_updCond f (tilePage n)
  rw [hst] at hc
  refine ⟨?_, ?_, fun p hp => ?_, by rw [State.event_inner, State.updCond_inner]⟩
  · rw [State.page_event]
    exact hc
  · rw [State.page_event]
    simp [hb]
  · rw [State.page_event_other _ _ _ hp, State.page_updCond _ _ (.inl h10), hst, State.page_setCond_other _ _ _ hp (by simp [hin, hp])]

/-- A gated tile that was asked to wake is powered. -/
theorem State.tileWake_powers (hw : (s.tile n).wakeReq = true) (hg : (s.page (tilePage n)).cond.gated = true) :
    s.tileWake n = ((s.updCond (tilePage n) (fun c => { c with gated := false })).event (tilePage n) 2).updTile n (fun t => { t with
      wakeReq := false, idleSince := s.cycles }) := by
  rw [State.tileWake, if_pos hw, State.powerTile, if_pos hg]

/-- TILE_PWR takes its gating fields from a write, and its WAKE bit asks for the wake of the tile. -/
def State.pwrSet (s : State) (n : Nat) (v : Word) : State :=
  (s.setFld (F.TILE_PWR_GATE_IDLE_US n) (getBits v 31 16)).setFld (F.TILE_PWR_GATE_EN n) (getBits v 0 0)
def State.pwrTaken (s : State) (n : Nat) (v : Word) : State := if getBits v 1 1 = 1 then (s.pwrSet n v).wakeTile n else s.pwrSet n v

theorem State.writeTilePwr_eq {w : Nat} (v : Word) (hc : s.portCheck (tilePage n) 0x4C w = none)
    (hl : lockAdmits (s.page (tilePage n)) w = true) :
    s.writeTilePwr n w v = (s.pwrTaken n v).wrote (tilePage n) w := by
  rw [State.writeTilePwr, hc]
  dsimp only
  rw [if_pos hl]
  rfl

theorem State.pwrSet_fld (s : State) (n : Nat) (v : Word) : (s.pwrSet n v).fld (F.TILE_PWR_GATE_EN n) = getBits v 0 0 ∧
    (s.pwrSet n v).fld (F.TILE_PWR_GATE_IDLE_US n) = getBits v 31 16 := by
  have h0 := getBits_lt v 0 0
  have h16 := getBits_lt v 31 16
  unfold State.pwrSet
  constructor
  · rw [State.fld_setFld_same _ _ _ (Nat.le_refl 0) (by decide : 0 < 32)]
    exact Nat.mod_eq_of_lt h0
  · rw [State.fld_setFld_apart _ _ (Nat.le_refl 0) (by decide : 0 < 32) (.inr (.inr (by decide : 0 < 16))),
      State.fld_setFld_same _ _ _ (by decide : 16 ≤ 31) (by decide : 31 < 32)]
    exact Nat.mod_eq_of_lt h16

/-- A tile that is asked to wake keeps its registers and the memory. -/
theorem State.pwrTaken_leaves (s : State) (n : Nat) (v : Word) : (∀ f, (s.pwrTaken n v).fld f = (s.pwrSet n v).fld f) ∧
    (s.pwrTaken n v).mem = s.mem := by
  have hw : ∀ u : State, (∀ f, (u.wakeTile n).fld f = u.fld f) ∧ (u.wakeTile n).mem = u.mem := fun u => by
    unfold State.wakeTile
    split_ifs <;> exact ⟨fun _ => rfl, rfl⟩
  have hm : (s.pwrSet n v).mem = s.mem := by rw [State.pwrSet, State.setFld_mem, State.setFld_mem]
  unfold State.pwrTaken
  split_ifs
  · exact ⟨(hw _).1, (hw _).2.trans hm⟩
  · exact ⟨fun _ => rfl, hm⟩

/-- An admitted write of TILE_PWR sets its fields and names its writer (R394). -/
theorem State.writeTilePwr_admitted {w : Nat} (v : Word) (hc : s.portCheck (tilePage n) 0x4C w = none)
    (hl : lockAdmits (s.page (tilePage n)) w = true) :
    (s.writeTilePwr n w v).fld (F.TILE_PWR_GATE_EN n) = getBits v 0 0 ∧ (s.writeTilePwr n w v).fld (F.TILE_PWR_GATE_IDLE_US n) = getBits v 31 16 ∧
      ((s.writeTilePwr n w v).page (tilePage n)).lastWriter = w ∧ (s.writeTilePwr n w v).mem = s.mem := by
  obtain ⟨hf, hm⟩ := s.pwrTaken_leaves n v
  obtain ⟨h1, h2⟩ := s.pwrSet_fld n v
  rw [State.writeTilePwr_eq v hc hl, State.fld_wrote, State.fld_wrote, hf, hf, State.page_wrote_same, State.wrote_mem]
  exact ⟨h1, h2, rfl, hm⟩

/-- A write that the port discards changes no conditions. -/
theorem State.portCheck_cond {p off w : Nat} {c : State} (h : s.portCheck p off w = some c) (q : Nat) : (c.page q).cond = (s.page q).cond := by
  have he : ∀ (p code : Nat) (info : Word), ((s.error p code info).page q).cond = (s.page q).cond := fun p code info => by
    rw [State.page_error]
    split_ifs with hq
    · rw [hq]
      exact ((s.page p).take_control code info).2.2
    · rfl
  have hb : (s.badAccess p off w).page q = s.page q := by simp only [State.badAccess, State.bump, State.bumpBy, State.page_setFld]
  unfold State.portCheck at h
  split_ifs at h <;> obtain rfl := Option.some.inj h <;> simp only [he, hb]

/-- A write that a gated tile's page discards still asks for its wake. -/
theorem State.writeTilePwr_gated {w : Nat} {v : Word} {c : State} (hv : getBits v 1 1 = 1) (hc : s.portCheck (tilePage n) 0x4C w = some c)
    (hg : (c.page (tilePage n)).cond.gated = true) : s.writeTilePwr n w v = c.wakeTile n := by
  rw [State.portCheck_cond hc] at hg
  rw [State.writeTilePwr, hc]
  simp only [hg, hv, if_true]

end

/-! ### The commands -/

section
variable (s : State) (dt n : Nat)

theorem exec_tileItemStart : exec (.tileItemStart dt n) s = .next ((s.arrive dt).itemStart n) := rfl
theorem exec_tileFence : exec (.tileFence dt n) s = .next ((s.arrive dt).opFence n) := rfl
theorem exec_tileHrv : exec (.tileHrv dt n) s = .next ((s.arrive dt).opHrv n) := rfl
theorem exec_tileOpComplete (unit : Nat) : exec (.tileOpComplete dt n unit false) s = .next ((s.arrive dt).opComplete n unit) := rfl
theorem exec_tileGate : exec (.tileGate dt n) s = .next ((s.arrive dt).tileGate n) := rfl
theorem exec_tileWake : exec (.tileWake dt n) s = .next ((s.arrive dt).tileWake n) := rfl
theorem exec_tileWakeCmd (w : Nat) (v : Word) : exec (.tileWakeCmd dt n w v) s = .next ((s.arriveBy dt w).writeTilePwr n w v) := rfl

end

/-- Settles O37, command by command. -/
theorem tilesSequence : Obligations.TilesSequence := by
  intro s dt n hn a
  refine ⟨fun r hr => ⟨?_, ?_⟩, ?_, ?_, ?_, fun unit => rfl, ?_, ?_, ?_, ?_⟩
  · intro hk hst h0 hd hf hz hff
    exact ⟨_, exec_tileItemStart s dt n, State.itemStart_takes hr hk hst h0 hd hf hz hff⟩
  · intro h
    rw [exec_tileItemStart, State.itemStart_busy hr h]
  · intro r j o hi hinj
    rw [exec_tileFence, State.opFence_holds hi hinj]
  · intro r j o hi hc ho hm ht q
    exact ⟨_, exec_tileHrv s dt n, State.opHrv_queued hi hc ho hm ht⟩
  · intro r x unit hr hx b
    refine ⟨fun hw => ?_, fun hw hc ha => ?_, fun hw hc => ?_⟩
    · rw [exec_tileOpComplete, State.opComplete_waits hr hx hw]
    · rw [exec_tileOpComplete, State.opComplete_good hr hx hw hc ha]
      rfl
    · rw [exec_tileOpComplete, State.opComplete_error hr hx hw hc]
      rfl
  · intro h
    rw [exec_tileGate, State.tileGate_held h]
  · intro hf hp hg hs hm
    obtain ⟨h1, h2, h3, h4⟩ := State.tileNoted_spec hn a (fun c => { c with gated := true }) 1 (by decide)
    exact ⟨_, (exec_tileGate s dt n).trans (congrArg _ (State.tileGate_trim hf hp hg hs hm)), (congrArg Cond.gated h1 :), h2,
      State.mem_of_inner h4, h3⟩
  · intro hw hg
    obtain ⟨h1, h2, -, -⟩ := State.tileNoted_spec hn a (fun c => { c with gated := false }) 2 (by decide)
    refine ⟨_, (exec_tileWake s dt n).trans (congrArg _ (State.tileWake_powers hw hg)), (congrArg Cond.gated h1 :), h2, ?_⟩
    rw [State.tile_updTile, if_pos rfl]
    exact ⟨rfl, rfl⟩
  · intro w v b
    exact ⟨fun hc hl => ⟨_, exec_tileWakeCmd s dt n w v, State.writeTilePwr_admitted v hc hl⟩,
      fun c hv hc hg => (exec_tileWakeCmd s dt n w v).trans (congrArg _ (State.writeTilePwr_gated hv hc hg))⟩

end Sys2Proof.Machine
end

section
/-! PROOFS. The sparse convolution and the scatter of a running stage (R330, R338 to R340, R350, R353, R354, R361), and O35. -/

namespace Sys2Proof.Machine

/-! ### The sites that a STRIDED stage creates (R338, R339) -/

/-- The key of the output site that a source site of key `k` creates. -/
def ConvDesc.outKey (c : ConvDesc) (k : Nat) : Nat := packKey (keyX k / c.sx) (keyY k / c.sy) (keyZ k / c.sz)

/-- A site stands in the partition of its key, at a rank below the quota and at the index of that rank (R333, R338, R339). -/
def Site.InQuota (tiles quota : Nat) (x : Site) : Prop :=
  x.part = partitionOf tiles x.key ∧ x.rank < quota * 1024 ∧ x.index = quota * 1024 * x.part + x.rank

/-- What a creation pass keeps: no key twice, each site within its partition's quota, and each key one of those that `image` admits. -/
structure Making.Sound (tiles quota : Nat) (image : Nat → Prop) (m : Making) : Prop where
  keys_nodup : (m.sites.map (·.key)).Nodup
  inQuota : ∀ x ∈ m.sites, x.InQuota tiles quota
  isImage : ∀ x ∈ m.sites, image x.key

section
variable {tiles quota key : Nat} {image : Nat → Prop} {m : Making}

/-- A source site changes the list of sites only by the next rank of its partition, where its key is new and the rank is below the quota. -/
theorem Making.add_sites (m : Making) (tiles quota key : Nat) :
    (m.add tiles quota key).sites = m.sites ∨
      (∀ x ∈ m.sites, x.key ≠ key) ∧ ∃ r, r < quota * 1024 ∧
        (m.add tiles quota key).sites = m.sites ++ [⟨key, partitionOf tiles key, r, quota * 1024 * partitionOf tiles key + r⟩] := by
  unfold Making.add
  dsimp only
  split_ifs with hknown hfull
  · exact .inl rfl
  · exact .inl rfl
  · have hnew : ∀ x ∈ m.sites, x.key ≠ key := by
      simp only [Bool.or_eq_true, not_or, List.any_eq_true, beq_iff_eq, not_exists, not_and] at hknown
      exact hknown.1
    exact .inr ⟨hnew, _, Nat.not_le.mp hfull, rfl⟩

theorem Making.Sound.add (hm : m.Sound tiles quota image) (hk : image key) : (m.add tiles quota key).Sound tiles quota image := by
  obtain h | ⟨hnew, r, hr, h⟩ := m.add_sites tiles quota key
  · exact ⟨h ▸ hm.keys_nodup, h ▸ hm.inQuota, h ▸ hm.isImage⟩
  · refine ⟨?_, ?_, ?_⟩ <;> rw [h]
    · rw [List.map_append, List.nodup_append]
      refine ⟨hm.keys_nodup, List.nodup_singleton _, fun a ha b hb => ?_⟩
      obtain ⟨x, hx, rfl⟩ := List.mem_map.mp ha
      rw [List.mem_singleton.mp hb]
      exact hnew x hx
    · exact List.forall_mem_append.mpr ⟨hm.inQuota, List.forall_mem_singleton.mpr ⟨rfl, hr, rfl⟩⟩
    · exact List.forall_mem_append.mpr ⟨hm.isImage, List.forall_mem_singleton.mpr hk⟩

theorem mem_of_mem_byPartition {l : List Site} {x : Site} (h : x ∈ byPartition l) : x ∈ l := by
  obtain ⟨j, -, hx⟩ := List.mem_flatMap.mp h
  exact List.mem_of_mem_filter hx

end

section
variable (s : State) (c : ConvDesc) (r : RunStage)

/-- The creation pass over the parent's sites, in ascending (partition, rank) order. -/
def State.setPass : Making :=
  (byPartition (s.sitesOf c.inSet)).foldl (fun m x => m.add s.tileCount c.quota (c.outKey x.key)) {}

theorem State.setPass_sound : (s.setPass c).Sound s.tileCount c.quota (fun k => ∃ y ∈ s.sitesOf c.inSet, k = c.outKey y.key) :=
  List.foldlRecOn _ _ (motive := Making.Sound s.tileCount c.quota _)
    ⟨List.nodup_nil, fun _ h => absurd h List.not_mem_nil, fun _ h => absurd h List.not_mem_nil⟩
    fun _ hm x hx => hm.add ⟨x, mem_of_mem_byPartition hx, rfl⟩

/-! ### The set itself (R330, R338, Table 8-1) -/

/-- The geometry of a STRIDED stage's output set. -/
def State.outGeo : SetGeo := (s.geoOf r.level c.inSet).derive c.sx c.sy c.sz

/-- The set that a STRIDED stage makes. -/
def State.madeSet : DerivedSet :=
  { id := c.outSet, stage := r.stage, parent := c.inSet, sx := c.sx, sy := c.sy, sz := c.sz, quota := c.quota, xs := (s.outGeo c r).xs,
    ys := (s.outGeo c r).ys, ex := (s.outGeo c r).ex, ey := (s.outGeo c r).ey, ez := (s.outGeo c r).ez, sites := (s.setPass c).sites }

variable {c}

theorem State.makeSet_exists {d : DerivedSet} (h : s.derived c.outSet = some d) : s.makeSet c r = s := by
  rw [State.makeSet, h]

/-- Behind the registers the new set joins the frame's sets, and nothing else changes. -/
theorem State.makeSet_new (h : s.derived c.outSet = none) :
    (s.makeSet c r).inner = (s.updScv (fun v => { v with sets := v.sets ++ [s.madeSet c r] })).inner := by
  rw [State.makeSet, h]
  dsimp only
  split
  · rfl
  · simp only [apply_ite State.inner, State.event_inner, State.error_inner, State.setFld_inner, State.bumpBy_inner, ite_self]
    rfl

end

/-! ### The stage's unit (R350, R353, R361) -/

section
variable {s : State} {n op : Nat} {r : RunStage}

theorem State.stage_of_runStage (h : s.runStage n = some r) : r.stage = n :=
  beq_iff_eq.mp (List.find?_some (p := fun r : RunStage => r.stage == n) h)

/-- The stage named, once it is updated, is what the update made of it. -/
theorem State.runStage_updRun {f : RunStage → RunStage} (h : (s.updRun n f).runStage n = some r) : ∃ x, f x = r := by
  have hn := State.stage_of_runStage h
  obtain ⟨x, -, hx⟩ := List.mem_map.mp (List.mem_of_find?_eq_some h)
  by_cases hxn : x.stage = n
  · exact ⟨x, (if_pos hxn).symm.trans hx⟩
  · rw [if_neg hxn] at hx
    exact absurd (hx ▸ hn) hxn

theorem State.bevScatter_unitDone (d : BevDesc) {x : RunStage} (h : (s.bevScatter d r).runStage r.stage = some x) : x.unitDone = true := by
  obtain ⟨y, rfl⟩ := State.runStage_updRun h
  rfl

/-- An agent's work that misses no answer takes effect, and the data its reads brought are used up. -/
theorem State.byAgent_done {a : Agent} {f : State → State} (h : (f (s.asAgent a)).grf.miss = false) :
    s.byAgent a f = (f (s.asAgent a)).dropReads a := by
  simp [State.byAgent, h]

theorem State.byAgent_waits {a : Agent} {f : State → State} (h : (f (s.asAgent a)).grf.miss = true) : s.byAgent a f = s := if_pos h

/-- The work of a scatter stage's unit: its descriptor is read, and its whole map written. -/
def State.bevWork (r : RunStage) (u : State) : State := (u.touch r.desc 64).bevScatter (bevDesc (u.read r.desc 64).bytes) r

theorem State.bevWork_unitDone {a : Agent} {x : RunStage} (h : ((s.bevWork r).dropReads a).runStage r.stage = some x) : x.unitDone = true :=
  State.bevScatter_unitDone (s := s.touch r.desc 64) _ h

theorem State.bevStage_scatters (h : s.runStage n = some r) (hk : r.kind = 2) (hu : r.unitDone = false) (hs : r.stopped = false)
    (hf : (s.page 0x060).cond.fault = false) (hz : (s.page 0x060).cond.frozen = false) :
    s.bevStage n = s.byAgent (.stage n) (State.bevWork r) := by
  rw [State.bevStage, h]
  exact if_pos ⟨hk, hu, hs, hf, hz⟩

/-- A stage that does not run, or any stage while the page is paused, has no work for the unit. -/
theorem State.convStage_idle (h : s.runStage n = none ∨ (s.page 0x060).cond.frozen = true) (op : Nat) : s.convStage n op = none := by
  unfold State.convStage
  rcases h with h | h
  · rw [h]
  · simp only [h]
    split <;> simp

theorem State.bevStage_idle (h : s.runStage n = none ∨ (s.page 0x060).cond.frozen = true) : s.bevStage n = s := by
  unfold State.bevStage
  rcases h with h | h
  · rw [h]
  · simp only [h]
    split <;> simp

end

/-! ### The commands -/

section
variable (s : State) (dt n : Nat) (chunks : List Nat)

theorem exec_scvSubm : exec (.scvSubm dt n chunks) s = .next ((s.arrive dt).scvSubm n chunks) := rfl
theorem exec_scvStrided : exec (.scvStrided dt n chunks) s = .next ((s.arrive dt).scvStrided n chunks) := rfl
theorem exec_scvInverse : exec (.scvInverse dt n chunks) s = .next ((s.arrive dt).scvInverse n chunks) := rfl
theorem exec_bevScatter : exec (.bevScatter dt n) s = .next ((s.arrive dt).bevStage n) := rfl

end

/-- Settles O35: each operation is its case of the model's definition, a made set is what the creation pass keeps from its first source site
to its last, and a scatter ends with its stage's unit done. -/
theorem convolutionsRun : Obligations.ConvolutionsRun := by
  unfold Obligations.ConvolutionsRun
  refine ⟨fun s dt n chunks => ?_, fun s c r => ⟨fun d h => s.makeSet_exists r h, fun h => ?_⟩⟩
  · intro a
    refine ⟨fun r c h => ?_, fun r c h => ?_, fun r c h => ?_, fun r h hk hu hs hf hz => ?_, fun h => ?_⟩
    · rw [exec_scvSubm, State.scvSubm, h]
    · rw [exec_scvStrided, State.scvStrided, h]
    · rw [exec_scvInverse, State.scvInverse, h]
    · intro t
      rw [exec_bevScatter, State.bevStage_scatters h hk hu hs hf hz]
      have ht : t = (a.asAgent (.stage n)).bevWork r := rfl
      rw [ht]
      refine ⟨fun hm => ⟨congrArg _ (State.byAgent_done hm), fun x hx => ?_⟩, fun hm => congrArg _ (State.byAgent_waits hm)⟩
      exact State.bevWork_unitDone (State.stage_of_runStage h ▸ hx)
    · have hc := State.convStage_idle h
      rw [exec_scvSubm, State.scvSubm, hc, exec_scvStrided, State.scvStrided, hc, exec_scvInverse, State.scvInverse, hc,
        exec_bevScatter, State.bevStage_idle h]
      exact ⟨rfl, rfl, rfl, rfl⟩
  · obtain ⟨hnodup, hquota, himage⟩ := s.setPass_sound c
    have hnew := s.makeSet_new r h
    refine ⟨s.madeSet c r, congrArg (fun u : State => u.scv.sets) hnew, rfl, rfl, rfl, rfl, rfl, rfl, rfl, hnodup, fun x hx => ?_,
      (State.mem_of_inner hnew :), (State.frm_of_inner hnew :)⟩
    obtain ⟨hpart, hrank, hindex⟩ := hquota x hx
    exact ⟨hpart, hrank, hindex, himage x hx⟩

end Sys2Proof.Machine
end

section
/-! PROOFS. An op that issues: it reads and computes, and only then goes into flight (R385 to R390, R405). -/

namespace Sys2Proof.Machine

/-! ## What an op does before it goes into flight -/

/-- `t` comes of `s` by reads and by draws of free values alone. -/
inductive State.Reads (s : State) : State → Prop
  | refl : Reads s s
  | fetch {t : State} (h : Reads s t) (d n : Nat) : Reads s (t.fetch d n).2
  | draw {t : State} (h : Reads s t) : Reads s t.drawFree

section
variable {s₀ s : State} (h : s₀.Reads s)
include h

theorem State.Reads.draws (l : List Nat) : s₀.Reads (l.foldl (fun (s : State) _ => s.drawFree) s) := by
  induction l generalizing s with
  | nil => exact h
  | cons _ l ih => exact ih h.draw

theorem State.Reads.fetchMasked (f d n : Nat) : s₀.Reads (State.fetchMasked f s d n).2 := by
  induction f generalizing s d n with
  | zero => exact h
  | succ f ih =>
    unfold State.fetchMasked
    split_ifs
    · exact h
    · exact ih (h.fetch _ _) _ _

theorem State.Reads.fetchRows (n : Nat) (l : List Nat) : s₀.Reads (s.fetchRows n l).2 := by
  induction l generalizing s with
  | nil => exact h
  | cons d l ih => exact ih (h.fetch d n)

theorem State.Reads.fetchChannels (base wf cnt : Nat) (l : List Nat) : s₀.Reads (s.fetchChannels base wf cnt l).2 := by
  induction l generalizing s with
  | nil => exact h
  | cons n l ih => exact ih (h.fetch _ _)

theorem State.Reads.opMatmul (r : RunStage) (t j : Nat) (o : TileOp) : s₀.Reads (s.opMatmul r t j o).2 :=
  (((h.fetchChannels _ _ _ _).fetchRows _ _).fetchRows _ _).draws _

theorem State.Reads.opDconv (r : RunStage) (t j : Nat) (o : TileOp) : s₀.Reads (s.opDconv r t j o).2 :=
  (((h.fetchChannels _ _ _ _).fetchRows _ _).fetchRows _ _).draws _

theorem State.Reads.vecElem (o : TileOp) (a b i : Nat) : s₀.Reads (s.vecElem o a b i).2 := by
  have hx := h.fetch (a + i * fmtBytes o.fa) (fmtBytes o.fa)
  unfold State.vecElem
  dsimp only
  split_ifs
  · exact (hx.fetch _ _).draw
  · exact (hx.fetch _ _).draw
  · exact (hx.fetch _ _).draw
  · exact (hx.fetch _ _).draw
  · exact hx.draw
  · exact hx.draw

theorem State.Reads.vecRow (o : TileOp) (a b : Nat) (l : List Nat) : s₀.Reads (s.vecRow o a b l).2 := by
  induction l generalizing s with
  | nil => exact h
  | cons i l ih => exact ih (h.vecElem o a b i)

theorem State.Reads.minDist (a b d : Nat) : s₀.Reads (s.minDist a b d).2 := by
  unfold State.minDist
  dsimp only
  split_ifs <;> exact (((h.fetch a 6).fetch b 6).fetch d 2).draw

theorem State.Reads.vecRows (o : TileOp) (a b d : Nat) (l : List Nat) : s₀.Reads (s.vecRows o a b d l).2 := by
  induction l generalizing s with
  | nil => exact h
  | cons m l ih =>
    unfold State.vecRows
    dsimp only
    refine ih ?_
    by_cases ho : o.aux % 256 = 12
    · rw [if_pos ho]
      exact h.minDist _ _ _
    · rw [if_neg ho]
      exact h.vecRow _ _ _ _

theorem State.Reads.reduceRows (o : TileOp) (a d : Nat) (l : List Nat) : s₀.Reads (s.reduceRows o a d l).2 := by
  induction l generalizing s with
  | nil => exact h
  | cons m l ih => exact ih (h.fetch _ _).draw

theorem State.Reads.dmaRows (o : TileOp) (a d : Nat) (l : List Nat) : s₀.Reads (s.dmaRows o a d l).2 := by
  induction l generalizing s with
  | nil => exact h
  | cons m l ih => exact ih (h.fetchMasked _ _ _)

theorem State.Reads.gatherRows (o : TileOp) (a b d : Nat) (l : List Nat) : s₀.Reads (s.gatherRows o a b d l).2 := by
  induction l generalizing s with
  | nil => exact h
  | cons m l ih =>
    unfold State.gatherRows
    dsimp only
    refine ih ?_
    split_ifs
    · exact h.fetch _ _
    · exact h.fetch _ _
    · exact (h.fetch _ _).fetchMasked _ _ _

end

/-! ## What reads leave where no error lies in wait -/

section
variable {s t : State}

theorem State.tiles_of_inner (h : t.inner = s.inner) : t.tiles = s.tiles := (congrArg State.tiles h :)

theorem State.localFetch_tiles (h : s.readsClean = true) (d n : Nat) : (s.localFetch d n).2.tiles = s.tiles := by
  rw [State.localFetch, State.readUnits, if_pos h]
  unfold State.flushRange
  split_ifs
  · rfl
  · refine foldl_leaves State.tiles (fun s i => ?_) _ s
    split <;> rfl

theorem State.fetchPiece_tiles {r : Bool × State} (h : r.2.readsClean = true) (x : Nat × Nat) :
    (State.fetchPiece r x).2.tiles = r.2.tiles := by
  unfold State.fetchPiece
  dsimp only
  split_ifs
  · exact State.localFetch_tiles h _ _
  · rfl
  · split
    · exact State.localFetch_tiles h _ _
    · exact State.tiles_of_inner (by simp [State.denied])
  · rfl
  · rfl

theorem State.fetch_tiles (h : s.readsClean = true) (d n : Nat) : (s.fetch d n).2.tiles = s.tiles := by
  have hl := State.localFetch_tiles h d (min n (0x800000000000 - d))
  have hc := (State.readsClean_of (State.localFetch_clean h d (min n (0x800000000000 - d)))).trans h
  unfold State.fetch
  dsimp only
  split_ifs
  · exact hl
  · refine (foldl_snd_keeps (P := fun t => t.readsClean = true ∧ t.tiles = s.tiles) (fun r x hr => ?_) _ _ ⟨hc, hl⟩).2
    exact ⟨(State.readsClean_of (State.fetchPiece_clean hr.1 x)).trans hr.1, (State.fetchPiece_tiles hr.1 x).trans hr.2⟩

/-- Where no error lies in wait, reads leave the bytes, what lies in wait and the tiles. -/
theorem State.Reads.leaves (h : s.Reads t) (hc : s.readsClean = true) : t.readSource = s.readSource ∧ t.tiles = s.tiles := by
  induction h with
  | refl => exact ⟨rfl, rfl⟩
  | fetch _ d n ih =>
    have hu := (State.readsClean_of ih.1).trans hc
    exact ⟨(State.fetch_clean hu d n).trans ih.1, (State.fetch_tiles hu d n).trans ih.2⟩
  | draw _ ih => exact ih

theorem State.Reads.sameBytes (h : s.Reads t) (hc : s.readsClean = true) : s.SameBytes t :=
  State.sameBytes_of (congrArg Prod.fst (h.leaves hc).1 :)

theorem State.Reads.touchOp (s : State) (n : Nat) (r : RunStage) : s.Reads (s.touchOp n r) := (State.Reads.refl.fetch _ _).fetch _ _

end

/-! ## The bytes that ops in flight may already have written (R390) -/

section
variable (s : State)

theorem State.poke_tiles (o : Bool) (d : Nat) (bs : List Byte) : (s.poke o d bs).tiles = s.tiles := by
  induction bs generalizing s d with
  | nil => rfl
  | cons b t ih =>
    refine (ih _ _).trans ?_
    unfold State.pokeByte
    split
    case h_3 => split_ifs <;> rfl
    all_goals rfl

theorem State.opEarly_tiles (n : Nat) (r : RunStage) : (s.opEarly n r).tiles = s.tiles := by
  refine foldl_leaves State.tiles (fun s x => foldl_leaves State.tiles (fun s w => ?_) _ s) _ s
  split_ifs
  · exact s.drawFree.poke_tiles _ _ _
  · rfl

/-- Beside ops that have no write nothing may already be there. -/
theorem State.opEarly_idle {s : State} {n : Nat} (h : ∀ y ∈ (s.tile n).inflight, y.writes = []) (r : RunStage) : s.opEarly n r = s := by
  unfold State.opEarly
  revert h
  generalize (s.tile n).inflight = l
  intro h
  induction l with
  | nil => rfl
  | cons y l ih =>
    rw [List.foldl_cons, h y List.mem_cons_self]
    exact ih fun z hz => h z (List.mem_cons_of_mem y hz)

end

/-! ## Tags (R389) -/

theorem bitOf_setBit_same (n b : Nat) : bitOf (setBit n b) b = true := by
  unfold setBit
  split_ifs with h
  · exact h
  · rw [bitOf_testBit] at h ⊢
    rw [Nat.add_comm, Nat.testBit_two_pow_add_eq, Bool.eq_false_of_not_eq_true h, Bool.not_false]

/-- A bit that is set in the whole of a register reads so. -/
theorem State.bitOf_fld_setBit (s : State) {f : Field} (hl : f.lo = 0) (hh : f.hi = 31) (n : Nat) {b : Nat} (hb : b < 32) :
    bitOf ((s.setFld f (setBit n b)).fld f) b = true := by
  rw [State.fld_setFld_same _ _ _ (by omega) (by omega), hl, hh, bitOf_testBit, Nat.testBit_mod_two_pow, ← bitOf_testBit, bitOf_setBit_same]
  simpa using hb

theorem State.tagBusy_setTag (s : State) (n : Nat) {t : Nat} (ht : t < 64) : (s.setTag n t true).tagBusy n t = true := by
  unfold State.setTag State.tagBusy
  by_cases h : t < 32
  · simp only [if_pos h]
    exact s.bitOf_fld_setBit rfl rfl _ h
  · simp only [if_neg h, if_pos ht]
    exact s.bitOf_fld_setBit rfl rfl _ (by omega)

/-- The tags of the device's 64 tiles lie below the registers that place the mailbox area. -/
theorem State.byteSource_setTag (s : State) {n : Nat} (hn : n < 64) (t : Nat) (v : Bool) : (s.setTag n t v).byteSource = s.byteSource := by
  unfold State.setTag
  split_ifs
  · refine s.byteSource_setFld _ _ ?_
    simp only [F.TILE_SB_BUSY_LO_TAGS, R.TILE_SB_BUSY_LO, R.MBX_AREA_LO, R.MBX_AREA_HI, R.MBX_CFG, List.mem_cons, List.not_mem_nil, or_false]
    omega
  · refine s.byteSource_setFld _ _ ?_
    simp only [F.TILE_SB_BUSY_HI_TAGS, R.TILE_SB_BUSY_HI, R.MBX_AREA_LO, R.MBX_AREA_HI, R.MBX_CFG, List.mem_cons, List.not_mem_nil, or_false]
    omega
  · rfl

/-! ## The op goes into flight -/

/-- What an op of a tile reads and computes. -/
abbrev OpFun : Type := State → RunStage → Nat → TileOp → OpOut × State

/-- The state in which an op of tile `n` reads: the op and its header have been read, and beside it each byte that an op in flight writes may
already be there. -/
def State.opStart (s : State) (n : Nat) (r : RunStage) : State := ((s.touchOp n r).asAgent (.tile n)).opEarly n r

/-- An op of the tile with its answer `x` goes into flight on `unit`, and the next op becomes the following one. -/
def State.opFlies (s : State) (n unit : Nat) (o : TileOp) (x : OpOut × State) : State :=
  ((x.2.dropReads (.tile n)).setTag n o.dst true).updTile n (fun t => { t with
    nextOp := t.nextOp + 1
    inflight := t.inflight ++
      [{ tag := o.dst, unit := unit, op := (s.tile n).nextOp, writes := x.1.writes, code := if x.1.bad then 0x5016 else 0 }] })

theorem State.updTile_leaves (s : State) (n : Nat) (f : Tile → Tile) : (∀ m t, (s.updTile n f).tagBusy m t = s.tagBusy m t) ∧
    (s.updTile n f).byteSource = s.byteSource := ⟨fun _ _ => rfl, rfl⟩

theorem State.opFlies_effect (s : State) {n : Nat} (hn : n < 64) (unit : Nat) (o : TileOp) {x : OpOut × State} (ht : x.2.tiles = s.tiles) :
    let t := s.opFlies n unit o x
    (t.tile n).inflight = (s.tile n).inflight ++
        [{ tag := o.dst, unit := unit, op := (s.tile n).nextOp, writes := x.1.writes, code := if x.1.bad then 0x5016 else 0 }] ∧
      (t.tile n).nextOp = (s.tile n).nextOp + 1 ∧ (o.dst < 64 → t.tagBusy n o.dst = true) ∧ t.byteSource = x.2.byteSource := by
  intro t
  obtain ⟨htag, hbytes⟩ := State.updTile_leaves ((x.2.dropReads (.tile n)).setTag n o.dst true) n (fun t => { t with
    nextOp := t.nextOp + 1
    inflight := t.inflight ++
      [{ tag := o.dst, unit := unit, op := (s.tile n).nextOp, writes := x.1.writes, code := if x.1.bad then 0x5016 else 0 }] })
  have htile : ((x.2.dropReads (.tile n)).setTag n o.dst true).tile n = s.tile n :=
    congrArg (fun m => Sparse.get tileDefault m n) ((State.setTag_leaves ..).2.2.trans ht)
  have he : t.tile n = _ := (State.tile_updTile ..).trans (if_pos rfl)
  rw [he, htile]
  refine ⟨rfl, rfl, fun hd => (htag _ _).trans (State.tagBusy_setTag _ n hd), hbytes.trans ?_⟩
  rw [State.byteSource_setTag _ hn]
  exact State.byteSource_updGrf _ _

section
variable {s : State} {n opc unit j : Nat} {r : RunStage} {o : TileOp} {f : OpFun}

theorem State.issue_none (h : s.issueOp n opc = none) : s.issue n opc unit f = s := by
  rw [State.issue, h]

variable (hi : s.issueOp n opc = some (r, j, o)) (hc : s.readsClean = true)
include hi hc

theorem State.issue_waits (hm : (f (s.opStart n r) r j o).2.grf.miss = true) : s.issue n opc unit f = s := by
  rw [State.issue, hi]
  simp only [State.takeInjection_none (State.injected_clean hc 5 n), Bool.false_eq_true, if_false]
  exact if_pos hm

theorem State.issue_flies (hm : (f (s.opStart n r) r j o).2.grf.miss = false) :
    s.issue n opc unit f = s.opFlies n unit o (f (s.opStart n r) r j o) := by
  rw [State.issue, hi]
  simp only [State.takeInjection_none (State.injected_clean hc 5 n), Bool.false_eq_true, if_false]
  exact if_neg (by rw [← State.opStart, hm]; decide)

omit hi in
theorem State.opStart_leaves (n : Nat) (r : RunStage) : (s.opStart n r).readsClean = true ∧ (s.opStart n r).tiles = s.tiles ∧
    ((∀ y ∈ (s.tile n).inflight, y.writes = []) → s.SameBytes (s.opStart n r)) := by
  have hr : s.Reads (s.touchOp n r) := State.Reads.touchOp s n r
  have hstart : s.opStart n r = ((s.touchOp n r).asAgent (.tile n)).opEarly n r := rfl
  generalize s.touchOp n r = u at hr hstart
  obtain ⟨hsource, htiles⟩ := hr.leaves hc
  have hclean : (u.asAgent (.tile n)).readsClean = true := (State.readsClean_of hsource).trans hc
  have htile : (u.asAgent (.tile n)).tile n = s.tile n := congrArg (fun m => Sparse.get tileDefault m n) htiles
  rw [hstart]
  refine ⟨(State.readsClean_of_unreached (State.opEarly_unreached _ n r)).trans hclean, (State.opEarly_tiles _ n r).trans htiles, fun h => ?_⟩
  rw [State.opEarly_idle (by rwa [htile])]
  exact hr.sameBytes hc

/-- An op that goes into flight changes no byte beyond those that ops in flight may already have written; none where they write none. -/
theorem State.issue_effect (hn : n < 64) (hf : ∀ s : State, s.Reads (f s r j o).2) (hm : (f (s.opStart n r) r j o).2.grf.miss = false) :
    let t := s.issue n opc unit f
    let x := f (s.opStart n r) r j o
    (t.tile n).inflight = (s.tile n).inflight ++
        [{ tag := o.dst, unit := unit, op := (s.tile n).nextOp, writes := x.1.writes, code := if x.1.bad then 0x5016 else 0 }] ∧
      (t.tile n).nextOp = (s.tile n).nextOp + 1 ∧ (o.dst < 64 → t.tagBusy n o.dst = true) ∧ (s.opStart n r).SameBytes t ∧
      ((∀ y ∈ (s.tile n).inflight, y.writes = []) → s.SameBytes t) := by
  intro t x
  obtain ⟨hb, ht, hidle⟩ := State.opStart_leaves hc n r
  have hr : (s.opStart n r).Reads x.2 := hf _
  have he : t = s.opFlies n unit o x := State.issue_flies hi hc hm
  clear_value x t
  subst he
  obtain ⟨hsource, htiles⟩ := hr.leaves hb
  obtain ⟨hin, hop, htag, hbytes⟩ := s.opFlies_effect hn unit o (htiles.trans ht)
  have hsame : (s.opStart n r).SameBytes (s.opFlies n unit o x) := State.sameBytes_of (hbytes.trans (congrArg Prod.fst hsource))
  exact ⟨hin, hop, htag, hsame, fun h d => (hsame d).trans (hidle h d)⟩

end

/-- The six commands that issue an op of a kind, with their opcodes, units and what the ops compute. -/
def tileOps (dt n : Nat) : List (Instr × Nat × Nat × OpFun) :=
  [(.tileMatmul dt n, 1, 0, fun s r j o => s.opMatmul r n j o), (.tileDconv dt n, 2, 0, fun s r j o => s.opDconv r n j o),
    (.tileVec dt n, 3, 1, fun s r j o => s.opVec r n j o), (.tileReduce dt n, 4, 1, fun s r j o => s.opReduce r n j o),
    (.tileDma dt n, 5, 2, fun s r j o => s.opDma r n j o), (.tileGather dt n, 6, 2, fun s r j o => s.opGather r n j o)]

theorem exec_tileOps {s : State} {dt n opc unit : Nat} {c : Instr} {f : OpFun} (h : (c, opc, unit, f) ∈ tileOps dt n) :
    exec c s = .next ((s.arrive dt).issue n opc unit f) := by
  simp only [tileOps, List.mem_cons, Prod.mk.injEq, List.not_mem_nil, or_false] at h
  rcases h with ⟨rfl, rfl, rfl, rfl⟩ | ⟨rfl, rfl, rfl, rfl⟩ | ⟨rfl, rfl, rfl, rfl⟩ | ⟨rfl, rfl, rfl, rfl⟩ | ⟨rfl, rfl, rfl, rfl⟩ |
    ⟨rfl, rfl, rfl, rfl⟩ <;> rfl

theorem tileOps_reads {dt n opc unit : Nat} {c : Instr} {f : OpFun} (h : (c, opc, unit, f) ∈ tileOps dt n) (s : State) (r : RunStage)
    (j : Nat) (o : TileOp) : s.Reads (f s r j o).2 := by
  simp only [tileOps, List.mem_cons, Prod.mk.injEq, List.not_mem_nil, or_false] at h
  obtain ⟨-, -, -, rfl⟩ | ⟨-, -, -, rfl⟩ | ⟨-, -, -, rfl⟩ | ⟨-, -, -, rfl⟩ | ⟨-, -, -, rfl⟩ | ⟨-, -, -, rfl⟩ := h
  · exact State.Reads.refl.opMatmul r n j o
  · exact State.Reads.refl.opDconv r n j o
  · exact State.Reads.refl.vecRows o _ _ _ _
  · exact State.Reads.refl.reduceRows o _ _ _
  · exact State.Reads.refl.dmaRows o _ _ _
  · exact State.Reads.refl.gatherRows o _ _ _ _

/-- For each of the device's 64 tiles an op issues, waits or does not issue as O36 says. -/
theorem tileOps_issue {s : State} {dt n opc unit : Nat} {c : Instr} {f : OpFun} (hn : n < 64) (h : (c, opc, unit, f) ∈ tileOps dt n) :
    let a := s.arrive dt
    (a.issueOp n opc = none → exec c s = .next a) ∧
    (∀ r j o, a.issueOp n opc = some (r, j, o) → a.readsClean = true →
      let b := a.opStart n r
      let x := f b r j o
      (x.2.grf.miss = true → exec c s = .next a) ∧
      (x.2.grf.miss = false → ∃ t, exec c s = .next t ∧
        (t.tile n).inflight = (a.tile n).inflight ++
          [{ tag := o.dst, unit := unit, op := (a.tile n).nextOp, writes := x.1.writes, code := if x.1.bad then 0x5016 else 0 }] ∧
        (t.tile n).nextOp = (a.tile n).nextOp + 1 ∧ (o.dst < 64 → t.tagBusy n o.dst = true) ∧ b.SameBytes t ∧
        ((∀ y ∈ (a.tile n).inflight, y.writes = []) → a.SameBytes t))) := by
  rw [exec_tileOps h]
  intro a
  refine ⟨fun hi => congrArg _ (State.issue_none hi), fun r j o hi hc => ⟨fun hm => congrArg _ (State.issue_waits hi hc hm), fun hm => ?_⟩⟩
  exact ⟨_, rfl, State.issue_effect hi hc hn (fun s => tileOps_reads h s r j o) hm⟩

/-! ## A tile number that no part has -/

/-- The number of no tile: SB_BUSY_LO of a tile with this number would stand where MBX_AREA_LO stands. -/
def strayTile : Nat := 0x90

/-- A stage whose program stands at address 0x8000, just above the mailbox area. -/
def strayStage : RunStage := { stage := 0, kind := 0, tiles := [strayTile], share := 0, desc := 0x8000, progBase := 0x8000, dealt := 1 }

/-- A part out of the safe state with the mailbox area at address 0, and the program of the stage: one DMA of no row with DST_TAG 15. The tile
that no part has is in the stage's first item. -/
def strayRuns : State :=
  let s := { State.reset.setFld F.MBX_CFG_AREA_EN 1 with saf := { inSafe := false }, hdr := [], frm := { running := [strayStage] } }
  let s := ((s.poke false 0x8000 (leBytes 2 1)).poke false 0x8008 (leBytes 4 64)).poke false 0x8040 (leBytes 8 (0xFFFF0F * 2 ^ 32 + 5))
  s.updTile strayTile (fun t => { t with heldBy := 1, item := 1 })

/-- The op that the stage's program has at this tile. -/
def strayOp : TileOp :=
  { opc := 5, fa := 0, fb := 0, fd := 0, dst := 15, src0 := 0xFF, src1 := 0xFF, flags := 0, a := 0, b := 0, d := 0, m := 0, n := 0, k := 0,
    lda := 0, ldd := 0, isa := 0, isb := 0, isd := 0, aux := 0 }

theorem strayRuns_issues : (strayRuns.arrive 0).issueOp strayTile 5 = some (strayStage, 0, strayOp) ∧
    (strayRuns.arrive 0).readsClean = true ∧ ((strayRuns.arrive 0).tile strayTile).inflight = [] ∧
    (((strayRuns.arrive 0).opStart strayTile strayStage).opDma strayStage strayTile 0 strayOp).2.grf.miss = false := by
  decide +kernel

/-- The tag that becomes busy moves the mailbox area over the program, whose first byte was 1. -/
theorem strayRuns_moves : (strayRuns.arrive 0).peekByte 0x8000 = 1 ∧
    ((strayRuns.arrive 0).issue strayTile 5 2 (fun s r j o => s.opDma r strayTile j o)).peekByte 0x8000 = 0 := by
  decide +kernel

/-- Refutes O36: the clause on the bytes of memory, for a tile number that no part has. The statement ranges over every `n`, and the tags of
tile 0x90 would stand in MBX_AREA_LO: a tag that becomes busy there moves the mailbox area over stored bytes. For the tiles that
exist the statement holds (`tileOps_issue`). -/
theorem not_tileOpsIssue : ¬ Obligations.TileOpsIssue := by
  intro h
  obtain ⟨hnone, hop⟩ := h strayRuns 0 strayTile 5 2 (.tileDma 0 strayTile) (fun s r j o => s.opDma r strayTile j o)
    (.tail _ (.tail _ (.tail _ (.tail _ (.head _)))))
  have hx : exec (.tileDma 0 strayTile) strayRuns = .next ((strayRuns.arrive 0).issue strayTile 5 2 _) :=
    exec_tileOps (.tail _ (.tail _ (.tail _ (.tail _ (.head _)))))
  obtain ⟨hi, hc, hfly, hm⟩ := strayRuns_issues
  obtain ⟨hbefore, hafter⟩ := strayRuns_moves
  rw [hx] at hop
  clear hx hnone
  generalize strayRuns.arrive 0 = a at *
  obtain ⟨-, hgo⟩ := hop strayStage 0 strayOp hi hc
  obtain ⟨t, ht, -, -, -, -, hsame⟩ := hgo hm
  have hd := hsame (fun y hy => absurd (hfly ▸ hy) List.not_mem_nil) 0x8000
  rw [← Host.Outcome.next.inj ht, hbefore, hafter] at hd
  exact absurd hd (by decide)

end Sys2Proof.Machine
end

section
/-! PROOFS. The in-field tests of the tiles (R395 to R400), and what they find and record as the device enters the safe state (R759). -/

namespace Sys2Proof.Machine

/-! ## What entry to the safe state leaves of the tests -/

/-- Power, tiles, registers and page headers. -/
def State.shown (s : State) : Pwr × Sparse Tile × Sparse Word × Sparse PageHdr := (s.pwr, s.tiles, s.regs, s.hdr)

/-- From `s` to `t` the tests lose nothing of what they found: withdrawals, overdue intervals, TEST_STATUS, FAULT and events stand, and the power
phase is the same. -/
structure State.TestsLast (s t : State) : Prop where
  pwr : t.pwr = s.pwr
  withdrawn : ∀ n, (t.tile n).withdrawn = (s.tile n).withdrawn
  overdue : ∀ n, (t.tile n).overdue = (s.tile n).overdue
  status : ∀ n, n < 64 → t.cell (R.TILE_TEST_STATUS n) = s.cell (R.TILE_TEST_STATUS n)
  fault : ∀ p, (s.page p).cond.fault = true → (t.page p).cond.fault = true
  event : ∀ p b, (s.page p).eventRaw.getLsbD b = true → (t.page p).eventRaw.getLsbD b = true

section
variable (s : State)

@[simp] theorem State.foldl_shown {α : Type} {f : State → α → State} (hf : ∀ s x, (f s x).shown = s.shown) (l : List α) :
    (l.foldl f s).shown = s.shown :=
  foldl_leaves State.shown hf l s

@[simp] theorem State.updFrm_shown (f : Frm → Frm) : (s.updFrm f).shown = s.shown := (rfl)
@[simp] theorem State.updScv_shown (f : Scv → Scv) : (s.updScv f).shown = s.shown := (rfl)
@[simp] theorem State.updRst_shown (f : Rst → Rst) : (s.updRst f).shown = s.shown := (rfl)
@[simp] theorem State.updHrv_shown (f : Hrv → Hrv) : (s.updHrv f).shown = s.shown := (rfl)
@[simp] theorem State.updEtu_shown (f : Etu → Etu) : (s.updEtu f).shown = s.shown := (rfl)
@[simp] theorem State.updSaf_shown (f : Saf → Saf) : (s.updSaf f).shown = s.shown := (rfl)
@[simp] theorem State.lifeSafe_shown : s.lifeSafe.shown = s.shown := (rfl)
@[simp] theorem State.stopRemote_shown : s.stopRemote.shown = s.shown := (rfl)
@[simp] theorem State.drawFree_shown : s.drawFree.shown = s.shown := (rfl)
@[simp] theorem State.setJob_shown (c r : Nat) (j : Option Job) : (s.setJob c r j).shown = s.shown := (rfl)

@[simp] theorem State.jobAborted_shown (c r : Nat) (j : Job) (code : Nat) : (s.jobAborted c r j code).shown = s.shown := by
  unfold State.jobAborted State.writeStatus
  rw [State.setJob_shown]
  split_ifs <;> rfl

@[simp] theorem State.pokeByte_shown (o : Bool) (d : Nat) (b : Byte) : (s.pokeByte o d b).shown = s.shown := by
  unfold State.pokeByte
  split
  case h_3 => split_ifs <;> rfl
  all_goals rfl

@[simp] theorem State.poke_shown (o : Bool) (d : Nat) (bs : List Byte) : (s.poke o d bs).shown = s.shown := by
  induction bs generalizing s d with
  | nil => rfl
  | cons b t ih => exact (ih _ _).trans (s.pokeByte_shown o d b)

@[simp] theorem State.scramble_shown (o : Bool) (d n : Nat) : (s.scramble o d n).shown = s.shown := by
  simp [State.scramble]

@[simp] theorem State.freeBank_shown (b : Option Nat) : (s.freeBank b).shown = s.shown := by
  unfold State.freeBank State.setBank
  split
  · split_ifs <;> rfl
  · rfl

@[simp] theorem State.freeFrameBanks_shown (f : Frame) : (s.freeFrameBanks f).shown = s.shown := by
  simp [State.freeFrameBanks]

@[simp] theorem State.abandonOp_shown (r : RunStage) (x : OpRun) : (s.abandonOp r x).shown = s.shown := by
  simp [State.abandonOp]

@[simp] theorem State.stopBev_shown (r : RunStage) : (s.stopBev r).shown = s.shown := by
  simp [State.stopBev, apply_ite State.shown]

@[simp] theorem State.endWaiters_shown (n code : Nat) : (s.endWaiters n code true).shown = s.shown := by
  simp [State.endWaiters]

@[simp] theorem State.dropPoints_shown (n : Nat) : (s.dropPoints n).shown = s.shown := (rfl)

@[simp] theorem State.dropClosing_shown : s.dropClosing.shown = s.shown := by
  unfold State.dropClosing
  split
  · rfl
  · next f _ => exact (s.freeFrameBanks_shown f :)

@[simp] theorem State.dropIngest_shown : s.dropIngest.shown = s.shown := by
  unfold State.dropIngest
  split
  · rfl
  · next f _ => exact (s.freeFrameBanks_shown f :)

/-- The frames that have not entered compute hold no tile. -/
@[simp] theorem State.dropWaiting_shown (code : Nat) : (s.dropWaiting code).shown = s.shown := by
  unfold State.dropWaiting
  dsimp only
  split <;> split <;> simp

end

section
variable {s₀ s t : State}

theorem State.TestsLast.refl (s : State) : s.TestsLast s := ⟨rfl, fun _ => rfl, fun _ => rfl, fun _ _ => rfl, fun _ h => h, fun _ _ h => h⟩

theorem State.TestsLast.trans (h : s₀.TestsLast s) (g : s.TestsLast t) : s₀.TestsLast t where
  pwr := g.pwr.trans h.pwr
  withdrawn := fun n => (g.withdrawn n).trans (h.withdrawn n)
  overdue := fun n => (g.overdue n).trans (h.overdue n)
  status := fun n hn => (g.status n hn).trans (h.status n hn)
  fault := fun p hp => g.fault p (h.fault p hp)
  event := fun p b hb => g.event p b (h.event p b hb)

theorem State.testsLast_of_shown (h : t.shown = s.shown) : s.TestsLast t := by
  have htiles : t.tiles = s.tiles := (congrArg (·.2.1) h :)
  have hregs : t.regs = s.regs := (congrArg (·.2.2.1) h :)
  have hhdr : t.hdr = s.hdr := (congrArg (·.2.2.2) h :)
  have ht : ∀ n, t.tile n = s.tile n := fun n => by rw [State.tile, htiles, State.tile]
  have hp := State.page_of_hdr hhdr
  exact ⟨congrArg (·.1) h, fun n => by rw [ht], fun n => by rw [ht], fun n _ => by rw [State.cell, hregs, State.cell],
    fun p hf => by rwa [hp], fun p b hb => by rwa [hp]⟩

/-- What is noted leaves the tests where it leaves FAULT. -/
theorem State.testsLast_of_noted (h : s.Noted t) (hf : ∀ p, (s.page p).cond.fault = true → (t.page p).cond.fault = true) : s.TestsLast t where
  pwr := (congrArg State.pwr h.kept :)
  withdrawn := fun n => (congrArg (fun u : State => (u.tile n).withdrawn) h.kept :)
  overdue := fun n => (congrArg (fun u : State => (u.tile n).overdue) h.kept :)
  status := fun n hn => h.cell _ (by simp only [R.TILE_TEST_STATUS, R.HIF_MSIX_PBA]; omega) (by simp only [R.TILE_TEST_STATUS, R.RST_RING_LOST_CNT]; omega)
  fault := hf
  event := h.event

variable (h : s₀.TestsLast s)
include h

theorem State.TestsLast.same (he : t.shown = s.shown) : s₀.TestsLast t := h.trans (State.testsLast_of_shown he)

theorem State.TestsLast.foldl {α : Type} {f : State → α → State} (hf : ∀ t x, s₀.TestsLast t → s₀.TestsLast (f t x)) (l : List α) :
    s₀.TestsLast (l.foldl f s) := by
  induction l generalizing s with
  | nil => exact h
  | cons x l ih => exact ih (hf _ x h)

theorem State.TestsLast.setFld (f : Field) (v : Nat) (hf : ∀ n, n < 64 → R.TILE_TEST_STATUS n ≠ f.reg := by decide) :
    s₀.TestsLast (s.setFld f v) :=
  h.trans ⟨rfl, fun _ => rfl, fun _ => rfl, fun n hn => State.cell_setFld_other s v (hf n hn), fun _ g => g, fun _ _ g => g⟩

theorem State.TestsLast.updTile (n : Nat) (f : Tile → Tile) (hw : ∀ t, (f t).withdrawn = t.withdrawn := by exact fun _ => rfl)
    (ho : ∀ t, (f t).overdue = t.overdue := by exact fun _ => rfl) : s₀.TestsLast (s.updTile n f) := by
  have ht : ∀ m, ((s.updTile n f).tile m).withdrawn = (s.tile m).withdrawn ∧ ((s.updTile n f).tile m).overdue = (s.tile m).overdue := fun m => by
    rw [State.tile_updTile]
    split_ifs with hm
    · exact hm ▸ ⟨hw _, ho _⟩
    · exact ⟨rfl, rfl⟩
  exact h.trans ⟨rfl, fun m => (ht m).1, fun m => (ht m).2, fun _ _ => rfl, fun _ g => g, fun _ _ g => g⟩

theorem State.TestsLast.event_ (p b : Nat) : s₀.TestsLast (s.event p b) :=
  h.trans (State.testsLast_of_noted (s.noted_event p b) fun q hq => by rwa [State.cond_event])

theorem State.TestsLast.error (p code : Nat) (info : Word) : s₀.TestsLast (s.error p code info) :=
  h.trans (State.testsLast_of_noted (s.noted_error p code info) fun q hq => by rwa [State.cond_error])

omit h in
theorem State.fault_setCond (s : State) (q : Nat) {f : Cond → Cond} (hf : ∀ c : Cond, c.fault = true → (f c).fault = true) (p : Nat)
    (hp : (s.page p).cond.fault = true) : ((s.setCond q f).page p).cond.fault = true := by
  rw [State.cond_setCond]
  split_ifs with hq
  · exact hf _ (hq ▸ hp)
  · exact hp

omit h in
/-- A change of conditions that ends no FAULT leaves every FAULT. -/
theorem State.fault_updCond (s : State) (q : Nat) {f : Cond → Cond} (hf : ∀ c : Cond, c.fault = true → (f c).fault = true) (p : Nat)
    (hp : (s.page p).cond.fault = true) : ((s.updCond q f).page p).cond.fault = true := by
  by_cases hq : statePage q = 0x010
  · rw [s.updCond_frm f hq, State.sepFollow_eq]
    refine State.fault_setCond _ _ ?_ p (s.fault_setCond _ hf p hp)
    exact fun _ g => g
  · rw [s.updCond_other f hq]
    exact s.fault_setCond _ hf p hp

theorem State.TestsLast.updCond (q : Nat) (f : Cond → Cond) (hf : ∀ c : Cond, c.fault = true → (f c).fault = true := by exact fun _ g => g) :
    s₀.TestsLast (s.updCond q f) :=
  h.trans (State.testsLast_of_noted (s.noted_updCond q f) fun p hp => s.fault_updCond q hf p hp)

/-! ### The stages of the frame stop (R359, R402, R504) -/

theorem State.TestsLast.releaseTile (n : Nat) : s₀.TestsLast (s.releaseTile n) :=
  (((h.updTile _ _).setFld _ _ fun m _ => by simp only [R.TILE_TEST_STATUS, F.TILE_SB_BUSY_LO_TAGS, R.TILE_SB_BUSY_LO]; omega).setFld _ _
    fun m _ => by simp only [R.TILE_TEST_STATUS, F.TILE_SB_BUSY_HI_TAGS, R.TILE_SB_BUSY_HI]; omega).updCond _ _

theorem State.TestsLast.stopTiles (r : RunStage) : s₀.TestsLast (s.stopTiles r) :=
  (h.same (State.foldl_shown _ (fun _ _ => State.foldl_shown _ (fun s x => s.abandonOp_shown r x) _) _)).foldl (fun _ n ht => ht.releaseTile n) _

theorem State.TestsLast.stopEtuJob (r : RunStage) (code : Nat) : s₀.TestsLast (s.stopEtuJob r code) := by
  have hl : s₀.TestsLast (s.etuLastErr (etuDesc (s.peek r.desc 64)).table code) := ((h.setFld _ _).setFld _ _).event_ _ _
  unfold State.stopEtuJob
  split_ifs
  · exact h
  · dsimp only
    split
    · exact hl
    · refine (hl.same ?_).updCond _ _
      split_ifs
      · rfl
      · exact State.foldl_shown _ (fun s i => s.scramble_shown _ _ _) _

theorem State.TestsLast.stopHrvRun (code : Nat) : s₀.TestsLast (s.stopHrvRun code) := by
  unfold State.stopHrvRun
  split
  · exact h
  · extract_lets n out s1 s2
    have h1 : s1.shown = s.shown := (State.foldl_shown _ (fun s x => State.foldl_shown _ (fun s w => s.poke_shown _ _ _) _) _).trans s.drawFree_shown
    have h2 : s2.shown = s1.shown := State.foldl_shown _ (fun s x =>
      (State.poke_shown _ _ _ _).trans (State.foldl_shown _ (fun s w => s.scramble_shown _ _ _) _)) _
    exact ((h.same (h2.trans h1)).same (s2.updHrv_shown _)).updCond 0x050 _

theorem State.TestsLast.stopHarvest (code : Nat) : s₀.TestsLast (s.stopHarvest code) := (h.stopHrvRun code).same (State.updHrv_shown _ _)

theorem State.TestsLast.stopStages (code : Nat) : s₀.TestsLast (s.stopStages code) := by
  unfold State.stopStages
  extract_lets s1 s2 s3 s4
  have h1 : s₀.TestsLast s1 := h.foldl (fun t r ht => by
    split_ifs
    · exact ht.stopTiles r
    · exact ht.same (t.stopBev_shown r)
    · exact ht.stopEtuJob r code
    · exact ht) _
  have h2 : s₀.TestsLast s2 := (h1.stopHarvest code).same (State.stopRemote_shown _)
  have h3 : s₀.TestsLast s3 := h2.updCond 0x060 _
  have h4 : s₀.TestsLast s4 := h3.updCond 0x0D0 _
  exact h4.same (s4.updFrm_shown _)

theorem State.TestsLast.freeSets : s₀.TestsLast s.freeSets := (h.same (s.updScv_shown _)).setFld F.SCV_POOL_USED_UNITS 0

theorem State.TestsLast.noSets : s₀.TestsLast s.noSets := h.setFld F.SCV_SET_VALID_SETS 0

theorem State.TestsLast.dropCompute (code : Nat) : s₀.TestsLast (s.dropCompute code) := by
  unfold State.dropCompute
  split
  · exact h
  · next f _ =>
    extract_lets s1 s2
    have h1 : s₀.TestsLast s1 := h.same (State.foldl_shown _ (fun s x => s.jobAborted_shown _ _ _ _) _)
    have h2 : s₀.TestsLast s2 := ((h1.stopStages code).freeSets.noSets).same (State.freeFrameBanks_shown _ f)
    exact h2.same (s2.updFrm_shown _)

/-! ### The plan slots, the pins and the causes (R155, R160, R754, R817) -/

theorem State.TestsLast.showPlan : s₀.TestsLast s.showPlan :=
  ((h.setFld F.FRM_PERIOD_US_PERIOD _).setFld F.FRM_BUDGET_US_BUDGET _).setFld F.FRM_CORE_FLOOR_MHZ _

theorem State.TestsLast.setSlot (b st : Nat) (p : Plan) : s₀.TestsLast (s.setSlot b st p) := by
  have hb : ∀ n, n < 64 → R.TILE_TEST_STATUS n ≠ (planSlotState b).reg := by
    unfold planSlotState
    split_ifs <;> decide
  exact ((h.same (s.updFrm_shown _)).setFld (planSlotState b) st hb).showPlan

theorem State.TestsLast.emptySlot (b : Nat) : s₀.TestsLast (s.emptySlot b) := by
  unfold State.emptySlot
  extract_lets s1
  have h1 : s₀.TestsLast s1 := by
    unfold s1
    split_ifs
    · exact h
    · exact h.setFld F.FRM_PLAN_STATUS_SWITCH_PENDING 0
  exact (h1.setSlot b 0 {}).same (State.updRst_shown _ _)

theorem State.TestsLast.afterFrame : s₀.TestsLast s.afterFrame := by
  unfold State.afterFrame
  extract_lets s1 s2 s3
  have h1 : s₀.TestsLast s1 := h.foldl (fun t b ht => by
    split_ifs
    · exact ht.emptySlot b
    · exact ht) _
  have h2 : s₀.TestsLast s2 := h1.same (s1.updRst_shown _)
  have h3 : s₀.TestsLast s3 := by
    unfold s3
    split_ifs
    · exact (h2.same (s2.updFrm_shown _)).updCond 0x010 _
    · exact h2
  split
  · exact ((h3.same (s3.updFrm_shown _)).emptySlot _).updCond 0x010 _ fun _ _ => rfl
  · exact h3

theorem State.TestsLast.takePins (pins : List Nat) : s₀.TestsLast (s.takePins pins) := by
  cases hn : pins.filter (fun g => !bitOf s.gpio.held g) with
  | nil => rwa [State.takePins_none hn]
  | cons g l =>
    have hs : s₀.TestsLast (s.seizePins (g :: l)) := h.same rfl
    rw [State.takePins_some hn]
    split_ifs
    · exact ((hs.error _ _ _).event_ _ _).updCond _ _
    · exact hs

omit h in
theorem State.noted_signal (s : State) (fn v : Nat) : s.Noted (s.signal fn v) :=
  ⟨State.kept_of_inner (s.signal_inner fn v), fun _ hk _ => s.cell_signal fn v hk, fun q => by rw [State.page_signal],
    fun q c hc => by rwa [State.page_signal]⟩

theorem State.TestsLast.signalVfs (v : Nat) : s₀.TestsLast (s.signalVfs v) :=
  h.foldl (fun t n ht => ht.trans (State.testsLast_of_noted (t.noted_signal n v) fun q hq => by rwa [State.page_signal])) _

theorem State.TestsLast.raiseCause (n : Nat) : s₀.TestsLast (s.raiseCause n) := by
  have he : s₀.TestsLast (s.event 0x160 n) := h.event_ _ _
  refine he.trans (State.testsLast_of_shown ?_)
  unfold State.raiseCause
  dsimp only
  split_ifs <;> rfl

/-! ### The safe state (R754 to R760) -/

/-- While no sentry window is open, entry to the safe state leaves what the tests found. -/
theorem State.TestsLast.enterSafe (hp : s.pwr.phase = 0) (n code : Nat) : s₀.TestsLast (s.enterSafe n code) := by
  unfold State.enterSafe
  extract_lets v s1 s2 c s3 s4 s5 s6 s7 r s8 s9 s10 s11 s12 s13 s14
  have h2 : s₀.TestsLast s2 := by
    have hs : s2 = s1 := if_pos hp
    rw [hs]
    exact h.same rfl
  have h3 : s₀.TestsLast s3 := (h2.dropCompute c).same (State.dropWaiting_shown _ c)
  have h4 : s₀.TestsLast s4 := by
    unfold s4
    split_ifs
    · exact h3.raiseCause _
    · exact h3
  have h6 : s₀.TestsLast s6 := h4.afterFrame.updCond 0x010 _
  have h8 : s₀.TestsLast s8 := h6.same (show (s6.pwr, s6.tiles, s6.regs, s6.hdr) = s6.shown from rfl)
  have h10 : s₀.TestsLast s10 := (h8.updCond 0x040 _).foldl (fun t p ht => ht.updCond p _) _
  have h11 : s₀.TestsLast s11 := (h10.setFld F.SAF_FIRST_CAUSE _).setFld F.SAF_FIRST_CODE _
  have h12 : s₀.TestsLast s12 := (h11.setFld F.SAF_FIRST_TS_LO_TS _).setFld F.SAF_FIRST_TS_HI_TS _
  have h13 : s₀.TestsLast s13 := h12.setFld F.SAF_SAFE_ENTRY_CNT _
  have h14 : s₀.TestsLast s14 := h13.same s13.lifeSafe_shown
  exact (h14.takePins _).signalVfs _

theorem State.TestsLast.latch (hp : s.pwr.phase = 0) (n code : Nat) : s₀.TestsLast (s.latch n code) := by
  have hr := h.raiseCause n
  have hpr : (s.raiseCause n).pwr.phase = 0 := by rw [((State.TestsLast.refl s).raiseCause n).pwr, hp]
  unfold State.latch State.firstCause
  dsimp only
  split_ifs
  · exact hr
  · exact hr.enterSafe hpr n code
  · exact (hr.setFld F.SAF_FIRST_CAUSE _).setFld F.SAF_FIRST_CODE _
  · exact hr

omit h in
/-- A page that enters FAULT keeps it, with what the tests found. -/
theorem State.testsLast_pageFault (hp : s.pwr.phase = 0) (p code : Nat) :
    (s.updCond p (fun c => { c with fault := true })).TestsLast (s.pageFault p code) := by
  have hu := State.TestsLast.refl (s.updCond p (fun c => { c with fault := true }))
  have hpu : (s.updCond p (fun c => { c with fault := true })).pwr.phase = 0 := by
    rwa [((State.TestsLast.refl s).updCond p _ fun _ _ => rfl).pwr]
  unfold State.pageFault
  dsimp only
  split_ifs
  · exact hu.latch hpu _ _
  · exact hu.latch hpu _ _
  · exact hu

end

/-! ## A window opens (R396, R400) -/

/-- A tile is taken for its test: it wakes first. -/
def State.takeTest (s : State) (n : Nat) : State := (s.powerTile n).updTile n (fun t => { t with underTest := true })

/-- The next tiles of the rotation that the window takes beside a requested one, and where the rotation then stands. -/
def State.windowTurn (s : State) : List Nat × Nat :=
  nextTiles s.tilePresent 64 (s.fld F.FRM_TEST_ROTOR_NEXT)
    (if s.flag F.FRM_TEST_REQ_PENDING then s.fld F.FRM_TEST_CFG_GROUP - 1 else s.fld F.FRM_TEST_CFG_GROUP)

/-- The tiles of a window that opens: the requested one first. -/
def State.windowTiles (s : State) : List Nat :=
  if s.flag F.FRM_TEST_REQ_PENDING then s.frm.testPend :: s.windowTurn.1.filter (· != s.frm.testPend) else s.windowTurn.1

/-- The tiles of the window are under test. -/
def State.windowTaken (s : State) : State := s.windowTiles.foldl (fun (s : State) n => s.takeTest n) s

theorem nextTiles_length (present : Nat → Bool) (f n k : Nat) : (nextTiles present f n k).1.length ≤ k := by
  induction f generalizing n k with
  | zero => exact Nat.zero_le k
  | succ f ih =>
    cases k with
    | zero => exact Nat.le_refl 0
    | succ k =>
      unfold nextTiles
      split_ifs
      · exact Nat.succ_le_succ (ih _ k)
      · exact ih _ (k + 1)

section
variable (s : State)

theorem State.testWindowOpen_opens (h : s.windowMayOpen = true) : s.testWindowOpen = s.windowTaken.updFrm (fun f => { f with
    testTiles := s.windowTiles, testWindow := s.windowTiles, testInterval := s.windowTaken.fld F.FRM_TEST_CFG_INTERVAL_MS,
    testRotation := s.windowTurn.2, testDoneInFrame := true }) := by
  rw [State.testWindowOpen, if_pos h]
  unfold State.windowTaken State.windowTiles State.windowTurn
  cases s.flag F.FRM_TEST_REQ_PENDING <;> rfl

/-- The window holds no more tiles than GROUP, but for a requested one. -/
theorem State.windowTiles_length : s.windowTiles.length ≤ max 1 (s.fld F.FRM_TEST_CFG_GROUP) := by
  have hturn : s.windowTurn.1.length ≤ _ := nextTiles_length s.tilePresent 64 (s.fld F.FRM_TEST_ROTOR_NEXT) _
  unfold State.windowTiles
  split_ifs at hturn ⊢
  · have hf := List.length_filter_le (· != s.frm.testPend) s.windowTurn.1
    rw [List.length_cons]
    omega
  · omega

/-- What a tile that is taken for its test leaves: the bytes, the Frame Scheduler, its registers, and the tests of the other tiles. -/
structure State.TakesTests (l : List Nat) (s t : State) : Prop where
  bytes : t.byteSource = s.byteSource
  frm : t.frm = s.frm
  cell : ∀ k, k ≠ R.HIF_MSIX_PBA → t.cell k = s.cell k
  tiles : ∀ m, (t.tile m).underTest = if m ∈ l then true else (s.tile m).underTest

theorem State.powerTile_takes (n : Nat) : s.TakesTests [] (s.powerTile n) := by
  unfold State.powerTile
  split_ifs
  · have hi : ((s.updCond (tilePage n) (fun c => { c with gated := false })).event (tilePage n) 2).inner = s.inner := by
      rw [State.event_inner, State.updCond_inner]
    have hb := (State.byteSource_event (s.updCond (tilePage n) (fun c => { c with gated := false })) (tilePage n) 2).trans (s.byteSource_updCond _ _)
    have hc : ∀ k, k ≠ R.HIF_MSIX_PBA → ((s.updCond (tilePage n) (fun c => { c with gated := false })).event (tilePage n) 2).cell k = s.cell k :=
      fun k hk => (State.cell_event _ _ _ hk).trans (State.cell_updCond _ _ _ hk)
    generalize (s.updCond (tilePage n) (fun c => { c with gated := false })).event (tilePage n) 2 = u at hi hb hc
    have hm : ∀ m, u.tile m = s.tile m := fun m => (congrArg (fun u : State => u.tile m) hi :)
    refine ⟨hb, (State.frm_of_inner hi :), hc, fun m => ?_⟩
    rw [State.tile_updTile, hm, hm, if_neg (List.not_mem_nil (a := m))]
    split_ifs with h
    · rw [h]
    · rfl
  · exact ⟨rfl, rfl, fun _ _ => rfl, fun m => (if_neg (List.not_mem_nil (a := m))).symm⟩

theorem State.takeTest_takes (n : Nat) : s.TakesTests [n] (s.takeTest n) := by
  have h := s.powerTile_takes n
  refine ⟨h.bytes, h.frm, h.cell, fun m => ?_⟩
  rw [State.takeTest, State.tile_updTile]
  by_cases hm : m = n
  · simp [hm]
  · simp [hm, h.tiles m]

theorem State.foldl_takeTest (l : List Nat) : s.TakesTests l (l.foldl (fun (s : State) n => s.takeTest n) s) := by
  induction l generalizing s with
  | nil => exact ⟨rfl, rfl, fun _ _ => rfl, fun _ => rfl⟩
  | cons n l ih =>
    have hn := s.takeTest_takes n
    have hl := ih (s.takeTest n)
    refine ⟨hl.bytes.trans hn.bytes, hl.frm.trans hn.frm, fun k hk => (hl.cell k hk).trans (hn.cell k hk), fun m => ?_⟩
    rw [List.foldl_cons, hl.tiles m, hn.tiles m]
    by_cases hm : m ∈ l
    · simp [hm]
    · simp [hm]

end

/-! ## A test ends (R395, R398, R399) -/

/-- Tile `n` has ended its test. -/
def State.testEnds (s : State) (n : Nat) : State :=
  (s.updTile n (fun t => { t with underTest := false, idleSince := s.cycles })).updFrm (fun f => { f with
    testTiles := f.testTiles.filter (· != n) })

/-- With the last tile the window closes: the rotation advances, and a request for a tile of the window is served (R400). -/
def State.windowServed (s : State) : State :=
  let s := s.setFld F.FRM_TEST_ROTOR_NEXT s.frm.testRotation
  let s := if s.frm.testWindow.contains s.frm.testPend then s.setFld F.FRM_TEST_REQ_PENDING 0 else s
  s.updFrm (fun f => { f with testWindow := [] })

def State.windowStands (s : State) : State := if s.frm.testTiles.isEmpty then s.windowServed else s

section
variable {s : State} {n : Nat}

theorem State.testDone_absent (h : s.frm.testTiles.contains n = false) (pass : Bool) : s.testDone n pass = s :=
  if_neg (by rw [h]; decide)

theorem State.testDone_present (h : s.frm.testTiles.contains n = true) (hi : s.injected 6 n = none) (pass : Bool) :
    s.testDone n pass = ((s.testEnds n).testResult n pass).windowStands := by
  rw [State.testDone, if_pos h]
  simp only [State.takeInjection_none hi, Bool.not_false, Bool.and_true]
  rfl

theorem State.windowServed_fld (s : State) {f : Field} (hr : f.reg ≠ R.FRM_TEST_ROTOR) (hq : f.reg ≠ R.FRM_TEST_REQ) :
    s.windowServed.fld f = s.fld f := by
  unfold State.windowServed
  extract_lets s1 s2
  have h1 : s1.fld f = s.fld f := State.fld_setFld_other _ _ hr
  have h2 : s2.fld f = s1.fld f := by
    unfold s2
    split_ifs
    · exact State.fld_setFld_other _ _ hq
    · rfl
  exact (s2.fld_updFrm _ f).trans (h2.trans h1)

/-- A window that closes reaches two registers of the Frame Scheduler. -/
theorem State.windowStands_leaves (s : State) : s.windowStands.tiles = s.tiles ∧ s.windowStands.frm.testTiles = s.frm.testTiles ∧
    ∀ f : Field, f.reg ≠ R.FRM_TEST_ROTOR → f.reg ≠ R.FRM_TEST_REQ → s.windowStands.fld f = s.fld f := by
  unfold State.windowStands
  split_ifs
  · refine ⟨?_, ?_, fun f hr hq => s.windowServed_fld hr hq⟩
    · simp [State.windowServed, apply_ite State.tiles]
    · simp [State.windowServed, apply_ite State.frm]
  · exact ⟨rfl, rfl, fun _ _ _ => rfl⟩

theorem State.windowStands_served (he : s.frm.testTiles = []) (hc : s.frm.testWindow.contains s.frm.testPend = true) :
    s.windowStands.flag F.FRM_TEST_REQ_PENDING = false := by
  rw [State.windowStands, if_pos (by rw [he]; rfl)]
  unfold State.windowServed
  extract_lets s1 s2
  have h2 : s2 = s1.setFld F.FRM_TEST_REQ_PENDING 0 := if_pos hc
  rw [State.flag_of_fld (s2.fld_updFrm _ _), h2]
  exact s1.flag_setFld _ rfl (by decide) false

theorem State.windowStands_last (s : State) : s.TestsLast s.windowStands := by
  have h := State.TestsLast.refl s
  unfold State.windowStands State.windowServed
  split_ifs
  · extract_lets s1 s2
    have h1 : s.TestsLast s1 := h.setFld F.FRM_TEST_ROTOR_NEXT _
    have h2 : s.TestsLast s2 := by
      unfold s2
      split_ifs
      · exact h1.setFld F.FRM_TEST_REQ_PENDING 0
      · exact h1
    exact h2.same (s2.updFrm_shown _)
  · exact h

/-! ### A tile passes (R398) -/

theorem State.testNoted_inner (s : State) (n : Nat) : (s.testNoted n).inner = s.inner := by
  simp [State.testNoted]

theorem State.fld_testNoted (s : State) (n : Nat) {f : Field} (hf : f.reg ≠ R.HIF_MSIX_PBA) : (s.testNoted n).fld f = s.fld f :=
  (State.fld_event _ _ _ hf).trans (State.fld_event _ _ _ hf)

theorem State.tile_of_tiles {s t : State} (h : t.tiles = s.tiles) (n : Nat) : t.tile n = s.tile n := by rw [State.tile, h, State.tile]

theorem State.testPassed_leaves (s : State) (n : Nat) : (s.testPassed n).tile n = s.tile n ∧
    (s.testPassed n).fld (F.TILE_TEST_STATUS_LAST n) = 1 ∧
    (s.testPassed n).fld (F.TILE_TEST_PASS_CNT n) = min (2 ^ 32 - 1) (s.fld (F.TILE_TEST_PASS_CNT n) + 1) ∧ (s.testPassed n).frm = s.frm := by
  have hreg : R.TILE_TEST_STATUS n ≠ R.TILE_TEST_PASS_CNT n := by
    simp only [R.TILE_TEST_STATUS, R.TILE_TEST_PASS_CNT]
    omega
  unfold State.testPassed
  refine ⟨State.tile_of_tiles ((State.setFld_tiles _ _ _).trans (State.setFld_tiles _ _ _)) n, ?_, ?_, by rw [State.bump_frm, State.setFld_frm]⟩
  · exact (State.fld_setFld_other _ _ hreg).trans (State.fld_setFld_same _ _ _ (by decide : 16 ≤ 17) (by decide : 17 < 32))
  · rw [State.fld_bump _ _ (Nat.zero_le _) (by decide : 31 < 32), State.fld_setFld_other _ _ (Ne.symm hreg)]
    rfl

/-- What a pass leaves in the tile and its registers. -/
theorem State.testResult_passed (s : State) (hn : n < 64) :
    let t := s.testResult n true
    (t.tile n).underTest = (s.tile n).underTest ∧ (t.tile n).passAt = s.cycles ∧ t.fld (F.TILE_TEST_STATUS_LAST n) = 1 ∧
      t.fld (F.TILE_TEST_PASS_CNT n) = min (2 ^ 32 - 1) (s.fld (F.TILE_TEST_PASS_CNT n) + 1) ∧ t.frm = s.frm := by
  have hi := s.testNoted_inner n
  have hcnt : (s.testNoted n).fld (F.TILE_TEST_PASS_CNT n) = s.fld (F.TILE_TEST_PASS_CNT n) := s.fld_testNoted n (by
    simp only [F.TILE_TEST_PASS_CNT, R.TILE_TEST_PASS_CNT, R.HIF_MSIX_PBA]
    omega)
  have ht : s.testResult n true = ((s.testNoted n).testPassed n).updTile n (fun t => { t with passAt := (s.testNoted n).cycles, overdue := 0 }) := rfl
  generalize s.testNoted n = u at hi hcnt ht
  obtain ⟨htile, hlast, hpass, hfrm⟩ := u.testPassed_leaves n
  have htile' : u.tile n = s.tile n := (congrArg (fun u : State => u.tile n) hi :)
  generalize u.testPassed n = v at ht htile hlast hpass hfrm
  intro t
  have hfld : ∀ f, t.fld f = v.fld f := fun f => by rw [show t = _ from ht, State.fld, State.cell_updTile, State.fld]
  have hti : t.tile n = _ := (congrArg (fun u : State => u.tile n) ht).trans ((State.tile_updTile ..).trans (if_pos rfl))
  rw [hti, hfld, hfld, htile, htile', hlast, hpass, hcnt]
  refine ⟨rfl, State.cycles_of_inner hi, rfl, rfl, ?_⟩
  rw [show t = _ from ht, State.updTile_frm, hfrm, State.frm_of_inner hi]

/-! ### A tile is withdrawn (R399) -/

/-- TEST_STATUS shows the withdrawal. -/
def State.withdrawalShown (s : State) (n : Nat) : State := (s.setFld (F.TILE_TEST_STATUS_WITHDRAWN n) 1).setFld (F.TILE_TEST_STATUS_LAST n) 2

theorem State.withdrawalShown_spec (s : State) (n : Nat) : (s.withdrawalShown n).tiles = s.tiles ∧ (s.withdrawalShown n).pwr = s.pwr ∧
    (s.withdrawalShown n).fld (F.TILE_TEST_STATUS_LAST n) = 2 ∧
    (s.withdrawalShown n).flag (F.TILE_TEST_STATUS_WITHDRAWN n) = true := by
  unfold State.withdrawalShown
  refine ⟨by rw [State.setFld_tiles, State.setFld_tiles], by rw [State.setFld_pwr, State.setFld_pwr],
    State.fld_setFld_same _ _ _ (by decide : 16 ≤ 17) (by decide : 17 < 32), ?_⟩
  exact (State.flag_setFld_apart _ _ (by decide : 16 ≤ 17) (by decide : 17 < 32) (.inr (.inr (by decide : 17 < 31)))).trans
    (s.flag_setFld _ rfl (by decide : 31 < 32) true)

theorem State.withdrawalNoted_last (s : State) (n : Nat) : (s.withdrawalShown n).TestsLast (s.withdrawalNoted n) := by
  have h := State.TestsLast.refl (s.withdrawalShown n)
  have hl : ∀ m, m < 64 → R.TILE_TEST_STATUS m ≠ R.TILE_LAST_ERR n := fun m _ => by
    simp only [R.TILE_TEST_STATUS, R.TILE_LAST_ERR]
    omega
  unfold State.withdrawalNoted
  extract_lets s1 s2
  have h2 : (s.withdrawalShown n).TestsLast s2 := by
    unfold s2
    split_ifs
    · exact h.setFld F.FRM_WITHDRAWN_LO_TILES _
    · exact h.setFld F.FRM_WITHDRAWN_HI_TILES _
  exact (((h2.setFld (F.TILE_LAST_ERR_CODE n) _ hl).setFld (F.TILE_LAST_ERR_OP n) _ hl).error _ _ _).event_ _ _

/-- A withdrawn tile stays withdrawn, and shows it, while its FAULT and that of the Frame Scheduler take the device into the safe state. -/
theorem State.withdrawTile_spec (s : State) (hn : n < 64) (hp : s.pwr.phase = 0) :
    let t := s.withdrawTile n
    (t.tile n).withdrawn = true ∧ t.fld (F.TILE_TEST_STATUS_LAST n) = 2 ∧ t.flag (F.TILE_TEST_STATUS_WITHDRAWN n) = true ∧
      (t.page (tilePage n)).cond.fault = true ∧ (t.page 0x010).cond.fault = true := by
  have hw : ((s.updTile n (fun t => { t with withdrawn := true })).tile n).withdrawn = true := by rw [State.tile_updTile, if_pos rfl]
  have hpu : (s.updTile n (fun t => { t with withdrawn := true })).pwr.phase = 0 := hp
  rw [State.withdrawTile_eq]
  generalize s.updTile n (fun t => { t with withdrawn := true }) = u at hw hpu
  have hlast := (u.withdrawalNoted_last n).updCond 0x010 (fun c => { c with fault := true }) fun _ _ => rfl
  have hfrm : (((u.withdrawalNoted n).updCond 0x010 (fun c => { c with fault := true })).page 0x010).cond.fault = true :=
    congrArg Cond.fault ((u.withdrawalNoted n).cond_updCond _ 0x010)
  generalize (u.withdrawalNoted n).updCond 0x010 (fun c => { c with fault := true }) = v at hlast hfrm
  have hpv : v.pwr.phase = 0 := by
    rw [hlast.pwr, (u.withdrawalShown_spec n).2.1, hpu]
  have htile : ((v.updCond (tilePage n) (fun c => { c with fault := true })).page (tilePage n)).cond.fault = true := by
    have hc := congrArg Cond.fault (v.cond_updCond (fun c => { c with fault := true }) (tilePage n))
    rwa [(tilePage_own hn).1] at hc
  have hpage : (v.updCond (tilePage n) (fun c => { c with fault := true })).TestsLast (v.pageFault (tilePage n) 0x6021) :=
    State.testsLast_pageFault hpv _ _
  have hend : (v.updCond (tilePage n) (fun c => { c with fault := true })).TestsLast ((v.pageFault (tilePage n) 0x6021).latch Cause.selftestFail 0x6021) :=
    hpage.latch (by rw [hpage.pwr, ((State.TestsLast.refl v).updCond (tilePage n) _ fun _ _ => rfl).pwr, hpv]) _ _
  have hv := ((State.TestsLast.refl v).updCond (tilePage n) (fun c => { c with fault := true }) fun _ _ => rfl).trans hend
  have hall := hlast.trans hv
  have hfault := hv.fault _ hfrm
  have htile := hend.fault _ htile
  generalize (v.pageFault (tilePage n) 0x6021).latch Cause.selftestFail 0x6021 = t at hall hfault htile
  have hfld : ∀ f : Field, f.reg = R.TILE_TEST_STATUS n → t.fld f = (u.withdrawalShown n).fld f := fun f hf =>
    State.fld_of_cell (hf ▸ hall.status n hn)
  obtain ⟨htiles, -, hlast, hmark⟩ := u.withdrawalShown_spec n
  have hdrawn : (t.tile n).withdrawn = true := by rw [hall.withdrawn, State.tile_of_tiles htiles, hw]
  exact ⟨hdrawn, (hfld _ rfl).trans hlast, (State.flag_of_fld (hfld _ rfl)).trans hmark, htile, hfault⟩

end

/-! ## Requests and overdue tests (R398, R400) -/

section
variable (s : State)

/-- A write of TEST_REQ names its tile, and with REQ = 1 the tile of the request. -/
def State.testReqTaken (v : Word) : State :=
  if getBits v 8 8 = 1 then
    ((s.setFld F.FRM_TEST_REQ_TILE (getBits v 5 0)).setFld F.FRM_TEST_REQ_PENDING 1).updFrm (fun f => { f with testPend := getBits v 5 0 })
  else s.setFld F.FRM_TEST_REQ_TILE (getBits v 5 0)

theorem State.writeTestReq_admitted {w : Nat} {v : Word} (h : s.admits 0x011 0x7C w v = true) :
    s.writeTestReq w v = (s.testReqTaken v).wrote 0x011 w := by
  rw [State.writeTestReq, State.onWrite_admitted h]
  rfl

theorem State.testReqTaken_spec (v : Word) :
    let t := s.testReqTaken v
    t.fld F.FRM_TEST_REQ_TILE = getBits v 5 0 ∧ t.mem = s.mem ∧
      t.flag F.FRM_TEST_REQ_PENDING = (s.flag F.FRM_TEST_REQ_PENDING || getBits v 8 8 == 1) ∧
      t.frm.testPend = if getBits v 8 8 = 1 then getBits v 5 0 else s.frm.testPend := by
  have htile : (s.setFld F.FRM_TEST_REQ_TILE (getBits v 5 0)).fld F.FRM_TEST_REQ_TILE = getBits v 5 0 :=
    (s.fld_setFld_same _ _ (by decide) (by decide)).trans (Nat.mod_eq_of_lt (getBits_lt v 5 0))
  have hmem : (s.setFld F.FRM_TEST_REQ_TILE (getBits v 5 0)).mem = s.mem := rfl
  unfold State.testReqTaken
  split_ifs with h
  · generalize s.setFld F.FRM_TEST_REQ_TILE (getBits v 5 0) = u at htile hmem
    have hfld : ∀ f, ((u.setFld F.FRM_TEST_REQ_PENDING 1).updFrm (fun f => { f with testPend := getBits v 5 0 })).fld f
        = (u.setFld F.FRM_TEST_REQ_PENDING 1).fld f := fun f => State.fld_updFrm _ _ f
    refine ⟨?_, (State.updFrm_mem _ _).trans ((State.setFld_mem _ _ _).trans hmem), ?_, congrArg Frm.testPend (State.updFrm_frm _ _)⟩
    · rw [hfld, State.fld_setFld_apart _ _ (by decide) (by decide) (by decide), htile]
    · rw [State.flag_of_fld (hfld _), h, beq_self_eq_true, Bool.or_true]
      exact u.flag_setFld _ rfl (by decide) true
  · refine ⟨htile, rfl, ?_, rfl⟩
    rw [beq_false_of_ne h, Bool.or_false]
    exact s.flag_setFld_apart _ (by decide) (by decide) (by decide)

variable {n k : Nat}

/-- The intervals since the last pass of tile `n`, of those sampled at the last window. -/
def State.intervals (n : Nat) : Nat := ((s.cycles - (s.tile n).passAt) / msCycles 1) / s.frm.testInterval

theorem State.testOverdue_due (hp : s.tilePresent n = true) (hr : s.pstate 0x010 = St.running) (hd : (s.tile n).overdue < s.intervals n)
    (h0 : s.pwr.phase = 0) : ((s.testOverdue n).tile n).overdue = s.intervals n ∧ ((s.testOverdue n).page 0x011).eventRaw.getLsbD 2 = true := by
  have ht : s.testOverdue n = (((s.updTile n (fun t => { t with overdue := s.intervals n })).error 0x011 0x6022 0).event 0x011 2).latch
      Cause.testOverdue 0x6022 := if_pos ⟨hp, hr, hd⟩
  have ho : ((s.updTile n (fun t => { t with overdue := s.intervals n })).tile n).overdue = s.intervals n := by rw [State.tile_updTile, if_pos rfl]
  have h0u : (s.updTile n (fun t => { t with overdue := s.intervals n })).pwr.phase = 0 := h0
  rw [ht]
  generalize s.updTile n (fun t => { t with overdue := s.intervals n }) = u at ho h0u
  have hnoted := ((State.TestsLast.refl u).error 0x011 0x6022 0).event_ 0x011 2
  have hlatch := (State.TestsLast.refl ((u.error 0x011 0x6022 0).event 0x011 2)).latch (by rw [hnoted.pwr, h0u]) Cause.testOverdue 0x6022
  exact ⟨((hnoted.trans hlatch).overdue n).trans ho, hlatch.event _ _ (State.event_raised _ _ (by decide))⟩

theorem State.testOverdue_counted (h : s.intervals n ≤ (s.tile n).overdue) : s.testOverdue n = s :=
  if_neg fun hx => absurd hx.2.2 (Nat.not_lt.mpr h)

end

/-! ### The commands -/

section
variable (s : State) (dt n : Nat)

theorem State.exec_testWindowOpen : exec (.testWindowOpen dt) s = .next (s.arrive dt).testWindowOpen := rfl
theorem State.exec_testDone (pass : Bool) : exec (.testDone dt n pass) s = .next ((s.arrive dt).testDone n pass) := rfl
theorem State.exec_testReq (w : Nat) (v : Word) : exec (.testReq dt w v) s = .next ((s.arriveBy dt w).writeTestReq w v) := rfl
theorem State.exec_testOverdue : exec (.testOverdue dt n) s = .next ((s.arrive dt).testOverdue n) := rfl

end

/-- A window that opens puts its tiles under test (R396, R400). -/
theorem State.testWindowOpen_spec {s : State} (h : s.windowMayOpen = true) :
    let t := s.testWindowOpen
    t.frm.testDoneInFrame = true ∧ (∀ n ∈ t.frm.testTiles, (t.tile n).underTest = true) ∧
      (s.flag F.FRM_TEST_REQ_PENDING = true → t.frm.testTiles.head? = some s.frm.testPend) ∧ t.frm.testWindow = t.frm.testTiles ∧
      t.frm.testInterval = s.fld F.FRM_TEST_CFG_INTERVAL_MS ∧ t.frm.testTiles.length ≤ max 1 (s.fld F.FRM_TEST_CFG_GROUP) ∧ s.SameBytes t := by
  have hk : s.TakesTests s.windowTiles s.windowTaken := s.foldl_takeTest _
  rw [State.testWindowOpen_opens s h]
  refine ⟨rfl, fun n hn => ?_, fun hp => ?_, rfl, ?_, s.windowTiles_length, State.sameBytes_of hk.bytes⟩
  · exact (hk.tiles n).trans (if_pos hn)
  · exact congrArg List.head? (if_pos hp)
  · exact State.fld_of_cell (f := F.FRM_TEST_CFG_INTERVAL_MS) (hk.cell _ (by decide))

/-- A tile of the window that passes is no longer under test, and with the last one a request for a tile of the window is served (R398, R400). -/
theorem State.testDone_passes {s : State} {n : Nat} (hn : n < 64) (hc : s.frm.testTiles.contains n = true) (hi : s.injected 6 n = none) :
    let t := s.testDone n true
    (t.tile n).underTest = false ∧ (t.tile n).passAt = s.cycles ∧ t.fld (F.TILE_TEST_STATUS_LAST n) = 1 ∧
      t.fld (F.TILE_TEST_PASS_CNT n) = min (2 ^ 32 - 1) (s.fld (F.TILE_TEST_PASS_CNT n) + 1) ∧
      t.frm.testTiles = s.frm.testTiles.filter (· != n) ∧
      (t.frm.testTiles = [] → s.frm.testWindow.contains s.frm.testPend = true → t.flag F.FRM_TEST_REQ_PENDING = false) := by
  have hlast : R.TILE_TEST_STATUS n ≠ R.FRM_TEST_ROTOR ∧ R.TILE_TEST_STATUS n ≠ R.FRM_TEST_REQ := by
    simp only [R.TILE_TEST_STATUS, R.FRM_TEST_ROTOR, R.FRM_TEST_REQ]
    omega
  have hpass : R.TILE_TEST_PASS_CNT n ≠ R.FRM_TEST_ROTOR ∧ R.TILE_TEST_PASS_CNT n ≠ R.FRM_TEST_REQ := by
    simp only [R.TILE_TEST_PASS_CNT, R.FRM_TEST_ROTOR, R.FRM_TEST_REQ]
    omega
  have hunder : ((s.testEnds n).tile n).underTest = false := by
    rw [State.testEnds, State.tile_of_tiles (State.updFrm_tiles _ _), State.tile_updTile, if_pos rfl]
  have hcount : (s.testEnds n).fld (F.TILE_TEST_PASS_CNT n) = s.fld (F.TILE_TEST_PASS_CNT n) := rfl
  obtain ⟨htest, hat, hshown, hcnt, hfrm⟩ := (s.testEnds n).testResult_passed hn
  rw [State.testDone_present hc hi]
  generalize (s.testEnds n).testResult n true = u at htest hat hshown hcnt hfrm
  obtain ⟨htiles, hleft, hfld⟩ := u.windowStands_leaves
  have hwindow : u.frm.testTiles = s.frm.testTiles.filter (· != n) := congrArg Frm.testTiles hfrm
  refine ⟨?_, ?_, ?_, ?_, hleft.trans hwindow, fun he hreq => ?_⟩
  · rw [State.tile_of_tiles htiles, htest, hunder]
  · rw [State.tile_of_tiles htiles, hat]
    rfl
  · exact (hfld _ hlast.1 hlast.2).trans hshown
  · rw [hfld _ hpass.1 hpass.2, hcnt, hcount]
  · refine State.windowStands_served (hleft.symm.trans he) ?_
    rw [hfrm]
    exact hreq

/-- A tile of the window that fails is withdrawn (R399). -/
theorem State.testDone_fails {s : State} {n : Nat} (hn : n < 64) (hc : s.frm.testTiles.contains n = true) (hi : s.injected 6 n = none)
    (hp : s.pwr.phase = 0) :
    let t := s.testDone n false
    (t.tile n).withdrawn = true ∧ t.fld (F.TILE_TEST_STATUS_LAST n) = 2 ∧ t.flag (F.TILE_TEST_STATUS_WITHDRAWN n) = true ∧
      (t.page (tilePage n)).cond.fault = true ∧ (t.page 0x010).cond.fault = true := by
  have hphase : ((s.testEnds n).testNoted n).pwr.phase = 0 :=
    (congrArg (fun u : State => u.pwr.phase) ((s.testEnds n).testNoted_inner n)).trans hp
  have hres : (s.testEnds n).testResult n false = ((s.testEnds n).testNoted n).withdrawTile n := rfl
  rw [State.testDone_present hc hi, hres]
  obtain ⟨hdrawn, hlast, hshown, htile, hfrm⟩ := ((s.testEnds n).testNoted n).withdrawTile_spec hn hphase
  generalize ((s.testEnds n).testNoted n).withdrawTile n = u at hdrawn hlast hshown htile hfrm
  have h := u.windowStands_last
  have hfld : ∀ f : Field, f.reg = R.TILE_TEST_STATUS n → u.windowStands.fld f = u.fld f := fun f hf => State.fld_of_cell (hf ▸ h.status n hn)
  exact ⟨(h.withdrawn n).trans hdrawn, (hfld _ rfl).trans hlast, (State.flag_of_fld (hfld _ rfl)).trans hshown, h.fault _ htile, h.fault _ hfrm⟩

/-- Settles O38, command by command. That a withdrawal and an overdue test stand while the device enters the safe state rests on
`State.TestsLast.enterSafe`. -/
theorem tilesTested : Obligations.TilesTested := by
  intro s dt a
  refine ⟨fun h => ?_, fun h => ⟨_, s.exec_testWindowOpen dt, State.testWindowOpen_spec h⟩, fun n hn hc hi => ⟨?_, fun hp => ?_⟩,
    fun n pass h => ?_, fun w v => ?_, fun n hn => ⟨fun hp hr h0 hd => ?_, fun h => ?_⟩⟩
  · exact (s.exec_testWindowOpen dt).trans (congrArg _ (if_neg (by rw [h]; decide)))
  · exact ⟨_, s.exec_testDone dt n true, State.testDone_passes hn hc hi⟩
  · exact ⟨_, s.exec_testDone dt n false, State.testDone_fails hn hc hi hp⟩
  · exact (s.exec_testDone dt n pass).trans (congrArg _ (State.testDone_absent h pass))
  · intro b h
    obtain ⟨htile, hmem, hpending, hnamed⟩ := b.testReqTaken_spec v
    have ht := (s.exec_testReq dt w v).trans (congrArg _ (b.writeTestReq_admitted h))
    generalize b.testReqTaken v = u at htile hmem hpending hnamed ht
    exact ⟨_, ht, (u.fld_wrote _ _ _).trans htile, u.wrote_lastWriter _ _, (u.wrote_mem _ _).trans hmem,
      (State.flag_of_fld (u.fld_wrote _ _ _)).trans hpending, (congrArg Frm.testPend (u.wrote_frm _ _)).trans hnamed⟩
  · exact ⟨_, s.exec_testOverdue dt n, a.testOverdue_due hp hr hd h0⟩
  · exact (s.exec_testOverdue dt n).trans (congrArg _ (a.testOverdue_counted h))

end Sys2Proof.Machine
end

section
/-! PROOFS. Where the addresses of DRAM lie (R411, R414 to R416): an address names one place, and a line lies in one line of one channel. -/

namespace Sys2Proof.Machine

/-! ## Interleaved addresses (R415) -/

/-- Bits of a number at or above bit `k` are bits of its quotient by 2^k. -/
theorem natBits_div (n : Nat) {hi lo : Nat} (k : Nat) (hk : k ≤ lo) (hl : lo ≤ hi) : natBits n hi lo = natBits (n / 2 ^ k) (hi - k) (lo - k) := by
  have hw : hi - k + 1 - (lo - k) = hi + 1 - lo := by omega
  rw [natBits, natBits, hw, Nat.shiftRight_eq_div_pow, Nat.shiftRight_eq_div_pow, Nat.div_div_eq_div_mul, ← Nat.pow_add, Nat.add_sub_cancel' hk]

theorem ilvChannel_lt (d : Nat) : ilvChannel d < 8 :=
  Nat.xor_lt_two_pow (n := 3) (Nat.xor_lt_two_pow (Nat.xor_lt_two_pow (natBits_lt d 10 8) (natBits_lt d 13 11)) (natBits_lt d 16 14))
    (natBits_lt d 19 17)

theorem ilvAddr_eq {d : Nat} (h : d < 2 ^ 36) : ilvAddr d = d / 2048 * 256 + d % 256 := by
  have h1 : natBits d 35 11 = d / 2048 := by
    rw [natBits, Nat.shiftRight_eq_div_pow]
    omega
  have h2 : natBits d 7 0 = d % 256 := rfl
  rw [ilvAddr, h1, h2]

/-- The channel is that of the line. -/
theorem ilvChannel_line {d e : Nat} (h : e / 64 = d / 64) : ilvChannel e = ilvChannel d := by
  have hb : ∀ hi lo, 6 ≤ lo → lo ≤ hi → natBits e hi lo = natBits d hi lo := fun hi lo hk hl => by
    have h6 : e / 2 ^ 6 = d / 2 ^ 6 := h
    rw [natBits_div e 6 hk hl, h6, ← natBits_div d 6 hk hl]
  rw [ilvChannel, hb 10 8 (by decide) (by decide), hb 13 11 (by decide) (by decide), hb 16 14 (by decide) (by decide),
    hb 19 17 (by decide) (by decide), ilvChannel]

/-- Two interleaved addresses with one place are one: the channel address holds all bits but 10:8, and the channel gives those. -/
theorem ilv_inj {d e : Nat} (hd : d < 2 ^ 36) (he : e < 2 ^ 36) (hc : ilvChannel d = ilvChannel e) (ha : ilvAddr d = ilvAddr e) : d = e := by
  rw [ilvAddr_eq hd, ilvAddr_eq he] at ha
  have hq : d / 2 ^ 11 = e / 2 ^ 11 := by omega
  have hb : ∀ hi lo, 11 ≤ lo → lo ≤ hi → natBits d hi lo = natBits e hi lo := fun hi lo hk hl => by
    rw [natBits_div d 11 hk hl, hq, ← natBits_div e 11 hk hl]
  rw [ilvChannel, hb 13 11 (by decide) (by decide), hb 16 14 (by decide) (by decide), hb 19 17 (by decide) (by decide), ilvChannel,
    Nat.xor_left_inj, Nat.xor_left_inj, Nat.xor_left_inj, natBits, natBits, Nat.shiftRight_eq_div_pow, Nat.shiftRight_eq_div_pow] at hc
  omega

/-! ## DRAM in the address map -/

variable {s : State}

/-- The mailboxes' area begins and ends at the bounds of lines (R629). -/
theorem State.areaOff_line {d e : Nat} (h : s.areaOff d = none) (hl : e / 64 = d / 64) : s.areaOff e = none := by
  simp only [State.areaOff, ite_eq_right_iff, Bool.and_eq_true, Nat.ble_eq, Nat.blt_eq, reduceCtorEq, imp_false, not_and, not_lt] at h ⊢
  intro hc
  have := h ⟨hc.1, by have := hc.2; omega⟩
  omega

/-- What an address of DRAM is: below DRAM_TOP, or in a shard window, and in no mailbox area. -/
theorem State.home_dram (hs : s.mem.shardBase4M < 2048) {d c x : Nat} : s.home d = .dram c x ↔ s.areaOff d = none ∧
    ((d < s.dramTop ∧ c = ilvChannel d ∧ x = ilvAddr d) ∨
      (0x002000000000 ≤ d ∧ d < 0x003000000000 ∧ c = (d - 0x002000000000) / 0x200000000 ∧
        (d - 0x002000000000) % 0x200000000 < s.shardSize ∧ x = s.shardBase + (d - 0x002000000000) % 0x200000000)) := by
  have ht : s.dramTop < 2 ^ 36 := by
    simp only [State.dramTop, State.shardBase]
    omega
  unfold State.home
  cases ha : s.areaOff d with
  | some y => simp
  | none =>
    dsimp only
    by_cases hi : d < s.dramTop
    · rw [if_neg (by omega), if_neg (by omega), if_pos hi]
      simp only [Home.dram.injEq, true_and, hi, eq_comm (a := c), eq_comm (a := x)]
      exact ⟨Or.inl, fun h => h.resolve_right fun g => by omega⟩
    · by_cases hw : 0x002000000000 ≤ d ∧ d < 0x003000000000
      · rw [if_neg (by omega), if_neg (by omega), if_neg hi, if_neg (by omega), if_neg (by omega), if_neg (by omega), if_pos hw.2]
        have hn : (d - 0x002000000000) / 0x200000000 < 8 := by omega
        split_ifs with ho
        · simp [hi, hw, ho.2, eq_comm]
        · have ho : ¬ (d - 0x002000000000) % 0x200000000 < s.shardSize := fun g => ho ⟨hn, g⟩
          simp [hi, ho]
      · refine ⟨fun h => absurd h ?_, fun h => absurd h ?_⟩
        · unfold State.windowHome
          dsimp only
          split_ifs <;> simp
          omega
        · rintro ⟨-, h | h⟩
          · exact hi h.1
          · exact hw ⟨h.1, h.2.1⟩

/-- The place of an address of DRAM: its channel, and a channel address of 33 bits. -/
theorem State.home_dram_lt (hs : s.mem.shardBase4M < 2048) (hg : s.mem.chGib ≤ 8) {d c x : Nat} (h : s.home d = .dram c x) : c < 8 ∧ x < 2 ^ 33 := by
  obtain ⟨-, ⟨hd, hc, hx⟩ | ⟨hl, hh, hc, ho, hx⟩⟩ := (State.home_dram hs).mp h
  · simp only [State.dramTop, State.shardBase] at hd
    rw [ilvAddr_eq (d := d) (by omega)] at hx
    exact ⟨hc ▸ ilvChannel_lt d, by omega⟩
  · simp only [State.shardSize, State.shardBase, State.chanU] at ho hx
    omega

/-- A bound that is a multiple of 64 parts no line. -/
theorem lt_of_line {u v n : Nat} (h : v / 64 = u / 64) (hn : n % 64 = 0) (hu : u < n) : v < n := by
  omega

/-- The addresses of one line lie in one line of the channel, each at its place there. -/
theorem State.home_dram_line (hs : s.mem.shardBase4M < 2048) {d e c x : Nat} (h : s.home d = .dram c x) (hl : e / 64 = d / 64) :
    s.home e = .dram c (x / 64 * 64 + e % 64) ∧ x % 64 = d % 64 := by
  obtain ⟨ha, ⟨hd, hc, hx⟩ | ⟨hlo, hh, hc, ho, hx⟩⟩ := (State.home_dram hs).mp h
  · have ht : s.dramTop < 2 ^ 36 ∧ s.dramTop % 64 = 0 := by
      simp only [State.dramTop, State.shardBase]
      omega
    have hd' := ilvAddr_eq (d := d) (by omega)
    have he' := ilvAddr_eq (d := e) (by omega)
    refine ⟨(State.home_dram hs).mpr ⟨State.areaOff_line ha hl, Or.inl ⟨by omega, hc.trans (ilvChannel_line hl).symm, by omega⟩⟩,
      by omega⟩
  · have hb : s.shardBase % 64 = 0 ∧ s.shardSize % 64 = 0 := by
      simp only [State.shardSize, State.shardBase, State.chanU]
      omega
    have he : 0x002000000000 ≤ e ∧ e < 0x003000000000 ∧ (e - 0x002000000000) / 0x200000000 = (d - 0x002000000000) / 0x200000000 := by omega
    have hm : (e - 0x002000000000) % 0x200000000 / 64 = (d - 0x002000000000) % 0x200000000 / 64 := by omega
    have ho' : (e - 0x002000000000) % 0x200000000 < s.shardSize := lt_of_line hm hb.2 ho
    have hx' : x / 64 * 64 + e % 64 = s.shardBase + (e - 0x002000000000) % 0x200000000 := by omega
    exact ⟨(State.home_dram hs).mpr ⟨State.areaOff_line ha hl, Or.inr ⟨he.1, he.2.1, hc.trans he.2.2.symm, ho', hx'⟩⟩, by omega⟩

/-- Two addresses at one place of DRAM are one (R414): interleaved addresses end below SHARD_BASE, and shard windows begin there. -/
theorem State.home_dram_inj (hs : s.mem.shardBase4M < 2048) {d e c x : Nat} (hd : s.home d = .dram c x) (he : s.home e = .dram c x) : d = e := by
  have hbelow : ∀ {f : Nat}, f < s.dramTop → f < 2 ^ 36 ∧ ilvAddr f < s.shardBase := fun {f} hf => by
    simp only [State.dramTop, State.shardBase] at hf ⊢
    rw [ilvAddr_eq (by omega)]
    omega
  obtain ⟨-, ⟨hdt, hdc, hdx⟩ | ⟨hdl, -, hdc, -, hdx⟩⟩ := (State.home_dram hs).mp hd <;>
  obtain ⟨-, ⟨het, hec, hex⟩ | ⟨hel, -, hec, -, hex⟩⟩ := (State.home_dram hs).mp he
  · exact ilv_inj (hbelow hdt).1 (hbelow het).1 (hdc.symm.trans hec) (hdx.symm.trans hex)
  · have := hbelow hdt
    omega
  · have := hbelow het
    omega
  · omega

theorem State.home_cellar_inj {d e t o : Nat} (hd : s.home d = .cellar t o) (he : s.home e = .cellar t o) : d = e := by
  obtain ⟨-, -, hdl, -, -, ht, ho⟩ := State.home_cellar.mp hd
  obtain ⟨-, -, hel, -, -, ht', ho'⟩ := State.home_cellar.mp he
  omega

end Sys2Proof.Machine
end

section
/-! PROOFS. Bytes that are stored and read within one line of DRAM (R412, R427, R437). -/

namespace Sys2Proof.Machine

variable {s t : State}

/-! ## What bytes and places depend on -/

/-- What the bytes at the device's addresses depend on, but for the counts of a Churn unit and the reply to a request. -/
def State.dramSource (s : State) : MemState × Fuses × Word × Word × Word :=
  ({ s.mem with combine := [], counts := [], reply := none }, s.byteSource.2)

theorem State.dramSource_of (h : t.byteSource = s.byteSource) : t.dramSource = s.dramSource :=
  congrArg (fun x => ({ x.1 with counts := [], reply := none }, x.2)) h

section
variable (h : t.dramSource = s.dramSource)
include h

theorem State.sameBytes_of_dramSource : s.SameBytes t := fun d =>
  State.sameBytes_of (s := s.updMem fun m => { m with counts := [], reply := none }) (t := t.updMem fun m => { m with counts := [], reply := none }) h d

theorem State.home_of_dramSource (d : Nat) : t.home d = s.home d := by
  have hb : t.mem.shardBase4M = s.mem.shardBase4M := (congrArg (·.1.shardBase4M) h :)
  have hg : t.mem.chGib = s.mem.chGib := (congrArg (·.1.chGib) h :)
  have hf : t.fuses = s.fuses := (congrArg (·.2.1) h :)
  have h1 : t.fld F.MBX_AREA_LO_ADDR = s.fld F.MBX_AREA_LO_ADDR := State.fld_of_cell (congrArg (·.2.2.1) h :)
  have h2 : t.fld F.MBX_AREA_HI_ADDR = s.fld F.MBX_AREA_HI_ADDR := State.fld_of_cell (congrArg (·.2.2.2.1) h :)
  have h3 : t.fld F.MBX_CFG_AREA_EN = s.fld F.MBX_CFG_AREA_EN := State.fld_of_cell (congrArg (·.2.2.2.2) h :)
  have ha : t.areaOff d = s.areaOff d := by
    simp only [State.areaOff, State.flag, h1, h2, h3]
    rfl
  have hp : ∀ n, t.tilePresent n = s.tilePresent n := fun n => by rw [State.tilePresent, hf, State.tilePresent]
  simp only [State.home, ha, State.dramTop, State.shardSize, State.shardBase, State.windowHome, State.chanU, hg, hb, hp]
  rfl

theorem State.dramPoison_of_dramSource : t.mem.dramPoison = s.mem.dramPoison := (congrArg (·.1.dramPoison) h :)
theorem State.upsets_of_dramSource : t.mem.upsets = s.mem.upsets := (congrArg (·.1.upsets) h :)
theorem State.failed_of_dramSource : t.mem.failed = s.mem.failed := (congrArg (·.1.failed) h :)
theorem State.shardBase4M_of_dramSource : t.mem.shardBase4M = s.mem.shardBase4M := (congrArg (·.1.shardBase4M) h :)
theorem State.chGib_of_dramSource : t.mem.chGib = s.mem.chGib := (congrArg (·.1.chGib) h :)

end

/-! ## Stored bytes, and parts of them -/

theorem State.peek_length (s : State) (d n : Nat) : (s.peek d n).length = n := by simp [State.peek]

/-- A part of bytes that stand in a row. -/
theorem State.peek_part (s : State) (d : Nat) {n i k : Nat} (h : i + k ≤ n) : ((s.peek d n).drop i).take k = s.peek (d + i) k := by
  refine List.ext_getElem (by simp [State.peek]; omega) fun j _ _ => ?_
  simp [State.peek, Nat.add_assoc]

theorem State.SameBytes.peek (h : s.SameBytes t) (d n : Nat) : t.peek d n = s.peek d n := by
  simp only [State.peek, h _]

/-- From `s` to `t` the bytes `bs` are stored at `d`, and every other byte reads as before. -/
def State.Stores (s t : State) (d : Nat) (bs : List Byte) : Prop :=
  ∀ e, t.peekByte e = (if d ≤ e then bs[e - d]? else none).getD (s.peekByte e)

section
variable {d : Nat} {bs : List Byte} (h : s.Stores t d bs)
include h

theorem State.Stores.outside {e : Nat} (he : e < d ∨ d + bs.length ≤ e) : t.peekByte e = s.peekByte e := by
  rw [h e]
  rcases he with he | he
  · rw [if_neg (by omega)]
    rfl
  · rw [if_pos (by omega), List.getElem?_eq_none (by omega)]
    rfl

theorem State.Stores.peek : t.peek d bs.length = bs := by
  refine List.ext_getElem (by simp [State.peek]) fun i _ hi => ?_
  simp only [State.peek, List.getElem_map, List.getElem_range]
  rw [h (d + i), if_pos (by omega), Nat.add_sub_cancel_left, List.getElem?_eq_getElem hi]
  rfl

theorem State.Stores.peek_part {i k : Nat} (hi : i + k ≤ bs.length) : t.peek (d + i) k = (bs.drop i).take k := by
  rw [← t.peek_part d hi, h.peek]

theorem State.Stores.between {s' t' : State} (hs : s'.SameBytes s) (ht : t.SameBytes t') : s'.Stores t' d bs := fun e => by
  rw [ht e, h e, hs e]

end

/-! ## Reads of a line -/

/-- The POISON mark of the line of channel address `x` (R437). -/
def State.lineMark (s : State) (c x : Nat) : Bool := Sparse.get noMark s.mem.dramPoison (dramKey c x / 64)

theorem State.readByte_dram {d c x : Nat} (h : s.home d = .dram c x) (hf : s.mem.failed.contains c = false) :
    s.readByte d = (s.peekByte d, s.lineMark c x, 0) := by
  rw [State.readByte, h]
  dsimp only
  rw [State.localByte, h]
  dsimp only
  rw [hf, State.peekByte, h]
  rfl

/-- Bytes read from one line: as they are stored, poisoned where the line is marked, and without a code. -/
theorem State.read_line {c k : Nat} (hf : s.mem.failed.contains c = false) (n d : Nat)
    (hh : ∀ e, d ≤ e → e < d + n → ∃ y, s.home e = .dram c y ∧ dramKey c y / 64 = k) :
    s.read d n = ⟨s.peek d n, decide (0 < n) && Sparse.get noMark s.mem.dramPoison k, 0⟩ := by
  induction n generalizing d with
  | zero => rfl
  | succ n ih =>
    obtain ⟨y, hy, hk⟩ := hh d (Nat.le_refl d) (by omega)
    have hp : s.peek d (n + 1) = s.peekByte d :: s.peek (d + 1) n := by
      simp [State.peek, List.range_succ_eq_map, Function.comp_def, Nat.add_assoc, Nat.add_comm 1]
    rw [State.read, State.readByte_dram hy hf, ih (d + 1) (fun e h1 h2 => hh e (by omega) (by omega)), hp, State.lineMark, hk]
    cases Sparse.get noMark s.mem.dramPoison k <;> simp

variable {d c x : Nat} (hs : s.mem.shardBase4M < 2048) (h : s.home d = .dram c x)
include hs h

/-- The key of a byte of the line of `d`. -/
theorem State.dramKey_line {e : Nat} (he : e / 64 = d / 64) : dramKey c (x / 64 * 64 + e % 64) / 64 = dramKey c x / 64 ∧
    dramKey c (x / 64 * 64 + e % 64) + d = dramKey c x + e := by
  have hx := (State.home_dram_line hs h he).2
  simp only [dramKey]
  omega

theorem State.read_inLine (hf : s.mem.failed.contains c = false) {n : Nat} (hn : inLine d n = true) :
    s.read d n = ⟨s.peek d n, s.lineMark c x, 0⟩ := by
  simp only [inLine, Bool.and_eq_true, Nat.ble_eq] at hn
  rw [State.read_line hf n d fun e h1 h2 => ?_, decide_eq_true (by omega), Bool.true_and, State.lineMark]
  have he : e / 64 = d / 64 := by omega
  exact ⟨_, (State.home_dram_line hs h he).1, (State.dramKey_line hs h he).1⟩

/-! ## Writes within a line -/

/-- The bytes of DRAM and their marks are as given. -/
def State.dramPut (s : State) (m : Mem) (p : Sparse Bool) : State := s.updMem (fun y => { y with dram := m, dramPoison := p })

/-- Bytes that enter the DRAM within one line are those at the line's addresses: no other address names a place in it. -/
theorem State.dramPut_stores (hg : s.mem.chGib ≤ 8) {bs : List Byte} (hn : d % 64 + bs.length ≤ 64) (p : Sparse Bool) :
    s.Stores (s.dramPut (Mem.writeAt byte0 s.mem.dram (dramKey c x) bs) p) d bs := fun e => by
  cases he : s.home e with
  | dram c' y =>
    have ht : (s.dramPut (Mem.writeAt byte0 s.mem.dram (dramKey c x) bs) p).peekByte e =
        Sparse.get byte0 (Mem.writeAt byte0 s.mem.dram (dramKey c x) bs) (dramKey c' y) := by
      have hh : (s.dramPut (Mem.writeAt byte0 s.mem.dram (dramKey c x) bs) p).home e = .dram c' y := he
      rw [State.peekByte, hh]
      rfl
    have hse : s.peekByte e = Sparse.get byte0 s.mem.dram (dramKey c' y) := by rw [State.peekByte, he]
    rw [ht, Mem.get_writeAt, hse]
    by_cases hl : e / 64 = d / 64
    · obtain ⟨rfl, rfl⟩ : c' = c ∧ y = x / 64 * 64 + e % 64 := by
        simpa using he.symm.trans (State.home_dram_line hs h hl).1
      have hk := (State.dramKey_line hs h hl).2
      have hle : dramKey c' x ≤ dramKey c' (x / 64 * 64 + e % 64) ↔ d ≤ e := by omega
      simp only [hle]
      split_ifs with hd
      · have hi : dramKey c' (x / 64 * 64 + e % 64) - dramKey c' x = e - d := by omega
        rw [hi]
      · rfl
    · have hx := State.home_dram_lt hs hg h
      have hy := State.home_dram_lt hs hg he
      have hxl := (State.home_dram_line hs h rfl).2
      have hfar : c' ≠ c ∨ y / 64 ≠ x / 64 := by
        by_contra hc
        obtain ⟨rfl, hq⟩ : c' = c ∧ y / 64 = x / 64 := by
          constructor <;> by_contra hne <;> exact hc (by simp [hne])
        have hline := (State.home_dram_line hs h (e := d / 64 * 64 + y % 64) (by omega)).1
        have hyx : x / 64 * 64 + (d / 64 * 64 + y % 64) % 64 = y := by omega
        rw [hyx] at hline
        have := State.home_dram_inj hs he hline
        omega
      have hnone : ∀ (a b : Nat), (a < b ∨ b + bs.length ≤ a) → (if b ≤ a then bs[a - b]? else none) = none := fun a b hab => by
        split_ifs with hba
        · exact List.getElem?_eq_none (by omega)
        · rfl
      rw [hnone _ _ (by simp only [dramKey]; omega), hnone _ _ (by omega)]
  | _ =>
    have hh : (s.dramPut (Mem.writeAt byte0 s.mem.dram (dramKey c x) bs) p).peekByte e = s.peekByte e := by
      have hh : (s.dramPut (Mem.writeAt byte0 s.mem.dram (dramKey c x) bs) p).home e = s.home e := rfl
      simp only [State.peekByte, hh, he] <;> rfl
    have hl : ¬ e / 64 = d / 64 := fun hl => by
      have := he.symm.trans (State.home_dram_line hs h hl).1
      simp at this
    rw [hh]
    split_ifs with hd
    · rw [List.getElem?_eq_none (by omega)]
      rfl
    · rfl

end Sys2Proof.Machine
end

section
/-! PROOFS. What an access to one line of DRAM does to the state: its bytes, the mark of the line, and what it leaves (R412, R425 to R429, R437). -/

namespace Sys2Proof.Machine

/-! ## The combining buffers, the row cache and the counters -/

section
variable (s : State)

/-- The state without what the combining buffers hold. -/
def State.uncombined (s : State) : State := s.updMem (fun m => { m with combine := [] })

theorem State.flushRange_uncombined (d n : Nat) : (s.flushRange d n).uncombined = s.uncombined := by
  unfold State.flushRange
  split_ifs
  · rfl
  · refine foldl_leaves State.uncombined (fun s i => ?_) _ s
    split <;> rfl

theorem State.flushRange_regs (d n : Nat) : (s.flushRange d n).regs = s.regs := (congrArg State.regs (s.flushRange_uncombined d n) :)
theorem State.flushRange_hdr (d n : Nat) : (s.flushRange d n).hdr = s.hdr := (congrArg State.hdr (s.flushRange_uncombined d n) :)
theorem State.flushRange_grf (d n : Nat) : (s.flushRange d n).grf = s.grf := (congrArg State.grf (s.flushRange_uncombined d n) :)
theorem State.flushRange_dramSource (d n : Nat) : (s.flushRange d n).dramSource = s.dramSource :=
  State.dramSource_of (congrArg Prod.fst (s.flushRange_readSource d n))

theorem State.grf_event (p b : Nat) : (s.event p b).grf = s.grf := (congrArg State.grf (s.event_inner p b) :)

theorem State.combineTouch_leaves (c line : Nat) : (s.combineTouch c line).dramSource = s.dramSource ∧ (s.combineTouch c line).grf = s.grf := by
  unfold State.combineTouch
  dsimp only
  split_ifs
  · exact ⟨State.dramSource_of (State.byteSource_event _ _ _), State.grf_event _ _ _⟩
  · exact ⟨rfl, rfl⟩

/-- A count of 32 bits in a page of a memory controller is no register of the mailboxes' area. -/
theorem memcReg_not_area {c k : Nat} (hc : c < 8) (hk : k < 0x2000) : 0xC0000 + k + 0x2000 * c ∉ [R.MBX_AREA_LO, R.MBX_AREA_HI, R.MBX_CFG] := by
  simp only [R.MBX_AREA_LO, R.MBX_AREA_HI, R.MBX_CFG, List.mem_cons, List.not_mem_nil, or_false]
  omega

theorem State.countChurn_leaves (k n : Nat) {f : Field} (hf : f.reg ∉ [R.MBX_AREA_LO, R.MBX_AREA_HI, R.MBX_CFG]) :
    (s.countChurn k n f).dramSource = s.dramSource ∧ (s.countChurn k n f).grf = s.grf := by
  unfold State.countChurn
  dsimp only
  split_ifs
  · exact ⟨(State.dramSource_of (State.byteSource_setFld (s.updMem _) f _ hf)).trans rfl, rfl⟩
  · exact ⟨rfl, rfl⟩

theorem State.uncacheAt_eq (c x n : Nat) : ∃ f, s.uncacheAt c x n = s.updEtu f := by
  unfold State.uncacheAt
  split_ifs
  · exact ⟨id, rfl⟩
  · exact ⟨_, rfl⟩

/-- A mark that rises is counted and raises its event; the bytes stand. -/
theorem State.notePoison_leaves {c : Nat} (hc : c < 8) (m0 m1 : Bool) : (s.notePoison c m0 m1).byteSource = s.byteSource ∧
    (s.notePoison c m0 m1).grf = s.grf := by
  have hf : (F.MEMC_POISON_CNT c).reg ∉ [R.MBX_AREA_LO, R.MBX_AREA_HI, R.MBX_CFG] := memcReg_not_area (k := 0x1054) hc (by decide)
  unfold State.notePoison
  split_ifs
  · exact ⟨(State.byteSource_event _ _ _).trans (State.byteSource_setFld _ _ _ hf), State.grf_event _ _ _⟩
  · exact ⟨rfl, rfl⟩

theorem State.notePoison_lower {c : Nat} (m0 : Bool) (n size : Nat) : s.notePoison c m0 (markAfter m0 false n size) = s := by
  refine if_neg ?_
  cases m0 <;> simp [markAfter]

end

/-! ## A write within a line -/

section
variable {s : State} {d c x : Nat} (hs : s.mem.shardBase4M < 2048) (hg : s.mem.chGib ≤ 8) (h : s.home d = .dram c x)
  (hf : s.mem.failed.contains c = false) (hu : s.mem.upsets = [])
include h hf hu

theorem State.localUnit_dram (o : Bool) (bs : List Byte) (p : Bool) : s.localUnit o d bs p =
    ((s.uncacheAt c x bs.length).dramPut (Mem.writeAt byte0 s.mem.dram (dramKey c x) bs)
      (Sparse.set noMark s.mem.dramPoison (dramKey c x / 64) (markAfter (s.lineMark c x) p bs.length 64))).notePoison c
        (s.lineMark c x) (markAfter (s.lineMark c x) p bs.length 64) := by
  obtain ⟨f, hc⟩ := s.uncacheAt_eq c x bs.length
  have hmend : ∀ u, (s.updEtu f).mendUnit false u = s.updEtu f := fun u => if_pos (congrArg List.isEmpty hu)
  have hmeet : ((s.updEtu f).meetLine c x (d / 64 * 64)).2 = s.updEtu f := by
    have he : (s.updEtu f).mem.upsets.isEmpty = true := congrArg List.isEmpty hu
    rw [State.meetLine, he, Bool.true_or, if_pos rfl]
  rw [State.localUnit, h]
  dsimp only
  rw [hf, if_neg Bool.false_ne_true, hc, hmend, hmeet, ite_self]
  rfl

include hs hg

/-- A write within a line of DRAM stores its bytes and nothing else, and sets the line's mark (R437). -/
theorem State.localUnit_spec (o : Bool) {bs : List Byte} (hn : d % 64 + bs.length ≤ 64) (p : Bool) :
    s.Stores (s.localUnit o d bs p) d bs ∧ (s.localUnit o d bs p).lineMark c x = markAfter (s.lineMark c x) p bs.length 64 ∧
      (s.localUnit o d bs p).grf = s.grf ∧ (p = false → (s.localUnit o d bs p).regs = s.regs ∧ (s.localUnit o d bs p).hdr = s.hdr) := by
  have hc := (State.home_dram_lt hs hg h).1
  obtain ⟨f, he⟩ := s.uncacheAt_eq c x bs.length
  rw [State.localUnit_dram h hf hu, he]
  generalize hq : Sparse.set noMark s.mem.dramPoison (dramKey c x / 64) (markAfter (s.lineMark c x) p bs.length 64) = q
  have hst := State.dramPut_stores (s := s.updEtu f) hs h hg hn q
  obtain ⟨hb, hgrf⟩ := ((s.updEtu f).dramPut (Mem.writeAt byte0 s.mem.dram (dramKey c x) bs) q).notePoison_leaves hc (s.lineMark c x)
    (markAfter (s.lineMark c x) p bs.length 64)
  refine ⟨hst.between (fun _ => rfl) (State.sameBytes_of hb), ?_, hgrf, fun hp => ?_⟩
  · rw [State.lineMark, State.dramPoison_of_dramSource (State.dramSource_of hb)]
    exact hq ▸ Sparse.get_set_same _ _ _ _
  · subst hp
    rw [State.notePoison_lower]
    exact ⟨rfl, rfl⟩

end

section
variable {s : State} {d c x : Nat} (h : s.home d = .dram c x)
include h

theorem State.unitAt_dram (k : Nat) : s.unitAt d k = 64 := by
  rw [State.unitAt, State.localUnitAt, h]
  exact if_neg Home.noConfusion

theorem State.writeUnit_dram (o : Bool) (bs : List Byte) (p : Bool) : s.writeUnit o d bs p = s.localUnit o d bs p := by
  rw [State.writeUnit, h]

/-- A write within a line is one write of its unit, once the line has left the combining buffer (R427). -/
theorem State.write_inLine {bs : List Byte} (hn : inLine d bs.length = true) (p : Bool) :
    s.write d bs p = (s.flushRange d bs.length).localUnit false d bs p := by
  have hhome : (s.flushRange d bs.length).home d = .dram c x := (State.home_of_dramSource (s.flushRange_dramSource d _) d).trans h
  simp only [inLine, Bool.and_eq_true, Nat.ble_eq] at hn
  rw [State.write]
  generalize s.flushRange d bs.length = t at hhome
  obtain ⟨b, l, rfl⟩ : ∃ b l, bs = b :: l := List.exists_cons_of_length_pos hn.1
  have hend : ∀ (fuel : Nat) (t : State) (e : Nat), State.writeFuel false p fuel t e [] = t := fun fuel t e => by cases fuel <;> rfl
  rw [List.length_cons, State.writeFuel, State.unitAt_dram hhome, List.take_of_length_le (by omega), List.drop_of_length_le (by omega), hend, State.writeUnit_dram hhome]
  exact List.cons_ne_nil _ _

end

/-! ## Requests and their replies -/

/-- What a request changes that no other agent awaits an answer to: it completes without a code. -/
theorem State.performed_silent {s : State} {f : State → State} (h : (f ((s.asAgent .none).dropAcks .none)).grf = ((s.asAgent .none).dropAcks .none).grf) :
    s.performed f = (0, (f ((s.asAgent .none).dropAcks .none)).dropAcks .none) := by
  refine Prod.ext ?_ rfl
  rw [State.performed, State.answerCode, h]
  dsimp only [State.dropAcks, State.updGrf]
  rw [List.find?_filter, List.find?_eq_none.mpr fun y _ => by simp; tauto]

/-- A read below the global addresses, where no error lies in wait: the bytes and their marks as they are stored. -/
theorem State.fetch_below {s : State} (h : s.readsClean = true) {d n : Nat} (hd : d + n ≤ 0x800000000000) : s.fetch d n = (s.read d n, s.flushRange d n) := by
  have hm : min n (0x800000000000 - d) = n := Nat.min_eq_left (by omega)
  have hq : s.localFetch d n = (false, s.flushRange d n) := by rw [State.localFetch, State.readUnits, if_pos h]
  rw [State.fetch, hm, if_pos rfl, hq, Bool.or_false]

end Sys2Proof.Machine
end

section
/-! PROOFS. The operations of the Churn units on lines of DRAM (R412, R425 to R429, R437). -/

namespace Sys2Proof.Machine

/-! ## Numbers in bytes (R10) -/

@[simp] theorem leBytes_length (n v : Nat) : (leBytes n v).length = n := by
  induction n generalizing v with
  | zero => rfl
  | succ n ih => simp [leBytes, ih]

theorem leNat_leBytes (n v : Nat) : leNat (leBytes n v) = v % 256 ^ n := by
  induction n generalizing v with
  | zero => simp [leBytes, leNat, Nat.mod_one]
  | succ n ih => rw [leBytes, leNat, ih, Nat.pow_succ', Nat.mod_mul, BitVec.toNat_ofNat]

theorem leNat_lt (l : List Byte) : leNat l < 256 ^ l.length := by
  induction l with
  | nil => decide
  | cons b t ih =>
    have hb := b.isLt
    rw [leNat, List.length_cons, Nat.pow_succ]
    omega

theorem leNat_peek_lt (s : State) (d n : Nat) : leNat (s.peek d n) < 256 ^ n := by
  have h := leNat_lt (s.peek d n)
  rwa [State.peek_length] at h

/-! ## Lanes of ADD32 and fields of a site summary (Tables 6-4, 10-3) -/

@[simp] theorem add32Lanes_length (n : Nat) (bs : List Byte) (mask : Nat) (addends : List Nat) : (add32Lanes n bs mask addends).length = 4 * n := by
  induction n generalizing bs mask addends with
  | zero => rfl
  | succ n ih =>
    rw [add32Lanes, List.length_append, leBytes_length, ih]
    omega

/-- Bytes behind the first `k` of a row are those of its rest. -/
theorem drop_append_past {l r : List Byte} {k n : Nat} (hl : l.length = k) (hn : k ≤ n) : (l ++ r).drop n = r.drop (n - k) := by
  rw [List.drop_append, List.drop_of_length_le (by omega), List.nil_append, hl]

/-- Lane `i` holds the sum where its bit of the mask is set, and what it held where the bit is clear. -/
theorem add32Lanes_lane {n i : Nat} (hi : i < n) (bs : List Byte) (mask : Nat) (addends : List Nat) :
    let v := leNat ((bs.drop (4 * i)).take 4)
    ((add32Lanes n bs mask addends).drop (4 * i)).take 4 = leBytes 4 (if bitOf mask i then (v + addends.getD i 0) % 2 ^ 32 else v) := by
  induction n generalizing i bs mask addends with
  | zero => omega
  | succ n ih =>
    cases i with
    | zero =>
      have hb : bitOf mask 0 = (mask % 2 == 1) := rfl
      cases addends <;> simp [add32Lanes, hb]
    | succ i =>
      have hl := ih (i := i) (by omega) (bs.drop 4) (mask / 2) (addends.drop 1)
      have hb : bitOf (mask / 2) i = bitOf mask (i + 1) := by
        rw [bitOf, bitOf, Nat.shiftRight_eq_div_pow, Nat.shiftRight_eq_div_pow, Nat.div_div_eq_div_mul, ← Nat.pow_succ']
      have hk : 4 + 4 * i = 4 * (i + 1) := by omega
      have hk' : 4 * (i + 1) - 4 = 4 * i := by omega
      have ha : (addends.drop 1).getD i 0 = addends.getD (i + 1) 0 := by simp [List.getD_eq_getElem?_getD]
      rw [List.drop_drop, hk, hb, ha] at hl
      rw [add32Lanes]
      dsimp only
      rw [drop_append_past (leBytes_length 4 _) (by omega), hk', hl]

theorem mergeSummary_length {old con : List Byte} (ho : old.length = 32) : (mergeSummary old con).length = 32 := by
  simp [mergeSummary, ho]

theorem mergeSummary_count {old con : List Byte} (ho : old.length = 32) : ((mergeSummary old con).drop 4).take 4 =
    leBytes 4 ((leNat ((old.drop 4).take 4) + leNat ((con.drop 4).take 4)) % 2 ^ 32) := by
  simp [mergeSummary, ho, leBytes]

theorem mergeSummary_zmin {old con : List Byte} (ho : old.length = 32) : ((mergeSummary old con).drop 0x18).take 2 =
    leBytes 2 (if signed 16 (leNat ((con.drop 0x18).take 2)) < signed 16 (leNat ((old.drop 0x18).take 2)) then leNat ((con.drop 0x18).take 2)
      else leNat ((old.drop 0x18).take 2)) := by
  simp [mergeSummary, ho, List.drop_append, List.drop_take, leBytes]

theorem mergeSummary_zmax {old con : List Byte} (ho : old.length = 32) : ((mergeSummary old con).drop 0x1A).take 2 =
    leBytes 2 (if signed 16 (leNat ((old.drop 0x1A).take 2)) < signed 16 (leNat ((con.drop 0x1A).take 2)) then leNat ((con.drop 0x1A).take 2)
      else leNat ((old.drop 0x1A).take 2)) := by
  simp [mergeSummary, ho, List.drop_append, List.drop_take, leBytes]

theorem signed_leNat_leBytes (v : Nat) : signed 16 (leNat (leBytes 2 v)) = signed 16 v := by
  have hm : v % 256 ^ 2 % 2 ^ 16 = v % 2 ^ 16 := Nat.mod_mod _ _
  rw [leNat_leBytes, signed, signed, hm]

end Sys2Proof.Machine
end

section
/-! PROOFS. What each request to a Churn unit does at a DRAM address, and where it is refused (R425 to R429, R437). -/

namespace Sys2Proof.Machine

variable {s : State} {d c x : Nat}

theorem inLine_iff {d n : Nat} : inLine d n = true ↔ 1 ≤ n ∧ d % 64 + n ≤ 64 := by
  simp only [inLine, Bool.and_eq_true, Nat.ble_eq]

theorem State.upsets_of_readsClean (hr : s.readsClean = true) : s.mem.upsets = [] := by
  simp only [State.readsClean, Bool.and_eq_true, List.isEmpty_iff] at hr
  exact hr.2

theorem State.bringIn_clean (hr : s.readsClean = true) (c x d : Nat) : s.bringIn c x d = (false, s) := by
  rw [State.bringIn, hr, Bool.or_true, if_pos rfl]

/-- A request of a CHURN command that stores bytes and answers no agent completes without a code. -/
theorem State.performed_stores (f : State → State) {bs : List Byte}
    (h : ((s.asAgent .none).dropAcks .none).Stores (f ((s.asAgent .none).dropAcks .none)) d bs ∧
      (f ((s.asAgent .none).dropAcks .none)).grf = ((s.asAgent .none).dropAcks .none).grf) :
    s.Stores ((s.performed f).2.replied ⟨[], false, (s.performed f).1⟩) d bs ∧
      ((s.performed f).2.replied ⟨[], false, (s.performed f).1⟩).mem.reply = some ⟨[], false, 0⟩ := by
  rw [State.performed_silent h.2]
  exact ⟨h.1.between (fun _ => rfl) (fun _ => rfl), rfl⟩

section
variable (hs : s.mem.shardBase4M < 2048) (h : s.home d = .dram c x)
include hs h

/-- An address of DRAM, and the bytes of a row of codes behind it, lie below the global addresses. -/
theorem State.dram_below {n : Nat} (hn : n ≤ 4096) : d + n ≤ 0x800000000000 := by
  obtain ⟨-, ⟨hd, -⟩ | ⟨-, hd, -⟩⟩ := (State.home_dram hs).mp h
  · simp only [State.dramTop, State.shardBase] at hd
    omega
  · omega

variable (hg : s.mem.chGib ≤ 8) (hf : s.mem.failed.contains c = false)

section
include hg hf

/-- A write of the unit once the combining buffer and the counters are served: the bytes are stored, and no agent is answered. -/
theorem State.localUnit_stores {t : State} (ht : t.dramSource = s.dramSource) (hgrf : t.grf = s.grf) (hu : s.mem.upsets = []) {bs : List Byte}
    (hn : d % 64 + bs.length ≤ 64) (p : Bool) : s.Stores (t.localUnit false d bs p) d bs ∧ (t.localUnit false d bs p).grf = s.grf ∧
      (t.localUnit false d bs p).lineMark c x = markAfter (s.lineMark c x) p bs.length 64 ∧
      (p = false → (t.localUnit false d bs p).regs = t.regs ∧ (t.localUnit false d bs p).hdr = t.hdr) := by
  have hm : t.lineMark c x = s.lineMark c x := by rw [State.lineMark, State.dramPoison_of_dramSource ht, State.lineMark]
  obtain ⟨hst, hmark, hl, hlow⟩ := State.localUnit_spec (s := t) (d := d) (c := c) (x := x) (by rwa [State.shardBase4M_of_dramSource ht])
    (by rwa [State.chGib_of_dramSource ht]) ((State.home_of_dramSource ht d).trans h) (by rwa [State.failed_of_dramSource ht])
    (by rwa [State.upsets_of_dramSource ht]) false hn p
  exact ⟨hst.between (State.sameBytes_of_dramSource ht) (fun _ => rfl), hl.trans hgrf, hm ▸ hmark, hlow⟩

/-- A write, whatever its unit: the lines leave the combining buffer first. -/
theorem State.write_spec (hu : s.mem.upsets = []) {bs : List Byte} (hn : inLine d bs.length = true) (p : Bool) :
    s.Stores (s.write d bs p) d bs ∧ (s.write d bs p).grf = s.grf ∧ (s.write d bs p).lineMark c x = markAfter (s.lineMark c x) p bs.length 64 ∧
      (p = false → (s.write d bs p).regs = s.regs ∧ (s.write d bs p).hdr = s.hdr) := by
  have hl := State.localUnit_stores hs h hg hf (s.flushRange_dramSource d bs.length) (s.flushRange_grf d bs.length) hu (inLine_iff.mp hn).2 p
  rwa [State.flushRange_regs, State.flushRange_hdr, ← State.write_inLine h hn p] at hl

variable (hr : s.readsClean = true)
include hr

/-- An operation on a line in the combining buffer, counted as `f` says, stores what it makes of the line. -/
theorem State.combined_stores (k n : Nat) {f : Field} (hk : f.reg ∉ [R.MBX_AREA_LO, R.MBX_AREA_HI, R.MBX_CFG]) {bs : List Byte}
    (hn : d % 64 + bs.length ≤ 64) (p : Bool) :
    s.Stores (((s.combineTouch c (x / 64)).countChurn k n f).localUnit false d bs p) d bs ∧
      (((s.combineTouch c (x / 64)).countChurn k n f).localUnit false d bs p).grf = s.grf := by
  obtain ⟨ht, htg⟩ := s.combineTouch_leaves c (x / 64)
  obtain ⟨hc, hcg⟩ := (s.combineTouch c (x / 64)).countChurn_leaves k n hk
  obtain ⟨hst, hsg, -⟩ := State.localUnit_stores hs h hg hf (hc.trans ht) (hcg.trans htg) (State.upsets_of_readsClean hr) hn p
  exact ⟨hst, hsg⟩

theorem State.add32_spec (hd : d / 64 * 64 = d) (mask : Nat) (addends : List Nat) (p : Bool) :
    s.Stores (s.add32 d mask addends p) d (add32Lanes 16 (s.peek d 64) mask addends) ∧ (s.add32 d mask addends p).grf = s.grf := by
  have hread := State.read_inLine hs h hf (n := 64) (inLine_iff.mpr (by omega))
  have hadd : s.add32 d mask addends p = ((s.combineTouch c (x / 64)).countChurn (2 * c) (popCount 16 mask) (F.MEMC_ADD_CNT c)).localUnit false d
      (add32Lanes 16 (s.peek d 64) mask addends) (p || s.lineMark c x) := by
    rw [State.add32, h]
    dsimp only
    rw [State.localAdd, hd, h]
    dsimp only
    rw [hf, if_neg Bool.false_ne_true, State.bringIn_clean hr, Bool.or_false, hread]
  rw [hadd]
  refine State.combined_stores hs h hg hf hr _ _ (memcReg_not_area (k := 0x1044) (State.home_dram_lt hs hg h).1 (by decide)) ?_ _
  rw [add32Lanes_length]
  omega

theorem State.summaryMerge_spec (hn : inLine d 32 = true) (con : List Byte) (p : Bool) :
    s.Stores (s.summaryMerge d con p) d (mergeSummary (s.peek d 32) con) ∧ (s.summaryMerge d con p).grf = s.grf := by
  have hread := State.read_inLine hs h hf hn
  have hmerge : s.summaryMerge d con p = ((s.combineTouch c (x / 64)).countChurn (2 * c + 1) 1 (F.MEMC_MERGE_CNT c)).localUnit false d
      (mergeSummary (s.peek d 32) con) (p || s.lineMark c x) := by
    rw [State.summaryMerge, h]
    dsimp only
    rw [hf, if_neg Bool.false_ne_true, State.bringIn_clean hr, Bool.or_false, hread]
  rw [hmerge]
  refine State.combined_stores hs h hg hf hr _ _ (memcReg_not_area (k := 0x1048) (State.home_dram_lt hs hg h).1 (by decide)) ?_ _
  rw [mergeSummary_length (s.peek_length d 32)]
  exact (inLine_iff.mp hn).2

end

/-! ## The commands at a DRAM address -/

theorem State.churnRead_dram (hf : s.mem.failed.contains c = false) (hr : s.readsClean = true) {n : Nat} (hn : inLine d n = true) :
    (s.churnRead d n).mem.reply = some ⟨s.peek d n, s.lineMark c x, 0⟩ ∧ s.SameBytes (s.churnRead d n) ∧ (s.churnRead d n).regs = s.regs ∧
      (s.churnRead d n).hdr = s.hdr := by
  have hn' := inLine_iff.mp hn
  have hfetch : (s.asAgent .none).fetch d n = (⟨s.peek d n, s.lineMark c x, 0⟩, (s.asAgent .none).flushRange d n) := by
    rw [State.fetch_below (s := s.asAgent .none) hr (State.dram_below hs h (by omega)), State.read_inLine (s := s.asAgent .none) hs h hf hn]
    rfl
  rw [State.churnRead, if_pos hn, hfetch]
  refine ⟨rfl, fun e => ?_, State.flushRange_regs _ _ _, State.flushRange_hdr _ _ _⟩
  exact State.sameBytes_of_dramSource (s := s) (State.flushRange_dramSource (s.asAgent .none) d n) e

include hg hf

theorem State.churnWrite_dram (hu : s.mem.upsets = []) {bs : List Byte} (hn : inLine d bs.length = true) (p : Bool) :
    s.Stores (s.churnWrite d bs p) d bs ∧ (s.churnWrite d bs p).mem.reply = some ⟨[], false, 0⟩ ∧
      (s.churnWrite d bs p).lineMark c x = markAfter (s.lineMark c x) p bs.length 64 ∧
      (p = false → (s.churnWrite d bs p).regs = s.regs ∧ (s.churnWrite d bs p).hdr = s.hdr) := by
  obtain ⟨hst, hgrf, hmark, hlow⟩ := State.write_spec (s := (s.asAgent .none).dropAcks .none) hs h hg hf hu hn p
  obtain ⟨hstores, hreply⟩ := State.performed_stores (fun s => s.write d bs p) ⟨hst, hgrf⟩
  rw [State.churnWrite, if_pos hn]
  refine ⟨hstores, hreply, ?_⟩
  rw [State.performed_silent (f := fun s => s.write d bs p) hgrf]
  exact ⟨hmark, hlow⟩

variable (hr : s.readsClean = true)
include hr

theorem State.churnAdd_dram (mask : Nat) (addends : List Nat) (p : Bool) :
    s.Stores (s.churnAdd d mask addends p) (d / 64 * 64) (add32Lanes 16 (s.peek (d / 64 * 64) 64) mask addends) ∧
      (s.churnAdd d mask addends p).mem.reply = some ⟨[], false, 0⟩ :=
  State.performed_stores (fun s => s.add32 (d / 64 * 64) mask addends p)
    (State.add32_spec (s := (s.asAgent .none).dropAcks .none) hs (State.home_dram_line hs h (e := d / 64 * 64) (by omega)).1 hg hf hr (by omega) mask
      addends p)

theorem State.churnMerge_dram (hn : inLine d 32 = true) (con : List Byte) (p : Bool) :
    s.Stores (s.churnMerge d con p) d (mergeSummary (s.peek d 32) con) ∧ (s.churnMerge d con p).mem.reply = some ⟨[], false, 0⟩ := by
  have hp : (s.dramPlace d).isSome = true := by
    rw [State.dramPlace, h]
    rfl
  have hm := State.performed_stores (fun s => s.summaryMerge d con p) (State.summaryMerge_spec (s := (s.asAgent .none).dropAcks .none) hs h hg hf hr hn con p)
  rw [State.churnMerge, if_pos hn, hp]
  exact hm

end

/-! ## DEQUANT and POOL (R428, R429) -/

theorem State.dramPlace_iff : s.dramPlace d = some (c, x) ↔ s.home d = .dram c x := by
  rw [State.dramPlace]
  cases s.home d <;> simp

/-- A count of the Churn unit of a channel, and a reply, leave the bytes. -/
theorem State.byteSource_churnCount (s : State) {c k : Nat} (hc : c < 8) (hk : k < 0x2000) {f : Field} (hf : f.reg = 0xC0000 + k + 0x2000 * c) (n : Nat) :
    (s.bumpBy f n).byteSource = s.byteSource :=
  State.byteSource_setFld _ _ _ (hf ▸ memcReg_not_area hc hk)

section
variable {fmt elems : Nat} (hs : s.mem.shardBase4M < 2048) (hr : s.readsClean = true) (he : elems ≤ 1024)
include hs hr he

theorem State.dequantRow_leaves (h : s.home d = .dram c x) : (s.dequantRow d fmt elems).2.readSource = s.readSource ∧
    (s.dequantRow d fmt elems).2.regs = s.regs := by
  have hn : 4 + (if fmt = 0 then elems else elems / 2) ≤ 4096 := by
    split_ifs <;> omega
  rw [State.dequantRow, State.fetch_below hr (State.dram_below hs h hn)]
  exact ⟨s.flushRange_readSource d _, s.flushRange_regs d _⟩

theorem State.dequantRows_leaves {ds : List Nat} (hd : ∀ e ∈ ds, ∃ c x, s.home e = .dram c x) :
    (s.dequantRows fmt elems ds).2.readSource = s.readSource ∧ (s.dequantRows fmt elems ds).2.regs = s.regs := by
  induction ds generalizing s with
  | nil => exact ⟨rfl, rfl⟩
  | cons d ds ih =>
    obtain ⟨c, x, h⟩ := hd d (List.mem_cons_self ..)
    obtain ⟨hsrc, hregs⟩ := State.dequantRow_leaves (fmt := fmt) hs hr he h
    have hdram : (s.dequantRow d fmt elems).2.dramSource = s.dramSource := State.dramSource_of (congrArg Prod.fst hsrc)
    obtain ⟨hi, hir⟩ := ih (s := (s.dequantRow d fmt elems).2) (by rwa [State.shardBase4M_of_dramSource hdram])
      (by rwa [State.readsClean_of hsrc]) fun e hm => by
        obtain ⟨c, x, h⟩ := hd e (List.mem_cons_of_mem _ hm)
        exact ⟨c, x, (State.home_of_dramSource hdram e).trans h⟩
    exact ⟨hi.trans hsrc, hir.trans hregs⟩

end

section
variable (s) (fmt elems : Nat)

theorem State.churnDequant_dram (h : s.home d = .dram c x) : s.churnDequant d fmt elems =
    let q := (s.asAgent .none).dequantRow d fmt elems
    (q.2.bump (F.MEMC_DEQUANT_CNT c)).replied
      ⟨if q.1.bad && q.1.code != 0 then List.replicate (2 * elems) 0 else q.1.vals.flatMap (leBytes 2), q.1.bad, q.1.code⟩ := by
  rw [State.churnDequant, State.dramPlace_iff.mpr h]

theorem State.churnDequant_elsewhere (h : s.dramPlace d = none) :
    s.churnDequant d fmt elems = s.replied ⟨List.replicate (2 * elems) 0, true, 0x5011⟩ := by
  rw [State.churnDequant, h]

theorem State.churnPool_elsewhere (mode : Nat) {ds : List Nat} (h : s.dramPlace d = none) :
    s.churnPool (d :: ds) fmt elems mode = s.replied ⟨List.replicate (2 * elems) 0, true, 0x5011⟩ := by
  unfold State.churnPool
  simp only [List.map_cons, List.head?_cons, h]

/-- Rows that do not all lie in the channel of the first are not pooled (R429). -/
theorem State.churnPool_apart (mode : Nat) {e c' x' : Nat} {ds : List Nat} (hd : s.dramPlace d = some (c, x)) (hm : e ∈ ds)
    (he : s.dramPlace e = some (c', x')) (hc : c ≠ c') :
    s.churnPool (d :: ds) fmt elems mode = s.replied ⟨List.replicate (2 * elems) 0, true, 0x5011⟩ := by
  unfold State.churnPool
  simp only [List.map_cons, List.head?_cons, hd]
  refine if_pos (Or.inr (List.any_eq_true.mpr ⟨s.dramPlace e, List.mem_cons_of_mem _ (List.mem_map_of_mem hm), ?_⟩))
  rw [he]
  exact bne_iff_ne.mpr hc.symm

/-- What a POOL replies: its rows, unless one of them completed with a code. -/
def poolReply (elems mode free : Nat) (rows : List RowAns) : Rd :=
  let code := match rows.find? (fun r => r.code != 0) with | some r => r.code | none => 0
  ⟨if code = 0 then (poolRows free mode elems (rows.map (·.vals))).flatMap (leBytes 2) else List.replicate (2 * elems) 0, rows.any (·.bad), code⟩

theorem poolReply_clean {elems mode free : Nat} {rows : List RowAns} (h : ∀ r ∈ rows, r.code = 0) :
    poolReply elems mode free rows = ⟨(poolRows free mode elems (rows.map (·.vals))).flatMap (leBytes 2), rows.any (·.bad), 0⟩ := by
  have hf : rows.find? (fun r => r.code != 0) = none := List.find?_eq_none.mpr fun r hr => by simp [h r hr]
  rw [poolReply, hf]
  rfl

theorem State.churnPool_dram (mode : Nat) {ds : List Nat} (hne : ds ≠ []) (hl : ds.length ≤ 64) (h : ∀ e ∈ ds, ∃ y, s.dramPlace e = some (c, y)) :
    s.churnPool ds fmt elems mode =
      let q := (s.asAgent .none).dequantRows fmt elems ds
      ((q.2.drawFree.bumpBy (F.MEMC_DEQUANT_CNT c) ds.length).bump (F.MEMC_POOL_CNT c)).replied (poolReply elems mode q.2.free q.1) := by
  obtain ⟨d, l, rfl⟩ := List.exists_cons_of_ne_nil hne
  obtain ⟨y, hy⟩ := h d (List.mem_cons_self ..)
  unfold State.churnPool
  simp only [List.map_cons, List.head?_cons, hy]
  refine if_neg (not_or.mpr ⟨by omega, fun hany => ?_⟩)
  obtain ⟨p, hp, hother⟩ := List.any_eq_true.mp hany
  obtain ⟨z, rfl⟩ : ∃ z, p = some (c, z) := by
    rcases List.mem_cons.mp hp with rfl | hp
    · exact ⟨y, rfl⟩
    · obtain ⟨e, he, rfl⟩ := List.mem_map.mp hp
      exact h e (List.mem_cons_of_mem _ he)
  exact bne_iff_ne.mp hother rfl

end

end Sys2Proof.Machine
end

section
/-! PROOFS. CHURN_READ, CHURN_WRITE, CHURN_ADD32, SUMMARY_MERGE, CHURN_DEQUANT and CHURN_POOL as commands. -/

namespace Sys2Proof.Machine

section
variable (s : State) (dt d : Nat)

theorem State.exec_churnRead (n : Nat) : exec (.churnRead dt d n) s = .next ((s.arrive dt).churnRead d n) := rfl
theorem State.exec_churnWrite (bs : List Byte) (p : Bool) : exec (.churnWrite dt d bs p) s = .next ((s.arrive dt).churnWrite d bs p) := rfl
theorem State.exec_churnAdd32 (mask : Nat) (addends : List Nat) (p : Bool) :
    exec (.churnAdd32 dt d mask addends p) s = .next ((s.arrive dt).churnAdd d mask addends p) := rfl
theorem State.exec_summaryMerge (con : List Byte) (p : Bool) : exec (.summaryMerge dt d con p) s = .next ((s.arrive dt).churnMerge d con p) := rfl
theorem State.exec_churnDequant (fmt elems : Nat) : exec (.churnDequant dt d fmt elems) s = .next ((s.arrive dt).churnDequant d fmt elems) := rfl
theorem State.exec_churnPool (ds : List Nat) (fmt elems mode : Nat) :
    exec (.churnPool dt ds fmt elems mode) s = .next ((s.arrive dt).churnPool ds fmt elems mode) := rfl

end

section
variable {a : State} {d c x : Nat} (hs : a.mem.shardBase4M < 2048) (hg : a.mem.chGib ≤ 8) (h : a.home d = .dram c x)
  (hf : a.mem.failed.contains c = false) (hr : a.readsClean = true)
include hs hg h hf hr

/-- Each lane of the line holds its sum, and the other lines read as before (R426). -/
theorem State.churnAdd_lanes (mask : Nat) (addends : List Nat) (p : Bool) :
    let line := d / 64 * 64
    (∀ i, i < 16 → leNat ((a.churnAdd d mask addends p).peek (line + 4 * i) 4) =
      if bitOf mask i then (leNat (a.peek (line + 4 * i) 4) + addends.getD i 0) % 2 ^ 32 else leNat (a.peek (line + 4 * i) 4)) ∧
    (∀ e, e < line ∨ line + 64 ≤ e → (a.churnAdd d mask addends p).peekByte e = a.peekByte e) := by
  intro line
  obtain ⟨hst, -⟩ := State.churnAdd_dram hs h hg hf hr mask addends p
  have hlen : (add32Lanes 16 (a.peek line 64) mask addends).length = 64 := add32Lanes_length ..
  refine ⟨fun i hi => ?_, fun e he => hst.outside (by rwa [hlen])⟩
  rw [hst.peek_part (by rw [hlen]; omega), add32Lanes_lane hi, a.peek_part line (by omega), leNat_leBytes]
  split_ifs
  · exact Nat.mod_mod _ _
  · exact Nat.mod_eq_of_lt (leNat_peek_lt a (line + 4 * i) 4)

/-- The counts of the summary are added, and its Z bounds are the lesser and the greater (Tables 6-4, 10-3). -/
theorem State.churnMerge_fields (hn : inLine d 32 = true) (con : List Byte) (p : Bool) :
    let t := a.churnMerge d con p
    t.peek d 32 = mergeSummary (a.peek d 32) con ∧
    leNat (t.peek (d + 4) 4) = (leNat (a.peek (d + 4) 4) + leNat ((con.drop 4).take 4)) % 2 ^ 32 ∧
    signed 16 (leNat (t.peek (d + 0x18) 2)) = min (signed 16 (leNat (a.peek (d + 0x18) 2))) (signed 16 (leNat ((con.drop 0x18).take 2))) ∧
    signed 16 (leNat (t.peek (d + 0x1A) 2)) = max (signed 16 (leNat (a.peek (d + 0x1A) 2))) (signed 16 (leNat ((con.drop 0x1A).take 2))) ∧
    (∀ e, e < d ∨ d + 32 ≤ e → t.peekByte e = a.peekByte e) := by
  intro t
  obtain ⟨hst, -⟩ := State.churnMerge_dram hs h hg hf hr hn con p
  have hold := a.peek_length d 32
  have hlen := mergeSummary_length (con := con) hold
  have hpart : ∀ i k, i + k ≤ 32 → t.peek (d + i) k = ((mergeSummary (a.peek d 32) con).drop i).take k := fun i k hi =>
    hst.peek_part (by rwa [hlen])
  have hwhole := hst.peek
  rw [hlen] at hwhole
  refine ⟨hwhole, ?_, ?_, ?_, fun e he => hst.outside (by rwa [hlen])⟩
  · rw [hpart _ _ (by decide), mergeSummary_count hold, a.peek_part d (by decide), leNat_leBytes]
    exact Nat.mod_mod _ _
  · rw [hpart _ _ (by decide), mergeSummary_zmin hold, a.peek_part d (by decide), signed_leNat_leBytes]
    split_ifs <;> omega
  · rw [hpart _ _ (by decide), mergeSummary_zmax hold, a.peek_part d (by decide), signed_leNat_leBytes]
    split_ifs <;> omega

end

/-! ## DEQUANT and POOL as commands -/

theorem State.fld_of_regs {s t : State} (h : t.regs = s.regs) (f : Field) : t.fld f = s.fld f :=
  State.fld_of_cell (congrArg (Sparse.get resetCell · f.reg) h)

section
variable (s : State)

@[simp] theorem State.dramSource_asAgent (g : Agent) : (s.asAgent g).dramSource = s.dramSource := rfl
@[simp] theorem State.dramSource_dropAcks (g : Agent) : (s.dropAcks g).dramSource = s.dramSource := rfl
@[simp] theorem State.dramSource_replied (r : Rd) : (s.replied r).dramSource = s.dramSource := rfl
@[simp] theorem State.fld_replied (r : Rd) (f : Field) : (s.replied r).fld f = s.fld f := rfl

end

/-- A count of 32 bits saturates at all ones (R161). -/
theorem State.fld_bumpBy_word (s : State) {f : Field} (hl : f.lo = 0) (hh : f.hi = 31) (n : Nat) : (s.bumpBy f n).fld f = min (2 ^ 32 - 1) (s.fld f + n) := by
  rw [State.fld_bumpBy s f (by omega) (by omega), hl, hh]

section
variable {a u : State} {c : Nat} (hsrc : u.readSource = a.readSource) (hregs : u.regs = a.regs) (hc : c < 8)
include hsrc hregs hc

/-- A DEQUANT is counted, and its reply given; the bytes stand. -/
theorem State.dequantCounted (r : Rd) : let t := (u.bump (F.MEMC_DEQUANT_CNT c)).replied r
    a.SameBytes t ∧ t.fld (F.MEMC_DEQUANT_CNT c) = min (2 ^ 32 - 1) (a.fld (F.MEMC_DEQUANT_CNT c) + 1) := by
  refine ⟨State.sameBytes_of_dramSource ?_, ?_⟩
  · rw [State.dramSource_replied, State.bump, State.dramSource_of (u.byteSource_churnCount (k := 0x104C) hc (by decide) rfl 1)]
    exact State.dramSource_of (congrArg Prod.fst hsrc)
  · rw [State.fld_replied, State.bump, State.fld_bumpBy_word _ rfl rfl, State.fld_of_regs hregs]

/-- A POOL and its rows are counted, and its reply given; the bytes stand. -/
theorem State.poolCounted (n : Nat) (r : Rd) : let t := ((u.drawFree.bumpBy (F.MEMC_DEQUANT_CNT c) n).bump (F.MEMC_POOL_CNT c)).replied r
    a.SameBytes t ∧ t.fld (F.MEMC_POOL_CNT c) = min (2 ^ 32 - 1) (a.fld (F.MEMC_POOL_CNT c) + 1) ∧
      t.fld (F.MEMC_DEQUANT_CNT c) = min (2 ^ 32 - 1) (a.fld (F.MEMC_DEQUANT_CNT c) + n) := by
  have hdraw : u.drawFree.fld = u.fld := rfl
  have hne : (F.MEMC_POOL_CNT c).reg ≠ (F.MEMC_DEQUANT_CNT c).reg := by
    simp only [F.MEMC_POOL_CNT, F.MEMC_DEQUANT_CNT, R.MEMC_POOL_CNT, R.MEMC_DEQUANT_CNT]
    omega
  refine ⟨State.sameBytes_of_dramSource ?_, ?_, ?_⟩
  · rw [State.dramSource_replied, State.bump, State.dramSource_of (State.byteSource_churnCount _ (k := 0x1050) hc (by decide) rfl 1),
      State.dramSource_of (State.byteSource_churnCount _ (k := 0x104C) hc (by decide) rfl n)]
    exact State.dramSource_of (congrArg Prod.fst hsrc)
  · rw [State.fld_replied, State.bump, State.fld_bumpBy_word _ rfl rfl, State.bumpBy, State.fld_setFld_other _ _ hne, hdraw, State.fld_of_regs hregs]
  · rw [State.fld_replied, State.bump, State.bumpBy, State.fld_setFld_other _ _ hne.symm, State.fld_bumpBy_word _ rfl rfl, hdraw,
      State.fld_of_regs hregs]

end

section
variable {a : State} {d c x fmt elems : Nat} (hs : a.mem.shardBase4M < 2048) (hr : a.readsClean = true) (he : elems ≤ 1024)
include hs hr he

theorem State.churnDequant_spec (hg : a.mem.chGib ≤ 8) (h : a.home d = .dram c x) :
    let f := (a.asAgent .none).fetch d (4 + (if fmt = 0 then elems else elems / 2))
    let t := a.churnDequant d fmt elems
    a.SameBytes t ∧ t.fld (F.MEMC_DEQUANT_CNT c) = min (2 ^ 32 - 1) (a.fld (F.MEMC_DEQUANT_CNT c) + 1) ∧
      (f.1.code = 0 → t.mem.reply = some ⟨(rowValues f.2.free fmt elems f.1.bytes).flatMap (leBytes 2), f.1.poison, 0⟩) := by
  intro f t
  obtain ⟨hsrc, hregs⟩ := State.dequantRow_leaves (s := a.asAgent .none) (fmt := fmt) (elems := elems) hs hr he h
  have ht : t = _ := State.churnDequant_dram a fmt elems h
  have hq : ((a.asAgent .none).dequantRow d fmt elems).1 = ⟨rowValues f.2.free fmt elems f.1.bytes, f.1.poison, f.1.code⟩ := rfl
  rw [ht]
  dsimp only
  rw [hq]
  obtain ⟨hbytes, hcount⟩ := State.dequantCounted (a := a) hsrc hregs (State.home_dram_lt hs hg h).1
    ⟨if f.1.poison && f.1.code != 0 then List.replicate (2 * elems) 0 else (rowValues f.2.free fmt elems f.1.bytes).flatMap (leBytes 2), f.1.poison, f.1.code⟩
  refine ⟨hbytes, hcount, fun hc => congrArg some ?_⟩
  rw [hc, bne_self_eq_false, Bool.and_false, if_neg Bool.false_ne_true]

theorem State.churnPool_spec (mode : Nat) {ds : List Nat} (hne : ds ≠ []) (hl : ds.length ≤ 64) (hc : c < 8)
    (hd : ∀ e ∈ ds, ∃ y, a.dramPlace e = some (c, y)) :
    let q := (a.asAgent .none).dequantRows fmt elems ds
    let t := a.churnPool ds fmt elems mode
    a.SameBytes t ∧ t.fld (F.MEMC_POOL_CNT c) = min (2 ^ 32 - 1) (a.fld (F.MEMC_POOL_CNT c) + 1) ∧
      t.fld (F.MEMC_DEQUANT_CNT c) = min (2 ^ 32 - 1) (a.fld (F.MEMC_DEQUANT_CNT c) + ds.length) ∧
      ((∀ r ∈ q.1, r.code = 0) →
        t.mem.reply = some ⟨(poolRows q.2.free mode elems (q.1.map (·.vals))).flatMap (leBytes 2), q.1.any (·.bad), 0⟩) := by
  intro q t
  obtain ⟨hsrc, hregs⟩ := State.dequantRows_leaves (s := a.asAgent .none) (fmt := fmt) hs hr he (ds := ds) fun e hm => by
    obtain ⟨y, hy⟩ := hd e hm
    exact ⟨c, y, State.dramPlace_iff.mp hy⟩
  have ht : t = _ := State.churnPool_dram a fmt elems mode hne hl hd
  rw [ht]
  obtain ⟨hbytes, hpool, hrows⟩ := State.poolCounted (a := a) hsrc hregs hc ds.length (poolReply elems mode q.2.free q.1)
  exact ⟨hbytes, hpool, hrows, fun hcode => congrArg some (poolReply_clean hcode)⟩

end

/-- SUMMARY_MERGE at an address that is none of DRAM merges nothing (R429). -/
theorem State.churnMerge_elsewhere {a : State} {d : Nat} (h : a.dramPlace d = none) (hn : inLine d 32 = true) (con : List Byte) (p : Bool) :
    (a.churnMerge d con p).mem.reply = some ⟨[], false, 0x5011⟩ ∧ a.SameBytes (a.churnMerge d con p) := by
  have hsame : ((a.asAgent .none).dropAcks .none).summaryMerge d con p = (a.asAgent .none).dropAcks .none := by
    have hh : ((a.asAgent .none).dropAcks .none).home d = a.home d := rfl
    rw [State.dramPlace] at h
    rw [State.summaryMerge, hh]
    cases hd : a.home d with
    | dram c x => simp [hd] at h
    | _ => rfl
  have hp := State.performed_silent (f := fun s => s.summaryMerge d con p) (congrArg State.grf hsame)
  rw [hsame] at hp
  rw [State.churnMerge, if_pos hn, h, hp]
  dsimp only
  rw [Option.isSome_none, if_neg Bool.false_ne_true]
  exact ⟨rfl, State.sameBytes_of_dramSource (by simp)⟩

/-- Settles O40, command by command. -/
theorem churnOperations : Obligations.ChurnOperations := by
  refine ⟨fun s dt d n => ⟨fun hn => ?_, fun hn => ?_⟩, ?_, ?_, fun s dt d e c c' x x' fmt elems mode hd he hc => ?_⟩
  · exact (s.exec_churnRead dt d n).trans (congrArg _ (if_pos hn))
  · exact (s.exec_churnRead dt d n).trans (congrArg _ (if_neg (by rw [hn]; decide)))
  · intro s dt d c x a line mark hs hg h hf
    refine ⟨fun n hn hr => ?_, fun bs p hn hu => ?_, fun mask addends p hr => ?_, fun con p hn _ hr => ?_, fun fmt elems he hr => ?_,
      fun ds fmt elems mode he hr hne hl hd => ?_⟩
    · obtain ⟨hreply, hrest⟩ := State.churnRead_dram hs h hf hr hn
      exact ⟨_, s.exec_churnRead dt d n, hreply, hrest⟩
    · obtain ⟨hst, hreply, hmark, hlow⟩ := State.churnWrite_dram hs h hg hf hu hn p
      exact ⟨_, s.exec_churnWrite dt d bs p, hst.peek, fun e he => hst.outside he, hreply, hmark, hlow⟩
    · exact ⟨_, s.exec_churnAdd32 dt d mask addends p, (State.churnAdd_dram hs h hg hf hr mask addends p).2,
        State.churnAdd_lanes hs hg h hf hr mask addends p⟩
    · exact ⟨_, s.exec_summaryMerge dt d con p, (State.churnMerge_dram hs h hg hf hr hn con p).2, State.churnMerge_fields hs hg h hf hr hn con p⟩
    · exact ⟨_, s.exec_churnDequant dt d fmt elems, State.churnDequant_spec hs hr he hg h⟩
    · exact ⟨_, s.exec_churnPool dt ds fmt elems mode, State.churnPool_spec hs hr he mode hne hl (State.home_dram_lt hs hg h).1 hd⟩
  · intro s dt d a
    refine ⟨fun bs p hn => ?_, fun h => ⟨fun fmt elems => ?_, fun fmt elems mode ds => ?_, fun con p hn _ => ?_⟩⟩
    · exact (s.exec_churnWrite dt d bs p).trans (congrArg _ (if_neg (by rw [hn]; decide)))
    · exact (s.exec_churnDequant dt d fmt elems).trans (congrArg _ (a.churnDequant_elsewhere fmt elems h))
    · exact (s.exec_churnPool dt (d :: ds) fmt elems mode).trans (congrArg _ (a.churnPool_elsewhere fmt elems mode h))
    · exact ⟨_, s.exec_summaryMerge dt d con p, State.churnMerge_elsewhere h hn con p⟩
  · exact (s.exec_churnPool dt [d, e] fmt elems mode).trans
      (congrArg _ ((s.arrive dt).churnPool_apart fmt elems mode hd (List.mem_singleton_self e) he hc))

end Sys2Proof.Machine
end

section
/-! PROOFS. What entry to the safe state leaves of the memory controllers (R452, R759): the marks of the lines of DRAM, the size of a channel and
the count of uncorrectable errors. -/

namespace Sys2Proof.Machine

/-- The marks of the lines of DRAM, the size of a channel, the power state, and UE_CNT of channel `c`. -/
def State.ueShown (c : Nat) (s : State) : Sparse Bool × Nat × Pwr × Word :=
  (s.mem.dramPoison, s.mem.chGib, s.pwr, Sparse.get resetCell s.regs (R.MEMC_UE_CNT c))

/-- The same of a state written out. -/
@[simp] theorem State.ueShown_mk (c : Nat) {cycles timebase free : Nat} {regs : Sparse Word} {hdr : Sparse PageHdr} {held : List (Nat × Nat)}
    {waiters : List Waiter} {logQueue : List LogReq} {cyc : Cyc} {fuses : Fuses} {mem : MemState} {frm : Frm} {sep : Sep} {slk : Slk}
    {scv : Scv} {hrv : Hrv} {etu : Etu} {grf : Grf} {tiles : Sparse Tile} {hif : Hif} {saf : Saf} {gpio : Gpio} {rst : Rst} {psv : Psv}
    {pwr : Pwr} {boot : Boot} {pending : List Instr} :
    State.ueShown c ⟨cycles, timebase, free, regs, hdr, held, waiters, logQueue, cyc, fuses, mem, frm, sep, slk, scv, hrv, etu, grf, tiles, hif,
      saf, gpio, rst, psv, pwr, boot, pending⟩ = (mem.dramPoison, mem.chGib, pwr, Sparse.get resetCell regs (R.MEMC_UE_CNT c)) := rfl

variable (s : State) (c : Nat)

@[simp] theorem State.ueShown_eta : (s.mem.dramPoison, s.mem.chGib, s.pwr, Sparse.get resetCell s.regs (R.MEMC_UE_CNT c)) = s.ueShown c := rfl

/-- UE_CNT stands at offset 0x5C of the pages of the memory controllers. -/
theorem ueCnt_ne {k : Nat} (h : k < 0xC005C ∨ k % 0x1000 ≠ 0x5C) : R.MEMC_UE_CNT c ≠ k := by
  rw [R.MEMC_UE_CNT]
  omega

theorem State.ueShown_of_inner {s t : State} (h : t.inner = s.inner) (hc : t.cell (R.MEMC_UE_CNT c) = s.cell (R.MEMC_UE_CNT c)) :
    t.ueShown c = s.ueShown c := by
  have hp : t.pwr = s.pwr := (congrArg State.pwr h :)
  have hr : Sparse.get resetCell t.regs (R.MEMC_UE_CNT c) = Sparse.get resetCell s.regs (R.MEMC_UE_CNT c) := hc
  rw [State.ueShown, State.mem_of_inner h, hp, hr, State.ueShown]

@[simp] theorem State.foldl_ueShown {α : Type} {f : State → α → State} (hf : ∀ s x, (f s x).ueShown c = s.ueShown c) (l : List α) :
    (l.foldl f s).ueShown c = s.ueShown c :=
  foldl_leaves (State.ueShown c) hf l s

/-! ### Updates of one part -/

@[simp] theorem State.updFrm_ueShown (f : Frm → Frm) : (s.updFrm f).ueShown c = s.ueShown c := (rfl)
@[simp] theorem State.updScv_ueShown (f : Scv → Scv) : (s.updScv f).ueShown c = s.ueShown c := (rfl)
@[simp] theorem State.updHrv_ueShown (f : Hrv → Hrv) : (s.updHrv f).ueShown c = s.ueShown c := (rfl)
@[simp] theorem State.updEtu_ueShown (f : Etu → Etu) : (s.updEtu f).ueShown c = s.ueShown c := (rfl)
@[simp] theorem State.updSaf_ueShown (f : Saf → Saf) : (s.updSaf f).ueShown c = s.ueShown c := (rfl)
@[simp] theorem State.updRst_ueShown (f : Rst → Rst) : (s.updRst f).ueShown c = s.ueShown c := (rfl)
@[simp] theorem State.lifeSafe_ueShown : s.lifeSafe.ueShown c = s.ueShown c := (rfl)
@[simp] theorem State.drawFree_ueShown : s.drawFree.ueShown c = s.ueShown c := (rfl)
@[simp] theorem State.updTile_ueShown (n : Nat) (f : Tile → Tile) : (s.updTile n f).ueShown c = s.ueShown c := (rfl)
@[simp] theorem State.setJob_ueShown (k r : Nat) (j : Option Job) : (s.setJob k r j).ueShown c = s.ueShown c := (rfl)
@[simp] theorem State.stopRemote_ueShown : s.stopRemote.ueShown c = s.ueShown c := (rfl)
@[simp] theorem State.dropPoints_ueShown (n : Nat) : (s.dropPoints n).ueShown c = s.ueShown c := (rfl)

/-! ### Registers, headers, events, errors -/

@[simp] theorem State.setFld_ueShown (f : Field) (v : Nat) (hf : f.reg < 0xC005C ∨ f.reg % 0x1000 ≠ 0x5C) : (s.setFld f v).ueShown c = s.ueShown c :=
  State.ueShown_of_inner c rfl (State.cell_setFld_other s v (ueCnt_ne c hf))
@[simp] theorem State.signal_ueShown (fn v : Nat) : (s.signal fn v).ueShown c = s.ueShown c :=
  State.ueShown_of_inner c (s.signal_inner fn v) (s.cell_signal fn v (ueCnt_ne c (by decide)))
@[simp] theorem State.event_ueShown (p b : Nat) : (s.event p b).ueShown c = s.ueShown c :=
  State.ueShown_of_inner c (s.event_inner p b) (s.cell_event p b (ueCnt_ne c (by decide)))
@[simp] theorem State.updCond_ueShown (p : Nat) (f : Cond → Cond) : (s.updCond p f).ueShown c = s.ueShown c :=
  State.ueShown_of_inner c (s.updCond_inner p f) (s.cell_updCond p f (ueCnt_ne c (by decide)))
@[simp] theorem State.error_ueShown (p code : Nat) (info : Word) : (s.error p code info).ueShown c = s.ueShown c :=
  State.ueShown_of_inner c (s.error_inner p code info) (s.cell_error p code info (ueCnt_ne c (by decide)) (ueCnt_ne c (by decide)))

/-! ### Jobs, and stored bytes without marks -/

@[simp] theorem State.jobAborted_ueShown (k r : Nat) (j : Job) (code : Nat) : (s.jobAborted k r j code).ueShown c = s.ueShown c := by
  unfold State.jobAborted State.writeStatus
  rw [State.setJob_ueShown]
  split_ifs <;> rfl

@[simp] theorem State.abortFollowers_ueShown (n code : Nat) : (s.abortFollowers n code).ueShown c = s.ueShown c := by
  simp [State.abortFollowers]

@[simp] theorem State.endWaiters_ueShown (n code : Nat) : (s.endWaiters n code true).ueShown c = s.ueShown c := by
  simp [State.endWaiters]

@[simp] theorem State.pokeByte_ueShown (o : Bool) (d : Nat) (b : Byte) : (s.pokeByte o d b).ueShown c = s.ueShown c := by
  unfold State.pokeByte
  split
  case h_3 => split_ifs <;> rfl
  all_goals rfl

@[simp] theorem State.poke_ueShown (o : Bool) (d : Nat) (bs : List Byte) : (s.poke o d bs).ueShown c = s.ueShown c := by
  induction bs generalizing s d with
  | nil => rfl
  | cons b t ih => exact (ih _ _).trans (s.pokeByte_ueShown c o d b)

@[simp] theorem State.scramble_ueShown (o : Bool) (d n : Nat) : (s.scramble o d n).ueShown c = s.ueShown c := by
  simp [State.scramble]

/-! ### Frames that stop -/

@[simp] theorem State.freeBank_ueShown (b : Option Nat) : (s.freeBank b).ueShown c = s.ueShown c := by
  unfold State.freeBank State.setBank
  split
  · split_ifs <;> rfl
  · rfl

@[simp] theorem State.freeFrameBanks_ueShown (f : Frame) : (s.freeFrameBanks f).ueShown c = s.ueShown c := by
  simp [State.freeFrameBanks]

@[simp] theorem State.abandonOp_ueShown (r : RunStage) (x : OpRun) : (s.abandonOp r x).ueShown c = s.ueShown c := by
  simp [State.abandonOp]

/-- A tile's tags stand at other offsets, whatever the tile's number. -/
@[simp] theorem State.releaseTile_ueShown (n : Nat) : (s.releaseTile n).ueShown c = s.ueShown c := by
  have hl : (F.TILE_SB_BUSY_LO_TAGS n).reg % 0x1000 ≠ 0x5C := by simp only [F.TILE_SB_BUSY_LO_TAGS, R.TILE_SB_BUSY_LO]; omega
  have hh : (F.TILE_SB_BUSY_HI_TAGS n).reg % 0x1000 ≠ 0x5C := by simp only [F.TILE_SB_BUSY_HI_TAGS, R.TILE_SB_BUSY_HI]; omega
  rw [State.releaseTile, State.updCond_ueShown, State.setFld_ueShown _ _ _ _ (Or.inr hh), State.setFld_ueShown _ _ _ _ (Or.inr hl),
    State.updTile_ueShown]

@[simp] theorem State.stopTiles_ueShown (r : RunStage) : (s.stopTiles r).ueShown c = s.ueShown c := by
  simp [State.stopTiles]

@[simp] theorem State.stopBev_ueShown (r : RunStage) : (s.stopBev r).ueShown c = s.ueShown c := by
  simp [State.stopBev, apply_ite (State.ueShown c)]

@[simp] theorem State.etuLastErr_ueShown (n code : Nat) : (s.etuLastErr n code).ueShown c = s.ueShown c := by
  simp (disch := decide) [State.etuLastErr]

@[simp] theorem State.stopEtuJob_ueShown (r : RunStage) (code : Nat) : (s.stopEtuJob r code).ueShown c = s.ueShown c := by
  unfold State.stopEtuJob
  dsimp only
  split_ifs
  · rfl
  · split
    · simp
    · split_ifs <;> simp

@[simp] theorem State.stopHrvRun_ueShown (code : Nat) : (s.stopHrvRun code).ueShown c = s.ueShown c := by
  unfold State.stopHrvRun
  split <;> simp

@[simp] theorem State.stopHarvest_ueShown (code : Nat) : (s.stopHarvest code).ueShown c = s.ueShown c := by
  simp [State.stopHarvest]

@[simp] theorem State.stopStages_ueShown (code : Nat) : (s.stopStages code).ueShown c = s.ueShown c := by
  simp [State.stopStages, apply_ite (State.ueShown c)]

@[simp] theorem State.dropCompute_ueShown (code : Nat) : (s.dropCompute code).ueShown c = s.ueShown c := by
  unfold State.dropCompute State.freeSets State.noSets
  split <;> simp (disch := decide)

@[simp] theorem State.dropClosing_ueShown : s.dropClosing.ueShown c = s.ueShown c := by
  unfold State.dropClosing
  split <;> simp

@[simp] theorem State.dropIngest_ueShown : s.dropIngest.ueShown c = s.ueShown c := by
  unfold State.dropIngest
  split <;> simp

@[simp] theorem State.dropWaiting_ueShown (code : Nat) : (s.dropWaiting code).ueShown c = s.ueShown c := by
  unfold State.dropWaiting
  dsimp only
  split <;> split <;> simp

@[simp] theorem State.emptySlot_ueShown (b : Nat) : (s.emptySlot b).ueShown c = s.ueShown c := by
  have hb : (planSlotState b).reg < 0xC005C := by
    unfold planSlotState
    split_ifs <;> decide
  simp (disch := first | decide | exact Or.inl hb) [State.emptySlot, State.setSlot, State.showPlan, apply_ite (State.ueShown c)]

@[simp] theorem State.afterFrame_ueShown : s.afterFrame.ueShown c = s.ueShown c := by
  have h := State.foldl_ueShown s c (f := fun (s : State) b => if bitOf s.rst.emptyAfter b then s.emptySlot b else s)
    (fun s b => by simp [apply_ite (State.ueShown c)]) (List.range 2)
  unfold State.afterFrame
  dsimp only
  split <;> split_ifs <;> simpa using h

/-! ### Causes and the safe state -/

@[simp] theorem State.raiseCause_ueShown (n : Nat) : (s.raiseCause n).ueShown c = s.ueShown c := by
  simp [State.raiseCause, apply_ite (State.ueShown c)]

@[simp] theorem State.takePins_ueShown (pins : List Nat) : (s.takePins pins).ueShown c = s.ueShown c := by
  unfold State.takePins
  dsimp only
  split
  · rfl
  · simp [apply_ite (State.ueShown c)]

@[simp] theorem State.signalVfs_ueShown (v : Nat) : (s.signalVfs v).ueShown c = s.ueShown c := by
  simp [State.signalVfs]

/-- Entry to the safe state ends an open sentry window, and nothing else of it reaches what is shown here. -/
theorem State.enterSafe_ueShown (n code : Nat) :
    (s.enterSafe n code).ueShown c = (s.updSaf (fun x => { x with inSafe := true })).sentryStop.ueShown c := by
  unfold State.enterSafe
  extract_lets v s1 s2 k s3 s4 s5 s6 s7 r s8 s9 s10 s11 s12 s13 s14
  have h3 : s3.ueShown c = s2.ueShown c := by rw [State.dropWaiting_ueShown, State.dropCompute_ueShown]
  have h5 : s5.ueShown c = s3.ueShown c := by
    rw [State.afterFrame_ueShown]
    unfold s4
    split_ifs
    · exact s3.raiseCause_ueShown c _
    · rfl
  have h8 : s8.ueShown c = s6.ueShown c := by simp [s8, s7]
  have h9 : s9.ueShown c = s5.ueShown c := (s8.updCond_ueShown c 0x040 _).trans (h8.trans (s5.updCond_ueShown c 0x010 _))
  have h10 : s10.ueShown c = s9.ueShown c := State.foldl_ueShown _ _ (fun s p => s.updCond_ueShown c p _) _
  have h13 : s13.ueShown c = s10.ueShown c := by simp (disch := decide) [s13, s12, s11, State.bump, State.bumpBy]
  have h14 : ((s14.takePins s14.safePins).signalVfs 0).ueShown c = s13.ueShown c := by simp [s14]
  exact h14.trans (h13.trans (h10.trans (h9.trans (h5.trans h3))))

theorem State.sentryStop_closed (h : s.pwr.phase = 0) : s.sentryStop = s := if_pos h

variable {s} in
theorem State.chGib_of_ueShown {t : State} (h : t.ueShown 0 = s.ueShown 0) : t.mem.chGib = s.mem.chGib := (congrArg (·.2.1) h :)

variable {s} in
theorem State.phase_of_ueShown {t : State} (h : t.ueShown c = s.ueShown c) (hp : s.pwr.phase = 0) : t.pwr.phase = 0 := by
  have hpwr : t.pwr = s.pwr := (congrArg (·.2.2.1) h :)
  rwa [hpwr]

/-- What the reset of the map leaves: the size of a channel. -/
theorem State.mapReset_chGib (n : Nat) : (s.updMem (fun m => { m with shardBase4M := n, combine := [], counts := [], reply := none })).mem.chGib =
    s.mem.chGib := rfl

/-- The loss of CORE and FABRIC leaves what is fitted (R722). -/
theorem State.fabricClear_chGib : s.fabricClear.mem.chGib = s.mem.chGib := by
  unfold State.fabricClear
  extract_lets _ _ gone s1 s2 s3 s4 s5 s6 s7
  have h6 : s6.mem.chGib = s.mem.chGib := by
    rw [State.mem_updPage, State.setFld_mem, State.updRst_mem, State.updSaf_mem, State.mapReset_chGib, State.updFrm_mem]
  have h7 : s7.mem = s6.mem := by
    unfold s7
    split_ifs
    · exact foldl_leaves State.mem (fun s p => s.mem_updPage p _) _ s6
    · rfl
  rw [← h6, ← h7]
  refine foldl_leaves (fun u : State => u.mem.chGib) (fun u n => ?_) gone s7
  rw [State.mem_updPage, State.setFld_mem, State.updTile_mem]

theorem State.sentryStop_chGib : s.sentryStop.mem.chGib = s.mem.chGib := by
  unfold State.sentryStop
  split_ifs
  · rfl
  · extract_lets s1 s2
    have h1 : s1.mem.chGib = s.mem.chGib := State.chGib_of_ueShown (State.foldl_ueShown s 0 (fun s r => s.stopTiles_ueShown 0 r) _)
    exact (State.fabricClear_chGib _).trans h1

theorem State.enterSafe_chGib (n code : Nat) : (s.enterSafe n code).mem.chGib = s.mem.chGib :=
  (State.chGib_of_ueShown (s.enterSafe_ueShown 0 n code)).trans (State.sentryStop_chGib _)

theorem State.firstCause_ueShown (n code : Nat) : (s.firstCause n code).ueShown c = s.ueShown c := by
  unfold State.firstCause
  split_ifs
  · simp (disch := decide)
  · rfl

/-! ### A cause that is latched -/

theorem State.latch_ueShown (h : s.pwr.phase = 0) (n code : Nat) : (s.latch n code).ueShown c = s.ueShown c := by
  have hr := s.raiseCause_ueShown c n
  have hp := State.phase_of_ueShown c hr h
  unfold State.latch
  dsimp only
  generalize s.raiseCause n = u at hr hp
  split_ifs
  · exact hr
  · rw [State.enterSafe_ueShown, State.sentryStop_closed (u.updSaf _) hp, State.updSaf_ueShown, hr]
  · rw [State.firstCause_ueShown, hr]

theorem State.latch_chGib (n code : Nat) : (s.latch n code).mem.chGib = s.mem.chGib := by
  have hr := State.chGib_of_ueShown (s.raiseCause_ueShown 0 n)
  unfold State.latch
  dsimp only
  generalize s.raiseCause n = u at hr
  split_ifs
  · exact hr
  · rw [State.enterSafe_chGib, hr]
  · rw [State.chGib_of_ueShown (u.firstCause_ueShown 0 n code), hr]

theorem State.sepFault_eq : s.sepFault = (s.updCond 0x040 (fun c => { c with fault := true })).latch Cause.blockFault 0 := by
  unfold State.sepFault State.pageFault
  dsimp only
  exact if_pos (by decide)

theorem State.sepFault_ueShown (h : s.pwr.phase = 0) : s.sepFault.ueShown c = s.ueShown c := by
  have hu := s.updCond_ueShown c 0x040 (fun c => { c with fault := true })
  rw [State.sepFault_eq, State.latch_ueShown _ _ (State.phase_of_ueShown c hu h), hu]

theorem State.sepFault_chGib : s.sepFault.mem.chGib = s.mem.chGib := by
  rw [State.sepFault_eq, State.latch_chGib, State.chGib_of_ueShown (s.updCond_ueShown 0 0x040 _)]

/-! ## An uncorrectable line (R449, R452) -/

/-- The state that records an uncorrectable error in page `c` of the memory controllers, before its cause is latched. -/
def State.ueRecorded (c x d : Nat) : State :=
  (((((s.bump (F.MEMC_UE_CNT c)).setFld (F.MEMC_UE_ADDR_LO_ADDR c) (d % 2 ^ 32)).setFld (F.MEMC_UE_ADDR_HI_ADDR c) (d / 2 ^ 32)).error
    (0x0C0 + 2 * c) 0x5010 (word (c * 2 ^ 29 + x / 64 % 2 ^ 27))).event (0x0C0 + 2 * c) 1)

theorem State.ueRecorded_ueShown (x d : Nat) : (s.ueRecorded c x d).ueShown c = (s.bump (F.MEMC_UE_CNT c)).ueShown c := by
  have hl : (F.MEMC_UE_ADDR_LO_ADDR c).reg % 0x1000 ≠ 0x5C := by simp only [F.MEMC_UE_ADDR_LO_ADDR, R.MEMC_UE_ADDR_LO]; omega
  have hh : (F.MEMC_UE_ADDR_HI_ADDR c).reg % 0x1000 ≠ 0x5C := by simp only [F.MEMC_UE_ADDR_HI_ADDR, R.MEMC_UE_ADDR_HI]; omega
  rw [State.ueRecorded, State.event_ueShown, State.error_ueShown, State.setFld_ueShown _ _ _ _ (Or.inr hh), State.setFld_ueShown _ _ _ _ (Or.inr hl)]

theorem State.dramUeNoted_eq (x d : Nat) : s.dramUeNoted c x d =
    let u := (s.ueRecorded c x d).latch Cause.memUe 0x5010
    if u.inSepRegion d then u.sepFault else u := rfl

/-- An uncorrectable error is counted once, and no line is marked by its record. -/
theorem State.dramUeNoted_ueShown (h : s.pwr.phase = 0) (x d : Nat) : (s.dramUeNoted c x d).ueShown c = (s.bump (F.MEMC_UE_CNT c)).ueShown c := by
  have hr := s.ueRecorded_ueShown c x d
  have hp : (s.ueRecorded c x d).pwr.phase = 0 := State.phase_of_ueShown c hr h
  have hl := (s.ueRecorded c x d).latch_ueShown c hp Cause.memUe 0x5010
  rw [State.dramUeNoted_eq]
  dsimp only
  split_ifs
  · rw [State.sepFault_ueShown _ _ (State.phase_of_ueShown c hl hp), hl, hr]
  · rw [hl, hr]

theorem State.dramUeNoted_chGib (x d : Nat) : (s.dramUeNoted c x d).mem.chGib = s.mem.chGib := by
  have hr : (s.ueRecorded c x d).mem.chGib = s.mem.chGib := (congrArg (·.2.1) (s.ueRecorded_ueShown c x d) :)
  rw [State.dramUeNoted_eq]
  dsimp only
  split_ifs
  · rw [State.sepFault_chGib, State.latch_chGib, hr]
  · rw [State.latch_chGib, hr]

/-! ### Lines that are marked -/

theorem State.poisonLine_mark (a : Nat) : Sparse.get noMark (s.poisonLine c a).mem.dramPoison (dramKey c a / 64) = true :=
  Sparse.get_set_same noMark s.mem.dramPoison (dramKey c a / 64) true

/-- The lines of a group are marked. -/
theorem State.poisonLines_pwr (a : Nat) (l : List Nat) : (l.foldl (fun (s : State) i => s.poisonLine c (a + 64 * i)) s).pwr = s.pwr :=
  foldl_leaves State.pwr (f := fun s i => s.poisonLine c (a + 64 * i)) (fun _ _ => rfl) l s
theorem State.poisonLines_regs (a : Nat) (l : List Nat) : (l.foldl (fun (s : State) i => s.poisonLine c (a + 64 * i)) s).regs = s.regs :=
  foldl_leaves State.regs (f := fun s i => s.poisonLine c (a + 64 * i)) (fun _ _ => rfl) l s
theorem State.poisonLines_chGib (a : Nat) (l : List Nat) : (l.foldl (fun (s : State) i => s.poisonLine c (a + 64 * i)) s).mem.chGib = s.mem.chGib :=
  foldl_leaves (fun s : State => s.mem.chGib) (f := fun s i => s.poisonLine c (a + 64 * i)) (fun _ _ => rfl) l s

/-- A line found uncorrectable is counted, and marked where it is a data line. -/
theorem State.lineUe_spec (h : s.pwr.phase = 0) (p d : Nat) :
    (s.lineUe c p d).fld (F.MEMC_UE_CNT c) = min (2 ^ 32 - 1) (s.fld (F.MEMC_UE_CNT c) + 1) ∧
      (p % 16 ≠ 15 → (s.lineUe c p d).lineMark c ((p / 16 * 15 + p % 16) * 64) = true) := by
  have hcount : ∀ (u : State), u.pwr = s.pwr → u.regs = s.regs → ∀ x d, (u.dramUeNoted c x d).fld (F.MEMC_UE_CNT c) =
      min (2 ^ 32 - 1) (s.fld (F.MEMC_UE_CNT c) + 1) ∧ (u.dramUeNoted c x d).mem.dramPoison = u.mem.dramPoison := fun u hp hr x d => by
    have hu := u.dramUeNoted_ueShown c (hp ▸ h) x d
    have hcell : (u.dramUeNoted c x d).cell (R.MEMC_UE_CNT c) = (u.bump (F.MEMC_UE_CNT c)).cell (R.MEMC_UE_CNT c) := (congrArg (·.2.2.2) hu :)
    refine ⟨?_, congrArg Prod.fst hu⟩
    rw [State.fld_of_cell hcell, State.bump, State.fld_bumpBy_word _ rfl rfl, State.fld_of_regs hr]
  unfold State.lineUe
  dsimp only
  split_ifs with hp
  · exact ⟨(hcount _ (s.poisonLines_pwr c _ _) (s.poisonLines_regs c _ _) _ _).1, fun hne => absurd hp hne⟩
  · obtain ⟨hc, hm⟩ := hcount (s.poisonLine c (p / 16 * 15 * 64 + p % 16 * 64)) rfl rfl (p / 16 * 15 * 64 + p % 16 * 64) d
    refine ⟨hc, fun _ => ?_⟩
    rw [State.lineMark, hm, Nat.add_mul, State.poisonLine_mark]

theorem State.lineUe_chGib (p d : Nat) : (s.lineUe c p d).mem.chGib = s.mem.chGib := by
  unfold State.lineUe
  dsimp only
  split_ifs
  · exact (State.dramUeNoted_chGib _ _ _ _).trans (s.poisonLines_chGib c _ _)
  · exact State.dramUeNoted_chGib _ _ _ _

end Sys2Proof.Machine
end

section
/-! PROOFS. The map of the channels, and the scrub of one line (R411, R414 to R419, R449, R451, R452, R454, R457). -/

namespace Sys2Proof.Machine

/-! ## SHARD_CFG (R419, R457) -/

/-- DRAM lies in one of eight channels. -/
theorem State.home_dram_channel {s : State} (hs : s.mem.shardBase4M < 2048) {d c x : Nat} (h : s.home d = .dram c x) : c < 8 := by
  obtain ⟨-, ⟨-, hc, -⟩ | ⟨-, hd, hc, -⟩⟩ := (State.home_dram hs).mp h
  · exact hc ▸ ilvChannel_lt d
  · omega

section
variable (s : State) (dt w : Nat) (v : Word)

theorem State.exec_shardCfgWrite (c : Nat) : exec (.shardCfgWrite dt c w v) s = .next ((s.arriveBy dt w).writeShardCfg c w v) := rfl
theorem State.exec_scrubLine (c mr4 : Nat) (ups : List Upset) : exec (.scrubLine dt c mr4 ups) s = .next ((s.arrive dt).scrubLine c mr4 ups) := rfl

/-- The state with a new bound of the shards, whose tables are undefined. -/
def State.remapped (n : Nat) : State := (s.updMem (fun m => { m with shardBase4M := n })).undefineTables

variable {s w v} (h : s.admitsRwl 0x0C0 0x50 w v = true)
include h

theorem State.writeShardCfg_quiet (hq : s.mapQuiet = true) : s.writeShardCfg 0 w v = (s.remapped (getBits v 10 0)).wrote 0x0C0 w := by
  rw [State.writeShardCfg, if_neg (by decide), State.onRwl_admitted h, if_pos hq, State.remapped]

theorem State.writeShardCfg_busy (hq : s.mapQuiet = false) : s.writeShardCfg 0 w v = s.error 0x0C0 0xA012 (infoOffWriter 0x50 w) := by
  rw [State.writeShardCfg, if_neg (by decide), State.onRwl_admitted h, hq]
  rfl

end

theorem State.writeShardCfg_other {s : State} {c w : Nat} {v : Word} (hc : c ≠ 0) (h : s.admits (0x0C0 + 2 * c) 0x50 w v = true) :
    s.writeShardCfg c w v = s.wrote (0x0C0 + 2 * c) w := by
  rw [State.writeShardCfg, if_pos hc, State.onWrite_admitted h]

/-! ## The scrub of one line (R454) -/

section
variable (s : State) (c : Nat)

/-- The line the scrub of channel `c` checks next. -/
def State.scrubPos : Nat := Sparse.get (fun _ => 0) s.mem.scrubNext c

/-- The scrub of channel `c` goes on with line `n`. -/
def State.scrubTo (n : Nat) : State := s.updMem (fun m => { m with scrubNext := Sparse.set (fun _ => 0) m.scrubNext c n })

theorem State.scrubTo_at (n : Nat) : Sparse.get (fun _ => 0) (s.scrubTo c n).mem.scrubNext c = n := Sparse.get_set_same _ s.mem.scrubNext c n
theorem State.scrubTo_sameBytes (n : Nat) : s.SameBytes (s.scrubTo c n) := fun _ => rfl

/-- The combining buffer holds data line `p` of the channel (R448). -/
def State.scrubHeld (p : Nat) : Bool := p % 16 != 15 && (s.combined c).contains (p / 16 * 15 + p % 16)

variable {s c}

theorem State.scrubHeld_false {p : Nat} (h : p % 16 = 15 ∨ (s.combined c).contains (p / 16 * 15 + p % 16) = false) : s.scrubHeld c p = false := by
  rcases h with h | h
  · rw [State.scrubHeld, h, bne_self_eq_false, Bool.false_and]
  · rw [State.scrubHeld, h, Bool.and_false]

/-- While it runs the scrub reads the next line, unless the combining buffer holds it, and goes on short of the channel's end. -/
theorem State.scrubNextLine_running {p : Nat} (hp : s.scrubPos c = p) (he : s.fld (F.MEMC_SCRUB_CFG_SCRUB_EN c) ≠ 0)
    (hpa : (s.page (0x0C0 + 2 * c)).pausing = false) (ho : (s.page (0x0C0 + 2 * c)).cond.off = false) (hf : s.mem.failed.contains c = false)
    {u : State} (hu : (if s.scrubHeld c p then s else s.scrubRead c p) = u) (hg : p + 1 < u.mem.chGib * 2 ^ 24) :
    s.scrubNextLine c = u.scrubTo c (p + 1) := by
  have hstop : ¬(s.fld (F.MEMC_SCRUB_CFG_SCRUB_EN c) = 0 ∨ (s.page (0x0C0 + 2 * c)).pausing = true ∨ (s.page (0x0C0 + 2 * c)).cond.off = true ∨
      s.mem.failed.contains c = true) := by simp only [he, hpa, ho, hf, Bool.false_eq_true, or_self, not_false_eq_true]
  have hwrap : decide (u.mem.chGib * 2 ^ 24 ≤ p + 1) = false := decide_eq_false (by omega)
  subst hp
  unfold State.scrubHeld State.scrubPos at hu
  unfold State.scrubNextLine
  dsimp only
  rw [if_neg hstop, hu]
  unfold State.scrubPos at hwrap
  rw [hwrap]
  rfl

/-! ### What a line read by the scrub leaves -/

theorem State.takeInjection_mem (s : State) (t i : Nat) : (s.takeInjection t i).2.mem = s.mem := by
  unfold State.takeInjection
  split_ifs <;> rfl

theorem State.dramCe_mem (s : State) : (s.dramCe c).mem = s.mem := (State.mem_of_inner (State.event_inner _ _ _)).trans rfl

theorem State.mendUnit_chGib (s : State) (o : Bool) (u : Nat) : (s.mendUnit o u).mem.chGib = s.mem.chGib := by
  unfold State.mendUnit
  split_ifs <;> rfl

theorem State.meetPhys_chGib (s : State) (p d : Nat) : (s.meetPhys c p d).2.mem.chGib = s.mem.chGib := by
  unfold State.meetPhys
  split
  · rfl
  · exact (State.lineUe_chGib _ _ _ _).trans (State.mendUnit_chGib _ _ _)
  · exact (congrArg MemState.chGib (State.dramCe_mem _)).trans (State.mendUnit_chGib _ _ _)

theorem State.scrubRead_chGib (s : State) (p : Nat) : (s.scrubRead c p).mem.chGib = s.mem.chGib := by
  have h4 := s.takeInjection_mem 4 c
  have h3 := (s.takeInjection 4 c).2.takeInjection_mem 3 c
  unfold State.scrubRead
  dsimp only
  split_ifs
  · rw [State.dramUeNoted_chGib, h4]
  · rw [State.meetPhys_chGib, State.dramCe_mem, h3, h4]
  · rw [State.meetPhys_chGib, h3, h4]

/-- Where no injection lies in wait the scrub meets what is in the line. -/
theorem State.scrubRead_meets (h : s.saf.injActive = []) (p : Nat) :
    ∃ d, s.scrubRead c p = (s.meetPhys c p d).2 := by
  have hi : ∀ t, s.takeInjection t c = (false, s) := fun t => State.takeInjection_none (by rw [State.injected, h]; rfl)
  refine ⟨s.deviceAddr c ((p / 16 * 15 + min (p % 16) 14) * 64), ?_⟩
  unfold State.scrubRead
  rw [hi 4]
  dsimp only
  rw [hi 3]
  rfl

theorem State.scrubRead_clean (h : s.readsClean = true) (p : Nat) : s.scrubRead c p = s := by
  have hu : s.upsetIn false (physLine c p) = none := by rw [State.upsetIn, State.upsets_clean h]; rfl
  obtain ⟨d, hr⟩ := State.scrubRead_meets (c := c) (List.isEmpty_iff.mp (Bool.and_eq_true_iff.mp h).1) p
  rw [hr, State.meetPhys, hu]

/-- The mending of a unit changes the list of errors alone. -/
theorem State.mendUnit_leaves (s : State) (o : Bool) (u : Nat) : (s.mendUnit o u).regs = s.regs ∧ (s.mendUnit o u).pwr = s.pwr ∧
    s.SameBytes (s.mendUnit o u) := by
  unfold State.mendUnit
  split_ifs <;> exact ⟨rfl, rfl, fun _ => rfl⟩

/-- A correctable error is counted (R451), and the bytes stand. -/
theorem State.dramCe_counted (hc : c < 8) : (s.dramCe c).fld (F.MEMC_CE_CNT c) = min (2 ^ 32 - 1) (s.fld (F.MEMC_CE_CNT c) + 1) ∧
    s.SameBytes (s.dramCe c) := by
  have hne : (F.MEMC_CE_CNT c).reg ≠ R.HIF_MSIX_PBA := by
    simp only [F.MEMC_CE_CNT, R.MEMC_CE_CNT, R.HIF_MSIX_PBA]
    omega
  refine ⟨?_, State.sameBytes_of ?_⟩
  · rw [State.dramCe, State.fld_event _ _ _ hne, State.bump, State.fld_bumpBy_word _ rfl rfl]
  · exact (State.byteSource_event _ _ _).trans (State.byteSource_churnCount s (k := 0x58) hc (by decide) rfl 1)

/-- A line with a correctable error. -/
theorem State.scrubRead_ce (hc : c < 8) (h : s.saf.injActive = []) {p : Nat} (hu : s.upsetIn false (physLine c p) = some false) :
    (s.scrubRead c p).fld (F.MEMC_CE_CNT c) = min (2 ^ 32 - 1) (s.fld (F.MEMC_CE_CNT c) + 1) ∧ s.SameBytes (s.scrubRead c p) := by
  obtain ⟨d, hr⟩ := State.scrubRead_meets (c := c) h p
  obtain ⟨hregs, -, hbytes⟩ := s.mendUnit_leaves false (physLine c p)
  obtain ⟨hcount, hce⟩ := State.dramCe_counted (s := s.mendUnit false (physLine c p)) hc
  rw [hr, State.meetPhys, hu]
  exact ⟨hcount.trans (by rw [State.fld_of_regs hregs]), fun e => (hce e).trans (hbytes e)⟩

/-- A line with an uncorrectable error. -/
theorem State.scrubRead_ue (h : s.saf.injActive = []) (hp : s.pwr.phase = 0) {p : Nat} (hu : s.upsetIn false (physLine c p) = some true) :
    (s.scrubRead c p).fld (F.MEMC_UE_CNT c) = min (2 ^ 32 - 1) (s.fld (F.MEMC_UE_CNT c) + 1) ∧
      (p % 16 ≠ 15 → (s.scrubRead c p).lineMark c ((p / 16 * 15 + p % 16) * 64) = true) := by
  obtain ⟨d, hr⟩ := State.scrubRead_meets (c := c) h p
  obtain ⟨hregs, hpwr, -⟩ := s.mendUnit_leaves false (physLine c p)
  obtain ⟨hcount, hmark⟩ := (s.mendUnit false (physLine c p)).lineUe_spec c (by rwa [hpwr]) p d
  rw [hr, State.meetPhys, hu]
  exact ⟨hcount.trans (by rw [State.fld_of_regs hregs]), hmark⟩

/-- One line of a scrub that runs: what becomes of the place, of a clean memory, and of a line with an error. -/
theorem State.scrubNextLine_spec (hc : c < 8) {p : Nat} (hp : s.scrubPos c = p) (he : s.fld (F.MEMC_SCRUB_CFG_SCRUB_EN c) ≠ 0)
    (hpa : (s.page (0x0C0 + 2 * c)).pausing = false) (ho : (s.page (0x0C0 + 2 * c)).cond.off = false) (hf : s.mem.failed.contains c = false)
    (hg : p + 1 < s.mem.chGib * 2 ^ 24) :
    let t := s.scrubNextLine c
    t.scrubPos c = p + 1 ∧ (s.readsClean = true → s.SameBytes t ∧ t.regs = s.regs ∧ t.hdr = s.hdr) ∧
      (s.saf.injActive = [] → s.pwr.phase = 0 → (p % 16 = 15 ∨ (s.combined c).contains (p / 16 * 15 + p % 16) = false) →
        (s.upsetIn false (physLine c p) = some false →
          t.fld (F.MEMC_CE_CNT c) = min (2 ^ 32 - 1) (s.fld (F.MEMC_CE_CNT c) + 1) ∧ s.SameBytes t) ∧
        (s.upsetIn false (physLine c p) = some true → t.fld (F.MEMC_UE_CNT c) = min (2 ^ 32 - 1) (s.fld (F.MEMC_UE_CNT c) + 1) ∧
          (p % 16 ≠ 15 → t.lineMark c ((p / 16 * 15 + p % 16) * 64) = true))) := by
  intro t
  obtain ⟨u, hu⟩ : ∃ u, (if s.scrubHeld c p then s else s.scrubRead c p) = u := ⟨_, rfl⟩
  have hgib : u.mem.chGib = s.mem.chGib := by
    rw [← hu]
    split_ifs
    · rfl
    · exact s.scrubRead_chGib p
  have ht : t = u.scrubTo c (p + 1) := State.scrubNextLine_running hp he hpa ho hf hu (hgib ▸ hg)
  rw [ht]
  refine ⟨u.scrubTo_at c (p + 1), fun hr => ?_, fun hi hph hin => ?_⟩
  · rw [State.scrubRead_clean hr, ite_self] at hu
    exact hu ▸ ⟨s.scrubTo_sameBytes c (p + 1), rfl, rfl⟩
  · rw [State.scrubHeld_false hin, if_neg Bool.false_ne_true] at hu
    subst hu
    exact ⟨State.scrubRead_ce hc hi, State.scrubRead_ue hi hph⟩

end

/-- Settles O39: the map part by part, and the scrub by what it meets in the line. -/
theorem addressesNameOnePlace : Obligations.AddressesNameOnePlace := by
  refine ⟨fun s d e hs => ⟨fun c x => State.home_dram_inj hs, fun t o => State.home_cellar_inj, fun c x => State.home_dram_channel hs⟩,
    fun s dt w v => ⟨fun h => ⟨fun hq => ?_, fun hq => ?_⟩, fun c hc h => ?_⟩, fun s dt c mr4 ups hc => ⟨fun hstop => ?_, fun he hpa ho hf hg => ?_⟩⟩
  · exact ⟨_, (s.exec_shardCfgWrite dt w v 0).trans (congrArg _ (State.writeShardCfg_quiet h hq)), rfl, rfl, rfl, rfl, rfl,
      State.wrote_lastWriter _ _ _, rfl⟩
  · exact (s.exec_shardCfgWrite dt w v 0).trans (congrArg _ (State.writeShardCfg_busy h hq))
  · exact (s.exec_shardCfgWrite dt w v c).trans (congrArg _ (State.writeShardCfg_other hc h))
  · exact (s.exec_scrubLine dt c mr4 ups).trans (congrArg _ (if_pos hstop))
  · exact ⟨_, s.exec_scrubLine dt c mr4 ups, State.scrubNextLine_spec hc rfl he hpa ho hf hg⟩

end Sys2Proof.Machine
end
